-- ==== Sys2Proof/Word.lean ====
section
/-! DEFINITION. The word types of the Yargar model and the one shape of its sparse tables. Arithmetic on them
lives in `Sys2Proof/Machine/Ops.lean`. -/

namespace Sys2Proof

/-- A byte. -/
abbrev Byte := BitVec 8

/-- The contents of a register. Registers of 32 bits use the lower half (R17). -/
abbrev Reg := BitVec 64

/-- A sparse table: (key, value) pairs with strictly rising keys, where no listed value equals the value that an
unlisted key reads as. -/
abbrev Table (α : Type) := List (Nat × α)

end Sys2Proof
end

