-- ==== Sys2Proof/Syntax.lean ====
section
/-! DEFINITION. The commands the Yargar takes: one constructor of `Instr` for each row of the opcode table, with the
operands the row's event or act carries, and the operand types. -/

namespace Sys2Proof

/-- Logical tile number (R9). -/
abbrev TileId := Fin 768
/-- Device cluster index g, and the router of the same index (R7). -/
abbrev ClusterId := Fin 240
/-- Field index f (R5). -/
abbrev FieldId := Fin 12
/-- Link index, numbered as in R29. -/
abbrev LinkId := Fin 96
/-- HBM slice number (R30). -/
abbrev SliceId := Fin 768
/-- HBM stack number. -/
abbrev StackId := Fin 24
/-- Submission or completion queue number of a head (R315). -/
abbrev QueueId := Fin 64
/-- Season slot number (R194). -/
abbrev SlotId := Fin 8
/-- DMA engine of a tile (R168). -/
abbrev EngineId := Fin 4

/-- The two host ports (R308). -/
inductive Head where
  | ha | hb
  deriving DecidableEq, Repr

/-- Who performs a register write: a host through its head, the service client, or device firmware (R18, R323). -/
inductive Master where
  | ha | hb | svc | fw
  deriving DecidableEq, Repr

/-- The part of a 64-bit register that a write carries (R531). -/
inductive Half where
  | full | low | high
  deriving DecidableEq, Repr

/-- One register write: a BAR0 offset (R530), a width in bits and the value written. -/
structure RegWrite where
  master : Master
  off : Nat
  width : Nat
  value : Nat
  deriving DecidableEq, Repr

/-- Operand type of a stream processor instruction, TY of R102. -/
inductive SpTy where
  | fp32 | bf16 | fp16 | int32
  deriving DecidableEq, Repr

/-- Relation of a compare-to-predicate (R103). -/
inductive Cmp where
  | eq | ne | lt | le
  deriving DecidableEq, Repr

/-- Vector arithmetic operations, class 0x00–0x1F of R103. -/
inductive VecOp where
  | add | sub | mul | fma | min | max | abs | neg | cmp (c : Cmp) | select
  deriving DecidableEq, Repr

/-- Conversions of class 0x20–0x2F of R103; the source type is TY. -/
inductive CvtOp where
  | toType (dst : SpTy) | toE4M3 | toE5M2 | fromE4M3 | fromE5M2
  deriving DecidableEq, Repr

/-- Output formats of R60 and R61, by the format codes of R89. -/
inductive OutFmt where
  | e4m3 | e5m2 | int8 | int4 | bf16 | fp16 | fp32
  deriving DecidableEq, Repr

/-- Element formats of MX blocks (R46). -/
inductive MxElem where
  | e4m3 | e5m2 | e3m2 | e2m3 | e2m1 | int8
  deriving DecidableEq, Repr

/-- Functions of class 0x30–0x3F of R103. -/
inductive SpFn where
  | exp | log2 | recip | rsqrt | tanh | sigmoid | gelu | silu | softplus
  deriving DecidableEq, Repr

/-- Lane reductions of class 0x40–0x4F of R103. -/
inductive RedOp where
  | sum | max | min
  deriving DecidableEq, Repr

/-- Integer and logic operations of class 0x50–0x5F of R103. -/
inductive IntOp where
  | and | or | xor | shl | shr | sar | add | sub | mul | laneIndex
  deriving DecidableEq, Repr

/-- Tile memory that a stream processor access names (R106). -/
inductive SpMem where
  | am | pm
  deriving DecidableEq, Repr

/-- Branch kinds of class 0x70–0x7F of R103: always, or on the scalar register named by VA. -/
inductive BranchCond where
  | always | zero | nonzero
  deriving DecidableEq, Repr

/-- The fields of an instruction word besides OP (R102). -/
structure SpFields where
  ty : SpTy
  vd : Nat
  va : Nat
  vb : Nat
  vc : Nat
  ps : Nat
  imm : Nat
  deriving DecidableEq, Repr

/-- Ports 0–16 of a router, numbered as in R231. -/
abbrev RouterPort := Fin 17

/-- A concourse packet (R234): the header fields, the control payload (up to 40 bytes) or the data payload, and the
48-byte extension of a data packet as a number. Beside the header: the links it has crossed (R299); the route word of its
sideband, the destination router in bits 7 to 0 and the port in bits 12 to 8 (R240); and the bits that have been inverted on
its way since it was sent, as pairs of a byte of its flits, in order, and a mask of that byte's eight bits and its parity
bit (R232, R249). -/
structure Packet where
  rdst : Nat
  src : Nat
  dst : Nat
  data : Bool
  opc : Nat
  len : Nat
  txid : Nat
  srcFdn : Nat
  dstFdn : Nat
  payload : List Byte
  ext : Nat
  crc : Nat := 0
  hops : Nat := 0
  route : Nat := 0
  upset : List (Nat × Nat) := []
  deriving DecidableEq, Repr

/-- Bundles of seam wires (R254): of a concourse channel, by its row or number in R231, its direction (`rev` westward), and
one of the 23 bundles that a direction's 722 wires make; of a lane of a lattice link, one of its three. -/
inductive SeamBundle where
  | mesh (row : Fin 15) (rev : Bool) (k : Fin 23)
  | expr (i : Fin 60) (rev : Bool) (k : Fin 23)
  | lx (i : Fin 21) (rev : Bool) (k : Fin 23)
  | lane (i : Nat) (k : Fin 3)
  deriving DecidableEq, Repr

/-- Frame types of R289. -/
inductive FrameType where
  | seq | null | init | reserved
  deriving DecidableEq, Repr

/-- A frame of a chip link whose CRC is correct (R289): the header fields and the body's bytes. -/
structure Frame where
  seq : Nat
  ack : Nat
  ccred : Nat
  dcred : Nat
  ftype : FrameType
  nak : Bool
  fence : Bool
  epoch : Nat
  body : List Byte
  deriving DecidableEq, Repr

/-- CXL event logs of R518, by the class they carry. -/
inductive CxlLog where
  | informational | warning | failure | fatal
  deriving DecidableEq, Repr

/-- Tile memories and stores that the scrubber reads (R330). -/
inductive TileMem where
  | wm | am | pm | istore | operand | weightBuf
  deriving DecidableEq, Repr

/-- An operation of a column's accumulate stage as the hardware performed it: the LA96 words of the partial and of the result,
and the residue of the column sum that its own adder tree found (R331). -/
structure AccOp where
  part : Nat
  column : Nat
  result : Nat
  deriving DecidableEq, Repr

/-- A 64-bit word of a tile's SRAM in which one bit, or two, have been inverted (R330). -/
structure WordError where
  mem : TileMem
  word : Nat
  double : Bool
  deriving DecidableEq, Repr

/-- The kinds of record that a boot reads from the configuration store (R462). -/
inductive NvmRec where
  | boot | config | device | map | retire | journal | lifetime | log
  deriving DecidableEq, Repr

/-- Bits of a stored record that have been inverted, by a torn write or in the cells: on NVM-B or NVM-A, the record's kind, how
many records of the kind are newer, the byte and the bits (R462). -/
structure NvmFlip where
  onB : Bool
  kind : NvmRec
  back : Nat
  byte : Nat
  mask : Nat
  deriving DecidableEq, Repr

/-- Steps of the supply sequence, each named by what reaches regulation (R376). -/
inductive Supply where
  | aux | supervisor | oscillator | linkAndHost | hbm
  | field (f : FieldId)
  deriving DecidableEq, Repr

/-- Supervisor, HBM and link rails of R374, whose faults R375 treats alike. -/
inductive AuxRail where
  | svCore | svIo | vpp | vddc | vddq | hbmPhy | lkCore | lkAna | lkHv
  deriving DecidableEq, Repr

/-- What the controller has measured at the end of one 1 µs sample (R386, R355, R367): the input voltage in 10 mV and
current in 0.1 A, and per cluster or field, as (index, value) pairs, the cluster current in 0.1 A, the activity a(g),
the field rail current in A and the sensed die voltage in mV. -/
structure PowerSample where
  vin : Nat
  iin : Nat
  iout : List (Nat × Nat)
  act : List (Nat × Nat)
  ifield : List (Nat × Nat)
  vrail : List (Nat × Nat)
  deriving DecidableEq, Repr

/-- A temperature sensor in a field's fabric domain (R392). -/
inductive TempSensor where
  | cluster (g : ClusterId)
  | fabric (f : FieldId)
  deriving DecidableEq, Repr

/-- The PLLs whose lock the device watches (R409). -/
inductive Pll where
  | seam
  | field (f : FieldId)
  deriving DecidableEq, Repr

/-- Causes of a device-wide reset, LAST_CAUSE of SUP_RESET_STAT (R457). -/
inductive ResetCause where
  | none | owner | winter | pllLock | syncFault | fcWatchdog | privTimeout | supWatchdog | seamPll | twoFields
  | power | firmware | fieldLost
  deriving DecidableEq, Repr

/-- Bits of a symbol of an HBM burst that have been inverted in its cells: the burst by address div 32, the symbol of its
codeword, the bits, and whether the cells are defective (R264, R271). -/
structure CellError where
  burst : Nat
  symbol : Nat
  bits : Nat
  hard : Bool
  deriving DecidableEq, Repr

/-- The completions of the SPRING steps of R437 that have no row of their own, with what each step has found. -/
inductive SpringEvent where
  /-- t4: fabric domains up; the fields whose PLL has not locked (R409, R450 cause 6). -/
  | fabricUp (unlocked : List FieldId)
  /-- t5: field alignment, the worst readings of the 17 crossings at each attempt (R411), the seam wires that the
  test found failed (R254), and where the fields' interpolators stand afterwards (R410). -/
  | aligned (attempts : List (List Int)) (seam : List (SeamBundle × Nat)) (interp : List Int)
  /-- t6: the map record is read. -/
  | mapRead
  /-- t7: CXL controller firmware runs. -/
  | cxlReady
  /-- t8: HBM PHY firmware runs. -/
  | hbmReady
  /-- t9: trim and site tests: per cluster the codes at which it warned (R366), the phases that failed again (R369),
  and the sites whose KAT_RUN failed (R439). -/
  | tested (trims : List (Nat × List Nat)) (phases : List (Nat × Nat)) (failed : List Nat)
  /-- t10: HBM training complete; the stacks that failed identification or training (R256), the pseudo-channels lost in
  training (R271), and the lanes repaired, by pseudo-channel and lane (R257). -/
  | hbmTrained (failed : List StackId) (lost : List SliceId) (repaired : List (SliceId × Nat))
  /-- A firmware component that failed its check before the supervisor firmware could run (R438, code 4). -/
  | firmwareStop
  /-- CREF still absent (R409). -/
  | crefAbsent
  deriving DecidableEq, Repr

/-- The header of a service message that opens a session (R473, R474). -/
structure SvcHdr where
  session : Nat
  seq : Nat
  deriving DecidableEq, Repr

/-- A service message within a session (R473): its header, its payload and its MAC. -/
structure SvcMsg where
  session : Nat
  seq : Nat
  payload : List Byte
  mac : List Byte
  deriving DecidableEq, Repr

/-- Where an SPDM request arrives (R506). -/
inductive Transport where
  | doe (h : Head)
  | svc
  deriving DecidableEq, Repr

/-- An SPDM request: its version, its two parameters and its bytes (R506). -/
structure SpdmReq where
  version : Nat
  param1 : Nat
  param2 : Nat
  bytes : List Byte
  deriving DecidableEq, Repr

/-- The commands: one constructor per row of the opcode table. -/
inductive Instr where
  /-- ACCESS_ERROR (R17): A register access of a width or alignment that R17 does not admit completes without effect: a read returns zero, a write is discarded, and an access error is logged. -/
  | accessError (m : Master) (off width : Nat) (write : Bool)
  /-- REGISTER_WRITE (R19): A write to a register that has no row of its own is applied, discarded or ignored under the access attributes, and same-cycle writes are applied in the stated order. -/
  | registerWrite (ws : List RegWrite)
  /-- SQ_DOORBELL (R317): A write of TAIL to a submission queue doorbell announces new entries; an invalid value sets DB_ERR and is discarded. -/
  | sqDoorbell (m : Master) (h : Head) (q : QueueId) (tail : Nat)
  /-- CQ_DOORBELL (R317): A write of HEAD to a completion queue doorbell frees entries, and held completions are then written in their original order. -/
  | cqDoorbell (m : Master) (h : Head) (q : QueueId) (head : Nat)
  /-- DESCRIPTOR_FETCH (R318): The supervisor reads announced descriptors from HBM in round robin, copies each one, and runs the submission checks on it. -/
  | descriptorFetch
  /-- SWITCH_POINT (R199): When the fabric reaches a switch point, the supervisor chooses by the binding procedure either a season change or the next model to batch. -/
  | switchPoint
  /-- BATCH_START (R199): Once the chunks of the chosen model reach BATCH_MAX or its batch window has passed, the supervisor commands the field controllers to run one batch. -/
  | batchStart
  /-- DEADLINE_EXPIRE (R210): When the DEADLINE of a request passes before a chunk starts, that chunk fails with DEADLINE_EXPIRED and the later chunks of the request do not run. -/
  | deadlineExpire (r : Nat)
  /-- COMPLETION_WRITE (R319): After every output and state write of a request has been performed, the supervisor writes its completion entry at the completion queue's tail, flipping PHASE on wrap. -/
  | completionWrite (r : Nat)
  /-- MSIX_SIGNAL (R320): The device signals a completion queue's MSI-X vector after entries are written, no sooner than AGG_US after the previous signal. -/
  | msixSignal (h : Head) (q : QueueId)
  /-- SLOT_CFG_WRITE (R204): A write to SUP_SLOT_CFG sets the stream state slot array, or is discarded and logged when it breaks the placement rule, writes SIZE_LOG2 7, or a stateful request is uncompleted. -/
  | slotCfgWrite (m : Master) (half : Half) (v : Nat)
  /-- STAGE (R194): The STAGE command copies a season image from HBM into a slot, or is refused with BUSY when the slot's state does not admit it. -/
  | stage (m : Master) (slot : SlotId) (src : Nat)
  /-- STAGE_DONE (R196): When the staging copy ends, the load checks are applied in order and the slot becomes STAGED or REFUSED with the result. -/
  | stageDone (slot : SlotId)
  /-- REMOVE (R195): The REMOVE command empties a STAGED or REFUSED slot, or is refused with BUSY. -/
  | remove (m : Master) (slot : SlotId) (src : Nat)
  /-- ACTIVATE (R195): The ACTIVATE command records a STAGED slot as the next season to activate at the next point where a change may begin. -/
  | activate (m : Master) (slot : SlotId) (src : Nat)
  /-- SEASON_DRAIN_DONE (R202): When the fabric is drained, windows close, tasks are invalidated, the slot states change, and the route image and tile loads begin. -/
  | seasonDrainDone
  /-- SEASON_LOAD_DONE (R202): When the route image and the privileged tile loads are complete, the field controllers confirm each tile's load and TIL_MC_VER. -/
  | seasonLoadDone
  /-- SEASON_CONFIRMED (R202): When every field controller has confirmed, tasks become valid, windows open, notify queues register, the slot becomes ACTIVE and batches start. -/
  | seasonConfirmed
  /-- LAYER_START (R189): The supervisor starts a layer with iteration count ITERS times B, with padding to GMAX, under which its sources emit tags. -/
  | layerStart
  /-- LAYER_END (R134): When every sink of a graph has reported its last group, the layer ends and the field controllers check for residue. -/
  | layerEnd
  /-- TEST_WINDOW_CLOSE (R337): The test window closes when every tested tile has finished, or at its time bound, and SINCE_KAT and UNVERIFIED are updated for passing tiles. -/
  | testWindowClose (elapsedNs : Nat)
  /-- UNIT_FIRE (R132): The tag matcher fires a unit whose group is complete and has credit and room, consuming its operands and taking credits. -/
  | unitFire (t : TileId) (bad : List Nat) (pathBad : Bool)
  /-- OPERAND_ARRIVE (R567): An operand arrives in its destination queue and becomes eligible for firing two TCLK later. -/
  | operandArrive (t : TileId) (q : Nat) (flips : List (Nat × Nat))
  /-- TAG_HORIZON_EXPIRE (R141): When a unit's tag-wait timer reaches the horizon, the tag matcher records a HORIZON fault. -/
  | tagHorizonExpire (t : TileId) (u : Nat)
  /-- PASS_ISSUE (R91): The arrays take the next pass from the pass queue and check its WM, AM and PM ranges against the task bounds. -/
  | passIssue (t : TileId)
  /-- WEIGHT_FRONT_START (R93): The front of the next weight set starts in the first beat allowed by the front rule after release, and the rows latch in turn. -/
  | weightFrontStart (t : TileId)
  /-- WEIGHT_FETCH (R96): The weight buffer starts fetching the next set into the freed half once the front before it has latched its last row. -/
  | weightFetch (t : TileId)
  /-- WEIGHT_FETCH_DONE (R96): A weight fetch completes with the decoded rows in the buffer, before the front starts. -/
  | weightFetchDone (t : TileId)
  /-- PASS_COMPLETE (R92): A pass completes when the outputs of its last vector are written; the completion is reported to the tag matcher and the pass unit emits. -/
  | passComplete (t : TileId) (ops : List AccOp)
  /-- KERNEL_START (R111): The stream processor takes the next kernel from the kernel queue and runs it under its task's bounds. -/
  | kernelStart (t : TileId)
  /-- FRAME_START (R98): At each frame start, the cluster issue limit most recently set by the controller comes into force for that frame's issue clocks. -/
  | frameStart (g : ClusterId)
  /-- TIL_RUN_EN (R113): Writing RUN_EN moves the tile from IDLE or HALT into RUN. -/
  | tilRunEn (m : Master) (t : TileId) (v : Bool)
  /-- TIL_HALT_REQ (R113): Setting HALT_REQ moves a running tile into DRAIN and then HALT. -/
  | tilHaltReq (m : Master) (t : TileId) (v : Bool)
  /-- TIL_TEST_WIN (R115): Setting TEST_WIN drains the tile into TEST, and clearing it returns the tile to HALT, RUN or IDLE. -/
  | tilTestWin (m : Master) (t : TileId) (v : Bool)
  /-- TIL_CNT_FREEZE (R120): Writing CNT_FREEZE makes the tile counters hold or resume counting. -/
  | tilCntFreeze (m : Master) (t : TileId) (v : Bool)
  /-- TIL_CNT_CLEAR (R117): Writing CNT_CLEAR sets every tile counter to zero. -/
  | tilCntClear (m : Master) (t : TileId)
  /-- TILE_DRAIN_DONE (R113): When the running pass and kernel of a draining tile complete, the tile enters HALT, or TEST when TEST_WIN is set. -/
  | tileDrainDone (t : TileId)
  /-- TIL_FAULT_CLEAR (R119): Clearing VALID of TIL_FAULT clears CODE, INFO and OVERFLOW. -/
  | tilFaultClear (m : Master) (t : TileId)
  /-- TIL_DF_FAULT_CLEAR (R145): Clearing VALID of TIL_DF_FAULT clears every other field of it. -/
  | tilDfFaultClear (m : Master) (t : TileId)
  /-- TILE_RESET (R116): A tile reset returns the arrays, queues, stream processor registers and TIL_FAULT to reset, abandons the DMA descriptors, and keeps the memories. -/
  | tileReset (t : TileId)
  /-- SP_VECTOR_ARITH (R73): A vector arithmetic instruction performs a correctly rounded add, multiply, FMA, min, max, compare or select on the predicated lanes. -/
  | spVectorArith (t : TileId) (op : VecOp) (o : SpFields)
  /-- SP_CONVERT (R73): A conversion instruction converts between the stream processor's formats, with saturation to the FP8 formats. -/
  | spConvert (t : TileId) (op : CvtOp) (o : SpFields)
  /-- SP_LA96_CONVERT (R105): An LA96 conversion reads a register triple and G and converts it by the final conversion with shift IMM. -/
  | spLa96Convert (t : TileId) (fmt : OutFmt) (o : SpFields)
  /-- SP_MX_PACK (R62): The MX pack instruction forms the scale byte and the element codes of a 32-value block. -/
  | spMxPack (t : TileId) (fmt : MxElem) (o : SpFields)
  /-- SP_MX_UNPACK (R103): The MX unpack instruction widens a microscaled block into stream processor values. -/
  | spMxUnpack (t : TileId) (fmt : MxElem) (o : SpFields)
  /-- SP_FUNCTION (R75): A function instruction evaluates exp, log2, reciprocal, rsqrt, tanh, sigmoid, GELU, SiLU or softplus by the function ROM. -/
  | spFunction (t : TileId) (fn : SpFn) (o : SpFields)
  /-- SP_LANE_REDUCE (R104): A lane reduction combines the 64 lanes into lane 0 in a fixed binary tree. -/
  | spLaneReduce (t : TileId) (op : RedOp) (o : SpFields)
  /-- SP_INT_LOGIC (R103): An integer or logic instruction performs exact integer arithmetic, logic, shifts or lane index. -/
  | spIntLogic (t : TileId) (op : IntOp) (o : SpFields)
  /-- SP_VECTOR_LOAD_STORE (R106): A vector load or store accesses AM or PM after a bound check, and records SP_BOUND on failure. -/
  | spVectorLoadStore (t : TileId) (store : Bool) (mem : SpMem) (o : SpFields)
  /-- SP_LA96_LOAD_STORE (R105): An LA96 load or store moves an output row between PM and a register triple. -/
  | spLa96LoadStore (t : TileId) (store : Bool) (o : SpFields)
  /-- SP_SCALAR_LOAD_STORE (R103): A scalar load or store moves a scalar register to or from memory under the task bounds. -/
  | spScalarLoadStore (t : TileId) (store : Bool) (mem : SpMem) (o : SpFields)
  /-- SP_ANCHOR_READ (R103): The sideband anchor read places a vector's anchor word into a register. -/
  | spAnchorRead (t : TileId) (o : SpFields)
  /-- SP_BRANCH (R110): A branch or conditional branch transfers control; a target outside the kernel records IS_BOUND. -/
  | spBranch (t : TileId) (cond : BranchCond) (o : SpFields)
  /-- SP_HW_LOOP (R103): The hardware loop instruction repeats a block of instructions. -/
  | spHwLoop (t : TileId) (o : SpFields)
  /-- SP_MC_RETURN (R103): The microcode return instruction returns from a microcode routine to its caller. -/
  | spMcReturn (t : TileId)
  /-- SP_EMIT (R134): An emit instruction sends a tagged operand on an out edge; an excess emit records a RATE fault. -/
  | spEmit (t : TileId) (o : SpFields)
  /-- SP_WAIT_FLAG (R252): The wait-on-flag instruction stalls the kernel until a flag of its field has the awaited value. -/
  | spWaitFlag (t : TileId) (value : Bool) (o : SpFields)
  /-- SP_FENCE (R103): The fence instruction orders the kernel's earlier memory operations before its later ones. -/
  | spFence (t : TileId)
  /-- SP_END_KERNEL (R134): The end-of-kernel instruction ends the kernel; an out edge short of its operand count records a RATE fault. -/
  | spEndKernel (t : TileId)
  /-- SP_ILLEGAL (R103): An illegal opcode records SP_ILLEGAL and halts the tile. -/
  | spIllegal (t : TileId) (opcode : Nat)
  /-- MC_ABSENT (R109): A microcode call to an index that the loaded microcode does not provide records MC_ABSENT. -/
  | mcAbsent (t : TileId) (index : Nat)
  /-- KAT_RUN (R335): The known-answer routine drives the pattern generators through every combination and class and compares the signatures, recording KAT_FAIL on a difference. -/
  | katRun (t : TileId) (differs : Bool)
  /-- DIGEST64 (R343): The DIGEST64 routine sends a step's ORIGINAL or SHADOW digest to the field controller for comparison. -/
  | digest64 (t : TileId) (shadow : Bool)
  /-- WDIGEST (R345): The WDIGEST routine hashes a partition, and the field controller compares the result with its reference, recording WDIGEST_MISMATCH on a difference. -/
  | wdigest (t : TileId) (range : Nat)
  /-- ANCHOR_COMBINE (R52): The ANCHOR_COMBINE routine takes the maximum of the anchor words along a lattice chain. -/
  | anchorCombine (t : TileId)
  /-- STATE_LOAD (R206): The STATE_LOAD routine checks the slot header and loads the stream state into AM, or fails the chunk with SLOT_MISMATCH. -/
  | stateLoad (t : TileId) (chunk : Nat)
  /-- STATE_STORE (R206): The STATE_STORE routine writes the stream state and the slot header back to HBM. -/
  | stateStore (t : TileId) (chunk : Nat)
  /-- SPILL_DRAIN (R150): The SPILL_DRAIN routine returns spilled operands, oldest tag first, into the reserved queue entry. -/
  | spillDrain (t : TileId) (q : Nat)
  /-- DMA_SUBMIT (R169): The DMA_SUBMIT routine copies a descriptor into an engine queue, waiting for room when the queue is full. -/
  | dmaSubmit (t : TileId)
  /-- LAT_SEND (R225): The LAT_SEND routine waits for credit and sends a landing message from AM on a channel. -/
  | latSend (t : TileId)
  /-- BAR_ARRIVE (R253): The BAR_ARRIVE routine sends an arrival with the participant's sense to its barrier unit. -/
  | barArrive (t : TileId)
  /-- FLAG_WRITE (R252): The FLAG_WRITE routine sends a flag write to a field controller, or records SP_ILLEGAL for OP 0b11. -/
  | flagWrite (t : TileId)
  /-- QUIET_REPORT (R147): A tile quiet for 2^QUIET_LOG2 TCLK with a unit waiting on an out edge reports to its detector, which searches for a cycle. -/
  | quietReport (t : TileId)
  /-- DETECTOR_REPLY (R147): A reply from another field controller to a detector query continues the depth-first search. -/
  | detectorReply (f : FieldId) (peer : FieldId)
  /-- DEADLOCK_RECHECK (R148): After the search closes, the claiming detector rechecks the cycle and either abandons the spill or selects a queue to spill. -/
  | deadlockRecheck (f : FieldId)
  /-- SPILL_CLOSE (R149): When the spill writes have completed and the spill has been announced, the spill closes, the credit is adjusted and the drain may begin. -/
  | spillClose (t : TileId) (q : Nat)
  /-- DMA_DESC_START (R172): An engine starts its next queued descriptor and applies the descriptor checks in order before sending any packet. -/
  | dmaDescStart (t : TileId) (e : EngineId) (priv : Option Nat)
  /-- DMA_TIMEOUT (R174): When DATA_TO passes with no reply, the engine reclaims the credit and fails the segment with TIMEOUT. -/
  | dmaTimeout (t : TileId) (e : EngineId) (credit : Nat)
  /-- NOTIFY_RESEND (R177): A notification refused with NOTIFY_BUSY is resent every 1 µs until it is accepted or times out. -/
  | notifyResend (t : TileId) (e : EngineId)
  /-- LANDING_RECEIVE (R223): A landing message is written into the next ring slot, and a reference operand is placed in RQ. -/
  | landingReceive (t : TileId) (ch : Nat) (flips : List (Nat × Nat))
  /-- LA96_RECEIVE (R223): LA96 values received on a channel are written into the PM ring. -/
  | la96Receive (t : TileId) (ch : Nat) (flips : List (Nat × Nat))
  /-- CHANNEL_CREDIT (R222): A credit pulse on a channel's credit wire returns one credit to the sender. -/
  | channelCredit (t : TileId) (ch : Nat)
  /-- TUNNEL_FLUSH (R229): A proxy sends its gathered words as a LAT_TUNNEL packet when it holds 256 bytes or 32 TCLK after its first word. -/
  | tunnelFlush (t : TileId) (ch : Nat) (leg : Nat)
  /-- ROUTER_FORWARD (R232): A router checks a fully received packet and forwards it on the output chosen by its route entry and arbitration. -/
  | routerForward (g : ClusterId) (out : RouterPort) (upset : List (Nat × Nat))
  /-- CTL_TIMEOUT (R249): A control packet unanswered within CTL_TO makes its sender act as the timeout table states, such as a HORIZON fault. -/
  | ctlTimeout (src : Nat) (txid : Nat)
  /-- PKT_OPERAND (R236): An OPERAND packet delivers one or two operands to a queue and is answered with ACK. -/
  | pktOperand (p : Packet)
  /-- PKT_ACK (R174): An ACK packet accepts up to 8 consecutive packets and returns their credits. -/
  | pktAck (p : Packet)
  /-- PKT_REFUSE (R236): A REFUSE packet fails the segment of the refused packet with its reason and returns its credit. -/
  | pktRefuse (p : Packet)
  /-- PKT_READ_REQ_WINDOW (R165): A window read request is checked against the window and answered with READ_DATA or REFUSE. -/
  | pktReadReqWindow (p : Packet)
  /-- PKT_READ_REQ_HBM (R266): An HBM read request is served by its home slice and answered with data or a REFUSE for MEM_UE. -/
  | pktReadReqHbm (p : Packet)
  /-- PKT_NOTIFY (R165): A notification packet is checked against the window and delivered to NQ, held in a pending slot, or refused. -/
  | pktNotify (p : Packet)
  /-- PKT_FLAG_WRITE (R252): A FLAG_WRITE packet sets, clears or writes a flag of the field, or is discarded as reserved for OP 0b11. -/
  | pktFlagWrite (p : Packet)
  /-- PKT_BAR_ARRIVE (R253): A barrier arrival is counted by the binding procedure, which releases the barrier by flag writes when the count is complete. -/
  | pktBarArrive (p : Packet)
  /-- PKT_TUNNEL_CREDIT (R229): A TUNNEL_CREDIT packet carries channel credits across a tunnel. -/
  | pktTunnelCredit (p : Packet)
  /-- PKT_MGMT (R236): A MGMT packet delivers a firmware command, such as a doorbell or a detector query, among the controllers and heads. -/
  | pktMgmt (p : Packet)
  /-- PKT_WRITE (R165): A window WRITE packet is checked against the window, and is written and acknowledged or refused with a reason. -/
  | pktWrite (p : Packet)
  /-- PKT_HBM_WRITE (R267): An HBM_WRITE packet writes whole 64-byte units with new check symbols and is acknowledged. -/
  | pktHbmWrite (p : Packet)
  /-- PKT_READ_DATA (R173): A READ_DATA packet lands its data and returns its credit; a reply whose credit was already reclaimed is discarded. -/
  | pktReadData (p : Packet)
  /-- PKT_PRIV_WRITE (R166): A PRIV_WRITE packet writes physical units of a site over the privileged path. -/
  | pktPrivWrite (p : Packet)
  /-- PKT_LAT_TUNNEL (R229): A LAT_TUNNEL packet delivers lattice words at the actual site; a TXID gap is handled as a parity error. -/
  | pktLatTunnel (p : Packet)
  /-- PKT_RESERVED_OPCODE (R236): A packet with a reserved opcode is discarded, counted in RSVD and logged. -/
  | pktReservedOpcode (p : Packet)
  /-- QUIESCE (R246): When tile traffic is quiesced, the tables are written, seam repairs and port rejoins take effect, and the quiesce then ends. -/
  | quiesce
  /-- SEAM_WIRE_MARK (R254): A seam wire with 16 or more pattern errors in one second is marked for sparing at the next quiesce. -/
  | seamWireMark (b : SeamBundle) (wire : Nat) (errors : Nat)
  /-- STACK_TEMP_READ (R268): Each 1 ms the stack temperature is read and the refresh rate, HOT and the WINTER cause are updated. -/
  | stackTempRead (stack : StackId) (c : Int) (ondie : Nat) (repeats : Nat)
  /-- HBM_SCRUB (R270): The patrol scrub reads and corrects blocks in idle command slots, once per SCRUB_HOURS. -/
  | hbmScrub (slice : SliceId) (block : Nat) (upset : List CellError)
  /-- HBM_CHANNEL_FAIL (R271): A pseudo-channel whose parity retries are exhausted 16 times in one second becomes FAILED with cause CHANNEL. -/
  | hbmChannelFail (slice : SliceId) (exhausted : Nat)
  /-- MARK (R272): The MARK command marks an in-service slice for retirement. -/
  | mark (m : Master) (slice : Nat)
  /-- UNMARK (R272): The UNMARK command returns a marked slice of cause 2, 3 or 5 to service. -/
  | unmark (m : Master) (slice : Nat)
  /-- RESTORE (R272): The RESTORE command requests a SPRING test of a retired slice. -/
  | restore (m : Master) (slice : Nat)
  /-- HBM_MEMORY_TEST_DONE (R275): When the memory test ends, slices are retired, the installed blocks are cleared, and ECC is re-enabled. -/
  | hbmMemoryTestDone (failed : List SliceId) (pprRows : Nat) (ms : Nat)
  /-- LINK_TRAIN_DONE (R286): PMD training finishes, and the link enters ALIGN. -/
  | linkTrainDone (n : LinkId)
  /-- LINK_TRAIN_TIMEOUT (R286): Training not done within 500 ms takes the link DOWN with TRAIN_FAIL. -/
  | linkTrainTimeout (n : LinkId)
  /-- LINK_ALIGN_DONE (R285): The four lanes match one alignment pair, and the link enters INIT. -/
  | linkAlignDone (n : LinkId) (words : List Nat)
  /-- LINK_ALIGN_FAIL (R285): No alignment within 1 ms takes the link DOWN with ALIGN_FAIL. -/
  | linkAlignFail (n : LinkId)
  /-- INIT_FRAME_SEND (R287): In INIT, each end sends an INIT frame every 1 µs. -/
  | initFrameSend (n : LinkId)
  /-- INIT_FRAME_RECEIVE (R287): A received INIT frame advances the handshake to UP, fails it on FDN_CLASH or version, or signals PEER_RESTART while UP. -/
  | initFrameReceive (n : LinkId) (f : Frame)
  /-- LINK_INIT_TIMEOUT (R286): A handshake not done within 100 µs takes the link DOWN with INIT_TIMEOUT. -/
  | linkInitTimeout (n : LinkId)
  /-- LINK_RETRY (R287): After RETRY_MS in DOWN, the link retrains from TRAIN. -/
  | linkRetry (n : LinkId)
  /-- LINK_FRAME_SEND (R291): At each frame time the sender sends a SEQ frame of queued packets, taking control before data, or a NULL frame. -/
  | linkFrameSend (n : LinkId)
  /-- SEQ_FRAME_RECEIVE (R292): A valid in-order SEQ frame is accepted, its packets pass to the concourse, and ACK advances; other SEQ values are discarded. -/
  | seqFrameReceive (n : LinkId) (f : Frame) (errs : List Nat)
  /-- NULL_FRAME_RECEIVE (R292): A valid NULL frame delivers its ACK, credits, NAK and FENCE fields. -/
  | nullFrameReceive (n : LinkId) (f : Frame) (errs : List Nat)
  /-- FRAME_CRC_FAIL (R292): A frame failing CRC is discarded, and the receiver sends NAK. -/
  | frameCrcFail (n : LinkId) (errs : List Nat)
  /-- NAK_RESEND (R292): A NAK is sent again when 4 µs pass without the frame ACK + 1 arriving. -/
  | nakResend (n : LinkId)
  /-- LINK_REPLAY (R293): At the frame boundary after a NAK, the sender resends every unacknowledged frame from the oldest. -/
  | linkReplay (n : LinkId)
  /-- LINK_REPLAY_TIMEOUT (R293): An oldest unacknowledged frame uncovered for 4 µs starts a replay, or takes the link DOWN with REPLAY at count 4. -/
  | linkReplayTimeout (n : LinkId)
  /-- LINK_SILENCE (R294): 16 µs without a valid frame takes the link DOWN with SILENCE. -/
  | linkSilence (n : LinkId)
  /-- LINK_UCW_LIMIT (R294): More than UCW_LIMIT uncorrectable codewords within 1 ms take the link DOWN with UCW. -/
  | linkUcwLimit (n : LinkId)
  /-- LINK_CREDIT_STALL (R294): A packet waiting 100 µs for credit takes the link DOWN with CREDIT_STALL. -/
  | linkCreditStall (n : LinkId) (data : Bool)
  /-- LNK_CTRL_WRITE (R305): A write of RATE, MEDIUM or TESTPAT takes the link through DOWN to the next TRAIN, and clearing ENABLE disables it. -/
  | lnkCtrlWrite (m : Master) (n : LinkId) (v : Nat)
  /-- LNK_NARROW_WRITE (R302): A write to a narrowing entry is applied, or is discarded and logged when its slot holds the ACTIVE season. -/
  | lnkNarrowWrite (m : Master) (n : Fin 16) (half : Half) (v : Nat)
  /-- LNK_CNT_CLEAR (R542): CNT_CLEAR of a field's LNK_CNT_CTRL zeroes the link counters of its link ports. -/
  | lnkCntClear (m : Master) (f : FieldId)
  /-- CXL_MEM_READ (R314): A CXL.mem read is answered within 2 µs with data or poisoned data, according to the condition. -/
  | cxlMemRead (h : Head) (dpa : Nat)
  /-- CXL_MEM_WRITE (R314): A CXL.mem write is written or dropped according to the condition and always completed, with write poison honoured. -/
  | cxlMemWrite (h : Head) (dpa : Nat) (data : List Byte) (poison : Bool)
  /-- HDM_COMMIT (R312): An HDM decoder commit succeeds, or fails when its DPA span would leave the head range. -/
  | hdmCommit (h : Head) (d : Fin 4) (size skip : Nat)
  /-- SQ_CFG_WRITE (R316): A submission queue configuration write is applied or discarded under the queue rules, and enabling resets head and tail. -/
  | sqCfgWrite (m : Master) (h : Head) (q : QueueId) (half : Half) (v : Nat)
  /-- CQ_CFG_WRITE (R316): A completion queue configuration write is applied or discarded under the queue rules, and enabling resets tail and phase. -/
  | cqCfgWrite (m : Master) (h : Head) (q : QueueId) (half : Half) (v : Nat)
  /-- OWN_HEAD_RANGE_WRITE (R311): A head range write is applied, or is discarded and logged when it conflicts with RB, decoders, queues or live buffers. -/
  | ownHeadRangeWrite (m : Master) (h : Head) (v : Nat)
  /-- HEAD_LINK_DOWN (R321): When a head's link goes down, fetching stops, decoders uncommit, MSI-X is cleared, and the queues are disabled once its requests are done. -/
  | headLinkDown (h : Head)
  /-- HEAD_LINK_UP (R323): A head's link comes up with CXL.io enabled; the master becomes present and the window holder is redetermined. -/
  | headLinkUp (h : Head) (x4 : Bool) (slow : Bool)
  /-- PERST_ASSERT (R553): PERST asserted for at least 100 µs takes that head's link down. -/
  | perstAssert (h : Head) (us : Nat)
  /-- PERST_DEASSERT (R553): PERST deasserted starts the head's training, which completes within 100 ms. -/
  | perstDeassert (h : Head)
  /-- IDENTIFY_MEMORY_DEVICE (R309): The mailbox command Identify Memory Device returns the device identity. -/
  | identifyMemoryDevice (h : Head)
  /-- GET_SUPPORTED_LOGS (R309): The mailbox command Get Supported Logs lists the supported logs. -/
  | getSupportedLogs (h : Head)
  /-- GET_LOG (R309): The mailbox command Get Log returns the Command Effects Log only. -/
  | getLog (h : Head) (uuid : Nat)
  /-- GET_EVENT_RECORDS (R523): The mailbox command Get Event Records returns the host-reported error-log entries as vendor event records. -/
  | getEventRecords (h : Head) (log : CxlLog)
  /-- CLEAR_EVENT_RECORDS (R523): The mailbox command Clear Event Records removes entries from that head's event logs only. -/
  | clearEventRecords (h : Head) (log : CxlLog) (seqs : List Nat)
  /-- GET_TIMESTAMP (R423): The mailbox command Get Timestamp returns DEVTIME mapped by the epoch offset, or 0 before an offset is written. -/
  | getTimestamp (h : Head)
  /-- GET_HEALTH_INFO (R309): The mailbox command Get Health Info returns the device's health information. -/
  | getHealthInfo (h : Head)
  /-- SET_TIMESTAMP (R309): The mailbox command Set Timestamp completes with Unsupported. -/
  | setTimestamp (h : Head) (v : Nat)
  /-- MAILBOX_UNSUPPORTED (R309): Any other mailbox command completes with Unsupported. -/
  | mailboxUnsupported (h : Head) (opcode : Nat)
  /-- DOE_DISCOVERY (R309): A DOE discovery request reports the supported data object protocols. -/
  | doeDiscovery (h : Head) (index : Nat)
  /-- CDAT_TABLE_ACCESS (R309): A DOE table access request returns the CDAT. -/
  | cdatTableAccess (h : Head) (entry : Nat)
  /-- CLAIM (R326): A CLAIM makes an eligible, present master the owner with a fresh lease, or fails with the first applicable result. -/
  | claim (m : Master)
  /-- RENEW (R325): A RENEW by the owner restarts the lease before it lapses. -/
  | renew (m : Master)
  /-- RELEASE (R325): A RELEASE by the owner ends ownership and opens a claim window. -/
  | release (m : Master)
  /-- TRANSFER (R325): A TRANSFER gives ownership at once to another present, eligible master. -/
  | transfer (m : Master) (target : Master)
  /-- OWN_CMD_RESERVED (R327): A reserved OWN_CMD operation, or a TRANSFER to the reserved target, is discarded and logged. -/
  | ownCmdReserved (m : Master) (op : Nat) (target : Nat)
  /-- LEASE_LOW (R320): When a quarter of the owner's lease remains, LEASE_LOW is set on the owner's head. -/
  | leaseLow
  /-- LEASE_LAPSE (R326): A lease reaching zero ends ownership and opens a claim window. -/
  | leaseLapse
  /-- CLAIM_WINDOW_EXPIRE (R325): A claim window closes when CLAIM_WIN_MS expires. -/
  | claimWindowExpire
  /-- TILE_SRAM_SCRUB (R330): The tile scrubber reads and corrects words of the tile SRAMs once per SCRUB_MIN. -/
  | tileSramScrub (t : TileId) (mem : TileMem) (word : Nat) (upset : List WordError)
  /-- DIGEST_ARRIVE (R343): The field controller compares a completed digest pair of a compared step. -/
  | digestArrive (t : TileId)
  /-- DIGEST_TIMEOUT (R343): A digest pair still incomplete CTL_TO after the sinks reported fails the batch, counted as DIGEST_LOST. -/
  | digestTimeout (t : TileId)
  /-- WDIGEST_ROUND_START (R345): Every WDIG_S seconds, each tile starts a weight digest round over its partitions. -/
  | wdigestRoundStart
  /-- WDIG_LATE (R345): A round not finished within its interval is counted as WDIG_LATE. -/
  | wdigLate (t : TileId)
  /-- VIN_HIGH_ENTER (R356): VIN above 60.0 V for 1 ms sets HIGH and is logged. -/
  | vinHighEnter (vin us : Nat)
  /-- VIN_HIGH_RELEASE (R356): VIN at or below 59.5 V for 1 ms releases HIGH. -/
  | vinHighRelease (vin us : Nat)
  /-- OVERVOLT_ENTER (R356): VIN above 62.0 V for 10 µs stops every converter. -/
  | overvoltEnter (vin us : Nat)
  /-- OVERVOLT_RELEASE (R356): VIN at or below 60.0 V for 100 ms starts the power-on sequence. -/
  | overvoltRelease (vin us : Nat)
  /-- CAP_ENTER (R356): VIN below 41.0 V for 20 µs holds every issue limit at 32 or below. -/
  | capEnter (vin us : Nat)
  /-- CAP_RELEASE (R356): VIN at or above 42.0 V for 10 ms releases CAP. -/
  | capRelease (vin us : Nat)
  /-- HALT_ENTER (R357): VIN below 38.0 V for 2 ms stops starting batches and leads to a compute reset into WINTER. -/
  | haltEnter (vin us : Nat)
  /-- HALT_RELEASE (R356): VIN at or above 42.0 V for 100 ms releases HALT. -/
  | haltRelease (vin us : Nat)
  /-- BROWNOUT (R358): VIN below 36.0 V for 10 µs stops every converter in order as a power-on reset. -/
  | brownout (vin us : Nat)
  /-- BROWNOUT_RELEASE (R356): VIN at or above 40.0 V for 100 ms starts the power-on sequence. -/
  | brownoutRelease (vin us : Nat)
  /-- INPUT_EN_BREAK (R549): INPUT_EN breaking with VIN present acts as a brown-out. -/
  | inputEnBreak
  /-- VIN_QUALIFY (R376): VIN held at or above 40.0 V for 10 ms starts the auxiliary converters. -/
  | vinQualify (vin us cap : Nat)
  /-- SUPPLY_IN_REGULATION (R376): Each supply reaching regulation starts the next step of the power-on sequence. -/
  | supplyInRegulation (rail : Supply)
  /-- SHUTDOWN (R377): The SHUTDOWN command persists records and runs the supply sequence in reverse to COLD. -/
  | shutdown (m : Master)
  /-- PWR_CMD_RESERVED (R385): A reserved PWR_CMD operation is discarded and logged. -/
  | pwrCmdReserved (m : Master) (op : Nat)
  /-- IBC_FAIL (R359): A failed intermediate bus converter isolates itself, and the field's budget drops to that of the converters left. -/
  | ibcFail (f : FieldId) (c : Fin 3)
  /-- SENSE_FAULT (R360): Sensed and local voltages differing by more than 150 mV for 100 µs make the converters regulate locally. -/
  | senseFault (f : FieldId) (mv us : Nat)
  /-- FIELD_LOSS (R362): A field loss cause latches the field's converters off and enters the 11-field state with a fabric reset of the remaining fields. -/
  | fieldLoss (f : FieldId) (cause : Nat)
  /-- PHASE_FAIL (R368): A failed buck phase is opened and cleared in PHASE_OK, and ILIM_EFF is recomputed. -/
  | phaseFail (g : ClusterId) (phase : Fin 8)
  /-- SHORT_TRIP (R370): A short on a cluster output or input stops its phases and opens its input switch, and the cluster goes dark. -/
  | shortTrip (g : ClusterId) (input : Bool)
  /-- ADMISSION_GRANT (R372): At a sample where the admission rules hold, a waiting cluster is admitted and enters SOFT_START. -/
  | admissionGrant (g : ClusterId)
  /-- ADMISSION_FORCED (R372): A request that has waited 1 ms is admitted at half ramp rate, ignoring the neighbour rule. -/
  | admissionForced (g : ClusterId)
  /-- SOFT_START_DONE (R373): A cluster whose ramp completes enters ON with issue limit 1. -/
  | softStartDone (g : ClusterId)
  /-- CLUSTER_RAMP_DOWN_DONE (R371): After a 20 µs ramp-down, the cluster's input switch opens with CAUSE THERMAL. -/
  | clusterRampDownDone (g : ClusterId)
  /-- AUX_CONVERTER_FAULT (R375): A fault of AUX-A or AUX-B leaves its partner to carry the bus, or acts as a brown-out when both fail. -/
  | auxConverterFault (b : Bool)
  /-- AUX_RAIL_FAULT (R375): A supervisor, HBM or link rail fault takes a power-on reset, or stops SPRING when it repeats. -/
  | auxRailFault (rail : AuxRail)
  /-- HOST_RAIL_FAULT (R375): A host-port rail fault switches that head's domain off and takes its link down. -/
  | hostRailFault (h : Head)
  /-- CONTROL_SAMPLE (R386): Every 1 µs, the controller computes each cluster's issue limit under the slope budgets and the power windows. -/
  | controlSample (x : PowerSample)
  /-- AUTUMN_EXIT (R398): The device returns to SUMMER when no cause has held for 10 ms. -/
  | autumnExit
  /-- THERMAL_UPDATE (R394): Every 100 µs, each cluster's thermal limit is updated from its temperature. -/
  | thermalUpdate
  /-- TEMP_SAMPLE (R393): Every 10 µs, the cluster and fabric sensors are sampled and compared with the thresholds. -/
  | tempSample (sensor : TempSensor) (tenths : Int)
  /-- COOLING_RETURN (R395): After 1 s at or below 85 °C, the cluster's good sites return to standby. -/
  | coolingReturn (g : ClusterId)
  /-- DIE_TRIP (R396): A sensor at 125 °C stops every converter in hardware and latches the sensor and temperature. -/
  | dieTrip (sensor : TempSensor) (before tenths : Int)
  /-- COOLANT_SAMPLE (R397): Every 100 ms the coolant sensors are read, flow is estimated, and the coolant responses are applied. -/
  | coolantSample (tin tout : Int)
  /-- WINTER_REQUEST (R399): Setting WINTER_REQUEST in PWR_LIMIT makes the owner's request a cause of WINTER. -/
  | winterRequest (m : Master) (v : Bool)
  /-- WINTER_ENTER (R399): On a cause of WINTER, after the running batch or 500 µs, the device takes a compute reset and quiesces. -/
  | winterEnter
  /-- WINTER_EXIT (R400): 100 ms after the last cause clears, the device admits clusters, tests sites, reloads the season and resumes. -/
  | winterExit (failed : List Nat)
  /-- PLL_LOCK (R409): A field or seam PLL locks after its domain reaches regulation. -/
  | pllLock (p : Pll)
  /-- PLL_LOCK_LOSS (R409): A field PLL out of lock gates the field's clocks and takes a fabric reset; a seam PLL out of lock takes a device reset. -/
  | pllLockLoss (p : Pll)
  /-- PLL_RELOCK_TIMEOUT (R409): A field PLL not relocked within 10 ms takes a device reset. -/
  | pllRelockTimeout (f : FieldId)
  /-- CREF_LOSS (R409): No CREF edge for 10 µs takes a device reset. -/
  | crefLoss
  /-- SKEW_READ (R412): Every 100 µs each field controller reads its crossing detectors and moves its interpolator by at most one step. -/
  | skewRead (f : FieldId) (readings : List (Fin 17 × Int))
  /-- MARGIN_REPORT (R415): Every 10 µs the cluster margin is compared with the thresholds, adjusting ADJ or requesting a step down. -/
  | marginReport (g : ClusterId) (ps : Nat)
  /-- STEP_UP_BEGIN (R416): HOLD_S after a margin step down, with margins relaxed for 10 s, a step up toward TARGET_DIV begins. -/
  | stepUpBegin
  /-- DIVIDER_SWITCH (R417): At the T_s strobe, every live field changes its divider and the controller rescales M_W and L_ramp. -/
  | dividerSwitch (clockMw : Nat)
  /-- VSET_STEP (R414): A cluster's VSET moves one code toward its target every 10 µs up or 100 µs down. -/
  | vsetStep (g : ClusterId)
  /-- SYNC_STROBE (R422): Every 1 ms each field compares its DEVTIME with the reference and slews, or reports a SYNC_FAULT. -/
  | syncStrobe (errors : List Int)
  /-- EPOCH_WRITE (R423): A write of TIM_EPOCH applies the calendar offset at once and logs the old and new values. -/
  | epochWrite (m : Master) (half : Half) (v : Nat)
  /-- FABRIC_RESET (R442): A fabric reset fences the links, takes a compute reset, resets the fabric domains, reloads and unfences. -/
  | fabricReset (cause : ResetCause) (failed : List Nat)
  /-- DEVICE_RESET (R437): A device reset switches off the cluster and fabric domains and restarts SPRING at t1. -/
  | deviceReset (cause : ResetCause)
  /-- POWER_ON_RESET (R440): A power-on reset restarts the device from supply qualification. -/
  | powerOnReset
  /-- FC_WATCHDOG_EXPIRE (R440): A field controller whose heartbeat lapses for 10 ms causes a fabric reset. -/
  | fcWatchdogExpire (f : FieldId)
  /-- SUP_WATCHDOG_EXPIRE (R440): The supervisor watchdog expiring after 100 ms causes a device reset. -/
  | supWatchdogExpire
  /-- RESET_CMD_FABRIC (R457): The owner's FABRIC command in SUP_RESET_CMD takes a fabric reset. -/
  | resetCmdFabric (m : Master)
  /-- RESET_CMD_DEVICE (R457): The owner's DEVICE command in SUP_RESET_CMD takes a device reset. -/
  | resetCmdDevice (m : Master)
  /-- RESET_CMD_RESERVED (R457): The reserved SUP_RESET_CMD operation is discarded and logged. -/
  | resetCmdReserved (m : Master)
  /-- REBUILD (R459): REBUILD requests a map build from test results at the next device or power-on reset. -/
  | rebuild (m : Master)
  /-- RETRY_FIELD (R454): RETRY_FIELD marks a lost field for a retry at the next device or power-on reset. -/
  | retryField (m : Master) (f : Nat)
  /-- CANCEL (R459): CANCEL withdraws a pending repair command. -/
  | cancel (m : Master)
  /-- BOOT_ROM_START (R484): The released supervisor boot ROM selects and verifies the configuration record and chooses the firmware slot by the binding procedure. -/
  | bootRomStart (flips : List NvmFlip)
  /-- SUPERVISOR_FIRMWARE_START (R435): Supervisor firmware starts and loads the block firmware components after checking their digests. -/
  | supervisorFirmwareStart (flips : List NvmFlip)
  /-- FIELD_CONTROLLER_BOOT (R435): A field controller fetches and verifies its component, or stays in its boot ROM and its field is lost. -/
  | fieldControllerBoot (f : FieldId)
  /-- FIELD_QUOTE_RECEIVE (R504): The supervisor verifies a signed field quote and keeps it, or discards and logs it. -/
  | fieldQuoteReceive (f : FieldId) (quote : List Byte)
  /-- SPRING_STEP (R437): The completion of a SPRING step starts the steps that depend on it, such as alignment, map load, trim and site tests. -/
  | springStep (x : SpringEvent)
  /-- SPRING_DONE (R437): After the retirement record is written, CXL.mem serves data, fetching starts, and the device enters SUMMER or AUTUMN. -/
  | springDone
  /-- STANDBY_PROMOTE (R434): At a quiesce, the lowest DORMANT site is tested and promoted to STANDBY when a field lacks standby sites. -/
  | standbyPromote (f : FieldId) (katPass : Bool)
  /-- REMAP_TARGETS_READY (R445): Target sites powered, broadcast and passing KAT_RUN lead to the BEGIN journal record being written. -/
  | remapTargetsReady (fails : List Nat)
  /-- REMAP_BEGIN_WRITTEN (R445): With BEGIN in NVM, the device quiesces and copies the images into the targets over the privileged path. -/
  | remapBeginWritten
  /-- REMAP_COPY_DONE (R445): The copied WM partitions are checked by WDIGEST, and COMMIT is written or the remap returns to target choice. -/
  | remapCopyDone (bad : List Nat)
  /-- REMAP_COMMIT_WRITTEN (R445): With COMMIT in NVM, the maps are rewritten, the old sites are switched off, and the quiesce ends. -/
  | remapCommitWritten
  /-- REMAP_END_WRITTEN (R445): The map record and the END record are written, completing the remap. -/
  | remapEndWritten
  /-- NVM_DEVICE_FAIL (R464): An NVM device failing after three attempts is taken out of service, and the store continues on the other device. -/
  | nvmDeviceFail (b : Bool)
  /-- INSTALL (R470): INSTALL checks a configuration record in order and makes it current for the next reset. -/
  | install (m : Master) (src : Nat)
  /-- ENROLL (R467): ENROLL burns a new configuration authority into OTP after its checks. -/
  | enroll (m : Master) (src : Nat)
  /-- SELECT_CURRENT (R471): SELECT_CURRENT records the current configuration record for the next reset. -/
  | selectCurrent (m : Master)
  /-- SELECT_PREVIOUS (R471): SELECT_PREVIOUS records the previous configuration record for the next reset. -/
  | selectPrevious (m : Master)
  /-- CFG_CMD_RESERVED (R496): A reserved NVM_CFG_CMD operation is discarded and logged. -/
  | cfgCmdReserved (m : Master) (op : Nat)
  /-- HALF_COMMAND (R532): A 32-bit write to half of SUP_SEASON_CMD or NVM_CFG_CMD is discarded and logged. -/
  | halfCommand (m : Master) (off : Nat) (v : Nat)
  /-- PERMIT_WRITE (R480): The owner sets or clears PERMIT; clearing it during an upload leaves the slot INVALID. -/
  | permitWrite (m : Master) (v : Nat)
  /-- UPD_ACTIVATE (R482): ACTIVATE writes an ARM record for the staged slot and takes a device reset with cause FIRMWARE. -/
  | updActivate (m : Master)
  /-- ARM (R482): ARM writes an ARM record so that the next reset activates the staged slot. -/
  | arm (m : Master)
  /-- DISARM (R482): DISARM withdraws an uncommitted ARM record. -/
  | disarm (m : Master)
  /-- REJECT (R486): REJECT ends a trial at once with a fallback for OWNER_REJECT. -/
  | reject (m : Master)
  /-- ERASE (R482): ERASE makes the inactive slot EMPTY. -/
  | erase (m : Master)
  /-- ABORT (R482): ABORT ends a running upload. -/
  | abort (m : Master)
  /-- UPD_CMD_RESERVED (R493): The reserved NVM_UPD_CMD operation is discarded and logged. -/
  | updCmdReserved (m : Master)
  /-- TRIAL_TIMER_EXPIRE (R485): The trial timer expiring takes a device reset with cause TRIAL_TIMER latched. -/
  | trialTimerExpire
  /-- TRIAL_SPRING_LIMIT (R485): No SUMMER or AUTUMN within 20 min makes the trial firmware fall back with SPRING_LIMIT. -/
  | trialSpringLimit
  /-- TRIAL_DEADLINE (R485): No confirmation within TRIAL_MIN makes the trial firmware fall back with DEADLINE. -/
  | trialDeadline
  /-- TRIAL_HEALTH_BROKEN (R486): A broken health condition makes the trial firmware write FALLBACK and take a device reset. -/
  | trialHealthBroken
  /-- TRIAL_CONFIRM (R486): When every health condition has held for HOLD, CONFIRM is written and the trial timer is stopped. -/
  | trialConfirm
  /-- HELLO (R474): HELLO opens a half-open session and returns SESSION and Nd, subject to rate and lockout limits. -/
  | hello (x : SvcHdr) (nc : List Byte)
  /-- AUTH_KEY (R474): AUTH_KEY is accepted only when the client key's digest matches an SVC_KEY. -/
  | authKey (x : SvcHdr) (key : List Byte)
  /-- AUTH (R474): AUTH verifies the secret and signature and opens the session with the derived key, or closes it with DENIED. -/
  | auth (x : SvcHdr) (cipher sig : List Byte)
  /-- SVC_HALF_OPEN_LAPSE (R474): A half-open session lapses after 5 s. -/
  | svcHalfOpenLapse
  /-- CLOSE (R475): CLOSE ends the session. -/
  | close (x : SvcMsg)
  /-- NOP (R475): NOP keeps the session open. -/
  | nop (x : SvcMsg)
  /-- SVC_SESSION_TIMEOUT (R475): 30 s without a valid message closes the session. -/
  | svcSessionTimeout
  /-- REG_READ (R476): REG_READ returns register values as reads of the SVC master. -/
  | regRead (x : SvcMsg)
  /-- REG_WRITE (R476): REG_WRITE writes a register as the SVC master. -/
  | regWrite (x : SvcMsg)
  /-- CFG_PART (R476): CFG_PART delivers part of a configuration record, and the last part installs it under R470. -/
  | cfgPart (x : SvcMsg)
  /-- ENROLL_PART (R476): ENROLL_PART delivers part of an enrollment blob, and the last part enrolls it. -/
  | enrollPart (x : SvcMsg)
  /-- CFG_SELECT (R476): The CFG_SELECT message selects the current or the previous configuration record. -/
  | cfgSelect (x : SvcMsg)
  /-- FW_BEGIN (R480): FW_BEGIN starts an upload into the inactive slot and begins erasing it, or is refused. -/
  | fwBegin (x : SvcMsg)
  /-- FW_DATA (R480): FW_DATA programs 1024 bytes of the image, or is answered BUSY beyond the erased part. -/
  | fwData (x : SvcMsg)
  /-- FW_END (R481): FW_END reads the slot back and checks its structure and digests, leaving it STAGED or INVALID. -/
  | fwEnd (x : SvcMsg)
  /-- FW_ABORT (R481): FW_ABORT ends the upload, and the slot becomes INVALID. -/
  | fwAbort (x : SvcMsg)
  /-- LOG_READ (R524): LOG_READ returns up to 36 entries from FROM_SEQ at or above MIN_SEV. -/
  | logRead (x : SvcMsg)
  /-- EVENT_ACK (R475): EVENT_ACK acknowledges a device event, which then stops being resent. -/
  | eventAck (x : SvcMsg)
  /-- SVC_EVENT_RESEND (R475): An unacknowledged EVENT is resent every 1 s. -/
  | svcEventResend (seq : Nat)
  /-- GET_VERSION (R506): GET_VERSION reports SPDM 1.2 only and ends any transcript. -/
  | getVersion (tr : Transport) (x : SpdmReq)
  /-- GET_CAPABILITIES (R506): GET_CAPABILITIES reports the certificate, challenge and signed-measurement capabilities. -/
  | getCapabilities (tr : Transport) (x : SpdmReq)
  /-- NEGOTIATE_ALGORITHMS (R506): NEGOTIATE_ALGORITHMS selects RSASSA-PSS 4096 and SHA-512, or answers InvalidRequest. -/
  | negotiateAlgorithms (tr : Transport) (x : SpdmReq)
  /-- GET_DIGESTS (R506): GET_DIGESTS returns the SHA-512 of the slot 0 chain. -/
  | getDigests (tr : Transport) (x : SpdmReq)
  /-- GET_CERTIFICATE (R506): GET_CERTIFICATE returns a portion of the slot 0 chain, cut to fit the transport. -/
  | getCertificate (tr : Transport) (x : SpdmReq) (off len : Nat)
  /-- CHALLENGE (R506): CHALLENGE returns a signed response with the requested measurement summary from its own snapshot. -/
  | challenge (tr : Transport) (x : SpdmReq) (nonce : List Byte)
  /-- GET_MEASUREMENTS (R511): GET_MEASUREMENTS returns measurement blocks from the transcript's snapshot, signed when asked. -/
  | getMeasurements (tr : Transport) (x : SpdmReq) (index : Nat) (sign : Bool) (nonce : List Byte)
  /-- SPDM_UNSUPPORTED (R506): An unsupported SPDM request or version is answered with an SPDM ERROR. -/
  | spdmUnsupported (tr : Transport) (x : SpdmReq)
  /-- LOG_PAGE_WRITE (R521): A log page is written to both NVM devices when full or when its deadline falls due. -/
  | logPageWrite
  /-- LIFETIME_WRITE (R528): A lifetime record is written every 600 s and at the other listed occasions. -/
  | lifetimeWrite
  /-- LIFETIME_PERSIST (R529): Writing PERSIST makes the device write a lifetime record at once. -/
  | lifetimePersist (m : Master) (v : Nat)
  /-- STRESS_TICK (R526): Every second each powered cluster adds its weight to STRESS. -/
  | stressTick
  /-- ENTDAA (R555): The I3C ENTDAA command assigns the target a dynamic address. -/
  | entdaa (addr : Nat)
  /-- SETDASA (R555): The I3C SETDASA command sets a dynamic address from the static address. -/
  | setdasa (target addr : Nat)
  /-- RSTDAA (R555): The I3C RSTDAA command resets the dynamic address. -/
  | rstdaa
  /-- GETPID (R555): The I3C GETPID command returns the provisional ID from OTP. -/
  | getpid
  /-- GETBCR (R555): The I3C GETBCR command returns the bus characteristics register. -/
  | getbcr
  /-- GETDCR (R555): The I3C GETDCR command returns the device characteristics register. -/
  | getdcr
  /-- GETSTATUS (R555): The I3C GETSTATUS command returns the target status. -/
  | getstatus
  /-- GETMWL (R555): The I3C GETMWL command returns the maximum write length. -/
  | getmwl
  /-- GETMRL (R555): The I3C GETMRL command returns the maximum read length. -/
  | getmrl
  /-- I3C_CCC_UNSUPPORTED (R555): Any other I3C common command code is NACKed. -/
  | i3cCccUnsupported (code : Nat)
  /-- I3C_PRIVATE_WRITE (R556): A 4-byte I3C private write sets the read offset; any other length is NACKed. -/
  | i3cPrivateWrite (bytes : List Byte)
  /-- I3C_PRIVATE_READ (R556): An I3C private read returns the register at the offset, or the summary when no offset is set, clearing ALERT. -/
  | i3cPrivateRead (wide : Bool)
  /-- I3C_IBI (R557): The target raises an in-band interrupt for a DEGRADE or higher entry or a SPRING stop, at most once per 10 ms. -/
  | i3cIbi
  /-- INPUT_EN_MATE (R549): The short sense pin INPUT_EN mates, including insertion with VIN present, and only then may the converters start and qualification of R376 begin. -/
  | inputEnMate (vin : Nat)
  /-- SVC_BLOCK_LOCK (R498): The 10GBASE-R receiver of SVC gains or loses block lock, which sets or clears NVM_SVC_STAT.LINK_UP. -/
  | svcBlockLock (lock : Bool)
  /-- ARP_NEIGHBOUR_DISCOVERY (R472): An ARP request or an IPv6 neighbour solicitation for one of the device's own addresses arrives on SVC and the device answers it. -/
  | arpNeighbourDiscovery (v6 : Bool) (addr : Nat) (mac : Nat)
  /-- ICMP_ECHO (R472): An ICMP or ICMPv6 echo request arrives on SVC and the device sends an echo reply. -/
  | icmpEcho (v6 : Bool) (addr : Nat) (data : List Byte)
  deriving DecidableEq, Repr

end Sys2Proof
end

