-- ==== Sys2Proof/Decode.lean ====
section
/-! DEFINITION. The decoder the host asks for. The opcode table gives no row any operand bits: a command reaches the
block as a register access, a packet, a frame or an event, each with its own operands, so no word spells one. -/

namespace Sys2Proof

/-- The command a word of the table's bits spells: no row of the table has bits, so none. -/
def decodeTableWord (_nbits _w : Nat) : Option Instr := none

end Sys2Proof
end

