-- ==== Sys2Proof/Machine/Tables.lean ====
section
/-! DEFINITION. Sparse tables in canonical form, bit fields of numbers, and bytes as numbers: the helpers every
other operation is written with. -/

namespace Sys2Proof.Machine

open Sys2Proof

/-- The value at a key; a key the table does not list reads as `d`. -/
def tget {α : Type} (d : Nat → α) : Table α → Nat → α
  | [], i => d i
  | (k, v) :: r, i => if i < k then d i else if i = k then v else tget d r i

/-- Entries of keys above `i`. -/
def tabove {α : Type} (i : Nat) : Table α → Table α
  | [] => []
  | (k, v) :: r => if k ≤ i then tabove i r else (k, v) :: r

/-- Set the value at a key, keeping the canonical form: the value an unlisted key reads as is never listed. -/
def tset {α : Type} [DecidableEq α] (d : Nat → α) (i : Nat) (v : α) : Table α → Table α
  | [] => if v = d i then [] else [(i, v)]
  | (k, w) :: r =>
    if i < k then (if v = d i then (k, w) :: r else (i, v) :: (k, w) :: r)
    else if i = k then (if v = d i then tabove i r else (i, v) :: r)
    else (k, w) :: tset d i v r

/-- Change every listed value whose key meets `p`, keeping the canonical form. -/
def tmap {α : Type} [DecidableEq α] (d : Nat → α) (p : Nat → Bool) (f : Nat → α → α) : Table α → Table α
  | [] => []
  | (k, v) :: r =>
    if p k then (if f k v = d k then tmap d p f r else (k, f k v) :: tmap d p f r)
    else (k, v) :: tmap d p f r

/-- Drop every listed key that meets `p`. -/
def tdrop {α : Type} (p : Nat → Bool) (t : Table α) : Table α := t.filter fun e => !p e.1

/-- The canonical form: keys strictly rising, and no value equal to what its key reads as when unlisted. -/
def twf {α : Type} [DecidableEq α] (d : Nat → α) : Table α → Bool
  | [] => true
  | [(k, v)] => !(v = d k)
  | (k, v) :: (k', v') :: r => decide (k < k') && !(v = d k) && twf d ((k', v') :: r)

/-- Bits [lo + w - 1 : lo] of a number. -/
def bits (v lo w : Nat) : Nat := (v >>> lo) % 2 ^ w

/-- Bit `i` of a number. -/
def bit1 (v i : Nat) : Bool := v.testBit i

/-- A truth value as 0 or 1. -/
def b2n (b : Bool) : Nat := if b then 1 else 0

/-- The two's complement value of the low `w` bits of a number. -/
def signed (w v : Nat) : Int :=
  if (v % 2 ^ w).testBit (w - 1) then ((v % 2 ^ w : Nat) : Int) - ((2 ^ w : Nat) : Int) else ((v % 2 ^ w : Nat) : Int)

/-- The low `w` bits of an integer, as two's complement. -/
def unsigned (w : Nat) (v : Int) : Nat := (v % ((2 ^ w : Nat) : Int)).toNat

/-- The number that bytes spell, little-endian (R14). -/
def fromBytes : List Byte → Nat
  | [] => 0
  | b :: r => b.toNat + 256 * fromBytes r

/-- The `n` bytes of a number, little-endian. -/
def toBytes : Nat → Nat → List Byte
  | 0, _ => []
  | n + 1, v => BitVec.ofNat 8 (v % 256) :: toBytes n (v / 256)

/-- Bytes `off` to `off + n - 1` of a list, as a little-endian number; bytes beyond the end count as zero. -/
def fieldAt (bs : List Byte) (off n : Nat) : Nat := fromBytes ((bs.drop off).take n)

/-- The smallest of a list of numbers, or `d` of an empty one. -/
def minOr (d : Nat) : List Nat → Nat
  | [] => d
  | x :: r => r.foldl min x

/-- The largest of a list of numbers, or 0 of an empty one. -/
def maxOr0 (l : List Nat) : Nat := l.foldl max 0

/-- The first element of a list that meets a condition, with the index it stands at. -/
def findIdxFrom {α : Type} (p : α → Bool) : Nat → List α → Option (Nat × α)
  | _, [] => none
  | n, x :: r => if p x then some (n, x) else findIdxFrom p (n + 1) r

/-- Drop element `i` of a list. -/
def eraseAt {α : Type} : Nat → List α → List α
  | _, [] => []
  | 0, _ :: r => r
  | n + 1, x :: r => x :: eraseAt n r

end Sys2Proof.Machine
end

