-- ==== Sys2Proof/Machine/Sha.lean ====
section
/-! DEFINITION. SHA-512 (FIPS 180-4), which the spec names for digests of images, partitions and keys,
its HMAC (RFC 2104), and the CRC-32 of R235. -/

namespace Sys2Proof.Machine

open Sys2Proof

/-- Constants 0 to 15. -/
def shaK0 : List (BitVec 64) :=
  [0x428a2f98d728ae22#64, 0x7137449123ef65cd#64, 0xb5c0fbcfec4d3b2f#64, 0xe9b5dba58189dbbc#64,
   0x3956c25bf348b538#64, 0x59f111f1b605d019#64, 0x923f82a4af194f9b#64, 0xab1c5ed5da6d8118#64,
   0xd807aa98a3030242#64, 0x12835b0145706fbe#64, 0x243185be4ee4b28c#64, 0x550c7dc3d5ffb4e2#64,
   0x72be5d74f27b896f#64, 0x80deb1fe3b1696b1#64, 0x9bdc06a725c71235#64, 0xc19bf174cf692694#64]

/-- Constants 16 to 31. -/
def shaK1 : List (BitVec 64) :=
  [0xe49b69c19ef14ad2#64, 0xefbe4786384f25e3#64, 0x0fc19dc68b8cd5b5#64, 0x240ca1cc77ac9c65#64,
   0x2de92c6f592b0275#64, 0x4a7484aa6ea6e483#64, 0x5cb0a9dcbd41fbd4#64, 0x76f988da831153b5#64,
   0x983e5152ee66dfab#64, 0xa831c66d2db43210#64, 0xb00327c898fb213f#64, 0xbf597fc7beef0ee4#64,
   0xc6e00bf33da88fc2#64, 0xd5a79147930aa725#64, 0x06ca6351e003826f#64, 0x142929670a0e6e70#64]

/-- Constants 32 to 47. -/
def shaK2 : List (BitVec 64) :=
  [0x27b70a8546d22ffc#64, 0x2e1b21385c26c926#64, 0x4d2c6dfc5ac42aed#64, 0x53380d139d95b3df#64,
   0x650a73548baf63de#64, 0x766a0abb3c77b2a8#64, 0x81c2c92e47edaee6#64, 0x92722c851482353b#64,
   0xa2bfe8a14cf10364#64, 0xa81a664bbc423001#64, 0xc24b8b70d0f89791#64, 0xc76c51a30654be30#64,
   0xd192e819d6ef5218#64, 0xd69906245565a910#64, 0xf40e35855771202a#64, 0x106aa07032bbd1b8#64]

/-- Constants 48 to 63. -/
def shaK3 : List (BitVec 64) :=
  [0x19a4c116b8d2d0c8#64, 0x1e376c085141ab53#64, 0x2748774cdf8eeb99#64, 0x34b0bcb5e19b48a8#64,
   0x391c0cb3c5c95a63#64, 0x4ed8aa4ae3418acb#64, 0x5b9cca4f7763e373#64, 0x682e6ff3d6b2b8a3#64,
   0x748f82ee5defb2fc#64, 0x78a5636f43172f60#64, 0x84c87814a1f0ab72#64, 0x8cc702081a6439ec#64,
   0x90befffa23631e28#64, 0xa4506cebde82bde9#64, 0xbef9a3f7b2c67915#64, 0xc67178f2e372532b#64]

/-- Constants 64 to 79. -/
def shaK4 : List (BitVec 64) :=
  [0xca273eceea26619c#64, 0xd186b8c721c0c207#64, 0xeada7dd6cde0eb1e#64, 0xf57d4f7fee6ed178#64,
   0x06f067aa72176fba#64, 0x0a637dc5a2c898a6#64, 0x113f9804bef90dae#64, 0x1b710b35131c471b#64,
   0x28db77f523047d84#64, 0x32caab7b40c72493#64, 0x3c9ebe0a15c9bebc#64, 0x431d67c49c100d4c#64,
   0x4cc5d4becb3e42b6#64, 0x597f299cfc657e2a#64, 0x5fcb6fab3ad6faec#64, 0x6c44198c4a475817#64]

/-- The 80 round constants. -/
def shaK : List (BitVec 64) := shaK0 ++ shaK1 ++ shaK2 ++ shaK3 ++ shaK4

/-- The eight working variables, a to h. -/
structure Sha where
  a : BitVec 64
  b : BitVec 64
  c : BitVec 64
  d : BitVec 64
  e : BitVec 64
  f : BitVec 64
  g : BitVec 64
  h : BitVec 64
  deriving DecidableEq, Repr

/-- The initial hash value. -/
def shaInit : Sha :=
  ⟨0x6a09e667f3bcc908#64, 0xbb67ae8584caa73b#64, 0x3c6ef372fe94f82b#64, 0xa54ff53a5f1d36f1#64,
   0x510e527fade682d1#64, 0x9b05688c2b3e6c1f#64, 0x1f83d9abfb41bd6b#64, 0x5be0cd19137e2179#64⟩

/-- The functions of the compression. -/
def shaCh (x y z : BitVec 64) : BitVec 64 := (x &&& y) ^^^ (~~~x &&& z)
def shaMaj (x y z : BitVec 64) : BitVec 64 := (x &&& y) ^^^ (x &&& z) ^^^ (y &&& z)
def shaS0 (x : BitVec 64) : BitVec 64 := x.rotateRight 28 ^^^ x.rotateRight 34 ^^^ x.rotateRight 39
def shaS1 (x : BitVec 64) : BitVec 64 := x.rotateRight 14 ^^^ x.rotateRight 18 ^^^ x.rotateRight 41
def shaT0 (x : BitVec 64) : BitVec 64 := x.rotateRight 1 ^^^ x.rotateRight 8 ^^^ (x >>> 7)
def shaT1 (x : BitVec 64) : BitVec 64 := x.rotateRight 19 ^^^ x.rotateRight 61 ^^^ (x >>> 6)

/-- One round, with its constant and its word. -/
def shaRound (s : Sha) (k w : BitVec 64) : Sha :=
  let t1 := s.h + shaS1 s.e + shaCh s.e s.f s.g + k + w
  let t2 := shaS0 s.a + shaMaj s.a s.b s.c
  ⟨t1 + t2, s.a, s.b, s.c, s.d + t1, s.e, s.f, s.g⟩

/-- Rounds over the message schedule, of which `w` holds the next 16 words. -/
def shaRounds : List (BitVec 64) → List (BitVec 64) → Sha → Sha
  | k :: ks, w :: ws, s =>
    let next := w + shaT0 (ws.getD 0 0) + ws.getD 8 0 + shaT1 (ws.getD 13 0)
    shaRounds ks (ws ++ [next]) (shaRound s k w)
  | _, _, s => s

/-- The number that bytes spell, the most significant byte first. -/
def fromBytesBE (bs : List Byte) : Nat := bs.foldl (fun v b => v * 256 + b.toNat) 0

/-- The `n` bytes of a number, the most significant first. -/
def toBytesBE (n v : Nat) : List Byte := (toBytes n v).reverse

/-- The 16 words of a block of 128 bytes. -/
def shaWords (bs : List Byte) : List (BitVec 64) :=
  (List.range 16).map fun i => BitVec.ofNat 64 (fromBytesBE ((bs.drop (8 * i)).take 8))

/-- Take one block in. -/
def shaBlock (s : Sha) (bs : List Byte) : Sha :=
  let r := shaRounds shaK (shaWords bs) s
  ⟨s.a + r.a, s.b + r.b, s.c + r.c, s.d + r.d, s.e + r.e, s.f + r.f, s.g + r.g, s.h + r.h⟩

/-- Take `n` blocks in. -/
def shaBlocks : Nat → List Byte → Sha → Sha
  | 0, _, s => s
  | n + 1, bs, s => shaBlocks n (bs.drop 128) (shaBlock s (bs.take 128))

/-- The padded message: a one bit, zeros, and the length in bits. -/
def shaPad (bs : List Byte) : List Byte :=
  let n := bs.length
  bs ++ [0x80] ++ List.replicate ((239 - n % 128) % 128) 0 ++ toBytesBE 16 (8 * n)

/-- SHA-512 of bytes: 64 bytes. -/
def sha512 (bs : List Byte) : List Byte :=
  let m := shaPad bs
  let s := shaBlocks (m.length / 128) m shaInit
  [s.a, s.b, s.c, s.d, s.e, s.f, s.g, s.h].flatMap fun w => toBytesBE 8 w.toNat

/-- HMAC-SHA-512 under a key (R473): keys longer than a block are hashed first. -/
def hmac512 (key msg : List Byte) : List Byte :=
  let k := if 128 < key.length then sha512 key else key
  let k := k ++ List.replicate (128 - k.length) 0
  sha512 (k.map (· ^^^ 0x5C) ++ sha512 (k.map (· ^^^ 0x36) ++ msg))

/-- One bit, and one byte, of the CRC-32 of R235, reflected. -/
def crc32Bit (c : BitVec 32) : BitVec 32 := if c.getLsbD 0 then (c >>> 1) ^^^ 0xEDB88320#32 else c >>> 1
def crc32Byte (c : BitVec 32) (b : Byte) : BitVec 32 :=
  (List.range 8).foldl (fun c _ => crc32Bit c) (c ^^^ b.setWidth 32)

/-- The CRC-32 of bytes (R235). -/
def crc32 (bs : List Byte) : Nat := (~~~(bs.foldl crc32Byte (BitVec.allOnes 32))).toNat

end Sys2Proof.Machine
end

