-- ==== Sys2Proof/Config.lean ====
section
/-! DEFINITION. What the spec leaves open and an implementation fixes: constants without a body, so that nothing in
Lean can evaluate them or prove a value of them. Each is named in the assumption log. -/

namespace Sys2Proof.Config

/-- A fresh free value of `w` bits, by the model's own counter `State.free`. -/
opaque freeValue (w n : Nat) : BitVec w

/-- The CODE of an error-log entry for which the owning chapter defines none, by rule and event (R519). -/
opaque logCode (rule event : Nat) : Nat

/-- The DETAIL of an error-log entry for which the owning chapter names no word, by rule and event (R519). -/
opaque logDetail (rule event : Nat) : Nat

/-- The payload of a mailbox command whose contents CXL 3.1 or the implementation fixes, by command and head (R309):
0 Identify Memory Device, 1 Get Supported Logs, 2 the Command Effects Log, 3 Get Health Info. -/
opaque mailboxData (command head : Nat) : List (BitVec 8)

/-- An entry of the CDAT of a head (R309). -/
opaque cdat (head entry : Nat) : List (BitVec 8)

/-- The UUID of the Command Effects Log, which CXL 3.1 fixes. -/
opaque effectsLogUuid : Nat

/-- Which router of its field, in the low bits, and which attach port a hardwired endpoint is wired to (R240); a link port and a
seam island have a second attach port (R32). -/
opaque attachment (epid : Nat) : BitVec 16
opaque attachment2 (epid : Nat) : BitVec 16

/-- Whether the stream of WRITE packets from a device to a window of a tile of a device is of BF16 or of FP16 elements: no packet says it,
and a link port widens a narrowed payload back to its stream's format (R63, R301). -/
opaque streamFormat (srcFdn dstFdn tile window : Nat) : Bool

/-- The other end of a local copy, which its descriptor's one local end does not name: in bit 0 whether its source is in PM and not
in AM, above it the offset within the task (R170, R171). -/
opaque localSource (desc : Nat) : Nat

/-- The other end of a copy within HBM, which its descriptor's one HADDR does not name: the source's address div 64 (R170,
R171). -/
opaque hbmSource (desc : Nat) : Nat

/-- The scale bytes that a write to AM leaves in the sideband of a unit of a tile, by the number of the write: in what form a
writer hands them over the spec leaves open (R47, R51). -/
opaque sideband (tile unit write : Nat) : BitVec 32

/-- The anchor word that the sideband of a unit shows to the stream processor on a tile whose active graph has no pass, and so
no activation format, by the number of the write (R48, R51). -/
opaque anchorWord (tile unit write : Nat) : BitVec 16

/-- The bytes of the symbol table of a coded layer of an image: where the image keeps it the spec does not say (R66). -/
opaque symbolTable (image layer : Nat) : List (BitVec 8)

/-- Whether an output's reduction in a layer of an image whose passes have more than 2^31 products in all has more than 2^31:
how the passes of a layer add up over its iterations the image does not state (R56). -/
opaque longReduction (image layer : Nat) : Bool

/-- A function of the stream processor within the interval that its segments cover: what the function ROM's quadratics give,
as FP32 bits of FP32 bits (R75). -/
opaque spFunction (fn x : Nat) : BitVec 32

/-- Whether an opcode below 0x80 is assigned within its class: the spec lists classes and operations, and no opcodes of single
operations (R103). -/
opaque spAssigned (op : Nat) : Bool

/-- The output that the detour table of a lost field gives a router for a destination router (R452). -/
opaque detour (lost router dest : Nat) : BitVec 5

/-- Where a chunk's stream state stands in the AM of a tile, as the compiler places it, by image, model, tile and place in
the batch: first unit in AM [15:0], first unit of the state [47:16], units [63:48] (R206). -/
opaque statePart (image model tile k : Nat) : BitVec 64

/-- Where a chunk's input stands in the AM of a tile, and where a chunk's output, in the same form: first unit in AM, first unit of
the chunk's input or output, units (R208). -/
opaque inputPart (image model tile k : Nat) : BitVec 64
opaque outputPart (image model tile k : Nat) : BitVec 64

/-- A result that the spec does not state for the operands: by operation, type and operands. -/
opaque spOpen (op ty a b c : Nat) : BitVec 64

/-- Byte of a firmware slot as the device is shipped: 0 slot A, 1 slot B (R461). -/
opaque slotByte (slot off : Nat) : BitVec 8

/-- The factory configuration record (R466). -/
opaque factoryRecord : List (BitVec 8)

/-- Whether the chain of the factory configuration certificate in the NVM device header verifies to the root whose digest OTP
holds (R466, R471). -/
opaque factoryChainOk : Bool

/-- The die identifier, the SHA-512 of the fuse map (the fused-out sites with the die identifier and the factory speed bin, in a
form that the spec does not give), the MAC address, the link-local address, and the I3C provisional ID, as OTP
holds or fixes them (R431, R472, R509, R555). -/
opaque dieId : BitVec 128
opaque fuseDigest (fused : List Nat) : List (BitVec 8)
opaque macAddress : BitVec 48
opaque linkLocal : BitVec 128
opaque provisionalId : BitVec 48

/-- What manufacture wrote: bytes of the device header of NVM-A or NVM-B behind its first seven (R461, R503), and the SHA-512
of the SubjectPublicKeyInfo of the public part of a private key in OTP: 0 the device identity key, 1 + f field key f (R499). -/
opaque headerByte (onB : Bool) (off : Nat) : BitVec 8
opaque publicKey (key : Nat) : List (BitVec 8)

/-- RSASSA-PSS verification with SHA-512 as R467 fixes it: the key, named by the SHA-512 of its SubjectPublicKeyInfo, the
message and the signature. -/
opaque sigOk (key msg sig : List (BitVec 8)) : Bool

/-- The SHA-512 of the SubjectPublicKeyInfo of a certificate that is X.509 v3 with an RSA-4096 key; none for any other
bytes (R467). -/
opaque certKey (der : List (BitVec 8)) : Option (List (BitVec 8))

/-- The SHA-512 of the signer's SubjectPublicKeyInfo of a manifest's certificate chain, when the chain leads to the root
in OTP and the signer's certificate has the firmware-signing usage (R479). -/
opaque chainSigner (chain : List (BitVec 8)) : Option (List (BitVec 8))

/-- RSAES-OAEP decryption under the device identity key, and a signature by the key of a number over a message, by the
model's counter, since the salt is fresh each time (R474, R499, R502). -/
opaque decrypt (cipher : List (BitVec 8)) : Option (List (BitVec 8))
opaque sign (key : Nat) (msg : List (BitVec 8)) (n : Nat) : List (BitVec 8)

/-- GETBCR, GETDCR, GETSTATUS, GETMWL and GETMRL data, which the spec does not give: the bus and device characteristics,
the status, and the lengths (R555). -/
opaque i3cData (ccc : Nat) : List (BitVec 8)

end Sys2Proof.Config
end

