-- ==== Sys2Proof/Machine/Regs.lean ====
section
/-! DEFINITION. The register map (R530, R539-R545): where each register stands, its width, the attributes and reset
value of its fields, and the fields' places. -/

namespace Sys2Proof.Machine

open Sys2Proof

/-- The place of a field in its register: its lowest bit and its width. -/
structure Fld where
  lo : Nat
  w : Nat
  deriving DecidableEq, Repr

/-- The groups of R537, by which registers are reset and switched off. -/
inductive RegGroup where
  /-- Tile page, cluster domain of the site. -/
  | tileC
  /-- Tile page, fabric domain of the site's field. -/
  | tileFa
  /-- Tile page, kept by the field controller. -/
  | tileFC
  /-- Cluster array, fabric domain of the cluster's field. -/
  | clusterFab
  /-- Field page, fabric domain of the field. -/
  | fieldFab
  /-- Supervisor domain. -/
  | sup
  /-- Link domain. -/
  | link
  /-- Host port of the head. -/
  | head
  deriving DecidableEq, Repr

/-- A register, or an array of registers: register (i, j) stands at `base + s1 * i + s2 * j`. The masks hold the bits
of each access attribute (R18); `reset` is the value after the group's reset. -/
structure RegDesc where
  base : Nat
  s1 : Nat
  c1 : Nat
  s2 : Nat
  c2 : Nat
  width : Nat
  group : RegGroup
  rw : Nat
  rw1c : Nat
  wo : Nat
  rwo : Nat
  ros : Nat
  reset : Nat
  deriving DecidableEq, Repr

/-- SUP_DF_CTRL (R539). -/
def supDfCtrl : Nat := 0x0
/-- SUP_DF_CTRL.DLD_EN, bits [0:0], RWO. -/
def SupDfCtrl.dldEn : Fld := ⟨0, 1⟩
/-- SUP_DF_CTRL.QUIET_LOG2, bits [4:1], RWO. -/
def SupDfCtrl.quietLog2 : Fld := ⟨1, 4⟩
/-- SUP_DF_CTRL.HORIZON_LOG2, bits [9:5], RWO. -/
def SupDfCtrl.horizonLog2 : Fld := ⟨5, 5⟩
/-- SUP_DF_CTRL.HBM_SPILL_EN, bits [10:10], RWO. -/
def SupDfCtrl.hbmSpillEn : Fld := ⟨10, 1⟩
/-- SUP_DF_CTRL.MAXSPILL, bits [18:11], RWO. -/
def SupDfCtrl.maxspill : Fld := ⟨11, 8⟩

/-- SUP_SEASON_CMD (R539). -/
def supSeasonCmd : Nat := 0x8
/-- SUP_SEASON_CMD.SLOT, bits [2:0], RWO. -/
def SupSeasonCmd.slot : Fld := ⟨0, 3⟩
/-- SUP_SEASON_CMD.OP, bits [4:3], RWO. -/
def SupSeasonCmd.op : Fld := ⟨3, 2⟩
/-- SUP_SEASON_CMD.SRC, bits [45:12], RWO. -/
def SupSeasonCmd.src : Fld := ⟨12, 34⟩

/-- SUP_SLOT_CFG (R539). -/
def supSlotCfg : Nat := 0x10
/-- SUP_SLOT_CFG.BASE, bits [33:0], RWO. -/
def SupSlotCfg.base : Fld := ⟨0, 34⟩
/-- SUP_SLOT_CFG.SIZE_LOG2, bits [36:34], RWO. -/
def SupSlotCfg.sizeLog2 : Fld := ⟨34, 3⟩
/-- SUP_SLOT_CFG.COUNT, bits [58:38], RWO. -/
def SupSlotCfg.count : Fld := ⟨38, 21⟩

/-- SUP_SEASON_STAT (R539). -/
def supSeasonStat (n : Nat) : Nat := 0x40 + 8 * n
/-- SUP_SEASON_STAT.STATE, bits [2:0], RO. -/
def SupSeasonStat.state : Fld := ⟨0, 3⟩
/-- SUP_SEASON_STAT.RESULT, bits [15:8], RO. -/
def SupSeasonStat.result : Fld := ⟨8, 8⟩
/-- SUP_SEASON_STAT.SEASON_ID, bits [47:16], RO. -/
def SupSeasonStat.seasonId : Fld := ⟨16, 32⟩
/-- SUP_SEASON_STAT.DETAIL, bits [63:48], RO. -/
def SupSeasonStat.detail : Fld := ⟨48, 16⟩

/-- SUP_BOOT_STAT (R539). -/
def supBootStat : Nat := 0x80
/-- SUP_BOOT_STAT.STAGE, bits [3:0], RO. -/
def SupBootStat.stage : Fld := ⟨0, 4⟩
/-- SUP_BOOT_STAT.STOP_CODE, bits [11:4], RO. -/
def SupBootStat.stopCode : Fld := ⟨4, 8⟩
/-- SUP_BOOT_STAT.ELAPSED_MS, bits [47:16], RO. -/
def SupBootStat.elapsedMs : Fld := ⟨16, 32⟩

/-- SUP_RESET_CMD (R539). -/
def supResetCmd : Nat := 0x88
/-- SUP_RESET_CMD.OP, bits [1:0], RWO. -/
def SupResetCmd.op : Fld := ⟨0, 2⟩

/-- SUP_RESET_STAT (R539). -/
def supResetStat : Nat := 0x90
/-- SUP_RESET_STAT.LAST_KIND, bits [2:0], RO. -/
def SupResetStat.lastKind : Fld := ⟨0, 3⟩
/-- SUP_RESET_STAT.LAST_CAUSE, bits [6:3], RO. -/
def SupResetStat.lastCause : Fld := ⟨3, 4⟩
/-- SUP_RESET_STAT.FABRIC_RESETS, bits [31:16], ROS. -/
def SupResetStat.fabricResets : Fld := ⟨16, 16⟩
/-- SUP_RESET_STAT.COMPUTE_RESETS, bits [47:32], ROS. -/
def SupResetStat.computeResets : Fld := ⟨32, 16⟩

/-- SUP_MAP_STAT (R539). -/
def supMapStat : Nat := 0x98
/-- SUP_MAP_STAT.LIVE, bits [11:0], RO. -/
def SupMapStat.live : Fld := ⟨0, 12⟩
/-- SUP_MAP_STAT.LOGICAL, bits [21:12], RO. -/
def SupMapStat.logical : Fld := ⟨12, 10⟩
/-- SUP_MAP_STAT.DEGRADED, bits [22:22], RO. -/
def SupMapStat.degraded : Fld := ⟨22, 1⟩
/-- SUP_MAP_STAT.LOST_FIELD, bits [35:32], RO. -/
def SupMapStat.lostField : Fld := ⟨32, 4⟩
/-- SUP_MAP_STAT.LOST_CAUSE, bits [38:36], RO. -/
def SupMapStat.lostCause : Fld := ⟨36, 3⟩

/-- SUP_REMAP_STAT (R539). -/
def supRemapStat : Nat := 0xa0
/-- SUP_REMAP_STAT.LAST_ID, bits [31:0], RO. -/
def SupRemapStat.lastId : Fld := ⟨0, 32⟩
/-- SUP_REMAP_STAT.STATE, bits [34:32], RO. -/
def SupRemapStat.state : Fld := ⟨32, 3⟩
/-- SUP_REMAP_STAT.COUNT, bits [37:35], RO. -/
def SupRemapStat.count : Fld := ⟨35, 3⟩
/-- SUP_REMAP_STAT.TOTAL, bits [55:40], ROS. -/
def SupRemapStat.total : Fld := ⟨40, 16⟩

/-- SUP_REPAIR_CMD (R539). -/
def supRepairCmd : Nat := 0xa8
/-- SUP_REPAIR_CMD.OP, bits [1:0], RWO. -/
def SupRepairCmd.op : Fld := ⟨0, 2⟩
/-- SUP_REPAIR_CMD.FIELD, bits [5:2], RWO. -/
def SupRepairCmd.field : Fld := ⟨2, 4⟩
/-- SUP_REPAIR_CMD.PENDING, bits [6:6], RO. -/
def SupRepairCmd.pending : Fld := ⟨6, 1⟩

/-- SUP_DIE_ID0 (R539). -/
def supDieId0 : Nat := 0xb0

/-- SUP_DIE_ID1 (R539). -/
def supDieId1 : Nat := 0xb8

/-- SUP_ID_STAT (R539). -/
def supIdStat : Nat := 0xc0
/-- SUP_ID_STAT.DEV_KEY_OK, bits [0:0], RO. -/
def SupIdStat.devKeyOk : Fld := ⟨0, 1⟩
/-- SUP_ID_STAT.KEY_OK, bits [12:1], RO. -/
def SupIdStat.keyOk : Fld := ⟨1, 12⟩
/-- SUP_ID_STAT.QUOTE, bits [24:13], RO. -/
def SupIdStat.quote : Fld := ⟨13, 12⟩
/-- SUP_ID_STAT.SIGNED, bits [47:32], RO. -/
def SupIdStat.signed : Fld := ⟨32, 16⟩
/-- SUP_ID_STAT.ERRORS, bits [63:48], RO. -/
def SupIdStat.errors : Fld := ⟨48, 16⟩

/-- OWN_STAT (R539). -/
def ownStat : Nat := 0x1000
/-- OWN_STAT.OWNER, bits [1:0], RO. -/
def OwnStat.owner : Fld := ⟨0, 2⟩
/-- OWN_STAT.WINDOW, bits [2:2], RO. -/
def OwnStat.window : Fld := ⟨2, 1⟩
/-- OWN_STAT.HOLDER, bits [4:3], RO. -/
def OwnStat.holder : Fld := ⟨3, 2⟩
/-- OWN_STAT.PRESENT, bits [7:5], RO. -/
def OwnStat.present : Fld := ⟨5, 3⟩
/-- OWN_STAT.LEASE_LEFT, bits [17:8], RO. -/
def OwnStat.leaseLeft : Fld := ⟨8, 10⟩
/-- OWN_STAT.CHANGES, bits [47:32], RO. -/
def OwnStat.changes : Fld := ⟨32, 16⟩

/-- OWN_CFG (R539). -/
def ownCfg : Nat := 0x1008
/-- OWN_CFG.LEASE_MS, bits [9:0], RWO. -/
def OwnCfg.leaseMs : Fld := ⟨0, 10⟩
/-- OWN_CFG.CLAIM_WIN_MS, bits [25:10], RWO. -/
def OwnCfg.claimWinMs : Fld := ⟨10, 16⟩
/-- OWN_CFG.ELIG, bits [28:26], RO. -/
def OwnCfg.elig : Fld := ⟨26, 3⟩
/-- OWN_CFG.PRIO_HA, bits [33:32], RO. -/
def OwnCfg.prioHa : Fld := ⟨32, 2⟩
/-- OWN_CFG.PRIO_HB, bits [35:34], RO. -/
def OwnCfg.prioHb : Fld := ⟨34, 2⟩
/-- OWN_CFG.PRIO_SVC, bits [37:36], RO. -/
def OwnCfg.prioSvc : Fld := ⟨36, 2⟩

/-- OWN_HEAD_RANGE (R539). -/
def ownHeadRange (h : Nat) : Nat := 0x1010 + 4 * h
/-- OWN_HEAD_RANGE.BASE, bits [9:0], RWO. -/
def OwnHeadRange.base : Fld := ⟨0, 10⟩
/-- OWN_HEAD_RANGE.SIZE, bits [19:10], RWO. -/
def OwnHeadRange.size : Fld := ⟨10, 10⟩

/-- OWN_CMD_SVC (R539). -/
def ownCmdSvc : Nat := 0x1020
/-- OWN_CMD_SVC.OP, bits [2:0], WO. -/
def OwnCmdSvc.op : Fld := ⟨0, 3⟩
/-- OWN_CMD_SVC.TARGET, bits [4:3], WO. -/
def OwnCmdSvc.target : Fld := ⟨3, 2⟩
/-- OWN_CMD_SVC.RESULT, bits [11:8], RO. -/
def OwnCmdSvc.result : Fld := ⟨8, 4⟩

/-- PWR_IN_STAT (R539). -/
def pwrInStat : Nat := 0x2000
/-- PWR_IN_STAT.VIN, bits [15:0], RO. -/
def PwrInStat.vin : Fld := ⟨0, 16⟩
/-- PWR_IN_STAT.IIN, bits [31:16], RO. -/
def PwrInStat.iin : Fld := ⟨16, 16⟩
/-- PWR_IN_STAT.HIGH, bits [32:32], RO. -/
def PwrInStat.high : Fld := ⟨32, 1⟩
/-- PWR_IN_STAT.CAP, bits [33:33], RO. -/
def PwrInStat.cap : Fld := ⟨33, 1⟩
/-- PWR_IN_STAT.HALT_PEND, bits [34:34], RO. -/
def PwrInStat.haltPend : Fld := ⟨34, 1⟩
/-- PWR_IN_STAT.HALT, bits [35:35], RO. -/
def PwrInStat.halt : Fld := ⟨35, 1⟩

/-- PWR_AUX_STAT (R539). -/
def pwrAuxStat : Nat := 0x2008
/-- PWR_AUX_STAT.AUX_A, bits [1:0], ROS. -/
def PwrAuxStat.auxA : Fld := ⟨0, 2⟩
/-- PWR_AUX_STAT.AUX_B, bits [3:2], ROS. -/
def PwrAuxStat.auxB : Fld := ⟨2, 2⟩
/-- PWR_AUX_STAT.HA_DOWN, bits [4:4], ROS. -/
def PwrAuxStat.haDown : Fld := ⟨4, 1⟩
/-- PWR_AUX_STAT.HB_DOWN, bits [5:5], ROS. -/
def PwrAuxStat.hbDown : Fld := ⟨5, 1⟩

/-- PWR_CMD (R539). -/
def pwrCmd : Nat := 0x200c
/-- PWR_CMD.OP, bits [1:0], RWO. -/
def PwrCmd.op : Fld := ⟨0, 2⟩

/-- PWR_LIMIT (R539). -/
def pwrLimit : Nat := 0x2010
/-- PWR_LIMIT.SUST_W, bits [13:0], RWO. -/
def PwrLimit.sustW : Fld := ⟨0, 14⟩
/-- PWR_LIMIT.FILL, bits [14:14], RWO. -/
def PwrLimit.fill : Fld := ⟨14, 1⟩
/-- PWR_LIMIT.WINTER_REQ, bits [15:15], RWO. -/
def PwrLimit.winterReq : Fld := ⟨15, 1⟩

/-- PWR_STATE (R539). -/
def pwrState : Nat := 0x2018
/-- PWR_STATE.STATE, bits [2:0], RO. -/
def PwrState.state : Fld := ⟨0, 3⟩
/-- PWR_STATE.AUTUMN_CAUSE, bits [9:4], RO. -/
def PwrState.autumnCause : Fld := ⟨4, 6⟩
/-- PWR_STATE.WINTER_CAUSE, bits [20:16], RO. -/
def PwrState.winterCause : Fld := ⟨16, 5⟩
/-- PWR_STATE.DIE_TRIP, bits [32:32], RO. -/
def PwrState.dieTrip : Fld := ⟨32, 1⟩
/-- PWR_STATE.TRIP_SENSOR, bits [41:33], RO. -/
def PwrState.tripSensor : Fld := ⟨33, 9⟩
/-- PWR_STATE.TRIP_TEMP, bits [49:42], RO. -/
def PwrState.tripTemp : Fld := ⟨42, 8⟩
/-- PWR_STATE.M_W, bits [56:50], RO. -/
def PwrState.mW : Fld := ⟨50, 7⟩

/-- PWR_WIN_STAT (R539). -/
def pwrWinStat : Nat := 0x2020
/-- PWR_WIN_STAT.AVG_1MS, bits [15:0], RO. -/
def PwrWinStat.avg1ms : Fld := ⟨0, 16⟩
/-- PWR_WIN_STAT.AVG_10MS, bits [31:16], RO. -/
def PwrWinStat.avg10ms : Fld := ⟨16, 16⟩
/-- PWR_WIN_STAT.AVG_1S, bits [47:32], RO. -/
def PwrWinStat.avg1s : Fld := ⟨32, 16⟩
/-- PWR_WIN_STAT.TARGET, bits [63:48], RO. -/
def PwrWinStat.target : Fld := ⟨48, 16⟩

/-- PWR_COOL_STAT (R539). -/
def pwrCoolStat : Nat := 0x2028
/-- PWR_COOL_STAT.T_IN, bits [15:0], RO. -/
def PwrCoolStat.tIn : Fld := ⟨0, 16⟩
/-- PWR_COOL_STAT.T_OUT, bits [31:16], RO. -/
def PwrCoolStat.tOut : Fld := ⟨16, 16⟩
/-- PWR_COOL_STAT.FLOW, bits [43:32], RO. -/
def PwrCoolStat.flow : Fld := ⟨32, 12⟩
/-- PWR_COOL_STAT.FLOW_VALID, bits [44:44], RO. -/
def PwrCoolStat.flowValid : Fld := ⟨44, 1⟩
/-- PWR_COOL_STAT.DERATE_W, bits [61:48], RO. -/
def PwrCoolStat.derateW : Fld := ⟨48, 14⟩

/-- PWR_SLOPE_STAT (R539). -/
def pwrSlopeStat : Nat := 0x2030
/-- PWR_SLOPE_STAT.FILL, bits [31:0], RO. -/
def PwrSlopeStat.fill : Fld := ⟨0, 32⟩
/-- PWR_SLOPE_STAT.EXEMPT, bits [47:32], RO. -/
def PwrSlopeStat.exempt : Fld := ⟨32, 16⟩
/-- PWR_SLOPE_STAT.STARVED, bits [63:48], RO. -/
def PwrSlopeStat.starved : Fld := ⟨48, 16⟩

/-- CLK_CTRL (R539). -/
def clkCtrl : Nat := 0x3000
/-- CLK_CTRL.TARGET_DIV, bits [4:0], RWO. -/
def ClkCtrl.targetDiv : Fld := ⟨0, 5⟩
/-- CLK_CTRL.CCLK_LP, bits [5:5], RWO. -/
def ClkCtrl.cclkLp : Fld := ⟨5, 1⟩
/-- CLK_CTRL.HOLD_S, bits [15:6], RWO. -/
def ClkCtrl.holdS : Fld := ⟨6, 10⟩

/-- CLK_MARGIN_CFG (R539). -/
def clkMarginCfg : Nat := 0x3004
/-- CLK_MARGIN_CFG.CRIT_PS, bits [7:0], RWO. -/
def ClkMarginCfg.critPs : Fld := ⟨0, 8⟩
/-- CLK_MARGIN_CFG.WARN_PS, bits [15:8], RWO. -/
def ClkMarginCfg.warnPs : Fld := ⟨8, 8⟩
/-- CLK_MARGIN_CFG.RELAX_PS, bits [23:16], RWO. -/
def ClkMarginCfg.relaxPs : Fld := ⟨16, 8⟩

/-- CLK_STAT (R539). -/
def clkStat : Nat := 0x3008
/-- CLK_STAT.DIV, bits [4:0], RO. -/
def ClkStat.div : Fld := ⟨0, 5⟩
/-- CLK_STAT.CCLK_LP, bits [5:5], RO. -/
def ClkStat.cclkLp : Fld := ⟨5, 1⟩
/-- CLK_STAT.PENDING, bits [6:6], RO. -/
def ClkStat.pending : Fld := ⟨6, 1⟩
/-- CLK_STAT.NEXT_DIV, bits [11:7], RO. -/
def ClkStat.nextDiv : Fld := ⟨7, 5⟩
/-- CLK_STAT.STEPDOWNS, bits [31:16], ROS. -/
def ClkStat.stepdowns : Fld := ⟨16, 16⟩
/-- CLK_STAT.TS_LOW, bits [63:32], RO. -/
def ClkStat.tsLow : Fld := ⟨32, 32⟩

/-- TIM_DEVTIME (R539). -/
def timDevtime : Nat := 0x3010

/-- TIM_EPOCH (R539). -/
def timEpoch : Nat := 0x3018

/-- TIM_STAT (R539). -/
def timStat : Nat := 0x3020
/-- TIM_STAT.EPOCH_SET, bits [0:0], RO. -/
def TimStat.epochSet : Fld := ⟨0, 1⟩

/-- CLK_SKEW_STAT (R539). -/
def clkSkewStat (i : Nat) : Nat := 0x3100 + 4 * i
/-- CLK_SKEW_STAT.SKEW, bits [7:0], RO. -/
def ClkSkewStat.skew : Fld := ⟨0, 8⟩
/-- CLK_SKEW_STAT.WORST, bits [15:8], ROS. -/
def ClkSkewStat.worst : Fld := ⟨8, 8⟩
/-- CLK_SKEW_STAT.OVER, bits [16:16], RO. -/
def ClkSkewStat.above : Fld := ⟨16, 1⟩

/-- INT_CTRL (R539). -/
def intCtrl : Nat := 0x4000
/-- INT_CTRL.MODE, bits [2:0], RWO. -/
def IntCtrl.mode : Fld := ⟨0, 3⟩
/-- INT_CTRL.REPHASE_LOG2, bits [7:3], RWO. -/
def IntCtrl.rephaseLog2 : Fld := ⟨3, 5⟩
/-- INT_CTRL.WDIG_S, bits [17:8], RWO. -/
def IntCtrl.wdigS : Fld := ⟨8, 10⟩
/-- INT_CTRL.SCRUB_MIN, bits [25:18], RWO. -/
def IntCtrl.scrubMin : Fld := ⟨18, 8⟩

/-- INT_STAT (R539). -/
def intStat : Nat := 0x4008
/-- INT_STAT.MODE, bits [2:0], RO. -/
def IntStat.mode : Fld := ⟨0, 3⟩
/-- INT_STAT.PENDING, bits [3:3], RO. -/
def IntStat.pending : Fld := ⟨3, 1⟩
/-- INT_STAT.UNVERIFIED, bits [13:4], RO. -/
def IntStat.unverified : Fld := ⟨4, 10⟩
/-- INT_STAT.SUSPECT, bits [23:14], RO. -/
def IntStat.suspect : Fld := ⟨14, 10⟩
/-- INT_STAT.WDIG_ROUNDS, bits [63:32], RO. -/
def IntStat.wdigRounds : Fld := ⟨32, 32⟩

/-- INT_COVER (R539). -/
def intCover (n : Nat) : Nat := 0x4010 + 4 * n
/-- INT_COVER.COVER, bits [31:0], RO. -/
def IntCover.cover : Fld := ⟨0, 32⟩

/-- INT_CNT (R539). -/
def intCnt (i : Nat) : Nat := 0x4100 + 8 * i
/-- Index of PARITY in INT_CNT. -/
def IntCnt.parity : Nat := 0
/-- Index of SRAM_CE in INT_CNT. -/
def IntCnt.sramCe : Nat := 1
/-- Index of SRAM_UE in INT_CNT. -/
def IntCnt.sramUe : Nat := 2
/-- Index of RESIDUE in INT_CNT. -/
def IntCnt.residue : Nat := 3
/-- Index of KAT_RUNS in INT_CNT. -/
def IntCnt.katRuns : Nat := 4
/-- Index of KAT_FAILS in INT_CNT. -/
def IntCnt.katFails : Nat := 5
/-- Index of COMPARED in INT_CNT. -/
def IntCnt.compared : Nat := 6
/-- Index of MISMATCH in INT_CNT. -/
def IntCnt.mismatch : Nat := 7
/-- Index of DIGEST_LOST in INT_CNT. -/
def IntCnt.digestLost : Nat := 8
/-- Index of WDIG_MISMATCH in INT_CNT. -/
def IntCnt.wdigMismatch : Nat := 9
/-- Index of WDIG_LATE in INT_CNT. -/
def IntCnt.wdigLate : Nat := 10
/-- Index of UNVERIFIED_STEPS in INT_CNT. -/
def IntCnt.unverifiedSteps : Nat := 11
/-- Index of REMAPS in INT_CNT. -/
def IntCnt.remaps : Nat := 12

/-- LNK_FDN (R539). -/
def lnkFdn : Nat := 0x5000
/-- LNK_FDN.FDN, bits [15:0], ROS. -/
def LnkFdn.fdn : Fld := ⟨0, 16⟩
/-- LNK_FDN.VALID, bits [16:16], ROS. -/
def LnkFdn.valid : Fld := ⟨16, 1⟩

/-- LNK_NARROW (R539). -/
def lnkNarrow (n : Nat) : Nat := 0x5100 + 8 * n
/-- LNK_NARROW.VALID, bits [0:0], RWO. -/
def LnkNarrow.valid : Fld := ⟨0, 1⟩
/-- LNK_NARROW.FMT, bits [1:1], RWO. -/
def LnkNarrow.fmt : Fld := ⟨1, 1⟩
/-- LNK_NARROW.SLOT, bits [4:2], RWO. -/
def LnkNarrow.slot : Fld := ⟨2, 3⟩
/-- LNK_NARROW.FDN, bits [23:8], RWO. -/
def LnkNarrow.fdn : Fld := ⟨8, 16⟩
/-- LNK_NARROW.TILE_LO, bits [33:24], RWO. -/
def LnkNarrow.tileLo : Fld := ⟨24, 10⟩
/-- LNK_NARROW.TILE_HI, bits [43:34], RWO. -/
def LnkNarrow.tileHi : Fld := ⟨34, 10⟩
/-- LNK_NARROW.WIN, bits [47:44], RWO. -/
def LnkNarrow.win : Fld := ⟨44, 4⟩

/-- CON_CTRL (R539). -/
def conCtrl : Nat := 0x6000
/-- CON_CTRL.RATE, bits [4:0], RWO. -/
def ConCtrl.rate : Fld := ⟨0, 5⟩
/-- CON_CTRL.HI_WM, bits [13:5], RWO. -/
def ConCtrl.hiWm : Fld := ⟨5, 9⟩
/-- CON_CTRL.LO_WM, bits [22:14], RWO. -/
def ConCtrl.loWm : Fld := ⟨14, 9⟩
/-- CON_CTRL.CTL_TO, bits [30:23], RWO. -/
def ConCtrl.ctlTo : Fld := ⟨23, 8⟩
/-- CON_CTRL.DATA_TO, bits [39:32], RWO. -/
def ConCtrl.dataTo : Fld := ⟨32, 8⟩

/-- CON_SEAM_STAT (R539). -/
def conSeamStat : Nat := 0x6008
/-- CON_SEAM_STAT.SPARED, bits [6:0], ROS. -/
def ConSeamStat.spared : Fld := ⟨0, 7⟩
/-- CON_SEAM_STAT.PENDING, bits [13:7], RO. -/
def ConSeamStat.pending : Fld := ⟨7, 7⟩
/-- CON_SEAM_STAT.CON_OUT, bits [20:14], ROS. -/
def ConSeamStat.conOut : Fld := ⟨14, 7⟩
/-- CON_SEAM_STAT.LAT_OUT, bits [26:21], ROS. -/
def ConSeamStat.latOut : Fld := ⟨21, 6⟩
/-- CON_SEAM_STAT.MESH_FATAL, bits [27:27], ROS. -/
def ConSeamStat.meshFatal : Fld := ⟨27, 1⟩

/-- CON_BAR_STAT (R539). -/
def conBarStat (b : Nat) : Nat := 0x6100 + 4 * b
/-- CON_BAR_STAT.COUNT, bits [10:0], RO. -/
def ConBarStat.count : Fld := ⟨0, 11⟩
/-- CON_BAR_STAT.NEXT, bits [21:11], RO. -/
def ConBarStat.next : Fld := ⟨11, 11⟩
/-- CON_BAR_STAT.SENSE, bits [22:22], RO. -/
def ConBarStat.sense : Fld := ⟨22, 1⟩
/-- CON_BAR_STAT.VALID, bits [23:23], RO. -/
def ConBarStat.valid : Fld := ⟨23, 1⟩
/-- CON_BAR_STAT.ERR, bits [24:24], RW1C. -/
def ConBarStat.err : Fld := ⟨24, 1⟩

/-- HBM_CTRL (R539). -/
def hbmCtrl : Nat := 0x7000
/-- HBM_CTRL.SCRUB_HOURS, bits [7:0], RWO. -/
def HbmCtrl.scrubHours : Fld := ⟨0, 8⟩
/-- HBM_CTRL.CE_LIMIT, bits [15:8], RWO. -/
def HbmCtrl.ceLimit : Fld := ⟨8, 8⟩
/-- HBM_CTRL.TEST_POR, bits [17:16], RWO. -/
def HbmCtrl.testPor : Fld := ⟨16, 2⟩
/-- HBM_CTRL.TEST_DEV, bits [19:18], RWO. -/
def HbmCtrl.testDev : Fld := ⟨18, 2⟩

/-- HBM_RETIRE_CMD (R539). -/
def hbmRetireCmd : Nat := 0x7004
/-- HBM_RETIRE_CMD.SLICE, bits [9:0], RWO. -/
def HbmRetireCmd.slice : Fld := ⟨0, 10⟩
/-- HBM_RETIRE_CMD.OP, bits [11:10], RWO. -/
def HbmRetireCmd.op : Fld := ⟨10, 2⟩

/-- HBM_MAP_STAT (R539). -/
def hbmMapStat : Nat := 0x7008
/-- HBM_MAP_STAT.RETIRED, bits [9:0], ROS. -/
def HbmMapStat.retired : Fld := ⟨0, 10⟩
/-- HBM_MAP_STAT.MARKED, bits [19:10], ROS. -/
def HbmMapStat.marked : Fld := ⟨10, 10⟩
/-- HBM_MAP_STAT.FAILED, bits [29:20], ROS. -/
def HbmMapStat.failed : Fld := ⟨20, 10⟩
/-- HBM_MAP_STAT.HOST_TOP, bits [61:32], ROS. -/
def HbmMapStat.hostTop : Fld := ⟨32, 30⟩

/-- HBM_TEST_STAT (R539). -/
def hbmTestStat : Nat := 0x7010
/-- HBM_TEST_STAT.MODE, bits [1:0], ROS. -/
def HbmTestStat.mode : Fld := ⟨0, 2⟩
/-- HBM_TEST_STAT.RETIRED_NOW, bits [11:2], ROS. -/
def HbmTestStat.retiredNow : Fld := ⟨2, 10⟩
/-- HBM_TEST_STAT.PPR_ROWS, bits [27:12], ROS. -/
def HbmTestStat.pprRows : Fld := ⟨12, 16⟩
/-- HBM_TEST_STAT.DURATION, bits [63:32], ROS. -/
def HbmTestStat.duration : Fld := ⟨32, 32⟩

/-- HBM_STACK_STAT (R539). -/
def hbmStackStat (k : Nat) : Nat := 0x7100 + 8 * k
/-- HBM_STACK_STAT.TEMP, bits [7:0], RO. -/
def HbmStackStat.temp : Fld := ⟨0, 8⟩
/-- HBM_STACK_STAT.REFRESH, bits [9:8], RO. -/
def HbmStackStat.refresh : Fld := ⟨8, 2⟩
/-- HBM_STACK_STAT.HOT, bits [10:10], RO. -/
def HbmStackStat.hot : Fld := ⟨10, 1⟩
/-- HBM_STACK_STAT.CE, bits [31:16], ROS. -/
def HbmStackStat.ce : Fld := ⟨16, 16⟩
/-- HBM_STACK_STAT.UE, bits [47:32], ROS. -/
def HbmStackStat.ue : Fld := ⟨32, 16⟩
/-- HBM_STACK_STAT.PARITY, bits [55:48], ROS. -/
def HbmStackStat.parity : Fld := ⟨48, 8⟩
/-- HBM_STACK_STAT.ONDIE, bits [63:56], ROS. -/
def HbmStackStat.ondie : Fld := ⟨56, 8⟩

/-- NVM_UPD_CTRL (R539). -/
def nvmUpdCtrl : Nat := 0x8000
/-- NVM_UPD_CTRL.PERMIT, bits [0:0], RWO. -/
def NvmUpdCtrl.permit : Fld := ⟨0, 1⟩
/-- NVM_UPD_CTRL.TRIAL_MIN, bits [7:1], RWO. -/
def NvmUpdCtrl.trialMin : Fld := ⟨1, 7⟩

/-- NVM_UPD_CMD (R539). -/
def nvmUpdCmd : Nat := 0x8004
/-- NVM_UPD_CMD.OP, bits [2:0], RWO. -/
def NvmUpdCmd.op : Fld := ⟨0, 3⟩
/-- NVM_UPD_CMD.RESULT, bits [7:4], RO. -/
def NvmUpdCmd.result : Fld := ⟨4, 4⟩

/-- NVM_UPD_STAT (R539). -/
def nvmUpdStat : Nat := 0x8008
/-- NVM_UPD_STAT.ACTIVE, bits [0:0], RO. -/
def NvmUpdStat.active : Fld := ⟨0, 1⟩
/-- NVM_UPD_STAT.TRIAL, bits [1:1], RO. -/
def NvmUpdStat.trial : Fld := ⟨1, 1⟩
/-- NVM_UPD_STAT.TBOOTS, bits [3:2], RO. -/
def NvmUpdStat.tboots : Fld := ⟨2, 2⟩
/-- NVM_UPD_STAT.TRIAL_LEFT, bits [10:4], RO. -/
def NvmUpdStat.trialLeft : Fld := ⟨4, 7⟩
/-- NVM_UPD_STAT.UPLOADING, bits [11:11], RO. -/
def NvmUpdStat.uploading : Fld := ⟨11, 1⟩
/-- NVM_UPD_STAT.NVM_A_OK, bits [12:12], RO. -/
def NvmUpdStat.nvmAOk : Fld := ⟨12, 1⟩
/-- NVM_UPD_STAT.NVM_B_OK, bits [13:13], RO. -/
def NvmUpdStat.nvmBOk : Fld := ⟨13, 1⟩
/-- NVM_UPD_STAT.LAST_KIND, bits [18:16], RO. -/
def NvmUpdStat.lastKind : Fld := ⟨16, 3⟩
/-- NVM_UPD_STAT.LAST_REASON, bits [27:20], RO. -/
def NvmUpdStat.lastReason : Fld := ⟨20, 8⟩
/-- NVM_UPD_STAT.UPLOAD_BYTES, bits [63:32], RO. -/
def NvmUpdStat.uploadBytes : Fld := ⟨32, 32⟩

/-- NVM_SLOT_STAT (R539). -/
def nvmSlotStat (i : Nat) : Nat := 0x8010 + 8 * i
/-- NVM_SLOT_STAT.STATE, bits [2:0], RO. -/
def NvmSlotStat.state : Fld := ⟨0, 3⟩
/-- NVM_SLOT_STAT.RESULT, bits [15:8], RO. -/
def NvmSlotStat.result : Fld := ⟨8, 8⟩
/-- NVM_SLOT_STAT.RELEASE, bits [63:32], RO. -/
def NvmSlotStat.release : Fld := ⟨32, 32⟩

/-- NVM_CFG_CMD (R539). -/
def nvmCfgCmd : Nat := 0x8020
/-- NVM_CFG_CMD.OP, bits [2:0], RWO. -/
def NvmCfgCmd.op : Fld := ⟨0, 3⟩
/-- NVM_CFG_CMD.SRC, bits [45:12], RWO. -/
def NvmCfgCmd.src : Fld := ⟨12, 34⟩

/-- NVM_CFG_STAT (R539). -/
def nvmCfgStat : Nat := 0x8028
/-- NVM_CFG_STAT.IN_FORCE, bits [0:0], RO. -/
def NvmCfgStat.inForce : Fld := ⟨0, 1⟩
/-- NVM_CFG_STAT.SELECT_PENDING, bits [1:1], RO. -/
def NvmCfgStat.selectPending : Fld := ⟨1, 1⟩
/-- NVM_CFG_STAT.RESTRICTED, bits [2:2], RO. -/
def NvmCfgStat.restricted : Fld := ⟨2, 1⟩
/-- NVM_CFG_STAT.ENROLLED, bits [5:3], RO. -/
def NvmCfgStat.enrolled : Fld := ⟨3, 3⟩
/-- NVM_CFG_STAT.OPERATOR, bits [6:6], RO. -/
def NvmCfgStat.operator : Fld := ⟨6, 1⟩
/-- NVM_CFG_STAT.RESULT, bits [15:8], RO. -/
def NvmCfgStat.result : Fld := ⟨8, 8⟩
/-- NVM_CFG_STAT.SEQ, bits [63:32], RO. -/
def NvmCfgStat.seq : Fld := ⟨32, 32⟩

/-- NVM_SVC_STAT (R539). -/
def nvmSvcStat : Nat := 0x8030
/-- NVM_SVC_STAT.LINK_UP, bits [0:0], RO. -/
def NvmSvcStat.linkUp : Fld := ⟨0, 1⟩
/-- NVM_SVC_STAT.SESSION, bits [1:1], RO. -/
def NvmSvcStat.session : Fld := ⟨1, 1⟩
/-- NVM_SVC_STAT.KEY, bits [3:2], RO. -/
def NvmSvcStat.key : Fld := ⟨2, 2⟩
/-- NVM_SVC_STAT.BAD_MAC, bits [31:16], RO. -/
def NvmSvcStat.badMac : Fld := ⟨16, 16⟩
/-- NVM_SVC_STAT.AUTH_FAIL, bits [47:32], RO. -/
def NvmSvcStat.authFail : Fld := ⟨32, 16⟩
/-- NVM_SVC_STAT.SESSIONS, bits [63:48], RO. -/
def NvmSvcStat.sessions : Fld := ⟨48, 16⟩

/-- LED_STAT (R539). -/
def ledStat : Nat := 0x9000
/-- LED_STAT.BREACH, bits [5:0], ROS. -/
def LedStat.breach : Fld := ⟨0, 6⟩
/-- LED_STAT.BREACHES, bits [47:32], ROS. -/
def LedStat.breaches : Fld := ⟨32, 16⟩

/-- LED_SNAP_TIME (R539). -/
def ledSnapTime : Nat := 0x9008

/-- LED_LOG_CTRL (R539). -/
def ledLogCtrl : Nat := 0x9010
/-- LED_LOG_CTRL.HOST_MIN, bits [2:0], RWO. -/
def LedLogCtrl.hostMin : Fld := ⟨0, 3⟩

/-- LED_LOG_STAT (R539). -/
def ledLogStat : Nat := 0x9018
/-- LED_LOG_STAT.NEXT_SEQ, bits [31:0], RO. -/
def LedLogStat.nextSeq : Fld := ⟨0, 32⟩
/-- LED_LOG_STAT.UNWRITTEN, bits [45:32], RO. -/
def LedLogStat.unwritten : Fld := ⟨32, 14⟩
/-- LED_LOG_STAT.DROPPED, bits [63:48], ROS. -/
def LedLogStat.dropped : Fld := ⟨48, 16⟩

/-- LED_REQ (R516). -/
def ledReq (h i : Nat) : Nat := 0x9100 + 0x80 * h + 8 * i
/-- Index of REJECTED in LED_REQ. -/
def LedReq.rejected : Nat := 0
/-- Index of ACCEPTED in LED_REQ. -/
def LedReq.accepted : Nat := 1
/-- Index of SUCCESS in LED_REQ. -/
def LedReq.success : Nat := 2
/-- Index of PARTIAL in LED_REQ. -/
def LedReq.partial : Nat := 3
/-- Index of ERROR in LED_REQ. -/
def LedReq.error : Nat := 4
/-- Index of ABANDONED in LED_REQ. -/
def LedReq.abandoned : Nat := 5
/-- Index of IN_FLIGHT in LED_REQ. -/
def LedReq.inFlight : Nat := 6
/-- Index of WRITTEN in LED_REQ. -/
def LedReq.written : Nat := 7
/-- Index of HELD in LED_REQ. -/
def LedReq.held : Nat := 8

/-- LED_SNAP_REQ (R516). -/
def ledSnapReq (h i : Nat) : Nat := 0x9200 + 0x80 * h + 8 * i

/-- LED_CNT (R517). -/
def ledCnt (i : Nat) : Nat := 0x9300 + 8 * i
/-- Index of DMA_ISSUED in LED_CNT. -/
def LedCnt.dmaIssued : Nat := 0
/-- Index of DMA_RETURNED in LED_CNT. -/
def LedCnt.dmaReturned : Nat := 1
/-- Index of RECL_TIMEOUT in LED_CNT. -/
def LedCnt.reclTimeout : Nat := 2
/-- Index of RECL_RESET in LED_CNT. -/
def LedCnt.reclReset : Nat := 3
/-- Index of DMA_OUTSTANDING in LED_CNT. -/
def LedCnt.dmaOutstanding : Nat := 4
/-- Index of LK_TAKEN in LED_CNT. -/
def LedCnt.lkTaken : Nat := 5
/-- Index of LK_RETURNED in LED_CNT. -/
def LedCnt.lkReturned : Nat := 6
/-- Index of LK_RECLAIMED in LED_CNT. -/
def LedCnt.lkReclaimed : Nat := 7
/-- Index of LK_OUTSTANDING in LED_CNT. -/
def LedCnt.lkOutstanding : Nat := 8
/-- Index of TAGS_ISSUED in LED_CNT. -/
def LedCnt.tagsIssued : Nat := 9
/-- Index of TAGS_RETIRED in LED_CNT. -/
def LedCnt.tagsRetired : Nat := 10
/-- Index of TAGS_ABANDONED in LED_CNT. -/
def LedCnt.tagsAbandoned : Nat := 11
/-- Index of TAGS_OPEN in LED_CNT. -/
def LedCnt.tagsOpen : Nat := 12
/-- Index of WIN_OPENED in LED_CNT. -/
def LedCnt.winOpened : Nat := 13
/-- Index of WIN_CLOSED in LED_CNT. -/
def LedCnt.winClosed : Nat := 14
/-- Index of WIN_OPEN in LED_CNT. -/
def LedCnt.winOpen : Nat := 15
/-- Index of SNAPSHOTS in LED_CNT. -/
def LedCnt.snapshots : Nat := 16

/-- LED_SNAP_CNT (R517). -/
def ledSnapCnt (i : Nat) : Nat := 0x9400 + 8 * i

/-- LIF_STAT (R539). -/
def lifStat : Nat := 0xa000
/-- LIF_STAT.PERSIST, bits [0:0], RWO. -/
def LifStat.persist : Fld := ⟨0, 1⟩
/-- LIF_STAT.NEXT_S, bits [10:1], RO. -/
def LifStat.nextS : Fld := ⟨1, 10⟩
/-- LIF_STAT.SEQ, bits [63:32], RO. -/
def LifStat.seq : Fld := ⟨32, 32⟩

/-- LIF_PAGE (R529). -/
def lifPage (i : Nat) : Nat := 0xa100 + 8 * i

/-- HBM_SLICE (R539). -/
def hbmSlice (n : Nat) : Nat := 0xb000 + 4 * n
/-- HBM_SLICE.STATE, bits [1:0], ROS. -/
def HbmSlice.state : Fld := ⟨0, 2⟩
/-- HBM_SLICE.CAUSE, bits [4:2], ROS. -/
def HbmSlice.cause : Fld := ⟨2, 3⟩
/-- HBM_SLICE.CE_24H, bits [15:8], ROS. -/
def HbmSlice.ce24h : Fld := ⟨8, 8⟩
/-- HBM_SLICE.UE, bits [31:16], ROS. -/
def HbmSlice.ue : Fld := ⟨16, 16⟩

/-- QUE_BOOT_ID (R539). -/
def queBootId : Nat := 0xf000
/-- QUE_BOOT_ID.BOOTS, bits [31:0], RO. -/
def QueBootId.boots : Fld := ⟨0, 32⟩

/-- PWR_CL_CFG (R540). -/
def pwrClCfg (g : Nat) : Nat := 0x10000 + 32 * g
/-- PWR_CL_CFG.ILIM, bits [5:0], RWO. -/
def PwrClCfg.ilim : Fld := ⟨0, 6⟩

/-- PWR_CL_STAT (R540). -/
def pwrClStat (g : Nat) : Nat := 0x10008 + 32 * g
/-- PWR_CL_STAT.STATE, bits [2:0], RO. -/
def PwrClStat.state : Fld := ⟨0, 3⟩
/-- PWR_CL_STAT.CAUSE, bits [5:3], ROS. -/
def PwrClStat.cause : Fld := ⟨3, 3⟩
/-- PWR_CL_STAT.PHASE_OK, bits [13:6], ROS. -/
def PwrClStat.phaseOk : Fld := ⟨6, 8⟩
/-- PWR_CL_STAT.VSET, bits [19:14], RO. -/
def PwrClStat.vset : Fld := ⟨14, 6⟩
/-- PWR_CL_STAT.ILIM_EFF, bits [25:20], RO. -/
def PwrClStat.ilimEff : Fld := ⟨20, 6⟩
/-- PWR_CL_STAT.SLOW, bits [26:26], RO. -/
def PwrClStat.slow : Fld := ⟨26, 1⟩
/-- PWR_CL_STAT.IOUT, bits [41:32], RO. -/
def PwrClStat.iout : Fld := ⟨32, 10⟩

/-- PWR_CL_THERM (R540). -/
def pwrClTherm (g : Nat) : Nat := 0x10010 + 32 * g
/-- PWR_CL_THERM.TEMP, bits [7:0], RO. -/
def PwrClTherm.temp : Fld := ⟨0, 8⟩
/-- PWR_CL_THERM.L_THERM, bits [14:8], RO. -/
def PwrClTherm.lTherm : Fld := ⟨8, 7⟩
/-- PWR_CL_THERM.THROTTLE, bits [15:15], RO. -/
def PwrClTherm.throttle : Fld := ⟨15, 1⟩
/-- PWR_CL_THERM.OFFS, bits [17:16], ROS. -/
def PwrClTherm.offs : Fld := ⟨16, 2⟩
/-- PWR_CL_THERM.COOLING, bits [18:18], RO. -/
def PwrClTherm.cooling : Fld := ⟨18, 1⟩

/-- CLK_CL_MARGIN (R540). -/
def clkClMargin (g : Nat) : Nat := 0x10014 + 32 * g
/-- CLK_CL_MARGIN.MARGIN, bits [7:0], RO. -/
def ClkClMargin.margin : Fld := ⟨0, 8⟩
/-- CLK_CL_MARGIN.TRIM, bits [13:8], ROS. -/
def ClkClMargin.trim : Fld := ⟨8, 6⟩
/-- CLK_CL_MARGIN.ADJ, bits [17:14], RO. -/
def ClkClMargin.adj : Fld := ⟨14, 4⟩
/-- CLK_CL_MARGIN.CAUSED, bits [19:18], ROS. -/
def ClkClMargin.caused : Fld := ⟨18, 2⟩
/-- CLK_CL_MARGIN.WARNS, bits [31:20], ROS. -/
def ClkClMargin.warns : Fld := ⟨20, 12⟩

/-- CON_ROUTER_STAT (R540). -/
def conRouterStat (g : Nat) : Nat := 0x10018 + 32 * g
/-- CON_ROUTER_STAT.PARITY, bits [15:0], RO. -/
def ConRouterStat.parity : Fld := ⟨0, 16⟩
/-- CON_ROUTER_STAT.CRC, bits [31:16], RO. -/
def ConRouterStat.crc : Fld := ⟨16, 16⟩
/-- CON_ROUTER_STAT.RSVD, bits [47:32], RO. -/
def ConRouterStat.rsvd : Fld := ⟨32, 16⟩
/-- CON_ROUTER_STAT.THROTTLE, bits [63:48], RO. -/
def ConRouterStat.throttle : Fld := ⟨48, 16⟩

/-- PWR_FIELD_STAT (R541). -/
def pwrFieldStat (f : Nat) : Nat := 0x20000 + 4096 * f
/-- PWR_FIELD_STAT.IBC_A, bits [1:0], ROS. -/
def PwrFieldStat.ibcA : Fld := ⟨0, 2⟩
/-- PWR_FIELD_STAT.IBC_B, bits [3:2], ROS. -/
def PwrFieldStat.ibcB : Fld := ⟨2, 2⟩
/-- PWR_FIELD_STAT.IBC_C, bits [5:4], ROS. -/
def PwrFieldStat.ibcC : Fld := ⟨4, 2⟩
/-- PWR_FIELD_STAT.STATE, bits [7:6], ROS. -/
def PwrFieldStat.state : Fld := ⟨6, 2⟩
/-- PWR_FIELD_STAT.SENSE_FAULT, bits [8:8], ROS. -/
def PwrFieldStat.senseFault : Fld := ⟨8, 1⟩
/-- PWR_FIELD_STAT.LOSS_CAUSE, bits [11:9], ROS. -/
def PwrFieldStat.lossCause : Fld := ⟨9, 3⟩
/-- PWR_FIELD_STAT.IFIELD, bits [27:16], RO. -/
def PwrFieldStat.ifield : Fld := ⟨16, 12⟩
/-- PWR_FIELD_STAT.VRAIL, bits [43:32], RO. -/
def PwrFieldStat.vrail : Fld := ⟨32, 12⟩

/-- PWR_ADMIT_STAT (R541). -/
def pwrAdmitStat (f : Nat) : Nat := 0x20008 + 4096 * f
/-- PWR_ADMIT_STAT.WAITING, bits [4:0], RO. -/
def PwrAdmitStat.waiting : Fld := ⟨0, 5⟩
/-- PWR_ADMIT_STAT.HEAD, bits [9:5], RO. -/
def PwrAdmitStat.head : Fld := ⟨5, 5⟩
/-- PWR_ADMIT_STAT.ADMITTED, bits [47:32], RO. -/
def PwrAdmitStat.admitted : Fld := ⟨32, 16⟩
/-- PWR_ADMIT_STAT.FORCED, bits [63:48], RO. -/
def PwrAdmitStat.forced : Fld := ⟨48, 16⟩

/-- PWR_FLD_THERM (R541). -/
def pwrFldTherm (f : Nat) : Nat := 0x20010 + 4096 * f
/-- PWR_FLD_THERM.TEMP, bits [7:0], RO. -/
def PwrFldTherm.temp : Fld := ⟨0, 8⟩
/-- PWR_FLD_THERM.HOT, bits [8:8], RO. -/
def PwrFldTherm.hot : Fld := ⟨8, 1⟩

/-- TIM_SYNC_STAT (R541). -/
def timSyncStat (f : Nat) : Nat := 0x20014 + 4096 * f
/-- TIM_SYNC_STAT.ERROR, bits [7:0], RO. -/
def TimSyncStat.error : Fld := ⟨0, 8⟩
/-- TIM_SYNC_STAT.SLEWS, bits [23:8], ROS. -/
def TimSyncStat.slews : Fld := ⟨8, 16⟩
/-- TIM_SYNC_STAT.FAULTS, bits [31:24], ROS. -/
def TimSyncStat.faults : Fld := ⟨24, 8⟩

/-- FLD_DLD_STAT (R541). -/
def fldDldStat (f : Nat) : Nat := 0x20018 + 4096 * f
/-- FLD_DLD_STAT.CYCLES, bits [15:0], RO. -/
def FldDldStat.cycles : Fld := ⟨0, 16⟩
/-- FLD_DLD_STAT.ABANDONED, bits [31:16], RO. -/
def FldDldStat.abandoned : Fld := ⟨16, 16⟩
/-- FLD_DLD_STAT.SPILL_AM, bits [47:32], RO. -/
def FldDldStat.spillAm : Fld := ⟨32, 16⟩
/-- FLD_DLD_STAT.SPILL_HBM, bits [55:48], RO. -/
def FldDldStat.spillHbm : Fld := ⟨48, 8⟩
/-- FLD_DLD_STAT.UNRESOLVED, bits [63:56], RO. -/
def FldDldStat.unresolved : Fld := ⟨56, 8⟩

/-- FLD_DLD_LAST (R541). -/
def fldDldLast (f : Nat) : Nat := 0x20020 + 4096 * f
/-- FLD_DLD_LAST.TILE, bits [9:0], RO. -/
def FldDldLast.tile : Fld := ⟨0, 10⟩
/-- FLD_DLD_LAST.QUEUE, bits [17:10], RO. -/
def FldDldLast.queue : Fld := ⟨10, 8⟩
/-- FLD_DLD_LAST.COUNT, bits [26:18], RO. -/
def FldDldLast.count : Fld := ⟨18, 9⟩
/-- FLD_DLD_LAST.HBM, bits [27:27], RO. -/
def FldDldLast.hbm : Fld := ⟨27, 1⟩
/-- FLD_DLD_LAST.LENGTH, bits [35:28], RO. -/
def FldDldLast.length : Fld := ⟨28, 8⟩

/-- FLD_SITE_STAT (R541). -/
def fldSiteStat (f : Nat) : Nat := 0x20028 + 4096 * f
/-- FLD_SITE_STAT.LOGICAL, bits [6:0], RO. -/
def FldSiteStat.logical : Fld := ⟨0, 7⟩
/-- FLD_SITE_STAT.STANDBY, bits [13:7], RO. -/
def FldSiteStat.standby : Fld := ⟨7, 7⟩
/-- FLD_SITE_STAT.DORMANT, bits [20:14], RO. -/
def FldSiteStat.dormant : Fld := ⟨14, 7⟩
/-- FLD_SITE_STAT.FAILED, bits [27:21], RO. -/
def FldSiteStat.failed : Fld := ⟨21, 7⟩
/-- FLD_SITE_STAT.COOLING, bits [34:28], RO. -/
def FldSiteStat.cooling : Fld := ⟨28, 7⟩
/-- FLD_SITE_STAT.FUSED, bits [41:35], RO. -/
def FldSiteStat.fused : Fld := ⟨35, 7⟩

/-- LNK_CNT_CTRL (R541). -/
def lnkCntCtrl (f : Nat) : Nat := 0x20030 + 4096 * f
/-- LNK_CNT_CTRL.CNT_CLEAR, bits [0:0], RWO. -/
def LnkCntCtrl.cntClear : Fld := ⟨0, 1⟩

/-- FLD_FLAGS (R541). -/
def fldFlags (f n : Nat) : Nat := 0x20040 + 0x1000 * f + 4 * n
/-- FLD_FLAGS.FLAGS, bits [31:0], RO. -/
def FldFlags.flags : Fld := ⟨0, 32⟩

/-- LNK_CTRL (R543). -/
def lnkCtrl (n : Nat) : Nat := 0x30000 + 64 * n
/-- LNK_CTRL.ENABLE, bits [0:0], RWO. -/
def LnkCtrl.enable : Fld := ⟨0, 1⟩
/-- LNK_CTRL.RATE, bits [1:1], RWO. -/
def LnkCtrl.rate : Fld := ⟨1, 1⟩
/-- LNK_CTRL.MEDIUM, bits [2:2], RWO. -/
def LnkCtrl.medium : Fld := ⟨2, 1⟩
/-- LNK_CTRL.TESTPAT, bits [4:3], RWO. -/
def LnkCtrl.testpat : Fld := ⟨3, 2⟩
/-- LNK_CTRL.RETRY_MS, bits [12:5], RWO. -/
def LnkCtrl.retryMs : Fld := ⟨5, 8⟩
/-- LNK_CTRL.UCW_LIMIT, bits [20:13], RWO. -/
def LnkCtrl.ucwLimit : Fld := ⟨13, 8⟩

/-- LNK_STAT (R543). -/
def lnkStat (n : Nat) : Nat := 0x30008 + 64 * n
/-- LNK_STAT.STATE, bits [2:0], ROS. -/
def LnkStat.state : Fld := ⟨0, 3⟩
/-- LNK_STAT.PEER_FENCE, bits [3:3], ROS. -/
def LnkStat.peerFence : Fld := ⟨3, 1⟩
/-- LNK_STAT.LANE_REV, bits [4:4], ROS. -/
def LnkStat.laneRev : Fld := ⟨4, 1⟩
/-- LNK_STAT.POLARITY, bits [8:5], ROS. -/
def LnkStat.polarity : Fld := ⟨5, 4⟩
/-- LNK_STAT.DOWN_CAUSE, bits [12:9], ROS. -/
def LnkStat.downCause : Fld := ⟨9, 4⟩
/-- LNK_STAT.NBR_FDN, bits [31:16], ROS. -/
def LnkStat.nbrFdn : Fld := ⟨16, 16⟩
/-- LNK_STAT.NBR_LINK, bits [38:32], ROS. -/
def LnkStat.nbrLink : Fld := ⟨32, 7⟩
/-- LNK_STAT.EPOCH, bits [47:40], ROS. -/
def LnkStat.epoch : Fld := ⟨40, 8⟩
/-- LNK_STAT.DOWNS, bits [55:48], ROS. -/
def LnkStat.downs : Fld := ⟨48, 8⟩

/-- LNK_ERR (R543). -/
def lnkErr (n : Nat) : Nat := 0x30010 + 64 * n
/-- LNK_ERR.FEC_CORR, bits [15:0], ROS. -/
def LnkErr.fecCorr : Fld := ⟨0, 16⟩
/-- LNK_ERR.FEC_UCW, bits [31:16], ROS. -/
def LnkErr.fecUcw : Fld := ⟨16, 16⟩
/-- LNK_ERR.CRC, bits [43:32], ROS. -/
def LnkErr.crc : Fld := ⟨32, 12⟩
/-- LNK_ERR.REPLAY, bits [51:44], ROS. -/
def LnkErr.replay : Fld := ⟨44, 8⟩
/-- LNK_ERR.NAK, bits [59:52], ROS. -/
def LnkErr.nak : Fld := ⟨52, 8⟩

/-- LNK_DROP (R543). -/
def lnkDrop (n : Nat) : Nat := 0x30018 + 64 * n
/-- LNK_DROP.FENCE_DROP, bits [15:0], ROS. -/
def LnkDrop.fenceDrop : Fld := ⟨0, 16⟩
/-- LNK_DROP.DOWN_REFUSE, bits [31:16], ROS. -/
def LnkDrop.downRefuse : Fld := ⟨16, 16⟩
/-- LNK_DROP.LOOP, bits [47:32], ROS. -/
def LnkDrop.loop : Fld := ⟨32, 16⟩

/-- LNK_NARROW_STAT (R543). -/
def lnkNarrowStat (n : Nat) : Nat := 0x30020 + 64 * n
/-- LNK_NARROW_STAT.SAT, bits [31:0], ROS. -/
def LnkNarrowStat.sat : Fld := ⟨0, 32⟩
/-- LNK_NARROW_STAT.FLUSH, bits [63:32], ROS. -/
def LnkNarrowStat.flush : Fld := ⟨32, 32⟩

/-- QUE_SQ_CFG (R544). -/
def queSqCfg (h q : Nat) : Nat := 0x800000 + 0x40000 * h + 8 * q
/-- QUE_SQ_CFG.ENABLE, bits [0:0], RW. -/
def QueSqCfg.enable : Fld := ⟨0, 1⟩
/-- QUE_SQ_CFG.SIZE_LOG2, bits [4:1], RW. -/
def QueSqCfg.sizeLog2 : Fld := ⟨1, 4⟩
/-- QUE_SQ_CFG.DEF_CQ, bits [10:5], RW. -/
def QueSqCfg.defCq : Fld := ⟨5, 6⟩
/-- QUE_SQ_CFG.BASE, bits [39:12], RW. -/
def QueSqCfg.base : Fld := ⟨12, 28⟩

/-- QUE_CQ_CFG (R544). -/
def queCqCfg (h q : Nat) : Nat := 0x800200 + 0x40000 * h + 8 * q
/-- QUE_CQ_CFG.ENABLE, bits [0:0], RW. -/
def QueCqCfg.enable : Fld := ⟨0, 1⟩
/-- QUE_CQ_CFG.IRQ_EN, bits [1:1], RW. -/
def QueCqCfg.irqEn : Fld := ⟨1, 1⟩
/-- QUE_CQ_CFG.SIZE_LOG2, bits [5:2], RW. -/
def QueCqCfg.sizeLog2 : Fld := ⟨2, 4⟩
/-- QUE_CQ_CFG.VEC, bits [11:6], RW. -/
def QueCqCfg.vec : Fld := ⟨6, 6⟩
/-- QUE_CQ_CFG.AGG_US, bits [19:12], RW. -/
def QueCqCfg.aggUs : Fld := ⟨12, 8⟩
/-- QUE_CQ_CFG.BASE, bits [47:20], RW. -/
def QueCqCfg.base : Fld := ⟨20, 28⟩

/-- QUE_SQ_STAT (R544). -/
def queSqStat (h q : Nat) : Nat := 0x800400 + 0x40000 * h + 4 * q
/-- QUE_SQ_STAT.HEAD, bits [11:0], RO. -/
def QueSqStat.head : Fld := ⟨0, 12⟩
/-- QUE_SQ_STAT.TAIL, bits [23:12], RO. -/
def QueSqStat.tail : Fld := ⟨12, 12⟩
/-- QUE_SQ_STAT.DB_ERR, bits [24:24], RW1C. -/
def QueSqStat.dbErr : Fld := ⟨24, 1⟩
/-- QUE_SQ_STAT.FETCH_UE, bits [25:25], RW1C. -/
def QueSqStat.fetchUe : Fld := ⟨25, 1⟩

/-- QUE_CQ_STAT (R544). -/
def queCqStat (h q : Nat) : Nat := 0x800500 + 0x40000 * h + 4 * q
/-- QUE_CQ_STAT.TAIL, bits [11:0], RO. -/
def QueCqStat.tail : Fld := ⟨0, 12⟩
/-- QUE_CQ_STAT.PHASE, bits [12:12], RO. -/
def QueCqStat.phase : Fld := ⟨12, 1⟩
/-- QUE_CQ_STAT.HELD, bits [13:13], RO. -/
def QueCqStat.held : Fld := ⟨13, 1⟩
/-- QUE_CQ_STAT.DB_ERR, bits [14:14], RW1C. -/
def QueCqStat.dbErr : Fld := ⟨14, 1⟩
/-- QUE_CQ_STAT.HELD_CNT, bits [31:16], RO. -/
def QueCqStat.heldCnt : Fld := ⟨16, 16⟩

/-- QUE_EVENT (R544). -/
def queEvent (h : Nat) : Nat := 0x800600 + 0x40000 * h
/-- QUE_EVENT.OWNER_CHANGE, bits [0:0], RW1C. -/
def QueEvent.ownerChange : Fld := ⟨0, 1⟩
/-- QUE_EVENT.LEASE_LOW, bits [1:1], RW1C. -/
def QueEvent.leaseLow : Fld := ⟨1, 1⟩
/-- QUE_EVENT.STATE_CHANGE, bits [2:2], RW1C. -/
def QueEvent.stateChange : Fld := ⟨2, 1⟩
/-- QUE_EVENT.LOG_ENTRY, bits [3:3], RW1C. -/
def QueEvent.logEntry : Fld := ⟨3, 1⟩
/-- QUE_EVENT.DB_ERR, bits [4:4], RW1C. -/
def QueEvent.dbErr : Fld := ⟨4, 1⟩
/-- QUE_EVENT.CQ_HELD, bits [5:5], RW1C. -/
def QueEvent.cqHeld : Fld := ⟨5, 1⟩
/-- QUE_EVENT.EN, bits [13:8], RW. -/
def QueEvent.en : Fld := ⟨8, 6⟩

/-- QUE_HEAD_STAT (R544). -/
def queHeadStat (h : Nat) : Nat := 0x800608 + 0x40000 * h
/-- QUE_HEAD_STAT.LINK_UP, bits [0:0], RO. -/
def QueHeadStat.linkUp : Fld := ⟨0, 1⟩
/-- QUE_HEAD_STAT.WIDTH, bits [4:1], RO. -/
def QueHeadStat.width : Fld := ⟨1, 4⟩
/-- QUE_HEAD_STAT.RATE, bits [5:5], RO. -/
def QueHeadStat.rate : Fld := ⟨5, 1⟩
/-- QUE_HEAD_STAT.DEC_COMMIT, bits [9:6], RO. -/
def QueHeadStat.decCommit : Fld := ⟨6, 4⟩

/-- OWN_CMD_HEAD (R544). -/
def ownCmdHead (h : Nat) : Nat := 0x800610 + 0x40000 * h

/-- QUE_SQ_DB (R544). -/
def queSqDb (h q : Nat) : Nat := 0x801000 + 0x40000 * h + 4 * q
/-- QUE_SQ_DB.PTR, bits [11:0], WO. -/
def QueSqDb.ptr : Fld := ⟨0, 12⟩

/-- QUE_CQ_DB (R544). -/
def queCqDb (h q : Nat) : Nat := 0x801100 + 0x40000 * h + 4 * q

/-- MSIX_ADDR (R544). -/
def msixAddr (h q : Nat) : Nat := 0x802000 + 0x40000 * h + 16 * q

/-- MSIX_DATA (R544). -/
def msixData (h q : Nat) : Nat := 0x802008 + 0x40000 * h + 16 * q
/-- MSIX_DATA.DATA, bits [31:0], RW. -/
def MsixData.data : Fld := ⟨0, 32⟩
/-- MSIX_DATA.MASK, bits [32:32], RW. -/
def MsixData.mask : Fld := ⟨32, 1⟩

/-- MSIX_PBA (R544). -/
def msixPba (h q : Nat) : Nat := 0x803000 + 0x40000 * h + 8 * q

/-- TIL_CTRL (R545). -/
def tilCtrl (t : Nat) : Nat := 0x1000000 + 0x8000 * t
/-- TIL_CTRL.RUN_EN, bits [0:0], RW. -/
def TilCtrl.runEn : Fld := ⟨0, 1⟩
/-- TIL_CTRL.HALT_REQ, bits [1:1], RW. -/
def TilCtrl.haltReq : Fld := ⟨1, 1⟩
/-- TIL_CTRL.TEST_WIN, bits [2:2], RW. -/
def TilCtrl.testWin : Fld := ⟨2, 1⟩
/-- TIL_CTRL.CNT_FREEZE, bits [3:3], RW. -/
def TilCtrl.cntFreeze : Fld := ⟨3, 1⟩
/-- TIL_CTRL.CNT_CLEAR, bits [4:4], WO. -/
def TilCtrl.cntClear : Fld := ⟨4, 1⟩

/-- TIL_STAT (R545). -/
def tilStat (t : Nat) : Nat := 0x1000004 + 0x8000 * t
/-- TIL_STAT.STATE, bits [2:0], RO. -/
def TilStat.state : Fld := ⟨0, 3⟩
/-- TIL_STAT.FRONT, bits [3:3], RO. -/
def TilStat.front : Fld := ⟨3, 1⟩
/-- TIL_STAT.PASSQ, bits [6:4], RO. -/
def TilStat.passq : Fld := ⟨4, 3⟩
/-- TIL_STAT.KERNQ, bits [10:7], RO. -/
def TilStat.kernq : Fld := ⟨7, 4⟩
/-- TIL_STAT.SP_BUSY, bits [11:11], RO. -/
def TilStat.spBusy : Fld := ⟨11, 1⟩
/-- TIL_STAT.LIMITED, bits [12:12], RO. -/
def TilStat.limited : Fld := ⟨12, 1⟩
/-- TIL_STAT.LIMIT, bits [19:13], RO. -/
def TilStat.limit : Fld := ⟨13, 7⟩

/-- TIL_FAULT (R545). -/
def tilFault (t : Nat) : Nat := 0x1000008 + 0x8000 * t
/-- TIL_FAULT.CODE, bits [7:0], RO. -/
def TilFault.code : Fld := ⟨0, 8⟩
/-- TIL_FAULT.INFO, bits [25:8], RO. -/
def TilFault.info : Fld := ⟨8, 18⟩
/-- TIL_FAULT.OVERFLOW, bits [30:30], RO. -/
def TilFault.overflow : Fld := ⟨30, 1⟩
/-- TIL_FAULT.VALID, bits [31:31], RW1C. -/
def TilFault.valid : Fld := ⟨31, 1⟩

/-- TIL_ARITH_STAT (R545). -/
def tilArithStat (t : Nat) : Nat := 0x100000c + 0x8000 * t
/-- TIL_ARITH_STAT.NAR_SEEN, bits [0:0], RW1C. -/
def TilArithStat.narSeen : Fld := ⟨0, 1⟩
/-- TIL_ARITH_STAT.OUT_SAT, bits [1:1], RW1C. -/
def TilArithStat.outSat : Fld := ⟨1, 1⟩
/-- TIL_ARITH_STAT.DEC_FAULT, bits [3:3], RW1C. -/
def TilArithStat.decFault : Fld := ⟨3, 1⟩
/-- TIL_ARITH_STAT.NAR_CNT, bits [23:16], RO. -/
def TilArithStat.narCnt : Fld := ⟨16, 8⟩
/-- TIL_ARITH_STAT.SAT_CNT, bits [31:24], RO. -/
def TilArithStat.satCnt : Fld := ⟨24, 8⟩

/-- TIL_SITE (R545). -/
def tilSite (t : Nat) : Nat := 0x1000010 + 0x8000 * t
/-- TIL_SITE.F, bits [3:0], RO. -/
def TilSite.f : Fld := ⟨0, 4⟩
/-- TIL_SITE.X, bits [6:4], RO. -/
def TilSite.x : Fld := ⟨4, 3⟩
/-- TIL_SITE.Y, bits [10:7], RO. -/
def TilSite.y : Fld := ⟨7, 4⟩
/-- TIL_SITE.CLUSTER, bits [18:11], RO. -/
def TilSite.cluster : Fld := ⟨11, 8⟩
/-- TIL_SITE.LOGICAL, bits [28:19], RO. -/
def TilSite.logical : Fld := ⟨19, 10⟩

/-- TIL_MC_VER (R545). -/
def tilMcVer (t : Nat) : Nat := 0x1000018 + 0x8000 * t

/-- TIL_DF_FAULT (R545). -/
def tilDfFault (t : Nat) : Nat := 0x1000020 + 0x8000 * t
/-- TIL_DF_FAULT.CODE, bits [3:0], RO. -/
def TilDfFault.code : Fld := ⟨0, 4⟩
/-- TIL_DF_FAULT.UNIT, bits [11:4], RO. -/
def TilDfFault.unit : Fld := ⟨4, 8⟩
/-- TIL_DF_FAULT.QUEUE, bits [19:12], RO. -/
def TilDfFault.queue : Fld := ⟨12, 8⟩
/-- TIL_DF_FAULT.TAG, bits [31:20], RO. -/
def TilDfFault.tag : Fld := ⟨20, 12⟩
/-- TIL_DF_FAULT.OVERFLOW, bits [62:62], RO. -/
def TilDfFault.overflow : Fld := ⟨62, 1⟩
/-- TIL_DF_FAULT.VALID, bits [63:63], RW1C. -/
def TilDfFault.valid : Fld := ⟨63, 1⟩

/-- TIL_INT_STAT (R545). -/
def tilIntStat (t : Nat) : Nat := 0x1000028 + 0x8000 * t
/-- TIL_INT_STAT.SINCE_KAT, bits [16:0], ROS. -/
def TilIntStat.sinceKat : Fld := ⟨0, 17⟩
/-- TIL_INT_STAT.PHASE, bits [20:17], ROS. -/
def TilIntStat.phase : Fld := ⟨17, 4⟩
/-- TIL_INT_STAT.UNVERIFIED, bits [21:21], ROS. -/
def TilIntStat.unverified : Fld := ⟨21, 1⟩
/-- TIL_INT_STAT.SUSPECT, bits [22:22], ROS. -/
def TilIntStat.suspect : Fld := ⟨22, 1⟩
/-- TIL_INT_STAT.COVERED, bits [63:32], ROS. -/
def TilIntStat.covered : Fld := ⟨32, 32⟩

/-- LAT_STAT (R545). -/
def latStat (t : Nat) : Nat := 0x1000030 + 0x8000 * t
/-- LAT_STAT.PARITY, bits [15:0], RO. -/
def LatStat.parity : Fld := ⟨0, 16⟩
/-- LAT_STAT.NARROW_SAT, bits [31:16], RO. -/
def LatStat.narrowSat : Fld := ⟨16, 16⟩
/-- LAT_STAT.NARROW_FLUSH, bits [47:32], RO. -/
def LatStat.narrowFlush : Fld := ⟨32, 16⟩
/-- LAT_STAT.OFF_DROP, bits [55:48], RO. -/
def LatStat.offDrop : Fld := ⟨48, 8⟩
/-- LAT_STAT.TUNNELS, bits [63:56], RO. -/
def LatStat.tunnels : Fld := ⟨56, 8⟩

/-- LAT_PACE_CNT (R545). -/
def latPaceCnt (t : Nat) : Nat := 0x1000038 + 0x8000 * t

/-- TIL_CNT (R545). -/
def tilCnt (t i : Nat) : Nat := 0x1000040 + 0x8000 * t + 8 * i
/-- Index of TIL_PASS_CNT in TIL_CNT. -/
def TilCnt.tilPassCnt : Nat := 0
/-- Index of TIL_BUSY_CNT in TIL_CNT. -/
def TilCnt.tilBusyCnt : Nat := 1
/-- Index of TIL_FRONTWAIT_CNT in TIL_CNT. -/
def TilCnt.tilFrontwaitCnt : Nat := 2
/-- Index of TIL_LIMIT_CNT in TIL_CNT. -/
def TilCnt.tilLimitCnt : Nat := 3
/-- Index of TIL_KERNEL_CNT in TIL_CNT. -/
def TilCnt.tilKernelCnt : Nat := 4
/-- Index of TIL_SPINSTR_CNT in TIL_CNT. -/
def TilCnt.tilSpinstrCnt : Nat := 5

/-- TIL_DMA_STAT (R545). -/
def tilDmaStat (t i : Nat) : Nat := 0x1000080 + 0x8000 * t + 8 * i
/-- TIL_DMA_STAT.BUSY, bits [0:0], RO. -/
def TilDmaStat.busy : Fld := ⟨0, 1⟩
/-- TIL_DMA_STAT.SUSPENDED, bits [1:1], RO. -/
def TilDmaStat.suspended : Fld := ⟨1, 1⟩
/-- TIL_DMA_STAT.QUEUED, bits [5:2], RO. -/
def TilDmaStat.queued : Fld := ⟨2, 4⟩
/-- TIL_DMA_STAT.OUTSTANDING, bits [16:6], RO. -/
def TilDmaStat.outstanding : Fld := ⟨6, 11⟩
/-- TIL_DMA_STAT.LAST_RESULT, bits [24:17], RO. -/
def TilDmaStat.lastResult : Fld := ⟨17, 8⟩
/-- TIL_DMA_STAT.RECLAIMED, bits [39:25], RO. -/
def TilDmaStat.reclaimed : Fld := ⟨25, 15⟩
/-- TIL_DMA_STAT.LATE, bits [54:40], RO. -/
def TilDmaStat.late : Fld := ⟨40, 15⟩
/-- TIL_DMA_STAT.ABANDONED, bits [62:55], ROS. -/
def TilDmaStat.abandoned : Fld := ⟨55, 8⟩

/-- TIL_WIN_STAT (R545). -/
def tilWinStat (t i : Nat) : Nat := 0x10000a0 + 0x8000 * t + 8 * i

/-- TIL_WIN (R545). -/
def tilWin (t i : Nat) : Nat := 0x1000100 + 0x8000 * t + 8 * i

/-- TIL_TASK (R545). -/
def tilTask (t i : Nat) : Nat := 0x1000400 + 0x8000 * t + 8 * i

/-- LAT_CH (R545). -/
def latCh (t i : Nat) : Nat := 0x1001000 + 0x8000 * t + 8 * i

/-- STALL_UNIT (R545). -/
def stallUnit (t i : Nat) : Nat := 0x1002000 + 0x8000 * t + 8 * i

/-- STALL_QUEUE (R545). -/
def stallQueue (t i : Nat) : Nat := 0x1006000 + 0x8000 * t + 8 * i

/-- Registers of the device pages (R539). -/
def deviceRegs0 : List RegDesc := [
  ⟨0x0, 0x8, 1, 8, 1, 32, .sup, 0, 0, 0, 0x7ffff, 0, 0x20617⟩,
  ⟨0x8, 0x8, 1, 8, 1, 64, .sup, 0, 0, 0, 0x3ffffffff01f, 0, 0x0⟩,
  ⟨0x10, 0x8, 1, 8, 1, 64, .sup, 0, 0, 0, 0x7ffffdfffffffff, 0, 0x0⟩,
  ⟨0x40, 0x8, 8, 8, 1, 64, .sup, 0, 0, 0, 0, 0, 0x0⟩,
  ⟨0x80, 0x8, 1, 8, 1, 64, .sup, 0, 0, 0, 0, 0, 0x0⟩,
  ⟨0x88, 0x8, 1, 8, 1, 32, .sup, 0, 0, 0, 0x3, 0, 0x0⟩,
  ⟨0x90, 0x8, 1, 8, 1, 64, .sup, 0, 0, 0, 0, 0xffffffff0000, 0x0⟩,
  ⟨0x98, 0x8, 1, 8, 1, 64, .sup, 0, 0, 0, 0, 0, 0x0⟩,
  ⟨0xa0, 0x8, 1, 8, 1, 64, .sup, 0, 0, 0, 0, 0xffff0000000000, 0x0⟩,
  ⟨0xa8, 0x8, 1, 8, 1, 32, .sup, 0, 0, 0, 0x3f, 0, 0x0⟩,
  ⟨0xb0, 0x8, 1, 8, 1, 64, .sup, 0, 0, 0, 0, 0, 0x0⟩,
  ⟨0xb8, 0x8, 1, 8, 1, 64, .sup, 0, 0, 0, 0, 0, 0x0⟩,
  ⟨0xc0, 0x8, 1, 8, 1, 64, .sup, 0, 0, 0, 0, 0, 0x0⟩,
  ⟨0x1000, 0x8, 1, 8, 1, 64, .sup, 0, 0, 0, 0, 0, 0x1b⟩,
  ⟨0x1008, 0x8, 1, 8, 1, 64, .sup, 0, 0, 0, 0x3ffffff, 0, 0xfa064⟩,
  ⟨0x1010, 0x4, 2, 8, 1, 32, .sup, 0, 0, 0, 0xfffff, 0, 0x0⟩,
  ⟨0x1020, 0x8, 1, 8, 1, 32, .sup, 0, 0, 0x1f, 0, 0, 0x0⟩,
  ⟨0x2000, 0x8, 1, 8, 1, 64, .sup, 0, 0, 0, 0, 0, 0x0⟩,
  ⟨0x2008, 0x8, 1, 8, 1, 32, .sup, 0, 0, 0, 0, 0x3f, 0x5⟩,
  ⟨0x200c, 0x8, 1, 8, 1, 32, .sup, 0, 0, 0, 0x3, 0, 0x0⟩,
  ⟨0x2010, 0x8, 1, 8, 1, 32, .sup, 0, 0, 0, 0xffff, 0, 0x6ee0⟩,
  ⟨0x2018, 0x8, 1, 8, 1, 64, .sup, 0, 0, 0, 0, 0, 0x100000000000001⟩,
  ⟨0x2020, 0x8, 1, 8, 1, 64, .sup, 0, 0, 0, 0, 0, 0x0⟩,
  ⟨0x2028, 0x8, 1, 8, 1, 64, .sup, 0, 0, 0, 0, 0, 0x0⟩,
  ⟨0x2030, 0x8, 1, 8, 1, 64, .sup, 0, 0, 0, 0, 0, 0x0⟩,
  ⟨0x3000, 0x8, 1, 8, 1, 32, .sup, 0, 0, 0, 0xffff, 0, 0x9608⟩,
  ⟨0x3004, 0x8, 1, 8, 1, 32, .sup, 0, 0, 0, 0xffffff, 0, 0x50230f⟩,
  ⟨0x3008, 0x8, 1, 8, 1, 64, .sup, 0, 0, 0, 0, 0xffff0000, 0x8⟩,
  ⟨0x3010, 0x8, 1, 8, 1, 64, .sup, 0, 0, 0, 0, 0, 0x0⟩,
  ⟨0x3018, 0x8, 1, 8, 1, 64, .sup, 0, 0, 0, 0xffffffffffffffff, 0, 0x0⟩]

/-- Registers of the device pages (R539). -/
def deviceRegs1 : List RegDesc := [
  ⟨0x3020, 0x8, 1, 8, 1, 32, .sup, 0, 0, 0, 0, 0, 0x0⟩,
  ⟨0x3100, 0x4, 17, 8, 1, 32, .sup, 0, 0, 0, 0, 0xff00, 0x0⟩,
  ⟨0x4000, 0x8, 1, 8, 1, 32, .sup, 0, 0, 0, 0x3ffffff, 0, 0xf00a51⟩,
  ⟨0x4008, 0x8, 1, 8, 1, 64, .sup, 0, 0, 0, 0, 0, 0x0⟩,
  ⟨0x4010, 0x4, 8, 8, 1, 32, .sup, 0, 0, 0, 0, 0, 0x0⟩,
  ⟨0x4100, 0x8, 13, 8, 1, 64, .sup, 0, 0, 0, 0, 0xffffffffffffffff, 0x0⟩,
  ⟨0x5000, 0x8, 1, 8, 1, 32, .link, 0, 0, 0, 0, 0x1ffff, 0x0⟩,
  ⟨0x5100, 0x8, 16, 8, 1, 64, .link, 0, 0, 0, 0xffffffffff1f, 0, 0x0⟩,
  ⟨0x6000, 0x8, 1, 8, 1, 64, .sup, 0, 0, 0, 0xff7fffffff, 0, 0x140a181808⟩,
  ⟨0x6008, 0x8, 1, 8, 1, 32, .sup, 0, 0, 0, 0, 0xfffc07f, 0x0⟩,
  ⟨0x6100, 0x4, 64, 8, 1, 32, .sup, 0, 0x1000000, 0, 0, 0, 0x0⟩,
  ⟨0x7000, 0x8, 1, 8, 1, 32, .sup, 0, 0, 0, 0xfffff, 0, 0x44018⟩,
  ⟨0x7004, 0x8, 1, 8, 1, 32, .sup, 0, 0, 0, 0xfff, 0, 0x0⟩,
  ⟨0x7008, 0x8, 1, 8, 1, 64, .sup, 0, 0, 0, 0, 0x3fffffff3fffffff, 0x0⟩,
  ⟨0x7010, 0x8, 1, 8, 1, 64, .sup, 0, 0, 0, 0, 0xffffffff0fffffff, 0x0⟩,
  ⟨0x7100, 0x8, 24, 8, 1, 64, .sup, 0, 0, 0, 0, 0xffffffffffff0000, 0x0⟩,
  ⟨0x8000, 0x8, 1, 8, 1, 32, .sup, 0, 0, 0, 0xff, 0, 0x3c⟩,
  ⟨0x8004, 0x8, 1, 8, 1, 32, .sup, 0, 0, 0, 0x7, 0, 0x0⟩,
  ⟨0x8008, 0x8, 1, 8, 1, 64, .sup, 0, 0, 0, 0, 0, 0x3000⟩,
  ⟨0x8010, 0x8, 2, 8, 1, 64, .sup, 0, 0, 0, 0, 0, 0x0⟩,
  ⟨0x8020, 0x8, 1, 8, 1, 64, .sup, 0, 0, 0, 0x3ffffffff007, 0, 0x0⟩,
  ⟨0x8028, 0x8, 1, 8, 1, 64, .sup, 0, 0, 0, 0, 0, 0x0⟩,
  ⟨0x8030, 0x8, 1, 8, 1, 64, .sup, 0, 0, 0, 0, 0, 0x0⟩,
  ⟨0x9000, 0x8, 1, 8, 1, 64, .sup, 0, 0, 0, 0, 0xffff0000003f, 0x0⟩,
  ⟨0x9008, 0x8, 1, 8, 1, 64, .sup, 0, 0, 0, 0, 0, 0x0⟩,
  ⟨0x9010, 0x8, 1, 8, 1, 32, .sup, 0, 0, 0, 0x7, 0, 0x2⟩,
  ⟨0x9018, 0x8, 1, 8, 1, 64, .sup, 0, 0, 0, 0, 0xffff000000000000, 0x0⟩,
  ⟨0x9100, 0x80, 2, 8, 9, 64, .sup, 0, 0, 0, 0, 0xffffffffffffffff, 0x0⟩,
  ⟨0x9200, 0x80, 2, 8, 9, 64, .sup, 0, 0, 0, 0, 0xffffffffffffffff, 0x0⟩,
  ⟨0x9300, 0x8, 17, 8, 1, 64, .sup, 0, 0, 0, 0, 0xffffffffffffffff, 0x0⟩]

/-- Registers of the device pages (R539). -/
def deviceRegs2 : List RegDesc := [
  ⟨0x9400, 0x8, 17, 8, 1, 64, .sup, 0, 0, 0, 0, 0xffffffffffffffff, 0x0⟩,
  ⟨0xa000, 0x8, 1, 8, 1, 64, .sup, 0, 0, 0, 0x1, 0, 0x4b0⟩,
  ⟨0xa100, 0x8, 352, 8, 1, 64, .sup, 0, 0, 0, 0, 0, 0x0⟩,
  ⟨0xb000, 0x4, 768, 8, 1, 32, .sup, 0, 0, 0, 0, 0xffffff1f, 0x0⟩,
  ⟨0xf000, 0x8, 1, 8, 1, 64, .sup, 0, 0, 0, 0, 0, 0x0⟩]

/-- Registers of the device pages (R539). -/
def deviceRegs : List RegDesc := deviceRegs0 ++ deviceRegs1 ++ deviceRegs2

/-- Registers of the cluster array, the field pages and the link array (R540, R541, R543). -/
def arrayRegs : List RegDesc := [
  ⟨0x10000, 0x20, 240, 8, 1, 32, .sup, 0, 0, 0, 0x3f, 0, 0x3c⟩,
  ⟨0x10008, 0x20, 240, 8, 1, 64, .sup, 0, 0, 0, 0, 0x3ff8, 0x3c93fc0⟩,
  ⟨0x10010, 0x20, 240, 8, 1, 32, .clusterFab, 0, 0, 0, 0, 0x30000, 0x4000⟩,
  ⟨0x10014, 0x20, 240, 8, 1, 32, .clusterFab, 0, 0, 0, 0, 0xfffc3f00, 0x24ff⟩,
  ⟨0x10018, 0x20, 240, 8, 1, 64, .clusterFab, 0, 0, 0, 0, 0, 0x0⟩,
  ⟨0x20000, 0x1000, 12, 8, 1, 64, .sup, 0, 0, 0, 0, 0xfff, 0x15⟩,
  ⟨0x20008, 0x1000, 12, 8, 1, 64, .sup, 0, 0, 0, 0, 0, 0x3e0⟩,
  ⟨0x20010, 0x1000, 12, 8, 1, 32, .fieldFab, 0, 0, 0, 0, 0, 0x0⟩,
  ⟨0x20014, 0x1000, 12, 8, 1, 32, .fieldFab, 0, 0, 0, 0, 0xffffff00, 0x0⟩,
  ⟨0x20018, 0x1000, 12, 8, 1, 64, .fieldFab, 0, 0, 0, 0, 0, 0x0⟩,
  ⟨0x20020, 0x1000, 12, 8, 1, 64, .fieldFab, 0, 0, 0, 0, 0, 0x0⟩,
  ⟨0x20028, 0x1000, 12, 8, 1, 64, .sup, 0, 0, 0, 0, 0, 0x0⟩,
  ⟨0x20030, 0x1000, 12, 8, 1, 32, .fieldFab, 0, 0, 0, 0x1, 0, 0x0⟩,
  ⟨0x20040, 0x1000, 12, 4, 8, 32, .fieldFab, 0, 0, 0, 0, 0, 0x0⟩,
  ⟨0x30000, 0x40, 96, 8, 1, 32, .link, 0, 0, 0, 0x1fffff, 0, 0x20c80⟩,
  ⟨0x30008, 0x40, 96, 8, 1, 64, .link, 0, 0, 0, 0, 0xffff7fffff1fff, 0x0⟩,
  ⟨0x30010, 0x40, 96, 8, 1, 64, .link, 0, 0, 0, 0, 0xfffffffffffffff, 0x0⟩,
  ⟨0x30018, 0x40, 96, 8, 1, 64, .link, 0, 0, 0, 0, 0xffffffffffff, 0x0⟩,
  ⟨0x30020, 0x40, 96, 8, 1, 64, .link, 0, 0, 0, 0, 0xffffffffffffffff, 0x0⟩]

/-- Registers of the head pages (R544). -/
def headRegs : List RegDesc := [
  ⟨0x800000, 0x40000, 2, 8, 64, 64, .head, 0xfffffff7ff, 0, 0, 0, 0, 0x8⟩,
  ⟨0x800200, 0x40000, 2, 8, 64, 64, .head, 0xffffffffffff, 0, 0, 0, 0, 0x10⟩,
  ⟨0x800400, 0x40000, 2, 4, 64, 32, .head, 0, 0x3000000, 0, 0, 0, 0x0⟩,
  ⟨0x800500, 0x40000, 2, 4, 64, 32, .head, 0, 0x4000, 0, 0, 0, 0x1000⟩,
  ⟨0x800600, 0x40000, 2, 8, 1, 32, .head, 0x3f00, 0x3f, 0, 0, 0, 0x0⟩,
  ⟨0x800608, 0x40000, 2, 8, 1, 32, .head, 0, 0, 0, 0, 0, 0x0⟩,
  ⟨0x800610, 0x40000, 2, 8, 1, 32, .head, 0, 0, 0x1f, 0, 0, 0x0⟩,
  ⟨0x801000, 0x40000, 2, 4, 64, 32, .head, 0, 0, 0xfff, 0, 0, 0x0⟩,
  ⟨0x801100, 0x40000, 2, 4, 64, 32, .head, 0, 0, 0xfff, 0, 0, 0x0⟩,
  ⟨0x802000, 0x40000, 2, 16, 65, 64, .head, 0xffffffffffffffff, 0, 0, 0, 0, 0x0⟩,
  ⟨0x802008, 0x40000, 2, 16, 65, 64, .head, 0x1ffffffff, 0, 0, 0, 0, 0x100000000⟩,
  ⟨0x803000, 0x40000, 2, 8, 2, 64, .head, 0, 0, 0, 0, 0, 0x0⟩]

/-- Registers of the tile pages (R545). -/
def tileRegs : List RegDesc := [
  ⟨0x1000000, 0x8000, 768, 8, 1, 32, .tileC, 0xf, 0, 0x10, 0, 0, 0x0⟩,
  ⟨0x1000004, 0x8000, 768, 8, 1, 32, .tileC, 0, 0, 0, 0, 0, 0x80001⟩,
  ⟨0x1000008, 0x8000, 768, 8, 1, 32, .tileC, 0, 0x80000000, 0, 0, 0, 0x0⟩,
  ⟨0x100000c, 0x8000, 768, 8, 1, 32, .tileC, 0, 0xb, 0, 0, 0, 0x0⟩,
  ⟨0x1000010, 0x8000, 768, 8, 1, 32, .tileFa, 0, 0, 0, 0, 0, 0x0⟩,
  ⟨0x1000018, 0x8000, 768, 8, 1, 64, .tileC, 0, 0, 0, 0, 0, 0x0⟩,
  ⟨0x1000020, 0x8000, 768, 8, 1, 64, .tileC, 0, 0x8000000000000000, 0, 0, 0, 0x0⟩,
  ⟨0x1000028, 0x8000, 768, 8, 1, 64, .tileFC, 0, 0, 0, 0, 0xffffffff007fffff, 0x0⟩,
  ⟨0x1000030, 0x8000, 768, 8, 1, 64, .tileFa, 0, 0, 0, 0, 0, 0x0⟩,
  ⟨0x1000038, 0x8000, 768, 8, 1, 64, .tileFa, 0, 0, 0, 0, 0, 0x0⟩,
  ⟨0x1000040, 0x8000, 768, 8, 6, 64, .tileC, 0, 0, 0, 0, 0, 0x0⟩,
  ⟨0x1000080, 0x8000, 768, 8, 4, 64, .tileC, 0, 0, 0, 0, 0x7f80000000000000, 0x0⟩,
  ⟨0x10000a0, 0x8000, 768, 8, 2, 64, .tileFa, 0, 0, 0, 0, 0, 0x0⟩,
  ⟨0x1000100, 0x8000, 768, 8, 32, 64, .tileFa, 0, 0, 0, 0, 0, 0x0⟩,
  ⟨0x1000400, 0x8000, 768, 8, 128, 64, .tileC, 0, 0, 0, 0, 0, 0x0⟩,
  ⟨0x1001000, 0x8000, 768, 8, 512, 64, .tileFa, 0, 0, 0, 0, 0, 0x0⟩,
  ⟨0x1002000, 0x8000, 768, 8, 2048, 64, .tileC, 0, 0, 0, 0, 0, 0x0⟩,
  ⟨0x1006000, 0x8000, 768, 8, 512, 64, .tileC, 0, 0, 0, 0, 0, 0x0⟩]

/-- Whether a descriptor covers the register that starts at an offset. -/
def RegDesc.covers (d : RegDesc) (off : Nat) : Bool :=
  d.base ≤ off && (off - d.base) / d.s1 < d.c1 &&
    ((off - d.base) % d.s1 / d.s2 < d.c2 && (off - d.base) % d.s1 % d.s2 == 0)

/-- The descriptors of the region of BAR0 that holds an offset (R530). -/
def regsNear (off : Nat) : List RegDesc :=
  if off < 0x10000 then deviceRegs else if off < 0x800000 then arrayRegs
  else if off < 0x1000000 then headRegs else tileRegs

/-- The register that starts at an offset. -/
def regAt (off : Nat) : Option RegDesc := (regsNear off).find? (·.covers off)

/-- The value of a register after the reset of its group. -/
def regReset (off : Nat) : Reg :=
  match regAt off with
  | some d => BitVec.ofNat 64 d.reset
  | none => 0

/-- The bits of a register that only a device or power-on reset resets (R20). -/
def rosMask (off : Nat) : Reg :=
  match regAt off with
  | some d => BitVec.ofNat 64 d.ros
  | none => 0

end Sys2Proof.Machine
end

