-- ==== Sys2Proof/Machine/State.lean ====
section
/-! DEFINITION. The state of the Yargar as plain data, its state after reset, and the ways a step can stop.
Registers have one home, the register file `regs`, keyed by BAR0 offset; what a register only reports is computed
where it is read. -/

namespace Sys2Proof.Machine

open Sys2Proof

/-- Reasons for a step to stop with a fault. No command of this block raises one: every event the spec describes
leaves a next state, and each access to an address outside the spec's spaces has an answer there. The one
constructor is kept for the host's interface; it would be safe, since it stops. -/
inductive Fault where
  /-- An address that the spec says does not exist. Raised by no meaning. -/
  | noSuchAddress (a : Nat)
  deriving DecidableEq, Repr

/-- Reasons for a step to be refused. -/
inductive Refusal where
  /-- The command has no meaning yet. Raised by an arm of `exec`; safe, since it stops. -/
  | notModelled (mnemonic : String)
  deriving DecidableEq, Repr

/-- What an EVENT message reports (R475). -/
inductive SvcEventKind where
  | ownerChange | stateChange | logEntry
  deriving DecidableEq, Repr

/-- The last answer the device gave at its boundary: what a read returned, a reply, a refusal to acknowledge. -/
inductive Answer where
  /-- Nothing answered yet, or the command has no answer. -/
  | none
  /-- A register read's value. -/
  | word (v : Nat)
  /-- Data read by a host from HBM. -/
  | data (bs : List Byte)
  /-- Poisoned data (R314). -/
  | poison
  /-- A write or command completed. -/
  | done
  /-- Not acknowledged on I3C (R555, R556). -/
  | nack
  /-- A commit of an HDM decoder failed (R312). -/
  | notCommitted
  /-- A frame or message discarded without a reply. -/
  | discarded
  /-- A reply of the service port (R473): type, status, session, the sequence number it echoes, payload and MAC; the MAC is
  empty where R474 sends none. -/
  | svcReply (type status session seq : Nat) (payload mac : List Byte)
  /-- An EVENT message that the device sends on the service port (R475): its SEQ, what it reports, and when that was. -/
  | svcEvent (seq : Nat) (kind : SvcEventKind) (time : Nat)
  /-- An answer to an ARP request or a neighbour solicitation: the MAC address; an echo reply (R472). -/
  | arp (mac : Nat)
  | echo (data : List Byte)
  /-- Bytes that an I3C command or private read returns, and an in-band interrupt with its data byte (R555–R557). -/
  | i3c (data : List Byte)
  | ibi (byte : Nat)
  /-- A mailbox command that succeeded, with its payload; and one that completed with Unsupported (R309). -/
  | mailbox (payload : List Byte)
  | unsupported
  /-- Event records of a head's log (R523): its overflow flag, the count of entries lost, and the records. -/
  | events (overflow : Bool) (lost : Nat) (records : List (List Byte))
  /-- A DOE discovery response: the protocol (0 Discovery, 1 CMA/SPDM, 2 table access) and the next index (R309). -/
  | doe (protocol next : Nat)
  /-- An entry of the CDAT (R309). -/
  | cdat (bytes : List Byte)
  /-- An SPDM response: code and body (R506). -/
  | spdm (code : Nat) (body : List Byte)
  deriving DecidableEq, Repr

/-- One entry of the error log (R519). -/
structure LogEntry where
  seq : Nat
  time : Nat
  sev : Nat
  host : Bool
  kind : Nat
  block : Nat
  source : Nat
  code : Nat
  rep : Nat
  object : Nat
  detail : Nat
  deriving DecidableEq, Repr

/-- A log page in NVM (R521). -/
structure LogPage where
  seq : Nat
  time : Nat
  boots : Nat
  entries : List LogEntry
  deriving DecidableEq, Repr

/-- One CXL event log of a head (R523): its entries, oldest first, and its overflow flag and count. -/
structure CxlEvents where
  entries : List LogEntry := []
  overflow : Bool := false
  lost : Nat := 0
  deriving DecidableEq, Repr

/-- The error log (R518–R524). -/
structure LogState where
  /-- Entries held and not yet in NVM, oldest first. -/
  held : List LogEntry := []
  /-- The NVM error-log area, oldest page first. -/
  pages : List LogPage := []
  pageSeq : Nat := 0
  /-- Event logs, keyed by 4 × head + log. -/
  cxl : Table CxlEvents := []
  deriving DecidableEq, Repr

/-- Ownership besides OWN_STAT, OWN_CFG and the OWN_CMD instances (R325–R327). -/
structure OwnState where
  /-- The tick E at which the owner's lease expires (R326). -/
  expiry : Nat := 0
  /-- The tick at which the open claim window expires. -/
  windowEnd : Nat := 0
  /-- Whether LEASE_LOW was raised for the present lease. -/
  lowDone : Bool := false
  /-- The tick of the CLAIM that made the owner, for a claim that reaches the supervisor in the same tick (R326). -/
  claimedAt : Option Nat := none
  deriving DecidableEq, Repr

/-- Why the module's converters are stopped (R356, R358, R377, R396, R549). -/
inductive OffCause where
  | cold | overvolt | brownout | shutdown | dieTrip | unmated | auxFault
  deriving DecidableEq, Repr

/-- A request for the admission of a cluster (R372). -/
structure AdmitReq where
  cluster : Nat
  time : Nat
  forced : Bool := false
  deriving DecidableEq, Repr

/-- Power delivery besides its registers (12). -/
structure PowerState where
  /-- Present while every converter is stopped. -/
  off : Option OffCause := none
  /-- VIN has qualified since the converters stopped (R376). -/
  qualified : Bool := false
  /-- Supplies in regulation (R376): at the supervisor's release, those of t2 to t4. -/
  up : List Supply := [.aux, .supervisor, .oscillator]
  /-- Rails that faulted in an earlier start, for the second fault of R375. -/
  auxFaulted : List AuxRail := []
  /-- Every auxiliary domain but the supervisor's is off after a repeated fault in SPRING (R375). -/
  auxStopped : Bool := false
  /-- Requests for admission that wait, oldest first (R372). -/
  waiting : List AdmitReq := []
  /-- Per field, the tick at which the last admission started. -/
  lastAdmit : Table (Option Nat) := []
  /-- Per cluster, the tick at which its soft-start ends. -/
  softEnd : Table Nat := []
  /-- Clusters whose rail ramps down for heat (R371, R395). -/
  ramping : List Nat := []
  /-- Per cluster, the tick at which a second failed phase darkened it, for a short in the same µs (R378). -/
  phaseDark : Table (Option Nat) := []
  /-- Sites whose power switch is closed (R26). -/
  siteOn : List Nat := []
  /-- The module is mated: INPUT_EN is closed (R549). -/
  mated : Bool := true
  /-- THERMTRIP# is asserted (R553). -/
  thermtrip : Bool := false
  /-- The input supervisor's latch of a die trip: sensor and temperature in °C (R396). -/
  tripLatch : Option (Nat × Nat) := none
  /-- What stopped the converters last, as the input supervisor latches it. -/
  latch : Option OffCause := none
  deriving DecidableEq, Repr

/-- The issue-rate controller besides its registers (13). -/
structure ControlState where
  /-- L_field, per field; 64 unless listed. -/
  lField : Table Nat := []
  /-- L_ilim, per cluster; 64 unless listed. -/
  lIlim : Table Nat := []
  /-- L_ramp, per cluster; 1 unless listed. -/
  lRamp : Table Nat := []
  /-- Activity a(g) of the last sample. -/
  act : Table Nat := []
  /-- Step cost K(g) in mW; 500 unless listed (R387). -/
  cost : Table Nat := []
  /-- Measured power of the last sample with a(g) = 0, in mW. -/
  idle : Table (Option Nat) := []
  /-- floor(g) of the last sample (R388). -/
  floor : Table Nat := []
  /-- The limit m(g) computed last, which applies from the next frame; 64 unless listed. -/
  m : Table Nat := []
  /-- Where the next round robin of falls and of rises starts. -/
  turn : Nat := 0
  /-- Input powers of the last samples in W, newest first, up to 10,000 (R391). -/
  samples : List Nat := []
  /-- Samples of the current millisecond and the sum of their powers. -/
  msCount : Nat := 0
  msSum : Nat := 0
  /-- Means of whole milliseconds in W, newest first, up to 999. -/
  millis : List Nat := []
  /-- Samples for which the target has been less than 100 W above the input power, and 300 W or more above it. -/
  nearFor : Nat := 0
  farFor : Nat := 0
  /-- The tick since which no cause of AUTUMN has held. -/
  autumnClear : Option Nat := none
  /-- The tick since which no cause of WINTER has held. -/
  winterClear : Option Nat := none
  /-- Starved samples and filler frames not yet counted (R406). -/
  starvedPart : Nat := 0
  fillPart : Nat := 0
  /-- What the last sample has left of its budgets for falls and for rises, in mW (R388, R419). -/
  fallLeft : Nat := 50000
  riseLeft : Nat := 50000
  /-- L_therm as applied by the slope control; 64 unless listed. -/
  appTherm : Table Nat := []
  /-- Temperatures of the sample before the last, as `lastTemp`. -/
  prevTemp : Table (Option Int) := []
  /-- Last temperatures in tenths of °C, by sensor index (R396). -/
  lastTemp : Table (Option Int) := []
  /-- Ticks of the switch-offs for heat of each cluster within 24 h (R395). -/
  heat : Table (List Nat) := []
  /-- The map in force before the last switch-off for heat, for a short trip in the same sample (R401). -/
  heatWas : List (Nat × Byte) := []
  /-- Per cluster, the tick since which it reads 85 °C or below. -/
  coolSince : Table (Option Nat) := []
  /-- Armed for a thermal cycle: below 40 °C since the last counted one (R527). -/
  cycleArmed : Bool := true
  /-- Coolant timers: the ticks since which each condition of R397 has held. -/
  over45 : Option Nat := none
  over50 : Option Nat := none
  under45 : Option Nat := none
  lowFlow : Option Nat := none
  okFlow : Option Nat := none
  /-- Coolant conditions in force: derating for the inlet, for the flow, and inlet below 30 °C. -/
  inletDerate : Bool := false
  flowDerate : Bool := false
  inletCold : Bool := false
  /-- Flow estimates of the last 10 s, newest first, in 0.1 L/min. -/
  flows : List Nat := []
  /-- Step 1 of the exit from WINTER has begun (R400). -/
  exiting : Bool := false
  /-- WINTER has been requested and waits for the running batch, since this tick (R399). -/
  winterDue : Option Nat := none
  deriving DecidableEq, Repr

/-- A change of TCLK divider or of CCLK that awaits T_s (R417, R419). -/
structure ClockStep where
  toDiv : Nat
  /-- A step down caused by margin, skew or the owner (true), or a step up. -/
  down : Bool
  /-- The tick of T_s once it is chosen. -/
  ts : Option Nat := none
  /-- The cap on M_W until T_s (R419). -/
  cap : Nat := 64
  /-- It took the place of a step up: the voltage codes stay until T_s (R420). -/
  held : Bool := false
  deriving DecidableEq, Repr

/-- Clocks and device time besides their registers (14). -/
structure ClockState where
  /-- Fields whose PLL is locked (R409). -/
  locked : List Nat := []
  /-- Per field, the tick at which its PLL lost lock. -/
  lostAt : Table (Option Nat) := []
  /-- No CREF edge is seen (R409). -/
  crefLost : Bool := false
  /-- Phase interpolators of the fields, in steps (R410). -/
  interp : Table Int := []
  /-- Consecutive readings over budget, per crossing (R412). -/
  overFor : Table Nat := []
  step : Option ClockStep := none
  /-- The divider that margin responses ask for at most: the steps taken down under R415. -/
  floorDiv : Nat := 8
  /-- The tick of the last step down caused by margin (R416). -/
  lastDown : Nat := 0
  /-- Per cluster: the response its last report met (0 none, 1 WARN, 2 CRIT), and ticks of its last ADJ changes. -/
  lastMet : Table Nat := []
  lastRaise : Table (Option Nat) := []
  lastLower : Table (Option Nat) := []
  /-- Per cluster: the tick since which its margin is at or above RELAX_PS. -/
  relaxSince : Table (Option Nat) := []
  /-- Per cluster: ticks of the step downs it caused within 24 h. -/
  caused : Table (List Nat) := []
  /-- Per cluster: TRIM raised by R416 until the next device reset. -/
  raised : List Nat := []
  /-- Per cluster: the tick of the last change of VSET (R414). -/
  lastVset : Table (Option Nat) := []
  /-- The count of each field less the reference count (R421), and the error that is left for it to slew away (R422). -/
  offset : Table Int := []
  slew : Table Int := []
  /-- Fields whose DEVTIME count is loaded (R421). -/
  synced : List Nat := []
  deriving DecidableEq, Repr

/-- One entry of a remap: logical tile, old site, new site, cause (R447). -/
structure RemapEntry where
  tile : Nat
  old : Nat
  new : Nat
  cause : Nat
  deriving DecidableEq, Repr

/-- A remap journal record in NVM (R447): KIND 1 BEGIN, 2 COMMIT, 3 END. -/
structure JournalRec where
  kind : Nat
  id : Nat
  time : Nat
  mapSeq : Nat
  entries : List RemapEntry
  deriving DecidableEq, Repr

/-- Where a running remap stands (R445): choosing and testing targets, BEGIN being written, copying, COMMIT being
written, the map and END being written. -/
inductive RemapStep where
  | selecting | beginning | copying | committing | ending
  deriving DecidableEq, Repr

/-- A running remap. -/
structure Remap where
  field : Nat
  id : Nat
  step : RemapStep
  entries : List RemapEntry
  deriving DecidableEq, Repr

/-- A map record (R432). Sites and logical entries not listed are those of the factory build of R433. -/
structure MapRecord where
  live : Nat := 0xFFF
  seq : Nat := 1
  time : Nat := 0
  remapId : Nat := 0
  /-- Site status bytes by site number. -/
  sites : Table Byte := []
  /-- Site of each logical tile. -/
  logical : Table Nat := []
  /-- Field bytes. -/
  fields : Table Nat := []
  deriving DecidableEq, Repr

/-- Bring-up and repair besides their registers (15). -/
structure BootState where
  /-- The map in force. -/
  map : MapRecord := {}
  /-- The map record in NVM with the higher SEQ, and the copy before it. -/
  nvmMap : MapRecord := {}
  nvmPrev : MapRecord := {}
  /-- Neither copy of the map record is valid: the map is built from the tests of this SPRING (R433). -/
  mapLost : Bool := false
  /-- Sites fused out, from the fuse map (R431). -/
  fuse : List Nat := []
  journal : List JournalRec := []
  remap : Option Remap := none
  /-- Requests for a remap that wait: logical tile and cause (R443). -/
  remapQueue : List (Nat × Nat) := []
  /-- Sites made dormant for heat since the last device reset, not to be promoted before the next (R449). -/
  noPromote : List Nat := []
  /-- The command of SUP_REPAIR_CMD that awaits a device or power-on reset: 1 REBUILD, 2 RETRY_FIELD. -/
  repair : Option (Nat × Nat) := none
  /-- A reset whose entry the next SPRING makes: its kind and cause (R522). -/
  unlogged : Option (Nat × Nat) := none
  /-- The kind of the reset that this SPRING follows: 3 device, 4 power-on. -/
  resetKind : Nat := 4
  /-- The tick at which the supervisor was released. -/
  released : Nat := 0
  /-- The map in force differs from the record in NVM until the next quiesce (R434, R449). -/
  mapDirty : Bool := false
  /-- Steps of SPRING that have finished, by their event number in R437. -/
  steps : List Nat := []
  /-- A fabric reset runs (R442), and ticks of restarts within one second. -/
  fabricReset : Bool := false
  fabricTimes : List Nat := []
  /-- Field controllers whose firmware runs, and those that failed their check. -/
  fcRunning : List Nat := []
  fcFailed : List Nat := []
  /-- Batches stay stopped for a quiesce (R246). -/
  quiesce : Bool := false
  /-- Block firmware components that run, by their type (R435, R478). -/
  loaded : List Nat := []
  /-- TIL_MC_VER of the running slot's tile microcode, once its component's digest has been checked (R122, R436). -/
  microcode : Reg := 0
  /-- The bytes of that component, which the field controllers broadcast (R108, R436). -/
  store : List Byte := []
  /-- Field quotes held, nonces supplied to the field controllers at their start, and field keys that the boot ROMs have
  locked (R499, R504). -/
  quotes : Table (List Byte) := []
  nonces : Table (List Byte) := []
  keyLocked : List Nat := []
  deriving DecidableEq, Repr

/-- Lifetime records besides LIF_STAT and LIF_PAGE (R525–R529). -/
structure LifeState where
  /-- The live counts, as the 64-bit words of the layout of R525. -/
  live : Table Reg := []
  /-- Words of the last record written to NVM, by index. -/
  record : Table Reg := []
  /-- Words of the record before it. -/
  prev : Table Reg := []
  /-- Sequence number of the last record. -/
  seq : Nat := 0
  /-- Fractions of a stress unit per cluster, in units of 2^−32 times the scale of `stressWeight`. -/
  part : Table Nat := []
  /-- Watt-seconds not yet counted as Wh. -/
  energy : Nat := 0
  /-- Replays of each link not yet counted as a unit of 256. -/
  replays : Table Nat := []
  deriving DecidableEq, Repr


/-- An EVENT message that awaits EVENT_ACK (R475): its SEQ, what it reports, DEVTIME and the tick it was last sent. -/
structure SvcEvent where
  seq : Nat
  kind : SvcEventKind
  time : Nat
  sent : Nat
  deriving DecidableEq, Repr

/-- A half-open session (R474): its SESSION, both nonces, the tick of HELLO, and the client's key once AUTH_KEY has named
it, with the number of the SVC_KEYn it matches. -/
structure HalfOpen where
  session : Nat
  nc : List Byte
  nd : List Byte
  since : Nat
  key : Option (Nat × List Byte) := none
  deriving DecidableEq, Repr

/-- The service port besides NVM_SVC_STAT (R472–R476). -/
structure SvcState where
  /-- The session key of the open session. -/
  key : Option (List Byte) := none
  session : Nat := 0
  half : Option HalfOpen := none
  /-- Ticks of the HELLO messages answered within a second, of the AUTH exchanges failed within 60 s, and the tick until
  which HELLO is ignored. -/
  helloAt : List Nat := []
  failAt : List Nat := []
  deafUntil : Nat := 0
  /-- The tick of the last valid message of the session. -/
  lastMsg : Nat := 0
  /-- The lowest unanswered SEQ of the session, and the replies given, by SEQ: type, status and payload. -/
  low : Nat := 1
  replies : Table (Option (Nat × (Nat × List Byte))) := []
  /-- Parts of a configuration record and of an enrollment blob received. -/
  cfgPart : List Byte := []
  enrollPart : List Byte := []
  events : List SvcEvent := []
  eventSeq : Nat := 1
  deriving DecidableEq, Repr

/-- The connection state of an SPDM transport (R505): the messages exchanged for negotiation, for certificates, and for
measurements, and the snapshot of a transcript, each block by its index (R511). -/
structure SpdmConn where
  vca : List Byte := []
  certs : List Byte := []
  meas : List Byte := []
  snap : Option (List (Nat × List Byte)) := none
  deriving DecidableEq, Repr

/-- A firmware slot (R461): whether it still holds what it held at manufacture, and else its bytes by offset; a byte not
listed is erased, 0xFF. -/
structure Slot where
  shipped : Bool := true
  cells : List Host.Cell := []
  deriving DecidableEq, Repr

/-- A boot record (R483): KIND 1 ARM, 2 DISARM, 3 COMMIT, 4 CONFIRM, 5 FALLBACK, 6 REJECT. -/
structure BootRec where
  kind : Nat
  active : Nat
  seq : Nat
  time : Nat
  target : Nat
  tboots : Nat := 0
  trialMin : Nat := 0
  reason : Nat := 0
  mdigest : List Byte := []
  deriving DecidableEq, Repr

/-- A configuration record in the store: the factory record that the device is shipped with, or an installed one (R466,
R469). -/
inductive CfgRec where
  | factory
  | record (bytes : List Byte)
  deriving DecidableEq, Repr

/-- A running upload (R480): its slot, IMAGE_LEN, the bytes erased so far, and the blocks of 1024 bytes written. -/
structure Upload where
  slot : Nat
  len : Nat
  erased : Nat := 0
  written : List Nat := []
  deriving DecidableEq, Repr

/-- NVM-A, NVM-B and the OTP array (R460–R471), and firmware on trial (R482–R487), besides their registers. The record
areas hold the same on both devices. -/
structure NvmState where
  /-- Devices out of service until the next power-on reset (R464). -/
  failed : List Nat := []
  /-- The newest boot record and the one before it. -/
  bootRec : Option BootRec := none
  bootPrev : Option BootRec := none
  /-- REASON of the newest FALLBACK or REJECT (R494). -/
  lastReason : Nat := 0
  slotA : Slot := {}
  slotB : Slot := {}
  /-- The current and the previous configuration record. -/
  cfg : CfgRec := .factory
  prev : Option CfgRec := none
  /-- The bytes of the newest device record and of the one before it; none yet: empty (R462, R465). -/
  devRec : List Byte := []
  devPrev : List Byte := []
  /-- The device record (R465): SEQ, WRITTEN, BOOTS, LAST, CFG_SELECT and OPERATOR. -/
  devSeq : Nat := 0
  devTime : Nat := 0
  boots : Nat := 0
  lastKind : Nat := 0
  lastCause : Nat := 0
  select : Nat := 0
  operator : Bool := false
  /-- Digests in the OTP enrollment slots, slot 0 first (R466). -/
  otp : List (List Byte) := []
  /-- 256-byte pages written in each area, by the order of R461 (R463), and sectors of each device's slot erased. -/
  pages : Table Nat := []
  slotErases : Table Nat := []
  /-- The record in force since the last boot; none: the restricted defaults (R471). -/
  inForce : Option CfgRec := none
  upload : Option Upload := none
  /-- The slot whose firmware runs. -/
  slot : Option Nat := none
  /-- The trial timer's end and its latched cause (R485). -/
  timer : Option Nat := none
  timerLatch : Bool := false
  /-- The tick of the first entry into SUMMER or AUTUMN in this boot, and the tick since which the device has been there
  without a break (R485, R486). -/
  firstRun : Option Nat := none
  runSince : Option Nat := none
  deriving DecidableEq, Repr

/-- The I3C target and the sideband pins (R553–R557). -/
structure I3cState where
  /-- The dynamic address, once assigned. -/
  dyn : Option Nat := none
  /-- The read offset set since the last private read. -/
  readOff : Option Nat := none
  /-- The data byte of the pending in-band interrupt. -/
  ibi : Option Nat := none
  /-- ALERT: an interrupt is pending. -/
  alert : Bool := false
  /-- The tick of the last interrupt raised. -/
  lastIbi : Option Nat := none
  deriving DecidableEq, Repr

/-- The host ports besides the head pages (10). -/
structure HostState where
  /-- Messages sent per MSI-X vector, keyed 65 × head + vector. -/
  msix : Table Nat := []
  /-- Committed HDM decoders, keyed 4 × head + decoder: base and size of the device physical span (R312). -/
  decoders : Table (Nat × Nat) := []
  /-- Per completion queue, keyed 64 × head + queue: entries were written and are not yet signalled, and the tick of the
  last signal (R320). -/
  unsignalled : Table Bool := []
  signalled : Table (Option Nat) := []
  /-- Per head, PERST# asserted since this tick; none while it is deasserted (R553). -/
  perst : Table (Option Nat) := []
  /-- A head whose link is down and whose queues are disabled once no accepted request of it remains (R321). -/
  closing : List Nat := []
  deriving DecidableEq, Repr

/-- A retirement record of the configuration store (R273): its ordering number, when it was written, and the slice
bytes, recorded state in bits [1:0] and cause in bits [4:2]. -/
structure RetireRecord where
  seq : Nat := 0
  time : Nat := 0
  slices : Table Nat := []
  deriving DecidableEq, Repr

/-- The error pattern of a burst: by symbol of its codeword, the bits that are inverted; and whether its cells are defective,
so that a write may leave it in error and the controller's patterns fail (R264, R267, R271). -/
structure BurstErr where
  syms : Table Nat := []
  hard : Bool := false
  deriving DecidableEq, Repr

/-- The HBM subsystem besides its registers (08). -/
structure HbmState where
  /-- Bursts in error, by address div 32 (R264). -/
  errs : Table BurstErr := []
  /-- Per slice, the blocks corrected and the ticks of their last correction (R271). -/
  ceBlocks : Table (List (Nat × Nat)) := []
  /-- Per stack, the tick since which its temperature has allowed the next step down of the refresh rate (R268). -/
  coolSince : Table (Option Nat) := []
  /-- Per stack, command repeats for parity not yet counted as 256 (R279). -/
  parityPart : Table Nat := []
  /-- Per stack, error reports of its on-die ECC not yet counted as 256 (R279). -/
  ondiePart : Table Nat := []
  /-- Lanes repaired in training, by pseudo-channel and lane, until the next device reset (R257). -/
  repaired : List (Nat × Nat) := []
  /-- The retirement record, and the copy before it. -/
  record : RetireRecord := {}
  prevRecord : RetireRecord := {}
  deriving DecidableEq, Repr

/-- A lane word (R216): 64 data bits, a parity bit for each byte, and HEAD. A lane that carries none has VALID 0. -/
structure LaneWord where
  data : BitVec 64
  parity : BitVec 8
  head : Bool := false
  deriving DecidableEq, Repr

/-- An operand on its way to an input queue of a tile: the queue, the operand (R129), and the TCLK of the tile in which
it arrives (R567); one that comes on a lattice channel comes as that channel's words, each its lanes' words. -/
structure Flight where
  q : Nat
  op : Nat
  due : Nat
  words : List (List LaneWord) := []
  deriving DecidableEq, Repr

/-- An operand in a queue: the operand, its entry in the tile's operand store, the TCLK of its arrival, and whether it came
back from spill into the reserved entry (R124). -/
structure QItem where
  op : Nat
  entry : Nat := 0
  at_ : Nat
  drained : Bool := false
  deriving DecidableEq, Repr

/-- An entry of the spill index: TAG and IDX of a spilled operand, and where its 16 bytes stand, as an entry of the tile's AM
spill region or of its HBM spill area (R144, R149). -/
structure SpillRef where
  tag : Nat
  idx : Nat
  place : Nat
  hbm : Bool
  deriving DecidableEq, Repr

/-- An input queue of the active layer's graph: its operands in the order of arrival; operands received in all; the spill
index of the operands held in spill, in tag order; whether a spill is still being written, and whether one entry is reserved
for returning operands (R149). -/
structure QueueRun where
  items : List QItem := []
  got : Nat := 0
  reserve : Bool := false
  spilled : List SpillRef := []
  opening : Bool := false
  deriving DecidableEq, Repr

/-- A unit of the active layer's graph: its base (R131), the groups beyond the base that have fired, the groups fired in
all, and the tag-wait timer while it runs: the group's first tag and the issue clocks counted (R141). -/
structure UnitRun where
  base : Nat := 0
  ahead : List Nat := []
  fired : Nat := 0
  timer : Option (Nat × Nat) := none
  /-- The TCLK in which it last fired or received an operand (R146). -/
  active : Nat := 0
  deriving DecidableEq, Repr

/-- A firing placed in a sequencer queue: the unit, the first tag of its group, the mask of skip tags (R135), the pass
descriptor's offset or the kernel entry, and the task (R111). -/
structure SeqJob where
  unit : Nat
  tag : Nat
  skips : Nat
  target : Nat
  task : Nat
  /-- Ring units of landed messages that its completion frees, by channel (R223). -/
  back : List (Nat × Nat) := []
  /-- The operands that the firing consumed, in port, tag and index order (R129). -/
  ops : List Nat := []
  deriving DecidableEq, Repr

/-- Where a pass stands between issue and completion (R91–R96). -/
inductive PassPhase where
  | issued | fetching | fetched | running
  deriving DecidableEq, Repr

/-- A weight block as the weight buffer holds it: its element rows, decoded, and its scale bytes (R46, R47, R96). -/
structure WeightBlock where
  rows : List (List Byte)
  scales : List Byte
  deriving DecidableEq, Repr

/-- What a half of the weight buffer holds of a pass's weight set, and then the cells of the arrays: the lane length headers
read at the pass's release, its blocks, and the column anchor entries (R80, R96). -/
structure WeightHalf where
  heads : List (List Byte) := []
  blocks : List WeightBlock := []
  anchors : List Byte := []
  deriving DecidableEq, Repr

/-- A pass taken from the pass queue: its weight set, vectors that have entered and vectors whose outputs are written, for
each vector in the arrays the TCLK at the end of which its outputs are written, and whether its front has latched its last
row (R85, R86, R92, R93). -/
structure PassRun where
  job : SeqJob
  phase : PassPhase := .issued
  half : WeightHalf := {}
  entered : Nat := 0
  left : Nat := 0
  exits : List Nat := []
  latched : Bool := false
  /-- Outputs of the landing message of each array so far (R224). -/
  out : List (Nat × List Byte) := []
  deriving DecidableEq, Repr

/-- A hardware loop of the stream processor: first and last instruction of its block and the repeats left. -/
structure SpLoop where
  first : Nat
  last : Nat
  left : Nat
  deriving DecidableEq, Repr

/-- The kernel that runs: its firing, its next instruction counted from its first, operands emitted per out port, the
microcode routine that runs for it, and its hardware loops, innermost first. -/
structure KernelRun where
  job : SeqJob
  pc : Nat := 0
  emitted : Table Nat := []
  micro : Option Nat := none
  loops : List SpLoop := []
  deriving DecidableEq, Repr

/-- A descriptor in an engine's queue (R169, R170): its 64 bytes as a number, the task it runs under, and whether a field
controller submitted it. -/
structure DmaJob where
  desc : Nat
  task : Nat
  priv : Bool := false
  deriving DecidableEq, Repr

/-- A credit in use: its index, the segment, the packet's place and length in the transfer, in units, the endpoint and device
that the packet is for, and the tick at which its timeout expires (R173, R174). -/
structure DmaCredit where
  idx : Nat
  seg : Nat
  pos : Nat
  units : Nat
  dst : Nat := 0
  fdn : Nat := 0
  due : Nat := 0
  deriving DecidableEq, Repr

/-- A descriptor being carried out: the next unit to send, credits in use, and per segment the units accepted and the
reason of its first failure. -/
structure DmaRun where
  job : DmaJob
  next : Nat := 0
  credits : List DmaCredit := []
  acc : Table Nat := []
  why : Table Nat := []
  deriving DecidableEq, Repr

/-- A window notification that is not yet answered (R176, R177): the packet's descriptor, the index of its TXID, its operand,
the ticks at which its timeout expires and at which it was last sent, whether NOTIFY_BUSY has refused the packet sent last,
or any, and whether the descriptor's status record was written. -/
structure DmaRetry where
  job : DmaJob
  idx : Nat
  op : Nat
  due : Nat
  sent : Nat
  busy : Bool := false
  met : Bool := false
  written : Bool := true
  deriving DecidableEq, Repr

/-- A DMA engine (R168): its queue, the descriptor it carries out, its notifications without an answer, and indices of reclaimed
credits whose packets have not been answered (R174). -/
structure DmaEngine where
  queue : List DmaJob := []
  run : Option DmaRun := none
  notes : List DmaRetry := []
  stale : List Nat := []
  deriving DecidableEq, Repr

/-- A leg of a channel that is carried over the concourse (R229): the words gathered at its entry, the tick of the first of
them, the TXID of its next packet, and at its exit the TXID expected next and the words received that do not make a whole
message yet. -/
structure TunnelLeg where
  words : List Byte := []
  since : Nat := 0
  txid : Nat := 0
  want : Nat := 0
  got : List Byte := []
  deriving DecidableEq, Repr

/-- A channel end of a tile (R222, R223): credits at a send end, and at a receive end the next ring unit. -/
structure ChanRun where
  credits : Nat := 0
  ring : Nat := 0
  /-- LA96, receive end: bytes written and not read. -/
  held : Nat := 0
  /-- Receive end: the legs of the channel that are carried through tunnels, by their order on its path. -/
  legs : Table TunnelLeg := []
  /-- Receive end: the channel's words in the pass-through registers of its path, oldest first, each its lanes' words
  (R216, R217). -/
  wire : List (List LaneWord) := []
  /-- Send end: credit pulses on their way back (R222). -/
  pulses : Nat := 0
  deriving DecidableEq, Repr

/-- A tile besides its registers (03–05). Memories are keyed by byte offset; a byte not listed is zero. -/
structure TileState where
  /-- TCLK counted while the site is powered, and its value at the last frame start (R98). -/
  tclk : Nat := 0
  frame : Nat := 0
  wm : List Host.Cell := []
  am : List Host.Cell := []
  pm : List Host.Cell := []
  istore : List Host.Cell := []
  /-- Sidebands of AM: the number of the write that last set each unit's, how many writes there have been, and anchor
  words that a combine has placed; the words that the pre-scan sets follow from the vector (R51, R52). -/
  side : Table Nat := []
  amWrites : Nat := 0
  anchors : Table (Option Nat) := []
  /-- 64-bit words of the tile's SRAMs in error, keyed 2^20 × memory + word: 1 correctable, 2 uncorrectable (R330). -/
  errs : Table Nat := []
  /-- Vector registers, keyed 64 × register + lane; scalar registers; predicate registers p1 to p3 (R101). -/
  v : Table (BitVec 32) := []
  sreg : Table Reg := []
  preg : Table Reg := []
  kernel : Option KernelRun := none
  passQ : List SeqJob := []
  kernQ : List SeqJob := []
  passes : List PassRun := []
  /-- The arrays' time in TCLK: the first in which the 64-beat rule lets the next front start, the first in which a vector
  of the pass whose front started last may enter, and the first after the 64 beats of the pass that entered last; the first
  and the last TCLK of the beat in which a vector entered last (R82, R93, R95). -/
  frontAt : Nat := 0
  vecAt : Nat := 0
  bubbleEnd : Nat := 0
  beatAt : Nat := 0
  beatEnd : Nat := 0
  /-- Graph tables of the active layer (R126, R127), keyed by index. -/
  unitTab : Table Nat := []
  queueTab : Table Nat := []
  edgeTab : Table Nat := []
  /-- Iterations N′ of the active layer run, and N before padding (R130). -/
  tags : Nat := 0
  realTags : Nat := 0
  units : Table UnitRun := []
  queues : Table QueueRun := []
  credit : Table Nat := []
  flight : List Flight := []
  /-- Round robin: the unit that fired last (R132). -/
  lastUnit : Nat := 255
  /-- TCLK since a unit last fired or received an operand (R147). -/
  quiet : Nat := 0
  /-- Sinks of the tile that have reported the layer's last group (R134). -/
  sinks : List Nat := []
  /-- Notify list of the active season (R191), and notifications that wait for room (R177). -/
  notify : List Nat := []
  notes : List (Nat × Nat) := []
  engines : Table DmaEngine := []
  chans : Table ChanRun := []
  /-- Digest accumulators, ORIGINAL and SHADOW, of the step that runs (R343). -/
  digest : Nat := 0
  shadow : Nat := 0
  /-- A step of the tile has begun in the running layer (R328), and the shadow gate for the shadow units on this tile:
  0 not set, 1 closed, 2 open (R341). -/
  stepOn : Bool := false
  gate : Nat := 0
  deriving DecidableEq, Repr

/-- A request that the supervisor holds, from its fetch to its completion (R39). -/
structure Request where
  id : Nat
  head : Nat
  sq : Nat
  /-- The descriptor as copied (R207), and the submission queue head after its fetch. -/
  desc : Nat
  sqHead : Nat
  /-- Completion queue for its completion (R209). -/
  cq : Nat
  /-- Tick of acceptance. -/
  time : Nat
  /-- Accepted at step 5 of R39; a request that fails a check is not. -/
  accepted : Bool := true
  chunks : Nat := 0
  outBytes : Nat := 0
  stateful : Bool := false
  /-- The next chunk to run, the tick since which it is ready, and whether it is executing. -/
  next : Nat := 0
  ready : Option Nat := none
  running : Bool := false
  done : Nat := 0
  fail : Nat := 0
  /-- Status of the first failed chunk, 0 when none, its number, and DETAIL for the log. -/
  cause : Nat := 0
  failChunk : Nat := 0
  detail : Nat := 0
  unverified : Bool := false
  degraded : Bool := false
  remapped : Bool := false
  /-- The completion's status, once it is due. -/
  status : Option Nat := none
  /-- DMA credits of its failed chunk that were in use when it failed, by tile and engine (R211). -/
  owed : List (Nat × Nat × DmaCredit) := []
  deriving DecidableEq, Repr

/-- The batch that runs (R198): its slot and model, its requests in chunk order, which keeps each chunk its place, and those whose
chunk has failed; the layer that is next or runs, counted from the model's first, whether it runs, and chunks whose state is
stored, as (request, tile) pairs. -/
structure Batch where
  slot : Nat
  model : Nat
  reqs : List Nat
  gone : List Nat := []
  layer : Nat := 0
  layerRunning : Bool := false
  stored : List (Nat × Nat) := []
  deriving DecidableEq, Repr

/-- Steps of a season change (R202). -/
inductive ChangeStep where
  | draining | loading | confirming
  deriving DecidableEq, Repr

/-- A command written to SUP_SEASON_CMD during a season change: operation, slot and source (R195). -/
structure SeasonCmd where
  op : Nat
  slot : Nat
  src : Nat
  deriving DecidableEq, Repr

/-- Requests, scheduling and seasons besides their registers (06, 10). -/
structure ReqState where
  reqs : List Request := []
  nextId : Nat := 0
  /-- Requests whose completions are due, in the order in which they completed. -/
  due : List Nat := []
  /-- Held completions per completion queue, keyed 64 × head + queue: request numbers in order (R319). -/
  held : Table (List Nat) := []
  /-- Head of each completion ring, as its doorbell last set it. -/
  cqHead : Table Nat := []
  /-- The head and queue whose turn comes next in the round robin of fetching (R318). -/
  turnHead : Nat := 0
  turn : Table Nat := []
  batch : Option Batch := none
  /-- The model chosen at the last switch point, which waits for its batch (R199). -/
  choice : Option Nat := none
  /-- Requests of the batch that failed last, until the next batch starts (R333). -/
  lastFailed : List Nat := []
  /-- Loads of stream state that have been done, by request, tile and place in the batch, for the batch that runs and, before
  their batch, for the chunks that the procedure would choose next; and loads of input chunks for those, by request and place
  (R200, R206). -/
  loaded : List (Nat × Nat × Nat) := []
  inputs : List (Nat × Nat) := []
  /-- Sources of staging copies, by slot. -/
  staging : Table Nat := []
  /-- The slot that a recorded ACTIVATE names (R195). -/
  recorded : Option Nat := none
  change : Option (Nat × ChangeStep) := none
  deferred : Option SeasonCmd := none
  /-- The tick since which the active season is resident. -/
  resident : Nat := 0
  /-- Spills of the running layer (R151), and whether a spill is open, by tile and queue. -/
  spills : Nat := 0
  spillOpen : List (Nat × Nat) := []
  /-- A test window is open, and the supervisor holds the next layer (R337). -/
  testOpen : Bool := false
  /-- SUP_DF_CTRL and the horizon's exponent as the running layer took them at its start (R142, R152). -/
  dfCtrl : Nat := 0x20617
  horizon : Nat := 16
  deriving DecidableEq, Repr

/-- An operation that waits for a reply (R249): source endpoint, TXID and opcode, what it was about, and the tick at which
its timeout expires. -/
structure Await where
  src : Nat
  txid : Nat
  opc : Nat
  pkt : Packet
  due : Nat := 0
  /-- Times the packet has been sent again (R436). -/
  again : Nat := 0
  deriving DecidableEq, Repr

/-- A cycle search of a deadlock detector (R147): the tile that reported, the fields that have answered its queries, the
cycle found, as (tile, unit, queue's tile, queue), how far each member had come when the search closed, and the fields that
have answered again since (R148). -/
structure Search where
  origin : Nat
  answered : List Nat
  cycle : List (Nat × Nat × Nat × Nat)
  marks : List Nat
  again : List Nat := []
  deriving DecidableEq, Repr

/-- A bundle of seam wires (R254): spares used, wires marked, and whether it is out of service. -/
structure Bundle where
  spares : Nat := 0
  marked : List Nat := []
  out : Bool := false
  deriving DecidableEq, Repr

/-- The lattice and the concourse besides their registers (07). -/
structure NetState where
  /-- Packets at the input ports of the routers, keyed 17 × router + port, oldest first. -/
  buf : Table (List Packet) := []
  /-- Packets that wait at a network interface or an attach endpoint for its router's input port, by the port's key. -/
  nic : Table (List Packet) := []
  /-- Data packets that each network interface has started in a period of 16 packet slots, by the port's key: the period
  and their number (R248). -/
  starts : Table (Nat × Nat) := []
  /-- Packets that have reached their endpoint and are not yet taken. -/
  arrived : List Packet := []
  /-- Round robin of each output, for its control inputs and its data inputs, keyed 17 × router + port. -/
  turn : Table Nat := []
  dataTurn : Table Nat := []
  /-- Grants left to the data input served last, per output. -/
  grants : Table Nat := []
  /-- Routers whose cluster is throttled, and per router the throttled time not yet counted, in 940ths of a CCLK (R248,
  R251). -/
  throttled : List Nat := []
  throttleFor : Table Nat := []
  /-- Route tables of bank 1, keyed 256 × router + destination, when the image carries them. -/
  ctab : Bool := false
  bank1 : Table Nat := []
  remote : Table Nat := []
  /-- Lane map records by site, and the site each logical tile was assumed on. -/
  lanes : Table Nat := []
  lmap : Table Nat := []
  /-- Barrier records by group (R253). -/
  bars : Table Nat := []
  awaits : List Await := []
  /-- TXID that each endpoint assigns next to a packet that is not a DMA engine's. -/
  txid : Table Nat := []
  searches : Table (Option Search) := []
  bundles : Table Bundle := []
  deriving DecidableEq, Repr

/-- A SEQ frame in a replay buffer (R293): its SEQ, its body, the packets whose last byte it carries, and the tick at which
it was last sent. -/
structure SentFrame where
  seq : Nat
  body : List Byte
  pkts : List Packet
  at_ : Nat
  deriving DecidableEq, Repr

/-- A link port besides its registers (09). -/
structure LinkRun where
  /-- The tick at which the present state was entered. -/
  since : Nat := 0
  /-- A local fence is in force (R297): in SPRING until the concourse is up. -/
  fence : Bool := true
  /-- The port is in the bitmap of usable ports (R298). -/
  usable : Bool := false
  /-- The receiver holds lane alignment (R287). -/
  aligned : Bool := false
  /-- RATE, MEDIUM and TESTPAT as the last TRAIN took them (R305). -/
  applied : Nat := 0
  /-- Handshake (R287): the tick of the last INIT frame sent, an INIT received, one sent and one received with SEEN set. -/
  initAt : Option Nat := none
  seen : Bool := false
  sentSeen : Bool := false
  gotSeen : Bool := false
  /-- The partner's epoch and grants from its INIT. -/
  peerEpoch : Nat := 0
  ctlGrant : Nat := 0
  dataGrant : Nat := 0
  /-- Transmit queues by class, and the packet begun with the bytes of it not yet in a frame (R291). -/
  ctl : List Packet := []
  data : List Packet := []
  part : Option (Packet × List Byte) := none
  /-- The next SEQ, the replay buffer oldest first, the replay count, and a replay asked for by NAK (R293). -/
  seq : Nat := 0
  replay : List SentFrame := []
  replays : Nat := 0
  nakSeen : Bool := false
  /-- Receiver: SEQ of the last frame accepted, bytes of a packet received in part, the ACK value and tick of the last NAK,
  a NAK to send, and the tick of the last valid frame (R292, R294). -/
  ack : Nat := 0xFFFF
  rx : List Byte := []
  nakFor : Option (Nat × Nat) := none
  nakDue : Bool := false
  lastValid : Nat := 0
  /-- Credits by class (R295): held, taken and not returned, the partner's last CCRED and DCRED, and what this receiver has
  returned since UP. -/
  ctlHeld : Nat := 0
  dataHeld : Nat := 0
  ctlOut : Nat := 0
  dataOut : Nat := 0
  ctlSeen : Nat := 0
  dataSeen : Nat := 0
  ctlRet : Nat := 0
  dataRet : Nat := 0
  /-- The tick since which a class has had a packet waiting without credit (R294). -/
  ctlStall : Option Nat := none
  dataStall : Option Nat := none
  /-- Frames that the last command of this port put on the line. -/
  out : List Frame := []
  /-- The line (R284): frames not yet wholly in codewords, the bytes of the first of them that are, data pairs sent since the last
  alignment pair, and the symbols that the last command put on each lane. -/
  txFrames : List Frame := []
  txSent : Nat := 0
  txPairs : Nat := 0
  line : List (List Nat) := []
  /-- Codewords corrected and not yet counted as 65,536, and the ticks of uncorrectable ones within 1 ms (R294, R307). -/
  corrPart : Nat := 0
  ucwAt : List Nat := []
  deriving DecidableEq, Repr

/-- Integrity checking besides its registers (11). -/
structure IntegState where
  /-- Tiles that have taken a phase since the mode last changed, old phases, and the group of the last rephase (R342). -/
  phased : List Nat := []
  oldPhase : Table Nat := []
  rephased : Table (Option Nat) := []
  /-- SUSPECT pairs, with the equal comparisons since each mark (R344). -/
  suspects : List (Nat × Nat × Nat) := []
  /-- Tiles whose step of the running or last layer is to be compared, and the digests that have arrived, keyed
  2 × tile + 0 ORIGINAL or 1 SHADOW (R343). -/
  selected : List Nat := []
  digests : Table (Option Nat) := []
  /-- The tick at which the layer's sinks had all reported. -/
  sinksAt : Option Nat := none
  /-- Tiles under test in the open window, the tick at which it opened, and tiles whose run another check has voided
  (R337, R349). -/
  window : List Nat := []
  windowAt : Nat := 0
  voided : List Nat := []
  /-- Known-answer runs that have ended in the window: the tile, and whether it failed (R335). -/
  runs : List (Nat × Bool) := []
  /-- A mismatch under attribution: the tile, its partner, and those of them that failed (R344). -/
  attribution : Option (Nat × Nat × List Nat) := none
  /-- Checks found while their tile was in TEST, recorded when the window closes (R349). -/
  afterWindow : List (Nat × Nat) := []
  /-- Per tile, ticks of the INTEGRITY faults that kept it in service (R334). -/
  faults : Table (List Nat) := []
  /-- Weight digest rounds (R345): the tick at which the last round began, the ranges each tile has compared in it, and
  the tick of each tile's last round that matched. -/
  roundAt : Option Nat := none
  compared : Table (List Nat) := []
  late : List Nat := []
  matched : Table Nat := []
  deriving DecidableEq, Repr


/-- The state of the device. -/
structure State where
  /-- The commands that wait, first in first out. -/
  pending : List Instr := []
  /-- The model's own counter, by which each free value is taken once. -/
  free : Nat := 0
  /-- The last answer at the boundary. -/
  answer : Answer := .none
  /-- The reference DEVTIME count in ticks (R421). -/
  devtime : Nat := 0
  /-- The register file, keyed by BAR0 offset; a register not listed holds its reset value. -/
  regs : Table Reg := []
  /-- HBM, keyed by physical address; a byte not listed is zero (R275). -/
  hbm : List Host.Cell := []
  hbmState : HbmState := {}
  log : LogState := {}
  tiles : Table TileState := []
  req : ReqState := {}
  net : NetState := {}
  /-- Link ports, by link index. -/
  links : Table LinkRun := []
  integ : IntegState := {}
  own : OwnState := {}
  power : PowerState := {}
  control : ControlState := {}
  clock : ClockState := {}
  boot : BootState := {}
  life : LifeState := {}
  svc : SvcState := {}
  nvm : NvmState := {}
  /-- SPDM connections: 0 DOE on HA, 1 DOE on HB, 2 SVC. -/
  spdm : Table SpdmConn := []
  i3c : I3cState := {}
  host : HostState := {}
  deriving DecidableEq, Repr

/-- The state right after a power-on reset: every register at its reset value, nothing in memory, the device in
SPRING with the supervisor released. -/
def State.reset : State := {}

end Sys2Proof.Machine
end

