-- ==== Sys2Proof/Machine/Ops.lean ====
section
/-! DEFINITION. The operations that the commands share: register and memory access, time, the error log and what it
reports to the hosts, the service port and I3C. -/

namespace Sys2Proof.Machine

open Sys2Proof

/-! ### Registers -/

/-- The contents of a register. -/
def rd (s : State) (off : Nat) : Reg := tget regReset s.regs off

/-- Replace the contents of a register. -/
def put (off : Nat) (v : Reg) (s : State) : State := { s with regs := tset regReset off v s.regs }

/-- A field of a register's contents. -/
def getF (v : Reg) (f : Fld) : Nat := bits v.toNat f.lo f.w

/-- A register's contents with one field replaced; the value is cut to the field's width. -/
def setF (v : Reg) (f : Fld) (x : Nat) : Reg :=
  (v &&& ~~~(BitVec.ofNat 64 ((2 ^ f.w - 1) <<< f.lo))) ||| BitVec.ofNat 64 ((x % 2 ^ f.w) <<< f.lo)

/-- A field of a register. -/
def get (s : State) (off : Nat) (f : Fld) : Nat := getF (rd s off) f

/-- Set a field of a register. -/
def upd (off : Nat) (f : Fld) (x : Nat) (s : State) : State := put off (setF (rd s off) f x) s

/-- Raise a counter field by `n`, saturating at the field's highest value. -/
def satAdd (off : Nat) (f : Fld) (n : Nat) (s : State) : State :=
  upd off f (min (2 ^ f.w - 1) (get s off f + n)) s

/-- Raise a 64-bit counter register by `n`, wrapping. -/
def addR (off n : Nat) (s : State) : State := put off (rd s off + BitVec.ofNat 64 n) s

/-- Lower a 64-bit counter register by `n`. -/
def subR (off n : Nat) (s : State) : State := put off (rd s off - BitVec.ofNat 64 n) s

/-- Give the registers whose offsets meet `p` their reset values; the ROS fields keep theirs unless `all` (R20). -/
def resetRegs (p : Nat → Bool) (all : Bool) (s : State) : State :=
  { s with regs := if all then tdrop p s.regs
      else tmap regReset p (fun off v => (v &&& rosMask off) ||| (regReset off &&& ~~~(rosMask off))) s.regs }

/-! ### HBM contents -/

/-- What an unlisted byte of HBM reads as (R275). -/
def hbmDefault (_ : Nat) : Byte := 0

/-- The canonical form of a memory. -/
def Memory.wf (m : List Host.Cell) : Bool := twf hbmDefault m

/-- One byte of HBM. -/
def hbmByte (s : State) (a : Nat) : Byte := tget hbmDefault s.hbm a

/-- `n` bytes of HBM from an address. -/
def hbmRead (s : State) (a : Nat) : Nat → List Byte
  | 0 => []
  | n + 1 => hbmByte s a :: hbmRead s (a + 1) n

/-- Store bytes at an address of a memory. -/
def storeBytes (a : Nat) : List Byte → List Host.Cell → List Host.Cell
  | [], m => m
  | b :: r, m => storeBytes (a + 1) r (tset hbmDefault a b m)

/-- Store bytes in HBM. -/
def hbmWrite (a : Nat) (bs : List Byte) (s : State) : State := { s with hbm := storeBytes a bs s.hbm }

/-- A little-endian number of `n` bytes in HBM. -/
def hbmNat (s : State) (a n : Nat) : Nat := fromBytes (hbmRead s a n)

/-! ### Time -/

/-- Ticks of DEVTIME in a µs, a ms and a second (R15). -/
def usTicks : Nat := 940
def msTicks : Nat := 940000
def secTicks : Nat := 940000000
def dayTicks : Nat := 86400 * 940000000

/-- Take a free value: the model's counter advances. -/
def freeNat (w : Nat) (s : State) : Nat × State :=
  ((Config.freeValue w s.free).toNat, { s with free := s.free + 1 })

/-! ### Masters, heads, device state -/

/-- The number of a head: 0 HA, 1 HB. -/
def hnum : Head → Nat
  | .ha => 0
  | .hb => 1

/-- The other head. -/
def hother : Head → Head
  | .ha => .hb
  | .hb => .ha

/-- The code of a master: 0 HA, 1 HB, 2 SVC (R568), and 3 device firmware, to which R568 gives no code (DESIGN CHOICE). -/
def mcode : Master → Nat
  | .ha => 0
  | .hb => 1
  | .svc => 2
  | .fw => 3

/-- The head through which a master acts. -/
def masterHead : Master → Option Head
  | .ha => some .ha
  | .hb => some .hb
  | _ => none

/-- The master bound to a head. -/
def headMaster : Head → Master
  | .ha => .ha
  | .hb => .hb

/-- The states of the device (R10). -/
inductive DevState where
  | cold | spring | summer | autumn | winter
  deriving DecidableEq, Repr

/-- The device's state: COLD while its converters are stopped, otherwise PWR_STATE.STATE (R403). -/
def devState (s : State) : DevState :=
  if s.power.off.isSome then .cold
  else match get s pwrState PwrState.state with
    | 2 => .summer
    | 3 => .autumn
    | 4 => .winter
    | _ => .spring

/-- Whether the device runs work: SUMMER or AUTUMN. -/
def running (s : State) : Bool := devState s = .summer || devState s = .autumn

/-- Perform a command's effect, unless the converters are stopped: an unpowered device does nothing (R10, R358). -/
def powered (f : State → State) (s : State) : State := if s.power.off.isSome then s else f s

/-! ### What is reported to the hosts, the service client and the tray controller -/

/-- Send a head's MSI-X message for a vector, or set its pending bit while the vector is masked (R320). -/
def signalVector (h v : Nat) (s : State) : State :=
  if get s (msixData h v) MsixData.mask = 1 then
    put (msixPba h (v / 64)) (rd s (msixPba h (v / 64)) ||| BitVec.ofNat 64 (1 <<< (v % 64))) s
  else
    let n := tget (fun _ => 0) s.host.msix (65 * h + v) + 1
    { s with host := { s.host with msix := tset (fun _ => 0) (65 * h + v) n s.host.msix } }

/-- Set a status bit of a head's QUE_EVENT; when it becomes 1 with its enable set, vector 64 is signalled (R320). -/
def raiseEvent (h : Nat) (bit : Nat) (s : State) : State :=
  let v := (rd s (queEvent h)).toNat
  if bit1 v bit then s
  else
    let s := put (queEvent h) (BitVec.ofNat 64 (v ||| (1 <<< bit))) s
    if bit1 v (8 + bit) then signalVector h 64 s else s

/-- Set a status bit of QUE_EVENT on both heads. -/
def raiseBoth (bit : Nat) (s : State) : State := raiseEvent 1 bit (raiseEvent 0 bit s)

/-- The status bits of QUE_EVENT. -/
def evOwner : Nat := 0
def evLeaseLow : Nat := 1
def evState : Nat := 2
def evLog : Nat := 3
def evDbErr : Nat := 4
def evCqHeld : Nat := 5

/-- Queue an EVENT message for the service client; at most 16 are held unacknowledged (R475). -/
def svcEvent (k : SvcEventKind) (s : State) : State :=
  match s.svc.key with
  | none => s
  | some _ =>
    if s.svc.events.length < 16 then
      { s with svc := { s.svc with
        events := s.svc.events ++ [{ seq := s.svc.eventSeq, kind := k, time := s.devtime, sent := s.devtime }]
        eventSeq := s.svc.eventSeq + 1 } }
    else s

/-- Note an in-band interrupt of the I3C target; those that wait fold into the highest data byte (R557). -/
def i3cRaise (byte : Nat) (s : State) : State :=
  { s with i3c := { s.i3c with ibi := some (max byte (s.i3c.ibi.getD 0)), alert := true } }

/-! ### The error log (R518–R523) -/

/-- An event for the error log. -/
structure LogEv where
  sev : Nat
  kind : Nat
  block : Nat
  source : Nat := 0x690
  code : Nat
  object : Nat := 0
  detail : Nat := 0
  deriving DecidableEq, Repr

/-- Severity classes (R518). -/
def sevInfo : Nat := 1
def sevNotice : Nat := 2
def sevDegrade : Nat := 3
def sevError : Nat := 4
def sevFatal : Nat := 5

/-- KIND codes of an entry (R519). -/
def kState : Nat := 0
def kFault : Nat := 1
def kCorrected : Nat := 2
def kRefused : Nat := 3
def kAccess : Nat := 4
def kConfig : Nat := 5
def kRepair : Nat := 6
def kReset : Nat := 7
def kLedger : Nat := 8

/-- BLOCK codes of an entry (R519). -/
def bSup : Nat := 0
def bOwn : Nat := 1
def bQue : Nat := 2
def bPwr : Nat := 3
def bClk : Nat := 4
def bTim : Nat := 5
def bInt : Nat := 6
def bLnk : Nat := 7
def bCon : Nat := 8
def bLat : Nat := 9
def bHbm : Nat := 10
def bFld : Nat := 11
def bTil : Nat := 12
def bNvm : Nat := 13
def bLed : Nat := 14
def bLif : Nat := 15

/-- Whether a held entry takes an INFO or NOTICE event in as a repeat (R520). -/
def foldsInto (now : Nat) (e : LogEv) (x : LogEntry) : Bool :=
  e.sev ≤ sevNotice && (now ≤ x.time + secTicks &&
    (x.object == e.object && (x.block == e.block && (x.kind == e.kind && (x.source == e.source && x.code == e.code % 65536)))))

/-- Raise REPEAT of the first held entry that takes the event in; `none` when no entry does. -/
def foldIn (now : Nat) (e : LogEv) : List LogEntry → Option (List LogEntry)
  | [] => none
  | x :: r =>
    if foldsInto now e x then some ({ x with rep := min 65535 (x.rep + 1) } :: r)
    else (foldIn now e r).map (x :: ·)

/-- The ring's size (R521). -/
def logRing : Nat := 8192

/-- Remove the oldest held entry of the lowest class below `limit`; `none` when no held entry is below it. -/
def logEvict (limit : Nat) (l : List LogEntry) : Option (List LogEntry) :=
  let low := minOr 9 (l.map (·.sev))
  if low < limit then
    match findIdxFrom (fun x => x.sev == low) 0 l with
    | some (i, _) => some (eraseAt i l)
    | none => none
  else none

/-- Remove the oldest held ERROR entry. -/
def logEvictError (l : List LogEntry) : Option (List LogEntry) :=
  match findIdxFrom (fun x => x.sev == sevError) 0 l with
  | some (i, _) => some (eraseAt i l)
  | none => none

/-- Place a new entry in the ring, giving way as R522 states when it is full; also whether an entry was lost. -/
def logPlace (x : LogEntry) (l : List LogEntry) : List LogEntry × Bool :=
  if l.length < logRing then (l ++ [x], false)
  else if x.sev < sevError then
    match logEvict x.sev l with
    | some l' => (l' ++ [x], true)
    | none => (l, true)
  else
    match logEvict sevError l with
    | some l' => (l' ++ [x], true)
    | none =>
      match logEvictError l with
      | some l' => (l' ++ [x], true)
      | none => (l, true)

/-- Append an entry to one CXL event log of a head, which keeps the last 256 (R523). -/
def cxlAppend (key : Nat) (x : LogEntry) (s : State) : State :=
  let c := tget (fun _ => {}) s.log.cxl key
  let c' : CxlEvents :=
    if c.entries.length < 256 then { c with entries := c.entries ++ [x] }
    else { entries := c.entries.drop 1 ++ [x], overflow := true, lost := c.lost + 1 }
  { s with log := { s.log with cxl := tset (fun _ => {}) key c' s.log.cxl } }

/-- Report an entry with HOST = 1: the CXL event logs of both heads, LOG_ENTRY, and an EVENT message (R523). -/
def logReport (x : LogEntry) (s : State) : State :=
  let s := if 2 ≤ x.sev then cxlAppend (4 + (x.sev - 2)) x (cxlAppend (x.sev - 2) x s) else s
  svcEvent .logEntry (raiseBoth evLog s)

/-- The entry that an event makes (R519). -/
def logEntryOf (e : LogEv) (seq now : Nat) (host : Bool) : LogEntry where
  seq := seq
  time := now
  sev := e.sev
  host := host
  kind := e.kind
  block := e.block
  source := e.source
  code := e.code % 65536
  rep := 0
  object := e.object
  detail := e.detail

/-- Enter an event in the error log: fold it into a recent entry (R520) or make a new one (R519, R522), and report
it (R523, R557). -/
def logEvent (e : LogEv) (s : State) : State :=
  match foldIn s.devtime e s.log.held with
  | some l => { s with log := { s.log with held := l } }
  | none =>
    let seq := get s ledLogStat LedLogStat.nextSeq
    let minSev := max 1 (min 5 (get s ledLogCtrl LedLogCtrl.hostMin))
    let x := logEntryOf e seq s.devtime (decide (minSev ≤ e.sev))
    let p := logPlace x s.log.held
    let s := upd ledLogStat LedLogStat.nextSeq (seq + 1) { s with log := { s.log with held := p.1 } }
    let s := upd ledLogStat LedLogStat.unwritten p.1.length s
    let s := if p.2 then satAdd ledLogStat LedLogStat.dropped 1 s else s
    let s := if x.host then logReport x s else s
    if sevDegrade ≤ e.sev then i3cRaise e.sev s else s

/-- Endpoint ID of the block that reports an event, by the rule that makes it and its OBJECT (R239, R519): a tile, a slice (a
stack's first for the stack), a link port, a head, a barrier unit or an endpoint whose answer is missing for itself, a field
controller for its field, the field's count and its clusters; the supervisor for the rest. DEDUCED. -/
def eventSource (block rule event object : Nat) : Nat :=
  if block = bLnk then 0x600 + object % 96
  else if block = bTil ∨ block = bInt then object
  else if block = bHbm then 0x300 + (if rule = 268 then 32 * (object % 24) else object % 768)
  else if block = bQue ∧ (rule = 314 ∨ rule = 321) then 0x691 + object % 2
  else if rule = 253 then 0x6A0 + object % 12
  else if rule = 249 ∧ event = 2 then object
  else if rule = 422 ∨ (rule = 360 ∨ rule = 361) then 0x680 + object % 12
  else if (rule = 368 ∨ rule = 369) ∨ ((rule = 372 ∨ rule = 395) ∨ (rule = 415 ∧ event = 0)) then 0x680 + object / 20 % 12
  else 0x690

/-- An event with a CODE of the owning chapter and no named DETAIL: the DETAIL is the implementation's (R519). -/
def logCoded (sev kind block rule event code object : Nat) (s : State) : State :=
  logEvent ⟨sev, kind, block, eventSource block rule event object, code, object, Config.logDetail rule event⟩ s

/-- An event whose CODE and DETAIL the owning chapter does not define: they are the implementation's (R519). -/
def logOpen (sev kind block rule event object : Nat) (s : State) : State :=
  logCoded sev kind block rule event (Config.logCode rule event) object s

/-- CODE values of ACCESS entries (R568). -/
def accError : Nat := 1
def accDenied : Nat := 2
def accHalf : Nat := 3
def accRefused : Nat := 4

/-- The code of an access width: 0 for 32 bits, 1 for 64 bits, 2 for any other (R568). -/
def widthCode (width : Nat) : Nat := if width = 32 then 0 else if width = 64 then 1 else 2

/-- The block whose register stands at an offset, by the prefix of its name (R519, R530). -/
def blockOf (off : Nat) : Nat :=
  if off < 0x3000 then off / 0x1000 + (if off < 0x2000 then 0 else 1)
  else if off < 0x4000 then (if 0x3010 ≤ off ∧ off < 0x3100 then bTim else bClk)
  else if off < 0x5000 then bInt
  else if off < 0x6000 then bLnk
  else if off < 0x7000 then bCon
  else if off < 0x8000 then bHbm
  else if off < 0x9000 then bNvm
  else if off < 0xA000 then bLed
  else if off < 0xB000 then bLif
  else if off < 0xC000 then bHbm
  else if off < 0xE000 then bCon
  else if off < 0xF000 then bFld
  else if off < 0x10000 then bQue
  else if off < 0x20000 then
    (if off % 0x20 < 0x14 then bPwr else if off % 0x20 < 0x18 then bClk else bCon)
  else if off < 0x30000 then
    (if off % 0x1000 < 0x14 then bPwr else if off % 0x1000 < 0x18 then bTim
     else if off % 0x1000 = 0x30 then bLnk else bFld)
  else if off < 0x800000 then bLnk
  else if off < 0x1000000 then (if off % 0x40000 = 0x610 then bOwn else bQue)
  else if off % 0x8000 = 0x28 then bInt
  else if off % 0x8000 = 0x30 ∨ off % 0x8000 = 0x38 ∨ (0x1000 ≤ off % 0x8000 ∧ off % 0x8000 < 0x2000) then bLat
  else bTil

/-- The DETAIL of an ACCESS entry: the offset, the width's code and the direction (R568). -/
def accDetail (off width : Nat) (write : Bool) : Nat :=
  off % 2 ^ 26 + widthCode width * 2 ^ 32 + b2n write * 2 ^ 34

/-- Enter an ACCESS entry (R568). -/
def logAccess (code : Nat) (m : Master) (off width : Nat) (write : Bool) (s : State) : State :=
  logEvent ⟨sevNotice, kAccess, blockOf off, 0x690, code, mcode m, accDetail off width write⟩ s

/-- Change the device state: PWR_STATE, STATE_CHANGE on both heads, an EVENT message and a log entry (R320, R475,
R518), with the spans in SUMMER or AUTUMN that a firmware trial judges (R485, R486). -/
def setDevState (v : Nat) (s : State) : State :=
  if get s pwrState PwrState.state = v then s
  else
    let runs := decide (v = 2) || decide (v = 3)
    let since := if runs then some (s.nvm.runSince.getD s.devtime) else none
    let first := if runs then some (s.nvm.firstRun.getD s.devtime) else s.nvm.firstRun
    let s := { s with nvm := { s.nvm with runSince := since, firstRun := first } }
    let s := upd pwrState PwrState.state v s
    let s := svcEvent .stateChange (raiseBoth evState s)
    logOpen (if v = 3 ∨ v = 4 then sevDegrade else sevNotice) kState bPwr 398 v 0 s

end Sys2Proof.Machine
end

