-- ==== Sys2Proof/Machine/Sites.lean ====
section
/-! DEFINITION. Places on the die: fields, sites, clusters, routers, links and stacks (R5–R9, R29, R30, R231), the map
of logical tiles, and which domains are off (R537). -/

namespace Sys2Proof.Machine

open Sys2Proof

/-! ### Geometry -/

/-- Site number 80f + 8y + x (R431). -/
def siteNum (f x y : Nat) : Nat := 80 * f + 8 * y + x

/-- Field of a site number. -/
def siteField (n : Nat) : Nat := n / 80

/-- Column x of a site number. -/
def siteX (n : Nat) : Nat := n % 80 % 8

/-- Row y of a site number. -/
def siteY (n : Nat) : Nat := n % 80 / 8

/-- Device cluster index g of a site number (R7). -/
def siteCluster (n : Nat) : Nat := 20 * siteField n + (siteY n / 2) * 4 + siteX n / 2

/-- Field of a cluster. -/
def clusterField (g : Nat) : Nat := g / 20

/-- The four sites of a cluster, in ascending order. -/
def clusterSites (g : Nat) : List Nat :=
  let n := siteNum (g / 20) (2 * (g % 20 % 4)) (2 * (g % 20 / 4))
  [n, n + 1, n + 8, n + 9]

/-- Clusters of a field. -/
def fieldClusters (f : Nat) : List Nat := (List.range 20).map (20 * f + ·)

/-- Sites of a field. -/
def fieldSites (f : Nat) : List Nat := (List.range 80).map (80 * f + ·)

/-- Clusters adjacent to a cluster: the neighbours c − 4, c + 4, c − 1 and c + 1 in its field's 4 × 5 grid (R372). -/
def clusterNeighbours (g : Nat) : List Nat :=
  let f := g / 20
  let c := g % 20
  let up := if 4 ≤ c then [20 * f + c - 4] else []
  let dn := if c + 4 < 20 then [20 * f + c + 4] else []
  let lf := if 0 < c % 4 then [20 * f + c - 1] else []
  let rt := if c % 4 < 3 then [20 * f + c + 1] else []
  up ++ dn ++ lf ++ rt

/-- Field that carries a link port (R29). -/
def linkField (n : Nat) : Nat :=
  let k := n % 24
  match n / 24 with
  | 0 => k / 6
  | 1 => if k < 8 then 3 else if k < 16 then 7 else 11
  | 2 => 8 + k / 6
  | _ => if k < 8 then 0 else if k < 16 then 4 else 8

/-- Links that a field carries. -/
def fieldLinks (f : Nat) : List Nat := (List.range 96).filter fun n => linkField n == f

/-- Field that serves a stack (R30). -/
def stackField (k : Nat) : Nat :=
  if k < 3 then 0 else if k < 5 then 1 else if k < 7 then 2 else if k < 10 then 3 else if k < 12 then 4
  else if k < 14 then 7 else if k < 17 then 8 else if k < 19 then 9 else if k < 21 then 10 else 11

/-- Field that serves a slice: its stack is slice div 32 (R30). -/
def sliceField (n : Nat) : Nat := stackField (n / 32)

/-! ### Endpoint IDs (R239) -/

def epSlice (n : Nat) : Nat := 0x300 + n
def epLink (n : Nat) : Nat := 0x600 + n
def epField (f : Nat) : Nat := 0x680 + f
def epSup : Nat := 0x690
def epHead (h : Nat) : Nat := 0x691 + h
def epBarrier (u : Nat) : Nat := 0x6A0 + u

/-! ### The map (R430–R433) -/

/-- Status codes of R430. -/
def stFused : Nat := 0
def stLogical : Nat := 1
def stStandby : Nat := 2
def stDormant : Nat := 3
def stFailed : Nat := 4
def stCooling : Nat := 5

/-- The status byte of a site in the build of R433 from 80 good sites per field. -/
def siteDefault (n : Nat) : Byte :=
  if 960 ≤ n then 0 else if n % 80 < 64 then 1 else if n % 80 < 72 then 2 else 3

/-- The site of a logical tile in that build. -/
def logicalDefault (l : Nat) : Nat := if l < 768 then 80 * (l / 64) + l % 64 else 0xFFFF

/-- Status byte of a site in a map record. -/
def mapByte (m : MapRecord) (n : Nat) : Byte := tget siteDefault m.sites n

/-- Status of a site. -/
def mapStatus (m : MapRecord) (n : Nat) : Nat := bits (mapByte m n).toNat 0 3

/-- FAILS of a site. -/
def mapFails (m : MapRecord) (n : Nat) : Nat := bits (mapByte m n).toNat 3 2

/-- CAUSE of a site. -/
def mapCause (m : MapRecord) (n : Nat) : Nat := bits (mapByte m n).toNat 5 3

/-- Give a site a status, keeping FAILS and CAUSE. -/
def mapSetStatus (n st : Nat) (m : MapRecord) : MapRecord :=
  { m with sites := tset siteDefault n (BitVec.ofNat 8 ((mapByte m n).toNat / 8 * 8 + st)) m.sites }

/-- Make a site FAILED with a cause; FAILS rises by one, saturating at 3 (R432). -/
def mapFail (n cause : Nat) (m : MapRecord) : MapRecord :=
  { m with sites := tset siteDefault n (BitVec.ofNat 8 (stFailed + min 3 (mapFails m n + 1) * 8 + cause * 32)) m.sites }

/-- Make a site DORMANT with a cause (R449). -/
def mapDormant (n cause : Nat) (m : MapRecord) : MapRecord :=
  { m with sites := tset siteDefault n (BitVec.ofNat 8 (stDormant + mapFails m n * 8 + cause * 32)) m.sites }

/-- Site of a logical tile in a map record; 0xFFFF beyond the tile count. -/
def mapSite (m : MapRecord) (l : Nat) : Nat := tget logicalDefault m.logical l

/-- Put a logical tile on a site. -/
def mapPlace (l n : Nat) (m : MapRecord) : MapRecord :=
  { m with logical := tset logicalDefault l n m.logical }

/-- The field byte of a field (R432). -/
def mapField (m : MapRecord) (f : Nat) : Nat := tget (fun _ => 0) m.fields f

/-- Set the field byte of a field. -/
def mapSetField (f v : Nat) (m : MapRecord) : MapRecord :=
  { m with fields := tset (fun _ => 0) f v m.fields }

/-- The map in force. -/
def siteOf (s : State) (t : Nat) : Nat := mapSite s.boot.map t

/-- Status of a site in the map in force. -/
def siteStatus (s : State) (n : Nat) : Nat := mapStatus s.boot.map n

/-- Whether a field is live in the map in force. -/
def fieldLive (s : State) (f : Nat) : Bool := bit1 s.boot.map.live f

/-- The live fields in index order. -/
def liveFields (s : State) : List Nat := (List.range 12).filter (fieldLive s)

/-- Logical tile count: 64 per live field (R9, R451). -/
def tileCount (s : State) : Nat := 64 * (liveFields s).length

/-- The device is in the 11-field state (R450). -/
def degraded (s : State) : Bool := (liveFields s).length < 12

/-- The field that holds a logical tile (R9, R451). -/
def tileField (s : State) (t : Nat) : Nat := siteField (siteOf s t)

/-- The cluster that holds a logical tile. -/
def tileCluster (s : State) (t : Nat) : Nat := siteCluster (siteOf s t)

/-- The logical tile on a site, if the map holds one. -/
def tileAt (s : State) (n : Nat) : Option Nat :=
  ((List.range (tileCount s)).find? fun t => siteOf s t == n)

/-- The logical tiles of a cluster. -/
def clusterTiles (s : State) (g : Nat) : List Nat := (clusterSites g).filterMap (tileAt s)

/-- The logical tiles of a field. -/
def fieldTiles (s : State) (f : Nat) : List Nat :=
  (List.range (tileCount s)).filter fun t => siteField (siteOf s t) == f

/-- Sites of a field that hold a status. -/
def sitesWith (m : MapRecord) (f st : Nat) : List Nat := (fieldSites f).filter fun n => mapStatus m n == st

/-- Good sites of a field (R430). -/
def goodSites (m : MapRecord) (f : Nat) : List Nat :=
  (fieldSites f).filter fun n => mapStatus m n == stLogical || (mapStatus m n == stStandby || mapStatus m n == stDormant)

/-- The DEVTIME count of a field, which what the field keeps reads: the reference count and what the field's own stands off
from it (R421). -/
def fieldTime (s : State) (f : Nat) : Nat := ((s.devtime : Int) + tget (fun _ => 0) s.clock.offset f).toNat

/-! ### Domains that are off (R537) -/

/-- A field's fabric domain is off or in reset. -/
def fabricOff (s : State) (f : Nat) : Bool :=
  s.boot.fabricReset || (!fieldLive s f || get s (pwrFieldStat f) PwrFieldStat.state == 2)

/-- A site's logic is switched off, or compute is in reset (R26, R310). -/
def siteOff (s : State) (n : Nat) : Bool :=
  !(s.power.siteOn.contains n) || devState s == .winter

/-- A tile's cluster-domain registers cannot be reached. -/
def tileOff (s : State) (t : Nat) : Bool := decide (tileCount s ≤ t) || siteOff s (siteOf s t)

/-- A head's host-port domain is off (R375). -/
def headOff (s : State) (h : Nat) : Bool :=
  get s pwrAuxStat (if h = 0 then PwrAuxStat.haDown else PwrAuxStat.hbDown) == 1

/-- Whether the register at an offset reads all ones and takes no write, its domain being off or in reset. -/
def regOff (s : State) (off : Nat) : Bool :=
  match regAt off with
  | none => false
  | some d =>
    match d.group with
    | .tileC => tileOff s ((off - 0x1000000) / 0x8000)
    | .tileFa | .tileFC =>
      let t := (off - 0x1000000) / 0x8000
      decide (tileCount s ≤ t) || fabricOff s (tileField s t)
    | .clusterFab => fabricOff s (clusterField ((off - 0x10000) / 0x20))
    | .fieldFab => fabricOff s ((off - 0x20000) / 0x1000)
    | .head => headOff s ((off - 0x800000) / 0x40000)
    | .sup | .link => false

end Sys2Proof.Machine
end

