-- ==== Sys2Proof/Machine/Layouts.lean ====
section
/-! DEFINITION. The records of the configuration store as bytes, and which stored copies are valid (R273, R432, R446, R447, R461,
R462, R465, R483, R521). -/

namespace Sys2Proof.Machine

open Sys2Proof

/-! ### The common head (R462) -/

/-- A record's bytes with a range of them zero. -/
def zeroed (bs : List Byte) (off n : Nat) : List Byte := bs.take off ++ List.replicate n 0 ++ bs.drop (off + n)

/-- The first 28 bytes of a record: MAGIC, VERSION 1, two bytes of its own, the ordering number, a time, and four bytes of its
own. -/
def recordHead (magic own seq time own2 : Nat) : List Byte :=
  toBytes 4 magic ++ toBytes 2 1 ++ toBytes 2 own ++ toBytes 4 seq ++ toBytes 8 time ++ toBytes 4 own2 ++ toBytes 4 0

/-- A record: its head, the CRC-32 over all bytes with the CRC's place zero, and its body. -/
def sealRecord (head body : List Byte) : List Byte := head ++ toBytes 4 (crc32 (head ++ toBytes 4 0 ++ body)) ++ body

/-- Whether a stored copy is valid: its MAGIC is the kind's, its version is supported, and its CRC is correct. -/
def recordOk (magic : Nat) (bs : List Byte) : Bool :=
  fieldAt bs 0 4 == magic && (fieldAt bs 4 2 == 1 && fieldAt bs 28 4 == crc32 (zeroed bs 28 4))

/-! ### The kinds -/

/-- A map record (R432). -/
def mapRecBytes (m : MapRecord) : List Byte :=
  sealRecord (recordHead 0x50414D4C m.live m.seq m.time m.remapId)
    ((List.range 960).map (tget siteDefault m.sites) ++
      (List.range 768).flatMap (fun l => toBytes 2 (tget logicalDefault m.logical l)) ++
      (List.range 12).flatMap (fun f => toBytes 1 (tget (fun _ => 0) m.fields f)) ++ List.replicate 20 0)

/-- The map record that bytes hold. -/
def mapRecOf (bs : List Byte) : MapRecord where
  live := fieldAt bs 6 2
  seq := fieldAt bs 8 4
  time := fieldAt bs 12 8
  remapId := fieldAt bs 20 4
  sites := (List.range 960).foldl (fun t n => tset siteDefault n (BitVec.ofNat 8 (fieldAt bs (32 + n) 1)) t) []
  logical := (List.range 768).foldl (fun t l => tset logicalDefault l (fieldAt bs (992 + 2 * l) 2) t) []
  fields := (List.range 12).foldl (fun t f => tset (fun _ => 0) f (fieldAt bs (2528 + f) 1) t) []

/-- A remap journal record (R447). -/
def journalBytes (r : JournalRec) : List Byte :=
  let entry (e : RemapEntry) : Nat := e.tile % 2 ^ 10 + e.old % 2 ^ 10 * 2 ^ 16 + e.new % 2 ^ 10 * 2 ^ 32 + e.cause % 8 * 2 ^ 48
  let es := r.entries.flatMap fun e => toBytes 8 (entry e)
  sealRecord (recordHead 0x4E524A52 (r.kind + r.entries.length * 256) r.id r.time r.mapSeq)
    ((es ++ List.replicate 32 0).take 32 ++ List.replicate 64 0)

/-- The journal record that bytes hold. -/
def journalOf (bs : List Byte) : JournalRec where
  kind := fieldAt bs 6 1
  id := fieldAt bs 8 4
  time := fieldAt bs 12 8
  mapSeq := fieldAt bs 20 4
  entries := (List.range (min 4 (fieldAt bs 7 1))).map fun i =>
    let e := fieldAt bs (32 + 8 * i) 8
    { tile := bits e 0 10, old := bits e 16 10, new := bits e 32 10, cause := bits e 48 3 }

/-- A retirement record (R273). -/
def retireRecBytes (r : RetireRecord) : List Byte :=
  sealRecord (recordHead 0x54524248 0 r.seq r.time 0)
    ((List.range 768).flatMap fun n => toBytes 1 (tget (fun _ => 0) r.slices n))

/-- The retirement record that bytes hold. -/
def retireRecOf (bs : List Byte) : RetireRecord where
  seq := fieldAt bs 8 4
  time := fieldAt bs 12 8
  slices := (List.range 768).foldl (fun t n => tset (fun _ => 0) n (fieldAt bs (32 + n) 1) t) []

/-- A boot record (R483). -/
def bootRecBytes (r : BootRec) : List Byte :=
  sealRecord (recordHead 0x544F4F42 (r.kind + r.active * 256) r.seq r.time
      (r.target + r.tboots * 2 ^ 8 + r.trialMin * 2 ^ 16 + r.reason * 2 ^ 24))
    ((r.mdigest ++ List.replicate 64 0).take 64 ++ List.replicate 32 0)

/-- The boot record that bytes hold. -/
def bootRecOf (bs : List Byte) : BootRec where
  kind := fieldAt bs 6 1
  active := fieldAt bs 7 1
  seq := fieldAt bs 8 4
  time := fieldAt bs 12 8
  target := fieldAt bs 20 1
  tboots := fieldAt bs 21 1
  trialMin := fieldAt bs 22 1
  reason := fieldAt bs 23 1
  mdigest := (bs.drop 32).take 64

/-- SEQ of a configuration record in the store; 0 where there is none. -/
def storedSeq : Option CfgRec → Nat
  | some .factory => fieldAt Config.factoryRecord 8 4
  | some (.record bs) => fieldAt bs 8 4
  | none => 0

/-- The device record that the store's state makes (R465). -/
def deviceRecBytes (n : NvmState) : List Byte :=
  let head := toBytes 4 0x52564544 ++ toBytes 2 1 ++ toBytes 2 0 ++ toBytes 4 n.devSeq ++ toBytes 8 n.devTime ++ toBytes 4 n.boots
    ++ toBytes 1 (n.lastKind % 8 + n.lastCause % 16 * 8) ++ toBytes 1 n.select ++ toBytes 1 (b2n n.operator) ++ toBytes 1 0
  sealRecord head (toBytes 4 (storedSeq (some n.cfg)) ++ toBytes 4 (storedSeq n.prev) ++ List.replicate 24 0)

/-- The device header of NVM-A or NVM-B, written at manufacture (R461). -/
def headerBytes (b : Bool) : List Byte := toBytes 4 0x564E5946 ++ toBytes 1 (b2n b) ++ toBytes 2 1

/-- A byte of a device's header. -/
def headerByte (b : Bool) (off : Nat) : Byte := ((headerBytes b)[off]?).getD (Config.headerByte b off)

/-- The copy of a certificate that a device's directory names: it starts at a multiple of 4096 from 0x1000 onward within the
header, and is at most 4 KiB (R503). -/
def certCopy (b : Bool) (entry : Nat) : Option (List Byte) :=
  let word (o : Nat) : Nat := fromBytes ((List.range 4).map fun i => headerByte b (o + i))
  let off := word (0x100 + 8 * entry)
  let len := word (0x104 + 8 * entry)
  if off % 4096 = 0 ∧ 0x1000 ≤ off ∧ len ≤ 4096 ∧ off + len ≤ 0x10000 then
    some ((List.range len).map fun i => headerByte b (off + i))
  else none

/-- Whether the certificate is that of the key of a number: its public part is the key's (R500). -/
def certPasses (key : Nat) (cert : List Byte) : Bool := Config.certKey cert == some (Config.publicKey key)

/-- A certificate, by its entry: the first copy that passes R500 for the entries that name a key, 2 the device identity and
3 + f field key f; for the root, the device CA and the factory configuration the first copy that is an RSA certificate (R503). -/
def certCopyUsed (entry : Nat) : Option (List Byte) :=
  ([false, true].filterMap fun b => certCopy b entry).find? fun c =>
    if 2 ≤ entry ∧ entry < 15 then certPasses (entry - 2) c else (Config.certKey c).isSome

/-- A certificate's bytes; none where no copy passes. -/
def certificate (entry : Nat) : List Byte := (certCopyUsed entry).getD []

/-- Whether the private key of a number passed the check of R500: 0 the device identity key, 1 + f field key f. -/
def keyOk (key : Nat) : Bool := (certCopyUsed (key + 2)).isSome

/-- The factory configuration key, by entry 15 (R466, R503). -/
def factoryKey : List Byte := (Config.certKey (certificate 15)).getD []

/-- A log page of at most seven entries, each of 32 bytes (R521). -/
def logPageBytes (entry : LogEntry → List Byte) (p : LogPage) : List Byte :=
  sealRecord (recordHead 0x474F4C45 p.entries.length p.seq p.time p.boots)
    ((p.entries.flatMap entry ++ List.replicate 224 0).take 224)

/-! ### Copies (R462) -/

/-- The bytes of a stored copy of a kind on a device, as they read back: `flips` names the bits that have been inverted. -/
def readBack (flips : List NvmFlip) (d : Bool) (kind : NvmRec) (back : Nat) (bs : List Byte) : List Byte :=
  (flips.filter fun f => f.onB == d && (f.kind == kind && f.back == back)).foldl (fun bs f =>
    bs.set f.byte (((bs[f.byte]?).getD 0) ^^^ BitVec.ofNat 8 f.mask)) bs

/-- The first valid copy of a record on a device in service. -/
def validCopy (s : State) (flips : List NvmFlip) (kind : NvmRec) (back magic : Nat) (bs : List Byte) : Option (List Byte) :=
  (([false, true].filter fun d => !s.nvm.failed.contains (b2n d)).map fun d => readBack flips d kind back bs).find? (recordOk magic)

end Sys2Proof.Machine
end

