-- ==== Sys2Proof/Machine/Ecc.lean ====
section
/-! DEFINITION. Reed-Solomon codes: arithmetic in GF(2^m), check symbols and syndromes, which HBM and the chip links share; and
the code of HBM, RS(36,32) over GF(2^8), its decoder, and what a burst's error pattern makes of the burst (R264). -/

namespace Sys2Proof.Machine

open Sys2Proof

/-! ### GF(2^m) -/

/-- A field GF(2^m): m, and its polynomial as a number. -/
structure Galois where
  width : Nat
  poly : Nat

/-- The field of the HBM code: GF(2^8) with polynomial 0x11D (R264). -/
def hbmField : Galois := { width := 8, poly := 0x11D }

/-- α times an element. -/
def gfDouble (f : Galois) (a : Nat) : Nat := if 2 ^ (f.width - 1) ≤ a then (2 * a) ^^^ f.poly else 2 * a

/-- The product of two elements, by the lowest `n` bits of the second. -/
def gfMulBits (f : Galois) : Nat → Nat → Nat → Nat
  | 0, _, _ => 0
  | n + 1, a, b => (if b % 2 = 1 then a else 0) ^^^ gfMulBits f n (gfDouble f a) (b / 2)

/-- The product of two elements. -/
def gfMul (f : Galois) (a b : Nat) : Nat := gfMulBits f f.width a b

/-- A power of an element. -/
def gfPow (f : Galois) (a : Nat) : Nat → Nat
  | 0 => 1
  | n + 1 => gfMul f a (gfPow f a n)

/-! ### The code -/

/-- A polynomial, highest power first, times a factor x + r. -/
def rsTimesRoot (f : Galois) (g : List Nat) (r : Nat) : List Nat :=
  List.zipWith (fun a b => a ^^^ gfMul f r b) (g ++ [0]) (0 :: g)

/-- The generator (x + 1)(x + α)(x + α^2)… of `n` check symbols, highest power first. -/
def rsGenerator (f : Galois) (n : Nat) : List Nat := (List.range n).foldl (fun g i => rsTimesRoot f g (gfPow f 2 i)) [1]

/-- One step of the division by g(x): the remainder so far, highest power first, and the next symbol. -/
def rsStep (f : Galois) (g : List Nat) (r : List Nat) (d : Nat) : List Nat :=
  let q := r.headD 0 ^^^ d
  List.zipWith (fun a b => a ^^^ gfMul f q b) (r.drop 1 ++ [0]) (g.drop 1)

/-- The `n` check symbols of data symbols: the remainder of the data part modulo the generator. -/
def rsChecks (f : Galois) (n : Nat) (ds : List Nat) : List Nat :=
  let g := rsGenerator f n
  ds.foldl (rsStep f g) (List.replicate n 0)

/-- The value of a word at a point, its first symbol the coefficient of the highest power. -/
def rsEval (f : Galois) (x : Nat) (cs : List Nat) : Nat := cs.foldl (fun v c => gfMul f v x ^^^ c) 0

/-- The syndromes of a received word of RS(36,32). -/
def rsSyndromes (cs : List Nat) : List Nat := (List.range 4).map fun j => rsEval hbmField (gfPow hbmField 2 j) cs

/-- What the decoder makes of a received word: no error, one symbol and what it is to be inverted by, or an error that it
detects and cannot correct. -/
inductive RsOutcome where
  | clean
  | corrected (symbol value : Nat)
  | detected
  deriving DecidableEq, Repr

/-- The decoder: an error of value e in symbol i has the syndromes e·α^(j(35−i)). -/
def rsDecode (cs : List Nat) : RsOutcome :=
  let y := rsSyndromes cs
  if y.all (· == 0) then .clean
  else
    let e := y.headD 0
    match (List.range 36).find? fun i => y == (List.range 4).map fun j => gfMul hbmField e (gfPow hbmField 2 (j * (35 - i))) with
    | some i => if e = 0 then .detected else .corrected i e
    | none => .detected

/-! ### Bursts -/

/-- The data symbols of a burst of 32 bytes: symbol i holds the 8 beats of DQ i, beat 0 in bit 0; beat b carries bytes 4b to
4b + 3. DESIGN CHOICE of the byte order within a beat. -/
def burstSymbols (bs : List Byte) : List Nat :=
  let v := fromBytes bs
  (List.range 32).map fun i => (List.range 8).foldl (fun a b => a + bits v (32 * b + i) 1 * 2 ^ b) 0

/-- The bytes that data symbols stand for. -/
def symbolsBurst (ss : List Nat) : List Byte :=
  (List.range 32).map fun k => BitVec.ofNat 8 ((List.range 8).foldl (fun a j =>
    a + bits ((ss[8 * (k % 4) + j]?).getD 0) (k / 4) 1 * 2 ^ j) 0)

/-- The codeword of a burst: its data symbols and its check symbols, which travel on the ECC pins. -/
def burstCodeword (bs : List Byte) : List Nat := burstSymbols bs ++ rsChecks hbmField 4 (burstSymbols bs)

/-- A word with symbols inverted by an error pattern. -/
def addErrors (cs : List Nat) (errs : Table Nat) : List Nat :=
  (List.range cs.length).map fun i => ((cs[i]?).getD 0) ^^^ (tget (fun _ => 0) errs i % 256)

/-- A burst as its controller receives it. -/
def receivedBurst (bs : List Byte) (e : BurstErr) : List Nat := addErrors (burstCodeword bs) e.syms

/-- What the decoder makes of a burst in error. -/
def burstOutcome (bs : List Byte) (e : BurstErr) : RsOutcome := rsDecode (receivedBurst bs e)

/-- The data that the decoder delivers of a received word. -/
def deliveredBurst (cs : List Nat) : RsOutcome → List Byte
  | .corrected i v => symbolsBurst ((addErrors cs [(i, v)]).take 32)
  | _ => symbolsBurst (cs.take 32)

end Sys2Proof.Machine
end

