-- ==== Sys2Proof/Machine/Ownership.lean ====
section
/-! DEFINITION. Masters and ownership (R323–R327): the acts of OWN_CMD, the lease, the claim window, and the judgment
of a write under R18 and R19. -/

namespace Sys2Proof.Machine

open Sys2Proof

/-- The owner, as OWN_STAT.OWNER codes it. -/
def owner (s : State) : Option Master :=
  match get s ownStat OwnStat.owner with
  | 0 => some .ha
  | 1 => some .hb
  | 2 => some .svc
  | _ => none

/-- Whether a master is present (R323). -/
def present (s : State) (m : Master) : Bool :=
  match m with
  | .ha => get s (queHeadStat 0) QueHeadStat.linkUp == 1
  | .hb => get s (queHeadStat 1) QueHeadStat.linkUp == 1
  | .svc => s.svc.key.isSome
  | .fw => false

/-- Whether the configuration makes a master eligible. -/
def eligible (s : State) (m : Master) : Bool :=
  match m with
  | .fw => false
  | m => bit1 (get s ownCfg OwnCfg.elig) (mcode m)

/-- The priority of a master; 0 is the highest. -/
def priority (s : State) (m : Master) : Nat :=
  match m with
  | .ha => get s ownCfg OwnCfg.prioHa
  | .hb => get s ownCfg OwnCfg.prioHb
  | .svc => get s ownCfg OwnCfg.prioSvc
  | .fw => 4

/-- Whether a claim window is open. -/
def windowOpen (s : State) : Bool := get s ownStat OwnStat.window == 1

/-- The present, eligible master of highest priority, as HOLDER codes it; 3 is none (R325). -/
def bestMaster (s : State) : Nat :=
  let c := [Master.ha, .hb, .svc].filter fun m => present s m && eligible s m
  match c with
  | [] => 3
  | m :: r => mcode (r.foldl (fun a b => if priority s b < priority s a then b else a) m)

/-- Determine the window's holder again, and PRESENT (R325). -/
def reholder (s : State) : State :=
  let p := b2n (present s .ha) + 2 * b2n (present s .hb) + 4 * b2n (present s .svc)
  let s := upd ownStat OwnStat.present p s
  upd ownStat OwnStat.holder (if windowOpen s then bestMaster s else 3) s

/-- States of a firmware slot (R495). -/
def fsEmpty : Nat := 0
def fsReceiving : Nat := 1
def fsStaged : Nat := 2
def fsArmed : Nat := 3
def fsTrial : Nat := 4
def fsActive : Nat := 5
def fsInvalid : Nat := 6
def fsUnavailable : Nat := 7

/-- State of a firmware slot. -/
def fwSlotSt (s : State) (i : Nat) : Nat := get s (nvmSlotStat i) NvmSlotStat.state

/-- Set a firmware slot's state and result. -/
def setFwSlot (i st result : Nat) (s : State) : State :=
  upd (nvmSlotStat i) NvmSlotStat.state st (upd (nvmSlotStat i) NvmSlotStat.result result s)

/-- A running upload ends without success: the slot becomes INVALID with a result, which is logged (R481). -/
def endUpload (result : Nat) (s : State) : State :=
  match s.nvm.upload with
  | none => s
  | some u =>
    let s := setFwSlot u.slot fsInvalid result { s with nvm := { s.nvm with upload := none } }
    logCoded sevNotice kConfig bNvm 481 result result u.slot (upd nvmUpdStat NvmUpdStat.uploading 0 s)

/-- PERMIT becomes 0, and an upload that runs ends with PERMIT (R480, R481). -/
def clearPermit (s : State) : State := endUpload 0x20 (upd nvmUpdCtrl NvmUpdCtrl.permit 0 s)

/-- Announce the owner, and clear PERMIT (R327, R480). -/
def announceOwner (s : State) : State :=
  let s := svcEvent .ownerChange (raiseBoth evOwner s)
  clearPermit (logOpen sevNotice kState bOwn 327 1 (get s ownStat OwnStat.owner) s)

/-- Report a change of ownership, at which the device clears PERMIT (R327, R480). -/
def reportOwner (s : State) : State := announceOwner (satAdd ownStat OwnStat.changes 1 s)

/-- Open a claim window; a span of 0 ms opens none (R325). -/
def openWindow (s : State) : State :=
  let ms := get s ownCfg OwnCfg.claimWinMs
  if ms = 0 then s
  else
    let s := { s with own := { s.own with windowEnd := s.devtime + ms * msTicks } }
    let s := upd ownStat OwnStat.window 1 s
    raiseBoth evOwner (upd ownStat OwnStat.holder (bestMaster s) s)

/-- Close the claim window. -/
def closeWindow (s : State) : State :=
  if windowOpen s then
    raiseBoth evOwner (upd ownStat OwnStat.holder 3 (upd ownStat OwnStat.window 0 s))
  else s

/-- The lease in ticks, LEASE_MS within 10–1000. -/
def leaseTicks (s : State) : Nat := max 10 (min 1000 (get s ownCfg OwnCfg.leaseMs)) * msTicks

/-- Start a full lease. -/
def startLease (s : State) : State :=
  { s with own := { s.own with expiry := s.devtime + leaseTicks s, lowDone := false } }

/-- A master becomes the owner with a full lease; the window closes. -/
def makeOwner (m : Master) (s : State) : State :=
  let s := reportOwner (closeWindow (startLease (upd ownStat OwnStat.owner (mcode m) s)))
  { s with own := { s.own with claimedAt := none } }

/-- Ownership ends, and a window opens. -/
def endOwner (s : State) : State := reportOwner (openWindow (upd ownStat OwnStat.owner 3 s))

/-- Whether the lease has reached its end at the present tick. -/
def leaseOver (s : State) : Bool := (owner s).isSome && decide (s.own.expiry ≤ s.devtime)

/-- Apply a lapse that is due: ownership ends and a window opens (R325). -/
def lapse (s : State) : State := if leaseOver s then endOwner s else s

/-- Close a claim window whose span has passed. -/
def windowDue (s : State) : State :=
  if windowOpen s && decide (s.own.windowEnd ≤ s.devtime) then closeWindow s else s

/-- Apply a lapse and a window's end that are due, so that an act at the expiry tick or later is judged after it
(R326). -/
def settle (s : State) : State := windowDue (lapse s)

/-- Whether a master is the owner. -/
def isOwner (m : Master) (s : State) : Bool := owner s == some m

/-- Where a master's instance of OWN_CMD stands. -/
def ownCmdOf : Master → Nat
  | .ha => ownCmdHead 0
  | .hb => ownCmdHead 1
  | _ => ownCmdSvc

/-- Results of an act (R327). -/
def ownOk : Nat := 1
def ownNotOwner : Nat := 2
def ownNotEligible : Nat := 3
def ownWindow : Nat := 4
def ownOwned : Nat := 5
def ownTargetAbsent : Nat := 6
def ownTargetIneligible : Nat := 7
def ownTargetSelf : Nat := 8
def ownNotPresent : Nat := 9

/-- Record the result of a master's act. -/
def ownResult (m : Master) (r : Nat) (s : State) : State := upd (ownCmdOf m) OwnCmdSvc.result r s

/-- The result that a CLAIM takes, in the order of R326. -/
def claimResult (m : Master) (s : State) : Nat :=
  if !eligible s m then ownNotEligible
  else if !present s m then ownNotPresent
  else if (owner s).isSome then ownOwned
  else if windowOpen s && get s ownStat OwnStat.holder != mcode m then ownWindow
  else ownOk

/-- The result that a TRANSFER takes, its conditions in the order in which R325 names them. -/
def transferResult (m t : Master) (s : State) : Nat :=
  if !isOwner m s then ownNotOwner
  else if t = m then ownTargetSelf
  else if !present s t then ownTargetAbsent
  else if !eligible s t then ownTargetIneligible
  else ownOk

/-- Note the tick of a CLAIM that succeeds. -/
def noteClaim (s : State) : State := { s with own := { s.own with claimedAt := some s.devtime } }

/-- The owner whose CLAIM reached the supervisor in this very tick and whose priority is below a claimant's (R326). -/
def outbid (m : Master) (s : State) : Option Master :=
  if s.own.claimedAt = some s.devtime then (owner s).filter fun o => decide (priority s m < priority s o) else none

/-- A claimant of higher priority wins the tick: the earlier claim takes OWNED, and it was the one change (R326). -/
def takeOver (m o : Master) (s : State) : State :=
  ownResult m ownOk (ownResult o ownOwned (announceOwner (startLease (upd ownStat OwnStat.owner (mcode m) s))))

/-- CLAIM (R325, R326). -/
def claim (m : Master) (s : State) : State :=
  let s := settle s
  let r := claimResult m s
  if r = ownOk then
    ownResult m ownOk (noteClaim (makeOwner m s))
  else match r == ownOwned, outbid m s with
    | true, some o => takeOver m o s
    | _, _ => ownResult m r s

/-- RENEW (R325). -/
def renew (m : Master) (s : State) : State :=
  let s := settle s
  if isOwner m s then ownResult m ownOk (startLease s) else ownResult m ownNotOwner s

/-- RELEASE (R325). -/
def release (m : Master) (s : State) : State :=
  let s := settle s
  if isOwner m s then ownResult m ownOk (endOwner s) else ownResult m ownNotOwner s

/-- TRANSFER (R325). -/
def transfer (m t : Master) (s : State) : State :=
  let s := settle s
  let r := transferResult m t s
  ownResult m r (if r = ownOk then makeOwner t s else s)

/-- The master that TARGET names. -/
def masterOfCode : Nat → Option Master
  | 0 => some .ha
  | 1 => some .hb
  | 2 => some .svc
  | _ => none

/-- A write of OWN_CMD by the master whose instance it is (R327): reserved codes are discarded and logged. -/
def ownCmdWrite (m : Master) (v : Nat) (s : State) : State :=
  let refuse := logAccess accRefused m (ownCmdOf m) 32 true s
  match bits v 0 3 with
  | 0 => s
  | 1 => claim m s
  | 2 => renew m s
  | 3 => release m s
  | 4 =>
    match masterOfCode (bits v 3 2) with
    | some t => transfer m t s
    | none => refuse
  | _ => refuse

/-! ### Judgment of writes (R18, R19, R566) -/

/-- A write that R18 does not permit: discarded and logged (R19). -/
def denied (m : Master) (off width : Nat) (s : State) : State := logAccess accDenied m off width true s

/-- A write whose value or timing a rule forbids: discarded as a whole and logged (R566). -/
def refusedWrite (m : Master) (off width : Nat) (s : State) : State := logAccess accRefused m off width true s

/-- Perform a write of RWO fields as the owner's act, judged at the present tick (R326, R536). -/
def asOwner (m : Master) (off width : Nat) (f : State → State) (s : State) : State :=
  let s := settle s
  if isOwner m s then f s else denied m off width s

/-- Perform a write of a head page's fields: its own master and device firmware may (R18, R535). -/
def asHead (m : Master) (h : Head) (off width : Nat) (f : State → State) (s : State) : State :=
  if headOff s (hnum h) then s
  else if m = headMaster h ∨ m = .fw then f s
  else denied m off width s

/-- The bytes of a register write that a half carries: the new contents given the old (R531). -/
def mergeHalf (half : Half) (old : Reg) (v : Nat) : Nat :=
  match half with
  | .full => v % 2 ^ 64
  | .low => old.toNat / 2 ^ 32 * 2 ^ 32 + v % 2 ^ 32
  | .high => old.toNat % 2 ^ 32 + v % 2 ^ 32 * 2 ^ 32

/-- The width in bits of a write of a half. -/
def halfWidth : Half → Nat
  | .full => 64
  | _ => 32

/-- The offset at which a write of a half lands. -/
def halfOff (off : Nat) : Half → Nat
  | .high => off + 4
  | _ => off

/-! ### Meanings -/

/-- CLAIM (R325). -/
def execClaim (m : Master) (s : State) : Host.Outcome State Fault Refusal := .next (powered (claim m) s)

/-- RENEW (R325). -/
def execRenew (m : Master) (s : State) : Host.Outcome State Fault Refusal := .next (powered (renew m) s)

/-- RELEASE (R325). -/
def execRelease (m : Master) (s : State) : Host.Outcome State Fault Refusal := .next (powered (release m) s)

/-- TRANSFER (R325). -/
def execTransfer (m target : Master) (s : State) : Host.Outcome State Fault Refusal :=
  .next (powered (transfer m target) s)

/-- A reserved OP, or a TRANSFER that names the reserved target, is discarded and logged, and RESULT keeps its value
(R327, R566). An OP or target that is not reserved is not this command's: nothing happens. -/
def execOwnCmdReserved (m : Master) (op target : Nat) (s : State) : Host.Outcome State Fault Refusal :=
  .next (powered (fun s =>
    if 5 ≤ op % 8 ∨ (op % 8 = 4 ∧ target % 4 = 3) then refusedWrite m (ownCmdOf m) 32 s else s) s)

/-- LEASE_LOW: the owner, when it is a head, is told that a quarter of its lease remains (R320). -/
def execLeaseLow (s : State) : Host.Outcome State Fault Refusal :=
  .next (powered (fun s =>
    if (owner s).isSome && (!s.own.lowDone && (decide (s.devtime < s.own.expiry) &&
        decide (4 * (s.own.expiry - s.devtime) ≤ leaseTicks s))) then
      let s := { s with own := { s.own with lowDone := true } }
      match owner s with
      | some .ha => raiseEvent 0 evLeaseLow s
      | some .hb => raiseEvent 1 evLeaseLow s
      | _ => s
    else s) s)

/-- LEASE_LAPSE: at the tick at which the lease reaches zero, ownership ends and a window opens (R325, R326). -/
def execLeaseLapse (s : State) : Host.Outcome State Fault Refusal := .next (powered lapse s)

/-- CLAIM_WINDOW_EXPIRE: the claim window closes when its span has passed (R325). -/
def execClaimWindowExpire (s : State) : Host.Outcome State Fault Refusal :=
  .next (powered windowDue s)

end Sys2Proof.Machine
end

