-- ==== Sys2Proof/Machine/Records.lean ====
section
/-! DEFINITION. Ledgers, log pages and lifetime records (R513–R529). -/

namespace Sys2Proof.Machine

open Sys2Proof

/-! ### Counts of the lifetime record (R525) -/

/-- A word of the live counts. -/
def lifeWord (s : State) (i : Nat) : Reg := tget (fun _ => 0) s.life.live i

/-- Set a word of the live counts. -/
def setLifeWord (i : Nat) (v : Reg) (s : State) : State :=
  { s with life := { s.life with live := tset (fun _ => 0) i v s.life.live } }

/-- The place of a count of `n` bytes at a byte offset, in its word. -/
def lifeFld (off n : Nat) : Fld := ⟨off % 8 * 8, n * 8⟩

/-- The count of `n` bytes at a byte offset. -/
def lifeGet (s : State) (off n : Nat) : Nat := getF (lifeWord s (off / 8)) (lifeFld off n)

/-- Set a count. -/
def lifeSet (off n v : Nat) (s : State) : State :=
  setLifeWord (off / 8) (setF (lifeWord s (off / 8)) (lifeFld off n) v) s

/-- Raise a count, saturating. -/
def lifeCount (off n k : Nat) (s : State) : State := lifeSet off n (min (2 ^ (8 * n) - 1) (lifeGet s off n + k)) s

/-- Keep the highest value seen. -/
def lifeMax (off n v : Nat) (s : State) : State :=
  lifeSet off n (max (lifeGet s off n) (min (2 ^ (8 * n) - 1) v)) s

/-! ### NVM areas (R461–R464) -/

/-- Whether some NVM device is in service (R464). -/
def nvmOk (s : State) : Bool :=
  get s nvmUpdStat NvmUpdStat.nvmAOk == 1 || get s nvmUpdStat NvmUpdStat.nvmBOk == 1

/-- Areas of the layout, by their order in R461. -/
def arBoot : Nat := 1
def arCfg : Nat := 2
def arDev : Nat := 3
def arMap : Nat := 4
def arRetire : Nat := 5
def arLife : Nat := 6
def arLog : Nat := 7
def arSlot : Nat := 9

/-- Sectors of 64 KiB in an area. -/
def arSectors (a : Nat) : Nat :=
  if a = arMap ∨ a = arRetire then 8 else if a = arLife then 32 else if a = arLog then 128 else if a = arSlot then 3840 else 4

/-- Devices in service. -/
def nvmDevices (s : State) : List Nat := [0, 1].filter fun d => !(s.nvm.failed.contains d)

/-- Count sector erases of an area on a device, and of its most-erased sector, the sectors of a ring being erased in turn
(R463, R525). -/
def countErases (d a n : Nat) (s : State) : State :=
  if n = 0 then s
  else
    let off := 2400 + 80 * d + 8 * a
    let s := lifeCount off 4 n s
    lifeSet (off + 4) 4 ((lifeGet s off 4 + arSectors a - 1) / arSectors a) s

/-- Write pages in an area of every device in service: each sector that the writer starts to use erases the next (R462,
R463). -/
def nvmPages (a n : Nat) (s : State) : State :=
  let old := tget (fun _ => 0) s.nvm.pages a
  let s := { s with nvm := { s.nvm with pages := tset (fun _ => 0) a (old + n) s.nvm.pages } }
  (nvmDevices s).foldl (fun s d => countErases d a ((old + n + 255) / 256 - (old + 255) / 256) s) s

/-! ### Log pages (R521) -/

/-- Pages the NVM area holds; on a wrap the oldest sector of 256 pages is erased (R461, R463, R521). -/
def logAreaPages : Nat := 32768

/-- Write the oldest held entries, at most seven, as one log page in SEQ order. -/
def logPageWrite (s : State) : State :=
  if s.log.held.isEmpty || !nvmOk s then s
  else
    let old := if s.log.pages.length < logAreaPages then s.log.pages else s.log.pages.drop 256
    let p : LogPage := { seq := s.log.pageSeq, time := s.devtime, boots := get s queBootId QueBootId.boots
                         entries := s.log.held.take 7 }
    let rest := s.log.held.drop 7
    upd ledLogStat LedLogStat.unwritten rest.length <| nvmPages arLog 1
      { s with log := { s.log with pages := old ++ [p], pageSeq := s.log.pageSeq + 1, held := rest } }

/-- Write every held entry: as many pages as `n` allows. -/
def logFlushN : Nat → State → State
  | 0, s => s
  | n + 1, s => if s.log.held.isEmpty then s else logFlushN n (logPageWrite s)

/-- Write every held entry (R521). -/
def logFlush (s : State) : State := logFlushN (s.log.held.length / 7 + 1) s

/-- Entries in NVM and in RAM, in SEQ order (R524). -/
def logAll (s : State) : List LogEntry := (s.log.pages.flatMap (·.entries)) ++ s.log.held

/-! ### Lifetime records (R525–R529) -/

/-- The bytes of a lifetime record. -/
def lifeBytes (ws : Table Reg) : List Byte := (List.range 352).flatMap fun i => toBytes 8 (tget (fun _ => 0) ws i).toNat

/-- Write a lifetime record to NVM: the live counts under a header of MAGIC, VERSION, SEQ, WRITTEN, BOOTS and CRC (R525,
R528). The two NVM devices hold the same record. -/
def lifetimeWrite (s : State) : State :=
  if !nvmOk s then s
  else
    let seq := s.life.seq + 1
    let s := lifeSet 0 4 0x4546494C (lifeSet 4 2 1 (lifeSet 8 4 seq s))
    let s := lifeSet 20 4 (get s queBootId QueBootId.boots) s
    let s := setLifeWord 1 (setF (lifeWord s 1) ⟨32, 32⟩ (s.devtime % 2 ^ 32))
      (setLifeWord 2 (setF (lifeWord s 2) ⟨0, 32⟩ (s.devtime / 2 ^ 32)) s)
    let s := nvmPages arLife 11 (lifeSet 28 4 0 s)
    let s := lifeSet 28 4 (crc32 (lifeBytes s.life.live)) s
    let s := { s with life := { s.life with record := s.life.live, prev := s.life.record, seq := seq } }
    upd lifStat LifStat.seq seq (upd lifStat LifStat.nextS 600 s)

/-- The largest x with x^60 at most `n`, found bit by bit below 2^k. -/
def root60 (n : Nat) : Nat → Nat → Nat
  | 0, x => x
  | k + 1, x => if (x + 2 ^ k) ^ 60 ≤ n then root60 n k (x + 2 ^ k) else root60 n k x

/-- The stress weight of a second in units of 2^−32: 2^((T − 85) ÷ 10) × 2^((V − 0.78) ÷ 0.03), with T in whole °C
clamped to 25–125 and V from VSET, rounded down (R526). The exponent is k ÷ 60 + 10 − 20, k being
6 (T − 25) + 10 VSET − 360 + 60 × 14 − 60 × 10. -/
def stressWeight (t vset : Nat) : Nat :=
  root60 (2 ^ (60 * 20 + 6 * (max 25 (min 125 t)) + 10 * vset)) 40 0

/-- Units of 2^−32 that make one unit of 1/64 stress-hour, times the 2^(8.5 + 6 − 12) by which `stressWeight` is
scaled: the exponent (6 T − 510 + 10 VSET − 360) ÷ 60 is the weight's own, and 1200 + 870 of the 60ths are scale. -/
def stressUnit : Nat := root60 (2 ^ (60 * 20 + 870)) 40 0 * 3600 / 64

/-- Powered clusters. -/
def poweredClusters (s : State) : List Nat :=
  s.regs.filterMap fun e =>
    if 0x10000 ≤ e.1 ∧ e.1 < 0x11E00 ∧ e.1 % 0x20 = 8 ∧ getF e.2 PwrClStat.state = 3 then
      some ((e.1 - 0x10000) / 0x20) else none

/-- One second of stress of a cluster (R526). -/
def stressCluster (s : State) (g : Nat) : State :=
  let t := match tget (fun _ => none) s.control.lastTemp g with
    | some x => (x / 10).toNat
    | none => 25
  let n := tget (fun _ => 0) s.life.part g + stressWeight t (get s (pwrClStat g) PwrClStat.vset)
  let s := { s with life := { s.life with part := tset (fun _ => 0) g (n % stressUnit) s.life.part } }
  lifeCount (96 + 4 * g) 4 (n / stressUnit) s

/-- Shift the daily counts of a stack by a day (R525). -/
def stackDay (s : State) (k : Nat) : State :=
  let b := 1056 + 24 * k + 8
  let s := [6, 5, 4, 3, 2, 1].foldl (fun s i => lifeSet (b + 2 * i) 2 (lifeGet s (b + 2 * (i - 1)) 2) s) s
  lifeSet b 2 0 s

/-- Refresh LIF_PAGE from the live counts (R529). -/
def lifeRefresh (s : State) : State :=
  { s with regs := (List.range 352).foldl (fun r i => tset regReset (lifPage i) (lifeWord s i) r) s.regs }

/-! ### Ledgers (R513–R517) -/

/-- A live counter of a head's LED_REQ page, and of LED_CNT. -/
def ledReqN (s : State) (h i : Nat) : Nat := (rd s (ledReq h i)).toNat
def ledCntN (s : State) (i : Nat) : Nat := (rd s (ledCnt i)).toNat

/-- The request identity of a head (R513). -/
def reqIdentity (s : State) (h : Nat) : Bool :=
  ledReqN s h LedReq.accepted == ledReqN s h LedReq.success + ledReqN s h LedReq.partial + ledReqN s h LedReq.error
    + ledReqN s h LedReq.abandoned + ledReqN s h LedReq.inFlight

/-- The completion identity of a head. -/
def complIdentity (s : State) (h : Nat) : Bool :=
  ledReqN s h LedReq.rejected + ledReqN s h LedReq.success + ledReqN s h LedReq.partial + ledReqN s h LedReq.error
    + ledReqN s h LedReq.abandoned == ledReqN s h LedReq.written + ledReqN s h LedReq.held

/-- The identities of R513 in the order of its table. -/
def identities (s : State) : List Bool :=
  [reqIdentity s 0 && reqIdentity s 1, complIdentity s 0 && complIdentity s 1,
   ledCntN s LedCnt.dmaIssued == ledCntN s LedCnt.dmaReturned + ledCntN s LedCnt.reclTimeout
     + ledCntN s LedCnt.reclReset + ledCntN s LedCnt.dmaOutstanding,
   ledCntN s LedCnt.lkTaken == ledCntN s LedCnt.lkReturned + ledCntN s LedCnt.lkReclaimed
     + ledCntN s LedCnt.lkOutstanding,
   ledCntN s LedCnt.tagsIssued == ledCntN s LedCnt.tagsRetired + ledCntN s LedCnt.tagsAbandoned
     + ledCntN s LedCnt.tagsOpen,
   ledCntN s LedCnt.winOpened == ledCntN s LedCnt.winClosed + ledCntN s LedCnt.winOpen]

/-- Report a failed identity: its bit of BREACH, BREACHES and a LEDGER entry (R514). -/
def noteBreach (s : State) (x : Nat × Bool) : State :=
  if x.2 then s
  else
    let s := upd ledStat LedStat.breach (get s ledStat LedStat.breach ||| 2 ^ x.1) s
    logOpen sevError kLedger bLed 514 x.1 0 (satAdd ledStat LedStat.breaches 1 s)

/-- Copy the counters into the snapshot pages (R514). -/
def snapCopy (s : State) : State :=
  let copy (s : State) (p : Nat × Nat) : State := put p.2 (rd s p.1) s
  let reqs := [0, 1].flatMap fun h => (List.range 9).map fun i => (ledReq h i, ledSnapReq h i)
  let cnts := (List.range 17).map fun i => (ledCnt i, ledSnapCnt i)
  (reqs ++ cnts).foldl copy s

/-- Take a ledger snapshot and check the identities (R514). -/
def ledgerSnapshot (s : State) : State :=
  let s := snapCopy (addR (ledCnt LedCnt.snapshots) 1 s)
  let s := put ledSnapTime (BitVec.ofNat 64 s.devtime) s
  (List.zip (List.range 6) (identities s)).foldl noteBreach s

/-! ### Meanings -/

/-- LOG_PAGE_WRITE: the supervisor writes a log page (R521). -/
def execLogPageWrite (s : State) : Host.Outcome State Fault Refusal := .next (powered logPageWrite s)

/-- LIFETIME_WRITE: the supervisor writes a lifetime record (R528). -/
def execLifetimeWrite (s : State) : Host.Outcome State Fault Refusal := .next (powered lifetimeWrite s)

/-- A write of LIF_STAT by the owner: PERSIST with 1 writes a record at once (R529). -/
def lifStatWrite (v : Nat) (s : State) : State := if bit1 v 0 then lifetimeWrite s else s

/-- LIFETIME_PERSIST: the owner writes LIF_STAT; PERSIST with 1 writes a record at once, and reads 0 (R529). -/
def execLifetimePersist (m : Master) (v : Nat) (s : State) : Host.Outcome State Fault Refusal :=
  .next (powered (asOwner m lifStat 64 (lifStatWrite v)) s)

/-- STRESS_TICK: every second of DEVTIME each powered cluster adds its weight, the seconds and the energy are counted,
and LIF_PAGE is refreshed (R525, R526, R529). -/
def execStressTick (s : State) : Host.Outcome State Fault Refusal :=
  .next (powered (fun s =>
    let s := (poweredClusters s).foldl stressCluster s
    let s := lifeCount 48 8 1 s
    let s := if running s then lifeCount 56 8 1 s else s
    let e := s.life.energy + get s pwrWinStat PwrWinStat.avg1s
    let s := lifeCount 64 8 (e / 3600) { s with life := { s.life with energy := e % 3600 } }
    let s := if lifeGet s 48 8 % 86400 = 0 then (List.range 24).foldl stackDay s else s
    let s := upd lifStat LifStat.nextS (get s lifStat LifStat.nextS - 1) s
    lifeRefresh s) s)

end Sys2Proof.Machine
end

