-- ==== Sys2Proof/Machine/Hbm.lean ====
section
/-! DEFINITION. HBM as every reader and writer meets it: the installed range, the address hash, bursts in error, slice
states and the retirement record (R256–R273). -/

namespace Sys2Proof.Machine

open Sys2Proof

/-! ### The installed range and the hash (R258–R262) -/

/-- k, the number of retired slices, fixed in SPRING (R258, R278). -/
def retiredCount (s : State) : Nat := get s hbmMapStat HbmMapStat.retired

/-- T, the installed bytes (R258). -/
def installed (s : State) : Nat := (768 - retiredCount s) * 0x48000000

/-- RB, the first address of the reserved region (R259). -/
def reservedBase (s : State) : Nat := installed s - 64 * 2 ^ 30

/-- Start of a season slot (R259). -/
def slotBase (s : State) (i : Nat) : Nat := reservedBase s + i * 0x1C0000000

/-- Start of a tile's spill area (R259). -/
def spillBase (s : State) (t : Nat) : Nat := reservedBase s + 0xE00000000 + t * 0x100000

/-- State of a slice, by the codes of R271. -/
def sliceState (s : State) (n : Nat) : Nat := get s (hbmSlice n) HbmSlice.state

/-- Slice states of R271. -/
def slInService : Nat := 0
def slMarked : Nat := 1
def slFailed : Nat := 2
def slRetired : Nat := 3

/-- Retirement causes of R271. -/
def rcTest : Nat := 1
def rcCeLimit : Nat := 2
def rcHardUe : Nat := 3
def rcChannel : Nat := 4
def rcOwner : Nat := 5
def rcFieldLost : Nat := 6
def rcTraining : Nat := 7

/-- Blocks of a slice, Q of R261. -/
def blocksPerSlice : Nat := 4718592

/-- The retired slices, in ascending order. -/
def retiredList (s : State) : List Nat := (List.range 768).filter fun n => sliceState s n == slRetired

/-- home(a) for the hash with a given list of retired slices (R261). -/
def homeWith (retired : List Nat) (a : Nat) : Nat × Nat :=
  let b := a / 256
  let q := b / 768
  let r := b % 768
  let h := ((q % 1024) ^^^ (q / 1024 % 1024) ^^^ (q / 2 ^ 20 % 8)) % 768
  let n := (r + h) % 768
  if retired.contains n then
    let k := retired.length
    let live := (List.range 768).filter fun x => !retired.contains x
    let i := (retired.filter (· < n)).length
    let j := i * (blocksPerSlice - 6144 * k) + q
    (live[j % (768 - k)]?.getD 0, blocksPerSlice - 6144 * k + j / (768 - k))
  else (n, q)

/-- The home of an address: slice and group (R261). -/
def home (s : State) (a : Nat) : Nat × Nat :=
  homeWith (if retiredCount s = 0 then [] else retiredList s) a

/-- Whether an address's home is a FAILED slice (R263). -/
def homeFailed (s : State) (a : Nat) : Bool :=
  get s hbmMapStat HbmMapStat.failed != 0 && sliceState s (home s a).1 == slFailed

/-- Whether some block of a range has a FAILED home. -/
def rangeFailed (s : State) (a n : Nat) : Bool :=
  get s hbmMapStat HbmMapStat.failed != 0 &&
    ((List.range ((a + n + 255) / 256 - a / 256)).any fun i => homeFailed s ((a / 256 + i) * 256))

/-! ### The retirement record and slice states (R271–R273) -/

/-- The recorded byte of a slice. -/
def recordByte (s : State) (n : Nat) : Nat := tget (fun _ => 0) s.hbmState.record.slices n

/-- Write the retirement record with new bytes for some slices; the copy before it is kept (R273). -/
def writeRetire (changes : List (Nat × Nat)) (s : State) : State :=
  let sl := changes.foldl (fun t c => tset (fun _ => 0) c.1 c.2 t) s.hbmState.record.slices
  let s := { s with hbmState := { s.hbmState with
      record := { seq := s.hbmState.record.seq + 1, time := s.devtime, slices := sl }
      prevRecord := s.hbmState.record } }
  nvmPages arRetire 4 s

/-- The recorded state of a slice state: 1 marked or failed, 2 retired (R273). -/
def recordedState (st : Nat) : Nat := if st = slInService then 0 else if st = slRetired then 2 else 1

/-- Slices that hold a state. -/
def slicesWith (s : State) (st : Nat) : Nat := ((List.range 768).filter fun n => sliceState s n == st).length

/-- Count the MARKED and FAILED slices in HBM_MAP_STAT (R278). -/
def countSlices (s : State) : State :=
  upd hbmMapStat HbmMapStat.failed (slicesWith s slFailed) (upd hbmMapStat HbmMapStat.marked (slicesWith s slMarked) s)

/-- Give a slice a state and a cause, the record first; the change is entered in the error log (R272). -/
def setSlice (n st cause : Nat) (s : State) : State :=
  let s := writeRetire [(n, recordedState st + 4 * cause)] s
  let s := countSlices (upd (hbmSlice n) HbmSlice.state st (upd (hbmSlice n) HbmSlice.cause cause s))
  logCoded (if st = slInService then sevNotice else sevDegrade) kRepair bHbm 272 (10 * st + cause) cause n s

/-! ### Bursts in error (R264–R267) -/

/-- The error pattern of a burst. -/
def burstErr (s : State) (b : Nat) : BurstErr := tget (fun _ => {}) s.hbmState.errs b

/-- Set the error pattern of a burst. -/
def setBurst (b : Nat) (e : BurstErr) (s : State) : State :=
  { s with hbmState := { s.hbmState with errs := tset (fun _ => {}) b e s.hbmState.errs } }

/-- The error pattern that stores a burst as uncorrectable: two symbols in error (R272, R313). -/
def poisonErr (hard : Bool) : BurstErr := { syms := [(0, 1), (1, 1)], hard := hard }

/-- What the decoder makes of a burst in error, as its cells hold it. -/
def outcomeOf (s : State) (b : Nat) (e : BurstErr) : RsOutcome := burstOutcome (hbmRead s (32 * b) 32) e

/-- Whether a burst in error is uncorrectable. -/
def burstBad (s : State) (e : Nat × BurstErr) : Bool := outcomeOf s e.1 e.2 == .detected

/-- Bits of a symbol of a burst are inverted in its cells (R264); in cells that are defective they may come back after a
write. -/
def upsetBurst (s : State) (c : CellError) : State :=
  let e := burstErr s c.burst
  let v := (tget (fun _ => 0) e.syms (c.symbol % 36)) ^^^ (c.bits % 256)
  setBurst c.burst { syms := tset (fun _ => 0) (c.symbol % 36) v e.syms, hard := e.hard || c.hard } s

/-- Count a corrected burst of a block: HBM_STACK_STAT.CE, the lifetime counts and the distinct blocks of 24 h; above
CE_LIMIT an in-service slice is marked (R265, R271). -/
def noteCorrected (a : Nat) (s : State) : State :=
  let h := home s a
  let k := h.1 / 32
  let s := satAdd (hbmStackStat k) HbmStackStat.ce 1 s
  let s := lifeCount (1056 + 24 * k) 4 1 (lifeCount (1056 + 24 * k + 8) 2 1 s)
  let old := (tget (fun _ => []) s.hbmState.ceBlocks h.1).filter fun e =>
    decide (s.devtime < e.2 + dayTicks) && e.1 != h.2
  let l := old ++ [(h.2, s.devtime)]
  let s := { s with hbmState := { s.hbmState with ceBlocks := tset (fun _ => []) h.1 l s.hbmState.ceBlocks } }
  let s := upd (hbmSlice h.1) HbmSlice.ce24h (min 255 l.length) s
  let limit := get s hbmCtrl HbmCtrl.ceLimit
  if 0 < limit ∧ limit < l.length ∧ sliceState s h.1 = slInService then setSlice h.1 slMarked rcCeLimit s else s

/-- Count an uncorrectable burst and enter it in the error log; the controller's test of its cells marks the slice when
they are defective, and restores the burst as uncorrectable (R266, R271, R272). -/
def noteUncorrectable (b : Nat) (s : State) : State :=
  let n := (home s (b * 32)).1
  let k := n / 32
  let s := satAdd (hbmStackStat k) HbmStackStat.ue 1 (satAdd (hbmSlice n) HbmSlice.ue 1 s)
  let s := logOpen sevError kFault bHbm 266 0 n (lifeCount (1056 + 24 * k + 4) 4 1 s)
  if (burstErr s b).hard ∧ sliceState s n = slInService then setSlice n slMarked rcHardUe s else s

/-- The bursts of a range that are in error. -/
def errsIn (s : State) (a n : Nat) : List (Nat × BurstErr) :=
  s.hbmState.errs.filter fun e => decide (a < e.1 * 32 + 32) && decide (e.1 * 32 < a + n)

/-- A write replaces the check symbols of a burst: an error of the burst ends, unless its cells are defective, of which
the device promises nothing (R267). -/
def rewriteBurst (s : State) (e : Nat × BurstErr) : State :=
  if e.2.hard then
    let f := freeNat 1 s
    if f.1 = 0 then setBurst e.1 {} f.2 else f.2
  else setBurst e.1 {} s

/-- Read one burst in error: what the decoder delivers is written back when it has corrected a symbol, and stands when it has
found nothing; else the burst is counted as uncorrectable (R264–R266). -/
def readBurst (s : State) (e : Nat × BurstErr) : State :=
  if homeFailed s (e.1 * 32) then s
  else
    let cs := receivedBurst (hbmRead s (32 * e.1) 32) e.2
    match rsDecode cs with
    | .clean => rewriteBurst (hbmWrite (32 * e.1) (deliveredBurst cs .clean) s) e
    | .corrected i v => noteCorrected (e.1 * 32) (rewriteBurst (hbmWrite (32 * e.1) (deliveredBurst cs (.corrected i v)) s) e)
    | .detected => noteUncorrectable e.1 s

/-- Read a range: whether it cannot be delivered, since a home is FAILED or a burst is uncorrectable; and the state with
its errors corrected and counted (R263, R265, R266). -/
def hbmTouch (a n : Nat) (s : State) : Bool × State :=
  let es := errsIn s a n
  (rangeFailed s a n || es.any (burstBad s), es.foldl readBurst s)

/-- Write the part of a range that lies in its first block: whole 64-byte units, each of two bursts (R267); a block whose home
is FAILED takes no write (R263). -/
def storeAnyway (a : Nat) (bs : List Byte) (s : State) : State :=
  hbmWrite a bs ((errsIn s (a / 64 * 64) ((a + bs.length + 63) / 64 * 64 - a / 64 * 64)).foldl rewriteBurst s)
def storeBlock (a : Nat) (bs : List Byte) (s : State) : State := if homeFailed s a then s else storeAnyway a bs s

/-- Write a range, block by block. -/
def storeBlocks : Nat → Nat → List Byte → State → State
  | 0, _, _, s => s
  | n + 1, a, bs, s =>
    let k := 256 - a % 256
    storeBlocks n (a + k) (bs.drop k) (storeBlock a (bs.take k) s)

/-- Write bytes to HBM in whole units (R267); the blocks of FAILED slices take nothing (R263). -/
def hbmStore (a : Nat) (bs : List Byte) (s : State) : State :=
  storeBlocks ((a + bs.length + 255) / 256 - a / 256) a bs s

/-- Clear the error of every burst of a range that a copy has written. -/
def clearErrs (a n : Nat) (s : State) : State := (errsIn s a n).foldl rewriteBurst s

/-- Copy a range within HBM, for ranges that do not overlap. -/
def copyRange (src dst n : Nat) (s : State) : State :=
  let moved := (s.hbm.filter fun c => decide (src ≤ c.1) && decide (c.1 < src + n)).map fun c => (c.1 - src + dst, c.2)
  let below := s.hbm.filter fun c => decide (c.1 < dst)
  let above := s.hbm.filter fun c => decide (dst + n ≤ c.1)
  clearErrs dst n { s with hbm := below ++ moved ++ above }

/-- Copy a range to an address at the start of a block: block by block while a slice is FAILED, whose blocks take no write
(R263). -/
def hbmCopy (src dst n : Nat) (s : State) : State :=
  if get s hbmMapStat HbmMapStat.failed = 0 then copyRange src dst n s
  else (List.range ((n + 255) / 256)).foldl (fun s i =>
    if homeFailed s (dst + 256 * i) then s
    else copyRange (src + 256 * i) (dst + 256 * i) (min 256 (n - 256 * i)) s) s

/-- Give a burst free contents. -/
def spoilBurst (s : State) (b : Nat) : State :=
  let f := freeNat 256 s
  hbmWrite (32 * b) (toBytes 32 f.1) f.2

/-- The bursts of a range that cannot be read. -/
def unreadable (s : State) (a n : Nat) : List Nat :=
  ((errsIn s a n).filter (burstBad s)).map (·.1) ++
    (if rangeFailed s a n then
      ((List.range ((a + n + 255) / 256 - a / 256)).filter fun i => homeFailed s ((a / 256 + i) * 256)).flatMap fun i =>
        (List.range 8).map fun k => 8 * (a / 256 + i) + k
    else [])

/-- Do something that reads a range of HBM, where the spec states no answer to a burst that cannot be read: errors are
corrected and counted, and what cannot be read reads as free bytes. HBM itself keeps its contents. -/
def withRange (a n : Nat) (f : State → State) (s : State) : State :=
  let r := hbmTouch a n s
  if !r.1 then f r.2 else { f ((unreadable r.2 a n).foldl spoilBurst r.2) with hbm := r.2.hbm }

/-- The slices of a lost field become FAILED with cause FIELD_LOST (R271, R272). -/
def hbmFieldLost (f : Nat) (s : State) : State :=
  ((List.range 768).filter fun n => sliceField n == f && (sliceState s n == slInService || sliceState s n == slMarked)).foldl
    (fun s n => setSlice n slFailed rcFieldLost s) s

end Sys2Proof.Machine
end

