-- ==== Sys2Proof/Machine/Image.lean ====
section
/-! DEFINITION. The season image as the device reads it from its slot (R184–R192), and the slots' states (R194). -/

namespace Sys2Proof.Machine

open Sys2Proof

/-! ### Slots -/

/-- States of a season slot (R194). -/
def ssEmpty : Nat := 0
def ssStaging : Nat := 1
def ssStaged : Nat := 2
def ssActivating : Nat := 3
def ssActive : Nat := 4
def ssRefused : Nat := 5

/-- State of a slot. -/
def slotState (s : State) (i : Nat) : Nat := get s (supSeasonStat i) SupSeasonStat.state

/-- Set the state of a slot. -/
def setSlotState (i v : Nat) (s : State) : State := upd (supSeasonStat i) SupSeasonStat.state v s

/-- Set the result of the last command on a slot. -/
def setSlotResult (i r : Nat) (s : State) : State := upd (supSeasonStat i) SupSeasonStat.result r s

/-- SEASON_ID of the image a slot holds. -/
def slotSeason (s : State) (i : Nat) : Nat := get s (supSeasonStat i) SupSeasonStat.seasonId

/-- The active slot. -/
def activeSlot (s : State) : Option Nat := (List.range 8).find? fun i => slotState s i == ssActive

/-- The slot that holds a season STAGED, ACTIVATING or ACTIVE. -/
def seasonSlot (s : State) (id : Nat) : Option Nat :=
  (List.range 8).find? fun i =>
    slotSeason s i == id && (slotState s i == ssStaged || (slotState s i == ssActivating || slotState s i == ssActive))

/-! ### The image -/

/-- A little-endian number of `n` bytes at an offset of an image that starts at `base`. -/
def imgNat (s : State) (base off n : Nat) : Nat := hbmNat s (base + off) n

/-- The image's header (R185). -/
def imgHeader (s : State) (base : Nat) : Nat := imgNat s base 0 256

/-- Header fields. -/
def hdrFields (h : Nat) : Nat := bits h 192 12
def hdrTiles (h : Nat) : Nat := bits h 208 10
def hdrFdn (h : Nat) : Nat := bits h 224 16
def hdrNsect (h : Nat) : Nat := bits h 240 16
def hdrModels (h : Nat) : Nat := bits h 256 9
def hdrLayers (h : Nat) : Nat := bits h 272 16
def hdrSize (h : Nat) : Nat := bits h 128 64
def hdrSectOff (h : Nat) : Nat := bits h 320 64

/-- Entry `i` of the section table (R186). -/
def sectEntry (s : State) (base i : Nat) : Nat := imgNat s base (hdrSectOff (imgHeader s base) + 32 * i) 32

/-- Fields of a section table entry. -/
def sectType (e : Nat) : Nat := bits e 0 15
def sectSkip (e : Nat) : Bool := bit1 e 15
def sectCount (e : Nat) : Nat := bits e 32 32
def sectOffset (e : Nat) : Nat := bits e 64 64
def sectSize (e : Nat) : Nat := bits e 128 64

/-- The section table. -/
def sections (s : State) (base : Nat) : List Nat :=
  (List.range (hdrNsect (imgHeader s base))).map (sectEntry s base)

/-- The entry of a section type; zero when the image has none. -/
def sectionOf (s : State) (base ty : Nat) : Nat := ((sections s base).find? fun e => sectType e == ty).getD 0

/-- Section types of R187. -/
def tyModels : Nat := 1
def tyLayers : Nat := 2
def tyTiles : Nat := 3
def tyMemplan : Nat := 4
def tyWindir : Nat := 5
def tyRoutes : Nat := 6
def tyPolicy : Nat := 7
def tyBlobs : Nat := 8

/-- Record `i` of a section whose records have `n` bytes. -/
def record (s : State) (base ty n i : Nat) : Nat := imgNat s base (sectOffset (sectionOf s base ty) + n * i) n

/-- Model record (R188), layer record (R189), tile record (R190), and the policy record (R192). -/
def modelRec (s : State) (base m : Nat) : Nat := record s base tyModels 128 m
def layerRec (s : State) (base l : Nat) : Nat := record s base tyLayers 64 l
def tileRec (s : State) (base t : Nat) : Nat := record s base tyTiles 64 t
def policyRec (s : State) (base : Nat) : Nat := record s base tyPolicy 64 0

/-- MEMPLAN records and WINDIR records (R192). -/
def memplan (s : State) (base : Nat) : List Nat :=
  (List.range (sectCount (sectionOf s base tyMemplan))).map (record s base tyMemplan 32)
def windir (s : State) (base : Nat) : List Nat :=
  (List.range (sectCount (sectionOf s base tyWindir))).map (record s base tyWindir 16)

/-- Fields of a model record. -/
def mdCopyOf (m : Nat) : Nat := bits m 8 8
def mdChunkBytes (m : Nat) : Nat := bits m 32 32
def mdMaxChunks (m : Nat) : Nat := bits m 64 7
def mdOutBytes (m : Nat) : Nat := bits m 80 32
def mdStateBytes (m : Nat) : Nat := bits m 128 32
def mdFirstLayer (m : Nat) : Nat := bits m 160 16
def mdLayers (m : Nat) : Nat := bits m 176 16

/-- Fields of a layer record. -/
def lyModel (l : Nat) : Nat := bits l 0 8
def lySwitchPt (l : Nat) : Bool := bit1 l 8
def lyTestWin (l : Nat) : Bool := bit1 l 9
def lyHorizon (l : Nat) : Nat := bits l 16 5
def lyIters (l : Nat) : Nat := bits l 32 16

/-- Fields of a tile record. -/
def tlLogical (t : Nat) : Nat := bits t 0 10
def tlSpillUnits (t : Nat) : Nat := bits t 16 11
def tlSpillBase (t : Nat) : Nat := bits t 32 16
def tlIstoreOff (t : Nat) : Nat := bits t 64 64
def tlIstoreLen (t : Nat) : Nat := bits t 128 18
def tlWmOff (t : Nat) : Nat := bits t 192 64
def tlWmUnits (t : Nat) : Nat := bits t 256 18
def tlTablesOff (t : Nat) : Nat := bits t 320 64
def tlGraphOff (t : Nat) : Nat := bits t 384 64
def tlGraphLen (t : Nat) : Nat := bits t 448 32

/-- Fields of the policy record. -/
def plWindow (p : Nat) : Nat := bits p 0 16
def plMax (p : Nat) : Nat := bits p 16 9
def plSwitchAge (p : Nat) : Nat := bits p 32 32
def plMinResident (p : Nat) : Nat := bits p 64 32
def plWeight (p prio : Nat) : Nat := bits p (96 + 8 * prio) 8

/-- Fields of a MEMPLAN record. -/
def mpTile (r : Nat) : Nat := bits r 0 10
def mpModel (r : Nat) : Nat := bits r 10 8
def mpMem (r : Nat) : Nat := bits r 18 2
def mpBase (r : Nat) : Nat := bits r 32 32
def mpSize (r : Nat) : Nat := bits r 64 32

/-- Layer graphs of a tile (R191): for each, its layer, and the offset of its header. -/
def graphsFrom (s : State) (base : Nat) : Nat → Nat → Nat → List (Nat × Nat)
  | 0, _, _ => []
  | n + 1, off, stop =>
    if stop ≤ off then []
    else
      let h := imgNat s base off 16
      let len := 16 + 16 * bits h 16 9 + 8 * bits h 25 9 + 8 * bits h 34 9
      (bits h 0 16, off) :: graphsFrom s base n (off + (len + 63) / 64 * 64) stop

/-- The layer graphs of a tile. -/
def tileGraphs (s : State) (base t : Nat) : List (Nat × Nat) :=
  let r := tileRec s base t
  graphsFrom s base (tlGraphLen r / 64) (tlGraphOff r) (tlGraphOff r + tlGraphLen r)

/-- A table of `n` records of `w` bytes at an offset of the image. -/
def imgTable (s : State) (base off w n : Nat) : List Nat := (List.range n).map fun i => imgNat s base (off + w * i) w

/-- A layer graph: its unit, queue and edge descriptors. -/
structure LayerGraph where
  units : List Nat
  queues : List Nat
  edges : List Nat
  deriving DecidableEq, Repr

/-- The layer graph whose header stands at an offset (R191). -/
def graphAt (s : State) (base off : Nat) : LayerGraph :=
  let h := imgNat s base off 16
  let nu := bits h 16 9
  let nq := bits h 25 9
  { units := imgTable s base (off + 16) 16 nu
    queues := imgTable s base (off + 16 + 16 * nu) 8 nq
    edges := imgTable s base (off + 16 + 16 * nu + 8 * nq) 8 (bits h 34 9) }

/-- The graph of a layer on a tile; empty when the layer has no units there. -/
def layerGraph (s : State) (base t l : Nat) : LayerGraph :=
  match (tileGraphs s base t).find? fun e => e.1 == l with
  | some e => graphAt s base e.2
  | none => { units := [], queues := [], edges := [] }

/-- Task table entry, window descriptor and notify list entry of a tile's tables (R191). -/
def tabTask (s : State) (base t k : Nat) : Nat := imgNat s base (tlTablesOff (tileRec s base t) + 16 * k) 16
def tabWindow (s : State) (base t w : Nat) : Nat := imgNat s base (tlTablesOff (tileRec s base t) + 1024 + 16 * w) 16
def tabNotify (s : State) (base t i : Nat) : Nat := imgNat s base (tlTablesOff (tileRec s base t) + 1280 + 4 * i) 4

/-- The used notify entries of a tile. -/
def notifyOf (s : State) (base t : Nat) : List Nat :=
  ((List.range 64).map (tabNotify s base t)).filter (· != 0xFFFFFFFF)

/-- Fields of a unit descriptor (R126). -/
def unKind (u : Nat) : Nat := bits u 0 4
def unOrdered (u : Nat) : Bool := bit1 u 4
def unGroup (u : Nat) : Nat := 2 ^ bits u 5 3
def unNin (u : Nat) : Nat := bits u 8 3
def unNout (u : Nat) : Nat := bits u 11 3
def unCtl (u : Nat) : Nat := bits u 14 2
def unTarget (u : Nat) : Nat := bits u 16 13
def unInq (u p : Nat) : Nat := bits u (32 + 8 * p) 8
def unOut (u p : Nat) : Nat := bits u (64 + 8 * p) 8
def unTask (u : Nat) : Nat := bits u 96 6

/-- Unit kinds (R125). -/
def ukSource : Nat := 0
def ukSink : Nat := 1
def ukPass : Nat := 2
def ukKernel : Nat := 3
def ukFork : Nat := 4
def ukSelect : Nat := 5
def ukMerge : Nat := 6

/-- Fields of a queue and of an edge descriptor (R127). -/
def quBase (q : Nat) : Nat := bits q 16 12
def quDepth (q : Nat) : Nat := bits q 0 9
def quRate (q : Nat) : Nat := bits q 9 6 + 1
def edDq (e : Nat) : Nat := bits e 0 8
def edTile (e : Nat) : Nat := bits e 8 10
def edPath (e : Nat) : Nat := bits e 18 2
def edCh (e : Nat) : Nat := bits e 20 8
def edRate (e : Nat) : Nat := bits e 28 6 + 1

/-- GMAX of a layer: the largest group size of its units on any tile (R130). -/
def gmax (s : State) (base l : Nat) : Nat :=
  max 1 (maxOr0 ((List.range (hdrTiles (imgHeader s base))).map fun t =>
    maxOr0 ((layerGraph s base t l).units.map unGroup)))

end Sys2Proof.Machine
end

