-- ==== Sys2Proof/Machine/Requests.lean ====
section
/-! DEFINITION. Requests as the supervisor holds them: chunks and their readiness, failure, the choice of a completion's
status, and the completion queues (R198, R206–R214, R317–R320). -/

namespace Sys2Proof.Machine

open Sys2Proof

/-! ### Descriptors and completions (R207, R212, R213) -/

/-- Fields of a request descriptor. -/
def dsOpcode (d : Nat) : Nat := bits d 0 8
def dsNewStream (d : Nat) : Bool := bit1 d 8
def dsEndStream (d : Nat) : Bool := bit1 d 9
def dsCid (d : Nat) : Nat := bits d 16 16
def dsCq (d : Nat) : Nat := bits d 32 6
def dsPrio (d : Nat) : Nat := bits d 38 2
def dsModel (d : Nat) : Nat := bits d 40 8
def dsSeason (d : Nat) : Nat := bits d 64 32
def dsSlot (d : Nat) : Nat := bits d 96 20
def dsInAddr (d : Nat) : Nat := bits d 128 40
def dsInLen (d : Nat) : Nat := bits d 192 32
def dsOutAddr (d : Nat) : Nat := bits d 256 40
def dsOutLen (d : Nat) : Nat := bits d 320 32
def dsDeadline (d : Nat) : Nat := bits d 384 32

/-- Opcodes of R207. -/
def opInfer : Nat := 1
def opFence : Nat := 2

/-- Completion status codes of R213. -/
def csSuccess : Nat := 0x00
def csPartial : Nat := 0x01
def csAbandoned : Nat := 0x02
def csBadDesc : Nat := 0x10
def csBadCq : Nat := 0x11
def csNoModel : Nat := 0x12
def csTooLarge : Nat := 0x13
def csBadSlot : Nat := 0x14
def csBadBuffer : Nat := 0x15
def csTransferFailed : Nat := 0x20
def csDataflowFault : Nat := 0x21
def csTileFault : Nat := 0x22
def csIntegrityFault : Nat := 0x23
def csMemoryUe : Nat := 0x24
def csDeadline : Nat := 0x25
def csSlotMismatch : Nat := 0x26
def csSeasonLost : Nat := 0x27

/-- Number of ones among the lowest `n` bits. -/
def popcount (v n : Nat) : Nat := ((List.range n).filter (bit1 v)).length

/-- The completion entry of a request with a given phase; DEGRADED when it ran in the 11-field state, or `deg`: every completion of
that state carries it (R212, R451). -/
def completionEntry (r : Request) (deg : Bool) (phase : Nat) : Nat :=
  let st := r.status.getD 0
  dsCid r.desc + r.sq * 2 ^ 16 + phase * 2 ^ 23 + st * 2 ^ 24 + r.sqHead * 2 ^ 32
    + b2n r.unverified * 2 ^ 48 + b2n (r.degraded || deg) * 2 ^ 49 + b2n r.remapped * 2 ^ 50
    + r.done * 2 ^ 64 + r.fail * 2 ^ 128 + (popcount r.done r.chunks * r.outBytes) % 2 ^ 32 * 2 ^ 192
    + (if st = csPartial then r.cause else 0) * 2 ^ 224 + r.failChunk * 2 ^ 232

/-! ### The list of requests -/

/-- A request by its number. -/
def findReq (s : State) (id : Nat) : Option Request := s.req.reqs.find? fun r => r.id == id

/-- Change the requests. -/
def mapReqs (f : Request → Request) (s : State) : State := { s with req := { s.req with reqs := s.req.reqs.map f } }

/-- Change one request. -/
def updReq (id : Nat) (f : Request → Request) (s : State) : State := mapReqs (fun r => if r.id = id then f r else r) s

/-- Whether a request's completion is held, its status chosen and counted (R319). -/
def heldReq (s : State) (id : Nat) : Bool := s.req.held.any fun e => e.2.contains id

/-- An earlier accepted request names the same stateful slot and is uncompleted (R40, R198). -/
def slotBusy (s : State) (r : Request) : Bool :=
  r.stateful && s.req.reqs.any fun x =>
    x.accepted && (x.stateful && (decide (x.id < r.id) && (dsSlot x.desc == dsSlot r.desc && x.status.isNone)))

/-- Whether a request's next chunk is ready (R198). -/
def chunkReady (s : State) (r : Request) : Bool :=
  r.accepted && (dsOpcode r.desc == opInfer && (r.status.isNone && (!r.running &&
    (!slotBusy s r && (seasonSlot s (dsSeason r.desc)).isSome))))

/-- Note the tick at which chunks become ready. -/
def refreshReady (s : State) : State :=
  mapReqs (fun r => if chunkReady s r then { r with ready := some (r.ready.getD s.devtime) } else { r with ready := none }) s

/-! ### What a DMA descriptor moves (R170, R171, R210) -/

def dmSrc (d : Nat) : Nat := bits d 0 4
def dmDst (d : Nat) : Nat := bits d 4 4
def dmNote (d : Nat) : Nat := bits d 8 2
def dmTask (d : Nat) : Nat := bits d 10 6
def dmLmem (d : Nat) : Nat := bits d 16 2
def dmSegLog (d : Nat) : Nat := bits d 20 4
def dmLength (d : Nat) : Nat := bits d 32 20
def dmTag (d : Nat) : Nat := bits d 52 12
def dmLoff (d : Nat) : Nat := bits d 64 17
def dmSoff (d : Nat) : Nat := bits d 96 16
def dmHaddr (d : Nat) : Nat := bits d 128 40
def dmFdn (d : Nat) : Nat := bits d 192 16
def dmRtile (d : Nat) : Nat := bits d 208 10
def dmRwin (d : Nat) : Nat := bits d 218 4
def dmRoff (d : Nat) : Nat := bits d 222 17
def dmAdv (d : Nat) : Nat := bits d 256 18
def dmLq (d : Nat) : Nat := bits d 274 8

/-- Kinds of an end. -/
def dkLocal : Nat := 0
def dkHbm : Nat := 1
def dkWindow : Nat := 2

/-- Whether an end of a transfer is of a kind. -/
def hasEnd (d k : Nat) : Bool := dmSrc d == k || dmDst d == k

/-- Whether both ends are local, and whether both are in HBM: then the ends the descriptor names are the destination (R171). -/
def localCopy (d : Nat) : Bool := dmSrc d == dkLocal && dmDst d == dkLocal
def hbmMove (d : Nat) : Bool := dmSrc d == dkHbm && dmDst d == dkHbm

/-- Where the HBM end that is read begins. -/
def readAddr (d : Nat) : Nat := if hbmMove d then 64 * Config.hbmSource d else dmHaddr d

/-- The stream state slot array (R204): its base, the size of a slot, and their number. -/
def slotArrayBase (s : State) : Nat := get s supSlotCfg SupSlotCfg.base * 4096
def slotSize (s : State) : Nat := 0x10000 * 2 ^ get s supSlotCfg SupSlotCfg.sizeLog2
def slotCount (s : State) : Nat := get s supSlotCfg SupSlotCfg.count

/-- Whether two ranges share an address. -/
def overlaps (a n b m : Nat) : Bool := decide (a < b + m) && (decide (b < a + n) && (decide (0 < n) && decide (0 < m)))

/-- The model record of a request. -/
def requestModel (s : State) (r : Request) : Nat :=
  match seasonSlot s (dsSeason r.desc) with
  | some i => modelRec s (slotBase s i) (dsModel r.desc)
  | none => 0

/-- Whether a range of HBM meets the input, the output or the stream state slot of a request's running chunk (R208, R210). -/
def meetsChunk (s : State) (r : Request) (a n : Nat) : Bool :=
  let m := requestModel s r
  overlaps a n (dsInAddr r.desc + r.next * mdChunkBytes m) (mdChunkBytes m) ||
    (overlaps a n (dsOutAddr r.desc + r.next * mdOutBytes m) (mdOutBytes m) ||
      (r.stateful && overlaps a n (slotArrayBase s + dsSlot r.desc * slotSize s) (slotSize s)))

/-- Whether a descriptor moves data of a request's chunk: an HBM end meets it; a transfer between tiles carries what all chunks of
the batch share (R210). -/
def movesChunk (s : State) (r : Request) (d : Nat) : Bool :=
  !hasEnd d dkHbm || (meetsChunk s r (dmHaddr d) (64 * dmLength d) ||
    (hbmMove d && meetsChunk s r (readAddr d) (64 * dmLength d)))

/-- DMA credits in use for a request's executing chunk, by tile and engine. -/
def owedCredits (s : State) (r : Request) : List (Nat × Nat × DmaCredit) :=
  if !r.running then []
  else s.tiles.flatMap fun x => x.2.engines.flatMap fun g => match g.2.run with
    | none => []
    | some d => if d.job.priv || !movesChunk s r d.job.desc then [] else d.credits.map fun c => (x.1, g.1, c)

/-! ### Completion of a request (R208, R210, R211) -/

/-- OBJECT of a completion's log entry (R519). -/
def reqObject (r : Request) : Nat := r.head * 2 ^ 31 + r.sq * 2 ^ 16 + dsCid r.desc

/-- Choose a request's status: its completion is due, behind those that completed before it. PARTIAL and execution
statuses are entered in the error log (R518, R519). -/
def finishReq (id st : Nat) (s : State) : State :=
  match findReq s id with
  | none => s
  | some r =>
    if r.status.isSome then s
    else
      let s := updReq id (fun r => { r with status := some st, running := false, ready := none }) s
      let s := { s with req := { s.req with due := s.req.due ++ [id] } }
      if st = csPartial ∨ 0x20 ≤ st then logEvent ⟨sevError, kFault, bQue, 0x690, st, reqObject r, r.detail⟩ s else s

/-- Bits `from` to `n` − 1. -/
def maskFrom (first n : Nat) : Nat := 2 ^ n - 2 ^ min first n

/-- The next chunk of a request fails: the later chunks are not run, and the status is the cause, or PARTIAL when some
chunk is DONE (R210, R211). -/
def chunkFail (id cause detail : Nat) (s : State) : State :=
  match findReq s id with
  | none => s
  | some r =>
    if r.status.isSome then s
    else
      let owed := owedCredits s r
      let s := updReq id (fun r => { r with fail := maskFrom r.next r.chunks, failChunk := r.next, cause := cause,
                                            detail := detail, owed := owed }) s
      refreshReady (finishReq id (if r.done = 0 then cause else csPartial) s)

/-- A chunk completes with its output and state written: the next one becomes ready, or the request completes. -/
def chunkDone (id : Nat) (s : State) : State :=
  match findReq s id with
  | none => s
  | some r =>
    if r.status.isSome then s
    else
      let s := updReq id (fun r => { r with done := r.done ||| 2 ^ r.next, next := r.next + 1, running := false }) s
      refreshReady (if r.next + 1 = r.chunks then finishReq id csSuccess s else s)

/-- Whether a chunk of a batch has not failed. -/
def batchLive (b : Batch) (id : Nat) : Bool := !b.gone.contains id

/-- Every chunk of a batch has failed. -/
def batchEmpty (b : Batch) : Bool := b.reqs.all fun i => !batchLive b i

/-- Chunks of the running batch have failed: the others keep their places. A batch without chunks is over once no layer runs. -/
def batchDrop (ids : List Nat) (s : State) : State :=
  match s.req.batch with
  | none => s
  | some b =>
    let b := { b with gone := b.gone ++ ids.filter fun i => b.reqs.contains i && batchLive b i }
    { s with req := { s.req with batch := if batchEmpty b && !b.layerRunning then none else some b } }

/-- Whether a batch runs. -/
def batchRunning (s : State) : Bool := s.req.batch.isSome

/-- A failure that stops the batch fails the running chunk of every request in it (R210). Tags of a layer run that was
open are abandoned (R513). -/
def batchFail (status _object detail : Nat) (s : State) : State :=
  match s.req.batch with
  | none => s
  | some b =>
    let open_ := ledCntN s LedCnt.tagsOpen
    let s := put (ledCnt LedCnt.tagsOpen) 0 (addR (ledCnt LedCnt.tagsAbandoned) open_ s)
    let s := { s with req := { s.req with batch := none, spillOpen := [], lastFailed := b.reqs } }
    b.reqs.foldl (fun s id => chunkFail id status detail s) s

/-- A compute or fabric reset: every request with a chunk executing completes with ABANDONED-AT-RESET (R214). -/
def abandonExecuting (s : State) : State :=
  let run := (s.req.reqs.filter fun r => r.running && r.status.isNone).map (·.id)
  let open_ := ledCntN s LedCnt.tagsOpen
  let s := put (ledCnt LedCnt.tagsOpen) 0 (addR (ledCnt LedCnt.tagsAbandoned) open_ s)
  let s := { s with req := { s.req with batch := none, choice := none, loaded := [], inputs := [], spillOpen := [],
                                        testOpen := false } }
  let s := run.foldl (fun s id =>
    finishReq id csAbandoned (updReq id (fun r => { r with fail := maskFrom r.next r.chunks, failChunk := r.next }) s)) s
  refreshReady s

/-- The requests executing now will carry REMAPPED (R212, R445). -/
def markRemapped (s : State) : State := mapReqs (fun r => if r.running then { r with remapped := true } else r) s

/-- Waiting requests whose season is held only by a REFUSED slot complete with SEASON_LOST (R195, R197). -/
def seasonLost (s : State) : State :=
  let lost := s.req.reqs.filter fun r =>
    r.accepted && (dsOpcode r.desc == opInfer && (r.status.isNone && (!r.running &&
      ((seasonSlot s (dsSeason r.desc)).isNone &&
        (List.range 8).any fun i => slotState s i == ssRefused && slotSeason s i == dsSeason r.desc))))
  lost.foldl (fun s r => chunkFail r.id csSeasonLost 0 s) s

/-! ### Completion queues (R319, R320) -/

/-- Key of a completion queue. -/
def cqKey (h q : Nat) : Nat := 64 * h + q

/-- Entries of a completion ring. -/
def cqSize (s : State) (h q : Nat) : Nat := 2 ^ get s (queCqCfg h q) QueCqCfg.sizeLog2

/-- Head and tail of a completion ring. -/
def cqHeadOf (s : State) (h q : Nat) : Nat := tget (fun _ => 0) s.req.cqHead (cqKey h q)
def cqTail (s : State) (h q : Nat) : Nat := get s (queCqStat h q) QueCqStat.tail

/-- A ring is full when its tail is one entry behind its head (R317). -/
def cqFull (s : State) (h q : Nat) : Bool := (cqTail s h q + 1) % cqSize s h q == cqHeadOf s h q % cqSize s h q

/-- Completions held for a queue, in order. -/
def cqHeld (s : State) (h q : Nat) : List Nat := tget (fun _ => []) s.req.held (cqKey h q)

/-- Set the completions held for a queue, with HELD and HELD_CNT (R317). -/
def setCqHeld (h q : Nat) (l : List Nat) (s : State) : State :=
  let s := { s with req := { s.req with held := tset (fun _ => []) (cqKey h q) l s.req.held } }
  upd (queCqStat h q) QueCqStat.held (b2n !l.isEmpty) (upd (queCqStat h q) QueCqStat.heldCnt (min 65535 l.length) s)

/-- Note that a queue has entries not yet signalled; the signal is MSIX_SIGNAL's. -/
def setUnsignalled (h q : Nat) (v : Bool) (s : State) : State :=
  { s with host := { s.host with unsignalled := tset (fun _ => false) (cqKey h q) v s.host.unsignalled } }

/-- Write one completion entry at the tail of its ring; PHASE flips when the tail wraps. The request is completed and
leaves the supervisor's queues. -/
def ringWrite (r : Request) (s : State) : State :=
  let h := r.head
  let q := r.cq
  let tail := cqTail s h q
  let phase := get s (queCqStat h q) QueCqStat.phase
  let a := get s (queCqCfg h q) QueCqCfg.base * 4096 + 32 * tail
  let s := hbmStore a (toBytes 32 (completionEntry r (degraded s) phase)) s
  let next := (tail + 1) % cqSize s h q
  let s := upd (queCqStat h q) QueCqStat.tail next s
  let s := if next = 0 then upd (queCqStat h q) QueCqStat.phase (1 - phase) s else s
  let s := addR (ledReq h LedReq.written) 1 (setUnsignalled h q true s)
  { s with req := { s.req with reqs := s.req.reqs.filter fun x => x.id != r.id } }

/-- The ledger class of a completion (R513): rejected, success, partial, abandoned, or error. -/
def ledClass (r : Request) : Nat :=
  if !r.accepted then LedReq.rejected
  else match r.status.getD 0 with
    | 0x00 => LedReq.success
    | 0x01 => LedReq.partial
    | 0x02 => LedReq.abandoned
    | _ => LedReq.error

/-- Count a completion as produced. -/
def countProduced (r : Request) (s : State) : State :=
  let s := addR (ledReq r.head (ledClass r)) 1 s
  if r.accepted then subR (ledReq r.head LedReq.inFlight) 1 s else s

/-- FENCEs that wait only for requests completed by now complete with SUCCESS (R208). -/
def fencesDue (s : State) : State :=
  let due := s.req.reqs.filter fun r =>
    r.accepted && (dsOpcode r.desc == opFence && (r.status.isNone &&
      !(s.req.reqs.any fun x => x.accepted && (x.head == r.head && (x.sq == r.sq &&
        (decide (x.id < r.id) && !heldReq s x.id))))))
  due.foldl (fun s r => finishReq r.id csSuccess s) s

/-- Disable every queue of a head whose link is down, once no accepted request of it remains (R321). -/
def closeHead (h : Nat) (s : State) : State :=
  if s.host.closing.contains h && !(s.req.reqs.any fun r => r.accepted && r.head == h) then
    let s := (List.range 64).foldl (fun s q =>
      upd (queSqCfg h q) QueSqCfg.enable 0 (upd (queCqCfg h q) QueCqCfg.enable 0 s)) s
    { s with host := { s.host with closing := s.host.closing.filter (· != h) } }
  else s

/-- Produce a due completion: written to its ring, or held when the ring is full or others are held before it (R319). -/
def produce (r : Request) (s : State) : State :=
  let s := countProduced r { s with req := { s.req with due := s.req.due.filter (· != r.id) } }
  let s := if cqFull s r.head r.cq || !(cqHeld s r.head r.cq).isEmpty then
      let s := setCqHeld r.head r.cq (cqHeld s r.head r.cq ++ [r.id]) s
      raiseEvent r.head evCqHeld (addR (ledReq r.head LedReq.held) 1 s)
    else ringWrite r s
  refreshReady (closeHead 1 (closeHead 0 (fencesDue s)))

/-- Write held completions of a queue while its ring has room, in their original order. -/
def drainHeld (h q : Nat) : Nat → State → State
  | 0, s => s
  | n + 1, s =>
    match cqHeld s h q with
    | [] => s
    | id :: rest =>
      if cqFull s h q then s
      else
        match findReq s id with
        | none => drainHeld h q n (setCqHeld h q rest s)
        | some r => drainHeld h q n (subR (ledReq h LedReq.held) 1 (setCqHeld h q rest (ringWrite r s)))

end Sys2Proof.Machine
end

