-- ==== Sys2Proof/Machine/Host.lean ====
section
/-! DEFINITION. The host ports: doorbells and queue configuration, host memory and its decoders, interrupts, the loss of
a head, the memory device's mailbox and DOE (R308–R323, R523, R553). -/

namespace Sys2Proof.Machine

open Sys2Proof

/-- Give the answer at the boundary. -/
def answer (a : Answer) (s : State) : State := { s with answer := a }

/-! ### Head ranges (R311) -/

/-- First address and size of a head's range. -/
def headBase (s : State) (h : Nat) : Nat := get s (ownHeadRange h) OwnHeadRange.base * 2 ^ 30
def headSize (s : State) (h : Nat) : Nat := get s (ownHeadRange h) OwnHeadRange.size * 2 ^ 30

/-- Whether a range of addresses lies in a span. -/
def spanHolds (base size a n : Nat) : Bool := decide (base ≤ a) && decide (a + n ≤ base + size)

/-- Whether a range of addresses is exposed to a head. -/
def exposed (s : State) (h a n : Nat) : Bool := spanHolds (headBase s h) (headSize s h) a n

/-! ### Queue configuration (R315, R316) -/

/-- Whether a head's link is up (R322). -/
def linkUp (s : State) (h : Nat) : Bool := get s (queHeadStat h) QueHeadStat.linkUp == 1

/-- Bits of QUE_SQ_CFG and of QUE_CQ_CFG that are not reserved. -/
def sqCfgMask (v : Nat) : Reg := BitVec.ofNat 64 (v % 2 ^ 11 + v / 2 ^ 12 % 2 ^ 28 * 2 ^ 12)
def cqCfgMask (v : Nat) : Reg := BitVec.ofNat 64 (v % 2 ^ 48)

/-- Whether a ring of a queue lies wholly in its head's range; `w` is the bytes of an entry. -/
def ringInRange (s : State) (h base sizeLog2 w : Nat) : Bool := exposed s h (base * 4096) (2 ^ sizeLog2 * w)

/-- Whether a queue configuration write is discarded on account of ENABLE staying 1 or SIZE_LOG2, the rules that both
kinds of queue share. -/
def cfgRefused (old new : Reg) (en size : Fld) : Bool :=
  decide (getF new size < 4) || (decide (12 < getF new size) ||
    (getF old en == 1 && (setF old en 0 != setF new en 0)))

/-- Whether a write of QUE_SQ_CFG is discarded (R316). -/
def sqCfgRefused (s : State) (h q : Nat) (new : Reg) : Bool :=
  let old := rd s (queSqCfg h q)
  cfgRefused old new QueSqCfg.enable QueSqCfg.sizeLog2 ||
    (getF new QueSqCfg.enable == 1 && (getF old QueSqCfg.enable == 0 &&
      (!ringInRange s h (getF new QueSqCfg.base) (getF new QueSqCfg.sizeLog2) 64 ||
        get s (queCqCfg h (getF new QueSqCfg.defCq)) QueCqCfg.enable == 0)))

/-- Whether a completion queue is in use: an enabled submission queue has it as default, an accepted request names it
and is uncompleted, or an entry for it is held. -/
def cqInUse (s : State) (h q : Nat) : Bool :=
  (List.range 64).any (fun i => get s (queSqCfg h i) QueSqCfg.enable == 1 && get s (queSqCfg h i) QueSqCfg.defCq == q) ||
    (s.req.reqs.any (fun r => r.accepted && (r.head == h && r.cq == q)) || !(cqHeld s h q).isEmpty)

/-- Whether a write of QUE_CQ_CFG is discarded (R316). -/
def cqCfgRefused (s : State) (h q : Nat) (new : Reg) : Bool :=
  let old := rd s (queCqCfg h q)
  cfgRefused old new QueCqCfg.enable QueCqCfg.sizeLog2 ||
    ((getF new QueCqCfg.enable == 1 && (getF old QueCqCfg.enable == 0 &&
        !ringInRange s h (getF new QueCqCfg.base) (getF new QueCqCfg.sizeLog2) 32)) ||
      (getF new QueCqCfg.enable == 0 && (getF old QueCqCfg.enable == 1 && cqInUse s h q)))

/-- Apply a write of QUE_SQ_CFG: enabling sets head and tail to 0. -/
def sqCfgApply (h q : Nat) (new : Reg) (s : State) : State :=
  let was := get s (queSqCfg h q) QueSqCfg.enable
  let s := put (queSqCfg h q) new s
  if was = 0 ∧ getF new QueSqCfg.enable = 1 then
    upd (queSqStat h q) QueSqStat.head 0 (upd (queSqStat h q) QueSqStat.tail 0 s)
  else s

/-- Apply a write of QUE_CQ_CFG: enabling sets head and tail to 0 and the phase to 1. -/
def cqCfgApply (h q : Nat) (new : Reg) (s : State) : State :=
  let was := get s (queCqCfg h q) QueCqCfg.enable
  let s := put (queCqCfg h q) new s
  if was = 0 ∧ getF new QueCqCfg.enable = 1 then
    let s := upd (queCqStat h q) QueCqStat.tail 0 (upd (queCqStat h q) QueCqStat.phase 1 s)
    { s with req := { s.req with cqHead := tset (fun _ => 0) (cqKey h q) 0 s.req.cqHead } }
  else s

/-- A write of QUE_SQ_CFG as R316 judges it. -/
def sqCfgWrite (m : Master) (h q off width v : Nat) (s : State) : State :=
  if sqCfgRefused s h q (sqCfgMask v) then refusedWrite m off width s else sqCfgApply h q (sqCfgMask v) s

/-- A write of QUE_CQ_CFG as R316 judges it. -/
def cqCfgWrite (m : Master) (h q off width v : Nat) (s : State) : State :=
  if cqCfgRefused s h q (cqCfgMask v) then refusedWrite m off width s else cqCfgApply h q (cqCfgMask v) s

/-- SQ_CFG_WRITE (R316). -/
def execSqCfgWrite (m : Master) (h : Head) (q : QueueId) (half : Half) (v : Nat) (s : State) :
    Host.Outcome State Fault Refusal :=
  let off := queSqCfg (hnum h) q
  .next (powered (asHead m h (halfOff off half) (halfWidth half) fun s =>
    sqCfgWrite m (hnum h) q (halfOff off half) (halfWidth half) (mergeHalf half (rd s off) v) s) s)

/-- CQ_CFG_WRITE (R316). -/
def execCqCfgWrite (m : Master) (h : Head) (q : QueueId) (half : Half) (v : Nat) (s : State) :
    Host.Outcome State Fault Refusal :=
  let off := queCqCfg (hnum h) q
  .next (powered (asHead m h (halfOff off half) (halfWidth half) fun s =>
    cqCfgWrite m (hnum h) q (halfOff off half) (halfWidth half) (mergeHalf half (rd s off) v) s) s)

/-! ### Doorbells (R317) -/

/-- A doorbell is discarded: DB_ERR of its queue and of QUE_EVENT are set. -/
def dbErr (h off : Nat) (f : Fld) (s : State) : State := raiseEvent h evDbErr (upd off f 1 s)

/-- A write of a submission queue's doorbell: accepted while the head's link is up (R321), it records the new tail;
a tail at or above the ring's size, or a disabled queue, discards it. -/
def sqDoorbell (h q tail : Nat) (s : State) : State :=
  if !linkUp s h then s
  else if get s (queSqCfg h q) QueSqCfg.enable = 0 ∨ 2 ^ get s (queSqCfg h q) QueSqCfg.sizeLog2 ≤ tail then
    dbErr h (queSqStat h q) QueSqStat.dbErr s
  else upd (queSqStat h q) QueSqStat.tail tail s

/-- Whether a new head lies beyond a completion ring's tail: not among the entries from the old head to the tail. -/
def beyondTail (size old tail new : Nat) : Bool := decide ((tail + size - old % size) % size < (new + size - old % size) % size)

/-- A write of a completion queue's doorbell frees entries, and held completions are written in their order (R317,
R319). -/
def cqDoorbell (h q head : Nat) (s : State) : State :=
  if !linkUp s h then s
  else if get s (queCqCfg h q) QueCqCfg.enable = 0 ∨ cqSize s h q ≤ head ∨
      beyondTail (cqSize s h q) (cqHeadOf s h q) (cqTail s h q) head then dbErr h (queCqStat h q) QueCqStat.dbErr s
  else
    let s := { s with req := { s.req with cqHead := tset (fun _ => 0) (cqKey h q) head s.req.cqHead } }
    refreshReady (closeHead h (fencesDue (drainHeld h q (cqHeld s h q).length s)))

/-- SQ_DOORBELL (R317). -/
def execSqDoorbell (m : Master) (h : Head) (q : QueueId) (tail : Nat) (s : State) : Host.Outcome State Fault Refusal :=
  .next (powered (asHead m h (queSqDb (hnum h) q) 32 (sqDoorbell (hnum h) q (tail % 4096))) s)

/-- CQ_DOORBELL (R317). -/
def execCqDoorbell (m : Master) (h : Head) (q : QueueId) (head : Nat) (s : State) : Host.Outcome State Fault Refusal :=
  .next (powered (asHead m h (queCqDb (hnum h) q) 32 (cqDoorbell (hnum h) q (head % 4096))) s)

/-- MSIX_SIGNAL: a queue with entries not yet announced signals its vector, no sooner than AGG_US after its last signal
(R320); a head whose link is down gets no signal (R321). -/
def execMsixSignal (h : Head) (q : QueueId) (s : State) : Host.Outcome State Fault Refusal :=
  let k := hnum h
  let key := cqKey k q
  .next (powered (fun s =>
    let wait := get s (queCqCfg k q) QueCqCfg.aggUs * usTicks
    let soon := match tget (fun _ => none) s.host.signalled key with
      | some t => decide (s.devtime < t + wait)
      | none => false
    if tget (fun _ => false) s.host.unsignalled key && (linkUp s k && (get s (queCqCfg k q) QueCqCfg.irqEn == 1 && !soon)) then
      let s := signalVector k (get s (queCqCfg k q) QueCqCfg.vec) (setUnsignalled k q false s)
      { s with host := { s.host with signalled := tset (fun _ => none) key (some s.devtime) s.host.signalled } }
    else s) s)

/-! ### Head ranges and decoders (R311, R312) -/

/-- Committed decoder of a head: base and size of its device physical span. -/
def decoder (s : State) (h d : Nat) : Option (Nat × Nat) :=
  if bit1 (get s (queHeadStat h) QueHeadStat.decCommit) d then some (tget (fun _ => (0, 0)) s.host.decoders (4 * h + d))
  else none

/-- Whether an enabled ring or a committed decoder of a head would fall outside a span. -/
def outsideSpan (s : State) (h base size : Nat) : Bool :=
  (List.range 4).any (fun d => match decoder s h d with
    | some (b, n) => !spanHolds base size b n
    | none => false) ||
  (List.range 64).any (fun q =>
    (get s (queSqCfg h q) QueSqCfg.enable == 1 && !spanHolds base size (get s (queSqCfg h q) QueSqCfg.base * 4096)
      (2 ^ get s (queSqCfg h q) QueSqCfg.sizeLog2 * 64)) ||
    (get s (queCqCfg h q) QueCqCfg.enable == 1 && !spanHolds base size (get s (queCqCfg h q) QueCqCfg.base * 4096)
      (2 ^ get s (queCqCfg h q) QueCqCfg.sizeLog2 * 32)))

/-- Whether an accepted, uncompleted request of a head names a buffer outside a span. -/
def bufferOutside (s : State) (h base size : Nat) : Bool :=
  s.req.reqs.any fun r => r.accepted && (r.head == h && (dsOpcode r.desc == opInfer &&
    !(spanHolds base size (dsInAddr r.desc) (dsInLen r.desc) && spanHolds base size (dsOutAddr r.desc) (dsOutLen r.desc))))

/-- A write of OWN_HEAD_RANGE by the owner (R311). -/
def headRangeWrite (m : Master) (h v : Nat) (s : State) : State :=
  let base := bits v 0 10 * 2 ^ 30
  let size := bits v 10 10 * 2 ^ 30
  if 512 < bits v 10 10 ∨ reservedBase s < base + size ∨ outsideSpan s h base size ∨ bufferOutside s h base size then
    refusedWrite m (ownHeadRange h) 32 s
  else put (ownHeadRange h) (BitVec.ofNat 64 (v % 2 ^ 20)) s

/-- OWN_HEAD_RANGE_WRITE (R311). -/
def execOwnHeadRangeWrite (m : Master) (h : Head) (v : Nat) (s : State) : Host.Outcome State Fault Refusal :=
  .next (powered (asOwner m (ownHeadRange (hnum h)) 32 (headRangeWrite m (hnum h) v)) s)

/-- End of the spans of the committed decoders below one: the base of the head range plus their sizes and skips. -/
def decodersEnd (s : State) (h d : Nat) : Nat :=
  (List.range d).foldl (fun e i => match decoder s h i with
    | some (b, n) => max e (b + n)
    | none => e) (headBase s h)

/-- HDM_COMMIT: system software commits decoder `d` of a head with a size and its DPA skip, in bytes. It fails when the
span would leave the head range, the size is no multiple of 256 MiB, or the decoder is locked by an earlier commit. -/
def execHdmCommit (h : Head) (d : Fin 4) (size skip : Nat) (s : State) : Host.Outcome State Fault Refusal :=
  let k := hnum h
  .next (powered (fun s =>
    let base := decodersEnd s k d + skip
    if linkUp s k && ((decoder s k d).isNone && (decide (0 < size) && (size % 0x10000000 == 0 && exposed s k base size))) then
      let s := { s with host := { s.host with decoders := tset (fun _ => (0, 0)) (4 * k + d) (base, size) s.host.decoders } }
      answer .done (upd (queHeadStat k) QueHeadStat.decCommit (get s (queHeadStat k) QueHeadStat.decCommit ||| 2 ^ d.val) s)
    else answer .notCommitted s) s)

/-! ### CXL.mem (R313, R314) -/

/-- Whether a 64-byte line is mapped by a committed decoder of a head whose link is up. -/
def mapped (s : State) (h a : Nat) : Bool :=
  linkUp s h && (List.range 4).any fun d => match decoder s h d with
    | some (b, n) => spanHolds b n a 64
    | none => false

/-- Whether CXL.mem serves no data: in SPRING and while a fabric reset runs (R314). -/
def memClosed (s : State) : Bool := devState s == .spring || s.boot.fabricReset

/-- CXL_MEM_READ: data, or poisoned data when the line cannot be delivered (R266, R314). An address that no decoder
maps reaches no memory. -/
def execCxlMemRead (h : Head) (dpa : Nat) (s : State) : Host.Outcome State Fault Refusal :=
  .next (powered (fun s =>
    let a := dpa / 64 * 64
    if !mapped s (hnum h) a then answer .discarded s
    else if memClosed s then answer .poison s
    else
      let r := hbmTouch a 64 s
      if r.1 then answer .poison r.2 else answer (.data (hbmRead r.2 a 64)) r.2) s)

/-- Exactly `n` bytes: cut, or padded with zeros. -/
def padTo (n : Nat) (bs : List Byte) : List Byte := (bs ++ List.replicate n 0).take n

/-- CXL_MEM_WRITE: the line is written, or dropped and logged; poison makes both of its bursts uncorrectable (R313,
R314). -/
def execCxlMemWrite (h : Head) (dpa : Nat) (data : List Byte) (poison : Bool) (s : State) :
    Host.Outcome State Fault Refusal :=
  .next (powered (fun s =>
    let a := dpa / 64 * 64
    if !mapped s (hnum h) a then answer .discarded s
    else if memClosed s ∨ homeFailed s a then answer .done (logOpen sevError kRefused bQue 314 0 (hnum h) s)
    else
      let s := hbmStore a (padTo 64 data) s
      let bad := fun (b : Nat) (s : State) => setBurst b (poisonErr (burstErr s b).hard) s
      answer .done (if poison then bad (a / 32) (bad (a / 32 + 1) s) else s)) s)

/-! ### Loss and return of a head (R321, R323, R553) -/

/-- A transport's SPDM connection ends (R505). -/
def spdmClose (k : Nat) (s : State) : State := { s with spdm := tset (fun _ => {}) k {} s.spdm }

/-- A head's link goes down (R321). -/
def headDown (h : Nat) (s : State) : State :=
  if !linkUp s h then s
  else
    let s := spdmClose h (put (queHeadStat h) 0 s)
    let s := (List.range 65).foldl (fun s v => put (msixAddr h v) (regReset (msixAddr h v))
      (put (msixData h v) (regReset (msixData h v)) s)) s
    let s := put (msixPba h 0) 0 (put (msixPba h 1) 0 s)
    let s := { s with host := { s.host with closing := h :: s.host.closing.filter (· != h) } }
    logOpen sevNotice kState bQue 321 0 h (closeHead h (reholder s))

/-- HEAD_LINK_DOWN (R321). -/
def execHeadLinkDown (h : Head) (s : State) : Host.Outcome State Fault Refusal := .next (powered (headDown (hnum h)) s)

/-- HEAD_LINK_UP: the link is trained and CXL.io enabled; the master becomes present (R309, R322, R325). In SPRING a
head trains only once its controller's firmware runs, after t7 of R437. -/
def execHeadLinkUp (h : Head) (x4 slow : Bool) (s : State) : Host.Outcome State Fault Refusal :=
  let k := hnum h
  .next (powered (fun s =>
    if headOff s k || (linkUp s k || ((tget (fun _ => none) s.host.perst k).isSome ||
        (devState s == .spring && !s.boot.steps.contains 7))) then s
    else
      let s := upd (queHeadStat k) QueHeadStat.linkUp 1 (upd (queHeadStat k) QueHeadStat.width (if x4 then 4 else 8) s)
      logOpen sevNotice kState bQue 321 1 k (reholder (upd (queHeadStat k) QueHeadStat.rate (b2n slow) s))) s)

/-- PERST_ASSERT: asserted for at least 100 µs, it takes the head's link down (R553). -/
def execPerstAssert (h : Head) (us : Nat) (s : State) : Host.Outcome State Fault Refusal :=
  .next (powered (fun s =>
    if us < 100 then s
    else
      let s := { s with host := { s.host with perst := tset (fun _ => none) (hnum h) (some s.devtime) s.host.perst } }
      headDown (hnum h) s) s)

/-- PERST_DEASSERT: the head's training starts; HEAD_LINK_UP is its end (R553). -/
def execPerstDeassert (h : Head) (s : State) : Host.Outcome State Fault Refusal :=
  .next (powered (fun s =>
    { s with host := { s.host with perst := tset (fun _ => none) (hnum h) none s.host.perst } }) s)

/-! ### Mailbox and DOE (R309, R423, R523) -/

/-- A mailbox or DOE command reaches a head while its link is up. -/
def atHead (h : Head) (f : State → State) (s : State) : State := powered (fun s => if linkUp s (hnum h) then f s else s) s

/-- IDENTIFY_MEMORY_DEVICE. -/
def execIdentifyMemoryDevice (h : Head) (s : State) : Host.Outcome State Fault Refusal :=
  .next (atHead h (answer (.mailbox (Config.mailboxData 0 (hnum h)))) s)

/-- GET_SUPPORTED_LOGS. -/
def execGetSupportedLogs (h : Head) (s : State) : Host.Outcome State Fault Refusal :=
  .next (atHead h (answer (.mailbox (Config.mailboxData 1 (hnum h)))) s)

/-- GET_LOG returns the Command Effects Log only. -/
def execGetLog (h : Head) (uuid : Nat) (s : State) : Host.Outcome State Fault Refusal :=
  .next (atHead h (answer (if uuid = Config.effectsLogUuid then .mailbox (Config.mailboxData 2 (hnum h)) else .unsupported)) s)

/-- The 32 bytes of an error-log entry (R519). -/
def entryBytes (e : LogEntry) : List Byte :=
  toBytes 32 (e.seq % 2 ^ 32 + e.time % 2 ^ 64 * 2 ^ 32 + e.sev % 8 * 2 ^ 96 + b2n e.host * 2 ^ 99 + e.kind % 16 * 2 ^ 100
    + e.block % 16 * 2 ^ 104 + e.source % 4096 * 2 ^ 108 + e.code % 65536 * 2 ^ 128 + e.rep % 65536 * 2 ^ 144
    + e.object % 2 ^ 32 * 2 ^ 160 + e.detail % 2 ^ 64 * 2 ^ 192)

/-- The UUID of the vendor event record, its bytes in the order they are written (R523). -/
def eventUuid : List Byte :=
  [0x8f, 0x31, 0xc6, 0xd2, 0x5a, 0x0e, 0x4b, 0x71, 0x9e, 0x24, 0xd0, 0x7a, 0x13, 0xb9, 0x5c, 0x48]

/-- The number of a CXL event log. -/
def cxlLogNum : CxlLog → Nat
  | .informational => 0
  | .warning => 1
  | .failure => 2
  | .fatal => 3

/-- One event log of a head. -/
def cxlLog (s : State) (h : Nat) (l : CxlLog) : CxlEvents := tget (fun _ => {}) s.log.cxl (4 * h + cxlLogNum l)

/-- GET_EVENT_RECORDS returns the entries of a head's event log as vendor records, with its overflow. -/
def execGetEventRecords (h : Head) (log : CxlLog) (s : State) : Host.Outcome State Fault Refusal :=
  .next (atHead h (fun s =>
    let c := cxlLog s (hnum h) log
    answer (.events c.overflow c.lost (c.entries.map fun e => eventUuid ++ entryBytes e)) s) s)

/-- CLEAR_EVENT_RECORDS removes entries, by SEQ, from that head's log only. The overflow flag and count end with the
entries of an emptied log. -/
def execClearEventRecords (h : Head) (log : CxlLog) (seqs : List Nat) (s : State) : Host.Outcome State Fault Refusal :=
  .next (atHead h (fun s =>
    let c := cxlLog s (hnum h) log
    let rest := c.entries.filter fun e => !seqs.contains e.seq
    let c' : CxlEvents := if rest.isEmpty then {} else { c with entries := rest }
    answer .done { s with log := { s.log with cxl := tset (fun _ => {}) (4 * hnum h + cxlLogNum log) c' s.log.cxl } }) s)

/-- UTC in ns by R423: floor(DEVTIME × 50 ÷ 47) plus the signed offset. -/
def utcNs (s : State) : Int := (s.devtime * 50 / 47 : Nat) + signed 64 (rd s timEpoch).toNat

/-- GET_TIMESTAMP returns DEVTIME mapped by the epoch offset, or 0 until an offset is written. -/
def execGetTimestamp (h : Head) (s : State) : Host.Outcome State Fault Refusal :=
  .next (atHead h (fun s =>
    answer (.mailbox (toBytes 8 (if get s timStat TimStat.epochSet = 1 then unsigned 64 (utcNs s) else 0))) s) s)

/-- GET_HEALTH_INFO. -/
def execGetHealthInfo (h : Head) (s : State) : Host.Outcome State Fault Refusal :=
  .next (atHead h (answer (.mailbox (Config.mailboxData 3 (hnum h)))) s)

/-- SET_TIMESTAMP completes with Unsupported. -/
def execSetTimestamp (h : Head) (_v : Nat) (s : State) : Host.Outcome State Fault Refusal :=
  .next (atHead h (answer .unsupported) s)

/-- MAILBOX_UNSUPPORTED: every other command completes with Unsupported. -/
def execMailboxUnsupported (h : Head) (_opcode : Nat) (s : State) : Host.Outcome State Fault Refusal :=
  .next (atHead h (answer .unsupported) s)

/-- DOE_DISCOVERY reports the three protocols, each with the index of the next; beyond the last there is none. -/
def execDoeDiscovery (h : Head) (index : Nat) (s : State) : Host.Outcome State Fault Refusal :=
  .next (atHead h (answer (if index < 3 then .doe index ((index + 1) % 3) else .discarded)) s)

/-- CDAT_TABLE_ACCESS. -/
def execCdatTableAccess (h : Head) (entry : Nat) (s : State) : Host.Outcome State Fault Refusal :=
  .next (atHead h (answer (.cdat (Config.cdat (hnum h) entry))) s)

end Sys2Proof.Machine
end

