-- ==== Sys2Proof/Machine/TileOps.lean ====
section
/-! DEFINITION. What the tile's commands share: its state and memories, tasks and windows, faults, tile reset, and the
loss of a tile's power (R113–R119, R144, R156–R165, R179). -/

namespace Sys2Proof.Machine

open Sys2Proof

/-! ### Tile state -/

/-- A tile besides its registers. -/
def tile (s : State) (t : Nat) : TileState := tget (fun _ => {}) s.tiles t

/-- Replace a tile. -/
def setTile (t : Nat) (x : TileState) (s : State) : State := { s with tiles := tset (fun _ => {}) t x s.tiles }

/-- Change a tile. -/
def updTile (t : Nat) (f : TileState → TileState) (s : State) : State := setTile t (f (tile s t)) s

/-- States of R113. -/
def tsOff : Nat := 0
def tsIdle : Nat := 1
def tsRun : Nat := 2
def tsDrain : Nat := 3
def tsHalt : Nat := 4
def tsTest : Nat := 5

/-- State of a tile: OFF while its site is switched off (R113). -/
def tileSt (s : State) (t : Nat) : Nat := if tileOff s t then tsOff else get s (tilStat t) TilStat.state

/-- Set TIL_STAT.STATE. -/
def setTileSt (t v : Nat) (s : State) : State := upd (tilStat t) TilStat.state v s

/-- Whether a tile's units may work on: RUN or DRAIN, with no fault held. -/
def tileWorks (s : State) (t : Nat) : Bool := tileSt s t == tsRun || tileSt s t == tsDrain

/-- Tiles that hold units of the active layer's graph. -/
def graphTiles (s : State) : List Nat := (s.tiles.filter fun e => !e.2.unitTab.isEmpty).map (·.1)

/-- Whether the tile counters count: CNT_FREEZE is 0 (R120). -/
def counting (s : State) (t : Nat) : Bool := get s (tilCtrl t) TilCtrl.cntFreeze == 0

/-- Raise a tile counter unless it is frozen. -/
def tileCount1 (t off n : Nat) (s : State) : State := if counting s t && n != 0 then addR off n s else s

/-! ### Memories (R155, R156) -/

/-- Memory codes: 0 WM, 1 AM, 2 PM. -/
def memWm : Nat := 0
def memAm : Nat := 1
def memPm : Nat := 2

/-- Units of 64 bytes in a memory. -/
def memUnits (k : Nat) : Nat := if k = 0 then 131072 else if k = 1 then 49152 else if k = 2 then 16384 else 0

/-- What an unlisted byte of a tile memory reads as. -/
def tileDefault (_ : Nat) : Byte := 0

/-- The bytes of a memory. -/
def memOf (x : TileState) (k : Nat) : List Host.Cell := if k = 0 then x.wm else if k = 1 then x.am else x.pm

/-- Replace the bytes of a memory. -/
def setMem (k : Nat) (m : List Host.Cell) (x : TileState) : TileState :=
  if k = 0 then { x with wm := m } else if k = 1 then { x with am := m } else { x with pm := m }

/-- `n` bytes of a list of cells. -/
def cellsRead (m : List Host.Cell) (a : Nat) : Nat → List Byte
  | 0 => []
  | n + 1 => tget tileDefault m a :: cellsRead m (a + 1) n

/-- Read `n` bytes of a memory. -/
def memRead (x : TileState) (k a n : Nat) : List Byte := cellsRead (memOf x k) a n

/-- Read a little-endian number. -/
def memNat (x : TileState) (k a n : Nat) : Nat := fromBytes (memRead x k a n)

/-- A write to AM sets the sidebands of its units anew (R51). -/
def stampUnits (u n : Nat) (x : TileState) : TileState :=
  { x with
    amWrites := x.amWrites + 1
    side := (List.range n).foldl (fun m i => tset (fun _ => 0) (u + i) (x.amWrites + 1) m) x.side
    anchors := tdrop (fun i => decide (u ≤ i) && decide (i < u + n)) x.anchors }

/-- Write bytes to a memory. -/
def memWrite (k a : Nat) (bs : List Byte) (x : TileState) : TileState :=
  let x := setMem k (storeBytes a bs (memOf x k)) x
  if k = memAm ∧ !bs.isEmpty then stampUnits (a / 64) ((a + bs.length + 63) / 64 - a / 64) x else x

/-- A scale byte of the sideband of a unit of AM (R47). In what form a writer hands over the scale bytes of its vector the
spec does not state: they are free values, one set per write. -/
def scaleByte (t : Nat) (x : TileState) (u b : Nat) : Nat :=
  let n := tget (fun _ => 0) x.side u
  if n = 0 then 0 else bits (Config.sideband t u n).toNat (8 * b) 8

/-- Key of a 64-bit word of a tile SRAM in the table of errors: memories 0 WM, 1 AM, 2 PM, 3 the instruction store, 4 the
operand store, and 5 the weight buffer (R330). -/
def errKey (k w : Nat) : Nat := k * 2 ^ 20 + w

/-- Words in what a reader of a memory counts: a granule of WM, AM or PM, a word of the instruction store, an entry of the
operand store. -/
def wordsPer (k : Nat) : Nat := if k ≤ 2 then 8 else if k = 4 then 2 else 1

/-- Whether some word of a range is uncorrectable. -/
def rangeBad (x : TileState) (k u n : Nat) : Bool :=
  let w := wordsPer k
  x.errs.any fun e => decide (errKey k (w * u) ≤ e.1) && (decide (e.1 < errKey k (w * (u + n))) && decide (2 ≤ e.2))

/-- A write of whole granules gives their words new check bits: their errors end. -/
def clearGranules (k u n : Nat) (x : TileState) : TileState :=
  let w := wordsPer k
  { x with errs := tdrop (fun i => decide (errKey k (w * u) ≤ i) && decide (i < errKey k (w * (u + n)))) x.errs }

/-- A bit of a word of a tile SRAM is inverted, or two: the code corrects one and detects two (R330). -/
def upsetWord (k w : Nat) (double : Bool) (x : TileState) : TileState :=
  if 5 ≤ k ∨ 2 ^ 20 ≤ w then x
  else { x with errs := tset (fun _ => 0) (errKey k w)
                  (min 2 (tget (fun _ => 0) x.errs (errKey k w) + (if double then 2 else 1))) x.errs }

/-- Write whole units of a memory. -/
def writeUnits (k u : Nat) (bs : List Byte) (x : TileState) : TileState :=
  memWrite k (64 * u) bs (clearGranules k u ((bs.length + 63) / 64) x)

/-! ### Tasks and windows (R158, R159, R163, R165) -/

/-- A 128-bit entry that stands in two registers. -/
def rd128 (s : State) (off : Nat) : Nat := (rd s off).toNat + (rd s (off + 8)).toNat * 2 ^ 64

/-- Set a 128-bit entry. -/
def put128 (off v : Nat) (s : State) : State :=
  put (off + 8) (BitVec.ofNat 64 (v / 2 ^ 64)) (put off (BitVec.ofNat 64 v) s)

/-- A task table entry. -/
def taskEntry (s : State) (t k : Nat) : Nat := rd128 s (tilTask t (2 * k))

/-- Base and bound of a task in a memory, in units. -/
def taskBase (e mem : Nat) : Nat := if mem = 0 then bits e 16 17 else if mem = 1 then bits e 64 16 else bits e 96 14
def taskBound (e mem : Nat) : Nat := if mem = 0 then bits e 33 18 else if mem = 1 then bits e 80 16 else bits e 110 15

/-- Whether an access of `n` units at offset `o` is admitted by a task entry (R159). -/
def admits (e mem o n : Nat) : Bool := bit1 e 0 && (decide (mem < 3) && decide (o + n ≤ taskBound e mem))

/-- A window descriptor. -/
def windowEntry (s : State) (t w : Nat) : Nat := rd128 s (tilWin t (2 * w))

/-- Fields of a window descriptor. -/
def wiMem (w : Nat) : Nat := bits w 4 2
def wiTask (w : Nat) : Nat := bits w 6 6
def wiBase (w : Nat) : Nat := bits w 16 17
def wiBound (w : Nat) : Nat := bits w 33 18
def wiNq (w : Nat) : Nat := bits w 116 8

/-- Windows that are open, over all tiles. -/
def closeWindows (ts : List Nat) (s : State) : State :=
  ts.foldl (fun s t => (List.range 16).foldl (fun s w =>
    let e := windowEntry s t w
    let s := if bit1 e 0 then addR (ledCnt LedCnt.winClosed) 1 (subR (ledCnt LedCnt.winOpen) 1 s) else s
    if e = 0 then s else put128 (tilWin t (2 * w)) 0 s) s) s

/-- Clear the task entries of tiles. -/
def clearTasks (ts : List Nat) (s : State) : State :=
  ts.foldl (fun s t => (List.range 64).foldl (fun s k =>
    if taskEntry s t k = 0 then s else put128 (tilTask t (2 * k)) 0 s) s) s

/-! ### Credits and engines that end without a result (R179, R513) -/

/-- An engine of a tile. -/
def engine (s : State) (t e : Nat) : DmaEngine := tget (fun _ => {}) (tile s t).engines e

/-- Replace an engine. -/
def setEngine (t e : Nat) (x : DmaEngine) (s : State) : State :=
  updTile t (fun y => { y with engines := tset (fun _ => {}) e x y.engines }) s

/-- Credits an engine has in use. -/
def engineCredits (x : DmaEngine) : Nat :=
  match x.run with
  | some r => r.credits.length
  | none => 0

/-- Descriptors of an engine, running and queued. -/
def engineJobs (x : DmaEngine) : Nat := x.queue.length + (if x.run.isSome then 1 else 0)

/-- Reclaim credits at a reset: they leave OUTSTANDING for RECL_RESET (R179, R513). -/
def reclaimReset (n : Nat) (s : State) : State :=
  if n = 0 then s else addR (ledCnt LedCnt.reclReset) n (subR (ledCnt LedCnt.dmaOutstanding) n s)

/-- An engine that abandons its descriptors: what remains are the indices whose packets are not answered. -/
def abandoned (x : DmaEngine) : DmaEngine :=
  { stale := x.stale ++ ((x.run.elim [] fun r => r.credits.map (·.idx)) ++ (x.notes.filter (!·.busy)).map (·.idx)) }

/-- All engines of a tile abandon their descriptors: ABANDONED counts them, and each of them and each reclaimed credit is logged
(R179, R182). -/
def abandonEngines (t : Nat) (s : State) : State :=
  (List.range 4).foldl (fun s e =>
    let x := engine s t e
    let jobs := engineJobs x
    if jobs = 0 ∧ x.notes.isEmpty then s else
    let s := satAdd (tilDmaStat t e) TilDmaStat.abandoned jobs s
    let s := (List.range jobs).foldl (fun s _ => logOpen sevError kFault bTil 182 2 t s) s
    let s := (List.range (engineCredits x)).foldl (fun s _ => logOpen sevError kFault bTil 182 1 t s) s
    setEngine t e (abandoned x) (reclaimReset (engineCredits x) s)) s

/-- Registers of a tile's page that tile reset returns to their reset values: TIL_CTRL, TIL_STAT, the faults, the
counters, the DMA status but for ABANDONED, and the stall page (R116, R120, R145, R154, R181). DEDUCED: TIL_MC_VER and the task
table, which R537 and R545 count with the items of the cluster, keep their contents, since R122 has TIL_MC_VER report the
instruction store's microcode and R116 keeps that store and the task table. -/
def tileResetOff (t off : Nat) : Bool :=
  let b := 0x1000000 + 0x8000 * t
  let o := off - b
  decide (b ≤ off) && (decide (off < b + 0x8000) &&
    (decide (o < 0x10) || (o == 0x20 || ((decide (0x40 ≤ o) && decide (o < 0xA0)) || decide (0x2000 ≤ o)))))

/-- Tile reset (R116): work in flight, queues, registers and faults go; memories, instruction store, tasks and windows
stay. The tile enters IDLE. -/
def tileReset (t : Nat) (s : State) : State :=
  let s := abandonEngines t s
  let x := tile s t
  let keep : TileState := { tclk := x.tclk, frame := x.frame, wm := x.wm, am := x.am, pm := x.pm, istore := x.istore,
                            side := x.side, amWrites := x.amWrites, anchors := x.anchors,
                            errs := x.errs, notify := x.notify, chans := x.chans, engines := x.engines }
  let s := setTile t keep s
  resetRegs (tileResetOff t) false s

/-- Words on their way to the receive endpoints of a tile: on its channels' paths and as operands (R217). -/
def wordsOnWay (x : TileState) : Nat :=
  (x.chans.map fun c => c.2.wire.length).sum + (x.flight.map fun f => f.words.length).sum

/-- The channel ends of a tile when its site goes off: the network interface keeps them (R26); the words on their way are
discarded (R228). -/
def chansOff (c : Table ChanRun) : Table ChanRun :=
  c.filterMap fun e =>
    let x := { e.2 with wire := [] }
    if x = {} then none else some (e.1, x)

/-- A tile loses its power: its memories, tables and work are gone; words that have not reached its receive endpoints are
discarded and counted (R228, R371). -/
def tileLost (t : Nat) (s : State) : State :=
  let s := abandonEngines t s
  let x := tile s t
  setTile t { chans := chansOff x.chans, engines := x.engines } (satAdd (latStat t) LatStat.offDrop (wordsOnWay x) s)

/-- Tiles lose their power: their windows close and their tasks are cleared (R158, R163, R513). -/
def tilesLost (ts : List Nat) (s : State) : State :=
  clearTasks ts (closeWindows ts (ts.foldl (fun s t => tileLost t s) s))

/-! ### Faults (R114, R119, R144, R145) -/

/-- A tile whose microcode is not the field controllers' is not ready and does not leave IDLE (R122). -/
def microcodeOk (s : State) (t : Nat) : Bool := rd s (tilMcVer t) == s.boot.microcode

/-- The tile stops at once: vectors in the arrays are discarded and the kernel runs no further instruction; passes whose
front has not started stay queued. An IDLE tile that is not ready stays IDLE (R114, R122). -/
def stopTile (t : Nat) (s : State) : State :=
  let s := updTile t (fun x => { x with
    passes := (x.passes.filter fun r => r.phase != .running).map fun r => { job := r.job }
    kernel := none, frontAt := x.tclk, vecAt := 0, bubbleEnd := 0, beatAt := 0, beatEnd := 0 }) s
  upd (tilStat t) TilStat.front 0
    (if tileSt s t = tsIdle ∧ !microcodeOk s t then s else setTileSt t tsHalt s)

/-- Record a tile fault: the first one is held, a second one sets OVERFLOW (R114, R119). -/
def recordFault (t code info : Nat) (s : State) : State :=
  let off := tilFault t
  let s := stopTile t s
  if get s off TilFault.valid = 1 then upd off TilFault.overflow 1 s
  else upd off TilFault.valid 1 (upd off TilFault.info info (upd off TilFault.code code s))

/-- Record a tag fault (R144, R145). -/
def recordTagFault (t code unit queue tag : Nat) (s : State) : State :=
  let off := tilDfFault t
  let s := stopTile t s
  if get s off TilDfFault.valid = 1 then upd off TilDfFault.overflow 1 s
  else upd off TilDfFault.valid 1 (upd off TilDfFault.tag tag (upd off TilDfFault.queue queue
    (upd off TilDfFault.unit unit (upd off TilDfFault.code code s))))

/-- Set HALT_REQ on a tile: a running one drains (R113). -/
def haltReq (t : Nat) (s : State) : State :=
  let s := upd (tilCtrl t) TilCtrl.haltReq 1 s
  if tileSt s t = tsRun then setTileSt t tsDrain s else s

/-- The field controllers set HALT_REQ on every other tile of the layer's graph (R144, R333). -/
def haltGraph (t : Nat) (s : State) : State :=
  ((graphTiles s).filter (· != t)).foldl (fun s u => haltReq u s) s

/-- Codes of TIL_FAULT (R119). -/
def tfPassBound : Nat := 1
def tfDecFault : Nat := 2
def tfBadPass : Nat := 3
def tfSpIllegal : Nat := 4
def tfSpBound : Nat := 5
def tfMcAbsent : Nat := 6
def tfIsBound : Nat := 7
def tfIntegrity : Nat := 8

/-- Codes of TIL_DF_FAULT (R145). -/
def dfHorizon : Nat := 1
def dfTagRange : Nat := 2
def dfRate : Nat := 3
def dfSteerRange : Nat := 4
def dfResidue : Nat := 5
def dfDeadlock : Nat := 6

/-- A tile fault other than INTEGRITY: recorded, reported, and the batch fails with TILE_FAULT (R114, R210). -/
def tileFault (t code info : Nat) (s : State) : State :=
  let s := recordFault t code info s
  let s := logCoded sevError kFault bTil 119 0 code t s
  batchFail csTileFault t (rd s (tilFault t)).toNat (haltGraph t s)

/-- A tag fault: the tile stops, the graph is halted, and the batch fails with DATAFLOW_FAULT (R144). -/
def tagFault (t code unit queue tag : Nat) (s : State) : State :=
  let s := recordTagFault t code unit queue tag s
  let s := logCoded sevError kFault bTil 144 0 code t s
  batchFail csDataflowFault t (rd s (tilDfFault t)).toNat (haltGraph t s)

/-- The tiles of a cluster that goes dark or is switched off for heat are reported as faulted: a batch that runs fails
with TILE_FAULT (R371, R395). -/
def batchFailCluster (ts : List Nat) (s : State) : State :=
  match ts with
  | [] => s
  | t :: _ => if batchRunning s then batchFail csTileFault t (rd s (tilFault t)).toNat (haltGraph t s) else s

end Sys2Proof.Machine
end

