-- ==== Sys2Proof/Machine/Net.lean ====
section
/-! DEFINITION. The concourse and the lattice as paths: endpoints, routes, packets sent, buffered and forwarded, and the
lanes that a channel takes (R215–R251). -/

namespace Sys2Proof.Machine

open Sys2Proof

/-! ### Endpoints (R239, R240) -/

/-- Whether an endpoint ID is assigned. -/
def epValid (e : Nat) : Bool :=
  decide (e < 0x660) || ((decide (0x680 ≤ e) && decide (e < 0x68C)) || ((decide (0x690 ≤ e) && decide (e ≤ 0x692)) ||
    (decide (0x6A0 ≤ e) && decide (e < 0x6C0))))

/-- Whether an endpoint of this device is valid now: in the 11-field state the logical tiles from 704 on and the lost
field's controller are not (R450, R451). -/
def epLive (s : State) (e : Nat) : Bool :=
  epValid e && (if e < 0x300 then decide (e < tileCount s)
    else if 0x680 ≤ e ∧ e < 0x68C then fieldLive s (e - 0x680) else true)

/-- Whether an endpoint is a logical tile, a slice, or a link port. -/
def epIsTile (e : Nat) : Bool := decide (e < 0x300)
def epIsSlice (e : Nat) : Bool := decide (0x300 ≤ e) && decide (e < 0x600)
def epIsLink (e : Nat) : Bool := decide (0x600 ≤ e) && decide (e < 0x660)

/-- The device's own fabric device number. -/
def ownFdn (s : State) : Nat := (rd s lnkFdn).toNat % 2 ^ 16

/-- A 16-bit FDN folded to 12 bits. -/
def fold12 (v : Nat) : Nat := (v % 4096) ^^^ (v / 4096)

/-- The flow hash (R242). -/
def flowHash (p : Packet) : Nat := p.src ^^^ p.rdst ^^^ p.dst ^^^ fold12 p.srcFdn ^^^ fold12 p.dstFdn

/-- Router and port of a site (R231). -/
def siteRouter (n : Nat) : Nat := siteCluster n
def sitePort (n : Nat) : Nat := siteX n % 2 + 2 * (siteY n % 2)

/-- Whether an endpoint lies on a seam island (R31): the supervisor, the heads and the barrier units. -/
def epIsIsland (e : Nat) : Bool := decide (0x690 ≤ e)

/-- The field whose router an endpoint's attach port is on: for a seam island the field west of it, and at its second port
the field east of it (R29–R32). -/
def attachField (e : Nat) (second : Bool) : Nat :=
  if epIsSlice e then sliceField (e - 0x300)
  else if epIsLink e then linkField (e - 0x600)
  else if e < 0x690 then e - 0x680
  else (if e = 0x691 then 1 else if e = 0x692 then 9 else 5) + b2n second

/-- The hardwired attachment of an endpoint that is no logical tile: a router of its field, and one of the attach ports
(R231, R240). -/
def attachWord (e : Nat) (second : Bool) : Nat × Nat :=
  let w := (if second then Config.attachment2 e else Config.attachment e).toNat
  (20 * attachField e second + w % 20, 13 + w / 32 % 4)

/-- Router and port that serve an endpoint, for the flow of a packet (R240): a link port is reached by the one of its two
ports that the flow hash chooses, a seam island by its second port when the field of the first is lost (R32). -/
def attach (s : State) (e : Nat) (p : Packet) : Nat × Nat :=
  if epIsTile e then (siteRouter (siteOf s e), sitePort (siteOf s e))
  else attachWord e ((epIsLink e && flowHash p % 2 == 1) || (epIsIsland e && !fieldLive s (attachField e false)))

/-! ### Routers and routes (R231, R242, R243) -/

/-- Column and row of a router. -/
def routerCol (g : Nat) : Nat := 4 * (g / 20 % 4) + g % 20 % 4
def routerRow (g : Nat) : Nat := 5 * (g / 80) + g % 20 / 4

/-- The router at a column and row. -/
def routerAt (c r : Nat) : Nat := 20 * (4 * (r / 5) + c / 4) + (r % 5 * 4 + c % 4)

/-- Ports of a router. -/
def ptN : Nat := 4
def ptE : Nat := 5
def ptS : Nat := 6
def ptW : Nat := 7
def ptXN : Nat := 8
def ptXE : Nat := 9
def ptXS : Nat := 10
def ptXW : Nat := 11
def ptLX : Nat := 12

/-- The column that LX joins a router with. -/
def lxPeer (c r : Nat) : Option Nat :=
  if c = 3 then some 11
  else if c = 11 then some 3
  else if c = 4 ∧ (r % 5 = 1 ∨ r % 5 = 3) then some 12
  else if c = 12 ∧ (r % 5 = 1 ∨ r % 5 = 3) then some 4
  else none

/-- The far end of a router's port: the router there and the port at which a packet arrives. -/
def portPeer (g p : Nat) : Option (Nat × Nat) :=
  let c := routerCol g
  let r := routerRow g
  if p = ptN then (if 0 < r then some (routerAt c (r - 1), ptS) else none)
  else if p = ptE then (if c < 15 then some (routerAt (c + 1) r, ptW) else none)
  else if p = ptS then (if r < 14 then some (routerAt c (r + 1), ptN) else none)
  else if p = ptW then (if 0 < c then some (routerAt (c - 1) r, ptE) else none)
  else if p = ptXN then (if 5 ≤ r then some (routerAt c (r - 5), ptXS) else none)
  else if p = ptXE then (if c < 12 then some (routerAt (c + 4) r, ptXW) else none)
  else if p = ptXS then (if r < 10 then some (routerAt c (r + 5), ptXN) else none)
  else if p = ptXW then (if 4 ≤ c then some (routerAt (c - 4) r, ptXE) else none)
  else if p = ptLX then (lxPeer c r).map fun c' => (routerAt c' r, ptLX)
  else none

/-- Number of a seam channel of the concourse: mesh 0–14, express 15–74, LX 75–95 (R231). -/
def seamMesh (row : Nat) : Nat := row
def seamExpr (row col : Nat) : Nat := 15 + 4 * row + (col - 4)
def seamLx (row : Nat) (second : Bool) : Nat :=
  if second then 75 + 15 + 2 * (row / 5) + (if row % 5 = 1 then 0 else 1) else 75 + row

/-- Number of a bundle of seam wires: the 23 of each direction of a concourse channel, then the three of each lattice lane
(R254). -/
def chanBundle (c : Nat) (rev : Bool) (k : Nat) : Nat := 23 * (2 * c + b2n rev) + k
def laneBundle (i k : Nat) : Nat := 4416 + 3 * i + k

/-- A direction of a seam channel, or a seam lane, is out of service: a bundle of its wires is (R255). -/
def chanOut (s : State) (c : Nat) (rev : Bool) : Bool :=
  s.net.bundles.any fun e => e.2.out && (decide (e.1 < 4416) && e.1 / 23 == 2 * c + b2n rev)
def laneOut (s : State) (i : Nat) : Bool :=
  s.net.bundles.any fun e => e.2.out && (decide (4416 ≤ e.1) && (e.1 - 4416) / 3 == i)

/-- The express port toward a sign of the column difference, at a router, is in service. -/
def exprOk (s : State) (c r : Nat) (east : Bool) : Bool :=
  let lo := if east then c else c - 4
  !(decide (4 ≤ lo) && (decide (lo ≤ 7) && chanOut s (seamExpr r lo) (!east)))

/-- LX of a router toward a sign of the column difference is in service. -/
def lxOk (s : State) (c r : Nat) (east : Bool) : Bool := !chanOut s (seamLx r (c == 4 || c == 12)) (!east)

/-- The output that bank 0 gives a packet at a router for a destination router (R243). -/
def route0 (s : State) (g d : Nat) : Nat :=
  let c := routerCol g
  let r := routerRow g
  let dc : Int := (routerCol d : Int) - c
  let dr : Int := (routerRow d : Int) - r
  if dc ≠ 0 then
    let lxToward := match lxPeer c r with
      | some c' => decide ((c : Int) < c' ∧ 0 < dc ∨ (c' : Int) < c ∧ dc < 0)
      | none => false
    if lxToward && (decide (8 ≤ dc.natAbs) && lxOk s c r (decide (0 < dc))) then ptLX
    else if 4 ≤ dc.natAbs ∧ exprOk s c r (decide (0 < dc)) then (if 0 < dc then ptXE else ptXW)
    else if 0 < dc then ptE else ptW
  else if 5 ≤ dr.natAbs then (if 0 < dr then ptXS else ptXN)
  else if 0 < dr then ptS else ptN

/-- The output on built-in routes: bank 0, or the detour table of a lost field where the route would enter it (R452). -/
def builtIn (s : State) (g d : Nat) : Nat :=
  let o := route0 s g d
  match portPeer g o with
  | some (g', _) => if fieldLive s (clusterField g') then o else (Config.detour (clusterField g') g d).toNat
  | none => o

/-- The route word: the destination router in 8 bits and the destination port in 5 (R240). -/
def routeWord (k : Nat × Nat) : Nat := k.1 + 256 * k.2
def rwRouter (p : Packet) : Nat := p.route % 256
def rwPort (p : Packet) : Nat := p.route / 256

/-- The output a packet takes at a router, by its route word alone; `none` when it meets an invalid entry (R240, R242). -/
def routeOf (s : State) (g : Nat) (p : Packet) : Option Nat :=
  let d := rwRouter p
  if d = g then some (rwPort p)
  else if epIsTile p.src && (epIsTile p.rdst && s.net.ctab) then
    let e := tget (fun _ => 0) s.net.bank1 (256 * g + d)
    if bit1 e 15 then some (if bit1 e 10 && flowHash p % 2 == 1 then bits e 5 5 else bits e 0 5) else none
  else some (builtIn s g d)

/-! ### Flits, parity and CRC (R232, R234, R235, R249) -/

/-- The packet header without its CRC (R234). -/
def packetHeader (p : Packet) : Nat :=
  p.rdst % 2 ^ 12 + p.src % 2 ^ 12 * 2 ^ 12 + p.dst % 2 ^ 12 * 2 ^ 24 + b2n p.data * 2 ^ 36 + p.opc % 2 ^ 7 * 2 ^ 37 +
    p.len % 2 ^ 6 * 2 ^ 44 + p.txid % 2 ^ 12 * 2 ^ 52 + p.srcFdn % 2 ^ 16 * 2 ^ 64 + p.dstFdn % 2 ^ 16 * 2 ^ 80

/-- A list of bytes brought to a length, with zeros behind it. -/
def fitBytes (k : Nat) (bs : List Byte) : List Byte := (bs ++ List.replicate k 0).take k

/-- The bytes of a packet's flits, header flit first, with a value in its CRC field: a control packet is one flit, a data packet
a header flit with the 48-byte extension and four payload flits (R234). -/
def packetFlits (p : Packet) (crc : Nat) : List Byte :=
  let h := toBytes 16 (packetHeader p + crc % 2 ^ 32 * 2 ^ 96)
  if p.data then h ++ (toBytes 48 p.ext ++ fitBytes 256 (fitBytes (64 * p.len) p.payload))
  else h ++ (fitBytes 40 p.payload ++ List.replicate 8 0)

/-- The CRC of a packet (R235). -/
def packetCrc (p : Packet) : Nat := crc32 (packetFlits p 0)

/-- The mask of inverted bits of a byte of a packet's flits and of its parity bit. -/
def upsetAt (p : Packet) (i : Nat) : Nat := p.upset.foldl (fun m e => if e.1 = i then m ^^^ (e.2 % 512) else m) 0

/-- The bytes of a packet's flits as they arrive. -/
def arrivedFlits (p : Packet) : List Byte :=
  let bs := packetFlits p p.crc
  if p.upset.isEmpty then bs else (bs.zip (List.range bs.length)).map fun b => b.1 ^^^ BitVec.ofNat 8 (upsetAt p b.2)

/-- Some byte of a packet fails its odd parity: an odd number of its bits and its parity bit are inverted. -/
def parityFails (p : Packet) : Bool := p.upset.any fun e => popcount (upsetAt p e.1) 9 % 2 == 1

/-- A packet that is complete fails its CRC: what its field holds is not the CRC of its bytes with that field zero. -/
def crcFails (p : Packet) : Bool :=
  let bs := arrivedFlits p
  fromBytes ((bs.drop 12).take 4) != crc32 (bs.take 12 ++ (List.replicate 4 0 ++ bs.drop 16))

/-- A packet passes the checks of R249. -/
def packetOk (p : Packet) : Bool := !parityFails p && !crcFails p

/-! ### Sending (R239–R241) -/

/-- Key of a router's port. -/
def portKey (g p : Nat) : Nat := 17 * g + p

/-- Packets at an input port. -/
def bufOf (s : State) (k : Nat) : List Packet := tget (fun _ => []) s.net.buf k

/-- Set the packets at an input port. -/
def setBuf (k : Nat) (l : List Packet) (s : State) : State :=
  { s with net := { s.net with buf := tset (fun _ => []) k l s.net.buf } }

/-- The entry of the remote table that names a device (R241). -/
def remoteEntry (s : State) (p : Packet) : Option Nat :=
  (List.range 64).find? fun i =>
    let e := tget (fun _ => 0) s.net.remote i
    bit1 e 63 && (decide (bits e 0 16 ≤ p.dstFdn) && decide (p.dstFdn ≤ bits e 16 16))

/-- Whether an entry of the remote table names a packet's device. -/
def remoteNamed (s : State) (p : Packet) : Bool := (remoteEntry s p).isSome

/-- The usable ports of an entry, in order (R298). -/
def usablePorts (s : State) (i : Nat) : List Nat :=
  let e := tget (fun _ => 0) s.net.remote i
  ((List.range (max 1 (min 4 (bits e 32 3)))).map fun k => bits e (35 + 7 * k) 7).filter fun n =>
    (tget (fun _ => ({} : LinkRun)) s.links n).usable

/-- The port that a packet for another device takes: port (flow hash mod n) of the n usable ones of its entry (R241,
R298). -/
def remotePort (s : State) (p : Packet) : Option Nat :=
  match remoteEntry s p with
  | none => none
  | some i =>
    let l := usablePorts s i
    l[flowHash { p with rdst := 0 } % max 1 l.length]?

/-- Opcodes of R236. -/
def ocOperand : Nat := 0x01
def ocAck : Nat := 0x02
def ocRefuse : Nat := 0x03
def ocReadReq : Nat := 0x04
def ocNotify : Nat := 0x05
def ocFlagWrite : Nat := 0x06
def ocBarArrive : Nat := 0x07
def ocTunnelCredit : Nat := 0x08
def ocMgmt : Nat := 0x09
def ocWrite : Nat := 0x40
def ocHbmWrite : Nat := 0x41
def ocReadData : Nat := 0x42
def ocPrivWrite : Nat := 0x43
def ocLatTunnel : Nat := 0x44

/-- Refusal reasons (R167, R175, R236). -/
def rrNoWindow : Nat := 1
def rrPeer : Nat := 2
def rrRight : Nat := 3
def rrBound : Nat := 4
def rrNotifyBusy : Nat := 5
def rrTileOff : Nat := 6
def rrTimeout : Nat := 7
def rrMemUe : Nat := 8
def rrLinkDown : Nat := 9

/-- A control packet that answers another: to its source, under its TXID's place in the payload. -/
def replyTo (p : Packet) (opc : Nat) (payload : List Byte) : Packet where
  rdst := p.src
  src := p.dst
  dst := p.src
  data := false
  opc := opc
  len := payload.length
  txid := p.txid
  srcFdn := p.dstFdn
  dstFdn := p.srcFdn
  payload := payload
  ext := 0

/-- ACK of one packet: FIRST_TXID and N = 1. -/
def ackOf (p : Packet) : Packet := replyTo p ocAck (toBytes 2 (p.txid % 4096 + 1 * 4096))

/-- REFUSE of a packet. -/
def refuseOf (p : Packet) (reason : Nat) : Packet := replyTo p ocRefuse (toBytes 2 (p.txid % 4096 + reason * 4096))

/-- READ_DATA that answers a read request with units of data. -/
def dataOf (p : Packet) (bytes : List Byte) : Packet :=
  { replyTo p ocReadData [] with data := true, len := (bytes.length + 63) / 64, payload := bytes }

/-- Note a packet discarded or refused for a reserved endpoint, opcode or route at a router. -/
def countRsvd (g : Nat) (s : State) : State :=
  logOpen sevInfo kRefused bCon 239 0 g (satAdd (conRouterStat g) ConRouterStat.rsvd 1 s)

/-- Whether an input port has room for a packet: 2 control packets and 4 data packets (R232). -/
def hasRoom (s : State) (g p : Nat) (data : Bool) : Bool :=
  decide (((bufOf s (portKey g p)).filter fun x => x.data == data).length < (if data then 4 else 2))

/-- CCLK in MHz (R424). -/
def cclkMhz (s : State) : Nat := if get s clkStat ClkStat.cclkLp = 1 then 752 else 1504

/-- The present period of 16 packet slots of 4 CCLK (R248). -/
def slotPeriod (s : State) : Nat := s.devtime * cclkMhz s / (940 * 64)

/-- Data packets that an interface has started in the present period. -/
def startsNow (s : State) (k : Nat) : Nat :=
  let e := tget (fun _ => (0, 0)) s.net.starts k
  if e.1 = slotPeriod s then e.2 else 0

/-- RATE as it acts: within 7 to 16 (R250). -/
def throttleRate (s : State) : Nat := max 7 (min 16 (get s conCtrl ConCtrl.rate))

/-- Whether an interface may start a data packet: the four of a throttled router start at most RATE in a period (R248). -/
def mayStart (s : State) (g p : Nat) : Bool :=
  !(decide (p < 4) && (s.net.throttled.contains g && decide (throttleRate s ≤ startsNow s (portKey g p))))

/-- The first packet of a class that waits at an interface moves into its router's input port, when it may. -/
def nicStart (g p : Nat) (data : Bool) (s : State) : State :=
  let k := portKey g p
  let q := tget (fun _ => []) s.net.nic k
  match q.find? fun x => x.data == data with
  | none => s
  | some x =>
    if hasRoom s g p data && (!data || mayStart s g p) then
      let n := if data then startsNow s k + 1 else startsNow s k
      setBuf k (bufOf s k ++ [x]) { s with net := { s.net with
        nic := tset (fun _ => []) k (q.erase x) s.net.nic
        starts := tset (fun _ => (0, 0)) k (if n = 0 then (0, 0) else (slotPeriod s, n)) s.net.starts } }
    else s

/-- Packets that wait at an interface move into its router's input port while it has room, two control and four data at
most. -/
def nicFill (g p : Nat) (s : State) : State :=
  nicStart g p true (nicStart g p true (nicStart g p true (nicStart g p true
    (nicStart g p false (nicStart g p false s)))))

/-- Hand a packet to the interface or attach endpoint at a port: the route word and the CRC are set (R235, R240), and it moves
into the router's input port as room and throttling allow (R232, R248). -/
def injectAtPort (k : Nat × Nat) (dest : Nat × Nat) (p : Packet) (s : State) : State :=
  let p := { p with route := routeWord dest, upset := [], crc := packetCrc p }
  let key := portKey k.1 k.2
  nicFill k.1 k.2 { s with net := { s.net with
    nic := tset (fun _ => []) key (tget (fun _ => []) s.net.nic key ++ [p]) s.net.nic } }

/-- Put a packet into the port of its source. -/
def inject (p : Packet) (s : State) : State := injectAtPort (attach s p.src p) (attach s p.rdst p) p s

/-- Send a packet from its source endpoint: RDST is chosen, a reserved one is refused. A packet for a device that no
remote entry names is refused to the sender with reason PEER, one whose entry has no usable port with LINK_DOWN; a reply is
discarded and logged (R239, R241, R298, R299). -/
def send (p : Packet) (s : State) : State :=
  if p.dstFdn = ownFdn s then
    let p := { p with rdst := p.dst }
    if epLive s p.rdst then inject p s else countRsvd (attach s p.src p).1 s
  else match remotePort s p with
    | some n => inject { p with rdst := epLink n } s
    | none =>
      if p.opc == ocAck || (p.opc == ocRefuse || p.opc == ocReadData) then logOpen sevInfo kRefused bCon 299 2 p.src s
      else
        let r := refuseOf p (if remoteNamed s p then rrLinkDown else rrPeer)
        { s with net := { s.net with arrived := s.net.arrived ++ [{ r with rdst := p.src, crc := packetCrc r }] } }

/-- TXID for the next packet of an endpoint that is no DMA engine's. -/
def nextTxid (e : Nat) (s : State) : Nat × State :=
  let n := tget (fun _ => 0) s.net.txid e
  (n, { s with net := { s.net with txid := tset (fun _ => 0) e ((n + 1) % 4096) s.net.txid } })

/-- A control packet of this device to an endpoint of it. -/
def ctlPacket (s : State) (src dst opc txid : Nat) (payload : List Byte) : Packet where
  rdst := dst
  src := src
  dst := dst
  data := false
  opc := opc
  len := payload.length
  txid := txid
  srcFdn := ownFdn s
  dstFdn := ownFdn s
  payload := payload
  ext := 0

/-- CTL_TO and DATA_TO in ticks, as they apply to a packet sent now; lower values act as 2 (R250). -/
def ctlTicks (s : State) : Nat := max 2 (get s conCtrl ConCtrl.ctlTo) * usTicks
def dataTicks (s : State) : Nat := max 2 (get s conCtrl ConCtrl.dataTo) * 10 * usTicks

/-- Send a control packet that its sender expects to be answered within CTL_TO (R249). -/
def sendAwaited (src dst opc : Nat) (payload : List Byte) (s : State) : State :=
  let x := nextTxid src s
  let p := ctlPacket s src dst opc x.1 payload
  let a : Await := { src := src, txid := x.1, opc := opc, pkt := p, due := s.devtime + ctlTicks s }
  send p { x.2 with net := { x.2.net with awaits := x.2.net.awaits ++ [a] } }

/-- Take a packet that has reached its endpoint. -/
def take (p : Packet) (s : State) : State :=
  { s with net := { s.net with arrived := s.net.arrived.erase p } }

/-! ### Lattice paths (R215–R219) -/

/-- The site that a port of a site joins, ports N E S W. -/
def siteNeighbour (n p : Nat) : Option Nat :=
  let f := siteField n
  let x := siteX n
  let y := siteY n
  if p = 0 then (if 0 < y then some (siteNum f x (y - 1)) else if 4 ≤ f then some (siteNum (f - 4) x 9) else none)
  else if p = 1 then (if x < 7 then some (siteNum f (x + 1) y) else if f % 4 < 3 then some (siteNum (f + 1) 0 y) else none)
  else if p = 2 then (if y < 9 then some (siteNum f x (y + 1)) else if f < 8 then some (siteNum (f + 4) x 0) else none)
  else (if 0 < x then some (siteNum f (x - 1) y) else if 0 < f % 4 then some (siteNum (f - 1) 7 y) else none)

/-- The port at the far end of a link. -/
def oppositePort (p : Nat) : Nat := (p + 2) % 4

/-- Whether the link from a site's port crosses the seam, between field columns 1 and 2 (R23, R231). -/
def crossesSeam (n p : Nat) : Bool :=
  (p == 1 && (siteX n == 7 && siteField n % 4 == 1)) || (p == 3 && (siteX n == 0 && siteField n % 4 == 2))

/-- The lane map record of a site; a site without one is idle (R218). -/
def laneMap (s : State) (n : Nat) : Nat := tget (fun _ => 0) s.net.lanes n

/-- SEL of an outgoing lane, and whether an incoming lane is delivered. -/
def laneSel (m p l : Nat) : Nat := bits m (16 + 8 * (4 * p + l)) 8
def laneDelivered (m q l : Nat) : Bool := bit1 m (144 + 4 * q + l)

/-- The outgoing lanes, as ports and lanes, that load an incoming lane: one source may drive several (R217, R218). -/
def laneNexts (m q l : Nat) : List (Nat × Nat) :=
  ((List.range 16).filter fun i => laneSel m (i / 4) (i % 4) == 1 + 4 * q + l).map fun i => (i / 4, i % 4)

/-- The links, as site, port and lane, that a lane's words take from an outgoing port to where they are delivered: a site, a port
of it and a lane; `m` gives the lane map record of a site. -/
def lanePath (m : Nat → Nat) (dest port lane : Nat) : Nat → Nat → Nat → Nat → Option (List (Nat × Nat × Nat))
  | 0, _, _, _ => none
  | k + 1, n, p, l =>
    match siteNeighbour n p with
    | none => none
    | some n' =>
      let q := oppositePort p
      if n' = dest ∧ (q = port ∧ (l = lane ∧ laneDelivered (m n') q l)) then some [(n, p, l)]
      else ((laneNexts (m n') q l).findSome? fun o => lanePath m dest port lane k n' o.1 o.2).map ((n, p, l) :: ·)

/-- The sites that a lane's words are delivered at, over every lane that its source drives. -/
def laneSites (m : Nat → Nat) : Nat → Nat → Nat → Nat → List Nat
  | 0, _, _, _ => []
  | k + 1, n, p, l =>
    match siteNeighbour n p with
    | none => []
    | some n' =>
      let q := oppositePort p
      (if laneDelivered (m n') q l then [n'] else []) ++
        (laneNexts (m n') q l).flatMap fun o => laneSites m k n' o.1 o.2

/-- The site on which the route image assumed a logical tile (R229, R244). -/
def assumedSite (s : State) (t : Nat) : Nat := 80 * tileField s t + tget (fun i => i % 64) s.net.lmap t

/-- A channel entry of a tile (R219). -/
def chanEntry (s : State) (t ch : Nat) : Nat := rd128 s (latCh t (2 * ch))

/-- Fields of a channel entry. -/
def chValid (e : Nat) : Bool := bit1 e 0
def chReceive (e : Nat) : Bool := bit1 e 1
def chMode (e : Nat) : Nat := bits e 2 2
def chPort (e : Nat) : Nat := bits e 4 2
def chLanes (e : Nat) : Nat := bits e 6 4
def chNarrow (e : Nat) : Bool := bit1 e 10
def chBf16 (e : Nat) : Bool := bit1 e 11
def chTunnel (e : Nat) : Bool := bit1 e 12
def chTask (e : Nat) : Nat := bits e 16 6
def chRbase (e : Nat) : Nat := bits e 24 16
def chRsize (e : Nat) : Nat := bits e 40 16
def chMsgu (e : Nat) : Nat := bits e 56 12
def chRq (e : Nat) : Nat := bits e 68 8
def chTile (e : Nat) : Nat := bits e 76 10
def chNum (e : Nat) : Nat := bits e 86 8
def chPeerTile (e : Nat) : Nat := bits e 94 10
def chPeerCh (e : Nat) : Nat := bits e 104 8

/-- Bytes of a channel word: 8 per lane. -/
def chWidth (e : Nat) : Nat := 8 * popcount (chLanes e) 4

/-- The lowest lane of a mask. -/
def firstLane (m : Nat) : Nat := ((List.range 4).find? (bit1 m)).getD 0

/-- Lanes of a channel entry, in ascending order. -/
def lanesOf (e : Nat) : List Nat := (List.range 4).filter (bit1 (chLanes e))

/-- The path of each lane of a send entry, from the site the image assumes its tile on to its receive entry's (R217,
R229). -/
def chanPaths (s : State) (e : Nat) : List (List (Nat × Nat × Nat)) :=
  let r := chanEntry s (chPeerTile e) (chPeerCh e)
  ((lanesOf e).zip (lanesOf r)).map fun l =>
    (lanePath (laneMap s) (assumedSite s (chPeerTile e)) (chPort r) l.2 960 (assumedSite s (chTile e)) (chPort e) l.1).getD []

/-- Links and seam crossings of a send channel's path. -/
def chanPath (s : State) (t ch : Nat) : Nat × Nat :=
  let p := (chanPaths s (chanEntry s t ch)).headD []
  (p.length, (p.filter fun h => crossesSeam h.1 h.2.1).length)

/-- Lattice links that cross the seam: one per site row; a lane of one is numbered by row, direction (0 eastward) and
lane (R24, R254). -/
def seamLane (n p l : Nat) : Nat := 8 * (10 * (siteField n / 4) + siteY n) + 4 * (if p = 1 then 0 else 1) + l

/-- Whether a link of a lane's path is a seam lane that is out of service. -/
def hopOut (s : State) (h : Nat × Nat × Nat) : Bool := crossesSeam h.1 h.2.1 && laneOut s (seamLane h.1 h.2.1 h.2.2)

/-- The legs of a send entry's channel that tunnels carry, in the order of its path, each by the sites of its entry and its
exit: from a sender that is not on its assumed site to that site; across each seam crossing with a lane out of service; and
from the receiver's assumed site to the one it is on (R229). -/
def tunnelLegs (s : State) (e : Nat) : List (Nat × Nat) :=
  let t := chTile e
  let d := chPeerTile e
  let ps := chanPaths s e
  let seams := ((ps.headD []).zip (List.range 960)).filterMap fun h =>
    if ps.any fun p => hopOut s (p.getD h.2 (0, 0, 0)) then (siteNeighbour h.1.1 h.1.2.1).map fun n => (h.1.1, n) else none
  (if siteOf s t = assumedSite s t then [] else [(siteOf s t, assumedSite s t)]) ++
    (seams ++ (if siteOf s d = assumedSite s d then [] else [(assumedSite s d, siteOf s d)]))

/-- A channel end. -/
def chan (s : State) (t ch : Nat) : ChanRun := tget (fun _ => {}) (tile s t).chans ch

/-- Replace a channel end. -/
def setChan (t ch : Nat) (c : ChanRun) (s : State) : State :=
  updTile t (fun x => { x with chans := tset (fun _ => {}) ch c x.chans }) s

/-- Return credits on a channel: as pulses on its credit wire, or through a tunnel as a control packet (R222, R229). -/
def returnCredits (t ch n : Nat) (s : State) : State :=
  let e := chanEntry s t ch
  if n = 0 then s
  else if chTunnel e then
    let x := nextTxid t s
    send (ctlPacket s t (chPeerTile e) ocTunnelCredit x.1 (toBytes 3 (chPeerCh e + n * 256))) x.2
  else
    let c := chan s (chPeerTile e) (chPeerCh e)
    setChan (chPeerTile e) (chPeerCh e) { c with pulses := c.pulses + n } s

/-! ### Lane words (R216, R219, R227) -/

/-- The parity bits of a lane word: odd parity over each byte and its bit. -/
def oddParity (d : BitVec 64) : BitVec 8 :=
  BitVec.ofNat 8 ((List.range 8).foldl (fun a i =>
    a + (if popcount (bits d.toNat (8 * i) 8) 8 % 2 = 0 then 2 ^ i else 0)) 0)

/-- The lane word of up to eight bytes. -/
def laneWord (head : Bool) (bs : List Byte) : LaneWord :=
  let d := BitVec.ofNat 64 (fromBytes bs)
  { data := d, parity := oddParity d, head := head }

/-- Words of a channel that bytes take. -/
def wordsOf (e n : Nat) : Nat := (n + max 1 (chWidth e) - 1) / max 1 (chWidth e)

/-- Bytes as words of a channel: byte b of a word on the channel's (b div 8)-th lane, unused bytes zero (R219, R220). -/
def channelWords (e : Nat) (head : Bool) (bs : List Byte) : List (List LaneWord) :=
  (List.range (wordsOf e bs.length)).map fun i =>
    (List.range (chWidth e / 8)).map fun j => laneWord head ((bs.drop (chWidth e * i + 8 * j)).take 8)

/-- The bytes of words of a channel. -/
def wordBytes (ws : List (List LaneWord)) : List Byte := ws.flatMap fun w => w.flatMap fun l => toBytes 8 l.data.toNat

/-- Whether some byte of a word fails its parity. -/
def wordBad (w : List LaneWord) : Bool := w.any fun l => l.parity != oddParity l.data

/-- Invert a bit of a lane word: 0 to 63 of its data, 64 to 71 its parity bits. -/
def flipLane (b : Nat) (l : LaneWord) : LaneWord :=
  if b < 64 then { l with data := l.data ^^^ BitVec.ofNat 64 (2 ^ b) }
  else { l with parity := l.parity ^^^ BitVec.ofNat 8 (2 ^ (b - 64)) }

/-- Words with bits inverted on their way: pairs of a word and a bit, 72 to a lane. -/
def flipWords (flips : List (Nat × Nat)) (ws : List (List LaneWord)) : List (List LaneWord) :=
  flips.foldl (fun ws f => ws.modify f.1 fun w => w.modify (f.2 / 72) (flipLane (f.2 % 72))) ws

/-! ### Forwarding (R232, R248, R249) -/

/-- Whether a port's input is a network interface or an attach endpoint, whose queue is its own. -/
def localPort (p : Nat) : Bool := decide (p < 4) || decide (13 ≤ p)

/-- The first packet of a class at an input port that goes to an output; a packet without a route is met by every output,
which discards it. -/
def candidate (s : State) (g i out : Nat) (data : Bool) : Option Packet :=
  match (bufOf s (portKey g i)).find? fun x => x.data == data with
  | none => none
  | some p =>
    match routeOf s g p with
    | some o => if o = out then some p else none
    | none => some p

/-- The next input in turn that has a candidate. -/
def nextInput (s : State) (g out : Nat) (data : Bool) (last : Nat) : Option (Nat × Packet) :=
  ((List.range 17).map fun k => (last + 1 + k) % 17).findSome? fun i =>
    (candidate s g i out data).map fun p => (i, p)

/-- What an output starts next: control before data; control inputs in round robin, data inputs in weighted round robin, each
class from the input that it served last (R232). -/
def arbitrate (s : State) (g out : Nat) : Option (Nat × Packet) :=
  let key := portKey g out
  let last := tget (fun _ => 16) s.net.dataTurn key
  match nextInput s g out false (tget (fun _ => 16) s.net.turn key) with
  | some x => some x
  | none =>
    if tget (fun _ => 0) s.net.grants key = 0 then nextInput s g out true last
    else match candidate s g last out true with
      | some p => some (last, p)
      | none => nextInput s g out true last

/-- Whether a packet of built-in routes that stands at an input of a router comes in at an input of router `g` on its way to
router `d`. -/
def comesThrough (s : State) (g i d : Nat) : Nat → Nat → Nat → Bool
  | 0, _, _ => false
  | k + 1, here, inp =>
    (here == g && inp == i) ||
      (here != d && match portPeer here (builtIn s here d) with
        | some h => comesThrough s g i d k h.1 h.2
        | none => false)

/-- The weight of a router's data input: the number of logical tiles whose HBM traffic, to a slice or from one, the built-in
routes bring through it (R232). -/
def routerWeight (s : State) (g i : Nat) : Nat :=
  ((List.range (tileCount s)).filter fun t =>
    let a := (siteRouter (siteOf s t), sitePort (siteOf s t))
    (List.range 768).any fun n =>
      let b := attachWord (epSlice n) false
      comesThrough s g i b.1 31 a.1 a.2 || comesThrough s g i a.1 31 b.1 b.2).length

/-- Note whom an output served. -/
def noteTurn (g out i : Nat) (data : Bool) (s : State) : State :=
  let key := portKey g out
  if data then
    let last := tget (fun _ => 16) s.net.dataTurn key
    let left := tget (fun _ => 0) s.net.grants key
    let left' := if i = last ∧ 0 < left then left - 1 else routerWeight s g i - 1
    { s with net := { s.net with dataTurn := tset (fun _ => 16) key i s.net.dataTurn
                                 grants := tset (fun _ => 0) key left' s.net.grants } }
  else { s with net := { s.net with turn := tset (fun _ => 16) key i s.net.turn } }

/-- Flits held in the data buffers of a router, over all its input ports (R248). -/
def dataFlits (s : State) (g : Nat) : Nat :=
  4 * ((List.range 17).map fun i => ((bufOf s (portKey g i)).filter (·.data)).length).foldl (· + ·) 0

/-- Throttle or release a router's cluster (R248, R250). -/
def noteThrottle (g : Nat) (s : State) : State :=
  let hi := get s conCtrl ConCtrl.hiWm
  let lo := min (get s conCtrl ConCtrl.loWm) (hi - 1)
  let n := dataFlits s g
  let on := s.net.throttled.contains g
  if hi < n ∧ !on then { s with net := { s.net with throttled := g :: s.net.throttled } }
  else if n < lo ∧ on then { s with net := { s.net with throttled := s.net.throttled.filter (· != g) } }
  else s

/-- A packet fails its check at a router: discarded, counted and logged, with no retransmission (R249). -/
def discardBad (g : Nat) (parity : Bool) (s : State) : State :=
  let f := if parity then ConRouterStat.parity else ConRouterStat.crc
  logOpen sevInfo kRefused bCon 249 (b2n parity) g (satAdd (conRouterStat g) f 1 s)

/-- The packet that the bytes of flits hold (R234). -/
def flitsPacket (p : Packet) (bs : List Byte) : Packet :=
  let h := fromBytes (bs.take 16)
  let data := bit1 h 36
  let len := bits h 44 6
  { p with rdst := bits h 0 12, src := bits h 12 12, dst := bits h 24 12, data := data, opc := bits h 37 7, len := len
           txid := bits h 52 12, srcFdn := bits h 64 16, dstFdn := bits h 80 16, crc := bits h 96 32
           ext := if data then fromBytes ((bs.drop 16).take 48) else 0
           payload := if data then (bs.drop 64).take (64 * len) else (bs.drop 16).take len
           upset := [] }

/-- A packet as what takes it reads it: where bits were inverted and both checks have passed, its flits stand as they arrived. -/
def settled (p : Packet) : Packet := if p.upset.isEmpty then p else flitsPacket p (arrivedFlits p)

/-- An endpoint has nothing to do with a packet: it is discarded and logged (R233). -/
def ignorePacket (p : Packet) (s : State) : State := logOpen sevInfo kRefused bCon 233 p.opc p.dst s

/-- A reserved opcode: the packet is discarded, counted at its router and logged (R236). -/
def reservedPacket (p : Packet) (s : State) : State := countRsvd (attach s p.dst p).1 s

/-- A packet reaches its endpoint, which makes the checks of R249 as a router does. -/
def received (p : Packet) (f : State → State) (s : State) : State :=
  let s := take p s
  if packetOk p then f s else discardBad (rwRouter p) (parityFails p) s

/-! ### Quiesce (R246) -/

/-- Whether a tile has no work in flight: no operand, pass, kernel, transfer, word or credit is on its way. -/
def tileQuiet (x : TileState) : Bool :=
  x.flight.isEmpty && (x.passQ.isEmpty && (x.kernQ.isEmpty && (x.passes.isEmpty && (x.kernel.isNone &&
    (x.engines.all (fun g => g.2.run.isNone && (g.2.queue.isEmpty && g.2.notes.isEmpty)) &&
      x.chans.all fun c => c.2.wire.isEmpty && (c.2.pulses == 0 &&
        c.2.legs.all fun l => l.2.words.isEmpty && l.2.got.isEmpty))))))

/-- Whether the tile traffic is quiesced: no layer runs, no packet of a tile is buffered or waits at its endpoint, and no
tile has work in flight. -/
def trafficQuiet (s : State) : Bool :=
  (match s.req.batch with
    | some b => !b.layerRunning
    | none => true) &&
  (s.net.buf.all (fun e => e.2.all fun p => !epIsTile p.src) && (s.net.nic.all (fun e => e.2.all fun p => !epIsTile p.src) &&
    (s.net.arrived.all (fun p => !epIsTile p.src) && s.tiles.all fun e => tileQuiet e.2)))

end Sys2Proof.Machine
end

