-- ==== Sys2Proof/Machine/LinkOps.lean ====
section
/-! DEFINITION. A link port as the rest of the device meets it: its state, the bitmap of usable ports, packets that reach
it from the concourse, refusals, going down, and fences (R286–R288, R294–R299). -/

namespace Sys2Proof.Machine

open Sys2Proof

/-- A link port besides its registers. -/
def link (s : State) (n : Nat) : LinkRun := tget (fun _ => {}) s.links n

/-- Replace a link port. -/
def setLink (n : Nat) (x : LinkRun) (s : State) : State := { s with links := tset (fun _ => {}) n x s.links }

/-- Change a link port. -/
def updLink (n : Nat) (f : LinkRun → LinkRun) (s : State) : State := setLink n (f (link s n)) s

/-- Link states (R286). -/
def lsDown : Nat := 0
def lsTrain : Nat := 1
def lsAlign : Nat := 2
def lsInit : Nat := 3
def lsUp : Nat := 4
def lsFenced : Nat := 5
def lsDisabled : Nat := 6

/-- Causes of DOWN (R306). -/
def ldReplay : Nat := 1
def ldSilence : Nat := 2
def ldUcw : Nat := 3
def ldInitTimeout : Nat := 4
def ldFdnClash : Nat := 5
def ldDisabled : Nat := 6
def ldTrainFail : Nat := 7
def ldPeerRestart : Nat := 8
def ldAlignFail : Nat := 9
def ldCreditStall : Nat := 10

/-- State of a link. -/
def linkSt (s : State) (n : Nat) : Nat := get s (lnkStat n) LnkStat.state

/-- Enter a state of a link. -/
def setLinkSt (n v : Nat) (s : State) : State :=
  upd (lnkStat n) LnkStat.state v (updLink n (fun x => { x with since := s.devtime }) s)

/-- UP or FENCED: the link layer runs. -/
def linkRuns (s : State) (n : Nat) : Bool := linkSt s n == lsUp || linkSt s n == lsFenced

/-- UP with the partner not fencing. -/
def linkOpen (s : State) (n : Nat) : Bool := linkSt s n == lsUp && get s (lnkStat n) LnkStat.peerFence == 0

/-- A port that is no longer usable leaves the bitmap at once (R298). -/
def leaveBitmap (n : Nat) (s : State) : State :=
  if linkOpen s n then s else updLink n (fun x => { x with usable := false }) s

/-- Ports that are open rejoin the bitmap at a quiesce (R298). -/
def rejoinPorts (s : State) : State :=
  (List.range 96).foldl (fun s n => if linkOpen s n then updLink n (fun x => { x with usable := true }) s else s) s

/-! ### Refusals (R296, R299) -/

/-- Whether a packet is itself a reply, which nobody refuses. -/
def isReply (p : Packet) : Bool := p.opc == ocAck || (p.opc == ocRefuse || p.opc == ocReadData)

/-- The port refuses a packet to its source with LINK_DOWN; a reply is discarded and logged. -/
def linkRefuse (n : Nat) (p : Packet) (s : State) : State :=
  let s := satAdd (lnkDrop n) LnkDrop.downRefuse 1 s
  if isReply p then logCoded sevInfo kRefused bLnk 299 0 rrLinkDown n s else send (refuseOf p rrLinkDown) s

/-- The LNK_NARROWn entry that a packet matches at a sending port: its FMT (R301). -/
def narrowEntry (s : State) (p : Packet) : Option Bool :=
  if p.opc != ocWrite then none
  else
    let hit := (List.range 16).find? fun i =>
      let o := lnkNarrow i
      get s o LnkNarrow.valid == 1 && (slotState s (get s o LnkNarrow.slot) == ssActive &&
        (get s o LnkNarrow.fdn == p.dstFdn && (decide (get s o LnkNarrow.tileLo ≤ p.dst) &&
          (decide (p.dst ≤ get s o LnkNarrow.tileHi) && get s o LnkNarrow.win == bits p.ext 0 4))))
    hit.map fun i => get s (lnkNarrow i) LnkNarrow.fmt == 1

/-- Bytes of a packet's payload on a link (R290): control payloads take 40 bytes, data payloads 64 × LEN, or 32 × LEN
when narrowed. -/
def linkPayload (data narrowed : Bool) (len : Nat) : Nat :=
  if data then (if narrowed then 32 else 64) * len else 40

/-- Credits that a packet takes (R295). -/
def linkCost (data narrowed : Bool) (len : Nat) : Nat := (16 + linkPayload data narrowed len) / 8

/-- Credits that a packet takes when a port sends it. -/
def packetCost (s : State) (p : Packet) : Nat := linkCost p.data (narrowEntry s p).isSome p.len

/-- Whether the first packet of a class waits without enough credit. -/
def creditShort (s : State) (q : List Packet) (held : Nat) : Bool :=
  match q with
  | [] => false
  | p :: _ => decide (held < packetCost s p)

/-- Note since when each class has had a packet waiting without enough credit (R294). -/
def noteStall (n : Nat) (s : State) : State :=
  let x := link s n
  let since (short : Bool) (t : Option Nat) : Option Nat := if short then some (t.getD s.devtime) else none
  setLink n { x with ctlStall := since (creditShort s x.ctl x.ctlHeld) x.ctlStall
                     dataStall := since (creditShort s x.data x.dataHeld) x.dataStall } s

/-- A packet reaches a link port from the concourse: queued while the port is open, discarded while it is FENCED, refused
otherwise (R296, R297). -/
def linkQueue (n : Nat) (p : Packet) (s : State) : State :=
  if linkSt s n = lsFenced then satAdd (lnkDrop n) LnkDrop.fenceDrop 1 s
  else if !linkOpen s n then linkRefuse n p s
  else if 2 ^ 40 ≤ p.ext then satAdd (conRouterStat (attach s (epLink n) p).1) ConRouterStat.rsvd 1 s
  else if 7 ≤ p.hops then logOpen sevInfo kRefused bLnk 299 1 n (satAdd (lnkDrop n) LnkDrop.loop 1 s)
  else noteStall n
    (updLink n (fun x => if p.data then { x with data := x.data ++ [p] } else { x with ctl := x.ctl ++ [p] }) s)

/-! ### Going down (R287, R294, R296) -/

/-- Packets that a port still holds: in unacknowledged frames, begun, and queued. -/
def linkHolds (x : LinkRun) : List Packet :=
  (x.replay.flatMap (·.pkts)) ++ (match x.part with
    | some p => [p.1]
    | none => []) ++ x.ctl ++ x.data

/-- Credits of the epoch are reclaimed (R295, R513). -/
def reclaimCredits (n : Nat) (s : State) : State :=
  let k := (link s n).ctlOut + (link s n).dataOut
  addR (ledCnt LedCnt.lkReclaimed) k (subR (ledCnt LedCnt.lkOutstanding) k s)

/-- Empty a port's buffers and its handshake; what stays is the fence, the alignment, the values latched at TRAIN, and the line. -/
def clearedLink (x : LinkRun) : LinkRun :=
  { since := x.since, fence := x.fence, aligned := x.aligned, applied := x.applied, lastValid := x.lastValid
    txFrames := x.txFrames, txSent := x.txSent, txPairs := x.txPairs, corrPart := x.corrPart, ucwAt := x.ucwAt }

/-- Entry into INIT: the sender's EPOCH rises by 1 (R287). -/
def enterInit (n : Nat) (s : State) : State :=
  let e := (get s (lnkStat n) LnkStat.epoch + 1) % 256
  setLinkSt n lsInit (upd (lnkStat n) LnkStat.epoch e (updLink n clearedLink s))

/-- Whether a cause of DOWN allows a fast relink (R287). -/
def fastRelink (cause : Nat) : Bool :=
  cause == ldReplay || (cause == ldInitTimeout || (cause == ldPeerRestart || cause == ldCreditStall))

/-- Whether the port must stay DISABLED: ENABLE is 0, a test pattern is selected, or the FDN is invalid (R286). -/
def mustDisable (s : State) (n : Nat) : Bool :=
  get s (lnkCtrl n) LnkCtrl.enable == 0 ||
    (get s (lnkCtrl n) LnkCtrl.testpat != 0 || get s lnkFdn LnkFdn.valid == 0)

/-- A link goes DOWN with a cause (R294, R296); where `relink` says so, a fast relink follows at once (R287). -/
def linkDownTo (n cause : Nat) (relink : Bool) (s : State) : State :=
  let x := link s n
  let ran := linkRuns s n
  let s := if ran then satAdd (lnkStat n) LnkStat.downs 1 (lifeCount (1632 + 8 * n + 4) 2 1 (reclaimCredits n s)) else s
  let s := upd (lnkStat n) LnkStat.downCause cause (upd (lnkStat n) LnkStat.peerFence 0 s)
  let s := setLinkSt n lsDown (updLink n clearedLink s)
  let s := leaveBitmap n s
  let s := (linkHolds x).foldl (fun s p => linkRefuse n p s) s
  let s := logCoded sevDegrade kFault bLnk 296 cause cause n s
  if mustDisable s n then setLinkSt n lsDisabled s
  else if relink && x.aligned then enterInit n s else s

/-- A link goes DOWN with a cause; a fast relink follows at once where R287 allows it. -/
def linkDown (n cause : Nat) (s : State) : State := linkDownTo n cause (fastRelink cause) s

/-- Entry into TRAIN: RATE, MEDIUM and TESTPAT apply (R305). -/
def enterTrain (n : Nat) (s : State) : State :=
  let c := bits (rd s (lnkCtrl n)).toNat 1 4
  setLinkSt n lsTrain (updLink n (fun x => { x with aligned := false, applied := c, txFrames := [], txSent := 0, txPairs := 0, line := [], ucwAt := [] }) s)

/-! ### Fences (R297, R303) -/

/-- A local fence begins: the link layer runs on, the transmit queues are discarded and counted. -/
def linkFence (n : Nat) (s : State) : State :=
  let x := link s n
  let q := x.ctl.length + x.data.length
  let s := updLink n (fun x => { x with fence := true, ctl := [], data := [], ctlStall := none, dataStall := none }) s
  if linkSt s n = lsUp then leaveBitmap n (satAdd (lnkDrop n) LnkDrop.fenceDrop q (setLinkSt n lsFenced s)) else s

/-- A local fence ends. -/
def linkUnfence (n : Nat) (s : State) : State :=
  let s := updLink n (fun x => { x with fence := false }) s
  if linkSt s n = lsFenced then setLinkSt n lsUp s else s

/-! ### Packets from a link into the concourse (R241, R290, R299) -/

/-- Put a packet that a port has rebuilt into the input of its attachment, with a new CRC, new parity and its route word. -/
def injectAt (e : Nat) (p : Packet) (s : State) : State := injectAtPort (attach s e p) (attach s p.rdst p) p s

/-- A packet that a link port has accepted: for this device it is delivered, with a reserved DST discarded; for another it
is forwarded as transit, or refused to its sender. -/
def linkArrived (n : Nat) (p : Packet) (s : State) : State :=
  if p.dstFdn = ownFdn s then
    if epLive s p.dst then injectAt (epLink n) { p with rdst := p.dst } s else countRsvd (attach s (epLink n) p).1 s
  else match remotePort s p with
    | some m => injectAt (epLink n) { p with rdst := epLink m } s
    | none =>
      if isReply p then logOpen sevInfo kRefused bLnk 299 2 n s
      else send (refuseOf p (if remoteNamed s p then rrLinkDown else rrPeer)) s

end Sys2Proof.Machine
end

