-- ==== Sys2Proof/Machine/Load.lean ====
section
/-! DEFINITION. Loading a season into the tiles and the lattice, tunnels, seam repair, and what a quiesce lets change
(R191, R202, R229, R244, R246, R254, R255, R339). -/

namespace Sys2Proof.Machine

open Sys2Proof

/-! ### Tiles (R158, R161, R191, R202) -/

/-- The bytes of a range of HBM, placed at an offset of a tile memory. -/
def hbmCells (s : State) (a n dst : Nat) : List Host.Cell :=
  (s.hbm.filter fun c => decide (a ≤ c.1) && decide (c.1 < a + n)).map fun c => (c.1 - a + dst, c.2)

/-- Load a tile's instruction-store image and WM image from a season image; WM beyond the image, AM and PM read zero, and
every word written has valid check bits. -/
def loadMemories (s : State) (base t : Nat) (x : TileState) : TileState :=
  let r := tileRec s base t
  { x with
    istore := (x.istore.filter fun c => decide (c.1 < 0x10000)) ++ hbmCells s (base + tlIstoreOff r) (tlIstoreLen r) 0x10000
    wm := hbmCells s (base + tlWmOff r) (64 * tlWmUnits r) 0
    am := [], pm := [], side := [], anchors := []
    errs := x.errs.filter fun e => decide (errKey 3 0 ≤ e.1) && !(decide (errKey 3 0x2000 ≤ e.1) && decide (e.1 < errKey 4 0)) }

/-- Write a tile's task table and windows from a season image, VALID or not. -/
def loadTables (base t : Nat) (valid : Bool) (s : State) : State :=
  let entry := fun v => if valid then v else v - v % 2
  let s := (List.range 64).foldl (fun s k => put128 (tilTask t (2 * k)) (entry (tabTask s base t k)) s) s
  (List.range 16).foldl (fun s w => put128 (tilWin t (2 * w)) (entry (tabWindow s base t w)) s) s

/-- Load a tile over the privileged path (step 5 of R202): its tasks and windows stay closed. -/
def loadTile (base t : Nat) (s : State) : State :=
  loadTables base t false (setTile t (loadMemories s base t (tile s t)) s)

/-- The cells of bytes from an offset of a tile memory; zero is not listed. -/
def byteCells : Nat → List Byte → List Host.Cell
  | _, [] => []
  | a, b :: r => if b = 0 then byteCells (a + 1) r else (a, b) :: byteCells (a + 1) r

/-- A tile's instruction store with the microcode component written from offset 0; what it does not reach keeps its
contents (R108, R436). -/
def storeMicrocode (bs : List Byte) (x : TileState) : TileState :=
  { x with
    istore := byteCells 0 bs ++ x.istore.filter fun c => decide (bs.length ≤ c.1)
    errs := x.errs.filter fun e => !(decide (errKey 3 0 ≤ e.1) && decide (e.1 < errKey 3 (bs.length / 8))) }

/-- Broadcast tile microcode to a tile: it is written over the privileged path, and TIL_MC_VER shows it (R108, R122,
R436). -/
def broadcast (t : Nat) (s : State) : State :=
  put (tilMcVer t) s.boot.microcode (updTile t (storeMicrocode s.boot.store) s)

/-! ### The route image (R244) -/

/-- A table of numbers by key, from `n` values; zero is not listed. -/
def numTable (n : Nat) (f : Nat → Nat) : Table Nat := ((List.range n).map fun i => (i, f i)).filter fun e => e.2 != 0

/-- Start of the route image of a season image, and its header. -/
def routeBase (s : State) (base : Nat) : Nat := base + sectOffset (sectionOf s base tyRoutes)
def routeHeader (s : State) (base : Nat) : Nat := hbmNat s (routeBase s base) 128

def rhCtab (h : Nat) : Bool := bit1 h 32
def rhLanes (h : Nat) : Nat := bits h 64 32
def rhChans (h : Nat) : Nat := bits h 96 32
def rhRemotes (h : Nat) : Nat := bits h 128 32
def rhBars (h : Nat) : Nat := bits h 160 32
def rhLmapOff (h : Nat) : Nat := bits h 256 64
def rhCtabOff (h : Nat) : Nat := bits h 320 64
def rhLaneOff (h : Nat) : Nat := bits h 384 64
def rhChanOff (h : Nat) : Nat := bits h 448 64
def rhRemoteOff (h : Nat) : Nat := bits h 512 64
def rhBarOff (h : Nat) : Nat := bits h 576 64

/-- Channel entries of a route image. -/
def routeChans (s : State) (base : Nat) : List Nat :=
  let h := routeHeader s base
  (List.range (rhChans h)).map fun i => hbmNat s (routeBase s base + rhChanOff h + 16 * i) 16

/-- Lane map records of a route image. -/
def routeLanes (s : State) (base : Nat) : List Nat :=
  let h := routeHeader s base
  (List.range (rhLanes h)).map fun i => hbmNat s (routeBase s base + rhLaneOff h + 32 * i) 32

/-- The entry that names another as its peer's own: tile PEER_TILE, channel PEER_CH. -/
def peerEntry (l : List Nat) (e : Nat) : Nat :=
  (l.find? fun x => chTile x == chPeerTile e && chNum x == chPeerCh e).getD 0

/-- Load the channel table, the credits of each send end being its receiver's ring (R222). -/
def loadChannels (l : List Nat) (s : State) : State :=
  let s := { s with regs := tdrop (fun off => decide (0x1000000 ≤ off) &&
      (decide (0x1000 ≤ (off - 0x1000000) % 0x8000) && decide ((off - 0x1000000) % 0x8000 < 0x2000))) s.regs }
  let s := { s with tiles := s.tiles.filterMap fun e =>
      let x := { e.2 with chans := [] }
      if x = {} then none else some (e.1, x) }
  l.foldl (fun s e =>
    let s := put128 (latCh (chTile e) (2 * chNum e)) (e - bits e 12 1 * 2 ^ 12) s
    if chReceive e ∨ chMode e = 0 then s
    else setChan (chTile e) (chNum e) { chan s (chTile e) (chNum e) with credits := chRsize (peerEntry l e) } s) s

/-- Load the route image into routers, network interfaces, channels and barrier units (step 4 of R202). -/
def loadRoutes (base : Nat) (s : State) : State :=
  let h := routeHeader s base
  let at_ := fun off w i => hbmNat s (routeBase s base + off + w * i) w
  let n := tileCount s
  let bars := numTable (min 64 (rhBars h)) (at_ (rhBarOff h) 8)
  let s' := loadChannels (routeChans s base) s
  let s' := (List.range 64).foldl (fun s' b =>
    put (conBarStat b) (BitVec.ofNat 64 (bits (tget (fun _ => 0) bars b) 31 1 * 2 ^ 23)) s') s'
  { s' with net := { s'.net with
      ctab := rhCtab h
      bank1 := if rhCtab h then numTable (240 * 256) (at_ (rhCtabOff h) 2) else []
      remote := numTable (min 64 (rhRemotes h)) (at_ (rhRemoteOff h) 16)
      lanes := ((routeLanes s base).map fun r => (bits r 0 10, r)).filter fun e => e.2 != 0
      lmap := ((List.range n).map fun i => (i, bits (at_ (rhLmapOff h) 2 i) 0 7)).filter fun e => e.2 != e.1 % 64
      bars := bars } }

/-! ### Tunnels (R229) -/

/-- Channel entries in use, of all tiles. -/
def channelsInUse (s : State) : List Nat :=
  s.regs.filterMap fun r =>
    let o := (r.1 - 0x1000000) % 0x8000
    if 0x1000000 ≤ r.1 ∧ 0x1000 ≤ o ∧ o < 0x2000 ∧ o % 16 = 0 ∧ bit1 r.2.toNat 0 then some (rd128 s r.1) else none

/-- Whether a channel is carried through a tunnel: a leg of its path is. -/
def needsTunnel (s : State) (l : List Nat) (e : Nat) : Bool :=
  !(tunnelLegs s (if chReceive e then peerEntry l e else e)).isEmpty

/-- Set TUNNEL in both copies of every channel that needs one, and TUNNELS of each tile; each tunnel starts anew. -/
def setTunnels (s : State) : State :=
  let l := channelsInUse s
  let s' := l.foldl (fun s' e =>
    let t := b2n (needsTunnel s l e)
    let s' := setChan (chTile e) (chNum e) { chan s' (chTile e) (chNum e) with legs := [] } s'
    put128 (latCh (chTile e) (2 * chNum e)) (e - bits e 12 1 * 2 ^ 12 + t * 2 ^ 12) s') s
  (l.map chTile).eraseDups.foldl (fun s' t =>
    upd (latStat t) LatStat.tunnels (min 255 ((l.filter fun e => chTile e == t && needsTunnel s l e).length)) s') s'

/-! ### Seam wires (R254, R255) -/

/-- Bundle number of a bundle of seam wires; `none` for a lane that does not exist. -/
def bundleNum : SeamBundle → Option Nat
  | .mesh r v k => some (chanBundle (seamMesh r) v k)
  | .expr i v k => some (chanBundle (15 + i) v k)
  | .lx i v k => some (chanBundle (75 + i) v k)
  | .lane i k => if i < 240 then some (laneBundle i k) else none

/-- The channel direction or the lane of a bundle is out of service already. -/
def alreadyOut (s : State) : SeamBundle → Bool
  | .mesh r v _ => chanOut s (seamMesh r) v
  | .expr i v _ => chanOut s (15 + i) v
  | .lx i v _ => chanOut s (75 + i) v
  | .lane i _ => laneOut s i

/-- A bundle. -/
def bundle (s : State) (b : Nat) : Bundle := tget (fun _ => {}) s.net.bundles b

/-- Replace a bundle. -/
def setBundle (b : Nat) (x : Bundle) (s : State) : State :=
  { s with net := { s.net with bundles := tset (fun _ => {}) b x s.net.bundles } }

/-- Marked wires are replaced by spares, at a quiesce. -/
def repairSeam (s : State) : State :=
  s.net.bundles.foldl (fun s e =>
    let n := e.2.marked.length
    if n = 0 then s
    else satAdd conSeamStat ConSeamStat.spared n
      (setBundle e.1 { e.2 with spares := e.2.spares + n, marked := [] } (upd conSeamStat ConSeamStat.pending
        (get s conSeamStat ConSeamStat.pending - n) s))) s

/-! ### Quiesce (R246) -/

/-- What takes effect while the tile traffic is quiesced: seam repairs, port rejoins and tunnels. -/
def quiesceTables (s : State) : State := setTunnels (rejoinPorts (repairSeam s))

/-! ### Shadow pairs (R339) -/

/-- The partner of a tile for a tile count. -/
def partnerOf (n t : Nat) : Nat := (t + 384) % max 1 n

/-- The WM partitions of a model on a tile, as base and size. -/
def wmParts (s : State) (base m t : Nat) : List (Nat × Nat) :=
  ((memplan s base).filter fun r => mpTile r == t && (mpModel r == m && mpMem r == 0)).map fun r => (mpBase r, mpSize r)

/-- One byte of a tile's WM as the load leaves it. -/
def wmImageByte (s : State) (base t a : Nat) : Byte :=
  let r := tileRec s base t
  if a < 64 * tlWmUnits r then hbmByte s (base + tlWmOff r + a) else 0

/-- The bytes of a range of WM as the load leaves it. -/
def wmRange (s : State) (base t : Nat) (p : Nat × Nat) : List Byte :=
  (List.range (64 * p.2)).map fun i => wmImageByte s base t (64 * p.1 + i)

/-- Whether model `k` is a copy of model `m` that makes a shadow pair with it. -/
def shadowPair (s : State) (base m k : Nat) : Bool :=
  let n := tileCount s
  mdCopyOf (modelRec s base m) == 0xFF && (mdCopyOf (modelRec s base k) == m && (List.range n).all fun t =>
    tileField s t != tileField s (partnerOf n t) &&
      ((wmParts s base m t).map (wmRange s base t) == (wmParts s base k (partnerOf n t)).map (wmRange s base (partnerOf n t))))

/-- Shadow-capable models of a season: each original that has a copy making a pair, and each such copy. -/
def capable (s : State) (base : Nat) : List Nat :=
  let ms := List.range (hdrModels (imgHeader s base))
  (ms.flatMap fun m => (ms.filter fun k => shadowPair s base m k).flatMap fun k => [m, k]).eraseDups

/-- Rewrite INT_COVER. -/
def setCover (base : Nat) (s : State) : State :=
  let l := capable s base
  (List.range 8).foldl (fun s' n =>
    put (intCover n) (BitVec.ofNat 64 ((List.range 32).foldl (fun v j => if l.contains (32 * n + j) then v + 2 ^ j else v) 0)) s') s

/-! ### Activation (step 7 of R202) -/

/-- Tasks become VALID, windows open, and notify queues register. -/
def openTile (base t : Nat) (s : State) : State :=
  let n := ((List.range 16).filter fun w => bit1 (tabWindow s base t w) 0).length
  let s := addR (ledCnt LedCnt.winOpened) n (addR (ledCnt LedCnt.winOpen) n s)
  updTile t (fun x => { x with notify := notifyOf s base t }) (loadTables base t true s)

/-- Clear every flag of the device (R252). -/
def clearFlags (s : State) : State :=
  { s with regs := tdrop (fun off => decide (0x20040 ≤ off) && (decide (off < 0x2C000) &&
      (decide (0x40 ≤ off % 0x1000) && decide (off % 0x1000 < 0x60)))) s.regs }

/-- The season of a slot becomes the active one. -/
def activateSlot (i : Nat) (s : State) : State :=
  let base := slotBase s i
  let s := (List.range (tileCount s)).foldl (fun s t => openTile base t s) (clearFlags s)
  let s := setCover base (setSlotState i ssActive s)
  let s := upd intStat IntStat.wdigRounds 0 s
  { s with req := { s.req with change := none, recorded := none, resident := s.devtime }
           integ := { s.integ with compared := [], late := [] } }

/-- Load every tile of a season (step 5 of R202); the microcode it finds in the tiles stands. -/
def loadTiles (base : Nat) (s : State) : State :=
  (List.range (tileCount s)).foldl (fun s t => loadTile base t s) s

/-- Load a season's routes and tiles from its image, whose reads correct and count errors (steps 4 and 5 of R202, R265). -/
def loadImage (base : Nat) (s : State) : State :=
  withRange base (hdrSize (imgHeader s base)) (fun s => setTunnels (loadRoutes base (loadTiles base s))) s

/-- Broadcast tile microcode to every tile whose site has been powered again (R436). -/
def broadcastAll (s : State) : State := (List.range (tileCount s)).foldl (fun s t => broadcast t s) s

/-- Load the active season again, after WINTER or a fabric reset; a season change that the reset abandoned restarts from
its first step (R36, R203, R400, R442). -/
def reloadSeason (s : State) : State :=
  let s := broadcastAll s
  match s.req.change with
  | some (i, _) => { s with req := { s.req with change := some (i, .draining) } }
  | none =>
    match activeSlot s with
    | none => s
    | some i =>
      let base := slotBase s i
      let since := s.req.resident
      let s := activateSlot i (loadImage base s)
      { s with req := { s.req with resident := since } }

/-- The channels that end on some tiles start anew: both their ends are empty, and each send end holds its receiver's ring
(R222). -/
def resetChannels (ts : List Nat) (s : State) : State :=
  let l := channelsInUse s
  (l.filter fun e => ts.contains (chTile e) || ts.contains (chPeerTile e)).foldl (fun s e =>
    let n := if chReceive e ∨ chMode e = 0 then 0 else chRsize (peerEntry l e)
    setChan (chTile e) (chNum e) { credits := n } s) s

/-- Load one tile again from the active slot, onto the site that a remap gives it (R161). -/
def reloadTile (t : Nat) (s : State) : State :=
  match activeSlot s with
  | none => broadcast t s
  | some i =>
    let base := slotBase s i
    let r := tileRec s base t
    broadcast t (withRange (base + tlWmOff r) (64 * tlWmUnits r) (withRange (base + tlIstoreOff r) (tlIstoreLen r)
      (withRange (base + tlTablesOff r) 1536 fun s =>
        loadTables base t true (setTile t (loadMemories s base t (tile s t)) s))) s)

end Sys2Proof.Machine
end

