-- ==== Sys2Proof/Machine/Work.lean ====
section
/-! DEFINITION. What resets and recoveries do below the level of the reset kinds: known-answer runs of all tiles, the fabric
domains, slots after a field loss, and what non-volatile memory keeps (R336, R441, R442, R450). -/

namespace Sys2Proof.Machine

open Sys2Proof

/-- SINCE_KAT of a tile becomes 0 and it is verified (R336, R337). -/
def sinceKatZero (t : Nat) (s : State) : State :=
  let s := if get s (tilIntStat t) TilIntStat.unverified = 1 then
      upd intStat IntStat.unverified (get s intStat IntStat.unverified - 1) (upd (tilIntStat t) TilIntStat.unverified 0 s)
    else s
  upd (tilIntStat t) TilIntStat.sinceKat 0 s

/-- What the fabric domains hold besides registers is gone: packets, tables and the bitmap of link ports. Seam repairs are
kept (R255, R442). -/
def fabricCleared (s : State) : State :=
  let s := { s with net := { bundles := s.net.bundles } }
  let s := { s with regs := tdrop (fun off => decide (0x6100 ≤ off) && decide (off < 0x6200)) s.regs }
  let s := { s with links := tmap (fun _ => {}) (fun _ => true) (fun _ x => { x with usable := false }) s.links }
  { s with tiles := s.tiles.filterMap fun e =>
      let x := { e.2 with chans := [] }
      if x = {} then none else some (e.1, x) }

/-- Store a map as the new map record in NVM; with no device in service nothing is stored (R432, R464). -/
def storeMap (m : MapRecord) (s : State) : State :=
  if nvmOk s then nvmPages arMap 10 { s with boot := { s.boot with nvmMap := m, nvmPrev := s.boot.nvmMap } } else s

/-- Whether a map may be loaded: every live field holds 64 LOGICAL sites, which its logical tiles take one each; no site has
another role beside, and no fused-out site has one (R28). -/
def mapOk (fuse : List Nat) (m : MapRecord) : Bool :=
  let live := (List.range 12).filter fun f => bit1 m.live f
  fuse.all (fun n => mapStatus m n == stFused) && live.zipIdx.all fun e =>
    let on := (fieldSites e.1).filter fun n => mapStatus m n == stLogical
    let tiles := (List.range 64).map fun i => mapSite m (64 * e.2 + i)
    on.length == 64 && on.all fun n => tiles.contains n

/-- The map that a load puts in force: the record with the higher SEQ, or, where R28 refuses it, the one in force before. -/
def loadMap (s : State) : State :=
  if nvmOk s && mapOk s.boot.fuse s.boot.nvmMap then { s with boot := { s.boot with map := s.boot.nvmMap } } else s

/-- Write the map in force as a new map record in NVM (R432). -/
def writeMap (s : State) : State :=
  let m := { s.boot.map with seq := s.boot.nvmMap.seq + 1, time := s.devtime }
  storeMap m { s with boot := { s.boot with map := m, mapDirty := false } }

/-- The CCLK point changes at the last count that is a multiple of 5760, which is the T_s of a change that waited for the
quiesce; a T_s already broadcast for TCLK stays in TS_LOW (R417, R424, R425). -/
def cclkSwitch (s : State) : State :=
  let lp := get s clkCtrl ClkCtrl.cclkLp
  let own := get s clkStat ClkStat.cclkLp != lp && (s.clock.step.map (·.ts)).getD none == none
  upd clkStat ClkStat.cclkLp lp (if own then upd clkStat ClkStat.tsLow (s.devtime / 5760 * 5760 % 2 ^ 32) s else s)

/-- The device quiesces: what waits for it takes effect, the CCLK point among it, and a map that differs from its record is
written (R246, R417, R424, R434, R449). -/
def quiesced (s : State) : State :=
  let s := cclkSwitch (quiesceTables s)
  if s.boot.mapDirty then writeMap s else s

/-- Whether FIELDS and TILES of the image in a slot equal the device's live fields and tile count (R196). -/
def geometryOk (s : State) (i : Nat) : Bool :=
  let h := imgHeader s (slotBase s i)
  hdrFields h == s.boot.map.live && hdrTiles h == tileCount s

/-- Result codes of a slot (R196). -/
def lrGeometry : Nat := 0x05

/-- A slot whose geometry no longer matches becomes REFUSED (R197). -/
def refuseGeometry (i : Nat) (s : State) : State :=
  seasonLost (setSlotState i ssRefused (setSlotResult i lrGeometry s))

/-- Every slot whose geometry no longer matches becomes REFUSED, the active one included (R450). -/
def slotsRecheck (s : State) : State :=
  (List.range 8).foldl (fun s i =>
    if (slotState s i == ssStaged || (slotState s i == ssActivating || slotState s i == ssActive)) && !geometryOk s i then
      refuseGeometry i s
    else s) s

/-- A weight digest round that a drain meets is abandoned; it restarts after the drain (R349). -/
def abandonRound (s : State) : State :=
  { s with integ := { s.integ with roundAt := none, compared := [], late := [] } }

/-- A batch that a reset stops counts among the falls exempt from the slope rules (R390). -/
def exemptFall (s : State) : State := satAdd pwrSlopeStat PwrSlopeStat.exempt 1 s

/-! ### What a device or power-on reset leaves (R441, R460–R471) -/

/-- NVM_SLOT_STAT of a slot after a reset: the state that NVM holds, with a slot under upload INVALID (R481, R495). -/
def slotAfter (s : State) (i : Nat) : Reg :=
  let v := rd s (nvmSlotStat i)
  if s.nvm.failed.contains i then setF (setF v NvmSlotStat.state fsUnavailable) NvmSlotStat.result 0
  else if getF v NvmSlotStat.state = fsReceiving then setF (setF v NvmSlotStat.state fsInvalid) NvmSlotStat.result 0x25
  else setF v NvmSlotStat.result 0

/-- What NVM and OTP hold through a reset, besides their registers. -/
def nvmKept (n : NvmState) : NvmState :=
  { failed := n.failed, bootRec := n.bootRec, bootPrev := n.bootPrev, devRec := n.devRec, devPrev := n.devPrev, lastReason := n.lastReason, slotA := n.slotA, slotB := n.slotB, cfg := n.cfg, prev := n.prev
    devSeq := n.devSeq, devTime := n.devTime, boots := n.boots, lastKind := n.lastKind, lastCause := n.lastCause
    select := n.select, operator := n.operator, otp := n.otp, pages := n.pages, slotErases := n.slotErases
    timerLatch := n.timerLatch }

/-- The SEQ of the next log entry, continued from NVM (R519). -/
def nextLogSeq (s : State) : Nat := (s.log.pages.flatMap (·.entries)).foldl (fun m x => max m (x.seq + 1)) 0

/-- The registers that take their values from NVM at a device or power-on reset (R539). -/
def nvmRegs (s s' : State) : State :=
  let s' := put (nvmSlotStat 0) (slotAfter s 0) (put (nvmSlotStat 1) (slotAfter s 1) s')
  let s' := upd nvmUpdStat NvmUpdStat.nvmAOk (b2n (!s.nvm.failed.contains 0)) s'
  let s' := upd nvmUpdStat NvmUpdStat.nvmBOk (b2n (!s.nvm.failed.contains 1)) s'
  let s' := upd queBootId QueBootId.boots s.nvm.boots (upd ledLogStat LedLogStat.nextSeq (nextLogSeq s) s')
  let s' := upd lifStat LifStat.seq s.life.seq s'
  upd supRemapStat SupRemapStat.lastId ((s.boot.journal.getLast?.map (·.id)).getD 0) s'

/-- The state that a device or power-on reset leaves before its own marks: what NVM and OTP hold, the commands that wait,
and the levels of the host pins; DEVTIME starts at 0 (R421, R441). -/
def nvmOnly (s : State) : State :=
  nvmRegs s
    { pending := s.pending, free := s.free, answer := s.answer
      log := { pages := s.log.pages, pageSeq := s.log.pageSeq }
      life := { live := s.life.record, record := s.life.record, prev := s.life.prev, seq := s.life.seq }
      hbmState := { record := s.hbmState.record, prevRecord := s.hbmState.prevRecord }
      boot := { map := if mapOk s.boot.fuse s.boot.nvmMap then s.boot.nvmMap else s.boot.nvmPrev
                nvmMap := s.boot.nvmMap, nvmPrev := s.boot.nvmPrev, fuse := s.boot.fuse, journal := s.boot.journal
                repair := s.boot.repair }
      nvm := nvmKept s.nvm
      host := { perst := s.host.perst } }

/-- The die trip that the input supervisor's latch reports (R403): kept through a device reset. -/
def keepTrip (s s' : State) : State :=
  upd pwrState PwrState.dieTrip (get s pwrState PwrState.dieTrip)
    (upd pwrState PwrState.tripSensor (get s pwrState PwrState.tripSensor)
      (upd pwrState PwrState.tripTemp (get s pwrState PwrState.tripTemp) s'))

/-- Write the device record with the kind and cause of the last device-wide reset (R457, R465). -/
def writeDevice (s : State) : State :=
  if nvmOk s then
    let n := { s.nvm with
      devSeq := s.nvm.devSeq + 1, devTime := s.devtime
      lastKind := get s supResetStat SupResetStat.lastKind, lastCause := get s supResetStat SupResetStat.lastCause }
    nvmPages arDev 1 { s with nvm := { n with devRec := deviceRecBytes n, devPrev := n.devRec } }
  else s

end Sys2Proof.Machine
end

