-- ==== Sys2Proof/Machine/Resets.lean ====
section
/-! DEFINITION. What resets, field loss, dark clusters and remap requests do: the operations of R440–R454 that the
families of power, clocks, integrity and bring-up share. -/

namespace Sys2Proof.Machine

open Sys2Proof

/-! ### Groups of registers -/

/-- Whether the register at an offset belongs to a group (R537). -/
def inGroup (p : RegGroup → Bool) (off : Nat) : Bool :=
  match regAt off with
  | some d => p d.group
  | none => false

/-- The logical tile whose page holds an offset. -/
def pageTile (off : Nat) : Nat := (off - 0x1000000) / 0x8000

/-- Cluster-domain registers of a tile take their reset values (R537). -/
def resetTileRegs (ts : List Nat) (s : State) : State :=
  resetRegs (fun off => decide (0x1000000 ≤ off) && (ts.contains (pageTile off) && inGroup (· == .tileC) off)) false s

/-! ### Causes of WINTER (R399) -/

/-- A cause of WINTER arises: the supervisor lets the running batch go on for up to 500 µs; an exit from WINTER is
abandoned with the compute reset taken again (R399, R400). -/
def winterCause (bit : Nat) (s : State) : State :=
  let c := get s pwrState PwrState.winterCause
  if bit1 c bit then s
  else
    let s := upd pwrState PwrState.winterCause (c ||| 2 ^ bit) s
    let due := s.control.winterDue.getD s.devtime
    { s with control := { s.control with winterClear := none, winterDue := some due, exiting := false } }

/-- A cause of WINTER ends. -/
def winterClear (bit : Nat) (s : State) : State :=
  let c := get s pwrState PwrState.winterCause
  if bit1 c bit then
    let s := upd pwrState PwrState.winterCause (c - 2 ^ bit) s
    if c = 2 ^ bit then { s with control := { s.control with winterDue := none } } else s
  else s

/-! ### Clusters (R367–R373) -/

/-- Working phases of a cluster. -/
def phasesOk (s : State) (g : Nat) : Nat :=
  ((List.range 8).filter fun i => bit1 (get s (pwrClStat g) PwrClStat.phaseOk) i).length

/-- ILIM_EFF := min(ILIM, 8 A × working phases), ILIM within 16–60 A (R367, R381). -/
def setIlimEff (g : Nat) (s : State) : State :=
  let ilim := max 16 (min 60 (get s (pwrClCfg g) PwrClCfg.ilim))
  upd (pwrClStat g) PwrClStat.ilimEff (min ilim (8 * phasesOk s g)) s

/-- Put a request for admission into the queue: by time, then by cluster index (R378). -/
def insertReq (r : AdmitReq) : List AdmitReq → List AdmitReq
  | [] => [r]
  | x :: q => if r.time < x.time ∨ (r.time = x.time ∧ r.cluster < x.cluster) then r :: x :: q else x :: insertReq r q

/-- Request the admission of a cluster that is OFF; a dark cluster stays dark (R370, R372). -/
def requestAdmission (g : Nat) (s : State) : State :=
  if get s (pwrClStat g) PwrClStat.state = 0 then
    let s := upd (pwrClStat g) PwrClStat.state 1 s
    { s with power := { s.power with waiting := insertReq { cluster := g, time := s.devtime } s.power.waiting } }
  else s

/-- The sites lose their compute and memories: their switches open and the work and contents on them are gone (R371). -/
def sitesLost (ns : List Nat) (s : State) : State :=
  let ts := ns.filterMap (tileAt s)
  let s := tilesLost ts s
  { s with power := { s.power with siteOn := s.power.siteOn.filter fun n => !ns.contains n } }

/-- The sites of a cluster that are powered once it is ON: those with a logical role, those a remap is
about to test, and in SPRING every site that R439 tests. -/
def sitesToPower (s : State) (g : Nat) : List Nat :=
  let targets : List Nat := match s.boot.remap with
    | some r => r.entries.map (·.new)
    | none => []
  (clusterSites g).filter fun n =>
    let st := siteStatus s n
    let test := decide (devState s = .spring) && (st != stFused && !(st == stFailed && mapFails s.boot.map n == 3))
    st == stLogical || (test || targets.contains n)

/-- Close the power switches of sites; the cluster-domain registers of their tiles start from their reset values. -/
def powerSites (ns : List Nat) (s : State) : State :=
  let new := ns.filter fun n => !s.power.siteOn.contains n
  let s := resetTileRegs (new.filterMap (tileAt s)) s
  { s with power := { s.power with siteOn := s.power.siteOn ++ new } }

/-- A cluster of which no site is powered has its regulator disabled and its clock branch gated (R27). -/
def restCluster (s : State) (g : Nat) : State :=
  if get s (pwrClStat g) PwrClStat.state = 3 ∧ (clusterSites g).all fun n => !s.power.siteOn.contains n then
    let s := upd (pwrClStat g) PwrClStat.state 0 (upd (pwrClStat g) PwrClStat.iout 0 s)
    { s with control := { s.control with m := tset (fun _ => 64) g 64 s.control.m
                                         lRamp := tset (fun _ => 1) g 1 s.control.lRamp } }
  else s

/-- Open the power switches of sites whose tiles have gone elsewhere; a cluster left with none rests (R26, R27). -/
def openSites (ns : List Nat) (s : State) : State :=
  (ns.map siteCluster).foldl restCluster
    { s with power := { s.power with siteOn := s.power.siteOn.filter fun n => !ns.contains n } }

/-- A cluster's soft-start ends: ON with issue limit 1, its sites powered; one that no site asks for any more rests (R26,
R27, R373). -/
def clusterOn (g : Nat) (s : State) : State :=
  let s := upd (pwrClStat g) PwrClStat.state 3 s
  let s := { s with control := { s.control with m := tset (fun _ => 64) g 1 s.control.m
                                                lRamp := tset (fun _ => 1) g 1 s.control.lRamp } }
  restCluster (powerSites (sitesToPower s g) s) g

/-! ### Resets (R440–R442) -/

/-- The code of a reset cause, LAST_CAUSE of SUP_RESET_STAT (R457). -/
def causeCode : ResetCause → Nat
  | .none => 0
  | .owner => 1
  | .winter => 2
  | .pllLock => 3
  | .syncFault => 4
  | .fcWatchdog => 5
  | .privTimeout => 6
  | .supWatchdog => 7
  | .seamPll => 8
  | .twoFields => 9
  | .power => 10
  | .firmware => 11
  | .fieldLost => 12

/-- Record the kind and cause of a device-wide reset (R457). -/
def noteReset (kind : Nat) (c : ResetCause) (s : State) : State :=
  upd supResetStat SupResetStat.lastKind kind (upd supResetStat SupResetStat.lastCause (causeCode c) s)

/-- Every cluster is switched off; a dark one stays dark (R440). -/
def clustersOff (s : State) : State :=
  let isStat (off : Nat) : Bool := decide (0x10000 ≤ off) && (decide (off < 0x11E00) && off % 0x20 == 8)
  let offNow (_ : Nat) (v : Reg) : Reg :=
    let v := setF v PwrClStat.iout 0
    if getF v PwrClStat.state = 4 then v else setF v PwrClStat.state 0
  let s := { s with regs := tmap regReset isStat offNow s.regs }
  { s with power := { s.power with waiting := [], softEnd := [], ramping := [], siteOn := [] }
           control := { s.control with m := [], lRamp := [], act := [], floor := [], exiting := false } }

/-- A compute reset switches off every cluster; the executing requests complete with ABANDONED-AT-RESET, and a running
remap is interrupted (R440, R441, R446). -/
def computeReset (c : ResetCause) (s : State) : State :=
  let s := abandonExecuting s
  let s := tilesLost (List.range (tileCount s)) s
  let s := clustersOff (exemptFall s)
  let s := { s with boot := { s.boot with remap := none } }
  let s := upd supRemapStat SupRemapStat.state 0 s
  logCoded sevNotice kReset bSup 440 1 (causeCode c) 0
    (noteReset 1 c (satAdd supResetStat SupResetStat.computeResets 1 s))

/-- The state after a device reset but for what SPRING brings back: NVM, OTP and the supplies keep theirs (R437, R441,
R515), and a thermal cycle goes on being awaited (R527). A reset the supervisor takes itself is logged and written first (R521, R528); after the others the next SPRING
makes the entry (R522). -/
def deviceResetBy (own : Bool) (c : ResetCause) (s : State) : State :=
  let s := if own then logCoded sevFatal kReset bSup 440 3 (causeCode c) 0 s else s
  let s := if own then writeDevice (noteReset 3 c (lifetimeWrite (lifeCount 36 4 1 (logFlush s)))) else s
  let s' := keepTrip s (nvmOnly s)
  let s' := { s' with power := { s'.power with
    up := s.power.up.filter fun r => [Supply.aux, .supervisor, .oscillator, .linkAndHost, .hbm].contains r
    auxFaulted := s.power.auxFaulted, mated := s.power.mated, latch := s.power.latch } }
  let s' := { s' with control := { s'.control with cycleArmed := s.control.cycleArmed } }
  let s' := { s' with boot := { s'.boot with
    unlogged := if own then none else some (3, causeCode c), resetKind := 3 } }
  noteReset 3 c (if own then s' else lifeCount 36 4 1 s')

/-- A device reset by its cause: the supervisor's watchdog and the loss of the seam PLL are not its own resets. -/
def deviceReset (c : ResetCause) (s : State) : State := deviceResetBy (!(c == .supWatchdog || c == .seamPll)) c s

/-- A power-on reset: the supervisor is released with what NVM, OTP and the input supervisor's latch hold (R440, R441,
R457). -/
def powerOnReset (s : State) : State :=
  let s' := nvmOnly s
  let s' := { s' with
    power := { s'.power with off := none, mated := s.power.mated, latch := s.power.latch
                             up := [.aux, .supervisor, .oscillator], tripLatch := none, auxFaulted := s.power.auxFaulted }
    boot := { s'.boot with unlogged := some (4, causeCode .power), resetKind := 4 }
    nvm := { s'.nvm with failed := [] } }
  let s' := upd nvmUpdStat NvmUpdStat.nvmAOk 1 (upd nvmUpdStat NvmUpdStat.nvmBOk 1 s')
  let s' := match s.power.tripLatch with
    | some (i, t) => upd pwrState PwrState.dieTrip 1 (upd pwrState PwrState.tripSensor i
        (upd pwrState PwrState.tripTemp t s'))
    | none => s'
  let s' := if s.power.latch = some .dieTrip then lifeCount 74 2 1 s'
    else if s.power.latch = some .brownout then lifeCount 72 2 1 s' else s'
  noteReset 4 .power s'

/-- Every converter of the module stops: what is powered loses its contents, and links and sessions drop. What NVM, OTP
and the input supervisor hold stays (R356, R358, R441). -/
def powerOff (why : OffCause) (s : State) : State :=
  let s' := nvmOnly s
  { s' with power := { off := some why, up := [], mated := s.power.mated, latch := some why
                       auxFaulted := s.power.auxFaulted } }

/-- A fabric reset begins: links are fenced and a compute reset is taken; the rest is done when FABRIC_RESET completes
it. A change of frequency that pends is cancelled (R420). A cause that arises during one restarts it, and the third restart within a second becomes a device reset (R442). -/
def startFabricReset (c : ResetCause) (s : State) : State :=
  let s' := satAdd supResetStat SupResetStat.fabricResets 1 (lifeCount 40 4 1 s)
  if s.boot.fabricReset then
    let times := (s.boot.fabricTimes.filter fun t => decide (s.devtime < t + secTicks)) ++ [s.devtime]
    if 3 ≤ times.length then deviceReset c s
    else { s with boot := { s.boot with fabricTimes := times } }
  else
    let s := (List.range 96).foldl (fun s n => linkFence n s) s'
    let s := upd clkStat ClkStat.pending 0 (computeReset c s)
    let s := { s with clock := { s.clock with step := s.clock.step.map fun (st : ClockStep) => { st with ts := none } } }
    let s := noteReset 2 c { s with boot := { s.boot with fabricReset := true, fabricTimes := [] } }
    logCoded sevNotice kReset bSup 440 2 (causeCode c) 0 s

/-- SPRING stops with a code: the supervisor, host and link domains stay up, and the stop is reported (R438, R557). -/
def springStop (code : Nat) (s : State) : State :=
  let s := upd supBootStat SupBootStat.stage 8 (upd supBootStat SupBootStat.stopCode code s)
  i3cRaise 0x80 (logCoded sevFatal kState bSup 438 0 code 0 s)

/-! ### Map records and the journal (R432, R447) -/

/-- Append a journal record; the area's newest records are the ones that matter, so the last eight are kept. -/
def journalAdd (kind : Nat) (id : Nat) (es : List RemapEntry) (s : State) : State :=
  let r : JournalRec := { kind := kind, id := id, time := s.devtime, mapSeq := s.boot.nvmMap.seq, entries := es }
  let l := s.boot.journal ++ [r]
  if nvmOk s then nvmPages arMap 1 { s with boot := { s.boot with journal := l.drop (l.length - 8) } } else s

/-! ### Field loss (R362, R450–R453) -/

/-- The logical tiles after a field is lost: the tiles of the live field of rank r are 64r to 64r + 63 (R451). -/
def renumber (m : MapRecord) (live : List Nat) (rankOf : Nat → Nat) : Table Nat :=
  (List.range 768).foldl (fun t l =>
    let v := match live[l / 64]? with
      | some f => mapSite m (64 * rankOf f + l % 64)
      | none => 0xFFFF
    tset logicalDefault l v t) []

/-- The map with a field lost: its live bit is cleared, its field byte holds the cause, its sites' CAUSE says so, and
the logical tiles are numbered again (R432, R450, R451). -/
def mapLose (f cause : Nat) (m : MapRecord) : MapRecord :=
  let before := (List.range 12).filter fun x => bit1 m.live x
  let live := before.filter (· != f)
  let rankOf := fun x => (before.filter (· < x)).length
  let lg := renumber m live rankOf
  let m := (fieldSites f).foldl (fun m n =>
    { m with sites := tset siteDefault n (BitVec.ofNat 8 ((mapByte m n).toNat % 32 + 5 * 32)) m.sites }) m
  mapSetField f (1 + cause * 4) { m with live := m.live - 2 ^ f, logical := lg }

/-- A field's quote is no longer held (R504). -/
def dropQuote (f : Nat) (s : State) : State :=
  let q := get s supIdStat SupIdStat.quote
  let s := if bit1 q f then upd supIdStat SupIdStat.quote (q - 2 ^ f) s else s
  { s with boot := { s.boot with quotes := tset (fun _ => []) f [] s.boot.quotes } }

/-- The converters of a lost field latch off, and every cluster of it is off with CAUSE FIELD_LOST, a trip's cause
standing (R362, R378). -/
def fieldPowerLost (f cause : Nat) (s : State) : State :=
  let o := pwrFieldStat f
  let s := [PwrFieldStat.ibcA, PwrFieldStat.ibcB, PwrFieldStat.ibcC].foldl (fun s c =>
    if get s o c = 1 then upd o c 0 s else s) s
  let s := upd o PwrFieldStat.state 2 (upd o PwrFieldStat.lossCause (if cause ≤ 4 then cause else 0) s)
  let s := dropQuote f s
  let s := (fieldClusters f).foldl (fun s g =>
    if get s (pwrClStat g) PwrClStat.state = 4 then s
    else upd (pwrClStat g) PwrClStat.state 0 (upd (pwrClStat g) PwrClStat.cause 5 s)) s
  { s with
    power := { s.power with
      waiting := s.power.waiting.filter fun r => clusterField r.cluster != f
      ramping := s.power.ramping.filter fun g => clusterField g != f
      siteOn := s.power.siteOn.filter fun n => siteField n != f }
    clock := { s.clock with locked := s.clock.locked.filter (· != f)
                            lostAt := tset (fun _ => none) f none s.clock.lostAt } }

/-- A running remap of a field ends with END COUNT 0, and its waiting requests are dropped (R448). -/
def remapFieldLost (f : Nat) (s : State) : State :=
  let q := s.boot.remapQueue.filter fun e => tileField s e.1 != f
  let s := { s with boot := { s.boot with remapQueue := q } }
  match s.boot.remap with
  | some r =>
    if r.field = f then
      upd supRemapStat SupRemapStat.state 0
        (journalAdd 3 r.id [] { s with boot := { s.boot with remap := none } })
    else s
  | none => s

/-- A field is lost: the device enters the 11-field state with a fabric reset of the remaining fields; a second loss
takes a device reset (R362, R450, R453). -/
def fieldLoss (f cause : Nat) (s : State) : State :=
  if !fieldLive s f then s
  else
    let s := logCoded sevFatal kFault bPwr 450 0 cause f (exemptFall (lifeCount 78 2 1 s))
    if degraded s then
      let m := mapSetField f (1 + cause * 4) s.boot.map
      deviceReset .twoFields (writeMap { s with boot := { s.boot with map := { m with live := m.live - 2 ^ f } } })
    else
      let s := remapFieldLost f s
      let s := tilesLost (fieldTiles s f) (abandonExecuting s)
      let s := hbmFieldLost f (fieldPowerLost f cause s)
      let s := (fieldLinks f).foldl (fun s n => linkFence n s) s
      let s := startFabricReset .fieldLost s
      slotsRecheck (writeMap { s with boot := { s.boot with map := mapLose f cause s.boot.map } })

/-! ### Remap requests (R443, R444) -/

/-- Where a site stands in the order of R444: clusters that are ON first, then the nearer, then the lower number. -/
def targetKey (s : State) (old n : Nat) : Nat :=
  let on := get s (pwrClStat (siteCluster n)) PwrClStat.state == 3
  let dx := (max (siteX n) (siteX old)) - (min (siteX n) (siteX old))
  let dy := (max (siteY n) (siteY old)) - (min (siteY n) (siteY old))
  b2n (!on) * 1000000 + (dx + dy) * 1000 + n

/-- The STANDBY site that R444 chooses for a tile, among those of its field not yet taken and not in a dark cluster. -/
def chooseTarget (s : State) (old : Nat) (taken : List Nat) : Option Nat :=
  let cs := (sitesWith s.boot.map (siteField old) stStandby).filter fun n =>
    !taken.contains n && get s (pwrClStat (siteCluster n)) PwrClStat.state != 4
  match cs with
  | [] => none
  | c :: r => some (r.foldl (fun a b => if targetKey s old b < targetKey s old a then b else a) c)

/-- Choose targets for tiles in ascending order; `none` when no STANDBY site remains for one of them. -/
def chooseTargets (s : State) : List (Nat × Nat) → List Nat → Option (List RemapEntry)
  | [], _ => some []
  | (t, cause) :: r, taken =>
    let old := siteOf s t
    match chooseTarget s old taken with
    | none => none
    | some n => (chooseTargets s r (n :: taken)).map fun es => { tile := t, old := old, new := n, cause := cause } :: es

/-- Insert a pair into a list that ascends by its first components. -/
def insertPair (x : Nat × Nat) : List (Nat × Nat) → List (Nat × Nat)
  | [] => [x]
  | y :: r => if x.1 < y.1 then x :: y :: r else y :: insertPair x r

/-- Step 1 of R445 for tiles of one field: targets are chosen, their clusters requested and their sites powered. When
no STANDBY site remains the field is lost with cause STANDBY_EXHAUSTED (R444). -/
def selectTargets (f id : Nat) (ts : List (Nat × Nat)) (s : State) : State :=
  match chooseTargets s ts [] with
  | none => fieldLoss f 5 s
  | some es =>
    let before : List Nat := match s.boot.remap with
      | some r => r.entries.map (·.new)
      | none => []
    let s := openSites (before.filter fun n => !es.any fun e => e.new == n) s
    let s := { s with boot := { s.boot with remap := some { field := f, id := id, step := .selecting, entries := es } } }
    let s := upd supRemapStat SupRemapStat.state 1 (upd supRemapStat SupRemapStat.count es.length s)
    es.foldl (fun s e =>
      let g := siteCluster e.new
      if get s (pwrClStat g) PwrClStat.state = 3 then powerSites [e.new] s else requestAdmission g s) s

/-- Begin a remap of the tiles that wait, one to four of the field of the first (R443). -/
def startRemap (s : State) : State :=
  match s.boot.remap, s.boot.remapQueue with
  | none, (t, c) :: r =>
    let f := tileField s t
    let mine := (((t, c) :: r).filter fun e => tileField s e.1 == f).take 4
    let rest := ((t, c) :: r).filter fun e => !mine.contains e
    let s := { s with boot := { s.boot with remapQueue := rest } }
    let ts := mine.foldl (fun l e => insertPair e l) []
    selectTargets f (get s supRemapStat SupRemapStat.lastId + 1) ts s
  | _, _ => s

/-- Whether a tile's remap is already running or waiting. -/
def remapKnown (s : State) (t : Nat) : Bool :=
  (s.boot.remapQueue.any fun e => e.1 == t) ||
    (match s.boot.remap with
     | some r => r.entries.any fun e => e.tile == t
     | none => false)

/-- Request a remap of logical tiles (R443): requests of the same field merge into a remap whose BEGIN has not been
written, as long as they number at most four; the others wait for its END. -/
def remapRequest (ts : List Nat) (cause : Nat) (s : State) : State :=
  let new := (ts.filter fun t => !remapKnown s t).map fun t => (t, cause)
  if new.isEmpty then s
  else match s.boot.remap with
    | none => startRemap { s with boot := { s.boot with remapQueue := s.boot.remapQueue ++ new } }
    | some r =>
      let same := new.filter fun e => tileField s e.1 == r.field
      let room := 4 - r.entries.length
      if r.step == .selecting && !(same.take room).isEmpty then
        let take := same.take room
        let rest := new.filter fun e => !take.contains e
        let all := ((r.entries.map fun e => (e.tile, e.cause)) ++ take).foldl (fun l e => insertPair e l) []
        selectTargets r.field r.id all { s with boot := { s.boot with remapQueue := s.boot.remapQueue ++ rest } }
      else { s with boot := { s.boot with remapQueue := s.boot.remapQueue ++ new } }

/-! ### Dark clusters (R369–R371) -/

/-- Targets of a running remap on a cluster that goes dark become FAILED, and the remap returns to step 1 (R448). -/
def remapClusterDark (g : Nat) (s : State) : State :=
  match s.boot.remap with
  | none => s
  | some r =>
    let hit := r.entries.filter fun e => siteCluster e.new == g
    if hit.isEmpty || (r.step == .committing || r.step == .ending) then s
    else
      let m := hit.foldl (fun m e => mapFail e.new 3 m) s.boot.map
      let s := { s with boot := { s.boot with map := m, mapDirty := true } }
      selectTargets r.field r.id (r.entries.map fun e => (e.tile, e.cause)) s

/-- A cluster goes dark: its phases stop, its input switch opens, its tiles are reported as faulted, and a remap is
requested for them (R369–R371, R443). -/
def clusterDark (g cause : Nat) (s : State) : State :=
  let ts := clusterTiles s g
  let s := upd (pwrClStat g) PwrClStat.state 4 (upd (pwrClStat g) PwrClStat.cause cause s)
  let s := upd (pwrClStat g) PwrClStat.iout 0 s
  let s := { s with power := { s.power with
    waiting := s.power.waiting.filter fun r => r.cluster != g
    ramping := s.power.ramping.filter (· != g) } }
  let s := logCoded sevDegrade kFault bPwr 369 0 cause g (exemptFall s)
  let s := if ts.isEmpty then s else batchFailCluster ts s
  let s := sitesLost (clusterSites g) s
  remapRequest ts 3 (remapClusterDark g s)

end Sys2Proof.Machine
end

