-- ==== Sys2Proof/Machine/ClockOps.lean ====
section
/-! DEFINITION. What the clock and power controllers share about changes of TCLK (R414–R419). -/

namespace Sys2Proof.Machine

open Sys2Proof

/-- The divider points (R408). -/
def nextLarger (d : Nat) : Nat := if d < 9 then 9 else if d < 10 then 10 else if d < 12 then 12 else 16
def nextSmaller (d : Nat) : Nat := if 12 < d then 12 else if 10 < d then 10 else if 9 < d then 9 else 8

/-- Whether a number is a divider point. -/
def isDiv (d : Nat) : Bool := d == 8 || (d == 9 || (d == 10 || (d == 12 || d == 16)))

/-- −OFS(d) (R414). -/
def vsetOfs (d : Nat) : Nat := if d = 8 then 0 else if d = 9 then 4 else if d = 10 then 8 else if d = 12 then 12 else 20

/-- The divider in force. -/
def curDiv (s : State) : Nat := get s clkStat ClkStat.div

/-- The divider whose voltage codes the clusters move to: that of a pending step up, else that in force (R419). -/
def vsetDiv (s : State) : Nat :=
  match s.clock.step with
  | some st => if st.down then curDiv s else st.toDiv
  | none => curDiv s

/-- The voltage code that R414 gives a cluster. -/
def vsetTarget (s : State) (g : Nat) : Nat :=
  min 60 (get s (clkClMargin g) ClkClMargin.trim + get s (clkClMargin g) ClkClMargin.adj - vsetOfs (vsetDiv s))

/-- Clusters whose regulator is ON, in ascending order. -/
def onClusters (s : State) : List Nat :=
  s.regs.filterMap fun e =>
    if 0x10000 ≤ e.1 ∧ e.1 < 0x11E00 ∧ e.1 % 0x20 = 8 ∧ getF e.2 PwrClStat.state = 3 then
      some ((e.1 - 0x10000) / 0x20) else none

/-- Change the clock block's own state. -/
def clk (f : ClockState → ClockState) (s : State) : State := { s with clock := f s.clock }

/-- A multiple of 5760 ticks at least 2048 ticks ahead (R417). -/
def nextTs (now : Nat) : Nat := (now + 2048 + 5759) / 5760 * 5760

/-- Whether the limits or voltages that must settle before T_s is chosen have settled (R419). -/
def stepReady (s : State) (st : ClockStep) : Bool :=
  if st.down then
    decide (get s pwrState PwrState.mW ≤ st.cap) &&
      (onClusters s).all fun g => decide (tget (fun _ => 64) s.control.m g ≤ st.cap)
  else (onClusters s).all fun g => decide (vsetTarget s g ≤ get s (pwrClStat g) PwrClStat.vset)

/-- Choose T_s for a pending change once it is ready, and broadcast it (R417, R419); a fabric reset holds it (R420). -/
def chooseTs (s : State) : State :=
  match s.clock.step with
  | none => s
  | some st =>
    if !s.boot.fabricReset && (st.ts.isNone && stepReady s st) then
      let t := nextTs s.devtime
      upd clkStat ClkStat.tsLow (t % 2 ^ 32) (clk (fun c => { c with step := some { st with ts := some t } }) s)
    else s

/-- Begin a change of divider, in place of a step up that pends (R417, R420, R425). -/
def beginDividerStep (target : Nat) (s : State) : State :=
  let d := curDiv s
  let down := decide (d < target)
  let held := match s.clock.step with
    | some st => !st.down
    | none => false
  let st : ClockStep := { toDiv := target, down := down, cap := if down then 64 * d / target else 64, held := held }
  let s := upd clkStat ClkStat.nextDiv target (upd clkStat ClkStat.pending 1 s)
  chooseTs (clk (fun c => { c with step := some st }) s)

/-- The device runs at no smaller divider than TARGET_DIV: a larger one begins a step down, once no step is pending (R416,
R420). -/
def followTarget (s : State) : State :=
  let target := get s clkCtrl ClkCtrl.targetDiv
  if s.clock.step.isNone && decide (curDiv s < target) then beginDividerStep target s else s

/-- The step down that a margin or skew response asks for (R415): ignored at 16 and logged as MARGIN_FLOOR; merged into
a pending step down; a pending step up is cancelled (R420). -/
def stepDownRequest (s : State) : State :=
  let d := curDiv s
  if d = 16 then logOpen sevDegrade kState bClk 415 1 0 s
  else
    let pendingDown := match s.clock.step with
      | some st => st.down
      | none => false
    if pendingDown then s
    else
      let target := nextLarger d
      let s := clk (fun c => { c with floorDiv := target, lastDown := s.devtime }) s
      beginDividerStep target (satAdd clkStat ClkStat.stepdowns 1 s)

end Sys2Proof.Machine
end

