-- ==== Sys2Proof/Machine/Clocks.lean ====
section
/-! DEFINITION. Clocks and device time (R407–R429): PLL lock, crossings, margin monitors, changes of frequency, the sync
strobe and the epoch. -/

namespace Sys2Proof.Machine

open Sys2Proof

/-! ### PLLs (R409) -/

/-- PLL_LOCK: a field PLL regains or gains lock once its fabric domain is in regulation; the seam PLL's lock is what
the supervisor's release follows (R409). -/
def execPllLock (p : Pll) (s : State) : Host.Outcome State Fault Refusal :=
  .next (powered (fun s =>
    match p with
    | .seam => s
    | .field f =>
      if s.power.up.contains (.field f) && !s.clock.locked.contains f.val then
        clk (fun c => { c with locked := c.locked ++ [f.val], lostAt := tset (fun _ => none) f.val none c.lostAt }) s
      else s) s)

/-- PLL_LOCK_LOSS: a field PLL out of lock takes a fabric reset; the seam PLL out of lock takes a device reset (R409,
R440). -/
def execPllLockLoss (p : Pll) (s : State) : Host.Outcome State Fault Refusal :=
  .next (powered (fun s =>
    match p with
    | .seam => deviceReset .seamPll s
    | .field f =>
      if s.clock.locked.contains f.val then
        let s := clk (fun c => { c with locked := c.locked.filter (· != f.val)
                                        lostAt := tset (fun _ => none) f.val (some s.devtime) c.lostAt }) s
        startFabricReset .pllLock (logOpen sevError kFault bClk 409 0 f s)
      else s) s)

/-- PLL_RELOCK_TIMEOUT: a field PLL that has not regained lock within 10 ms takes a device reset (R409). -/
def execPllRelockTimeout (f : FieldId) (s : State) : Host.Outcome State Fault Refusal :=
  .next (powered (fun s =>
    match tget (fun _ => none) s.clock.lostAt f.val with
    | some t => if t + 10 * msTicks ≤ s.devtime then deviceReset .pllLock s else s
    | none => s) s)

/-- CREF_LOSS: no CREF edge for 10 µs takes a device reset (R409). -/
def execCrefLoss (s : State) : Host.Outcome State Fault Refusal :=
  .next (powered (fun s =>
    let s := deviceReset .seamPll s
    clk (fun c => { c with crefLost := true }) s) s)

/-! ### Crossings (R410–R412) -/

/-- The two fields of a crossing, the lower index first (R410). -/
def crossing (i : Nat) : Nat × Nat :=
  if i < 6 then (2 * i, 2 * i + 1)
  else if i < 14 then (i - 6, i - 2)
  else (4 * (i - 14) + 1, 4 * (i - 14) + 2)

/-- The budget of a crossing in ps. -/
def crossingBudget (i : Nat) : Nat := if i < 14 then 40 else 60

/-- Whether both fields of a crossing are live. -/
def crossingLive (s : State) (i : Nat) : Bool := fieldLive s (crossing i).1 && fieldLive s (crossing i).2

/-- Take one reading of a crossing (R412, R428). -/
def noteSkew (s : State) (i : Nat) (ps : Int) : State :=
  let mag := ps.natAbs
  let above := decide (crossingBudget i < mag)
  let s := upd (clkSkewStat i) ClkSkewStat.skew (unsigned 8 (max (-128) (min 127 ps))) s
  let s := upd (clkSkewStat i) ClkSkewStat.worst (max (get s (clkSkewStat i) ClkSkewStat.worst) (min 255 mag)) s
  let s := upd (clkSkewStat i) ClkSkewStat.above (b2n above) s
  let n := if above then tget (fun _ => 0) s.clock.overFor i + 1 else 0
  if n = 10 then
    let s := clk (fun c => { c with overFor := tset (fun _ => 0) i 0 c.overFor }) s
    stepDownRequest (logOpen sevDegrade kFault bClk 412 0 i s)
  else clk (fun c => { c with overFor := tset (fun _ => 0) i n c.overFor }) s

/-- The lead of a field at a crossing, from the detector's reading. -/
def leadOf (f i : Nat) (ps : Int) : Int := if (crossing i).1 = f then ps else -ps

/-- SKEW_READ: every 100 µs a field controller reads its detectors and moves its interpolator by at most one step toward
the midpoint of the readings; a crossing over budget ten times in a row asks for a step down (R412). -/
def execSkewRead (f : FieldId) (readings : List (Fin 17 × Int)) (s : State) : Host.Outcome State Fault Refusal :=
  .next (powered (fun s =>
    let rs := readings.filter fun r =>
      crossingLive s r.1.val && ((crossing r.1.val).1 == f.val || (crossing r.1.val).2 == f.val)
    let s := rs.foldl (fun s r => noteSkew s r.1.val r.2) s
    match rs.map fun r => leadOf f.val r.1.val r.2 with
    | [] => s
    | l :: rest =>
      let sum := rest.foldl min l + rest.foldl max l
      let step : Int := if 0 < sum then 1 else if sum < 0 then -1 else 0
      let pos := (tget (fun _ => 0) s.clock.interp f.val + step) % 64
      clk (fun c => { c with interp := tset (fun _ => 0) f.val pos c.interp }) s) s)

/-! ### Margins (R413–R416) -/

/-- Note that a cluster's margin caused a step down; the third within 24 h raises its TRIM by 2 codes until the next
device reset (R416). -/
def noteCaused (g : Nat) (s : State) : State :=
  let l := ((tget (fun _ => []) s.clock.caused g).filter fun t => decide (s.devtime < t + dayTicks)) ++ [s.devtime]
  let s := clk (fun c => { c with caused := tset (fun _ => []) g l c.caused }) s
  let s := upd (clkClMargin g) ClkClMargin.caused (min 3 l.length) s
  if 3 ≤ l.length ∧ s.clock.raised.contains g = false then
    upd (clkClMargin g) ClkClMargin.trim (min 60 (get s (clkClMargin g) ClkClMargin.trim + 2))
      (clk (fun c => { c with raised := c.raised ++ [g] }) s)
  else s

/-- Whether a step down pends. -/
def downPending (s : State) : Bool :=
  match s.clock.step with
  | some st => st.down
  | none => false

/-- A step-down request that a cluster's margin causes (R415, R416). -/
def marginDown (g : Nat) (s : State) : State :=
  let fresh := !downPending s && decide (curDiv s < 16)
  let s := stepDownRequest s
  if fresh then noteCaused g s else s

/-- Raise ADJ by `n`, at most to 8 (R414, R415). -/
def raiseAdj (g n : Nat) (s : State) : State :=
  let s := clk (fun c => { c with lastRaise := tset (fun _ => none) g (some s.devtime) c.lastRaise }) s
  upd (clkClMargin g) ClkClMargin.adj (min 8 (get s (clkClMargin g) ClkClMargin.adj + n)) s

/-- Whether `ticks` have passed since a noted tick. -/
def passed (now : Nat) (since : Option Nat) (ticks : Nat) : Bool :=
  match since with
  | none => true
  | some t => decide (t + ticks ≤ now)

/-- Whether a cluster reports a margin: it is ON and some site of it is powered (R413). -/
def reports (s : State) (g : Nat) : Bool :=
  get s (pwrClStat g) PwrClStat.state == 3 && (clusterSites g).any s.power.siteOn.contains

/-- MARGIN_REPORT: every 10 µs a cluster's margin is compared with CRIT_PS, WARN_PS and RELAX_PS; a threshold counts
as met when two consecutive reports meet it (R413, R415). A cluster with no powered site reports none. -/
def execMarginReport (g : ClusterId) (ps : Nat) (s : State) : Host.Outcome State Fault Refusal :=
  .next (powered (fun s =>
    if !reports s g then
      upd (clkClMargin g) ClkClMargin.margin 255 (clk (fun c =>
        { c with lastMet := tset (fun _ => 0) g.val 0 c.lastMet
                 relaxSince := tset (fun _ => none) g.val none c.relaxSince }) s)
    else
      let crit := get s clkMarginCfg ClkMarginCfg.critPs
      let warn := get s clkMarginCfg ClkMarginCfg.warnPs
      let relax := get s clkMarginCfg ClkMarginCfg.relaxPs
      let now := s.devtime
      let cls := if ps ≤ crit then 2 else if ps ≤ warn then 1 else 0
      let last := tget (fun _ => 0) s.clock.lastMet g.val
      let since := if relax ≤ ps then some ((tget (fun _ => none) s.clock.relaxSince g.val).getD now) else none
      let s := upd (clkClMargin g) ClkClMargin.margin (min 254 ps) s
      let s := clk (fun c => { c with lastMet := tset (fun _ => 0) g.val cls c.lastMet
                                      relaxSince := tset (fun _ => none) g.val since c.relaxSince }) s
      let adj := get s (clkClMargin g) ClkClMargin.adj
      if cls = 2 ∧ last = 2 then
        let s := raiseAdj g 2 (satAdd (clkClMargin g) ClkClMargin.warns 1 s)
        marginDown g (logOpen sevDegrade kFault bClk 415 0 g s)
      else if 1 ≤ cls ∧ 1 ≤ last then
        if passed now (tget (fun _ => none) s.clock.lastRaise g.val) (100 * usTicks) then
          let s := satAdd (clkClMargin g) ClkClMargin.warns 1 s
          if adj = 8 ∨ get s (pwrClStat g) PwrClStat.vset = 60 then
            marginDown g (clk (fun c => { c with lastRaise := tset (fun _ => none) g.val (some now) c.lastRaise }) s)
          else raiseAdj g 1 s
        else s
      else match since with
        | some t =>
          if t + secTicks ≤ now ∧ 0 < adj ∧ passed now (tget (fun _ => none) s.clock.lastLower g.val) secTicks = true then
            upd (clkClMargin g) ClkClMargin.adj (adj - 1)
              (clk (fun c => { c with lastLower := tset (fun _ => none) g.val (some now) c.lastLower }) s)
          else s
        | none => s) s)

/-- Whether every reporting cluster has read RELAX_PS or more for the last 10 s (R416). -/
def allRelaxed (s : State) : Bool :=
  ((onClusters s).filter (reports s)).all fun g =>
    match tget (fun _ => none) s.clock.relaxSince g with
    | some t => decide (t + 10 * secTicks ≤ s.devtime)
    | none => false

/-- STEP_UP_BEGIN: the device steps up toward the smallest divider allowed; after a step down caused by margin only when
HOLD_S has passed and every margin has been relaxed for 10 s, one point at a time (R416). -/
def execStepUpBegin (s : State) : Host.Outcome State Fault Refusal :=
  .next (powered (fun s =>
    let d := curDiv s
    let target := get s clkCtrl ClkCtrl.targetDiv
    let hold := max 10 (get s clkCtrl ClkCtrl.holdS)
    if s.clock.step.isSome then s
    else if max target s.clock.floorDiv < d then beginDividerStep (max target s.clock.floorDiv) s
    else if target < d ∧ s.clock.lastDown + hold * secTicks ≤ s.devtime ∧ allRelaxed s = true then
      let goal := max target (nextSmaller d)
      beginDividerStep goal (clk (fun c => { c with floorDiv := goal }) s)
    else s) s)

/-! ### Changing frequency (R417–R420) -/

/-- Whether every live field was within 4 ticks at the last sync (R420). -/
def fieldsInSync (s : State) : Bool :=
  (liveFields s).all fun f => decide ((signed 8 (get s (timSyncStat f) TimSyncStat.error)).natAbs ≤ 4)

/-- Rescale L_ramp of the clusters by d′ ÷ d, rounding up or down so that the sum of K(g) times the rounding errors
stays near zero; also d times that sum, in mW (R419). -/
def rescale (s : State) (dNew d : Nat) : List Nat → Int → Table Nat → Table Nat × Int
  | [], err, t => (t, err)
  | g :: r, err, t =>
    let v := tget (fun _ => 1) s.control.lRamp g * dNew
    let k : Int := (tget (fun _ => 500) s.control.cost g : Nat)
    let lo := v / d
    let up := if err ≤ 0 then lo + (if v % d = 0 then 0 else 1) else lo
    let n := max 1 (min 64 up)
    rescale s dNew d r (err + k * (((up * d : Nat) : Int) - (v : Int))) (tset (fun _ => 1) g n t)

/-- Move T_s to a later multiple of 5760. -/
def moveTs (t : Nat) (st : ClockStep) (s : State) : State :=
  upd clkStat ClkStat.tsLow (t % 2 ^ 32) (clk (fun c => { c with step := some { st with ts := some t } }) s)

/-- Charge a change of power in mW, upward or downward, to what the sample has left; `none` when it does not fit (R419). -/
def chargeSample (p : Int) (s : State) : Option State :=
  let c := s.control
  if 0 ≤ p then
    if p.toNat ≤ c.riseLeft then some { s with control := { c with riseLeft := c.riseLeft - p.toNat } } else none
  else if (-p).toNat ≤ c.fallLeft then some { s with control := { c with fallLeft := c.fallLeft - (-p).toNat } } else none

/-- DIVIDER_SWITCH: at T_s every live field switches on the same edge, M_W and every L_ramp are rescaled but those of clusters
being switched off for heat; T_s moves to a later multiple of 5760 while a field is more than 4 ticks out, and while the sum of
the rounding errors and the change in clock power, `clockMw`, at most 40 W, does not fit into the sample's budget (R417, R419,
R420). -/
def execDividerSwitch (clockMw : Nat) (s : State) : Host.Outcome State Fault Refusal :=
  .next (powered (fun s =>
    match s.clock.step with
    | none => s
    | some st =>
      match st.ts with
      | none => s
      | some t =>
        if s.devtime < t then s
        else if !fieldsInSync s then moveTs (nextTs s.devtime) st s
        else
          let d := curDiv s
          let m := max 1 (min 64 (get s pwrState PwrState.mW * st.toDiv / d))
          let lr := rescale s st.toDiv d ((onClusters s).filter fun g => !s.power.ramping.contains g) 0 s.control.lRamp
          let clock : Int := min 40000 clockMw
          match chargeSample (lr.2 / (d : Int) + (if st.down then -clock else clock)) s with
          | none => moveTs (t + 5760) st s
          | some s =>
            let s := upd clkStat ClkStat.div st.toDiv (upd clkStat ClkStat.pending 0 s)
            let s := upd pwrState PwrState.mW m s
            let s := { s with control := { s.control with lRamp := lr.1 } }
            let s := clk (fun c => { c with step := none }) s
            followTarget (logOpen (if st.down then sevDegrade else sevNotice) kState bClk 417 st.toDiv 0 s)) s)

/-- VSET_STEP: a cluster's VSET moves one code toward its target: up at most once per 10 µs, down at most once per
100 µs (R414), but not while a step down pends in place of a step up (R420). -/
def execVsetStep (g : ClusterId) (s : State) : Host.Outcome State Fault Refusal :=
  .next (powered (fun s =>
    let v := get s (pwrClStat g) PwrClStat.vset
    let t := vsetTarget s g
    let last := tget (fun _ => none) s.clock.lastVset g.val
    let move (x : Nat) : State :=
      chooseTs (upd (pwrClStat g) PwrClStat.vset x
        (clk (fun c => { c with lastVset := tset (fun _ => none) g.val (some s.devtime) c.lastVset }) s))
    if v < t then (if passed s.devtime last (10 * usTicks) then move (v + 1) else s)
    else if t < v then
      (if passed s.devtime last (100 * usTicks) && !(s.clock.step.map (·.held)).getD false then move (v - 1) else s)
    else s) s)

/-! ### Device time (R421–R423) -/

/-- One field's sync: its count is loaded at the first sync after its fabric comes up; otherwise the error is left,
slewed, or a SYNC_FAULT (R421, R422). What the count has drifted by since the last sync comes with the strobe. -/
def syncField (s : State) (f : Nat) (drift : Int) : State :=
  if !s.clock.synced.contains f then
    upd (timSyncStat f) TimSyncStat.error 0
      (clk (fun c => { c with synced := c.synced ++ [f], offset := tset (fun _ => 0) f 0 c.offset
                              slew := tset (fun _ => 0) f 0 c.slew }) s)
  else
    let e := (fieldTime s f : Int) + drift - s.devtime
    let err := unsigned 8 (max (-128) (min 127 e))
    let s := clk (fun c => { c with offset := tset (fun _ => 0) f e c.offset }) s
    let s := upd (timSyncStat f) TimSyncStat.error err s
    if e.natAbs ≤ 1 then clk (fun c => { c with slew := tset (fun _ => 0) f 0 c.slew }) s
    else if e.natAbs ≤ 64 then
      let s := clk (fun c => { c with slew := tset (fun _ => 0) f e c.slew }) s
      logOpen sevInfo kCorrected bTim 422 0 f (satAdd (timSyncStat f) TimSyncStat.slews 1 s)
    else
      let s := satAdd (timSyncStat f) TimSyncStat.faults 1 s
      startFabricReset .syncFault (logOpen sevError kFault bTim 422 1 f s)

/-- SYNC_STROBE: every 1 ms each live field compares its count with the reference (R422); `drifts` holds
what each count has drifted by since the last strobe. The strobe of a whole second
takes the ledger snapshot (R514). -/
def execSyncStrobe (drifts : List Int) (s : State) : Host.Outcome State Fault Refusal :=
  .next (powered (fun s =>
    if s.devtime % msTicks ≠ 0 then s
    else
      let s := (liveFields s).foldl (fun s f => syncField s f (drifts.getD f 0)) s
      if s.devtime % secTicks = 0 then ledgerSnapshot s else s) s)

/-- Write TIM_EPOCH as the owner (R423, R429): it applies at once, and the old and the new value are logged. -/
def epochWrite (half : Half) (v : Nat) (s : State) : State :=
  let old := rd s timEpoch
  let new := BitVec.ofNat 64 (mergeHalf half old v)
  let s := upd timStat TimStat.epochSet 1 (put timEpoch new s)
  let s := logEvent ⟨sevNotice, kConfig, bTim, epSup, Config.logCode 423 0, 0, old.toNat⟩ s
  logEvent ⟨sevNotice, kConfig, bTim, epSup, Config.logCode 423 0, 1, new.toNat⟩ s

/-- EPOCH_WRITE (R423, R429). -/
def execEpochWrite (m : Master) (half : Half) (v : Nat) (s : State) : Host.Outcome State Fault Refusal :=
  .next (powered (asOwner m (halfOff timEpoch half) (halfWidth half) (epochWrite half v)) s)

end Sys2Proof.Machine
end

