-- ==== Sys2Proof/Machine/HbmCmd.lean ====
section
/-! DEFINITION. The commands of the HBM subsystem (R268–R280). -/

namespace Sys2Proof.Machine

open Sys2Proof

/-! ### Stack temperature (R268) -/

/-- The refresh rate that a temperature asks for: 0 1×, 1 2×, 2 4×. -/
def refreshFor (c : Int) : Nat := if 95 < c then 2 else if 85 < c then 1 else 0

/-- The highest temperature at which a rate steps down: the top of the lower band less 3 °C. -/
def stepDownAt (rate : Nat) : Int := if rate = 2 then 92 else 82

/-- The tick since which a stack's temperature has allowed a step down. -/
def stackCool (s : State) (k : Nat) : Option Nat := tget (fun _ => none) s.hbmState.coolSince k

/-- Set that tick. -/
def setStackCool (k : Nat) (v : Option Nat) (s : State) : State :=
  { s with hbmState := { s.hbmState with coolSince := tset (fun _ => none) k v s.hbmState.coolSince } }

/-- Set a stack's refresh rate and HOT; an entry into HOT is logged, and HOT clears at the step down from 4×. -/
def setRefresh (k rate : Nat) (s : State) : State :=
  let was := get s (hbmStackStat k) HbmStackStat.hot
  let s := upd (hbmStackStat k) HbmStackStat.refresh rate s
  let s := upd (hbmStackStat k) HbmStackStat.hot (b2n (rate == 2)) s
  if rate = 2 ∧ was = 0 then logOpen sevNotice kState bHbm 268 0 k s else s

/-- The refresh rate after a reading: up at once, down one step after 100 ms at or below the lower band's limit. -/
def stepRefresh (k : Nat) (c : Int) (s : State) : State :=
  let cur := get s (hbmStackStat k) HbmStackStat.refresh
  if cur < refreshFor c then setRefresh k (refreshFor c) (setStackCool k none s)
  else if cur = 0 ∨ stepDownAt cur < c then setStackCool k none s
  else match stackCool s k with
    | none => setStackCool k (some s.devtime) s
    | some t =>
      if t + 100 * msTicks ≤ s.devtime then setRefresh k (cur - 1) (setStackCool k none s) else s

/-- Every stack is at or below 95 °C. -/
def stacksCool (s : State) : Bool :=
  (List.range 24).all fun k => decide (signed 8 (get s (hbmStackStat k) HbmStackStat.temp) ≤ 95)

/-- Count a stack's command repeats for parity errors, in units of 256 (R257, R279). -/
def notePar (k n : Nat) (s : State) : State :=
  let p := tget (fun _ => 0) s.hbmState.parityPart k + n
  let s := { s with hbmState := { s.hbmState with parityPart := tset (fun _ => 0) k (p % 256) s.hbmState.parityPart } }
  satAdd (hbmStackStat k) HbmStackStat.parity (p / 256) s

/-- Count error reports of a stack's on-die ECC, in units of 256 (R257, R279). -/
def noteOndie (k n : Nat) (s : State) : State :=
  let p := tget (fun _ => 0) s.hbmState.ondiePart k + n
  let s := { s with hbmState := { s.hbmState with ondiePart := tset (fun _ => 0) k (p % 256) s.hbmState.ondiePart } }
  satAdd (hbmStackStat k) HbmStackStat.ondie (p / 256) s

/-- STACK_TEMP_READ: every 1 ms the temperature sets the refresh rate and HOT, and two readings in a row above 105 °C are a cause
of WINTER (R268, R393); `ondie` and `repeats` are
the error reports of the stack's on-die ECC and its controllers' command repeats since the last reading, other than those of
HBM_CHANNEL_FAIL (R257, R279). -/
def execStackTempRead (k : StackId) (c : Int) (ondie repeats : Nat) (s : State) : Host.Outcome State Fault Refusal :=
  .next (powered (fun s =>
    let hot := decide (105 < c) && decide (105 < signed 8 (get s (hbmStackStat k) HbmStackStat.temp))
    let s := notePar k repeats (noteOndie k ondie s)
    let s := stepRefresh k c (upd (hbmStackStat k) HbmStackStat.temp (unsigned 8 c) s)
    let s := lifeMax (1056 + 24 * k + 22) 1 c.toNat s
    if hot then winterCause 1 s else if stacksCool s then winterClear 1 s else s) s)

/-! ### Scrub and channel failure (R270, R271) -/

/-- HBM_SCRUB: the patrol reads one 256-byte block homed on the slice; it corrects and counts, and refuses nothing.
It runs in SUMMER, AUTUMN and WINTER while SCRUB_HOURS is not 0. `upset` names the bits that have been inverted in cells of HBM
since the last command, wherever they are (R264). -/
def execHbmScrub (n : SliceId) (block : Nat) (upset : List CellError) (s : State) : Host.Outcome State Fault Refusal :=
  .next (powered (fun s =>
    let a := 256 * block
    let s := upset.foldl upsetBurst s
    if devState s ≠ .spring ∧ get s hbmCtrl HbmCtrl.scrubHours ≠ 0 ∧ a < installed s ∧ (home s a).1 = n.val ∧
        sliceState s n ≠ slFailed then (hbmTouch a 256 s).2
    else s) s)

/-- HBM_CHANNEL_FAIL: a pseudo-channel's parity retries, of four repeats each, were exhausted a number of times within
one second; at 16 a slice that serves becomes FAILED with cause CHANNEL (R257, R271). -/
def execHbmChannelFail (n : SliceId) (exhausted : Nat) (s : State) : Host.Outcome State Fault Refusal :=
  .next (powered (fun s =>
    let s := notePar (n / 32) (4 * exhausted) s
    if 16 ≤ exhausted ∧ (sliceState s n = slInService ∨ sliceState s n = slMarked) then
      setSlice n slFailed rcChannel s else s) s)

/-! ### Owner commands (R272, R277) -/

/-- A write of HBM_RETIRE_CMD that fits the slice's state: the register holds it. -/
def setRetireCmd (n op : Nat) (s : State) : State :=
  upd hbmRetireCmd HbmRetireCmd.op op (upd hbmRetireCmd HbmRetireCmd.slice n s)

/-- Whether an UNMARK fits: a MARKED slice with cause CE_LIMIT, HARD_UE or OWNER. -/
def unmarkFits (s : State) (n : Nat) : Bool :=
  sliceState s n == slMarked && ([rcCeLimit, rcHardUe, rcOwner].contains (get s (hbmSlice n) HbmSlice.cause))

/-- A write of HBM_RETIRE_CMD by the owner: a command that does not fit the slice's state discards it (R272, R277). -/
def retireCmdWrite (m : Master) (n op : Nat) (s : State) : State :=
  let refuse := refusedWrite m hbmRetireCmd 32 s
  match op with
  | 0 => setRetireCmd n 0 s
  | 1 => if n < 768 ∧ sliceState s n = slInService then setSlice n slMarked rcOwner (setRetireCmd n 1 s) else refuse
  | 2 => if n < 768 ∧ unmarkFits s n then setSlice n slInService 0 (setRetireCmd n 2 s) else refuse
  | _ =>
    if n < 768 ∧ sliceState s n = slRetired ∧ recordByte s n % 4 ≠ 3 then
      writeRetire [(n, 3 + 4 * get s (hbmSlice n) HbmSlice.cause)] (setRetireCmd n 3 s)
    else refuse

/-- MARK applies only to an IN_SERVICE slice. -/
def execMark (m : Master) (n : Nat) (s : State) : Host.Outcome State Fault Refusal :=
  .next (powered (asOwner m hbmRetireCmd 32 (retireCmdWrite m n 1)) s)

/-- UNMARK returns a MARKED slice to service. -/
def execUnmark (m : Master) (n : Nat) (s : State) : Host.Outcome State Fault Refusal :=
  .next (powered (asOwner m hbmRetireCmd 32 (retireCmdWrite m n 2)) s)

/-- RESTORE requests a SPRING test of a retired slice whose restore is not yet requested; the record holds it. -/
def execRestore (m : Master) (n : Nat) (s : State) : Host.Outcome State Fault Refusal :=
  .next (powered (asOwner m hbmRetireCmd 32 (retireCmdWrite m n 3)) s)

/-! ### The memory test (R274, R275) -/

/-- The test mode in force: TEST_POR after a power-on reset, TEST_DEV after a device reset (R274); the fields hold only
FULL, QUICK or NONE (R276). -/
def testMode (s : State) : Nat :=
  get s hbmCtrl (if s.boot.resetKind = 4 then HbmCtrl.testPor else HbmCtrl.testDev)

/-- What the end of SPRING's test makes of a slice: MARKED and FAILED slices retire; a tested slice that fails retires
with cause TEST; a slice whose restore is requested enters service when it was tested and passed. -/
def testedSlice (s : State) (mode : Nat) (failed : List Nat) (n : Nat) : Nat × Nat :=
  let st := sliceState s n
  let cause := get s (hbmSlice n) HbmSlice.cause
  let restore := st == slRetired && recordByte s n % 4 == 3
  if st = slMarked ∨ st = slFailed then (slRetired, cause)
  else if st = slRetired then
    if restore && mode != 2 then (if failed.contains n then (slRetired, rcTest) else (slInService, 0)) else (st, cause)
  else if mode ≠ 2 ∧ failed.contains n then (slRetired, rcTest)
  else (st, cause)

/-- Apply the test's outcome to a slice, its change entered in the error log. -/
def applyTested (s : State) (e : Nat × (Nat × Nat)) : State :=
  let s := upd (hbmSlice e.1) HbmSlice.state e.2.1 (upd (hbmSlice e.1) HbmSlice.cause e.2.2 s)
  let s := if e.2.1 = slRetired then
      lifeSet (1056 + 24 * (e.1 / 32) + 23) 1 (lifeGet s (1056 + 24 * (e.1 / 32) + 23) 1 + 1) s else s
  logCoded (if e.2.1 = slInService then sevNotice else sevDegrade) kRepair bHbm 272 (10 * e.2.1 + e.2.2) e.2.2 e.1 s

/-- HBM_MEMORY_TEST_DONE: the record is written, slices retire or return, k, T and the hash are recomputed, and every
engine clears its installed blocks to zero with valid check symbols (R272, R274, R275, R278). Host ranges that would
reach the new RB are for SPRING_STEP. A requested restore is for this test alone: the record of a slice that fails again
holds it no longer. -/
def execHbmMemoryTestDone (failed : List SliceId) (pprRows ms : Nat) (s : State) : Host.Outcome State Fault Refusal :=
  .next (powered (fun s =>
    if devState s != .spring || (!s.boot.steps.contains 10 || s.boot.steps.contains 11) then s
    else
      let mode := testMode s
      let bad := failed.map (·.val)
      let now := (List.range 768).map fun n => (n, testedSlice s mode bad n)
      let changed := now.filter fun e => e.2.1 != sliceState s e.1 || e.2.2 != get s (hbmSlice e.1) HbmSlice.cause
      let written := now.filter fun e => changed.contains e || (mode != 2 && recordByte s e.1 % 4 == 3)
      let s := if written.isEmpty then s
        else writeRetire (written.map fun e => (e.1, recordedState e.2.1 + 4 * e.2.2)) s
      let k := (now.filter fun e => e.2.1 == slRetired).length
      let newly := (changed.filter fun e => e.2.1 == slRetired && e.2.2 == rcTest).length
      let s := countSlices (changed.foldl applyTested s)
      let s := upd hbmMapStat HbmMapStat.retired k s
      let s := upd hbmMapStat HbmMapStat.hostTop (reservedBase s / 4096) s
      let s := upd hbmTestStat HbmTestStat.mode mode (upd hbmTestStat HbmTestStat.retiredNow newly s)
      let s := upd hbmTestStat HbmTestStat.pprRows pprRows (upd hbmTestStat HbmTestStat.duration ms s)
      { s with hbm := [], hbmState := { s.hbmState with errs := [], ceBlocks := [] }
               boot := { s.boot with steps := s.boot.steps ++ [11] } }) s)

end Sys2Proof.Machine
end

