-- ==== Sys2Proof/Machine/Fec.lean ====
section
/-! DEFINITION. The line of a chip link: RS(544,514) codewords in pairs, their symbols on four lanes, alignment pairs, and what a
receiver finds from one (R284, R285, R289). -/

namespace Sys2Proof.Machine

open Sys2Proof

/-! ### Frames as bytes (R289) -/

/-- Codes of the frame types. -/
def ftCode : FrameType → Nat
  | .seq => 0
  | .null => 1
  | .init => 2
  | .reserved => 3

/-- The header of a frame. -/
def frameHeader (f : Frame) : Nat :=
  f.seq % 2 ^ 16 + f.ack % 2 ^ 16 * 2 ^ 16 + f.ccred % 2 ^ 20 * 2 ^ 32 + f.dcred % 2 ^ 20 * 2 ^ 52 + ftCode f.ftype * 2 ^ 72 +
    b2n f.nak * 2 ^ 74 + b2n f.fence * 2 ^ 75 + f.epoch % 2 ^ 8 * 2 ^ 76

/-- The 512 bytes of a frame: header, body, and the CRC-32 over both. -/
def frameBytes (f : Frame) : List Byte :=
  let bs := toBytes 24 (frameHeader f) ++ (f.body ++ List.replicate 484 0).take 484
  bs ++ toBytes 4 (crc32 bs)

/-! ### Codewords (R284) -/

/-- The field of the link code, GF(2^10) with the polynomial x^10 + x^3 + 1 of IEEE 802.3. PRESUMED from that standard, which R284
names for the code. -/
def fecGF : Galois := { width := 10, poly := 0x409 }

/-- A codeword of 514 data symbols: they and 30 check symbols. -/
def linkCodeword (ds : List Nat) : List Nat := ds ++ rsChecks fecGF 30 ds

/-- Bytes of the payload of a pair of codewords: 2 × 514 symbols of 10 bits. -/
def pairBytes : Nat := 1285

/-- The 10-bit symbols of a pair's payload, in the order in which they are sent. -/
def pairSymbols (bs : List Byte) : List Nat :=
  let v := fromBytes bs
  (List.range 1028).map fun i => bits v (10 * i) 10

/-- Every second element of a list, from the first. -/
def evens : List Nat → List Nat
  | a :: _ :: r => a :: evens r
  | l => l

/-- Two words interleaved by symbols: A0, B0, A1, B1, … -/
def interleave : List Nat → List Nat → List Nat
  | a :: x, b :: y => a :: b :: interleave x y
  | _, _ => []

/-- The symbols of a pair on the line. The payload's bit stream runs through the data symbols in the order in which they are sent:
DESIGN CHOICE. -/
def pairLine (bs : List Byte) : List Nat :=
  let ss := pairSymbols bs
  interleave (linkCodeword (evens ss)) (linkCodeword (evens (ss.drop 1)))

/-- Symbol n is sent on lane n mod 4. -/
def laneShare (k : Nat) (ss : List Nat) : List Nat := (ss.zipIdx.filter fun e => e.2 % 4 == k).map (·.1)

/-- The marker that begins an alignment pair on each lane. -/
def alignMarker : Nat := 0x5AC3963CE1

/-- A lane's part of an alignment pair: the marker, the lane number, and zeros. -/
def alignLane (k : Nat) : List Nat :=
  (List.range 4).map (fun i => bits alignMarker (10 * i) 10) ++ k :: List.replicate 267 0

/-! ### The sender -/

/-- Data pairs between two alignment pairs. -/
def pairsPerAlign : Nat := 16383

/-- Put symbols on the lanes. -/
def addLanes (x : LinkRun) (lanes : List (List Nat)) : LinkRun :=
  { x with line := (List.range 4).map fun k => (x.line[k]?).getD [] ++ (lanes[k]?).getD [] }

/-- Send the pairs that the frames put on the line have completed, with an alignment pair after every 16,383 of them. -/
def sendPairs : Nat → LinkRun → LinkRun
  | 0, x => x
  | n + 1, x =>
    if 512 * x.txFrames.length < x.txSent + pairBytes then x
    else
      let bs := ((x.txFrames.take 4).flatMap frameBytes).drop x.txSent
      let ss := pairLine (bs.take pairBytes)
      let sent := x.txSent + pairBytes
      let y := addLanes { x with txFrames := x.txFrames.drop (sent / 512), txSent := sent % 512, txPairs := x.txPairs + 1 }
        ((List.range 4).map fun k => laneShare k ss)
      let y := if y.txPairs = pairsPerAlign then addLanes { y with txPairs := 0 } ((List.range 4).map alignLane) else y
      sendPairs n y

/-- Put frames on the line: its lanes carry the pairs that they complete. -/
def emitFrames (fs : List Frame) (x : LinkRun) : LinkRun :=
  sendPairs fs.length { x with out := fs, txFrames := x.txFrames ++ fs, line := [] }

/-! ### The receiver (R285) -/

/-- The first 50 bits of a lane in an alignment pair: the lane's number and whether it is inverted. -/
def laneFound (w : Nat) : Option (Nat × Bool) :=
  let v := w ^^^ (2 ^ 50 - 1)
  if w % 2 ^ 40 = alignMarker then some (bits w 40 10, false)
  else if v % 2 ^ 40 = alignMarker then some (bits v 40 10, true)
  else none

/-- What a receiver finds from the first 50 bits of each of its lanes: whether the lanes are reversed, and which are inverted;
`none` while the four do not match one alignment pair. -/
def alignFound (ws : List Nat) : Option (Bool × Nat) :=
  let ls := ws.filterMap laneFound
  let pol := ls.zipIdx.foldl (fun m e => if e.1.2 then m + 2 ^ e.2 else m) 0
  if ls.length ≠ 4 ∨ ws.length ≠ 4 then none
  else if ls.map (·.1) = [0, 1, 2, 3] then some (false, pol)
  else if ls.map (·.1) = [3, 2, 1, 0] then some (true, pol)
  else none

/-- Symbol errors that a codeword corrects. -/
def fecLimit : Nat := 15

end Sys2Proof.Machine
end

