-- ==== Sys2Proof/Machine/Operands.lean ====
section
/-! DEFINITION. Operand encodings, exact values, rounding to nearest even, the anchored grid and the prefix code
(R43–R72). -/

namespace Sys2Proof.Machine

open Sys2Proof

/-! ### Values -/

/-- What an encoding stands for: a NaN, an infinity, or ± m × 2^e. -/
inductive Num where
  | nan
  | inf (neg : Bool)
  | fin (neg : Bool) (m : Nat) (e : Int)
  deriving DecidableEq, Repr

/-- How the top exponent of a format is used: for infinities and NaNs, for one NaN only, or for numbers alone (R43). -/
inductive FpTop where
  | ieee | e4m3 | none
  deriving DecidableEq, Repr

/-- A floating-point format (R43). -/
structure FpFmt where
  eb : Nat
  mb : Nat
  bias : Int
  top : FpTop
  deriving DecidableEq, Repr

def fE4M3 : FpFmt := ⟨4, 3, 7, .e4m3⟩
def fE5M2 : FpFmt := ⟨5, 2, 15, .ieee⟩
def fE3M2 : FpFmt := ⟨3, 2, 3, .none⟩
def fE2M3 : FpFmt := ⟨2, 3, 1, .none⟩
def fE2M1 : FpFmt := ⟨2, 1, 1, .none⟩
def fBf16 : FpFmt := ⟨8, 7, 127, .ieee⟩
def fFp16 : FpFmt := ⟨5, 10, 15, .ieee⟩
def fFp32 : FpFmt := ⟨8, 23, 127, .ieee⟩

/-- The magnitude code of a format's largest finite value. -/
def FpFmt.maxCode (f : FpFmt) : Nat :=
  match f.top with
  | .ieee => (2 ^ f.eb - 1) * 2 ^ f.mb - 1
  | .e4m3 => 2 ^ (f.eb + f.mb) - 2
  | .none => 2 ^ (f.eb + f.mb) - 1

/-- The magnitude code of infinity, for formats that have one. -/
def FpFmt.infCode (f : FpFmt) : Nat := (2 ^ f.eb - 1) * 2 ^ f.mb

/-- The canonical NaN of a format (R61). -/
def FpFmt.nanCode (f : FpFmt) : Nat :=
  match f.top with
  | .ieee => if f.eb = 5 ∧ f.mb = 2 then 0x7F else (2 ^ f.eb - 1) * 2 ^ f.mb + 2 ^ (f.mb - 1)
  | _ => 2 ^ (f.eb + f.mb) - 1

/-- The sign bit of a format. -/
def FpFmt.signBit (f : FpFmt) : Nat := 2 ^ (f.eb + f.mb)

/-- A code with its sign. -/
def FpFmt.signed (f : FpFmt) (neg : Bool) (mag : Nat) : Nat := mag + (if neg then f.signBit else 0)

/-- The value of an encoding (R43, R44). -/
def decodeFp (f : FpFmt) (v : Nat) : Num :=
  let neg := bit1 v (f.eb + f.mb)
  let ex := bits v f.mb f.eb
  let m := bits v 0 f.mb
  if f.top = .ieee ∧ ex = 2 ^ f.eb - 1 then (if m = 0 then .inf neg else .nan)
  else if f.top = .e4m3 ∧ v % f.signBit = 2 ^ (f.eb + f.mb) - 1 then .nan
  else if ex = 0 then .fin neg m (1 - f.bias - f.mb)
  else .fin neg (m + 2 ^ f.mb) ((ex : Int) - f.bias - f.mb)

/-! ### Rounding (R60, R73) -/

/-- m ÷ 2^k rounded to nearest, ties to even. -/
def rneShift (m k : Nat) : Nat :=
  let n := m >>> k
  let r := m % 2 ^ k
  if k = 0 then m
  else if 2 ^ (k - 1) < r ∨ (r = 2 ^ (k - 1) ∧ n % 2 = 1) then n + 1 else n

/-- m × 2^e in units of 2^q, rounded to nearest, ties to even. -/
def inUnits (m : Nat) (e q : Int) : Nat :=
  if q ≤ e then m * 2 ^ (e - q).toNat else rneShift m (q - e).toNat

/-- The magnitude code of m × 2^e rounded to a format, exceeding `maxCode` on overflow. -/
def roundFp (f : FpFmt) (m : Nat) (e : Int) : Nat :=
  if m = 0 then 0
  else
    let q := max ((Nat.log2 m : Int) + e) (1 - f.bias) - f.mb
    let n := inUnits m e q
    if n < 2 ^ f.mb then n else (q + f.mb + f.bias).toNat * 2 ^ f.mb + (n - 2 ^ f.mb)

/-- A value in a format that overflows to infinity (R61, R73). -/
def encodeInf (f : FpFmt) : Num → Nat
  | .nan => f.nanCode
  | .inf neg => f.signed neg f.infCode
  | .fin neg m e =>
    let c := roundFp f m e
    f.signed neg (if f.maxCode < c then f.infCode else c)

/-- A value in a format that saturates, and whether it saturated (R61, R63). An infinity counts as beyond the largest
value. -/
def encodeSat (f : FpFmt) : Num → Nat × Bool
  | .nan => (f.nanCode, false)
  | .inf neg => (f.signed neg f.maxCode, true)
  | .fin neg m e =>
    let c := roundFp f m e
    if f.maxCode < c then (f.signed neg f.maxCode, true) else (f.signed neg c, false)

/-- A value as an integer clamped to `w` bits of two's complement, and whether it saturated (R61). -/
def encodeInt (w : Nat) : Num → Nat × Bool
  | .nan => (2 ^ (w - 1), false)
  | .inf neg => (if neg then 2 ^ (w - 1) else 2 ^ (w - 1) - 1, true)
  | .fin neg m e =>
    let n := inUnits m e 0
    if neg then (if 2 ^ (w - 1) < n then (2 ^ (w - 1), true) else (unsigned w (-(n : Int)), false))
    else if 2 ^ (w - 1) ≤ n then (2 ^ (w - 1) - 1, true) else (n, false)

/-- An integer as a value. -/
def ofInt (x : Int) : Num := .fin (decide (x < 0)) x.natAbs 0

/-! ### Element formats of the arrays (R45–R49) -/

/-- Bits of an element by format code (R89). -/
def elemBits (c : Nat) : Nat :=
  if c = 4 ∨ c = 5 then 6 else if c = 6 ∨ c = 9 then 4 else if c = 0xA then 2
  else if c = 0xB ∨ c = 0xC then 16 else if c = 0xD then 32 else 8

/-- Element `i` of packed bytes read as a little-endian number (R46). -/
def elemCode (c packed i : Nat) : Nat := bits packed (elemBits c * i) (elemBits c)

/-- The value of an element code; ternary 0b10 reads as 0 (R45). -/
def elemNum (c v : Nat) : Num :=
  if c = 0 ∨ c = 2 then decodeFp fE4M3 v
  else if c = 1 ∨ c = 3 then decodeFp fE5M2 v
  else if c = 4 then decodeFp fE3M2 v
  else if c = 5 then decodeFp fE2M3 v
  else if c = 6 then decodeFp fE2M1 v
  else if c = 7 then (match ofInt (Sys2Proof.Machine.signed 8 v) with
    | .fin n m _ => .fin n m (-6)
    | x => x)
  else if c = 8 then ofInt (Sys2Proof.Machine.signed 8 v)
  else if c = 9 then ofInt (Sys2Proof.Machine.signed 4 v)
  else if c = 0xA then ofInt (if v = 1 then 1 else if v = 3 then -1 else 0)
  else if c = 0xB then decodeFp fBf16 v
  else if c = 0xC then decodeFp fFp16 v
  else decodeFp fFp32 v

/-- Whether a format carries scale bytes (R47), and whether its anchors are scanned (R50). -/
def isMx (c : Nat) : Bool := decide (2 ≤ c) && decide (c ≤ 7)
def isScanned (c : Nat) : Bool := isMx c || (c == 0xB || c == 0xC)

/-- The top exponent t of R49. -/
def topExp (c : Nat) : Int :=
  if c = 0 ∨ c = 2 then 9 else if c = 1 ∨ c = 3 then 16 else if c = 4 then 5 else if c = 5 then 3 else if c = 6 then 3
  else if c = 7 then 2 else if c = 8 then 8 else if c = 9 then 4 else 1

/-- The scale exponent of an element that R50 admits: no NaN, no infinity, no element of a NaN block; zeros are admitted. -/
def scaleExp (c v scale : Nat) : Option Int :=
  match elemNum c v with
  | .fin _ _ _ =>
    if isMx c then (if scale = 0xFF then none else some ((scale : Int) - 127))
    else if c = 0xB then some (max 1 (bits v 7 8) - 127)
    else if c = 0xC then some (max 1 (bits v 10 5) - 15)
    else some 0
  | _ => none

/-- The pre-scan's anchor of a vector: t_a and the greatest admitted scale exponent, 0 when none is admitted (R50, R51). -/
def scanAnchor (c : Nat) (ss : List (Option Int)) : Int :=
  topExp c + (match ss.filterMap id with
    | [] => 0
    | a :: r => r.foldl max a)

/-- A scaled element: NaR when its block is a NaN block or the element is no finite number, else ± m × 2^e (R47, R58). -/
def scaledElem (c v scale : Nat) : Option (Int × Int) :=
  if isMx c ∧ scale = 0xFF then none
  else match elemNum c v with
    | .fin neg m e =>
      let k : Int := if isMx c then (scale : Int) - 127 else 0
      some (if neg then -(m : Int) else (m : Int), e + k)
    | _ => none

/-! ### The grid and LA96 (R50, R53, R56–R58) -/

/-- An LA96 value: NaR, or the count of grid units. -/
abbrev La96 := Option Int

/-- floor(x × y / 2^G). -/
def gridProduct (x y : Int × Int) (g : Int) : Int :=
  let k := x.2 + y.2 - g
  let p := x.1 * y.1
  if 0 ≤ k then p * ((2 ^ k.toNat : Nat) : Int) else p / ((2 ^ (-k).toNat : Nat) : Int)

/-- The sum of a column: floored products added exactly; NaR when any product is. -/
def columnSum (g : Int) : List (Option (Int × Int) × Option (Int × Int)) → La96
  | [] => some 0
  | (some x, some y) :: r => (columnSum g r).map (· + gridProduct x y g)
  | _ :: _ => none

/-- Addition of LA96 values (R58). -/
def laAdd : La96 → La96 → La96
  | some x, some y => some (x + y)
  | _, _ => none

/-- The 12 bytes of an LA96 value, and the value of 12 bytes (R57). -/
def laBytes : La96 → List Byte
  | none => toBytes 12 (2 ^ 95)
  | some x => toBytes 12 (unsigned 96 x)
def laOf (n : Nat) : La96 := if n % 2 ^ 96 = 2 ^ 95 then none else some (signed 96 n)

/-- S′ × 2^k of an LA96 value on a grid (R60). -/
def laNum (x : La96) (g k : Int) : Num :=
  match x with
  | none => .nan
  | some v => .fin (decide (v < 0)) v.natAbs (g + k)

/-- Bits of an output by format code (R89, R90). -/
def outBits (c : Nat) : Nat := if c = 9 then 4 else if c = 0xB ∨ c = 0xC then 16 else if c = 0xD then 32 else 8

/-- The final conversion to a format: the code, and whether it saturated (R60, R61). Codes 2 to 7 and 0xA name formats to
which R61 gives no conversion, and R91 admits them: what they produce is open, a free value of 8 bits (DESIGN CHOICE). -/
def finalCode (c : Nat) (x : Num) : Nat × Bool :=
  if (2 ≤ c ∧ c ≤ 7) ∨ c = 0xA then ((Config.spOpen 128 c (encodeInf fFp32 x) 0 0).toNat % 256, false)
  else if c = 0 then encodeSat fE4M3 x
  else if c = 1 then encodeSat fE5M2 x
  else if c = 8 then encodeInt 8 x
  else if c = 9 then encodeInt 4 x
  else if c = 0xB then (encodeInf fBf16 x, false)
  else if c = 0xC then (encodeInf fFp16 x, false)
  else (encodeInf fFp32 x, false)

/-- Pack codes of `w` bits, first element lowest (R46). -/
def packCodes (w : Nat) : List Nat → Nat
  | [] => 0
  | a :: r => a % 2 ^ w + 2 ^ w * packCodes w r

/-! ### Activation narrowing (R63) -/

/-- The stream's format on a narrowed channel. -/
def narrowFmt (bf16 : Bool) : FpFmt := if bf16 then fBf16 else fFp16

/-- Narrow one value: the E4M3 byte, whether it counts as a saturation and as a flush. -/
def narrow1 (bf16 : Bool) (v : Nat) : Nat × Bool × Bool :=
  let f := narrowFmt bf16
  match decodeFp f v with
  | .nan => (fE4M3.signed (bit1 v 15) 0x7F, false, false)
  | .inf neg => (fE4M3.signed neg 0x7E, true, false)
  | .fin neg m e =>
    let r := encodeSat fE4M3 (.fin neg m e)
    (r.1, r.2, decide (m ≠ 0) && (r.1 % 128 == 0))

/-- Widen one E4M3 byte. -/
def widen1 (bf16 : Bool) (b : Nat) : Nat :=
  let f := narrowFmt bf16
  if b % 128 = 0x7F then f.signed (bit1 b 7) f.nanCode else encodeInf f (decodeFp fE4M3 b)

/-- 2-byte elements of a payload. -/
def halves : List Byte → List Nat
  | a :: b :: r => (a.toNat + 256 * b.toNat) :: halves r
  | _ => []

/-- Narrow and widen a payload. -/
def narrowAll (bf16 : Bool) (bs : List Byte) : List (Nat × Bool × Bool) := (halves bs).map (narrow1 bf16)
def widenAll (bf16 : Bool) (bs : List Byte) : List Byte := bs.flatMap fun b => toBytes 2 (widen1 bf16 b.toNat)

/-! ### Microscaling blocks (R62) -/

/-- Format code of an MX element type, and its emax. -/
def mxCode : MxElem → Nat
  | .e4m3 => 2
  | .e5m2 => 3
  | .e3m2 => 4
  | .e2m3 => 5
  | .e2m1 => 6
  | .int8 => 7
def mxEmax : MxElem → Int
  | .e4m3 => 8
  | .e5m2 => 15
  | .e3m2 => 4
  | .e2m3 => 2
  | .e2m1 => 2
  | .int8 => 0

/-- The floating-point format of an element type other than INT8. -/
def mxFmt : MxElem → FpFmt
  | .e4m3 => fE4M3
  | .e5m2 => fE5M2
  | .e3m2 => fE3M2
  | .e2m3 => fE2M3
  | _ => fE2M1

/-- floor(log2 |v|) of a nonzero finite value. -/
def floorLog (m : Nat) (e : Int) : Int := (Nat.log2 m : Int) + e

/-- The scale byte of a block of values. -/
def mxScale (el : MxElem) (vs : List Num) : Nat :=
  if vs.any fun v => match v with
    | .fin _ _ _ => false
    | _ => true
  then 0xFF
  else
    let ls := vs.filterMap fun v => match v with
      | .fin _ m e => if m = 0 then none else some (floorLog m e)
      | _ => none
    match ls with
    | [] => 0
    | a :: r =>
      let u := r.foldl max a - mxEmax el + 127
      (min 254 (max 0 u)).toNat

/-- One element of a block under a scale byte, and whether it saturated. -/
def mxElement (el : MxElem) (u : Nat) (v : Num) : Nat × Bool :=
  match v with
  | .fin neg m e =>
    if u = 0xFF then (0, false)
    else
      let e' := e - ((u : Int) - 127)
      if el = .int8 then encodeInt 8 (.fin neg m (e' + 6)) else encodeSat (mxFmt el) (.fin neg m e')
  | _ => (0, false)

/-! ### The prefix code of weights (R65–R72) -/

/-- Fields of a symbol entry (R66). -/
def symValue (e : Nat) : Nat := bits e 0 8
def symKind (e : Nat) : Nat := bits e 10 2
def symLen (e : Nat) : Nat := bits e 12 4

/-- Canonical codes: for each entry with a code, its length, code and entry (R68). -/
def codesOfLen (table : List Nat) (len code : Nat) : List (Nat × Nat × Nat) × Nat :=
  table.foldl (fun a e => if symLen e = len then (a.1 ++ [(len, a.2, e)], a.2 + 1) else a) ([], code)

/-- The codes of every length from `len` on. -/
def codesFrom (table : List Nat) : Nat → Nat → Nat → List (Nat × Nat × Nat)
  | 0, _, _ => []
  | n + 1, len, code =>
    let a := codesOfLen table len code
    a.1 ++ codesFrom table n (len + 1) (a.2 * 2)

/-- The code book of a symbol table. -/
def codeBook (table : List Nat) : List (Nat × Nat × Nat) := codesFrom table 15 1 0

/-- Fields of a symbol table's header (R66). -/
def tableN (bs : List Byte) : Nat := bits (fromBytes (bs.take 4)) 0 9
def tableLmax (bs : List Byte) : Nat := bits (fromBytes (bs.take 4)) 16 4

/-- The entries of a symbol table: N little-endian words of 16 bits after its header (R66). -/
def tableEntries (bs : List Byte) : List Nat :=
  (List.range (tableN bs)).map fun i => fromBytes ((bs.drop (4 + 2 * i)).take 2)

/-- Whether a symbol table's entries are ones that season load accepts (R67). -/
def entriesOk (table : List Nat) (lmax : Nat) : Bool :=
  let coded := table.filter fun e => symLen e != 0
  let lits := (table.filter fun e => symKind e == 0).map symValue
  decide ((table.filter fun e => symKind e == 2).length ≤ 1) && (decide lits.Nodup &&
    (table.all (fun e => symKind e != 3 && (symKind e != 1 || (decide (1 ≤ symValue e) && decide (symValue e ≤ 63)))) &&
      (lmax == maxOr0 (table.map symLen) && (!coded.isEmpty &&
        decide ((coded.map fun e => 2 ^ (15 - symLen e)).foldl (· + ·) 0 ≤ 2 ^ 15)))))

/-- Whether a symbol table is one that season load accepts (R66, R67). -/
def tableOk (bs : List Byte) : Bool := entriesOk (tableEntries bs) (tableLmax bs)

/-- The bits of bytes, bit 7 of each byte first (R69). -/
def bitStream (bs : List Byte) : List Bool := bs.flatMap fun b => (List.range 8).map fun i => b.getLsbD (7 - i)

/-- A number from bits, most significant first. -/
def bitsNat (l : List Bool) : Nat := l.foldl (fun a b => 2 * a + b2n b) 0

/-- The entry whose code starts a bit stream. -/
def matchCode (book : List (Nat × Nat × Nat)) (bs : List Bool) : Option (Nat × Nat × Nat) :=
  book.find? fun c => decide (c.1 ≤ bs.length) && bitsNat (bs.take c.1) == c.2.1

/-- Decode a lane's bytes from its bits, counting the bits taken; `none` on a code that is not assigned or a zero run that
passes row 63 (R71, R72). -/
def decodeBits (book : List (Nat × Nat × Nat)) : Nat → List Bool → Nat → Option (List Byte × Nat)
  | 0, _, _ => none
  | n + 1, bs, left =>
    if left = 0 then some ([], 0)
    else match matchCode book bs with
      | none => none
      | some c =>
        let rest := bs.drop c.1
        let k := symKind c.2.2
        let val := symValue c.2.2
        let out : List Byte := if k = 0 then [BitVec.ofNat 8 val]
          else if k = 1 then List.replicate (val + 1) 0
          else [BitVec.ofNat 8 (bitsNat (rest.take 8))]
        let used := c.1 + (if k = 2 then 8 else 0)
        if left < out.length ∨ bs.length < used then none
        else (decodeBits book n (bs.drop used) (left - out.length)).map fun r => (out ++ r.1, used + r.2)

/-- Decode one lane of a given length in bits. -/
def decodeLane (book : List (Nat × Nat × Nat)) (bs : List Byte) (len : Nat) : Option (List Byte) :=
  if len = 0 then some (bs.take 64)
  else match decodeBits book 65 (bitStream bs) 64 with
    | none => none
    | some (out, used) => if used = len then some out else none

/-- Lanes of a coded block: one per byte of a row (R69). -/
def laneCount (c : Nat) : Nat := 64 * elemBits c / 8

/-- Bytes that a lane of `len` bits takes. -/
def laneBytes (len : Nat) : Nat := if len = 0 then 64 else (len + 7) / 8

/-- Bytes of the lane length header of a coded block, and the lengths it states (R70). -/
def headBytes (c : Nat) : Nat := laneCount c * 12 / 8
def laneLens (c : Nat) (head : List Byte) : List Nat :=
  (List.range (laneCount c)).map fun j => bits (fromBytes head) (12 * j) 12

/-- Decode the lanes of a block one after another. -/
def decodeLanes (book : List (Nat × Nat × Nat)) : List Nat → List Byte → Option (List (List Byte) × List Byte)
  | [], bs => some ([], bs)
  | len :: r, bs =>
    match decodeLane book (bs.take (laneBytes len)) len, decodeLanes book r (bs.drop (laneBytes len)) with
    | some x, some y => some (x :: y.1, y.2)
    | _, _ => none

/-- The decoded rows of a coded block from its lane length header and the bytes behind it, and the bytes that follow its
lanes; `none` on a decode fault (R70–R72). -/
def decodeBlock (table : List Nat) (c : Nat) (head bs : List Byte) : Option (List (List Byte) × List Byte) :=
  match decodeLanes (codeBook table) (laneLens c head) bs with
  | none => none
  | some (lanes, rest) => some ((List.range 64).map fun r => lanes.map fun l => l.getD r 0, rest)

end Sys2Proof.Machine
end

