-- ==== Sys2Proof/Machine/LinkCmd.lean ====
section
/-! DEFINITION. Commands of the chip-to-chip links: training and handshake, frames out and in, acknowledgement and
replay, causes of DOWN, and the link registers that are written (R281–R307, R542). -/

namespace Sys2Proof.Machine

open Sys2Proof

/-! ### Bring-up (R286–R288) -/

/-- The supply of the link domain is in regulation (R376). -/
def linkPowered (s : State) : Bool := s.power.up.contains Supply.linkAndHost

/-- A port that may train enters TRAIN; one that may not stays DISABLED (R286). -/
def tryTrain (n : Nat) (s : State) : State :=
  if mustDisable s n then setLinkSt n lsDisabled s
  else if linkPowered s then enterTrain n s
  else setLinkSt n lsDown s

/-- Whether a span of ticks has passed since the port entered its state. -/
def stateOver (n ticks : Nat) (s : State) : Bool := decide ((link s n).since + ticks ≤ s.devtime)

/-- LINK_TRAIN_DONE (R286). -/
def execLinkTrainDone (n : LinkId) (s : State) : Host.Outcome State Fault Refusal :=
  .next (powered (fun s => if linkSt s n = lsTrain then setLinkSt n lsAlign s else s) s)

/-- LINK_TRAIN_TIMEOUT: training not done within 500 ms (R286). -/
def execLinkTrainTimeout (n : LinkId) (s : State) : Host.Outcome State Fault Refusal :=
  .next (powered (fun s =>
    if linkSt s n = lsTrain ∧ stateOver n (500 * msTicks) s then linkDown n ldTrainFail s else s) s)

/-- LINK_ALIGN_DONE: each lane has received the first 50 bits of an alignment pair; the lane order and polarity found are corrected
and reported, and the handshake begins (R285, R286). -/
def execLinkAlignDone (n : LinkId) (words : List Nat) (s : State) : Host.Outcome State Fault Refusal :=
  .next (powered (fun s =>
    match alignFound words with
    | some (reversed, polarity) =>
      if linkSt s n = lsAlign then
        let s := upd (lnkStat n) LnkStat.polarity polarity (upd (lnkStat n) LnkStat.laneRev (b2n reversed) s)
        enterInit n (updLink n (fun x => { x with aligned := true }) s)
      else s
    | none => s) s)

/-- LINK_ALIGN_FAIL: no alignment within 1 ms (R285). -/
def execLinkAlignFail (n : LinkId) (s : State) : Host.Outcome State Fault Refusal :=
  .next (powered (fun s =>
    if linkSt s n = lsAlign ∧ stateOver n msTicks s then linkDown n ldAlignFail s else s) s)

/-- The body of an INIT frame (R288). -/
def initBody (s : State) (n : Nat) : List Byte :=
  toBytes 12 (ownFdn s + n * 2 ^ 16 + b2n (link s n).seen * 2 ^ 23 + 1 * 2 ^ 24 + 1024 * 2 ^ 32 + 32768 * 2 ^ 52) ++
    List.replicate 472 0

/-- The header of a frame that the port sends now, with a body (R289, R292). -/
def frameNow (s : State) (n seq : Nat) (ft : FrameType) (body : List Byte) : Frame where
  seq := seq
  ack := (link s n).ack
  ccred := (link s n).ctlRet
  dcred := (link s n).dataRet
  ftype := ft
  nak := (link s n).nakDue
  fence := linkSt s n == lsFenced
  epoch := get s (lnkStat n) LnkStat.epoch
  body := body

/-- Put frames on the line. -/
def linkEmit (n : Nat) (fs : List Frame) (s : State) : State := updLink n (emitFrames fs) s

/-- Entry to UP, or to FENCED under a local fence (R287, R297). -/
def linkUpEnter (n : Nat) (s : State) : State :=
  let x := link s n
  let s := updLink n (fun x => { x with
    seq := 0, ack := 0xFFFF, replay := [], replays := 0, ctlHeld := x.ctlGrant, dataHeld := x.dataGrant
    ctlOut := 0, dataOut := 0, ctlSeen := 0, dataSeen := 0, ctlRet := 0, dataRet := 0, lastValid := s.devtime }) s
  setLinkSt n (if x.fence then lsFenced else lsUp) s

/-- Both conditions of R287 for UP. -/
def tryUp (n : Nat) (s : State) : State :=
  if (link s n).sentSeen && (link s n).gotSeen then linkUpEnter n s else s

/-- INIT_FRAME_SEND: in INIT, one INIT frame every 1 µs (R287). -/
def execInitFrameSend (n : LinkId) (s : State) : Host.Outcome State Fault Refusal :=
  .next (powered (fun s =>
    let x := link s n
    let due := match x.initAt with
      | none => true
      | some t => decide (t + usTicks ≤ s.devtime)
    if linkSt s n == lsInit && due then
      let s := linkEmit n [frameNow s n 0 .init (initBody s n)] s
      tryUp n (updLink n (fun x => { x with initAt := some s.devtime, sentSeen := x.sentSeen || x.seen }) s)
    else s) s)

/-- INIT_FRAME_RECEIVE: a step of the handshake, or the partner's restart (R287, R288, R292). -/
def execInitFrameReceive (n : LinkId) (f : Frame) (s : State) : Host.Outcome State Fault Refusal :=
  .next (powered (fun s =>
    if f.ftype != .init || !(linkSt s n == lsInit || linkRuns s n) then s
    else
      let b := fromBytes (f.body.take 12)
      let s := upd (lnkStat n) LnkStat.nbrLink (bits b 16 7) (upd (lnkStat n) LnkStat.nbrFdn (bits b 0 16) s)
      if linkRuns s n then linkDown n ldPeerRestart s
      else if bits b 0 16 = ownFdn s then linkDown n ldFdnClash s
      else if bits b 24 8 ≠ 1 then linkDown n ldInitTimeout s
      else tryUp n (updLink n (fun x => { x with
        seen := true, gotSeen := x.gotSeen || bit1 b 23, peerEpoch := f.epoch
        ctlGrant := bits b 32 20, dataGrant := bits b 52 20 }) s)) s)

/-- LINK_INIT_TIMEOUT: the handshake is not done within 100 µs (R286). -/
def execLinkInitTimeout (n : LinkId) (s : State) : Host.Outcome State Fault Refusal :=
  .next (powered (fun s =>
    if linkSt s n = lsInit ∧ stateOver n (100 * usTicks) s then linkDown n ldInitTimeout s else s) s)

/-- LINK_RETRY: after RETRY_MS in DOWN the port retrains; a RETRY_MS of 0 acts as 1 (R286, R287, R305). -/
def execLinkRetry (n : LinkId) (s : State) : Host.Outcome State Fault Refusal :=
  .next (powered (fun s =>
    if linkSt s n = lsDown ∧ stateOver n (max 1 (get s (lnkCtrl n) LnkCtrl.retryMs) * msTicks) s then tryTrain n s else s) s)

/-! ### Sending (R289–R291, R293, R295, R301) -/

/-- The link header of a packet (R290). -/
def linkHeader (p : Packet) (narrowed : Bool) : Nat :=
  p.src % 2 ^ 12 + p.dst % 2 ^ 12 * 2 ^ 12 + b2n p.data * 2 ^ 24 + p.opc % 2 ^ 7 * 2 ^ 25 + p.len % 2 ^ 6 * 2 ^ 32 +
    p.txid % 2 ^ 12 * 2 ^ 40 + p.srcFdn % 2 ^ 16 * 2 ^ 52 + p.dstFdn % 2 ^ 16 * 2 ^ 68 + b2n narrowed * 2 ^ 84 +
    (p.hops + 1) % 8 * 2 ^ 85 + (if p.data then p.ext % 2 ^ 40 else 0) * 2 ^ 88

/-- A packet as a link packet: its bytes, and its state with the narrowing of its payload counted (R290, R301). -/
def linkPacket (n : Nat) (p : Packet) (s : State) : List Byte × State :=
  match narrowEntry s p with
  | some fmt =>
    let r := narrowAll fmt (fitBytes (64 * p.len) p.payload)
    let s := satAdd (lnkNarrowStat n) LnkNarrowStat.sat (r.filter (·.2.1)).length s
    let s := satAdd (lnkNarrowStat n) LnkNarrowStat.flush (r.filter (·.2.2)).length s
    (toBytes 16 (linkHeader p true) ++ r.map fun x => BitVec.ofNat 8 x.1, s)
  | none => (toBytes 16 (linkHeader p false) ++ fitBytes (linkPayload p.data false p.len) p.payload, s)

/-- The class from which the next packet is taken: control when it has a packet with credit, else data (R291). -/
def nextClass (s : State) (n : Nat) : Option Bool :=
  let x := link s n
  if !x.ctl.isEmpty && !creditShort s x.ctl x.ctlHeld then some false
  else if !x.data.isEmpty && !creditShort s x.data x.dataHeld then some true
  else none

/-- Begin the next packet of a class: its credits are taken (R295). -/
def beginPacket (n : Nat) (data : Bool) (s : State) : State :=
  let x := link s n
  match (if data then x.data else x.ctl) with
  | [] => s
  | p :: q =>
    let k := packetCost s p
    let r := linkPacket n p s
    let s := addR (ledCnt LedCnt.lkTaken) k (addR (ledCnt LedCnt.lkOutstanding) k r.2)
    updLink n (fun x =>
      let x := { x with part := some (p, r.1) }
      if data then { x with data := q, dataHeld := x.dataHeld - k, dataOut := x.dataOut + k }
      else { x with ctl := q, ctlHeld := x.ctlHeld - k, ctlOut := x.ctlOut + k }) s

/-- Fill `room` bytes of a body from the port's packets: the bytes, and the packets whose last byte they hold. At least one
byte is laid per turn, so `fuel` turns suffice for as many bytes (R291). -/
def fillBody (n : Nat) : Nat → Nat → State → (List Byte × List Packet) × State
  | 0, room, s => ((List.replicate room 0, []), s)
  | fuel + 1, room, s =>
    match (link s n).part with
    | some (p, bs) =>
      if room < bs.length then
        ((bs.take room, []), updLink n (fun x => { x with part := some (p, bs.drop room) }) s)
      else
        let r := fillBody n fuel (room - bs.length) (updLink n (fun x => { x with part := none }) s)
        ((bs ++ r.1.1, p :: r.1.2), r.2)
    | none =>
      if room < 16 then ((List.replicate room 0, []), s)
      else match nextClass s n with
        | some d => fillBody n fuel room (beginPacket n d s)
        | none => ((List.replicate room 0, []), s)

/-- Bytes of a frame's body (R289). -/
def bodyBytes : Nat := 484

/-- A NAK that goes out now: counted, once per value of ACK (R292). -/
def nakSent (n : Nat) (s : State) : State :=
  if (link s n).nakDue then
    satAdd (lnkErr n) LnkErr.nak 1
      (updLink n (fun x => { x with nakDue := false, nakFor := some (x.ack, s.devtime) }) s)
  else s

/-- Whether the port may send a new SEQ frame: UP, the partner not fencing, and room in the replay buffer (R293, R297). -/
def maySeq (s : State) (n : Nat) : Bool := linkOpen s n && decide ((link s n).replay.length < 2048)

/-- Send the frame of one frame time in UP or FENCED (R289, R291). -/
def linkFrameSend (n : Nat) (s : State) : State :=
  if maySeq s n && ((link s n).part.isSome || (nextClass s n).isSome) then
    let r := fillBody n (2 * bodyBytes) bodyBytes s
    let seq := (link s n).seq
    let sent : SentFrame := { seq := seq, body := r.1.1, pkts := r.1.2, at_ := s.devtime }
    let s := linkEmit n [frameNow r.2 n seq .seq r.1.1] r.2
    let s := updLink n (fun x => { x with seq := (seq + 1) % 2 ^ 16, replay := x.replay ++ [sent] }) s
    noteStall n (nakSent n s)
  else noteStall n (nakSent n (linkEmit n [frameNow s n 0 .null (List.replicate bodyBytes 0)] s))

/-- LINK_FRAME_SEND (R289, R291, R295). -/
def execLinkFrameSend (n : LinkId) (s : State) : Host.Outcome State Fault Refusal :=
  .next (powered (fun s => if linkRuns s n then linkFrameSend n s else s) s)

/-! ### Receiving (R290, R292, R295, R297) -/

/-- A NAK falls due for the present value of ACK, unless one has gone out for it (R292). -/
def wantNak (n : Nat) (s : State) : State :=
  let x := link s n
  match x.nakFor with
  | some (a, _) => if a = x.ack then s else updLink n (fun x => { x with nakDue := true }) s
  | none => updLink n (fun x => { x with nakDue := true }) s

/-- An ACK releases every frame up to and including its SEQ (R293). -/
def ackFrames (n ack : Nat) (s : State) : State :=
  match findIdxFrom (fun (x : SentFrame) => x.seq == ack) 0 (link s n).replay with
  | some (i, _) => updLink n (fun x => { x with replay := x.replay.drop (i + 1), replays := 0 }) s
  | none => s

/-- Credits that a frame returns, in both classes (R295). -/
def creditFrames (n ccred dcred : Nat) (s : State) : State :=
  let x := link s n
  let c := (ccred + 2 ^ 20 - x.ctlSeen) % 2 ^ 20
  let d := (dcred + 2 ^ 20 - x.dataSeen) % 2 ^ 20
  let k := min c x.ctlOut + min d x.dataOut
  let s := addR (ledCnt LedCnt.lkReturned) k (subR (ledCnt LedCnt.lkOutstanding) k s)
  noteStall n (updLink n (fun x => { x with
    ctlSeen := ccred % 2 ^ 20, dataSeen := dcred % 2 ^ 20
    ctlHeld := x.ctlHeld + c, dataHeld := x.dataHeld + d
    ctlOut := x.ctlOut - min c x.ctlOut, dataOut := x.dataOut - min d x.dataOut }) s)

/-- What every valid frame does: its ACK, credits, NAK and FENCE are used (R292, R297). -/
def useHeader (n : Nat) (f : Frame) (s : State) : State :=
  let s := creditFrames n f.ccred f.dcred (ackFrames n f.ack s)
  let s := updLink n (fun x => { x with lastValid := s.devtime, nakSeen := x.nakSeen || f.nak }) s
  leaveBitmap n (upd (lnkStat n) LnkStat.peerFence (b2n f.fence) s)

/-- The packet that a link packet's bytes stand for: a narrowed payload is widened to the format of the entry that narrowed
it, which the sender's registers state (R290, R301). -/
def packetOf (bf16 : Bool) (bs : List Byte) : Packet :=
  let h := fromBytes (bs.take 16)
  let data := bit1 h 24
  let len := bits h 32 6
  let body := bs.drop 16
  { rdst := 0, src := bits h 0 12, dst := bits h 12 12, data := data, opc := bits h 25 7, len := len, txid := bits h 40 12
    srcFdn := bits h 52 16, dstFdn := bits h 68 16, hops := bits h 85 3
    ext := if data then bits h 88 40 else 0
    payload := if data then (if bit1 h 84 then widenAll bf16 body else body) else body.take len }

/-- Return the credits of a packet that has left the input buffer (R295). -/
def returnCredit (n : Nat) (data : Bool) (k : Nat) (s : State) : State :=
  updLink n (fun x => if data then { x with dataRet := (x.dataRet + k) % 2 ^ 20 }
    else { x with ctlRet := (x.ctlRet + k) % 2 ^ 20 }) s

/-- A whole link packet has arrived: it passes to the concourse, or is discarded while the port is FENCED, and its credits
return (R295, R297, R299). -/
def linkPacketIn (n : Nat) (bs : List Byte) (s : State) : State :=
  let h := fromBytes (bs.take 16)
  let q := packetOf false bs
  let p := if bit1 h 84 then packetOf (Config.streamFormat q.srcFdn q.dstFdn q.dst (bits q.ext 0 4)) bs else q
  let s := returnCredit n p.data (linkCost p.data (bit1 h 84) p.len) s
  if linkSt s n = lsFenced then satAdd (lnkDrop n) LnkDrop.fenceDrop 1 s else linkArrived n p s

/-- Length in bytes of the link packet that a header begins. -/
def linkLength (h : Nat) : Nat := 16 + linkPayload (bit1 h 24) (bit1 h 84) (bits h 32 6)

/-- Take the link packets of an accepted frame's body in order; a packet may continue from the frame before (R291). -/
def takeBody (n : Nat) : Nat → List Byte → State → State
  | 0, _, s => s
  | fuel + 1, bs, s =>
    let rx := (link s n).rx
    if rx.isEmpty then
      let h := fromBytes (bs.take 16)
      if bs.length < 16 ∨ bits h 25 7 = 0 then s
      else takeBody n fuel (bs.drop 16) (updLink n (fun x => { x with rx := bs.take 16 }) s)
    else
      let want := linkLength (fromBytes (rx.take 16)) - rx.length
      let got := rx ++ bs.take want
      if bs.length < want then updLink n (fun x => { x with rx := got }) s
      else takeBody n fuel (bs.drop want) (linkPacketIn n got (updLink n (fun x => { x with rx := [] }) s))

/-- Whether a frame of a type is valid for the port: the direction's epoch (R292). -/
def frameValid (s : State) (n : Nat) (f : Frame) (ft : FrameType) : Bool :=
  linkRuns s n && (f.ftype == ft && f.epoch == (link s n).peerEpoch)

/-- The codewords that have ended since the last frame, by their symbol errors: corrected ones are counted in units of 65,536,
uncorrectable ones each (R284, R307). -/
def fecCount (n : Nat) (errs : List Nat) (s : State) : State :=
  let c := (link s n).corrPart + (errs.filter fun e => decide (1 ≤ e) && decide (e ≤ fecLimit)).length
  let u := (errs.filter fun e => decide (fecLimit < e)).length
  let old := (link s n).ucwAt.filter fun t => decide (s.devtime < t + msTicks)
  let s := updLink n (fun x => { x with corrPart := c % 65536, ucwAt := old ++ List.replicate u s.devtime }) s
  let s := satAdd (lnkErr n) LnkErr.fecCorr (c / 65536) s
  if u = 0 then s else lifeCount (1632 + 8 * n) 4 u (satAdd (lnkErr n) LnkErr.fecUcw u s)

/-- A frame fails CRC (R292). -/
def crcFail (n : Nat) (s : State) : State :=
  let s := satAdd (lnkErr n) LnkErr.crc 1 s
  if linkRuns s n then wantNak n s else s

/-- A frame arrives that overlaps codewords with some symbol errors: an uncorrectable one makes it a frame that has failed CRC
(R285). -/
def frameArrives (n : Nat) (errs : List Nat) (f : State → State) (s : State) : State :=
  if !(linkRuns s n || linkSt s n == lsInit) then s
  else
    let s := fecCount n errs s
    if errs.any fun e => decide (fecLimit < e) then crcFail n s else f s

/-- SEQ_FRAME_RECEIVE: the next frame in order is accepted; any other is discarded and met with NAK (R292). -/
def execSeqFrameReceive (n : LinkId) (f : Frame) (errs : List Nat) (s : State) : Host.Outcome State Fault Refusal :=
  .next (powered (frameArrives n errs fun s =>
    if frameValid s n f .seq then
      let s := useHeader n f s
      if f.seq = ((link s n).ack + 1) % 2 ^ 16 then
        takeBody n (2 * bodyBytes) (f.body.take bodyBytes)
          (updLink n (fun x => { x with ack := f.seq, nakDue := false, nakFor := none }) s)
      else wantNak n s
    else s) s)

/-- NULL_FRAME_RECEIVE (R292). -/
def execNullFrameReceive (n : LinkId) (f : Frame) (errs : List Nat) (s : State) : Host.Outcome State Fault Refusal :=
  .next (powered (frameArrives n errs fun s => if frameValid s n f .null then useHeader n f s else s) s)

/-- FRAME_CRC_FAIL: a frame arrives whose CRC is not correct (R285, R292). -/
def execFrameCrcFail (n : LinkId) (errs : List Nat) (s : State) : Host.Outcome State Fault Refusal :=
  .next (powered (fun s =>
    if linkRuns s n || linkSt s n == lsInit then crcFail n (fecCount n errs s) else s) s)

/-- NAK_RESEND: 4 µs after a NAK the frame ACK + 1 has not arrived (R292). -/
def execNakResend (n : LinkId) (s : State) : Host.Outcome State Fault Refusal :=
  .next (powered (fun s =>
    match (link s n).nakFor with
    | some (a, t) =>
      if linkRuns s n && (a == (link s n).ack && decide (t + 4 * usTicks ≤ s.devtime)) then
        updLink n (fun x => { x with nakDue := true }) s
      else s
    | none => s) s)

/-! ### Replay and the causes of DOWN (R293, R294) -/

/-- Count a replay for the lifetime record, in units of 256 (R525). -/
def lifeReplay (n : Nat) (s : State) : State :=
  let k := tget (fun _ => 0) s.life.replays n + 1
  let s := { s with life := { s.life with replays := tset (fun _ => 0) n (k % 256) s.life.replays } }
  if k = 256 then lifeCount (1632 + 8 * n + 6) 2 1 s else s

/-- A replay that is due: the link goes DOWN when the replay count is already 4; else every unacknowledged frame goes out
again in order with its original contents (R293, R294). -/
def replayNow (n : Nat) (s : State) : State :=
  let x := link s n
  if x.replays = 4 then linkDown n ldReplay s
  else
    let s := lifeReplay n (satAdd (lnkErr n) LnkErr.replay 1 s)
    let s := linkEmit n (x.replay.map fun f => frameNow s n f.seq .seq f.body) s
    nakSent n (updLink n (fun x => { x with
      nakSeen := false, replays := x.replays + 1, replay := x.replay.map fun f => { f with at_ := s.devtime } }) s)

/-- LINK_REPLAY: a frame with NAK set has arrived (R293). With nothing unacknowledged there is nothing to resend. -/
def execLinkReplay (n : LinkId) (s : State) : Host.Outcome State Fault Refusal :=
  .next (powered (fun s =>
    let x := link s n
    if linkRuns s n && x.nakSeen then
      if x.replay.isEmpty then updLink n (fun x => { x with nakSeen := false }) s else replayNow n s
    else s) s)

/-- LINK_REPLAY_TIMEOUT: 4 µs without an ACK of the oldest frame (R293). -/
def execLinkReplayTimeout (n : LinkId) (s : State) : Host.Outcome State Fault Refusal :=
  .next (powered (fun s =>
    match (link s n).replay with
    | f :: _ => if linkRuns s n && decide (f.at_ + 4 * usTicks ≤ s.devtime) then replayNow n s else s
    | [] => s) s)

/-- LINK_SILENCE: 16 µs without a valid frame (R294). -/
def execLinkSilence (n : LinkId) (s : State) : Host.Outcome State Fault Refusal :=
  .next (powered (fun s =>
    if linkRuns s n && decide ((link s n).lastValid + 16 * usTicks ≤ s.devtime) then linkDown n ldSilence s else s) s)

/-- LINK_UCW_LIMIT: the uncorrectable codewords of the last 1 ms exceed UCW_LIMIT; 0 sets no limit (R294, R305). -/
def execLinkUcwLimit (n : LinkId) (s : State) : Host.Outcome State Fault Refusal :=
  .next (powered (fun s =>
    let lim := get s (lnkCtrl n) LnkCtrl.ucwLimit
    let count := ((link s n).ucwAt.filter fun t => decide (s.devtime < t + msTicks)).length
    if linkRuns s n && (decide (lim ≠ 0) && decide (lim < count)) then linkDown n ldUcw s else s) s)

/-- LINK_CREDIT_STALL: a class has had a packet waiting without enough credit for 100 µs (R294). -/
def execLinkCreditStall (n : LinkId) (data : Bool) (s : State) : Host.Outcome State Fault Refusal :=
  .next (powered (fun s =>
    match (if data then (link s n).dataStall else (link s n).ctlStall) with
    | some t => if linkRuns s n && decide (t + 100 * usTicks ≤ s.devtime) then linkDown n ldCreditStall s else s
    | none => s) s)

/-! ### Registers (R302, R305, R542) -/

/-- LNK_CTRL_WRITE: RATE, MEDIUM or TESTPAT changed takes the link through DOWN, with a cause that the spec does not
name, and applies at the next TRAIN; ENABLE cleared takes it DISABLED; enabled, it trains (R286, R305). -/
def lnkCtrlWrite (n v : Nat) (s : State) : State :=
  let old := rd s (lnkCtrl n)
  let new := BitVec.ofNat 64 (v % 2 ^ 21)
  let new := setF new LnkCtrl.retryMs (max 1 (getF new LnkCtrl.retryMs))
  let s := put (lnkCtrl n) new s
  let moved := bits old.toNat 1 4 != bits new.toNat 1 4
  let st := linkSt s n
  if getF old LnkCtrl.enable = 1 ∧ getF new LnkCtrl.enable = 0 then
    if st = lsDown ∨ st = lsDisabled then setLinkSt n lsDisabled s else linkDownTo n ldDisabled false s
  else if st = lsDisabled then tryTrain n s
  else if moved then
    if st = lsDown then (if mustDisable s n then setLinkSt n lsDisabled s else s)
    else
      let c := freeNat 4 s
      linkDownTo n c.1 false c.2
  else s

/-- LNK_CTRL_WRITE (R305). -/
def execLnkCtrlWrite (m : Master) (n : LinkId) (v : Nat) (s : State) : Host.Outcome State Fault Refusal :=
  .next (powered (asOwner m (lnkCtrl n) 32 (lnkCtrlWrite n v)) s)

/-- A write of an LNK_NARROWn entry: refused while its SLOT, old or new, holds the ACTIVE season (R302). -/
def lnkNarrowWrite (m : Master) (i off width v : Nat) (s : State) : State :=
  let o := lnkNarrow i
  let new := BitVec.ofNat 64 (v % 2 ^ 5 + bits v 8 40 * 2 ^ 8)
  if slotState s (get s o LnkNarrow.slot) = ssActive ∨ slotState s (getF new LnkNarrow.slot) = ssActive then
    refusedWrite m off width s
  else put o new s

/-- LNK_NARROW_WRITE (R302). -/
def execLnkNarrowWrite (m : Master) (i : Fin 16) (half : Half) (v : Nat) (s : State) : Host.Outcome State Fault Refusal :=
  .next (powered (asOwner m (halfOff (lnkNarrow i) half) (halfWidth half) fun s =>
    lnkNarrowWrite m i (halfOff (lnkNarrow i) half) (halfWidth half) (mergeHalf half (rd s (lnkNarrow i)) v) s) s)

/-- CNT_CLEAR of a field's link page: the counters of its links become zero (R307, R542). -/
def lnkCntClear (f : Nat) (s : State) : State :=
  (fieldLinks f).foldl (fun s n => put (lnkErr n) 0 (put (lnkDrop n) 0 (put (lnkNarrowStat n) 0 s))) s

/-- LNK_CNT_CLEAR (R542). -/
def execLnkCntClear (m : Master) (f : FieldId) (s : State) : Host.Outcome State Fault Refusal :=
  .next (powered (fun s =>
    if regOff s (lnkCntCtrl f) then s else asOwner m (lnkCntCtrl f) 32 (lnkCntClear f) s) s)

end Sys2Proof.Machine
end

