-- ==== Sys2Proof/Machine/Dataflow.lean ====
section
/-! DEFINITION. Operands, queues and emission: what the tag matcher's commands share (R123–R137, R567). -/

namespace Sys2Proof.Machine

open Sys2Proof

/-! ### Operands (R129) -/

def opTag (o : Nat) : Nat := bits o 0 12
def opIdx (o : Nat) : Nat := bits o 12 6
def opKind (o : Nat) : Nat := bits o 18 2
def opAux (o : Nat) : Nat := bits o 32 32
def opPayload (o : Nat) : Nat := bits o 64 64

/-- Kinds of an operand. -/
def okValue : Nat := 0
def okSkip : Nat := 1
def okReference : Nat := 2

/-- Compose an operand. -/
def mkOp (tag idx kind aux payload : Nat) : Nat :=
  tag % 4096 + idx % 64 * 2 ^ 12 + kind % 4 * 2 ^ 18 + aux % 2 ^ 32 * 2 ^ 32 + payload % 2 ^ 64 * 2 ^ 64

/-- A skip operand of a tag. -/
def skipOp (tag idx : Nat) : Nat := mkOp tag idx okSkip 0 0

/-- Distance of a tag from a base (R131). -/
def distance (base tag : Nat) : Nat := (tag + 4096 - base % 4096) % 4096

/-! ### Graph tables of the active layer -/

def unitDesc (x : TileState) (u : Nat) : Nat := tget (fun _ => 0) x.unitTab u
def queueDesc (x : TileState) (q : Nat) : Nat := tget (fun _ => 0) x.queueTab q
def edgeDesc (x : TileState) (e : Nat) : Nat := tget (fun _ => 0) x.edgeTab e
def unitRun (x : TileState) (u : Nat) : UnitRun := tget (fun _ => {}) x.units u
def queueRun (x : TileState) (q : Nat) : QueueRun := tget (fun _ => {}) x.queues q
def edgeCredit (x : TileState) (e : Nat) : Nat := tget (fun _ => 0) x.credit e

/-- Whether the layer's graph has a unit of a number on a tile; listed units are those of the table. -/
def hasUnit (x : TileState) (u : Nat) : Bool := x.unitTab.any fun e => e.1 == u

/-- Units of a tile, in ascending order. -/
def unitNums (x : TileState) : List Nat := x.unitTab.map (·.1)

/-- Input queues and out edges of a unit, in port order. -/
def inQueues (d : Nat) : List Nat := (List.range (unNin d)).map (unInq d)
def outEdges (d : Nat) : List Nat := (List.range (unNout d)).map (unOut d)

/-- Replace a queue's run, a unit's run, an edge's credit. -/
def setQueue (t q : Nat) (r : QueueRun) (s : State) : State :=
  updTile t (fun x => { x with queues := tset (fun _ => {}) q r x.queues }) s
def setUnit (t u : Nat) (r : UnitRun) (s : State) : State :=
  updTile t (fun x => { x with units := tset (fun _ => {}) u r x.units }) s
def addCredit (t e n : Nat) (s : State) : State :=
  updTile t (fun x => { x with credit := tset (fun _ => 0) e (edgeCredit x e + n) x.credit }) s
def subCredit (t e n : Nat) (s : State) : State :=
  updTile t (fun x => { x with credit := tset (fun _ => 0) e (edgeCredit x e - n) x.credit }) s
def setCredit (t e n : Nat) (s : State) : State :=
  updTile t (fun x => { x with credit := tset (fun _ => 0) e n x.credit }) s

/-- The unit that consumes a queue. -/
def consumer (x : TileState) (q : Nat) : Option Nat := (unitNums x).find? fun u => (inQueues (unitDesc x u)).contains q

/-- The edge that feeds a queue, as tile and edge index. -/
def feeder (s : State) (t q : Nat) : Option (Nat × Nat) :=
  s.tiles.findSome? fun e => (e.2.edgeTab.find? fun d => edTile d.2 == t && edDq d.2 == q).map fun d => (e.1, d.1)

/-- The unit that feeds a queue. -/
def producer (s : State) (t q : Nat) : Option (Nat × Nat) :=
  match feeder s t q with
  | none => none
  | some (t', e) => ((unitNums (tile s t')).find? fun u => (outEdges (unitDesc (tile s t') u)).contains e).map fun u => (t', u)

/-- The receive channel of a tile whose operands go to a queue. -/
def landingOf (s : State) (t q : Nat) : Option Nat :=
  (List.range 256).find? fun ch =>
    let e := chanEntry s t ch
    chValid e && (chReceive e && (chMode e == 1 && chRq e == q))

/-! ### Arrival (R131, R133, R154) -/

/-- Operands held in a queue. -/
def occupancy (r : QueueRun) : Nat := r.items.length

/-- Word of the stall page that holds a counter of a unit or a queue (R154). -/
def unitCnt (t u k : Nat) : Nat := stallUnit t (8 * u + k)
def queueCnt (t q k : Nat) : Nat := stallQueue t (2 * q + k)

/-- Count an operand received by a queue: QIN and the highest occupancy. -/
def noteIn (t q : Nat) (s : State) : State :=
  if counting s t then
    let s := addR (queueCnt t q 0) 1 s
    let n := occupancy (queueRun (tile s t) q)
    if get s (queueCnt t q 1) ⟨0, 9⟩ < n then upd (queueCnt t q 1) ⟨0, 9⟩ n s else s
  else s

/-- The first entry of the operand store, from the base of a queue, that holds none of its operands (R124, R127). -/
def freeEntry (base : Nat) (r : QueueRun) : Nat :=
  ((List.range (r.items.length + 1)).find? fun i => !(r.items.any (·.entry == base + i))).getD 0 + base

/-- Place an operand in a queue: it is written into an entry of the operand store. -/
def enqueue (t q op : Nat) (drained : Bool) (s : State) : State :=
  let x := tile s t
  let r := queueRun x q
  let n := freeEntry (quBase (queueDesc x q)) r
  let s := setQueue t q { r with items := r.items ++ [{ op := op, entry := n, at_ := x.tclk, drained := drained }]
                                 got := r.got + 1 } (updTile t (clearGranules 4 n 1) s)
  let s := match consumer x q with
    | some u => setUnit t u { unitRun x u with active := x.tclk } s
    | none => s
  noteIn t q (updTile t (fun x => { x with quiet := 0 }) s)

/-- An operand arrives in a queue: out of range, at or above the rate, or a repeat records a fault; else it is held
(R131). -/
def deliver (t q op : Nat) (s : State) : State :=
  let x := tile s t
  let r := queueRun x q
  let u := (consumer x q).getD 0
  let held := r.items.any fun i => opTag i.op == opTag op && opIdx i.op == opIdx op
  let spilt := r.spilled.any fun o => o.tag == opTag op && o.idx == opIdx op
  if (consumer x q).isSome ∧ 2048 ≤ distance (unitRun x u).base (opTag op) then tagFault t dfTagRange u q (opTag op) s
  else if quRate (queueDesc x q) ≤ opIdx op ∨ held ∨ spilt then tagFault t dfRate u q (opTag op) s
  else enqueue t q op false s

/-- Whether a queue has a free entry. -/
def queueRoom (x : TileState) (q : Nat) : Bool :=
  let r := queueRun x q
  decide (occupancy r + (if r.reserve then 1 else 0) < quDepth (queueDesc x q))

/-- A notification that waits in a pending slot is delivered when its queue frees an entry (R177). -/
def deliverNotes (t q : Nat) (s : State) : State :=
  let x := tile s t
  match findIdxFrom (fun (n : Nat × Nat) => n.1 == q) 0 x.notes with
  | some (i, n) =>
    if queueRoom x q then deliver t q n.2 (updTile t (fun x => { x with notes := eraseAt i x.notes }) s) else s
  | none => s

/-- Place a notification: in its queue, or in one of 16 pending slots; false when all are occupied (R177). -/
def placeNote (t q op : Nat) (s : State) : Bool × State :=
  let x := tile s t
  if queueRoom x q ∧ !(x.notes.any fun n => n.1 == q) then (true, deliver t q op s)
  else if x.notes.length < 16 then (true, updTile t (fun x => { x with notes := x.notes ++ [(q, op)] }) s)
  else (false, s)

/-! ### Emission (R134, R567) -/

/-- Put an operand in flight to a queue of a tile, arriving `n` TCLK from now; on a lattice channel it is its words. -/
def flyWords (t q op : Nat) (ws : List (List LaneWord)) (n : Nat) (s : State) : State :=
  updTile t (fun x => { x with flight := x.flight ++ [{ q := q, op := op, due := x.tclk + n, words := ws }] }) s
def inFlight (t q op n : Nat) (s : State) : State := flyWords t q op [] n s

/-- The payload of an OPERAND packet (R236). -/
def operandPayload (q : Nat) (ops : List Nat) : List Byte :=
  toBytes 8 (q + (ops.length - 1) * 256) ++ ops.flatMap (toBytes 16)

/-- Send operands over the concourse, two to a packet. -/
def sendOperands (t dst q : Nat) : List Nat → State → State
  | [], s => s
  | [a], s => sendAwaited t dst ocOperand (operandPayload q [a]) s
  | a :: b :: r, s => sendOperands t dst q r (sendAwaited t dst ocOperand (operandPayload q [a, b]) s)

/-- Words of an operand on a channel. -/
def operandWords (e : Nat) : Nat := let w := max 1 (chWidth e); (16 + w - 1) / w

/-- Words for sites that are off and at which a send entry's channel is delivered besides its receiver's are discarded and
counted there (R218, R228). -/
def dropAside (e n : Nat) (s : State) : State :=
  let ns := laneSites (laneMap s) 960 (assumedSite s (chTile e)) (chPort e) (firstLane (chLanes e))
  ((ns.filter fun m => m != assumedSite s (chPeerTile e) && siteOff s m).filterMap (tileAt s)).foldl
    (fun s u => satAdd (latStat u) LatStat.offDrop n s) s

/-- Gather bytes at the entry of a leg of a channel that a tunnel carries, by the channel's receive end (R229). -/
def gatherAt (t ch k : Nat) (bs : List Byte) (s : State) : State :=
  let c := chan s t ch
  let g := tget (fun _ => {}) c.legs k
  let g := { g with words := g.words ++ bs, since := if g.words.isEmpty then s.devtime else g.since }
  setChan t ch { c with legs := tset (fun _ => {}) k g c.legs } s

/-- Operands take a channel one after another: the first arrives W + h + s + 1 TCLK after its emission, each later one W
TCLK after the one before it (R567), in queue RQ (R223). Words for a site that is off are discarded and counted (R228). -/
def sendLattice (t ch : Nat) (lead : Nat) (ops : List Nat) (s : State) : State :=
  let e := chanEntry s t ch
  let w := operandWords e
  let p := chanPath s t ch
  let dst := chPeerTile e
  let s := dropAside e (w * ops.length) s
  if chTunnel e then gatherAt dst (chPeerCh e) 0 (ops.flatMap (toBytes (w * chWidth e))) s
  else if siteOff s (siteOf s dst) then satAdd (latStat dst) LatStat.offDrop (w * ops.length) s
  else (ops.zip (List.range ops.length)).foldl (fun s o =>
    flyWords dst (chRq (chanEntry s dst (chPeerCh e))) o.1 (channelWords e false (toBytes 16 o.1))
      (lead + w + p.1 + p.2 + 1 + o.2 * w) s) s

/-- Emit operands on an out edge of a tile, `lead` TCLK from now (R134, R567). -/
def emit (t e lead : Nat) (ops : List Nat) (s : State) : State :=
  let d := edgeDesc (tile s t) e
  if edPath d = 0 then ops.foldl (fun s o => inFlight t (edDq d) o (lead + 1) s) s
  else if edPath d = 1 then sendLattice t (edCh d) lead ops s
  else sendOperands t (edTile d) (edDq d) ops s

/-- `rate` operands of a tag with one kind and no payload. -/
def plainOps (tag rate kind : Nat) : List Nat := (List.range rate).map fun i => mkOp tag i kind 0 0

/-- The tags of a group, from its first. -/
def groupTags (first g : Nat) : List Nat := (List.range g).map fun i => (first + i) % 4096

/-- What a pass or a skipped firing emits on an edge: skips for the tags of the mask, values for the others. -/
def groupOps (first g rate skips : Nat) : List Nat :=
  (List.range g).flatMap fun i => plainOps ((first + i) % 4096) rate (if bit1 skips i then okSkip else okValue)

/-- Free the ring units of the landed messages a firing has consumed (R223). -/
def freeSlots (t : Nat) (back : List (Nat × Nat)) (s : State) : State :=
  back.foldl (fun s b => returnCredits t b.1 b.2 s) s

end Sys2Proof.Machine
end

