-- ==== Sys2Proof/Machine/Integ.lean ====
section
/-! DEFINITION. What integrity checks do to a tile and its batch, and the bookkeeping of steps, selection and item digests
that execution needs (R328–R334, R338–R343). -/

namespace Sys2Proof.Machine

open Sys2Proof

/-- Change the integrity state. -/
def itg (f : IntegState → IntegState) (s : State) : State := { s with integ := f s.integ }

/-- Raise a counter of INT_CNT. -/
def intCount (i n : Nat) (s : State) : State := if n = 0 then s else addR (intCnt i) n s

/-! ### Checks (R332–R334) -/

/-- Check numbers of R332. -/
def ckLatParity : Nat := 1
def ckOperandParity : Nat := 2
def ckPathParity : Nat := 3
def ckWmUe : Nat := 4
def ckAmUe : Nat := 5
def ckPmUe : Nat := 6
def ckIstoreUe : Nat := 7
def ckOpstoreUe : Nat := 8
def ckResidue : Nat := 9
def ckKatFail : Nat := 10
def ckShadow : Nat := 11
def ckWdigest : Nat := 12

/-- Whether a check calls for a standby remap of its tile. -/
def ckRemaps (c : Nat) : Bool := c == ckWmUe || (c == ckIstoreUe || (c == ckKatFail || c == ckWdigest))

/-- Count a recorded check in INT_CNT (R354). -/
def countCheck (c : Nat) (s : State) : State :=
  if c ≤ 3 then intCount IntCnt.parity 1 s
  else if c ≤ 8 then s
  else if c = ckResidue then intCount IntCnt.residue 1 s
  else if c = ckKatFail then intCount IntCnt.katFails 1 s
  else if c = ckShadow then intCount IntCnt.mismatch 1 s
  else intCount IntCnt.wdigMismatch 1 s

/-- Failed chunks of the batch that failed last take INTEGRITY_FAULT as their cause, while their completions are not
written (R333). -/
def overrideCause (s : State) : State :=
  mapReqs (fun r =>
    if s.req.lastFailed.contains r.id && (r.fail != 0 && (r.cause == csDataflowFault || r.cause == csTileFault)) then
      { r with cause := csIntegrityFault
               status := if r.done = 0 then r.status.map fun _ => csIntegrityFault else r.status }
    else r) s

/-- An integrity entry: the reporting tile, the check number as CODE, the logical tile as OBJECT (R350, R519). -/
def logInteg (sev kind check t detail : Nat) (s : State) : State := logEvent ⟨sev, kind, bInt, t, check, t, detail⟩ s

/-- Request a standby remap for a check; REMAPS counts it, and the request is entered in the log (R334, R350, R354). -/
def checkRemap (t check : Nat) (s : State) : State :=
  remapRequest [t] 2 (logInteg sevDegrade kRepair check t (siteOf s t) (intCount IntCnt.remaps 1 s))

/-- An INTEGRITY fault that keeps its tile in service: the third within an hour asks for a remap (R334). -/
def noteStaying (t check : Nat) (s : State) : State :=
  let old := (tget (fun _ => []) s.integ.faults t).filter fun x => decide (s.devtime < x + 3600 * secTicks)
  let l := s.devtime :: old
  let s := itg (fun g => { g with faults := tset (fun _ => []) t l g.faults }) s
  if 3 ≤ l.length then checkRemap t check s else s

/-- Record an integrity check on a tile with a DETAIL for its log entry: the tile stops, the graph is halted, the batch fails
with INTEGRITY_FAULT, and the tile stays in service or is remapped (R332–R334, R349). -/
def integrityFaultAs (t check detail : Nat) (s : State) : State :=
  let s := if tileSt s t = tsTest ∧ check ≠ ckKatFail then itg (fun g => { g with voided := t :: g.voided }) s else s
  let s := countCheck check (recordFault t tfIntegrity check s)
  let s := logInteg sevError kFault check t detail s
  let s := overrideCause (batchFail csIntegrityFault t (rd s (tilFault t)).toNat (haltGraph t s))
  if ckRemaps check then checkRemap t check s else if check = ckShadow then s else noteStaying t check s

/-- Record an integrity check on a tile, its entry naming the tile's site (R350). -/
def integrityFault (t check : Nat) (s : State) : State := integrityFaultAs t check (siteOf s t) s

/-- Words fail parity at a tile's receiving endpoint: nothing of their message is written or placed, they are counted, and the
tile records LAT_PARITY (R227, R329). -/
def latticeParity (t n : Nat) (s : State) : State := integrityFault t ckLatParity (satAdd (latStat t) LatStat.parity n s)

/-- The check of a tile memory: WM, AM, PM, instruction store, operand store by the codes of `errKey`. -/
def memCheck (k : Nat) : Nat :=
  if k = 0 then ckWmUe else if k = 1 then ckAmUe else if k = 2 then ckPmUe else if k = 3 then ckIstoreUe else ckOpstoreUe

/-- Correct the correctable words from word `w` on and count them (R330). -/
def correctWords (t k w n : Nat) (s : State) : State :=
  let x := tile s t
  let hit := fun (e : Nat × Nat) =>
    decide (errKey k w ≤ e.1) && (decide (e.1 < errKey k (w + n)) && e.2 == 1)
  let c := (x.errs.filter hit).length
  if c = 0 then s
  else logInteg sevInfo kCorrected (memCheck k) t (siteOf s t) <| intCount IntCnt.sramCe c (setTile t { x with errs := x.errs.filter fun e => !hit e } s)

/-- Correct the correctable words of a range and count them. -/
def correctRange (t k u n : Nat) (s : State) : State := correctWords t k (wordsPer k * u) (wordsPer k * n) s

/-- Read a range of a tile memory: correctable words are corrected; an uncorrectable one records its check. Whether the
read delivers, and the state (R330). -/
def readRange (t k u n : Nat) (s : State) : Bool × State :=
  let s := correctRange t k u n s
  if rangeBad (tile s t) k u n then (false, integrityFault t (memCheck k) (intCount IntCnt.sramUe 1 s)) else (true, s)

/-- KAT_RUN on every powered logical site: a tile whose site passes is verified; one whose site is among `failed` records
KAT_FAIL and is remapped (R332, R336, R400, R442). -/
def katAll (failed : List Nat) (s : State) : State :=
  let ts := (List.range (tileCount s)).filter fun t => !tileOff s t
  let bad := ts.filter fun t => failed.contains (siteOf s t)
  let s := addR (intCnt IntCnt.katRuns) ts.length s
  let s := (ts.filter fun t => !bad.contains t).foldl (fun s t => sinceKatZero t s) s
  bad.foldl (fun s t => integrityFault t ckKatFail s) s

/-! ### Modes (R338, R346) -/

/-- The mode in force. -/
def intMode (s : State) : Nat := get s intStat IntStat.mode

/-- N of a mode; 0 when it has none. -/
def modeN (m : Nat) : Nat := if m = 2 then 16 else if m = 3 then 8 else if m = 4 then 4 else if m = 5 then 1 else 0

/-- DUE and OVERDUE of a mode. -/
def modeDue (m : Nat) : Option Nat :=
  if m = 1 then some 32768 else if m = 2 then some 16384 else if m = 3 then some 8192 else if m = 4 ∨ m = 5 then some 4096
  else none
def modeOverdue (m : Nat) : Option Nat := (modeDue m).map (2 * ·)

/-- Mark or clear UNVERIFIED of a tile by its count, with INT_STAT.UNVERIFIED (R338, R352). -/
def markUnverified (t : Nat) (s : State) : State :=
  let above := match modeOverdue (intMode s) with
    | some n => decide (n ≤ get s (tilIntStat t) TilIntStat.sinceKat)
    | none => false
  let old := get s (tilIntStat t) TilIntStat.unverified
  if old = b2n above then s
  else
    let n := get s intStat IntStat.unverified
    upd intStat IntStat.unverified (if above then n + 1 else n - 1) (upd (tilIntStat t) TilIntStat.unverified (b2n above) s)

/-- SINCE_KAT returns to 0 (R336, R337). -/
def resetSince (t : Nat) (s : State) : State := markUnverified t (upd (tilIntStat t) TilIntStat.sinceKat 0 s)

/-! ### Shadow pairs (R339–R342) -/

/-- Whether a model of the active season is shadow-capable. -/
def shadowCapable (s : State) (m : Nat) : Bool := bit1 (rd s (intCover (m / 32))).toNat (m % 32)

/-- COPY_OF of a model of the active season. -/
def copyOf (s : State) (m : Nat) : Nat :=
  match activeSlot s with
  | some i => mdCopyOf (modelRec s (slotBase s i) m)
  | none => 0xFF

/-- Logical tiles of the active season. -/
def seasonTiles (s : State) : Nat :=
  match activeSlot s with
  | some i => max 1 (hdrTiles (imgHeader s (slotBase s i)))
  | none => 768

/-- The partner of a tile in a step of a model: P(t) for an original, P⁻¹(t) for a copy (R339). -/
def partner (s : State) (m t : Nat) : Nat :=
  let n := seasonTiles s
  if copyOf s m = 0xFF then (t + 384) % n else (t + n * 384 - 384) % n

/-- The tile whose step the shadow units on a tile re-run: the inverse of `partner`. -/
def shadowed (s : State) (m t : Nat) : Nat :=
  let n := seasonTiles s
  if copyOf s m = 0xFF then (t + n * 384 - 384) % n else (t + 384) % n

/-- The model of the batch that runs. -/
def batchModel (s : State) : Nat :=
  match s.req.batch with
  | some b => b.model
  | none => 0xFF

/-- Whether a unit is a shadow unit: the model of its TASK differs from the layer's, and the two form a shadow pair
(R340). -/
def isShadow (s : State) (t d : Nat) : Bool :=
  let m := batchModel s
  let e := taskEntry s t (unTask d)
  let k := bits e 8 8
  bit1 e 0 && (k != m && (shadowCapable s m && (shadowCapable s k && (copyOf s k == m || copyOf s m == k))))

/-- Whether steps of a tile of the running model are covered steps (R328). -/
def coveredStep (s : State) (t : Nat) : Bool :=
  shadowCapable s (batchModel s) && (modeN (intMode s) != 0 ||
    (intMode s != 0 && get s (tilIntStat t) TilIntStat.suspect == 1))

/-- Take a phase at random in 0 to n − 1: a free value (R342). -/
def takePhase (t n : Nat) (s : State) : State :=
  let f := freeNat 32 s
  upd (tilIntStat t) TilIntStat.phase (f.1 % n) f.2

/-- The start of a covered step of a tile: whether it is selected, by the procedure of R342. A SUSPECT pair is compared as
for n = 1. -/
def selectStep (t : Nat) (s : State) : Bool × State :=
  let n := modeN (intMode s)
  let suspect := get s (tilIntStat t) TilIntStat.suspect == 1
  let o := tilIntStat t
  let s := if n ≠ 0 ∧ !s.integ.phased.contains t then
      itg (fun g => { g with phased := t :: g.phased, rephased := tset (fun _ => none) t none g.rephased })
        (upd o TilIntStat.covered 0 (takePhase t n s))
    else s
  let c := get s o TilIntStat.covered
  let k := max 1 n
  let g := c / k
  let re := max 4 (min 20 (get s intCtrl IntCtrl.rephaseLog2))
  let s := if n ≠ 0 ∧ c % k = 0 ∧ 0 < g ∧ g % 2 ^ re = 0 then
      takePhase t n (itg (fun i => { i with oldPhase := tset (fun _ => 0) t (get s o TilIntStat.phase) i.oldPhase
                                            rephased := tset (fun _ => none) t (some g) i.rephased }) s)
    else s
  let ph := get s o TilIntStat.phase
  let old := tget (fun _ => 0) s.integ.oldPhase t
  let sel := suspect || (n != 0 && (c % k == ph ||
    (tget (fun _ => none) s.integ.rephased t == some g && (decide (old < ph) && c % k == old))))
  (sel, upd o TilIntStat.covered (c + 1) s)

/-! ### Steps (R328, R338) -/

/-- The first unit of a tile's own step fires: the step is counted, and a request with a step on an UNVERIFIED tile
carries the flag. -/
def beginStep (t : Nat) (s : State) : State :=
  if (tile s t).stepOn then s
  else
    let s := updTile t (fun x => { x with stepOn := true }) s
    let s := if get s (tilIntStat t) TilIntStat.unverified = 1 then
        let ids := match s.req.batch with
          | some b => b.reqs
          | none => []
        intCount IntCnt.unverifiedSteps 1 (mapReqs (fun r => if ids.contains r.id then { r with unverified := true } else r) s)
      else s
    markUnverified t (satAdd (tilIntStat t) TilIntStat.sinceKat 1 s)

/-! ### Item digests (R343) -/

/-- One bit of CRC-64/XZ, least significant bit first. -/
def crc64Bit (c : BitVec 64) : BitVec 64 := if c.getLsbD 0 then (c >>> 1) ^^^ 0xC96C5795D7870F42#64 else c >>> 1

/-- One byte of CRC-64/XZ. -/
def crc64Byte (c : BitVec 64) (b : Byte) : BitVec 64 :=
  (List.range 8).foldl (fun c _ => crc64Bit c) (c ^^^ b.zeroExtend 64)

/-- CRC-64/XZ of bytes. -/
def crc64 (bs : List Byte) : BitVec 64 := ~~~(bs.foldl crc64Byte (BitVec.allOnes 64))

/-- The item record of an operand: of a reference, only TAG, IDX and KIND. -/
def operandItem (o : Nat) : List Byte := toBytes 16 (if opKind o = okReference then o % 2 ^ 20 else o)

/-- Add item records to the accumulator of a unit's step: ORIGINAL, or SHADOW for a shadow unit. -/
def addItems (t d : Nat) (items : List (List Byte)) (s : State) : State :=
  let sh := isShadow s t d
  let who := if sh then shadowed s (batchModel s) t else t
  if !(s.integ.selected.contains who) then s
  else
    let v := (items.map fun i => (crc64 i).toNat).foldl (· + ·) 0
    updTile t (fun x => if sh then { x with shadow := (x.shadow + v) % 2 ^ 64 }
      else { x with digest := (x.digest + v) % 2 ^ 64 }) s

/-- Emit operands of a unit, with their items. -/
def emitOps (t u e lead : Nat) (ops : List Nat) (s : State) : State :=
  emit t e lead ops (addItems t (unitDesc (tile s t) u) (ops.map operandItem) s)

/-- Emit a group's plain operands on every out edge of a unit. -/
def emitPlain (t u first skips lead : Nat) (s : State) : State :=
  let d := unitDesc (tile s t) u
  (outEdges d).foldl (fun s e =>
    emitOps t u e lead (groupOps first (unGroup d) (edRate (edgeDesc (tile s t) e)) skips) s) s

end Sys2Proof.Machine
end

