-- ==== Sys2Proof/Machine/Repair.lean ====
section
/-! DEFINITION. Resets, standby remaps, promotions and repair commands (R434, R440–R449, R454, R457, R459). -/

namespace Sys2Proof.Machine

open Sys2Proof

/-- Change the bring-up block's own state. -/
def bt (f : BootState → BootState) (s : State) : State := { s with boot := f s.boot }

/-! ### Carrying out a remap -/

/-- The status of an old site at step 6 of R445: FAILED with CAUSE 2 or 3, or for heat COOLING, or DORMANT with CAUSE 4
after the third switch-off (R395, R449). -/
def retireOld (s : State) (e : RemapEntry) (m : MapRecord) : MapRecord :=
  if e.cause = 4 then
    if 3 ≤ get s (pwrClTherm (siteCluster e.old)) PwrClTherm.offs then mapDormant e.old 4 m
    else mapSetStatus e.old stCooling m
  else mapFail e.old e.cause m

/-- The map with the entries of a remap applied (R445, R446). -/
def applyEntries (s : State) (es : List RemapEntry) (m : MapRecord) : MapRecord :=
  es.foldl (fun m e => mapPlace e.tile e.new (mapSetStatus e.new stLogical (retireOld s e m))) m

/-- Complete or abandon a remap that a reset interrupted, before any map loads: from a COMMIT without END the map record
is written from its entries; a BEGIN without COMMIT is ended with COUNT 0 (R446). The tiles of an abandoned remap are
answered, for the new remap that follows a compute or fabric reset. -/
def journalRecover (s : State) : State × List (Nat × Nat) :=
  match s.boot.journal.getLast? with
  | some r =>
    if r.kind = 2 then
      let m := applyEntries s r.entries s.boot.nvmMap
      let m := { m with seq := s.boot.nvmMap.seq + 1, time := s.devtime, remapId := r.id }
      let s := storeMap m (bt (fun b => { b with map := m }) s)
      (satAdd supRemapStat SupRemapStat.total 1 (lifeCount 76 2 1 (journalAdd 3 r.id r.entries s)), [])
    else if r.kind = 1 then
      (logOpen sevNotice kRepair bSup 446 0 r.id (journalAdd 3 r.id [] s), r.entries.map fun e => (e.tile, e.cause))
    else (s, [])
  | none => (s, [])

/-- The targets of a remap that failed their test become FAILED with CAUSE 1, and step 1 is repeated (R445). -/
def remapRetry (r : Remap) (bad : List Nat) (s : State) : State :=
  let hit := r.entries.filter fun e => bad.contains e.new
  let m := hit.foldl (fun m e => mapFail e.new 1 m) s.boot.map
  let s := bt (fun b => { b with map := m, mapDirty := true }) s
  let s := hit.foldl (fun s e => logCoded sevDegrade kRepair bSup 445 1 1 e.new s) s
  selectTargets r.field r.id (r.entries.map fun e => (e.tile, e.cause)) s

/-- REMAP_TARGETS_READY: the chosen sites are powered and have run KAT_RUN; those in `fails` fail it. When all pass, the
BEGIN record is being written (R444, R445). -/
def execRemapTargetsReady (fails : List Nat) (s : State) : Host.Outcome State Fault Refusal :=
  .next (powered (fun s =>
    match s.boot.remap with
    | none => s
    | some r =>
      let ready := r.entries.all fun e => get s (pwrClStat (siteCluster e.new)) PwrClStat.state == 3
      if r.step == .selecting && ready then
        let s := addR (intCnt IntCnt.katRuns) r.entries.length s
        if r.entries.any fun e => fails.contains e.new then
          remapRetry r fails (addR (intCnt IntCnt.katFails) (r.entries.filter fun e => fails.contains e.new).length s)
        else bt (fun b => { b with remap := some { r with step := .beginning } }) s
      else s) s)

/-- REMAP_BEGIN_WRITTEN: the BEGIN record is in NVM; the tile traffic is quiesced and the requests executing now will
carry REMAPPED (R445, R447). -/
def execRemapBeginWritten (s : State) : Host.Outcome State Fault Refusal :=
  .next (powered (fun s =>
    match s.boot.remap with
    | none => s
    | some r =>
      if r.step == .beginning then
        let s := journalAdd 1 r.id r.entries s
        let s := upd supRemapStat SupRemapStat.lastId r.id (upd supRemapStat SupRemapStat.state 2 s)
        let s := bt (fun b => { b with remap := some { r with step := .copying }, quiesce := true }) s
        logOpen sevNotice kRepair bSup 445 2 r.id (abandonRound (markRemapped s))
      else s) s)

/-- REMAP_COPY_DONE: the tile traffic is quiesced and the targets hold their tiles' images; those in `bad` fail WDIGEST. When none does, the COMMIT
record is being written (R345, R445). -/
def execRemapCopyDone (bad : List Nat) (s : State) : Host.Outcome State Fault Refusal :=
  .next (powered (fun s =>
    match s.boot.remap with
    | none => s
    | some r =>
      if r.step == .copying && trafficQuiet s then
        if r.entries.any fun e => bad.contains e.new then
          remapRetry r bad (bt (fun b => { b with quiesce := false }) s)
        else
          bt (fun b => { b with remap := some { r with step := .committing } }) s
      else s) s)

/-- REMAP_COMMIT_WRITTEN: the COMMIT record is in NVM; the map in force changes, tunnels are set, the old sites are off,
SINCE_KAT is 0 and the quiesce ends (R445). -/
def execRemapCommitWritten (s : State) : Host.Outcome State Fault Refusal :=
  .next (powered (fun s =>
    match s.boot.remap with
    | none => s
    | some r =>
      if r.step == .committing && trafficQuiet s then
        let s := journalAdd 2 r.id r.entries s
        let m := applyEntries s r.entries s.boot.map
        let ts := r.entries.map (·.tile)
        let s := bt (fun b => { b with map := m, quiesce := false, remap := some { r with step := .ending } }) s
        let s := openSites (r.entries.map (·.old)) s
        let s := resetTileRegs ts s
        let s := ts.foldl (fun s t => reloadTile t (sinceKatZero t s)) s
        let s := { s with req := { s.req with loaded := s.req.loaded.filter fun l => !ts.contains l.2.1, inputs := [] } }
        let s := quiesceTables (resetChannels ts s)
        logOpen sevDegrade kRepair bSup 445 3 r.id (upd supRemapStat SupRemapStat.state 4 s)
      else s) s)

/-- REMAP_END_WRITTEN: the map record and END are in NVM, and the next remap that waits begins (R443, R445). -/
def execRemapEndWritten (s : State) : Host.Outcome State Fault Refusal :=
  .next (powered (fun s =>
    match s.boot.remap with
    | none => s
    | some r =>
      if r.step == .ending then
        let s := bt (fun b => { b with map := { b.map with remapId := r.id }, remap := none }) s
        let s := journalAdd 3 r.id r.entries (writeMap s)
        let s := satAdd supRemapStat SupRemapStat.total 1 (upd supRemapStat SupRemapStat.state 0 s)
        startRemap (logOpen sevNotice kRepair bSup 445 4 r.id (lifeCount 76 2 1 s))
      else s) s)

/-- The DORMANT sites of a field that may be promoted, in ascending order (R434, R449). -/
def promotable (s : State) (f : Nat) : List Nat :=
  (sitesWith s.boot.map f stDormant).filter fun n => !s.boot.noPromote.contains n

/-- STANDBY_PROMOTE: a live field with fewer than 8 STANDBY sites promotes its DORMANT site of lowest number once it
passes KAT_RUN; a site that fails becomes FAILED with CAUSE 1 (R434). None runs between BEGIN and END of a remap. -/
def execStandbyPromote (f : FieldId) (katPass : Bool) (s : State) : Host.Outcome State Fault Refusal :=
  .next (powered (fun s =>
    if s.boot.remap.isSome || !fieldLive s f || decide (8 ≤ (sitesWith s.boot.map f stStandby).length) then s
    else match promotable s f with
      | [] => s
      | n :: _ =>
        let m := if katPass then mapSetStatus n stStandby s.boot.map else mapFail n 1 s.boot.map
        let s := addR (intCnt IntCnt.katRuns) 1 (if katPass then s else addR (intCnt IntCnt.katFails) 1 s)
        let s := writeMap (bt (fun b => { b with map := m }) s)
        logCoded (if katPass then sevNotice else sevDegrade) kRepair bSup 434 (b2n katPass) (b2n !katPass) n s) s)

/-! ### Resets -/

/-- Clusters that hold a logical site and are not dark. -/
def clustersToRun (s : State) : List Nat :=
  (List.range 240).filter fun g =>
    fieldLive s (clusterField g) && (get s (pwrClStat g) PwrClStat.state != 4 &&
      (clusterSites g).any fun n => siteStatus s n == stLogical)

/-- Steps 3 to 7 of a fabric reset (R442): the fabric domains take their reset values, the journal is recovered and the
maps are loaded, DEVTIME is loaded, the clusters are admitted, KAT_RUN passes, the active season is reloaded, and the
links are unfenced; the sites in `failed` fail KAT_RUN. In WINTER or SPRING the clusters stay off. A change of frequency that was pending is requested
again (R420). -/
def finishFabricReset (failed : List Nat) (s : State) : State :=
  let s := resetRegs (inGroup fun g => g == .tileFa || (g == .clusterFab || g == .fieldFab)) false s
  let j := journalRecover (fabricCleared s)
  let s := j.1
  let s := bt (fun b => { b with fabricReset := false }) (loadMap s)
  let s := { s with clock := { s.clock with synced := liveFields s, offset := [], slew := [] } }
  let s := chooseTs (upd clkStat ClkStat.pending (b2n s.clock.step.isSome) s)
  let s := if running s then
      let gs := clustersToRun s
      let s := gs.foldl (fun s g =>
        satAdd (pwrAdmitStat (clusterField g)) PwrAdmitStat.admitted 1 (clusterOn g s)) s
      reloadSeason (katAll failed s)
    else s
  let s := (List.range 96).foldl (fun s n => if fieldLive s (linkField n) then linkUnfence n s else s) s
  let s := rejoinPorts s
  if j.2.isEmpty then s
  else startRemap (bt (fun b => { b with remapQueue := j.2 ++ b.remapQueue }) s)

/-- FABRIC_RESET: the procedure of R442. It begins unless one is running, and completes once every live field's PLL is
locked. -/
def execFabricReset (cause : ResetCause) (failed : List Nat) (s : State) : Host.Outcome State Fault Refusal :=
  .next (powered (fun s =>
    let s := if s.boot.fabricReset then s else startFabricReset cause s
    if s.boot.fabricReset && (liveFields s).all fun f => s.clock.locked.contains f then
      finishFabricReset failed s
    else s) s)

/-- DEVICE_RESET (R437, R440, R441). -/
def execDeviceReset (cause : ResetCause) (s : State) : Host.Outcome State Fault Refusal :=
  .next (powered (deviceReset cause) s)

/-- FC_WATCHDOG_EXPIRE: a field controller has not served its heartbeat for 10 ms (R440). -/
def execFcWatchdogExpire (f : FieldId) (s : State) : Host.Outcome State Fault Refusal :=
  .next (powered (fun s =>
    if fieldLive s f then startFabricReset .fcWatchdog (logOpen sevError kFault bSup 440 5 f s) else s) s)

/-- SUP_WATCHDOG_EXPIRE: the supervisor's hardware timer takes a device reset (R440, R522). -/
def execSupWatchdogExpire (s : State) : Host.Outcome State Fault Refusal :=
  .next (powered (deviceReset .supWatchdog) s)

/-- A write of SUP_RESET_CMD by the owner: a fabric reset, a device reset, or the reserved OP, which discards it (R440,
R457). -/
def resetCmdWrite (m : Master) (op : Nat) (s : State) : State :=
  match op with
  | 0 => upd supResetCmd SupResetCmd.op 0 s
  | 1 => startFabricReset .owner (upd supResetCmd SupResetCmd.op 1 s)
  | 2 => deviceReset .owner s
  | _ => refusedWrite m supResetCmd 32 s

/-- RESET_CMD_FABRIC: the owner commands a fabric reset (R440, R457). -/
def execResetCmdFabric (m : Master) (s : State) : Host.Outcome State Fault Refusal :=
  .next (powered (asOwner m supResetCmd 32 (resetCmdWrite m 1)) s)

/-- RESET_CMD_DEVICE: the owner commands a device reset (R440, R457). -/
def execResetCmdDevice (m : Master) (s : State) : Host.Outcome State Fault Refusal :=
  .next (powered (asOwner m supResetCmd 32 (resetCmdWrite m 2)) s)

/-- RESET_CMD_RESERVED: OP 0b11 is discarded and logged (R457). -/
def execResetCmdReserved (m : Master) (s : State) : Host.Outcome State Fault Refusal :=
  .next (powered (asOwner m supResetCmd 32 (resetCmdWrite m 3)) s)

/-! ### Repair commands (R454, R459) -/

/-- Set the fields of SUP_REPAIR_CMD. -/
def setRepair (op field pending : Nat) (s : State) : State :=
  put supRepairCmd (BitVec.ofNat 64 (op + field * 4 + pending * 64)) s

/-- A write of SUP_REPAIR_CMD by the owner. REBUILD and RETRY_FIELD take effect at the next device or power-on reset; the
lost field's byte becomes "retry requested". CANCEL withdraws a pending command; any other OP is discarded while one is
pending, and so is RETRY_FIELD of a live field (R454, R459). -/
def repairCmdWrite (m : Master) (op f : Nat) (s : State) : State :=
  match s.boot.repair, op with
  | none, 0 => setRepair 0 f 0 s
  | none, 1 => setRepair 1 f 1 (bt (fun b => { b with repair := some (1, 0) }) s)
  | none, 2 =>
    if fieldLive s f || decide (12 ≤ f) then refusedWrite m supRepairCmd 32 s
    else
      let s := bt (fun b => { b with map := mapSetField f (mapField b.map f / 4 * 4 + 2) b.map
                                     repair := some (2, f) }) s
      logOpen sevNotice kRepair bSup 454 0 f (setRepair 2 f 1 (writeMap s))
  | none, _ => setRepair 3 f 0 s
  | some (o, g), 3 =>
    let s := bt (fun b => { b with repair := none }) s
    let s := if o = 2 then
        writeMap (bt (fun b => { b with map := mapSetField g (mapField b.map g / 4 * 4 + 1) b.map }) s)
      else s
    setRepair 3 f 0 s
  | some _, _ => refusedWrite m supRepairCmd 32 s

/-- REBUILD (R459). -/
def execRebuild (m : Master) (s : State) : Host.Outcome State Fault Refusal :=
  .next (powered (asOwner m supRepairCmd 32 (repairCmdWrite m 1 0)) s)

/-- RETRY_FIELD (R454, R459). -/
def execRetryField (m : Master) (f : Nat) (s : State) : Host.Outcome State Fault Refusal :=
  .next (powered (asOwner m supRepairCmd 32 (repairCmdWrite m 2 f)) s)

/-- CANCEL (R459). -/
def execCancel (m : Master) (s : State) : Host.Outcome State Fault Refusal :=
  .next (powered (asOwner m supRepairCmd 32 (repairCmdWrite m 3 0)) s)

end Sys2Proof.Machine
end

