-- ==== Sys2Proof/Machine/Nvm.lean ====
section
/-! DEFINITION. Firmware images and their verification, boot records, and the configuration record: its checks, and the
values that registers take from it (R461–R471, R477–R487). -/

namespace Sys2Proof.Machine

open Sys2Proof

/-- Change the store's own state. -/
def nv (f : NvmState → NvmState) (s : State) : State := { s with nvm := f s.nvm }

/-! ### Firmware slots (R461, R477–R479) -/

/-- What an erased byte of a slot reads as. -/
def slotDefault (_ : Nat) : Byte := 0xFF

/-- A firmware slot. -/
def fwSlot (s : State) (i : Nat) : Slot := if i = 0 then s.nvm.slotA else s.nvm.slotB

/-- Replace a slot. -/
def setSlot (i : Nat) (x : Slot) (s : State) : State :=
  nv (fun n => if i = 0 then { n with slotA := x } else { n with slotB := x }) s

/-- A byte of a slot. -/
def slotByteAt (s : State) (i a : Nat) : Byte :=
  let x := fwSlot s i
  if x.shipped then Config.slotByte i a else tget slotDefault x.cells a

/-- Bytes of a slot. -/
def slotBytes (s : State) (i a n : Nat) : List Byte := (List.range n).map fun k => slotByteAt s i (a + k)

/-- A little-endian number in a slot. -/
def slotNat (s : State) (i a n : Nat) : Nat := fromBytes (slotBytes s i a n)

/-- Whether bytes are all zero. -/
def allZero (bs : List Byte) : Bool := bs.all (· == 0)

/-- Component entry `k` of a slot's manifest. -/
def compAt (k : Nat) : Nat := 64 + 96 * k
def compType (s : State) (i k : Nat) : Nat := slotNat s i (compAt k) 1
def compOffset (s : State) (i k : Nat) : Nat := slotNat s i (compAt k + 4) 4
def compLength (s : State) (i k : Nat) : Nat := slotNat s i (compAt k + 8) 4
def compVersion (s : State) (i k : Nat) : Nat := slotNat s i (compAt k + 12) 4
def compDigest (s : State) (i k : Nat) : List Byte := slotBytes s i (compAt k + 32) 64

def manifestLen (s : State) (i : Nat) : Nat := slotNat s i 12 4
def imageLen (s : State) (i : Nat) : Nat := slotNat s i 16 4
def imageRelease (s : State) (i : Nat) : Nat := slotNat s i 20 4
def chainLen (s : State) (i : Nat) : Nat := slotNat s i 1536 4

/-- 240 MiB: the size of a slot. -/
def slotSizeMax : Nat := 240 * 2 ^ 20

/-- The largest LENGTH of a component type (R478); 0 for a code that is no type. -/
def compMax (ty : Nat) : Nat :=
  if ty = 2 then 8 * 2 ^ 20 else if ty = 3 then 65536 else if 1 ≤ ty ∧ ty ≤ 7 then 16 * 2 ^ 20 else 0

/-- The component of a type in a slot's manifest. -/
def compOf (s : State) (i ty : Nat) : Option Nat := (List.range 7).find? fun k => compType s i k == ty

/-- The structure rules of R477: magic, lengths, zero bytes, and components apart from each other and the manifest. -/
def structureOk (s : State) (i : Nat) : Bool :=
  let ml := (1544 + chainLen s i + 4095) / 4096 * 4096
  let apart (k : Nat) : Bool :=
    let o := compOffset s i k
    let n := compLength s i k
    o % 4096 == 0 && (decide (manifestLen s i ≤ o) && (decide (o + n ≤ imageLen s i) &&
      (List.range 7).all fun j => j == k || (decide (compOffset s i j + compLength s i j ≤ o) ||
        decide (o + n ≤ compOffset s i j))))
  slotNat s i 0 8 == 0x5453464E414D5946 && (slotNat s i 8 2 == 1 && (slotNat s i 10 2 == 7 &&
    (manifestLen s i == ml && (imageLen s i % 1024 == 0 && (decide (imageLen s i ≤ slotSizeMax) &&
      (allZero (slotBytes s i 28 36) && (allZero (slotBytes s i 736 288) && (allZero (slotBytes s i 1540 4) &&
        (List.range 7).all fun k => apart k && (allZero (slotBytes s i (compAt k + 1) 3) &&
          allZero (slotBytes s i (compAt k + 16) 16))))))))))

/-- The rules of R478: each type exactly once, with a LENGTH that is nonzero and within the type's limit. -/
def componentsOk (s : State) (i : Nat) : Bool :=
  ([1, 2, 3, 4, 5, 6, 7].all fun ty => ((List.range 7).filter fun k => compType s i k == ty).length == 1) &&
    (List.range 7).all fun k => decide (compLength s i k ≠ 0) && decide (compLength s i k ≤ compMax (compType s i k))

/-- Whether a component's bytes have its DIGEST. -/
def compDigestOk (s : State) (i k : Nat) : Bool :=
  sha512 (slotBytes s i (compOffset s i k) (compLength s i k)) == compDigest s i k

/-- Whether the component of a type is present with its DIGEST. -/
def typeOk (s : State) (i ty : Nat) : Bool :=
  match compOf s i ty with
  | some k => compDigestOk s i k
  | none => false

/-- SHA-512 of bytes 0 to 1023 of a slot's manifest. -/
def mdigest (s : State) (i : Nat) : List Byte := sha512 (slotBytes s i 0 1024)

/-- Boot reasons (R487). -/
def brSignature : Nat := 0x40
def brChain : Nat := 0x41
def brDigest : Nat := 0x42
def brStructure : Nat := 0x43
def brChanged : Nat := 0x44
def brBootLoop : Nat := 0x45
def brTrialTimer : Nat := 0x46
def brSpringLimit : Nat := 0x47
def brDeadline : Nat := 0x48
def brHealth : Nat := 0x49
def brOwnerReject : Nat := 0x4A
def brSlotCorrupt : Nat := 0x4B

/-- The verification of a slot's manifest in the order of R479, 0 when it passes. -/
def manifestFails (s : State) (i : Nat) : Nat :=
  match Config.chainSigner (slotBytes s i 1544 (chainLen s i)) with
  | none => brChain
  | some key =>
    if !Config.sigOk key (slotBytes s i 0 1024) (slotBytes s i 1024 512) then brSignature
    else if structureOk s i && componentsOk s i then 0 else brStructure

/-- The boot ROM's verification of a slot: its device serves, its manifest verifies, and the supervisor component has its
digest; the boot reason of the first failure, 0 when all pass (R479, R491). -/
def slotFails (s : State) (i : Nat) : Nat :=
  if s.nvm.failed.contains i then brSlotCorrupt
  else
    let m := manifestFails s i
    if m ≠ 0 then m else if typeOk s i 1 then 0 else brDigest

/-- Whether a slot verifies. -/
def slotVerifies (s : State) (i : Nat) : Bool := slotFails s i == 0

/-- The other slot. -/
def otherSlot (i : Nat) : Nat := if i = 0 then 1 else 0

/-- Set RELEASE of a slot from its manifest, or 0 (R495). -/
def setRelease (i : Nat) (held : Bool) (s : State) : State :=
  upd (nvmSlotStat i) NvmSlotStat.release (if held then imageRelease s i else 0) s

/-! ### Boot records (R483–R487) -/

/-- A CONFIRM, FALLBACK or REJECT enters the newest place of the lifetime record's FIRMWARE entries, and a lifetime record
is written (R525, R528). -/
def lifeFirmware (slot kind reason : Nat) (s : State) : State :=
  let w := fun j => lifeWord s (320 + j)
  let s := (List.range 14).foldl (fun s j => setLifeWord (322 + j) (w j) s) s
  let s := setLifeWord 320 (BitVec.ofNat 64 (imageRelease s slot + slot * 2 ^ 32 + kind * 2 ^ 40 + reason * 2 ^ 48)) s
  lifetimeWrite (setLifeWord 321 (BitVec.ofNat 64 (s.nvm.boots % 2 ^ 32)) s)

/-- Write a boot record, logged; NVM_UPD_STAT reports the newest (R483, R494, R498). -/
def writeBoot (kind active target tboots trialMin reason : Nat) (md : List Byte) (rom : Bool) (s : State) : State :=
  if !nvmOk s then s
  else
    let n := (s.nvm.bootRec.map (·.seq)).getD 0 + 1
    let r : BootRec := { kind := kind, active := active, seq := n, time := if rom then 0 else s.devtime, target := target
                         tboots := tboots, trialMin := trialMin, reason := reason, mdigest := md }
    let s := nvmPages arBoot 1 (nv (fun x => { x with bootRec := some r, bootPrev := x.bootRec }) s)
    let s := upd nvmUpdStat NvmUpdStat.active active (upd nvmUpdStat NvmUpdStat.lastKind kind s)
    let s := if kind = 5 ∨ kind = 6 then
        upd nvmUpdStat NvmUpdStat.lastReason reason (nv (fun x => { x with lastReason := reason }) s) else s
    let s := logCoded (if kind = 5 ∨ kind = 6 then sevDegrade else sevNotice) kConfig bNvm 483 kind
      (if kind = 5 ∨ kind = 6 then reason else kind) target s
    if 4 ≤ kind then lifeFirmware target kind reason s else s

/-- The confirmed slot, as the newest boot record names it. -/
def fwActive (s : State) : Nat := get s nvmUpdStat NvmUpdStat.active

/-- The slot that is not the confirmed one. -/
def fwInactive (s : State) : Nat := otherSlot (fwActive s)

/-- Whether the firmware that runs is on trial. -/
def onTrial (s : State) : Bool := get s nvmUpdStat NvmUpdStat.trial == 1

/-- The trial firmware falls back with a reason: a FALLBACK record, and a device reset with cause FIRMWARE (R485, R487). -/
def fallback (reason : Nat) (s : State) : State :=
  let a := fwActive s
  let t := otherSlot a
  let s := setFwSlot t fsInvalid reason s
  deviceReset .firmware (writeBoot 5 a t 0 0 reason [] false s)

/-! ### The configuration record (R466–R471) -/

/-- Bytes of a record in the store. -/
def cfgBytes : CfgRec → List Byte
  | .factory => Config.factoryRecord
  | .record bs => bs

/-- A little-endian field of a record's bytes. -/
def cf (bs : List Byte) (off n : Nat) : Nat := fieldAt bs off n

/-- SEQ of a record. -/
def cfgSeq (r : CfgRec) : Nat := cf (cfgBytes r) 8 4

/-- Results of INSTALL and ENROLL (R470). -/
def crOk : Nat := 0
def crMagic : Nat := 1
def crVersion : Nat := 2
def crLength : Nat := 3
def crCrc : Nat := 4
def crDigest : Nat := 5
def crAuthority : Nat := 6
def crSignature : Nat := 7
def crSeq : Nat := 8
def crDevice : Nat := 9
def crRange : Nat := 10
def crEnrollFull : Nat := 12
def crEnrollSignature : Nat := 13
def crEnrollFormat : Nat := 14

/-- Checks 0x01 to 0x05 of a record. -/
def cfgForm (bs : List Byte) : Nat :=
  if cf bs 0 4 ≠ 0x47464E43 then crMagic
  else if cf bs 4 2 ≠ 1 then crVersion
  else if cf bs 20 4 ≠ 1536 then crLength
  else if cf bs 28 4 ≠ crc32 (zeroed bs 28 4) then crCrc
  else if (bs.drop 32).take 64 ≠ sha512 (zeroed (zeroed (bs.take 1024) 28 4) 32 64) then crDigest
  else 0

/-- Check 0x07: the signature of a record under a key. -/
def cfgSigned (key bs : List Byte) : Bool := Config.sigOk key (zeroed (bs.take 1024) 28 4) ((bs.drop 1024).take 512)

/-- Check 0x09. -/
def cfgForDevice (bs : List Byte) : Bool := cf bs 96 16 == 0 || cf bs 96 16 == Config.dieId.toNat

/-- The ranges of bytes that a record holds zero (R469). -/
def cfgZeros : List (Nat × Nat) :=
  [(7, 1), (24, 4), (112, 16), (188, 4), (197, 3), (221, 3), (240, 16), (512, 512)]

/-- The eligible masters of a record hold distinct priorities, and there is one (R470). -/
def cfgMasters (bs : List Byte) : Bool :=
  let e := (List.range 3).filter fun i => bit1 (cf bs 130 1) i
  !e.isEmpty && e.all fun i => e.all fun j => i == j || bits (cf bs 131 1) (2 * i) 2 != bits (cf bs 131 1) (2 * j) 2

/-- Check 0x0A: every field within its range and reserved bytes zero. -/
def cfgInRange (bs : List Byte) : Bool :=
  let within (off n lo hi : Nat) : Bool := decide (lo ≤ cf bs off n) && decide (cf bs off n ≤ hi)
  let range (off : Nat) : Bool := decide (bits (cf bs off 4) 10 10 ≤ 512) && decide (cf bs off 4 < 2 ^ 20)
  let test := cf bs 146 1
  (cfgZeros.all fun z => allZero ((bs.drop z.1).take z.2)) &&
    (within 130 1 0 7 && (within 131 1 0 63 && (within 132 2 10 1000 && (range 136 && (range 140 &&
      (within 144 1 0 168 && (within 147 1 0 5 && (within 148 2 2000 12000 && (within 151 1 1 120 &&
        (within 196 1 0 32 && (within 220 1 0 128 && ([8, 9, 10, 12, 16].contains (cf bs 150 1) &&
          (decide (test % 4 ≤ 2) && (decide (test / 4 % 4 ≤ 2) && (decide (test < 16) && cfgMasters bs)))))))))))))))

/-- The digest in an enrollment slot. -/
def otpKey (s : State) (i : Nat) : Option (List Byte) := s.nvm.otp[i]?

/-- The result of the checks of R470 on a record that is to be installed. -/
def installResult (s : State) (bs : List Byte) : Nat :=
  let f := cfgForm bs
  let a := cf bs 6 1
  if f ≠ 0 then f
  else if a + 1 ≠ s.nvm.otp.length then crAuthority
  else if !cfgSigned ((otpKey s a).getD []) bs then crSignature
  else if cf bs 8 4 ≤ cfgSeq s.nvm.cfg ∨ cf bs 8 4 = 0 then crSeq
  else if !cfgForDevice bs then crDevice
  else if !cfgInRange bs then crRange
  else crOk

/-- OPERATOR as the newest device record holds it; when none can be read, whether an enrollment slot is used (R468). -/
def operatorSet (s : State) : Bool := if nvmOk s then s.nvm.operator else !s.nvm.otp.isEmpty

/-- Whether the boot ROM's verification passes a record in the store (R468, R471). -/
def cfgVerifies (s : State) (r : CfgRec) : Bool :=
  let bs := cfgBytes r
  let a := cf bs 6 1
  cfgForm bs == 0 && (cfgForDevice bs &&
    (match r with
      | .factory => a == 0xFF && (!operatorSet s && (cfgSigned factoryKey bs && Config.factoryChainOk))
      | .record _ => (a + 1 == s.nvm.otp.length || a + 2 == s.nvm.otp.length) && cfgSigned ((otpKey s a).getD []) bs))

/-- SELECT_PENDING: CFG_SELECT differs from IN_FORCE. -/
def noteSelect (s : State) : State :=
  upd nvmCfgStat NvmCfgStat.selectPending (b2n (s.nvm.select != get s nvmCfgStat NvmCfgStat.inForce)) s

/-- Record the choice of record in the device record (R471). -/
def selectCfg (v : Nat) (s : State) : State :=
  noteSelect (writeDevice (logOpen sevNotice kConfig bNvm 471 v v (nv (fun n => { n with select := v }) s)))

/-- Install a record that is judged by R470: RESULT, and when it passes, the change of records (R468, R470). -/
def installCfg (bs : List Byte) (s : State) : Nat × State :=
  let r := installResult s bs
  let s := upd nvmCfgStat NvmCfgStat.result r s
  let s := logCoded sevNotice kConfig bNvm 470 r r (cf bs 8 4) s
  if r ≠ crOk then (r, s)
  else
    let s := nvmPages arCfg 6 (nv (fun n =>
      { n with cfg := .record bs, prev := some n.cfg, select := 0, operator := true }) s)
    (r, noteSelect (writeDevice (upd nvmCfgStat NvmCfgStat.operator 1 s)))

/-- The result of ENROLL on a blob (R467, R470). -/
def enrollResult (s : State) (bs : List Byte) : Nat :=
  let cl := cf bs 0 4
  let sl := cf bs 4 4
  let cert := (bs.drop 8).take cl
  if 4 ≤ s.nvm.otp.length then crEnrollFull
  else if !s.nvm.otp.isEmpty &&
      !(sl == 512 && Config.sigOk (s.nvm.otp.getLast?.getD []) cert ((bs.drop (8 + cl)).take 512)) then crEnrollSignature
  else if 8192 < 8 + cl + sl ∨ (sl ≠ 0 ∧ sl ≠ 512) ∨ (Config.certKey cert).isNone then crEnrollFormat
  else crOk

/-- Enroll an authority: a success burns the digest of its key (R467). -/
def enrollBlob (bs : List Byte) (s : State) : Nat × State :=
  let r := enrollResult s bs
  let s := upd nvmCfgStat NvmCfgStat.result r s
  let s := logCoded sevNotice kConfig bNvm 467 r r s.nvm.otp.length s
  if r ≠ crOk then (r, s)
  else
    let key := (Config.certKey ((bs.drop 8).take (cf bs 0 4))).getD []
    let s := nv (fun n => { n with otp := n.otp ++ [key] }) s
    (r, upd nvmCfgStat NvmCfgStat.enrolled s.nvm.otp.length s)

/-! ### The values in force (R469, R471) -/

/-- Bytes of the record in force; none under the restricted defaults. -/
def inForce (s : State) : Option (List Byte) := s.nvm.inForce.map cfgBytes

/-- LNK_CTRL of every link from a record, and LNK_FDN. -/
def loadLinks (bs : List Byte) (s : State) : State :=
  let s := put lnkFdn (BitVec.ofNat 64 (cf bs 128 2 + b2n (cf bs 128 2 != 0xFFFF) * 2 ^ 16)) s
  (List.range 96).foldl (fun s n =>
    let o := lnkCtrl n
    upd o LnkCtrl.enable (b2n (bit1 (cf bs 152 12) n)) (upd o LnkCtrl.rate (b2n (bit1 (cf bs 164 12) n))
      (upd o LnkCtrl.medium (b2n (bit1 (cf bs 176 12) n)) s))) s

/-- The registers take their values from a record (R469). -/
def loadCfg (bs : List Byte) (s : State) : State :=
  let s := loadLinks bs s
  let p := cf bs 131 1
  let s := upd ownCfg OwnCfg.elig (cf bs 130 1) (upd ownCfg OwnCfg.prioHa (p % 4) (upd ownCfg OwnCfg.prioHb (p / 4 % 4)
    (upd ownCfg OwnCfg.prioSvc (p / 16 % 4) s)))
  let s := upd ownCfg OwnCfg.leaseMs (cf bs 132 2) (upd ownCfg OwnCfg.claimWinMs (cf bs 134 2) s)
  let s := put (ownHeadRange 0) (BitVec.ofNat 64 (cf bs 136 4)) (put (ownHeadRange 1) (BitVec.ofNat 64 (cf bs 140 4)) s)
  let s := upd hbmCtrl HbmCtrl.scrubHours (cf bs 144 1) (upd hbmCtrl HbmCtrl.ceLimit (cf bs 145 1) s)
  let s := upd hbmCtrl HbmCtrl.testPor (min 2 (cf bs 146 1 % 4)) (upd hbmCtrl HbmCtrl.testDev (min 2 (cf bs 146 1 / 4 % 4)) s)
  let s := upd intCtrl IntCtrl.mode (cf bs 147 1) (upd pwrLimit PwrLimit.sustW (cf bs 148 2) s)
  upd clkCtrl ClkCtrl.targetDiv (cf bs 150 1) (upd nvmUpdCtrl NvmUpdCtrl.trialMin (cf bs 151 1) s)

/-- The restricted defaults (R471). -/
def loadRestricted (s : State) : State :=
  let s := put lnkFdn 0xFFFF s
  let s := upd ownCfg OwnCfg.elig 3 (upd ownCfg OwnCfg.prioHa 0 (upd ownCfg OwnCfg.prioHb 1 s))
  let s := upd ownCfg OwnCfg.leaseMs 100 (upd ownCfg OwnCfg.claimWinMs 1000 s)
  let s := put (ownHeadRange 0) (BitVec.ofNat 64 (16 * 2 ^ 10)) (put (ownHeadRange 1) (BitVec.ofNat 64 (16 + 16 * 2 ^ 10)) s)
  upd nvmUpdCtrl NvmUpdCtrl.trialMin 30 s

/-- The record that CFG_SELECT names. -/
def selectedCfg (s : State) : Option CfgRec := if s.nvm.select = 0 then some s.nvm.cfg else s.nvm.prev

/-- Whether some device holds a copy of a record whose checks of form pass. -/
def cfgIntact (s : State) (flips : List NvmFlip) (back : Nat) (r : CfgRec) : Bool :=
  flips.isEmpty || ([false, true].filter fun d => !s.nvm.failed.contains (b2n d)).any fun d =>
    cfgForm (readBack flips d .config back (cfgBytes r)) == 0

/-- The boot ROM selects and verifies the configuration record: the one CFG_SELECT names, else the other with the
substitution logged, else the restricted defaults (R471); `flips` are the bits of stored copies that do not read back. -/
def configSelect (flips : List NvmFlip) (s : State) : State :=
  let passes (r : Option CfgRec) (back : Nat) : Bool := match r with
    | some x => cfgVerifies s x && cfgIntact s flips back x
    | none => false
  let a := selectedCfg s
  let b := if s.nvm.select = 0 then s.nvm.prev else some s.nvm.cfg
  let use (r : Option CfgRec) (which : Nat) (s : State) : State :=
    let s := nv (fun n => { n with inForce := r }) s
    let bs := (r.map cfgBytes).getD []
    loadCfg bs (upd nvmCfgStat NvmCfgStat.inForce which (upd nvmCfgStat NvmCfgStat.seq (cf bs 8 4) s))
  let s := upd nvmCfgStat NvmCfgStat.enrolled s.nvm.otp.length (upd nvmCfgStat NvmCfgStat.operator (b2n (operatorSet s)) s)
  let s :=
    if passes a s.nvm.select then use a s.nvm.select s
    else if passes b (1 - s.nvm.select) then logOpen sevNotice kConfig bNvm 471 8 (1 - s.nvm.select) (use b (1 - s.nvm.select) s)
    else
      let s := logOpen sevDegrade kConfig bNvm 471 9 0 (nv (fun n => { n with inForce := none }) s)
      loadRestricted (upd nvmCfgStat NvmCfgStat.restricted 1 s)
  noteSelect s

end Sys2Proof.Machine
end

