-- ==== Sys2Proof/Machine/Functions.lean ====
section
/-! DEFINITION. The functions of the stream processor to well beyond FP32's precision, in fixed point, and the error bounds
that the function ROM keeps (R75, R77). -/

namespace Sys2Proof.Machine

open Sys2Proof

/-! ### Fixed point: a number stands for itself over 2^320 -/

/-- Bits of the fraction, and one. -/
def fxBits : Nat := 320
def fxOne : Int := 2 ^ fxBits

def fxMul (a b : Int) : Int := a * b / fxOne
def fxDiv (a b : Int) : Int := a * fxOne / b

/-- ± m × 2^e. -/
def fxOf (neg : Bool) (m : Nat) (e : Int) : Int :=
  let k := e + fxBits
  let v : Int := if 0 ≤ k then m * 2 ^ k.toNat else m / 2 ^ (-k).toNat
  if neg then -v else v

/-- The sum of `n` terms of x^i ÷ i! from term `i` on. -/
def expTerms (x : Int) : Nat → Nat → Int → Int
  | 0, _, _ => 0
  | n + 1, i, t => t + expTerms x n (i + 1) (fxMul t x / (i + 1 : Nat))

/-- e^x. -/
def fxExp (x : Int) : Int :=
  if x < 0 then fxDiv fxOne (expTerms (-x) 500 0 fxOne) else expTerms x 500 0 fxOne

/-- The sum of `n` terms of w^i ÷ i over odd i, from power `p` of w, with `s` for the square of w. -/
def oddTerms (s : Int) : Nat → Nat → Int → Int
  | 0, _, _ => 0
  | n + 1, i, p => p / (i : Nat) + oddTerms s n (i + 2) (fxMul p s)

/-- ln z for z in [1, 2]. -/
def fxLnNear (z : Int) : Int :=
  let w := fxDiv (z - fxOne) (z + fxOne)
  2 * oddTerms (fxMul w w) 120 1 w

/-- ln 2. -/
def fxLn2 : Int := fxLnNear (2 * fxOne)

/-- ln x for x > 0. -/
def fxLn (x : Int) : Int :=
  let k : Int := (Nat.log2 x.toNat : Int) - fxBits
  let z := if 0 ≤ k then x / 2 ^ k.toNat else x * 2 ^ (-k).toNat
  fxLnNear z + k * fxLn2

/-- Bits `n` − 1 and below of the square root of `v`, given those above. -/
def sqrtBits (v : Nat) : Nat → Nat → Nat
  | 0, r => r
  | n + 1, r => let c := r + 2 ^ n; sqrtBits v n (if c * c ≤ v then c else r)

/-- The square root of x ≥ 0. -/
def fxSqrt (x : Int) : Int := sqrtBits (x.toNat * 2 ^ fxBits) 480 0

/-- arctan(1 ÷ n). -/
def fxAtanInv (n : Nat) : Int := oddTerms (-(fxDiv fxOne (n * n * fxOne))) 120 1 (fxOne / n)

/-- π, by Machin's formula. -/
def fxPi : Int := 16 * fxAtanInv 5 - 4 * fxAtanInv 239

/-- The sum of `n` terms of x^(2i+1) ÷ (1 · 3 · 5 ⋯ (2i+1)), from one of them, with `s` for the square of x. -/
def phiTerms (s : Int) : Nat → Nat → Int → Int
  | 0, _, _ => 0
  | n + 1, i, t => t + phiTerms s n (i + 2) (fxMul t s / (i + 2 : Nat))

/-- Φ(x), the normal distribution function, for |x| ≤ 8. -/
def fxPhi (x : Int) : Int :=
  let s := fxMul x x
  fxOne / 2 + fxMul (fxDiv (fxExp (-(s / 2))) (fxSqrt (2 * fxPi))) (phiTerms s 400 1 x)

/-- The exact value of a function at x (R75). -/
def fxFunction (fn : SpFn) (x : Int) : Int :=
  match fn with
  | .exp => fxExp x
  | .log2 => fxDiv (fxLn x) fxLn2
  | .recip => fxDiv fxOne x
  | .rsqrt => fxDiv fxOne (fxSqrt x)
  | .tanh => let e := fxExp (2 * x); fxDiv (e - fxOne) (e + fxOne)
  | .sigmoid => fxDiv fxOne (fxOne + fxExp (-x))
  | .gelu => fxMul x (fxPhi x)
  | .silu => fxDiv x (fxOne + fxExp (-x))
  | .softplus => fxLn (fxOne + fxExp x)

/-! ### Error bounds (R75, R77) -/

/-- ulp(y) of a format, in fixed point. -/
def fxUlp (f : FpFmt) (y : Int) : Int :=
  let top : Int := if y = 0 then 1 - f.bias else max ((Nat.log2 y.natAbs : Int) - fxBits) (1 - f.bias)
  fxOf false 1 (top - f.mb)

/-- The bounds of a function in FP32: ULP, and the absolute bound as an exponent of 2 at an argument, where one is given. -/
def fnUlps (fn : SpFn) : Nat :=
  match fn with
  | .exp => 2
  | .log2 => 2
  | .recip => 2
  | .rsqrt => 6
  | .tanh => 48
  | .sigmoid => 48
  | .gelu => 64
  | .silu => 64
  | .softplus => 32
def fnAbs (fn : SpFn) (x : Int) : Int :=
  match fn with
  | .log2 => if fxOne / 2 ≤ x ∧ x < 2 * fxOne then fxOf false 1 (-22) else 0
  | .exp => 0
  | .recip => 0
  | .rsqrt => 0
  | _ => fxOf false 1 (-24)

/-- Whether a code of a format lies within `n` ULP, or within `a`, of the exact value. -/
def fxWithin (f : FpFmt) (n : Nat) (a y : Int) (r : Nat) : Bool :=
  match decodeFp f r with
  | .fin neg m e => decide (((fxOf neg m e - y).natAbs : Int) ≤ max ((if y = 0 then 0 else n) * fxUlp f y) a)
  | _ => false

/-- The code of a format nearest to the exact value. -/
def fxNearest (f : FpFmt) (y : Int) : Nat := encodeInf f (.fin (decide (y < 0)) y.natAbs (-(fxBits : Int)))

/-- A result held within its bound: itself, or the nearest code where it lies outside. -/
def fxHold (f : FpFmt) (n : Nat) (a y : Int) (r : Nat) : Nat := if fxWithin f n a y r then r else fxNearest f y

/-- What the function ROM gives for an FP32 argument ± m × 2^e in the evaluated interval: a fixed function of the input bits
that the ROM's coefficients decide, within the bound of R75; tanh is odd. -/
def romValue (fn : SpFn) (code : Nat) (x : Nat) (neg : Bool) (m : Nat) (e : Int) : Nat :=
  if fn = .tanh ∧ neg then
    fFp32.signBit + fxHold fFp32 (fnUlps fn) (fnAbs fn (fxOf false m e)) (fxFunction fn (fxOf false m e))
      ((Config.spFunction code (x % fFp32.signBit)).toNat % fFp32.signBit)
  else
    let v := fxOf neg m e
    fxHold fFp32 (fnUlps fn) (fnAbs fn v) (fxFunction fn v) (Config.spFunction code x).toNat

end Sys2Proof.Machine
end

