-- ==== Sys2Proof/Machine/ArrayOps.lean ====
section
/-! DEFINITION. Pass descriptors, the weight front and the arrays' progress in one TCLK (R82–R99, R224). -/

namespace Sys2Proof.Machine

open Sys2Proof

/-! ### Pass descriptors (R88, R89) -/

/-- A number in the instruction store. -/
def istoreNat (x : TileState) (a n : Nat) : Nat := fromBytes (cellsRead x.istore a n)

/-- Offset of the pass descriptor that a unit names. -/
def passOff (target : Nat) : Nat := 0x10000 + 32 * target

/-- A pass descriptor. -/
def passDesc (x : TileState) (target : Nat) : Nat := istoreNat x (passOff target) 32

def pdWfmt (p : Nat) : Nat := bits p 0 4
def pdAfmt (p : Nat) : Nat := bits p 4 4
def pdCoded (p : Nat) : Bool := bit1 p 8
def pdAccSrc (p : Nat) : Nat := bits p 9 2
def pdOutDst (p : Nat) : Nat := bits p 11 2
def pdOfmt (p : Nat) : Nat := bits p 13 4
def pdShift (p : Nat) : Int := signed 7 (bits p 17 7)
def pdMask (p : Nat) : Nat := bits p 24 4
def pdBlkA (p : Nat) : Nat := bits p 32 17
def pdAnchor (p : Nat) : Nat := bits p 64 17
def pdNvec (p : Nat) : Nat := bits p 96 13
def pdAin (p : Nat) : Nat := bits p 128 16
def pdStride (p : Nat) : Nat := bits p 144 16
def pdPm (p : Nat) : Nat := bits p 160 14
def pdOut (p : Nat) : Nat := bits p 192 16
def pdAccCh (p : Nat) : Nat := bits p 208 8
def pdOutCh (p : Nat) : Nat := bits p 216 8
def pdBlkB (p : Nat) : Nat := bits p 224 17

/-- Whether a pass multiplies 16-bit floats, whose beats are 4 TCLK (R82). -/
def is16 (p : Nat) : Bool := pdAfmt p == 0xB || pdAfmt p == 0xC

/-- The arrays a pass enables. -/
def enabled (p : Nat) : List Nat := (List.range 4).filter (bit1 (pdMask p))

/-- Units of an output vector, g_out of R90, by format code. -/
def gOut (ofmt : Nat) : Nat :=
  if ofmt = 0xB ∨ ofmt = 0xC then 2 else if ofmt = 0xD then 4 else if ofmt = 0xE then 12 else 1

/-- The 4-bit modes, whose cells hold two weights (R83). -/
def isPair (p : Nat) : Bool :=
  (pdWfmt p == 6 && pdAfmt p == 6) || ((pdWfmt p == 9 && pdAfmt p == 9) || pdWfmt p == 0xA)

/-- Whether a pass's blocks are coded; coding never applies to 16-bit floats (R65). -/
def isCoded (p : Nat) : Bool := pdCoded p && !(pdWfmt p == 0xB || pdWfmt p == 0xC)

/-- Units of an activation vector, g_in of R90: 2 for 16-bit floats and for ternary × INT8. -/
def gIn (p : Nat) : Nat := if is16 p ∨ (pdWfmt p = 0xA ∧ pdAfmt p = 0x8) then 2 else 1

/-! ### One TCLK of the arrays -/

/-- bitrev6 of R98. -/
def bitrev6 (c : Nat) : Nat :=
  (List.range 6).foldl (fun a i => a + (if bit1 c i then 2 ^ (5 - i) else 0)) 0

/-- The issue limit in force at a tile. -/
def issueLimitOf (s : State) (t : Nat) : Nat := get s (tilStat t) TilStat.limit

/-- Whether the present TCLK of a tile, which its count includes, is an issue clock: its place in the frame is 0 in the first
TCLK after the frame's start (R98). -/
def issueClock (s : State) (t : Nat) : Bool :=
  let x := tile s t
  decide (bitrev6 ((x.tclk + 63 - x.frame % 64) % 64) < issueLimitOf s t)

/-- TCLK of a beat of a pass (R82). -/
def beatLen (p : Nat) : Nat := if is16 p then 4 else 1

/-- The pass whose vectors enter: the running one with vectors left, by position. -/
def enteringPass (x : TileState) : Option (Nat × PassRun) :=
  findIdxFrom (fun r => r.phase == .running && decide (r.entered < pdNvec (passDesc x r.job.target))) 0 x.passes

/-- Replace a pass in flight. -/
def setPass (i : Nat) (r : PassRun) (x : TileState) : TileState := { x with passes := x.passes.set i r }

/-- Ring units that one vector's partials or outputs take on a channel, over the enabled arrays (R224). -/
def vectorUnits (p g : Nat) : Nat := (enabled p).length * g

/-- Bytes of a ring that vectors in the arrays are still to read from it (R224). -/
def claimed (x : TileState) (ch : Nat) : Nat :=
  (x.passes.map fun r =>
    let p := passDesc x r.job.target
    if pdAccSrc p = 2 ∧ pdAccCh p = ch then 64 * vectorUnits p 12 * r.exits.length else 0).foldl (· + ·) 0

/-- Whether a lattice ring makes the next vector wait (R224). -/
def mustPace (s : State) (t p : Nat) : Bool :=
  (pdAccSrc p == 2 &&
    decide ((chan s t (pdAccCh p)).held < claimed (tile s t) (pdAccCh p) + 64 * vectorUnits p 12)) ||
    (pdOutDst p == 2 && decide ((chan s t (pdOutCh p)).credits < vectorUnits p (gOut (pdOfmt p))))

/-- The accumulate stage takes the lattice partials of one vector: they are read from the PM ring, and its units are free
again (R86, R223). -/
def takePartials (t p : Nat) (s : State) : List Byte × State :=
  if pdAccSrc p = 2 then
    let ch := pdAccCh p
    let e := chanEntry s t ch
    let c := chan s t ch
    let n := 64 * vectorUnits p 12
    let size := 64 * chRsize e
    let base := 64 * (taskBase (taskEntry s t (chTask e)) memPm + chRbase e)
    let start := (c.ring + size * 4096 - c.held) % max 1 size
    let bs := (List.range n).flatMap fun i => memRead (tile s t) memPm (base + (start + i) % max 1 size) 1
    (bs, returnCredits t ch (n / 64) (setChan t ch { c with held := c.held - n } s))
  else ([], s)

/-- Take the send credits of one vector's outputs. -/
def takeSend (t p : Nat) (s : State) : State :=
  if pdOutDst p = 2 then
    let c := chan s t (pdOutCh p)
    setChan t (pdOutCh p) { c with credits := c.credits - vectorUnits p (gOut (pdOfmt p)) } s
  else s

/-- TCLK from the one in which a vector enters to the one at the end of which its outputs are written (R85, R86, R92). -/
def transit (p : Nat) : Nat := if is16 p then 3 + 258 else 69

/-- A vector enters row 0. -/
def enterVector (t i : Nat) (r : PassRun) (s : State) : State :=
  let p := passDesc (tile s t) r.job.target
  let s := takeSend t p s
  let x := tile s t
  let r' := { r with entered := r.entered + 1, exits := r.exits ++ [x.tclk + transit p] }
  let x' := { setPass i r' x with
    bubbleEnd := if r.entered = 0 then x.frontAt + beatLen p else x.bubbleEnd
    beatAt := x.tclk, beatEnd := x.tclk + beatLen p - 1 }
  tileCount1 t (tilCnt t TilCnt.tilBusyCnt) 1 (setTile t x' s)

/-- A front has latched its last row once 64 beats have passed since its start (R93). -/
def noteLatched (t : Nat) (s : State) : State :=
  let x := tile s t
  if x.frontAt ≤ x.tclk + 1 ∧ get s (tilStat t) TilStat.front = 1 then
    let ps := x.passes.map fun r => if r.phase = .running then { r with latched := true } else r
    upd (tilStat t) TilStat.front 0 (setTile t { x with passes := ps } s)
  else s

/-- A TCLK in which no vector enters and none waits: a bubble while the 64 beats of the pass that entered last are not over
(R95). -/
def emptyBeat (t : Nat) (s : State) : State :=
  let x := tile s t
  if x.tclk < x.bubbleEnd then tileCount1 t (tilCnt t TilCnt.tilFrontwaitCnt) 1 s else s

/-- The arrays' first row in one TCLK: a 16-bit beat goes on; else the next vector enters unless a ring makes it wait or the
TCLK is no issue clock; else no vector enters (R95, R98, R99, R224). -/
def arraysEnter (t : Nat) (s : State) : State :=
  let x := tile s t
  if x.tclk ≤ x.beatEnd then tileCount1 t (tilCnt t TilCnt.tilBusyCnt) 1 s
  else match enteringPass x with
    | some (i, r) =>
      if x.tclk < x.vecAt then emptyBeat t s
      else if mustPace s t (passDesc x r.job.target) then addR (latPaceCnt t) 1 s
      else if !issueClock s t then tileCount1 t (tilCnt t TilCnt.tilLimitCnt) 1 s
      else enterVector t i r s
    | none => emptyBeat t s

/-- Whether a pair of formats is accepted (R48). -/
def pairOk (w a : Nat) : Bool :=
  (decide (w ≤ 1) && decide (a ≤ 1)) ||
  ((w == 2 || w == 3) && (a == 2 || a == 3)) ||
  ((w == 4 || w == 5) && (decide (2 ≤ a) && decide (a ≤ 5))) ||
  (w == 6 && (decide (2 ≤ a) && decide (a ≤ 6))) ||
  (w == 7 && a == 7) || (w == 8 && a == 8) || (w == 9 && (a == 8 || a == 9)) ||
  (w == 0xA && (a == 8 || a == 9)) || (w == 0xB && a == 0xB) || (w == 0xC && a == 0xC)

/-- The checks of R91 that do not depend on the task: formats, reserved fields, AMASK, NVEC, OFMT and selectors. DEDUCED: an NVEC
above the 4096 that R88 allows is refused as one of 0 is. -/
def passOk (p : Nat) : Bool :=
  pairOk (pdWfmt p) (pdAfmt p) && (pdMask p != 0 && (decide (1 ≤ pdNvec p ∧ pdNvec p ≤ 4096) &&
    (pdOfmt p != 0xF && (pdAccSrc p != 3 && (pdOutDst p != 3 &&
      (bits p 28 4 == 0 && (bits p 49 15 == 0 && (bits p 81 15 == 0 && (bits p 109 19 == 0 &&
        (bits p 174 18 == 0 && bits p 241 15 == 0))))))))))

end Sys2Proof.Machine
end

