-- ==== Sys2Proof/Machine/Flags.lean ====
section
/-! DEFINITION. The arithmetic status of a tile: TIL_ARITH_STAT (R61, R79). -/

namespace Sys2Proof.Machine

open Sys2Proof

/-- Count outputs converted from NaR. -/
def noteNar (t n : Nat) (s : State) : State :=
  if n = 0 then s
  else satAdd (tilArithStat t) TilArithStat.narCnt n (upd (tilArithStat t) TilArithStat.narSeen 1 s)

/-- Count outputs saturated in the final conversion or the MX pack. -/
def noteSat (t n : Nat) (s : State) : State :=
  if n = 0 then s
  else satAdd (tilArithStat t) TilArithStat.satCnt n (upd (tilArithStat t) TilArithStat.outSat 1 s)

/-- A weight decode fault (R72). -/
def noteDecFault (t : Nat) (s : State) : State := upd (tilArithStat t) TilArithStat.decFault 1 s

/-- Count the NaRs and the saturations of a list of conversions. -/
def noteConversions (t : Nat) (xs : List Num) (out : List (Nat × Bool)) (s : State) : State :=
  noteSat t (out.filter (·.2)).length (noteNar t (xs.filter (· == .nan)).length s)

end Sys2Proof.Machine
end

