-- ==== Sys2Proof/Machine/Lattice.lean ====
section
/-! DEFINITION. Lattice channels: sending and receiving messages and LA96 units, credits, tunnels (R219–R229). -/

namespace Sys2Proof.Machine

open Sys2Proof

/-! ### Sending (R220, R222, R226, R228, R229) -/

/-- Put a header word, if any, and bytes on a send entry's channel: gathered at the first tunnel; discarded when the receiving site
is off; else in the pass-through registers on their way to the receiving endpoint (R217, R218, R228, R229). -/
def putOnWire (t ch : Nat) (hdr : Option Nat) (bs : List Byte) (s : State) : State :=
  let e := chanEntry s t ch
  let dst := chPeerTile e
  let head := match hdr with
    | some h => channelWords e true (toBytes (chWidth e) h)
    | none => []
  let ws := head ++ channelWords e false bs
  let s := dropAside e ws.length s
  if chTunnel e then gatherAt dst (chPeerCh e) 0 (wordBytes ws) s
  else if siteOff s (siteOf s dst) then satAdd (latStat dst) LatStat.offDrop ws.length s
  else
    let c := chan s dst (chPeerCh e)
    setChan dst (chPeerCh e) { c with wire := c.wire ++ ws } s

/-- The header word of a landing message (R220). -/
def landingHeader (tag idx kind : Nat) : Nat := tag % 4096 + idx % 64 * 2 ^ 12 + kind % 4 * 2 ^ 18

/-- Send a landing message whose credits are taken: a skip has only its header; else the payload is narrowed where the
channel says so, its saturations and flushes counted (R226). -/
def sendPaid (t ch hdr : Nat) (payload : List Byte) (s : State) : State :=
  let e := chanEntry s t ch
  if bits hdr 18 2 = okSkip then putOnWire t ch (some hdr) [] s
  else
    if chNarrow e then
      let n := narrowAll (chBf16 e) payload
      let s := satAdd (latStat t) LatStat.narrowSat (n.filter (·.2.1)).length s
      let s := satAdd (latStat t) LatStat.narrowFlush (n.filter (·.2.2)).length s
      putOnWire t ch (some hdr) (n.map fun x => BitVec.ofNat 8 x.1) s
    else putOnWire t ch (some hdr) payload s

/-- Send a landing message, taking credits for its units (R222). -/
def sendLanding (t ch hdr : Nat) (payload : List Byte) (s : State) : State :=
  let c := chan s t ch
  let n := if bits hdr 18 2 = okSkip then 0 else chMsgu (chanEntry s t ch)
  sendPaid t ch hdr payload (setChan t ch { c with credits := c.credits - n } s)

/-- Send LA96 units of 64 bytes, one after another. -/
def sendUnits (t ch : Nat) : Nat → List Byte → State → State
  | 0, _, s => s
  | n + 1, bs, s => sendUnits t ch n (bs.drop 64) (putOnWire t ch none (bs.take 64) s)

/-! ### Receiving (R223, R227) -/

/-- The payload of a reference operand: offset in the task, length in units, memory (R176). -/
def rangePayload (off len mem : Nat) : Nat := off % 2 ^ 17 + len % 2 ^ 20 * 2 ^ 17 + mem % 4 * 2 ^ 37

/-- A landing message arrives: a skip places a skip operand; else the payload goes into the next slot of the ring and a
reference operand into RQ. -/
def landMessage (t ch hdr : Nat) (payload : List Byte) (s : State) : State :=
  let e := chanEntry s t ch
  let tag := bits hdr 0 12
  let idx := bits hdr 12 6
  if bits hdr 18 2 = okSkip then deliver t (chRq e) (skipOp tag idx) s
  else
    let c := chan s t ch
    let bs := if chNarrow e then widenAll (chBf16 e) payload else payload
    let off := chRbase e + c.ring
    let s := updTile t (writeUnits memAm (taskBase (taskEntry s t (chTask e)) memAm + off) bs) s
    let s := setChan t ch { chan s t ch with ring := (c.ring + chMsgu e) % max 1 (chRsize e) } s
    deliver t (chRq e) (mkOp tag idx okReference 0 (rangePayload off (chMsgu e) memAm)) s

/-- LA96 bytes arrive: they go into the PM ring. -/
def landUnit (t ch : Nat) (bs : List Byte) (s : State) : State :=
  let e := chanEntry s t ch
  let c := chan s t ch
  let base := taskBase (taskEntry s t (chTask e)) memPm + chRbase e
  let s := updTile t (writeUnits memPm (base + c.ring / 64) bs) s
  setChan t ch { chan s t ch with ring := (c.ring + 64) % max 1 (64 * chRsize e), held := c.held + 64 } s

/-- Words of the next message of a receive entry, by its first word: a skip has only its header, a landing message its payload
besides; in LA96 mode a unit of 64 bytes, in operand mode an operand (R220). -/
def messageWords (e : Nat) (first : List LaneWord) : Nat :=
  if chMode e = 0 then operandWords e
  else if chMode e = 1 then
    (if bits (fromBytes (wordBytes [first])) 18 2 = okSkip then 1
     else 1 + wordsOf e (chMsgu e * (if chNarrow e then 32 else 64)))
  else wordsOf e 64

/-- Take the words of the message that has travelled longest on a channel, once its last word is there. -/
def takeWire (t ch : Nat) (s : State) : Option (List (List LaneWord) × State) :=
  let c := chan s t ch
  match c.wire with
  | [] => none
  | w :: r =>
    let n := messageWords (chanEntry s t ch) w
    if n ≤ r.length + 1 then some ((w :: r).take n, setChan t ch { c with wire := (w :: r).drop n } s) else none

/-- A message at its receiving endpoint: with a word that fails parity nothing of it is written (R227); else by the channel's
mode (R223). -/
def receiveWords (t ch : Nat) (ws : List (List LaneWord)) (s : State) : State :=
  let e := chanEntry s t ch
  if ws.any wordBad then latticeParity t (ws.filter wordBad).length s
  else if chMode e = 1 then landMessage t ch (fromBytes (wordBytes (ws.take 1))) (wordBytes (ws.drop 1)) s
  else landUnit t ch (wordBytes ws) s

/-- The next message on a channel of a mode arrives at its endpoint, with bits inverted on its way. -/
def receiveNext (mode t ch : Nat) (flips : List (Nat × Nat)) (s : State) : State :=
  let e := chanEntry s t ch
  if tileOff s t || !(chValid e && (chReceive e && chMode e == mode)) then s
  else match takeWire t ch s with
    | none => s
    | some (ws, s) => receiveWords t ch (flipWords flips ws) s

/-- LANDING_RECEIVE: the last word of a landing message arrives (R223); `flips` names the bits of its words that are not as
sent. -/
def execLandingReceive (t : TileId) (ch : Nat) (flips : List (Nat × Nat)) (s : State) : Host.Outcome State Fault Refusal :=
  .next (powered (receiveNext 1 t ch flips) s)

/-- LA96_RECEIVE: a unit of LA96 values arrives (R223). -/
def execLa96Receive (t : TileId) (ch : Nat) (flips : List (Nat × Nat)) (s : State) : Host.Outcome State Fault Refusal :=
  .next (powered (receiveNext 2 t ch flips) s)

/-- CHANNEL_CREDIT: one pulse reaches the sender of a channel (R222). -/
def execChannelCredit (t : TileId) (ch : Nat) (s : State) : Host.Outcome State Fault Refusal :=
  .next (powered (fun s =>
    let c := chan s t ch
    if c.pulses = 0 then s else setChan t ch { c with pulses := c.pulses - 1, credits := c.credits + 1 } s) s)

/-! ### Tunnels (R229) -/

/-- The send entry of the channel of a receive entry. -/
def sendEntry (s : State) (t ch : Nat) : Nat :=
  let e := chanEntry s t ch
  chanEntry s (chPeerTile e) (chPeerCh e)

/-- A leg at a channel's receive end, and its replacement. -/
def leg (s : State) (t ch k : Nat) : TunnelLeg := tget (fun _ => {}) (chan s t ch).legs k
def setLeg (t ch k : Nat) (g : TunnelLeg) (s : State) : State :=
  let c := chan s t ch
  setChan t ch { c with legs := tset (fun _ => {}) k g c.legs } s

/-- Whether a leg runs from a sender that is not on its assumed site: its packets name the send entry, whose place the proxy at
the leg's exit takes. -/
def legIsSender (s : State) (e : Nat) (l : Nat × Nat) : Bool :=
  l.1 == siteOf s (chTile e) && siteOf s (chTile e) != assumedSite s (chTile e)

/-- Ticks of 32 TCLK (R229, R416). -/
def flushTicks (s : State) : Nat := 4 * get s clkStat ClkStat.div

/-- The LAT_TUNNEL packet of the first `n` words gathered on a leg: for the endpoint that the leg's exit stands for or is,
on the route to the exit's site. -/
def tunnelPacket (s : State) (t ch n : Nat) (l : Nat × Nat) (g : TunnelLeg) : Packet :=
  let e := sendEntry s t ch
  let own := legIsSender s e l
  let d := if own then chTile e else t
  { ctlPacket s d d ocLatTunnel g.txid (g.words.take (n * max 1 (chWidth e))) with
    data := true
    len := (n * max 1 (chWidth e) + 63) / 64
    ext := (if own then chNum e else ch) + n * 256 }

/-- TUNNEL_FLUSH: the proxy at the entry of a leg of a channel, named by its receive end, sends the words it has gathered, up to 256
bytes, once it holds 256 bytes or 32 TCLK have passed since the first. -/
def execTunnelFlush (t : TileId) (ch k : Nat) (s : State) : Host.Outcome State Fault Refusal :=
  .next (powered (fun s =>
    let e := chanEntry s t ch
    let g := leg s t ch k
    match (tunnelLegs s (sendEntry s t ch))[k]? with
    | none => s
    | some l =>
      if !(chReceive e && (chTunnel e && !g.words.isEmpty)) then s
      else if g.words.length < 256 ∧ s.devtime < g.since + flushTicks s then s
      else
        let w := max 1 (chWidth e)
        let n := min (256 / w) (wordsOf e g.words.length)
        let p := tunnelPacket s t ch n l g
        let g' := { g with words := g.words.drop (n * w), since := s.devtime, txid := (g.txid + 1) % 4096 }
        injectAtPort (siteRouter l.1, sitePort l.1) (siteRouter l.2, sitePort l.2) p (setLeg t ch k g' s)) s)

/-- Words of the next message among bytes received through a tunnel. -/
def tunnelNeed (e : Nat) (bs : List Byte) : Nat :=
  messageWords e [laneWord false (bs.take 8)] * max 1 (chWidth e)

/-- Deliver the whole messages among the bytes that have come through the last leg of a channel to its receiving endpoint; the
rest waits there. -/
def tunnelDeliver (t ch k : Nat) : Nat → State → State
  | 0, s => s
  | i + 1, s =>
    let e := chanEntry s t ch
    let g := leg s t ch k
    let n := tunnelNeed e g.got
    if g.got.isEmpty ∨ g.got.length < n then s
    else
      let bs := g.got.take n
      let s := setLeg t ch k { g with got := g.got.drop n } s
      let s := if chMode e = 0 then deliver t (chRq e) (fromBytes (bs.take 16)) s
        else receiveWords t ch (channelWords e false bs) s
      tunnelDeliver t ch k i s

/-- Words leave a leg's exit: gathered at the entry of the next leg; or at the receiving endpoint when the leg ends there; or
injected by the proxy, on their way to it, or discarded where its site is off. -/
def tunnelOut (t ch k : Nat) (l : Nat × Nat) (bs : List Byte) (s : State) : State :=
  let e := chanEntry s t ch
  if k + 1 < (tunnelLegs s (sendEntry s t ch)).length then gatherAt t ch (k + 1) bs s
  else if tileOff s t then satAdd (latStat t) LatStat.offDrop (wordsOf e bs.length) s
  else if l.2 = siteOf s t ∧ siteOf s t ≠ assumedSite s t then
    let g := leg s t ch k
    tunnelDeliver t ch k (g.got.length + bs.length) (setLeg t ch k { g with got := g.got ++ bs } s)
  else if chMode e = 0 then
    (List.range (bs.length / max 1 (operandWords e * chWidth e))).foldl (fun s i =>
      let o := (bs.drop (i * (operandWords e * chWidth e))).take 16
      flyWords t (chRq e) (fromBytes o) (channelWords e false o) 1 s) s
  else
    let c := chan s t ch
    setChan t ch { c with wire := c.wire ++ channelWords e false bs } s

/-- The channel, by its receive end, and the leg that a LAT_TUNNEL packet has come over: by the entry it names, and by the site
that its route word leads to. -/
def tunnelOf (s : State) (p : Packet) : Option (Nat × Nat × Nat) :=
  let e := chanEntry s p.dst (bits p.ext 0 8)
  let r := if chReceive e then (p.dst, bits p.ext 0 8) else (chPeerTile e, chPeerCh e)
  let ls := tunnelLegs s (sendEntry s r.1 r.2)
  if !(chValid e && chTunnel e) then none
  else (findIdxFrom (fun l => routeWord (siteRouter l.2, sitePort l.2) == p.route &&
    legIsSender s (sendEntry s r.1 r.2) l == !chReceive e) 0 ls).map fun i => (r.1, r.2, i.1)

/-- TXIDs wrap at 12 bits. -/
def txidAfter (n : Nat) : Nat := (n + 1) % 4096

/-- Words arrive at the exit of leg `k` of a channel; a gap in the TXIDs is handled as a parity error (R229). -/
def tunnelArrive (t ch k : Nat) (p : Packet) (s : State) : State :=
  let g := leg s t ch k
  let e := chanEntry s t ch
  let bs := (fitBytes (64 * p.len) p.payload).take (bits p.ext 8 8 * chWidth e)
  let s' := setLeg t ch k { g with want := txidAfter p.txid, got := if p.txid = g.want then g.got else [] } s
  if p.txid = g.want then tunnelOut t ch k (((tunnelLegs s (sendEntry s t ch))[k]?).getD (0, 0)) bs s'
  else latticeParity t 1 s'

/-- PKT_LAT_TUNNEL (R229). -/
def execPktLatTunnel (p : Packet) (s : State) : Host.Outcome State Fault Refusal :=
  .next (powered (received p fun s =>
    if !(p.opc == ocLatTunnel && epIsTile p.dst) then ignorePacket p s
    else match tunnelOf s p with
      | none => ignorePacket p s
      | some (t, ch, k) => tunnelArrive t ch k p s) s)

/-- PKT_TUNNEL_CREDIT: credits of a channel arrive through a tunnel: at a send end with a ring its own, in operand mode those of
the edge that it serves (R222, R229). -/
def execPktTunnelCredit (p : Packet) (s : State) : Host.Outcome State Fault Refusal :=
  .next (powered (received p fun s =>
    if !(p.opc == ocTunnelCredit && epIsTile p.dst) then ignorePacket p s
    else
      let v := fromBytes p.payload
      let t := p.dst
      let ch := bits v 0 8
      let n := bits v 8 16
      let c := chan s t ch
      if chMode (chanEntry s t ch) = 0 then
        match (tile s t).edgeTab.find? fun d => edPath d.2 == 1 && edCh d.2 == ch with
        | some d => addCredit t d.1 n s
        | none => s
      else setChan t ch { c with credits := c.credits + n } s) s)

end Sys2Proof.Machine
end

