-- ==== Sys2Proof/Machine/Passes.lean ====
section
/-! DEFINITION. Passes: issue and its checks, weight fetch and decoding, the front, and what a pass computes and writes
(R48–R61, R81–R97, R224). -/

namespace Sys2Proof.Machine

open Sys2Proof

/-! ### Ranges of a pass (R90, R91) -/

/-- Bytes of the element rows of a block, and of its scales. -/
def rowBytes (w : Nat) : Nat := 64 * elemBits w / 8
def scaleBytes (w : Nat) : Nat := if isMx w then 128 else 0

/-- Bytes that a block at a physical WM byte address takes, from its lane header when it is coded (R70). -/
def blockBytes (x : TileState) (p at_ : Nat) : Nat :=
  let w := pdWfmt p
  if isCoded p then
    headBytes w + ((laneLens w (memRead x memWm at_ (headBytes w))).map laneBytes).foldl (· + ·) 0 + scaleBytes w
  else 64 * rowBytes w + scaleBytes w

/-- Units that bytes take. -/
def unitsOf (n : Nat) : Nat := (n + 63) / 64

/-- The ranges a pass touches, as memory, offset in the task, and units (R90, R91). -/
def passRanges (x : TileState) (e p : Nat) : List (Nat × Nat × Nat) :=
  let n := pdNvec p
  let blk := fun o => (memWm, o, unitsOf (blockBytes x p (64 * (taskBase e memWm + o))))
  let wm := blk (pdBlkA p) :: (if isPair p then [blk (pdBlkB p)] else [])
  let anc := if isScanned (pdWfmt p) then [(memWm, pdAnchor p, 2)] else []
  wm ++ anc ++ (enabled p).flatMap fun a =>
    [(memAm, pdAin p + a * pdStride p, n * gIn p)] ++
    (if pdAccSrc p = 1 ∨ pdOutDst p = 0 then [(memPm, pdPm p + 12 * (a * n), 12 * n)] else []) ++
    (if pdOutDst p = 1 then [(memAm, pdOut p + gOut (pdOfmt p) * (a * n), gOut (pdOfmt p) * n)] else [])

/-- Passes taken from the queue whose vectors do not yet enter. -/
def passesAhead (x : TileState) : Nat := (x.passes.filter fun r => r.phase != .running).length

/-- WM byte addresses of the blocks of a pass's weight set: one, or A and B of a pair. -/
def blockAddrs (e p : Nat) : List Nat :=
  (pdBlkA p :: (if isPair p then [pdBlkB p] else [])).map fun o => 64 * (taskBase e memWm + o)

/-- The lane length headers of a coded pass's blocks (R70, R96). -/
def laneHeads (x : TileState) (e p : Nat) : List (List Byte) :=
  if isCoded p then (blockAddrs e p).map fun a => memRead x memWm a (headBytes (pdWfmt p)) else []

/-- PASS_ISSUE: the arrays take the next pass, once its descriptor and its ranges are checked; the lane length headers of its
blocks are read into the weight buffer (R91, R96, R119). A pass that is taken and has not started no longer counts in
PASSQ (DESIGN CHOICE: R111 does not say whether it does). -/
def execPassIssue (t : TileId) (s : State) : Host.Outcome State Fault Refusal :=
  .next (powered (fun s =>
    let x := tile s t
    match x.passQ with
    | [] => s
    | j :: rest =>
      if tileSt s t ≠ tsRun ∨ 2 ≤ passesAhead x then s
      else
        let off := passOff j.target
        let a := readRange t 3 (off / 8) 4 s
        if !a.1 then a.2
        else
          let s := a.2
          let p := passDesc (tile s t) j.target
          let e := taskEntry s t j.task
          if !passOk p then tileFault t tfBadPass off s
          else if (passRanges (tile s t) e p).any fun r => !admits e r.1 r.2.1 r.2.2 then tileFault t tfPassBound off s
          else
            updTile t (fun x => { x with
              passQ := rest
              passes := x.passes ++ [{ job := j, half := { heads := laneHeads x e p } }] }) s) s)

/-! ### Weight fetch and front (R72, R93, R96) -/

/-- Whether a pass holds a half of the weight buffer. -/
def holdsHalf (r : PassRun) : Bool :=
  match r.phase with
  | .issued => false
  | .running => !r.latched
  | _ => true

/-- WEIGHT_FETCH: the fetch of the next set starts once a half of the buffer is free (R96). -/
def execWeightFetch (t : TileId) (s : State) : Host.Outcome State Fault Refusal :=
  .next (powered (fun s =>
    let x := tile s t
    match findIdxFrom (fun r => r.phase == .issued) 0 x.passes with
    | none => s
    | some (i, r) =>
      if tileWorks s t && decide ((x.passes.filter holdsHalf).length < 2) then
        setTile t (setPass i { r with phase := .fetching } x) s
      else s) s)

/-- The image, by its digest, and the layer that run, for the symbol table of a coded layer (R65). -/
def runningLayer (s : State) : Nat × Nat :=
  match s.req.batch with
  | some b => (bits (imgHeader s (slotBase s b.slot)) 512 512, mdFirstLayer (modelRec s (slotBase s b.slot) b.model) + b.layer)
  | none => (0, 0)

/-- A block of a weight set at a WM byte address as the buffer holds it, decoded through its lane length header when it is
coded; `none` on a decode fault (R46, R70–R72). -/
def readBlock (s : State) (t p a : Nat) (head : List Byte) : Option WeightBlock :=
  let x := tile s t
  let w := pdWfmt p
  let bs := memRead x memWm a (blockBytes x p a)
  if isCoded p then
    let l := runningLayer s
    (decodeBlock (tableEntries (Config.symbolTable l.1 l.2)) w head (bs.drop (headBytes w))).map fun b =>
      { rows := b.1, scales := b.2.take (scaleBytes w) }
  else some { rows := (List.range 64).map fun r => (bs.drop (rowBytes w * r)).take (rowBytes w)
              scales := bs.drop (64 * rowBytes w) }

/-- Read blocks in turn; `none` on a decode fault in any. -/
def readBlocks (s : State) (t p : Nat) : List Nat → List (List Byte) → Option (List WeightBlock)
  | [], _ => some []
  | a :: r, hs =>
    match readBlock s t p a (hs.headD []), readBlocks s t p r (hs.drop 1) with
    | some b, some l => some (b :: l)
    | _, _ => none

/-- The weight set of a pass as its fetch leaves it in a half of the weight buffer; `none` on a decode fault (R80, R96). -/
def weightSet (s : State) (t p e : Nat) (heads : List (List Byte)) : Option WeightHalf :=
  (readBlocks s t p (blockAddrs e p) heads).map fun bs =>
    { heads := heads, blocks := bs
      anchors := if isScanned (pdWfmt p) then memRead (tile s t) memWm (64 * (taskBase e memWm + pdAnchor p)) 128 else [] }

/-- Read ranges of tile memories in turn, to the first that does not deliver (R330). -/
def readRanges (t : Nat) (e : Nat) : List (Nat × Nat × Nat) → State → Bool × State
  | [], s => (true, s)
  | r :: rs, s =>
    let a := readRange t r.1 (taskBase e r.1 + r.2.1) r.2.2 s
    if a.1 then readRanges t e rs a.2 else a

/-- WEIGHT_FETCH_DONE: the fetch completes with the decoded rows in the buffer, or a decode fault stops the tile
(R72, R96). -/
def execWeightFetchDone (t : TileId) (s : State) : Host.Outcome State Fault Refusal :=
  .next (powered (fun s =>
    match findIdxFrom (fun r => r.phase == .fetching) 0 (tile s t).passes with
    | none => s
    | some (i, r) =>
      if !tileWorks s t then s
      else
        let p := passDesc (tile s t) r.job.target
        let e := taskEntry s t r.job.task
        let a := readRanges t e ((passRanges (tile s t) e p).filter fun r => r.1 == memWm) s
        if !a.1 then a.2
        else
          let s := a.2
          match weightSet s t p e r.half.heads with
          | none => tileFault t tfDecFault (passOff r.job.target) (noteDecFault t s)
          | some h => updTile t (setPass i { r with phase := .fetched, half := h }) s) s)

/-- The first TCLK of the beat in which a front that starts now starts: of the beat in progress, or the present one; and the
first TCLK after that beat (R93). -/
def frontBeat (x : TileState) (p : Nat) : Nat × Nat :=
  if x.tclk ≤ x.beatEnd then (max x.frontAt x.beatAt, x.beatEnd + 1)
  else (x.tclk, x.tclk + beatLen p)

/-- WEIGHT_FRONT_START: the front of the next set starts in the first beat that R93 allows. -/
def execWeightFrontStart (t : TileId) (s : State) : Host.Outcome State Fault Refusal :=
  .next (powered (fun s =>
    let x := tile s t
    match findIdxFrom (fun r => r.phase != .running) 0 x.passes with
    | none => s
    | some (i, r) =>
      if r.phase == .fetched && (tileSt s t == tsRun && ((enteringPass x).isNone && decide (x.frontAt ≤ x.tclk))) then
        let p := passDesc x r.job.target
        let f := frontBeat x p
        upd (tilStat t) TilStat.front 1
          (setTile t { setPass i { r with phase := .running } x with
            frontAt := f.1 + 64 * beatLen p
            vecAt := f.2 } s)
      else s) s)

/-! ### What a pass computes (R49–R58, R83–R86) -/

/-- A row's codes, with the zeros that a ternary zero-skip code states (R45). -/
def rowCodes (w : Nat) (row : List Byte) : List Nat :=
  let n := fromBytes row
  let l := (List.range 64).map (elemCode w n)
  if w = 0xA then (l.foldl (fun (a : Bool × List Nat) c =>
    (a.1 || c == 2, a.2 ++ [if a.1 then 0 else c])) (false, [])).2
  else l

/-- The elements of one row of a block, for each column: row `k` with its scale bytes (R46, R47). -/
def rowElems (w k : Nat) (row scales : List Byte) : List (Option (Int × Int)) :=
  ((rowCodes w row).zip (List.range 64)).map fun c =>
    scaledElem w c.1 (if isMx w then (scales.getD (64 * (k / 32) + c.2) 0).toNat else 0)

/-- The weights of a set by reduction row. -/
def setRows (w : Nat) (h : WeightHalf) : List (List (Option (Int × Int))) :=
  h.blocks.flatMap fun b => (b.rows.zip (List.range b.rows.length)).map fun r => rowElems w r.2 r.1 b.scales

/-- The weights of each column of a set, in reduction order. -/
def setColumns (w : Nat) (h : WeightHalf) : List (List (Option (Int × Int))) :=
  let rows := setRows w h
  (List.range 64).map fun j => rows.map fun r => r.getD j none

/-- Elements of an activation vector by format (R83): 128 of MXFP4 with MXFP4 weights and in the other 4-bit modes, else
64. -/
def vectorLen (p : Nat) : Nat := if isPair p then 128 else 64

/-- The codes of an activation vector at a unit of AM, each with the scale byte of its sideband (R46, R47). -/
def vectorCodes (t : Nat) (x : TileState) (p unit : Nat) : List (Nat × Nat) :=
  let c := pdAfmt p
  let n := memNat x memAm (64 * unit) (64 * gIn p)
  (List.range (vectorLen p)).map fun k => (elemCode c n k, scaleByte t x unit (k / 32))

/-- The elements of an activation vector. -/
def vectorElems (t : Nat) (x : TileState) (p unit : Nat) : List (Option (Int × Int)) :=
  (vectorCodes t x p unit).map fun v => scaledElem (pdAfmt p) v.1 v.2

/-- Ta of a vector for a pass's activation format: the anchor word that a combine has placed, else the pre-scan's (R50–R52,
R84). -/
def anchorA (t : Nat) (x : TileState) (p unit : Nat) : Int :=
  if isScanned (pdAfmt p) then
    match tget (fun _ => none) x.anchors unit with
    | some a => signed 16 a
    | none => scanAnchor (pdAfmt p) ((vectorCodes t x p unit).map fun v => scaleExp (pdAfmt p) v.1 v.2)
  else topExp (pdAfmt p)

/-- Tw of a column, from the anchor entries of the weight set (R50, R84). -/
def anchorW (h : WeightHalf) (p j : Nat) : Int :=
  if isScanned (pdWfmt p) then signed 16 (fieldAt h.anchors (2 * j) 2) else topExp (pdWfmt p)

/-- The first pass of the tile's active graph: its formats are the layer's (R48). -/
def graphPass (x : TileState) : Option Nat :=
  (x.unitTab.find? fun u => unKind u.2 == ukPass).map fun u => passDesc x (unTarget u.2)

/-- The anchor word of the vector at a unit of AM as the stream processor sees it, in the layer's activation format (R48, R51,
R52). -/
def anchorWord (t : Nat) (x : TileState) (u : Nat) : Nat :=
  match graphPass x with
  | some p => unsigned 16 (anchorA t x p u)
  | none => (tget (fun _ => none) x.anchors u).getD (Config.anchorWord t u (tget (fun _ => 0) x.side u)).toNat

/-- The partials of vector `i` of array `a`, by the accumulate source; `acc` is what the stage has read from a lattice ring
for the vector, the enabled arrays in order. -/
def partials (x : TileState) (e p : Nat) (acc : List Byte) (i a : Nat) : List La96 :=
  let src : Nat → Nat :=
    if pdAccSrc p = 1 then fun j => memNat x memPm (64 * (taskBase e memPm + pdPm p + 12 * (a * pdNvec p + i)) + 12 * j) 12
    else
      let o := 768 * ((enabled p).filter (· < a)).length
      fun j => fieldAt acc (o + 12 * j) 12
  (List.range 64).map fun j => if pdAccSrc p = 0 then some 0 else laOf (src j)

/-- AM unit of vector `i` of array `a` (R90). -/
def vectorUnit (e p i a : Nat) : Nat := taskBase e memAm + pdAin p + a * pdStride p + i * gIn p

/-- The outputs of one vector of one array: for each column, the LA96 value and its grid (R50, R53, R86). -/
def vectorOutputs (t : Nat) (x : TileState) (e p : Nat) (h : WeightHalf) (acc : List Byte) (i a : Nat) :
    List (La96 × Int) :=
  let unit := vectorUnit e p i a
  let v := vectorElems t x p unit
  let ta := anchorA t x p unit
  let ps := partials x e p acc i a
  ((setColumns (pdWfmt p) h).zip (List.range 64)).map fun c =>
    let g := ta + anchorW h p c.2 - 64
    (laAdd (columnSum g (v.zip c.1)) (ps.getD c.2 (some 0)), g)

/-- The bytes of a vector's outputs, with the values converted and their codes, for the status counts (R60, R86). -/
def outputBytes (p : Nat) (ys : List (La96 × Int)) : List Byte × List Num × List (Nat × Bool) :=
  if pdOutDst p = 0 ∨ pdOfmt p = 0xE then (ys.flatMap fun y => laBytes y.1, [], [])
  else
    let xs := ys.map fun y => laNum y.1 y.2 (pdShift p)
    let cs := xs.map (finalCode (pdOfmt p))
    (toBytes (8 * outBits (pdOfmt p)) (packCodes (outBits (pdOfmt p)) (cs.map (·.1))), xs, cs)

/-- Bytes of an output vector as it leaves: whole units; bytes that no output fills are the implementation's. -/
def wholeUnits (p : Nat) (bs : List Byte) (s : State) : List Byte × State :=
  let n := 64 * (if pdOutDst p = 0 then 12 else gOut (pdOfmt p)) - bs.length
  if n = 0 then (bs, s)
  else
    let f := freeNat (8 * n) s
    (bs ++ toBytes n f.1, f.2)

/-- Write one vector's outputs of one array to PM or AM (R90). -/
def storeOutput (t e p i a : Nat) (bs : List Byte) (s : State) : State :=
  let k := a * pdNvec p + i
  if pdOutDst p = 0 then updTile t (writeUnits memPm (taskBase e memPm + pdPm p + 12 * k) bs) s
  else updTile t (writeUnits memAm (taskBase e memAm + pdOut p + gOut (pdOfmt p) * k) bs) s

/-- Item records of output units (R343). -/
def unitItems (tag a i : Nat) (bs : List Byte) : List (List Byte) :=
  (List.range (unitsOf bs.length)).map fun u =>
    toBytes 2 tag ++ toBytes 1 a ++ toBytes 2 i ++ toBytes 1 u ++ (bs.drop (64 * u)).take 64

/-- One array's output of a vector: converted, counted, and written, or handed on for a lattice channel; the bytes handed
on. -/
def arrayOut (t : Nat) (r : PassRun) (e p i : Nat) (acc : List Byte) (b : List (Nat × List Byte) × State) (a : Nat) :
    List (Nat × List Byte) × State :=
  let s := b.2
  let o := outputBytes p (vectorOutputs t (tile s t) e p r.half acc i a)
  let w := wholeUnits p o.1 (noteConversions t o.2.1 o.2.2 s)
  if pdOutDst p = 2 then (b.1 ++ [(a, w.1)], w.2)
  else (b.1, addItems t (unitDesc (tile s t) r.job.unit) (unitItems r.job.tag a i w.1) (storeOutput t e p i a w.1 w.2))

/-- Send a pass's landing messages, one per enabled array (R224). -/
def sendMessages (t : Nat) (r : PassRun) (p : Nat) (s : State) : State :=
  (enabled p).foldl (fun s a =>
    let bs := (r.out.filter fun o => o.1 == a).flatMap (·.2)
    let h := landingHeader r.job.tag a okValue
    sendPaid t (pdOutCh p) h bs
      (addItems t (unitDesc (tile s t) r.job.unit) [toBytes 2 r.job.tag ++ toBytes 4 h ++ bs] s)) s

/-- Send the LA96 units of one vector; a unit's index counts the units that the firing has sent before it (R224, R343). -/
def sendLa96 (t : Nat) (r : PassRun) (p : Nat) (bs : List Byte) (s : State) : State :=
  let n := unitsOf bs.length
  let s := addItems t (unitDesc (tile s t) r.job.unit) ((List.range n).map fun u =>
    toBytes 2 r.job.tag ++ toBytes 4 (r.left * n + u) ++ (bs.drop (64 * u)).take 64) s
  sendUnits t (pdOutCh p) n bs s

/-- Ranges that the accumulate stage reads from PM for a vector. -/
def partialRanges (p i : Nat) : List (Nat × Nat × Nat) :=
  if pdAccSrc p = 1 then (enabled p).map fun a => (memPm, pdPm p + 12 * (a * pdNvec p + i), 12) else []

/-- Ranges of AM that a vector is read from. -/
def vectorRanges (p i : Nat) : List (Nat × Nat × Nat) :=
  (enabled p).map fun a => (memAm, pdAin p + a * pdStride p + i * gIn p, gIn p)

/-- The oldest vector in the arrays of a pass leaves: its partials are added and its outputs written where the descriptor says
(R86). -/
def leaveVector (t i : Nat) (r : PassRun) (s : State) : State :=
  let p := passDesc (tile s t) r.job.target
  let e := taskEntry s t r.job.task
  let a := readRanges t e (vectorRanges p r.left ++ partialRanges p r.left) s
  if !a.1 then a.2
  else
    let q := takePartials t p a.2
    let b := (enabled p).foldl (arrayOut t r e p r.left q.1) ([], q.2)
    let landing := pdOutDst p == 2 && pdOfmt p != 0xE
    let r' := { r with left := r.left + 1, exits := r.exits.drop 1, out := if landing then r.out ++ b.1 else [] }
    let s := if pdOutDst p = 2 ∧ pdOfmt p = 0xE then sendLa96 t r p (b.1.flatMap (·.2)) b.2 else b.2
    let s := if landing ∧ r'.left = pdNvec p then sendMessages t r' p s else s
    updTile t (setPass i r') s

/-- Whether a vector of a pass leaves the arrays in the present TCLK. -/
def leavesNow (x : TileState) (r : PassRun) : Bool :=
  match r.exits with
  | d :: _ => decide (d ≤ x.tclk)
  | [] => false

/-- The vectors that leave in one TCLK: one per pass at most. -/
def arraysLeave (t : Nat) (s : State) : State :=
  (List.range (tile s t).passes.length).foldl (fun s i =>
    match (tile s t).passes[i]? with
    | some r => if leavesNow (tile s t) r then leaveVector t i r s else s
    | none => s) s

/-- The arrays in one TCLK: vectors leave, a vector enters or waits, and a front latches its last row. -/
def arraysTick (t : Nat) (s : State) : State := noteLatched t (arraysEnter t (arraysLeave t s))

/-- Whether every output of a pass is written (R92). -/
def passDone (x : TileState) (r : PassRun) : Bool :=
  r.phase == .running && r.left == pdNvec (passDesc x r.job.target)

/-- The residue modulo 7 of an LA96 word, by its digits and its sign bit (R331). -/
def la96Residue (w : Nat) : Nat := ((List.range 32).foldl (fun n k => n + bits w (3 * k) 3) 0 + 6 * bits w 95 1) % 7

/-- Whether an accumulate operation passes its residue check; one that involves NaR is not checked (R331). -/
def accOk (a : AccOp) : Bool :=
  (laOf a.part).isNone || ((laOf a.result).isNone || la96Residue a.result == (la96Residue a.part + a.column) % 7)

/-- PASS_COMPLETE: the outputs of a pass's last vector are written: the completion is reported, and the pass unit emits
(R92, R134). Where an operation of `ops`, those in which the hardware departed from the exact sums, fails its residue check, RESIDUE
is recorded instead (R331). -/
def execPassComplete (t : TileId) (ops : List AccOp) (s : State) : Host.Outcome State Fault Refusal :=
  .next (powered (fun s =>
    let x := tile s t
    match findIdxFrom (passDone x) 0 x.passes with
    | none => s
    | some (i, r) =>
      if !tileWorks s t then s
      else if !ops.all accOk then integrityFault t ckResidue s
      else
        let s := updTile t (fun x => { x with passes := eraseAt i x.passes }) s
        let s := tileCount1 t (tilCnt t TilCnt.tilPassCnt) 1 (freeSlots t r.job.back s)
        emitPlain t r.job.unit r.job.tag r.job.skips 0 s) s)

end Sys2Proof.Machine
end

