-- ==== Sys2Proof/Machine/Matcher.lean ====
section
/-! DEFINITION. The tag matcher: firing, skips, steering, stall counters and the horizon (R131–R145, R153, R154). -/

namespace Sys2Proof.Machine

open Sys2Proof

/-! ### Groups (R125, R131–R133) -/

/-- First tag of the group of a tag. -/
def groupOf (g tag : Nat) : Nat := tag - tag % g

/-- Whether an operand may take part in a firing in the present TCLK (R133). -/
def opReady (x : TileState) (i : QItem) : Bool := decide (i.at_ + 2 ≤ x.tclk)

/-- Whether a queue holds an operand of a tag and an index that may take part. -/
def holds (x : TileState) (q tag idx : Nat) : Bool :=
  (queueRun x q).items.any fun i => opTag i.op == tag && (opIdx i.op == idx && opReady x i)

/-- complete(u, g) of R132. -/
def groupWhole (x : TileState) (d first : Nat) : Bool :=
  (inQueues d).all fun q => (groupTags first (unGroup d)).all fun t =>
    (List.range (quRate (queueDesc x q))).all fun i => holds x q t i

/-- Groups of which a queue holds an operand. -/
def groupsIn (x : TileState) (g q : Nat) : List Nat := (queueRun x q).items.map fun i => groupOf g (opTag i.op)

/-- The group of a list with the smallest distance from a base. -/
def nearest (base : Nat) (l : List Nat) : Option Nat :=
  match l with
  | [] => none
  | a :: r => some (r.foldl (fun m b => if distance base b < distance base m then b else m) a)

/-- The complete group of a unit with the smallest distance from its base. -/
def wholeGroup (x : TileState) (u : Nat) : Option Nat :=
  let d := unitDesc x u
  match inQueues d with
  | [] => none
  | q :: _ => nearest (unitRun x u).base ((groupsIn x (unGroup d) q).filter (groupWhole x d))

/-- The oldest incomplete group of a unit with an operand present (R141). -/
def partGroup (x : TileState) (u : Nat) : Option Nat :=
  let d := unitDesc x u
  nearest (unitRun x u).base (((inQueues d).flatMap (groupsIn x (unGroup d))).filter fun g => !groupWhole x d g)

/-- Whether a source has a group left. -/
def sourceLeft (x : TileState) (u : Nat) : Bool :=
  decide ((unitRun x u).fired * unGroup (unitDesc x u) < x.tags)

/-- The group that a unit would fire, where ordered as required. -/
def firable (x : TileState) (u : Nat) : Option Nat :=
  let d := unitDesc x u
  if unKind d = ukSource then
    if sourceLeft x u then some ((unitRun x u).fired * unGroup d % 4096) else none
  else match wholeGroup x u with
    | some g => if unOrdered d && g != (unitRun x u).base then none else some g
    | none => none

/-- credits(u, g) of R132. -/
def hasCredits (x : TileState) (u : Nat) : Bool :=
  let d := unitDesc x u
  (outEdges d).all fun e => decide (unGroup d * edRate (edgeDesc x e) ≤ edgeCredit x e)

/-- Mask of the skip tags of a group (R135). -/
def skipMask (x : TileState) (d first : Nat) : Nat :=
  (List.range (unGroup d)).foldl (fun m i =>
    m + (if (inQueues d).any fun q => (queueRun x q).items.any fun o =>
        opTag o.op == (first + i) % 4096 && opKind o.op == okSkip then 2 ^ i else 0)) 0

/-- Whether every tag of a group is a skip tag. -/
def allSkips (d m : Nat) : Bool := m == 2 ^ unGroup d - 1

/-- room(u, g) of R132; a shadow unit whose gate is closed takes no sequencer entry (R341). -/
def hasRoomFor (s : State) (t u : Nat) (skip : Bool) : Bool :=
  let x := tile s t
  let k := unKind (unitDesc x u)
  if skip then true
  else if k = ukPass then decide (x.passQ.length < 4)
  else if k = ukKernel then decide (x.kernQ.length < 8)
  else true

/-! ### Firing (R133–R137) -/

/-- Return credits of an edge to its producer's tile, through a tunnel as a control packet where its channel has one (R133,
R222, R229). -/
def returnEdge (t t' e n : Nat) (s : State) : State :=
  let d := edgeDesc (tile s t') e
  let c := chanEntry s t' (edCh d)
  if n ≠ 0 ∧ edPath d = 1 ∧ chTunnel c then returnCredits t (chPeerCh c) n s else addCredit t' e n s

/-- Take a group's operands from one input queue, in tag and index order, with the credits and pending notifications
that this lets go, and the ring units of landed messages they refer to (R133, R177, R223). -/
def consumePort (t : Nat) (tags : List Nat) (s : State) (q : Nat) : (List Nat × List (Nat × Nat)) × State :=
  let x := tile s t
  let r := queueRun x q
  let mine := r.items.filter fun i => tags.contains (opTag i.op)
  let rest := r.items.filter fun i => !tags.contains (opTag i.op)
  let ops := tags.flatMap fun g => (List.range (quRate (queueDesc x q))).filterMap fun i =>
    (mine.find? fun o => opTag o.op == g && opIdx o.op == i).map (·.op)
  let last := r.reserve && (r.spilled.isEmpty && !(rest.any (·.drained)))
  let s := setQueue t q { r with items := rest, reserve := r.reserve && !last } s
  let n := (mine.filter (!·.drained)).length + b2n last
  let s := match feeder s t q with
    | some (t', e) => returnEdge t t' e n s
    | none => s
  let refs := (ops.filter fun o => opKind o == okReference).length
  let back := match landingOf s t q with
    | some ch => if refs = 0 then [] else [(ch, refs * chMsgu (chanEntry s t ch))]
    | none => []
  ((ops, back), (List.range mine.length).foldl (fun s _ => deliverNotes t q s) s)

/-- Take a group from every input queue of a unit. -/
def consumeAll (t : Nat) (tags : List Nat) : List Nat → State → (List (List Nat) × List (Nat × Nat)) × State
  | [], s => (([], []), s)
  | q :: r, s =>
    let a := consumePort t tags s q
    let b := consumeAll t tags r a.2
    ((a.1.1 :: b.1.1, a.1.2 ++ b.1.2), b.2)

/-- Drop groups that have fired from the front of those beyond a base. -/
def advance (g : Nat) : Nat → Nat → List Nat → Nat × List Nat
  | 0, base, ahead => (base, ahead)
  | n + 1, base, ahead =>
    if ahead.contains base then advance g n ((base + g) % 4096) (ahead.filter (· != base)) else (base, ahead)

/-- Note a firing of a unit: its base, its counts, and the credits it takes; a tag-wait timer stops when its own group fires
(R131, R133, R141). -/
def noteFire (t u first : Nat) (s : State) : State :=
  let x := tile s t
  let d := unitDesc x u
  let r := unitRun x u
  let g := unGroup d
  let b := if first = r.base then advance g 4096 ((r.base + g) % 4096) r.ahead else (r.base, first :: r.ahead)
  let s := setUnit t u { base := b.1, ahead := b.2, fired := r.fired + 1, active := x.tclk
                         timer := r.timer.filter fun g => g.1 != first } s
  let s := (outEdges d).foldl (fun s e => subCredit t e (g * edRate (edgeDesc x e)) s) s
  updTile t (fun x => { x with lastUnit := u, quiet := 0 }) s

/-- A source's operands of one group on one edge: values, whose contents are free, then skips for padding (R130). -/
def sourceOps (first n real rate : Nat) (s : State) : List Nat × State :=
  (List.range n).foldl (fun a i =>
    let tag := (first + i) % 4096
    if real ≤ first + i then (a.1 ++ plainOps tag rate okSkip, a.2)
    else (List.range rate).foldl (fun a j =>
      let f := freeNat 96 a.2
      (a.1 ++ [mkOp tag j okValue (f.1 % 2 ^ 32) (f.1 / 2 ^ 32)], f.2)) a) ([], s)

/-- A source emits its next group of the layer's tags. -/
def fireSource (t u k : Nat) (s : State) : State :=
  let x := tile s t
  let d := unitDesc x u
  (outEdges d).foldl (fun s e =>
    let a := sourceOps (k * unGroup d) (unGroup d) x.realTags (edRate (edgeDesc x e)) s
    emitOps t u e 1 a.1 a.2) s

/-- A sink consumes a group; with the layer's last group it reports to its field controller (R134). -/
def fireSink (t u : Nat) (s : State) : State :=
  let x := tile s t
  if x.tags ≤ (unitRun x u).fired * unGroup (unitDesc x u) then
    updTile t (fun x => { x with sinks := u :: x.sinks }) s
  else s

/-- A fork copies each input operand to every output. -/
def fireFork (t u : Nat) (ops : List Nat) (s : State) : State :=
  (outEdges (unitDesc (tile s t) u)).foldl (fun s e => emitOps t u e 1 ops s) s

/-- Skips of one tag on one edge. -/
def emitSkips (t u tag : Nat) (s : State) (e : Nat) : State :=
  emitOps t u e 1 (plainOps tag (edRate (edgeDesc (tile s t) e)) okSkip) s

/-- The choice of a control token. -/
def tokenChoice (ops : List Nat) : Nat := opPayload (ops.headD 0) % 256

/-- Whether some operand of a list is a skip. -/
def anySkip (ops : List Nat) : Bool := ops.any fun o => opKind o == okSkip

/-- A select routes its data to the chosen output and skips to the others (R136). -/
def fireSelect (t u tag : Nat) (ports : List (List Nat)) (s : State) : State :=
  let d := unitDesc (tile s t) u
  let ctl := ports.getD (unCtl d) []
  let data := ports.getD (1 - unCtl d) []
  let outs := outEdges d
  if anySkip ctl || anySkip data then outs.foldl (emitSkips t u tag) s
  else
    let v := tokenChoice ctl
    if unNout d ≤ v then tagFault t dfSteerRange u (unInq d (unCtl d)) tag s
    else (outs.zip (List.range outs.length)).foldl (fun s e =>
      if e.2 = v then emitOps t u e.1 1 data s else emitSkips t u tag s e.1) s

/-- A merge forwards the chosen data input and discards the others (R137). -/
def fireMerge (t u tag : Nat) (ports : List (List Nat)) (s : State) : State :=
  let d := unitDesc (tile s t) u
  let ctl := ports.getD (unCtl d) []
  let data := eraseAt (unCtl d) ports
  let outs := outEdges d
  if anySkip ctl then outs.foldl (emitSkips t u tag) s
  else
    let v := tokenChoice ctl
    if data.length ≤ v then tagFault t dfSteerRange u (unInq d (unCtl d)) tag s
    else outs.foldl (fun s e => emitOps t u e 1 (data.getD v []) s) s

/-- Place a firing in its sequencer queue (R111). -/
def placeJob (t : Nat) (kernel : Bool) (j : SeqJob) (s : State) : State :=
  updTile t (fun x => if kernel then { x with kernQ := x.kernQ ++ [j] } else { x with passQ := x.passQ ++ [j] }) s

/-- fire(u, g): the effects of a firing by the unit's kind (R133–R137, R341). -/
def fireUnit (t u first : Nat) (s : State) : State :=
  let x := tile s t
  let d := unitDesc x u
  let k := unKind d
  let shadow := isShadow s t d
  let s := if shadow then s else beginStep t s
  let mask := if shadow && x.gate == 1 then 2 ^ unGroup d - 1 else skipMask x d first
  let n := (unitRun x u).fired
  let a := consumeAll t (groupTags first (unGroup d)) (inQueues d) s
  let s := noteFire t u first a.2
  let job : SeqJob := { unit := u, tag := first, skips := mask, target := unTarget d, task := unTask d, back := a.1.2
                        ops := a.1.1.flatten }
  if k = ukSource then fireSource t u n s
  else if k = ukPass ∨ k = ukKernel then
    if allSkips d mask then freeSlots t a.1.2 (emitPlain t u first mask 1 s) else placeJob t (k == ukKernel) job s
  else
    let s := freeSlots t a.1.2 s
    if k = ukSink then fireSink t u s
    else if shadow && x.gate == 1 then emitPlain t u first mask 1 s
    else if k = ukFork then fireFork t u (a.1.1.headD []) s
    else if k = ukSelect then fireSelect t u first a.1.1 s
    else if k = ukMerge then fireMerge t u first a.1.1 s
    else s

/-- The operand store delivers the operands of a group with correctable errors corrected and byte parity good; else the tile
records OPSTORE_UE, or OPERAND_PARITY where an operand of one of the queues `bad` fails parity (R129, R329, R330). -/
def readGroup (t : Nat) (bad tags qs : List Nat) (s : State) : Bool × State :=
  qs.foldl (fun a q =>
    if !a.1 then a
    else
      let mine := (queueRun (tile a.2 t) q).items.filter fun i => tags.contains (opTag i.op)
      let b := mine.foldl (fun b i => if b.1 then readRange t 4 i.entry 1 b.2 else b) a
      if b.1 && bad.contains q && !mine.isEmpty then (false, integrityFault t ckOperandParity b.2) else b) (true, s)

/-- Fire a unit's group once its operands have been read. -/
def fireChecked (t : Nat) (bad : List Nat) (u first : Nat) (s : State) : State :=
  let d := unitDesc (tile s t) u
  let a := readGroup t bad (groupTags first (unGroup d)) (inQueues d) s
  if a.1 then fireUnit t u first (tileCount1 t (unitCnt t u 0) 1 a.2) else a.2

/-! ### Stall classes (R153) -/

/-- Whether a unit's pass or kernel is running (R153). -/
def unitRuns (x : TileState) (u : Nat) : Bool :=
  (x.passes.any fun r => r.phase == .running && r.job.unit == u) ||
    (match x.kernel with
     | some k => k.job.unit == u
     | none => false)

/-- Whether a unit's pass or kernel is running or queued in the sequencer (R146). -/
def unitBusy (x : TileState) (u : Nat) : Bool :=
  (x.passQ.any (·.unit == u)) || ((x.kernQ.any (·.unit == u)) || ((x.passes.any (·.job.unit == u)) ||
    (match x.kernel with
     | some k => k.job.unit == u
     | none => false)))

/-- Whether the oldest group of a unit lacks an operand that is held in spill. -/
def lacksSpilled (x : TileState) (u : Nat) : Bool :=
  let d := unitDesc x u
  (inQueues d).any fun q => (queueRun x q).spilled.any fun o => groupOf (unGroup d) o.tag == (unitRun x u).base

/-- Count one TCLK against a unit. -/
def unitCount (t u k : Nat) (s : State) : State := tileCount1 t (unitCnt t u k) 1 s

/-- Place a unit that has not fired in its stall class. -/
def classify (t u : Nat) (s : State) : State :=
  let x := tile s t
  let d := unitDesc x u
  match firable x u with
  | some g =>
    if hasCredits x u && hasRoomFor s t u (allSkips d (skipMask x d g)) then s else unitCount t u 2 s
  | none =>
    if unKind d = ukSource ∨ unitRuns x u then s
    else if lacksSpilled x u then unitCount t u 4 s
    else if (inQueues d).all fun q => !(queueRun x q).items.isEmpty then unitCount t u 3 s
    else unitCount t u 1 s

/-! ### The matcher's TCLK (R132, R141, R147) -/

/-- Whether a unit may fire a group now: a shadow unit waits for its gate (R341). -/
def mayFire (s : State) (t u first : Nat) : Bool :=
  let x := tile s t
  let d := unitDesc x u
  let shadow := isShadow s t d
  let skip := (shadow && x.gate == 1) || allSkips d (skipMask x d first)
  !(shadow && x.gate == 0) && (hasCredits x u && hasRoomFor s t u skip)

/-- One turn of the firing procedure for a unit; the number fired so far and the state. -/
def tryUnit (t : Nat) (bad : List Nat) (a : Nat × State) (u : Nat) : Nat × State :=
  let s := a.2
  if tileSt s t ≠ tsRun then a
  else match firable (tile s t) u with
    | none => (a.1, classify t u s)
    | some g =>
      if a.1 < 2 && mayFire s t u g then (a.1 + 1, fireChecked t bad u g s)
      else (a.1, classify t u s)

/-- Units of a tile in round robin, after the one that fired last. -/
def roundRobin (x : TileState) : List Nat :=
  let l := unitNums x
  (l.filter fun u => x.lastUnit < u) ++ (l.filter fun u => u ≤ x.lastUnit)

/-- A spill of the running layer is open. -/
def spillIsOpen (s : State) : Bool := !s.req.spillOpen.isEmpty

/-- The tag-wait timer of a unit in one TCLK (R141). -/
def unitTimer (t : Nat) (issue : Bool) (s : State) (u : Nat) : State :=
  let x := tile s t
  if unKind (unitDesc x u) = ukSource then s
  else
    let r := unitRun x u
    let new := match partGroup x u, r.timer with
      | none, _ => none
      | some g, some (g', n) => if g = g' then some (g, n + b2n issue) else some (g, 0)
      | some g, none => some (g, 0)
    setUnit t u { r with timer := new } s

/-- The detectors are held, and the quiet counts with them (R151). -/
def detectorsHeld (s : State) : Bool :=
  spillIsOpen s || (s.req.change.isSome || (s.boot.remap.isSome ||
    (graphTiles s).any fun u => tileSt s u != tsRun))

/-- The matcher's work in one TCLK of a tile in RUN. -/
def matchTick (t : Nat) (bad : List Nat) (s : State) : State :=
  let held := detectorsHeld s
  let s := updTile t (fun x => { x with quiet := if held then x.quiet else x.quiet + 1 }) s
  let s := ((roundRobin (tile s t)).foldl (tryUnit t bad) (0, s)).2
  let issue := issueClock s t && !spillIsOpen s
  if tileSt s t = tsRun then (unitNums (tile s t)).foldl (unitTimer t issue) s else s

/-- Whether the arrays or the stream processor of a tile move data. -/
def pathsActive (x : TileState) : Bool := (x.passes.any fun r => r.phase == .running) || x.kernel.isSome

/-- UNIT_FIRE: one TCLK of a tile: the tag matcher fires at most two units, and the arrays go on by a TCLK (R132, R93). `bad`
names the queues of which an operand fails byte parity at a firing, and `pathBad` says that a byte fails parity on a path of
the arrays or the stream processor, which records PATH_PARITY (R329). -/
def execUnitFire (t : TileId) (bad : List Nat) (pathBad : Bool) (s : State) : Host.Outcome State Fault Refusal :=
  .next (powered (fun s =>
    if tileOff s t then s
    else
      let s := updTile t (fun x => { x with tclk := x.tclk + 1 }) s
      let s := if tileSt s t = tsRun then matchTick t bad s else s
      if !tileWorks s t then s
      else if pathBad && pathsActive (tile s t) then integrityFault t ckPathParity s
      else arraysTick t s) s)

/-- OPERAND_ARRIVE: the oldest operand in flight to a queue that is due arrives (R131, R133, R567). One that comes on a lattice
channel is placed when its words, with the bits `flips` inverted on their way, have good parity (R227). -/
def execOperandArrive (t : TileId) (q : Nat) (flips : List (Nat × Nat)) (s : State) : Host.Outcome State Fault Refusal :=
  .next (powered (fun s =>
    let x := tile s t
    if tileOff s t then s
    else match findIdxFrom (fun f => f.q == q && decide (f.due ≤ x.tclk)) 0 x.flight with
      | none => s
      | some (i, f) =>
        let s := setTile t { x with flight := eraseAt i x.flight } s
        if f.words.isEmpty then deliver t q f.op s
        else
          let ws := flipWords flips f.words
          if ws.any wordBad then latticeParity t (ws.filter wordBad).length s
          else deliver t q (fromBytes ((wordBytes ws).take 16)) s) s)

/-- QUIET_LOG2 of the running layer; values below 8 act as 8 (R152). -/
def quietLog2 (c : Nat) : Nat := max 8 (bits c 1 4)

/-- TAG_HORIZON_EXPIRE: a unit's tag-wait timer has reached the horizon (R141, R142). -/
def execTagHorizonExpire (t : TileId) (u : Nat) (s : State) : Host.Outcome State Fault Refusal :=
  .next (powered (fun s =>
    match (unitRun (tile s t) u).timer with
    | none => s
    | some (g, n) => if tileSt s t = tsRun ∧ 2 ^ s.req.horizon ≤ n then tagFault t dfHorizon u 0xFF g s else s) s)

/-- Instructions that a microcode routine retires: their number is the firmware's, a free value (R120; DESIGN CHOICE). -/
def microRetired (t : Nat) (s : State) : State :=
  let f := freeNat 64 s
  tileCount1 t (tilCnt t TilCnt.tilSpinstrCnt) f.1 f.2

end Sys2Proof.Machine
end

