-- ==== Sys2Proof/Machine/SpOps.lean ====
section
/-! DEFINITION. The stream processor: registers, the running kernel, exact arithmetic on lanes, and functions
(R73–R77, R101–R110). -/

namespace Sys2Proof.Machine

open Sys2Proof

/-! ### Registers (R101) -/

/-- A lane of a vector register. -/
def vlane (x : TileState) (r l : Nat) : Nat := (tget (fun _ => (0 : BitVec 32)) x.v (64 * (r % 32) + l)).toNat

/-- A scalar register; names have bit 4 set, and bits [3:0] select (R102). -/
def scalar (x : TileState) (r : Nat) : Nat := (tget (fun _ => (0 : Reg)) x.sreg (r % 16)).toNat

/-- Set a scalar register. -/
def setScalar (r v : Nat) (x : TileState) : TileState :=
  { x with sreg := tset (fun _ => (0 : Reg)) (r % 16) (BitVec.ofNat 64 v) x.sreg }

/-- A predicate register: p0 reads as all ones. -/
def predReg (x : TileState) (p : Nat) : Nat :=
  if p % 4 = 0 then 2 ^ 64 - 1 else (tget (fun _ => (0 : Reg)) x.preg (p % 4)).toNat

/-- Set a predicate register; p0 ignores writes. -/
def setPred (p v : Nat) (x : TileState) : TileState :=
  if p % 4 = 0 then x else { x with preg := tset (fun _ => (0 : Reg)) (p % 4) (BitVec.ofNat 64 v) x.preg }

/-- Write lanes of a vector register under a predicate: the others keep theirs (R102). -/
def writeLanes (r pred : Nat) (f : Nat → Nat) (x : TileState) : TileState :=
  { x with v := (List.range 64).foldl (fun m l =>
      if bit1 pred l then tset (fun _ => (0 : BitVec 32)) (64 * (r % 32) + l) (BitVec.ofNat 32 (f l)) m else m) x.v }

/-! ### The running kernel (R110, R111) -/

/-- An entry of the kernel entry table, and its fields. -/
def kernelEntry (x : TileState) (k : Nat) : Nat := istoreNat x (0x10000 + 8 * k) 8
def keFirst (e : Nat) : Nat := bits e 0 18
def keLength (e : Nat) : Nat := bits e 18 14
def keTask (e : Nat) : Nat := bits e 32 6

/-- Entry of the kernel that runs, and the instruction-store offset of its next instruction. -/
def runEntry (x : TileState) (k : KernelRun) : Nat := kernelEntry x k.job.target
def runOffset (x : TileState) (k : KernelRun) : Nat := keFirst (runEntry x k) + 8 * k.pc

/-- Task table entry under which a kernel runs. -/
def runTask (s : State) (t : Nat) (k : KernelRun) : Nat := taskEntry s t (keTask (runEntry (tile s t) k))

/-- Replace the running kernel. -/
def setKernel (t : Nat) (k : KernelRun) (s : State) : State := updTile t (fun x => { x with kernel := some k }) s

/-- The instruction after the present one, with the hardware loops that end at it. -/
def afterInstr (pc : Nat) : List SpLoop → Nat × List SpLoop
  | [] => (pc + 1, [])
  | l :: r => if l.last = pc then (if 0 < l.left then (l.first, { l with left := l.left - 1 } :: r) else afterInstr pc r)
    else (pc + 1, l :: r)

/-- Retire an instruction: the kernel goes on with the next one, and the tile counts it. -/
def retire (t : Nat) (k : KernelRun) (s : State) : State :=
  let n := afterInstr k.pc k.loops
  tileCount1 t (tilCnt t TilCnt.tilSpinstrCnt) 1 (setKernel t { k with pc := n.1, loops := n.2 } s)

/-- The kernel breaks a rule at its present instruction: a tile fault that names the instruction's offset. -/
def spFault (t code : Nat) (k : KernelRun) (s : State) : State := tileFault t code (runOffset (tile s t) k) s

/-- Opcode and the other fields of an instruction word (R102). -/
def spOpcode (w : Nat) : Nat := bits w 0 8
def spTy (n : Nat) : SpTy := if n = 0 then .fp32 else if n = 1 then .bf16 else if n = 2 then .fp16 else .int32
def spFields (w : Nat) : SpFields :=
  { ty := spTy (bits w 8 2), vd := bits w 10 5, va := bits w 15 5, vb := bits w 20 5, vc := bits w 25 5, ps := bits w 30 2
    imm := bits w 32 32 }

/-- The instruction classes of R103, each by its first opcode and the number of its opcodes. -/
inductive SpClass where
  | arith | convert | function | reduce | logic | memory | control
  deriving DecidableEq, Repr

/-- Opcodes of a class: the first, and the last. -/
def SpClass.range : SpClass → Nat × Nat
  | .arith => (0x00, 0x1F)
  | .convert => (0x20, 0x2F)
  | .function => (0x30, 0x3F)
  | .reduce => (0x40, 0x4F)
  | .logic => (0x50, 0x5F)
  | .memory => (0x60, 0x6F)
  | .control => (0x70, 0x7F)

/-- Whether a word is an instruction of a class. Which opcode of its class each operation has the spec does not state, so the
command names the operation. -/
def isClass (c : SpClass) (w : Nat) : Bool := decide (c.range.1 ≤ spOpcode w) && decide (spOpcode w ≤ c.range.2)

/-- Whether a word is an instruction of a class with these fields (R102, R103). -/
def isInstr (c : SpClass) (o : SpFields) (w : Nat) : Bool := isClass c w && spFields w == o

/-- Whether a word is a microcode call of a routine (R103, R109). -/
def isCall (index w : Nat) : Bool := isClass .control w && (spFields w).imm == index

/-- Whether a word is illegal: its opcode is above 0x7F or unassigned within its class (R103). -/
def isIllegal (op w : Nat) : Bool := spOpcode w == op && (decide (0x80 ≤ op) || !Config.spAssigned op)

/-- The instruction word that a kernel runs next. -/
def spWord (x : TileState) (k : KernelRun) : Nat := istoreNat x (runOffset x k) 8

/-- Issue an instruction of the running kernel: fetched from the instruction store within the kernel's length, it is the word
that the command carries out. Nothing happens while no kernel runs, a routine runs for it, the tile has stopped, or the
kernel's next word is another instruction (R102, R103, R108, R110, R114). -/
def spIssue (t : Nat) (m : Nat → Bool) (f : KernelRun → State → State) (s : State) : State :=
  match (tile s t).kernel with
  | none => s
  | some k =>
    if !tileWorks s t || k.micro.isSome then s
    else if keLength (runEntry (tile s t) k) ≤ k.pc then spFault t tfIsBound k s
    else if !m (spWord (tile s t) k) then s
    else
      let a := readRange t 3 (runOffset (tile s t) k / 8) 1 s
      if a.1 then f k a.2 else a.2

/-- Issue an instruction that changes the tile's registers and retires. -/
def spCompute (t : Nat) (m : Nat → Bool) (f : TileState → TileState) (s : State) : State :=
  spIssue t m (fun k s => retire t k (updTile t f s)) s

/-- A microcode routine called by the kernel has done its work: it retires its instructions, and the kernel goes on at the
return (R103, R109). -/
def routineDone (t idx : Nat) (k : KernelRun) (s : State) : State := microRetired t (setKernel t { k with micro := some idx } s)

/-! ### Exact arithmetic (R73) -/

/-- A finite value as a signed count of units of 2^e. -/
def signedOf (neg : Bool) (m : Nat) : Int := if neg then -(m : Int) else (m : Int)

/-- Exact sum; a zero sum is −0 only when both are negative. -/
def addNum : Num → Num → Num
  | .fin n1 m1 e1, .fin n2 m2 e2 =>
    let e := min e1 e2
    let x := signedOf n1 (m1 * 2 ^ (e1 - e).toNat) + signedOf n2 (m2 * 2 ^ (e2 - e).toNat)
    if x = 0 then .fin (n1 && n2) 0 0 else .fin (decide (x < 0)) x.natAbs e
  | .nan, _ => .nan
  | _, .nan => .nan
  | .inf a, .inf b => if a = b then .inf a else .nan
  | .inf a, _ => .inf a
  | _, .inf b => .inf b

/-- Exact product. -/
def mulNum : Num → Num → Num
  | .fin n1 m1 e1, .fin n2 m2 e2 => .fin (n1 != n2) (m1 * m2) (e1 + e2)
  | .nan, _ => .nan
  | _, .nan => .nan
  | .inf a, .inf b => .inf (a != b)
  | .inf a, .fin n m _ => if m = 0 then .nan else .inf (a != n)
  | .fin n m _, .inf b => if m = 0 then .nan else .inf (n != b)

/-- Negation. -/
def negNum : Num → Num
  | .nan => .nan
  | .inf n => .inf (!n)
  | .fin n m e => .fin (!n) m e

/-- Magnitude. -/
def absNum : Num → Num
  | .nan => .nan
  | .inf _ => .inf false
  | .fin _ m e => .fin false m e

/-- Comparison: −1, 0 or 1; `none` when an operand is a NaN. -/
def cmpNum (a b : Num) : Option Int :=
  match a, b with
  | .nan, _ => none
  | _, .nan => none
  | .inf x, .inf y => some (if x = y then 0 else if x then -1 else 1)
  | .inf x, _ => some (if x then -1 else 1)
  | _, .inf y => some (if y then 1 else -1)
  | .fin n1 m1 e1, .fin n2 m2 e2 =>
    let e := min e1 e2
    let x := signedOf n1 (m1 * 2 ^ (e1 - e).toNat) - signedOf n2 (m2 * 2 ^ (e2 - e).toNat)
    some (if x < 0 then -1 else if x = 0 then 0 else 1)

/-- The floating-point format of an operand type. -/
def tyFmt : SpTy → Option FpFmt
  | .fp32 => some fFp32
  | .bf16 => some fBf16
  | .fp16 => some fFp16
  | .int32 => none

/-- Code of an operand type, and of a vector operation, for open results. -/
def tyCode : SpTy → Nat
  | .fp32 => 0
  | .bf16 => 1
  | .fp16 => 2
  | .int32 => 3
def vecCode : VecOp → Nat
  | .add => 0
  | .sub => 1
  | .mul => 2
  | .fma => 3
  | .min => 4
  | .max => 5
  | .abs => 6
  | .neg => 7
  | .cmp _ => 8
  | .select => 9

/-- A result that the spec does not state for the operands, cut to the type's width (R73, R101). -/
def openResult (op : Nat) (ty : SpTy) (a b c : Nat) : Nat :=
  (Config.spOpen op (tyCode ty) a b c).toNat % (if ty = .bf16 ∨ ty = .fp16 then 2 ^ 16 else 2 ^ 32)

/-- The value of a lane by its type. -/
def laneNum (ty : SpTy) (v : Nat) : Num :=
  match tyFmt ty with
  | some f => decodeFp f v
  | none => ofInt (signed 32 v)

/-- An exact integer result: the number itself when 32 bits hold it, and else what the spec leaves open (R73). -/
def exactInt (op : Nat) (x : Int) (a b c : Nat) : Nat :=
  if -(2 ^ 31) ≤ x ∧ x < 2 ^ 31 then unsigned 32 x else openResult op .int32 a b c

/-- One lane of a vector arithmetic operation on integers. -/
def laneInt (op : VecOp) (a b c : Nat) : Nat :=
  let x := signed 32 a
  let y := signed 32 b
  let z := signed 32 c
  match op with
  | .add => exactInt 0 (x + y) a b 0
  | .sub => exactInt 1 (x - y) a b 0
  | .mul => exactInt 2 (x * y) a b 0
  | .fma => exactInt 3 (x * y + z) a b c
  | .min => if y < x then b else a
  | .max => if x < y then b else a
  | .abs => exactInt 6 (if x < 0 then -x else x) a 0 0
  | .neg => exactInt 7 (-x) a 0 0
  | _ => a

/-- A lane's value in the width of its type: bits [31:16] of a 16-bit value are zero (R101). -/
def tyCut (ty : SpTy) (v : Nat) : Nat := if ty = .bf16 ∨ ty = .fp16 then v % 2 ^ 16 else v

/-- The lesser or the greater of two floating-point lanes. Of one NaN the spec does not say whether the other operand or a NaN
results, nor of zeros of both signs which of them; a NaN that results is the canonical one (R73). -/
def laneMinMax (op : VecOp) (f : FpFmt) (ty : SpTy) (least : Bool) (a b : Nat) : Nat :=
  let x := decodeFp f a
  let y := decodeFp f b
  let second := openResult (vecCode op) ty a b 0 % 2 == 1
  match cmpNum x y with
  | none =>
    if x = .nan ∧ y = .nan ∨ second then f.nanCode else tyCut ty (if x = .nan then b else a)
  | some o =>
    if o = 0 then tyCut ty (if second then b else a)
    else if (o < 0) = (least = true) then tyCut ty a else tyCut ty b

/-- One lane of a vector arithmetic operation on floating-point numbers: one rounding (R73). -/
def laneFp (op : VecOp) (f : FpFmt) (ty : SpTy) (a b c : Nat) : Nat :=
  let x := decodeFp f a
  let y := decodeFp f b
  match op with
  | .add => encodeInf f (addNum x y)
  | .sub => encodeInf f (addNum x (negNum y))
  | .mul => encodeInf f (mulNum x y)
  | .fma => encodeInf f (addNum (mulNum x y) (decodeFp f c))
  | .min => laneMinMax .min f ty true a b
  | .max => laneMinMax .max f ty false a b
  | .abs => encodeInf f (absNum x)
  | .neg => encodeInf f (negNum x)
  | _ => a

/-- One lane of a vector arithmetic operation. -/
def laneArith (op : VecOp) (ty : SpTy) (a b c : Nat) : Nat :=
  match tyFmt ty with
  | some f => laneFp op f ty a b c
  | none => laneInt op a b c

/-- One lane of a comparison; with a NaN the spec states no result. -/
def laneCmp (r : Cmp) (ty : SpTy) (a b : Nat) : Bool :=
  match cmpNum (laneNum ty a) (laneNum ty b) with
  | none => (Config.spOpen 8 (tyCode ty) a b (match r with
      | .eq => 0
      | .ne => 1
      | .lt => 2
      | .le => 3)).toNat % 2 == 1
  | some o => match r with
    | .eq => o == 0
    | .ne => o != 0
    | .lt => decide (o < 0)
    | .le => decide (o ≤ 0)

/-- A value in an operand type: rounded to nearest even; an integer out of range, or of a NaN, the spec leaves open. -/
def toTy (ty : SpTy) (x : Num) (a : Nat) : Nat :=
  match tyFmt ty with
  | some f => encodeInf f x
  | none => match x with
    | .fin _ _ _ =>
      let r := encodeInt 32 x
      if r.2 then openResult 10 .int32 a 0 0 else r.1
    | _ => openResult 10 .int32 a 0 0

/-! ### Functions (R75, R76) -/

/-- The number of a function in the table of R75. -/
def fnCode : SpFn → Nat
  | .exp => 0
  | .log2 => 1
  | .recip => 2
  | .rsqrt => 3
  | .tanh => 4
  | .sigmoid => 5
  | .gelu => 6
  | .silu => 7
  | .softplus => 8

/-- Whether ± m × 2^e lies below n ÷ d, and whether it lies above. -/
def belowRat (neg : Bool) (m : Nat) (e : Int) (n : Int) (d : Nat) : Bool :=
  decide (signedOf neg (m * 2 ^ e.toNat * d) < n * ((2 ^ (-e).toNat : Nat) : Int))
def aboveRat (neg : Bool) (m : Nat) (e : Int) (n : Int) (d : Nat) : Bool :=
  decide (n * ((2 ^ (-e).toNat : Nat) : Int) < signedOf neg (m * 2 ^ e.toNat * d))

/-- FP32 codes of results that the table names. -/
def cInf : Nat := 0x7F800000
def cOne : Nat := 0x3F800000
def cNan : Nat := 0x7FC00000
def cSign : Nat := 0x80000000

/-- The exp evaluation of a finite value. -/
def expEval (x : Nat) (neg : Bool) (m : Nat) (e : Int) : Nat :=
  if aboveRat neg m e 887228 10000 then cInf
  else if belowRat neg m e (-1039721) 10000 then 0
  else romValue .exp 0 x neg m e

/-- A function's limit at an infinity (R76). -/
def fnLimit (fn : SpFn) (neg : Bool) : Nat :=
  match fn with
  | .exp => if neg then 0 else cInf
  | .log2 => if neg then cNan else cInf
  | .recip => if neg then cSign else 0
  | .rsqrt => if neg then cNan else 0
  | .tanh => if neg then cOne + cSign else cOne
  | .sigmoid => if neg then 0 else cOne
  | .gelu => if neg then cSign else cInf
  | .silu => if neg then cSign else cInf
  | .softplus => if neg then 0 else cInf

/-- A function of a finite FP32 value: outside the evaluated interval as the table states, inside by the function ROM. -/
def fnFinite (fn : SpFn) (x : Nat) (neg : Bool) (m : Nat) (e : Int) : Nat :=
  let rom := romValue fn (fnCode fn) x neg m e
  match fn with
  | .exp => expEval x neg m e
  | .log2 => if m = 0 then cInf + cSign else if neg then cNan else rom
  | .recip => if m = 0 then (if neg then cInf + cSign else cInf) else rom
  | .rsqrt => if m = 0 then (if neg then cInf + cSign else cInf) else if neg then cNan else rom
  | .tanh => if aboveRat false m e 9 1 ∨ ¬belowRat false m e 9 1 then (if neg then cOne + cSign else cOne) else rom
  | .sigmoid => if ¬belowRat neg m e 35 2 then cOne else if belowRat neg m e (-16) 1 then expEval x neg m e else rom
  | .gelu => if belowRat neg m e (-8) 1 then cSign else if aboveRat neg m e 8 1 then x else rom
  | .silu =>
    if aboveRat neg m e 20 1 then x
    else if belowRat neg m e (-20) 1 then
      encodeInf fFp32 (mulNum (.fin neg m e) (decodeFp fFp32 (expEval x neg m e)))
    else rom
  | .softplus => if aboveRat neg m e 20 1 then x else if belowRat neg m e (-20) 1 then expEval x neg m e else rom

/-- A function of an FP32 code. -/
def fnBits (fn : SpFn) (x : Nat) : Nat :=
  match decodeFp fFp32 x with
  | .nan => cNan
  | .inf neg => fnLimit fn neg
  | .fin neg m e => fnFinite fn x neg m e

/-- Whether a function of a finite value lies in the interval that its segments cover. -/
def fnBounded (fn : SpFn) (neg : Bool) (m : Nat) (e : Int) : Bool :=
  match fn with
  | .exp => !aboveRat neg m e 887228 10000 && !belowRat neg m e (-1039721) 10000
  | .log2 => m != 0 && !neg
  | .recip => m != 0
  | .rsqrt => m != 0 && !neg
  | .tanh => belowRat false m e 9 1
  | .sigmoid => belowRat neg m e 35 2 && !belowRat neg m e (-16) 1
  | .gelu => !belowRat neg m e (-8) 1 && !aboveRat neg m e 8 1
  | .silu => !belowRat neg m e (-20) 1 && !aboveRat neg m e 20 1
  | .softplus => !belowRat neg m e (-20) 1 && !aboveRat neg m e 20 1

/-- A function of a lane: of BF16 and FP16 the FP32 result rounded once, within 1 ULP of the
exact value; of integers the spec states none (R75). -/
def laneFn (fn : SpFn) (ty : SpTy) (a : Nat) : Nat :=
  match tyFmt ty with
  | none => openResult (32 + fnCode fn) ty a 0 0
  | some f =>
    let x := decodeFp f a
    let r := fnBits fn (encodeInf fFp32 x)
    if ty = .fp32 then r
    else
      let h := encodeInf f (decodeFp fFp32 r)
      match x with
      | .fin neg m e => if fnBounded fn neg m e then fxHold f 1 0 (fxFunction fn (fxOf neg m e)) h else h
      | _ => h

/-! ### Lane reductions (R104) -/

/-- Combine neighbours, level by level. -/
def pairUp (f : Nat → Nat → Nat) : List Nat → List Nat
  | a :: b :: r => f a b :: pairUp f r
  | l => l

/-- The tree of six levels. -/
def reduceTree (f : Nat → Nat → Nat) (l : List Nat) : Nat :=
  ((List.range 6).foldl (fun l _ => pairUp f l) l).headD 0

/-- What a lane whose predicate bit is 0 contributes; of integers, maximum and minimum take the bound of the type. -/
def neutral (op : RedOp) (ty : SpTy) : Nat :=
  match op, tyFmt ty with
  | .sum, _ => 0
  | .max, some f => f.infCode + f.signBit
  | .min, some f => f.infCode
  | .max, none => 2 ^ 31
  | .min, none => 2 ^ 31 - 1

/-- The operation of a reduction on two lanes. -/
def redOp : RedOp → VecOp
  | .sum => .add
  | .max => .max
  | .min => .min

/-! ### Integer and logic operations (R103) -/

/-- One lane of an integer or logic operation; a shift by 32 or more, and a result that 32 bits do not hold, the spec
leaves open. -/
def laneLogic (op : IntOp) (lane a b : Nat) : Nat :=
  match op with
  | .and => a &&& b
  | .or => a ||| b
  | .xor => a ^^^ b
  | .shl => if b < 32 then a * 2 ^ b % 2 ^ 32 else openResult 64 .int32 a b 0
  | .shr => if b < 32 then a / 2 ^ b else openResult 65 .int32 a b 0
  | .sar => if b < 32 then unsigned 32 (signed 32 a / ((2 ^ b : Nat) : Int)) else openResult 66 .int32 a b 0
  | .add => exactInt 67 (signed 32 a + signed 32 b) a b 0
  | .sub => exactInt 68 (signed 32 a - signed 32 b) a b 0
  | .mul => exactInt 69 (signed 32 a * signed 32 b) a b 0
  | .laneIndex => lane

end Sys2Proof.Machine
end

