-- ==== Sys2Proof/Machine/Sp.lean ====
section
/-! DEFINITION. The instructions of the stream processor, one meaning for each class of R103, and its kernels. -/

namespace Sys2Proof.Machine

open Sys2Proof

/-- KERNEL_START: the stream processor takes the next kernel; s15 holds the group's skip mask (R111, R135). -/
def execKernelStart (t : TileId) (s : State) : Host.Outcome State Fault Refusal :=
  .next (powered (fun s =>
    let x := tile s t
    match x.kernQ with
    | [] => s
    | j :: rest =>
      if tileSt s t ≠ tsRun ∨ x.kernel.isSome then s
      else
        setTile t (setScalar 15 j.skips { x with kernQ := rest, kernel := some { job := j } }) s) s)

/-! ### Vector instructions -/

/-- SP_VECTOR_ARITH: arithmetic, comparison to a predicate register named by VD, or a choice between VA and VB by the
predicate register named by VC, on the lanes of the instruction's predicate (R73, R103). -/
def execSpVectorArith (t : TileId) (op : VecOp) (o : SpFields) (s : State) : Host.Outcome State Fault Refusal :=
  .next (powered (spCompute t (isInstr .arith o) fun x =>
    let pr := predReg x o.ps
    match op with
    | .cmp r =>
      let old := predReg x o.vd
      let v := (List.range 64).foldl (fun n l =>
        let b := if bit1 pr l then laneCmp r o.ty (vlane x o.va l) (vlane x o.vb l) else bit1 old l
        n + (if b then 2 ^ l else 0)) 0
      setPred o.vd v x
    | .select => writeLanes o.vd pr (fun l =>
        tyCut o.ty (if bit1 (predReg x o.vc) l then vlane x o.va l else vlane x o.vb l)) x
    | _ => writeLanes o.vd pr (fun l => laneArith op o.ty (vlane x o.va l) (vlane x o.vb l) (vlane x o.vc l)) x) s)

/-- SP_CONVERT: conversion between the stream processor's types, to E4M3 and E5M2 with saturation, and from them (R73). -/
def execSpConvert (t : TileId) (op : CvtOp) (o : SpFields) (s : State) : Host.Outcome State Fault Refusal :=
  .next (powered (spCompute t (isInstr .convert o) fun x =>
    writeLanes o.vd (predReg x o.ps) (fun l =>
      let a := vlane x o.va l
      match op with
      | .toType dst => toTy dst (laneNum o.ty a) a
      | .toE4M3 => (encodeSat fE4M3 (laneNum o.ty a)).1
      | .toE5M2 => (encodeSat fE5M2 (laneNum o.ty a)).1
      | .fromE4M3 => toTy o.ty (decodeFp fE4M3 a) a
      | .fromE5M2 => toTy o.ty (decodeFp fE5M2 a) a) x) s)

/-- The LA96 value of a lane of a register triple (R105). -/
def tripleOf (x : TileState) (r l : Nat) : Nat := vlane x r l + vlane x (r + 1) l * 2 ^ 32 + vlane x (r + 2) l * 2 ^ 64

/-- Format code of an output format (R89). -/
def outFmtCode : OutFmt → Nat
  | .e4m3 => 0
  | .e5m2 => 1
  | .int8 => 8
  | .int4 => 9
  | .bf16 => 0xB
  | .fp16 => 0xC
  | .fp32 => 0xD

/-- SP_LA96_CONVERT: the final conversion of a register triple with the G of the scalar register VB and the shift IMM; its
NaRs and saturations are counted (R60, R61, R105). -/
def execSpLa96Convert (t : TileId) (fmt : OutFmt) (o : SpFields) (s : State) : Host.Outcome State Fault Refusal :=
  .next (powered (spIssue t (isInstr .convert o) fun k s =>
    let x := tile s t
    if 29 < o.va then spFault t tfSpIllegal k s
    else
      let g := signed 64 (scalar x o.vb)
      let pr := predReg x o.ps
      let num := fun l => laNum (laOf (tripleOf x o.va l)) g (signed 32 o.imm)
      let code := fun l => finalCode (outFmtCode fmt) (num l)
      let on := (List.range 64).filter (bit1 pr)
      let s := noteConversions t (on.map num) (on.map code) s
      retire t k (updTile t (writeLanes o.vd pr fun l => (code l).1) s)) s)

/-- SP_MX_PACK: the 32 FP32 values of lanes 0–31 of VA become element codes in those lanes of VD, with the scale byte in
lane 32 (R62). DESIGN CHOICE: R62 names no lanes for the codes and the scale. -/
def execSpMxPack (t : TileId) (fmt : MxElem) (o : SpFields) (s : State) : Host.Outcome State Fault Refusal :=
  .next (powered (spIssue t (isInstr .convert o) fun k s =>
    let x := tile s t
    let vs := (List.range 32).map fun l => decodeFp fFp32 (vlane x o.va l)
    let u := mxScale fmt vs
    let cs := vs.map (mxElement fmt u)
    let s := noteSat t (cs.filter (·.2)).length s
    let pr := predReg x o.ps % 2 ^ 33
    retire t k (updTile t (writeLanes o.vd pr fun l => if l = 32 then u else (cs.getD l (0, false)).1) s)) s)

/-- SP_MX_UNPACK: the element codes of lanes 0–31 of VA under the scale byte of lane 32 become values of TY (R47,
R103). -/
def execSpMxUnpack (t : TileId) (fmt : MxElem) (o : SpFields) (s : State) : Host.Outcome State Fault Refusal :=
  .next (powered (spCompute t (isInstr .convert o) fun x =>
    let u := vlane x o.va 32 % 256
    writeLanes o.vd (predReg x o.ps % 2 ^ 32) (fun l =>
      let a := vlane x o.va l
      let n := if u = 0xFF then .nan
        else match elemNum (mxCode fmt) (a % 2 ^ elemBits (mxCode fmt)) with
          | .fin neg m e => .fin neg m (e + (u : Int) - 127)
          | n => n
      toTy o.ty n a) x) s)

/-- SP_FUNCTION: a function on the predicated lanes (R75, R76). -/
def execSpFunction (t : TileId) (fn : SpFn) (o : SpFields) (s : State) : Host.Outcome State Fault Refusal :=
  .next (powered (spCompute t (isInstr .function o) fun x => writeLanes o.vd (predReg x o.ps) (fun l => laneFn fn o.ty (vlane x o.va l)) x) s)

/-- SP_LANE_REDUCE: the 64 lanes combined in the fixed tree into lane 0 (R104). DESIGN CHOICE: lane 0 of the result is written
whatever its predicate bit, which R104 leaves open. -/
def execSpLaneReduce (t : TileId) (op : RedOp) (o : SpFields) (s : State) : Host.Outcome State Fault Refusal :=
  .next (powered (spCompute t (isInstr .reduce o) fun x =>
    let pr := predReg x o.ps
    let l := (List.range 64).map fun l => if bit1 pr l then vlane x o.va l else neutral op o.ty
    let v := reduceTree (fun a b => laneArith (redOp op) o.ty a b 0) l
    writeLanes o.vd 1 (fun _ => v) x) s)

/-- SP_INT_LOGIC: integer and logic operations and the lane index (R73, R103). -/
def execSpIntLogic (t : TileId) (op : IntOp) (o : SpFields) (s : State) : Host.Outcome State Fault Refusal :=
  .next (powered (spCompute t (isInstr .logic o) fun x =>
    writeLanes o.vd (predReg x o.ps) (fun l => laneLogic op l (vlane x o.va l) (vlane x o.vb l)) x) s)

/-! ### Memory instructions (R105, R106) -/

/-- The code of a memory the stream processor reaches. -/
def spMem : SpMem → Nat
  | .am => memAm
  | .pm => memPm

/-- Whether an access of `n` bytes at a byte offset is within the running task's bounds. -/
def spAdmits (e mem off n : Nat) : Bool := admits e mem (off / 64) (unitsOf (off % 64 + n))

/-- Carry out an access of `n` bytes at offset IMM: outside the task's bounds it is not performed, and the tile records
SP_BOUND. The access gets the byte address in the memory. -/
def spAccess (t : Nat) (m : Nat → Bool) (mem off n : Nat) (store : Bool) (f : Nat → KernelRun → State → State) (s : State) : State :=
  spIssue t m (fun k s =>
    let e := runTask s t k
    if !spAdmits e mem off n then spFault t tfSpBound k s
    else
      let u := taskBase e mem
      if store then f (64 * u + off) k s
      else
        let a := readRange t mem (u + off / 64) (unitsOf (off % 64 + n)) s
        if a.1 then f (64 * u + off) k a.2 else a.2) s

/-- Store bytes at a byte address of a memory; granules written whole get new check bits. -/
def spStore (t mem a : Nat) (bs : List Byte) (s : State) : State :=
  updTile t (fun x =>
    let first := unitsOf a
    let last := (a + bs.length) / 64
    memWrite mem a bs (clearGranules mem first (last - first) x)) s

/-- SP_VECTOR_LOAD_STORE: 256 bytes between a vector register and AM or PM: VD of a load, VA of a store (R103, R106). -/
def execSpVectorLoadStore (t : TileId) (store : Bool) (mem : SpMem) (o : SpFields) (s : State) :
    Host.Outcome State Fault Refusal :=
  .next (powered (spAccess t (isInstr .memory o) (spMem mem) o.imm 256 store fun a k s =>
    let x := tile s t
    let pr := predReg x o.ps
    if store then
      if pr = 2 ^ 64 - 1 then
        retire t k (spStore t (spMem mem) a ((List.range 64).flatMap fun l => toBytes 4 (vlane x o.va l)) s)
      else retire t k ((List.range 64).foldl (fun s l =>
        if bit1 pr l then spStore t (spMem mem) (a + 4 * l) (toBytes 4 (vlane x o.va l)) s else s) s)
    else
      retire t k (updTile t (writeLanes o.vd pr fun l => memNat x (spMem mem) (a + 4 * l) 4) s)) s)

/-- SP_LA96_LOAD_STORE: an output row of 64 LA96 values between PM and a register triple (R105). DESIGN CHOICE: a triple that would
start above v29 records SP_ILLEGAL, and a store moves the whole row whatever the predicate. -/
def execSpLa96LoadStore (t : TileId) (store : Bool) (o : SpFields) (s : State) : Host.Outcome State Fault Refusal :=
  let r := if store then o.va else o.vd
  .next (powered (if 29 < r then spIssue t (isInstr .memory o) fun k s => spFault t tfSpIllegal k s
    else spAccess t (isInstr .memory o) memPm o.imm 768 store fun a k s =>
      let x := tile s t
      let pr := predReg x o.ps
      if store then
        retire t k (spStore t memPm a ((List.range 64).flatMap fun l => toBytes 12 (tripleOf x r l)) s)
      else
        let n := fun l => memNat x memPm (a + 12 * l) 12
        retire t k (updTile t (fun x =>
          writeLanes (r + 2) pr (fun l => bits (n l) 64 32) (writeLanes (r + 1) pr (fun l => bits (n l) 32 32)
            (writeLanes r pr (fun l => bits (n l) 0 32) x))) s)) s)

/-- SP_SCALAR_LOAD_STORE: 8 bytes between a scalar register and AM or PM: VD of a load, VA of a store (R103). -/
def execSpScalarLoadStore (t : TileId) (store : Bool) (mem : SpMem) (o : SpFields) (s : State) :
    Host.Outcome State Fault Refusal :=
  .next (powered (spAccess t (isInstr .memory o) (spMem mem) o.imm 8 store fun a k s =>
    let x := tile s t
    if store then retire t k (spStore t (spMem mem) a (toBytes 8 (scalar x o.va)) s)
    else retire t k (updTile t (setScalar o.vd (memNat x (spMem mem) a 8)) s)) s)

/-- SP_ANCHOR_READ: the anchor word of the AM unit at IMM, sign-extended, into the scalar register VD (R51, R103). -/
def execSpAnchorRead (t : TileId) (o : SpFields) (s : State) : Host.Outcome State Fault Refusal :=
  .next (powered (spAccess t (isInstr .memory o) memAm o.imm 1 false fun a k s =>
    let x := tile s t
    retire t k (updTile t (setScalar o.vd (unsigned 64 (signed 16 (anchorWord t x (a / 64))))) s)) s)

/-! ### Control (R103, R110, R134) -/

/-- SP_BRANCH: a branch by IMM instructions from the branch, always or on the scalar register VA; outside the kernel it
records IS_BOUND (R103, R110). -/
def execSpBranch (t : TileId) (cond : BranchCond) (o : SpFields) (s : State) : Host.Outcome State Fault Refusal :=
  .next (powered (spIssue t (isInstr .control o) fun k s =>
    let x := tile s t
    let taken := match cond with
      | .always => true
      | .zero => scalar x o.va == 0
      | .nonzero => scalar x o.va != 0
    let pc : Int := (k.pc : Int) + signed 32 o.imm
    if !taken then retire t k s
    else if pc < 0 ∨ (keLength (runEntry x k) : Int) ≤ pc then spFault t tfIsBound k s
    else tileCount1 t (tilCnt t TilCnt.tilSpinstrCnt) 1 (setKernel t { k with pc := pc.toNat } s)) s)

/-- SP_HW_LOOP: the next IMM instructions are repeated as often as the scalar register VA says; none of them runs when
that is zero (R103). -/
def execSpHwLoop (t : TileId) (o : SpFields) (s : State) : Host.Outcome State Fault Refusal :=
  .next (powered (spIssue t (isInstr .control o) fun k s =>
    let n := scalar (tile s t) o.va
    let k' : KernelRun := if o.imm = 0 then { k with pc := k.pc + 1 }
      else if n = 0 then { k with pc := k.pc + 1 + o.imm }
      else { k with pc := k.pc + 1, loops := { first := k.pc + 1, last := k.pc + o.imm, left := n - 1 } :: k.loops }
    tileCount1 t (tilCnt t TilCnt.tilSpinstrCnt) 1 (setKernel t k' s)) s)

/-- SP_MC_RETURN: a microcode routine returns to the kernel that called it (R103, R109). -/
def execSpMcReturn (t : TileId) (s : State) : Host.Outcome State Fault Refusal :=
  .next (powered (fun s =>
    match (tile s t).kernel with
    | none => s
    | some k => if tileWorks s t && k.micro.isSome then retire t { k with micro := none } s else s) s)

/-- Emit the next operand of a firing on the out edge of a port, and go on with `next`; an operand of a skip tag is a skip, and
one beyond the firing's count records a RATE fault (R134, R135). -/
def emitNext (t port kind aux payload : Nat) (k : KernelRun) (next : KernelRun → State → State) (s : State) : State :=
  let x := tile s t
  let d := unitDesc x k.job.unit
  let e := unOut d port
  let rate := edRate (edgeDesc x e)
  let n := tget (fun _ => 0) k.emitted e
  if unGroup d * rate ≤ n then tagFault t dfRate k.job.unit 0xFF k.job.tag s
  else
    let i := n / rate
    let op := mkOp (k.job.tag + i) (n % rate) (if bit1 k.job.skips i then okSkip else kind) aux payload
    emitOps t k.job.unit e 0 [op] (next { k with emitted := tset (fun _ => 0) e (n + 1) k.emitted } s)

/-- SP_EMIT: one operand leaves on the out edge of port VD, with the next tag and index of the firing; its payload is the
scalar register VA, its AUX the scalar register VB, its kind IMM[1:0]. An operand of a skip tag is a skip; one beyond the
firing's count records a RATE fault (R134, R135). -/
def execSpEmit (t : TileId) (o : SpFields) (s : State) : Host.Outcome State Fault Refusal :=
  .next (powered (spIssue t (isInstr .control o) fun k s =>
    let x := tile s t
    if unNout (unitDesc x k.job.unit) ≤ o.vd ∨ o.imm % 4 = 3 then spFault t tfSpIllegal k s
    else emitNext t o.vd (o.imm % 4) (scalar x o.vb) (scalar x o.va) k (retire t) s) s)

/-- SP_WAIT_FLAG: the kernel stalls until flag IMM[7:0] of its field has the awaited value (R252). -/
def execSpWaitFlag (t : TileId) (value : Bool) (o : SpFields) (s : State) : Host.Outcome State Fault Refusal :=
  .next (powered (spIssue t (isInstr .control o) fun k s =>
    let n := o.imm % 256
    if bit1 (rd s (fldFlags (tileField s t) (n / 32))).toNat (n % 32) = value then retire t k s else s) s)

/-- SP_FENCE: the kernel's earlier memory operations are done before its later ones; here each is done when it retires
(R103). -/
def execSpFence (t : TileId) (s : State) : Host.Outcome State Fault Refusal :=
  .next (powered (spIssue t (isClass .control) fun k s => retire t k s) s)

/-- SP_END_KERNEL: the kernel ends; an out edge short of its operands records a RATE fault, and the kernel is not counted
(R134). -/
def execSpEndKernel (t : TileId) (s : State) : Host.Outcome State Fault Refusal :=
  .next (powered (spIssue t (isClass .control) fun k s =>
    let x := tile s t
    let d := unitDesc x k.job.unit
    let short := (outEdges d).any fun e =>
      tget (fun _ => 0) k.emitted e != unGroup d * edRate (edgeDesc x e)
    if short then tagFault t dfRate k.job.unit 0xFF k.job.tag s
    else
      let s := tileCount1 t (tilCnt t TilCnt.tilKernelCnt) 1 (retire t k s)
      let s := updTile t (fun x => { x with kernel := none }) s
      freeSlots t k.job.back s) s)

/-- SP_ILLEGAL: an illegal opcode records SP_ILLEGAL (R103, R119). -/
def execSpIllegal (t : TileId) (opcode : Nat) (s : State) : Host.Outcome State Fault Refusal :=
  .next (powered (spIssue t (isIllegal opcode) fun k s => spFault t tfSpIllegal k s) s)

/-- MC_ABSENT: a call of a routine that the loaded microcode does not provide records MC_ABSENT; indices 0x0001 to 0x000B
are provided (R109, R169, R225, R252, R253). -/
def execMcAbsent (t : TileId) (index : Nat) (s : State) : Host.Outcome State Fault Refusal :=
  .next (powered (spIssue t (isCall index) fun k s =>
    if 1 ≤ index ∧ index ≤ 11 then s else spFault t tfMcAbsent k s) s)

/-! ### Routines called by kernels (R169, R225, R252, R253) -/

/-- LAT_SEND: the routine waits for credit and sends a landing message from AM: s1 the payload's AM offset in units, s2
the channel, s3 the header (R225). -/
def execLatSend (t : TileId) (s : State) : Host.Outcome State Fault Refusal :=
  .next (powered (spIssue t (isCall 9) fun k s =>
    let x := tile s t
    let off := scalar x 1
    let ch := scalar x 2
    let h := scalar x 3 % 2 ^ 20
    let c := chanEntry s t ch
    let skip := bits h 18 2 == okSkip
    if 256 ≤ ch ∨ !(chValid c && (!chReceive c && chMode c == 1)) then spFault t tfSpIllegal k s
    else if skip then
      let s := addItems t (unitDesc x k.job.unit) [toBytes 2 k.job.tag ++ toBytes 4 h] s
      routineDone t 9 k (sendLanding t ch h [] s)
    else
      let e := runTask s t k
      let n := chMsgu c
      if !admits e memAm off n then spFault t tfSpBound k s
      else if (chan s t ch).credits < n then s
      else
        let a := readRange t memAm (taskBase e memAm + off) n s
        if !a.1 then a.2
        else
          let bs := memRead (tile a.2 t) memAm (64 * (taskBase e memAm + off)) (64 * n)
          let s := addItems t (unitDesc x k.job.unit) [toBytes 2 k.job.tag ++ toBytes 4 h ++ bs] a.2
          routineDone t 9 k (sendLanding t ch h bs s)) s)

/-- BAR_ARRIVE: an arrival at the barrier group in s1 with the sense in s2 is sent to its unit (R253). -/
def execBarArrive (t : TileId) (s : State) : Host.Outcome State Fault Refusal :=
  .next (powered (spIssue t (isCall 10) fun k s =>
    let x := tile s t
    let b := scalar x 1 % 64
    routineDone t 10 k (sendAwaited t (epBarrier (b / 2)) ocBarArrive (toBytes 1 (b + scalar x 2 % 2 * 64)) s)) s)

/-- FLAG_WRITE: a write of the flag in s2 of the field in s1, with OP and VALUE of s3, is sent to the field's controller;
with OP 0b11 nothing is sent, and the tile records SP_ILLEGAL (R252). -/
def execFlagWrite (t : TileId) (s : State) : Host.Outcome State Fault Refusal :=
  .next (powered (spIssue t (isCall 11) fun k s =>
    let x := tile s t
    let v := scalar x 3
    if bits v 8 2 = 3 then spFault t tfSpIllegal k s
    else
      let w := scalar x 2 % 256 + bits v 8 3 * 256
      routineDone t 11 k (sendAwaited t (epField (scalar x 1 % 16)) ocFlagWrite (toBytes 2 w) s)) s)

/-- ANCHOR_COMBINE: the anchor word of the AM unit in s1 becomes the greatest of its own and the word that has come along the
chain, which the first operand of the firing carries in AUX; the combined word stands in the sideband and in s2, and goes on
along the chain as an operand on the out port in s3, a port that the unit lacks sending none (R52, R225). -/
def execAnchorCombine (t : TileId) (s : State) : Host.Outcome State Fault Refusal :=
  .next (powered (spIssue t (isCall 4) fun k s =>
    let x := tile s t
    let e := runTask s t k
    let off := scalar x 1
    if !admits e memAm off 1 then spFault t tfSpBound k s
    else
      let u := taskBase e memAm + off
      let own := anchorWord t x u
      let v := match k.job.ops.find? fun o => opKind o == okValue with
        | none => own
        | some o => if signed 16 own < signed 16 (opAux o) then opAux o % 2 ^ 16 else own
      let s := updTile t (fun x => setScalar 2 (unsigned 64 (signed 16 v))
        { x with anchors := tset (fun _ => none) u (some v) x.anchors }) s
      if unNout (unitDesc x k.job.unit) ≤ scalar x 3 then routineDone t 4 k s
      else emitNext t (scalar x 3) okValue v 0 k (routineDone t 4) s) s)

end Sys2Proof.Machine
end

