-- ==== Sys2Proof/Machine/DmaOps.lean ====
section
/-! DEFINITION. DMA descriptors, the segments of a transfer, the packets an engine sends, and the end of a descriptor
(R168–R179, R237). -/

namespace Sys2Proof.Machine

open Sys2Proof

/-! ### Descriptors (R170–R172) -/

/-- Units of a segment, and segments of a transfer. -/
def segUnits (d : Nat) : Nat := 2 ^ (dmSegLog d + 2)
def segCount (d : Nat) : Nat := (dmLength d + segUnits d - 1) / segUnits d

/-- Units of segment `i`. -/
def segLen (d i : Nat) : Nat := min (segUnits d) (dmLength d - i * segUnits d)

/-- The source of a local copy: memory, AM or PM, and offset within the task. -/
def copyMem (d : Nat) : Nat := if Config.localSource d % 2 = 0 then memAm else memPm
def copyOff (d : Nat) : Nat := Config.localSource d / 2

/-- Accepted kind pairs (R171). -/
def kindsOk (d : Nat) : Bool :=
  decide (dmSrc d ≤ 2 ∧ dmDst d ≤ 2) && !(dmSrc d == dkWindow && dmDst d != dkLocal) && !(dmDst d == dkWindow && dmSrc d != dkLocal)

/-- The task under which a descriptor runs (R169). -/
def jobTask (j : DmaJob) : Nat := if j.priv then dmTask j.desc else j.task

/-- The descriptor check: a result code, 0 when it passes (R172). -/
def dmaCheck (s : State) (t : Nat) (j : DmaJob) : Nat :=
  let d := j.desc
  let e := taskEntry s t (jobTask j)
  if bits d 18 2 ≠ 0 ∨ bits d 24 8 ≠ 0 ∨ bits d 81 15 ≠ 0 ∨ bits d 112 16 ≠ 0 ∨ bits d 128 6 ≠ 0 ∨ bits d 168 24 ≠ 0 ∨
      bits d 239 17 ≠ 0 ∨ bits d 282 230 ≠ 0 ∨ !kindsOk d ∨ dmLmem d = 3 ∨ 10 < dmSegLog d ∨ dmLength d = 0 then 0x10
  else if (hasEnd d dkLocal && !admits e (dmLmem d) (dmLoff d) (dmLength d)) ||
      ((localCopy d && !admits e (copyMem d) (copyOff d) (dmLength d)) || !admits e memAm (dmSoff d) 1) then 0x11
  else if !j.priv && (dmDst d == dkLocal && dmLmem d == memWm) then 0x15
  else if hasEnd d dkWindow && decide (dmAdv d < dmRoff d + dmLength d) then 0x12
  else if 64 < segCount d then 0x13
  else if hasEnd d dkHbm && decide ((if j.priv then installed s else reservedBase s) <
      max (dmHaddr d) (readAddr d) + 64 * dmLength d) then 0x14
  else 0

/-! ### Segments (R173, R175) -/

/-- Whether a segment has failed, and whether it is done. -/
def segFailed (r : DmaRun) (i : Nat) : Bool := tget (fun _ => 0) r.why i != 0
def segDone (r : DmaRun) (i : Nat) : Bool := !segFailed r i && tget (fun _ => 0) r.acc i == segLen r.job.desc i

/-- A bitmap over the segments of a transfer. -/
def segMap (r : DmaRun) (f : DmaRun → Nat → Bool) : Nat :=
  (List.range (segCount r.job.desc)).foldl (fun m i => if f r i then m + 2 ^ i else m) 0

/-- A packet's data is accepted. -/
def segAccept (c : DmaCredit) (r : DmaRun) : DmaRun :=
  { r with acc := tset (fun _ => 0) c.seg (tget (fun _ => 0) r.acc c.seg + c.units) r.acc }

/-- A segment fails for a reason; its first one stands. -/
def segFail (i why : Nat) (r : DmaRun) : DmaRun :=
  if segFailed r i then r else { r with why := tset (fun _ => 0) i why r.why }

/-- RESULT of a transfer whose segments have all ended. -/
def dmaResult (r : DmaRun) : Nat :=
  let f := segMap r segFailed
  if f = 0 then 0 else if segMap r segDone = 0 then 2 else 1

/-- The status record. -/
def statusRecord (done fail result reason seg time : Nat) : Nat :=
  done + fail * 2 ^ 64 + result * 2 ^ 128 + reason * 2 ^ 136 + seg * 2 ^ 144 + time * 2 ^ 192

/-! ### Packets -/

/-- Packet of an engine's credit. -/
def dmaPacket (s : State) (t e idx dst opc : Nat) (fdn : Nat) (payload : List Byte) (ext : Nat) : Packet :=
  let data := decide (0x40 ≤ opc)
  { ctlPacket s t dst opc (1024 * e + idx) payload with
    data := data, dstFdn := fdn, ext := ext
    len := if data then (payload.length + 63) / 64 else payload.length }

/-- Units of the packet at a position: up to 4, within its segment, and within a 256-byte block of an HBM end (R173,
R237). -/
def packetUnits (d pos : Nat) : Nat :=
  let n := min 4 (min (dmLength d - pos) (segUnits d - pos % segUnits d))
  if hasEnd d dkHbm then min n (4 - max ((dmHaddr d / 64 + pos) % 4) ((readAddr d / 64 + pos) % 4)) else n

/-- The lowest index that no packet of an engine without an answer has; when there is none, the lowest that a reclaimed credit
had (R174). -/
def freeIndex (g : DmaEngine) : Nat :=
  let used := (g.run.elim [] fun r => r.credits.map (·.idx)) ++ g.notes.map (·.idx)
  let free := (List.range 1024).filter fun i => !used.contains i
  (free.find? fun i => !g.stale.contains i).getD (free.headD 0)

/-- Physical unit of the local end at a position. -/
def localUnit (s : State) (t : Nat) (j : DmaJob) (pos : Nat) : Nat :=
  taskBase (taskEntry s t (jobTask j)) (dmLmem j.desc) + dmLoff j.desc + pos

/-- The home of an address. -/
def hbmTarget (s : State) (a : Nat) : Nat := epSlice (home s a).1

/-- The packet that moves the data at a position; a write carries what it is given. -/
def movePacket (s : State) (t e : Nat) (j : DmaJob) (c : DmaCredit) (bs : List Byte) : Packet :=
  let d := j.desc
  let a := (if dmSrc d = dkHbm then readAddr d else dmHaddr d) + 64 * c.pos
  if dmSrc d = dkHbm then
    dmaPacket s t e c.idx (hbmTarget s a) ocReadReq (ownFdn s)
      (toBytes 4 1 ++ toBytes 5 a ++ toBytes 1 0 ++ toBytes 1 c.units) 0
  else if dmSrc d = dkWindow then
    dmaPacket s t e c.idx (dmRtile d) ocReadReq (dmFdn d)
      (toBytes 4 (2 * dmRwin d + 32 * (dmRoff d + c.pos)) ++ toBytes 6 0 ++ toBytes 1 c.units) 0
  else if dmDst d = dkHbm then dmaPacket s t e c.idx (hbmTarget s a) ocHbmWrite (ownFdn s) bs a
  else dmaPacket s t e c.idx (dmRtile d) ocWrite (dmFdn d) bs (dmRwin d + 16 * (dmRoff d + c.pos))

/-- Replace an engine's running descriptor. -/
def setRun (t e : Nat) (r : DmaRun) (s : State) : State := setEngine t e { engine s t e with run := some r } s

/-- The sender refuses a packet whose HBM end has a FAILED home (R263). -/
def moveRefused (s : State) (d pos : Nat) : Bool :=
  (dmSrc d == dkHbm && homeFailed s (readAddr d + 64 * pos)) || (dmDst d == dkHbm && homeFailed s (dmHaddr d + 64 * pos))

/-- Send the next packet of a transfer. Local data that cannot be read, and a packet for a FAILED slice, is not sent, and its
segment fails (R157, R263, R266). -/
def sendNext (t e : Nat) (r : DmaRun) (s : State) : State :=
  let d := r.job.desc
  let n := packetUnits d r.next
  let seg := r.next / segUnits d
  let u := localUnit s t r.job r.next
  let a := if dmSrc d = dkLocal then readRange t (dmLmem d) u n s else (true, s)
  if !a.1 ∨ moveRefused s d r.next then setRun t e (segFail seg rrMemUe { r with next := r.next + n }) a.2
  else
    let s := a.2
    let c : DmaCredit := { idx := freeIndex { engine s t e with run := some r }, seg := seg, pos := r.next, units := n }
    let bs := if dmSrc d = dkLocal then memRead (tile s t) (dmLmem d) (64 * u) (64 * n) else []
    let p := movePacket s t e r.job c bs
    let c := { c with dst := p.dst, fdn := p.dstFdn, due := s.devtime + dataTicks s }
    let s := addR (ledCnt LedCnt.dmaOutstanding) 1 (addR (ledCnt LedCnt.dmaIssued) 1 s)
    send p (setRun t e { r with next := r.next + n, credits := r.credits ++ [c] } s)

/-- Whether engine 3 is suspended for a spill (R178). -/
def suspended (s : State) (t e : Nat) : Bool := e == 3 && get s (tilDmaStat t 3) TilDmaStat.suspended == 1

/-- Send packets while credits remain. -/
def pump (t e : Nat) : Nat → State → State
  | 0, s => s
  | n + 1, s =>
    match (engine s t e).run with
    | none => s
    | some r =>
      if r.next < dmLength r.job.desc ∧ r.credits.length < 1024 ∧ !suspended s t e then pump t e n (sendNext t e r s) else s

/-! ### The end of a descriptor (R175–R177) -/

/-- Requests of the running batch whose data a descriptor moves (R210). -/
def jobReqs (s : State) (d : Nat) : List Nat :=
  match s.req.batch with
  | none => []
  | some b => b.reqs.filter fun id => match findReq s id with
    | none => false
    | some r => r.running && movesChunk s r d

/-- The running chunks of requests fail, and the requests leave the batch. -/
def failChunks (ids : List Nat) (cause detail : Nat) (s : State) : State :=
  batchDrop ids (ids.foldl (fun s id => chunkFail id cause detail s) s)

/-- Deliver a notification to a local queue; beyond the pending slots it waits with them. -/
def noteLocal (t q op : Nat) (s : State) : State :=
  let a := placeNote t q op s
  if a.1 then a.2 else updTile t (fun x => { x with notes := x.notes ++ [(q, op)] }) a.2

/-- Send a window notification. -/
def sendNote (t e : Nat) (j : DmaJob) (idx op : Nat) (s : State) : State :=
  let d := j.desc
  send (dmaPacket s t e idx (dmRtile d) ocNotify (dmFdn d) (toBytes 8 (dmRwin d) ++ toBytes 16 op) 0) s

/-- The notifications of NOTE with a result (R176). -/
def notifyEnd (t e : Nat) (j : DmaJob) (result : Nat) (written : Bool) (s : State) : State :=
  let d := j.desc
  let op := fun off mem => mkOp (dmTag d) 0 (if result = 0 then okReference else okSkip) result (rangePayload off (dmLength d) mem)
  let s := if bit1 (dmNote d) 0 then noteLocal t (dmLq d) (op (dmLoff d) (dmLmem d)) s else s
  if bit1 (dmNote d) 1 then
    let g := engine s t e
    let r : DmaRetry := { job := j, idx := freeIndex g, op := op (dmRoff d) memAm, due := s.devtime + dataTicks s
                          sent := s.devtime, written := written }
    sendNote t e j r.idx r.op (setEngine t e { g with notes := g.notes ++ [r] } s)
  else s

/-- A descriptor ends: the status record, the notifications, the report of a failure, and the engine is free for its next
one (R175, R210). -/
def endDesc (t e : Nat) (j : DmaJob) (done fail result reason seg : Nat) (s : State) : State :=
  let b := taskEntry s t (jobTask j)
  let ok := admits b memAm (dmSoff j.desc) 1
  let s := if ok then
      updTile t (memWrite memAm (64 * (taskBase b memAm + dmSoff j.desc))
        (toBytes 32 (statusRecord done fail result reason seg (fieldTime s (tileField s t))))) s
    else s
  let s := upd (tilDmaStat t e) TilDmaStat.lastResult result s
  let s := setEngine t e { engine s t e with run := none } s
  let s := notifyEnd t e j result ok s
  if result = 0 then s
  else
    let s := logCoded sevError kFault bTil 175 result result t s
    if j.priv then s else failChunks (jobReqs s j.desc) csTransferFailed t s

/-- End a running descriptor once every packet has been sent and answered. -/
def checkEnd (t e : Nat) (s : State) : State :=
  match (engine s t e).run with
  | none => s
  | some r =>
    if r.next < dmLength r.job.desc ∨ !r.credits.isEmpty then s
    else
      let f := segMap r segFailed
      let first := ((List.range 64).find? (bit1 f)).getD 0
      endDesc t e r.job (segMap r segDone) f (dmaResult r) (tget (fun _ => 0) r.why first) first s

/-- A credit ends with an outcome for its segment; the engine sends on, and the descriptor may end. -/
def creditDone (t e : Nat) (c : DmaCredit) (f : DmaRun → DmaRun) (s : State) : State :=
  match (engine s t e).run with
  | none => s
  | some r =>
    let s := subR (ledCnt LedCnt.dmaOutstanding) 1 s
    let s := setRun t e (f { r with credits := r.credits.filter fun k => k.idx != c.idx }) s
    checkEnd t e (pump t e 1024 s)

/-- A credit in use by its index. -/
def findCredit (s : State) (t e idx : Nat) : Option DmaCredit :=
  match (engine s t e).run with
  | none => none
  | some r => r.credits.find? (·.idx == idx)

/-- The credit in use that a packet answers: by its index, where the packet comes from the endpoint that the credit's packet was
for (R174). -/
def answeredCredit (s : State) (t e idx : Nat) (p : Packet) : Option DmaCredit :=
  (findCredit s t e idx).filter fun c => c.dst == p.src && c.fdn == p.srcFdn

/-- An answer whose credit has been reclaimed is discarded and counted (R174). -/
def lateAnswer (t e idx : Nat) (s : State) : State :=
  let g := engine s t e
  satAdd (tilDmaStat t e) TilDmaStat.late 1 (setEngine t e { g with stale := g.stale.erase idx } s)

/-- Copy a transfer between local ends, segment by segment; a segment that cannot be read fails (R157, R171). -/
def copyLocal (t e : Nat) (r : DmaRun) (s : State) : State :=
  let d := r.job.desc
  let src := taskBase (taskEntry s t (jobTask r.job)) (copyMem d) + copyOff d
  let a := (List.range (segCount d)).foldl (fun (a : DmaRun × State) i =>
    let u := src + i * segUnits d
    let b := readRange t (copyMem d) u (segLen d i) a.2
    if b.1 then
      let bs := memRead (tile b.2 t) (copyMem d) (64 * u) (64 * segLen d i)
      ({ a.1 with acc := tset (fun _ => 0) i (segLen d i) a.1.acc },
        updTile t (writeUnits (dmLmem d) (localUnit a.2 t r.job (i * segUnits d)) bs) b.2)
    else (segFail i rrMemUe a.1, b.2)) (r, s)
  checkEnd t e (setRun t e { a.1 with next := dmLength d } a.2)

end Sys2Proof.Machine
end

