-- ==== Sys2Proof/Machine/Dma.lean ====
section
/-! DEFINITION. The commands of the DMA engines (R169–R178). -/

namespace Sys2Proof.Machine

open Sys2Proof

/-- DMA_SUBMIT: the routine copies the descriptor at AM offset s1 into the queue of engine s2, waiting for room
(R169). -/
def execDmaSubmit (t : TileId) (s : State) : Host.Outcome State Fault Refusal :=
  .next (powered (spIssue t (isCall 8) fun k s =>
    let x := tile s t
    let off := scalar x 1
    let e := scalar x 2
    let b := runTask s t k
    if 4 ≤ e then spFault t tfSpIllegal k s
    else if !admits b memAm off 1 then spFault t tfSpBound k s
    else if 8 ≤ (engine s t e).queue.length then s
    else
      let a := readRange t memAm (taskBase b memAm + off) 1 s
      if !a.1 then a.2
      else
        let d := memNat (tile a.2 t) memAm (64 * (taskBase b memAm + off)) 64
        let g := engine a.2 t e
        routineDone t 8 k (setEngine t e { g with queue := g.queue ++ [{ desc := d, task := keTask (runEntry x k) }] } a.2)) s)

/-- A field controller has put a privileged descriptor into an engine's queue, while it has room (R168, R169). -/
def submitPriv (t e desc : Nat) (s : State) : State :=
  let g := engine s t e
  if 8 ≤ g.queue.length ∨ tileOff s t then s
  else setEngine t e { g with queue := g.queue ++ [{ desc := desc % 2 ^ 512, task := 0, priv := true }] } s

/-- What a field controller has submitted since, if anything. -/
def submitSince (t e : Nat) : Option Nat → State → State
  | none, s => s
  | some d, s => submitPriv t e d s

/-- DMA_DESC_START: an engine takes its next descriptor, checks it, and sends its first packets (R172, R173). `priv` is a
descriptor that a field controller has submitted by its own path since (R169). -/
def execDmaDescStart (t : TileId) (e : EngineId) (priv : Option Nat) (s : State) : Host.Outcome State Fault Refusal :=
  .next (powered (fun s =>
    let s := submitSince t e priv s
    let g := engine s t e
    match g.queue with
    | [] => s
    | j :: rest =>
      if g.run.isSome || (suspended s t e || tileOff s t) then s
      else
        let s := setEngine t e { g with queue := rest } s
        let c := dmaCheck s t j
        if c ≠ 0 then endDesc t e j 0 0 c 0 0 s
        else
          let r : DmaRun := { job := j }
          if localCopy j.desc then copyLocal t e r s
          else checkEnd t e (pump t e 1024 (setRun t e r s))) s)

/-- DMA_TIMEOUT: no answer has come for a credit within DATA_TO: it is reclaimed, and its segment fails with TIMEOUT
(R174). -/
def execDmaTimeout (t : TileId) (e : EngineId) (credit : Nat) (s : State) : Host.Outcome State Fault Refusal :=
  .next (powered (fun s =>
    match findCredit s t e credit with
    | none => s
    | some c =>
      if s.devtime < c.due then s
      else
        let s := satAdd (tilDmaStat t e) TilDmaStat.reclaimed 1 (addR (ledCnt LedCnt.reclTimeout) 1 s)
        let s := setEngine t e { engine s t e with stale := (engine s t e).stale ++ [c.idx] } s
        let s := logCoded sevError kFault bTil 182 1 rrTimeout t s
        creditDone t e c (segFail c.seg rrTimeout) s) s)

/-- Give up a notification whose time has passed: FIRST_REASON of a status record already written becomes NOTIFY_BUSY, or
TIMEOUT where nothing has answered, and the engine reports (R174, R177). -/
def giveUpNote (t e : Nat) (r : DmaRetry) (s : State) : State :=
  let g := engine s t e
  let b := taskEntry s t (jobTask r.job)
  let s := setEngine t e { g with notes := g.notes.erase r, stale := if r.busy then g.stale else g.stale ++ [r.idx] } s
  let why := if r.met then rrNotifyBusy else rrTimeout
  let s := if r.written then
      updTile t (memWrite memAm (64 * (taskBase b memAm + dmSoff r.job.desc) + 17) [BitVec.ofNat 8 why]) s
    else s
  logCoded sevError kFault bTil 177 0 why t s

/-- NOTIFY_RESEND: a refused notification is sent again after 1 µs; once DATA_TO has passed it is given up (R177). -/
def execNotifyResend (t : TileId) (e : EngineId) (s : State) : Host.Outcome State Fault Refusal :=
  .next (powered (fun s =>
    let g := engine s t e
    match g.notes.find? fun r => decide (r.due ≤ s.devtime) || (r.busy && decide (r.sent + usTicks ≤ s.devtime)) with
    | none => s
    | some r =>
      if r.due ≤ s.devtime then giveUpNote t e r s
      else
        sendNote t e r.job r.idx r.op (setEngine t e { g with
          notes := g.notes.map fun x => if x = r then { r with busy := false, sent := s.devtime } else x } s)) s)

end Sys2Proof.Machine
end

