-- ==== Sys2Proof/Machine/PacketOps.lean ====
section
/-! DEFINITION. What endpoints do with packets: the window check, answers to waiting operations, barriers (R165, R173,
R233, R236, R249, R252, R253, R263). -/

namespace Sys2Proof.Machine

open Sys2Proof

/-- Whether an endpoint may send PRIV_WRITE and MGMT (R236). -/
def isPrivileged (e : Nat) : Bool := decide (0x680 ≤ e) && decide (e ≤ 0x692)

/-- FLAG_WRITE of a packet: flag, OP and VALUE (R236). -/
def flagWord (p : Packet) : Nat := fromBytes (p.payload.take 2)

/-- Whether a packet is treated as one with a reserved opcode (R236, R252). -/
def isReserved (p : Packet) : Bool :=
  !([ocOperand, ocAck, ocRefuse, ocReadReq, ocNotify, ocFlagWrite, ocBarArrive, ocTunnelCredit, ocMgmt, ocWrite, ocHbmWrite,
      ocReadData, ocPrivWrite, ocLatTunnel].contains p.opc) ||
    (((p.opc == ocPrivWrite || p.opc == ocMgmt) && !isPrivileged p.src) ||
      (p.opc == ocFlagWrite && bits (flagWord p) 8 2 == 3))

/-! ### Windows (R165) -/

/-- Whether a packet's source is a peer of a window: a supervisor's or field controller's never is (R165, R166). -/
def permitted (s : State) (w : Nat) (p : Packet) : Bool :=
  if 0x680 ≤ p.src ∧ p.src ≤ 0x690 then false
  else if p.srcFdn ≠ ownFdn s then
    bit1 w 54 && (decide (bits w 84 16 ≤ p.srcFdn) && decide (p.srcFdn ≤ bits w 100 16))
  else if p.src = epHead 0 then bit1 w 52
  else if p.src = epHead 1 then bit1 w 53
  else if p.src ≤ 0x2FF then bit1 w 51 && (decide (bits w 64 10 ≤ p.src) && decide (p.src ≤ bits w 74 10))
  else false

/-- Kinds of access to a window. -/
inductive WinKind where
  | read | write | notify
  deriving DecidableEq, Repr

/-- Whether a window grants a kind of access. -/
def grants (w : Nat) : WinKind → Bool
  | .read => bit1 w 1
  | .write => bit1 w 2
  | .notify => bit1 w 3

/-- The check of a window packet: 0 when it passes, or the reason of its refusal. A site that is off refuses every one (R167); a
window with BOUND 0 admits every notification (R163). -/
def winCheck (s : State) (t i : Nat) (p : Packet) (k : WinKind) (off units : Nat) : Nat :=
  let w := windowEntry s t i
  if tileOff s t then rrTileOff
  else if !bit1 w 0 then rrNoWindow
  else if !permitted s w p then rrPeer
  else if !grants w k then rrRight
  else if k = .notify ∧ wiBound w = 0 then 0
  else if wiBound w < off + units then rrBound
  else 0

/-- The counter of TIL_WIN_STAT for a reason, as register and field (R182). -/
def winCounter (r : Nat) : Nat × Fld :=
  if r = rrNotifyBusy then (1, ⟨0, 16⟩) else if r = rrTileOff then (1, ⟨16, 16⟩) else (0, ⟨16 * (r - 1), 16⟩)

/-- Refuse a window packet: counted, logged and answered. -/
def refuseWindow (t : Nat) (p : Packet) (r : Nat) (s : State) : State :=
  let c := winCounter r
  send (refuseOf p r) (logCoded sevInfo kRefused bTil 182 (10 + r) r t (satAdd (tilWinStat t c.1) c.2 1 s))

/-- Physical unit that an offset in a window reaches, in the window's memory. -/
def winUnit (s : State) (t i off : Nat) : Nat :=
  let w := windowEntry s t i
  taskBase (taskEntry s t (wiTask w)) (wiMem w) + wiBase w + off

/-! ### Answers (R173, R174, R249) -/

/-- Whether an operation waits for an answer under a TXID from a packet's source. -/
def awaits (p : Packet) (txid : Nat) (a : Await) : Bool :=
  a.src == p.dst && (a.txid == txid && (a.pkt.dst == p.src && a.pkt.dstFdn == p.srcFdn))

/-- The notification an engine has in flight that a packet answers. -/
def noteOf (s : State) (t e idx : Nat) (p : Packet) : Option DmaRetry :=
  (engine s t e).notes.find? fun r => r.idx == idx && (dmRtile r.job.desc == p.src && dmFdn r.job.desc == p.srcFdn)

/-- One packet of an engine is accepted. -/
def engineAck (t txid : Nat) (p : Packet) (s : State) : State :=
  let e := txid / 1024 % 4
  let idx := txid % 1024
  let g := engine s t e
  match noteOf s t e idx p, answeredCredit s t e idx p with
  | some r, _ => setEngine t e { g with notes := g.notes.erase r } s
  | none, some c => creditDone t e c (segAccept c) (addR (ledCnt LedCnt.dmaReturned) 1 s)
  | none, none => lateAnswer t e idx s

/-- One packet of an engine is refused: its segment fails, its credit returns; a notification refused with NOTIFY_BUSY is
sent again, for another reason it is given up and logged (R173, R177). -/
def engineRefuse (t txid reason : Nat) (p : Packet) (s : State) : State :=
  let e := txid / 1024 % 4
  let idx := txid % 1024
  let g := engine s t e
  match noteOf s t e idx p, answeredCredit s t e idx p with
  | some r, _ =>
    if reason = rrNotifyBusy then
      setEngine t e { g with notes := g.notes.map fun x => if x = r then { r with busy := true, met := true } else x } s
    else logCoded sevError kFault bTil 177 reason reason t (setEngine t e { g with notes := g.notes.erase r } s)
  | none, some c => creditDone t e c (segFail c.seg reason) (addR (ledCnt LedCnt.dmaReturned) 1 s)
  | none, none => lateAnswer t e idx s

/-- Discard an answer that nothing awaits: at a tile's engine it is counted as late, elsewhere logged. -/
def engineOr (p : Packet) (f : State → State) (s : State) : State := if epIsTile p.dst then f s else ignorePacket p s

/-- An operation ends without its answer, by expiry of CTL_TO or by refusal of LINK_DOWN: a tile's own records HORIZON with
QUEUE 0xFF; a controller's PRIV_WRITE or MGMT is sent again up to three times, and takes a fabric reset the fourth time;
another's is logged (R249, R296, R436, R440). -/
def awaitLost (a : Await) (s : State) : State :=
  let s := { s with net := { s.net with awaits := s.net.awaits.erase a } }
  if epIsTile a.src then
    if tileOff s a.src then s
    else tagFault a.src dfHorizon 0 0xFF (if a.opc = ocOperand then bits (fromBytes (a.pkt.payload.drop 8)) 0 12 else 0) s
  else if a.opc = ocPrivWrite ∨ a.opc = ocMgmt then
    if a.again < 3 then
      let b := { a with again := a.again + 1, due := s.devtime + ctlTicks s }
      send a.pkt { s with net := { s.net with awaits := s.net.awaits ++ [b] } }
    else startFabricReset .privTimeout s
  else logOpen sevError kFault bCon 249 2 a.src s

/-- Requests of the running batch whose chunk's input or stream state slot a range of HBM meets (R210, R266). -/
def reqsReading (s : State) (a n : Nat) : List Nat :=
  match s.req.batch with
  | none => []
  | some b =>
    let m := modelRec s (slotBase s b.slot) b.model
    b.reqs.filter fun id => match findReq s id with
      | none => false
      | some r =>
        overlaps a n (dsInAddr r.desc + r.next * mdChunkBytes m) (mdChunkBytes m) ||
          (r.stateful && overlaps a n (slotArrayBase s + dsSlot r.desc * slotSize s) (slotSize s))

/-! ### Barriers (R253) -/

/-- A barrier error: logged, ERR is set, and the layer is stopped as for a tag fault. -/
def barrierError (b : Nat) (s : State) : State :=
  let s := logOpen sevError kFault bCon 253 0 b (upd (conBarStat b) ConBarStat.err 1 s)
  batchFail csDataflowFault b 0 ((graphTiles s).foldl (fun s t => haltReq t s) s)

/-- Release a barrier: its sense flips and its fields' flags take it. -/
def barrierRelease (b : Nat) (s : State) : State :=
  let r := tget (fun _ => 0) s.net.bars b
  let sense := 1 - get s (conBarStat b) ConBarStat.sense
  let s := upd (conBarStat b) ConBarStat.sense sense s
  let s := ((List.range 12).filter fun f => bit1 r (19 + f)).foldl (fun s f =>
    sendAwaited (epBarrier (b / 2)) (epField f) ocFlagWrite (toBytes 2 (bits r 11 8 + 2 * 2 ^ 8 + sense * 2 ^ 10)) s) s
  upd (conBarStat b) ConBarStat.next 0 (upd (conBarStat b) ConBarStat.count (get s (conBarStat b) ConBarStat.next) s)

/-- An arrival at a barrier with a sense. -/
def barArrive (b sense : Nat) (s : State) : State :=
  let o := conBarStat b
  let r := tget (fun _ => 0) s.net.bars b
  let s := if get s o ConBarStat.valid = 0 then barrierError b s else s
  let s := if sense = get s o ConBarStat.sense then upd o ConBarStat.count (get s o ConBarStat.count + 1) s
    else upd o ConBarStat.next (get s o ConBarStat.next + 1) s
  let s := if bits r 0 11 < get s o ConBarStat.next then barrierError b s else s
  if get s o ConBarStat.count = bits r 0 11 then barrierRelease b s else s

/-! ### Flags (R252) -/

/-- Write a flag of a field. -/
def setFlag (f i v : Nat) (s : State) : State := upd (fldFlags f (i / 32)) ⟨i % 32, 1⟩ v s

end Sys2Proof.Machine
end

