-- ==== Sys2Proof/Machine/Packets.lean ====
section
/-! DEFINITION. The commands of the concourse: forwarding, and each packet at its endpoint (R165, R173, R231–R253). -/

namespace Sys2Proof.Machine

open Sys2Proof

/-! ### Forwarding (R232, R242, R248, R249) -/

/-- The packet that an output has chosen leaves its input's buffer. -/
def dequeue (g i : Nat) (p : Packet) (s : State) : State := setBuf (portKey g i) ((bufOf s (portKey g i)).erase p) s

/-- Hand a packet to the endpoint its router serves: a link port takes it into its queue or refuses it; any other endpoint
takes it with the command for its opcode. -/
def handOver (p : Packet) (s : State) : State :=
  if epIsLink p.rdst then linkQueue (p.rdst - 0x600) p s
  else { s with net := { s.net with arrived := s.net.arrived ++ [p] } }

/-- Packets that wait at a router's interfaces and attach endpoints move into its input ports. -/
def fillRouter (g : Nat) (s : State) : State := [0, 1, 2, 3, 13, 14, 15, 16].foldl (fun s p => nicFill g p s) s

/-- ROUTER_FORWARD: an output of a router takes the packet that is its turn, which has arrived with the bits `upset` of its flits
inverted besides those inverted before. One that fails its check or meets an invalid route entry is discarded; another moves
to the neighbour's input port when it has room, or to the endpoint (R232, R242, R249). -/
def execRouterForward (g : ClusterId) (out : RouterPort) (upset : List (Nat × Nat)) (s : State) :
    Host.Outcome State Fault Refusal :=
  .next (powered (fun s =>
    if fabricOff s (clusterField g) then s
    else
      let s := fillRouter g s
      match arbitrate s g out with
      | none => s
      | some (i, p) =>
        let q := { p with upset := p.upset ++ upset }
        let s' := noteTurn g out i p.data (dequeue g i p s)
        let s' := if !packetOk q then discardBad g (parityFails q) s'
          else if (routeOf s g p).isNone then countRsvd g s'
          else if localPort out then handOver (settled q) s'
          else match portPeer g out with
            | none => s
            | some (g', i') =>
              if hasRoom s g' i' p.data then
                noteThrottle g' (setBuf (portKey g' i') (bufOf s' (portKey g' i') ++ [settled q]) s')
              else s
        noteThrottle g (fillRouter g s')) s)

/-- CTL_TIMEOUT: an operation has waited CTL_TO for its answer (R249). -/
def execCtlTimeout (src txid : Nat) (s : State) : Host.Outcome State Fault Refusal :=
  .next (powered (fun s =>
    match s.net.awaits.find? fun a => a.src == src && (a.txid == txid && decide (a.due ≤ s.devtime)) with
    | some a => awaitLost a s
    | none => s) s)

/-! ### Control packets -/

/-- PKT_OPERAND: one or two operands arrive in a queue and are acknowledged (R236). A tile whose site is off takes
none. -/
def execPktOperand (p : Packet) (s : State) : Host.Outcome State Fault Refusal :=
  .next (powered (received p fun s =>
    if p.opc ≠ ocOperand then s
    else if !epIsTile p.dst || tileOff s p.dst then ignorePacket p s
    else
      let h := fromBytes (p.payload.take 8)
      let op := fun i => fromBytes ((p.payload.drop (8 + 16 * i)).take 16)
      let s := deliver p.dst (bits h 0 8) (op 0) s
      let s := if bit1 h 8 then deliver p.dst (bits h 0 8) (op 1) s else s
      send (ackOf p) s) s)

/-- PKT_ACK: consecutive packets are accepted: waiting operations end, and an engine's credits return (R174, R236). -/
def execPktAck (p : Packet) (s : State) : Host.Outcome State Fault Refusal :=
  .next (powered (received p fun s =>
    if p.opc ≠ ocAck then s
    else
      let v := fromBytes (p.payload.take 2)
      (List.range (max 1 (min 8 (bits v 12 4)))).foldl (fun s i =>
        let x := (bits v 0 12 + i) % 4096
        match s.net.awaits.find? (awaits p x) with
        | some a => { s with net := { s.net with awaits := s.net.awaits.erase a } }
        | none => engineOr p (engineAck p.dst x p) s) s) s)

/-- PKT_REFUSE: a packet was refused: its segment fails with the reason and its credit returns; a waiting operation ends as
at its timeout (R173, R236, R296). -/
def execPktRefuse (p : Packet) (s : State) : Host.Outcome State Fault Refusal :=
  .next (powered (received p fun s =>
    if p.opc ≠ ocRefuse then s
    else
      let v := fromBytes (p.payload.take 2)
      match s.net.awaits.find? (awaits p (bits v 0 12)) with
      | some a => awaitLost a s
      | none => engineOr p (engineRefuse p.dst (bits v 0 12) (bits v 12 4) p) s) s)

/-- UNITS of a read request. -/
def reqUnits (p : Packet) : Nat := max 1 (min 4 (fromBytes ((p.payload.drop 10).take 1)))

/-- PKT_READ_REQ_WINDOW: a read through a window is checked and answered with data; data that cannot be read is refused
with MEM_UE (R157, R165). -/
def execPktReadReqWindow (p : Packet) (s : State) : Host.Outcome State Fault Refusal :=
  .next (powered (received p fun s =>
    let v := fromBytes (p.payload.take 4)
    if p.opc ≠ ocReadReq ∨ bit1 v 0 then s
    else if !epIsTile p.dst then ignorePacket p s
    else
      let t := p.dst
      let i := bits v 1 4
      let off := bits v 5 17
      let n := reqUnits p
      let r := winCheck s t i p .read off n
      if r ≠ 0 then refuseWindow t p r s
      else
        let k := wiMem (windowEntry s t i)
        let u := winUnit s t i off
        let a := readRange t k u n s
        if a.1 then send (dataOf p (memRead (tile a.2 t) k (64 * u) (64 * n))) a.2
        else send (refuseOf p rrMemUe) a.2) s)

/-- Whether a packet may reach a range of HBM: within the installed range, and in the reserved region only from the device's own
tiles, whose engines check their descriptors, and from its controllers (R259, R260). -/
def hbmAdmits (s : State) (p : Packet) (a n : Nat) : Bool :=
  decide (a + n ≤ installed s) && (decide (a + n ≤ reservedBase s) ||
    (p.srcFdn == ownFdn s && (epIsTile p.src || isPrivileged p.src)))

/-- A packet that was in flight when its slice became FAILED: whether the slice's controller serves it is free (R263). -/
def failedServes (s : State) (a : Nat) : Bool × State :=
  if homeFailed s a then ((freeNat 1 s).1 == 1, (freeNat 1 s).2) else (true, s)

/-- PKT_READ_REQ_HBM: the home slice answers with data, or with MEM_UE when a burst is uncorrectable; the chunks whose input or
state it holds fail (R210, R263, R266). -/
def execPktReadReqHbm (p : Packet) (s : State) : Host.Outcome State Fault Refusal :=
  .next (powered (received p fun s =>
    if p.opc ≠ ocReadReq ∨ !bit1 (fromBytes (p.payload.take 4)) 0 then s
    else
      let a := fromBytes ((p.payload.drop 4).take 5)
      let n := reqUnits p
      if !epIsSlice p.dst ∨ !hbmAdmits s p a (64 * n) then ignorePacket p s
      else
        let f := failedServes s a
        if !f.1 then f.2
        else
          let bad := (errsIn f.2 a (64 * n)).any (burstBad f.2)
          let s := (errsIn f.2 a (64 * n)).foldl readBurst f.2
          if bad then send (refuseOf p rrMemUe) (failChunks (reqsReading s a (64 * n)) csMemoryUe a s)
          else send (dataOf p (hbmRead s a (64 * n))) s) s)

/-- PKT_NOTIFY: a notification is checked against the window and its announced range, given its place within the task, and
delivered to NQ, held, or refused with NOTIFY_BUSY (R165, R176, R177). -/
def execPktNotify (p : Packet) (s : State) : Host.Outcome State Fault Refusal :=
  .next (powered (received p fun s =>
    if p.opc ≠ ocNotify then s
    else if !epIsTile p.dst then ignorePacket p s
    else
      let t := p.dst
      let i := bits (fromBytes (p.payload.take 1)) 0 4
      let o := fromBytes ((p.payload.drop 8).take 16)
      let pay := opPayload o
      let r := winCheck s t i p .notify (bits pay 0 17) (if opKind o = okReference then bits pay 17 20 else 0)
      if r ≠ 0 then refuseWindow t p r s
      else
        let w := windowEntry s t i
        let o' := mkOp (opTag o) (opIdx o) (opKind o) (opAux o)
          (rangePayload (wiBase w + bits pay 0 17) (bits pay 17 20) (wiMem w))
        let a := placeNote t (wiNq w) o' s
        if a.1 then send (ackOf p) a.2 else refuseWindow t p rrNotifyBusy s) s)

/-- PKT_FLAG_WRITE: a flag of the field is set, cleared or written; OP 0b11 is handled as a reserved opcode (R252). -/
def execPktFlagWrite (p : Packet) (s : State) : Host.Outcome State Fault Refusal :=
  .next (powered (received p fun s =>
    if p.opc ≠ ocFlagWrite then s
    else
      let f := p.dst - 0x680
      let w := flagWord p
      let op := bits w 8 2
      if !(decide (0x680 ≤ p.dst) && decide (p.dst < 0x68C)) || (p.srcFdn != ownFdn s || fabricOff s f) then ignorePacket p s
      else if op = 3 then reservedPacket p s
      else send (ackOf p) (setFlag f (bits w 0 8) (if op = 0 then 1 else if op = 1 then 0 else bits w 10 1) s)) s)

/-- PKT_BAR_ARRIVE: an arrival is counted by the procedure of R253 and acknowledged. -/
def execPktBarArrive (p : Packet) (s : State) : Host.Outcome State Fault Refusal :=
  .next (powered (received p fun s =>
    if p.opc ≠ ocBarArrive then s
    else
      let v := fromBytes (p.payload.take 1)
      if p.dst ≠ epBarrier (bits v 0 6 / 2) then ignorePacket p s
      else send (ackOf p) (barArrive (bits v 0 6) (bits v 6 1) s)) s)

/-- PKT_MGMT: a firmware command reaches a controller, the supervisor or a head. What a command does is its own row's; an
answer ends the wait for it (R236). -/
def execPktMgmt (p : Packet) (s : State) : Host.Outcome State Fault Refusal :=
  .next (powered (received p fun s =>
    if p.opc ≠ ocMgmt then s
    else if !isPrivileged p.src then reservedPacket p s
    else if !isPrivileged p.dst then ignorePacket p s
    else match s.net.awaits.find? (awaits p p.txid) with
      | some a => { s with net := { s.net with awaits := s.net.awaits.erase a } }
      | none => s) s)

/-! ### Data packets -/

/-- The data of a packet: LEN units. -/
def packetBytes (p : Packet) : List Byte := padTo (64 * max 1 (min 4 p.len)) p.payload

/-- PKT_WRITE: a write through a window is checked, performed and acknowledged, or refused (R165). -/
def execPktWrite (p : Packet) (s : State) : Host.Outcome State Fault Refusal :=
  .next (powered (received p fun s =>
    if p.opc ≠ ocWrite then s
    else if !epIsTile p.dst then ignorePacket p s
    else
      let t := p.dst
      let i := bits p.ext 0 4
      let off := bits p.ext 4 17
      let bs := packetBytes p
      let r := winCheck s t i p .write off (bs.length / 64)
      if r ≠ 0 then refuseWindow t p r s
      else send (ackOf p) (updTile t (writeUnits (wiMem (windowEntry s t i)) (winUnit s t i off) bs) s)) s)

/-- PKT_HBM_WRITE: whole units are written in HBM and acknowledged (R263, R266, R267). -/
def execPktHbmWrite (p : Packet) (s : State) : Host.Outcome State Fault Refusal :=
  .next (powered (received p fun s =>
    if p.opc ≠ ocHbmWrite then s
    else
      let a := bits p.ext 0 40
      let bs := packetBytes p
      if !epIsSlice p.dst ∨ !hbmAdmits s p a bs.length then ignorePacket p s
      else
        let f := failedServes s a
        if !f.1 then f.2 else send (ackOf p) (storeAnyway a bs f.2)) s)

/-- Data read for a copy within HBM goes on as a write under the same credit, unless its home has FAILED since (R173, R263). -/
def forwardWrite (t e : Nat) (r : DmaRun) (c : DmaCredit) (bs : List Byte) (s : State) : State :=
  let a := dmHaddr r.job.desc + 64 * c.pos
  if homeFailed s a then creditDone t e c (segFail c.seg rrMemUe) (addR (ledCnt LedCnt.dmaReturned) 1 s)
  else
    let p := dmaPacket s t e c.idx (hbmTarget s a) ocHbmWrite (ownFdn s) bs a
    let k := { c with dst := p.dst, fdn := p.dstFdn, due := s.devtime + dataTicks s }
    send p (setRun t e { r with credits := r.credits.map fun x => if x = c then k else x } s)

/-- PKT_READ_DATA: read data lands at the engine's local end, or goes on as a write to HBM under the same credit; data
whose credit is gone is discarded and counted (R173, R174). -/
def execPktReadData (p : Packet) (s : State) : Host.Outcome State Fault Refusal :=
  .next (powered (received p fun s =>
    if p.opc ≠ ocReadData then s
    else engineOr p (fun s =>
      let t := p.dst
      let e := p.txid / 1024 % 4
      match (engine s t e).run, answeredCredit s t e (p.txid % 1024) p with
      | some r, some c =>
        let d := r.job.desc
        let bs := padTo (64 * c.units) p.payload
        if hbmMove d then forwardWrite t e r c bs s
        else
          let s := updTile t (writeUnits (dmLmem d) (localUnit s t r.job c.pos) bs) s
          creditDone t e c (segAccept c) (addR (ledCnt LedCnt.dmaReturned) 1 s)
      | _, _ => lateAnswer t e (p.txid % 1024) s) s) s)

/-- What the privileged path may serve now on a site: a season load, the copy of a remap, a known-answer window, or the microcode
broadcast to sites that have just been powered, which SPRING, a fabric reset, the exit from WINTER and a remap make (R166,
R436). -/
def privAllowed (s : State) (n : Nat) : Bool :=
  devState s == .spring || (devState s == .winter || (s.boot.fabricReset || (s.boot.remap.isSome ||
    ((match s.req.change with
      | some (_, .loading) => true
      | _ => false) ||
    match tileAt s n with
    | some t => tileSt s t == tsTest
    | none => siteStatus s n == stDormant))))

/-- PKT_PRIV_WRITE: a field controller or the supervisor writes physical units of a site (R166). A site with no logical
tile keeps no contents in this model until a tile takes it. -/
def execPktPrivWrite (p : Packet) (s : State) : Host.Outcome State Fault Refusal :=
  .next (powered (received p fun s =>
    if p.opc ≠ ocPrivWrite then s
    else if !isPrivileged p.src then reservedPacket p s
    else
      let k := bits p.ext 0 2
      let n := bits p.ext 19 10
      if siteOff s n || (k == 3 || !privAllowed s n) then ignorePacket p s
      else match tileAt s n with
        | some t => send (ackOf p) (updTile t (writeUnits k (bits p.ext 2 17) (packetBytes p)) s)
        | none => send (ackOf p) s) s)

/-- PKT_RESERVED_OPCODE: a packet with a reserved opcode is discarded, counted and logged (R236). -/
def execPktReservedOpcode (p : Packet) (s : State) : Host.Outcome State Fault Refusal :=
  .next (powered (fun s => if isReserved p then reservedPacket p (take p s) else s) s)

/-! ### Quiesce and the seam (R246, R254, R255) -/

/-- QUIESCE: with the tile traffic quiesced, tables are written, seam repairs and port rejoins take effect; the quiesce
ends unless a remap still needs it (R246). -/
def execQuiesce (s : State) : Host.Outcome State Fault Refusal :=
  .next (powered (fun s =>
    if !trafficQuiet s then s
    else
      let hold := match s.boot.remap with
        | some r => r.step == .copying || r.step == .committing
        | none => false
      let s := quiesced s
      { s with boot := { s.boot with quiesce := hold && s.boot.quiesce } }) s)

/-- A wire fails that no spare is left for: the lane or channel is out of service, or MESH_FATAL (R255). -/
def seamFail (b : SeamBundle) (i : Nat) (s : State) : State :=
  let x := bundle s i
  if x.out then s
  else
    let n := b2n (!alreadyOut s b)
    let s := setBundle i { x with out := true } s
    match b with
    | .lane _ _ => logOpen sevDegrade kFault bLat 255 0 i (satAdd conSeamStat ConSeamStat.latOut n s)
    | .mesh _ _ _ =>
      winterCause 3 (logOpen sevFatal kFault bCon 255 1 i
        (satAdd conSeamStat ConSeamStat.conOut n (upd conSeamStat ConSeamStat.meshFatal 1 s)))
    | _ => logOpen sevDegrade kFault bCon 255 2 i (satAdd conSeamStat ConSeamStat.conOut n s)

/-- SEAM_WIRE_MARK: a wire with 16 or more pattern errors in a second is marked for sparing at the next quiesce; beyond
both spares its lane or channel fails (R254, R255). -/
def execSeamWireMark (b : SeamBundle) (wire errors : Nat) (s : State) : Host.Outcome State Fault Refusal :=
  .next (powered (fun s =>
    match bundleNum b with
    | none => s
    | some i =>
      let x := bundle s i
      if errors < 16 ∨ 32 ≤ wire ∨ x.marked.contains wire then s
      else if x.spares + x.marked.length < 2 then
        logOpen sevNotice kRepair bCon 254 wire i (satAdd conSeamStat ConSeamStat.pending 1
          (setBundle i { x with marked := x.marked ++ [wire] } s))
      else seamFail b i s) s)

end Sys2Proof.Machine
end

