-- ==== Sys2Proof/Machine/Power.lean ====
section
/-! DEFINITION. Power delivery (R355–R385): input supervision, field converters, cluster regulators, admission,
auxiliary supplies, the supply sequence and the orderly shutdown. -/

namespace Sys2Proof.Machine

open Sys2Proof

/-! ### Input supervision (R355–R358)

The events carry the input voltage in 10 mV that was held and for how long in µs; the meanings apply the thresholds
and the filter times of R356. -/

/-- Note the measured input voltage in PWR_IN_STAT (R355). -/
def noteVin (vin : Nat) (s : State) : State := upd pwrInStat PwrInStat.vin (min 65535 vin) s

/-- VIN_HIGH_ENTER: above 60.0 V for 1 ms, HIGH is set and logged once per entry (R356). -/
def execVinHighEnter (vin us : Nat) (s : State) : Host.Outcome State Fault Refusal :=
  .next (powered (fun s =>
    let s := noteVin vin s
    if 6000 < vin ∧ 1000 ≤ us ∧ get s pwrInStat PwrInStat.high = 0 then
      logOpen sevNotice kState bPwr 356 1 0 (upd pwrInStat PwrInStat.high 1 s)
    else s) s)

/-- VIN_HIGH_RELEASE: at or below 59.5 V for 1 ms (R356). -/
def execVinHighRelease (vin us : Nat) (s : State) : Host.Outcome State Fault Refusal :=
  .next (powered (fun s =>
    let s := noteVin vin s
    if vin ≤ 5950 ∧ 1000 ≤ us then upd pwrInStat PwrInStat.high 0 s else s) s)

/-- OVERVOLT_ENTER: above 62.0 V for 10 µs, every converter stops (R356). -/
def execOvervoltEnter (vin us : Nat) (s : State) : Host.Outcome State Fault Refusal :=
  .next (powered (fun s => if 6200 < vin ∧ 10 ≤ us then powerOff .overvolt s else noteVin vin s) s)

/-- OVERVOLT_RELEASE: at or below 60.0 V for 100 ms the power-on sequence may follow (R356). -/
def execOvervoltRelease (vin us : Nat) (s : State) : Host.Outcome State Fault Refusal :=
  .next (if s.power.off = some .overvolt ∧ vin ≤ 6000 ∧ 100000 ≤ us then
      { s with power := { s.power with off := some .cold } }
    else s)

/-- CAP_ENTER: below 41.0 V for 20 µs, every issue limit is held at 32 or below (R356, R386). -/
def execCapEnter (vin us : Nat) (s : State) : Host.Outcome State Fault Refusal :=
  .next (powered (fun s =>
    let s := noteVin vin s
    if vin < 4100 ∧ 20 ≤ us ∧ get s pwrInStat PwrInStat.cap = 0 then
      logOpen sevDegrade kState bPwr 356 2 0 (exemptFall (upd pwrInStat PwrInStat.cap 1 s))
    else s) s)

/-- CAP_RELEASE: at or above 42.0 V for 10 ms (R356). -/
def execCapRelease (vin us : Nat) (s : State) : Host.Outcome State Fault Refusal :=
  .next (powered (fun s =>
    let s := noteVin vin s
    if 4200 ≤ vin ∧ 10000 ≤ us then upd pwrInStat PwrInStat.cap 0 s else s) s)

/-- HALT_ENTER: below 38.0 V for 2 ms, an orderly halt into WINTER begins (R356, R357); a lifetime record is written
at the entry (R528). -/
def execHaltEnter (vin us : Nat) (s : State) : Host.Outcome State Fault Refusal :=
  .next (powered (fun s =>
    let s := noteVin vin s
    if vin < 3800 ∧ 2000 ≤ us ∧ get s pwrInStat PwrInStat.halt = 0 then
      let s := upd pwrInStat PwrInStat.haltPend 0 (upd pwrInStat PwrInStat.halt 1 s)
      winterCause 0 (lifetimeWrite (logOpen sevDegrade kState bPwr 356 3 0 s))
    else s) s)

/-- HALT_RELEASE: at or above 42.0 V for 100 ms (R356). -/
def execHaltRelease (vin us : Nat) (s : State) : Host.Outcome State Fault Refusal :=
  .next (powered (fun s =>
    let s := noteVin vin s
    if 4200 ≤ vin ∧ 100000 ≤ us then winterClear 0 (upd pwrInStat PwrInStat.halt 0 s) else s) s)

/-- BROWNOUT: below 36.0 V for 10 µs, a brown-out reset (R356, R358). A device in COLD after a shutdown or a die trip
notes that VIN has fallen, and THERMTRIP# is released (R377, R396, R553). -/
def execBrownout (vin us : Nat) (s : State) : Host.Outcome State Fault Refusal :=
  .next (
    if 3600 ≤ vin then powered (noteVin vin) s
    else match s.power.off with
      | none => if 10 ≤ us then powerOff .brownout s else noteVin vin s
      | some .shutdown => { s with power := { s.power with off := some .cold, qualified := false } }
      | some .dieTrip =>
        { s with power := { s.power with off := some .cold, qualified := false, thermtrip := false } }
      | some _ => { s with power := { s.power with qualified := false } })

/-- BROWNOUT_RELEASE: at or above 40.0 V for 100 ms the power-on sequence may follow (R356). -/
def execBrownoutRelease (vin us : Nat) (s : State) : Host.Outcome State Fault Refusal :=
  .next (
    if (s.power.off = some .brownout ∨ s.power.off = some .auxFault) ∧ 4000 ≤ vin ∧ 100000 ≤ us then
      { s with power := { s.power with off := some .cold } }
    else s)

/-! ### The supply sequence (R376, R549) -/

/-- INPUT_EN_BREAK: INPUT_EN breaks first when a module is withdrawn, and the input supervisor stops every converter as
for a brown-out (R358, R549). -/
def execInputEnBreak (s : State) : Host.Outcome State Fault Refusal :=
  .next (match s.power.off with
    | none => let s := powerOff .unmated s; { s with power := { s.power with mated := false } }
    | some _ => { s with power := { s.power with mated := false, qualified := false } })

/-- INPUT_EN_MATE: the contact closes; VIN may qualify again (R376, R549). -/
def execInputEnMate (vin : Nat) (s : State) : Host.Outcome State Fault Refusal :=
  .next (
    if s.power.mated then s
    else
      let off := if s.power.off = some .unmated then some OffCause.cold else s.power.off
      let s := { s with power := { s.power with mated := true, off := off } }
      if s.power.off.isSome then s else noteVin vin s)

/-- The input capacitance, at `cap` in units of 10 mV, is within 2 V of VIN, which ends the inrush (R560). -/
def inrushOver (vin cap : Nat) : Bool := decide (vin ≤ cap + 200)

/-- VIN_QUALIFY: at or above 40.0 V, and within the operating range, for 10 ms, which start after the inrush has ended: `cap` is
the voltage of the input capacitance when they started (R355, R376, R560). -/
def execVinQualify (vin us cap : Nat) (s : State) : Host.Outcome State Fault Refusal :=
  .next (
    if s.power.off = some .cold ∧ s.power.mated = true ∧ 4000 ≤ vin ∧ vin ≤ 6000 ∧ 10000 ≤ us ∧ inrushOver vin cap then
      { s with power := { s.power with qualified := true, up := [] } }
    else s)

/-- A field that SPRING powers: a live one, or a lost one whose byte requests a retry (R450, R454). -/
def fieldTried (s : State) (f : Nat) : Bool := fieldLive s f || mapField s.boot.map f % 4 == 2

/-- Whether the supplies that must be in regulation before another starts are so; the fields come up in index order, those
that stay off left out (R376). -/
def supplyReady (s : State) : Supply → Bool
  | .aux => true
  | .supervisor => s.power.up.contains .aux
  | .oscillator => s.power.up.contains .supervisor
  | .linkAndHost => s.power.up.contains .oscillator
  | .hbm => s.power.up.contains .linkAndHost
  | .field f => fieldTried s f && (s.power.up.contains .hbm &&
      (List.range 12).all fun g => decide (f.val ≤ g) || (!fieldTried s g || s.power.up.contains (.field (Fin.ofNat 12 g))))

/-- SUPPLY_IN_REGULATION: each step of the sequence starts only when the step before it has reached regulation; those
up to the oscillator need VIN qualified, the later ones the supervisor released (R376). -/
def execSupplyInRegulation (rail : Supply) (s : State) : Host.Outcome State Fault Refusal :=
  .next (
    let early := rail == .aux || (rail == .supervisor || rail == .oscillator)
    let may := if early then decide (s.power.off = some .cold) && s.power.qualified
               else decide (s.power.off = none) && !s.power.auxStopped
    if supplyReady s rail && (may && !(s.power.up.contains rail)) then
      { s with power := { s.power with up := s.power.up ++ [rail] } }
    else s)

/-- POWER_ON_RESET: at the supervisor's release after VIN has qualified, or at a fault that takes one (R440). -/
def execPowerOnReset (s : State) : Host.Outcome State Fault Refusal :=
  .next (match s.power.off with
    | none => powerOnReset s
    | some _ => if s.power.qualified && s.power.up.contains .oscillator then powerOnReset s else s)

/-- A write of PWR_CMD by the owner. SHUTDOWN writes the lifetime record and the log, resets compute, and switches the
supplies off in reverse order; the reserved OPs discard the write (R377, R385). -/
def pwrCmdWrite (m : Master) (op : Nat) (s : State) : State :=
  match op with
  | 0 => upd pwrCmd PwrCmd.op 0 s
  | 1 => powerOff .shutdown (computeReset .owner (lifetimeWrite (logFlush (upd pwrCmd PwrCmd.op 1 s))))
  | _ => refusedWrite m pwrCmd 32 s

/-- SHUTDOWN (R377, R385). -/
def execShutdown (m : Master) (s : State) : Host.Outcome State Fault Refusal :=
  .next (powered (asOwner m pwrCmd 32 (pwrCmdWrite m 1)) s)

/-- PWR_CMD_RESERVED: OP 0b10 and 0b11 are discarded and logged (R385). An OP that is not reserved is not this command's. -/
def execPwrCmdReserved (m : Master) (op : Nat) (s : State) : Host.Outcome State Fault Refusal :=
  .next (powered (fun s => if 2 ≤ op % 4 then asOwner m pwrCmd 32 (pwrCmdWrite m (op % 4)) s else s) s)

/-! ### Fields (R359–R364) -/

/-- The converter's status field. -/
def ibcFld (c : Nat) : Fld :=
  if c = 0 then PwrFieldStat.ibcA else if c = 1 then PwrFieldStat.ibcB else PwrFieldStat.ibcC

/-- Working converters of a field. -/
def ibcActive (s : State) (f : Nat) : Nat :=
  ([0, 1, 2].filter fun c => get s (pwrFieldStat f) (ibcFld c) == 1).length

/-- IBC_FAIL: a failed converter stays failed; with one left the field is CAPPED, with none it is lost (R359, R361,
R362). -/
def execIbcFail (f : FieldId) (c : Fin 3) (s : State) : Host.Outcome State Fault Refusal :=
  .next (powered (fun s =>
    if get s (pwrFieldStat f) (ibcFld c) = 1 then
      let s := upd (pwrFieldStat f) (ibcFld c) 2 s
      let s := logOpen sevDegrade kFault bPwr 361 c f s
      let n := ibcActive s f
      if n = 0 then fieldLoss f 3 s
      else if n = 1 ∧ get s (pwrFieldStat f) PwrFieldStat.state = 0 then
        logOpen sevDegrade kState bPwr 361 3 f (upd (pwrFieldStat f) PwrFieldStat.state 1 s)
      else s
    else s) s)

/-- SENSE_FAULT: the sensed and the local voltage differ by more than 150 mV for 100 µs: the converters regulate
locally until the next power-on or device reset (R360). -/
def execSenseFault (f : FieldId) (mv us : Nat) (s : State) : Host.Outcome State Fault Refusal :=
  .next (powered (fun s =>
    if 150 < mv ∧ 100 ≤ us ∧ get s (pwrFieldStat f) PwrFieldStat.senseFault = 0 then
      logOpen sevDegrade kFault bPwr 360 0 f (upd (pwrFieldStat f) PwrFieldStat.senseFault 1 s)
    else s) s)

/-- FIELD_LOSS: a cause of R450 latches the field off and the device enters the 11-field state (R362, R450, R453). -/
def execFieldLoss (f : FieldId) (cause : Nat) (s : State) : Host.Outcome State Fault Refusal :=
  .next (powered (fun s => if 1 ≤ cause ∧ cause ≤ 7 then fieldLoss f cause s else s) s)

/-! ### Clusters (R365–R373) -/

/-- Cluster states of PWR_CL_STAT. -/
def clOff : Nat := 0
def clWait : Nat := 1
def clSoft : Nat := 2
def clOn : Nat := 3
def clDark : Nat := 4

/-- PHASE_FAIL: the phase's switches open and its bit in PHASE_OK clears; a second failed phase darks the cluster
(R368, R369). -/
def execPhaseFail (g : ClusterId) (phase : Fin 8) (s : State) : Host.Outcome State Fault Refusal :=
  .next (powered (fun s =>
    let ok := get s (pwrClStat g) PwrClStat.phaseOk
    if bit1 ok phase then
      let s := upd (pwrClStat g) PwrClStat.phaseOk (ok - 2 ^ phase.val) s
      let s := setIlimEff g s
      let s := logOpen sevDegrade kFault bPwr 368 phase g s
      if phasesOk s g ≤ 6 ∧ get s (pwrClStat g) PwrClStat.state ≠ clDark then
      clusterDark g 3
        { s with power := { s.power with phaseDark := tset (fun _ => none) g.val (some s.devtime) s.power.phaseDark } }
    else s
    else s) s)

/-- Whether a tick lies in the present µs. -/
def thisUs (s : State) (t : Option Nat) : Bool := t.map (· / usTicks) == some (s.devtime / usTicks)

/-- A switch-off for heat in the very sample of a short trip is not counted: the trip governs (R401). -/
def undoHeat (g : Nat) (s : State) : State :=
  let times := tget (fun _ => []) s.control.heat g
  if s.power.ramping.contains g && thisUs s times.getLast? then
    let old := times.take (times.length - 1)
    let m := s.control.heatWas.foldl (fun m e => { m with sites := tset siteDefault e.1 e.2 m.sites }) s.boot.map
    let s := { s with control := { s.control with heat := tset (fun _ => []) g old s.control.heat, heatWas := [] }
                      boot := { s.boot with map := m } }
    let cooled := old.filter fun t => decide (s.devtime < t + dayTicks)
    upd (pwrClTherm g) PwrClTherm.offs (min 3 cooled.length) (upd (pwrClTherm g) PwrClTherm.cooling 0 s)
  else s

/-- SHORT_TRIP: a short on the output, while the cluster is ON or in SOFT_START, or on the input side: the cluster goes
dark with CAUSE SHORT_OUT or SHORT_IN (R370). It governs over a second phase that failed in the same µs, and over a switch-off
for heat in the same sample (R378, R401). -/
def execShortTrip (g : ClusterId) (input : Bool) (s : State) : Host.Outcome State Fault Refusal :=
  .next (powered (fun s =>
    let st := get s (pwrClStat g) PwrClStat.state
    let cause := if input then 2 else 1
    if st = clOn ∨ st = clSoft then clusterDark g cause (undoHeat g s)
    else if st = clDark ∧ get s (pwrClStat g) PwrClStat.cause = 3 ∧ thisUs s (tget (fun _ => none) s.power.phaseDark g.val) then
      upd (pwrClStat g) PwrClStat.cause cause s
    else s) s)

/-- Rule 1 of R372: no cluster of the field started admission in the preceding 100 µs. -/
def admitRule1 (s : State) (f : Nat) : Bool :=
  match tget (fun _ => none) s.power.lastAdmit f with
  | none => true
  | some t => decide (t + 100 * usTicks ≤ s.devtime)

/-- Rule 2 of R372: every adjacent cluster in ON draws at most 85% of its ILIM_EFF. -/
def admitRule2 (s : State) (g : Nat) : Bool :=
  (clusterNeighbours g).all fun n =>
    get s (pwrClStat n) PwrClStat.state != clOn ||
      decide (get s (pwrClStat n) PwrClStat.iout * 100 ≤ 85 * 10 * get s (pwrClStat n) PwrClStat.ilimEff)

/-- A request that has waited 1 ms (R372). -/
def admitForced (s : State) (r : AdmitReq) : Bool := decide (r.time + msTicks ≤ s.devtime)

/-- The waiting requests of a field, oldest first; of two requests of one sample the lower cluster is the older (R378). -/
def admitQueue (s : State) (f : Nat) : List AdmitReq := s.power.waiting.filter fun r => clusterField r.cluster == f

/-- The request that the rules of R372 let in next in a field, and whether it is forced. -/
def admitNext (s : State) (f : Nat) : Option (Nat × Bool) :=
  let q := admitQueue s f
  if !admitRule1 s f then none
  else match q.find? (admitForced s) with
    | some r => some (r.cluster, true)
    | none => (q.find? fun r => admitRule2 s r.cluster).map fun r => (r.cluster, false)

/-- Admit a cluster: its input switch closes and it enters SOFT_START (R373). -/
def admitCluster (g : Nat) (slow : Bool) (s : State) : State :=
  let f := clusterField g
  let s := { s with power := { s.power with waiting := s.power.waiting.filter fun r => r.cluster != g } }
  let s := { s with power := { s.power with lastAdmit := tset (fun _ => none) f (some s.devtime) s.power.lastAdmit } }
  let e := s.devtime + (if slow then 100 else 50) * usTicks
  let s := { s with power := { s.power with softEnd := tset (fun _ => 0) g e s.power.softEnd } }
  let s := upd (pwrClStat g) PwrClStat.slow (b2n slow) (upd (pwrClStat g) PwrClStat.state clSoft s)
  satAdd (pwrAdmitStat f) PwrAdmitStat.admitted 1 s

/-- ADMISSION_GRANT: the cluster is the one that the three rules let in (R372). -/
def execAdmissionGrant (g : ClusterId) (s : State) : Host.Outcome State Fault Refusal :=
  .next (powered (fun s =>
    if admitNext s (clusterField g) = some (g.val, false) then admitCluster g false s else s) s)

/-- ADMISSION_FORCED: a request that has waited 1 ms is admitted at half ramp rate as soon as rule 1 holds, before any
other request of its field, and logged (R372). -/
def execAdmissionForced (g : ClusterId) (s : State) : Host.Outcome State Fault Refusal :=
  .next (powered (fun s =>
    if admitNext s (clusterField g) = some (g.val, true) then
      logOpen sevInfo kState bPwr 372 0 g
        (satAdd (pwrAdmitStat (clusterField g)) PwrAdmitStat.forced 1 (admitCluster g true s))
    else s) s)

/-- SOFT_START_DONE: the ramp ends; the cluster is ON with issue limit 1, and the sites that hold work or await a test
are powered (R26, R373). -/
def execSoftStartDone (g : ClusterId) (s : State) : Host.Outcome State Fault Refusal :=
  .next (powered (fun s =>
    if get s (pwrClStat g) PwrClStat.state = clSoft ∧ tget (fun _ => 0) s.power.softEnd g ≤ s.devtime ∧
        s.power.ramping.contains g.val = false then
      clusterOn g s
    else s) s)

/-- CLUSTER_RAMP_DOWN_DONE: the rail of a cluster switched off for heat has ramped down: its input switch opens with
CAUSE THERMAL (R371, R395). -/
def execClusterRampDownDone (g : ClusterId) (s : State) : Host.Outcome State Fault Refusal :=
  .next (powered (fun s =>
    if s.power.ramping.contains g.val then
      let s := { s with power := { s.power with ramping := s.power.ramping.filter (· != g.val) } }
      upd (pwrClStat g) PwrClStat.cause 4 (upd (pwrClStat g) PwrClStat.state clOff s)
    else s) s)

/-! ### Auxiliary supplies (R374, R375) -/

/-- AUX_CONVERTER_FAULT: the partner carries the bus; with both failed, as a brown-out (R375). -/
def execAuxConverterFault (b : Bool) (s : State) : Host.Outcome State Fault Refusal :=
  .next (powered (fun s =>
    let s := upd pwrAuxStat (if b then PwrAuxStat.auxB else PwrAuxStat.auxA) 2 s
    if get s pwrAuxStat PwrAuxStat.auxA = 2 ∧ get s pwrAuxStat PwrAuxStat.auxB = 2 then powerOff .auxFault s
    else logOpen sevDegrade kFault bPwr 375 (b2n b) 0 s) s)

/-- Every domain but the supervisor's is off: the links and both heads' ports, and the supplies after the oscillator's (R375,
R409). -/
def domainsHeld (s : State) : State :=
  let s := (List.range 96).foldl (fun s n => setLinkSt n lsDown (updLink n clearedLink s)) s
  let s := [0, 1].foldl (fun s h =>
    upd pwrAuxStat (if h = 0 then PwrAuxStat.haDown else PwrAuxStat.hbDown) 1 (headDown h s)) s
  { s with power := { s.power with auxStopped := true, up := [.aux, .supervisor, .oscillator], siteOn := [], waiting := [] } }

/-- AUX_RAIL_FAULT: a supervisor, HBM or link rail takes a power-on reset; when the same rail faults again in SPRING,
the device stops there with every auxiliary domain but the supervisor's off (R375). -/
def execAuxRailFault (rail : AuxRail) (s : State) : Host.Outcome State Fault Refusal :=
  .next (powered (fun s =>
    if s.power.auxFaulted.contains rail ∧ devState s = .spring then
      springStop 3 (domainsHeld s)
    else
      let l := if s.power.auxFaulted.contains rail then s.power.auxFaulted else s.power.auxFaulted ++ [rail]
      let s := powerOnReset s
      { s with power := { s.power with auxFaulted := l } }) s)

/-- HOST_RAIL_FAULT: that head's domain is switched off and its link goes down; the device continues with the other
head (R375). -/
def execHostRailFault (h : Head) (s : State) : Host.Outcome State Fault Refusal :=
  .next (powered (fun s =>
    let f := match h with
      | .ha => PwrAuxStat.haDown
      | .hb => PwrAuxStat.hbDown
    if get s pwrAuxStat f = 1 then s
    else upd pwrAuxStat f 1 (headDown (hnum h) (logOpen sevDegrade kFault bPwr 375 (2 + hnum h) (hnum h) s))) s)

end Sys2Proof.Machine
end

