-- ==== Sys2Proof/Machine/Boot.lean ====
section
/-! DEFINITION. Bring-up from the supervisor's release to SUMMER: the boot ROM, firmware at start, and the steps of SPRING
(R433–R439, R454–R456, R484, R489, R500, R504). -/

namespace Sys2Proof.Machine

open Sys2Proof

/-! ### Stages (R437, R456) -/

/-- A step of R437 has finished. -/
def stepDone (s : State) (n : Nat) : Bool := s.boot.steps.contains n

/-- SPRING runs and is not stopped (R438). -/
def springing (s : State) : Bool := devState s == .spring && get s supBootStat SupBootStat.stage != 8

/-- A step of R437 may finish: SPRING runs, the steps it names have finished, and it has not. -/
def mayStep (s : State) (n : Nat) (need : List Nat) : Bool := springing s && (need.all (stepDone s) && !stepDone s n)

/-- The stage that the finished steps leave the bring-up in. -/
def stageOf (steps : List Nat) : Nat :=
  if steps.contains 12 then 7
  else if steps.contains 9 ∧ steps.contains 10 then 6
  else if steps.contains 9 then 5
  else if steps.contains 6 then 4
  else if steps.contains 3 then 3
  else if steps.contains 2 then 2
  else 1

/-- Finish a step of R437. -/
def finishStep (n : Nat) (s : State) : State :=
  let s := bt (fun b => { b with steps := b.steps ++ [n] }) s
  if get s supBootStat SupBootStat.stage = 8 then s
  else upd supBootStat SupBootStat.stage (stageOf s.boot.steps) s

/-! ### The boot ROM (R471, R484, R500) -/

/-- The key engine's check of the 13 keys, each failure logged (R500). -/
def checkKeys (s : State) : State :=
  (List.range 13).foldl (fun s k =>
    if keyOk k then put supIdStat (rd s supIdStat ||| BitVec.ofNat 64 (2 ^ k)) s
    else logOpen sevDegrade kFault bSup 500 0 k s) s

/-- Start the firmware of a slot, confirmed or on trial (R484, R485). -/
def startSlot (i : Nat) (trial : Bool) (tboots minutes : Nat) (s : State) : State :=
  let s := nv (fun n => { n with slot := some i, timerLatch := false }) s
  let s := setRelease i true (upd (nvmSlotStat i) NvmSlotStat.state (if trial then fsTrial else fsActive) s)
  let s := upd nvmUpdStat NvmUpdStat.trial (b2n trial) (upd nvmUpdStat NvmUpdStat.tboots (if trial then tboots else 0) s)
  if trial then
    nv (fun n => { n with timer := some (s.boot.released + (20 + minutes) * 60 * secTicks) }) s
  else upd nvmUpdStat NvmUpdStat.active i s

/-- Run a slot: a slot that fails verification gives way to the other, after a FALLBACK record; with neither the device
stops in SPRING (R438, R484). -/
def runSlot (i : Nat) (trial : Bool) (tboots minutes : Nat) (s : State) : State :=
  if slotVerifies s i then startSlot i trial tboots minutes s
  else
    let o := otherSlot i
    if slotVerifies s o && fwSlotSt s o != fsReceiving then
      startSlot o false 0 0 (writeBoot 5 o i 0 0 brSlotCorrupt [] true (setFwSlot i fsInvalid brSlotCorrupt s))
    else springStop 4 s

/-- A trial ends in the boot ROM: its record names the reason and the trial slot is INVALID; the confirmed slot runs
(R484, R487). -/
def endTrial (kind : Nat) (r : BootRec) (reason : Nat) (s : State) : State :=
  runSlot r.active false 0 0
    (writeBoot kind r.active r.target 0 0 reason [] true (setFwSlot r.target fsInvalid reason s))

/-- A trial boot: its COMMIT record is in NVM before the slot's firmware runs (R484). -/
def trialBoot (r : BootRec) (tboots : Nat) (s : State) : State :=
  runSlot r.target true tboots r.trialMin
    (writeBoot 3 r.active r.target tboots r.trialMin 0 r.mdigest true s)

/-- The binding procedure by which the boot ROM chooses the slot (R484). -/
def chooseSlot (s : State) : State :=
  match s.nvm.bootRec with
  | none =>
    if slotVerifies s 0 then startSlot 0 false 0 0 s
    else if slotVerifies s 1 then startSlot 1 false 0 0 s
    else springStop 4 s
  | some r =>
    let s := upd nvmUpdStat NvmUpdStat.active r.active (upd nvmUpdStat NvmUpdStat.lastKind r.kind s)
    let s := upd nvmUpdStat NvmUpdStat.lastReason s.nvm.lastReason s
    let s := if r.kind = 5 ∨ r.kind = 6 then upd (nvmSlotStat r.target) NvmSlotStat.result r.reason s else s
    if r.kind = 1 then
      let f := slotFails s r.target
      let f := if f ≠ 0 then f else if mdigest s r.target = r.mdigest then 0 else brChanged
      if f = 0 then trialBoot r 1 s else endTrial 6 r f s
    else if r.kind = 3 then
      if s.nvm.timerLatch then endTrial 5 r brTrialTimer s
      else if 3 ≤ r.tboots then endTrial 5 r brBootLoop s
      else trialBoot r (r.tboots + 1) s
    else runSlot r.active false 0 0 s

/-- Links begin to train, or stay DISABLED, and all are FENCED (R286, R303, R437). -/
def startLinks (s : State) : State := (List.range 96).foldl (fun s n => tryTrain n s) s

/-- The newest boot record of which a copy is valid (R462, R484). -/
def readBoot (flips : List NvmFlip) (s : State) : State :=
  let get (back : Nat) (r : Option BootRec) : Option BootRec :=
    r.bind fun r => (validCopy s flips .boot back 0x544F4F42 (bootRecBytes r)).map bootRecOf
  nv (fun n => { n with bootRec := (get 0 n.bootRec).orElse fun _ => get 1 n.bootPrev }) s

/-- The store's state as a device record's bytes hold it. -/
def deviceRecOf (bs : List Byte) (n : NvmState) : NvmState :=
  { n with devRec := bs, devSeq := fieldAt bs 8 4, devTime := fieldAt bs 12 8, boots := fieldAt bs 20 4
           lastKind := bits (fieldAt bs 24 1) 0 3, lastCause := bits (fieldAt bs 24 1) 3 4
           select := fieldAt bs 25 1, operator := bit1 (fieldAt bs 26 1) 0 }

/-- The newest device record of which a copy is valid; with none, the current configuration record is selected and OPERATOR
counts as R468 states. -/
def readDevice (flips : List NvmFlip) (s : State) : State :=
  let get (back : Nat) (bs : List Byte) : Option (List Byte) := validCopy s flips .device back 0x52564544 bs
  match (get 0 s.nvm.devRec).orElse fun _ => get 1 s.nvm.devPrev with
  | some bs => nv (deviceRecOf bs) s
  | none => nv (fun n => { n with devRec := [], boots := 0, select := 0, operator := !n.otp.isEmpty }) s

/-- What the boot ROM reads of the store (R462). -/
def readStore (flips : List NvmFlip) (s : State) : State :=
  if flips.isEmpty then s else readDevice flips (readBoot flips s)

/-- BOOT_ROM_START: the configuration record is selected, its values are in force, the claim window opens and links begin
to train; the firmware slot is chosen (R435, R437, R471, R484). `flips` are bits of stored copies that do not read back. -/
def execBootRomStart (flips : List NvmFlip) (s : State) : Host.Outcome State Fault Refusal :=
  .next (powered (fun s =>
    if mayStep s 2 [] then
      finishStep 2 (chooseSlot (checkKeys (startLinks (openWindow (configSelect flips (readStore flips s))))))
    else s) s)

/-! ### Supervisor firmware (R435, R489, R528) -/

/-- Slice states as the retirement record gives them: RETIRED, or MARKED or FAILED by their cause (R273). -/
def loadSlices (s : State) : State :=
  let s := (List.range 768).foldl (fun s n =>
    let b := recordByte s n
    let cause := bits b 2 3
    let st := if b % 4 = 0 then slInService else if 2 ≤ b % 4 then slRetired
      else if cause = rcChannel ∨ cause = rcFieldLost then slFailed else slMarked
    upd (hbmSlice n) HbmSlice.state st (upd (hbmSlice n) HbmSlice.cause cause s)) s
  let s := upd hbmMapStat HbmMapStat.retired (slicesWith s slRetired) (countSlices s)
  upd hbmMapStat HbmMapStat.hostTop (reservedBase s / 4096) s

/-- Entries for what happened before this boot: a reset the supervisor did not enter itself, and a die trip (R396,
R522). -/
def logBoot (s : State) : State :=
  let s := match s.boot.unlogged with
    | some (kind, cause) =>
      logCoded sevFatal kReset bSup 440 kind cause 0 (bt (fun b => { b with unlogged := none }) s)
    | none => s
  if s.boot.resetKind = 4 ∧ get s pwrState PwrState.dieTrip = 1 then
    logOpen sevFatal kFault bPwr 396 1 (get s pwrState PwrState.tripSensor) s
  else s

/-- The converters of the fields that stay lost are off (R362, R454). -/
def lostFieldsOff (s : State) : State :=
  (List.range 12).foldl (fun s f =>
    if fieldTried s f then s else fieldPowerLost f (bits (mapField s.boot.map f) 2 3) s) s

/-- TIL_MC_VER of the running slot's tile microcode: VERSION, and bytes 0 to 3 of its DIGEST (R478). -/
def microcodeOf (s : State) (i : Nat) : Reg :=
  match compOf s i 3 with
  | some k => BitVec.ofNat 64 (compVersion s i k % 2 ^ 32 + fromBytes ((compDigest s i k).take 4) * 2 ^ 32)
  | none => 0

/-- The bytes of that component, at most the 64 KiB of the store's microcode region (R108, R478). -/
def microcodeBytes (s : State) (i : Nat) : List Byte :=
  match compOf s i 3 with
  | some k => slotBytes s i (compOffset s i k) (min 0x10000 (compLength s i k))
  | none => []

/-- A map record read from the store is in force, where R28 admits it. -/
def takeMap (m : MapRecord) (s : State) : State :=
  bt (fun b => { b with nvmMap := m, map := if mapOk b.fuse m then m else b.map }) s

/-- The map before any test: every site that is not fused out is good (R433). -/
def untestedMap (fuse : List Nat) (seq : Nat) : MapRecord := fuse.foldl (fun m n => mapSetStatus n stFused m) { seq := seq }

/-- The map record with the higher SEQ of which a copy is valid (R432); with none, the map is built from the tests (R433). -/
def readMap (flips : List NvmFlip) (s : State) : State :=
  let get (back : Nat) (m : MapRecord) : Option MapRecord :=
    (validCopy s flips .map back 0x50414D4C (mapRecBytes m)).map mapRecOf
  match (get 0 s.boot.nvmMap).orElse fun _ => get 1 s.boot.nvmPrev with
  | some m => takeMap m s
  | none => bt (fun b => { b with mapLost := true, map := untestedMap b.fuse b.nvmMap.seq }) s

/-- The newest retirement record of which a copy is valid (R273); with none, no slice is recorded. -/
def readRetire (flips : List NvmFlip) (s : State) : State :=
  let get (back : Nat) (r : RetireRecord) : Option RetireRecord :=
    (validCopy s flips .retire back 0x54524248 (retireRecBytes r)).map retireRecOf
  let r := ((get 0 s.hbmState.record).orElse fun _ => get 1 s.hbmState.prevRecord).getD {}
  { s with hbmState := { s.hbmState with record := r } }

/-- The journal records of which a copy is valid; the others count as absent (R446). -/
def readJournal (flips : List NvmFlip) (s : State) : State :=
  let l := s.boot.journal
  let get (e : JournalRec × Nat) : Option JournalRec :=
    (validCopy s flips .journal (l.length - 1 - e.2) 0x4E524A52 (journalBytes e.1)).map journalOf
  bt (fun b => { b with journal := l.zipIdx.filterMap get }) s

/-- The lifetime record with the highest SEQ of which a copy is valid; the counts made since it are lost (R462, R528). -/
def readLifetime (flips : List NvmFlip) (s : State) : State :=
  let get (back : Nat) (ws : Table Reg) : Bool := (validCopy s flips .lifetime back 0x4546494C (lifeBytes ws)).isSome
  if s.life.record.isEmpty || get 0 s.life.record then s
  else
    let ws := if get 1 s.life.prev then s.life.prev else []
    let seq := getF (tget (fun _ => 0) ws 1) ⟨0, 32⟩
    upd lifStat LifStat.seq seq { s with life := { s.life with live := ws, record := ws, prev := [], seq := seq } }

/-- The log pages of which a copy is valid (R462, R521). -/
def readLog (flips : List NvmFlip) (s : State) : State :=
  let l := s.log.pages
  let ok (e : LogPage × Nat) : Bool :=
    (validCopy s flips .log (l.length - 1 - e.2) 0x474F4C45 (logPageBytes entryBytes e.1)).isSome
  { s with log := { s.log with pages := (l.zipIdx.filter ok).map (·.1) } }

/-- What the supervisor firmware reads of the store. -/
def readRecords (flips : List NvmFlip) (s : State) : State :=
  if flips.isEmpty then s else readLog flips (readLifetime flips (readRetire flips (readMap flips (readJournal flips s))))

/-- SUPERVISOR_FIRMWARE_START: on the first trial boot an open remap is completed or ended before any record is read;
the block components are loaded after their digests are checked; the device record and a lifetime record are written
(R435, R465, R489, R528). A component that fails leaves its block without firmware, and SPRING stops. `flips` are bits of stored
copies that do not read back: a record is taken from its newest valid copy (R273, R432, R446, R462). -/
def execSupervisorFirmwareStart (flips : List NvmFlip) (s : State) : Host.Outcome State Fault Refusal :=
  .next (powered (fun s =>
    match s.nvm.slot with
    | none => s
    | some i =>
      if mayStep s 3 [2] then
        let s := readRecords flips s
        let s := if onTrial s && get s nvmUpdStat NvmUpdStat.tboots == 1 then
            logOpen sevNotice kConfig bNvm 489 0 i (journalRecover s).1 else s
        let s := lostFieldsOff (loadSlices (logBoot s))
        let ok := [4, 5, 6, 7].filter (typeOk s i)
        let s := bt (fun b => { b with loaded := ok, microcode := if typeOk s i 3 then microcodeOf s i else 0
                                       store := if typeOk s i 3 then microcodeBytes s i else [] }) s
        let s := if s.boot.resetKind = 4 then lifeCount 32 4 1 s else s
        let s := finishStep 3 (lifetimeWrite (writeDevice s))
        if ok.length = 4 then s else springStop 4 s
      else s) s)

/-! ### Fields in SPRING (R435, R439, R453, R454, R504) -/

/-- Fields that SPRING brings up. -/
def triedFields (s : State) : List Nat := (List.range 12).filter (fieldTried s)

/-- A field is lost in SPRING: its map entry and its power, its slices FAILED; with two fields lost the device stops
(R439, R450, R453, R454). -/
def springFieldLost (f cause : Nat) (s : State) : State :=
  let s := logCoded sevFatal kFault bPwr 450 0 cause f (lifeCount 78 2 1 s)
  let m := if fieldLive s f then mapLose f cause s.boot.map else mapSetField f (1 + cause * 4) s.boot.map
  let s := hbmFieldLost f (fieldPowerLost f cause s)
  let s := writeMap (bt (fun b => { b with map := m }) s)
  if 2 ≤ ((List.range 12).filter fun f => !fieldTried s f).length then springStop 5 s else s

/-- The supervisor supplies a field controller with a fresh nonce at its start (R504). -/
def freshNonce (f : Nat) (s : State) : State :=
  let r := freeNat 256 s
  bt (fun b => { b with nonces := tset (fun _ => []) f (toBytes 32 r.1) b.nonces }) r.2

/-- FIELD_CONTROLLER_BOOT: the field controller checks the manifest and its own component itself; one that fails stays in
its boot ROM and its field is lost (R435). It locks its field key before its firmware starts (R499). -/
def execFieldControllerBoot (f : FieldId) (s : State) : Host.Outcome State Fault Refusal :=
  .next (powered (fun s =>
    let spring := springing s && (stepDone s 4 && !(s.boot.fcRunning.contains f.val || s.boot.fcFailed.contains f.val))
    match s.nvm.slot with
    | none => s
    | some i =>
      if (spring || s.boot.fabricReset) && fieldTried s f then
        let s := freshNonce f s
        if manifestFails s i == 0 && typeOk s i 2 then
          bt (fun b => { b with fcRunning := b.fcRunning.filter (· != f.val) ++ [f.val]
                                keyLocked := b.keyLocked.filter (· != f.val) ++ [f.val] }) s
        else
          let s := bt (fun b => { b with fcFailed := b.fcFailed ++ [f.val]
                                         fcRunning := b.fcRunning.filter (· != f.val) }) s
          if spring then springFieldLost f 7 s else fieldLoss f 7 s
      else s) s)

/-- Whether a field quote is the field's own, answers the nonce of its start, and verifies under the field's certificate
(R504). -/
def quoteOk (s : State) (f : Nat) (q : List Byte) : Bool :=
  q.length == 704 && (fieldAt q 0 4 == 0x45545146 && (fieldAt q 4 1 == f &&
    ((q.drop 12).take 32 == tget (fun _ => []) s.boot.nonces f && (keyOk (1 + f) &&
      (match Config.certKey (certificate (3 + f)) with
        | some key => Config.sigOk key (q.take 192) (q.drop 192)
        | none => false)))))

/-- FIELD_QUOTE_RECEIVE (R504). -/
def execFieldQuoteReceive (f : FieldId) (quote : List Byte) (s : State) : Host.Outcome State Fault Refusal :=
  .next (powered (fun s =>
    if !s.boot.fcRunning.contains f.val then s
    else if quoteOk s f quote then
      let s := bt (fun b => { b with quotes := tset (fun _ => []) f.val quote b.quotes }) s
      upd supIdStat SupIdStat.quote (get s supIdStat SupIdStat.quote ||| 2 ^ f.val) s
    else logOpen sevNotice kRefused bSup 504 0 f (dropQuote f s)) s)

/-! ### Alignment and the seam (R254, R255, R411, R455) -/

/-- Whether every crossing between live fields reads within 75% of its budget. -/
def alignedOk (s : State) (readings : List Int) : Bool :=
  (List.range 17).all fun i =>
    !crossingLive s i || decide (4 * (readings[i]?.getD 0).natAbs ≤ 3 * crossingBudget i)

/-- A bundle's result of the seam test in SPRING: spares take the place of up to two wires; beyond them the lane or
channel is out, or SPRING stops on a mesh channel (R254, R255, R455). -/
def seamTested (s : State) (e : SeamBundle × Nat) : State :=
  match bundleNum e.1 with
  | none => s
  | some i =>
    let used := min 2 e.2
    let n := b2n (!alreadyOut s e.1)
    let s := satAdd conSeamStat ConSeamStat.spared used (setBundle i { spares := used, out := decide (2 < e.2) } s)
    if e.2 ≤ 2 then s
    else match e.1 with
      | .lane _ _ => logOpen sevDegrade kFault bLat 255 0 i (satAdd conSeamStat ConSeamStat.latOut n s)
      | .mesh _ _ _ => springStop 6 (satAdd conSeamStat ConSeamStat.conOut n (upd conSeamStat ConSeamStat.meshFatal 1 s))
      | _ => logOpen sevDegrade kFault bCon 255 2 i (satAdd conSeamStat ConSeamStat.conOut n s)

/-! ### Site tests and repairs (R366, R369, R433, R439, R454) -/

/-- A site that R439 tests. -/
def testable (m : MapRecord) (n : Nat) : Bool :=
  mapStatus m n != stFused && !(mapStatus m n == stFailed && mapFails m n == 3)

/-- Clusters of the fields brought up that hold a site to be tested. -/
def clustersToTest (s : State) : List Nat :=
  (triedFields s).flatMap fun f => (fieldClusters f).filter fun g => (clusterSites g).any (testable s.boot.map)

/-- Walk the voltage code up while the cluster warns, at most to 60. -/
def trimUp (warn : Nat → Bool) : Nat → Nat → Nat
  | 0, v => v
  | n + 1, v => if warn v ∧ v < 60 then trimUp warn n (v + 1) else v

/-- Walk the voltage code down while the code below gives no warning. -/
def trimDown (warn : Nat → Bool) : Nat → Nat
  | 0 => 0
  | v + 1 => if warn v then v + 1 else trimDown warn v

/-- The binding trim procedure from the codes at which the cluster warns: TRIM, and whether the cluster fails (R366). -/
def trimOf (codes : List Nat) : Nat × Bool :=
  let warn := codes.contains
  if warn 36 then
    let v := trimUp warn 24 36
    (min 60 (v + 3), warn v)
  else (min 60 (trimDown warn 36 + 3), false)

/-- The codes at which a cluster warned. -/
def warnCodes (trims : List (Nat × List Nat)) (g : Nat) : List Nat :=
  (trims.find? fun e => e.1 == g).elim [] (·.2)

/-- A phase fails again under the SPRING trim; two failed phases darken the cluster (R369). -/
def phaseTested (s : State) (e : Nat × Nat) : State :=
  let g := e.1 % 240
  let ok := get s (pwrClStat g) PwrClStat.phaseOk
  if bit1 ok (e.2 % 8) then
    let s := setIlimEff g (upd (pwrClStat g) PwrClStat.phaseOk (ok - 2 ^ (e.2 % 8)) s)
    let s := logOpen sevDegrade kFault bPwr 368 (e.2 % 8) g s
    if phasesOk s g ≤ 6 then upd (pwrClStat g) PwrClStat.state 4 (upd (pwrClStat g) PwrClStat.cause 3 s) else s
  else s

/-- Trim a cluster (R366). -/
def trimCluster (trims : List (Nat × List Nat)) (s : State) (g : Nat) : State :=
  let s := upd (clkClMargin g) ClkClMargin.trim (trimOf (warnCodes trims g)).1 (upd (clkClMargin g) ClkClMargin.adj 0 s)
  upd (pwrClStat g) PwrClStat.vset (vsetTarget s g) s

/-- Whether a site fails its test: its cluster is not ON or fails the trim, or KAT_RUN fails. -/
def siteFails (s : State) (trims : List (Nat × List Nat)) (failed : List Nat) (n : Nat) : Bool :=
  let g := siteCluster n
  get s (pwrClStat g) PwrClStat.state != 3 || ((trimOf (warnCodes trims g)).2 || failed.contains n)

/-- The result of a site's test but for a LOGICAL site that fails: STANDBY, DORMANT and COOLING sites fail to FAILED with
CAUSE 1; a FAILED site that passes is DORMANT, a COOLING one STANDBY (R439). -/
def siteTested (bad : Nat → Bool) (m : MapRecord) (n : Nat) : MapRecord :=
  let st := mapStatus m n
  if !testable m n then m
  else if bad n then (if st = stLogical then m else mapFail n 1 m)
  else if st = stFailed then mapSetStatus n stDormant m
  else if st = stCooling then mapSetStatus n stStandby m
  else m

/-- Build a field's roles from its good sites: 64 LOGICAL, 8 STANDBY, the rest DORMANT, by site number (R433). -/
def buildField (f : Nat) (m : MapRecord) : MapRecord :=
  let g := goodSites m f
  let role (i : Nat) : Nat := if i < 64 then stLogical else if i < 72 then stStandby else stDormant
  (g.zip (List.range g.length)).foldl (fun m e => mapSetStatus e.1 (role e.2) m) m

/-- Number the logical tiles again: a field of `built` takes its LOGICAL sites in order, any other keeps its order of
before (R433, R451). -/
def renumberAll (old m : MapRecord) (built : List Nat) : MapRecord :=
  let live := (List.range 12).filter fun f => bit1 m.live f
  let before := (List.range 12).filter fun f => bit1 old.live f
  let site (l : Nat) : Nat := match live[l / 64]? with
    | none => 0xFFFF
    | some f =>
      if built.contains f || !before.contains f then ((sitesWith m f stLogical)[l % 64]?).getD 0xFFFF
      else mapSite m (64 * (before.filter (· < f)).length + l % 64)
  { m with logical := (List.range 768).foldl (fun t l => tset logicalDefault l (site l) t) [] }

/-- Move the tiles of LOGICAL sites that failed to STANDBY sites, up to four in each remap (R439, R443–R445); the field is
lost when none remains. -/
def springRemap (f : Nat) : Nat → List Nat → State → State
  | 0, _, s => s
  | fuel + 1, ts, s =>
    if ts.isEmpty then s
    else match chooseTargets s ((ts.take 4).map fun t => (t, 1)) [] with
      | none => springFieldLost f 5 s
      | some es =>
        let id := get s supRemapStat SupRemapStat.lastId + 1
        let s := upd supRemapStat SupRemapStat.lastId id (upd supRemapStat SupRemapStat.count es.length s)
        let s := journalAdd 2 id es (journalAdd 1 id es s)
        let s := bt (fun b => { b with map := { applyEntries s es b.map with remapId := id } }) s
        let s := journalAdd 3 id es (writeMap s)
        let s := satAdd supRemapStat SupRemapStat.total 1 (lifeCount 76 2 1 s)
        springRemap f fuel (ts.drop 4) (logOpen sevDegrade kRepair bSup 445 4 id s)

/-- Apply a field's test results: its repairs, its return after a retry, or its loss (R433, R439, R454). -/
def fieldTested (bad : Nat → Bool) (rebuild : Bool) (s : State) (f : Nat) : State :=
  let old := s.boot.map
  let m := (fieldSites f).foldl (siteTested bad) old
  let badLog := (fieldSites f).filter fun n => mapStatus m n == stLogical && bad n
  let retry := !fieldLive s f
  let s := badLog.foldl (fun s n => logCoded sevDegrade kFault bSup 439 1 1 n s) s
  let failAll (m : MapRecord) : MapRecord := badLog.foldl (fun m n => mapFail n 1 m) m
  if (goodSites m f).length - badLog.length < 64 then
    springFieldLost f 7 (bt (fun b => { b with map := failAll m }) s)
  else if retry || rebuild then
    let m := buildField f (failAll m)
    let m := if retry then mapSetField f 0 { m with live := m.live + 2 ^ f } else m
    let s := writeMap (bt (fun b => { b with map := renumberAll old m [f] }) s)
    if retry then
      let back := (List.range 768).filter fun n => sliceField n == f && get s (hbmSlice n) HbmSlice.cause == rcFieldLost
      let s := writeRetire (back.map fun n => (n, 3 + 4 * rcFieldLost)) s
      let s := back.foldl (fun s n => upd (hbmSlice n) HbmSlice.state slRetired s) s
      logOpen sevNotice kRepair bFld 454 1 f (countSlices s)
    else s
  else
    let s := bt (fun b => { b with map := m }) s
    let s := if m = old then s else writeMap s
    springRemap f 17 (badLog.filterMap (tileAt s)) s

/-- The fields' tests are done: STANDBY and DORMANT sites are off, each tile starts from its reset values with the
microcode broadcast and SINCE_KAT 0, the concourse is up and the links are unfenced (R436, R437). -/
def sitesReady (s : State) : State :=
  let on := (List.range (tileCount s)).map (siteOf s)
  let s := { s with power := { s.power with siteOn := s.power.siteOn.filter on.contains } }
  let s := (List.range 240).foldl restCluster s
  let ts := List.range (tileCount s)
  let s := resetTileRegs ts s
  let s := ts.foldl (fun s t => sinceKatZero t (broadcast t s)) s
  let s := (List.range 96).foldl (fun s n => if fieldLive s (linkField n) then linkUnfence n s else s) s
  rejoinPorts s

/-- t9: trim and KAT_RUN on every site to be tested, and what follows from their results. -/
def springTested (trims : List (Nat × List Nat)) (phases : List (Nat × Nat)) (failed : List Nat) (s : State) : State :=
  let s := phases.foldl phaseTested s
  let s := (clustersToTest s).foldl (trimCluster trims) s
  let fs := triedFields s
  let tests := fs.flatMap fun f => (fieldSites f).filter fun n =>
    testable s.boot.map n && get s (pwrClStat (siteCluster n)) PwrClStat.state == 3
  let s := addR (intCnt IntCnt.katRuns) tests.length s
  let s := addR (intCnt IntCnt.katFails) (tests.filter failed.contains).length s
  let bad := siteFails s trims failed
  let rebuild := s.boot.mapLost || (match s.boot.repair with
    | some (1, _) => true
    | _ => false)
  let s := fs.foldl (fieldTested bad rebuild) s
  let s := bt (fun b => { b with repair := none, mapLost := false }) s
  if springing s then finishStep 9 (sitesReady s) else s

/-! ### Host ranges (R471) -/

/-- Reduce each head range that reaches a reserved base, and uncommit a decoder left outside its range; each is logged. -/
def reduceRanges (rb : Nat) (s : State) : State :=
  [0, 1].foldl (fun s h =>
    let base := headBase s h
    let s := if rb < base + headSize s h then
        let size := (rb - base) / 2 ^ 30
        logOpen sevNotice kConfig bOwn 471 2 h (upd (ownHeadRange h) OwnHeadRange.size size s)
      else s
    (List.range 4).foldl (fun s d => match decoder s h d with
      | some (b, n) =>
        if spanHolds base (headSize s h) b n then s
        else logOpen sevNotice kConfig bQue 471 3 h
          (upd (queHeadStat h) QueHeadStat.decCommit (get s (queHeadStat h) QueHeadStat.decCommit - 2 ^ d) s)
      | none => s) s) s

/-- The reserved base when every MARKED and FAILED slice counts as retired. -/
def rbKnown (s : State) : Nat :=
  (768 - retiredCount s - slicesWith s slMarked - slicesWith s slFailed) * 0x48000000 - 64 * 2 ^ 30

/-! ### The steps (R437) -/

/-- A slice of a stack that fails identification or training is retired with cause TRAINING; an entry into RETIRED is logged
and counted (R256, R272, R526). -/
def sliceUntrained (s : State) (n : Nat) : State :=
  let was := sliceState s n
  let s := upd (hbmSlice n) HbmSlice.state slRetired (upd (hbmSlice n) HbmSlice.cause rcTraining s)
  if was = slRetired then s
  else
    let k := 1056 + 24 * (n / 32) + 23
    logCoded sevDegrade kRepair bHbm 272 (10 * slRetired + rcTraining) rcTraining n (lifeSet k 1 (lifeGet s k 1 + 1) s)

/-- A stack that fails training: its slices retire with cause TRAINING, the record first (R256, R272). -/
def stackUntrained (s : State) (k : Nat) : State :=
  let ns := (List.range 32).map (32 * k + ·)
  ns.foldl sliceUntrained (writeRetire (ns.map fun n => (n, 2 + 4 * rcTraining)) s)

/-- A pseudo-channel lost in training becomes FAILED with cause CHANNEL (R271, R272). -/
def channelLost (s : State) (n : Nat) : State :=
  if sliceState s n = slInService ∨ sliceState s n = slMarked then setSlice n slFailed rcChannel s else s

/-- The effect of a step's completion (R437, R438). -/
def springStep (x : SpringEvent) (s : State) : State :=
  match x with
  | .fabricUp unlocked =>
    let fs := triedFields s
    let up (f : Nat) : Bool := s.power.up.contains (.field (Fin.ofNat 12 f)) && s.clock.locked.contains f
    let bad := fs.filter fun f => !up f
    if mayStep s 4 [3] && bad.all fun f => unlocked.any fun u => u.val == f then
      let s := upd clkStat ClkStat.div (get s clkCtrl ClkCtrl.targetDiv) s
      finishStep 4 (bad.foldl (fun s f => springFieldLost f 6 s) s)
    else s
  | .aligned attempts seam interp =>
    if mayStep s 5 [4] && (triedFields s).all fun f => s.boot.fcRunning.contains f then
      if (attempts.take 3).any (alignedOk s) then
        let at0 := (List.range 12).foldl (fun t f => tset (fun _ => 0) f ((interp[f]?).getD 0 % 64) t) []
        let s := { s with clock := { s.clock with synced := triedFields s, offset := [], slew := [], interp := at0 } }
        finishStep 5 (seam.foldl seamTested s)
      else if 3 ≤ attempts.length then springStop 2 (logOpen sevFatal kFault bClk 411 0 0 s)
      else s
    else s
  | .mapRead =>
    if mayStep s 6 [5] then
      let s := (journalRecover s).1
      let s := loadMap s
      if 2 ≤ 12 - (triedFields s).length then springStop 5 s
      else finishStep 6 ((clustersToTest s).foldl (fun s g => requestAdmission g s) s)
    else s
  | .cxlReady =>
    if mayStep s 7 [3] && s.boot.loaded.contains 6 then
      let s := nv (fun n => { n with boots := n.boots + 1 }) s
      let s := writeDevice (upd queBootId QueBootId.boots s.nvm.boots s)
      finishStep 7 (reduceRanges (rbKnown s) s)
    else s
  | .hbmReady => if mayStep s 8 [3] && s.boot.loaded.contains 4 then finishStep 8 s else s
  | .tested trims phases failed =>
    let st (g : Nat) : Nat := get s (pwrClStat g) PwrClStat.state
    if mayStep s 9 [6] && (clustersToTest s).all fun g => st g == 3 || st g == 4 then springTested trims phases failed s
    else s
  | .hbmTrained failed lost repaired =>
    if mayStep s 10 [8] then
      let s := { s with hbmState := { s.hbmState with repaired := repaired.map fun e => (e.1.val, e.2) } }
      let s := (failed.map (·.val)).eraseDups.foldl stackUntrained s
      let s := (lost.map (·.val)).eraseDups.foldl channelLost s
      let s := upd hbmMapStat HbmMapStat.retired (slicesWith s slRetired) (countSlices s)
      finishStep 10 s
    else s
  | .firmwareStop => if springing s && !stepDone s 3 then springStop 4 s else s
  | .crefAbsent => if springing s && s.clock.crefLost then springStop 1 (domainsHeld s) else s

/-- SPRING_STEP (R437). -/
def execSpringStep (x : SpringEvent) (s : State) : Host.Outcome State Fault Refusal := .next (powered (springStep x) s)

/-- SPRING_DONE: with the sites tested and the memory test done, the head ranges are checked against the final RB and the
device enters SUMMER, or AUTUMN while a cause of it holds (R398, R437, R471). -/
def execSpringDone (s : State) : Host.Outcome State Fault Refusal :=
  .next (powered (fun s =>
    if mayStep s 12 [9, 11] then
      let s := finishStep 12 (reduceRanges (reservedBase s) s)
      let s := upd supBootStat SupBootStat.elapsedMs ((s.devtime - s.boot.released) / msTicks) s
      setDevState (if get s pwrState PwrState.autumnCause = 0 then 2 else 3) s
    else s) s)

end Sys2Proof.Machine
end

