-- ==== Sys2Proof/Machine/Control.lean ====
section
/-! DEFINITION. Power capping and thermal control (R386–R406): the 1 µs controller, the slope budgets, the power
windows, temperatures, coolant, and the states AUTUMN and WINTER. Powers are in mW unless said otherwise. -/

namespace Sys2Proof.Machine

open Sys2Proof

/-! ### Small readings -/

/-- Whether some cluster has L_therm below 64 (R398). -/
def anyThrottled (s : State) : Bool :=
  s.regs.any fun e =>
    decide (0x10000 ≤ e.1) && (decide (e.1 < 0x11E00) && (e.1 % 0x20 == 0x10 &&
      decide (getF e.2 PwrClTherm.lTherm < 64)))

/-- Whether some field is CAPPED (R361). -/
def anyCapped (s : State) : Bool :=
  (List.range 12).any fun f => get s (pwrFieldStat f) PwrFieldStat.state == 1

/-- A value of a sparse reading, by index. -/
def reading (l : List (Nat × Nat)) (i d : Nat) : Nat :=
  match l.find? fun e => e.1 == i with
  | some e => e.2
  | none => d

/-- Cluster voltage in mV (R365). -/
def clusterMv (s : State) (g : Nat) : Nat := 600 + 5 * get s (pwrClStat g) PwrClStat.vset

/-- Measured power of a cluster, IOUT × V (R387). -/
def clusterPower (s : State) (g : Nat) : Nat := get s (pwrClStat g) PwrClStat.iout * clusterMv s g / 10

/-- A power at a cluster rail, referred to the input (R387). -/
def atInput (p : Nat) : Nat := p * 100 / 85

/-- K(g) (R387). -/
def stepCost (s : State) (g : Nat) : Nat := tget (fun _ => 500) s.control.cost g

/-- a(g) of the last sample. -/
def activity (s : State) (g : Nat) : Nat := tget (fun _ => 0) s.control.act g

/-- L_therm as the slope control has applied it. -/
def appliedTherm (s : State) (g : Nat) : Nat := tget (fun _ => 64) s.control.appTherm g

/-- M_W now in force. -/
def mW (s : State) : Nat := get s pwrState PwrState.mW

/-- Change the controller's own state. -/
def ctl (f : ControlState → ControlState) (s : State) : State := { s with control := f s.control }

/-! ### Measurements of a sample -/

/-- Take the cluster and field readings of a sample into their registers (R367, R379, R380, R382). -/
def noteReadings (x : PowerSample) (s : State) : State :=
  let s := upd pwrInStat PwrInStat.iin (min 65535 x.iin) (upd pwrInStat PwrInStat.vin (min 65535 x.vin) s)
  let s := upd pwrInStat PwrInStat.haltPend
    (b2n (decide (x.vin < 3800) && get s pwrInStat PwrInStat.halt == 0)) s
  let s := x.iout.foldl (fun s e =>
    if e.1 < 240 then upd (pwrClStat e.1) PwrClStat.iout (min 1023 e.2) s else s) s
  let s := x.ifield.foldl (fun s e =>
    if e.1 < 12 then upd (pwrFieldStat e.1) PwrFieldStat.ifield (min 4095 e.2) s else s) s
  x.vrail.foldl (fun s e =>
    if e.1 < 12 then upd (pwrFieldStat e.1) PwrFieldStat.vrail (min 4095 e.2) s else s) s

/-- a(g), the idle power and K(g) of one cluster (R387). -/
def noteActivity (x : PowerSample) (s : State) (g : Nat) : State :=
  let a := min 64 (reading x.act g 0)
  let p := clusterPower s g
  let s := ctl (fun c => { c with act := tset (fun _ => 0) g a c.act }) s
  let s := if a = 0 then ctl (fun c => { c with idle := tset (fun _ => none) g (some p) c.idle }) s else s
  match tget (fun _ => none) s.control.idle g with
  | none => s
  | some p0 =>
    let k := max 100 (min 1000 (atInput ((p - p0) / max a 8)))
    ctl (fun c => { c with cost := tset (fun _ => 500) g k c.cost }) s

/-- Rail current budget of a field by its working converters (R361). -/
def fieldBudget (s : State) (f : Nat) : Nat :=
  let n := ([PwrFieldStat.ibcA, PwrFieldStat.ibcB, PwrFieldStat.ibcC].filter
    fun c => get s (pwrFieldStat f) c == 1).length
  if n = 3 then 900 else if n = 2 then 680 else 330

/-- L_field (R386). -/
def updateLField (s : State) (f : Nat) : State :=
  let i := get s (pwrFieldStat f) PwrFieldStat.ifield
  let b := fieldBudget s f
  let l := tget (fun _ => 64) s.control.lField f
  let l' := if b ≤ i + 20 then max 1 (l - 4) else if i + 60 < b then min 64 (l + 1) else l
  let s := if l' < l then exemptFall s else s
  ctl (fun c => { c with lField := tset (fun _ => 64) f l' c.lField }) s

/-- L_ilim (R386); IOUT is in 0.1 A. -/
def updateLIlim (s : State) (g : Nat) : State :=
  let i := get s (pwrClStat g) PwrClStat.iout
  let e := 10 * get s (pwrClStat g) PwrClStat.ilimEff
  let l := tget (fun _ => 64) s.control.lIlim g
  let l' := if e < i then max 1 (l - 16) else if e < i + 20 then max 1 (l - 4)
            else if i + 60 < e then min 64 (l + 1) else l
  let s := if l' < l then exemptFall s else s
  ctl (fun c => { c with lIlim := tset (fun _ => 64) g l' c.lIlim }) s

/-! ### Windows (R391) -/

/-- LS in W: SUST_W within 2000–12,000, less the coolant derating (R391, R402). -/
def sustained (s : State) : Nat :=
  max 2000 (min 12000 (get s pwrLimit PwrLimit.sustW)) - get s pwrCoolStat PwrCoolStat.derateW

/-- L10 and L1 in W. -/
def limit10 (s : State) : Nat := min 12600 (105 * sustained s / 100)
def limit1 (s : State) : Nat := min 13200 (110 * sustained s / 100)

/-- Sum of a list of numbers. -/
def listSum (l : List Nat) : Nat := l.foldl (· + ·) 0

/-- Take a sample's power in W into the histories. -/
def notePower (p : Nat) (s : State) : State :=
  let s := ctl (fun c => { c with samples := (p :: c.samples).take 10000
                                  msCount := c.msCount + 1
                                  msSum := c.msSum + p }) s
  if s.control.msCount < 1000 then s
  else ctl (fun c => { c with millis := (c.msSum / 1000 :: c.millis).take 999, msCount := 0, msSum := 0 }) s

/-- The least room of one window over the 64 samples ahead, in W (R391). -/
def windowTarget (samples : List Nat) (p n lim : Nat) : Int :=
  (List.range 64).foldl (fun t j0 =>
    let j : Int := (j0 : Nat)
    let room : Int := (lim * n : Nat) - (listSum (samples.take (n - (j0 + 1))) : Nat) - (p : Int) * j
    min t (room + 50 * j)) (1000000 : Int)

/-- The target of R391 in W. -/
def powerTarget (p : Nat) (s : State) : Int :=
  let c := s.control
  let t1 := windowTarget c.samples p 1000 (limit1 s)
  let t10 := windowTarget c.samples p 10000 (limit10 s)
  let cur : Nat := if c.msCount = 0 then p else c.msSum / c.msCount
  let ts : Int := (sustained s * 1000 : Nat) - (listSum c.millis : Nat) - (cur : Nat)
  min (min t1 t10) ts

/-- est(m) in mW: cluster idle powers and steps, and the power not attributed to cluster rails (R391). -/
def estimate (s : State) (on : List Nat) (pOther : Nat) (m : Nat) : Nat :=
  pOther + listSum (on.map fun g =>
    atInput ((tget (fun _ => none) s.control.idle g).getD 0) + stepCost s g * min (activity s g) m)

/-- Report the windows (R404). -/
def noteWindows (target : Int) (s : State) : State :=
  let c := s.control
  let a1 := listSum (c.samples.take 1000) / 1000
  let a10 := listSum c.samples / 10000
  let a1s := (listSum c.millis + (if c.msCount = 0 then 0 else c.msSum / c.msCount)) / 1000
  let s := upd pwrWinStat PwrWinStat.avg1ms (min 65535 a1) s
  let s := upd pwrWinStat PwrWinStat.avg10ms (min 65535 a10) s
  let s := upd pwrWinStat PwrWinStat.avg1s (min 65535 a1s) s
  upd pwrWinStat PwrWinStat.target (min 65535 target.toNat) s

/-! ### Slope (R388)

The budgets of a sample are 50 W for falls and 50 W for rises. -/

/-- Set the applied L_therm of a cluster. -/
def setTherm (g l : Nat) (s : State) : State := ctl (fun c => { c with appTherm := tset (fun _ => 64) g l c.appTherm }) s

/-- Lower the applied L_therm of a cluster by one step where it is above its limit and the fall budget has room. -/
def fallTherm (p : Nat × State) (g : Nat) : Nat × State :=
  let l := appliedTherm p.2 g
  if get p.2 (pwrClTherm g) PwrClTherm.lTherm < l ∧ stepCost p.2 g ≤ p.1 then
    (p.1 - stepCost p.2 g, setTherm g (l - 1) p.2)
  else p

/-- Rounds of falls, each cluster one step at a time. -/
def fallRounds (on : List Nat) : Nat → Nat × State → Nat × State
  | 0, p => p
  | n + 1, p =>
    let q := on.foldl fallTherm p
    if q.1 = p.1 then p else fallRounds on n q

/-- The falls of L_therm of all clusters; a rise applies at once (R388). -/
def applyTherm (on : List Nat) (fall : Nat) (s : State) : Nat × State :=
  let s := on.foldl (fun s g =>
    let goal := get s (pwrClTherm g) PwrClTherm.lTherm
    if appliedTherm s g ≤ goal then setTherm g goal s else s) s
  fallRounds on 64 (fall, s)

/-- Lower M_W one step at a time while the estimate is above the target, or M_W above the cap of a pending divider
change (R419), and the fall budget remains. -/
def fallMw (on : List Nat) (pOther : Nat) (target : Int) (cap : Nat) : Nat → Nat → State → Nat × State
  | 0, fall, s => (fall, s)
  | n + 1, fall, s =>
    let m := mW s
    let cost := estimate s on pOther m - estimate s on pOther (m - 1)
    if 1 < m ∧ ((target * 1000 < (estimate s on pOther m : Nat)) ∨ cap < m) ∧ cost ≤ fall then
      fallMw on pOther target cap n (fall - cost) (upd pwrState PwrState.mW (m - 1) s)
    else (fall, s)

/-- Floors of activity: one step of each cluster in turn while the fall budget remains (R388). -/
def shedRound (s : State) : List Nat → Nat → Table Nat → Nat × Table Nat
  | [], fall, fl => (fall, fl)
  | g :: r, fall, fl =>
    let f := tget (fun _ => 0) fl g
    if 0 < f ∧ stepCost s g ≤ fall then shedRound s r (fall - stepCost s g) (tset (fun _ => 0) g (f - 1) fl)
    else shedRound s r fall fl

/-- Rounds of shedding until the budget is spent; each round that sheds anything spends at least 0.1 W. -/
def shedAll (s : State) (on : List Nat) : Nat → Nat → Table Nat → Table Nat
  | 0, _, fl => fl
  | n + 1, fall, fl =>
    let p := shedRound s on fall fl
    if p.1 = fall then fl else shedAll s on n p.1 p.2

/-- The other limits of a cluster: all of R386 but L_ramp. -/
def otherLimits (s : State) (g : Nat) : Nat :=
  let cap := if get s pwrInStat PwrInStat.cap = 1 then 32 else 64
  let lf := tget (fun _ => 64) s.control.lField (clusterField g)
  let li := tget (fun _ => 64) s.control.lIlim g
  min (min cap lf) (min (min li (appliedTherm s g)) (mW s))

/-- The grants of one rise, whether one was refused for budget, and what is left of it (R388). -/
def grantRises (s : State) : List Nat → Nat → Table Nat × Bool → (Table Nat × Bool) × Nat
  | [], rise, r => (r, rise)
  | g :: rest, rise, r =>
    let a := activity s g
    let m := tget (fun _ => 64) s.control.m g
    if a = m ∧ m < otherLimits s g then
      if stepCost s g ≤ rise then grantRises s rest (rise - stepCost s g) (tset (fun _ => 1) g (a + 1) r.1, r.2)
      else grantRises s rest rise (tset (fun _ => 1) g a r.1, true)
    else grantRises s rest rise (tset (fun _ => 1) g a r.1, r.2)

/-- m(g) of R386. -/
def issueLimit (s : State) (g : Nat) : Nat :=
  max 1 (min (otherLimits s g) (tget (fun _ => 1) s.control.lRamp g))

/-- Rotate a list so that element `n` stands first. -/
def rotate (n : Nat) (l : List Nat) : List Nat :=
  if l.isEmpty then l else l.drop (n % l.length) ++ l.take (n % l.length)

/-! ### AUTUMN (R398) -/

/-- The causes of AUTUMN that hold now, as AUTUMN_CAUSE codes them. -/
def autumnCauses (window : Bool) (s : State) : Nat :=
  b2n (get s pwrInStat PwrInStat.cap == 1) + 2 * b2n (anyCapped s) + 4 * b2n window + 8 * b2n (anyThrottled s)
    + 16 * b2n (s.control.inletDerate || s.control.flowDerate) + 32 * b2n (decide (8 < get s clkStat ClkStat.div))

/-- Whether the window limiter is engaged after a sample (R398). -/
def windowEngaged (s : State) : Bool :=
  let was := bit1 (get s pwrState PwrState.autumnCause) 2
  if was then decide (s.control.farFor < 10000) else decide (1000 ≤ s.control.nearFor)

/-- Count how long the target has been near or far above the input power. -/
def noteNear (p : Nat) (target : Int) (s : State) : State :=
  ctl (fun c => { c with nearFor := if target < (p : Int) + 100 then c.nearFor + 1 else 0
                         farFor := if (p : Int) + 300 ≤ target then c.farFor + 1 else 0 }) s

/-- Report the causes and enter AUTUMN in the sample in which one arises; note since when none has held (R398). -/
def noteCauses (s : State) : State :=
  let c := autumnCauses (windowEngaged s) s
  let s := upd pwrState PwrState.autumnCause c s
  if c = 0 then
    if s.control.autumnClear.isSome then s else ctl (fun x => { x with autumnClear := some s.devtime }) s
  else
    let s := ctl (fun x => { x with autumnClear := none }) s
    if devState s = .summer then setDevState 3 s else s

/-- Note since when no cause of WINTER has held (R400). -/
def noteWinter (s : State) : State :=
  if get s pwrState PwrState.winterCause = 0 then
    if s.control.winterClear.isSome then s else ctl (fun x => { x with winterClear := some s.devtime }) s
  else ctl (fun x => { x with winterClear := none }) s

/-- CONTROL_SAMPLE: every 1 µs the controller takes the measurements, spends the slope budgets, sets M_W and computes
the issue limit of every cluster that is ON (R386–R391), and AUTUMN follows from the limits in force (R398). -/
def execControlSample (x : PowerSample) (s : State) : Host.Outcome State Fault Refusal :=
  .next (powered (fun s =>
    let p := x.vin * x.iin / 1000
    let s := notePower p (noteReadings x s)
    let on := onClusters s
    let s := on.foldl (noteActivity x) s
    let s := on.foldl updateLIlim ((liveFields s).foldl updateLField s)
    let target := powerTarget p s
    let pOther := p * 1000 - listSum (on.map fun g => atInput (clusterPower s g))
    let cap := match s.clock.step with
      | some st => st.cap
      | none => 64
    let th := applyTherm on 50000 s
    let above := decide (target < (p : Int)) || decide (cap < mW th.2)
    let mw := if above then fallMw on pOther (if target < (p : Int) then target else 1000000) cap 64 th.1 th.2
              else th
    let s := mw.2
    let s := if !above && (decide (mW s < min 64 cap) &&
        decide (((estimate s on pOther (mW s + 1) : Nat) : Int) + 100000 ≤ target * 1000)) then
      upd pwrState PwrState.mW (mW s + 1) s else s
    let turn := s.control.turn
    let held := on.any fun g => decide (get s (pwrClTherm g) PwrClTherm.lTherm < appliedTherm s g)
    let fl0 := on.foldl (fun t g => tset (fun _ => 0) g (activity s g) t) []
    let fl := if get s pwrLimit PwrLimit.fill = 0 || held then fl0
              else shedAll s (rotate turn on) 500 mw.1 fl0
    let gr := grantRises s (rotate turn on) 50000 ([], false)
    let starved := s.control.starvedPart + b2n gr.1.2
    let s := ctl (fun c => { c with floor := fl, lRamp := gr.1.1, turn := turn + 1, starvedPart := starved % 1024
                                    fallLeft := mw.1, riseLeft := gr.2 }) s
    let s := if 1024 ≤ starved then satAdd pwrSlopeStat PwrSlopeStat.starved 1 s else s
    let ms := on.foldl (fun t g => tset (fun _ => 64) g (issueLimit s g) t) s.control.m
    let s := ctl (fun c => { c with m := ms }) s
    chooseTs (noteWinter (noteCauses (noteNear p target (noteWindows target s))))) s)

/-- AUTUMN_EXIT: the device returns to SUMMER when no cause has held for 10 ms (R398). -/
def execAutumnExit (s : State) : Host.Outcome State Fault Refusal :=
  .next (powered (fun s =>
    match s.control.autumnClear with
    | some t => if devState s = .autumn ∧ t + 10 * msTicks ≤ s.devtime ∧ get s pwrState PwrState.autumnCause = 0 then
        setDevState 2 s else s
    | none => s) s)

/-- FRAME_START: at a field count that is a multiple of 8d the cluster's new issue limit takes effect (R98, R100,
R418); frames in which filler beats hold the activity are counted (R390, R406). -/
def execFrameStart (g : ClusterId) (s : State) : Host.Outcome State Fault Refusal :=
  .next (powered (fun s =>
    let d := get s clkStat ClkStat.div
    if fieldTime s (clusterField g) % (8 * d) ≠ 0 ∨ fabricOff s (clusterField g) then s
    else
      let m := tget (fun _ => 64) s.control.m g
      let s := (clusterTiles s g).foldl (fun s t =>
        updTile t (fun x => { x with frame := x.tclk })
          (upd (tilStat t) TilStat.limit m (upd (tilStat t) TilStat.limited (b2n (decide (m < 64))) s))) s
      let filler := get s pwrLimit PwrLimit.fill == 1 &&
        decide (activity s g < tget (fun _ => 0) s.control.floor g)
      if filler then
        let n := s.control.fillPart + 1
        let s := ctl (fun c => { c with fillPart := n % 65536 }) s
        if 65536 ≤ n then satAdd pwrSlopeStat PwrSlopeStat.fill 1 s else s
      else s) s)

/-! ### Temperature (R392–R396) -/

/-- The index of a sensor (R396). -/
def sensorIndex : TempSensor → Nat
  | .cluster g => g.val
  | .fabric f => 240 + f.val

/-- Last temperature of a sensor in tenths of °C. -/
def tempOf (s : State) (i : Nat) : Option Int := tget (fun _ => none) s.control.lastTemp i

/-- A threshold that two consecutive samples meet (R393). -/
def metTwice (s : State) (i : Nat) (p : Int → Bool) : Bool :=
  match tget (fun _ => none) s.control.prevTemp i, tempOf s i with
  | some a, some b => p a && p b
  | _, _ => false

/-- The thermal limit of a cluster after one update (R394). -/
def thermNext (s : State) (g : Nat) : Nat :=
  let l := get s (pwrClTherm g) PwrClTherm.lTherm
  let l := match tempOf s g with
    | none => l
    | some t =>
      if metTwice s g (fun x => decide (950 < x)) then max 1 (l - 2 * ((t - 950 + 9) / 10).toNat)
      else if t < 930 then min 64 (l + 1) else l
  if get s (pwrFldTherm (clusterField g)) PwrFldTherm.hot = 1 then max 1 (l / 2) else l

/-- THERMAL_UPDATE: every 100 µs the controller updates L_therm of every cluster (R394). -/
def execThermalUpdate (s : State) : Host.Outcome State Fault Refusal :=
  .next (powered (fun s =>
    (List.range 240).foldl (fun s g =>
      let l := thermNext s g
      upd (pwrClTherm g) PwrClTherm.lTherm l (upd (pwrClTherm g) PwrClTherm.throttle (b2n (decide (l < 64))) s)) s) s)

/-- Switch-offs for heat of a cluster within the last 24 h. -/
def heatTimes (s : State) (g : Nat) : List Nat :=
  (tget (fun _ => []) s.control.heat g).filter fun t => decide (s.devtime < t + dayTicks)

/-- The good sites of a cluster take the status that its switch-off for heat gives them: COOLING, or DORMANT with
CAUSE 4 the third time within 24 h; logical sites follow at their remap (R395, R445, R449). -/
def heatSites (g : Nat) (third : Bool) (s : State) : State :=
  let m := (clusterSites g).foldl (fun m n =>
    let st := mapStatus m n
    if st = stStandby ∨ st = stDormant then (if third then mapDormant n 4 m else mapSetStatus n stCooling m) else m)
    s.boot.map
  let np := if third then clusterSites g else []
  { s with boot := { s.boot with map := m, mapDirty := true, noPromote := s.boot.noPromote ++ np } }

/-- Switch a cluster off for heat: its tiles are reported as faulted, its clock is gated and its rail ramps down
(R395). -/
def thermalOff (g : Nat) (s : State) : State :=
  let times := heatTimes s g ++ [s.devtime]
  let was := (clusterSites g).map fun n => (n, mapByte s.boot.map n)
  let s := ctl (fun c => { c with heat := tset (fun _ => []) g times c.heat, heatWas := was
                                  coolSince := tset (fun _ => none) g none c.coolSince }) s
  let s := upd (pwrClTherm g) PwrClTherm.offs (min 3 times.length) (upd (pwrClTherm g) PwrClTherm.cooling 1 s)
  let s := logCoded sevDegrade kState bPwr 395 0 4 g (exemptFall s)
  let ts := clusterTiles s g
  let s := heatSites g (decide (3 ≤ times.length)) s
  let s := sitesLost (clusterSites g) s
  let s := if ts.isEmpty then s else batchFailCluster ts s
  let s := { s with power := { s.power with
    ramping := s.power.ramping ++ [g]
    waiting := s.power.waiting.filter fun r => r.cluster != g } }
  remapRequest ts 4 s

/-- The highest last temperature of the clusters. -/
def hottest (s : State) : Option Int :=
  (s.control.lastTemp.filterMap fun e => if e.1 < 240 then e.2 else none).foldl
    (fun m t => match m with
      | none => some t
      | some x => some (max x t)) none

/-- Count a thermal cycle when the highest cluster temperature rises above 80 °C after having been below 40 °C (R527),
and keep the highest temperature seen (R525). -/
def noteCycle (s : State) : State :=
  match hottest s with
  | none => s
  | some t =>
    let s := lifeMax 80 1 (t / 10).toNat s
    if t < 400 then ctl (fun c => { c with cycleArmed := true }) s
    else if 800 < t ∧ s.control.cycleArmed = true then
      lifeCount 44 4 1 (ctl (fun c => { c with cycleArmed := false }) s)
    else s

/-- TEMP_SAMPLE: a sensor's sample is taken and compared with the thresholds of R393, each met when two consecutive
samples meet it (R392, R393, R395). -/
def execTempSample (sensor : TempSensor) (tenths : Int) (s : State) : Host.Outcome State Fault Refusal :=
  .next (powered (fun s =>
    let i := sensorIndex sensor
    let s := ctl (fun c => { c with prevTemp := tset (fun _ => none) i (tget (fun _ => none) c.lastTemp i) c.prevTemp
                                    lastTemp := tset (fun _ => none) i (some tenths) c.lastTemp }) s
    match sensor with
    | .cluster g =>
      let s := upd (pwrClTherm g) PwrClTherm.temp (unsigned 8 (tenths / 10)) s
      let s := if tenths ≤ 850 then
          (match tget (fun _ => none) s.control.coolSince g.val with
           | some _ => s
           | none => ctl (fun c => { c with coolSince := tset (fun _ => none) g.val (some s.devtime) c.coolSince }) s)
        else ctl (fun c => { c with coolSince := tset (fun _ => none) g.val none c.coolSince }) s
      let s := noteCycle s
      let st := get s (pwrClStat g) PwrClStat.state
      if metTwice s i (fun x => decide (1150 ≤ x)) && (decide (st = 1 ∨ st = 2 ∨ st = 3) &&
          !(s.power.ramping.contains g.val)) then thermalOff g s
      else s
    | .fabric f =>
      let s := upd (pwrFldTherm f) PwrFldTherm.temp (unsigned 8 (tenths / 10)) s
      if metTwice s i (fun x => decide (1100 ≤ x)) then upd (pwrFldTherm f) PwrFldTherm.hot 1 s
      else if tenths < 1100 then upd (pwrFldTherm f) PwrFldTherm.hot 0 s else s) s)

/-- COOLING_RETURN: once the sensor has read 85 °C or below for 1 s, the cluster's good sites return to the standby
role; after a third switch-off within 24 h they stay dormant (R395, R449). -/
def execCoolingReturn (g : ClusterId) (s : State) : Host.Outcome State Fault Refusal :=
  .next (powered (fun s =>
    match tget (fun _ => none) s.control.coolSince g.val with
    | none => s
    | some t =>
      if get s (pwrClTherm g) PwrClTherm.cooling = 1 ∧ t + secTicks ≤ s.devtime ∧
          s.power.ramping.contains g.val = false then
        let m := (clusterSites g).foldl (fun m n =>
          if mapStatus m n = stCooling then mapSetStatus n stStandby m else m) s.boot.map
        upd (pwrClTherm g) PwrClTherm.cooling 0 { s with boot := { s.boot with map := m, mapDirty := true } }
      else s) s)

/-- The input supervisor's latch of a die trip, and THERMTRIP# (R396, R553). -/
def latchTrip (sensor : TempSensor) (tenths : Int) (s : State) : State :=
  { s with power := { s.power with off := some .dieTrip, latch := some .dieTrip, thermtrip := true
                                   tripLatch := some (sensorIndex sensor, (tenths / 10).toNat) } }

/-- DIE_TRIP: at two samples in a row of 125 °C or more the input supervisor stops every converter, asserts THERMTRIP# and
latches the sensor and the temperature; the device stays in COLD until VIN falls below 36.0 V (R393, R396, R553). Together with
a brown-out, the trip governs and the latch records it (R401). -/
def execDieTrip (sensor : TempSensor) (before tenths : Int) (s : State) : Host.Outcome State Fault Refusal :=
  .next (
    if tenths < 1250 ∨ before < 1250 then s
    else match s.power.off with
      | none => latchTrip sensor tenths (powerOff .dieTrip s)
      | some .brownout => latchTrip sensor tenths s
      | some _ => s)

/-! ### Coolant (R397, R563) -/

/-- The tick since which a condition has held: set at its onset, cleared when it ends. -/
def heldSince (now : Nat) (old : Option Nat) (holds : Bool) : Option Nat :=
  if holds then some (old.getD now) else none

/-- Whether a condition has held for `ticks`. -/
def heldFor (now : Nat) (since : Option Nat) (ticks : Nat) : Bool :=
  match since with
  | some t => decide (t + ticks ≤ now)
  | none => false

/-- The flow estimate in 0.1 L/min: 0.97 × P ÷ (ρ × c_p × ΔT) with ΔT in tenths of °C (R562, R563). -/
def flowEstimate (watts : Nat) (tin tout : Int) : Nat :=
  let d := (tout - tin).toNat
  if d = 0 then 4095 else min 4095 (watts * 5820000 / (3978000 * d))

/-- LS after the coolant derating: lowered by 500 W per °C of inlet above 45 °C, then scaled by flow ÷ 12 L/min
(R397). -/
def derated (sust : Nat) (inlet : Bool) (tin : Int) (flow : Bool) (f : Nat) : Nat :=
  let a := if inlet then sust - 50 * (tin - 450).toNat else sust
  if flow then a * f / 120 else a

/-- COOLANT_SAMPLE: the inlet and outlet readings of every 100 ms, in tenths of °C, and the responses of R397. -/
def execCoolantSample (tin tout : Int) (s : State) : Host.Outcome State Fault Refusal :=
  .next (powered (fun s =>
    let now := s.devtime
    let c := s.control
    let watts := get s pwrWinStat PwrWinStat.avg1s
    let valid := decide (4000 ≤ watts)
    let flows := if valid then (flowEstimate watts tin tout :: c.flows).take 100 else []
    let flow := if flows.isEmpty then 0 else listSum flows / flows.length
    let over45 := heldSince now c.over45 (decide (450 < tin))
    let over50 := heldSince now c.over50 (decide (500 < tin))
    let under45 := heldSince now c.under45 (decide (tin ≤ 450))
    let lowFlow := heldSince now c.lowFlow (valid && decide (flow < 90))
    let okFlow := heldSince now c.okFlow (valid && decide (100 ≤ flow))
    let inlet := if c.inletDerate then !heldFor now under45 (10 * secTicks) else heldFor now over45 (10 * secTicks)
    let low := if c.flowDerate then !heldFor now okFlow (10 * secTicks) else heldFor now lowFlow (10 * secTicks)
    let cold := decide (tin < 300)
    let s := ctl (fun c => { c with flows := flows, over45 := over45, over50 := over50, under45 := under45
                                    lowFlow := lowFlow, okFlow := okFlow, inletDerate := inlet, flowDerate := low
                                    inletCold := cold }) s
    let sust := max 2000 (min 12000 (get s pwrLimit PwrLimit.sustW))
    let s := upd pwrCoolStat PwrCoolStat.tIn (unsigned 16 tin) (upd pwrCoolStat PwrCoolStat.tOut (unsigned 16 tout) s)
    let s := upd pwrCoolStat PwrCoolStat.flow flow (upd pwrCoolStat PwrCoolStat.flowValid (b2n valid) s)
    let s := upd pwrCoolStat PwrCoolStat.derateW (sust - derated sust inlet tin low flow) s
    let s := lifeMax 81 1 (tin / 10).toNat s
    let s := if inlet && !c.inletDerate then logOpen sevDegrade kState bPwr 397 0 0 s else s
    let s := if low && !c.flowDerate then logOpen sevDegrade kState bPwr 397 1 0 s else s
    let s := if cold && !c.inletCold then logOpen sevNotice kState bPwr 397 2 0 s else s
    if heldFor now over50 (10 * secTicks) then winterCause 2 s
    else if heldFor now under45 (60 * secTicks) then winterClear 2 s else s) s)

/-! ### WINTER (R399, R400) -/

/-- Set PWR_LIMIT.WINTER_REQ, the owner's cause of WINTER (R399, R402). -/
def setWinterReq (v : Bool) (s : State) : State :=
  let s := upd pwrLimit PwrLimit.winterReq (b2n v) s
  if v then winterCause 4 s else winterClear 4 s

/-- WINTER_REQUEST: the owner writes WINTER_REQ (R399, R402). -/
def execWinterRequest (m : Master) (v : Bool) (s : State) : Host.Outcome State Fault Refusal :=
  .next (powered (asOwner m pwrLimit 32 (setWinterReq v)) s)

/-- WINTER_ENTER: on a cause, after the running batch or 500 µs, the device takes a compute reset and quiesces
(R357, R399). A switch-off for heat under way completes first (R401). -/
def execWinterEnter (s : State) : Host.Outcome State Fault Refusal :=
  .next (powered (fun s =>
    match s.control.winterDue with
    | none => s
    | some t =>
      if (running s && s.power.ramping.isEmpty) && (get s pwrState PwrState.winterCause != 0 &&
          (!batchRunning s || decide (t + 500 * usTicks ≤ s.devtime))) then
        let s := ctl (fun c => { c with winterDue := none, exiting := false }) s
        quiesced (setDevState 4 (computeReset .winter s))
      else s) s)

/-- Clusters that hold a logical site (R400). -/
def logicalClusters (s : State) : List Nat :=
  (List.range 240).filter fun g =>
    fieldLive s (clusterField g) && (clusterSites g).any fun n => siteStatus s n == stLogical

/-- WINTER_EXIT: once no cause has held for 100 ms, every cluster with a logical site is requested for admission; when
all are ON, each site passes KAT_RUN, the active season is reloaded, and the device enters SUMMER or AUTUMN with every
m at 1 (R400); the sites in `failed` fail their run, and their tiles are remapped (R336). -/
def execWinterExit (failed : List Nat) (s : State) : Host.Outcome State Fault Refusal :=
  .next (powered (fun s =>
    match s.control.winterClear with
    | none => s
    | some t =>
      if devState s = .winter ∧ t + 100 * msTicks ≤ s.devtime ∧ get s pwrState PwrState.winterCause = 0 then
        let gs := logicalClusters s
        if s.control.exiting = false then
          (gs.foldl (fun s g => requestAdmission g s) (ctl (fun c => { c with exiting := true }) s))
        else if gs.all fun g => get s (pwrClStat g) PwrClStat.state == 3 || get s (pwrClStat g) PwrClStat.state == 4 then
          let s := ctl (fun c => { c with exiting := false, winterDue := none, m := [], lRamp := [] }) s
          let s := gs.foldl (fun s g => ctl (fun c => { c with m := tset (fun _ => 64) g 1 c.m }) s) s
          let v := if get s pwrState PwrState.autumnCause = 0 then 2 else 3
          reloadSeason (katAll failed (setDevState v s))
        else s
      else s) s)

end Sys2Proof.Machine
end

