-- ==== Sys2Proof/Machine/BatchOps.lean ====
section
/-! DEFINITION. The supervisor's view of work: weighted age, the model that would run next, stream state in its slots, and
the end of a batch (R198–R206). -/

namespace Sys2Proof.Machine

open Sys2Proof

/-! ### Weighted age (R192, R198, R199) -/

/-- The policy record of the active season. -/
def policy (s : State) : Nat :=
  match activeSlot s with
  | some i => policyRec s (slotBase s i)
  | none => 0

/-- Weight of a priority class under the active season's policy; without an active season every class weighs 1. -/
def prioWeight (s : State) (p : Nat) : Nat := if (activeSlot s).isSome then plWeight (policy s) p else 1

/-- Weighted age of a ready chunk in µs. -/
def weightedAge (s : State) (r : Request) : Nat :=
  (s.devtime - r.ready.getD s.devtime) / usTicks * prioWeight s (dsPrio r.desc)

/-- Requests whose next chunk is ready, in the order of acceptance. -/
def readyReqs (s : State) : List Request := s.req.reqs.filter fun r => r.ready.isSome && chunkReady s r

/-- The chunk of the largest weighted age; of equal ones the one accepted first. -/
def eldest (s : State) (l : List Request) : Option Request :=
  match l with
  | [] => none
  | a :: r => some (r.foldl (fun m b => if weightedAge s m < weightedAge s b then b else m) a)

/-- Insert a chunk behind those of no smaller weighted age. -/
def insertByAge (s : State) (x : Request) : List Request → List Request
  | [] => [x]
  | y :: r => if weightedAge s y < weightedAge s x then x :: y :: r else y :: insertByAge s x r

/-- Chunks in the order of weighted age, oldest first. -/
def byAge (s : State) (l : List Request) : List Request := l.foldl (fun a x => insertByAge s x a) []

/-- SEASON_ID of the active season. -/
def activeSeason (s : State) : Option Nat := (activeSlot s).map (slotSeason s)

/-- DIGEST of the active season's image, by which constants left to the compiler are keyed. -/
def activeImage (s : State) : Nat :=
  match activeSlot s with
  | some i => bits (imgHeader s (slotBase s i)) 512 512
  | none => 0

/-- Ready chunks of the active season. -/
def readyActive (s : State) : List Request := (readyReqs s).filter fun r => activeSeason s == some (dsSeason r.desc)

/-- Ready chunks of a model of the active season. -/
def readyModel (s : State) (m : Nat) : List Request := (readyActive s).filter fun r => dsModel r.desc == m

/-- Chunks that a batch of a model would take now. -/
def batchChunks (s : State) (m : Nat) : List Nat :=
  ((byAge s (readyModel s m)).take (max 1 (plMax (policy s)))).map (·.id)

/-- The model and the chunks that the procedure of R199 would choose next. -/
def predicted (s : State) : Option (Nat × List Nat) :=
  (eldest s (readyActive s)).map fun r => (dsModel r.desc, batchChunks s (dsModel r.desc))

/-! ### Stream state (R204–R206) -/

/-- First byte of a request's stream state slot. -/
def streamSlot (s : State) (r : Request) : Nat := slotArrayBase s + dsSlot r.desc * slotSize s

/-- A tile's part of the state of a chunk: first unit in AM, first unit of the state, and units. -/
def partBase (p : Nat) : Nat := bits p 0 16
def partOff (p : Nat) : Nat := bits p 16 32
def partUnits (p : Nat) : Nat := bits p 48 16

/-- The part of a tile for a place in a batch of a model of the active season. -/
def statePart (s : State) (m t k : Nat) : Nat := (Config.statePart (activeImage s) m t k).toNat

/-- Tiles that hold a part of a chunk's state. -/
def partTiles (s : State) (m k : Nat) : List Nat :=
  (List.range (tileCount s)).filter fun t => partUnits (statePart s m t k) != 0

/-- The chunk is the first of a stream; it is the last of a stream that ends. -/
def streamStarts (r : Request) : Bool := r.next == 0 && dsNewStream r.desc
def streamEnds (r : Request) : Bool := dsEndStream r.desc && r.next + 1 == r.chunks

/-- A model is a copy of another; COPY_OF 0xFF names none (R188). -/
def modelCopies (s : State) (base a b : Nat) : Bool := b != 0xFF && mdCopyOf (modelRec s base a) == b

/-- Models of a season related by COPY_OF in either direction. -/
def related (s : State) (base a b : Nat) : Bool := a == b || (modelCopies s base a b || modelCopies s base b a)

/-- Whether a slot header admits a request (R206). -/
def slotMatches (s : State) (base h : Nat) (r : Request) : Bool :=
  bit1 h 40 && (bits h 0 32 == dsSeason r.desc && related s base (bits h 32 8) (dsModel r.desc))

/-- The slot header after a chunk (R205, R206). -/
def slotHeader (s : State) (r : Request) : Nat :=
  let old := bits (hbmNat s (streamSlot s r) 64) 64 64
  dsSeason r.desc + dsModel r.desc * 2 ^ 32 + b2n (!streamEnds r) * 2 ^ 40
    + (if streamStarts r then 1 else (old + 1) % 2 ^ 64) * 2 ^ 64 + s.devtime % 2 ^ 64 * 2 ^ 128

/-- Bytes of a part that lie within the state. -/
def partBytes (s : State) (base m p : Nat) : Nat :=
  min (64 * partUnits p) (mdStateBytes (modelRec s base m) - 64 * partOff p)

/-- Write a chunk's state and its slot header. -/
def writeStream (base m k : Nat) (r : Request) (s : State) : State :=
  let h := slotHeader s r
  let s := if streamEnds r then s else (partTiles s m k).foldl (fun s t =>
    let p := statePart s m t k
    hbmStore (streamSlot s r + 64 + 64 * partOff p)
      (memRead (tile s t) memAm (64 * partBase p) (partBytes s base m p)) s) s
  hbmStore (streamSlot s r) (toBytes 64 h) s

/-! ### Input and output (R39, R200, R208) -/

/-- The bytes of a chunk's input from a place of the chunk on: beyond IN_LEN they are zero (R208). -/
def inputLeft (s : State) (r : Request) (m off n : Nat) : Nat :=
  min (min n (mdChunkBytes (modelRec s (slotBase s ((activeSlot s).getD 0)) m) - off))
    (dsInLen r.desc - (r.next * mdChunkBytes (modelRec s (slotBase s ((activeSlot s).getD 0)) m) + off))

/-- Where a chunk's input begins. -/
def inputAddr (s : State) (r : Request) (m : Nat) : Nat :=
  dsInAddr r.desc + r.next * mdChunkBytes (modelRec s (slotBase s ((activeSlot s).getD 0)) m)

/-- The part of a chunk's input that a tile takes at a place of a batch. -/
def inputPart (s : State) (m t k : Nat) : Nat := (Config.inputPart (activeImage s) m t k).toNat

/-- Load a tile's part of a chunk's input into its AM, padded with zeros; whether HBM has delivered it. -/
def loadPart (r : Request) (m k t : Nat) (s : State) : Bool × State :=
  let p := inputPart s m t k
  let n := 64 * partUnits p
  let got := inputLeft s r m (64 * partOff p) n
  if n = 0 then (true, s)
  else
    let a := inputAddr s r m + 64 * partOff p
    let h := hbmTouch a got s
    let bs := hbmRead h.2 a got ++ List.replicate (n - got) 0
    (!h.1 || got == 0, updTile t (writeUnits memAm (partBase p) bs) h.2)

/-- Load a chunk's input into the AM of every tile that takes a part of it (step 6 of R39). -/
def loadInput (r : Request) (m k : Nat) (s : State) : Bool × State :=
  (List.range (tileCount s)).foldl (fun a t =>
    let b := loadPart r m k t a.2
    (a.1 && b.1, b.2)) (true, s)

/-- Load the inputs of a batch, chunk by chunk; those whose input cannot be read fail (R210). -/
def loadInputs (b : Batch) (s : State) : State :=
  b.reqs.zipIdx.foldl (fun s e =>
    if s.req.inputs.contains e then s
    else match findReq s e.1 with
      | none => s
      | some r =>
        let a := loadInput r b.model e.2 s
        if a.1 then { a.2 with req := { a.2.req with inputs := e :: a.2.req.inputs } } else batchDrop [e.1] (chunkFail e.1 csMemoryUe (inputAddr s r b.model % 2 ^ 64) a.2)) s

/-- Load the inputs of the batch that would be chosen next, and note those that have been read without an error (R200). -/
def prefetchInputs (m : Nat) (ids : List Nat) (s : State) : State :=
  ids.zipIdx.foldl (fun s e =>
    if s.req.inputs.contains e then s
    else match findReq s e.1 with
      | none => s
      | some r =>
        let a := loadInput r m e.2 s
        if a.1 then { a.2 with req := { a.2.req with inputs := e :: a.2.req.inputs } } else a.2) s

/-- The part of a chunk's output that a tile holds at a place of a batch. -/
def outputPart (s : State) (m t k : Nat) : Nat := (Config.outputPart (activeImage s) m t k).toNat

/-- Write a tile's part of a chunk's output to the request's output buffer (step 8 of R39, R208): what the tile cannot read
records its check, and a write that its sender refuses fails the chunk (R210, R263). -/
def writePart (r : Request) (m k t : Nat) (s : State) : State :=
  let p := outputPart s m t k
  let n := min (64 * partUnits p) (r.outBytes - 64 * partOff p)
  let a := dsOutAddr r.desc + r.next * r.outBytes + 64 * partOff p
  if n = 0 then s
  else
    let x := readRange t memAm (partBase p) (partUnits p) s
    if !x.1 then x.2
    else if rangeFailed s a n then batchDrop [r.id] (chunkFail r.id csTransferFailed t x.2)
    else hbmStore a (memRead (tile x.2 t) memAm (64 * partBase p) n) x.2

/-- Write the outputs of the chunks of a batch that have not failed. -/
def writeOutputs (b : Batch) (s : State) : State :=
  b.reqs.zipIdx.foldl (fun s e => (List.range (tileCount s)).foldl (fun s t =>
    match s.req.batch, findReq s e.1 with
    | some c, some r => if batchLive c e.1 then writePart r b.model e.2 t s else s
    | _, _ => s) s) s

/-! ### The end of a batch (R134, R206, R343) -/

/-- Layers of the running batch's model. -/
def batchLayers (s : State) (b : Batch) : Nat := mdLayers (modelRec s (slotBase s b.slot) b.model)

/-- Some engine still carries out or holds a descriptor that writes to HBM. -/
def writesPending (s : State) : Bool :=
  s.tiles.any fun e => e.2.engines.any fun g =>
    (g.2.queue.any fun j => bits j.desc 4 4 == 1) || (match g.2.run with
      | some r => bits r.job.desc 4 4 == 1
      | none => false)

/-- Whether the layers of a batch are complete, its steps compared, and its output written. -/
def batchRan (s : State) (b : Batch) : Bool :=
  !b.layerRunning && (decide (batchLayers s b ≤ b.layer) && (s.integ.selected.isEmpty && !writesPending s))

/-- Whether the state of a chunk has been stored on every tile that holds a part of it. -/
def chunkStored (s : State) (b : Batch) (k : Nat) (r : Request) : Bool :=
  !r.stateful || (streamEnds r || (partTiles s b.model k).all fun t => b.stored.contains (r.id, t))

/-- The chunks of a batch that have not failed, each with its place. -/
def liveChunks (s : State) (b : Batch) : List (Request × Nat) :=
  b.reqs.zipIdx.filterMap fun e => if batchLive b e.1 then (findReq s e.1).map fun r => (r, e.2) else none

/-- A chunk ends: its state and slot header are written; one whose slot cannot be written fails (R206, R210, R263). -/
def finishChunk (b : Batch) (s : State) (e : Request × Nat) : State :=
  if e.1.stateful then
    if rangeFailed s (streamSlot s e.1) (64 + mdStateBytes (requestModel s e.1)) then
      chunkFail e.1.id csTransferFailed 0 s
    else chunkDone e.1.id (writeStream (slotBase s b.slot) b.model e.2 e.1 s)
  else chunkDone e.1.id s

/-- Complete the chunks of a batch whose layers are done, once their state is stored (R206, R211). -/
def finishBatch (s : State) : State :=
  match s.req.batch with
  | none => s
  | some b =>
    let l := liveChunks s b
    if !batchRan s b || !(l.all fun e => chunkStored s b e.2 e.1) then s
    else
      let s := { s with req := { s.req with batch := none
                                            loaded := s.req.loaded.filter fun l => !b.reqs.contains l.1
                                            inputs := s.req.inputs.filter fun l => !b.reqs.contains l.1 } }
      l.foldl (finishChunk b) s

end Sys2Proof.Machine
end

