-- ==== Sys2Proof/Machine/TileCtl.lean ====
section
/-! DEFINITION. Tile control: TIL_CTRL and the states it moves a tile through, the counters it clears, faults cleared, and
tile reset (R113–R120, R145, R154, R181, R182, R230). -/

namespace Sys2Proof.Machine

open Sys2Proof

/-- Perform a write of fields that only device firmware writes; a register whose domain is off takes no write (R18, R117). -/
def asFirmware (m : Master) (off width : Nat) (f : State → State) (s : State) : State :=
  if regOff s off then s else if m = .fw then f s else denied m off width s

/-- A tile holds a fault. -/
def faultHeld (s : State) (t : Nat) : Bool :=
  get s (tilFault t) TilFault.valid == 1 || get s (tilDfFault t) TilDfFault.valid == 1

/-- A write of RUN_EN := 1: from IDLE into RUN, once its microcode is the field controllers'; from HALT into RUN with
HALT_REQ = 0 and no fault held (R113, R122). -/
def startRun (t : Nat) (s : State) : State :=
  if tileSt s t = tsIdle ∧ microcodeOk s t then setTileSt t tsRun s
  else if tileSt s t = tsHalt ∧ microcodeOk s t ∧ get s (tilCtrl t) TilCtrl.haltReq = 0 ∧ !faultHeld s t then
    setTileSt t tsRun s
  else s

/-- A write of TEST_WIN := 1: from IDLE into TEST, from RUN into DRAIN (R113). -/
def startTest (t : Nat) (s : State) : State :=
  if tileSt s t = tsIdle ∧ microcodeOk s t then setTileSt t tsTest s
  else if tileSt s t = tsRun then setTileSt t tsDrain s
  else s

/-- A write of TEST_WIN := 0: from TEST into HALT, RUN or IDLE (R113, R115). -/
def endTest (t : Nat) (s : State) : State :=
  if tileSt s t = tsTest then
    setTileSt t (if get s (tilCtrl t) TilCtrl.haltReq = 1 then tsHalt
      else if get s (tilCtrl t) TilCtrl.runEn = 1 then tsRun else tsIdle) s
  else s

/-- Write RUN_EN. -/
def writeRunEn (t : Nat) (v : Bool) (s : State) : State :=
  let s := upd (tilCtrl t) TilCtrl.runEn (b2n v) s
  if v then startRun t s else s

/-- Write HALT_REQ. -/
def writeHaltReq (t : Nat) (v : Bool) (s : State) : State :=
  if v then haltReq t s else upd (tilCtrl t) TilCtrl.haltReq 0 s

/-- Write TEST_WIN. -/
def writeTestWin (t : Nat) (v : Bool) (s : State) : State :=
  let s := upd (tilCtrl t) TilCtrl.testWin (b2n v) s
  if v then startTest t s else endTest t s

/-- Write CNT_FREEZE. -/
def writeFreeze (t : Nat) (v : Bool) (s : State) : State := upd (tilCtrl t) TilCtrl.cntFreeze (b2n v) s

/-- Whether an offset within a tile's page is one of the tile counters, TIL_WIN_STAT, LAT_PACE_CNT or the stall page. -/
def countOff (o : Nat) : Bool :=
  (decide (0x38 ≤ o) && decide (o < 0x80)) || ((decide (0xA0 ≤ o) && decide (o < 0x100)) || decide (0x2000 ≤ o))

/-- CNT_CLEAR: the tile counters, the stall page, TIL_WIN_STAT, the counters of LAT_STAT, LAT_PACE_CNT and ABANDONED
become zero (R120, R154, R181, R182, R230). -/
def clearCounters (t : Nat) (s : State) : State :=
  let b := 0x1000000 + 0x8000 * t
  let s := { s with regs := tdrop (fun off => decide (b ≤ off) && (decide (off < b + 0x8000) && countOff (off - b))) s.regs }
  let s := (List.range 4).foldl (fun s e => upd (tilDmaStat t e) TilDmaStat.abandoned 0 s) s
  put (latStat t) (setF 0 LatStat.tunnels (get s (latStat t) LatStat.tunnels)) s

/-- A write of the whole of TIL_CTRL: HALT_REQ is cleared first and set last of the fields that move the tile, so that
RUN_EN := 1 with HALT_REQ = 0 leaves HALT (R113). -/
def tilCtrlWrite (t v : Nat) (s : State) : State :=
  let s := if bit1 v 1 then s else writeHaltReq t false s
  let s := writeFreeze t (bit1 v 3) (writeTestWin t (bit1 v 2) (writeRunEn t (bit1 v 0) s))
  let s := if bit1 v 1 then writeHaltReq t true s else s
  if bit1 v 4 then clearCounters t s else s

/-- TIL_RUN_EN (R113). -/
def execTilRunEn (m : Master) (t : TileId) (v : Bool) (s : State) : Host.Outcome State Fault Refusal :=
  .next (powered (asFirmware m (tilCtrl t) 32 (writeRunEn t v)) s)

/-- TIL_HALT_REQ (R113, R115). -/
def execTilHaltReq (m : Master) (t : TileId) (v : Bool) (s : State) : Host.Outcome State Fault Refusal :=
  .next (powered (asFirmware m (tilCtrl t) 32 (writeHaltReq t v)) s)

/-- TIL_TEST_WIN (R113, R115). -/
def execTilTestWin (m : Master) (t : TileId) (v : Bool) (s : State) : Host.Outcome State Fault Refusal :=
  .next (powered (asFirmware m (tilCtrl t) 32 (writeTestWin t v)) s)

/-- TIL_CNT_FREEZE (R120). -/
def execTilCntFreeze (m : Master) (t : TileId) (v : Bool) (s : State) : Host.Outcome State Fault Refusal :=
  .next (powered (asFirmware m (tilCtrl t) 32 (writeFreeze t v)) s)

/-- TIL_CNT_CLEAR (R117). -/
def execTilCntClear (m : Master) (t : TileId) (s : State) : Host.Outcome State Fault Refusal :=
  .next (powered (asFirmware m (tilCtrl t) 32 (clearCounters t)) s)

/-- TILE_DRAIN_DONE: the running passes and the kernel of a draining tile are complete; a pass whose front has not started
runs no more than one that is queued (R113, R115). -/
def execTileDrainDone (t : TileId) (s : State) : Host.Outcome State Fault Refusal :=
  .next (powered (fun s =>
    let x := tile s t
    if tileSt s t = tsDrain ∧ !(x.passes.any fun r => r.phase == .running) ∧ x.kernel.isNone then
      setTileSt t (if get s (tilCtrl t) TilCtrl.testWin = 1 then tsTest else tsHalt) s
    else s) s)

/-- TIL_FAULT_CLEAR: a 1 written to VALID clears the whole register (R119). -/
def execTilFaultClear (m : Master) (t : TileId) (s : State) : Host.Outcome State Fault Refusal :=
  .next (powered (asFirmware m (tilFault t) 32 (put (tilFault t) 0)) s)

/-- TIL_DF_FAULT_CLEAR (R145). -/
def execTilDfFaultClear (m : Master) (t : TileId) (s : State) : Host.Outcome State Fault Refusal :=
  .next (powered (asFirmware m (tilDfFault t) 64 (put (tilDfFault t) 0)) s)

/-- Whether a tile of the open window has still to run KAT_RUN. -/
def awaitsRun (s : State) (t : Nat) : Bool :=
  s.integ.window.contains t && !(s.integ.runs.any (fun r => r.1 == t) || s.integ.voided.contains t)

/-- TILE_RESET (R116); a tile that an open window has still to test enters TEST. -/
def execTileReset (t : TileId) (s : State) : Host.Outcome State Fault Refusal :=
  .next (powered (fun s =>
    if tileOff s t then s
    else
      let s := tileReset t s
      if awaitsRun s t then writeTestWin t true s else s) s)

end Sys2Proof.Machine
end

