-- ==== Sys2Proof/Machine/IntegCmd.lean ====
section
/-! DEFINITION. Test windows and known-answer runs, digests and their comparison, weight digests, and the tile scrubber
(R330, R335–R349). -/

namespace Sys2Proof.Machine

open Sys2Proof

/-! ### Test windows (R337) -/

/-- Tiles that are powered and have reached a number of steps. -/
def tilesSince (n : Option Nat) (s : State) : List Nat :=
  match n with
  | none => []
  | some n => (List.range (tileCount s)).filter fun t => !tileOff s t && decide (n ≤ get s (tilIntStat t) TilIntStat.sinceKat)

/-- Tiles that are due, and tiles that are overdue, under the mode in force. -/
def dueTiles (s : State) : List Nat := tilesSince (modeDue (intMode s)) s
def overdueTiles (s : State) : List Nat := tilesSince (modeOverdue (intMode s)) s

/-- Open a test window for tiles: the next layer is held and TEST_WIN is set on each of them. -/
def openTestWindow (ts : List Nat) (s : State) : State :=
  if ts.isEmpty then s
  else
    let s := { s with req := { s.req with testOpen := true } }
    let s := itg (fun g => { g with window := ts, windowAt := s.devtime, runs := [], voided := [] }) s
    ts.foldl (fun s t => writeTestWin t true s) s

/-- KAT_RUN: the run on a tile in TEST ends, with every signature equal or with one that differs (R335). A pass in a window
is recorded when the window closes. -/
def execKatRun (t : TileId) (differs : Bool) (s : State) : Host.Outcome State Fault Refusal :=
  .next (powered (fun s =>
    if tileSt s t ≠ tsTest ∨ s.integ.runs.any (fun r => r.1 == t.val) then s
    else
      let s := intCount IntCnt.katRuns 1 (microRetired t s)
      let inWindow := s.integ.window.contains t.val
      let s := if inWindow then itg (fun g => { g with runs := g.runs ++ [(t.val, differs)] }) s else s
      if differs then integrityFault t ckKatFail s else if inWindow then s else resetSince t s) s)

/-- Every tile of the window has finished, or another check has ended its run. -/
def windowDone (s : State) : Bool := !(s.integ.window.any (awaitsRun s))

/-- The bound of a window in ticks: 32,768 TCLK plus 2 µs. -/
def windowBound (s : State) : Nat := 32768 * get s clkStat ClkStat.div / 8 + 2 * usTicks

/-- Mark the tiles of SUSPECT pairs in TIL_INT_STAT and count them in INT_STAT (R352, R353). -/
def setSuspects (l : List (Nat × Nat × Nat)) (s : State) : State :=
  let tiles := fun (l : List (Nat × Nat × Nat)) => (l.flatMap fun p => [p.1, p.2.1]).eraseDups
  let s' := (tiles s.integ.suspects).foldl (fun s' t => upd (tilIntStat t) TilIntStat.suspect 0 s') s
  let s' := (tiles l).foldl (fun s' t => upd (tilIntStat t) TilIntStat.suspect 1 s') s'
  upd intStat IntStat.suspect (tiles l).length (itg (fun g => { g with suspects := l }) s')

/-- Whether two tiles are a SUSPECT pair. -/
def isSuspect (s : State) (t p : Nat) : Bool := s.integ.suspects.any fun x => x.1 == t && x.2.1 == p

/-- The end of an attribution: tiles that failed have been remapped; otherwise a SUSPECT pair is remapped, and another pair
becomes SUSPECT (R344). The entry names the tile, its site, its
partner, and the outcome: 0 attributed, 1 unattributed, 2 a new SUSPECT pair. -/
def endAttribution (s : State) : State :=
  match s.integ.attribution with
  | none => s
  | some (t, p, failed) =>
    let s' := itg (fun g => { g with attribution := none }) s
    let failed := failed ++ (s.integ.runs.filter (·.2)).map (·.1)
    let log := fun (outcome : Nat) (s : State) =>
      logInteg sevError kFault ckShadow t (siteOf s t + 2 ^ 16 * p + 2 ^ 32 * outcome) s
    if failed.contains t ∨ failed.contains p then log 0 s'
    else if isSuspect s t p then log 1 (checkRemap p ckShadow (checkRemap t ckShadow s'))
    else log 2 (setSuspects ((t, p, 0) :: s'.integ.suspects) s')

/-- Close the test window: TEST_WIN is cleared, tiles that passed are verified, an attribution ends, and checks that waited
for the window are recorded (R337, R344, R349). -/
def closeTestWindow (s : State) : State :=
  let ts := s.integ.window
  let passed := (s.integ.runs.filter fun r => !r.2 && !s.integ.voided.contains r.1).map (·.1)
  let late := s.integ.afterWindow
  let s := ts.foldl (fun s t => writeTestWin t false s) s
  let s := endAttribution (passed.foldl (fun s t => resetSince t s) s)
  let s := itg (fun g => { g with window := [], runs := [], voided := [], afterWindow := [] }) s
  let s := { s with req := { s.req with testOpen := false } }
  late.foldl (fun s c => integrityFault c.1 c.2 s) s

/-- TEST_WINDOW_CLOSE: every tested tile has finished, or the bound since its opening has passed (R337). -/
def execTestWindowClose (elapsedNs : Nat) (s : State) : Host.Outcome State Fault Refusal :=
  .next (powered (fun s =>
    if s.req.testOpen && (windowDone s || decide (windowBound s * 1000 ≤ elapsedNs * 940)) then closeTestWindow s else s) s)

/-! ### Digests (R343, R344) -/

/-- Whether the units of a tile's own step, or the shadow units on it, have fired their last group with their passes and
kernels complete (R328). -/
def unitsEnded (s : State) (t : Nat) (shadow : Bool) : Bool :=
  let x := tile s t
  (unitNums x).all fun u =>
    let d := unitDesc x u
    isShadow s t d != shadow ||
      (decide (x.tags ≤ (unitRun x u).fired * unGroup d) &&
        !(x.passQ.any (·.unit == u) || (x.kernQ.any (·.unit == u) || (x.passes.any (·.job.unit == u) ||
          (match x.kernel with
           | some k => k.job.unit == u
           | none => false)))))

/-- Tile whose step a digest of a tile belongs to. -/
def digestOf (s : State) (t : Nat) (shadow : Bool) : Nat := if shadow then shadowed s (batchModel s) t else t

/-- DIGEST64: at the end of a compared step the routine sends the tile's ORIGINAL, or the SHADOW it holds for another tile,
to the field controller (R343). -/
def execDigest64 (t : TileId) (shadow : Bool) (s : State) : Host.Outcome State Fault Refusal :=
  .next (powered (fun s =>
    let who := digestOf s t shadow
    let key := 2 * who + b2n shadow
    if batchRunning s && (tileWorks s t && (s.integ.selected.contains who &&
        ((tget (fun _ => none) s.integ.digests key).isNone && unitsEnded s t shadow))) then
      let v := if shadow then (tile s t).shadow else (tile s t).digest
      microRetired t (itg (fun g => { g with digests := tset (fun _ => none) key (some v) g.digests }) s)
    else s) s)

/-- Both digests of a step, when both have arrived. -/
def digestPair (s : State) (t : Nat) : Option (Nat × Nat) :=
  match tget (fun _ => none) s.integ.digests (2 * t), tget (fun _ => none) s.integ.digests (2 * t + 1) with
  | some a, some b => some (a, b)
  | _, _ => none

/-- A compared step agreed: a SUSPECT pair counts it, and is cleared at the 4,096th (R344). -/
def digestsEqual (t p : Nat) (s : State) : State :=
  if isSuspect s t p then
    let l := s.integ.suspects.map fun x => if x.1 = t ∧ x.2.1 = p then (t, p, x.2.2 + 1) else x
    setSuspects (l.filter fun x => !(x.1 == t && (x.2.1 == p && decide (4096 ≤ x.2.2)))) s
  else s

/-- A compared step differed: the batch fails and an attribution window opens for the pair, or for the other tile alone
when one of them already waits for a remap (R344, R349). -/
def digestsDiffer (t p : Nat) (s : State) : State :=
  let known := [t, p].filter (remapKnown s)
  let s := integrityFaultAs t ckShadow (siteOf s t + p * 65536) s
  let s := itg (fun g => { g with attribution := some (t, p, known) }) s
  let ts := [t, p].filter fun x => !known.contains x
  if ts.isEmpty then endAttribution s else openTestWindow ts s

/-- DIGEST_ARRIVE: the field controller compares the digests of a step when both have arrived (R343, R344). Those of a batch
that has failed are discarded (R349). -/
def execDigestArrive (t : TileId) (s : State) : Host.Outcome State Fault Refusal :=
  .next (powered (fun s =>
    let drop := itg fun g => { g with digests := tset (fun _ => none) (2 * t) none
                                        (tset (fun _ => none) (2 * t + 1) none g.digests)
                                      selected := g.selected.filter (· != t.val) }
    if !batchRunning s || !s.integ.selected.contains t.val then drop s
    else match digestPair s t with
      | none => s
      | some (a, b) =>
        let p := partner s (batchModel s) t
        let s := intCount IntCnt.compared 1 (drop s)
        if a = b then finishBatch (digestsEqual t p s) else digestsDiffer t p s) s)

/-- DIGEST_TIMEOUT: a pair is incomplete CTL_TO after the layer's sinks have all reported (R343). -/
def execDigestTimeout (t : TileId) (s : State) : Host.Outcome State Fault Refusal :=
  .next (powered (fun s =>
    match s.integ.sinksAt with
    | none => s
    | some k =>
      if batchRunning s && (s.integ.selected.contains t.val && ((digestPair s t).isNone &&
          decide (k + max 2 (get s conCtrl ConCtrl.ctlTo) * usTicks ≤ s.devtime))) then
        let s := logInteg sevError kFault ckShadow t (siteOf s t) (intCount IntCnt.digestLost 1 s)
        let s := itg (fun g => { g with selected := [], digests := [], sinksAt := none }) s
        batchFail csIntegrityFault t 0 s
      else s) s)

/-! ### Weight digests (R345) -/

/-- WM ranges of a tile: its partitions and shared ranges, as base and size in units. -/
def wmRanges (s : State) (base t : Nat) : List (Nat × Nat) :=
  ((memplan s base).filter fun r => mpTile r == t && mpMem r == 0).map fun r => (mpBase r, mpSize r)

/-- Ranges that a tile has compared in the present round. -/
def comparedOf (s : State) (t : Nat) : List Nat := tget (fun _ => []) s.integ.compared t

/-- Whether a tile has compared all its ranges. -/
def tileCompared (s : State) (base t : Nat) : Bool :=
  (List.range (wmRanges s base t).length).all (comparedOf s t).contains

/-- Logical tiles that take part in rounds: those powered. -/
def roundTiles (s : State) : List Nat := (List.range (tileCount s)).filter fun t => !tileOff s t

/-- Whether weight digests run: a mode other than OFF, an interval, an active season, and no drain. -/
def roundsRun (s : State) : Bool :=
  intMode s != 0 && (get s intCtrl IntCtrl.wdigS != 0 && ((activeSlot s).isSome && (s.req.change.isNone && !s.boot.quiesce)))

/-- Interval of a round in ticks, WDIG_S within 1–1000. -/
def roundTicks (s : State) : Nat := min 1000 (get s intCtrl IntCtrl.wdigS) * secTicks

/-- Note that a tile's ranges are all compared; when every tile's are, the round is complete. -/
def noteCompared (base t : Nat) (s : State) : State :=
  if tileCompared s base t then
    let s := itg (fun g => { g with matched := tset (fun _ => 0) t s.devtime g.matched }) s
    if (roundTiles s).all (tileCompared s base) then satAdd intStat IntStat.wdigRounds 1 s else s
  else s

/-- WDIGEST: the routine has hashed a range of a tile's WM, and the field controller compares the result with its
reference (R345). -/
def execWdigest (t : TileId) (range : Nat) (s : State) : Host.Outcome State Fault Refusal :=
  .next (powered (fun s =>
    match activeSlot s with
    | none => s
    | some i =>
      let base := slotBase s i
      match (wmRanges s base t)[range]? with
      | none => s
      | some (a, n) =>
        if !roundsRun s || (s.integ.roundAt.isNone || (tileOff s t || (comparedOf s t).contains range)) then s
        else
          let r := readRange t memWm a n (microRetired t s)
          let s := r.2
          if !r.1 then s
          else
            let s := itg (fun g => { g with compared := tset (fun _ => []) t (range :: comparedOf s t) g.compared }) s
            if sha512 (memRead (tile s t) memWm (64 * a) (64 * n)) = sha512 (wmRange s base t (a, n)) then
              noteCompared base t s
            else integrityFaultAs t ckWdigest (tget (fun _ => 0) s.integ.matched t) s) s)

/-- A tile's round has not finished within its interval. -/
def lateTile (s : State) (base t : Nat) : Bool := !tileCompared s base t && !s.integ.late.contains t

/-- Count a tile's round as late. -/
def countLate (t : Nat) (s : State) : State :=
  logInteg sevNotice kFault ckWdigest t (siteOf s t)
    (intCount IntCnt.wdigLate 1 (itg (fun g => { g with late := t :: g.late }) s))

/-- WDIGEST_ROUND_START: every WDIG_S seconds each tile starts a round; a round still unfinished is late (R345). -/
def execWdigestRoundStart (s : State) : Host.Outcome State Fault Refusal :=
  .next (powered (fun s =>
    match activeSlot s with
    | none => s
    | some i =>
      let due := match s.integ.roundAt with
        | none => true
        | some k => decide (k + roundTicks s ≤ s.devtime)
      if !roundsRun s || !due then s
      else
        let s := if s.integ.roundAt.isSome then
            ((roundTiles s).filter (lateTile s (slotBase s i))).foldl (fun s t => countLate t s) s
          else s
        itg (fun g => { g with roundAt := some s.devtime, compared := [], late := [] }) s) s)

/-- WDIG_LATE: a round of a tile has not finished within its interval (R345). -/
def execWdigLate (t : TileId) (s : State) : Host.Outcome State Fault Refusal :=
  .next (powered (fun s =>
    match activeSlot s, s.integ.roundAt with
    | some i, some k =>
      if roundsRun s && (!tileOff s t && (lateTile s (slotBase s i) t && decide (k + roundTicks s ≤ s.devtime))) then
        countLate t s
      else s
    | _, _ => s) s)

/-! ### The tile scrubber (R330) -/

/-- Codes of the memories it reads, as `errKey` numbers them; 5 is the weight buffer, which it does not read. -/
def tileMemCode : TileMem → Nat
  | .wm => 0
  | .am => 1
  | .pm => 2
  | .istore => 3
  | .operand => 4
  | .weightBuf => 5

/-- TILE_SRAM_SCRUB: one 64-bit word is read; a single-bit error is corrected, an uncorrectable word is recorded, or only
counted and logged, by its memory (R330, R349). `upset` names the words of the tile in which bits have been inverted since the
last command. -/
def execTileSramScrub (t : TileId) (mem : TileMem) (word : Nat) (upset : List WordError) (s : State) :
    Host.Outcome State Fault Refusal :=
  .next (powered (fun s =>
    let k := tileMemCode mem
    let s := if tileOff s t then s
      else upset.foldl (fun s e => updTile t (upsetWord (tileMemCode e.mem) e.word e.double) s) s
    let e := tget (fun _ => 0) (tile s t).errs (errKey k word)
    if tileOff s t ∨ 5 ≤ k ∨ 2 ^ 20 ≤ word ∨ e = 0 then s
    else if e = 1 then correctWords t k word 1 s
    else
      let s := intCount IntCnt.sramUe 1 s
      if k = 0 ∧ tileSt s t = tsTest then itg (fun g => { g with afterWindow := g.afterWindow ++ [(t.val, ckWmUe)] }) s
      else if k = 0 ∨ k = 3 then integrityFault t (memCheck k) s
      else logInteg sevNotice kFault (memCheck k) t (siteOf s t) s) s)

end Sys2Proof.Machine
end

