-- ==== Sys2Proof/Machine/LoadCheck.lean ====
section
/-! DEFINITION. The load checks that a staged season image must pass (R48, R56, R67, R91, R128, R160, R164, R177,
R184–R192, R196, R221, R244, R245). -/

namespace Sys2Proof.Machine

open Sys2Proof

/-- The outcome of a staging: a load result code, the image's SEASON_ID, and what failed. -/
structure StageResult where
  code : Nat
  season : Nat := 0
  detail : Nat := 0
  deriving DecidableEq, Repr

/-- Load result codes (R196). -/
def lrBadMagic : Nat := 0x01
def lrVersion : Nat := 0x02
def lrTooBig : Nat := 0x03
def lrDigest : Nat := 0x04
def lrFdn : Nat := 0x06
def lrSection : Nat := 0x07
def lrModel : Nat := 0x08
def lrCombination : Nat := 0x09
def lrReduction : Nat := 0x0A
def lrCodeTable : Nat := 0x0B
def lrPassDesc : Nat := 0x0C
def lrGraph : Nat := 0x0D
def lrMemplan : Nat := 0x0E
def lrWindow : Nat := 0x0F
def lrNotify : Nat := 0x10
def lrDupId : Nat := 0x11
def lrBusy : Nat := 0x12
def lrWdigest : Nat := 0x13

/-- The first element of a list for which a check fails, as its detail. -/
def firstBad {α : Type} (detail : α → Nat) (ok : α → Bool) (l : List α) : Option Nat := (l.find? fun x => !ok x).map detail

/-- The first failure of a list of results. -/
def firstSome (l : List (Option Nat)) : Option Nat := l.findSome? id

/-! ### Sections (R184–R187, R190, R192) -/

/-- Section types that have records, with the record's bytes. -/
def recordBytes (ty : Nat) : Nat :=
  if ty = tyModels then 128 else if ty = tyLayers ∨ ty = tyTiles ∨ ty = tyPolicy then 64
  else if ty = tyMemplan then 32 else if ty = tyWindir then 16 else 0

/-- The COUNT that a section must state; `none` when any is allowed. -/
def countOf (h ty : Nat) : Option Nat :=
  if ty = tyModels then some (hdrModels h) else if ty = tyLayers then some (hdrLayers h)
  else if ty = tyTiles then some (hdrTiles h) else if ty = tyPolicy then some 1
  else if ty = tyRoutes ∨ ty = tyBlobs then some 0 else none

/-- The header's fields and the place of the section table; the image holds its header. -/
def headerOk (h : Nat) : Bool :=
  bits h 96 32 != 0 && (decide (256 ≤ hdrSize h) && (decide (1 ≤ hdrModels h) && (decide (hdrModels h ≤ 256) && (hdrLayers h != 0 &&
    (hdrSectOff h % 4096 == 0 && (decide (hdrSectOff h + 32 * hdrNsect h ≤ hdrSize h) && (bits h 204 4 == 0 &&
      (bits h 218 6 == 0 && (bits h 265 7 == 0 && (bits h 384 128 == 0 && bits h 1024 1024 == 0))))))))))

/-- One entry of the section table. -/
def entryOk (h e : Nat) : Bool :=
  let ty := sectType e
  let known := decide (1 ≤ ty ∧ ty ≤ 8)
  bits e 16 16 == 0 && (bits e 192 64 == 0 && (sectOffset e % 4096 == 0 && (decide (sectOffset e + sectSize e ≤ hdrSize h) &&
    (if known then
      (match countOf h ty with
        | some n => sectCount e == n
        | none => true) && (recordBytes ty == 0 || sectSize e == sectCount e * recordBytes ty)
     else sectSkip e))))

/-- Ranges that the header, the section table and the sections take. -/
def imageRanges (s : State) (base : Nat) : List (Nat × Nat) :=
  let h := imgHeader s base
  (0, 256) :: (hdrSectOff h, 32 * hdrNsect h) :: (sections s base).map fun e => (sectOffset e, sectSize e)

/-- No two ranges of a list share an address. -/
def disjoint : List (Nat × Nat) → Bool
  | [] => true
  | a :: r => r.all (fun b => !overlaps a.1 a.2 b.1 b.2) && disjoint r

/-- A blob lies in the BLOBS section; its offset and its length are multiples of 64 (R184). -/
def inBlobs (s : State) (base off n : Nat) : Bool :=
  let e := sectionOf s base tyBlobs
  off % 64 == 0 && (n % 64 == 0 && spanHolds (sectOffset e) (sectSize e) off n)

/-- A tile record. -/
def tileRecOk (s : State) (base t : Nat) : Bool :=
  let r := tileRec s base t
  tlLogical r == t && (bits r 10 6 == 0 && (bits r 27 5 == 0 && (bits r 48 16 == 0 && (bits r 146 46 == 0 &&
    (bits r 274 46 == 0 && (bits r 480 32 == 0 && (inBlobs s base (tlIstoreOff r) (tlIstoreLen r) &&
      (inBlobs s base (tlWmOff r) (64 * tlWmUnits r) && (inBlobs s base (tlTablesOff r) 1536 &&
        inBlobs s base (tlGraphOff r) (tlGraphLen r))))))))))

/-- The policy record. -/
def policyOk (p : Nat) : Bool :=
  plWindow p != 0 && (decide (1 ≤ plMax p) && (decide (plMax p ≤ 256) && (bits p 25 7 == 0 && (bits p 128 384 == 0 &&
    (List.range 4).all fun c => plWeight p c != 0))))

/-- Reserved fields of records that are zero in every accepted image. -/
def modelReserved (m : Nat) : Bool :=
  bits m 16 16 == 0 && (bits m 71 9 == 0 && (bits m 112 16 == 0 && bits m 208 48 == 0))
def layerReserved (l : Nat) : Bool :=
  bits l 10 6 == 0 && (bits l 21 11 == 0 && (bits l 48 16 == 0 && bits l 96 416 == 0))
def memplanReserved (r : Nat) : Bool := bits r 20 12 == 0 && bits r 96 160 == 0
def windirReserved (r : Nat) : Bool := bits r 30 2 == 0 && bits r 50 78 == 0

/-- Index in the section table of the section of a type; 0 when the image has none. -/
def sectIndex (s : State) (base ty : Nat) : Nat :=
  ((findIdxFrom (fun e => sectType e == ty) 0 (sections s base)).map (·.1)).getD 0

/-- The first section that overlaps another, the header or the table, by its index. -/
def overlapping (s : State) (base : Nat) : Option Nat :=
  let l := imageRanges s base
  if disjoint l then none
  else some (((List.range (l.length - 2)).find? fun i => !disjoint (l.take (i + 3))).getD 0)

/-- Tables of a tile record: the reserved bits of the task entries, window descriptors and used notify entries are zero (R158,
R163, R191, R196). -/
def tablesReserved (s : State) (base t : Nat) : Bool :=
  (List.range 64).all (fun k =>
    let e := tabTask s base t k
    bits e 1 7 == 0 && (bits e 51 13 == 0 && (bits e 125 3 == 0))) &&
  (List.range 16).all (fun w => bits (tabWindow s base t w) 12 4 == 0 && (bits (tabWindow s base t w) 55 9 == 0 &&
    bits (tabWindow s base t w) 124 4 == 0)) &&
  (notifyOf s base t).all fun n => bits n 29 3 == 0

/-- The sections by themselves (SECTION of R196 but for the route image); the detail is the section's index, the layer or the
tile (R194). -/
def sectionBad (s : State) (base : Nat) : Option Nat :=
  let h := imgHeader s base
  let es := sections s base
  let at_ := fun (ty : Nat) (ok : Bool) => if ok then none else some (sectIndex s base ty)
  if !headerOk h then some 0
  else firstSome [
    firstBad (fun e => e.2) (fun e => entryOk h e.1) (es.zip (List.range es.length)),
    overlapping s base,
    firstBad (sectIndex s base) (fun ty => (es.filter fun e => sectType e == ty).length == 1) ((List.range 8).map (· + 1)),
    at_ tyPolicy (policyOk (policyRec s base)),
    at_ tyModels ((List.range (hdrModels h)).all fun i => modelReserved (modelRec s base i)),
    firstBad id (fun i => layerReserved (layerRec s base i)) (List.range (hdrLayers h)),
    at_ tyMemplan ((memplan s base).all memplanReserved),
    at_ tyWindir ((windir s base).all windirReserved),
    firstBad id (fun t => tileRecOk s base t && tablesReserved s base t) (List.range (hdrTiles h))]

/-! ### The route image (R218, R219, R221, R241, R244, R245) -/

/-- A lane map record: SEL values assigned, and none that turns a lane back. -/
def laneRecOk (r : Nat) : Bool :=
  decide (bits r 0 10 < 960) && (bits r 10 6 == 0 && (bits r 160 96 == 0 && (List.range 16).all fun i =>
    let v := laneSel r (i / 4) (i % 4)
    decide (v ≤ 0x11) && !(decide (1 ≤ v ∧ v ≤ 16) && (v - 1) / 4 == i / 4)))

/-- A channel entry by itself. -/
def chanRecOk (s : State) (base e : Nat) : Bool :=
  let h := imgHeader s base
  let task := tabTask s base (chTile e) (chTask e)
  let ring := chRsize e
  bits e 13 3 == 0 && (bits e 22 2 == 0 && (bits e 112 16 == 0 && (chMode e != 3 && (decide (chTile e < hdrTiles h) &&
    (decide (chPeerTile e < hdrTiles h) && ([0x1, 0x2, 0x4, 0x8, 0x3, 0xC, 0xF].contains (chLanes e) &&
      ((!chNarrow e || chMode e == 1) && ((if chMode e = 1 then chMsgu e != 0 else chMsgu e == 0) &&
        (ring == 0 || (admits task (if chMode e = 1 then memAm else memPm) (chRbase e) ring &&
          (chMode e != 1 || ring % max 1 (chMsgu e) == 0)))))))))))

/-- Record of a site in a list of lane maps. -/
def laneIn (l : List Nat) (n : Nat) : Nat := (l.find? fun r => bits r 0 10 == n).getD 0

/-- Paths of a send entry's lanes, on the sites that the image assumes, each to its lane of the receive entry. -/
def channelPaths (site : Nat → Nat) (lanes chans : List Nat) (e : Nat) : List (Option (List (Nat × Nat × Nat))) :=
  let peer := peerEntry chans e
  ((lanesOf e).zip (lanesOf peer)).map fun ln =>
    if laneSel (laneIn lanes (site (chTile e))) (chPort e) ln.1 = 0x11 then
      lanePath (laneIn lanes) (site (chPeerTile e)) (chPort peer) ln.2 960 (site (chTile e)) (chPort e) ln.1
    else none

/-- The links and lanes that a send entry's channel uses. -/
def channelLanes (site : Nat → Nat) (lanes chans : List Nat) (e : Nat) : List (Nat × Nat × Nat) :=
  (channelPaths site lanes chans e).flatMap fun p => p.getD []

/-- The tile of the first send entry that uses a lane of a link which one before it uses, or uses one twice. -/
def sharedLane (paths : Nat → List (Nat × Nat × Nat)) : List (Nat × Nat × Nat) → List Nat → Option Nat
  | _, [] => none
  | used, e :: r =>
    let p := paths e
    if p.eraseDups.length == p.length && !(p.any used.contains) then sharedLane paths (used ++ p) r else some (chTile e)

/-- Receive entries that name a send entry as their peer, with the same form. -/
def matesOf (chans : List Nat) (e : Nat) : List Nat :=
  chans.filter fun x => chReceive x && (chPeerTile x == chTile e && (chPeerCh x == chNum e && (chTile x == chPeerTile e &&
    (chNum x == chPeerCh e && (chMode x == chMode e && (chWidth x == chWidth e && (chNarrow x == chNarrow e &&
      chBf16 x == chBf16 e)))))))

/-- Edges of all graphs of a tile that a channel carries. -/
def edgesOn (s : State) (base e : Nat) : List Nat :=
  (tileGraphs s base (chTile e)).flatMap fun g => ((graphAt s base g.2).edges.filter fun d => edPath d == 1 && edCh d == chNum e)

/-- Whether RQ is a queue of the tile in some layer. -/
def rqOk (s : State) (base e : Nat) : Bool :=
  !chReceive e || (chMode e == 2 || (tileGraphs s base (chTile e)).any fun g =>
    decide (chRq e < (graphAt s base g.2).queues.length))

/-- Outputs that the union of the banks may give a packet at a router for a destination router (R242, R243). -/
def unionRoutes (s : State) (h base g d : Nat) : List Nat :=
  let e := hbmNat s (routeBase s base + rhCtabOff h + 512 * g + 2 * d) 2
  route0 s g d :: (if bit1 e 15 then bits e 0 5 :: (if bit1 e 10 then [bits e 5 5] else []) else [])

/-- Channels, as router and output, that may wait for one another: those that a packet for a router takes next. -/
def routeNext (s : State) (h base : Nat) (c : Nat × Nat) : List (Nat × Nat) :=
  match portPeer c.1 c.2 with
  | none => []
  | some (g, _) =>
    ((List.range 240).filter fun d => (unionRoutes s h base c.1 d).contains c.2).flatMap fun d =>
      if d = g then [] else (unionRoutes s h base g d).map fun o => (g, o)

/-- Remove channels that wait for none that remains, `n` times. -/
def pruneRoutes (next : Nat × Nat → List (Nat × Nat)) : Nat → List (Nat × Nat) → List (Nat × Nat)
  | 0, l => l
  | n + 1, l => pruneRoutes next n (l.filter fun c => (next c).any l.contains)

/-- All channels between routers. -/
def allRoutes : List (Nat × Nat) :=
  (List.range 240).flatMap fun g => (List.range 9).map fun i => (g, 4 + i)

/-- Numbers of a list rise strictly. -/
def rising : List Nat → Bool
  | a :: b :: r => decide (a < b) && rising (b :: r)
  | _ => true

/-- The first element of a list that is not above the one before it. -/
def firstFall : List Nat → Option Nat
  | a :: b :: r => if a < b then firstFall (b :: r) else some b
  | _ => none

/-- The subsections of a route image follow in the order of R244, each a multiple of 64 from the start and within the section. -/
def routeParts (h n sz : Nat) : Bool :=
  let ctab := if rhCtab h then [(rhCtabOff h, 240 * 512)] else []
  let l := (rhLmapOff h, 2 * n) :: (ctab ++ [(rhLaneOff h, 32 * rhLanes h), (rhChanOff h, 16 * rhChans h),
    (rhRemoteOff h, 16 * rhRemotes h), (rhBarOff h, 8 * rhBars h)])
  l.all (fun p => p.1 % 64 == 0 && (decide (128 ≤ p.1) && decide (p.1 + p.2 ≤ sz))) &&
    ((l.zip (l.drop 1)).all fun p => decide (p.1.1 + p.1.2 ≤ p.2.1)) && (rhCtab h || rhCtabOff h == 0)

/-- The route image breaks R218, R219, R221, R241, R244 or R245; the detail is the router, site or tile. -/
def routesBad (s : State) (base : Nat) : Option Nat :=
  let h := routeHeader s base
  let n := hdrTiles (imgHeader s base)
  let sz := sectSize (sectionOf s base tyRoutes)
  let at_ := fun (off w i : Nat) => hbmNat s (routeBase s base + off + w * i) w
  let lanes := routeLanes s base
  let chans := routeChans s base
  let site := fun (t : Nat) => 80 * tileField s t + bits (at_ (rhLmapOff h) 2 t) 0 7
  let sends := chans.filter fun e => !chReceive e
  if bits h 0 32 ≠ 1 ∨ bits h 33 31 ≠ 0 ∨ bits h 192 64 ≠ 0 ∨ bits h 640 384 ≠ 0 ∨ 64 < rhRemotes h ∨ 64 < rhBars h ∨
      !routeParts h n sz then some 0
  else firstSome [
    firstFall (lanes.map fun r => bits r 0 10),
    (firstFall (chans.map fun e => 256 * chTile e + chNum e)).map (· / 256),
    firstBad id (fun t => decide (at_ (rhLmapOff h) 2 t ≤ 79)) (List.range n),
    firstBad (fun r => bits r 0 10) laneRecOk lanes,
    firstBad chTile (chanRecOk s base) chans,
    firstBad chTile (fun e => (matesOf chans e).length == 1) sends,
    firstBad chTile (fun e => !chReceive e || (sends.any fun x => (matesOf chans x).contains e)) chans,
    firstBad chTile (fun e => (channelPaths site lanes chans e).all Option.isSome) sends,
    sharedLane (channelLanes site lanes chans) [] sends,
    firstBad chTile (rqOk s base) chans,
    firstBad chTile (fun e => chMode e != 0 || decide ((edgesOn s base e).length ≤ 1)) sends,
    firstBad id (fun i =>
      let e := at_ (rhRemoteOff h) 16 i
      !bit1 e 63 || (decide (bits e 0 16 ≤ bits e 16 16) && (decide (1 ≤ bits e 32 3 ∧ bits e 32 3 ≤ 4) &&
        (List.range (bits e 32 3)).all fun k => decide (bits e (35 + 7 * k) 7 < 96)))) (List.range (rhRemotes h)),
    firstBad id (fun i =>
      let e := at_ (rhBarOff h) 8 i
      bits e 32 32 == 0 && (!bit1 e 31 || decide (1 ≤ bits e 0 11 ∧ bits e 0 11 ≤ 1024))) (List.range (rhBars h)),
    if rhCtab h then ((pruneRoutes (routeNext s h base) 2160 allRoutes).head?).map (·.1) else none]

/-! ### Models and layers (R188, R189) -/

/-- A model record's ranges; its layers are its own and in place. -/
def modelOk (s : State) (base i : Nat) : Bool :=
  let h := imgHeader s base
  let m := modelRec s base i
  let n := mdLayers m
  bits m 0 8 == i % 256 && ((mdCopyOf m == 0xFF || (decide (mdCopyOf m < hdrModels h) && mdCopyOf m != i)) &&
    (mdChunkBytes m != 0 && (mdChunkBytes m % 64 == 0 && (decide (1 ≤ mdMaxChunks m ∧ mdMaxChunks m ≤ 64) &&
      (mdOutBytes m != 0 && (mdOutBytes m % 64 == 0 && (mdStateBytes m % 64 == 0 &&
        (decide (mdStateBytes m ≤ 0x400000 - 64) && (n != 0 && (decide (mdFirstLayer m + n ≤ hdrLayers h) &&
          (decide (bits m 192 16 ≤ 2000) && ((List.range n).all (fun k =>
            lyModel (layerRec s base (mdFirstLayer m + k)) == i % 256) &&
            lySwitchPt (layerRec s base (mdFirstLayer m + n - 1))))))))))))))

/-- A layer record's ranges; it belongs to the model it names. -/
def layerOk (s : State) (base l : Nat) : Bool :=
  let r := layerRec s base l
  let m := modelRec s base (lyModel r)
  decide (lyModel r < hdrModels (imgHeader s base)) && (decide (mdFirstLayer m ≤ l ∧ l < mdFirstLayer m + mdLayers m) &&
    ((lyHorizon r == 0 || decide (12 ≤ lyHorizon r ∧ lyHorizon r ≤ 24)) && decide (1 ≤ lyIters r ∧ lyIters r ≤ 4096)))

/-- MODEL of R196; the detail is the model's first layer, or the layer. -/
def modelBad (s : State) (base : Nat) : Option Nat :=
  let h := imgHeader s base
  firstSome [
    firstBad (fun i => mdFirstLayer (modelRec s base i)) (modelOk s base) (List.range (hdrModels h)),
    firstBad id (layerOk s base) (List.range (hdrLayers h))]

/-! ### Passes (R48, R56, R67, R91) -/

/-- A pass descriptor of a tile's instruction-store image. -/
def imgPass (s : State) (base t target : Nat) : Nat := imgNat s base (tlIstoreOff (tileRec s base t) + 32 * target) 32

/-- Pass units of a season, as layer, tile and descriptor. -/
def allPasses (s : State) (base : Nat) : List (Nat × Nat × Nat) :=
  (List.range (hdrTiles (imgHeader s base))).flatMap fun t => (tileGraphs s base t).flatMap fun g =>
    ((graphAt s base g.2).units.filter fun u => unKind u == ukPass).map fun u => (g.1, t, imgPass s base t (unTarget u))

/-- The image's digest, by which constants that the spec leaves to the compiler are keyed. -/
def imgKey (s : State) (base : Nat) : Nat := bits (imgHeader s base) 512 512

/-- Layers that hold a coded pass; coding never applies to 16-bit floats (R65, R67). -/
def codedLayers (s : State) (base : Nat) : List Nat :=
  ((allPasses s base).filter fun p => isCoded p.2.2).map (·.1) |>.eraseDups

/-- A bound on the products of any output's reduction in a layer: those that all its passes form per output, over the
iterations of the largest batch (R56, R189). -/
def layerProducts (s : State) (base l : Nat) : Nat :=
  (((allPasses s base).filter fun p => p.1 == l).map fun p => if isPair p.2.2 then 128 else 64).foldl (· + ·) 0 *
    (lyIters (layerRec s base l) * 256)

/-- Whether no output of a layer has a reduction of more than 2^31 products (R56). -/
def reductionOk (s : State) (base l : Nat) : Bool :=
  decide (layerProducts s base l ≤ 2 ^ 31) || !Config.longReduction (imgKey s base) l

/-- The channel entry that a tile's pass sends on; zero when the image has none. -/
def passChannel (s : State) (base t ch : Nat) : Nat :=
  ((routeChans s base).find? fun e => chTile e == t && chNum e == ch).getD 0

/-- A pass's lattice channels: it sends on a send entry with a ring, in LA96 mode or in landing mode as its OFMT says, the
message of an array being NVEC × g_out units; it takes partials from a receive entry in LA96 mode (R224). -/
def passLattice (s : State) (base t p : Nat) : Bool :=
  let o := passChannel s base t (pdOutCh p)
  let a := passChannel s base t (pdAccCh p)
  (pdOutDst p != 2 || (chValid o && (!chReceive o &&
    (if pdOfmt p = 0xE then chMode o == 2 else chMode o == 1 && chMsgu o == pdNvec p * gOut (pdOfmt p))))) &&
    (pdAccSrc p != 2 || (chValid a && (chReceive a && chMode a == 2)))

/-! ### Graphs (R110, R125–R128, R191) -/

/-- Ports that a unit kind takes: the least and most inputs and outputs (R125). -/
def kindPorts (k : Nat) : Nat × Nat × Nat × Nat :=
  if k = ukSource then (0, 0, 1, 4) else if k = ukSink then (1, 4, 0, 0) else if k = ukPass ∨ k = ukKernel then (1, 4, 0, 4)
  else if k = ukFork then (1, 1, 2, 4) else if k = ukSelect then (2, 2, 2, 4) else (2, 4, 1, 1)

/-- A unit descriptor by itself, in a graph of a tile. -/
def unitOk (s : State) (base t : Nat) (g : LayerGraph) (u : Nat) : Bool :=
  let k := unKind u
  let p := kindPorts k
  let r := tileRec s base t
  let steers := k == ukSelect || k == ukMerge
  decide (k ≤ 6) && (decide (bits u 5 3 ≤ 6) && (decide (p.1 ≤ unNin u ∧ unNin u ≤ p.2.1) &&
    (decide (p.2.2.1 ≤ unNout u ∧ unNout u ≤ p.2.2.2) && ((k != ukSink || unOrdered u) && (bits u 29 3 == 0 &&
      (bits u 102 26 == 0 && ((if steers then decide (unCtl u < unNin u) && (unGroup u == 1 &&
          quRate (g.queues.getD (unInq u (unCtl u)) 0) == 1) else unCtl u == 0) &&
        ((inQueues u).all (fun q => decide (q < g.queues.length) &&
            decide (unGroup u * quRate (g.queues.getD q 0) ≤ quDepth (g.queues.getD q 0))) &&
          ((outEdges u).all (fun e => decide (e < g.edges.length)) &&
            (if k = ukPass then decide (32 * unTarget u + 32 ≤ tlIstoreLen r)
             else if k = ukKernel then decide (unTarget u < 1024 ∧ 8 * unTarget u + 8 ≤ tlIstoreLen r)
             else unTarget u == 0))))))))))

/-- Edges into a queue of a tile, from every tile of the layer. -/
def feedersOf (s : State) (base l t q : Nat) : List Nat :=
  (List.range (hdrTiles (imgHeader s base))).flatMap fun t' =>
    (layerGraph s base t' l).edges.filter fun e => edTile e == t && edDq e == q

/-- Notify entries of a tile for a queue of a layer. -/
def notesFor (s : State) (base l t q : Nat) : List Nat :=
  (notifyOf s base t).filter fun n => bits n 0 16 == l && bits n 16 8 == q

/-- A queue descriptor, with its one feeding edge or notification source (R128, R177). -/
def queueOk (s : State) (base l t q d : Nat) : Bool :=
  decide (1 ≤ quDepth d ∧ quDepth d ≤ 256) && (bits d 15 1 == 0 && (bits d 28 36 == 0 &&
    (feedersOf s base l t q).length + (notesFor s base l t q).length == 1))

/-- An edge descriptor: its destination exists and has its rate. -/
def edgeOk (s : State) (base l t e : Nat) : Bool :=
  edPath e != 3 && (bits e 34 30 == 0 && (decide (edTile e < hdrTiles (imgHeader s base)) && ((edPath e != 0 || edTile e == t) &&
    (match (layerGraph s base (edTile e) l).queues[edDq e]? with
     | some d => quRate d == edRate e
     | none => false))))

/-- Units, as tile and number, that the out edges of a unit reach in a layer. -/
def unitNext (s : State) (base l : Nat) (u : Nat × Nat) : List (Nat × Nat) :=
  let g := layerGraph s base u.1 l
  (outEdges (g.units.getD u.2 0)).flatMap fun e =>
    let d := g.edges.getD e 0
    let g' := layerGraph s base (edTile d) l
    ((List.range g'.units.length).filter fun v => (inQueues (g'.units.getD v 0)).contains (edDq d)).map fun v => (edTile d, v)

/-- Units reached from a list without passing a merge. -/
def reachUnits (next : Nat × Nat → List (Nat × Nat)) (isMerge : Nat × Nat → Bool) :
    Nat → List (Nat × Nat) → List (Nat × Nat) → List (Nat × Nat)
  | 0, _, seen => seen
  | _, [], seen => seen
  | n + 1, u :: r, seen =>
    if seen.contains u ∨ isMerge u then reachUnits next isMerge n r seen
    else reachUnits next isMerge n (next u ++ r) (u :: seen)

/-- No path from a select reaches a unit with G > 1 without first passing a merge. -/
def selectsOk (s : State) (base l t : Nat) : Bool :=
  let desc := fun (u : Nat × Nat) => (layerGraph s base u.1 l).units.getD u.2 0
  let g := layerGraph s base t l
  ((List.range g.units.length).filter fun u => unKind (g.units.getD u 0) == ukSelect).all fun u =>
    (reachUnits (unitNext s base l) (fun v => unKind (desc v) == ukMerge) 1000000 (unitNext s base l (t, u)) []).all fun v =>
      unGroup (desc v) == 1

/-- The layer graph of a tile at an offset. -/
def graphOk (s : State) (base t : Nat) (x : Nat × Nat) : Bool :=
  let h := imgNat s base x.2 16
  let r := tileRec s base t
  let g := graphAt s base x.2
  let n := (16 + 16 * g.units.length + 8 * g.queues.length + 8 * g.edges.length + 63) / 64 * 64
  bits h 43 85 == 0 && (decide (bits h 16 9 ≤ 256 ∧ bits h 25 9 ≤ 256 ∧ bits h 34 9 ≤ 256) &&
    (decide (x.2 + n ≤ tlGraphOff r + tlGraphLen r) && (decide (x.1 < hdrLayers (imgHeader s base)) &&
      (g.units.all (unitOk s base t g) && (((List.range g.queues.length).zip g.queues).all (fun q => queueOk s base x.1 t q.1 q.2) &&
        (g.edges.all (edgeOk s base x.1 t) && (decide ((g.queues.map quDepth).foldl (· + ·) 0 ≤ 4096) && selectsOk s base x.1 t)))))))

/-- GRAPH of R196; the detail is the tile. -/
def graphBad (s : State) (base : Nat) : Option Nat :=
  firstBad id (fun t => rising ((tileGraphs s base t).map (·.1)) && (tileGraphs s base t).all (graphOk s base t))
    (List.range (hdrTiles (imgHeader s base)))

/-! ### Memory plan, windows and notify lists (R160, R164, R177) -/

/-- Whether units `a` to `b` − 1 are covered by ranges. -/
def coveredBy (l : List (Nat × Nat)) : Nat → Nat → Nat → Bool
  | 0, a, b => decide (b ≤ a)
  | n + 1, a, b =>
    if b ≤ a then true
    else match l.find? fun r => decide (r.1 ≤ a) && decide (a < r.1 + r.2) with
      | some r => coveredBy l n (r.1 + r.2) b
      | none => false

/-- Two partitions of a tile: AM and PM never overlap, WM only in shared ranges. -/
def partsOk (shared : List (Nat × Nat)) (x y : Nat) : Bool :=
  mpMem x != mpMem y || (!overlaps (mpBase x) (mpSize x) (mpBase y) (mpSize y) ||
    (mpMem x == 0 && coveredBy shared shared.length (max (mpBase x) (mpBase y))
      (min (mpBase x + mpSize x) (mpBase y + mpSize y))))

/-- Every two elements of a list meet a relation. -/
def pairwise {α : Type} (p : α → α → Bool) : List α → Bool
  | [] => true
  | a :: r => r.all (p a) && pairwise p r

/-- A VALID task lies in its model's partition in a memory. -/
def taskIn (parts : List Nat) (e mem : Nat) : Bool :=
  taskBound e mem == 0 || parts.any fun r => mpModel r == bits e 8 8 && (mpMem r == mem &&
    spanHolds (mpBase r) (mpSize r) (taskBase e mem) (taskBound e mem))

/-- The memory plan of a tile. -/
def tilePlanOk (s : State) (base t : Nat) : Bool :=
  let h := imgHeader s base
  let r := tileRec s base t
  let mine := (memplan s base).filter fun x => mpTile x == t
  let parts := mine.filter fun x => mpModel x != 0xFF
  let shared := (mine.filter fun x => mpModel x == 0xFF).map fun x => (mpBase x, mpSize x)
  decide (tlIstoreLen r ≤ 196608) && (decide (tlWmUnits r ≤ 131072) && (decide (tlSpillUnits r ≤ 1024) &&
    (decide (tlSpillBase r + tlSpillUnits r ≤ 49152) &&
      (mine.all (fun x => decide (mpBase x + mpSize x ≤ memUnits (mpMem x)) &&
          (if mpModel x = 0xFF then mpMem x == 0 else decide (mpModel x < hdrModels h))) &&
        (pairwise (partsOk shared) parts &&
          (parts.all (fun x => mpMem x != 1 || !overlaps (mpBase x) (mpSize x) (tlSpillBase r) (tlSpillUnits r)) &&
            (List.range 64).all fun k =>
              let e := tabTask s base t k
              !bit1 e 0 || (taskIn parts e 0 && (taskIn parts e 1 && taskIn parts e 2))))))))

/-- MEMPLAN of R196; the detail is the tile. -/
def memplanBad (s : State) (base : Nat) : Option Nat :=
  let n := hdrTiles (imgHeader s base)
  firstSome [firstBad mpTile (fun x => decide (mpTile x < n)) (memplan s base), firstBad id (tilePlanOk s base) (List.range n)]

/-- A window of a tile (R164). -/
def windowOk (s : State) (base t w : Nat) : Bool :=
  let e := tabWindow s base t w
  let k := tabTask s base t (wiTask e)
  !bit1 e 0 || (bit1 k 0 && (wiMem e != 3 && (decide (wiBase e + wiBound e ≤ taskBound k (wiMem e)) &&
    (!(wiMem e == 0 && (bit1 e 2 || bit1 e 3)) && (!(bit1 e 51 && decide (bits e 74 10 < bits e 64 10)) &&
      (!(bit1 e 54 && decide (bits e 100 16 < bits e 84 16)) &&
        (!bit1 e 3 || (notifyOf s base t).any fun n =>
          bits n 16 8 == wiNq e && (bits n 28 1 == 0 && bits n 24 4 == w))))))))

/-- WINDOW of R196; the detail is the tile. -/
def windowBad (s : State) (base : Nat) : Option Nat :=
  let n := hdrTiles (imgHeader s base)
  firstSome [
    firstBad id (fun t => (List.range 16).all (windowOk s base t)) (List.range n),
    firstBad (fun r => bits r 16 10) (fun r => bits r 0 16 != ownFdn s ||
      (decide (bits r 16 10 < n) && bits r 32 18 == wiBound (tabWindow s base (bits r 16 10) (bits r 26 4)))) (windir s base)]

/-- A notify entry: its queue exists with RATE 1, no edge feeds it, and it is its only source (R177, R191). -/
def notifyOk (s : State) (base t n : Nat) : Bool :=
  let l := bits n 0 16
  let q := bits n 16 8
  let g := layerGraph s base t l
  bits n 29 3 == 0 && ((bits n 28 1 == 0 || bits n 24 4 == 0) && (decide (q < g.queues.length) &&
    (quRate (g.queues.getD q 0) == 1 && ((feedersOf s base l t q).isEmpty && (notesFor s base l t q).length == 1))))

/-- NOTIFY of R196; the detail is the tile. -/
def notifyBad (s : State) (base : Nat) : Option Nat :=
  firstBad id (fun t => (notifyOf s base t).all (notifyOk s base t)) (List.range (hdrTiles (imgHeader s base)))

/-! ### The whole check -/

/-- The bytes of a model's WM partitions, in logical tile order (R188). -/
def modelWeights (s : State) (base m : Nat) : List Byte :=
  (List.range (hdrTiles (imgHeader s base))).flatMap fun t => (wmParts s base m t).flatMap (wmRange s base t)

/-- WDIGEST of R196; the detail is the model's first layer. -/
def wdigestBad (s : State) (base : Nat) : Option Nat :=
  firstBad (fun m => mdFirstLayer (modelRec s base m))
    (fun m => sha512 (modelWeights s base m) == toBytes 64 (bits (modelRec s base m) 512 512))
    (List.range (hdrModels (imgHeader s base)))

/-- Whether DIGEST of the header is that of the image, the field taken as zero; an image that ends within its header has no
DIGEST to match. -/
def digestOk (s : State) (base : Nat) : Bool :=
  let n := hdrSize (imgHeader s base)
  decide (128 ≤ n) &&
    sha512 (hbmRead s base 64 ++ List.replicate 64 0 ++ hbmRead s (base + 128) (n - 128)) == hbmRead s (base + 64) 64

/-- Another slot that is not REFUSED holds the season. -/
def seasonHeld (s : State) (slot id : Nat) : Bool :=
  (List.range 8).any fun i => i != slot && (slotSeason s i == id && (slotState s i != ssEmpty &&
    (slotState s i != ssStaging && slotState s i != ssRefused)))

/-- The checks on the copy of an image in its slot, in the order of R196. -/
def slotChecks (slot : Nat) (s : State) : Nat × Nat :=
  let base := slotBase s slot
  let h := imgHeader s base
  let layerOf := fun (p : Nat × Nat × Nat) => p.1
  let first := fun (l : List (Nat × Option Nat)) => (l.findSome? fun c => c.2.map fun d => (c.1, d)).getD (0, 0)
  if !digestOk s base then (lrDigest, 0)
  else if !geometryOk s slot then (lrGeometry, 0)
  else if hdrFdn h ≠ 0xFFFF ∧ hdrFdn h ≠ ownFdn s then (lrFdn, 0)
  else match sectionBad s base with
  | some d => (lrSection, d)
  | none => first [
    (lrSection, routesBad s base),
    (lrModel, modelBad s base),
    (lrCombination, firstBad layerOf (fun p => pairOk (pdWfmt p.2.2) (pdAfmt p.2.2)) (allPasses s base)),
    (lrReduction, firstBad id (reductionOk s base) (List.range (hdrLayers h))),
    (lrCodeTable, firstBad id (fun l => tableOk (Config.symbolTable (imgKey s base) l))
      (codedLayers s base)),
    (lrPassDesc, firstBad (fun p => p.2.1) (fun p => passOk p.2.2 && passLattice s base p.2.1 p.2.2) (allPasses s base)),
    (lrGraph, graphBad s base),
    (lrMemplan, memplanBad s base),
    (lrWindow, windowBad s base),
    (lrNotify, notifyBad s base),
    (lrWdigest, wdigestBad s base),
    (lrDupId, if seasonHeld s slot (bits h 96 32) then some 0 else none)]

/-- What STAGE does with an image at an address of host memory: the first three checks on its header, the copy into the slot,
and the rest on the copy. A burst that cannot be read fails DIGEST, in the header, the image or the copy (R194, R196,
R266). -/
def stageChecks (slot src : Nat) (s : State) : StageResult × State :=
  let r := hbmTouch src 256 s
  let s := r.2
  let h := imgHeader s src
  let id := bits h 96 32
  if r.1 then ({ code := lrDigest, season := id }, s)
  else if bits h 0 64 ≠ 0x4E4F534145535946 then ({ code := lrBadMagic, season := id }, s)
  else if bits h 64 16 ≠ 1 then ({ code := lrVersion, season := id }, s)
  else if 7 * 2 ^ 30 < hdrSize h ∨ reservedBase s < src + hdrSize h then ({ code := lrTooBig, season := id }, s)
  else
    let t := hbmTouch src (hdrSize h) s
    if t.1 then ({ code := lrDigest, season := id }, t.2)
    else
      let c := hbmTouch (slotBase s slot) (hdrSize h) (hbmCopy src (slotBase s slot) (hdrSize h) t.2)
      if c.1 then ({ code := lrDigest, season := id }, c.2)
      else
        let r := slotChecks slot c.2
        ({ code := r.1, season := id, detail := r.2 % 65536 }, c.2)

end Sys2Proof.Machine
end

