-- ==== Sys2Proof/Machine/Sched.lean ====
section
/-! DEFINITION. The supervisor's scheduling: fetching and checking descriptors, season slots and season changes, batches,
layers, stream state and completions (R37–R42, R130, R142, R189, R193–R211, R318, R341, R342, R346). -/

namespace Sys2Proof.Machine

open Sys2Proof

/-! ### Submission (R39, R207–R209, R318) -/

/-- Fields of a descriptor that must be zero in every request, and the alignment of the addresses. -/
def descReserved (d : Nat) : Bool :=
  bits d 10 6 == 0 && (bits d 48 16 == 0 && (bits d 116 12 == 0 && (bits d 168 24 == 0 && (bits d 224 32 == 0 &&
    (bits d 296 24 == 0 && (bits d 352 32 == 0 && bits d 416 96 == 0))))))

/-- The first check of R209. -/
def descValid (d : Nat) : Bool :=
  if dsOpcode d = opInfer then descReserved d && (dsInLen d != 0 && (bits d 128 6 == 0 && bits d 256 6 == 0))
  else dsOpcode d == opFence && (bits d 8 8 == 0 && d / 2 ^ 38 == 0)

/-- Chunks of a request on a model (R208). -/
def chunkCount (d m : Nat) : Nat := (dsInLen d + mdChunkBytes m - 1) / max 1 (mdChunkBytes m)

/-- Whether a buffer may be used by a head: exposed to it, outside the reserved region and the slot array. -/
def bufferOk (s : State) (h a n : Nat) : Bool :=
  exposed s h a n && (decide (a + n ≤ reservedBase s) &&
    !overlaps a n (slotArrayBase s) (slotCount s * slotSize s))

/-- The status that the submission checks assign; `none` when all pass (R209). -/
def submitCheck (s : State) (h d : Nat) : Option Nat :=
  if !descValid d then some csBadDesc
  else if get s (queCqCfg h (dsCq d)) QueCqCfg.enable = 0 then some csBadCq
  else if dsOpcode d = opFence then none
  else match seasonSlot s (dsSeason d) with
    | none => some csNoModel
    | some i =>
      let base := slotBase s i
      let m := modelRec s base (dsModel d)
      if hdrModels (imgHeader s base) ≤ dsModel d then some csNoModel
      else if mdChunkBytes m * mdMaxChunks m < dsInLen d then some csTooLarge
      else if mdStateBytes m ≠ 0 ∧ (slotCount s ≤ dsSlot d ∨ slotSize s < mdStateBytes m + 64) then some csBadSlot
      else if !(bufferOk s h (dsInAddr d) (dsInLen d) && (bufferOk s h (dsOutAddr d) (dsOutLen d) &&
          (!overlaps (dsInAddr d) (dsInLen d) (dsOutAddr d) (dsOutLen d) &&
            decide (chunkCount d m * mdOutBytes m ≤ dsOutLen d)))) then some csBadBuffer
      else none

/-- The completion queue that a request's completion goes to: the one it names, or the default when that one is not
enabled. -/
def submitCq (s : State) (h q d : Nat) : Nat :=
  if get s (queCqCfg h (dsCq d)) QueCqCfg.enable = 1 then dsCq d else get s (queSqCfg h q) QueSqCfg.defCq

/-- The request that a descriptor makes, before its checks. -/
def newRequest (s : State) (h q d sqHead : Nat) : Request where
  id := s.req.nextId
  head := h
  sq := q
  desc := d
  sqHead := sqHead
  cq := submitCq s h q d
  time := s.devtime

/-- Put a request among those the supervisor holds. -/
def addRequest (r : Request) (s : State) : State :=
  { s with req := { s.req with reqs := s.req.reqs ++ [r], nextId := s.req.nextId + 1 } }

/-- A request that fails a check goes straight to its completion. -/
def rejectRequest (r : Request) (st : Nat) (s : State) : State :=
  finishReq r.id st (addRequest { r with accepted := false } s)

/-- Accept a request (step 5 of R39). -/
def acceptRequest (r : Request) (s : State) : State :=
  let m := match seasonSlot s (dsSeason r.desc) with
    | some i => modelRec s (slotBase s i) (dsModel r.desc)
    | none => 0
  let r := if dsOpcode r.desc = opFence then r
    else { r with chunks := chunkCount r.desc m, outBytes := mdOutBytes m, stateful := mdStateBytes m != 0 }
  let s := addR (ledReq r.head LedReq.inFlight) 1 (addR (ledReq r.head LedReq.accepted) 1 s)
  refreshReady (fencesDue (addRequest r s))

/-- Fetch the next entry of a submission queue, copy it, and check it. -/
def fetchOne (h q : Nat) (s : State) : State :=
  let head := get s (queSqStat h q) QueSqStat.head
  let next := (head + 1) % 2 ^ get s (queSqCfg h q) QueSqCfg.sizeLog2
  let a := get s (queSqCfg h q) QueSqCfg.base * 4096 + 64 * head
  let t := hbmTouch a 64 s
  let s := upd (queSqStat h q) QueSqStat.head next t.2
  if t.1 then
    let r := { newRequest s h q 0 next with cq := get s (queSqCfg h q) QueSqCfg.defCq }
    rejectRequest r csBadDesc (upd (queSqStat h q) QueSqStat.fetchUe 1 s)
  else
    let d := hbmNat s a 64
    match submitCheck s h d with
    | some st => rejectRequest (newRequest s h q d next) st s
    | none => acceptRequest (newRequest s h q d next) s

/-- Whether a queue has announced entries that are not fetched. -/
def unfetched (s : State) (h q : Nat) : Bool :=
  get s (queSqCfg h q) QueSqCfg.enable == 1 &&
    get s (queSqStat h q) QueSqStat.head != get s (queSqStat h q) QueSqStat.tail

/-- Fetch up to `n` consecutive entries of a queue. -/
def fetchUpTo (h q : Nat) : Nat → State → State
  | 0, s => s
  | n + 1, s => if unfetched s h q then fetchUpTo h q n (fetchOne h q s) else s

/-- The queue of a head whose turn it is. -/
def nextQueue (s : State) (h : Nat) : Option Nat :=
  if !linkUp s h then none
  else ((List.range 64).map fun i => (tget (fun _ => 0) s.req.turn h + i) % 64).find? (unfetched s h)

/-- Whether the device fetches descriptors (R318). -/
def fetching (s : State) : Bool :=
  !s.boot.fabricReset && (devState s == .summer || (devState s == .autumn || devState s == .winter))

/-- One turn of the round robin: up to 8 entries of one queue, the heads alternating. -/
def fetchTurn (s : State) : State :=
  let h := s.req.turnHead % 2
  let serve := fun (h q : Nat) =>
    let s := fetchUpTo h q 8 s
    { s with req := { s.req with turnHead := 1 - h, turn := tset (fun _ => 0) h ((q + 1) % 64) s.req.turn } }
  match nextQueue s h with
  | some q => serve h q
  | none => match nextQueue s (1 - h) with
    | some q => serve (1 - h) q
    | none => s

/-- DESCRIPTOR_FETCH (R318). -/
def execDescriptorFetch (s : State) : Host.Outcome State Fault Refusal :=
  .next (powered (fun s => if fetching s then fetchTurn s else s) s)

/-- DEADLINE_EXPIRE: the DEADLINE of a request has passed before its next chunk has started (R210). -/
def execDeadlineExpire (r : Nat) (s : State) : Host.Outcome State Fault Refusal :=
  .next (powered (fun s =>
    match findReq s r with
    | none => s
    | some x =>
      if x.accepted && (dsOpcode x.desc == opInfer && (!x.running && (dsDeadline x.desc != 0 &&
          decide (x.time + dsDeadline x.desc * usTicks < s.devtime)))) then chunkFail r csDeadline 0 s
      else s) s)

/-- Whether a DMA credit of a request's failed chunk is still in use (R211). -/
def owedOut (s : State) (r : Request) : Bool :=
  r.owed.any fun o => match (engine s o.1 o.2.1).run with
    | some d => d.credits.contains o.2.2
    | none => false

/-- COMPLETION_WRITE: a request whose completion is due, behind none of its queue, has its entry written or held (R319). -/
def execCompletionWrite (r : Nat) (s : State) : Host.Outcome State Fault Refusal :=
  .next (powered (fun s =>
    let s := finishBatch s
    match findReq s r with
    | none => s
    | some x =>
      if owedOut s x then s else
      let first := s.req.due.find? fun i => match findReq s i with
        | some y => y.head == x.head && y.cq == x.cq
        | none => false
      if first = some r then produce x s else s) s)

/-! ### Season slots (R194, R195, R204) -/

/-- Bits of SUP_SLOT_CFG and of SUP_SEASON_CMD that are not reserved. -/
def slotCfgMask (v : Nat) : Nat := v % 2 ^ 37 + bits v 38 21 * 2 ^ 38
def seasonCmdMask (v : Nat) : Nat := v % 2 ^ 5 + bits v 12 34 * 2 ^ 12

/-- A write of SUP_SLOT_CFG (R204). -/
def slotCfgWrite (m : Master) (off width v : Nat) (s : State) : State :=
  let v := slotCfgMask v
  let size := 0x10000 * 2 ^ bits v 34 3
  if bits v 34 3 = 7 ∨ reservedBase s < bits v 0 34 * 4096 + bits v 38 21 * size ∨
      s.req.reqs.any (fun r => r.accepted && r.stateful) then refusedWrite m off width s
  else put supSlotCfg (BitVec.ofNat 64 v) s

/-- SLOT_CFG_WRITE (R204). -/
def execSlotCfgWrite (m : Master) (half : Half) (v : Nat) (s : State) : Host.Outcome State Fault Refusal :=
  .next (powered (asOwner m (halfOff supSlotCfg half) (halfWidth half) fun s =>
    slotCfgWrite m (halfOff supSlotCfg half) (halfWidth half) (mergeHalf half (rd s supSlotCfg) v) s) s)

/-- A STAGE command runs until its slot leaves STAGING. -/
def stageRuns (s : State) : Bool := (List.range 8).any fun i => slotState s i == ssStaging

/-- Withdraw a recorded ACTIVATE of a slot. -/
def withdraw (i : Nat) (s : State) : State :=
  if s.req.recorded = some i then { s with req := { s.req with recorded := none } } else s

/-- Set what SUP_SEASON_STAT says of a slot's image. -/
def setSlotImage (i id detail : Nat) (s : State) : State :=
  upd (supSeasonStat i) SupSeasonStat.seasonId id (upd (supSeasonStat i) SupSeasonStat.detail detail s)

/-- A command is refused with BUSY; the slot is otherwise unchanged. -/
def slotBusyResult (i : Nat) (s : State) : State := setSlotResult i lrBusy s

/-- STAGE (R195). -/
def stage (i src : Nat) (s : State) : State :=
  if slotState s i = ssEmpty ∨ slotState s i = ssStaged ∨ slotState s i = ssRefused then
    let s := setSlotState i ssStaging (setSlotResult i 0 (setSlotImage i 0 0 (withdraw i s)))
    refreshReady { s with req := { s.req with staging := tset (fun _ => 0) i (src * 4096) s.req.staging } }
  else slotBusyResult i s

/-- Whether an accepted, uncompleted request names the season of a slot. -/
def seasonNamed (s : State) (i : Nat) : Bool :=
  s.req.reqs.any fun r => r.accepted && (dsOpcode r.desc == opInfer && (r.status.isNone && dsSeason r.desc == slotSeason s i))

/-- REMOVE (R195). -/
def remove (i : Nat) (s : State) : State :=
  if slotState s i = ssEmpty then setSlotResult i 0 s
  else if slotState s i = ssRefused ∨ (slotState s i = ssStaged ∧ !seasonNamed s i) then
    setSlotState i ssEmpty (setSlotResult i 0 (setSlotImage i 0 0 (withdraw i s)))
  else slotBusyResult i s

/-- ACTIVATE (R195). -/
def activate (i : Nat) (s : State) : State :=
  if slotState s i = ssStaged then setSlotResult i 0 { s with req := { s.req with recorded := some i } }
  else slotBusyResult i s

/-- Carry out a command of SUP_SEASON_CMD. -/
def runSeasonCmd (c : SeasonCmd) (s : State) : State :=
  match c.op with
  | 1 => stage c.slot c.src s
  | 2 => remove c.slot s
  | 3 => activate c.slot s
  | _ => s

/-- A write of SUP_SEASON_CMD: discarded while the previous command runs, carried out later during a season change
(R195). -/
def seasonCmdWrite (m : Master) (v : Nat) (s : State) : State :=
  if stageRuns s || s.req.deferred.isSome then refusedWrite m supSeasonCmd 64 s
  else
    let s := put supSeasonCmd (BitVec.ofNat 64 (seasonCmdMask v)) s
    let c : SeasonCmd := { op := bits v 3 2, slot := bits v 0 3, src := bits v 12 34 }
    if c.op ≠ 0 ∧ s.req.change.isSome then { s with req := { s.req with deferred := some c } } else runSeasonCmd c s

/-- The word that a command writes to SUP_SEASON_CMD. -/
def seasonCmdWord (op slot src : Nat) : Nat := slot + op * 2 ^ 3 + src % 2 ^ 34 * 2 ^ 12

/-- STAGE: the owner's command (R194). -/
def execStage (m : Master) (slot : SlotId) (src : Nat) (s : State) : Host.Outcome State Fault Refusal :=
  .next (powered (asOwner m supSeasonCmd 64 (seasonCmdWrite m (seasonCmdWord 1 slot src))) s)

/-- REMOVE (R195). -/
def execRemove (m : Master) (slot : SlotId) (src : Nat) (s : State) : Host.Outcome State Fault Refusal :=
  .next (powered (asOwner m supSeasonCmd 64 (seasonCmdWrite m (seasonCmdWord 2 slot src))) s)

/-- ACTIVATE (R195). -/
def execActivate (m : Master) (slot : SlotId) (src : Nat) (s : State) : Host.Outcome State Fault Refusal :=
  .next (powered (asOwner m supSeasonCmd 64 (seasonCmdWrite m (seasonCmdWord 3 slot src))) s)

/-- STAGE_DONE: the copy has ended; the checks decide whether the slot is STAGED or REFUSED (R194, R196). -/
def execStageDone (slot : SlotId) (s : State) : Host.Outcome State Fault Refusal :=
  .next (powered (fun s =>
    if slotState s slot ≠ ssStaging then s
    else
      let r := stageChecks slot (tget (fun _ => 0) s.req.staging slot) s
      let s := r.2
      let s := { s with req := { s.req with staging := tset (fun _ => 0) slot 0 s.req.staging } }
      let s := setSlotImage slot r.1.season r.1.detail (setSlotResult slot r.1.code s)
      if r.1.code = 0 then refreshReady (setSlotState slot ssStaged s)
      else seasonLost (setSlotState slot ssRefused s)) s)

/-! ### Switch points and season changes (R197, R199, R202) -/

/-- Begin a change to the season of a slot: geometry is checked again, and a slot that fails it is refused (R197, R202). -/
def beginChange (i : Nat) (s : State) : State :=
  let s := { s with req := { s.req with recorded := none, choice := none } }
  if geometryOk s i then
    abandonRound { s with req := { s.req with change := some (i, .draining) } }
  else refuseGeometry i s

/-- The ready chunk of a staged season with the largest weighted age; of equal ones of seasons not active, the lowest slot
goes first. -/
def seasonCandidate (s : State) : Option Request :=
  match eldest s (readyReqs s) with
  | none => none
  | some c =>
    if activeSeason s = some (dsSeason c.desc) then some c
    else
      let eq := (readyReqs s).filter fun r => weightedAge s r == weightedAge s c && activeSeason s != some (dsSeason r.desc)
      let slotOf := fun (r : Request) => (seasonSlot s (dsSeason r.desc)).getD 8
      some (eq.foldl (fun m r => if slotOf r < slotOf m then r else m) c)

/-- The slot to which the procedure of R199 changes; `none` when it does not. -/
def changeTo (s : State) : Option Nat :=
  match s.req.recorded with
  | some i => some i
  | none =>
    match seasonCandidate s with
    | none => none
    | some c =>
      let i := seasonSlot s (dsSeason c.desc)
      if activeSeason s = some (dsSeason c.desc) then none
      else if (readyActive s).isEmpty then i
      else if 0 < plSwitchAge (policy s) ∧ plSwitchAge (policy s) ≤ weightedAge s c ∧
          plMinResident (policy s) * usTicks ≤ s.devtime - s.req.resident then i
      else none

/-- The choice at a switch point (R199). -/
def chooseNext (s : State) : State :=
  let keep := match s.req.choice with
    | some m => !(readyModel s m).isEmpty
    | none => false
  match changeTo s with
  | some i => if slotState s i = ssStaged then beginChange i s else withdraw i s
  | none =>
    if keep then s
    else { s with req := { s.req with choice := (eldest s (readyActive s)).map fun r => dsModel r.desc } }

/-- Whether a switch point follows the last layer of a running batch that has ended. -/
def atSwitchPoint (s : State) (b : Batch) : Bool :=
  let base := slotBase s b.slot
  let m := modelRec s base b.model
  !b.layerRunning && (b.layer != 0 && lySwitchPt (layerRec s base (mdFirstLayer m + b.layer - 1)))

/-- Open a window for every due tile when some tile is overdue (R337). -/
def overdueWindow (s : State) : State :=
  if s.req.testOpen || (overdueTiles s).isEmpty then s else openTestWindow (dueTiles s) s

/-- SWITCH_POINT: the fabric has reached a switch point: overdue tiles are tested, and the supervisor chooses what runs next
(R199, R337). A batch whose layers are not complete goes on; what is chosen comes after it. -/
def execSwitchPoint (s : State) : Host.Outcome State Fault Refusal :=
  .next (powered (fun s =>
    if !running s || (s.boot.fabricReset || (s.boot.quiesce || s.req.change.isSome)) then s
    else
      let s := finishBatch s
      match s.req.batch with
      | some b =>
        if atSwitchPoint s b then chooseNext { overdueWindow s with req := { (overdueWindow s).req with choice := none } } else s
      | none => chooseNext (overdueWindow s)) s)

/-- Clear the graph of the active layer on every tile. -/
def clearGraphs (s : State) : State :=
  (s.tiles.map (·.1)).foldl (fun s t => updTile t (fun x => { x with
    unitTab := [], queueTab := [], edgeTab := [], units := [], queues := [], credit := [], flight := [], sinks := []
    notes := [], notify := [] }) s) s

/-- Mark the task entries of tiles not VALID. -/
def invalidateTasks (ts : List Nat) (s : State) : State :=
  ts.foldl (fun s t => (List.range 64).foldl (fun s k =>
    let e := taskEntry s t k
    if bit1 e 0 then put128 (tilTask t (2 * k)) (e - 1) s else s) s) s

/-- Carry out the command that waited for a season change. -/
def runDeferred (s : State) : State :=
  match s.req.deferred with
  | some c => runSeasonCmd c { s with req := { s.req with deferred := none } }
  | none => s

/-- SEASON_DRAIN_DONE: the fabric is drained; windows close, tasks are not VALID, the slots change state, and the loads and
the tests of due tiles begin (steps 3 to 5 of R202). -/
def execSeasonDrainDone (s : State) : Host.Outcome State Fault Refusal :=
  .next (powered (fun s =>
    match s.req.change with
    | some (i, .draining) =>
      if !running s || (s.boot.fabricReset || (s.req.batch.isSome || (s.req.testOpen || (!trafficQuiet s ||
          !s.req.spillOpen.isEmpty)))) then s
      else if !geometryOk s i then
        runDeferred (refuseGeometry i { s with req := { s.req with change := none } })
      else
        let ts := List.range 768
        let s := quiesced (clearGraphs (invalidateTasks ts (closeWindows ts s)))
        let s := match activeSlot s with
          | some a => setSlotState a ssStaged s
          | none => s
        let s := refreshReady (setSlotState i ssActivating s)
        openTestWindow (dueTiles s) { s with req := { s.req with change := some (i, .loading) } }
    | _ => s) s)

/-- SEASON_LOAD_DONE: the route image is in the routers and channels and every tile is loaded; the field controllers confirm
(steps 4 to 6 of R202). -/
def execSeasonLoadDone (s : State) : Host.Outcome State Fault Refusal :=
  .next (powered (fun s =>
    match s.req.change with
    | some (i, .loading) =>
      if !running s || (s.boot.fabricReset || s.req.testOpen) then s
      else
        let base := slotBase s i
        let s := loadImage base s
        { s with req := { s.req with change := some (i, .confirming) } }
    | _ => s) s)

/-- SEASON_CONFIRMED: every field controller has confirmed the load and TIL_MC_VER; the season becomes active (step 7 of
R202). -/
def execSeasonConfirmed (s : State) : Host.Outcome State Fault Refusal :=
  .next (powered (fun s =>
    match s.req.change with
    | some (i, .confirming) =>
      if !running s || (s.boot.fabricReset ||
          !((List.range (tileCount s)).all fun t => tileOff s t || microcodeOk s t)) then s
      else runDeferred (refreshReady (activateSlot i s))
    | _ => s) s)

/-! ### Batches (R198, R199, R346) -/

/-- A written mode comes into force: phases are taken anew, OFF clears SUSPECT marks, and tiles are marked by its OVERDUE
(R338, R342, R344, R346). -/
def applyMode (s : State) : State :=
  let m := get s intCtrl IntCtrl.mode
  let s := upd intStat IntStat.pending 0 s
  if m = intMode s then s
  else
    let s := itg (fun g => { g with phased := [] }) (upd intStat IntStat.mode m s)
    let s := if m = 0 then setSuspects [] s else s
    (List.range (tileCount s)).foldl (fun s t => markUnverified t s) s

/-- Whether the wait of R199 is over for a model: its chunks reach BATCH_MAX, or BATCH_WINDOW has passed since the oldest
of them became ready. -/
def batchDue (s : State) (m : Nat) : Bool :=
  let l := readyModel s m
  decide (0 < l.length) && (decide (plMax (policy s) ≤ l.length) ||
    l.any fun r => decide (r.ready.getD s.devtime + plWindow (policy s) * usTicks ≤ s.devtime))

/-- Requests of a model whose DEADLINE passed before this batch: their next chunk fails. -/
def expireModel (m : Nat) (s : State) : State :=
  ((readyModel s m).filter fun r => dsDeadline r.desc != 0 && decide (r.time + dsDeadline r.desc * usTicks < s.devtime)).foldl
    (fun s r => chunkFail r.id csDeadline 0 s) s

/-- Start a batch of a model from a slot: what was loaded for other chunks or other places is discarded, and the inputs that
were not prefetched are loaded (R39, R200). -/
def startBatch (i m : Nat) (s : State) : State :=
  let ids := batchChunks s m
  if ids.isEmpty then s
  else
    let deg := degraded s
    let s := mapReqs (fun r => if ids.contains r.id then
        { r with running := true, ready := none, degraded := r.degraded || deg } else r) s
    let b : Batch := { slot := i, model := m, reqs := ids }
    let s := itg (fun g => { g with selected := [], digests := [], sinksAt := none }) s
    let s := { s with req := { s.req with batch := some b, choice := none, lastFailed := []
                                          loaded := s.req.loaded.filter fun l => ids[l.2.2]? == some l.1
                                          inputs := s.req.inputs.filter fun l => ids[l.2]? == some l.1 } }
    loadInputs b s

/-- Logical tiles whose remap waits or has not committed. -/
def remapPending (s : State) : List Nat :=
  s.boot.remapQueue.map (·.1) ++ (match s.boot.remap with
    | some r => if r.step == .ending then [] else r.entries.map (·.tile)
    | none => [])

/-- Whether a model needs a tile: a partition of it lies on the tile, or one of its layers has units there. -/
def modelNeeds (s : State) (base m t : Nat) : Bool :=
  let r := modelRec s base m
  let graphs := layerGraph s base t
  (memplan s base).any (fun p => mpModel p == m && mpTile p == t) ||
    (List.range (mdLayers r)).any fun l => !(graphs (mdFirstLayer r + l)).units.isEmpty

/-- Whether a batch of a model waits for a standby remap of a tile it needs (R334, R371). -/
def remapHolds (s : State) (i m : Nat) : Bool := (remapPending s).any (modelNeeds s (slotBase s i) m)

/-- BATCH_START (R199): the supervisor commands the field controllers to run one batch of the chosen model, once no tile that
it needs awaits a remap (R334, R371). -/
def execBatchStart (s : State) : Host.Outcome State Fault Refusal :=
  .next (powered (fun s =>
    match activeSlot s, s.req.choice with
    | some i, some m =>
      if !running s || (s.boot.fabricReset || (s.boot.quiesce || (s.req.change.isSome || (s.req.batch.isSome ||
          (!batchDue s m || remapHolds s i m))))) then s
      else startBatch i m (applyMode (expireModel m s))
    | _, _ => s) s)

/-! ### Stream state (R200, R206) -/

/-- The request of a place in the running batch, or, beyond it, in the batch that would be chosen next; and its model. -/
def placeOf (s : State) (k : Nat) : Option (Nat × Nat × Nat) :=
  let b := match s.req.batch with
    | some b => b.reqs
    | none => []
  match b[k]? with
  | some id => some (id, batchModel s, k)
  | none => match predicted s with
    | none => none
    | some (m, ids) => (ids[k - b.length]?).map fun id => (id, m, k - b.length)

/-- Whether the AM partitions of two models of the active season overlap on some tile. -/
def amOverlap (s : State) (base a b : Nat) : Bool :=
  let ps := fun (m : Nat) => (memplan s base).filter fun r => mpMem r == 1 && mpModel r == m
  (ps a).any fun x => (ps b).any fun y => mpTile x == mpTile y && overlaps (mpBase x) (mpSize x) (mpBase y) (mpSize y)

/-- Whether data of a place may be loaded now: of the running batch before its first layer, or of the batch to come while
its model's AM partitions do not overlap those of the running model. -/
def mayLoad (s : State) (base id m : Nat) : Bool :=
  match s.req.batch with
  | none => true
  | some b => if b.reqs.contains id then b.layer == 0 && !b.layerRunning else !amOverlap s base b.model m

/-- A chunk whose state cannot be loaded fails and leaves its batch. -/
def loadFail (id cause : Nat) (s : State) : State := batchDrop [id] (chunkFail id cause 0 s)

/-- Note that a request's state is loaded on a tile, for a place. -/
def noteLoaded (id t k : Nat) (s : State) : State :=
  { s with req := { s.req with loaded := (id, t, k) :: s.req.loaded.filter fun l => l.1 != id || l.2.1 != t } }

/-- STATE_LOAD: the routine checks the slot header and loads a tile's part of a chunk's stream state into AM, or fails the
chunk (R206). `chunk` is the chunk's place in the batch. -/
def execStateLoad (t : TileId) (chunk : Nat) (s : State) : Host.Outcome State Fault Refusal :=
  .next (powered (fun s =>
    match activeSlot s, placeOf s chunk with
    | some i, some (id, m, k) =>
      match findReq s id with
      | none => s
      | some r =>
        let base := slotBase s i
        if tileOff s t || (!r.stateful || (r.status.isSome ||
            (s.req.loaded.contains (id, t.val, k) || !mayLoad s base id m))) then s
        else
          let p := statePart s m t k
          let n := partBytes s base m p
          let s := microRetired t s
          let put_ := fun (bs : List Byte) (s : State) =>
            updTile t (fun x => if bs.isEmpty then x else writeUnits memAm (partBase p) bs x) (noteLoaded id t k s)
          if streamStarts r then put_ (List.replicate n 0) s
          else
            let a := streamSlot s r
            let h := hbmTouch a 64 s
            let d := hbmTouch (a + 64 + 64 * partOff p) n h.2
            if h.1 ∨ (0 < n ∧ d.1) then loadFail id csMemoryUe h.2
            else if !slotMatches d.2 base (hbmNat d.2 a 64) r then loadFail id csSlotMismatch d.2
            else put_ (hbmRead d.2 (a + 64 + 64 * partOff p) n) d.2
    | _, _ => s) s)

/-- STATE_STORE: after a chunk's layers are complete without failure, the routine stores a tile's part of its state; the slot
takes state and header once every part is stored, so that a chunk that fails writes nothing (R206). -/
def execStateStore (t : TileId) (chunk : Nat) (s : State) : Host.Outcome State Fault Refusal :=
  .next (powered (fun s =>
    match s.req.batch with
    | none => s
    | some b =>
      match (b.reqs[chunk]?).bind (findReq s) with
      | none => s
      | some r =>
        let p := statePart s b.model t chunk
        if tileOff s t || (!batchRan s b || (!batchLive b r.id || (!r.stateful || (streamEnds r || (b.stored.contains (r.id, t.val) ||
            partUnits p == 0))))) then s
        else
          let x := readRange t memAm (partBase p) (partUnits p) (microRetired t s)
          if !x.1 then x.2
          else finishBatch { x.2 with req := { x.2.req with batch := some { b with stored := (r.id, t.val) :: b.stored } } }) s)

/-! ### Layers (R130, R134, R142, R143, R189, R341, R342) -/

/-- Whether the graph of the last layer is empty: no tile holds a fault, a pass or a kernel. -/
def graphEmpty (s : State) : Bool :=
  s.tiles.all fun e => tileOff s e.1 || (!faultHeld s e.1 && (e.2.passQ.isEmpty && (e.2.kernQ.isEmpty &&
    (e.2.passes.isEmpty && e.2.kernel.isNone))))

/-- Whether every stateful chunk of a batch has its state loaded. -/
def stateLoaded (s : State) (b : Batch) : Bool :=
  (liveChunks s b).all fun e => !e.1.stateful || (s.req.loaded.any (fun l => l.1 == e.1.id) &&
    (partTiles s b.model e.2).all fun t => s.req.loaded.contains (e.1.id, t, e.2))

/-- The horizon's exponent for a layer (R142). -/
def horizonOf (layer ctrl : Nat) : Nat :=
  max (quietLog2 ctrl + 2) (if lyHorizon layer ≠ 0 then lyHorizon layer else max 12 (min 24 (bits ctrl 5 5)))

/-- Iterations of a layer run padded to whole groups of GMAX (R130). -/
def paddedTags (n g : Nat) : Nat := (n + g - 1) / g * g

/-- Place a layer's graph on a tile, with nothing fired and each edge's credit at the depth of the queue it feeds. -/
def loadGraph (graphs : Nat → LayerGraph) (t n real : Nat) (s : State) : State :=
  let g := graphs t
  let pair := fun (l : List Nat) => (List.range l.length).zip l
  updTile t (fun x => { x with
    unitTab := pair g.units, queueTab := pair g.queues, edgeTab := pair g.edges
    tags := n, realTags := real, units := [], queues := []
    credit := (pair g.edges).foldl (fun c e =>
      tset (fun _ => 0) e.1 (quDepth ((graphs (edTile e.2)).queues.getD (edDq e.2) 0)) c) []
    flight := [], lastUnit := 255, quiet := 0, sinks := [], digest := 0, shadow := 0, stepOn := false, gate := 0 }) s

/-- The tile has a step in the layer, or holds shadow units of it. -/
def hasUnits (s : State) (t : Nat) (shadow : Bool) : Bool :=
  let x := tile s t
  (unitNums x).any fun u => isShadow s t (unitDesc x u) == shadow

/-- At the start of a layer: find which tiles' covered steps are selected, and set the gates of their partners (R341). -/
def selectSteps (n : Nat) (s : State) : State :=
  let s := itg (fun g => { g with selected := [], digests := [], sinksAt := none }) s
  let s := ((List.range n).filter fun t => hasUnits s t false && coveredStep s t).foldl (fun s t =>
    let r := selectStep t s
    if r.1 then itg (fun g => { g with selected := g.selected ++ [t] }) r.2 else r.2) s
  ((List.range n).filter fun t => hasUnits s t true).foldl (fun s t =>
    updTile t (fun x => { x with gate := if s.integ.selected.contains (shadowed s (batchModel s) t) then 2 else 1 }) s) s

/-- Issue the input loads for the batch that would be chosen next, where its model's AM partitions do not overlap those of the
running model (R200). -/
def prefetch (b : Batch) (s : State) : State :=
  match predicted s with
  | some (m, ids) => if amOverlap s (slotBase s b.slot) b.model m then s else prefetchInputs m ids s
  | none => s

/-- Start a layer of the running batch. -/
def startLayer (b : Batch) (s : State) : State :=
  let s := prefetch b s
  let base := slotBase s b.slot
  let l := mdFirstLayer (modelRec s base b.model) + b.layer
  let lr := layerRec s base l
  let real := lyIters lr * b.reqs.length
  let n := paddedTags real (gmax s base l)
  let ctrl := (rd s supDfCtrl).toNat
  let tiles := hdrTiles (imgHeader s base)
  let s := { s with req := { s.req with batch := some { b with layerRunning := true }, spills := 0, spillOpen := []
                                        dfCtrl := ctrl, horizon := horizonOf lr ctrl } }
  let graphs := layerGraph s base
  let s := (List.range tiles).foldl (fun s t => loadGraph (fun u => graphs u l) t n real s) s
  let s := addR (ledCnt LedCnt.tagsOpen) n (addR (ledCnt LedCnt.tagsIssued) n s)
  selectSteps tiles s

/-- LAYER_START (R189): the next layer of the running batch starts; a test window and a quiesce hold it (R246, R337). -/
def execLayerStart (s : State) : Host.Outcome State Fault Refusal :=
  .next (powered (fun s =>
    match s.req.batch with
    | none => s
    | some b =>
      if b.layerRunning || (decide (batchLayers s b ≤ b.layer) || (s.req.testOpen || (!running s || (s.boot.fabricReset ||
          (s.boot.quiesce || (!s.integ.selected.isEmpty || (!graphEmpty s || (b.layer == 0 && !stateLoaded s b)))))))) then s
      else
        let s := if b.layer = 0 then loadInputs b s else s
        match s.req.batch with
        | some b => startLayer b s
        | none => s) s)

/-- Sink units of a tile. -/
def sinkUnits (x : TileState) : List Nat := (unitNums x).filter fun u => unKind (unitDesc x u) == ukSink

/-- Every sink of the graph has reported its last group. -/
def sinksDone (s : State) : Bool := s.tiles.all fun e => (sinkUnits e.2).all e.2.sinks.contains

/-- An operand left in a queue or in spill: its queue and tag. -/
def residueOf (x : TileState) : Option (Nat × Nat) :=
  x.queues.findSome? fun q => match q.2.items with
    | i :: _ => some (q.1, opTag i.op)
    | [] => q.2.spilled.head?.map fun o => (q.1, o.tag)

/-- Record RESIDUE on every tile that holds an operand (R143). -/
def checkResidue (s : State) : State :=
  (graphTiles s).foldl (fun s' t =>
    let x := tile s t
    match residueOf x with
    | some (q, tag) => tagFault t dfResidue ((consumer x q).getD 0) q tag s'
    | none => s') s

/-- The last layer of a batch has ended: its outputs are written, and what a switch point within the model chose is chosen anew
at the one that follows (R39, R199). -/
def endModel (b : Batch) (s : State) : State :=
  writeOutputs b { s with req := { s.req with choice := none } }

/-- Nothing is left of a batch whose chunks have all failed. -/
def endEmpty (s : State) : State :=
  match s.req.batch with
  | some b => if batchEmpty b then { s with req := { s.req with batch := none } } else s
  | none => s

/-- End the running layer: its tags are retired, a window may open for due tiles, and the last layer ends the batch once
what it waits for is done. -/
def endLayer (b : Batch) (s : State) : State :=
  let base := slotBase s b.slot
  let l := mdFirstLayer (modelRec s base b.model) + b.layer
  let open_ := ledCntN s LedCnt.tagsOpen
  let s := put (ledCnt LedCnt.tagsOpen) 0 (addR (ledCnt LedCnt.tagsRetired) open_ s)
  let s := { s with req := { s.req with batch := some { b with layerRunning := false, layer := b.layer + 1 } } }
  let s := itg (fun g => { g with sinksAt := some s.devtime }) s
  let s := if lyTestWin (layerRec s base l) ∧ !s.req.testOpen then openTestWindow (dueTiles s) s else s
  let s := endEmpty (if batchLayers s b ≤ b.layer + 1 then endModel b s else s)
  finishBatch s

/-- LAYER_END (R134): every sink has reported; the field controllers check for residue (R143). -/
def execLayerEnd (s : State) : Host.Outcome State Fault Refusal :=
  .next (powered (fun s =>
    match s.req.batch with
    | none => s
    | some b =>
      if !b.layerRunning || !sinksDone s then s
      else if (graphTiles s).any fun t => (residueOf (tile s t)).isSome then checkResidue s
      else endLayer b s) s)

end Sys2Proof.Machine
end

