-- ==== Sys2Proof/Machine/Update.lean ====
section
/-! DEFINITION. The owner's acts on the configuration store and on firmware slots, firmware trials, and the failure of an
NVM device (R464, R467, R470, R471, R480, R482, R485–R487, R491–R498, R532). -/

namespace Sys2Proof.Machine

open Sys2Proof

/-! ### NVM_CFG_CMD (R467, R470, R471, R496, R532) -/

/-- Bytes of HBM that the store reads; the bytes of a range that cannot be read are free. -/
def storeRead (a n : Nat) (s : State) : List Byte × State :=
  let r := hbmTouch a n s
  if r.1 then
    let f := freeNat (8 * n) r.2
    (toBytes n f.1, f.2)
  else (hbmRead r.2 a n, r.2)

/-- Whether a range lies in the head range of a master; the service client has none (R496). -/
def inOwnRange (s : State) (m : Master) (a n : Nat) : Bool :=
  match masterHead m with
  | some h => exposed s (hnum h) a n
  | none => false

/-- Bytes of the enrollment blob at an address, by its CERT_LEN and SIG_LEN, at most 8 KiB (R467). -/
def blobSize (s : State) (a : Nat) : Nat := min 8192 (8 + hbmNat s a 4 + hbmNat s (a + 4) 4)

/-- A write of NVM_CFG_CMD by the owner: a reserved OP, and a SRC that does not lie in the owner's head range, discard it
(R496). -/
def cfgCmdWrite (m : Master) (v : Nat) (s : State) : State :=
  let op := bits v 0 3
  let a := bits v 12 34 * 4096
  let reg := put nvmCfgCmd (BitVec.ofNat 64 (op + bits v 12 34 * 2 ^ 12))
  let refuse := refusedWrite m nvmCfgCmd 64 s
  match op with
  | 0 => reg s
  | 1 =>
    if inOwnRange s m a 1536 then
      let r := storeRead a 1536 (reg s)
      (installCfg r.1 r.2).2
    else refuse
  | 2 =>
    if inOwnRange s m a 8 && inOwnRange s m a (blobSize s a) then
      let r := storeRead a (blobSize s a) (reg s)
      (enrollBlob r.1 r.2).2
    else refuse
  | 3 => selectCfg 0 (reg s)
  | 4 => selectCfg 1 (reg s)
  | _ => refuse

/-- The word of NVM_CFG_CMD with an OP and a SRC in 4 KiB units. -/
def cfgCmdWord (op src : Nat) : Nat := op % 8 + src % 2 ^ 34 * 2 ^ 12

/-- INSTALL (R470). -/
def execInstall (m : Master) (src : Nat) (s : State) : Host.Outcome State Fault Refusal :=
  .next (powered (asOwner m nvmCfgCmd 64 (cfgCmdWrite m (cfgCmdWord 1 src))) s)

/-- ENROLL (R467). -/
def execEnroll (m : Master) (src : Nat) (s : State) : Host.Outcome State Fault Refusal :=
  .next (powered (asOwner m nvmCfgCmd 64 (cfgCmdWrite m (cfgCmdWord 2 src))) s)

/-- SELECT_CURRENT (R471). -/
def execSelectCurrent (m : Master) (s : State) : Host.Outcome State Fault Refusal :=
  .next (powered (asOwner m nvmCfgCmd 64 (cfgCmdWrite m 3)) s)

/-- SELECT_PREVIOUS (R471). -/
def execSelectPrevious (m : Master) (s : State) : Host.Outcome State Fault Refusal :=
  .next (powered (asOwner m nvmCfgCmd 64 (cfgCmdWrite m 4)) s)

/-- CFG_CMD_RESERVED: a reserved OP is discarded and logged (R496). An OP that is not reserved is not this command's. -/
def execCfgCmdReserved (m : Master) (op : Nat) (s : State) : Host.Outcome State Fault Refusal :=
  .next (powered (fun s =>
    if 5 ≤ op % 8 then asOwner m nvmCfgCmd 64 (cfgCmdWrite m (op % 8)) s else s) s)

/-- Whether an offset is half of a register that acts on a 64-bit write only (R532). -/
def halfCommand (off : Nat) : Bool :=
  off == supSeasonCmd || (off == supSeasonCmd + 4 || (off == nvmCfgCmd || off == nvmCfgCmd + 4))

/-- HALF_COMMAND: a 32-bit write to half of SUP_SEASON_CMD or NVM_CFG_CMD is discarded and logged under R17, whoever
writes it (R532, R568). A write elsewhere is not this command's. -/
def execHalfCommand (m : Master) (off _v : Nat) (s : State) : Host.Outcome State Fault Refusal :=
  .next (powered (fun s => if halfCommand off then logAccess accHalf m off 32 true s else s) s)

/-! ### NVM_UPD_CTRL and NVM_UPD_CMD (R480, R482, R492, R493) -/

/-- A write of NVM_UPD_CTRL by the owner: clearing PERMIT ends an upload, and TRIAL_MIN is taken within 1–120 (R481,
R492). -/
def updCtrlWrite (v : Nat) (s : State) : State :=
  let s := upd nvmUpdCtrl NvmUpdCtrl.trialMin (max 1 (min 120 (bits v 1 7))) s
  if bit1 v 0 then upd nvmUpdCtrl NvmUpdCtrl.permit 1 s else clearPermit s

/-- PERMIT_WRITE (R480). -/
def execPermitWrite (m : Master) (v : Nat) (s : State) : Host.Outcome State Fault Refusal :=
  .next (powered (asOwner m nvmUpdCtrl 32 (updCtrlWrite v)) s)

/-- TRIAL_MIN as it acts: 1 to 120 minutes (R492). -/
def trialMin (s : State) : Nat := max 1 (min 120 (get s nvmUpdCtrl NvmUpdCtrl.trialMin))

/-- Write an ARM record for the STAGED inactive slot, which becomes ARMED (R482, R483). -/
def arm (s : State) : State :=
  let t := fwInactive s
  writeBoot 1 (fwActive s) t 0 (trialMin s) 0 (mdigest s t) false (setFwSlot t fsArmed 0 s)

/-- Sectors of 64 KiB in a slot. -/
def slotSectors : Nat := 3840

/-- Note that sectors of a slot are erased, on the slot's own device (R461, R525). -/
def slotErased (i n : Nat) (s : State) : State :=
  let k := tget (fun _ => 0) s.nvm.slotErases i + n
  let s := nv (fun x => { x with slotErases := tset (fun _ => 0) i k x.slotErases }) s
  countErases i arSlot n s

/-- Make the inactive slot EMPTY: every sector of it is erased (R482). -/
def eraseSlot (i : Nat) (s : State) : State :=
  let s := slotErased i slotSectors (setSlot i { shipped := false, cells := [] } s)
  setRelease i false (setFwSlot i fsEmpty 0 s)

/-- Results of an act on the slots (R493). -/
def urOk : Nat := 1
def urState : Nat := 2

/-- Whether the slot states admit an act of NVM_UPD_CMD (R482). -/
def updAdmits (s : State) (op : Nat) : Bool :=
  let st := fwSlotSt s (fwInactive s)
  match op with
  | 1 => st == fsStaged && nvmOk s
  | 2 => st == fsStaged && nvmOk s
  | 3 => st == fsArmed && nvmOk s
  | 4 => onTrial s
  | 5 => st == fsEmpty || (st == fsStaged || st == fsInvalid)
  | 6 => s.nvm.upload.isSome
  | _ => false

/-- Perform an act that the slot states admit (R482, R486). -/
def updAct (op : Nat) (s : State) : State :=
  match op with
  | 1 => deviceReset .firmware (arm s)
  | 2 => arm s
  | 3 =>
    let t := fwInactive s
    writeBoot 2 (fwActive s) t 0 0 0 [] false (setFwSlot t fsStaged 0 s)
  | 4 => fallback brOwnerReject s
  | 5 => eraseSlot (fwInactive s) s
  | 6 => endUpload 0x24 s
  | _ => s

/-- A write of NVM_UPD_CMD by the owner: the reserved OP discards it; an act that the slot states do not admit is refused
with STATE (R482, R493). -/
def updCmdWrite (m : Master) (v : Nat) (s : State) : State :=
  let op := bits v 0 3
  if op = 7 then refusedWrite m nvmUpdCmd 32 s
  else
    let s := upd nvmUpdCmd NvmUpdCmd.op op s
    if op = 0 then s
    else if updAdmits s op then updAct op (upd nvmUpdCmd NvmUpdCmd.result urOk s)
    else upd nvmUpdCmd NvmUpdCmd.result urState s

/-- UPD_ACTIVATE (R482). -/
def execUpdActivate (m : Master) (s : State) : Host.Outcome State Fault Refusal :=
  .next (powered (asOwner m nvmUpdCmd 32 (updCmdWrite m 1)) s)

/-- ARM (R482). -/
def execArm (m : Master) (s : State) : Host.Outcome State Fault Refusal :=
  .next (powered (asOwner m nvmUpdCmd 32 (updCmdWrite m 2)) s)

/-- DISARM (R482). -/
def execDisarm (m : Master) (s : State) : Host.Outcome State Fault Refusal :=
  .next (powered (asOwner m nvmUpdCmd 32 (updCmdWrite m 3)) s)

/-- REJECT (R482, R486). -/
def execReject (m : Master) (s : State) : Host.Outcome State Fault Refusal :=
  .next (powered (asOwner m nvmUpdCmd 32 (updCmdWrite m 4)) s)

/-- ERASE (R482). -/
def execErase (m : Master) (s : State) : Host.Outcome State Fault Refusal :=
  .next (powered (asOwner m nvmUpdCmd 32 (updCmdWrite m 5)) s)

/-- ABORT (R482). -/
def execAbort (m : Master) (s : State) : Host.Outcome State Fault Refusal :=
  .next (powered (asOwner m nvmUpdCmd 32 (updCmdWrite m 6)) s)

/-- UPD_CMD_RESERVED (R493). -/
def execUpdCmdReserved (m : Master) (s : State) : Host.Outcome State Fault Refusal :=
  .next (powered (asOwner m nvmUpdCmd 32 (updCmdWrite m 7)) s)

/-! ### Trials (R485–R487) -/

/-- TRIAL_TIMER_EXPIRE: the hardware timer takes a device reset and latches its cause (R485). -/
def execTrialTimerExpire (s : State) : Host.Outcome State Fault Refusal :=
  .next (powered (fun s =>
    match s.nvm.timer with
    | some t =>
      if t ≤ s.devtime then deviceResetBy false .firmware (nv (fun n => { n with timerLatch := true }) s) else s
    | none => s) s)

/-- TRIAL_SPRING_LIMIT: no SUMMER or AUTUMN within 20 minutes of the supervisor's release (R485). -/
def execTrialSpringLimit (s : State) : Host.Outcome State Fault Refusal :=
  .next (powered (fun s =>
    if onTrial s && (s.nvm.firstRun.isNone && decide (s.boot.released + 20 * 60 * secTicks ≤ s.devtime)) then
      fallback brSpringLimit s
    else s) s)

/-- TRIAL_MIN of the running trial, as its COMMIT record holds it. -/
def trialSpan (s : State) : Nat := (s.nvm.bootRec.map (·.trialMin)).getD 0

/-- TRIAL_DEADLINE: not confirmed within TRIAL_MIN of the first entry into SUMMER or AUTUMN (R485). -/
def execTrialDeadline (s : State) : Host.Outcome State Fault Refusal :=
  .next (powered (fun s =>
    match s.nvm.firstRun with
    | some t =>
      if onTrial s && decide (t + trialSpan s * 60 * secTicks ≤ s.devtime) then fallback brDeadline s else s
    | none => s) s)

/-- TRIAL_HEALTH_BROKEN (R486). -/
def execTrialHealthBroken (s : State) : Host.Outcome State Fault Refusal :=
  .next (powered (fun s => if onTrial s then fallback brHealth s else s) s)

/-- The health conditions that the state shows (R486). -/
def healthy (s : State) : Bool :=
  ((List.range 12).all fun f => !fieldLive s f || s.boot.fcRunning.contains f) &&
    (((List.range (tileCount s)).all fun t => rd s (tilMcVer t) == s.boot.microcode) &&
      (([4, 5, 6, 7].all s.boot.loaded.contains) &&
        (get s supResetStat SupResetStat.fabricResets == 0 &&
          (get s supBootStat SupBootStat.stage != 8 && s.boot.fcFailed.isEmpty))))

/-- HOLD: min(60 s, TRIAL_MIN × 30 s). -/
def holdTicks (s : State) : Nat := min 60 (trialSpan s * 30) * secTicks

/-- The device has been in SUMMER or AUTUMN for HOLD without a break. -/
def heldLong (s : State) : Bool :=
  match s.nvm.runSince with
  | some t => decide (t + holdTicks s ≤ s.devtime)
  | none => false

/-- TRIAL_CONFIRM: with every health condition held for HOLD the CONFIRM record names the trial slot, the old slot becomes
STAGED, and the timer stops (R485–R487). -/
def execTrialConfirm (s : State) : Host.Outcome State Fault Refusal :=
  .next (powered (fun s =>
    if onTrial s && (healthy s && (heldLong s && nvmOk s)) then
      let old := fwActive s
      let t := otherSlot old
      let s := setFwSlot t fsActive 0 (if fwSlotSt s old = fsUnavailable then s else setFwSlot old fsStaged 0 s)
      let s := writeBoot 4 t t 0 0 0 [] false s
      let s := upd nvmUpdStat NvmUpdStat.trial 0 (upd nvmUpdStat NvmUpdStat.tboots 0 s)
      nv (fun n => { n with timer := none }) s
    else s) s)

/-! ### NVM devices (R464) -/

/-- NVM_DEVICE_FAIL: the device is out of service and its slot unavailable until the next power-on reset; the store
continues on the other. An upload into its slot ends. -/
def execNvmDeviceFail (b : Bool) (s : State) : Host.Outcome State Fault Refusal :=
  .next (powered (fun s =>
    let i := b2n b
    if s.nvm.failed.contains i then s
    else
      let s := if (s.nvm.upload.map (·.slot)) == some i then endUpload 0x25 s else s
      let s := nv (fun n => { n with failed := n.failed ++ [i] }) s
      let s := upd nvmUpdStat (if b then NvmUpdStat.nvmBOk else NvmUpdStat.nvmAOk) 0 s
      logOpen sevDegrade kFault bNvm 464 0 i (upd (nvmSlotStat i) NvmSlotStat.state fsUnavailable s)) s)

end Sys2Proof.Machine
end

