-- ==== Sys2Proof/Machine/Access.lean ====
section
/-! DEFINITION. Accesses to the register space: what a read returns, and what a write to any register does (R17–R21, R310,
R530–R538, R546, R566, R568). -/

namespace Sys2Proof.Machine

open Sys2Proof

/-! ### Registers whose contents are computed when they are read -/

/-- Ticks left in whole units. -/
def leftIn (s : State) (t unit : Nat) : Nat := (t - s.devtime) / unit

/-- OWN_STAT with LEASE_LEFT. -/
def ownStatView (s : State) : Reg :=
  setF (rd s ownStat) OwnStat.leaseLeft (if (owner s).isSome then leftIn s s.own.expiry msTicks else 0)

/-- NVM_UPD_STAT with TRIAL_LEFT. -/
def updStatView (s : State) : Reg :=
  setF (rd s nvmUpdStat) NvmUpdStat.trialLeft (match s.nvm.firstRun with
    | some t => if onTrial s then leftIn s (t + trialSpan s * 60 * secTicks) (60 * secTicks) else 0
    | none => 0)

/-- SUP_MAP_STAT (R458). -/
def mapStatView (s : State) : Reg :=
  let lost := (List.range 12).find? fun f => !fieldLive s f
  let v := setF (setF (setF 0 SupMapStat.live s.boot.map.live) SupMapStat.logical (tileCount s))
    SupMapStat.degraded (b2n (degraded s))
  setF (setF v SupMapStat.lostField (lost.getD 0xF)) SupMapStat.lostCause
    (lost.elim 0 fun f => bits (mapField s.boot.map f) 2 3)

/-- FLD_SITE_STAT of a field (R458). -/
def siteStatView (s : State) (f : Nat) : Reg :=
  let n (st : Nat) : Nat := (sitesWith s.boot.map f st).length
  setF (setF (setF (setF (setF (setF 0 FldSiteStat.logical (n stLogical)) FldSiteStat.standby (n stStandby))
    FldSiteStat.dormant (n stDormant)) FldSiteStat.failed (n stFailed)) FldSiteStat.cooling (n stCooling))
    FldSiteStat.fused (n stFused)

/-- PWR_ADMIT_STAT of a field with WAITING and HEAD. -/
def admitView (s : State) (f : Nat) : Reg :=
  let q := admitQueue s f
  setF (setF (rd s (pwrAdmitStat f)) PwrAdmitStat.waiting q.length) PwrAdmitStat.head
    (q.head?.elim 0x1F fun r => r.cluster % 20)

/-- TIL_STAT of a tile with its queues (R118). -/
def tilStatView (s : State) (t : Nat) : Reg :=
  let x := tile s t
  setF (setF (setF (rd s (tilStat t)) TilStat.passq x.passQ.length) TilStat.kernq x.kernQ.length)
    TilStat.spBusy (b2n x.kernel.isSome)

/-- TIL_SITE of a tile (R121). -/
def tilSiteView (s : State) (t : Nat) : Reg :=
  let n := siteOf s t
  setF (setF (setF (setF (setF 0 TilSite.f (siteField n)) TilSite.x (siteX n)) TilSite.y (siteY n))
    TilSite.cluster (siteCluster n)) TilSite.logical t

/-- TIL_DMA_STAT of an engine with its queue and credits (R181). -/
def dmaStatView (s : State) (t e : Nat) : Reg :=
  let x := tget (fun _ => {}) (tile s t).engines e
  setF (setF (setF (rd s (tilDmaStat t e)) TilDmaStat.busy (b2n x.run.isSome)) TilDmaStat.queued x.queue.length)
    TilDmaStat.outstanding (x.run.elim 0 fun r => r.credits.length)

/-- The contents of the register that starts at an offset, as a read finds them. -/
def regView (s : State) (off : Nat) : Reg :=
  if off = ownStat then ownStatView s
  else if off = nvmUpdStat then updStatView s
  else if off = supMapStat then mapStatView s
  else if off = supDieId0 then Config.dieId.setWidth 64
  else if off = supDieId0 + 8 then (Config.dieId >>> 64).setWidth 64
  else if off = timDevtime then BitVec.ofNat 64 s.devtime
  else if 0x20000 ≤ off ∧ off < 0x2C000 ∧ off % 0x1000 = 0x28 then siteStatView s ((off - 0x20000) / 0x1000)
  else if 0x20000 ≤ off ∧ off < 0x2C000 ∧ off % 0x1000 = 0x08 then admitView s ((off - 0x20000) / 0x1000)
  else if 0x1000000 ≤ off ∧ off % 0x8000 = 0x04 then tilStatView s (pageTile off)
  else if 0x1000000 ≤ off ∧ off % 0x8000 = 0x10 then tilSiteView s (pageTile off)
  else if 0x1000000 ≤ off ∧ 0x80 ≤ off % 0x8000 ∧ off % 0x8000 < 0xA0 then
    dmaStatView s (pageTile off) ((off % 0x8000 - 0x80) / 8)
  else rd s off

/-! ### Reads (R17, R18, R21, R310, R531, R537) -/

/-- A read of 32 bits of a register: all ones while its domain is off; WO fields read zero. -/
def regRead (s : State) (d : RegDesc) (off : Nat) (high : Bool) : Nat :=
  if regOff s off then 2 ^ 32 - 1
  else
    let v := (regView s off &&& ~~~(BitVec.ofNat 64 d.wo)).toNat
    if high then v / 2 ^ 32 else v % 2 ^ 32

/-- A byte of the FLD_SITE page: the site status of R432; and two bytes of the CON_EPID page: the attachment of an endpoint,
of a logical tile the site that the map in force gives it; zero, with VALID 0, where there is none (R240). -/
def siteByte (s : State) (n : Nat) : Nat := if n < 960 then (mapByte s.boot.map n).toNat else 0
def epidWord (s : State) (e : Nat) : Nat :=
  if epLive s e then
    let a := if epIsTile e then (siteRouter (siteOf s e), sitePort (siteOf s e)) else attachWord e false
    a.1 + a.2 * 256 + 2 ^ 15
  else 0

/-- Whether an offset lies in a head's CXL register blocks, whose registers CXL 3.1 gives (R544). -/
def inCxlBlock (off : Nat) : Bool :=
  decide (0x800000 ≤ off) && (decide (off < 0x880000) &&
    (decide (0x10000 ≤ off % 0x40000) && decide (off % 0x40000 < 0x22000)))

/-- A read of the 32 bits at an offset that is a multiple of 4. What a register of the CXL blocks holds is CXL's. -/
def read32 (s : State) (off : Nat) : Nat × State :=
  if 0xE000 ≤ off ∧ off < 0xE3C0 then
    ((List.range 4).foldl (fun v i => v + siteByte s (off - 0xE000 + i) * 2 ^ (8 * i)) 0, s)
  else if 0xC000 ≤ off ∧ off < 0xE000 then
    (epidWord s ((off - 0xC000) / 2) + epidWord s ((off - 0xC000) / 2 + 1) * 2 ^ 16, s)
  else if inCxlBlock off then
    if headOff s ((off - 0x800000) / 0x40000) then (2 ^ 32 - 1, s) else freeNat 32 s
  else match regAt off with
    | some d => (regRead s d off false, s)
    | none =>
      match regAt (off - 4) with
      | some d => (if d.width = 64 ∧ 4 ≤ off then regRead s d (off - 4) true else 0, s)
      | none => (0, s)

/-- Whether R17 admits an access: 32 or 64 bits, naturally aligned. -/
def admitted (off width : Nat) : Bool := (width == 32 && off % 4 == 0) || (width == 64 && off % 8 == 0)

/-- A read by a master: zero and an access error where R17 does not admit it. -/
def busRead (m : Master) (off width : Nat) (s : State) : Nat × State :=
  if !admitted off width then (0, logAccess accError m off width false s)
  else if width = 32 then read32 s off
  else
    let a := read32 s off
    let b := read32 a.2 (off + 4)
    (a.1 + b.1 * 2 ^ 32, b.2)

/-! ### What a write does to each register -/

/-- A field's value within its limits. -/
def clamp (lo hi v : Nat) : Nat := max lo (min hi v)

/-- Set a field of a word to itself within limits (R566). -/
def clampF (f : Fld) (lo hi : Nat) (v : Reg) : Reg := setF v f (clamp lo hi (getF v f))

/-- SUP_DF_CTRL (R152). -/
def dfCtrlWrite (v : Reg) (s : State) : State :=
  put supDfCtrl (clampF SupDfCtrl.quietLog2 8 15 (clampF SupDfCtrl.horizonLog2 12 24 v)) s

/-- PWR_LIMIT (R402). -/
def pwrLimitWrite (v : Reg) (s : State) : State :=
  setWinterReq (getF v PwrLimit.winterReq == 1)
    (upd pwrLimit PwrLimit.fill (getF v PwrLimit.fill)
      (upd pwrLimit PwrLimit.sustW (clamp 2000 12000 (getF v PwrLimit.sustW)) s))

/-- CLK_CTRL (R424): a TARGET_DIV that is no divider point discards the write. -/
def clkCtrlWrite (m : Master) (v : Reg) (s : State) : State :=
  if isDiv (getF v ClkCtrl.targetDiv) then followTarget (put clkCtrl (clampF ClkCtrl.holdS 10 1023 v) s)
  else refusedWrite m clkCtrl 32 s

/-- CLK_MARGIN_CFG (R426): CRIT_PS < WARN_PS < RELAX_PS. -/
def marginWrite (m : Master) (v : Reg) (s : State) : State :=
  if getF v ClkMarginCfg.critPs < getF v ClkMarginCfg.warnPs ∧ getF v ClkMarginCfg.warnPs < getF v ClkMarginCfg.relaxPs then
    put clkMarginCfg v s
  else refusedWrite m clkMarginCfg 32 s

/-- INT_CTRL: a mode that differs from the one in force waits for the next batch start (R346, R350, R352). -/
def intCtrlWrite (m : Master) (v : Reg) (s : State) : State :=
  if 6 ≤ getF v IntCtrl.mode then refusedWrite m intCtrl 32 s
  else
    let s := put intCtrl (clampF IntCtrl.rephaseLog2 4 20 (clampF IntCtrl.scrubMin 1 255 v)) s
    upd intStat IntStat.pending (b2n (getF v IntCtrl.mode != intMode s)) s

/-- CON_CTRL (R250). -/
def conCtrlWrite (v : Reg) (s : State) : State :=
  let v := clampF ConCtrl.rate 7 16 (clampF ConCtrl.ctlTo 2 255 (clampF ConCtrl.dataTo 2 255 v))
  put conCtrl (setF v ConCtrl.loWm (min (getF v ConCtrl.loWm) (getF v ConCtrl.hiWm - 1))) s

/-- HBM_CTRL: a write of TEST_POR or TEST_DEV 0b11 is discarded and logged (R276, R566). -/
def hbmCtrlWrite (m : Master) (v : Reg) (s : State) : State :=
  if getF v HbmCtrl.testPor = 3 ∨ getF v HbmCtrl.testDev = 3 then refusedWrite m hbmCtrl 32 s else put hbmCtrl v s

/-- OWN_CFG (R327). -/
def ownCfgWrite (v : Reg) (s : State) : State :=
  upd ownCfg OwnCfg.leaseMs (clamp 10 1000 (getF v OwnCfg.leaseMs)) (upd ownCfg OwnCfg.claimWinMs (getF v OwnCfg.claimWinMs) s)

/-- PWR_CL_CFG of a cluster (R381). -/
def clCfgWrite (g : Nat) (v : Reg) (s : State) : State := setIlimEff g (put (pwrClCfg g) (clampF PwrClCfg.ilim 16 60 v) s)

/-- A write of an MSI-X vector's data and control: unmasking a vector whose pending bit is set sends its message
(R320). -/
def msixDataWrite (h k : Nat) (v : Reg) (s : State) : State :=
  let s := put (msixData h k) v s
  let p := (rd s (msixPba h (k / 64))).toNat
  if getF v MsixData.mask = 0 ∧ bit1 p (k % 64) then
    signalVector h k (put (msixPba h (k / 64)) (BitVec.ofNat 64 (p - 2 ^ (k % 64))) s)
  else s

/-- A write of RW and RW1C fields: a 1 clears an RW1C bit, RW fields take the value. -/
def plainWrite (d : RegDesc) (off : Nat) (new set : Reg) (s : State) : State :=
  let rw := BitVec.ofNat 64 d.rw
  put off ((rd s off &&& ~~~rw &&& ~~~(set &&& BitVec.ofNat 64 d.rw1c)) ||| (new &&& rw)) s

/-- One write of a register: where it starts, the access that carries it, its new contents, and the bits written as ones;
of a half, the other half is unchanged in `new` and zero in `set`. -/
structure Store where
  off : Nat
  at_ : Nat
  width : Nat
  new : Reg
  set : Reg

/-- A permitted write of a register of the device pages. -/
def deviceWrite (m : Master) (d : RegDesc) (x : Store) (s : State) : State :=
  let v := x.new
  let n := v.toNat
  if x.off = supDfCtrl then dfCtrlWrite v s
  else if x.off = supSeasonCmd then seasonCmdWrite m n s
  else if x.off = supSlotCfg then slotCfgWrite m x.at_ x.width n s
  else if x.off = supResetCmd then resetCmdWrite m (n % 4) s
  else if x.off = supRepairCmd then repairCmdWrite m (n % 4) (bits n 2 4) s
  else if x.off = ownCfg then ownCfgWrite v s
  else if x.off = ownHeadRange 0 then headRangeWrite m 0 n s
  else if x.off = ownHeadRange 1 then headRangeWrite m 1 n s
  else if x.off = ownCmdSvc then ownCmdWrite .svc n s
  else if x.off = pwrCmd then pwrCmdWrite m (n % 4) s
  else if x.off = pwrLimit then pwrLimitWrite v s
  else if x.off = clkCtrl then clkCtrlWrite m v s
  else if x.off = clkMarginCfg then marginWrite m v s
  else if x.off = timEpoch then epochWrite .full n s
  else if x.off = intCtrl then intCtrlWrite m v s
  else if x.off = conCtrl then conCtrlWrite v s
  else if x.off = hbmCtrl then hbmCtrlWrite m v s
  else if x.off = hbmRetireCmd then retireCmdWrite m (n % 1024) (bits n 10 2) s
  else if x.off = nvmUpdCtrl then updCtrlWrite n s
  else if x.off = nvmUpdCmd then updCmdWrite m n s
  else if x.off = nvmCfgCmd then cfgCmdWrite m n s
  else if x.off = ledLogCtrl then put ledLogCtrl (clampF LedLogCtrl.hostMin 1 5 v) s
  else if x.off = lifStat then lifStatWrite x.set.toNat s
  else if 0x5100 ≤ x.off ∧ x.off < 0x5180 then lnkNarrowWrite m ((x.off - 0x5100) / 8) x.at_ x.width n s
  else plainWrite d x.off v x.set s

/-- A permitted write of a register of the cluster array, the field pages or the link array. -/
def arrayWrite (d : RegDesc) (x : Store) (s : State) : State :=
  if x.off < 0x20000 then clCfgWrite ((x.off - 0x10000) / 0x20) x.new s
  else if x.off < 0x30000 then
    (if bit1 x.set.toNat 0 then lnkCntClear ((x.off - 0x20000) / 0x1000) s else s)
  else if x.off < 0x31800 then lnkCtrlWrite ((x.off - 0x30000) / 0x40) x.new.toNat s
  else plainWrite d x.off x.new x.set s

/-- A permitted write of a register of a head page (R316, R317, R320, R325). -/
def headWrite (m : Master) (d : RegDesc) (x : Store) (s : State) : State :=
  let h := (x.off - 0x800000) / 0x40000
  let o := x.off % 0x40000
  let n := x.new.toNat
  if o < 0x200 then sqCfgWrite m h (o / 8) x.at_ x.width n s
  else if o < 0x400 then cqCfgWrite m h ((o - 0x200) / 8) x.at_ x.width n s
  else if o = 0x610 then ownCmdWrite (if h = 0 then .ha else .hb) n s
  else if 0x1000 ≤ o ∧ o < 0x1100 then sqDoorbell h ((o - 0x1000) / 4) (n % 4096) s
  else if 0x1100 ≤ o ∧ o < 0x1200 then cqDoorbell h ((o - 0x1100) / 4) (n % 4096) s
  else if 0x2000 ≤ o ∧ o < 0x2410 ∧ o % 16 = 8 then msixDataWrite h ((o - 0x2000) / 16) (x.new &&& BitVec.ofNat 64 d.rw) s
  else plainWrite d x.off x.new x.set s

/-- A permitted write of a register of a tile page (R63, R113, R119, R145). -/
def tileWrite (d : RegDesc) (x : Store) (s : State) : State :=
  let t := pageTile x.off
  let o := x.off % 0x8000
  if o = 0 then tilCtrlWrite t x.new.toNat s
  else if o = 0x08 then (if bit1 x.set.toNat 31 then put (tilFault t) 0 s else s)
  else if o = 0x20 then (if bit1 x.set.toNat 63 then put (tilDfFault t) 0 s else s)
  else plainWrite d x.off x.new x.set s

/-- A permitted write. -/
def storeReg (m : Master) (d : RegDesc) (x : Store) (s : State) : State :=
  if x.off < 0x10000 then deviceWrite m d x s
  else if x.off < 0x800000 then arrayWrite d x s
  else if x.off < 0x1000000 then headWrite m d x s
  else tileWrite d x s

/-! ### Writes (R17–R19, R310, R531–R537) -/

/-- The master to which a register belongs for R18: a head's page to its host, the SVC instance of OWN_CMD to the service
client, every other to none (R535). -/
def regMaster (off : Nat) : Option Master :=
  if off = ownCmdSvc then some .svc
  else if 0x800000 ≤ off ∧ off < 0x840000 then some .ha
  else if 0x840000 ≤ off ∧ off < 0x880000 then some .hb
  else none

/-- Perform a write as R18 and R19 judge it. A register that acts on a 64-bit write only takes no half (R532); a register or
half without a writable field ignores the write; a register whose domain is off discards it (R537). -/
def regWrite (m : Master) (d : RegDesc) (x : Store) (mask : Reg) (s : State) : State :=
  let writable := BitVec.ofNat 64 (d.rw ||| d.rw1c ||| d.wo ||| d.rwo) &&& mask
  if x.width = 32 ∧ halfCommand x.at_ then logAccess accHalf m x.at_ 32 true s
  else if writable = 0 ∨ regOff s x.off then s
  else
    let x := { x with new := (rd s x.off &&& ~~~writable) ||| (x.new &&& writable), set := x.set &&& writable }
    if d.rwo ≠ 0 then asOwner m x.at_ x.width (storeReg m d x) s
    else if m = .fw ∨ regMaster x.off = some m then storeReg m d x s
    else denied m x.at_ x.width s

/-- The low and the high half of a register. -/
def lowMask : Reg := 0xFFFFFFFF
def highMask : Reg := 0xFFFFFFFF00000000

/-- A write of the 32 bits at an offset that is a multiple of 4. The CXL register blocks belong to their head; what a write
does there CXL gives, and its commands have rows of their own. -/
def write32 (m : Master) (off v : Nat) (s : State) : State :=
  let w := v % 2 ^ 32
  if inCxlBlock off then
    if headOff s ((off - 0x800000) / 0x40000) ∨ m = .fw ∨ regMaster off = some m then s else denied m off 32 s
  else match regAt off with
    | some d => regWrite m d ⟨off, off, 32, BitVec.ofNat 64 w, BitVec.ofNat 64 w⟩ lowMask s
    | none =>
      match regAt (off - 4) with
      | some d =>
        if d.width = 64 ∧ 4 ≤ off then
          regWrite m d ⟨off - 4, off, 32, BitVec.ofNat 64 (w * 2 ^ 32), BitVec.ofNat 64 (w * 2 ^ 32)⟩ highMask s
        else s
      | none => s

/-- A write by a master: discarded with an access error where R17 does not admit it; 64 bits over two 32-bit registers are
two writes, the lower first. -/
def busWrite (m : Master) (off width v : Nat) (s : State) : State :=
  if !admitted off width then logAccess accError m off width true s
  else if width = 32 then write32 m off v s
  else
    match regAt off with
    | some d =>
      if d.width = 64 then regWrite m d ⟨off, off, 64, BitVec.ofNat 64 v, BitVec.ofNat 64 v⟩ (lowMask ||| highMask) s
      else write32 m (off + 4) (v / 2 ^ 32) (write32 m off v s)
    | none => write32 m (off + 4) (v / 2 ^ 32) (write32 m off v s)

/-! ### Meanings -/

/-- ACCESS_ERROR: an access of a width or alignment that R17 does not admit completes without effect and is logged (R17,
R568). An access that R17 admits is not this command's. -/
def execAccessError (m : Master) (off width : Nat) (write : Bool) (s : State) : Host.Outcome State Fault Refusal :=
  .next (powered (fun s =>
    if admitted off width then s
    else answer (if write then .done else .word 0) (logAccess accError m off width write s)) s)

/-- The order in which writes that reach the device in one cycle are applied: masters that are not the owner in the order
HA, HB, service port, then the owner, then device firmware (R19, R546). -/
def writeOrder (s : State) (ws : List RegWrite) : List RegWrite :=
  let o := owner (settle s)
  let of_ (m : Master) : List RegWrite := ws.filter fun w => w.master == m
  let others := [Master.ha, .hb, .svc].flatMap fun m => if o = some m then [] else of_ m
  let own := match o with
    | some m => of_ m
    | none => []
  others ++ own ++ of_ .fw

/-- REGISTER_WRITE: writes that reach the device in one cycle (R19). -/
def execRegisterWrite (ws : List RegWrite) (s : State) : Host.Outcome State Fault Refusal :=
  .next (powered (fun s =>
    answer .done ((writeOrder s ws).foldl (fun s w => busWrite w.master w.off w.width w.value s) s)) s)

end Sys2Proof.Machine
end

