-- ==== Sys2Proof/Machine/Deadlock.lean ====
section
/-! DEFINITION. Deadlock detection and spill (R146–R152). -/

namespace Sys2Proof.Machine

open Sys2Proof

/-! ### Deadlock detection (R146–R148) -/

/-- A wait: the unit waited for, and the queue through which. -/
structure Wait where
  tile : Nat
  unit : Nat
  qTile : Nat
  queue : Nat
  deriving DecidableEq, Repr

/-- Waits of a unit on its out edges: it has a complete group and lacks credit (R146). -/
def outWaits (s : State) (t u : Nat) : List Wait :=
  let x := tile s t
  let d := unitDesc x u
  if unitBusy x u || (firable x u).isNone then []
  else (outEdges d).filterMap fun e =>
    let c := edgeDesc x e
    if unGroup d * edRate c ≤ edgeCredit x e then none
    else (consumer (tile s (edTile c)) (edDq c)).map fun v => { tile := edTile c, unit := v, qTile := edTile c, queue := edDq c }

/-- Waits of a unit on its inputs: its oldest group lacks an operand there (R146). -/
def inWaits (s : State) (t u : Nat) : List Wait :=
  let x := tile s t
  let d := unitDesc x u
  if unitBusy x u || unKind d == ukSource then []
  else (inQueues d).filterMap fun q =>
    let whole := (groupTags (unitRun x u).base (unGroup d)).all fun g =>
      (List.range (quRate (queueDesc x q))).all fun i => holds x q g i
    if whole then none else (producer s t q).map fun p => { tile := p.1, unit := p.2, qTile := t, queue := q }

/-- Every wait of a unit, those on out edges first. -/
def waitsOf (s : State) (t u : Nat) : List Wait := outWaits s t u ++ inWaits s t u

/-- A unit is quiet: it waits, and in the present TCLK has neither fired nor received an operand (R146). DEDUCED from the
worked example of R152, whose unit K counts as quiet fewer than 2^QUIET_LOG2 TCLK after its last operand: the period of R147
is the tile's, and R146 sets none. -/
def isQuiet (s : State) (t u : Nat) : Bool :=
  !(waitsOf s t u).isEmpty && decide ((unitRun (tile s t) u).active < (tile s t).tclk)

/-- A frame of the depth-first search: a unit, the queue of the wait being followed, and the waits not yet tried. -/
structure SearchFrame where
  tile : Nat
  unit : Nat
  qTile : Nat := 768
  queue : Nat := 0
  left : List Wait
  deriving DecidableEq, Repr

/-- How a search stops: no deadlock; a cycle of members with their queues; or a field to be queried first. -/
inductive SearchEnd where
  | free (done : List (Nat × Nat)) (visited : Nat)
  | cycle (members : List (Nat × Nat × Nat × Nat))
  | query (field : Nat)
  deriving DecidableEq, Repr

/-- Members of a path, from the bottom of the stack. -/
def members (st : List SearchFrame) : List (Nat × Nat × Nat × Nat) :=
  st.reverse.map fun f => (f.tile, f.unit, f.qTile, f.queue)

/-- The part of a path from a unit on. -/
def pathFrom (t u : Nat) : List (Nat × Nat × Nat × Nat) → List (Nat × Nat × Nat × Nat)
  | [] => []
  | m :: r => if m.1 = t ∧ m.2.1 = u then m :: r else pathFrom t u r

/-- The depth-first search from a stack of frames, within the fields whose controllers have answered (R147). -/
def dfs (s : State) (known : List Nat) : Nat → List SearchFrame → List (Nat × Nat) → Nat → SearchEnd
  | 0, _, done, v => .free done v
  | _ + 1, [], done, v => .free done v
  | n + 1, f :: st, done, v =>
    match f.left with
    | [] => dfs s known n st ((f.tile, f.unit) :: done) v
    | w :: rest =>
      let f := { f with left := rest, qTile := w.qTile, queue := w.queue }
      let path := f :: st
      if !known.contains (tileField s w.tile) then .query (tileField s w.tile)
      else if path.any fun g => g.tile == w.tile && g.unit == w.unit then .cycle (pathFrom w.tile w.unit (members path))
      else if done.contains (w.tile, w.unit) || !isQuiet s w.tile w.unit then dfs s known n path done v
      else if 256 ≤ v + 1 then
        .cycle (members ({ tile := w.tile, unit := w.unit, left := [] } :: path))
      else dfs s known n ({ tile := w.tile, unit := w.unit, left := waitsOf s w.tile w.unit } :: path) done (v + 1)

/-- Search from each of a list of units in turn. -/
def searchFrom (s : State) (known : List Nat) (t : Nat) : List Nat → List (Nat × Nat) → Nat → SearchEnd
  | [], done, v => .free done v
  | u :: r, done, v =>
    if done.contains (t, u) || !isQuiet s t u then searchFrom s known t r done v
    else if 256 ≤ v + 1 then .cycle (members [{ tile := t, unit := u, left := [] }])
    else match dfs s known 4096 [{ tile := t, unit := u, left := waitsOf s t u }] done (v + 1) with
      | .free done' v' => searchFrom s known t r done' v'
      | x => x

/-- Units of a tile that wait on an out edge, in ascending order. -/
def outWaiters (s : State) (t : Nat) : List Nat := (unitNums (tile s t)).filter fun u => !(outWaits s t u).isEmpty

/-- A member's progress: its firings and the operands its queues have received. -/
def memberMark (s : State) (m : Nat × Nat × Nat × Nat) : Nat :=
  let x := tile s m.1
  (unitRun x m.2.1).fired + ((inQueues (unitDesc x m.2.1)).map fun q => (queueRun x q).got).foldl (· + ·) 0

/-- Set or clear a detector's search. -/
def setSearch (f : Nat) (v : Option Search) (s : State) : State :=
  { s with net := { s.net with searches := tset (fun _ => none) f v s.net.searches } }

/-- Whether two cycles have the same members. -/
def sameCycle (a b : List (Nat × Nat × Nat × Nat)) : Bool :=
  (a.all fun m => b.any fun k => k.1 == m.1 && k.2.1 == m.2.1) && (b.all fun m => a.any fun k => k.1 == m.1 && k.2.1 == m.2.1)

/-- The other fields that hold a member of a cycle. -/
def otherFields (s : State) (f : Nat) (c : List (Nat × Nat × Nat × Nat)) : List Nat :=
  (List.range 12).filter fun g => g != f && c.any fun m => tileField s m.1 == g

/-- A detector has found a cycle: of the detectors that have found it, that of the lowest-indexed field that holds a member
claims it, and the others drop it; the fields of the other members are queried again (R148). -/
def claimCycle (f : Nat) (se : Search) (c : List (Nat × Nat × Nat × Nat)) (s : State) : State :=
  let rival := fun g => g != f && (match tget (fun _ => none) s.net.searches g with
    | some o => sameCycle o.cycle c && !o.cycle.isEmpty
    | none => false)
  let holder := fun g => c.any fun m => tileField s m.1 == g
  if (List.range 12).any fun g => rival g && (holder g && (decide (g < f) || !holder f)) then setSearch f none s
  else
    let s := ((List.range 12).filter rival).foldl (fun s g => setSearch g none s) s
    let s := setSearch f (some { se with cycle := c, marks := c.map (memberMark s), again := [] }) s
    (otherFields s f c).foldl (fun s g => sendAwaited (epField f) (epField g) ocMgmt [] s) s

/-- Run a detector's search as far as the answers allow; a wait into another field is queried by control packet. -/
def runSearch (f : Nat) (s : State) : State :=
  match tget (fun _ => none) s.net.searches f with
  | none => s
  | some se =>
    match searchFrom s (f :: se.answered) se.origin (outWaiters s se.origin) [] 0 with
    | .free _ _ => setSearch f none s
    | .query g => sendAwaited (epField f) (epField g) ocMgmt [] s
    | .cycle c => claimCycle f se c s

/-- Whether a detector takes a report: it has no search, or the tile that started it reports again before a cycle is found. -/
def takesReport (s : State) (f t : Nat) : Bool :=
  match tget (fun _ => none) s.net.searches f with
  | some se => se.cycle.isEmpty && se.origin == t
  | none => true

/-- QUIET_REPORT: a tile has been quiet for a multiple of the quiet period and a unit of it waits on an out edge: it
reports, and its field's detector searches; a search that another tile's report has started goes on (R147, R151, R152). -/
def execQuietReport (t : TileId) (s : State) : Host.Outcome State Fault Refusal :=
  .next (powered (fun s =>
    let q := (tile s t).quiet
    if bit1 s.req.dfCtrl 0 && (tileSt s t == tsRun && (!detectorsHeld s && (q != 0 &&
        (q % 2 ^ quietLog2 s.req.dfCtrl == 0 && (!(outWaiters s t).isEmpty && takesReport s (tileField s t) t))))) then
      runSearch (tileField s t) (setSearch (tileField s t) (some { origin := t, answered := [], cycle := [], marks := [] }) s)
    else s) s)

/-- DETECTOR_REPLY: a field controller answers a detector's query, and the search goes on; after the search has closed, it
answers for the recheck (R147, R148). -/
def execDetectorReply (f : FieldId) (peer : FieldId) (s : State) : Host.Outcome State Fault Refusal :=
  .next (powered (fun s =>
    match tget (fun _ => none) s.net.searches f with
    | some se =>
      if detectorsHeld s then s
      else if se.cycle.isEmpty then runSearch f (setSearch f (some { se with answered := peer.val :: se.answered }) s)
      else setSearch f (some { se with again := peer.val :: se.again }) s
    | none => s) s)

/-! ### Spill (R148–R151) -/

/-- Record a DEADLOCK fault; the entry in the error log is the tag fault's (R151, R152). -/
def deadlockFault (f t u q : Nat) (unresolved : Bool) (s : State) : State :=
  let s := if unresolved then satAdd (fldDldStat f) FldDldStat.unresolved 1 s else s
  tagFault t dfDeadlock u q (unitRun (tile s t) u).base s

/-- Whether queue `b` outranks queue `a` for a spill: a higher ratio of occupancy to depth, then the lower tile, then the
lower queue. -/
def outranks (s : State) (b a : Nat × Nat) : Bool :=
  let occ := fun (k : Nat × Nat) => occupancy (queueRun (tile s k.1) k.2)
  let dep := fun (k : Nat × Nat) => quDepth (queueDesc (tile s k.1) k.2)
  let l := occ b * dep a
  let r := occ a * dep b
  decide (r < l) || (l == r && (decide (b.1 < a.1) || (b.1 == a.1 && decide (b.2 < a.2))))

/-- The queue that a detector selects, among those on the cycle of depth 2 or more. -/
def selectQueue (s : State) (c : List (Nat × Nat × Nat × Nat)) : Option (Nat × Nat) :=
  let qs := (c.map fun m => (m.2.2.1, m.2.2.2)).filter fun k =>
    decide (k.1 < 768) && decide (2 ≤ quDepth (queueDesc (tile s k.1) k.2))
  match qs with
  | [] => none
  | a :: r => some (r.foldl (fun m b => if outranks s b m then b else m) a)

/-- Entries in use of a tile's AM spill region or of its HBM spill area. -/
def spillPlaces (x : TileState) (hbm : Bool) : List Nat :=
  x.queues.flatMap fun e => (e.2.spilled.filter fun r => r.hbm == hbm).map (·.place)

/-- The lowest `n` entries that are not in use. -/
def freePlaces (used : List Nat) (n : Nat) : List Nat :=
  ((List.range (used.length + n)).filter fun i => !used.contains i).take n

/-- Operands that a tile's AM spill region takes: four to a unit. -/
def spillRoom (s : State) (t : Nat) : Nat :=
  match activeSlot s with
  | some i => 4 * tlSpillUnits (tileRec s (slotBase s i) t)
  | none => 0

/-- Byte address of the first entry of a tile's AM spill region. -/
def spillStart (s : State) (t : Nat) : Nat :=
  match activeSlot s with
  | some i => 64 * tlSpillBase (tileRec s (slotBase s i) t)
  | none => 0

/-- Write a spilled operand to its entry. -/
def spillWrite (t : Nat) (r : SpillRef) (op : Nat) (s : State) : State :=
  if r.hbm then hbmStore (spillBase s t + 16 * r.place) (toBytes 16 op) s
  else updTile t (memWrite memAm (spillStart s t + 16 * r.place) (toBytes 16 op)) s

/-- Read an operand from HBM. Of one that HBM does not deliver the spec does not say what the routine returns: a free value. -/
def readOperand (a : Nat) (s : State) : Nat × State :=
  let b := hbmTouch a 16 s
  if b.1 then freeNat 128 b.2 else (fromBytes (hbmRead b.2 a 16), b.2)

/-- Read a spilled operand back: whether the read delivers it, and the operand (R330). -/
def spillRead (t : Nat) (r : SpillRef) (s : State) : Bool × Nat × State :=
  if r.hbm then (true, readOperand (spillBase s t + 16 * r.place) s)
  else
    let a := spillStart s t + 16 * r.place
    let b := readRange t memAm (a / 64) 1 s
    (b.1, memNat (tile b.2 t) memAm a 16, b.2)

/-- Insert an entry in tag order from a base. -/
def insertByTag (base : Nat) (o : SpillRef) : List SpillRef → List SpillRef
  | [] => [o]
  | a :: r =>
    if distance base o.tag < distance base a.tag ∨ (o.tag = a.tag ∧ o.idx < a.idx) then o :: a :: r
    else a :: insertByTag base o r

/-- Open the spill of a queue (R149): its operands leave the operand store for the spill region, in tag order, one entry is
reserved, and the timers pause. The record and counts are those of R152 and R154. -/
def openSpill (f t q n : Nat) (hbm : Bool) (s : State) : State :=
  let x := tile s t
  let r := queueRun x q
  let base := (unitRun x ((consumer x q).getD 0)).base
  let k := r.items.length
  let new := (r.items.zip (freePlaces (spillPlaces x hbm) k)).map fun i =>
    (({ tag := opTag i.1.op, idx := opIdx i.1.op, place := i.2, hbm := hbm } : SpillRef), i.1.op)
  let moved := new.foldl (fun l i => insertByTag base i.1 l) r.spilled
  let s := setQueue t q { r with items := [], spilled := moved, reserve := true, opening := true } s
  let s := new.foldl (fun s i => spillWrite t i.1 i.2 s) s
  let s := { s with req := { s.req with spills := s.req.spills + 1, spillOpen := (t, q) :: s.req.spillOpen } }
  let s := if counting s t then
      satAdd (queueCnt t q 1) ⟨48, 16⟩ 1 (satAdd (queueCnt t q 1) ⟨16, 32⟩ k s) else s
  let s := satAdd (fldDldStat f) (if hbm then FldDldStat.spillHbm else FldDldStat.spillAm) 1 s
  let l := fldDldLast f
  let s := upd l FldDldLast.length (min 255 n) (upd l FldDldLast.hbm (b2n hbm) (upd l FldDldLast.count k
    (upd l FldDldLast.queue q (upd l FldDldLast.tile t s))))
  let s := if hbm then upd (tilDmaStat t 3) TilDmaStat.suspended (b2n (engine s t 3).run.isSome) s else s
  logEvent ⟨sevNotice, kState, bFld, epField f, Config.logCode 152 (b2n hbm), t, Config.logDetail 152 (b2n hbm)⟩ s

/-- DEADLOCK_RECHECK: the claiming detector checks the cycle again and spills the queue it selects, or records a DEADLOCK
fault (R148, R149, R151). -/
def execDeadlockRecheck (f : FieldId) (s : State) : Host.Outcome State Fault Refusal :=
  .next (powered (fun s =>
    match tget (fun _ => none) s.net.searches f with
    | none => s
    | some se =>
      if se.cycle.isEmpty || (detectorsHeld s || !(otherFields s f se.cycle).all se.again.contains) then s
      else
        let s := satAdd (fldDldStat f) FldDldStat.cycles 1 (setSearch f none s)
        if se.cycle.map (memberMark s) != se.marks then satAdd (fldDldStat f) FldDldStat.abandoned 1 s
        else match selectQueue s se.cycle with
          | none => deadlockFault f se.origin ((outWaiters s se.origin).headD 0) 0xFF true s
          | some (t, q) =>
            let x := tile s t
            let u := (consumer x q).getD 0
            let k := (queueRun x q).items.length
            let limit := bits s.req.dfCtrl 11 8
            if limit ≠ 0 ∧ limit ≤ s.req.spills then deadlockFault f t u q false s
            else if (spillPlaces x false).length + k ≤ spillRoom s t then openSpill f t q se.cycle.length false s
            else if bit1 s.req.dfCtrl 10 ∧ (spillPlaces x true).length + k ≤ 65536 then
              openSpill f t q se.cycle.length true s
            else deadlockFault f t u q true s) s)

/-- SPILL_CLOSE: the spill writes have completed and the spill is announced: the producer's credit is set, the timers run
again, and a suspended engine 3 goes on (R149, R178). -/
def execSpillClose (t : TileId) (q : Nat) (s : State) : Host.Outcome State Fault Refusal :=
  .next (powered (fun s =>
    if !s.req.spillOpen.contains (t.val, q) then s
    else
      let x := tile s t
      let r := queueRun x q
      let keep := !r.spilled.isEmpty || r.items.any (·.drained)
      let s := { s with req := { s.req with spillOpen := s.req.spillOpen.filter (· != (t.val, q)) } }
      let s := upd (tilDmaStat t 3) TilDmaStat.suspended 0 (setQueue t q { r with opening := false, reserve := keep } s)
      let s := match feeder s t q with
        | some (t', e) => setCredit t' e (quDepth (queueDesc x q) - b2n keep - r.items.length) s
        | none => s
      checkEnd t 3 (pump t 3 1024 s)) s)

/-- SPILL_DRAIN: the routine returns the oldest spilled operand to its queue's reserved entry once that is free (R150). -/
def execSpillDrain (t : TileId) (q : Nat) (s : State) : Host.Outcome State Fault Refusal :=
  .next (powered (fun s =>
    let r := queueRun (tile s t) q
    if !tileWorks s t || (r.opening || r.items.any (·.drained)) then s
    else match r.spilled with
      | [] => s
      | o :: rest =>
        let a := spillRead t o s
        if a.1 then microRetired t (enqueue t q a.2.1 true (setQueue t q { r with spilled := rest } a.2.2)) else a.2.2) s)

end Sys2Proof.Machine
end

