-- ==== Sys2Proof/Machine/I3c.lean ====
section
/-! DEFINITION. The I3C target: addresses, common command codes, reads of the register space, and in-band interrupts
(R555–R557). -/

namespace Sys2Proof.Machine

open Sys2Proof

/-- Change the target's own state. -/
def i3 (f : I3cState → I3cState) (s : State) : State := { s with i3c := f s.i3c }

/-- The static address. -/
def i3cStatic : Nat := 0x5A

/-- Codes of the common commands whose data the spec leaves open. -/
def cccBcr : Nat := 0x8E
def cccDcr : Nat := 0x8F
def cccStatus : Nat := 0x90
def cccMwl : Nat := 0x8B
def cccMrl : Nat := 0x8C

/-- ENTDAA assigns a dynamic address to a target that has none. -/
def execEntdaa (addr : Nat) (s : State) : Host.Outcome State Fault Refusal :=
  .next (powered (fun s =>
    if s.i3c.dyn.isSome then answer .nack s else answer .done (i3 (fun x => { x with dyn := some addr }) s)) s)

/-- SETDASA sets a dynamic address at the static address, until which the target answers there. -/
def execSetdasa (target addr : Nat) (s : State) : Host.Outcome State Fault Refusal :=
  .next (powered (fun s =>
    if target = i3cStatic ∧ s.i3c.dyn = none then answer .done (i3 (fun x => { x with dyn := some addr }) s)
    else answer .nack s) s)

/-- RSTDAA. -/
def execRstdaa (s : State) : Host.Outcome State Fault Refusal :=
  .next (powered (fun s => answer .done (i3 (fun x => { x with dyn := none }) s)) s)

/-- GETPID: the provisional ID that OTP holds. -/
def execGetpid (s : State) : Host.Outcome State Fault Refusal :=
  .next (powered (answer (.i3c (toBytesBE 6 Config.provisionalId.toNat))) s)

/-- GETBCR. -/
def execGetbcr (s : State) : Host.Outcome State Fault Refusal := .next (powered (answer (.i3c (Config.i3cData cccBcr))) s)

/-- GETDCR. -/
def execGetdcr (s : State) : Host.Outcome State Fault Refusal := .next (powered (answer (.i3c (Config.i3cData cccDcr))) s)

/-- GETSTATUS. -/
def execGetstatus (s : State) : Host.Outcome State Fault Refusal :=
  .next (powered (answer (.i3c (Config.i3cData cccStatus))) s)

/-- GETMWL. -/
def execGetmwl (s : State) : Host.Outcome State Fault Refusal := .next (powered (answer (.i3c (Config.i3cData cccMwl))) s)

/-- GETMRL. -/
def execGetmrl (s : State) : Host.Outcome State Fault Refusal := .next (powered (answer (.i3c (Config.i3cData cccMrl))) s)

/-- I3C_CCC_UNSUPPORTED: every other command code is not acknowledged. -/
def execI3cCccUnsupported (_code : Nat) (s : State) : Host.Outcome State Fault Refusal :=
  .next (powered (answer .nack) s)

/-- I3C_PRIVATE_WRITE: exactly 4 bytes set the read offset; any other length is not acknowledged (R556). -/
def execI3cPrivateWrite (bytes : List Byte) (s : State) : Host.Outcome State Fault Refusal :=
  .next (powered (fun s =>
    if bytes.length = 4 then answer .done (i3 (fun x => { x with readOff := some (fromBytes bytes % 2 ^ 26) }) s)
    else answer .nack s) s)

/-- The 8-byte summary (R556). -/
def i3cSummary (s : State) : Nat :=
  let tmax : Int := (hottest s).getD 0
  let tin := signed 16 (get s pwrCoolStat PwrCoolStat.tIn)
  get s pwrState PwrState.state + get s supBootStat SupBootStat.stage * 2 ^ 3 + get s supBootStat SupBootStat.stopCode * 2 ^ 7
    + b2n s.i3c.alert * 2 ^ 15 + get s pwrInStat PwrInStat.vin * 2 ^ 16 + get s pwrWinStat PwrWinStat.avg1ms % 2 ^ 16 * 2 ^ 32
    + unsigned 8 (tmax / 10) * 2 ^ 48 + unsigned 8 (tin / 10) * 2 ^ 56

/-- I3C_PRIVATE_READ: the register at the offset, read as the service client reads it, or the summary, which clears ALERT
(R556, R557). -/
def execI3cPrivateRead (wide : Bool) (s : State) : Host.Outcome State Fault Refusal :=
  .next (powered (fun s =>
    match s.i3c.readOff with
    | some off =>
      let r := busRead .svc off (if wide then 64 else 32) (i3 (fun x => { x with readOff := none }) s)
      answer (.i3c (toBytes (if wide then 8 else 4) r.1)) r.2
    | none => answer (.i3c (toBytes 8 (i3cSummary s))) (i3 (fun x => { x with alert := false }) s)) s)

/-- The sideband outputs, each true while it is asserted: THERMTRIP# by the input supervisor's latch, ALERT# while an in-band
interrupt is pending, PWR_OK while the supervisor domain is in regulation (R552, R553). -/
structure Sideband where
  thermtrip : Bool
  alert : Bool
  pwrOk : Bool
  deriving DecidableEq, Repr

/-- The sideband outputs of a state. -/
def sideband (s : State) : Sideband where
  thermtrip := s.power.thermtrip
  alert := s.i3c.alert
  pwrOk := s.power.off.isNone && s.power.up.contains .supervisor

/-- I3C_IBI: an interrupt that waits is raised, at most one in 10 ms (R557). -/
def execI3cIbi (s : State) : Host.Outcome State Fault Refusal :=
  .next (powered (fun s =>
    let soon := match s.i3c.lastIbi with
      | some t => decide (s.devtime < t + 10 * msTicks)
      | none => false
    match s.i3c.ibi with
    | some b =>
      if soon then s else answer (.ibi b) (i3 (fun x => { x with ibi := none, lastIbi := some s.devtime }) s)
    | none => s) s)

end Sys2Proof.Machine
end

