-- ==== Sys2Proof/Machine/Spdm.lean ====
section
/-! DEFINITION. The SPDM 1.2 responder on its three transports: certificates, challenges and measurements (R502–R512). The
message codes and layouts are those of DMTF's SPDM 1.2, which the spec names and does not repeat (PRESUMED). -/

namespace Sys2Proof.Machine

open Sys2Proof

/-! ### Transports (R505) -/

/-- The number of a transport's connection: 0 DOE on HA, 1 DOE on HB, 2 SVC. -/
def transportNum : Transport → Nat
  | .doe h => hnum h
  | .svc => 2

/-- MaxSPDMmsgSize of a transport. -/
def spdmMax : Transport → Nat
  | .doe _ => 16384
  | .svc => 1184

/-- A transport's connection. -/
def spdmConn (tr : Transport) (s : State) : SpdmConn := tget (fun _ => {}) s.spdm (transportNum tr)

/-- Change a transport's connection. -/
def updConn (tr : Transport) (f : SpdmConn → SpdmConn) (s : State) : State :=
  { s with spdm := tset (fun _ => {}) (transportNum tr) (f (spdmConn tr s)) s.spdm }

/-! ### Answers (R506, R508) -/

/-- Error codes of SPDM. -/
def seInvalidRequest : Nat := 0x01
def seUnspecified : Nat := 0x05
def seUnsupportedRequest : Nat := 0x07
def seResponseTooLarge : Nat := 0x0D
def seVersionMismatch : Nat := 0x41

/-- An ERROR response, counted (R512). -/
def spdmError (code data : Nat) (s : State) : State :=
  answer (.spdm 0x7F [BitVec.ofNat 8 code, BitVec.ofNat 8 data]) (satAdd supIdStat SupIdStat.errors 1 s)

/-- The bytes of a response: version, code, and what follows. -/
def spdmBytes (code : Nat) (body : List Byte) : List Byte := [0x12, BitVec.ofNat 8 code] ++ body

/-- A response, or ERROR ResponseTooLarge when it exceeds the transport's size; `f` is what it does to the connection,
from its bytes. -/
def respond (tr : Transport) (code : Nat) (body : List Byte) (f : List Byte → SpdmConn → SpdmConn) (s : State) : State :=
  if spdmMax tr < 2 + body.length then spdmError seResponseTooLarge 0 s
  else answer (.spdm code body) (updConn tr (f (spdmBytes code body)) s)

/-- Take a request: one whose version is not 0x12 is answered with VersionMismatch. A request reaches DOE while the head's
link is up. -/
def spdmRequest (tr : Transport) (x : SpdmReq) (f : State → State) (s : State) : State :=
  let g (s : State) : State := if x.version ≠ 0x12 then spdmError seVersionMismatch 0 s else f s
  match tr with
  | .doe h => if linkUp s (hnum h) then g s else s
  | .svc => g s

/-- Whether the device identity key may be used (R500). -/
def deviceKeyOk : Bool := keyOk 0

/-- Sign a transcript with the device identity key: counted, logged, and fresh each time, as the salt is (R502, R512). -/
def signTranscript (msg : List Byte) (s : State) : List Byte × State :=
  let sig := padTo 512 (Config.sign 0 msg s.free)
  (sig, logOpen sevInfo kState bSup 512 0 0 (satAdd supIdStat SupIdStat.signed 1 { s with free := s.free + 1 }))

/-- A nonce of 32 bytes. -/
def spdmNonce (s : State) : List Byte × State :=
  let f := freeNat 256 s
  (toBytes 32 f.1, f.2)

/-! ### The slot 0 chain (R503, R507) -/

/-- The chain in the form of SPDM 1.2. -/
def certChain : List Byte :=
  let certs := certificate 0 ++ certificate 1 ++ certificate 2
  toBytes 2 (68 + certs.length) ++ [0, 0] ++ sha512 (certificate 0) ++ certs

/-! ### Measurements (R509–R511) -/

/-- The device mode value. -/
def deviceMode (s : State) : Nat :=
  get s nvmUpdStat NvmUpdStat.trial + get s nvmUpdStat NvmUpdStat.tboots * 2 + get s nvmCfgStat NvmCfgStat.restricted * 2 ^ 3
    + b2n (degraded s) * 2 ^ 4 + get s nvmCfgStat NvmCfgStat.operator * 2 ^ 5 + get s nvmCfgStat NvmCfgStat.enrolled * 2 ^ 8
    + (s.nvm.slot.getD 0) * 2 ^ 16 + get s queBootId QueBootId.boots * 2 ^ 32

/-- LIVE and LOGICAL of the map record in force, as the record holds them (R432). -/
def mapMeasured (s : State) : List Byte :=
  toBytes 2 s.boot.map.live ++ (List.range 768).flatMap fun l => toBytes 2 (siteOf s l)

/-- A block's index, value type and value. -/
structure MeasBlock where
  index : Nat
  ty : Nat
  value : List Byte

/-- The blocks that the device reports now, in index order (R509). -/
def measBlocks (s : State) : List MeasBlock :=
  let comps : List MeasBlock := match s.nvm.slot with
    | none => []
    | some i => ([1, 2, 3, 4, 5, 6, 7].filterMap fun ty => (compOf s i ty).map fun k => ⟨ty, 0x01, compDigest s i k⟩)
        ++ [⟨8, 0x01, mdigest s i⟩]
  let cfg : List Byte := match inForce s with
    | some bs => (bs.drop 32).take 64
    | none => List.replicate 64 0
  let quotes : List MeasBlock := (List.range 12).filterMap fun f =>
    let q := tget (fun _ => []) s.boot.quotes f
    if q.isEmpty then none else some ⟨16 + f, 0x81, q⟩
  comps ++ [⟨9, 0x03, cfg⟩, ⟨10, 0x02, sha512 (mapMeasured s)⟩, ⟨11, 0x02, Config.fuseDigest s.boot.fuse⟩,
    ⟨12, 0x85, toBytes 8 (deviceMode s)⟩] ++ quotes

/-- A block as a response carries it. -/
def measBytes (b : MeasBlock) : List Byte :=
  [BitVec.ofNat 8 b.index, 0x01] ++ toBytes 2 (b.value.length + 3) ++ [BitVec.ofNat 8 b.ty] ++ toBytes 2 b.value.length ++ b.value

/-- A snapshot of all blocks (R511). -/
def snapshot (s : State) : List (Nat × List Byte) := (measBlocks s).map fun b => (b.index, measBytes b)

/-- The measurement summary hash of a type: 1 TCB, 0xFF all (R510); none for type 0. -/
def summaryHash (s : State) (ty : Nat) : List Byte :=
  let bs := measBlocks s
  let tcb := bs.filter fun b => b.index ≤ 9 || b.index == 11
  if ty = 0 then [] else sha512 ((if ty = 1 then tcb else bs).flatMap (·.value))

/-! ### Meanings (R506) -/

/-- GET_VERSION: 1.2 only; a transcript ends (R506, R511). -/
def execGetVersion (tr : Transport) (x : SpdmReq) (s : State) : Host.Outcome State Fault Refusal :=
  .next (powered (spdmRequest tr x
    (respond tr 0x04 [0, 0, 0, 1, 0x00, 0x12] fun r _ => { vca := x.bytes ++ r })) s)

/-- GET_CAPABILITIES: CERT_CAP, CHAL_CAP, MEAS_CAP = 2; CTExponent 17 (R505, R506). -/
def execGetCapabilities (tr : Transport) (x : SpdmReq) (s : State) : Host.Outcome State Fault Refusal :=
  .next (powered (spdmRequest tr x
    (respond tr 0x61 ([0, 0, 0, 17, 0, 0] ++ toBytes 4 0x16 ++ toBytes 4 (spdmMax tr) ++ toBytes 4 (spdmMax tr))
      fun r c => { c with vca := c.vca ++ x.bytes ++ r })) s)

/-- NEGOTIATE_ALGORITHMS: the selected algorithms among those offered; a request that offers none of them is invalid
(R506). -/
def execNegotiateAlgorithms (tr : Transport) (x : SpdmReq) (s : State) : Host.Outcome State Fault Refusal :=
  let spec := fieldAt x.bytes 6 1 % 2
  let asym := b2n (bit1 (fieldAt x.bytes 8 4) 6)
  let hash := b2n (bit1 (fieldAt x.bytes 12 4) 2)
  .next (powered (spdmRequest tr x (fun s =>
    if spec + asym + hash = 0 then spdmError seInvalidRequest 0 s
    else respond tr 0x63 ([0, 0] ++ toBytes 2 36 ++ toBytes 1 spec ++ [0] ++ toBytes 4 (spec * 8) ++ toBytes 4 (asym * 2 ^ 6)
        ++ toBytes 4 (hash * 2 ^ 2) ++ List.replicate 16 0) (fun r c => { c with vca := c.vca ++ x.bytes ++ r }) s)) s)

/-- GET_DIGESTS (R506, R507). -/
def execGetDigests (tr : Transport) (x : SpdmReq) (s : State) : Host.Outcome State Fault Refusal :=
  .next (powered (spdmRequest tr x
    (respond tr 0x01 ([0, 1] ++ sha512 certChain) fun r c => { c with certs := c.certs ++ x.bytes ++ r })) s)

/-- GET_CERTIFICATE: a portion of the slot 0 chain, cut to fit the transport (R500, R506, R508). -/
def execGetCertificate (tr : Transport) (x : SpdmReq) (off len : Nat) (s : State) : Host.Outcome State Fault Refusal :=
  let part := (certChain.drop off).take (min len (spdmMax tr - 8))
  let left := certChain.length - off - part.length
  .next (powered (spdmRequest tr x (fun s =>
    if !deviceKeyOk then spdmError seUnspecified 0 s
    else if x.param1 % 16 ≠ 0 then spdmError seInvalidRequest 0 s
    else respond tr 0x02 ([0, 0] ++ toBytes 2 part.length ++ toBytes 2 left ++ part)
      (fun r c => { c with certs := c.certs ++ x.bytes ++ r }) s)) s)

/-- CHALLENGE: a signed response with a summary of its own snapshot (R506, R510, R511). -/
def challenge (tr : Transport) (x : SpdmReq) (s : State) : State :=
  if !deviceKeyOk then spdmError seUnspecified 0 s
  else if x.param1 ≠ 0 ∨ ¬(x.param2 = 0 ∨ x.param2 = 1 ∨ x.param2 = 0xFF) then spdmError seInvalidRequest 0 s
  else
    let n := spdmNonce s
    let body := [0, 1] ++ sha512 certChain ++ n.1 ++ summaryHash s x.param2 ++ [0, 0]
    let c := spdmConn tr s
    let sig := signTranscript (c.vca ++ c.certs ++ x.bytes ++ spdmBytes 0x03 body) n.2
    respond tr 0x03 (body ++ sig.1) (fun _ c => { c with certs := [] }) sig.2

/-- CHALLENGE (R506). The request's nonce stands in its bytes. -/
def execChallenge (tr : Transport) (x : SpdmReq) (_nonce : List Byte) (s : State) : Host.Outcome State Fault Refusal :=
  .next (powered (spdmRequest tr x (challenge tr x)) s)

/-- The measurement record of an index: none of index 0, all of 0xFF, else one block; `none` when the block is absent. -/
def measRecord (snap : List (Nat × List Byte)) (index : Nat) : Option (List (List Byte)) :=
  if index = 0 then some []
  else if index = 0xFF then some (snap.map (·.2))
  else (snap.find? fun e => e.1 == index).map fun e => [e.2]

/-- GET_MEASUREMENTS: blocks of the transcript's snapshot, signed when asked; a signed response ends the transcript (R506,
R508, R511). -/
def measurements (tr : Transport) (x : SpdmReq) (index : Nat) (sign : Bool) (s : State) : State :=
  let s := updConn tr (fun c => { c with snap := some (c.snap.getD (snapshot s)) }) s
  let snap := (spdmConn tr s).snap.getD []
  match measRecord snap index with
  | none => spdmError seInvalidRequest 0 s
  | some bs =>
    if sign && !deviceKeyOk then spdmError seUnspecified 0 s
    else
      let n := spdmNonce s
      let count := if index = 0 then snap.length else 0
      let body := toBytes 1 count ++ [0] ++ toBytes 1 bs.length ++ toBytes 3 bs.flatten.length ++ bs.flatten ++ n.1 ++ [0, 0]
      if sign then
        if spdmMax tr < 2 + body.length + 512 then spdmError seResponseTooLarge 0 s
        else
          let c := spdmConn tr s
          let sig := signTranscript (c.vca ++ c.meas ++ x.bytes ++ spdmBytes 0x60 body) n.2
          respond tr 0x60 (body ++ sig.1) (fun _ c => { c with meas := [], snap := none }) sig.2
      else respond tr 0x60 body (fun r c => { c with meas := c.meas ++ x.bytes ++ r }) n.2

/-- GET_MEASUREMENTS (R506, R511). -/
def execGetMeasurements (tr : Transport) (x : SpdmReq) (index : Nat) (sign : Bool) (_nonce : List Byte) (s : State) :
    Host.Outcome State Fault Refusal :=
  .next (powered (spdmRequest tr x (measurements tr x index sign)) s)

/-- SPDM_UNSUPPORTED: any other request is answered with ERROR UnsupportedRequest, which carries its code (R506). -/
def execSpdmUnsupported (tr : Transport) (x : SpdmReq) (s : State) : Host.Outcome State Fault Refusal :=
  .next (powered (spdmRequest tr x (spdmError seUnsupportedRequest (fieldAt x.bytes 1 1))) s)

end Sys2Proof.Machine
end

