-- ==== Sys2Proof/Machine/Svc.lean ====
section
/-! DEFINITION. The service port: its addresses, how a session opens and closes, and the messages of a session
(R472–R476, R480, R481, R498, R524). -/

namespace Sys2Proof.Machine

open Sys2Proof

/-- Change the service port's own state. -/
def sv (f : SvcState → SvcState) (s : State) : State := { s with svc := f s.svc }

/-! ### Messages (R473) -/

/-- STATUS codes. -/
def ssOk : Nat := 0
def ssBadMsg : Nat := 1
def ssBusy : Nat := 3
def ssDenied : Nat := 4
def ssRange : Nat := 5
def ssState : Nat := 6
def ssVerify : Nat := 7

/-- The 32-byte header of a message. -/
def svcHeader (type session seq len status : Nat) (reply : Bool) : List Byte :=
  toBytes 32 (0x5946 + 2 ^ 16 + type * 2 ^ 24 + session % 2 ^ 32 * 2 ^ 32 + seq % 2 ^ 32 * 2 ^ 64 + len % 2 ^ 11 * 2 ^ 96
    + status * 2 ^ 112 + b2n reply * 2 ^ 120)

/-- The MAC of a message: the first 32 bytes of HMAC-SHA-512 over the header and the payload. -/
def svcMac (key header payload : List Byte) : List Byte := (hmac512 key (header ++ payload)).take 32

/-- The longest payload of a message. -/
def svcMaxPayload : Nat := 1184

/-- A reply with a MAC under a session key. -/
def macReply (key : List Byte) (type status session seq : Nat) (payload : List Byte) (s : State) : State :=
  answer (.svcReply type status session seq payload
    (svcMac key (svcHeader type session seq payload.length status true) payload)) s

/-- A reply outside a session, without a MAC. -/
def plainReply (type status session seq : Nat) (payload : List Byte) (s : State) : State :=
  answer (.svcReply type status session seq payload []) s

/-! ### Sessions (R474, R475) -/

/-- The session closes: an upload on it ends, and the service client is no longer present (R323, R475, R481). -/
def closeSession (s : State) : State :=
  let s := endUpload 0x24 s
  let s := sv (fun v => { v with key := none, session := 0, low := 1, replies := [], cfgPart := [], enrollPart := []
                                 events := [], eventSeq := 1 }) s
  reholder (upd nvmSvcStat NvmSvcStat.session 0 (upd nvmSvcStat NvmSvcStat.key 0 s))

/-- The session has had no valid message for 30 s. -/
def sessionLapsed (s : State) : Bool := s.svc.key.isSome && decide (s.svc.lastMsg + 30 * secTicks ≤ s.devtime)

/-- Close a session whose 30 s have passed. -/
def sessionDue (s : State) : State := if sessionLapsed s then closeSession s else s

/-- The half-open session, unless its 5 s have passed. -/
def halfOpen (s : State) : Option HalfOpen := s.svc.half.filter fun h => decide (s.devtime < h.since + 5 * secTicks)

/-- HELLO messages answered within the last second. -/
def recentHello (s : State) : List Nat := s.svc.helloAt.filter fun t => decide (s.devtime < t + secTicks)

/-- HELLO: refused with BUSY during a session; else a half-open session with fresh SESSION and Nd. At most four are
answered in a second, and none while HELLO is ignored (R474, R475). -/
def hello (x : SvcHdr) (nc : List Byte) (s : State) : State :=
  let s := sessionDue s
  if s.devtime < s.svc.deafUntil ∨ 4 ≤ (recentHello s).length then answer .discarded s
  else
    let s := sv (fun v => { v with helloAt := recentHello s ++ [s.devtime] }) s
    if s.svc.key.isSome then plainReply 0x01 ssBusy x.session x.seq [] s
    else if nc.length ≠ 32 then plainReply 0x01 ssBadMsg x.session x.seq [] s
    else
      let id := freeNat 32 s
      let nd := freeNat 256 id.2
      let session := 1 + id.1 % (2 ^ 32 - 1)
      let nonce := toBytes 32 nd.1
      let s := sv (fun v => { v with half := some { session := session, nc := nc, nd := nonce, since := s.devtime } }) nd.2
      plainReply 0x01 ssOk x.session x.seq (toBytes 4 session ++ nonce) s

/-- HELLO (R474). -/
def execHello (x : SvcHdr) (nc : List Byte) (s : State) : Host.Outcome State Fault Refusal :=
  .next (powered (hello x nc) s)

/-- The half-open session fails: it closes with DENIED, and the failure is counted (R474, R498). -/
def denyOpen (type : Nat) (x : SvcHdr) (s : State) : State :=
  plainReply type ssDenied x.session x.seq []
    (satAdd nvmSvcStat NvmSvcStat.authFail 1 (sv (fun v => { v with half := none }) s))

/-- SVC_KEYn of the record in force; zero under the restricted defaults (R469, R471). -/
def svcKey (s : State) (n : Nat) : List Byte := (((inForce s).getD []).drop (256 + 64 * n)).take 64

/-- The number of the SVC_KEYn that a client key's digest equals. -/
def svcKeyFor (s : State) (key : List Byte) : Option Nat :=
  (List.range 4).find? fun n => svcKey s n == sha512 key && !allZero (svcKey s n)

/-- AUTH_KEY (R474). Without the half-open session that it names there is none to close. -/
def execAuthKey (x : SvcHdr) (key : List Byte) (s : State) : Host.Outcome State Fault Refusal :=
  .next (powered (fun s =>
    match halfOpen s with
    | none => plainReply 0x02 ssState x.session x.seq [] s
    | some h =>
      if x.session ≠ h.session then plainReply 0x02 ssState x.session x.seq [] s
      else match svcKeyFor s key with
        | some n =>
          plainReply 0x02 ssOk x.session x.seq [] (sv (fun v => { v with half := some { h with key := some (n, key) } }) s)
        | none => denyOpen 0x02 x s) s)

/-- A failed AUTH exchange; after eight within 60 s HELLO is ignored for 60 s. -/
def authFailed (x : SvcHdr) (s : State) : State :=
  let fails := (s.svc.failAt.filter fun t => decide (s.devtime < t + 60 * secTicks)) ++ [s.devtime]
  denyOpen 0x03 x (sv (fun v =>
    if 8 ≤ fails.length then { v with failAt := [], deafUntil := s.devtime + 60 * secTicks }
    else { v with failAt := fails }) s)

/-- What the client signs: SHA-512(Nc ‖ Nd ‖ SESSION ‖ key ‖ ciphertext). -/
def authMessage (h : HalfOpen) (key cipher : List Byte) : List Byte :=
  sha512 (h.nc ++ h.nd ++ toBytes 4 h.session ++ key ++ cipher)

/-- The secret of an AUTH message that verifies: 48 bytes under the device identity key, signed by the client (R474,
R500). -/
def authSecret (h : HalfOpen) (key cipher sig : List Byte) : Option (List Byte) :=
  if keyOk 0 && Config.sigOk (sha512 key) (authMessage h key cipher) sig then
    (Config.decrypt cipher).filter fun x => x.length == 48
  else none

/-- A session opens: the service client is present, and the reply carries a MAC (R323, R474, R498). -/
def openSession (x : SvcHdr) (h : HalfOpen) (n : Nat) (secret : List Byte) (s : State) : State :=
  let key := sha512 (h.nc ++ h.nd ++ secret)
  let s := sv (fun v => { v with key := some key, session := h.session, half := none, lastMsg := s.devtime, low := 1
                                 replies := [], events := [], eventSeq := 1 }) s
  let s := upd nvmSvcStat NvmSvcStat.session 1 (upd nvmSvcStat NvmSvcStat.key n s)
  macReply key 0x03 ssOk h.session x.seq [] (reholder (satAdd nvmSvcStat NvmSvcStat.sessions 1 s))

/-- AUTH (R474). -/
def execAuth (x : SvcHdr) (cipher sig : List Byte) (s : State) : Host.Outcome State Fault Refusal :=
  .next (powered (fun s =>
    match halfOpen s with
    | none => plainReply 0x03 ssState x.session x.seq [] s
    | some h =>
      if x.session ≠ h.session then plainReply 0x03 ssState x.session x.seq [] s
      else match h.key with
        | none => authFailed x s
        | some (n, key) =>
          match authSecret h key cipher sig with
          | some secret => openSession x h n secret s
          | none => authFailed x s) s)

/-- SVC_HALF_OPEN_LAPSE (R474). -/
def execSvcHalfOpenLapse (s : State) : Host.Outcome State Fault Refusal :=
  .next (powered (fun s => sv (fun v => { v with half := halfOpen s }) s) s)

/-- SVC_SESSION_TIMEOUT (R475). -/
def execSvcSessionTimeout (s : State) : Host.Outcome State Fault Refusal := .next (powered sessionDue s)

/-! ### Messages within a session (R473, R475) -/

/-- The first SEQ at or above one that has no reply. -/
def firstOpen (t : Table (Option (Nat × (Nat × List Byte)))) : Nat → Nat → Nat
  | 0, q => q
  | n + 1, q => if (tget (fun _ => none) t q).isSome then firstOpen t n (q + 1) else q

/-- Record a reply, by which a repeated SEQ is answered. -/
def cacheReply (seq type status : Nat) (payload : List Byte) (s : State) : State :=
  let t := tset (fun _ => none) seq (some (type, (status, payload))) s.svc.replies
  sv (fun v => { v with replies := t, low := firstOpen t 66 v.low }) s

/-- A message whose MAC fails is discarded and counted. -/
def badMac (s : State) : State := answer .discarded (satAdd nvmSvcStat NvmSvcStat.badMac 1 s)

/-- What a request of a session answers: STATUS, the reply's payload, and the state. -/
abbrev SvcResult := Nat × (List Byte × State)

/-- Take a message of a session: its MAC, its SEQ, and its request. A session that the request ends by a reset sends no
reply; `close` marks the request that closes it. -/
def sessionMsg (type : Nat) (close : Bool) (x : SvcMsg) (f : List Byte → State → SvcResult) (s : State) : State :=
  let s := sessionDue s
  match s.svc.key with
  | none => badMac s
  | some key =>
    if x.session ≠ s.svc.session ∨ svcMaxPayload < x.payload.length ∨
        x.mac ≠ svcMac key (svcHeader type x.session x.seq x.payload.length 0 false) x.payload then badMac s
    else
      let s := sv (fun v => { v with lastMsg := s.devtime }) s
      match tget (fun _ => none) s.svc.replies x.seq with
      | some (t, r) => macReply key t r.1 x.session x.seq r.2 s
      | none =>
        if x.seq < s.svc.low ∨ s.svc.low + 64 < x.seq then answer .discarded s
        else
          let r := f x.payload s
          let s := r.2.2
          if close then macReply key type r.1 x.session x.seq r.2.1 (if r.1 = ssOk then closeSession s else
            cacheReply x.seq type r.1 r.2.1 s)
          else if s.svc.key = some key then
            macReply key type r.1 x.session x.seq r.2.1 (cacheReply x.seq type r.1 r.2.1 s)
          else answer .none s

/-- A request that carries no payload. -/
def emptyRequest (p : List Byte) (s : State) : SvcResult := if p.isEmpty then (ssOk, [], s) else (ssBadMsg, [], s)

/-- CLOSE (R475). -/
def execClose (x : SvcMsg) (s : State) : Host.Outcome State Fault Refusal :=
  .next (powered (sessionMsg 0x04 true x emptyRequest) s)

/-- NOP (R475). -/
def execNop (x : SvcMsg) (s : State) : Host.Outcome State Fault Refusal :=
  .next (powered (sessionMsg 0x05 false x emptyRequest) s)

/-! ### Registers (R476) -/

/-- Read `n` registers of a width from an offset. -/
def readMany (off width : Nat) : Nat → State → List Byte × State
  | 0, s => ([], s)
  | n + 1, s =>
    let a := busRead .svc off width s
    let r := readMany (off + width / 8) width n a.2
    (toBytes (width / 8) a.1 ++ r.1, r.2)

/-- REG_READ: offset [25:0], WIDTH [26], COUNT [34:27]. -/
def regReadRequest (p : List Byte) (s : State) : SvcResult :=
  let v := fromBytes p
  let off := bits v 0 26
  let width := if bit1 v 26 then 64 else 32
  let n := bits v 27 8
  if p.length < 5 then (ssBadMsg, [], s)
  else if n = 0 ∨ 128 < n ∨ 2 ^ 26 < off + n * (width / 8) then (ssRange, [], s)
  else
    let r := readMany off width n s
    (ssOk, r.1, r.2)

/-- REG_READ (R476). -/
def execRegRead (x : SvcMsg) (s : State) : Host.Outcome State Fault Refusal :=
  .next (powered (sessionMsg 0x10 false x regReadRequest) s)

/-- REG_WRITE: offset and WIDTH in bytes 0 to 3, then the value. A write that R18 does not permit still receives STATUS
0. -/
def regWriteRequest (p : List Byte) (s : State) : SvcResult :=
  let v := fieldAt p 0 4
  let width := if bit1 v 26 then 64 else 32
  if p.length ≠ 4 + width / 8 then (ssBadMsg, [], s)
  else (ssOk, [], busWrite .svc (bits v 0 26) width (fieldAt p 4 8) s)

/-- REG_WRITE (R476). -/
def execRegWrite (x : SvcMsg) (s : State) : Host.Outcome State Fault Refusal :=
  .next (powered (sessionMsg 0x11 false x regWriteRequest) s)

/-! ### Owner acts (R476) -/

/-- An owner act: DENIED from a client that is not the owner. -/
def ownerRequest (f : List Byte → State → SvcResult) (p : List Byte) (s : State) : SvcResult :=
  let s := settle s
  if isOwner .svc s then f p s else (ssDenied, [], s)

/-- The STATUS of a result code. -/
def resultStatus (r : Nat) : Nat := if r = 0 then ssOk else ssVerify

/-- CFG_PART: the parts of a record in ascending order; the last byte installs it (R470). -/
def cfgPartRequest (p : List Byte) (s : State) : SvcResult :=
  let off := fieldAt p 0 4
  let data := p.drop 4
  if data.isEmpty ∨ 1024 < data.length then (ssBadMsg, [], s)
  else if (off ≠ 0 ∧ off ≠ s.svc.cfgPart.length) ∨ 1536 < off + data.length then (ssRange, [], s)
  else
    let all := (if off = 0 then [] else s.svc.cfgPart) ++ data
    if all.length < 1536 then (ssOk, [], sv (fun v => { v with cfgPart := all }) s)
    else
      let r := installCfg all (sv (fun v => { v with cfgPart := [] }) s)
      (resultStatus r.1, toBytes 1 r.1, r.2)

/-- CFG_PART (R476). -/
def execCfgPart (x : SvcMsg) (s : State) : Host.Outcome State Fault Refusal :=
  .next (powered (sessionMsg 0x20 false x (ownerRequest cfgPartRequest)) s)

/-- Whether an enrollment blob is complete by its CERT_LEN and SIG_LEN, or too long (R467). -/
def blobComplete (bs : List Byte) : Bool :=
  let n := 8 + fieldAt bs 0 4 + fieldAt bs 4 4
  decide (8 ≤ bs.length) && (decide (n ≤ bs.length) || decide (8192 < n))

/-- ENROLL_PART: as CFG_PART, for an enrollment blob (R467). -/
def enrollPartRequest (p : List Byte) (s : State) : SvcResult :=
  let off := fieldAt p 0 4
  let data := p.drop 4
  if data.isEmpty ∨ 1024 < data.length then (ssBadMsg, [], s)
  else if (off ≠ 0 ∧ off ≠ s.svc.enrollPart.length) ∨ 8192 < off + data.length then (ssRange, [], s)
  else
    let all := (if off = 0 then [] else s.svc.enrollPart) ++ data
    if blobComplete all then
      let r := enrollBlob all (sv (fun v => { v with enrollPart := [] }) s)
      (resultStatus r.1, toBytes 1 r.1, r.2)
    else (ssOk, [], sv (fun v => { v with enrollPart := all }) s)

/-- ENROLL_PART (R476). -/
def execEnrollPart (x : SvcMsg) (s : State) : Host.Outcome State Fault Refusal :=
  .next (powered (sessionMsg 0x21 false x (ownerRequest enrollPartRequest)) s)

/-- CFG_SELECT: byte 0 is 0 for the current record, 1 for the previous (R471). -/
def cfgSelectRequest (p : List Byte) (s : State) : SvcResult :=
  if p.length ≠ 1 then (ssBadMsg, [], s)
  else if 1 < fieldAt p 0 1 then (ssRange, [], s)
  else (ssOk, [], selectCfg (fieldAt p 0 1) s)

/-- CFG_SELECT (R476). -/
def execCfgSelect (x : SvcMsg) (s : State) : Host.Outcome State Fault Refusal :=
  .next (powered (sessionMsg 0x22 false x (ownerRequest cfgSelectRequest)) s)

/-! ### Uploads (R480, R481) -/

/-- Sectors erase in ascending order as time passes: by how many at a point in time the spec does not say. -/
def eraseOn (s : State) : State :=
  match s.nvm.upload with
  | none => s
  | some u =>
    let f := freeNat 12 s
    nv (fun n => { n with upload := some { u with erased := min slotSizeMax (u.erased + f.1 * 65536) } }) f.2

/-- FW_BEGIN: IMAGE_LEN (R480). DEDUCED: while PERMIT is 0 the answer is DENIED; R480 gives STATE and RANGE for its list, in which
PERMIT does not stand. -/
def fwBeginRequest (p : List Byte) (s : State) : SvcResult :=
  let len := fieldAt p 0 4
  let i := fwInactive s
  let st := fwSlotSt s i
  if p.length ≠ 4 then (ssBadMsg, [], s)
  else if get s nvmUpdCtrl NvmUpdCtrl.permit = 0 then (ssDenied, [], s)
  else if s.nvm.upload.isSome ∨ ¬(st = fsEmpty ∨ st = fsStaged ∨ st = fsInvalid) then (ssState, [], s)
  else if len % 1024 ≠ 0 ∨ slotSizeMax < len then (ssRange, [], s)
  else
    let s := eraseSlot i s
    let s := setFwSlot i fsReceiving 0 (nv (fun n => { n with upload := some { slot := i, len := len } }) s)
    (ssOk, [], eraseOn (upd nvmUpdStat NvmUpdStat.uploading 1 (upd nvmUpdStat NvmUpdStat.uploadBytes 0 s)))

/-- FW_BEGIN (R476). -/
def execFwBegin (x : SvcMsg) (s : State) : Host.Outcome State Fault Refusal :=
  .next (powered (sessionMsg 0x30 false x (ownerRequest fwBeginRequest)) s)

/-- Program bytes of a slot. -/
def program (i a : Nat) : List Byte → Slot → Slot
  | [], x => x
  | b :: r, x => program i (a + 1) r { x with cells := tset slotDefault a b x.cells }

/-- FW_DATA: an offset and 1024 bytes; beyond the erased part BUSY. What a block holds that is programmed again without an
erase the spec does not say. -/
def fwDataRequest (p : List Byte) (s : State) : SvcResult :=
  let off := fieldAt p 0 8
  match s.nvm.upload with
  | none => (ssState, [], s)
  | some _ =>
    let s := eraseOn s
    match s.nvm.upload with
    | none => (ssState, [], s)
    | some u =>
      if p.length ≠ 1032 then (ssBadMsg, [], s)
      else if off % 1024 ≠ 0 ∨ u.len < off + 1024 then (ssRange, [], s)
      else if u.erased < off + 1024 then (ssBusy, [], s)
      else if u.written.contains (off / 1024) then
        let f := freeNat 8192 s
        (ssOk, [], setSlot u.slot (program u.slot off (toBytes 1024 f.1) (fwSlot f.2 u.slot)) f.2)
      else
        let s := setSlot u.slot (program u.slot off (p.drop 8) (fwSlot s u.slot)) s
        let s := nv (fun n => { n with upload := some { u with written := u.written ++ [off / 1024] } }) s
        (ssOk, [], upd nvmUpdStat NvmUpdStat.uploadBytes ((u.written.length + 1) * 1024) s)

/-- FW_DATA (R476). -/
def execFwData (x : SvcMsg) (s : State) : Host.Outcome State Fault Refusal :=
  .next (powered (sessionMsg 0x31 false x (ownerRequest fwDataRequest)) s)

/-- The result of FW_END: bytes never written, the structure of R477, the types of R478, the component digests (R481). -/
def uploadResult (s : State) (u : Upload) : Nat :=
  if !((List.range (u.len / 1024)).all u.written.contains) then 0x25
  else if !(structureOk s u.slot && imageLen s u.slot == u.len) then 0x21
  else if !componentsOk s u.slot then 0x22
  else if !((List.range 7).all (compDigestOk s u.slot)) then 0x23
  else 0

/-- FW_END: the slot becomes STAGED, or INVALID with the result. -/
def fwEndRequest (p : List Byte) (s : State) : SvcResult :=
  match s.nvm.upload with
  | none => (ssState, [], s)
  | some u =>
    if !p.isEmpty then (ssBadMsg, [], s)
    else
      let r := uploadResult s u
      if r = 0 then
        let s := setRelease u.slot true (setFwSlot u.slot fsStaged 0 (nv (fun n => { n with upload := none }) s))
        (ssOk, toBytes 1 0, logCoded sevNotice kConfig bNvm 481 0 0 u.slot (upd nvmUpdStat NvmUpdStat.uploading 0 s))
      else (ssVerify, toBytes 1 r, endUpload r s)

/-- FW_END (R476). -/
def execFwEnd (x : SvcMsg) (s : State) : Host.Outcome State Fault Refusal :=
  .next (powered (sessionMsg 0x32 false x (ownerRequest fwEndRequest)) s)

/-- FW_ABORT: the upload ends with ABORTED. -/
def fwAbortRequest (p : List Byte) (s : State) : SvcResult :=
  if !p.isEmpty then (ssBadMsg, [], s)
  else if s.nvm.upload.isNone then (ssState, [], s)
  else (ssOk, [], endUpload 0x24 s)

/-- FW_ABORT (R476). -/
def execFwAbort (x : SvcMsg) (s : State) : Host.Outcome State Fault Refusal :=
  .next (powered (sessionMsg 0x33 false x (ownerRequest fwAbortRequest)) s)

/-! ### The log and events (R475, R524) -/

/-- LOG_READ: FROM_SEQ in bytes 0 to 3, MAX in bytes 4 and 5, MIN_SEV in byte 6 (R524). -/
def logReadRequest (p : List Byte) (s : State) : SvcResult :=
  let first := fieldAt p 0 4
  let n := fieldAt p 4 2
  let sev := fieldAt p 6 1
  if p.length ≠ 7 then (ssBadMsg, [], s)
  else if n = 0 ∨ 36 < n then (ssRange, [], s)
  else
    let es := ((logAll s).filter fun e => decide (sev ≤ e.sev) && decide (first ≤ e.seq)).take n
    (ssOk, toBytes 4 (get s ledLogStat LedLogStat.nextSeq) ++ toBytes 4 es.length ++ es.flatMap entryBytes, s)

/-- LOG_READ (R476). -/
def execLogRead (x : SvcMsg) (s : State) : Host.Outcome State Fault Refusal :=
  .next (powered (sessionMsg 0x50 false x logReadRequest) s)

/-- EVENT_ACK: the event whose SEQ it names is no longer resent. -/
def eventAckRequest (p : List Byte) (s : State) : SvcResult :=
  if p.length ≠ 4 then (ssBadMsg, [], s)
  else (ssOk, [], sv (fun v => { v with events := v.events.filter fun e => e.seq != fieldAt p 0 4 }) s)

/-- EVENT_ACK (R475). -/
def execEventAck (x : SvcMsg) (s : State) : Host.Outcome State Fault Refusal :=
  .next (powered (sessionMsg 0x61 false x eventAckRequest) s)

/-- SVC_EVENT_RESEND: an unacknowledged EVENT is sent again 1 s after it was last sent (R475). -/
def execSvcEventResend (seq : Nat) (s : State) : Host.Outcome State Fault Refusal :=
  .next (powered (fun s =>
    match s.svc.events.find? fun e => e.seq == seq with
    | none => s
    | some e =>
      if e.sent + secTicks ≤ s.devtime then
        answer (.svcEvent e.seq e.kind e.time) (sv (fun v => { v with
          events := v.events.map fun y => if y.seq = seq then { y with sent := s.devtime } else y }) s)
      else s) s)

/-! ### The port (R472, R498) -/

/-- SVC_BLOCK_LOCK (R498). -/
def execSvcBlockLock (lock : Bool) (s : State) : Host.Outcome State Fault Refusal :=
  .next (powered (upd nvmSvcStat NvmSvcStat.linkUp (b2n lock)) s)

/-- Whether an address is the device's own: the IPv4 or IPv6 address of the record in force, or the link-local address
(R469, R472). -/
def ownAddress (s : State) (v6 : Bool) (addr : Nat) : Bool :=
  let bs := (inForce s).getD []
  if v6 then addr == Config.linkLocal.toNat || (addr != 0 && addr == cf bs 204 16)
  else addr != 0 && addr == cf bs 192 4

/-- ARP_NEIGHBOUR_DISCOVERY: an ARP request or neighbour solicitation for one of the device's addresses is answered with
the MAC address that OTP holds (R472). -/
def execArpNeighbourDiscovery (v6 : Bool) (addr _mac : Nat) (s : State) : Host.Outcome State Fault Refusal :=
  .next (powered (fun s =>
    answer (if ownAddress s v6 addr then .arp Config.macAddress.toNat else .discarded) s) s)

/-- ICMP_ECHO (R472). -/
def execIcmpEcho (v6 : Bool) (addr : Nat) (data : List Byte) (s : State) : Host.Outcome State Fault Refusal :=
  .next (powered (fun s => answer (if ownAddress s v6 addr then .echo data else .discarded) s) s)

end Sys2Proof.Machine
end

