-- ==== Sys2Proof/Machine/Dispatch.lean ====
section
/-! DEFINITION. One arm per command: each command's meaning by name. -/

namespace Sys2Proof.Machine

open Sys2Proof

/-- The effect of a command on everything but the queue. -/
def exec (i : Instr) (s : State) : Host.Outcome State Fault Refusal :=
  match i with
  | .accessError m off width write => Sys2Proof.Machine.execAccessError m off width write s
  | .registerWrite ws => Sys2Proof.Machine.execRegisterWrite ws s
  | .sqDoorbell m h q tail => Sys2Proof.Machine.execSqDoorbell m h q tail s
  | .cqDoorbell m h q head => Sys2Proof.Machine.execCqDoorbell m h q head s
  | .descriptorFetch => Sys2Proof.Machine.execDescriptorFetch s
  | .switchPoint => Sys2Proof.Machine.execSwitchPoint s
  | .batchStart => Sys2Proof.Machine.execBatchStart s
  | .deadlineExpire r => Sys2Proof.Machine.execDeadlineExpire r s
  | .completionWrite r => Sys2Proof.Machine.execCompletionWrite r s
  | .msixSignal h q => Sys2Proof.Machine.execMsixSignal h q s
  | .slotCfgWrite m half v => Sys2Proof.Machine.execSlotCfgWrite m half v s
  | .stage m slot src => Sys2Proof.Machine.execStage m slot src s
  | .stageDone slot => Sys2Proof.Machine.execStageDone slot s
  | .remove m slot src => Sys2Proof.Machine.execRemove m slot src s
  | .activate m slot src => Sys2Proof.Machine.execActivate m slot src s
  | .seasonDrainDone => Sys2Proof.Machine.execSeasonDrainDone s
  | .seasonLoadDone => Sys2Proof.Machine.execSeasonLoadDone s
  | .seasonConfirmed => Sys2Proof.Machine.execSeasonConfirmed s
  | .layerStart => Sys2Proof.Machine.execLayerStart s
  | .layerEnd => Sys2Proof.Machine.execLayerEnd s
  | .testWindowClose elapsedNs => Sys2Proof.Machine.execTestWindowClose elapsedNs s
  | .unitFire t bad pathBad => Sys2Proof.Machine.execUnitFire t bad pathBad s
  | .operandArrive t q flips => Sys2Proof.Machine.execOperandArrive t q flips s
  | .tagHorizonExpire t u => Sys2Proof.Machine.execTagHorizonExpire t u s
  | .passIssue t => Sys2Proof.Machine.execPassIssue t s
  | .weightFrontStart t => Sys2Proof.Machine.execWeightFrontStart t s
  | .weightFetch t => Sys2Proof.Machine.execWeightFetch t s
  | .weightFetchDone t => Sys2Proof.Machine.execWeightFetchDone t s
  | .passComplete t ops => Sys2Proof.Machine.execPassComplete t ops s
  | .kernelStart t => Sys2Proof.Machine.execKernelStart t s
  | .frameStart g => Sys2Proof.Machine.execFrameStart g s
  | .tilRunEn m t v => Sys2Proof.Machine.execTilRunEn m t v s
  | .tilHaltReq m t v => Sys2Proof.Machine.execTilHaltReq m t v s
  | .tilTestWin m t v => Sys2Proof.Machine.execTilTestWin m t v s
  | .tilCntFreeze m t v => Sys2Proof.Machine.execTilCntFreeze m t v s
  | .tilCntClear m t => Sys2Proof.Machine.execTilCntClear m t s
  | .tileDrainDone t => Sys2Proof.Machine.execTileDrainDone t s
  | .tilFaultClear m t => Sys2Proof.Machine.execTilFaultClear m t s
  | .tilDfFaultClear m t => Sys2Proof.Machine.execTilDfFaultClear m t s
  | .tileReset t => Sys2Proof.Machine.execTileReset t s
  | .spVectorArith t op o => Sys2Proof.Machine.execSpVectorArith t op o s
  | .spConvert t op o => Sys2Proof.Machine.execSpConvert t op o s
  | .spLa96Convert t fmt o => Sys2Proof.Machine.execSpLa96Convert t fmt o s
  | .spMxPack t fmt o => Sys2Proof.Machine.execSpMxPack t fmt o s
  | .spMxUnpack t fmt o => Sys2Proof.Machine.execSpMxUnpack t fmt o s
  | .spFunction t fn o => Sys2Proof.Machine.execSpFunction t fn o s
  | .spLaneReduce t op o => Sys2Proof.Machine.execSpLaneReduce t op o s
  | .spIntLogic t op o => Sys2Proof.Machine.execSpIntLogic t op o s
  | .spVectorLoadStore t store mem o => Sys2Proof.Machine.execSpVectorLoadStore t store mem o s
  | .spLa96LoadStore t store o => Sys2Proof.Machine.execSpLa96LoadStore t store o s
  | .spScalarLoadStore t store mem o => Sys2Proof.Machine.execSpScalarLoadStore t store mem o s
  | .spAnchorRead t o => Sys2Proof.Machine.execSpAnchorRead t o s
  | .spBranch t cond o => Sys2Proof.Machine.execSpBranch t cond o s
  | .spHwLoop t o => Sys2Proof.Machine.execSpHwLoop t o s
  | .spMcReturn t => Sys2Proof.Machine.execSpMcReturn t s
  | .spEmit t o => Sys2Proof.Machine.execSpEmit t o s
  | .spWaitFlag t value o => Sys2Proof.Machine.execSpWaitFlag t value o s
  | .spFence t => Sys2Proof.Machine.execSpFence t s
  | .spEndKernel t => Sys2Proof.Machine.execSpEndKernel t s
  | .spIllegal t opcode => Sys2Proof.Machine.execSpIllegal t opcode s
  | .mcAbsent t index => Sys2Proof.Machine.execMcAbsent t index s
  | .katRun t differs => Sys2Proof.Machine.execKatRun t differs s
  | .digest64 t shadow => Sys2Proof.Machine.execDigest64 t shadow s
  | .wdigest t range => Sys2Proof.Machine.execWdigest t range s
  | .anchorCombine t => Sys2Proof.Machine.execAnchorCombine t s
  | .stateLoad t chunk => Sys2Proof.Machine.execStateLoad t chunk s
  | .stateStore t chunk => Sys2Proof.Machine.execStateStore t chunk s
  | .spillDrain t q => Sys2Proof.Machine.execSpillDrain t q s
  | .dmaSubmit t => Sys2Proof.Machine.execDmaSubmit t s
  | .latSend t => Sys2Proof.Machine.execLatSend t s
  | .barArrive t => Sys2Proof.Machine.execBarArrive t s
  | .flagWrite t => Sys2Proof.Machine.execFlagWrite t s
  | .quietReport t => Sys2Proof.Machine.execQuietReport t s
  | .detectorReply f peer => Sys2Proof.Machine.execDetectorReply f peer s
  | .deadlockRecheck f => Sys2Proof.Machine.execDeadlockRecheck f s
  | .spillClose t q => Sys2Proof.Machine.execSpillClose t q s
  | .dmaDescStart t e priv => Sys2Proof.Machine.execDmaDescStart t e priv s
  | .dmaTimeout t e credit => Sys2Proof.Machine.execDmaTimeout t e credit s
  | .notifyResend t e => Sys2Proof.Machine.execNotifyResend t e s
  | .landingReceive t ch flips => Sys2Proof.Machine.execLandingReceive t ch flips s
  | .la96Receive t ch flips => Sys2Proof.Machine.execLa96Receive t ch flips s
  | .channelCredit t ch => Sys2Proof.Machine.execChannelCredit t ch s
  | .tunnelFlush t ch leg => Sys2Proof.Machine.execTunnelFlush t ch leg s
  | .routerForward g out upset => Sys2Proof.Machine.execRouterForward g out upset s
  | .ctlTimeout src txid => Sys2Proof.Machine.execCtlTimeout src txid s
  | .pktOperand p => Sys2Proof.Machine.execPktOperand p s
  | .pktAck p => Sys2Proof.Machine.execPktAck p s
  | .pktRefuse p => Sys2Proof.Machine.execPktRefuse p s
  | .pktReadReqWindow p => Sys2Proof.Machine.execPktReadReqWindow p s
  | .pktReadReqHbm p => Sys2Proof.Machine.execPktReadReqHbm p s
  | .pktNotify p => Sys2Proof.Machine.execPktNotify p s
  | .pktFlagWrite p => Sys2Proof.Machine.execPktFlagWrite p s
  | .pktBarArrive p => Sys2Proof.Machine.execPktBarArrive p s
  | .pktTunnelCredit p => Sys2Proof.Machine.execPktTunnelCredit p s
  | .pktMgmt p => Sys2Proof.Machine.execPktMgmt p s
  | .pktWrite p => Sys2Proof.Machine.execPktWrite p s
  | .pktHbmWrite p => Sys2Proof.Machine.execPktHbmWrite p s
  | .pktReadData p => Sys2Proof.Machine.execPktReadData p s
  | .pktPrivWrite p => Sys2Proof.Machine.execPktPrivWrite p s
  | .pktLatTunnel p => Sys2Proof.Machine.execPktLatTunnel p s
  | .pktReservedOpcode p => Sys2Proof.Machine.execPktReservedOpcode p s
  | .quiesce => Sys2Proof.Machine.execQuiesce s
  | .seamWireMark b wire errors => Sys2Proof.Machine.execSeamWireMark b wire errors s
  | .stackTempRead stack c ondie repeats => Sys2Proof.Machine.execStackTempRead stack c ondie repeats s
  | .hbmScrub slice block upset => Sys2Proof.Machine.execHbmScrub slice block upset s
  | .hbmChannelFail slice exhausted => Sys2Proof.Machine.execHbmChannelFail slice exhausted s
  | .mark m slice => Sys2Proof.Machine.execMark m slice s
  | .unmark m slice => Sys2Proof.Machine.execUnmark m slice s
  | .restore m slice => Sys2Proof.Machine.execRestore m slice s
  | .hbmMemoryTestDone failed pprRows ms => Sys2Proof.Machine.execHbmMemoryTestDone failed pprRows ms s
  | .linkTrainDone n => Sys2Proof.Machine.execLinkTrainDone n s
  | .linkTrainTimeout n => Sys2Proof.Machine.execLinkTrainTimeout n s
  | .linkAlignDone n words => Sys2Proof.Machine.execLinkAlignDone n words s
  | .linkAlignFail n => Sys2Proof.Machine.execLinkAlignFail n s
  | .initFrameSend n => Sys2Proof.Machine.execInitFrameSend n s
  | .initFrameReceive n f => Sys2Proof.Machine.execInitFrameReceive n f s
  | .linkInitTimeout n => Sys2Proof.Machine.execLinkInitTimeout n s
  | .linkRetry n => Sys2Proof.Machine.execLinkRetry n s
  | .linkFrameSend n => Sys2Proof.Machine.execLinkFrameSend n s
  | .seqFrameReceive n f errs => Sys2Proof.Machine.execSeqFrameReceive n f errs s
  | .nullFrameReceive n f errs => Sys2Proof.Machine.execNullFrameReceive n f errs s
  | .frameCrcFail n errs => Sys2Proof.Machine.execFrameCrcFail n errs s
  | .nakResend n => Sys2Proof.Machine.execNakResend n s
  | .linkReplay n => Sys2Proof.Machine.execLinkReplay n s
  | .linkReplayTimeout n => Sys2Proof.Machine.execLinkReplayTimeout n s
  | .linkSilence n => Sys2Proof.Machine.execLinkSilence n s
  | .linkUcwLimit n => Sys2Proof.Machine.execLinkUcwLimit n s
  | .linkCreditStall n data => Sys2Proof.Machine.execLinkCreditStall n data s
  | .lnkCtrlWrite m n v => Sys2Proof.Machine.execLnkCtrlWrite m n v s
  | .lnkNarrowWrite m n half v => Sys2Proof.Machine.execLnkNarrowWrite m n half v s
  | .lnkCntClear m f => Sys2Proof.Machine.execLnkCntClear m f s
  | .cxlMemRead h dpa => Sys2Proof.Machine.execCxlMemRead h dpa s
  | .cxlMemWrite h dpa data poison => Sys2Proof.Machine.execCxlMemWrite h dpa data poison s
  | .hdmCommit h d size skip => Sys2Proof.Machine.execHdmCommit h d size skip s
  | .sqCfgWrite m h q half v => Sys2Proof.Machine.execSqCfgWrite m h q half v s
  | .cqCfgWrite m h q half v => Sys2Proof.Machine.execCqCfgWrite m h q half v s
  | .ownHeadRangeWrite m h v => Sys2Proof.Machine.execOwnHeadRangeWrite m h v s
  | .headLinkDown h => Sys2Proof.Machine.execHeadLinkDown h s
  | .headLinkUp h x4 slow => Sys2Proof.Machine.execHeadLinkUp h x4 slow s
  | .perstAssert h us => Sys2Proof.Machine.execPerstAssert h us s
  | .perstDeassert h => Sys2Proof.Machine.execPerstDeassert h s
  | .identifyMemoryDevice h => Sys2Proof.Machine.execIdentifyMemoryDevice h s
  | .getSupportedLogs h => Sys2Proof.Machine.execGetSupportedLogs h s
  | .getLog h uuid => Sys2Proof.Machine.execGetLog h uuid s
  | .getEventRecords h log => Sys2Proof.Machine.execGetEventRecords h log s
  | .clearEventRecords h log seqs => Sys2Proof.Machine.execClearEventRecords h log seqs s
  | .getTimestamp h => Sys2Proof.Machine.execGetTimestamp h s
  | .getHealthInfo h => Sys2Proof.Machine.execGetHealthInfo h s
  | .setTimestamp h v => Sys2Proof.Machine.execSetTimestamp h v s
  | .mailboxUnsupported h opcode => Sys2Proof.Machine.execMailboxUnsupported h opcode s
  | .doeDiscovery h index => Sys2Proof.Machine.execDoeDiscovery h index s
  | .cdatTableAccess h entry => Sys2Proof.Machine.execCdatTableAccess h entry s
  | .claim m => Sys2Proof.Machine.execClaim m s
  | .renew m => Sys2Proof.Machine.execRenew m s
  | .release m => Sys2Proof.Machine.execRelease m s
  | .transfer m target => Sys2Proof.Machine.execTransfer m target s
  | .ownCmdReserved m op target => Sys2Proof.Machine.execOwnCmdReserved m op target s
  | .leaseLow => Sys2Proof.Machine.execLeaseLow s
  | .leaseLapse => Sys2Proof.Machine.execLeaseLapse s
  | .claimWindowExpire => Sys2Proof.Machine.execClaimWindowExpire s
  | .tileSramScrub t mem word upset => Sys2Proof.Machine.execTileSramScrub t mem word upset s
  | .digestArrive t => Sys2Proof.Machine.execDigestArrive t s
  | .digestTimeout t => Sys2Proof.Machine.execDigestTimeout t s
  | .wdigestRoundStart => Sys2Proof.Machine.execWdigestRoundStart s
  | .wdigLate t => Sys2Proof.Machine.execWdigLate t s
  | .vinHighEnter vin us => Sys2Proof.Machine.execVinHighEnter vin us s
  | .vinHighRelease vin us => Sys2Proof.Machine.execVinHighRelease vin us s
  | .overvoltEnter vin us => Sys2Proof.Machine.execOvervoltEnter vin us s
  | .overvoltRelease vin us => Sys2Proof.Machine.execOvervoltRelease vin us s
  | .capEnter vin us => Sys2Proof.Machine.execCapEnter vin us s
  | .capRelease vin us => Sys2Proof.Machine.execCapRelease vin us s
  | .haltEnter vin us => Sys2Proof.Machine.execHaltEnter vin us s
  | .haltRelease vin us => Sys2Proof.Machine.execHaltRelease vin us s
  | .brownout vin us => Sys2Proof.Machine.execBrownout vin us s
  | .brownoutRelease vin us => Sys2Proof.Machine.execBrownoutRelease vin us s
  | .inputEnBreak => Sys2Proof.Machine.execInputEnBreak s
  | .vinQualify vin us cap => Sys2Proof.Machine.execVinQualify vin us cap s
  | .supplyInRegulation rail => Sys2Proof.Machine.execSupplyInRegulation rail s
  | .shutdown m => Sys2Proof.Machine.execShutdown m s
  | .pwrCmdReserved m op => Sys2Proof.Machine.execPwrCmdReserved m op s
  | .ibcFail f c => Sys2Proof.Machine.execIbcFail f c s
  | .senseFault f mv us => Sys2Proof.Machine.execSenseFault f mv us s
  | .fieldLoss f cause => Sys2Proof.Machine.execFieldLoss f cause s
  | .phaseFail g phase => Sys2Proof.Machine.execPhaseFail g phase s
  | .shortTrip g input => Sys2Proof.Machine.execShortTrip g input s
  | .admissionGrant g => Sys2Proof.Machine.execAdmissionGrant g s
  | .admissionForced g => Sys2Proof.Machine.execAdmissionForced g s
  | .softStartDone g => Sys2Proof.Machine.execSoftStartDone g s
  | .clusterRampDownDone g => Sys2Proof.Machine.execClusterRampDownDone g s
  | .auxConverterFault b => Sys2Proof.Machine.execAuxConverterFault b s
  | .auxRailFault rail => Sys2Proof.Machine.execAuxRailFault rail s
  | .hostRailFault h => Sys2Proof.Machine.execHostRailFault h s
  | .controlSample x => Sys2Proof.Machine.execControlSample x s
  | .autumnExit => Sys2Proof.Machine.execAutumnExit s
  | .thermalUpdate => Sys2Proof.Machine.execThermalUpdate s
  | .tempSample sensor tenths => Sys2Proof.Machine.execTempSample sensor tenths s
  | .coolingReturn g => Sys2Proof.Machine.execCoolingReturn g s
  | .dieTrip sensor before tenths => Sys2Proof.Machine.execDieTrip sensor before tenths s
  | .coolantSample tin tout => Sys2Proof.Machine.execCoolantSample tin tout s
  | .winterRequest m v => Sys2Proof.Machine.execWinterRequest m v s
  | .winterEnter => Sys2Proof.Machine.execWinterEnter s
  | .winterExit failed => Sys2Proof.Machine.execWinterExit failed s
  | .pllLock p => Sys2Proof.Machine.execPllLock p s
  | .pllLockLoss p => Sys2Proof.Machine.execPllLockLoss p s
  | .pllRelockTimeout f => Sys2Proof.Machine.execPllRelockTimeout f s
  | .crefLoss => Sys2Proof.Machine.execCrefLoss s
  | .skewRead f readings => Sys2Proof.Machine.execSkewRead f readings s
  | .marginReport g ps => Sys2Proof.Machine.execMarginReport g ps s
  | .stepUpBegin => Sys2Proof.Machine.execStepUpBegin s
  | .dividerSwitch clockMw => Sys2Proof.Machine.execDividerSwitch clockMw s
  | .vsetStep g => Sys2Proof.Machine.execVsetStep g s
  | .syncStrobe errors => Sys2Proof.Machine.execSyncStrobe errors s
  | .epochWrite m half v => Sys2Proof.Machine.execEpochWrite m half v s
  | .fabricReset cause failed => Sys2Proof.Machine.execFabricReset cause failed s
  | .deviceReset cause => Sys2Proof.Machine.execDeviceReset cause s
  | .powerOnReset => Sys2Proof.Machine.execPowerOnReset s
  | .fcWatchdogExpire f => Sys2Proof.Machine.execFcWatchdogExpire f s
  | .supWatchdogExpire => Sys2Proof.Machine.execSupWatchdogExpire s
  | .resetCmdFabric m => Sys2Proof.Machine.execResetCmdFabric m s
  | .resetCmdDevice m => Sys2Proof.Machine.execResetCmdDevice m s
  | .resetCmdReserved m => Sys2Proof.Machine.execResetCmdReserved m s
  | .rebuild m => Sys2Proof.Machine.execRebuild m s
  | .retryField m f => Sys2Proof.Machine.execRetryField m f s
  | .cancel m => Sys2Proof.Machine.execCancel m s
  | .bootRomStart flips => Sys2Proof.Machine.execBootRomStart flips s
  | .supervisorFirmwareStart flips => Sys2Proof.Machine.execSupervisorFirmwareStart flips s
  | .fieldControllerBoot f => Sys2Proof.Machine.execFieldControllerBoot f s
  | .fieldQuoteReceive f quote => Sys2Proof.Machine.execFieldQuoteReceive f quote s
  | .springStep x => Sys2Proof.Machine.execSpringStep x s
  | .springDone => Sys2Proof.Machine.execSpringDone s
  | .standbyPromote f katPass => Sys2Proof.Machine.execStandbyPromote f katPass s
  | .remapTargetsReady fails => Sys2Proof.Machine.execRemapTargetsReady fails s
  | .remapBeginWritten => Sys2Proof.Machine.execRemapBeginWritten s
  | .remapCopyDone bad => Sys2Proof.Machine.execRemapCopyDone bad s
  | .remapCommitWritten => Sys2Proof.Machine.execRemapCommitWritten s
  | .remapEndWritten => Sys2Proof.Machine.execRemapEndWritten s
  | .nvmDeviceFail b => Sys2Proof.Machine.execNvmDeviceFail b s
  | .install m src => Sys2Proof.Machine.execInstall m src s
  | .enroll m src => Sys2Proof.Machine.execEnroll m src s
  | .selectCurrent m => Sys2Proof.Machine.execSelectCurrent m s
  | .selectPrevious m => Sys2Proof.Machine.execSelectPrevious m s
  | .cfgCmdReserved m op => Sys2Proof.Machine.execCfgCmdReserved m op s
  | .halfCommand m off v => Sys2Proof.Machine.execHalfCommand m off v s
  | .permitWrite m v => Sys2Proof.Machine.execPermitWrite m v s
  | .updActivate m => Sys2Proof.Machine.execUpdActivate m s
  | .arm m => Sys2Proof.Machine.execArm m s
  | .disarm m => Sys2Proof.Machine.execDisarm m s
  | .reject m => Sys2Proof.Machine.execReject m s
  | .erase m => Sys2Proof.Machine.execErase m s
  | .abort m => Sys2Proof.Machine.execAbort m s
  | .updCmdReserved m => Sys2Proof.Machine.execUpdCmdReserved m s
  | .trialTimerExpire => Sys2Proof.Machine.execTrialTimerExpire s
  | .trialSpringLimit => Sys2Proof.Machine.execTrialSpringLimit s
  | .trialDeadline => Sys2Proof.Machine.execTrialDeadline s
  | .trialHealthBroken => Sys2Proof.Machine.execTrialHealthBroken s
  | .trialConfirm => Sys2Proof.Machine.execTrialConfirm s
  | .hello x nc => Sys2Proof.Machine.execHello x nc s
  | .authKey x key => Sys2Proof.Machine.execAuthKey x key s
  | .auth x cipher sig => Sys2Proof.Machine.execAuth x cipher sig s
  | .svcHalfOpenLapse => Sys2Proof.Machine.execSvcHalfOpenLapse s
  | .close x => Sys2Proof.Machine.execClose x s
  | .nop x => Sys2Proof.Machine.execNop x s
  | .svcSessionTimeout => Sys2Proof.Machine.execSvcSessionTimeout s
  | .regRead x => Sys2Proof.Machine.execRegRead x s
  | .regWrite x => Sys2Proof.Machine.execRegWrite x s
  | .cfgPart x => Sys2Proof.Machine.execCfgPart x s
  | .enrollPart x => Sys2Proof.Machine.execEnrollPart x s
  | .cfgSelect x => Sys2Proof.Machine.execCfgSelect x s
  | .fwBegin x => Sys2Proof.Machine.execFwBegin x s
  | .fwData x => Sys2Proof.Machine.execFwData x s
  | .fwEnd x => Sys2Proof.Machine.execFwEnd x s
  | .fwAbort x => Sys2Proof.Machine.execFwAbort x s
  | .logRead x => Sys2Proof.Machine.execLogRead x s
  | .eventAck x => Sys2Proof.Machine.execEventAck x s
  | .svcEventResend seq => Sys2Proof.Machine.execSvcEventResend seq s
  | .getVersion tr x => Sys2Proof.Machine.execGetVersion tr x s
  | .getCapabilities tr x => Sys2Proof.Machine.execGetCapabilities tr x s
  | .negotiateAlgorithms tr x => Sys2Proof.Machine.execNegotiateAlgorithms tr x s
  | .getDigests tr x => Sys2Proof.Machine.execGetDigests tr x s
  | .getCertificate tr x off len => Sys2Proof.Machine.execGetCertificate tr x off len s
  | .challenge tr x nonce => Sys2Proof.Machine.execChallenge tr x nonce s
  | .getMeasurements tr x index sign nonce => Sys2Proof.Machine.execGetMeasurements tr x index sign nonce s
  | .spdmUnsupported tr x => Sys2Proof.Machine.execSpdmUnsupported tr x s
  | .logPageWrite => Sys2Proof.Machine.execLogPageWrite s
  | .lifetimeWrite => Sys2Proof.Machine.execLifetimeWrite s
  | .lifetimePersist m v => Sys2Proof.Machine.execLifetimePersist m v s
  | .stressTick => Sys2Proof.Machine.execStressTick s
  | .entdaa addr => Sys2Proof.Machine.execEntdaa addr s
  | .setdasa target addr => Sys2Proof.Machine.execSetdasa target addr s
  | .rstdaa => Sys2Proof.Machine.execRstdaa s
  | .getpid => Sys2Proof.Machine.execGetpid s
  | .getbcr => Sys2Proof.Machine.execGetbcr s
  | .getdcr => Sys2Proof.Machine.execGetdcr s
  | .getstatus => Sys2Proof.Machine.execGetstatus s
  | .getmwl => Sys2Proof.Machine.execGetmwl s
  | .getmrl => Sys2Proof.Machine.execGetmrl s
  | .i3cCccUnsupported code => Sys2Proof.Machine.execI3cCccUnsupported code s
  | .i3cPrivateWrite bytes => Sys2Proof.Machine.execI3cPrivateWrite bytes s
  | .i3cPrivateRead wide => Sys2Proof.Machine.execI3cPrivateRead wide s
  | .i3cIbi => Sys2Proof.Machine.execI3cIbi s
  | .inputEnMate vin => Sys2Proof.Machine.execInputEnMate vin s
  | .svcBlockLock lock => Sys2Proof.Machine.execSvcBlockLock lock s
  | .arpNeighbourDiscovery v6 addr mac => Sys2Proof.Machine.execArpNeighbourDiscovery v6 addr mac s
  | .icmpEcho v6 addr data => Sys2Proof.Machine.execIcmpEcho v6 addr data s

end Sys2Proof.Machine
end

