-- ==== Sys2Proof/Machine/Tick.lean ====
section
/-! DEFINITION. What passes with time alone: one tick of the reference DEVTIME count. -/

namespace Sys2Proof.Machine

open Sys2Proof

/-- One step of an error toward 0. -/
def oneLess (e : Int) : Int := if 0 < e then e - 1 else if e < 0 then e + 1 else 0

/-- A field that slews adds or withholds one tick in every 64 until its error is 0 (R422). -/
def slewStep (c : ClockState) : ClockState :=
  c.slew.foldl (fun c e =>
    { c with slew := tset (fun _ => 0) e.1 (oneLess e.2) c.slew
             offset := tset (fun _ => 0) e.1 (tget (fun _ => 0) c.offset e.1 + oneLess e.2 - e.2) c.offset }) c

/-- The throttled time of a router goes on by one tick; each 1024 CCLK of it is counted (R248, R251). -/
def throttleStep (s : State) (g : Nat) : State :=
  let n := tget (fun _ => 0) s.net.throttleFor g + (if get s clkStat ClkStat.cclkLp = 1 then 752 else 1504)
  let k := if 1024 * 940 ≤ n then 1 else 0
  satAdd (conRouterStat g) ConRouterStat.throttle k
    { s with net := { s.net with throttleFor := tset (fun _ => 0) g (n - k * (1024 * 940)) s.net.throttleFor } }

/-- One tick of DEVTIME while the supervisor is powered; without power no count runs (R421). Every field's count runs with it,
the fields that slew apart (R422). -/
def tick (s : State) : State :=
  powered (fun s => s.net.throttled.foldl throttleStep { s with
    devtime := s.devtime + 1
    clock := if (s.devtime + 1) % 64 = 0 then slewStep s.clock else s.clock }) s

end Sys2Proof.Machine
end

