-- ==== Sys2Proof/WellFormed.lean ====
section
/-! DEFINITION. Well-formed commands: each operand lies in the range that its register field, packet field or index has
in the spec. Operands whose type already bounds them (tiles, clusters, links, slots) need no check. -/

namespace Sys2Proof

/-- A value that fits `w` bits. -/
def fits (w v : Nat) : Bool := decide (v < 2 ^ w)

/-- A value written to a 64-bit register, whole or by one of its halves (R531). -/
def halfFits (h : Half) (v : Nat) : Bool :=
  match h with
  | .full => fits 64 v
  | .low => fits 32 v
  | .high => fits 32 v

/-- A register write: an offset of BAR0 (R530) and a value of the write's width. -/
def RegWrite.wf (w : RegWrite) : Bool := fits 26 w.off && fits w.width w.value

/-- The fields of an instruction word (R102). -/
def SpFields.wf (o : SpFields) : Bool :=
  fits 5 o.vd && fits 5 o.va && fits 5 o.vb && fits 5 o.vc && fits 2 o.ps && fits 32 o.imm

/-- A packet (R234): header fields within their widths, at most 40 bytes of control payload or one to four units of data
payload, as LEN says. -/
def Packet.wf (p : Packet) : Bool :=
  fits 12 p.rdst && fits 12 p.src && fits 12 p.dst && fits 7 p.opc && fits 12 p.txid && fits 16 p.srcFdn &&
    fits 16 p.dstFdn && fits 384 p.ext && fits 32 p.crc && fits 13 p.route &&
    (if p.data then decide (1 ≤ p.len) && decide (p.len ≤ 4) && decide (p.payload.length = 64 * p.len)
     else decide (p.len ≤ 40) && decide (p.payload.length = p.len))

/-- A frame (R289): header fields within their widths and a body of 484 bytes. -/
def Frame.wf (f : Frame) : Bool :=
  fits 16 f.seq && fits 16 f.ack && fits 20 f.ccred && fits 20 f.dcred && fits 8 f.epoch && decide (f.body.length = 484)

/-- A bundle of seam wires that exists: 240 lane bundles beside those whose type bounds them (R254). -/
def SeamBundle.wf (b : SeamBundle) : Bool :=
  match b with
  | .mesh _ _ _ => true
  | .expr _ _ _ => true
  | .lx _ _ _ => true
  | .lane i _ => decide (i < 240)

/-- A power sample: clusters, fields and activities that exist (R386). -/
def PowerSample.wf (x : PowerSample) : Bool :=
  x.iout.all (fun p => decide (p.1 < 240)) && x.act.all (fun p => decide (p.1 < 240) && decide (p.2 ≤ 64)) &&
    x.ifield.all (fun p => decide (p.1 < 12)) && x.vrail.all (fun p => decide (p.1 < 12))

/-- The header of a service message (R473). -/
def SvcHdr.wf (x : SvcHdr) : Bool := fits 32 x.session && fits 32 x.seq

/-- A service message: at most 1184 bytes of payload (R473). -/
def SvcMsg.wf (x : SvcMsg) : Bool := fits 32 x.session && fits 32 x.seq && decide (x.payload.length ≤ 1184)

/-- An SPDM request: a version and two parameters of one byte (R506). -/
def SpdmReq.wf (x : SpdmReq) : Bool := fits 8 x.version && fits 8 x.param1 && fits 8 x.param2

/-- Whether a command is well-formed. -/
def Instr.wf (i : Instr) : Bool :=
  match i with
  | .accessError _ off _ _ => fits 26 off
  | .registerWrite ws => ws.all RegWrite.wf
  | .sqDoorbell _ _ _ tail => fits 32 tail
  | .cqDoorbell _ _ _ head => fits 32 head
  | .descriptorFetch => true
  | .switchPoint => true
  | .batchStart => true
  | .deadlineExpire _ => true
  | .completionWrite _ => true
  | .msixSignal _ _ => true
  | .slotCfgWrite _ half v => halfFits half v
  | .stage _ _ src => fits 34 src
  | .stageDone _ => true
  | .remove _ _ src => fits 34 src
  | .activate _ _ src => fits 34 src
  | .seasonDrainDone => true
  | .seasonLoadDone => true
  | .seasonConfirmed => true
  | .layerStart => true
  | .layerEnd => true
  | .testWindowClose _ => true
  | .unitFire _ _ _ => true
  | .operandArrive _ q _ => fits 8 q
  | .tagHorizonExpire _ u => fits 8 u
  | .passIssue _ => true
  | .weightFrontStart _ => true
  | .weightFetch _ => true
  | .weightFetchDone _ => true
  | .passComplete _ _ => true
  | .kernelStart _ => true
  | .frameStart _ => true
  | .tilRunEn _ _ _ => true
  | .tilHaltReq _ _ _ => true
  | .tilTestWin _ _ _ => true
  | .tilCntFreeze _ _ _ => true
  | .tilCntClear _ _ => true
  | .tileDrainDone _ => true
  | .tilFaultClear _ _ => true
  | .tilDfFaultClear _ _ => true
  | .tileReset _ => true
  | .spVectorArith _ _ o => o.wf
  | .spConvert _ _ o => o.wf
  | .spLa96Convert _ _ o => o.wf
  | .spMxPack _ _ o => o.wf
  | .spMxUnpack _ _ o => o.wf
  | .spFunction _ _ o => o.wf
  | .spLaneReduce _ _ o => o.wf
  | .spIntLogic _ _ o => o.wf
  | .spVectorLoadStore _ _ _ o => o.wf
  | .spLa96LoadStore _ _ o => o.wf
  | .spScalarLoadStore _ _ _ o => o.wf
  | .spAnchorRead _ o => o.wf
  | .spBranch _ _ o => o.wf
  | .spHwLoop _ o => o.wf
  | .spMcReturn _ => true
  | .spEmit _ o => o.wf
  | .spWaitFlag _ _ o => o.wf
  | .spFence _ => true
  | .spEndKernel _ => true
  | .spIllegal _ opcode => fits 8 opcode
  | .mcAbsent _ index => fits 32 index
  | .katRun _ _ => true
  | .digest64 _ _ => true
  | .wdigest _ _ => true
  | .anchorCombine _ => true
  | .stateLoad _ _ => true
  | .stateStore _ _ => true
  | .spillDrain _ q => fits 8 q
  | .dmaSubmit _ => true
  | .latSend _ => true
  | .barArrive _ => true
  | .flagWrite _ => true
  | .quietReport _ => true
  | .detectorReply _ _ => true
  | .deadlockRecheck _ => true
  | .spillClose _ q => fits 8 q
  | .dmaDescStart _ _ _ => true
  | .dmaTimeout _ _ credit => fits 10 credit
  | .notifyResend _ _ => true
  | .landingReceive _ ch _ => fits 8 ch
  | .la96Receive _ ch _ => fits 8 ch
  | .channelCredit _ ch => fits 8 ch
  | .tunnelFlush _ ch _ => fits 8 ch
  | .routerForward _ _ _ => true
  | .ctlTimeout src txid => fits 12 src && fits 12 txid
  | .pktOperand p => p.wf
  | .pktAck p => p.wf
  | .pktRefuse p => p.wf
  | .pktReadReqWindow p => p.wf
  | .pktReadReqHbm p => p.wf
  | .pktNotify p => p.wf
  | .pktFlagWrite p => p.wf
  | .pktBarArrive p => p.wf
  | .pktTunnelCredit p => p.wf
  | .pktMgmt p => p.wf
  | .pktWrite p => p.wf
  | .pktHbmWrite p => p.wf
  | .pktReadData p => p.wf
  | .pktPrivWrite p => p.wf
  | .pktLatTunnel p => p.wf
  | .pktReservedOpcode p => p.wf
  | .quiesce => true
  | .seamWireMark b _ _ => b.wf
  | .stackTempRead _ _ _ _ => true
  | .hbmScrub _ _ _ => true
  | .hbmChannelFail _ _ => true
  | .mark _ slice => fits 10 slice
  | .unmark _ slice => fits 10 slice
  | .restore _ slice => fits 10 slice
  | .hbmMemoryTestDone _ _ _ => true
  | .linkTrainDone _ => true
  | .linkTrainTimeout _ => true
  | .linkAlignDone _ _ => true
  | .linkAlignFail _ => true
  | .initFrameSend _ => true
  | .initFrameReceive _ f => f.wf
  | .linkInitTimeout _ => true
  | .linkRetry _ => true
  | .linkFrameSend _ => true
  | .seqFrameReceive _ f _ => f.wf
  | .nullFrameReceive _ f _ => f.wf
  | .frameCrcFail _ _ => true
  | .nakResend _ => true
  | .linkReplay _ => true
  | .linkReplayTimeout _ => true
  | .linkSilence _ => true
  | .linkUcwLimit _ => true
  | .linkCreditStall _ _ => true
  | .lnkCtrlWrite _ _ v => fits 64 v
  | .lnkNarrowWrite _ _ half v => halfFits half v
  | .lnkCntClear _ _ => true
  | .cxlMemRead _ dpa => fits 64 dpa
  | .cxlMemWrite _ dpa data _ => fits 64 dpa && decide (data.length = 64)
  | .hdmCommit _ _ size skip => fits 64 size && fits 64 skip
  | .sqCfgWrite _ _ _ half v => halfFits half v
  | .cqCfgWrite _ _ _ half v => halfFits half v
  | .ownHeadRangeWrite _ _ v => fits 64 v
  | .headLinkDown _ => true
  | .headLinkUp _ _ _ => true
  | .perstAssert _ _ => true
  | .perstDeassert _ => true
  | .identifyMemoryDevice _ => true
  | .getSupportedLogs _ => true
  | .getLog _ uuid => fits 128 uuid
  | .getEventRecords _ _ => true
  | .clearEventRecords _ _ _ => true
  | .getTimestamp _ => true
  | .getHealthInfo _ => true
  | .setTimestamp _ v => fits 64 v
  | .mailboxUnsupported _ opcode => fits 16 opcode
  | .doeDiscovery _ index => fits 8 index
  | .cdatTableAccess _ _ => true
  | .claim _ => true
  | .renew _ => true
  | .release _ => true
  | .transfer _ _ => true
  | .ownCmdReserved _ op target => fits 3 op && fits 2 target
  | .leaseLow => true
  | .leaseLapse => true
  | .claimWindowExpire => true
  | .tileSramScrub _ _ word _ => fits 20 word
  | .digestArrive _ => true
  | .digestTimeout _ => true
  | .wdigestRoundStart => true
  | .wdigLate _ => true
  | .vinHighEnter _ _ => true
  | .vinHighRelease _ _ => true
  | .overvoltEnter _ _ => true
  | .overvoltRelease _ _ => true
  | .capEnter _ _ => true
  | .capRelease _ _ => true
  | .haltEnter _ _ => true
  | .haltRelease _ _ => true
  | .brownout _ _ => true
  | .brownoutRelease _ _ => true
  | .inputEnBreak => true
  | .vinQualify _ _ _ => true
  | .supplyInRegulation _ => true
  | .shutdown _ => true
  | .pwrCmdReserved _ op => fits 2 op
  | .ibcFail _ _ => true
  | .senseFault _ _ _ => true
  | .fieldLoss _ cause => decide (1 ≤ cause) && decide (cause ≤ 7)
  | .phaseFail _ _ => true
  | .shortTrip _ _ => true
  | .admissionGrant _ => true
  | .admissionForced _ => true
  | .softStartDone _ => true
  | .clusterRampDownDone _ => true
  | .auxConverterFault _ => true
  | .auxRailFault _ => true
  | .hostRailFault _ => true
  | .controlSample x => x.wf
  | .autumnExit => true
  | .thermalUpdate => true
  | .tempSample _ _ => true
  | .coolingReturn _ => true
  | .dieTrip _ _ _ => true
  | .coolantSample _ _ => true
  | .winterRequest _ _ => true
  | .winterEnter => true
  | .winterExit _ => true
  | .pllLock _ => true
  | .pllLockLoss _ => true
  | .pllRelockTimeout _ => true
  | .crefLoss => true
  | .skewRead _ _ => true
  | .marginReport _ ps => fits 16 ps
  | .stepUpBegin => true
  | .dividerSwitch _ => true
  | .vsetStep _ => true
  | .syncStrobe errors => decide (errors.length = 12)
  | .epochWrite _ half v => halfFits half v
  | .fabricReset _ _ => true
  | .deviceReset _ => true
  | .powerOnReset => true
  | .fcWatchdogExpire _ => true
  | .supWatchdogExpire => true
  | .resetCmdFabric _ => true
  | .resetCmdDevice _ => true
  | .resetCmdReserved _ => true
  | .rebuild _ => true
  | .retryField _ f => fits 4 f
  | .cancel _ => true
  | .bootRomStart _ => true
  | .supervisorFirmwareStart _ => true
  | .fieldControllerBoot _ => true
  | .fieldQuoteReceive _ _ => true
  | .springStep _ => true
  | .springDone => true
  | .standbyPromote _ _ => true
  | .remapTargetsReady _ => true
  | .remapBeginWritten => true
  | .remapCopyDone _ => true
  | .remapCommitWritten => true
  | .remapEndWritten => true
  | .nvmDeviceFail _ => true
  | .install _ src => fits 34 src
  | .enroll _ src => fits 34 src
  | .selectCurrent _ => true
  | .selectPrevious _ => true
  | .cfgCmdReserved _ op => fits 3 op
  | .halfCommand _ off v => fits 26 off && fits 64 v
  | .permitWrite _ v => fits 64 v
  | .updActivate _ => true
  | .arm _ => true
  | .disarm _ => true
  | .reject _ => true
  | .erase _ => true
  | .abort _ => true
  | .updCmdReserved _ => true
  | .trialTimerExpire => true
  | .trialSpringLimit => true
  | .trialDeadline => true
  | .trialHealthBroken => true
  | .trialConfirm => true
  | .hello x nc => x.wf && decide (nc.length = 32)
  | .authKey x _ => x.wf
  | .auth x _ _ => x.wf
  | .svcHalfOpenLapse => true
  | .close x => x.wf
  | .nop x => x.wf
  | .svcSessionTimeout => true
  | .regRead x => x.wf
  | .regWrite x => x.wf
  | .cfgPart x => x.wf
  | .enrollPart x => x.wf
  | .cfgSelect x => x.wf
  | .fwBegin x => x.wf
  | .fwData x => x.wf
  | .fwEnd x => x.wf
  | .fwAbort x => x.wf
  | .logRead x => x.wf
  | .eventAck x => x.wf
  | .svcEventResend _ => true
  | .getVersion _ x => x.wf
  | .getCapabilities _ x => x.wf
  | .negotiateAlgorithms _ x => x.wf
  | .getDigests _ x => x.wf
  | .getCertificate _ x off len => x.wf && fits 16 off && fits 16 len
  | .challenge _ x nonce => x.wf && decide (nonce.length = 32)
  | .getMeasurements _ x index _ nonce => x.wf && fits 8 index && decide (nonce.length = 32)
  | .spdmUnsupported _ x => x.wf
  | .logPageWrite => true
  | .lifetimeWrite => true
  | .lifetimePersist _ v => fits 64 v
  | .stressTick => true
  | .entdaa addr => fits 7 addr
  | .setdasa target addr => fits 7 target && fits 7 addr
  | .rstdaa => true
  | .getpid => true
  | .getbcr => true
  | .getdcr => true
  | .getstatus => true
  | .getmwl => true
  | .getmrl => true
  | .i3cCccUnsupported code => fits 8 code
  | .i3cPrivateWrite _ => true
  | .i3cPrivateRead _ => true
  | .i3cIbi => true
  | .inputEnMate _ => true
  | .svcBlockLock _ => true
  | .arpNeighbourDiscovery _ _ mac => fits 48 mac
  | .icmpEcho _ _ _ => true

end Sys2Proof
end

