-- ==== Sys2Proof/Safety.lean ====
section
/-! DEFINITION. What a sound state of the machine is, when a command completes, and what a command leaves alone: the
terms in which the statements speak. -/

namespace Sys2Proof.Machine

open Sys2Proof

/-- The invariant of the machine: the register file and HBM keep their canonical form, so that equal contents are equal
data; OTP holds at most four firmware key digests; at most 16 EVENT messages are held unacknowledged (R475); and the
error log's ring holds at most 8,192 entries (R521). -/
structure Inv (s : State) : Prop where
  regs : twf regReset s.regs = true
  hbm : Memory.wf s.hbm = true
  otp : s.nvm.otp.length ≤ 4
  events : s.svc.events.length ≤ 16
  held : s.log.held.length ≤ logRing

/-- A sound state whose queue is `q`: what every operation of a command keeps. -/
structure Good (q : List Instr) (s : State) : Prop where
  pending : s.pending = q
  inv : Inv s

/-- The device is powered: no cause has stopped its converters (R10). -/
abbrev On (s : State) : Prop := s.power.off = none

/-- A command completes in a next state of which `P` holds. -/
def Completes (c : Instr) (s : State) (P : State → Prop) : Prop := ∃ u, exec c s = .next u ∧ P u

/-- Every register of whose offset `p` does not hold is unchanged. -/
def RegsBut (p : Nat → Prop) (s u : State) : Prop := ∀ off, ¬ p off → rd u off = rd s off

/-- Every byte of HBM is unchanged. -/
def HbmSame (s u : State) : Prop := ∀ a, hbmByte u a = hbmByte s a

/-- Every byte of HBM outside a range is unchanged. -/
def HbmBut (a n : Nat) (s u : State) : Prop := ∀ b, b < a ∨ a + n ≤ b → hbmByte u b = hbmByte s b

/-- Registers that a log entry or a report to the hosts may change: LED_LOG_STAT, and each head's QUE_EVENT and pending
bits (R320, R523). -/
def ReportReg (off : Nat) : Prop :=
  off = ledLogStat ∨ ∃ h, h < 2 ∧ (off = queEvent h ∨ off = msixPba h 0 ∨ off = msixPba h 1)

/-- The second state is what log entries and reports make of the first: apart from their registers, the log, and what
is queued for the hosts, the service client and the tray controller, nothing has changed. -/
def Reports (s u : State) : Prop :=
  RegsBut ReportReg s u ∧ u = { s with regs := u.regs, log := u.log, svc := u.svc, i3c := u.i3c, host := u.host }

/-- As `Reports`, with further registers that may have changed. -/
def ReportsAnd (p : Nat → Prop) (s u : State) : Prop :=
  RegsBut (fun o => p o ∨ ReportReg o) s u ∧
    u = { s with regs := u.regs, log := u.log, svc := u.svc, i3c := u.i3c, host := u.host }

/-- Memories, tiles, requests, links, fabric, ownership and the sessions of the management paths are unchanged. -/
def WorkSame (s u : State) : Prop :=
  u.hbm = s.hbm ∧ u.tiles = s.tiles ∧ u.req = s.req ∧ u.links = s.links ∧ u.net = s.net ∧ u.own = s.own ∧ u.spdm = s.spdm

/-- The map record that NVM holds: the newest, or the one before it where R28 does not admit the newest. -/
def storedMap (s : State) : MapRecord := if mapOk s.boot.fuse s.boot.nvmMap then s.boot.nvmMap else s.boot.nvmPrev

/-- Every converter is stopped by a cause: no supply is up, every volatile memory, queue, session and link state is gone,
and what NVM and OTP hold stays (R356, R358, R441). -/
def Stopped (why : OffCause) (s u : State) : Prop :=
  u.power.off = some why ∧ u.power.up = [] ∧ u.hbm = [] ∧ u.tiles = [] ∧ u.links = [] ∧ u.net = {} ∧ u.req = {} ∧
    u.own = {} ∧ u.svc = {} ∧ u.nvm.otp = s.nvm.otp ∧ u.boot.map = storedMap s ∧ u.pending = s.pending

/-- A message of a type that the open session takes: its session, its MAC under the session key, and a new SEQ within the
window (R473, R475). -/
structure SvcValid (type : Nat) (key : List Byte) (x : SvcMsg) (s : State) : Prop where
  opened : s.svc.key = some key
  session : x.session = s.svc.session
  alive : s.devtime < s.svc.lastMsg + 30 * secTicks
  length : x.payload.length ≤ svcMaxPayload
  mac : x.mac = svcMac key (svcHeader type x.session x.seq x.payload.length 0 false) x.payload
  fresh : tget (fun _ => none) s.svc.replies x.seq = none
  low : s.svc.low ≤ x.seq
  high : x.seq ≤ s.svc.low + 64

/-- The reply that a message of the open session receives, with its MAC (R473). -/
def SvcReplied (type status : Nat) (key : List Byte) (x : SvcMsg) (payload : List Byte) (u : State) : Prop :=
  u.answer = .svcReply type status x.session x.seq payload
    (svcMac key (svcHeader type x.session x.seq payload.length status true) payload)

/-- A transport takes SPDM requests: DOE of a head while its link is up, the service port always. -/
def SpdmReaches (tr : Transport) (s : State) : Prop := ∀ h, tr = .doe h → linkUp s (hnum h) = true

/-- Every tile but one is unchanged. -/
def OtherTiles (t : Nat) (s u : State) : Prop := ∀ t', t' ≠ t → tile u t' = tile s t'

/-- The stream processor of a tile may issue the next instruction of its kernel: the tile works, no microcode routine runs
for the kernel, the kernel's length is not used up, its next word in the instruction store is the instruction `m`, and no word
of the tile's memories is in error (R102, R103, R108, R110, R113). -/
structure SpReady (m : Nat → Bool) (t : Nat) (k : KernelRun) (s : State) : Prop where
  kernel : (tile s t).kernel = some k
  works : tileWorks s t = true
  micro : k.micro = none
  length : k.pc < keLength (runEntry (tile s t) k)
  word : m (spWord (tile s t) k) = true
  errs : (tile s t).errs = []

/-- An instruction has retired: the kernel goes on with the next one, TIL_SPINSTR_CNT counts it unless the counters are
frozen, and beyond that tile, that counter and the registers `p`, nothing has changed. -/
structure SpRetired (p : Nat → Prop) (t : Nat) (k : KernelRun) (s u : State) : Prop where
  kernel : (tile u t).kernel = some { k with pc := (afterInstr k.pc k.loops).1, loops := (afterInstr k.pc k.loops).2 }
  count : counting s t = true → rd u (tilCnt t TilCnt.tilSpinstrCnt) = rd s (tilCnt t TilCnt.tilSpinstrCnt) + 1
  regs : RegsBut (fun o => o = tilCnt t TilCnt.tilSpinstrCnt ∨ p o) s u
  others : OtherTiles t s u
  same : u = { s with regs := u.regs, tiles := u.tiles }

/-- Lanes of one vector register are written under a predicate: the others, and every other register, keep theirs (R102). -/
def LanesWritten (t r pred : Nat) (f : Nat → Nat) (s u : State) : Prop :=
  (∀ l, l < 64 → vlane (tile u t) r l = if bit1 pred l then f l % 2 ^ 32 else vlane (tile s t) r l) ∧
  (∀ r' l, r' % 32 ≠ r % 32 → l < 64 → vlane (tile u t) r' l = vlane (tile s t) r' l) ∧
  (tile u t).sreg = (tile s t).sreg ∧ (tile u t).preg = (tile s t).preg

/-- The memories of a tile are unchanged. -/
def TileMems (t : Nat) (s u : State) : Prop :=
  (tile u t).wm = (tile s t).wm ∧ (tile u t).am = (tile s t).am ∧ (tile u t).pm = (tile s t).pm ∧
    (tile u t).istore = (tile s t).istore

/-- A packet has been handed to the interface or attach port of its source, with its CRC: it stands there or in the input
buffer of a router (R232, R235). -/
def Sent (p : Packet) (u : State) : Prop :=
  ∃ r k, { p with route := r, upset := [], crc := packetCrc p } ∈ bufOf u k ++ tget (fun _ => []) u.net.nic k

/-- A tile has recorded a fault of a code and has stopped (R114, R119). -/
def TileFaulted (t code : Nat) (u : State) : Prop :=
  tileSt u t = tsHalt ∧ get u (tilFault t) TilFault.valid = 1 ∧ get u (tilFault t) TilFault.code = code

end Sys2Proof.Machine
end

