-- ==== Sys2Proof/Certificates/Slice0/Obligations.lean ====
section
/-! DEFINITION. What is claimed of the machine: one definition per statement, in the terms of Sys2Proof/Safety.lean. -/

open Sys2Proof Sys2Proof.Machine

/-- A step of a state whose queue begins with a command is that command run on the state with the rest of the queue,
and the step of an idle device that is powered advances DEVTIME by one tick: of the registers only the routers'
throttle counts may change, of the rest only the time of throttled routers and the counts of fields that slew; with no
router throttled and no field slewing nothing else changes. An idle device without power does nothing (the tick on an
empty queue is a choice of the model, log entry 1) (95_what_each_step_holds.md). -/
def Obligations.StepRunsFrontCommand : Prop :=
  (∀ (c : Instr) (r : List Instr) (s : State), s.pending = c :: r → step s = exec c { s with pending := r }) ∧
  (∀ s : State, s.pending = [] → On s → ∃ u, step s = .next u ∧ u.devtime = s.devtime + 1 ∧
    RegsBut (fun o => ∃ g, o = conRouterStat g) s u ∧
    u = { s with devtime := u.devtime, regs := u.regs, clock := u.clock, net := u.net } ∧
    u.net = { s.net with throttleFor := u.net.throttleFor } ∧
    u.clock = { s.clock with slew := u.clock.slew, offset := u.clock.offset }) ∧
  (∀ s : State, s.pending = [] → On s → s.net.throttled = [] → s.clock.slew = [] →
    step s = .next { s with devtime := s.devtime + 1 }) ∧
  ∀ s : State, s.pending = [] → ¬ On s → step s = .next s

/-- The state right after reset meets the invariant of the machine. No command waits, every register holds its reset
value, every byte of HBM is zero, every tile is as a tile that has been reset, DEVTIME is 0, the device is powered and
in SPRING, no master is the owner. Among the register values of the spec: FILL 1, the default SUST_W of 12,000,
TARGET_DIV 8, HOLD_S 600, LEASE_MS 100, ILIM 60 and L_therm 64 of every cluster, and every cluster off (that HBM holds
zeros before it is written is log entry 2, a value of the model) (R10, R15, R275, R381, R394, R402, R403, R421, R424,
R467, R475, R521). -/
def Obligations.ResetStateIsSound : Prop :=
  Inv State.reset ∧ State.reset.pending = [] ∧ (∀ off, rd State.reset off = regReset off) ∧
    (∀ a, hbmByte State.reset a = 0) ∧ (∀ t, tile State.reset t = {}) ∧ State.reset.devtime = 0 ∧ On State.reset ∧
    devState State.reset = .spring ∧ owner State.reset = none ∧ get State.reset pwrLimit PwrLimit.fill = 1 ∧
    get State.reset pwrLimit PwrLimit.sustW = 12000 ∧ get State.reset clkCtrl ClkCtrl.targetDiv = 8 ∧
    get State.reset clkCtrl ClkCtrl.holdS = 600 ∧ get State.reset ownCfg OwnCfg.leaseMs = 100 ∧
    ∀ g, g < 240 → get State.reset (pwrClCfg g) PwrClCfg.ilim = 60 ∧
      get State.reset (pwrClTherm g) PwrClTherm.lTherm = 64 ∧ get State.reset (pwrClStat g) PwrClStat.state = 0

/-- From every state that meets the invariant, whatever commands wait, a step that answers a next state answers one
that meets it: the register file and HBM stay in canonical form, OTP never holds more than four firmware key digests,
never more than 16 EVENT messages are held unacknowledged, and the error log never exceeds its ring of 8,192 entries
(R467, R475, R521, R522, R275). -/
def Obligations.EveryStepKeepsInvariant : Prop :=
  ∀ s u : State, Inv s → step s = .next u → Inv u

/-- Whatever the command, its operands and the state, the command answers a next state, never a fault and never a
refusal, and the queue of waiting commands is as it was (95_what_each_step_holds.md). -/
def Obligations.EveryCommandCompletes : Prop :=
  ∀ (c : Instr) (s : State), ∃ u, exec c s = .next u ∧ u.pending = s.pending

/-- A head writes the address of one of its MSI-X vectors: the writable bits take the value and no other register
changes. A write to a 32-bit register that holds only RO, ROS and reserved fields changes nothing at all. A write of a
register with an RWO field by a master that is not the owner leaves every register as it was but those of the log. It
says of these constructors that they complete: registerWrite (R18, R19, R21, R320). -/
def Obligations.RegisterWriteRules : Prop :=
  (∀ (h : Head) (k v : Nat) (s : State), On s → headOff s (hnum h) = false → k < 65 → v < 2 ^ 64 →
    Completes (.registerWrite [⟨headMaster h, msixAddr (hnum h) k, 64, v⟩]) s fun u =>
      (∃ d, regAt (msixAddr (hnum h) k) = some d ∧ rd u (msixAddr (hnum h) k) =
        (rd s (msixAddr (hnum h) k) &&& ~~~(BitVec.ofNat 64 d.rw)) ||| (BitVec.ofNat 64 v &&& BitVec.ofNat 64 d.rw)) ∧
      RegsBut (· = msixAddr (hnum h) k) s u ∧ u = { s with regs := u.regs, answer := .done }) ∧
  (∀ (m : Master) (off v : Nat) (d : RegDesc) (s : State), On s → regAt off = some d → off % 4 = 0 → inCxlBlock off = false →
    d.rw = 0 → d.rw1c = 0 → d.wo = 0 → d.rwo = 0 → halfCommand off = false →
    Completes (.registerWrite [⟨m, off, 32, v⟩]) s fun u => u = { s with answer := .done }) ∧
  (∀ (m : Master) (off v : Nat) (d : RegDesc) (s : State), On s → regAt off = some d → d.width = 64 → off % 8 = 0 →
    d.rwo ≠ 0 → d.rwo < 2 ^ 64 → regOff s off = false → owner (settle s) ≠ some m →
    Completes (.registerWrite [⟨m, off, 64, v⟩]) s fun u => Reports { settle s with answer := .done } u)

/-- Every register is 32 bits wide, or 64 bits at an offset that is a multiple of 8. An access that is not a naturally
aligned 32-bit or 64-bit one has no effect: a read returns zero, a write is discarded, and the log holds an access
error of its master. A 32-bit write to either half of SUP_SEASON_CMD or NVM_CFG_CMD, by its own row or as a register
write, is discarded and logged with HALF_COMMAND, while a 64-bit write acts: a season command is kept while a change
runs, a choice of record is recorded. (The log claims are stated for a ring that has room). It says of these
constructors that they complete: accessError, halfCommand, registerWrite (R17, R532). -/
def Obligations.AccessErrors : Prop :=
  (∀ off d, regAt off = some d → (d.width = 32 ∧ off % 4 = 0) ∨ (d.width = 64 ∧ off % 8 = 0)) ∧
  (∀ (m : Master) (off width : Nat) (write : Bool) (s : State), On s → s.log.held.length < logRing →
    ¬ (width = 32 ∧ off % 4 = 0) → ¬ (width = 64 ∧ off % 8 = 0) →
    Completes (.accessError m off width write) s fun u => u.answer = (if write then .done else .word 0) ∧
      (∃ x ∈ u.log.held, x.kind = kAccess ∧ x.code = 1 ∧ x.object = mcode m) ∧
      Reports { s with answer := u.answer } u) ∧
  (∀ (m : Master) (off v : Nat) (s : State), On s → s.log.held.length < logRing →
    (off = supSeasonCmd ∨ off = supSeasonCmd + 4 ∨ off = nvmCfgCmd ∨ off = nvmCfgCmd + 4) →
    Completes (.halfCommand m off v) s (fun u => (∃ x ∈ u.log.held, x.kind = kAccess ∧ x.code = 3 ∧ x.object = mcode m) ∧
      Reports s u) ∧
    Completes (.registerWrite [⟨m, off, 32, v⟩]) s fun u =>
      (∃ x ∈ u.log.held, x.kind = kAccess ∧ x.code = 3 ∧ x.object = mcode m) ∧ Reports { s with answer := .done } u) ∧
  (∀ (m : Master) (slot op src : Nat) (s : State), On s → owner (settle s) = some m →
    (slot < 8 → 1 ≤ op → op ≤ 3 → src < 2 ^ 34 → stageRuns (settle s) = false → s.req.deferred = none →
      s.req.change.isSome = true → Completes (.registerWrite [⟨m, supSeasonCmd, 64, slot + op * 8 + src * 4096⟩]) s fun u =>
        u.req.deferred = some { op := op, slot := slot, src := src }) ∧
    Completes (.registerWrite [⟨m, nvmCfgCmd, 64, 3⟩]) s (fun u => u.nvm.select = 0) ∧
    Completes (.registerWrite [⟨m, nvmCfgCmd, 64, 4⟩]) s fun u => u.nvm.select = 1)

/-- An INFO or NOTICE event equal in BLOCK, KIND, SOURCE, CODE and OBJECT to an entry made within the last 1 s and not
yet written to NVM, the first such one, raises the REPEAT of that entry, at most to 65,535, and does nothing else. A
DEGRADE, ERROR or FATAL event never folds: it makes an entry of its own with REPEAT 0 (stated for a ring that has
room) (R520). -/
def Obligations.RepeatedEventsFold : Prop :=
  (∀ (e : LogEv) (l r : List LogEntry) (x : LogEntry) (s : State), 1 ≤ e.sev → e.sev ≤ 2 → s.log.held = l ++ x :: r →
    (∀ y ∈ l, y.block ≠ e.block ∨ y.kind ≠ e.kind ∨ y.source ≠ e.source ∨ y.code ≠ e.code % 65536 ∨ y.object ≠ e.object ∨
      y.time + secTicks < s.devtime) → x.block = e.block → x.kind = e.kind → x.source = e.source →
    x.code = e.code % 65536 → x.object = e.object → s.devtime ≤ x.time + secTicks →
    logEvent e s = { s with log := { s.log with held := l ++ { x with rep := min 65535 (x.rep + 1) } :: r } }) ∧
  (∀ (e : LogEv) (s : State), 3 ≤ e.sev → s.log.held.length < logRing →
    ∃ x, (logEvent e s).log.held = s.log.held ++ [x] ∧ x.rep = 0 ∧ x.sev = e.sev)

/-- After a lapse and a window's end that are due have been applied: CLAIM by a present, eligible master with no
owner, and no window or the window its own, makes it the owner with a full lease, closes the window and answers OK;
RENEW by the owner restarts the lease and changes no owner; RELEASE by the owner ends ownership; TRANSFER by the owner
to another present, eligible master makes that one the owner with a full lease. A lease that has reached its end ends
ownership. None of them touches HBM, tiles, links or requests. It says of these constructors that they complete:
claim, renew, release, transfer, leaseLapse (R325, R326, R327). -/
def Obligations.OwnershipActs : Prop :=
  (∀ (m : Master) (s : State), On s → eligible (settle s) m = true → present (settle s) m = true →
    owner (settle s) = none → (windowOpen (settle s) = true → get (settle s) ownStat OwnStat.holder = mcode m) →
    Completes (.claim m) s fun u => owner u = some m ∧ windowOpen u = false ∧ get u (ownCmdOf m) OwnCmdSvc.result = 1 ∧
      u.own.expiry = s.devtime + leaseTicks s ∧ u.hbm = s.hbm ∧ u.tiles = s.tiles ∧ u.links = s.links ∧ u.req = s.req) ∧
  (∀ (m : Master) (s : State), On s → owner (settle s) = some m →
    Completes (.renew m) s fun u => owner u = some m ∧ get u (ownCmdOf m) OwnCmdSvc.result = 1 ∧
      u.own.expiry = s.devtime + leaseTicks s ∧ RegsBut (· = ownCmdOf m) (settle s) u ∧
      u = { settle s with regs := u.regs, own := u.own }) ∧
  (∀ (m : Master) (s : State), On s → owner (settle s) = some m →
    Completes (.release m) s fun u => owner u = none ∧ get u (ownCmdOf m) OwnCmdSvc.result = 1 ∧
      (get s ownCfg OwnCfg.claimWinMs ≠ 0 → windowOpen u = true) ∧ u.hbm = s.hbm ∧ u.tiles = s.tiles ∧ u.links = s.links ∧
      u.req = s.req) ∧
  (∀ (m t : Master) (s : State), On s → owner (settle s) = some m → t ≠ m → eligible (settle s) t = true →
    present (settle s) t = true →
    Completes (.transfer m t) s fun u => owner u = some t ∧ get u (ownCmdOf m) OwnCmdSvc.result = 1 ∧
      u.own.expiry = s.devtime + leaseTicks s ∧ u.hbm = s.hbm ∧ u.tiles = s.tiles ∧ u.links = s.links ∧ u.req = s.req) ∧
  (∀ s : State, On s → (owner s).isSome = true → s.own.expiry ≤ s.devtime →
    Completes .leaseLapse s fun u => owner u = none ∧ (get s ownCfg OwnCfg.claimWinMs ≠ 0 → windowOpen u = true ∧
      u.own.windowEnd = s.devtime + get s ownCfg OwnCfg.claimWinMs * msTicks) ∧ u.hbm = s.hbm ∧ u.tiles = s.tiles)

/-- A CLAIM by a head or the service client that fails leaves the owner as it is after a due lapse and takes
NOT_ELIGIBLE when the master is not eligible, otherwise NOT_PRESENT when it is not present, otherwise OWNED when an
owner exists, unless that owner claimed in this very tick with a lower priority: then the claimant becomes the owner,
the other takes OWNED and CHANGES counts one change. Otherwise it takes WINDOW when a window is open and the master is
not its holder. When a quarter of the lease or less remains and the owner is a head not yet told, its QUE_EVENT gets
LEASE_LOW and ownership is unchanged. A claim window whose span has passed closes: no holder, and the owner as before.
A reserved operation, or a TRANSFER to the reserved target, changes nothing but what its log entry changes. It says of
these constructors that they complete: claim, leaseLow, claimWindowExpire, ownCmdReserved (R320, R325, R326, R327,
R566). -/
def Obligations.OwnershipFailuresAndTimers : Prop :=
  (∀ (m : Master) (s : State), On s → m ≠ .fw →
    (eligible (settle s) m = false → Completes (.claim m) s fun u =>
      owner u = owner (settle s) ∧ get u (ownCmdOf m) OwnCmdSvc.result = 3) ∧
    (eligible (settle s) m = true → present (settle s) m = false → Completes (.claim m) s fun u =>
      owner u = owner (settle s) ∧ get u (ownCmdOf m) OwnCmdSvc.result = 9) ∧
    (eligible (settle s) m = true → present (settle s) m = true → (owner (settle s)).isSome = true →
      outbid m (settle s) = none →
      Completes (.claim m) s fun u => owner u = owner (settle s) ∧ get u (ownCmdOf m) OwnCmdSvc.result = 5) ∧
    (∀ o, eligible (settle s) m = true → present (settle s) m = true → outbid m (settle s) = some o →
      Completes (.claim m) s fun u => owner u = some m ∧ get u (ownCmdOf m) OwnCmdSvc.result = 1 ∧
        get u (ownCmdOf o) OwnCmdSvc.result = 5 ∧ get u ownStat OwnStat.changes = get (settle s) ownStat OwnStat.changes) ∧
    (eligible (settle s) m = true → present (settle s) m = true → owner (settle s) = none →
      windowOpen (settle s) = true → get (settle s) ownStat OwnStat.holder ≠ mcode m →
      Completes (.claim m) s fun u => owner u = owner (settle s) ∧ get u (ownCmdOf m) OwnCmdSvc.result = 4)) ∧
  (∀ (h : Head) (s : State), On s → owner s = some (headMaster h) → s.own.lowDone = false → s.devtime < s.own.expiry →
    4 * (s.own.expiry - s.devtime) ≤ leaseTicks s →
    Completes .leaseLow s fun u => bit1 (rd u (queEvent (hnum h))).toNat 1 = true ∧ u.own.lowDone = true ∧
      owner u = owner s ∧ RegsBut (fun o => o = queEvent (hnum h) ∨ o = msixPba (hnum h) 1) s u ∧
      u = { s with regs := u.regs, own := u.own, host := u.host }) ∧
  (∀ s : State, On s → windowOpen s = true → s.own.windowEnd ≤ s.devtime →
    Completes .claimWindowExpire s fun u => windowOpen u = false ∧ get u ownStat OwnStat.holder = 3 ∧ owner u = owner s ∧
      RegsBut (fun o => o = ownStat ∨ ReportReg o) s u ∧ u = { s with regs := u.regs, host := u.host }) ∧
  (∀ (m : Master) (op target : Nat) (s : State), On s → op < 8 → (5 ≤ op ∨ (op = 4 ∧ target % 4 = 3)) →
    Completes (.ownCmdReserved m op target) s fun u => Reports s u)

/-- A head writes its queue configuration whole, and the write is not one that R316 discards: the register takes the
value with reserved bits zero, enabling a queue sets its head and tail to 0 (and a completion queue's phase to 1), and
no register of another queue changes. A doorbell of an enabled submission queue with a value below the ring size sets
its tail and nothing else; a value at or above the ring size, or a disabled queue, sets DB_ERR of the queue and leaves
the tail. A completion doorbell within the ring's entries sets the head. A write that R316 discards changes nothing
but what its log entry changes. It says of these constructors that they complete: sqCfgWrite, cqCfgWrite, sqDoorbell,
cqDoorbell (R315, R316, R317, R535). -/
def Obligations.QueueConfigurationAndDoorbells : Prop :=
  (∀ (h : Head) (q : QueueId) (v : Nat) (s : State), On s → headOff s (hnum h) = false →
    sqCfgRefused s (hnum h) q (sqCfgMask (v % 2 ^ 64)) = false →
    Completes (.sqCfgWrite (headMaster h) h q .full v) s fun u =>
      rd u (queSqCfg (hnum h) q) = sqCfgMask (v % 2 ^ 64) ∧
      (get s (queSqCfg (hnum h) q) QueSqCfg.enable = 0 → getF (sqCfgMask (v % 2 ^ 64)) QueSqCfg.enable = 1 →
        get u (queSqStat (hnum h) q) QueSqStat.head = 0 ∧ get u (queSqStat (hnum h) q) QueSqStat.tail = 0) ∧
      RegsBut (fun o => o = queSqCfg (hnum h) q ∨ o = queSqStat (hnum h) q) s u ∧ u = { s with regs := u.regs }) ∧
  (∀ (h : Head) (q : QueueId) (v : Nat) (s : State), On s → headOff s (hnum h) = false →
    cqCfgRefused s (hnum h) q (cqCfgMask (v % 2 ^ 64)) = false →
    Completes (.cqCfgWrite (headMaster h) h q .full v) s fun u =>
      rd u (queCqCfg (hnum h) q) = cqCfgMask (v % 2 ^ 64) ∧
      (get s (queCqCfg (hnum h) q) QueCqCfg.enable = 0 → getF (cqCfgMask (v % 2 ^ 64)) QueCqCfg.enable = 1 →
        cqHeadOf u (hnum h) q = 0 ∧ cqTail u (hnum h) q = 0 ∧ get u (queCqStat (hnum h) q) QueCqStat.phase = 1) ∧
      RegsBut (fun o => o = queCqCfg (hnum h) q ∨ o = queCqStat (hnum h) q) s u ∧ u = { s with regs := u.regs, req := u.req }) ∧
  (∀ (h : Head) (q : QueueId) (v : Nat) (s : State), On s → headOff s (hnum h) = false →
    sqCfgRefused s (hnum h) q (sqCfgMask (v % 2 ^ 64)) = true →
    Completes (.sqCfgWrite (headMaster h) h q .full v) s fun u => Reports s u) ∧
  (∀ (h : Head) (q : QueueId) (tail : Nat) (s : State), On s → headOff s (hnum h) = false → linkUp s (hnum h) = true →
    tail < 4096 → get s (queSqCfg (hnum h) q) QueSqCfg.enable = 1 →
    Completes (.sqDoorbell (headMaster h) h q tail) s fun u =>
      (tail < 2 ^ get s (queSqCfg (hnum h) q) QueSqCfg.sizeLog2 →
        get u (queSqStat (hnum h) q) QueSqStat.tail = tail ∧ RegsBut (· = queSqStat (hnum h) q) s u ∧
        u = { s with regs := u.regs }) ∧
      (2 ^ get s (queSqCfg (hnum h) q) QueSqCfg.sizeLog2 ≤ tail →
        get u (queSqStat (hnum h) q) QueSqStat.dbErr = 1 ∧ bit1 (rd u (queEvent (hnum h))).toNat 4 = true ∧
        get u (queSqStat (hnum h) q) QueSqStat.tail = get s (queSqStat (hnum h) q) QueSqStat.tail)) ∧
  (∀ (h : Head) (q : QueueId) (head : Nat) (s : State), On s → headOff s (hnum h) = false → linkUp s (hnum h) = true →
    get s (queCqCfg (hnum h) q) QueCqCfg.enable = 1 → head < 4096 → head < cqSize s (hnum h) q →
    beyondTail (cqSize s (hnum h) q) (cqHeadOf s (hnum h) q) (cqTail s (hnum h) q) head = false →
    cqHeld s (hnum h) q = [] →
    Completes (.cqDoorbell (headMaster h) h q head) s fun u => cqHeadOf u (hnum h) q = head ∧ u.hbm = s.hbm)

/-- A completion queue with unannounced entries, IRQ_EN set, its head's link up, its vector unmasked and AGG_US passed
since its last signal signals once: the message count of its vector rises by one and the time is noted. The owner sets
a head range that R311 admits: base and size take the written values and no other register changes. A commit of a
decoder whose span lies in the head range and is a whole number of 256 MiB sets its DEC_COMMIT bit and maps the span;
one of another size is not committed. It says of these constructors that they complete: msixSignal, ownHeadRangeWrite,
hdmCommit (R311, R312, R320). -/
def Obligations.SignalsRangesAndDecoders : Prop :=
  (∀ (h : Head) (q : QueueId) (s : State), On s → tget (fun _ => false) s.host.unsignalled (cqKey (hnum h) q) = true →
    linkUp s (hnum h) = true → get s (queCqCfg (hnum h) q) QueCqCfg.irqEn = 1 →
    get s (msixData (hnum h) (get s (queCqCfg (hnum h) q) QueCqCfg.vec)) MsixData.mask = 0 →
    (∀ t, tget (fun _ => none) s.host.signalled (cqKey (hnum h) q) = some t →
      t + get s (queCqCfg (hnum h) q) QueCqCfg.aggUs * usTicks ≤ s.devtime) →
    Completes (.msixSignal h q) s fun u =>
      tget (fun _ => 0) u.host.msix (65 * hnum h + get s (queCqCfg (hnum h) q) QueCqCfg.vec) =
        tget (fun _ => 0) s.host.msix (65 * hnum h + get s (queCqCfg (hnum h) q) QueCqCfg.vec) + 1 ∧
      tget (fun _ => none) u.host.signalled (cqKey (hnum h) q) = some s.devtime ∧
      tget (fun _ => false) u.host.unsignalled (cqKey (hnum h) q) = false ∧ u = { s with host := u.host }) ∧
  (∀ (m : Master) (h : Head) (base size : Nat) (s : State), On s → owner (settle s) = some m → base < 1024 → size ≤ 512 →
    (base + size) * 2 ^ 30 ≤ reservedBase (settle s) →
    outsideSpan (settle s) (hnum h) (base * 2 ^ 30) (size * 2 ^ 30) = false →
    bufferOutside (settle s) (hnum h) (base * 2 ^ 30) (size * 2 ^ 30) = false →
    Completes (.ownHeadRangeWrite m h (base + size * 2 ^ 10)) s fun u =>
      get u (ownHeadRange (hnum h)) OwnHeadRange.base = base ∧ get u (ownHeadRange (hnum h)) OwnHeadRange.size = size ∧
      RegsBut (· = ownHeadRange (hnum h)) (settle s) u ∧ u = { settle s with regs := u.regs }) ∧
  (∀ (h : Head) (d : Fin 4) (size skip : Nat) (s : State), On s → linkUp s (hnum h) = true →
    decoder s (hnum h) d = none → 0 < size → size % 0x10000000 = 0 →
    exposed s (hnum h) (decodersEnd s (hnum h) d + skip) size = true →
    Completes (.hdmCommit h d size skip) s fun u =>
      decoder u (hnum h) d = some (decodersEnd s (hnum h) d + skip, size) ∧ u.answer = .done ∧
      RegsBut (· = queHeadStat (hnum h)) s u ∧ u = { s with regs := u.regs, host := u.host, answer := u.answer }) ∧
  (∀ (h : Head) (d : Fin 4) (size skip : Nat) (s : State), On s → size % 0x10000000 ≠ 0 →
    Completes (.hdmCommit h d size skip) s fun u => u = { s with answer := .notCommitted })

/-- A read of a mapped line outside SPRING and fabric reset, whose home is in service and which holds no burst in
error, returns the line's 64 bytes and changes nothing else. A write of a mapped line stores its 64 bytes there,
leaves every other byte of HBM and every register as it was, and completes. Where memory is closed, a read returns
poison and a write is dropped, logged and completed. It says of these constructors that they complete: cxlMemRead,
cxlMemWrite (R313, R314, R266, R267). -/
def Obligations.CxlMemoryAccess : Prop :=
  (∀ (h : Head) (dpa : Nat) (s : State), On s → mapped s (hnum h) (dpa / 64 * 64) = true → memClosed s = false →
    rangeFailed s (dpa / 64 * 64) 64 = false → errsIn s (dpa / 64 * 64) 64 = [] →
    Completes (.cxlMemRead h dpa) s fun u => u = { s with answer := .data (hbmRead s (dpa / 64 * 64) 64) }) ∧
  (∀ (h : Head) (dpa : Nat) (data : List Byte) (s : State), On s → mapped s (hnum h) (dpa / 64 * 64) = true →
    memClosed s = false → homeFailed s (dpa / 64 * 64) = false → errsIn s (dpa / 64 * 64) 64 = [] → data.length = 64 →
    Completes (.cxlMemWrite h dpa data false) s fun u => u.answer = .done ∧
      (∀ i, (hi : i < data.length) → hbmByte u (dpa / 64 * 64 + i) = data[i]) ∧ HbmBut (dpa / 64 * 64) 64 s u ∧
      u = { s with hbm := u.hbm, answer := .done }) ∧
  (∀ (h : Head) (dpa : Nat) (data : List Byte) (poison : Bool) (s : State), On s →
    mapped s (hnum h) (dpa / 64 * 64) = true → memClosed s = true →
    (Completes (.cxlMemRead h dpa) s fun u => u = { s with answer := .poison }) ∧
    Completes (.cxlMemWrite h dpa data poison) s fun u => Reports { s with answer := .done } u)

/-- When the link of a head that is up goes down, LINK_UP and every DEC_COMMIT bit of that head read 0, its SPDM
connection ends, HBM and the requests are as they were and ownership is unchanged. When a head that may train comes
up, LINK_UP reads 1 with the width and rate it trained to, and no memory changes. PERST asserted for at least 100 µs
takes the link down and is noted until it is deasserted. It says of these constructors that they complete:
headLinkDown, headLinkUp, perstAssert, perstDeassert (R321, R322, R325, R553). -/
def Obligations.HeadLinkEvents : Prop :=
  (∀ (h : Head) (s : State), On s → linkUp s (hnum h) = true →
    Completes (.headLinkDown h) s fun u => rd u (queHeadStat (hnum h)) = 0 ∧ owner u = owner s ∧ u.hbm = s.hbm ∧
      u.req = s.req ∧ u.tiles = s.tiles ∧ u.links = s.links) ∧
  (∀ (h : Head) (x4 slow : Bool) (s : State), On s → headOff s (hnum h) = false → linkUp s (hnum h) = false →
    tget (fun _ => none) s.host.perst (hnum h) = none → devState s ≠ .spring →
    Completes (.headLinkUp h x4 slow) s fun u => linkUp u (hnum h) = true ∧
      get u (queHeadStat (hnum h)) QueHeadStat.width = (if x4 then 4 else 8) ∧
      get u (queHeadStat (hnum h)) QueHeadStat.rate = b2n slow ∧
      RegsBut (fun o => o = queHeadStat (hnum h) ∨ o = ownStat ∨ ReportReg o) s u ∧ u.hbm = s.hbm ∧ u.req = s.req) ∧
  (∀ (h : Head) (us : Nat) (s : State), On s → 100 ≤ us →
    Completes (.perstAssert h us) s fun u => linkUp u (hnum h) = false ∧
      tget (fun _ => none) u.host.perst (hnum h) = some s.devtime ∧ owner u = owner s ∧ u.hbm = s.hbm ∧ u.req = s.req) ∧
  (∀ (h : Head) (s : State), On s → Completes (.perstDeassert h) s fun u =>
    tget (fun _ => none) u.host.perst (hnum h) = none ∧ u = { s with host := u.host })

/-- While a head's link is up, each mailbox and DOE command gives its answer and changes nothing else in the device:
GET_TIMESTAMP answers 0 until an epoch is written and otherwise DEVTIME mapped to nanoseconds plus the epoch;
SET_TIMESTAMP and every command without a row complete with Unsupported; GET_EVENT_RECORDS returns the records of that
head's log; CLEAR_EVENT_RECORDS removes the named records from that log alone. The payloads that CXL 3.1 fixes are
constants of the implementation. It says of these constructors that they complete: identifyMemoryDevice,
getSupportedLogs, getHealthInfo, getLog, getEventRecords, clearEventRecords, getTimestamp, setTimestamp,
mailboxUnsupported, doeDiscovery, cdatTableAccess (R309, R423, R523). -/
def Obligations.MailboxAndDoeAnswers : Prop :=
  (∀ (h : Head) (s : State), On s → linkUp s (hnum h) = true →
    (Completes (.identifyMemoryDevice h) s fun u => u = { s with answer := .mailbox (Config.mailboxData 0 (hnum h)) }) ∧
    (Completes (.getSupportedLogs h) s fun u => u = { s with answer := .mailbox (Config.mailboxData 1 (hnum h)) }) ∧
    (Completes (.getHealthInfo h) s fun u => u = { s with answer := .mailbox (Config.mailboxData 3 (hnum h)) }) ∧
    (∀ uuid, uuid = Config.effectsLogUuid →
      Completes (.getLog h uuid) s fun u => u = { s with answer := .mailbox (Config.mailboxData 2 (hnum h)) }) ∧
    (∀ log, Completes (.getEventRecords h log) s fun u => u.answer = .events (cxlLog s (hnum h) log).overflow
      (cxlLog s (hnum h) log).lost ((cxlLog s (hnum h) log).entries.map fun e => eventUuid ++ entryBytes e) ∧
      u = { s with answer := u.answer }) ∧
    (∀ log seqs, Completes (.clearEventRecords h log seqs) s fun u =>
      (cxlLog u (hnum h) log).entries = (cxlLog s (hnum h) log).entries.filter (fun e => !seqs.contains e.seq) ∧
      (∀ h' log', (hnum h', cxlLogNum log') ≠ (hnum h, cxlLogNum log) → cxlLog u (hnum h') log' = cxlLog s (hnum h') log') ∧
      u = { s with answer := .done, log := { s.log with cxl := u.log.cxl } }) ∧
    (Completes (.getTimestamp h) s fun u => u.answer = .mailbox (toBytes 8 (if get s timStat TimStat.epochSet = 1 then
      unsigned 64 ((s.devtime * 50 / 47 : Nat) + signed 64 (rd s timEpoch).toNat) else 0)) ∧ u = { s with answer := u.answer }) ∧
    (∀ v, Completes (.setTimestamp h v) s fun u => u = { s with answer := .unsupported }) ∧
    (∀ op, Completes (.mailboxUnsupported h op) s fun u => u = { s with answer := .unsupported }) ∧
    (∀ i, i < 3 → Completes (.doeDiscovery h i) s fun u => u = { s with answer := .doe i ((i + 1) % 3) }) ∧
    ∀ e, Completes (.cdatTableAccess h e) s fun u => u = { s with answer := .cdat (Config.cdat (hnum h) e) })

/-- While the device fetches, and the queue whose turn it is holds exactly one announced entry that can be read, its
descriptor is copied into a new request with the next number, the queue's head reaches its tail, and the turn passes
to the other head. A descriptor that the checks refuse becomes a request with that completion status, not accepted;
one that passes becomes an accepted request. It says of these constructors that they complete: descriptorFetch (R39,
R209, R318). -/
def Obligations.DescriptorFetchTakesNextEntry : Prop :=
  ∀ (q d next : Nat) (s : State), On s → fetching s = true → s.req.turnHead = 0 → nextQueue s 0 = some q →
    next = (get s (queSqStat 0 q) QueSqStat.head + 1) % 2 ^ get s (queSqCfg 0 q) QueSqCfg.sizeLog2 →
    next = get s (queSqStat 0 q) QueSqStat.tail →
    rangeFailed s (get s (queSqCfg 0 q) QueSqCfg.base * 4096 + 64 * get s (queSqStat 0 q) QueSqStat.head) 64 = false →
    errsIn s (get s (queSqCfg 0 q) QueSqCfg.base * 4096 + 64 * get s (queSqStat 0 q) QueSqStat.head) 64 = [] →
    d = hbmNat s (get s (queSqCfg 0 q) QueSqCfg.base * 4096 + 64 * get s (queSqStat 0 q) QueSqStat.head) 64 →
    (∀ r ∈ s.req.reqs, r.id < s.req.nextId) →
    Completes .descriptorFetch s fun u => u.req.nextId = s.req.nextId + 1 ∧ u.req.turnHead = 1 ∧ u.hbm = s.hbm ∧
      get u (queSqStat 0 q) QueSqStat.head = next ∧
      (∃ r ∈ u.req.reqs, r.id = s.req.nextId ∧ r.head = 0 ∧ r.sq = q ∧ r.desc = d ∧ r.time = s.devtime ∧
        (r.accepted = true ↔ submitCheck s 0 d = none) ∧ (∀ st, submitCheck s 0 d = some st → r.status = some st))

/-- With no batch on the fabric, no change due and no tile overdue, a switch point chooses the model of the ready
chunk of the active season with the largest weighted age. A recorded ACTIVATE of a staged slot whose geometry fits
begins a season change there instead. Once a chosen model's wait is over and no tile that it needs awaits a remap,
BATCH_START makes a batch of its chunks in order of weighted age and loads their inputs (stated where HBM holds no
error); while a tile awaits one, it waits. A deadline that has passed before the next chunk starts fails that chunk
with DEADLINE_EXPIRED, or completes the request as PARTIAL when earlier chunks are done. It says of these constructors
that they complete: switchPoint, batchStart, deadlineExpire (R199, R210, R211). -/
def Obligations.SchedulerChoosesAndStartsBatches : Prop :=
  (∀ (r : Request) (s : State), On s → running s = true → s.boot.fabricReset = false → s.boot.quiesce = false →
    s.req.change = none → s.req.batch = none → overdueTiles s = [] → s.req.choice = none → changeTo s = none →
    eldest s (readyActive s) = some r →
    Completes .switchPoint s fun u => u = { s with req := { s.req with choice := some (dsModel r.desc) } }) ∧
  (∀ (i : Nat) (s : State), On s → running s = true → s.boot.fabricReset = false → s.boot.quiesce = false →
    s.req.change = none → s.req.batch = none → overdueTiles s = [] → s.req.recorded = some i →
    slotState s i = ssStaged → geometryOk s i = true →
    Completes .switchPoint s fun u => u.req.change = some (i, .draining) ∧ u.req.recorded = none ∧
      u = { s with req := u.req, integ := u.integ }) ∧
  (∀ (i m : Nat) (s : State), On s → running s = true → s.boot.fabricReset = false → s.boot.quiesce = false →
    s.req.change = none → s.req.batch = none → activeSlot s = some i → s.req.choice = some m → batchDue s m = true →
    (∀ r ∈ readyModel s m, dsDeadline r.desc = 0) → get s intCtrl IntCtrl.mode = intMode s → batchChunks s m ≠ [] →
    remapHolds s i m = false → s.hbmState.errs = [] → get s hbmMapStat HbmMapStat.failed = 0 →
    Completes .batchStart s fun u =>
      u.req.batch = some { slot := i, model := m, reqs := batchChunks s m } ∧ u.req.choice = none ∧
      RegsBut (· = intStat) s u ∧ (∀ t, (tile u t).wm = (tile s t).wm ∧ (tile u t).pm = (tile s t).pm) ∧
      u = { s with regs := u.regs, req := u.req, integ := u.integ, tiles := u.tiles }) ∧
  (∀ (i m : Nat) (s : State), activeSlot s = some i → s.req.choice = some m → remapHolds s i m = true →
    Completes .batchStart s fun u => u = s) ∧
  (∀ (id : Nat) (x : Request) (s : State), On s → findReq s id = some x → x.accepted = true →
    dsOpcode x.desc = opInfer → x.running = false → x.status = none → dsDeadline x.desc ≠ 0 →
    x.time + dsDeadline x.desc * usTicks < s.devtime →
    Completes (.deadlineExpire id) s fun u => u.hbm = s.hbm ∧
      ∃ y, findReq u id = some y ∧ y.status = some (if x.done = 0 then csDeadline else csPartial) ∧
        y.failChunk = x.next ∧ y.fail = maskFrom x.next x.chunks)

/-- With no batch on the fabric, the request first due of its completion queue, whose ring has room and holds none
back, and whose failed chunk has no DMA credit in use, has its 32-byte entry written at the ring's tail in HBM with
the current phase; the tail advances modulo the ring, the phase flips when it wraps, the request leaves the
supervisor, and no other byte of HBM changes. It says of these constructors that they complete: completionWrite (R212,
R317, R319). -/
def Obligations.CompletionEntryIsWritten : Prop :=
  ∀ (id a : Nat) (x : Request) (s : State), On s → s.req.batch = none → findReq s id = some x →
    (s.req.due.find? fun i => match findReq s i with
      | some y => y.head == x.head && y.cq == x.cq
      | none => false) = some id →
    x.head < 2 → cqFull s x.head x.cq = false → cqHeld s x.head x.cq = [] →
    a = get s (queCqCfg x.head x.cq) QueCqCfg.base * 4096 + 32 * cqTail s x.head x.cq →
    homeFailed s a = false → errsIn s a 32 = [] → owedOut s x = false →
    Completes (.completionWrite id) s fun u => findReq u id = none ∧
      hbmRead u a 32 = toBytes 32 (completionEntry x (degraded s) (get s (queCqStat x.head x.cq) QueCqStat.phase)) ∧ HbmBut a 32 s u ∧
      cqTail u x.head x.cq = (cqTail s x.head x.cq + 1) % cqSize s x.head x.cq % 2 ^ 12 ∧
      (get u (queCqStat x.head x.cq) QueCqStat.phase = if (cqTail s x.head x.cq + 1) % cqSize s x.head x.cq = 0 then
        1 - get s (queCqStat x.head x.cq) QueCqStat.phase else get s (queCqStat x.head x.cq) QueCqStat.phase)

/-- By the owner, with no command running and no season change: STAGE into an EMPTY, STAGED or REFUSED slot makes it
STAGING and notes the source; REMOVE of a STAGED or REFUSED slot that no uncompleted request needs makes it EMPTY;
ACTIVATE of a STAGED slot records it with result OK. When a staging ends with every check passed the slot is STAGED,
otherwise REFUSED, and its result is the check's. A write of SUP_SLOT_CFG that R204 admits sets the slot array. It
says of these constructors that they complete: stage, remove, activate, stageDone, slotCfgWrite (R194, R195, R196,
R204). -/
def Obligations.SeasonCommands : Prop :=
  (∀ (m : Master) (i : SlotId) (src : Nat) (s : State), On s → owner (settle s) = some m → stageRuns (settle s) = false →
    s.req.deferred = none → s.req.change = none → src < 2 ^ 34 →
    (slotState s i = ssEmpty ∨ slotState s i = ssStaged ∨ slotState s i = ssRefused) →
    Completes (.stage m i src) s fun u => slotState u i = ssStaging ∧ tget (fun _ => 0) u.req.staging i = src * 4096 ∧
      (∀ j, j ≠ i.val → slotState u j = slotState s j) ∧ u.hbm = s.hbm) ∧
  (∀ (m : Master) (i : SlotId) (src : Nat) (s : State), On s → owner (settle s) = some m → stageRuns (settle s) = false →
    s.req.deferred = none → s.req.change = none → src < 2 ^ 34 →
    (slotState s i = ssRefused ∨ (slotState s i = ssStaged ∧ seasonNamed s i = false)) →
    Completes (.remove m i src) s fun u => slotState u i = ssEmpty ∧ get u (supSeasonStat i) SupSeasonStat.result = 0 ∧
      (∀ j, j ≠ i.val → slotState u j = slotState s j) ∧ u.req.recorded ≠ some i.val ∧ u.hbm = s.hbm) ∧
  (∀ (m : Master) (i : SlotId) (src : Nat) (s : State), On s → owner (settle s) = some m → stageRuns (settle s) = false →
    s.req.deferred = none → s.req.change = none → src < 2 ^ 34 → slotState s i = ssStaged →
    Completes (.activate m i src) s fun u => u.req.recorded = some i.val ∧ slotState u i = ssStaged ∧
      get u (supSeasonStat i) SupSeasonStat.result = 0 ∧ u.hbm = s.hbm) ∧
  (∀ (i : SlotId) (s : State), On s → slotState s i = ssStaging →
    Completes (.stageDone i) s fun u =>
      ((stageChecks i (tget (fun _ => 0) s.req.staging i) s).1.code = 0 → slotState u i = ssStaged) ∧
      ((stageChecks i (tget (fun _ => 0) s.req.staging i) s).1.code ≠ 0 → slotState u i = ssRefused) ∧
      get u (supSeasonStat i) SupSeasonStat.result = (stageChecks i (tget (fun _ => 0) s.req.staging i) s).1.code % 256 ∧
      tget (fun _ => 0) u.req.staging i = 0) ∧
  (∀ (m : Master) (base size count : Nat) (s : State), On s → owner (settle s) = some m → base < 2 ^ 34 → size < 7 →
    count < 2 ^ 21 → base * 4096 + count * (0x10000 * 2 ^ size) ≤ reservedBase (settle s) →
    (∀ r ∈ s.req.reqs, r.stateful = false) →
    Completes (.slotCfgWrite m .full (base + size * 2 ^ 34 + count * 2 ^ 38)) s fun u =>
      slotArrayBase u = base * 4096 ∧ slotSize u = 0x10000 * 2 ^ size ∧ slotCount u = count ∧
      RegsBut (· = supSlotCfg) (settle s) u ∧ u = { settle s with regs := u.regs })

/-- While the device runs and no fabric reset is in progress: once the fabric is drained, a change whose slot still
fits the geometry moves on to its loads and the slot is ACTIVATING; once the loads are done it moves on to its
confirmation; once every tile that is on runs the loaded microcode, the slot is ACTIVE, no change remains and the
season counts as resident from now. It says of these constructors that they complete: seasonDrainDone, seasonLoadDone,
seasonConfirmed (R202, R203). -/
def Obligations.SeasonChangeSteps : Prop :=
  (∀ (i : Nat) (s : State), On s → running s = true → s.boot.fabricReset = false → s.req.change = some (i, .draining) →
    s.req.batch = none → s.req.testOpen = false → trafficQuiet s = true → s.req.spillOpen = [] → geometryOk s i = true →
    Completes .seasonDrainDone s fun u => u.req.change = some (i, .loading)) ∧
  (∀ (i : Nat) (s : State), On s → running s = true → s.boot.fabricReset = false → s.req.change = some (i, .loading) →
    s.req.testOpen = false → s.hbmState.errs = [] → Completes .seasonLoadDone s fun u => u.req.change = some (i, .confirming) ∧ u.hbm = s.hbm) ∧
  (∀ (i : Nat) (s : State), On s → running s = true → s.boot.fabricReset = false → i < 8 → s.req.change = some (i, .confirming) →
    (∀ t, t < tileCount s → tileOff s t = true ∨ microcodeOk s t = true) → s.req.deferred = none →
    Completes .seasonConfirmed s fun u => slotState u i = ssActive ∧ u.req.change = none ∧ u.req.recorded = none ∧
      u.req.resident = s.devtime ∧ u.hbm = s.hbm)

/-- The next layer of a batch starts when nothing holds it: the batch runs a layer, and its padded iterations count as
issued tags. When every sink has reported and no operand is left, the layer ends and its open tags count as retired.
The first chunk of a stream finds its state zero on its tile; a stateful chunk whose layers are done has its part
noted as stored while another tile's part is still to come. HBM is untouched by each. It says of these constructors
that they complete: layerStart, layerEnd, stateLoad, stateStore (R130, R134, R143, R189, R205, R206). -/
def Obligations.LayersAndStreamState : Prop :=
  (∀ (b : Batch) (s : State), On s → s.req.batch = some b → b.layerRunning = false → b.layer < batchLayers s b →
    s.req.testOpen = false → running s = true → s.boot.fabricReset = false → s.boot.quiesce = false →
    s.integ.selected = [] → graphEmpty s = true → (b.layer = 0 → stateLoaded s b = true) → s.hbmState.errs = [] →
    get s hbmMapStat HbmMapStat.failed = 0 →
    Completes .layerStart s fun u => (∃ b', u.req.batch = some b' ∧ b' = { b with layerRunning := true }) ∧
      u.req.spills = 0 ∧ u.hbm = s.hbm) ∧
  (∀ (b : Batch) (s : State), On s → s.req.batch = some b → b.layerRunning = true → sinksDone s = true →
    (∀ t ∈ graphTiles s, residueOf (tile s t) = none) → b.layer + 1 < batchLayers s b → batchEmpty b = false →
    Completes .layerEnd s fun u => u.req.batch = some { b with layerRunning := false, layer := b.layer + 1 } ∧
      ledCntN u LedCnt.tagsOpen = 0 ∧ u.hbm = s.hbm) ∧
  (∀ (t : TileId) (chunk i id m k : Nat) (r : Request) (s : State), On s → activeSlot s = some i →
    placeOf s chunk = some (id, m, k) → findReq s id = some r → tileOff s t = false → r.stateful = true →
    r.status = none → s.req.loaded.contains (id, t.val, k) = false → mayLoad s (slotBase s i) id m = true →
    streamStarts r = true →
    Completes (.stateLoad t chunk) s fun u => u.req.loaded.contains (id, t.val, k) = true ∧ u.hbm = s.hbm) ∧
  (∀ (t : TileId) (chunk t' : Nat) (b : Batch) (r : Request) (s : State), On s → s.req.batch = some b →
    (b.reqs[chunk]?).bind (findReq s) = some r → tileOff s t = false → batchRan s b = true → r.stateful = true →
    streamEnds r = false → b.stored.contains (r.id, t.val) = false → partUnits (statePart s b.model t chunk) ≠ 0 →
    (tile s t).errs = [] → t' ∈ partTiles s b.model chunk → t' ≠ t.val → b.stored.contains (r.id, t') = false →
    findReq s r.id = some r → b.reqs[chunk]? = some r.id → batchLive b r.id = true →
    Completes (.stateStore t chunk) s fun u => u.req.batch = some { b with stored := (r.id, t.val) :: b.stored } ∧
      u.hbm = s.hbm)

/-- When device firmware writes one field of a powered tile's TIL_CTRL, the field takes the value and the tile moves
as R113 states: RUN_EN := 1, with the microcode confirmed, from IDLE into RUN, and from HALT with HALT_REQ = 0 and no
fault held into RUN; HALT_REQ := 1 from RUN into DRAIN; TEST_WIN := 1 from IDLE into TEST and from RUN into DRAIN;
TEST_WIN := 0 from TEST into HALT, RUN or IDLE by HALT_REQ and RUN_EN; CNT_FREEZE moves nothing. No register but
TIL_CTRL and TIL_STAT of that tile changes, and nothing else. A write by a master that is not device firmware changes
nothing but what its log entry changes. It says of these constructors that they complete: tilRunEn, tilHaltReq,
tilTestWin, tilCntFreeze (R113, R115, R117, R120). -/
def Obligations.TileControlBits : Prop :=
  (∀ (t : TileId) (s : State), On s → regOff s (tilCtrl t) = false →
    microcodeOk s t = true → (tileSt s t = tsIdle ∨
      (tileSt s t = tsHalt ∧ get s (tilCtrl t) TilCtrl.haltReq = 0 ∧ faultHeld s t = false)) →
    Completes (.tilRunEn .fw t true) s fun u => get u (tilCtrl t) TilCtrl.runEn = 1 ∧ tileSt u t = tsRun ∧
      RegsBut (fun o => o = tilCtrl t ∨ o = tilStat t) s u ∧ u = { s with regs := u.regs }) ∧
  (∀ (t : TileId) (s : State), On s → regOff s (tilCtrl t) = false → tileSt s t = tsRun →
    Completes (.tilHaltReq .fw t true) s fun u => get u (tilCtrl t) TilCtrl.haltReq = 1 ∧ tileSt u t = tsDrain ∧
      RegsBut (fun o => o = tilCtrl t ∨ o = tilStat t) s u ∧ u = { s with regs := u.regs }) ∧
  (∀ (t : TileId) (s : State), On s → regOff s (tilCtrl t) = false →
    Completes (.tilHaltReq .fw t false) s fun u => get u (tilCtrl t) TilCtrl.haltReq = 0 ∧
      RegsBut (· = tilCtrl t) s u ∧ u = { s with regs := u.regs }) ∧
  (∀ (t : TileId) (s : State), On s → regOff s (tilCtrl t) = false →
    ((tileSt s t = tsIdle ∧ microcodeOk s t = true) ∨ tileSt s t = tsRun) →
    Completes (.tilTestWin .fw t true) s fun u => get u (tilCtrl t) TilCtrl.testWin = 1 ∧
      (tileSt s t = tsIdle → tileSt u t = tsTest) ∧ (tileSt s t = tsRun → tileSt u t = tsDrain) ∧
      RegsBut (fun o => o = tilCtrl t ∨ o = tilStat t) s u ∧ u = { s with regs := u.regs }) ∧
  (∀ (t : TileId) (s : State), On s → regOff s (tilCtrl t) = false → tileSt s t = tsTest →
    Completes (.tilTestWin .fw t false) s fun u => get u (tilCtrl t) TilCtrl.testWin = 0 ∧
      tileSt u t = (if get s (tilCtrl t) TilCtrl.haltReq = 1 then tsHalt
        else if get s (tilCtrl t) TilCtrl.runEn = 1 then tsRun else tsIdle) ∧
      RegsBut (fun o => o = tilCtrl t ∨ o = tilStat t) s u ∧ u = { s with regs := u.regs }) ∧
  (∀ (t : TileId) (v : Bool) (s : State), On s → regOff s (tilCtrl t) = false →
    Completes (.tilCntFreeze .fw t v) s fun u => get u (tilCtrl t) TilCtrl.cntFreeze = b2n v ∧ tileSt u t = tileSt s t ∧
      RegsBut (· = tilCtrl t) s u ∧ u = { s with regs := u.regs }) ∧
  (∀ (m : Master) (t : TileId) (v : Bool) (s : State), On s → m ≠ .fw →
    Completes (.tilRunEn m t v) s fun u => Reports { s with answer := u.answer } u)

/-- CNT_CLEAR by device firmware sets the tile counters to zero and leaves every register outside the counters, DMA
status and LAT_STAT of that tile, all memories and the tile's work. A 1 written to VALID clears the whole of TIL_FAULT
or TIL_DF_FAULT. A draining tile with no pass and no kernel running enters TEST when TEST_WIN = 1, otherwise HALT.
Tile reset of a powered tile that no test window awaits enters IDLE with both fault registers zero and its queues
empty, keeps WM, AM, PM, the instruction store, its windows, its tasks, HBM and every other tile, and changes no
register but those that tile reset returns to reset, the credits it reclaims, and those of the log. It says of these
constructors that they complete: tilCntClear, tilFaultClear, tilDfFaultClear, tileDrainDone, tileReset (R113, R116,
R119, R120, R145). -/
def Obligations.TileFaultsAndReset : Prop :=
  (∀ (t : TileId) (s : State), On s → Inv s → regOff s (tilCtrl t) = false →
    Completes (.tilCntClear .fw t) s fun u => (∀ k, k < 6 → rd u (tilCnt t k) = 0) ∧
      (∀ k, rd u (stallUnit t k) = 0 ∨ 2048 ≤ k) ∧ rd u (latPaceCnt t) = 0 ∧
      RegsBut (fun o => (countOff (o - (0x1000000 + 0x8000 * t)) = true ∧ 0x1000000 + 0x8000 * t ≤ o ∧
        o < 0x1000000 + 0x8000 * (t + 1)) ∨ (∃ e, e < 4 ∧ o = tilDmaStat t e) ∨ o = latStat t) s u ∧
      u = { s with regs := u.regs }) ∧
  (∀ (t : TileId) (s : State), On s → regOff s (tilFault t) = false →
    Completes (.tilFaultClear .fw t) s fun u => rd u (tilFault t) = 0 ∧ RegsBut (· = tilFault t) s u ∧
      u = { s with regs := u.regs }) ∧
  (∀ (t : TileId) (s : State), On s → regOff s (tilDfFault t) = false →
    Completes (.tilDfFaultClear .fw t) s fun u => rd u (tilDfFault t) = 0 ∧ RegsBut (· = tilDfFault t) s u ∧
      u = { s with regs := u.regs }) ∧
  (∀ (t : TileId) (s : State), On s → tileSt s t = tsDrain → ((tile s t).passes.any fun r => r.phase == .running) = false → (tile s t).kernel = none →
    Completes (.tileDrainDone t) s fun u =>
      tileSt u t = (if get s (tilCtrl t) TilCtrl.testWin = 1 then tsTest else tsHalt) ∧
      RegsBut (· = tilStat t) s u ∧ u = { s with regs := u.regs }) ∧
  (∀ (t : TileId) (s : State), On s → Inv s → tileOff s t = false → awaitsRun s t = false →
    Completes (.tileReset t) s fun u => tileSt u t = tsIdle ∧ rd u (tilFault t) = 0 ∧ rd u (tilDfFault t) = 0 ∧
      (tile u t).passQ = [] ∧ (tile u t).kernQ = [] ∧ (tile u t).passes = [] ∧ (tile u t).kernel = none ∧
      (tile u t).v = [] ∧ (tile u t).sreg = [] ∧
      (tile u t).wm = (tile s t).wm ∧ (tile u t).am = (tile s t).am ∧ (tile u t).pm = (tile s t).pm ∧
      (tile u t).istore = (tile s t).istore ∧ (∀ k, k < 64 → taskEntry u t k = taskEntry s t k) ∧
      (∀ w, w < 16 → windowEntry u t w = windowEntry s t w) ∧ (∀ t', t' ≠ t.val → tile u t' = tile s t') ∧ u.hbm = s.hbm ∧
      RegsBut (fun o => tileResetOff t o = true ∨ o = ledCnt LedCnt.reclReset ∨ o = ledCnt LedCnt.dmaOutstanding ∨
        ReportReg o) s u)

/-- A TCLK of a powered tile advances its clock, fires at most two units, none unless the tile is in RUN, and fires
the first unit in turn when that unit has a complete group, credits and room. An operand that arrives in range, below
the rate and not a repeat joins its queue and changes only that tile and the queue's counters; one at a distance of
2,048 or more records TAG_RANGE and halts the tile. A unit whose tag-wait timer has reached the horizon halts the tile
with HORIZON, its unit and its tag recorded. An operand one of whose lattice words fails parity is not placed. None of
these changes HBM. It says of these constructors that they complete: unitFire, operandArrive, tagHorizonExpire (R131,
R132, R133, R141, R144, R145). -/
def Obligations.TagMatcherFires : Prop :=
  (∀ (t : TileId) (bad : List Nat) (pathBad : Bool) (s : State), On s → tileOff s t = false →
    Completes (.unitFire t bad pathBad) s fun u => (tile u t).tclk = (tile s t).tclk + 1 ∧ u.hbm = s.hbm ∧
      ∃ l : List Nat, l.length ≤ 2 ∧ (tileSt s t ≠ tsRun → l = []) ∧
        ∀ v, (unitRun (tile u t) v).fired = (unitRun (tile s t) v).fired + l.count v) ∧
  (∀ (t : TileId) (v g : Nat) (rest : List Nat) (s s1 : State), On s → tileSt s t = tsRun →
    s1 = updTile t (fun x => { x with tclk := x.tclk + 1 }) s → roundRobin (tile s1 t) = v :: rest →
    firable (tile s1 t) v = some g → mayFire s1 t v g = true → (tile s t).errs = [] →
    Completes (.unitFire t [] false) s fun u => (unitRun (tile s t) v).fired < (unitRun (tile u t) v).fired ∧ u.hbm = s.hbm) ∧
  (∀ (t : TileId) (q i : Nat) (f : Flight) (s : State), On s → tileOff s t = false →
    findIdxFrom (fun f => f.q == q && decide (f.due ≤ (tile s t).tclk)) 0 (tile s t).flight = some (i, f) →
    (∀ v, consumer (tile s t) q = some v → distance (unitRun (tile s t) v).base (opTag f.op) < 2048) →
    opIdx f.op < quRate (queueDesc (tile s t) q) →
    (∀ o ∈ (queueRun (tile s t) q).items, ¬ (opTag o.op = opTag f.op ∧ opIdx o.op = opIdx f.op)) →
    (∀ o ∈ (queueRun (tile s t) q).spilled, ¬ (o.tag = opTag f.op ∧ o.idx = opIdx f.op)) → f.words = [] →
    Completes (.operandArrive t q []) s fun u =>
      (∃ e, (queueRun (tile u t) q).items =
        (queueRun (tile s t) q).items ++ [{ op := f.op, entry := e, at_ := (tile s t).tclk, drained := false }]) ∧
      (tile u t).flight = eraseAt i (tile s t).flight ∧ (∀ t', t' ≠ t.val → tile u t' = tile s t') ∧
      RegsBut (fun o => o = queueCnt t q 0 ∨ o = queueCnt t q 1) s u ∧ u = { s with regs := u.regs, tiles := u.tiles }) ∧
  (∀ (t : TileId) (q i v : Nat) (f : Flight) (s : State), On s → tileOff s t = false →
    findIdxFrom (fun f => f.q == q && decide (f.due ≤ (tile s t).tclk)) 0 (tile s t).flight = some (i, f) →
    consumer (tile s t) q = some v → 2048 ≤ distance (unitRun (tile s t) v).base (opTag f.op) →
    get s (tilDfFault t) TilDfFault.valid = 0 → f.words = [] →
    Completes (.operandArrive t q []) s fun u => tileSt u t = tsHalt ∧ get u (tilDfFault t) TilDfFault.valid = 1 ∧
      get u (tilDfFault t) TilDfFault.code = 2 ∧ get u (tilDfFault t) TilDfFault.queue = q % 256 ∧
      get u (tilDfFault t) TilDfFault.tag = opTag f.op ∧ u.hbm = s.hbm) ∧
  (∀ (t : TileId) (q i : Nat) (flips : List (Nat × Nat)) (f : Flight) (s : State), On s → tileOff s t = false →
    findIdxFrom (fun f => f.q == q && decide (f.due ≤ (tile s t).tclk)) 0 (tile s t).flight = some (i, f) → f.words ≠ [] →
    ((flipWords flips f.words).any wordBad) = true →
    Completes (.operandArrive t q flips) s fun u => (queueRun (tile u t) q).items = (queueRun (tile s t) q).items ∧
      get s (latStat t) LatStat.parity ≤ get u (latStat t) LatStat.parity ∧ u.hbm = s.hbm) ∧
  (∀ (t : TileId) (v g n : Nat) (s : State), On s → tileSt s t = tsRun → (unitRun (tile s t) v).timer = some (g, n) →
    2 ^ s.req.horizon ≤ n → get s (tilDfFault t) TilDfFault.valid = 0 →
    Completes (.tagHorizonExpire t v) s fun u => tileSt u t = tsHalt ∧ get u (tilDfFault t) TilDfFault.valid = 1 ∧
      get u (tilDfFault t) TilDfFault.code = 1 ∧ get u (tilDfFault t) TilDfFault.unit = v % 256 ∧
      get u (tilDfFault t) TilDfFault.queue = 255 ∧ get u (tilDfFault t) TilDfFault.tag = g % 4096 ∧ u.hbm = s.hbm)

/-- When a tile in RUN has been quiet for a whole number of quiet periods with a unit waiting on an out edge, and the
detectors are not held, its field's detector searches: it forgets the search when no unit is left to follow, asks
another field with a management packet, or holds the cycle found with each member's progress and asks the fields of
the other members again. A field's answer carries the search on in the same way, or is noted for the recheck. Once
every field asked has answered, the recheck counts the cycle: one of whose members has moved is abandoned and counted;
one that still stands and has no queue of depth 2 records DEADLOCK and counts it unresolved. It says of these
constructors that they complete: quietReport, detectorReply, deadlockRecheck (R146, R147, R148, R151, R152). -/
def Obligations.DeadlockDetection : Prop :=
  (∀ (t : TileId) (f : Nat) (s : State), On s → f = tileField s t → bit1 s.req.dfCtrl 0 = true → tileSt s t = tsRun →
    detectorsHeld s = false → (tile s t).quiet ≠ 0 → (tile s t).quiet % 2 ^ quietLog2 s.req.dfCtrl = 0 →
    outWaiters s t ≠ [] → takesReport s f t = true → (∀ g o, g ≠ f → tget (fun _ => none) s.net.searches g = some o → o.cycle = []) →
    Completes (.quietReport t) s fun u => u.tiles = s.tiles ∧ u.req = s.req ∧ u.hbm = s.hbm ∧
      (∀ d v, searchFrom s [f] t (outWaiters s t) [] 0 = .free d v →
        tget (fun _ => none) u.net.searches f = none ∧ u = { s with net := { s.net with searches := u.net.searches } }) ∧
      (∀ g, searchFrom s [f] t (outWaiters s t) [] 0 = .query g →
        ∃ a ∈ u.net.awaits, a.src = epField f ∧ a.opc = ocMgmt ∧ a.pkt.dst = epField g) ∧
      (∀ c, searchFrom s [f] t (outWaiters s t) [] 0 = .cycle c →
        tget (fun _ => none) u.net.searches f =
          some { origin := t, answered := [], cycle := c, marks := c.map (memberMark s), again := [] } ∧
        ∀ g ∈ otherFields s f c, ∃ a ∈ u.net.awaits, a.src = epField f ∧ a.opc = ocMgmt ∧ a.pkt.dst = epField g)) ∧
  (∀ (f peer : FieldId) (se : Search) (s : State), On s → tget (fun _ => none) s.net.searches f.val = some se →
    se.cycle = [] → detectorsHeld s = false →
    Completes (.detectorReply f peer) s fun u => u.tiles = s.tiles ∧ u.req = s.req ∧ u.hbm = s.hbm ∧
      (∀ d v, searchFrom s (f.val :: peer.val :: se.answered) se.origin (outWaiters s se.origin) [] 0 = .free d v →
        tget (fun _ => none) u.net.searches f.val = none) ∧
      (∀ g, searchFrom s (f.val :: peer.val :: se.answered) se.origin (outWaiters s se.origin) [] 0 = .query g →
        ∃ a ∈ u.net.awaits, a.src = epField f ∧ a.opc = ocMgmt ∧ a.pkt.dst = epField g)) ∧
  (∀ (f peer : FieldId) (se : Search) (s : State), On s → tget (fun _ => none) s.net.searches f.val = some se →
    se.cycle ≠ [] → detectorsHeld s = false →
    Completes (.detectorReply f peer) s fun u =>
      u = { s with net := { s.net with searches := u.net.searches } } ∧
      tget (fun _ => none) u.net.searches f.val = some { se with again := peer.val :: se.again }) ∧
  (∀ (f : FieldId) (se : Search) (s : State), On s → tget (fun _ => none) s.net.searches f.val = some se → se.cycle ≠ [] →
    detectorsHeld s = false → (∀ g ∈ otherFields s f se.cycle, g ∈ se.again) → se.cycle.map (memberMark s) ≠ se.marks →
    Completes (.deadlockRecheck f) s fun u => tget (fun _ => none) u.net.searches f.val = none ∧
      get u (fldDldStat f) FldDldStat.cycles = min (2 ^ FldDldStat.cycles.w - 1) (get s (fldDldStat f) FldDldStat.cycles + 1) ∧
      get u (fldDldStat f) FldDldStat.abandoned =
        min (2 ^ FldDldStat.abandoned.w - 1) (get s (fldDldStat f) FldDldStat.abandoned + 1) ∧
      RegsBut (· = fldDldStat f) s u ∧ u = { s with regs := u.regs, net := u.net }) ∧
  (∀ (f : FieldId) (se : Search) (s : State), On s → tget (fun _ => none) s.net.searches f.val = some se → se.cycle ≠ [] →
    detectorsHeld s = false → (∀ g ∈ otherFields s f se.cycle, g ∈ se.again) → se.cycle.map (memberMark s) = se.marks →
    selectQueue s se.cycle = none →
    tileOff s se.origin = false → get s (tilDfFault se.origin) TilDfFault.valid = 0 →
    Completes (.deadlockRecheck f) s fun u => tileSt u se.origin = tsHalt ∧
      get u (tilDfFault se.origin) TilDfFault.code = 6 ∧ get u (fldDldStat f) FldDldStat.unresolved =
        min (2 ^ FldDldStat.unresolved.w - 1) (get s (fldDldStat f) FldDldStat.unresolved + 1) ∧ u.hbm = s.hbm)

/-- When a claimed cycle still stands and the tile's AM region has room for the selected queue, the queue's operands
leave it for spill, none lost and none added, each written to an entry of the region, one entry is reserved, the spill
is open and counted in SPILL_AM. When the spill closes while engine 3 carries nothing out, the queue is announced
again, the spill is no longer open and its feeder holds the credit that the queue's free entries allow. A drain puts
the oldest spilled operand, as its entry holds it, back into its queue's reserved entry and takes it from spill. None
changes HBM. It says of these constructors that they complete: deadlockRecheck, spillClose, spillDrain (R149, R150,
R151, R152). -/
def Obligations.SpillsAreLossless : Prop :=
  (∀ (f : FieldId) (se : Search) (t q : Nat) (s : State), On s → tget (fun _ => none) s.net.searches f.val = some se →
    se.cycle ≠ [] → detectorsHeld s = false → se.cycle.map (memberMark s) = se.marks → selectQueue s se.cycle = some (t, q) →
    (∀ g ∈ otherFields s f se.cycle, g ∈ se.again) → (bits s.req.dfCtrl 11 8 = 0 ∨ s.req.spills < bits s.req.dfCtrl 11 8) →
    (spillPlaces (tile s t) false).length + (queueRun (tile s t) q).items.length ≤ spillRoom s t →
    Completes (.deadlockRecheck f) s fun u => (queueRun (tile u t) q).items = [] ∧
      ((queueRun (tile u t) q).spilled.map fun r => (r.tag, r.idx)).Perm
        (((queueRun (tile s t) q).items.map fun i => (opTag i.op, opIdx i.op)) ++
          (queueRun (tile s t) q).spilled.map fun r => (r.tag, r.idx)) ∧
      (∀ i ∈ (queueRun (tile s t) q).items, ∃ r ∈ (queueRun (tile u t) q).spilled, r.tag = opTag i.op ∧ r.hbm = false ∧
        memNat (tile u t) memAm (spillStart s t + 16 * r.place) 16 = i.op % 2 ^ 128) ∧
      (queueRun (tile u t) q).reserve = true ∧ (t, q) ∈ u.req.spillOpen ∧
      u.req.spills = s.req.spills + 1 ∧ (∀ q', q' ≠ q → queueRun (tile u t) q' = queueRun (tile s t) q') ∧
      (∀ t', t' ≠ t → tile u t' = tile s t') ∧
      get u (fldDldStat f) FldDldStat.spillAm = min (2 ^ FldDldStat.spillAm.w - 1) (get s (fldDldStat f) FldDldStat.spillAm + 1) ∧
      u.hbm = s.hbm) ∧
  (∀ (t : TileId) (q : Nat) (s : State), On s → (t.val, q) ∈ s.req.spillOpen → (engine s t 3).run = none →
    Completes (.spillClose t q) s fun u => (t.val, q) ∉ u.req.spillOpen ∧ (queueRun (tile u t) q).opening = false ∧
      (queueRun (tile u t) q).items = (queueRun (tile s t) q).items ∧
      (queueRun (tile u t) q).spilled = (queueRun (tile s t) q).spilled ∧ get u (tilDmaStat t 3) TilDmaStat.suspended = 0 ∧
      (∀ s1 t' e, s1 = setQueue t q (queueRun (tile u t) q) s → feeder s1 t q = some (t', e) →
        edgeCredit (tile u t') e = quDepth (queueDesc (tile s t) q) -
          b2n (!(queueRun (tile s t) q).spilled.isEmpty || (queueRun (tile s t) q).items.any (·.drained)) -
          (queueRun (tile s t) q).items.length) ∧
      RegsBut (· = tilDmaStat t 3) s u ∧ u = { s with regs := u.regs, tiles := u.tiles, req := u.req }) ∧
  (∀ (t : TileId) (q : Nat) (o : SpillRef) (rest : List SpillRef) (s : State), On s → tileWorks s t = true →
    (queueRun (tile s t) q).opening = false → (∀ i ∈ (queueRun (tile s t) q).items, i.drained = false) →
    (queueRun (tile s t) q).spilled = o :: rest → o.hbm = false → (tile s t).errs = [] →
    Completes (.spillDrain t q) s fun u => (queueRun (tile u t) q).spilled = rest ∧
      (∃ e, (queueRun (tile u t) q).items = (queueRun (tile s t) q).items ++
        [{ op := memNat (tile s t) memAm (spillStart s t + 16 * o.place) 16, entry := e, at_ := (tile s t).tclk, drained := true }]) ∧
      (∀ q', q' ≠ q → queueRun (tile u t) q' = queueRun (tile s t) q') ∧ (∀ t', t' ≠ t.val → tile u t' = tile s t') ∧
      RegsBut (fun a => a = queueCnt t q 0 ∨ a = queueCnt t q 1 ∨ a = tilCnt t TilCnt.tilSpinstrCnt) s u ∧
      u = { s with regs := u.regs, tiles := u.tiles, free := u.free })

/-- On a tile whose memories hold no word in error: in RUN with fewer than two passes ahead, the head of the pass
queue whose descriptor and ranges pass the checks moves to the arrays and nothing else changes; one with a bad
descriptor records BAD_PASS. A fetch starts when a half of the weight buffer is free; when it ends, the decoded set is
in the buffer, and one that does not decode records DEC_FAULT. The front starts once the buffered set may follow, in
the present TCLK or, with a beat in progress, at that beat; the next front may follow 64 beats after it, and the first
vector enters in the beat after it. A pass whose last outputs are written leaves the arrays, is counted, and leaves
WM, the instruction store and HBM alone; with an accumulate operation that fails its residue check it records
INTEGRITY (stated for a tile that has had fewer than two such faults in the hour, which no remap follows). It says of
these constructors that they complete: passIssue, weightFetch, weightFetchDone, weightFrontStart, passComplete (R91,
R92, R93, R96, R111, R119, R331). -/
def Obligations.PassesThroughTheArrays : Prop :=
  (∀ (t : TileId) (j : SeqJob) (rest : List SeqJob) (s : State), On s → tileSt s t = tsRun → (tile s t).errs = [] →
    (tile s t).passQ = j :: rest → passesAhead (tile s t) < 2 →
    (passOk (passDesc (tile s t) j.target) = true →
      (∀ r ∈ passRanges (tile s t) (taskEntry s t j.task) (passDesc (tile s t) j.target),
        admits (taskEntry s t j.task) r.1 r.2.1 r.2.2 = true) →
      Completes (.passIssue t) s fun u =>
        u = updTile t (fun x => { x with passQ := rest, passes := x.passes ++ [{ job := j, half :=
          { heads := laneHeads (tile s t) (taskEntry s t j.task) (passDesc (tile s t) j.target) } }] }) s) ∧
    (passOk (passDesc (tile s t) j.target) = false → get s (tilFault t) TilFault.valid = 0 →
      Completes (.passIssue t) s fun u => TileFaulted t 3 u ∧ TileMems t s u ∧ u.hbm = s.hbm)) ∧
  (∀ (t : TileId) (i : Nat) (r : PassRun) (s : State), On s → tileWorks s t = true →
    findIdxFrom (fun r => r.phase == .issued) 0 (tile s t).passes = some (i, r) →
    ((tile s t).passes.filter holdsHalf).length < 2 →
    Completes (.weightFetch t) s fun u => u = updTile t (setPass i { r with phase := .fetching }) s) ∧
  (∀ (t : TileId) (i : Nat) (r : PassRun) (s : State), On s → tileWorks s t = true → (tile s t).errs = [] →
    findIdxFrom (fun r => r.phase == .fetching) 0 (tile s t).passes = some (i, r) →
    (∀ h, weightSet s t (passDesc (tile s t) r.job.target) (taskEntry s t r.job.task) r.half.heads = some h →
      Completes (.weightFetchDone t) s fun u => u = updTile t (setPass i { r with phase := .fetched, half := h }) s) ∧
    (weightSet s t (passDesc (tile s t) r.job.target) (taskEntry s t r.job.task) r.half.heads = none → get s (tilFault t) TilFault.valid = 0 →
      Completes (.weightFetchDone t) s fun u => TileFaulted t 2 u ∧ get u (tilArithStat t) TilArithStat.decFault = 1 ∧
        TileMems t s u ∧ u.hbm = s.hbm)) ∧
  (∀ (t : TileId) (i : Nat) (r : PassRun) (s : State), On s → tileSt s t = tsRun →
    findIdxFrom (fun r => r.phase != .running) 0 (tile s t).passes = some (i, r) → r.phase = .fetched →
    enteringPass (tile s t) = none → (tile s t).frontAt ≤ (tile s t).tclk →
    Completes (.weightFrontStart t) s fun u =>
      (tile u t).passes = (tile s t).passes.set i { r with phase := .running } ∧
      ((tile s t).beatEnd < (tile s t).tclk →
        (tile u t).frontAt = (tile s t).tclk + 64 * beatLen (passDesc (tile s t) r.job.target) ∧
        (tile u t).vecAt = (tile s t).tclk + beatLen (passDesc (tile s t) r.job.target)) ∧
      ((tile s t).tclk ≤ (tile s t).beatEnd →
        (tile u t).frontAt = max (tile s t).frontAt (tile s t).beatAt + 64 * beatLen (passDesc (tile s t) r.job.target) ∧
        (tile u t).vecAt = (tile s t).beatEnd + 1) ∧ get u (tilStat t) TilStat.front = 1 ∧ TileMems t s u ∧
      RegsBut (· = tilStat t) s u ∧ OtherTiles t s u ∧ u = { s with regs := u.regs, tiles := u.tiles }) ∧
  (∀ (t : TileId) (i : Nat) (r : PassRun) (ops : List AccOp) (s : State), On s → tileWorks s t = true → (tile s t).errs = [] →
    findIdxFrom (passDone (tile s t)) 0 (tile s t).passes = some (i, r) →
    (ops.all accOk = true → Completes (.passComplete t ops) s fun u => (tile u t).passes = eraseAt i (tile s t).passes ∧
      (counting s t = true → rd u (tilCnt t TilCnt.tilPassCnt) = rd s (tilCnt t TilCnt.tilPassCnt) + 1) ∧
      (tile u t).wm = (tile s t).wm ∧ (tile u t).istore = (tile s t).istore ∧ u.hbm = s.hbm) ∧
    (ops.all accOk = false → get s (tilFault t) TilFault.valid = 0 →
      ((tget (fun _ => []) s.integ.faults t).filter fun x => decide (s.devtime < x + 3600 * secTicks)).length < 2 →
      Completes (.passComplete t ops) s fun u => TileFaulted t 8 u ∧ u.hbm = s.hbm))

/-- When the stream processor of a tile may issue, each vector instruction retires and writes only its destination:
arithmetic, conversion, functions and integer or logic operations give each lane whose predicate bit is 1 the
operation's result of its own type and leave the others; a comparison writes predicate register VD (p0 ignores writes)
and no lane; a select takes VA or VB by the predicate register VC; a reduction puts the value of the fixed tree over
all 64 lanes, neutral where the predicate bit is 0, in lane 0; an MX unpack gives lanes 0 to 31 the scaled elements.
Memories are unchanged. It says of these constructors that they complete: spVectorArith, spConvert, spFunction,
spIntLogic, spLaneReduce, spMxUnpack (R73, R75, R76, R101, R102, R103, R104). -/
def Obligations.VectorInstructions : Prop :=
  (∀ (t : TileId) (k : KernelRun) (op : VecOp) (o : SpFields) (s : State), On s → SpReady (isInstr .arith o) t k s → (∀ r, op ≠ .cmp r) →
    Completes (.spVectorArith t op o) s fun u => SpRetired (fun _ => False) t k s u ∧ TileMems t s u ∧
      LanesWritten t o.vd (predReg (tile s t) o.ps) (fun l =>
        if op = .select then tyCut o.ty (if bit1 (predReg (tile s t) o.vc) l then vlane (tile s t) o.va l
          else vlane (tile s t) o.vb l)
        else laneArith op o.ty (vlane (tile s t) o.va l) (vlane (tile s t) o.vb l) (vlane (tile s t) o.vc l)) s u) ∧
  (∀ (t : TileId) (k : KernelRun) (r : Cmp) (o : SpFields) (s : State), On s → SpReady (isInstr .arith o) t k s →
    Completes (.spVectorArith t (.cmp r) o) s fun u => SpRetired (fun _ => False) t k s u ∧ TileMems t s u ∧
      (tile u t).v = (tile s t).v ∧ (tile u t).sreg = (tile s t).sreg ∧ predReg (tile u t) 0 = 2 ^ 64 - 1 ∧
      ∀ l, l < 64 → o.vd % 4 ≠ 0 → bit1 (predReg (tile u t) o.vd) l = if bit1 (predReg (tile s t) o.ps) l then
        laneCmp r o.ty (vlane (tile s t) o.va l) (vlane (tile s t) o.vb l) else bit1 (predReg (tile s t) o.vd) l) ∧
  (∀ (t : TileId) (k : KernelRun) (ty : SpTy) (o : SpFields) (s : State), On s → SpReady (isInstr .convert o) t k s →
    Completes (.spConvert t (.toType ty) o) s fun u => SpRetired (fun _ => False) t k s u ∧ TileMems t s u ∧
      LanesWritten t o.vd (predReg (tile s t) o.ps) (fun l =>
        toTy ty (laneNum o.ty (vlane (tile s t) o.va l)) (vlane (tile s t) o.va l)) s u) ∧
  (∀ (t : TileId) (k : KernelRun) (fn : SpFn) (o : SpFields) (s : State), On s → SpReady (isInstr .function o) t k s →
    Completes (.spFunction t fn o) s fun u => SpRetired (fun _ => False) t k s u ∧ TileMems t s u ∧
      LanesWritten t o.vd (predReg (tile s t) o.ps) (fun l => laneFn fn o.ty (vlane (tile s t) o.va l)) s u) ∧
  (∀ (t : TileId) (k : KernelRun) (op : IntOp) (o : SpFields) (s : State), On s → SpReady (isInstr .logic o) t k s →
    Completes (.spIntLogic t op o) s fun u => SpRetired (fun _ => False) t k s u ∧ TileMems t s u ∧
      LanesWritten t o.vd (predReg (tile s t) o.ps) (fun l =>
        laneLogic op l (vlane (tile s t) o.va l) (vlane (tile s t) o.vb l)) s u) ∧
  (∀ (t : TileId) (k : KernelRun) (op : RedOp) (o : SpFields) (s : State), On s → SpReady (isInstr .reduce o) t k s →
    Completes (.spLaneReduce t op o) s fun u => SpRetired (fun _ => False) t k s u ∧ TileMems t s u ∧
      LanesWritten t o.vd 1 (fun _ => reduceTree (fun a b => laneArith (redOp op) o.ty a b 0)
        ((List.range 64).map fun l => if bit1 (predReg (tile s t) o.ps) l then vlane (tile s t) o.va l
          else neutral op o.ty)) s u) ∧
  (∀ (t : TileId) (k : KernelRun) (fmt : MxElem) (o : SpFields) (s : State), On s → SpReady (isInstr .convert o) t k s →
    Completes (.spMxUnpack t fmt o) s fun u => SpRetired (fun _ => False) t k s u ∧ TileMems t s u ∧
      (∀ l, 32 ≤ l → l < 64 → vlane (tile u t) o.vd l = vlane (tile s t) o.vd l) ∧
      (∀ r l, r % 32 ≠ o.vd % 32 → l < 64 → vlane (tile u t) r l = vlane (tile s t) r l))

/-- When the stream processor may issue and the access is within its task's bounds: a vector load gives each
predicated lane the four bytes at its place; a vector store under p0 writes the 64 lanes and no byte outside its 256;
a scalar load and store move 8 bytes; an LA96 load places the 64 values in three registers and a store writes 768
bytes of PM; an anchor read gives the sign-extended anchor word. An LA96 conversion gives lanes their final codes; an
MX pack gives lanes 0 to 31 their element codes. A load outside the bounds records SP_BOUND, and a triple above v29
SP_ILLEGAL. It says of these constructors that they complete: spVectorLoadStore, spScalarLoadStore, spLa96LoadStore,
spAnchorRead, spLa96Convert, spMxPack (R51, R60, R62, R103, R105, R106). -/
def Obligations.TileMemoryInstructions : Prop :=
  (∀ (t : TileId) (k : KernelRun) (mem : SpMem) (o : SpFields) (a : Nat) (s : State), On s → SpReady (isInstr .memory o) t k s →
    spAdmits (runTask s t k) (spMem mem) o.imm 256 = true → a = 64 * taskBase (runTask s t k) (spMem mem) + o.imm →
    (Completes (.spVectorLoadStore t false mem o) s fun u => SpRetired (fun _ => False) t k s u ∧ TileMems t s u ∧
      LanesWritten t o.vd (predReg (tile s t) o.ps) (fun l => memNat (tile s t) (spMem mem) (a + 4 * l) 4) s u) ∧
    (o.ps % 4 = 0 → Completes (.spVectorLoadStore t true mem o) s fun u => SpRetired (fun _ => False) t k s u ∧
      (∀ l, l < 64 → memNat (tile u t) (spMem mem) (a + 4 * l) 4 = vlane (tile s t) o.va l) ∧
      (∀ m b, m < 3 → (m ≠ spMem mem ∨ b < a ∨ a + 256 ≤ b) → memRead (tile u t) m b 1 = memRead (tile s t) m b 1) ∧
      (tile u t).v = (tile s t).v)) ∧
  (∀ (t : TileId) (k : KernelRun) (mem : SpMem) (o : SpFields) (a : Nat) (s : State), On s → SpReady (isInstr .memory o) t k s →
    spAdmits (runTask s t k) (spMem mem) o.imm 8 = true → a = 64 * taskBase (runTask s t k) (spMem mem) + o.imm →
    (Completes (.spScalarLoadStore t false mem o) s fun u => SpRetired (fun _ => False) t k s u ∧ TileMems t s u ∧
      scalar (tile u t) o.vd = memNat (tile s t) (spMem mem) a 8 ∧
      (∀ r, r % 16 ≠ o.vd % 16 → scalar (tile u t) r = scalar (tile s t) r) ∧ (tile u t).v = (tile s t).v) ∧
    (Completes (.spScalarLoadStore t true mem o) s fun u => SpRetired (fun _ => False) t k s u ∧
      memNat (tile u t) (spMem mem) a 8 = scalar (tile s t) o.va ∧
      (∀ m b, m < 3 → (m ≠ spMem mem ∨ b < a ∨ a + 8 ≤ b) → memRead (tile u t) m b 1 = memRead (tile s t) m b 1))) ∧
  (∀ (t : TileId) (k : KernelRun) (o : SpFields) (a : Nat) (s : State), On s → SpReady (isInstr .memory o) t k s →
    spAdmits (runTask s t k) memPm o.imm 768 = true → a = 64 * taskBase (runTask s t k) memPm + o.imm →
    (o.vd ≤ 29 → Completes (.spLa96LoadStore t false o) s fun u => SpRetired (fun _ => False) t k s u ∧ TileMems t s u ∧
      ∀ l, l < 64 → bit1 (predReg (tile s t) o.ps) l = true →
        tripleOf (tile u t) o.vd l = memNat (tile s t) memPm (a + 12 * l) 12) ∧
    (o.va ≤ 29 → Completes (.spLa96LoadStore t true o) s fun u => SpRetired (fun _ => False) t k s u ∧
      (∀ l, l < 64 → memNat (tile u t) memPm (a + 12 * l) 12 = tripleOf (tile s t) o.va l) ∧
      (∀ m b, m < 3 → (m ≠ memPm ∨ b < a ∨ a + 768 ≤ b) → memRead (tile u t) m b 1 = memRead (tile s t) m b 1)) ∧
    (29 < o.vd → get s (tilFault t) TilFault.valid = 0 →
      Completes (.spLa96LoadStore t false o) s fun u => TileFaulted t 4 u ∧ TileMems t s u ∧ u.hbm = s.hbm)) ∧
  (∀ (t : TileId) (k : KernelRun) (o : SpFields) (s : State), On s → SpReady (isInstr .memory o) t k s →
    spAdmits (runTask s t k) memAm o.imm 1 = true →
    Completes (.spAnchorRead t o) s fun u => SpRetired (fun _ => False) t k s u ∧ TileMems t s u ∧
      scalar (tile u t) o.vd = unsigned 64 (signed 16
        (anchorWord t (tile s t) ((64 * taskBase (runTask s t k) memAm + o.imm) / 64))) % 2 ^ 64) ∧
  (∀ (t : TileId) (k : KernelRun) (fmt : OutFmt) (o : SpFields) (s : State), On s → SpReady (isInstr .convert o) t k s → o.va ≤ 29 →
    Completes (.spLa96Convert t fmt o) s fun u => SpRetired (· = tilArithStat t) t k s u ∧ TileMems t s u ∧
      LanesWritten t o.vd (predReg (tile s t) o.ps) (fun l => (finalCode (outFmtCode fmt)
        (laNum (laOf (tripleOf (tile s t) o.va l)) (signed 64 (scalar (tile s t) o.vb)) (signed 32 o.imm))).1) s u) ∧
  (∀ (t : TileId) (k : KernelRun) (fmt : MxElem) (o : SpFields) (vs : List Machine.Num) (s : State), On s → SpReady (isInstr .convert o) t k s →
    vs = (List.range 32).map (fun l => decodeFp fFp32 (vlane (tile s t) o.va l)) →
    Completes (.spMxPack t fmt o) s fun u => SpRetired (· = tilArithStat t) t k s u ∧ TileMems t s u ∧
      LanesWritten t o.vd (predReg (tile s t) o.ps % 2 ^ 33) (fun l => if l = 32 then mxScale fmt vs
        else ((vs.map (mxElement fmt (mxScale fmt vs))).getD l (0, false)).1) s u) ∧
  (∀ (t : TileId) (k : KernelRun) (mem : SpMem) (o : SpFields) (s : State), On s → SpReady (isInstr .memory o) t k s →
    spAdmits (runTask s t k) (spMem mem) o.imm 256 = false → get s (tilFault t) TilFault.valid = 0 →
    Completes (.spVectorLoadStore t false mem o) s fun u => TileFaulted t 5 u ∧ TileMems t s u ∧ u.hbm = s.hbm)

/-- A kernel at the head of its queue starts on a tile in RUN with none running, its skip mask in s15. When the stream
processor may issue: a branch taken inside the kernel goes to its place, one not taken falls through, one taken
outside records IS_BOUND; a hardware loop of a count above 0 runs its block and notes the repeats left, a count of 0
passes over it; a flag wait retires when the flag has the awaited value and otherwise leaves the state as it is; a
fence only retires; an end of kernel with every edge served ends and counts the kernel; an emit beyond its rate
records RATE; an illegal opcode records SP_ILLEGAL; an absent routine records MC_ABSENT; a routine's return lets the
kernel go on. It says of these constructors that they complete: kernelStart, spBranch, spHwLoop, spWaitFlag, spFence,
spEndKernel, spEmit, spIllegal, mcAbsent, spMcReturn (R103, R109, R110, R111, R113, R134, R135, R252, R253). -/
def Obligations.KernelControl : Prop :=
  (∀ (t : TileId) (j : SeqJob) (rest : List SeqJob) (s : State), On s → tileSt s t = tsRun → (tile s t).kernQ = j :: rest →
    (tile s t).kernel = none →
    Completes (.kernelStart t) s fun u => u = updTile t (fun x =>
      setScalar 15 j.skips { x with kernQ := rest, kernel := some { job := j } }) s) ∧
  (∀ (t : TileId) (k : KernelRun) (o : SpFields) (s : State), On s → SpReady (isInstr .control o) t k s →
    (0 ≤ (k.pc : Int) + signed 32 o.imm → (k.pc : Int) + signed 32 o.imm < keLength (runEntry (tile s t) k) →
      Completes (.spBranch t .always o) s fun u =>
        (tile u t).kernel = some { k with pc := ((k.pc : Int) + signed 32 o.imm).toNat } ∧ TileMems t s u ∧
        RegsBut (· = tilCnt t TilCnt.tilSpinstrCnt) s u ∧ OtherTiles t s u ∧
        u = { s with regs := u.regs, tiles := u.tiles }) ∧
    (scalar (tile s t) o.va ≠ 0 →
      Completes (.spBranch t .zero o) s fun u => SpRetired (fun _ => False) t k s u ∧ TileMems t s u) ∧
    ((keLength (runEntry (tile s t) k) : Int) ≤ (k.pc : Int) + signed 32 o.imm → get s (tilFault t) TilFault.valid = 0 →
      Completes (.spBranch t .always o) s fun u => TileFaulted t 7 u ∧ TileMems t s u ∧ u.hbm = s.hbm)) ∧
  (∀ (t : TileId) (k : KernelRun) (o : SpFields) (s : State), On s → SpReady (isInstr .control o) t k s → o.imm ≠ 0 →
    Completes (.spHwLoop t o) s fun u => (tile u t).kernel = (if scalar (tile s t) o.va = 0 then
        some { k with pc := k.pc + 1 + o.imm }
      else some { k with pc := k.pc + 1, loops :=
        ⟨k.pc + 1, k.pc + o.imm, scalar (tile s t) o.va - 1⟩ :: k.loops }) ∧ TileMems t s u ∧
      RegsBut (· = tilCnt t TilCnt.tilSpinstrCnt) s u ∧ OtherTiles t s u ∧ u = { s with regs := u.regs, tiles := u.tiles }) ∧
  (∀ (t : TileId) (k : KernelRun) (v : Bool) (o : SpFields) (s : State), On s → SpReady (isInstr .control o) t k s →
    (bit1 (rd s (fldFlags (tileField s t) (o.imm % 256 / 32))).toNat (o.imm % 256 % 32) = v →
      Completes (.spWaitFlag t v o) s fun u => SpRetired (fun _ => False) t k s u ∧ TileMems t s u) ∧
    (bit1 (rd s (fldFlags (tileField s t) (o.imm % 256 / 32))).toNat (o.imm % 256 % 32) ≠ v →
      Completes (.spWaitFlag t v o) s fun u => u = s)) ∧
  (∀ (t : TileId) (k : KernelRun) (s : State), On s → SpReady (isClass .control) t k s →
    Completes (.spFence t) s fun u => SpRetired (fun _ => False) t k s u ∧ TileMems t s u) ∧
  (∀ (t : TileId) (k : KernelRun) (s : State), On s → SpReady (isClass .control) t k s →
    (∀ e ∈ outEdges (unitDesc (tile s t) k.job.unit), tget (fun _ => 0) k.emitted e =
      unGroup (unitDesc (tile s t) k.job.unit) * edRate (edgeDesc (tile s t) e)) → k.job.back = [] →
    Completes (.spEndKernel t) s fun u => (tile u t).kernel = none ∧ TileMems t s u ∧
      (counting s t = true → rd u (tilCnt t TilCnt.tilKernelCnt) = rd s (tilCnt t TilCnt.tilKernelCnt) + 1) ∧
      RegsBut (fun o => o = tilCnt t TilCnt.tilSpinstrCnt ∨ o = tilCnt t TilCnt.tilKernelCnt) s u ∧ OtherTiles t s u ∧
      u = { s with regs := u.regs, tiles := u.tiles }) ∧
  (∀ (t : TileId) (k : KernelRun) (o : SpFields) (e n : Nat) (s : State), On s → SpReady (isInstr .control o) t k s →
    o.vd < unNout (unitDesc (tile s t) k.job.unit) → o.imm % 4 ≠ 3 → e = unOut (unitDesc (tile s t) k.job.unit) o.vd →
    n = tget (fun _ => 0) k.emitted e →
    (n < unGroup (unitDesc (tile s t) k.job.unit) * edRate (edgeDesc (tile s t) e) →
      Completes (.spEmit t o) s fun u => (∃ k', (tile u t).kernel = some k' ∧ tget (fun _ => 0) k'.emitted e = n + 1 ∧
        k'.pc = (afterInstr k.pc k.loops).1) ∧ u.hbm = s.hbm) ∧
    (unGroup (unitDesc (tile s t) k.job.unit) * edRate (edgeDesc (tile s t) e) ≤ n →
      get s (tilDfFault t) TilDfFault.valid = 0 →
      Completes (.spEmit t o) s fun u => tileSt u t = tsHalt ∧ get u (tilDfFault t) TilDfFault.code = 3 ∧ u.hbm = s.hbm)) ∧
  (∀ (t : TileId) (k : KernelRun) (op : Nat) (s : State), On s → SpReady (isIllegal op) t k s → get s (tilFault t) TilFault.valid = 0 →
    op < 256 → Completes (.spIllegal t op) s fun u => TileFaulted t 4 u ∧ TileMems t s u ∧ u.hbm = s.hbm) ∧
  (∀ (t : TileId) (k : KernelRun) (i : Nat) (s : State), On s → SpReady (isCall i) t k s → get s (tilFault t) TilFault.valid = 0 →
    (i = 0 ∨ 11 < i) → Completes (.mcAbsent t i) s fun u => TileFaulted t 6 u ∧ TileMems t s u ∧ u.hbm = s.hbm) ∧
  (∀ (t : TileId) (k : KernelRun) (s : State), On s → tileWorks s t = true → (tile s t).kernel = some k →
    k.micro.isSome = true →
    Completes (.spMcReturn t) s fun u => SpRetired (fun _ => False) t { k with micro := none } s u ∧ TileMems t s u)

/-- When the stream processor may issue, a routine that can be done leaves the kernel waiting for its return and does
its work: a DMA submit appends the descriptor in AM to an engine's queue with room; a landing send takes the message's
credits; a barrier arrival and a flag write each send one packet that awaits its answer; an anchor combine keeps the
greater anchor word in the sideband and in s2 and, on a port the unit has, emits it. Tile memories and HBM are
unchanged. With no room or no credit the kernel stalls with the state as it was; an engine above 3 and a flag
operation of 0b11 record SP_ILLEGAL. It says of these constructors that they complete: dmaSubmit, latSend, barArrive,
flagWrite, anchorCombine (R52, R109, R169, R225, R252, R253). -/
def Obligations.RoutinesOfTheMicrocode : Prop :=
  (∀ (t : TileId) (k : KernelRun) (s : State), On s → SpReady (isCall 8) t k s → scalar (tile s t) 2 < 4 →
    admits (runTask s t k) memAm (scalar (tile s t) 1) 1 = true →
    ((engine s t (scalar (tile s t) 2)).queue.length < 8 →
      Completes (.dmaSubmit t) s fun u => (tile u t).kernel = some { k with micro := some 8 } ∧
        (engine u t (scalar (tile s t) 2)).queue = (engine s t (scalar (tile s t) 2)).queue ++
          [{ desc := memNat (tile s t) memAm (64 * (taskBase (runTask s t k) memAm + scalar (tile s t) 1)) 64,
             task := keTask (runEntry (tile s t) k) }] ∧
        TileMems t s u ∧ OtherTiles t s u ∧ RegsBut (· = tilCnt t TilCnt.tilSpinstrCnt) s u ∧
        u = { s with regs := u.regs, tiles := u.tiles, free := u.free }) ∧
    (8 ≤ (engine s t (scalar (tile s t) 2)).queue.length → Completes (.dmaSubmit t) s fun u => u = s)) ∧
  (∀ (t : TileId) (k : KernelRun) (s : State), On s → SpReady (isCall 8) t k s → 4 ≤ scalar (tile s t) 2 →
    get s (tilFault t) TilFault.valid = 0 →
    Completes (.dmaSubmit t) s fun u => TileFaulted t 4 u ∧ TileMems t s u ∧ u.hbm = s.hbm) ∧
  (∀ (t : TileId) (k : KernelRun) (ch n : Nat) (s : State), On s → SpReady (isCall 9) t k s → ch = scalar (tile s t) 2 → ch < 256 →
    chValid (chanEntry s t ch) = true → chReceive (chanEntry s t ch) = false → chMode (chanEntry s t ch) = 1 →
    bits (scalar (tile s t) 3) 18 2 ≠ okSkip → n = chMsgu (chanEntry s t ch) →
    admits (runTask s t k) memAm (scalar (tile s t) 1) n = true →
    (n ≤ (chan s t ch).credits →
      Completes (.latSend t) s fun u => (tile u t).kernel = some { k with micro := some 9 } ∧
        (chan u t ch).credits = (chan s t ch).credits - n ∧ TileMems t s u ∧
        u = { s with regs := u.regs, tiles := u.tiles, free := u.free }) ∧
    ((chan s t ch).credits < n → Completes (.latSend t) s fun u => u = s)) ∧
  (∀ (t : TileId) (k : KernelRun) (b : Nat) (s : State), On s → SpReady (isCall 10) t k s → b = scalar (tile s t) 1 % 64 →
    Completes (.barArrive t) s fun u => (tile u t).kernel = some { k with micro := some 10 } ∧
      (∃ a ∈ u.net.awaits, a.src = t.val ∧ a.opc = ocBarArrive ∧ a.pkt.dst = epBarrier (b / 2) ∧
        a.pkt.payload = toBytes 1 (b + scalar (tile s t) 2 % 2 * 64)) ∧
      TileMems t s u ∧ OtherTiles t s u ∧ u.hbm = s.hbm ∧ u.req = s.req) ∧
  (∀ (t : TileId) (k : KernelRun) (v : Nat) (s : State), On s → SpReady (isCall 11) t k s → v = scalar (tile s t) 3 →
    (bits v 8 2 ≠ 3 → Completes (.flagWrite t) s fun u => (tile u t).kernel = some { k with micro := some 11 } ∧
      (∃ a ∈ u.net.awaits, a.src = t.val ∧ a.opc = ocFlagWrite ∧ a.pkt.dst = epField (scalar (tile s t) 1 % 16) ∧
        a.pkt.payload = toBytes 2 (scalar (tile s t) 2 % 256 + bits v 8 3 * 256)) ∧
      TileMems t s u ∧ OtherTiles t s u ∧ u.hbm = s.hbm ∧ u.req = s.req) ∧
    (bits v 8 2 = 3 → get s (tilFault t) TilFault.valid = 0 →
      Completes (.flagWrite t) s fun u => TileFaulted t 4 u ∧ TileMems t s u ∧ u.hbm = s.hbm)) ∧
  (∀ (t : TileId) (k : KernelRun) (a own v e n : Nat) (s : State), On s → SpReady (isCall 4) t k s →
    admits (runTask s t k) memAm (scalar (tile s t) 1) 1 = true →
    a = taskBase (runTask s t k) memAm + scalar (tile s t) 1 → own = anchorWord t (tile s t) a →
    (k.job.ops.find? (fun o => opKind o == okValue) = none → v = own) →
    (∀ o, k.job.ops.find? (fun o => opKind o == okValue) = some o →
      v = if signed 16 own < signed 16 (opAux o) then opAux o % 2 ^ 16 else own) →
    e = unOut (unitDesc (tile s t) k.job.unit) (scalar (tile s t) 3) → n = tget (fun _ => 0) k.emitted e →
    (unNout (unitDesc (tile s t) k.job.unit) ≤ scalar (tile s t) 3 →
      Completes (.anchorCombine t) s fun u => (tile u t).kernel = some { k with micro := some 4 } ∧
        tget (fun _ => none) (tile u t).anchors a = some v ∧
        scalar (tile u t) 2 = unsigned 64 (signed 16 v) % 2 ^ 64 ∧ TileMems t s u ∧ OtherTiles t s u ∧
        RegsBut (· = tilCnt t TilCnt.tilSpinstrCnt) s u ∧ u = { s with regs := u.regs, tiles := u.tiles, free := u.free }) ∧
    (scalar (tile s t) 3 < unNout (unitDesc (tile s t) k.job.unit) →
      n < unGroup (unitDesc (tile s t) k.job.unit) * edRate (edgeDesc (tile s t) e) →
      Completes (.anchorCombine t) s fun u =>
        (∃ k', (tile u t).kernel = some k' ∧ k'.micro = some 4 ∧ tget (fun _ => 0) k'.emitted e = n + 1) ∧
        tget (fun _ => none) (tile u t).anchors a = some v ∧ u.hbm = s.hbm))

/-- An idle engine of a powered tile takes the head of its queue, behind which a privileged descriptor of a controller
joins while there is room. A descriptor that fails its check ends with the result of the check in LAST_RESULT. One
that passes and moves data to or from elsewhere, with no word of the tile in error and no FAILED home, runs with at
least one credit in use, and DMA_ISSUED and DMA_OUTSTANDING both rise by the credits taken. A credit whose answer is
overdue is reclaimed and counted in RECLAIMED and in RECL_TIMEOUT and is no longer in use. A notification refused as
busy is sent again after 1 µs; once its DATA_TO has passed it is given up, and FIRST_REASON of a status record already
written becomes NOTIFY_BUSY, or TIMEOUT where none has answered (for the unanswered one the model's choice). HBM is
unchanged throughout. It says of these constructors that they complete: dmaDescStart, dmaTimeout, notifyResend (R168,
R172, R173, R174, R175, R177, R513). -/
def Obligations.DmaEngines : Prop :=
  (∀ (t : TileId) (e : EngineId) (j : DmaJob) (rest : List DmaJob) (s : State), On s → tileOff s t = false →
    suspended s t e = false → (engine s t e).queue = j :: rest → (engine s t e).run = none →
    (∀ c, c = dmaCheck (setEngine t e { engine s t e with queue := rest } s) t j → c ≠ 0 →
      Completes (.dmaDescStart t e none) s fun u => (engine u t e).queue = rest ∧ (engine u t e).run = none ∧
        get u (tilDmaStat t e) TilDmaStat.lastResult = c % 256 ∧ u.hbm = s.hbm) ∧
    (dmaCheck (setEngine t e { engine s t e with queue := rest } s) t j = 0 → (tile s t).errs = [] →
      localCopy j.desc = false → (∀ pos, moveRefused s j.desc pos = false) →
      Completes (.dmaDescStart t e none) s fun u => (engine u t e).queue = rest ∧ u.hbm = s.hbm ∧ TileMems t s u ∧
        ∃ r, (engine u t e).run = some r ∧ r.job = j ∧ r.credits ≠ [] ∧
          rd u (ledCnt LedCnt.dmaIssued) = rd s (ledCnt LedCnt.dmaIssued) + BitVec.ofNat 64 r.credits.length ∧
          rd u (ledCnt LedCnt.dmaOutstanding) = rd s (ledCnt LedCnt.dmaOutstanding) + BitVec.ofNat 64 r.credits.length)) ∧
  (∀ (t : TileId) (e : EngineId) (d : Nat) (s : State), On s → tileOff s t = false → (engine s t e).queue.length < 8 →
    Completes (.dmaDescStart t e (some d)) s fun u => exec (.dmaDescStart t e none) (setEngine t e { engine s t e with
      queue := (engine s t e).queue ++ [{ desc := d % 2 ^ 512, task := 0, priv := true }] } s) = .next u) ∧
  (∀ (t : TileId) (e : EngineId) (i : Nat) (r : DmaRun) (c : DmaCredit) (s : State), On s → (engine s t e).run = some r →
    findCredit s t e i = some c → c.pos < r.next →
    (s.devtime < c.due → Completes (.dmaTimeout t e i) s fun u => u = s) ∧
    (c.due ≤ s.devtime → Completes (.dmaTimeout t e i) s fun u =>
      rd u (ledCnt LedCnt.reclTimeout) = rd s (ledCnt LedCnt.reclTimeout) + 1 ∧
      get u (tilDmaStat t e) TilDmaStat.reclaimed =
        min (2 ^ TilDmaStat.reclaimed.w - 1) (get s (tilDmaStat t e) TilDmaStat.reclaimed + 1) ∧
      (∀ r', (engine u t e).run = some r' → c ∉ r'.credits) ∧ u.hbm = s.hbm)) ∧
  (∀ (t : TileId) (e : EngineId) (r : DmaRetry) (s : State), On s →
    (engine s t e).notes.find? (fun r => decide (r.due ≤ s.devtime) || (r.busy && decide (r.sent + usTicks ≤ s.devtime))) =
      some r →
    (s.devtime < r.due → Completes (.notifyResend t e) s fun u =>
        (engine u t e).notes = (engine s t e).notes.map (fun x => if x = r then { r with busy := false, sent := s.devtime } else x) ∧
        TileMems t s u ∧ OtherTiles t s u ∧ u.hbm = s.hbm ∧ u.req = s.req) ∧
    (r.due ≤ s.devtime → Completes (.notifyResend t e) s fun u =>
        (engine u t e).notes = (engine s t e).notes.erase r ∧
        (r.written = true → memNat (tile u t) memAm
          (64 * (taskBase (taskEntry s t (jobTask r.job)) memAm + dmSoff r.job.desc) + 17) 1 = if r.met then 5 else 7) ∧
        OtherTiles t s u ∧ u.hbm = s.hbm ∧ u.req = s.req))

/-- On a powered tile with a valid receive channel, the words of the oldest whole message leave the wire: an
unnarrowed payload stands in the ring slot of AM it is addressed to and the ring moves on by its units; an LA96 unit
stands in the PM ring and counts as held; a message with words that fail parity is written nowhere, its bad words are
counted and it records INTEGRITY on a tile without two such faults in the hour. A credit pulse adds one credit and
changes nothing else. A tunnel flush that is due takes the first gathered words and moves its TXID on, and one that is
not changes nothing; credits through a tunnel are added to the channel or to its operand edge; a tunnel packet in turn
hands its words to the next leg, or, for a site that is off, they are counted and dropped; one out of turn is handled
as a parity error. HBM is unchanged. It says of these constructors that they complete: landingReceive, la96Receive,
channelCredit, tunnelFlush, pktTunnelCredit, pktLatTunnel (R222, R223, R228, R229, R330, R333). -/
def Obligations.LatticeChannels : Prop :=
  (∀ (t : TileId) (ch a n : Nat) (w : List LaneWord) (r ws : List (List LaneWord)) (flips : List (Nat × Nat)) (s : State),
    On s → tileOff s t = false → chValid (chanEntry s t ch) = true → chReceive (chanEntry s t ch) = true →
    (chan s t ch).wire = w :: r → n = messageWords (chanEntry s t ch) w → n ≤ r.length + 1 →
    ws = flipWords flips ((w :: r).take n) →
    (chMode (chanEntry s t ch) = 1 → ws.any wordBad = false → bits (fromBytes (wordBytes (ws.take 1))) 18 2 ≠ okSkip →
      chNarrow (chanEntry s t ch) = false →
      a = 64 * (taskBase (taskEntry s t (chTask (chanEntry s t ch))) memAm + (chRbase (chanEntry s t ch) + (chan s t ch).ring)) →
      Completes (.landingReceive t ch flips) s fun u => (chan u t ch).wire = (w :: r).drop n ∧
        memRead (tile u t) memAm a (wordBytes (ws.drop 1)).length = wordBytes (ws.drop 1) ∧
        (tile u t).wm = (tile s t).wm ∧ (tile u t).pm = (tile s t).pm ∧
        (chan u t ch).ring = ((chan s t ch).ring + chMsgu (chanEntry s t ch)) % max 1 (chRsize (chanEntry s t ch)) ∧
        OtherTiles t s u ∧ u.hbm = s.hbm) ∧
    (chMode (chanEntry s t ch) = 2 → ws.any wordBad = false →
      a = 64 * (taskBase (taskEntry s t (chTask (chanEntry s t ch))) memPm + chRbase (chanEntry s t ch) + (chan s t ch).ring / 64) →
      Completes (.la96Receive t ch flips) s fun u => (chan u t ch).wire = (w :: r).drop n ∧
        memRead (tile u t) memPm a (wordBytes ws).length = wordBytes ws ∧
        (tile u t).wm = (tile s t).wm ∧ (tile u t).am = (tile s t).am ∧
        (chan u t ch).held = (chan s t ch).held + 64 ∧ OtherTiles t s u ∧ u = { s with tiles := u.tiles }) ∧
    (chMode (chanEntry s t ch) = 1 → ws.any wordBad = true → get s (tilFault t) TilFault.valid = 0 →
      ((tget (fun _ => []) s.integ.faults t).filter fun x => decide (s.devtime < x + 3600 * secTicks)).length < 2 →
      Completes (.landingReceive t ch flips) s fun u => TileFaulted t 8 u ∧ TileMems t s u ∧ get u (latStat t) LatStat.parity =
        min 65535 (get s (latStat t) LatStat.parity + (ws.filter wordBad).length) ∧ u.hbm = s.hbm)) ∧
  (∀ (t : TileId) (ch : Nat) (s : State), On s → 0 < (chan s t ch).pulses →
    Completes (.channelCredit t ch) s fun u => (chan u t ch).credits = (chan s t ch).credits + 1 ∧
      (chan u t ch).pulses = (chan s t ch).pulses - 1 ∧ TileMems t s u ∧ OtherTiles t s u ∧ u = { s with tiles := u.tiles }) ∧
  (∀ (t : TileId) (ch k n w : Nat) (l : Nat × Nat) (g : TunnelLeg) (s : State), On s → g = leg s t ch k → g.words ≠ [] →
    chReceive (chanEntry s t ch) = true → chTunnel (chanEntry s t ch) = true →
    (tunnelLegs s (sendEntry s t ch))[k]? = some l → w = max 1 (chWidth (chanEntry s t ch)) →
    n = min (256 / w) (wordsOf (chanEntry s t ch) g.words.length) →
    (256 ≤ g.words.length ∨ g.since + flushTicks s ≤ s.devtime →
      Completes (.tunnelFlush t ch k) s fun u => (leg u t ch k).words = g.words.drop (n * w) ∧
        (leg u t ch k).txid = (g.txid + 1) % 4096 ∧ TileMems t s u ∧ OtherTiles t s u ∧ u.hbm = s.hbm) ∧
    (g.words.length < 256 → s.devtime < g.since + flushTicks s → Completes (.tunnelFlush t ch k) s fun u => u = s)) ∧
  (∀ (p : Packet) (v : Nat) (s : State), On s → packetOk p = true → p.opc = ocTunnelCredit → epIsTile p.dst = true →
    v = fromBytes p.payload →
    (chMode (chanEntry s p.dst (bits v 0 8)) ≠ 0 → Completes (.pktTunnelCredit p) s fun u =>
      (chan u p.dst (bits v 0 8)).credits = (chan s p.dst (bits v 0 8)).credits + bits v 8 16 ∧ TileMems p.dst s u ∧
      OtherTiles p.dst s u ∧ u = { s with tiles := u.tiles, net := { s.net with arrived := u.net.arrived } }) ∧
    (∀ e d, chMode (chanEntry s p.dst (bits v 0 8)) = 0 →
      (tile s p.dst).edgeTab.find? (fun d => edPath d.2 == 1 && edCh d.2 == bits v 0 8) = some (e, d) →
      Completes (.pktTunnelCredit p) s fun u =>
        edgeCredit (tile u p.dst) e = edgeCredit (tile s p.dst) e + bits v 8 16 ∧ TileMems p.dst s u ∧
        OtherTiles p.dst s u ∧ u = { s with tiles := u.tiles, net := { s.net with arrived := u.net.arrived } })) ∧
  (∀ (p : Packet) (t ch k : Nat) (s : State), On s → packetOk p = true → p.opc = ocLatTunnel → epIsTile p.dst = true →
    tunnelOf s p = some (t, ch, k) → t < 768 →
    (p.txid = (leg s t ch k).want → tileOff s t = true → k + 1 = (tunnelLegs s (sendEntry s t ch)).length →
      Completes (.pktLatTunnel p) s fun u => (leg u t ch k).want = (p.txid + 1) % 4096 ∧
        get u (latStat t) LatStat.offDrop = min (2 ^ LatStat.offDrop.w - 1) (get s (latStat t) LatStat.offDrop + wordsOf
          (chanEntry s t ch) ((fitBytes (64 * p.len) p.payload).take (bits p.ext 8 8 * chWidth (chanEntry s t ch))).length) ∧
        TileMems t s u ∧ OtherTiles t s u ∧ u.hbm = s.hbm) ∧
    (p.txid = (leg s t ch k).want → k + 1 < (tunnelLegs s (sendEntry s t ch)).length →
      Completes (.pktLatTunnel p) s fun u => (leg u t ch k).want = (p.txid + 1) % 4096 ∧
        (leg u t ch (k + 1)).words = (leg s t ch (k + 1)).words ++
          (fitBytes (64 * p.len) p.payload).take (bits p.ext 8 8 * chWidth (chanEntry s t ch)) ∧
        TileMems t s u ∧ OtherTiles t s u ∧ u = { s with tiles := u.tiles, net := { s.net with arrived := u.net.arrived } }) ∧
    (p.txid ≠ (leg s t ch k).want → tileOff s t = false → get s (tilFault t) TilFault.valid = 0 →
      ((tget (fun _ => []) s.integ.faults t).filter fun x => decide (s.devtime < x + 3600 * secTicks)).length < 2 →
      Completes (.pktLatTunnel p) s fun u => TileFaulted t 8 u ∧ TileMems t s u ∧
        get u (latStat t) LatStat.parity = min 65535 (get s (latStat t) LatStat.parity + 1) ∧ u.hbm = s.hbm))

/-- For a packet of this device that passes its checks, from an endpoint that is live: an operand that fits its queue
joins it and is acknowledged; a read through a window that admits it is answered with the units it names, a write
through one stores them and is acknowledged, a notification with room is acknowledged; one that a window refuses is
refused with the reason and its window is not touched. Read data for a credit in use lands at the engine's local end,
is counted as returned and leaves HBM alone. An ACK or REFUSE of an awaited operation ends the wait; of an engine's
packet, its credit returns. It says of these constructors that they complete: pktOperand, pktReadReqWindow, pktWrite,
pktNotify, pktReadData, pktAck, pktRefuse (R157, R165, R173, R174, R176, R236, R513). -/
def Obligations.PacketsAtTiles : Prop :=
  (∀ (p : Packet) (q o : Nat) (s : State), On s → packetOk p = true → p.opc = ocOperand → epIsTile p.dst = true → tileOff s p.dst = false →
    p.srcFdn = ownFdn s → epLive s p.src = true → bit1 (fromBytes (p.payload.take 8)) 8 = false →
    q = bits (fromBytes (p.payload.take 8)) 0 8 → o = fromBytes ((p.payload.drop 8).take 16) →
    (∀ v, consumer (tile s p.dst) q = some v → distance (unitRun (tile s p.dst) v).base (opTag o) < 2048) →
    opIdx o < quRate (queueDesc (tile s p.dst) q) →
    (∀ i ∈ (queueRun (tile s p.dst) q).items, ¬ (opTag i.op = opTag o ∧ opIdx i.op = opIdx o)) →
    (queueRun (tile s p.dst) q).spilled = [] →
    Completes (.pktOperand p) s fun u => (∃ e, (queueRun (tile u p.dst) q).items = (queueRun (tile s p.dst) q).items ++
        [{ op := o, entry := e, at_ := (tile s p.dst).tclk, drained := false }]) ∧
      Sent (ackOf p) u ∧ TileMems p.dst s u ∧ OtherTiles p.dst s u ∧ u.hbm = s.hbm) ∧
  (∀ (p : Packet) (t i off n : Nat) (s : State), On s → packetOk p = true → p.opc = ocReadReq → epIsTile p.dst = true → t = p.dst →
    bit1 (fromBytes (p.payload.take 4)) 0 = false → p.srcFdn = ownFdn s → epLive s p.src = true →
    i = bits (fromBytes (p.payload.take 4)) 1 4 → off = bits (fromBytes (p.payload.take 4)) 5 17 → n = reqUnits p →
    (winCheck s t i p .read off n = 0 → (tile s t).errs = [] →
      Completes (.pktReadReqWindow p) s fun u =>
        Sent (dataOf p (memRead (tile s t) (wiMem (windowEntry s t i)) (64 * winUnit s t i off) (64 * n))) u ∧
        u = { s with net := u.net }) ∧
    (∀ r, r = winCheck s t i p .read off n → r ≠ 0 →
      Completes (.pktReadReqWindow p) s fun u => Sent (refuseOf p r) u ∧ u.tiles = s.tiles ∧ u.hbm = s.hbm)) ∧
  (∀ (p : Packet) (t i off : Nat) (bs : List Byte) (s : State), On s → packetOk p = true → p.opc = ocWrite → epIsTile p.dst = true → t = p.dst →
    p.srcFdn = ownFdn s → epLive s p.src = true → i = bits p.ext 0 4 → off = bits p.ext 4 17 → bs = packetBytes p →
    (winCheck s t i p .write off (bs.length / 64) = 0 → wiMem (windowEntry s t i) < 3 →
      Completes (.pktWrite p) s fun u => Sent (ackOf p) u ∧
        memRead (tile u t) (wiMem (windowEntry s t i)) (64 * winUnit s t i off) bs.length = bs ∧
        (∀ m b, m < 3 → (m ≠ wiMem (windowEntry s t i) ∨ b < 64 * winUnit s t i off ∨
          64 * winUnit s t i off + bs.length ≤ b) → memRead (tile u t) m b 1 = memRead (tile s t) m b 1) ∧
        OtherTiles t s u ∧ u = { s with tiles := u.tiles, net := u.net }) ∧
    (∀ r, r = winCheck s t i p .write off (bs.length / 64) → r ≠ 0 →
      Completes (.pktWrite p) s fun u => Sent (refuseOf p r) u ∧ u.tiles = s.tiles ∧ u.hbm = s.hbm)) ∧
  (∀ (p : Packet) (t i o : Nat) (s : State), On s → packetOk p = true → p.opc = ocNotify → epIsTile p.dst = true → t = p.dst →
    p.srcFdn = ownFdn s → epLive s p.src = true → i = bits (fromBytes (p.payload.take 1)) 0 4 →
    o = fromBytes ((p.payload.drop 8).take 16) →
    winCheck s t i p .notify (bits (opPayload o) 0 17)
      (if opKind o = okReference then bits (opPayload o) 17 20 else 0) = 0 →
    (queueRoom (tile s t) (wiNq (windowEntry s t i)) = false → (tile s t).notes.length < 16 →
      Completes (.pktNotify p) s fun u => Sent (ackOf p) u ∧
        (tile u t).notes.length = (tile s t).notes.length + 1 ∧ TileMems t s u ∧ u = { s with tiles := u.tiles, net := u.net }) ∧
    (queueRoom (tile s t) (wiNq (windowEntry s t i)) = false → 16 ≤ (tile s t).notes.length →
      Completes (.pktNotify p) s fun u => Sent (refuseOf p rrNotifyBusy) u ∧ u.tiles = s.tiles ∧ u.hbm = s.hbm)) ∧
  (∀ (p : Packet) (t e : Nat) (r : DmaRun) (c : DmaCredit) (s : State), On s → packetOk p = true → p.opc = ocReadData → epIsTile p.dst = true →
    t = p.dst → e = p.txid / 1024 % 4 → (engine s t e).run = some r →
    answeredCredit s t e (p.txid % 1024) p = some c → c.pos < r.next → hbmMove r.job.desc = false →
    Completes (.pktReadData p) s fun u =>
      rd u (ledCnt LedCnt.dmaReturned) = rd s (ledCnt LedCnt.dmaReturned) + 1 ∧
      (∀ r', (engine u t e).run = some r' → c ∉ r'.credits) ∧ u.hbm = s.hbm ∧ OtherTiles t s u) ∧
  (∀ (p : Packet) (a : Await) (s : State), On s → packetOk p = true → p.opc = ocAck → bits (fromBytes (p.payload.take 2)) 12 4 = 1 →
    s.net.awaits.find? (awaits p (bits (fromBytes (p.payload.take 2)) 0 12 % 4096)) = some a →
    Completes (.pktAck p) s fun u => u.net.awaits = s.net.awaits.erase a ∧
      u = { s with net := { s.net with arrived := u.net.arrived, awaits := u.net.awaits } }) ∧
  (∀ (p : Packet) (x : Nat) (c : DmaCredit) (s : State), On s → packetOk p = true → p.opc = ocRefuse → epIsTile p.dst = true →
    x = bits (fromBytes (p.payload.take 2)) 0 12 → s.net.awaits.find? (awaits p x) = none →
    noteOf s p.dst (x / 1024 % 4) (x % 1024) p = none → answeredCredit s p.dst (x / 1024 % 4) (x % 1024) p = some c →
    Completes (.pktRefuse p) s fun u =>
      rd u (ledCnt LedCnt.dmaReturned) = rd s (ledCnt LedCnt.dmaReturned) + 1 ∧ u.hbm = s.hbm ∧ OtherTiles p.dst s u)

/-- For packets that pass their checks: an HBM write to a slice in service stores its units in HBM, no other byte, and
is acknowledged; a read of units in no error is answered with them. A flag write sets, clears or writes that flag of
its field alone. A barrier arrival below the group's count raises COUNT. A privileged write by a controller stores at
a powered site; a management answer ends its wait. A packet with a reserved opcode is discarded and counted at its
router. An operation whose CTL_TO has passed: a tile's own records HORIZON with queue 0xFF; a PRIV_WRITE or MGMT is
sent again up to three times; another endpoint's is dropped and logged. It says of these constructors that they
complete: pktHbmWrite, pktReadReqHbm, pktFlagWrite, pktBarArrive, pktPrivWrite, pktMgmt, pktReservedOpcode, ctlTimeout
(R166, R233, R236, R249, R252, R253, R263, R266, R267). -/
def Obligations.PacketsAtTheDevice : Prop :=
  (∀ (p : Packet) (a : Nat) (bs : List Byte) (s : State), On s → packetOk p = true → p.opc = ocHbmWrite → epIsSlice p.dst = true →
    p.srcFdn = ownFdn s → epLive s p.src = true → a = bits p.ext 0 40 → bs = packetBytes p →
    hbmAdmits s p a bs.length = true → homeFailed s a = false → errsIn s a bs.length = [] →
    Completes (.pktHbmWrite p) s fun u => Sent (ackOf p) u ∧ hbmRead u a bs.length = bs ∧
      HbmBut a bs.length s u ∧ u = { s with hbm := u.hbm, net := u.net }) ∧
  (∀ (p : Packet) (a n : Nat) (s : State), On s → packetOk p = true → p.opc = ocReadReq → bit1 (fromBytes (p.payload.take 4)) 0 = true →
    epIsSlice p.dst = true → p.srcFdn = ownFdn s → epLive s p.src = true →
    a = fromBytes ((p.payload.drop 4).take 5) → n = reqUnits p → hbmAdmits s p a (64 * n) = true →
    homeFailed s a = false → errsIn s a (64 * n) = [] →
    Completes (.pktReadReqHbm p) s fun u => Sent (dataOf p (hbmRead s a (64 * n))) u ∧ u = { s with net := u.net }) ∧
  (∀ (p : Packet) (f i op : Nat) (s : State), On s → packetOk p = true → p.opc = ocFlagWrite → p.dst = 0x680 + f → f < 12 →
    p.srcFdn = ownFdn s → epLive s p.src = true → fabricOff s f = false → i = bits (flagWord p) 0 8 →
    op = bits (flagWord p) 8 2 → op ≠ 3 →
    Completes (.pktFlagWrite p) s fun u =>
      get u (fldFlags f (i / 32)) ⟨i % 32, 1⟩ = (if op = 0 then 1 else if op = 1 then 0 else bits (flagWord p) 10 1) ∧
      (∀ j, j < 32 → j ≠ i % 32 → get u (fldFlags f (i / 32)) ⟨j, 1⟩ = get s (fldFlags f (i / 32)) ⟨j, 1⟩) ∧
      RegsBut (· = fldFlags f (i / 32)) s u ∧ u = { s with regs := u.regs, net := u.net }) ∧
  (∀ (p : Packet) (b v : Nat) (s : State), On s → packetOk p = true → p.opc = ocBarArrive → b = bits (fromBytes (p.payload.take 1)) 0 6 →
    p.dst = epBarrier (b / 2) → p.srcFdn = ownFdn s → epLive s p.src = true → v = bits (fromBytes (p.payload.take 1)) 6 1 →
    get s (conBarStat b) ConBarStat.valid = 1 → v = get s (conBarStat b) ConBarStat.sense →
    get s (conBarStat b) ConBarStat.count + 1 < bits (tget (fun _ => 0) s.net.bars b) 0 11 →
    get s (conBarStat b) ConBarStat.next ≤ bits (tget (fun _ => 0) s.net.bars b) 0 11 →
    Completes (.pktBarArrive p) s fun u =>
      get u (conBarStat b) ConBarStat.count = get s (conBarStat b) ConBarStat.count + 1 ∧
      get u (conBarStat b) ConBarStat.sense = get s (conBarStat b) ConBarStat.sense ∧ Sent (ackOf p) u ∧
      RegsBut (· = conBarStat b) s u ∧ u = { s with regs := u.regs, net := u.net }) ∧
  (∀ (p : Packet) (t u0 : Nat) (bs : List Byte) (s : State), On s → packetOk p = true → p.opc = ocPrivWrite → isPrivileged p.src = true →
    p.srcFdn = ownFdn s → epLive s p.src = true → siteOff s (bits p.ext 19 10) = false →
    privAllowed s (bits p.ext 19 10) = true → bits p.ext 0 2 < 3 →
    tileAt s (bits p.ext 19 10) = some t → u0 = bits p.ext 2 17 → bs = packetBytes p →
    Completes (.pktPrivWrite p) s fun u => Sent (ackOf p) u ∧
      memRead (tile u t) (bits p.ext 0 2) (64 * u0) bs.length = bs ∧ OtherTiles t s u ∧
      u = { s with tiles := u.tiles, net := u.net }) ∧
  (∀ (p : Packet) (a : Await) (s : State), On s → packetOk p = true → p.opc = ocMgmt → isPrivileged p.src = true → isPrivileged p.dst = true →
    s.net.awaits.find? (awaits p p.txid) = some a →
    Completes (.pktMgmt p) s fun u => u.net.awaits = s.net.awaits.erase a ∧
      u = { s with net := { s.net with arrived := u.net.arrived, awaits := u.net.awaits } }) ∧
  (∀ (p : Packet) (g : Nat) (s : State), On s → isReserved p = true → g = (attach s p.dst p).1 →
    Completes (.pktReservedOpcode p) s fun u =>
      get u (conRouterStat g) ConRouterStat.rsvd =
        min (2 ^ ConRouterStat.rsvd.w - 1) (get s (conRouterStat g) ConRouterStat.rsvd + 1) ∧
      RegsBut (fun o => o = conRouterStat g ∨ ReportReg o) s u ∧ u.tiles = s.tiles ∧ u.hbm = s.hbm ∧ u.req = s.req) ∧
  (∀ (src txid : Nat) (a : Await) (s : State), On s →
    s.net.awaits.find? (fun a => a.src == src && (a.txid == txid && decide (a.due ≤ s.devtime))) = some a →
    (epIsTile a.src = true → tileOff s a.src = false → get s (tilDfFault a.src) TilDfFault.valid = 0 →
      Completes (.ctlTimeout src txid) s fun u => tileSt u a.src = tsHalt ∧ u.net.awaits = s.net.awaits.erase a ∧
        get u (tilDfFault a.src) TilDfFault.code = 1 ∧ get u (tilDfFault a.src) TilDfFault.queue = 255 ∧ u.hbm = s.hbm) ∧
    (epIsTile a.src = false → a.opc ≠ ocPrivWrite → a.opc ≠ ocMgmt →
      Completes (.ctlTimeout src txid) s fun u => u.net.awaits = s.net.awaits.erase a ∧
        Reports { s with net := u.net } u) ∧
    (epIsTile a.src = false → a.opc = ocPrivWrite ∨ a.opc = ocMgmt → a.again < 3 →
      Completes (.ctlTimeout src txid) s fun u => u.net.awaits = s.net.awaits.erase a ++
        [{ a with again := a.again + 1, due := s.devtime + ctlTicks s }] ∧ u.tiles = s.tiles ∧ u.hbm = s.hbm)) ∧
  (∀ (src txid : Nat) (s : State), On s →
    s.net.awaits.find? (fun a => a.src == src && (a.txid == txid && decide (a.due ≤ s.devtime))) = none →
    Completes (.ctlTimeout src txid) s fun u => u = s)

/-- Once the packets at a router's interfaces have filled its inputs, an output of a powered cluster's router takes
the packet whose turn it is: when the neighbour's input has room it moves there and leaves its own buffer; when, with
the bits inverted on its way, it fails its check it is discarded and counted as CRC or PARITY; a packet for an
endpoint that the router serves, not a link port, has arrived there. A quiesce of a device without tile traffic ends,
but for a remap that needs it, and takes CCLK_LP over. A wire with 16 or more errors in a bundle with a spare left is
marked for the next quiesce and counted as pending; fewer errors change nothing. It says of these constructors that
they complete: routerForward, quiesce, seamWireMark (R232, R242, R246, R249, R254, R255). -/
def Obligations.ConcourseForwarding : Prop :=
  (∀ (g : ClusterId) (out : RouterPort) (upset : List (Nat × Nat)) (i g' i' : Nat) (p q : Packet) (s s' : State), On s →
    fabricOff s (clusterField g) = false → s' = fillRouter g s → arbitrate s' g out = some (i, p) →
    q = { p with upset := p.upset ++ upset } → packetOk q = true → (routeOf s' g p).isSome = true → localPort out = false →
    portPeer g out = some (g', i') → hasRoom s' g' i' p.data = true → localPort i = false → portKey g' i' ≠ portKey g i →
    Completes (.routerForward g out upset) s fun u =>
      bufOf u (portKey g' i') = bufOf s (portKey g' i') ++ [settled q] ∧
      bufOf u (portKey g i) = (bufOf s (portKey g i)).erase p ∧
      (∀ k, k / 17 ≠ g → k ≠ portKey g' i' → bufOf u k = bufOf s k) ∧ u = { s with net := u.net }) ∧
  (∀ (g : ClusterId) (out : RouterPort) (upset : List (Nat × Nat)) (i : Nat) (p q : Packet) (s s' : State), On s →
    fabricOff s (clusterField g) = false → s' = fillRouter g s → arbitrate s' g out = some (i, p) →
    q = { p with upset := p.upset ++ upset } →
    (packetOk q = false → localPort i = false → Completes (.routerForward g out upset) s fun u =>
      bufOf u (portKey g i) = (bufOf s (portKey g i)).erase p ∧ (∀ k, k / 17 ≠ g → bufOf u k = bufOf s k) ∧
      (parityFails q = true → get u (conRouterStat g) ConRouterStat.parity =
        min (2 ^ ConRouterStat.parity.w - 1) (get s (conRouterStat g) ConRouterStat.parity + 1)) ∧
      (parityFails q = false → get u (conRouterStat g) ConRouterStat.crc =
        min (2 ^ ConRouterStat.crc.w - 1) (get s (conRouterStat g) ConRouterStat.crc + 1)) ∧
      RegsBut (fun o => o = conRouterStat g ∨ ReportReg o) s u ∧ u.tiles = s.tiles ∧ u.hbm = s.hbm) ∧
    (packetOk q = true → localPort out = true → (routeOf s' g p).isSome = true → epIsLink (settled q).rdst = false →
      Completes (.routerForward g out upset) s fun u => u.net.arrived = s.net.arrived ++ [settled q] ∧
        u = { s with net := u.net })) ∧
  (∀ s : State, On s → trafficQuiet s = true → s.boot.remap = none →
    Completes .quiesce s fun u => u.boot.quiesce = false ∧ get u clkStat ClkStat.cclkLp = get s clkCtrl ClkCtrl.cclkLp ∧
      u.hbm = s.hbm ∧ u.req = s.req) ∧
  (∀ s : State, On s → trafficQuiet s = false → Completes .quiesce s fun u => u = s) ∧
  (∀ (b : SeamBundle) (wire errors i : Nat) (s : State), On s → bundleNum b = some i → wire < 32 →
    (errors < 16 → Completes (.seamWireMark b wire errors) s fun u => u = s) ∧
    (16 ≤ errors → wire ∉ (bundle s i).marked → (bundle s i).spares + (bundle s i).marked.length < 2 →
      Completes (.seamWireMark b wire errors) s fun u => bundle u i = { bundle s i with marked := (bundle s i).marked ++ [wire] } ∧
        get u conSeamStat ConSeamStat.pending =
          min (2 ^ ConSeamStat.pending.w - 1) (get s conSeamStat ConSeamStat.pending + 1) ∧
        (∀ j, j ≠ i → bundle u j = bundle s j) ∧ RegsBut (fun o => o = conSeamStat ∨ ReportReg o) s u ∧
        u.tiles = s.tiles ∧ u.hbm = s.hbm ∧ u.links = s.links))

/-- A tile in TEST that has not run yet: a run with equal signatures is counted in KAT_RUNS and held for the window
that tests the tile; outside a window SINCE_KAT becomes 0 and the tile is verified. A window whose tiles have all
finished, with no attribution and nothing held back, closes: TEST_WIN is 0 on each of its tiles, SINCE_KAT is 0 on
those that passed and were not voided, and the next layer is no longer held. With the words upset since the last
command, the scrubber corrects a correctable word and counts it; an uncorrectable word of AM, PM or the operand store
is only counted and logged, and one of WM on a tile in TEST waits for the window to close. Tile memories and HBM are
unchanged. It says of these constructors that they complete: katRun, testWindowClose, tileSramScrub (R330, R335, R336,
R337, R349). -/
def Obligations.TestWindowsAndKnownAnswers : Prop :=
  (∀ (t : TileId) (s : State), On s → tileSt s t = tsTest → (∀ r ∈ s.integ.runs, r.1 ≠ t.val) →
    (t.val ∈ s.integ.window → Completes (.katRun t false) s fun u =>
      u.integ.runs = s.integ.runs ++ [(t.val, false)] ∧ rd u (intCnt IntCnt.katRuns) = rd s (intCnt IntCnt.katRuns) + 1 ∧
      RegsBut (fun o => o = intCnt IntCnt.katRuns ∨ o = tilCnt t TilCnt.tilSpinstrCnt) s u ∧
      u = { s with regs := u.regs, free := u.free, integ := u.integ }) ∧
    (t.val ∉ s.integ.window → Completes (.katRun t false) s fun u =>
      get u (tilIntStat t) TilIntStat.sinceKat = 0 ∧ get u (tilIntStat t) TilIntStat.unverified = 0 ∧
      rd u (intCnt IntCnt.katRuns) = rd s (intCnt IntCnt.katRuns) + 1 ∧
      RegsBut (fun o => o = intCnt IntCnt.katRuns ∨ o = tilCnt t TilCnt.tilSpinstrCnt ∨ o = tilIntStat t ∨ o = intStat) s u ∧
      u = { s with regs := u.regs, free := u.free })) ∧
  (∀ (ns : Nat) (s : State), On s → s.req.testOpen = true → windowDone s = true → s.integ.attribution = none →
    s.integ.afterWindow = [] →
    Completes (.testWindowClose ns) s fun u => u.req.testOpen = false ∧ u.integ.window = [] ∧ u.integ.runs = [] ∧
      (∀ t ∈ s.integ.window, get u (tilCtrl t) TilCtrl.testWin = 0) ∧
      (∀ t, (t, false) ∈ s.integ.runs → t ∉ s.integ.voided → get u (tilIntStat t) TilIntStat.sinceKat = 0) ∧
      u = { s with regs := u.regs, integ := u.integ, req := { s.req with testOpen := false } }) ∧
  (∀ (ns : Nat) (s : State), On s → s.req.testOpen = false → Completes (.testWindowClose ns) s fun u => u = s) ∧
  (∀ (t : TileId) (mem : TileMem) (w : Nat) (upset : List WordError) (s s' : State), On s → tileOff s t = false →
    tileMemCode mem < 5 → w < 2 ^ 20 →
    s' = upset.foldl (fun s e => updTile t (upsetWord (tileMemCode e.mem) e.word e.double) s) s →
    (tget (fun _ => 0) (tile s' t).errs (errKey (tileMemCode mem) w) = 1 →
      Completes (.tileSramScrub t mem w upset) s fun u =>
        tget (fun _ => 0) (tile u t).errs (errKey (tileMemCode mem) w) ≠ 1 ∧ TileMems t s u ∧ OtherTiles t s u ∧
        (∃ c, 0 < c ∧ rd u (intCnt IntCnt.sramCe) = rd s (intCnt IntCnt.sramCe) + BitVec.ofNat 64 c) ∧
        RegsBut (fun o => o = intCnt IntCnt.sramCe ∨ ReportReg o) s u ∧ u.hbm = s.hbm) ∧
    (1 < tget (fun _ => 0) (tile s' t).errs (errKey (tileMemCode mem) w) → mem ≠ .wm → mem ≠ .istore →
      Completes (.tileSramScrub t mem w upset) s fun u => rd u (intCnt IntCnt.sramUe) = rd s (intCnt IntCnt.sramUe) + 1 ∧
        u.tiles = s'.tiles ∧ RegsBut (fun o => o = intCnt IntCnt.sramUe ∨ ReportReg o) s u ∧ u.hbm = s.hbm) ∧
    (1 < tget (fun _ => 0) (tile s' t).errs (errKey (tileMemCode mem) w) → mem = .wm → tileSt s t = tsTest →
      Completes (.tileSramScrub t mem w upset) s fun u => u.integ.afterWindow = s.integ.afterWindow ++ [(t.val, ckWmUe)] ∧
        RegsBut (· = intCnt IntCnt.sramUe) s u ∧ u = { s' with regs := u.regs, integ := u.integ }))

/-- At the end of a compared step a tile's digest is sent once and changes nothing else but what counts the routine.
While one of a pair is missing its arrival changes nothing. When both are there and equal and the pair is not SUSPECT,
COMPARED rises by one and the step leaves the comparison. When they differ, MISMATCH rises by one, the tile records
INTEGRITY and the batch fails. A pair still incomplete CTL_TO after the sinks have reported is counted in DIGEST_LOST,
every comparison is dropped and the batch fails. It says of these constructors that they complete: digest64,
digestArrive, digestTimeout (R332, R333, R343, R344, R349). -/
def Obligations.DigestsAreCompared : Prop :=
  (∀ (t : TileId) (sh : Bool) (s : State), On s → s.req.batch.isSome = true → tileWorks s t = true →
    digestOf s t sh ∈ s.integ.selected → tget (fun _ => none) s.integ.digests (2 * digestOf s t sh + b2n sh) = none →
    unitsEnded s t sh = true →
    Completes (.digest64 t sh) s fun u => tget (fun _ => none) u.integ.digests (2 * digestOf s t sh + b2n sh) =
        some (if sh then (tile s t).shadow else (tile s t).digest) ∧ u.integ.selected = s.integ.selected ∧
      RegsBut (· = tilCnt t TilCnt.tilSpinstrCnt) s u ∧ u = { s with regs := u.regs, free := u.free, integ := u.integ }) ∧
  (∀ (t : TileId) (s : State), On s → s.req.batch.isSome = true → t.val ∈ s.integ.selected →
    (digestPair s t = none → Completes (.digestArrive t) s fun u => u = s) ∧
    (∀ a, digestPair s t = some (a, a) → isSuspect s t (partner s (batchModel s) t) = false →
      Completes (.digestArrive t) s fun u => rd u (intCnt IntCnt.compared) = rd s (intCnt IntCnt.compared) + 1 ∧
        t.val ∉ u.integ.selected ∧ digestPair u t = none ∧ u.tiles = s.tiles) ∧
    (∀ a b, digestPair s t = some (a, b) → a ≠ b → tileOff s t = false → get s (tilFault t) TilFault.valid = 0 →
      Completes (.digestArrive t) s fun u => rd u (intCnt IntCnt.mismatch) = rd s (intCnt IntCnt.mismatch) + 1 ∧
        u.req.batch = none ∧ TileFaulted t 8 u ∧ u.hbm = s.hbm)) ∧
  (∀ (t : TileId) (k : Nat) (s : State), On s → s.req.batch.isSome = true → t.val ∈ s.integ.selected → digestPair s t = none →
    s.integ.sinksAt = some k → k + max 2 (get s conCtrl ConCtrl.ctlTo) * usTicks ≤ s.devtime →
    Completes (.digestTimeout t) s fun u => rd u (intCnt IntCnt.digestLost) = rd s (intCnt IntCnt.digestLost) + 1 ∧
      u.req.batch = none ∧ u.integ.selected = [] ∧ u.integ.digests = [] ∧ u.tiles = s.tiles ∧ u.hbm = s.hbm)

/-- While rounds run, a round starts when none has begun or its interval has passed: its tick is noted and no range
counts as compared. A range of a powered tile whose WM holds no word in error and hashes to its reference counts as
compared, and nothing in the tile or HBM changes; one that does not is counted in WDIG_MISMATCH and records INTEGRITY,
its tile waiting for a remap already. A tile whose round has not finished within the interval is counted late once. It
says of these constructors that they complete: wdigestRoundStart, wdigest, wdigLate (R332, R345, R354). -/
def Obligations.WeightDigests : Prop :=
  (∀ (i : Nat) (s : State), On s → activeSlot s = some i → roundsRun s = true →
    (s.integ.roundAt = none → Completes .wdigestRoundStart s fun u =>
      u = { s with integ := { s.integ with roundAt := some s.devtime, compared := [], late := [] } }) ∧
    (∀ k, s.integ.roundAt = some k → k + roundTicks s ≤ s.devtime → Completes .wdigestRoundStart s fun u =>
      u.integ.roundAt = some s.devtime ∧ u.integ.compared = [] ∧ u.integ.late = [] ∧ u.tiles = s.tiles ∧ u.hbm = s.hbm ∧
        RegsBut (fun o => o = intCnt IntCnt.wdigLate ∨ ReportReg o) s u)) ∧
  (∀ (t : TileId) (r i a n k : Nat) (s : State), On s → activeSlot s = some i →
    (wmRanges s (slotBase s i) t)[r]? = some (a, n) → roundsRun s = true → s.integ.roundAt = some k → tileOff s t = false →
    r ∉ comparedOf s t → (tile s t).errs = [] →
    (sha512 (memRead (tile s t) memWm (64 * a) (64 * n)) = sha512 (wmRange s (slotBase s i) t (a, n)) →
      Completes (.wdigest t r) s fun u => comparedOf u t = r :: comparedOf s t ∧ u.tiles = s.tiles ∧
        RegsBut (fun o => o = intStat ∨ o = tilCnt t TilCnt.tilSpinstrCnt) s u ∧
        u = { s with regs := u.regs, free := u.free, integ := u.integ }) ∧
    (sha512 (memRead (tile s t) memWm (64 * a) (64 * n)) ≠ sha512 (wmRange s (slotBase s i) t (a, n)) →
      remapKnown s t = true → get s (tilFault t) TilFault.valid = 0 →
      Completes (.wdigest t r) s fun u => TileFaulted t 8 u ∧
        rd u (intCnt IntCnt.wdigMismatch) = rd s (intCnt IntCnt.wdigMismatch) + 1 ∧ u.hbm = s.hbm)) ∧
  (∀ (t : TileId) (i k : Nat) (s : State), On s → activeSlot s = some i → s.integ.roundAt = some k → roundsRun s = true →
    tileOff s t = false → lateTile s (slotBase s i) t = true → k + roundTicks s ≤ s.devtime →
    Completes (.wdigLate t) s fun u => rd u (intCnt IntCnt.wdigLate) = rd s (intCnt IntCnt.wdigLate) + 1 ∧
      t.val ∈ u.integ.late ∧ u.tiles = s.tiles ∧ u.hbm = s.hbm ∧
      RegsBut (fun o => o = intCnt IntCnt.wdigLate ∨ ReportReg o) s u)

/-- A temperature reading is stored, and a higher refresh rate that it asks for applies at once. The patrol of a block
in which, after what has been upset, one burst is in error that the decoder corrects writes back what the decoder
delivers, counts it and changes no other byte. At 16 exhausted retries a serving slice becomes FAILED with cause
CHANNEL. By the owner, MARK makes an IN_SERVICE slice MARKED with cause OWNER, UNMARK returns a MARKED slice that fits
to service, RESTORE notes the request in the retirement record; a command that does not fit changes nothing but what
its log entry changes. The end of the memory test in SPRING leaves every byte of HBM zero and no burst in error, and
retires each MARKED or FAILED slice. It says of these constructors that they complete: stackTempRead, hbmScrub,
hbmChannelFail, mark, unmark, restore, hbmMemoryTestDone (R263, R264, R265, R268, R270, R271, R272, R274, R275, R277).
-/
def Obligations.HbmSubsystem : Prop :=
  (∀ (k : StackId) (c : Int) (ondie repeats : Nat) (s : State), On s → -128 ≤ c → c ≤ 127 →
    Completes (.stackTempRead k c ondie repeats) s fun u => signed 8 (get u (hbmStackStat k) HbmStackStat.temp) = c ∧
      (get s (hbmStackStat k) HbmStackStat.refresh < refreshFor c →
        get u (hbmStackStat k) HbmStackStat.refresh = refreshFor c) ∧ u.hbm = s.hbm ∧ u.tiles = s.tiles ∧ u.req = s.req) ∧
  (∀ (n : SliceId) (block b i v : Nat) (e : BurstErr) (upset : List CellError) (s s' : State), On s →
    devState s ≠ .spring → get s hbmCtrl HbmCtrl.scrubHours ≠ 0 → 256 * block < installed s →
    (home s (256 * block)).1 = n.val → sliceState s n ≠ slFailed → s' = upset.foldl upsetBurst s →
    errsIn s' (256 * block) 256 = [(b, e)] → homeFailed s (b * 32) = false → e.hard = false →
    outcomeOf s b e = .corrected i v →
    Completes (.hbmScrub n block upset) s fun u => burstErr u b = {} ∧
      hbmRead u (32 * b) 32 = deliveredBurst (receivedBurst (hbmRead s (32 * b) 32) e) (.corrected i v) ∧
      HbmBut (32 * b) 32 s u ∧
      get u (hbmStackStat (n / 32)) HbmStackStat.ce =
        min (2 ^ HbmStackStat.ce.w - 1) (get s (hbmStackStat (n / 32)) HbmStackStat.ce + 1) ∧
      u.tiles = s.tiles ∧ u.req = s.req) ∧
  (∀ (n : SliceId) (k : Nat) (s : State), On s → 16 ≤ k → (sliceState s n = slInService ∨ sliceState s n = slMarked) →
    Completes (.hbmChannelFail n k) s fun u => sliceState u n = slFailed ∧ get u (hbmSlice n) HbmSlice.cause = rcChannel ∧
      (∀ n', n' < 768 → n' ≠ n.val → sliceState u n' = sliceState s n') ∧ u.hbm = s.hbm ∧ u.req = s.req) ∧
  (∀ (m : Master) (n : Nat) (s : State), On s → owner (settle s) = some m → n < 768 →
    (sliceState (settle s) n = slInService → Completes (.mark m n) s fun u => sliceState u n = slMarked ∧
      get u (hbmSlice n) HbmSlice.cause = rcOwner ∧ (∀ n', n' < 768 → n' ≠ n → sliceState u n' = sliceState (settle s) n') ∧
      u.hbm = s.hbm ∧ u.req = s.req) ∧
    (sliceState (settle s) n ≠ slInService → Completes (.mark m n) s fun u => Reports (settle s) u) ∧
    (unmarkFits (settle s) n = true → Completes (.unmark m n) s fun u => sliceState u n = slInService ∧
      (∀ n', n' < 768 → n' ≠ n → sliceState u n' = sliceState (settle s) n') ∧ u.hbm = s.hbm ∧ u.req = s.req) ∧
    (unmarkFits (settle s) n = false → Completes (.unmark m n) s fun u => Reports (settle s) u) ∧
    (sliceState (settle s) n = slRetired → recordByte (settle s) n % 4 ≠ 3 →
      Completes (.restore m n) s fun u => recordByte u n % 4 = 3 ∧ sliceState u n = slRetired ∧
        (∀ n', n' ≠ n → recordByte u n' = recordByte (settle s) n') ∧ u.hbm = s.hbm ∧ u.req = s.req)) ∧
  (∀ (failed : List SliceId) (rows ms : Nat) (s : State), On s → devState s = .spring → 10 ∈ s.boot.steps →
    11 ∉ s.boot.steps →
    Completes (.hbmMemoryTestDone failed rows ms) s fun u => (∀ a, hbmByte u a = 0) ∧ u.hbmState.errs = [] ∧
      11 ∈ u.boot.steps ∧ (∀ n, n < 768 → (sliceState s n = slMarked ∨ sliceState s n = slFailed) →
        sliceState u n = slRetired) ∧ u.tiles = s.tiles ∧ u.req = s.req)

/-- With an NVM device in service: a log page takes the oldest held entries, at most seven, in order, and they are no
longer held; a lifetime record holds the live counts under the next number, which LIF_STAT shows, and PERSIST by the
owner writes one at once. With no device in service nothing is written. A second of DEVTIME raises the powered time by
one unless it is at its highest value, and changes only the lifetime counts and their registers. It says of these
constructors that they complete: logPageWrite, lifetimeWrite, lifetimePersist, stressTick (R464, R521, R525, R526,
R528, R529). -/
def Obligations.RecordsInNvm : Prop :=
  (∀ s : State, On s → s.log.held ≠ [] → nvmOk s = true →
    Completes .logPageWrite s fun u => u.log.held = s.log.held.drop 7 ∧
      (∃ p, u.log.pages.getLast? = some p ∧ p.entries = s.log.held.take 7 ∧ p.seq = s.log.pageSeq ∧ p.time = s.devtime) ∧
      get u ledLogStat LedLogStat.unwritten = (s.log.held.drop 7).length % 2 ^ LedLogStat.unwritten.w ∧
      RegsBut (· = ledLogStat) s u ∧ u = { s with regs := u.regs, log := u.log, nvm := u.nvm, life := u.life }) ∧
  (∀ s : State, On s → nvmOk s = true →
    Completes .lifetimeWrite s fun u => u.life.seq = s.life.seq + 1 ∧ u.life.record = u.life.live ∧
      get u lifStat LifStat.seq = (s.life.seq + 1) % 2 ^ LifStat.seq.w ∧ RegsBut (· = lifStat) s u ∧
      u = { s with regs := u.regs, nvm := u.nvm, life := u.life }) ∧
  (∀ s : State, On s → nvmOk s = false → (Completes .logPageWrite s fun u => u = s) ∧ Completes .lifetimeWrite s fun u => u = s) ∧
  (∀ (m : Master) (v : Nat) (s : State), On s → owner (settle s) = some m →
    (bit1 v 0 = true → nvmOk (settle s) = true → Completes (.lifetimePersist m v) s fun u =>
      u.life.seq = s.life.seq + 1 ∧ u.life.record = u.life.live ∧
      u = { settle s with regs := u.regs, nvm := u.nvm, life := u.life }) ∧
    (bit1 v 0 = false → Completes (.lifetimePersist m v) s fun u => u = settle s)) ∧
  (∀ s : State, On s → Completes .stressTick s fun u =>
    lifeGet u 48 8 = min (2 ^ 64 - 1) (lifeGet s 48 8 + 1) ∧
    RegsBut (fun o => o = lifStat ∨ ∃ i, i < 352 ∧ o = lifPage i) s u ∧ u = { s with regs := u.regs, life := u.life })

/-- Training done takes TRAIN to ALIGN; the first bits of an alignment pair on all four lanes report lane order and
polarity, raise EPOCH and take ALIGN to INIT, and others change nothing. In INIT an INIT frame goes out when 1 µs has
passed since the last, and one received from another device with version 1 gives the partner's grants; once a frame
with SEEN has gone out and one has come in, the port is UP, or FENCED under a local fence. TRAIN for 500 ms, ALIGN for
1 ms, and a partner with the device's own FDN each end in DOWN with their cause on a port that need not stay DISABLED;
100 µs of INIT end in DOWN or, with alignment held, in a relink. After RETRY_MS a powered port in DOWN trains again.
HBM, tiles and requests are unchanged. It says of these constructors that they complete: linkTrainDone, linkAlignDone,
linkTrainTimeout, linkAlignFail, linkInitTimeout, linkRetry, initFrameSend, initFrameReceive (R285, R286, R287, R288,
R297, R305). -/
def Obligations.LinksComeUp : Prop :=
  (∀ (n : LinkId) (s : State), On s → linkSt s n = lsTrain →
    Completes (.linkTrainDone n) s fun u => linkSt u n = lsAlign ∧ RegsBut (· = lnkStat n) s u ∧
      (∀ m, m ≠ n.val → link u m = link s m) ∧ u = { s with regs := u.regs, links := u.links }) ∧
  (∀ (n : LinkId) (words : List Nat) (s : State), On s → linkSt s n = lsAlign → alignFound words = none →
    Completes (.linkAlignDone n words) s fun u => u = s) ∧
  (∀ (n : LinkId) (words : List Nat) (rev : Bool) (pol : Nat) (s : State), On s → linkSt s n = lsAlign →
    alignFound words = some (rev, pol) → Completes (.linkAlignDone n words) s fun u => linkSt u n = lsInit ∧
      get u (lnkStat n) LnkStat.epoch = (get s (lnkStat n) LnkStat.epoch + 1) % 256 ∧
      get u (lnkStat n) LnkStat.laneRev = b2n rev ∧ get u (lnkStat n) LnkStat.polarity = pol ∧
      (link u n).aligned = true ∧ RegsBut (· = lnkStat n) s u ∧ (∀ m, m ≠ n.val → link u m = link s m) ∧
      u = { s with regs := u.regs, links := u.links }) ∧
  (∀ (n : LinkId) (s : State), On s → mustDisable s n = false →
    (linkSt s n = lsTrain → (link s n).since + 500 * msTicks ≤ s.devtime →
      Completes (.linkTrainTimeout n) s fun u => linkSt u n = lsDown ∧ get u (lnkStat n) LnkStat.downCause = 7 ∧
        u.tiles = s.tiles ∧ u.hbm = s.hbm ∧ u.req = s.req) ∧
    (linkSt s n = lsAlign → (link s n).since + msTicks ≤ s.devtime →
      Completes (.linkAlignFail n) s fun u => linkSt u n = lsDown ∧ get u (lnkStat n) LnkStat.downCause = 9 ∧
        u.tiles = s.tiles ∧ u.hbm = s.hbm ∧ u.req = s.req) ∧
    (linkSt s n = lsInit → (link s n).since + 100 * usTicks ≤ s.devtime →
      Completes (.linkInitTimeout n) s fun u => linkSt u n = (if (link s n).aligned then lsInit else lsDown) ∧
        get u (lnkStat n) LnkStat.downCause = 4 ∧ u.tiles = s.tiles ∧ u.hbm = s.hbm ∧ u.req = s.req) ∧
    (linkSt s n = lsDown → (link s n).since + max 1 (get s (lnkCtrl n) LnkCtrl.retryMs) * msTicks ≤ s.devtime →
      linkPowered s = true →
      Completes (.linkRetry n) s fun u => linkSt u n = lsTrain ∧ RegsBut (· = lnkStat n) s u ∧
        (∀ m, m ≠ n.val → link u m = link s m) ∧ u = { s with regs := u.regs, links := u.links })) ∧
  (∀ (n : LinkId) (s : State), On s → linkSt s n = lsInit → (∀ t, (link s n).initAt = some t → t + usTicks ≤ s.devtime) →
    Completes (.initFrameSend n) s fun u => (∃ f, (link u n).out = [f] ∧ f.ftype = .init ∧
        f.epoch = get s (lnkStat n) LnkStat.epoch ∧ bit1 (fromBytes (f.body.take 12)) 23 = (link s n).seen) ∧
      (link u n).initAt = some s.devtime ∧
      linkSt u n = (if ((link s n).sentSeen || (link s n).seen) && (link s n).gotSeen then
        (if (link s n).fence then lsFenced else lsUp) else lsInit) ∧
      (∀ m, m ≠ n.val → link u m = link s m) ∧ u = { s with regs := u.regs, links := u.links }) ∧
  (∀ (n : LinkId) (f : Frame) (b : Nat) (s : State), On s → f.ftype = .init → linkSt s n = lsInit →
    b = fromBytes (f.body.take 12) →
    (bits b 0 16 ≠ ownFdn s → bits b 24 8 = 1 →
      Completes (.initFrameReceive n f) s fun u => get u (lnkStat n) LnkStat.nbrFdn = bits b 0 16 ∧
        (link u n).seen = true ∧ (link u n).ctlGrant = bits b 32 20 ∧ (link u n).dataGrant = bits b 52 20 ∧
        (link u n).peerEpoch = f.epoch ∧
        linkSt u n = (if (link s n).sentSeen && ((link s n).gotSeen || bit1 b 23) then
          (if (link s n).fence then lsFenced else lsUp) else lsInit) ∧
        RegsBut (· = lnkStat n) s u ∧ (∀ m, m ≠ n.val → link u m = link s m) ∧
        u = { s with regs := u.regs, links := u.links }) ∧
    (bits b 0 16 = ownFdn s → mustDisable s n = false →
      Completes (.initFrameReceive n f) s fun u => linkSt u n = lsDown ∧ get u (lnkStat n) LnkStat.downCause = 5 ∧
        u.tiles = s.tiles ∧ u.hbm = s.hbm ∧ u.req = s.req))

/-- On a port that is UP or FENCED: with a packet that may go, one SEQ frame of 484 body bytes with the next SEQ goes
out and joins the replay buffer, and credits taken and outstanding rise alike; otherwise one NULL frame goes out. With
no uncorrectable codeword, the next SEQ frame in order is acknowledged; any other makes a NAK due unless one has gone
out for the same ACK. Every valid frame sets the tick of the last valid one and FENCE of the partner. A frame that
fails CRC or meets an uncorrectable codeword is counted as CRC, its uncorrectable codewords in FEC_UCW, and a NAK
falls due. A NAK that arrived, or 4 µs without an ACK, sends every unacknowledged frame again with its SEQ and raises
the replay count; a NAK due again after 4 µs is due once more. It says of these constructors that they complete:
linkFrameSend, seqFrameReceive, nullFrameReceive, frameCrcFail, nakResend, linkReplay, linkReplayTimeout (R289, R291,
R292, R293, R295, R297). -/
def Obligations.LinkFramesAndReplay : Prop :=
  (∀ (n : LinkId) (s : State), On s → linkRuns s n = true →
    ((maySeq s n && ((link s n).part.isSome || (nextClass s n).isSome)) = true →
      Completes (.linkFrameSend n) s fun u => (∃ f, (link u n).out = [f] ∧ f.ftype = .seq ∧ f.seq = (link s n).seq ∧
          f.body.length = 484) ∧ (link u n).seq = ((link s n).seq + 1) % 2 ^ 16 ∧
        (∃ x, (link u n).replay = (link s n).replay ++ [x] ∧ x.seq = (link s n).seq ∧ x.at_ = s.devtime) ∧
        rd u (ledCnt LedCnt.lkTaken) - rd u (ledCnt LedCnt.lkOutstanding) =
          rd s (ledCnt LedCnt.lkTaken) - rd s (ledCnt LedCnt.lkOutstanding) ∧
        (∀ m, m ≠ n.val → link u m = link s m) ∧ u = { s with regs := u.regs, links := u.links }) ∧
    ((maySeq s n && ((link s n).part.isSome || (nextClass s n).isSome)) = false →
      Completes (.linkFrameSend n) s fun u => (∃ f, (link u n).out = [f] ∧ f.ftype = .null) ∧
        (link u n).seq = (link s n).seq ∧ (link u n).replay = (link s n).replay ∧ RegsBut (· = lnkErr n) s u ∧
        (∀ m, m ≠ n.val → link u m = link s m) ∧ u = { s with regs := u.regs, links := u.links })) ∧
  (∀ (n : LinkId) (f : Frame) (errs : List Nat) (s : State), On s → frameValid s n f .seq = true →
    (errs.any fun e => decide (fecLimit < e)) = false →
    (f.seq = ((link s n).ack + 1) % 2 ^ 16 → Completes (.seqFrameReceive n f errs) s fun u => (link u n).ack = f.seq ∧
      (link u n).lastValid = s.devtime ∧ (link u n).nakDue = false ∧ u.tiles = s.tiles ∧ u.hbm = s.hbm ∧ u.req = s.req) ∧
    (f.seq ≠ ((link s n).ack + 1) % 2 ^ 16 → (∀ a t, (link s n).nakFor = some (a, t) → a ≠ (link s n).ack) →
      Completes (.seqFrameReceive n f errs) s fun u => (link u n).ack = (link s n).ack ∧ (link u n).nakDue = true ∧
        (link u n).rx = (link s n).rx ∧ u.net = s.net ∧ u.tiles = s.tiles ∧ u.hbm = s.hbm ∧ u.req = s.req)) ∧
  (∀ (n : LinkId) (f : Frame) (errs : List Nat) (s : State), On s → frameValid s n f .null = true →
    (errs.any fun e => decide (fecLimit < e)) = false →
    Completes (.nullFrameReceive n f errs) s fun u => (link u n).ack = (link s n).ack ∧ (link u n).lastValid = s.devtime ∧
      get u (lnkStat n) LnkStat.peerFence = b2n f.fence ∧ u.net = s.net ∧ (∀ m, m ≠ n.val → link u m = link s m) ∧
      RegsBut (fun o => o = lnkStat n ∨ o = lnkErr n ∨ o = ledCnt LedCnt.lkReturned ∨ o = ledCnt LedCnt.lkOutstanding) s u ∧
      u = { s with regs := u.regs, links := u.links }) ∧
  (∀ (n : LinkId) (c : Instr) (f : Frame) (errs : List Nat) (s : State), On s → linkRuns s n = true →
    c = .frameCrcFail n errs ∨ ((errs.any fun e => decide (fecLimit < e)) = true ∧
      (c = .seqFrameReceive n f errs ∨ c = .nullFrameReceive n f errs)) →
    Completes c s fun u =>
      get u (lnkErr n) LnkErr.crc = min (2 ^ LnkErr.crc.w - 1) (get s (lnkErr n) LnkErr.crc + 1) ∧
      get u (lnkErr n) LnkErr.fecUcw = min (2 ^ LnkErr.fecUcw.w - 1) (get s (lnkErr n) LnkErr.fecUcw +
        (errs.filter fun e => decide (fecLimit < e)).length) ∧
      (link u n).ack = (link s n).ack ∧ ((link s n).nakFor = none → (link u n).nakDue = true) ∧
      ((errs.any fun e => decide (fecLimit < e)) = false → RegsBut (· = lnkErr n) s u) ∧
      u = { s with regs := u.regs, links := u.links, life := u.life }) ∧
  (∀ (n : LinkId) (errs : List Nat) (s : State), On s → linkRuns s n = true →
    Completes (.frameCrcFail n errs) s fun u => (link u n).ack = (link s n).ack ∧ u.tiles = s.tiles ∧ u.hbm = s.hbm) ∧
  (∀ (n : LinkId) (s : State), On s → linkRuns s n = true →
    (∀ t, (link s n).nakFor = some ((link s n).ack, t) → t + 4 * usTicks ≤ s.devtime →
      Completes (.nakResend n) s fun u => u = updLink n (fun x => { x with nakDue := true }) s) ∧
    ((link s n).nakSeen = true → (link s n).replay ≠ [] → (link s n).replays ≠ 4 →
      Completes (.linkReplay n) s fun u => (link u n).out.map (·.seq) = (link s n).replay.map (·.seq) ∧
        (link u n).out.map (·.body) = (link s n).replay.map (·.body) ∧ (link u n).replays = (link s n).replays + 1 ∧
        (link u n).nakSeen = false ∧ (∀ m, m ≠ n.val → link u m = link s m) ∧ RegsBut (· = lnkErr n) s u ∧
        u = { s with regs := u.regs, links := u.links, life := u.life }) ∧
    (∀ f r, (link s n).replay = f :: r → f.at_ + 4 * usTicks ≤ s.devtime → (link s n).replays ≠ 4 →
      Completes (.linkReplayTimeout n) s fun u => (link u n).out.map (·.seq) = (link s n).replay.map (·.seq) ∧
        (link u n).out.map (·.body) = (link s n).replay.map (·.body) ∧ (link u n).replays = (link s n).replays + 1 ∧
        (∀ m, m ≠ n.val → link u m = link s m) ∧ RegsBut (· = lnkErr n) s u ∧
        u = { s with regs := u.regs, links := u.links, life := u.life }))

/-- A running link that need not stay DISABLED goes DOWN with its cause after 16 µs of silence or when the
uncorrectable codewords of the last 1 ms exceed a limit above 0; its replay buffer and queues are empty and every
credit outstanding is reclaimed. A replay count of 4 at the next replay, or 100 µs without credit, takes it down with
its cause, and into INIT again when alignment holds. By the owner: clearing ENABLE takes a running port DISABLED, a
new RATE, MEDIUM or TESTPAT takes it DOWN, or DISABLED where it must stay so, and any other write of LNK_CTRL stores
the value, a RETRY_MS of 0 as 1, and changes nothing else; a narrowing entry whose slots are not active takes the
value; one of an active season is refused; CNT_CLEAR of a powered field sets the counters of its links to zero. HBM,
tiles and requests are unchanged. It says of these constructors that they complete: linkSilence, linkUcwLimit,
linkCreditStall, linkReplay, lnkCtrlWrite, lnkNarrowWrite, lnkCntClear (R286, R287, R293, R294, R295, R296, R302,
R305, R307, R542). -/
def Obligations.LinksGoDown : Prop :=
  (∀ (n : LinkId) (s : State), On s → linkRuns s n = true → mustDisable s n = false →
    ((link s n).lastValid + 16 * usTicks ≤ s.devtime →
      Completes (.linkSilence n) s fun u => linkSt u n = lsDown ∧ get u (lnkStat n) LnkStat.downCause = 2 ∧
        (link u n).replay = [] ∧ (link u n).ctl = [] ∧ (link u n).data = [] ∧ (link u n).usable = false ∧
        rd u (ledCnt LedCnt.lkReclaimed) =
          rd s (ledCnt LedCnt.lkReclaimed) + BitVec.ofNat 64 ((link s n).ctlOut + (link s n).dataOut) ∧
        u.tiles = s.tiles ∧ u.hbm = s.hbm ∧ u.req = s.req) ∧
    (get s (lnkCtrl n) LnkCtrl.ucwLimit ≠ 0 → get s (lnkCtrl n) LnkCtrl.ucwLimit <
        ((link s n).ucwAt.filter fun t => decide (s.devtime < t + msTicks)).length →
      Completes (.linkUcwLimit n) s fun u => linkSt u n = lsDown ∧ get u (lnkStat n) LnkStat.downCause = 3 ∧
        (link u n).replay = [] ∧ (link u n).usable = false ∧ u.tiles = s.tiles ∧ u.hbm = s.hbm ∧ u.req = s.req) ∧
    (∀ (d : Bool) (t : Nat), (if d then (link s n).dataStall else (link s n).ctlStall) = some t →
      t + 100 * usTicks ≤ s.devtime →
      Completes (.linkCreditStall n d) s fun u => linkSt u n = (if (link s n).aligned then lsInit else lsDown) ∧
        get u (lnkStat n) LnkStat.downCause = 10 ∧ (link u n).replay = [] ∧ u.tiles = s.tiles ∧ u.hbm = s.hbm ∧
        u.req = s.req) ∧
    ((link s n).nakSeen = true → (link s n).replay ≠ [] → (link s n).replays = 4 →
      Completes (.linkReplay n) s fun u => linkSt u n = (if (link s n).aligned then lsInit else lsDown) ∧
        get u (lnkStat n) LnkStat.downCause = 1 ∧ (link u n).replay = [] ∧ u.tiles = s.tiles ∧ u.hbm = s.hbm ∧
        u.req = s.req)) ∧
  (∀ (m : Master) (n : LinkId) (v : Nat) (s : State), On s → owner (settle s) = some m → linkRuns s n = true →
    getF (rd (settle s) (lnkCtrl n)) LnkCtrl.enable = 1 → v % 2 = 0 →
    Completes (.lnkCtrlWrite m n v) s fun u => linkSt u n = lsDisabled ∧
      rd u (lnkCtrl n) = setF (BitVec.ofNat 64 (v % 2 ^ 21)) LnkCtrl.retryMs
        (max 1 (getF (BitVec.ofNat 64 (v % 2 ^ 21)) LnkCtrl.retryMs)) ∧ get u (lnkStat n) LnkStat.downCause = 6 ∧ u.tiles = s.tiles ∧
      u.hbm = s.hbm ∧ u.req = s.req) ∧
  (∀ (m : Master) (n : LinkId) (v : Nat) (s : State), On s → owner (settle s) = some m → linkRuns s n = true →
    getF (rd (settle s) (lnkCtrl n)) LnkCtrl.enable = 1 → v % 2 = 1 →
    (bits (rd (settle s) (lnkCtrl n)).toNat 1 4 = bits v 1 4 → Completes (.lnkCtrlWrite m n v) s fun u =>
      u = put (lnkCtrl n) (setF (BitVec.ofNat 64 (v % 2 ^ 21)) LnkCtrl.retryMs
        (max 1 (getF (BitVec.ofNat 64 (v % 2 ^ 21)) LnkCtrl.retryMs))) (settle s)) ∧
    (bits (rd (settle s) (lnkCtrl n)).toNat 1 4 ≠ bits v 1 4 → Completes (.lnkCtrlWrite m n v) s fun u =>
      linkSt u n = (if mustDisable u n then lsDisabled else lsDown) ∧ u.tiles = s.tiles ∧ u.hbm = s.hbm ∧ u.req = s.req)) ∧
  (∀ (m : Master) (i : Fin 16) (v : Nat) (s : State), On s → owner (settle s) = some m → v < 2 ^ 64 →
    (slotState (settle s) (get (settle s) (lnkNarrow i) LnkNarrow.slot) ≠ ssActive →
      slotState (settle s) (getF (BitVec.ofNat 64 v) LnkNarrow.slot) ≠ ssActive →
      Completes (.lnkNarrowWrite m i .full v) s fun u =>
        rd u (lnkNarrow i) = BitVec.ofNat 64 (v % 2 ^ 5 + bits v 8 40 * 2 ^ 8) ∧
        RegsBut (· = lnkNarrow i) (settle s) u ∧ u = { settle s with regs := u.regs }) ∧
    (slotState (settle s) (get (settle s) (lnkNarrow i) LnkNarrow.slot) = ssActive →
      Completes (.lnkNarrowWrite m i .full v) s fun u => Reports (settle s) u)) ∧
  (∀ (m : Master) (f : FieldId) (s : State), On s → owner (settle s) = some m → regOff s (lnkCntCtrl f) = false →
    Completes (.lnkCntClear m f) s fun u =>
      (∀ n ∈ fieldLinks f, rd u (lnkErr n) = 0 ∧ rd u (lnkDrop n) = 0 ∧ rd u (lnkNarrowStat n) = 0) ∧
      RegsBut (fun o => ∃ n ∈ fieldLinks f, o = lnkErr n ∨ o = lnkDrop n ∨ o = lnkNarrowStat n) (settle s) u ∧
      u = { settle s with regs := u.regs })

/-- With the voltage and filter time of R356: HIGH is set and logged on its entry and cleared on its release; CAP
likewise, its entry counted among the falls exempt from the slope rules; HALT is set with HALT_PEND cleared and
becomes a cause of WINTER, and its release clears both. A release notes VIN and changes no other register than
PWR_IN_STAT (and PWR_STATE). A voltage that does not meet the threshold is only noted. Work, memories and links are
unchanged. OVERVOLT, BROWNOUT, the break of INPUT_EN and the owner's SHUTDOWN stop every converter: volatile state is
gone, OTP and the map record stay. The release conditions lead to COLD; there VIN qualifies once the inrush has ended,
each supply reaches regulation only after those before it, and the power-on reset releases the supervisor with
LAST_KIND POWER_ON in SPRING, HBM and tiles empty. A shutdown or a die trip is left only when VIN falls below 36.0 V;
the latter then releases THERMTRIP#. A reserved PWR_CMD changes nothing but what its log entry changes. It says of
these constructors that they complete: vinHighEnter, vinHighRelease, capEnter, capRelease, haltEnter, haltRelease,
overvoltEnter, brownout, inputEnBreak, shutdown, pwrCmdReserved, overvoltRelease, brownoutRelease, vinQualify,
inputEnMate, supplyInRegulation, powerOnReset (R355, R356, R357, R358, R375, R376, R377, R385, R390, R440, R441,
R549). -/
def Obligations.InputSupervision : Prop :=
  (∀ (vin us : Nat) (s : State), On s →
    (6000 < vin → 1000 ≤ us → get s pwrInStat PwrInStat.high = 0 → Completes (.vinHighEnter vin us) s fun u =>
      get u pwrInStat PwrInStat.high = 1 ∧ get u pwrInStat PwrInStat.vin = min 65535 vin ∧
      ReportsAnd (· = pwrInStat) s u) ∧
    (vin ≤ 6000 → Completes (.vinHighEnter vin us) s fun u => u = upd pwrInStat PwrInStat.vin vin s) ∧
    (vin ≤ 5950 → 1000 ≤ us → Completes (.vinHighRelease vin us) s fun u => get u pwrInStat PwrInStat.high = 0 ∧
      get u pwrInStat PwrInStat.vin = vin ∧ RegsBut (· = pwrInStat) s u ∧ u = { s with regs := u.regs }) ∧
    (vin < 4100 → 20 ≤ us → get s pwrInStat PwrInStat.cap = 0 → Completes (.capEnter vin us) s fun u =>
      get u pwrInStat PwrInStat.cap = 1 ∧ get u pwrInStat PwrInStat.vin = vin ∧
      get u pwrSlopeStat PwrSlopeStat.exempt = min 65535 (get s pwrSlopeStat PwrSlopeStat.exempt + 1) ∧
      ReportsAnd (fun o => o = pwrInStat ∨ o = pwrSlopeStat) s u) ∧
    (4200 ≤ vin → 10000 ≤ us → Completes (.capRelease vin us) s fun u => get u pwrInStat PwrInStat.cap = 0 ∧
      get u pwrInStat PwrInStat.vin = min 65535 vin ∧ RegsBut (· = pwrInStat) s u ∧ u = { s with regs := u.regs }) ∧
    (vin < 3800 → 2000 ≤ us → get s pwrInStat PwrInStat.halt = 0 → Completes (.haltEnter vin us) s fun u =>
      get u pwrInStat PwrInStat.halt = 1 ∧ get u pwrInStat PwrInStat.haltPend = 0 ∧
      bit1 (get u pwrState PwrState.winterCause) 0 = true ∧ u.power = s.power ∧ WorkSame s u ∧
      RegsBut (fun o => o = pwrInStat ∨ o = pwrState ∨ o = lifStat ∨ ReportReg o) s u) ∧
    (4200 ≤ vin → 100000 ≤ us → Completes (.haltRelease vin us) s fun u => get u pwrInStat PwrInStat.halt = 0 ∧
      bit1 (get u pwrState PwrState.winterCause) 0 = false ∧ RegsBut (fun o => o = pwrInStat ∨ o = pwrState) s u ∧
      u = { s with regs := u.regs, control := u.control })) ∧
  (∀ (vin us : Nat) (s : State), On s →
    (6200 < vin → 10 ≤ us → Completes (.overvoltEnter vin us) s fun u => Stopped .overvolt s u) ∧
    (vin < 3600 → 10 ≤ us → Completes (.brownout vin us) s fun u => Stopped .brownout s u)) ∧
  (∀ s : State, On s → Completes .inputEnBreak s fun u => Stopped .unmated s u ∧ u.power.mated = false) ∧
  (∀ (m : Master) (s : State), On s → owner (settle s) = some m →
    Completes (.shutdown m) s fun u => Stopped .shutdown s u) ∧
  (∀ (m : Master) (op : Nat) (s : State), On s → 2 ≤ op % 4 → owner (settle s) = some m →
    Completes (.pwrCmdReserved m op) s fun u => Reports (settle s) u) ∧
  (∀ (vin us : Nat) (s : State),
    (s.power.off = some .overvolt → vin ≤ 6000 → 100000 ≤ us → Completes (.overvoltRelease vin us) s fun u =>
      u = { s with power := { s.power with off := some .cold } }) ∧
    (s.power.off = some .brownout ∨ s.power.off = some .auxFault → 4000 ≤ vin → 100000 ≤ us →
      Completes (.brownoutRelease vin us) s fun u => u = { s with power := { s.power with off := some .cold } }) ∧
    (s.power.off = some .shutdown → vin < 3600 → Completes (.brownout vin us) s fun u =>
      u = { s with power := { s.power with off := some .cold, qualified := false } }) ∧
    (s.power.off = some .dieTrip → vin < 3600 → Completes (.brownout vin us) s fun u =>
      u = { s with power := { s.power with off := some .cold, qualified := false, thermtrip := false } }) ∧
    (∀ cap, s.power.off = some .cold → s.power.mated = true → 4000 ≤ vin → vin ≤ 6000 → 10000 ≤ us →
      vin ≤ cap + 200 → Completes (.vinQualify vin us cap) s fun u => u = { s with power := { s.power with qualified := true, up := [] } })) ∧
  (∀ (vin : Nat) (s : State), s.power.mated = false → s.power.off = some .unmated →
    Completes (.inputEnMate vin) s fun u => u = { s with power := { s.power with mated := true, off := some .cold } }) ∧
  (∀ (rail : Supply) (s : State), supplyReady s rail = true → rail ∉ s.power.up →
    (rail = .aux ∨ rail = .supervisor ∨ rail = .oscillator → s.power.off = some .cold → s.power.qualified = true →
      Completes (.supplyInRegulation rail) s fun u => u = { s with power := { s.power with up := s.power.up ++ [rail] } }) ∧
    (rail ≠ .aux → rail ≠ .supervisor → rail ≠ .oscillator → On s → s.power.auxStopped = false →
      Completes (.supplyInRegulation rail) s fun u =>
        u = { s with power := { s.power with up := s.power.up ++ [rail] } })) ∧
  (∀ s : State, (s.power.off = none ∨ (s.power.qualified = true ∧ .oscillator ∈ s.power.up)) →
    Completes .powerOnReset s fun u => u.power.off = none ∧ devState u = .spring ∧
      get u supResetStat SupResetStat.lastKind = 4 ∧ get u supResetStat SupResetStat.lastCause = 10 ∧ u.hbm = [] ∧
      u.tiles = [] ∧ u.req = {} ∧ u.links = [] ∧ owner u = none ∧ u.nvm.otp = s.nvm.otp ∧ u.boot.map = storedMap s ∧
      u.pending = s.pending)

/-- A working converter that fails is marked FAILED; with two left the field runs on, with one it is CAPPED, and the
last one of a live field of a device with twelve takes the field out of the live set. A sense fault is noted once.
FIELD_LOSS of a live field of a device with twelve marks it lost with its cause, drops it from the live set, and a
fabric reset with cause FIELD_LOST begins. One failed auxiliary converter is noted and logged; both stop the device.
An auxiliary rail takes a power-on reset, and again in SPRING stops it there. A host rail fault marks that head down.
It says of these constructors that they complete: ibcFail, senseFault, fieldLoss, auxConverterFault, auxRailFault,
hostRailFault (R359, R360, R361, R362, R375, R438, R450). -/
def Obligations.FieldAndAuxiliarySupplies : Prop :=
  (∀ (f : FieldId) (c : Fin 3) (s : State), On s → get s (pwrFieldStat f) (ibcFld c) = 1 →
    (ibcActive s f = 3 → Completes (.ibcFail f c) s fun u => get u (pwrFieldStat f) (ibcFld c) = 2 ∧
      get u (pwrFieldStat f) PwrFieldStat.state = get s (pwrFieldStat f) PwrFieldStat.state ∧
      ReportsAnd (· = pwrFieldStat f) s u) ∧
    (ibcActive s f = 2 → get s (pwrFieldStat f) PwrFieldStat.state = 0 → Completes (.ibcFail f c) s fun u =>
      get u (pwrFieldStat f) (ibcFld c) = 2 ∧ get u (pwrFieldStat f) PwrFieldStat.state = 1 ∧
      ReportsAnd (· = pwrFieldStat f) s u) ∧
    (ibcActive s f = 1 → fieldLive s f = true → degraded s = false → Completes (.ibcFail f c) s fun u =>
      fieldLive u f = false)) ∧
  (∀ (f : FieldId) (mv us : Nat) (s : State), On s → 150 < mv → 100 ≤ us →
    get s (pwrFieldStat f) PwrFieldStat.senseFault = 0 → Completes (.senseFault f mv us) s fun u =>
      get u (pwrFieldStat f) PwrFieldStat.senseFault = 1 ∧ ReportsAnd (· = pwrFieldStat f) s u) ∧
  (∀ (f : FieldId) (cause : Nat) (s : State), On s → 1 ≤ cause → cause ≤ 7 → fieldLive s f = true → degraded s = false →
    s.boot.fabricReset = false → Completes (.fieldLoss f cause) s fun u => fieldLive u f = false ∧
      mapField u.boot.map f = 1 + cause * 4 ∧ get u (pwrFieldStat f) PwrFieldStat.state = 2 ∧ u.boot.fabricReset = true ∧
      get u supResetStat SupResetStat.lastKind = 2 ∧ get u supResetStat SupResetStat.lastCause = 12 ∧
      ∀ f', f' ≠ f.val → fieldLive u f' = fieldLive s f') ∧
  (∀ (b : Bool) (s : State), On s →
    (get s pwrAuxStat (if b then PwrAuxStat.auxA else PwrAuxStat.auxB) ≠ 2 → Completes (.auxConverterFault b) s fun u =>
      get u pwrAuxStat (if b then PwrAuxStat.auxB else PwrAuxStat.auxA) = 2 ∧ ReportsAnd (· = pwrAuxStat) s u) ∧
    (get s pwrAuxStat (if b then PwrAuxStat.auxA else PwrAuxStat.auxB) = 2 → Completes (.auxConverterFault b) s fun u =>
      Stopped .auxFault s u)) ∧
  (∀ (rail : AuxRail) (s : State), On s →
    (rail ∉ s.power.auxFaulted → Completes (.auxRailFault rail) s fun u =>
      get u supResetStat SupResetStat.lastKind = 4 ∧ u.power.auxFaulted = s.power.auxFaulted ++ [rail] ∧ On u ∧
      devState u = .spring) ∧
    (rail ∈ s.power.auxFaulted → devState s = .spring → Completes (.auxRailFault rail) s fun u =>
      get u supBootStat SupBootStat.stage = 8 ∧ get u supBootStat SupBootStat.stopCode = 3 ∧ u.power.auxStopped = true ∧
      u.power.up = [.aux, .supervisor, .oscillator] ∧ (∀ n, n < 96 → linkSt u n = lsDown) ∧
      u.hbm = s.hbm ∧ u.tiles = s.tiles ∧ u.req = s.req ∧ u.own = s.own)) ∧
  (∀ (h : Head) (s : State), On s →
    get s pwrAuxStat (match h with | .ha => PwrAuxStat.haDown | .hb => PwrAuxStat.hbDown) = 0 →
    Completes (.hostRailFault h) s fun u =>
      get u pwrAuxStat (match h with | .ha => PwrAuxStat.haDown | .hb => PwrAuxStat.hbDown) = 1 ∧
      headOff u (hnum h) = true ∧ linkUp u (hnum h) = false ∧ u.hbm = s.hbm ∧ u.tiles = s.tiles ∧ u.links = s.links)

/-- A first failed phase clears its bit of PHASE_OK, sets ILIM_EFF from the phases left and changes no other register
but those of its log entry; a second one, and a short on a cluster that is ON or in SOFT_START, make it dark with its
cause (stated where the tiles of the cluster already wait for their remap, or it holds none). The request that the
rules of R372 let in next enters SOFT_START, counted as admitted, with a ramp of 50 µs, or 100 µs and SLOW when
forced; when the ramp ends the cluster is ON and its logical sites are powered. The ramp-down of a cluster switched
off for heat leaves it OFF with CAUSE THERMAL. It says of these constructors that they complete: phaseFail, shortTrip,
admissionGrant, admissionForced, softStartDone, clusterRampDownDone (R26, R367, R368, R369, R370, R371, R372, R373,
R395). -/
def Obligations.ClusterRegulators : Prop :=
  (∀ (g : ClusterId) (p : Fin 8) (s : State), On s → bit1 (get s (pwrClStat g) PwrClStat.phaseOk) p = true →
    (phasesOk s g = 8 → Completes (.phaseFail g p) s fun u =>
      get u (pwrClStat g) PwrClStat.phaseOk = 255 - 2 ^ p.val ∧
      get u (pwrClStat g) PwrClStat.ilimEff = min (max 16 (min 60 (get s (pwrClCfg g) PwrClCfg.ilim))) 56 ∧
      get u (pwrClStat g) PwrClStat.state = get s (pwrClStat g) PwrClStat.state ∧ ReportsAnd (· = pwrClStat g) s u) ∧
    (phasesOk s g ≤ 7 → get s (pwrClStat g) PwrClStat.state ≠ clDark → s.boot.remap = none →
      (∀ t ∈ clusterTiles s g, remapKnown s t = true) → Completes (.phaseFail g p) s fun u =>
        get u (pwrClStat g) PwrClStat.state = 4 ∧ get u (pwrClStat g) PwrClStat.cause = 3 ∧
        bit1 (get u (pwrClStat g) PwrClStat.phaseOk) p = false ∧ (∀ n ∈ clusterSites g, n ∉ u.power.siteOn) ∧
        u.hbm = s.hbm ∧ u.links = s.links)) ∧
  (∀ (g : ClusterId) (input : Bool) (s : State), On s →
    get s (pwrClStat g) PwrClStat.state = clOn ∨ get s (pwrClStat g) PwrClStat.state = clSoft → s.boot.remap = none →
    (∀ t ∈ clusterTiles s g, remapKnown s t = true) → Completes (.shortTrip g input) s fun u =>
      get u (pwrClStat g) PwrClStat.state = 4 ∧ get u (pwrClStat g) PwrClStat.cause = (if input then 2 else 1) ∧
      (∀ n ∈ clusterSites g, n ∉ u.power.siteOn) ∧ u.hbm = s.hbm ∧ u.links = s.links) ∧
  (∀ (g : ClusterId) (s : State), On s →
    (admitNext s (clusterField g) = some (g.val, false) → Completes (.admissionGrant g) s fun u =>
      get u (pwrClStat g) PwrClStat.state = 2 ∧ get u (pwrClStat g) PwrClStat.slow = 0 ∧
      tget (fun _ => 0) u.power.softEnd g = s.devtime + 50 * usTicks ∧
      get u (pwrAdmitStat (clusterField g)) PwrAdmitStat.admitted =
        min 65535 (get s (pwrAdmitStat (clusterField g)) PwrAdmitStat.admitted + 1) ∧
      (∀ r ∈ u.power.waiting, r.cluster ≠ g.val) ∧
      RegsBut (fun o => o = pwrClStat g ∨ o = pwrAdmitStat (clusterField g)) s u ∧
      u = { s with regs := u.regs, power := u.power }) ∧
    (admitNext s (clusterField g) = some (g.val, true) → Completes (.admissionForced g) s fun u =>
      get u (pwrClStat g) PwrClStat.state = 2 ∧ get u (pwrClStat g) PwrClStat.slow = 1 ∧
      tget (fun _ => 0) u.power.softEnd g = s.devtime + 100 * usTicks ∧
      get u (pwrAdmitStat (clusterField g)) PwrAdmitStat.forced =
        min 65535 (get s (pwrAdmitStat (clusterField g)) PwrAdmitStat.forced + 1) ∧ WorkSame s u ∧
      RegsBut (fun o => o = pwrClStat g ∨ o = pwrAdmitStat (clusterField g) ∨ ReportReg o) s u) ∧
    (Inv s → get s (pwrClStat g) PwrClStat.state = clSoft → tget (fun _ => 0) s.power.softEnd g ≤ s.devtime →
      Completes (.softStartDone g) s fun u => get u (pwrClStat g) PwrClStat.state = 3 ∧
        tget (fun _ => 64) u.control.m g = 1 ∧ (∀ n ∈ clusterSites g, siteStatus s n = stLogical → n ∈ u.power.siteOn) ∧
        RegsBut (fun o => o = pwrClStat g ∨ 0x1000000 ≤ o) s u ∧ WorkSame s u) ∧
    (g.val ∈ s.power.ramping → Completes (.clusterRampDownDone g) s fun u =>
      get u (pwrClStat g) PwrClStat.state = 0 ∧ get u (pwrClStat g) PwrClStat.cause = 4 ∧ g.val ∉ u.power.ramping ∧
      RegsBut (· = pwrClStat g) s u ∧ u = { s with regs := u.regs, power := u.power }))

/-- A control sample of a sound state notes the input voltage and current; every cluster that is ON gets an issue
limit of 1 to 64, at most 32 while CAP holds and at most M_W and the limit of its field (never below 1); M_W rises by
at most one step; while CAP holds a device in SUMMER enters AUTUMN. No tile, memory, link, request or other register
changes. At a frame boundary of a live field the tiles of the cluster take the limit and LIMITED, and start a frame;
nothing else but the filler count changes. AUTUMN with no cause for 10 ms returns to SUMMER. It says of these
constructors that they complete: controlSample, autumnExit, frameStart (R98, R386, R388, R391, R398, R403, R418). -/
def Obligations.ThePowerController : Prop :=
  (∀ (x : PowerSample) (s : State), On s → Inv s → Completes (.controlSample x) s fun u =>
    get u pwrInStat PwrInStat.vin = min 65535 x.vin ∧ get u pwrInStat PwrInStat.iin = min 65535 x.iin ∧
    (∀ g, g < 240 → get s (pwrClStat g) PwrClStat.state = 3 → 1 ≤ tget (fun _ => 64) u.control.m g ∧
      tget (fun _ => 64) u.control.m g ≤ (if get s pwrInStat PwrInStat.cap = 1 then 32 else 64) ∧
      tget (fun _ => 64) u.control.m g ≤ max 1 (get u pwrState PwrState.mW) ∧
      tget (fun _ => 64) u.control.m g ≤ max 1 (tget (fun _ => 64) u.control.lField (clusterField g))) ∧
    get u pwrState PwrState.mW ≤ get s pwrState PwrState.mW + 1 ∧
    (get s pwrInStat PwrInStat.cap = 1 → devState s = .summer →
      devState u = .autumn ∧ bit1 (get u pwrState PwrState.autumnCause) 0 = true) ∧ WorkSame s u ∧ u.power = s.power ∧
    RegsBut (fun o => o = pwrInStat ∨ o = pwrState ∨ o = pwrWinStat ∨ o = pwrSlopeStat ∨ o = clkStat ∨
      (∃ g, g < 240 ∧ o = pwrClStat g) ∨ (∃ f, f < 12 ∧ o = pwrFieldStat f) ∨ ReportReg o) s u) ∧
  (∀ (t : Nat) (s : State), On s → s.control.autumnClear = some t → devState s = .autumn → t + 10 * msTicks ≤ s.devtime →
    get s pwrState PwrState.autumnCause = 0 → Completes .autumnExit s fun u => devState u = .summer ∧ WorkSame s u ∧
      RegsBut (fun o => o = pwrState ∨ ReportReg o) s u) ∧
  (∀ (g : ClusterId) (s : State), On s → fieldTime s (clusterField g) % (8 * get s clkStat ClkStat.div) = 0 →
    fabricOff s (clusterField g) = false → tget (fun _ => 64) s.control.m g ≤ 64 → Completes (.frameStart g) s fun u =>
      (∀ t ∈ clusterTiles s g, get u (tilStat t) TilStat.limit = tget (fun _ => 64) s.control.m g ∧
        get u (tilStat t) TilStat.limited = b2n (decide (tget (fun _ => 64) s.control.m g < 64)) ∧
        tile u t = { tile s t with frame := (tile s t).tclk }) ∧
      (∀ t, t ∉ clusterTiles s g → tile u t = tile s t) ∧
      RegsBut (fun o => o = pwrSlopeStat ∨ ∃ t ∈ clusterTiles s g, o = tilStat t) s u ∧
      u = { s with regs := u.regs, tiles := u.tiles, control := u.control })

/-- A thermal update gives each cluster L_therm by R394, a threshold counting when two samples meet it. A cluster
sample below 115 °C changes only that cluster's PWR_CL_THERM; at 115 °C twice a cluster that is not off is switched
off for heat: COOLING, OFFS counted, its sites off, its rail ramping down (stated where its tiles already wait for
their remap or it holds none). A fabric sensor sets HOT at 110 °C twice and clears it below. After 1 s at or below 85
°C the cluster's COOLING sites return to STANDBY. At 125 °C in two samples in a row every converter stops with
THERMTRIP# and the latch. A coolant sample notes both temperatures, derates LS by 500 W per °C of inlet above 45 °C
while that derating is in force, and makes or clears a cause of WINTER. It says of these constructors that they
complete: thermalUpdate, tempSample, coolingReturn, dieTrip, coolantSample (R392, R393, R394, R395, R396, R397, R399,
R449, R553). -/
def Obligations.HeatAndCoolant : Prop :=
  (∀ s : State, On s → Completes .thermalUpdate s fun u => u = { s with regs := u.regs } ∧
    RegsBut (fun o => ∃ g, g < 240 ∧ o = pwrClTherm g) s u ∧
    ∀ g, g < 240 → get u (pwrClTherm g) PwrClTherm.throttle =
        b2n (decide (get u (pwrClTherm g) PwrClTherm.lTherm < 64)) ∧
      ∀ l t t' : Int, (get s (pwrClTherm g) PwrClTherm.lTherm : Nat) = l → tempOf s g = some t →
        tget (fun _ => none) s.control.prevTemp g = some t' →
        (950 < t → 950 < t' → get s (pwrFldTherm (clusterField g)) PwrFldTherm.hot = 0 →
          (get u (pwrClTherm g) PwrClTherm.lTherm : Nat) = max 1 (l - 2 * ((t - 950 + 9) / 10))) ∧
        (t < 930 → get s (pwrFldTherm (clusterField g)) PwrFldTherm.hot = 0 →
          (get u (pwrClTherm g) PwrClTherm.lTherm : Nat) = min 64 (l + 1)) ∧
        (930 ≤ t → t ≤ 950 → get s (pwrFldTherm (clusterField g)) PwrFldTherm.hot = 1 →
          (get u (pwrClTherm g) PwrClTherm.lTherm : Nat) = max 1 (l / 2))) ∧
  (∀ (g : ClusterId) (t : Int) (s : State), On s →
    (t < 1150 → Completes (.tempSample (.cluster g) t) s fun u => tempOf u g = some t ∧
      get u (pwrClTherm g) PwrClTherm.temp = unsigned 8 (t / 10) ∧ RegsBut (· = pwrClTherm g) s u ∧
      u = { s with regs := u.regs, control := u.control, life := u.life }) ∧
    (∀ t0, tempOf s g = some t0 → 1150 ≤ t0 → 1150 ≤ t → 1 ≤ get s (pwrClStat g) PwrClStat.state →
      get s (pwrClStat g) PwrClStat.state ≤ 3 → g.val ∉ s.power.ramping → s.boot.remap = none →
      (∀ x ∈ clusterTiles s g, remapKnown s x = true) → Completes (.tempSample (.cluster g) t) s fun u =>
        get u (pwrClTherm g) PwrClTherm.cooling = 1 ∧
        get u (pwrClTherm g) PwrClTherm.offs = min 3 ((heatTimes s g).length + 1) ∧ g.val ∈ u.power.ramping ∧
        (∀ n ∈ clusterSites g, n ∉ u.power.siteOn) ∧ u.hbm = s.hbm ∧ u.links = s.links)) ∧
  (∀ (f : FieldId) (t : Int) (s : State), On s →
    (t < 1100 → Completes (.tempSample (.fabric f) t) s fun u => get u (pwrFldTherm f) PwrFldTherm.hot = 0 ∧
      get u (pwrFldTherm f) PwrFldTherm.temp = unsigned 8 (t / 10) ∧ RegsBut (· = pwrFldTherm f) s u ∧
      u = { s with regs := u.regs, control := u.control }) ∧
    (∀ t0, tempOf s (240 + f.val) = some t0 → 1100 ≤ t0 → 1100 ≤ t → Completes (.tempSample (.fabric f) t) s fun u =>
      get u (pwrFldTherm f) PwrFldTherm.hot = 1 ∧ RegsBut (· = pwrFldTherm f) s u ∧
      u = { s with regs := u.regs, control := u.control })) ∧
  (∀ (g : ClusterId) (t : Nat) (s : State), On s → tget (fun _ => none) s.control.coolSince g.val = some t →
    get s (pwrClTherm g) PwrClTherm.cooling = 1 → t + secTicks ≤ s.devtime → g.val ∉ s.power.ramping →
    Completes (.coolingReturn g) s fun u => get u (pwrClTherm g) PwrClTherm.cooling = 0 ∧
      (∀ n ∈ clusterSites g, siteStatus u n = if siteStatus s n = stCooling then stStandby else siteStatus s n) ∧
      (∀ n, n ∉ clusterSites g → siteStatus u n = siteStatus s n) ∧ RegsBut (· = pwrClTherm g) s u ∧
      u = { s with regs := u.regs, boot := u.boot }) ∧
  (∀ (sensor : TempSensor) (t0 t : Int) (s : State), On s → 1250 ≤ t0 → 1250 ≤ t → Completes (.dieTrip sensor t0 t) s fun u =>
    Stopped .dieTrip s u ∧ u.power.thermtrip = true ∧ u.power.tripLatch = some (sensorIndex sensor, (t / 10).toNat)) ∧
  (∀ (tin tout : Int) (s : State), On s → Completes (.coolantSample tin tout) s fun u =>
    get u pwrCoolStat PwrCoolStat.tIn = unsigned 16 tin ∧ get u pwrCoolStat PwrCoolStat.tOut = unsigned 16 tout ∧
    get u pwrCoolStat PwrCoolStat.flowValid = b2n (decide (4000 ≤ get s pwrWinStat PwrWinStat.avg1s)) ∧
    (s.control.inletDerate = true → s.control.flowDerate = false → 450 < tin → get s pwrWinStat PwrWinStat.avg1s < 4000 →
      get u pwrCoolStat PwrCoolStat.derateW =
        min (max 2000 (min 12000 (get s pwrLimit PwrLimit.sustW))) (50 * (tin - 450).toNat)) ∧
    (∀ t0, s.control.over50 = some t0 → t0 + 10 * secTicks ≤ s.devtime → 500 < tin →
      bit1 (get u pwrState PwrState.winterCause) 2 = true) ∧
    (∀ t0, s.control.under45 = some t0 → t0 + 60 * secTicks ≤ s.devtime → tin ≤ 450 →
      bit1 (get u pwrState PwrState.winterCause) 2 = false) ∧ WorkSame s u ∧
    RegsBut (fun o => o = pwrCoolStat ∨ o = pwrState ∨ ReportReg o) s u)

/-- The owner's write of WINTER_REQ sets or clears it and that cause of WINTER, and changes no other register but
PWR_STATE. On a cause, with no batch running or 500 µs passed and no rail ramping down, a running device takes a
compute reset with cause WINTER: the batch ends, every cluster is off or dark, and the device is in WINTER; HBM is
unchanged. With no cause for 100 ms the exit first requests every cluster with a logical site that is off; when all of
them are ON or dark every such cluster has issue limit 1, and, where no known-answer run fails, each logical tile that
is powered is verified and the device is in SUMMER, or in AUTUMN while a cause of it holds. It says of these
constructors that they complete: winterRequest, winterEnter, winterExit (R357, R399, R400, R402, R440, R457). -/
def Obligations.WinterAndItsExit : Prop :=
  (∀ (m : Master) (v : Bool) (s : State), On s → owner (settle s) = some m → Completes (.winterRequest m v) s fun u =>
    get u pwrLimit PwrLimit.winterReq = b2n v ∧ bit1 (get u pwrState PwrState.winterCause) 4 = v ∧
    get u pwrLimit PwrLimit.sustW = get s pwrLimit PwrLimit.sustW ∧
    RegsBut (fun o => o = pwrLimit ∨ o = pwrState) (settle s) u ∧
    u = { settle s with regs := u.regs, control := u.control }) ∧
  (∀ (t : Nat) (s : State), On s → Inv s → s.control.winterDue = some t → running s = true → s.power.ramping = [] →
    get s pwrState PwrState.winterCause ≠ 0 → (s.req.batch = none ∨ t + 500 * usTicks ≤ s.devtime) →
    Completes .winterEnter s fun u => devState u = .winter ∧ u.req.batch = none ∧
      get u supResetStat SupResetStat.lastKind = 1 ∧ get u supResetStat SupResetStat.lastCause = 2 ∧
      get u supResetStat SupResetStat.computeResets = min 65535 (get s supResetStat SupResetStat.computeResets + 1) ∧
      (∀ g, g < 240 → get u (pwrClStat g) PwrClStat.state = (if get s (pwrClStat g) PwrClStat.state = 4 then 4 else 0)) ∧
      u.power.siteOn = [] ∧ u.hbm = s.hbm) ∧
  (∀ (t : Nat) (failed : List Nat) (s : State), On s → s.control.winterClear = some t → devState s = .winter → t + 100 * msTicks ≤ s.devtime →
    get s pwrState PwrState.winterCause = 0 →
    (s.control.exiting = false → Completes (.winterExit failed) s fun u => devState u = .winter ∧ u.control.exiting = true ∧
      (∀ g ∈ logicalClusters s, get u (pwrClStat g) PwrClStat.state =
        (if get s (pwrClStat g) PwrClStat.state = 0 then 1 else get s (pwrClStat g) PwrClStat.state)) ∧
      RegsBut (fun o => ∃ g ∈ logicalClusters s, o = pwrClStat g) s u ∧
      u = { s with regs := u.regs, power := u.power, control := u.control }) ∧
    (Inv s → s.control.exiting = true → (∀ g ∈ logicalClusters s,
        get s (pwrClStat g) PwrClStat.state = 3 ∨ get s (pwrClStat g) PwrClStat.state = 4) →
      Completes (.winterExit failed) s fun u => u.control.exiting = false ∧
        (∀ g ∈ logicalClusters s, tget (fun _ => 64) u.control.m g = 1) ∧
        ((∀ t, t < tileCount s → tileOff s t = false → siteOf s t ∉ failed) →
          devState u = (if get s pwrState PwrState.autumnCause = 0 then .summer else .autumn) ∧
          (∀ t, t < tileCount s → tileOff u t = false → get u (tilIntStat t) TilIntStat.sinceKat = 0) ∧ u.hbm = s.hbm)))

/-- A field PLL whose supply is up gains lock and nothing else changes; a locked one that loses it, and a field whose
time error exceeds 64 ticks while the others stay within, begin a fabric reset with their cause (stated where none
runs). The seam PLL, a field PLL out of lock for 10 ms, and the loss of CREF take a device reset with their cause. A
strobe at a whole millisecond at which no synced field is more than 64 ticks out records each live field's error, what
its count and its drift since the last strobe differ from DEVTIME by, counts the slews and notes what is to be slewed,
begins no reset, and leaves memories, tiles and requests alone. The owner's TIM_EPOCH write applies at once with
EPOCH_SET. It says of these constructors that they complete: pllLock, pllLockLoss, pllRelockTimeout, syncStrobe,
crefLoss, epochWrite (R409, R421, R422, R423, R429, R440, R442, R457). -/
def Obligations.PllsAndDeviceTime : Prop :=
  (∀ (f : FieldId) (s : State), On s →
    (.field f ∈ s.power.up → f.val ∉ s.clock.locked → Completes (.pllLock (.field f)) s fun u =>
      f.val ∈ u.clock.locked ∧ (∀ x ∈ s.clock.locked, x ∈ u.clock.locked) ∧ u = { s with clock := u.clock }) ∧
    (f.val ∈ s.clock.locked → s.boot.fabricReset = false → Completes (.pllLockLoss (.field f)) s fun u =>
      f.val ∉ u.clock.locked ∧ u.boot.fabricReset = true ∧ get u supResetStat SupResetStat.lastKind = 2 ∧
      get u supResetStat SupResetStat.lastCause = 3 ∧ u.hbm = s.hbm) ∧
    (∀ t, tget (fun _ => none) s.clock.lostAt f.val = some t → t + 10 * msTicks ≤ s.devtime →
      Completes (.pllRelockTimeout f) s fun u => get u supResetStat SupResetStat.lastKind = 3 ∧
        get u supResetStat SupResetStat.lastCause = 3 ∧ devState u = .spring ∧ u.hbm = []) ∧
    (∀ e : List Int, s.devtime % msTicks = 0 → s.clock.synced.contains f.val = true → fieldLive s f = true →
      64 < ((fieldTime s f.val : Int) + e.getD f.val 0 - s.devtime).natAbs →
      (∀ f', f' ≠ f.val → ((fieldTime s f' : Int) + e.getD f' 0 - s.devtime).natAbs ≤ 64) → s.boot.fabricReset = false →
      Completes (.syncStrobe e) s fun u => u.boot.fabricReset = true ∧ get u supResetStat SupResetStat.lastKind = 2 ∧
        get u supResetStat SupResetStat.lastCause = 4 ∧
        get u (timSyncStat f) TimSyncStat.faults = min 255 (get s (timSyncStat f) TimSyncStat.faults + 1))) ∧
  (∀ s : State, On s →
    Completes (.pllLock .seam) s (fun u => u = s) ∧
    Completes (.pllLockLoss .seam) s (fun u => get u supResetStat SupResetStat.lastKind = 3 ∧
      get u supResetStat SupResetStat.lastCause = 8 ∧ devState u = .spring ∧ u.hbm = []) ∧
    Completes .crefLoss s fun u => get u supResetStat SupResetStat.lastKind = 3 ∧
      get u supResetStat SupResetStat.lastCause = 8 ∧ u.clock.crefLost = true ∧ u.hbm = []) ∧
  (∀ (e : List Int) (err : Nat → Int) (s : State), On s → s.devtime % msTicks = 0 → s.devtime % secTicks ≠ 0 →
    (∀ f, err f = (fieldTime s f : Int) + e.getD f 0 - s.devtime) →
    (∀ f ∈ liveFields s, s.clock.synced.contains f = true ∧ (err f).natAbs ≤ 64) →
    Completes (.syncStrobe e) s fun u => u.boot = s.boot ∧ WorkSame s u ∧
      (∀ f ∈ liveFields s, get u (timSyncStat f) TimSyncStat.error = unsigned 8 (err f) ∧
        get u (timSyncStat f) TimSyncStat.slews =
          min 65535 (get s (timSyncStat f) TimSyncStat.slews + if 1 < (err f).natAbs then 1 else 0) ∧
        tget (fun _ => 0) u.clock.slew f = if 1 < (err f).natAbs then err f else 0) ∧
      RegsBut (fun o => ReportReg o ∨ ∃ f ∈ liveFields s, o = timSyncStat f) s u) ∧
  (∀ (m : Master) (half : Half) (v : Nat) (s : State), On s → owner (settle s) = some m →
    Completes (.epochWrite m half v) s fun u =>
      rd u timEpoch = BitVec.ofNat 64 (mergeHalf half (rd (settle s) timEpoch) v) ∧ get u timStat TimStat.epochSet = 1 ∧
      ReportsAnd (fun o => o = timEpoch ∨ o = timStat) (settle s) u)

/-- A field's reading of a live crossing within its budget reports it and moves the interpolator by at most one step
toward it; the tenth over budget in a row asks for a step down. A margin above WARN_PS and below RELAX_PS is only
reported; WARN_PS met twice raises ADJ by one when 100 µs have passed since the last raise and ADJ and VSET have room;
CRIT_PS met twice raises it by 2 and asks for a step down; a cluster that is not ON or has no powered site reports
255. Allowed to, the device begins a step up. At T_s with the fields in sync, and the change of power within what the
sample has left, the divider in force changes and M_W is rescaled; otherwise T_s moves to a later multiple of 5760.
VSET moves one code toward its target, up after 10 µs and down after 100 µs, but not down while a step down holds it.
No memory, tile or request changes. It says of these constructors that they complete: skewRead, marginReport,
stepUpBegin, dividerSwitch, vsetStep (R412, R414, R415, R416, R417, R419, R420, R425). -/
def Obligations.SkewMarginAndDivider : Prop :=
  (∀ (f : FieldId) (i : Fin 17) (ps : Int) (s : State), On s → crossingLive s i.val = true →
    (crossing i.val).1 = f.val ∨ (crossing i.val).2 = f.val →
    (ps.natAbs ≤ crossingBudget i.val → Completes (.skewRead f [(i, ps)]) s fun u =>
      get u (clkSkewStat i) ClkSkewStat.skew = unsigned 8 ps ∧ get u (clkSkewStat i) ClkSkewStat.above = 0 ∧
      get u (clkSkewStat i) ClkSkewStat.worst = max (get s (clkSkewStat i) ClkSkewStat.worst) ps.natAbs ∧
      tget (fun _ => 0) u.clock.interp f.val = (tget (fun _ => 0) s.clock.interp f.val +
        (if 0 < leadOf f.val i.val ps then 1 else if leadOf f.val i.val ps < 0 then -1 else 0)) % 64 ∧
      RegsBut (· = clkSkewStat i) s u ∧ u = { s with regs := u.regs, clock := u.clock }) ∧
    (crossingBudget i.val < ps.natAbs → tget (fun _ => 0) s.clock.overFor i.val = 9 → s.clock.step = none →
      curDiv s < 16 → Completes (.skewRead f [(i, ps)]) s fun u => get u (clkSkewStat i) ClkSkewStat.above = 1 ∧
        (∃ st, u.clock.step = some st ∧ st.toDiv = nextLarger (curDiv s) ∧ st.down = true) ∧
        get u clkStat ClkStat.stepdowns = min 65535 (get s clkStat ClkStat.stepdowns + 1) ∧ curDiv u = curDiv s ∧
        ReportsAnd (fun o => o = clkSkewStat i ∨ o = clkStat) { s with clock := u.clock } u)) ∧
  (∀ (g : ClusterId) (ps : Nat) (s : State), On s →
    (reports s g = false → Completes (.marginReport g ps) s fun u => get u (clkClMargin g) ClkClMargin.margin = 255 ∧
      get u (clkClMargin g) ClkClMargin.adj = get s (clkClMargin g) ClkClMargin.adj ∧
      RegsBut (· = clkClMargin g) s u ∧ u = { s with regs := u.regs, clock := u.clock }) ∧
    (reports s g = true → get s clkMarginCfg ClkMarginCfg.critPs < ps →
      get s clkMarginCfg ClkMarginCfg.warnPs < ps → ps < get s clkMarginCfg ClkMarginCfg.relaxPs →
      Completes (.marginReport g ps) s fun u => get u (clkClMargin g) ClkClMargin.margin = min 254 ps ∧
        get u (clkClMargin g) ClkClMargin.adj = get s (clkClMargin g) ClkClMargin.adj ∧
        RegsBut (· = clkClMargin g) s u ∧ u = { s with regs := u.regs, clock := u.clock }) ∧
    (reports s g = true → get s clkMarginCfg ClkMarginCfg.critPs < ps →
      ps ≤ get s clkMarginCfg ClkMarginCfg.warnPs → 1 ≤ tget (fun _ => 0) s.clock.lastMet g.val →
      passed s.devtime (tget (fun _ => none) s.clock.lastRaise g.val) (100 * usTicks) = true →
      get s (clkClMargin g) ClkClMargin.adj < 8 → get s (pwrClStat g) PwrClStat.vset ≠ 60 →
      Completes (.marginReport g ps) s fun u =>
        get u (clkClMargin g) ClkClMargin.adj = get s (clkClMargin g) ClkClMargin.adj + 1 ∧
        RegsBut (· = clkClMargin g) s u ∧ u = { s with regs := u.regs, clock := u.clock }) ∧
    (reports s g = true → ps ≤ get s clkMarginCfg ClkMarginCfg.critPs →
      tget (fun _ => 0) s.clock.lastMet g.val = 2 → s.clock.step = none → curDiv s < 16 →
      Completes (.marginReport g ps) s fun u =>
        get u (clkClMargin g) ClkClMargin.adj = min 8 (get s (clkClMargin g) ClkClMargin.adj + 2) ∧
        (∃ st, u.clock.step = some st ∧ st.toDiv = nextLarger (curDiv s) ∧ st.down = true) ∧
        ReportsAnd (fun o => o = clkClMargin g ∨ o = clkStat) { s with clock := u.clock } u)) ∧
  (∀ s : State, On s → s.clock.step = none → max (get s clkCtrl ClkCtrl.targetDiv) s.clock.floorDiv < curDiv s →
    Completes .stepUpBegin s fun u => get u clkStat ClkStat.pending = 1 ∧ curDiv u = curDiv s ∧
      (∃ st, u.clock.step = some st ∧ st.toDiv = max (get s clkCtrl ClkCtrl.targetDiv) s.clock.floorDiv ∧
        st.down = false) ∧ RegsBut (· = clkStat) s u ∧ u = { s with regs := u.regs, clock := u.clock }) ∧
  (∀ (st : ClockStep) (t : Nat) (s : State), On s → s.clock.step = some st → st.ts = some t → t ≤ s.devtime →
    (∀ (n : Nat) (p : Int) (s' : State), fieldsInSync s = true → st.toDiv < 32 → get s clkCtrl ClkCtrl.targetDiv ≤ st.toDiv →
      p = (rescale s st.toDiv (curDiv s) ((onClusters s).filter fun g => !s.power.ramping.contains g) 0
        s.control.lRamp).2 / (curDiv s : Int) + (if st.down then -((min 40000 n : Nat) : Int) else ((min 40000 n : Nat) : Int)) →
      chargeSample p s = some s' →
      Completes (.dividerSwitch n) s fun u => curDiv u = st.toDiv ∧ get u clkStat ClkStat.pending = 0 ∧
        u.clock.step = none ∧
        get u pwrState PwrState.mW = max 1 (min 64 (get s pwrState PwrState.mW * st.toDiv / curDiv s)) ∧ WorkSame s u ∧
        RegsBut (fun o => o = clkStat ∨ o = pwrState ∨ ReportReg o) s u) ∧
    (∀ (n : Nat) (p : Int), fieldsInSync s = true →
      p = (rescale s st.toDiv (curDiv s) ((onClusters s).filter fun g => !s.power.ramping.contains g) 0
        s.control.lRamp).2 / (curDiv s : Int) + (if st.down then -((min 40000 n : Nat) : Int) else ((min 40000 n : Nat) : Int)) →
      chargeSample p s = none →
      Completes (.dividerSwitch n) s fun u => curDiv u = curDiv s ∧ u.clock.step = some { st with ts := some (t + 5760) } ∧
        RegsBut (· = clkStat) s u ∧ u = { s with regs := u.regs, clock := u.clock }) ∧
    (∀ n : Nat, fieldsInSync s = false → Completes (.dividerSwitch n) s fun u => curDiv u = curDiv s ∧
      (∃ t', u.clock.step = some { st with ts := some t' } ∧ t' % 5760 = 0 ∧ s.devtime + 2048 ≤ t') ∧
      RegsBut (· = clkStat) s u ∧ u = { s with regs := u.regs, clock := u.clock })) ∧
  (∀ (g : ClusterId) (s : State), On s →
    (get s (pwrClStat g) PwrClStat.vset < vsetTarget s g →
      passed s.devtime (tget (fun _ => none) s.clock.lastVset g.val) (10 * usTicks) = true → Completes (.vsetStep g) s fun u =>
        get u (pwrClStat g) PwrClStat.vset = get s (pwrClStat g) PwrClStat.vset + 1 ∧
        RegsBut (fun o => o = pwrClStat g ∨ o = clkStat) s u ∧ u = { s with regs := u.regs, clock := u.clock }) ∧
    (vsetTarget s g < get s (pwrClStat g) PwrClStat.vset →
      passed s.devtime (tget (fun _ => none) s.clock.lastVset g.val) (100 * usTicks) = true →
      (s.clock.step.map (·.held)).getD false = true → Completes (.vsetStep g) s fun u => u = s) ∧
    (vsetTarget s g < get s (pwrClStat g) PwrClStat.vset →
      passed s.devtime (tget (fun _ => none) s.clock.lastVset g.val) (100 * usTicks) = true →
      (s.clock.step.map (·.held)).getD false = false →
      Completes (.vsetStep g) s fun u =>
        get u (pwrClStat g) PwrClStat.vset + 1 = get s (pwrClStat g) PwrClStat.vset ∧
        RegsBut (fun o => o = pwrClStat g ∨ o = clkStat) s u ∧ u = { s with regs := u.regs, clock := u.clock }))

/-- A device reset, by its command, the owner or the supervisor's watchdog, records its kind and cause and leaves
SPRING with HBM, tiles, requests, links and ownership empty, the map record in force and OTP kept. A fabric reset, by
the owner, a field controller's watchdog or its command, begins with its cause: the batch ends, every link is fenced,
and compute is reset; HBM is kept. One that runs, whose journal holds no open BEGIN, completes when every live field's
PLL is locked, stated where no site fails its known-answer run or none is made: it is no longer running, and device
time is synchronised. The reserved reset OP changes nothing but what its log entry changes. With none pending, REBUILD
and RETRY_FIELD of a lost field become pending; CANCEL withdraws; another OP while one pends is discarded. It says of
these constructors that they complete: deviceReset, resetCmdDevice, resetCmdFabric, resetCmdReserved,
supWatchdogExpire, fcWatchdogExpire, fabricReset, rebuild, retryField, cancel (R419, R440, R441, R442, R454, R457,
R459). -/
def Obligations.ResetsAndRepairCommands : Prop :=
  (∀ (c : ResetCause) (s : State), On s → Completes (.deviceReset c) s fun u =>
    get u supResetStat SupResetStat.lastKind = 3 ∧ get u supResetStat SupResetStat.lastCause = causeCode c ∧ On u ∧
    devState u = .spring ∧ u.hbm = [] ∧ u.tiles = [] ∧ u.req = {} ∧ u.links = [] ∧ owner u = none ∧ u.svc = {} ∧
    u.nvm.otp = s.nvm.otp ∧ u.boot.map = storedMap s ∧ u.boot.journal = s.boot.journal ∧ u.pending = s.pending) ∧
  (∀ (m : Master) (s : State), On s → owner (settle s) = some m →
    Completes (.resetCmdDevice m) s (fun u => get u supResetStat SupResetStat.lastKind = 3 ∧
      get u supResetStat SupResetStat.lastCause = 1 ∧ devState u = .spring ∧ u.hbm = [] ∧ u.tiles = [] ∧
      u.nvm.otp = s.nvm.otp ∧ u.boot.map = storedMap s) ∧
    (s.boot.fabricReset = false → Completes (.resetCmdFabric m) s fun u => u.boot.fabricReset = true ∧
      get u supResetStat SupResetStat.lastKind = 2 ∧ get u supResetStat SupResetStat.lastCause = 1 ∧
      u.req.batch = none ∧ (∀ n, n < 96 → (link u n).fence = true ∧ (linkSt s n = lsUp → linkSt u n = lsFenced)) ∧
      u.hbm = s.hbm ∧ u.nvm.otp = s.nvm.otp) ∧
    Completes (.resetCmdReserved m) s fun u => Reports (settle s) u) ∧
  (∀ s : State, On s → Completes .supWatchdogExpire s fun u => get u supResetStat SupResetStat.lastKind = 3 ∧
    get u supResetStat SupResetStat.lastCause = 7 ∧ u.boot.unlogged = some (3, 7) ∧ devState u = .spring ∧ u.hbm = [] ∧
    u.boot.map = storedMap s) ∧
  (∀ (f : FieldId) (s : State), On s → fieldLive s f = true → s.boot.fabricReset = false →
    Completes (.fcWatchdogExpire f) s fun u => u.boot.fabricReset = true ∧
      get u supResetStat SupResetStat.lastKind = 2 ∧ get u supResetStat SupResetStat.lastCause = 5 ∧
      u.req.batch = none ∧ (∀ n, n < 96 → (link u n).fence = true) ∧ u.hbm = s.hbm) ∧
  (∀ (c : ResetCause) (failed : List Nat) (s : State), On s →
    (s.boot.fabricReset = false → (∃ f ∈ liveFields s, f ∉ s.clock.locked) → Completes (.fabricReset c failed) s fun u =>
      u.boot.fabricReset = true ∧ get u supResetStat SupResetStat.lastKind = 2 ∧
      get u supResetStat SupResetStat.lastCause = causeCode c ∧
      get u supResetStat SupResetStat.fabricResets = min 65535 (get s supResetStat SupResetStat.fabricResets + 1) ∧
      u.req.batch = none ∧ u.hbm = s.hbm) ∧
    (s.boot.fabricReset = true → (∀ f ∈ liveFields s, f ∈ s.clock.locked) →
      (∀ r, s.boot.journal.getLast? = some r → r.kind ≠ 1) → failed = [] ∨ running s = false → Completes (.fabricReset c failed) s fun u =>
        u.boot.fabricReset = false ∧ u.clock.synced = liveFields u ∧ u.hbm = s.hbm ∧ u.nvm.otp = s.nvm.otp) ∧
    Completes (.fabricReset c failed) s fun u => u.nvm.otp = s.nvm.otp ∧ u.pending = s.pending) ∧
  (∀ (m : Master) (f : Nat) (s : State), On s → owner (settle s) = some m →
    (s.boot.repair = none →
      Completes (.rebuild m) s (fun u => u.boot.repair = some (1, 0) ∧ rd u supRepairCmd = 65 ∧
        RegsBut (· = supRepairCmd) (settle s) u ∧ u = { settle s with regs := u.regs, boot := u.boot }) ∧
      (f < 12 → fieldLive s f = false → Completes (.retryField m f) s fun u => u.boot.repair = some (2, f) ∧
        mapField u.boot.map f % 4 = 2 ∧ rd u supRepairCmd = BitVec.ofNat 64 (2 + f * 4 + 64) ∧
        (∀ f', f' < 12 → fieldLive u f' = fieldLive s f') ∧ WorkSame (settle s) u) ∧
      Completes (.cancel m) s fun u => u = put supRepairCmd 3 (settle s)) ∧
    (s.boot.repair = some (2, f) → f < 12 → Completes (.cancel m) s fun u => u.boot.repair = none ∧
      rd u supRepairCmd = 3 ∧ mapField u.boot.map f % 4 = 1 ∧ WorkSame (settle s) u) ∧
    (s.boot.repair ≠ none → Completes (.rebuild m) s (fun u => Reports (settle s) u) ∧
      Completes (.retryField m f) s fun u => Reports (settle s) u))

/-- The boot ROM verifies the keys, finishes t2, and leaves a firmware slot running or SPRING stopped with code
FIRMWARE. The supervisor's firmware finishes t3, with its four block components loaded or SPRING stopped. A field
controller whose manifest and component verify runs, its key locked, with a fresh nonce of 32 bytes; in SPRING one
that fails loses its field. A quote that verifies is held, another is dropped. Each step event whose conditions hold
finishes its step, or stops SPRING with its code: a third failed alignment with CLOCK_ALIGN, firmware that fails with
FIRMWARE, an absent CREF with CREF; a stack that fails training has its slices RETIRED. With t9 and t11 finished the
device enters SUMMER, or AUTUMN while a cause holds, at stage 7. It says of these constructors that they complete:
bootRomStart, supervisorFirmwareStart, fieldControllerBoot, fieldQuoteReceive, springStep, springDone (R435, R437,
R438, R439, R454, R456, R471, R484, R498, R500, R504). -/
def Obligations.BringUpSteps : Prop :=
  (∀ (flips : List NvmFlip) (s : State), On s → mayStep s 2 [] = true → Completes (.bootRomStart flips) s fun u => 2 ∈ u.boot.steps ∧
    (u.nvm.slot.isSome = true ∨ get u supBootStat SupBootStat.stage = 8 ∧ get u supBootStat SupBootStat.stopCode = 4) ∧
    (∀ k, k < 13 → keyOk k = true → bit1 (rd u supIdStat).toNat k = true) ∧ u.hbm = s.hbm ∧ u.tiles = s.tiles) ∧
  (∀ (i : Nat) (flips : List NvmFlip) (s : State), On s → s.nvm.slot = some i → mayStep s 3 [2] = true →
    Completes (.supervisorFirmwareStart flips) s fun u => 3 ∈ u.boot.steps ∧ u.boot.unlogged = none ∧
      (u.boot.loaded = [4, 5, 6, 7] ∨ get u supBootStat SupBootStat.stage = 8 ∧
        get u supBootStat SupBootStat.stopCode = 4) ∧ u.hbm = s.hbm) ∧
  (∀ (f : FieldId) (i : Nat) (s : State), On s → s.nvm.slot = some i → fieldTried s f = true → springing s = true →
    stepDone s 4 = true → f.val ∉ s.boot.fcRunning → f.val ∉ s.boot.fcFailed →
    (manifestFails s i = 0 → typeOk s i 2 = true → Completes (.fieldControllerBoot f) s fun u =>
      f.val ∈ u.boot.fcRunning ∧ f.val ∈ u.boot.keyLocked ∧ (tget (fun _ => []) u.boot.nonces f.val).length = 32 ∧
      u = { s with boot := u.boot, free := u.free }) ∧
    (typeOk s i 2 = false → Completes (.fieldControllerBoot f) s fun u => f.val ∈ u.boot.fcFailed ∧
      f.val ∉ u.boot.fcRunning ∧ fieldLive u f = false ∧ mapField u.boot.map f = 29)) ∧
  (∀ (f : FieldId) (q : List Byte) (s : State), On s → f.val ∈ s.boot.fcRunning →
    (quoteOk s f q = true → Completes (.fieldQuoteReceive f q) s fun u => tget (fun _ => []) u.boot.quotes f.val = q ∧
      bit1 (get u supIdStat SupIdStat.quote) f = true ∧ RegsBut (· = supIdStat) s u ∧
      u = { s with regs := u.regs, boot := u.boot }) ∧
    (quoteOk s f q = false → Completes (.fieldQuoteReceive f q) s fun u => tget (fun _ => []) u.boot.quotes f.val = [] ∧
      bit1 (get u supIdStat SupIdStat.quote) f = false ∧
      ReportsAnd (· = supIdStat) { s with boot := u.boot } u)) ∧
  (∀ s : State, On s →
    (mayStep s 4 [3] = true → (∀ f : FieldId, fieldTried s f = true →
        .field f ∈ s.power.up ∧ f.val ∈ s.clock.locked) → Completes (.springStep (.fabricUp [])) s fun u =>
      4 ∈ u.boot.steps ∧ get u clkStat ClkStat.div = get s clkCtrl ClkCtrl.targetDiv ∧
      RegsBut (fun o => o = clkStat ∨ o = supBootStat) s u ∧ u = { s with regs := u.regs, boot := u.boot }) ∧
    (∀ (a b c : List Int) (interp : List Int), mayStep s 5 [4] = true → (∀ f ∈ triedFields s, f ∈ s.boot.fcRunning) →
      (alignedOk s a = true → Completes (.springStep (.aligned [a] [] interp)) s fun u => 5 ∈ u.boot.steps ∧
        u.clock.synced = triedFields s ∧
        (∀ f, f < 12 → tget (fun _ => 0) u.clock.interp f = (interp[f]?).getD 0 % 64) ∧ RegsBut (· = supBootStat) s u) ∧
      (alignedOk s a = false → alignedOk s b = false → alignedOk s c = false →
        Completes (.springStep (.aligned [a, b, c] [] interp)) s fun u => get u supBootStat SupBootStat.stage = 8 ∧
          get u supBootStat SupBootStat.stopCode = 2 ∧ WorkSame s u ∧ u.boot = s.boot)) ∧
    (mayStep s 7 [3] = true → 6 ∈ s.boot.loaded → Completes (.springStep .cxlReady) s fun u => 7 ∈ u.boot.steps ∧
      u.nvm.boots = s.nvm.boots + 1 ∧ get u queBootId QueBootId.boots = (s.nvm.boots + 1) % 2 ^ 32) ∧
    (mayStep s 8 [3] = true → 4 ∈ s.boot.loaded → Completes (.springStep .hbmReady) s fun u => 8 ∈ u.boot.steps ∧
      RegsBut (· = supBootStat) s u ∧ u = { s with regs := u.regs, boot := u.boot }) ∧
    (∀ tr ph fl, mayStep s 9 [6] = true → (∀ g ∈ clustersToTest s,
        get s (pwrClStat g) PwrClStat.state = 3 ∨ get s (pwrClStat g) PwrClStat.state = 4) →
      Completes (.springStep (.tested tr ph fl)) s fun u => u.boot.repair = none ∧
        (9 ∈ u.boot.steps ∨ get u supBootStat SupBootStat.stage = 8)) ∧
    (∀ (failed : List StackId) (lost : List SliceId) (repaired : List (SliceId × Nat)), mayStep s 10 [8] = true →
      Completes (.springStep (.hbmTrained failed lost repaired)) s fun u => 10 ∈ u.boot.steps ∧ WorkSame s u ∧
        ∀ k ∈ failed, ∀ i, i < 32 → sliceState u (32 * k.val + i) = slRetired ∧
          get u (hbmSlice (32 * k.val + i)) HbmSlice.cause = rcTraining) ∧
    (springing s = true → stepDone s 3 = false → Completes (.springStep .firmwareStop) s fun u =>
      get u supBootStat SupBootStat.stage = 8 ∧ get u supBootStat SupBootStat.stopCode = 4 ∧
      ReportsAnd (· = supBootStat) s u) ∧
    (springing s = true → s.clock.crefLost = true → Completes (.springStep .crefAbsent) s fun u =>
      get u supBootStat SupBootStat.stage = 8 ∧ get u supBootStat SupBootStat.stopCode = 1 ∧
      u.power.auxStopped = true ∧ (∀ n, n < 96 → linkSt u n = lsDown) ∧ u.hbm = s.hbm ∧ u.tiles = s.tiles) ∧
    (mayStep s 12 [9, 11] = true → Completes .springDone s fun u => 12 ∈ u.boot.steps ∧
      devState u = (if get s pwrState PwrState.autumnCause = 0 then .summer else .autumn) ∧
      get u supBootStat SupBootStat.stage = 7 ∧ u.hbm = s.hbm ∧ u.tiles = s.tiles))

/-- Targets that are powered and pass KAT_RUN let BEGIN be written; with BEGIN in NVM the remap copies under a
quiesce, LAST_ID and STATE are set and the journal holds the record; a copy without a failed digest, the tile traffic
quiesced, lets COMMIT be written; COMMIT of one entry moves its tile to the new site, which becomes LOGICAL, the old
one FAILED and off, no other site and no other tile changes, and the tile is verified; END closes the remap, counts
it, and writes the map record with its ID. A promotion makes the lowest promotable DORMANT site STANDBY, or FAILED
when KAT_RUN fails it, and no other site changes. A failed NVM device is out of service and its slot unavailable. It
says of these constructors that they complete: remapTargetsReady, remapBeginWritten, remapCopyDone,
remapCommitWritten, remapEndWritten, standbyPromote, nvmDeviceFail (R432, R434, R443, R444, R445, R446, R447, R449,
R464). -/
def Obligations.RemapsAndPromotions : Prop :=
  (∀ (r : Remap) (s : State), On s → s.boot.remap = some r →
    (r.step = .selecting → (∀ e ∈ r.entries, get s (pwrClStat (siteCluster e.new)) PwrClStat.state = 3) →
      Completes (.remapTargetsReady []) s fun u => u.boot.remap = some { r with step := .beginning } ∧
        rd u (intCnt IntCnt.katRuns) = rd s (intCnt IntCnt.katRuns) + BitVec.ofNat 64 r.entries.length ∧
        RegsBut (· = intCnt IntCnt.katRuns) s u ∧ u = { s with regs := u.regs, boot := u.boot }) ∧
    (r.step = .beginning → r.id < 2 ^ 32 → nvmOk s = true → Completes .remapBeginWritten s fun u =>
      u.boot.remap = some { r with step := .copying } ∧ u.boot.quiesce = true ∧
      get u supRemapStat SupRemapStat.lastId = r.id ∧ get u supRemapStat SupRemapStat.state = 2 ∧
      (∃ j, u.boot.journal.getLast? = some j ∧ j.kind = 1 ∧ j.id = r.id ∧ j.entries = r.entries) ∧ u.boot.map = s.boot.map ∧
      u.hbm = s.hbm ∧ u.tiles = s.tiles ∧ RegsBut (fun o => o = supRemapStat ∨ ReportReg o) s u) ∧
    (r.step = .copying → trafficQuiet s = true → Completes (.remapCopyDone []) s fun u =>
      u = { s with boot := { s.boot with remap := some { r with step := .committing } } }) ∧
    (∀ e, Inv s → r.step = .committing → trafficQuiet s = true → r.entries = [e] → e.tile < 768 → e.old ≠ e.new → e.cause ≠ 4 →
      Completes .remapCommitWritten s fun u => siteOf u e.tile = e.new ∧ siteStatus u e.new = stLogical ∧
        siteStatus u e.old = stFailed ∧ (∀ n, n ≠ e.old → n ≠ e.new → siteStatus u n = siteStatus s n) ∧
        (∀ t, t ≠ e.tile → siteOf u t = siteOf s t) ∧ e.old ∉ u.power.siteOn ∧ u.boot.quiesce = false ∧
        get u (tilIntStat e.tile) TilIntStat.sinceKat = 0 ∧ get u supRemapStat SupRemapStat.state = 4 ∧ u.hbm = s.hbm) ∧
    (r.step = .ending → s.boot.remapQueue = [] → nvmOk s = true → Completes .remapEndWritten s fun u =>
      u.boot.remap = none ∧ u.boot.nvmMap.remapId = r.id ∧ u.boot.map.logical = s.boot.map.logical ∧
      (∃ j, u.boot.journal.getLast? = some j ∧ j.kind = 3 ∧ j.id = r.id) ∧
      get u supRemapStat SupRemapStat.state = 0 ∧
      get u supRemapStat SupRemapStat.total = min 65535 (get s supRemapStat SupRemapStat.total + 1) ∧ WorkSame s u)) ∧
  (∀ (f : FieldId) (n : Nat) (l : List Nat) (s : State), On s → s.boot.remap = none → fieldLive s f = true →
    (sitesWith s.boot.map f stStandby).length < 8 → promotable s f = n :: l →
    ∀ pass : Bool, Completes (.standbyPromote f pass) s fun u =>
      siteStatus u n = (if pass then stStandby else stFailed) ∧ (∀ n', n' ≠ n → siteStatus u n' = siteStatus s n') ∧
      (∀ t, siteOf u t = siteOf s t) ∧ rd u (intCnt IntCnt.katRuns) = rd s (intCnt IntCnt.katRuns) + 1 ∧
      (pass = false → rd u (intCnt IntCnt.katFails) = rd s (intCnt IntCnt.katFails) + 1) ∧ WorkSame s u ∧
      RegsBut (fun o => o = intCnt IntCnt.katRuns ∨ o = intCnt IntCnt.katFails ∨ ReportReg o) s u) ∧
  (∀ (b : Bool) (s : State), On s → b2n b ∉ s.nvm.failed → Completes (.nvmDeviceFail b) s fun u =>
    b2n b ∈ u.nvm.failed ∧ get u nvmUpdStat (if b then NvmUpdStat.nvmBOk else NvmUpdStat.nvmAOk) = 0 ∧
    fwSlotSt u (b2n b) = fsUnavailable ∧ (∀ x, u.nvm.upload = some x → x.slot ≠ b2n b) ∧ WorkSame s u ∧
    RegsBut (fun o => o = nvmUpdStat ∨ o = nvmSlotStat (b2n b) ∨ ReportReg o) s u)

/-- In a powered device whose live fields number fewer than twelve, the loss of a further live field takes a device
reset, its cause recorded in the reset registers and in the map record. When the step of SPRING that reads the map
finds at most ten fields live or to be retried in the map it loads, SPRING stops with code TWO_FIELDS. It says of
these constructors that they complete: fieldLoss, springStep (R453). -/
def Obligations.SecondFieldLoss : Prop :=
  (∀ (f : FieldId) (cause : Nat) (s : State), On s → 1 ≤ cause → cause ≤ 7 → degraded s = true → fieldLive s f = true →
    Completes (.fieldLoss f cause) s fun u => get u supResetStat SupResetStat.lastKind = 3 ∧
      get u supResetStat SupResetStat.lastCause = 9 ∧ devState u = .spring ∧ u.hbm = [] ∧
      (nvmOk s = true → bit1 u.boot.nvmMap.live f = false ∧ mapField u.boot.nvmMap f = 1 + cause * 4)) ∧
  (∀ s : State, On s → mayStep s 6 [5] = true →
    (triedFields (loadMap (journalRecover s).1)).length ≤ 10 →
    Completes (.springStep .mapRead) s fun u => get u supBootStat SupBootStat.stage = 8 ∧
      get u supBootStat SupBootStat.stopCode = 5)

/-- By the owner: INSTALL of a range of its own head range that reads without error reports in RESULT what the checks
of R470 give; when they pass the record becomes the current one, the one before it the previous, and OPERATOR is set,
otherwise the store is unchanged. ENROLL of a readable blob likewise burns the digest of its key behind those before
it, or leaves OTP unchanged; OTP never loses a digest. A range outside the owner's head range, and a reserved OP,
change nothing but what their log entry changes. SELECT_CURRENT and SELECT_PREVIOUS record the choice for the next
boot, with SELECT_PENDING where it differs from the one in force; memories, tiles and requests are unchanged. It says
of these constructors that they complete: install, enroll, selectCurrent, selectPrevious, cfgCmdReserved (R466, R467,
R468, R470, R471, R496). -/
def Obligations.ConfigurationStore : Prop :=
  (∀ (h : Head) (src : Nat) (s : State), On s → owner (settle s) = some (headMaster h) → src < 2 ^ 34 →
    (inOwnRange (settle s) (headMaster h) (src * 4096) 1536 = true → errsIn s (src * 4096) 1536 = [] →
      rangeFailed s (src * 4096) 1536 = false →
      Completes (.install (headMaster h) src) s fun u =>
        get u nvmCfgStat NvmCfgStat.result = installResult (settle s) (hbmRead s (src * 4096) 1536) ∧
        (installResult (settle s) (hbmRead s (src * 4096) 1536) = 0 →
          u.nvm.cfg = .record (hbmRead s (src * 4096) 1536) ∧ u.nvm.prev = some s.nvm.cfg ∧ u.nvm.select = 0 ∧
          get u nvmCfgStat NvmCfgStat.operator = 1 ∧ u.nvm.otp = s.nvm.otp) ∧
        (installResult (settle s) (hbmRead s (src * 4096) 1536) ≠ 0 → u.nvm = (settle s).nvm) ∧
        WorkSame (settle s) u) ∧
    (inOwnRange (settle s) (headMaster h) (src * 4096) 8192 = true → errsIn s (src * 4096) 8192 = [] →
      rangeFailed s (src * 4096) 8192 = false →
      Completes (.enroll (headMaster h) src) s fun u =>
        get u nvmCfgStat NvmCfgStat.result =
          enrollResult (settle s) (hbmRead s (src * 4096) (blobSize s (src * 4096))) ∧
        (enrollResult (settle s) (hbmRead s (src * 4096) (blobSize s (src * 4096))) = 0 →
          (∃ key, u.nvm.otp = s.nvm.otp ++ [key]) ∧ get u nvmCfgStat NvmCfgStat.enrolled = s.nvm.otp.length + 1) ∧
        (enrollResult (settle s) (hbmRead s (src * 4096) (blobSize s (src * 4096))) ≠ 0 → u.nvm = (settle s).nvm) ∧
        WorkSame (settle s) u) ∧
    (inOwnRange (settle s) (headMaster h) (src * 4096) 8 = false →
      Completes (.install (headMaster h) src) s (fun u => Reports (settle s) u) ∧
      Completes (.enroll (headMaster h) src) s fun u => Reports (settle s) u)) ∧
  (∀ (m : Master) (s : State), On s → owner (settle s) = some m →
    Completes (.selectCurrent m) s (fun u => u.nvm.select = 0 ∧
      get u nvmCfgStat NvmCfgStat.selectPending = b2n (get s nvmCfgStat NvmCfgStat.inForce != 0) ∧ WorkSame (settle s) u ∧
      RegsBut (fun o => o = nvmCfgCmd ∨ o = nvmCfgStat ∨ ReportReg o) (settle s) u) ∧
    Completes (.selectPrevious m) s (fun u => u.nvm.select = 1 ∧
      get u nvmCfgStat NvmCfgStat.selectPending = b2n (get s nvmCfgStat NvmCfgStat.inForce != 1) ∧ WorkSame (settle s) u ∧
      RegsBut (fun o => o = nvmCfgCmd ∨ o = nvmCfgStat ∨ ReportReg o) (settle s) u) ∧
    ∀ op, 5 ≤ op % 8 → Completes (.cfgCmdReserved m op) s fun u => Reports (settle s) u)

/-- By the owner, with the inactive slot in a state that admits it and an NVM device in service: ACTIVATE writes an
ARM record and takes a device reset of cause FIRMWARE; ARM writes it and the slot is ARMED; DISARM a DISARM record and
the slot is STAGED; REJECT on trial falls back. ERASE empties the inactive slot; ABORT ends the upload. An act not
admitted changes only NVM_UPD_CMD, with RESULT STATE; the reserved OP nothing but its log entry. PERMIT and TRIAL_MIN
are taken as written, within 1 to 120; clearing PERMIT ends an upload. The trial timer takes a device reset and
latches; the limit of SPRING, the deadline and a broken condition write FALLBACK with their reason and take one; a
healthy trial held for HOLD is confirmed. It says of these constructors that they complete: updActivate, arm, disarm,
reject, erase, abort, updCmdReserved, permitWrite, trialTimerExpire, trialSpringLimit, trialDeadline,
trialHealthBroken, trialConfirm (R480, R481, R482, R483, R485, R486, R487, R492, R493). -/
def Obligations.FirmwareSlotsAndTrials : Prop :=
  (∀ (m : Master) (s : State), On s → owner (settle s) = some m →
    (fwSlotSt (settle s) (fwInactive s) = fsStaged → nvmOk s = true →
      Completes (.updActivate m) s (fun u => get u supResetStat SupResetStat.lastKind = 3 ∧
        get u supResetStat SupResetStat.lastCause = 11 ∧ (∃ r, u.nvm.bootRec = some r ∧ r.kind = 1 ∧
        r.target = fwInactive s ∧ r.trialMin = trialMin s ∧ r.mdigest = mdigest s (fwInactive s)) ∧ devState u = .spring) ∧
      Completes (.arm m) s fun u => fwSlotSt u (fwInactive s) = fsArmed ∧ (∃ r, u.nvm.bootRec = some r ∧ r.kind = 1 ∧
        r.target = fwInactive s ∧ r.active = fwActive s ∧ r.mdigest = mdigest s (fwInactive s)) ∧
        get u nvmUpdCmd NvmUpdCmd.result = 1 ∧ WorkSame (settle s) u) ∧
    (fwSlotSt (settle s) (fwInactive s) = fsArmed → nvmOk s = true → Completes (.disarm m) s fun u =>
      fwSlotSt u (fwInactive s) = fsStaged ∧ (∃ r, u.nvm.bootRec = some r ∧ r.kind = 2 ∧ r.target = fwInactive s) ∧
      get u nvmUpdCmd NvmUpdCmd.result = 1 ∧ WorkSame (settle s) u) ∧
    (onTrial s = true → Completes (.reject m) s fun u => get u supResetStat SupResetStat.lastKind = 3 ∧
      get u supResetStat SupResetStat.lastCause = 11 ∧ (nvmOk s = true → ∃ r, u.nvm.bootRec = some r ∧ r.kind = 5 ∧
      r.active = fwActive s ∧ r.reason = 0x4A)) ∧
    (fwSlotSt (settle s) (fwInactive s) = fsEmpty ∨ fwSlotSt (settle s) (fwInactive s) = fsStaged ∨
        fwSlotSt (settle s) (fwInactive s) = fsInvalid → Completes (.erase m) s fun u =>
      fwSlotSt u (fwInactive s) = fsEmpty ∧ fwSlot u (fwInactive s) = { shipped := false, cells := [] } ∧
      fwSlot u (fwActive s) = fwSlot s (fwActive s) ∧ get u nvmUpdCmd NvmUpdCmd.result = 1 ∧ WorkSame (settle s) u) ∧
    (∀ x, (settle s).nvm.upload = some x → x.slot < 2 → Completes (.abort m) s fun u => u.nvm.upload = none ∧
      fwSlotSt u x.slot = fsInvalid ∧ get u (nvmSlotStat x.slot) NvmSlotStat.result = 0x24 ∧
      get u nvmUpdStat NvmUpdStat.uploading = 0 ∧ WorkSame (settle s) u) ∧
    (fwSlotSt (settle s) (fwInactive s) ≠ fsStaged → Completes (.arm m) s fun u => RegsBut (· = nvmUpdCmd) (settle s) u ∧
      get u nvmUpdCmd NvmUpdCmd.op = 2 ∧ get u nvmUpdCmd NvmUpdCmd.result = 2 ∧ u = { settle s with regs := u.regs }) ∧
    Completes (.updCmdReserved m) s (fun u => Reports (settle s) u) ∧
    ∀ v, Completes (.permitWrite m v) s fun u => get u nvmUpdCtrl NvmUpdCtrl.permit = v % 2 ∧
      get u nvmUpdCtrl NvmUpdCtrl.trialMin = max 1 (min 120 (v / 2 % 128)) ∧ (v % 2 = 0 → u.nvm.upload = none) ∧
      (v % 2 = 1 → RegsBut (· = nvmUpdCtrl) (settle s) u ∧ u = { settle s with regs := u.regs }) ∧ WorkSame (settle s) u) ∧
  (∀ s : State, On s →
    (∀ t, s.nvm.timer = some t → t ≤ s.devtime → Completes .trialTimerExpire s fun u =>
      get u supResetStat SupResetStat.lastKind = 3 ∧ get u supResetStat SupResetStat.lastCause = 11 ∧
      u.nvm.timerLatch = true ∧ u.boot.unlogged = some (3, 11)) ∧
    (onTrial s = true → nvmOk s = true →
      (s.nvm.firstRun = none → s.boot.released + 20 * 60 * secTicks ≤ s.devtime → Completes .trialSpringLimit s fun u =>
        get u supResetStat SupResetStat.lastKind = 3 ∧ ∃ r, u.nvm.bootRec = some r ∧ r.kind = 5 ∧ r.reason = 0x47) ∧
      (∀ t, s.nvm.firstRun = some t → t + trialSpan s * 60 * secTicks ≤ s.devtime → Completes .trialDeadline s fun u =>
        get u supResetStat SupResetStat.lastKind = 3 ∧ ∃ r, u.nvm.bootRec = some r ∧ r.kind = 5 ∧ r.reason = 0x48) ∧
      Completes .trialHealthBroken s (fun u => get u supResetStat SupResetStat.lastKind = 3 ∧
        get u supResetStat SupResetStat.lastCause = 11 ∧ ∃ r, u.nvm.bootRec = some r ∧ r.kind = 5 ∧ r.reason = 0x49) ∧
      (healthy s = true → heldLong s = true → Completes .trialConfirm s fun u => onTrial u = false ∧
        fwActive u = otherSlot (fwActive s) ∧ fwSlotSt u (otherSlot (fwActive s)) = fsActive ∧ u.nvm.timer = none ∧
        (∃ r, u.nvm.bootRec = some r ∧ r.kind = 4 ∧ r.active = otherSlot (fwActive s)) ∧ WorkSame s u)))

/-- HELLO with 32 nonce bytes and no session open leaves a half-open session with a fresh nonzero SESSION and nonce
and answers OK; during a session BUSY; a fifth within a second is discarded. AUTH_KEY of a half-open session with a
key of the record in force is accepted, another DENIED, which closes it and counts. AUTH that verifies opens the
session under the key of R474, with a MAC; one that fails opens none. A half-open session lapses. NOP is answered and
keeps the session alive; a wrong MAC is discarded and counted; CLOSE and 30 s of silence end it. EVENT_ACK ends the
resending of its event, which otherwise repeats after 1 s. ARP and echo requests to an address of the device are
answered, others discarded. No command here touches HBM or tiles. It says of these constructors that they complete:
hello, authKey, auth, svcHalfOpenLapse, nop, close, eventAck, svcSessionTimeout, svcEventResend, svcBlockLock,
arpNeighbourDiscovery, icmpEcho (R472, R473, R474, R475, R498). -/
def Obligations.ServiceSessions : Prop :=
  (∀ (x : SvcHdr) (nc : List Byte) (s : State), On s →
    (s.svc.key = none → s.svc.deafUntil ≤ s.devtime → (recentHello s).length < 4 → nc.length = 32 →
      Completes (.hello x nc) s fun u => (∃ h, u.svc.half = some h ∧ h.session ≠ 0 ∧ h.nc = nc ∧ h.nd.length = 32 ∧
        h.key = none ∧ u.answer = .svcReply 0x01 0 x.session x.seq (toBytes 4 h.session ++ h.nd) []) ∧
        u = { s with svc := u.svc, free := u.free, answer := u.answer }) ∧
    (∀ key, s.svc.key = some key → s.devtime < s.svc.lastMsg + 30 * secTicks → s.svc.deafUntil ≤ s.devtime →
      (recentHello s).length < 4 → Completes (.hello x nc) s fun u => u.answer = .svcReply 0x01 3 x.session x.seq [] [] ∧
        u.svc.key = some key ∧ u = { s with svc := u.svc, answer := u.answer }) ∧
    (s.svc.key = none → 4 ≤ (recentHello s).length → Completes (.hello x nc) s fun u =>
      u = { s with answer := .discarded })) ∧
  (∀ (x : SvcHdr) (h : HalfOpen) (s : State), On s → s.svc.half = some h → s.devtime < h.since + 5 * secTicks →
    x.session = h.session →
    (∀ k n, svcKeyFor s k = some n → Completes (.authKey x k) s fun u => u.svc.half = some { h with key := some (n, k) } ∧
      u.answer = .svcReply 0x02 0 x.session x.seq [] [] ∧ u = { s with svc := u.svc, answer := u.answer }) ∧
    (∀ k, svcKeyFor s k = none → Completes (.authKey x k) s fun u => u.svc.half = none ∧
      u.answer = .svcReply 0x02 4 x.session x.seq [] [] ∧
      get u nvmSvcStat NvmSvcStat.authFail = min 65535 (get s nvmSvcStat NvmSvcStat.authFail + 1) ∧
      RegsBut (· = nvmSvcStat) s u) ∧
    (∀ n k cipher sig secret, n < 4 → h.key = some (n, k) → authSecret h k cipher sig = some secret →
      Completes (.auth x cipher sig) s fun u => u.svc.key = some (sha512 (h.nc ++ h.nd ++ secret)) ∧
        u.svc.session = h.session ∧ u.svc.half = none ∧ get u nvmSvcStat NvmSvcStat.session = 1 ∧
        get u nvmSvcStat NvmSvcStat.key = n ∧ present u .svc = true ∧
        u.answer = .svcReply 0x03 0 h.session x.seq [] (svcMac (sha512 (h.nc ++ h.nd ++ secret))
          (svcHeader 0x03 h.session x.seq 0 0 true) []) ∧ RegsBut (fun o => o = nvmSvcStat ∨ o = ownStat) s u) ∧
    (∀ n k cipher sig, h.key = some (n, k) → authSecret h k cipher sig = none → Completes (.auth x cipher sig) s fun u =>
      u.svc.key = s.svc.key ∧ u.svc.half = none ∧ u.answer = .svcReply 0x03 4 x.session x.seq [] [] ∧
      RegsBut (· = nvmSvcStat) s u)) ∧
  (∀ (h : HalfOpen) (s : State), On s → s.svc.half = some h → h.since + 5 * secTicks ≤ s.devtime →
    Completes .svcHalfOpenLapse s fun u => u = { s with svc := { s.svc with half := none } }) ∧
  (∀ (key : List Byte) (x : SvcMsg) (s : State), On s →
    (SvcValid 0x05 key x s → x.payload = [] → Completes (.nop x) s fun u => SvcReplied 0x05 0 key x [] u ∧
      u.svc.lastMsg = s.devtime ∧ u.svc.key = some key ∧ u = { s with svc := u.svc, answer := u.answer }) ∧
    (s.svc.key = some key → s.devtime < s.svc.lastMsg + 30 * secTicks →
      x.mac ≠ svcMac key (svcHeader 0x05 x.session x.seq x.payload.length 0 false) x.payload →
      Completes (.nop x) s fun u => u.answer = .discarded ∧ u.svc = s.svc ∧
        get u nvmSvcStat NvmSvcStat.badMac = min 65535 (get s nvmSvcStat NvmSvcStat.badMac + 1) ∧
        RegsBut (· = nvmSvcStat) s u) ∧
    (SvcValid 0x04 key x s → x.payload = [] → Completes (.close x) s fun u => SvcReplied 0x04 0 key x [] u ∧
      u.svc.key = none ∧ get u nvmSvcStat NvmSvcStat.session = 0 ∧ u.nvm.upload = none ∧ WorkSame { s with own := u.own } u) ∧
    (SvcValid 0x61 key x s → x.payload.length = 4 → Completes (.eventAck x) s fun u => SvcReplied 0x61 0 key x [] u ∧
      u.svc.events = (s.svc.events.filter fun e => e.seq != fieldAt x.payload 0 4) ∧
      u = { s with svc := u.svc, answer := u.answer }) ∧
    (s.svc.key = some key → s.svc.lastMsg + 30 * secTicks ≤ s.devtime → Completes .svcSessionTimeout s fun u =>
      u.svc.key = none ∧ get u nvmSvcStat NvmSvcStat.session = 0 ∧ u.hbm = s.hbm ∧ u.tiles = s.tiles)) ∧
  (∀ (q : Nat) (e : SvcEvent) (s : State), On s → (s.svc.events.find? fun x => x.seq == q) = some e →
    e.sent + secTicks ≤ s.devtime → Completes (.svcEventResend q) s fun u => u.answer = .svcEvent e.seq e.kind e.time ∧
      u.svc.events.map (·.seq) = s.svc.events.map (·.seq) ∧ u = { s with svc := u.svc, answer := u.answer }) ∧
  (∀ (b v6 : Bool) (a mac : Nat) (data : List Byte) (s : State), On s →
    Completes (.svcBlockLock b) s (fun u => get u nvmSvcStat NvmSvcStat.linkUp = b2n b ∧ RegsBut (· = nvmSvcStat) s u) ∧
    Completes (.arpNeighbourDiscovery v6 a mac) s (fun u => u =
      answer (if ownAddress s v6 a then .arp Config.macAddress.toNat else .discarded) s) ∧
    Completes (.icmpEcho v6 a data) s fun u => u =
      answer (if ownAddress s v6 a then .echo data else .discarded) s)

/-- A valid message of the session, new in its window: REG_READ of one 32-bit register answers what the service client
reads there; REG_WRITE of 32 bits has the effect of that write by the service client; LOG_READ answers NEXT_SEQ, the
number of entries and up to MAX of them. By the owner: CFG_PART and ENROLL_PART hold a first part that is not the
whole, and CFG_SELECT records the choice; with PERMIT set and the inactive slot free FW_BEGIN opens an upload into it,
erased; FW_DATA of an erased block not yet written stores its 1024 bytes and no other byte of the slot; FW_END stages
an image that passes, and answers VERIFY with the result otherwise, the slot INVALID; FW_ABORT ends the upload. From a
client that is not the owner each is DENIED. HBM, tiles and requests are unchanged but by REG_WRITE and REG_READ. It
says of these constructors that they complete: regRead, regWrite, logRead, cfgPart, fwBegin, fwData, enrollPart,
cfgSelect, fwEnd, fwAbort (R467, R470, R471, R476, R480, R481, R524). -/
def Obligations.ServiceRequests : Prop :=
  (∀ (key : List Byte) (x : SvcMsg) (s : State), On s →
    (SvcValid 0x10 key x s → x.payload.length = 5 → bits (fromBytes x.payload) 27 8 = 1 →
      bit1 (fromBytes x.payload) 26 = false → bits (fromBytes x.payload) 0 26 + 4 ≤ 2 ^ 26 →
      Completes (.regRead x) s fun u => SvcReplied 0x10 0 key x (toBytes 4 (busRead .svc (bits (fromBytes x.payload) 0 26) 32
        { s with svc := { s.svc with lastMsg := s.devtime } }).1) u) ∧
    (SvcValid 0x11 key x s → x.payload.length = 8 → bit1 (fieldAt x.payload 0 4) 26 = false →
      Completes (.regWrite x) s fun u => ∀ w, w = busWrite .svc (bits (fieldAt x.payload 0 4) 0 26) 32
          (fieldAt x.payload 4 8) { s with svc := { s.svc with lastMsg := s.devtime } } →
        u.regs = w.regs ∧ u.hbm = w.hbm ∧ u.tiles = w.tiles ∧ u.req = w.req ∧ u.nvm = w.nvm ∧
        (w.svc.key = some key → SvcReplied 0x11 0 key x [] u)) ∧
    (SvcValid 0x50 key x s → x.payload.length = 7 → 1 ≤ fieldAt x.payload 4 2 → fieldAt x.payload 4 2 ≤ 36 →
      Completes (.logRead x) s fun u => (∃ es : List LogEntry, es.length ≤ fieldAt x.payload 4 2 ∧
        (∀ e ∈ es, e ∈ logAll s ∧ fieldAt x.payload 6 1 ≤ e.sev ∧ fieldAt x.payload 0 4 ≤ e.seq) ∧
        SvcReplied 0x50 0 key x (toBytes 4 (get s ledLogStat LedLogStat.nextSeq) ++ toBytes 4 es.length ++
          es.flatMap entryBytes) u) ∧ u = { s with svc := u.svc, answer := u.answer })) ∧
  (∀ (key : List Byte) (x : SvcMsg) (s : State), On s → owner (settle s) ≠ some .svc →
    (SvcValid 0x20 key x s → Completes (.cfgPart x) s fun u => SvcReplied 0x20 4 key x [] u ∧ WorkSame (settle s) u) ∧
    (SvcValid 0x30 key x s → Completes (.fwBegin x) s fun u => SvcReplied 0x30 4 key x [] u ∧ WorkSame (settle s) u) ∧
    (SvcValid 0x31 key x s → Completes (.fwData x) s fun u => SvcReplied 0x31 4 key x [] u ∧ WorkSame (settle s) u)) ∧
  (∀ (key : List Byte) (x : SvcMsg) (s : State), On s → owner (settle s) = some .svc →
    (SvcValid 0x20 key x s → fieldAt x.payload 0 4 = 0 → 5 ≤ x.payload.length → x.payload.length ≤ 1028 →
      Completes (.cfgPart x) s fun u => SvcReplied 0x20 0 key x [] u ∧ u.svc.cfgPart = x.payload.drop 4 ∧
        u.nvm = s.nvm ∧ WorkSame s u) ∧
    (SvcValid 0x21 key x s → fieldAt x.payload 0 4 = 0 → 5 ≤ x.payload.length → x.payload.length ≤ 1028 →
      (blobComplete (x.payload.drop 4) = false → Completes (.enrollPart x) s fun u => SvcReplied 0x21 0 key x [] u ∧
        u.svc.enrollPart = x.payload.drop 4 ∧ u.nvm = s.nvm ∧ WorkSame s u) ∧
      (blobComplete (x.payload.drop 4) = true → Completes (.enrollPart x) s fun u =>
        get u nvmCfgStat NvmCfgStat.result = enrollResult s (x.payload.drop 4) ∧
        SvcReplied 0x21 (resultStatus (enrollResult s (x.payload.drop 4))) key x
          (toBytes 1 (enrollResult s (x.payload.drop 4))) u ∧ WorkSame s u)) ∧
    (∀ b : Byte, SvcValid 0x22 key x s → x.payload = [b] → b.toNat ≤ 1 → Completes (.cfgSelect x) s fun u =>
      SvcReplied 0x22 0 key x [] u ∧ u.nvm.select = b.toNat ∧ WorkSame s u) ∧
    (SvcValid 0x30 key x s → x.payload.length = 4 → get s nvmUpdCtrl NvmUpdCtrl.permit = 1 → s.nvm.upload = none →
      (fwSlotSt s (fwInactive s) = fsEmpty ∨ fwSlotSt s (fwInactive s) = fsStaged ∨ fwSlotSt s (fwInactive s) = fsInvalid) →
      fieldAt x.payload 0 4 % 1024 = 0 → fieldAt x.payload 0 4 ≤ slotSizeMax → Completes (.fwBegin x) s fun u =>
        SvcReplied 0x30 0 key x [] u ∧ (∃ p, u.nvm.upload = some p ∧ p.slot = fwInactive s ∧
          p.len = fieldAt x.payload 0 4 ∧ p.written = []) ∧ fwSlotSt u (fwInactive s) = fsReceiving ∧
        fwSlot u (fwInactive s) = { shipped := false, cells := [] } ∧ fwSlot u (fwActive s) = fwSlot s (fwActive s) ∧
        get u nvmUpdStat NvmUpdStat.uploading = 1 ∧ get u nvmUpdStat NvmUpdStat.uploadBytes = 0 ∧ WorkSame s u) ∧
    (∀ p off, SvcValid 0x31 key x s → s.nvm.upload = some p → p.slot < 2 → x.payload.length = 1032 →
      off = fieldAt x.payload 0 8 → off % 1024 = 0 → off + 1024 ≤ p.len → off + 1024 ≤ p.erased →
      p.erased ≤ slotSizeMax → off / 1024 ∉ p.written → (fwSlot s p.slot).shipped = false →
      Completes (.fwData x) s fun u => SvcReplied 0x31 0 key x [] u ∧
        (∀ k, k < 1024 → slotByteAt u p.slot (off + k) = x.payload.getD (8 + k) 0) ∧
        (∀ a, a < off ∨ off + 1024 ≤ a → slotByteAt u p.slot a = slotByteAt s p.slot a) ∧
        (∃ p', u.nvm.upload = some p' ∧ p'.written = p.written ++ [off / 1024]) ∧ WorkSame s u) ∧
    (∀ p, SvcValid 0x32 key x s → s.nvm.upload = some p → p.slot < 2 → x.payload = [] → Completes (.fwEnd x) s fun u =>
      SvcReplied 0x32 (if uploadResult s p = 0 then 0 else 7) key x (toBytes 1 (uploadResult s p)) u ∧
      fwSlotSt u p.slot = (if uploadResult s p = 0 then fsStaged else fsInvalid) ∧
      get u (nvmSlotStat p.slot) NvmSlotStat.result = uploadResult s p ∧ u.nvm.upload = none ∧ WorkSame s u) ∧
    (∀ p, SvcValid 0x33 key x s → s.nvm.upload = some p → p.slot < 2 → x.payload = [] → Completes (.fwAbort x) s fun u =>
      SvcReplied 0x33 0 key x [] u ∧ fwSlotSt u p.slot = fsInvalid ∧
      get u (nvmSlotStat p.slot) NvmSlotStat.result = 0x24 ∧ u.nvm.upload = none ∧ WorkSame s u))

/-- SPDM over a transport that is up: a version other than 1.2 is answered with VersionMismatch, counted; GET_VERSION
starts a connection with 1.2; GET_CAPABILITIES, NEGOTIATE_ALGORITHMS (invalid when none is offered), GET_DIGESTS and
GET_CERTIFICATE answer as R505 to R508 say; CHALLENGE, and a signed GET_MEASUREMENTS, are signed and counted, the
latter ending its transcript; without a usable device key they and GET_CERTIFICATE are answered Unspecified; any other
request UnsupportedRequest with its code. I3C: addresses are assigned, set at 0x5A, and reset; GETPID returns the
provisional ID; other codes are not acknowledged; four bytes set the read offset, another length is not acknowledged;
a read takes the register there or the summary, which clears ALERT; an interrupt that waits is sent unless one was
within 10 ms. Nothing else changes. It says of these constructors that they complete: getDigests, getVersion,
getCapabilities, negotiateAlgorithms, spdmUnsupported, getCertificate, challenge, getMeasurements, entdaa, setdasa,
rstdaa, getpid, getbcr, getdcr, getstatus, getmwl, getmrl, i3cCccUnsupported, i3cPrivateWrite, i3cPrivateRead, i3cIbi
(R500, R502, R505, R506, R507, R508, R511, R512, R555, R556, R557). -/
def Obligations.AttestationAndTray : Prop :=
  (∀ (tr : Transport) (x : SpdmReq) (n : List Byte) (i off len : Nat) (sg : Bool) (s : State), On s → SpdmReaches tr s →
    (x.version ≠ 0x12 → Completes (.getDigests tr x) s fun u => u.answer = .spdm 0x7F [0x41, 0] ∧
      get u supIdStat SupIdStat.errors = min 65535 (get s supIdStat SupIdStat.errors + 1) ∧
      RegsBut (· = supIdStat) s u ∧ u = { s with regs := u.regs, answer := u.answer }) ∧
    (x.version = 0x12 →
      Completes (.getVersion tr x) s (fun u => u.answer = .spdm 0x04 [0, 0, 0, 1, 0x00, 0x12] ∧
        (spdmConn tr u).certs = [] ∧ (spdmConn tr u).meas = [] ∧ (spdmConn tr u).snap = none ∧
        (∀ t, transportNum t ≠ transportNum tr → spdmConn t u = spdmConn t s) ∧
        u = { s with spdm := u.spdm, answer := u.answer }) ∧
      Completes (.getCapabilities tr x) s (fun u => u.answer = .spdm 0x61 ([0, 0, 0, 17, 0, 0] ++ toBytes 4 0x16 ++
        toBytes 4 (spdmMax tr) ++ toBytes 4 (spdmMax tr)) ∧ u = { s with spdm := u.spdm, answer := u.answer }) ∧
      Completes (.negotiateAlgorithms tr x) s (fun u =>
        if fieldAt x.bytes 6 1 % 2 = 0 ∧ bit1 (fieldAt x.bytes 8 4) 6 = false ∧ bit1 (fieldAt x.bytes 12 4) 2 = false then
          u.answer = .spdm 0x7F [0x01, 0] ∧ u = { s with regs := u.regs, answer := u.answer }
        else ∃ body, u.answer = .spdm 0x63 body ∧ body.length = 34 ∧ fieldAt body 4 1 = fieldAt x.bytes 6 1 % 2 ∧
          fieldAt body 6 4 = fieldAt x.bytes 6 1 % 2 * 8 ∧ u = { s with spdm := u.spdm, answer := u.answer }) ∧
      Completes (.getDigests tr x) s (fun u => u.answer = .spdm 0x01 ([0, 1] ++ sha512 certChain) ∧
        u = { s with spdm := u.spdm, answer := u.answer }) ∧
      Completes (.spdmUnsupported tr x) s (fun u => u.answer = .spdm 0x7F [0x07, BitVec.ofNat 8 (fieldAt x.bytes 1 1)] ∧
        get u supIdStat SupIdStat.errors = min 65535 (get s supIdStat SupIdStat.errors + 1) ∧
        RegsBut (· = supIdStat) s u) ∧
      (deviceKeyOk = true → x.param1 % 16 = 0 → Completes (.getCertificate tr x off len) s fun u => ∀ part,
        part = (certChain.drop off).take (min len (spdmMax tr - 8)) → u.answer = .spdm 0x02 ([0, 0] ++
          toBytes 2 part.length ++ toBytes 2 (certChain.length - off - part.length) ++ part) ∧
        u = { s with spdm := u.spdm, answer := u.answer }) ∧
      (deviceKeyOk = true → x.param1 = 0 → x.param2 = 0 ∨ x.param2 = 1 ∨ x.param2 = 0xFF →
        Completes (.challenge tr x n) s fun u => (∃ body, u.answer = .spdm 0x03 body) ∧ (spdmConn tr u).certs = [] ∧
          get u supIdStat SupIdStat.signed = min 65535 (get s supIdStat SupIdStat.signed + 1) ∧ u.hbm = s.hbm ∧
          u.tiles = s.tiles ∧ RegsBut (fun o => o = supIdStat ∨ ReportReg o) s u) ∧
      (deviceKeyOk = false → Completes (.challenge tr x n) s (fun u => u.answer = .spdm 0x7F [0x05, 0]) ∧
        Completes (.getCertificate tr x off len) s fun u => u.answer = .spdm 0x7F [0x05, 0]) ∧
      (i = 0 → Completes (.getMeasurements tr x i false n) s fun u => (∃ body, u.answer = .spdm 0x60 body ∧
          fieldAt body 0 1 = ((spdmConn tr u).snap.getD []).length % 256) ∧ RegsBut (fun _ => False) s u ∧
        u = { s with spdm := u.spdm, free := u.free, answer := u.answer }) ∧
      (i = 0 → deviceKeyOk = true → Completes (.getMeasurements tr x i true n) s fun u =>
        (∃ body, u.answer = .spdm 0x60 body) ∧ (spdmConn tr u).meas = [] ∧ (spdmConn tr u).snap = none ∧
        get u supIdStat SupIdStat.signed = min 65535 (get s supIdStat SupIdStat.signed + 1)) ∧
      (measRecord ((spdmConn tr s).snap.getD (snapshot s)) i = none → Completes (.getMeasurements tr x i sg n) s fun u =>
        u.answer = .spdm 0x7F [0x01, 0]))) ∧
  (∀ (a : Nat) (bs : List Byte) (w : Bool) (s : State), On s →
    (s.i3c.dyn = none → Completes (.entdaa a) s (fun u => u = { s with answer := .done, i3c := { s.i3c with dyn := some a } }) ∧
      Completes (.setdasa 0x5A a) s fun u => u = { s with answer := .done, i3c := { s.i3c with dyn := some a } }) ∧
    (s.i3c.dyn ≠ none → Completes (.entdaa a) s fun u => u = { s with answer := .nack }) ∧
    Completes .rstdaa s (fun u => u = { s with answer := .done, i3c := { s.i3c with dyn := none } }) ∧
    Completes .getpid s (fun u => u = { s with answer := .i3c (toBytesBE 6 Config.provisionalId.toNat) }) ∧
    Completes .getbcr s (fun u => (∃ d, u.answer = .i3c d) ∧ u = { s with answer := u.answer }) ∧
    Completes .getdcr s (fun u => (∃ d, u.answer = .i3c d) ∧ u = { s with answer := u.answer }) ∧
    Completes .getstatus s (fun u => (∃ d, u.answer = .i3c d) ∧ u = { s with answer := u.answer }) ∧
    Completes .getmwl s (fun u => (∃ d, u.answer = .i3c d) ∧ u = { s with answer := u.answer }) ∧
    Completes .getmrl s (fun u => (∃ d, u.answer = .i3c d) ∧ u = { s with answer := u.answer }) ∧
    Completes (.i3cCccUnsupported a) s (fun u => u = { s with answer := .nack }) ∧
    (bs.length = 4 → Completes (.i3cPrivateWrite bs) s fun u =>
      u = { s with answer := .done, i3c := { s.i3c with readOff := some (fromBytes bs % 2 ^ 26) } }) ∧
    (bs.length ≠ 4 → Completes (.i3cPrivateWrite bs) s fun u => u = { s with answer := .nack }) ∧
    (s.i3c.readOff = none → Completes (.i3cPrivateRead w) s fun u =>
      u = { s with answer := .i3c (toBytes 8 (i3cSummary s)), i3c := { s.i3c with alert := false } }) ∧
    (∀ off, s.i3c.readOff = some off → Completes (.i3cPrivateRead w) s fun u =>
      u.answer = .i3c (toBytes (if w then 8 else 4) (busRead .svc off (if w then 64 else 32)
        { s with i3c := { s.i3c with readOff := none } }).1) ∧ u.hbm = s.hbm) ∧
    (∀ b, s.i3c.ibi = some b → (∀ t, s.i3c.lastIbi = some t → t + 10 * msTicks ≤ s.devtime) → Completes .i3cIbi s fun u =>
      u = { s with answer := .ibi b, i3c := { s.i3c with ibi := none, lastIbi := some s.devtime } }))
end

