-- ==== Sys2Proof/Laws/Codes.lean ====
section
/-! SUPPORT. Coded weight lanes: a lane's codes take at most 15 bits each (R67), so a lane that claims more bits than its
64 bytes can take is a decode fault whatever the symbol table holds (R71, R72). -/

namespace Sys2Proof.Machine

open Sys2Proof

theorem codesOfLen_len (table : List Nat) (len code : Nat) :
    ∀ c ∈ (codesOfLen table len code).1, c.1 = len := by
  have h : ∀ (l : List Nat) (a : List (Nat × Nat × Nat) × Nat), (∀ c ∈ a.1, c.1 = len) →
      ∀ c ∈ (l.foldl (fun a e => if symLen e = len then (a.1 ++ [(len, a.2, e)], a.2 + 1) else a) a).1, c.1 = len := by
    intro l
    induction l with
    | nil => exact fun _ h => h
    | cons e l ih =>
      intro a h
      refine ih _ ?_
      dsimp only
      split
      · intro c hc
        rcases List.mem_append.mp hc with hc | hc
        · exact h c hc
        · rw [List.mem_singleton.mp hc]
      · exact h
  exact h table ([], code) (by simp)

theorem codesFrom_len (table : List Nat) : ∀ (n len code : Nat), ∀ c ∈ codesFrom table n len code, c.1 < len + n
  | 0, _, _, _, h => by simp [codesFrom] at h
  | n + 1, len, code, c, h => by
    rcases List.mem_append.mp h with h | h
    · have := codesOfLen_len table len code c h; omega
    · have := codesFrom_len table n (len + 1) _ c h; omega

/-- A lane of 64 bytes takes at most 23 bits for each of at most 65 symbols. -/
theorem decodeBits_used (table : List Nat) : ∀ (n : Nat) (bs : List Bool) (left : Nat) (r : List Byte × Nat),
    decodeBits (codeBook table) n bs left = some r → r.2 ≤ 23 * n
  | 0, _, _, _, h => by simp [decodeBits] at h
  | n + 1, bs, left, r, h => by
    unfold decodeBits at h
    split at h
    · cases h; simp
    · split at h
      · cases h
      · rename_i c hc
        have hl := codesFrom_len table 15 1 0 c (List.mem_of_find?_eq_some hc)
        dsimp only at h
        rw [Option.ite_none_left_eq_some] at h
        obtain ⟨q, hq, rfl⟩ := Option.map_eq_some_iff.mp h.2
        have := decodeBits_used table n _ _ q hq
        dsimp only
        split <;> omega

theorem decodeLane_long (table : List Nat) (bs : List Byte) : decodeLane (codeBook table) bs 4095 = none := by
  unfold decodeLane
  rw [if_neg (by decide)]
  split
  · rfl
  · rename_i h
    have := decodeBits_used table 65 _ _ _ h
    rw [if_neg (by dsimp only at this; omega)]
/-- A block whose first lane claims 4095 bits is a decode fault. -/
theorem decodeBlock_long (table : List Nat) (c : Nat) (head bs : List Byte) (hn : laneCount c ≠ 0)
    (h : bits (fromBytes head) 0 12 = 4095) : decodeBlock table c head bs = none := by
  obtain ⟨n, hn⟩ := Nat.exists_eq_succ_of_ne_zero hn
  unfold decodeBlock laneLens
  simp [hn, List.range_succ_eq_map, decodeLanes, h, decodeLane_long]

/-- A pass whose first coded block starts so has no weight set. -/
theorem weightSet_long (s : State) (t p e : Nat) (heads : List (List Byte)) (hc : isCoded p = true)
    (hn : laneCount (pdWfmt p) ≠ 0) (h : bits (fromBytes (heads.headD [])) 0 12 = 4095) :
    weightSet s t p e heads = none := by
  simp only [weightSet, blockAddrs, readBlocks, readBlock, hc, if_true, List.map, decodeBlock_long _ _ _ _ hn h,
    Option.map_none]

end Sys2Proof.Machine
end

