-- ==== Sys2Proof/Laws/Crc.lean ====
section
/-! SUPPORT. Bytes of numbers, and packets whose CRC field holds their CRC (R234, R235). -/

namespace Sys2Proof.Machine

open Sys2Proof

@[simp] theorem length_toBytes : ∀ n v : Nat, (toBytes n v).length = n
  | 0, _ => rfl
  | n + 1, v => by simp [toBytes, length_toBytes n]

theorem toBytes_append : ∀ m n v : Nat, toBytes (m + n) v = toBytes m v ++ toBytes n (v / 256 ^ m)
  | 0, n, v => by simp [toBytes]
  | m + 1, n, v => by
    rw [Nat.add_right_comm, toBytes, toBytes_append m n, toBytes, Nat.div_div_eq_div_mul, Nat.pow_succ, Nat.mul_comm 256]
    rfl

theorem toBytes_mod : ∀ n v : Nat, toBytes n (v % 256 ^ n) = toBytes n v
  | 0, _ => rfl
  | n + 1, v => by
    rw [toBytes, toBytes, Nat.pow_succ, Nat.mod_mul_left_mod, Nat.mul_comm, Nat.mod_mul_right_div_self, toBytes_mod n]

theorem fromBytes_toBytes : ∀ n v : Nat, fromBytes (toBytes n v) = v % 256 ^ n
  | 0, v => by simp [toBytes, fromBytes, Nat.mod_one]
  | n + 1, v => by
    rw [toBytes, fromBytes, fromBytes_toBytes n, Nat.pow_succ, Nat.mul_comm (256 ^ n), Nat.mod_mul]
    simp

theorem crc32_lt (bs : List Byte) : crc32 bs < 2 ^ 32 := BitVec.isLt _

theorem packetHeader_lt (p : Packet) : packetHeader p < 2 ^ 96 := by
  have : b2n p.data ≤ 1 := by cases p.data <;> decide
  unfold packetHeader
  omega

/-- The bytes of a packet's flits: 12 of its header, the four of its CRC field, and the rest. -/
theorem packetFlits_split (p : Packet) :
    ∃ rest, ∀ c, packetFlits p c = toBytes 12 (packetHeader p) ++ (toBytes 4 (c % 2 ^ 32) ++ rest) := by
  have h := packetHeader_lt p
  have e : ∀ c', toBytes 16 (packetHeader p + c' % 2 ^ 32 * 2 ^ 96) =
      toBytes 12 (packetHeader p) ++ toBytes 4 (c' % 2 ^ 32) := fun c' => by
    rw [toBytes_append 12 4, ← toBytes_mod 12 (packetHeader p), ← toBytes_mod 12]
    have e1 : (packetHeader p + c' % 2 ^ 32 * 2 ^ 96) / 256 ^ 12 = c' % 2 ^ 32 := by omega
    have e2 : (packetHeader p + c' % 2 ^ 32 * 2 ^ 96) % 256 ^ 12 = packetHeader p % 256 ^ 12 := by omega
    rw [e1, e2]
  unfold packetFlits
  cases p.data
  · exact ⟨_, fun c' => by simp only [e, List.append_assoc]; rfl⟩
  · exact ⟨_, fun c' => by simp only [e, List.append_assoc]; rfl⟩

/-- A packet no bit of which is inverted on the way, and whose CRC field holds its CRC, passes the checks of R249. -/
theorem packetOk_of_crc (p : Packet) (hu : p.upset = []) (hc : p.crc = packetCrc p) : packetOk p = true := by
  obtain ⟨rest, hr⟩ := packetFlits_split p
  have h0 : packetCrc p < 2 ^ 32 := crc32_lt _
  have hz : toBytes 4 (0 % 2 ^ 32) = List.replicate 4 0 := by decide
  have ha : arrivedFlits p = toBytes 12 (packetHeader p) ++ (toBytes 4 (packetCrc p) ++ rest) := by
    simp only [arrivedFlits, hu, List.isEmpty_nil, if_true, hr, hc]
    rw [Nat.mod_eq_of_lt h0]
  have h12 : (arrivedFlits p).take 12 = toBytes 12 (packetHeader p) := by rw [ha]; exact List.take_left' (by simp)
  have hd : (arrivedFlits p).drop 12 = toBytes 4 (packetCrc p) ++ rest := by rw [ha]; exact List.drop_left' (by simp)
  have h16 : (arrivedFlits p).drop 16 = rest := by
    rw [show 16 = 12 + 4 from rfl, ← List.drop_drop, hd]; exact List.drop_left' (by simp)
  have h4 : ((arrivedFlits p).drop 12).take 4 = toBytes 4 (packetCrc p) := by rw [hd]; exact List.take_left' (by simp)
  have hf : fromBytes (toBytes 4 (packetCrc p)) = packetCrc p := by
    rw [fromBytes_toBytes]; exact Nat.mod_eq_of_lt (by simpa using h0)
  simp only [packetOk, crcFails, parityFails, hu, h12, h16, h4, hf, List.any_nil]
  rw [show toBytes 12 (packetHeader p) ++ (List.replicate 4 0 ++ rest) = packetFlits p 0 by rw [hr, hz]]
  simp [packetCrc]

/-- The CRC of a packet does not rest on its CRC field (R235). -/
theorem packetCrc_crc (p : Packet) (c : Nat) : packetCrc { p with crc := c } = packetCrc p :=
  congrArg crc32 (by simp only [packetFlits, packetHeader])

end Sys2Proof.Machine
end

