-- ==== Sys2Proof/Laws/Tables.lean ====
section
/-! SUPPORT. Laws of the sparse tables: a read after a write, and that every operation keeps the canonical form. -/

namespace Sys2Proof.Machine

open Sys2Proof

variable {α : Type}

theorem tget_tabove (d : Nat → α) (i : Nat) (t : Table α) : tget d (tabove i t) i = d i := by
  induction t with
  | nil => rfl
  | cons e r ih =>
    obtain ⟨k, v⟩ := e
    by_cases h : k ≤ i
    · simp only [tabove, h, if_true]; exact ih
    · have h1 : i < k := by omega
      simp only [tabove, h, if_false, tget, h1, if_true]

theorem tget_tabove_of_lt (d : Nat → α) (i j : Nat) (h : i < j) (t : Table α) :
    tget d (tabove i t) j = tget d t j := by
  induction t with
  | nil => rfl
  | cons e r ih =>
    obtain ⟨k, v⟩ := e
    by_cases hk : k ≤ i
    · have h1 : ¬ j < k := by omega
      have h2 : ¬ j = k := by omega
      simp only [tabove, hk, if_true, tget, h1, h2, if_false]; exact ih
    · simp only [tabove, hk, if_false]

theorem tget_tabove_of_gt (d : Nat → α) (i j : Nat) (h : j < i) (t : Table α) : tget d (tabove i t) j = d j := by
  induction t with
  | nil => rfl
  | cons e r ih =>
    obtain ⟨k, v⟩ := e
    by_cases hk : k ≤ i
    · simp only [tabove, hk, if_true]; exact ih
    · have h1 : j < k := by omega
      simp only [tabove, hk, if_false, tget, h1, if_true]

/-- A read after a write to the same key gives the value written. -/
@[simp] theorem tget_tset_same [DecidableEq α] (d : Nat → α) (i : Nat) (v : α) (t : Table α) : tget d (tset d i v t) i = v := by
  induction t with
  | nil =>
    by_cases h : v = d i
    · simp [tset, h, tget]
    · simp [tset, h, tget]
  | cons e r ih =>
    obtain ⟨k, w⟩ := e
    by_cases h1 : i < k
    · by_cases h : v = d i
      · simp [tset, h1, h, tget]
      · simp [tset, h1, h, tget]
    · by_cases h2 : i = k
      · subst h2
        by_cases h : v = d i
        · simp only [tset, h1, h, if_false, if_true]; exact tget_tabove d i r
        · simp [tset, h, tget]
      · simp only [tset, h1, h2, if_false, tget]; exact ih

/-- A write leaves every other key as it was. -/
theorem tget_tset_of_ne [DecidableEq α] (d : Nat → α) {i j : Nat} (h : j ≠ i) (v : α) (t : Table α) :
    tget d (tset d i v t) j = tget d t j := by
  induction t with
  | nil =>
    by_cases hv : v = d i
    · simp [tset, hv, tget]
    · by_cases hlt : j < i
      · simp [tset, hv, tget, hlt]
      · simp [tset, hv, tget, hlt, h]
  | cons e r ih =>
    obtain ⟨k, w⟩ := e
    by_cases h1 : i < k
    · by_cases hv : v = d i
      · simp only [tset, h1, hv, if_true]
      · by_cases hlt : j < i
        · have : j < k := by omega
          simp [tset, h1, hv, tget, hlt, this]
        · simp only [tset, h1, hv, if_true, if_false, tget, hlt, h]
    · by_cases h2 : i = k
      · subst h2
        by_cases hv : v = d i
        · simp only [tset, h1, hv, if_false, if_true, tget, h]
          by_cases hlt : j < i
          · simp only [hlt, if_true]; exact tget_tabove_of_gt d i j hlt r
          · simp only [hlt, if_false]; exact tget_tabove_of_lt d i j (by omega) r
        · simp only [tset, h1, hv, if_false, if_true, tget, h]
      · simp only [tset, h1, h2, if_false, tget, ih]

/-- Whether every key of a table lies above `n`. -/
def tabv (n : Nat) (t : Table α) : Prop := ∀ e ∈ t, n < e.1

theorem twf_cons [DecidableEq α] (d : Nat → α) (k : Nat) (v : α) (r : Table α) :
    twf d ((k, v) :: r) = true ↔ v ≠ d k ∧ tabv k r ∧ twf d r = true := by
  induction r generalizing k v with
  | nil => simp [twf, tabv]
  | cons e r ih =>
    obtain ⟨k', v'⟩ := e
    constructor
    · intro h
      simp only [twf, Bool.and_eq_true, decide_eq_true_eq, Bool.not_eq_true', decide_eq_false_iff_not] at h
      obtain ⟨⟨h1, h2⟩, h3⟩ := h
      refine ⟨h2, ?_, h3⟩
      have h4 := ((ih k' v').mp h3).2.1
      intro e he
      rcases List.mem_cons.mp he with rfl | he
      · exact h1
      · exact Nat.lt_trans h1 (h4 e he)
    · rintro ⟨h1, h2, h3⟩
      have h4 : k < k' := h2 (k', v') List.mem_cons_self
      simp [twf, h1, h3, h4]

theorem tabv_mono {m n : Nat} (h : m ≤ n) {t : Table α} (ht : tabv n t) : tabv m t :=
  fun e he => Nat.lt_of_le_of_lt h (ht e he)

theorem tabove_of_tabv (i : Nat) (t : Table α) (h : tabv i t) : tabove i t = t := by
  cases t with
  | nil => rfl
  | cons e r =>
    obtain ⟨k, v⟩ := e
    have : i < k := h (k, v) List.mem_cons_self
    have h2 : ¬ k ≤ i := by omega
    simp [tabove, h2]

theorem tabv_tset [DecidableEq α] (d : Nat → α) (n i : Nat) (v : α) (t : Table α) (hi : n < i) (ht : tabv n t) :
    tabv n (tset d i v t) := by
  induction t with
  | nil =>
    by_cases h : v = d i
    · simp [tset, h, tabv]
    · simp [tset, h, tabv, hi]
  | cons e r ih =>
    obtain ⟨k, w⟩ := e
    have hk : n < k := ht (k, w) List.mem_cons_self
    have hr : tabv n r := fun e he => ht e (List.mem_cons_of_mem _ he)
    by_cases h1 : i < k
    · by_cases h : v = d i
      · simp only [tset, h1, h, if_true]; exact ht
      · simp only [tset, h1, h, if_true, if_false]
        intro e he
        rcases List.mem_cons.mp he with rfl | he
        · exact hi
        · exact ht e he
    · by_cases h2 : i = k
      · by_cases h : v = d i
        · simp only [tset, h2, h, if_true]
          intro e he
          have : ∀ (t : Table α), tabv n t → tabv n (tabove k t) := by
            intro t
            induction t with
            | nil => intro _ e he; cases he
            | cons e r ih =>
              obtain ⟨k', v'⟩ := e
              intro h e he
              by_cases hk : k' ≤ k
              · simp only [tabove, hk, if_true] at he
                exact ih (fun e he => h e (List.mem_cons_of_mem _ he)) e he
              · simp only [tabove, hk, if_false] at he; exact h e he
          subst h2
          simp at he
          exact this r hr e he
        · simp only [tset, h2, if_true]
          intro e he
          subst h2
          simp [h] at he
          rcases he with rfl | he
          · exact hk
          · exact hr e he
      · simp only [tset, h1, h2, if_false]
        intro e he
        rcases List.mem_cons.mp he with rfl | he
        · exact hk
        · exact ih hr e he

/-- A write keeps the canonical form. -/
theorem twf_tset [DecidableEq α] (d : Nat → α) (i : Nat) (v : α) (t : Table α) (h : twf d t = true) :
    twf d (tset d i v t) = true := by
  induction t with
  | nil =>
    by_cases hv : v = d i
    · simp [tset, hv, twf]
    · simp [tset, hv, twf]
  | cons e r ih =>
    obtain ⟨k, w⟩ := e
    obtain ⟨hw, hr, hwf⟩ := (twf_cons d k w r).mp h
    by_cases h1 : i < k
    · by_cases hv : v = d i
      · simp only [tset, h1, hv, if_true]; exact h
      · simp only [tset, h1, hv, if_true, if_false]
        refine (twf_cons d i v _).mpr ⟨hv, ?_, h⟩
        intro e he
        rcases List.mem_cons.mp he with rfl | he
        · exact h1
        · exact Nat.lt_trans h1 (hr e he)
    · by_cases h2 : i = k
      · subst h2
        by_cases hv : v = d i
        · simp only [tset, h1, hv, if_false, if_true]
          rw [tabove_of_tabv i r hr]; exact hwf
        · simp only [tset, h1, hv, if_false, if_true]
          exact (twf_cons d i v r).mpr ⟨hv, hr, hwf⟩
      · simp only [tset, h1, h2, if_false]
        exact (twf_cons d k w _).mpr ⟨hw, tabv_tset d k i v r (by omega) hr, ih hwf⟩

theorem tabv_tmap [DecidableEq α] (d : Nat → α) (p : Nat → Bool) (f : Nat → α → α) (n : Nat) (t : Table α) (h : tabv n t) :
    tabv n (tmap d p f t) := by
  induction t with
  | nil => exact h
  | cons e r ih =>
    obtain ⟨k, v⟩ := e
    have hk : n < k := h (k, v) List.mem_cons_self
    have hr : tabv n r := fun e he => h e (List.mem_cons_of_mem _ he)
    have key : ∀ x : α, tabv n ((k, x) :: tmap d p f r) := by
      intro x e he
      rcases List.mem_cons.mp he with rfl | he
      · exact hk
      · exact ih hr e he
    simp only [tmap]
    split
    · split
      · exact ih hr
      · exact key _
    · exact key _

/-- Changing listed values keeps the canonical form. -/
theorem twf_tmap [DecidableEq α] (d : Nat → α) (p : Nat → Bool) (f : Nat → α → α) (t : Table α) (h : twf d t = true) :
    twf d (tmap d p f t) = true := by
  induction t with
  | nil => exact h
  | cons e r ih =>
    obtain ⟨k, v⟩ := e
    obtain ⟨hv, hr, hwf⟩ := (twf_cons d k v r).mp h
    simp only [tmap]
    split
    · split
      · exact ih hwf
      · rename_i hne
        exact (twf_cons d k _ _).mpr ⟨hne, tabv_tmap d p f k r hr, ih hwf⟩
    · exact (twf_cons d k _ _).mpr ⟨hv, tabv_tmap d p f k r hr, ih hwf⟩

/-- Dropping keys keeps the canonical form. -/
theorem twf_tdrop [DecidableEq α] (d : Nat → α) (p : Nat → Bool) (t : Table α) (h : twf d t = true) :
    twf d (tdrop p t) = true := by
  induction t with
  | nil => exact h
  | cons e r ih =>
    obtain ⟨k, v⟩ := e
    obtain ⟨hv, hr, hwf⟩ := (twf_cons d k v r).mp h
    by_cases hp : p k = true
    · have : tdrop p ((k, v) :: r) = tdrop p r := by simp [tdrop, hp]
      rw [this]; exact ih hwf
    · have : tdrop p ((k, v) :: r) = (k, v) :: tdrop p r := by simp [tdrop, hp]
      rw [this]
      refine (twf_cons d k v _).mpr ⟨hv, ?_, ih hwf⟩
      intro e he
      exact hr e (List.mem_filter.mp he).1

end Sys2Proof.Machine
end

