-- ==== Sys2Proof/Laws/GoodBase.lean ====
section
/-! SUPPORT. What keeps a state sound: the ways in which an operation is built from others, and the few operations that
touch what the invariant speaks of. The other files of this group say the same of every shared operation. -/

namespace Sys2Proof.Machine

open Sys2Proof

variable {q : List Instr} {s : State}

/-- A state that differs from a sound one only in parts of which the invariant does not speak is sound. -/
theorem good_upd (h : Good q s) {f : Nat} {a : Answer} {d : Nat} {hs : HbmState} {l : LogState} {ti : Table TileState}
    {rq : ReqState} {nt : NetState} {lk : Table LinkRun} {ig : IntegState} {ow : OwnState} {pw : PowerState}
    {ct : ControlState} {ck : ClockState} {bo : BootState} {li : LifeState} {sv : SvcState} {nm : NvmState}
    {sp : Table SpdmConn} {ic : I3cState} {ho : HostState} (h1 : nm.otp = s.nvm.otp) (h2 : sv.events = s.svc.events)
    (h3 : l.held = s.log.held) :
    Good q (State.mk s.pending f a d s.regs s.hbm hs l ti rq nt lk ig ow pw ct ck bo li sv nm sp ic ho) :=
  ⟨h.pending, h.inv.regs, h.inv.hbm, h1 ▸ h.inv.otp, h2 ▸ h.inv.events, h3 ▸ h.inv.held⟩

/-- The same where HBM is cleared. -/
theorem good_cleared (h : Good q s) {f : Nat} {a : Answer} {d : Nat} {hs : HbmState} {l : LogState}
    {ti : Table TileState} {rq : ReqState} {nt : NetState} {lk : Table LinkRun} {ig : IntegState} {ow : OwnState}
    {pw : PowerState} {ct : ControlState} {ck : ClockState} {bo : BootState} {li : LifeState} {sv : SvcState}
    {nm : NvmState} {sp : Table SpdmConn} {ic : I3cState} {ho : HostState} (h1 : nm.otp = s.nvm.otp)
    (h2 : sv.events = s.svc.events) (h3 : l.held = s.log.held) :
    Good q (State.mk s.pending f a d s.regs [] hs l ti rq nt lk ig ow pw ct ck bo li sv nm sp ic ho) :=
  ⟨h.pending, h.inv.regs, rfl, h1 ▸ h.inv.otp, h2 ▸ h.inv.events, h3 ▸ h.inv.held⟩

/-- The same where registers besides return to their reset values. -/
theorem good_drop (h : Good q s) {p : Nat → Bool} {f : Nat} {a : Answer} {d : Nat} {hs : HbmState} {l : LogState}
    {ti : Table TileState} {rq : ReqState} {nt : NetState} {lk : Table LinkRun} {ig : IntegState} {ow : OwnState}
    {pw : PowerState} {ct : ControlState} {ck : ClockState} {bo : BootState} {li : LifeState} {sv : SvcState}
    {nm : NvmState} {sp : Table SpdmConn} {ic : I3cState} {ho : HostState} (h1 : nm.otp = s.nvm.otp)
    (h2 : sv.events = s.svc.events) (h3 : l.held = s.log.held) :
    Good q (State.mk s.pending f a d (tdrop p s.regs) s.hbm hs l ti rq nt lk ig ow pw ct ck bo li sv nm sp ic ho) :=
  ⟨h.pending, twf_tdrop _ _ _ h.inv.regs, h.inv.hbm, h1 ▸ h.inv.otp, h2 ▸ h.inv.events, h3 ▸ h.inv.held⟩

/-- The same where registers change one by one. -/
theorem good_tmap (h : Good q s) {p : Nat → Bool} {g : Nat → Reg → Reg} {f : Nat} {a : Answer} {d : Nat} {hs : HbmState} {l : LogState}
    {ti : Table TileState} {rq : ReqState} {nt : NetState} {lk : Table LinkRun} {ig : IntegState} {ow : OwnState}
    {pw : PowerState} {ct : ControlState} {ck : ClockState} {bo : BootState} {li : LifeState} {sv : SvcState}
    {nm : NvmState} {sp : Table SpdmConn} {ic : I3cState} {ho : HostState} (h1 : nm.otp = s.nvm.otp)
    (h2 : sv.events = s.svc.events) (h3 : l.held = s.log.held) :
    Good q (State.mk s.pending f a d (tmap regReset p g s.regs) s.hbm hs l ti rq nt lk ig ow pw ct ck bo li sv nm sp ic ho) :=
  ⟨h.pending, twf_tmap _ _ _ _ h.inv.regs, h.inv.hbm, h1 ▸ h.inv.otp, h2 ▸ h.inv.events, h3 ▸ h.inv.held⟩

/-- The same where the register file changes to another in canonical form. -/
theorem good_regs (h : Good q s) {t : Table Reg} (ht : twf regReset t = true) : Good q { s with regs := t } :=
  ⟨h.pending, ht, h.inv.hbm, h.inv.otp, h.inv.events, h.inv.held⟩

/-- The same where HBM changes to another memory in canonical form. -/
theorem good_hbm (h : Good q s) {m : List Host.Cell} {x : HbmState} (hm : Memory.wf m = true) :
    Good q { s with hbm := m, hbmState := x } :=
  ⟨h.pending, h.inv.regs, hm, h.inv.otp, h.inv.events, h.inv.held⟩

/-- A choice keeps soundness when both of its branches do; the first may rest on the second. -/
theorem good_if {c : Prop} [Decidable c] {a b : State} (hb : Good q b) (ha : Good q b → Good q a) :
    Good q (if c then a else b) := by
  split
  · exact ha hb
  · exact hb

theorem good_dif {c : Prop} [Decidable c] {a : c → State} {b : ¬ c → State} (ha : ∀ h, Good q (a h))
    (hb : ∀ h, Good q (b h)) : Good q (if h : c then a h else b h) := by
  split
  · exact ha _
  · exact hb _

theorem good_if_snd {α : Type} {c : Prop} [Decidable c] {a b : α × State} (hb : Good q b.2) (ha : Good q b.2 → Good q a.2) :
    Good q (if c then a else b).2 := by
  split
  · exact ha hb
  · exact hb

theorem good_if_fst {α : Type} {c : Prop} [Decidable c] {a b : State × α} (hb : Good q b.1) (ha : Good q b.1 → Good q a.1) :
    Good q (if c then a else b).1 := by
  split
  · exact ha hb
  · exact hb

theorem good_if_res {α β : Type} {c : Prop} [Decidable c] {a b : α × (β × State)} (hb : Good q b.2.2)
    (ha : Good q b.2.2 → Good q a.2.2) : Good q (if c then a else b).2.2 := by
  split
  · exact ha hb
  · exact hb

/-- A fold of an operation that keeps soundness keeps it. -/
theorem good_foldl {α : Type} {f : State → α → State} {l : List α} (h : Good q s)
    (hf : ∀ s x, Good q s → Good q (f s x)) : Good q (l.foldl f s) := by
  induction l generalizing s with
  | nil => exact h
  | cons x r ih => exact ih (hf _ _ h)

theorem good_foldl_snd {α β : Type} {f : β × State → α → β × State} {l : List α} {p : β × State} (h : Good q p.2)
    (hf : ∀ p x, Good q p.2 → Good q (f p x).2) : Good q (l.foldl f p).2 := by
  induction l generalizing p with
  | nil => exact h
  | cons x r ih => exact ih (hf _ _ h)

theorem good_foldl_fst {α β : Type} {f : State × β → α → State × β} {l : List α} {p : State × β} (h : Good q p.1)
    (hf : ∀ p x, Good q p.1 → Good q (f p x).1) : Good q (l.foldl f p).1 := by
  induction l generalizing p with
  | nil => exact h
  | cons x r ih => exact ih (hf _ _ h)

/-! ### Registers and memory -/

theorem good_put (h : Good q s) (off : Nat) (v : Reg) : Good q (put off v s) :=
  good_regs h (twf_tset _ _ _ _ h.inv.regs)

theorem good_resetRegs (h : Good q s) (p : Nat → Bool) (all : Bool) : Good q (resetRegs p all s) := by
  unfold resetRegs
  cases all
  · exact good_regs h (twf_tmap _ _ _ _ h.inv.regs)
  · exact good_regs h (twf_tdrop _ _ _ h.inv.regs)

/-- Storing bytes keeps a memory's canonical form. -/
theorem wf_storeBytes (a : Nat) (bs : List Byte) (m : List Host.Cell) (h : Memory.wf m = true) :
    Memory.wf (storeBytes a bs m) = true := by
  induction bs generalizing a m with
  | nil => exact h
  | cons b r ih => exact ih _ _ (twf_tset _ _ _ _ h)

theorem good_hbmWrite (h : Good q s) (a : Nat) (bs : List Byte) : Good q (hbmWrite a bs s) :=
  good_hbm h (wf_storeBytes _ _ _ h.inv.hbm)

theorem good_powered {f : State → State} (h : Good q s) (hf : ∀ s, Good q s → Good q (f s)) : Good q (powered f s) := by
  unfold powered
  split
  · exact h
  · exact hf _ h

/-- The canonical form, said of all pairs of entries and of each entry. -/
theorem twf_iff {α : Type} [DecidableEq α] (d : Nat → α) (t : Table α) :
    twf d t = true ↔ t.Pairwise (fun x y => x.1 < y.1) ∧ ∀ e ∈ t, e.2 ≠ d e.1 := by
  induction t with
  | nil => simp [twf]
  | cons e r ih =>
    obtain ⟨k, v⟩ := e
    rw [twf_cons, ih]
    simp only [List.pairwise_cons, List.forall_mem_cons, tabv]
    exact ⟨fun ⟨h1, h2, h3, h4⟩ => ⟨⟨h2, h3⟩, h1, h4⟩, fun ⟨⟨h2, h3⟩, h1, h4⟩ => ⟨h1, h2, h3, h4⟩⟩

/-- Moving a range within a memory keeps its canonical form. -/
theorem wf_move (src dst n : Nat) (m : List Host.Cell) (h : Memory.wf m = true) :
    Memory.wf ((m.filter fun c => decide (c.1 < dst)) ++
      ((m.filter fun c => decide (src ≤ c.1) && decide (c.1 < src + n)).map fun c => (c.1 - src + dst, c.2)) ++
      m.filter fun c => decide (dst + n ≤ c.1)) = true := by
  unfold Memory.wf at *
  rw [twf_iff] at *
  obtain ⟨hp, hv⟩ := h
  constructor
  · rw [List.pairwise_append, List.pairwise_append]
    refine ⟨⟨hp.filter _, ?_, ?_⟩, hp.filter _, ?_⟩
    · rw [List.pairwise_map]
      refine (List.pairwise_filter.mpr (hp.imp ?_))
      intro x y hxy hx hy
      simp at hx hy ⊢
      omega
    · intro x hx y hy
      simp only [List.mem_map, List.mem_filter, decide_eq_true_eq] at hx hy
      obtain ⟨c, hc, rfl⟩ := hy
      have := hx.2
      show x.1 < c.1 - src + dst
      omega
    · intro x hx y hy
      simp only [List.mem_append, List.mem_map, List.mem_filter, decide_eq_true_eq, Bool.and_eq_true] at hx hy
      rcases hx with hx | ⟨c, hc, rfl⟩
      · have := hx.2
        omega
      · have h1 := hc.2
        have h2 := hy.2
        show c.1 - src + dst < y.1
        omega
  · intro e he
    simp only [List.mem_append, List.mem_map, List.mem_filter] at he
    rcases he with (he | ⟨c, hc, rfl⟩) | he
    · exact hv _ he.1
    · exact hv c hc.1
    · exact hv _ he.1

/-! ### Lists that are bounded -/

theorem length_eraseAt {α : Type} (i : Nat) (l : List α) (h : i < l.length) : (eraseAt i l).length + 1 = l.length := by
  induction l generalizing i with
  | nil => simp at h
  | cons x r ih =>
    cases i with
    | zero => rfl
    | succ n =>
      have := ih n (by simpa using h)
      simp [eraseAt]
      omega

theorem findIdxFrom_lt {α : Type} (p : α → Bool) (n : Nat) (l : List α) (i : Nat) (x : α)
    (h : findIdxFrom p n l = some (i, x)) : n ≤ i ∧ i < n + l.length := by
  induction l generalizing n with
  | nil => simp [findIdxFrom] at h
  | cons y r ih =>
    simp only [findIdxFrom] at h
    split at h
    · cases h
      simp
    · have := ih _ h
      simp
      omega

theorem length_foldIn (now : Nat) (e : LogEv) (l l' : List LogEntry) (h : foldIn now e l = some l') : l'.length = l.length := by
  induction l generalizing l' with
  | nil => simp [foldIn] at h
  | cons x r ih =>
    simp only [foldIn] at h
    split at h
    · cases h
      rfl
    · cases hr : foldIn now e r with
      | none => simp [hr] at h
      | some y =>
        simp [hr] at h
        subst h
        simp [ih _ hr]

theorem length_logEvict (k : Nat) (l l' : List LogEntry) (h : logEvict k l = some l') : l'.length + 1 = l.length := by
  simp only [logEvict] at h
  split at h
  · split at h
    · rename_i i x hf
      cases h
      exact length_eraseAt _ _ (by have := findIdxFrom_lt _ _ _ _ _ hf; omega)
    · cases h
  · cases h

theorem length_logEvictError (l l' : List LogEntry) (h : logEvictError l = some l') : l'.length + 1 = l.length := by
  simp only [logEvictError] at h
  split at h
  · rename_i i x hf
    cases h
    exact length_eraseAt _ _ (by have := findIdxFrom_lt _ _ _ _ _ hf; omega)
  · cases h

/-- Placing an entry never makes a ring longer than its size (R521, R522). -/
theorem length_logPlace (x : LogEntry) (l : List LogEntry) (h : l.length ≤ logRing) : (logPlace x l).1.length ≤ logRing := by
  unfold logPlace
  split
  · simp; omega
  · split
    · split
      · rename_i l' hl
        have := length_logEvict _ _ _ hl
        simp; omega
      · exact h
    · split
      · rename_i l' hl
        have := length_logEvict _ _ _ hl
        simp; omega
      · split
        · rename_i l' hl
          have := length_logEvictError _ _ hl
          simp; omega
        · exact h

theorem good_svcEvent (h : Good q s) (k : SvcEventKind) : Good q (svcEvent k s) := by
  unfold svcEvent
  split
  · exact h
  · split
    · rename_i hl
      refine ⟨h.pending, h.inv.regs, h.inv.hbm, h.inv.otp, ?_, h.inv.held⟩
      simp
      omega
    · exact h

theorem good_held (h : Good q s) {l : List LogEntry} (hl : l.length ≤ logRing) :
    Good q { s with log := { s.log with held := l } } :=
  ⟨h.pending, h.inv.regs, h.inv.hbm, h.inv.otp, h.inv.events, hl⟩

end Sys2Proof.Machine
end

