-- ==== Sys2Proof/Laws/Log.lean ====
section
/-! SUPPORT. What a log entry and a report to the hosts can change: registers, the log, the message counts of the heads,
the service port's events and the I3C target. Every other part of the state is as it was. -/

namespace Sys2Proof.Machine

open Sys2Proof

/-- Two states agree in everything that a report leaves alone. -/
structure ReportFrame (s u : State) : Prop where
  pending : u.pending = s.pending
  free : u.free = s.free
  answer : u.answer = s.answer
  devtime : u.devtime = s.devtime
  hbm : u.hbm = s.hbm
  hbmState : u.hbmState = s.hbmState
  tiles : u.tiles = s.tiles
  req : u.req = s.req
  net : u.net = s.net
  links : u.links = s.links
  integ : u.integ = s.integ
  own : u.own = s.own
  power : u.power = s.power
  control : u.control = s.control
  clock : u.clock = s.clock
  boot : u.boot = s.boot
  life : u.life = s.life
  nvm : u.nvm = s.nvm
  spdm : u.spdm = s.spdm

theorem ReportFrame.refl (s : State) : ReportFrame s s := by constructor <;> rfl

theorem ReportFrame.trans {s t u : State} (h : ReportFrame s t) (k : ReportFrame t u) : ReportFrame s u := by
  constructor
  · exact k.pending.trans h.pending
  · exact k.free.trans h.free
  · exact k.answer.trans h.answer
  · exact k.devtime.trans h.devtime
  · exact k.hbm.trans h.hbm
  · exact k.hbmState.trans h.hbmState
  · exact k.tiles.trans h.tiles
  · exact k.req.trans h.req
  · exact k.net.trans h.net
  · exact k.links.trans h.links
  · exact k.integ.trans h.integ
  · exact k.own.trans h.own
  · exact k.power.trans h.power
  · exact k.control.trans h.control
  · exact k.clock.trans h.clock
  · exact k.boot.trans h.boot
  · exact k.life.trans h.life
  · exact k.nvm.trans h.nvm
  · exact k.spdm.trans h.spdm

theorem put_frame (off : Nat) (v : Reg) (s : State) : ReportFrame s (put off v s) := by constructor <;> rfl

theorem upd_frame (off : Nat) (f : Fld) (x : Nat) (s : State) : ReportFrame s (upd off f x s) := put_frame _ _ _

theorem satAdd_frame (off : Nat) (f : Fld) (x : Nat) (s : State) : ReportFrame s (satAdd off f x s) := put_frame _ _ _

theorem signalVector_frame (h v : Nat) (s : State) : ReportFrame s (signalVector h v s) := by
  unfold signalVector
  split
  · exact put_frame _ _ _
  · constructor <;> rfl

theorem raiseEvent_frame (h bit : Nat) (s : State) : ReportFrame s (raiseEvent h bit s) := by
  unfold raiseEvent
  dsimp only
  split
  · exact ReportFrame.refl _
  · split
    · exact (put_frame _ _ _).trans (signalVector_frame _ _ _)
    · exact put_frame _ _ _

theorem raiseBoth_frame (bit : Nat) (s : State) : ReportFrame s (raiseBoth bit s) :=
  (raiseEvent_frame _ _ _).trans (raiseEvent_frame _ _ _)

theorem svcEvent_frame (k : SvcEventKind) (s : State) : ReportFrame s (svcEvent k s) := by
  unfold svcEvent
  split
  · exact ReportFrame.refl _
  · split
    · constructor <;> rfl
    · exact ReportFrame.refl _

theorem cxlAppend_frame (k : Nat) (x : LogEntry) (s : State) : ReportFrame s (cxlAppend k x s) := by
  constructor <;> rfl

theorem logReport_frame (x : LogEntry) (s : State) : ReportFrame s (logReport x s) := by
  unfold logReport
  dsimp only
  split
  · exact ((cxlAppend_frame _ _ _).trans (cxlAppend_frame _ _ _)).trans ((raiseBoth_frame _ _).trans (svcEvent_frame _ _))
  · exact (raiseBoth_frame _ _).trans (svcEvent_frame _ _)

theorem i3cRaise_frame (b : Nat) (s : State) : ReportFrame s (i3cRaise b s) := by constructor <;> rfl

/-- A log entry changes nothing else. -/
theorem logEvent_frame (e : LogEv) (s : State) : ReportFrame s (logEvent e s) := by
  have held : ∀ l, ReportFrame s { s with log := { s.log with held := l } } := fun l => by constructor <;> rfl
  have step : ∀ {c : Prop} [Decidable c] {t u : State}, ReportFrame s t → ReportFrame t u → ReportFrame s (if c then u else t) := by
    intro c _ t u h k
    split
    · exact h.trans k
    · exact h
  unfold logEvent
  split
  · exact held _
  · dsimp only
    exact step (step (step (((held _).trans (upd_frame _ _ _ _)).trans (upd_frame _ _ _ _)) (satAdd_frame _ _ _ _))
      (logReport_frame _ _)) (i3cRaise_frame _ _)

@[simp] theorem logEvent_pending (e : LogEv) (s : State) : (logEvent e s).pending = s.pending := (logEvent_frame e s).pending

@[simp] theorem logEvent_free (e : LogEv) (s : State) : (logEvent e s).free = s.free := (logEvent_frame e s).free

@[simp] theorem logEvent_answer (e : LogEv) (s : State) : (logEvent e s).answer = s.answer := (logEvent_frame e s).answer

@[simp] theorem logEvent_devtime (e : LogEv) (s : State) : (logEvent e s).devtime = s.devtime := (logEvent_frame e s).devtime

@[simp] theorem logEvent_hbm (e : LogEv) (s : State) : (logEvent e s).hbm = s.hbm := (logEvent_frame e s).hbm

@[simp] theorem logEvent_hbmState (e : LogEv) (s : State) : (logEvent e s).hbmState = s.hbmState := (logEvent_frame e s).hbmState

@[simp] theorem logEvent_tiles (e : LogEv) (s : State) : (logEvent e s).tiles = s.tiles := (logEvent_frame e s).tiles

@[simp] theorem logEvent_req (e : LogEv) (s : State) : (logEvent e s).req = s.req := (logEvent_frame e s).req

@[simp] theorem logEvent_net (e : LogEv) (s : State) : (logEvent e s).net = s.net := (logEvent_frame e s).net

@[simp] theorem logEvent_links (e : LogEv) (s : State) : (logEvent e s).links = s.links := (logEvent_frame e s).links

@[simp] theorem logEvent_integ (e : LogEv) (s : State) : (logEvent e s).integ = s.integ := (logEvent_frame e s).integ

@[simp] theorem logEvent_own (e : LogEv) (s : State) : (logEvent e s).own = s.own := (logEvent_frame e s).own

@[simp] theorem logEvent_power (e : LogEv) (s : State) : (logEvent e s).power = s.power := (logEvent_frame e s).power

@[simp] theorem logEvent_control (e : LogEv) (s : State) : (logEvent e s).control = s.control := (logEvent_frame e s).control

@[simp] theorem logEvent_clock (e : LogEv) (s : State) : (logEvent e s).clock = s.clock := (logEvent_frame e s).clock

@[simp] theorem logEvent_boot (e : LogEv) (s : State) : (logEvent e s).boot = s.boot := (logEvent_frame e s).boot

@[simp] theorem logEvent_life (e : LogEv) (s : State) : (logEvent e s).life = s.life := (logEvent_frame e s).life

@[simp] theorem logEvent_nvm (e : LogEv) (s : State) : (logEvent e s).nvm = s.nvm := (logEvent_frame e s).nvm

@[simp] theorem logEvent_spdm (e : LogEv) (s : State) : (logEvent e s).spdm = s.spdm := (logEvent_frame e s).spdm

@[simp] theorem logCoded_pending (a b c d f g h : Nat) (s : State) : (logCoded a b c d f g h s).pending = s.pending := logEvent_pending _ s

@[simp] theorem logCoded_free (a b c d f g h : Nat) (s : State) : (logCoded a b c d f g h s).free = s.free := logEvent_free _ s

@[simp] theorem logCoded_answer (a b c d f g h : Nat) (s : State) : (logCoded a b c d f g h s).answer = s.answer := logEvent_answer _ s

@[simp] theorem logCoded_devtime (a b c d f g h : Nat) (s : State) : (logCoded a b c d f g h s).devtime = s.devtime := logEvent_devtime _ s

@[simp] theorem logCoded_hbm (a b c d f g h : Nat) (s : State) : (logCoded a b c d f g h s).hbm = s.hbm := logEvent_hbm _ s

@[simp] theorem logCoded_hbmState (a b c d f g h : Nat) (s : State) : (logCoded a b c d f g h s).hbmState = s.hbmState := logEvent_hbmState _ s

@[simp] theorem logCoded_tiles (a b c d f g h : Nat) (s : State) : (logCoded a b c d f g h s).tiles = s.tiles := logEvent_tiles _ s

@[simp] theorem logCoded_req (a b c d f g h : Nat) (s : State) : (logCoded a b c d f g h s).req = s.req := logEvent_req _ s

@[simp] theorem logCoded_net (a b c d f g h : Nat) (s : State) : (logCoded a b c d f g h s).net = s.net := logEvent_net _ s

@[simp] theorem logCoded_links (a b c d f g h : Nat) (s : State) : (logCoded a b c d f g h s).links = s.links := logEvent_links _ s

@[simp] theorem logCoded_integ (a b c d f g h : Nat) (s : State) : (logCoded a b c d f g h s).integ = s.integ := logEvent_integ _ s

@[simp] theorem logCoded_own (a b c d f g h : Nat) (s : State) : (logCoded a b c d f g h s).own = s.own := logEvent_own _ s

@[simp] theorem logCoded_power (a b c d f g h : Nat) (s : State) : (logCoded a b c d f g h s).power = s.power := logEvent_power _ s

@[simp] theorem logCoded_control (a b c d f g h : Nat) (s : State) : (logCoded a b c d f g h s).control = s.control := logEvent_control _ s

@[simp] theorem logCoded_clock (a b c d f g h : Nat) (s : State) : (logCoded a b c d f g h s).clock = s.clock := logEvent_clock _ s

@[simp] theorem logCoded_boot (a b c d f g h : Nat) (s : State) : (logCoded a b c d f g h s).boot = s.boot := logEvent_boot _ s

@[simp] theorem logCoded_life (a b c d f g h : Nat) (s : State) : (logCoded a b c d f g h s).life = s.life := logEvent_life _ s

@[simp] theorem logCoded_nvm (a b c d f g h : Nat) (s : State) : (logCoded a b c d f g h s).nvm = s.nvm := logEvent_nvm _ s

@[simp] theorem logCoded_spdm (a b c d f g h : Nat) (s : State) : (logCoded a b c d f g h s).spdm = s.spdm := logEvent_spdm _ s

@[simp] theorem logOpen_pending (a b c d f g : Nat) (s : State) : (logOpen a b c d f g s).pending = s.pending := logEvent_pending _ s

@[simp] theorem logOpen_free (a b c d f g : Nat) (s : State) : (logOpen a b c d f g s).free = s.free := logEvent_free _ s

@[simp] theorem logOpen_answer (a b c d f g : Nat) (s : State) : (logOpen a b c d f g s).answer = s.answer := logEvent_answer _ s

@[simp] theorem logOpen_devtime (a b c d f g : Nat) (s : State) : (logOpen a b c d f g s).devtime = s.devtime := logEvent_devtime _ s

@[simp] theorem logOpen_hbm (a b c d f g : Nat) (s : State) : (logOpen a b c d f g s).hbm = s.hbm := logEvent_hbm _ s

@[simp] theorem logOpen_hbmState (a b c d f g : Nat) (s : State) : (logOpen a b c d f g s).hbmState = s.hbmState := logEvent_hbmState _ s

@[simp] theorem logOpen_tiles (a b c d f g : Nat) (s : State) : (logOpen a b c d f g s).tiles = s.tiles := logEvent_tiles _ s

@[simp] theorem logOpen_req (a b c d f g : Nat) (s : State) : (logOpen a b c d f g s).req = s.req := logEvent_req _ s

@[simp] theorem logOpen_net (a b c d f g : Nat) (s : State) : (logOpen a b c d f g s).net = s.net := logEvent_net _ s

@[simp] theorem logOpen_links (a b c d f g : Nat) (s : State) : (logOpen a b c d f g s).links = s.links := logEvent_links _ s

@[simp] theorem logOpen_integ (a b c d f g : Nat) (s : State) : (logOpen a b c d f g s).integ = s.integ := logEvent_integ _ s

@[simp] theorem logOpen_own (a b c d f g : Nat) (s : State) : (logOpen a b c d f g s).own = s.own := logEvent_own _ s

@[simp] theorem logOpen_power (a b c d f g : Nat) (s : State) : (logOpen a b c d f g s).power = s.power := logEvent_power _ s

@[simp] theorem logOpen_control (a b c d f g : Nat) (s : State) : (logOpen a b c d f g s).control = s.control := logEvent_control _ s

@[simp] theorem logOpen_clock (a b c d f g : Nat) (s : State) : (logOpen a b c d f g s).clock = s.clock := logEvent_clock _ s

@[simp] theorem logOpen_boot (a b c d f g : Nat) (s : State) : (logOpen a b c d f g s).boot = s.boot := logEvent_boot _ s

@[simp] theorem logOpen_life (a b c d f g : Nat) (s : State) : (logOpen a b c d f g s).life = s.life := logEvent_life _ s

@[simp] theorem logOpen_nvm (a b c d f g : Nat) (s : State) : (logOpen a b c d f g s).nvm = s.nvm := logEvent_nvm _ s

@[simp] theorem logOpen_spdm (a b c d f g : Nat) (s : State) : (logOpen a b c d f g s).spdm = s.spdm := logEvent_spdm _ s

@[simp] theorem raiseEvent_pending (h b : Nat) (s : State) : (raiseEvent h b s).pending = s.pending := (raiseEvent_frame h b s).pending

@[simp] theorem raiseEvent_free (h b : Nat) (s : State) : (raiseEvent h b s).free = s.free := (raiseEvent_frame h b s).free

@[simp] theorem raiseEvent_answer (h b : Nat) (s : State) : (raiseEvent h b s).answer = s.answer := (raiseEvent_frame h b s).answer

@[simp] theorem raiseEvent_devtime (h b : Nat) (s : State) : (raiseEvent h b s).devtime = s.devtime := (raiseEvent_frame h b s).devtime

@[simp] theorem raiseEvent_hbm (h b : Nat) (s : State) : (raiseEvent h b s).hbm = s.hbm := (raiseEvent_frame h b s).hbm

@[simp] theorem raiseEvent_hbmState (h b : Nat) (s : State) : (raiseEvent h b s).hbmState = s.hbmState := (raiseEvent_frame h b s).hbmState

@[simp] theorem raiseEvent_tiles (h b : Nat) (s : State) : (raiseEvent h b s).tiles = s.tiles := (raiseEvent_frame h b s).tiles

@[simp] theorem raiseEvent_req (h b : Nat) (s : State) : (raiseEvent h b s).req = s.req := (raiseEvent_frame h b s).req

@[simp] theorem raiseEvent_net (h b : Nat) (s : State) : (raiseEvent h b s).net = s.net := (raiseEvent_frame h b s).net

@[simp] theorem raiseEvent_links (h b : Nat) (s : State) : (raiseEvent h b s).links = s.links := (raiseEvent_frame h b s).links

@[simp] theorem raiseEvent_integ (h b : Nat) (s : State) : (raiseEvent h b s).integ = s.integ := (raiseEvent_frame h b s).integ

@[simp] theorem raiseEvent_own (h b : Nat) (s : State) : (raiseEvent h b s).own = s.own := (raiseEvent_frame h b s).own

@[simp] theorem raiseEvent_power (h b : Nat) (s : State) : (raiseEvent h b s).power = s.power := (raiseEvent_frame h b s).power

@[simp] theorem raiseEvent_control (h b : Nat) (s : State) : (raiseEvent h b s).control = s.control := (raiseEvent_frame h b s).control

@[simp] theorem raiseEvent_clock (h b : Nat) (s : State) : (raiseEvent h b s).clock = s.clock := (raiseEvent_frame h b s).clock

@[simp] theorem raiseEvent_boot (h b : Nat) (s : State) : (raiseEvent h b s).boot = s.boot := (raiseEvent_frame h b s).boot

@[simp] theorem raiseEvent_life (h b : Nat) (s : State) : (raiseEvent h b s).life = s.life := (raiseEvent_frame h b s).life

@[simp] theorem raiseEvent_nvm (h b : Nat) (s : State) : (raiseEvent h b s).nvm = s.nvm := (raiseEvent_frame h b s).nvm

@[simp] theorem raiseEvent_spdm (h b : Nat) (s : State) : (raiseEvent h b s).spdm = s.spdm := (raiseEvent_frame h b s).spdm

@[simp] theorem svcEvent_pending (k : SvcEventKind) (s : State) : (svcEvent k s).pending = s.pending := (svcEvent_frame k s).pending

@[simp] theorem svcEvent_free (k : SvcEventKind) (s : State) : (svcEvent k s).free = s.free := (svcEvent_frame k s).free

@[simp] theorem svcEvent_answer (k : SvcEventKind) (s : State) : (svcEvent k s).answer = s.answer := (svcEvent_frame k s).answer

@[simp] theorem svcEvent_devtime (k : SvcEventKind) (s : State) : (svcEvent k s).devtime = s.devtime := (svcEvent_frame k s).devtime

@[simp] theorem svcEvent_hbm (k : SvcEventKind) (s : State) : (svcEvent k s).hbm = s.hbm := (svcEvent_frame k s).hbm

@[simp] theorem svcEvent_hbmState (k : SvcEventKind) (s : State) : (svcEvent k s).hbmState = s.hbmState := (svcEvent_frame k s).hbmState

@[simp] theorem svcEvent_tiles (k : SvcEventKind) (s : State) : (svcEvent k s).tiles = s.tiles := (svcEvent_frame k s).tiles

@[simp] theorem svcEvent_req (k : SvcEventKind) (s : State) : (svcEvent k s).req = s.req := (svcEvent_frame k s).req

@[simp] theorem svcEvent_net (k : SvcEventKind) (s : State) : (svcEvent k s).net = s.net := (svcEvent_frame k s).net

@[simp] theorem svcEvent_links (k : SvcEventKind) (s : State) : (svcEvent k s).links = s.links := (svcEvent_frame k s).links

@[simp] theorem svcEvent_integ (k : SvcEventKind) (s : State) : (svcEvent k s).integ = s.integ := (svcEvent_frame k s).integ

@[simp] theorem svcEvent_own (k : SvcEventKind) (s : State) : (svcEvent k s).own = s.own := (svcEvent_frame k s).own

@[simp] theorem svcEvent_power (k : SvcEventKind) (s : State) : (svcEvent k s).power = s.power := (svcEvent_frame k s).power

@[simp] theorem svcEvent_control (k : SvcEventKind) (s : State) : (svcEvent k s).control = s.control := (svcEvent_frame k s).control

@[simp] theorem svcEvent_clock (k : SvcEventKind) (s : State) : (svcEvent k s).clock = s.clock := (svcEvent_frame k s).clock

@[simp] theorem svcEvent_boot (k : SvcEventKind) (s : State) : (svcEvent k s).boot = s.boot := (svcEvent_frame k s).boot

@[simp] theorem svcEvent_life (k : SvcEventKind) (s : State) : (svcEvent k s).life = s.life := (svcEvent_frame k s).life

@[simp] theorem svcEvent_nvm (k : SvcEventKind) (s : State) : (svcEvent k s).nvm = s.nvm := (svcEvent_frame k s).nvm

@[simp] theorem svcEvent_spdm (k : SvcEventKind) (s : State) : (svcEvent k s).spdm = s.spdm := (svcEvent_frame k s).spdm

end Sys2Proof.Machine
end

