-- ==== Sys2Proof/Laws/GoodOps.lean ====
section
/-! SUPPORT. Every operation of Machine/Ops.lean keeps a sound state sound. -/

namespace Sys2Proof.Machine

open Sys2Proof

theorem good_upd_ {q : List Instr} {s : State} {off : Nat} {f : Fld} {x : Nat} (h : Good q s) : Good q (upd off f x s) :=
  good_put h _ _

theorem good_satAdd {q : List Instr} {s : State} {off : Nat} {f : Fld} {n : Nat} (hG : Good q s) :
    Good q (satAdd off f n s) := by
  unfold satAdd
  repeat' (first | with_reducible assumption | with_reducible refine good_upd_ ?_ | with_reducible refine good_if ?_ (fun _ => ?_) | dsimp only | split)

theorem good_addR {q : List Instr} {s : State} {off : Nat} {n : Nat} (hG : Good q s) :
    Good q (addR off n s) := by
  unfold addR
  repeat' (first | with_reducible assumption | with_reducible refine good_put ?_ _ _ | with_reducible refine good_if ?_ (fun _ => ?_) | dsimp only | split)

theorem good_subR {q : List Instr} {s : State} {off : Nat} {n : Nat} (hG : Good q s) :
    Good q (subR off n s) := by
  unfold subR
  repeat' (first | with_reducible assumption | with_reducible refine good_put ?_ _ _ | with_reducible refine good_if ?_ (fun _ => ?_) | dsimp only | split)

theorem good_freeNat {q : List Instr} {s : State} {w : Nat} (hG : Good q s) :
    Good q (freeNat w s).2 := by
  unfold freeNat
  repeat' (first | with_reducible assumption | with_reducible refine good_if ?_ (fun _ => ?_) | with_reducible refine good_if_snd ?_ (fun _ => ?_) | dsimp only | split | with_reducible refine good_upd ?_ rfl rfl rfl)

theorem good_signalVector {q : List Instr} {s : State} {h : Nat} {v : Nat} (hG : Good q s) :
    Good q (signalVector h v s) := by
  unfold signalVector
  repeat' (first | with_reducible assumption | with_reducible refine good_put ?_ _ _ | with_reducible refine good_if ?_ (fun _ => ?_) | dsimp only | split | with_reducible refine good_upd ?_ rfl rfl rfl)

theorem good_raiseEvent {q : List Instr} {s : State} {h : Nat} {bit : Nat} (hG : Good q s) :
    Good q (raiseEvent h bit s) := by
  unfold raiseEvent
  repeat' (first | with_reducible assumption | with_reducible refine good_put ?_ _ _ | with_reducible refine good_signalVector ?_ | with_reducible refine good_if ?_ (fun _ => ?_) | dsimp only | split)

theorem good_raiseBoth {q : List Instr} {s : State} {bit : Nat} (hG : Good q s) :
    Good q (raiseBoth bit s) := by
  unfold raiseBoth
  repeat' (first | with_reducible assumption | with_reducible refine good_raiseEvent ?_ | with_reducible refine good_if ?_ (fun _ => ?_) | dsimp only | split)

theorem good_i3cRaise {q : List Instr} {s : State} {byte : Nat} (hG : Good q s) :
    Good q (i3cRaise byte s) := by
  unfold i3cRaise
  repeat' (first | with_reducible assumption | with_reducible refine good_if ?_ (fun _ => ?_) | dsimp only | split | with_reducible refine good_upd ?_ rfl rfl rfl)

theorem good_cxlAppend {q : List Instr} {s : State} {key : Nat} {x : LogEntry} (hG : Good q s) :
    Good q (cxlAppend key x s) := by
  unfold cxlAppend
  repeat' (first | with_reducible assumption | with_reducible refine good_if ?_ (fun _ => ?_) | dsimp only | split | with_reducible refine good_upd ?_ rfl rfl rfl)

theorem good_logReport {q : List Instr} {s : State} {x : LogEntry} (hG : Good q s) :
    Good q (logReport x s) := by
  unfold logReport
  repeat' (first | with_reducible assumption | with_reducible refine good_cxlAppend ?_ | with_reducible refine good_svcEvent ?_ _ | with_reducible refine good_raiseBoth ?_ | with_reducible refine good_if ?_ (fun _ => ?_) | dsimp only | split)

theorem good_logEvent {q : List Instr} {s : State} {e : LogEv} (h : Good q s) : Good q (logEvent e s) := by
  unfold logEvent
  split
  · rename_i l hl
    exact good_held h (by rw [length_foldIn _ _ _ _ hl]; exact h.inv.held)
  · have hp := good_held h (length_logPlace (logEntryOf e (get s ledLogStat LedLogStat.nextSeq) s.devtime
      (decide (max 1 (min 5 (get s ledLogCtrl LedLogCtrl.hostMin)) ≤ e.sev))) s.log.held h.inv.held)
    dsimp only at hp ⊢
    repeat' (first | with_reducible assumption | with_reducible refine good_i3cRaise ?_ | with_reducible refine good_logReport ?_ | with_reducible refine good_satAdd ?_ | with_reducible refine good_upd_ ?_ | with_reducible refine good_if ?_ (fun _ => ?_))

theorem good_logCoded {q : List Instr} {s : State} {sev : Nat} {kind : Nat} {block : Nat} {rule : Nat} {event : Nat} {code : Nat} {object : Nat} (hG : Good q s) :
    Good q (logCoded sev kind block rule event code object s) := by
  unfold logCoded
  repeat' (first | with_reducible assumption | with_reducible refine good_logEvent ?_ | with_reducible refine good_if ?_ (fun _ => ?_) | dsimp only | split)

theorem good_logOpen {q : List Instr} {s : State} {sev : Nat} {kind : Nat} {block : Nat} {rule : Nat} {event : Nat} {object : Nat} (hG : Good q s) :
    Good q (logOpen sev kind block rule event object s) := by
  unfold logOpen
  repeat' (first | with_reducible assumption | with_reducible refine good_logCoded ?_ | with_reducible refine good_if ?_ (fun _ => ?_) | dsimp only | split)

theorem good_logAccess {q : List Instr} {s : State} {code : Nat} {m : Master} {off : Nat} {width : Nat} {write : Bool} (hG : Good q s) :
    Good q (logAccess code m off width write s) := by
  unfold logAccess
  repeat' (first | with_reducible assumption | with_reducible refine good_logEvent ?_ | with_reducible refine good_if ?_ (fun _ => ?_) | dsimp only | split)

theorem good_setDevState {q : List Instr} {s : State} {v : Nat} (hG : Good q s) :
    Good q (setDevState v s) := by
  unfold setDevState
  repeat' (first | with_reducible assumption | with_reducible refine good_upd_ ?_ | with_reducible refine good_svcEvent ?_ _ | with_reducible refine good_raiseBoth ?_ | with_reducible refine good_logOpen ?_ | with_reducible refine good_if ?_ (fun _ => ?_) | dsimp only | split | with_reducible refine good_upd ?_ rfl rfl rfl)

end Sys2Proof.Machine
end

