-- ==== Sys2Proof/Laws/GoodOwnership.lean ====
section
/-! SUPPORT. Every operation of Machine/Ownership.lean keeps a sound state sound. -/

namespace Sys2Proof.Machine

open Sys2Proof

theorem good_reholder {q : List Instr} {s : State} (hG : Good q s) :
    Good q (reholder s) := by
  unfold reholder
  repeat' (first | with_reducible assumption | with_reducible refine good_upd_ ?_ | with_reducible refine good_if ?_ (fun _ => ?_) | dsimp only | split)

theorem good_setFwSlot {q : List Instr} {s : State} {i : Nat} {st : Nat} {result : Nat} (hG : Good q s) :
    Good q (setFwSlot i st result s) := by
  unfold setFwSlot
  repeat' (first | with_reducible assumption | with_reducible refine good_upd_ ?_ | with_reducible refine good_if ?_ (fun _ => ?_) | dsimp only | split)

theorem good_endUpload {q : List Instr} {s : State} {result : Nat} (hG : Good q s) :
    Good q (endUpload result s) := by
  unfold endUpload
  repeat' (first | with_reducible assumption | with_reducible refine good_setFwSlot ?_ | with_reducible refine good_logCoded ?_ | with_reducible refine good_upd_ ?_ | with_reducible refine good_if ?_ (fun _ => ?_) | dsimp only | split | with_reducible refine good_upd ?_ rfl rfl rfl)

theorem good_clearPermit {q : List Instr} {s : State} (hG : Good q s) :
    Good q (clearPermit s) := by
  unfold clearPermit
  repeat' (first | with_reducible assumption | with_reducible refine good_endUpload ?_ | with_reducible refine good_upd_ ?_ | with_reducible refine good_if ?_ (fun _ => ?_) | dsimp only | split)

theorem good_announceOwner {q : List Instr} {s : State} (hG : Good q s) :
    Good q (announceOwner s) := by
  unfold announceOwner
  repeat' (first | with_reducible assumption | with_reducible refine good_svcEvent ?_ _ | with_reducible refine good_raiseBoth ?_ | with_reducible refine good_clearPermit ?_ | with_reducible refine good_logOpen ?_ | with_reducible refine good_if ?_ (fun _ => ?_) | dsimp only | split)

theorem good_reportOwner {q : List Instr} {s : State} (hG : Good q s) :
    Good q (reportOwner s) := by
  unfold reportOwner
  repeat' (first | with_reducible assumption | with_reducible refine good_announceOwner ?_ | with_reducible refine good_satAdd ?_ | with_reducible refine good_if ?_ (fun _ => ?_) | dsimp only | split)

theorem good_openWindow {q : List Instr} {s : State} (hG : Good q s) :
    Good q (openWindow s) := by
  unfold openWindow
  repeat' (first | with_reducible assumption | with_reducible refine good_upd_ ?_ | with_reducible refine good_raiseBoth ?_ | with_reducible refine good_if ?_ (fun _ => ?_) | dsimp only | split | with_reducible refine good_upd ?_ rfl rfl rfl)

theorem good_closeWindow {q : List Instr} {s : State} (hG : Good q s) :
    Good q (closeWindow s) := by
  unfold closeWindow
  repeat' (first | with_reducible assumption | with_reducible refine good_raiseBoth ?_ | with_reducible refine good_upd_ ?_ | with_reducible refine good_if ?_ (fun _ => ?_) | dsimp only | split)

theorem good_startLease {q : List Instr} {s : State} (hG : Good q s) :
    Good q (startLease s) := by
  unfold startLease
  repeat' (first | with_reducible assumption | with_reducible refine good_if ?_ (fun _ => ?_) | dsimp only | split | with_reducible refine good_upd ?_ rfl rfl rfl)

theorem good_makeOwner {q : List Instr} {s : State} {m : Master} (hG : Good q s) :
    Good q (makeOwner m s) := by
  unfold makeOwner
  repeat' (first | with_reducible assumption | with_reducible refine good_reportOwner ?_ | with_reducible refine good_closeWindow ?_ | with_reducible refine good_startLease ?_ | with_reducible refine good_upd_ ?_ | with_reducible refine good_if ?_ (fun _ => ?_) | dsimp only | split | with_reducible refine good_upd ?_ rfl rfl rfl)

theorem good_endOwner {q : List Instr} {s : State} (hG : Good q s) :
    Good q (endOwner s) := by
  unfold endOwner
  repeat' (first | with_reducible assumption | with_reducible refine good_reportOwner ?_ | with_reducible refine good_openWindow ?_ | with_reducible refine good_upd_ ?_ | with_reducible refine good_if ?_ (fun _ => ?_) | dsimp only | split)

theorem good_lapse {q : List Instr} {s : State} (hG : Good q s) :
    Good q (lapse s) := by
  unfold lapse
  repeat' (first | with_reducible assumption | with_reducible refine good_endOwner ?_ | with_reducible refine good_if ?_ (fun _ => ?_) | dsimp only | split)

theorem good_windowDue {q : List Instr} {s : State} (hG : Good q s) :
    Good q (windowDue s) := by
  unfold windowDue
  repeat' (first | with_reducible assumption | with_reducible refine good_closeWindow ?_ | with_reducible refine good_lapse ?_ | with_reducible refine good_if ?_ (fun _ => ?_) | dsimp only | split)

theorem good_settle {q : List Instr} {s : State} (hG : Good q s) :
    Good q (settle s) := by
  unfold settle
  repeat' (first | with_reducible assumption | with_reducible refine good_windowDue ?_ | with_reducible refine good_lapse ?_ | with_reducible refine good_if ?_ (fun _ => ?_) | dsimp only | split)

theorem good_ownResult {q : List Instr} {s : State} {m : Master} {r : Nat} (hG : Good q s) :
    Good q (ownResult m r s) := by
  unfold ownResult
  repeat' (first | with_reducible assumption | with_reducible refine good_upd_ ?_ | with_reducible refine good_if ?_ (fun _ => ?_) | dsimp only | split)

theorem good_noteClaim {q : List Instr} {s : State} (hG : Good q s) :
    Good q (noteClaim s) := by
  unfold noteClaim
  repeat' (first | with_reducible assumption | with_reducible refine good_if ?_ (fun _ => ?_) | dsimp only | split | with_reducible refine good_upd ?_ rfl rfl rfl)

theorem good_takeOver {q : List Instr} {s : State} {m : Master} {o : Master} (hG : Good q s) :
    Good q (takeOver m o s) := by
  unfold takeOver
  repeat' (first | with_reducible assumption | with_reducible refine good_ownResult ?_ | with_reducible refine good_announceOwner ?_ | with_reducible refine good_startLease ?_ | with_reducible refine good_upd_ ?_ | with_reducible refine good_if ?_ (fun _ => ?_) | dsimp only | split)

theorem good_claim {q : List Instr} {s : State} {m : Master} (hG : Good q s) :
    Good q (claim m s) := by
  unfold claim
  repeat' (first | with_reducible assumption | with_reducible refine good_settle ?_ | with_reducible refine good_ownResult ?_ | with_reducible refine good_noteClaim ?_ | with_reducible refine good_makeOwner ?_ | with_reducible refine good_takeOver ?_ | with_reducible refine good_if ?_ (fun _ => ?_) | dsimp only | split)

theorem good_renew {q : List Instr} {s : State} {m : Master} (hG : Good q s) :
    Good q (renew m s) := by
  unfold renew
  repeat' (first | with_reducible assumption | with_reducible refine good_settle ?_ | with_reducible refine good_ownResult ?_ | with_reducible refine good_startLease ?_ | with_reducible refine good_if ?_ (fun _ => ?_) | dsimp only | split)

theorem good_release {q : List Instr} {s : State} {m : Master} (hG : Good q s) :
    Good q (release m s) := by
  unfold release
  repeat' (first | with_reducible assumption | with_reducible refine good_settle ?_ | with_reducible refine good_ownResult ?_ | with_reducible refine good_endOwner ?_ | with_reducible refine good_if ?_ (fun _ => ?_) | dsimp only | split)

theorem good_transfer {q : List Instr} {s : State} {m : Master} {t : Master} (hG : Good q s) :
    Good q (transfer m t s) := by
  unfold transfer
  repeat' (first | with_reducible assumption | with_reducible refine good_settle ?_ | with_reducible refine good_ownResult ?_ | with_reducible refine good_makeOwner ?_ | with_reducible refine good_if ?_ (fun _ => ?_) | dsimp only | split)

theorem good_ownCmdWrite {q : List Instr} {s : State} {m : Master} {v : Nat} (hG : Good q s) :
    Good q (ownCmdWrite m v s) := by
  unfold ownCmdWrite
  repeat' (first | with_reducible assumption | with_reducible refine good_logAccess ?_ | with_reducible refine good_claim ?_ | with_reducible refine good_renew ?_ | with_reducible refine good_release ?_ | with_reducible refine good_transfer ?_ | with_reducible refine good_if ?_ (fun _ => ?_) | dsimp only | split)

theorem good_denied {q : List Instr} {s : State} {m : Master} {off : Nat} {width : Nat} (hG : Good q s) :
    Good q (denied m off width s) := by
  unfold denied
  repeat' (first | with_reducible assumption | with_reducible refine good_logAccess ?_ | with_reducible refine good_if ?_ (fun _ => ?_) | dsimp only | split)

theorem good_refusedWrite {q : List Instr} {s : State} {m : Master} {off : Nat} {width : Nat} (hG : Good q s) :
    Good q (refusedWrite m off width s) := by
  unfold refusedWrite
  repeat' (first | with_reducible assumption | with_reducible refine good_logAccess ?_ | with_reducible refine good_if ?_ (fun _ => ?_) | dsimp only | split)

theorem good_asOwner {q : List Instr} {s : State} {m : Master} {off : Nat} {width : Nat} {f : State → State} (hG : Good q s) (hf : ∀ x0, Good q x0 → Good q (f x0)) :
    Good q (asOwner m off width f s) := by
  unfold asOwner
  repeat' (first | with_reducible assumption | with_reducible refine good_settle ?_ | with_reducible refine good_denied ?_ | with_reducible refine hf _ ?_ | with_reducible refine good_if ?_ (fun _ => ?_) | dsimp only | split)

theorem good_asHead {q : List Instr} {s : State} {m : Master} {h : Head} {off : Nat} {width : Nat} {f : State → State} (hG : Good q s) (hf : ∀ x0, Good q x0 → Good q (f x0)) :
    Good q (asHead m h off width f s) := by
  unfold asHead
  repeat' (first | with_reducible assumption | with_reducible refine good_denied ?_ | with_reducible refine hf _ ?_ | with_reducible refine good_if ?_ (fun _ => ?_) | dsimp only | split)

theorem good_execClaim {q : List Instr} {s : State} {m : Master} (hG : Good q s) :
    ∃ w, execClaim m s = .next w ∧ Good q w := by
  refine ⟨_, rfl, ?_⟩
  repeat' (first | with_reducible assumption | with_reducible refine good_powered ?_ (fun _ _ => ?_) | with_reducible refine good_claim ?_ | with_reducible refine good_if ?_ (fun _ => ?_) | dsimp only | split)

theorem good_execRenew {q : List Instr} {s : State} {m : Master} (hG : Good q s) :
    ∃ w, execRenew m s = .next w ∧ Good q w := by
  refine ⟨_, rfl, ?_⟩
  repeat' (first | with_reducible assumption | with_reducible refine good_powered ?_ (fun _ _ => ?_) | with_reducible refine good_renew ?_ | with_reducible refine good_if ?_ (fun _ => ?_) | dsimp only | split)

theorem good_execRelease {q : List Instr} {s : State} {m : Master} (hG : Good q s) :
    ∃ w, execRelease m s = .next w ∧ Good q w := by
  refine ⟨_, rfl, ?_⟩
  repeat' (first | with_reducible assumption | with_reducible refine good_powered ?_ (fun _ _ => ?_) | with_reducible refine good_release ?_ | with_reducible refine good_if ?_ (fun _ => ?_) | dsimp only | split)

theorem good_execTransfer {q : List Instr} {s : State} {m : Master} {target : Master} (hG : Good q s) :
    ∃ w, execTransfer m target s = .next w ∧ Good q w := by
  refine ⟨_, rfl, ?_⟩
  repeat' (first | with_reducible assumption | with_reducible refine good_powered ?_ (fun _ _ => ?_) | with_reducible refine good_transfer ?_ | with_reducible refine good_if ?_ (fun _ => ?_) | dsimp only | split)

theorem good_execOwnCmdReserved {q : List Instr} {s : State} {m : Master} {op : Nat} {target : Nat} (hG : Good q s) :
    ∃ w, execOwnCmdReserved m op target s = .next w ∧ Good q w := by
  refine ⟨_, rfl, ?_⟩
  repeat' (first | with_reducible assumption | with_reducible refine good_powered ?_ (fun _ _ => ?_) | with_reducible refine good_refusedWrite ?_ | with_reducible refine good_if ?_ (fun _ => ?_) | dsimp only | split)

theorem good_execLeaseLow {q : List Instr} {s : State} (hG : Good q s) :
    ∃ w, execLeaseLow s = .next w ∧ Good q w := by
  refine ⟨_, rfl, ?_⟩
  repeat' (first | with_reducible assumption | with_reducible refine good_powered ?_ (fun _ _ => ?_) | with_reducible refine good_raiseEvent ?_ | with_reducible refine good_if ?_ (fun _ => ?_) | dsimp only | split | with_reducible refine good_upd ?_ rfl rfl rfl)

theorem good_execLeaseLapse {q : List Instr} {s : State} (hG : Good q s) :
    ∃ w, execLeaseLapse s = .next w ∧ Good q w := by
  refine ⟨_, rfl, ?_⟩
  repeat' (first | with_reducible assumption | with_reducible refine good_powered ?_ (fun _ _ => ?_) | with_reducible refine good_lapse ?_ | with_reducible refine good_claim ?_ | with_reducible refine good_if ?_ (fun _ => ?_) | dsimp only | split)

theorem good_execClaimWindowExpire {q : List Instr} {s : State} (hG : Good q s) :
    ∃ w, execClaimWindowExpire s = .next w ∧ Good q w := by
  refine ⟨_, rfl, ?_⟩
  repeat' (first | with_reducible assumption | with_reducible refine good_powered ?_ (fun _ _ => ?_) | with_reducible refine good_windowDue ?_ | with_reducible refine good_if ?_ (fun _ => ?_) | dsimp only | split)

end Sys2Proof.Machine
end

