-- ==== Sys2Proof/Laws/GoodRecords.lean ====
section
/-! SUPPORT. Every operation of Machine/Records.lean keeps a sound state sound. -/

namespace Sys2Proof.Machine

open Sys2Proof

theorem good_setLifeWord {q : List Instr} {s : State} {i : Nat} {v : Reg} (hG : Good q s) :
    Good q (setLifeWord i v s) := by
  unfold setLifeWord
  repeat' (first | with_reducible assumption | with_reducible refine good_if ?_ (fun _ => ?_) | dsimp only | split | with_reducible refine good_upd ?_ rfl rfl rfl)

theorem good_lifeSet {q : List Instr} {s : State} {off : Nat} {n : Nat} {v : Nat} (hG : Good q s) :
    Good q (lifeSet off n v s) := by
  unfold lifeSet
  repeat' (first | with_reducible assumption | with_reducible refine good_setLifeWord ?_ | with_reducible refine good_if ?_ (fun _ => ?_) | dsimp only | split)

theorem good_lifeCount {q : List Instr} {s : State} {off : Nat} {n : Nat} {k : Nat} (hG : Good q s) :
    Good q (lifeCount off n k s) := by
  unfold lifeCount
  repeat' (first | with_reducible assumption | with_reducible refine good_lifeSet ?_ | with_reducible refine good_if ?_ (fun _ => ?_) | dsimp only | split)

theorem good_lifeMax {q : List Instr} {s : State} {off : Nat} {n : Nat} {v : Nat} (hG : Good q s) :
    Good q (lifeMax off n v s) := by
  unfold lifeMax
  repeat' (first | with_reducible assumption | with_reducible refine good_lifeSet ?_ | with_reducible refine good_if ?_ (fun _ => ?_) | dsimp only | split)

theorem good_countErases {q : List Instr} {s : State} {d : Nat} {a : Nat} {n : Nat} (hG : Good q s) :
    Good q (countErases d a n s) := by
  unfold countErases
  repeat' (first | with_reducible assumption | with_reducible refine good_lifeCount ?_ | with_reducible refine good_lifeSet ?_ | with_reducible refine good_if ?_ (fun _ => ?_) | dsimp only | split)

theorem good_nvmPages {q : List Instr} {s : State} {a : Nat} {n : Nat} (hG : Good q s) :
    Good q (nvmPages a n s) := by
  unfold nvmPages
  repeat' (first | with_reducible assumption | with_reducible refine good_countErases ?_ | with_reducible refine good_if ?_ (fun _ => ?_) | with_reducible refine good_foldl ?_ (fun _ _ _ => ?_) | with_reducible refine good_foldl_snd ?_ (fun _ _ _ => ?_) | with_reducible refine good_foldl_fst ?_ (fun _ _ _ => ?_) | with_reducible refine good_if_snd ?_ (fun _ => ?_) | with_reducible refine good_if_fst ?_ (fun _ => ?_) | dsimp only | split | with_reducible refine good_upd ?_ rfl rfl rfl)

theorem good_logPageWrite {q : List Instr} {s : State} (hG : Good q s) : Good q (logPageWrite s) := by
  unfold logPageWrite
  split
  · exact hG
  · refine good_upd_ (good_nvmPages ?_)
    refine ⟨hG.pending, hG.inv.regs, hG.inv.hbm, hG.inv.otp, hG.inv.events, ?_⟩
    have := hG.inv.held
    simp
    omega

theorem good_logFlushN {q : List Instr} {y1 : State} {y0 : Nat} (hG : Good q y1) :
    Good q (logFlushN y0 y1) := by
  induction y0 generalizing y1 with
  | zero =>
    unfold logFlushN
    exact hG
  | succ n ih =>
    unfold logFlushN
    repeat' (first | with_reducible assumption | with_reducible refine ih ?_ | with_reducible refine good_logPageWrite ?_ | with_reducible refine good_if ?_ (fun _ => ?_) | dsimp only | split)

theorem good_logFlush {q : List Instr} {s : State} (hG : Good q s) :
    Good q (logFlush s) := by
  unfold logFlush
  repeat' (first | with_reducible assumption | with_reducible refine good_logFlushN ?_ | with_reducible refine good_if ?_ (fun _ => ?_) | dsimp only | split)

theorem good_lifetimeWrite {q : List Instr} {s : State} (hG : Good q s) :
    Good q (lifetimeWrite s) := by
  unfold lifetimeWrite
  repeat' (first | with_reducible assumption | with_reducible refine good_lifeSet ?_ | with_reducible refine good_setLifeWord ?_ | with_reducible refine good_nvmPages ?_ | with_reducible refine good_upd_ ?_ | with_reducible refine good_if ?_ (fun _ => ?_) | dsimp only | split | with_reducible refine good_upd ?_ rfl rfl rfl)

theorem good_stressCluster {q : List Instr} {s : State} {g : Nat} (hG : Good q s) :
    Good q (stressCluster s g) := by
  unfold stressCluster
  repeat' (first | with_reducible assumption | with_reducible refine good_lifeCount ?_ | with_reducible refine good_if ?_ (fun _ => ?_) | dsimp only | split | with_reducible refine good_upd ?_ rfl rfl rfl)

theorem good_stackDay {q : List Instr} {s : State} {k : Nat} (hG : Good q s) :
    Good q (stackDay s k) := by
  unfold stackDay
  repeat' (first | with_reducible assumption | with_reducible refine good_lifeSet ?_ | with_reducible refine good_if ?_ (fun _ => ?_) | with_reducible refine good_foldl ?_ (fun _ _ _ => ?_) | with_reducible refine good_foldl_snd ?_ (fun _ _ _ => ?_) | with_reducible refine good_foldl_fst ?_ (fun _ _ _ => ?_) | with_reducible refine good_if_snd ?_ (fun _ => ?_) | with_reducible refine good_if_fst ?_ (fun _ => ?_) | dsimp only | split)

theorem good_lifeRefresh {q : List Instr} {s : State} (hG : Good q s) : Good q (lifeRefresh s) := by
  unfold lifeRefresh
  refine good_regs hG ?_
  have h : ∀ (l : List Nat) (r : Table Reg), twf regReset r = true →
      twf regReset (l.foldl (fun r i => tset regReset (lifPage i) (lifeWord s i) r) r) = true := by
    intro l
    induction l with
    | nil => exact fun _ h => h
    | cons i l ih => exact fun r h => ih _ (twf_tset _ _ _ _ h)
  exact h _ _ hG.inv.regs

theorem good_noteBreach {q : List Instr} {s : State} {x : Nat × Bool} (hG : Good q s) :
    Good q (noteBreach s x) := by
  unfold noteBreach
  repeat' (first | with_reducible assumption | with_reducible refine good_upd_ ?_ | with_reducible refine good_logOpen ?_ | with_reducible refine good_satAdd ?_ | with_reducible refine good_if ?_ (fun _ => ?_) | dsimp only | split)

theorem good_snapCopy {q : List Instr} {s : State} (hG : Good q s) :
    Good q (snapCopy s) := by
  unfold snapCopy
  repeat' (first | with_reducible assumption | with_reducible refine good_put ?_ _ _ | with_reducible refine good_if ?_ (fun _ => ?_) | with_reducible refine good_foldl ?_ (fun _ _ _ => ?_) | with_reducible refine good_foldl_snd ?_ (fun _ _ _ => ?_) | with_reducible refine good_foldl_fst ?_ (fun _ _ _ => ?_) | with_reducible refine good_if_snd ?_ (fun _ => ?_) | with_reducible refine good_if_fst ?_ (fun _ => ?_) | dsimp only | split)

theorem good_ledgerSnapshot {q : List Instr} {s : State} (hG : Good q s) :
    Good q (ledgerSnapshot s) := by
  unfold ledgerSnapshot
  repeat' (first | with_reducible assumption | with_reducible refine good_snapCopy ?_ | with_reducible refine good_addR ?_ | with_reducible refine good_put ?_ _ _ | with_reducible refine good_noteBreach ?_ | with_reducible refine good_if ?_ (fun _ => ?_) | with_reducible refine good_foldl ?_ (fun _ _ _ => ?_) | with_reducible refine good_foldl_snd ?_ (fun _ _ _ => ?_) | with_reducible refine good_foldl_fst ?_ (fun _ _ _ => ?_) | with_reducible refine good_if_snd ?_ (fun _ => ?_) | with_reducible refine good_if_fst ?_ (fun _ => ?_) | dsimp only | split)

theorem good_execLogPageWrite {q : List Instr} {s : State} (hG : Good q s) :
    ∃ w, execLogPageWrite s = .next w ∧ Good q w := by
  refine ⟨_, rfl, ?_⟩
  repeat' (first | with_reducible assumption | with_reducible refine good_powered ?_ (fun _ _ => ?_) | with_reducible refine good_logPageWrite ?_ | with_reducible refine good_if ?_ (fun _ => ?_) | dsimp only | split)

theorem good_execLifetimeWrite {q : List Instr} {s : State} (hG : Good q s) :
    ∃ w, execLifetimeWrite s = .next w ∧ Good q w := by
  refine ⟨_, rfl, ?_⟩
  repeat' (first | with_reducible assumption | with_reducible refine good_powered ?_ (fun _ _ => ?_) | with_reducible refine good_lifetimeWrite ?_ | with_reducible refine good_if ?_ (fun _ => ?_) | dsimp only | split)

theorem good_lifStatWrite {q : List Instr} {s : State} {v : Nat} (hG : Good q s) :
    Good q (lifStatWrite v s) := by
  unfold lifStatWrite
  repeat' (first | with_reducible assumption | with_reducible refine good_lifetimeWrite ?_ | with_reducible refine good_if ?_ (fun _ => ?_) | dsimp only | split)

theorem good_execLifetimePersist {q : List Instr} {s : State} {m : Master} {v : Nat} (hG : Good q s) :
    ∃ w, execLifetimePersist m v s = .next w ∧ Good q w := by
  refine ⟨_, rfl, ?_⟩
  repeat' (first | with_reducible assumption | with_reducible refine good_powered ?_ (fun _ _ => ?_) | with_reducible refine good_asOwner ?_ (fun _ _ => ?_) | with_reducible refine good_lifStatWrite ?_ | with_reducible refine good_if ?_ (fun _ => ?_) | dsimp only | split)

theorem good_execStressTick {q : List Instr} {s : State} (hG : Good q s) :
    ∃ w, execStressTick s = .next w ∧ Good q w := by
  refine ⟨_, rfl, ?_⟩
  repeat' (first | with_reducible assumption | with_reducible refine good_powered ?_ (fun _ _ => ?_) | with_reducible refine good_stressCluster ?_ | with_reducible refine good_lifeCount ?_ | with_reducible refine good_stackDay ?_ | with_reducible refine good_upd_ ?_ | with_reducible refine good_lifeRefresh ?_ | with_reducible refine good_if ?_ (fun _ => ?_) | with_reducible refine good_foldl ?_ (fun _ _ _ => ?_) | with_reducible refine good_foldl_snd ?_ (fun _ _ _ => ?_) | with_reducible refine good_foldl_fst ?_ (fun _ _ _ => ?_) | with_reducible refine good_if_snd ?_ (fun _ => ?_) | with_reducible refine good_if_fst ?_ (fun _ => ?_) | dsimp only | split | with_reducible refine good_upd ?_ rfl rfl rfl)

end Sys2Proof.Machine
end

