-- ==== Sys2Proof/Laws/GoodHbm.lean ====
section
/-! SUPPORT. Every operation of Machine/Hbm.lean keeps a sound state sound. -/

namespace Sys2Proof.Machine

open Sys2Proof

theorem good_writeRetire {q : List Instr} {s : State} {changes : List (Nat × Nat)} (hG : Good q s) :
    Good q (writeRetire changes s) := by
  unfold writeRetire
  repeat' (first | with_reducible assumption | with_reducible refine good_nvmPages ?_ | with_reducible refine good_if ?_ (fun _ => ?_) | with_reducible refine good_foldl ?_ (fun _ _ _ => ?_) | with_reducible refine good_foldl_snd ?_ (fun _ _ _ => ?_) | with_reducible refine good_foldl_fst ?_ (fun _ _ _ => ?_) | with_reducible refine good_if_snd ?_ (fun _ => ?_) | with_reducible refine good_if_fst ?_ (fun _ => ?_) | dsimp only | split | with_reducible refine good_upd ?_ rfl rfl rfl)

theorem good_countSlices {q : List Instr} {s : State} (hG : Good q s) :
    Good q (countSlices s) := by
  unfold countSlices
  repeat' (first | with_reducible assumption | with_reducible refine good_upd_ ?_ | with_reducible refine good_if ?_ (fun _ => ?_) | dsimp only | split)

theorem good_setSlice {q : List Instr} {s : State} {n : Nat} {st : Nat} {cause : Nat} (hG : Good q s) :
    Good q (setSlice n st cause s) := by
  unfold setSlice
  repeat' (first | with_reducible assumption | with_reducible refine good_writeRetire ?_ | with_reducible refine good_countSlices ?_ | with_reducible refine good_upd_ ?_ | with_reducible refine good_logCoded ?_ | with_reducible refine good_if ?_ (fun _ => ?_) | dsimp only | split)

theorem good_setBurst {q : List Instr} {s : State} {b : Nat} {e : BurstErr} (hG : Good q s) :
    Good q (setBurst b e s) := by
  unfold setBurst
  repeat' (first | with_reducible assumption | with_reducible refine good_if ?_ (fun _ => ?_) | dsimp only | split | with_reducible refine good_upd ?_ rfl rfl rfl)

theorem good_upsetBurst {q : List Instr} {s : State} {c : CellError} (hG : Good q s) :
    Good q (upsetBurst s c) := by
  unfold upsetBurst
  repeat' (first | with_reducible assumption | with_reducible refine good_setBurst ?_ | with_reducible refine good_if ?_ (fun _ => ?_) | dsimp only | split)

theorem good_noteCorrected {q : List Instr} {s : State} {a : Nat} (hG : Good q s) :
    Good q (noteCorrected a s) := by
  unfold noteCorrected
  repeat' (first | with_reducible assumption | with_reducible refine good_satAdd ?_ | with_reducible refine good_lifeCount ?_ | with_reducible refine good_upd_ ?_ | with_reducible refine good_setSlice ?_ | with_reducible refine good_if ?_ (fun _ => ?_) | dsimp only | split | with_reducible refine good_upd ?_ rfl rfl rfl)

theorem good_noteUncorrectable {q : List Instr} {s : State} {b : Nat} (hG : Good q s) :
    Good q (noteUncorrectable b s) := by
  unfold noteUncorrectable
  repeat' (first | with_reducible assumption | with_reducible refine good_satAdd ?_ | with_reducible refine good_logOpen ?_ | with_reducible refine good_lifeCount ?_ | with_reducible refine good_setSlice ?_ | with_reducible refine good_if ?_ (fun _ => ?_) | dsimp only | split)

theorem good_rewriteBurst {q : List Instr} {s : State} {e : Nat × BurstErr} (hG : Good q s) :
    Good q (rewriteBurst s e) := by
  unfold rewriteBurst
  repeat' (first | with_reducible assumption | with_reducible refine good_freeNat ?_ | with_reducible refine good_setBurst ?_ | with_reducible refine good_if ?_ (fun _ => ?_) | dsimp only | split)

theorem good_readBurst {q : List Instr} {s : State} {e : Nat × BurstErr} (hG : Good q s) :
    Good q (readBurst s e) := by
  unfold readBurst
  repeat' (first | with_reducible assumption | with_reducible refine good_rewriteBurst ?_ | with_reducible refine good_hbmWrite ?_ _ _ | with_reducible refine good_noteCorrected ?_ | with_reducible refine good_noteUncorrectable ?_ | with_reducible refine good_if ?_ (fun _ => ?_) | dsimp only | split)

theorem good_hbmTouch {q : List Instr} {s : State} {a : Nat} {n : Nat} (hG : Good q s) :
    Good q (hbmTouch a n s).2 := by
  unfold hbmTouch
  repeat' (first | with_reducible assumption | with_reducible refine good_readBurst ?_ | with_reducible refine good_if ?_ (fun _ => ?_) | with_reducible refine good_foldl ?_ (fun _ _ _ => ?_) | with_reducible refine good_foldl_snd ?_ (fun _ _ _ => ?_) | with_reducible refine good_foldl_fst ?_ (fun _ _ _ => ?_) | with_reducible refine good_if_snd ?_ (fun _ => ?_) | with_reducible refine good_if_fst ?_ (fun _ => ?_) | dsimp only | split)

theorem good_storeAnyway {q : List Instr} {s : State} {a : Nat} {bs : List Byte} (hG : Good q s) :
    Good q (storeAnyway a bs s) := by
  unfold storeAnyway
  repeat' (first | with_reducible assumption | with_reducible refine good_hbmWrite ?_ _ _ | with_reducible refine good_rewriteBurst ?_ | with_reducible refine good_if ?_ (fun _ => ?_) | with_reducible refine good_foldl ?_ (fun _ _ _ => ?_) | with_reducible refine good_foldl_snd ?_ (fun _ _ _ => ?_) | with_reducible refine good_foldl_fst ?_ (fun _ _ _ => ?_) | with_reducible refine good_if_snd ?_ (fun _ => ?_) | with_reducible refine good_if_fst ?_ (fun _ => ?_) | dsimp only | split)

theorem good_storeBlock {q : List Instr} {s : State} {a : Nat} {bs : List Byte} (hG : Good q s) :
    Good q (storeBlock a bs s) := by
  unfold storeBlock
  repeat' (first | with_reducible assumption | with_reducible refine good_storeAnyway ?_ | with_reducible refine good_if ?_ (fun _ => ?_) | dsimp only | split)

theorem good_storeBlocks {q : List Instr} {y3 : State} {y0 : Nat} {y1 : Nat} {y2 : List Byte} (hG : Good q y3) :
    Good q (storeBlocks y0 y1 y2 y3) := by
  induction y0 generalizing y3 y1 y2 with
  | zero =>
    unfold storeBlocks
    exact hG
  | succ n ih =>
    unfold storeBlocks
    repeat' (first | with_reducible assumption | with_reducible refine ih ?_ | with_reducible refine good_storeBlock ?_ | with_reducible refine good_if ?_ (fun _ => ?_) | dsimp only | split)

theorem good_hbmStore {q : List Instr} {s : State} {a : Nat} {bs : List Byte} (hG : Good q s) :
    Good q (hbmStore a bs s) := by
  unfold hbmStore
  repeat' (first | with_reducible assumption | with_reducible refine good_storeBlocks ?_ | with_reducible refine good_if ?_ (fun _ => ?_) | dsimp only | split)

theorem good_clearErrs {q : List Instr} {s : State} {a : Nat} {n : Nat} (hG : Good q s) :
    Good q (clearErrs a n s) := by
  unfold clearErrs
  repeat' (first | with_reducible assumption | with_reducible refine good_rewriteBurst ?_ | with_reducible refine good_if ?_ (fun _ => ?_) | with_reducible refine good_foldl ?_ (fun _ _ _ => ?_) | with_reducible refine good_foldl_snd ?_ (fun _ _ _ => ?_) | with_reducible refine good_foldl_fst ?_ (fun _ _ _ => ?_) | with_reducible refine good_if_snd ?_ (fun _ => ?_) | with_reducible refine good_if_fst ?_ (fun _ => ?_) | dsimp only | split)

theorem good_copyRange {q : List Instr} {s : State} {src dst n : Nat} (hG : Good q s) : Good q (copyRange src dst n s) := by
  unfold copyRange
  exact good_clearErrs (good_hbm hG (wf_move _ _ _ _ hG.inv.hbm))

theorem good_hbmCopy {q : List Instr} {s : State} {src : Nat} {dst : Nat} {n : Nat} (hG : Good q s) :
    Good q (hbmCopy src dst n s) := by
  unfold hbmCopy
  repeat' (first | with_reducible assumption | with_reducible refine good_copyRange ?_ | with_reducible refine good_if ?_ (fun _ => ?_) | with_reducible refine good_foldl ?_ (fun _ _ _ => ?_) | with_reducible refine good_foldl_snd ?_ (fun _ _ _ => ?_) | with_reducible refine good_foldl_fst ?_ (fun _ _ _ => ?_) | with_reducible refine good_if_snd ?_ (fun _ => ?_) | with_reducible refine good_if_fst ?_ (fun _ => ?_) | dsimp only | split)

theorem good_spoilBurst {q : List Instr} {s : State} {b : Nat} (hG : Good q s) :
    Good q (spoilBurst s b) := by
  unfold spoilBurst
  repeat' (first | with_reducible assumption | with_reducible refine good_freeNat ?_ | with_reducible refine good_hbmWrite ?_ _ _ | with_reducible refine good_if ?_ (fun _ => ?_) | dsimp only | split)

theorem good_withRange {q : List Instr} {s : State} {a n : Nat} {f : State → State} (hG : Good q s)
    (hf : ∀ x, Good q x → Good q (f x)) : Good q (withRange a n f s) := by
  have h := good_hbmTouch (a := a) (n := n) hG
  unfold withRange
  dsimp only
  split
  · exact hf _ h
  · exact good_hbm (hf _ (good_foldl h fun _ _ h => good_spoilBurst h)) h.inv.hbm

theorem good_hbmFieldLost {q : List Instr} {s : State} {f : Nat} (hG : Good q s) :
    Good q (hbmFieldLost f s) := by
  unfold hbmFieldLost
  repeat' (first | with_reducible assumption | with_reducible refine good_setSlice ?_ | with_reducible refine good_if ?_ (fun _ => ?_) | with_reducible refine good_foldl ?_ (fun _ _ _ => ?_) | with_reducible refine good_foldl_snd ?_ (fun _ _ _ => ?_) | with_reducible refine good_foldl_fst ?_ (fun _ _ _ => ?_) | with_reducible refine good_if_snd ?_ (fun _ => ?_) | with_reducible refine good_if_fst ?_ (fun _ => ?_) | dsimp only | split)

end Sys2Proof.Machine
end

