-- ==== Sys2Proof/Laws/GoodImage.lean ====
section
/-! SUPPORT. Every operation of Machine/Image.lean keeps a sound state sound. -/

namespace Sys2Proof.Machine

open Sys2Proof

theorem good_setSlotState {q : List Instr} {s : State} {i : Nat} {v : Nat} (hG : Good q s) :
    Good q (setSlotState i v s) := by
  unfold setSlotState
  repeat' (first | with_reducible assumption | with_reducible refine good_upd_ ?_ | with_reducible refine good_if ?_ (fun _ => ?_) | dsimp only | split)

theorem good_setSlotResult {q : List Instr} {s : State} {i : Nat} {r : Nat} (hG : Good q s) :
    Good q (setSlotResult i r s) := by
  unfold setSlotResult
  repeat' (first | with_reducible assumption | with_reducible refine good_upd_ ?_ | with_reducible refine good_if ?_ (fun _ => ?_) | dsimp only | split)

end Sys2Proof.Machine
end

