-- ==== Sys2Proof/Laws/GoodRequests.lean ====
section
/-! SUPPORT. Every operation of Machine/Requests.lean keeps a sound state sound. -/

namespace Sys2Proof.Machine

open Sys2Proof

theorem good_mapReqs {q : List Instr} {s : State} {f : Request → Request} (hG : Good q s) :
    Good q (mapReqs f s) := by
  unfold mapReqs
  repeat' (first | with_reducible assumption | with_reducible refine good_if ?_ (fun _ => ?_) | dsimp only | split | with_reducible refine good_upd ?_ rfl rfl rfl)

theorem good_updReq {q : List Instr} {s : State} {id : Nat} {f : Request → Request} (hG : Good q s) :
    Good q (updReq id f s) := by
  unfold updReq
  repeat' (first | with_reducible assumption | with_reducible refine good_mapReqs ?_ | with_reducible refine good_if ?_ (fun _ => ?_) | dsimp only | split)

theorem good_refreshReady {q : List Instr} {s : State} (hG : Good q s) :
    Good q (refreshReady s) := by
  unfold refreshReady
  repeat' (first | with_reducible assumption | with_reducible refine good_mapReqs ?_ | with_reducible refine good_if ?_ (fun _ => ?_) | dsimp only | split)

theorem good_finishReq {q : List Instr} {s : State} {id : Nat} {st : Nat} (hG : Good q s) :
    Good q (finishReq id st s) := by
  unfold finishReq
  repeat' (first | with_reducible assumption | with_reducible refine good_updReq ?_ | with_reducible refine good_logEvent ?_ | with_reducible refine good_if ?_ (fun _ => ?_) | dsimp only | split | with_reducible refine good_upd ?_ rfl rfl rfl)

theorem good_chunkFail {q : List Instr} {s : State} {id : Nat} {cause : Nat} {detail : Nat} (hG : Good q s) :
    Good q (chunkFail id cause detail s) := by
  unfold chunkFail
  repeat' (first | with_reducible assumption | with_reducible refine good_updReq ?_ | with_reducible refine good_refreshReady ?_ | with_reducible refine good_finishReq ?_ | with_reducible refine good_if ?_ (fun _ => ?_) | dsimp only | split)

theorem good_chunkDone {q : List Instr} {s : State} {id : Nat} (hG : Good q s) :
    Good q (chunkDone id s) := by
  unfold chunkDone
  repeat' (first | with_reducible assumption | with_reducible refine good_updReq ?_ | with_reducible refine good_refreshReady ?_ | with_reducible refine good_finishReq ?_ | with_reducible refine good_if ?_ (fun _ => ?_) | dsimp only | split)

theorem good_batchDrop {q : List Instr} {s : State} {ids : List Nat} (hG : Good q s) :
    Good q (batchDrop ids s) := by
  unfold batchDrop
  repeat' (first | with_reducible assumption | with_reducible refine good_if ?_ (fun _ => ?_) | dsimp only | split | with_reducible refine good_upd ?_ rfl rfl rfl)

theorem good_batchFail {q : List Instr} {s : State} {status : Nat} {_object : Nat} {detail : Nat} (hG : Good q s) :
    Good q (batchFail status _object detail s) := by
  unfold batchFail
  repeat' (first | with_reducible assumption | with_reducible refine good_put ?_ _ _ | with_reducible refine good_addR ?_ | with_reducible refine good_chunkFail ?_ | with_reducible refine good_if ?_ (fun _ => ?_) | with_reducible refine good_foldl ?_ (fun _ _ _ => ?_) | with_reducible refine good_foldl_snd ?_ (fun _ _ _ => ?_) | with_reducible refine good_foldl_fst ?_ (fun _ _ _ => ?_) | with_reducible refine good_if_snd ?_ (fun _ => ?_) | with_reducible refine good_if_fst ?_ (fun _ => ?_) | dsimp only | split | with_reducible refine good_upd ?_ rfl rfl rfl)

theorem good_abandonExecuting {q : List Instr} {s : State} (hG : Good q s) :
    Good q (abandonExecuting s) := by
  unfold abandonExecuting
  repeat' (first | with_reducible assumption | with_reducible refine good_put ?_ _ _ | with_reducible refine good_addR ?_ | with_reducible refine good_finishReq ?_ | with_reducible refine good_updReq ?_ | with_reducible refine good_refreshReady ?_ | with_reducible refine good_if ?_ (fun _ => ?_) | with_reducible refine good_foldl ?_ (fun _ _ _ => ?_) | with_reducible refine good_foldl_snd ?_ (fun _ _ _ => ?_) | with_reducible refine good_foldl_fst ?_ (fun _ _ _ => ?_) | with_reducible refine good_if_snd ?_ (fun _ => ?_) | with_reducible refine good_if_fst ?_ (fun _ => ?_) | dsimp only | split | with_reducible refine good_upd ?_ rfl rfl rfl)

theorem good_markRemapped {q : List Instr} {s : State} (hG : Good q s) :
    Good q (markRemapped s) := by
  unfold markRemapped
  repeat' (first | with_reducible assumption | with_reducible refine good_mapReqs ?_ | with_reducible refine good_if ?_ (fun _ => ?_) | dsimp only | split)

theorem good_seasonLost {q : List Instr} {s : State} (hG : Good q s) :
    Good q (seasonLost s) := by
  unfold seasonLost
  repeat' (first | with_reducible assumption | with_reducible refine good_chunkFail ?_ | with_reducible refine good_if ?_ (fun _ => ?_) | with_reducible refine good_foldl ?_ (fun _ _ _ => ?_) | with_reducible refine good_foldl_snd ?_ (fun _ _ _ => ?_) | with_reducible refine good_foldl_fst ?_ (fun _ _ _ => ?_) | with_reducible refine good_if_snd ?_ (fun _ => ?_) | with_reducible refine good_if_fst ?_ (fun _ => ?_) | dsimp only | split)

theorem good_setCqHeld {q : List Instr} {s : State} {h : Nat} {z1 : Nat} {l : List Nat} (hG : Good q s) :
    Good q (setCqHeld h z1 l s) := by
  unfold setCqHeld
  repeat' (first | with_reducible assumption | with_reducible refine good_upd_ ?_ | with_reducible refine good_if ?_ (fun _ => ?_) | dsimp only | split | with_reducible refine good_upd ?_ rfl rfl rfl)

theorem good_setUnsignalled {q : List Instr} {s : State} {h : Nat} {z1 : Nat} {v : Bool} (hG : Good q s) :
    Good q (setUnsignalled h z1 v s) := by
  unfold setUnsignalled
  repeat' (first | with_reducible assumption | with_reducible refine good_if ?_ (fun _ => ?_) | dsimp only | split | with_reducible refine good_upd ?_ rfl rfl rfl)

theorem good_ringWrite {q : List Instr} {s : State} {r : Request} (hG : Good q s) :
    Good q (ringWrite r s) := by
  unfold ringWrite
  repeat' (first | with_reducible assumption | with_reducible refine good_hbmStore ?_ | with_reducible refine good_upd_ ?_ | with_reducible refine good_addR ?_ | with_reducible refine good_setUnsignalled ?_ | with_reducible refine good_if ?_ (fun _ => ?_) | dsimp only | split | with_reducible refine good_upd ?_ rfl rfl rfl)

theorem good_countProduced {q : List Instr} {s : State} {r : Request} (hG : Good q s) :
    Good q (countProduced r s) := by
  unfold countProduced
  repeat' (first | with_reducible assumption | with_reducible refine good_addR ?_ | with_reducible refine good_subR ?_ | with_reducible refine good_if ?_ (fun _ => ?_) | dsimp only | split)

theorem good_fencesDue {q : List Instr} {s : State} (hG : Good q s) :
    Good q (fencesDue s) := by
  unfold fencesDue
  repeat' (first | with_reducible assumption | with_reducible refine good_finishReq ?_ | with_reducible refine good_if ?_ (fun _ => ?_) | with_reducible refine good_foldl ?_ (fun _ _ _ => ?_) | with_reducible refine good_foldl_snd ?_ (fun _ _ _ => ?_) | with_reducible refine good_foldl_fst ?_ (fun _ _ _ => ?_) | with_reducible refine good_if_snd ?_ (fun _ => ?_) | with_reducible refine good_if_fst ?_ (fun _ => ?_) | dsimp only | split)

theorem good_closeHead {q : List Instr} {s : State} {h : Nat} (hG : Good q s) :
    Good q (closeHead h s) := by
  unfold closeHead
  repeat' (first | with_reducible assumption | with_reducible refine good_upd_ ?_ | with_reducible refine good_if ?_ (fun _ => ?_) | with_reducible refine good_foldl ?_ (fun _ _ _ => ?_) | with_reducible refine good_foldl_snd ?_ (fun _ _ _ => ?_) | with_reducible refine good_foldl_fst ?_ (fun _ _ _ => ?_) | with_reducible refine good_if_snd ?_ (fun _ => ?_) | with_reducible refine good_if_fst ?_ (fun _ => ?_) | dsimp only | split | with_reducible refine good_upd ?_ rfl rfl rfl)

theorem good_produce {q : List Instr} {s : State} {r : Request} (hG : Good q s) :
    Good q (produce r s) := by
  unfold produce
  repeat' (first | with_reducible assumption | with_reducible refine good_countProduced ?_ | with_reducible refine good_setCqHeld ?_ | with_reducible refine good_raiseEvent ?_ | with_reducible refine good_addR ?_ | with_reducible refine good_ringWrite ?_ | with_reducible refine good_refreshReady ?_ | with_reducible refine good_closeHead ?_ | with_reducible refine good_fencesDue ?_ | with_reducible refine good_if ?_ (fun _ => ?_) | dsimp only | split | with_reducible refine good_upd ?_ rfl rfl rfl)

theorem good_drainHeld {q : List Instr} {y3 : State} {h : Nat} {z1 : Nat} {y2 : Nat} (hG : Good q y3) :
    Good q (drainHeld h z1 y2 y3) := by
  induction y2 generalizing y3 with
  | zero =>
    unfold drainHeld
    exact hG
  | succ n ih =>
    unfold drainHeld
    repeat' (first | with_reducible assumption | with_reducible refine ih ?_ | with_reducible refine good_setCqHeld ?_ | with_reducible refine good_subR ?_ | with_reducible refine good_ringWrite ?_ | with_reducible refine good_if ?_ (fun _ => ?_) | dsimp only | split)

end Sys2Proof.Machine
end

