-- ==== Sys2Proof/Laws/GoodHost.lean ====
section
/-! SUPPORT. Every operation of Machine/Host.lean keeps a sound state sound. -/

namespace Sys2Proof.Machine

open Sys2Proof

theorem good_answer {q : List Instr} {s : State} {a : Answer} (hG : Good q s) :
    Good q (answer a s) := by
  unfold answer
  repeat' (first | with_reducible assumption | with_reducible refine good_if ?_ (fun _ => ?_) | dsimp only | split | with_reducible refine good_upd ?_ rfl rfl rfl)

theorem good_sqCfgApply {q : List Instr} {s : State} {h : Nat} {z1 : Nat} {new : Reg} (hG : Good q s) :
    Good q (sqCfgApply h z1 new s) := by
  unfold sqCfgApply
  repeat' (first | with_reducible assumption | with_reducible refine good_put ?_ _ _ | with_reducible refine good_upd_ ?_ | with_reducible refine good_if ?_ (fun _ => ?_) | dsimp only | split)

theorem good_cqCfgApply {q : List Instr} {s : State} {h : Nat} {z1 : Nat} {new : Reg} (hG : Good q s) :
    Good q (cqCfgApply h z1 new s) := by
  unfold cqCfgApply
  repeat' (first | with_reducible assumption | with_reducible refine good_put ?_ _ _ | with_reducible refine good_upd_ ?_ | with_reducible refine good_if ?_ (fun _ => ?_) | dsimp only | split | with_reducible refine good_upd ?_ rfl rfl rfl)

theorem good_sqCfgWrite {q : List Instr} {s : State} {m : Master} {h : Nat} {z2 : Nat} {off : Nat} {width : Nat} {v : Nat} (hG : Good q s) :
    Good q (sqCfgWrite m h z2 off width v s) := by
  unfold sqCfgWrite
  repeat' (first | with_reducible assumption | with_reducible refine good_refusedWrite ?_ | with_reducible refine good_sqCfgApply ?_ | with_reducible refine good_if ?_ (fun _ => ?_) | dsimp only | split)

theorem good_cqCfgWrite {q : List Instr} {s : State} {m : Master} {h : Nat} {z2 : Nat} {off : Nat} {width : Nat} {v : Nat} (hG : Good q s) :
    Good q (cqCfgWrite m h z2 off width v s) := by
  unfold cqCfgWrite
  repeat' (first | with_reducible assumption | with_reducible refine good_refusedWrite ?_ | with_reducible refine good_cqCfgApply ?_ | with_reducible refine good_if ?_ (fun _ => ?_) | dsimp only | split)

theorem good_execSqCfgWrite {q : List Instr} {s : State} {m : Master} {h : Head} {z2 : QueueId} {half : Half} {v : Nat} (hG : Good q s) :
    ∃ w, execSqCfgWrite m h z2 half v s = .next w ∧ Good q w := by
  refine ⟨_, rfl, ?_⟩
  repeat' (first | with_reducible assumption | with_reducible refine good_powered ?_ (fun _ _ => ?_) | with_reducible refine good_asHead ?_ (fun _ _ => ?_) | with_reducible refine good_sqCfgWrite ?_ | with_reducible refine good_if ?_ (fun _ => ?_) | dsimp only | split)

theorem good_execCqCfgWrite {q : List Instr} {s : State} {m : Master} {h : Head} {z2 : QueueId} {half : Half} {v : Nat} (hG : Good q s) :
    ∃ w, execCqCfgWrite m h z2 half v s = .next w ∧ Good q w := by
  refine ⟨_, rfl, ?_⟩
  repeat' (first | with_reducible assumption | with_reducible refine good_powered ?_ (fun _ _ => ?_) | with_reducible refine good_asHead ?_ (fun _ _ => ?_) | with_reducible refine good_cqCfgWrite ?_ | with_reducible refine good_if ?_ (fun _ => ?_) | dsimp only | split)

theorem good_dbErr {q : List Instr} {s : State} {h : Nat} {off : Nat} {f : Fld} (hG : Good q s) :
    Good q (dbErr h off f s) := by
  unfold dbErr
  repeat' (first | with_reducible assumption | with_reducible refine good_raiseEvent ?_ | with_reducible refine good_upd_ ?_ | with_reducible refine good_if ?_ (fun _ => ?_) | dsimp only | split)

theorem good_sqDoorbell {q : List Instr} {s : State} {h : Nat} {z1 : Nat} {tail : Nat} (hG : Good q s) :
    Good q (sqDoorbell h z1 tail s) := by
  unfold sqDoorbell
  repeat' (first | with_reducible assumption | with_reducible refine good_dbErr ?_ | with_reducible refine good_upd_ ?_ | with_reducible refine good_if ?_ (fun _ => ?_) | dsimp only | split)

theorem good_cqDoorbell {q : List Instr} {s : State} {h : Nat} {z1 : Nat} {head : Nat} (hG : Good q s) :
    Good q (cqDoorbell h z1 head s) := by
  unfold cqDoorbell
  repeat' (first | with_reducible assumption | with_reducible refine good_dbErr ?_ | with_reducible refine good_refreshReady ?_ | with_reducible refine good_closeHead ?_ | with_reducible refine good_fencesDue ?_ | with_reducible refine good_drainHeld ?_ | with_reducible refine good_if ?_ (fun _ => ?_) | dsimp only | split | with_reducible refine good_upd ?_ rfl rfl rfl)

theorem good_execSqDoorbell {q : List Instr} {s : State} {m : Master} {h : Head} {z2 : QueueId} {tail : Nat} (hG : Good q s) :
    ∃ w, execSqDoorbell m h z2 tail s = .next w ∧ Good q w := by
  refine ⟨_, rfl, ?_⟩
  repeat' (first | with_reducible assumption | with_reducible refine good_powered ?_ (fun _ _ => ?_) | with_reducible refine good_asHead ?_ (fun _ _ => ?_) | with_reducible refine good_sqDoorbell ?_ | with_reducible refine good_if ?_ (fun _ => ?_) | dsimp only | split)

theorem good_execCqDoorbell {q : List Instr} {s : State} {m : Master} {h : Head} {z2 : QueueId} {head : Nat} (hG : Good q s) :
    ∃ w, execCqDoorbell m h z2 head s = .next w ∧ Good q w := by
  refine ⟨_, rfl, ?_⟩
  repeat' (first | with_reducible assumption | with_reducible refine good_powered ?_ (fun _ _ => ?_) | with_reducible refine good_asHead ?_ (fun _ _ => ?_) | with_reducible refine good_cqDoorbell ?_ | with_reducible refine good_if ?_ (fun _ => ?_) | dsimp only | split)

theorem good_execMsixSignal {q : List Instr} {s : State} {h : Head} {z1 : QueueId} (hG : Good q s) :
    ∃ w, execMsixSignal h z1 s = .next w ∧ Good q w := by
  refine ⟨_, rfl, ?_⟩
  repeat' (first | with_reducible assumption | with_reducible refine good_powered ?_ (fun _ _ => ?_) | with_reducible refine good_signalVector ?_ | with_reducible refine good_setUnsignalled ?_ | with_reducible refine good_if ?_ (fun _ => ?_) | dsimp only | split | with_reducible refine good_upd ?_ rfl rfl rfl)

theorem good_headRangeWrite {q : List Instr} {s : State} {m : Master} {h : Nat} {v : Nat} (hG : Good q s) :
    Good q (headRangeWrite m h v s) := by
  unfold headRangeWrite
  repeat' (first | with_reducible assumption | with_reducible refine good_refusedWrite ?_ | with_reducible refine good_put ?_ _ _ | with_reducible refine good_if ?_ (fun _ => ?_) | dsimp only | split)

theorem good_execOwnHeadRangeWrite {q : List Instr} {s : State} {m : Master} {h : Head} {v : Nat} (hG : Good q s) :
    ∃ w, execOwnHeadRangeWrite m h v s = .next w ∧ Good q w := by
  refine ⟨_, rfl, ?_⟩
  repeat' (first | with_reducible assumption | with_reducible refine good_powered ?_ (fun _ _ => ?_) | with_reducible refine good_asOwner ?_ (fun _ _ => ?_) | with_reducible refine good_headRangeWrite ?_ | with_reducible refine good_if ?_ (fun _ => ?_) | dsimp only | split)

theorem good_execHdmCommit {q : List Instr} {s : State} {h : Head} {d : Fin 4} {size : Nat} {skip : Nat} (hG : Good q s) :
    ∃ w, execHdmCommit h d size skip s = .next w ∧ Good q w := by
  refine ⟨_, rfl, ?_⟩
  repeat' (first | with_reducible assumption | with_reducible refine good_powered ?_ (fun _ _ => ?_) | with_reducible refine good_answer ?_ | with_reducible refine good_upd_ ?_ | with_reducible refine good_if ?_ (fun _ => ?_) | dsimp only | split | with_reducible refine good_upd ?_ rfl rfl rfl)

theorem good_execCxlMemRead {q : List Instr} {s : State} {h : Head} {dpa : Nat} (hG : Good q s) :
    ∃ w, execCxlMemRead h dpa s = .next w ∧ Good q w := by
  refine ⟨_, rfl, ?_⟩
  repeat' (first | with_reducible assumption | with_reducible refine good_powered ?_ (fun _ _ => ?_) | with_reducible refine good_answer ?_ | with_reducible refine good_hbmTouch ?_ | with_reducible refine good_if ?_ (fun _ => ?_) | dsimp only | split)

theorem good_execCxlMemWrite {q : List Instr} {s : State} {h : Head} {dpa : Nat} {data : List Byte} {poison : Bool} (hG : Good q s) :
    ∃ w, execCxlMemWrite h dpa data poison s = .next w ∧ Good q w := by
  refine ⟨_, rfl, ?_⟩
  repeat' (first | with_reducible assumption | with_reducible refine good_powered ?_ (fun _ _ => ?_) | with_reducible refine good_answer ?_ | with_reducible refine good_logOpen ?_ | with_reducible refine good_hbmStore ?_ | with_reducible refine good_setBurst ?_ | with_reducible refine good_if ?_ (fun _ => ?_) | dsimp only | split)

theorem good_spdmClose {q : List Instr} {s : State} {k : Nat} (hG : Good q s) :
    Good q (spdmClose k s) := by
  unfold spdmClose
  repeat' (first | with_reducible assumption | with_reducible refine good_if ?_ (fun _ => ?_) | dsimp only | split | with_reducible refine good_upd ?_ rfl rfl rfl)

theorem good_headDown {q : List Instr} {s : State} {h : Nat} (hG : Good q s) :
    Good q (headDown h s) := by
  unfold headDown
  repeat' (first | with_reducible assumption | with_reducible refine good_spdmClose ?_ | with_reducible refine good_put ?_ _ _ | with_reducible refine good_logOpen ?_ | with_reducible refine good_closeHead ?_ | with_reducible refine good_reholder ?_ | with_reducible refine good_if ?_ (fun _ => ?_) | with_reducible refine good_foldl ?_ (fun _ _ _ => ?_) | with_reducible refine good_foldl_snd ?_ (fun _ _ _ => ?_) | with_reducible refine good_foldl_fst ?_ (fun _ _ _ => ?_) | with_reducible refine good_if_snd ?_ (fun _ => ?_) | with_reducible refine good_if_fst ?_ (fun _ => ?_) | dsimp only | split | with_reducible refine good_upd ?_ rfl rfl rfl)

theorem good_execHeadLinkDown {q : List Instr} {s : State} {h : Head} (hG : Good q s) :
    ∃ w, execHeadLinkDown h s = .next w ∧ Good q w := by
  refine ⟨_, rfl, ?_⟩
  repeat' (first | with_reducible assumption | with_reducible refine good_powered ?_ (fun _ _ => ?_) | with_reducible refine good_headDown ?_ | with_reducible refine good_if ?_ (fun _ => ?_) | dsimp only | split)

theorem good_execHeadLinkUp {q : List Instr} {s : State} {h : Head} {x4 : Bool} {slow : Bool} (hG : Good q s) :
    ∃ w, execHeadLinkUp h x4 slow s = .next w ∧ Good q w := by
  refine ⟨_, rfl, ?_⟩
  repeat' (first | with_reducible assumption | with_reducible refine good_powered ?_ (fun _ _ => ?_) | with_reducible refine good_upd_ ?_ | with_reducible refine good_logOpen ?_ | with_reducible refine good_reholder ?_ | with_reducible refine good_if ?_ (fun _ => ?_) | dsimp only | split)

theorem good_execPerstAssert {q : List Instr} {s : State} {h : Head} {us : Nat} (hG : Good q s) :
    ∃ w, execPerstAssert h us s = .next w ∧ Good q w := by
  refine ⟨_, rfl, ?_⟩
  repeat' (first | with_reducible assumption | with_reducible refine good_powered ?_ (fun _ _ => ?_) | with_reducible refine good_headDown ?_ | with_reducible refine good_if ?_ (fun _ => ?_) | dsimp only | split | with_reducible refine good_upd ?_ rfl rfl rfl)

theorem good_execPerstDeassert {q : List Instr} {s : State} {h : Head} (hG : Good q s) :
    ∃ w, execPerstDeassert h s = .next w ∧ Good q w := by
  refine ⟨_, rfl, ?_⟩
  repeat' (first | with_reducible assumption | with_reducible refine good_powered ?_ (fun _ _ => ?_) | with_reducible refine good_if ?_ (fun _ => ?_) | dsimp only | split | with_reducible refine good_upd ?_ rfl rfl rfl)

theorem good_atHead {q : List Instr} {s : State} {h : Head} {f : State → State} (hG : Good q s) (hf : ∀ x0, Good q x0 → Good q (f x0)) :
    Good q (atHead h f s) := by
  unfold atHead
  repeat' (first | with_reducible assumption | with_reducible refine good_powered ?_ (fun _ _ => ?_) | with_reducible refine hf _ ?_ | with_reducible refine good_if ?_ (fun _ => ?_) | dsimp only | split)

theorem good_execIdentifyMemoryDevice {q : List Instr} {s : State} {h : Head} (hG : Good q s) :
    ∃ w, execIdentifyMemoryDevice h s = .next w ∧ Good q w := by
  refine ⟨_, rfl, ?_⟩
  repeat' (first | with_reducible assumption | with_reducible refine good_atHead ?_ (fun _ _ => ?_) | with_reducible refine good_answer ?_ | with_reducible refine good_if ?_ (fun _ => ?_) | dsimp only | split)

theorem good_execGetSupportedLogs {q : List Instr} {s : State} {h : Head} (hG : Good q s) :
    ∃ w, execGetSupportedLogs h s = .next w ∧ Good q w := by
  refine ⟨_, rfl, ?_⟩
  repeat' (first | with_reducible assumption | with_reducible refine good_atHead ?_ (fun _ _ => ?_) | with_reducible refine good_answer ?_ | with_reducible refine good_if ?_ (fun _ => ?_) | dsimp only | split)

theorem good_execGetLog {q : List Instr} {s : State} {h : Head} {uuid : Nat} (hG : Good q s) :
    ∃ w, execGetLog h uuid s = .next w ∧ Good q w := by
  refine ⟨_, rfl, ?_⟩
  repeat' (first | with_reducible assumption | with_reducible refine good_atHead ?_ (fun _ _ => ?_) | with_reducible refine good_answer ?_ | with_reducible refine good_if ?_ (fun _ => ?_) | dsimp only | split)

theorem good_execGetEventRecords {q : List Instr} {s : State} {h : Head} {log : CxlLog} (hG : Good q s) :
    ∃ w, execGetEventRecords h log s = .next w ∧ Good q w := by
  refine ⟨_, rfl, ?_⟩
  repeat' (first | with_reducible assumption | with_reducible refine good_atHead ?_ (fun _ _ => ?_) | with_reducible refine good_answer ?_ | with_reducible refine good_if ?_ (fun _ => ?_) | dsimp only | split)

theorem good_execClearEventRecords {q : List Instr} {s : State} {h : Head} {log : CxlLog} {seqs : List Nat} (hG : Good q s) :
    ∃ w, execClearEventRecords h log seqs s = .next w ∧ Good q w := by
  refine ⟨_, rfl, ?_⟩
  repeat' (first | with_reducible assumption | with_reducible refine good_atHead ?_ (fun _ _ => ?_) | with_reducible refine good_answer ?_ | with_reducible refine good_if ?_ (fun _ => ?_) | dsimp only | split | with_reducible refine good_upd ?_ rfl rfl rfl)

theorem good_execGetTimestamp {q : List Instr} {s : State} {h : Head} (hG : Good q s) :
    ∃ w, execGetTimestamp h s = .next w ∧ Good q w := by
  refine ⟨_, rfl, ?_⟩
  repeat' (first | with_reducible assumption | with_reducible refine good_atHead ?_ (fun _ _ => ?_) | with_reducible refine good_answer ?_ | with_reducible refine good_if ?_ (fun _ => ?_) | dsimp only | split)

theorem good_execGetHealthInfo {q : List Instr} {s : State} {h : Head} (hG : Good q s) :
    ∃ w, execGetHealthInfo h s = .next w ∧ Good q w := by
  refine ⟨_, rfl, ?_⟩
  repeat' (first | with_reducible assumption | with_reducible refine good_atHead ?_ (fun _ _ => ?_) | with_reducible refine good_answer ?_ | with_reducible refine good_if ?_ (fun _ => ?_) | dsimp only | split)

theorem good_execSetTimestamp {q : List Instr} {s : State} {h : Head} {_v : Nat} (hG : Good q s) :
    ∃ w, execSetTimestamp h _v s = .next w ∧ Good q w := by
  refine ⟨_, rfl, ?_⟩
  repeat' (first | with_reducible assumption | with_reducible refine good_atHead ?_ (fun _ _ => ?_) | with_reducible refine good_answer ?_ | with_reducible refine good_if ?_ (fun _ => ?_) | dsimp only | split)

theorem good_execMailboxUnsupported {q : List Instr} {s : State} {h : Head} {_opcode : Nat} (hG : Good q s) :
    ∃ w, execMailboxUnsupported h _opcode s = .next w ∧ Good q w := by
  refine ⟨_, rfl, ?_⟩
  repeat' (first | with_reducible assumption | with_reducible refine good_atHead ?_ (fun _ _ => ?_) | with_reducible refine good_answer ?_ | with_reducible refine good_if ?_ (fun _ => ?_) | dsimp only | split)

theorem good_execDoeDiscovery {q : List Instr} {s : State} {h : Head} {index : Nat} (hG : Good q s) :
    ∃ w, execDoeDiscovery h index s = .next w ∧ Good q w := by
  refine ⟨_, rfl, ?_⟩
  repeat' (first | with_reducible assumption | with_reducible refine good_atHead ?_ (fun _ _ => ?_) | with_reducible refine good_answer ?_ | with_reducible refine good_if ?_ (fun _ => ?_) | dsimp only | split)

theorem good_execCdatTableAccess {q : List Instr} {s : State} {h : Head} {entry : Nat} (hG : Good q s) :
    ∃ w, execCdatTableAccess h entry s = .next w ∧ Good q w := by
  refine ⟨_, rfl, ?_⟩
  repeat' (first | with_reducible assumption | with_reducible refine good_atHead ?_ (fun _ _ => ?_) | with_reducible refine good_answer ?_ | with_reducible refine good_if ?_ (fun _ => ?_) | dsimp only | split)

end Sys2Proof.Machine
end

