-- ==== Sys2Proof/Laws/GoodTileOps.lean ====
section
/-! SUPPORT. Every operation of Machine/TileOps.lean keeps a sound state sound. -/

namespace Sys2Proof.Machine

open Sys2Proof

theorem good_setTile {q : List Instr} {s : State} {t : Nat} {x : TileState} (hG : Good q s) :
    Good q (setTile t x s) := by
  unfold setTile
  repeat' (first | with_reducible assumption | with_reducible refine good_if ?_ (fun _ => ?_) | dsimp only | split | with_reducible refine good_upd ?_ rfl rfl rfl)

theorem good_updTile {q : List Instr} {s : State} {t : Nat} {f : TileState → TileState} (hG : Good q s) :
    Good q (updTile t f s) := by
  unfold updTile
  repeat' (first | with_reducible assumption | with_reducible refine good_setTile ?_ | with_reducible refine good_if ?_ (fun _ => ?_) | dsimp only | split)

theorem good_setTileSt {q : List Instr} {s : State} {t : Nat} {v : Nat} (hG : Good q s) :
    Good q (setTileSt t v s) := by
  unfold setTileSt
  repeat' (first | with_reducible assumption | with_reducible refine good_upd_ ?_ | with_reducible refine good_if ?_ (fun _ => ?_) | dsimp only | split)

theorem good_tileCount1 {q : List Instr} {s : State} {t : Nat} {off : Nat} {n : Nat} (hG : Good q s) :
    Good q (tileCount1 t off n s) := by
  unfold tileCount1
  repeat' (first | with_reducible assumption | with_reducible refine good_addR ?_ | with_reducible refine good_if ?_ (fun _ => ?_) | dsimp only | split)

theorem good_put128 {q : List Instr} {s : State} {off : Nat} {v : Nat} (hG : Good q s) :
    Good q (put128 off v s) := by
  unfold put128
  repeat' (first | with_reducible assumption | with_reducible refine good_put ?_ _ _ | with_reducible refine good_if ?_ (fun _ => ?_) | dsimp only | split)

theorem good_closeWindows {q : List Instr} {s : State} {ts : List Nat} (hG : Good q s) :
    Good q (closeWindows ts s) := by
  unfold closeWindows
  repeat' (first | with_reducible assumption | with_reducible refine good_addR ?_ | with_reducible refine good_subR ?_ | with_reducible refine good_put128 ?_ | with_reducible refine good_if ?_ (fun _ => ?_) | with_reducible refine good_foldl ?_ (fun _ _ _ => ?_) | with_reducible refine good_foldl_snd ?_ (fun _ _ _ => ?_) | with_reducible refine good_foldl_fst ?_ (fun _ _ _ => ?_) | with_reducible refine good_if_snd ?_ (fun _ => ?_) | with_reducible refine good_if_fst ?_ (fun _ => ?_) | dsimp only | split)

theorem good_clearTasks {q : List Instr} {s : State} {ts : List Nat} (hG : Good q s) :
    Good q (clearTasks ts s) := by
  unfold clearTasks
  repeat' (first | with_reducible assumption | with_reducible refine good_put128 ?_ | with_reducible refine good_if ?_ (fun _ => ?_) | with_reducible refine good_foldl ?_ (fun _ _ _ => ?_) | with_reducible refine good_foldl_snd ?_ (fun _ _ _ => ?_) | with_reducible refine good_foldl_fst ?_ (fun _ _ _ => ?_) | with_reducible refine good_if_snd ?_ (fun _ => ?_) | with_reducible refine good_if_fst ?_ (fun _ => ?_) | dsimp only | split)

theorem good_setEngine {q : List Instr} {s : State} {t : Nat} {e : Nat} {x : DmaEngine} (hG : Good q s) :
    Good q (setEngine t e x s) := by
  unfold setEngine
  repeat' (first | with_reducible assumption | with_reducible refine good_updTile ?_ | with_reducible refine good_if ?_ (fun _ => ?_) | dsimp only | split)

theorem good_reclaimReset {q : List Instr} {s : State} {n : Nat} (hG : Good q s) :
    Good q (reclaimReset n s) := by
  unfold reclaimReset
  repeat' (first | with_reducible assumption | with_reducible refine good_addR ?_ | with_reducible refine good_subR ?_ | with_reducible refine good_if ?_ (fun _ => ?_) | dsimp only | split)

theorem good_abandonEngines {q : List Instr} {s : State} {t : Nat} (hG : Good q s) :
    Good q (abandonEngines t s) := by
  unfold abandonEngines
  repeat' (first | with_reducible assumption | with_reducible refine good_satAdd ?_ | with_reducible refine good_logOpen ?_ | with_reducible refine good_setEngine ?_ | with_reducible refine good_reclaimReset ?_ | with_reducible refine good_if ?_ (fun _ => ?_) | with_reducible refine good_foldl ?_ (fun _ _ _ => ?_) | with_reducible refine good_foldl_snd ?_ (fun _ _ _ => ?_) | with_reducible refine good_foldl_fst ?_ (fun _ _ _ => ?_) | with_reducible refine good_if_snd ?_ (fun _ => ?_) | with_reducible refine good_if_fst ?_ (fun _ => ?_) | dsimp only | split)

theorem good_tileReset {q : List Instr} {s : State} {t : Nat} (hG : Good q s) :
    Good q (tileReset t s) := by
  unfold tileReset
  repeat' (first | with_reducible assumption | with_reducible refine good_abandonEngines ?_ | with_reducible refine good_setTile ?_ | with_reducible refine good_resetRegs ?_ _ _ | with_reducible refine good_if ?_ (fun _ => ?_) | dsimp only | split)

theorem good_tileLost {q : List Instr} {s : State} {t : Nat} (hG : Good q s) :
    Good q (tileLost t s) := by
  unfold tileLost
  repeat' (first | with_reducible assumption | with_reducible refine good_abandonEngines ?_ | with_reducible refine good_setTile ?_ | with_reducible refine good_satAdd ?_ | with_reducible refine good_if ?_ (fun _ => ?_) | dsimp only | split)

theorem good_tilesLost {q : List Instr} {s : State} {ts : List Nat} (hG : Good q s) :
    Good q (tilesLost ts s) := by
  unfold tilesLost
  repeat' (first | with_reducible assumption | with_reducible refine good_clearTasks ?_ | with_reducible refine good_closeWindows ?_ | with_reducible refine good_tileLost ?_ | with_reducible refine good_if ?_ (fun _ => ?_) | with_reducible refine good_foldl ?_ (fun _ _ _ => ?_) | with_reducible refine good_foldl_snd ?_ (fun _ _ _ => ?_) | with_reducible refine good_foldl_fst ?_ (fun _ _ _ => ?_) | with_reducible refine good_if_snd ?_ (fun _ => ?_) | with_reducible refine good_if_fst ?_ (fun _ => ?_) | dsimp only | split)

theorem good_stopTile {q : List Instr} {s : State} {t : Nat} (hG : Good q s) :
    Good q (stopTile t s) := by
  unfold stopTile
  repeat' (first | with_reducible assumption | with_reducible refine good_updTile ?_ | with_reducible refine good_upd_ ?_ | with_reducible refine good_setTileSt ?_ | with_reducible refine good_if ?_ (fun _ => ?_) | dsimp only | split)

theorem good_recordFault {q : List Instr} {s : State} {t : Nat} {code : Nat} {info : Nat} (hG : Good q s) :
    Good q (recordFault t code info s) := by
  unfold recordFault
  repeat' (first | with_reducible assumption | with_reducible refine good_stopTile ?_ | with_reducible refine good_upd_ ?_ | with_reducible refine good_if ?_ (fun _ => ?_) | dsimp only | split)

theorem good_recordTagFault {q : List Instr} {s : State} {t : Nat} {code : Nat} {unit : Nat} {queue : Nat} {tag : Nat} (hG : Good q s) :
    Good q (recordTagFault t code unit queue tag s) := by
  unfold recordTagFault
  repeat' (first | with_reducible assumption | with_reducible refine good_stopTile ?_ | with_reducible refine good_upd_ ?_ | with_reducible refine good_if ?_ (fun _ => ?_) | dsimp only | split)

theorem good_haltReq {q : List Instr} {s : State} {t : Nat} (hG : Good q s) :
    Good q (haltReq t s) := by
  unfold haltReq
  repeat' (first | with_reducible assumption | with_reducible refine good_upd_ ?_ | with_reducible refine good_setTileSt ?_ | with_reducible refine good_if ?_ (fun _ => ?_) | dsimp only | split)

theorem good_haltGraph {q : List Instr} {s : State} {t : Nat} (hG : Good q s) :
    Good q (haltGraph t s) := by
  unfold haltGraph
  repeat' (first | with_reducible assumption | with_reducible refine good_haltReq ?_ | with_reducible refine good_if ?_ (fun _ => ?_) | with_reducible refine good_foldl ?_ (fun _ _ _ => ?_) | with_reducible refine good_foldl_snd ?_ (fun _ _ _ => ?_) | with_reducible refine good_foldl_fst ?_ (fun _ _ _ => ?_) | with_reducible refine good_if_snd ?_ (fun _ => ?_) | with_reducible refine good_if_fst ?_ (fun _ => ?_) | dsimp only | split)

theorem good_tileFault {q : List Instr} {s : State} {t : Nat} {code : Nat} {info : Nat} (hG : Good q s) :
    Good q (tileFault t code info s) := by
  unfold tileFault
  repeat' (first | with_reducible assumption | with_reducible refine good_recordFault ?_ | with_reducible refine good_logCoded ?_ | with_reducible refine good_batchFail ?_ | with_reducible refine good_haltGraph ?_ | with_reducible refine good_if ?_ (fun _ => ?_) | dsimp only | split)

theorem good_tagFault {q : List Instr} {s : State} {t : Nat} {code : Nat} {unit : Nat} {queue : Nat} {tag : Nat} (hG : Good q s) :
    Good q (tagFault t code unit queue tag s) := by
  unfold tagFault
  repeat' (first | with_reducible assumption | with_reducible refine good_recordTagFault ?_ | with_reducible refine good_logCoded ?_ | with_reducible refine good_batchFail ?_ | with_reducible refine good_haltGraph ?_ | with_reducible refine good_if ?_ (fun _ => ?_) | dsimp only | split)

theorem good_batchFailCluster {q : List Instr} {s : State} {ts : List Nat} (hG : Good q s) :
    Good q (batchFailCluster ts s) := by
  unfold batchFailCluster
  repeat' (first | with_reducible assumption | with_reducible refine good_batchFail ?_ | with_reducible refine good_haltGraph ?_ | with_reducible refine good_if ?_ (fun _ => ?_) | dsimp only | split)

end Sys2Proof.Machine
end

