-- ==== Sys2Proof/Laws/GoodNet.lean ====
section
/-! SUPPORT. Every operation of Machine/Net.lean keeps a sound state sound. -/

namespace Sys2Proof.Machine

open Sys2Proof

theorem good_setBuf {q : List Instr} {s : State} {k : Nat} {l : List Packet} (hG : Good q s) :
    Good q (setBuf k l s) := by
  unfold setBuf
  repeat' (first | with_reducible assumption | with_reducible refine good_if ?_ (fun _ => ?_) | dsimp only | split | with_reducible refine good_upd ?_ rfl rfl rfl)

theorem good_countRsvd {q : List Instr} {s : State} {g : Nat} (hG : Good q s) :
    Good q (countRsvd g s) := by
  unfold countRsvd
  repeat' (first | with_reducible assumption | with_reducible refine good_logOpen ?_ | with_reducible refine good_satAdd ?_ | with_reducible refine good_if ?_ (fun _ => ?_) | dsimp only | split)

theorem good_nicStart {q : List Instr} {s : State} {g : Nat} {p : Nat} {data : Bool} (hG : Good q s) :
    Good q (nicStart g p data s) := by
  unfold nicStart
  repeat' (first | with_reducible assumption | with_reducible refine good_setBuf ?_ | with_reducible refine good_if ?_ (fun _ => ?_) | dsimp only | split | with_reducible refine good_upd ?_ rfl rfl rfl)

theorem good_nicFill {q : List Instr} {s : State} {g : Nat} {p : Nat} (hG : Good q s) :
    Good q (nicFill g p s) := by
  unfold nicFill
  repeat' (first | with_reducible assumption | with_reducible refine good_nicStart ?_ | with_reducible refine good_if ?_ (fun _ => ?_) | dsimp only | split)

theorem good_injectAtPort {q : List Instr} {s : State} {k : Nat × Nat} {dest : Nat × Nat} {p : Packet} (hG : Good q s) :
    Good q (injectAtPort k dest p s) := by
  unfold injectAtPort
  repeat' (first | with_reducible assumption | with_reducible refine good_nicFill ?_ | with_reducible refine good_if ?_ (fun _ => ?_) | dsimp only | split | with_reducible refine good_upd ?_ rfl rfl rfl)

theorem good_inject {q : List Instr} {s : State} {p : Packet} (hG : Good q s) :
    Good q (inject p s) := by
  unfold inject
  repeat' (first | with_reducible assumption | with_reducible refine good_injectAtPort ?_ | with_reducible refine good_if ?_ (fun _ => ?_) | dsimp only | split)

theorem good_send {q : List Instr} {s : State} {p : Packet} (hG : Good q s) :
    Good q (send p s) := by
  unfold send
  repeat' (first | with_reducible assumption | with_reducible refine good_inject ?_ | with_reducible refine good_countRsvd ?_ | with_reducible refine good_logOpen ?_ | with_reducible refine good_if ?_ (fun _ => ?_) | dsimp only | split | with_reducible refine good_upd ?_ rfl rfl rfl)

theorem good_nextTxid {q : List Instr} {s : State} {e : Nat} (hG : Good q s) :
    Good q (nextTxid e s).2 := by
  unfold nextTxid
  repeat' (first | with_reducible assumption | with_reducible refine good_if ?_ (fun _ => ?_) | with_reducible refine good_if_snd ?_ (fun _ => ?_) | dsimp only | split | with_reducible refine good_upd ?_ rfl rfl rfl)

theorem good_sendAwaited {q : List Instr} {s : State} {src : Nat} {dst : Nat} {opc : Nat} {payload : List Byte} (hG : Good q s) :
    Good q (sendAwaited src dst opc payload s) := by
  unfold sendAwaited
  repeat' (first | with_reducible assumption | with_reducible refine good_nextTxid ?_ | with_reducible refine good_send ?_ | with_reducible refine good_if ?_ (fun _ => ?_) | dsimp only | split | with_reducible refine good_upd ?_ rfl rfl rfl)

theorem good_take {q : List Instr} {s : State} {p : Packet} (hG : Good q s) :
    Good q (take p s) := by
  unfold take
  repeat' (first | with_reducible assumption | with_reducible refine good_if ?_ (fun _ => ?_) | dsimp only | split | with_reducible refine good_upd ?_ rfl rfl rfl)

theorem good_setChan {q : List Instr} {s : State} {t : Nat} {ch : Nat} {c : ChanRun} (hG : Good q s) :
    Good q (setChan t ch c s) := by
  unfold setChan
  repeat' (first | with_reducible assumption | with_reducible refine good_updTile ?_ | with_reducible refine good_if ?_ (fun _ => ?_) | dsimp only | split)

theorem good_returnCredits {q : List Instr} {s : State} {t : Nat} {ch : Nat} {n : Nat} (hG : Good q s) :
    Good q (returnCredits t ch n s) := by
  unfold returnCredits
  repeat' (first | with_reducible assumption | with_reducible refine good_nextTxid ?_ | with_reducible refine good_send ?_ | with_reducible refine good_setChan ?_ | with_reducible refine good_if ?_ (fun _ => ?_) | dsimp only | split)

theorem good_noteTurn {q : List Instr} {s : State} {g : Nat} {out : Nat} {i : Nat} {data : Bool} (hG : Good q s) :
    Good q (noteTurn g out i data s) := by
  unfold noteTurn
  repeat' (first | with_reducible assumption | with_reducible refine good_if ?_ (fun _ => ?_) | dsimp only | split | with_reducible refine good_upd ?_ rfl rfl rfl)

theorem good_noteThrottle {q : List Instr} {s : State} {g : Nat} (hG : Good q s) :
    Good q (noteThrottle g s) := by
  unfold noteThrottle
  repeat' (first | with_reducible assumption | with_reducible refine good_if ?_ (fun _ => ?_) | dsimp only | split | with_reducible refine good_upd ?_ rfl rfl rfl)

theorem good_discardBad {q : List Instr} {s : State} {g : Nat} {parity : Bool} (hG : Good q s) :
    Good q (discardBad g parity s) := by
  unfold discardBad
  repeat' (first | with_reducible assumption | with_reducible refine good_logOpen ?_ | with_reducible refine good_satAdd ?_ | with_reducible refine good_if ?_ (fun _ => ?_) | dsimp only | split)

theorem good_ignorePacket {q : List Instr} {s : State} {p : Packet} (hG : Good q s) :
    Good q (ignorePacket p s) := by
  unfold ignorePacket
  repeat' (first | with_reducible assumption | with_reducible refine good_logOpen ?_ | with_reducible refine good_if ?_ (fun _ => ?_) | dsimp only | split)

theorem good_reservedPacket {q : List Instr} {s : State} {p : Packet} (hG : Good q s) :
    Good q (reservedPacket p s) := by
  unfold reservedPacket
  repeat' (first | with_reducible assumption | with_reducible refine good_countRsvd ?_ | with_reducible refine good_if ?_ (fun _ => ?_) | dsimp only | split)

theorem good_received {q : List Instr} {s : State} {p : Packet} {f : State → State} (hG : Good q s) (hf : ∀ x0, Good q x0 → Good q (f x0)) :
    Good q (received p f s) := by
  unfold received
  repeat' (first | with_reducible assumption | with_reducible refine good_take ?_ | with_reducible refine good_discardBad ?_ | with_reducible refine good_transfer ?_ | with_reducible refine hf _ ?_ | with_reducible refine good_if ?_ (fun _ => ?_) | dsimp only | split)

end Sys2Proof.Machine
end

