-- ==== Sys2Proof/Laws/GoodLinkOps.lean ====
section
/-! SUPPORT. Every operation of Machine/LinkOps.lean keeps a sound state sound. -/

namespace Sys2Proof.Machine

open Sys2Proof

theorem good_setLink {q : List Instr} {s : State} {n : Nat} {x : LinkRun} (hG : Good q s) :
    Good q (setLink n x s) := by
  unfold setLink
  repeat' (first | with_reducible assumption | with_reducible refine good_if ?_ (fun _ => ?_) | dsimp only | split | with_reducible refine good_upd ?_ rfl rfl rfl)

theorem good_updLink {q : List Instr} {s : State} {n : Nat} {f : LinkRun → LinkRun} (hG : Good q s) :
    Good q (updLink n f s) := by
  unfold updLink
  repeat' (first | with_reducible assumption | with_reducible refine good_setLink ?_ | with_reducible refine good_if ?_ (fun _ => ?_) | dsimp only | split)

theorem good_setLinkSt {q : List Instr} {s : State} {n : Nat} {v : Nat} (hG : Good q s) :
    Good q (setLinkSt n v s) := by
  unfold setLinkSt
  repeat' (first | with_reducible assumption | with_reducible refine good_upd_ ?_ | with_reducible refine good_updLink ?_ | with_reducible refine good_if ?_ (fun _ => ?_) | dsimp only | split)

theorem good_leaveBitmap {q : List Instr} {s : State} {n : Nat} (hG : Good q s) :
    Good q (leaveBitmap n s) := by
  unfold leaveBitmap
  repeat' (first | with_reducible assumption | with_reducible refine good_updLink ?_ | with_reducible refine good_if ?_ (fun _ => ?_) | dsimp only | split)

theorem good_rejoinPorts {q : List Instr} {s : State} (hG : Good q s) :
    Good q (rejoinPorts s) := by
  unfold rejoinPorts
  repeat' (first | with_reducible assumption | with_reducible refine good_updLink ?_ | with_reducible refine good_if ?_ (fun _ => ?_) | with_reducible refine good_foldl ?_ (fun _ _ _ => ?_) | with_reducible refine good_foldl_snd ?_ (fun _ _ _ => ?_) | with_reducible refine good_foldl_fst ?_ (fun _ _ _ => ?_) | with_reducible refine good_if_snd ?_ (fun _ => ?_) | with_reducible refine good_if_fst ?_ (fun _ => ?_) | dsimp only | split)

theorem good_linkRefuse {q : List Instr} {s : State} {n : Nat} {p : Packet} (hG : Good q s) :
    Good q (linkRefuse n p s) := by
  unfold linkRefuse
  repeat' (first | with_reducible assumption | with_reducible refine good_satAdd ?_ | with_reducible refine good_logCoded ?_ | with_reducible refine good_send ?_ | with_reducible refine good_if ?_ (fun _ => ?_) | dsimp only | split)

theorem good_noteStall {q : List Instr} {s : State} {n : Nat} (hG : Good q s) :
    Good q (noteStall n s) := by
  unfold noteStall
  repeat' (first | with_reducible assumption | with_reducible refine good_setLink ?_ | with_reducible refine good_if ?_ (fun _ => ?_) | dsimp only | split)

theorem good_linkQueue {q : List Instr} {s : State} {n : Nat} {p : Packet} (hG : Good q s) :
    Good q (linkQueue n p s) := by
  unfold linkQueue
  repeat' (first | with_reducible assumption | with_reducible refine good_satAdd ?_ | with_reducible refine good_linkRefuse ?_ | with_reducible refine good_logOpen ?_ | with_reducible refine good_noteStall ?_ | with_reducible refine good_updLink ?_ | with_reducible refine good_if ?_ (fun _ => ?_) | dsimp only | split)

theorem good_reclaimCredits {q : List Instr} {s : State} {n : Nat} (hG : Good q s) :
    Good q (reclaimCredits n s) := by
  unfold reclaimCredits
  repeat' (first | with_reducible assumption | with_reducible refine good_addR ?_ | with_reducible refine good_subR ?_ | with_reducible refine good_if ?_ (fun _ => ?_) | dsimp only | split)

theorem good_enterInit {q : List Instr} {s : State} {n : Nat} (hG : Good q s) :
    Good q (enterInit n s) := by
  unfold enterInit
  repeat' (first | with_reducible assumption | with_reducible refine good_setLinkSt ?_ | with_reducible refine good_upd_ ?_ | with_reducible refine good_updLink ?_ | with_reducible refine good_if ?_ (fun _ => ?_) | dsimp only | split)

theorem good_linkDownTo {q : List Instr} {s : State} {n : Nat} {cause : Nat} {relink : Bool} (hG : Good q s) :
    Good q (linkDownTo n cause relink s) := by
  unfold linkDownTo
  repeat' (first | with_reducible assumption | with_reducible refine good_satAdd ?_ | with_reducible refine good_lifeCount ?_ | with_reducible refine good_reclaimCredits ?_ | with_reducible refine good_upd_ ?_ | with_reducible refine good_setLinkSt ?_ | with_reducible refine good_updLink ?_ | with_reducible refine good_leaveBitmap ?_ | with_reducible refine good_linkRefuse ?_ | with_reducible refine good_logCoded ?_ | with_reducible refine good_enterInit ?_ | with_reducible refine good_if ?_ (fun _ => ?_) | with_reducible refine good_foldl ?_ (fun _ _ _ => ?_) | with_reducible refine good_foldl_snd ?_ (fun _ _ _ => ?_) | with_reducible refine good_foldl_fst ?_ (fun _ _ _ => ?_) | with_reducible refine good_if_snd ?_ (fun _ => ?_) | with_reducible refine good_if_fst ?_ (fun _ => ?_) | dsimp only | split)

theorem good_linkDown {q : List Instr} {s : State} {n : Nat} {cause : Nat} (hG : Good q s) :
    Good q (linkDown n cause s) := by
  unfold linkDown
  repeat' (first | with_reducible assumption | with_reducible refine good_linkDownTo ?_ | with_reducible refine good_if ?_ (fun _ => ?_) | dsimp only | split)

theorem good_enterTrain {q : List Instr} {s : State} {n : Nat} (hG : Good q s) :
    Good q (enterTrain n s) := by
  unfold enterTrain
  repeat' (first | with_reducible assumption | with_reducible refine good_setLinkSt ?_ | with_reducible refine good_updLink ?_ | with_reducible refine good_if ?_ (fun _ => ?_) | dsimp only | split)

theorem good_linkFence {q : List Instr} {s : State} {n : Nat} (hG : Good q s) :
    Good q (linkFence n s) := by
  unfold linkFence
  repeat' (first | with_reducible assumption | with_reducible refine good_updLink ?_ | with_reducible refine good_leaveBitmap ?_ | with_reducible refine good_satAdd ?_ | with_reducible refine good_setLinkSt ?_ | with_reducible refine good_if ?_ (fun _ => ?_) | dsimp only | split)

theorem good_linkUnfence {q : List Instr} {s : State} {n : Nat} (hG : Good q s) :
    Good q (linkUnfence n s) := by
  unfold linkUnfence
  repeat' (first | with_reducible assumption | with_reducible refine good_updLink ?_ | with_reducible refine good_setLinkSt ?_ | with_reducible refine good_if ?_ (fun _ => ?_) | dsimp only | split)

theorem good_injectAt {q : List Instr} {s : State} {e : Nat} {p : Packet} (hG : Good q s) :
    Good q (injectAt e p s) := by
  unfold injectAt
  repeat' (first | with_reducible assumption | with_reducible refine good_injectAtPort ?_ | with_reducible refine good_if ?_ (fun _ => ?_) | dsimp only | split)

theorem good_linkArrived {q : List Instr} {s : State} {n : Nat} {p : Packet} (hG : Good q s) :
    Good q (linkArrived n p s) := by
  unfold linkArrived
  repeat' (first | with_reducible assumption | with_reducible refine good_injectAt ?_ | with_reducible refine good_countRsvd ?_ | with_reducible refine good_logOpen ?_ | with_reducible refine good_send ?_ | with_reducible refine good_if ?_ (fun _ => ?_) | dsimp only | split)

end Sys2Proof.Machine
end

