-- ==== Sys2Proof/Laws/GoodLoad.lean ====
section
/-! SUPPORT. Every operation of Machine/Load.lean keeps a sound state sound. -/

namespace Sys2Proof.Machine

open Sys2Proof

theorem good_loadTables {q : List Instr} {s : State} {base : Nat} {t : Nat} {valid : Bool} (hG : Good q s) :
    Good q (loadTables base t valid s) := by
  unfold loadTables
  repeat' (first | with_reducible assumption | with_reducible refine good_put128 ?_ | with_reducible refine good_if ?_ (fun _ => ?_) | with_reducible refine good_foldl ?_ (fun _ _ _ => ?_) | with_reducible refine good_foldl_snd ?_ (fun _ _ _ => ?_) | with_reducible refine good_foldl_fst ?_ (fun _ _ _ => ?_) | with_reducible refine good_if_snd ?_ (fun _ => ?_) | with_reducible refine good_if_fst ?_ (fun _ => ?_) | dsimp only | split)

theorem good_loadTile {q : List Instr} {s : State} {base : Nat} {t : Nat} (hG : Good q s) :
    Good q (loadTile base t s) := by
  unfold loadTile
  repeat' (first | with_reducible assumption | with_reducible refine good_loadTables ?_ | with_reducible refine good_setTile ?_ | with_reducible refine good_if ?_ (fun _ => ?_) | dsimp only | split)

theorem good_broadcast {q : List Instr} {s : State} {t : Nat} (hG : Good q s) :
    Good q (broadcast t s) := by
  unfold broadcast
  repeat' (first | with_reducible assumption | with_reducible refine good_put ?_ _ _ | with_reducible refine good_updTile ?_ | with_reducible refine good_if ?_ (fun _ => ?_) | dsimp only | split)

theorem good_loadChannels {q : List Instr} {s : State} {l : List Nat} (hG : Good q s) :
    Good q (loadChannels l s) := by
  unfold loadChannels
  repeat' (first | with_reducible assumption | with_reducible refine good_put128 ?_ | with_reducible refine good_setChan ?_ | with_reducible refine good_if ?_ (fun _ => ?_) | with_reducible refine good_foldl ?_ (fun _ _ _ => ?_) | with_reducible refine good_foldl_snd ?_ (fun _ _ _ => ?_) | with_reducible refine good_foldl_fst ?_ (fun _ _ _ => ?_) | with_reducible refine good_if_snd ?_ (fun _ => ?_) | with_reducible refine good_if_fst ?_ (fun _ => ?_) | dsimp only | split | with_reducible refine good_drop ?_ rfl rfl rfl | with_reducible refine good_upd ?_ rfl rfl rfl)

theorem good_loadRoutes {q : List Instr} {s : State} {base : Nat} (hG : Good q s) :
    Good q (loadRoutes base s) := by
  unfold loadRoutes
  repeat' (first | with_reducible assumption | with_reducible refine good_loadChannels ?_ | with_reducible refine good_put ?_ _ _ | with_reducible refine good_if ?_ (fun _ => ?_) | with_reducible refine good_foldl ?_ (fun _ _ _ => ?_) | with_reducible refine good_foldl_snd ?_ (fun _ _ _ => ?_) | with_reducible refine good_foldl_fst ?_ (fun _ _ _ => ?_) | with_reducible refine good_if_snd ?_ (fun _ => ?_) | with_reducible refine good_if_fst ?_ (fun _ => ?_) | dsimp only | split | with_reducible refine good_upd ?_ rfl rfl rfl)

theorem good_setTunnels {q : List Instr} {s : State} (hG : Good q s) :
    Good q (setTunnels s) := by
  unfold setTunnels
  repeat' (first | with_reducible assumption | with_reducible refine good_setChan ?_ | with_reducible refine good_put128 ?_ | with_reducible refine good_upd_ ?_ | with_reducible refine good_if ?_ (fun _ => ?_) | with_reducible refine good_foldl ?_ (fun _ _ _ => ?_) | with_reducible refine good_foldl_snd ?_ (fun _ _ _ => ?_) | with_reducible refine good_foldl_fst ?_ (fun _ _ _ => ?_) | with_reducible refine good_if_snd ?_ (fun _ => ?_) | with_reducible refine good_if_fst ?_ (fun _ => ?_) | dsimp only | split)

theorem good_setBundle {q : List Instr} {s : State} {b : Nat} {x : Bundle} (hG : Good q s) :
    Good q (setBundle b x s) := by
  unfold setBundle
  repeat' (first | with_reducible assumption | with_reducible refine good_if ?_ (fun _ => ?_) | dsimp only | split | with_reducible refine good_upd ?_ rfl rfl rfl)

theorem good_repairSeam {q : List Instr} {s : State} (hG : Good q s) :
    Good q (repairSeam s) := by
  unfold repairSeam
  repeat' (first | with_reducible assumption | with_reducible refine good_satAdd ?_ | with_reducible refine good_setBundle ?_ | with_reducible refine good_upd_ ?_ | with_reducible refine good_if ?_ (fun _ => ?_) | with_reducible refine good_foldl ?_ (fun _ _ _ => ?_) | with_reducible refine good_foldl_snd ?_ (fun _ _ _ => ?_) | with_reducible refine good_foldl_fst ?_ (fun _ _ _ => ?_) | with_reducible refine good_if_snd ?_ (fun _ => ?_) | with_reducible refine good_if_fst ?_ (fun _ => ?_) | dsimp only | split)

theorem good_quiesceTables {q : List Instr} {s : State} (hG : Good q s) :
    Good q (quiesceTables s) := by
  unfold quiesceTables
  repeat' (first | with_reducible assumption | with_reducible refine good_setTunnels ?_ | with_reducible refine good_rejoinPorts ?_ | with_reducible refine good_repairSeam ?_ | with_reducible refine good_if ?_ (fun _ => ?_) | dsimp only | split)

theorem good_setCover {q : List Instr} {s : State} {base : Nat} (hG : Good q s) :
    Good q (setCover base s) := by
  unfold setCover
  repeat' (first | with_reducible assumption | with_reducible refine good_put ?_ _ _ | with_reducible refine good_if ?_ (fun _ => ?_) | with_reducible refine good_foldl ?_ (fun _ _ _ => ?_) | with_reducible refine good_foldl_snd ?_ (fun _ _ _ => ?_) | with_reducible refine good_foldl_fst ?_ (fun _ _ _ => ?_) | with_reducible refine good_if_snd ?_ (fun _ => ?_) | with_reducible refine good_if_fst ?_ (fun _ => ?_) | dsimp only | split)

theorem good_openTile {q : List Instr} {s : State} {base : Nat} {t : Nat} (hG : Good q s) :
    Good q (openTile base t s) := by
  unfold openTile
  repeat' (first | with_reducible assumption | with_reducible refine good_addR ?_ | with_reducible refine good_updTile ?_ | with_reducible refine good_loadTables ?_ | with_reducible refine good_if ?_ (fun _ => ?_) | dsimp only | split)

theorem good_clearFlags {q : List Instr} {s : State} (hG : Good q s) :
    Good q (clearFlags s) := by
  unfold clearFlags
  repeat' (first | with_reducible assumption | with_reducible refine good_if ?_ (fun _ => ?_) | dsimp only | split | with_reducible refine good_drop ?_ rfl rfl rfl | with_reducible refine good_upd ?_ rfl rfl rfl)

theorem good_activateSlot {q : List Instr} {s : State} {i : Nat} (hG : Good q s) :
    Good q (activateSlot i s) := by
  unfold activateSlot
  repeat' (first | with_reducible assumption | with_reducible refine good_openTile ?_ | with_reducible refine good_clearFlags ?_ | with_reducible refine good_setCover ?_ | with_reducible refine good_setSlotState ?_ | with_reducible refine good_upd_ ?_ | with_reducible refine good_if ?_ (fun _ => ?_) | with_reducible refine good_foldl ?_ (fun _ _ _ => ?_) | with_reducible refine good_foldl_snd ?_ (fun _ _ _ => ?_) | with_reducible refine good_foldl_fst ?_ (fun _ _ _ => ?_) | with_reducible refine good_if_snd ?_ (fun _ => ?_) | with_reducible refine good_if_fst ?_ (fun _ => ?_) | dsimp only | split | with_reducible refine good_upd ?_ rfl rfl rfl)

theorem good_loadTiles {q : List Instr} {s : State} {base : Nat} (hG : Good q s) :
    Good q (loadTiles base s) := by
  unfold loadTiles
  repeat' (first | with_reducible assumption | with_reducible refine good_loadTile ?_ | with_reducible refine good_if ?_ (fun _ => ?_) | with_reducible refine good_foldl ?_ (fun _ _ _ => ?_) | with_reducible refine good_foldl_snd ?_ (fun _ _ _ => ?_) | with_reducible refine good_foldl_fst ?_ (fun _ _ _ => ?_) | with_reducible refine good_if_snd ?_ (fun _ => ?_) | with_reducible refine good_if_fst ?_ (fun _ => ?_) | dsimp only | split)

theorem good_loadImage {q : List Instr} {s : State} {base : Nat} (hG : Good q s) :
    Good q (loadImage base s) := by
  unfold loadImage
  repeat' (first | with_reducible assumption | with_reducible refine good_withRange ?_ (fun _ _ => ?_) | with_reducible refine good_setTunnels ?_ | with_reducible refine good_loadRoutes ?_ | with_reducible refine good_loadTiles ?_ | with_reducible refine good_powered ?_ (fun _ _ => ?_) | with_reducible refine good_if ?_ (fun _ => ?_) | dsimp only | split)

theorem good_broadcastAll {q : List Instr} {s : State} (hG : Good q s) :
    Good q (broadcastAll s) := by
  unfold broadcastAll
  repeat' (first | with_reducible assumption | with_reducible refine good_broadcast ?_ | with_reducible refine good_if ?_ (fun _ => ?_) | with_reducible refine good_foldl ?_ (fun _ _ _ => ?_) | with_reducible refine good_foldl_snd ?_ (fun _ _ _ => ?_) | with_reducible refine good_foldl_fst ?_ (fun _ _ _ => ?_) | with_reducible refine good_if_snd ?_ (fun _ => ?_) | with_reducible refine good_if_fst ?_ (fun _ => ?_) | dsimp only | split)

theorem good_reloadSeason {q : List Instr} {s : State} (hG : Good q s) :
    Good q (reloadSeason s) := by
  unfold reloadSeason
  repeat' (first | with_reducible assumption | with_reducible refine good_broadcastAll ?_ | with_reducible refine good_activateSlot ?_ | with_reducible refine good_loadImage ?_ | with_reducible refine good_send ?_ | with_reducible refine good_if ?_ (fun _ => ?_) | dsimp only | split | with_reducible refine good_upd ?_ rfl rfl rfl)

theorem good_resetChannels {q : List Instr} {s : State} {ts : List Nat} (hG : Good q s) :
    Good q (resetChannels ts s) := by
  unfold resetChannels
  repeat' (first | with_reducible assumption | with_reducible refine good_setChan ?_ | with_reducible refine good_if ?_ (fun _ => ?_) | with_reducible refine good_foldl ?_ (fun _ _ _ => ?_) | with_reducible refine good_foldl_snd ?_ (fun _ _ _ => ?_) | with_reducible refine good_foldl_fst ?_ (fun _ _ _ => ?_) | with_reducible refine good_if_snd ?_ (fun _ => ?_) | with_reducible refine good_if_fst ?_ (fun _ => ?_) | dsimp only | split)

theorem good_reloadTile {q : List Instr} {s : State} {t : Nat} (hG : Good q s) :
    Good q (reloadTile t s) := by
  unfold reloadTile
  repeat' (first | with_reducible assumption | with_reducible refine good_broadcast ?_ | with_reducible refine good_withRange ?_ (fun _ _ => ?_) | with_reducible refine good_loadTables ?_ | with_reducible refine good_setTile ?_ | with_reducible refine good_if ?_ (fun _ => ?_) | dsimp only | split)

end Sys2Proof.Machine
end

