-- ==== Sys2Proof/Laws/GoodWork.lean ====
section
/-! SUPPORT. Every operation of Machine/Work.lean keeps a sound state sound. -/

namespace Sys2Proof.Machine

open Sys2Proof

theorem good_sinceKatZero {q : List Instr} {s : State} {t : Nat} (hG : Good q s) :
    Good q (sinceKatZero t s) := by
  unfold sinceKatZero
  repeat' (first | with_reducible assumption | with_reducible refine good_upd_ ?_ | with_reducible refine good_if ?_ (fun _ => ?_) | dsimp only | split)

theorem good_fabricCleared {q : List Instr} {s : State} (hG : Good q s) :
    Good q (fabricCleared s) := by
  unfold fabricCleared
  repeat' (first | with_reducible assumption | with_reducible refine good_if ?_ (fun _ => ?_) | dsimp only | split | with_reducible refine good_drop ?_ rfl rfl rfl | with_reducible refine good_upd ?_ rfl rfl rfl)

theorem good_storeMap {q : List Instr} {s : State} {m : MapRecord} (hG : Good q s) :
    Good q (storeMap m s) := by
  unfold storeMap
  repeat' (first | with_reducible assumption | with_reducible refine good_nvmPages ?_ | with_reducible refine good_take ?_ | with_reducible refine good_if ?_ (fun _ => ?_) | dsimp only | split | with_reducible refine good_upd ?_ rfl rfl rfl)

theorem good_loadMap {q : List Instr} {s : State} (hG : Good q s) :
    Good q (loadMap s) := by
  unfold loadMap
  repeat' (first | with_reducible assumption | with_reducible refine good_if ?_ (fun _ => ?_) | dsimp only | split | with_reducible refine good_upd ?_ rfl rfl rfl)

theorem good_writeMap {q : List Instr} {s : State} (hG : Good q s) :
    Good q (writeMap s) := by
  unfold writeMap
  repeat' (first | with_reducible assumption | with_reducible refine good_storeMap ?_ | with_reducible refine good_broadcast ?_ | with_reducible refine good_if ?_ (fun _ => ?_) | dsimp only | split | with_reducible refine good_upd ?_ rfl rfl rfl)

theorem good_cclkSwitch {q : List Instr} {s : State} (hG : Good q s) :
    Good q (cclkSwitch s) := by
  unfold cclkSwitch
  repeat' (first | with_reducible assumption | with_reducible refine good_upd_ ?_ | with_reducible refine good_if ?_ (fun _ => ?_) | dsimp only | split)

theorem good_quiesced {q : List Instr} {s : State} (hG : Good q s) :
    Good q (quiesced s) := by
  unfold quiesced
  repeat' (first | with_reducible assumption | with_reducible refine good_cclkSwitch ?_ | with_reducible refine good_quiesceTables ?_ | with_reducible refine good_writeMap ?_ | with_reducible refine good_if ?_ (fun _ => ?_) | dsimp only | split)

theorem good_refuseGeometry {q : List Instr} {s : State} {i : Nat} (hG : Good q s) :
    Good q (refuseGeometry i s) := by
  unfold refuseGeometry
  repeat' (first | with_reducible assumption | with_reducible refine good_seasonLost ?_ | with_reducible refine good_setSlotState ?_ | with_reducible refine good_setSlotResult ?_ | with_reducible refine good_if ?_ (fun _ => ?_) | dsimp only | split)

theorem good_slotsRecheck {q : List Instr} {s : State} (hG : Good q s) :
    Good q (slotsRecheck s) := by
  unfold slotsRecheck
  repeat' (first | with_reducible assumption | with_reducible refine good_refuseGeometry ?_ | with_reducible refine good_if ?_ (fun _ => ?_) | with_reducible refine good_foldl ?_ (fun _ _ _ => ?_) | with_reducible refine good_foldl_snd ?_ (fun _ _ _ => ?_) | with_reducible refine good_foldl_fst ?_ (fun _ _ _ => ?_) | with_reducible refine good_if_snd ?_ (fun _ => ?_) | with_reducible refine good_if_fst ?_ (fun _ => ?_) | dsimp only | split)

theorem good_abandonRound {q : List Instr} {s : State} (hG : Good q s) :
    Good q (abandonRound s) := by
  unfold abandonRound
  repeat' (first | with_reducible assumption | with_reducible refine good_if ?_ (fun _ => ?_) | dsimp only | split | with_reducible refine good_upd ?_ rfl rfl rfl)

theorem good_exemptFall {q : List Instr} {s : State} (hG : Good q s) :
    Good q (exemptFall s) := by
  unfold exemptFall
  repeat' (first | with_reducible assumption | with_reducible refine good_satAdd ?_ | with_reducible refine good_if ?_ (fun _ => ?_) | dsimp only | split)

theorem good_nvmRegs {q : List Instr} {s' : State} {s : State} (hG : Good q s') :
    Good q (nvmRegs s s') := by
  unfold nvmRegs
  repeat' (first | with_reducible assumption | with_reducible refine good_put ?_ _ _ | with_reducible refine good_upd_ ?_ | with_reducible refine good_if ?_ (fun _ => ?_) | dsimp only | split)

theorem good_nvmOnly {q : List Instr} {s : State} (hG : Good q s) : Good q (nvmOnly s) := by
  unfold nvmOnly
  exact good_nvmRegs ⟨hG.pending, rfl, rfl, hG.inv.otp, Nat.zero_le _, Nat.zero_le _⟩

theorem good_keepTrip {q : List Instr} {s' : State} {s : State} (hG : Good q s') :
    Good q (keepTrip s s') := by
  unfold keepTrip
  repeat' (first | with_reducible assumption | with_reducible refine good_upd_ ?_ | with_reducible refine good_if ?_ (fun _ => ?_) | dsimp only | split)

theorem good_writeDevice {q : List Instr} {s : State} (hG : Good q s) :
    Good q (writeDevice s) := by
  unfold writeDevice
  repeat' (first | with_reducible assumption | with_reducible refine good_nvmPages ?_ | with_reducible refine good_if ?_ (fun _ => ?_) | dsimp only | split | with_reducible refine good_upd ?_ rfl rfl rfl)

end Sys2Proof.Machine
end

