-- ==== Sys2Proof/Laws/GoodResets.lean ====
section
/-! SUPPORT. Every operation of Machine/Resets.lean keeps a sound state sound. -/

namespace Sys2Proof.Machine

open Sys2Proof

theorem good_resetTileRegs {q : List Instr} {s : State} {ts : List Nat} (hG : Good q s) :
    Good q (resetTileRegs ts s) := by
  unfold resetTileRegs
  repeat' (first | with_reducible assumption | with_reducible refine good_resetRegs ?_ _ _ | with_reducible refine good_if ?_ (fun _ => ?_) | dsimp only | split)

theorem good_winterCause {q : List Instr} {s : State} {bit : Nat} (hG : Good q s) :
    Good q (winterCause bit s) := by
  unfold winterCause
  repeat' (first | with_reducible assumption | with_reducible refine good_upd_ ?_ | with_reducible refine good_if ?_ (fun _ => ?_) | dsimp only | split | with_reducible refine good_upd ?_ rfl rfl rfl)

theorem good_winterClear {q : List Instr} {s : State} {bit : Nat} (hG : Good q s) :
    Good q (winterClear bit s) := by
  unfold winterClear
  repeat' (first | with_reducible assumption | with_reducible refine good_upd_ ?_ | with_reducible refine good_winterCause ?_ | with_reducible refine good_if ?_ (fun _ => ?_) | dsimp only | split | with_reducible refine good_upd ?_ rfl rfl rfl)

theorem good_setIlimEff {q : List Instr} {s : State} {g : Nat} (hG : Good q s) :
    Good q (setIlimEff g s) := by
  unfold setIlimEff
  repeat' (first | with_reducible assumption | with_reducible refine good_upd_ ?_ | with_reducible refine good_if ?_ (fun _ => ?_) | dsimp only | split)

theorem good_requestAdmission {q : List Instr} {s : State} {g : Nat} (hG : Good q s) :
    Good q (requestAdmission g s) := by
  unfold requestAdmission
  repeat' (first | with_reducible assumption | with_reducible refine good_upd_ ?_ | with_reducible refine good_if ?_ (fun _ => ?_) | dsimp only | split | with_reducible refine good_upd ?_ rfl rfl rfl)

theorem good_sitesLost {q : List Instr} {s : State} {ns : List Nat} (hG : Good q s) :
    Good q (sitesLost ns s) := by
  unfold sitesLost
  repeat' (first | with_reducible assumption | with_reducible refine good_tilesLost ?_ | with_reducible refine good_powered ?_ (fun _ _ => ?_) | with_reducible refine good_if ?_ (fun _ => ?_) | dsimp only | split | with_reducible refine good_upd ?_ rfl rfl rfl)

theorem good_powerSites {q : List Instr} {s : State} {ns : List Nat} (hG : Good q s) :
    Good q (powerSites ns s) := by
  unfold powerSites
  repeat' (first | with_reducible assumption | with_reducible refine good_resetTileRegs ?_ | with_reducible refine good_powered ?_ (fun _ _ => ?_) | with_reducible refine good_if ?_ (fun _ => ?_) | dsimp only | split | with_reducible refine good_upd ?_ rfl rfl rfl)

theorem good_restCluster {q : List Instr} {s : State} {g : Nat} (hG : Good q s) :
    Good q (restCluster s g) := by
  unfold restCluster
  repeat' (first | with_reducible assumption | with_reducible refine good_upd_ ?_ | with_reducible refine good_if ?_ (fun _ => ?_) | dsimp only | split | with_reducible refine good_upd ?_ rfl rfl rfl)

theorem good_openSites {q : List Instr} {s : State} {ns : List Nat} (hG : Good q s) :
    Good q (openSites ns s) := by
  unfold openSites
  repeat' (first | with_reducible assumption | with_reducible refine good_restCluster ?_ | with_reducible refine good_powered ?_ (fun _ _ => ?_) | with_reducible refine good_if ?_ (fun _ => ?_) | with_reducible refine good_foldl ?_ (fun _ _ _ => ?_) | with_reducible refine good_foldl_snd ?_ (fun _ _ _ => ?_) | with_reducible refine good_foldl_fst ?_ (fun _ _ _ => ?_) | with_reducible refine good_if_snd ?_ (fun _ => ?_) | with_reducible refine good_if_fst ?_ (fun _ => ?_) | dsimp only | split | with_reducible refine good_upd ?_ rfl rfl rfl)

theorem good_clusterOn {q : List Instr} {s : State} {g : Nat} (hG : Good q s) :
    Good q (clusterOn g s) := by
  unfold clusterOn
  repeat' (first | with_reducible assumption | with_reducible refine good_upd_ ?_ | with_reducible refine good_restCluster ?_ | with_reducible refine good_powerSites ?_ | with_reducible refine good_if ?_ (fun _ => ?_) | dsimp only | split | with_reducible refine good_upd ?_ rfl rfl rfl)

theorem good_noteReset {q : List Instr} {s : State} {kind : Nat} {c : ResetCause} (hG : Good q s) :
    Good q (noteReset kind c s) := by
  unfold noteReset
  repeat' (first | with_reducible assumption | with_reducible refine good_upd_ ?_ | with_reducible refine good_if ?_ (fun _ => ?_) | dsimp only | split)

theorem good_clustersOff {q : List Instr} {s : State} (hG : Good q s) :
    Good q (clustersOff s) := by
  unfold clustersOff
  repeat' (first | with_reducible assumption | with_reducible refine good_if ?_ (fun _ => ?_) | dsimp only | split | with_reducible refine good_tmap ?_ rfl rfl rfl | with_reducible refine good_upd ?_ rfl rfl rfl)

theorem good_computeReset {q : List Instr} {s : State} {c : ResetCause} (hG : Good q s) :
    Good q (computeReset c s) := by
  unfold computeReset
  repeat' (first | with_reducible assumption | with_reducible refine good_abandonExecuting ?_ | with_reducible refine good_tilesLost ?_ | with_reducible refine good_clustersOff ?_ | with_reducible refine good_exemptFall ?_ | with_reducible refine good_upd_ ?_ | with_reducible refine good_logCoded ?_ | with_reducible refine good_noteReset ?_ | with_reducible refine good_satAdd ?_ | with_reducible refine good_if ?_ (fun _ => ?_) | dsimp only | split | with_reducible refine good_upd ?_ rfl rfl rfl)

theorem good_deviceResetBy {q : List Instr} {s : State} {own : Bool} {c : ResetCause} (hG : Good q s) :
    Good q (deviceResetBy own c s) := by
  unfold deviceResetBy
  repeat' (first | with_reducible assumption | with_reducible refine good_logCoded ?_ | with_reducible refine good_writeDevice ?_ | with_reducible refine good_noteReset ?_ | with_reducible refine good_lifetimeWrite ?_ | with_reducible refine good_lifeCount ?_ | with_reducible refine good_logFlush ?_ | with_reducible refine good_keepTrip ?_ | with_reducible refine good_nvmOnly ?_ | with_reducible refine good_if ?_ (fun _ => ?_) | dsimp only | split | with_reducible refine good_upd ?_ rfl rfl rfl)

theorem good_deviceReset {q : List Instr} {s : State} {c : ResetCause} (hG : Good q s) :
    Good q (deviceReset c s) := by
  unfold deviceReset
  repeat' (first | with_reducible assumption | with_reducible refine good_deviceResetBy ?_ | with_reducible refine good_if ?_ (fun _ => ?_) | dsimp only | split)

theorem good_powerOnReset {q : List Instr} {s : State} (hG : Good q s) :
    Good q (powerOnReset s) := by
  unfold powerOnReset
  repeat' (first | with_reducible assumption | with_reducible refine good_nvmOnly ?_ | with_reducible refine good_upd_ ?_ | with_reducible refine good_lifeCount ?_ | with_reducible refine good_noteReset ?_ | with_reducible refine good_powered ?_ (fun _ _ => ?_) | with_reducible refine good_if ?_ (fun _ => ?_) | dsimp only | split | with_reducible refine good_upd ?_ rfl rfl rfl)

theorem good_powerOff {q : List Instr} {s : State} {why : OffCause} (hG : Good q s) :
    Good q (powerOff why s) := by
  unfold powerOff
  repeat' (first | with_reducible assumption | with_reducible refine good_nvmOnly ?_ | with_reducible refine good_if ?_ (fun _ => ?_) | dsimp only | split | with_reducible refine good_upd ?_ rfl rfl rfl)

theorem good_startFabricReset {q : List Instr} {s : State} {c : ResetCause} (hG : Good q s) :
    Good q (startFabricReset c s) := by
  unfold startFabricReset
  repeat' (first | with_reducible assumption | with_reducible refine good_satAdd ?_ | with_reducible refine good_lifeCount ?_ | with_reducible refine good_deviceReset ?_ | with_reducible refine good_linkFence ?_ | with_reducible refine good_upd_ ?_ | with_reducible refine good_computeReset ?_ | with_reducible refine good_noteReset ?_ | with_reducible refine good_logCoded ?_ | with_reducible refine good_if ?_ (fun _ => ?_) | with_reducible refine good_foldl ?_ (fun _ _ _ => ?_) | with_reducible refine good_foldl_snd ?_ (fun _ _ _ => ?_) | with_reducible refine good_foldl_fst ?_ (fun _ _ _ => ?_) | with_reducible refine good_if_snd ?_ (fun _ => ?_) | with_reducible refine good_if_fst ?_ (fun _ => ?_) | dsimp only | split | with_reducible refine good_upd ?_ rfl rfl rfl)

theorem good_springStop {q : List Instr} {s : State} {code : Nat} (hG : Good q s) :
    Good q (springStop code s) := by
  unfold springStop
  repeat' (first | with_reducible assumption | with_reducible refine good_upd_ ?_ | with_reducible refine good_i3cRaise ?_ | with_reducible refine good_logCoded ?_ | with_reducible refine good_if ?_ (fun _ => ?_) | dsimp only | split)

theorem good_journalAdd {q : List Instr} {s : State} {kind : Nat} {id : Nat} {es : List RemapEntry} (hG : Good q s) :
    Good q (journalAdd kind id es s) := by
  unfold journalAdd
  repeat' (first | with_reducible assumption | with_reducible refine good_nvmPages ?_ | with_reducible refine good_if ?_ (fun _ => ?_) | dsimp only | split | with_reducible refine good_upd ?_ rfl rfl rfl)

theorem good_dropQuote {q : List Instr} {s : State} {f : Nat} (hG : Good q s) :
    Good q (dropQuote f s) := by
  unfold dropQuote
  repeat' (first | with_reducible assumption | with_reducible refine good_upd_ ?_ | with_reducible refine good_if ?_ (fun _ => ?_) | dsimp only | split | with_reducible refine good_upd ?_ rfl rfl rfl)

theorem good_fieldPowerLost {q : List Instr} {s : State} {f : Nat} {cause : Nat} (hG : Good q s) :
    Good q (fieldPowerLost f cause s) := by
  unfold fieldPowerLost
  repeat' (first | with_reducible assumption | with_reducible refine good_upd_ ?_ | with_reducible refine good_dropQuote ?_ | with_reducible refine good_if ?_ (fun _ => ?_) | with_reducible refine good_foldl ?_ (fun _ _ _ => ?_) | with_reducible refine good_foldl_snd ?_ (fun _ _ _ => ?_) | with_reducible refine good_foldl_fst ?_ (fun _ _ _ => ?_) | with_reducible refine good_if_snd ?_ (fun _ => ?_) | with_reducible refine good_if_fst ?_ (fun _ => ?_) | dsimp only | split | with_reducible refine good_upd ?_ rfl rfl rfl)

theorem good_remapFieldLost {q : List Instr} {s : State} {f : Nat} (hG : Good q s) :
    Good q (remapFieldLost f s) := by
  unfold remapFieldLost
  repeat' (first | with_reducible assumption | with_reducible refine good_upd_ ?_ | with_reducible refine good_journalAdd ?_ | with_reducible refine good_if ?_ (fun _ => ?_) | dsimp only | split | with_reducible refine good_upd ?_ rfl rfl rfl)

theorem good_fieldLoss {q : List Instr} {s : State} {f : Nat} {cause : Nat} (hG : Good q s) :
    Good q (fieldLoss f cause s) := by
  unfold fieldLoss
  repeat' (first | with_reducible assumption | with_reducible refine good_logCoded ?_ | with_reducible refine good_exemptFall ?_ | with_reducible refine good_lifeCount ?_ | with_reducible refine good_deviceReset ?_ | with_reducible refine good_writeMap ?_ | with_reducible refine good_remapFieldLost ?_ | with_reducible refine good_tilesLost ?_ | with_reducible refine good_abandonExecuting ?_ | with_reducible refine good_hbmFieldLost ?_ | with_reducible refine good_fieldPowerLost ?_ | with_reducible refine good_linkFence ?_ | with_reducible refine good_startFabricReset ?_ | with_reducible refine good_slotsRecheck ?_ | with_reducible refine good_if ?_ (fun _ => ?_) | with_reducible refine good_foldl ?_ (fun _ _ _ => ?_) | with_reducible refine good_foldl_snd ?_ (fun _ _ _ => ?_) | with_reducible refine good_foldl_fst ?_ (fun _ _ _ => ?_) | with_reducible refine good_if_snd ?_ (fun _ => ?_) | with_reducible refine good_if_fst ?_ (fun _ => ?_) | dsimp only | split | with_reducible refine good_upd ?_ rfl rfl rfl)

theorem good_selectTargets {q : List Instr} {s : State} {f : Nat} {id : Nat} {ts : List (Nat × Nat)} (hG : Good q s) :
    Good q (selectTargets f id ts s) := by
  unfold selectTargets
  repeat' (first | with_reducible assumption | with_reducible refine good_fieldLoss ?_ | with_reducible refine good_openSites ?_ | with_reducible refine good_upd_ ?_ | with_reducible refine good_powerSites ?_ | with_reducible refine good_requestAdmission ?_ | with_reducible refine good_if ?_ (fun _ => ?_) | with_reducible refine good_foldl ?_ (fun _ _ _ => ?_) | with_reducible refine good_foldl_snd ?_ (fun _ _ _ => ?_) | with_reducible refine good_foldl_fst ?_ (fun _ _ _ => ?_) | with_reducible refine good_if_snd ?_ (fun _ => ?_) | with_reducible refine good_if_fst ?_ (fun _ => ?_) | dsimp only | split | with_reducible refine good_upd ?_ rfl rfl rfl)

theorem good_startRemap {q : List Instr} {s : State} (hG : Good q s) :
    Good q (startRemap s) := by
  unfold startRemap
  repeat' (first | with_reducible assumption | with_reducible refine good_selectTargets ?_ | with_reducible refine good_take ?_ | with_reducible refine good_if ?_ (fun _ => ?_) | with_reducible refine good_foldl ?_ (fun _ _ _ => ?_) | with_reducible refine good_foldl_snd ?_ (fun _ _ _ => ?_) | with_reducible refine good_foldl_fst ?_ (fun _ _ _ => ?_) | with_reducible refine good_if_snd ?_ (fun _ => ?_) | with_reducible refine good_if_fst ?_ (fun _ => ?_) | dsimp only | split | with_reducible refine good_upd ?_ rfl rfl rfl)

theorem good_remapRequest {q : List Instr} {s : State} {ts : List Nat} {cause : Nat} (hG : Good q s) :
    Good q (remapRequest ts cause s) := by
  unfold remapRequest
  repeat' (first | with_reducible assumption | with_reducible refine good_startRemap ?_ | with_reducible refine good_selectTargets ?_ | with_reducible refine good_take ?_ | with_reducible refine good_if ?_ (fun _ => ?_) | with_reducible refine good_foldl ?_ (fun _ _ _ => ?_) | with_reducible refine good_foldl_snd ?_ (fun _ _ _ => ?_) | with_reducible refine good_foldl_fst ?_ (fun _ _ _ => ?_) | with_reducible refine good_if_snd ?_ (fun _ => ?_) | with_reducible refine good_if_fst ?_ (fun _ => ?_) | dsimp only | split | with_reducible refine good_upd ?_ rfl rfl rfl)

theorem good_remapClusterDark {q : List Instr} {s : State} {g : Nat} (hG : Good q s) :
    Good q (remapClusterDark g s) := by
  unfold remapClusterDark
  repeat' (first | with_reducible assumption | with_reducible refine good_selectTargets ?_ | with_reducible refine good_if ?_ (fun _ => ?_) | with_reducible refine good_foldl ?_ (fun _ _ _ => ?_) | with_reducible refine good_foldl_snd ?_ (fun _ _ _ => ?_) | with_reducible refine good_foldl_fst ?_ (fun _ _ _ => ?_) | with_reducible refine good_if_snd ?_ (fun _ => ?_) | with_reducible refine good_if_fst ?_ (fun _ => ?_) | dsimp only | split | with_reducible refine good_upd ?_ rfl rfl rfl)

theorem good_clusterDark {q : List Instr} {s : State} {g : Nat} {cause : Nat} (hG : Good q s) :
    Good q (clusterDark g cause s) := by
  unfold clusterDark
  repeat' (first | with_reducible assumption | with_reducible refine good_upd_ ?_ | with_reducible refine good_logCoded ?_ | with_reducible refine good_exemptFall ?_ | with_reducible refine good_batchFailCluster ?_ | with_reducible refine good_sitesLost ?_ | with_reducible refine good_remapRequest ?_ | with_reducible refine good_remapClusterDark ?_ | with_reducible refine good_if ?_ (fun _ => ?_) | dsimp only | split | with_reducible refine good_upd ?_ rfl rfl rfl)

end Sys2Proof.Machine
end

