-- ==== Sys2Proof/Laws/GoodClockOps.lean ====
section
/-! SUPPORT. Every operation of Machine/ClockOps.lean keeps a sound state sound. -/

namespace Sys2Proof.Machine

open Sys2Proof

theorem good_clk {q : List Instr} {s : State} {f : ClockState → ClockState} (hG : Good q s) :
    Good q (clk f s) := by
  unfold clk
  repeat' (first | with_reducible assumption | with_reducible refine good_if ?_ (fun _ => ?_) | dsimp only | split | with_reducible refine good_upd ?_ rfl rfl rfl)

theorem good_chooseTs {q : List Instr} {s : State} (hG : Good q s) :
    Good q (chooseTs s) := by
  unfold chooseTs
  repeat' (first | with_reducible assumption | with_reducible refine good_upd_ ?_ | with_reducible refine good_clk ?_ | with_reducible refine good_if ?_ (fun _ => ?_) | dsimp only | split)

theorem good_beginDividerStep {q : List Instr} {s : State} {target : Nat} (hG : Good q s) :
    Good q (beginDividerStep target s) := by
  unfold beginDividerStep
  repeat' (first | with_reducible assumption | with_reducible refine good_upd_ ?_ | with_reducible refine good_chooseTs ?_ | with_reducible refine good_clk ?_ | with_reducible refine good_if ?_ (fun _ => ?_) | dsimp only | split)

theorem good_followTarget {q : List Instr} {s : State} (hG : Good q s) :
    Good q (followTarget s) := by
  unfold followTarget
  repeat' (first | with_reducible assumption | with_reducible refine good_beginDividerStep ?_ | with_reducible refine good_if ?_ (fun _ => ?_) | dsimp only | split)

theorem good_stepDownRequest {q : List Instr} {s : State} (hG : Good q s) :
    Good q (stepDownRequest s) := by
  unfold stepDownRequest
  repeat' (first | with_reducible assumption | with_reducible refine good_logOpen ?_ | with_reducible refine good_clk ?_ | with_reducible refine good_beginDividerStep ?_ | with_reducible refine good_satAdd ?_ | with_reducible refine good_if ?_ (fun _ => ?_) | dsimp only | split)

end Sys2Proof.Machine
end

