-- ==== Sys2Proof/Laws/GoodClocks.lean ====
section
/-! SUPPORT. Every operation of Machine/Clocks.lean keeps a sound state sound. -/

namespace Sys2Proof.Machine

open Sys2Proof

theorem good_execPllLock {q : List Instr} {s : State} {p : Pll} (hG : Good q s) :
    ∃ w, execPllLock p s = .next w ∧ Good q w := by
  refine ⟨_, rfl, ?_⟩
  repeat' (first | with_reducible assumption | with_reducible refine good_powered ?_ (fun _ _ => ?_) | with_reducible refine good_clk ?_ | with_reducible refine good_if ?_ (fun _ => ?_) | dsimp only | split)

theorem good_execPllLockLoss {q : List Instr} {s : State} {p : Pll} (hG : Good q s) :
    ∃ w, execPllLockLoss p s = .next w ∧ Good q w := by
  refine ⟨_, rfl, ?_⟩
  repeat' (first | with_reducible assumption | with_reducible refine good_powered ?_ (fun _ _ => ?_) | with_reducible refine good_deviceReset ?_ | with_reducible refine good_clk ?_ | with_reducible refine good_startFabricReset ?_ | with_reducible refine good_logOpen ?_ | with_reducible refine good_if ?_ (fun _ => ?_) | dsimp only | split)

theorem good_execPllRelockTimeout {q : List Instr} {s : State} {f : FieldId} (hG : Good q s) :
    ∃ w, execPllRelockTimeout f s = .next w ∧ Good q w := by
  refine ⟨_, rfl, ?_⟩
  repeat' (first | with_reducible assumption | with_reducible refine good_powered ?_ (fun _ _ => ?_) | with_reducible refine good_deviceReset ?_ | with_reducible refine good_if ?_ (fun _ => ?_) | dsimp only | split)

theorem good_execCrefLoss {q : List Instr} {s : State} (hG : Good q s) :
    ∃ w, execCrefLoss s = .next w ∧ Good q w := by
  refine ⟨_, rfl, ?_⟩
  repeat' (first | with_reducible assumption | with_reducible refine good_powered ?_ (fun _ _ => ?_) | with_reducible refine good_deviceReset ?_ | with_reducible refine good_clk ?_ | with_reducible refine good_if ?_ (fun _ => ?_) | dsimp only | split)

theorem good_noteSkew {q : List Instr} {s : State} {i : Nat} {ps : Int} (hG : Good q s) :
    Good q (noteSkew s i ps) := by
  unfold noteSkew
  repeat' (first | with_reducible assumption | with_reducible refine good_upd_ ?_ | with_reducible refine good_clk ?_ | with_reducible refine good_stepDownRequest ?_ | with_reducible refine good_logOpen ?_ | with_reducible refine good_if ?_ (fun _ => ?_) | dsimp only | split)

theorem good_execSkewRead {q : List Instr} {s : State} {f : FieldId} {readings : List (Fin 17 × Int)} (hG : Good q s) :
    ∃ w, execSkewRead f readings s = .next w ∧ Good q w := by
  refine ⟨_, rfl, ?_⟩
  repeat' (first | with_reducible assumption | with_reducible refine good_powered ?_ (fun _ _ => ?_) | with_reducible refine good_noteSkew ?_ | with_reducible refine good_clk ?_ | with_reducible refine good_if ?_ (fun _ => ?_) | with_reducible refine good_foldl ?_ (fun _ _ _ => ?_) | with_reducible refine good_foldl_snd ?_ (fun _ _ _ => ?_) | with_reducible refine good_foldl_fst ?_ (fun _ _ _ => ?_) | with_reducible refine good_if_snd ?_ (fun _ => ?_) | with_reducible refine good_if_fst ?_ (fun _ => ?_) | dsimp only | split)

theorem good_noteCaused {q : List Instr} {s : State} {g : Nat} (hG : Good q s) :
    Good q (noteCaused g s) := by
  unfold noteCaused
  repeat' (first | with_reducible assumption | with_reducible refine good_clk ?_ | with_reducible refine good_upd_ ?_ | with_reducible refine good_if ?_ (fun _ => ?_) | dsimp only | split)

theorem good_marginDown {q : List Instr} {s : State} {g : Nat} (hG : Good q s) :
    Good q (marginDown g s) := by
  unfold marginDown
  repeat' (first | with_reducible assumption | with_reducible refine good_stepDownRequest ?_ | with_reducible refine good_noteCaused ?_ | with_reducible refine good_if ?_ (fun _ => ?_) | dsimp only | split)

theorem good_raiseAdj {q : List Instr} {s : State} {g : Nat} {n : Nat} (hG : Good q s) :
    Good q (raiseAdj g n s) := by
  unfold raiseAdj
  repeat' (first | with_reducible assumption | with_reducible refine good_clk ?_ | with_reducible refine good_upd_ ?_ | with_reducible refine good_if ?_ (fun _ => ?_) | dsimp only | split)

theorem good_execMarginReport {q : List Instr} {s : State} {g : ClusterId} {ps : Nat} (hG : Good q s) :
    ∃ w, execMarginReport g ps s = .next w ∧ Good q w := by
  refine ⟨_, rfl, ?_⟩
  repeat' (first | with_reducible assumption | with_reducible refine good_powered ?_ (fun _ _ => ?_) | with_reducible refine good_upd_ ?_ | with_reducible refine good_clk ?_ | with_reducible refine good_raiseAdj ?_ | with_reducible refine good_satAdd ?_ | with_reducible refine good_marginDown ?_ | with_reducible refine good_logOpen ?_ | with_reducible refine good_if ?_ (fun _ => ?_) | dsimp only | split)

theorem good_execStepUpBegin {q : List Instr} {s : State} (hG : Good q s) :
    ∃ w, execStepUpBegin s = .next w ∧ Good q w := by
  refine ⟨_, rfl, ?_⟩
  repeat' (first | with_reducible assumption | with_reducible refine good_powered ?_ (fun _ _ => ?_) | with_reducible refine good_beginDividerStep ?_ | with_reducible refine good_clk ?_ | with_reducible refine good_if ?_ (fun _ => ?_) | dsimp only | split)

theorem good_moveTs {q : List Instr} {s : State} {t : Nat} {st : ClockStep} (hG : Good q s) :
    Good q (moveTs t st s) := by
  unfold moveTs
  repeat' (first | with_reducible assumption | with_reducible refine good_upd_ ?_ | with_reducible refine good_clk ?_ | with_reducible refine good_if ?_ (fun _ => ?_) | dsimp only | split)

theorem good_chargeSample {q : List Instr} {s s' : State} {p : Int} (hG : Good q s) (h : chargeSample p s = some s') :
    Good q s' := by
  unfold chargeSample at h
  dsimp only at h
  split at h
  · split at h
    · cases h
      exact good_upd hG rfl rfl rfl
    · cases h
  · split at h
    · cases h
      exact good_upd hG rfl rfl rfl
    · cases h

theorem good_execDividerSwitch {q : List Instr} {s : State} {clockMw : Nat} (hG : Good q s) :
    ∃ w, execDividerSwitch clockMw s = .next w ∧ Good q w := by
  refine ⟨_, rfl, ?_⟩
  repeat' (first | with_reducible assumption | with_reducible refine good_powered ?_ (fun _ _ => ?_) | with_reducible refine good_moveTs ?_ | with_reducible refine good_chargeSample ?_ (by assumption) | with_reducible refine good_upd_ ?_ | with_reducible refine good_clk ?_ | with_reducible refine good_followTarget ?_ | with_reducible refine good_logOpen ?_ | with_reducible refine good_if ?_ (fun _ => ?_) | dsimp only | split | with_reducible refine good_upd ?_ rfl rfl rfl)

theorem good_execVsetStep {q : List Instr} {s : State} {g : ClusterId} (hG : Good q s) :
    ∃ w, execVsetStep g s = .next w ∧ Good q w := by
  refine ⟨_, rfl, ?_⟩
  repeat' (first | with_reducible assumption | with_reducible refine good_powered ?_ (fun _ _ => ?_) | with_reducible refine good_chooseTs ?_ | with_reducible refine good_upd_ ?_ | with_reducible refine good_clk ?_ | with_reducible refine good_if ?_ (fun _ => ?_) | dsimp only | split)

theorem good_syncField {q : List Instr} {s : State} {f : Nat} {drift : Int} (hG : Good q s) :
    Good q (syncField s f drift) := by
  unfold syncField
  repeat' (first | with_reducible assumption | with_reducible refine good_upd_ ?_ | with_reducible refine good_clk ?_ | with_reducible refine good_logOpen ?_ | with_reducible refine good_satAdd ?_ | with_reducible refine good_startFabricReset ?_ | with_reducible refine good_if ?_ (fun _ => ?_) | dsimp only | split)

theorem good_execSyncStrobe {q : List Instr} {s : State} {drifts : List Int} (hG : Good q s) :
    ∃ w, execSyncStrobe drifts s = .next w ∧ Good q w := by
  refine ⟨_, rfl, ?_⟩
  repeat' (first | with_reducible assumption | with_reducible refine good_powered ?_ (fun _ _ => ?_) | with_reducible refine good_syncField ?_ | with_reducible refine good_ledgerSnapshot ?_ | with_reducible refine good_if ?_ (fun _ => ?_) | with_reducible refine good_foldl ?_ (fun _ _ _ => ?_) | with_reducible refine good_foldl_snd ?_ (fun _ _ _ => ?_) | with_reducible refine good_foldl_fst ?_ (fun _ _ _ => ?_) | with_reducible refine good_if_snd ?_ (fun _ => ?_) | with_reducible refine good_if_fst ?_ (fun _ => ?_) | dsimp only | split)

theorem good_epochWrite {q : List Instr} {s : State} {half : Half} {v : Nat} (hG : Good q s) :
    Good q (epochWrite half v s) := by
  unfold epochWrite
  repeat' (first | with_reducible assumption | with_reducible refine good_upd_ ?_ | with_reducible refine good_put ?_ _ _ | with_reducible refine good_logEvent ?_ | with_reducible refine good_if ?_ (fun _ => ?_) | dsimp only | split)

theorem good_execEpochWrite {q : List Instr} {s : State} {m : Master} {half : Half} {v : Nat} (hG : Good q s) :
    ∃ w, execEpochWrite m half v s = .next w ∧ Good q w := by
  refine ⟨_, rfl, ?_⟩
  repeat' (first | with_reducible assumption | with_reducible refine good_powered ?_ (fun _ _ => ?_) | with_reducible refine good_asOwner ?_ (fun _ _ => ?_) | with_reducible refine good_epochWrite ?_ | with_reducible refine good_if ?_ (fun _ => ?_) | dsimp only | split)

end Sys2Proof.Machine
end

