-- ==== Sys2Proof/Laws/GoodHbmCmd.lean ====
section
/-! SUPPORT. Every operation of Machine/HbmCmd.lean keeps a sound state sound. -/

namespace Sys2Proof.Machine

open Sys2Proof

theorem good_setStackCool {q : List Instr} {s : State} {k : Nat} {v : Option Nat} (hG : Good q s) :
    Good q (setStackCool k v s) := by
  unfold setStackCool
  repeat' (first | with_reducible assumption | with_reducible refine good_if ?_ (fun _ => ?_) | dsimp only | split | with_reducible refine good_upd ?_ rfl rfl rfl)

theorem good_setRefresh {q : List Instr} {s : State} {k : Nat} {rate : Nat} (hG : Good q s) :
    Good q (setRefresh k rate s) := by
  unfold setRefresh
  repeat' (first | with_reducible assumption | with_reducible refine good_upd_ ?_ | with_reducible refine good_logOpen ?_ | with_reducible refine good_if ?_ (fun _ => ?_) | dsimp only | split)

theorem good_stepRefresh {q : List Instr} {s : State} {k : Nat} {c : Int} (hG : Good q s) :
    Good q (stepRefresh k c s) := by
  unfold stepRefresh
  repeat' (first | with_reducible assumption | with_reducible refine good_setRefresh ?_ | with_reducible refine good_setStackCool ?_ | with_reducible refine good_if ?_ (fun _ => ?_) | dsimp only | split)

theorem good_notePar {q : List Instr} {s : State} {k : Nat} {n : Nat} (hG : Good q s) :
    Good q (notePar k n s) := by
  unfold notePar
  repeat' (first | with_reducible assumption | with_reducible refine good_satAdd ?_ | with_reducible refine good_if ?_ (fun _ => ?_) | dsimp only | split | with_reducible refine good_upd ?_ rfl rfl rfl)

theorem good_noteOndie {q : List Instr} {s : State} {k : Nat} {n : Nat} (hG : Good q s) :
    Good q (noteOndie k n s) := by
  unfold noteOndie
  repeat' (first | with_reducible assumption | with_reducible refine good_satAdd ?_ | with_reducible refine good_if ?_ (fun _ => ?_) | dsimp only | split | with_reducible refine good_upd ?_ rfl rfl rfl)

theorem good_execStackTempRead {q : List Instr} {s : State} {k : StackId} {c : Int} {ondie : Nat} {repeats : Nat} (hG : Good q s) :
    ∃ w, execStackTempRead k c ondie repeats s = .next w ∧ Good q w := by
  refine ⟨_, rfl, ?_⟩
  repeat' (first | with_reducible assumption | with_reducible refine good_powered ?_ (fun _ _ => ?_) | with_reducible refine good_notePar ?_ | with_reducible refine good_noteOndie ?_ | with_reducible refine good_stepRefresh ?_ | with_reducible refine good_upd_ ?_ | with_reducible refine good_lifeMax ?_ | with_reducible refine good_winterCause ?_ | with_reducible refine good_winterClear ?_ | with_reducible refine good_if ?_ (fun _ => ?_) | dsimp only | split)

theorem good_execHbmScrub {q : List Instr} {s : State} {n : SliceId} {block : Nat} {upset : List CellError} (hG : Good q s) :
    ∃ w, execHbmScrub n block upset s = .next w ∧ Good q w := by
  refine ⟨_, rfl, ?_⟩
  repeat' (first | with_reducible assumption | with_reducible refine good_powered ?_ (fun _ _ => ?_) | with_reducible refine good_upsetBurst ?_ | with_reducible refine good_hbmTouch ?_ | with_reducible refine good_if ?_ (fun _ => ?_) | with_reducible refine good_foldl ?_ (fun _ _ _ => ?_) | with_reducible refine good_foldl_snd ?_ (fun _ _ _ => ?_) | with_reducible refine good_foldl_fst ?_ (fun _ _ _ => ?_) | with_reducible refine good_if_snd ?_ (fun _ => ?_) | with_reducible refine good_if_fst ?_ (fun _ => ?_) | dsimp only | split)

theorem good_execHbmChannelFail {q : List Instr} {s : State} {n : SliceId} {exhausted : Nat} (hG : Good q s) :
    ∃ w, execHbmChannelFail n exhausted s = .next w ∧ Good q w := by
  refine ⟨_, rfl, ?_⟩
  repeat' (first | with_reducible assumption | with_reducible refine good_powered ?_ (fun _ _ => ?_) | with_reducible refine good_notePar ?_ | with_reducible refine good_setSlice ?_ | with_reducible refine good_if ?_ (fun _ => ?_) | dsimp only | split)

theorem good_setRetireCmd {q : List Instr} {s : State} {n : Nat} {op : Nat} (hG : Good q s) :
    Good q (setRetireCmd n op s) := by
  unfold setRetireCmd
  repeat' (first | with_reducible assumption | with_reducible refine good_upd_ ?_ | with_reducible refine good_if ?_ (fun _ => ?_) | dsimp only | split)

theorem good_retireCmdWrite {q : List Instr} {s : State} {m : Master} {n : Nat} {op : Nat} (hG : Good q s) :
    Good q (retireCmdWrite m n op s) := by
  unfold retireCmdWrite
  repeat' (first | with_reducible assumption | with_reducible refine good_refusedWrite ?_ | with_reducible refine good_setRetireCmd ?_ | with_reducible refine good_setSlice ?_ | with_reducible refine good_writeRetire ?_ | with_reducible refine good_if ?_ (fun _ => ?_) | dsimp only | split)

theorem good_execMark {q : List Instr} {s : State} {m : Master} {n : Nat} (hG : Good q s) :
    ∃ w, execMark m n s = .next w ∧ Good q w := by
  refine ⟨_, rfl, ?_⟩
  repeat' (first | with_reducible assumption | with_reducible refine good_powered ?_ (fun _ _ => ?_) | with_reducible refine good_asOwner ?_ (fun _ _ => ?_) | with_reducible refine good_retireCmdWrite ?_ | with_reducible refine good_if ?_ (fun _ => ?_) | dsimp only | split)

theorem good_execUnmark {q : List Instr} {s : State} {m : Master} {n : Nat} (hG : Good q s) :
    ∃ w, execUnmark m n s = .next w ∧ Good q w := by
  refine ⟨_, rfl, ?_⟩
  repeat' (first | with_reducible assumption | with_reducible refine good_powered ?_ (fun _ _ => ?_) | with_reducible refine good_asOwner ?_ (fun _ _ => ?_) | with_reducible refine good_retireCmdWrite ?_ | with_reducible refine good_if ?_ (fun _ => ?_) | dsimp only | split)

theorem good_execRestore {q : List Instr} {s : State} {m : Master} {n : Nat} (hG : Good q s) :
    ∃ w, execRestore m n s = .next w ∧ Good q w := by
  refine ⟨_, rfl, ?_⟩
  repeat' (first | with_reducible assumption | with_reducible refine good_powered ?_ (fun _ _ => ?_) | with_reducible refine good_asOwner ?_ (fun _ _ => ?_) | with_reducible refine good_retireCmdWrite ?_ | with_reducible refine good_if ?_ (fun _ => ?_) | dsimp only | split)

theorem good_applyTested {q : List Instr} {s : State} {e : Nat × Nat × Nat} (hG : Good q s) :
    Good q (applyTested s e) := by
  unfold applyTested
  repeat' (first | with_reducible assumption | with_reducible refine good_upd_ ?_ | with_reducible refine good_lifeSet ?_ | with_reducible refine good_logCoded ?_ | with_reducible refine good_retire ?_ | with_reducible refine good_if ?_ (fun _ => ?_) | dsimp only | split)

theorem good_execHbmMemoryTestDone {q : List Instr} {s : State} {failed : List SliceId} {pprRows : Nat} {ms : Nat} (hG : Good q s) :
    ∃ w, execHbmMemoryTestDone failed pprRows ms s = .next w ∧ Good q w := by
  refine ⟨_, rfl, ?_⟩
  repeat' (first | with_reducible assumption | with_reducible refine good_powered ?_ (fun _ _ => ?_) | with_reducible refine good_writeRetire ?_ | with_reducible refine good_countSlices ?_ | with_reducible refine good_applyTested ?_ | with_reducible refine good_upd_ ?_ | with_reducible refine good_if ?_ (fun _ => ?_) | with_reducible refine good_foldl ?_ (fun _ _ _ => ?_) | with_reducible refine good_foldl_snd ?_ (fun _ _ _ => ?_) | with_reducible refine good_foldl_fst ?_ (fun _ _ _ => ?_) | with_reducible refine good_if_snd ?_ (fun _ => ?_) | with_reducible refine good_if_fst ?_ (fun _ => ?_) | dsimp only | split | with_reducible refine good_cleared ?_ rfl rfl rfl | with_reducible refine good_upd ?_ rfl rfl rfl)

end Sys2Proof.Machine
end

