-- ==== Sys2Proof/Laws/GoodLinkCmd.lean ====
section
/-! SUPPORT. Every operation of Machine/LinkCmd.lean keeps a sound state sound. -/

namespace Sys2Proof.Machine

open Sys2Proof

theorem good_tryTrain {q : List Instr} {s : State} {n : Nat} (hG : Good q s) :
    Good q (tryTrain n s) := by
  unfold tryTrain
  repeat' (first | with_reducible assumption | with_reducible refine good_setLinkSt ?_ | with_reducible refine good_enterTrain ?_ | with_reducible refine good_if ?_ (fun _ => ?_) | dsimp only | split)

theorem good_execLinkTrainDone {q : List Instr} {s : State} {n : LinkId} (hG : Good q s) :
    ∃ w, execLinkTrainDone n s = .next w ∧ Good q w := by
  refine ⟨_, rfl, ?_⟩
  repeat' (first | with_reducible assumption | with_reducible refine good_powered ?_ (fun _ _ => ?_) | with_reducible refine good_setLinkSt ?_ | with_reducible refine good_if ?_ (fun _ => ?_) | dsimp only | split)

theorem good_execLinkTrainTimeout {q : List Instr} {s : State} {n : LinkId} (hG : Good q s) :
    ∃ w, execLinkTrainTimeout n s = .next w ∧ Good q w := by
  refine ⟨_, rfl, ?_⟩
  repeat' (first | with_reducible assumption | with_reducible refine good_powered ?_ (fun _ _ => ?_) | with_reducible refine good_linkDown ?_ | with_reducible refine good_received ?_ (fun _ _ => ?_) | with_reducible refine good_if ?_ (fun _ => ?_) | dsimp only | split)

theorem good_execLinkAlignDone {q : List Instr} {s : State} {n : LinkId} {words : List Nat} (hG : Good q s) :
    ∃ w, execLinkAlignDone n words s = .next w ∧ Good q w := by
  refine ⟨_, rfl, ?_⟩
  repeat' (first | with_reducible assumption | with_reducible refine good_powered ?_ (fun _ _ => ?_) | with_reducible refine good_upd_ ?_ | with_reducible refine good_enterInit ?_ | with_reducible refine good_updLink ?_ | with_reducible refine good_if ?_ (fun _ => ?_) | dsimp only | split)

theorem good_execLinkAlignFail {q : List Instr} {s : State} {n : LinkId} (hG : Good q s) :
    ∃ w, execLinkAlignFail n s = .next w ∧ Good q w := by
  refine ⟨_, rfl, ?_⟩
  repeat' (first | with_reducible assumption | with_reducible refine good_powered ?_ (fun _ _ => ?_) | with_reducible refine good_linkDown ?_ | with_reducible refine good_if ?_ (fun _ => ?_) | dsimp only | split)

theorem good_linkEmit {q : List Instr} {s : State} {n : Nat} {fs : List Frame} (hG : Good q s) :
    Good q (linkEmit n fs s) := by
  unfold linkEmit
  repeat' (first | with_reducible assumption | with_reducible refine good_updLink ?_ | with_reducible refine good_if ?_ (fun _ => ?_) | dsimp only | split)

theorem good_linkUpEnter {q : List Instr} {s : State} {n : Nat} (hG : Good q s) :
    Good q (linkUpEnter n s) := by
  unfold linkUpEnter
  repeat' (first | with_reducible assumption | with_reducible refine good_updLink ?_ | with_reducible refine good_setLinkSt ?_ | with_reducible refine good_if ?_ (fun _ => ?_) | dsimp only | split)

theorem good_tryUp {q : List Instr} {s : State} {n : Nat} (hG : Good q s) :
    Good q (tryUp n s) := by
  unfold tryUp
  repeat' (first | with_reducible assumption | with_reducible refine good_linkUpEnter ?_ | with_reducible refine good_if ?_ (fun _ => ?_) | dsimp only | split)

theorem good_execInitFrameSend {q : List Instr} {s : State} {n : LinkId} (hG : Good q s) :
    ∃ w, execInitFrameSend n s = .next w ∧ Good q w := by
  refine ⟨_, rfl, ?_⟩
  repeat' (first | with_reducible assumption | with_reducible refine good_powered ?_ (fun _ _ => ?_) | with_reducible refine good_linkEmit ?_ | with_reducible refine good_tryUp ?_ | with_reducible refine good_updLink ?_ | with_reducible refine good_if ?_ (fun _ => ?_) | dsimp only | split)

theorem good_execInitFrameReceive {q : List Instr} {s : State} {n : LinkId} {f : Frame} (hG : Good q s) :
    ∃ w, execInitFrameReceive n f s = .next w ∧ Good q w := by
  refine ⟨_, rfl, ?_⟩
  repeat' (first | with_reducible assumption | with_reducible refine good_powered ?_ (fun _ _ => ?_) | with_reducible refine good_upd_ ?_ | with_reducible refine good_linkDown ?_ | with_reducible refine good_tryUp ?_ | with_reducible refine good_updLink ?_ | with_reducible refine good_take ?_ | with_reducible refine good_if ?_ (fun _ => ?_) | dsimp only | split)

theorem good_execLinkInitTimeout {q : List Instr} {s : State} {n : LinkId} (hG : Good q s) :
    ∃ w, execLinkInitTimeout n s = .next w ∧ Good q w := by
  refine ⟨_, rfl, ?_⟩
  repeat' (first | with_reducible assumption | with_reducible refine good_powered ?_ (fun _ _ => ?_) | with_reducible refine good_linkDown ?_ | with_reducible refine good_if ?_ (fun _ => ?_) | dsimp only | split)

theorem good_execLinkRetry {q : List Instr} {s : State} {n : LinkId} (hG : Good q s) :
    ∃ w, execLinkRetry n s = .next w ∧ Good q w := by
  refine ⟨_, rfl, ?_⟩
  repeat' (first | with_reducible assumption | with_reducible refine good_powered ?_ (fun _ _ => ?_) | with_reducible refine good_tryTrain ?_ | with_reducible refine good_if ?_ (fun _ => ?_) | dsimp only | split)

theorem good_linkPacket {q : List Instr} {s : State} {n : Nat} {p : Packet} (hG : Good q s) :
    Good q (linkPacket n p s).2 := by
  unfold linkPacket
  repeat' (first | with_reducible assumption | with_reducible refine good_satAdd ?_ | with_reducible refine good_if ?_ (fun _ => ?_) | with_reducible refine good_if_snd ?_ (fun _ => ?_) | dsimp only | split)

theorem good_beginPacket {q : List Instr} {s : State} {n : Nat} {data : Bool} (hG : Good q s) :
    Good q (beginPacket n data s) := by
  unfold beginPacket
  repeat' (first | with_reducible assumption | with_reducible refine good_linkPacket ?_ | with_reducible refine good_addR ?_ | with_reducible refine good_updLink ?_ | with_reducible refine good_if ?_ (fun _ => ?_) | dsimp only | split)

theorem good_fillBody {q : List Instr} {y3 : State} {n : Nat} {y1 : Nat} {y2 : Nat} (hG : Good q y3) :
    Good q (fillBody n y1 y2 y3).2 := by
  induction y1 generalizing y3 y2 with
  | zero =>
    unfold fillBody
    exact hG
  | succ n ih =>
    unfold fillBody
    repeat' (first | with_reducible assumption | with_reducible refine ih ?_ | with_reducible refine good_take ?_ | with_reducible refine good_updLink ?_ | with_reducible refine good_beginPacket ?_ | with_reducible refine good_if ?_ (fun _ => ?_) | with_reducible refine good_if_snd ?_ (fun _ => ?_) | dsimp only | split)

theorem good_nakSent {q : List Instr} {s : State} {n : Nat} (hG : Good q s) :
    Good q (nakSent n s) := by
  unfold nakSent
  repeat' (first | with_reducible assumption | with_reducible refine good_satAdd ?_ | with_reducible refine good_updLink ?_ | with_reducible refine good_send ?_ | with_reducible refine good_if ?_ (fun _ => ?_) | dsimp only | split)

theorem good_linkFrameSend {q : List Instr} {s : State} {n : Nat} (hG : Good q s) :
    Good q (linkFrameSend n s) := by
  unfold linkFrameSend
  repeat' (first | with_reducible assumption | with_reducible refine good_fillBody ?_ | with_reducible refine good_linkEmit ?_ | with_reducible refine good_updLink ?_ | with_reducible refine good_noteStall ?_ | with_reducible refine good_nakSent ?_ | with_reducible refine good_if ?_ (fun _ => ?_) | dsimp only | split)

theorem good_execLinkFrameSend {q : List Instr} {s : State} {n : LinkId} (hG : Good q s) :
    ∃ w, execLinkFrameSend n s = .next w ∧ Good q w := by
  refine ⟨_, rfl, ?_⟩
  repeat' (first | with_reducible assumption | with_reducible refine good_powered ?_ (fun _ _ => ?_) | with_reducible refine good_linkFrameSend ?_ | with_reducible refine good_if ?_ (fun _ => ?_) | dsimp only | split)

theorem good_wantNak {q : List Instr} {s : State} {n : Nat} (hG : Good q s) :
    Good q (wantNak n s) := by
  unfold wantNak
  repeat' (first | with_reducible assumption | with_reducible refine good_updLink ?_ | with_reducible refine good_if ?_ (fun _ => ?_) | dsimp only | split)

theorem good_ackFrames {q : List Instr} {s : State} {n : Nat} {ack : Nat} (hG : Good q s) :
    Good q (ackFrames n ack s) := by
  unfold ackFrames
  repeat' (first | with_reducible assumption | with_reducible refine good_updLink ?_ | with_reducible refine good_if ?_ (fun _ => ?_) | dsimp only | split)

theorem good_creditFrames {q : List Instr} {s : State} {n : Nat} {ccred : Nat} {dcred : Nat} (hG : Good q s) :
    Good q (creditFrames n ccred dcred s) := by
  unfold creditFrames
  repeat' (first | with_reducible assumption | with_reducible refine good_addR ?_ | with_reducible refine good_subR ?_ | with_reducible refine good_noteStall ?_ | with_reducible refine good_updLink ?_ | with_reducible refine good_if ?_ (fun _ => ?_) | dsimp only | split)

theorem good_useHeader {q : List Instr} {s : State} {n : Nat} {f : Frame} (hG : Good q s) :
    Good q (useHeader n f s) := by
  unfold useHeader
  repeat' (first | with_reducible assumption | with_reducible refine good_creditFrames ?_ | with_reducible refine good_ackFrames ?_ | with_reducible refine good_updLink ?_ | with_reducible refine good_leaveBitmap ?_ | with_reducible refine good_upd_ ?_ | with_reducible refine good_if ?_ (fun _ => ?_) | dsimp only | split)

theorem good_returnCredit {q : List Instr} {s : State} {n : Nat} {data : Bool} {k : Nat} (hG : Good q s) :
    Good q (returnCredit n data k s) := by
  unfold returnCredit
  repeat' (first | with_reducible assumption | with_reducible refine good_updLink ?_ | with_reducible refine good_if ?_ (fun _ => ?_) | dsimp only | split)

theorem good_linkPacketIn {q : List Instr} {s : State} {n : Nat} {bs : List Byte} (hG : Good q s) :
    Good q (linkPacketIn n bs s) := by
  unfold linkPacketIn
  repeat' (first | with_reducible assumption | with_reducible refine good_returnCredit ?_ | with_reducible refine good_satAdd ?_ | with_reducible refine good_linkArrived ?_ | with_reducible refine good_take ?_ | with_reducible refine good_if ?_ (fun _ => ?_) | dsimp only | split)

theorem good_takeBody {q : List Instr} {y3 : State} {n : Nat} {y1 : Nat} {y2 : List Byte} (hG : Good q y3) :
    Good q (takeBody n y1 y2 y3) := by
  induction y1 generalizing y3 y2 with
  | zero =>
    unfold takeBody
    exact hG
  | succ n ih =>
    unfold takeBody
    repeat' (first | with_reducible assumption | with_reducible refine ih ?_ | with_reducible refine good_take ?_ | with_reducible refine good_updLink ?_ | with_reducible refine good_linkPacketIn ?_ | with_reducible refine good_if ?_ (fun _ => ?_) | dsimp only | split)

theorem good_fecCount {q : List Instr} {s : State} {n : Nat} {errs : List Nat} (hG : Good q s) :
    Good q (fecCount n errs s) := by
  unfold fecCount
  repeat' (first | with_reducible assumption | with_reducible refine good_updLink ?_ | with_reducible refine good_satAdd ?_ | with_reducible refine good_lifeCount ?_ | with_reducible refine good_if ?_ (fun _ => ?_) | dsimp only | split)

theorem good_crcFail {q : List Instr} {s : State} {n : Nat} (hG : Good q s) :
    Good q (crcFail n s) := by
  unfold crcFail
  repeat' (first | with_reducible assumption | with_reducible refine good_satAdd ?_ | with_reducible refine good_wantNak ?_ | with_reducible refine good_if ?_ (fun _ => ?_) | dsimp only | split)

theorem good_frameArrives {q : List Instr} {s : State} {n : Nat} {errs : List Nat} {f : State → State} (hG : Good q s) (hf : ∀ x0, Good q x0 → Good q (f x0)) :
    Good q (frameArrives n errs f s) := by
  unfold frameArrives
  repeat' (first | with_reducible assumption | with_reducible refine good_fecCount ?_ | with_reducible refine good_crcFail ?_ | with_reducible refine hf _ ?_ | with_reducible refine good_if ?_ (fun _ => ?_) | dsimp only | split)

theorem good_execSeqFrameReceive {q : List Instr} {s : State} {n : LinkId} {f : Frame} {errs : List Nat} (hG : Good q s) :
    ∃ w, execSeqFrameReceive n f errs s = .next w ∧ Good q w := by
  refine ⟨_, rfl, ?_⟩
  repeat' (first | with_reducible assumption | with_reducible refine good_powered ?_ (fun _ _ => ?_) | with_reducible refine good_frameArrives ?_ (fun _ _ => ?_) | with_reducible refine good_useHeader ?_ | with_reducible refine good_takeBody ?_ | with_reducible refine good_updLink ?_ | with_reducible refine good_wantNak ?_ | with_reducible refine good_take ?_ | with_reducible refine good_if ?_ (fun _ => ?_) | dsimp only | split)

theorem good_execNullFrameReceive {q : List Instr} {s : State} {n : LinkId} {f : Frame} {errs : List Nat} (hG : Good q s) :
    ∃ w, execNullFrameReceive n f errs s = .next w ∧ Good q w := by
  refine ⟨_, rfl, ?_⟩
  repeat' (first | with_reducible assumption | with_reducible refine good_powered ?_ (fun _ _ => ?_) | with_reducible refine good_frameArrives ?_ (fun _ _ => ?_) | with_reducible refine good_useHeader ?_ | with_reducible refine good_if ?_ (fun _ => ?_) | dsimp only | split)

theorem good_execFrameCrcFail {q : List Instr} {s : State} {n : LinkId} {errs : List Nat} (hG : Good q s) :
    ∃ w, execFrameCrcFail n errs s = .next w ∧ Good q w := by
  refine ⟨_, rfl, ?_⟩
  repeat' (first | with_reducible assumption | with_reducible refine good_powered ?_ (fun _ _ => ?_) | with_reducible refine good_crcFail ?_ | with_reducible refine good_fecCount ?_ | with_reducible refine good_if ?_ (fun _ => ?_) | dsimp only | split)

theorem good_execNakResend {q : List Instr} {s : State} {n : LinkId} (hG : Good q s) :
    ∃ w, execNakResend n s = .next w ∧ Good q w := by
  refine ⟨_, rfl, ?_⟩
  repeat' (first | with_reducible assumption | with_reducible refine good_powered ?_ (fun _ _ => ?_) | with_reducible refine good_updLink ?_ | with_reducible refine good_if ?_ (fun _ => ?_) | dsimp only | split)

theorem good_lifeReplay {q : List Instr} {s : State} {n : Nat} (hG : Good q s) :
    Good q (lifeReplay n s) := by
  unfold lifeReplay
  repeat' (first | with_reducible assumption | with_reducible refine good_lifeCount ?_ | with_reducible refine good_if ?_ (fun _ => ?_) | dsimp only | split | with_reducible refine good_upd ?_ rfl rfl rfl)

theorem good_replayNow {q : List Instr} {s : State} {n : Nat} (hG : Good q s) :
    Good q (replayNow n s) := by
  unfold replayNow
  repeat' (first | with_reducible assumption | with_reducible refine good_linkDown ?_ | with_reducible refine good_lifeReplay ?_ | with_reducible refine good_satAdd ?_ | with_reducible refine good_linkEmit ?_ | with_reducible refine good_nakSent ?_ | with_reducible refine good_updLink ?_ | with_reducible refine good_if ?_ (fun _ => ?_) | dsimp only | split)

theorem good_execLinkReplay {q : List Instr} {s : State} {n : LinkId} (hG : Good q s) :
    ∃ w, execLinkReplay n s = .next w ∧ Good q w := by
  refine ⟨_, rfl, ?_⟩
  repeat' (first | with_reducible assumption | with_reducible refine good_powered ?_ (fun _ _ => ?_) | with_reducible refine good_updLink ?_ | with_reducible refine good_replayNow ?_ | with_reducible refine good_if ?_ (fun _ => ?_) | dsimp only | split)

theorem good_execLinkReplayTimeout {q : List Instr} {s : State} {n : LinkId} (hG : Good q s) :
    ∃ w, execLinkReplayTimeout n s = .next w ∧ Good q w := by
  refine ⟨_, rfl, ?_⟩
  repeat' (first | with_reducible assumption | with_reducible refine good_powered ?_ (fun _ _ => ?_) | with_reducible refine good_replayNow ?_ | with_reducible refine good_if ?_ (fun _ => ?_) | dsimp only | split)

theorem good_execLinkSilence {q : List Instr} {s : State} {n : LinkId} (hG : Good q s) :
    ∃ w, execLinkSilence n s = .next w ∧ Good q w := by
  refine ⟨_, rfl, ?_⟩
  repeat' (first | with_reducible assumption | with_reducible refine good_powered ?_ (fun _ _ => ?_) | with_reducible refine good_linkDown ?_ | with_reducible refine good_if ?_ (fun _ => ?_) | dsimp only | split)

theorem good_execLinkUcwLimit {q : List Instr} {s : State} {n : LinkId} (hG : Good q s) :
    ∃ w, execLinkUcwLimit n s = .next w ∧ Good q w := by
  refine ⟨_, rfl, ?_⟩
  repeat' (first | with_reducible assumption | with_reducible refine good_powered ?_ (fun _ _ => ?_) | with_reducible refine good_linkDown ?_ | with_reducible refine good_if ?_ (fun _ => ?_) | dsimp only | split)

theorem good_execLinkCreditStall {q : List Instr} {s : State} {n : LinkId} {data : Bool} (hG : Good q s) :
    ∃ w, execLinkCreditStall n data s = .next w ∧ Good q w := by
  refine ⟨_, rfl, ?_⟩
  repeat' (first | with_reducible assumption | with_reducible refine good_powered ?_ (fun _ _ => ?_) | with_reducible refine good_linkDown ?_ | with_reducible refine good_if ?_ (fun _ => ?_) | dsimp only | split)

theorem good_lnkCtrlWrite {q : List Instr} {s : State} {n : Nat} {v : Nat} (hG : Good q s) :
    Good q (lnkCtrlWrite n v s) := by
  unfold lnkCtrlWrite
  repeat' (first | with_reducible assumption | with_reducible refine good_put ?_ _ _ | with_reducible refine good_setLinkSt ?_ | with_reducible refine good_linkDownTo ?_ | with_reducible refine good_tryTrain ?_ | with_reducible refine good_freeNat ?_ | with_reducible refine good_if ?_ (fun _ => ?_) | dsimp only | split)

theorem good_execLnkCtrlWrite {q : List Instr} {s : State} {m : Master} {n : LinkId} {v : Nat} (hG : Good q s) :
    ∃ w, execLnkCtrlWrite m n v s = .next w ∧ Good q w := by
  refine ⟨_, rfl, ?_⟩
  repeat' (first | with_reducible assumption | with_reducible refine good_powered ?_ (fun _ _ => ?_) | with_reducible refine good_asOwner ?_ (fun _ _ => ?_) | with_reducible refine good_lnkCtrlWrite ?_ | with_reducible refine good_if ?_ (fun _ => ?_) | dsimp only | split)

theorem good_lnkNarrowWrite {q : List Instr} {s : State} {m : Master} {i : Nat} {off : Nat} {width : Nat} {v : Nat} (hG : Good q s) :
    Good q (lnkNarrowWrite m i off width v s) := by
  unfold lnkNarrowWrite
  repeat' (first | with_reducible assumption | with_reducible refine good_refusedWrite ?_ | with_reducible refine good_put ?_ _ _ | with_reducible refine good_if ?_ (fun _ => ?_) | dsimp only | split)

theorem good_execLnkNarrowWrite {q : List Instr} {s : State} {m : Master} {i : Fin 16} {half : Half} {v : Nat} (hG : Good q s) :
    ∃ w, execLnkNarrowWrite m i half v s = .next w ∧ Good q w := by
  refine ⟨_, rfl, ?_⟩
  repeat' (first | with_reducible assumption | with_reducible refine good_powered ?_ (fun _ _ => ?_) | with_reducible refine good_asOwner ?_ (fun _ _ => ?_) | with_reducible refine good_lnkNarrowWrite ?_ | with_reducible refine good_if ?_ (fun _ => ?_) | dsimp only | split)

theorem good_lnkCntClear {q : List Instr} {s : State} {f : Nat} (hG : Good q s) :
    Good q (lnkCntClear f s) := by
  unfold lnkCntClear
  repeat' (first | with_reducible assumption | with_reducible refine good_put ?_ _ _ | with_reducible refine good_if ?_ (fun _ => ?_) | with_reducible refine good_foldl ?_ (fun _ _ _ => ?_) | with_reducible refine good_foldl_snd ?_ (fun _ _ _ => ?_) | with_reducible refine good_foldl_fst ?_ (fun _ _ _ => ?_) | with_reducible refine good_if_snd ?_ (fun _ => ?_) | with_reducible refine good_if_fst ?_ (fun _ => ?_) | dsimp only | split)

theorem good_execLnkCntClear {q : List Instr} {s : State} {m : Master} {f : FieldId} (hG : Good q s) :
    ∃ w, execLnkCntClear m f s = .next w ∧ Good q w := by
  refine ⟨_, rfl, ?_⟩
  repeat' (first | with_reducible assumption | with_reducible refine good_powered ?_ (fun _ _ => ?_) | with_reducible refine good_asOwner ?_ (fun _ _ => ?_) | with_reducible refine good_lnkCntClear ?_ | with_reducible refine good_if ?_ (fun _ => ?_) | dsimp only | split)

end Sys2Proof.Machine
end

