-- ==== Sys2Proof/Laws/GoodDataflow.lean ====
section
/-! SUPPORT. Every operation of Machine/Dataflow.lean keeps a sound state sound. -/

namespace Sys2Proof.Machine

open Sys2Proof

theorem good_setQueue {q : List Instr} {s : State} {t : Nat} {z1 : Nat} {r : QueueRun} (hG : Good q s) :
    Good q (setQueue t z1 r s) := by
  unfold setQueue
  repeat' (first | with_reducible assumption | with_reducible refine good_updTile ?_ | with_reducible refine good_if ?_ (fun _ => ?_) | dsimp only | split)

theorem good_setUnit {q : List Instr} {s : State} {t : Nat} {u : Nat} {r : UnitRun} (hG : Good q s) :
    Good q (setUnit t u r s) := by
  unfold setUnit
  repeat' (first | with_reducible assumption | with_reducible refine good_updTile ?_ | with_reducible refine good_if ?_ (fun _ => ?_) | dsimp only | split)

theorem good_addCredit {q : List Instr} {s : State} {t : Nat} {e : Nat} {n : Nat} (hG : Good q s) :
    Good q (addCredit t e n s) := by
  unfold addCredit
  repeat' (first | with_reducible assumption | with_reducible refine good_updTile ?_ | with_reducible refine good_if ?_ (fun _ => ?_) | dsimp only | split)

theorem good_subCredit {q : List Instr} {s : State} {t : Nat} {e : Nat} {n : Nat} (hG : Good q s) :
    Good q (subCredit t e n s) := by
  unfold subCredit
  repeat' (first | with_reducible assumption | with_reducible refine good_updTile ?_ | with_reducible refine good_if ?_ (fun _ => ?_) | dsimp only | split)

theorem good_setCredit {q : List Instr} {s : State} {t : Nat} {e : Nat} {n : Nat} (hG : Good q s) :
    Good q (setCredit t e n s) := by
  unfold setCredit
  repeat' (first | with_reducible assumption | with_reducible refine good_updTile ?_ | with_reducible refine good_if ?_ (fun _ => ?_) | dsimp only | split)

theorem good_noteIn {q : List Instr} {s : State} {t : Nat} {z1 : Nat} (hG : Good q s) :
    Good q (noteIn t z1 s) := by
  unfold noteIn
  repeat' (first | with_reducible assumption | with_reducible refine good_addR ?_ | with_reducible refine good_upd_ ?_ | with_reducible refine good_if ?_ (fun _ => ?_) | dsimp only | split)

theorem good_enqueue {q : List Instr} {s : State} {t : Nat} {z1 : Nat} {op : Nat} {drained : Bool} (hG : Good q s) :
    Good q (enqueue t z1 op drained s) := by
  unfold enqueue
  repeat' (first | with_reducible assumption | with_reducible refine good_setQueue ?_ | with_reducible refine good_updTile ?_ | with_reducible refine good_setUnit ?_ | with_reducible refine good_noteIn ?_ | with_reducible refine good_if ?_ (fun _ => ?_) | dsimp only | split)

theorem good_deliver {q : List Instr} {s : State} {t : Nat} {z1 : Nat} {op : Nat} (hG : Good q s) :
    Good q (deliver t z1 op s) := by
  unfold deliver
  repeat' (first | with_reducible assumption | with_reducible refine good_tagFault ?_ | with_reducible refine good_enqueue ?_ | with_reducible refine good_if ?_ (fun _ => ?_) | dsimp only | split)

theorem good_deliverNotes {q : List Instr} {s : State} {t : Nat} {z1 : Nat} (hG : Good q s) :
    Good q (deliverNotes t z1 s) := by
  unfold deliverNotes
  repeat' (first | with_reducible assumption | with_reducible refine good_deliver ?_ | with_reducible refine good_updTile ?_ | with_reducible refine good_if ?_ (fun _ => ?_) | dsimp only | split)

theorem good_placeNote {q : List Instr} {s : State} {t : Nat} {z1 : Nat} {op : Nat} (hG : Good q s) :
    Good q (placeNote t z1 op s).2 := by
  unfold placeNote
  repeat' (first | with_reducible assumption | with_reducible refine good_deliver ?_ | with_reducible refine good_updTile ?_ | with_reducible refine good_if ?_ (fun _ => ?_) | with_reducible refine good_if_snd ?_ (fun _ => ?_) | dsimp only | split)

theorem good_flyWords {q : List Instr} {s : State} {t : Nat} {z1 : Nat} {op : Nat} {ws : List (List LaneWord)} {n : Nat} (hG : Good q s) :
    Good q (flyWords t z1 op ws n s) := by
  unfold flyWords
  repeat' (first | with_reducible assumption | with_reducible refine good_updTile ?_ | with_reducible refine good_if ?_ (fun _ => ?_) | dsimp only | split)

theorem good_inFlight {q : List Instr} {s : State} {t : Nat} {z1 : Nat} {op : Nat} {n : Nat} (hG : Good q s) :
    Good q (inFlight t z1 op n s) := by
  unfold inFlight
  repeat' (first | with_reducible assumption | with_reducible refine good_flyWords ?_ | with_reducible refine good_if ?_ (fun _ => ?_) | dsimp only | split)

theorem good_sendOperands {q : List Instr} {t dst z : Nat} : ∀ {l : List Nat} {s : State}, Good q s →
    Good q (sendOperands t dst z l s)
  | [], _, hG => hG
  | [_], _, hG => good_sendAwaited hG
  | _ :: _ :: _, _, hG => by
    unfold sendOperands
    exact good_sendOperands (good_sendAwaited hG)

theorem good_dropAside {q : List Instr} {s : State} {e : Nat} {n : Nat} (hG : Good q s) :
    Good q (dropAside e n s) := by
  unfold dropAside
  repeat' (first | with_reducible assumption | with_reducible refine good_satAdd ?_ | with_reducible refine good_if ?_ (fun _ => ?_) | with_reducible refine good_foldl ?_ (fun _ _ _ => ?_) | with_reducible refine good_foldl_snd ?_ (fun _ _ _ => ?_) | with_reducible refine good_foldl_fst ?_ (fun _ _ _ => ?_) | with_reducible refine good_if_snd ?_ (fun _ => ?_) | with_reducible refine good_if_fst ?_ (fun _ => ?_) | dsimp only | split)

theorem good_gatherAt {q : List Instr} {s : State} {t : Nat} {ch : Nat} {k : Nat} {bs : List Byte} (hG : Good q s) :
    Good q (gatherAt t ch k bs s) := by
  unfold gatherAt
  repeat' (first | with_reducible assumption | with_reducible refine good_setChan ?_ | with_reducible refine good_take ?_ | with_reducible refine good_if ?_ (fun _ => ?_) | dsimp only | split)

theorem good_sendLattice {q : List Instr} {s : State} {t : Nat} {ch : Nat} {lead : Nat} {ops : List Nat} (hG : Good q s) :
    Good q (sendLattice t ch lead ops s) := by
  unfold sendLattice
  repeat' (first | with_reducible assumption | with_reducible refine good_dropAside ?_ | with_reducible refine good_gatherAt ?_ | with_reducible refine good_satAdd ?_ | with_reducible refine good_flyWords ?_ | with_reducible refine good_if ?_ (fun _ => ?_) | with_reducible refine good_foldl ?_ (fun _ _ _ => ?_) | with_reducible refine good_foldl_snd ?_ (fun _ _ _ => ?_) | with_reducible refine good_foldl_fst ?_ (fun _ _ _ => ?_) | with_reducible refine good_if_snd ?_ (fun _ => ?_) | with_reducible refine good_if_fst ?_ (fun _ => ?_) | dsimp only | split)

theorem good_emit {q : List Instr} {s : State} {t : Nat} {e : Nat} {lead : Nat} {ops : List Nat} (hG : Good q s) :
    Good q (emit t e lead ops s) := by
  unfold emit
  repeat' (first | with_reducible assumption | with_reducible refine good_inFlight ?_ | with_reducible refine good_sendLattice ?_ | with_reducible refine good_sendOperands ?_ | with_reducible refine good_if ?_ (fun _ => ?_) | with_reducible refine good_foldl ?_ (fun _ _ _ => ?_) | with_reducible refine good_foldl_snd ?_ (fun _ _ _ => ?_) | with_reducible refine good_foldl_fst ?_ (fun _ _ _ => ?_) | with_reducible refine good_if_snd ?_ (fun _ => ?_) | with_reducible refine good_if_fst ?_ (fun _ => ?_) | dsimp only | split)

theorem good_freeSlots {q : List Instr} {s : State} {t : Nat} {back : List (Nat × Nat)} (hG : Good q s) :
    Good q (freeSlots t back s) := by
  unfold freeSlots
  repeat' (first | with_reducible assumption | with_reducible refine good_returnCredits ?_ | with_reducible refine good_if ?_ (fun _ => ?_) | with_reducible refine good_foldl ?_ (fun _ _ _ => ?_) | with_reducible refine good_foldl_snd ?_ (fun _ _ _ => ?_) | with_reducible refine good_foldl_fst ?_ (fun _ _ _ => ?_) | with_reducible refine good_if_snd ?_ (fun _ => ?_) | with_reducible refine good_if_fst ?_ (fun _ => ?_) | dsimp only | split)

end Sys2Proof.Machine
end

