-- ==== Sys2Proof/Laws/GoodInteg.lean ====
section
/-! SUPPORT. Every operation of Machine/Integ.lean keeps a sound state sound. -/

namespace Sys2Proof.Machine

open Sys2Proof

theorem good_itg {q : List Instr} {s : State} {f : IntegState → IntegState} (hG : Good q s) :
    Good q (itg f s) := by
  unfold itg
  repeat' (first | with_reducible assumption | with_reducible refine good_if ?_ (fun _ => ?_) | dsimp only | split | with_reducible refine good_upd ?_ rfl rfl rfl)

theorem good_intCount {q : List Instr} {s : State} {i : Nat} {n : Nat} (hG : Good q s) :
    Good q (intCount i n s) := by
  unfold intCount
  repeat' (first | with_reducible assumption | with_reducible refine good_addR ?_ | with_reducible refine good_if ?_ (fun _ => ?_) | dsimp only | split)

theorem good_countCheck {q : List Instr} {s : State} {c : Nat} (hG : Good q s) :
    Good q (countCheck c s) := by
  unfold countCheck
  repeat' (first | with_reducible assumption | with_reducible refine good_intCount ?_ | with_reducible refine good_take ?_ | with_reducible refine good_if ?_ (fun _ => ?_) | dsimp only | split)

theorem good_overrideCause {q : List Instr} {s : State} (hG : Good q s) :
    Good q (overrideCause s) := by
  unfold overrideCause
  repeat' (first | with_reducible assumption | with_reducible refine good_mapReqs ?_ | with_reducible refine good_if ?_ (fun _ => ?_) | dsimp only | split)

theorem good_logInteg {q : List Instr} {s : State} {sev : Nat} {kind : Nat} {check : Nat} {t : Nat} {detail : Nat} (hG : Good q s) :
    Good q (logInteg sev kind check t detail s) := by
  unfold logInteg
  repeat' (first | with_reducible assumption | with_reducible refine good_logEvent ?_ | with_reducible refine good_if ?_ (fun _ => ?_) | dsimp only | split)

theorem good_checkRemap {q : List Instr} {s : State} {t : Nat} {check : Nat} (hG : Good q s) :
    Good q (checkRemap t check s) := by
  unfold checkRemap
  repeat' (first | with_reducible assumption | with_reducible refine good_remapRequest ?_ | with_reducible refine good_logInteg ?_ | with_reducible refine good_intCount ?_ | with_reducible refine good_if ?_ (fun _ => ?_) | dsimp only | split)

theorem good_noteStaying {q : List Instr} {s : State} {t : Nat} {check : Nat} (hG : Good q s) :
    Good q (noteStaying t check s) := by
  unfold noteStaying
  repeat' (first | with_reducible assumption | with_reducible refine good_itg ?_ | with_reducible refine good_checkRemap ?_ | with_reducible refine good_if ?_ (fun _ => ?_) | dsimp only | split)

theorem good_integrityFaultAs {q : List Instr} {s : State} {t : Nat} {check : Nat} {detail : Nat} (hG : Good q s) :
    Good q (integrityFaultAs t check detail s) := by
  unfold integrityFaultAs
  repeat' (first | with_reducible assumption | with_reducible refine good_itg ?_ | with_reducible refine good_countCheck ?_ | with_reducible refine good_recordFault ?_ | with_reducible refine good_logInteg ?_ | with_reducible refine good_overrideCause ?_ | with_reducible refine good_batchFail ?_ | with_reducible refine good_haltGraph ?_ | with_reducible refine good_checkRemap ?_ | with_reducible refine good_noteStaying ?_ | with_reducible refine good_if ?_ (fun _ => ?_) | dsimp only | split)

theorem good_integrityFault {q : List Instr} {s : State} {t : Nat} {check : Nat} (hG : Good q s) :
    Good q (integrityFault t check s) := by
  unfold integrityFault
  repeat' (first | with_reducible assumption | with_reducible refine good_integrityFaultAs ?_ | with_reducible refine good_if ?_ (fun _ => ?_) | dsimp only | split)

theorem good_latticeParity {q : List Instr} {s : State} {t : Nat} {n : Nat} (hG : Good q s) :
    Good q (latticeParity t n s) := by
  unfold latticeParity
  repeat' (first | with_reducible assumption | with_reducible refine good_integrityFault ?_ | with_reducible refine good_satAdd ?_ | with_reducible refine good_if ?_ (fun _ => ?_) | dsimp only | split)

theorem good_correctWords {q : List Instr} {s : State} {t : Nat} {k : Nat} {w : Nat} {n : Nat} (hG : Good q s) :
    Good q (correctWords t k w n s) := by
  unfold correctWords
  repeat' (first | with_reducible assumption | with_reducible refine good_logInteg ?_ | with_reducible refine good_intCount ?_ | with_reducible refine good_setTile ?_ | with_reducible refine good_if ?_ (fun _ => ?_) | dsimp only | split)

theorem good_correctRange {q : List Instr} {s : State} {t : Nat} {k : Nat} {u : Nat} {n : Nat} (hG : Good q s) :
    Good q (correctRange t k u n s) := by
  unfold correctRange
  repeat' (first | with_reducible assumption | with_reducible refine good_correctWords ?_ | with_reducible refine good_if ?_ (fun _ => ?_) | dsimp only | split)

theorem good_readRange {q : List Instr} {s : State} {t : Nat} {k : Nat} {u : Nat} {n : Nat} (hG : Good q s) :
    Good q (readRange t k u n s).2 := by
  unfold readRange
  repeat' (first | with_reducible assumption | with_reducible refine good_correctRange ?_ | with_reducible refine good_integrityFault ?_ | with_reducible refine good_intCount ?_ | with_reducible refine good_powered ?_ (fun _ _ => ?_) | with_reducible refine good_if ?_ (fun _ => ?_) | with_reducible refine good_if_snd ?_ (fun _ => ?_) | dsimp only | split)

theorem good_katAll {q : List Instr} {s : State} {failed : List Nat} (hG : Good q s) :
    Good q (katAll failed s) := by
  unfold katAll
  repeat' (first | with_reducible assumption | with_reducible refine good_addR ?_ | with_reducible refine good_sinceKatZero ?_ | with_reducible refine good_integrityFault ?_ | with_reducible refine good_if ?_ (fun _ => ?_) | with_reducible refine good_foldl ?_ (fun _ _ _ => ?_) | with_reducible refine good_foldl_snd ?_ (fun _ _ _ => ?_) | with_reducible refine good_foldl_fst ?_ (fun _ _ _ => ?_) | with_reducible refine good_if_snd ?_ (fun _ => ?_) | with_reducible refine good_if_fst ?_ (fun _ => ?_) | dsimp only | split)

theorem good_markUnverified {q : List Instr} {s : State} {t : Nat} (hG : Good q s) :
    Good q (markUnverified t s) := by
  unfold markUnverified
  repeat' (first | with_reducible assumption | with_reducible refine good_upd_ ?_ | with_reducible refine good_if ?_ (fun _ => ?_) | dsimp only | split)

theorem good_resetSince {q : List Instr} {s : State} {t : Nat} (hG : Good q s) :
    Good q (resetSince t s) := by
  unfold resetSince
  repeat' (first | with_reducible assumption | with_reducible refine good_markUnverified ?_ | with_reducible refine good_upd_ ?_ | with_reducible refine good_if ?_ (fun _ => ?_) | dsimp only | split)

theorem good_takePhase {q : List Instr} {s : State} {t : Nat} {n : Nat} (hG : Good q s) :
    Good q (takePhase t n s) := by
  unfold takePhase
  repeat' (first | with_reducible assumption | with_reducible refine good_freeNat ?_ | with_reducible refine good_upd_ ?_ | with_reducible refine good_if ?_ (fun _ => ?_) | dsimp only | split)

theorem good_selectStep {q : List Instr} {s : State} {t : Nat} (hG : Good q s) :
    Good q (selectStep t s).2 := by
  unfold selectStep
  repeat' (first | with_reducible assumption | with_reducible refine good_itg ?_ | with_reducible refine good_upd_ ?_ | with_reducible refine good_takePhase ?_ | with_reducible refine good_if ?_ (fun _ => ?_) | with_reducible refine good_if_snd ?_ (fun _ => ?_) | dsimp only | split)

theorem good_beginStep {q : List Instr} {s : State} {t : Nat} (hG : Good q s) :
    Good q (beginStep t s) := by
  unfold beginStep
  repeat' (first | with_reducible assumption | with_reducible refine good_updTile ?_ | with_reducible refine good_intCount ?_ | with_reducible refine good_mapReqs ?_ | with_reducible refine good_markUnverified ?_ | with_reducible refine good_satAdd ?_ | with_reducible refine good_if ?_ (fun _ => ?_) | dsimp only | split)

theorem good_addItems {q : List Instr} {s : State} {t : Nat} {d : Nat} {items : List (List Byte)} (hG : Good q s) :
    Good q (addItems t d items s) := by
  unfold addItems
  repeat' (first | with_reducible assumption | with_reducible refine good_updTile ?_ | with_reducible refine good_if ?_ (fun _ => ?_) | with_reducible refine good_foldl ?_ (fun _ _ _ => ?_) | with_reducible refine good_foldl_snd ?_ (fun _ _ _ => ?_) | with_reducible refine good_foldl_fst ?_ (fun _ _ _ => ?_) | with_reducible refine good_if_snd ?_ (fun _ => ?_) | with_reducible refine good_if_fst ?_ (fun _ => ?_) | dsimp only | split)

theorem good_emitOps {q : List Instr} {s : State} {t : Nat} {u : Nat} {e : Nat} {lead : Nat} {ops : List Nat} (hG : Good q s) :
    Good q (emitOps t u e lead ops s) := by
  unfold emitOps
  repeat' (first | with_reducible assumption | with_reducible refine good_emit ?_ | with_reducible refine good_addItems ?_ | with_reducible refine good_if ?_ (fun _ => ?_) | dsimp only | split)

theorem good_emitPlain {q : List Instr} {s : State} {t : Nat} {u : Nat} {first : Nat} {skips : Nat} {lead : Nat} (hG : Good q s) :
    Good q (emitPlain t u first skips lead s) := by
  unfold emitPlain
  repeat' (first | with_reducible assumption | with_reducible refine good_emitOps ?_ | with_reducible refine good_if ?_ (fun _ => ?_) | with_reducible refine good_foldl ?_ (fun _ _ _ => ?_) | with_reducible refine good_foldl_snd ?_ (fun _ _ _ => ?_) | with_reducible refine good_foldl_fst ?_ (fun _ _ _ => ?_) | with_reducible refine good_if_snd ?_ (fun _ => ?_) | with_reducible refine good_if_fst ?_ (fun _ => ?_) | dsimp only | split)

end Sys2Proof.Machine
end

