-- ==== Sys2Proof/Laws/GoodRepair.lean ====
section
/-! SUPPORT. Every operation of Machine/Repair.lean keeps a sound state sound. -/

namespace Sys2Proof.Machine

open Sys2Proof

theorem good_bt {q : List Instr} {s : State} {f : BootState → BootState} (hG : Good q s) :
    Good q (bt f s) := by
  unfold bt
  repeat' (first | with_reducible assumption | with_reducible refine good_if ?_ (fun _ => ?_) | dsimp only | split | with_reducible refine good_upd ?_ rfl rfl rfl)

theorem good_journalRecover {q : List Instr} {s : State} (hG : Good q s) :
    Good q (journalRecover s).1 := by
  unfold journalRecover
  repeat' (first | with_reducible assumption | with_reducible refine good_storeMap ?_ | with_reducible refine good_bt ?_ | with_reducible refine good_satAdd ?_ | with_reducible refine good_lifeCount ?_ | with_reducible refine good_journalAdd ?_ | with_reducible refine good_logOpen ?_ | with_reducible refine good_if ?_ (fun _ => ?_) | with_reducible refine good_if_snd ?_ (fun _ => ?_) | with_reducible refine good_if_fst ?_ (fun _ => ?_) | dsimp only | split)

theorem good_remapRetry {q : List Instr} {s : State} {r : Remap} {bad : List Nat} (hG : Good q s) :
    Good q (remapRetry r bad s) := by
  unfold remapRetry
  repeat' (first | with_reducible assumption | with_reducible refine good_bt ?_ | with_reducible refine good_logCoded ?_ | with_reducible refine good_selectTargets ?_ | with_reducible refine good_powered ?_ (fun _ _ => ?_) | with_reducible refine good_if ?_ (fun _ => ?_) | with_reducible refine good_foldl ?_ (fun _ _ _ => ?_) | with_reducible refine good_foldl_snd ?_ (fun _ _ _ => ?_) | with_reducible refine good_foldl_fst ?_ (fun _ _ _ => ?_) | with_reducible refine good_if_snd ?_ (fun _ => ?_) | with_reducible refine good_if_fst ?_ (fun _ => ?_) | dsimp only | split)

theorem good_execRemapTargetsReady {q : List Instr} {s : State} {fails : List Nat} (hG : Good q s) :
    ∃ w, execRemapTargetsReady fails s = .next w ∧ Good q w := by
  refine ⟨_, rfl, ?_⟩
  repeat' (first | with_reducible assumption | with_reducible refine good_powered ?_ (fun _ _ => ?_) | with_reducible refine good_addR ?_ | with_reducible refine good_remapRetry ?_ | with_reducible refine good_bt ?_ | with_reducible refine good_quiesced ?_ | with_reducible refine good_if ?_ (fun _ => ?_) | dsimp only | split)

theorem good_execRemapBeginWritten {q : List Instr} {s : State} (hG : Good q s) :
    ∃ w, execRemapBeginWritten s = .next w ∧ Good q w := by
  refine ⟨_, rfl, ?_⟩
  repeat' (first | with_reducible assumption | with_reducible refine good_powered ?_ (fun _ _ => ?_) | with_reducible refine good_journalAdd ?_ | with_reducible refine good_upd_ ?_ | with_reducible refine good_bt ?_ | with_reducible refine good_logOpen ?_ | with_reducible refine good_abandonRound ?_ | with_reducible refine good_markRemapped ?_ | with_reducible refine good_quiesced ?_ | with_reducible refine good_if ?_ (fun _ => ?_) | dsimp only | split)

theorem good_execRemapCopyDone {q : List Instr} {s : State} {bad : List Nat} (hG : Good q s) :
    ∃ w, execRemapCopyDone bad s = .next w ∧ Good q w := by
  refine ⟨_, rfl, ?_⟩
  repeat' (first | with_reducible assumption | with_reducible refine good_powered ?_ (fun _ _ => ?_) | with_reducible refine good_remapRetry ?_ | with_reducible refine good_bt ?_ | with_reducible refine good_if ?_ (fun _ => ?_) | dsimp only | split)

theorem good_execRemapCommitWritten {q : List Instr} {s : State} (hG : Good q s) :
    ∃ w, execRemapCommitWritten s = .next w ∧ Good q w := by
  refine ⟨_, rfl, ?_⟩
  repeat' (first | with_reducible assumption | with_reducible refine good_powered ?_ (fun _ _ => ?_) | with_reducible refine good_journalAdd ?_ | with_reducible refine good_bt ?_ | with_reducible refine good_openSites ?_ | with_reducible refine good_resetTileRegs ?_ | with_reducible refine good_reloadTile ?_ | with_reducible refine good_sinceKatZero ?_ | with_reducible refine good_quiesceTables ?_ | with_reducible refine good_resetChannels ?_ | with_reducible refine good_logOpen ?_ | with_reducible refine good_upd_ ?_ | with_reducible refine good_if ?_ (fun _ => ?_) | with_reducible refine good_foldl ?_ (fun _ _ _ => ?_) | with_reducible refine good_foldl_snd ?_ (fun _ _ _ => ?_) | with_reducible refine good_foldl_fst ?_ (fun _ _ _ => ?_) | with_reducible refine good_if_snd ?_ (fun _ => ?_) | with_reducible refine good_if_fst ?_ (fun _ => ?_) | dsimp only | split | with_reducible refine good_upd ?_ rfl rfl rfl)

theorem good_execRemapEndWritten {q : List Instr} {s : State} (hG : Good q s) :
    ∃ w, execRemapEndWritten s = .next w ∧ Good q w := by
  refine ⟨_, rfl, ?_⟩
  repeat' (first | with_reducible assumption | with_reducible refine good_powered ?_ (fun _ _ => ?_) | with_reducible refine good_bt ?_ | with_reducible refine good_journalAdd ?_ | with_reducible refine good_writeMap ?_ | with_reducible refine good_satAdd ?_ | with_reducible refine good_upd_ ?_ | with_reducible refine good_startRemap ?_ | with_reducible refine good_logOpen ?_ | with_reducible refine good_lifeCount ?_ | with_reducible refine good_if ?_ (fun _ => ?_) | dsimp only | split)

theorem good_execStandbyPromote {q : List Instr} {s : State} {f : FieldId} {katPass : Bool} (hG : Good q s) :
    ∃ w, execStandbyPromote f katPass s = .next w ∧ Good q w := by
  refine ⟨_, rfl, ?_⟩
  repeat' (first | with_reducible assumption | with_reducible refine good_powered ?_ (fun _ _ => ?_) | with_reducible refine good_addR ?_ | with_reducible refine good_writeMap ?_ | with_reducible refine good_bt ?_ | with_reducible refine good_logCoded ?_ | with_reducible refine good_if ?_ (fun _ => ?_) | dsimp only | split)

theorem good_finishFabricReset {q : List Instr} {s : State} {failed : List Nat} (hG : Good q s) :
    Good q (finishFabricReset failed s) := by
  unfold finishFabricReset
  repeat' (first | with_reducible assumption | with_reducible refine good_resetRegs ?_ _ _ | with_reducible refine good_journalRecover ?_ | with_reducible refine good_fabricCleared ?_ | with_reducible refine good_bt ?_ | with_reducible refine good_loadMap ?_ | with_reducible refine good_chooseTs ?_ | with_reducible refine good_upd_ ?_ | with_reducible refine good_satAdd ?_ | with_reducible refine good_clusterOn ?_ | with_reducible refine good_reloadSeason ?_ | with_reducible refine good_katAll ?_ | with_reducible refine good_linkUnfence ?_ | with_reducible refine good_rejoinPorts ?_ | with_reducible refine good_startRemap ?_ | with_reducible refine good_if ?_ (fun _ => ?_) | with_reducible refine good_foldl ?_ (fun _ _ _ => ?_) | with_reducible refine good_foldl_snd ?_ (fun _ _ _ => ?_) | with_reducible refine good_foldl_fst ?_ (fun _ _ _ => ?_) | with_reducible refine good_if_snd ?_ (fun _ => ?_) | with_reducible refine good_if_fst ?_ (fun _ => ?_) | dsimp only | split | with_reducible refine good_upd ?_ rfl rfl rfl)

theorem good_execFabricReset {q : List Instr} {s : State} {cause : ResetCause} {failed : List Nat} (hG : Good q s) :
    ∃ w, execFabricReset cause failed s = .next w ∧ Good q w := by
  refine ⟨_, rfl, ?_⟩
  repeat' (first | with_reducible assumption | with_reducible refine good_powered ?_ (fun _ _ => ?_) | with_reducible refine good_startFabricReset ?_ | with_reducible refine good_finishFabricReset ?_ | with_reducible refine good_if ?_ (fun _ => ?_) | dsimp only | split)

theorem good_execDeviceReset {q : List Instr} {s : State} {cause : ResetCause} (hG : Good q s) :
    ∃ w, execDeviceReset cause s = .next w ∧ Good q w := by
  refine ⟨_, rfl, ?_⟩
  repeat' (first | with_reducible assumption | with_reducible refine good_powered ?_ (fun _ _ => ?_) | with_reducible refine good_deviceReset ?_ | with_reducible refine good_if ?_ (fun _ => ?_) | dsimp only | split)

theorem good_execFcWatchdogExpire {q : List Instr} {s : State} {f : FieldId} (hG : Good q s) :
    ∃ w, execFcWatchdogExpire f s = .next w ∧ Good q w := by
  refine ⟨_, rfl, ?_⟩
  repeat' (first | with_reducible assumption | with_reducible refine good_powered ?_ (fun _ _ => ?_) | with_reducible refine good_startFabricReset ?_ | with_reducible refine good_logOpen ?_ | with_reducible refine good_if ?_ (fun _ => ?_) | dsimp only | split)

theorem good_execSupWatchdogExpire {q : List Instr} {s : State} (hG : Good q s) :
    ∃ w, execSupWatchdogExpire s = .next w ∧ Good q w := by
  refine ⟨_, rfl, ?_⟩
  repeat' (first | with_reducible assumption | with_reducible refine good_powered ?_ (fun _ _ => ?_) | with_reducible refine good_deviceReset ?_ | with_reducible refine good_if ?_ (fun _ => ?_) | dsimp only | split)

theorem good_resetCmdWrite {q : List Instr} {s : State} {m : Master} {op : Nat} (hG : Good q s) :
    Good q (resetCmdWrite m op s) := by
  unfold resetCmdWrite
  repeat' (first | with_reducible assumption | with_reducible refine good_upd_ ?_ | with_reducible refine good_startFabricReset ?_ | with_reducible refine good_deviceReset ?_ | with_reducible refine good_refusedWrite ?_ | with_reducible refine good_if ?_ (fun _ => ?_) | dsimp only | split)

theorem good_execResetCmdFabric {q : List Instr} {s : State} {m : Master} (hG : Good q s) :
    ∃ w, execResetCmdFabric m s = .next w ∧ Good q w := by
  refine ⟨_, rfl, ?_⟩
  repeat' (first | with_reducible assumption | with_reducible refine good_powered ?_ (fun _ _ => ?_) | with_reducible refine good_asOwner ?_ (fun _ _ => ?_) | with_reducible refine good_resetCmdWrite ?_ | with_reducible refine good_if ?_ (fun _ => ?_) | dsimp only | split)

theorem good_execResetCmdDevice {q : List Instr} {s : State} {m : Master} (hG : Good q s) :
    ∃ w, execResetCmdDevice m s = .next w ∧ Good q w := by
  refine ⟨_, rfl, ?_⟩
  repeat' (first | with_reducible assumption | with_reducible refine good_powered ?_ (fun _ _ => ?_) | with_reducible refine good_asOwner ?_ (fun _ _ => ?_) | with_reducible refine good_resetCmdWrite ?_ | with_reducible refine good_if ?_ (fun _ => ?_) | dsimp only | split)

theorem good_execResetCmdReserved {q : List Instr} {s : State} {m : Master} (hG : Good q s) :
    ∃ w, execResetCmdReserved m s = .next w ∧ Good q w := by
  refine ⟨_, rfl, ?_⟩
  repeat' (first | with_reducible assumption | with_reducible refine good_powered ?_ (fun _ _ => ?_) | with_reducible refine good_asOwner ?_ (fun _ _ => ?_) | with_reducible refine good_resetCmdWrite ?_ | with_reducible refine good_if ?_ (fun _ => ?_) | dsimp only | split)

theorem good_setRepair {q : List Instr} {s : State} {op : Nat} {field : Nat} {pending : Nat} (hG : Good q s) :
    Good q (setRepair op field pending s) := by
  unfold setRepair
  repeat' (first | with_reducible assumption | with_reducible refine good_put ?_ _ _ | with_reducible refine good_take ?_ | with_reducible refine good_if ?_ (fun _ => ?_) | dsimp only | split)

theorem good_repairCmdWrite {q : List Instr} {s : State} {m : Master} {op : Nat} {f : Nat} (hG : Good q s) :
    Good q (repairCmdWrite m op f s) := by
  unfold repairCmdWrite
  repeat' (first | with_reducible assumption | with_reducible refine good_setRepair ?_ | with_reducible refine good_bt ?_ | with_reducible refine good_refusedWrite ?_ | with_reducible refine good_logOpen ?_ | with_reducible refine good_writeMap ?_ | with_reducible refine good_if ?_ (fun _ => ?_) | dsimp only | split)

theorem good_execRebuild {q : List Instr} {s : State} {m : Master} (hG : Good q s) :
    ∃ w, execRebuild m s = .next w ∧ Good q w := by
  refine ⟨_, rfl, ?_⟩
  repeat' (first | with_reducible assumption | with_reducible refine good_powered ?_ (fun _ _ => ?_) | with_reducible refine good_asOwner ?_ (fun _ _ => ?_) | with_reducible refine good_repairCmdWrite ?_ | with_reducible refine good_if ?_ (fun _ => ?_) | dsimp only | split)

theorem good_execRetryField {q : List Instr} {s : State} {m : Master} {f : Nat} (hG : Good q s) :
    ∃ w, execRetryField m f s = .next w ∧ Good q w := by
  refine ⟨_, rfl, ?_⟩
  repeat' (first | with_reducible assumption | with_reducible refine good_powered ?_ (fun _ _ => ?_) | with_reducible refine good_asOwner ?_ (fun _ _ => ?_) | with_reducible refine good_repairCmdWrite ?_ | with_reducible refine good_if ?_ (fun _ => ?_) | dsimp only | split)

theorem good_execCancel {q : List Instr} {s : State} {m : Master} (hG : Good q s) :
    ∃ w, execCancel m s = .next w ∧ Good q w := by
  refine ⟨_, rfl, ?_⟩
  repeat' (first | with_reducible assumption | with_reducible refine good_powered ?_ (fun _ _ => ?_) | with_reducible refine good_asOwner ?_ (fun _ _ => ?_) | with_reducible refine good_repairCmdWrite ?_ | with_reducible refine good_if ?_ (fun _ => ?_) | dsimp only | split)

end Sys2Proof.Machine
end

