-- ==== Sys2Proof/Laws/GoodNvm.lean ====
section
/-! SUPPORT. Every operation of Machine/Nvm.lean keeps a sound state sound. -/

namespace Sys2Proof.Machine

open Sys2Proof

theorem good_nv {q : List Instr} {s : State} {f : NvmState → NvmState} (h : Good q s) (hf : ∀ n, (f n).otp = n.otp) :
    Good q (nv f s) := good_upd h (hf _) rfl rfl

theorem good_setSlot {q : List Instr} {s : State} {i : Nat} {x : Slot} (hG : Good q s) :
    Good q (setSlot i x s) := by
  unfold setSlot
  repeat' (first | with_reducible assumption | with_reducible refine good_nv ?_ (fun _ => rfl) | with_reducible refine good_if ?_ (fun _ => ?_) | dsimp only | split)

theorem good_setRelease {q : List Instr} {s : State} {i : Nat} {held : Bool} (hG : Good q s) :
    Good q (setRelease i held s) := by
  unfold setRelease
  repeat' (first | with_reducible assumption | with_reducible refine good_upd_ ?_ | with_reducible refine good_release ?_ | with_reducible refine good_if ?_ (fun _ => ?_) | dsimp only | split)

theorem good_lifeFirmware {q : List Instr} {s : State} {slot : Nat} {kind : Nat} {reason : Nat} (hG : Good q s) :
    Good q (lifeFirmware slot kind reason s) := by
  unfold lifeFirmware
  repeat' (first | with_reducible assumption | with_reducible refine good_setLifeWord ?_ | with_reducible refine good_lifetimeWrite ?_ | with_reducible refine good_if ?_ (fun _ => ?_) | with_reducible refine good_foldl ?_ (fun _ _ _ => ?_) | with_reducible refine good_foldl_snd ?_ (fun _ _ _ => ?_) | with_reducible refine good_foldl_fst ?_ (fun _ _ _ => ?_) | with_reducible refine good_if_snd ?_ (fun _ => ?_) | with_reducible refine good_if_fst ?_ (fun _ => ?_) | dsimp only | split)

theorem good_writeBoot {q : List Instr} {s : State} {kind : Nat} {active : Nat} {target : Nat} {tboots : Nat} {trialMin : Nat} {reason : Nat} {md : List Byte} {rom : Bool} (hG : Good q s) :
    Good q (writeBoot kind active target tboots trialMin reason md rom s) := by
  unfold writeBoot
  repeat' (first | with_reducible assumption | with_reducible refine good_nvmPages ?_ | with_reducible refine good_nv ?_ (fun _ => rfl) | with_reducible refine good_upd_ ?_ | with_reducible refine good_logCoded ?_ | with_reducible refine good_lifeFirmware ?_ | with_reducible refine good_if ?_ (fun _ => ?_) | dsimp only | split)

theorem good_fallback {q : List Instr} {s : State} {reason : Nat} (hG : Good q s) :
    Good q (fallback reason s) := by
  unfold fallback
  repeat' (first | with_reducible assumption | with_reducible refine good_setFwSlot ?_ | with_reducible refine good_deviceReset ?_ | with_reducible refine good_writeBoot ?_ | with_reducible refine good_if ?_ (fun _ => ?_) | dsimp only | split)

theorem good_noteSelect {q : List Instr} {s : State} (hG : Good q s) :
    Good q (noteSelect s) := by
  unfold noteSelect
  repeat' (first | with_reducible assumption | with_reducible refine good_upd_ ?_ | with_reducible refine good_if ?_ (fun _ => ?_) | dsimp only | split)

theorem good_selectCfg {q : List Instr} {s : State} {v : Nat} (hG : Good q s) :
    Good q (selectCfg v s) := by
  unfold selectCfg
  repeat' (first | with_reducible assumption | with_reducible refine good_noteSelect ?_ | with_reducible refine good_writeDevice ?_ | with_reducible refine good_logOpen ?_ | with_reducible refine good_nv ?_ (fun _ => rfl) | with_reducible refine good_if ?_ (fun _ => ?_) | dsimp only | split)

theorem good_installCfg {q : List Instr} {s : State} {bs : List Byte} (hG : Good q s) :
    Good q (installCfg bs s).2 := by
  unfold installCfg
  repeat' (first | with_reducible assumption | with_reducible refine good_upd_ ?_ | with_reducible refine good_logCoded ?_ | with_reducible refine good_nvmPages ?_ | with_reducible refine good_nv ?_ (fun _ => rfl) | with_reducible refine good_noteSelect ?_ | with_reducible refine good_writeDevice ?_ | with_reducible refine good_if ?_ (fun _ => ?_) | with_reducible refine good_if_snd ?_ (fun _ => ?_) | dsimp only | split)

/-- OTP takes at most four digests (R467). -/
theorem good_addKey {q : List Instr} {s : State} {key : List Byte} (hG : Good q s) (h : s.nvm.otp.length < 4) :
    Good q (nv (fun n => { n with otp := n.otp ++ [key] }) s) := by
  refine ⟨hG.pending, hG.inv.regs, hG.inv.hbm, ?_, hG.inv.events, hG.inv.held⟩
  show (s.nvm.otp ++ [key]).length ≤ 4
  simp
  omega

theorem enrollResult_ok {s : State} {bs : List Byte} (h : enrollResult s bs = crOk) : s.nvm.otp.length < 4 := by
  unfold enrollResult at h
  dsimp only at h
  split at h
  · cases h
  · omega

theorem good_enrollBlob {q : List Instr} {s : State} {bs : List Byte} (hG : Good q s) : Good q (enrollBlob bs s).2 := by
  unfold enrollBlob
  dsimp only
  split
  · exact good_logCoded (good_upd_ hG)
  · rename_i h
    refine good_upd_ (good_addKey (good_logCoded (good_upd_ hG)) ?_)
    rw [logCoded_nvm]
    exact enrollResult_ok (Decidable.not_not.mp h)

theorem good_loadLinks {q : List Instr} {s : State} {bs : List Byte} (hG : Good q s) :
    Good q (loadLinks bs s) := by
  unfold loadLinks
  repeat' (first | with_reducible assumption | with_reducible refine good_put ?_ _ _ | with_reducible refine good_upd_ ?_ | with_reducible refine good_take ?_ | with_reducible refine good_if ?_ (fun _ => ?_) | with_reducible refine good_foldl ?_ (fun _ _ _ => ?_) | with_reducible refine good_foldl_snd ?_ (fun _ _ _ => ?_) | with_reducible refine good_foldl_fst ?_ (fun _ _ _ => ?_) | with_reducible refine good_if_snd ?_ (fun _ => ?_) | with_reducible refine good_if_fst ?_ (fun _ => ?_) | dsimp only | split)

theorem good_loadCfg {q : List Instr} {s : State} {bs : List Byte} (hG : Good q s) :
    Good q (loadCfg bs s) := by
  unfold loadCfg
  repeat' (first | with_reducible assumption | with_reducible refine good_loadLinks ?_ | with_reducible refine good_upd_ ?_ | with_reducible refine good_put ?_ _ _ | with_reducible refine good_if ?_ (fun _ => ?_) | dsimp only | split)

theorem good_loadRestricted {q : List Instr} {s : State} (hG : Good q s) :
    Good q (loadRestricted s) := by
  unfold loadRestricted
  repeat' (first | with_reducible assumption | with_reducible refine good_put ?_ _ _ | with_reducible refine good_upd_ ?_ | with_reducible refine good_if ?_ (fun _ => ?_) | dsimp only | split)

theorem good_configSelect {q : List Instr} {s : State} {flips : List NvmFlip} (hG : Good q s) :
    Good q (configSelect flips s) := by
  unfold configSelect
  repeat' (first | with_reducible assumption | with_reducible refine good_nv ?_ (fun _ => rfl) | with_reducible refine good_loadCfg ?_ | with_reducible refine good_upd_ ?_ | with_reducible refine good_logOpen ?_ | with_reducible refine good_loadRestricted ?_ | with_reducible refine good_noteSelect ?_ | with_reducible refine good_if ?_ (fun _ => ?_) | dsimp only | split)

end Sys2Proof.Machine
end

