-- ==== Sys2Proof/Laws/GoodArrayOps.lean ====
section
/-! SUPPORT. Every operation of Machine/ArrayOps.lean keeps a sound state sound. -/

namespace Sys2Proof.Machine

open Sys2Proof

theorem good_takePartials {q : List Instr} {s : State} {t : Nat} {p : Nat} (hG : Good q s) :
    Good q (takePartials t p s).2 := by
  unfold takePartials
  repeat' (first | with_reducible assumption | with_reducible refine good_returnCredits ?_ | with_reducible refine good_setChan ?_ | with_reducible refine good_send ?_ | with_reducible refine good_if ?_ (fun _ => ?_) | with_reducible refine good_if_snd ?_ (fun _ => ?_) | dsimp only | split)

theorem good_takeSend {q : List Instr} {s : State} {t : Nat} {p : Nat} (hG : Good q s) :
    Good q (takeSend t p s) := by
  unfold takeSend
  repeat' (first | with_reducible assumption | with_reducible refine good_setChan ?_ | with_reducible refine good_if ?_ (fun _ => ?_) | dsimp only | split)

theorem good_enterVector {q : List Instr} {s : State} {t : Nat} {i : Nat} {r : PassRun} (hG : Good q s) :
    Good q (enterVector t i r s) := by
  unfold enterVector
  repeat' (first | with_reducible assumption | with_reducible refine good_takeSend ?_ | with_reducible refine good_tileCount1 ?_ | with_reducible refine good_setTile ?_ | with_reducible refine good_if ?_ (fun _ => ?_) | dsimp only | split)

theorem good_noteLatched {q : List Instr} {s : State} {t : Nat} (hG : Good q s) :
    Good q (noteLatched t s) := by
  unfold noteLatched
  repeat' (first | with_reducible assumption | with_reducible refine good_upd_ ?_ | with_reducible refine good_setTile ?_ | with_reducible refine good_if ?_ (fun _ => ?_) | dsimp only | split)

theorem good_emptyBeat {q : List Instr} {s : State} {t : Nat} (hG : Good q s) :
    Good q (emptyBeat t s) := by
  unfold emptyBeat
  repeat' (first | with_reducible assumption | with_reducible refine good_tileCount1 ?_ | with_reducible refine good_if ?_ (fun _ => ?_) | dsimp only | split)

theorem good_arraysEnter {q : List Instr} {s : State} {t : Nat} (hG : Good q s) :
    Good q (arraysEnter t s) := by
  unfold arraysEnter
  repeat' (first | with_reducible assumption | with_reducible refine good_tileCount1 ?_ | with_reducible refine good_emptyBeat ?_ | with_reducible refine good_addR ?_ | with_reducible refine good_enterVector ?_ | with_reducible refine good_if ?_ (fun _ => ?_) | dsimp only | split)

end Sys2Proof.Machine
end

