-- ==== Sys2Proof/Laws/GoodFlags.lean ====
section
/-! SUPPORT. Every operation of Machine/Flags.lean keeps a sound state sound. -/

namespace Sys2Proof.Machine

open Sys2Proof

theorem good_noteNar {q : List Instr} {s : State} {t : Nat} {n : Nat} (hG : Good q s) :
    Good q (noteNar t n s) := by
  unfold noteNar
  repeat' (first | with_reducible assumption | with_reducible refine good_satAdd ?_ | with_reducible refine good_upd_ ?_ | with_reducible refine good_if ?_ (fun _ => ?_) | dsimp only | split)

theorem good_noteSat {q : List Instr} {s : State} {t : Nat} {n : Nat} (hG : Good q s) :
    Good q (noteSat t n s) := by
  unfold noteSat
  repeat' (first | with_reducible assumption | with_reducible refine good_satAdd ?_ | with_reducible refine good_upd_ ?_ | with_reducible refine good_if ?_ (fun _ => ?_) | dsimp only | split)

theorem good_noteDecFault {q : List Instr} {s : State} {t : Nat} (hG : Good q s) :
    Good q (noteDecFault t s) := by
  unfold noteDecFault
  repeat' (first | with_reducible assumption | with_reducible refine good_upd_ ?_ | with_reducible refine good_if ?_ (fun _ => ?_) | dsimp only | split)

theorem good_noteConversions {q : List Instr} {s : State} {t : Nat} {xs : List Num} {out : List (Nat × Bool)} (hG : Good q s) :
    Good q (noteConversions t xs out s) := by
  unfold noteConversions
  repeat' (first | with_reducible assumption | with_reducible refine good_noteSat ?_ | with_reducible refine good_noteNar ?_ | with_reducible refine good_if ?_ (fun _ => ?_) | dsimp only | split)

end Sys2Proof.Machine
end

