-- ==== Sys2Proof/Laws/GoodLattice.lean ====
section
/-! SUPPORT. Every operation of Machine/Lattice.lean keeps a sound state sound. -/

namespace Sys2Proof.Machine

open Sys2Proof

theorem good_putOnWire {q : List Instr} {s : State} {t : Nat} {ch : Nat} {hdr : Option Nat} {bs : List Byte} (hG : Good q s) :
    Good q (putOnWire t ch hdr bs s) := by
  unfold putOnWire
  repeat' (first | with_reducible assumption | with_reducible refine good_dropAside ?_ | with_reducible refine good_gatherAt ?_ | with_reducible refine good_satAdd ?_ | with_reducible refine good_setChan ?_ | with_reducible refine good_if ?_ (fun _ => ?_) | dsimp only | split)

theorem good_sendPaid {q : List Instr} {s : State} {t : Nat} {ch : Nat} {hdr : Nat} {payload : List Byte} (hG : Good q s) :
    Good q (sendPaid t ch hdr payload s) := by
  unfold sendPaid
  repeat' (first | with_reducible assumption | with_reducible refine good_putOnWire ?_ | with_reducible refine good_satAdd ?_ | with_reducible refine good_if ?_ (fun _ => ?_) | dsimp only | split)

theorem good_sendLanding {q : List Instr} {s : State} {t : Nat} {ch : Nat} {hdr : Nat} {payload : List Byte} (hG : Good q s) :
    Good q (sendLanding t ch hdr payload s) := by
  unfold sendLanding
  repeat' (first | with_reducible assumption | with_reducible refine good_sendPaid ?_ | with_reducible refine good_setChan ?_ | with_reducible refine good_if ?_ (fun _ => ?_) | dsimp only | split)

theorem good_sendUnits {q : List Instr} {y4 : State} {t : Nat} {ch : Nat} {y2 : Nat} {y3 : List Byte} (hG : Good q y4) :
    Good q (sendUnits t ch y2 y3 y4) := by
  induction y2 generalizing y4 y3 with
  | zero =>
    unfold sendUnits
    exact hG
  | succ n ih =>
    unfold sendUnits
    repeat' (first | with_reducible assumption | with_reducible refine ih ?_ | with_reducible refine good_putOnWire ?_ | with_reducible refine good_take ?_ | with_reducible refine good_if ?_ (fun _ => ?_) | dsimp only | split)

theorem good_landMessage {q : List Instr} {s : State} {t : Nat} {ch : Nat} {hdr : Nat} {payload : List Byte} (hG : Good q s) :
    Good q (landMessage t ch hdr payload s) := by
  unfold landMessage
  repeat' (first | with_reducible assumption | with_reducible refine good_deliver ?_ | with_reducible refine good_updTile ?_ | with_reducible refine good_setChan ?_ | with_reducible refine good_if ?_ (fun _ => ?_) | dsimp only | split)

theorem good_landUnit {q : List Instr} {s : State} {t : Nat} {ch : Nat} {bs : List Byte} (hG : Good q s) :
    Good q (landUnit t ch bs s) := by
  unfold landUnit
  repeat' (first | with_reducible assumption | with_reducible refine good_updTile ?_ | with_reducible refine good_setChan ?_ | with_reducible refine good_if ?_ (fun _ => ?_) | dsimp only | split)

theorem good_takeWire {q : List Instr} {t ch : Nat} {s s' : State} {m : List (List LaneWord)} (hG : Good q s)
    (h : takeWire t ch s = some (m, s')) : Good q s' := by
  unfold takeWire at h
  dsimp only at h
  split at h
  · cases h
  · split at h
    · cases h
      exact good_setChan hG
    · cases h

theorem good_receiveWords {q : List Instr} {s : State} {t : Nat} {ch : Nat} {ws : List (List LaneWord)} (hG : Good q s) :
    Good q (receiveWords t ch ws s) := by
  unfold receiveWords
  repeat' (first | with_reducible assumption | with_reducible refine good_latticeParity ?_ | with_reducible refine good_landMessage ?_ | with_reducible refine good_landUnit ?_ | with_reducible refine good_take ?_ | with_reducible refine good_if ?_ (fun _ => ?_) | dsimp only | split)

theorem good_receiveNext {q : List Instr} {s : State} {mode : Nat} {t : Nat} {ch : Nat} {flips : List (Nat × Nat)} (hG : Good q s) :
    Good q (receiveNext mode t ch flips s) := by
  unfold receiveNext
  repeat' (first | with_reducible assumption | with_reducible refine good_takeWire ?_ (by assumption) | with_reducible refine good_receiveWords ?_ | with_reducible refine good_if ?_ (fun _ => ?_) | dsimp only | split)

theorem good_execLandingReceive {q : List Instr} {s : State} {t : TileId} {ch : Nat} {flips : List (Nat × Nat)} (hG : Good q s) :
    ∃ w, execLandingReceive t ch flips s = .next w ∧ Good q w := by
  refine ⟨_, rfl, ?_⟩
  repeat' (first | with_reducible assumption | with_reducible refine good_powered ?_ (fun _ _ => ?_) | with_reducible refine good_receiveNext ?_ | with_reducible refine good_if ?_ (fun _ => ?_) | dsimp only | split)

theorem good_execLa96Receive {q : List Instr} {s : State} {t : TileId} {ch : Nat} {flips : List (Nat × Nat)} (hG : Good q s) :
    ∃ w, execLa96Receive t ch flips s = .next w ∧ Good q w := by
  refine ⟨_, rfl, ?_⟩
  repeat' (first | with_reducible assumption | with_reducible refine good_powered ?_ (fun _ _ => ?_) | with_reducible refine good_receiveNext ?_ | with_reducible refine good_if ?_ (fun _ => ?_) | dsimp only | split)

theorem good_execChannelCredit {q : List Instr} {s : State} {t : TileId} {ch : Nat} (hG : Good q s) :
    ∃ w, execChannelCredit t ch s = .next w ∧ Good q w := by
  refine ⟨_, rfl, ?_⟩
  repeat' (first | with_reducible assumption | with_reducible refine good_powered ?_ (fun _ _ => ?_) | with_reducible refine good_setChan ?_ | with_reducible refine good_send ?_ | with_reducible refine good_if ?_ (fun _ => ?_) | dsimp only | split)

theorem good_setLeg {q : List Instr} {s : State} {t : Nat} {ch : Nat} {k : Nat} {g : TunnelLeg} (hG : Good q s) :
    Good q (setLeg t ch k g s) := by
  unfold setLeg
  repeat' (first | with_reducible assumption | with_reducible refine good_setChan ?_ | with_reducible refine good_send ?_ | with_reducible refine good_if ?_ (fun _ => ?_) | dsimp only | split)

theorem good_execTunnelFlush {q : List Instr} {s : State} {t : TileId} {ch : Nat} {k : Nat} (hG : Good q s) :
    ∃ w, execTunnelFlush t ch k s = .next w ∧ Good q w := by
  refine ⟨_, rfl, ?_⟩
  repeat' (first | with_reducible assumption | with_reducible refine good_powered ?_ (fun _ _ => ?_) | with_reducible refine good_injectAtPort ?_ | with_reducible refine good_setLeg ?_ | with_reducible refine good_received ?_ (fun _ _ => ?_) | with_reducible refine good_if ?_ (fun _ => ?_) | dsimp only | split)

theorem good_tunnelDeliver {q : List Instr} {y4 : State} {t : Nat} {ch : Nat} {k : Nat} {y3 : Nat} (hG : Good q y4) :
    Good q (tunnelDeliver t ch k y3 y4) := by
  induction y3 generalizing y4 with
  | zero =>
    unfold tunnelDeliver
    exact hG
  | succ n ih =>
    unfold tunnelDeliver
    repeat' (first | with_reducible assumption | with_reducible refine ih ?_ | with_reducible refine good_take ?_ | with_reducible refine good_setLeg ?_ | with_reducible refine good_deliver ?_ | with_reducible refine good_receiveWords ?_ | with_reducible refine good_if ?_ (fun _ => ?_) | dsimp only | split)

theorem good_tunnelOut {q : List Instr} {s : State} {t : Nat} {ch : Nat} {k : Nat} {l : Nat × Nat} {bs : List Byte} (hG : Good q s) :
    Good q (tunnelOut t ch k l bs s) := by
  unfold tunnelOut
  repeat' (first | with_reducible assumption | with_reducible refine good_gatherAt ?_ | with_reducible refine good_satAdd ?_ | with_reducible refine good_tunnelDeliver ?_ | with_reducible refine good_setLeg ?_ | with_reducible refine good_flyWords ?_ | with_reducible refine good_setChan ?_ | with_reducible refine good_take ?_ | with_reducible refine good_if ?_ (fun _ => ?_) | with_reducible refine good_foldl ?_ (fun _ _ _ => ?_) | with_reducible refine good_foldl_snd ?_ (fun _ _ _ => ?_) | with_reducible refine good_foldl_fst ?_ (fun _ _ _ => ?_) | with_reducible refine good_if_snd ?_ (fun _ => ?_) | with_reducible refine good_if_fst ?_ (fun _ => ?_) | dsimp only | split)

theorem good_tunnelArrive {q : List Instr} {s : State} {t : Nat} {ch : Nat} {k : Nat} {p : Packet} (hG : Good q s) :
    Good q (tunnelArrive t ch k p s) := by
  unfold tunnelArrive
  repeat' (first | with_reducible assumption | with_reducible refine good_setLeg ?_ | with_reducible refine good_tunnelOut ?_ | with_reducible refine good_latticeParity ?_ | with_reducible refine good_take ?_ | with_reducible refine good_if ?_ (fun _ => ?_) | dsimp only | split)

theorem good_execPktLatTunnel {q : List Instr} {s : State} {p : Packet} (hG : Good q s) :
    ∃ w, execPktLatTunnel p s = .next w ∧ Good q w := by
  refine ⟨_, rfl, ?_⟩
  repeat' (first | with_reducible assumption | with_reducible refine good_powered ?_ (fun _ _ => ?_) | with_reducible refine good_received ?_ (fun _ _ => ?_) | with_reducible refine good_ignorePacket ?_ | with_reducible refine good_tunnelArrive ?_ | with_reducible refine good_send ?_ | with_reducible refine good_if ?_ (fun _ => ?_) | dsimp only | split)

theorem good_execPktTunnelCredit {q : List Instr} {s : State} {p : Packet} (hG : Good q s) :
    ∃ w, execPktTunnelCredit p s = .next w ∧ Good q w := by
  refine ⟨_, rfl, ?_⟩
  repeat' (first | with_reducible assumption | with_reducible refine good_powered ?_ (fun _ _ => ?_) | with_reducible refine good_received ?_ (fun _ _ => ?_) | with_reducible refine good_ignorePacket ?_ | with_reducible refine good_addCredit ?_ | with_reducible refine good_setChan ?_ | with_reducible refine good_if ?_ (fun _ => ?_) | dsimp only | split)

end Sys2Proof.Machine
end

