-- ==== Sys2Proof/Laws/GoodPasses.lean ====
section
/-! SUPPORT. Every operation of Machine/Passes.lean keeps a sound state sound. -/

namespace Sys2Proof.Machine

open Sys2Proof

theorem good_execPassIssue {q : List Instr} {s : State} {t : TileId} (hG : Good q s) :
    ∃ w, execPassIssue t s = .next w ∧ Good q w := by
  refine ⟨_, rfl, ?_⟩
  repeat' (first | with_reducible assumption | with_reducible refine good_powered ?_ (fun _ _ => ?_) | with_reducible refine good_readRange ?_ | with_reducible refine good_tileFault ?_ | with_reducible refine good_updTile ?_ | with_reducible refine good_if ?_ (fun _ => ?_) | dsimp only | split)

theorem good_execWeightFetch {q : List Instr} {s : State} {t : TileId} (hG : Good q s) :
    ∃ w, execWeightFetch t s = .next w ∧ Good q w := by
  refine ⟨_, rfl, ?_⟩
  repeat' (first | with_reducible assumption | with_reducible refine good_powered ?_ (fun _ _ => ?_) | with_reducible refine good_setTile ?_ | with_reducible refine good_if ?_ (fun _ => ?_) | dsimp only | split)

theorem good_readRanges {q : List Instr} {y3 : State} {t : Nat} {e : Nat} {y2 : List (Nat × Nat × Nat)} (hG : Good q y3) :
    Good q (readRanges t e y2 y3).2 := by
  induction y2 generalizing y3 with
  | nil =>
    unfold readRanges
    exact hG
  | cons e r ih =>
    unfold readRanges
    repeat' (first | with_reducible assumption | with_reducible refine ih ?_ | with_reducible refine good_readRange ?_ | with_reducible refine good_if ?_ (fun _ => ?_) | with_reducible refine good_if_snd ?_ (fun _ => ?_) | dsimp only | split)

theorem good_execWeightFetchDone {q : List Instr} {s : State} {t : TileId} (hG : Good q s) :
    ∃ w, execWeightFetchDone t s = .next w ∧ Good q w := by
  refine ⟨_, rfl, ?_⟩
  repeat' (first | with_reducible assumption | with_reducible refine good_powered ?_ (fun _ _ => ?_) | with_reducible refine good_readRanges ?_ | with_reducible refine good_tileFault ?_ | with_reducible refine good_noteDecFault ?_ | with_reducible refine good_updTile ?_ | with_reducible refine good_if ?_ (fun _ => ?_) | dsimp only | split)

theorem good_execWeightFrontStart {q : List Instr} {s : State} {t : TileId} (hG : Good q s) :
    ∃ w, execWeightFrontStart t s = .next w ∧ Good q w := by
  refine ⟨_, rfl, ?_⟩
  repeat' (first | with_reducible assumption | with_reducible refine good_powered ?_ (fun _ _ => ?_) | with_reducible refine good_upd_ ?_ | with_reducible refine good_setTile ?_ | with_reducible refine good_if ?_ (fun _ => ?_) | dsimp only | split)

theorem good_wholeUnits {q : List Instr} {s : State} {p : Nat} {bs : List Byte} (hG : Good q s) :
    Good q (wholeUnits p bs s).2 := by
  unfold wholeUnits
  repeat' (first | with_reducible assumption | with_reducible refine good_freeNat ?_ | with_reducible refine good_if ?_ (fun _ => ?_) | with_reducible refine good_if_snd ?_ (fun _ => ?_) | dsimp only | split)

theorem good_storeOutput {q : List Instr} {s : State} {t : Nat} {e : Nat} {p : Nat} {i : Nat} {a : Nat} {bs : List Byte} (hG : Good q s) :
    Good q (storeOutput t e p i a bs s) := by
  unfold storeOutput
  repeat' (first | with_reducible assumption | with_reducible refine good_updTile ?_ | with_reducible refine good_if ?_ (fun _ => ?_) | dsimp only | split)

theorem good_arrayOut {q : List Instr} {t : Nat} {r : PassRun} {e p i : Nat} {acc : List Byte}
    {b : List (Nat × List Byte) × State} {a : Nat} (hG : Good q b.2) : Good q (arrayOut t r e p i acc b a).2 := by
  unfold arrayOut
  dsimp only
  split
  · exact good_wholeUnits (good_noteConversions hG)
  · exact good_addItems (good_storeOutput (good_wholeUnits (good_noteConversions hG)))

theorem good_sendMessages {q : List Instr} {s : State} {t : Nat} {r : PassRun} {p : Nat} (hG : Good q s) :
    Good q (sendMessages t r p s) := by
  unfold sendMessages
  repeat' (first | with_reducible assumption | with_reducible refine good_sendPaid ?_ | with_reducible refine good_addItems ?_ | with_reducible refine good_if ?_ (fun _ => ?_) | with_reducible refine good_foldl ?_ (fun _ _ _ => ?_) | with_reducible refine good_foldl_snd ?_ (fun _ _ _ => ?_) | with_reducible refine good_foldl_fst ?_ (fun _ _ _ => ?_) | with_reducible refine good_if_snd ?_ (fun _ => ?_) | with_reducible refine good_if_fst ?_ (fun _ => ?_) | dsimp only | split)

theorem good_sendLa96 {q : List Instr} {s : State} {t : Nat} {r : PassRun} {p : Nat} {bs : List Byte} (hG : Good q s) :
    Good q (sendLa96 t r p bs s) := by
  unfold sendLa96
  repeat' (first | with_reducible assumption | with_reducible refine good_addItems ?_ | with_reducible refine good_sendUnits ?_ | with_reducible refine good_take ?_ | with_reducible refine good_if ?_ (fun _ => ?_) | dsimp only | split)

theorem good_leaveVector {q : List Instr} {s : State} {t : Nat} {i : Nat} {r : PassRun} (hG : Good q s) :
    Good q (leaveVector t i r s) := by
  unfold leaveVector
  repeat' (first | with_reducible assumption | with_reducible refine good_readRanges ?_ | with_reducible refine good_takePartials ?_ | with_reducible refine good_arrayOut ?_ | with_reducible refine good_sendLa96 ?_ | with_reducible refine good_sendMessages ?_ | with_reducible refine good_updTile ?_ | with_reducible refine good_if ?_ (fun _ => ?_) | with_reducible refine good_foldl ?_ (fun _ _ _ => ?_) | with_reducible refine good_foldl_snd ?_ (fun _ _ _ => ?_) | with_reducible refine good_foldl_fst ?_ (fun _ _ _ => ?_) | with_reducible refine good_if_snd ?_ (fun _ => ?_) | with_reducible refine good_if_fst ?_ (fun _ => ?_) | dsimp only | split)

theorem good_arraysLeave {q : List Instr} {s : State} {t : Nat} (hG : Good q s) :
    Good q (arraysLeave t s) := by
  unfold arraysLeave
  repeat' (first | with_reducible assumption | with_reducible refine good_leaveVector ?_ | with_reducible refine good_if ?_ (fun _ => ?_) | with_reducible refine good_foldl ?_ (fun _ _ _ => ?_) | with_reducible refine good_foldl_snd ?_ (fun _ _ _ => ?_) | with_reducible refine good_foldl_fst ?_ (fun _ _ _ => ?_) | with_reducible refine good_if_snd ?_ (fun _ => ?_) | with_reducible refine good_if_fst ?_ (fun _ => ?_) | dsimp only | split)

theorem good_arraysTick {q : List Instr} {s : State} {t : Nat} (hG : Good q s) :
    Good q (arraysTick t s) := by
  unfold arraysTick
  repeat' (first | with_reducible assumption | with_reducible refine good_noteLatched ?_ | with_reducible refine good_arraysEnter ?_ | with_reducible refine good_arraysLeave ?_ | with_reducible refine good_if ?_ (fun _ => ?_) | dsimp only | split)

theorem good_execPassComplete {q : List Instr} {s : State} {t : TileId} {ops : List AccOp} (hG : Good q s) :
    ∃ w, execPassComplete t ops s = .next w ∧ Good q w := by
  refine ⟨_, rfl, ?_⟩
  repeat' (first | with_reducible assumption | with_reducible refine good_powered ?_ (fun _ _ => ?_) | with_reducible refine good_integrityFault ?_ | with_reducible refine good_updTile ?_ | with_reducible refine good_tileCount1 ?_ | with_reducible refine good_freeSlots ?_ | with_reducible refine good_emitPlain ?_ | with_reducible refine good_if ?_ (fun _ => ?_) | dsimp only | split)

end Sys2Proof.Machine
end

