-- ==== Sys2Proof/Laws/GoodMatcher.lean ====
section
/-! SUPPORT. Every operation of Machine/Matcher.lean keeps a sound state sound. -/

namespace Sys2Proof.Machine

open Sys2Proof

theorem good_returnEdge {q : List Instr} {s : State} {t : Nat} {t' : Nat} {e : Nat} {n : Nat} (hG : Good q s) :
    Good q (returnEdge t t' e n s) := by
  unfold returnEdge
  repeat' (first | with_reducible assumption | with_reducible refine good_returnCredits ?_ | with_reducible refine good_addCredit ?_ | with_reducible refine good_if ?_ (fun _ => ?_) | dsimp only | split)

theorem good_consumePort {q : List Instr} {s : State} {t : Nat} {tags : List Nat} {z3 : Nat} (hG : Good q s) :
    Good q (consumePort t tags s z3).2 := by
  unfold consumePort
  repeat' (first | with_reducible assumption | with_reducible refine good_setQueue ?_ | with_reducible refine good_returnEdge ?_ | with_reducible refine good_deliverNotes ?_ | with_reducible refine good_if ?_ (fun _ => ?_) | with_reducible refine good_foldl ?_ (fun _ _ _ => ?_) | with_reducible refine good_foldl_snd ?_ (fun _ _ _ => ?_) | with_reducible refine good_foldl_fst ?_ (fun _ _ _ => ?_) | with_reducible refine good_if_snd ?_ (fun _ => ?_) | with_reducible refine good_if_fst ?_ (fun _ => ?_) | dsimp only | split)

theorem good_consumeAll {q : List Instr} {y3 : State} {t : Nat} {tags : List Nat} {y2 : List Nat} (hG : Good q y3) :
    Good q (consumeAll t tags y2 y3).2 := by
  induction y2 generalizing y3 with
  | nil =>
    unfold consumeAll
    exact hG
  | cons e r ih =>
    unfold consumeAll
    repeat' (first | with_reducible assumption | with_reducible refine ih ?_ | with_reducible refine good_consumePort ?_ | with_reducible refine good_if ?_ (fun _ => ?_) | with_reducible refine good_if_snd ?_ (fun _ => ?_) | dsimp only | split)

theorem good_noteFire {q : List Instr} {s : State} {t : Nat} {u : Nat} {first : Nat} (hG : Good q s) :
    Good q (noteFire t u first s) := by
  unfold noteFire
  repeat' (first | with_reducible assumption | with_reducible refine good_setUnit ?_ | with_reducible refine good_subCredit ?_ | with_reducible refine good_updTile ?_ | with_reducible refine good_if ?_ (fun _ => ?_) | with_reducible refine good_foldl ?_ (fun _ _ _ => ?_) | with_reducible refine good_foldl_snd ?_ (fun _ _ _ => ?_) | with_reducible refine good_foldl_fst ?_ (fun _ _ _ => ?_) | with_reducible refine good_if_snd ?_ (fun _ => ?_) | with_reducible refine good_if_fst ?_ (fun _ => ?_) | dsimp only | split)

theorem good_sourceOps {q : List Instr} {s : State} {first : Nat} {n : Nat} {real : Nat} {rate : Nat} (hG : Good q s) :
    Good q (sourceOps first n real rate s).2 := by
  unfold sourceOps
  repeat' (first | with_reducible assumption | with_reducible refine good_freeNat ?_ | with_reducible refine good_if ?_ (fun _ => ?_) | with_reducible refine good_foldl ?_ (fun _ _ _ => ?_) | with_reducible refine good_foldl_snd ?_ (fun _ _ _ => ?_) | with_reducible refine good_foldl_fst ?_ (fun _ _ _ => ?_) | with_reducible refine good_if_snd ?_ (fun _ => ?_) | with_reducible refine good_if_fst ?_ (fun _ => ?_) | dsimp only | split)

theorem good_fireSource {q : List Instr} {s : State} {t : Nat} {u : Nat} {k : Nat} (hG : Good q s) :
    Good q (fireSource t u k s) := by
  unfold fireSource
  repeat' (first | with_reducible assumption | with_reducible refine good_sourceOps ?_ | with_reducible refine good_emitOps ?_ | with_reducible refine good_if ?_ (fun _ => ?_) | with_reducible refine good_foldl ?_ (fun _ _ _ => ?_) | with_reducible refine good_foldl_snd ?_ (fun _ _ _ => ?_) | with_reducible refine good_foldl_fst ?_ (fun _ _ _ => ?_) | with_reducible refine good_if_snd ?_ (fun _ => ?_) | with_reducible refine good_if_fst ?_ (fun _ => ?_) | dsimp only | split)

theorem good_fireSink {q : List Instr} {s : State} {t : Nat} {u : Nat} (hG : Good q s) :
    Good q (fireSink t u s) := by
  unfold fireSink
  repeat' (first | with_reducible assumption | with_reducible refine good_updTile ?_ | with_reducible refine good_if ?_ (fun _ => ?_) | dsimp only | split)

theorem good_fireFork {q : List Instr} {s : State} {t : Nat} {u : Nat} {ops : List Nat} (hG : Good q s) :
    Good q (fireFork t u ops s) := by
  unfold fireFork
  repeat' (first | with_reducible assumption | with_reducible refine good_emitOps ?_ | with_reducible refine good_if ?_ (fun _ => ?_) | with_reducible refine good_foldl ?_ (fun _ _ _ => ?_) | with_reducible refine good_foldl_snd ?_ (fun _ _ _ => ?_) | with_reducible refine good_foldl_fst ?_ (fun _ _ _ => ?_) | with_reducible refine good_if_snd ?_ (fun _ => ?_) | with_reducible refine good_if_fst ?_ (fun _ => ?_) | dsimp only | split)

theorem good_emitSkips {q : List Instr} {s : State} {t : Nat} {u : Nat} {tag : Nat} {e : Nat} (hG : Good q s) :
    Good q (emitSkips t u tag s e) := by
  unfold emitSkips
  repeat' (first | with_reducible assumption | with_reducible refine good_emitOps ?_ | with_reducible refine good_if ?_ (fun _ => ?_) | dsimp only | split)

theorem good_fireSelect {q : List Instr} {s : State} {t : Nat} {u : Nat} {tag : Nat} {ports : List (List Nat)} (hG : Good q s) :
    Good q (fireSelect t u tag ports s) := by
  unfold fireSelect
  repeat' (first | with_reducible assumption | with_reducible refine good_emitSkips ?_ | with_reducible refine good_tagFault ?_ | with_reducible refine good_emitOps ?_ | with_reducible refine good_if ?_ (fun _ => ?_) | with_reducible refine good_foldl ?_ (fun _ _ _ => ?_) | with_reducible refine good_foldl_snd ?_ (fun _ _ _ => ?_) | with_reducible refine good_foldl_fst ?_ (fun _ _ _ => ?_) | with_reducible refine good_if_snd ?_ (fun _ => ?_) | with_reducible refine good_if_fst ?_ (fun _ => ?_) | dsimp only | split)

theorem good_fireMerge {q : List Instr} {s : State} {t : Nat} {u : Nat} {tag : Nat} {ports : List (List Nat)} (hG : Good q s) :
    Good q (fireMerge t u tag ports s) := by
  unfold fireMerge
  repeat' (first | with_reducible assumption | with_reducible refine good_emitSkips ?_ | with_reducible refine good_tagFault ?_ | with_reducible refine good_emitOps ?_ | with_reducible refine good_if ?_ (fun _ => ?_) | with_reducible refine good_foldl ?_ (fun _ _ _ => ?_) | with_reducible refine good_foldl_snd ?_ (fun _ _ _ => ?_) | with_reducible refine good_foldl_fst ?_ (fun _ _ _ => ?_) | with_reducible refine good_if_snd ?_ (fun _ => ?_) | with_reducible refine good_if_fst ?_ (fun _ => ?_) | dsimp only | split)

theorem good_placeJob {q : List Instr} {s : State} {t : Nat} {kernel : Bool} {j : SeqJob} (hG : Good q s) :
    Good q (placeJob t kernel j s) := by
  unfold placeJob
  repeat' (first | with_reducible assumption | with_reducible refine good_updTile ?_ | with_reducible refine good_if ?_ (fun _ => ?_) | dsimp only | split)

theorem good_fireUnit {q : List Instr} {s : State} {t : Nat} {u : Nat} {first : Nat} (hG : Good q s) :
    Good q (fireUnit t u first s) := by
  unfold fireUnit
  repeat' (first | with_reducible assumption | with_reducible refine good_beginStep ?_ | with_reducible refine good_consumeAll ?_ | with_reducible refine good_noteFire ?_ | with_reducible refine good_fireSource ?_ | with_reducible refine good_freeSlots ?_ | with_reducible refine good_emitPlain ?_ | with_reducible refine good_placeJob ?_ | with_reducible refine good_fireSink ?_ | with_reducible refine good_fireFork ?_ | with_reducible refine good_fireSelect ?_ | with_reducible refine good_fireMerge ?_ | with_reducible refine good_if ?_ (fun _ => ?_) | dsimp only | split)

theorem good_readGroup {q : List Instr} {s : State} {t : Nat} {bad : List Nat} {tags : List Nat} {qs : List Nat} (hG : Good q s) :
    Good q (readGroup t bad tags qs s).2 := by
  unfold readGroup
  repeat' (first | with_reducible assumption | with_reducible refine good_readRange ?_ | with_reducible refine good_integrityFault ?_ | with_reducible refine good_if ?_ (fun _ => ?_) | with_reducible refine good_foldl ?_ (fun _ _ _ => ?_) | with_reducible refine good_foldl_snd ?_ (fun _ _ _ => ?_) | with_reducible refine good_foldl_fst ?_ (fun _ _ _ => ?_) | with_reducible refine good_if_snd ?_ (fun _ => ?_) | with_reducible refine good_if_fst ?_ (fun _ => ?_) | dsimp only | split)

theorem good_fireChecked {q : List Instr} {s : State} {t : Nat} {bad : List Nat} {u : Nat} {first : Nat} (hG : Good q s) :
    Good q (fireChecked t bad u first s) := by
  unfold fireChecked
  repeat' (first | with_reducible assumption | with_reducible refine good_readGroup ?_ | with_reducible refine good_fireUnit ?_ | with_reducible refine good_tileCount1 ?_ | with_reducible refine good_if ?_ (fun _ => ?_) | dsimp only | split)

theorem good_unitCount {q : List Instr} {s : State} {t : Nat} {u : Nat} {k : Nat} (hG : Good q s) :
    Good q (unitCount t u k s) := by
  unfold unitCount
  repeat' (first | with_reducible assumption | with_reducible refine good_tileCount1 ?_ | with_reducible refine good_if ?_ (fun _ => ?_) | dsimp only | split)

theorem good_classify {q : List Instr} {s : State} {t : Nat} {u : Nat} (hG : Good q s) :
    Good q (classify t u s) := by
  unfold classify
  repeat' (first | with_reducible assumption | with_reducible refine good_unitCount ?_ | with_reducible refine good_if ?_ (fun _ => ?_) | dsimp only | split)

theorem good_tryUnit {q : List Instr} {t u : Nat} {bad : List Nat} {a : Nat × State} (hG : Good q a.2) :
    Good q (tryUnit t bad a u).2 := by
  unfold tryUnit
  dsimp only
  split
  · exact hG
  · split
    · exact good_classify hG
    · split
      · exact good_fireChecked hG
      · exact good_classify hG

theorem good_unitTimer {q : List Instr} {s : State} {t : Nat} {issue : Bool} {u : Nat} (hG : Good q s) :
    Good q (unitTimer t issue s u) := by
  unfold unitTimer
  repeat' (first | with_reducible assumption | with_reducible refine good_setUnit ?_ | with_reducible refine good_if ?_ (fun _ => ?_) | dsimp only | split)

theorem good_matchTick {q : List Instr} {s : State} {t : Nat} {bad : List Nat} (hG : Good q s) :
    Good q (matchTick t bad s) := by
  unfold matchTick
  repeat' (first | with_reducible assumption | with_reducible refine good_updTile ?_ | with_reducible refine good_tryUnit ?_ | with_reducible refine good_unitTimer ?_ | with_reducible refine good_if ?_ (fun _ => ?_) | with_reducible refine good_foldl ?_ (fun _ _ _ => ?_) | with_reducible refine good_foldl_snd ?_ (fun _ _ _ => ?_) | with_reducible refine good_foldl_fst ?_ (fun _ _ _ => ?_) | with_reducible refine good_if_snd ?_ (fun _ => ?_) | with_reducible refine good_if_fst ?_ (fun _ => ?_) | dsimp only | split)

theorem good_execUnitFire {q : List Instr} {s : State} {t : TileId} {bad : List Nat} {pathBad : Bool} (hG : Good q s) :
    ∃ w, execUnitFire t bad pathBad s = .next w ∧ Good q w := by
  refine ⟨_, rfl, ?_⟩
  repeat' (first | with_reducible assumption | with_reducible refine good_powered ?_ (fun _ _ => ?_) | with_reducible refine good_updTile ?_ | with_reducible refine good_matchTick ?_ | with_reducible refine good_integrityFault ?_ | with_reducible refine good_arraysTick ?_ | with_reducible refine good_if ?_ (fun _ => ?_) | dsimp only | split)

theorem good_execOperandArrive {q : List Instr} {s : State} {t : TileId} {z1 : Nat} {flips : List (Nat × Nat)} (hG : Good q s) :
    ∃ w, execOperandArrive t z1 flips s = .next w ∧ Good q w := by
  refine ⟨_, rfl, ?_⟩
  repeat' (first | with_reducible assumption | with_reducible refine good_powered ?_ (fun _ _ => ?_) | with_reducible refine good_setTile ?_ | with_reducible refine good_deliver ?_ | with_reducible refine good_latticeParity ?_ | with_reducible refine good_take ?_ | with_reducible refine good_if ?_ (fun _ => ?_) | dsimp only | split)

theorem good_execTagHorizonExpire {q : List Instr} {s : State} {t : TileId} {u : Nat} (hG : Good q s) :
    ∃ w, execTagHorizonExpire t u s = .next w ∧ Good q w := by
  refine ⟨_, rfl, ?_⟩
  repeat' (first | with_reducible assumption | with_reducible refine good_powered ?_ (fun _ _ => ?_) | with_reducible refine good_tagFault ?_ | with_reducible refine good_if ?_ (fun _ => ?_) | dsimp only | split)

theorem good_microRetired {q : List Instr} {s : State} {t : Nat} (hG : Good q s) :
    Good q (microRetired t s) := by
  unfold microRetired
  repeat' (first | with_reducible assumption | with_reducible refine good_freeNat ?_ | with_reducible refine good_tileCount1 ?_ | with_reducible refine good_if ?_ (fun _ => ?_) | dsimp only | split)

end Sys2Proof.Machine
end

