-- ==== Sys2Proof/Laws/GoodSpOps.lean ====
section
/-! SUPPORT. Every operation of Machine/SpOps.lean keeps a sound state sound. -/

namespace Sys2Proof.Machine

open Sys2Proof

theorem good_setKernel {q : List Instr} {s : State} {t : Nat} {k : KernelRun} (hG : Good q s) :
    Good q (setKernel t k s) := by
  unfold setKernel
  repeat' (first | with_reducible assumption | with_reducible refine good_updTile ?_ | with_reducible refine good_if ?_ (fun _ => ?_) | dsimp only | split)

theorem good_retire {q : List Instr} {s : State} {t : Nat} {k : KernelRun} (hG : Good q s) :
    Good q (retire t k s) := by
  unfold retire
  repeat' (first | with_reducible assumption | with_reducible refine good_tileCount1 ?_ | with_reducible refine good_setKernel ?_ | with_reducible refine good_if ?_ (fun _ => ?_) | dsimp only | split)

theorem good_spFault {q : List Instr} {s : State} {t : Nat} {code : Nat} {k : KernelRun} (hG : Good q s) :
    Good q (spFault t code k s) := by
  unfold spFault
  repeat' (first | with_reducible assumption | with_reducible refine good_tileFault ?_ | with_reducible refine good_if ?_ (fun _ => ?_) | dsimp only | split)

theorem good_spIssue {q : List Instr} {s : State} {t : Nat} {m : Nat → Bool} {f : KernelRun → State → State} (hG : Good q s) (hf : ∀ x0 x1, Good q x1 → Good q (f x0 x1)) :
    Good q (spIssue t m f s) := by
  unfold spIssue
  repeat' (first | with_reducible assumption | with_reducible refine good_spFault ?_ | with_reducible refine good_readRange ?_ | with_reducible refine hf _ _ ?_ | with_reducible refine good_if ?_ (fun _ => ?_) | dsimp only | split)

theorem good_spCompute {q : List Instr} {s : State} {t : Nat} {m : Nat → Bool} {f : TileState → TileState} (hG : Good q s) :
    Good q (spCompute t m f s) := by
  unfold spCompute
  repeat' (first | with_reducible assumption | with_reducible refine good_spIssue ?_ (fun _ _ _ => ?_) | with_reducible refine good_retire ?_ | with_reducible refine good_updTile ?_ | with_reducible refine good_if ?_ (fun _ => ?_) | dsimp only | split)

theorem good_routineDone {q : List Instr} {s : State} {t : Nat} {idx : Nat} {k : KernelRun} (hG : Good q s) :
    Good q (routineDone t idx k s) := by
  unfold routineDone
  repeat' (first | with_reducible assumption | with_reducible refine good_microRetired ?_ | with_reducible refine good_setKernel ?_ | with_reducible refine good_if ?_ (fun _ => ?_) | dsimp only | split)

end Sys2Proof.Machine
end

