-- ==== Sys2Proof/Laws/GoodSp.lean ====
section
/-! SUPPORT. Every operation of Machine/Sp.lean keeps a sound state sound. -/

namespace Sys2Proof.Machine

open Sys2Proof

theorem good_execKernelStart {q : List Instr} {s : State} {t : TileId} (hG : Good q s) :
    ∃ w, execKernelStart t s = .next w ∧ Good q w := by
  refine ⟨_, rfl, ?_⟩
  repeat' (first | with_reducible assumption | with_reducible refine good_powered ?_ (fun _ _ => ?_) | with_reducible refine good_setTile ?_ | with_reducible refine good_if ?_ (fun _ => ?_) | dsimp only | split)

theorem good_execSpVectorArith {q : List Instr} {s : State} {t : TileId} {op : VecOp} {o : SpFields} (hG : Good q s) :
    ∃ w, execSpVectorArith t op o s = .next w ∧ Good q w := by
  refine ⟨_, rfl, ?_⟩
  repeat' (first | with_reducible assumption | with_reducible refine good_powered ?_ (fun _ _ => ?_) | with_reducible refine good_spCompute ?_ | with_reducible refine good_if ?_ (fun _ => ?_) | with_reducible refine good_foldl ?_ (fun _ _ _ => ?_) | with_reducible refine good_foldl_snd ?_ (fun _ _ _ => ?_) | with_reducible refine good_foldl_fst ?_ (fun _ _ _ => ?_) | with_reducible refine good_if_snd ?_ (fun _ => ?_) | with_reducible refine good_if_fst ?_ (fun _ => ?_) | dsimp only | split)

theorem good_execSpConvert {q : List Instr} {s : State} {t : TileId} {op : CvtOp} {o : SpFields} (hG : Good q s) :
    ∃ w, execSpConvert t op o s = .next w ∧ Good q w := by
  refine ⟨_, rfl, ?_⟩
  repeat' (first | with_reducible assumption | with_reducible refine good_powered ?_ (fun _ _ => ?_) | with_reducible refine good_spCompute ?_ | with_reducible refine good_if ?_ (fun _ => ?_) | dsimp only | split)

theorem good_execSpLa96Convert {q : List Instr} {s : State} {t : TileId} {fmt : OutFmt} {o : SpFields} (hG : Good q s) :
    ∃ w, execSpLa96Convert t fmt o s = .next w ∧ Good q w := by
  refine ⟨_, rfl, ?_⟩
  repeat' (first | with_reducible assumption | with_reducible refine good_powered ?_ (fun _ _ => ?_) | with_reducible refine good_spIssue ?_ (fun _ _ _ => ?_) | with_reducible refine good_spFault ?_ | with_reducible refine good_noteConversions ?_ | with_reducible refine good_retire ?_ | with_reducible refine good_updTile ?_ | with_reducible refine good_if ?_ (fun _ => ?_) | dsimp only | split)

theorem good_execSpMxPack {q : List Instr} {s : State} {t : TileId} {fmt : MxElem} {o : SpFields} (hG : Good q s) :
    ∃ w, execSpMxPack t fmt o s = .next w ∧ Good q w := by
  refine ⟨_, rfl, ?_⟩
  repeat' (first | with_reducible assumption | with_reducible refine good_powered ?_ (fun _ _ => ?_) | with_reducible refine good_spIssue ?_ (fun _ _ _ => ?_) | with_reducible refine good_noteSat ?_ | with_reducible refine good_retire ?_ | with_reducible refine good_updTile ?_ | with_reducible refine good_if ?_ (fun _ => ?_) | dsimp only | split)

theorem good_execSpMxUnpack {q : List Instr} {s : State} {t : TileId} {fmt : MxElem} {o : SpFields} (hG : Good q s) :
    ∃ w, execSpMxUnpack t fmt o s = .next w ∧ Good q w := by
  refine ⟨_, rfl, ?_⟩
  repeat' (first | with_reducible assumption | with_reducible refine good_powered ?_ (fun _ _ => ?_) | with_reducible refine good_spCompute ?_ | with_reducible refine good_if ?_ (fun _ => ?_) | dsimp only | split)

theorem good_execSpFunction {q : List Instr} {s : State} {t : TileId} {fn : SpFn} {o : SpFields} (hG : Good q s) :
    ∃ w, execSpFunction t fn o s = .next w ∧ Good q w := by
  refine ⟨_, rfl, ?_⟩
  repeat' (first | with_reducible assumption | with_reducible refine good_powered ?_ (fun _ _ => ?_) | with_reducible refine good_spCompute ?_ | with_reducible refine good_if ?_ (fun _ => ?_) | dsimp only | split)

theorem good_execSpLaneReduce {q : List Instr} {s : State} {t : TileId} {op : RedOp} {o : SpFields} (hG : Good q s) :
    ∃ w, execSpLaneReduce t op o s = .next w ∧ Good q w := by
  refine ⟨_, rfl, ?_⟩
  repeat' (first | with_reducible assumption | with_reducible refine good_powered ?_ (fun _ _ => ?_) | with_reducible refine good_spCompute ?_ | with_reducible refine good_if ?_ (fun _ => ?_) | dsimp only | split)

theorem good_execSpIntLogic {q : List Instr} {s : State} {t : TileId} {op : IntOp} {o : SpFields} (hG : Good q s) :
    ∃ w, execSpIntLogic t op o s = .next w ∧ Good q w := by
  refine ⟨_, rfl, ?_⟩
  repeat' (first | with_reducible assumption | with_reducible refine good_powered ?_ (fun _ _ => ?_) | with_reducible refine good_spCompute ?_ | with_reducible refine good_if ?_ (fun _ => ?_) | dsimp only | split)

theorem good_spAccess {q : List Instr} {s : State} {t : Nat} {m : Nat → Bool} {mem : Nat} {off : Nat} {n : Nat} {store : Bool} {f : Nat → KernelRun → State → State} (hG : Good q s) (hf : ∀ x0 x1 x2, Good q x2 → Good q (f x0 x1 x2)) :
    Good q (spAccess t m mem off n store f s) := by
  unfold spAccess
  repeat' (first | with_reducible assumption | with_reducible refine good_spIssue ?_ (fun _ _ _ => ?_) | with_reducible refine good_spFault ?_ | with_reducible refine good_readRange ?_ | with_reducible refine hf _ _ _ ?_ | with_reducible refine good_if ?_ (fun _ => ?_) | dsimp only | split)

theorem good_spStore {q : List Instr} {s : State} {t : Nat} {mem : Nat} {a : Nat} {bs : List Byte} (hG : Good q s) :
    Good q (spStore t mem a bs s) := by
  unfold spStore
  repeat' (first | with_reducible assumption | with_reducible refine good_updTile ?_ | with_reducible refine good_if ?_ (fun _ => ?_) | dsimp only | split)

theorem good_execSpVectorLoadStore {q : List Instr} {s : State} {t : TileId} {store : Bool} {mem : SpMem} {o : SpFields} (hG : Good q s) :
    ∃ w, execSpVectorLoadStore t store mem o s = .next w ∧ Good q w := by
  refine ⟨_, rfl, ?_⟩
  repeat' (first | with_reducible assumption | with_reducible refine good_powered ?_ (fun _ _ => ?_) | with_reducible refine good_spAccess ?_ (fun _ _ _ _ => ?_) | with_reducible refine good_retire ?_ | with_reducible refine good_spStore ?_ | with_reducible refine good_updTile ?_ | with_reducible refine good_if ?_ (fun _ => ?_) | with_reducible refine good_foldl ?_ (fun _ _ _ => ?_) | with_reducible refine good_foldl_snd ?_ (fun _ _ _ => ?_) | with_reducible refine good_foldl_fst ?_ (fun _ _ _ => ?_) | with_reducible refine good_if_snd ?_ (fun _ => ?_) | with_reducible refine good_if_fst ?_ (fun _ => ?_) | dsimp only | split)

theorem good_execSpLa96LoadStore {q : List Instr} {s : State} {t : TileId} {store : Bool} {o : SpFields} (hG : Good q s) :
    ∃ w, execSpLa96LoadStore t store o s = .next w ∧ Good q w := by
  refine ⟨_, rfl, ?_⟩
  repeat' (first | with_reducible assumption | with_reducible refine good_powered ?_ (fun _ _ => ?_) | with_reducible refine good_spIssue ?_ (fun _ _ _ => ?_) | with_reducible refine good_spFault ?_ | with_reducible refine good_spAccess ?_ (fun _ _ _ _ => ?_) | with_reducible refine good_retire ?_ | with_reducible refine good_spStore ?_ | with_reducible refine good_updTile ?_ | with_reducible refine good_if ?_ (fun _ => ?_) | dsimp only | split)

theorem good_execSpScalarLoadStore {q : List Instr} {s : State} {t : TileId} {store : Bool} {mem : SpMem} {o : SpFields} (hG : Good q s) :
    ∃ w, execSpScalarLoadStore t store mem o s = .next w ∧ Good q w := by
  refine ⟨_, rfl, ?_⟩
  repeat' (first | with_reducible assumption | with_reducible refine good_powered ?_ (fun _ _ => ?_) | with_reducible refine good_spAccess ?_ (fun _ _ _ _ => ?_) | with_reducible refine good_retire ?_ | with_reducible refine good_spStore ?_ | with_reducible refine good_updTile ?_ | with_reducible refine good_if ?_ (fun _ => ?_) | dsimp only | split)

theorem good_execSpAnchorRead {q : List Instr} {s : State} {t : TileId} {o : SpFields} (hG : Good q s) :
    ∃ w, execSpAnchorRead t o s = .next w ∧ Good q w := by
  refine ⟨_, rfl, ?_⟩
  repeat' (first | with_reducible assumption | with_reducible refine good_powered ?_ (fun _ _ => ?_) | with_reducible refine good_spAccess ?_ (fun _ _ _ _ => ?_) | with_reducible refine good_retire ?_ | with_reducible refine good_updTile ?_ | with_reducible refine good_if ?_ (fun _ => ?_) | dsimp only | split)

theorem good_execSpBranch {q : List Instr} {s : State} {t : TileId} {cond : BranchCond} {o : SpFields} (hG : Good q s) :
    ∃ w, execSpBranch t cond o s = .next w ∧ Good q w := by
  refine ⟨_, rfl, ?_⟩
  repeat' (first | with_reducible assumption | with_reducible refine good_powered ?_ (fun _ _ => ?_) | with_reducible refine good_spIssue ?_ (fun _ _ _ => ?_) | with_reducible refine good_retire ?_ | with_reducible refine good_spFault ?_ | with_reducible refine good_tileCount1 ?_ | with_reducible refine good_setKernel ?_ | with_reducible refine good_if ?_ (fun _ => ?_) | dsimp only | split)

theorem good_execSpHwLoop {q : List Instr} {s : State} {t : TileId} {o : SpFields} (hG : Good q s) :
    ∃ w, execSpHwLoop t o s = .next w ∧ Good q w := by
  refine ⟨_, rfl, ?_⟩
  repeat' (first | with_reducible assumption | with_reducible refine good_powered ?_ (fun _ _ => ?_) | with_reducible refine good_spIssue ?_ (fun _ _ _ => ?_) | with_reducible refine good_tileCount1 ?_ | with_reducible refine good_setKernel ?_ | with_reducible refine good_if ?_ (fun _ => ?_) | dsimp only | split)

theorem good_execSpMcReturn {q : List Instr} {s : State} {t : TileId} (hG : Good q s) :
    ∃ w, execSpMcReturn t s = .next w ∧ Good q w := by
  refine ⟨_, rfl, ?_⟩
  repeat' (first | with_reducible assumption | with_reducible refine good_powered ?_ (fun _ _ => ?_) | with_reducible refine good_retire ?_ | with_reducible refine good_if ?_ (fun _ => ?_) | dsimp only | split)

theorem good_emitNext {q : List Instr} {s : State} {t : Nat} {port : Nat} {kind : Nat} {aux : Nat} {payload : Nat} {k : KernelRun} {next : KernelRun → State → State} (hG : Good q s) (hnext : ∀ x0 x1, Good q x1 → Good q (next x0 x1)) :
    Good q (emitNext t port kind aux payload k next s) := by
  unfold emitNext
  repeat' (first | with_reducible assumption | with_reducible refine good_tagFault ?_ | with_reducible refine good_emitOps ?_ | with_reducible refine hnext _ _ ?_ | with_reducible refine good_if ?_ (fun _ => ?_) | dsimp only | split)

theorem good_execSpEmit {q : List Instr} {s : State} {t : TileId} {o : SpFields} (hG : Good q s) :
    ∃ w, execSpEmit t o s = .next w ∧ Good q w := by
  refine ⟨_, rfl, ?_⟩
  repeat' (first | with_reducible assumption | with_reducible refine good_powered ?_ (fun _ _ => ?_) | with_reducible refine good_spIssue ?_ (fun _ _ _ => ?_) | with_reducible refine good_spFault ?_ | with_reducible refine good_emitNext ?_ (fun _ _ _ => ?_) | with_reducible refine good_retire ?_ | with_reducible refine good_if ?_ (fun _ => ?_) | dsimp only | split)

theorem good_execSpWaitFlag {q : List Instr} {s : State} {t : TileId} {value : Bool} {o : SpFields} (hG : Good q s) :
    ∃ w, execSpWaitFlag t value o s = .next w ∧ Good q w := by
  refine ⟨_, rfl, ?_⟩
  repeat' (first | with_reducible assumption | with_reducible refine good_powered ?_ (fun _ _ => ?_) | with_reducible refine good_spIssue ?_ (fun _ _ _ => ?_) | with_reducible refine good_retire ?_ | with_reducible refine good_if ?_ (fun _ => ?_) | dsimp only | split)

theorem good_execSpFence {q : List Instr} {s : State} {t : TileId} (hG : Good q s) :
    ∃ w, execSpFence t s = .next w ∧ Good q w := by
  refine ⟨_, rfl, ?_⟩
  repeat' (first | with_reducible assumption | with_reducible refine good_powered ?_ (fun _ _ => ?_) | with_reducible refine good_spIssue ?_ (fun _ _ _ => ?_) | with_reducible refine good_retire ?_ | with_reducible refine good_if ?_ (fun _ => ?_) | dsimp only | split)

theorem good_execSpEndKernel {q : List Instr} {s : State} {t : TileId} (hG : Good q s) :
    ∃ w, execSpEndKernel t s = .next w ∧ Good q w := by
  refine ⟨_, rfl, ?_⟩
  repeat' (first | with_reducible assumption | with_reducible refine good_powered ?_ (fun _ _ => ?_) | with_reducible refine good_spIssue ?_ (fun _ _ _ => ?_) | with_reducible refine good_tagFault ?_ | with_reducible refine good_tileCount1 ?_ | with_reducible refine good_retire ?_ | with_reducible refine good_updTile ?_ | with_reducible refine good_freeSlots ?_ | with_reducible refine good_if ?_ (fun _ => ?_) | dsimp only | split)

theorem good_execSpIllegal {q : List Instr} {s : State} {t : TileId} {opcode : Nat} (hG : Good q s) :
    ∃ w, execSpIllegal t opcode s = .next w ∧ Good q w := by
  refine ⟨_, rfl, ?_⟩
  repeat' (first | with_reducible assumption | with_reducible refine good_powered ?_ (fun _ _ => ?_) | with_reducible refine good_spIssue ?_ (fun _ _ _ => ?_) | with_reducible refine good_spFault ?_ | with_reducible refine good_if ?_ (fun _ => ?_) | dsimp only | split)

theorem good_execMcAbsent {q : List Instr} {s : State} {t : TileId} {index : Nat} (hG : Good q s) :
    ∃ w, execMcAbsent t index s = .next w ∧ Good q w := by
  refine ⟨_, rfl, ?_⟩
  repeat' (first | with_reducible assumption | with_reducible refine good_powered ?_ (fun _ _ => ?_) | with_reducible refine good_spIssue ?_ (fun _ _ _ => ?_) | with_reducible refine good_spFault ?_ | with_reducible refine good_if ?_ (fun _ => ?_) | dsimp only | split)

theorem good_execLatSend {q : List Instr} {s : State} {t : TileId} (hG : Good q s) :
    ∃ w, execLatSend t s = .next w ∧ Good q w := by
  refine ⟨_, rfl, ?_⟩
  repeat' (first | with_reducible assumption | with_reducible refine good_powered ?_ (fun _ _ => ?_) | with_reducible refine good_spIssue ?_ (fun _ _ _ => ?_) | with_reducible refine good_spFault ?_ | with_reducible refine good_addItems ?_ | with_reducible refine good_routineDone ?_ | with_reducible refine good_sendLanding ?_ | with_reducible refine good_readRange ?_ | with_reducible refine good_if ?_ (fun _ => ?_) | dsimp only | split)

theorem good_execBarArrive {q : List Instr} {s : State} {t : TileId} (hG : Good q s) :
    ∃ w, execBarArrive t s = .next w ∧ Good q w := by
  refine ⟨_, rfl, ?_⟩
  repeat' (first | with_reducible assumption | with_reducible refine good_powered ?_ (fun _ _ => ?_) | with_reducible refine good_spIssue ?_ (fun _ _ _ => ?_) | with_reducible refine good_routineDone ?_ | with_reducible refine good_sendAwaited ?_ | with_reducible refine good_if ?_ (fun _ => ?_) | dsimp only | split)

theorem good_execFlagWrite {q : List Instr} {s : State} {t : TileId} (hG : Good q s) :
    ∃ w, execFlagWrite t s = .next w ∧ Good q w := by
  refine ⟨_, rfl, ?_⟩
  repeat' (first | with_reducible assumption | with_reducible refine good_powered ?_ (fun _ _ => ?_) | with_reducible refine good_spIssue ?_ (fun _ _ _ => ?_) | with_reducible refine good_spFault ?_ | with_reducible refine good_routineDone ?_ | with_reducible refine good_sendAwaited ?_ | with_reducible refine good_if ?_ (fun _ => ?_) | dsimp only | split)

theorem good_execAnchorCombine {q : List Instr} {s : State} {t : TileId} (hG : Good q s) :
    ∃ w, execAnchorCombine t s = .next w ∧ Good q w := by
  refine ⟨_, rfl, ?_⟩
  repeat' (first | with_reducible assumption | with_reducible refine good_powered ?_ (fun _ _ => ?_) | with_reducible refine good_spIssue ?_ (fun _ _ _ => ?_) | with_reducible refine good_spFault ?_ | with_reducible refine good_updTile ?_ | with_reducible refine good_routineDone ?_ | with_reducible refine good_emitNext ?_ (fun _ _ _ => ?_) | with_reducible refine good_if ?_ (fun _ => ?_) | dsimp only | split)

end Sys2Proof.Machine
end

