-- ==== Sys2Proof/Laws/GoodDmaOps.lean ====
section
/-! SUPPORT. Every operation of Machine/DmaOps.lean keeps a sound state sound. -/

namespace Sys2Proof.Machine

open Sys2Proof

theorem good_setRun {q : List Instr} {s : State} {t : Nat} {e : Nat} {r : DmaRun} (hG : Good q s) :
    Good q (setRun t e r s) := by
  unfold setRun
  repeat' (first | with_reducible assumption | with_reducible refine good_setEngine ?_ | with_reducible refine good_if ?_ (fun _ => ?_) | dsimp only | split)

theorem good_sendNext {q : List Instr} {s : State} {t : Nat} {e : Nat} {r : DmaRun} (hG : Good q s) :
    Good q (sendNext t e r s) := by
  unfold sendNext
  repeat' (first | with_reducible assumption | with_reducible refine good_readRange ?_ | with_reducible refine good_setRun ?_ | with_reducible refine good_addR ?_ | with_reducible refine good_send ?_ | with_reducible refine good_if ?_ (fun _ => ?_) | dsimp only | split)

theorem good_pump {q : List Instr} {y3 : State} {t : Nat} {e : Nat} {y2 : Nat} (hG : Good q y3) :
    Good q (pump t e y2 y3) := by
  induction y2 generalizing y3 with
  | zero =>
    unfold pump
    exact hG
  | succ n ih =>
    unfold pump
    repeat' (first | with_reducible assumption | with_reducible refine ih ?_ | with_reducible refine good_sendNext ?_ | with_reducible refine good_if ?_ (fun _ => ?_) | dsimp only | split)

theorem good_failChunks {q : List Instr} {s : State} {ids : List Nat} {cause : Nat} {detail : Nat} (hG : Good q s) :
    Good q (failChunks ids cause detail s) := by
  unfold failChunks
  repeat' (first | with_reducible assumption | with_reducible refine good_batchDrop ?_ | with_reducible refine good_chunkFail ?_ | with_reducible refine good_if ?_ (fun _ => ?_) | with_reducible refine good_foldl ?_ (fun _ _ _ => ?_) | with_reducible refine good_foldl_snd ?_ (fun _ _ _ => ?_) | with_reducible refine good_foldl_fst ?_ (fun _ _ _ => ?_) | with_reducible refine good_if_snd ?_ (fun _ => ?_) | with_reducible refine good_if_fst ?_ (fun _ => ?_) | dsimp only | split)

theorem good_noteLocal {q : List Instr} {s : State} {t : Nat} {z1 : Nat} {op : Nat} (hG : Good q s) :
    Good q (noteLocal t z1 op s) := by
  unfold noteLocal
  repeat' (first | with_reducible assumption | with_reducible refine good_placeNote ?_ | with_reducible refine good_updTile ?_ | with_reducible refine good_if ?_ (fun _ => ?_) | dsimp only | split)

theorem good_sendNote {q : List Instr} {s : State} {t : Nat} {e : Nat} {j : DmaJob} {idx : Nat} {op : Nat} (hG : Good q s) :
    Good q (sendNote t e j idx op s) := by
  unfold sendNote
  repeat' (first | with_reducible assumption | with_reducible refine good_send ?_ | with_reducible refine good_if ?_ (fun _ => ?_) | dsimp only | split)

theorem good_notifyEnd {q : List Instr} {s : State} {t : Nat} {e : Nat} {j : DmaJob} {result : Nat} {written : Bool} (hG : Good q s) :
    Good q (notifyEnd t e j result written s) := by
  unfold notifyEnd
  repeat' (first | with_reducible assumption | with_reducible refine good_noteLocal ?_ | with_reducible refine good_sendNote ?_ | with_reducible refine good_setEngine ?_ | with_reducible refine good_if ?_ (fun _ => ?_) | dsimp only | split)

theorem good_endDesc {q : List Instr} {s : State} {t : Nat} {e : Nat} {j : DmaJob} {done : Nat} {fail : Nat} {result : Nat} {reason : Nat} {seg : Nat} (hG : Good q s) :
    Good q (endDesc t e j done fail result reason seg s) := by
  unfold endDesc
  repeat' (first | with_reducible assumption | with_reducible refine good_updTile ?_ | with_reducible refine good_upd_ ?_ | with_reducible refine good_setEngine ?_ | with_reducible refine good_notifyEnd ?_ | with_reducible refine good_logCoded ?_ | with_reducible refine good_failChunks ?_ | with_reducible refine good_if ?_ (fun _ => ?_) | dsimp only | split)

theorem good_checkEnd {q : List Instr} {s : State} {t : Nat} {e : Nat} (hG : Good q s) :
    Good q (checkEnd t e s) := by
  unfold checkEnd
  repeat' (first | with_reducible assumption | with_reducible refine good_endDesc ?_ | with_reducible refine good_if ?_ (fun _ => ?_) | dsimp only | split)

theorem good_creditDone {q : List Instr} {s : State} {t : Nat} {e : Nat} {c : DmaCredit} {f : DmaRun → DmaRun} (hG : Good q s) :
    Good q (creditDone t e c f s) := by
  unfold creditDone
  repeat' (first | with_reducible assumption | with_reducible refine good_subR ?_ | with_reducible refine good_setRun ?_ | with_reducible refine good_checkEnd ?_ | with_reducible refine good_pump ?_ | with_reducible refine good_if ?_ (fun _ => ?_) | dsimp only | split)

theorem good_lateAnswer {q : List Instr} {s : State} {t : Nat} {e : Nat} {idx : Nat} (hG : Good q s) :
    Good q (lateAnswer t e idx s) := by
  unfold lateAnswer
  repeat' (first | with_reducible assumption | with_reducible refine good_satAdd ?_ | with_reducible refine good_setEngine ?_ | with_reducible refine good_transfer ?_ | with_reducible refine good_if ?_ (fun _ => ?_) | dsimp only | split)

theorem good_copyLocal {q : List Instr} {s : State} {t : Nat} {e : Nat} {r : DmaRun} (hG : Good q s) :
    Good q (copyLocal t e r s) := by
  unfold copyLocal
  repeat' (first | with_reducible assumption | with_reducible refine good_readRange ?_ | with_reducible refine good_updTile ?_ | with_reducible refine good_checkEnd ?_ | with_reducible refine good_setRun ?_ | with_reducible refine good_if ?_ (fun _ => ?_) | with_reducible refine good_foldl ?_ (fun _ _ _ => ?_) | with_reducible refine good_foldl_snd ?_ (fun _ _ _ => ?_) | with_reducible refine good_foldl_fst ?_ (fun _ _ _ => ?_) | with_reducible refine good_if_snd ?_ (fun _ => ?_) | with_reducible refine good_if_fst ?_ (fun _ => ?_) | dsimp only | split)

end Sys2Proof.Machine
end

