-- ==== Sys2Proof/Laws/GoodDma.lean ====
section
/-! SUPPORT. Every operation of Machine/Dma.lean keeps a sound state sound. -/

namespace Sys2Proof.Machine

open Sys2Proof

theorem good_execDmaSubmit {q : List Instr} {s : State} {t : TileId} (hG : Good q s) :
    ∃ w, execDmaSubmit t s = .next w ∧ Good q w := by
  refine ⟨_, rfl, ?_⟩
  repeat' (first | with_reducible assumption | with_reducible refine good_powered ?_ (fun _ _ => ?_) | with_reducible refine good_spIssue ?_ (fun _ _ _ => ?_) | with_reducible refine good_spFault ?_ | with_reducible refine good_readRange ?_ | with_reducible refine good_routineDone ?_ | with_reducible refine good_setEngine ?_ | with_reducible refine good_put ?_ _ _ | with_reducible refine good_if ?_ (fun _ => ?_) | dsimp only | split)

theorem good_submitPriv {q : List Instr} {s : State} {t : Nat} {e : Nat} {desc : Nat} (hG : Good q s) :
    Good q (submitPriv t e desc s) := by
  unfold submitPriv
  repeat' (first | with_reducible assumption | with_reducible refine good_setEngine ?_ | with_reducible refine good_if ?_ (fun _ => ?_) | dsimp only | split)

theorem good_submitSince {q : List Instr} {s : State} {t e : Nat} {priv : Option Nat} (hG : Good q s) :
    Good q (submitSince t e priv s) := by
  cases priv
  · exact hG
  · exact good_submitPriv hG

theorem good_execDmaDescStart {q : List Instr} {s : State} {t : TileId} {e : EngineId} {priv : Option Nat} (hG : Good q s) :
    ∃ w, execDmaDescStart t e priv s = .next w ∧ Good q w := by
  refine ⟨_, rfl, ?_⟩
  repeat' (first | with_reducible assumption | with_reducible refine good_powered ?_ (fun _ _ => ?_) | with_reducible refine good_submitSince ?_ | with_reducible refine good_setEngine ?_ | with_reducible refine good_endDesc ?_ | with_reducible refine good_copyLocal ?_ | with_reducible refine good_checkEnd ?_ | with_reducible refine good_pump ?_ | with_reducible refine good_setRun ?_ | with_reducible refine good_answer ?_ | with_reducible refine good_if ?_ (fun _ => ?_) | dsimp only | split)

theorem good_execDmaTimeout {q : List Instr} {s : State} {t : TileId} {e : EngineId} {credit : Nat} (hG : Good q s) :
    ∃ w, execDmaTimeout t e credit s = .next w ∧ Good q w := by
  refine ⟨_, rfl, ?_⟩
  repeat' (first | with_reducible assumption | with_reducible refine good_powered ?_ (fun _ _ => ?_) | with_reducible refine good_satAdd ?_ | with_reducible refine good_addR ?_ | with_reducible refine good_setEngine ?_ | with_reducible refine good_logCoded ?_ | with_reducible refine good_creditDone ?_ | with_reducible refine good_if ?_ (fun _ => ?_) | dsimp only | split)

theorem good_giveUpNote {q : List Instr} {s : State} {t : Nat} {e : Nat} {r : DmaRetry} (hG : Good q s) :
    Good q (giveUpNote t e r s) := by
  unfold giveUpNote
  repeat' (first | with_reducible assumption | with_reducible refine good_setEngine ?_ | with_reducible refine good_updTile ?_ | with_reducible refine good_logCoded ?_ | with_reducible refine good_if ?_ (fun _ => ?_) | dsimp only | split)

theorem good_execNotifyResend {q : List Instr} {s : State} {t : TileId} {e : EngineId} (hG : Good q s) :
    ∃ w, execNotifyResend t e s = .next w ∧ Good q w := by
  refine ⟨_, rfl, ?_⟩
  repeat' (first | with_reducible assumption | with_reducible refine good_powered ?_ (fun _ _ => ?_) | with_reducible refine good_giveUpNote ?_ | with_reducible refine good_sendNote ?_ | with_reducible refine good_setEngine ?_ | with_reducible refine good_if ?_ (fun _ => ?_) | dsimp only | split)

end Sys2Proof.Machine
end

