-- ==== Sys2Proof/Laws/GoodPacketOps.lean ====
section
/-! SUPPORT. Every operation of Machine/PacketOps.lean keeps a sound state sound. -/

namespace Sys2Proof.Machine

open Sys2Proof

theorem good_refuseWindow {q : List Instr} {s : State} {t : Nat} {p : Packet} {r : Nat} (hG : Good q s) :
    Good q (refuseWindow t p r s) := by
  unfold refuseWindow
  repeat' (first | with_reducible assumption | with_reducible refine good_send ?_ | with_reducible refine good_logCoded ?_ | with_reducible refine good_satAdd ?_ | with_reducible refine good_if ?_ (fun _ => ?_) | dsimp only | split)

theorem good_engineAck {q : List Instr} {s : State} {t : Nat} {txid : Nat} {p : Packet} (hG : Good q s) :
    Good q (engineAck t txid p s) := by
  unfold engineAck
  repeat' (first | with_reducible assumption | with_reducible refine good_setEngine ?_ | with_reducible refine good_creditDone ?_ | with_reducible refine good_addR ?_ | with_reducible refine good_lateAnswer ?_ | with_reducible refine good_if ?_ (fun _ => ?_) | dsimp only | split)

theorem good_engineRefuse {q : List Instr} {s : State} {t : Nat} {txid : Nat} {reason : Nat} {p : Packet} (hG : Good q s) :
    Good q (engineRefuse t txid reason p s) := by
  unfold engineRefuse
  repeat' (first | with_reducible assumption | with_reducible refine good_setEngine ?_ | with_reducible refine good_logCoded ?_ | with_reducible refine good_creditDone ?_ | with_reducible refine good_addR ?_ | with_reducible refine good_lateAnswer ?_ | with_reducible refine good_answer ?_ | with_reducible refine good_if ?_ (fun _ => ?_) | dsimp only | split)

theorem good_engineOr {q : List Instr} {s : State} {p : Packet} {f : State → State} (hG : Good q s) (hf : ∀ x0, Good q x0 → Good q (f x0)) :
    Good q (engineOr p f s) := by
  unfold engineOr
  repeat' (first | with_reducible assumption | with_reducible refine good_ignorePacket ?_ | with_reducible refine good_answer ?_ | with_reducible refine hf _ ?_ | with_reducible refine good_if ?_ (fun _ => ?_) | dsimp only | split)

theorem good_awaitLost {q : List Instr} {s : State} {a : Await} (hG : Good q s) :
    Good q (awaitLost a s) := by
  unfold awaitLost
  repeat' (first | with_reducible assumption | with_reducible refine good_tagFault ?_ | with_reducible refine good_send ?_ | with_reducible refine good_startFabricReset ?_ | with_reducible refine good_logOpen ?_ | with_reducible refine good_if ?_ (fun _ => ?_) | dsimp only | split | with_reducible refine good_upd ?_ rfl rfl rfl)

theorem good_barrierError {q : List Instr} {s : State} {b : Nat} (hG : Good q s) :
    Good q (barrierError b s) := by
  unfold barrierError
  repeat' (first | with_reducible assumption | with_reducible refine good_logOpen ?_ | with_reducible refine good_upd_ ?_ | with_reducible refine good_batchFail ?_ | with_reducible refine good_haltReq ?_ | with_reducible refine good_take ?_ | with_reducible refine good_if ?_ (fun _ => ?_) | with_reducible refine good_foldl ?_ (fun _ _ _ => ?_) | with_reducible refine good_foldl_snd ?_ (fun _ _ _ => ?_) | with_reducible refine good_foldl_fst ?_ (fun _ _ _ => ?_) | with_reducible refine good_if_snd ?_ (fun _ => ?_) | with_reducible refine good_if_fst ?_ (fun _ => ?_) | dsimp only | split)

theorem good_barrierRelease {q : List Instr} {s : State} {b : Nat} (hG : Good q s) :
    Good q (barrierRelease b s) := by
  unfold barrierRelease
  repeat' (first | with_reducible assumption | with_reducible refine good_upd_ ?_ | with_reducible refine good_sendAwaited ?_ | with_reducible refine good_if ?_ (fun _ => ?_) | with_reducible refine good_foldl ?_ (fun _ _ _ => ?_) | with_reducible refine good_foldl_snd ?_ (fun _ _ _ => ?_) | with_reducible refine good_foldl_fst ?_ (fun _ _ _ => ?_) | with_reducible refine good_if_snd ?_ (fun _ => ?_) | with_reducible refine good_if_fst ?_ (fun _ => ?_) | dsimp only | split)

theorem good_barArrive {q : List Instr} {s : State} {b : Nat} {sense : Nat} (hG : Good q s) :
    Good q (barArrive b sense s) := by
  unfold barArrive
  repeat' (first | with_reducible assumption | with_reducible refine good_barrierError ?_ | with_reducible refine good_upd_ ?_ | with_reducible refine good_barrierRelease ?_ | with_reducible refine good_if ?_ (fun _ => ?_) | dsimp only | split)

theorem good_setFlag {q : List Instr} {s : State} {f : Nat} {i : Nat} {v : Nat} (hG : Good q s) :
    Good q (setFlag f i v s) := by
  unfold setFlag
  repeat' (first | with_reducible assumption | with_reducible refine good_upd_ ?_ | with_reducible refine good_if ?_ (fun _ => ?_) | dsimp only | split)

end Sys2Proof.Machine
end

