-- ==== Sys2Proof/Laws/GoodPackets.lean ====
section
/-! SUPPORT. Every operation of Machine/Packets.lean keeps a sound state sound. -/

namespace Sys2Proof.Machine

open Sys2Proof

theorem good_dequeue {q : List Instr} {s : State} {g : Nat} {i : Nat} {p : Packet} (hG : Good q s) :
    Good q (dequeue g i p s) := by
  unfold dequeue
  repeat' (first | with_reducible assumption | with_reducible refine good_setBuf ?_ | with_reducible refine good_if ?_ (fun _ => ?_) | dsimp only | split)

theorem good_handOver {q : List Instr} {s : State} {p : Packet} (hG : Good q s) :
    Good q (handOver p s) := by
  unfold handOver
  repeat' (first | with_reducible assumption | with_reducible refine good_linkQueue ?_ | with_reducible refine good_if ?_ (fun _ => ?_) | dsimp only | split | with_reducible refine good_upd ?_ rfl rfl rfl)

theorem good_fillRouter {q : List Instr} {s : State} {g : Nat} (hG : Good q s) :
    Good q (fillRouter g s) := by
  unfold fillRouter
  repeat' (first | with_reducible assumption | with_reducible refine good_nicFill ?_ | with_reducible refine good_if ?_ (fun _ => ?_) | with_reducible refine good_foldl ?_ (fun _ _ _ => ?_) | with_reducible refine good_foldl_snd ?_ (fun _ _ _ => ?_) | with_reducible refine good_foldl_fst ?_ (fun _ _ _ => ?_) | with_reducible refine good_if_snd ?_ (fun _ => ?_) | with_reducible refine good_if_fst ?_ (fun _ => ?_) | dsimp only | split)

theorem good_execRouterForward {q : List Instr} {s : State} {g : ClusterId} {out : RouterPort} {upset : List (Nat × Nat)} (hG : Good q s) :
    ∃ w, execRouterForward g out upset s = .next w ∧ Good q w := by
  refine ⟨_, rfl, ?_⟩
  repeat' (first | with_reducible assumption | with_reducible refine good_powered ?_ (fun _ _ => ?_) | with_reducible refine good_fillRouter ?_ | with_reducible refine good_noteTurn ?_ | with_reducible refine good_dequeue ?_ | with_reducible refine good_discardBad ?_ | with_reducible refine good_countRsvd ?_ | with_reducible refine good_handOver ?_ | with_reducible refine good_noteThrottle ?_ | with_reducible refine good_setBuf ?_ | with_reducible refine good_answer ?_ | with_reducible refine good_if ?_ (fun _ => ?_) | dsimp only | split)

theorem good_execCtlTimeout {q : List Instr} {s : State} {src : Nat} {txid : Nat} (hG : Good q s) :
    ∃ w, execCtlTimeout src txid s = .next w ∧ Good q w := by
  refine ⟨_, rfl, ?_⟩
  repeat' (first | with_reducible assumption | with_reducible refine good_powered ?_ (fun _ _ => ?_) | with_reducible refine good_awaitLost ?_ | with_reducible refine good_if ?_ (fun _ => ?_) | dsimp only | split)

theorem good_execPktOperand {q : List Instr} {s : State} {p : Packet} (hG : Good q s) :
    ∃ w, execPktOperand p s = .next w ∧ Good q w := by
  refine ⟨_, rfl, ?_⟩
  repeat' (first | with_reducible assumption | with_reducible refine good_powered ?_ (fun _ _ => ?_) | with_reducible refine good_received ?_ (fun _ _ => ?_) | with_reducible refine good_ignorePacket ?_ | with_reducible refine good_deliver ?_ | with_reducible refine good_send ?_ | with_reducible refine good_take ?_ | with_reducible refine good_if ?_ (fun _ => ?_) | dsimp only | split)

theorem good_execPktAck {q : List Instr} {s : State} {p : Packet} (hG : Good q s) :
    ∃ w, execPktAck p s = .next w ∧ Good q w := by
  refine ⟨_, rfl, ?_⟩
  repeat' (first | with_reducible assumption | with_reducible refine good_powered ?_ (fun _ _ => ?_) | with_reducible refine good_received ?_ (fun _ _ => ?_) | with_reducible refine good_engineOr ?_ (fun _ _ => ?_) | with_reducible refine good_engineAck ?_ | with_reducible refine good_take ?_ | with_reducible refine good_if ?_ (fun _ => ?_) | with_reducible refine good_foldl ?_ (fun _ _ _ => ?_) | with_reducible refine good_foldl_snd ?_ (fun _ _ _ => ?_) | with_reducible refine good_foldl_fst ?_ (fun _ _ _ => ?_) | with_reducible refine good_if_snd ?_ (fun _ => ?_) | with_reducible refine good_if_fst ?_ (fun _ => ?_) | dsimp only | split | with_reducible refine good_upd ?_ rfl rfl rfl)

theorem good_execPktRefuse {q : List Instr} {s : State} {p : Packet} (hG : Good q s) :
    ∃ w, execPktRefuse p s = .next w ∧ Good q w := by
  refine ⟨_, rfl, ?_⟩
  repeat' (first | with_reducible assumption | with_reducible refine good_powered ?_ (fun _ _ => ?_) | with_reducible refine good_received ?_ (fun _ _ => ?_) | with_reducible refine good_awaitLost ?_ | with_reducible refine good_engineOr ?_ (fun _ _ => ?_) | with_reducible refine good_engineRefuse ?_ | with_reducible refine good_take ?_ | with_reducible refine good_if ?_ (fun _ => ?_) | dsimp only | split)

theorem good_execPktReadReqWindow {q : List Instr} {s : State} {p : Packet} (hG : Good q s) :
    ∃ w, execPktReadReqWindow p s = .next w ∧ Good q w := by
  refine ⟨_, rfl, ?_⟩
  repeat' (first | with_reducible assumption | with_reducible refine good_powered ?_ (fun _ _ => ?_) | with_reducible refine good_received ?_ (fun _ _ => ?_) | with_reducible refine good_ignorePacket ?_ | with_reducible refine good_refuseWindow ?_ | with_reducible refine good_readRange ?_ | with_reducible refine good_send ?_ | with_reducible refine good_take ?_ | with_reducible refine good_if ?_ (fun _ => ?_) | dsimp only | split)

theorem good_failedServes {q : List Instr} {s : State} {a : Nat} (hG : Good q s) :
    Good q (failedServes s a).2 := by
  unfold failedServes
  repeat' (first | with_reducible assumption | with_reducible refine good_freeNat ?_ | with_reducible refine good_if ?_ (fun _ => ?_) | with_reducible refine good_if_snd ?_ (fun _ => ?_) | dsimp only | split)

theorem good_execPktReadReqHbm {q : List Instr} {s : State} {p : Packet} (hG : Good q s) :
    ∃ w, execPktReadReqHbm p s = .next w ∧ Good q w := by
  refine ⟨_, rfl, ?_⟩
  repeat' (first | with_reducible assumption | with_reducible refine good_powered ?_ (fun _ _ => ?_) | with_reducible refine good_received ?_ (fun _ _ => ?_) | with_reducible refine good_ignorePacket ?_ | with_reducible refine good_failedServes ?_ | with_reducible refine good_readBurst ?_ | with_reducible refine good_send ?_ | with_reducible refine good_failChunks ?_ | with_reducible refine good_take ?_ | with_reducible refine good_if ?_ (fun _ => ?_) | with_reducible refine good_foldl ?_ (fun _ _ _ => ?_) | with_reducible refine good_foldl_snd ?_ (fun _ _ _ => ?_) | with_reducible refine good_foldl_fst ?_ (fun _ _ _ => ?_) | with_reducible refine good_if_snd ?_ (fun _ => ?_) | with_reducible refine good_if_fst ?_ (fun _ => ?_) | dsimp only | split)

theorem good_execPktNotify {q : List Instr} {s : State} {p : Packet} (hG : Good q s) :
    ∃ w, execPktNotify p s = .next w ∧ Good q w := by
  refine ⟨_, rfl, ?_⟩
  repeat' (first | with_reducible assumption | with_reducible refine good_powered ?_ (fun _ _ => ?_) | with_reducible refine good_received ?_ (fun _ _ => ?_) | with_reducible refine good_ignorePacket ?_ | with_reducible refine good_refuseWindow ?_ | with_reducible refine good_placeNote ?_ | with_reducible refine good_send ?_ | with_reducible refine good_take ?_ | with_reducible refine good_if ?_ (fun _ => ?_) | dsimp only | split)

theorem good_execPktFlagWrite {q : List Instr} {s : State} {p : Packet} (hG : Good q s) :
    ∃ w, execPktFlagWrite p s = .next w ∧ Good q w := by
  refine ⟨_, rfl, ?_⟩
  repeat' (first | with_reducible assumption | with_reducible refine good_powered ?_ (fun _ _ => ?_) | with_reducible refine good_received ?_ (fun _ _ => ?_) | with_reducible refine good_ignorePacket ?_ | with_reducible refine good_reservedPacket ?_ | with_reducible refine good_send ?_ | with_reducible refine good_setFlag ?_ | with_reducible refine good_if ?_ (fun _ => ?_) | dsimp only | split)

theorem good_execPktBarArrive {q : List Instr} {s : State} {p : Packet} (hG : Good q s) :
    ∃ w, execPktBarArrive p s = .next w ∧ Good q w := by
  refine ⟨_, rfl, ?_⟩
  repeat' (first | with_reducible assumption | with_reducible refine good_powered ?_ (fun _ _ => ?_) | with_reducible refine good_received ?_ (fun _ _ => ?_) | with_reducible refine good_ignorePacket ?_ | with_reducible refine good_send ?_ | with_reducible refine good_barArrive ?_ | with_reducible refine good_take ?_ | with_reducible refine good_answer ?_ | with_reducible refine good_if ?_ (fun _ => ?_) | dsimp only | split)

theorem good_execPktMgmt {q : List Instr} {s : State} {p : Packet} (hG : Good q s) :
    ∃ w, execPktMgmt p s = .next w ∧ Good q w := by
  refine ⟨_, rfl, ?_⟩
  repeat' (first | with_reducible assumption | with_reducible refine good_powered ?_ (fun _ _ => ?_) | with_reducible refine good_received ?_ (fun _ _ => ?_) | with_reducible refine good_reservedPacket ?_ | with_reducible refine good_ignorePacket ?_ | with_reducible refine good_if ?_ (fun _ => ?_) | dsimp only | split | with_reducible refine good_upd ?_ rfl rfl rfl)

theorem good_execPktWrite {q : List Instr} {s : State} {p : Packet} (hG : Good q s) :
    ∃ w, execPktWrite p s = .next w ∧ Good q w := by
  refine ⟨_, rfl, ?_⟩
  repeat' (first | with_reducible assumption | with_reducible refine good_powered ?_ (fun _ _ => ?_) | with_reducible refine good_received ?_ (fun _ _ => ?_) | with_reducible refine good_ignorePacket ?_ | with_reducible refine good_refuseWindow ?_ | with_reducible refine good_send ?_ | with_reducible refine good_updTile ?_ | with_reducible refine good_if ?_ (fun _ => ?_) | dsimp only | split)

theorem good_execPktHbmWrite {q : List Instr} {s : State} {p : Packet} (hG : Good q s) :
    ∃ w, execPktHbmWrite p s = .next w ∧ Good q w := by
  refine ⟨_, rfl, ?_⟩
  repeat' (first | with_reducible assumption | with_reducible refine good_powered ?_ (fun _ _ => ?_) | with_reducible refine good_received ?_ (fun _ _ => ?_) | with_reducible refine good_ignorePacket ?_ | with_reducible refine good_failedServes ?_ | with_reducible refine good_send ?_ | with_reducible refine good_storeAnyway ?_ | with_reducible refine good_if ?_ (fun _ => ?_) | dsimp only | split)

theorem good_forwardWrite {q : List Instr} {s : State} {t : Nat} {e : Nat} {r : DmaRun} {c : DmaCredit} {bs : List Byte} (hG : Good q s) :
    Good q (forwardWrite t e r c bs s) := by
  unfold forwardWrite
  repeat' (first | with_reducible assumption | with_reducible refine good_creditDone ?_ | with_reducible refine good_addR ?_ | with_reducible refine good_send ?_ | with_reducible refine good_setRun ?_ | with_reducible refine good_if ?_ (fun _ => ?_) | dsimp only | split)

theorem good_execPktReadData {q : List Instr} {s : State} {p : Packet} (hG : Good q s) :
    ∃ w, execPktReadData p s = .next w ∧ Good q w := by
  refine ⟨_, rfl, ?_⟩
  repeat' (first | with_reducible assumption | with_reducible refine good_powered ?_ (fun _ _ => ?_) | with_reducible refine good_received ?_ (fun _ _ => ?_) | with_reducible refine good_engineOr ?_ (fun _ _ => ?_) | with_reducible refine good_forwardWrite ?_ | with_reducible refine good_updTile ?_ | with_reducible refine good_creditDone ?_ | with_reducible refine good_addR ?_ | with_reducible refine good_lateAnswer ?_ | with_reducible refine good_answer ?_ | with_reducible refine good_broadcast ?_ | with_reducible refine good_if ?_ (fun _ => ?_) | dsimp only | split)

theorem good_execPktPrivWrite {q : List Instr} {s : State} {p : Packet} (hG : Good q s) :
    ∃ w, execPktPrivWrite p s = .next w ∧ Good q w := by
  refine ⟨_, rfl, ?_⟩
  repeat' (first | with_reducible assumption | with_reducible refine good_powered ?_ (fun _ _ => ?_) | with_reducible refine good_received ?_ (fun _ _ => ?_) | with_reducible refine good_reservedPacket ?_ | with_reducible refine good_ignorePacket ?_ | with_reducible refine good_send ?_ | with_reducible refine good_updTile ?_ | with_reducible refine good_if ?_ (fun _ => ?_) | dsimp only | split)

theorem good_execPktReservedOpcode {q : List Instr} {s : State} {p : Packet} (hG : Good q s) :
    ∃ w, execPktReservedOpcode p s = .next w ∧ Good q w := by
  refine ⟨_, rfl, ?_⟩
  repeat' (first | with_reducible assumption | with_reducible refine good_powered ?_ (fun _ _ => ?_) | with_reducible refine good_reservedPacket ?_ | with_reducible refine good_take ?_ | with_reducible refine good_quiesced ?_ | with_reducible refine good_if ?_ (fun _ => ?_) | dsimp only | split)

theorem good_execQuiesce {q : List Instr} {s : State} (hG : Good q s) :
    ∃ w, execQuiesce s = .next w ∧ Good q w := by
  refine ⟨_, rfl, ?_⟩
  repeat' (first | with_reducible assumption | with_reducible refine good_powered ?_ (fun _ _ => ?_) | with_reducible refine good_quiesced ?_ | with_reducible refine good_if ?_ (fun _ => ?_) | dsimp only | split | with_reducible refine good_upd ?_ rfl rfl rfl)

theorem good_seamFail {q : List Instr} {s : State} {b : SeamBundle} {i : Nat} (hG : Good q s) :
    Good q (seamFail b i s) := by
  unfold seamFail
  repeat' (first | with_reducible assumption | with_reducible refine good_setBundle ?_ | with_reducible refine good_logOpen ?_ | with_reducible refine good_satAdd ?_ | with_reducible refine good_winterCause ?_ | with_reducible refine good_upd_ ?_ | with_reducible refine good_if ?_ (fun _ => ?_) | dsimp only | split)

theorem good_execSeamWireMark {q : List Instr} {s : State} {b : SeamBundle} {wire : Nat} {errors : Nat} (hG : Good q s) :
    ∃ w, execSeamWireMark b wire errors s = .next w ∧ Good q w := by
  refine ⟨_, rfl, ?_⟩
  repeat' (first | with_reducible assumption | with_reducible refine good_powered ?_ (fun _ _ => ?_) | with_reducible refine good_logOpen ?_ | with_reducible refine good_satAdd ?_ | with_reducible refine good_setBundle ?_ | with_reducible refine good_seamFail ?_ | with_reducible refine good_if ?_ (fun _ => ?_) | dsimp only | split)

end Sys2Proof.Machine
end

