-- ==== Sys2Proof/Laws/GoodPower.lean ====
section
/-! SUPPORT. Every operation of Machine/Power.lean keeps a sound state sound. -/

namespace Sys2Proof.Machine

open Sys2Proof

theorem good_noteVin {q : List Instr} {s : State} {vin : Nat} (hG : Good q s) :
    Good q (noteVin vin s) := by
  unfold noteVin
  repeat' (first | with_reducible assumption | with_reducible refine good_upd_ ?_ | with_reducible refine good_if ?_ (fun _ => ?_) | dsimp only | split)

theorem good_execVinHighEnter {q : List Instr} {s : State} {vin : Nat} {us : Nat} (hG : Good q s) :
    ∃ w, execVinHighEnter vin us s = .next w ∧ Good q w := by
  refine ⟨_, rfl, ?_⟩
  repeat' (first | with_reducible assumption | with_reducible refine good_powered ?_ (fun _ _ => ?_) | with_reducible refine good_noteVin ?_ | with_reducible refine good_logOpen ?_ | with_reducible refine good_upd_ ?_ | with_reducible refine good_if ?_ (fun _ => ?_) | dsimp only | split)

theorem good_execVinHighRelease {q : List Instr} {s : State} {vin : Nat} {us : Nat} (hG : Good q s) :
    ∃ w, execVinHighRelease vin us s = .next w ∧ Good q w := by
  refine ⟨_, rfl, ?_⟩
  repeat' (first | with_reducible assumption | with_reducible refine good_powered ?_ (fun _ _ => ?_) | with_reducible refine good_noteVin ?_ | with_reducible refine good_upd_ ?_ | with_reducible refine good_if ?_ (fun _ => ?_) | dsimp only | split)

theorem good_execOvervoltEnter {q : List Instr} {s : State} {vin : Nat} {us : Nat} (hG : Good q s) :
    ∃ w, execOvervoltEnter vin us s = .next w ∧ Good q w := by
  refine ⟨_, rfl, ?_⟩
  repeat' (first | with_reducible assumption | with_reducible refine good_powered ?_ (fun _ _ => ?_) | with_reducible refine good_powerOff ?_ | with_reducible refine good_noteVin ?_ | with_reducible refine good_if ?_ (fun _ => ?_) | dsimp only | split)

theorem good_execOvervoltRelease {q : List Instr} {s : State} {vin : Nat} {us : Nat} (hG : Good q s) :
    ∃ w, execOvervoltRelease vin us s = .next w ∧ Good q w := by
  refine ⟨_, rfl, ?_⟩
  repeat' (first | with_reducible assumption | with_reducible refine good_if ?_ (fun _ => ?_) | dsimp only | split | with_reducible refine good_upd ?_ rfl rfl rfl)

theorem good_execCapEnter {q : List Instr} {s : State} {vin : Nat} {us : Nat} (hG : Good q s) :
    ∃ w, execCapEnter vin us s = .next w ∧ Good q w := by
  refine ⟨_, rfl, ?_⟩
  repeat' (first | with_reducible assumption | with_reducible refine good_powered ?_ (fun _ _ => ?_) | with_reducible refine good_noteVin ?_ | with_reducible refine good_logOpen ?_ | with_reducible refine good_exemptFall ?_ | with_reducible refine good_upd_ ?_ | with_reducible refine good_if ?_ (fun _ => ?_) | dsimp only | split)

theorem good_execCapRelease {q : List Instr} {s : State} {vin : Nat} {us : Nat} (hG : Good q s) :
    ∃ w, execCapRelease vin us s = .next w ∧ Good q w := by
  refine ⟨_, rfl, ?_⟩
  repeat' (first | with_reducible assumption | with_reducible refine good_powered ?_ (fun _ _ => ?_) | with_reducible refine good_noteVin ?_ | with_reducible refine good_upd_ ?_ | with_reducible refine good_if ?_ (fun _ => ?_) | dsimp only | split)

theorem good_execHaltEnter {q : List Instr} {s : State} {vin : Nat} {us : Nat} (hG : Good q s) :
    ∃ w, execHaltEnter vin us s = .next w ∧ Good q w := by
  refine ⟨_, rfl, ?_⟩
  repeat' (first | with_reducible assumption | with_reducible refine good_powered ?_ (fun _ _ => ?_) | with_reducible refine good_noteVin ?_ | with_reducible refine good_upd_ ?_ | with_reducible refine good_winterCause ?_ | with_reducible refine good_lifetimeWrite ?_ | with_reducible refine good_logOpen ?_ | with_reducible refine good_if ?_ (fun _ => ?_) | dsimp only | split)

theorem good_execHaltRelease {q : List Instr} {s : State} {vin : Nat} {us : Nat} (hG : Good q s) :
    ∃ w, execHaltRelease vin us s = .next w ∧ Good q w := by
  refine ⟨_, rfl, ?_⟩
  repeat' (first | with_reducible assumption | with_reducible refine good_powered ?_ (fun _ _ => ?_) | with_reducible refine good_noteVin ?_ | with_reducible refine good_winterClear ?_ | with_reducible refine good_upd_ ?_ | with_reducible refine good_if ?_ (fun _ => ?_) | dsimp only | split)

theorem good_execBrownout {q : List Instr} {s : State} {vin : Nat} {us : Nat} (hG : Good q s) :
    ∃ w, execBrownout vin us s = .next w ∧ Good q w := by
  refine ⟨_, rfl, ?_⟩
  repeat' (first | with_reducible assumption | with_reducible refine good_powered ?_ (fun _ _ => ?_) | with_reducible refine good_noteVin ?_ | with_reducible refine good_powerOff ?_ | with_reducible refine good_if ?_ (fun _ => ?_) | dsimp only | split | with_reducible refine good_upd ?_ rfl rfl rfl)

theorem good_execBrownoutRelease {q : List Instr} {s : State} {vin : Nat} {us : Nat} (hG : Good q s) :
    ∃ w, execBrownoutRelease vin us s = .next w ∧ Good q w := by
  refine ⟨_, rfl, ?_⟩
  repeat' (first | with_reducible assumption | with_reducible refine good_if ?_ (fun _ => ?_) | dsimp only | split | with_reducible refine good_upd ?_ rfl rfl rfl)

theorem good_execInputEnBreak {q : List Instr} {s : State} (hG : Good q s) :
    ∃ w, execInputEnBreak s = .next w ∧ Good q w := by
  refine ⟨_, rfl, ?_⟩
  repeat' (first | with_reducible assumption | with_reducible refine good_powerOff ?_ | with_reducible refine good_if ?_ (fun _ => ?_) | dsimp only | split | with_reducible refine good_upd ?_ rfl rfl rfl)

theorem good_execInputEnMate {q : List Instr} {s : State} {vin : Nat} (hG : Good q s) :
    ∃ w, execInputEnMate vin s = .next w ∧ Good q w := by
  refine ⟨_, rfl, ?_⟩
  repeat' (first | with_reducible assumption | with_reducible refine good_noteVin ?_ | with_reducible refine good_if ?_ (fun _ => ?_) | dsimp only | split | with_reducible refine good_upd ?_ rfl rfl rfl)

theorem good_execVinQualify {q : List Instr} {s : State} {vin : Nat} {us : Nat} {cap : Nat} (hG : Good q s) :
    ∃ w, execVinQualify vin us cap s = .next w ∧ Good q w := by
  refine ⟨_, rfl, ?_⟩
  repeat' (first | with_reducible assumption | with_reducible refine good_if ?_ (fun _ => ?_) | dsimp only | split | with_reducible refine good_upd ?_ rfl rfl rfl)

theorem good_execSupplyInRegulation {q : List Instr} {s : State} {rail : Supply} (hG : Good q s) :
    ∃ w, execSupplyInRegulation rail s = .next w ∧ Good q w := by
  refine ⟨_, rfl, ?_⟩
  repeat' (first | with_reducible assumption | with_reducible refine good_release ?_ | with_reducible refine good_if ?_ (fun _ => ?_) | dsimp only | split | with_reducible refine good_upd ?_ rfl rfl rfl)

theorem good_execPowerOnReset {q : List Instr} {s : State} (hG : Good q s) :
    ∃ w, execPowerOnReset s = .next w ∧ Good q w := by
  refine ⟨_, rfl, ?_⟩
  repeat' (first | with_reducible assumption | with_reducible refine good_powerOnReset ?_ | with_reducible refine good_if ?_ (fun _ => ?_) | dsimp only | split)

theorem good_pwrCmdWrite {q : List Instr} {s : State} {m : Master} {op : Nat} (hG : Good q s) :
    Good q (pwrCmdWrite m op s) := by
  unfold pwrCmdWrite
  repeat' (first | with_reducible assumption | with_reducible refine good_upd_ ?_ | with_reducible refine good_powerOff ?_ | with_reducible refine good_computeReset ?_ | with_reducible refine good_lifetimeWrite ?_ | with_reducible refine good_logFlush ?_ | with_reducible refine good_refusedWrite ?_ | with_reducible refine good_if ?_ (fun _ => ?_) | dsimp only | split)

theorem good_execShutdown {q : List Instr} {s : State} {m : Master} (hG : Good q s) :
    ∃ w, execShutdown m s = .next w ∧ Good q w := by
  refine ⟨_, rfl, ?_⟩
  repeat' (first | with_reducible assumption | with_reducible refine good_powered ?_ (fun _ _ => ?_) | with_reducible refine good_asOwner ?_ (fun _ _ => ?_) | with_reducible refine good_pwrCmdWrite ?_ | with_reducible refine good_if ?_ (fun _ => ?_) | dsimp only | split)

theorem good_execPwrCmdReserved {q : List Instr} {s : State} {m : Master} {op : Nat} (hG : Good q s) :
    ∃ w, execPwrCmdReserved m op s = .next w ∧ Good q w := by
  refine ⟨_, rfl, ?_⟩
  repeat' (first | with_reducible assumption | with_reducible refine good_powered ?_ (fun _ _ => ?_) | with_reducible refine good_asOwner ?_ (fun _ _ => ?_) | with_reducible refine good_pwrCmdWrite ?_ | with_reducible refine good_if ?_ (fun _ => ?_) | dsimp only | split)

theorem good_execIbcFail {q : List Instr} {s : State} {f : FieldId} {c : Fin 3} (hG : Good q s) :
    ∃ w, execIbcFail f c s = .next w ∧ Good q w := by
  refine ⟨_, rfl, ?_⟩
  repeat' (first | with_reducible assumption | with_reducible refine good_powered ?_ (fun _ _ => ?_) | with_reducible refine good_upd_ ?_ | with_reducible refine good_logOpen ?_ | with_reducible refine good_fieldLoss ?_ | with_reducible refine good_if ?_ (fun _ => ?_) | dsimp only | split)

theorem good_execSenseFault {q : List Instr} {s : State} {f : FieldId} {mv : Nat} {us : Nat} (hG : Good q s) :
    ∃ w, execSenseFault f mv us s = .next w ∧ Good q w := by
  refine ⟨_, rfl, ?_⟩
  repeat' (first | with_reducible assumption | with_reducible refine good_powered ?_ (fun _ _ => ?_) | with_reducible refine good_logOpen ?_ | with_reducible refine good_upd_ ?_ | with_reducible refine good_if ?_ (fun _ => ?_) | dsimp only | split)

theorem good_execFieldLoss {q : List Instr} {s : State} {f : FieldId} {cause : Nat} (hG : Good q s) :
    ∃ w, execFieldLoss f cause s = .next w ∧ Good q w := by
  refine ⟨_, rfl, ?_⟩
  repeat' (first | with_reducible assumption | with_reducible refine good_powered ?_ (fun _ _ => ?_) | with_reducible refine good_fieldLoss ?_ | with_reducible refine good_if ?_ (fun _ => ?_) | dsimp only | split)

theorem good_execPhaseFail {q : List Instr} {s : State} {g : ClusterId} {phase : Fin 8} (hG : Good q s) :
    ∃ w, execPhaseFail g phase s = .next w ∧ Good q w := by
  refine ⟨_, rfl, ?_⟩
  repeat' (first | with_reducible assumption | with_reducible refine good_powered ?_ (fun _ _ => ?_) | with_reducible refine good_upd_ ?_ | with_reducible refine good_setIlimEff ?_ | with_reducible refine good_logOpen ?_ | with_reducible refine good_clusterDark ?_ | with_reducible refine good_if ?_ (fun _ => ?_) | dsimp only | split | with_reducible refine good_upd ?_ rfl rfl rfl)

theorem good_undoHeat {q : List Instr} {s : State} {g : Nat} (hG : Good q s) :
    Good q (undoHeat g s) := by
  unfold undoHeat
  repeat' (first | with_reducible assumption | with_reducible refine good_upd_ ?_ | with_reducible refine good_take ?_ | with_reducible refine good_if ?_ (fun _ => ?_) | with_reducible refine good_foldl ?_ (fun _ _ _ => ?_) | with_reducible refine good_foldl_snd ?_ (fun _ _ _ => ?_) | with_reducible refine good_foldl_fst ?_ (fun _ _ _ => ?_) | with_reducible refine good_if_snd ?_ (fun _ => ?_) | with_reducible refine good_if_fst ?_ (fun _ => ?_) | dsimp only | split | with_reducible refine good_upd ?_ rfl rfl rfl)

theorem good_execShortTrip {q : List Instr} {s : State} {g : ClusterId} {input : Bool} (hG : Good q s) :
    ∃ w, execShortTrip g input s = .next w ∧ Good q w := by
  refine ⟨_, rfl, ?_⟩
  repeat' (first | with_reducible assumption | with_reducible refine good_powered ?_ (fun _ _ => ?_) | with_reducible refine good_clusterDark ?_ | with_reducible refine good_undoHeat ?_ | with_reducible refine good_upd_ ?_ | with_reducible refine good_if ?_ (fun _ => ?_) | dsimp only | split)

theorem good_admitCluster {q : List Instr} {s : State} {g : Nat} {slow : Bool} (hG : Good q s) :
    Good q (admitCluster g slow s) := by
  unfold admitCluster
  repeat' (first | with_reducible assumption | with_reducible refine good_upd_ ?_ | with_reducible refine good_satAdd ?_ | with_reducible refine good_if ?_ (fun _ => ?_) | dsimp only | split | with_reducible refine good_upd ?_ rfl rfl rfl)

theorem good_execAdmissionGrant {q : List Instr} {s : State} {g : ClusterId} (hG : Good q s) :
    ∃ w, execAdmissionGrant g s = .next w ∧ Good q w := by
  refine ⟨_, rfl, ?_⟩
  repeat' (first | with_reducible assumption | with_reducible refine good_powered ?_ (fun _ _ => ?_) | with_reducible refine good_admitCluster ?_ | with_reducible refine good_if ?_ (fun _ => ?_) | dsimp only | split)

theorem good_execAdmissionForced {q : List Instr} {s : State} {g : ClusterId} (hG : Good q s) :
    ∃ w, execAdmissionForced g s = .next w ∧ Good q w := by
  refine ⟨_, rfl, ?_⟩
  repeat' (first | with_reducible assumption | with_reducible refine good_powered ?_ (fun _ _ => ?_) | with_reducible refine good_logOpen ?_ | with_reducible refine good_satAdd ?_ | with_reducible refine good_admitCluster ?_ | with_reducible refine good_if ?_ (fun _ => ?_) | dsimp only | split)

theorem good_execSoftStartDone {q : List Instr} {s : State} {g : ClusterId} (hG : Good q s) :
    ∃ w, execSoftStartDone g s = .next w ∧ Good q w := by
  refine ⟨_, rfl, ?_⟩
  repeat' (first | with_reducible assumption | with_reducible refine good_powered ?_ (fun _ _ => ?_) | with_reducible refine good_clusterOn ?_ | with_reducible refine good_if ?_ (fun _ => ?_) | dsimp only | split)

theorem good_execClusterRampDownDone {q : List Instr} {s : State} {g : ClusterId} (hG : Good q s) :
    ∃ w, execClusterRampDownDone g s = .next w ∧ Good q w := by
  refine ⟨_, rfl, ?_⟩
  repeat' (first | with_reducible assumption | with_reducible refine good_powered ?_ (fun _ _ => ?_) | with_reducible refine good_upd_ ?_ | with_reducible refine good_if ?_ (fun _ => ?_) | dsimp only | split | with_reducible refine good_upd ?_ rfl rfl rfl)

theorem good_execAuxConverterFault {q : List Instr} {s : State} {b : Bool} (hG : Good q s) :
    ∃ w, execAuxConverterFault b s = .next w ∧ Good q w := by
  refine ⟨_, rfl, ?_⟩
  repeat' (first | with_reducible assumption | with_reducible refine good_powered ?_ (fun _ _ => ?_) | with_reducible refine good_upd_ ?_ | with_reducible refine good_powerOff ?_ | with_reducible refine good_logOpen ?_ | with_reducible refine good_if ?_ (fun _ => ?_) | dsimp only | split)

theorem good_domainsHeld {q : List Instr} {s : State} (hG : Good q s) :
    Good q (domainsHeld s) := by
  unfold domainsHeld
  repeat' (first | with_reducible assumption | with_reducible refine good_setLinkSt ?_ | with_reducible refine good_updLink ?_ | with_reducible refine good_upd_ ?_ | with_reducible refine good_headDown ?_ | with_reducible refine good_if ?_ (fun _ => ?_) | with_reducible refine good_foldl ?_ (fun _ _ _ => ?_) | with_reducible refine good_foldl_snd ?_ (fun _ _ _ => ?_) | with_reducible refine good_foldl_fst ?_ (fun _ _ _ => ?_) | with_reducible refine good_if_snd ?_ (fun _ => ?_) | with_reducible refine good_if_fst ?_ (fun _ => ?_) | dsimp only | split | with_reducible refine good_upd ?_ rfl rfl rfl)

theorem good_execAuxRailFault {q : List Instr} {s : State} {rail : AuxRail} (hG : Good q s) :
    ∃ w, execAuxRailFault rail s = .next w ∧ Good q w := by
  refine ⟨_, rfl, ?_⟩
  repeat' (first | with_reducible assumption | with_reducible refine good_powered ?_ (fun _ _ => ?_) | with_reducible refine good_springStop ?_ | with_reducible refine good_domainsHeld ?_ | with_reducible refine good_powerOnReset ?_ | with_reducible refine good_if ?_ (fun _ => ?_) | dsimp only | split | with_reducible refine good_upd ?_ rfl rfl rfl)

theorem good_execHostRailFault {q : List Instr} {s : State} {h : Head} (hG : Good q s) :
    ∃ w, execHostRailFault h s = .next w ∧ Good q w := by
  refine ⟨_, rfl, ?_⟩
  repeat' (first | with_reducible assumption | with_reducible refine good_powered ?_ (fun _ _ => ?_) | with_reducible refine good_upd_ ?_ | with_reducible refine good_headDown ?_ | with_reducible refine good_logOpen ?_ | with_reducible refine good_if ?_ (fun _ => ?_) | dsimp only | split)

end Sys2Proof.Machine
end

