-- ==== Sys2Proof/Laws/GoodBoot.lean ====
section
/-! SUPPORT. Every operation of Machine/Boot.lean keeps a sound state sound. -/

namespace Sys2Proof.Machine

open Sys2Proof

theorem good_finishStep {q : List Instr} {s : State} {n : Nat} (hG : Good q s) :
    Good q (finishStep n s) := by
  unfold finishStep
  repeat' (first | with_reducible assumption | with_reducible refine good_bt ?_ | with_reducible refine good_upd_ ?_ | with_reducible refine good_if ?_ (fun _ => ?_) | dsimp only | split)

theorem good_checkKeys {q : List Instr} {s : State} (hG : Good q s) :
    Good q (checkKeys s) := by
  unfold checkKeys
  repeat' (first | with_reducible assumption | with_reducible refine good_put ?_ _ _ | with_reducible refine good_logOpen ?_ | with_reducible refine good_if ?_ (fun _ => ?_) | with_reducible refine good_foldl ?_ (fun _ _ _ => ?_) | with_reducible refine good_foldl_snd ?_ (fun _ _ _ => ?_) | with_reducible refine good_foldl_fst ?_ (fun _ _ _ => ?_) | with_reducible refine good_if_snd ?_ (fun _ => ?_) | with_reducible refine good_if_fst ?_ (fun _ => ?_) | dsimp only | split)

theorem good_startSlot {q : List Instr} {s : State} {i : Nat} {trial : Bool} {tboots : Nat} {minutes : Nat} (hG : Good q s) :
    Good q (startSlot i trial tboots minutes s) := by
  unfold startSlot
  repeat' (first | with_reducible assumption | with_reducible refine good_nv ?_ (fun _ => rfl) | with_reducible refine good_setRelease ?_ | with_reducible refine good_upd_ ?_ | with_reducible refine good_if ?_ (fun _ => ?_) | dsimp only | split)

theorem good_runSlot {q : List Instr} {s : State} {i : Nat} {trial : Bool} {tboots : Nat} {minutes : Nat} (hG : Good q s) :
    Good q (runSlot i trial tboots minutes s) := by
  unfold runSlot
  repeat' (first | with_reducible assumption | with_reducible refine good_startSlot ?_ | with_reducible refine good_writeBoot ?_ | with_reducible refine good_setFwSlot ?_ | with_reducible refine good_springStop ?_ | with_reducible refine good_if ?_ (fun _ => ?_) | dsimp only | split)

theorem good_endTrial {q : List Instr} {s : State} {kind : Nat} {r : BootRec} {reason : Nat} (hG : Good q s) :
    Good q (endTrial kind r reason s) := by
  unfold endTrial
  repeat' (first | with_reducible assumption | with_reducible refine good_runSlot ?_ | with_reducible refine good_writeBoot ?_ | with_reducible refine good_setFwSlot ?_ | with_reducible refine good_if ?_ (fun _ => ?_) | dsimp only | split)

theorem good_trialBoot {q : List Instr} {s : State} {r : BootRec} {tboots : Nat} (hG : Good q s) :
    Good q (trialBoot r tboots s) := by
  unfold trialBoot
  repeat' (first | with_reducible assumption | with_reducible refine good_runSlot ?_ | with_reducible refine good_writeBoot ?_ | with_reducible refine good_if ?_ (fun _ => ?_) | dsimp only | split)

theorem good_chooseSlot {q : List Instr} {s : State} (hG : Good q s) :
    Good q (chooseSlot s) := by
  unfold chooseSlot
  repeat' (first | with_reducible assumption | with_reducible refine good_startSlot ?_ | with_reducible refine good_springStop ?_ | with_reducible refine good_upd_ ?_ | with_reducible refine good_trialBoot ?_ | with_reducible refine good_endTrial ?_ | with_reducible refine good_runSlot ?_ | with_reducible refine good_if ?_ (fun _ => ?_) | dsimp only | split)

theorem good_startLinks {q : List Instr} {s : State} (hG : Good q s) :
    Good q (startLinks s) := by
  unfold startLinks
  repeat' (first | with_reducible assumption | with_reducible refine good_tryTrain ?_ | with_reducible refine good_if ?_ (fun _ => ?_) | with_reducible refine good_foldl ?_ (fun _ _ _ => ?_) | with_reducible refine good_foldl_snd ?_ (fun _ _ _ => ?_) | with_reducible refine good_foldl_fst ?_ (fun _ _ _ => ?_) | with_reducible refine good_if_snd ?_ (fun _ => ?_) | with_reducible refine good_if_fst ?_ (fun _ => ?_) | dsimp only | split)

theorem good_readBoot {q : List Instr} {s : State} {flips : List NvmFlip} (hG : Good q s) :
    Good q (readBoot flips s) := by
  unfold readBoot
  repeat' (first | with_reducible assumption | with_reducible refine good_nv ?_ (fun _ => rfl) | with_reducible refine good_if ?_ (fun _ => ?_) | dsimp only | split)

theorem good_readDevice {q : List Instr} {s : State} {flips : List NvmFlip} (hG : Good q s) :
    Good q (readDevice flips s) := by
  unfold readDevice
  repeat' (first | with_reducible assumption | with_reducible refine good_nv ?_ (fun _ => rfl) | with_reducible refine good_if ?_ (fun _ => ?_) | dsimp only | split)

theorem good_readStore {q : List Instr} {s : State} {flips : List NvmFlip} (hG : Good q s) :
    Good q (readStore flips s) := by
  unfold readStore
  repeat' (first | with_reducible assumption | with_reducible refine good_readDevice ?_ | with_reducible refine good_readBoot ?_ | with_reducible refine good_claim ?_ | with_reducible refine good_if ?_ (fun _ => ?_) | dsimp only | split)

theorem good_execBootRomStart {q : List Instr} {s : State} {flips : List NvmFlip} (hG : Good q s) :
    ∃ w, execBootRomStart flips s = .next w ∧ Good q w := by
  refine ⟨_, rfl, ?_⟩
  repeat' (first | with_reducible assumption | with_reducible refine good_powered ?_ (fun _ _ => ?_) | with_reducible refine good_finishStep ?_ | with_reducible refine good_chooseSlot ?_ | with_reducible refine good_checkKeys ?_ | with_reducible refine good_startLinks ?_ | with_reducible refine good_openWindow ?_ | with_reducible refine good_configSelect ?_ | with_reducible refine good_readStore ?_ | with_reducible refine good_if ?_ (fun _ => ?_) | dsimp only | split)

theorem good_loadSlices {q : List Instr} {s : State} (hG : Good q s) :
    Good q (loadSlices s) := by
  unfold loadSlices
  repeat' (first | with_reducible assumption | with_reducible refine good_upd_ ?_ | with_reducible refine good_countSlices ?_ | with_reducible refine good_if ?_ (fun _ => ?_) | with_reducible refine good_foldl ?_ (fun _ _ _ => ?_) | with_reducible refine good_foldl_snd ?_ (fun _ _ _ => ?_) | with_reducible refine good_foldl_fst ?_ (fun _ _ _ => ?_) | with_reducible refine good_if_snd ?_ (fun _ => ?_) | with_reducible refine good_if_fst ?_ (fun _ => ?_) | dsimp only | split)

theorem good_logBoot {q : List Instr} {s : State} (hG : Good q s) :
    Good q (logBoot s) := by
  unfold logBoot
  repeat' (first | with_reducible assumption | with_reducible refine good_logCoded ?_ | with_reducible refine good_bt ?_ | with_reducible refine good_logOpen ?_ | with_reducible refine good_if ?_ (fun _ => ?_) | dsimp only | split)

theorem good_lostFieldsOff {q : List Instr} {s : State} (hG : Good q s) :
    Good q (lostFieldsOff s) := by
  unfold lostFieldsOff
  repeat' (first | with_reducible assumption | with_reducible refine good_fieldPowerLost ?_ | with_reducible refine good_if ?_ (fun _ => ?_) | with_reducible refine good_foldl ?_ (fun _ _ _ => ?_) | with_reducible refine good_foldl_snd ?_ (fun _ _ _ => ?_) | with_reducible refine good_foldl_fst ?_ (fun _ _ _ => ?_) | with_reducible refine good_if_snd ?_ (fun _ => ?_) | with_reducible refine good_if_fst ?_ (fun _ => ?_) | dsimp only | split)

theorem good_takeMap {q : List Instr} {s : State} {m : MapRecord} (hG : Good q s) :
    Good q (takeMap m s) := by
  unfold takeMap
  repeat' (first | with_reducible assumption | with_reducible refine good_bt ?_ | with_reducible refine good_if ?_ (fun _ => ?_) | dsimp only | split)

theorem good_readMap {q : List Instr} {s : State} {flips : List NvmFlip} (hG : Good q s) :
    Good q (readMap flips s) := by
  unfold readMap
  repeat' (first | with_reducible assumption | with_reducible refine good_takeMap ?_ | with_reducible refine good_bt ?_ | with_reducible refine good_if ?_ (fun _ => ?_) | dsimp only | split)

theorem good_readRetire {q : List Instr} {s : State} {flips : List NvmFlip} (hG : Good q s) :
    Good q (readRetire flips s) := by
  unfold readRetire
  repeat' (first | with_reducible assumption | with_reducible refine good_retire ?_ | with_reducible refine good_if ?_ (fun _ => ?_) | dsimp only | split | with_reducible refine good_upd ?_ rfl rfl rfl)

theorem good_readJournal {q : List Instr} {s : State} {flips : List NvmFlip} (hG : Good q s) :
    Good q (readJournal flips s) := by
  unfold readJournal
  repeat' (first | with_reducible assumption | with_reducible refine good_bt ?_ | with_reducible refine good_if ?_ (fun _ => ?_) | dsimp only | split)

theorem good_readLifetime {q : List Instr} {s : State} {flips : List NvmFlip} (hG : Good q s) :
    Good q (readLifetime flips s) := by
  unfold readLifetime
  repeat' (first | with_reducible assumption | with_reducible refine good_upd_ ?_ | with_reducible refine good_if ?_ (fun _ => ?_) | dsimp only | split | with_reducible refine good_upd ?_ rfl rfl rfl)

theorem good_readLog {q : List Instr} {s : State} {flips : List NvmFlip} (hG : Good q s) :
    Good q (readLog flips s) := by
  unfold readLog
  repeat' (first | with_reducible assumption | with_reducible refine good_if ?_ (fun _ => ?_) | dsimp only | split | with_reducible refine good_upd ?_ rfl rfl rfl)

theorem good_readRecords {q : List Instr} {s : State} {flips : List NvmFlip} (hG : Good q s) :
    Good q (readRecords flips s) := by
  unfold readRecords
  repeat' (first | with_reducible assumption | with_reducible refine good_readLog ?_ | with_reducible refine good_readLifetime ?_ | with_reducible refine good_readRetire ?_ | with_reducible refine good_readMap ?_ | with_reducible refine good_readJournal ?_ | with_reducible refine good_if ?_ (fun _ => ?_) | dsimp only | split)

theorem good_execSupervisorFirmwareStart {q : List Instr} {s : State} {flips : List NvmFlip} (hG : Good q s) :
    ∃ w, execSupervisorFirmwareStart flips s = .next w ∧ Good q w := by
  refine ⟨_, rfl, ?_⟩
  repeat' (first | with_reducible assumption | with_reducible refine good_powered ?_ (fun _ _ => ?_) | with_reducible refine good_readRecords ?_ | with_reducible refine good_logOpen ?_ | with_reducible refine good_journalRecover ?_ | with_reducible refine good_lostFieldsOff ?_ | with_reducible refine good_loadSlices ?_ | with_reducible refine good_logBoot ?_ | with_reducible refine good_bt ?_ | with_reducible refine good_lifeCount ?_ | with_reducible refine good_finishStep ?_ | with_reducible refine good_lifetimeWrite ?_ | with_reducible refine good_writeDevice ?_ | with_reducible refine good_springStop ?_ | with_reducible refine good_if ?_ (fun _ => ?_) | dsimp only | split)

theorem good_springFieldLost {q : List Instr} {s : State} {f : Nat} {cause : Nat} (hG : Good q s) :
    Good q (springFieldLost f cause s) := by
  unfold springFieldLost
  repeat' (first | with_reducible assumption | with_reducible refine good_logCoded ?_ | with_reducible refine good_lifeCount ?_ | with_reducible refine good_hbmFieldLost ?_ | with_reducible refine good_fieldPowerLost ?_ | with_reducible refine good_writeMap ?_ | with_reducible refine good_bt ?_ | with_reducible refine good_springStop ?_ | with_reducible refine good_if ?_ (fun _ => ?_) | dsimp only | split)

theorem good_freshNonce {q : List Instr} {s : State} {f : Nat} (hG : Good q s) :
    Good q (freshNonce f s) := by
  unfold freshNonce
  repeat' (first | with_reducible assumption | with_reducible refine good_freeNat ?_ | with_reducible refine good_bt ?_ | with_reducible refine good_if ?_ (fun _ => ?_) | dsimp only | split)

theorem good_execFieldControllerBoot {q : List Instr} {s : State} {f : FieldId} (hG : Good q s) :
    ∃ w, execFieldControllerBoot f s = .next w ∧ Good q w := by
  refine ⟨_, rfl, ?_⟩
  repeat' (first | with_reducible assumption | with_reducible refine good_powered ?_ (fun _ _ => ?_) | with_reducible refine good_freshNonce ?_ | with_reducible refine good_bt ?_ | with_reducible refine good_springFieldLost ?_ | with_reducible refine good_fieldLoss ?_ | with_reducible refine good_if ?_ (fun _ => ?_) | dsimp only | split)

theorem good_execFieldQuoteReceive {q : List Instr} {s : State} {f : FieldId} {quote : List Byte} (hG : Good q s) :
    ∃ w, execFieldQuoteReceive f quote s = .next w ∧ Good q w := by
  refine ⟨_, rfl, ?_⟩
  repeat' (first | with_reducible assumption | with_reducible refine good_powered ?_ (fun _ _ => ?_) | with_reducible refine good_bt ?_ | with_reducible refine good_upd_ ?_ | with_reducible refine good_logOpen ?_ | with_reducible refine good_dropQuote ?_ | with_reducible refine good_if ?_ (fun _ => ?_) | dsimp only | split)

theorem good_seamTested {q : List Instr} {s : State} {e : SeamBundle × Nat} (hG : Good q s) :
    Good q (seamTested s e) := by
  unfold seamTested
  repeat' (first | with_reducible assumption | with_reducible refine good_satAdd ?_ | with_reducible refine good_setBundle ?_ | with_reducible refine good_logOpen ?_ | with_reducible refine good_springStop ?_ | with_reducible refine good_upd_ ?_ | with_reducible refine good_if ?_ (fun _ => ?_) | dsimp only | split)

theorem good_phaseTested {q : List Instr} {s : State} {e : Nat × Nat} (hG : Good q s) :
    Good q (phaseTested s e) := by
  unfold phaseTested
  repeat' (first | with_reducible assumption | with_reducible refine good_setIlimEff ?_ | with_reducible refine good_upd_ ?_ | with_reducible refine good_logOpen ?_ | with_reducible refine good_if ?_ (fun _ => ?_) | dsimp only | split)

theorem good_trimCluster {q : List Instr} {s : State} {trims : List (Nat × List Nat)} {g : Nat} (hG : Good q s) :
    Good q (trimCluster trims s g) := by
  unfold trimCluster
  repeat' (first | with_reducible assumption | with_reducible refine good_upd_ ?_ | with_reducible refine good_if ?_ (fun _ => ?_) | dsimp only | split)

theorem good_springRemap {q : List Instr} {y3 : State} {f : Nat} {y1 : Nat} {y2 : List Nat} (hG : Good q y3) :
    Good q (springRemap f y1 y2 y3) := by
  induction y1 generalizing y3 y2 with
  | zero =>
    unfold springRemap
    exact hG
  | succ n ih =>
    unfold springRemap
    repeat' (first | with_reducible assumption | with_reducible refine ih ?_ | with_reducible refine good_take ?_ | with_reducible refine good_springFieldLost ?_ | with_reducible refine good_upd_ ?_ | with_reducible refine good_journalAdd ?_ | with_reducible refine good_bt ?_ | with_reducible refine good_writeMap ?_ | with_reducible refine good_satAdd ?_ | with_reducible refine good_lifeCount ?_ | with_reducible refine good_logOpen ?_ | with_reducible refine good_if ?_ (fun _ => ?_) | dsimp only | split)

theorem good_fieldTested {q : List Instr} {s : State} {bad : Nat → Bool} {rebuild : Bool} {f : Nat} (hG : Good q s) :
    Good q (fieldTested bad rebuild s f) := by
  unfold fieldTested
  repeat' (first | with_reducible assumption | with_reducible refine good_logCoded ?_ | with_reducible refine good_springFieldLost ?_ | with_reducible refine good_bt ?_ | with_reducible refine good_writeMap ?_ | with_reducible refine good_writeRetire ?_ | with_reducible refine good_upd_ ?_ | with_reducible refine good_logOpen ?_ | with_reducible refine good_countSlices ?_ | with_reducible refine good_springRemap ?_ | with_reducible refine good_broadcast ?_ | with_reducible refine good_if ?_ (fun _ => ?_) | with_reducible refine good_foldl ?_ (fun _ _ _ => ?_) | with_reducible refine good_foldl_snd ?_ (fun _ _ _ => ?_) | with_reducible refine good_foldl_fst ?_ (fun _ _ _ => ?_) | with_reducible refine good_if_snd ?_ (fun _ => ?_) | with_reducible refine good_if_fst ?_ (fun _ => ?_) | dsimp only | split)

theorem good_sitesReady {q : List Instr} {s : State} (hG : Good q s) :
    Good q (sitesReady s) := by
  unfold sitesReady
  repeat' (first | with_reducible assumption | with_reducible refine good_restCluster ?_ | with_reducible refine good_resetTileRegs ?_ | with_reducible refine good_sinceKatZero ?_ | with_reducible refine good_broadcast ?_ | with_reducible refine good_linkUnfence ?_ | with_reducible refine good_rejoinPorts ?_ | with_reducible refine good_if ?_ (fun _ => ?_) | with_reducible refine good_foldl ?_ (fun _ _ _ => ?_) | with_reducible refine good_foldl_snd ?_ (fun _ _ _ => ?_) | with_reducible refine good_foldl_fst ?_ (fun _ _ _ => ?_) | with_reducible refine good_if_snd ?_ (fun _ => ?_) | with_reducible refine good_if_fst ?_ (fun _ => ?_) | dsimp only | split | with_reducible refine good_upd ?_ rfl rfl rfl)

theorem good_springTested {q : List Instr} {s : State} {trims : List (Nat × List Nat)} {phases : List (Nat × Nat)} {failed : List Nat} (hG : Good q s) :
    Good q (springTested trims phases failed s) := by
  unfold springTested
  repeat' (first | with_reducible assumption | with_reducible refine good_phaseTested ?_ | with_reducible refine good_trimCluster ?_ | with_reducible refine good_addR ?_ | with_reducible refine good_fieldTested ?_ | with_reducible refine good_bt ?_ | with_reducible refine good_finishStep ?_ | with_reducible refine good_sitesReady ?_ | with_reducible refine good_if ?_ (fun _ => ?_) | with_reducible refine good_foldl ?_ (fun _ _ _ => ?_) | with_reducible refine good_foldl_snd ?_ (fun _ _ _ => ?_) | with_reducible refine good_foldl_fst ?_ (fun _ _ _ => ?_) | with_reducible refine good_if_snd ?_ (fun _ => ?_) | with_reducible refine good_if_fst ?_ (fun _ => ?_) | dsimp only | split)

theorem good_reduceRanges {q : List Instr} {s : State} {rb : Nat} (hG : Good q s) :
    Good q (reduceRanges rb s) := by
  unfold reduceRanges
  repeat' (first | with_reducible assumption | with_reducible refine good_logOpen ?_ | with_reducible refine good_upd_ ?_ | with_reducible refine good_if ?_ (fun _ => ?_) | with_reducible refine good_foldl ?_ (fun _ _ _ => ?_) | with_reducible refine good_foldl_snd ?_ (fun _ _ _ => ?_) | with_reducible refine good_foldl_fst ?_ (fun _ _ _ => ?_) | with_reducible refine good_if_snd ?_ (fun _ => ?_) | with_reducible refine good_if_fst ?_ (fun _ => ?_) | dsimp only | split)

theorem good_sliceUntrained {q : List Instr} {s : State} {n : Nat} (hG : Good q s) :
    Good q (sliceUntrained s n) := by
  unfold sliceUntrained
  repeat' (first | with_reducible assumption | with_reducible refine good_upd_ ?_ | with_reducible refine good_logCoded ?_ | with_reducible refine good_lifeSet ?_ | with_reducible refine good_retire ?_ | with_reducible refine good_if ?_ (fun _ => ?_) | dsimp only | split)

theorem good_stackUntrained {q : List Instr} {s : State} {k : Nat} (hG : Good q s) :
    Good q (stackUntrained s k) := by
  unfold stackUntrained
  repeat' (first | with_reducible assumption | with_reducible refine good_sliceUntrained ?_ | with_reducible refine good_writeRetire ?_ | with_reducible refine good_if ?_ (fun _ => ?_) | with_reducible refine good_foldl ?_ (fun _ _ _ => ?_) | with_reducible refine good_foldl_snd ?_ (fun _ _ _ => ?_) | with_reducible refine good_foldl_fst ?_ (fun _ _ _ => ?_) | with_reducible refine good_if_snd ?_ (fun _ => ?_) | with_reducible refine good_if_fst ?_ (fun _ => ?_) | dsimp only | split)

theorem good_channelLost {q : List Instr} {s : State} {n : Nat} (hG : Good q s) :
    Good q (channelLost s n) := by
  unfold channelLost
  repeat' (first | with_reducible assumption | with_reducible refine good_setSlice ?_ | with_reducible refine good_if ?_ (fun _ => ?_) | dsimp only | split)

theorem good_springStep {q : List Instr} {s : State} {x : SpringEvent} (hG : Good q s) :
    Good q (springStep x s) := by
  unfold springStep
  repeat' (first | with_reducible assumption | with_reducible refine good_upd_ ?_ | with_reducible refine good_finishStep ?_ | with_reducible refine good_springFieldLost ?_ | with_reducible refine good_seamTested ?_ | with_reducible refine good_springStop ?_ | with_reducible refine good_logOpen ?_ | with_reducible refine good_journalRecover ?_ | with_reducible refine good_loadMap ?_ | with_reducible refine good_requestAdmission ?_ | with_reducible refine good_nv ?_ (fun _ => rfl) | with_reducible refine good_writeDevice ?_ | with_reducible refine good_reduceRanges ?_ | with_reducible refine good_springTested ?_ | with_reducible refine good_stackUntrained ?_ | with_reducible refine good_channelLost ?_ | with_reducible refine good_countSlices ?_ | with_reducible refine good_domainsHeld ?_ | with_reducible refine good_take ?_ | with_reducible refine good_if ?_ (fun _ => ?_) | with_reducible refine good_foldl ?_ (fun _ _ _ => ?_) | with_reducible refine good_foldl_snd ?_ (fun _ _ _ => ?_) | with_reducible refine good_foldl_fst ?_ (fun _ _ _ => ?_) | with_reducible refine good_if_snd ?_ (fun _ => ?_) | with_reducible refine good_if_fst ?_ (fun _ => ?_) | dsimp only | split | with_reducible refine good_upd ?_ rfl rfl rfl)

theorem good_execSpringStep {q : List Instr} {s : State} {x : SpringEvent} (hG : Good q s) :
    ∃ w, execSpringStep x s = .next w ∧ Good q w := by
  refine ⟨_, rfl, ?_⟩
  repeat' (first | with_reducible assumption | with_reducible refine good_powered ?_ (fun _ _ => ?_) | with_reducible refine good_springStep ?_ | with_reducible refine good_if ?_ (fun _ => ?_) | dsimp only | split)

theorem good_execSpringDone {q : List Instr} {s : State} (hG : Good q s) :
    ∃ w, execSpringDone s = .next w ∧ Good q w := by
  refine ⟨_, rfl, ?_⟩
  repeat' (first | with_reducible assumption | with_reducible refine good_powered ?_ (fun _ _ => ?_) | with_reducible refine good_finishStep ?_ | with_reducible refine good_reduceRanges ?_ | with_reducible refine good_upd_ ?_ | with_reducible refine good_setDevState ?_ | with_reducible refine good_if ?_ (fun _ => ?_) | dsimp only | split)

end Sys2Proof.Machine
end

