-- ==== Sys2Proof/Laws/GoodControl.lean ====
section
/-! SUPPORT. Every operation of Machine/Control.lean keeps a sound state sound. -/

namespace Sys2Proof.Machine

open Sys2Proof

theorem good_ctl {q : List Instr} {s : State} {f : ControlState → ControlState} (hG : Good q s) :
    Good q (ctl f s) := by
  unfold ctl
  repeat' (first | with_reducible assumption | with_reducible refine good_if ?_ (fun _ => ?_) | dsimp only | split | with_reducible refine good_upd ?_ rfl rfl rfl)

theorem good_noteReadings {q : List Instr} {s : State} {x : PowerSample} (hG : Good q s) :
    Good q (noteReadings x s) := by
  unfold noteReadings
  repeat' (first | with_reducible assumption | with_reducible refine good_upd_ ?_ | with_reducible refine good_if ?_ (fun _ => ?_) | with_reducible refine good_foldl ?_ (fun _ _ _ => ?_) | with_reducible refine good_foldl_snd ?_ (fun _ _ _ => ?_) | with_reducible refine good_foldl_fst ?_ (fun _ _ _ => ?_) | with_reducible refine good_if_snd ?_ (fun _ => ?_) | with_reducible refine good_if_fst ?_ (fun _ => ?_) | dsimp only | split)

theorem good_noteActivity {q : List Instr} {s : State} {x : PowerSample} {g : Nat} (hG : Good q s) :
    Good q (noteActivity x s g) := by
  unfold noteActivity
  repeat' (first | with_reducible assumption | with_reducible refine good_ctl ?_ | with_reducible refine good_if ?_ (fun _ => ?_) | dsimp only | split)

theorem good_updateLField {q : List Instr} {s : State} {f : Nat} (hG : Good q s) :
    Good q (updateLField s f) := by
  unfold updateLField
  repeat' (first | with_reducible assumption | with_reducible refine good_exemptFall ?_ | with_reducible refine good_ctl ?_ | with_reducible refine good_if ?_ (fun _ => ?_) | dsimp only | split)

theorem good_updateLIlim {q : List Instr} {s : State} {g : Nat} (hG : Good q s) :
    Good q (updateLIlim s g) := by
  unfold updateLIlim
  repeat' (first | with_reducible assumption | with_reducible refine good_exemptFall ?_ | with_reducible refine good_ctl ?_ | with_reducible refine good_if ?_ (fun _ => ?_) | dsimp only | split)

theorem good_notePower {q : List Instr} {s : State} {p : Nat} (hG : Good q s) :
    Good q (notePower p s) := by
  unfold notePower
  repeat' (first | with_reducible assumption | with_reducible refine good_ctl ?_ | with_reducible refine good_take ?_ | with_reducible refine good_if ?_ (fun _ => ?_) | dsimp only | split)

theorem good_noteWindows {q : List Instr} {s : State} {target : Int} (hG : Good q s) :
    Good q (noteWindows target s) := by
  unfold noteWindows
  repeat' (first | with_reducible assumption | with_reducible refine good_upd_ ?_ | with_reducible refine good_take ?_ | with_reducible refine good_if ?_ (fun _ => ?_) | dsimp only | split)

theorem good_setTherm {q : List Instr} {s : State} {g : Nat} {l : Nat} (hG : Good q s) :
    Good q (setTherm g l s) := by
  unfold setTherm
  repeat' (first | with_reducible assumption | with_reducible refine good_ctl ?_ | with_reducible refine good_if ?_ (fun _ => ?_) | dsimp only | split)

theorem good_fallTherm {q : List Instr} {p : Nat × State} {g : Nat} (hG : Good q p.2) : Good q (fallTherm p g).2 := by
  unfold fallTherm
  dsimp only
  split
  · exact good_setTherm hG
  · exact hG

theorem good_fallRounds {q : List Instr} {on : List Nat} {n : Nat} {p : Nat × State} (hG : Good q p.2) :
    Good q (fallRounds on n p).2 := by
  induction n generalizing p with
  | zero => exact hG
  | succ n ih =>
    unfold fallRounds
    dsimp only
    split
    · exact hG
    · exact ih (good_foldl_snd hG fun _ _ h => good_fallTherm h)

theorem good_applyTherm {q : List Instr} {s : State} {on : List Nat} {fall : Nat} (hG : Good q s) :
    Good q (applyTherm on fall s).2 := by
  unfold applyTherm
  exact good_fallRounds (good_foldl hG fun _ _ h => good_if h (fun h => good_setTherm h))

theorem good_fallMw {q : List Instr} {y6 : State} {on : List Nat} {pOther : Nat} {target : Int} {cap : Nat} {y4 : Nat} {y5 : Nat} (hG : Good q y6) :
    Good q (fallMw on pOther target cap y4 y5 y6).2 := by
  induction y4 generalizing y6 y5 with
  | zero =>
    unfold fallMw
    exact hG
  | succ n ih =>
    unfold fallMw
    repeat' (first | with_reducible assumption | with_reducible refine ih ?_ | with_reducible refine good_upd_ ?_ | with_reducible refine good_if ?_ (fun _ => ?_) | with_reducible refine good_if_snd ?_ (fun _ => ?_) | dsimp only | split)

theorem good_noteNear {q : List Instr} {s : State} {p : Nat} {target : Int} (hG : Good q s) :
    Good q (noteNear p target s) := by
  unfold noteNear
  repeat' (first | with_reducible assumption | with_reducible refine good_ctl ?_ | with_reducible refine good_if ?_ (fun _ => ?_) | dsimp only | split)

theorem good_noteCauses {q : List Instr} {s : State} (hG : Good q s) :
    Good q (noteCauses s) := by
  unfold noteCauses
  repeat' (first | with_reducible assumption | with_reducible refine good_upd_ ?_ | with_reducible refine good_ctl ?_ | with_reducible refine good_setDevState ?_ | with_reducible refine good_if ?_ (fun _ => ?_) | dsimp only | split)

theorem good_noteWinter {q : List Instr} {s : State} (hG : Good q s) :
    Good q (noteWinter s) := by
  unfold noteWinter
  repeat' (first | with_reducible assumption | with_reducible refine good_ctl ?_ | with_reducible refine good_winterCause ?_ | with_reducible refine good_winterClear ?_ | with_reducible refine good_if ?_ (fun _ => ?_) | dsimp only | split)

theorem good_execControlSample {q : List Instr} {s : State} {x : PowerSample} (hG : Good q s) :
    ∃ w, execControlSample x s = .next w ∧ Good q w := by
  refine ⟨_, rfl, ?_⟩
  repeat' (first | with_reducible assumption | with_reducible refine good_powered ?_ (fun _ _ => ?_) | with_reducible refine good_notePower ?_ | with_reducible refine good_noteReadings ?_ | with_reducible refine good_noteActivity ?_ | with_reducible refine good_updateLIlim ?_ | with_reducible refine good_updateLField ?_ | with_reducible refine good_applyTherm ?_ | with_reducible refine good_fallMw ?_ | with_reducible refine good_upd_ ?_ | with_reducible refine good_ctl ?_ | with_reducible refine good_satAdd ?_ | with_reducible refine good_chooseTs ?_ | with_reducible refine good_noteWinter ?_ | with_reducible refine good_noteCauses ?_ | with_reducible refine good_noteNear ?_ | with_reducible refine good_noteWindows ?_ | with_reducible refine good_if ?_ (fun _ => ?_) | with_reducible refine good_foldl ?_ (fun _ _ _ => ?_) | with_reducible refine good_foldl_snd ?_ (fun _ _ _ => ?_) | with_reducible refine good_foldl_fst ?_ (fun _ _ _ => ?_) | with_reducible refine good_if_snd ?_ (fun _ => ?_) | with_reducible refine good_if_fst ?_ (fun _ => ?_) | dsimp only | split)

theorem good_execAutumnExit {q : List Instr} {s : State} (hG : Good q s) :
    ∃ w, execAutumnExit s = .next w ∧ Good q w := by
  refine ⟨_, rfl, ?_⟩
  repeat' (first | with_reducible assumption | with_reducible refine good_powered ?_ (fun _ _ => ?_) | with_reducible refine good_setDevState ?_ | with_reducible refine good_if ?_ (fun _ => ?_) | dsimp only | split)

theorem good_execFrameStart {q : List Instr} {s : State} {g : ClusterId} (hG : Good q s) :
    ∃ w, execFrameStart g s = .next w ∧ Good q w := by
  refine ⟨_, rfl, ?_⟩
  repeat' (first | with_reducible assumption | with_reducible refine good_powered ?_ (fun _ _ => ?_) | with_reducible refine good_updTile ?_ | with_reducible refine good_upd_ ?_ | with_reducible refine good_ctl ?_ | with_reducible refine good_satAdd ?_ | with_reducible refine good_if ?_ (fun _ => ?_) | with_reducible refine good_foldl ?_ (fun _ _ _ => ?_) | with_reducible refine good_foldl_snd ?_ (fun _ _ _ => ?_) | with_reducible refine good_foldl_fst ?_ (fun _ _ _ => ?_) | with_reducible refine good_if_snd ?_ (fun _ => ?_) | with_reducible refine good_if_fst ?_ (fun _ => ?_) | dsimp only | split)

theorem good_execThermalUpdate {q : List Instr} {s : State} (hG : Good q s) :
    ∃ w, execThermalUpdate s = .next w ∧ Good q w := by
  refine ⟨_, rfl, ?_⟩
  repeat' (first | with_reducible assumption | with_reducible refine good_powered ?_ (fun _ _ => ?_) | with_reducible refine good_upd_ ?_ | with_reducible refine good_if ?_ (fun _ => ?_) | with_reducible refine good_foldl ?_ (fun _ _ _ => ?_) | with_reducible refine good_foldl_snd ?_ (fun _ _ _ => ?_) | with_reducible refine good_foldl_fst ?_ (fun _ _ _ => ?_) | with_reducible refine good_if_snd ?_ (fun _ => ?_) | with_reducible refine good_if_fst ?_ (fun _ => ?_) | dsimp only | split)

theorem good_heatSites {q : List Instr} {s : State} {g : Nat} {third : Bool} (hG : Good q s) :
    Good q (heatSites g third s) := by
  unfold heatSites
  repeat' (first | with_reducible assumption | with_reducible refine good_if ?_ (fun _ => ?_) | with_reducible refine good_foldl ?_ (fun _ _ _ => ?_) | with_reducible refine good_foldl_snd ?_ (fun _ _ _ => ?_) | with_reducible refine good_foldl_fst ?_ (fun _ _ _ => ?_) | with_reducible refine good_if_snd ?_ (fun _ => ?_) | with_reducible refine good_if_fst ?_ (fun _ => ?_) | dsimp only | split | with_reducible refine good_upd ?_ rfl rfl rfl)

theorem good_thermalOff {q : List Instr} {s : State} {g : Nat} (hG : Good q s) :
    Good q (thermalOff g s) := by
  unfold thermalOff
  repeat' (first | with_reducible assumption | with_reducible refine good_ctl ?_ | with_reducible refine good_upd_ ?_ | with_reducible refine good_logCoded ?_ | with_reducible refine good_exemptFall ?_ | with_reducible refine good_heatSites ?_ | with_reducible refine good_sitesLost ?_ | with_reducible refine good_batchFailCluster ?_ | with_reducible refine good_remapRequest ?_ | with_reducible refine good_if ?_ (fun _ => ?_) | dsimp only | split | with_reducible refine good_upd ?_ rfl rfl rfl)

theorem good_noteCycle {q : List Instr} {s : State} (hG : Good q s) :
    Good q (noteCycle s) := by
  unfold noteCycle
  repeat' (first | with_reducible assumption | with_reducible refine good_lifeMax ?_ | with_reducible refine good_ctl ?_ | with_reducible refine good_lifeCount ?_ | with_reducible refine good_if ?_ (fun _ => ?_) | dsimp only | split)

theorem good_execTempSample {q : List Instr} {s : State} {sensor : TempSensor} {tenths : Int} (hG : Good q s) :
    ∃ w, execTempSample sensor tenths s = .next w ∧ Good q w := by
  refine ⟨_, rfl, ?_⟩
  repeat' (first | with_reducible assumption | with_reducible refine good_powered ?_ (fun _ _ => ?_) | with_reducible refine good_ctl ?_ | with_reducible refine good_upd_ ?_ | with_reducible refine good_noteCycle ?_ | with_reducible refine good_thermalOff ?_ | with_reducible refine good_if ?_ (fun _ => ?_) | dsimp only | split)

theorem good_execCoolingReturn {q : List Instr} {s : State} {g : ClusterId} (hG : Good q s) :
    ∃ w, execCoolingReturn g s = .next w ∧ Good q w := by
  refine ⟨_, rfl, ?_⟩
  repeat' (first | with_reducible assumption | with_reducible refine good_powered ?_ (fun _ _ => ?_) | with_reducible refine good_upd_ ?_ | with_reducible refine good_if ?_ (fun _ => ?_) | with_reducible refine good_foldl ?_ (fun _ _ _ => ?_) | with_reducible refine good_foldl_snd ?_ (fun _ _ _ => ?_) | with_reducible refine good_foldl_fst ?_ (fun _ _ _ => ?_) | with_reducible refine good_if_snd ?_ (fun _ => ?_) | with_reducible refine good_if_fst ?_ (fun _ => ?_) | dsimp only | split | with_reducible refine good_upd ?_ rfl rfl rfl)

theorem good_latchTrip {q : List Instr} {s : State} {sensor : TempSensor} {tenths : Int} (hG : Good q s) :
    Good q (latchTrip sensor tenths s) := by
  unfold latchTrip
  repeat' (first | with_reducible assumption | with_reducible refine good_if ?_ (fun _ => ?_) | dsimp only | split | with_reducible refine good_upd ?_ rfl rfl rfl)

theorem good_execDieTrip {q : List Instr} {s : State} {sensor : TempSensor} {before : Int} {tenths : Int} (hG : Good q s) :
    ∃ w, execDieTrip sensor before tenths s = .next w ∧ Good q w := by
  refine ⟨_, rfl, ?_⟩
  repeat' (first | with_reducible assumption | with_reducible refine good_latchTrip ?_ | with_reducible refine good_powerOff ?_ | with_reducible refine good_if ?_ (fun _ => ?_) | dsimp only | split)

theorem good_execCoolantSample {q : List Instr} {s : State} {tin : Int} {tout : Int} (hG : Good q s) :
    ∃ w, execCoolantSample tin tout s = .next w ∧ Good q w := by
  refine ⟨_, rfl, ?_⟩
  repeat' (first | with_reducible assumption | with_reducible refine good_powered ?_ (fun _ _ => ?_) | with_reducible refine good_ctl ?_ | with_reducible refine good_upd_ ?_ | with_reducible refine good_lifeMax ?_ | with_reducible refine good_logOpen ?_ | with_reducible refine good_winterCause ?_ | with_reducible refine good_winterClear ?_ | with_reducible refine good_take ?_ | with_reducible refine good_if ?_ (fun _ => ?_) | dsimp only | split)

theorem good_setWinterReq {q : List Instr} {s : State} {v : Bool} (hG : Good q s) :
    Good q (setWinterReq v s) := by
  unfold setWinterReq
  repeat' (first | with_reducible assumption | with_reducible refine good_upd_ ?_ | with_reducible refine good_winterCause ?_ | with_reducible refine good_winterClear ?_ | with_reducible refine good_if ?_ (fun _ => ?_) | dsimp only | split)

theorem good_execWinterRequest {q : List Instr} {s : State} {m : Master} {v : Bool} (hG : Good q s) :
    ∃ w, execWinterRequest m v s = .next w ∧ Good q w := by
  refine ⟨_, rfl, ?_⟩
  repeat' (first | with_reducible assumption | with_reducible refine good_powered ?_ (fun _ _ => ?_) | with_reducible refine good_asOwner ?_ (fun _ _ => ?_) | with_reducible refine good_setWinterReq ?_ | with_reducible refine good_if ?_ (fun _ => ?_) | dsimp only | split)

theorem good_execWinterEnter {q : List Instr} {s : State} (hG : Good q s) :
    ∃ w, execWinterEnter s = .next w ∧ Good q w := by
  refine ⟨_, rfl, ?_⟩
  repeat' (first | with_reducible assumption | with_reducible refine good_powered ?_ (fun _ _ => ?_) | with_reducible refine good_ctl ?_ | with_reducible refine good_quiesced ?_ | with_reducible refine good_setDevState ?_ | with_reducible refine good_computeReset ?_ | with_reducible refine good_winterCause ?_ | with_reducible refine good_if ?_ (fun _ => ?_) | dsimp only | split)

theorem good_execWinterExit {q : List Instr} {s : State} {failed : List Nat} (hG : Good q s) :
    ∃ w, execWinterExit failed s = .next w ∧ Good q w := by
  refine ⟨_, rfl, ?_⟩
  repeat' (first | with_reducible assumption | with_reducible refine good_powered ?_ (fun _ _ => ?_) | with_reducible refine good_requestAdmission ?_ | with_reducible refine good_ctl ?_ | with_reducible refine good_reloadSeason ?_ | with_reducible refine good_katAll ?_ | with_reducible refine good_setDevState ?_ | with_reducible refine good_winterClear ?_ | with_reducible refine good_winterCause ?_ | with_reducible refine good_if ?_ (fun _ => ?_) | with_reducible refine good_foldl ?_ (fun _ _ _ => ?_) | with_reducible refine good_foldl_snd ?_ (fun _ _ _ => ?_) | with_reducible refine good_foldl_fst ?_ (fun _ _ _ => ?_) | with_reducible refine good_if_snd ?_ (fun _ => ?_) | with_reducible refine good_if_fst ?_ (fun _ => ?_) | dsimp only | split)

end Sys2Proof.Machine
end

