-- ==== Sys2Proof/Laws/GoodBatchOps.lean ====
section
/-! SUPPORT. Every operation of Machine/BatchOps.lean keeps a sound state sound. -/

namespace Sys2Proof.Machine

open Sys2Proof

theorem good_writeStream {q : List Instr} {s : State} {base : Nat} {m : Nat} {k : Nat} {r : Request} (hG : Good q s) :
    Good q (writeStream base m k r s) := by
  unfold writeStream
  repeat' (first | with_reducible assumption | with_reducible refine good_hbmStore ?_ | with_reducible refine good_if ?_ (fun _ => ?_) | with_reducible refine good_foldl ?_ (fun _ _ _ => ?_) | with_reducible refine good_foldl_snd ?_ (fun _ _ _ => ?_) | with_reducible refine good_foldl_fst ?_ (fun _ _ _ => ?_) | with_reducible refine good_if_snd ?_ (fun _ => ?_) | with_reducible refine good_if_fst ?_ (fun _ => ?_) | dsimp only | split)

theorem good_loadPart {q : List Instr} {s : State} {r : Request} {m : Nat} {k : Nat} {t : Nat} (hG : Good q s) :
    Good q (loadPart r m k t s).2 := by
  unfold loadPart
  repeat' (first | with_reducible assumption | with_reducible refine good_hbmTouch ?_ | with_reducible refine good_updTile ?_ | with_reducible refine good_if ?_ (fun _ => ?_) | with_reducible refine good_if_snd ?_ (fun _ => ?_) | dsimp only | split)

theorem good_loadInput {q : List Instr} {s : State} {r : Request} {m : Nat} {k : Nat} (hG : Good q s) :
    Good q (loadInput r m k s).2 := by
  unfold loadInput
  repeat' (first | with_reducible assumption | with_reducible refine good_loadPart ?_ | with_reducible refine good_if ?_ (fun _ => ?_) | with_reducible refine good_foldl ?_ (fun _ _ _ => ?_) | with_reducible refine good_foldl_snd ?_ (fun _ _ _ => ?_) | with_reducible refine good_foldl_fst ?_ (fun _ _ _ => ?_) | with_reducible refine good_if_snd ?_ (fun _ => ?_) | with_reducible refine good_if_fst ?_ (fun _ => ?_) | dsimp only | split)

theorem good_loadInputs {q : List Instr} {s : State} {b : Batch} (hG : Good q s) :
    Good q (loadInputs b s) := by
  unfold loadInputs
  repeat' (first | with_reducible assumption | with_reducible refine good_loadInput ?_ | with_reducible refine good_batchDrop ?_ | with_reducible refine good_chunkFail ?_ | with_reducible refine good_if ?_ (fun _ => ?_) | with_reducible refine good_foldl ?_ (fun _ _ _ => ?_) | with_reducible refine good_foldl_snd ?_ (fun _ _ _ => ?_) | with_reducible refine good_foldl_fst ?_ (fun _ _ _ => ?_) | with_reducible refine good_if_snd ?_ (fun _ => ?_) | with_reducible refine good_if_fst ?_ (fun _ => ?_) | dsimp only | split | with_reducible refine good_upd ?_ rfl rfl rfl)

theorem good_prefetchInputs {q : List Instr} {s : State} {m : Nat} {ids : List Nat} (hG : Good q s) :
    Good q (prefetchInputs m ids s) := by
  unfold prefetchInputs
  repeat' (first | with_reducible assumption | with_reducible refine good_loadInput ?_ | with_reducible refine good_if ?_ (fun _ => ?_) | with_reducible refine good_foldl ?_ (fun _ _ _ => ?_) | with_reducible refine good_foldl_snd ?_ (fun _ _ _ => ?_) | with_reducible refine good_foldl_fst ?_ (fun _ _ _ => ?_) | with_reducible refine good_if_snd ?_ (fun _ => ?_) | with_reducible refine good_if_fst ?_ (fun _ => ?_) | dsimp only | split | with_reducible refine good_upd ?_ rfl rfl rfl)

theorem good_writePart {q : List Instr} {s : State} {r : Request} {m : Nat} {k : Nat} {t : Nat} (hG : Good q s) :
    Good q (writePart r m k t s) := by
  unfold writePart
  repeat' (first | with_reducible assumption | with_reducible refine good_readRange ?_ | with_reducible refine good_batchDrop ?_ | with_reducible refine good_chunkFail ?_ | with_reducible refine good_hbmStore ?_ | with_reducible refine good_if ?_ (fun _ => ?_) | dsimp only | split)

theorem good_writeOutputs {q : List Instr} {s : State} {b : Batch} (hG : Good q s) :
    Good q (writeOutputs b s) := by
  unfold writeOutputs
  repeat' (first | with_reducible assumption | with_reducible refine good_writePart ?_ | with_reducible refine good_if ?_ (fun _ => ?_) | with_reducible refine good_foldl ?_ (fun _ _ _ => ?_) | with_reducible refine good_foldl_snd ?_ (fun _ _ _ => ?_) | with_reducible refine good_foldl_fst ?_ (fun _ _ _ => ?_) | with_reducible refine good_if_snd ?_ (fun _ => ?_) | with_reducible refine good_if_fst ?_ (fun _ => ?_) | dsimp only | split)

theorem good_finishChunk {q : List Instr} {s : State} {b : Batch} {e : Request × Nat} (hG : Good q s) :
    Good q (finishChunk b s e) := by
  unfold finishChunk
  repeat' (first | with_reducible assumption | with_reducible refine good_chunkFail ?_ | with_reducible refine good_chunkDone ?_ | with_reducible refine good_writeStream ?_ | with_reducible refine good_if ?_ (fun _ => ?_) | dsimp only | split)

theorem good_finishBatch {q : List Instr} {s : State} (hG : Good q s) :
    Good q (finishBatch s) := by
  unfold finishBatch
  repeat' (first | with_reducible assumption | with_reducible refine good_finishChunk ?_ | with_reducible refine good_if ?_ (fun _ => ?_) | with_reducible refine good_foldl ?_ (fun _ _ _ => ?_) | with_reducible refine good_foldl_snd ?_ (fun _ _ _ => ?_) | with_reducible refine good_foldl_fst ?_ (fun _ _ _ => ?_) | with_reducible refine good_if_snd ?_ (fun _ => ?_) | with_reducible refine good_if_fst ?_ (fun _ => ?_) | dsimp only | split | with_reducible refine good_upd ?_ rfl rfl rfl)

end Sys2Proof.Machine
end

