-- ==== Sys2Proof/Laws/GoodTileCtl.lean ====
section
/-! SUPPORT. Every operation of Machine/TileCtl.lean keeps a sound state sound. -/

namespace Sys2Proof.Machine

open Sys2Proof

theorem good_asFirmware {q : List Instr} {s : State} {m : Master} {off : Nat} {width : Nat} {f : State → State} (hG : Good q s) (hf : ∀ x0, Good q x0 → Good q (f x0)) :
    Good q (asFirmware m off width f s) := by
  unfold asFirmware
  repeat' (first | with_reducible assumption | with_reducible refine good_denied ?_ | with_reducible refine hf _ ?_ | with_reducible refine good_if ?_ (fun _ => ?_) | dsimp only | split)

theorem good_startRun {q : List Instr} {s : State} {t : Nat} (hG : Good q s) :
    Good q (startRun t s) := by
  unfold startRun
  repeat' (first | with_reducible assumption | with_reducible refine good_setTileSt ?_ | with_reducible refine good_haltReq ?_ | with_reducible refine good_if ?_ (fun _ => ?_) | dsimp only | split)

theorem good_startTest {q : List Instr} {s : State} {t : Nat} (hG : Good q s) :
    Good q (startTest t s) := by
  unfold startTest
  repeat' (first | with_reducible assumption | with_reducible refine good_setTileSt ?_ | with_reducible refine good_if ?_ (fun _ => ?_) | dsimp only | split)

theorem good_endTest {q : List Instr} {s : State} {t : Nat} (hG : Good q s) :
    Good q (endTest t s) := by
  unfold endTest
  repeat' (first | with_reducible assumption | with_reducible refine good_setTileSt ?_ | with_reducible refine good_haltReq ?_ | with_reducible refine good_if ?_ (fun _ => ?_) | dsimp only | split)

theorem good_writeRunEn {q : List Instr} {s : State} {t : Nat} {v : Bool} (hG : Good q s) :
    Good q (writeRunEn t v s) := by
  unfold writeRunEn
  repeat' (first | with_reducible assumption | with_reducible refine good_upd_ ?_ | with_reducible refine good_startRun ?_ | with_reducible refine good_if ?_ (fun _ => ?_) | dsimp only | split)

theorem good_writeHaltReq {q : List Instr} {s : State} {t : Nat} {v : Bool} (hG : Good q s) :
    Good q (writeHaltReq t v s) := by
  unfold writeHaltReq
  repeat' (first | with_reducible assumption | with_reducible refine good_haltReq ?_ | with_reducible refine good_upd_ ?_ | with_reducible refine good_if ?_ (fun _ => ?_) | dsimp only | split)

theorem good_writeTestWin {q : List Instr} {s : State} {t : Nat} {v : Bool} (hG : Good q s) :
    Good q (writeTestWin t v s) := by
  unfold writeTestWin
  repeat' (first | with_reducible assumption | with_reducible refine good_upd_ ?_ | with_reducible refine good_startTest ?_ | with_reducible refine good_endTest ?_ | with_reducible refine good_if ?_ (fun _ => ?_) | dsimp only | split)

theorem good_writeFreeze {q : List Instr} {s : State} {t : Nat} {v : Bool} (hG : Good q s) :
    Good q (writeFreeze t v s) := by
  unfold writeFreeze
  repeat' (first | with_reducible assumption | with_reducible refine good_upd_ ?_ | with_reducible refine good_if ?_ (fun _ => ?_) | dsimp only | split)

theorem good_clearCounters {q : List Instr} {s : State} {t : Nat} (hG : Good q s) :
    Good q (clearCounters t s) := by
  unfold clearCounters
  repeat' (first | with_reducible assumption | with_reducible refine good_upd_ ?_ | with_reducible refine good_put ?_ _ _ | with_reducible refine good_if ?_ (fun _ => ?_) | with_reducible refine good_foldl ?_ (fun _ _ _ => ?_) | with_reducible refine good_foldl_snd ?_ (fun _ _ _ => ?_) | with_reducible refine good_foldl_fst ?_ (fun _ _ _ => ?_) | with_reducible refine good_if_snd ?_ (fun _ => ?_) | with_reducible refine good_if_fst ?_ (fun _ => ?_) | dsimp only | split | with_reducible refine good_drop ?_ rfl rfl rfl | with_reducible refine good_upd ?_ rfl rfl rfl)

theorem good_tilCtrlWrite {q : List Instr} {s : State} {t : Nat} {v : Nat} (hG : Good q s) :
    Good q (tilCtrlWrite t v s) := by
  unfold tilCtrlWrite
  repeat' (first | with_reducible assumption | with_reducible refine good_writeHaltReq ?_ | with_reducible refine good_writeFreeze ?_ | with_reducible refine good_writeTestWin ?_ | with_reducible refine good_writeRunEn ?_ | with_reducible refine good_clearCounters ?_ | with_reducible refine good_if ?_ (fun _ => ?_) | dsimp only | split)

theorem good_execTilRunEn {q : List Instr} {s : State} {m : Master} {t : TileId} {v : Bool} (hG : Good q s) :
    ∃ w, execTilRunEn m t v s = .next w ∧ Good q w := by
  refine ⟨_, rfl, ?_⟩
  repeat' (first | with_reducible assumption | with_reducible refine good_powered ?_ (fun _ _ => ?_) | with_reducible refine good_asFirmware ?_ (fun _ _ => ?_) | with_reducible refine good_writeRunEn ?_ | with_reducible refine good_if ?_ (fun _ => ?_) | dsimp only | split)

theorem good_execTilHaltReq {q : List Instr} {s : State} {m : Master} {t : TileId} {v : Bool} (hG : Good q s) :
    ∃ w, execTilHaltReq m t v s = .next w ∧ Good q w := by
  refine ⟨_, rfl, ?_⟩
  repeat' (first | with_reducible assumption | with_reducible refine good_powered ?_ (fun _ _ => ?_) | with_reducible refine good_asFirmware ?_ (fun _ _ => ?_) | with_reducible refine good_writeHaltReq ?_ | with_reducible refine good_if ?_ (fun _ => ?_) | dsimp only | split)

theorem good_execTilTestWin {q : List Instr} {s : State} {m : Master} {t : TileId} {v : Bool} (hG : Good q s) :
    ∃ w, execTilTestWin m t v s = .next w ∧ Good q w := by
  refine ⟨_, rfl, ?_⟩
  repeat' (first | with_reducible assumption | with_reducible refine good_powered ?_ (fun _ _ => ?_) | with_reducible refine good_asFirmware ?_ (fun _ _ => ?_) | with_reducible refine good_writeTestWin ?_ | with_reducible refine good_if ?_ (fun _ => ?_) | dsimp only | split)

theorem good_execTilCntFreeze {q : List Instr} {s : State} {m : Master} {t : TileId} {v : Bool} (hG : Good q s) :
    ∃ w, execTilCntFreeze m t v s = .next w ∧ Good q w := by
  refine ⟨_, rfl, ?_⟩
  repeat' (first | with_reducible assumption | with_reducible refine good_powered ?_ (fun _ _ => ?_) | with_reducible refine good_asFirmware ?_ (fun _ _ => ?_) | with_reducible refine good_writeFreeze ?_ | with_reducible refine good_if ?_ (fun _ => ?_) | dsimp only | split)

theorem good_execTilCntClear {q : List Instr} {s : State} {m : Master} {t : TileId} (hG : Good q s) :
    ∃ w, execTilCntClear m t s = .next w ∧ Good q w := by
  refine ⟨_, rfl, ?_⟩
  repeat' (first | with_reducible assumption | with_reducible refine good_powered ?_ (fun _ _ => ?_) | with_reducible refine good_asFirmware ?_ (fun _ _ => ?_) | with_reducible refine good_clearCounters ?_ | with_reducible refine good_if ?_ (fun _ => ?_) | dsimp only | split)

theorem good_execTileDrainDone {q : List Instr} {s : State} {t : TileId} (hG : Good q s) :
    ∃ w, execTileDrainDone t s = .next w ∧ Good q w := by
  refine ⟨_, rfl, ?_⟩
  repeat' (first | with_reducible assumption | with_reducible refine good_powered ?_ (fun _ _ => ?_) | with_reducible refine good_setTileSt ?_ | with_reducible refine good_if ?_ (fun _ => ?_) | dsimp only | split)

theorem good_execTilFaultClear {q : List Instr} {s : State} {m : Master} {t : TileId} (hG : Good q s) :
    ∃ w, execTilFaultClear m t s = .next w ∧ Good q w := by
  refine ⟨_, rfl, ?_⟩
  repeat' (first | with_reducible assumption | with_reducible refine good_powered ?_ (fun _ _ => ?_) | with_reducible refine good_asFirmware ?_ (fun _ _ => ?_) | with_reducible refine good_put ?_ _ _ | with_reducible refine good_if ?_ (fun _ => ?_) | dsimp only | split)

theorem good_execTilDfFaultClear {q : List Instr} {s : State} {m : Master} {t : TileId} (hG : Good q s) :
    ∃ w, execTilDfFaultClear m t s = .next w ∧ Good q w := by
  refine ⟨_, rfl, ?_⟩
  repeat' (first | with_reducible assumption | with_reducible refine good_powered ?_ (fun _ _ => ?_) | with_reducible refine good_asFirmware ?_ (fun _ _ => ?_) | with_reducible refine good_put ?_ _ _ | with_reducible refine good_if ?_ (fun _ => ?_) | dsimp only | split)

theorem good_execTileReset {q : List Instr} {s : State} {t : TileId} (hG : Good q s) :
    ∃ w, execTileReset t s = .next w ∧ Good q w := by
  refine ⟨_, rfl, ?_⟩
  repeat' (first | with_reducible assumption | with_reducible refine good_powered ?_ (fun _ _ => ?_) | with_reducible refine good_tileReset ?_ | with_reducible refine good_writeTestWin ?_ | with_reducible refine good_if ?_ (fun _ => ?_) | dsimp only | split)

end Sys2Proof.Machine
end

