-- ==== Sys2Proof/Laws/GoodIntegCmd.lean ====
section
/-! SUPPORT. Every operation of Machine/IntegCmd.lean keeps a sound state sound. -/

namespace Sys2Proof.Machine

open Sys2Proof

theorem good_openTestWindow {q : List Instr} {s : State} {ts : List Nat} (hG : Good q s) :
    Good q (openTestWindow ts s) := by
  unfold openTestWindow
  repeat' (first | with_reducible assumption | with_reducible refine good_itg ?_ | with_reducible refine good_writeTestWin ?_ | with_reducible refine good_if ?_ (fun _ => ?_) | with_reducible refine good_foldl ?_ (fun _ _ _ => ?_) | with_reducible refine good_foldl_snd ?_ (fun _ _ _ => ?_) | with_reducible refine good_foldl_fst ?_ (fun _ _ _ => ?_) | with_reducible refine good_if_snd ?_ (fun _ => ?_) | with_reducible refine good_if_fst ?_ (fun _ => ?_) | dsimp only | split | with_reducible refine good_upd ?_ rfl rfl rfl)

theorem good_execKatRun {q : List Instr} {s : State} {t : TileId} {differs : Bool} (hG : Good q s) :
    ∃ w, execKatRun t differs s = .next w ∧ Good q w := by
  refine ⟨_, rfl, ?_⟩
  repeat' (first | with_reducible assumption | with_reducible refine good_powered ?_ (fun _ _ => ?_) | with_reducible refine good_intCount ?_ | with_reducible refine good_microRetired ?_ | with_reducible refine good_itg ?_ | with_reducible refine good_integrityFault ?_ | with_reducible refine good_resetSince ?_ | with_reducible refine good_if ?_ (fun _ => ?_) | dsimp only | split)

theorem good_setSuspects {q : List Instr} {s : State} {l : List (Nat × Nat × Nat)} (hG : Good q s) :
    Good q (setSuspects l s) := by
  unfold setSuspects
  repeat' (first | with_reducible assumption | with_reducible refine good_upd_ ?_ | with_reducible refine good_itg ?_ | with_reducible refine good_if ?_ (fun _ => ?_) | with_reducible refine good_foldl ?_ (fun _ _ _ => ?_) | with_reducible refine good_foldl_snd ?_ (fun _ _ _ => ?_) | with_reducible refine good_foldl_fst ?_ (fun _ _ _ => ?_) | with_reducible refine good_if_snd ?_ (fun _ => ?_) | with_reducible refine good_if_fst ?_ (fun _ => ?_) | dsimp only | split)

theorem good_endAttribution {q : List Instr} {s : State} (hG : Good q s) :
    Good q (endAttribution s) := by
  unfold endAttribution
  repeat' (first | with_reducible assumption | with_reducible refine good_itg ?_ | with_reducible refine good_logInteg ?_ | with_reducible refine good_checkRemap ?_ | with_reducible refine good_setSuspects ?_ | with_reducible refine good_if ?_ (fun _ => ?_) | dsimp only | split)

theorem good_closeTestWindow {q : List Instr} {s : State} (hG : Good q s) :
    Good q (closeTestWindow s) := by
  unfold closeTestWindow
  repeat' (first | with_reducible assumption | with_reducible refine good_writeTestWin ?_ | with_reducible refine good_endAttribution ?_ | with_reducible refine good_resetSince ?_ | with_reducible refine good_itg ?_ | with_reducible refine good_integrityFault ?_ | with_reducible refine good_if ?_ (fun _ => ?_) | with_reducible refine good_foldl ?_ (fun _ _ _ => ?_) | with_reducible refine good_foldl_snd ?_ (fun _ _ _ => ?_) | with_reducible refine good_foldl_fst ?_ (fun _ _ _ => ?_) | with_reducible refine good_if_snd ?_ (fun _ => ?_) | with_reducible refine good_if_fst ?_ (fun _ => ?_) | dsimp only | split | with_reducible refine good_upd ?_ rfl rfl rfl)

theorem good_execTestWindowClose {q : List Instr} {s : State} {elapsedNs : Nat} (hG : Good q s) :
    ∃ w, execTestWindowClose elapsedNs s = .next w ∧ Good q w := by
  refine ⟨_, rfl, ?_⟩
  repeat' (first | with_reducible assumption | with_reducible refine good_powered ?_ (fun _ _ => ?_) | with_reducible refine good_closeTestWindow ?_ | with_reducible refine good_if ?_ (fun _ => ?_) | dsimp only | split)

theorem good_execDigest64 {q : List Instr} {s : State} {t : TileId} {shadow : Bool} (hG : Good q s) :
    ∃ w, execDigest64 t shadow s = .next w ∧ Good q w := by
  refine ⟨_, rfl, ?_⟩
  repeat' (first | with_reducible assumption | with_reducible refine good_powered ?_ (fun _ _ => ?_) | with_reducible refine good_microRetired ?_ | with_reducible refine good_itg ?_ | with_reducible refine good_if ?_ (fun _ => ?_) | dsimp only | split)

theorem good_digestsEqual {q : List Instr} {s : State} {t : Nat} {p : Nat} (hG : Good q s) :
    Good q (digestsEqual t p s) := by
  unfold digestsEqual
  repeat' (first | with_reducible assumption | with_reducible refine good_setSuspects ?_ | with_reducible refine good_if ?_ (fun _ => ?_) | dsimp only | split)

theorem good_digestsDiffer {q : List Instr} {s : State} {t : Nat} {p : Nat} (hG : Good q s) :
    Good q (digestsDiffer t p s) := by
  unfold digestsDiffer
  repeat' (first | with_reducible assumption | with_reducible refine good_integrityFaultAs ?_ | with_reducible refine good_itg ?_ | with_reducible refine good_endAttribution ?_ | with_reducible refine good_openTestWindow ?_ | with_reducible refine good_if ?_ (fun _ => ?_) | dsimp only | split)

theorem good_execDigestArrive {q : List Instr} {s : State} {t : TileId} (hG : Good q s) :
    ∃ w, execDigestArrive t s = .next w ∧ Good q w := by
  refine ⟨_, rfl, ?_⟩
  repeat' (first | with_reducible assumption | with_reducible refine good_powered ?_ (fun _ _ => ?_) | with_reducible refine good_itg ?_ | with_reducible refine good_intCount ?_ | with_reducible refine good_finishBatch ?_ | with_reducible refine good_digestsEqual ?_ | with_reducible refine good_digestsDiffer ?_ | with_reducible refine good_if ?_ (fun _ => ?_) | dsimp only | split)

theorem good_execDigestTimeout {q : List Instr} {s : State} {t : TileId} (hG : Good q s) :
    ∃ w, execDigestTimeout t s = .next w ∧ Good q w := by
  refine ⟨_, rfl, ?_⟩
  repeat' (first | with_reducible assumption | with_reducible refine good_powered ?_ (fun _ _ => ?_) | with_reducible refine good_logInteg ?_ | with_reducible refine good_intCount ?_ | with_reducible refine good_itg ?_ | with_reducible refine good_batchFail ?_ | with_reducible refine good_if ?_ (fun _ => ?_) | dsimp only | split)

theorem good_noteCompared {q : List Instr} {s : State} {base : Nat} {t : Nat} (hG : Good q s) :
    Good q (noteCompared base t s) := by
  unfold noteCompared
  repeat' (first | with_reducible assumption | with_reducible refine good_itg ?_ | with_reducible refine good_satAdd ?_ | with_reducible refine good_if ?_ (fun _ => ?_) | dsimp only | split)

theorem good_execWdigest {q : List Instr} {s : State} {t : TileId} {range : Nat} (hG : Good q s) :
    ∃ w, execWdigest t range s = .next w ∧ Good q w := by
  refine ⟨_, rfl, ?_⟩
  repeat' (first | with_reducible assumption | with_reducible refine good_powered ?_ (fun _ _ => ?_) | with_reducible refine good_readRange ?_ | with_reducible refine good_microRetired ?_ | with_reducible refine good_itg ?_ | with_reducible refine good_noteCompared ?_ | with_reducible refine good_integrityFaultAs ?_ | with_reducible refine good_if ?_ (fun _ => ?_) | dsimp only | split)

theorem good_countLate {q : List Instr} {s : State} {t : Nat} (hG : Good q s) :
    Good q (countLate t s) := by
  unfold countLate
  repeat' (first | with_reducible assumption | with_reducible refine good_logInteg ?_ | with_reducible refine good_intCount ?_ | with_reducible refine good_itg ?_ | with_reducible refine good_if ?_ (fun _ => ?_) | dsimp only | split)

theorem good_execWdigestRoundStart {q : List Instr} {s : State} (hG : Good q s) :
    ∃ w, execWdigestRoundStart s = .next w ∧ Good q w := by
  refine ⟨_, rfl, ?_⟩
  repeat' (first | with_reducible assumption | with_reducible refine good_powered ?_ (fun _ _ => ?_) | with_reducible refine good_countLate ?_ | with_reducible refine good_itg ?_ | with_reducible refine good_if ?_ (fun _ => ?_) | with_reducible refine good_foldl ?_ (fun _ _ _ => ?_) | with_reducible refine good_foldl_snd ?_ (fun _ _ _ => ?_) | with_reducible refine good_foldl_fst ?_ (fun _ _ _ => ?_) | with_reducible refine good_if_snd ?_ (fun _ => ?_) | with_reducible refine good_if_fst ?_ (fun _ => ?_) | dsimp only | split)

theorem good_execWdigLate {q : List Instr} {s : State} {t : TileId} (hG : Good q s) :
    ∃ w, execWdigLate t s = .next w ∧ Good q w := by
  refine ⟨_, rfl, ?_⟩
  repeat' (first | with_reducible assumption | with_reducible refine good_powered ?_ (fun _ _ => ?_) | with_reducible refine good_countLate ?_ | with_reducible refine good_if ?_ (fun _ => ?_) | dsimp only | split)

theorem good_execTileSramScrub {q : List Instr} {s : State} {t : TileId} {mem : TileMem} {word : Nat} {upset : List WordError} (hG : Good q s) :
    ∃ w, execTileSramScrub t mem word upset s = .next w ∧ Good q w := by
  refine ⟨_, rfl, ?_⟩
  repeat' (first | with_reducible assumption | with_reducible refine good_powered ?_ (fun _ _ => ?_) | with_reducible refine good_updTile ?_ | with_reducible refine good_correctWords ?_ | with_reducible refine good_intCount ?_ | with_reducible refine good_itg ?_ | with_reducible refine good_integrityFault ?_ | with_reducible refine good_logInteg ?_ | with_reducible refine good_if ?_ (fun _ => ?_) | with_reducible refine good_foldl ?_ (fun _ _ _ => ?_) | with_reducible refine good_foldl_snd ?_ (fun _ _ _ => ?_) | with_reducible refine good_foldl_fst ?_ (fun _ _ _ => ?_) | with_reducible refine good_if_snd ?_ (fun _ => ?_) | with_reducible refine good_if_fst ?_ (fun _ => ?_) | dsimp only | split)

end Sys2Proof.Machine
end

