-- ==== Sys2Proof/Laws/GoodLoadCheck.lean ====
section
/-! SUPPORT. Every operation of Machine/LoadCheck.lean keeps a sound state sound. -/

namespace Sys2Proof.Machine

open Sys2Proof

theorem good_stageChecks {q : List Instr} {s : State} {slot : Nat} {src : Nat} (hG : Good q s) :
    Good q (stageChecks slot src s).2 := by
  unfold stageChecks
  repeat' (first | with_reducible assumption | with_reducible refine good_hbmTouch ?_ | with_reducible refine good_hbmCopy ?_ | with_reducible refine good_if ?_ (fun _ => ?_) | with_reducible refine good_if_snd ?_ (fun _ => ?_) | dsimp only | split)

end Sys2Proof.Machine
end

