-- ==== Sys2Proof/Laws/GoodSched.lean ====
section
/-! SUPPORT. Every operation of Machine/Sched.lean keeps a sound state sound. -/

namespace Sys2Proof.Machine

open Sys2Proof

theorem good_addRequest {q : List Instr} {s : State} {r : Request} (hG : Good q s) :
    Good q (addRequest r s) := by
  unfold addRequest
  repeat' (first | with_reducible assumption | with_reducible refine good_if ?_ (fun _ => ?_) | dsimp only | split | with_reducible refine good_upd ?_ rfl rfl rfl)

theorem good_rejectRequest {q : List Instr} {s : State} {r : Request} {st : Nat} (hG : Good q s) :
    Good q (rejectRequest r st s) := by
  unfold rejectRequest
  repeat' (first | with_reducible assumption | with_reducible refine good_finishReq ?_ | with_reducible refine good_addRequest ?_ | with_reducible refine good_if ?_ (fun _ => ?_) | dsimp only | split)

theorem good_acceptRequest {q : List Instr} {s : State} {r : Request} (hG : Good q s) :
    Good q (acceptRequest r s) := by
  unfold acceptRequest
  repeat' (first | with_reducible assumption | with_reducible refine good_addR ?_ | with_reducible refine good_refreshReady ?_ | with_reducible refine good_fencesDue ?_ | with_reducible refine good_addRequest ?_ | with_reducible refine good_inFlight ?_ | with_reducible refine good_if ?_ (fun _ => ?_) | dsimp only | split)

theorem good_fetchOne {q : List Instr} {s : State} {h : Nat} {z1 : Nat} (hG : Good q s) :
    Good q (fetchOne h z1 s) := by
  unfold fetchOne
  repeat' (first | with_reducible assumption | with_reducible refine good_hbmTouch ?_ | with_reducible refine good_upd_ ?_ | with_reducible refine good_rejectRequest ?_ | with_reducible refine good_acceptRequest ?_ | with_reducible refine good_if ?_ (fun _ => ?_) | dsimp only | split)

theorem good_fetchUpTo {q : List Instr} {y3 : State} {h : Nat} {z1 : Nat} {y2 : Nat} (hG : Good q y3) :
    Good q (fetchUpTo h z1 y2 y3) := by
  induction y2 generalizing y3 with
  | zero =>
    unfold fetchUpTo
    exact hG
  | succ n ih =>
    unfold fetchUpTo
    repeat' (first | with_reducible assumption | with_reducible refine ih ?_ | with_reducible refine good_fetchOne ?_ | with_reducible refine good_if ?_ (fun _ => ?_) | dsimp only | split)

theorem good_fetchTurn {q : List Instr} {s : State} (hG : Good q s) :
    Good q (fetchTurn s) := by
  unfold fetchTurn
  repeat' (first | with_reducible assumption | with_reducible refine good_fetchUpTo ?_ | with_reducible refine good_if ?_ (fun _ => ?_) | dsimp only | split | with_reducible refine good_upd ?_ rfl rfl rfl)

theorem good_execDescriptorFetch {q : List Instr} {s : State} (hG : Good q s) :
    ∃ w, execDescriptorFetch s = .next w ∧ Good q w := by
  refine ⟨_, rfl, ?_⟩
  repeat' (first | with_reducible assumption | with_reducible refine good_powered ?_ (fun _ _ => ?_) | with_reducible refine good_fetchTurn ?_ | with_reducible refine good_if ?_ (fun _ => ?_) | dsimp only | split)

theorem good_execDeadlineExpire {q : List Instr} {s : State} {r : Nat} (hG : Good q s) :
    ∃ w, execDeadlineExpire r s = .next w ∧ Good q w := by
  refine ⟨_, rfl, ?_⟩
  repeat' (first | with_reducible assumption | with_reducible refine good_powered ?_ (fun _ _ => ?_) | with_reducible refine good_chunkFail ?_ | with_reducible refine good_if ?_ (fun _ => ?_) | dsimp only | split)

theorem good_execCompletionWrite {q : List Instr} {s : State} {r : Nat} (hG : Good q s) :
    ∃ w, execCompletionWrite r s = .next w ∧ Good q w := by
  refine ⟨_, rfl, ?_⟩
  repeat' (first | with_reducible assumption | with_reducible refine good_powered ?_ (fun _ _ => ?_) | with_reducible refine good_finishBatch ?_ | with_reducible refine good_produce ?_ | with_reducible refine good_if ?_ (fun _ => ?_) | dsimp only | split)

theorem good_slotCfgWrite {q : List Instr} {s : State} {m : Master} {off : Nat} {width : Nat} {v : Nat} (hG : Good q s) :
    Good q (slotCfgWrite m off width v s) := by
  unfold slotCfgWrite
  repeat' (first | with_reducible assumption | with_reducible refine good_refusedWrite ?_ | with_reducible refine good_put ?_ _ _ | with_reducible refine good_if ?_ (fun _ => ?_) | dsimp only | split)

theorem good_execSlotCfgWrite {q : List Instr} {s : State} {m : Master} {half : Half} {v : Nat} (hG : Good q s) :
    ∃ w, execSlotCfgWrite m half v s = .next w ∧ Good q w := by
  refine ⟨_, rfl, ?_⟩
  repeat' (first | with_reducible assumption | with_reducible refine good_powered ?_ (fun _ _ => ?_) | with_reducible refine good_asOwner ?_ (fun _ _ => ?_) | with_reducible refine good_slotCfgWrite ?_ | with_reducible refine good_if ?_ (fun _ => ?_) | dsimp only | split)

theorem good_withdraw {q : List Instr} {s : State} {i : Nat} (hG : Good q s) :
    Good q (withdraw i s) := by
  unfold withdraw
  repeat' (first | with_reducible assumption | with_reducible refine good_if ?_ (fun _ => ?_) | dsimp only | split | with_reducible refine good_upd ?_ rfl rfl rfl)

theorem good_setSlotImage {q : List Instr} {s : State} {i : Nat} {id : Nat} {detail : Nat} (hG : Good q s) :
    Good q (setSlotImage i id detail s) := by
  unfold setSlotImage
  repeat' (first | with_reducible assumption | with_reducible refine good_upd_ ?_ | with_reducible refine good_if ?_ (fun _ => ?_) | dsimp only | split)

theorem good_slotBusyResult {q : List Instr} {s : State} {i : Nat} (hG : Good q s) :
    Good q (slotBusyResult i s) := by
  unfold slotBusyResult
  repeat' (first | with_reducible assumption | with_reducible refine good_setSlotResult ?_ | with_reducible refine good_if ?_ (fun _ => ?_) | dsimp only | split)

theorem good_stage {q : List Instr} {s : State} {i : Nat} {src : Nat} (hG : Good q s) :
    Good q (stage i src s) := by
  unfold stage
  repeat' (first | with_reducible assumption | with_reducible refine good_setSlotState ?_ | with_reducible refine good_setSlotResult ?_ | with_reducible refine good_setSlotImage ?_ | with_reducible refine good_withdraw ?_ | with_reducible refine good_refreshReady ?_ | with_reducible refine good_slotBusyResult ?_ | with_reducible refine good_if ?_ (fun _ => ?_) | dsimp only | split | with_reducible refine good_upd ?_ rfl rfl rfl)

theorem good_remove {q : List Instr} {s : State} {i : Nat} (hG : Good q s) :
    Good q (remove i s) := by
  unfold remove
  repeat' (first | with_reducible assumption | with_reducible refine good_setSlotResult ?_ | with_reducible refine good_setSlotState ?_ | with_reducible refine good_setSlotImage ?_ | with_reducible refine good_withdraw ?_ | with_reducible refine good_slotBusyResult ?_ | with_reducible refine good_if ?_ (fun _ => ?_) | dsimp only | split)

theorem good_activate {q : List Instr} {s : State} {i : Nat} (hG : Good q s) :
    Good q (activate i s) := by
  unfold activate
  repeat' (first | with_reducible assumption | with_reducible refine good_setSlotResult ?_ | with_reducible refine good_slotBusyResult ?_ | with_reducible refine good_if ?_ (fun _ => ?_) | dsimp only | split | with_reducible refine good_upd ?_ rfl rfl rfl)

theorem good_runSeasonCmd {q : List Instr} {s : State} {c : SeasonCmd} (hG : Good q s) :
    Good q (runSeasonCmd c s) := by
  unfold runSeasonCmd
  repeat' (first | with_reducible assumption | with_reducible refine good_stage ?_ | with_reducible refine good_remove ?_ | with_reducible refine good_activate ?_ | with_reducible refine good_if ?_ (fun _ => ?_) | dsimp only | split)

theorem good_seasonCmdWrite {q : List Instr} {s : State} {m : Master} {v : Nat} (hG : Good q s) :
    Good q (seasonCmdWrite m v s) := by
  unfold seasonCmdWrite
  repeat' (first | with_reducible assumption | with_reducible refine good_refusedWrite ?_ | with_reducible refine good_put ?_ _ _ | with_reducible refine good_runSeasonCmd ?_ | with_reducible refine good_if ?_ (fun _ => ?_) | dsimp only | split | with_reducible refine good_upd ?_ rfl rfl rfl)

theorem good_execStage {q : List Instr} {s : State} {m : Master} {slot : SlotId} {src : Nat} (hG : Good q s) :
    ∃ w, execStage m slot src s = .next w ∧ Good q w := by
  refine ⟨_, rfl, ?_⟩
  repeat' (first | with_reducible assumption | with_reducible refine good_powered ?_ (fun _ _ => ?_) | with_reducible refine good_asOwner ?_ (fun _ _ => ?_) | with_reducible refine good_seasonCmdWrite ?_ | with_reducible refine good_if ?_ (fun _ => ?_) | dsimp only | split)

theorem good_execRemove {q : List Instr} {s : State} {m : Master} {slot : SlotId} {src : Nat} (hG : Good q s) :
    ∃ w, execRemove m slot src s = .next w ∧ Good q w := by
  refine ⟨_, rfl, ?_⟩
  repeat' (first | with_reducible assumption | with_reducible refine good_powered ?_ (fun _ _ => ?_) | with_reducible refine good_asOwner ?_ (fun _ _ => ?_) | with_reducible refine good_seasonCmdWrite ?_ | with_reducible refine good_if ?_ (fun _ => ?_) | dsimp only | split)

theorem good_execActivate {q : List Instr} {s : State} {m : Master} {slot : SlotId} {src : Nat} (hG : Good q s) :
    ∃ w, execActivate m slot src s = .next w ∧ Good q w := by
  refine ⟨_, rfl, ?_⟩
  repeat' (first | with_reducible assumption | with_reducible refine good_powered ?_ (fun _ _ => ?_) | with_reducible refine good_asOwner ?_ (fun _ _ => ?_) | with_reducible refine good_seasonCmdWrite ?_ | with_reducible refine good_if ?_ (fun _ => ?_) | dsimp only | split)

theorem good_execStageDone {q : List Instr} {s : State} {slot : SlotId} (hG : Good q s) :
    ∃ w, execStageDone slot s = .next w ∧ Good q w := by
  refine ⟨_, rfl, ?_⟩
  repeat' (first | with_reducible assumption | with_reducible refine good_powered ?_ (fun _ _ => ?_) | with_reducible refine good_stageChecks ?_ | with_reducible refine good_setSlotImage ?_ | with_reducible refine good_setSlotResult ?_ | with_reducible refine good_refreshReady ?_ | with_reducible refine good_setSlotState ?_ | with_reducible refine good_seasonLost ?_ | with_reducible refine good_if ?_ (fun _ => ?_) | dsimp only | split | with_reducible refine good_upd ?_ rfl rfl rfl)

theorem good_beginChange {q : List Instr} {s : State} {i : Nat} (hG : Good q s) :
    Good q (beginChange i s) := by
  unfold beginChange
  repeat' (first | with_reducible assumption | with_reducible refine good_abandonRound ?_ | with_reducible refine good_refuseGeometry ?_ | with_reducible refine good_if ?_ (fun _ => ?_) | dsimp only | split | with_reducible refine good_upd ?_ rfl rfl rfl)

theorem good_chooseNext {q : List Instr} {s : State} (hG : Good q s) :
    Good q (chooseNext s) := by
  unfold chooseNext
  repeat' (first | with_reducible assumption | with_reducible refine good_beginChange ?_ | with_reducible refine good_withdraw ?_ | with_reducible refine good_if ?_ (fun _ => ?_) | dsimp only | split | with_reducible refine good_upd ?_ rfl rfl rfl)

theorem good_overdueWindow {q : List Instr} {s : State} (hG : Good q s) :
    Good q (overdueWindow s) := by
  unfold overdueWindow
  repeat' (first | with_reducible assumption | with_reducible refine good_openTestWindow ?_ | with_reducible refine good_if ?_ (fun _ => ?_) | dsimp only | split)

theorem good_execSwitchPoint {q : List Instr} {s : State} (hG : Good q s) :
    ∃ w, execSwitchPoint s = .next w ∧ Good q w := by
  refine ⟨_, rfl, ?_⟩
  repeat' (first | with_reducible assumption | with_reducible refine good_powered ?_ (fun _ _ => ?_) | with_reducible refine good_finishBatch ?_ | with_reducible refine good_chooseNext ?_ | with_reducible refine good_overdueWindow ?_ | with_reducible refine good_if ?_ (fun _ => ?_) | dsimp only | split | with_reducible refine good_upd ?_ rfl rfl rfl)

theorem good_clearGraphs {q : List Instr} {s : State} (hG : Good q s) :
    Good q (clearGraphs s) := by
  unfold clearGraphs
  repeat' (first | with_reducible assumption | with_reducible refine good_updTile ?_ | with_reducible refine good_if ?_ (fun _ => ?_) | with_reducible refine good_foldl ?_ (fun _ _ _ => ?_) | with_reducible refine good_foldl_snd ?_ (fun _ _ _ => ?_) | with_reducible refine good_foldl_fst ?_ (fun _ _ _ => ?_) | with_reducible refine good_if_snd ?_ (fun _ => ?_) | with_reducible refine good_if_fst ?_ (fun _ => ?_) | dsimp only | split)

theorem good_invalidateTasks {q : List Instr} {s : State} {ts : List Nat} (hG : Good q s) :
    Good q (invalidateTasks ts s) := by
  unfold invalidateTasks
  repeat' (first | with_reducible assumption | with_reducible refine good_put128 ?_ | with_reducible refine good_if ?_ (fun _ => ?_) | with_reducible refine good_foldl ?_ (fun _ _ _ => ?_) | with_reducible refine good_foldl_snd ?_ (fun _ _ _ => ?_) | with_reducible refine good_foldl_fst ?_ (fun _ _ _ => ?_) | with_reducible refine good_if_snd ?_ (fun _ => ?_) | with_reducible refine good_if_fst ?_ (fun _ => ?_) | dsimp only | split)

theorem good_runDeferred {q : List Instr} {s : State} (hG : Good q s) :
    Good q (runDeferred s) := by
  unfold runDeferred
  repeat' (first | with_reducible assumption | with_reducible refine good_runSeasonCmd ?_ | with_reducible refine good_if ?_ (fun _ => ?_) | dsimp only | split | with_reducible refine good_upd ?_ rfl rfl rfl)

theorem good_execSeasonDrainDone {q : List Instr} {s : State} (hG : Good q s) :
    ∃ w, execSeasonDrainDone s = .next w ∧ Good q w := by
  refine ⟨_, rfl, ?_⟩
  repeat' (first | with_reducible assumption | with_reducible refine good_powered ?_ (fun _ _ => ?_) | with_reducible refine good_runDeferred ?_ | with_reducible refine good_refuseGeometry ?_ | with_reducible refine good_quiesced ?_ | with_reducible refine good_clearGraphs ?_ | with_reducible refine good_invalidateTasks ?_ | with_reducible refine good_closeWindows ?_ | with_reducible refine good_setSlotState ?_ | with_reducible refine good_refreshReady ?_ | with_reducible refine good_openTestWindow ?_ | with_reducible refine good_if ?_ (fun _ => ?_) | dsimp only | split | with_reducible refine good_upd ?_ rfl rfl rfl)

theorem good_execSeasonLoadDone {q : List Instr} {s : State} (hG : Good q s) :
    ∃ w, execSeasonLoadDone s = .next w ∧ Good q w := by
  refine ⟨_, rfl, ?_⟩
  repeat' (first | with_reducible assumption | with_reducible refine good_powered ?_ (fun _ _ => ?_) | with_reducible refine good_loadImage ?_ | with_reducible refine good_if ?_ (fun _ => ?_) | dsimp only | split | with_reducible refine good_upd ?_ rfl rfl rfl)

theorem good_execSeasonConfirmed {q : List Instr} {s : State} (hG : Good q s) :
    ∃ w, execSeasonConfirmed s = .next w ∧ Good q w := by
  refine ⟨_, rfl, ?_⟩
  repeat' (first | with_reducible assumption | with_reducible refine good_powered ?_ (fun _ _ => ?_) | with_reducible refine good_runDeferred ?_ | with_reducible refine good_refreshReady ?_ | with_reducible refine good_activateSlot ?_ | with_reducible refine good_if ?_ (fun _ => ?_) | dsimp only | split)

theorem good_applyMode {q : List Instr} {s : State} (hG : Good q s) :
    Good q (applyMode s) := by
  unfold applyMode
  repeat' (first | with_reducible assumption | with_reducible refine good_upd_ ?_ | with_reducible refine good_itg ?_ | with_reducible refine good_setSuspects ?_ | with_reducible refine good_markUnverified ?_ | with_reducible refine good_if ?_ (fun _ => ?_) | with_reducible refine good_foldl ?_ (fun _ _ _ => ?_) | with_reducible refine good_foldl_snd ?_ (fun _ _ _ => ?_) | with_reducible refine good_foldl_fst ?_ (fun _ _ _ => ?_) | with_reducible refine good_if_snd ?_ (fun _ => ?_) | with_reducible refine good_if_fst ?_ (fun _ => ?_) | dsimp only | split)

theorem good_expireModel {q : List Instr} {s : State} {m : Nat} (hG : Good q s) :
    Good q (expireModel m s) := by
  unfold expireModel
  repeat' (first | with_reducible assumption | with_reducible refine good_chunkFail ?_ | with_reducible refine good_if ?_ (fun _ => ?_) | with_reducible refine good_foldl ?_ (fun _ _ _ => ?_) | with_reducible refine good_foldl_snd ?_ (fun _ _ _ => ?_) | with_reducible refine good_foldl_fst ?_ (fun _ _ _ => ?_) | with_reducible refine good_if_snd ?_ (fun _ => ?_) | with_reducible refine good_if_fst ?_ (fun _ => ?_) | dsimp only | split)

theorem good_startBatch {q : List Instr} {s : State} {i : Nat} {m : Nat} (hG : Good q s) :
    Good q (startBatch i m s) := by
  unfold startBatch
  repeat' (first | with_reducible assumption | with_reducible refine good_mapReqs ?_ | with_reducible refine good_itg ?_ | with_reducible refine good_loadInputs ?_ | with_reducible refine good_if ?_ (fun _ => ?_) | dsimp only | split | with_reducible refine good_upd ?_ rfl rfl rfl)

theorem good_execBatchStart {q : List Instr} {s : State} (hG : Good q s) :
    ∃ w, execBatchStart s = .next w ∧ Good q w := by
  refine ⟨_, rfl, ?_⟩
  repeat' (first | with_reducible assumption | with_reducible refine good_powered ?_ (fun _ _ => ?_) | with_reducible refine good_startBatch ?_ | with_reducible refine good_applyMode ?_ | with_reducible refine good_expireModel ?_ | with_reducible refine good_if ?_ (fun _ => ?_) | dsimp only | split)

theorem good_loadFail {q : List Instr} {s : State} {id : Nat} {cause : Nat} (hG : Good q s) :
    Good q (loadFail id cause s) := by
  unfold loadFail
  repeat' (first | with_reducible assumption | with_reducible refine good_batchDrop ?_ | with_reducible refine good_chunkFail ?_ | with_reducible refine good_if ?_ (fun _ => ?_) | dsimp only | split)

theorem good_noteLoaded {q : List Instr} {s : State} {id : Nat} {t : Nat} {k : Nat} (hG : Good q s) :
    Good q (noteLoaded id t k s) := by
  unfold noteLoaded
  repeat' (first | with_reducible assumption | with_reducible refine good_if ?_ (fun _ => ?_) | dsimp only | split | with_reducible refine good_upd ?_ rfl rfl rfl)

theorem good_execStateLoad {q : List Instr} {s : State} {t : TileId} {chunk : Nat} (hG : Good q s) :
    ∃ w, execStateLoad t chunk s = .next w ∧ Good q w := by
  refine ⟨_, rfl, ?_⟩
  repeat' (first | with_reducible assumption | with_reducible refine good_powered ?_ (fun _ _ => ?_) | with_reducible refine good_microRetired ?_ | with_reducible refine good_updTile ?_ | with_reducible refine good_noteLoaded ?_ | with_reducible refine good_hbmTouch ?_ | with_reducible refine good_loadFail ?_ | with_reducible refine good_if ?_ (fun _ => ?_) | dsimp only | split)

theorem good_execStateStore {q : List Instr} {s : State} {t : TileId} {chunk : Nat} (hG : Good q s) :
    ∃ w, execStateStore t chunk s = .next w ∧ Good q w := by
  refine ⟨_, rfl, ?_⟩
  repeat' (first | with_reducible assumption | with_reducible refine good_powered ?_ (fun _ _ => ?_) | with_reducible refine good_readRange ?_ | with_reducible refine good_microRetired ?_ | with_reducible refine good_finishBatch ?_ | with_reducible refine good_if ?_ (fun _ => ?_) | dsimp only | split | with_reducible refine good_upd ?_ rfl rfl rfl)

theorem good_loadGraph {q : List Instr} {s : State} {graphs : Nat → LayerGraph} {t : Nat} {n : Nat} {real : Nat} (hG : Good q s) :
    Good q (loadGraph graphs t n real s) := by
  unfold loadGraph
  repeat' (first | with_reducible assumption | with_reducible refine good_updTile ?_ | with_reducible refine good_if ?_ (fun _ => ?_) | with_reducible refine good_foldl ?_ (fun _ _ _ => ?_) | with_reducible refine good_foldl_snd ?_ (fun _ _ _ => ?_) | with_reducible refine good_foldl_fst ?_ (fun _ _ _ => ?_) | with_reducible refine good_if_snd ?_ (fun _ => ?_) | with_reducible refine good_if_fst ?_ (fun _ => ?_) | dsimp only | split)

theorem good_selectSteps {q : List Instr} {s : State} {n : Nat} (hG : Good q s) :
    Good q (selectSteps n s) := by
  unfold selectSteps
  repeat' (first | with_reducible assumption | with_reducible refine good_itg ?_ | with_reducible refine good_selectStep ?_ | with_reducible refine good_updTile ?_ | with_reducible refine good_if ?_ (fun _ => ?_) | with_reducible refine good_foldl ?_ (fun _ _ _ => ?_) | with_reducible refine good_foldl_snd ?_ (fun _ _ _ => ?_) | with_reducible refine good_foldl_fst ?_ (fun _ _ _ => ?_) | with_reducible refine good_if_snd ?_ (fun _ => ?_) | with_reducible refine good_if_fst ?_ (fun _ => ?_) | dsimp only | split)

theorem good_prefetch {q : List Instr} {s : State} {b : Batch} (hG : Good q s) :
    Good q (prefetch b s) := by
  unfold prefetch
  repeat' (first | with_reducible assumption | with_reducible refine good_prefetchInputs ?_ | with_reducible refine good_if ?_ (fun _ => ?_) | dsimp only | split)

theorem good_startLayer {q : List Instr} {s : State} {b : Batch} (hG : Good q s) :
    Good q (startLayer b s) := by
  unfold startLayer
  repeat' (first | with_reducible assumption | with_reducible refine good_prefetch ?_ | with_reducible refine good_loadGraph ?_ | with_reducible refine good_addR ?_ | with_reducible refine good_selectSteps ?_ | with_reducible refine good_if ?_ (fun _ => ?_) | with_reducible refine good_foldl ?_ (fun _ _ _ => ?_) | with_reducible refine good_foldl_snd ?_ (fun _ _ _ => ?_) | with_reducible refine good_foldl_fst ?_ (fun _ _ _ => ?_) | with_reducible refine good_if_snd ?_ (fun _ => ?_) | with_reducible refine good_if_fst ?_ (fun _ => ?_) | dsimp only | split | with_reducible refine good_upd ?_ rfl rfl rfl)

theorem good_execLayerStart {q : List Instr} {s : State} (hG : Good q s) :
    ∃ w, execLayerStart s = .next w ∧ Good q w := by
  refine ⟨_, rfl, ?_⟩
  repeat' (first | with_reducible assumption | with_reducible refine good_powered ?_ (fun _ _ => ?_) | with_reducible refine good_loadInputs ?_ | with_reducible refine good_startLayer ?_ | with_reducible refine good_if ?_ (fun _ => ?_) | dsimp only | split)

theorem good_checkResidue {q : List Instr} {s : State} (hG : Good q s) :
    Good q (checkResidue s) := by
  unfold checkResidue
  repeat' (first | with_reducible assumption | with_reducible refine good_tagFault ?_ | with_reducible refine good_if ?_ (fun _ => ?_) | with_reducible refine good_foldl ?_ (fun _ _ _ => ?_) | with_reducible refine good_foldl_snd ?_ (fun _ _ _ => ?_) | with_reducible refine good_foldl_fst ?_ (fun _ _ _ => ?_) | with_reducible refine good_if_snd ?_ (fun _ => ?_) | with_reducible refine good_if_fst ?_ (fun _ => ?_) | dsimp only | split)

theorem good_endModel {q : List Instr} {s : State} {b : Batch} (hG : Good q s) :
    Good q (endModel b s) := by
  unfold endModel
  repeat' (first | with_reducible assumption | with_reducible refine good_writeOutputs ?_ | with_reducible refine good_if ?_ (fun _ => ?_) | dsimp only | split | with_reducible refine good_upd ?_ rfl rfl rfl)

theorem good_endEmpty {q : List Instr} {s : State} (hG : Good q s) :
    Good q (endEmpty s) := by
  unfold endEmpty
  repeat' (first | with_reducible assumption | with_reducible refine good_if ?_ (fun _ => ?_) | dsimp only | split | with_reducible refine good_upd ?_ rfl rfl rfl)

theorem good_endLayer {q : List Instr} {s : State} {b : Batch} (hG : Good q s) :
    Good q (endLayer b s) := by
  unfold endLayer
  repeat' (first | with_reducible assumption | with_reducible refine good_put ?_ _ _ | with_reducible refine good_addR ?_ | with_reducible refine good_itg ?_ | with_reducible refine good_openTestWindow ?_ | with_reducible refine good_endEmpty ?_ | with_reducible refine good_endModel ?_ | with_reducible refine good_finishBatch ?_ | with_reducible refine good_if ?_ (fun _ => ?_) | dsimp only | split | with_reducible refine good_upd ?_ rfl rfl rfl)

theorem good_execLayerEnd {q : List Instr} {s : State} (hG : Good q s) :
    ∃ w, execLayerEnd s = .next w ∧ Good q w := by
  refine ⟨_, rfl, ?_⟩
  repeat' (first | with_reducible assumption | with_reducible refine good_powered ?_ (fun _ _ => ?_) | with_reducible refine good_checkResidue ?_ | with_reducible refine good_endLayer ?_ | with_reducible refine good_if ?_ (fun _ => ?_) | dsimp only | split)

end Sys2Proof.Machine
end

