-- ==== Sys2Proof/Laws/GoodUpdate.lean ====
section
/-! SUPPORT. Every operation of Machine/Update.lean keeps a sound state sound. -/

namespace Sys2Proof.Machine

open Sys2Proof

theorem good_storeRead {q : List Instr} {s : State} {a : Nat} {n : Nat} (hG : Good q s) :
    Good q (storeRead a n s).2 := by
  unfold storeRead
  repeat' (first | with_reducible assumption | with_reducible refine good_hbmTouch ?_ | with_reducible refine good_freeNat ?_ | with_reducible refine good_if ?_ (fun _ => ?_) | with_reducible refine good_if_snd ?_ (fun _ => ?_) | dsimp only | split)

theorem good_cfgCmdWrite {q : List Instr} {s : State} {m : Master} {v : Nat} (hG : Good q s) :
    Good q (cfgCmdWrite m v s) := by
  unfold cfgCmdWrite
  repeat' (first | with_reducible assumption | with_reducible refine good_put ?_ _ _ | with_reducible refine good_refusedWrite ?_ | with_reducible refine good_storeRead ?_ | with_reducible refine good_installCfg ?_ | with_reducible refine good_enrollBlob ?_ | with_reducible refine good_selectCfg ?_ | with_reducible refine good_if ?_ (fun _ => ?_) | dsimp only | split)

theorem good_execInstall {q : List Instr} {s : State} {m : Master} {src : Nat} (hG : Good q s) :
    ∃ w, execInstall m src s = .next w ∧ Good q w := by
  refine ⟨_, rfl, ?_⟩
  repeat' (first | with_reducible assumption | with_reducible refine good_powered ?_ (fun _ _ => ?_) | with_reducible refine good_asOwner ?_ (fun _ _ => ?_) | with_reducible refine good_cfgCmdWrite ?_ | with_reducible refine good_if ?_ (fun _ => ?_) | dsimp only | split)

theorem good_execEnroll {q : List Instr} {s : State} {m : Master} {src : Nat} (hG : Good q s) :
    ∃ w, execEnroll m src s = .next w ∧ Good q w := by
  refine ⟨_, rfl, ?_⟩
  repeat' (first | with_reducible assumption | with_reducible refine good_powered ?_ (fun _ _ => ?_) | with_reducible refine good_asOwner ?_ (fun _ _ => ?_) | with_reducible refine good_cfgCmdWrite ?_ | with_reducible refine good_if ?_ (fun _ => ?_) | dsimp only | split)

theorem good_execSelectCurrent {q : List Instr} {s : State} {m : Master} (hG : Good q s) :
    ∃ w, execSelectCurrent m s = .next w ∧ Good q w := by
  refine ⟨_, rfl, ?_⟩
  repeat' (first | with_reducible assumption | with_reducible refine good_powered ?_ (fun _ _ => ?_) | with_reducible refine good_asOwner ?_ (fun _ _ => ?_) | with_reducible refine good_cfgCmdWrite ?_ | with_reducible refine good_if ?_ (fun _ => ?_) | dsimp only | split)

theorem good_execSelectPrevious {q : List Instr} {s : State} {m : Master} (hG : Good q s) :
    ∃ w, execSelectPrevious m s = .next w ∧ Good q w := by
  refine ⟨_, rfl, ?_⟩
  repeat' (first | with_reducible assumption | with_reducible refine good_powered ?_ (fun _ _ => ?_) | with_reducible refine good_asOwner ?_ (fun _ _ => ?_) | with_reducible refine good_cfgCmdWrite ?_ | with_reducible refine good_if ?_ (fun _ => ?_) | dsimp only | split)

theorem good_execCfgCmdReserved {q : List Instr} {s : State} {m : Master} {op : Nat} (hG : Good q s) :
    ∃ w, execCfgCmdReserved m op s = .next w ∧ Good q w := by
  refine ⟨_, rfl, ?_⟩
  repeat' (first | with_reducible assumption | with_reducible refine good_powered ?_ (fun _ _ => ?_) | with_reducible refine good_asOwner ?_ (fun _ _ => ?_) | with_reducible refine good_cfgCmdWrite ?_ | with_reducible refine good_if ?_ (fun _ => ?_) | dsimp only | split)

theorem good_execHalfCommand {q : List Instr} {s : State} {m : Master} {off : Nat} {_v : Nat} (hG : Good q s) :
    ∃ w, execHalfCommand m off _v s = .next w ∧ Good q w := by
  refine ⟨_, rfl, ?_⟩
  repeat' (first | with_reducible assumption | with_reducible refine good_powered ?_ (fun _ _ => ?_) | with_reducible refine good_logAccess ?_ | with_reducible refine good_if ?_ (fun _ => ?_) | dsimp only | split)

theorem good_updCtrlWrite {q : List Instr} {s : State} {v : Nat} (hG : Good q s) :
    Good q (updCtrlWrite v s) := by
  unfold updCtrlWrite
  repeat' (first | with_reducible assumption | with_reducible refine good_upd_ ?_ | with_reducible refine good_clearPermit ?_ | with_reducible refine good_if ?_ (fun _ => ?_) | dsimp only | split)

theorem good_execPermitWrite {q : List Instr} {s : State} {m : Master} {v : Nat} (hG : Good q s) :
    ∃ w, execPermitWrite m v s = .next w ∧ Good q w := by
  refine ⟨_, rfl, ?_⟩
  repeat' (first | with_reducible assumption | with_reducible refine good_powered ?_ (fun _ _ => ?_) | with_reducible refine good_asOwner ?_ (fun _ _ => ?_) | with_reducible refine good_updCtrlWrite ?_ | with_reducible refine good_if ?_ (fun _ => ?_) | dsimp only | split)

theorem good_arm {q : List Instr} {s : State} (hG : Good q s) :
    Good q (arm s) := by
  unfold arm
  repeat' (first | with_reducible assumption | with_reducible refine good_writeBoot ?_ | with_reducible refine good_setFwSlot ?_ | with_reducible refine good_if ?_ (fun _ => ?_) | dsimp only | split)

theorem good_slotErased {q : List Instr} {s : State} {i : Nat} {n : Nat} (hG : Good q s) :
    Good q (slotErased i n s) := by
  unfold slotErased
  repeat' (first | with_reducible assumption | with_reducible refine good_nv ?_ (fun _ => rfl) | with_reducible refine good_countErases ?_ | with_reducible refine good_if ?_ (fun _ => ?_) | dsimp only | split)

theorem good_eraseSlot {q : List Instr} {s : State} {i : Nat} (hG : Good q s) :
    Good q (eraseSlot i s) := by
  unfold eraseSlot
  repeat' (first | with_reducible assumption | with_reducible refine good_slotErased ?_ | with_reducible refine good_setSlot ?_ | with_reducible refine good_setRelease ?_ | with_reducible refine good_setFwSlot ?_ | with_reducible refine good_if ?_ (fun _ => ?_) | dsimp only | split)

theorem good_updAct {q : List Instr} {s : State} {op : Nat} (hG : Good q s) :
    Good q (updAct op s) := by
  unfold updAct
  repeat' (first | with_reducible assumption | with_reducible refine good_deviceReset ?_ | with_reducible refine good_arm ?_ | with_reducible refine good_writeBoot ?_ | with_reducible refine good_setFwSlot ?_ | with_reducible refine good_fallback ?_ | with_reducible refine good_eraseSlot ?_ | with_reducible refine good_endUpload ?_ | with_reducible refine good_if ?_ (fun _ => ?_) | dsimp only | split)

theorem good_updCmdWrite {q : List Instr} {s : State} {m : Master} {v : Nat} (hG : Good q s) :
    Good q (updCmdWrite m v s) := by
  unfold updCmdWrite
  repeat' (first | with_reducible assumption | with_reducible refine good_refusedWrite ?_ | with_reducible refine good_upd_ ?_ | with_reducible refine good_updAct ?_ | with_reducible refine good_if ?_ (fun _ => ?_) | dsimp only | split)

theorem good_execUpdActivate {q : List Instr} {s : State} {m : Master} (hG : Good q s) :
    ∃ w, execUpdActivate m s = .next w ∧ Good q w := by
  refine ⟨_, rfl, ?_⟩
  repeat' (first | with_reducible assumption | with_reducible refine good_powered ?_ (fun _ _ => ?_) | with_reducible refine good_asOwner ?_ (fun _ _ => ?_) | with_reducible refine good_updCmdWrite ?_ | with_reducible refine good_if ?_ (fun _ => ?_) | dsimp only | split)

theorem good_execArm {q : List Instr} {s : State} {m : Master} (hG : Good q s) :
    ∃ w, execArm m s = .next w ∧ Good q w := by
  refine ⟨_, rfl, ?_⟩
  repeat' (first | with_reducible assumption | with_reducible refine good_powered ?_ (fun _ _ => ?_) | with_reducible refine good_asOwner ?_ (fun _ _ => ?_) | with_reducible refine good_updCmdWrite ?_ | with_reducible refine good_if ?_ (fun _ => ?_) | dsimp only | split)

theorem good_execDisarm {q : List Instr} {s : State} {m : Master} (hG : Good q s) :
    ∃ w, execDisarm m s = .next w ∧ Good q w := by
  refine ⟨_, rfl, ?_⟩
  repeat' (first | with_reducible assumption | with_reducible refine good_powered ?_ (fun _ _ => ?_) | with_reducible refine good_asOwner ?_ (fun _ _ => ?_) | with_reducible refine good_updCmdWrite ?_ | with_reducible refine good_if ?_ (fun _ => ?_) | dsimp only | split)

theorem good_execReject {q : List Instr} {s : State} {m : Master} (hG : Good q s) :
    ∃ w, execReject m s = .next w ∧ Good q w := by
  refine ⟨_, rfl, ?_⟩
  repeat' (first | with_reducible assumption | with_reducible refine good_powered ?_ (fun _ _ => ?_) | with_reducible refine good_asOwner ?_ (fun _ _ => ?_) | with_reducible refine good_updCmdWrite ?_ | with_reducible refine good_if ?_ (fun _ => ?_) | dsimp only | split)

theorem good_execErase {q : List Instr} {s : State} {m : Master} (hG : Good q s) :
    ∃ w, execErase m s = .next w ∧ Good q w := by
  refine ⟨_, rfl, ?_⟩
  repeat' (first | with_reducible assumption | with_reducible refine good_powered ?_ (fun _ _ => ?_) | with_reducible refine good_asOwner ?_ (fun _ _ => ?_) | with_reducible refine good_updCmdWrite ?_ | with_reducible refine good_if ?_ (fun _ => ?_) | dsimp only | split)

theorem good_execAbort {q : List Instr} {s : State} {m : Master} (hG : Good q s) :
    ∃ w, execAbort m s = .next w ∧ Good q w := by
  refine ⟨_, rfl, ?_⟩
  repeat' (first | with_reducible assumption | with_reducible refine good_powered ?_ (fun _ _ => ?_) | with_reducible refine good_asOwner ?_ (fun _ _ => ?_) | with_reducible refine good_updCmdWrite ?_ | with_reducible refine good_if ?_ (fun _ => ?_) | dsimp only | split)

theorem good_execUpdCmdReserved {q : List Instr} {s : State} {m : Master} (hG : Good q s) :
    ∃ w, execUpdCmdReserved m s = .next w ∧ Good q w := by
  refine ⟨_, rfl, ?_⟩
  repeat' (first | with_reducible assumption | with_reducible refine good_powered ?_ (fun _ _ => ?_) | with_reducible refine good_asOwner ?_ (fun _ _ => ?_) | with_reducible refine good_updCmdWrite ?_ | with_reducible refine good_if ?_ (fun _ => ?_) | dsimp only | split)

theorem good_execTrialTimerExpire {q : List Instr} {s : State} (hG : Good q s) :
    ∃ w, execTrialTimerExpire s = .next w ∧ Good q w := by
  refine ⟨_, rfl, ?_⟩
  repeat' (first | with_reducible assumption | with_reducible refine good_powered ?_ (fun _ _ => ?_) | with_reducible refine good_deviceResetBy ?_ | with_reducible refine good_nv ?_ (fun _ => rfl) | with_reducible refine good_release ?_ | with_reducible refine good_if ?_ (fun _ => ?_) | dsimp only | split)

theorem good_execTrialSpringLimit {q : List Instr} {s : State} (hG : Good q s) :
    ∃ w, execTrialSpringLimit s = .next w ∧ Good q w := by
  refine ⟨_, rfl, ?_⟩
  repeat' (first | with_reducible assumption | with_reducible refine good_powered ?_ (fun _ _ => ?_) | with_reducible refine good_fallback ?_ | with_reducible refine good_if ?_ (fun _ => ?_) | dsimp only | split)

theorem good_execTrialDeadline {q : List Instr} {s : State} (hG : Good q s) :
    ∃ w, execTrialDeadline s = .next w ∧ Good q w := by
  refine ⟨_, rfl, ?_⟩
  repeat' (first | with_reducible assumption | with_reducible refine good_powered ?_ (fun _ _ => ?_) | with_reducible refine good_fallback ?_ | with_reducible refine good_if ?_ (fun _ => ?_) | dsimp only | split)

theorem good_execTrialHealthBroken {q : List Instr} {s : State} (hG : Good q s) :
    ∃ w, execTrialHealthBroken s = .next w ∧ Good q w := by
  refine ⟨_, rfl, ?_⟩
  repeat' (first | with_reducible assumption | with_reducible refine good_powered ?_ (fun _ _ => ?_) | with_reducible refine good_fallback ?_ | with_reducible refine good_if ?_ (fun _ => ?_) | dsimp only | split)

theorem good_execTrialConfirm {q : List Instr} {s : State} (hG : Good q s) :
    ∃ w, execTrialConfirm s = .next w ∧ Good q w := by
  refine ⟨_, rfl, ?_⟩
  repeat' (first | with_reducible assumption | with_reducible refine good_powered ?_ (fun _ _ => ?_) | with_reducible refine good_setFwSlot ?_ | with_reducible refine good_writeBoot ?_ | with_reducible refine good_upd_ ?_ | with_reducible refine good_nv ?_ (fun _ => rfl) | with_reducible refine good_if ?_ (fun _ => ?_) | dsimp only | split)

theorem good_execNvmDeviceFail {q : List Instr} {s : State} {b : Bool} (hG : Good q s) :
    ∃ w, execNvmDeviceFail b s = .next w ∧ Good q w := by
  refine ⟨_, rfl, ?_⟩
  repeat' (first | with_reducible assumption | with_reducible refine good_powered ?_ (fun _ _ => ?_) | with_reducible refine good_endUpload ?_ | with_reducible refine good_nv ?_ (fun _ => rfl) | with_reducible refine good_upd_ ?_ | with_reducible refine good_logOpen ?_ | with_reducible refine good_if ?_ (fun _ => ?_) | dsimp only | split)

end Sys2Proof.Machine
end

