-- ==== Sys2Proof/Laws/GoodAccess.lean ====
section
/-! SUPPORT. Every operation of Machine/Access.lean keeps a sound state sound. -/

namespace Sys2Proof.Machine

open Sys2Proof

theorem good_read32 {q : List Instr} {s : State} {off : Nat} (hG : Good q s) :
    Good q (read32 s off).2 := by
  unfold read32
  repeat' (first | with_reducible assumption | with_reducible refine good_freeNat ?_ | with_reducible refine good_if ?_ (fun _ => ?_) | with_reducible refine good_foldl ?_ (fun _ _ _ => ?_) | with_reducible refine good_foldl_snd ?_ (fun _ _ _ => ?_) | with_reducible refine good_foldl_fst ?_ (fun _ _ _ => ?_) | with_reducible refine good_if_snd ?_ (fun _ => ?_) | with_reducible refine good_if_fst ?_ (fun _ => ?_) | dsimp only | split)

theorem good_busRead {q : List Instr} {s : State} {m : Master} {off : Nat} {width : Nat} (hG : Good q s) :
    Good q (busRead m off width s).2 := by
  unfold busRead
  repeat' (first | with_reducible assumption | with_reducible refine good_logAccess ?_ | with_reducible refine good_read32 ?_ | with_reducible refine good_if ?_ (fun _ => ?_) | with_reducible refine good_if_snd ?_ (fun _ => ?_) | dsimp only | split)

theorem good_dfCtrlWrite {q : List Instr} {s : State} {v : Reg} (hG : Good q s) :
    Good q (dfCtrlWrite v s) := by
  unfold dfCtrlWrite
  repeat' (first | with_reducible assumption | with_reducible refine good_put ?_ _ _ | with_reducible refine good_if ?_ (fun _ => ?_) | dsimp only | split)

theorem good_pwrLimitWrite {q : List Instr} {s : State} {v : Reg} (hG : Good q s) :
    Good q (pwrLimitWrite v s) := by
  unfold pwrLimitWrite
  repeat' (first | with_reducible assumption | with_reducible refine good_setWinterReq ?_ | with_reducible refine good_upd_ ?_ | with_reducible refine good_if ?_ (fun _ => ?_) | dsimp only | split)

theorem good_clkCtrlWrite {q : List Instr} {s : State} {m : Master} {v : Reg} (hG : Good q s) :
    Good q (clkCtrlWrite m v s) := by
  unfold clkCtrlWrite
  repeat' (first | with_reducible assumption | with_reducible refine good_followTarget ?_ | with_reducible refine good_put ?_ _ _ | with_reducible refine good_refusedWrite ?_ | with_reducible refine good_if ?_ (fun _ => ?_) | dsimp only | split)

theorem good_marginWrite {q : List Instr} {s : State} {m : Master} {v : Reg} (hG : Good q s) :
    Good q (marginWrite m v s) := by
  unfold marginWrite
  repeat' (first | with_reducible assumption | with_reducible refine good_put ?_ _ _ | with_reducible refine good_refusedWrite ?_ | with_reducible refine good_if ?_ (fun _ => ?_) | dsimp only | split)

theorem good_intCtrlWrite {q : List Instr} {s : State} {m : Master} {v : Reg} (hG : Good q s) :
    Good q (intCtrlWrite m v s) := by
  unfold intCtrlWrite
  repeat' (first | with_reducible assumption | with_reducible refine good_refusedWrite ?_ | with_reducible refine good_put ?_ _ _ | with_reducible refine good_upd_ ?_ | with_reducible refine good_if ?_ (fun _ => ?_) | dsimp only | split)

theorem good_conCtrlWrite {q : List Instr} {s : State} {v : Reg} (hG : Good q s) :
    Good q (conCtrlWrite v s) := by
  unfold conCtrlWrite
  repeat' (first | with_reducible assumption | with_reducible refine good_put ?_ _ _ | with_reducible refine good_if ?_ (fun _ => ?_) | dsimp only | split)

theorem good_hbmCtrlWrite {q : List Instr} {s : State} {m : Master} {v : Reg} (hG : Good q s) :
    Good q (hbmCtrlWrite m v s) := by
  unfold hbmCtrlWrite
  repeat' (first | with_reducible assumption | with_reducible refine good_refusedWrite ?_ | with_reducible refine good_put ?_ _ _ | with_reducible refine good_if ?_ (fun _ => ?_) | dsimp only | split)

theorem good_ownCfgWrite {q : List Instr} {s : State} {v : Reg} (hG : Good q s) :
    Good q (ownCfgWrite v s) := by
  unfold ownCfgWrite
  repeat' (first | with_reducible assumption | with_reducible refine good_upd_ ?_ | with_reducible refine good_if ?_ (fun _ => ?_) | dsimp only | split)

theorem good_clCfgWrite {q : List Instr} {s : State} {g : Nat} {v : Reg} (hG : Good q s) :
    Good q (clCfgWrite g v s) := by
  unfold clCfgWrite
  repeat' (first | with_reducible assumption | with_reducible refine good_setIlimEff ?_ | with_reducible refine good_put ?_ _ _ | with_reducible refine good_if ?_ (fun _ => ?_) | dsimp only | split)

theorem good_msixDataWrite {q : List Instr} {s : State} {h : Nat} {k : Nat} {v : Reg} (hG : Good q s) :
    Good q (msixDataWrite h k v s) := by
  unfold msixDataWrite
  repeat' (first | with_reducible assumption | with_reducible refine good_put ?_ _ _ | with_reducible refine good_signalVector ?_ | with_reducible refine good_take ?_ | with_reducible refine good_if ?_ (fun _ => ?_) | dsimp only | split)

theorem good_plainWrite {q : List Instr} {s : State} {d : RegDesc} {off : Nat} {new : Reg} {set : Reg} (hG : Good q s) :
    Good q (plainWrite d off new set s) := by
  unfold plainWrite
  repeat' (first | with_reducible assumption | with_reducible refine good_put ?_ _ _ | with_reducible refine good_if ?_ (fun _ => ?_) | dsimp only | split)

theorem good_deviceWrite {q : List Instr} {s : State} {m : Master} {d : RegDesc} {x : Store} (hG : Good q s) :
    Good q (deviceWrite m d x s) := by
  unfold deviceWrite
  repeat' (first | with_reducible assumption | with_reducible refine good_dfCtrlWrite ?_ | with_reducible refine good_seasonCmdWrite ?_ | with_reducible refine good_slotCfgWrite ?_ | with_reducible refine good_resetCmdWrite ?_ | with_reducible refine good_repairCmdWrite ?_ | with_reducible refine good_ownCfgWrite ?_ | with_reducible refine good_headRangeWrite ?_ | with_reducible refine good_ownCmdWrite ?_ | with_reducible refine good_pwrCmdWrite ?_ | with_reducible refine good_pwrLimitWrite ?_ | with_reducible refine good_clkCtrlWrite ?_ | with_reducible refine good_marginWrite ?_ | with_reducible refine good_epochWrite ?_ | with_reducible refine good_intCtrlWrite ?_ | with_reducible refine good_conCtrlWrite ?_ | with_reducible refine good_hbmCtrlWrite ?_ | with_reducible refine good_retireCmdWrite ?_ | with_reducible refine good_updCtrlWrite ?_ | with_reducible refine good_updCmdWrite ?_ | with_reducible refine good_cfgCmdWrite ?_ | with_reducible refine good_put ?_ _ _ | with_reducible refine good_lifStatWrite ?_ | with_reducible refine good_lnkNarrowWrite ?_ | with_reducible refine good_plainWrite ?_ | with_reducible refine good_if ?_ (fun _ => ?_) | dsimp only | split)

theorem good_arrayWrite {q : List Instr} {s : State} {d : RegDesc} {x : Store} (hG : Good q s) :
    Good q (arrayWrite d x s) := by
  unfold arrayWrite
  repeat' (first | with_reducible assumption | with_reducible refine good_clCfgWrite ?_ | with_reducible refine good_lnkCntClear ?_ | with_reducible refine good_lnkCtrlWrite ?_ | with_reducible refine good_plainWrite ?_ | with_reducible refine good_if ?_ (fun _ => ?_) | dsimp only | split)

theorem good_headWrite {q : List Instr} {s : State} {m : Master} {d : RegDesc} {x : Store} (hG : Good q s) :
    Good q (headWrite m d x s) := by
  unfold headWrite
  repeat' (first | with_reducible assumption | with_reducible refine good_sqCfgWrite ?_ | with_reducible refine good_cqCfgWrite ?_ | with_reducible refine good_ownCmdWrite ?_ | with_reducible refine good_sqDoorbell ?_ | with_reducible refine good_cqDoorbell ?_ | with_reducible refine good_msixDataWrite ?_ | with_reducible refine good_plainWrite ?_ | with_reducible refine good_if ?_ (fun _ => ?_) | dsimp only | split)

theorem good_tileWrite {q : List Instr} {s : State} {d : RegDesc} {x : Store} (hG : Good q s) :
    Good q (tileWrite d x s) := by
  unfold tileWrite
  repeat' (first | with_reducible assumption | with_reducible refine good_tilCtrlWrite ?_ | with_reducible refine good_put ?_ _ _ | with_reducible refine good_plainWrite ?_ | with_reducible refine good_if ?_ (fun _ => ?_) | dsimp only | split)

theorem good_storeReg {q : List Instr} {s : State} {m : Master} {d : RegDesc} {x : Store} (hG : Good q s) :
    Good q (storeReg m d x s) := by
  unfold storeReg
  repeat' (first | with_reducible assumption | with_reducible refine good_deviceWrite ?_ | with_reducible refine good_arrayWrite ?_ | with_reducible refine good_headWrite ?_ | with_reducible refine good_tileWrite ?_ | with_reducible refine good_if ?_ (fun _ => ?_) | dsimp only | split)

theorem good_regWrite {q : List Instr} {s : State} {m : Master} {d : RegDesc} {x : Store} {mask : Reg} (hG : Good q s) :
    Good q (regWrite m d x mask s) := by
  unfold regWrite
  repeat' (first | with_reducible assumption | with_reducible refine good_logAccess ?_ | with_reducible refine good_asOwner ?_ (fun _ _ => ?_) | with_reducible refine good_storeReg ?_ | with_reducible refine good_denied ?_ | with_reducible refine good_if ?_ (fun _ => ?_) | dsimp only | split)

theorem good_write32 {q : List Instr} {s : State} {m : Master} {off : Nat} {v : Nat} (hG : Good q s) :
    Good q (write32 m off v s) := by
  unfold write32
  repeat' (first | with_reducible assumption | with_reducible refine good_denied ?_ | with_reducible refine good_regWrite ?_ | with_reducible refine good_if ?_ (fun _ => ?_) | dsimp only | split)

theorem good_busWrite {q : List Instr} {s : State} {m : Master} {off : Nat} {width : Nat} {v : Nat} (hG : Good q s) :
    Good q (busWrite m off width v s) := by
  unfold busWrite
  repeat' (first | with_reducible assumption | with_reducible refine good_logAccess ?_ | with_reducible refine good_write32 ?_ | with_reducible refine good_regWrite ?_ | with_reducible refine good_if ?_ (fun _ => ?_) | dsimp only | split)

theorem good_execAccessError {q : List Instr} {s : State} {m : Master} {off : Nat} {width : Nat} {write : Bool} (hG : Good q s) :
    ∃ w, execAccessError m off width write s = .next w ∧ Good q w := by
  refine ⟨_, rfl, ?_⟩
  repeat' (first | with_reducible assumption | with_reducible refine good_powered ?_ (fun _ _ => ?_) | with_reducible refine good_answer ?_ | with_reducible refine good_logAccess ?_ | with_reducible refine good_if ?_ (fun _ => ?_) | dsimp only | split)

theorem good_execRegisterWrite {q : List Instr} {s : State} {ws : List RegWrite} (hG : Good q s) :
    ∃ w, execRegisterWrite ws s = .next w ∧ Good q w := by
  refine ⟨_, rfl, ?_⟩
  repeat' (first | with_reducible assumption | with_reducible refine good_powered ?_ (fun _ _ => ?_) | with_reducible refine good_answer ?_ | with_reducible refine good_busWrite ?_ | with_reducible refine good_if ?_ (fun _ => ?_) | with_reducible refine good_foldl ?_ (fun _ _ _ => ?_) | with_reducible refine good_foldl_snd ?_ (fun _ _ _ => ?_) | with_reducible refine good_foldl_fst ?_ (fun _ _ _ => ?_) | with_reducible refine good_if_snd ?_ (fun _ => ?_) | with_reducible refine good_if_fst ?_ (fun _ => ?_) | dsimp only | split)

end Sys2Proof.Machine
end

