-- ==== Sys2Proof/Laws/GoodDeadlock.lean ====
section
/-! SUPPORT. Every operation of Machine/Deadlock.lean keeps a sound state sound. -/

namespace Sys2Proof.Machine

open Sys2Proof

theorem good_setSearch {q : List Instr} {s : State} {f : Nat} {v : Option Search} (hG : Good q s) :
    Good q (setSearch f v s) := by
  unfold setSearch
  repeat' (first | with_reducible assumption | with_reducible refine good_if ?_ (fun _ => ?_) | dsimp only | split | with_reducible refine good_upd ?_ rfl rfl rfl)

theorem good_claimCycle {q : List Instr} {s : State} {f : Nat} {se : Search} {c : List (Nat × Nat × Nat × Nat)} (hG : Good q s) :
    Good q (claimCycle f se c s) := by
  unfold claimCycle
  repeat' (first | with_reducible assumption | with_reducible refine good_setSearch ?_ | with_reducible refine good_sendAwaited ?_ | with_reducible refine good_if ?_ (fun _ => ?_) | with_reducible refine good_foldl ?_ (fun _ _ _ => ?_) | with_reducible refine good_foldl_snd ?_ (fun _ _ _ => ?_) | with_reducible refine good_foldl_fst ?_ (fun _ _ _ => ?_) | with_reducible refine good_if_snd ?_ (fun _ => ?_) | with_reducible refine good_if_fst ?_ (fun _ => ?_) | dsimp only | split)

theorem good_runSearch {q : List Instr} {s : State} {f : Nat} (hG : Good q s) :
    Good q (runSearch f s) := by
  unfold runSearch
  repeat' (first | with_reducible assumption | with_reducible refine good_setSearch ?_ | with_reducible refine good_sendAwaited ?_ | with_reducible refine good_claimCycle ?_ | with_reducible refine good_if ?_ (fun _ => ?_) | dsimp only | split)

theorem good_execQuietReport {q : List Instr} {s : State} {t : TileId} (hG : Good q s) :
    ∃ w, execQuietReport t s = .next w ∧ Good q w := by
  refine ⟨_, rfl, ?_⟩
  repeat' (first | with_reducible assumption | with_reducible refine good_powered ?_ (fun _ _ => ?_) | with_reducible refine good_runSearch ?_ | with_reducible refine good_setSearch ?_ | with_reducible refine good_if ?_ (fun _ => ?_) | dsimp only | split)

theorem good_execDetectorReply {q : List Instr} {s : State} {f : FieldId} {peer : FieldId} (hG : Good q s) :
    ∃ w, execDetectorReply f peer s = .next w ∧ Good q w := by
  refine ⟨_, rfl, ?_⟩
  repeat' (first | with_reducible assumption | with_reducible refine good_powered ?_ (fun _ _ => ?_) | with_reducible refine good_runSearch ?_ | with_reducible refine good_setSearch ?_ | with_reducible refine good_if ?_ (fun _ => ?_) | dsimp only | split)

theorem good_deadlockFault {q : List Instr} {s : State} {f : Nat} {t : Nat} {u : Nat} {z3 : Nat} {unresolved : Bool} (hG : Good q s) :
    Good q (deadlockFault f t u z3 unresolved s) := by
  unfold deadlockFault
  repeat' (first | with_reducible assumption | with_reducible refine good_satAdd ?_ | with_reducible refine good_tagFault ?_ | with_reducible refine good_if ?_ (fun _ => ?_) | dsimp only | split)

theorem good_spillWrite {q : List Instr} {s : State} {t : Nat} {r : SpillRef} {op : Nat} (hG : Good q s) :
    Good q (spillWrite t r op s) := by
  unfold spillWrite
  repeat' (first | with_reducible assumption | with_reducible refine good_hbmStore ?_ | with_reducible refine good_updTile ?_ | with_reducible refine good_deliver ?_ | with_reducible refine good_if ?_ (fun _ => ?_) | dsimp only | split)

theorem good_readOperand {q : List Instr} {s : State} {a : Nat} (hG : Good q s) :
    Good q (readOperand a s).2 := by
  unfold readOperand
  repeat' (first | with_reducible assumption | with_reducible refine good_hbmTouch ?_ | with_reducible refine good_freeNat ?_ | with_reducible refine good_if ?_ (fun _ => ?_) | with_reducible refine good_if_snd ?_ (fun _ => ?_) | dsimp only | split)

theorem good_spillRead {q : List Instr} {s : State} {t : Nat} {r : SpillRef} (hG : Good q s) :
    Good q (spillRead t r s).2.2 := by
  unfold spillRead
  dsimp only
  split
  · exact good_readOperand hG
  · exact good_readRange hG

theorem good_openSpill {q : List Instr} {s : State} {f : Nat} {t : Nat} {z2 : Nat} {n : Nat} {hbm : Bool} (hG : Good q s) :
    Good q (openSpill f t z2 n hbm s) := by
  unfold openSpill
  repeat' (first | with_reducible assumption | with_reducible refine good_setQueue ?_ | with_reducible refine good_spillWrite ?_ | with_reducible refine good_satAdd ?_ | with_reducible refine good_upd_ ?_ | with_reducible refine good_logEvent ?_ | with_reducible refine good_if ?_ (fun _ => ?_) | with_reducible refine good_foldl ?_ (fun _ _ _ => ?_) | with_reducible refine good_foldl_snd ?_ (fun _ _ _ => ?_) | with_reducible refine good_foldl_fst ?_ (fun _ _ _ => ?_) | with_reducible refine good_if_snd ?_ (fun _ => ?_) | with_reducible refine good_if_fst ?_ (fun _ => ?_) | dsimp only | split | with_reducible refine good_upd ?_ rfl rfl rfl)

theorem good_execDeadlockRecheck {q : List Instr} {s : State} {f : FieldId} (hG : Good q s) :
    ∃ w, execDeadlockRecheck f s = .next w ∧ Good q w := by
  refine ⟨_, rfl, ?_⟩
  repeat' (first | with_reducible assumption | with_reducible refine good_powered ?_ (fun _ _ => ?_) | with_reducible refine good_satAdd ?_ | with_reducible refine good_setSearch ?_ | with_reducible refine good_deadlockFault ?_ | with_reducible refine good_openSpill ?_ | with_reducible refine good_if ?_ (fun _ => ?_) | dsimp only | split)

theorem good_execSpillClose {q : List Instr} {s : State} {t : TileId} {z1 : Nat} (hG : Good q s) :
    ∃ w, execSpillClose t z1 s = .next w ∧ Good q w := by
  refine ⟨_, rfl, ?_⟩
  repeat' (first | with_reducible assumption | with_reducible refine good_powered ?_ (fun _ _ => ?_) | with_reducible refine good_upd_ ?_ | with_reducible refine good_setQueue ?_ | with_reducible refine good_setCredit ?_ | with_reducible refine good_checkEnd ?_ | with_reducible refine good_pump ?_ | with_reducible refine good_if ?_ (fun _ => ?_) | dsimp only | split | with_reducible refine good_upd ?_ rfl rfl rfl)

theorem good_execSpillDrain {q : List Instr} {s : State} {t : TileId} {z1 : Nat} (hG : Good q s) :
    ∃ w, execSpillDrain t z1 s = .next w ∧ Good q w := by
  refine ⟨_, rfl, ?_⟩
  repeat' (first | with_reducible assumption | with_reducible refine good_powered ?_ (fun _ _ => ?_) | with_reducible refine good_spillRead ?_ | with_reducible refine good_microRetired ?_ | with_reducible refine good_enqueue ?_ | with_reducible refine good_setQueue ?_ | with_reducible refine good_if ?_ (fun _ => ?_) | dsimp only | split)

end Sys2Proof.Machine
end

