-- ==== Sys2Proof/Laws/GoodI3c.lean ====
section
/-! SUPPORT. Every operation of Machine/I3c.lean keeps a sound state sound. -/

namespace Sys2Proof.Machine

open Sys2Proof

theorem good_i3 {q : List Instr} {s : State} {f : I3cState → I3cState} (hG : Good q s) :
    Good q (i3 f s) := by
  unfold i3
  repeat' (first | with_reducible assumption | with_reducible refine good_if ?_ (fun _ => ?_) | dsimp only | split | with_reducible refine good_upd ?_ rfl rfl rfl)

theorem good_execEntdaa {q : List Instr} {s : State} {addr : Nat} (hG : Good q s) :
    ∃ w, execEntdaa addr s = .next w ∧ Good q w := by
  refine ⟨_, rfl, ?_⟩
  repeat' (first | with_reducible assumption | with_reducible refine good_powered ?_ (fun _ _ => ?_) | with_reducible refine good_answer ?_ | with_reducible refine good_i3 ?_ | with_reducible refine good_if ?_ (fun _ => ?_) | dsimp only | split)

theorem good_execSetdasa {q : List Instr} {s : State} {target : Nat} {addr : Nat} (hG : Good q s) :
    ∃ w, execSetdasa target addr s = .next w ∧ Good q w := by
  refine ⟨_, rfl, ?_⟩
  repeat' (first | with_reducible assumption | with_reducible refine good_powered ?_ (fun _ _ => ?_) | with_reducible refine good_answer ?_ | with_reducible refine good_i3 ?_ | with_reducible refine good_if ?_ (fun _ => ?_) | dsimp only | split)

theorem good_execRstdaa {q : List Instr} {s : State} (hG : Good q s) :
    ∃ w, execRstdaa s = .next w ∧ Good q w := by
  refine ⟨_, rfl, ?_⟩
  repeat' (first | with_reducible assumption | with_reducible refine good_powered ?_ (fun _ _ => ?_) | with_reducible refine good_answer ?_ | with_reducible refine good_i3 ?_ | with_reducible refine good_if ?_ (fun _ => ?_) | dsimp only | split)

theorem good_execGetpid {q : List Instr} {s : State} (hG : Good q s) :
    ∃ w, execGetpid s = .next w ∧ Good q w := by
  refine ⟨_, rfl, ?_⟩
  repeat' (first | with_reducible assumption | with_reducible refine good_powered ?_ (fun _ _ => ?_) | with_reducible refine good_answer ?_ | with_reducible refine good_if ?_ (fun _ => ?_) | dsimp only | split)

theorem good_execGetbcr {q : List Instr} {s : State} (hG : Good q s) :
    ∃ w, execGetbcr s = .next w ∧ Good q w := by
  refine ⟨_, rfl, ?_⟩
  repeat' (first | with_reducible assumption | with_reducible refine good_powered ?_ (fun _ _ => ?_) | with_reducible refine good_answer ?_ | with_reducible refine good_if ?_ (fun _ => ?_) | dsimp only | split)

theorem good_execGetdcr {q : List Instr} {s : State} (hG : Good q s) :
    ∃ w, execGetdcr s = .next w ∧ Good q w := by
  refine ⟨_, rfl, ?_⟩
  repeat' (first | with_reducible assumption | with_reducible refine good_powered ?_ (fun _ _ => ?_) | with_reducible refine good_answer ?_ | with_reducible refine good_if ?_ (fun _ => ?_) | dsimp only | split)

theorem good_execGetstatus {q : List Instr} {s : State} (hG : Good q s) :
    ∃ w, execGetstatus s = .next w ∧ Good q w := by
  refine ⟨_, rfl, ?_⟩
  repeat' (first | with_reducible assumption | with_reducible refine good_powered ?_ (fun _ _ => ?_) | with_reducible refine good_answer ?_ | with_reducible refine good_if ?_ (fun _ => ?_) | dsimp only | split)

theorem good_execGetmwl {q : List Instr} {s : State} (hG : Good q s) :
    ∃ w, execGetmwl s = .next w ∧ Good q w := by
  refine ⟨_, rfl, ?_⟩
  repeat' (first | with_reducible assumption | with_reducible refine good_powered ?_ (fun _ _ => ?_) | with_reducible refine good_answer ?_ | with_reducible refine good_if ?_ (fun _ => ?_) | dsimp only | split)

theorem good_execGetmrl {q : List Instr} {s : State} (hG : Good q s) :
    ∃ w, execGetmrl s = .next w ∧ Good q w := by
  refine ⟨_, rfl, ?_⟩
  repeat' (first | with_reducible assumption | with_reducible refine good_powered ?_ (fun _ _ => ?_) | with_reducible refine good_answer ?_ | with_reducible refine good_if ?_ (fun _ => ?_) | dsimp only | split)

theorem good_execI3cCccUnsupported {q : List Instr} {s : State} {_code : Nat} (hG : Good q s) :
    ∃ w, execI3cCccUnsupported _code s = .next w ∧ Good q w := by
  refine ⟨_, rfl, ?_⟩
  repeat' (first | with_reducible assumption | with_reducible refine good_powered ?_ (fun _ _ => ?_) | with_reducible refine good_answer ?_ | with_reducible refine good_if ?_ (fun _ => ?_) | dsimp only | split)

theorem good_execI3cPrivateWrite {q : List Instr} {s : State} {bytes : List Byte} (hG : Good q s) :
    ∃ w, execI3cPrivateWrite bytes s = .next w ∧ Good q w := by
  refine ⟨_, rfl, ?_⟩
  repeat' (first | with_reducible assumption | with_reducible refine good_powered ?_ (fun _ _ => ?_) | with_reducible refine good_answer ?_ | with_reducible refine good_i3 ?_ | with_reducible refine good_if ?_ (fun _ => ?_) | dsimp only | split)

theorem good_execI3cPrivateRead {q : List Instr} {s : State} {wide : Bool} (hG : Good q s) :
    ∃ w, execI3cPrivateRead wide s = .next w ∧ Good q w := by
  refine ⟨_, rfl, ?_⟩
  repeat' (first | with_reducible assumption | with_reducible refine good_powered ?_ (fun _ _ => ?_) | with_reducible refine good_busRead ?_ | with_reducible refine good_i3 ?_ | with_reducible refine good_answer ?_ | with_reducible refine good_if ?_ (fun _ => ?_) | dsimp only | split)

theorem good_execI3cIbi {q : List Instr} {s : State} (hG : Good q s) :
    ∃ w, execI3cIbi s = .next w ∧ Good q w := by
  refine ⟨_, rfl, ?_⟩
  repeat' (first | with_reducible assumption | with_reducible refine good_powered ?_ (fun _ _ => ?_) | with_reducible refine good_answer ?_ | with_reducible refine good_i3 ?_ | with_reducible refine good_if ?_ (fun _ => ?_) | dsimp only | split)

end Sys2Proof.Machine
end

