-- ==== Sys2Proof/Laws/GoodSpdm.lean ====
section
/-! SUPPORT. Every operation of Machine/Spdm.lean keeps a sound state sound. -/

namespace Sys2Proof.Machine

open Sys2Proof

theorem good_updConn {q : List Instr} {s : State} {tr : Transport} {f : SpdmConn → SpdmConn} (hG : Good q s) :
    Good q (updConn tr f s) := by
  unfold updConn
  repeat' (first | with_reducible assumption | with_reducible refine good_if ?_ (fun _ => ?_) | dsimp only | split | with_reducible refine good_upd ?_ rfl rfl rfl)

theorem good_spdmError {q : List Instr} {s : State} {code : Nat} {data : Nat} (hG : Good q s) :
    Good q (spdmError code data s) := by
  unfold spdmError
  repeat' (first | with_reducible assumption | with_reducible refine good_answer ?_ | with_reducible refine good_satAdd ?_ | with_reducible refine good_if ?_ (fun _ => ?_) | dsimp only | split)

theorem good_respond {q : List Instr} {s : State} {tr : Transport} {code : Nat} {body : List Byte} {f : List Byte → SpdmConn → SpdmConn} (hG : Good q s) :
    Good q (respond tr code body f s) := by
  unfold respond
  repeat' (first | with_reducible assumption | with_reducible refine good_spdmError ?_ | with_reducible refine good_answer ?_ | with_reducible refine good_updConn ?_ | with_reducible refine good_if ?_ (fun _ => ?_) | dsimp only | split)

theorem good_spdmRequest {q : List Instr} {s : State} {tr : Transport} {x : SpdmReq} {f : State → State} (hG : Good q s) (hf : ∀ x0, Good q x0 → Good q (f x0)) :
    Good q (spdmRequest tr x f s) := by
  unfold spdmRequest
  repeat' (first | with_reducible assumption | with_reducible refine good_spdmError ?_ | with_reducible refine hf _ ?_ | with_reducible refine good_if ?_ (fun _ => ?_) | dsimp only | split)

theorem good_signTranscript {q : List Instr} {s : State} {msg : List Byte} (hG : Good q s) :
    Good q (signTranscript msg s).2 := by
  unfold signTranscript
  repeat' (first | with_reducible assumption | with_reducible refine good_logOpen ?_ | with_reducible refine good_satAdd ?_ | with_reducible refine good_if ?_ (fun _ => ?_) | with_reducible refine good_if_snd ?_ (fun _ => ?_) | dsimp only | split | with_reducible refine good_upd ?_ rfl rfl rfl)

theorem good_spdmNonce {q : List Instr} {s : State} (hG : Good q s) :
    Good q (spdmNonce s).2 := by
  unfold spdmNonce
  repeat' (first | with_reducible assumption | with_reducible refine good_freeNat ?_ | with_reducible refine good_if ?_ (fun _ => ?_) | with_reducible refine good_if_snd ?_ (fun _ => ?_) | dsimp only | split)

theorem good_execGetVersion {q : List Instr} {s : State} {tr : Transport} {x : SpdmReq} (hG : Good q s) :
    ∃ w, execGetVersion tr x s = .next w ∧ Good q w := by
  refine ⟨_, rfl, ?_⟩
  repeat' (first | with_reducible assumption | with_reducible refine good_powered ?_ (fun _ _ => ?_) | with_reducible refine good_spdmRequest ?_ (fun _ _ => ?_) | with_reducible refine good_respond ?_ | with_reducible refine good_if ?_ (fun _ => ?_) | dsimp only | split)

theorem good_execGetCapabilities {q : List Instr} {s : State} {tr : Transport} {x : SpdmReq} (hG : Good q s) :
    ∃ w, execGetCapabilities tr x s = .next w ∧ Good q w := by
  refine ⟨_, rfl, ?_⟩
  repeat' (first | with_reducible assumption | with_reducible refine good_powered ?_ (fun _ _ => ?_) | with_reducible refine good_spdmRequest ?_ (fun _ _ => ?_) | with_reducible refine good_respond ?_ | with_reducible refine good_if ?_ (fun _ => ?_) | dsimp only | split)

theorem good_execNegotiateAlgorithms {q : List Instr} {s : State} {tr : Transport} {x : SpdmReq} (hG : Good q s) :
    ∃ w, execNegotiateAlgorithms tr x s = .next w ∧ Good q w := by
  refine ⟨_, rfl, ?_⟩
  repeat' (first | with_reducible assumption | with_reducible refine good_powered ?_ (fun _ _ => ?_) | with_reducible refine good_spdmRequest ?_ (fun _ _ => ?_) | with_reducible refine good_spdmError ?_ | with_reducible refine good_respond ?_ | with_reducible refine good_if ?_ (fun _ => ?_) | dsimp only | split)

theorem good_execGetDigests {q : List Instr} {s : State} {tr : Transport} {x : SpdmReq} (hG : Good q s) :
    ∃ w, execGetDigests tr x s = .next w ∧ Good q w := by
  refine ⟨_, rfl, ?_⟩
  repeat' (first | with_reducible assumption | with_reducible refine good_powered ?_ (fun _ _ => ?_) | with_reducible refine good_spdmRequest ?_ (fun _ _ => ?_) | with_reducible refine good_respond ?_ | with_reducible refine good_if ?_ (fun _ => ?_) | dsimp only | split)

theorem good_execGetCertificate {q : List Instr} {s : State} {tr : Transport} {x : SpdmReq} {off : Nat} {len : Nat} (hG : Good q s) :
    ∃ w, execGetCertificate tr x off len s = .next w ∧ Good q w := by
  refine ⟨_, rfl, ?_⟩
  repeat' (first | with_reducible assumption | with_reducible refine good_powered ?_ (fun _ _ => ?_) | with_reducible refine good_spdmRequest ?_ (fun _ _ => ?_) | with_reducible refine good_spdmError ?_ | with_reducible refine good_respond ?_ | with_reducible refine good_take ?_ | with_reducible refine good_if ?_ (fun _ => ?_) | dsimp only | split)

theorem good_challenge {q : List Instr} {s : State} {tr : Transport} {x : SpdmReq} (hG : Good q s) :
    Good q (challenge tr x s) := by
  unfold challenge
  repeat' (first | with_reducible assumption | with_reducible refine good_spdmError ?_ | with_reducible refine good_spdmNonce ?_ | with_reducible refine good_signTranscript ?_ | with_reducible refine good_respond ?_ | with_reducible refine good_if ?_ (fun _ => ?_) | dsimp only | split)

theorem good_execChallenge {q : List Instr} {s : State} {tr : Transport} {x : SpdmReq} {_nonce : List Byte} (hG : Good q s) :
    ∃ w, execChallenge tr x _nonce s = .next w ∧ Good q w := by
  refine ⟨_, rfl, ?_⟩
  repeat' (first | with_reducible assumption | with_reducible refine good_powered ?_ (fun _ _ => ?_) | with_reducible refine good_spdmRequest ?_ (fun _ _ => ?_) | with_reducible refine good_challenge ?_ | with_reducible refine good_if ?_ (fun _ => ?_) | dsimp only | split)

theorem good_measurements {q : List Instr} {s : State} {tr : Transport} {x : SpdmReq} {index : Nat} {sign : Bool} (hG : Good q s) :
    Good q (measurements tr x index sign s) := by
  unfold measurements
  repeat' (first | with_reducible assumption | with_reducible refine good_updConn ?_ | with_reducible refine good_spdmError ?_ | with_reducible refine good_spdmNonce ?_ | with_reducible refine good_signTranscript ?_ | with_reducible refine good_respond ?_ | with_reducible refine good_if ?_ (fun _ => ?_) | dsimp only | split)

theorem good_execGetMeasurements {q : List Instr} {s : State} {tr : Transport} {x : SpdmReq} {index : Nat} {sign : Bool} {_nonce : List Byte} (hG : Good q s) :
    ∃ w, execGetMeasurements tr x index sign _nonce s = .next w ∧ Good q w := by
  refine ⟨_, rfl, ?_⟩
  repeat' (first | with_reducible assumption | with_reducible refine good_powered ?_ (fun _ _ => ?_) | with_reducible refine good_spdmRequest ?_ (fun _ _ => ?_) | with_reducible refine good_measurements ?_ | with_reducible refine good_if ?_ (fun _ => ?_) | dsimp only | split)

theorem good_execSpdmUnsupported {q : List Instr} {s : State} {tr : Transport} {x : SpdmReq} (hG : Good q s) :
    ∃ w, execSpdmUnsupported tr x s = .next w ∧ Good q w := by
  refine ⟨_, rfl, ?_⟩
  repeat' (first | with_reducible assumption | with_reducible refine good_powered ?_ (fun _ _ => ?_) | with_reducible refine good_spdmRequest ?_ (fun _ _ => ?_) | with_reducible refine good_spdmError ?_ | with_reducible refine good_if ?_ (fun _ => ?_) | dsimp only | split)

end Sys2Proof.Machine
end

