-- ==== Sys2Proof/Laws/GoodSvc.lean ====
section
/-! SUPPORT. Every operation of Machine/Svc.lean keeps a sound state sound. -/

namespace Sys2Proof.Machine

open Sys2Proof

theorem good_sv_le {q : List Instr} {s : State} {f : SvcState → SvcState} (h : Good q s)
    (hf : ∀ n, n.events.length ≤ 16 → (f n).events.length ≤ 16) : Good q (sv f s) :=
  ⟨h.pending, h.inv.regs, h.inv.hbm, h.inv.otp, hf _ h.inv.events, h.inv.held⟩

theorem good_sv {q : List Instr} {s : State} {f : SvcState → SvcState} (h : Good q s) (hf : ∀ n, (f n).events = n.events) :
    Good q (sv f s) := good_sv_le h fun n hn => by rw [hf]; exact hn

theorem good_macReply {q : List Instr} {s : State} {key : List Byte} {type : Nat} {status : Nat} {session : Nat} {seq : Nat} {payload : List Byte} (hG : Good q s) :
    Good q (macReply key type status session seq payload s) := by
  unfold macReply
  repeat' (first | with_reducible assumption | with_reducible refine good_answer ?_ | with_reducible refine good_if ?_ (fun _ => ?_) | dsimp only | split)

theorem good_plainReply {q : List Instr} {s : State} {type : Nat} {status : Nat} {session : Nat} {seq : Nat} {payload : List Byte} (hG : Good q s) :
    Good q (plainReply type status session seq payload s) := by
  unfold plainReply
  repeat' (first | with_reducible assumption | with_reducible refine good_answer ?_ | with_reducible refine good_if ?_ (fun _ => ?_) | dsimp only | split)

theorem good_closeSession {q : List Instr} {s : State} (hG : Good q s) :
    Good q (closeSession s) := by
  unfold closeSession
  repeat' (first | with_reducible assumption | with_reducible refine good_sv_le ?_ (fun _ _ => Nat.zero_le _) | with_reducible refine good_endUpload ?_ | with_reducible refine good_sv ?_ (fun _ => rfl) | with_reducible refine good_reholder ?_ | with_reducible refine good_upd_ ?_ | with_reducible refine good_if ?_ (fun _ => ?_) | dsimp only | split)

theorem good_sessionDue {q : List Instr} {s : State} (hG : Good q s) :
    Good q (sessionDue s) := by
  unfold sessionDue
  repeat' (first | with_reducible assumption | with_reducible refine good_closeSession ?_ | with_reducible refine good_if ?_ (fun _ => ?_) | dsimp only | split)

theorem good_hello {q : List Instr} {s : State} {x : SvcHdr} {nc : List Byte} (hG : Good q s) :
    Good q (hello x nc s) := by
  unfold hello
  repeat' (first | with_reducible assumption | with_reducible refine good_sessionDue ?_ | with_reducible refine good_answer ?_ | with_reducible refine good_sv ?_ (fun _ => rfl) | with_reducible refine good_plainReply ?_ | with_reducible refine good_freeNat ?_ | with_reducible refine good_if ?_ (fun _ => ?_) | dsimp only | split)

theorem good_execHello {q : List Instr} {s : State} {x : SvcHdr} {nc : List Byte} (hG : Good q s) :
    ∃ w, execHello x nc s = .next w ∧ Good q w := by
  refine ⟨_, rfl, ?_⟩
  repeat' (first | with_reducible assumption | with_reducible refine good_powered ?_ (fun _ _ => ?_) | with_reducible refine good_hello ?_ | with_reducible refine good_if ?_ (fun _ => ?_) | dsimp only | split)

theorem good_denyOpen {q : List Instr} {s : State} {type : Nat} {x : SvcHdr} (hG : Good q s) :
    Good q (denyOpen type x s) := by
  unfold denyOpen
  repeat' (first | with_reducible assumption | with_reducible refine good_plainReply ?_ | with_reducible refine good_satAdd ?_ | with_reducible refine good_sv ?_ (fun _ => rfl) | with_reducible refine good_if ?_ (fun _ => ?_) | dsimp only | split)

theorem good_execAuthKey {q : List Instr} {s : State} {x : SvcHdr} {key : List Byte} (hG : Good q s) :
    ∃ w, execAuthKey x key s = .next w ∧ Good q w := by
  refine ⟨_, rfl, ?_⟩
  repeat' (first | with_reducible assumption | with_reducible refine good_powered ?_ (fun _ _ => ?_) | with_reducible refine good_plainReply ?_ | with_reducible refine good_sv ?_ (fun _ => rfl) | with_reducible refine good_denyOpen ?_ | with_reducible refine good_if ?_ (fun _ => ?_) | dsimp only | split)

theorem good_authFailed {q : List Instr} {s : State} {x : SvcHdr} (hG : Good q s) :
    Good q (authFailed x s) := by
  unfold authFailed
  repeat' (first | with_reducible assumption | with_reducible refine good_denyOpen ?_ | with_reducible refine good_sv ?_ (fun _ => rfl) | with_reducible refine good_if ?_ (fun _ => ?_) | dsimp only | split)

theorem good_openSession {q : List Instr} {s : State} {x : SvcHdr} {h : HalfOpen} {n : Nat} {secret : List Byte} (hG : Good q s) :
    Good q (openSession x h n secret s) := by
  unfold openSession
  repeat' (first | with_reducible assumption | with_reducible refine good_sv_le ?_ (fun _ _ => Nat.zero_le _) | with_reducible refine good_sv ?_ (fun _ => rfl) | with_reducible refine good_upd_ ?_ | with_reducible refine good_macReply ?_ | with_reducible refine good_reholder ?_ | with_reducible refine good_satAdd ?_ | with_reducible refine good_if ?_ (fun _ => ?_) | dsimp only | split)

theorem good_execAuth {q : List Instr} {s : State} {x : SvcHdr} {cipher : List Byte} {sig : List Byte} (hG : Good q s) :
    ∃ w, execAuth x cipher sig s = .next w ∧ Good q w := by
  refine ⟨_, rfl, ?_⟩
  repeat' (first | with_reducible assumption | with_reducible refine good_powered ?_ (fun _ _ => ?_) | with_reducible refine good_plainReply ?_ | with_reducible refine good_authFailed ?_ | with_reducible refine good_openSession ?_ | with_reducible refine good_if ?_ (fun _ => ?_) | dsimp only | split)

theorem good_execSvcHalfOpenLapse {q : List Instr} {s : State} (hG : Good q s) :
    ∃ w, execSvcHalfOpenLapse s = .next w ∧ Good q w := by
  refine ⟨_, rfl, ?_⟩
  repeat' (first | with_reducible assumption | with_reducible refine good_powered ?_ (fun _ _ => ?_) | with_reducible refine good_sv ?_ (fun _ => rfl) | with_reducible refine good_if ?_ (fun _ => ?_) | dsimp only | split)

theorem good_execSvcSessionTimeout {q : List Instr} {s : State} (hG : Good q s) :
    ∃ w, execSvcSessionTimeout s = .next w ∧ Good q w := by
  refine ⟨_, rfl, ?_⟩
  repeat' (first | with_reducible assumption | with_reducible refine good_powered ?_ (fun _ _ => ?_) | with_reducible refine good_sessionDue ?_ | with_reducible refine good_if ?_ (fun _ => ?_) | dsimp only | split)

theorem good_cacheReply {q : List Instr} {s : State} {seq : Nat} {type : Nat} {status : Nat} {payload : List Byte} (hG : Good q s) :
    Good q (cacheReply seq type status payload s) := by
  unfold cacheReply
  repeat' (first | with_reducible assumption | with_reducible refine good_sv ?_ (fun _ => rfl) | with_reducible refine good_if ?_ (fun _ => ?_) | dsimp only | split)

theorem good_badMac {q : List Instr} {s : State} (hG : Good q s) :
    Good q (badMac s) := by
  unfold badMac
  repeat' (first | with_reducible assumption | with_reducible refine good_answer ?_ | with_reducible refine good_satAdd ?_ | with_reducible refine good_if ?_ (fun _ => ?_) | dsimp only | split)

theorem good_sessionMsg {q : List Instr} {s : State} {type : Nat} {close : Bool} {x : SvcMsg} {f : List Byte → State → SvcResult} (hG : Good q s) (hf : ∀ x0 x1, Good q x1 → Good q (f x0 x1).2.2) :
    Good q (sessionMsg type close x f s) := by
  unfold sessionMsg
  repeat' (first | with_reducible assumption | with_reducible refine good_sessionDue ?_ | with_reducible refine good_badMac ?_ | with_reducible refine good_sv ?_ (fun _ => rfl) | with_reducible refine good_macReply ?_ | with_reducible refine good_answer ?_ | with_reducible refine good_closeSession ?_ | with_reducible refine good_cacheReply ?_ | with_reducible refine hf _ _ ?_ | with_reducible refine good_if ?_ (fun _ => ?_) | dsimp only | split)

theorem good_emptyRequest {q : List Instr} {s : State} {p : List Byte} (hG : Good q s) :
    Good q (emptyRequest p s).2.2 := by
  unfold emptyRequest
  repeat' (first | with_reducible assumption | with_reducible refine good_if ?_ (fun _ => ?_) | with_reducible refine good_if_snd ?_ (fun _ => ?_) | with_reducible refine good_if_res ?_ (fun _ => ?_) | dsimp only | split)

theorem good_execClose {q : List Instr} {s : State} {x : SvcMsg} (hG : Good q s) :
    ∃ w, execClose x s = .next w ∧ Good q w := by
  refine ⟨_, rfl, ?_⟩
  repeat' (first | with_reducible assumption | with_reducible refine good_powered ?_ (fun _ _ => ?_) | with_reducible refine good_sessionMsg ?_ (fun _ _ _ => ?_) | with_reducible refine good_emptyRequest ?_ | with_reducible refine good_if ?_ (fun _ => ?_) | dsimp only | split)

theorem good_execNop {q : List Instr} {s : State} {x : SvcMsg} (hG : Good q s) :
    ∃ w, execNop x s = .next w ∧ Good q w := by
  refine ⟨_, rfl, ?_⟩
  repeat' (first | with_reducible assumption | with_reducible refine good_powered ?_ (fun _ _ => ?_) | with_reducible refine good_sessionMsg ?_ (fun _ _ _ => ?_) | with_reducible refine good_emptyRequest ?_ | with_reducible refine good_if ?_ (fun _ => ?_) | dsimp only | split)

theorem good_readMany {q : List Instr} {y3 : State} {off : Nat} {width : Nat} {y2 : Nat} (hG : Good q y3) :
    Good q (readMany off width y2 y3).2 := by
  induction y2 generalizing y3 off with
  | zero =>
    unfold readMany
    exact hG
  | succ n ih =>
    unfold readMany
    repeat' (first | with_reducible assumption | with_reducible refine ih ?_ | with_reducible refine good_busRead ?_ | with_reducible refine good_if ?_ (fun _ => ?_) | with_reducible refine good_if_snd ?_ (fun _ => ?_) | dsimp only | split)

theorem good_regReadRequest {q : List Instr} {s : State} {p : List Byte} (hG : Good q s) :
    Good q (regReadRequest p s).2.2 := by
  unfold regReadRequest
  repeat' (first | with_reducible assumption | with_reducible refine good_readMany ?_ | with_reducible refine good_if ?_ (fun _ => ?_) | with_reducible refine good_if_snd ?_ (fun _ => ?_) | with_reducible refine good_if_res ?_ (fun _ => ?_) | dsimp only | split)

theorem good_execRegRead {q : List Instr} {s : State} {x : SvcMsg} (hG : Good q s) :
    ∃ w, execRegRead x s = .next w ∧ Good q w := by
  refine ⟨_, rfl, ?_⟩
  repeat' (first | with_reducible assumption | with_reducible refine good_powered ?_ (fun _ _ => ?_) | with_reducible refine good_sessionMsg ?_ (fun _ _ _ => ?_) | with_reducible refine good_regReadRequest ?_ | with_reducible refine good_if ?_ (fun _ => ?_) | dsimp only | split)

theorem good_regWriteRequest {q : List Instr} {s : State} {p : List Byte} (hG : Good q s) :
    Good q (regWriteRequest p s).2.2 := by
  unfold regWriteRequest
  repeat' (first | with_reducible assumption | with_reducible refine good_busWrite ?_ | with_reducible refine good_if ?_ (fun _ => ?_) | with_reducible refine good_if_snd ?_ (fun _ => ?_) | with_reducible refine good_if_res ?_ (fun _ => ?_) | dsimp only | split)

theorem good_execRegWrite {q : List Instr} {s : State} {x : SvcMsg} (hG : Good q s) :
    ∃ w, execRegWrite x s = .next w ∧ Good q w := by
  refine ⟨_, rfl, ?_⟩
  repeat' (first | with_reducible assumption | with_reducible refine good_powered ?_ (fun _ _ => ?_) | with_reducible refine good_sessionMsg ?_ (fun _ _ _ => ?_) | with_reducible refine good_regWriteRequest ?_ | with_reducible refine good_if ?_ (fun _ => ?_) | dsimp only | split)

theorem good_ownerRequest {q : List Instr} {s : State} {f : List Byte → State → SvcResult} {p : List Byte} (hG : Good q s) (hf : ∀ x0 x1, Good q x1 → Good q (f x0 x1).2.2) :
    Good q (ownerRequest f p s).2.2 := by
  unfold ownerRequest
  repeat' (first | with_reducible assumption | with_reducible refine good_settle ?_ | with_reducible refine hf _ _ ?_ | with_reducible refine good_if ?_ (fun _ => ?_) | with_reducible refine good_if_snd ?_ (fun _ => ?_) | with_reducible refine good_if_res ?_ (fun _ => ?_) | dsimp only | split)

theorem good_cfgPartRequest {q : List Instr} {s : State} {p : List Byte} (hG : Good q s) :
    Good q (cfgPartRequest p s).2.2 := by
  unfold cfgPartRequest
  repeat' (first | with_reducible assumption | with_reducible refine good_sv ?_ (fun _ => rfl) | with_reducible refine good_installCfg ?_ | with_reducible refine good_if ?_ (fun _ => ?_) | with_reducible refine good_if_snd ?_ (fun _ => ?_) | with_reducible refine good_if_res ?_ (fun _ => ?_) | dsimp only | split)

theorem good_execCfgPart {q : List Instr} {s : State} {x : SvcMsg} (hG : Good q s) :
    ∃ w, execCfgPart x s = .next w ∧ Good q w := by
  refine ⟨_, rfl, ?_⟩
  repeat' (first | with_reducible assumption | with_reducible refine good_powered ?_ (fun _ _ => ?_) | with_reducible refine good_sessionMsg ?_ (fun _ _ _ => ?_) | with_reducible refine good_ownerRequest ?_ (fun _ _ _ => ?_) | with_reducible refine good_cfgPartRequest ?_ | with_reducible refine good_if ?_ (fun _ => ?_) | dsimp only | split)

theorem good_enrollPartRequest {q : List Instr} {s : State} {p : List Byte} (hG : Good q s) :
    Good q (enrollPartRequest p s).2.2 := by
  unfold enrollPartRequest
  repeat' (first | with_reducible assumption | with_reducible refine good_enrollBlob ?_ | with_reducible refine good_sv ?_ (fun _ => rfl) | with_reducible refine good_if ?_ (fun _ => ?_) | with_reducible refine good_if_snd ?_ (fun _ => ?_) | with_reducible refine good_if_res ?_ (fun _ => ?_) | dsimp only | split)

theorem good_execEnrollPart {q : List Instr} {s : State} {x : SvcMsg} (hG : Good q s) :
    ∃ w, execEnrollPart x s = .next w ∧ Good q w := by
  refine ⟨_, rfl, ?_⟩
  repeat' (first | with_reducible assumption | with_reducible refine good_powered ?_ (fun _ _ => ?_) | with_reducible refine good_sessionMsg ?_ (fun _ _ _ => ?_) | with_reducible refine good_ownerRequest ?_ (fun _ _ _ => ?_) | with_reducible refine good_enrollPartRequest ?_ | with_reducible refine good_if ?_ (fun _ => ?_) | dsimp only | split)

theorem good_cfgSelectRequest {q : List Instr} {s : State} {p : List Byte} (hG : Good q s) :
    Good q (cfgSelectRequest p s).2.2 := by
  unfold cfgSelectRequest
  repeat' (first | with_reducible assumption | with_reducible refine good_selectCfg ?_ | with_reducible refine good_if ?_ (fun _ => ?_) | with_reducible refine good_if_snd ?_ (fun _ => ?_) | with_reducible refine good_if_res ?_ (fun _ => ?_) | dsimp only | split)

theorem good_execCfgSelect {q : List Instr} {s : State} {x : SvcMsg} (hG : Good q s) :
    ∃ w, execCfgSelect x s = .next w ∧ Good q w := by
  refine ⟨_, rfl, ?_⟩
  repeat' (first | with_reducible assumption | with_reducible refine good_powered ?_ (fun _ _ => ?_) | with_reducible refine good_sessionMsg ?_ (fun _ _ _ => ?_) | with_reducible refine good_ownerRequest ?_ (fun _ _ _ => ?_) | with_reducible refine good_cfgSelectRequest ?_ | with_reducible refine good_if ?_ (fun _ => ?_) | dsimp only | split)

theorem good_eraseOn {q : List Instr} {s : State} (hG : Good q s) :
    Good q (eraseOn s) := by
  unfold eraseOn
  repeat' (first | with_reducible assumption | with_reducible refine good_freeNat ?_ | with_reducible refine good_nv ?_ (fun _ => rfl) | with_reducible refine good_answer ?_ | with_reducible refine good_if ?_ (fun _ => ?_) | dsimp only | split)

theorem good_fwBeginRequest {q : List Instr} {s : State} {p : List Byte} (hG : Good q s) :
    Good q (fwBeginRequest p s).2.2 := by
  unfold fwBeginRequest
  repeat' (first | with_reducible assumption | with_reducible refine good_eraseSlot ?_ | with_reducible refine good_setFwSlot ?_ | with_reducible refine good_nv ?_ (fun _ => rfl) | with_reducible refine good_eraseOn ?_ | with_reducible refine good_upd_ ?_ | with_reducible refine good_if ?_ (fun _ => ?_) | with_reducible refine good_if_snd ?_ (fun _ => ?_) | with_reducible refine good_if_res ?_ (fun _ => ?_) | dsimp only | split)

theorem good_execFwBegin {q : List Instr} {s : State} {x : SvcMsg} (hG : Good q s) :
    ∃ w, execFwBegin x s = .next w ∧ Good q w := by
  refine ⟨_, rfl, ?_⟩
  repeat' (first | with_reducible assumption | with_reducible refine good_powered ?_ (fun _ _ => ?_) | with_reducible refine good_sessionMsg ?_ (fun _ _ _ => ?_) | with_reducible refine good_ownerRequest ?_ (fun _ _ _ => ?_) | with_reducible refine good_fwBeginRequest ?_ | with_reducible refine good_if ?_ (fun _ => ?_) | dsimp only | split)

theorem good_fwDataRequest {q : List Instr} {s : State} {p : List Byte} (hG : Good q s) :
    Good q (fwDataRequest p s).2.2 := by
  unfold fwDataRequest
  repeat' (first | with_reducible assumption | with_reducible refine good_eraseOn ?_ | with_reducible refine good_freeNat ?_ | with_reducible refine good_setSlot ?_ | with_reducible refine good_nv ?_ (fun _ => rfl) | with_reducible refine good_upd_ ?_ | with_reducible refine good_if ?_ (fun _ => ?_) | with_reducible refine good_if_snd ?_ (fun _ => ?_) | with_reducible refine good_if_res ?_ (fun _ => ?_) | dsimp only | split)

theorem good_execFwData {q : List Instr} {s : State} {x : SvcMsg} (hG : Good q s) :
    ∃ w, execFwData x s = .next w ∧ Good q w := by
  refine ⟨_, rfl, ?_⟩
  repeat' (first | with_reducible assumption | with_reducible refine good_powered ?_ (fun _ _ => ?_) | with_reducible refine good_sessionMsg ?_ (fun _ _ _ => ?_) | with_reducible refine good_ownerRequest ?_ (fun _ _ _ => ?_) | with_reducible refine good_fwDataRequest ?_ | with_reducible refine good_if ?_ (fun _ => ?_) | dsimp only | split)

theorem good_fwEndRequest {q : List Instr} {s : State} {p : List Byte} (hG : Good q s) :
    Good q (fwEndRequest p s).2.2 := by
  unfold fwEndRequest
  repeat' (first | with_reducible assumption | with_reducible refine good_setRelease ?_ | with_reducible refine good_setFwSlot ?_ | with_reducible refine good_nv ?_ (fun _ => rfl) | with_reducible refine good_logCoded ?_ | with_reducible refine good_upd_ ?_ | with_reducible refine good_endUpload ?_ | with_reducible refine good_if ?_ (fun _ => ?_) | with_reducible refine good_if_snd ?_ (fun _ => ?_) | with_reducible refine good_if_res ?_ (fun _ => ?_) | dsimp only | split)

theorem good_execFwEnd {q : List Instr} {s : State} {x : SvcMsg} (hG : Good q s) :
    ∃ w, execFwEnd x s = .next w ∧ Good q w := by
  refine ⟨_, rfl, ?_⟩
  repeat' (first | with_reducible assumption | with_reducible refine good_powered ?_ (fun _ _ => ?_) | with_reducible refine good_sessionMsg ?_ (fun _ _ _ => ?_) | with_reducible refine good_ownerRequest ?_ (fun _ _ _ => ?_) | with_reducible refine good_fwEndRequest ?_ | with_reducible refine good_if ?_ (fun _ => ?_) | dsimp only | split)

theorem good_fwAbortRequest {q : List Instr} {s : State} {p : List Byte} (hG : Good q s) :
    Good q (fwAbortRequest p s).2.2 := by
  unfold fwAbortRequest
  repeat' (first | with_reducible assumption | with_reducible refine good_endUpload ?_ | with_reducible refine good_if ?_ (fun _ => ?_) | with_reducible refine good_if_snd ?_ (fun _ => ?_) | with_reducible refine good_if_res ?_ (fun _ => ?_) | dsimp only | split)

theorem good_execFwAbort {q : List Instr} {s : State} {x : SvcMsg} (hG : Good q s) :
    ∃ w, execFwAbort x s = .next w ∧ Good q w := by
  refine ⟨_, rfl, ?_⟩
  repeat' (first | with_reducible assumption | with_reducible refine good_powered ?_ (fun _ _ => ?_) | with_reducible refine good_sessionMsg ?_ (fun _ _ _ => ?_) | with_reducible refine good_ownerRequest ?_ (fun _ _ _ => ?_) | with_reducible refine good_fwAbortRequest ?_ | with_reducible refine good_if ?_ (fun _ => ?_) | dsimp only | split)

theorem good_logReadRequest {q : List Instr} {s : State} {p : List Byte} (hG : Good q s) :
    Good q (logReadRequest p s).2.2 := by
  unfold logReadRequest
  repeat' (first | with_reducible assumption | with_reducible refine good_take ?_ | with_reducible refine good_if ?_ (fun _ => ?_) | with_reducible refine good_if_snd ?_ (fun _ => ?_) | with_reducible refine good_if_res ?_ (fun _ => ?_) | dsimp only | split)

theorem good_execLogRead {q : List Instr} {s : State} {x : SvcMsg} (hG : Good q s) :
    ∃ w, execLogRead x s = .next w ∧ Good q w := by
  refine ⟨_, rfl, ?_⟩
  repeat' (first | with_reducible assumption | with_reducible refine good_powered ?_ (fun _ _ => ?_) | with_reducible refine good_sessionMsg ?_ (fun _ _ _ => ?_) | with_reducible refine good_logReadRequest ?_ | with_reducible refine good_if ?_ (fun _ => ?_) | dsimp only | split)

theorem good_eventAckRequest {q : List Instr} {s : State} {p : List Byte} (hG : Good q s) :
    Good q (eventAckRequest p s).2.2 := by
  unfold eventAckRequest
  repeat' (first | with_reducible assumption | with_reducible refine good_sv_le ?_ (fun _ hv => Nat.le_trans (List.length_filter_le _ _) hv) | with_reducible refine good_sv ?_ (fun _ => rfl) | with_reducible refine good_if ?_ (fun _ => ?_) | with_reducible refine good_if_snd ?_ (fun _ => ?_) | with_reducible refine good_if_res ?_ (fun _ => ?_) | dsimp only | split)

theorem good_execEventAck {q : List Instr} {s : State} {x : SvcMsg} (hG : Good q s) :
    ∃ w, execEventAck x s = .next w ∧ Good q w := by
  refine ⟨_, rfl, ?_⟩
  repeat' (first | with_reducible assumption | with_reducible refine good_powered ?_ (fun _ _ => ?_) | with_reducible refine good_sessionMsg ?_ (fun _ _ _ => ?_) | with_reducible refine good_eventAckRequest ?_ | with_reducible refine good_if ?_ (fun _ => ?_) | dsimp only | split)

theorem good_execSvcEventResend {q : List Instr} {s : State} {seq : Nat} (hG : Good q s) :
    ∃ w, execSvcEventResend seq s = .next w ∧ Good q w := by
  refine ⟨_, rfl, ?_⟩
  repeat' (first | with_reducible assumption | with_reducible refine good_sv_le ?_ (fun _ hv => by simpa using hv) | with_reducible refine good_powered ?_ (fun _ _ => ?_) | with_reducible refine good_answer ?_ | with_reducible refine good_sv ?_ (fun _ => rfl) | with_reducible refine good_svcEvent ?_ _ | with_reducible refine good_if ?_ (fun _ => ?_) | dsimp only | split)

theorem good_execSvcBlockLock {q : List Instr} {s : State} {lock : Bool} (hG : Good q s) :
    ∃ w, execSvcBlockLock lock s = .next w ∧ Good q w := by
  refine ⟨_, rfl, ?_⟩
  repeat' (first | with_reducible assumption | with_reducible refine good_powered ?_ (fun _ _ => ?_) | with_reducible refine good_upd_ ?_ | with_reducible refine good_if ?_ (fun _ => ?_) | dsimp only | split)

theorem good_execArpNeighbourDiscovery {q : List Instr} {s : State} {v6 : Bool} {addr : Nat} {_mac : Nat} (hG : Good q s) :
    ∃ w, execArpNeighbourDiscovery v6 addr _mac s = .next w ∧ Good q w := by
  refine ⟨_, rfl, ?_⟩
  repeat' (first | with_reducible assumption | with_reducible refine good_powered ?_ (fun _ _ => ?_) | with_reducible refine good_answer ?_ | with_reducible refine good_if ?_ (fun _ => ?_) | dsimp only | split)

theorem good_execIcmpEcho {q : List Instr} {s : State} {v6 : Bool} {addr : Nat} {data : List Byte} (hG : Good q s) :
    ∃ w, execIcmpEcho v6 addr data s = .next w ∧ Good q w := by
  refine ⟨_, rfl, ?_⟩
  repeat' (first | with_reducible assumption | with_reducible refine good_powered ?_ (fun _ _ => ?_) | with_reducible refine good_answer ?_ | with_reducible refine good_if ?_ (fun _ => ?_) | dsimp only | split)

end Sys2Proof.Machine
end

