-- ==== Sys2Proof/Laws/State.lean ====
section
/-! SUPPORT. Each way of updating the state, field by field, so that no proof unfolds a record update; and what a read of
a register, of a field or of a byte gives after a write of another or of the same one. -/

namespace Sys2Proof.Machine

open Sys2Proof

@[simp] theorem put_pending (off : Nat) (v : Reg) (s : State) : (put off v s).pending = s.pending := rfl

@[simp] theorem put_free (off : Nat) (v : Reg) (s : State) : (put off v s).free = s.free := rfl

@[simp] theorem put_answer (off : Nat) (v : Reg) (s : State) : (put off v s).answer = s.answer := rfl

@[simp] theorem put_devtime (off : Nat) (v : Reg) (s : State) : (put off v s).devtime = s.devtime := rfl

@[simp] theorem put_regs (off : Nat) (v : Reg) (s : State) : (put off v s).regs = tset regReset off v s.regs := rfl

@[simp] theorem put_hbm (off : Nat) (v : Reg) (s : State) : (put off v s).hbm = s.hbm := rfl

@[simp] theorem put_hbmState (off : Nat) (v : Reg) (s : State) : (put off v s).hbmState = s.hbmState := rfl

@[simp] theorem put_log (off : Nat) (v : Reg) (s : State) : (put off v s).log = s.log := rfl

@[simp] theorem put_tiles (off : Nat) (v : Reg) (s : State) : (put off v s).tiles = s.tiles := rfl

@[simp] theorem put_req (off : Nat) (v : Reg) (s : State) : (put off v s).req = s.req := rfl

@[simp] theorem put_net (off : Nat) (v : Reg) (s : State) : (put off v s).net = s.net := rfl

@[simp] theorem put_links (off : Nat) (v : Reg) (s : State) : (put off v s).links = s.links := rfl

@[simp] theorem put_integ (off : Nat) (v : Reg) (s : State) : (put off v s).integ = s.integ := rfl

@[simp] theorem put_own (off : Nat) (v : Reg) (s : State) : (put off v s).own = s.own := rfl

@[simp] theorem put_power (off : Nat) (v : Reg) (s : State) : (put off v s).power = s.power := rfl

@[simp] theorem put_control (off : Nat) (v : Reg) (s : State) : (put off v s).control = s.control := rfl

@[simp] theorem put_clock (off : Nat) (v : Reg) (s : State) : (put off v s).clock = s.clock := rfl

@[simp] theorem put_boot (off : Nat) (v : Reg) (s : State) : (put off v s).boot = s.boot := rfl

@[simp] theorem put_life (off : Nat) (v : Reg) (s : State) : (put off v s).life = s.life := rfl

@[simp] theorem put_svc (off : Nat) (v : Reg) (s : State) : (put off v s).svc = s.svc := rfl

@[simp] theorem put_nvm (off : Nat) (v : Reg) (s : State) : (put off v s).nvm = s.nvm := rfl

@[simp] theorem put_spdm (off : Nat) (v : Reg) (s : State) : (put off v s).spdm = s.spdm := rfl

@[simp] theorem put_i3c (off : Nat) (v : Reg) (s : State) : (put off v s).i3c = s.i3c := rfl

@[simp] theorem put_host (off : Nat) (v : Reg) (s : State) : (put off v s).host = s.host := rfl

@[simp] theorem upd_pending (off : Nat) (f : Fld) (x : Nat) (s : State) : (upd off f x s).pending = s.pending := rfl

@[simp] theorem upd_free (off : Nat) (f : Fld) (x : Nat) (s : State) : (upd off f x s).free = s.free := rfl

@[simp] theorem upd_answer (off : Nat) (f : Fld) (x : Nat) (s : State) : (upd off f x s).answer = s.answer := rfl

@[simp] theorem upd_devtime (off : Nat) (f : Fld) (x : Nat) (s : State) : (upd off f x s).devtime = s.devtime := rfl

@[simp] theorem upd_hbm (off : Nat) (f : Fld) (x : Nat) (s : State) : (upd off f x s).hbm = s.hbm := rfl

@[simp] theorem upd_hbmState (off : Nat) (f : Fld) (x : Nat) (s : State) : (upd off f x s).hbmState = s.hbmState := rfl

@[simp] theorem upd_log (off : Nat) (f : Fld) (x : Nat) (s : State) : (upd off f x s).log = s.log := rfl

@[simp] theorem upd_tiles (off : Nat) (f : Fld) (x : Nat) (s : State) : (upd off f x s).tiles = s.tiles := rfl

@[simp] theorem upd_req (off : Nat) (f : Fld) (x : Nat) (s : State) : (upd off f x s).req = s.req := rfl

@[simp] theorem upd_net (off : Nat) (f : Fld) (x : Nat) (s : State) : (upd off f x s).net = s.net := rfl

@[simp] theorem upd_links (off : Nat) (f : Fld) (x : Nat) (s : State) : (upd off f x s).links = s.links := rfl

@[simp] theorem upd_integ (off : Nat) (f : Fld) (x : Nat) (s : State) : (upd off f x s).integ = s.integ := rfl

@[simp] theorem upd_own (off : Nat) (f : Fld) (x : Nat) (s : State) : (upd off f x s).own = s.own := rfl

@[simp] theorem upd_power (off : Nat) (f : Fld) (x : Nat) (s : State) : (upd off f x s).power = s.power := rfl

@[simp] theorem upd_control (off : Nat) (f : Fld) (x : Nat) (s : State) : (upd off f x s).control = s.control := rfl

@[simp] theorem upd_clock (off : Nat) (f : Fld) (x : Nat) (s : State) : (upd off f x s).clock = s.clock := rfl

@[simp] theorem upd_boot (off : Nat) (f : Fld) (x : Nat) (s : State) : (upd off f x s).boot = s.boot := rfl

@[simp] theorem upd_life (off : Nat) (f : Fld) (x : Nat) (s : State) : (upd off f x s).life = s.life := rfl

@[simp] theorem upd_svc (off : Nat) (f : Fld) (x : Nat) (s : State) : (upd off f x s).svc = s.svc := rfl

@[simp] theorem upd_nvm (off : Nat) (f : Fld) (x : Nat) (s : State) : (upd off f x s).nvm = s.nvm := rfl

@[simp] theorem upd_spdm (off : Nat) (f : Fld) (x : Nat) (s : State) : (upd off f x s).spdm = s.spdm := rfl

@[simp] theorem upd_i3c (off : Nat) (f : Fld) (x : Nat) (s : State) : (upd off f x s).i3c = s.i3c := rfl

@[simp] theorem upd_host (off : Nat) (f : Fld) (x : Nat) (s : State) : (upd off f x s).host = s.host := rfl

@[simp] theorem satAdd_pending (off : Nat) (f : Fld) (n : Nat) (s : State) : (satAdd off f n s).pending = s.pending := rfl

@[simp] theorem satAdd_free (off : Nat) (f : Fld) (n : Nat) (s : State) : (satAdd off f n s).free = s.free := rfl

@[simp] theorem satAdd_answer (off : Nat) (f : Fld) (n : Nat) (s : State) : (satAdd off f n s).answer = s.answer := rfl

@[simp] theorem satAdd_devtime (off : Nat) (f : Fld) (n : Nat) (s : State) : (satAdd off f n s).devtime = s.devtime := rfl

@[simp] theorem satAdd_hbm (off : Nat) (f : Fld) (n : Nat) (s : State) : (satAdd off f n s).hbm = s.hbm := rfl

@[simp] theorem satAdd_hbmState (off : Nat) (f : Fld) (n : Nat) (s : State) : (satAdd off f n s).hbmState = s.hbmState := rfl

@[simp] theorem satAdd_log (off : Nat) (f : Fld) (n : Nat) (s : State) : (satAdd off f n s).log = s.log := rfl

@[simp] theorem satAdd_tiles (off : Nat) (f : Fld) (n : Nat) (s : State) : (satAdd off f n s).tiles = s.tiles := rfl

@[simp] theorem satAdd_req (off : Nat) (f : Fld) (n : Nat) (s : State) : (satAdd off f n s).req = s.req := rfl

@[simp] theorem satAdd_net (off : Nat) (f : Fld) (n : Nat) (s : State) : (satAdd off f n s).net = s.net := rfl

@[simp] theorem satAdd_links (off : Nat) (f : Fld) (n : Nat) (s : State) : (satAdd off f n s).links = s.links := rfl

@[simp] theorem satAdd_integ (off : Nat) (f : Fld) (n : Nat) (s : State) : (satAdd off f n s).integ = s.integ := rfl

@[simp] theorem satAdd_own (off : Nat) (f : Fld) (n : Nat) (s : State) : (satAdd off f n s).own = s.own := rfl

@[simp] theorem satAdd_power (off : Nat) (f : Fld) (n : Nat) (s : State) : (satAdd off f n s).power = s.power := rfl

@[simp] theorem satAdd_control (off : Nat) (f : Fld) (n : Nat) (s : State) : (satAdd off f n s).control = s.control := rfl

@[simp] theorem satAdd_clock (off : Nat) (f : Fld) (n : Nat) (s : State) : (satAdd off f n s).clock = s.clock := rfl

@[simp] theorem satAdd_boot (off : Nat) (f : Fld) (n : Nat) (s : State) : (satAdd off f n s).boot = s.boot := rfl

@[simp] theorem satAdd_life (off : Nat) (f : Fld) (n : Nat) (s : State) : (satAdd off f n s).life = s.life := rfl

@[simp] theorem satAdd_svc (off : Nat) (f : Fld) (n : Nat) (s : State) : (satAdd off f n s).svc = s.svc := rfl

@[simp] theorem satAdd_nvm (off : Nat) (f : Fld) (n : Nat) (s : State) : (satAdd off f n s).nvm = s.nvm := rfl

@[simp] theorem satAdd_spdm (off : Nat) (f : Fld) (n : Nat) (s : State) : (satAdd off f n s).spdm = s.spdm := rfl

@[simp] theorem satAdd_i3c (off : Nat) (f : Fld) (n : Nat) (s : State) : (satAdd off f n s).i3c = s.i3c := rfl

@[simp] theorem satAdd_host (off : Nat) (f : Fld) (n : Nat) (s : State) : (satAdd off f n s).host = s.host := rfl

@[simp] theorem addR_pending (off n : Nat) (s : State) : (addR off n s).pending = s.pending := rfl

@[simp] theorem addR_free (off n : Nat) (s : State) : (addR off n s).free = s.free := rfl

@[simp] theorem addR_answer (off n : Nat) (s : State) : (addR off n s).answer = s.answer := rfl

@[simp] theorem addR_devtime (off n : Nat) (s : State) : (addR off n s).devtime = s.devtime := rfl

@[simp] theorem addR_hbm (off n : Nat) (s : State) : (addR off n s).hbm = s.hbm := rfl

@[simp] theorem addR_hbmState (off n : Nat) (s : State) : (addR off n s).hbmState = s.hbmState := rfl

@[simp] theorem addR_log (off n : Nat) (s : State) : (addR off n s).log = s.log := rfl

@[simp] theorem addR_tiles (off n : Nat) (s : State) : (addR off n s).tiles = s.tiles := rfl

@[simp] theorem addR_req (off n : Nat) (s : State) : (addR off n s).req = s.req := rfl

@[simp] theorem addR_net (off n : Nat) (s : State) : (addR off n s).net = s.net := rfl

@[simp] theorem addR_links (off n : Nat) (s : State) : (addR off n s).links = s.links := rfl

@[simp] theorem addR_integ (off n : Nat) (s : State) : (addR off n s).integ = s.integ := rfl

@[simp] theorem addR_own (off n : Nat) (s : State) : (addR off n s).own = s.own := rfl

@[simp] theorem addR_power (off n : Nat) (s : State) : (addR off n s).power = s.power := rfl

@[simp] theorem addR_control (off n : Nat) (s : State) : (addR off n s).control = s.control := rfl

@[simp] theorem addR_clock (off n : Nat) (s : State) : (addR off n s).clock = s.clock := rfl

@[simp] theorem addR_boot (off n : Nat) (s : State) : (addR off n s).boot = s.boot := rfl

@[simp] theorem addR_life (off n : Nat) (s : State) : (addR off n s).life = s.life := rfl

@[simp] theorem addR_svc (off n : Nat) (s : State) : (addR off n s).svc = s.svc := rfl

@[simp] theorem addR_nvm (off n : Nat) (s : State) : (addR off n s).nvm = s.nvm := rfl

@[simp] theorem addR_spdm (off n : Nat) (s : State) : (addR off n s).spdm = s.spdm := rfl

@[simp] theorem addR_i3c (off n : Nat) (s : State) : (addR off n s).i3c = s.i3c := rfl

@[simp] theorem addR_host (off n : Nat) (s : State) : (addR off n s).host = s.host := rfl

@[simp] theorem subR_pending (off n : Nat) (s : State) : (subR off n s).pending = s.pending := rfl

@[simp] theorem subR_free (off n : Nat) (s : State) : (subR off n s).free = s.free := rfl

@[simp] theorem subR_answer (off n : Nat) (s : State) : (subR off n s).answer = s.answer := rfl

@[simp] theorem subR_devtime (off n : Nat) (s : State) : (subR off n s).devtime = s.devtime := rfl

@[simp] theorem subR_hbm (off n : Nat) (s : State) : (subR off n s).hbm = s.hbm := rfl

@[simp] theorem subR_hbmState (off n : Nat) (s : State) : (subR off n s).hbmState = s.hbmState := rfl

@[simp] theorem subR_log (off n : Nat) (s : State) : (subR off n s).log = s.log := rfl

@[simp] theorem subR_tiles (off n : Nat) (s : State) : (subR off n s).tiles = s.tiles := rfl

@[simp] theorem subR_req (off n : Nat) (s : State) : (subR off n s).req = s.req := rfl

@[simp] theorem subR_net (off n : Nat) (s : State) : (subR off n s).net = s.net := rfl

@[simp] theorem subR_links (off n : Nat) (s : State) : (subR off n s).links = s.links := rfl

@[simp] theorem subR_integ (off n : Nat) (s : State) : (subR off n s).integ = s.integ := rfl

@[simp] theorem subR_own (off n : Nat) (s : State) : (subR off n s).own = s.own := rfl

@[simp] theorem subR_power (off n : Nat) (s : State) : (subR off n s).power = s.power := rfl

@[simp] theorem subR_control (off n : Nat) (s : State) : (subR off n s).control = s.control := rfl

@[simp] theorem subR_clock (off n : Nat) (s : State) : (subR off n s).clock = s.clock := rfl

@[simp] theorem subR_boot (off n : Nat) (s : State) : (subR off n s).boot = s.boot := rfl

@[simp] theorem subR_life (off n : Nat) (s : State) : (subR off n s).life = s.life := rfl

@[simp] theorem subR_svc (off n : Nat) (s : State) : (subR off n s).svc = s.svc := rfl

@[simp] theorem subR_nvm (off n : Nat) (s : State) : (subR off n s).nvm = s.nvm := rfl

@[simp] theorem subR_spdm (off n : Nat) (s : State) : (subR off n s).spdm = s.spdm := rfl

@[simp] theorem subR_i3c (off n : Nat) (s : State) : (subR off n s).i3c = s.i3c := rfl

@[simp] theorem subR_host (off n : Nat) (s : State) : (subR off n s).host = s.host := rfl

@[simp] theorem resetRegs_pending (p : Nat → Bool) (all : Bool) (s : State) : (resetRegs p all s).pending = s.pending := rfl

@[simp] theorem resetRegs_free (p : Nat → Bool) (all : Bool) (s : State) : (resetRegs p all s).free = s.free := rfl

@[simp] theorem resetRegs_answer (p : Nat → Bool) (all : Bool) (s : State) : (resetRegs p all s).answer = s.answer := rfl

@[simp] theorem resetRegs_devtime (p : Nat → Bool) (all : Bool) (s : State) : (resetRegs p all s).devtime = s.devtime := rfl

@[simp] theorem resetRegs_hbm (p : Nat → Bool) (all : Bool) (s : State) : (resetRegs p all s).hbm = s.hbm := rfl

@[simp] theorem resetRegs_hbmState (p : Nat → Bool) (all : Bool) (s : State) : (resetRegs p all s).hbmState = s.hbmState := rfl

@[simp] theorem resetRegs_log (p : Nat → Bool) (all : Bool) (s : State) : (resetRegs p all s).log = s.log := rfl

@[simp] theorem resetRegs_tiles (p : Nat → Bool) (all : Bool) (s : State) : (resetRegs p all s).tiles = s.tiles := rfl

@[simp] theorem resetRegs_req (p : Nat → Bool) (all : Bool) (s : State) : (resetRegs p all s).req = s.req := rfl

@[simp] theorem resetRegs_net (p : Nat → Bool) (all : Bool) (s : State) : (resetRegs p all s).net = s.net := rfl

@[simp] theorem resetRegs_links (p : Nat → Bool) (all : Bool) (s : State) : (resetRegs p all s).links = s.links := rfl

@[simp] theorem resetRegs_integ (p : Nat → Bool) (all : Bool) (s : State) : (resetRegs p all s).integ = s.integ := rfl

@[simp] theorem resetRegs_own (p : Nat → Bool) (all : Bool) (s : State) : (resetRegs p all s).own = s.own := rfl

@[simp] theorem resetRegs_power (p : Nat → Bool) (all : Bool) (s : State) : (resetRegs p all s).power = s.power := rfl

@[simp] theorem resetRegs_control (p : Nat → Bool) (all : Bool) (s : State) : (resetRegs p all s).control = s.control := rfl

@[simp] theorem resetRegs_clock (p : Nat → Bool) (all : Bool) (s : State) : (resetRegs p all s).clock = s.clock := rfl

@[simp] theorem resetRegs_boot (p : Nat → Bool) (all : Bool) (s : State) : (resetRegs p all s).boot = s.boot := rfl

@[simp] theorem resetRegs_life (p : Nat → Bool) (all : Bool) (s : State) : (resetRegs p all s).life = s.life := rfl

@[simp] theorem resetRegs_svc (p : Nat → Bool) (all : Bool) (s : State) : (resetRegs p all s).svc = s.svc := rfl

@[simp] theorem resetRegs_nvm (p : Nat → Bool) (all : Bool) (s : State) : (resetRegs p all s).nvm = s.nvm := rfl

@[simp] theorem resetRegs_spdm (p : Nat → Bool) (all : Bool) (s : State) : (resetRegs p all s).spdm = s.spdm := rfl

@[simp] theorem resetRegs_i3c (p : Nat → Bool) (all : Bool) (s : State) : (resetRegs p all s).i3c = s.i3c := rfl

@[simp] theorem resetRegs_host (p : Nat → Bool) (all : Bool) (s : State) : (resetRegs p all s).host = s.host := rfl

@[simp] theorem hbmWrite_pending (a : Nat) (bs : List Byte) (s : State) : (hbmWrite a bs s).pending = s.pending := rfl

@[simp] theorem hbmWrite_free (a : Nat) (bs : List Byte) (s : State) : (hbmWrite a bs s).free = s.free := rfl

@[simp] theorem hbmWrite_answer (a : Nat) (bs : List Byte) (s : State) : (hbmWrite a bs s).answer = s.answer := rfl

@[simp] theorem hbmWrite_devtime (a : Nat) (bs : List Byte) (s : State) : (hbmWrite a bs s).devtime = s.devtime := rfl

@[simp] theorem hbmWrite_regs (a : Nat) (bs : List Byte) (s : State) : (hbmWrite a bs s).regs = s.regs := rfl

@[simp] theorem hbmWrite_hbm (a : Nat) (bs : List Byte) (s : State) : (hbmWrite a bs s).hbm = storeBytes a bs s.hbm := rfl

@[simp] theorem hbmWrite_hbmState (a : Nat) (bs : List Byte) (s : State) : (hbmWrite a bs s).hbmState = s.hbmState := rfl

@[simp] theorem hbmWrite_log (a : Nat) (bs : List Byte) (s : State) : (hbmWrite a bs s).log = s.log := rfl

@[simp] theorem hbmWrite_tiles (a : Nat) (bs : List Byte) (s : State) : (hbmWrite a bs s).tiles = s.tiles := rfl

@[simp] theorem hbmWrite_req (a : Nat) (bs : List Byte) (s : State) : (hbmWrite a bs s).req = s.req := rfl

@[simp] theorem hbmWrite_net (a : Nat) (bs : List Byte) (s : State) : (hbmWrite a bs s).net = s.net := rfl

@[simp] theorem hbmWrite_links (a : Nat) (bs : List Byte) (s : State) : (hbmWrite a bs s).links = s.links := rfl

@[simp] theorem hbmWrite_integ (a : Nat) (bs : List Byte) (s : State) : (hbmWrite a bs s).integ = s.integ := rfl

@[simp] theorem hbmWrite_own (a : Nat) (bs : List Byte) (s : State) : (hbmWrite a bs s).own = s.own := rfl

@[simp] theorem hbmWrite_power (a : Nat) (bs : List Byte) (s : State) : (hbmWrite a bs s).power = s.power := rfl

@[simp] theorem hbmWrite_control (a : Nat) (bs : List Byte) (s : State) : (hbmWrite a bs s).control = s.control := rfl

@[simp] theorem hbmWrite_clock (a : Nat) (bs : List Byte) (s : State) : (hbmWrite a bs s).clock = s.clock := rfl

@[simp] theorem hbmWrite_boot (a : Nat) (bs : List Byte) (s : State) : (hbmWrite a bs s).boot = s.boot := rfl

@[simp] theorem hbmWrite_life (a : Nat) (bs : List Byte) (s : State) : (hbmWrite a bs s).life = s.life := rfl

@[simp] theorem hbmWrite_svc (a : Nat) (bs : List Byte) (s : State) : (hbmWrite a bs s).svc = s.svc := rfl

@[simp] theorem hbmWrite_nvm (a : Nat) (bs : List Byte) (s : State) : (hbmWrite a bs s).nvm = s.nvm := rfl

@[simp] theorem hbmWrite_spdm (a : Nat) (bs : List Byte) (s : State) : (hbmWrite a bs s).spdm = s.spdm := rfl

@[simp] theorem hbmWrite_i3c (a : Nat) (bs : List Byte) (s : State) : (hbmWrite a bs s).i3c = s.i3c := rfl

@[simp] theorem hbmWrite_host (a : Nat) (bs : List Byte) (s : State) : (hbmWrite a bs s).host = s.host := rfl

@[simp] theorem answer_pending (a : Answer) (s : State) : (answer a s).pending = s.pending := rfl

@[simp] theorem answer_free (a : Answer) (s : State) : (answer a s).free = s.free := rfl

@[simp] theorem answer_answer (a : Answer) (s : State) : (answer a s).answer = a := rfl

@[simp] theorem answer_devtime (a : Answer) (s : State) : (answer a s).devtime = s.devtime := rfl

@[simp] theorem answer_regs (a : Answer) (s : State) : (answer a s).regs = s.regs := rfl

@[simp] theorem answer_hbm (a : Answer) (s : State) : (answer a s).hbm = s.hbm := rfl

@[simp] theorem answer_hbmState (a : Answer) (s : State) : (answer a s).hbmState = s.hbmState := rfl

@[simp] theorem answer_log (a : Answer) (s : State) : (answer a s).log = s.log := rfl

@[simp] theorem answer_tiles (a : Answer) (s : State) : (answer a s).tiles = s.tiles := rfl

@[simp] theorem answer_req (a : Answer) (s : State) : (answer a s).req = s.req := rfl

@[simp] theorem answer_net (a : Answer) (s : State) : (answer a s).net = s.net := rfl

@[simp] theorem answer_links (a : Answer) (s : State) : (answer a s).links = s.links := rfl

@[simp] theorem answer_integ (a : Answer) (s : State) : (answer a s).integ = s.integ := rfl

@[simp] theorem answer_own (a : Answer) (s : State) : (answer a s).own = s.own := rfl

@[simp] theorem answer_power (a : Answer) (s : State) : (answer a s).power = s.power := rfl

@[simp] theorem answer_control (a : Answer) (s : State) : (answer a s).control = s.control := rfl

@[simp] theorem answer_clock (a : Answer) (s : State) : (answer a s).clock = s.clock := rfl

@[simp] theorem answer_boot (a : Answer) (s : State) : (answer a s).boot = s.boot := rfl

@[simp] theorem answer_life (a : Answer) (s : State) : (answer a s).life = s.life := rfl

@[simp] theorem answer_svc (a : Answer) (s : State) : (answer a s).svc = s.svc := rfl

@[simp] theorem answer_nvm (a : Answer) (s : State) : (answer a s).nvm = s.nvm := rfl

@[simp] theorem answer_spdm (a : Answer) (s : State) : (answer a s).spdm = s.spdm := rfl

@[simp] theorem answer_i3c (a : Answer) (s : State) : (answer a s).i3c = s.i3c := rfl

@[simp] theorem answer_host (a : Answer) (s : State) : (answer a s).host = s.host := rfl

@[simp] theorem clk_pending (f : ClockState → ClockState) (s : State) : (clk f s).pending = s.pending := rfl

@[simp] theorem clk_free (f : ClockState → ClockState) (s : State) : (clk f s).free = s.free := rfl

@[simp] theorem clk_answer (f : ClockState → ClockState) (s : State) : (clk f s).answer = s.answer := rfl

@[simp] theorem clk_devtime (f : ClockState → ClockState) (s : State) : (clk f s).devtime = s.devtime := rfl

@[simp] theorem clk_regs (f : ClockState → ClockState) (s : State) : (clk f s).regs = s.regs := rfl

@[simp] theorem clk_hbm (f : ClockState → ClockState) (s : State) : (clk f s).hbm = s.hbm := rfl

@[simp] theorem clk_hbmState (f : ClockState → ClockState) (s : State) : (clk f s).hbmState = s.hbmState := rfl

@[simp] theorem clk_log (f : ClockState → ClockState) (s : State) : (clk f s).log = s.log := rfl

@[simp] theorem clk_tiles (f : ClockState → ClockState) (s : State) : (clk f s).tiles = s.tiles := rfl

@[simp] theorem clk_req (f : ClockState → ClockState) (s : State) : (clk f s).req = s.req := rfl

@[simp] theorem clk_net (f : ClockState → ClockState) (s : State) : (clk f s).net = s.net := rfl

@[simp] theorem clk_links (f : ClockState → ClockState) (s : State) : (clk f s).links = s.links := rfl

@[simp] theorem clk_integ (f : ClockState → ClockState) (s : State) : (clk f s).integ = s.integ := rfl

@[simp] theorem clk_own (f : ClockState → ClockState) (s : State) : (clk f s).own = s.own := rfl

@[simp] theorem clk_power (f : ClockState → ClockState) (s : State) : (clk f s).power = s.power := rfl

@[simp] theorem clk_control (f : ClockState → ClockState) (s : State) : (clk f s).control = s.control := rfl

@[simp] theorem clk_clock (f : ClockState → ClockState) (s : State) : (clk f s).clock = f s.clock := rfl

@[simp] theorem clk_boot (f : ClockState → ClockState) (s : State) : (clk f s).boot = s.boot := rfl

@[simp] theorem clk_life (f : ClockState → ClockState) (s : State) : (clk f s).life = s.life := rfl

@[simp] theorem clk_svc (f : ClockState → ClockState) (s : State) : (clk f s).svc = s.svc := rfl

@[simp] theorem clk_nvm (f : ClockState → ClockState) (s : State) : (clk f s).nvm = s.nvm := rfl

@[simp] theorem clk_spdm (f : ClockState → ClockState) (s : State) : (clk f s).spdm = s.spdm := rfl

@[simp] theorem clk_i3c (f : ClockState → ClockState) (s : State) : (clk f s).i3c = s.i3c := rfl

@[simp] theorem clk_host (f : ClockState → ClockState) (s : State) : (clk f s).host = s.host := rfl

@[simp] theorem ctl_pending (f : ControlState → ControlState) (s : State) : (ctl f s).pending = s.pending := rfl

@[simp] theorem ctl_free (f : ControlState → ControlState) (s : State) : (ctl f s).free = s.free := rfl

@[simp] theorem ctl_answer (f : ControlState → ControlState) (s : State) : (ctl f s).answer = s.answer := rfl

@[simp] theorem ctl_devtime (f : ControlState → ControlState) (s : State) : (ctl f s).devtime = s.devtime := rfl

@[simp] theorem ctl_regs (f : ControlState → ControlState) (s : State) : (ctl f s).regs = s.regs := rfl

@[simp] theorem ctl_hbm (f : ControlState → ControlState) (s : State) : (ctl f s).hbm = s.hbm := rfl

@[simp] theorem ctl_hbmState (f : ControlState → ControlState) (s : State) : (ctl f s).hbmState = s.hbmState := rfl

@[simp] theorem ctl_log (f : ControlState → ControlState) (s : State) : (ctl f s).log = s.log := rfl

@[simp] theorem ctl_tiles (f : ControlState → ControlState) (s : State) : (ctl f s).tiles = s.tiles := rfl

@[simp] theorem ctl_req (f : ControlState → ControlState) (s : State) : (ctl f s).req = s.req := rfl

@[simp] theorem ctl_net (f : ControlState → ControlState) (s : State) : (ctl f s).net = s.net := rfl

@[simp] theorem ctl_links (f : ControlState → ControlState) (s : State) : (ctl f s).links = s.links := rfl

@[simp] theorem ctl_integ (f : ControlState → ControlState) (s : State) : (ctl f s).integ = s.integ := rfl

@[simp] theorem ctl_own (f : ControlState → ControlState) (s : State) : (ctl f s).own = s.own := rfl

@[simp] theorem ctl_power (f : ControlState → ControlState) (s : State) : (ctl f s).power = s.power := rfl

@[simp] theorem ctl_control (f : ControlState → ControlState) (s : State) : (ctl f s).control = f s.control := rfl

@[simp] theorem ctl_clock (f : ControlState → ControlState) (s : State) : (ctl f s).clock = s.clock := rfl

@[simp] theorem ctl_boot (f : ControlState → ControlState) (s : State) : (ctl f s).boot = s.boot := rfl

@[simp] theorem ctl_life (f : ControlState → ControlState) (s : State) : (ctl f s).life = s.life := rfl

@[simp] theorem ctl_svc (f : ControlState → ControlState) (s : State) : (ctl f s).svc = s.svc := rfl

@[simp] theorem ctl_nvm (f : ControlState → ControlState) (s : State) : (ctl f s).nvm = s.nvm := rfl

@[simp] theorem ctl_spdm (f : ControlState → ControlState) (s : State) : (ctl f s).spdm = s.spdm := rfl

@[simp] theorem ctl_i3c (f : ControlState → ControlState) (s : State) : (ctl f s).i3c = s.i3c := rfl

@[simp] theorem ctl_host (f : ControlState → ControlState) (s : State) : (ctl f s).host = s.host := rfl

@[simp] theorem i3_pending (f : I3cState → I3cState) (s : State) : (i3 f s).pending = s.pending := rfl

@[simp] theorem i3_free (f : I3cState → I3cState) (s : State) : (i3 f s).free = s.free := rfl

@[simp] theorem i3_answer (f : I3cState → I3cState) (s : State) : (i3 f s).answer = s.answer := rfl

@[simp] theorem i3_devtime (f : I3cState → I3cState) (s : State) : (i3 f s).devtime = s.devtime := rfl

@[simp] theorem i3_regs (f : I3cState → I3cState) (s : State) : (i3 f s).regs = s.regs := rfl

@[simp] theorem i3_hbm (f : I3cState → I3cState) (s : State) : (i3 f s).hbm = s.hbm := rfl

@[simp] theorem i3_hbmState (f : I3cState → I3cState) (s : State) : (i3 f s).hbmState = s.hbmState := rfl

@[simp] theorem i3_log (f : I3cState → I3cState) (s : State) : (i3 f s).log = s.log := rfl

@[simp] theorem i3_tiles (f : I3cState → I3cState) (s : State) : (i3 f s).tiles = s.tiles := rfl

@[simp] theorem i3_req (f : I3cState → I3cState) (s : State) : (i3 f s).req = s.req := rfl

@[simp] theorem i3_net (f : I3cState → I3cState) (s : State) : (i3 f s).net = s.net := rfl

@[simp] theorem i3_links (f : I3cState → I3cState) (s : State) : (i3 f s).links = s.links := rfl

@[simp] theorem i3_integ (f : I3cState → I3cState) (s : State) : (i3 f s).integ = s.integ := rfl

@[simp] theorem i3_own (f : I3cState → I3cState) (s : State) : (i3 f s).own = s.own := rfl

@[simp] theorem i3_power (f : I3cState → I3cState) (s : State) : (i3 f s).power = s.power := rfl

@[simp] theorem i3_control (f : I3cState → I3cState) (s : State) : (i3 f s).control = s.control := rfl

@[simp] theorem i3_clock (f : I3cState → I3cState) (s : State) : (i3 f s).clock = s.clock := rfl

@[simp] theorem i3_boot (f : I3cState → I3cState) (s : State) : (i3 f s).boot = s.boot := rfl

@[simp] theorem i3_life (f : I3cState → I3cState) (s : State) : (i3 f s).life = s.life := rfl

@[simp] theorem i3_svc (f : I3cState → I3cState) (s : State) : (i3 f s).svc = s.svc := rfl

@[simp] theorem i3_nvm (f : I3cState → I3cState) (s : State) : (i3 f s).nvm = s.nvm := rfl

@[simp] theorem i3_spdm (f : I3cState → I3cState) (s : State) : (i3 f s).spdm = s.spdm := rfl

@[simp] theorem i3_i3c (f : I3cState → I3cState) (s : State) : (i3 f s).i3c = f s.i3c := rfl

@[simp] theorem i3_host (f : I3cState → I3cState) (s : State) : (i3 f s).host = s.host := rfl

@[simp] theorem itg_pending (f : IntegState → IntegState) (s : State) : (itg f s).pending = s.pending := rfl

@[simp] theorem itg_free (f : IntegState → IntegState) (s : State) : (itg f s).free = s.free := rfl

@[simp] theorem itg_answer (f : IntegState → IntegState) (s : State) : (itg f s).answer = s.answer := rfl

@[simp] theorem itg_devtime (f : IntegState → IntegState) (s : State) : (itg f s).devtime = s.devtime := rfl

@[simp] theorem itg_regs (f : IntegState → IntegState) (s : State) : (itg f s).regs = s.regs := rfl

@[simp] theorem itg_hbm (f : IntegState → IntegState) (s : State) : (itg f s).hbm = s.hbm := rfl

@[simp] theorem itg_hbmState (f : IntegState → IntegState) (s : State) : (itg f s).hbmState = s.hbmState := rfl

@[simp] theorem itg_log (f : IntegState → IntegState) (s : State) : (itg f s).log = s.log := rfl

@[simp] theorem itg_tiles (f : IntegState → IntegState) (s : State) : (itg f s).tiles = s.tiles := rfl

@[simp] theorem itg_req (f : IntegState → IntegState) (s : State) : (itg f s).req = s.req := rfl

@[simp] theorem itg_net (f : IntegState → IntegState) (s : State) : (itg f s).net = s.net := rfl

@[simp] theorem itg_links (f : IntegState → IntegState) (s : State) : (itg f s).links = s.links := rfl

@[simp] theorem itg_integ (f : IntegState → IntegState) (s : State) : (itg f s).integ = f s.integ := rfl

@[simp] theorem itg_own (f : IntegState → IntegState) (s : State) : (itg f s).own = s.own := rfl

@[simp] theorem itg_power (f : IntegState → IntegState) (s : State) : (itg f s).power = s.power := rfl

@[simp] theorem itg_control (f : IntegState → IntegState) (s : State) : (itg f s).control = s.control := rfl

@[simp] theorem itg_clock (f : IntegState → IntegState) (s : State) : (itg f s).clock = s.clock := rfl

@[simp] theorem itg_boot (f : IntegState → IntegState) (s : State) : (itg f s).boot = s.boot := rfl

@[simp] theorem itg_life (f : IntegState → IntegState) (s : State) : (itg f s).life = s.life := rfl

@[simp] theorem itg_svc (f : IntegState → IntegState) (s : State) : (itg f s).svc = s.svc := rfl

@[simp] theorem itg_nvm (f : IntegState → IntegState) (s : State) : (itg f s).nvm = s.nvm := rfl

@[simp] theorem itg_spdm (f : IntegState → IntegState) (s : State) : (itg f s).spdm = s.spdm := rfl

@[simp] theorem itg_i3c (f : IntegState → IntegState) (s : State) : (itg f s).i3c = s.i3c := rfl

@[simp] theorem itg_host (f : IntegState → IntegState) (s : State) : (itg f s).host = s.host := rfl

@[simp] theorem nv_pending (f : NvmState → NvmState) (s : State) : (nv f s).pending = s.pending := rfl

@[simp] theorem nv_free (f : NvmState → NvmState) (s : State) : (nv f s).free = s.free := rfl

@[simp] theorem nv_answer (f : NvmState → NvmState) (s : State) : (nv f s).answer = s.answer := rfl

@[simp] theorem nv_devtime (f : NvmState → NvmState) (s : State) : (nv f s).devtime = s.devtime := rfl

@[simp] theorem nv_regs (f : NvmState → NvmState) (s : State) : (nv f s).regs = s.regs := rfl

@[simp] theorem nv_hbm (f : NvmState → NvmState) (s : State) : (nv f s).hbm = s.hbm := rfl

@[simp] theorem nv_hbmState (f : NvmState → NvmState) (s : State) : (nv f s).hbmState = s.hbmState := rfl

@[simp] theorem nv_log (f : NvmState → NvmState) (s : State) : (nv f s).log = s.log := rfl

@[simp] theorem nv_tiles (f : NvmState → NvmState) (s : State) : (nv f s).tiles = s.tiles := rfl

@[simp] theorem nv_req (f : NvmState → NvmState) (s : State) : (nv f s).req = s.req := rfl

@[simp] theorem nv_net (f : NvmState → NvmState) (s : State) : (nv f s).net = s.net := rfl

@[simp] theorem nv_links (f : NvmState → NvmState) (s : State) : (nv f s).links = s.links := rfl

@[simp] theorem nv_integ (f : NvmState → NvmState) (s : State) : (nv f s).integ = s.integ := rfl

@[simp] theorem nv_own (f : NvmState → NvmState) (s : State) : (nv f s).own = s.own := rfl

@[simp] theorem nv_power (f : NvmState → NvmState) (s : State) : (nv f s).power = s.power := rfl

@[simp] theorem nv_control (f : NvmState → NvmState) (s : State) : (nv f s).control = s.control := rfl

@[simp] theorem nv_clock (f : NvmState → NvmState) (s : State) : (nv f s).clock = s.clock := rfl

@[simp] theorem nv_boot (f : NvmState → NvmState) (s : State) : (nv f s).boot = s.boot := rfl

@[simp] theorem nv_life (f : NvmState → NvmState) (s : State) : (nv f s).life = s.life := rfl

@[simp] theorem nv_svc (f : NvmState → NvmState) (s : State) : (nv f s).svc = s.svc := rfl

@[simp] theorem nv_nvm (f : NvmState → NvmState) (s : State) : (nv f s).nvm = f s.nvm := rfl

@[simp] theorem nv_spdm (f : NvmState → NvmState) (s : State) : (nv f s).spdm = s.spdm := rfl

@[simp] theorem nv_i3c (f : NvmState → NvmState) (s : State) : (nv f s).i3c = s.i3c := rfl

@[simp] theorem nv_host (f : NvmState → NvmState) (s : State) : (nv f s).host = s.host := rfl

@[simp] theorem bt_pending (f : BootState → BootState) (s : State) : (bt f s).pending = s.pending := rfl

@[simp] theorem bt_free (f : BootState → BootState) (s : State) : (bt f s).free = s.free := rfl

@[simp] theorem bt_answer (f : BootState → BootState) (s : State) : (bt f s).answer = s.answer := rfl

@[simp] theorem bt_devtime (f : BootState → BootState) (s : State) : (bt f s).devtime = s.devtime := rfl

@[simp] theorem bt_regs (f : BootState → BootState) (s : State) : (bt f s).regs = s.regs := rfl

@[simp] theorem bt_hbm (f : BootState → BootState) (s : State) : (bt f s).hbm = s.hbm := rfl

@[simp] theorem bt_hbmState (f : BootState → BootState) (s : State) : (bt f s).hbmState = s.hbmState := rfl

@[simp] theorem bt_log (f : BootState → BootState) (s : State) : (bt f s).log = s.log := rfl

@[simp] theorem bt_tiles (f : BootState → BootState) (s : State) : (bt f s).tiles = s.tiles := rfl

@[simp] theorem bt_req (f : BootState → BootState) (s : State) : (bt f s).req = s.req := rfl

@[simp] theorem bt_net (f : BootState → BootState) (s : State) : (bt f s).net = s.net := rfl

@[simp] theorem bt_links (f : BootState → BootState) (s : State) : (bt f s).links = s.links := rfl

@[simp] theorem bt_integ (f : BootState → BootState) (s : State) : (bt f s).integ = s.integ := rfl

@[simp] theorem bt_own (f : BootState → BootState) (s : State) : (bt f s).own = s.own := rfl

@[simp] theorem bt_power (f : BootState → BootState) (s : State) : (bt f s).power = s.power := rfl

@[simp] theorem bt_control (f : BootState → BootState) (s : State) : (bt f s).control = s.control := rfl

@[simp] theorem bt_clock (f : BootState → BootState) (s : State) : (bt f s).clock = s.clock := rfl

@[simp] theorem bt_boot (f : BootState → BootState) (s : State) : (bt f s).boot = f s.boot := rfl

@[simp] theorem bt_life (f : BootState → BootState) (s : State) : (bt f s).life = s.life := rfl

@[simp] theorem bt_svc (f : BootState → BootState) (s : State) : (bt f s).svc = s.svc := rfl

@[simp] theorem bt_nvm (f : BootState → BootState) (s : State) : (bt f s).nvm = s.nvm := rfl

@[simp] theorem bt_spdm (f : BootState → BootState) (s : State) : (bt f s).spdm = s.spdm := rfl

@[simp] theorem bt_i3c (f : BootState → BootState) (s : State) : (bt f s).i3c = s.i3c := rfl

@[simp] theorem bt_host (f : BootState → BootState) (s : State) : (bt f s).host = s.host := rfl

@[simp] theorem sv_pending (f : SvcState → SvcState) (s : State) : (sv f s).pending = s.pending := rfl

@[simp] theorem sv_free (f : SvcState → SvcState) (s : State) : (sv f s).free = s.free := rfl

@[simp] theorem sv_answer (f : SvcState → SvcState) (s : State) : (sv f s).answer = s.answer := rfl

@[simp] theorem sv_devtime (f : SvcState → SvcState) (s : State) : (sv f s).devtime = s.devtime := rfl

@[simp] theorem sv_regs (f : SvcState → SvcState) (s : State) : (sv f s).regs = s.regs := rfl

@[simp] theorem sv_hbm (f : SvcState → SvcState) (s : State) : (sv f s).hbm = s.hbm := rfl

@[simp] theorem sv_hbmState (f : SvcState → SvcState) (s : State) : (sv f s).hbmState = s.hbmState := rfl

@[simp] theorem sv_log (f : SvcState → SvcState) (s : State) : (sv f s).log = s.log := rfl

@[simp] theorem sv_tiles (f : SvcState → SvcState) (s : State) : (sv f s).tiles = s.tiles := rfl

@[simp] theorem sv_req (f : SvcState → SvcState) (s : State) : (sv f s).req = s.req := rfl

@[simp] theorem sv_net (f : SvcState → SvcState) (s : State) : (sv f s).net = s.net := rfl

@[simp] theorem sv_links (f : SvcState → SvcState) (s : State) : (sv f s).links = s.links := rfl

@[simp] theorem sv_integ (f : SvcState → SvcState) (s : State) : (sv f s).integ = s.integ := rfl

@[simp] theorem sv_own (f : SvcState → SvcState) (s : State) : (sv f s).own = s.own := rfl

@[simp] theorem sv_power (f : SvcState → SvcState) (s : State) : (sv f s).power = s.power := rfl

@[simp] theorem sv_control (f : SvcState → SvcState) (s : State) : (sv f s).control = s.control := rfl

@[simp] theorem sv_clock (f : SvcState → SvcState) (s : State) : (sv f s).clock = s.clock := rfl

@[simp] theorem sv_boot (f : SvcState → SvcState) (s : State) : (sv f s).boot = s.boot := rfl

@[simp] theorem sv_life (f : SvcState → SvcState) (s : State) : (sv f s).life = s.life := rfl

@[simp] theorem sv_svc (f : SvcState → SvcState) (s : State) : (sv f s).svc = f s.svc := rfl

@[simp] theorem sv_nvm (f : SvcState → SvcState) (s : State) : (sv f s).nvm = s.nvm := rfl

@[simp] theorem sv_spdm (f : SvcState → SvcState) (s : State) : (sv f s).spdm = s.spdm := rfl

@[simp] theorem sv_i3c (f : SvcState → SvcState) (s : State) : (sv f s).i3c = s.i3c := rfl

@[simp] theorem sv_host (f : SvcState → SvcState) (s : State) : (sv f s).host = s.host := rfl

@[simp] theorem mapReqs_pending (f : Request → Request) (s : State) : (mapReqs f s).pending = s.pending := rfl

@[simp] theorem mapReqs_free (f : Request → Request) (s : State) : (mapReqs f s).free = s.free := rfl

@[simp] theorem mapReqs_answer (f : Request → Request) (s : State) : (mapReqs f s).answer = s.answer := rfl

@[simp] theorem mapReqs_devtime (f : Request → Request) (s : State) : (mapReqs f s).devtime = s.devtime := rfl

@[simp] theorem mapReqs_regs (f : Request → Request) (s : State) : (mapReqs f s).regs = s.regs := rfl

@[simp] theorem mapReqs_hbm (f : Request → Request) (s : State) : (mapReqs f s).hbm = s.hbm := rfl

@[simp] theorem mapReqs_hbmState (f : Request → Request) (s : State) : (mapReqs f s).hbmState = s.hbmState := rfl

@[simp] theorem mapReqs_log (f : Request → Request) (s : State) : (mapReqs f s).log = s.log := rfl

@[simp] theorem mapReqs_tiles (f : Request → Request) (s : State) : (mapReqs f s).tiles = s.tiles := rfl

@[simp] theorem mapReqs_net (f : Request → Request) (s : State) : (mapReqs f s).net = s.net := rfl

@[simp] theorem mapReqs_links (f : Request → Request) (s : State) : (mapReqs f s).links = s.links := rfl

@[simp] theorem mapReqs_integ (f : Request → Request) (s : State) : (mapReqs f s).integ = s.integ := rfl

@[simp] theorem mapReqs_own (f : Request → Request) (s : State) : (mapReqs f s).own = s.own := rfl

@[simp] theorem mapReqs_power (f : Request → Request) (s : State) : (mapReqs f s).power = s.power := rfl

@[simp] theorem mapReqs_control (f : Request → Request) (s : State) : (mapReqs f s).control = s.control := rfl

@[simp] theorem mapReqs_clock (f : Request → Request) (s : State) : (mapReqs f s).clock = s.clock := rfl

@[simp] theorem mapReqs_boot (f : Request → Request) (s : State) : (mapReqs f s).boot = s.boot := rfl

@[simp] theorem mapReqs_life (f : Request → Request) (s : State) : (mapReqs f s).life = s.life := rfl

@[simp] theorem mapReqs_svc (f : Request → Request) (s : State) : (mapReqs f s).svc = s.svc := rfl

@[simp] theorem mapReqs_nvm (f : Request → Request) (s : State) : (mapReqs f s).nvm = s.nvm := rfl

@[simp] theorem mapReqs_spdm (f : Request → Request) (s : State) : (mapReqs f s).spdm = s.spdm := rfl

@[simp] theorem mapReqs_i3c (f : Request → Request) (s : State) : (mapReqs f s).i3c = s.i3c := rfl

@[simp] theorem mapReqs_host (f : Request → Request) (s : State) : (mapReqs f s).host = s.host := rfl

@[simp] theorem setTile_pending (t : Nat) (x : TileState) (s : State) : (setTile t x s).pending = s.pending := rfl

@[simp] theorem setTile_free (t : Nat) (x : TileState) (s : State) : (setTile t x s).free = s.free := rfl

@[simp] theorem setTile_answer (t : Nat) (x : TileState) (s : State) : (setTile t x s).answer = s.answer := rfl

@[simp] theorem setTile_devtime (t : Nat) (x : TileState) (s : State) : (setTile t x s).devtime = s.devtime := rfl

@[simp] theorem setTile_regs (t : Nat) (x : TileState) (s : State) : (setTile t x s).regs = s.regs := rfl

@[simp] theorem setTile_hbm (t : Nat) (x : TileState) (s : State) : (setTile t x s).hbm = s.hbm := rfl

@[simp] theorem setTile_hbmState (t : Nat) (x : TileState) (s : State) : (setTile t x s).hbmState = s.hbmState := rfl

@[simp] theorem setTile_log (t : Nat) (x : TileState) (s : State) : (setTile t x s).log = s.log := rfl

@[simp] theorem setTile_req (t : Nat) (x : TileState) (s : State) : (setTile t x s).req = s.req := rfl

@[simp] theorem setTile_net (t : Nat) (x : TileState) (s : State) : (setTile t x s).net = s.net := rfl

@[simp] theorem setTile_links (t : Nat) (x : TileState) (s : State) : (setTile t x s).links = s.links := rfl

@[simp] theorem setTile_integ (t : Nat) (x : TileState) (s : State) : (setTile t x s).integ = s.integ := rfl

@[simp] theorem setTile_own (t : Nat) (x : TileState) (s : State) : (setTile t x s).own = s.own := rfl

@[simp] theorem setTile_power (t : Nat) (x : TileState) (s : State) : (setTile t x s).power = s.power := rfl

@[simp] theorem setTile_control (t : Nat) (x : TileState) (s : State) : (setTile t x s).control = s.control := rfl

@[simp] theorem setTile_clock (t : Nat) (x : TileState) (s : State) : (setTile t x s).clock = s.clock := rfl

@[simp] theorem setTile_boot (t : Nat) (x : TileState) (s : State) : (setTile t x s).boot = s.boot := rfl

@[simp] theorem setTile_life (t : Nat) (x : TileState) (s : State) : (setTile t x s).life = s.life := rfl

@[simp] theorem setTile_svc (t : Nat) (x : TileState) (s : State) : (setTile t x s).svc = s.svc := rfl

@[simp] theorem setTile_nvm (t : Nat) (x : TileState) (s : State) : (setTile t x s).nvm = s.nvm := rfl

@[simp] theorem setTile_spdm (t : Nat) (x : TileState) (s : State) : (setTile t x s).spdm = s.spdm := rfl

@[simp] theorem setTile_i3c (t : Nat) (x : TileState) (s : State) : (setTile t x s).i3c = s.i3c := rfl

@[simp] theorem setTile_host (t : Nat) (x : TileState) (s : State) : (setTile t x s).host = s.host := rfl

@[simp] theorem updTile_pending (t : Nat) (f : TileState → TileState) (s : State) : (updTile t f s).pending = s.pending := rfl

@[simp] theorem updTile_free (t : Nat) (f : TileState → TileState) (s : State) : (updTile t f s).free = s.free := rfl

@[simp] theorem updTile_answer (t : Nat) (f : TileState → TileState) (s : State) : (updTile t f s).answer = s.answer := rfl

@[simp] theorem updTile_devtime (t : Nat) (f : TileState → TileState) (s : State) : (updTile t f s).devtime = s.devtime := rfl

@[simp] theorem updTile_regs (t : Nat) (f : TileState → TileState) (s : State) : (updTile t f s).regs = s.regs := rfl

@[simp] theorem updTile_hbm (t : Nat) (f : TileState → TileState) (s : State) : (updTile t f s).hbm = s.hbm := rfl

@[simp] theorem updTile_hbmState (t : Nat) (f : TileState → TileState) (s : State) : (updTile t f s).hbmState = s.hbmState := rfl

@[simp] theorem updTile_log (t : Nat) (f : TileState → TileState) (s : State) : (updTile t f s).log = s.log := rfl

@[simp] theorem updTile_req (t : Nat) (f : TileState → TileState) (s : State) : (updTile t f s).req = s.req := rfl

@[simp] theorem updTile_net (t : Nat) (f : TileState → TileState) (s : State) : (updTile t f s).net = s.net := rfl

@[simp] theorem updTile_links (t : Nat) (f : TileState → TileState) (s : State) : (updTile t f s).links = s.links := rfl

@[simp] theorem updTile_integ (t : Nat) (f : TileState → TileState) (s : State) : (updTile t f s).integ = s.integ := rfl

@[simp] theorem updTile_own (t : Nat) (f : TileState → TileState) (s : State) : (updTile t f s).own = s.own := rfl

@[simp] theorem updTile_power (t : Nat) (f : TileState → TileState) (s : State) : (updTile t f s).power = s.power := rfl

@[simp] theorem updTile_control (t : Nat) (f : TileState → TileState) (s : State) : (updTile t f s).control = s.control := rfl

@[simp] theorem updTile_clock (t : Nat) (f : TileState → TileState) (s : State) : (updTile t f s).clock = s.clock := rfl

@[simp] theorem updTile_boot (t : Nat) (f : TileState → TileState) (s : State) : (updTile t f s).boot = s.boot := rfl

@[simp] theorem updTile_life (t : Nat) (f : TileState → TileState) (s : State) : (updTile t f s).life = s.life := rfl

@[simp] theorem updTile_svc (t : Nat) (f : TileState → TileState) (s : State) : (updTile t f s).svc = s.svc := rfl

@[simp] theorem updTile_nvm (t : Nat) (f : TileState → TileState) (s : State) : (updTile t f s).nvm = s.nvm := rfl

@[simp] theorem updTile_spdm (t : Nat) (f : TileState → TileState) (s : State) : (updTile t f s).spdm = s.spdm := rfl

@[simp] theorem updTile_i3c (t : Nat) (f : TileState → TileState) (s : State) : (updTile t f s).i3c = s.i3c := rfl

@[simp] theorem updTile_host (t : Nat) (f : TileState → TileState) (s : State) : (updTile t f s).host = s.host := rfl

@[simp] theorem setLink_pending (n : Nat) (x : LinkRun) (s : State) : (setLink n x s).pending = s.pending := rfl

@[simp] theorem setLink_free (n : Nat) (x : LinkRun) (s : State) : (setLink n x s).free = s.free := rfl

@[simp] theorem setLink_answer (n : Nat) (x : LinkRun) (s : State) : (setLink n x s).answer = s.answer := rfl

@[simp] theorem setLink_devtime (n : Nat) (x : LinkRun) (s : State) : (setLink n x s).devtime = s.devtime := rfl

@[simp] theorem setLink_regs (n : Nat) (x : LinkRun) (s : State) : (setLink n x s).regs = s.regs := rfl

@[simp] theorem setLink_hbm (n : Nat) (x : LinkRun) (s : State) : (setLink n x s).hbm = s.hbm := rfl

@[simp] theorem setLink_hbmState (n : Nat) (x : LinkRun) (s : State) : (setLink n x s).hbmState = s.hbmState := rfl

@[simp] theorem setLink_log (n : Nat) (x : LinkRun) (s : State) : (setLink n x s).log = s.log := rfl

@[simp] theorem setLink_tiles (n : Nat) (x : LinkRun) (s : State) : (setLink n x s).tiles = s.tiles := rfl

@[simp] theorem setLink_req (n : Nat) (x : LinkRun) (s : State) : (setLink n x s).req = s.req := rfl

@[simp] theorem setLink_net (n : Nat) (x : LinkRun) (s : State) : (setLink n x s).net = s.net := rfl

@[simp] theorem setLink_integ (n : Nat) (x : LinkRun) (s : State) : (setLink n x s).integ = s.integ := rfl

@[simp] theorem setLink_own (n : Nat) (x : LinkRun) (s : State) : (setLink n x s).own = s.own := rfl

@[simp] theorem setLink_power (n : Nat) (x : LinkRun) (s : State) : (setLink n x s).power = s.power := rfl

@[simp] theorem setLink_control (n : Nat) (x : LinkRun) (s : State) : (setLink n x s).control = s.control := rfl

@[simp] theorem setLink_clock (n : Nat) (x : LinkRun) (s : State) : (setLink n x s).clock = s.clock := rfl

@[simp] theorem setLink_boot (n : Nat) (x : LinkRun) (s : State) : (setLink n x s).boot = s.boot := rfl

@[simp] theorem setLink_life (n : Nat) (x : LinkRun) (s : State) : (setLink n x s).life = s.life := rfl

@[simp] theorem setLink_svc (n : Nat) (x : LinkRun) (s : State) : (setLink n x s).svc = s.svc := rfl

@[simp] theorem setLink_nvm (n : Nat) (x : LinkRun) (s : State) : (setLink n x s).nvm = s.nvm := rfl

@[simp] theorem setLink_spdm (n : Nat) (x : LinkRun) (s : State) : (setLink n x s).spdm = s.spdm := rfl

@[simp] theorem setLink_i3c (n : Nat) (x : LinkRun) (s : State) : (setLink n x s).i3c = s.i3c := rfl

@[simp] theorem setLink_host (n : Nat) (x : LinkRun) (s : State) : (setLink n x s).host = s.host := rfl

@[simp] theorem updLink_pending (n : Nat) (f : LinkRun → LinkRun) (s : State) : (updLink n f s).pending = s.pending := rfl

@[simp] theorem updLink_free (n : Nat) (f : LinkRun → LinkRun) (s : State) : (updLink n f s).free = s.free := rfl

@[simp] theorem updLink_answer (n : Nat) (f : LinkRun → LinkRun) (s : State) : (updLink n f s).answer = s.answer := rfl

@[simp] theorem updLink_devtime (n : Nat) (f : LinkRun → LinkRun) (s : State) : (updLink n f s).devtime = s.devtime := rfl

@[simp] theorem updLink_regs (n : Nat) (f : LinkRun → LinkRun) (s : State) : (updLink n f s).regs = s.regs := rfl

@[simp] theorem updLink_hbm (n : Nat) (f : LinkRun → LinkRun) (s : State) : (updLink n f s).hbm = s.hbm := rfl

@[simp] theorem updLink_hbmState (n : Nat) (f : LinkRun → LinkRun) (s : State) : (updLink n f s).hbmState = s.hbmState := rfl

@[simp] theorem updLink_log (n : Nat) (f : LinkRun → LinkRun) (s : State) : (updLink n f s).log = s.log := rfl

@[simp] theorem updLink_tiles (n : Nat) (f : LinkRun → LinkRun) (s : State) : (updLink n f s).tiles = s.tiles := rfl

@[simp] theorem updLink_req (n : Nat) (f : LinkRun → LinkRun) (s : State) : (updLink n f s).req = s.req := rfl

@[simp] theorem updLink_net (n : Nat) (f : LinkRun → LinkRun) (s : State) : (updLink n f s).net = s.net := rfl

@[simp] theorem updLink_integ (n : Nat) (f : LinkRun → LinkRun) (s : State) : (updLink n f s).integ = s.integ := rfl

@[simp] theorem updLink_own (n : Nat) (f : LinkRun → LinkRun) (s : State) : (updLink n f s).own = s.own := rfl

@[simp] theorem updLink_power (n : Nat) (f : LinkRun → LinkRun) (s : State) : (updLink n f s).power = s.power := rfl

@[simp] theorem updLink_control (n : Nat) (f : LinkRun → LinkRun) (s : State) : (updLink n f s).control = s.control := rfl

@[simp] theorem updLink_clock (n : Nat) (f : LinkRun → LinkRun) (s : State) : (updLink n f s).clock = s.clock := rfl

@[simp] theorem updLink_boot (n : Nat) (f : LinkRun → LinkRun) (s : State) : (updLink n f s).boot = s.boot := rfl

@[simp] theorem updLink_life (n : Nat) (f : LinkRun → LinkRun) (s : State) : (updLink n f s).life = s.life := rfl

@[simp] theorem updLink_svc (n : Nat) (f : LinkRun → LinkRun) (s : State) : (updLink n f s).svc = s.svc := rfl

@[simp] theorem updLink_nvm (n : Nat) (f : LinkRun → LinkRun) (s : State) : (updLink n f s).nvm = s.nvm := rfl

@[simp] theorem updLink_spdm (n : Nat) (f : LinkRun → LinkRun) (s : State) : (updLink n f s).spdm = s.spdm := rfl

@[simp] theorem updLink_i3c (n : Nat) (f : LinkRun → LinkRun) (s : State) : (updLink n f s).i3c = s.i3c := rfl

@[simp] theorem updLink_host (n : Nat) (f : LinkRun → LinkRun) (s : State) : (updLink n f s).host = s.host := rfl

@[simp] theorem spdmClose_pending (k : Nat) (s : State) : (spdmClose k s).pending = s.pending := rfl

@[simp] theorem spdmClose_free (k : Nat) (s : State) : (spdmClose k s).free = s.free := rfl

@[simp] theorem spdmClose_answer (k : Nat) (s : State) : (spdmClose k s).answer = s.answer := rfl

@[simp] theorem spdmClose_devtime (k : Nat) (s : State) : (spdmClose k s).devtime = s.devtime := rfl

@[simp] theorem spdmClose_regs (k : Nat) (s : State) : (spdmClose k s).regs = s.regs := rfl

@[simp] theorem spdmClose_hbm (k : Nat) (s : State) : (spdmClose k s).hbm = s.hbm := rfl

@[simp] theorem spdmClose_hbmState (k : Nat) (s : State) : (spdmClose k s).hbmState = s.hbmState := rfl

@[simp] theorem spdmClose_log (k : Nat) (s : State) : (spdmClose k s).log = s.log := rfl

@[simp] theorem spdmClose_tiles (k : Nat) (s : State) : (spdmClose k s).tiles = s.tiles := rfl

@[simp] theorem spdmClose_req (k : Nat) (s : State) : (spdmClose k s).req = s.req := rfl

@[simp] theorem spdmClose_net (k : Nat) (s : State) : (spdmClose k s).net = s.net := rfl

@[simp] theorem spdmClose_links (k : Nat) (s : State) : (spdmClose k s).links = s.links := rfl

@[simp] theorem spdmClose_integ (k : Nat) (s : State) : (spdmClose k s).integ = s.integ := rfl

@[simp] theorem spdmClose_own (k : Nat) (s : State) : (spdmClose k s).own = s.own := rfl

@[simp] theorem spdmClose_power (k : Nat) (s : State) : (spdmClose k s).power = s.power := rfl

@[simp] theorem spdmClose_control (k : Nat) (s : State) : (spdmClose k s).control = s.control := rfl

@[simp] theorem spdmClose_clock (k : Nat) (s : State) : (spdmClose k s).clock = s.clock := rfl

@[simp] theorem spdmClose_boot (k : Nat) (s : State) : (spdmClose k s).boot = s.boot := rfl

@[simp] theorem spdmClose_life (k : Nat) (s : State) : (spdmClose k s).life = s.life := rfl

@[simp] theorem spdmClose_svc (k : Nat) (s : State) : (spdmClose k s).svc = s.svc := rfl

@[simp] theorem spdmClose_nvm (k : Nat) (s : State) : (spdmClose k s).nvm = s.nvm := rfl

@[simp] theorem spdmClose_i3c (k : Nat) (s : State) : (spdmClose k s).i3c = s.i3c := rfl

@[simp] theorem spdmClose_host (k : Nat) (s : State) : (spdmClose k s).host = s.host := rfl

/-! ### Registers -/

theorem rd_put (o off : Nat) (v : Reg) (s : State) : rd (put off v s) o = if o = off then v else rd s o := by
  unfold rd
  rw [put_regs]
  split
  · rename_i h
    rw [h]
    exact tget_tset_same _ _ _ _
  · rename_i h
    exact tget_tset_of_ne _ h _ _

@[simp] theorem rd_put_same (off : Nat) (v : Reg) (s : State) : rd (put off v s) off = v := by simp [rd_put]

theorem rd_put_ne {o off : Nat} (h : o ≠ off) (v : Reg) (s : State) : rd (put off v s) o = rd s o := by simp [rd_put, h]

theorem rd_upd (o off : Nat) (f : Fld) (x : Nat) (s : State) :
    rd (upd off f x s) o = if o = off then setF (rd s off) f x else rd s o := rd_put _ _ _ _

theorem rd_upd_ne {o off : Nat} (h : o ≠ off) (f : Fld) (x : Nat) (s : State) : rd (upd off f x s) o = rd s o :=
  rd_put_ne h _ _

@[simp] theorem rd_hbmWrite (a : Nat) (bs : List Byte) (s : State) (o : Nat) : rd (hbmWrite a bs s) o = rd s o := rfl

@[simp] theorem get_hbmWrite (a : Nat) (bs : List Byte) (s : State) (o : Nat) (g : Fld) : get (hbmWrite a bs s) o g = get s o g := rfl

@[simp] theorem rd_answer (a : Answer) (s : State) (o : Nat) : rd (answer a s) o = rd s o := rfl

@[simp] theorem get_answer (a : Answer) (s : State) (o : Nat) (g : Fld) : get (answer a s) o g = get s o g := rfl

@[simp] theorem rd_clk (f : ClockState → ClockState) (s : State) (o : Nat) : rd (clk f s) o = rd s o := rfl

@[simp] theorem get_clk (f : ClockState → ClockState) (s : State) (o : Nat) (g : Fld) : get (clk f s) o g = get s o g := rfl

@[simp] theorem rd_ctl (f : ControlState → ControlState) (s : State) (o : Nat) : rd (ctl f s) o = rd s o := rfl

@[simp] theorem get_ctl (f : ControlState → ControlState) (s : State) (o : Nat) (g : Fld) : get (ctl f s) o g = get s o g := rfl

@[simp] theorem rd_i3 (f : I3cState → I3cState) (s : State) (o : Nat) : rd (i3 f s) o = rd s o := rfl

@[simp] theorem get_i3 (f : I3cState → I3cState) (s : State) (o : Nat) (g : Fld) : get (i3 f s) o g = get s o g := rfl

@[simp] theorem rd_itg (f : IntegState → IntegState) (s : State) (o : Nat) : rd (itg f s) o = rd s o := rfl

@[simp] theorem get_itg (f : IntegState → IntegState) (s : State) (o : Nat) (g : Fld) : get (itg f s) o g = get s o g := rfl

@[simp] theorem rd_nv (f : NvmState → NvmState) (s : State) (o : Nat) : rd (nv f s) o = rd s o := rfl

@[simp] theorem get_nv (f : NvmState → NvmState) (s : State) (o : Nat) (g : Fld) : get (nv f s) o g = get s o g := rfl

@[simp] theorem rd_bt (f : BootState → BootState) (s : State) (o : Nat) : rd (bt f s) o = rd s o := rfl

@[simp] theorem get_bt (f : BootState → BootState) (s : State) (o : Nat) (g : Fld) : get (bt f s) o g = get s o g := rfl

@[simp] theorem rd_sv (f : SvcState → SvcState) (s : State) (o : Nat) : rd (sv f s) o = rd s o := rfl

@[simp] theorem get_sv (f : SvcState → SvcState) (s : State) (o : Nat) (g : Fld) : get (sv f s) o g = get s o g := rfl

@[simp] theorem rd_mapReqs (f : Request → Request) (s : State) (o : Nat) : rd (mapReqs f s) o = rd s o := rfl

@[simp] theorem get_mapReqs (f : Request → Request) (s : State) (o : Nat) (g : Fld) : get (mapReqs f s) o g = get s o g := rfl

@[simp] theorem rd_setTile (t : Nat) (x : TileState) (s : State) (o : Nat) : rd (setTile t x s) o = rd s o := rfl

@[simp] theorem get_setTile (t : Nat) (x : TileState) (s : State) (o : Nat) (g : Fld) : get (setTile t x s) o g = get s o g := rfl

@[simp] theorem rd_updTile (t : Nat) (f : TileState → TileState) (s : State) (o : Nat) : rd (updTile t f s) o = rd s o := rfl

@[simp] theorem get_updTile (t : Nat) (f : TileState → TileState) (s : State) (o : Nat) (g : Fld) : get (updTile t f s) o g = get s o g := rfl

@[simp] theorem rd_setLink (n : Nat) (x : LinkRun) (s : State) (o : Nat) : rd (setLink n x s) o = rd s o := rfl

@[simp] theorem get_setLink (n : Nat) (x : LinkRun) (s : State) (o : Nat) (g : Fld) : get (setLink n x s) o g = get s o g := rfl

@[simp] theorem rd_updLink (n : Nat) (f : LinkRun → LinkRun) (s : State) (o : Nat) : rd (updLink n f s) o = rd s o := rfl

@[simp] theorem get_updLink (n : Nat) (f : LinkRun → LinkRun) (s : State) (o : Nat) (g : Fld) : get (updLink n f s) o g = get s o g := rfl

/-! ### Fields -/

theorem testBit_setF (v : Reg) (f : Fld) (x i : Nat) (h : i < 64) :
    (setF v f x).toNat.testBit i =
      if f.lo ≤ i ∧ i < f.lo + f.w then (x.testBit (i - f.lo)) else v.toNat.testBit i := by
  have e : ∀ w : Reg, w.toNat.testBit i = w.getLsbD i := fun w => rfl
  rw [e, e]
  unfold setF
  simp only [BitVec.getLsbD_or, BitVec.getLsbD_and, BitVec.getLsbD_not, BitVec.getLsbD_ofNat, Nat.testBit_shiftLeft,
    Nat.testBit_two_pow_sub_one, Nat.testBit_mod_two_pow, h, decide_true, Bool.true_and]
  by_cases h1 : f.lo ≤ i
  · by_cases h2 : i < f.lo + f.w
    · have h3 : i - f.lo < f.w := by omega
      simp [h1, h2, h3]
    · have h3 : ¬ i - f.lo < f.w := by omega
      simp [h1, h2, h3]
  · simp [h1]

theorem testBit_bits (v lo w i : Nat) : (bits v lo w).testBit i = (decide (i < w) && v.testBit (lo + i)) := by
  unfold bits
  rw [Nat.testBit_mod_two_pow, Nat.testBit_shiftRight]

/-- A field reads as what was written to it, cut to its width. -/
theorem getF_setF_same (v : Reg) (f : Fld) (x : Nat) (h : f.lo + f.w ≤ 64) : getF (setF v f x) f = x % 2 ^ f.w := by
  unfold getF
  apply Nat.eq_of_testBit_eq
  intro i
  rw [testBit_bits, Nat.testBit_mod_two_pow]
  by_cases hi : i < f.w
  · rw [testBit_setF _ _ _ _ (by omega)]
    have h1 : f.lo ≤ f.lo + i ∧ f.lo + i < f.lo + f.w := by omega
    have h2 : f.lo + i - f.lo = i := by omega
    simp [h1, h2]
  · simp [hi]

/-- A write of one field leaves a disjoint one as it was. -/
theorem getF_setF_other (v : Reg) (f g : Fld) (x : Nat) (hg : g.lo + g.w ≤ 64)
    (h : f.lo + f.w ≤ g.lo ∨ g.lo + g.w ≤ f.lo) : getF (setF v f x) g = getF v g := by
  unfold getF
  apply Nat.eq_of_testBit_eq
  intro i
  rw [testBit_bits, testBit_bits]
  by_cases hi : i < g.w
  · rw [testBit_setF _ _ _ _ (by omega)]
    have h1 : ¬ (f.lo ≤ g.lo + i ∧ g.lo + i < f.lo + f.w) := by omega
    simp [h1]
  · simp [hi]

theorem get_put_same (off : Nat) (v : Reg) (g : Fld) (s : State) : get (put off v s) off g = getF v g := by
  unfold get
  rw [rd_put_same]

theorem get_put_ne {o off : Nat} (h : o ≠ off) (v : Reg) (g : Fld) (s : State) : get (put off v s) o g = get s o g := by
  unfold get
  rw [rd_put_ne h]

theorem get_upd_same (off : Nat) (f : Fld) (x : Nat) (s : State) (h : f.lo + f.w ≤ 64) :
    get (upd off f x s) off f = x % 2 ^ f.w := by
  unfold upd
  rw [get_put_same, getF_setF_same _ _ _ h]

theorem get_upd_other (off : Nat) (f g : Fld) (x : Nat) (s : State) (hg : g.lo + g.w ≤ 64)
    (h : f.lo + f.w ≤ g.lo ∨ g.lo + g.w ≤ f.lo) : get (upd off f x s) off g = get s off g := by
  unfold upd
  rw [get_put_same, getF_setF_other _ _ _ _ hg h]
  rfl

theorem get_upd_ne {o off : Nat} (h : o ≠ off) (f g : Fld) (x : Nat) (s : State) :
    get (upd off f x s) o g = get s o g := get_put_ne h _ _ _

/-! ### Tiles and links -/

@[simp] theorem tile_setTile_same (t : Nat) (x : TileState) (s : State) : tile (setTile t x s) t = x :=
  tget_tset_same _ _ _ _

theorem tile_setTile_ne {u t : Nat} (h : u ≠ t) (x : TileState) (s : State) : tile (setTile t x s) u = tile s u :=
  tget_tset_of_ne _ h _ _

@[simp] theorem tile_updTile_same (t : Nat) (f : TileState → TileState) (s : State) :
    tile (updTile t f s) t = f (tile s t) := tget_tset_same _ _ _ _

theorem tile_updTile_ne {u t : Nat} (h : u ≠ t) (f : TileState → TileState) (s : State) :
    tile (updTile t f s) u = tile s u := tget_tset_of_ne _ h _ _

@[simp] theorem link_setLink_same (n : Nat) (x : LinkRun) (s : State) : link (setLink n x s) n = x :=
  tget_tset_same _ _ _ _

theorem link_setLink_ne {m n : Nat} (h : m ≠ n) (x : LinkRun) (s : State) : link (setLink n x s) m = link s m :=
  tget_tset_of_ne _ h _ _

@[simp] theorem link_updLink_same (n : Nat) (f : LinkRun → LinkRun) (s : State) :
    link (updLink n f s) n = f (link s n) := tget_tset_same _ _ _ _

theorem link_updLink_ne {m n : Nat} (h : m ≠ n) (f : LinkRun → LinkRun) (s : State) :
    link (updLink n f s) m = link s m := tget_tset_of_ne _ h _ _

/-! ### HBM -/

/-- A byte that a write does not reach is as it was. -/
theorem storeBytes_outside (a b : Nat) (bs : List Byte) (m : List Host.Cell) (h : b < a ∨ a + bs.length ≤ b) :
    tget hbmDefault (storeBytes a bs m) b = tget hbmDefault m b := by
  induction bs generalizing a m with
  | nil => rfl
  | cons x r ih =>
    simp only [List.length_cons] at h
    rw [storeBytes, ih _ _ (by omega), tget_tset_of_ne _ (by omega)]

/-- A byte that a write reaches is the byte written. -/
theorem storeBytes_inside (a i : Nat) (bs : List Byte) (m : List Host.Cell) (h : i < bs.length) :
    tget hbmDefault (storeBytes a bs m) (a + i) = bs[i] := by
  induction bs generalizing a i m with
  | nil => simp at h
  | cons x r ih =>
    rw [storeBytes]
    cases i with
    | zero =>
      rw [storeBytes_outside _ _ _ _ (Or.inl (by omega))]
      exact tget_tset_same _ _ _ _
    | succ n =>
      have := ih (a + 1) n (tset hbmDefault a x m) (by simpa using h)
      rw [show a + (n + 1) = a + 1 + n by omega, this]
      rfl

theorem hbmByte_hbmWrite_outside (a b : Nat) (bs : List Byte) (s : State) (h : b < a ∨ a + bs.length ≤ b) :
    hbmByte (hbmWrite a bs s) b = hbmByte s b := storeBytes_outside _ _ _ _ h

theorem hbmByte_hbmWrite_inside (a i : Nat) (bs : List Byte) (s : State) (h : i < bs.length) :
    hbmByte (hbmWrite a bs s) (a + i) = bs[i] := storeBytes_inside _ _ _ _ h

/-! ### Power -/

/-- A powered device performs a command's effect. -/
theorem powered_on {s : State} (h : s.power.off = none) (f : State → State) : powered f s = f s := by simp [powered, h]

end Sys2Proof.Machine
end

