-- ==== Sys2Proof/Laws/Reports.lean ====
section
/-! SUPPORT. A log entry, an event of a head and a message of the service port are reports: the registers they change,
and that they change nothing else besides the log and what waits to be sent. -/

namespace Sys2Proof.Machine

open Sys2Proof

theorem RegsBut.refl (p : Nat → Prop) (s : State) : RegsBut p s s := fun _ _ => rfl

theorem RegsBut.trans {p : Nat → Prop} {s t u : State} (h : RegsBut p s t) (k : RegsBut p t u) : RegsBut p s u :=
  fun o ho => (k o ho).trans (h o ho)

theorem RegsBut.mono {p r : Nat → Prop} {s u : State} (h : RegsBut p s u) (hp : ∀ o, p o → r o) : RegsBut r s u :=
  fun o ho => h o fun hpo => ho (hp o hpo)

theorem RegsBut.ite {p : Nat → Prop} {c : Prop} [Decidable c] {s t u : State} (h : RegsBut p s t) (k : RegsBut p s u) :
    RegsBut p s (if c then t else u) := by
  split
  · exact h
  · exact k

theorem regsBut_put {p : Nat → Prop} {off : Nat} (h : p off) (v : Reg) (s : State) : RegsBut p s (put off v s) :=
  fun o ho => rd_put_ne (fun e => ho (by rw [e]; exact h)) _ _

theorem regsBut_upd {p : Nat → Prop} {off : Nat} (h : p off) (f : Fld) (x : Nat) (s : State) : RegsBut p s (upd off f x s) :=
  regsBut_put h _ _

theorem regsBut_satAdd {p : Nat → Prop} {off : Nat} (h : p off) (f : Fld) (x : Nat) (s : State) :
    RegsBut p s (satAdd off f x s) := regsBut_put h _ _

theorem reportReg_log : ReportReg ledLogStat := Or.inl rfl

theorem reportReg_event {h : Nat} (hh : h < 2) : ReportReg (queEvent h) := Or.inr ⟨h, hh, Or.inl rfl⟩

theorem reportReg_pba {h k : Nat} (hh : h < 2) (hk : k < 2) : ReportReg (msixPba h k) := by
  refine Or.inr ⟨h, hh, Or.inr ?_⟩
  have : k = 0 ∨ k = 1 := by omega
  rcases this with rfl | rfl
  · exact Or.inl rfl
  · exact Or.inr rfl

/-- Signalling a vector changes no register but the pending bits. -/
theorem signalVector_regs (h v : Nat) (s : State) : RegsBut (· = msixPba h (v / 64)) s (signalVector h v s) := by
  unfold signalVector
  exact .ite (regsBut_put (p := (· = msixPba h (v / 64))) rfl _ _) fun _ _ => rfl

/-- An event of a head changes QUE_EVENT and, where it signals vector 64, that vector's pending bits. -/
theorem raiseEvent_regs (h bit : Nat) (s : State) :
    RegsBut (fun o => o = queEvent h ∨ o = msixPba h 1) s (raiseEvent h bit s) := by
  unfold raiseEvent
  dsimp only
  split
  · exact .refl _ _
  · split
    · exact (regsBut_put (Or.inl rfl) _ _).trans ((signalVector_regs _ _ _).mono fun o ho => Or.inr ho)
    · exact regsBut_put (Or.inl rfl) _ _

theorem raiseEvent_reportRegs {h : Nat} (hh : h < 2) (bit : Nat) (s : State) : RegsBut ReportReg s (raiseEvent h bit s) :=
  (raiseEvent_regs h bit s).mono fun o ho => by
    rcases ho with rfl | rfl
    · exact reportReg_event hh
    · exact reportReg_pba hh (by omega)

theorem raiseBoth_regs (bit : Nat) (s : State) : RegsBut ReportReg s (raiseBoth bit s) :=
  (raiseEvent_reportRegs (by omega) _ _).trans (raiseEvent_reportRegs (by omega) _ _)

theorem svcEvent_regs (k : SvcEventKind) (s : State) : (svcEvent k s).regs = s.regs := by
  unfold svcEvent
  split
  · rfl
  · split <;> rfl

theorem svcEvent_regsBut (p : Nat → Prop) (k : SvcEventKind) (s : State) : RegsBut p s (svcEvent k s) := by
  intro o _
  unfold rd
  rw [svcEvent_regs]

theorem logReport_regs (x : LogEntry) (s : State) : RegsBut ReportReg s (logReport x s) := by
  unfold logReport
  dsimp only
  refine RegsBut.trans ?_ (svcEvent_regsBut _ _ _)
  refine RegsBut.trans ?_ (raiseBoth_regs _ _)
  exact .ite (fun _ _ => rfl) (.refl _ _)

/-- A log entry changes no register but those of reports. -/
theorem logEvent_regs (e : LogEv) (s : State) : RegsBut ReportReg s (logEvent e s) := by
  have step : ∀ {c : Prop} [Decidable c] {t u : State}, RegsBut ReportReg s t → RegsBut ReportReg t u →
      RegsBut ReportReg s (if c then u else t) := fun h k => .ite (h.trans k) h
  unfold logEvent
  split
  · exact fun _ _ => rfl
  · dsimp only
    refine step (step (step ?_ (regsBut_satAdd reportReg_log _ _ _)) (logReport_regs _ _)) fun _ _ => rfl
    refine RegsBut.trans (RegsBut.trans ?_ (regsBut_upd reportReg_log _ _ _)) (regsBut_upd reportReg_log _ _ _)
    exact fun _ _ => rfl

theorem rd_logEvent {o : Nat} (h : ¬ ReportReg o) (e : LogEv) (s : State) : rd (logEvent e s) o = rd s o :=
  logEvent_regs e s o h

theorem rd_logCoded {o : Nat} (h : ¬ ReportReg o) (a b c d e f g : Nat) (s : State) :
    rd (logCoded a b c d e f g s) o = rd s o := logEvent_regs _ s o h

theorem rd_logOpen {o : Nat} (h : ¬ ReportReg o) (a b c d e f : Nat) (s : State) :
    rd (logOpen a b c d e f s) o = rd s o := logEvent_regs _ s o h

theorem ReportFrame.eq {s u : State} (h : ReportFrame s u) :
    u = { s with regs := u.regs, log := u.log, svc := u.svc, i3c := u.i3c, host := u.host } := by
  obtain ⟨h1, h2, h3, h4, h5, h6, h7, h8, h9, h10, h11, h12, h13, h14, h15, h16, h17, h18⟩ := h
  cases u
  simp at *
  simp [*]

/-- A log entry is a report. -/
theorem logEvent_reports (e : LogEv) (s : State) : Reports s (logEvent e s) := ⟨logEvent_regs e s, (logEvent_frame e s).eq⟩

theorem logCoded_reports (a b c d e f g : Nat) (s : State) : Reports s (logCoded a b c d e f g s) := logEvent_reports _ _

theorem logOpen_reports (a b c d e f : Nat) (s : State) : Reports s (logOpen a b c d e f s) := logEvent_reports _ _

theorem raiseEvent_reports {h : Nat} (hh : h < 2) (b : Nat) (s : State) : Reports s (raiseEvent h b s) :=
  ⟨raiseEvent_reportRegs hh b s, (raiseEvent_frame h b s).eq⟩

theorem raiseBoth_reports (b : Nat) (s : State) : Reports s (raiseBoth b s) :=
  ⟨raiseBoth_regs b s, (raiseBoth_frame b s).eq⟩

theorem svcEvent_reports (k : SvcEventKind) (s : State) : Reports s (svcEvent k s) :=
  ⟨svcEvent_regsBut _ k s, (svcEvent_frame k s).eq⟩

theorem Reports.refl (s : State) : Reports s s := ⟨.refl _ _, rfl⟩

theorem Reports.trans {s t u : State} (h : Reports s t) (k : Reports t u) : Reports s u := by
  refine ⟨h.1.trans k.1, ?_⟩
  rw [k.2, h.2]

end Sys2Proof.Machine
end

