-- ==== Sys2Proof/Tests/Slice0.lean ====
section
/-! SUPPORT. Tests: an ill-formed command for each check of WellFormed, the examples that the spec works out, and for each
statement a state and operands that meet the hypotheses of every one of its clauses. Where a hypothesis is about a value
the model leaves open (a signature's check, the part of a stream's state), the test has it as its own premise. -/

namespace Sys2Proof.Tests

open Sys2Proof Sys2Proof.Machine

set_option Elab.async false

/-! ### States the tests use -/

/-- A state with fields of registers set, the first of the list last. -/
def setAll (l : List (Nat × Fld × Nat)) (s : State) : State := l.foldr (fun e s => upd e.1 e.2.1 e.2.2 s) s
/-- The device in SUMMER: site 0 is powered, both heads' links are up, HA owns the device and has 64 GiB from address 0. -/
def sLive : State :=
  setAll [(pwrState, PwrState.state, 2), (queHeadStat 0, QueHeadStat.linkUp, 1), (queHeadStat 1, QueHeadStat.linkUp, 1),
    (ownStat, OwnStat.owner, 0), (ownCfg, OwnCfg.elig, 7), (ownHeadRange 0, OwnHeadRange.size, 64), (queHeadStat 0, QueHeadStat.decCommit, 1)]
    { State.reset with devtime := 5000000, own := { expiry := 90000000 }, power := { siteOn := [0] },
                       host := { decoders := [(0, 0, 64 * 2 ^ 30)] } }
/-- As `sLive`, with queue 0 of HA enabled: 16 submission entries at 0x1000 and 16 completion entries at 0x2000. -/
def sQueue : State :=
  setAll [(queSqCfg 0 0, QueSqCfg.enable, 1), (queSqCfg 0 0, QueSqCfg.sizeLog2, 4), (queSqCfg 0 0, QueSqCfg.base, 1),
    (queCqCfg 0 0, QueCqCfg.enable, 1), (queCqCfg 0 0, QueCqCfg.sizeLog2, 4), (queCqCfg 0 0, QueCqCfg.base, 2)] sLive
/-- A state whose registers are at reset but for the status of every cluster, which reads a state. -/
def allClusters (st : Nat) (s : State) : State :=
  { s with regs := (List.range 240).map fun g => (pwrClStat g, BitVec.ofNat 64 st) }
def noOwner (s : State) : State := upd ownStat OwnStat.owner 3 s
/-- A log entry of an INFO event. -/
def infoEntry : LogEntry :=
  { seq := 0, time := 4000000, sev := 1, host := false, kind := kState, block := bTim, source := 421, code := 7, rep := 3,
    object := 2, detail := 0 }
/-- The description of the register at an offset. -/
def descAt (off : Nat) : RegDesc := (regAt off).getD ⟨0, 0, 0, 0, 0, 0, .sup, 0, 0, 0, 0, 0, 0⟩
/-- A request of HA for model 0 of season 0: an accepted INFER of one chunk that is ready. -/
def aRequest : Request :=
  { id := 7, head := 0, sq := 0, desc := 1, sqHead := 1, cq := 0, time := 10, chunks := 1, outBytes := 64, ready := some 10 }
/-- As `sQueue`, with one ready request and season 0 active in slot 0, whose image names 12 fields and 768 tiles. -/
def sBatch : State :=
  let s := upd (supSeasonStat 0) SupSeasonStat.state ssActive sQueue
  { s with hbm := [(slotBase s 0 + 22, 3), (slotBase s 0 + 24, 0xFF), (slotBase s 0 + 25, 0x0F), (slotBase s 0 + 27, 3)],
           req := { reqs := [aRequest], nextId := 8 } }
/-- As `sBatch`, with the batch of that request running. -/
def sRunning : State :=
  { sBatch with req := { sBatch.req with reqs := [{ aRequest with running := true }], batch := some { slot := 0, model := 0, reqs := [7] } } }
/-- As `sBatch`, with a change to slot 0 under way. -/
def sChange (x : ChangeStep) : State := { sBatch with req := { sBatch.req with change := some (0, x) } }
/-- Tile 0 in RUN with two fork units in a ring: unit 1 takes queue 0 and feeds queue 1, unit 2 takes queue 1 and feeds
queue 0; each queue holds one operand, and neither edge has credit. A source, unit 0, may not fire either. -/
def ringTile : TileState :=
  { tclk := 1024, quiet := 256, tags := 1, realTags := 1, lastUnit := 255,
    unitTab := [(1, ukFork + 2 ^ 8 + 2 ^ 11 + 2 ^ 64), (2, ukFork + 2 ^ 8 + 2 ^ 11 + 2 ^ 32)],
    queueTab := [(0, 4), (1, 4)], edgeTab := [(0, 0), (1, 1)],
    queues := [(0, { items := [{ op := 0, at_ := 1 }], got := 1 }), (1, { items := [{ op := 0, at_ := 1 }], got := 1 })] }
def sRing : State :=
  { upd (tilStat 0) TilStat.state tsRun sBatch with tiles := [(0, ringTile)] }
/-- A cycle search that has closed on the ring. -/
def ringSearch : Search := { origin := 0, answered := [], cycle := [(0, 1, 0, 1), (0, 2, 0, 0)], marks := [1, 1] }
/-- An operand held in spill in entry 0 of AM. -/
def aRef (tag : Nat) : SpillRef := { tag := tag, idx := 0, place := tag - 1, hbm := false }
def sClaimed (se : Search) : State := { sRing with net := { sRing.net with searches := [(0, some se)] } }
/-- The instruction store of a tile with a pass descriptor of one vector at target 0 and a kernel of 16 instructions at
target 8. -/
def aStore : List Host.Cell := [(0x10003, 1), (0x1000C, 1), (0x10042, 0x40)]
/-- Task 0 of tile 0 admits all of WM, AM and PM. -/
def withTask (s : State) : State :=
  put (tilTask 0 0) (BitVec.ofNat 64 (1 + 2 ^ 17 * 2 ^ 33)) (put (tilTask 0 1) (BitVec.ofNat 64 (0xFFFF * 2 ^ 16 + 0x4000 * 2 ^ 46)) s)
def sTile (x : TileState) : State := { withTask (upd (tilStat 0) TilStat.state tsRun sBatch) with tiles := [(0, x)] }
/-- A firing for the pass at target 0, and one for the kernel at target 8. -/
def passJob : SeqJob := { unit := 1, tag := 0, skips := 0, target := 0, task := 0 }
def kernJob : SeqJob := { unit := 1, tag := 0, skips := 5, target := 8, task := 0 }
def sPass (x : PassRun) : State := sTile { istore := aStore, passes := [x], tclk := 100 }
def aKernel : KernelRun := { job := kernJob }
/-- Tile 0 with a kernel that may issue. -/
def sKernel : State :=
  sTile { istore := aStore, kernel := some aKernel, tclk := 100, v := [(64, 0x40000000#32), (65, 0x3F800000#32)], sreg := [(2, 3)] }
/-- A packet of an opcode from tile 1 to tile 0. -/
def aPacket (opc : Nat) (payload : List Byte) (ext : Nat) : Packet :=
  { rdst := 0, src := 1, dst := 0, data := 0x40 ≤ opc, opc := opc, len := 1, txid := 3, srcFdn := 0, dstFdn := 0, payload := payload, ext := ext }
/-- A packet with its CRC. -/
def withCrc (p : Packet) : Packet := { p with crc := packetCrc p }
/-- Window 0 of tile 0 admits tile 1 to 64 units of AM from 0, for reading, writing and notifying queue 0. -/
def withWindow (s : State) : State :=
  put (tilWin 0 0) (BitVec.ofNat 64 (15 + 16 + 64 * 2 ^ 33 + 2 ^ 51)) (put (tilWin 0 1) (BitVec.ofNat 64 (767 * 2 ^ 10)) s)
def sWindow (x : TileState) : State := withWindow (sTile x)
/-- A channel of tile 0, with messages on their way. -/
def sChannel (e : Nat) (c : ChanRun) : State := put (latCh 0 4) (BitVec.ofNat 64 e) (sTile { chans := [(2, c)] })
def anAwait (src opc : Nat) : Await := { src := src, txid := 3, opc := opc, pkt := { aPacket opc [] 0 with src := src, dst := 1 } }
/-- As `sRunning`, with an image whose MEMPLAN gives tile 0 one unit of WM at 0. -/
def sPlan : State :=
  let b := slotBase sBatch 0
  { sBatch with hbm := [(b + 22, 3), (b + 30, 1), (b + 41, 2), (b + 0x200, 4), (b + 0x204, 1), (b + 0x209, 3), (b + 0x308, 1)],
                tiles := [(0, {})] }
/-- The rounds of weight digests run (VERIFY every 10 s). -/
def sRound : State := setAll [(intStat, IntStat.mode, 1), (intCtrl, IntCtrl.wdigS, 10)] { sPlan with integ := { roundAt := some 10 } }
/-- Link 0 enabled in a state of its machine, with FDN 9 valid. -/
def sLink (st : Nat) (x : LinkRun) : State :=
  { setAll [(lnkCtrl 0, LnkCtrl.enable, 1), (lnkFdn, LnkFdn.valid, 1), (lnkFdn, LnkFdn.fdn, 9), (lnkStat 0, LnkStat.state, st)] sLive
    with links := [(0, x)], power := { siteOn := [0], up := [.aux, .supervisor, .oscillator, .linkAndHost] } }
def aFrame (t : FrameType) (seq : Nat) (body : List Byte) : Frame :=
  { seq := seq, ack := 0xFFFF, ccred := 0, dcred := 0, ftype := t, nak := false, fence := false, epoch := 0, body := body }
def aSent (seq : Nat) : SentFrame := { seq := seq, body := [], pkts := [], at_ := 10 }
/-- A device whose converters are stopped. -/
def sOff (c : OffCause) : State := { sLive with power := { off := some c } }
/-- Every logical tile of a cluster is already known to a remap, so that taking the cluster out of service starts none. -/
def known (ts : List Nat) (s : State) : State := { s with boot := { s.boot with remapQueue := ts.map fun t => (t, 0) } }
/-- Bytes at an address, as cells. -/
def cellsAt (a : Nat) (bs : List Byte) : List Host.Cell := ((List.range bs.length).map (a + ·)).zip bs
/-- A firmware slot whose manifest names seven components of one byte each. -/
def aSlot : Slot :=
  { shipped := false, cells :=
      cellsAt 0 (toBytes 8 0x5453464E414D5946 ++ toBytes 2 1 ++ toBytes 2 7 ++ toBytes 4 4096 ++ toBytes 4 32768 ++ List.replicate 44 0 ++
        (List.range 7).flatMap (fun k => toBytes 4 (k + 1) ++ toBytes 4 (4096 * (k + 1)) ++ toBytes 8 1 ++ List.replicate 16 0 ++ sha512 [255]) ++
        List.replicate 288 0) ++ cellsAt 1536 (List.replicate 8 0) }
/-- A device in SPRING that has finished some of its steps, with that firmware in slot A. -/
def sSpring (steps : List Nat) : State :=
  { State.reset with boot := { steps := steps }, nvm := { slot := some 0, slotA := aSlot } }
/-- A remap of logical tile 0 from its site to site 64, at one of its steps. -/
def aRemap (x : RemapStep) : Remap := { field := 0, id := 5, step := x, entries := [{ tile := 0, old := 0, new := 64, cause := 1 }] }
def sRemap (x : RemapStep) : State := { sLive with boot := { sLive.boot with remap := some (aRemap x) } }
/-- Slot A active and slot B in a state; and a trial of the firmware in slot B. -/
def sSlots (x : Nat) : State := setAll [(nvmUpdStat, NvmUpdStat.active, 0), (nvmSlotStat 0, NvmSlotStat.state, fsActive), (nvmSlotStat 1, NvmSlotStat.state, x)] sLive
def sTrial (x : NvmState) : State :=
  { setAll [(nvmUpdStat, NvmUpdStat.trial, 1)] (sSlots fsTrial) with nvm := x, devtime := 1300 * secTicks, own := { expiry := 2000 * secTicks } }
/-- An open service session, a client's message of a type under it, and a half-open session. -/
def sSession : State := { upd ownStat OwnStat.owner 2 sLive with svc := { key := some [1, 2, 3], session := 6, lastMsg := 4000000 } }
def aMsg (type : Nat) (payload : List Byte) : SvcMsg :=
  { session := 6, seq := 2, payload := payload, mac := svcMac [1, 2, 3] (svcHeader type 6 2 payload.length 0 false) payload }
def sNotOwner : State := upd ownStat OwnStat.owner 0 sSession
def aHalf : HalfOpen := { session := 6, nc := List.replicate 32 1, nd := List.replicate 32 2, since := 4000000 }
def sHalf (h : HalfOpen) : State := { sLive with svc := { half := some h } }
/-- The record in force holds the digest of key [9] as its second service key. -/
def sKeys : State := { sHalf aHalf with nvm := { inForce := some (.record (List.replicate 320 0 ++ sha512 [9])) } }
def anUpload : Upload := { slot := 1, len := 4096, erased := 4096 }
def sUpload (x : Slot) : State := { sSession with nvm := { slotB := x, upload := some anUpload } }
/-- A service message that programs 1024 bytes of the slot uploaded to, at byte 3072. -/
def programMsg : SvcMsg := aMsg 0x31 (toBytes 8 3072 ++ List.replicate 1024 9)
/-- An SPDM request without further bytes. -/
def spdmReq (v p1 p2 : Nat) : SpdmReq := { version := v, param1 := p1, param2 := p2, bytes := [] }
/-- As `sRunning`, with a request that continues a stream, its batch past the last layer. -/
def sStateful : State :=
  { sRunning with req := { sRunning.req with reqs := [{ aRequest with stateful := true, desc := 0x101, running := true }], batch := some { slot := 0, model := 0, reqs := [7], layer := 3 } } }
/-- A pass of tile 0 whose coded weights open with a lane of 4095 bits. -/
def aLongPass : PassRun := { job := passJob, phase := .fetching, half := { heads := [[255, 15]] } }
def sLongLane : State := sTile { istore := (0x10001, 1) :: aStore, passes := [aLongPass], tclk := 100 }
/-- A field controller runs that has been sent a nonce, and a quote of that nonce. -/
def sQuote : State := { sLive with boot := { fcRunning := [0], nonces := [(0, List.replicate 32 0)] } }
def aQuote : List Byte := toBytes 4 0x45545146 ++ List.replicate 700 0
/-- A half-open session whose client has sent the ephemeral key [9] for key slot 3. -/
def keyedHalf : HalfOpen := { aHalf with key := some (3, [9]) }
/-- The word of an instruction of a class: its first opcode, and its fields (R102). -/
def wordOf (c : SpClass) (o : SpFields) : Nat :=
  c.range.1 + 2 ^ 8 * (match o.ty with | .fp32 => 0 | .bf16 => 1 | .fp16 => 2 | .int32 => 3) + 2 ^ 10 * o.vd + 2 ^ 15 * o.va + 2 ^ 20 * o.vb +
    2 ^ 25 * o.vc + 2 ^ 30 * o.ps + 2 ^ 32 * o.imm
/-- A word at the place of the kernel's next instruction. -/
def withWord (w : Nat) (s : State) : State :=
  { s with tiles := [(0, { tile s 0 with istore := (cellsAt 0 (toBytes 8 w)).filter (fun e => e.2 ≠ 0) ++ (tile s 0).istore })] }
def callWord (i : Nat) : Nat := 0x70 + 2 ^ 32 * i
/-- Words of a one-lane channel: a header of a value and words of data. -/
def someWords (n : Nat) : List (List LaneWord) := [laneWord true [1]] :: List.replicate n [laneWord false [7, 8]]
/-- Tile 0 lies on site 64, away from the site that the image assumed; channel 3 of it feeds channel 2 through tunnels. -/
def sTunnel (on : List Nat) (c : ChanRun) : State :=
  let s := sChannel (1 + 2 + 4 + 64 + 2 ^ 12 + 2 ^ 40) c
  put (latCh 0 5) (BitVec.ofNat 64 (3 * 2 ^ 40)) (put (latCh 0 7) (BitVec.ofNat 64 (2 * 2 ^ 40)) (put (latCh 0 6) (BitVec.ofNat 64 (1 + 4 + 64 + 2 ^ 12))
    { s with power := { s.power with siteOn := on }, boot := { s.boot with map := { logical := [(0, 64)] } } }))
def tunnelPkt (ch site txid : Nat) : Packet :=
  withCrc { aPacket ocLatTunnel [2, 3, 4, 5, 6, 7, 8, 9] ch with txid := txid, route := routeWord (siteRouter site, sitePort site) }
/-- Every field is in step with the reference, at a multiple of 1 ms. -/
def sStrobe : State := { sLive with clock := { synced := List.range 12 }, devtime := 5 * msTicks }

/-! ### Ill-formed commands are refused, one for each check -/

/-- Register accesses: an offset outside BAR0, a value wider than the write, a half wider than 32 bits. -/
theorem test_ill_formed_register_accesses : (Instr.accessError .ha (2 ^ 26) 32 true).wf = false ∧
    (Instr.registerWrite [⟨.ha, 2 ^ 26, 32, 0⟩]).wf = false ∧ (Instr.registerWrite [⟨.ha, 0, 32, 2 ^ 32⟩]).wf = false ∧
    (Instr.epochWrite .ha .full (2 ^ 64)).wf = false ∧ (Instr.epochWrite .ha .low (2 ^ 32)).wf = false ∧
    (Instr.epochWrite .ha .high (2 ^ 32)).wf = false := by decide

/-- An instruction word with a register number of 6 bits, a predicate of 3, or an immediate of 33. -/
theorem test_ill_formed_words :
    (SpFields.wf { ty := .fp32, vd := 32, va := 0, vb := 0, vc := 0, ps := 0, imm := 0 }) = false ∧
    (SpFields.wf { ty := .fp32, vd := 0, va := 0, vb := 0, vc := 0, ps := 4, imm := 0 }) = false ∧
    (SpFields.wf { ty := .fp32, vd := 0, va := 0, vb := 0, vc := 0, ps := 0, imm := 2 ^ 32 }) = false := by decide

/-- Packets: a header field too wide, a control payload whose length is not LEN, a data packet of five units. -/
theorem test_ill_formed_packets : ({ aPacket 1 [] 0 with src := 4096 }).wf = false ∧ (aPacket 1 [] 0).wf = false ∧
    ({ aPacket 0x40 (List.replicate 320 0) 0 with len := 5 }).wf = false ∧ (aPacket 1 [7] 0).wf = true := by decide +kernel

/-- A frame of a short body, and one with a sequence number of 17 bits. -/
theorem test_ill_formed_frames : (aFrame .seq 1 [0]).wf = false ∧
    (aFrame .seq (2 ^ 16) (List.replicate 484 0)).wf = false := by decide

/-- A lane bundle, a cluster of a sample, a field loss's cause and a strobe's readings that do not exist. -/
theorem test_ill_formed_indices : (SeamBundle.wf (.lane 240 0)) = false ∧
    (PowerSample.wf { vin := 0, iin := 0, iout := [(240, 5)], act := [], ifield := [], vrail := [] }) = false ∧
    (Instr.fieldLoss 0 0).wf = false ∧ (Instr.fieldLoss 0 8).wf = false ∧ (Instr.syncStrobe [0]).wf = false := by decide

/-- Messages: a payload of 1185 bytes, a version of 9 bits, a line of 63 bytes. -/
theorem test_ill_formed_messages :
    (SvcMsg.wf { session := 0, seq := 0, payload := List.replicate 1185 0, mac := [] }) = false ∧
    (SvcHdr.wf { session := 2 ^ 32, seq := 0 }) = false ∧
    (SpdmReq.wf { version := 256, param1 := 0, param2 := 0, bytes := [] }) = false ∧
    (Instr.cxlMemWrite .ha 0 (List.replicate 63 0) false).wf = false := by decide +kernel

/-- A sample's activity above 64, and its fields that do not exist; a nonce of 31 bytes; numbers wider than their fields. -/
theorem test_ill_formed_operands :
    (PowerSample.wf { vin := 0, iin := 0, iout := [], act := [(0, 65)], ifield := [], vrail := [] }) = false ∧
    (PowerSample.wf { vin := 0, iin := 0, iout := [], act := [], ifield := [(12, 5)], vrail := [] }) = false ∧
    (PowerSample.wf { vin := 0, iin := 0, iout := [], act := [], ifield := [], vrail := [(12, 5)] }) = false ∧
    (Instr.hello { session := 0, seq := 0 } (List.replicate 31 0)).wf = false ∧
    (Instr.challenge .svc (spdmReq 0x12 0 0) (List.replicate 33 0)).wf = false ∧ (Instr.spIllegal 0 256).wf = false ∧
    (Instr.ctlTimeout 4096 0).wf = false ∧ (Instr.mark .ha 1024).wf = false ∧ (Instr.ownCmdReserved .ha 8 0).wf = false ∧
    (Instr.entdaa 128).wf = false ∧ (Instr.stage .ha 0 (2 ^ 34)).wf = false := by decide

/-! ### Examples that the spec works out -/

/-- Site (6, 5, 7) is site 541, of cluster 134 (R7, R8). -/
theorem test_site_and_cluster : siteNum 6 5 7 = 541 ∧ siteCluster 541 = 134 ∧ 541 ∈ clusterSites 134 := by decide

/-- Three products in E4M3 × E4M3: 1.5 × 2, −0.25 × 2^−9 and 448 × −0.5 on the grid −46; the sum's LA96 code, and its
conversions to BF16 and E4M3 (R50, R56, R57, R60, R61). -/
def e4m3Sum : La96 :=
  columnSum (-46) [(scaledElem 0 0x3C 0, scaledElem 0 0x40 0), (scaledElem 0 0xA8 0, scaledElem 0 0x01 0),
    (scaledElem 0 0x7E 0, scaledElem 0 0xB0 0)]
theorem test_e4m3_reduction : laBytes e4m3Sum = toBytes 12 0xFFFFFFFFFFC8BFF800000000 ∧
    finalCode 0xB (laNum e4m3Sum (-46) 0) = (0xC35D, false) ∧ finalCode 0 (laNum e4m3Sum (-46) 0) = (0xF6, false) := by
  decide +kernel

/-- The MXFP4 reduction on the grid −58: block 0 sums to 10.5 (3 × 3 and 1.5 × 1), block 1 has the products
±0.75 × 2^−60, and the conversion to BF16 gives 10.5 (R47, R56, R60). -/
theorem test_mxfp4_reduction :
    columnSum (-58) [(scaledElem 6 5 127, scaledElem 6 5 127), (scaledElem 6 3 127, scaledElem 6 2 127),
      (scaledElem 6 3 67, scaledElem 6 1 127), (scaledElem 6 3 67, scaledElem 6 9 127)] = some (21 * 2 ^ 57 - 1) ∧
    finalCode 0xB (laNum (some (21 * 2 ^ 57 - 1)) (-58) 0) = (0x4128, false) ∧ topExp 6 = 3 := by decide +kernel

/-- FP16 activations on a narrowed channel: 245.25 becomes 240, and 500 becomes 448 and counts as a saturation
(R62, R64). -/
theorem test_narrowing : narrow1 false 0x5BAA = (0x77, false, false) ∧ narrow1 false 0x5FD0 = (0x7E, true, false) := by
  decide +kernel

/-- With m = 48, 48 of 64 clocks issue; clock 3 is the first that does not, and clock 20 of the second frame is the
64th that does (R98). -/
theorem test_issue_clocks :
    ((List.range 64).filter fun c => bitrev6 c < 48).length = 48 ∧
    ((List.range 64).filter fun c => !(bitrev6 c < 48)) = (List.range 16).map (4 * · + 3) ∧
    ((List.range 85).filter fun c => bitrev6 (c % 64) < 48).length = 64 ∧ bitrev6 20 < 48 := by decide +kernel

/-- The home of address 0x12_3456_7800 is group 0x61172 of slice 366, at byte 0x611_7200 (R261). -/
theorem test_address_hash : homeWith [] 0x1234567800 = (366, 0x61172) ∧ 0x61172 * 256 + 0x1234567800 % 256 = 0x6117200 := by
  decide +kernel

/-- The step of the clock example: T_s after the limit is reached, and M_W and VSET around it (R417, R419). -/
theorem test_switch_instant : nextTs 37610810 = 37618560 ∧ 37618560 % 5760 = 0 ∧ 64 * 8 / 9 = 56 ∧ 56 * 9 / 8 = 63 := by
  decide +kernel

/-- The device reports the epoch plus DEVTIME in nanoseconds (R424). -/
theorem test_device_time : utcNs (put timEpoch (BitVec.ofNat 64 (1893456000000000000 - 101648936170))
    { State.reset with devtime := 0x163F394B80 }) = 1893456000000000000 := by decide +kernel

/-- A cluster at 95 °C and 0.81 V adds 256 units of stress in an hour, and at 75 °C and 0.78 V 32 (R526). -/
theorem test_stress : (stressWeight 95 42 * 3600 + stressUnit / 2) / stressUnit = 256 ∧
    (stressWeight 75 36 * 3600 + stressUnit / 2) / stressUnit = 32 := by decide +kernel

/-- 9.0 kW and a rise of 10.2 °C are 12.9 L/min (R562, R563). -/
theorem test_flow : flowEstimate 9000 350 452 = 129 := by decide +kernel

/-- The targets of the remap of cluster 134, with JUL's STANDBY sites at 510, 559, 552 and 483 (R444). -/
def sDark : State :=
  { allClusters 3 State.reset with
    boot := { State.reset.boot with map :=
      { sites := [(483, 2), (510, 2), (532, 1), (533, 1), (540, 1), (541, 1), (544, 3), (545, 3), (546, 3), (547, 3), (548, 3),
                  (549, 3), (550, 3), (551, 3), (552, 2), (559, 2)],
        logical := [(420, 532), (421, 533), (428, 540), (429, 541)] } } }
theorem test_remap_targets :
    (chooseTargets sDark [(420, 1), (421, 1), (428, 1), (429, 1)] []).map (fun es => es.map (·.new)) =
      some [510, 559, 552, 483] := by decide +kernel

/-- The addresses that the register map works out (R530, R539, R540, R543–R545). -/
theorem test_addresses : tilDfFault 214 = 0x16B0020 ∧ stallUnit 214 (8 * 7 + 2) = 0x16B21D0 ∧
    stallQueue 214 (2 * 3 + 1) = 0x16B6038 ∧ pwrClStat 134 = 0x110C8 ∧ lnkStat 27 = 0x306C8 ∧ queSqDb 1 5 = 0x841014 := by
  decide

/-- Field 3 is powered, and its tiles are off. -/
def sFabric : State := { sLive with power := { siteOn := [0], up := [.field 3] } }
/-- The switched-off tile's fault register reads all ones, and its TIL_SITE still names field 3, (6, 2), cluster 67
(R121, R537). -/
theorem test_off_tile : (busRead .hb (tilDfFault 214) 64 sFabric).1 = 2 ^ 64 - 1 ∧
    (busRead .hb (tilSite 214) 32 sFabric).1 = 3 + 6 * 2 ^ 4 + 2 * 2 ^ 7 + 67 * 2 ^ 11 + 214 * 2 ^ 19 := by decide +kernel

/-- The first bytes of SHA-512 of "abc" and of nothing (FIPS 180-4's own example), and CRC-32 of "123456789". -/
theorem test_sha512 : (sha512 [0x61, 0x62, 0x63]).take 8 = [0xDD, 0xAF, 0x35, 0xA1, 0x93, 0x61, 0x7A, 0xBA] ∧
    (sha512 []).take 4 = [0xCF, 0x83, 0xE1, 0x35] := by decide +kernel
theorem test_crc32 : crc32 [0x31, 0x32, 0x33, 0x34, 0x35, 0x36, 0x37, 0x38, 0x39] = 0xCBF43926 := by decide +kernel

/-! ### Steps and reset -/

/-- On an empty queue a step is one tick of DEVTIME; a command in front runs with the queue's rest. -/
theorem test_idle_step : step { State.reset with devtime := 7 } = .next { State.reset with devtime := 8 } := rfl
theorem test_no_word_spells_a_command (n w : Nat) : decodeTableWord n w = none := rfl

/-! ### The hypotheses of the statements are met -/

/-- A property of what an option holds, decided on the option. -/
theorem of_all {α : Type} {o : Option α} {P : α → Prop} [DecidablePred P]
    (h : o.all (fun x => decide (P x)) = true) (x : α) (e : o = some x) : P x := by
  subst e; simpa using h

theorem no_search (g : Nat) (o : Search) (_ : g ≠ 0) (h : tget (fun _ => none) sRing.net.searches g = some o) : o.cycle = [] :=
  absurd (show (none : Option Search) = some o from h) (by simp)
theorem no_nak (a t : Nat) (h : (link (sLink lsUp {}) 0).nakFor = some (a, t)) : a ≠ (link (sLink lsUp {}) 0).ack :=
  absurd ((show (link (sLink lsUp {}) 0).nakFor = none by decide +kernel).symm.trans h) (by simp)
theorem other_errors (f : Nat) (h : f ≠ 11) :
    ((fieldTime sStrobe f : Int) + ([0, 0, 0, 0, 0, 0, 0, 0, 0, 0, 0, -65] : List Int).getD f 0 - sStrobe.devtime).natAbs ≤ 64 := by
  have e : fieldTime sStrobe f = sStrobe.devtime := by
    simp [fieldTime, show tget (fun _ => (0 : Int)) sStrobe.clock.offset f = 0 from rfl]
  rw [e, show ∀ a b : Int, a + b - a = b by omega]
  by_cases c : f < 12
  · exact (show ∀ i, i < 12 → i ≠ 11 → (([0, 0, 0, 0, 0, 0, 0, 0, 0, 0, 0, -65] : List Int).getD i 0).natAbs ≤ 64 by decide) f c h
  · rw [List.getD, List.getElem?_eq_none (by simpa using Nat.le_of_not_lt c)]; decide
theorem packetOk_withCrc (p : Packet) (h : p.upset = []) : packetOk (withCrc p) = true :=
  packetOk_of_crc _ h (packetCrc_crc p _).symm
/-- A descriptor that writes AM to a window of another device meets no slice. -/
theorem never_refused (s : State) (pos : Nat) : moveRefused s (32 + 2 ^ 16 + 2 ^ 32 + 2 ^ 256) pos = false := by
  have h1 : (dmSrc (32 + 2 ^ 16 + 2 ^ 32 + 2 ^ 256) == dkHbm) = false := by decide
  have h2 : (dmDst (32 + 2 ^ 16 + 2 ^ 32 + 2 ^ 256) == dkHbm) = false := by decide
  simp only [moveRefused, h1, h2, Bool.false_and, Bool.or_false]
theorem reaches_svc {s : State} (h : Head) (e : Transport.svc = .doe h) : linkUp s (hnum h) = true := by cases e
theorem reaches_doe {k : Head} {s : State} (l : linkUp s (hnum k) = true) (h : Head) (e : Transport.doe k = .doe h) :
    linkUp s (hnum h) = true := by cases e; exact l
theorem add_no_cmp (r : Cmp) : VecOp.add ≠ .cmp r := by intro h; cases h
theorem longLane : weightSet sLongLane 0 (passDesc (tile sLongLane 0) passJob.target) (taskEntry sLongLane 0 passJob.task)
    aLongPass.half.heads = none :=
  weightSet_long _ _ _ _ _ (by decide +kernel) (by decide +kernel) (by decide +kernel)
/-- That message is one that the session admits. -/
theorem aMsg_valid {type : Nat} {p : List Byte} {s : State}
    (h : s.svc.key = some [1, 2, 3] ∧ 6 = s.svc.session ∧ s.devtime < s.svc.lastMsg + 30 * secTicks ∧
      p.length ≤ svcMaxPayload ∧ tget (fun _ => none) s.svc.replies 2 = none ∧ s.svc.low ≤ 2 ∧ 2 ≤ s.svc.low + 64) :
    SvcValid type [1, 2, 3] (aMsg type p) s :=
  ⟨h.1, h.2.1, h.2.2.1, h.2.2.2.1, rfl, h.2.2.2.2.1, h.2.2.2.2.2.1, h.2.2.2.2.2.2⟩

/-- Each clause of StepRunsFrontCommand has a state and operands that meet its hypotheses. -/
theorem test_StepRunsFrontCommand_hypotheses :
    (∃ (c : Instr) (r : List Instr) (s : State), s.pending = c :: r) ∧
    (∃ (s : State), s.pending = [] ∧ On s ∧ s.net.throttled = [] ∧ s.clock.slew = []) ∧
    (∃ (s : State), s.pending = [] ∧ ¬ On s) :=
  ⟨⟨.renew .ha, [.release .ha], { sLive with pending := [.renew .ha, .release .ha] }, by decide +kernel⟩,
   ⟨sLive, by decide +kernel⟩,
   ⟨{ sLive with power := { off := some .shutdown } }, by decide +kernel⟩⟩

/-- Each clause of ResetStateIsSound has a state and operands that meet its hypotheses. -/
theorem test_ResetStateIsSound_hypotheses :
    (∃ (g : Nat), g < 240) :=
  ⟨239, by decide +kernel⟩

/-- Each clause of EveryStepKeepsInvariant has a state and operands that meet its hypotheses. -/
theorem test_EveryStepKeepsInvariant_hypotheses :
    (∃ (s : State) (u : State), Inv s ∧ step s = .next u) :=
  ⟨sLive, { sLive with devtime := 5000001 }, ⟨by decide +kernel, by decide +kernel, by decide +kernel,
    by decide +kernel, by decide +kernel⟩, rfl⟩

/-- Each clause of RegisterWriteRules has a state and operands that meet its hypotheses. -/
theorem test_RegisterWriteRules_hypotheses :
    (∃ (h : Head) (k : Nat) (v : Nat) (s : State), On s ∧ headOff s (hnum h) = false ∧ k < 65 ∧ v < 2 ^ 64) ∧
    (∃ (off : Nat) (d : RegDesc) (s : State), On s ∧ regAt off = some d ∧ off % 4 = 0 ∧ inCxlBlock off = false ∧ d.rw = 0
      ∧ d.rw1c = 0 ∧ d.wo = 0 ∧ d.rwo = 0 ∧ halfCommand off = false) ∧
    (∃ (m : Master) (off : Nat) (d : RegDesc) (s : State), On s ∧ regAt off = some d ∧ d.width = 64 ∧ off % 8 = 0 ∧ d.rwo
      ≠ 0 ∧ d.rwo < 2 ^ 64 ∧ regOff s off = false ∧ owner (settle s) ≠ some m) :=
  ⟨⟨.ha, 64, 2 ^ 64 - 1, sLive, by decide +kernel⟩,
   ⟨pwrState, descAt pwrState, sLive, by decide +kernel⟩,
   ⟨.hb, supSlotCfg, descAt supSlotCfg, sLive, by decide +kernel⟩⟩

/-- Each clause of AccessErrors has a state and operands that meet its hypotheses. -/
theorem test_AccessErrors_hypotheses :
    (∃ (off : _) (d : RegDesc), regAt off = some d) ∧
    (∃ (off : Nat) (width : Nat) (s : State), On s ∧ s.log.held.length < logRing ∧ ¬ (width = 32 ∧ off % 4 = 0) ∧ ¬
      (width = 64 ∧ off % 8 = 0)) ∧
    (∃ (off : Nat) (s : State), On s ∧ s.log.held.length < logRing ∧ (off = supSeasonCmd ∨ off = supSeasonCmd + 4 ∨ off =
      nvmCfgCmd ∨ off = nvmCfgCmd + 4)) ∧
    (∃ (m : Master) (slot : Nat) (op : Nat) (src : Nat) (s : State), On s ∧ owner (settle s) = some m ∧ slot < 8 ∧ 1 ≤ op
      ∧ op ≤ 3 ∧ src < 2 ^ 34 ∧ stageRuns (settle s) = false ∧ s.req.deferred = none ∧ s.req.change.isSome = true) :=
  ⟨⟨supSeasonCmd, descAt supSeasonCmd, by decide +kernel⟩,
   ⟨6, 32, sLive, by decide +kernel⟩,
   ⟨nvmCfgCmd + 4, sLive, by decide +kernel⟩,
   ⟨.ha, 7, 3, 2 ^ 34 - 1, { sLive with req := { change := some (0, .draining) } }, by decide +kernel⟩⟩

/-- Each clause of RepeatedEventsFold has a state and operands that meet its hypotheses. -/
theorem test_RepeatedEventsFold_hypotheses :
    (∃ (e : LogEv) (l : List LogEntry) (r : List LogEntry) (x : LogEntry) (s : State), 1 ≤ e.sev ∧ e.sev ≤ 2 ∧ s.log.held
      = l ++ x :: r ∧ (∀ y ∈ l, y.block ≠ e.block ∨ y.kind ≠ e.kind ∨ y.source ≠ e.source ∨ y.code ≠ e.code % 65536 ∨
      y.object ≠ e.object ∨ y.time + secTicks < s.devtime) ∧ x.block = e.block ∧ x.kind = e.kind ∧ x.source =
      e.source ∧ x.code = e.code % 65536 ∧ x.object = e.object ∧ s.devtime ≤ x.time + secTicks) ∧
    (∃ (e : LogEv) (s : State), 3 ≤ e.sev ∧ s.log.held.length < logRing) :=
  ⟨⟨{ sev := 1, kind := kState, block := bTim, source := 421, code := 7, object := 2 },
      [{ infoEntry with object := 3 }], [infoEntry], infoEntry,
      { sLive with log := { held := [{ infoEntry with object := 3 }, infoEntry, infoEntry] } }, by decide +kernel⟩,
   ⟨{ sev := 5, kind := kState, block := bTim, source := 421, code := 7, object := 2 }, sLive, by decide +kernel⟩⟩

/-- Each clause of OwnershipActs has a state and operands that meet its hypotheses. -/
theorem test_OwnershipActs_hypotheses :
    (∃ (m : Master) (s : State), On s ∧ eligible (settle s) m = true ∧ present (settle s) m = true ∧ owner (settle s) =
      none ∧ (windowOpen (settle s) = true → get (settle s) ownStat OwnStat.holder = mcode m)) ∧
    (∃ (m : Master) (s : State), On s ∧ owner (settle s) = some m) ∧
    (∃ (m : Master) (t : Master) (s : State), On s ∧ owner (settle s) = some m ∧ t ≠ m ∧ eligible (settle s) t = true ∧
      present (settle s) t = true) ∧
    (∃ (s : State), On s ∧ (owner s).isSome = true ∧ s.own.expiry ≤ s.devtime) :=
  ⟨⟨.hb, noOwner sLive, by decide +kernel⟩,
   ⟨.ha, sLive, by decide +kernel⟩,
   ⟨.ha, .hb, sLive, by decide +kernel⟩,
   ⟨{ sLive with devtime := 90000000 }, by decide +kernel⟩⟩

/-- Each clause of OwnershipFailuresAndTimers has a state and operands that meet its hypotheses. -/
theorem test_OwnershipFailuresAndTimers_hypotheses :
    (∃ (m : Master) (s : State), On s ∧ m ≠ .fw ∧ eligible (settle s) m = false) ∧
    (∃ (m : Master) (s : State), On s ∧ m ≠ .fw ∧ eligible (settle s) m = true ∧ present (settle s) m = false) ∧
    (∃ (m : Master) (s : State), On s ∧ m ≠ .fw ∧ eligible (settle s) m = true ∧ present (settle s) m = true ∧ (owner
      (settle s)).isSome = true ∧ outbid m (settle s) = none) ∧
    (∃ (m : Master) (s : State) (o : Master), On s ∧ m ≠ .fw ∧ eligible (settle s) m = true ∧ present (settle s) m = true
      ∧ outbid m (settle s) = some o) ∧
    (∃ (m : Master) (s : State), On s ∧ m ≠ .fw ∧ eligible (settle s) m = true ∧ present (settle s) m = true ∧ owner
      (settle s) = none ∧ windowOpen (settle s) = true ∧ get (settle s) ownStat OwnStat.holder ≠ mcode m) ∧
    (∃ (h : Head) (s : State), On s ∧ owner s = some (headMaster h) ∧ s.own.lowDone = false ∧ s.devtime < s.own.expiry ∧
      4 * (s.own.expiry - s.devtime) ≤ leaseTicks s) ∧
    (∃ (s : State), On s ∧ windowOpen s = true ∧ s.own.windowEnd ≤ s.devtime) ∧
    (∃ (op : Nat) (target : Nat) (s : State), On s ∧ op < 8 ∧ (5 ≤ op ∨ (op = 4 ∧ target % 4 = 3))) :=
  ⟨⟨.hb, upd ownCfg OwnCfg.elig 1 sLive, by decide +kernel⟩,
   ⟨.svc, sLive, by decide +kernel⟩,
   ⟨.hb, sLive, by decide +kernel⟩,
   ⟨.ha, setAll [(ownStat, OwnStat.owner, 1), (ownCfg, OwnCfg.prioHb, 1)]
      { sLive with own := { expiry := 90000000, claimedAt := some 5000000 } }, .hb, by decide +kernel⟩,
   ⟨.hb, setAll [(ownStat, OwnStat.window, 1), (ownStat, OwnStat.holder, 0)] (noOwner
      {sLive with own := {windowEnd := 5000001}}), by decide +kernel⟩,
   ⟨.ha, { sLive with devtime := 89999999 }, by decide +kernel⟩,
   ⟨setAll [(ownStat, OwnStat.window, 1), (ownStat, OwnStat.holder, 0)] (noOwner
      {sLive with own := {windowEnd := 5000000}}), by decide +kernel⟩,
   ⟨7, 0, sLive, by decide +kernel⟩⟩

/-- Each clause of QueueConfigurationAndDoorbells has a state and operands that meet its hypotheses. -/
theorem test_QueueConfigurationAndDoorbells_hypotheses :
    (∃ (h : Head) (q : QueueId) (v : Nat) (s : State), On s ∧ headOff s (hnum h) = false ∧ sqCfgRefused s (hnum h) q
      (sqCfgMask (v % 2 ^ 64)) = false) ∧
    (∃ (h : Head) (q : QueueId) (v : Nat) (s : State), On s ∧ headOff s (hnum h) = false ∧ cqCfgRefused s (hnum h) q
      (cqCfgMask (v % 2 ^ 64)) = false) ∧
    (∃ (h : Head) (q : QueueId) (v : Nat) (s : State), On s ∧ headOff s (hnum h) = false ∧ sqCfgRefused s (hnum h) q
      (sqCfgMask (v % 2 ^ 64)) = true) ∧
    (∃ (h : Head) (q : QueueId) (tail : Nat) (s : State), On s ∧ headOff s (hnum h) = false ∧ linkUp s (hnum h) = true ∧
      tail < 4096 ∧ get s (queSqCfg (hnum h) q) QueSqCfg.enable = 1) ∧
    (∃ (h : Head) (q : QueueId) (head : Nat) (s : State), On s ∧ headOff s (hnum h) = false ∧ linkUp s (hnum h) = true ∧
      get s (queCqCfg (hnum h) q) QueCqCfg.enable = 1 ∧ head < 4096 ∧ head < cqSize s (hnum h) q ∧ beyondTail (cqSize
      s (hnum h) q) (cqHeadOf s (hnum h) q) (cqTail s (hnum h) q) head = false ∧ cqHeld s (hnum h) q = []) :=
  ⟨⟨.ha, 0, 1 + 4 * 2 + 4096, upd (queCqCfg 0 0) QueCqCfg.enable 1 sLive, by decide +kernel⟩,
   ⟨.ha, 63, 1 + 4 * 4 + 2 * 2 ^ 20, sLive, by decide +kernel⟩,
   ⟨.hb, 0, 1, sLive, by decide +kernel⟩,
   ⟨.ha, 0, 15, sQueue, by decide +kernel⟩,
   ⟨.ha, 0, 0, sQueue, by decide +kernel⟩⟩

/-- Each clause of SignalsRangesAndDecoders has a state and operands that meet its hypotheses. -/
theorem test_SignalsRangesAndDecoders_hypotheses :
    (∃ (h : Head) (q : QueueId) (s : State), (∀ t, tget (fun _ => none) s.host.signalled (cqKey (hnum h) q) = some t → t
      + get s (queCqCfg (hnum h) q) QueCqCfg.aggUs * usTicks ≤ s.devtime) ∧ On s ∧ tget (fun _ => false)
      s.host.unsignalled (cqKey (hnum h) q) = true ∧ linkUp s (hnum h) = true ∧ get s (queCqCfg (hnum h) q)
      QueCqCfg.irqEn = 1 ∧ get s (msixData (hnum h) (get s (queCqCfg (hnum h) q) QueCqCfg.vec)) MsixData.mask = 0) ∧
    (∃ (m : Master) (h : Head) (base : Nat) (size : Nat) (s : State), On s ∧ owner (settle s) = some m ∧ base < 1024 ∧
      size ≤ 512 ∧ (base + size) * 2 ^ 30 ≤ reservedBase (settle s) ∧ outsideSpan (settle s) (hnum h) (base * 2 ^ 30)
      (size * 2 ^ 30) = false ∧ bufferOutside (settle s) (hnum h) (base * 2 ^ 30) (size * 2 ^ 30) = false) ∧
    (∃ (h : Head) (d : Fin 4) (size : Nat) (skip : Nat) (s : State), On s ∧ linkUp s (hnum h) = true ∧ decoder s (hnum h)
      d = none ∧ 0 < size ∧ size % 0x10000000 = 0 ∧ exposed s (hnum h) (decodersEnd s (hnum h) d + skip) size = true) ∧
    (∃ (size : Nat) (s : State), On s ∧ size % 0x10000000 ≠ 0) :=
  ⟨⟨.ha, 0, { setAll [(queCqCfg 0 0, QueCqCfg.irqEn, 1), (msixData 0 0, MsixData.mask, 0)] sQueue with host := { sQueue.host with unsignalled := [(0, true)] } },
      of_all (by decide +kernel), by decide +kernel⟩,
   ⟨.ha, .ha, 0, 512, sQueue, by decide +kernel⟩,
   ⟨.ha, 3, 0x10000000, 0, {setAll [(ownHeadRange 0, OwnHeadRange.size, 128)] sLive with host := {decoders := [(0, 0, 64 * 2 ^ 30)]}},
      by decide +kernel⟩,
   ⟨1, sLive, by decide +kernel⟩⟩

/-- Each clause of CxlMemoryAccess has a state and operands that meet its hypotheses. -/
theorem test_CxlMemoryAccess_hypotheses :
    (∃ (h : Head) (dpa : Nat) (s : State), On s ∧ mapped s (hnum h) (dpa / 64 * 64) = true ∧ memClosed s = false ∧
      rangeFailed s (dpa / 64 * 64) 64 = false ∧ errsIn s (dpa / 64 * 64) 64 = []) ∧
    (∃ (h : Head) (dpa : Nat) (data : List Byte) (s : State), On s ∧ mapped s (hnum h) (dpa / 64 * 64) = true ∧ memClosed
      s = false ∧ homeFailed s (dpa / 64 * 64) = false ∧ errsIn s (dpa / 64 * 64) 64 = [] ∧ data.length = 64) ∧
    (∃ (h : Head) (dpa : Nat) (s : State), On s ∧ mapped s (hnum h) (dpa / 64 * 64) = true ∧ memClosed s = true) :=
  ⟨⟨.ha, 100, { sLive with hbm := [(64, 5)] }, by decide +kernel⟩,
   ⟨.ha, 64 * 2 ^ 30 - 1, List.replicate 64 7, sLive, by decide +kernel⟩,
   ⟨.ha, 0, upd pwrState PwrState.state 1 sLive, by decide +kernel⟩⟩

/-- Each clause of HeadLinkEvents has a state and operands that meet its hypotheses. -/
theorem test_HeadLinkEvents_hypotheses :
    (∃ (h : Head) (s : State), On s ∧ linkUp s (hnum h) = true) ∧
    (∃ (h : Head) (s : State), On s ∧ headOff s (hnum h) = false ∧ linkUp s (hnum h) = false ∧ tget (fun _ => none)
      s.host.perst (hnum h) = none ∧ devState s ≠ .spring) ∧
    (∃ (us : Nat) (s : State), On s ∧ 100 ≤ us) :=
  ⟨⟨.ha, sQueue, by decide +kernel⟩,
   ⟨.hb, upd (queHeadStat 1) QueHeadStat.linkUp 0 sLive, by decide +kernel⟩,
   ⟨100, sQueue, by decide +kernel⟩⟩

/-- Each clause of MailboxAndDoeAnswers has a state and operands that meet its hypotheses. -/
theorem test_MailboxAndDoeAnswers_hypotheses :
    (∃ (h : Head) (s : State) (uuid : _), uuid = Config.effectsLogUuid ∧ On s ∧ linkUp s (hnum h) = true) ∧
    (∃ (h : Head) (s : State), On s ∧ linkUp s (hnum h) = true) ∧
    (∃ (h : Head) (s : State) (i : _), On s ∧ linkUp s (hnum h) = true ∧ i < 3) :=
  ⟨⟨.hb, sLive, Config.effectsLogUuid, rfl, by decide +kernel⟩,
   ⟨.hb, sLive, by decide +kernel⟩,
   ⟨.hb, sLive, 2, by decide +kernel⟩⟩

/-- Each clause of DescriptorFetchTakesNextEntry has a state and operands that meet its hypotheses. -/
theorem test_DescriptorFetchTakesNextEntry_hypotheses :
    (∃ (q : Nat) (d : Nat) (next : Nat) (s : State), On s ∧ fetching s = true ∧ s.req.turnHead = 0 ∧ nextQueue s 0 = some
      q ∧ next = (get s (queSqStat 0 q) QueSqStat.head + 1) % 2 ^ get s (queSqCfg 0 q) QueSqCfg.sizeLog2 ∧ next = get
      s (queSqStat 0 q) QueSqStat.tail ∧ rangeFailed s (get s (queSqCfg 0 q) QueSqCfg.base * 4096 + 64 * get s
      (queSqStat 0 q) QueSqStat.head) 64 = false ∧ errsIn s (get s (queSqCfg 0 q) QueSqCfg.base * 4096 + 64 * get s
      (queSqStat 0 q) QueSqStat.head) 64 = [] ∧ d = hbmNat s (get s (queSqCfg 0 q) QueSqCfg.base * 4096 + 64 * get s
      (queSqStat 0 q) QueSqStat.head) 64 ∧ (∀ r ∈ s.req.reqs, r.id < s.req.nextId)) :=
  ⟨0, 0x101, 1, { upd (queSqStat 0 0) QueSqStat.tail 1 sQueue with hbm := [(4096, 1), (4097, 1)] }, by decide +kernel⟩

/-- Each clause of SchedulerChoosesAndStartsBatches has a state and operands that meet its hypotheses. -/
theorem test_SchedulerChoosesAndStartsBatches_hypotheses :
    (∃ (r : Request) (s : State), On s ∧ running s = true ∧ s.boot.fabricReset = false ∧ s.boot.quiesce = false ∧
      s.req.change = none ∧ s.req.batch = none ∧ overdueTiles s = [] ∧ s.req.choice = none ∧ changeTo s = none ∧
      eldest s (readyActive s) = some r) ∧
    (∃ (i : Nat) (s : State), On s ∧ running s = true ∧ s.boot.fabricReset = false ∧ s.boot.quiesce = false ∧
      s.req.change = none ∧ s.req.batch = none ∧ overdueTiles s = [] ∧ s.req.recorded = some i ∧ slotState s i =
      ssStaged ∧ geometryOk s i = true) ∧
    (∃ (i : Nat) (m : Nat) (s : State), On s ∧ running s = true ∧ s.boot.fabricReset = false ∧ s.boot.quiesce = false ∧
      s.req.change = none ∧ s.req.batch = none ∧ activeSlot s = some i ∧ s.req.choice = some m ∧ batchDue s m = true
      ∧ (∀ r ∈ readyModel s m, dsDeadline r.desc = 0) ∧ get s intCtrl IntCtrl.mode = intMode s ∧ batchChunks s m ≠ []
      ∧ remapHolds s i m = false ∧ s.hbmState.errs = [] ∧ get s hbmMapStat HbmMapStat.failed = 0) ∧
    (∃ (i : Nat) (m : Nat) (s : State), activeSlot s = some i ∧ s.req.choice = some m ∧ remapHolds s i m = true) ∧
    (∃ (id : Nat) (x : Request) (s : State), On s ∧ findReq s id = some x ∧ x.accepted = true ∧ dsOpcode x.desc = opInfer
      ∧ x.running = false ∧ x.status = none ∧ dsDeadline x.desc ≠ 0 ∧ x.time + dsDeadline x.desc * usTicks <
      s.devtime) :=
  ⟨⟨aRequest, sBatch, by decide +kernel⟩,
   ⟨0, { setAll [(supSeasonStat 0, SupSeasonStat.state, ssStaged)] sBatch with req := { sBatch.req with recorded := some 0 } },
      by decide +kernel⟩,
   ⟨0, 0, { sBatch with req := { sBatch.req with choice := some 0 }, regs := (upd intStat IntStat.mode (get sBatch intCtrl IntCtrl.mode) sBatch).regs },
      by decide +kernel⟩,
   ⟨0, 0, { sPlan with req := { sBatch.req with choice := some 0 }, boot := { sBatch.boot with remapQueue := [(0, 0)] } },
      by decide +kernel⟩,
   ⟨7, { aRequest with desc := 1 + 2 ^ 384 },
      { sBatch with req := { sBatch.req with reqs := [{ aRequest with desc := 1 + 2 ^ 384 }] } }, by decide +kernel⟩⟩

/-- Each clause of CompletionEntryIsWritten has a state and operands that meet its hypotheses. -/
theorem test_CompletionEntryIsWritten_hypotheses :
    (∃ (id : Nat) (a : Nat) (x : Request) (s : State), On s ∧ s.req.batch = none ∧ findReq s id = some x ∧
      (s.req.due.find? fun i => match findReq s i with | some y => y.head == x.head && y.cq == x.cq | none => false)
      = some id ∧ x.head < 2 ∧ cqFull s x.head x.cq = false ∧ cqHeld s x.head x.cq = [] ∧ a = get s (queCqCfg x.head
      x.cq) QueCqCfg.base * 4096 + 32 * cqTail s x.head x.cq ∧ homeFailed s a = false ∧ errsIn s a 32 = [] ∧ owedOut
      s x = false) :=
  ⟨7, 8192, { aRequest with status := some 0 },
    { sQueue with req := { reqs := [{ aRequest with status := some 0 }], nextId := 8, due := [7] } },
    by decide +kernel⟩

/-- Each clause of SeasonCommands has a state and operands that meet its hypotheses. -/
theorem test_SeasonCommands_hypotheses :
    (∃ (m : Master) (i : SlotId) (src : Nat) (s : State), On s ∧ owner (settle s) = some m ∧ stageRuns (settle s) = false
      ∧ s.req.deferred = none ∧ s.req.change = none ∧ src < 2 ^ 34 ∧ (slotState s i = ssEmpty ∨ slotState s i =
      ssStaged ∨ slotState s i = ssRefused)) ∧
    (∃ (m : Master) (i : SlotId) (src : Nat) (s : State), On s ∧ owner (settle s) = some m ∧ stageRuns (settle s) = false
      ∧ s.req.deferred = none ∧ s.req.change = none ∧ src < 2 ^ 34 ∧ (slotState s i = ssRefused ∨ (slotState s i =
      ssStaged ∧ seasonNamed s i = false))) ∧
    (∃ (m : Master) (i : SlotId) (src : Nat) (s : State), On s ∧ owner (settle s) = some m ∧ stageRuns (settle s) = false
      ∧ s.req.deferred = none ∧ s.req.change = none ∧ src < 2 ^ 34 ∧ slotState s i = ssStaged) ∧
    (∃ (i : SlotId) (s : State), On s ∧ slotState s i = ssStaging) ∧
    (∃ (m : Master) (base : Nat) (size : Nat) (count : Nat) (s : State), On s ∧ owner (settle s) = some m ∧ base < 2 ^ 34
      ∧ size < 7 ∧ count < 2 ^ 21 ∧ base * 4096 + count * (0x10000 * 2 ^ size) ≤ reservedBase (settle s) ∧ (∀ r ∈
      s.req.reqs, r.stateful = false)) :=
  ⟨⟨.ha, 7, 2 ^ 34 - 1, sQueue, by decide +kernel⟩,
   ⟨.ha, 7, 2 ^ 34 - 1, upd (supSeasonStat 7) SupSeasonStat.state ssStaged sQueue, by decide +kernel⟩,
   ⟨.ha, 7, 0, upd (supSeasonStat 7) SupSeasonStat.state ssStaged sQueue, by decide +kernel⟩,
   ⟨7, upd (supSeasonStat 7) SupSeasonStat.state ssStaging sQueue, by decide +kernel⟩,
   ⟨.ha, 2 ^ 20, 6, 7, sQueue, by decide +kernel⟩⟩

/-- Each clause of SeasonChangeSteps has a state and operands that meet its hypotheses. -/
theorem test_SeasonChangeSteps_hypotheses :
    (∃ (i : Nat) (s : State), On s ∧ running s = true ∧ s.boot.fabricReset = false ∧ s.req.change = some (i, .draining) ∧
      s.req.batch = none ∧ s.req.testOpen = false ∧ trafficQuiet s = true ∧ s.req.spillOpen = [] ∧ geometryOk s i =
      true) ∧
    (∃ (i : Nat) (s : State), On s ∧ running s = true ∧ s.boot.fabricReset = false ∧ s.req.change = some (i, .loading) ∧
      s.req.testOpen = false ∧ s.hbmState.errs = []) ∧
    (∃ (i : Nat) (s : State), On s ∧ running s = true ∧ s.boot.fabricReset = false ∧ i < 8 ∧ s.req.change = some (i,
      .confirming) ∧ (∀ t, t < tileCount s → tileOff s t = true ∨ microcodeOk s t = true) ∧ s.req.deferred = none) :=
  ⟨⟨0, sChange .draining, by decide +kernel⟩,
   ⟨0, sChange .loading, by decide +kernel⟩,
   ⟨0, sChange .confirming, by decide +kernel⟩⟩

/-- Each clause of LayersAndStreamState has a state and operands that meet its hypotheses. -/
theorem test_LayersAndStreamState_hypotheses :
    (∃ (b : Batch) (s : State), On s ∧ s.req.batch = some b ∧ b.layerRunning = false ∧ b.layer < batchLayers s b ∧
      s.req.testOpen = false ∧ running s = true ∧ s.boot.fabricReset = false ∧ s.boot.quiesce = false ∧
      s.integ.selected = [] ∧ graphEmpty s = true ∧ (b.layer = 0 → stateLoaded s b = true) ∧ s.hbmState.errs = [] ∧
      get s hbmMapStat HbmMapStat.failed = 0) ∧
    (∃ (b : Batch) (s : State), On s ∧ s.req.batch = some b ∧ b.layerRunning = true ∧ sinksDone s = true ∧ (∀ t ∈
      graphTiles s, residueOf (tile s t) = none) ∧ b.layer + 1 < batchLayers s b ∧ batchEmpty b = false) ∧
    (∃ (t : TileId) (chunk : Nat) (i : Nat) (id : Nat) (m : Nat) (k : Nat) (r : Request) (s : State), On s ∧ activeSlot s
      = some i ∧ placeOf s chunk = some (id, m, k) ∧ findReq s id = some r ∧ tileOff s t = false ∧ r.stateful = true
      ∧ r.status = none ∧ s.req.loaded.contains (id, t.val, k) = false ∧ mayLoad s (slotBase s i) id m = true ∧
      streamStarts r = true) ∧
    (partUnits (statePart sStateful 0 0 0) ≠ 0 → 1 ∈ partTiles sStateful 0 0 → ∃ (t : TileId) (chunk : Nat) (t' : Nat) (b
      : Batch) (r : Request) (s : State), partUnits (statePart s b.model t chunk) ≠ 0 ∧ t' ∈ partTiles s b.model
      chunk ∧ On s ∧ s.req.batch = some b ∧ (b.reqs[chunk]?).bind (findReq s) = some r ∧ tileOff s t = false ∧
      batchRan s b = true ∧ r.stateful = true ∧ streamEnds r = false ∧ b.stored.contains (r.id, t.val) = false ∧
      (tile s t).errs = [] ∧ t' ≠ t.val ∧ b.stored.contains (r.id, t') = false ∧ findReq s r.id = some r ∧
      b.reqs[chunk]? = some r.id ∧ batchLive b r.id = true) :=
  ⟨⟨{ slot := 0, model := 0, reqs := [7] }, sRunning, by decide +kernel⟩,
   ⟨{ slot := 0, model := 0, reqs := [7], layerRunning := true },
      { sRunning with req := { sRunning.req with batch := some { slot := 0, model := 0, reqs := [7], layerRunning := true } } },
      by decide +kernel⟩,
   ⟨0, 0, 0, 7, 0, 0, { aRequest with stateful := true, desc := 0x101 },
      { sBatch with req := { sBatch.req with reqs := [{ aRequest with stateful := true, desc := 0x101 }] } },
      by decide +kernel⟩,
   fun o0 o1 => ⟨0, 0, 1, { slot := 0, model := 0, reqs := [7], layer := 3 },
      { aRequest with stateful := true, desc := 0x101, running := true }, sStateful, o0, o1, by decide +kernel⟩⟩

/-- Each clause of TileControlBits has a state and operands that meet its hypotheses. -/
theorem test_TileControlBits_hypotheses :
    (∃ (t : TileId) (s : State), On s ∧ regOff s (tilCtrl t) = false ∧ microcodeOk s t = true ∧ (tileSt s t = tsIdle ∨
      (tileSt s t = tsHalt ∧ get s (tilCtrl t) TilCtrl.haltReq = 0 ∧ faultHeld s t = false))) ∧
    (∃ (t : TileId) (s : State), On s ∧ regOff s (tilCtrl t) = false ∧ tileSt s t = tsRun) ∧
    (∃ (t : TileId) (s : State), On s ∧ regOff s (tilCtrl t) = false ∧ ((tileSt s t = tsIdle ∧ microcodeOk s t = true) ∨
      tileSt s t = tsRun)) ∧
    (∃ (t : TileId) (s : State), On s ∧ regOff s (tilCtrl t) = false ∧ tileSt s t = tsTest) ∧
    (∃ (t : TileId) (s : State), On s ∧ regOff s (tilCtrl t) = false) ∧
    (∃ (m : Master) (s : State), On s ∧ m ≠ .fw) :=
  ⟨⟨0, sLive, by decide +kernel⟩,
   ⟨0, upd (tilStat 0) TilStat.state tsRun sLive, by decide +kernel⟩,
   ⟨0, sLive, by decide +kernel⟩,
   ⟨0, upd (tilStat 0) TilStat.state tsTest sLive, by decide +kernel⟩,
   ⟨0, sLive, by decide +kernel⟩,
   ⟨.ha, sLive, by decide +kernel⟩⟩

/-- Each clause of TileFaultsAndReset has a state and operands that meet its hypotheses. -/
theorem test_TileFaultsAndReset_hypotheses :
    (∃ (t : TileId) (s : State), Inv s ∧ On s ∧ regOff s (tilCtrl t) = false) ∧
    (∃ (t : TileId) (s : State), On s ∧ regOff s (tilFault t) = false) ∧
    (∃ (t : TileId) (s : State), On s ∧ regOff s (tilDfFault t) = false) ∧
    (∃ (t : TileId) (s : State), On s ∧ tileSt s t = tsDrain ∧ ((tile s t).passes.any fun r => r.phase == .running) =
      false ∧ (tile s t).kernel = none) ∧
    (∃ (t : TileId) (s : State), Inv s ∧ On s ∧ tileOff s t = false ∧ awaitsRun s t = false) :=
  ⟨⟨0, sLive, ⟨by decide +kernel, by decide +kernel, by decide +kernel, by decide +kernel, by decide +kernel⟩,
      by decide +kernel⟩,
   ⟨0, upd (tilFault 0) TilFault.valid 1 sLive, by decide +kernel⟩,
   ⟨0, upd (tilDfFault 0) TilDfFault.valid 1 sLive, by decide +kernel⟩,
   ⟨0, upd (tilStat 0) TilStat.state tsDrain sLive, by decide +kernel⟩,
   ⟨0, { setAll [(tilStat 0, TilStat.state, tsHalt), (tilFault 0, TilFault.valid, 1)] sLive with tiles := [(0, { wm := [(0, 5)] })] },
      ⟨by decide +kernel, by decide +kernel, by decide +kernel, by decide +kernel, by decide +kernel⟩,
      by decide +kernel⟩⟩

/-- Each clause of TagMatcherFires has a state and operands that meet its hypotheses. -/
theorem test_TagMatcherFires_hypotheses :
    (∃ (t : TileId) (s : State), On s ∧ tileOff s t = false) ∧
    (∃ (t : TileId) (v : Nat) (g : Nat) (rest : List Nat) (s : State) (s1 : State), On s ∧ tileSt s t = tsRun ∧ s1 =
      updTile t (fun x => { x with tclk := x.tclk + 1 }) s ∧ roundRobin (tile s1 t) = v :: rest ∧ firable (tile s1 t)
      v = some g ∧ mayFire s1 t v g = true ∧ (tile s t).errs = []) ∧
    (∃ (t : TileId) (q : Nat) (i : Nat) (f : Flight) (s : State), (∀ v, consumer (tile s t) q = some v → distance
      (unitRun (tile s t) v).base (opTag f.op) < 2048) ∧ On s ∧ tileOff s t = false ∧ findIdxFrom (fun f => f.q == q
      && decide (f.due ≤ (tile s t).tclk)) 0 (tile s t).flight = some (i, f) ∧ opIdx f.op < quRate (queueDesc (tile s
      t) q) ∧ (∀ o ∈ (queueRun (tile s t) q).items, ¬ (opTag o.op = opTag f.op ∧ opIdx o.op = opIdx f.op)) ∧ (∀ o ∈
      (queueRun (tile s t) q).spilled, ¬ (o.tag = opTag f.op ∧ o.idx = opIdx f.op)) ∧ f.words = []) ∧
    (∃ (t : TileId) (q : Nat) (i : Nat) (v : Nat) (f : Flight) (s : State), On s ∧ tileOff s t = false ∧ findIdxFrom (fun
      f => f.q == q && decide (f.due ≤ (tile s t).tclk)) 0 (tile s t).flight = some (i, f) ∧ consumer (tile s t) q =
      some v ∧ 2048 ≤ distance (unitRun (tile s t) v).base (opTag f.op) ∧ get s (tilDfFault t) TilDfFault.valid = 0 ∧
      f.words = []) ∧
    (∃ (t : TileId) (q : Nat) (i : Nat) (flips : List (Nat × Nat)) (f : Flight) (s : State), On s ∧ tileOff s t = false ∧
      findIdxFrom (fun f => f.q == q && decide (f.due ≤ (tile s t).tclk)) 0 (tile s t).flight = some (i, f) ∧ f.words
      ≠ [] ∧ ((flipWords flips f.words).any wordBad) = true) ∧
    (∃ (t : TileId) (v : Nat) (g : Nat) (n : Nat) (s : State), On s ∧ tileSt s t = tsRun ∧ (unitRun (tile s t) v).timer =
      some (g, n) ∧ 2 ^ s.req.horizon ≤ n ∧ get s (tilDfFault t) TilDfFault.valid = 0) :=
  ⟨⟨0, sRing, by decide +kernel⟩,
   ⟨0, 1, 0, [2], { sRing with tiles := [(0, { ringTile with credit := [(1, 1)] })] }, updTile 0 (fun x =>
      { x with tclk := x.tclk + 1 }) { sRing with tiles := [(0, { ringTile with credit := [(1, 1)] })] },
      by decide +kernel⟩,
   ⟨0, 1, 0, { q := 1, op := 1, due := 1024 },
      { sRing with tiles := [(0, { ringTile with flight := [{ q := 1, op := 1, due := 1024 }] })] }, of_all
      (by decide +kernel), by decide +kernel⟩,
   ⟨0, 1, 0, 2, { q := 1, op := 2048, due := 1024 },
      { sRing with tiles := [(0, { ringTile with flight := [{ q := 1, op := 2048, due := 1024 }] })] },
      by decide +kernel⟩,
   ⟨0, 1, 0, [(0, 3)], { q := 1, op := 1, due := 1024, words := [[laneWord true [5]]] },
      { sRing with tiles := [(0, { ringTile with flight := [{ q := 1, op := 1, due := 1024, words := [[laneWord true [5]]] }] })] },
      by decide +kernel⟩,
   ⟨0, 2, 0, 2 ^ 16, { sRing with tiles := [(0, { ringTile with units := [(2, { timer := some (0, 2 ^ 16) })] })] },
      by decide +kernel⟩⟩

/-- Each clause of DeadlockDetection has a state and operands that meet its hypotheses. -/
theorem test_DeadlockDetection_hypotheses :
    (∃ (t : TileId) (f : Nat) (s : State), (∀ g o, g ≠ f → tget (fun _ => none) s.net.searches g = some o → o.cycle = [])
      ∧ On s ∧ f = tileField s t ∧ bit1 s.req.dfCtrl 0 = true ∧ tileSt s t = tsRun ∧ detectorsHeld s = false ∧ (tile
      s t).quiet ≠ 0 ∧ (tile s t).quiet % 2 ^ quietLog2 s.req.dfCtrl = 0 ∧ outWaiters s t ≠ [] ∧ takesReport s f t =
      true) ∧
    (∃ (f : FieldId) (se : Search) (s : State), On s ∧ tget (fun _ => none) s.net.searches f.val = some se ∧ se.cycle =
      [] ∧ detectorsHeld s = false) ∧
    (∃ (f : FieldId) (se : Search) (s : State), On s ∧ tget (fun _ => none) s.net.searches f.val = some se ∧ se.cycle ≠
      [] ∧ detectorsHeld s = false) ∧
    (∃ (f : FieldId) (se : Search) (s : State), On s ∧ tget (fun _ => none) s.net.searches f.val = some se ∧ se.cycle ≠
      [] ∧ detectorsHeld s = false ∧ (∀ g ∈ otherFields s f se.cycle, g ∈ se.again) ∧ se.cycle.map (memberMark s) ≠
      se.marks) ∧
    (∃ (f : FieldId) (se : Search) (s : State), On s ∧ tget (fun _ => none) s.net.searches f.val = some se ∧ se.cycle ≠
      [] ∧ detectorsHeld s = false ∧ (∀ g ∈ otherFields s f se.cycle, g ∈ se.again) ∧ se.cycle.map (memberMark s) =
      se.marks ∧ selectQueue s se.cycle = none ∧ tileOff s se.origin = false ∧ get s (tilDfFault se.origin)
      TilDfFault.valid = 0) :=
  ⟨⟨0, 0, { sRing with tiles := [(0, { ringTile with tclk := 4096, quiet := 2048 })] }, no_search, by decide +kernel⟩,
   ⟨0, { ringSearch with cycle := [], marks := [] },
      { sClaimed { ringSearch with cycle := [], marks := [] } with tiles := [(0, { ringTile with tclk := 4096, quiet := 2048 })] },
      by decide +kernel⟩,
   ⟨0, ringSearch, sClaimed ringSearch, by decide +kernel⟩,
   ⟨0, { ringSearch with marks := [0, 1] }, sClaimed { ringSearch with marks := [0, 1] }, by decide +kernel⟩,
   ⟨0, ringSearch, { sClaimed ringSearch with tiles := [(0, { ringTile with queueTab := [(0, 1), (1, 1)] })] },
      by decide +kernel⟩⟩

/-- Each clause of SpillsAreLossless has a state and operands that meet its hypotheses. -/
theorem test_SpillsAreLossless_hypotheses :
    (∃ (f : FieldId) (se : Search) (t : Nat) (q : Nat) (s : State), On s ∧ tget (fun _ => none) s.net.searches f.val =
      some se ∧ se.cycle ≠ [] ∧ detectorsHeld s = false ∧ se.cycle.map (memberMark s) = se.marks ∧ selectQueue s
      se.cycle = some (t, q) ∧ (∀ g ∈ otherFields s f se.cycle, g ∈ se.again) ∧ (bits s.req.dfCtrl 11 8 = 0 ∨
      s.req.spills < bits s.req.dfCtrl 11 8) ∧ (spillPlaces (tile s t) false).length + (queueRun (tile s t)
      q).items.length ≤ spillRoom s t) ∧
    (∃ (t : TileId) (q : Nat) (s : State), On s ∧ (t.val, q) ∈ s.req.spillOpen ∧ (engine s t 3).run = none) ∧
    (∃ (t : TileId) (q : Nat) (o : SpillRef) (rest : List SpillRef) (s : State), On s ∧ tileWorks s t = true ∧ (queueRun
      (tile s t) q).opening = false ∧ (∀ i ∈ (queueRun (tile s t) q).items, i.drained = false) ∧ (queueRun (tile s t)
      q).spilled = o :: rest ∧ o.hbm = false ∧ (tile s t).errs = []) :=
  ⟨⟨0, ringSearch, 0, 0, upd (supSeasonStat 0) SupSeasonStat.state ssActive
      { sClaimed ringSearch with hbm := (slotBase sBatch 0 + 2, 1) :: sBatch.hbm }, by decide +kernel⟩,
   ⟨0, 1, { sRing with req := { sRing.req with spillOpen := [(0, 1)] } }, by decide +kernel⟩,
   ⟨0, 1, aRef 1, [aRef 2], { sRing with tiles := [(0, { ringTile with queues := [(1, { spilled := [aRef 1, aRef 2], reserve := true })] })] },
      by decide +kernel⟩⟩

/-- Each clause of PassesThroughTheArrays has a state and operands that meet its hypotheses. -/
theorem test_PassesThroughTheArrays_hypotheses :
    (∃ (t : TileId) (j : SeqJob) (rest : List SeqJob) (s : State), On s ∧ tileSt s t = tsRun ∧ (tile s t).errs = [] ∧
      (tile s t).passQ = j :: rest ∧ passesAhead (tile s t) < 2 ∧ passOk (passDesc (tile s t) j.target) = true ∧ (∀ r
      ∈ passRanges (tile s t) (taskEntry s t j.task) (passDesc (tile s t) j.target), admits (taskEntry s t j.task)
      r.1 r.2.1 r.2.2 = true)) ∧
    (∃ (t : TileId) (j : SeqJob) (rest : List SeqJob) (s : State), On s ∧ tileSt s t = tsRun ∧ (tile s t).errs = [] ∧
      (tile s t).passQ = j :: rest ∧ passesAhead (tile s t) < 2 ∧ passOk (passDesc (tile s t) j.target) = false ∧ get
      s (tilFault t) TilFault.valid = 0) ∧
    (∃ (t : TileId) (i : Nat) (r : PassRun) (s : State), On s ∧ tileWorks s t = true ∧ findIdxFrom (fun r => r.phase ==
      .issued) 0 (tile s t).passes = some (i, r) ∧ ((tile s t).passes.filter holdsHalf).length < 2) ∧
    (∃ (t : TileId) (i : Nat) (r : PassRun) (s : State) (h : WeightHalf), On s ∧ tileWorks s t = true ∧ (tile s t).errs =
      [] ∧ findIdxFrom (fun r => r.phase == .fetching) 0 (tile s t).passes = some (i, r) ∧ weightSet s t (passDesc
      (tile s t) r.job.target) (taskEntry s t r.job.task) r.half.heads = some h) ∧
    (∃ (t : TileId) (i : Nat) (r : PassRun) (s : State), weightSet s t (passDesc (tile s t) r.job.target) (taskEntry s t
      r.job.task) r.half.heads = none ∧ On s ∧ tileWorks s t = true ∧ (tile s t).errs = [] ∧ findIdxFrom (fun r =>
      r.phase == .fetching) 0 (tile s t).passes = some (i, r) ∧ get s (tilFault t) TilFault.valid = 0) ∧
    (∃ (t : TileId) (i : Nat) (r : PassRun) (s : State), On s ∧ tileSt s t = tsRun ∧ findIdxFrom (fun r => r.phase !=
      .running) 0 (tile s t).passes = some (i, r) ∧ r.phase = .fetched ∧ enteringPass (tile s t) = none ∧ (tile s
      t).frontAt ≤ (tile s t).tclk) ∧
    (∃ (t : TileId) (i : Nat) (r : PassRun) (ops : List AccOp) (s : State), On s ∧ tileWorks s t = true ∧ (tile s t).errs
      = [] ∧ findIdxFrom (passDone (tile s t)) 0 (tile s t).passes = some (i, r) ∧ ops.all accOk = true) ∧
    (∃ (t : TileId) (i : Nat) (r : PassRun) (ops : List AccOp) (s : State), On s ∧ tileWorks s t = true ∧ (tile s t).errs
      = [] ∧ findIdxFrom (passDone (tile s t)) 0 (tile s t).passes = some (i, r) ∧ ops.all accOk = false ∧ get s
      (tilFault t) TilFault.valid = 0 ∧ ((tget (fun _ => []) s.integ.faults t).filter fun x => decide (s.devtime < x
      + 3600 * secTicks)).length < 2) :=
  ⟨⟨0, passJob, [], sTile { istore := aStore, passQ := [passJob] }, by decide +kernel⟩,
   ⟨0, passJob, [], sTile { passQ := [passJob] }, by decide +kernel⟩,
   ⟨0, 0, { job := passJob }, sPass { job := passJob }, by decide +kernel⟩,
   ⟨0, 0, { job := passJob, phase := .fetching }, sPass { job := passJob, phase := .fetching }, (weightSet (sPass
      { job := passJob, phase := .fetching }) 0 (passDesc { istore := aStore } 0) 0 []).getD {}, by decide +kernel⟩,
   ⟨0, 0, aLongPass, sLongLane, longLane, by decide +kernel⟩,
   ⟨0, 0, { job := passJob, phase := .fetched }, sPass { job := passJob, phase := .fetched }, by decide +kernel⟩,
   ⟨0, 0, { job := passJob, phase := .running, entered := 1, left := 1, latched := true }, [], sPass
      ({ job := passJob, phase := .running, entered := 1, left := 1, latched := true }), by decide +kernel⟩,
   ⟨0, 0, { job := passJob, phase := .running, entered := 1, left := 1, latched := true },
      [{ part := 0, column := 1, result := 3 }], sPass
      ({ job := passJob, phase := .running, entered := 1, left := 1, latched := true }), by decide +kernel⟩⟩

/-- Each clause of VectorInstructions has a state and operands that meet its hypotheses. -/
theorem test_VectorInstructions_hypotheses :
    (∃ (t : TileId) (k : KernelRun) (op : VecOp) (o : SpFields) (s : State), SpReady (isInstr .arith o) t k s ∧ (∀ r, op
      ≠ .cmp r) ∧ On s) ∧
    (∃ (t : TileId) (k : KernelRun) (o : SpFields) (s : State), SpReady (isInstr .arith o) t k s ∧ On s) ∧
    (∃ (t : TileId) (k : KernelRun) (o : SpFields) (s : State), SpReady (isInstr .convert o) t k s ∧ On s) ∧
    (∃ (t : TileId) (k : KernelRun) (o : SpFields) (s : State), SpReady (isInstr .function o) t k s ∧ On s) ∧
    (∃ (t : TileId) (k : KernelRun) (o : SpFields) (s : State), SpReady (isInstr .logic o) t k s ∧ On s) ∧
    (∃ (t : TileId) (k : KernelRun) (o : SpFields) (s : State), SpReady (isInstr .reduce o) t k s ∧ On s) :=
  ⟨⟨0, aKernel, .add, { ty := .fp32, vd := 1, va := 1, vb := 2, vc := 1, ps := 0, imm := 0 }, withWord (wordOf .arith
      ({ ty := .fp32, vd := 1, va := 1, vb := 2, vc := 1, ps := 0, imm := 0 })) sKernel, ⟨by decide +kernel,
      by decide +kernel, by decide +kernel, by decide +kernel, by decide +kernel, by decide +kernel⟩, add_no_cmp,
      by decide +kernel⟩,
   ⟨0, aKernel, { ty := .fp32, vd := 3, va := 1, vb := 2, vc := 1, ps := 0, imm := 0 }, withWord (wordOf .arith
      ({ ty := .fp32, vd := 3, va := 1, vb := 2, vc := 1, ps := 0, imm := 0 })) sKernel, ⟨by decide +kernel,
      by decide +kernel, by decide +kernel, by decide +kernel, by decide +kernel, by decide +kernel⟩,
      by decide +kernel⟩,
   ⟨0, aKernel, { ty := .fp32, vd := 1, va := 1, vb := 2, vc := 1, ps := 0, imm := 0 }, withWord (wordOf .convert
      ({ ty := .fp32, vd := 1, va := 1, vb := 2, vc := 1, ps := 0, imm := 0 })) sKernel, ⟨by decide +kernel,
      by decide +kernel, by decide +kernel, by decide +kernel, by decide +kernel, by decide +kernel⟩,
      by decide +kernel⟩,
   ⟨0, aKernel, { ty := .fp32, vd := 1, va := 1, vb := 2, vc := 1, ps := 0, imm := 0 }, withWord (wordOf .function
      ({ ty := .fp32, vd := 1, va := 1, vb := 2, vc := 1, ps := 0, imm := 0 })) sKernel, ⟨by decide +kernel,
      by decide +kernel, by decide +kernel, by decide +kernel, by decide +kernel, by decide +kernel⟩,
      by decide +kernel⟩,
   ⟨0, aKernel, { ty := .fp32, vd := 1, va := 1, vb := 2, vc := 1, ps := 0, imm := 0 }, withWord (wordOf .logic
      ({ ty := .fp32, vd := 1, va := 1, vb := 2, vc := 1, ps := 0, imm := 0 })) sKernel, ⟨by decide +kernel,
      by decide +kernel, by decide +kernel, by decide +kernel, by decide +kernel, by decide +kernel⟩,
      by decide +kernel⟩,
   ⟨0, aKernel, { ty := .fp32, vd := 1, va := 1, vb := 2, vc := 1, ps := 0, imm := 0 }, withWord (wordOf .reduce
      ({ ty := .fp32, vd := 1, va := 1, vb := 2, vc := 1, ps := 0, imm := 0 })) sKernel, ⟨by decide +kernel,
      by decide +kernel, by decide +kernel, by decide +kernel, by decide +kernel, by decide +kernel⟩,
      by decide +kernel⟩⟩

/-- Each clause of TileMemoryInstructions has a state and operands that meet its hypotheses. -/
theorem test_TileMemoryInstructions_hypotheses :
    (∃ (t : TileId) (k : KernelRun) (mem : SpMem) (o : SpFields) (a : Nat) (s : State), SpReady (isInstr .memory o) t k s
      ∧ On s ∧ spAdmits (runTask s t k) (spMem mem) o.imm 256 = true ∧ a = 64 * taskBase (runTask s t k) (spMem mem)
      + o.imm ∧ o.ps % 4 = 0) ∧
    (∃ (t : TileId) (k : KernelRun) (mem : SpMem) (o : SpFields) (a : Nat) (s : State), SpReady (isInstr .memory o) t k s
      ∧ On s ∧ spAdmits (runTask s t k) (spMem mem) o.imm 8 = true ∧ a = 64 * taskBase (runTask s t k) (spMem mem) +
      o.imm) ∧
    (∃ (t : TileId) (k : KernelRun) (o : SpFields) (a : Nat) (s : State), SpReady (isInstr .memory o) t k s ∧ On s ∧
      spAdmits (runTask s t k) memPm o.imm 768 = true ∧ a = 64 * taskBase (runTask s t k) memPm + o.imm ∧ o.vd ≤ 29) ∧
    (∃ (t : TileId) (k : KernelRun) (o : SpFields) (a : Nat) (s : State), SpReady (isInstr .memory o) t k s ∧ On s ∧
      spAdmits (runTask s t k) memPm o.imm 768 = true ∧ a = 64 * taskBase (runTask s t k) memPm + o.imm ∧ o.va ≤ 29) ∧
    (∃ (t : TileId) (k : KernelRun) (o : SpFields) (a : Nat) (s : State), SpReady (isInstr .memory o) t k s ∧ On s ∧
      spAdmits (runTask s t k) memPm o.imm 768 = true ∧ a = 64 * taskBase (runTask s t k) memPm + o.imm ∧ 29 < o.vd ∧
      get s (tilFault t) TilFault.valid = 0) ∧
    (∃ (t : TileId) (k : KernelRun) (o : SpFields) (s : State), SpReady (isInstr .memory o) t k s ∧ On s ∧ spAdmits
      (runTask s t k) memAm o.imm 1 = true) ∧
    (∃ (t : TileId) (k : KernelRun) (o : SpFields) (s : State), SpReady (isInstr .convert o) t k s ∧ On s ∧ o.va ≤ 29) ∧
    (∃ (t : TileId) (k : KernelRun) (o : SpFields) (vs : List Machine.Num) (s : State), SpReady (isInstr .convert o) t k
      s ∧ On s ∧ vs = (List.range 32).map (fun l => decodeFp fFp32 (vlane (tile s t) o.va l))) ∧
    (∃ (t : TileId) (k : KernelRun) (mem : SpMem) (o : SpFields) (s : State), SpReady (isInstr .memory o) t k s ∧ On s ∧
      spAdmits (runTask s t k) (spMem mem) o.imm 256 = false ∧ get s (tilFault t) TilFault.valid = 0) :=
  ⟨⟨0, aKernel, .am, { ty := .fp32, vd := 29, va := 1, vb := 2, vc := 1, ps := 0, imm := 128 }, 128, withWord (wordOf
      .memory ({ ty := .fp32, vd := 29, va := 1, vb := 2, vc := 1, ps := 0, imm := 128 })) sKernel,
      ⟨by decide +kernel, by decide +kernel, by decide +kernel, by decide +kernel, by decide +kernel,
      by decide +kernel⟩, by decide +kernel⟩,
   ⟨0, aKernel, .am, { ty := .fp32, vd := 15, va := 1, vb := 2, vc := 1, ps := 0, imm := 130 }, 130, withWord (wordOf
      .memory ({ ty := .fp32, vd := 15, va := 1, vb := 2, vc := 1, ps := 0, imm := 130 })) sKernel,
      ⟨by decide +kernel, by decide +kernel, by decide +kernel, by decide +kernel, by decide +kernel,
      by decide +kernel⟩, by decide +kernel⟩,
   ⟨0, aKernel, { ty := .fp32, vd := 29, va := 1, vb := 2, vc := 1, ps := 1, imm := 128 }, 128, withWord (wordOf .memory
      ({ ty := .fp32, vd := 29, va := 1, vb := 2, vc := 1, ps := 1, imm := 128 })) sKernel, ⟨by decide +kernel,
      by decide +kernel, by decide +kernel, by decide +kernel, by decide +kernel, by decide +kernel⟩,
      by decide +kernel⟩,
   ⟨0, aKernel, { ty := .fp32, vd := 29, va := 1, vb := 2, vc := 1, ps := 1, imm := 128 }, 128, withWord (wordOf .memory
      ({ ty := .fp32, vd := 29, va := 1, vb := 2, vc := 1, ps := 1, imm := 128 })) sKernel, ⟨by decide +kernel,
      by decide +kernel, by decide +kernel, by decide +kernel, by decide +kernel, by decide +kernel⟩,
      by decide +kernel⟩,
   ⟨0, aKernel, { ty := .fp32, vd := 30, va := 1, vb := 2, vc := 1, ps := 1, imm := 128 }, 128, withWord (wordOf .memory
      ({ ty := .fp32, vd := 30, va := 1, vb := 2, vc := 1, ps := 1, imm := 128 })) sKernel, ⟨by decide +kernel,
      by decide +kernel, by decide +kernel, by decide +kernel, by decide +kernel, by decide +kernel⟩,
      by decide +kernel⟩,
   ⟨0, aKernel, { ty := .fp32, vd := 29, va := 1, vb := 2, vc := 1, ps := 1, imm := 128 }, withWord (wordOf .memory
      ({ ty := .fp32, vd := 29, va := 1, vb := 2, vc := 1, ps := 1, imm := 128 })) sKernel, ⟨by decide +kernel,
      by decide +kernel, by decide +kernel, by decide +kernel, by decide +kernel, by decide +kernel⟩,
      by decide +kernel⟩,
   ⟨0, aKernel, { ty := .fp32, vd := 15, va := 29, vb := 2, vc := 1, ps := 0, imm := 130 }, withWord (wordOf .convert
      ({ ty := .fp32, vd := 15, va := 29, vb := 2, vc := 1, ps := 0, imm := 130 })) sKernel, ⟨by decide +kernel,
      by decide +kernel, by decide +kernel, by decide +kernel, by decide +kernel, by decide +kernel⟩,
      by decide +kernel⟩,
   ⟨0, aKernel, { ty := .fp32, vd := 29, va := 1, vb := 2, vc := 1, ps := 1, imm := 128 }, (List.range 32).map (fun l =>
      decodeFp fFp32 (vlane (tile sKernel 0) 1 l)), withWord (wordOf .convert
      ({ ty := .fp32, vd := 29, va := 1, vb := 2, vc := 1, ps := 1, imm := 128 })) sKernel, ⟨by decide +kernel,
      by decide +kernel, by decide +kernel, by decide +kernel, by decide +kernel, by decide +kernel⟩,
      by decide +kernel⟩,
   ⟨0, aKernel, .am, { ty := .fp32, vd := 29, va := 1, vb := 2, vc := 1, ps := 1, imm := 0x3FFFC1 }, withWord (wordOf
      .memory ({ ty := .fp32, vd := 29, va := 1, vb := 2, vc := 1, ps := 1, imm := 0x3FFFC1 })) sKernel,
      ⟨by decide +kernel, by decide +kernel, by decide +kernel, by decide +kernel, by decide +kernel,
      by decide +kernel⟩, by decide +kernel⟩⟩

/-- Each clause of KernelControl has a state and operands that meet its hypotheses. -/
theorem test_KernelControl_hypotheses :
    (∃ (t : TileId) (j : SeqJob) (rest : List SeqJob) (s : State), On s ∧ tileSt s t = tsRun ∧ (tile s t).kernQ = j ::
      rest ∧ (tile s t).kernel = none) ∧
    (∃ (t : TileId) (k : KernelRun) (o : SpFields) (s : State), SpReady (isInstr .control o) t k s ∧ On s ∧ 0 ≤ (k.pc :
      Int) + signed 32 o.imm ∧ (k.pc : Int) + signed 32 o.imm < keLength (runEntry (tile s t) k)) ∧
    (∃ (t : TileId) (k : KernelRun) (o : SpFields) (s : State), SpReady (isInstr .control o) t k s ∧ On s ∧ scalar (tile
      s t) o.va ≠ 0) ∧
    (∃ (t : TileId) (k : KernelRun) (o : SpFields) (s : State), SpReady (isInstr .control o) t k s ∧ On s ∧ (keLength
      (runEntry (tile s t) k) : Int) ≤ (k.pc : Int) + signed 32 o.imm ∧ get s (tilFault t) TilFault.valid = 0) ∧
    (∃ (t : TileId) (k : KernelRun) (o : SpFields) (s : State), SpReady (isInstr .control o) t k s ∧ On s ∧ o.imm ≠ 0) ∧
    (∃ (t : TileId) (k : KernelRun) (v : Bool) (o : SpFields) (s : State), SpReady (isInstr .control o) t k s ∧ On s ∧
      bit1 (rd s (fldFlags (tileField s t) (o.imm % 256 / 32))).toNat (o.imm % 256 % 32) = v) ∧
    (∃ (t : TileId) (k : KernelRun) (v : Bool) (o : SpFields) (s : State), SpReady (isInstr .control o) t k s ∧ On s ∧
      bit1 (rd s (fldFlags (tileField s t) (o.imm % 256 / 32))).toNat (o.imm % 256 % 32) ≠ v) ∧
    (∃ (t : TileId) (k : KernelRun) (s : State), SpReady (isClass .control) t k s ∧ On s ∧ (∀ e ∈ outEdges (unitDesc
      (tile s t) k.job.unit), tget (fun _ => 0) k.emitted e = unGroup (unitDesc (tile s t) k.job.unit) * edRate
      (edgeDesc (tile s t) e)) ∧ k.job.back = []) ∧
    (∃ (t : TileId) (k : KernelRun) (o : SpFields) (e : Nat) (n : Nat) (s : State), SpReady (isInstr .control o) t k s ∧
      On s ∧ o.vd < unNout (unitDesc (tile s t) k.job.unit) ∧ o.imm % 4 ≠ 3 ∧ e = unOut (unitDesc (tile s t)
      k.job.unit) o.vd ∧ n = tget (fun _ => 0) k.emitted e ∧ n < unGroup (unitDesc (tile s t) k.job.unit) * edRate
      (edgeDesc (tile s t) e)) ∧
    (∃ (t : TileId) (k : KernelRun) (o : SpFields) (e : Nat) (n : Nat) (s : State), SpReady (isInstr .control o) t k s ∧
      On s ∧ o.vd < unNout (unitDesc (tile s t) k.job.unit) ∧ o.imm % 4 ≠ 3 ∧ e = unOut (unitDesc (tile s t)
      k.job.unit) o.vd ∧ n = tget (fun _ => 0) k.emitted e ∧ unGroup (unitDesc (tile s t) k.job.unit) * edRate
      (edgeDesc (tile s t) e) ≤ n ∧ get s (tilDfFault t) TilDfFault.valid = 0) ∧
    (∃ (t : TileId) (k : KernelRun) (op : Nat) (s : State), SpReady (isIllegal op) t k s ∧ On s ∧ get s (tilFault t)
      TilFault.valid = 0 ∧ op < 256) ∧
    (∃ (t : TileId) (k : KernelRun) (i : Nat) (s : State), SpReady (isCall i) t k s ∧ On s ∧ get s (tilFault t)
      TilFault.valid = 0 ∧ (i = 0 ∨ 11 < i)) ∧
    (∃ (t : TileId) (k : KernelRun) (s : State), On s ∧ tileWorks s t = true ∧ (tile s t).kernel = some k ∧
      k.micro.isSome = true) :=
  ⟨⟨0, kernJob, [], sTile { istore := aStore, kernQ := [kernJob] }, by decide +kernel⟩,
   ⟨0, aKernel, { ty := .fp32, vd := 0, va := 2, vb := 2, vc := 1, ps := 1, imm := 15 }, withWord (wordOf .control
      ({ ty := .fp32, vd := 0, va := 2, vb := 2, vc := 1, ps := 1, imm := 15 })) (sKernel), ⟨by decide +kernel,
      by decide +kernel, by decide +kernel, by decide +kernel, by decide +kernel, by decide +kernel⟩,
      by decide +kernel⟩,
   ⟨0, aKernel, { ty := .fp32, vd := 0, va := 2, vb := 2, vc := 1, ps := 1, imm := 15 }, withWord (wordOf .control
      ({ ty := .fp32, vd := 0, va := 2, vb := 2, vc := 1, ps := 1, imm := 15 })) (sKernel), ⟨by decide +kernel,
      by decide +kernel, by decide +kernel, by decide +kernel, by decide +kernel, by decide +kernel⟩,
      by decide +kernel⟩,
   ⟨0, aKernel, { ty := .fp32, vd := 0, va := 2, vb := 2, vc := 1, ps := 1, imm := 16 }, withWord (wordOf .control
      ({ ty := .fp32, vd := 0, va := 2, vb := 2, vc := 1, ps := 1, imm := 16 })) (sKernel), ⟨by decide +kernel,
      by decide +kernel, by decide +kernel, by decide +kernel, by decide +kernel, by decide +kernel⟩,
      by decide +kernel⟩,
   ⟨0, aKernel, { ty := .fp32, vd := 0, va := 2, vb := 2, vc := 1, ps := 1, imm := 15 }, withWord (wordOf .control
      ({ ty := .fp32, vd := 0, va := 2, vb := 2, vc := 1, ps := 1, imm := 15 })) (sKernel), ⟨by decide +kernel,
      by decide +kernel, by decide +kernel, by decide +kernel, by decide +kernel, by decide +kernel⟩,
      by decide +kernel⟩,
   ⟨0, aKernel, false, { ty := .fp32, vd := 0, va := 2, vb := 2, vc := 1, ps := 1, imm := 15 }, withWord (wordOf
      .control ({ ty := .fp32, vd := 0, va := 2, vb := 2, vc := 1, ps := 1, imm := 15 })) (sKernel),
      ⟨by decide +kernel, by decide +kernel, by decide +kernel, by decide +kernel, by decide +kernel,
      by decide +kernel⟩, by decide +kernel⟩,
   ⟨0, aKernel, true, { ty := .fp32, vd := 0, va := 2, vb := 2, vc := 1, ps := 1, imm := 15 }, withWord (wordOf .control
      ({ ty := .fp32, vd := 0, va := 2, vb := 2, vc := 1, ps := 1, imm := 15 })) (sKernel), ⟨by decide +kernel,
      by decide +kernel, by decide +kernel, by decide +kernel, by decide +kernel, by decide +kernel⟩,
      by decide +kernel⟩,
   ⟨0, { aKernel with job := { kernJob with unit := 9 } }, withWord (0x70) (sTile
      { istore := aStore, kernel := some { aKernel with job := { kernJob with unit := 9 } } }), ⟨by decide +kernel,
      by decide +kernel, by decide +kernel, by decide +kernel, by decide +kernel, by decide +kernel⟩,
      by decide +kernel⟩,
   ⟨0, aKernel, { ty := .fp32, vd := 0, va := 2, vb := 2, vc := 1, ps := 1, imm := 4 }, 1, 0, withWord (wordOf .control
      ({ ty := .fp32, vd := 0, va := 2, vb := 2, vc := 1, ps := 1, imm := 4 })) (sTile
      { ringTile with istore := aStore, kernel := some aKernel, credit := [(1, 1)] }), ⟨by decide +kernel,
      by decide +kernel, by decide +kernel, by decide +kernel, by decide +kernel, by decide +kernel⟩,
      by decide +kernel⟩,
   ⟨0, { aKernel with emitted := [(1, 1)] }, { ty := .fp32, vd := 0, va := 2, vb := 2, vc := 1, ps := 1, imm := 4 }, 1,
      1, withWord (wordOf .control ({ ty := .fp32, vd := 0, va := 2, vb := 2, vc := 1, ps := 1, imm := 4 })) (sTile
      { ringTile with istore := aStore, kernel := some { aKernel with emitted := [(1, 1)] }, credit := [(1, 1)] }),
      ⟨by decide +kernel, by decide +kernel, by decide +kernel, by decide +kernel, by decide +kernel,
      by decide +kernel⟩, by decide +kernel⟩,
   ⟨0, aKernel, 255, withWord (255) (sKernel), ⟨by decide +kernel, by decide +kernel, by decide +kernel,
      by decide +kernel, by decide +kernel, by decide +kernel⟩, by decide +kernel⟩,
   ⟨0, aKernel, 12, withWord (callWord 12) (sKernel), ⟨by decide +kernel, by decide +kernel, by decide +kernel,
      by decide +kernel, by decide +kernel, by decide +kernel⟩, by decide +kernel⟩,
   ⟨0, { aKernel with micro := some 8 }, sTile { istore := aStore, kernel := some { aKernel with micro := some 8 } },
      by decide +kernel⟩⟩

/-- Each clause of RoutinesOfTheMicrocode has a state and operands that meet its hypotheses. -/
theorem test_RoutinesOfTheMicrocode_hypotheses :
    (∃ (t : TileId) (k : KernelRun) (s : State), SpReady (isCall 8) t k s ∧ On s ∧ scalar (tile s t) 2 < 4 ∧ admits
      (runTask s t k) memAm (scalar (tile s t) 1) 1 = true ∧ (engine s t (scalar (tile s t) 2)).queue.length < 8) ∧
    (∃ (t : TileId) (k : KernelRun) (s : State), SpReady (isCall 8) t k s ∧ On s ∧ scalar (tile s t) 2 < 4 ∧ admits
      (runTask s t k) memAm (scalar (tile s t) 1) 1 = true ∧ 8 ≤ (engine s t (scalar (tile s t) 2)).queue.length) ∧
    (∃ (t : TileId) (k : KernelRun) (s : State), SpReady (isCall 8) t k s ∧ On s ∧ 4 ≤ scalar (tile s t) 2 ∧ get s
      (tilFault t) TilFault.valid = 0) ∧
    (∃ (t : TileId) (k : KernelRun) (ch : Nat) (n : Nat) (s : State), SpReady (isCall 9) t k s ∧ On s ∧ ch = scalar (tile
      s t) 2 ∧ ch < 256 ∧ chValid (chanEntry s t ch) = true ∧ chReceive (chanEntry s t ch) = false ∧ chMode
      (chanEntry s t ch) = 1 ∧ bits (scalar (tile s t) 3) 18 2 ≠ okSkip ∧ n = chMsgu (chanEntry s t ch) ∧ admits
      (runTask s t k) memAm (scalar (tile s t) 1) n = true ∧ n ≤ (chan s t ch).credits) ∧
    (∃ (t : TileId) (k : KernelRun) (ch : Nat) (n : Nat) (s : State), SpReady (isCall 9) t k s ∧ On s ∧ ch = scalar (tile
      s t) 2 ∧ ch < 256 ∧ chValid (chanEntry s t ch) = true ∧ chReceive (chanEntry s t ch) = false ∧ chMode
      (chanEntry s t ch) = 1 ∧ bits (scalar (tile s t) 3) 18 2 ≠ okSkip ∧ n = chMsgu (chanEntry s t ch) ∧ admits
      (runTask s t k) memAm (scalar (tile s t) 1) n = true ∧ (chan s t ch).credits < n) ∧
    (∃ (t : TileId) (k : KernelRun) (b : Nat) (s : State), SpReady (isCall 10) t k s ∧ On s ∧ b = scalar (tile s t) 1 %
      64) ∧
    (∃ (t : TileId) (k : KernelRun) (v : Nat) (s : State), SpReady (isCall 11) t k s ∧ On s ∧ v = scalar (tile s t) 3 ∧
      bits v 8 2 ≠ 3) ∧
    (∃ (t : TileId) (k : KernelRun) (v : Nat) (s : State), SpReady (isCall 11) t k s ∧ On s ∧ v = scalar (tile s t) 3 ∧
      bits v 8 2 = 3 ∧ get s (tilFault t) TilFault.valid = 0) ∧
    (∃ (t : TileId) (k : KernelRun) (a : Nat) (own : Nat) (v : Nat) (e : Nat) (n : Nat) (s : State), SpReady (isCall 4) t
      k s ∧ own = anchorWord t (tile s t) a ∧ (k.job.ops.find? (fun o => opKind o == okValue) = none → v = own) ∧ (∀
      o, k.job.ops.find? (fun o => opKind o == okValue) = some o → v = if signed 16 own < signed 16 (opAux o) then
      opAux o % 2 ^ 16 else own) ∧ On s ∧ admits (runTask s t k) memAm (scalar (tile s t) 1) 1 = true ∧ a = taskBase
      (runTask s t k) memAm + scalar (tile s t) 1 ∧ e = unOut (unitDesc (tile s t) k.job.unit) (scalar (tile s t) 3)
      ∧ n = tget (fun _ => 0) k.emitted e ∧ unNout (unitDesc (tile s t) k.job.unit) ≤ scalar (tile s t) 3) ∧
    (∃ (t : TileId) (k : KernelRun) (a : Nat) (own : Nat) (v : Nat) (e : Nat) (n : Nat) (s : State), SpReady (isCall 4) t
      k s ∧ own = anchorWord t (tile s t) a ∧ (k.job.ops.find? (fun o => opKind o == okValue) = none → v = own) ∧ (∀
      o, k.job.ops.find? (fun o => opKind o == okValue) = some o → v = if signed 16 own < signed 16 (opAux o) then
      opAux o % 2 ^ 16 else own) ∧ On s ∧ admits (runTask s t k) memAm (scalar (tile s t) 1) 1 = true ∧ a = taskBase
      (runTask s t k) memAm + scalar (tile s t) 1 ∧ e = unOut (unitDesc (tile s t) k.job.unit) (scalar (tile s t) 3)
      ∧ n = tget (fun _ => 0) k.emitted e ∧ scalar (tile s t) 3 < unNout (unitDesc (tile s t) k.job.unit) ∧ n <
      unGroup (unitDesc (tile s t) k.job.unit) * edRate (edgeDesc (tile s t) e)) :=
  ⟨⟨0, aKernel, withWord (callWord 8) (sKernel), ⟨by decide +kernel, by decide +kernel, by decide +kernel,
      by decide +kernel, by decide +kernel, by decide +kernel⟩, by decide +kernel⟩,
   ⟨0, aKernel, withWord (callWord 8) ({ sKernel with tiles := [(0, { tile sKernel 0 with engines := [(3, { queue := List.replicate 8 { desc := 0, task := 0 } })] })] }),
      ⟨by decide +kernel, by decide +kernel, by decide +kernel, by decide +kernel, by decide +kernel,
      by decide +kernel⟩, by decide +kernel⟩,
   ⟨0, aKernel, withWord (callWord 8) ({ sKernel with tiles := [(0, { tile sKernel 0 with sreg := [(2, 4)] })] }),
      ⟨by decide +kernel, by decide +kernel, by decide +kernel, by decide +kernel, by decide +kernel,
      by decide +kernel⟩, by decide +kernel⟩,
   ⟨0, aKernel, 3, 2, withWord (callWord 9) (put (latCh 0 6) (BitVec.ofNat 64 (1 + 4 + 2 * 2 ^ 56))
      { sKernel with tiles := [(0, { tile sKernel 0 with chans := [(3, { credits := 2 })] })] }), ⟨by decide +kernel,
      by decide +kernel, by decide +kernel, by decide +kernel, by decide +kernel, by decide +kernel⟩,
      by decide +kernel⟩,
   ⟨0, aKernel, 3, 2, withWord (callWord 9) (put (latCh 0 6) (BitVec.ofNat 64 (1 + 4 + 2 * 2 ^ 56))
      { sKernel with tiles := [(0, { tile sKernel 0 with chans := [(3, { credits := 1 })] })] }), ⟨by decide +kernel,
      by decide +kernel, by decide +kernel, by decide +kernel, by decide +kernel, by decide +kernel⟩,
      by decide +kernel⟩,
   ⟨0, aKernel, 0, withWord (callWord 10) (sKernel), ⟨by decide +kernel, by decide +kernel, by decide +kernel,
      by decide +kernel, by decide +kernel, by decide +kernel⟩, by decide +kernel⟩,
   ⟨0, aKernel, 0, withWord (callWord 11) (sKernel), ⟨by decide +kernel, by decide +kernel, by decide +kernel,
      by decide +kernel, by decide +kernel, by decide +kernel⟩, by decide +kernel⟩,
   ⟨0, aKernel, 0x300, withWord (callWord 11)
      ({ sKernel with tiles := [(0, { tile sKernel 0 with sreg := [(3, 0x300)] })] }), ⟨by decide +kernel,
      by decide +kernel, by decide +kernel, by decide +kernel, by decide +kernel, by decide +kernel⟩,
      by decide +kernel⟩,
   ⟨0, aKernel, 0, anchorWord 0 (tile (withWord (callWord 4) (sKernel)) 0) 0, (anchorWord 0 (tile (withWord (callWord 4)
      (sKernel)) 0) 0), 0, 0, withWord (callWord 4) (sKernel), ⟨by decide +kernel, by decide +kernel,
      by decide +kernel, by decide +kernel, by decide +kernel, by decide +kernel⟩, rfl, fun _ => rfl, (fun _ e =>
      nomatch e), by decide +kernel⟩,
   ⟨0, aKernel, 0, anchorWord 0 (tile (withWord (callWord 4) (sTile
      { ringTile with istore := aStore, kernel := some aKernel })) 0) 0, (anchorWord 0 (tile (withWord (callWord 4)
      (sTile { ringTile with istore := aStore, kernel := some aKernel })) 0) 0), 1, 0, withWord (callWord 4) (sTile
      { ringTile with istore := aStore, kernel := some aKernel }), ⟨by decide +kernel, by decide +kernel,
      by decide +kernel, by decide +kernel, by decide +kernel, by decide +kernel⟩, rfl, fun _ => rfl, (fun _ e =>
      nomatch e), by decide +kernel⟩⟩

/-- Each clause of DmaEngines has a state and operands that meet its hypotheses. -/
theorem test_DmaEngines_hypotheses :
    (∃ (t : TileId) (e : EngineId) (j : DmaJob) (rest : List DmaJob) (s : State) (c : Nat), On s ∧ tileOff s t = false ∧
      suspended s t e = false ∧ (engine s t e).queue = j :: rest ∧ (engine s t e).run = none ∧ c = dmaCheck
      (setEngine t e { engine s t e with queue := rest } s) t j ∧ c ≠ 0) ∧
    (∃ (t : TileId) (e : EngineId) (j : DmaJob) (rest : List DmaJob) (s : State), (∀ pos, moveRefused s j.desc pos =
      false) ∧ On s ∧ tileOff s t = false ∧ suspended s t e = false ∧ (engine s t e).queue = j :: rest ∧ (engine s t
      e).run = none ∧ dmaCheck (setEngine t e { engine s t e with queue := rest } s) t j = 0 ∧ (tile s t).errs = [] ∧
      localCopy j.desc = false) ∧
    (∃ (t : TileId) (e : EngineId) (s : State), On s ∧ tileOff s t = false ∧ (engine s t e).queue.length < 8) ∧
    (∃ (t : TileId) (e : EngineId) (i : Nat) (r : DmaRun) (c : DmaCredit) (s : State), On s ∧ (engine s t e).run = some r
      ∧ findCredit s t e i = some c ∧ c.pos < r.next ∧ s.devtime < c.due) ∧
    (∃ (t : TileId) (e : EngineId) (i : Nat) (r : DmaRun) (c : DmaCredit) (s : State), On s ∧ (engine s t e).run = some r
      ∧ findCredit s t e i = some c ∧ c.pos < r.next ∧ c.due ≤ s.devtime) ∧
    (∃ (t : TileId) (e : EngineId) (r : DmaRetry) (s : State), On s ∧ (engine s t e).notes.find? (fun r => decide (r.due
      ≤ s.devtime) || (r.busy && decide (r.sent + usTicks ≤ s.devtime))) = some r ∧ s.devtime < r.due) ∧
    (∃ (t : TileId) (e : EngineId) (r : DmaRetry) (s : State), On s ∧ (engine s t e).notes.find? (fun r => decide (r.due
      ≤ s.devtime) || (r.busy && decide (r.sent + usTicks ≤ s.devtime))) = some r ∧ r.due ≤ s.devtime) :=
  ⟨⟨0, 3, { desc := 0, task := 0 }, [], { sKernel with tiles := [(0, { tile sKernel 0 with engines := [(3, { queue := [{ desc := 0, task := 0 }] })] })] },
      dmaCheck (setEngine 0 3 {} sKernel) 0 { desc := 0, task := 0 }, by decide +kernel⟩,
   ⟨0, 3, { desc := 32 + 2 ^ 16 + 2 ^ 32 + 2 ^ 256, task := 0 }, [],
      { sKernel with tiles := [(0, { tile sKernel 0 with engines := [(3, { queue := [{ desc := 32 + 2 ^ 16 + 2 ^ 32 + 2 ^ 256, task := 0 }] })] })] },
      never_refused _, by decide +kernel⟩,
   ⟨0, 3, sKernel, by decide +kernel⟩,
   ⟨0, 3, 5, { job := { desc := 0, task := 0 }, next := 8, credits := [({ idx := 5, seg := 0, pos := 0, units := 8, due := 5000001 })] },
      { idx := 5, seg := 0, pos := 0, units := 8, due := 5000001 },
      { sKernel with tiles := [(0, { tile sKernel 0 with engines := [(3, { run := some ({ job := { desc := 0, task := 0 }, next := 8, credits := [({ idx := 5, seg := 0, pos := 0, units := 8, due := 5000001 })] }) })] })] },
      by decide +kernel⟩,
   ⟨0, 3, 5, { job := { desc := 0, task := 0 }, next := 8, credits := [({ idx := 5, seg := 0, pos := 0, units := 8, due := 5000000 })] },
      { idx := 5, seg := 0, pos := 0, units := 8, due := 5000000 },
      { sKernel with tiles := [(0, { tile sKernel 0 with engines := [(3, { run := some ({ job := { desc := 0, task := 0 }, next := 8, credits := [({ idx := 5, seg := 0, pos := 0, units := 8, due := 5000000 })] }) })] })] },
      by decide +kernel⟩,
   ⟨0, 3, { job := { desc := 0, task := 0 }, idx := 0, op := 0, due := 5000001, sent := 4990000, busy := true },
      { sKernel with tiles := [(0, { tile sKernel 0 with engines := [(3, { notes := [({ job := { desc := 0, task := 0 }, idx := 0, op := 0, due := 5000001, sent := 4990000, busy := true })] })] })] },
      by decide +kernel⟩,
   ⟨0, 3, { job := { desc := 0, task := 0 }, idx := 0, op := 0, due := 5000000, sent := 4990000, busy := true },
      { sKernel with tiles := [(0, { tile sKernel 0 with engines := [(3, { notes := [({ job := { desc := 0, task := 0 }, idx := 0, op := 0, due := 5000000, sent := 4990000, busy := true })] })] })] },
      by decide +kernel⟩⟩

/-- Each clause of LatticeChannels has a state and operands that meet its hypotheses. -/
theorem test_LatticeChannels_hypotheses :
    (∃ (t : TileId) (ch : Nat) (a : Nat) (n : Nat) (w : List LaneWord) (r : List (List LaneWord)) (ws : List (List
      LaneWord)) (flips : List (Nat × Nat)) (s : State), On s ∧ tileOff s t = false ∧ chValid (chanEntry s t ch) =
      true ∧ chReceive (chanEntry s t ch) = true ∧ (chan s t ch).wire = w :: r ∧ n = messageWords (chanEntry s t ch)
      w ∧ n ≤ r.length + 1 ∧ ws = flipWords flips ((w :: r).take n) ∧ chMode (chanEntry s t ch) = 1 ∧ ws.any wordBad
      = false ∧ bits (fromBytes (wordBytes (ws.take 1))) 18 2 ≠ okSkip ∧ chNarrow (chanEntry s t ch) = false ∧ a = 64
      * (taskBase (taskEntry s t (chTask (chanEntry s t ch))) memAm + (chRbase (chanEntry s t ch) + (chan s t
      ch).ring))) ∧
    (∃ (t : TileId) (ch : Nat) (a : Nat) (n : Nat) (w : List LaneWord) (r : List (List LaneWord)) (ws : List (List
      LaneWord)) (flips : List (Nat × Nat)) (s : State), On s ∧ tileOff s t = false ∧ chValid (chanEntry s t ch) =
      true ∧ chReceive (chanEntry s t ch) = true ∧ (chan s t ch).wire = w :: r ∧ n = messageWords (chanEntry s t ch)
      w ∧ n ≤ r.length + 1 ∧ ws = flipWords flips ((w :: r).take n) ∧ chMode (chanEntry s t ch) = 2 ∧ ws.any wordBad
      = false ∧ a = 64 * (taskBase (taskEntry s t (chTask (chanEntry s t ch))) memPm + chRbase (chanEntry s t ch) +
      (chan s t ch).ring / 64)) ∧
    (∃ (t : TileId) (ch : Nat) (n : Nat) (w : List LaneWord) (r : List (List LaneWord)) (ws : List (List LaneWord))
      (flips : List (Nat × Nat)) (s : State), On s ∧ tileOff s t = false ∧ chValid (chanEntry s t ch) = true ∧
      chReceive (chanEntry s t ch) = true ∧ (chan s t ch).wire = w :: r ∧ n = messageWords (chanEntry s t ch) w ∧ n ≤
      r.length + 1 ∧ ws = flipWords flips ((w :: r).take n) ∧ chMode (chanEntry s t ch) = 1 ∧ ws.any wordBad = true ∧
      get s (tilFault t) TilFault.valid = 0 ∧ ((tget (fun _ => []) s.integ.faults t).filter fun x => decide
      (s.devtime < x + 3600 * secTicks)).length < 2) ∧
    (∃ (t : TileId) (ch : Nat) (s : State), On s ∧ 0 < (chan s t ch).pulses) ∧
    (∃ (t : TileId) (ch : Nat) (k : Nat) (n : Nat) (w : Nat) (l : Nat × Nat) (g : TunnelLeg) (s : State), On s ∧ g = leg
      s t ch k ∧ g.words ≠ [] ∧ chReceive (chanEntry s t ch) = true ∧ chTunnel (chanEntry s t ch) = true ∧
      (tunnelLegs s (sendEntry s t ch))[k]? = some l ∧ w = max 1 (chWidth (chanEntry s t ch)) ∧ n = min (256 / w)
      (wordsOf (chanEntry s t ch) g.words.length) ∧ (256 ≤ g.words.length ∨ g.since + flushTicks s ≤ s.devtime)) ∧
    (∃ (t : TileId) (ch : Nat) (k : Nat) (n : Nat) (w : Nat) (l : Nat × Nat) (g : TunnelLeg) (s : State), On s ∧ g = leg
      s t ch k ∧ g.words ≠ [] ∧ chReceive (chanEntry s t ch) = true ∧ chTunnel (chanEntry s t ch) = true ∧
      (tunnelLegs s (sendEntry s t ch))[k]? = some l ∧ w = max 1 (chWidth (chanEntry s t ch)) ∧ n = min (256 / w)
      (wordsOf (chanEntry s t ch) g.words.length) ∧ g.words.length < 256 ∧ s.devtime < g.since + flushTicks s) ∧
    (∃ (p : Packet) (v : Nat) (s : State), packetOk p = true ∧ On s ∧ p.opc = ocTunnelCredit ∧ epIsTile p.dst = true ∧ v
      = fromBytes p.payload ∧ chMode (chanEntry s p.dst (bits v 0 8)) ≠ 0) ∧
    (∃ (p : Packet) (v : Nat) (s : State) (e : Nat) (d : Nat), packetOk p = true ∧ On s ∧ p.opc = ocTunnelCredit ∧
      epIsTile p.dst = true ∧ v = fromBytes p.payload ∧ chMode (chanEntry s p.dst (bits v 0 8)) = 0 ∧ (tile s
      p.dst).edgeTab.find? (fun d => edPath d.2 == 1 && edCh d.2 == bits v 0 8) = some (e, d)) ∧
    (∃ (p : Packet) (t : Nat) (ch : Nat) (k : Nat) (s : State), packetOk p = true ∧ On s ∧ p.opc = ocLatTunnel ∧ epIsTile
      p.dst = true ∧ tunnelOf s p = some (t, ch, k) ∧ t < 768 ∧ p.txid = (leg s t ch k).want ∧ tileOff s t = true ∧ k
      + 1 = (tunnelLegs s (sendEntry s t ch)).length) ∧
    (∃ (p : Packet) (t : Nat) (ch : Nat) (k : Nat) (s : State), packetOk p = true ∧ On s ∧ p.opc = ocLatTunnel ∧ epIsTile
      p.dst = true ∧ tunnelOf s p = some (t, ch, k) ∧ t < 768 ∧ p.txid = (leg s t ch k).want ∧ k + 1 < (tunnelLegs s
      (sendEntry s t ch)).length) ∧
    (∃ (p : Packet) (t : Nat) (ch : Nat) (k : Nat) (s : State), packetOk p = true ∧ On s ∧ p.opc = ocLatTunnel ∧ epIsTile
      p.dst = true ∧ tunnelOf s p = some (t, ch, k) ∧ t < 768 ∧ p.txid ≠ (leg s t ch k).want ∧ tileOff s t = false ∧
      get s (tilFault t) TilFault.valid = 0 ∧ ((tget (fun _ => []) s.integ.faults t).filter fun x => decide
      (s.devtime < x + 3600 * secTicks)).length < 2) :=
  ⟨⟨0, 2, 64 * 9, 9, [laneWord true [1]], List.replicate 8 [laneWord false [7, 8]], someWords 8, [], sChannel (1 + 2 +
      64 + 9 * 2 ^ 24 + 2 ^ 40 + 2 ^ 56 + 4) { wire := someWords 8 }, by decide +kernel⟩,
   ⟨0, 2, 64 * 9, 8, [laneWord true [1]], List.replicate 7 [laneWord false [7, 8]], someWords 7, [], sChannel (1 + 2 +
      64 + 9 * 2 ^ 24 + 2 ^ 40 + 2 ^ 56 + 8) { wire := someWords 7 }, by decide +kernel⟩,
   ⟨0, 2, 9, [laneWord true [1]], List.replicate 8 [laneWord false [7, 8]], flipWords [(8, 71)] (someWords 8), [(8,
      71)], sChannel (1 + 2 + 64 + 9 * 2 ^ 24 + 2 ^ 40 + 2 ^ 56 + 4) { wire := someWords 8 }, by decide +kernel⟩,
   ⟨0, 2, sChannel (1 + 4) { pulses := 1 }, by decide +kernel⟩,
   ⟨0, 2, 1, 32, 8, (0, 64), { words := List.replicate 256 5, since := 4999999 }, sTunnel [64]
      { legs := [(1, ({ words := List.replicate 256 5, since := 4999999 }))] }, by decide +kernel⟩,
   ⟨0, 2, 1, 31, 8, (0, 64), { words := List.replicate 248 5, since := 4999999 }, sTunnel [64]
      { legs := [(1, ({ words := List.replicate 248 5, since := 4999999 }))] }, by decide +kernel⟩,
   ⟨withCrc (aPacket ocTunnelCredit [2, 3] 0), 0x302, sChannel (1 + 4 + 2 ^ 12) {}, packetOk_withCrc _ rfl,
      by decide +kernel⟩,
   ⟨withCrc (aPacket ocTunnelCredit [2, 3] 0), 0x302, sTile { edgeTab := [(1, (2 ^ 18 + 2 * 2 ^ 20))] }, 1, 2 ^ 18 + 2 *
      2 ^ 20, packetOk_withCrc _ rfl, by decide +kernel⟩,
   ⟨tunnelPkt 2 64 0, 0, 2, 1, sTunnel [] {}, packetOk_withCrc _ rfl, by decide +kernel⟩,
   ⟨tunnelPkt 3 0 0, 0, 2, 0, sTunnel [64] {}, packetOk_withCrc _ rfl, by decide +kernel⟩,
   ⟨tunnelPkt 2 64 1, 0, 2, 1, sTunnel [64] {}, packetOk_withCrc _ rfl, by decide +kernel⟩⟩

/-- Each clause of PacketsAtTiles has a state and operands that meet its hypotheses. -/
theorem test_PacketsAtTiles_hypotheses :
    (∃ (p : Packet) (q : Nat) (o : Nat) (s : State), packetOk p = true ∧ (∀ v, consumer (tile s p.dst) q = some v →
      distance (unitRun (tile s p.dst) v).base (opTag o) < 2048) ∧ On s ∧ p.opc = ocOperand ∧ epIsTile p.dst = true ∧
      tileOff s p.dst = false ∧ p.srcFdn = ownFdn s ∧ epLive s p.src = true ∧ bit1 (fromBytes (p.payload.take 8)) 8 =
      false ∧ q = bits (fromBytes (p.payload.take 8)) 0 8 ∧ o = fromBytes ((p.payload.drop 8).take 16) ∧ opIdx o <
      quRate (queueDesc (tile s p.dst) q) ∧ (∀ i ∈ (queueRun (tile s p.dst) q).items, ¬ (opTag i.op = opTag o ∧ opIdx
      i.op = opIdx o)) ∧ (queueRun (tile s p.dst) q).spilled = []) ∧
    (∃ (p : Packet) (t : Nat) (i : Nat) (off : Nat) (n : Nat) (s : State), packetOk p = true ∧ On s ∧ p.opc = ocReadReq ∧
      epIsTile p.dst = true ∧ t = p.dst ∧ bit1 (fromBytes (p.payload.take 4)) 0 = false ∧ p.srcFdn = ownFdn s ∧
      epLive s p.src = true ∧ i = bits (fromBytes (p.payload.take 4)) 1 4 ∧ off = bits (fromBytes (p.payload.take 4))
      5 17 ∧ n = reqUnits p ∧ winCheck s t i p .read off n = 0 ∧ (tile s t).errs = []) ∧
    (∃ (p : Packet) (t : Nat) (i : Nat) (off : Nat) (n : Nat) (s : State) (r : _), packetOk p = true ∧ On s ∧ p.opc =
      ocReadReq ∧ epIsTile p.dst = true ∧ t = p.dst ∧ bit1 (fromBytes (p.payload.take 4)) 0 = false ∧ p.srcFdn =
      ownFdn s ∧ epLive s p.src = true ∧ i = bits (fromBytes (p.payload.take 4)) 1 4 ∧ off = bits (fromBytes
      (p.payload.take 4)) 5 17 ∧ n = reqUnits p ∧ r = winCheck s t i p .read off n ∧ r ≠ 0) ∧
    (∃ (p : Packet) (t : Nat) (i : Nat) (off : Nat) (bs : List Byte) (s : State), packetOk p = true ∧ On s ∧ p.opc =
      ocWrite ∧ epIsTile p.dst = true ∧ t = p.dst ∧ p.srcFdn = ownFdn s ∧ epLive s p.src = true ∧ i = bits p.ext 0 4
      ∧ off = bits p.ext 4 17 ∧ bs = packetBytes p ∧ winCheck s t i p .write off (bs.length / 64) = 0 ∧ wiMem
      (windowEntry s t i) < 3) ∧
    (∃ (p : Packet) (t : Nat) (i : Nat) (off : Nat) (bs : List Byte) (s : State) (r : _), packetOk p = true ∧ On s ∧
      p.opc = ocWrite ∧ epIsTile p.dst = true ∧ t = p.dst ∧ p.srcFdn = ownFdn s ∧ epLive s p.src = true ∧ i = bits
      p.ext 0 4 ∧ off = bits p.ext 4 17 ∧ bs = packetBytes p ∧ r = winCheck s t i p .write off (bs.length / 64) ∧ r ≠
      0) ∧
    (∃ (p : Packet) (t : Nat) (i : Nat) (o : Nat) (s : State), packetOk p = true ∧ On s ∧ p.opc = ocNotify ∧ epIsTile
      p.dst = true ∧ t = p.dst ∧ p.srcFdn = ownFdn s ∧ epLive s p.src = true ∧ i = bits (fromBytes (p.payload.take
      1)) 0 4 ∧ o = fromBytes ((p.payload.drop 8).take 16) ∧ winCheck s t i p .notify (bits (opPayload o) 0 17) (if
      opKind o = okReference then bits (opPayload o) 17 20 else 0) = 0 ∧ queueRoom (tile s t) (wiNq (windowEntry s t
      i)) = false ∧ (tile s t).notes.length < 16) ∧
    (∃ (p : Packet) (t : Nat) (i : Nat) (o : Nat) (s : State), packetOk p = true ∧ On s ∧ p.opc = ocNotify ∧ epIsTile
      p.dst = true ∧ t = p.dst ∧ p.srcFdn = ownFdn s ∧ epLive s p.src = true ∧ i = bits (fromBytes (p.payload.take
      1)) 0 4 ∧ o = fromBytes ((p.payload.drop 8).take 16) ∧ winCheck s t i p .notify (bits (opPayload o) 0 17) (if
      opKind o = okReference then bits (opPayload o) 17 20 else 0) = 0 ∧ queueRoom (tile s t) (wiNq (windowEntry s t
      i)) = false ∧ 16 ≤ (tile s t).notes.length) ∧
    (∃ (p : Packet) (t : Nat) (e : Nat) (r : DmaRun) (c : DmaCredit) (s : State), packetOk p = true ∧ On s ∧ p.opc =
      ocReadData ∧ epIsTile p.dst = true ∧ t = p.dst ∧ e = p.txid / 1024 % 4 ∧ (engine s t e).run = some r ∧
      answeredCredit s t e (p.txid % 1024) p = some c ∧ c.pos < r.next ∧ hbmMove r.job.desc = false) ∧
    (∃ (p : Packet) (a : Await) (s : State), packetOk p = true ∧ On s ∧ p.opc = ocAck ∧ bits (fromBytes (p.payload.take
      2)) 12 4 = 1 ∧ s.net.awaits.find? (awaits p (bits (fromBytes (p.payload.take 2)) 0 12 % 4096)) = some a) ∧
    (∃ (p : Packet) (x : Nat) (c : DmaCredit) (s : State), packetOk p = true ∧ On s ∧ p.opc = ocRefuse ∧ epIsTile p.dst =
      true ∧ x = bits (fromBytes (p.payload.take 2)) 0 12 ∧ s.net.awaits.find? (awaits p x) = none ∧ noteOf s p.dst
      (x / 1024 % 4) (x % 1024) p = none ∧ answeredCredit s p.dst (x / 1024 % 4) (x % 1024) p = some c) :=
  ⟨⟨withCrc (aPacket ocOperand [1, 0, 0, 0, 0, 0, 0, 0, 1] 0), 1, 1, sRing, packetOk_withCrc _ rfl, of_all
      (by decide +kernel), by decide +kernel⟩,
   ⟨withCrc (aPacket ocReadReq [0xE0, 7] 0), 0, 0, 63, 1, sWindow { am := [(64 * 63, 9)] }, packetOk_withCrc _ rfl,
      by decide +kernel⟩,
   ⟨withCrc (aPacket ocReadReq [0, 8] 0), 0, 0, 64, 1, sWindow {}, winCheck (sWindow {}) 0 0 (withCrc (aPacket ocReadReq
      [0, 8] 0)) .read 64 1, packetOk_withCrc _ rfl, by decide +kernel⟩,
   ⟨withCrc (aPacket ocWrite [7, 8] (63 * 16)), 0, 0, 63, packetBytes (withCrc (aPacket ocWrite [7, 8] (63 * 16))),
      sWindow {}, packetOk_withCrc _ rfl, by decide +kernel⟩,
   ⟨withCrc (aPacket ocWrite [7, 8] (64 * 16)), 0, 0, 64, packetBytes (withCrc (aPacket ocWrite [7, 8] (64 * 16))),
      sWindow {}, winCheck (sWindow {}) 0 0 (withCrc (aPacket ocWrite [7, 8] (64 * 16))) .write 64 1,
      packetOk_withCrc _ rfl, by decide +kernel⟩,
   ⟨withCrc (aPacket ocNotify [] 0), 0, 0, 0, sWindow { notes := List.replicate 15 (0, 0) }, packetOk_withCrc _ rfl,
      by decide +kernel⟩,
   ⟨withCrc (aPacket ocNotify [] 0), 0, 0, 0, sWindow { notes := List.replicate 16 (0, 0) }, packetOk_withCrc _ rfl,
      by decide +kernel⟩,
   ⟨withCrc { aPacket ocReadData [5] 0 with txid := 0xC05 }, 0, 3,
      { job := { desc := 1 + 2 ^ 32, task := 0 }, next := 8, credits := [{ idx := 5, seg := 0, pos := 0, units := 1, dst := 1 }] },
      { idx := 5, seg := 0, pos := 0, units := 1, dst := 1 }, sTile
      { engines := [(3, { run := some { job := { desc := 1 + 2 ^ 32, task := 0 }, next := 8, credits := [{ idx := 5, seg := 0, pos := 0, units := 1, dst := 1 }] } })] },
      packetOk_withCrc _ rfl, by decide +kernel⟩,
   ⟨withCrc (aPacket ocAck [3, 0x10] 0), anAwait 0 ocOperand, { sRing with net := { awaits := [anAwait 0 ocOperand] } },
      packetOk_withCrc _ rfl, by decide +kernel⟩,
   ⟨withCrc (aPacket ocRefuse [5, 0x0C] 0), 0xC05, { idx := 5, seg := 0, pos := 0, units := 1, dst := 1 }, sTile
      { engines := [(3, { run := some { job := { desc := 1 + 2 ^ 32, task := 0 }, next := 8, credits := [{ idx := 5, seg := 0, pos := 0, units := 1, dst := 1 }] } })] },
      packetOk_withCrc _ rfl, by decide +kernel⟩⟩

/-- Each clause of PacketsAtTheDevice has a state and operands that meet its hypotheses. -/
theorem test_PacketsAtTheDevice_hypotheses :
    (∃ (p : Packet) (a : Nat) (bs : List Byte) (s : State), packetOk p = true ∧ On s ∧ p.opc = ocHbmWrite ∧ epIsSlice
      p.dst = true ∧ p.srcFdn = ownFdn s ∧ epLive s p.src = true ∧ a = bits p.ext 0 40 ∧ bs = packetBytes p ∧
      hbmAdmits s p a bs.length = true ∧ homeFailed s a = false ∧ errsIn s a bs.length = []) ∧
    (∃ (p : Packet) (a : Nat) (n : Nat) (s : State), packetOk p = true ∧ On s ∧ p.opc = ocReadReq ∧ bit1 (fromBytes
      (p.payload.take 4)) 0 = true ∧ epIsSlice p.dst = true ∧ p.srcFdn = ownFdn s ∧ epLive s p.src = true ∧ a =
      fromBytes ((p.payload.drop 4).take 5) ∧ n = reqUnits p ∧ hbmAdmits s p a (64 * n) = true ∧ homeFailed s a =
      false ∧ errsIn s a (64 * n) = []) ∧
    (∃ (p : Packet) (f : Nat) (i : Nat) (op : Nat) (s : State), packetOk p = true ∧ On s ∧ p.opc = ocFlagWrite ∧ p.dst =
      0x680 + f ∧ f < 12 ∧ p.srcFdn = ownFdn s ∧ epLive s p.src = true ∧ fabricOff s f = false ∧ i = bits (flagWord
      p) 0 8 ∧ op = bits (flagWord p) 8 2 ∧ op ≠ 3) ∧
    (∃ (p : Packet) (b : Nat) (v : Nat) (s : State), packetOk p = true ∧ On s ∧ p.opc = ocBarArrive ∧ b = bits (fromBytes
      (p.payload.take 1)) 0 6 ∧ p.dst = epBarrier (b / 2) ∧ p.srcFdn = ownFdn s ∧ epLive s p.src = true ∧ v = bits
      (fromBytes (p.payload.take 1)) 6 1 ∧ get s (conBarStat b) ConBarStat.valid = 1 ∧ v = get s (conBarStat b)
      ConBarStat.sense ∧ get s (conBarStat b) ConBarStat.count + 1 < bits (tget (fun _ => 0) s.net.bars b) 0 11 ∧ get
      s (conBarStat b) ConBarStat.next ≤ bits (tget (fun _ => 0) s.net.bars b) 0 11) ∧
    (∃ (p : Packet) (t : Nat) (u0 : Nat) (bs : List Byte) (s : State), packetOk p = true ∧ On s ∧ p.opc = ocPrivWrite ∧
      isPrivileged p.src = true ∧ p.srcFdn = ownFdn s ∧ epLive s p.src = true ∧ siteOff s (bits p.ext 19 10) = false
      ∧ privAllowed s (bits p.ext 19 10) = true ∧ bits p.ext 0 2 < 3 ∧ tileAt s (bits p.ext 19 10) = some t ∧ u0 =
      bits p.ext 2 17 ∧ bs = packetBytes p) ∧
    (∃ (p : Packet) (a : Await) (s : State), packetOk p = true ∧ On s ∧ p.opc = ocMgmt ∧ isPrivileged p.src = true ∧
      isPrivileged p.dst = true ∧ s.net.awaits.find? (awaits p p.txid) = some a) ∧
    (∃ (p : Packet) (g : Nat) (s : State), On s ∧ isReserved p = true ∧ g = (attach s p.dst p).1) ∧
    (∃ (src : Nat) (txid : Nat) (a : Await) (s : State), On s ∧ s.net.awaits.find? (fun a => a.src == src && (a.txid ==
      txid && decide (a.due ≤ s.devtime))) = some a ∧ epIsTile a.src = true ∧ tileOff s a.src = false ∧ get s
      (tilDfFault a.src) TilDfFault.valid = 0) ∧
    (∃ (src : Nat) (txid : Nat) (a : Await) (s : State), On s ∧ s.net.awaits.find? (fun a => a.src == src && (a.txid ==
      txid && decide (a.due ≤ s.devtime))) = some a ∧ epIsTile a.src = false ∧ a.opc ≠ ocPrivWrite ∧ a.opc ≠ ocMgmt) ∧
    (∃ (src : Nat) (txid : Nat) (a : Await) (s : State), On s ∧ s.net.awaits.find? (fun a => a.src == src && (a.txid ==
      txid && decide (a.due ≤ s.devtime))) = some a ∧ epIsTile a.src = false ∧ (a.opc = ocPrivWrite ∨ a.opc = ocMgmt)
      ∧ a.again < 3) ∧
    (∃ (src : Nat) (txid : Nat) (s : State), On s ∧ s.net.awaits.find? (fun a => a.src == src && (a.txid == txid &&
      decide (a.due ≤ s.devtime))) = none) :=
  ⟨⟨withCrc { aPacket ocHbmWrite [7, 8] 4096 with dst := 0x5FF }, 4096, packetBytes (withCrc
      { aPacket ocHbmWrite [7, 8] 4096 with dst := 0x5FF }), sLive, packetOk_withCrc _ rfl, by decide +kernel⟩,
   ⟨withCrc { aPacket ocReadReq [1, 0, 0, 0, 0, 16] 0 with dst := 0x300 }, 4096, 1, sLive, packetOk_withCrc _ rfl,
      by decide +kernel⟩,
   ⟨withCrc { aPacket ocFlagWrite [255, 2] 0 with dst := 0x68B }, 11, 255, 2, sLive, packetOk_withCrc _ rfl,
      by decide +kernel⟩,
   ⟨withCrc { aPacket ocBarArrive [63] 0 with dst := epBarrier 31 }, 63, 0,
      { upd (conBarStat 63) ConBarStat.valid 1 sLive with net := { bars := [(63, 2)] } }, packetOk_withCrc _ rfl,
      by decide +kernel⟩,
   ⟨withCrc { aPacket ocPrivWrite [7, 8] (1 + 5 * 4) with src := 0x680, dst := 0x685 }, 0, 5, packetBytes (withCrc
      { aPacket ocPrivWrite [7, 8] (1 + 5 * 4) with src := 0x680, dst := 0x685 }),
      { sLive with boot := { sLive.boot with fabricReset := true } }, packetOk_withCrc _ rfl, by decide +kernel⟩,
   ⟨withCrc { aPacket ocMgmt [] 0 with src := 0x681, dst := 0x680 },
      { src := 0x680, txid := 3, opc := ocMgmt, pkt := { aPacket ocMgmt [] 0 with src := 0x680, dst := 0x681 } },
      { sLive with net := { awaits := [{ src := 0x680, txid := 3, opc := ocMgmt, pkt := { aPacket ocMgmt [] 0 with src := 0x680, dst := 0x681 } }] } },
      packetOk_withCrc _ rfl, by decide +kernel⟩,
   ⟨withCrc (aPacket 0x7F [] 0), (attach sLive 0 (withCrc (aPacket 0x7F [] 0))).1, sLive, by decide +kernel⟩,
   ⟨0, 3, anAwait 0 ocOperand, { sRing with net := { awaits := [anAwait 0 ocOperand] } }, by decide +kernel⟩,
   ⟨0x690, 3, anAwait 0x690 ocOperand, { sRing with net := { awaits := [anAwait 0x690 ocOperand] } }, by decide +kernel⟩,
   ⟨0x690, 3, { anAwait 0x690 ocMgmt with again := 2 },
      { sRing with net := { awaits := [({ anAwait 0x690 ocMgmt with again := 2 })] } }, by decide +kernel⟩,
   ⟨0x690, 3, { sRing with net := { awaits := [{ anAwait 0x690 ocMgmt with due := 5000001 }] } }, by decide +kernel⟩⟩

/-- Each clause of ConcourseForwarding has a state and operands that meet its hypotheses. -/
theorem test_ConcourseForwarding_hypotheses :
    (∃ (g : ClusterId) (out : RouterPort) (upset : List (Nat × Nat)) (i : Nat) (g' : Nat) (i' : Nat) (p : Packet) (q :
      Packet) (s : State) (s' : State), On s ∧ fabricOff s (clusterField g) = false ∧ s' = fillRouter g s ∧ arbitrate
      s' g out = some (i, p) ∧ q = { p with upset := p.upset ++ upset } ∧ packetOk q = true ∧ (routeOf s' g p).isSome
      = true ∧ localPort out = false ∧ portPeer g out = some (g', i') ∧ hasRoom s' g' i' p.data = true ∧ localPort i
      = false ∧ portKey g' i' ≠ portKey g i) ∧
    (∃ (g : ClusterId) (out : RouterPort) (upset : List (Nat × Nat)) (i : Nat) (p : Packet) (q : Packet) (s : State) (s'
      : State), On s ∧ fabricOff s (clusterField g) = false ∧ s' = fillRouter g s ∧ arbitrate s' g out = some (i, p)
      ∧ q = { p with upset := p.upset ++ upset } ∧ packetOk q = false ∧ localPort i = false) ∧
    (∃ (g : ClusterId) (out : RouterPort) (upset : List (Nat × Nat)) (i : Nat) (p : Packet) (q : Packet) (s : State) (s'
      : State), On s ∧ fabricOff s (clusterField g) = false ∧ s' = fillRouter g s ∧ arbitrate s' g out = some (i, p)
      ∧ q = { p with upset := p.upset ++ upset } ∧ packetOk q = true ∧ localPort out = true ∧ (routeOf s' g p).isSome
      = true ∧ epIsLink (settled q).rdst = false) ∧
    (∃ (s : State), On s ∧ trafficQuiet s = true ∧ s.boot.remap = none) ∧
    (∃ (s : State), On s ∧ trafficQuiet s = false) ∧
    (∃ (b : SeamBundle) (wire : Nat) (errors : Nat) (i : Nat) (s : State), On s ∧ bundleNum b = some i ∧ wire < 32 ∧
      errors < 16) ∧
    (∃ (b : SeamBundle) (wire : Nat) (errors : Nat) (i : Nat) (s : State), On s ∧ bundleNum b = some i ∧ wire < 32 ∧ 16 ≤
      errors ∧ wire ∉ (bundle s i).marked ∧ (bundle s i).spares + (bundle s i).marked.length < 2) :=
  ⟨⟨0, 5, [], 7, (portPeer 0 5).get!.1, (portPeer 0 5).get!.2, withCrc
      { aPacket ocOperand [] 0 with rdst := 5, dst := 5, route := routeWord (siteRouter 5, sitePort 5) }, (withCrc
      { aPacket ocOperand [] 0 with rdst := 5, dst := 5, route := routeWord (siteRouter 5, sitePort 5) }),
      { sLive with net := { buf := [(7, [(withCrc { aPacket ocOperand [] 0 with rdst := 5, dst := 5, route := routeWord (siteRouter 5, sitePort 5) })])] } },
      fillRouter 0 ({ sLive with net := { buf := [(7, [(withCrc { aPacket ocOperand [] 0 with rdst := 5, dst := 5, route := routeWord (siteRouter 5, sitePort 5) })])] } }),
      by decide +kernel⟩,
   ⟨0, 0, [(3, 17)], 5, withCrc { aPacket ocOperand [] 0 with route := routeWord (siteRouter 0, sitePort 0) },
      { (withCrc { aPacket ocOperand [] 0 with route := routeWord (siteRouter 0, sitePort 0) }) with upset := [(3, 17)] },
      { sLive with net := { buf := [(5, [(withCrc { aPacket ocOperand [] 0 with route := routeWord (siteRouter 0, sitePort 0) })])] } },
      fillRouter 0 ({ sLive with net := { buf := [(5, [(withCrc { aPacket ocOperand [] 0 with route := routeWord (siteRouter 0, sitePort 0) })])] } }),
      by decide +kernel⟩,
   ⟨0, 0, [], 5, withCrc { aPacket ocOperand [] 0 with route := routeWord (siteRouter 0, sitePort 0) }, (withCrc
      { aPacket ocOperand [] 0 with route := routeWord (siteRouter 0, sitePort 0) }),
      { sLive with net := { buf := [(5, [(withCrc { aPacket ocOperand [] 0 with route := routeWord (siteRouter 0, sitePort 0) })])] } },
      fillRouter 0 ({ sLive with net := { buf := [(5, [(withCrc { aPacket ocOperand [] 0 with route := routeWord (siteRouter 0, sitePort 0) })])] } }),
      by decide +kernel⟩,
   ⟨sLive, by decide +kernel⟩,
   ⟨{ sLive with tiles := [(0, { flight := [{ q := 0, op := 0, due := 0 }] })] }, by decide +kernel⟩,
   ⟨.lane 239 2, 31, 15, laneBundle 239 2, sLive, by decide +kernel⟩,
   ⟨.lane 239 2, 31, 16, laneBundle 239 2, sLive, by decide +kernel⟩⟩

/-- Each clause of TestWindowsAndKnownAnswers has a state and operands that meet its hypotheses. -/
theorem test_TestWindowsAndKnownAnswers_hypotheses :
    (∃ (t : TileId) (s : State), On s ∧ tileSt s t = tsTest ∧ (∀ r ∈ s.integ.runs, r.1 ≠ t.val) ∧ t.val ∈ s.integ.window) ∧
    (∃ (t : TileId) (s : State), On s ∧ tileSt s t = tsTest ∧ (∀ r ∈ s.integ.runs, r.1 ≠ t.val) ∧ t.val ∉ s.integ.window) ∧
    (∃ (s : State), On s ∧ s.req.testOpen = true ∧ windowDone s = true ∧ s.integ.attribution = none ∧ s.integ.afterWindow
      = []) ∧
    (∃ (s : State), On s ∧ s.req.testOpen = false) ∧
    (∃ (t : TileId) (mem : TileMem) (w : Nat) (upset : List WordError) (s : State) (s' : State), On s ∧ tileOff s t =
      false ∧ tileMemCode mem < 5 ∧ w < 2 ^ 20 ∧ s' = upset.foldl (fun s e => updTile t (upsetWord (tileMemCode
      e.mem) e.word e.double) s) s ∧ tget (fun _ => 0) (tile s' t).errs (errKey (tileMemCode mem) w) = 1) ∧
    (∃ (t : TileId) (mem : TileMem) (w : Nat) (upset : List WordError) (s : State) (s' : State), On s ∧ tileOff s t =
      false ∧ tileMemCode mem < 5 ∧ w < 2 ^ 20 ∧ s' = upset.foldl (fun s e => updTile t (upsetWord (tileMemCode
      e.mem) e.word e.double) s) s ∧ 1 < tget (fun _ => 0) (tile s' t).errs (errKey (tileMemCode mem) w) ∧ mem ≠ .wm
      ∧ mem ≠ .istore) ∧
    (∃ (t : TileId) (mem : TileMem) (w : Nat) (upset : List WordError) (s : State) (s' : State), On s ∧ tileOff s t =
      false ∧ tileMemCode mem < 5 ∧ w < 2 ^ 20 ∧ s' = upset.foldl (fun s e => updTile t (upsetWord (tileMemCode
      e.mem) e.word e.double) s) s ∧ 1 < tget (fun _ => 0) (tile s' t).errs (errKey (tileMemCode mem) w) ∧ mem = .wm
      ∧ tileSt s t = tsTest) :=
  ⟨⟨0, { upd (tilStat 0) TilStat.state tsTest sLive with integ := { window := [0] } }, by decide +kernel⟩,
   ⟨0, upd (tilStat 0) TilStat.state tsTest sLive, by decide +kernel⟩,
   ⟨{ sLive with req := { testOpen := true } }, by decide +kernel⟩,
   ⟨sLive, by decide +kernel⟩,
   ⟨0, .wm, 3, [], { sLive with tiles := [(0, { errs := [(3, 1)] })] },
      ({ sLive with tiles := [(0, { errs := [(3, 1)] })] }), by decide +kernel⟩,
   ⟨0, .am, 3, [], { sLive with tiles := [(0, { errs := [(2 ^ 20 + 3, 2)] })] },
      ({ sLive with tiles := [(0, { errs := [(2 ^ 20 + 3, 2)] })] }), by decide +kernel⟩,
   ⟨0, .wm, 3, [], { upd (tilStat 0) TilStat.state tsTest sLive with tiles := [(0, { errs := [(3, 2)] })] },
      ({ upd (tilStat 0) TilStat.state tsTest sLive with tiles := [(0, { errs := [(3, 2)] })] }), by decide +kernel⟩⟩

/-- Each clause of DigestsAreCompared has a state and operands that meet its hypotheses. -/
theorem test_DigestsAreCompared_hypotheses :
    (∃ (t : TileId) (sh : Bool) (s : State), On s ∧ s.req.batch.isSome = true ∧ tileWorks s t = true ∧ digestOf s t sh ∈
      s.integ.selected ∧ tget (fun _ => none) s.integ.digests (2 * digestOf s t sh + b2n sh) = none ∧ unitsEnded s t
      sh = true) ∧
    (∃ (t : TileId) (s : State), On s ∧ s.req.batch.isSome = true ∧ t.val ∈ s.integ.selected ∧ digestPair s t = none) ∧
    (∃ (t : TileId) (s : State) (a : _), On s ∧ s.req.batch.isSome = true ∧ t.val ∈ s.integ.selected ∧ digestPair s t =
      some (a, a) ∧ isSuspect s t (partner s (batchModel s) t) = false) ∧
    (∃ (t : TileId) (s : State) (a : _) (b : _), On s ∧ s.req.batch.isSome = true ∧ t.val ∈ s.integ.selected ∧ digestPair
      s t = some (a, b) ∧ a ≠ b ∧ tileOff s t = false ∧ get s (tilFault t) TilFault.valid = 0) ∧
    (∃ (t : TileId) (k : Nat) (s : State), On s ∧ s.req.batch.isSome = true ∧ t.val ∈ s.integ.selected ∧ digestPair s t =
      none ∧ s.integ.sinksAt = some k ∧ k + max 2 (get s conCtrl ConCtrl.ctlTo) * usTicks ≤ s.devtime) :=
  ⟨⟨0, false, { upd (tilStat 0) TilStat.state tsRun sRunning with integ := { selected := [0] }, tiles := [(0, {})] },
      by decide +kernel⟩,
   ⟨0, { upd (tilStat 0) TilStat.state tsRun sRunning with integ := { selected := [0] } }, by decide +kernel⟩,
   ⟨0, { upd (tilStat 0) TilStat.state tsRun sRunning with integ := { selected := [0], digests := [(0, some 5), (1, some 5)] } },
      5, by decide +kernel⟩,
   ⟨0, { upd (tilStat 0) TilStat.state tsRun sRunning with integ := { selected := [0], digests := [(0, some 5), (1, some 6)] } },
      5, 6, by decide +kernel⟩,
   ⟨0, 5, { upd (tilStat 0) TilStat.state tsRun sRunning with integ := { selected := [0], sinksAt := some 5 } },
      by decide +kernel⟩⟩

/-- Each clause of WeightDigests has a state and operands that meet its hypotheses. -/
theorem test_WeightDigests_hypotheses :
    (∃ (i : Nat) (s : State), On s ∧ activeSlot s = some i ∧ roundsRun s = true ∧ s.integ.roundAt = none) ∧
    (∃ (i : Nat) (s : State) (k : _), On s ∧ activeSlot s = some i ∧ roundsRun s = true ∧ s.integ.roundAt = some k ∧ k +
      roundTicks s ≤ s.devtime) ∧
    (∃ (t : TileId) (r : Nat) (i : Nat) (a : Nat) (n : Nat) (k : Nat) (s : State), On s ∧ activeSlot s = some i ∧
      (wmRanges s (slotBase s i) t)[r]? = some (a, n) ∧ roundsRun s = true ∧ s.integ.roundAt = some k ∧ tileOff s t =
      false ∧ r ∉ comparedOf s t ∧ (tile s t).errs = [] ∧ sha512 (memRead (tile s t) memWm (64 * a) (64 * n)) =
      sha512 (wmRange s (slotBase s i) t (a, n))) ∧
    (∃ (t : TileId) (r : Nat) (i : Nat) (a : Nat) (n : Nat) (k : Nat) (s : State), On s ∧ activeSlot s = some i ∧
      (wmRanges s (slotBase s i) t)[r]? = some (a, n) ∧ roundsRun s = true ∧ s.integ.roundAt = some k ∧ tileOff s t =
      false ∧ r ∉ comparedOf s t ∧ (tile s t).errs = [] ∧ sha512 (memRead (tile s t) memWm (64 * a) (64 * n)) ≠
      sha512 (wmRange s (slotBase s i) t (a, n)) ∧ remapKnown s t = true ∧ get s (tilFault t) TilFault.valid = 0) ∧
    (∃ (t : TileId) (i : Nat) (k : Nat) (s : State), On s ∧ activeSlot s = some i ∧ s.integ.roundAt = some k ∧ roundsRun
      s = true ∧ tileOff s t = false ∧ lateTile s (slotBase s i) t = true ∧ k + roundTicks s ≤ s.devtime) :=
  ⟨⟨0, { sRound with integ := {} }, by decide +kernel⟩,
   ⟨0, { sRound with devtime := 10 + 10 * secTicks }, 10, by decide +kernel⟩,
   ⟨0, 0, 0, 0, 1, 10, sRound, by decide +kernel⟩,
   ⟨0, 0, 0, 0, 1, 10, { sRound with tiles := [(0, { wm := [(0, 1)] })], boot := { sRound.boot with remapQueue := [(0, 0)] } },
      by decide +kernel⟩,
   ⟨0, 0, 10, { sRound with devtime := 10 + 10 * secTicks }, by decide +kernel⟩⟩

/-- Each clause of HbmSubsystem has a state and operands that meet its hypotheses. -/
theorem test_HbmSubsystem_hypotheses :
    (∃ (c : Int) (s : State), On s ∧ -128 ≤ c ∧ c ≤ 127) ∧
    (∃ (n : SliceId) (block : Nat) (b : Nat) (i : Nat) (v : Nat) (e : BurstErr) (upset : List CellError) (s : State) (s'
      : State), On s ∧ devState s ≠ .spring ∧ get s hbmCtrl HbmCtrl.scrubHours ≠ 0 ∧ 256 * block < installed s ∧
      (home s (256 * block)).1 = n.val ∧ sliceState s n ≠ slFailed ∧ s' = upset.foldl upsetBurst s ∧ errsIn s' (256 *
      block) 256 = [(b, e)] ∧ homeFailed s (b * 32) = false ∧ e.hard = false ∧ outcomeOf s b e = .corrected i v) ∧
    (∃ (n : SliceId) (k : Nat) (s : State), On s ∧ 16 ≤ k ∧ (sliceState s n = slInService ∨ sliceState s n = slMarked)) ∧
    (∃ (m : Master) (n : Nat) (s : State), On s ∧ owner (settle s) = some m ∧ n < 768 ∧ sliceState (settle s) n =
      slInService) ∧
    (∃ (m : Master) (n : Nat) (s : State), On s ∧ owner (settle s) = some m ∧ n < 768 ∧ sliceState (settle s) n ≠
      slInService) ∧
    (∃ (m : Master) (n : Nat) (s : State), On s ∧ owner (settle s) = some m ∧ n < 768 ∧ unmarkFits (settle s) n = true) ∧
    (∃ (m : Master) (n : Nat) (s : State), On s ∧ owner (settle s) = some m ∧ n < 768 ∧ unmarkFits (settle s) n = false) ∧
    (∃ (m : Master) (n : Nat) (s : State), On s ∧ owner (settle s) = some m ∧ n < 768 ∧ sliceState (settle s) n =
      slRetired ∧ recordByte (settle s) n % 4 ≠ 3) ∧
    (∃ (s : State), On s ∧ devState s = .spring ∧ 10 ∈ s.boot.steps ∧ 11 ∉ s.boot.steps) :=
  ⟨⟨-128, sLive, by decide +kernel⟩,
   ⟨⟨(home sLive 0).1, by decide⟩, 0, 3, 5, 9, { syms := [(5, 9)] },
      [{ burst := 3, symbol := 5, bits := 9, hard := false }], sLive,
      { sLive with hbmState := { errs := [(3, ({ syms := [(5, 9)] }))] } }, by decide +kernel⟩,
   ⟨5, 16, sLive, by decide +kernel⟩,
   ⟨.ha, 767, sLive, by decide +kernel⟩,
   ⟨.ha, 5, upd (hbmSlice 5) HbmSlice.state slMarked sLive, by decide +kernel⟩,
   ⟨.ha, 5, setAll [(hbmSlice 5, HbmSlice.state, slMarked), (hbmSlice 5, HbmSlice.cause, rcOwner)] sLive,
      by decide +kernel⟩,
   ⟨.ha, 767, sLive, by decide +kernel⟩,
   ⟨.ha, 5, upd (hbmSlice 5) HbmSlice.state slRetired sLive, by decide +kernel⟩,
   ⟨{ State.reset with boot := { steps := [10] }, hbm := [(64, 7)] }, by decide +kernel⟩⟩

/-- Each clause of RecordsInNvm has a state and operands that meet its hypotheses. -/
theorem test_RecordsInNvm_hypotheses :
    (∃ (s : State), On s ∧ s.log.held ≠ [] ∧ nvmOk s = true) ∧
    (∃ (s : State), On s ∧ nvmOk s = true) ∧
    (∃ (s : State), On s ∧ nvmOk s = false) ∧
    (∃ (m : Master) (v : Nat) (s : State), On s ∧ owner (settle s) = some m ∧ bit1 v 0 = true ∧ nvmOk (settle s) = true) ∧
    (∃ (m : Master) (v : Nat) (s : State), On s ∧ owner (settle s) = some m ∧ bit1 v 0 = false) :=
  ⟨⟨{ sLive with log := { held := [infoEntry] } }, by decide +kernel⟩,
   ⟨sLive, by decide +kernel⟩,
   ⟨setAll [(nvmUpdStat, NvmUpdStat.nvmAOk, 0), (nvmUpdStat, NvmUpdStat.nvmBOk, 0)] sLive, by decide +kernel⟩,
   ⟨.ha, 1, sLive, by decide +kernel⟩,
   ⟨.ha, 2, sLive, by decide +kernel⟩⟩

/-- Each clause of LinksComeUp has a state and operands that meet its hypotheses. -/
theorem test_LinksComeUp_hypotheses :
    (∃ (n : LinkId) (s : State), On s ∧ linkSt s n = lsTrain) ∧
    (∃ (n : LinkId) (words : List Nat) (s : State), On s ∧ linkSt s n = lsAlign ∧ alignFound words = none) ∧
    (∃ (n : LinkId) (words : List Nat) (rev : Bool) (pol : Nat) (s : State), On s ∧ linkSt s n = lsAlign ∧ alignFound
      words = some (rev, pol)) ∧
    (∃ (n : LinkId) (s : State), On s ∧ mustDisable s n = false ∧ linkSt s n = lsTrain ∧ (link s n).since + 500 * msTicks
      ≤ s.devtime) ∧
    (∃ (n : LinkId) (s : State), On s ∧ mustDisable s n = false ∧ linkSt s n = lsAlign ∧ (link s n).since + msTicks ≤
      s.devtime) ∧
    (∃ (n : LinkId) (s : State), On s ∧ mustDisable s n = false ∧ linkSt s n = lsInit ∧ (link s n).since + 100 * usTicks
      ≤ s.devtime) ∧
    (∃ (n : LinkId) (s : State), On s ∧ mustDisable s n = false ∧ linkSt s n = lsDown ∧ (link s n).since + max 1 (get s
      (lnkCtrl n) LnkCtrl.retryMs) * msTicks ≤ s.devtime ∧ linkPowered s = true) ∧
    (∃ (n : LinkId) (s : State), (∀ t, (link s n).initAt = some t → t + usTicks ≤ s.devtime) ∧ On s ∧ linkSt s n = lsInit) ∧
    (∃ (n : LinkId) (f : Frame) (b : Nat) (s : State), On s ∧ f.ftype = .init ∧ linkSt s n = lsInit ∧ b = fromBytes
      (f.body.take 12) ∧ bits b 0 16 ≠ ownFdn s ∧ bits b 24 8 = 1) ∧
    (∃ (n : LinkId) (f : Frame) (b : Nat) (s : State), On s ∧ f.ftype = .init ∧ linkSt s n = lsInit ∧ b = fromBytes
      (f.body.take 12) ∧ bits b 0 16 = ownFdn s ∧ mustDisable s n = false) :=
  ⟨⟨0, sLink lsTrain {}, by decide +kernel⟩,
   ⟨0, [], sLink lsAlign {}, by decide +kernel⟩,
   ⟨0, [alignMarker + 3 * 2 ^ 40, 2 ^ 50 - 1 - (alignMarker + 2 * 2 ^ 40), alignMarker + 2 ^ 40, alignMarker], true, 2,
      sLink lsAlign {}, by decide +kernel⟩,
   ⟨0, { sLink lsTrain {} with devtime := 500 * msTicks }, by decide +kernel⟩,
   ⟨0, sLink lsAlign { since := 4060000 }, by decide +kernel⟩,
   ⟨0, sLink lsInit { since := 4000000, aligned := true }, by decide +kernel⟩,
   ⟨0, { upd (lnkCtrl 0) LnkCtrl.retryMs 1 (sLink lsDown { since := 0 }) with devtime := msTicks }, by decide +kernel⟩,
   ⟨0, sLink lsInit { initAt := some 4999060 }, of_all (by decide +kernel), by decide +kernel⟩,
   ⟨0, aFrame .init 0 [8, 0, 0, 1, 3, 0, 0, 0, 2], fromBytes [8, 0, 0, 1, 3, 0, 0, 0, 2], sLink lsInit {},
      by decide +kernel⟩,
   ⟨0, aFrame .init 0 [9, 0, 0, 1], fromBytes [9, 0, 0, 1], sLink lsInit {}, by decide +kernel⟩⟩

/-- Each clause of LinkFramesAndReplay has a state and operands that meet its hypotheses. -/
theorem test_LinkFramesAndReplay_hypotheses :
    (∃ (n : LinkId) (s : State), On s ∧ linkRuns s n = true ∧ (maySeq s n && ((link s n).part.isSome || (nextClass s
      n).isSome)) = true) ∧
    (∃ (n : LinkId) (s : State), On s ∧ linkRuns s n = true ∧ (maySeq s n && ((link s n).part.isSome || (nextClass s
      n).isSome)) = false) ∧
    (∃ (n : LinkId) (f : Frame) (errs : List Nat) (s : State), On s ∧ frameValid s n f .seq = true ∧ (errs.any fun e =>
      decide (fecLimit < e)) = false ∧ f.seq = ((link s n).ack + 1) % 2 ^ 16) ∧
    (∃ (n : LinkId) (f : Frame) (errs : List Nat) (s : State), (∀ a t, (link s n).nakFor = some (a, t) → a ≠ (link s
      n).ack) ∧ On s ∧ frameValid s n f .seq = true ∧ (errs.any fun e => decide (fecLimit < e)) = false ∧ f.seq ≠
      ((link s n).ack + 1) % 2 ^ 16) ∧
    (∃ (n : LinkId) (f : Frame) (errs : List Nat) (s : State), On s ∧ frameValid s n f .null = true ∧ (errs.any fun e =>
      decide (fecLimit < e)) = false) ∧
    (∃ (n : LinkId) (c : Instr) (f : Frame) (errs : List Nat) (s : State), On s ∧ linkRuns s n = true ∧ (c =
      .frameCrcFail n errs ∨ ((errs.any fun e => decide (fecLimit < e)) = true ∧ (c = .seqFrameReceive n f errs ∨ c =
      .nullFrameReceive n f errs)))) ∧
    (∃ (n : LinkId) (s : State), On s ∧ linkRuns s n = true) ∧
    (∃ (n : LinkId) (s : State) (t : Nat), On s ∧ linkRuns s n = true ∧ (link s n).nakFor = some ((link s n).ack, t) ∧ t
      + 4 * usTicks ≤ s.devtime) ∧
    (∃ (n : LinkId) (s : State), On s ∧ linkRuns s n = true ∧ (link s n).nakSeen = true ∧ (link s n).replay ≠ [] ∧ (link
      s n).replays ≠ 4) ∧
    (∃ (n : LinkId) (s : State) (f : SentFrame) (r : List SentFrame), On s ∧ linkRuns s n = true ∧ (link s n).replay = f
      :: r ∧ f.at_ + 4 * usTicks ≤ s.devtime ∧ (link s n).replays ≠ 4) :=
  ⟨⟨0, sLink lsUp { ctl := [aPacket ocOperand [] 0], ctlHeld := 100 }, by decide +kernel⟩,
   ⟨0, sLink lsUp {}, by decide +kernel⟩,
   ⟨0, aFrame .seq 0 [], [0, 15], sLink lsUp {}, by decide +kernel⟩,
   ⟨0, aFrame .seq 1 [], [0, 15], sLink lsUp {}, no_nak, by decide +kernel⟩,
   ⟨0, aFrame .null 0 [], [0, 15], sLink lsUp {}, by decide +kernel⟩,
   ⟨0, .seqFrameReceive 0 (aFrame .seq 0 []) ([15, 16]), aFrame .seq 0 [], [15, 16], sLink lsUp {}, by decide +kernel⟩,
   ⟨0, sLink lsUp {}, by decide +kernel⟩,
   ⟨0, sLink lsUp { nakFor := some (0xFFFF, 4000000) }, 4000000, by decide +kernel⟩,
   ⟨0, sLink lsUp { nakSeen := true, replay := [aSent 0, aSent 1], replays := 3 }, by decide +kernel⟩,
   ⟨0, sLink lsUp { replay := [aSent 0, aSent 1] }, aSent 0, [aSent 1], by decide +kernel⟩⟩

/-- Each clause of LinksGoDown has a state and operands that meet its hypotheses. -/
theorem test_LinksGoDown_hypotheses :
    (∃ (n : LinkId) (s : State), On s ∧ linkRuns s n = true ∧ mustDisable s n = false ∧ (link s n).lastValid + 16 *
      usTicks ≤ s.devtime) ∧
    (∃ (n : LinkId) (s : State), On s ∧ linkRuns s n = true ∧ mustDisable s n = false ∧ get s (lnkCtrl n)
      LnkCtrl.ucwLimit ≠ 0 ∧ get s (lnkCtrl n) LnkCtrl.ucwLimit < ((link s n).ucwAt.filter fun t => decide (s.devtime
      < t + msTicks)).length) ∧
    (∃ (n : LinkId) (s : State) (d : Bool) (t : Nat), On s ∧ linkRuns s n = true ∧ mustDisable s n = false ∧ (if d then
      (link s n).dataStall else (link s n).ctlStall) = some t ∧ t + 100 * usTicks ≤ s.devtime) ∧
    (∃ (n : LinkId) (s : State), On s ∧ linkRuns s n = true ∧ mustDisable s n = false ∧ (link s n).nakSeen = true ∧ (link
      s n).replay ≠ [] ∧ (link s n).replays = 4) ∧
    (∃ (m : Master) (n : LinkId) (v : Nat) (s : State), On s ∧ owner (settle s) = some m ∧ linkRuns s n = true ∧ getF (rd
      (settle s) (lnkCtrl n)) LnkCtrl.enable = 1 ∧ v % 2 = 0) ∧
    (∃ (m : Master) (n : LinkId) (v : Nat) (s : State), On s ∧ owner (settle s) = some m ∧ linkRuns s n = true ∧ getF (rd
      (settle s) (lnkCtrl n)) LnkCtrl.enable = 1 ∧ v % 2 = 1 ∧ bits (rd (settle s) (lnkCtrl n)).toNat 1 4 = bits v 1
      4) ∧
    (∃ (m : Master) (n : LinkId) (v : Nat) (s : State), On s ∧ owner (settle s) = some m ∧ linkRuns s n = true ∧ getF (rd
      (settle s) (lnkCtrl n)) LnkCtrl.enable = 1 ∧ v % 2 = 1 ∧ bits (rd (settle s) (lnkCtrl n)).toNat 1 4 ≠ bits v 1
      4) ∧
    (∃ (m : Master) (i : Fin 16) (v : Nat) (s : State), On s ∧ owner (settle s) = some m ∧ v < 2 ^ 64 ∧ slotState (settle
      s) (get (settle s) (lnkNarrow i) LnkNarrow.slot) ≠ ssActive ∧ slotState (settle s) (getF (BitVec.ofNat 64 v)
      LnkNarrow.slot) ≠ ssActive) ∧
    (∃ (m : Master) (i : Fin 16) (v : Nat) (s : State), On s ∧ owner (settle s) = some m ∧ v < 2 ^ 64 ∧ slotState (settle
      s) (get (settle s) (lnkNarrow i) LnkNarrow.slot) = ssActive) ∧
    (∃ (m : Master) (f : FieldId) (s : State), On s ∧ owner (settle s) = some m ∧ regOff s (lnkCntCtrl f) = false) :=
  ⟨⟨0, sLink lsUp { lastValid := 4000000 }, by decide +kernel⟩,
   ⟨0, upd (lnkCtrl 0) LnkCtrl.ucwLimit 5 (sLink lsUp { ucwAt := List.replicate 6 (5000001 - msTicks) }),
      by decide +kernel⟩,
   ⟨0, sLink lsUp { dataStall := some 10 }, true, 10, by decide +kernel⟩,
   ⟨0, sLink lsUp { nakSeen := true, replay := [aSent 0], replays := 4 }, by decide +kernel⟩,
   ⟨.ha, 0, 2 ^ 32 - 2, sLink lsUp {}, by decide +kernel⟩,
   ⟨.ha, 0, 2 ^ 32 - 31, sLink lsUp {}, by decide +kernel⟩,
   ⟨.ha, 0, 2 ^ 32 - 1, sLink lsUp {}, by decide +kernel⟩,
   ⟨.ha, 15, 2 ^ 64 - 1, sLive, by decide +kernel⟩,
   ⟨.ha, 15, 2 ^ 64 - 1, sBatch, by decide +kernel⟩,
   ⟨.ha, 0, setAll [(lnkErr 0, ⟨0, 8⟩, 7)] sLive, by decide +kernel⟩⟩

/-- Each clause of InputSupervision has a state and operands that meet its hypotheses. -/
theorem test_InputSupervision_hypotheses :
    (∃ (vin : Nat) (us : Nat) (s : State), On s ∧ 6000 < vin ∧ 1000 ≤ us ∧ get s pwrInStat PwrInStat.high = 0) ∧
    (∃ (vin : Nat) (s : State), On s ∧ vin ≤ 6000) ∧
    (∃ (vin : Nat) (us : Nat) (s : State), On s ∧ vin ≤ 5950 ∧ 1000 ≤ us) ∧
    (∃ (vin : Nat) (us : Nat) (s : State), On s ∧ vin < 4100 ∧ 20 ≤ us ∧ get s pwrInStat PwrInStat.cap = 0) ∧
    (∃ (vin : Nat) (us : Nat) (s : State), On s ∧ 4200 ≤ vin ∧ 10000 ≤ us) ∧
    (∃ (vin : Nat) (us : Nat) (s : State), On s ∧ vin < 3800 ∧ 2000 ≤ us ∧ get s pwrInStat PwrInStat.halt = 0) ∧
    (∃ (vin : Nat) (us : Nat) (s : State), On s ∧ 4200 ≤ vin ∧ 100000 ≤ us) ∧
    (∃ (vin : Nat) (us : Nat) (s : State), On s ∧ 6200 < vin ∧ 10 ≤ us) ∧
    (∃ (vin : Nat) (us : Nat) (s : State), On s ∧ vin < 3600 ∧ 10 ≤ us) ∧
    (∃ (s : State), On s) ∧
    (∃ (m : Master) (s : State), On s ∧ owner (settle s) = some m) ∧
    (∃ (m : Master) (op : Nat) (s : State), On s ∧ 2 ≤ op % 4 ∧ owner (settle s) = some m) ∧
    (∃ (vin : Nat) (us : Nat) (s : State), s.power.off = some .overvolt ∧ vin ≤ 6000 ∧ 100000 ≤ us) ∧
    (∃ (vin : Nat) (us : Nat) (s : State), (s.power.off = some .brownout ∨ s.power.off = some .auxFault) ∧ 4000 ≤ vin ∧
      100000 ≤ us) ∧
    (∃ (vin : Nat) (s : State), s.power.off = some .shutdown ∧ vin < 3600) ∧
    (∃ (vin : Nat) (s : State), s.power.off = some .dieTrip ∧ vin < 3600) ∧
    (∃ (vin : Nat) (us : Nat) (s : State) (cap : Nat), s.power.off = some .cold ∧ s.power.mated = true ∧ 4000 ≤ vin ∧ vin
      ≤ 6000 ∧ 10000 ≤ us ∧ vin ≤ cap + 200) ∧
    (∃ (s : State), s.power.mated = false ∧ s.power.off = some .unmated) ∧
    (∃ (rail : Supply) (s : State), supplyReady s rail = true ∧ rail ∉ s.power.up ∧ (rail = .aux ∨ rail = .supervisor ∨
      rail = .oscillator) ∧ s.power.off = some .cold ∧ s.power.qualified = true) ∧
    (∃ (rail : Supply) (s : State), supplyReady s rail = true ∧ rail ∉ s.power.up ∧ rail ≠ .aux ∧ rail ≠ .supervisor ∧
      rail ≠ .oscillator ∧ On s ∧ s.power.auxStopped = false) ∧
    (∃ (s : State), (s.power.off = none ∨ (s.power.qualified = true ∧ .oscillator ∈ s.power.up))) :=
  ⟨⟨6001, 1000, sLive, by decide +kernel⟩,
   ⟨6000, sLive, by decide +kernel⟩,
   ⟨5950, 1000, upd pwrInStat PwrInStat.high 1 sLive, by decide +kernel⟩,
   ⟨4099, 20, sLive, by decide +kernel⟩,
   ⟨4200, 10000, upd pwrInStat PwrInStat.cap 1 sLive, by decide +kernel⟩,
   ⟨3799, 2000, sLive, by decide +kernel⟩,
   ⟨4200, 100000, upd pwrInStat PwrInStat.halt 1 sLive, by decide +kernel⟩,
   ⟨6201, 10, sLive, by decide +kernel⟩,
   ⟨3599, 10, sLive, by decide +kernel⟩,
   ⟨sQueue, by decide +kernel⟩,
   ⟨.ha, sQueue, by decide +kernel⟩,
   ⟨.ha, 7, sLive, by decide +kernel⟩,
   ⟨6000, 100000, sOff .overvolt, by decide +kernel⟩,
   ⟨4000, 100000, sOff .brownout, by decide +kernel⟩,
   ⟨3599, sOff .shutdown, by decide +kernel⟩,
   ⟨3599, sOff .dieTrip, by decide +kernel⟩,
   ⟨4000, 10000, sOff .cold, 3800, by decide +kernel⟩,
   ⟨{ sLive with power := { off := some .unmated, mated := false } }, by decide +kernel⟩,
   ⟨.supervisor, { sLive with power := { off := some .cold, qualified := true, up := [.aux] } }, by decide +kernel⟩,
   ⟨.linkAndHost, State.reset, by decide +kernel⟩,
   ⟨{ sLive with power := { off := some .cold, qualified := true, up := [.aux, .supervisor, .oscillator] } },
      by decide +kernel⟩⟩

/-- Each clause of FieldAndAuxiliarySupplies has a state and operands that meet its hypotheses. -/
theorem test_FieldAndAuxiliarySupplies_hypotheses :
    (∃ (f : FieldId) (c : Fin 3) (s : State), On s ∧ get s (pwrFieldStat f) (ibcFld c) = 1 ∧ ibcActive s f = 3) ∧
    (∃ (f : FieldId) (c : Fin 3) (s : State), On s ∧ get s (pwrFieldStat f) (ibcFld c) = 1 ∧ ibcActive s f = 2 ∧ get s
      (pwrFieldStat f) PwrFieldStat.state = 0) ∧
    (∃ (f : FieldId) (c : Fin 3) (s : State), On s ∧ get s (pwrFieldStat f) (ibcFld c) = 1 ∧ ibcActive s f = 1 ∧
      fieldLive s f = true ∧ degraded s = false) ∧
    (∃ (f : FieldId) (mv : Nat) (us : Nat) (s : State), On s ∧ 150 < mv ∧ 100 ≤ us ∧ get s (pwrFieldStat f)
      PwrFieldStat.senseFault = 0) ∧
    (∃ (f : FieldId) (cause : Nat) (s : State), On s ∧ 1 ≤ cause ∧ cause ≤ 7 ∧ fieldLive s f = true ∧ degraded s = false
      ∧ s.boot.fabricReset = false) ∧
    (∃ (b : Bool) (s : State), On s ∧ get s pwrAuxStat (if b then PwrAuxStat.auxA else PwrAuxStat.auxB) ≠ 2) ∧
    (∃ (b : Bool) (s : State), On s ∧ get s pwrAuxStat (if b then PwrAuxStat.auxA else PwrAuxStat.auxB) = 2) ∧
    (∃ (rail : AuxRail) (s : State), On s ∧ rail ∉ s.power.auxFaulted) ∧
    (∃ (rail : AuxRail) (s : State), On s ∧ rail ∈ s.power.auxFaulted ∧ devState s = .spring) ∧
    (∃ (h : Head) (s : State), On s ∧ get s pwrAuxStat
      (match h with | .ha => PwrAuxStat.haDown | .hb => PwrAuxStat.hbDown) = 0) :=
  ⟨⟨11, 2, setAll [(pwrFieldStat 11, PwrFieldStat.ibcA, 1), (pwrFieldStat 11, PwrFieldStat.ibcB, 1), (pwrFieldStat 11,
      PwrFieldStat.ibcC, 1), (pwrFieldStat 11, PwrFieldStat.state, 0)] sLive, by decide +kernel⟩,
   ⟨11, 2, setAll [(pwrFieldStat 11, PwrFieldStat.ibcA, 2), (pwrFieldStat 11, PwrFieldStat.ibcB, 1), (pwrFieldStat 11,
      PwrFieldStat.ibcC, 1), (pwrFieldStat 11, PwrFieldStat.state, 0)] sLive, by decide +kernel⟩,
   ⟨11, 2, setAll [(pwrFieldStat 11, PwrFieldStat.ibcA, 2), (pwrFieldStat 11, PwrFieldStat.ibcB, 2), (pwrFieldStat 11,
      PwrFieldStat.ibcC, 1), (pwrFieldStat 11, PwrFieldStat.state, 1)] sLive, by decide +kernel⟩,
   ⟨11, 151, 100, setAll [(pwrFieldStat 11, PwrFieldStat.ibcA, 1), (pwrFieldStat 11, PwrFieldStat.ibcB, 1),
      (pwrFieldStat 11, PwrFieldStat.ibcC, 1), (pwrFieldStat 11, PwrFieldStat.state, 0)] sLive, by decide +kernel⟩,
   ⟨11, 7, setAll [(pwrFieldStat 11, PwrFieldStat.ibcA, 1), (pwrFieldStat 11, PwrFieldStat.ibcB, 1), (pwrFieldStat 11,
      PwrFieldStat.ibcC, 1), (pwrFieldStat 11, PwrFieldStat.state, 0)] sLive, by decide +kernel⟩,
   ⟨true, setAll [(pwrFieldStat 11, PwrFieldStat.ibcA, 1), (pwrFieldStat 11, PwrFieldStat.ibcB, 1), (pwrFieldStat 11,
      PwrFieldStat.ibcC, 1), (pwrFieldStat 11, PwrFieldStat.state, 0)] sLive, by decide +kernel⟩,
   ⟨true, upd pwrAuxStat PwrAuxStat.auxA 2 sLive, by decide +kernel⟩,
   ⟨.vpp, setAll [(pwrFieldStat 11, PwrFieldStat.ibcA, 1), (pwrFieldStat 11, PwrFieldStat.ibcB, 1), (pwrFieldStat 11,
      PwrFieldStat.ibcC, 1), (pwrFieldStat 11, PwrFieldStat.state, 0)] sLive, by decide +kernel⟩,
   ⟨.vpp, { upd pwrState PwrState.state 1 sLive with power := { auxFaulted := [.vpp] } }, by decide +kernel⟩,
   ⟨.ha, setAll [(pwrFieldStat 11, PwrFieldStat.ibcA, 1), (pwrFieldStat 11, PwrFieldStat.ibcB, 1), (pwrFieldStat 11,
      PwrFieldStat.ibcC, 1), (pwrFieldStat 11, PwrFieldStat.state, 0)] sLive, by decide +kernel⟩⟩

/-- Each clause of ClusterRegulators has a state and operands that meet its hypotheses. -/
theorem test_ClusterRegulators_hypotheses :
    (∃ (g : ClusterId) (p : Fin 8) (s : State), On s ∧ bit1 (get s (pwrClStat g) PwrClStat.phaseOk) p = true ∧ phasesOk s
      g = 8) ∧
    (∃ (g : ClusterId) (p : Fin 8) (s : State), On s ∧ bit1 (get s (pwrClStat g) PwrClStat.phaseOk) p = true ∧ phasesOk s
      g ≤ 7 ∧ get s (pwrClStat g) PwrClStat.state ≠ clDark ∧ s.boot.remap = none ∧ (∀ t ∈ clusterTiles s g,
      remapKnown s t = true)) ∧
    (∃ (g : ClusterId) (s : State), On s ∧ (get s (pwrClStat g) PwrClStat.state = clOn ∨ get s (pwrClStat g)
      PwrClStat.state = clSoft) ∧ s.boot.remap = none ∧ (∀ t ∈ clusterTiles s g, remapKnown s t = true)) ∧
    (∃ (g : ClusterId) (s : State), On s ∧ admitNext s (clusterField g) = some (g.val, false)) ∧
    (∃ (g : ClusterId) (s : State), On s ∧ admitNext s (clusterField g) = some (g.val, true)) ∧
    (∃ (g : ClusterId) (s : State), Inv s ∧ On s ∧ get s (pwrClStat g) PwrClStat.state = clSoft ∧ tget (fun _ => 0)
      s.power.softEnd g ≤ s.devtime) ∧
    (∃ (g : ClusterId) (s : State), On s ∧ g.val ∈ s.power.ramping) :=
  ⟨⟨0, 7, setAll [(pwrClStat 0, PwrClStat.phaseOk, 255), (pwrClStat 0, PwrClStat.state, 3)] sLive, by decide +kernel⟩,
   ⟨0, 0, known (clusterTiles sLive 0) (setAll [(pwrClStat 0, PwrClStat.phaseOk, 127), (pwrClStat 0, PwrClStat.state,
      3)] sLive), by decide +kernel⟩,
   ⟨0, known (clusterTiles sLive 0) (setAll [(pwrClStat 0, PwrClStat.state, 3)] sLive), by decide +kernel⟩,
   ⟨0, { sLive with power := { sLive.power with waiting := [{ cluster := 0, time := 4999000 }] } }, by decide +kernel⟩,
   ⟨0, { sLive with power := { sLive.power with waiting := [{ cluster := 0, time := 0 }] }, devtime := 500000000 },
      by decide +kernel⟩,
   ⟨0, upd (pwrClStat 0) PwrClStat.state 2 sLive, ⟨by decide +kernel, by decide +kernel, by decide +kernel,
      by decide +kernel, by decide +kernel⟩, by decide +kernel⟩,
   ⟨0, { upd (pwrClStat 0) PwrClStat.state 1 sLive with power := { sLive.power with ramping := [0] } },
      by decide +kernel⟩⟩

/-- Each clause of ThePowerController has a state and operands that meet its hypotheses. -/
theorem test_ThePowerController_hypotheses :
    (∃ (s : State), Inv s ∧ On s) ∧
    (∃ (t : Nat) (s : State), On s ∧ s.control.autumnClear = some t ∧ devState s = .autumn ∧ t + 10 * msTicks ≤ s.devtime
      ∧ get s pwrState PwrState.autumnCause = 0) ∧
    (∃ (g : ClusterId) (s : State), On s ∧ fieldTime s (clusterField g) % (8 * get s clkStat ClkStat.div) = 0 ∧ fabricOff
      s (clusterField g) = false ∧ tget (fun _ => 64) s.control.m g ≤ 64) :=
  ⟨⟨upd (pwrClStat 0) PwrClStat.state 3 sLive, ⟨by decide +kernel, by decide +kernel, by decide +kernel,
      by decide +kernel, by decide +kernel⟩, by decide +kernel⟩,
   ⟨10, { upd pwrState PwrState.state 3 sLive with control := { autumnClear := some 10 }, devtime := 10 * msTicks + 10 },
      by decide +kernel⟩,
   ⟨0, { sLive with devtime := 64 }, by decide +kernel⟩⟩

/-- Each clause of HeatAndCoolant has a state and operands that meet its hypotheses. -/
theorem test_HeatAndCoolant_hypotheses :
    (∃ (s : State), On s) ∧
    (∃ (t : Int) (s : State), On s ∧ t < 1150) ∧
    (∃ (g : ClusterId) (t : Int) (s : State) (t0 : _), On s ∧ tempOf s g = some t0 ∧ 1150 ≤ t0 ∧ 1150 ≤ t ∧ 1 ≤ get s
      (pwrClStat g) PwrClStat.state ∧ get s (pwrClStat g) PwrClStat.state ≤ 3 ∧ g.val ∉ s.power.ramping ∧
      s.boot.remap = none ∧ (∀ x ∈ clusterTiles s g, remapKnown s x = true)) ∧
    (∃ (t : Int) (s : State), On s ∧ t < 1100) ∧
    (∃ (f : FieldId) (t : Int) (s : State) (t0 : _), On s ∧ tempOf s (240 + f.val) = some t0 ∧ 1100 ≤ t0 ∧ 1100 ≤ t) ∧
    (∃ (g : ClusterId) (t : Nat) (s : State), On s ∧ tget (fun _ => none) s.control.coolSince g.val = some t ∧ get s
      (pwrClTherm g) PwrClTherm.cooling = 1 ∧ t + secTicks ≤ s.devtime ∧ g.val ∉ s.power.ramping) ∧
    (∃ (t0 : Int) (t : Int) (s : State), On s ∧ 1250 ≤ t0 ∧ 1250 ≤ t) :=
  ⟨⟨{ sLive with control := { lastTemp := [(0, some 960)] } }, by decide +kernel⟩,
   ⟨1149, sLive, by decide +kernel⟩,
   ⟨0, 1150, known (clusterTiles sLive 0) (setAll [(pwrClStat 0, PwrClStat.state, 3)]
      { sLive with control := { lastTemp := [(0, some 1150)] } }), 1150, by decide +kernel⟩,
   ⟨1099, sLive, by decide +kernel⟩,
   ⟨0, 1100, { sLive with control := { lastTemp := [(240, some 1100)] } }, 1100, by decide +kernel⟩,
   ⟨0, 10, setAll [(pwrClTherm 0, PwrClTherm.cooling, 1)]
      { sLive with control := { coolSince := [(0, some 10)] }, devtime := secTicks + 10 }, by decide +kernel⟩,
   ⟨1250, 1250, sQueue, by decide +kernel⟩⟩

/-- Each clause of WinterAndItsExit has a state and operands that meet its hypotheses. -/
theorem test_WinterAndItsExit_hypotheses :
    (∃ (m : Master) (s : State), On s ∧ owner (settle s) = some m) ∧
    (∃ (t : Nat) (s : State), Inv s ∧ On s ∧ s.control.winterDue = some t ∧ running s = true ∧ s.power.ramping = [] ∧ get
      s pwrState PwrState.winterCause ≠ 0 ∧ (s.req.batch = none ∨ t + 500 * usTicks ≤ s.devtime)) ∧
    (∃ (t : Nat) (s : State), On s ∧ s.control.winterClear = some t ∧ devState s = .winter ∧ t + 100 * msTicks ≤
      s.devtime ∧ get s pwrState PwrState.winterCause = 0 ∧ s.control.exiting = false) ∧
    (∃ (t : Nat) (s : State), Inv s ∧ On s ∧ s.control.winterClear = some t ∧ devState s = .winter ∧ t + 100 * msTicks ≤
      s.devtime ∧ get s pwrState PwrState.winterCause = 0 ∧ s.control.exiting = true ∧ (∀ g ∈ logicalClusters s, get
      s (pwrClStat g) PwrClStat.state = 3 ∨ get s (pwrClStat g) PwrClStat.state = 4)) :=
  ⟨⟨.ha, sLive, by decide +kernel⟩,
   ⟨10, setAll [(pwrState, PwrState.winterCause, 1)] { sLive with control := { winterDue := some 10 } },
      ⟨by decide +kernel, by decide +kernel, by decide +kernel, by decide +kernel, by decide +kernel⟩,
      by decide +kernel⟩,
   ⟨10, setAll [(pwrState, PwrState.state, 4)]
      { sLive with control := { winterClear := some 10 }, devtime := 10 + 100 * msTicks }, by decide +kernel⟩,
   ⟨10, setAll [(pwrState, PwrState.state, 4)] (allClusters 3
      { sLive with control := { winterClear := some 10, exiting := true }, devtime := 10 + 100 * msTicks }),
      ⟨by decide +kernel, by decide +kernel, by decide +kernel, by decide +kernel, by decide +kernel⟩,
      by decide +kernel⟩⟩

/-- Each clause of PllsAndDeviceTime has a state and operands that meet its hypotheses. -/
theorem test_PllsAndDeviceTime_hypotheses :
    (∃ (f : FieldId) (s : State), On s ∧ .field f ∈ s.power.up ∧ f.val ∉ s.clock.locked) ∧
    (∃ (f : FieldId) (s : State), On s ∧ f.val ∈ s.clock.locked ∧ s.boot.fabricReset = false) ∧
    (∃ (f : FieldId) (s : State) (t : _), On s ∧ tget (fun _ => none) s.clock.lostAt f.val = some t ∧ t + 10 * msTicks ≤
      s.devtime) ∧
    (∃ (f : FieldId) (s : State) (e : List Int), (∀ f', f' ≠ f.val → ((fieldTime s f' : Int) + e.getD f' 0 -
      s.devtime).natAbs ≤ 64) ∧ On s ∧ s.devtime % msTicks = 0 ∧ s.clock.synced.contains f.val = true ∧ fieldLive s f
      = true ∧ 64 < ((fieldTime s f.val : Int) + e.getD f.val 0 - s.devtime).natAbs ∧ s.boot.fabricReset = false) ∧
    (∃ (s : State), On s) ∧
    (∃ (e : List Int) (err : Nat → Int) (s : State), (∀ f, err f = (fieldTime s f : Int) + e.getD f 0 - s.devtime) ∧ On s
      ∧ s.devtime % msTicks = 0 ∧ s.devtime % secTicks ≠ 0 ∧ (∀ f ∈ liveFields s, s.clock.synced.contains f = true ∧
      (err f).natAbs ≤ 64)) ∧
    (∃ (m : Master) (s : State), On s ∧ owner (settle s) = some m) :=
  ⟨⟨11, { sLive with power := { up := [.field 11] } }, by decide +kernel⟩,
   ⟨11, { sLive with clock := { locked := [11] } }, by decide +kernel⟩,
   ⟨11, { sLive with clock := { lostAt := [(11, some 10)] }, devtime := 10 + 10 * msTicks }, 10, by decide +kernel⟩,
   ⟨11, sStrobe, [0, 0, 0, 0, 0, 0, 0, 0, 0, 0, 0, -65], other_errors, by decide +kernel⟩,
   ⟨sLive, by decide +kernel⟩,
   ⟨[64, -64, 3], fun f => (fieldTime sStrobe f : Int) + ([64, -64, 3] : List Int).getD f 0 - sStrobe.devtime, sStrobe,
      fun _ => rfl, by decide +kernel⟩,
   ⟨.ha, sLive, by decide +kernel⟩⟩

/-- Each clause of SkewMarginAndDivider has a state and operands that meet its hypotheses. -/
theorem test_SkewMarginAndDivider_hypotheses :
    (∃ (f : FieldId) (i : Fin 17) (ps : Int) (s : State), On s ∧ crossingLive s i.val = true ∧ (crossing i.val).1 = f.val
      ∨ (crossing i.val).2 = f.val ∧ ps.natAbs ≤ crossingBudget i.val) ∧
    (∃ (f : FieldId) (i : Fin 17) (ps : Int) (s : State), On s ∧ crossingLive s i.val = true ∧ (crossing i.val).1 = f.val
      ∨ (crossing i.val).2 = f.val ∧ crossingBudget i.val < ps.natAbs ∧ tget (fun _ => 0) s.clock.overFor i.val = 9 ∧
      s.clock.step = none ∧ curDiv s < 16) ∧
    (∃ (g : ClusterId) (s : State), On s ∧ reports s g = false) ∧
    (∃ (g : ClusterId) (ps : Nat) (s : State), On s ∧ reports s g = true ∧ get s clkMarginCfg ClkMarginCfg.critPs < ps ∧
      get s clkMarginCfg ClkMarginCfg.warnPs < ps ∧ ps < get s clkMarginCfg ClkMarginCfg.relaxPs) ∧
    (∃ (g : ClusterId) (ps : Nat) (s : State), On s ∧ reports s g = true ∧ get s clkMarginCfg ClkMarginCfg.critPs < ps ∧
      ps ≤ get s clkMarginCfg ClkMarginCfg.warnPs ∧ 1 ≤ tget (fun _ => 0) s.clock.lastMet g.val ∧ passed s.devtime
      (tget (fun _ => none) s.clock.lastRaise g.val) (100 * usTicks) = true ∧ get s (clkClMargin g) ClkClMargin.adj <
      8 ∧ get s (pwrClStat g) PwrClStat.vset ≠ 60) ∧
    (∃ (g : ClusterId) (ps : Nat) (s : State), On s ∧ reports s g = true ∧ ps ≤ get s clkMarginCfg ClkMarginCfg.critPs ∧
      tget (fun _ => 0) s.clock.lastMet g.val = 2 ∧ s.clock.step = none ∧ curDiv s < 16) ∧
    (∃ (s : State), On s ∧ s.clock.step = none ∧ max (get s clkCtrl ClkCtrl.targetDiv) s.clock.floorDiv < curDiv s) ∧
    (∃ (st : ClockStep) (t : Nat) (s : State) (n : Nat) (p : Int) (s' : State), On s ∧ s.clock.step = some st ∧ st.ts =
      some t ∧ t ≤ s.devtime ∧ fieldsInSync s = true ∧ st.toDiv < 32 ∧ get s clkCtrl ClkCtrl.targetDiv ≤ st.toDiv ∧ p
      = (rescale s st.toDiv (curDiv s) ((onClusters s).filter fun g => !s.power.ramping.contains g) 0
      s.control.lRamp).2 / (curDiv s : Int) + (if st.down then -((min 40000 n : Nat) : Int) else ((min 40000 n : Nat)
      : Int)) ∧ chargeSample p s = some s') ∧
    (∃ (st : ClockStep) (t : Nat) (s : State) (n : Nat) (p : Int), On s ∧ s.clock.step = some st ∧ st.ts = some t ∧ t ≤
      s.devtime ∧ fieldsInSync s = true ∧ p = (rescale s st.toDiv (curDiv s) ((onClusters s).filter fun g =>
      !s.power.ramping.contains g) 0 s.control.lRamp).2 / (curDiv s : Int) + (if st.down then -((min 40000 n : Nat) :
      Int) else ((min 40000 n : Nat) : Int)) ∧ chargeSample p s = none) ∧
    (∃ (st : ClockStep) (t : Nat) (s : State), On s ∧ s.clock.step = some st ∧ st.ts = some t ∧ t ≤ s.devtime ∧
      fieldsInSync s = false) ∧
    (∃ (g : ClusterId) (s : State), On s ∧ get s (pwrClStat g) PwrClStat.vset < vsetTarget s g ∧ passed s.devtime (tget
      (fun _ => none) s.clock.lastVset g.val) (10 * usTicks) = true) ∧
    (∃ (g : ClusterId) (s : State), On s ∧ vsetTarget s g < get s (pwrClStat g) PwrClStat.vset ∧ passed s.devtime (tget
      (fun _ => none) s.clock.lastVset g.val) (100 * usTicks) = true ∧ (s.clock.step.map (·.held)).getD false = true) ∧
    (∃ (g : ClusterId) (s : State), On s ∧ vsetTarget s g < get s (pwrClStat g) PwrClStat.vset ∧ passed s.devtime (tget
      (fun _ => none) s.clock.lastVset g.val) (100 * usTicks) = true ∧ (s.clock.step.map (·.held)).getD false = false) :=
  ⟨⟨9, 16, -60, sLive, by decide +kernel⟩,
   ⟨9, 16, -61, { sLive with clock := { overFor := [(16, 9)] } }, by decide +kernel⟩,
   ⟨239, sLive, by decide +kernel⟩,
   ⟨239, 36, setAll [(pwrClStat 239, PwrClStat.state, 3)] { sLive with power := { siteOn := [959] } }, by decide +kernel⟩,
   ⟨239, 25, setAll [(pwrClStat 239, PwrClStat.state, 3)]
      { sLive with power := { siteOn := [959] }, clock := { lastMet := [(239, 1)] } }, by decide +kernel⟩,
   ⟨239, 1, setAll [(pwrClStat 239, PwrClStat.state, 3)]
      { sLive with power := { siteOn := [959] }, clock := { lastMet := [(239, 2)] } }, by decide +kernel⟩,
   ⟨upd clkStat ClkStat.div 16 sLive, by decide +kernel⟩,
   ⟨{ toDiv := 9, down := true, ts := some 10 }, 10,
      { sLive with clock := { step := some ({ toDiv := 9, down := true, ts := some 10 }) } }, 0, 0,
      ({ sLive with clock := { step := some ({ toDiv := 9, down := true, ts := some 10 }) } }), by decide +kernel⟩,
   ⟨{ toDiv := 8, down := false, ts := some 10 }, 10,
      { upd clkStat ClkStat.div 16 sLive with clock := { step := some ({ toDiv := 8, down := false, ts := some 10 }) }, control := { riseLeft := 39999 } },
      40000, 40000, by decide +kernel⟩,
   ⟨{ toDiv := 9, down := true, ts := some 10 }, 10, upd (timSyncStat 3) TimSyncStat.error 5
      { sLive with clock := { step := some ({ toDiv := 9, down := true, ts := some 10 }) } }, by decide +kernel⟩,
   ⟨239, upd (clkClMargin 239) ClkClMargin.trim 60 (upd (pwrClStat 239) PwrClStat.vset 58 sLive), by decide +kernel⟩,
   ⟨239, upd (clkClMargin 239) ClkClMargin.trim 0 (upd (pwrClStat 239) PwrClStat.vset 60
      { sLive with clock := { step := some { toDiv := 9, down := true, held := true } } }), by decide +kernel⟩,
   ⟨239, upd (clkClMargin 239) ClkClMargin.trim 0 (upd (pwrClStat 239) PwrClStat.vset 60 sLive), by decide +kernel⟩⟩

/-- Each clause of ResetsAndRepairCommands has a state and operands that meet its hypotheses. -/
theorem test_ResetsAndRepairCommands_hypotheses :
    (∃ (s : State), On s) ∧
    (∃ (m : Master) (s : State), On s ∧ owner (settle s) = some m ∧ s.boot.fabricReset = false) ∧
    (∃ (f : FieldId) (s : State), On s ∧ fieldLive s f = true ∧ s.boot.fabricReset = false) ∧
    (∃ (s : State), On s ∧ s.boot.fabricReset = false ∧ (∃ f ∈ liveFields s, f ∉ s.clock.locked)) ∧
    (∃ (failed : List Nat) (s : State), (∀ r, s.boot.journal.getLast? = some r → r.kind ≠ 1) ∧ On s ∧ s.boot.fabricReset
      = true ∧ (∀ f ∈ liveFields s, f ∈ s.clock.locked) ∧ (failed = [] ∨ running s = false)) ∧
    (∃ (m : Master) (f : Nat) (s : State), On s ∧ owner (settle s) = some m ∧ s.boot.repair = none ∧ f < 12 ∧ fieldLive s
      f = false) ∧
    (∃ (m : Master) (f : Nat) (s : State), On s ∧ owner (settle s) = some m ∧ s.boot.repair = some (2, f) ∧ f < 12) ∧
    (∃ (m : Master) (s : State), On s ∧ owner (settle s) = some m ∧ s.boot.repair ≠ none) :=
  ⟨⟨sQueue, by decide +kernel⟩,
   ⟨.ha, sQueue, by decide +kernel⟩,
   ⟨11, sQueue, by decide +kernel⟩,
   ⟨sQueue, by decide +kernel⟩,
   ⟨[], { sQueue with clock := { locked := List.range 12 }, boot := { fabricReset := true } }, of_all
      (by decide +kernel), by decide +kernel⟩,
   ⟨.ha, 11, { sQueue with boot := { map := { fields := [(11, 5)], live := 0x7FF } } }, by decide +kernel⟩,
   ⟨.ha, 11, { sQueue with boot := { repair := some (2, 11), map := { fields := [(11, 6)], live := 0x7FF } } },
      by decide +kernel⟩,
   ⟨.ha, { sQueue with boot := { repair := some (1, 0) } }, by decide +kernel⟩⟩

/-- Each clause of BringUpSteps has a state and operands that meet its hypotheses. -/
theorem test_BringUpSteps_hypotheses :
    (∃ (s : State), On s ∧ mayStep s 2 [] = true) ∧
    (∃ (i : Nat) (s : State), On s ∧ s.nvm.slot = some i ∧ mayStep s 3 [2] = true) ∧
    (manifestFails (sSpring [2, 3, 4]) 0 = 0 → ∃ (f : FieldId) (i : Nat) (s : State), manifestFails s i = 0 ∧ On s ∧
      s.nvm.slot = some i ∧ fieldTried s f = true ∧ springing s = true ∧ stepDone s 4 = true ∧ f.val ∉
      s.boot.fcRunning ∧ f.val ∉ s.boot.fcFailed ∧ typeOk s i 2 = true) ∧
    (∃ (f : FieldId) (i : Nat) (s : State), On s ∧ s.nvm.slot = some i ∧ fieldTried s f = true ∧ springing s = true ∧
      stepDone s 4 = true ∧ f.val ∉ s.boot.fcRunning ∧ f.val ∉ s.boot.fcFailed ∧ typeOk s i 2 = false) ∧
    (quoteOk sQuote 0 aQuote = true → ∃ (f : FieldId) (q : List Byte) (s : State), quoteOk s f q = true ∧ On s ∧ f.val ∈
      s.boot.fcRunning) ∧
    (∃ (f : FieldId) (q : List Byte) (s : State), On s ∧ f.val ∈ s.boot.fcRunning ∧ quoteOk s f q = false) ∧
    (∃ (s : State), On s ∧ mayStep s 4 [3] = true ∧ (∀ f : FieldId, fieldTried s f = true → .field f ∈ s.power.up ∧ f.val
      ∈ s.clock.locked)) ∧
    (∃ (s : State) (a : List Int), On s ∧ mayStep s 5 [4] = true ∧ (∀ f ∈ triedFields s, f ∈ s.boot.fcRunning) ∧
      alignedOk s a = true) ∧
    (∃ (s : State) (a : List Int) (b : List Int) (c : List Int), On s ∧ mayStep s 5 [4] = true ∧ (∀ f ∈ triedFields s, f
      ∈ s.boot.fcRunning) ∧ alignedOk s a = false ∧ alignedOk s b = false ∧ alignedOk s c = false) ∧
    (∃ (s : State), On s ∧ mayStep s 7 [3] = true ∧ 6 ∈ s.boot.loaded) ∧
    (∃ (s : State), On s ∧ mayStep s 8 [3] = true ∧ 4 ∈ s.boot.loaded) ∧
    (∃ (s : State), On s ∧ mayStep s 9 [6] = true ∧ (∀ g ∈ clustersToTest s, get s (pwrClStat g) PwrClStat.state = 3 ∨
      get s (pwrClStat g) PwrClStat.state = 4)) ∧
    (∃ (s : State), On s ∧ mayStep s 10 [8] = true) ∧
    (∃ (s : State), On s ∧ springing s = true ∧ stepDone s 3 = false) ∧
    (∃ (s : State), On s ∧ springing s = true ∧ s.clock.crefLost = true) ∧
    (∃ (s : State), On s ∧ mayStep s 12 [9, 11] = true) :=
  ⟨⟨State.reset, by decide +kernel⟩,
   ⟨0, sSpring [2], by decide +kernel⟩,
   fun o0 => ⟨0, 0, sSpring [2, 3, 4], o0, by decide +kernel⟩,
   ⟨0, 0, { sSpring [2, 3, 4] with nvm := { slot := some 0, slotA := { shipped := false, cells := cellsAt 1536 (List.replicate 8 0) } } },
      by decide +kernel⟩,
   fun o0 => ⟨0, aQuote, sQuote, o0, by decide +kernel⟩,
   ⟨0, [], { sLive with boot := { fcRunning := [0] } }, by decide +kernel⟩,
   ⟨{ sSpring [2, 3] with power := { up := (List.finRange 12).map .field }, clock := { locked := List.range 12 } },
      by decide +kernel⟩,
   ⟨{ sSpring [2, 3, 4] with boot := { steps := [2, 3, 4], fcRunning := List.range 12 } }, [30, -30], by decide +kernel⟩,
   ⟨{ sSpring [2, 3, 4] with boot := { steps := [2, 3, 4], fcRunning := List.range 12 } }, [31], [-31], [0, 0, 0, 0, 0,
      0, 0, 0, 0, 0, 0, 0, 0, 0, 0, 0, 46], by decide +kernel⟩,
   ⟨{ sSpring [2, 3] with boot := { steps := [2, 3], loaded := [6] } }, by decide +kernel⟩,
   ⟨{ sSpring [2, 3] with boot := { steps := [2, 3], loaded := [4] } }, by decide +kernel⟩,
   ⟨allClusters 4 (sSpring [6]), by decide +kernel⟩,
   ⟨sSpring [8], by decide +kernel⟩,
   ⟨sSpring [2], by decide +kernel⟩,
   ⟨{ sSpring [2] with clock := { crefLost := true } }, by decide +kernel⟩,
   ⟨sSpring [9, 11], by decide +kernel⟩⟩

/-- Each clause of RemapsAndPromotions has a state and operands that meet its hypotheses. -/
theorem test_RemapsAndPromotions_hypotheses :
    (∃ (r : Remap) (s : State), On s ∧ s.boot.remap = some r ∧ r.step = .selecting ∧ (∀ e ∈ r.entries, get s (pwrClStat
      (siteCluster e.new)) PwrClStat.state = 3)) ∧
    (∃ (r : Remap) (s : State), On s ∧ s.boot.remap = some r ∧ r.step = .beginning ∧ r.id < 2 ^ 32 ∧ nvmOk s = true) ∧
    (∃ (r : Remap) (s : State), On s ∧ s.boot.remap = some r ∧ r.step = .copying ∧ trafficQuiet s = true) ∧
    (∃ (r : Remap) (s : State) (e : RemapEntry), Inv s ∧ On s ∧ s.boot.remap = some r ∧ r.step = .committing ∧
      trafficQuiet s = true ∧ r.entries = [e] ∧ e.tile < 768 ∧ e.old ≠ e.new ∧ e.cause ≠ 4) ∧
    (∃ (r : Remap) (s : State), On s ∧ s.boot.remap = some r ∧ r.step = .ending ∧ s.boot.remapQueue = [] ∧ nvmOk s = true) ∧
    (∃ (f : FieldId) (n : Nat) (l : List Nat) (s : State), On s ∧ s.boot.remap = none ∧ fieldLive s f = true ∧ (sitesWith
      s.boot.map f stStandby).length < 8 ∧ promotable s f = n :: l) ∧
    (∃ (b : Bool) (s : State), On s ∧ b2n b ∉ s.nvm.failed) :=
  ⟨⟨aRemap .selecting, upd (pwrClStat (siteCluster 64)) PwrClStat.state 3 (sRemap .selecting), by decide +kernel⟩,
   ⟨aRemap .beginning, sRemap .beginning, by decide +kernel⟩,
   ⟨aRemap .copying, sRemap .copying, by decide +kernel⟩,
   ⟨aRemap .committing, sRemap .committing, { tile := 0, old := 0, new := 64, cause := 1 }, ⟨by decide +kernel,
      by decide +kernel, by decide +kernel, by decide +kernel, by decide +kernel⟩, by decide +kernel⟩,
   ⟨aRemap .ending, sRemap .ending, by decide +kernel⟩,
   ⟨0, (promotable { sLive with boot := { map := { sites := [(64, 3)] } } } 0).headD 0, (promotable
      { sLive with boot := { map := { sites := [(64, 3)] } } } 0).tail,
      { sLive with boot := { map := { sites := [(64, 3)] } } }, by decide +kernel⟩,
   ⟨true, sLive, by decide +kernel⟩⟩

/-- Each clause of SecondFieldLoss has a state and operands that meet its hypotheses. -/
theorem test_SecondFieldLoss_hypotheses :
    (∃ (f : FieldId) (cause : Nat) (s : State), On s ∧ 1 ≤ cause ∧ cause ≤ 7 ∧ degraded s = true ∧ fieldLive s f = true) ∧
    (∃ (s : State), On s ∧ mayStep s 6 [5] = true ∧ (triedFields (loadMap (journalRecover s).1)).length ≤ 10) :=
  ⟨⟨11, 7, { sQueue with boot := { map := { live := 0xFFE } } }, by decide +kernel⟩,
   ⟨{ sSpring [5] with boot := { steps := [5], nvmMap := { live := 0x3FF } } }, by decide +kernel⟩⟩

/-- Each clause of ConfigurationStore has a state and operands that meet its hypotheses. -/
theorem test_ConfigurationStore_hypotheses :
    (∃ (h : Head) (src : Nat) (s : State), On s ∧ owner (settle s) = some (headMaster h) ∧ src < 2 ^ 34 ∧ inOwnRange
      (settle s) (headMaster h) (src * 4096) 1536 = true ∧ errsIn s (src * 4096) 1536 = [] ∧ rangeFailed s (src *
      4096) 1536 = false) ∧
    (∃ (h : Head) (src : Nat) (s : State), On s ∧ owner (settle s) = some (headMaster h) ∧ src < 2 ^ 34 ∧ inOwnRange
      (settle s) (headMaster h) (src * 4096) 8192 = true ∧ errsIn s (src * 4096) 8192 = [] ∧ rangeFailed s (src *
      4096) 8192 = false) ∧
    (∃ (h : Head) (src : Nat) (s : State), On s ∧ owner (settle s) = some (headMaster h) ∧ src < 2 ^ 34 ∧ inOwnRange
      (settle s) (headMaster h) (src * 4096) 8 = false) ∧
    (∃ (m : Master) (s : State) (op : _), On s ∧ owner (settle s) = some m ∧ 5 ≤ op % 8) :=
  ⟨⟨.ha, 5, sLive, by decide +kernel⟩,
   ⟨.ha, 5, sLive, by decide +kernel⟩,
   ⟨.ha, 2 ^ 34 - 1, sLive, by decide +kernel⟩,
   ⟨.ha, sLive, 7, by decide +kernel⟩⟩

/-- Each clause of FirmwareSlotsAndTrials has a state and operands that meet its hypotheses. -/
theorem test_FirmwareSlotsAndTrials_hypotheses :
    (∃ (m : Master) (s : State), On s ∧ owner (settle s) = some m ∧ fwSlotSt (settle s) (fwInactive s) = fsStaged ∧ nvmOk
      s = true) ∧
    (∃ (m : Master) (s : State), On s ∧ owner (settle s) = some m ∧ fwSlotSt (settle s) (fwInactive s) = fsArmed ∧ nvmOk
      s = true) ∧
    (∃ (m : Master) (s : State), On s ∧ owner (settle s) = some m ∧ onTrial s = true) ∧
    (∃ (m : Master) (s : State), On s ∧ owner (settle s) = some m ∧ (fwSlotSt (settle s) (fwInactive s) = fsEmpty ∨
      fwSlotSt (settle s) (fwInactive s) = fsStaged ∨ fwSlotSt (settle s) (fwInactive s) = fsInvalid)) ∧
    (∃ (m : Master) (s : State) (x : Upload), On s ∧ owner (settle s) = some m ∧ (settle s).nvm.upload = some x ∧ x.slot
      < 2) ∧
    (∃ (m : Master) (s : State), On s ∧ owner (settle s) = some m ∧ fwSlotSt (settle s) (fwInactive s) ≠ fsStaged) ∧
    (∃ (m : Master) (s : State), On s ∧ owner (settle s) = some m) ∧
    (∃ (s : State) (t : _), On s ∧ s.nvm.timer = some t ∧ t ≤ s.devtime) ∧
    (∃ (s : State), On s ∧ onTrial s = true ∧ nvmOk s = true ∧ s.nvm.firstRun = none ∧ s.boot.released + 20 * 60 *
      secTicks ≤ s.devtime) ∧
    (∃ (s : State) (t : _), On s ∧ onTrial s = true ∧ nvmOk s = true ∧ s.nvm.firstRun = some t ∧ t + trialSpan s * 60 *
      secTicks ≤ s.devtime) ∧
    (∃ (s : State), On s ∧ onTrial s = true ∧ nvmOk s = true ∧ healthy s = true ∧ heldLong s = true) :=
  ⟨⟨.ha, sSlots fsStaged, by decide +kernel⟩,
   ⟨.ha, sSlots fsArmed, by decide +kernel⟩,
   ⟨.ha, { sTrial {} with own := { expiry := 2000 * secTicks } }, by decide +kernel⟩,
   ⟨.ha, sSlots fsInvalid, by decide +kernel⟩,
   ⟨.ha, { sSlots fsReceiving with nvm := { upload := some { slot := 1, len := 1024 } } }, { slot := 1, len := 1024 },
      by decide +kernel⟩,
   ⟨.ha, sSlots fsEmpty, by decide +kernel⟩,
   ⟨.ha, sLive, by decide +kernel⟩,
   ⟨{ sLive with nvm := { timer := some 10 } }, 10, by decide +kernel⟩,
   ⟨sTrial {}, by decide +kernel⟩,
   ⟨{ sTrial { firstRun := some 10, bootRec := some { kind := 1, active := 0, seq := 1, time := 0, target := 1, trialMin := 10 } } with devtime := 1300 * secTicks },
      10, by decide +kernel⟩,
   ⟨{ upd (supResetStat) SupResetStat.fabricResets 0 (sTrial { runSince := some 10, bootRec := some { kind := 1, active := 0, seq := 1, time := 0, target := 1, trialMin := 10 } }) with boot := { fcRunning := List.range 12, loaded := [4, 5, 6, 7] } },
      by decide +kernel⟩⟩

/-- Each clause of ServiceSessions has a state and operands that meet its hypotheses. -/
theorem test_ServiceSessions_hypotheses :
    (∃ (nc : List Byte) (s : State), On s ∧ s.svc.key = none ∧ s.svc.deafUntil ≤ s.devtime ∧ (recentHello s).length < 4 ∧
      nc.length = 32) ∧
    (∃ (s : State) (key : List Byte), On s ∧ s.svc.key = some key ∧ s.devtime < s.svc.lastMsg + 30 * secTicks ∧
      s.svc.deafUntil ≤ s.devtime ∧ (recentHello s).length < 4) ∧
    (∃ (s : State), On s ∧ s.svc.key = none ∧ 4 ≤ (recentHello s).length) ∧
    (∃ (x : SvcHdr) (h : HalfOpen) (s : State) (k : List Byte) (n : _), On s ∧ s.svc.half = some h ∧ s.devtime < h.since
      + 5 * secTicks ∧ x.session = h.session ∧ svcKeyFor s k = some n) ∧
    (∃ (x : SvcHdr) (h : HalfOpen) (s : State) (k : List Byte), On s ∧ s.svc.half = some h ∧ s.devtime < h.since + 5 *
      secTicks ∧ x.session = h.session ∧ svcKeyFor s k = none) ∧
    (authSecret keyedHalf [9] [1] [2] = some (List.replicate 48 1) → ∃ (x : SvcHdr) (h : HalfOpen) (s : State) (n : _) (k
      : List Byte) (cipher : List Byte) (sig : List Byte) (secret : List Byte), authSecret h k cipher sig = some
      secret ∧ On s ∧ s.svc.half = some h ∧ s.devtime < h.since + 5 * secTicks ∧ x.session = h.session ∧ n < 4 ∧
      h.key = some (n, k)) ∧
    (authSecret keyedHalf [9] [1] [2] = none → ∃ (x : SvcHdr) (h : HalfOpen) (s : State) (n : _) (k : List Byte) (cipher
      : List Byte) (sig : List Byte), authSecret h k cipher sig = none ∧ On s ∧ s.svc.half = some h ∧ s.devtime <
      h.since + 5 * secTicks ∧ x.session = h.session ∧ h.key = some (n, k)) ∧
    (∃ (h : HalfOpen) (s : State), On s ∧ s.svc.half = some h ∧ h.since + 5 * secTicks ≤ s.devtime) ∧
    (∃ (key : List Byte) (x : SvcMsg) (s : State), SvcValid 0x05 key x s ∧ On s ∧ x.payload = []) ∧
    (∃ (key : List Byte) (x : SvcMsg) (s : State), On s ∧ s.svc.key = some key ∧ s.devtime < s.svc.lastMsg + 30 *
      secTicks ∧ x.mac ≠ svcMac key (svcHeader 0x05 x.session x.seq x.payload.length 0 false) x.payload) ∧
    (∃ (key : List Byte) (x : SvcMsg) (s : State), SvcValid 0x04 key x s ∧ On s ∧ x.payload = []) ∧
    (∃ (key : List Byte) (x : SvcMsg) (s : State), SvcValid 0x61 key x s ∧ On s ∧ x.payload.length = 4) ∧
    (∃ (key : List Byte) (s : State), On s ∧ s.svc.key = some key ∧ s.svc.lastMsg + 30 * secTicks ≤ s.devtime) ∧
    (∃ (q : Nat) (e : SvcEvent) (s : State), On s ∧ (s.svc.events.find? fun x => x.seq == q) = some e ∧ e.sent + secTicks
      ≤ s.devtime) ∧
    (∃ (s : State), On s) :=
  ⟨⟨List.replicate 32 1, sLive, by decide +kernel⟩,
   ⟨sSession, [1, 2, 3], by decide +kernel⟩,
   ⟨{ sLive with svc := { helloAt := [1, 2, 3, 4] } }, by decide +kernel⟩,
   ⟨{ session := 6, seq := 1 }, aHalf, sKeys, [9], 1, by decide +kernel⟩,
   ⟨{ session := 6, seq := 1 }, aHalf, sHalf aHalf, [9], by decide +kernel⟩,
   fun o0 => ⟨{ session := 6, seq := 1 }, keyedHalf, sHalf keyedHalf, 3, [9], [1], [2], List.replicate 48 1, o0,
      by decide +kernel⟩,
   fun o0 => ⟨{ session := 6, seq := 1 }, keyedHalf, sHalf keyedHalf, 3, [9], [1], [2], o0, by decide +kernel⟩,
   ⟨{ aHalf with since := 0 }, { sHalf { aHalf with since := 0 } with devtime := 5 * secTicks }, by decide +kernel⟩,
   ⟨[1, 2, 3], aMsg 5 [], sSession, aMsg_valid (by decide +kernel), by decide +kernel⟩,
   ⟨[1, 2, 3], aMsg 4 [], sSession, by decide +kernel⟩,
   ⟨[1, 2, 3], aMsg 4 [], sSession, aMsg_valid (by decide +kernel), by decide +kernel⟩,
   ⟨[1, 2, 3], aMsg 0x61 [1, 0, 0, 0], { sSession with svc := { sSession.svc with events := [{ seq := 1, kind := .ownerChange, time := 3, sent := 3 }, { seq := 2, kind := .ownerChange, time := 3, sent := 3 }] } },
      aMsg_valid (by decide +kernel), by decide +kernel⟩,
   ⟨[1, 2, 3], { sSession with devtime := 4000000 + 30 * secTicks }, by decide +kernel⟩,
   ⟨1, { seq := 1, kind := .ownerChange, time := 3, sent := 3 },
      { sSession with svc := { sSession.svc with events := [{ seq := 1, kind := .ownerChange, time := 3, sent := 3 }] }, devtime := 3 + secTicks },
      by decide +kernel⟩,
   ⟨sLive, by decide +kernel⟩⟩

/-- Each clause of ServiceRequests has a state and operands that meet its hypotheses. -/
theorem test_ServiceRequests_hypotheses :
    (∃ (key : List Byte) (x : SvcMsg) (s : State), SvcValid 0x10 key x s ∧ On s ∧ x.payload.length = 5 ∧ bits (fromBytes
      x.payload) 27 8 = 1 ∧ bit1 (fromBytes x.payload) 26 = false ∧ bits (fromBytes x.payload) 0 26 + 4 ≤ 2 ^ 26) ∧
    (∃ (key : List Byte) (x : SvcMsg) (s : State), SvcValid 0x11 key x s ∧ On s ∧ x.payload.length = 8 ∧ bit1 (fieldAt
      x.payload 0 4) 26 = false) ∧
    (∃ (key : List Byte) (x : SvcMsg) (s : State), SvcValid 0x50 key x s ∧ On s ∧ x.payload.length = 7 ∧ 1 ≤ fieldAt
      x.payload 4 2 ∧ fieldAt x.payload 4 2 ≤ 36) ∧
    (∃ (key : List Byte) (x : SvcMsg) (s : State), SvcValid 0x20 key x s ∧ On s ∧ owner (settle s) ≠ some .svc) ∧
    (∃ (key : List Byte) (x : SvcMsg) (s : State), SvcValid 0x30 key x s ∧ On s ∧ owner (settle s) ≠ some .svc) ∧
    (∃ (key : List Byte) (x : SvcMsg) (s : State), SvcValid 0x31 key x s ∧ On s ∧ owner (settle s) ≠ some .svc) ∧
    (∃ (key : List Byte) (x : SvcMsg) (s : State), SvcValid 0x20 key x s ∧ On s ∧ owner (settle s) = some .svc ∧ fieldAt
      x.payload 0 4 = 0 ∧ 5 ≤ x.payload.length ∧ x.payload.length ≤ 1028) ∧
    (∃ (key : List Byte) (x : SvcMsg) (s : State), SvcValid 0x21 key x s ∧ On s ∧ owner (settle s) = some .svc ∧ fieldAt
      x.payload 0 4 = 0 ∧ 5 ≤ x.payload.length ∧ x.payload.length ≤ 1028 ∧ blobComplete (x.payload.drop 4) = false) ∧
    (∃ (key : List Byte) (x : SvcMsg) (s : State), SvcValid 0x21 key x s ∧ On s ∧ owner (settle s) = some .svc ∧ fieldAt
      x.payload 0 4 = 0 ∧ 5 ≤ x.payload.length ∧ x.payload.length ≤ 1028 ∧ blobComplete (x.payload.drop 4) = true) ∧
    (∃ (key : List Byte) (x : SvcMsg) (s : State) (b : Byte), SvcValid 0x22 key x s ∧ On s ∧ owner (settle s) = some .svc
      ∧ x.payload = [b] ∧ b.toNat ≤ 1) ∧
    (∃ (key : List Byte) (x : SvcMsg) (s : State), SvcValid 0x30 key x s ∧ On s ∧ owner (settle s) = some .svc ∧
      x.payload.length = 4 ∧ get s nvmUpdCtrl NvmUpdCtrl.permit = 1 ∧ s.nvm.upload = none ∧ (fwSlotSt s (fwInactive
      s) = fsEmpty ∨ fwSlotSt s (fwInactive s) = fsStaged ∨ fwSlotSt s (fwInactive s) = fsInvalid) ∧ fieldAt
      x.payload 0 4 % 1024 = 0 ∧ fieldAt x.payload 0 4 ≤ slotSizeMax) ∧
    (∃ (key : List Byte) (x : SvcMsg) (s : State) (p : Upload) (off : _), SvcValid 0x31 key x s ∧ On s ∧ owner (settle s)
      = some .svc ∧ s.nvm.upload = some p ∧ p.slot < 2 ∧ x.payload.length = 1032 ∧ off = fieldAt x.payload 0 8 ∧ off
      % 1024 = 0 ∧ off + 1024 ≤ p.len ∧ off + 1024 ≤ p.erased ∧ p.erased ≤ slotSizeMax ∧ off / 1024 ∉ p.written ∧
      (fwSlot s p.slot).shipped = false) ∧
    (∃ (key : List Byte) (x : SvcMsg) (s : State) (p : Upload), SvcValid 0x32 key x s ∧ On s ∧ owner (settle s) = some
      .svc ∧ s.nvm.upload = some p ∧ p.slot < 2 ∧ x.payload = []) ∧
    (∃ (key : List Byte) (x : SvcMsg) (s : State) (p : Upload), SvcValid 0x33 key x s ∧ On s ∧ owner (settle s) = some
      .svc ∧ s.nvm.upload = some p ∧ p.slot < 2 ∧ x.payload = []) :=
  ⟨⟨[1, 2, 3], aMsg 0x10 (toBytes 5 (ownStat + 2 ^ 27)), sSession, aMsg_valid (by decide +kernel), by decide +kernel⟩,
   ⟨[1, 2, 3], aMsg 0x11 (toBytes 4 pwrLimit ++ toBytes 4 7), sSession, aMsg_valid (by decide +kernel),
      by decide +kernel⟩,
   ⟨[1, 2, 3], aMsg 0x50 (toBytes 4 0 ++ toBytes 2 36 ++ [0]), { sSession with log := { held := [infoEntry] } },
      aMsg_valid (by decide +kernel), by decide +kernel⟩,
   ⟨[1, 2, 3], aMsg 0x20 [], sNotOwner, aMsg_valid (by decide +kernel), by decide +kernel⟩,
   ⟨[1, 2, 3], aMsg 0x30 [], sNotOwner, aMsg_valid (by decide +kernel), by decide +kernel⟩,
   ⟨[1, 2, 3], aMsg 0x31 [], sNotOwner, aMsg_valid (by decide +kernel), by decide +kernel⟩,
   ⟨[1, 2, 3], aMsg 0x20 (toBytes 4 0 ++ [5]), sSession, aMsg_valid (by decide +kernel), by decide +kernel⟩,
   ⟨[1, 2, 3], aMsg 0x21 (toBytes 4 0 ++ [5]), sSession, aMsg_valid (by decide +kernel), by decide +kernel⟩,
   ⟨[1, 2, 3], aMsg 0x21 (toBytes 4 0 ++ toBytes 4 1 ++ toBytes 4 0 ++ [7]), sSession, aMsg_valid (by decide +kernel),
      by decide +kernel⟩,
   ⟨[1, 2, 3], aMsg 0x22 [1], sSession, 1, aMsg_valid (by decide +kernel), by decide +kernel⟩,
   ⟨[1, 2, 3], aMsg 0x30 (toBytes 4 slotSizeMax), upd nvmUpdCtrl NvmUpdCtrl.permit 1 sSession, aMsg_valid
      (by decide +kernel), by decide +kernel⟩,
   ⟨[1, 2, 3], programMsg, sUpload { shipped := false }, anUpload, 3072, aMsg_valid (by decide +kernel),
      by decide +kernel⟩,
   ⟨[1, 2, 3], aMsg 0x32 [], sUpload { shipped := false }, anUpload, aMsg_valid (by decide +kernel), by decide +kernel⟩,
   ⟨[1, 2, 3], aMsg 0x33 [], sUpload { shipped := false }, anUpload, aMsg_valid (by decide +kernel), by decide +kernel⟩⟩

/-- Each clause of AttestationAndTray has a state and operands that meet its hypotheses. -/
theorem test_AttestationAndTray_hypotheses :
    (∃ (tr : Transport) (x : SpdmReq) (s : State), SpdmReaches tr s ∧ On s ∧ x.version ≠ 0x12) ∧
    (deviceKeyOk = true → ∃ (tr : Transport) (x : SpdmReq) (s : State), SpdmReaches tr s ∧ deviceKeyOk = true ∧ On s ∧
      x.version = 0x12 ∧ x.param1 % 16 = 0) ∧
    (deviceKeyOk = true → ∃ (tr : Transport) (x : SpdmReq) (s : State), SpdmReaches tr s ∧ deviceKeyOk = true ∧ On s ∧
      x.version = 0x12 ∧ x.param1 = 0 ∧ (x.param2 = 0 ∨ x.param2 = 1 ∨ x.param2 = 0xFF)) ∧
    (deviceKeyOk = false → ∃ (tr : Transport) (x : SpdmReq) (s : State), SpdmReaches tr s ∧ deviceKeyOk = false ∧ On s ∧
      x.version = 0x12) ∧
    (deviceKeyOk = true → ∃ (tr : Transport) (x : SpdmReq) (i : Nat) (s : State), SpdmReaches tr s ∧ deviceKeyOk = true ∧
      On s ∧ x.version = 0x12 ∧ i = 0) ∧
    (∃ (tr : Transport) (x : SpdmReq) (i : Nat) (s : State), SpdmReaches tr s ∧ On s ∧ x.version = 0x12 ∧ measRecord
      ((spdmConn tr s).snap.getD (snapshot s)) i = none) ∧
    (∃ (s : State), On s ∧ s.i3c.dyn = none) ∧
    (∃ (s : State), On s ∧ s.i3c.dyn ≠ none) ∧
    (∃ (bs : List Byte) (s : State), On s ∧ bs.length = 4) ∧
    (∃ (bs : List Byte) (s : State), On s ∧ bs.length ≠ 4) ∧
    (∃ (s : State), On s ∧ s.i3c.readOff = none) ∧
    (∃ (s : State) (off : _), On s ∧ s.i3c.readOff = some off) ∧
    (∃ (s : State) (b : _), (∀ t, s.i3c.lastIbi = some t → t + 10 * msTicks ≤ s.devtime) ∧ On s ∧ s.i3c.ibi = some b) :=
  ⟨⟨.doe .ha, spdmReq 0x10 0 0, sLive, reaches_doe (by decide +kernel), by decide +kernel⟩,
   fun o0 => ⟨.svc, spdmReq 0x12 0 0, sLive, reaches_svc, o0, by decide +kernel⟩,
   fun o0 => ⟨.doe .ha, spdmReq 0x12 0 0xFF, sLive, reaches_doe (by decide +kernel), o0, by decide +kernel⟩,
   fun o0 => ⟨.doe .hb, spdmReq 0x12 0 0, sLive, reaches_doe (by decide +kernel), o0, by decide +kernel⟩,
   fun o0 => ⟨.doe .ha, spdmReq 0x12 0 0, 0, sLive, reaches_doe (by decide +kernel), o0, by decide +kernel⟩,
   ⟨.doe .ha, spdmReq 0x12 0 0, 15, sLive, reaches_doe (by decide +kernel), by decide +kernel⟩,
   ⟨sLive, by decide +kernel⟩,
   ⟨{ sLive with i3c := { dyn := some 3 } }, by decide +kernel⟩,
   ⟨[0, 0x10, 0, 0], sLive, by decide +kernel⟩,
   ⟨[0, 0x10, 0], sLive, by decide +kernel⟩,
   ⟨sLive, by decide +kernel⟩,
   ⟨{ sLive with i3c := { readOff := some ownStat } }, ownStat, by decide +kernel⟩,
   ⟨{ sLive with i3c := { ibi := some 7 } }, 7, of_all (by decide +kernel), by decide +kernel⟩⟩

end Sys2Proof.Tests
end

section
/-! The register map, read off its descriptors: the alignment of every register, and which descriptor an array's
registers have (R17, R530). -/

namespace Sys2Proof.Machine

open Sys2Proof

theorem regAt_some {off : Nat} {d : RegDesc} (h : regAt off = some d) : d ∈ regsNear off ∧ d.covers off = true :=
  ⟨List.mem_of_find?_eq_some h, by simpa using List.find?_some h⟩

theorem RegDesc.covers_iff (d : RegDesc) (off : Nat) : d.covers off = true ↔ d.base ≤ off ∧
    (off - d.base) / d.s1 < d.c1 ∧ (off - d.base) % d.s1 / d.s2 < d.c2 ∧ (off - d.base) % d.s1 % d.s2 = 0 := by
  simp [RegDesc.covers, and_assoc]

/-- The descriptor of a register, given those that stand before its own in the region's list. -/
theorem regAt_eq {off : Nat} {d : RegDesc} {pre post : List RegDesc} (hl : regsNear off = pre ++ d :: post)
    (hd : d.covers off = true) (hp : ∀ e ∈ pre, ¬ e.covers off = true) : regAt off = some d :=
  List.find?_eq_some_iff_append.mpr ⟨hd, pre, post, hl, fun e he => by simp [hp e he]⟩

/-- Where a descriptor's base and strides are multiples of `n`, every register it covers stands at a multiple of `n`. -/
theorem RegDesc.dvd_of_covers {d : RegDesc} {off n : Nat} (h : d.covers off = true) (hb : n ∣ d.base) (h1 : n ∣ d.s1)
    (h2 : n ∣ d.s2) : n ∣ off := by
  obtain ⟨hle, -, -, hz⟩ := (d.covers_iff off).mp h
  have hr : n ∣ (off - d.base) % d.s1 := Nat.dvd_trans h2 (Nat.dvd_of_mod_eq_zero hz)
  have hd : n ∣ off - d.base := (Nat.dvd_mod_iff h1).mp hr
  exact (Nat.dvd_sub_iff_left hle hb).mp hd

/-- A descriptor of 32-bit registers, or of 64-bit registers at multiples of 8. -/
def RegDesc.aligned (d : RegDesc) : Bool :=
  (d.width == 32 && (d.base % 4 == 0 && (d.s1 % 4 == 0 && d.s2 % 4 == 0))) ||
    (d.width == 64 && (d.base % 8 == 0 && (d.s1 % 8 == 0 && d.s2 % 8 == 0)))

theorem RegDesc.aligned_covers {d : RegDesc} {off : Nat} (ha : d.aligned = true) (hc : d.covers off = true) :
    (d.width = 32 ∧ off % 4 = 0) ∨ (d.width = 64 ∧ off % 8 = 0) := by
  simp only [RegDesc.aligned, Bool.or_eq_true, Bool.and_eq_true, beq_iff_eq] at ha
  refine ha.imp ?_ ?_ <;>
  · rintro ⟨hw, hb, h1, h2⟩
    exact ⟨hw, Nat.mod_eq_zero_of_dvd (RegDesc.dvd_of_covers hc (Nat.dvd_of_mod_eq_zero hb)
      (Nat.dvd_of_mod_eq_zero h1) (Nat.dvd_of_mod_eq_zero h2))⟩

theorem regsNear_aligned {off : Nat} {d : RegDesc} (h : d ∈ regsNear off) : d.aligned = true := by
  have all : ∀ e ∈ deviceRegs ++ (arrayRegs ++ (headRegs ++ tileRegs)), e.aligned = true := by decide
  refine all d ?_
  unfold regsNear at h
  simp only [List.mem_append]
  split at h
  · exact .inl h
  · split at h
    · exact .inr (.inl h)
    · split at h
      · exact .inr (.inr (.inl h))
      · exact .inr (.inr (.inr h))

/-- Every register is 32 bits wide at a multiple of 4, or 64 bits wide at a multiple of 8 (R17). -/
theorem regAt_aligned {off : Nat} {d : RegDesc} (h : regAt off = some d) :
    (d.width = 32 ∧ off % 4 = 0) ∨ (d.width = 64 ∧ off % 8 = 0) :=
  RegDesc.aligned_covers (regsNear_aligned (regAt_some h).1) (regAt_some h).2

/-- The descriptor of the MSI-X addresses (R544). -/
def msixAddrDesc : RegDesc := ⟨0x802000, 0x40000, 2, 16, 65, 64, .head, 0xffffffffffffffff, 0, 0, 0, 0, 0x0⟩

theorem regsNear_head {off : Nat} (h1 : 0x800000 ≤ off) (h2 : off < 0x1000000) : regsNear off = headRegs := by
  rw [regsNear, if_neg (by omega), if_neg (by omega), if_pos h2]

theorem regAt_msixAddr (h : Head) {k : Nat} (hk : k < 65) : regAt (msixAddr (hnum h) k) = some msixAddrDesc := by
  refine regAt_eq (pre := headRegs.take 9) (post := headRegs.drop 10) ?_ ?_ ?_
  · exact regsNear_head (by unfold msixAddr; omega) (by cases h <;> simp only [msixAddr, hnum] <;> omega)
  · rw [RegDesc.covers_iff]
    cases h <;> simp only [msixAddrDesc, msixAddr, hnum] <;> omega
  · simp only [headRegs, List.take_succ_cons, List.take_zero, List.forall_mem_cons, List.not_mem_nil, false_imp_iff,
      implies_true, and_true, RegDesc.covers_iff]
    cases h <;> simp only [msixAddr, hnum] <;> omega

theorem regAt_supSeasonCmd :
    regAt supSeasonCmd = some ⟨0x8, 0x8, 1, 8, 1, 64, .sup, 0, 0, 0, 0x3ffffffff01f, 0, 0x0⟩ := by decide

theorem regAt_nvmCfgCmd :
    regAt nvmCfgCmd = some ⟨0x8020, 0x8, 1, 8, 1, 64, .sup, 0, 0, 0, 0x3ffffffff007, 0, 0x0⟩ := by decide

/-- A register of the supervisor's domain takes writes whatever is switched off (R537). -/
theorem regOff_sup {s : State} {off : Nat} {d : RegDesc} (h : regAt off = some d) (hg : d.group = .sup) :
    regOff s off = false := by simp [regOff, h, hg]

theorem regOff_head {s : State} {off : Nat} {d : RegDesc} (h : regAt off = some d) (hg : d.group = .head) :
    regOff s off = headOff s ((off - 0x800000) / 0x40000) := by simp [regOff, h, hg]

end Sys2Proof.Machine
end

section
/-! The held entries of the error log: an event that is entered stands in the log afterwards, as an entry of its own or
folded into an earlier one, unless the ring is full (R519-R522). -/

namespace Sys2Proof.Machine

open Sys2Proof

@[simp] theorem signalVector_log (h v : Nat) (s : State) : (signalVector h v s).log = s.log := by
  unfold signalVector
  split <;> rfl

@[simp] theorem raiseEvent_log (h b : Nat) (s : State) : (raiseEvent h b s).log = s.log := by
  unfold raiseEvent
  dsimp only
  split
  · rfl
  · split <;> simp

@[simp] theorem raiseBoth_log (b : Nat) (s : State) : (raiseBoth b s).log = s.log := by simp [raiseBoth]

@[simp] theorem svcEvent_log (k : SvcEventKind) (s : State) : (svcEvent k s).log = s.log := by
  unfold svcEvent
  split
  · rfl
  · split <;> rfl

/-- Reporting an entry to the hosts holds no further one. -/
@[simp] theorem logReport_held (x : LogEntry) (s : State) : (logReport x s).log.held = s.log.held := by
  unfold logReport
  dsimp only
  split <;> simp [cxlAppend]

theorem logEvent_held_of_fold {e : LogEv} {s : State} {l : List LogEntry} (h : foldIn s.devtime e s.log.held = some l) :
    (logEvent e s).log.held = l := by simp [logEvent, h]

/-- The entry that an event makes when none takes it in. -/
def newEntry (e : LogEv) (s : State) : LogEntry :=
  logEntryOf e (get s ledLogStat LedLogStat.nextSeq) s.devtime
    (decide (max 1 (min 5 (get s ledLogCtrl LedLogCtrl.hostMin)) ≤ e.sev))

theorem logEvent_held_of_new {e : LogEv} {s : State} (h : foldIn s.devtime e s.log.held = none) :
    (logEvent e s).log.held = (logPlace (newEntry e s) s.log.held).1 := by
  have keep : ∀ {c : Prop} [Decidable c] {t u : State}, u.log.held = t.log.held →
      (if c then u else t).log.held = t.log.held := by
    intro c _ t u h
    split
    · exact h
    · rfl
  unfold logEvent
  rw [h]
  dsimp only
  refine (keep ?_).trans ((keep ?_).trans ((keep ?_).trans ?_))
  · rfl
  · exact logReport_held _ _
  · rfl
  · rfl

theorem logPlace_of_room {x : LogEntry} {l : List LogEntry} (h : l.length < logRing) : (logPlace x l).1 = l ++ [x] := by
  simp [logPlace, h]

/-- An entry is about an event: the same BLOCK, KIND, SOURCE, CODE and OBJECT (R520). -/
structure LogEntry.About (x : LogEntry) (e : LogEv) : Prop where
  block : x.block = e.block
  kind : x.kind = e.kind
  source : x.source = e.source
  code : x.code = e.code % 65536
  object : x.object = e.object

theorem about_of_foldsInto {now : Nat} {e : LogEv} {x : LogEntry} (h : foldsInto now e x = true) : x.About e := by
  simp only [foldsInto, Bool.and_eq_true, beq_iff_eq] at h
  obtain ⟨-, -, ho, hb, hk, hs, hc⟩ := h
  exact ⟨hb, hk, hs, hc, ho⟩

theorem foldIn_about {now : Nat} {e : LogEv} {l l' : List LogEntry} (h : foldIn now e l = some l') :
    ∃ x ∈ l', x.About e := by
  induction l generalizing l' with
  | nil => simp [foldIn] at h
  | cons y r ih =>
    simp only [foldIn] at h
    split at h
    · rename_i hy
      obtain ⟨hb, hk, hs, hc, ho⟩ := about_of_foldsInto hy
      cases h
      exact ⟨_, List.mem_cons_self, hb, hk, hs, hc, ho⟩
    · obtain ⟨r', hr, rfl⟩ := Option.map_eq_some_iff.mp h
      obtain ⟨x, hx, ha⟩ := ih hr
      exact ⟨x, List.mem_cons_of_mem _ hx, ha⟩

/-- An event entered in a log with room is one that a held entry is about. -/
theorem logEvent_about (e : LogEv) {s : State} (room : s.log.held.length < logRing) :
    ∃ x ∈ (logEvent e s).log.held, x.About e := by
  cases hf : foldIn s.devtime e s.log.held with
  | some l =>
    rw [logEvent_held_of_fold hf]
    exact foldIn_about hf
  | none =>
    rw [logEvent_held_of_new hf, logPlace_of_room room]
    exact ⟨newEntry e s, by simp, rfl, rfl, rfl, rfl, rfl⟩

theorem logAccess_reports (code : Nat) (m : Master) (off width : Nat) (write : Bool) (s : State) :
    Reports s (logAccess code m off width write s) := logEvent_reports _ _

/-- An access error entered in a log with room is held there, with its code and master (R568). -/
theorem logAccess_held {code : Nat} (hc : code < 65536) (m : Master) (off width : Nat) (write : Bool) {s : State}
    (room : s.log.held.length < logRing) :
    ∃ x ∈ (logAccess code m off width write s).log.held, x.kind = kAccess ∧ x.code = code ∧ x.object = mcode m := by
  obtain ⟨x, hx, -, hk, -, hcode, ho⟩ := logEvent_about
    ⟨sevNotice, kAccess, blockOf off, 0x690, code, mcode m, accDetail off width write⟩ room
  exact ⟨x, hx, hk, hcode.trans (Nat.mod_eq_of_lt hc), ho⟩

theorem Reports.answer {s u : State} (h : Reports s u) (a : Answer) :
    Reports { s with answer := a } (Machine.answer a u) := by
  obtain ⟨hr, hu⟩ := h
  refine ⟨hr, ?_⟩
  rw [hu]
  rfl

end Sys2Proof.Machine
end

section
/-! Settling the ownership before a write is judged (R326) touches the registers, the reports, the lease and a running
upload, nothing else. -/

namespace Sys2Proof.Machine

open Sys2Proof

/-- The second state differs from the first at most in what a change of ownership touches. -/
def OwnFrame (s u : State) : Prop :=
  u = { s with regs := u.regs, log := u.log, svc := u.svc, i3c := u.i3c, host := u.host, own := u.own,
               nvm := { s.nvm with upload := u.nvm.upload } }

theorem OwnFrame.trans {s t u : State} (h : OwnFrame s t) (k : OwnFrame t u) : OwnFrame s u := by
  unfold OwnFrame at *
  rw [k, h]

theorem Reports.ownFrame {s u : State} (h : Reports s u) : OwnFrame s u := by
  unfold OwnFrame
  rw [h.2]

theorem put_ownFrame (off : Nat) (v : Reg) (s : State) : OwnFrame s (put off v s) := rfl

theorem upd_ownFrame (off : Nat) (f : Fld) (x : Nat) (s : State) : OwnFrame s (upd off f x s) := put_ownFrame _ _ _

theorem satAdd_ownFrame (off : Nat) (f : Fld) (x : Nat) (s : State) : OwnFrame s (satAdd off f x s) := put_ownFrame _ _ _

theorem own_ownFrame (o : OwnState) (s : State) : OwnFrame s { s with own := o } := rfl

theorem upload_ownFrame (u : Option Upload) (s : State) : OwnFrame s { s with nvm := { s.nvm with upload := u } } := rfl

theorem raiseBoth_ownFrame (b : Nat) (s : State) : OwnFrame s (raiseBoth b s) := (raiseBoth_reports b s).ownFrame

theorem setFwSlot_ownFrame (i st r : Nat) (s : State) : OwnFrame s (setFwSlot i st r s) :=
  (upd_ownFrame _ _ _ s).trans (upd_ownFrame _ _ _ _)

theorem endUpload_ownFrame (r : Nat) (s : State) : OwnFrame s (endUpload r s) := by
  unfold endUpload
  split
  · exact (Reports.refl s).ownFrame
  · exact (upload_ownFrame none s).trans ((setFwSlot_ownFrame _ _ _ _).trans
      ((upd_ownFrame _ _ _ _).trans (logCoded_reports _ _ _ _ _ _ _ _).ownFrame))

theorem clearPermit_ownFrame (s : State) : OwnFrame s (clearPermit s) :=
  (upd_ownFrame _ _ _ s).trans (endUpload_ownFrame _ _)

theorem announceOwner_ownFrame (s : State) : OwnFrame s (announceOwner s) :=
  (raiseBoth_ownFrame _ s).trans ((svcEvent_reports _ _).ownFrame.trans
    ((logOpen_reports _ _ _ _ _ _ _).ownFrame.trans (clearPermit_ownFrame _)))

theorem reportOwner_ownFrame (s : State) : OwnFrame s (reportOwner s) :=
  (satAdd_ownFrame _ _ _ s).trans (announceOwner_ownFrame _)

theorem openWindow_ownFrame (s : State) : OwnFrame s (openWindow s) := by
  unfold openWindow
  dsimp only
  split
  · exact (Reports.refl s).ownFrame
  · exact (own_ownFrame _ s).trans ((upd_ownFrame _ _ _ _).trans
      ((upd_ownFrame _ _ _ _).trans (raiseBoth_ownFrame _ _)))

theorem closeWindow_ownFrame (s : State) : OwnFrame s (closeWindow s) := by
  unfold closeWindow
  split
  · exact (upd_ownFrame _ _ _ s).trans ((upd_ownFrame _ _ _ _).trans (raiseBoth_ownFrame _ _))
  · exact (Reports.refl s).ownFrame

theorem endOwner_ownFrame (s : State) : OwnFrame s (endOwner s) :=
  (upd_ownFrame _ _ _ s).trans ((openWindow_ownFrame _).trans (reportOwner_ownFrame _))

theorem lapse_ownFrame (s : State) : OwnFrame s (lapse s) := by
  unfold lapse
  split
  · exact endOwner_ownFrame s
  · exact (Reports.refl s).ownFrame

theorem windowDue_ownFrame (s : State) : OwnFrame s (windowDue s) := by
  unfold windowDue
  split
  · exact closeWindow_ownFrame s
  · exact (Reports.refl s).ownFrame

theorem settle_ownFrame (s : State) : OwnFrame s (settle s) := (lapse_ownFrame s).trans (windowDue_ownFrame _)

@[simp] theorem settle_req (s : State) : (settle s).req = s.req := by rw [settle_ownFrame s]

end Sys2Proof.Machine
end

section
/-! Writes of registers: how a write over the bus is judged (R17-R19, R532, R536, R537), case by case, and what the
registers of the statements do with one. -/

namespace Sys2Proof.Machine

open Sys2Proof

/-! ### Judgment by ownership -/

/-- Device firmware is never the owner: OWN_STAT has no code for it. -/
theorem owner_ne_fw (s : State) : owner s ≠ some .fw := by
  unfold owner
  split <;> simp

theorem asOwner_owner {m : Master} {s : State} (h : owner (settle s) = some m) (off width : Nat) (f : State → State) :
    asOwner m off width f s = f (settle s) := by simp [asOwner, isOwner, h]

theorem asOwner_other {m : Master} {s : State} (h : owner (settle s) ≠ some m) (off width : Nat) (f : State → State) :
    asOwner m off width f s = denied m off width (settle s) := by simp [asOwner, isOwner, h]

/-! ### One write over the bus -/

/-- A single write has no others to be ordered with. -/
theorem writeOrder_singleton (s : State) (w : RegWrite) : writeOrder s [w] = [w] := by
  obtain ⟨m, off, width, v⟩ := w
  have hfw := owner_ne_fw (settle s)
  unfold writeOrder
  generalize owner (settle s) = o at hfw ⊢
  cases o with
  | none => cases m <;> rfl
  | some o =>
    cases o with
    | fw => exact absurd rfl hfw
    | ha | hb | svc => cases m <;> rfl

theorem completes_registerWrite {P : State → Prop} {s : State} (on : On s) {m : Master} {off width v : Nat}
    (h : P (answer .done (busWrite m off width v s))) : Completes (.registerWrite [⟨m, off, width, v⟩]) s P := by
  refine ⟨_, rfl, ?_⟩
  rw [powered_on on, writeOrder_singleton]
  exact h

theorem busWrite_32 {off : Nat} (h : off % 4 = 0) (m : Master) (v : Nat) (s : State) :
    busWrite m off 32 v s = write32 m off v s := by simp [busWrite, admitted, h]

/-- A 64-bit write of a 64-bit register writes all of it. -/
theorem busWrite_64 {off : Nat} {d : RegDesc} (hr : regAt off = some d) (hw : d.width = 64) (m : Master) (v : Nat)
    (s : State) : busWrite m off 64 v s =
      regWrite m d ⟨off, off, 64, BitVec.ofNat 64 v, BitVec.ofNat 64 v⟩ (BitVec.allOnes 64) s := by
  have h8 : off % 8 = 0 := by
    rcases regAt_aligned hr with ⟨h, -⟩ | ⟨-, h⟩
    · omega
    · exact h
  have hm : lowMask ||| highMask = BitVec.allOnes 64 := by decide
  simp [busWrite, admitted, h8, hr, hw, hm]

theorem write32_at {off : Nat} {d : RegDesc} (hc : inCxlBlock off = false) (hr : regAt off = some d) (m : Master)
    (v : Nat) (s : State) : write32 m off v s =
      regWrite m d ⟨off, off, 32, BitVec.ofNat 64 (v % 2 ^ 32), BitVec.ofNat 64 (v % 2 ^ 32)⟩ lowMask s := by
  simp [write32, hc, hr]

theorem write32_upper {off : Nat} {d : RegDesc} (hc : inCxlBlock (off + 4) = false) (hn : regAt (off + 4) = none)
    (hr : regAt off = some d) (hw : d.width = 64) (m : Master) (v : Nat) (s : State) : write32 m (off + 4) v s =
      regWrite m d ⟨off, off + 4, 32, BitVec.ofNat 64 (v % 2 ^ 32 * 2 ^ 32), BitVec.ofNat 64 (v % 2 ^ 32 * 2 ^ 32)⟩
        highMask s := by
  simp [write32, hc, hn, hr, hw]

/-! ### The cases of a register write -/

/-- The bits of a register that a write through a mask can reach. -/
def writableBits (d : RegDesc) (mask : Reg) : Reg := BitVec.ofNat 64 (d.rw ||| d.rw1c ||| d.wo ||| d.rwo) &&& mask

/-- A register's contents with the bits of a mask taken from a value. -/
def mergeBits (mask old new : Reg) : Reg := (old &&& ~~~mask) ||| (new &&& mask)

/-- A store of which only the bits of a mask act. -/
def Store.within (x : Store) (mask : Reg) (s : State) : Store :=
  { x with new := mergeBits mask (rd s x.off) x.new, set := x.set &&& mask }

theorem regWrite_eq (m : Master) (d : RegDesc) (x : Store) (mask : Reg) (s : State) :
    regWrite m d x mask s =
      if x.width = 32 ∧ halfCommand x.at_ then logAccess accHalf m x.at_ 32 true s
      else if writableBits d mask = 0 ∨ regOff s x.off then s
      else if d.rwo ≠ 0 then asOwner m x.at_ x.width (storeReg m d (x.within (writableBits d mask) s)) s
      else if m = .fw ∨ regMaster x.off = some m then storeReg m d (x.within (writableBits d mask) s) s
      else denied m x.at_ x.width s := rfl

/-- A 32-bit write to a half of a register that acts on 64 bits only is an access error (R532). -/
theorem regWrite_half {x : Store} (hw : x.width = 32) (hh : halfCommand x.at_ = true) (m : Master) (d : RegDesc)
    (mask : Reg) (s : State) : regWrite m d x mask s = logAccess accHalf m x.at_ 32 true s := by
  rw [regWrite_eq, if_pos ⟨hw, hh⟩]

/-- A register without a writable field ignores a write. -/
theorem regWrite_unwritable {d : RegDesc} {mask : Reg} {x : Store} (hh : halfCommand x.at_ = false)
    (hw : writableBits d mask = 0) (m : Master) (s : State) : regWrite m d x mask s = s := by
  rw [regWrite_eq, if_neg (by simp [hh]), if_pos (.inl hw)]

/-- A register with an RWO field is written as the owner's act (R18). -/
theorem regWrite_rwo {d : RegDesc} {mask : Reg} {x : Store} {s : State} (h64 : x.width = 64) (hw : writableBits d mask ≠ 0)
    (hoff : regOff s x.off = false) (ho : d.rwo ≠ 0) (m : Master) :
    regWrite m d x mask s = asOwner m x.at_ x.width (storeReg m d (x.within (writableBits d mask) s)) s := by
  rw [regWrite_eq, if_neg (by simp [h64]), if_neg (not_or.mpr ⟨hw, by simp [hoff]⟩), if_pos ho]

/-- A register without RWO fields is written by the master whose page holds it (R18, R535). -/
theorem regWrite_page {d : RegDesc} {mask : Reg} {x : Store} {s : State} {m : Master} (h64 : x.width = 64)
    (hw : writableBits d mask ≠ 0) (hoff : regOff s x.off = false) (ho : d.rwo = 0) (hm : regMaster x.off = some m) :
    regWrite m d x mask s = storeReg m d (x.within (writableBits d mask) s) s := by
  rw [regWrite_eq, if_neg (by simp [h64]), if_neg (not_or.mpr ⟨hw, by simp [hoff]⟩), if_neg (by simp [ho]), if_pos (.inr hm)]

/-- A field all of whose bits a mask reaches is taken from the value. -/
theorem bits_mergeBits {mask : Reg} {lo w : Nat} (h : ∀ i < w, mask.getLsbD (lo + i) = true) (old : Reg) (v : Nat) :
    bits (mergeBits mask old (BitVec.ofNat 64 v)).toNat lo w = bits v lo w := by
  apply Nat.eq_of_testBit_eq
  intro i
  rw [testBit_bits, testBit_bits]
  by_cases hi : i < w
  · have hm := h i hi
    have h64 : lo + i < 64 := BitVec.lt_of_getLsbD hm
    have key : (mergeBits mask old (BitVec.ofNat 64 v)).getLsbD (lo + i) = v.testBit (lo + i) := by
      simp only [mergeBits, BitVec.getLsbD_or, BitVec.getLsbD_and, BitVec.getLsbD_not, BitVec.getLsbD_ofNat, hm, h64]
      simp
    rw [← key]
    rfl
  · simp [hi]

/-! ### What the registers do with a write -/

/-- A 32-bit write to either half of a 64-bit command register, by its offset or the next. -/
theorem busWrite_halfCommand {off : Nat} (h : halfCommand off = true) (m : Master) (v : Nat) (s : State) :
    busWrite m off 32 v s = logAccess accHalf m off 32 true s := by
  have which : off = supSeasonCmd ∨ off = supSeasonCmd + 4 ∨ off = nvmCfgCmd ∨ off = nvmCfgCmd + 4 := by
    simpa [halfCommand] using h
  rcases which with rfl | rfl | rfl | rfl
  · rw [busWrite_32 rfl, write32_at rfl regAt_supSeasonCmd, regWrite_half rfl rfl]
  · rw [busWrite_32 rfl, write32_upper rfl (by decide) regAt_supSeasonCmd rfl, regWrite_half rfl rfl]
  · rw [busWrite_32 rfl, write32_at rfl regAt_nvmCfgCmd, regWrite_half rfl rfl]
  · rw [busWrite_32 rfl, write32_upper rfl (by decide) regAt_nvmCfgCmd rfl, regWrite_half rfl rfl]

theorem storeReg_seasonCmd (m : Master) (d : RegDesc) (at_ width : Nat) (new set : Reg) (s : State) :
    storeReg m d ⟨supSeasonCmd, at_, width, new, set⟩ s = seasonCmdWrite m new.toNat s := rfl

theorem storeReg_nvmCfgCmd (m : Master) (d : RegDesc) (at_ width : Nat) (new set : Reg) (s : State) :
    storeReg m d ⟨nvmCfgCmd, at_, width, new, set⟩ s = cfgCmdWrite m new.toNat s := by
  simp [storeReg, deviceWrite, nvmCfgCmd, supDfCtrl, supSeasonCmd, supSlotCfg, supResetCmd, supRepairCmd, ownCfg,
    ownHeadRange, ownCmdSvc, pwrCmd, pwrLimit, clkCtrl, clkMarginCfg, timEpoch, intCtrl, conCtrl, hbmCtrl, hbmRetireCmd,
    nvmUpdCtrl, nvmUpdCmd]

/-- A command of SUP_SEASON_CMD that meets a season change is kept until the change is over (R195). -/
theorem seasonCmdWrite_deferred {s : State} {v : Nat} (hs : stageRuns s = false) (hd : s.req.deferred = none)
    (hc : s.req.change.isSome = true) (hop : bits v 3 2 ≠ 0) (m : Master) :
    (seasonCmdWrite m v s).req.deferred = some { op := bits v 3 2, slot := bits v 0 3, src := bits v 12 34 } := by
  simp [seasonCmdWrite, hs, hd, hc, hop]

theorem countErases_nvm (d a n : Nat) (s : State) : (countErases d a n s).nvm = s.nvm := by
  unfold countErases
  split <;> rfl

/-- Writing pages counts them and their erases, and leaves the choice of record. -/
theorem nvmPages_select (a n : Nat) (s : State) : (nvmPages a n s).nvm.select = s.nvm.select := by
  have fold : ∀ (k : Nat) (l : List Nat) (t : State), (l.foldl (fun t d => countErases d a k t) t).nvm = t.nvm := by
    intro k l
    induction l with
    | nil => exact fun _ => rfl
    | cons d r ih => exact fun t => (ih _).trans (countErases_nvm _ _ _ _)
  unfold nvmPages
  dsimp only
  rw [fold]

theorem writeDevice_select (s : State) : (writeDevice s).nvm.select = s.nvm.select := by
  unfold writeDevice
  split
  · exact nvmPages_select _ _ _
  · rfl

/-- SELECT_CURRENT and SELECT_PREVIOUS record the choice (R471). -/
theorem selectCfg_select (v : Nat) (s : State) : (selectCfg v s).nvm.select = v := by
  simp [selectCfg, noteSelect, writeDevice_select, nv]

/-- A 64-bit write of SUP_SEASON_CMD by the owner gives the season command of its fields. -/
theorem busWrite_seasonCmd {m : Master} {s : State} (ho : owner (settle s) = some m) (v : Nat) :
    ∃ n, busWrite m supSeasonCmd 64 v s = seasonCmdWrite m n (settle s) ∧
      bits n 3 2 = bits v 3 2 ∧ bits n 0 3 = bits v 0 3 ∧ bits n 12 34 = bits v 12 34 := by
  rw [busWrite_64 regAt_supSeasonCmd rfl,
    regWrite_rwo rfl (by decide) (regOff_sup regAt_supSeasonCmd rfl) (by decide), asOwner_owner ho]
  exact ⟨_, storeReg_seasonCmd _ _ _ _ _ _ _, bits_mergeBits (by decide) _ _, bits_mergeBits (by decide) _ _,
    bits_mergeBits (by decide) _ _⟩

/-- A 64-bit write of NVM_CFG_CMD by the owner gives the command of its OP. -/
theorem busWrite_nvmCfgCmd {m : Master} {s : State} (ho : owner (settle s) = some m) (v : Nat) :
    ∃ n, busWrite m nvmCfgCmd 64 v s = cfgCmdWrite m n (settle s) ∧ bits n 0 3 = bits v 0 3 := by
  rw [busWrite_64 regAt_nvmCfgCmd rfl,
    regWrite_rwo rfl (by decide) (regOff_sup regAt_nvmCfgCmd rfl) (by decide), asOwner_owner ho]
  exact ⟨_, storeReg_nvmCfgCmd _ _ _ _ _ _ _, bits_mergeBits (by decide) _ _⟩

theorem cfgCmdWrite_selectCurrent {n : Nat} (h : bits n 0 3 = 3) (m : Master) (s : State) :
    (cfgCmdWrite m n s).nvm.select = 0 := by
  simp [cfgCmdWrite, h, selectCfg_select]

theorem cfgCmdWrite_selectPrevious {n : Nat} (h : bits n 0 3 = 4) (m : Master) (s : State) :
    (cfgCmdWrite m n s).nvm.select = 1 := by
  simp [cfgCmdWrite, h, selectCfg_select]

theorem regMaster_msixAddr (h : Head) {k : Nat} (hk : k < 65) : regMaster (msixAddr (hnum h) k) = some (headMaster h) := by
  cases h
  · rw [regMaster, if_neg (by simp only [msixAddr, hnum, ownCmdSvc]; omega),
      if_pos (by simp only [msixAddr, hnum]; omega)]
    rfl
  · rw [regMaster, if_neg (by simp only [msixAddr, hnum, ownCmdSvc]; omega),
      if_neg (by simp only [msixAddr, hnum]; omega), if_pos (by simp only [msixAddr, hnum]; omega)]
    rfl

/-- An MSI-X address is a plain register of its head page. -/
theorem storeReg_msixAddr (h : Head) {k : Nat} (hk : k < 65) (m : Master) (d : RegDesc) (at_ width : Nat) (new set : Reg)
    (s : State) : storeReg m d ⟨msixAddr (hnum h) k, at_, width, new, set⟩ s =
      plainWrite d (msixAddr (hnum h) k) new set s := by
  have ho : msixAddr (hnum h) k % 0x40000 = 0x2000 + 16 * k := by
    cases h <;> simp only [msixAddr, hnum] <;> omega
  have lo : 0x800000 ≤ msixAddr (hnum h) k := by simp only [msixAddr]; omega
  have hi : msixAddr (hnum h) k < 0x1000000 := by
    cases h <;> simp only [msixAddr, hnum] <;> omega
  simp only [storeReg, headWrite, ho]
  rw [if_neg (by omega), if_neg (by omega), if_pos hi, if_neg (by omega), if_neg (by omega), if_neg (by omega),
    if_neg (by omega), if_neg (by omega), if_neg (by omega)]

theorem headOff_msixAddr (h : Head) {k : Nat} (hk : k < 65) : (msixAddr (hnum h) k - 0x800000) / 0x40000 = hnum h := by
  cases h <;> simp only [msixAddr, hnum] <;> omega

/-- A 64-bit write by a head of one of its MSI-X addresses stores the value in the writable bits (R320). -/
theorem busWrite_msixAddr {h : Head} {s : State} (on : headOff s (hnum h) = false) {k : Nat} (hk : k < 65) (v : Nat) :
    busWrite (headMaster h) (msixAddr (hnum h) k) 64 v s = put (msixAddr (hnum h) k)
      (mergeBits (BitVec.ofNat 64 msixAddrDesc.rw) (rd s (msixAddr (hnum h) k)) (BitVec.ofNat 64 v)) s := by
  have hr := regAt_msixAddr h hk
  have hoff : regOff s (msixAddr (hnum h) k) = false := by rw [regOff_head hr rfl, headOff_msixAddr h hk, on]
  have hw : writableBits msixAddrDesc (BitVec.allOnes 64) = BitVec.allOnes 64 := by decide
  rw [busWrite_64 hr rfl, regWrite_page rfl (by decide) hoff rfl (regMaster_msixAddr h hk), hw]
  rw [Store.within, storeReg_msixAddr h hk]
  simp [plainWrite, mergeBits, msixAddrDesc, BitVec.and_assoc]

end Sys2Proof.Machine
end

section
/-! The statements on register accesses (R17-R21). -/

namespace Sys2Proof.Machine

open Sys2Proof

/-! ### Accesses that R17 does not admit -/

theorem completes_accessError {s : State} (on : On s) (room : s.log.held.length < logRing) {off width : Nat}
    (h32 : ¬ (width = 32 ∧ off % 4 = 0)) (h64 : ¬ (width = 64 ∧ off % 8 = 0)) (m : Master) (write : Bool) :
    Completes (.accessError m off width write) s fun u => u.answer = (if write then .done else .word 0) ∧
      (∃ x ∈ u.log.held, x.kind = kAccess ∧ x.code = 1 ∧ x.object = mcode m) ∧
      Reports { s with answer := u.answer } u := by
  have hn : admitted off width = false := by simpa [admitted] using ⟨fun h => by omega, fun h => by omega⟩
  refine ⟨_, rfl, ?_⟩
  rw [powered_on on, hn]
  exact ⟨rfl, logAccess_held (by decide) m off width write room, (logAccess_reports _ _ _ _ _ _).answer _⟩

theorem completes_halfCommand {s : State} (on : On s) (room : s.log.held.length < logRing) {off : Nat}
    (h : halfCommand off = true) (m : Master) (v : Nat) :
    Completes (.halfCommand m off v) s fun u =>
      (∃ x ∈ u.log.held, x.kind = kAccess ∧ x.code = 3 ∧ x.object = mcode m) ∧ Reports s u := by
  refine ⟨_, rfl, ?_⟩
  rw [powered_on on, if_pos h]
  exact ⟨logAccess_held (by decide) m off 32 true room, logAccess_reports _ _ _ _ _ _⟩

theorem completes_halfWrite {s : State} (on : On s) (room : s.log.held.length < logRing) {off : Nat}
    (h : halfCommand off = true) (m : Master) (v : Nat) :
    Completes (.registerWrite [⟨m, off, 32, v⟩]) s fun u =>
      (∃ x ∈ u.log.held, x.kind = kAccess ∧ x.code = 3 ∧ x.object = mcode m) ∧ Reports { s with answer := .done } u := by
  apply completes_registerWrite on
  rw [busWrite_halfCommand h]
  exact ⟨logAccess_held (by decide) m off 32 true room, (logAccess_reports _ _ _ _ _ _).answer _⟩

/-- The fields of a season command, as they stand in the word written. -/
theorem bits_seasonWord {slot op : Nat} (hs : slot < 8) (ho : op ≤ 3) {src : Nat} (hr : src < 2 ^ 34) :
    bits (slot + op * 8 + src * 4096) 3 2 = op ∧ bits (slot + op * 8 + src * 4096) 0 3 = slot ∧
      bits (slot + op * 8 + src * 4096) 12 34 = src := by
  simp only [bits, Nat.shiftRight_eq_div_pow]
  omega

theorem completes_deferredSeasonCmd {m : Master} {s : State} (on : On s) (own : owner (settle s) = some m)
    {slot op src : Nat} (hs : slot < 8) (h1 : 1 ≤ op) (h3 : op ≤ 3) (hr : src < 2 ^ 34)
    (hst : stageRuns (settle s) = false) (hd : s.req.deferred = none) (hc : s.req.change.isSome = true) :
    Completes (.registerWrite [⟨m, supSeasonCmd, 64, slot + op * 8 + src * 4096⟩]) s fun u =>
      u.req.deferred = some { op := op, slot := slot, src := src } := by
  obtain ⟨n, hn, hop, hslot, hsrc⟩ := busWrite_seasonCmd own (slot + op * 8 + src * 4096)
  obtain ⟨wop, wslot, wsrc⟩ := bits_seasonWord hs h3 hr
  rw [wop] at hop
  rw [wslot] at hslot
  rw [wsrc] at hsrc
  have key := seasonCmdWrite_deferred hst (by simpa using hd) (by simpa using hc) (v := n) (by omega) m
  rw [hop, hslot, hsrc] at key
  apply completes_registerWrite on
  rw [hn]
  exact key

theorem completes_selectCurrent {m : Master} {s : State} (on : On s) (own : owner (settle s) = some m) :
    Completes (.registerWrite [⟨m, nvmCfgCmd, 64, 3⟩]) s fun u => u.nvm.select = 0 := by
  obtain ⟨n, hn, hop⟩ := busWrite_nvmCfgCmd own 3
  apply completes_registerWrite on
  rw [hn]
  exact cfgCmdWrite_selectCurrent hop m _

theorem completes_selectPrevious {m : Master} {s : State} (on : On s) (own : owner (settle s) = some m) :
    Completes (.registerWrite [⟨m, nvmCfgCmd, 64, 4⟩]) s fun u => u.nvm.select = 1 := by
  obtain ⟨n, hn, hop⟩ := busWrite_nvmCfgCmd own 4
  apply completes_registerWrite on
  rw [hn]
  exact cfgCmdWrite_selectPrevious hop m _

/-- Settles O6: alignment is read off the descriptors, and each access is followed through the judgment of a write. -/
theorem accessErrors : Obligations.AccessErrors := by
  unfold Obligations.AccessErrors
  refine ⟨fun _ _ h => regAt_aligned h, fun m off width write s on room h32 h64 => ?_, fun m off v s on room h => ?_,
    fun m slot op src s on own => ⟨fun hs h1 h3 hr hst hd hc => ?_, ?_, ?_⟩⟩
  · exact completes_accessError on room h32 h64 m write
  · have hh : halfCommand off = true := by simpa [halfCommand] using h
    exact ⟨completes_halfCommand on room hh m v, completes_halfWrite on room hh m v⟩
  · exact completes_deferredSeasonCmd on own hs h1 h3 hr hst hd hc
  · exact completes_selectCurrent on own
  · exact completes_selectPrevious on own

/-! ### What a register write does -/

theorem completes_msixAddrWrite {h : Head} {s : State} (on : On s) (up : headOff s (hnum h) = false) {k : Nat}
    (hk : k < 65) (v : Nat) :
    Completes (.registerWrite [⟨headMaster h, msixAddr (hnum h) k, 64, v⟩]) s fun u =>
      (∃ d, regAt (msixAddr (hnum h) k) = some d ∧ rd u (msixAddr (hnum h) k) =
        (rd s (msixAddr (hnum h) k) &&& ~~~(BitVec.ofNat 64 d.rw)) ||| (BitVec.ofNat 64 v &&& BitVec.ofNat 64 d.rw)) ∧
      RegsBut (· = msixAddr (hnum h) k) s u ∧ u = { s with regs := u.regs, answer := .done } := by
  apply completes_registerWrite on
  rw [busWrite_msixAddr up hk]
  exact ⟨⟨_, regAt_msixAddr h hk, rd_put_same _ _ _⟩, regsBut_put (p := (· = msixAddr (hnum h) k)) rfl _ _, rfl⟩

theorem completes_readOnlyWrite {s : State} (on : On s) {off : Nat} {d : RegDesc} (hr : regAt off = some d)
    (h4 : off % 4 = 0) (hc : inCxlBlock off = false) (hw : d.rw ||| d.rw1c ||| d.wo ||| d.rwo = 0)
    (hh : halfCommand off = false) (m : Master) (v : Nat) :
    Completes (.registerWrite [⟨m, off, 32, v⟩]) s fun u => u = { s with answer := .done } := by
  apply completes_registerWrite on
  have ro : writableBits d lowMask = 0 := by simp [writableBits, hw]
  rw [busWrite_32 h4, write32_at hc hr, regWrite_unwritable hh ro]
  rfl

theorem writableBits_ne_zero {d : RegDesc} (h0 : d.rwo ≠ 0) (hlt : d.rwo < 2 ^ 64) :
    writableBits d (BitVec.allOnes 64) ≠ 0 := by
  intro h
  have hz : BitVec.ofNat 64 d.rwo = 0 := by
    simp only [writableBits, BitVec.and_allOnes, BitVec.ofNat_or] at h
    exact (BitVec.or_eq_zero_iff.mp h).2
  have hn : d.rwo % 2 ^ 64 = 0 := congrArg BitVec.toNat hz
  rw [Nat.mod_eq_of_lt hlt] at hn
  exact h0 hn

theorem completes_deniedWrite {m : Master} {s : State} (on : On s) {off : Nat} {d : RegDesc} (hr : regAt off = some d)
    (hw : d.width = 64) (h0 : d.rwo ≠ 0) (hlt : d.rwo < 2 ^ 64) (hoff : regOff s off = false)
    (own : owner (settle s) ≠ some m) (v : Nat) :
    Completes (.registerWrite [⟨m, off, 64, v⟩]) s fun u => Reports { settle s with answer := .done } u := by
  apply completes_registerWrite on
  rw [busWrite_64 hr hw, regWrite_rwo rfl (writableBits_ne_zero h0 hlt) hoff h0, asOwner_other own]
  exact (logAccess_reports _ _ _ _ _ _).answer _

/-- Settles O5: each of the three writes falls under one case of the judgment of a write. -/
theorem registerWriteRules : Obligations.RegisterWriteRules := by
  unfold Obligations.RegisterWriteRules
  refine ⟨fun h k v s on up hk _ => ?_, fun m off v d s on hr h4 hc hrw h1c hwo hrwo hh => ?_,
    fun m off v d s on hr hw _ h0 hlt hoff own => ?_⟩
  · exact completes_msixAddrWrite on up hk v
  · exact completes_readOnlyWrite on hr h4 hc (by simp [hrw, h1c, hwo, hrwo]) hh m v
  · exact completes_deniedWrite on hr hw h0 hlt hoff own v

end Sys2Proof.Machine
end

section
/-! The state right after reset. -/

namespace Sys2Proof.Machine

open Sys2Proof

/-- The descriptor of PWR_CL_CFG (R540). -/
def pwrClCfgDesc : RegDesc := ⟨0x10000, 0x20, 240, 8, 1, 32, .sup, 0, 0, 0, 0x3f, 0, 0x3c⟩

/-- The descriptor of PWR_CL_STAT (R540). -/
def pwrClStatDesc : RegDesc := ⟨0x10008, 0x20, 240, 8, 1, 64, .sup, 0, 0, 0, 0, 0x3ff8, 0x3c93fc0⟩

/-- The descriptor of PWR_CL_THERM (R540). -/
def pwrClThermDesc : RegDesc := ⟨0x10010, 0x20, 240, 8, 1, 32, .clusterFab, 0, 0, 0, 0, 0x30000, 0x4000⟩

theorem regsNear_array {off : Nat} (h1 : 0x10000 ≤ off) (h2 : off < 0x800000) : regsNear off = arrayRegs := by
  rw [regsNear, if_neg (by omega), if_pos h2]

theorem regAt_pwrClCfg {g : Nat} (h : g < 240) : regAt (pwrClCfg g) = some pwrClCfgDesc := by
  refine regAt_eq (pre := []) (regsNear_array ?_ ?_) ?_ (by simp)
  all_goals
    simp only [RegDesc.covers_iff, pwrClCfg, pwrClCfgDesc]
    omega

theorem regAt_pwrClStat {g : Nat} (h : g < 240) : regAt (pwrClStat g) = some pwrClStatDesc := by
  refine regAt_eq (pre := [pwrClCfgDesc]) (regsNear_array ?_ ?_) ?_ (List.forall_mem_singleton.mpr ?_)
  all_goals
    simp only [RegDesc.covers_iff, pwrClStat, pwrClStatDesc, pwrClCfgDesc]
    omega

theorem regAt_pwrClTherm {g : Nat} (h : g < 240) : regAt (pwrClTherm g) = some pwrClThermDesc := by
  refine regAt_eq (pre := [pwrClCfgDesc, pwrClStatDesc]) (regsNear_array ?_ ?_) ?_
    (List.forall_mem_cons.mpr ⟨?_, List.forall_mem_singleton.mpr ?_⟩)
  all_goals
    simp only [RegDesc.covers_iff, pwrClTherm, pwrClThermDesc, pwrClStatDesc, pwrClCfgDesc]
    omega

/-- A field of a register holds what the register's descriptor gives it at reset. -/
theorem get_reset {off : Nat} {d : RegDesc} (h : regAt off = some d) (f : Fld) :
    get State.reset off f = getF (BitVec.ofNat 64 d.reset) f := by
  show getF (regReset off) f = _
  rw [regReset, h]

theorem inv_reset : Inv State.reset where
  regs := rfl
  hbm := rfl
  otp := by decide
  events := by decide
  held := by decide

/-- Settles O2: the reset state lists no register, no byte and no tile, so each holds its reset value. -/
theorem resetStateIsSound : Obligations.ResetStateIsSound := by
  unfold Obligations.ResetStateIsSound
  refine ⟨inv_reset, rfl, fun _ => rfl, fun _ => rfl, fun _ => rfl, rfl, rfl, by decide, by decide, by decide, by decide,
    by decide, by decide, by decide, fun g hg => ⟨?_, ?_, ?_⟩⟩
  · rw [get_reset (regAt_pwrClCfg hg)]
    decide
  · rw [get_reset (regAt_pwrClTherm hg)]
    decide
  · rw [get_reset (regAt_pwrClStat hg)]
    decide

end Sys2Proof.Machine
end

section
/-! What the checks of a submission read: neither the head of a submission queue nor anything else of QUE_SQ_STAT
(R209). -/

namespace Sys2Proof.Machine

open Sys2Proof

theorem hbmRead_congr {s u : State} (h : u.hbm = s.hbm) (a n : Nat) : hbmRead u a n = hbmRead s a n := by
  induction n generalizing a with
  | zero => rfl
  | succ n ih => rw [hbmRead, hbmRead, ih, hbmByte, hbmByte, h]

theorem hbmNat_congr {s u : State} (h : u.hbm = s.hbm) (a n : Nat) : hbmNat u a n = hbmNat s a n := by
  rw [hbmNat, hbmNat, hbmRead_congr h]

/-- What an image says depends on HBM alone. -/
theorem imgNat_congr {s u : State} (h : u.hbm = s.hbm) (base off n : Nat) : imgNat u base off n = imgNat s base off n :=
  hbmNat_congr h _ _

theorem imgHeader_congr {s u : State} (h : u.hbm = s.hbm) (base : Nat) : imgHeader u base = imgHeader s base :=
  imgNat_congr h _ _ _

theorem modelRec_congr {s u : State} (h : u.hbm = s.hbm) (base m : Nat) : modelRec u base m = modelRec s base m := by
  have entry : sectEntry u base = sectEntry s base := by
    funext i
    rw [sectEntry, sectEntry, imgHeader_congr h, imgNat_congr h]
  simp only [modelRec, record, sectionOf, sections, imgNat_congr h, imgHeader_congr h, entry]

/-- The queues' configuration and the supervisor's registers stand elsewhere than QUE_SQ_STAT. -/
theorem get_upd_sqStat {o h q : Nat} (ho : o < 0x800000) (f g : Fld) (x : Nat) (s : State) :
    get (upd (queSqStat h q) f x s) o g = get s o g :=
  get_upd_ne (by simp only [queSqStat]; omega) _ _ _ _

theorem get_upd_sqStat_cqCfg {h c : Nat} (hc : c < 64) (q : Nat) (f g : Fld) (x : Nat) (s : State) :
    get (upd (queSqStat h q) f x s) (queCqCfg h c) g = get s (queCqCfg h c) g :=
  get_upd_ne (by simp only [queSqStat, queCqCfg]; omega) _ _ _ _

/-- A search asks its predicate about the members of the list alone. -/
theorem find?_eq_of_forall_mem {α : Type} {p r : α → Bool} {l : List α} (h : ∀ x ∈ l, p x = r x) :
    l.find? p = l.find? r := by
  induction l with
  | nil => rfl
  | cons x l ih =>
    rw [List.find?_cons, List.find?_cons, h x List.mem_cons_self, ih fun y hy => h y (List.mem_cons_of_mem _ hy)]

theorem seasonSlot_upd_sqStat (h q : Nat) (f : Fld) (x : Nat) (s : State) (id : Nat) :
    seasonSlot (upd (queSqStat h q) f x s) id = seasonSlot s id := by
  refine find?_eq_of_forall_mem fun i hi => ?_
  have lt : supSeasonStat i < 0x800000 := by
    have := List.mem_range.mp hi
    simp only [supSeasonStat]
    omega
  simp only [slotSeason, slotState, get_upd_sqStat lt]

theorem hbmMapStat_lt : hbmMapStat < 0x800000 := by
  unfold hbmMapStat
  omega

theorem installed_upd_sqStat (h q : Nat) (f : Fld) (x : Nat) (s : State) :
    installed (upd (queSqStat h q) f x s) = installed s := by
  have retired : retiredCount (upd (queSqStat h q) f x s) = retiredCount s :=
    get_upd_sqStat hbmMapStat_lt _ _ _ _
  unfold installed
  rw [retired]

theorem reservedBase_upd_sqStat (h q : Nat) (f : Fld) (x : Nat) (s : State) :
    reservedBase (upd (queSqStat h q) f x s) = reservedBase s := by
  unfold reservedBase
  rw [installed_upd_sqStat]

theorem slotBase_upd_sqStat (h q : Nat) (f : Fld) (x : Nat) (s : State) (i : Nat) :
    slotBase (upd (queSqStat h q) f x s) i = slotBase s i := by
  rw [slotBase, slotBase, reservedBase_upd_sqStat]

/-- The slot array of R204 is configured in SUP_SLOT_CFG. -/
theorem get_upd_sqStat_slotCfg (h q : Nat) (f g : Fld) (x : Nat) (s : State) :
    get (upd (queSqStat h q) f x s) supSlotCfg g = get s supSlotCfg g := get_upd_sqStat (by decide) _ _ _ _

theorem bufferOk_upd_sqStat {h : Nat} (hh : h < 2) (q : Nat) (f : Fld) (x : Nat) (s : State) (a n : Nat) :
    bufferOk (upd (queSqStat h q) f x s) h a n = bufferOk s h a n := by
  have range : ownHeadRange h < 0x800000 := by simp only [ownHeadRange]; omega
  simp only [bufferOk, exposed, headBase, headSize, slotArrayBase, slotCount, slotSize, reservedBase_upd_sqStat,
    get_upd_sqStat range, get_upd_sqStat_slotCfg]

theorem dsCq_lt (d : Nat) : dsCq d < 64 := Nat.mod_lt _ (by decide)

/-- The submission checks do not read QUE_SQ_STAT. -/
theorem submitCheck_upd_sqStat {h : Nat} (hh : h < 2) (q : Nat) (f : Fld) (x : Nat) (s : State) (d : Nat) :
    submitCheck (upd (queSqStat h q) f x s) h d = submitCheck s h d := by
  simp only [submitCheck, get_upd_sqStat_cqCfg (dsCq_lt d), seasonSlot_upd_sqStat, slotBase_upd_sqStat, slotCount, slotSize,
    get_upd_sqStat_slotCfg, bufferOk_upd_sqStat hh, imgHeader_congr (upd_hbm _ _ _ s), modelRec_congr (upd_hbm _ _ _ s)]
  <;> rfl

end Sys2Proof.Machine
end

section
/-! What completing and refreshing requests leave of them: every request stays, with what its fetch gave it. -/

namespace Sys2Proof.Machine

open Sys2Proof

/-- A request keeps what its fetch gave it: its number, queue, descriptor, time and acceptance (R39). -/
structure Request.Kept (r x : Request) : Prop where
  id : x.id = r.id
  head : x.head = r.head
  sq : x.sq = r.sq
  desc : x.desc = r.desc
  time : x.time = r.time
  accepted : x.accepted = r.accepted

theorem Request.Kept.refl (r : Request) : r.Kept r := ⟨rfl, rfl, rfl, rfl, rfl, rfl⟩

theorem Request.Kept.trans {r x y : Request} (h : r.Kept x) (k : x.Kept y) : r.Kept y :=
  ⟨k.id.trans h.id, k.head.trans h.head, k.sq.trans h.sq, k.desc.trans h.desc, k.time.trans h.time,
    k.accepted.trans h.accepted⟩

/-- Every request of the first state stands in the second; numbering and HBM are as they were, and only the registers of
reports have changed. -/
structure ReqsKept (s u : State) : Prop where
  reqs : ∀ r ∈ s.req.reqs, ∃ x ∈ u.req.reqs, r.Kept x
  nextId : u.req.nextId = s.req.nextId
  hbm : u.hbm = s.hbm
  regs : RegsBut ReportReg s u

theorem ReqsKept.refl (s : State) : ReqsKept s s := ⟨fun r hr => ⟨r, hr, .refl r⟩, rfl, rfl, .refl _ _⟩

theorem ReqsKept.trans {s t u : State} (h : ReqsKept s t) (k : ReqsKept t u) : ReqsKept s u where
  reqs r hr := by
    obtain ⟨x, hx, hrx⟩ := h.reqs r hr
    obtain ⟨y, hy, hxy⟩ := k.reqs x hx
    exact ⟨y, hy, hrx.trans hxy⟩
  nextId := k.nextId.trans h.nextId
  hbm := k.hbm.trans h.hbm
  regs := h.regs.trans k.regs

theorem Reports.reqsKept {s u : State} (h : Reports s u) : ReqsKept s u := by
  obtain ⟨hr, hu⟩ := h
  have req : u.req = s.req := by rw [hu]
  exact ⟨fun r hm => ⟨r, req ▸ hm, .refl r⟩, by rw [req], by rw [hu], hr⟩

theorem mapReqs_kept {f : Request → Request} (h : ∀ r : Request, r.Kept (f r)) (s : State) : ReqsKept s (mapReqs f s) :=
  ⟨fun r hr => ⟨f r, List.mem_map_of_mem hr, h r⟩, rfl, rfl, .refl _ _⟩

theorem refreshReady_kept (s : State) : ReqsKept s (refreshReady s) := by
  refine mapReqs_kept (fun r => ?_) s
  split <;> exact ⟨rfl, rfl, rfl, rfl, rfl, rfl⟩

/-- A request whose completion is due with a status (R213). -/
def Request.finished (st : Nat) (r : Request) : Request := { r with status := some st, running := false, ready := none }

theorem Request.finished_kept (st : Nat) (r : Request) : r.Kept (r.finished st) := ⟨rfl, rfl, rfl, rfl, rfl, rfl⟩

/-- The state in which a request's status is chosen and its completion due, before the entry in the log. -/
def madeDue (id st : Nat) (s : State) : State :=
  let s := updReq id (Request.finished st) s
  { s with req := { s.req with due := s.req.due ++ [id] } }

theorem madeDue_kept (id st : Nat) (s : State) : ReqsKept s (madeDue id st s) := by
  have kept : ReqsKept s (updReq id (Request.finished st) s) := by
    refine mapReqs_kept (fun r => ?_) s
    split
    · exact r.finished_kept st
    · exact .refl r
  exact ⟨kept.reqs, kept.nextId, kept.hbm, kept.regs⟩

/-- Finishing a request without a status makes its completion due and enters it in the log at most. -/
theorem finishReq_of_open {id : Nat} {r : Request} {s : State} (hf : findReq s id = some r) (hs : r.status = none)
    (st : Nat) : Reports (madeDue id st s) (finishReq id st s) := by
  have done : finishReq id st s = if st = csPartial ∨ 0x20 ≤ st then
      logEvent ⟨sevError, kFault, bQue, 0x690, st, reqObject r, r.detail⟩ (madeDue id st s) else madeDue id st s := by
    simp only [finishReq, hf, hs, Option.isSome_none, Bool.false_eq_true, if_false]
    rfl
  rw [done]
  split
  · exact logEvent_reports _ _
  · exact .refl _

/-- Finishing a request that is unknown or has a status does nothing. -/
theorem finishReq_kept (id st : Nat) (s : State) : ReqsKept s (finishReq id st s) := by
  cases hf : findReq s id with
  | none => simpa [finishReq, hf] using .refl s
  | some r =>
    cases hs : r.status with
    | some c => simpa [finishReq, hf, hs] using .refl s
    | none => exact (madeDue_kept id st s).trans (finishReq_of_open hf hs st).reqsKept

theorem fencesDue_kept (s : State) : ReqsKept s (fencesDue s) := by
  have fold : ∀ (l : List Request) (t : State), ReqsKept t (l.foldl (fun s r => finishReq r.id csSuccess s) t) := by
    intro l
    induction l with
    | nil => exact fun t => .refl t
    | cons r l ih => exact fun t => (finishReq_kept _ _ t).trans (ih _)
  exact fold _ s

/-- A request without a status that is finished has the status afterwards. -/
theorem finishReq_status {id : Nat} {r : Request} {s : State} (hf : findReq s id = some r) (hs : r.status = none)
    (st : Nat) : ∃ x ∈ (finishReq id st s).req.reqs, r.Kept x ∧ x.status = some st := by
  have hm : r ∈ s.req.reqs := List.mem_of_find?_eq_some hf
  have hid : r.id = id := by simpa using List.find?_some hf
  have hreq : (finishReq id st s).req = (madeDue id st s).req := by rw [(finishReq_of_open hf hs st).2]
  refine ⟨r.finished st, ?_, r.finished_kept st, rfl⟩
  rw [hreq]
  exact List.mem_map.mpr ⟨r, hm, if_pos hid⟩

/-- A request put among those held is found by its number, where all the others have lower ones. -/
theorem findReq_addRequest {r : Request} {s : State} (h : ∀ x ∈ s.req.reqs, x.id < r.id) :
    findReq (addRequest r s) r.id = some r := by
  have old : s.req.reqs.find? (fun x => x.id == r.id) = none :=
    List.find?_eq_none.mpr fun x hx => by simpa using Nat.ne_of_lt (h x hx)
  simp [findReq, addRequest, old]

end Sys2Proof.Machine
end

section
/-! Fetching one entry of a submission queue (R39, R209, R318). -/

namespace Sys2Proof.Machine

open Sys2Proof

/-- The address of the next entry of a submission queue (R315). -/
def sqEntry (s : State) (h q : Nat) : Nat :=
  get s (queSqCfg h q) QueSqCfg.base * 4096 + 64 * get s (queSqStat h q) QueSqStat.head

/-- The head of a submission queue once its next entry is fetched. -/
def sqNext (s : State) (h q : Nat) : Nat :=
  (get s (queSqStat h q) QueSqStat.head + 1) % 2 ^ get s (queSqCfg h q) QueSqCfg.sizeLog2

/-- The state with the head of a submission queue past its next entry. -/
def sqPassed (h q : Nat) (s : State) : State := upd (queSqStat h q) QueSqStat.head (sqNext s h q) s

theorem hbmTouch_clean {a n : Nat} {s : State} (hf : rangeFailed s a n = false) (he : errsIn s a n = []) :
    hbmTouch a n s = (false, s) := by simp [hbmTouch, hf, he]

/-- An entry that can be read goes by what the checks say of its descriptor. -/
theorem fetchOne_clean {h q : Nat} {s : State} (hh : h < 2) (hf : rangeFailed s (sqEntry s h q) 64 = false)
    (he : errsIn s (sqEntry s h q) 64 = []) :
    fetchOne h q s = (submitCheck s h (hbmNat s (sqEntry s h q) 64)).elim
      (acceptRequest (newRequest (sqPassed h q s) h q (hbmNat s (sqEntry s h q) 64) (sqNext s h q)) (sqPassed h q s))
      fun st => rejectRequest (newRequest (sqPassed h q s) h q (hbmNat s (sqEntry s h q) 64) (sqNext s h q)) st
        (sqPassed h q s) := by
  have touch := hbmTouch_clean hf he
  have check := submitCheck_upd_sqStat hh q QueSqStat.head (sqNext s h q) s
  have nat := hbmNat_congr (upd_hbm (queSqStat h q) QueSqStat.head (sqNext s h q) s)
  simp only [sqEntry, sqNext] at touch check nat
  simp only [fetchOne, sqEntry, sqNext, sqPassed, touch, check, nat, Bool.false_eq_true, if_false]
  split <;> simp only [*, Option.elim_some, Option.elim_none]

/-- What a fetch of an entry with descriptor `d` leaves: one request more, with that descriptor and what the checks say of
it, the queue's head moved, and HBM as it was. -/
structure EntryTaken (h q d : Nat) (s u : State) : Prop where
  nextId : u.req.nextId = s.req.nextId + 1
  hbm : u.hbm = s.hbm
  stat : rd u (queSqStat h q) = rd (sqPassed h q s) (queSqStat h q)
  request : ∃ r ∈ u.req.reqs, r.id = s.req.nextId ∧ r.head = h ∧ r.sq = q ∧ r.desc = d ∧ r.time = s.devtime ∧
    (r.accepted = true ↔ submitCheck s h d = none) ∧ ∀ st, submitCheck s h d = some st → r.status = some st

theorem not_reportReg_sqStat (h : Nat) {q : Nat} (hq : q < 64) : ¬ ReportReg (queSqStat h q) := by
  simp only [ReportReg, queSqStat, ledLogStat, queEvent, msixPba]
  rintro (e | ⟨k, -, e | e | e⟩) <;> omega

/-- A descriptor that fails a check becomes a request with that status, not accepted (R209). -/
theorem rejectRequest_taken {h q d st sqHead : Nat} {s : State} (hq : q < 64) (hc : submitCheck s h d = some st)
    (hid : ∀ r ∈ s.req.reqs, r.id < s.req.nextId) :
    EntryTaken h q d s (rejectRequest (newRequest (sqPassed h q s) h q d sqHead) st (sqPassed h q s)) := by
  let r : Request := { newRequest (sqPassed h q s) h q d sqHead with accepted := false }
  have kept : ReqsKept (addRequest r (sqPassed h q s)) (rejectRequest r st (sqPassed h q s)) := finishReq_kept _ _ _
  have found : findReq (addRequest r (sqPassed h q s)) r.id = some r := findReq_addRequest hid
  obtain ⟨x, hx, hk, hst⟩ := finishReq_status found rfl st
  refine ⟨kept.nextId, kept.hbm, kept.regs _ (not_reportReg_sqStat h hq),
    x, hx, hk.id, hk.head, hk.sq, hk.desc, hk.time, ?_, ?_⟩
  · rw [hk.accepted, hc]
    simp [r]
  · intro c e
    rw [hst, ← hc, e]

/-- The request that an accepted descriptor makes, with what its model says of its chunks (R208). -/
def acceptedRequest (r : Request) (s : State) : Request :=
  let m := match seasonSlot s (dsSeason r.desc) with
    | some i => modelRec s (slotBase s i) (dsModel r.desc)
    | none => 0
  if dsOpcode r.desc = opFence then r
  else { r with chunks := chunkCount r.desc m, outBytes := mdOutBytes m, stateful := mdStateBytes m != 0 }

theorem acceptedRequest_kept (r : Request) (s : State) : r.Kept (acceptedRequest r s) := by
  unfold acceptedRequest
  dsimp only
  split <;> exact ⟨rfl, rfl, rfl, rfl, rfl, rfl⟩

/-- Acceptance counts the request and puts it among those held, before fences and readiness are looked at again. -/
def counted (h : Nat) (s : State) : State := addR (ledReq h LedReq.inFlight) 1 (addR (ledReq h LedReq.accepted) 1 s)

theorem acceptRequest_eq (r : Request) (s : State) : acceptRequest r s =
    refreshReady (fencesDue (addRequest (acceptedRequest r s) (counted (acceptedRequest r s).head s))) := rfl

theorem rd_counted_sqStat {h : Nat} (hh : h < 2) (q : Nat) (s : State) :
    rd (counted h s) (queSqStat h q) = rd s (queSqStat h q) := by
  have ne : ∀ i < 8, queSqStat h q ≠ ledReq h i := fun i hi => by
    simp only [queSqStat, ledReq]
    omega
  rw [counted, addR, rd_put_ne (ne _ (by decide)), addR, rd_put_ne (ne _ (by decide))]

/-- A descriptor that passes the checks becomes an accepted request (step 5 of R39). -/
theorem acceptRequest_taken {h q d sqHead : Nat} {s : State} (hh : h < 2) (hq : q < 64)
    (hc : submitCheck s h d = none) :
    EntryTaken h q d s (acceptRequest (newRequest (sqPassed h q s) h q d sqHead) (sqPassed h q s)) := by
  let r := acceptedRequest (newRequest (sqPassed h q s) h q d sqHead) (sqPassed h q s)
  have made : (newRequest (sqPassed h q s) h q d sqHead).Kept r := acceptedRequest_kept _ _
  let t := addRequest r (counted r.head (sqPassed h q s))
  have kept : ReqsKept t (refreshReady (fencesDue t)) := (fencesDue_kept t).trans (refreshReady_kept _)
  have stat : rd t (queSqStat h q) = rd (sqPassed h q s) (queSqStat h q) := by
    show rd (counted r.head _) _ = _
    rw [show r.head = h from made.head, rd_counted_sqStat hh]
  obtain ⟨x, hx, hk⟩ := kept.reqs r (List.mem_append_right _ (List.mem_singleton.mpr rfl))
  have hr := made.trans hk
  rw [acceptRequest_eq]
  refine ⟨kept.nextId, kept.hbm, (kept.regs _ (not_reportReg_sqStat h hq)).trans stat,
    x, hx, hr.id, hr.head, hr.sq, hr.desc, hr.time, ?_, ?_⟩
  · rw [hr.accepted, hc]
    exact iff_of_true rfl rfl
  · intro st e
    rw [hc] at e
    cases e

/-- A fetch of an entry that can be read. -/
theorem fetchOne_taken {h q : Nat} {s : State} (hh : h < 2) (hq : q < 64)
    (hf : rangeFailed s (sqEntry s h q) 64 = false) (he : errsIn s (sqEntry s h q) 64 = [])
    (hid : ∀ r ∈ s.req.reqs, r.id < s.req.nextId) :
    EntryTaken h q (hbmNat s (sqEntry s h q) 64) s (fetchOne h q s) := by
  rw [fetchOne_clean hh hf he]
  cases hc : submitCheck s h (hbmNat s (sqEntry s h q) 64) with
  | some st => exact rejectRequest_taken hq hc hid
  | none => exact acceptRequest_taken hh hq hc

theorem EntryTaken.sqHead {h q d : Nat} {s u : State} (e : EntryTaken h q d s u) :
    get u (queSqStat h q) QueSqStat.head = sqNext s h q % 2 ^ 12 := by
  rw [get, e.stat]
  exact get_upd_same _ _ _ _ (by decide)

theorem EntryTaken.sqTail {h q d : Nat} {s u : State} (e : EntryTaken h q d s u) :
    get u (queSqStat h q) QueSqStat.tail = get s (queSqStat h q) QueSqStat.tail := by
  rw [get, e.stat]
  exact get_upd_other _ _ _ _ _ (by decide) (by decide)

theorem fetchUpTo_of_not_unfetched {h q : Nat} {s : State} (hu : unfetched s h q = false) (n : Nat) :
    fetchUpTo h q n s = s := by
  cases n with
  | zero => rfl
  | succ n => simp [fetchUpTo, hu]

/-- A turn at a queue that is left with no announced entry after its first. -/
theorem fetchUpTo_one {h q : Nat} {s : State} (hu : unfetched s h q = true) (hn : unfetched (fetchOne h q s) h q = false)
    (n : Nat) : fetchUpTo h q (n + 1) s = fetchOne h q s := by
  rw [fetchUpTo, if_pos hu, fetchUpTo_of_not_unfetched hn]

/-- The queue whose turn it is has an announced entry. -/
theorem nextQueue_some {s : State} {h q : Nat} (hq : nextQueue s h = some q) : q < 64 ∧ unfetched s h q = true := by
  unfold nextQueue at hq
  split at hq
  · cases hq
  · obtain ⟨i, -, rfl⟩ := List.mem_map.mp (List.mem_of_find?_eq_some hq)
    exact ⟨Nat.mod_lt _ (by decide), List.find?_some hq⟩

/-- A turn of head HA serves the queue of HA whose turn it is, and passes the turn to HB (R318). -/
theorem fetchTurn_ha {s : State} {q : Nat} (ht : s.req.turnHead = 0) (hq : nextQueue s 0 = some q) :
    fetchTurn s = { fetchUpTo 0 q 8 s with req := { (fetchUpTo 0 q 8 s).req with
      turnHead := 1, turn := tset (fun _ => 0) 0 ((q + 1) % 64) (fetchUpTo 0 q 8 s).req.turn } } := by
  simp only [fetchTurn, ht, Nat.zero_mod, hq]

theorem completes_descriptorFetch {P : State → Prop} {s : State} (on : On s) (hf : fetching s = true)
    (h : P (fetchTurn s)) : Completes .descriptorFetch s P := by
  refine ⟨_, rfl, ?_⟩
  rw [powered_on on, if_pos hf]
  exact h

/-- Settles O15: the one announced entry is fetched by its checks, and the queue's turn ends there. -/
theorem descriptorFetchTakesNextEntry : Obligations.DescriptorFetchTakesNextEntry := by
  unfold Obligations.DescriptorFetchTakesNextEntry
  intro q d next s on hf ht hq hnext hlast hrange herrs hd hid
  obtain ⟨hq64, hu⟩ := nextQueue_some hq
  have taken : EntryTaken 0 q d s (fetchOne 0 q s) := by
    rw [hd]
    exact fetchOne_taken (by decide) hq64 hrange herrs hid
  have fits : next % 2 ^ 12 = next :=
    Nat.mod_eq_of_lt (Nat.lt_of_le_of_lt (Nat.le_of_eq hlast) (Nat.mod_lt _ (by decide)))
  have head : get (fetchOne 0 q s) (queSqStat 0 q) QueSqStat.head = next := by
    rw [taken.sqHead, sqNext, ← hnext, fits]
  have rest : unfetched (fetchOne 0 q s) 0 q = false := by
    have same := head.trans (hlast.trans taken.sqTail.symm)
    simp [unfetched, same]
  apply completes_descriptorFetch on hf
  rw [fetchTurn_ha ht hq, fetchUpTo_one hu rest]
  exact ⟨taken.nextId, rfl, taken.hbm, head, taken.request⟩

end Sys2Proof.Machine
end

section
/-! The statement on cluster regulators (R367-R373, R395), which fails in its clause on the end of a soft-start: a cluster
that was switched off for heat in SOFT_START still reads SOFT_START while its rail ramps down, and does not come ON. -/

namespace Sys2Proof.Machine

open Sys2Proof

/-- A cluster whose rail ramps down for heat does not end a soft-start (R373, R395). -/
theorem softStartDone_of_ramping {g : ClusterId} {s : State} (h : g.val ∈ s.power.ramping) :
    exec (.softStartDone g) s = .next s := by
  show Host.Outcome.next (powered _ s) = _
  simp [powered, h]

/-- A field update of a sound state is sound. -/
theorem Inv.upd {s : State} (h : Inv s) (off : Nat) (f : Fld) (x : Nat) : Inv (Machine.upd off f x s) :=
  (good_put (q := s.pending) ⟨rfl, h⟩ off _).inv

/-- After reset, cluster 0 in SOFT_START with its ramp over, switched off for heat: its rail ramps down. -/
def heatedSoftStart : State :=
  { upd (pwrClStat 0) PwrClStat.state clSoft State.reset with power := { ramping := [0] } }

theorem inv_heatedSoftStart : Inv heatedSoftStart := by
  obtain ⟨regs, hbm, otp, events, held⟩ := inv_reset.upd (pwrClStat 0) PwrClStat.state clSoft
  exact ⟨regs, hbm, otp, events, held⟩

theorem heatedSoftStart_state : get heatedSoftStart (pwrClStat 0) PwrClStat.state = clSoft :=
  get_upd_same _ _ _ _ (by decide)

/-- Refutes O46: in SOFT_START with its ramp over, cluster 0 ramps down for heat, and SOFT_START_DONE leaves it as it is. -/
theorem not_clusterRegulators : ¬ Obligations.ClusterRegulators := by
  unfold Obligations.ClusterRegulators
  rintro ⟨-, -, regulators⟩
  obtain ⟨-, -, softStart, -⟩ := regulators 0 heatedSoftStart rfl
  obtain ⟨u, hu, hOn, -⟩ := softStart inv_heatedSoftStart heatedSoftStart_state (Nat.le_refl 0)
  rw [softStartDone_of_ramping (List.mem_singleton.mpr rfl)] at hu
  cases hu
  have hSoft : get heatedSoftStart (pwrClStat 0) PwrClStat.state = 2 := heatedSoftStart_state
  exact absurd (hSoft.symm.trans hOn) (by decide)

end Sys2Proof.Machine
end

section
/-! Tile memories: what a read gives after a write, byte by byte and for a row of equal elements; lanes of a vector
register after a write under a predicate (R102, R106, R155). -/

namespace Sys2Proof.Machine

open Sys2Proof

/-! ### Bytes as numbers -/

theorem fromBytes_lt : ∀ bs : List Byte, fromBytes bs < 256 ^ bs.length
  | [] => by decide
  | b :: r => by
    have ih := fromBytes_lt r
    have hb : b.toNat < 256 := b.isLt
    rw [fromBytes, List.length_cons, Nat.pow_succ]
    omega

/-- Elements of a width `c`, laid out one after another: element `l` stands at `c * l`. -/
theorem take_drop_flatMap {α : Type} {c : Nat} {f : α → List Byte} (hf : ∀ x, (f x).length = c) :
    ∀ (xs : List α) (l : Nat) (h : l < xs.length), ((xs.flatMap f).drop (c * l)).take c = f xs[l]
  | x :: xs, 0, _ => by simp [List.flatMap_cons, hf]
  | x :: xs, l + 1, h => by
    have ih := take_drop_flatMap hf xs l (by simpa using h)
    rw [List.flatMap_cons, Nat.mul_succ, Nat.add_comm (c * l), ← List.drop_drop,
      List.drop_left' (hf x), ih, List.getElem_cons_succ]

/-! ### Cells -/

@[simp] theorem length_cellsRead (m : List Host.Cell) : ∀ n a : Nat, (cellsRead m a n).length = n
  | 0, _ => rfl
  | n + 1, a => by rw [cellsRead, List.length_cons, length_cellsRead m n]

/-- A range that a write does not reach is as it was. -/
theorem cellsRead_storeBytes_outside {a : Nat} {bs : List Byte} (m : List Host.Cell) :
    ∀ (n b : Nat), b + n ≤ a ∨ a + bs.length ≤ b → cellsRead (storeBytes a bs m) b n = cellsRead m b n
  | 0, _, _ => rfl
  | n + 1, b, h => by
    have first : tget tileDefault (storeBytes a bs m) b = tget tileDefault m b :=
      storeBytes_outside a b bs m (by omega)
    rw [cellsRead, cellsRead, first, cellsRead_storeBytes_outside m n (b + 1) (by omega)]

/-- A range that a write covers is the part of the bytes written there. -/
theorem cellsRead_storeBytes_inside {a : Nat} {bs : List Byte} (m : List Host.Cell) :
    ∀ (n i : Nat), i + n ≤ bs.length → cellsRead (storeBytes a bs m) (a + i) n = (bs.drop i).take n
  | 0, _, _ => by simp [cellsRead]
  | n + 1, i, h => by
    have first : tget tileDefault (storeBytes a bs m) (a + i) = bs[i] := storeBytes_inside a i bs m (by omega)
    rw [cellsRead, first, Nat.add_assoc, cellsRead_storeBytes_inside m n (i + 1) (by omega),
      List.drop_eq_getElem_cons (by omega : i < bs.length), List.take_succ_cons]

/-! ### Memories of a tile -/

theorem memNat_lt (x : TileState) (k a n : Nat) : memNat x k a n < 256 ^ n := by
  have h := fromBytes_lt (memRead x k a n)
  rwa [memRead, length_cellsRead] at h

@[simp] theorem memOf_stampUnits (u n : Nat) (x : TileState) (m : Nat) : memOf (stampUnits u n x) m = memOf x m := rfl

theorem memOf_setMem_same (k : Nat) (c : List Host.Cell) (x : TileState) : memOf (setMem k c x) k = c := by
  unfold memOf setMem
  split
  · rfl
  · split <;> rfl

theorem memOf_setMem_ne {m k : Nat} (hm : m < 3) (hk : k < 3) (h : m ≠ k) (c : List Host.Cell) (x : TileState) :
    memOf (setMem k c x) m = memOf x m := by
  have which : (k = 0 ∧ m = 1 ∨ k = 0 ∧ m = 2) ∨ (k = 1 ∧ m = 0 ∨ k = 1 ∧ m = 2) ∨ (k = 2 ∧ m = 0 ∨ k = 2 ∧ m = 1) := by
    omega
  rcases which with (⟨rfl, rfl⟩ | ⟨rfl, rfl⟩) | (⟨rfl, rfl⟩ | ⟨rfl, rfl⟩) | (⟨rfl, rfl⟩ | ⟨rfl, rfl⟩) <;> rfl

/-- A write leaves a memory's bytes with the bytes written and sets sidebands at most. -/
theorem memOf_memWrite (k a : Nat) (bs : List Byte) (x : TileState) (m : Nat) :
    memOf (memWrite k a bs x) m = memOf (setMem k (storeBytes a bs (memOf x k)) x) m := by
  unfold memWrite
  dsimp only
  split
  · exact memOf_stampUnits _ _ _ _
  · rfl

theorem memRead_memWrite_inside (k a : Nat) (bs : List Byte) (x : TileState) {i n : Nat} (h : i + n ≤ bs.length) :
    memRead (memWrite k a bs x) k (a + i) n = (bs.drop i).take n := by
  rw [memRead, memOf_memWrite, memOf_setMem_same, cellsRead_storeBytes_inside _ n i h]

theorem memRead_memWrite_outside {m k : Nat} (hm : m < 3) (hk : k < 3) {a b n : Nat} {bs : List Byte}
    (h : m ≠ k ∨ b + n ≤ a ∨ a + bs.length ≤ b) (x : TileState) :
    memRead (memWrite k a bs x) m b n = memRead x m b n := by
  rw [memRead, memOf_memWrite]
  by_cases e : m = k
  · subst e
    rw [memOf_setMem_same, cellsRead_storeBytes_outside _ n b (h.resolve_left fun ne => ne rfl), memRead]
  · rw [memOf_setMem_ne hm hk e, memRead]

theorem memWrite_v (k a : Nat) (bs : List Byte) (x : TileState) : (memWrite k a bs x).v = x.v := by
  have set : ∀ c, (setMem k c x).v = x.v := by
    intro c
    unfold setMem
    split
    · rfl
    · split <;> rfl
  unfold memWrite
  dsimp only
  split
  · exact set _
  · exact set _

/-! ### Lanes of a vector register (R102) -/

theorem vlane_lt (x : TileState) (r l : Nat) : vlane x r l < 2 ^ 32 := BitVec.isLt _

/-- A fold that sets the keys `b + l` of the marked `l` of a list, one after another. -/
theorem tget_foldl_tset {α : Type} [DecidableEq α] (d : Nat → α) (b : Nat) (p : Nat → Bool) (g : Nat → α) (j : Nat) :
    ∀ (ls : List Nat) (m : Table α), tget d (ls.foldl (fun m l => if p l then tset d (b + l) (g l) m else m) m) (b + j) =
      if j ∈ ls ∧ p j then g j else tget d m (b + j)
  | [], m => by simp
  | l :: ls, m => by
    rw [List.foldl_cons, tget_foldl_tset d b p g j ls]
    by_cases hl : j = l
    · subst hl
      cases hp : p j <;> simp
    · have ne : b + j ≠ b + l := by omega
      cases hp : p l <;> simp [hl, tget_tset_of_ne _ ne]

theorem tget_foldl_tset_ne {α : Type} [DecidableEq α] (d : Nat → α) (b : Nat) (p : Nat → Bool) (g : Nat → α) {i : Nat} :
    ∀ (ls : List Nat) (m : Table α), (∀ l ∈ ls, i ≠ b + l) →
      tget d (ls.foldl (fun m l => if p l then tset d (b + l) (g l) m else m) m) i = tget d m i
  | [], _, _ => rfl
  | l :: ls, m, h => by
    rw [List.foldl_cons, tget_foldl_tset_ne d b p g ls _ fun l hl => h l (List.mem_cons_of_mem _ hl)]
    have ne := h l List.mem_cons_self
    split
    · exact tget_tset_of_ne _ ne _ _
    · rfl

/-- A lane of the register written: the new value where the predicate bit is 1. -/
theorem vlane_writeLanes_same (r pred : Nat) (f : Nat → Nat) (x : TileState) {l : Nat} (hl : l < 64) :
    vlane (writeLanes r pred f x) r l = if bit1 pred l then f l % 2 ^ 32 else vlane x r l := by
  have h := tget_foldl_tset (fun _ => (0 : BitVec 32)) (64 * (r % 32)) (bit1 pred) (fun l => BitVec.ofNat 32 (f l)) l
    (List.range 64) x.v
  unfold vlane writeLanes
  rw [h]
  cases hp : bit1 pred l <;> simp [hl]

/-- Every other register keeps its lanes. -/
theorem vlane_writeLanes_ne {r r' : Nat} (hr : r' % 32 ≠ r % 32) (pred : Nat) (f : Nat → Nat) (x : TileState) {l : Nat}
    (hl : l < 64) : vlane (writeLanes r pred f x) r' l = vlane x r' l := by
  unfold vlane writeLanes
  rw [tget_foldl_tset_ne]
  intro j hj
  have := List.mem_range.mp hj
  omega

@[simp] theorem writeLanes_wm (r pred : Nat) (f : Nat → Nat) (x : TileState) : (writeLanes r pred f x).wm = x.wm := rfl

@[simp] theorem writeLanes_am (r pred : Nat) (f : Nat → Nat) (x : TileState) : (writeLanes r pred f x).am = x.am := rfl

@[simp] theorem writeLanes_pm (r pred : Nat) (f : Nat → Nat) (x : TileState) : (writeLanes r pred f x).pm = x.pm := rfl

@[simp] theorem writeLanes_istore (r pred : Nat) (f : Nat → Nat) (x : TileState) :
    (writeLanes r pred f x).istore = x.istore := rfl

/-! ### Scalar registers (R101) -/

theorem scalar_lt (x : TileState) (r : Nat) : scalar x r < 2 ^ 64 := BitVec.isLt _

theorem scalar_setScalar_same (r v : Nat) (x : TileState) : scalar (setScalar r v x) r = v % 2 ^ 64 := by
  simp [scalar, setScalar]

theorem scalar_setScalar_ne {r r' : Nat} (h : r' % 16 ≠ r % 16) (v : Nat) (x : TileState) :
    scalar (setScalar r v x) r' = scalar x r' := by
  simp [scalar, setScalar, tget_tset_of_ne _ h]

end Sys2Proof.Machine
end

section
/-! Issuing and retiring an instruction of the stream processor: when it may issue the command's effect is carried out, and
what retiring leaves of the rest of the machine (R102, R103, R106, R108, R110, R330). -/

namespace Sys2Proof.Machine

open Sys2Proof

/-! ### Reading memories without errors (R330) -/

theorem readRange_of_no_errs {t : Nat} {s : State} (h : (tile s t).errs = []) (k u n : Nat) :
    readRange t k u n s = (true, s) := by
  simp [readRange, correctRange, correctWords, rangeBad, h]

/-! ### Issue -/

/-- When the stream processor may issue, the command's effect is carried out on the state as it is. -/
theorem spIssue_ready {m : Nat → Bool} {t : Nat} {k : KernelRun} {s : State} (ready : SpReady m t k s)
    (f : KernelRun → State → State) : spIssue t m f s = f k s := by
  obtain ⟨kernel, works, micro, length, word, errs⟩ := ready
  simp [spIssue, kernel, works, micro, Nat.not_le.mpr length, word, readRange_of_no_errs errs]

/-- An access within the task's bounds gets its byte address. -/
theorem spAccess_admitted {m : Nat → Bool} {t : Nat} {k : KernelRun} {s : State} (ready : SpReady m t k s)
    {mem off n : Nat} (h : spAdmits (runTask s t k) mem off n = true) (store : Bool) (f : Nat → KernelRun → State → State) :
    spAccess t m mem off n store f s = f (64 * taskBase (runTask s t k) mem + off) k s := by
  rw [spAccess, spIssue_ready ready]
  cases store <;> simp [h, readRange_of_no_errs ready.errs]

/-- An access outside the task's bounds records SP_BOUND (R106). -/
theorem spAccess_refused {m : Nat → Bool} {t : Nat} {k : KernelRun} {s : State} (ready : SpReady m t k s)
    {mem off n : Nat} (h : spAdmits (runTask s t k) mem off n = false) (store : Bool)
    (f : Nat → KernelRun → State → State) : spAccess t m mem off n store f s = spFault t tfSpBound k s := by
  rw [spAccess, spIssue_ready ready]
  simp [h]

/-- A command whose meaning is an effect of a powered device completes with that effect. -/
theorem completes_powered {c : Instr} {s : State} {P : State → Prop} (on : On s) (f : State → State)
    (hc : exec c s = .next (powered f s)) (h : P (f s)) : Completes c s P :=
  ⟨f s, by rw [hc, powered_on on], h⟩

/-! ### Changes of one tile -/

theorem updTile_same (t : Nat) (f : TileState → TileState) (s : State) :
    updTile t f s = { s with tiles := (updTile t f s).tiles } := rfl

theorem updTile_others (t : Nat) (f : TileState → TileState) (s : State) : OtherTiles t s (updTile t f s) :=
  fun _ h => tile_updTile_ne h f s

@[simp] theorem tile_upd (off : Nat) (f : Fld) (x : Nat) (s : State) (t : Nat) : tile (upd off f x s) t = tile s t := rfl

@[simp] theorem counting_updTile (t u : Nat) (f : TileState → TileState) (s : State) :
    counting (updTile u f s) t = counting s t := rfl

/-! ### Counters of a tile (R120) -/

@[simp] theorem tile_tileCount1 (t off n : Nat) (s : State) (u : Nat) : tile (tileCount1 t off n s) u = tile s u := by
  unfold tileCount1
  split <;> rfl

theorem tileCount1_same (t off n : Nat) (s : State) :
    tileCount1 t off n s = { s with regs := (tileCount1 t off n s).regs } := by
  unfold tileCount1
  split <;> rfl

theorem tileCount1_regs (t off n : Nat) (s : State) : RegsBut (· = off) s (tileCount1 t off n s) := by
  unfold tileCount1
  exact .ite (regsBut_put (p := (· = off)) rfl _ _) (.refl _ _)

theorem rd_tileCount1 {t : Nat} {s : State} (h : counting s t = true) (off : Nat) :
    rd (tileCount1 t off 1 s) off = rd s off + 1 := by
  rw [tileCount1, h]
  exact rd_put_same _ _ _

/-! ### Retiring (R110, R120) -/

/-- Where a kernel goes on after its present instruction. -/
def KernelRun.advanced (k : KernelRun) : KernelRun :=
  { k with pc := (afterInstr k.pc k.loops).1, loops := (afterInstr k.pc k.loops).2 }

theorem retire_eq (t : Nat) (k : KernelRun) (s : State) :
    retire t k s = tileCount1 t (tilCnt t TilCnt.tilSpinstrCnt) 1 (setKernel t k.advanced s) := rfl

/-- Retiring an instruction changes the tile's kernel and nothing else of the tile. -/
@[simp] theorem tile_retire (t : Nat) (k : KernelRun) (s : State) :
    tile (retire t k s) t = { tile s t with kernel := some k.advanced } := by
  rw [retire_eq, tile_tileCount1, setKernel, tile_updTile_same]

/-- Retiring after a change of the tile and of registers `p`, none of them of the tile's counting. -/
theorem retire_retired {p : Nat → Prop} {t : Nat} {s s' : State} (k : KernelRun) (regs : RegsBut p s s')
    (ctrl : ¬ p (tilCtrl t)) (cnt : ¬ p (tilCnt t TilCnt.tilSpinstrCnt)) (others : OtherTiles t s s')
    (same : s' = { s with regs := s'.regs, tiles := s'.tiles }) : SpRetired p t k s (retire t k s') where
  kernel := by rw [tile_retire]; rfl
  count := by
    intro h
    have h' : counting (setKernel t k.advanced s') t = true := by
      rw [setKernel, counting_updTile, counting, get, regs _ ctrl]
      exact h
    rw [retire_eq, rd_tileCount1 h', setKernel, rd_updTile, regs _ cnt]
  regs o ho := by
    rw [not_or] at ho
    rw [retire_eq, tileCount1_regs _ _ _ _ o ho.1]
    exact regs o ho.2
  others u hu := by
    rw [retire_eq, tile_tileCount1, setKernel, tile_updTile_ne hu]
    exact others u hu
  same := by
    rw [retire_eq, tileCount1_same, setKernel, updTile_same, same]

/-- Retiring an instruction that has changed its tile only. -/
theorem retire_updTile (t : Nat) (k : KernelRun) (f : TileState → TileState) (s : State) :
    SpRetired (fun _ => False) t k s (retire t k (updTile t f s)) :=
  retire_retired k (fun _ _ => rd_updTile _ _ _ _) id id (updTile_others _ _ _) rfl

/-- Retiring an instruction that has written lanes of one vector register, besides registers of the device. -/
theorem retire_lanesWritten {t : Nat} {s s' : State} (h : tile s' t = tile s t) (k : KernelRun) (r pred : Nat)
    (f : Nat → Nat) : LanesWritten t r pred f s (retire t k (updTile t (writeLanes r pred f) s')) := by
  have kept : ∀ r' l, vlane (tile (retire t k (updTile t (writeLanes r pred f) s')) t) r' l =
      vlane (writeLanes r pred f (tile s t)) r' l := by
    intro r' l
    rw [tile_retire, tile_updTile_same, h]
    rfl
  refine ⟨fun l hl => ?_, fun r' l hr hl => ?_, ?_, ?_⟩
  · rw [kept, vlane_writeLanes_same _ _ _ _ hl]
  · rw [kept, vlane_writeLanes_ne hr _ _ _ hl]
  · rw [tile_retire, tile_updTile_same, h]
    rfl
  · rw [tile_retire, tile_updTile_same, h]
    rfl

/-- Memories are as they were when the tile's change leaves them. -/
theorem retire_tileMems {t : Nat} {s s' : State} (h : TileMems t s s') (k : KernelRun) : TileMems t s (retire t k s') := by
  unfold TileMems
  rw [tile_retire]
  exact h

theorem writeLanes_tileMems {t : Nat} {s s' : State} (h : tile s' t = tile s t) (r pred : Nat) (f : Nat → Nat) :
    TileMems t s (updTile t (writeLanes r pred f) s') := by
  unfold TileMems
  rw [tile_updTile_same, h]
  exact ⟨rfl, rfl, rfl, rfl⟩

theorem setScalar_tileMems (t r v : Nat) (s : State) : TileMems t s (updTile t (setScalar r v) s) := by
  unfold TileMems
  rw [tile_updTile_same]
  exact ⟨rfl, rfl, rfl, rfl⟩

theorem tileMems_of_eq {t : Nat} {s u : State} (h : tile u t = tile s t) : TileMems t s u := by
  unfold TileMems
  rw [h]
  exact ⟨rfl, rfl, rfl, rfl⟩

/-- A load: lanes of a register take values, and the memories are as they were. -/
theorem retire_writeLanes (t : Nat) (k : KernelRun) (r pred : Nat) (f : Nat → Nat) (s : State) :
    SpRetired (fun _ => False) t k s (retire t k (updTile t (writeLanes r pred f) s)) ∧
      TileMems t s (retire t k (updTile t (writeLanes r pred f) s)) ∧
      LanesWritten t r pred f s (retire t k (updTile t (writeLanes r pred f) s)) :=
  ⟨retire_updTile t k _ s, retire_tileMems (writeLanes_tileMems rfl r pred f) k,
    retire_lanesWritten rfl k r pred f⟩

/-! ### Stores (R106) -/

/-- The bytes stored stand in the memory at the address of the store. -/
theorem memRead_spStore_inside (t mem a : Nat) (bs : List Byte) (k : KernelRun) (s : State) {i n : Nat}
    (h : i + n ≤ bs.length) :
    memRead (tile (retire t k (spStore t mem a bs s)) t) mem (a + i) n = (bs.drop i).take n := by
  rw [tile_retire, spStore, tile_updTile_same]
  exact memRead_memWrite_inside _ _ _ _ h

/-- No byte outside a store changes. -/
theorem memRead_spStore_outside {mem : Nat} (hm : mem < 3) {a c : Nat} {bs : List Byte} (hc : bs.length = c) (t : Nat)
    (k : KernelRun) (s : State) (m b : Nat) (hm' : m < 3) (h : m ≠ mem ∨ b < a ∨ a + c ≤ b) :
    memRead (tile (retire t k (spStore t mem a bs s)) t) m b 1 = memRead (tile s t) m b 1 := by
  rw [tile_retire, spStore, tile_updTile_same]
  exact memRead_memWrite_outside hm' hm (by omega) _

theorem spStore_v (t mem a : Nat) (bs : List Byte) (k : KernelRun) (s : State) :
    (tile (retire t k (spStore t mem a bs s)) t).v = (tile s t).v := by
  rw [tile_retire, spStore, tile_updTile_same]
  exact memWrite_v _ _ _ _

theorem length_row (c : Nat) (f : Nat → Nat) (n : Nat) :
    ((List.range n).flatMap fun l => toBytes c (f l)).length = n * c := by
  induction n with
  | zero => rw [Nat.zero_mul, List.range_zero, List.flatMap_nil, List.length_nil]
  | succ n ih =>
    rw [List.range_succ, List.flatMap_append, List.flatMap_singleton, List.length_append, ih, length_toBytes,
      Nat.succ_mul]

/-- A row of equal elements stored: each stands at its place. -/
theorem memNat_spStore_row (t mem a c : Nat) (f : Nat → Nat) (k : KernelRun) (s : State) {l : Nat} (hl : l < 64)
    (hf : f l < 256 ^ c) :
    memNat (tile (retire t k (spStore t mem a ((List.range 64).flatMap fun l => toBytes c (f l)) s)) t) mem (a + c * l) c =
      f l := by
  have fits : c * l + c ≤ 64 * c := by
    rw [← Nat.mul_succ, Nat.mul_comm]
    exact Nat.mul_le_mul_right c hl
  rw [memNat, memRead_spStore_inside _ _ _ _ _ _ (by rw [length_row]; exact fits),
    take_drop_flatMap (fun _ => length_toBytes _ _) _ l (by rwa [List.length_range]), List.getElem_range, fromBytes_toBytes,
    Nat.mod_eq_of_lt hf]

/-- A number stored is read back. -/
theorem memNat_spStore (t mem a : Nat) (k : KernelRun) (s : State) {c v : Nat} (hv : v < 256 ^ c) :
    memNat (tile (retire t k (spStore t mem a (toBytes c v) s)) t) mem a c = v := by
  have h := memRead_spStore_inside t mem a (toBytes c v) k s (i := 0) (n := c) (by simp)
  rw [Nat.add_zero, List.drop_zero, List.take_of_length_le (by simp)] at h
  rw [memNat, h, fromBytes_toBytes, Nat.mod_eq_of_lt hv]

/-! ### What TIL_ARITH_STAT counts (R61, R79) -/

/-- Nothing has changed but TIL_ARITH_STAT of a tile. -/
def ArithStatOnly (t : Nat) (s u : State) : Prop := RegsBut (· = tilArithStat t) s u ∧ u = { s with regs := u.regs }

theorem noteSat_arithStat (t n : Nat) (s : State) : ArithStatOnly t s (noteSat t n s) := by
  unfold noteSat
  split
  · exact ⟨.refl _ _, rfl⟩
  · exact ⟨(regsBut_upd (p := (· = tilArithStat t)) rfl _ _ _).trans
      (regsBut_satAdd (p := (· = tilArithStat t)) rfl _ _ _), rfl⟩

theorem noteNar_arithStat (t n : Nat) (s : State) : ArithStatOnly t s (noteNar t n s) := by
  unfold noteNar
  split
  · exact ⟨.refl _ _, rfl⟩
  · exact ⟨(regsBut_upd (p := (· = tilArithStat t)) rfl _ _ _).trans
      (regsBut_satAdd (p := (· = tilArithStat t)) rfl _ _ _), rfl⟩

theorem noteConversions_arithStat (t : Nat) (xs : List Num) (out : List (Nat × Bool)) (s : State) :
    ArithStatOnly t s (noteConversions t xs out s) := by
  obtain ⟨narRegs, nar⟩ := noteNar_arithStat t (xs.filter (· == .nan)).length s
  obtain ⟨satRegs, sat⟩ := noteSat_arithStat t (out.filter (·.2)).length
    (noteNar t (xs.filter (· == .nan)).length s)
  exact ⟨narRegs.trans satRegs, by rw [noteConversions, sat, nar]⟩

end Sys2Proof.Machine
end

section
/-! A tile fault: the tile stops in HALT with the code in TIL_FAULT, whatever becomes of its graph and its batch, and its
memories and HBM are as they were (R114, R119, R144, R210). -/

namespace Sys2Proof.Machine

open Sys2Proof

/-- A tile's fault and state stand, its site is powered as before, and no tile and no byte of HBM has changed. -/
structure FaultStands (t : Nat) (s u : State) : Prop where
  fault : rd u (tilFault t) = rd s (tilFault t)
  stat : rd u (tilStat t) = rd s (tilStat t)
  pwr : rd u pwrState = rd s pwrState
  power : u.power = s.power
  boot : u.boot = s.boot
  tiles : u.tiles = s.tiles
  hbm : u.hbm = s.hbm

theorem FaultStands.refl (t : Nat) (s : State) : FaultStands t s s := ⟨rfl, rfl, rfl, rfl, rfl, rfl, rfl⟩

theorem FaultStands.trans {t : Nat} {s v u : State} (h : FaultStands t s v) (k : FaultStands t v u) :
    FaultStands t s u :=
  ⟨k.fault.trans h.fault, k.stat.trans h.stat, k.pwr.trans h.pwr, k.power.trans h.power, k.boot.trans h.boot,
    k.tiles.trans h.tiles, k.hbm.trans h.hbm⟩

theorem FaultStands.foldl {α : Type} {t : Nat} {f : State → α → State} :
    ∀ (l : List α), (∀ x ∈ l, ∀ s, FaultStands t s (f s x)) → ∀ s, FaultStands t s (l.foldl f s)
  | [], _, s => .refl t s
  | x :: l, h, s => (h x List.mem_cons_self s).trans
      (FaultStands.foldl l (fun y hy => h y (List.mem_cons_of_mem _ hy)) (f s x))

theorem put_faultStands {t off : Nat} (hf : tilFault t ≠ off) (hs : tilStat t ≠ off) (hp : pwrState ≠ off) (v : Reg)
    (s : State) : FaultStands t s (put off v s) :=
  ⟨rd_put_ne hf v s, rd_put_ne hs v s, rd_put_ne hp v s, rfl, rfl, rfl, rfl⟩

theorem req_faultStands (t : Nat) (r : ReqState) (s : State) : FaultStands t s { s with req := r } :=
  ⟨rfl, rfl, rfl, rfl, rfl, rfl, rfl⟩

/-- Registers of reports stand below the tiles' pages and apart from PWR_STATE. -/
theorem not_reportReg_of_page {off : Nat} (h : 0x1000000 ≤ off) : ¬ ReportReg off := by
  rintro (h1 | ⟨j, hj, h1 | h1 | h1⟩)
  · simp only [ledLogStat] at h1
    omega
  · simp only [queEvent] at h1
    omega
  · simp only [msixPba] at h1
    omega
  · simp only [msixPba] at h1
    omega

theorem not_reportReg_pwrState : ¬ ReportReg pwrState := by
  rintro (h1 | ⟨j, hj, h1 | h1 | h1⟩)
  · exact absurd h1 (by decide)
  · simp only [queEvent, pwrState] at h1
    omega
  · simp only [msixPba, pwrState] at h1
    omega
  · simp only [msixPba, pwrState] at h1
    omega

theorem Reports.faultStands {s u : State} (h : Reports s u) (t : Nat) : FaultStands t s u := by
  obtain ⟨regs, same⟩ := h
  refine ⟨regs _ (not_reportReg_of_page ?_), regs _ (not_reportReg_of_page ?_), regs _ not_reportReg_pwrState, ?_, ?_, ?_, ?_⟩
  · simp only [tilFault]
    omega
  · simp only [tilStat]
    omega
  all_goals rw [same]

/-! ### The batch fails (R210, R513) -/

theorem finishReq_faultStands (t id st : Nat) (s : State) : FaultStands t s (finishReq id st s) := by
  cases hf : findReq s id with
  | none => simpa [finishReq, hf] using .refl t s
  | some r =>
    cases hs : r.status with
    | some c => simpa [finishReq, hf, hs] using .refl t s
    | none => exact (req_faultStands t (madeDue id st s).req s).trans ((finishReq_of_open hf hs st).faultStands t)

theorem chunkFail_faultStands (t id cause detail : Nat) (s : State) : FaultStands t s (chunkFail id cause detail s) := by
  unfold chunkFail
  split
  · exact .refl t s
  · split
    · exact .refl t s
    · exact ((req_faultStands t _ s).trans (finishReq_faultStands t id _ _)).trans (req_faultStands t _ _)

theorem ledCnt_faultStands (t : Nat) {i : Nat} (hi : i < 32) (v : Reg) (s : State) :
    FaultStands t s (put (ledCnt i) v s) := by
  refine put_faultStands ?_ ?_ ?_ v s
  · simp only [tilFault, ledCnt]
    omega
  · simp only [tilStat, ledCnt]
    omega
  · simp only [pwrState, ledCnt]
    omega

theorem batchFail_faultStands (t status object detail : Nat) (s : State) :
    FaultStands t s (batchFail status object detail s) := by
  unfold batchFail
  split
  · exact .refl t s
  · refine FaultStands.trans ?_ (.foldl _ (fun id _ s => chunkFail_faultStands t id status detail s) _)
    exact ((ledCnt_faultStands t (by decide) _ s).trans (ledCnt_faultStands t (by decide) _ _)).trans
      (req_faultStands t _ _)

/-! ### The graph is halted (R144) -/

theorem haltReq_faultStands {t u : Nat} (h : u ≠ t) (s : State) : FaultStands t s (haltReq u s) := by
  have ctrl : ∀ v s, FaultStands t s (put (tilCtrl u) v s) := fun v s => by
    refine put_faultStands ?_ ?_ ?_ v s
    · simp only [tilFault, tilCtrl]
      omega
    · simp only [tilStat, tilCtrl]
      omega
    · simp only [pwrState, tilCtrl]
      omega
  have stat : ∀ v s, FaultStands t s (put (tilStat u) v s) := fun v s => by
    refine put_faultStands ?_ ?_ ?_ v s
    · simp only [tilFault, tilStat]
      omega
    · simp only [tilStat]
      omega
    · simp only [pwrState, tilStat]
      omega
  unfold haltReq
  dsimp only
  split
  · exact (ctrl _ s).trans (stat _ _)
  · exact ctrl _ s

theorem haltGraph_faultStands (t : Nat) (s : State) : FaultStands t s (haltGraph t s) :=
  .foldl _ (fun u hu s => haltReq_faultStands (by simpa using (List.mem_filter.mp hu).2) s) s

/-! ### The tile stops and its fault is held (R114, R119) -/

/-- Whether a tile's site is off follows from the map, the sites that are on and PWR_STATE. -/
theorem tileOff_congr {s u : State} (pwr : rd u pwrState = rd s pwrState) (power : u.power = s.power)
    (boot : u.boot = s.boot) (t : Nat) : tileOff u t = tileOff s t := by
  have live : fieldLive u = fieldLive s := by
    funext f
    rw [fieldLive, fieldLive, boot]
  have dev : devState u = devState s := by rw [devState, devState, get, get, pwr, power]
  have count : tileCount u = tileCount s := by rw [tileCount, tileCount, liveFields, liveFields, live]
  rw [tileOff, tileOff, count, siteOff, siteOff, dev, power, siteOf, siteOf, boot]

theorem tileSt_of_works {s : State} {t : Nat} (h : tileWorks s t = true) : tileOff s t = false ∧ tileSt s t ≠ tsIdle := by
  have st : tileSt s t = tsRun ∨ tileSt s t = tsDrain := by simpa [tileWorks] using h
  refine ⟨?_, ?_⟩
  · cases off : tileOff s t with
    | false => rfl
    | true => simp [tileSt, off, tsOff, tsRun, tsDrain] at st
  · rcases st with e | e <;> rw [e] <;> decide

/-- What stopping leaves of a tile: the vectors in its arrays and its kernel go (R114). -/
def TileState.stopped (x : TileState) : TileState :=
  { x with
    passes := (x.passes.filter fun r => r.phase != .running).map fun r => { job := r.job }
    kernel := none, frontAt := x.tclk, vecAt := 0, bubbleEnd := 0, beatAt := 0, beatEnd := 0 }

theorem stopTile_eq {t : Nat} {s : State} (h : tileSt s t ≠ tsIdle) :
    stopTile t s = upd (tilStat t) TilStat.front 0 (upd (tilStat t) TilStat.state tsHalt (updTile t TileState.stopped s)) :=
  congrArg (upd (tilStat t) TilStat.front 0) (if_neg fun e => h e.1)

theorem tilFault_ne_tilStat (t : Nat) : tilFault t ≠ tilStat t := by
  simp only [tilFault, tilStat]
  omega

theorem pwrState_ne_tilStat (t : Nat) : pwrState ≠ tilStat t := by
  simp only [pwrState, tilStat]
  omega

theorem pwrState_ne_tilFault (t : Nat) : pwrState ≠ tilFault t := by
  simp only [pwrState, tilFault]
  omega

/-- The first fault of a tile is held, with its code (R114, R119). -/
theorem recordFault_eq {t : Nat} {s : State} (busy : tileSt s t ≠ tsIdle) (hv : get s (tilFault t) TilFault.valid = 0)
    (code info : Nat) : recordFault t code info s = upd (tilFault t) TilFault.valid 1 (upd (tilFault t) TilFault.info info
      (upd (tilFault t) TilFault.code code (stopTile t s))) := by
  have ne := tilFault_ne_tilStat t
  have valid : get (stopTile t s) (tilFault t) TilFault.valid ≠ 1 := by
    rw [stopTile_eq busy, get_upd_ne ne, get_upd_ne ne, get_updTile, hv]
    decide
  exact if_neg valid

/-- What recording a fault leaves: the tile in HALT with the code in TIL_FAULT, its memories and HBM unchanged. -/
theorem recordFault_faulted {t : Nat} {s : State} (works : tileWorks s t = true)
    (hv : get s (tilFault t) TilFault.valid = 0) {code : Nat} (hc : code < 2 ^ 8) (info : Nat) :
    TileFaulted t code (recordFault t code info s) ∧ TileMems t s (recordFault t code info s) ∧
      (recordFault t code info s).hbm = s.hbm := by
  obtain ⟨on, busy⟩ := tileSt_of_works works
  have ne := (tilFault_ne_tilStat t).symm
  have neS := pwrState_ne_tilStat t
  have neF := pwrState_ne_tilFault t
  have off : tileOff (recordFault t code info s) t = tileOff s t := by
    refine tileOff_congr ?_ ?_ ?_ t
    all_goals rw [recordFault_eq busy hv, stopTile_eq busy]
    · simp only [rd_upd_ne neF, rd_upd_ne neS, rd_updTile]
    · rfl
    · rfl
  rw [TileFaulted, tileSt, off, on, if_neg (by decide), recordFault_eq busy hv, stopTile_eq busy]
  refine ⟨⟨?_, ?_, ?_⟩, ?_, rfl⟩
  · rw [get_upd_ne ne, get_upd_ne ne, get_upd_ne ne,
      get_upd_other _ _ _ _ _ (by decide) (by decide), get_upd_same _ _ _ _ (by decide)]
    rfl
  · rw [get_upd_same _ _ _ _ (by decide)]
    rfl
  · rw [get_upd_other _ _ _ _ _ (by decide) (by decide), get_upd_other _ _ _ _ _ (by decide) (by decide),
      get_upd_same _ _ _ _ (by decide)]
    exact Nat.mod_eq_of_lt hc
  · have kept : tile (updTile t TileState.stopped s) t = (tile s t).stopped := tile_updTile_same _ _ _
    unfold TileMems
    simp only [tile_upd, kept]
    exact ⟨rfl, rfl, rfl, rfl⟩

/-- A fault that stands has stopped its tile. -/
theorem FaultStands.faulted {t code : Nat} {s u : State} (h : FaultStands t s u) (f : TileFaulted t code s) :
    TileFaulted t code u := by
  obtain ⟨halt, valid, hcode⟩ := f
  refine ⟨?_, ?_, ?_⟩
  · rw [tileSt, tileOff_congr h.pwr h.power h.boot, get, h.stat]
    exact halt
  · rw [get, h.fault, ← get, valid]
  · rw [get, h.fault, ← get, hcode]

/-- A kernel's fault on a tile that works and holds no fault (R114, R119). -/
theorem spFault_faulted {t : Nat} {s : State} (works : tileWorks s t = true) (hv : get s (tilFault t) TilFault.valid = 0)
    {code : Nat} (hc : code < 2 ^ 8) (k : KernelRun) :
    TileFaulted t code (spFault t code k s) ∧ TileMems t s (spFault t code k s) ∧ (spFault t code k s).hbm = s.hbm := by
  obtain ⟨faulted, mems, hbm⟩ := recordFault_faulted works hv hc (runOffset (tile s t) k)
  have stands : FaultStands t (recordFault t code (runOffset (tile s t) k) s) (spFault t code k s) :=
    (((logCoded_reports _ _ _ _ _ _ _ _).faultStands t).trans (haltGraph_faultStands t _)).trans
      (batchFail_faultStands t _ t _ _)
  have same : tile (spFault t code k s) t = tile (recordFault t code (runOffset (tile s t) k) s) t := by
    rw [tile, stands.tiles, ← tile]
  refine ⟨stands.faulted faulted, ?_, stands.hbm.trans hbm⟩
  unfold TileMems
  rw [same]
  exact mems

end Sys2Proof.Machine
end

section
/-! The statement on loads, stores and conversions of the stream processor (R51, R60, R62, R103, R105, R106). -/

namespace Sys2Proof.Machine

open Sys2Proof

theorem spMem_lt (mem : SpMem) : spMem mem < 3 := by cases mem <;> decide

theorem predReg_p0 {p : Nat} (h : p % 4 = 0) (x : TileState) : predReg x p = 2 ^ 64 - 1 := if_pos h

/-! ### Vector and scalar loads and stores (R103, R106) -/

section VectorAndScalar

variable {t : TileId} {k : KernelRun} {mem : SpMem} {o : SpFields} {a : Nat} {s : State}

theorem completes_spVectorLoad (on : On s) (ready : SpReady (isInstr .memory o) t k s)
    (hb : spAdmits (runTask s t k) (spMem mem) o.imm 256 = true)
    (ha : a = 64 * taskBase (runTask s t k) (spMem mem) + o.imm) :
    Completes (.spVectorLoadStore t false mem o) s fun u => SpRetired (fun _ => False) t k s u ∧ TileMems t s u ∧
      LanesWritten t o.vd (predReg (tile s t) o.ps) (fun l => memNat (tile s t) (spMem mem) (a + 4 * l) 4) s u := by
  refine completes_powered on _ rfl ?_
  rw [spAccess_admitted ready hb, ← ha]
  exact retire_writeLanes t k _ _ _ s

theorem completes_spVectorStore (on : On s) (ready : SpReady (isInstr .memory o) t k s)
    (hb : spAdmits (runTask s t k) (spMem mem) o.imm 256 = true)
    (ha : a = 64 * taskBase (runTask s t k) (spMem mem) + o.imm) (hp : o.ps % 4 = 0) :
    Completes (.spVectorLoadStore t true mem o) s fun u => SpRetired (fun _ => False) t k s u ∧
      (∀ l, l < 64 → memNat (tile u t) (spMem mem) (a + 4 * l) 4 = vlane (tile s t) o.va l) ∧
      (∀ m b, m < 3 → (m ≠ spMem mem ∨ b < a ∨ a + 256 ≤ b) → memRead (tile u t) m b 1 = memRead (tile s t) m b 1) ∧
      (tile u t).v = (tile s t).v := by
  refine completes_powered on _ rfl ?_
  rw [spAccess_admitted ready hb, ← ha]
  dsimp only
  rw [if_pos rfl, if_pos (predReg_p0 hp _)]
  exact ⟨retire_updTile t k _ s, fun l hl => memNat_spStore_row _ _ _ _ _ _ _ hl (vlane_lt _ _ _),
    memRead_spStore_outside (spMem_lt mem) (length_row 4 _ 64) t k s, spStore_v _ _ _ _ _ _⟩

theorem completes_spScalarLoad (on : On s) (ready : SpReady (isInstr .memory o) t k s)
    (hb : spAdmits (runTask s t k) (spMem mem) o.imm 8 = true)
    (ha : a = 64 * taskBase (runTask s t k) (spMem mem) + o.imm) :
    Completes (.spScalarLoadStore t false mem o) s fun u => SpRetired (fun _ => False) t k s u ∧ TileMems t s u ∧
      scalar (tile u t) o.vd = memNat (tile s t) (spMem mem) a 8 ∧
      (∀ r, r % 16 ≠ o.vd % 16 → scalar (tile u t) r = scalar (tile s t) r) ∧ (tile u t).v = (tile s t).v := by
  refine completes_powered on _ rfl ?_
  rw [spAccess_admitted ready hb, ← ha]
  dsimp only
  rw [if_neg Bool.false_ne_true]
  refine ⟨retire_updTile t k _ s, retire_tileMems (setScalar_tileMems _ _ _ _) k, ?_, fun r hr => ?_, ?_⟩
  · rw [tile_retire, tile_updTile_same]
    exact (scalar_setScalar_same _ _ _).trans (Nat.mod_eq_of_lt (memNat_lt _ _ _ _))
  · rw [tile_retire, tile_updTile_same]
    exact scalar_setScalar_ne hr _ _
  · rw [tile_retire, tile_updTile_same]
    rfl

theorem completes_spScalarStore (on : On s) (ready : SpReady (isInstr .memory o) t k s)
    (hb : spAdmits (runTask s t k) (spMem mem) o.imm 8 = true)
    (ha : a = 64 * taskBase (runTask s t k) (spMem mem) + o.imm) :
    Completes (.spScalarLoadStore t true mem o) s fun u => SpRetired (fun _ => False) t k s u ∧
      memNat (tile u t) (spMem mem) a 8 = scalar (tile s t) o.va ∧
      (∀ m b, m < 3 → (m ≠ spMem mem ∨ b < a ∨ a + 8 ≤ b) → memRead (tile u t) m b 1 = memRead (tile s t) m b 1) := by
  refine completes_powered on _ rfl ?_
  rw [spAccess_admitted ready hb, ← ha]
  dsimp only
  rw [if_pos rfl]
  refine ⟨retire_updTile t k _ s, ?_, memRead_spStore_outside (spMem_lt mem) (length_toBytes 8 _) t k s⟩
  exact memNat_spStore _ _ _ _ _ (scalar_lt _ _)

theorem completes_spVectorLoad_refused (on : On s) (ready : SpReady (isInstr .memory o) t k s)
    (hb : spAdmits (runTask s t k) (spMem mem) o.imm 256 = false) (hv : get s (tilFault t) TilFault.valid = 0) :
    Completes (.spVectorLoadStore t false mem o) s fun u => TileFaulted t 5 u ∧ TileMems t s u ∧ u.hbm = s.hbm := by
  refine completes_powered on _ rfl ?_
  rw [spAccess_refused ready hb]
  exact spFault_faulted ready.works hv (by decide) k

end VectorAndScalar

/-! ### Register triples (R105) -/

theorem tripleOf_lt (x : TileState) (r l : Nat) : tripleOf x r l < 256 ^ 12 := by
  have h0 := vlane_lt x r l
  have h1 := vlane_lt x (r + 1) l
  have h2 := vlane_lt x (r + 2) l
  unfold tripleOf
  omega

@[simp] theorem tripleOf_retire (t : Nat) (k : KernelRun) (s : State) (r l : Nat) :
    tripleOf (tile (retire t k s) t) r l = tripleOf (tile s t) r l := by
  rw [tile_retire]
  rfl

/-- A value cut into three words of 32 bits is put together again. -/
theorem words_of_lt {n : Nat} (h : n < 256 ^ 12) :
    bits n 0 32 + bits n 32 32 * 2 ^ 32 + bits n 64 32 * 2 ^ 64 = n := by
  simp only [bits, Nat.shiftRight_eq_div_pow]
  omega

/-- Three registers written with the words of a value hold that value in each predicated lane. -/
theorem tripleOf_writeLanes (r pred : Nat) {f : Nat → Nat} (hf : ∀ l, f l < 256 ^ 12)
    (x : TileState) {l : Nat} (hl : l < 64) (hp : bit1 pred l = true) :
    tripleOf (writeLanes (r + 2) pred (fun l => bits (f l) 64 32) (writeLanes (r + 1) pred (fun l => bits (f l) 32 32)
      (writeLanes r pred (fun l => bits (f l) 0 32) x))) r l = f l := by
  have cut : ∀ lo, bits (f l) lo 32 % 2 ^ 32 = bits (f l) lo 32 := fun lo => Nat.mod_mod _ _
  rw [tripleOf, vlane_writeLanes_ne (by omega) _ _ _ hl, vlane_writeLanes_ne (by omega) _ _ _ hl,
    vlane_writeLanes_same _ _ _ _ hl, vlane_writeLanes_ne (by omega) _ _ _ hl, vlane_writeLanes_same _ _ _ _ hl,
    vlane_writeLanes_same _ _ _ _ hl, if_pos hp, if_pos hp, if_pos hp, cut, cut, cut, words_of_lt (hf l)]

section Triples

variable {t : TileId} {k : KernelRun} {o : SpFields} {a : Nat} {s : State}

theorem completes_spLa96Load (on : On s) (ready : SpReady (isInstr .memory o) t k s)
    (hb : spAdmits (runTask s t k) memPm o.imm 768 = true) (ha : a = 64 * taskBase (runTask s t k) memPm + o.imm)
    (hr : o.vd ≤ 29) :
    Completes (.spLa96LoadStore t false o) s fun u => SpRetired (fun _ => False) t k s u ∧ TileMems t s u ∧
      ∀ l, l < 64 → bit1 (predReg (tile s t) o.ps) l = true →
        tripleOf (tile u t) o.vd l = memNat (tile s t) memPm (a + 12 * l) 12 := by
  refine completes_powered on _ rfl ?_
  rw [if_neg Bool.false_ne_true, if_neg (Nat.not_lt.mpr hr), spAccess_admitted ready hb, ← ha]
  dsimp only
  rw [if_neg Bool.false_ne_true]
  refine ⟨retire_updTile t k _ s, retire_tileMems ?_ k, fun l hl hp => ?_⟩
  · simp only [TileMems, tile_updTile_same, writeLanes_wm, writeLanes_am, writeLanes_pm, writeLanes_istore, and_self]
  · rw [tripleOf_retire, tile_updTile_same, tripleOf_writeLanes _ _ (fun l => memNat_lt _ _ (a + 12 * l) 12) _ hl hp]

theorem completes_spLa96Store (on : On s) (ready : SpReady (isInstr .memory o) t k s)
    (hb : spAdmits (runTask s t k) memPm o.imm 768 = true) (ha : a = 64 * taskBase (runTask s t k) memPm + o.imm)
    (hr : o.va ≤ 29) :
    Completes (.spLa96LoadStore t true o) s fun u => SpRetired (fun _ => False) t k s u ∧
      (∀ l, l < 64 → memNat (tile u t) memPm (a + 12 * l) 12 = tripleOf (tile s t) o.va l) ∧
      (∀ m b, m < 3 → (m ≠ memPm ∨ b < a ∨ a + 768 ≤ b) → memRead (tile u t) m b 1 = memRead (tile s t) m b 1) := by
  refine completes_powered on _ rfl ?_
  rw [if_pos rfl, if_neg (Nat.not_lt.mpr hr), spAccess_admitted ready hb, ← ha]
  dsimp only
  rw [if_pos rfl]
  exact ⟨retire_updTile t k _ s, fun l hl => memNat_spStore_row _ _ _ _ _ _ _ hl (tripleOf_lt _ _ _),
    memRead_spStore_outside (by decide) (length_row 12 _ 64) t k s⟩

/-- A triple that would start above v29 (log entry 61). -/
theorem completes_spLa96Load_illegal (on : On s) (ready : SpReady (isInstr .memory o) t k s) (hr : 29 < o.vd)
    (hv : get s (tilFault t) TilFault.valid = 0) :
    Completes (.spLa96LoadStore t false o) s fun u => TileFaulted t 4 u ∧ TileMems t s u ∧ u.hbm = s.hbm := by
  refine completes_powered on _ rfl ?_
  rw [if_neg Bool.false_ne_true, if_pos hr, spIssue_ready ready]
  exact spFault_faulted ready.works hv (by decide) k

theorem completes_spAnchorRead (on : On s) (ready : SpReady (isInstr .memory o) t k s)
    (hb : spAdmits (runTask s t k) memAm o.imm 1 = true) :
    Completes (.spAnchorRead t o) s fun u => SpRetired (fun _ => False) t k s u ∧ TileMems t s u ∧
      scalar (tile u t) o.vd = unsigned 64 (signed 16
        (anchorWord t (tile s t) ((64 * taskBase (runTask s t k) memAm + o.imm) / 64))) % 2 ^ 64 := by
  refine completes_powered on _ rfl ?_
  rw [spAccess_admitted ready hb]
  refine ⟨retire_updTile t k _ s, retire_tileMems (setScalar_tileMems _ _ _ _) k, ?_⟩
  rw [tile_retire, tile_updTile_same]
  exact scalar_setScalar_same _ _ _

/-! ### Conversions, counted in TIL_ARITH_STAT (R60, R61, R62) -/

/-- Lanes written after conversions that TIL_ARITH_STAT counts. -/
theorem retire_counted {s' : State} (h : ArithStatOnly t s s') (r pred : Nat) (f : Nat → Nat) :
    SpRetired (· = tilArithStat t) t k s (retire t k (updTile t (writeLanes r pred f) s')) ∧
      TileMems t s (retire t k (updTile t (writeLanes r pred f) s')) ∧
      LanesWritten t r pred f s (retire t k (updTile t (writeLanes r pred f) s')) := by
  obtain ⟨regs, same⟩ := h
  have tiles : ∀ u, tile s' u = tile s u := fun u => by
    rw [same]
    rfl
  refine ⟨retire_retired k regs ?_ ?_ (fun u hu => (tile_updTile_ne hu _ _).trans (tiles u)) ?_,
    retire_tileMems (writeLanes_tileMems (tiles t) _ _ _) k, retire_lanesWritten (tiles t) k r pred f⟩
  · simp only [tilCtrl, tilArithStat]
    omega
  · simp only [tilCnt, tilArithStat]
    omega
  · rw [updTile_same, same]

theorem completes_spLa96Convert (on : On s) (fmt : OutFmt) (ready : SpReady (isInstr .convert o) t k s)
    (hr : o.va ≤ 29) :
    Completes (.spLa96Convert t fmt o) s fun u => SpRetired (· = tilArithStat t) t k s u ∧ TileMems t s u ∧
      LanesWritten t o.vd (predReg (tile s t) o.ps) (fun l => (finalCode (outFmtCode fmt)
        (laNum (laOf (tripleOf (tile s t) o.va l)) (signed 64 (scalar (tile s t) o.vb)) (signed 32 o.imm))).1) s u := by
  refine completes_powered on _ rfl ?_
  rw [spIssue_ready ready, if_neg (Nat.not_lt.mpr hr)]
  exact retire_counted (noteConversions_arithStat _ _ _ _) _ _ _

theorem completes_spMxPack (on : On s) (fmt : MxElem) (ready : SpReady (isInstr .convert o) t k s)
    {vs : List Machine.Num} (hvs : vs = (List.range 32).map fun l => decodeFp fFp32 (vlane (tile s t) o.va l)) :
    Completes (.spMxPack t fmt o) s fun u => SpRetired (· = tilArithStat t) t k s u ∧ TileMems t s u ∧
      LanesWritten t o.vd (predReg (tile s t) o.ps % 2 ^ 33) (fun l => if l = 32 then mxScale fmt vs
        else ((vs.map (mxElement fmt (mxScale fmt vs))).getD l (0, false)).1) s u := by
  subst hvs
  refine completes_powered on _ rfl ?_
  rw [spIssue_ready ready]
  exact retire_counted (noteSat_arithStat _ _ _) _ _ _

end Triples

/-- Settles O28: each instruction's access is admitted, converted or refused, and what it writes is read back. -/
theorem tileMemoryInstructions : Obligations.TileMemoryInstructions := by
  unfold Obligations.TileMemoryInstructions
  refine ⟨?_, ?_, ?_, ?_, ?_, ?_, ?_⟩
  · exact fun t k mem o a s on ready hb ha =>
      ⟨completes_spVectorLoad on ready hb ha, completes_spVectorStore on ready hb ha⟩
  · exact fun t k mem o a s on ready hb ha =>
      ⟨completes_spScalarLoad on ready hb ha, completes_spScalarStore on ready hb ha⟩
  · exact fun t k o a s on ready hb ha => ⟨completes_spLa96Load on ready hb ha, completes_spLa96Store on ready hb ha,
      completes_spLa96Load_illegal on ready⟩
  · exact fun t k o s on ready hb => completes_spAnchorRead on ready hb
  · exact fun t k fmt o s on ready hr => completes_spLa96Convert on fmt ready hr
  · exact fun t k fmt o vs s on ready hvs => completes_spMxPack on fmt ready hvs
  · exact fun t k mem o s on ready hb hv => completes_spVectorLoad_refused on ready hb hv

end Sys2Proof.Machine
end

section
/-! What a routine of the microcode sends, and what that leaves of the machine: a control packet that awaits its answer
(R249, R252, R253), and words on a lattice channel (R217, R222, R226, R228, R229). -/

namespace Sys2Proof.Machine

open Sys2Proof

/-! ### Packets (R239, R240, R249) -/

/-- Tiles, HBM, requests and the packets that await an answer are as they were. -/
structure PacketKeeps (s u : State) : Prop where
  tiles : u.tiles = s.tiles
  hbm : u.hbm = s.hbm
  req : u.req = s.req
  awaits : u.net.awaits = s.net.awaits

theorem PacketKeeps.refl (s : State) : PacketKeeps s s := ⟨rfl, rfl, rfl, rfl⟩

theorem PacketKeeps.trans {s v u : State} (h : PacketKeeps s v) (k : PacketKeeps v u) : PacketKeeps s u :=
  ⟨k.tiles.trans h.tiles, k.hbm.trans h.hbm, k.req.trans h.req, k.awaits.trans h.awaits⟩

theorem Reports.packetKeeps {s u : State} (h : Reports s u) : PacketKeeps s u := by
  obtain ⟨-, same⟩ := h
  constructor <;> rw [same]

theorem nicStart_keeps (g p : Nat) (data : Bool) (s : State) : PacketKeeps s (nicStart g p data s) := by
  unfold nicStart
  dsimp only
  split
  · exact .refl s
  · split
    · exact ⟨rfl, rfl, rfl, rfl⟩
    · exact .refl s

theorem nicFill_keeps (g p : Nat) (s : State) : PacketKeeps s (nicFill g p s) :=
  (((((nicStart_keeps g p _ s).trans (nicStart_keeps g p _ _)).trans (nicStart_keeps g p _ _)).trans
    (nicStart_keeps g p _ _)).trans (nicStart_keeps g p _ _)).trans (nicStart_keeps g p _ _)

theorem inject_keeps (p : Packet) (s : State) : PacketKeeps s (inject p s) := by
  unfold inject injectAtPort
  dsimp only
  refine PacketKeeps.trans ?_ (nicFill_keeps _ _ _)
  exact ⟨rfl, rfl, rfl, rfl⟩

theorem countRsvd_keeps (g : Nat) (s : State) : PacketKeeps s (countRsvd g s) :=
  PacketKeeps.trans (v := satAdd (conRouterStat g) ConRouterStat.rsvd 1 s) ⟨rfl, rfl, rfl, rfl⟩
    (logOpen_reports _ _ _ _ _ _ _).packetKeeps

theorem send_keeps (p : Packet) (s : State) : PacketKeeps s (send p s) := by
  unfold send
  split
  · dsimp only
    split
    · exact inject_keeps _ _
    · exact countRsvd_keeps _ _
  · split
    · exact inject_keeps _ _
    · split
      · exact (logOpen_reports _ _ _ _ _ _ _).packetKeeps
      · exact ⟨rfl, rfl, rfl, rfl⟩

/-- What waits for the answer of a control packet sent now (R249). -/
def awaitOf (src dst opc : Nat) (payload : List Byte) (s : State) : Await :=
  { src := src, txid := (nextTxid src s).1, opc := opc, pkt := ctlPacket s src dst opc (nextTxid src s).1 payload
    due := s.devtime + ctlTicks s }

/-- An answer is awaited besides those that were. -/
def awaiting (a : Await) (s : State) : State := { s with net := { s.net with awaits := s.net.awaits ++ [a] } }

theorem sendAwaited_eq (src dst opc : Nat) (payload : List Byte) (s : State) : sendAwaited src dst opc payload s =
    send (awaitOf src dst opc payload s).pkt (awaiting (awaitOf src dst opc payload s) (nextTxid src s).2) := rfl

/-- A packet sent to be answered waits for its answer. -/
theorem mem_awaits_sendAwaited (src dst opc : Nat) (payload : List Byte) (s : State) :
    awaitOf src dst opc payload s ∈ (sendAwaited src dst opc payload s).net.awaits := by
  rw [sendAwaited_eq, (send_keeps _ _).awaits]
  exact List.mem_append_right _ (List.mem_singleton.mpr rfl)

theorem sendAwaited_tiles (src dst opc : Nat) (payload : List Byte) (s : State) :
    (sendAwaited src dst opc payload s).tiles = s.tiles := (send_keeps _ _).tiles

theorem sendAwaited_hbm (src dst opc : Nat) (payload : List Byte) (s : State) :
    (sendAwaited src dst opc payload s).hbm = s.hbm := (send_keeps _ _).hbm

theorem sendAwaited_req (src dst opc : Nat) (payload : List Byte) (s : State) :
    (sendAwaited src dst opc payload s).req = s.req := (send_keeps _ _).req

/-! ### The lattice -/

/-- Sending on the lattice changes registers and, of each tile, what is in flight to it, the ends of its channels and the
digests of its items; no channel gains or loses a credit. -/
structure LaneSent (s u : State) : Prop where
  same : u = { s with regs := u.regs, tiles := u.tiles }
  tile : ∀ t, tile u t = { tile s t with
    flight := (tile u t).flight, chans := (tile u t).chans, digest := (tile u t).digest, shadow := (tile u t).shadow }
  credits : ∀ t ch, (chan u t ch).credits = (chan s t ch).credits

theorem LaneSent.refl (s : State) : LaneSent s s := ⟨rfl, fun _ => rfl, fun _ _ => rfl⟩

theorem LaneSent.trans {s v u : State} (h : LaneSent s v) (k : LaneSent v u) : LaneSent s u := by
  refine ⟨?_, fun t => ?_, fun t ch => (k.credits t ch).trans (h.credits t ch)⟩
  · rw [k.same, h.same]
  · rw [k.tile t, h.tile t]

theorem LaneSent.foldl {α : Type} {f : State → α → State} (hf : ∀ s x, LaneSent s (f s x)) :
    ∀ (l : List α) (s : State), LaneSent s (l.foldl f s)
  | [], s => .refl s
  | x :: l, s => (hf s x).trans (LaneSent.foldl hf l (f s x))

theorem LaneSent.ite {c : Prop} [Decidable c] {s v u : State} (h : LaneSent s v) (k : LaneSent s u) :
    LaneSent s (if c then v else u) := by
  split
  · exact h
  · exact k

theorem put_laneSent (off : Nat) (v : Reg) (s : State) : LaneSent s (put off v s) := ⟨rfl, fun _ => rfl, fun _ _ => rfl⟩

theorem satAdd_laneSent (off : Nat) (f : Fld) (n : Nat) (s : State) : LaneSent s (satAdd off f n s) := put_laneSent _ _ _

/-- A change of one tile that touches only what sending touches and no credit. -/
theorem updTile_laneSent (t : Nat) {f : TileState → TileState} {s : State}
    (hf : f (tile s t) = { tile s t with
      flight := (f (tile s t)).flight, chans := (f (tile s t)).chans, digest := (f (tile s t)).digest
      shadow := (f (tile s t)).shadow })
    (hc : ∀ ch, (tget (fun _ => ({} : ChanRun)) (f (tile s t)).chans ch).credits = (chan s t ch).credits) :
    LaneSent s (updTile t f s) := by
  refine ⟨rfl, fun u => ?_, fun u ch => ?_⟩
  · by_cases h : u = t
    · rw [h, tile_updTile_same]
      exact hf
    · rw [tile_updTile_ne h]
  · by_cases h : u = t
    · rw [h, chan, tile_updTile_same]
      exact hc ch
    · rw [chan, tile_updTile_ne h, ← chan]

theorem chan_setChan_same (t ch : Nat) (c : ChanRun) (s : State) : chan (setChan t ch c s) t ch = c := by
  rw [chan, setChan, tile_updTile_same]
  exact tget_tset_same _ _ _ _

theorem setChan_laneSent {t ch : Nat} {c : ChanRun} {s : State} (h : c.credits = (chan s t ch).credits) :
    LaneSent s (setChan t ch c s) := by
  refine updTile_laneSent t rfl fun ch' => ?_
  by_cases e : ch' = ch
  · rw [e, tget_tset_same, h]
  · rw [tget_tset_of_ne _ e, ← chan]

theorem flyWords_laneSent (t q op : Nat) (ws : List (List LaneWord)) (n : Nat) (s : State) :
    LaneSent s (flyWords t q op ws n s) := updTile_laneSent t rfl fun _ => rfl

theorem addItems_laneSent (t d : Nat) (items : List (List Byte)) (s : State) : LaneSent s (addItems t d items s) := by
  unfold addItems
  refine .ite (.refl s) ?_
  cases isShadow s t d with
  | true => exact updTile_laneSent t rfl fun _ => rfl
  | false => exact updTile_laneSent t rfl fun _ => rfl

theorem dropAside_laneSent (e n : Nat) (s : State) : LaneSent s (dropAside e n s) :=
  .foldl (fun s u => satAdd_laneSent (latStat u) _ _ s) _ s

theorem gatherAt_laneSent (t ch k : Nat) (bs : List Byte) (s : State) : LaneSent s (gatherAt t ch k bs s) :=
  setChan_laneSent rfl

/-- More words on a channel's wire. -/
theorem setChan_wire_laneSent {t ch : Nat} {c : ChanRun} {s : State} (h : c = chan s t ch) (ws : List (List LaneWord)) :
    LaneSent s (setChan t ch { c with wire := ws } s) := by
  subst h
  exact setChan_laneSent rfl

theorem putOnWire_laneSent (t ch : Nat) (hdr : Option Nat) (bs : List Byte) (s : State) :
    LaneSent s (putOnWire t ch hdr bs s) := by
  unfold putOnWire
  refine .ite ?_ (.ite ?_ ?_)
  · exact (dropAside_laneSent _ _ s).trans (gatherAt_laneSent _ _ _ _ _)
  · exact (dropAside_laneSent _ _ s).trans (satAdd_laneSent _ _ _ _)
  · exact (dropAside_laneSent _ _ s).trans (setChan_wire_laneSent rfl _)

theorem sendPaid_laneSent (t ch hdr : Nat) (payload : List Byte) (s : State) :
    LaneSent s (sendPaid t ch hdr payload s) := by
  unfold sendPaid
  dsimp only
  split
  · exact putOnWire_laneSent _ _ _ _ _
  · split
    · exact ((satAdd_laneSent _ _ _ s).trans (satAdd_laneSent _ _ _ _)).trans (putOnWire_laneSent _ _ _ _ _)
    · exact putOnWire_laneSent _ _ _ _ _

theorem sendLattice_laneSent (t ch : Nat) (lead : Nat) (ops : List Nat) (s : State) :
    LaneSent s (sendLattice t ch lead ops s) := by
  unfold sendLattice
  refine .ite ?_ (.ite ?_ ?_)
  · exact (dropAside_laneSent _ _ s).trans (gatherAt_laneSent _ _ _ _ _)
  · exact (dropAside_laneSent _ _ s).trans (satAdd_laneSent _ _ _ _)
  · exact (dropAside_laneSent _ _ s).trans (.foldl (fun s o => flyWords_laneSent _ _ _ _ _ s) _ _)

/-! ### What a tile keeps that sends or emits -/

/-- A tile keeps its kernel, its anchor words and its memories, and HBM is unchanged. -/
structure SenderKeeps (t : Nat) (s u : State) : Prop where
  kernel : (tile u t).kernel = (tile s t).kernel
  anchors : (tile u t).anchors = (tile s t).anchors
  mems : TileMems t s u
  hbm : u.hbm = s.hbm

theorem LaneSent.senderKeeps {s u : State} (h : LaneSent s u) (t : Nat) : SenderKeeps t s u := by
  refine ⟨?_, ?_, ?_, ?_⟩
  · rw [h.tile t]
  · rw [h.tile t]
  · unfold TileMems
    rw [h.tile t]
    exact ⟨rfl, rfl, rfl, rfl⟩
  · rw [h.same]

theorem senderKeeps_of_tiles {s u : State} (tiles : u.tiles = s.tiles) (hbm : u.hbm = s.hbm) (t : Nat) :
    SenderKeeps t s u := by
  have same : tile u t = tile s t := by rw [tile, tiles, ← tile]
  exact ⟨by rw [same], by rw [same], tileMems_of_eq same, hbm⟩

theorem SenderKeeps.trans {t : Nat} {s v u : State} (h : SenderKeeps t s v) (k : SenderKeeps t v u) :
    SenderKeeps t s u := by
  obtain ⟨wm, am, pm, istore⟩ := h.mems
  obtain ⟨wm', am', pm', istore'⟩ := k.mems
  exact ⟨k.kernel.trans h.kernel, k.anchors.trans h.anchors,
    ⟨wm'.trans wm, am'.trans am, pm'.trans pm, istore'.trans istore⟩, k.hbm.trans h.hbm⟩

/-- One operand emitted: in flight on the tile, on a lattice channel, or in a packet (R134, R567). -/
theorem emit_keeps (t e lead op : Nat) (s : State) : SenderKeeps t s (emit t e lead [op] s) := by
  unfold emit
  dsimp only
  split
  · exact (flyWords_laneSent _ _ _ _ _ s).senderKeeps t
  · split
    · exact (sendLattice_laneSent _ _ _ _ s).senderKeeps t
    · exact senderKeeps_of_tiles (sendAwaited_tiles _ _ _ _ s) (sendAwaited_hbm _ _ _ _ s) t

theorem emitOps_keeps (t u e lead op : Nat) (s : State) : SenderKeeps t s (emitOps t u e lead [op] s) :=
  ((addItems_laneSent _ _ _ s).senderKeeps t).trans (emit_keeps _ _ _ _ _)

end Sys2Proof.Machine
end

section
/-! The statement on the routines of the microcode that a kernel calls (R52, R109, R169, R225, R252, R253). -/

namespace Sys2Proof.Machine

open Sys2Proof

/-! ### The return of a routine (R103, R109, R120) -/

@[simp] theorem tile_microRetired (t : Nat) (s : State) (u : Nat) : tile (microRetired t s) u = tile s u :=
  tile_tileCount1 _ _ _ _ _

/-- A routine that is done leaves its kernel waiting for the return, and the rest of the tile as it is. -/
@[simp] theorem tile_routineDone (t idx : Nat) (k : KernelRun) (s : State) :
    tile (routineDone t idx k s) t = { tile s t with kernel := some { k with micro := some idx } } := by
  rw [routineDone, tile_microRetired, setKernel, tile_updTile_same]

theorem routineDone_others (t idx : Nat) (k : KernelRun) (s : State) : OtherTiles t s (routineDone t idx k s) := by
  intro u hu
  rw [routineDone, tile_microRetired, setKernel, tile_updTile_ne hu]

theorem routineDone_regs (t idx : Nat) (k : KernelRun) (s : State) :
    RegsBut (· = tilCnt t TilCnt.tilSpinstrCnt) s (routineDone t idx k s) :=
  fun o ho => tileCount1_regs t _ _ _ o ho

theorem routineDone_same (t idx : Nat) (k : KernelRun) (s : State) : routineDone t idx k s =
    { s with regs := (routineDone t idx k s).regs, tiles := (routineDone t idx k s).tiles
             free := (routineDone t idx k s).free } := by
  rw [routineDone, microRetired, tileCount1_same]
  rfl

/-- A routine that has changed its tile only. -/
theorem routineDone_updTile (t idx : Nat) (k : KernelRun) (f : TileState → TileState) (s : State) :
    OtherTiles t s (routineDone t idx k (updTile t f s)) ∧
      RegsBut (· = tilCnt t TilCnt.tilSpinstrCnt) s (routineDone t idx k (updTile t f s)) ∧
      routineDone t idx k (updTile t f s) = { s with
        regs := (routineDone t idx k (updTile t f s)).regs, tiles := (routineDone t idx k (updTile t f s)).tiles
        free := (routineDone t idx k (updTile t f s)).free } :=
  ⟨fun u hu => (routineDone_others _ _ _ _ u hu).trans (tile_updTile_ne hu _ _), routineDone_regs _ _ _ _,
    routineDone_same _ _ _ _⟩

/-- A routine that has sent one control packet (R252, R253). -/
theorem routineDone_sendAwaited (t idx : Nat) (k : KernelRun) (dst opc : Nat) (payload : List Byte) (s : State)
    {u : State} (hu : u = routineDone t idx k (sendAwaited t dst opc payload s)) :
    (tile u t).kernel = some { k with micro := some idx } ∧
      (∃ a ∈ u.net.awaits, a.src = t ∧ a.opc = opc ∧ a.pkt.dst = dst ∧ a.pkt.payload = payload) ∧
      TileMems t s u ∧ OtherTiles t s u ∧ u.hbm = s.hbm ∧ u.req = s.req := by
  have same := routineDone_same t idx k (sendAwaited t dst opc payload s)
  have tiles : ∀ v, tile (sendAwaited t dst opc payload s) v = tile s v := fun v => by
    rw [tile, sendAwaited_tiles, ← tile]
  subst hu
  refine ⟨?_, ⟨awaitOf t dst opc payload s, ?_, rfl, rfl, rfl, rfl⟩, ?_, fun v hv => ?_, ?_, ?_⟩
  · rw [tile_routineDone]
  · rw [same]
    exact mem_awaits_sendAwaited _ _ _ _ _
  · unfold TileMems
    rw [tile_routineDone, tiles]
    exact ⟨rfl, rfl, rfl, rfl⟩
  · rw [routineDone_others _ _ _ _ v hv, tiles]
  · rw [same]
    exact sendAwaited_hbm _ _ _ _ _
  · rw [same]
    exact sendAwaited_req _ _ _ _ _

section Routines

variable {t : TileId} {k : KernelRun} {s : State}

/-! ### DMA submission (R169) -/

theorem completes_dmaSubmit (on : On s) (ready : SpReady (isCall 8) t k s) (he : scalar (tile s t) 2 < 4)
    (hb : admits (runTask s t k) memAm (scalar (tile s t) 1) 1 = true)
    (room : (engine s t (scalar (tile s t) 2)).queue.length < 8) :
    Completes (.dmaSubmit t) s fun u => (tile u t).kernel = some { k with micro := some 8 } ∧
      (engine u t (scalar (tile s t) 2)).queue = (engine s t (scalar (tile s t) 2)).queue ++
        [{ desc := memNat (tile s t) memAm (64 * (taskBase (runTask s t k) memAm + scalar (tile s t) 1)) 64,
           task := keTask (runEntry (tile s t) k) }] ∧
      TileMems t s u ∧ OtherTiles t s u ∧ RegsBut (· = tilCnt t TilCnt.tilSpinstrCnt) s u ∧
      u = { s with regs := u.regs, tiles := u.tiles, free := u.free } := by
  refine completes_powered on _ rfl ?_
  rw [spIssue_ready ready]
  dsimp only
  rw [if_neg (Nat.not_le.mpr he), hb, if_neg (by decide), if_neg (Nat.not_le.mpr room),
    readRange_of_no_errs ready.errs, if_neg (by simp), setEngine]
  refine ⟨by rw [tile_routineDone], ?_, ?_, routineDone_updTile _ _ _ _ _⟩
  · rw [engine, tile_routineDone, tile_updTile_same]
    exact congrArg DmaEngine.queue (tget_tset_same _ _ _ _)
  · unfold TileMems
    rw [tile_routineDone, tile_updTile_same]
    exact ⟨rfl, rfl, rfl, rfl⟩

/-- An engine's queue without room stalls the kernel. -/
theorem completes_dmaSubmit_full (on : On s) (ready : SpReady (isCall 8) t k s) (he : scalar (tile s t) 2 < 4)
    (hb : admits (runTask s t k) memAm (scalar (tile s t) 1) 1 = true)
    (full : 8 ≤ (engine s t (scalar (tile s t) 2)).queue.length) : Completes (.dmaSubmit t) s fun u => u = s := by
  refine completes_powered on _ rfl ?_
  rw [spIssue_ready ready]
  dsimp only
  rw [if_neg (Nat.not_le.mpr he), hb, if_neg (by decide), if_pos full]

theorem completes_dmaSubmit_illegal (on : On s) (ready : SpReady (isCall 8) t k s) (he : 4 ≤ scalar (tile s t) 2)
    (hv : get s (tilFault t) TilFault.valid = 0) :
    Completes (.dmaSubmit t) s fun u => TileFaulted t 4 u ∧ TileMems t s u ∧ u.hbm = s.hbm := by
  refine completes_powered on _ rfl ?_
  rw [spIssue_ready ready]
  dsimp only
  rw [if_pos he]
  exact spFault_faulted ready.works hv (by decide) k

/-! ### Landing messages (R222, R225) -/

theorem addItems_regs (t d : Nat) (items : List (List Byte)) (s : State) : (addItems t d items s).regs = s.regs := by
  unfold addItems
  dsimp only
  rw [apply_ite State.regs, updTile_regs, ite_self]

/-- A landing message takes its credits; of the tile nothing else that a kernel sees changes. -/
theorem sendLanding_taken {t ch hdr : Nat} (hk : bits hdr 18 2 ≠ okSkip) (payload : List Byte) (s : State) :
    (chan (sendLanding t ch hdr payload s) t ch).credits =
        (chan s t ch).credits - chMsgu (chanEntry s t ch) ∧
      TileMems t s (sendLanding t ch hdr payload s) ∧
      sendLanding t ch hdr payload s = { s with
        regs := (sendLanding t ch hdr payload s).regs, tiles := (sendLanding t ch hdr payload s).tiles } := by
  unfold sendLanding
  dsimp only
  rw [if_neg hk]
  have sent := sendPaid_laneSent t ch hdr payload
    (setChan t ch { chan s t ch with credits := (chan s t ch).credits - chMsgu (chanEntry s t ch) } s)
  refine ⟨?_, ?_, ?_⟩
  · rw [sent.credits, chan_setChan_same]
  · have kept := (sent.senderKeeps t).mems
    unfold TileMems at kept ⊢
    rw [setChan, tile_updTile_same] at kept
    exact kept
  · rw [sent.same]
    rfl

/-- A routine that has sent a landing message, its items noted first (R225, R343). -/
theorem routineDone_sendLanding (t idx ch hdr d : Nat) (k : KernelRun) (hk : bits hdr 18 2 ≠ okSkip)
    (payload : List Byte) (items : List (List Byte)) (s : State) {u : State}
    (hu : u = routineDone t idx k (sendLanding t ch hdr payload (addItems t d items s))) :
    (tile u t).kernel = some { k with micro := some idx } ∧
      (chan u t ch).credits = (chan s t ch).credits - chMsgu (chanEntry s t ch) ∧ TileMems t s u ∧
      u = { s with regs := u.regs, tiles := u.tiles, free := u.free } := by
  have noted := addItems_laneSent t d items s
  have entry : chanEntry (addItems t d items s) t ch = chanEntry s t ch := by
    simp only [chanEntry, rd128, rd, addItems_regs]
  obtain ⟨taken, mems, same⟩ := sendLanding_taken (t := t) (ch := ch) hk payload (addItems t d items s)
  subst hu
  refine ⟨by rw [tile_routineDone], ?_, ?_, ?_⟩
  · rw [chan, tile_routineDone]
    exact taken.trans (by rw [entry, noted.credits])
  · unfold TileMems at mems ⊢
    obtain ⟨wm, am, pm, istore⟩ := (noted.senderKeeps t).mems
    rw [tile_routineDone, ← wm, ← am, ← pm, ← istore]
    exact mems
  · rw [routineDone_same, same, noted.same]

theorem bits_mod_header (v : Nat) : bits (v % 2 ^ 20) 18 2 = bits v 18 2 := by
  simp only [bits, Nat.shiftRight_eq_div_pow]
  omega

variable {ch n : Nat}

theorem completes_latSend (on : On s) (ready : SpReady (isCall 9) t k s) (hch : ch = scalar (tile s t) 2) (hlt : ch < 256)
    (hvalid : chValid (chanEntry s t ch) = true) (hsend : chReceive (chanEntry s t ch) = false)
    (hmode : chMode (chanEntry s t ch) = 1) (hk : bits (scalar (tile s t) 3) 18 2 ≠ okSkip)
    (hn : n = chMsgu (chanEntry s t ch)) (hb : admits (runTask s t k) memAm (scalar (tile s t) 1) n = true) :
    (n ≤ (chan s t ch).credits →
      Completes (.latSend t) s fun u => (tile u t).kernel = some { k with micro := some 9 } ∧
        (chan u t ch).credits = (chan s t ch).credits - n ∧ TileMems t s u ∧
        u = { s with regs := u.regs, tiles := u.tiles, free := u.free }) ∧
    ((chan s t ch).credits < n → Completes (.latSend t) s fun u => u = s) := by
  subst hch hn
  have hk' : bits (scalar (tile s t) 3 % 2 ^ 20) 18 2 ≠ okSkip := by rwa [bits_mod_header]
  have sends : ¬ (256 ≤ scalar (tile s t) 2 ∨ (!(chValid (chanEntry s t (scalar (tile s t) 2)) &&
      (!chReceive (chanEntry s t (scalar (tile s t) 2)) && chMode (chanEntry s t (scalar (tile s t) 2)) == 1))) = true) := by
    simp [hvalid, hsend, hmode, hlt]
  refine ⟨fun credit => completes_powered on _ rfl ?_, fun none => completes_powered on _ rfl ?_⟩
  all_goals
    rw [spIssue_ready ready]
    dsimp only
    rw [if_neg sends, if_neg (by simpa using hk'), hb, if_neg (by decide)]
  · rw [if_neg (Nat.not_lt.mpr credit), readRange_of_no_errs ready.errs, if_neg (by simp)]
    exact routineDone_sendLanding _ _ _ _ _ _ hk' _ _ _ rfl
  · rw [if_pos none]

/-! ### Barriers and flags (R252, R253) -/

theorem completes_barArrive (on : On s) (ready : SpReady (isCall 10) t k s) {b : Nat}
    (hb : b = scalar (tile s t) 1 % 64) :
    Completes (.barArrive t) s fun u => (tile u t).kernel = some { k with micro := some 10 } ∧
      (∃ a ∈ u.net.awaits, a.src = t.val ∧ a.opc = ocBarArrive ∧ a.pkt.dst = epBarrier (b / 2) ∧
        a.pkt.payload = toBytes 1 (b + scalar (tile s t) 2 % 2 * 64)) ∧
      TileMems t s u ∧ OtherTiles t s u ∧ u.hbm = s.hbm ∧ u.req = s.req := by
  subst hb
  refine completes_powered on _ rfl ?_
  rw [spIssue_ready ready]
  exact routineDone_sendAwaited _ _ _ _ _ _ _ rfl

theorem completes_flagWrite (on : On s) (ready : SpReady (isCall 11) t k s) {v : Nat} (hv : v = scalar (tile s t) 3)
    (hop : bits v 8 2 ≠ 3) :
    Completes (.flagWrite t) s fun u => (tile u t).kernel = some { k with micro := some 11 } ∧
      (∃ a ∈ u.net.awaits, a.src = t.val ∧ a.opc = ocFlagWrite ∧ a.pkt.dst = epField (scalar (tile s t) 1 % 16) ∧
        a.pkt.payload = toBytes 2 (scalar (tile s t) 2 % 256 + bits v 8 3 * 256)) ∧
      TileMems t s u ∧ OtherTiles t s u ∧ u.hbm = s.hbm ∧ u.req = s.req := by
  subst hv
  refine completes_powered on _ rfl ?_
  rw [spIssue_ready ready, if_neg hop]
  exact routineDone_sendAwaited _ _ _ _ _ _ _ rfl

theorem completes_flagWrite_illegal (on : On s) (ready : SpReady (isCall 11) t k s) {v : Nat}
    (hv : v = scalar (tile s t) 3) (hop : bits v 8 2 = 3) (hvalid : get s (tilFault t) TilFault.valid = 0) :
    Completes (.flagWrite t) s fun u => TileFaulted t 4 u ∧ TileMems t s u ∧ u.hbm = s.hbm := by
  subst hv
  refine completes_powered on _ rfl ?_
  rw [spIssue_ready ready, if_pos hop]
  exact spFault_faulted ready.works hvalid (by decide) k

/-! ### Anchors (R52, R225) -/

/-- The greater of a unit's own anchor word and the one that an operand carries along the chain. -/
def greaterAnchor (own : Nat) : Option Nat → Nat
  | none => own
  | some o => if signed 16 own < signed 16 (opAux o) then opAux o % 2 ^ 16 else own

/-- The combined word in the sideband of an AM unit and in s2. -/
def placeAnchor (t a v : Nat) (s : State) : State :=
  updTile t (fun x => setScalar 2 (unsigned 64 (signed 16 v))
    { x with anchors := tset (fun _ => none) a (some v) x.anchors }) s

/-- What a combination does whose unit is within the task's bounds: the greater word is placed, and emitted on a port that
the unit has. -/
theorem completes_anchorCombine (on : On s) (ready : SpReady (isCall 4) t k s) {a v : Nat} {P : State → Prop}
    (hb : admits (runTask s t k) memAm (scalar (tile s t) 1) 1 = true)
    (ha : a = taskBase (runTask s t k) memAm + scalar (tile s t) 1)
    (hv : v = greaterAnchor (anchorWord t (tile s t) a) (k.job.ops.find? fun o => opKind o == okValue))
    (h : P (if unNout (unitDesc (tile s t) k.job.unit) ≤ scalar (tile s t) 3 then routineDone t 4 k (placeAnchor t a v s)
      else emitNext t (scalar (tile s t) 3) okValue v 0 k (routineDone t 4) (placeAnchor t a v s))) :
    Completes (.anchorCombine t) s P := by
  refine completes_powered on _ rfl ?_
  rw [spIssue_ready ready]
  dsimp only
  rw [hb, if_neg (by decide), ← ha]
  cases hf : k.job.ops.find? fun o => opKind o == okValue with
  | none =>
    rw [hf] at hv
    subst hv
    exact h
  | some o =>
    rw [hf] at hv
    subst hv
    exact h

/-- The word of the combination is the greater one. -/
theorem eq_greaterAnchor {own v : Nat} {c : Option Nat} (hnone : c = none → v = own)
    (hsome : ∀ o, c = some o → v = if signed 16 own < signed 16 (opAux o) then opAux o % 2 ^ 16 else own) :
    v = greaterAnchor own c := by
  cases c with
  | none => exact hnone rfl
  | some o => exact hsome o rfl

/-- An operand within the firing's count is emitted, and the kernel has emitted one more on its edge (R134). -/
theorem emitNext_within {t port kind aux payload e n : Nat} {k : KernelRun} {next : KernelRun → State → State} {s : State}
    (he : e = unOut (unitDesc (tile s t) k.job.unit) port) (hn : n = tget (fun _ => 0) k.emitted e)
    (h : n < unGroup (unitDesc (tile s t) k.job.unit) * edRate (edgeDesc (tile s t) e)) :
    ∃ op, emitNext t port kind aux payload k next s =
      emitOps t k.job.unit e 0 [op] (next { k with emitted := tset (fun _ => 0) e (n + 1) k.emitted } s) := by
  subst he hn
  exact ⟨_, if_neg (Nat.not_le.mpr h)⟩

variable {a v e : Nat}

theorem routineDone_placeAnchor (t : Nat) (k : KernelRun) (a v : Nat) (s : State) :
    (tile (routineDone t 4 k (placeAnchor t a v s)) t).kernel = some { k with micro := some 4 } ∧
      tget (fun _ => none) (tile (routineDone t 4 k (placeAnchor t a v s)) t).anchors a = some v ∧
      scalar (tile (routineDone t 4 k (placeAnchor t a v s)) t) 2 = unsigned 64 (signed 16 v) % 2 ^ 64 ∧
      TileMems t s (routineDone t 4 k (placeAnchor t a v s)) := by
  unfold TileMems
  rw [tile_routineDone, placeAnchor, tile_updTile_same]
  exact ⟨rfl, tget_tset_same _ _ _ _, scalar_setScalar_same _ _ _, rfl, rfl, rfl, rfl⟩

theorem completes_anchorCombine_kept (on : On s) (ready : SpReady (isCall 4) t k s)
    (hb : admits (runTask s t k) memAm (scalar (tile s t) 1) 1 = true)
    (ha : a = taskBase (runTask s t k) memAm + scalar (tile s t) 1)
    (hv : v = greaterAnchor (anchorWord t (tile s t) a) (k.job.ops.find? fun o => opKind o == okValue))
    (hport : unNout (unitDesc (tile s t) k.job.unit) ≤ scalar (tile s t) 3) :
    Completes (.anchorCombine t) s fun u => (tile u t).kernel = some { k with micro := some 4 } ∧
      tget (fun _ => none) (tile u t).anchors a = some v ∧
      scalar (tile u t) 2 = unsigned 64 (signed 16 v) % 2 ^ 64 ∧ TileMems t s u ∧ OtherTiles t s u ∧
      RegsBut (· = tilCnt t TilCnt.tilSpinstrCnt) s u ∧ u = { s with regs := u.regs, tiles := u.tiles, free := u.free } := by
  refine completes_anchorCombine on ready hb ha hv ?_
  rw [if_pos hport]
  obtain ⟨kernel, anchor, s2, mems⟩ := routineDone_placeAnchor t k a v s
  exact ⟨kernel, anchor, s2, mems, routineDone_updTile _ _ _ _ _⟩

theorem completes_anchorCombine_emitted (on : On s) (ready : SpReady (isCall 4) t k s)
    (hb : admits (runTask s t k) memAm (scalar (tile s t) 1) 1 = true)
    (ha : a = taskBase (runTask s t k) memAm + scalar (tile s t) 1)
    (hv : v = greaterAnchor (anchorWord t (tile s t) a) (k.job.ops.find? fun o => opKind o == okValue))
    (he : e = unOut (unitDesc (tile s t) k.job.unit) (scalar (tile s t) 3)) (hn : n = tget (fun _ => 0) k.emitted e)
    (hport : scalar (tile s t) 3 < unNout (unitDesc (tile s t) k.job.unit))
    (hrate : n < unGroup (unitDesc (tile s t) k.job.unit) * edRate (edgeDesc (tile s t) e)) :
    Completes (.anchorCombine t) s fun u =>
      (∃ k', (tile u t).kernel = some k' ∧ k'.micro = some 4 ∧ tget (fun _ => 0) k'.emitted e = n + 1) ∧
      tget (fun _ => none) (tile u t).anchors a = some v ∧ u.hbm = s.hbm := by
  refine completes_anchorCombine on ready hb ha hv ?_
  rw [if_neg (Nat.not_le.mpr hport)]
  have placed : tile (placeAnchor t a v s) t = setScalar 2 (unsigned 64 (signed 16 v))
      { tile s t with anchors := tset (fun _ => none) a (some v) (tile s t).anchors } := tile_updTile_same _ _ _
  obtain ⟨op, emitted⟩ := emitNext_within (t := t) (kind := okValue) (aux := v) (payload := 0) (next := routineDone t 4)
    (s := placeAnchor t a v s) (by rw [placed]; exact he) hn (by rw [placed]; exact hrate)
  rw [emitted]
  obtain ⟨keptKernel, keptAnchors, -, keptHbm⟩ := emitOps_keeps t k.job.unit e 0 op
    (routineDone t 4 { k with emitted := tset (fun _ => 0) e (n + 1) k.emitted } (placeAnchor t a v s))
  obtain ⟨kernel, anchor, -⟩ :=
    routineDone_placeAnchor t { k with emitted := tset (fun _ => 0) e (n + 1) k.emitted } a v s
  refine ⟨⟨_, keptKernel.trans kernel, rfl, tget_tset_same _ _ _ _⟩, ?_, ?_⟩
  · rw [keptAnchors, anchor]
  · rw [keptHbm, routineDone_same]
    rfl

end Routines

/-- Settles O30: each routine's work is done on the tile or sent on, and the kernel then waits for the return. -/
theorem routinesOfTheMicrocode : Obligations.RoutinesOfTheMicrocode := by
  unfold Obligations.RoutinesOfTheMicrocode
  refine ⟨?_, ?_, ?_, ?_, ?_, ?_⟩
  · exact fun t k s on ready he hb => ⟨completes_dmaSubmit on ready he hb, completes_dmaSubmit_full on ready he hb⟩
  · exact fun t k s on ready he hv => completes_dmaSubmit_illegal on ready he hv
  · exact fun t k ch n s on ready => completes_latSend on ready
  · exact fun t k b s on ready hb => completes_barArrive on ready hb
  · exact fun t k v s on ready hv => ⟨completes_flagWrite on ready hv, completes_flagWrite_illegal on ready hv⟩
  · intro t k a own v e n s on ready hb ha hown hnone hsome he hn
    subst hown
    have hv := eq_greaterAnchor hnone hsome
    exact ⟨completes_anchorCombine_kept on ready hb ha hv, completes_anchorCombine_emitted on ready hb ha hv he hn⟩

end Sys2Proof.Machine
end

section
/-! Tile control: the state a tile reads as after a write of its page, and the statement on the bits of TIL_CTRL (R113,
R115, R117, R120). -/

namespace Sys2Proof.Machine

open Sys2Proof

/-! ### The state of a tile -/

theorem tileOff_of_tileSt {s : State} {t : Nat} (h : tileSt s t ≠ tsOff) : tileOff s t = false := by
  cases off : tileOff s t with
  | false => rfl
  | true => exact absurd (if_pos off) h

/-- A tile that is not off is in the state that TIL_STAT holds. -/
theorem tileSt_of_on {s : State} {t : Nat} (h : tileOff s t = false) : tileSt s t = get s (tilStat t) TilStat.state :=
  if_neg (by simp [h])

theorem tileOff_upd {off : Nat} (h : pwrState ≠ off) (f : Fld) (x : Nat) (s : State) (t : Nat) :
    tileOff (upd off f x s) t = tileOff s t := tileOff_congr (rd_upd_ne h f x s) rfl rfl t

theorem pwrState_ne_page {off : Nat} (h : 0x1000000 ≤ off) : pwrState ≠ off := by
  simp only [pwrState]
  omega

theorem tilCtrl_page (t : Nat) : 0x1000000 ≤ tilCtrl t := by
  simp only [tilCtrl]
  omega

theorem tilCtrl_ne_tilStat (t : Nat) : tilCtrl t ≠ tilStat t := by
  simp only [tilCtrl, tilStat]
  omega

/-- Setting the state of a tile that is not off. -/
theorem tileSt_setTileSt {s : State} {t v : Nat} (on : tileOff s t = false) (hv : v < 2 ^ 3) :
    tileSt (setTileSt t v s) t = v := by
  rw [tileSt_of_on (by rw [setTileSt, tileOff_upd (pwrState_ne_tilStat t), on]), setTileSt,
    get_upd_same _ _ _ _ (by decide)]
  exact Nat.mod_eq_of_lt hv

/-- A write of TIL_CTRL alone moves no tile. -/
@[simp] theorem tileSt_updCtrl (t : Nat) (f : Fld) (x : Nat) (s : State) :
    tileSt (upd (tilCtrl t) f x s) t = tileSt s t := by
  rw [tileSt, tileSt, tileOff_upd (pwrState_ne_page (tilCtrl_page t)), get_upd_ne (tilCtrl_ne_tilStat t).symm]

@[simp] theorem microcodeOk_updCtrl (t : Nat) (f : Fld) (x : Nat) (s : State) :
    microcodeOk (upd (tilCtrl t) f x s) t = microcodeOk s t := by
  have ne : tilMcVer t ≠ tilCtrl t := by
    simp only [tilMcVer, tilCtrl]
    omega
  rw [microcodeOk, microcodeOk, rd_upd_ne ne]
  rfl

@[simp] theorem faultHeld_updCtrl (t : Nat) (f : Fld) (x : Nat) (s : State) :
    faultHeld (upd (tilCtrl t) f x s) t = faultHeld s t := by
  have fault : tilFault t ≠ tilCtrl t := by
    simp only [tilFault, tilCtrl]
    omega
  have dfFault : tilDfFault t ≠ tilCtrl t := by
    simp only [tilDfFault, tilCtrl]
    omega
  rw [faultHeld, faultHeld, get_upd_ne fault, get_upd_ne dfFault]

/-! ### What a write of one field leaves -/

/-- One field of TIL_CTRL written, and nothing else. -/
theorem ctrl_written {f : Fld} {x : Nat} (hf : f.lo + f.w ≤ 64) (hx : x < 2 ^ f.w) (t : Nat) (s : State) :
    get (upd (tilCtrl t) f x s) (tilCtrl t) f = x ∧ RegsBut (· = tilCtrl t) s (upd (tilCtrl t) f x s) ∧
      upd (tilCtrl t) f x s = { s with regs := (upd (tilCtrl t) f x s).regs } :=
  ⟨(get_upd_same _ _ _ _ hf).trans (Nat.mod_eq_of_lt hx), regsBut_upd (p := (· = tilCtrl t)) rfl _ _ _, rfl⟩

/-- One field of TIL_CTRL written and the tile moved to a state. -/
theorem ctrl_written_moved {f : Fld} {x v t : Nat} {s : State} (hf : f.lo + f.w ≤ 64) (hx : x < 2 ^ f.w)
    (on : tileOff s t = false) (hv : v < 2 ^ 3) {u : State} (hu : u = setTileSt t v (upd (tilCtrl t) f x s)) :
    get u (tilCtrl t) f = x ∧ tileSt u t = v ∧ RegsBut (fun o => o = tilCtrl t ∨ o = tilStat t) s u ∧
      u = { s with regs := u.regs } := by
  have on' : tileOff (upd (tilCtrl t) f x s) t = false := by rw [tileOff_upd (pwrState_ne_page (tilCtrl_page t)), on]
  subst hu
  refine ⟨?_, tileSt_setTileSt on' hv, (regsBut_upd (.inl rfl) _ _ _).trans (regsBut_upd (.inr rfl) _ _ _), rfl⟩
  rw [setTileSt, get_upd_ne (tilCtrl_ne_tilStat t), get_upd_same _ _ _ _ hf, Nat.mod_eq_of_lt hx]

/-! ### Where the writes move a tile (R113) -/

theorem writeRunEn_starts {t : Nat} {s : State} (mc : microcodeOk s t = true) (h : tileSt s t = tsIdle ∨
    (tileSt s t = tsHalt ∧ get s (tilCtrl t) TilCtrl.haltReq = 0 ∧ faultHeld s t = false)) :
    writeRunEn t true s = setTileSt t tsRun (upd (tilCtrl t) TilCtrl.runEn 1 s) := by
  have halt : get (upd (tilCtrl t) TilCtrl.runEn 1 s) (tilCtrl t) TilCtrl.haltReq =
    get s (tilCtrl t) TilCtrl.haltReq := get_upd_other _ _ _ _ _ (by decide) (by decide)
  rcases h with idle | ⟨halted, req, fault⟩
  · simp [writeRunEn, startRun, b2n, idle, mc]
  · simp [writeRunEn, startRun, b2n, halted, mc, halt, req, fault]

theorem writeHaltReq_drains {t : Nat} {s : State} (h : tileSt s t = tsRun) :
    writeHaltReq t true s = setTileSt t tsDrain (upd (tilCtrl t) TilCtrl.haltReq 1 s) := by
  simp [writeHaltReq, haltReq, h]

theorem writeTestWin_fromIdle {t : Nat} {s : State} (h : tileSt s t = tsIdle) (mc : microcodeOk s t = true) :
    writeTestWin t true s = setTileSt t tsTest (upd (tilCtrl t) TilCtrl.testWin 1 s) := by
  simp [writeTestWin, startTest, b2n, h, mc]

theorem writeTestWin_fromRun {t : Nat} {s : State} (h : tileSt s t = tsRun) :
    writeTestWin t true s = setTileSt t tsDrain (upd (tilCtrl t) TilCtrl.testWin 1 s) := by
  simp [writeTestWin, startTest, b2n, h, tsRun, tsIdle]

/-- Where the end of a test window leaves a tile (R113, R115). -/
def afterTest (s : State) (t : Nat) : Nat :=
  if get s (tilCtrl t) TilCtrl.haltReq = 1 then tsHalt
  else if get s (tilCtrl t) TilCtrl.runEn = 1 then tsRun else tsIdle

theorem afterTest_lt (s : State) (t : Nat) : afterTest s t < 2 ^ 3 := by
  unfold afterTest
  split
  · decide
  · split <;> decide

theorem writeTestWin_ends {t : Nat} {s : State} (h : tileSt s t = tsTest) :
    writeTestWin t false s = setTileSt t (afterTest s t) (upd (tilCtrl t) TilCtrl.testWin 0 s) := by
  have haltReq : get (upd (tilCtrl t) TilCtrl.testWin 0 s) (tilCtrl t) TilCtrl.haltReq =
    get s (tilCtrl t) TilCtrl.haltReq := get_upd_other _ _ _ _ _ (by decide) (by decide)
  have runEn : get (upd (tilCtrl t) TilCtrl.testWin 0 s) (tilCtrl t) TilCtrl.runEn =
    get s (tilCtrl t) TilCtrl.runEn := get_upd_other _ _ _ _ _ (by decide) (by decide)
  simp [writeTestWin, endTest, afterTest, b2n, h, haltReq, runEn]

/-! ### Writes by device firmware and by others (R18, R117) -/

/-- A command that is a write by device firmware of a register that can be reached. -/
theorem completes_asFirmware {c : Instr} {s : State} {P : State → Prop} (on : On s) {off : Nat} (width : Nat)
    (f : State → State) (hc : exec c s = .next (powered (asFirmware .fw off width f) s)) (reached : regOff s off = false)
    (h : P (f s)) : Completes c s P :=
  completes_powered on _ hc (by rwa [asFirmware, reached, if_neg Bool.false_ne_true, if_pos rfl])

/-- Another master's write is logged at most. -/
theorem asFirmware_denied {m : Master} (h : m ≠ .fw) (off width : Nat) (f : State → State) (s : State) :
    Reports s (asFirmware m off width f s) := by
  rw [asFirmware, if_neg h]
  split
  · exact .refl s
  · exact logAccess_reports _ _ _ _ _ s

/-- A report gives no answer of its own. -/
theorem Reports.sameAnswer {s u : State} (h : Reports s u) : Reports { s with answer := u.answer } u := by
  have same : u.answer = s.answer := by rw [h.2]
  rw [same]
  exact h

section TileControl

variable {t : TileId} {s : State}

theorem completes_tilRunEn (on : On s) (reached : regOff s (tilCtrl t) = false) (mc : microcodeOk s t = true)
    (h : tileSt s t = tsIdle ∨
      (tileSt s t = tsHalt ∧ get s (tilCtrl t) TilCtrl.haltReq = 0 ∧ faultHeld s t = false)) :
    Completes (.tilRunEn .fw t true) s fun u => get u (tilCtrl t) TilCtrl.runEn = 1 ∧ tileSt u t = tsRun ∧
      RegsBut (fun o => o = tilCtrl t ∨ o = tilStat t) s u ∧ u = { s with regs := u.regs } := by
  have powered : tileOff s t = false := tileOff_of_tileSt (by rcases h with e | ⟨e, -⟩ <;> rw [e] <;> decide)
  exact completes_asFirmware on _ _ rfl reached
    (ctrl_written_moved (by decide) (by decide) powered (by decide) (writeRunEn_starts mc h))

theorem completes_tilHaltReq (on : On s) (reached : regOff s (tilCtrl t) = false) (h : tileSt s t = tsRun) :
    Completes (.tilHaltReq .fw t true) s fun u => get u (tilCtrl t) TilCtrl.haltReq = 1 ∧ tileSt u t = tsDrain ∧
      RegsBut (fun o => o = tilCtrl t ∨ o = tilStat t) s u ∧ u = { s with regs := u.regs } :=
  completes_asFirmware on _ _ rfl reached (ctrl_written_moved (by decide) (by decide)
    (tileOff_of_tileSt (by rw [h]; decide)) (by decide) (writeHaltReq_drains h))

theorem completes_tilTestWin (on : On s) (reached : regOff s (tilCtrl t) = false)
    (h : (tileSt s t = tsIdle ∧ microcodeOk s t = true) ∨ tileSt s t = tsRun) :
    Completes (.tilTestWin .fw t true) s fun u => get u (tilCtrl t) TilCtrl.testWin = 1 ∧
      (tileSt s t = tsIdle → tileSt u t = tsTest) ∧ (tileSt s t = tsRun → tileSt u t = tsDrain) ∧
      RegsBut (fun o => o = tilCtrl t ∨ o = tilStat t) s u ∧ u = { s with regs := u.regs } := by
  refine completes_asFirmware on _ _ rfl reached ?_
  rcases h with ⟨idle, mc⟩ | run
  · obtain ⟨written, moved, regs, same⟩ := ctrl_written_moved (by decide) (by decide)
      (tileOff_of_tileSt (by rw [idle]; decide)) (by decide) (writeTestWin_fromIdle idle mc)
    exact ⟨written, fun _ => moved, fun e => absurd (idle.symm.trans e) (by decide), regs, same⟩
  · obtain ⟨written, moved, regs, same⟩ := ctrl_written_moved (by decide) (by decide)
      (tileOff_of_tileSt (by rw [run]; decide)) (by decide) (writeTestWin_fromRun run)
    exact ⟨written, fun e => absurd (run.symm.trans e) (by decide), fun _ => moved, regs, same⟩

theorem completes_tilTestWin_end (on : On s) (reached : regOff s (tilCtrl t) = false) (h : tileSt s t = tsTest) :
    Completes (.tilTestWin .fw t false) s fun u => get u (tilCtrl t) TilCtrl.testWin = 0 ∧
      tileSt u t = afterTest s t ∧ RegsBut (fun o => o = tilCtrl t ∨ o = tilStat t) s u ∧ u = { s with regs := u.regs } :=
  completes_asFirmware on _ _ rfl reached (ctrl_written_moved (by decide) (by decide)
    (tileOff_of_tileSt (by rw [h]; decide)) (afterTest_lt s t) (writeTestWin_ends h))

theorem completes_tilCntFreeze (on : On s) (reached : regOff s (tilCtrl t) = false) (v : Bool) :
    Completes (.tilCntFreeze .fw t v) s fun u => get u (tilCtrl t) TilCtrl.cntFreeze = b2n v ∧ tileSt u t = tileSt s t ∧
      RegsBut (· = tilCtrl t) s u ∧ u = { s with regs := u.regs } := by
  obtain ⟨written, regs, same⟩ := ctrl_written (f := TilCtrl.cntFreeze) (x := b2n v) (by decide)
    (by cases v <;> decide) t s
  exact completes_asFirmware on _ _ rfl reached ⟨written, tileSt_updCtrl _ _ _ _, regs, same⟩

end TileControl

/-- Settles O21: each write moves the tile as R113 states for the state the tile is in. -/
theorem tileControlBits : Obligations.TileControlBits := by
  unfold Obligations.TileControlBits
  refine ⟨?_, ?_, ?_, ?_, ?_, ?_, ?_⟩
  · exact fun t s on reached mc h => completes_tilRunEn on reached mc h
  · exact fun t s on reached h => completes_tilHaltReq on reached h
  · exact fun t s on reached => completes_asFirmware on _ _ rfl reached (ctrl_written (by decide) (by decide) t s)
  · exact fun t s on reached h => completes_tilTestWin on reached h
  · exact fun t s on reached h => completes_tilTestWin_end on reached h
  · exact fun t v s on reached => completes_tilCntFreeze on reached v
  · exact fun m t v s on hm => completes_powered on _ rfl (asFirmware_denied hm _ _ _ s).sameAnswer

end Sys2Proof.Machine
end

section
/-! The tables of registers when keys are dropped or changed at once, and the reset values of a tile's page (R20, R545). -/

namespace Sys2Proof.Machine

open Sys2Proof

/-! ### Tables -/

section Tables

variable {α : Type}

/-- A key below every listed one reads as unlisted. -/
theorem tget_of_tabv (d : Nat → α) {n i : Nat} {t : Table α} (h : tabv n t) (hi : i ≤ n) : tget d t i = d i := by
  cases t with
  | nil => rfl
  | cons e r => exact if_pos (Nat.lt_of_le_of_lt hi (h e List.mem_cons_self))

theorem tget_cons_same (d : Nat → α) (i : Nat) (v : α) (r : Table α) : tget d ((i, v) :: r) i = v := by simp [tget]

theorem tget_cons_of_gt (d : Nat → α) {i k : Nat} (h : k < i) (v : α) (r : Table α) :
    tget d ((k, v) :: r) i = tget d r i := by
  rw [tget, if_neg (by omega), if_neg (by omega)]

/-- A table of keys above `k` has only keys above `i`, where `i` lies below `k`. -/
theorem tabv_cons {i k : Nat} (h : i < k) (v : α) {r : Table α} (above : tabv k r) : tabv i ((k, v) :: r) := by
  intro e he
  rcases List.mem_cons.mp he with rfl | he
  · exact h
  · exact Nat.lt_trans h (above e he)

theorem tabv_tdrop (p : Nat → Bool) {n : Nat} {t : Table α} (h : tabv n t) : tabv n (tdrop p t) :=
  fun e he => h e (List.mem_filter.mp he).1

theorem tdrop_cons (p : Nat → Bool) (k : Nat) (v : α) (r : Table α) :
    tdrop p ((k, v) :: r) = if p k then tdrop p r else (k, v) :: tdrop p r := by
  cases h : p k <;> simp [tdrop, h]

variable [DecidableEq α]

/-- A read after keys are dropped. -/
theorem tget_tdrop (d : Nat → α) (p : Nat → Bool) {t : Table α} (h : twf d t = true) (i : Nat) :
    tget d (tdrop p t) i = if p i then d i else tget d t i := by
  induction t with
  | nil => exact (ite_self _).symm
  | cons e r ih =>
    obtain ⟨k, v⟩ := e
    obtain ⟨-, above, wf⟩ := (twf_cons d k v r).mp h
    rcases Nat.lt_trichotomy i k with hi | rfl | hi
    · have below := tabv_cons hi v above
      rw [tget_of_tabv d (tabv_tdrop p below) (Nat.le_refl i), tget_of_tabv d below (Nat.le_refl i), ite_self]
    · rw [tget_cons_same, tdrop_cons]
      split
      · exact tget_of_tabv d (tabv_tdrop p above) (Nat.le_refl i)
      · exact tget_cons_same _ _ _ _
    · rw [tget_cons_of_gt d hi, ← ih wf, tdrop_cons]
      split
      · rfl
      · exact tget_cons_of_gt d hi _ _

/-- A read after values are changed, where the change leaves what unlisted keys read as. -/
theorem tget_tmap (d : Nat → α) (p : Nat → Bool) (f : Nat → α → α) (hf : ∀ i, f i (d i) = d i) {t : Table α}
    (h : twf d t = true) (i : Nat) : tget d (tmap d p f t) i = if p i then f i (tget d t i) else tget d t i := by
  induction t with
  | nil =>
    show d i = if p i then f i (d i) else d i
    rw [hf, ite_self]
  | cons e r ih =>
    obtain ⟨k, v⟩ := e
    obtain ⟨-, above, wf⟩ := (twf_cons d k v r).mp h
    rcases Nat.lt_trichotomy i k with hi | rfl | hi
    · have below := tabv_cons hi v above
      rw [tget_of_tabv d (tabv_tmap d p f i _ below) (Nat.le_refl i), tget_of_tabv d below (Nat.le_refl i), hf, ite_self]
    · rw [tget_cons_same, tmap]
      split
      · split
        · next unlisted => rw [tget_of_tabv d (tabv_tmap d p f i r above) (Nat.le_refl i), unlisted]
        · exact tget_cons_same _ _ _ _
      · exact tget_cons_same _ _ _ _
    · rw [tget_cons_of_gt d hi, ← ih wf, tmap]
      split
      · split
        · rfl
        · exact tget_cons_of_gt d hi _ _
      · exact tget_cons_of_gt d hi _ _

end Tables

/-! ### Registers dropped or reset at once -/

theorem rd_dropRegs {s : State} (h : Inv s) (p : Nat → Bool) (off : Nat) :
    rd { s with regs := tdrop p s.regs } off = if p off then regReset off else rd s off := tget_tdrop _ _ h.regs _

/-- What a reset makes of a register's contents: the ROS fields keep theirs (R20). -/
def resetValue (off : Nat) (v : Reg) : Reg := (v &&& rosMask off) ||| (regReset off &&& ~~~(rosMask off))

theorem resetValue_reset (off : Nat) : resetValue off (regReset off) = regReset off := by
  rw [resetValue, ← BitVec.and_or_distrib_left, BitVec.or_not_self, BitVec.and_allOnes]

/-- A register without ROS fields returns to its reset value. -/
theorem resetValue_of_no_ros {off : Nat} (h : rosMask off = 0) (v : Reg) : resetValue off v = regReset off := by
  rw [resetValue, h]
  show v &&& 0#64 ||| regReset off &&& ~~~0#64 = regReset off
  rw [BitVec.and_zero, BitVec.zero_or, BitVec.not_zero, BitVec.and_allOnes]

theorem rd_resetRegs {s : State} (h : Inv s) (p : Nat → Bool) (off : Nat) :
    rd (resetRegs p false s) off = if p off then resetValue off (rd s off) else rd s off :=
  tget_tmap regReset p resetValue resetValue_reset h.regs off

/-! ### The tile pages (R545) -/

theorem regsNear_page {off : Nat} (h : 0x1000000 ≤ off) : regsNear off = tileRegs := by
  rw [regsNear, if_neg (by omega), if_neg (by omega), if_neg (by omega)]

/-- The descriptor of TIL_STAT (R545). -/
def tilStatDesc : RegDesc := ⟨0x1000004, 0x8000, 768, 8, 1, 32, .tileC, 0, 0, 0, 0, 0, 0x80001⟩

/-- The descriptor of TIL_INT_STAT (R545). -/
def tilIntStatDesc : RegDesc := ⟨0x1000028, 0x8000, 768, 8, 1, 64, .tileFC, 0, 0, 0, 0, 0xffffffff007fffff, 0x0⟩

/-- The descriptor of TIL_DMA_STAT (R545). -/
def tilDmaStatDesc : RegDesc := ⟨0x1000080, 0x8000, 768, 8, 4, 64, .tileC, 0, 0, 0, 0, 0x7f80000000000000, 0x0⟩

theorem regAt_tilStat {t : Nat} (h : t < 768) : regAt (tilStat t) = some tilStatDesc := by
  refine regAt_eq (pre := tileRegs.take 1) (post := tileRegs.drop 2) (regsNear_page ?_) ?_ ?_
  · simp only [tilStat]
    omega
  · simp only [RegDesc.covers_iff, tilStat, tilStatDesc]
    omega
  · simp only [tileRegs, List.take_succ_cons, List.take_zero, List.forall_mem_singleton, RegDesc.covers_iff, tilStat]
    omega

/-- Every register of a tile's page but TIL_STAT is zero after reset. -/
theorem regReset_page {off : Nat} (h : 0x1000000 ≤ off) (h4 : off % 0x8000 ≠ 4) : regReset off = 0 := by
  have all : ∀ d ∈ tileRegs, d = tilStatDesc ∨ d.reset = 0 := by decide
  unfold regReset
  cases hr : regAt off with
  | none => rfl
  | some d =>
    obtain ⟨mem, covers⟩ := regAt_some hr
    rw [regsNear_page h] at mem
    rcases all d mem with rfl | zero
    · rw [RegDesc.covers_iff] at covers
      simp only [tilStatDesc] at covers
      omega
    · exact congrArg (BitVec.ofNat 64) zero

/-- The registers of a tile's page below TIL_INT_STAT have no ROS field. -/
theorem rosMask_page {off : Nat} (h : 0x1000000 ≤ off) (low : off % 0x8000 < 0x28) : rosMask off = 0 := by
  have all : ∀ d ∈ tileRegs, d = tilIntStatDesc ∨ d = tilDmaStatDesc ∨ d.ros = 0 := by decide
  unfold rosMask
  cases hr : regAt off with
  | none => rfl
  | some d =>
    obtain ⟨mem, covers⟩ := regAt_some hr
    rw [regsNear_page h] at mem
    rcases all d mem with rfl | rfl | zero
    · rw [RegDesc.covers_iff] at covers
      simp only [tilIntStatDesc] at covers
      omega
    · rw [RegDesc.covers_iff] at covers
      simp only [tilDmaStatDesc] at covers
      omega
    · exact congrArg (BitVec.ofNat 64) zero

theorem regReset_tilStat {t : Nat} (h : t < 768) : regReset (tilStat t) = 0x80001 := by
  rw [regReset, regAt_tilStat h]
  rfl

end Sys2Proof.Machine
end

section
/-! The statement on counters and faults cleared, the end of a drain, and tile reset (R113, R116, R119, R120, R145). -/

namespace Sys2Proof.Machine

open Sys2Proof

/-- A relation of states that composes holds over a list of steps each of which keeps it. -/
theorem foldl_related {α : Type} {R : State → State → Prop} (refl : ∀ s, R s s)
    (trans : ∀ {s v u}, R s v → R v u → R s u) {f : State → α → State} :
    ∀ (l : List α), (∀ x ∈ l, ∀ s, R s (f s x)) → ∀ s, R s (l.foldl f s)
  | [], _, s => refl s
  | x :: l, h, s => trans (h x List.mem_cons_self s)
      (foldl_related refl trans l (fun y hy => h y (List.mem_cons_of_mem _ hy)) (f s x))

/-! ### Counters cleared (R120, R154, R181, R182, R230) -/

/-- The counters of a tile's page: what CNT_CLEAR returns to zero as a whole. -/
def counterReg (t off : Nat) : Bool :=
  decide (0x1000000 + 0x8000 * t ≤ off) &&
    (decide (off < 0x1000000 + 0x8000 * t + 0x8000) && countOff (off - (0x1000000 + 0x8000 * t)))

/-- The state with the counters of a tile's page zero. -/
def countersDropped (t : Nat) (s : State) : State := { s with regs := tdrop (counterReg t) s.regs }

/-- The fields of DMA status and LAT_STAT that CNT_CLEAR returns to zero. -/
def statsCleared (t : Nat) (s : State) : State :=
  let s := (List.range 4).foldl (fun s e => upd (tilDmaStat t e) TilDmaStat.abandoned 0 s) s
  put (latStat t) (setF 0 LatStat.tunnels (get s (latStat t) LatStat.tunnels)) s

theorem clearCounters_eq (t : Nat) (s : State) : clearCounters t s = statsCleared t (countersDropped t s) := rfl

theorem statsCleared_regs (t : Nat) (s : State) :
    RegsBut (fun o => (∃ e, e < 4 ∧ o = tilDmaStat t e) ∨ o = latStat t) s (statsCleared t s) :=
  (foldl_related (RegsBut.refl _) RegsBut.trans _ (fun e he _ => regsBut_upd (.inl ⟨e, List.mem_range.mp he, rfl⟩) _ _ _) s).trans
    (regsBut_put (.inr rfl) _ _)

theorem counterReg_iff (t off : Nat) : counterReg t off = true ↔ countOff (off - (0x1000000 + 0x8000 * t)) = true ∧
    0x1000000 + 0x8000 * t ≤ off ∧ off < 0x1000000 + 0x8000 * (t + 1) := by
  simp only [counterReg, Bool.and_eq_true, decide_eq_true_eq, Nat.mul_succ, ← Nat.add_assoc]
  exact ⟨fun ⟨h1, h2, h3⟩ => ⟨h3, h1, h2⟩, fun ⟨h3, h1, h2⟩ => ⟨h1, h2, h3⟩⟩

theorem countOff_iff (o : Nat) : countOff o = true ↔ (0x38 ≤ o ∧ o < 0x80) ∨ (0xA0 ≤ o ∧ o < 0x100) ∨ 0x2000 ≤ o := by
  simp [countOff]

/-- A counter at an offset `o` of a tile's page reads zero once it is cleared. -/
theorem rd_clearCounters {s : State} (inv : Inv s) (t : Nat) {o : Nat} (h8 : o < 0x8000) (h : countOff o = true) :
    rd (clearCounters t s) (0x1000000 + 0x8000 * t + o) = 0 := by
  have page : counterReg t (0x1000000 + 0x8000 * t + o) = true := by
    rw [counterReg_iff, Nat.add_sub_cancel_left]
    exact ⟨h, by omega, by omega⟩
  rw [countOff_iff] at h
  have other : ¬ ((∃ e, e < 4 ∧ 0x1000000 + 0x8000 * t + o = tilDmaStat t e) ∨
      0x1000000 + 0x8000 * t + o = latStat t) := by
    simp only [tilDmaStat, latStat]
    rintro (⟨e, he, eq⟩ | eq) <;> omega
  rw [clearCounters_eq, statsCleared_regs t _ _ other, countersDropped, rd_dropRegs inv, if_pos page]
  exact regReset_page (by omega) (by omega)

theorem clearCounters_regs {s : State} (inv : Inv s) (t : Nat) :
    RegsBut (fun o => (countOff (o - (0x1000000 + 0x8000 * t)) = true ∧ 0x1000000 + 0x8000 * t ≤ o ∧
      o < 0x1000000 + 0x8000 * (t + 1)) ∨ (∃ e, e < 4 ∧ o = tilDmaStat t e) ∨ o = latStat t) s (clearCounters t s) := by
  have dropped : RegsBut (fun o => counterReg t o = true) s (countersDropped t s) := fun o ho =>
    (rd_dropRegs inv _ o).trans (if_neg ho)
  rw [clearCounters_eq]
  exact (dropped.mono fun o ho => .inl ((counterReg_iff t o).mp ho)).trans ((statsCleared_regs t _).mono fun _ => .inr)

section

variable {t : TileId} {s : State}

theorem completes_tilCntClear (on : On s) (inv : Inv s) (reached : regOff s (tilCtrl t) = false) :
    Completes (.tilCntClear .fw t) s fun u => (∀ k, k < 6 → rd u (tilCnt t k) = 0) ∧
      (∀ k, rd u (stallUnit t k) = 0 ∨ 2048 ≤ k) ∧ rd u (latPaceCnt t) = 0 ∧
      RegsBut (fun o => (countOff (o - (0x1000000 + 0x8000 * t)) = true ∧ 0x1000000 + 0x8000 * t ≤ o ∧
        o < 0x1000000 + 0x8000 * (t + 1)) ∨ (∃ e, e < 4 ∧ o = tilDmaStat t e) ∨ o = latStat t) s u ∧
      u = { s with regs := u.regs } := by
  refine completes_asFirmware on _ _ rfl reached ⟨fun k hk => ?_, fun k => ?_, ?_, clearCounters_regs inv t, rfl⟩
  · have place : tilCnt t k = 0x1000000 + 0x8000 * t + (0x40 + 8 * k) := by
      simp only [tilCnt]
      omega
    rw [place, rd_clearCounters inv t (by omega) ((countOff_iff _).mpr (by omega))]
  · by_cases hk : 2048 ≤ k
    · exact .inr hk
    · have place : stallUnit t k = 0x1000000 + 0x8000 * t + (0x2000 + 8 * k) := by
        simp only [stallUnit]
        omega
      rw [place, rd_clearCounters inv t (by omega) ((countOff_iff _).mpr (by omega))]
      exact .inl rfl
  · have place : latPaceCnt t = 0x1000000 + 0x8000 * t + 0x38 := by
      simp only [latPaceCnt]
      omega
    rw [place, rd_clearCounters inv t (by omega) (by decide)]

/-! ### Faults cleared and the end of a drain (R113, R119, R145) -/

/-- A register written with zero. -/
theorem put_zero (off : Nat) (s : State) : rd (put off 0 s) off = 0 ∧ RegsBut (· = off) s (put off 0 s) ∧
    put off 0 s = { s with regs := (put off 0 s).regs } :=
  ⟨rd_put_same _ _ _, regsBut_put (p := (· = off)) rfl _ _, rfl⟩

theorem completes_tileDrainDone (on : On s) (drains : tileSt s t = tsDrain)
    (idle : ((tile s t).passes.any fun r => r.phase == .running) = false) (none : (tile s t).kernel = none) :
    Completes (.tileDrainDone t) s fun u =>
      tileSt u t = (if get s (tilCtrl t) TilCtrl.testWin = 1 then tsTest else tsHalt) ∧
      RegsBut (· = tilStat t) s u ∧ u = { s with regs := u.regs } := by
  have fits : (if get s (tilCtrl t) TilCtrl.testWin = 1 then tsTest else tsHalt) < 2 ^ 3 := by split <;> decide
  refine completes_powered on _ rfl ?_
  rw [if_pos ⟨drains, by rw [idle]; rfl, by rw [none]; rfl⟩]
  exact ⟨tileSt_setTileSt (tileOff_of_tileSt (by rw [drains]; decide)) fits,
    regsBut_upd (p := (· = tilStat t)) rfl _ _ _, rfl⟩

end

/-! ### Engines that abandon their descriptors (R179, R182, R513) -/

/-- What abandoning a tile's engines changes: their DMA status, the credits reclaimed, the reports, and of the tile the
engines. -/
structure Abandons (t : Nat) (s u : State) : Prop where
  regs : RegsBut (fun o => (∃ e, e < 4 ∧ o = tilDmaStat t e) ∨ o = ledCnt LedCnt.reclReset ∨
    o = ledCnt LedCnt.dmaOutstanding ∨ ReportReg o) s u
  tile : tile u t = { tile s t with engines := (tile u t).engines }
  others : OtherTiles t s u
  same : u = { s with regs := u.regs, tiles := u.tiles, log := u.log, svc := u.svc, i3c := u.i3c, host := u.host }

theorem Abandons.refl (t : Nat) (s : State) : Abandons t s s := ⟨.refl _ _, rfl, fun _ _ => rfl, rfl⟩

theorem Abandons.trans {t : Nat} {s v u : State} (h : Abandons t s v) (k : Abandons t v u) : Abandons t s u := by
  refine ⟨h.regs.trans k.regs, ?_, fun t' ht => (k.others t' ht).trans (h.others t' ht), ?_⟩
  · rw [k.tile, h.tile]
  · rw [k.same, h.same]

theorem Reports.abandons {s u : State} (h : Reports s u) (t : Nat) : Abandons t s u := by
  obtain ⟨regs, same⟩ := h
  have tiles : ∀ v, tile u v = tile s v := fun v => by
    rw [same]
    rfl
  exact ⟨regs.mono fun _ ho => .inr (.inr (.inr ho)), by rw [tiles], fun v _ => tiles v, by rw [same]⟩

theorem put_abandons {t off : Nat} (h : (∃ e, e < 4 ∧ off = tilDmaStat t e) ∨ off = ledCnt LedCnt.reclReset ∨
    off = ledCnt LedCnt.dmaOutstanding ∨ ReportReg off) (v : Reg) (s : State) : Abandons t s (put off v s) :=
  ⟨regsBut_put h _ _, rfl, fun _ _ => rfl, rfl⟩

theorem setEngine_abandons (t e : Nat) (x : DmaEngine) (s : State) : Abandons t s (setEngine t e x s) :=
  ⟨fun _ _ => rfl, by rw [setEngine, tile_updTile_same], updTile_others _ _ _, rfl⟩

theorem reclaimReset_abandons (t n : Nat) (s : State) : Abandons t s (reclaimReset n s) := by
  unfold reclaimReset
  split
  · exact .refl t s
  · exact (put_abandons (.inr (.inr (.inl rfl))) _ s).trans (put_abandons (.inr (.inl rfl)) _ _)

theorem logs_abandon (t : Nat) (a b c d e f n : Nat) (s : State) :
    Abandons t s ((List.range n).foldl (fun s _ => logOpen a b c d e f s) s) :=
  foldl_related (.refl t) .trans _ (fun _ _ s => (logOpen_reports _ _ _ _ _ _ s).abandons t) s

theorem abandonEngines_abandons (t : Nat) (s : State) : Abandons t s (abandonEngines t s) := by
  refine foldl_related (.refl t) .trans _ (fun e he s => ?_) s
  dsimp only
  split
  · exact .refl t s
  · exact ((((put_abandons (.inl ⟨e, List.mem_range.mp he, rfl⟩) _ s).trans (logs_abandon t _ _ _ _ _ _ _ _)).trans
      (logs_abandon t _ _ _ _ _ _ _ _)).trans (reclaimReset_abandons t _ _)).trans (setEngine_abandons t e _ _)

/-! ### Tile reset (R116) -/

/-- What a tile keeps over a tile reset: its memories, its clock, the words in error, and what its interface holds. -/
def TileState.afterReset (x : TileState) : TileState :=
  { tclk := x.tclk, frame := x.frame, wm := x.wm, am := x.am, pm := x.pm, istore := x.istore, side := x.side
    amWrites := x.amWrites, anchors := x.anchors, errs := x.errs, notify := x.notify, chans := x.chans
    engines := x.engines }

theorem tileReset_eq (t : Nat) (s : State) : tileReset t s = resetRegs (tileResetOff t) false
    (setTile t (tile (abandonEngines t s) t).afterReset (abandonEngines t s)) := rfl

theorem tileResetOff_iff (t off : Nat) : tileResetOff t off = true ↔ 0x1000000 + 0x8000 * t ≤ off ∧
    off < 0x1000000 + 0x8000 * t + 0x8000 ∧ (off - (0x1000000 + 0x8000 * t) < 0x10 ∨
      off - (0x1000000 + 0x8000 * t) = 0x20 ∨ (0x40 ≤ off - (0x1000000 + 0x8000 * t) ∧
        off - (0x1000000 + 0x8000 * t) < 0xA0) ∨ 0x2000 ≤ off - (0x1000000 + 0x8000 * t)) := by
  simp [tileResetOff]

/-- The engines' DMA status is among the registers that tile reset returns to reset. -/
theorem tileResetOff_dmaStat {t e : Nat} (h : e < 4) : tileResetOff t (tilDmaStat t e) = true := by
  rw [tileResetOff_iff]
  simp only [tilDmaStat]
  omega

theorem tileReset_regs {s : State} (inv : Inv s) (t : Nat) :
    RegsBut (fun o => tileResetOff t o = true ∨ o = ledCnt LedCnt.reclReset ∨ o = ledCnt LedCnt.dmaOutstanding ∨
      ReportReg o) s (tileReset t s) := by
  have inv' : Inv (abandonEngines t s) := (good_abandonEngines (q := s.pending) ⟨rfl, inv⟩).inv
  have gone := (abandonEngines_abandons t s).regs
  intro o ho
  rw [not_or] at ho
  obtain ⟨keeps, other⟩ := ho
  rw [tileReset_eq, rd_resetRegs (good_setTile (q := (abandonEngines t s).pending) ⟨rfl, inv'⟩).inv, if_neg keeps,
    rd_setTile]
  refine gone o ?_
  rintro (⟨e, he, rfl⟩ | h)
  · exact keeps (tileResetOff_dmaStat he)
  · exact other h

/-- A register of the page that tile reset covers and that has no ROS field is at its reset value afterwards. -/
theorem rd_tileReset {s : State} (inv : Inv s) {t off : Nat} (h : tileResetOff t off = true) (ros : rosMask off = 0) :
    rd (tileReset t s) off = regReset off := by
  have inv' : Inv (abandonEngines t s) := (good_abandonEngines (q := s.pending) ⟨rfl, inv⟩).inv
  rw [tileReset_eq, rd_resetRegs (good_setTile (q := (abandonEngines t s).pending) ⟨rfl, inv'⟩).inv, if_pos h,
    resetValue_of_no_ros ros]

theorem tileReset_same (t : Nat) (s : State) : tileReset t s =
    { s with regs := (tileReset t s).regs, tiles := (tileReset t s).tiles, log := (tileReset t s).log
             svc := (tileReset t s).svc, i3c := (tileReset t s).i3c, host := (tileReset t s).host } := by
  have same := (abandonEngines_abandons t s).same
  rw [tileReset_eq, resetRegs, setTile]
  rw [same]

@[simp] theorem tile_resetRegs (p : Nat → Bool) (all : Bool) (s : State) (t : Nat) :
    tile (resetRegs p all s) t = tile s t := rfl

theorem TileState.afterReset_engines (x : TileState) (e : Table DmaEngine) :
    { x with engines := e }.afterReset = { x.afterReset with engines := e } := rfl

theorem tile_tileReset (t : Nat) (s : State) :
    tile (tileReset t s) t = { (tile s t).afterReset with engines := (tile (abandonEngines t s) t).engines } := by
  have kept := congrArg TileState.afterReset (abandonEngines_abandons t s).tile
  rw [tileReset_eq, tile_resetRegs, tile_setTile_same, kept, TileState.afterReset_engines]

theorem tileReset_others (t : Nat) (s : State) : OtherTiles t s (tileReset t s) := by
  intro v hv
  rw [tileReset_eq, tile_resetRegs, tile_setTile_ne hv, (abandonEngines_abandons t s).others v hv]

/-- Tile reset keeps the part of the page that holds windows, tasks and channels. -/
theorem rd_tileReset_kept {s : State} (inv : Inv s) {t o : Nat} (h : 0x100 ≤ o) (h' : o < 0x2000) :
    rd (tileReset t s) (0x1000000 + 0x8000 * t + o) = rd s (0x1000000 + 0x8000 * t + o) := by
  refine tileReset_regs inv t _ ?_
  rintro (covered | reclaimed | outstanding | report)
  · rw [tileResetOff_iff] at covered
    omega
  · simp only [ledCnt, LedCnt.reclReset] at reclaimed
    omega
  · simp only [ledCnt, LedCnt.dmaOutstanding] at outstanding
    omega
  · exact not_reportReg_of_page (by omega) report

theorem rd128_tileReset {s : State} (inv : Inv s) {t o : Nat} (h : 0x100 ≤ o) (h' : o + 8 < 0x2000) :
    rd128 (tileReset t s) (0x1000000 + 0x8000 * t + o) = rd128 s (0x1000000 + 0x8000 * t + o) := by
  rw [rd128, rd128, rd_tileReset_kept inv h (by omega), Nat.add_assoc (0x1000000 + 0x8000 * t) o 8,
    rd_tileReset_kept inv (by omega) h']

theorem taskEntry_tileReset {s : State} (inv : Inv s) (t : Nat) {k : Nat} (hk : k < 64) :
    taskEntry (tileReset t s) t k = taskEntry s t k := by
  have place : tilTask t (2 * k) = 0x1000000 + 0x8000 * t + (0x400 + 16 * k) := by
    simp only [tilTask]
    omega
  rw [taskEntry, taskEntry, place, rd128_tileReset inv (by omega) (by omega)]

theorem windowEntry_tileReset {s : State} (inv : Inv s) (t : Nat) {w : Nat} (hw : w < 16) :
    windowEntry (tileReset t s) t w = windowEntry s t w := by
  have place : tilWin t (2 * w) = 0x1000000 + 0x8000 * t + (0x100 + 16 * w) := by
    simp only [tilWin]
    omega
  rw [windowEntry, windowEntry, place, rd128_tileReset inv (by omega) (by omega)]

theorem not_reset_pwrState (t : Nat) : ¬ (tileResetOff t pwrState = true ∨ pwrState = ledCnt LedCnt.reclReset ∨
    pwrState = ledCnt LedCnt.dmaOutstanding ∨ ReportReg pwrState) := by
  rintro (covered | reclaimed | outstanding | report)
  · rw [tileResetOff_iff] at covered
    simp only [pwrState] at covered
    omega
  · exact absurd reclaimed (by decide)
  · exact absurd outstanding (by decide)
  · exact not_reportReg_pwrState report

/-- A tile that has been reset is in IDLE. -/
theorem tileSt_tileReset {s : State} (inv : Inv s) {t : Nat} (ht : t < 768) (on : tileOff s t = false) :
    tileSt (tileReset t s) t = tsIdle := by
  have same := tileReset_same t s
  have on' : tileOff (tileReset t s) t = false := by
    rw [tileOff_congr (tileReset_regs inv t _ (not_reset_pwrState t)) (by rw [same]) (by rw [same]), on]
  have covered : tileResetOff t (tilStat t) = true := by
    rw [tileResetOff_iff]
    simp only [tilStat]
    omega
  have stat : rd (tileReset t s) (tilStat t) = 0x80001 := by
    rw [rd_tileReset inv covered (rosMask_page (by simp only [tilStat]; omega) (by simp only [tilStat]; omega)),
      regReset_tilStat ht]
  rw [tileSt_of_on on', get, stat]
  decide

/-- TIL_FAULT and TIL_DF_FAULT, at 8 and 0x20 of the page, read zero after tile reset. -/
theorem rd_tileReset_fault {s : State} (inv : Inv s) {t o : Nat} (h : o = 8 ∨ o = 0x20) :
    rd (tileReset t s) (0x1000000 + 0x8000 * t + o) = 0 := by
  have covered : tileResetOff t (0x1000000 + 0x8000 * t + o) = true := by
    rw [tileResetOff_iff]
    omega
  rw [rd_tileReset inv covered (rosMask_page (by omega) (by omega)), regReset_page (by omega) (by omega)]

theorem completes_tileReset {t : TileId} {s : State} (on : On s) (inv : Inv s) (live : tileOff s t = false)
    (waits : awaitsRun s t = false) :
    Completes (.tileReset t) s fun u => tileSt u t = tsIdle ∧ rd u (tilFault t) = 0 ∧ rd u (tilDfFault t) = 0 ∧
      (tile u t).passQ = [] ∧ (tile u t).kernQ = [] ∧ (tile u t).passes = [] ∧ (tile u t).kernel = none ∧
      (tile u t).v = [] ∧ (tile u t).sreg = [] ∧
      (tile u t).wm = (tile s t).wm ∧ (tile u t).am = (tile s t).am ∧ (tile u t).pm = (tile s t).pm ∧
      (tile u t).istore = (tile s t).istore ∧ (∀ k, k < 64 → taskEntry u t k = taskEntry s t k) ∧
      (∀ w, w < 16 → windowEntry u t w = windowEntry s t w) ∧ (∀ t', t' ≠ t.val → tile u t' = tile s t') ∧ u.hbm = s.hbm ∧
      RegsBut (fun o => tileResetOff t o = true ∨ o = ledCnt LedCnt.reclReset ∨ o = ledCnt LedCnt.dmaOutstanding ∨
        ReportReg o) s u := by
  have same := tileReset_same t s
  have waits' : awaitsRun (tileReset t s) t = false := by
    have integ : (tileReset t s).integ = s.integ := by rw [same]
    rw [awaitsRun, integ]
    exact waits
  have fault : tilFault t = 0x1000000 + 0x8000 * t + 8 := by
    simp only [tilFault]
    omega
  have dfFault : tilDfFault t = 0x1000000 + 0x8000 * t + 0x20 := by
    simp only [tilDfFault]
    omega
  refine completes_powered on _ rfl ?_
  dsimp only
  rw [live, waits', if_neg Bool.false_ne_true, if_neg Bool.false_ne_true, tile_tileReset]
  refine ⟨tileSt_tileReset inv t.isLt live, by rw [fault, rd_tileReset_fault inv (.inl rfl)],
    by rw [dfFault, rd_tileReset_fault inv (.inr rfl)], rfl, rfl, rfl, rfl, rfl, rfl, rfl, rfl, rfl, rfl,
    fun k hk => taskEntry_tileReset inv t hk, fun w hw => windowEntry_tileReset inv t hw, tileReset_others t s, by rw [same],
    tileReset_regs inv t⟩

/-- Settles O22: what each command clears or ends is read off its registers, and tile reset keeps the rest of the tile. -/
theorem tileFaultsAndReset : Obligations.TileFaultsAndReset := by
  unfold Obligations.TileFaultsAndReset
  refine ⟨?_, ?_, ?_, ?_, ?_⟩
  · exact fun t s on inv reached => completes_tilCntClear on inv reached
  · exact fun t s on reached => completes_asFirmware on _ _ rfl reached (put_zero _ s)
  · exact fun t s on reached => completes_asFirmware on _ _ rfl reached (put_zero _ s)
  · exact fun t s on drains idle none => completes_tileDrainDone on drains idle none
  · exact fun t s on inv live waits => completes_tileReset on inv live waits

end Sys2Proof.Machine
end

section
/-! Setting the device's state, and clusters and limits of the power controller: what each part of a control sample
changes (R386-R391, R398). -/

namespace Sys2Proof.Machine

open Sys2Proof

/-! ### The device's state (R10, R403) -/

/-- The device's state is set: of PWR_STATE only STATE has changed, and beyond it the reports and the spans that a firmware
trial judges. -/
structure StateSet (v : Nat) (s u : State) : Prop where
  regs : RegsBut (fun o => o = pwrState ∨ ReportReg o) s u
  same : u = { s with regs := u.regs, nvm := u.nvm, log := u.log, svc := u.svc, i3c := u.i3c, host := u.host }
  state : get u pwrState PwrState.state = v
  field : ∀ f : Fld, 3 ≤ f.lo → f.lo + f.w ≤ 64 → get u pwrState f = get s pwrState f

theorem setDevState_stateSet {v : Nat} (hv : v < 2 ^ 3) (s : State) : StateSet v s (setDevState v s) := by
  unfold setDevState
  split
  · next holds => exact ⟨.refl _ _, rfl, holds, fun _ _ _ => rfl⟩
  · refine .mk ?_ ?_ ?_ fun f lo hi => ?_
    all_goals dsimp only
    all_goals generalize hn : ({ s.nvm with runSince := _, firstRun := _ } : NvmState) = n
    all_goals
      obtain ⟨regs, same⟩ := ((raiseBoth_reports evState (upd pwrState PwrState.state v { s with nvm := n })).trans
        (svcEvent_reports .stateChange _)).trans
          (logOpen_reports (if v = 3 ∨ v = 4 then sevDegrade else sevNotice) kState bPwr 398 v 0 _)
    · exact (regsBut_upd (s := { s with nvm := n }) (.inl rfl) _ _).trans (regs.mono fun _ => .inr)
    · rw [same]
      rfl
    · rw [get, regs _ not_reportReg_pwrState]
      exact (get_upd_same _ _ _ _ (by decide)).trans (Nat.mod_eq_of_lt hv)
    · rw [get, regs _ not_reportReg_pwrState]
      exact get_upd_other _ _ _ _ _ hi (.inl lo)

theorem StateSet.workSame {v : Nat} {s u : State} (h : StateSet v s u) : WorkSame s u := by
  unfold WorkSame
  rw [h.same]
  exact ⟨rfl, rfl, rfl, rfl, rfl, rfl, rfl⟩

theorem devState_eq {s : State} (on : On s) : devState s = match get s pwrState PwrState.state with
    | 2 => .summer
    | 3 => .autumn
    | 4 => .winter
    | _ => .spring := by
  rw [devState, on]
  rfl

theorem devState_summer {s : State} (on : On s) : devState s = .summer ↔ get s pwrState PwrState.state = 2 := by
  rw [devState_eq on]
  split <;> simp_all

theorem devState_autumn {s : State} (on : On s) (h : get s pwrState PwrState.state = 3) : devState s = .autumn := by
  simp only [devState_eq on, h]

/-! ### Changes by the controller -/

/-- Nothing but the slope counters and the controller's own state has changed. -/
structure Steers (s u : State) : Prop where
  regs : RegsBut (· = pwrSlopeStat) s u
  same : u = { s with regs := u.regs, control := u.control }

theorem Steers.refl (s : State) : Steers s s := ⟨.refl _ _, rfl⟩

theorem Steers.trans {s v u : State} (h : Steers s v) (k : Steers v u) : Steers s u :=
  ⟨h.regs.trans k.regs, by rw [k.same, h.same]⟩

theorem Steers.foldl {α : Type} {f : State → α → State} (h : ∀ s x, Steers s (f s x)) (l : List α) (s : State) :
    Steers s (l.foldl f s) := foldl_related .refl .trans l (fun x _ s => h s x) s

theorem Steers.ite {c : Prop} [Decidable c] {s v u : State} (h : Steers s v) (k : Steers s u) :
    Steers s (if c then v else u) := by
  split
  · exact h
  · exact k

theorem ctl_steers (f : ControlState → ControlState) (s : State) : Steers s (ctl f s) := ⟨fun _ _ => rfl, rfl⟩

theorem satAdd_steers (f : Fld) (n : Nat) (s : State) : Steers s (satAdd pwrSlopeStat f n s) :=
  ⟨regsBut_satAdd (p := (· = pwrSlopeStat)) rfl _ _ _, rfl⟩

theorem exemptFall_steers (s : State) : Steers s (exemptFall s) := satAdd_steers _ _ s

theorem noteActivity_steers (x : PowerSample) (s : State) (g : Nat) : Steers s (noteActivity x s g) := by
  unfold noteActivity
  dsimp only
  have taken := ctl_steers (fun c => { c with act := tset (fun _ => 0) g (min 64 (reading x.act g 0)) c.act }) s
  have idle := taken.trans (Steers.ite (c := min 64 (reading x.act g 0) = 0)
    (ctl_steers (fun c => { c with idle := tset (fun _ => none) g (some (clusterPower s g)) c.idle }) _) (.refl _))
  split
  · exact idle
  · exact idle.trans (ctl_steers _ _)

theorem notePower_steers (p : Nat) (s : State) : Steers s (notePower p s) := by
  unfold notePower
  dsimp only
  split
  · exact ctl_steers _ s
  · exact (ctl_steers _ s).trans (ctl_steers _ _)

theorem updateLField_steers (s : State) (f : Nat) : Steers s (updateLField s f) := by
  unfold updateLField
  dsimp only
  exact (Steers.ite (exemptFall_steers s) (.refl s)).trans (ctl_steers _ _)

theorem updateLIlim_steers (s : State) (g : Nat) : Steers s (updateLIlim s g) := by
  unfold updateLIlim
  dsimp only
  exact (Steers.ite (exemptFall_steers s) (.refl s)).trans (ctl_steers _ _)

theorem fallTherm_steers (p : Nat × State) (g : Nat) : Steers p.2 (fallTherm p g).2 := by
  unfold fallTherm
  dsimp only
  split
  · exact (ctl_steers _ _ : Steers p.2 (setTherm g (appliedTherm p.2 g - 1) p.2))
  · exact .refl _

theorem fallTherms_steers : ∀ (on : List Nat) (p : Nat × State), Steers p.2 (on.foldl fallTherm p).2
  | [], p => .refl p.2
  | g :: on, p => (fallTherm_steers p g).trans (fallTherms_steers on _)

theorem fallRounds_steers (on : List Nat) : ∀ (n : Nat) (p : Nat × State), Steers p.2 (fallRounds on n p).2
  | 0, p => .refl p.2
  | n + 1, p => by
    unfold fallRounds
    dsimp only
    split
    · exact .refl p.2
    · exact (fallTherms_steers on p).trans (fallRounds_steers on n _)

theorem applyTherm_steers (on : List Nat) (fall : Nat) (s : State) : Steers s (applyTherm on fall s).2 := by
  refine Steers.trans ?_ (fallRounds_steers on 64 _)
  exact .foldl (fun s g => .ite (ctl_steers _ s) (.refl s)) on s

/-! ### M_W (R386, R391) -/

/-- M_W is set, by at most `n` steps above where it was, and nothing else. -/
structure MwSet (n : Nat) (s u : State) : Prop where
  regs : RegsBut (· = pwrState) s u
  same : u = { s with regs := u.regs }
  state : get u pwrState PwrState.state = get s pwrState PwrState.state
  le : get u pwrState PwrState.mW ≤ get s pwrState PwrState.mW + n

theorem MwSet.refl (n : Nat) (s : State) : MwSet n s s := ⟨.refl _ _, rfl, rfl, Nat.le_add_right _ _⟩

theorem MwSet.trans {m n : Nat} {s v u : State} (h : MwSet m s v) (k : MwSet n v u) : MwSet (m + n) s u := by
  refine ⟨h.regs.trans k.regs, by rw [k.same, h.same], k.state.trans h.state, ?_⟩
  have := h.le
  have := k.le
  omega

theorem upd_mwSet {m n : Nat} {s : State} (h : m ≤ mW s + n) : MwSet n s (upd pwrState PwrState.mW m s) := by
  refine ⟨regsBut_upd (p := (· = pwrState)) rfl _ _ _, rfl, get_upd_other _ _ _ _ _ (by decide) (by decide), ?_⟩
  rw [get_upd_same _ _ _ _ (by decide)]
  exact Nat.le_trans (Nat.mod_le _ _) h

theorem fallMw_mwSet (on : List Nat) (pOther : Nat) (target : Int) (cap : Nat) :
    ∀ (n fall : Nat) (s : State), MwSet 0 s (fallMw on pOther target cap n fall s).2
  | 0, _, s => .refl 0 s
  | n + 1, fall, s => by
    unfold fallMw
    dsimp only
    split
    · exact (upd_mwSet (n := 0) (Nat.sub_le _ _)).trans (fallMw_mwSet on pOther target cap n _ _)
    · exact .refl 0 s

/-! ### Readings (R367, R379, R380, R382) -/

/-- Readings of clusters and fields are in their registers, and no cluster's state has changed. -/
structure FieldsNoted (s u : State) : Prop where
  regs : RegsBut (fun o => (∃ g, g < 240 ∧ o = pwrClStat g) ∨ ∃ f, f < 12 ∧ o = pwrFieldStat f) s u
  same : u = { s with regs := u.regs }
  state : ∀ g, g < 240 → get u (pwrClStat g) PwrClStat.state = get s (pwrClStat g) PwrClStat.state

theorem FieldsNoted.refl (s : State) : FieldsNoted s s := ⟨.refl _ _, rfl, fun _ _ => rfl⟩

theorem FieldsNoted.trans {s v u : State} (h : FieldsNoted s v) (k : FieldsNoted v u) : FieldsNoted s u :=
  ⟨h.regs.trans k.regs, by rw [k.same, h.same], fun g hg => (k.state g hg).trans (h.state g hg)⟩

theorem iout_noted {g : Nat} (hg : g < 240) (x : Nat) (s : State) :
    FieldsNoted s (upd (pwrClStat g) PwrClStat.iout x s) := by
  refine ⟨regsBut_upd (.inl ⟨g, hg, rfl⟩) _ _ _, rfl, fun c _ => ?_⟩
  by_cases h : c = g
  · rw [h, get_upd_other _ _ _ _ _ (by decide) (by decide)]
  · exact get_upd_ne (by simp only [pwrClStat]; omega) _ _ _ _

theorem fieldStat_noted {f : Nat} (hf : f < 12) (d : Fld) (x : Nat) (s : State) :
    FieldsNoted s (upd (pwrFieldStat f) d x s) :=
  ⟨regsBut_upd (.inr ⟨f, hf, rfl⟩) _ _ _, rfl,
    fun c hc => get_upd_ne (by simp only [pwrClStat, pwrFieldStat]; omega) _ _ _ _⟩

/-- Readings by index: those of an index in range are noted, the others pass. -/
theorem readings_noted {n : Nat} {f : State → Nat × Nat → State}
    (h : ∀ (e : Nat × Nat) (s : State), e.1 < n → FieldsNoted s (f s e)) (l : List (Nat × Nat)) (s : State) :
    FieldsNoted s (l.foldl (fun s e => if e.1 < n then f s e else s) s) := by
  refine foldl_related .refl .trans l (fun e _ s => ?_) s
  split
  · next he => exact h e s he
  · exact .refl s

/-- PWR_IN_STAT as a sample leaves it: VIN, IIN and HALT_PEND. -/
def inputNoted (x : PowerSample) (s : State) : State :=
  let s := upd pwrInStat PwrInStat.iin (min 65535 x.iin) (upd pwrInStat PwrInStat.vin (min 65535 x.vin) s)
  upd pwrInStat PwrInStat.haltPend (b2n (decide (x.vin < 3800) && get s pwrInStat PwrInStat.halt == 0)) s

theorem noteReadings_noted (x : PowerSample) (s : State) : FieldsNoted (inputNoted x s) (noteReadings x s) :=
  ((readings_noted (fun _ s he => iout_noted he _ s) x.iout _).trans
    (readings_noted (fun _ s he => fieldStat_noted he _ _ s) x.ifield _)).trans
      (readings_noted (fun _ s he => fieldStat_noted he _ _ s) x.vrail _)

theorem inputNoted_fields (x : PowerSample) (s : State) :
    get (inputNoted x s) pwrInStat PwrInStat.vin = min 65535 x.vin ∧
      get (inputNoted x s) pwrInStat PwrInStat.iin = min 65535 x.iin ∧
      get (inputNoted x s) pwrInStat PwrInStat.cap = get s pwrInStat PwrInStat.cap := by
  have fits : ∀ v, min 65535 v % 2 ^ 16 = min 65535 v := fun v =>
    Nat.mod_eq_of_lt (Nat.lt_of_le_of_lt (Nat.min_le_left _ _) (by decide))
  unfold inputNoted
  refine ⟨?_, ?_, ?_⟩
  · rw [get_upd_other _ _ _ _ _ (by decide) (by decide), get_upd_other _ _ _ _ _ (by decide) (by decide),
      get_upd_same _ _ _ _ (by decide)]
    exact fits _
  · rw [get_upd_other _ _ _ _ _ (by decide) (by decide), get_upd_same _ _ _ _ (by decide)]
    exact fits _
  · rw [get_upd_other _ _ _ _ _ (by decide) (by decide), get_upd_other _ _ _ _ _ (by decide) (by decide),
      get_upd_other _ _ _ _ _ (by decide) (by decide)]

theorem inputNoted_regs (x : PowerSample) (s : State) : RegsBut (· = pwrInStat) s (inputNoted x s) :=
  ((regsBut_upd (p := (· = pwrInStat)) rfl _ _ s).trans (regsBut_upd (p := (· = pwrInStat)) rfl _ _ _)).trans
    (regsBut_upd (p := (· = pwrInStat)) rfl _ _ _)

/-! ### Clusters that are ON -/

/-- A key that does not read as unlisted is listed. -/
theorem listed_of_ne {α : Type} {d : Nat → α} {i : Nat} : ∀ {t : Table α}, tget d t i ≠ d i → (i, tget d t i) ∈ t
  | [], h => absurd rfl h
  | (k, v) :: r, h => by
    rcases Nat.lt_trichotomy i k with hi | rfl | hi
    · exact absurd (if_pos hi) h
    · rw [tget_cons_same]
      exact List.mem_cons_self
    · rw [tget_cons_of_gt d hi] at h ⊢
      exact List.mem_cons_of_mem _ (listed_of_ne h)

/-- Every cluster that is ON is among those the controller steers. -/
theorem mem_onClusters {s : State} {g : Nat} (hg : g < 240) (h : get s (pwrClStat g) PwrClStat.state = 3) :
    g ∈ onClusters s := by
  have reset : getF (regReset (pwrClStat g)) PwrClStat.state ≠ 3 := by
    rw [regReset, regAt_pwrClStat hg]
    decide
  have listed : (pwrClStat g, rd s (pwrClStat g)) ∈ s.regs := by
    refine listed_of_ne fun e => reset ?_
    rw [← e]
    exact h
  refine List.mem_filterMap.mpr ⟨_, listed, ?_⟩
  have index : (pwrClStat g - 0x10000) / 0x20 = g := by
    simp only [pwrClStat]
    omega
  rw [if_pos ⟨by simp only [pwrClStat]; omega, by simp only [pwrClStat]; omega, by simp only [pwrClStat]; omega, h⟩, index]

/-! ### Issue limits (R386) -/

theorem otherLimits_le (s : State) (g : Nat) :
    otherLimits s g ≤ (if get s pwrInStat PwrInStat.cap = 1 then 32 else 64) ∧ otherLimits s g ≤ mW s ∧
      otherLimits s g ≤ tget (fun _ => 64) s.control.lField (clusterField g) := by
  unfold otherLimits
  dsimp only
  omega

/-- The issue limits of the clusters that are ON, as a sample sets them. -/
def limitsSet (on : List Nat) (s : State) : State :=
  ctl (fun c => { c with m := on.foldl (fun t g => tset (fun _ => 64) g (issueLimit s g) t) s.control.m }) s

theorem tget_foldl_tset_mem {α : Type} [DecidableEq α] (d v : Nat → α) {j : Nat} {l : List Nat} (h : j ∈ l)
    (m : Table α) : tget d (l.foldl (fun t g => tset d g (v g) t) m) j = v j := by
  have fold := tget_foldl_tset d 0 (fun _ => true) v j l m
  simpa [h] using fold

theorem limit_limitsSet {on : List Nat} {g : Nat} (h : g ∈ on) (s : State) :
    tget (fun _ => 64) (limitsSet on s).control.m g = issueLimit s g :=
  tget_foldl_tset_mem (fun _ => 64) (issueLimit s) h s.control.m

end Sys2Proof.Machine
end

section
/-! A control sample in its stages, and the statement on the power controller (R98, R386-R391, R398, R403, R418). -/

namespace Sys2Proof.Machine

open Sys2Proof

/-! ### The stages of a sample

`execControlSample` in four stages: the readings, what follows from them, M_W with the slope budgets, and the grants. -/

/-- Input power of a sample in W. -/
def samplePower (x : PowerSample) : Nat := x.vin * x.iin / 1000

/-- Readings and input power are noted. -/
def sampleRead (x : PowerSample) (s : State) : State := notePower (samplePower x) (noteReadings x s)

/-- Activities, and the limits of fields and of ILIM, follow from the readings. -/
def sampleFollow (x : PowerSample) (on : List Nat) (s : State) : State :=
  let s := on.foldl (noteActivity x) s
  on.foldl updateLIlim ((liveFields s).foldl updateLField s)

/-- M_W and the applied L_therm move within the budgets; the first part is what remains for falls. -/
def sampleMw (on : List Nat) (p pOther : Nat) (target : Int) (cap : Nat) (s : State) : Nat × State :=
  let th := applyTherm on 50000 s
  let above := decide (target < (p : Int)) || decide (cap < mW th.2)
  let mw := if above then fallMw on pOther (if target < (p : Int) then target else 1000000) cap 64 th.1 th.2 else th
  let s := mw.2
  (mw.1, if !above && (decide (mW s < min 64 cap) &&
      decide (((estimate s on pOther (mW s + 1) : Nat) : Int) + 100000 ≤ target * 1000)) then
    upd pwrState PwrState.mW (mW s + 1) s else s)

/-- Floors, ramps and the slope counters. -/
def sampleGrants (on : List Nat) (fall : Nat) (s : State) : State :=
  let turn := s.control.turn
  let held := on.any fun g => decide (get s (pwrClTherm g) PwrClTherm.lTherm < appliedTherm s g)
  let fl0 := on.foldl (fun t g => tset (fun _ => 0) g (activity s g) t) []
  let fl := if get s pwrLimit PwrLimit.fill = 0 || held then fl0 else shedAll s (rotate turn on) 500 fall fl0
  let gr := grantRises s (rotate turn on) 50000 ([], false)
  let starved := s.control.starvedPart + b2n gr.1.2
  let s := ctl (fun c => { c with floor := fl, lRamp := gr.1.1, turn := turn + 1, starvedPart := starved % 1024
                                  fallLeft := fall, riseLeft := gr.2 }) s
  if 1024 ≤ starved then satAdd pwrSlopeStat PwrSlopeStat.starved 1 s else s

/-- The cap of a pending divider change on M_W. -/
def stepCap (s : State) : Nat :=
  match s.clock.step with
  | some st => st.cap
  | none => 64

/-- A sample up to the issue limits. -/
def sampleSteered (x : PowerSample) (s : State) : State :=
  let s := sampleRead x s
  let on := onClusters s
  let s := sampleFollow x on s
  let pOther := samplePower x * 1000 - listSum (on.map fun g => atInput (clusterPower s g))
  let mw := sampleMw on (samplePower x) pOther (powerTarget (samplePower x) s) (stepCap s) s
  sampleGrants on mw.1 mw.2

/-- The target of a sample (R391). -/
def sampleTarget (x : PowerSample) (s : State) : Int :=
  let s := sampleRead x s
  powerTarget (samplePower x) (sampleFollow x (onClusters s) s)

/-- What a sample reports once the limits are set (R398, R400, R404, R417). -/
def sampleReport (p : Nat) (target : Int) (s : State) : State :=
  chooseTs (noteWinter (noteCauses (noteNear p target (noteWindows target s))))

/-- The state that a control sample leaves. -/
def sampled (x : PowerSample) (s : State) : State :=
  sampleReport (samplePower x) (sampleTarget x s) (limitsSet (onClusters (sampleRead x s)) (sampleSteered x s))

theorem execControlSample_eq (x : PowerSample) (s : State) :
    execControlSample x s = .next (powered (sampled x) s) := by
  have stages : sampled x = fun s => sampled x s := rfl
  rw [stages]
  unfold execControlSample sampled sampleReport sampleTarget sampleSteered sampleMw sampleGrants sampleRead sampleFollow
    samplePower stepCap limitsSet
  dsimp only <;> rfl

/-! ### What the steering stages change -/

theorem sampleFollow_steers (x : PowerSample) (on : List Nat) (s : State) : Steers s (sampleFollow x on s) :=
  ((Steers.foldl (noteActivity_steers x) on s).trans (.foldl updateLField_steers _ _)).trans
    (.foldl updateLIlim_steers on _)

theorem sampleGrants_steers (on : List Nat) (fall : Nat) (s : State) : Steers s (sampleGrants on fall s) := by
  unfold sampleGrants
  dsimp only
  split
  · exact (ctl_steers _ s).trans (satAdd_steers _ _ _)
  · exact ctl_steers _ s

theorem sampleMw_mwSet (on : List Nat) (p pOther : Nat) (target : Int) (cap : Nat) (s : State) :
    MwSet 1 (applyTherm on 50000 s).2 (sampleMw on p pOther target cap s).2 := by
  have raised : ∀ u, MwSet 1 u (upd pwrState PwrState.mW (mW u + 1) u) := fun u => upd_mwSet (Nat.le_refl _)
  unfold sampleMw
  dsimp only
  generalize applyTherm on 50000 s = th
  by_cases above : (decide (target < (p : Int)) || decide (cap < mW th.2)) = true
  · rw [if_pos above]
    simp only [above, Bool.not_true, Bool.false_and, Bool.false_eq_true, if_false]
    exact (fallMw_mwSet on pOther _ cap 64 th.1 th.2).trans (.refl 1 _)
  · rw [if_neg above]
    split
    · exact raised th.2
    · exact .refl 1 th.2

/-- What a sample has changed before it sets the issue limits. -/
structure Steered (x : PowerSample) (s u : State) : Prop where
  regs : RegsBut (fun o => o = pwrInStat ∨ o = pwrState ∨ o = pwrSlopeStat ∨
    (∃ g, g < 240 ∧ o = pwrClStat g) ∨ ∃ f, f < 12 ∧ o = pwrFieldStat f) s u
  same : u = { s with regs := u.regs, control := u.control }
  input : rd u pwrInStat = rd (inputNoted x s) pwrInStat
  state : get u pwrState PwrState.state = get s pwrState PwrState.state
  mW : get u pwrState PwrState.mW ≤ get s pwrState PwrState.mW + 1

/-- The readings are in; the clusters that were ON are those the sample steers. -/
theorem mem_onClusters_sampleRead (x : PowerSample) {s : State} {g : Nat} (hg : g < 240)
    (h : get s (pwrClStat g) PwrClStat.state = 3) : g ∈ onClusters (sampleRead x s) := by
  refine mem_onClusters hg ?_
  rw [get, sampleRead, (notePower_steers _ _).regs _ (by simp only [pwrClStat, pwrSlopeStat]; omega)]
  refine ((noteReadings_noted x s).state g hg).trans ?_
  rw [get, inputNoted_regs x s _ (by simp only [pwrClStat, pwrInStat]; omega)]
  exact h

theorem not_fieldsNoted {o : Nat} (h : o < 0x10000) :
    ¬ ((∃ g, g < 240 ∧ o = pwrClStat g) ∨ ∃ f, f < 12 ∧ o = pwrFieldStat f) := by
  simp only [pwrClStat, pwrFieldStat]
  rintro (⟨g, hg, rfl⟩ | ⟨f, hf, rfl⟩) <;> omega

/-- Once the readings are in, steering and a move of M_W keep what they noted. -/
theorem steered_of_noted {x : PowerSample} {s r v w u : State} (noted : FieldsNoted (inputNoted x s) r)
    (before : Steers r v) (moved : MwSet 1 v w) (after : Steers w u) : Steered x s u := by
  have input : rd r pwrInStat = rd (inputNoted x s) pwrInStat := noted.regs _ (not_fieldsNoted (by decide))
  have power : rd v pwrState = rd s pwrState :=
    (before.regs _ (by decide)).trans ((noted.regs _ (not_fieldsNoted (by decide))).trans
      (inputNoted_regs x s _ (by decide)))
  have power' : rd u pwrState = rd w pwrState := after.regs _ (by decide)
  refine ⟨?_, ?_, ?_, ?_, ?_⟩
  · exact (((((inputNoted_regs x s).mono fun _ => .inl).trans
      (noted.regs.mono fun _ ho => .inr (.inr (.inr ho)))).trans
        (before.regs.mono fun _ ho => .inr (.inr (.inl ho)))).trans (moved.regs.mono fun _ ho => .inr (.inl ho))).trans
          (after.regs.mono fun _ ho => .inr (.inr (.inl ho)))
  · rw [after.same, moved.same, before.same, noted.same]
    rfl
  · exact (after.regs _ (by decide)).trans ((moved.regs _ (by decide)).trans ((before.regs _ (by decide)).trans input))
  · rw [get, power']
    refine moved.state.trans ?_
    rw [get, power]
    rfl
  · rw [get, power']
    refine Nat.le_trans moved.le ?_
    rw [get, power]
    exact Nat.le_refl _

theorem sampleSteered_steered (x : PowerSample) (s : State) : Steered x s (sampleSteered x s) := by
  unfold sampleSteered
  dsimp only
  exact steered_of_noted (noteReadings_noted x s)
    (((notePower_steers (samplePower x) (noteReadings x s)).trans (sampleFollow_steers x _ _)).trans
      (applyTherm_steers _ 50000 _)) (sampleMw_mwSet _ _ _ _ _ _) (sampleGrants_steers _ _ _)

/-! ### What a sample reports -/

/-- What the report of a sample leaves: the issue limits, M_W, and all but the reports, the clock's pending step, and the
controller's and the device's state. -/
structure Reported (s u : State) : Prop where
  regs : RegsBut (fun o => o = pwrState ∨ o = pwrWinStat ∨ o = clkStat ∨ ReportReg o) s u
  same : u = { s with regs := u.regs, control := u.control, clock := u.clock, nvm := u.nvm, log := u.log, svc := u.svc
                      i3c := u.i3c, host := u.host }
  limits : u.control.m = s.control.m ∧ u.control.lField = s.control.lField
  mW : get u pwrState PwrState.mW = get s pwrState PwrState.mW

theorem Reported.refl (s : State) : Reported s s := ⟨.refl _ _, rfl, ⟨rfl, rfl⟩, rfl⟩

theorem Reported.trans {s v u : State} (h : Reported s v) (k : Reported v u) : Reported s u :=
  ⟨h.regs.trans k.regs, by rw [k.same, h.same], ⟨k.limits.1.trans h.limits.1, k.limits.2.trans h.limits.2⟩,
    k.mW.trans h.mW⟩

theorem not_reported_input : ¬ (pwrInStat = pwrState ∨ pwrInStat = pwrWinStat ∨ pwrInStat = clkStat ∨
    ReportReg pwrInStat) := by
  simp only [ReportReg]
  decide

theorem ctl_reported {f : ControlState → ControlState} {s : State}
    (h : (f s.control).m = s.control.m ∧ (f s.control).lField = s.control.lField) : Reported s (ctl f s) :=
  ⟨fun _ _ => rfl, rfl, h, rfl⟩

theorem upd_reported {off : Nat} (h : off = pwrWinStat ∨ off = clkStat) (f : Fld) (v : Nat) (s : State) :
    Reported s (upd off f v s) := by
  refine ⟨regsBut_upd (.inr (h.imp_right .inl)) _ _ _, rfl, ⟨rfl, rfl⟩, get_upd_ne ?_ _ _ _ _⟩
  rcases h with rfl | rfl <;> decide

theorem StateSet.reported {v : Nat} {s u : State} (h : StateSet v s u) : Reported s u := by
  have control : u.control = s.control := by rw [h.same]
  exact ⟨h.regs.mono fun _ ho => ho.imp_right fun r => .inr (.inr r), by rw [h.same], by rw [control]; exact ⟨rfl, rfl⟩,
    h.field _ (by decide) (by decide)⟩

theorem noteWindows_reported (target : Int) (s : State) : Reported s (noteWindows target s) :=
  (((upd_reported (.inl rfl) _ _ s).trans (upd_reported (.inl rfl) _ _ _)).trans (upd_reported (.inl rfl) _ _ _)).trans
    (upd_reported (.inl rfl) _ _ _)

theorem noteNear_reported (p : Nat) (target : Int) (s : State) : Reported s (noteNear p target s) :=
  ctl_reported ⟨rfl, rfl⟩

/-- The causes are reported, and since when none has held. -/
def causesNoted (c : Nat) (s : State) : State :=
  let s := upd pwrState PwrState.autumnCause c s
  if c = 0 then
    if s.control.autumnClear.isSome then s else ctl (fun x => { x with autumnClear := some s.devtime }) s
  else ctl (fun x => { x with autumnClear := none }) s

theorem noteCauses_eq (s : State) : noteCauses s =
    (let c := autumnCauses (windowEngaged s) s
     let u := causesNoted c s
     if c ≠ 0 ∧ devState u = .summer then setDevState 3 u else u) := by
  unfold noteCauses causesNoted
  dsimp only
  by_cases h : autumnCauses (windowEngaged s) s = 0
  · simp only [h, if_true, ne_eq, not_true_eq_false, false_and, if_false]
  · simp only [h, if_false, ne_eq, not_false_eq_true, true_and]

/-- Reporting the causes leaves the other fields of PWR_STATE. -/
theorem causesNoted_reported (c : Nat) (s : State) : Reported s (causesNoted c s) ∧
    rd (causesNoted c s) pwrState = rd (upd pwrState PwrState.autumnCause c s) pwrState := by
  have written : Reported s (upd pwrState PwrState.autumnCause c s) :=
    ⟨regsBut_upd (.inl rfl) _ _ _, rfl, ⟨rfl, rfl⟩, get_upd_other _ _ _ _ _ (by decide) (by decide)⟩
  unfold causesNoted
  dsimp only
  split
  · split
    · exact ⟨written, rfl⟩
    · exact ⟨written.trans (ctl_reported ⟨rfl, rfl⟩), rfl⟩
  · exact ⟨written.trans (ctl_reported ⟨rfl, rfl⟩), rfl⟩

theorem noteCauses_reported (s : State) : Reported s (noteCauses s) := by
  rw [noteCauses_eq]
  dsimp only
  split
  · exact (causesNoted_reported _ s).1.trans (setDevState_stateSet (by decide) _).reported
  · exact (causesNoted_reported _ s).1

theorem noteWinter_reported (s : State) : Reported s (noteWinter s) ∧ rd (noteWinter s) pwrState = rd s pwrState := by
  unfold noteWinter
  split
  · split
    · exact ⟨.refl s, rfl⟩
    · exact ⟨ctl_reported ⟨rfl, rfl⟩, rfl⟩
  · exact ⟨ctl_reported ⟨rfl, rfl⟩, rfl⟩

theorem chooseTs_reported (s : State) : Reported s (chooseTs s) ∧ rd (chooseTs s) pwrState = rd s pwrState := by
  unfold chooseTs
  split
  · exact ⟨.refl s, rfl⟩
  · next st _ =>
    split
    · have stepped : Reported s (clk (fun c => { c with step := some { st with ts := some (nextTs s.devtime) } }) s) :=
        ⟨fun _ _ => rfl, rfl, ⟨rfl, rfl⟩, rfl⟩
      exact ⟨stepped.trans (upd_reported (.inr rfl) _ _ _), rd_upd_ne (by decide) _ _ _⟩
    · exact ⟨.refl s, rfl⟩

theorem sampleReport_reported (p : Nat) (target : Int) (s : State) : Reported s (sampleReport p target s) :=
  ((((noteWindows_reported target s).trans (noteNear_reported p target _)).trans (noteCauses_reported _)).trans
    (noteWinter_reported _).1).trans (chooseTs_reported _).1

/-- CAP is a cause of AUTUMN, and the causes fit the field that holds them. -/
theorem autumnCauses_cap (window : Bool) {s : State} (h : get s pwrInStat PwrInStat.cap = 1) :
    autumnCauses window s % 2 = 1 ∧ autumnCauses window s < 2 ^ 6 := by
  have one : ∀ b, b2n b ≤ 1 := fun b => by cases b <;> decide
  have cap : b2n (get s pwrInStat PwrInStat.cap == 1) = 1 := by rw [h]; rfl
  have capped := one (anyCapped s)
  have engaged := one window
  have throttled := one (anyThrottled s)
  have derated := one (s.control.inletDerate || s.control.flowDerate)
  have slowed := one (decide (8 < get s clkStat ClkStat.div))
  unfold autumnCauses
  rw [cap]
  omega

/-- While CAP holds, a sample takes the device from SUMMER to AUTUMN and reports the cause (R398). -/
theorem noteCauses_cap {s : State} (on : On s) (cap : get s pwrInStat PwrInStat.cap = 1)
    (summer : get s pwrState PwrState.state = 2) :
    get (noteCauses s) pwrState PwrState.state = 3 ∧ bit1 (get (noteCauses s) pwrState PwrState.autumnCause) 0 = true := by
  obtain ⟨odd, fits⟩ := autumnCauses_cap (windowEngaged s) cap
  generalize hc : autumnCauses (windowEngaged s) s = c at odd fits
  obtain ⟨reported, regs⟩ := causesNoted_reported c s
  have on' : On (causesNoted c s) := by
    rw [On, reported.same]
    exact on
  have summer' : devState (causesNoted c s) = .summer := by
    rw [devState_summer on', get, regs]
    exact (get_upd_other _ _ _ _ _ (by decide) (by decide)).trans summer
  have entered : noteCauses s = setDevState 3 (causesNoted c s) := by
    rw [noteCauses_eq]
    dsimp only
    rw [hc, if_pos ⟨by omega, summer'⟩]
  have set := setDevState_stateSet (v := 3) (by decide) (causesNoted c s)
  rw [entered]
  refine ⟨set.state, ?_⟩
  rw [set.field _ (by decide) (by decide), get, regs]
  have noted : get (upd pwrState PwrState.autumnCause c s) pwrState PwrState.autumnCause = c :=
    (get_upd_same _ _ _ _ (by decide)).trans (Nat.mod_eq_of_lt fits)
  rw [get] at noted
  rw [noted, bit1, Nat.testBit_zero, decide_eq_true_eq]
  exact odd

theorem sampleReport_cap (p : Nat) (target : Int) {s : State} (on : On s) (cap : get s pwrInStat PwrInStat.cap = 1)
    (summer : get s pwrState PwrState.state = 2) : devState (sampleReport p target s) = .autumn ∧
      bit1 (get (sampleReport p target s) pwrState PwrState.autumnCause) 0 = true := by
  have before := (noteWindows_reported target s).trans (noteNear_reported p target _)
  have power : rd (noteNear p target (noteWindows target s)) pwrState = rd s pwrState := by
    unfold noteNear noteWindows
    dsimp only
    rw [rd_ctl]
    repeat rw [rd_upd_ne (by decide)]
  generalize hv : noteNear p target (noteWindows target s) = v at before power
  have on' : On v := by
    rw [On, before.same]
    exact on
  have input : rd v pwrInStat = rd s pwrInStat := before.regs _ not_reported_input
  obtain ⟨state, cause⟩ := noteCauses_cap (s := v) on' (by rw [get, input]; exact cap) (by rw [get, power]; exact summer)
  have on'' : On (sampleReport p target s) := by
    rw [On, (sampleReport_reported p target s).same]
    exact on
  have last : rd (sampleReport p target s) pwrState = rd (noteCauses v) pwrState := by
    rw [sampleReport, hv]
    exact (chooseTs_reported _).2.trans (noteWinter_reported _).2
  rw [get, ← last] at state
  rw [get, ← last] at cause
  exact ⟨devState_autumn on'' state, cause⟩

/-! ### The sample -/

section

variable (x : PowerSample) (s : State)

theorem sampled_reported : Reported (limitsSet (onClusters (sampleRead x s)) (sampleSteered x s)) (sampled x s) :=
  sampleReport_reported _ _ _

theorem rd_sampled_input : rd (sampled x s) pwrInStat = rd (inputNoted x s) pwrInStat :=
  ((sampled_reported x s).regs _ not_reported_input).trans (sampleSteered_steered x s).input

theorem sampled_regs : RegsBut (fun o => o = pwrInStat ∨ o = pwrState ∨ o = pwrWinStat ∨ o = pwrSlopeStat ∨ o = clkStat ∨
    (∃ g, g < 240 ∧ o = pwrClStat g) ∨ (∃ f, f < 12 ∧ o = pwrFieldStat f) ∨ ReportReg o) s (sampled x s) := by
  refine ((sampleSteered_steered x s).regs.mono ?_).trans ((sampled_reported x s).regs.mono ?_)
  · rintro o (h | h | h | h | h) <;> simp [h]
  · rintro o (h | h | h | h) <;> simp [h]

theorem sampled_same : sampled x s = { s with regs := (sampled x s).regs, control := (sampled x s).control
                                              clock := (sampled x s).clock, nvm := (sampled x s).nvm, log := (sampled x s).log
                                              svc := (sampled x s).svc, i3c := (sampled x s).i3c
                                              host := (sampled x s).host } := by
  have reported := (sampled_reported x s).same
  have steered := (sampleSteered_steered x s).same
  rw [limitsSet, ctl, steered] at reported
  rw [reported]

variable {x s}

/-- The issue limit of a cluster that is ON, from the limits in force when the sample sets it (R386). -/
theorem limit_sampled {g : Nat} (hg : g < 240) (h : get s (pwrClStat g) PwrClStat.state = 3) :
    tget (fun _ => 64) (sampled x s).control.m g = issueLimit (sampleSteered x s) g := by
  rw [(sampled_reported x s).limits.1]
  exact limit_limitsSet (mem_onClusters_sampleRead x hg h) _

theorem issueLimit_le (v : State) (g : Nat) : 1 ≤ issueLimit v g ∧
    issueLimit v g ≤ (if get v pwrInStat PwrInStat.cap = 1 then 32 else 64) ∧ issueLimit v g ≤ max 1 (mW v) ∧
      issueLimit v g ≤ max 1 (tget (fun _ => 64) v.control.lField (clusterField g)) := by
  obtain ⟨cap, mw, field⟩ := otherLimits_le v g
  unfold issueLimit
  split at cap <;> rename_i h <;> simp only [h, if_true, if_false] <;> omega

theorem sampled_cap (on : On s) (cap : get s pwrInStat PwrInStat.cap = 1) (summer : devState s = .summer) :
    devState (sampled x s) = .autumn ∧ bit1 (get (sampled x s) pwrState PwrState.autumnCause) 0 = true := by
  have steered := sampleSteered_steered x s
  have limits : Steers _ (limitsSet (onClusters (sampleRead x s)) (sampleSteered x s)) := ctl_steers _ _
  unfold sampled
  generalize limitsSet (onClusters (sampleRead x s)) (sampleSteered x s) = v at limits ⊢
  refine sampleReport_cap _ _ ?_ ?_ ?_
  · rw [On, limits.same, steered.same]
    exact on
  · rw [get, limits.regs _ (by decide), steered.input]
    exact (inputNoted_fields x s).2.2.trans cap
  · rw [get, limits.regs _ (by decide)]
    exact steered.state.trans ((devState_summer on).mp summer)

theorem completes_controlSample (on : On s) : Completes (.controlSample x) s fun u =>
    get u pwrInStat PwrInStat.vin = min 65535 x.vin ∧ get u pwrInStat PwrInStat.iin = min 65535 x.iin ∧
    (∀ g, g < 240 → get s (pwrClStat g) PwrClStat.state = 3 → 1 ≤ tget (fun _ => 64) u.control.m g ∧
      tget (fun _ => 64) u.control.m g ≤ (if get s pwrInStat PwrInStat.cap = 1 then 32 else 64) ∧
      tget (fun _ => 64) u.control.m g ≤ max 1 (get u pwrState PwrState.mW) ∧
      tget (fun _ => 64) u.control.m g ≤ max 1 (tget (fun _ => 64) u.control.lField (clusterField g))) ∧
    get u pwrState PwrState.mW ≤ get s pwrState PwrState.mW + 1 ∧
    (get s pwrInStat PwrInStat.cap = 1 → devState s = .summer →
      devState u = .autumn ∧ bit1 (get u pwrState PwrState.autumnCause) 0 = true) ∧ WorkSame s u ∧ u.power = s.power ∧
    RegsBut (fun o => o = pwrInStat ∨ o = pwrState ∨ o = pwrWinStat ∨ o = pwrSlopeStat ∨ o = clkStat ∨
      (∃ g, g < 240 ∧ o = pwrClStat g) ∨ (∃ f, f < 12 ∧ o = pwrFieldStat f) ∨ ReportReg o) s u := by
  obtain ⟨vin, iin, cap⟩ := inputNoted_fields x s
  have steered := sampleSteered_steered x s
  have same := sampled_same x s
  have steeredCap : get (sampleSteered x s) pwrInStat PwrInStat.cap = get s pwrInStat PwrInStat.cap := by
    rw [get, steered.input]
    exact cap
  have mw : get (sampled x s) pwrState PwrState.mW = mW (sampleSteered x s) := (sampled_reported x s).mW
  refine completes_powered on (sampled x) (execControlSample_eq x s) ?_
  refine ⟨?_, ?_, fun g hg h => ?_, ?_, fun capped summer => ?_, ?_, ?_, sampled_regs x s⟩
  · exact (congrArg (getF · _) (rd_sampled_input x s)).trans vin
  · exact (congrArg (getF · _) (rd_sampled_input x s)).trans iin
  · have le := issueLimit_le (sampleSteered x s) g
    rw [steeredCap] at le
    rw [limit_sampled hg h, mw, (sampled_reported x s).limits.2]
    exact le
  · rw [mw]
    exact steered.mW
  · exact sampled_cap on capped summer
  · rw [WorkSame, same]
    exact ⟨rfl, rfl, rfl, rfl, rfl, rfl, rfl⟩
  · exact (congrArg State.power same).trans rfl

theorem completes_autumnExit {t : Nat} (on : On s) (clear : s.control.autumnClear = some t) (autumn : devState s = .autumn)
    (long : t + 10 * msTicks ≤ s.devtime) (none : get s pwrState PwrState.autumnCause = 0) :
    Completes .autumnExit s fun u => devState u = .summer ∧ WorkSame s u ∧
      RegsBut (fun o => o = pwrState ∨ ReportReg o) s u := by
  have set := setDevState_stateSet (v := 2) (by decide) s
  refine completes_powered on _ rfl ?_
  rw [clear]
  dsimp only
  rw [if_pos ⟨autumn, long, none⟩]
  refine ⟨?_, set.workSame, set.regs⟩
  rw [devState_summer]
  · exact set.state
  · rw [On, set.same]
    exact on

end

/-! ### Frames (R98, R390, R418) -/

/-- A frame of a tile starts with a limit. -/
def frameOf (m : Nat) (s : State) (t : Nat) : State :=
  updTile t (fun x => { x with frame := x.tclk })
    (upd (tilStat t) TilStat.limit m (upd (tilStat t) TilStat.limited (b2n (decide (m < 64))) s))

/-- What the start of a frame has done to the tiles of a list that it has reached. -/
structure Framed (m : Nat) (l : List Nat) (s u : State) : Prop where
  regs : RegsBut (fun o => ∃ t ∈ l, o = tilStat t) s u
  same : u = { s with regs := u.regs, tiles := u.tiles }
  limit : ∀ t ∈ l, get u (tilStat t) TilStat.limit = m ∧ get u (tilStat t) TilStat.limited = b2n (decide (m < 64))
  tiles : ∀ t ∈ l, tile u t = { tile s t with frame := (tile s t).tclk }
  others : ∀ t, t ∉ l → tile u t = tile s t

theorem tilStat_inj {t v : Nat} (h : tilStat t = tilStat v) : t = v := by
  simp only [tilStat] at h
  omega

theorem tile_frameOf_same (m : Nat) (s : State) (t : Nat) :
    tile (frameOf m s t) t = { tile s t with frame := (tile s t).tclk } := by
  rw [frameOf, tile_updTile_same, tile_upd, tile_upd]

theorem tile_frameOf_ne {t v : Nat} (h : v ≠ t) (m : Nat) (s : State) : tile (frameOf m s t) v = tile s v := by
  rw [frameOf, tile_updTile_ne h, tile_upd, tile_upd]

theorem limit_frameOf {m : Nat} (hm : m ≤ 64) (s : State) (t : Nat) :
    get (frameOf m s t) (tilStat t) TilStat.limit = m ∧
      get (frameOf m s t) (tilStat t) TilStat.limited = b2n (decide (m < 64)) := by
  rw [frameOf, get_updTile, get_updTile]
  refine ⟨?_, ?_⟩
  · rw [get_upd_same _ _ _ _ (by decide)]
    exact Nat.mod_eq_of_lt (Nat.lt_of_le_of_lt hm (by decide))
  · rw [get_upd_other _ _ _ _ _ (by decide) (by decide), get_upd_same _ _ _ _ (by decide)]
    cases decide (m < 64) <;> rfl

theorem framed_foldl {m : Nat} (hm : m ≤ 64) : ∀ (l : List Nat) (s : State), Framed m l s (l.foldl (frameOf m) s)
  | [], s => ⟨.refl _ _, rfl, by simp, by simp, fun _ _ => rfl⟩
  | t :: l, s => by
    have rest := framed_foldl hm l (frameOf m s t)
    have first : RegsBut (fun o => ∃ v ∈ t :: l, o = tilStat v) s (frameOf m s t) :=
      (regsBut_upd ⟨t, List.mem_cons_self, rfl⟩ _ _ s).trans (regsBut_upd ⟨t, List.mem_cons_self, rfl⟩ _ _ _)
    rw [List.foldl_cons]
    generalize l.foldl (frameOf m) (frameOf m s t) = u at rest ⊢
    refine ⟨first.trans (rest.regs.mono fun o ⟨v, hv, e⟩ => ⟨v, List.mem_cons_of_mem _ hv, e⟩), ?_, fun v hv => ?_,
      fun v hv => ?_, fun v hv => ?_⟩
    · rw [rest.same]
      rfl
    · by_cases h : v ∈ l
      · exact rest.limit v h
      · obtain rfl := (List.mem_cons.mp hv).resolve_right h
        have kept : rd u (tilStat v) = rd (frameOf m s v) (tilStat v) :=
          rest.regs _ fun ⟨w, hw, e⟩ => h (tilStat_inj e ▸ hw)
        rw [get, get, kept]
        exact limit_frameOf hm s v
    · by_cases ht : v = t
      · subst ht
        by_cases h : v ∈ l
        · rw [rest.tiles v h, tile_frameOf_same]
        · rw [rest.others v h, tile_frameOf_same]
      · rw [rest.tiles v ((List.mem_cons.mp hv).resolve_left ht), tile_frameOf_ne ht]
    · obtain ⟨ht, h⟩ := not_or.mp (mt List.mem_cons.mpr hv)
      rw [rest.others v h, tile_frameOf_ne ht]

/-- Filler frames are counted. -/
def fillerCounted (g : Nat) (s : State) : State :=
  let filler := get s pwrLimit PwrLimit.fill == 1 && decide (activity s g < tget (fun _ => 0) s.control.floor g)
  if filler then
    let n := s.control.fillPart + 1
    let s := ctl (fun c => { c with fillPart := n % 65536 }) s
    if 65536 ≤ n then satAdd pwrSlopeStat PwrSlopeStat.fill 1 s else s
  else s

theorem fillerCounted_steers (g : Nat) (s : State) : Steers s (fillerCounted g s) := by
  unfold fillerCounted
  dsimp only
  split
  · split
    · exact (ctl_steers _ s).trans (satAdd_steers _ _ _)
    · exact ctl_steers _ s
  · exact .refl s

theorem completes_frameStart {g : ClusterId} {s : State} (on : On s)
    (boundary : fieldTime s (clusterField g) % (8 * get s clkStat ClkStat.div) = 0)
    (live : fabricOff s (clusterField g) = false) (hm : tget (fun _ => 64) s.control.m g ≤ 64) :
    Completes (.frameStart g) s fun u =>
      (∀ t ∈ clusterTiles s g, get u (tilStat t) TilStat.limit = tget (fun _ => 64) s.control.m g ∧
        get u (tilStat t) TilStat.limited = b2n (decide (tget (fun _ => 64) s.control.m g < 64)) ∧
        tile u t = { tile s t with frame := (tile s t).tclk }) ∧
      (∀ t, t ∉ clusterTiles s g → tile u t = tile s t) ∧
      RegsBut (fun o => o = pwrSlopeStat ∨ ∃ t ∈ clusterTiles s g, o = tilStat t) s u ∧
      u = { s with regs := u.regs, tiles := u.tiles, control := u.control } := by
  have framed := framed_foldl hm (clusterTiles s g) s
  have counted := fillerCounted_steers g ((clusterTiles s g).foldl (frameOf (tget (fun _ => 64) s.control.m g)) s)
  refine completes_powered on (fun s => if fieldTime s (clusterField g) % (8 * get s clkStat ClkStat.div) ≠ 0 ∨
    fabricOff s (clusterField g) then s else
      fillerCounted g ((clusterTiles s g).foldl (frameOf (tget (fun _ => 64) s.control.m g)) s)) rfl ?_
  dsimp only
  rw [if_neg (by simp [boundary, live])]
  generalize (clusterTiles s g).foldl (frameOf (tget (fun _ => 64) s.control.m g)) s = v at framed counted ⊢
  generalize fillerCounted g v = u at counted ⊢
  have tiles : ∀ t, tile u t = tile v t := fun t => by
    rw [tile, counted.same]
    rfl
  have stat : ∀ t, rd u (tilStat t) = rd v (tilStat t) := fun t =>
    counted.regs _ (by simp only [tilStat, pwrSlopeStat]; omega)
  refine ⟨fun t ht => ?_, fun t ht => (tiles t).trans (framed.others t ht),
    (framed.regs.mono fun _ => .inr).trans (counted.regs.mono fun _ => .inl), ?_⟩
  · rw [get, get, stat, tiles]
    obtain ⟨limit, limited⟩ := framed.limit t ht
    exact ⟨limit, limited, framed.tiles t ht⟩
  · rw [counted.same, framed.same]

/-- Settles O47: a sample changes registers and the controller's state stage by stage; the other two are one update and a
fold over the cluster's tiles. -/
theorem thePowerController : Obligations.ThePowerController := by
  unfold Obligations.ThePowerController
  refine ⟨?_, ?_, ?_⟩
  · exact fun x s on _ => completes_controlSample on
  · exact fun t s on clear autumn long none => completes_autumnExit on clear autumn long none
  · exact fun g s on boundary live hm => completes_frameStart on boundary live hm

end Sys2Proof.Machine
end

section
/-! What follows a fault of a tile: log, halt of the graph, failure of the batch (R114, R144, R210), and the statement on
how a kernel starts, goes on and ends (R103, R109-R111, R113, R134, R135, R252, R253). -/

namespace Sys2Proof.Machine

open Sys2Proof

/-! ### The aftermath of a fault -/

/-- An offset of a tile's page. -/
def InPage (t off : Nat) : Prop := 0x1000000 + 0x8000 * t ≤ off ∧ off < 0x1000000 + 0x8000 * t + 0x8000

/-- What follows a fault leaves the page of the tile, PWR_STATE, and all but registers, reports and requests. -/
structure Aftermath (t : Nat) (s u : State) : Prop where
  page : ∀ off, InPage t off → rd u off = rd s off
  pwr : rd u pwrState = rd s pwrState
  same : u = { s with regs := u.regs, log := u.log, svc := u.svc, i3c := u.i3c, host := u.host, req := u.req }

theorem Aftermath.refl (t : Nat) (s : State) : Aftermath t s s := ⟨fun _ _ => rfl, rfl, rfl⟩

theorem Aftermath.trans {t : Nat} {s v u : State} (h : Aftermath t s v) (k : Aftermath t v u) : Aftermath t s u :=
  ⟨fun o ho => (k.page o ho).trans (h.page o ho), k.pwr.trans h.pwr, by rw [k.same, h.same]⟩

theorem put_aftermath {t off : Nat} (page : ¬ InPage t off) (pwr : pwrState ≠ off) (v : Reg) (s : State) :
    Aftermath t s (put off v s) :=
  ⟨fun o ho => rd_put_ne (fun e => page (by rwa [← e])) v s, rd_put_ne pwr v s, rfl⟩

theorem req_aftermath (t : Nat) (r : ReqState) (s : State) : Aftermath t s { s with req := r } :=
  ⟨fun _ _ => rfl, rfl, rfl⟩

theorem Reports.aftermath {s u : State} (h : Reports s u) (t : Nat) : Aftermath t s u := by
  obtain ⟨regs, same⟩ := h
  refine ⟨fun o ⟨ho, _⟩ => regs o (not_reportReg_of_page (by omega)), regs _ not_reportReg_pwrState, ?_⟩
  rw [same]

theorem finishReq_aftermath (t id st : Nat) (s : State) : Aftermath t s (finishReq id st s) := by
  cases hf : findReq s id with
  | none => simpa [finishReq, hf] using .refl t s
  | some r =>
    cases hs : r.status with
    | some c => simpa [finishReq, hf, hs] using .refl t s
    | none => exact (req_aftermath t (madeDue id st s).req s).trans ((finishReq_of_open hf hs st).aftermath t)

theorem chunkFail_aftermath (t id cause detail : Nat) (s : State) : Aftermath t s (chunkFail id cause detail s) := by
  unfold chunkFail
  split
  · exact .refl t s
  · split
    · exact .refl t s
    · exact ((req_aftermath t _ s).trans (finishReq_aftermath t id _ _)).trans (req_aftermath t _ _)

theorem ledCnt_aftermath (t : Nat) {i : Nat} (hi : i < 32) (v : Reg) (s : State) :
    Aftermath t s (put (ledCnt i) v s) := by
  refine put_aftermath ?_ ?_ v s
  · simp only [InPage, ledCnt]
    omega
  · simp only [pwrState, ledCnt]
    omega

theorem batchFail_aftermath (t status object detail : Nat) (s : State) :
    Aftermath t s (batchFail status object detail s) := by
  unfold batchFail
  split
  · exact .refl t s
  · refine Aftermath.trans ?_ (foldl_related (.refl t) .trans _ (fun id _ s => chunkFail_aftermath t id status detail s) _)
    exact ((ledCnt_aftermath t (by decide) _ s).trans (ledCnt_aftermath t (by decide) _ _)).trans (req_aftermath t _ _)

theorem haltReq_aftermath {t u : Nat} (h : u ≠ t) (s : State) : Aftermath t s (haltReq u s) := by
  have ctrl : ∀ v s, Aftermath t s (put (tilCtrl u) v s) := fun v s =>
    put_aftermath (by simp only [InPage, tilCtrl]; omega) (pwrState_ne_page (tilCtrl_page u)) v s
  have stat : ∀ v s, Aftermath t s (put (tilStat u) v s) := fun v s =>
    put_aftermath (by simp only [InPage, tilStat]; omega) (pwrState_ne_tilStat u) v s
  unfold haltReq
  dsimp only
  split
  · exact (ctrl _ s).trans (stat _ _)
  · exact ctrl _ s

theorem haltGraph_aftermath (t : Nat) (s : State) : Aftermath t s (haltGraph t s) :=
  foldl_related (.refl t) .trans _
    (fun u hu s => haltReq_aftermath (by simpa using (List.mem_filter.mp hu).2) s) s

/-- A fault is logged, the graph is halted, and the batch fails. -/
theorem faultFollows_aftermath (t rule code status detail : Nat) (s : State) : Aftermath t s
    (batchFail status t detail (haltGraph t (logCoded sevError kFault bTil rule 0 code t s))) :=
  (((logCoded_reports _ _ _ _ _ _ _ _).aftermath t).trans (haltGraph_aftermath t _)).trans
    (batchFail_aftermath t _ _ _ _)

theorem Aftermath.tileSt {t : Nat} {s u : State} (h : Aftermath t s u) : tileSt u t = tileSt s t := by
  have page : InPage t (tilStat t) := by
    simp only [InPage, tilStat]
    omega
  rw [Machine.tileSt, Machine.tileSt, get, get, h.page _ page,
    tileOff_congr h.pwr (by rw [h.same]) (by rw [h.same])]

theorem Aftermath.tile {t : Nat} {s u : State} (h : Aftermath t s u) (v : Nat) : tile u v = tile s v := by
  rw [h.same]
  rfl

/-! ### Tag faults (R144, R145) -/

theorem tilDfFault_ne_tilStat (t : Nat) : tilDfFault t ≠ tilStat t := by
  simp only [tilDfFault, tilStat]
  omega

theorem pwrState_ne_tilDfFault (t : Nat) : pwrState ≠ tilDfFault t := pwrState_ne_page (by simp only [tilDfFault]; omega)

/-- The first tag fault of a tile is held, with its code. -/
theorem recordTagFault_eq {t : Nat} {s : State} (busy : tileSt s t ≠ tsIdle)
    (hv : get s (tilDfFault t) TilDfFault.valid = 0) (code unit queue tag : Nat) :
    recordTagFault t code unit queue tag s = upd (tilDfFault t) TilDfFault.valid 1 (upd (tilDfFault t) TilDfFault.tag tag
      (upd (tilDfFault t) TilDfFault.queue queue (upd (tilDfFault t) TilDfFault.unit unit
        (upd (tilDfFault t) TilDfFault.code code (stopTile t s))))) := by
  have ne := tilDfFault_ne_tilStat t
  have valid : get (stopTile t s) (tilDfFault t) TilDfFault.valid ≠ 1 := by
    rw [stopTile_eq busy, get_upd_ne ne, get_upd_ne ne, get_updTile, hv]
    decide
  exact if_neg valid

theorem recordTagFault_halts {t : Nat} {s : State} (works : tileWorks s t = true)
    (hv : get s (tilDfFault t) TilDfFault.valid = 0) {code : Nat} (hc : code < 2 ^ 4) (unit queue tag : Nat) :
    tileSt (recordTagFault t code unit queue tag s) t = tsHalt ∧
      get (recordTagFault t code unit queue tag s) (tilDfFault t) TilDfFault.code = code ∧
      (recordTagFault t code unit queue tag s).hbm = s.hbm := by
  obtain ⟨on, busy⟩ := tileSt_of_works works
  have ne := (tilDfFault_ne_tilStat t).symm
  have neF := pwrState_ne_tilDfFault t
  have neS := pwrState_ne_tilStat t
  have off : tileOff (updTile t TileState.stopped s) t = false :=
    (tileOff_congr (rd_updTile _ _ _ _) (updTile_power _ _ _) (updTile_boot _ _ _) t).trans on
  have hbm : (updTile t TileState.stopped s).hbm = s.hbm := updTile_hbm _ _ _
  rw [recordTagFault_eq busy hv, stopTile_eq busy]
  generalize updTile t TileState.stopped s = v at off hbm ⊢
  refine ⟨?_, ?_, hbm⟩
  · rw [tileSt_of_on (by simp only [tileOff_upd neF, tileOff_upd neS, off])]
    simp only [get_upd_ne ne]
    rw [get_upd_other _ _ _ _ _ (by decide) (by decide), get_upd_same _ _ _ _ (by decide)]
    rfl
  · rw [get_upd_other _ _ _ _ _ (by decide) (by decide), get_upd_other _ _ _ _ _ (by decide) (by decide),
      get_upd_other _ _ _ _ _ (by decide) (by decide), get_upd_other _ _ _ _ _ (by decide) (by decide),
      get_upd_same _ _ _ _ (by decide)]
    exact Nat.mod_eq_of_lt hc

/-- A tag fault stops the tile and its code is held. -/
theorem tagFault_halts {t : Nat} {s : State} (works : tileWorks s t = true)
    (hv : get s (tilDfFault t) TilDfFault.valid = 0) {code : Nat} (hc : code < 2 ^ 4) (unit queue tag : Nat) :
    tileSt (tagFault t code unit queue tag s) t = tsHalt ∧
      get (tagFault t code unit queue tag s) (tilDfFault t) TilDfFault.code = code ∧
      (tagFault t code unit queue tag s).hbm = s.hbm := by
  obtain ⟨halts, held, hbm⟩ := recordTagFault_halts works hv hc unit queue tag
  have follows : Aftermath t (recordTagFault t code unit queue tag s) (tagFault t code unit queue tag s) :=
    faultFollows_aftermath t 144 code csDataflowFault _ _
  have page : InPage t (tilDfFault t) := by
    simp only [InPage, tilDfFault]
    omega
  refine ⟨follows.tileSt.trans halts, ?_, ?_⟩
  · rw [get, follows.page _ page]
    exact held
  · rw [follows.same]
    exact hbm

/-! ### Kernels that go on, start and end (R103, R110, R111) -/

theorem setKernel_tileMems (t : Nat) (k : KernelRun) (s : State) : TileMems t s (setKernel t k s) := by
  rw [TileMems, setKernel, tile_updTile_same]
  exact ⟨rfl, rfl, rfl, rfl⟩

/-- A tile counts an event after a change of its own: beyond the tile only the counter has changed. -/
theorem tileCount1_tileMems {t off n : Nat} {s v : State} (h : TileMems t s v) : TileMems t s (tileCount1 t off n v) := by
  rw [TileMems, tile_tileCount1]
  exact h

/-- A kernel goes on at a place of its own choice, and the instruction is counted. -/
theorem counted_setKernel (t : Nat) (k : KernelRun) (s : State) {u : State}
    (hu : u = tileCount1 t (tilCnt t TilCnt.tilSpinstrCnt) 1 (setKernel t k s)) :
    (tile u t).kernel = some k ∧ TileMems t s u ∧ RegsBut (· = tilCnt t TilCnt.tilSpinstrCnt) s u ∧ OtherTiles t s u ∧
      u = { s with regs := u.regs, tiles := u.tiles } := by
  subst hu
  refine ⟨?_, tileCount1_tileMems (setKernel_tileMems t k s), tileCount1_regs _ _ _ _, fun v hv => ?_, ?_⟩
  · rw [tile_tileCount1, setKernel, tile_updTile_same]
  · rw [tile_tileCount1, setKernel, tile_updTile_ne hv]
  · rw [tileCount1_same, setKernel, updTile_same]

/-- An instruction that changes nothing retires. -/
theorem retire_only (t : Nat) (k : KernelRun) (s : State) :
    SpRetired (fun _ => False) t k s (retire t k s) ∧ TileMems t s (retire t k s) :=
  ⟨retire_retired k (.refl _ s) id id (fun _ _ => rfl) rfl, retire_tileMems ⟨rfl, rfl, rfl, rfl⟩ k⟩

section

variable {t : TileId} {k : KernelRun} {o : SpFields} {s : State}

theorem completes_kernelStart {j : SeqJob} {rest : List SeqJob} (on : On s) (run : tileSt s t = tsRun)
    (queue : (tile s t).kernQ = j :: rest) (none : (tile s t).kernel = none) :
    Completes (.kernelStart t) s fun u => u = updTile t (fun x =>
      setScalar 15 j.skips { x with kernQ := rest, kernel := some { job := j } }) s := by
  refine completes_powered on _ rfl ?_
  dsimp only
  rw [queue]
  dsimp only
  rw [if_neg (by simp [run, none])]
  rfl

theorem completes_spBranch_taken (on : On s) (ready : SpReady (isInstr .control o) t k s)
    (above : 0 ≤ (k.pc : Int) + signed 32 o.imm)
    (below : (k.pc : Int) + signed 32 o.imm < keLength (runEntry (tile s t) k)) :
    Completes (.spBranch t .always o) s fun u =>
      (tile u t).kernel = some { k with pc := ((k.pc : Int) + signed 32 o.imm).toNat } ∧ TileMems t s u ∧
      RegsBut (· = tilCnt t TilCnt.tilSpinstrCnt) s u ∧ OtherTiles t s u ∧
      u = { s with regs := u.regs, tiles := u.tiles } := by
  refine completes_powered on _ rfl ?_
  rw [spIssue_ready ready]
  dsimp only
  rw [if_neg (by decide), if_neg (by omega)]
  exact counted_setKernel t _ s rfl

theorem completes_spBranch_falls (on : On s) (ready : SpReady (isInstr .control o) t k s)
    (h : scalar (tile s t) o.va ≠ 0) :
    Completes (.spBranch t .zero o) s fun u => SpRetired (fun _ => False) t k s u ∧ TileMems t s u := by
  refine completes_powered on _ rfl ?_
  rw [spIssue_ready ready]
  dsimp only
  rw [if_pos (by simpa using h)]
  exact retire_only t k s

theorem completes_spBranch_outside (on : On s) (ready : SpReady (isInstr .control o) t k s)
    (outside : (keLength (runEntry (tile s t) k) : Int) ≤ (k.pc : Int) + signed 32 o.imm)
    (hv : get s (tilFault t) TilFault.valid = 0) :
    Completes (.spBranch t .always o) s fun u => TileFaulted t 7 u ∧ TileMems t s u ∧ u.hbm = s.hbm := by
  refine completes_powered on _ rfl ?_
  rw [spIssue_ready ready]
  dsimp only
  rw [if_neg (by decide), if_pos (.inr outside)]
  exact spFault_faulted ready.works hv (by decide) k

theorem completes_spHwLoop (on : On s) (ready : SpReady (isInstr .control o) t k s) (h : o.imm ≠ 0) :
    Completes (.spHwLoop t o) s fun u => (tile u t).kernel = (if scalar (tile s t) o.va = 0 then
        some { k with pc := k.pc + 1 + o.imm }
      else some { k with pc := k.pc + 1, loops :=
        ⟨k.pc + 1, k.pc + o.imm, scalar (tile s t) o.va - 1⟩ :: k.loops }) ∧ TileMems t s u ∧
      RegsBut (· = tilCnt t TilCnt.tilSpinstrCnt) s u ∧ OtherTiles t s u ∧
      u = { s with regs := u.regs, tiles := u.tiles } := by
  refine completes_powered on _ rfl ?_
  rw [spIssue_ready ready]
  dsimp only
  rw [if_neg h]
  by_cases count : scalar (tile s t) o.va = 0
  · rw [if_pos count, if_pos count]
    exact counted_setKernel t _ s rfl
  · rw [if_neg count, if_neg count]
    exact counted_setKernel t _ s rfl

theorem completes_spWaitFlag (on : On s) (ready : SpReady (isInstr .control o) t k s) (v : Bool) :
    ((bit1 (rd s (fldFlags (tileField s t) (o.imm % 256 / 32))).toNat (o.imm % 256 % 32) = v →
      Completes (.spWaitFlag t v o) s fun u => SpRetired (fun _ => False) t k s u ∧ TileMems t s u) ∧
    (bit1 (rd s (fldFlags (tileField s t) (o.imm % 256 / 32))).toNat (o.imm % 256 % 32) ≠ v →
      Completes (.spWaitFlag t v o) s fun u => u = s)) := by
  refine ⟨fun h => completes_powered on _ rfl ?_, fun h => completes_powered on _ rfl ?_⟩ <;> rw [spIssue_ready ready]
  · rw [if_pos h]
    exact retire_only t k s
  · exact if_neg h

theorem completes_spFence (on : On s) (ready : SpReady (isClass .control) t k s) :
    Completes (.spFence t) s fun u => SpRetired (fun _ => False) t k s u ∧ TileMems t s u := by
  refine completes_powered on _ rfl ?_
  rw [spIssue_ready ready]
  exact retire_only t k s

theorem tilCnt_kernel_ne_spinstr (t : Nat) : tilCnt t TilCnt.tilKernelCnt ≠ tilCnt t TilCnt.tilSpinstrCnt := by
  simp only [tilCnt, TilCnt.tilKernelCnt, TilCnt.tilSpinstrCnt]
  omega

theorem tilCtrl_ne_spinstr (t : Nat) : tilCtrl t ≠ tilCnt t TilCnt.tilSpinstrCnt := by
  simp only [tilCtrl, tilCnt, TilCnt.tilSpinstrCnt]
  omega

theorem completes_spEndKernel (on : On s) (ready : SpReady (isClass .control) t k s)
    (served : ∀ e ∈ outEdges (unitDesc (tile s t) k.job.unit), tget (fun _ => 0) k.emitted e =
      unGroup (unitDesc (tile s t) k.job.unit) * edRate (edgeDesc (tile s t) e)) (back : k.job.back = []) :
    Completes (.spEndKernel t) s fun u => (tile u t).kernel = none ∧ TileMems t s u ∧
      (counting s t = true → rd u (tilCnt t TilCnt.tilKernelCnt) = rd s (tilCnt t TilCnt.tilKernelCnt) + 1) ∧
      RegsBut (fun o => o = tilCnt t TilCnt.tilSpinstrCnt ∨ o = tilCnt t TilCnt.tilKernelCnt) s u ∧ OtherTiles t s u ∧
      u = { s with regs := u.regs, tiles := u.tiles } := by
  have short : ((outEdges (unitDesc (tile s t) k.job.unit)).any fun e => tget (fun _ => 0) k.emitted e !=
      unGroup (unitDesc (tile s t) k.job.unit) * edRate (edgeDesc (tile s t) e)) = false := by
    rw [List.any_eq_false]
    intro e he
    simp [served e he]
  obtain ⟨retired, mems⟩ := retire_only t k s
  have counts := tileCount1_regs t (tilCnt t TilCnt.tilKernelCnt) 1 (retire t k s)
  refine completes_powered on _ rfl ?_
  rw [spIssue_ready ready]
  dsimp only
  rw [short, if_neg Bool.false_ne_true, back, freeSlots, List.foldl_nil]
  refine ⟨?_, ?_, fun counting' => ?_, ?_, fun v hv => ?_, ?_⟩
  · rw [tile_updTile_same]
  · rw [TileMems, tile_updTile_same, tile_tileCount1]
    exact mems
  · have still : counting (retire t k s) t = true := by
      rw [counting, get, retired.regs _ (not_or.mpr ⟨tilCtrl_ne_spinstr t, id⟩)]
      exact counting'
    rw [rd_updTile, rd_tileCount1 still, retired.regs _ (not_or.mpr ⟨tilCnt_kernel_ne_spinstr t, id⟩)]
  · exact (retired.regs.mono fun _ ho => .inl (ho.resolve_right id)).trans (counts.mono fun _ => .inr)
  · rw [tile_updTile_ne hv, tile_tileCount1, retired.others v hv]
  · rw [updTile_same, tileCount1_same, retired.same]

theorem completes_spEmit {e n : Nat} (on : On s) (ready : SpReady (isInstr .control o) t k s)
    (port : o.vd < unNout (unitDesc (tile s t) k.job.unit)) (kind : o.imm % 4 ≠ 3)
    (he : e = unOut (unitDesc (tile s t) k.job.unit) o.vd) (hn : n = tget (fun _ => 0) k.emitted e)
    (within : n < unGroup (unitDesc (tile s t) k.job.unit) * edRate (edgeDesc (tile s t) e)) :
    Completes (.spEmit t o) s fun u => (∃ k', (tile u t).kernel = some k' ∧ tget (fun _ => 0) k'.emitted e = n + 1 ∧
      k'.pc = (afterInstr k.pc k.loops).1) ∧ u.hbm = s.hbm := by
  refine completes_powered on _ rfl ?_
  rw [spIssue_ready ready]
  dsimp only
  rw [if_neg (by omega)]
  obtain ⟨op, emits⟩ := emitNext_within (kind := o.imm % 4) (aux := scalar (tile s t) o.vb)
    (payload := scalar (tile s t) o.va) (next := retire t) he hn within
  rw [emits]
  have keeps := emitOps_keeps t k.job.unit e 0 op
    (retire t { k with emitted := tset (fun _ => 0) e (n + 1) k.emitted } s)
  refine ⟨⟨_, keeps.kernel.trans (congrArg TileState.kernel (tile_retire _ _ _)), ?_, rfl⟩, keeps.hbm.trans ?_⟩
  · exact tget_tset_same _ _ _ _
  · rw [(retire_only t _ s).1.same]

theorem completes_spEmit_beyond {e n : Nat} (on : On s) (ready : SpReady (isInstr .control o) t k s)
    (port : o.vd < unNout (unitDesc (tile s t) k.job.unit)) (kind : o.imm % 4 ≠ 3)
    (he : e = unOut (unitDesc (tile s t) k.job.unit) o.vd) (hn : n = tget (fun _ => 0) k.emitted e)
    (beyond : unGroup (unitDesc (tile s t) k.job.unit) * edRate (edgeDesc (tile s t) e) ≤ n)
    (hv : get s (tilDfFault t) TilDfFault.valid = 0) :
    Completes (.spEmit t o) s fun u => tileSt u t = tsHalt ∧ get u (tilDfFault t) TilDfFault.code = 3 ∧
      u.hbm = s.hbm := by
  subst he hn
  refine completes_powered on _ rfl ?_
  rw [spIssue_ready ready]
  dsimp only
  rw [if_neg (by omega), emitNext]
  dsimp only
  rw [if_pos beyond]
  exact tagFault_halts ready.works hv (by decide) _ _ _

theorem completes_spIllegal {op : Nat} (on : On s) (ready : SpReady (isIllegal op) t k s)
    (hv : get s (tilFault t) TilFault.valid = 0) :
    Completes (.spIllegal t op) s fun u => TileFaulted t 4 u ∧ TileMems t s u ∧ u.hbm = s.hbm := by
  refine completes_powered on _ rfl ?_
  rw [spIssue_ready ready]
  exact spFault_faulted ready.works hv (by decide) k

theorem completes_mcAbsent {i : Nat} (on : On s) (ready : SpReady (isCall i) t k s)
    (hv : get s (tilFault t) TilFault.valid = 0) (absent : i = 0 ∨ 11 < i) :
    Completes (.mcAbsent t i) s fun u => TileFaulted t 6 u ∧ TileMems t s u ∧ u.hbm = s.hbm := by
  refine completes_powered on _ rfl ?_
  rw [spIssue_ready ready, if_neg (by omega)]
  exact spFault_faulted ready.works hv (by decide) k

theorem completes_spMcReturn (on : On s) (works : tileWorks s t = true) (kernel : (tile s t).kernel = some k)
    (micro : k.micro.isSome = true) :
    Completes (.spMcReturn t) s fun u => SpRetired (fun _ => False) t { k with micro := none } s u ∧ TileMems t s u := by
  refine completes_powered on _ rfl ?_
  rw [kernel]
  dsimp only
  rw [works, micro, Bool.and_self, if_pos rfl]
  exact retire_only t _ s

end

/-- Settles O29: each instruction of control issues and retires, moves its kernel, or records its fault. -/
theorem kernelControl : Obligations.KernelControl := by
  unfold Obligations.KernelControl
  refine ⟨?_, ?_, ?_, ?_, ?_, ?_, ?_, ?_, ?_, ?_⟩
  · exact fun t j rest s on run queue none => completes_kernelStart on run queue none
  · exact fun t k o s on ready => ⟨completes_spBranch_taken on ready, completes_spBranch_falls on ready,
      completes_spBranch_outside on ready⟩
  · exact fun t k o s on ready h => completes_spHwLoop on ready h
  · exact fun t k v o s on ready => completes_spWaitFlag on ready v
  · exact fun t k s on ready => completes_spFence on ready
  · exact fun t k s on ready served back => completes_spEndKernel on ready served back
  · exact fun t k o e n s on ready port kind he hn => ⟨completes_spEmit on ready port kind he hn,
      completes_spEmit_beyond on ready port kind he hn⟩
  · exact fun t k op s on ready hv _ => completes_spIllegal on ready hv
  · exact fun t k i s on ready hv absent => completes_mcAbsent on ready hv absent
  · exact fun t k s on works kernel micro => completes_spMcReturn on works kernel micro

end Sys2Proof.Machine
end

section
/-! What a pass that completes sends and emits, and what that leaves of its tile (R134, R222, R567). -/

namespace Sys2Proof.Machine

open Sys2Proof

/-! ### Registers that sending changes -/

/-- LAT_STAT of a tile, CON_ROUTER_STAT of a router, and the registers of reports. -/
def SendReg (off : Nat) : Prop := (∃ v, off = latStat v) ∨ (∃ g, off = conRouterStat g) ∨ ReportReg off

/-- Sending changes neither TIL_CTRL nor TIL_PASS_CNT of a tile. -/
theorem not_sendReg {t off : Nat} (h : off = tilCtrl t ∨ off = tilCnt t TilCnt.tilPassCnt) : ¬ SendReg off := by
  have place : 0x1000000 ≤ off ∧ off % 32 = 0 := by
    rcases h with rfl | rfl
    · simp only [tilCtrl]
      omega
    · simp only [tilCnt, TilCnt.tilPassCnt]
      omega
  obtain ⟨page, aligned⟩ := place
  rintro (⟨v, rfl⟩ | ⟨g, rfl⟩ | report)
  · simp only [latStat] at aligned
    omega
  · simp only [conRouterStat] at aligned
    omega
  · exact not_reportReg_of_page page report

/-! ### What sending and emitting leave -/

/-- A tile keeps its passes, WM and its instruction store, HBM is unchanged, and of the registers only those of sending
have changed. -/
structure Emits (t : Nat) (s u : State) : Prop where
  regs : RegsBut SendReg s u
  passes : (tile u t).passes = (tile s t).passes
  wm : (tile u t).wm = (tile s t).wm
  istore : (tile u t).istore = (tile s t).istore
  hbm : u.hbm = s.hbm

theorem Emits.refl (t : Nat) (s : State) : Emits t s s := ⟨.refl _ _, rfl, rfl, rfl, rfl⟩

theorem Emits.trans {t : Nat} {s v u : State} (h : Emits t s v) (k : Emits t v u) : Emits t s u :=
  ⟨h.regs.trans k.regs, k.passes.trans h.passes, k.wm.trans h.wm, k.istore.trans h.istore, k.hbm.trans h.hbm⟩

theorem Emits.foldl {α : Type} {t : Nat} {f : State → α → State} (h : ∀ s x, Emits t s (f s x)) (l : List α) (s : State) :
    Emits t s (l.foldl f s) := foldl_related (.refl t) .trans l (fun x _ s => h s x) s

theorem Emits.ite {c : Prop} [Decidable c] {t : Nat} {s v u : State} (h : Emits t s v) (k : Emits t s u) :
    Emits t s (if c then v else u) := by
  split
  · exact h
  · exact k

theorem PacketKeeps.emits {s u : State} (h : PacketKeeps s u) (regs : RegsBut SendReg s u) (t : Nat) : Emits t s u := by
  have same : tile u t = tile s t := by rw [tile, h.tiles, ← tile]
  exact ⟨regs, by rw [same], by rw [same], by rw [same], h.hbm⟩

theorem LaneSent.emits {s u : State} (h : LaneSent s u) (regs : RegsBut SendReg s u) (t : Nat) : Emits t s u :=
  ⟨regs, by rw [h.tile t], by rw [h.tile t], by rw [h.tile t], by rw [h.same]⟩

/-! ### Packets -/

theorem nicStart_regs (g p : Nat) (data : Bool) (s : State) : (nicStart g p data s).regs = s.regs := by
  unfold nicStart
  dsimp only
  split
  · rfl
  · split <;> rfl

theorem inject_regs (p : Packet) (s : State) : (inject p s).regs = s.regs := by
  simp only [inject, injectAtPort, nicFill, nicStart_regs]

theorem countRsvd_regs (g : Nat) (s : State) : RegsBut SendReg s (countRsvd g s) :=
  (regsBut_satAdd (.inr (.inl ⟨g, rfl⟩)) _ _ s).trans ((logOpen_reports _ _ _ _ _ _ _).1.mono fun _ ho => .inr (.inr ho))

theorem send_regs (p : Packet) (s : State) : RegsBut SendReg s (send p s) := by
  have injected : ∀ q, RegsBut SendReg s (inject q s) := fun q o _ => by rw [rd, inject_regs, ← rd]
  unfold send
  split
  · dsimp only
    split
    · exact injected _
    · exact countRsvd_regs _ _
  · split
    · exact injected _
    · split
      · exact (logOpen_reports _ _ _ _ _ _ _).1.mono fun _ ho => .inr (.inr ho)
      · exact fun _ _ => rfl

theorem send_emits (t : Nat) (p : Packet) (s : State) : Emits t s (send p s) := (send_keeps p s).emits (send_regs p s) t

theorem net_emits (t : Nat) (n : NetState) (s : State) : Emits t s { s with net := n } :=
  ⟨fun _ _ => rfl, rfl, rfl, rfl, rfl⟩

theorem sendAwaited_emits (t src dst opc : Nat) (payload : List Byte) (s : State) :
    Emits t s (sendAwaited src dst opc payload s) := by
  rw [sendAwaited_eq]
  exact (net_emits t _ s).trans (send_emits t _ _)

theorem sendOperands_emits (t src dst q : Nat) : ∀ (ops : List Nat) (s : State), Emits t s (sendOperands src dst q ops s)
  | [], s => .refl t s
  | [_], s => sendAwaited_emits t _ _ _ _ s
  | _ :: _ :: r, s => (sendAwaited_emits t _ _ _ _ s).trans (sendOperands_emits t src dst q r _)

/-! ### The lattice -/

theorem updTile_regsBut (p : Nat → Prop) (t : Nat) (f : TileState → TileState) (s : State) : RegsBut p s (updTile t f s) :=
  fun _ _ => rd_updTile _ _ _ _

theorem flyWords_emits (t v q op : Nat) (ws : List (List LaneWord)) (n : Nat) (s : State) :
    Emits t s (flyWords v q op ws n s) := (flyWords_laneSent _ _ _ _ _ s).emits (updTile_regsBut _ _ _ s) t

theorem addItems_emits (t v d : Nat) (items : List (List Byte)) (s : State) : Emits t s (addItems v d items s) := by
  refine (addItems_laneSent v d items s).emits ?_ t
  unfold addItems
  exact .ite (.refl _ s) (updTile_regsBut _ _ _ s)

theorem offDrop_emits (t v n : Nat) (s : State) : Emits t s (satAdd (latStat v) LatStat.offDrop n s) :=
  (satAdd_laneSent _ _ _ s).emits (regsBut_satAdd (.inl ⟨v, rfl⟩) _ _ s) t

theorem gatherAt_emits (t v ch k : Nat) (bs : List Byte) (s : State) : Emits t s (gatherAt v ch k bs s) :=
  (gatherAt_laneSent v ch k bs s).emits (updTile_regsBut _ _ _ s) t

theorem sendLattice_emits (t v ch lead : Nat) (ops : List Nat) (s : State) : Emits t s (sendLattice v ch lead ops s) := by
  have aside : ∀ e n, Emits t s (dropAside e n s) := fun e n => .foldl (fun s u => offDrop_emits t u n s) _ s
  unfold sendLattice
  refine .ite ?_ (.ite ?_ ?_)
  · exact (aside _ _).trans (gatherAt_emits _ _ _ _ _ _)
  · exact (aside _ _).trans (offDrop_emits _ _ _ _)
  · exact (aside _ _).trans (.foldl (fun s o => flyWords_emits _ _ _ _ _ _ s) _ _)

theorem emit_emits (t v e lead : Nat) (ops : List Nat) (s : State) : Emits t s (emit v e lead ops s) := by
  unfold emit
  dsimp only
  split
  · exact .foldl (fun s o => flyWords_emits t _ _ _ _ _ s) ops s
  · split
    · exact sendLattice_emits t _ _ _ _ s
    · exact sendOperands_emits t _ _ _ ops s

theorem emitPlain_emits (t v u first skips lead : Nat) (s : State) : Emits t s (emitPlain v u first skips lead s) :=
  .foldl (fun s e => (addItems_emits t v _ _ s).trans (emit_emits t v e lead _ _)) _ s

/-! ### Credits of consumed messages (R222, R223) -/

theorem setChan_emits (t v ch : Nat) (c : ChanRun) (s : State) : Emits t s (setChan v ch c s) := by
  have kept : (tile (setChan v ch c s) t).passes = (tile s t).passes ∧ (tile (setChan v ch c s) t).wm = (tile s t).wm ∧
      (tile (setChan v ch c s) t).istore = (tile s t).istore := by
    rw [setChan]
    by_cases h : t = v
    · rw [h, tile_updTile_same]
      exact ⟨rfl, rfl, rfl⟩
    · rw [tile_updTile_ne h]
      exact ⟨rfl, rfl, rfl⟩
  obtain ⟨passes, wm, istore⟩ := kept
  exact ⟨updTile_regsBut _ _ _ s, passes, wm, istore, rfl⟩

theorem returnCredits_emits (t v ch n : Nat) (s : State) : Emits t s (returnCredits v ch n s) := by
  unfold returnCredits
  dsimp only
  split
  · exact .refl t s
  · split
    · exact (net_emits t _ s).trans (send_emits t _ _)
    · exact setChan_emits t _ _ _ s

theorem freeSlots_emits (t v : Nat) (back : List (Nat × Nat)) (s : State) : Emits t s (freeSlots v back s) :=
  .foldl (f := fun s b => returnCredits v b.1 b.2 s) (fun s b => returnCredits_emits t v b.1 b.2 s) back s

end Sys2Proof.Machine
end

section
/-! The statement on passes: issue, fetch, front and completion, and the faults that stop them (R91, R92, R93, R96, R111,
R119, R331). -/

namespace Sys2Proof.Machine

open Sys2Proof

/-! ### Faults of a pass (R114, R119, R333) -/

/-- A fault that is held stands through what follows it. -/
theorem Aftermath.faulted {t code : Nat} {s u : State} (h : Aftermath t s u) (f : TileFaulted t code s) :
    TileFaulted t code u := by
  have page : InPage t (tilFault t) := by
    simp only [InPage, tilFault]
    omega
  obtain ⟨halt, valid, held⟩ := f
  rw [TileFaulted, h.tileSt, get, get, h.page _ page]
  exact ⟨halt, valid, held⟩

theorem Aftermath.tileMems {t : Nat} {s v u : State} (h : Aftermath t v u) (k : TileMems t s v) : TileMems t s u := by
  rw [TileMems, h.tile]
  exact k

theorem tileFault_aftermath (t code info : Nat) (s : State) :
    Aftermath t (recordFault t code info s) (tileFault t code info s) :=
  faultFollows_aftermath t 119 code csTileFault _ _

/-- A tile fault on a tile that works and holds no fault. -/
theorem tileFault_faulted {t : Nat} {s : State} (works : tileWorks s t = true)
    (hv : get s (tilFault t) TilFault.valid = 0) {code : Nat} (hc : code < 2 ^ 8) (info : Nat) :
    TileFaulted t code (tileFault t code info s) ∧ TileMems t s (tileFault t code info s) ∧
      (tileFault t code info s).hbm = s.hbm := by
  obtain ⟨faulted, mems, hbm⟩ := recordFault_faulted works hv hc info
  have follows := tileFault_aftermath t code info s
  exact ⟨follows.faulted faulted, follows.tileMems mems, by rw [follows.same]; exact hbm⟩

/-- Recording a fault of a tile that works leaves TIL_ARITH_STAT, the integrity state and the time. -/
theorem recordFault_keeps {t : Nat} {s : State} (works : tileWorks s t = true)
    (hv : get s (tilFault t) TilFault.valid = 0) (code info : Nat) :
    rd (recordFault t code info s) (tilArithStat t) = rd s (tilArithStat t) ∧
      (recordFault t code info s).integ = s.integ ∧ (recordFault t code info s).devtime = s.devtime := by
  have fault : tilArithStat t ≠ tilFault t := by
    simp only [tilArithStat, tilFault]
    omega
  have stat : tilArithStat t ≠ tilStat t := by
    simp only [tilArithStat, tilStat]
    omega
  rw [recordFault_eq (tileSt_of_works works).2 hv, stopTile_eq (tileSt_of_works works).2]
  refine ⟨?_, rfl, rfl⟩
  simp only [rd_upd_ne fault, rd_upd_ne stat, rd_updTile]

theorem tileWorks_of_run {s : State} {t : Nat} (h : tileSt s t = tsRun) : tileWorks s t = true := by
  simp [tileWorks, h]

/-! ### Residue failures (R331-R334) -/

theorem countCheck_residue (s : State) : countCheck ckResidue s = addR (intCnt IntCnt.residue) 1 s := rfl

theorem countCheck_aftermath (t : Nat) (s : State) : Aftermath t s (countCheck ckResidue s) := by
  rw [countCheck_residue]
  refine put_aftermath ?_ (by decide) _ s
  simp only [InPage, intCnt, IntCnt.residue]
  omega

/-- An INTEGRITY fault that keeps its tile in service, short of the third in an hour. -/
theorem noteStaying_eq {t check : Nat} {s : State}
    (h : ((tget (fun _ => []) s.integ.faults t).filter fun x => decide (s.devtime < x + 3600 * secTicks)).length < 2) :
    ∃ f, noteStaying t check s = itg f s := by
  refine ⟨_, if_neg ?_⟩
  rw [List.length_cons]
  omega

theorem faulted_itg {t code : Nat} {s : State} (f : IntegState → IntegState) (h : TileFaulted t code s) :
    TileFaulted t code (itg f s) := h

/-- A residue failure records INTEGRITY and leaves HBM. -/
theorem integrityFault_residue {t : Nat} {s : State} (works : tileWorks s t = true)
    (hv : get s (tilFault t) TilFault.valid = 0)
    (few : ((tget (fun _ => []) s.integ.faults t).filter fun x =>
      decide (s.devtime < x + 3600 * secTicks)).length < 2) :
    TileFaulted t 8 (integrityFault t ckResidue s) ∧ (integrityFault t ckResidue s).hbm = s.hbm := by
  obtain ⟨faulted, -, hbm⟩ := recordFault_faulted works hv (code := tfIntegrity) (by decide) ckResidue
  obtain ⟨-, integ, devtime⟩ := recordFault_keeps works hv tfIntegrity ckResidue
  have noTest : ¬ (tileSt s t = tsTest ∧ ckResidue ≠ ckKatFail) := fun ⟨h, _⟩ => by
    rw [tileWorks, h] at works
    exact absurd works (by decide)
  unfold integrityFault integrityFaultAs
  dsimp only
  rw [if_neg noTest, if_neg (by decide), if_neg (by decide)]
  generalize recordFault t tfIntegrity ckResidue s = r at faulted hbm integ devtime ⊢
  generalize hw : overrideCause _ = w
  have follows : Aftermath t r w := by
    subst hw
    exact ((((countCheck_aftermath t r).trans ((logEvent_reports _ _).aftermath t)).trans (haltGraph_aftermath t _)).trans
      (batchFail_aftermath t _ _ _ _)).trans (req_aftermath t _ _)
  obtain ⟨f, stays⟩ := noteStaying_eq (t := t) (check := ckResidue) (s := w) (by
    have same : w.integ = s.integ ∧ w.devtime = s.devtime := by
      rw [follows.same]
      exact ⟨integ, devtime⟩
    rw [same.1, same.2]
    exact few)
  rw [stays]
  refine ⟨faulted_itg f (follows.faulted faulted), ?_⟩
  have kept : (itg f w).hbm = w.hbm := rfl
  rw [kept, follows.same]
  exact hbm

/-! ### Issue and fetch (R91, R96) -/

theorem readRanges_of_no_errs {t : Nat} {s : State} (h : (tile s t).errs = []) (e : Nat) :
    ∀ l : List (Nat × Nat × Nat), readRanges t e l s = (true, s)
  | [] => rfl
  | r :: rs => by
    rw [readRanges, readRange_of_no_errs h]
    exact readRanges_of_no_errs h e rs

section

variable {t : TileId} {j : SeqJob} {rest : List SeqJob} {i : Nat} {r : PassRun} {s : State}

theorem completes_passIssue (on : On s) (run : tileSt s t = tsRun) (errs : (tile s t).errs = [])
    (queue : (tile s t).passQ = j :: rest) (ahead : passesAhead (tile s t) < 2)
    (ok : passOk (passDesc (tile s t) j.target) = true)
    (ranges : ∀ r ∈ passRanges (tile s t) (taskEntry s t j.task) (passDesc (tile s t) j.target),
      admits (taskEntry s t j.task) r.1 r.2.1 r.2.2 = true) :
    Completes (.passIssue t) s fun u =>
      u = updTile t (fun x => { x with passQ := rest, passes := x.passes ++ [{ job := j, half :=
        { heads := laneHeads (tile s t) (taskEntry s t j.task) (passDesc (tile s t) j.target) } }] }) s := by
  have bounds : ((passRanges (tile s t) (taskEntry s t j.task) (passDesc (tile s t) j.target)).any fun r =>
      !admits (taskEntry s t j.task) r.1 r.2.1 r.2.2) = false := by
    rw [List.any_eq_false]
    intro r hr
    rw [ranges r hr]
    decide
  refine completes_powered on _ rfl ?_
  dsimp only
  rw [queue]
  dsimp only
  rw [if_neg (by simp [run, ahead]), readRange_of_no_errs errs]
  dsimp only
  rw [ok, bounds]
  rfl

theorem completes_passIssue_bad (on : On s) (run : tileSt s t = tsRun) (errs : (tile s t).errs = [])
    (queue : (tile s t).passQ = j :: rest) (ahead : passesAhead (tile s t) < 2)
    (bad : passOk (passDesc (tile s t) j.target) = false) (hv : get s (tilFault t) TilFault.valid = 0) :
    Completes (.passIssue t) s fun u => TileFaulted t 3 u ∧ TileMems t s u ∧ u.hbm = s.hbm := by
  refine completes_powered on _ rfl ?_
  dsimp only
  rw [queue]
  dsimp only
  rw [if_neg (by simp [run, ahead]), readRange_of_no_errs errs]
  dsimp only
  rw [bad]
  exact tileFault_faulted (tileWorks_of_run run) hv (by decide) _

theorem completes_weightFetch (on : On s) (works : tileWorks s t = true)
    (next : findIdxFrom (fun r => r.phase == .issued) 0 (tile s t).passes = some (i, r))
    (free : ((tile s t).passes.filter holdsHalf).length < 2) :
    Completes (.weightFetch t) s fun u => u = updTile t (setPass i { r with phase := .fetching }) s := by
  refine completes_powered on _ rfl ?_
  dsimp only
  rw [next]
  dsimp only
  rw [if_pos (by simp [works, free])]
  rfl

/-- A decode fault sets DEC_FAULT before it stops the tile (R72, R119). -/
theorem decFault_faulted (works : tileWorks s t = true) (hv : get s (tilFault t) TilFault.valid = 0) (info : Nat) :
    TileFaulted t 2 (tileFault t tfDecFault info (noteDecFault t s)) ∧
      get (tileFault t tfDecFault info (noteDecFault t s)) (tilArithStat t) TilArithStat.decFault = 1 ∧
      TileMems t s (tileFault t tfDecFault info (noteDecFault t s)) ∧
      (tileFault t tfDecFault info (noteDecFault t s)).hbm = s.hbm := by
  have power : pwrState ≠ tilArithStat t := pwrState_ne_page (by simp only [tilArithStat]; omega)
  have stat : tilStat t ≠ tilArithStat t := by
    simp only [tilStat, tilArithStat]
    omega
  have fault : tilFault t ≠ tilArithStat t := by
    simp only [tilFault, tilArithStat]
    omega
  have page : InPage t (tilArithStat t) := by
    simp only [InPage, tilArithStat]
    omega
  have works' : tileWorks (noteDecFault t s) t = true := by
    rw [tileWorks, tileSt, noteDecFault, tileOff_upd power, get_upd_ne stat, ← tileSt]
    exact works
  have hv' : get (noteDecFault t s) (tilFault t) TilFault.valid = 0 := (get_upd_ne fault _ _ _ _).trans hv
  obtain ⟨faulted, mems, hbm⟩ := tileFault_faulted works' hv' (code := tfDecFault) (by decide) info
  refine ⟨faulted, ?_, mems, hbm⟩
  rw [get, (tileFault_aftermath _ _ _ _).page _ page, (recordFault_keeps works' hv' _ _).1]
  exact get_upd_same _ _ _ _ (by decide)

theorem completes_weightFetchDone (on : On s) (works : tileWorks s t = true) (errs : (tile s t).errs = [])
    (next : findIdxFrom (fun r => r.phase == .fetching) 0 (tile s t).passes = some (i, r)) {h : WeightHalf}
    (set : weightSet s t (passDesc (tile s t) r.job.target) (taskEntry s t r.job.task) r.half.heads = some h) :
    Completes (.weightFetchDone t) s fun u => u = updTile t (setPass i { r with phase := .fetched, half := h }) s := by
  refine completes_powered on _ rfl ?_
  dsimp only
  rw [next]
  dsimp only
  rw [works, if_neg (by decide), readRanges_of_no_errs errs]
  dsimp only
  rw [if_neg (by decide), set]

theorem completes_weightFetchDone_fault (on : On s) (works : tileWorks s t = true) (errs : (tile s t).errs = [])
    (next : findIdxFrom (fun r => r.phase == .fetching) 0 (tile s t).passes = some (i, r))
    (set : weightSet s t (passDesc (tile s t) r.job.target) (taskEntry s t r.job.task) r.half.heads = none)
    (hv : get s (tilFault t) TilFault.valid = 0) :
    Completes (.weightFetchDone t) s fun u => TileFaulted t 2 u ∧ get u (tilArithStat t) TilArithStat.decFault = 1 ∧
      TileMems t s u ∧ u.hbm = s.hbm := by
  refine completes_powered on _ rfl ?_
  dsimp only
  rw [next]
  dsimp only
  rw [works, if_neg (by decide), readRanges_of_no_errs errs]
  dsimp only
  rw [if_neg (by decide), set]
  exact decFault_faulted works hv _

/-! ### Front and completion (R92, R93) -/

theorem completes_weightFrontStart (on : On s) (run : tileSt s t = tsRun)
    (next : findIdxFrom (fun r => r.phase != .running) 0 (tile s t).passes = some (i, r)) (fetched : r.phase = .fetched)
    (entering : enteringPass (tile s t) = none) (front : (tile s t).frontAt ≤ (tile s t).tclk) :
    Completes (.weightFrontStart t) s fun u =>
      (tile u t).passes = (tile s t).passes.set i { r with phase := .running } ∧
      ((tile s t).beatEnd < (tile s t).tclk →
        (tile u t).frontAt = (tile s t).tclk + 64 * beatLen (passDesc (tile s t) r.job.target) ∧
        (tile u t).vecAt = (tile s t).tclk + beatLen (passDesc (tile s t) r.job.target)) ∧
      ((tile s t).tclk ≤ (tile s t).beatEnd →
        (tile u t).frontAt = max (tile s t).frontAt (tile s t).beatAt + 64 * beatLen (passDesc (tile s t) r.job.target) ∧
        (tile u t).vecAt = (tile s t).beatEnd + 1) ∧ get u (tilStat t) TilStat.front = 1 ∧ TileMems t s u ∧
      RegsBut (· = tilStat t) s u ∧ OtherTiles t s u ∧ u = { s with regs := u.regs, tiles := u.tiles } := by
  refine completes_powered on _ rfl ?_
  dsimp only
  rw [next]
  dsimp only
  rw [if_pos (by simp [fetched, run, entering, front])]
  refine ⟨?_, fun idle => ?_, fun busy => ?_, get_upd_same _ _ _ _ (by decide), ?_,
    regsBut_upd (p := (· = tilStat t)) rfl _ _ _, fun v hv => ?_, rfl⟩
  · rw [tile_upd, tile_setTile_same]
    rfl
  · rw [tile_upd, tile_setTile_same, frontBeat, if_neg (Nat.not_le.mpr idle)]
    exact ⟨rfl, rfl⟩
  · rw [tile_upd, tile_setTile_same, frontBeat, if_pos busy]
    exact ⟨rfl, rfl⟩
  · rw [TileMems, tile_upd, tile_setTile_same]
    exact ⟨rfl, rfl, rfl, rfl⟩
  · rw [tile_upd, tile_setTile_ne hv]

theorem completes_passComplete {ops : List AccOp} (on : On s) (works : tileWorks s t = true)
    (next : findIdxFrom (passDone (tile s t)) 0 (tile s t).passes = some (i, r)) (ok : ops.all accOk = true) :
    Completes (.passComplete t ops) s fun u => (tile u t).passes = eraseAt i (tile s t).passes ∧
      (counting s t = true → rd u (tilCnt t TilCnt.tilPassCnt) = rd s (tilCnt t TilCnt.tilPassCnt) + 1) ∧
      (tile u t).wm = (tile s t).wm ∧ (tile u t).istore = (tile s t).istore ∧ u.hbm = s.hbm := by
  refine completes_powered on _ rfl ?_
  dsimp only
  rw [next]
  dsimp only
  rw [works, ok, if_neg (by decide), if_neg (by decide)]
  generalize hleft : updTile t (fun x => { x with passes := eraseAt i x.passes }) s = left
  have erased : tile left t = { tile s t with passes := eraseAt i (tile s t).passes } := by
    rw [← hleft, tile_updTile_same]
  have leftRegs : ∀ o, rd left o = rd s o := fun o => by rw [← hleft, rd_updTile]
  have leftHbm : left.hbm = s.hbm := by rw [← hleft, updTile_hbm]
  have freed := freeSlots_emits t t r.job.back left
  generalize freeSlots t r.job.back left = free at freed ⊢
  have emitted := emitPlain_emits t t r.job.unit r.job.tag r.job.skips 0
    (tileCount1 t (tilCnt t TilCnt.tilPassCnt) 1 free)
  generalize emitPlain t r.job.unit r.job.tag r.job.skips 0 _ = u at emitted ⊢
  refine ⟨?_, fun counts => ?_, ?_, ?_, ?_⟩
  · rw [emitted.passes, tile_tileCount1, freed.passes, erased]
  · have still : counting free t = true := by
      rw [counting, get, freed.regs _ (not_sendReg (.inl rfl)), leftRegs]
      exact counts
    rw [emitted.regs _ (not_sendReg (.inr rfl)), rd_tileCount1 still, freed.regs _ (not_sendReg (.inr rfl)), leftRegs]
  · rw [emitted.wm, tile_tileCount1, freed.wm, erased]
  · rw [emitted.istore, tile_tileCount1, freed.istore, erased]
  · rw [emitted.hbm, tileCount1_same, freed.hbm, leftHbm]

theorem completes_passComplete_fault {ops : List AccOp} (on : On s) (works : tileWorks s t = true)
    (next : findIdxFrom (passDone (tile s t)) 0 (tile s t).passes = some (i, r)) (bad : ops.all accOk = false)
    (hv : get s (tilFault t) TilFault.valid = 0)
    (few : ((tget (fun _ => []) s.integ.faults t).filter fun x =>
      decide (s.devtime < x + 3600 * secTicks)).length < 2) :
    Completes (.passComplete t ops) s fun u => TileFaulted t 8 u ∧ u.hbm = s.hbm := by
  refine completes_powered on _ rfl ?_
  dsimp only
  rw [next]
  dsimp only
  rw [works, bad, if_neg (by decide), if_pos (by decide)]
  exact integrityFault_residue works hv few

end

/-- Settles O26: each step finds its pass by phase and moves it on, or records the fault that stops the tile. -/
theorem passesThroughTheArrays : Obligations.PassesThroughTheArrays := by
  unfold Obligations.PassesThroughTheArrays
  refine ⟨?_, ?_, ?_, ?_, ?_⟩
  · exact fun t j rest s on run errs queue ahead => ⟨completes_passIssue on run errs queue ahead,
      completes_passIssue_bad on run errs queue ahead⟩
  · exact fun t i r s on works next free => completes_weightFetch on works next free
  · exact fun t i r s on works errs next => ⟨fun h set => completes_weightFetchDone on works errs next set,
      completes_weightFetchDone_fault on works errs next⟩
  · exact fun t i r s on run next fetched entering front => completes_weightFrontStart on run next fetched entering front
  · exact fun t i r ops s on works _ next => ⟨completes_passComplete on works next,
      completes_passComplete_fault on works next⟩

end Sys2Proof.Machine
end

section
/-! Queues of a tile: what replacing one leaves, and what an operand that is placed in one changes (R124, R131, R154). -/

namespace Sys2Proof.Machine

open Sys2Proof

/-! ### Replacing a queue -/

@[simp] theorem queueRun_setQueue_same (t q : Nat) (r : QueueRun) (s : State) :
    queueRun (tile (setQueue t q r s) t) q = r := by
  rw [setQueue, tile_updTile_same]
  exact tget_tset_same _ _ _ _

theorem queueRun_setQueue_ne {q p : Nat} (h : p ≠ q) (t : Nat) (r : QueueRun) (s : State) :
    queueRun (tile (setQueue t q r s) t) p = queueRun (tile s t) p := by
  rw [setQueue, tile_updTile_same]
  exact tget_tset_of_ne _ h _ _

/-- A tile has changed, but not its queues, and nothing else has. -/
structure QueuesKept (t : Nat) (s u : State) : Prop where
  queues : (tile u t).queues = (tile s t).queues
  others : OtherTiles t s u
  same : u = { s with tiles := u.tiles }

theorem QueuesKept.refl (t : Nat) (s : State) : QueuesKept t s s := ⟨rfl, fun _ _ => rfl, rfl⟩

theorem QueuesKept.trans {t : Nat} {s v u : State} (h : QueuesKept t s v) (k : QueuesKept t v u) : QueuesKept t s u :=
  ⟨k.queues.trans h.queues, fun x hx => (k.others x hx).trans (h.others x hx), by rw [k.same, h.same]⟩

theorem updTile_queuesKept (t : Nat) {f : TileState → TileState} {s : State} (h : (f (tile s t)).queues = (tile s t).queues) :
    QueuesKept t s (updTile t f s) :=
  ⟨by rw [tile_updTile_same, h], updTile_others t f s, rfl⟩

theorem QueuesKept.queueRun {t : Nat} {s u : State} (h : QueuesKept t s u) (q : Nat) :
    queueRun (tile u t) q = queueRun (tile s t) q := by
  rw [Machine.queueRun, h.queues]
  rfl

theorem QueuesKept.regs {t : Nat} {s u : State} (h : QueuesKept t s u) : u.regs = s.regs := by rw [h.same]

/-! ### Placing an operand -/

/-- The counters of a queue change at most. -/
theorem noteIn_counted (t q : Nat) (s : State) :
    RegsBut (fun o => o = queueCnt t q 0 ∨ o = queueCnt t q 1) s (noteIn t q s) ∧
      noteIn t q s = { s with regs := (noteIn t q s).regs } := by
  unfold noteIn
  split
  · dsimp only
    have first : RegsBut (fun o => o = queueCnt t q 0 ∨ o = queueCnt t q 1) s (addR (queueCnt t q 0) 1 s) :=
      regsBut_put (.inl rfl) _ _
    split
    · exact ⟨first.trans (regsBut_upd (.inr rfl) _ _ _), rfl⟩
    · exact ⟨first, rfl⟩
  · exact ⟨.refl _ _, rfl⟩

/-- A queue with an operand that has joined it, in an entry of the operand store. -/
def queueJoined (x : TileState) (q op : Nat) (drained : Bool) : QueueRun :=
  { queueRun x q with
    items := (queueRun x q).items ++ [{ op := op, entry := freeEntry (quBase (queueDesc x q)) (queueRun x q)
                                        at_ := x.tclk, drained := drained }]
    got := (queueRun x q).got + 1 }

/-- The queue's consumer has received an operand, and its tile is not quiet (R146, R147). -/
def arrivalNoted (t q : Nat) (x : TileState) (s : State) : State :=
  updTile t (fun x => { x with quiet := 0 }) (match consumer x q with
    | some u => setUnit t u { unitRun x u with active := x.tclk } s
    | none => s)

theorem arrivalNoted_kept (t q : Nat) (x : TileState) (s : State) : QueuesKept t s (arrivalNoted t q x s) := by
  unfold arrivalNoted
  cases consumer x q with
  | none => exact updTile_queuesKept t rfl
  | some u =>
    have unit : QueuesKept t s (setUnit t u { unitRun x u with active := x.tclk } s) := updTile_queuesKept t rfl
    exact unit.trans (updTile_queuesKept t rfl)

theorem enqueue_eq (t q op : Nat) (drained : Bool) (s : State) :
    enqueue t q op drained s = noteIn t q (arrivalNoted t q (tile s t) (setQueue t q (queueJoined (tile s t) q op drained)
      (updTile t (clearGranules 4 (freeEntry (quBase (queueDesc (tile s t) q)) (queueRun (tile s t) q)) 1) s))) := rfl

/-- An operand has joined a queue; beyond that tile, only the counters of the queue have changed. -/
structure Enqueued (t q op : Nat) (drained : Bool) (s u : State) : Prop where
  queue : queueRun (tile u t) q = queueJoined (tile s t) q op drained
  queues : ∀ p, p ≠ q → queueRun (tile u t) p = queueRun (tile s t) p
  others : OtherTiles t s u
  regs : RegsBut (fun o => o = queueCnt t q 0 ∨ o = queueCnt t q 1) s u
  same : u = { s with regs := u.regs, tiles := u.tiles }

theorem enqueue_enqueued (t q op : Nat) (drained : Bool) (s : State) : Enqueued t q op drained s (enqueue t q op drained s) := by
  rw [enqueue_eq]
  have cleared : QueuesKept t s
      (updTile t (clearGranules 4 (freeEntry (quBase (queueDesc (tile s t) q)) (queueRun (tile s t) q)) 1) s) :=
    updTile_queuesKept t rfl
  generalize updTile t (clearGranules 4 _ 1) s = v at cleared ⊢
  have noted := arrivalNoted_kept t q (tile s t) (setQueue t q (queueJoined (tile s t) q op drained) v)
  generalize arrivalNoted t q (tile s t) _ = w at noted ⊢
  obtain ⟨regs, same⟩ := noteIn_counted t q w
  have tiles : ∀ x, tile (noteIn t q w) x = tile w x := fun x => by
    rw [same]
    rfl
  refine ⟨?_, fun p hp => ?_, fun x hx => ?_, fun o ho => ?_, ?_⟩
  · rw [tiles, noted.queueRun, queueRun_setQueue_same]
  · rw [tiles, noted.queueRun, queueRun_setQueue_ne hp, cleared.queueRun]
  · rw [tiles, noted.others x hx, setQueue, tile_updTile_ne hx, cleared.others x hx]
  · rw [regs o ho, rd, noted.regs, setQueue, updTile_regs, cleared.regs, ← rd]
  · rw [same, noted.same, setQueue, updTile_same, cleared.same]

end Sys2Proof.Machine
end

section
/-! A tag fault meets a tile that is IDLE and not ready, which R122 keeps in IDLE: the fault is recorded, and the tile does not
read HALT. The statement on the tag matcher fails there, in its clause on TAG_RANGE (R114, R122, R131, R144, R145). -/

namespace Sys2Proof.Machine

open Sys2Proof

/-! ### A tag fault on a tile that is not ready -/

/-- A tile that is IDLE and whose microcode is not the field controllers' does not leave IDLE (R122). -/
structure NotReady (t : Nat) (s : State) : Prop where
  idle : tileSt s t = tsIdle
  microcode : microcodeOk s t = false

/-- What follows a fault, or touches no register of the tile's page, does not make the tile ready. -/
theorem NotReady.aftermath {t : Nat} {s u : State} (h : NotReady t s) (k : Aftermath t s u) : NotReady t u := by
  have page : InPage t (tilMcVer t) := by
    simp only [InPage, tilMcVer]
    omega
  have boot : u.boot = s.boot := by rw [k.same]
  refine ⟨k.tileSt.trans h.idle, ?_⟩
  rw [microcodeOk, k.page _ page, boot]
  exact h.microcode

theorem NotReady.upd {t off : Nat} {s : State} (h : NotReady t s) (stat : tilStat t ≠ off) (mc : tilMcVer t ≠ off)
    (pwr : pwrState ≠ off) (f : Fld) (x : Nat) : NotReady t (upd off f x s) := by
  refine ⟨?_, ?_⟩
  · rw [tileSt, tileOff_upd pwr, get_upd_ne stat]
    exact h.idle
  · rw [microcodeOk, rd_upd_ne mc]
    exact h.microcode

/-- The state of a tile does not depend on what the tile holds. -/
theorem NotReady.updTile {t : Nat} {s : State} (h : NotReady t s) (v : Nat) (f : TileState → TileState) :
    NotReady t (updTile v f s) := ⟨h.idle, h.microcode⟩

/-- FRONT stands in the register of the state, in another field. -/
theorem tileSt_updFront (t x : Nat) (s : State) : tileSt (upd (tilStat t) TilStat.front x s) t = tileSt s t := by
  rw [tileSt, tileSt, tileOff_upd (pwrState_ne_tilStat t), get_upd_other _ _ _ _ _ (by decide) (by decide)]

theorem stopTile_notReady {t : Nat} {s : State} (h : NotReady t s) : NotReady t (stopTile t s) := by
  have held : NotReady t (updTile t TileState.stopped s) := h.updTile t _
  have notOk : (!microcodeOk (updTile t TileState.stopped s) t) = true := by
    rw [held.microcode]
    rfl
  have stays : stopTile t s = upd (tilStat t) TilStat.front 0 (updTile t TileState.stopped s) :=
    congrArg (upd (tilStat t) TilStat.front 0) (if_pos ⟨held.idle, notOk⟩)
  rw [stays]
  refine ⟨(tileSt_updFront t 0 _).trans held.idle, ?_⟩
  rw [microcodeOk, rd_upd_ne (by simp only [tilMcVer, tilStat]; omega)]
  exact held.microcode

theorem recordTagFault_notReady {t : Nat} {s : State} (h : NotReady t s) (code unit queue tag : Nat) :
    NotReady t (recordTagFault t code unit queue tag s) := by
  have field : ∀ {v : State}, NotReady t v → ∀ f x, NotReady t (upd (tilDfFault t) f x v) := fun k =>
    k.upd (tilDfFault_ne_tilStat t).symm (by simp only [tilMcVer, tilDfFault]; omega) (pwrState_ne_tilDfFault t)
  have stopped := stopTile_notReady h
  unfold recordTagFault
  dsimp only
  split
  · exact field stopped _ _
  · exact field (field (field (field (field stopped _ _) _ _) _ _) _ _) _ _

/-- A tag fault is recorded, and the tile stays in IDLE. -/
theorem tagFault_notReady {t : Nat} {s : State} (h : NotReady t s) (code unit queue tag : Nat) :
    tileSt (tagFault t code unit queue tag s) t = tsIdle :=
  ((recordTagFault_notReady h code unit queue tag).aftermath (faultFollows_aftermath t 144 code csDataflowFault _ _)).idle

/-! ### An operand out of range (R131, R145) -/

/-- After reset, with site 0 powered and microcode of version 1 in the field controllers: tile 0 reads version 0. -/
def unready : State := { State.reset with power := { siteOn := [0] }, boot := { microcode := 1 } }

theorem unready_notReady : NotReady 0 unready := ⟨by decide, by decide⟩

theorem unready_on : tileOff unready 0 = false := by decide

theorem unready_noFault : get unready (tilDfFault 0) TilDfFault.valid = 0 := by decide

/-- An operand of tag 2,048 for queue 1 that is due. -/
def farOperand : Flight := { q := 1, op := 2048, due := 0 }

/-- Fork 1 of tile 0 consumes queue 1 from base 0, and that operand is in flight to it. -/
def unreadyArrival : State :=
  { unready with tiles := [(0, { unitTab := [(1, ukFork + 2 ^ 8 + 2 ^ 32)], flight := [farOperand] })] }

/-- An operand at a distance of 2,048 or more from its unit's base is taken from its flight and records TAG_RANGE (R131). -/
theorem operandArrive_outOfRange {t : TileId} {q i v : Nat} {f : Flight} {s : State} (on : On s)
    (tileOn : tileOff s t = false)
    (due : findIdxFrom (fun f => f.q == q && decide (f.due ≤ (tile s t).tclk)) 0 (tile s t).flight = some (i, f))
    (unit : consumer (tile s t) q = some v) (far : 2048 ≤ distance (unitRun (tile s t) v).base (opTag f.op))
    (plain : f.words = []) :
    exec (.operandArrive t q []) s = .next (tagFault t dfTagRange v q (opTag f.op)
      (setTile t { tile s t with flight := eraseAt i (tile s t).flight } s)) := by
  show Host.Outcome.next (powered _ s) = _
  rw [powered_on on]
  dsimp only
  rw [tileOn, if_neg (by decide), due]
  dsimp only
  have unit' : consumer { tile s t with flight := eraseAt i (tile s t).flight } q = some v := unit
  rw [plain, List.isEmpty_nil, if_pos rfl, deliver, tile_setTile_same, unit', if_pos ⟨rfl, far⟩]
  rfl

/-- Refutes O23: the fault is recorded, and tile 0, which is not ready, stays in IDLE. -/
theorem not_tagMatcherFires : ¬ Obligations.TagMatcherFires := by
  unfold Obligations.TagMatcherFires
  rintro ⟨-, -, -, tagRange, -, -⟩
  have due : findIdxFrom (fun f => f.q == 1 && decide (f.due ≤ (tile unreadyArrival 0).tclk)) 0
      (tile unreadyArrival 0).flight = some (0, farOperand) := by decide
  have unit : consumer (tile unreadyArrival 0) 1 = some 1 := by decide
  have far : 2048 ≤ distance (unitRun (tile unreadyArrival 0) 1).base (opTag farOperand.op) := by decide
  obtain ⟨u, hu, halts, -⟩ := tagRange 0 1 0 1 farOperand unreadyArrival rfl unready_on due unit far unready_noFault rfl
  have faults := operandArrive_outOfRange (t := 0) (s := unreadyArrival) rfl unready_on due unit far rfl
  have idle : NotReady 0 (setTile 0 { tile unreadyArrival 0 with flight := eraseAt 0 (tile unreadyArrival 0).flight }
      unreadyArrival) := ⟨unready_notReady.idle, unready_notReady.microcode⟩
  rw [faults] at hu
  injection hu with same
  rw [← same] at halts
  exact absurd ((tagFault_notReady idle _ _ _ _).symm.trans halts) (by decide)

end Sys2Proof.Machine
end

section
/-! The recheck of a cycle, and the statement on deadlock detection, which fails in its clause on DEADLOCK: a tile that started
the search and is not ready stays in IDLE (R122, R146-R148, R151, R152). -/

namespace Sys2Proof.Machine

open Sys2Proof

/-! ### The recheck of a cycle (R148) -/

/-- The cycle that a detector has claimed is counted, and its search is over (R148, R152). -/
def cycleCounted (f : Nat) (s : State) : State := satAdd (fldDldStat f) FldDldStat.cycles 1 (setSearch f none s)

/-- A counted cycle that still stands: the queue selected is spilled, or a DEADLOCK fault is recorded (R149, R151). -/
def cycleResolved (f : Nat) (se : Search) (s : State) : State :=
  match selectQueue s se.cycle with
  | none => deadlockFault f se.origin ((outWaiters s se.origin).headD 0) 0xFF true s
  | some (t, q) =>
    let u := (consumer (tile s t) q).getD 0
    let k := (queueRun (tile s t) q).items.length
    if bits s.req.dfCtrl 11 8 ≠ 0 ∧ bits s.req.dfCtrl 11 8 ≤ s.req.spills then deadlockFault f t u q false s
    else if (spillPlaces (tile s t) false).length + k ≤ spillRoom s t then openSpill f t q se.cycle.length false s
    else if bit1 s.req.dfCtrl 10 ∧ (spillPlaces (tile s t) true).length + k ≤ 65536 then
      openSpill f t q se.cycle.length true s
    else deadlockFault f t u q true s

/-- The recheck of a cycle that still stands, once every field asked has answered (R148). -/
theorem exec_deadlockRecheck {f : FieldId} {se : Search} {s : State} (on : On s)
    (search : tget (fun _ => none) s.net.searches f.val = some se) (closed : se.cycle ≠ [])
    (free : detectorsHeld s = false) (answered : ∀ g ∈ otherFields s f se.cycle, g ∈ se.again)
    (stands : se.cycle.map (memberMark s) = se.marks) :
    exec (.deadlockRecheck f) s = .next (cycleResolved f se (cycleCounted f s)) := by
  have all : (otherFields s f se.cycle).all se.again.contains = true := by simpa using answered
  have found : se.cycle.isEmpty = false := by simpa using closed
  have same : (se.cycle.map (memberMark (cycleCounted f s)) != se.marks) = false := bne_eq_false_iff_eq.mpr stands
  show Host.Outcome.next (powered _ s) = _
  rw [powered_on on]
  dsimp only
  rw [search]
  dsimp only
  rw [free, all, found, if_neg (by decide)]
  exact congrArg _ ((if_neg ((Bool.not_eq_true _).mpr same)).trans rfl)

theorem cycleResolved_unselected {f : Nat} {se : Search} {s : State} (h : selectQueue s se.cycle = none) :
    cycleResolved f se s = deadlockFault f se.origin ((outWaiters s se.origin).headD 0) 0xFF true s := by
  rw [cycleResolved, h]

theorem cycleResolved_am {f t q : Nat} {se : Search} {s : State} (h : selectQueue s se.cycle = some (t, q))
    (limit : bits s.req.dfCtrl 11 8 = 0 ∨ s.req.spills < bits s.req.dfCtrl 11 8)
    (room : (spillPlaces (tile s t) false).length + (queueRun (tile s t) q).items.length ≤ spillRoom s t) :
    cycleResolved f se s = openSpill f t q se.cycle.length false s := by
  have below : ¬ (bits s.req.dfCtrl 11 8 ≠ 0 ∧ bits s.req.dfCtrl 11 8 ≤ s.req.spills) := by omega
  rw [cycleResolved, h]
  dsimp only
  rw [if_neg below, if_pos room]

/-! ### A deadlock that is not resolved -/

theorem NotReady.satAddDld {t : Nat} {s : State} (h : NotReady t s) (f : FieldId) (g : Fld) (n : Nat) :
    NotReady t (satAdd (fldDldStat f) g n s) :=
  h.upd (by simp only [tilStat, fldDldStat]; omega) (by simp only [tilMcVer, fldDldStat]; omega)
    (by simp only [pwrState, fldDldStat]; omega) _ _

theorem NotReady.cycleCounted {t : Nat} {s : State} (h : NotReady t s) {f : FieldId} : NotReady t (cycleCounted f s) :=
  have searched : NotReady t (setSearch f none s) := ⟨h.idle, h.microcode⟩
  searched.satAddDld f _ _

theorem deadlockFault_notReady {t : Nat} {s : State} (h : NotReady t s) (f : FieldId) (u q : Nat) (unresolved : Bool) :
    tileSt (deadlockFault f t u q unresolved s) t = tsIdle := by
  cases unresolved with
  | false => exact tagFault_notReady h _ _ _ _
  | true => exact tagFault_notReady (h.satAddDld f _ _) _ _ _ _

/-- A search of field 0 that tile 0 has started; its cycle names no queue, as 768 is no tile's number. -/
def closedSearch : Search := { origin := 0, answered := [], cycle := [(0, 1, 768, 0)], marks := [0] }

/-- Tile 0, which is not ready, is the origin of that search. -/
def unreadySearch : State := { unready with net := { searches := [(0, some closedSearch)] } }

/-- Refutes O24: the deadlock is recorded, and tile 0, which is not ready, stays in IDLE. -/
theorem not_deadlockDetection : ¬ Obligations.DeadlockDetection := by
  unfold Obligations.DeadlockDetection
  rintro ⟨-, -, -, -, unresolved⟩
  have search : tget (fun _ => none) unreadySearch.net.searches 0 = some closedSearch := rfl
  have answered : ∀ g ∈ otherFields unreadySearch 0 closedSearch.cycle, g ∈ closedSearch.again := by decide
  have free : detectorsHeld unreadySearch = false := by decide
  have unselected : selectQueue unreadySearch closedSearch.cycle = none := by decide
  obtain ⟨u, hu, halts, -⟩ := unresolved 0 closedSearch unreadySearch rfl search (by decide) free answered (by decide)
    unselected unready_on unready_noFault
  have counted : selectQueue (cycleCounted (0 : FieldId) unreadySearch) closedSearch.cycle = none := unselected
  rw [exec_deadlockRecheck (f := 0) (s := unreadySearch) rfl search (by decide) free answered (by decide),
    cycleResolved_unselected counted] at hu
  injection hu with same
  rw [← same] at halts
  have idle : NotReady 0 unreadySearch := ⟨unready_notReady.idle, unready_notReady.microcode⟩
  exact absurd ((deadlockFault_notReady idle.cycleCounted _ _ _ _).symm.trans halts) (by decide)

end Sys2Proof.Machine
end

section
/-! What a spill does to a tile's AM: its entries, where they stand, and the operands written to them (R149). -/

namespace Sys2Proof.Machine

open Sys2Proof

/-! ### Entries of a spill region (R149) -/

theorem freePlaces_nodup (used : List Nat) (n : Nat) : (freePlaces used n).Nodup :=
  (List.nodup_range.filter _).sublist (List.take_sublist _ _)

/-- Enough entries are free: the numbers below a bound are in use or free, and those in use are at most as many as are
listed. -/
theorem length_freePlaces (used : List Nat) (n : Nat) : (freePlaces used n).length = n := by
  have covered : List.range (used.length + n) ⊆
      used ++ (List.range (used.length + n)).filter fun i => !used.contains i := fun i hi => by
    by_cases inUse : i ∈ used
    · exact List.mem_append_left _ inUse
    · exact List.mem_append_right _ (List.mem_filter.mpr ⟨hi, by simpa using inUse⟩)
  have enough := List.nodup_range.length_le_of_subset covered
  rw [List.length_range, List.length_append] at enough
  rw [freePlaces, List.length_take]
  omega

theorem insertByTag_perm (base : Nat) (o : SpillRef) : ∀ l : List SpillRef, (insertByTag base o l).Perm (o :: l)
  | [] => .refl _
  | a :: r => by
    rw [insertByTag]
    split
    · exact .refl _
    · exact ((insertByTag_perm base o r).cons a).trans (.swap o a r)

/-- Inserting entries one after another loses none and adds none. -/
theorem foldl_insertByTag_perm (base : Nat) : ∀ (new : List (SpillRef × Nat)) (l : List SpillRef),
    (new.foldl (fun l i => insertByTag base i.1 l) l).Perm (new.map (·.1) ++ l)
  | [], _ => .refl _
  | i :: new, l => by
    rw [List.foldl_cons, List.map_cons, List.cons_append]
    exact ((foldl_insertByTag_perm base new _).trans ((insertByTag_perm base i.1 l).append_left _)).trans List.perm_middle

/-! ### Writes to AM (R149) -/

theorem memNat_memWrite_same (a v : Nat) (x : TileState) :
    memNat (memWrite memAm a (toBytes 16 v) x) memAm a 16 = v % 2 ^ 128 := by
  have whole := memRead_memWrite_inside memAm a (toBytes 16 v) x (i := 0) (n := 16) (by simp)
  rw [Nat.add_zero, List.drop_zero, List.take_of_length_le (by simp)] at whole
  rw [memNat, whole, fromBytes_toBytes, show 256 ^ 16 = 2 ^ 128 from rfl]

theorem memNat_memWrite_apart {a b : Nat} (h : b + 16 ≤ a ∨ a + 16 ≤ b) (v : Nat) (x : TileState) :
    memNat (memWrite memAm a (toBytes 16 v) x) memAm b 16 = memNat x memAm b 16 := by
  rw [memNat, memRead_memWrite_outside (by decide) (by decide) (.inr (by rwa [length_toBytes])), memNat]

theorem memWrite_am_queues (a : Nat) (bs : List Byte) (x : TileState) : (memWrite memAm a bs x).queues = x.queues := by
  unfold memWrite
  dsimp only
  split <;> rfl

/-! ### Where a tile's AM region stands -/

theorem tileRec_congr {s u : State} (h : u.hbm = s.hbm) (base t : Nat) : tileRec u base t = tileRec s base t := by
  have entry : sectEntry u base = sectEntry s base := by
    funext i
    rw [sectEntry, sectEntry, imgHeader_congr h, imgNat_congr h]
  simp only [tileRec, record, sectionOf, sections, imgNat_congr h, imgHeader_congr h, entry]

/-- The slot of the active season, and where it stands, are read off registers below the fields' pages. -/
theorem activeSlot_congr {s u : State} (regs : ∀ o, o < 0x20000 → rd u o = rd s o) : activeSlot u = activeSlot s := by
  refine find?_eq_of_forall_mem fun i hi => ?_
  have lt : supSeasonStat i < 0x20000 := by
    have := List.mem_range.mp hi
    simp only [supSeasonStat]
    omega
  rw [slotState, slotState, get, get, regs _ lt]

theorem slotBase_congr {s u : State} (regs : ∀ o, o < 0x20000 → rd u o = rd s o) (i : Nat) : slotBase u i = slotBase s i := by
  have retired : retiredCount u = retiredCount s := by
    rw [retiredCount, retiredCount, get, get, regs hbmMapStat (by unfold hbmMapStat; omega)]
  have whole : reservedBase u = reservedBase s := by
    unfold reservedBase installed
    rw [retired]
  unfold slotBase
  rw [whole]

theorem spillStart_congr {s u : State} (regs : ∀ o, o < 0x20000 → rd u o = rd s o) (hbm : u.hbm = s.hbm) (t : Nat) :
    spillStart u t = spillStart s t := by
  simp only [spillStart, activeSlot_congr regs, slotBase_congr regs, tileRec_congr hbm]

theorem spillRoom_congr {s u : State} (regs : ∀ o, o < 0x20000 → rd u o = rd s o) (hbm : u.hbm = s.hbm) (t : Nat) :
    spillRoom u t = spillRoom s t := by
  simp only [spillRoom, activeSlot_congr regs, slotBase_congr regs, tileRec_congr hbm]

theorem QueuesKept.spillStart {t : Nat} {s u : State} (h : QueuesKept t s u) (v : Nat) : spillStart u v = spillStart s v :=
  spillStart_congr (fun o _ => by rw [rd, h.regs, ← rd]) (by rw [h.same]) v

/-! ### Writing the operands of a spill (R149) -/

theorem spillWrite_am {t : Nat} {r : SpillRef} (am : r.hbm = false) (op : Nat) (s : State) :
    spillWrite t r op s = updTile t (memWrite memAm (spillStart s t + 16 * r.place) (toBytes 16 op)) s := by
  rw [spillWrite, am, if_neg (by decide)]

theorem spillWrite_kept {t : Nat} {r : SpillRef} (am : r.hbm = false) (op : Nat) (s : State) :
    QueuesKept t s (spillWrite t r op s) := by
  rw [spillWrite_am am]
  exact updTile_queuesKept t (memWrite_am_queues _ _ _)

theorem foldl_spillWrite_kept {t : Nat} {new : List (SpillRef × Nat)} (am : ∀ i ∈ new, i.1.hbm = false) (s : State) :
    QueuesKept t s (new.foldl (fun s i => spillWrite t i.1 i.2 s) s) :=
  foldl_related (.refl t) .trans new (fun i hi s => spillWrite_kept (am i hi) i.2 s) s

/-- An entry that no operand is written to is as it was. -/
theorem memNat_foldl_spillWrite_apart {t place : Nat} : ∀ {new : List (SpillRef × Nat)} (s : State),
    (∀ i ∈ new, i.1.hbm = false) → (∀ i ∈ new, i.1.place ≠ place) →
    memNat (tile (new.foldl (fun s i => spillWrite t i.1 i.2 s) s) t) memAm (spillStart s t + 16 * place) 16 =
      memNat (tile s t) memAm (spillStart s t + 16 * place) 16
  | [], _, _, _ => rfl
  | i :: new, s, am, apart => by
    obtain ⟨amI, amNew⟩ := List.forall_mem_cons.mp am
    obtain ⟨apartI, apartNew⟩ := List.forall_mem_cons.mp apart
    have rest := memNat_foldl_spillWrite_apart (t := t) (spillWrite t i.1 i.2 s) amNew apartNew
    rw [(spillWrite_kept amI i.2 s).spillStart] at rest
    rw [List.foldl_cons, rest, spillWrite_am amI, tile_updTile_same, memNat_memWrite_apart (by omega)]

/-- Each operand stands in its entry, the entries being different ones. -/
theorem memNat_foldl_spillWrite {t : Nat} {i : SpillRef × Nat} {new : List (SpillRef × Nat)} {s : State}
    (am : ∀ i ∈ new, i.1.hbm = false) (nodup : (new.map (·.1.place)).Nodup) (mem : i ∈ new) :
    memNat (tile (new.foldl (fun s i => spillWrite t i.1 i.2 s) s) t) memAm (spillStart s t + 16 * i.1.place) 16 =
      i.2 % 2 ^ 128 := by
  induction new generalizing s with
  | nil => exact absurd mem List.not_mem_nil
  | cons j new ih =>
    obtain ⟨amJ, amNew⟩ := List.forall_mem_cons.mp am
    obtain ⟨fresh, nodupNew⟩ := List.nodup_cons.mp nodup
    have start := (spillWrite_kept (t := t) amJ j.2 s).spillStart t
    rw [List.foldl_cons, ← start]
    rcases List.mem_cons.mp mem with rfl | later
    · have apart : ∀ k ∈ new, k.1.place ≠ i.1.place := fun k hk same =>
        fresh (List.mem_map.mpr ⟨k, hk, same⟩)
      rw [memNat_foldl_spillWrite_apart _ amNew apart, start, spillWrite_am amJ, tile_updTile_same, memNat_memWrite_same]
    · exact ih amNew nodupNew later

end Sys2Proof.Machine
end

section
/-! The statement on spills: one that opens, one that closes, and an operand that returns (R149-R152, R154, R178). -/

namespace Sys2Proof.Machine

open Sys2Proof

/-! ### Opening a spill to AM (R149, R152, R154) -/

/-- The operands of a queue, each with its entry of the tile's AM region. -/
def spillMoves (x : TileState) (q : Nat) : List (SpillRef × Nat) :=
  ((queueRun x q).items.zip (freePlaces (spillPlaces x false) (queueRun x q).items.length)).map fun i =>
    ({ tag := opTag i.1.op, idx := opIdx i.1.op, place := i.2, hbm := false }, i.1.op)

/-- A queue whose operands are in spill. -/
def queueSpilled (x : TileState) (q : Nat) : QueueRun :=
  { queueRun x q with
    items := [], reserve := true, opening := true
    spilled := (spillMoves x q).foldl (fun l i =>
      insertByTag (unitRun x ((consumer x q).getD 0)).base i.1 l) (queueRun x q).spilled }

/-- A queue's operands are written to the region, before the spill is reported. -/
def spillStored (t q : Nat) (s : State) : State :=
  let w := (spillMoves (tile s t) q).foldl (fun s i => spillWrite t i.1 i.2 s) (setQueue t q (queueSpilled (tile s t) q) s)
  { w with req := { w.req with spills := w.req.spills + 1, spillOpen := (t, q) :: w.req.spillOpen } }

/-- The counters of the queue whose spill opens (R154). -/
def spillCounted (t q k : Nat) (s : State) : State :=
  if counting s t then satAdd (queueCnt t q 1) ⟨48, 16⟩ 1 (satAdd (queueCnt t q 1) ⟨16, 32⟩ k s) else s

/-- The record of the spill that opened last (R152). -/
def spillRecorded (f t q n k : Nat) (s : State) : State :=
  upd (fldDldLast f) FldDldLast.length (min 255 n) (upd (fldDldLast f) FldDldLast.hbm 0
    (upd (fldDldLast f) FldDldLast.count k (upd (fldDldLast f) FldDldLast.queue q (upd (fldDldLast f) FldDldLast.tile t s))))

/-- A spill to AM of `k` operands, for a cycle of `n` members, is counted, recorded and logged. -/
def spillNoted (f t q n k : Nat) (s : State) : State :=
  logEvent ⟨sevNotice, kState, bFld, epField f, Config.logCode 152 0, t, Config.logDetail 152 0⟩
    (spillRecorded f t q n k (satAdd (fldDldStat f) FldDldStat.spillAm 1 (spillCounted t q k s)))

theorem openSpill_am (f t q n : Nat) (s : State) :
    openSpill f t q n false s = spillNoted f t q n (queueRun (tile s t) q).items.length (spillStored t q s) := rfl

/-- Each item has an entry. -/
theorem map_fst_zip_freePlaces (used : List Nat) (l : List QItem) : (l.zip (freePlaces used l.length)).map Prod.fst = l :=
  List.map_fst_zip (Nat.le_of_eq (length_freePlaces used l.length).symm)

theorem map_ref_spillMoves (x : TileState) (q : Nat) : (spillMoves x q).map (fun i => (i.1.tag, i.1.idx)) =
    (queueRun x q).items.map fun i => (opTag i.op, opIdx i.op) := by
  have items := map_fst_zip_freePlaces (spillPlaces x false) (queueRun x q).items
  have refs := congrArg (List.map fun i : QItem => (opTag i.op, opIdx i.op)) items
  rw [List.map_map] at refs
  rw [spillMoves, List.map_map]
  exact refs

theorem map_place_spillMoves (x : TileState) (q : Nat) : (spillMoves x q).map (·.1.place) =
    freePlaces (spillPlaces x false) (queueRun x q).items.length := by
  rw [spillMoves, List.map_map]
  exact List.map_snd_zip (Nat.le_of_eq (length_freePlaces _ _))

theorem spillMoves_am {x : TileState} {q : Nat} {i : SpillRef × Nat} (h : i ∈ spillMoves x q) : i.1.hbm = false := by
  obtain ⟨_, _, rfl⟩ := List.mem_map.mp h
  rfl

/-- Every operand of the queue has an entry. -/
theorem exists_spillMove {x : TileState} {q : Nat} {i : QItem} (h : i ∈ (queueRun x q).items) :
    ∃ r, (r, i.op) ∈ spillMoves x q ∧ r.tag = opTag i.op := by
  rw [← map_fst_zip_freePlaces (spillPlaces x false) (queueRun x q).items] at h
  obtain ⟨p, hp, rfl⟩ := List.mem_map.mp h
  exact ⟨_, List.mem_map_of_mem hp, rfl⟩

theorem queueSpilled_perm (x : TileState) (q : Nat) :
    (queueSpilled x q).spilled.Perm ((spillMoves x q).map (·.1) ++ (queueRun x q).spilled) := foldl_insertByTag_perm _ _ _

/-! ### What the report of a spill changes -/

theorem spillCounted_same (t q k : Nat) (s : State) : spillCounted t q k s = { s with regs := (spillCounted t q k s).regs } := by
  unfold spillCounted
  split <;> rfl

theorem spillCounted_regs (t q k : Nat) (s : State) : RegsBut (· = queueCnt t q 1) s (spillCounted t q k s) :=
  .ite ((regsBut_satAdd (p := (· = queueCnt t q 1)) rfl _ _ _).trans (regsBut_satAdd (p := (· = queueCnt t q 1)) rfl _ _ _))
    (.refl _ _)

theorem spillNoted_same (f t q n k : Nat) (s : State) : spillNoted f t q n k s = { s with
    regs := (spillNoted f t q n k s).regs, log := (spillNoted f t q n k s).log, svc := (spillNoted f t q n k s).svc
    i3c := (spillNoted f t q n k s).i3c, host := (spillNoted f t q n k s).host } := by
  have counted := spillCounted_same t q k s
  have recorded : ∀ v : State, spillRecorded f t q n k (satAdd (fldDldStat f) FldDldStat.spillAm 1 v) =
    { v with regs := (spillRecorded f t q n k (satAdd (fldDldStat f) FldDldStat.spillAm 1 v)).regs } := fun _ => rfl
  unfold spillNoted
  generalize spillCounted t q k s = v at counted ⊢
  have same := recorded v
  generalize spillRecorded f t q n k (satAdd (fldDldStat f) FldDldStat.spillAm 1 v) = w at same ⊢
  obtain ⟨-, logged⟩ := logEvent_reports
    ⟨sevNotice, kState, bFld, epField f, Config.logCode 152 0, t, Config.logDetail 152 0⟩ w
  rw [logged, same, counted]

/-- The registers of the fields' pages are not those of reports. -/
theorem not_reportReg_fldDldStat (f : FieldId) : ¬ ReportReg (fldDldStat f) := by
  rintro (log | ⟨h, -, event | pba | pba⟩)
  · simp only [fldDldStat, ledLogStat] at log
    omega
  · simp only [fldDldStat, queEvent] at event
    omega
  · simp only [fldDldStat, msixPba] at pba
    omega
  · simp only [fldDldStat, msixPba] at pba
    omega

theorem spillNoted_count (f : FieldId) (t q n k : Nat) (s : State) :
    get (spillNoted f t q n k s) (fldDldStat f) FldDldStat.spillAm =
      min (2 ^ FldDldStat.spillAm.w - 1) (get s (fldDldStat f) FldDldStat.spillAm + 1) := by
  have last : fldDldStat f ≠ fldDldLast f := by
    simp only [fldDldStat, fldDldLast]
    omega
  have queue : fldDldStat f ≠ queueCnt t q 1 := by
    simp only [fldDldStat, queueCnt, stallQueue]
    omega
  rw [get, spillNoted, rd_logEvent (not_reportReg_fldDldStat f), ← get, spillRecorded]
  simp only [get_upd_ne last]
  rw [satAdd, get_upd_same _ _ _ _ (by decide), get, spillCounted_regs t q k s _ queue, ← get]
  exact Nat.mod_eq_of_lt (Nat.lt_of_le_of_lt (Nat.min_le_left _ _) (by decide))

/-! ### The spill opens (R149) -/

/-- A queue's operands stand in the tile's AM region, and the spill is open. -/
structure SpillStored (t q : Nat) (s u : State) : Prop where
  queue : queueRun (tile u t) q = queueSpilled (tile s t) q
  queues : ∀ p, p ≠ q → queueRun (tile u t) p = queueRun (tile s t) p
  others : OtherTiles t s u
  entries : ∀ i ∈ spillMoves (tile s t) q, memNat (tile u t) memAm (spillStart s t + 16 * i.1.place) 16 = i.2 % 2 ^ 128
  req : u.req = { s.req with spills := s.req.spills + 1, spillOpen := (t, q) :: s.req.spillOpen }
  same : u = { s with tiles := u.tiles, req := u.req }

theorem spillStored_stored (t q : Nat) (s : State) : SpillStored t q s (spillStored t q s) := by
  have am : ∀ i ∈ spillMoves (tile s t) q, i.1.hbm = false := fun i hi => spillMoves_am hi
  have places : ((spillMoves (tile s t) q).map (·.1.place)).Nodup := by
    rw [map_place_spillMoves]
    exact freePlaces_nodup _ _
  have start : spillStart (setQueue t q (queueSpilled (tile s t) q) s) t = spillStart s t :=
    spillStart_congr (fun o _ => rd_updTile t _ s o) (updTile_hbm t _ s) t
  have kept := foldl_spillWrite_kept (t := t) am (setQueue t q (queueSpilled (tile s t) q) s)
  have written : ∀ i ∈ spillMoves (tile s t) q, _ := fun i hi => memNat_foldl_spillWrite (t := t)
    (s := setQueue t q (queueSpilled (tile s t) q) s) am places hi
  rw [start] at written
  unfold spillStored
  dsimp only
  generalize List.foldl _ _ (spillMoves (tile s t) q) = w at kept written ⊢
  have opened : w.req = s.req := by
    rw [kept.same]
    rfl
  refine ⟨?_, fun p hp => ?_, fun v hv => ?_, written, ?_, ?_⟩
  · exact (kept.queueRun q).trans (queueRun_setQueue_same _ _ _ _)
  · exact (kept.queueRun p).trans (queueRun_setQueue_ne hp _ _ _)
  · exact (kept.others v hv).trans (tile_updTile_ne hv _ _)
  · dsimp only
    rw [opened]
  · dsimp only
    rw [kept.same]
    rfl

theorem cycleCounted_regs (f : FieldId) (s : State) (o : Nat) (h : o < 0x20000) : rd (cycleCounted f s) o = rd s o :=
  rd_upd_ne (by simp only [fldDldStat]; omega) _ _ _

theorem completes_deadlockRecheck_spill {f : FieldId} {se : Search} {t q : Nat} {s : State} (on : On s)
    (search : tget (fun _ => none) s.net.searches f.val = some se) (closed : se.cycle ≠ [])
    (free : detectorsHeld s = false) (stands : se.cycle.map (memberMark s) = se.marks)
    (selected : selectQueue s se.cycle = some (t, q)) (answered : ∀ g ∈ otherFields s f se.cycle, g ∈ se.again)
    (limit : bits s.req.dfCtrl 11 8 = 0 ∨ s.req.spills < bits s.req.dfCtrl 11 8)
    (room : (spillPlaces (tile s t) false).length + (queueRun (tile s t) q).items.length ≤ spillRoom s t) :
    Completes (.deadlockRecheck f) s fun u => (queueRun (tile u t) q).items = [] ∧
      ((queueRun (tile u t) q).spilled.map fun r => (r.tag, r.idx)).Perm
        (((queueRun (tile s t) q).items.map fun i => (opTag i.op, opIdx i.op)) ++
          (queueRun (tile s t) q).spilled.map fun r => (r.tag, r.idx)) ∧
      (∀ i ∈ (queueRun (tile s t) q).items, ∃ r ∈ (queueRun (tile u t) q).spilled, r.tag = opTag i.op ∧ r.hbm = false ∧
        memNat (tile u t) memAm (spillStart s t + 16 * r.place) 16 = i.op % 2 ^ 128) ∧
      (queueRun (tile u t) q).reserve = true ∧ (t, q) ∈ u.req.spillOpen ∧
      u.req.spills = s.req.spills + 1 ∧ (∀ q', q' ≠ q → queueRun (tile u t) q' = queueRun (tile s t) q') ∧
      (∀ t', t' ≠ t → tile u t' = tile s t') ∧
      get u (fldDldStat f) FldDldStat.spillAm = min (2 ^ FldDldStat.spillAm.w - 1) (get s (fldDldStat f) FldDldStat.spillAm + 1) ∧
      u.hbm = s.hbm := by
  have regs := cycleCounted_regs f s
  have hbm : (cycleCounted f s).hbm = s.hbm := rfl
  have tiles : ∀ v, tile (cycleCounted f s) v = tile s v := fun _ => rfl
  have room' := (spillRoom_congr regs hbm t).symm ▸ room
  have start := spillStart_congr regs hbm t
  have selected' : selectQueue (cycleCounted f s) se.cycle = some (t, q) := selected
  have done := exec_deadlockRecheck on search closed free answered stands
  rw [cycleResolved_am selected' limit room', openSpill_am, tiles] at done
  obtain ⟨queue, queues, others, entries, req, same⟩ := spillStored_stored t q (cycleCounted f s)
  rw [tiles] at queue entries
  rw [start] at entries
  have count := spillNoted_count f t q se.cycle.length (queueRun (tile s t) q).items.length (spillStored t q (cycleCounted f s))
  have noted := spillNoted_same f t q se.cycle.length (queueRun (tile s t) q).items.length (spillStored t q (cycleCounted f s))
  refine ⟨_, done, ?_⟩
  generalize spillNoted f t q se.cycle.length (queueRun (tile s t) q).items.length _ = u at count noted ⊢
  generalize spillStored t q (cycleCounted f s) = w at *
  have tilesU : ∀ v, tile u v = tile w v := fun v => by
    rw [noted]
    rfl
  have reqU : u.req = w.req := by rw [noted]
  have moved := queueSpilled_perm (tile s t) q
  rw [reqU, req, tilesU, queue]
  refine ⟨rfl, ?_, fun i hi => ?_, rfl, List.mem_cons_self, rfl, fun p hp => ?_, fun v hv => ?_, ?_, ?_⟩
  · have all := moved.map fun r : SpillRef => (r.tag, r.idx)
    rw [List.map_append, List.map_map] at all
    rw [← map_ref_spillMoves]
    exact all
  · obtain ⟨r, hr, tag⟩ := exists_spillMove hi
    have held : r ∈ (spillMoves (tile s t) q).map (·.1) := List.mem_map.mpr ⟨(r, i.op), hr, rfl⟩
    have am := spillMoves_am hr
    have entry := entries (r, i.op) hr
    exact ⟨r, moved.mem_iff.mpr (List.mem_append_left _ held), tag, am, entry⟩
  · exact (queues p hp).trans (congrArg (queueRun · p) (tiles t))
  · rw [tilesU, others v hv, tiles]
  · have before : get w (fldDldStat f) FldDldStat.spillAm = get s (fldDldStat f) FldDldStat.spillAm := by
      rw [same]
      exact get_upd_other _ _ _ _ (setSearch f none s) (by decide) (by decide)
    rw [count, before]
  · rw [noted, same, hbm]

/-! ### The spill closes (R149, R178) -/

/-- An engine without a descriptor sends nothing and ends nothing. -/
theorem pump_idle {t e : Nat} {s : State} (idle : (engine s t e).run = none) (n : Nat) : pump t e n s = s := by
  cases n with
  | zero => rfl
  | succ n => rw [pump, idle]

theorem checkEnd_idle {t e : Nat} {s : State} (idle : (engine s t e).run = none) : checkEnd t e s = s := by
  rw [checkEnd, idle]

/-- A queue whose spill has closed: announced, with an entry reserved while operands of it are held in spill. -/
def queueClosed (r : QueueRun) : QueueRun :=
  { r with opening := false, reserve := !r.spilled.isEmpty || r.items.any (·.drained) }

/-- Credit for the free entries of a queue, but for the reserved one. -/
def closedCredit (depth : Nat) (r : QueueRun) : Nat :=
  depth - b2n (!r.spilled.isEmpty || r.items.any (·.drained)) - r.items.length

/-- The state as a spill closes, before its feeder has its credit. -/
def spillClosing (t q : Nat) (s : State) : State :=
  upd (tilDmaStat t 3) TilDmaStat.suspended 0 (setQueue t q (queueClosed (queueRun (tile s t) q))
    { s with req := { s.req with spillOpen := s.req.spillOpen.filter (· != (t, q)) } })

/-- The feeder of a queue, if it has one, holds a number of credits. -/
def feederCredited (n : Nat) (fed : Option (Nat × Nat)) (s : State) : State :=
  match fed with
  | some (t', e) => setCredit t' e n s
  | none => s

/-- Credit is all that a tile gets. -/
structure Credited (s u : State) : Prop where
  queues : ∀ v, (tile u v).queues = (tile s v).queues
  engines : ∀ v, (tile u v).engines = (tile s v).engines
  same : u = { s with tiles := u.tiles }

theorem feederCredited_credited (n : Nat) (fed : Option (Nat × Nat)) (s : State) : Credited s (feederCredited n fed s) := by
  cases fed with
  | none => exact ⟨fun _ => rfl, fun _ => rfl, rfl⟩
  | some f =>
    have kept : ∀ {α : Type} (g : TileState → α), (∀ x c, g { x with credit := c } = g x) →
        ∀ v, g (tile (setCredit f.1 f.2 n s) v) = g (tile s v) := fun g hg v => by
      by_cases hv : v = f.1
      · rw [hv, setCredit, tile_updTile_same, hg]
      · rw [setCredit, tile_updTile_ne hv]
    exact ⟨kept (·.queues) fun _ _ => rfl, kept (·.engines) fun _ _ => rfl, rfl⟩

theorem edgeCredit_feederCredited {t e : Nat} (n : Nat) (s : State) :
    edgeCredit (tile (feederCredited n (some (t, e)) s) t) e = n := by
  rw [feederCredited, setCredit, tile_updTile_same]
  exact tget_tset_same _ _ _ _

/-- The state once a spill has closed, before engine 3 goes on. -/
def spillClosed (t q : Nat) (s : State) : State :=
  feederCredited (closedCredit (quDepth (queueDesc (tile s t) q)) (queueRun (tile s t) q))
    (feeder (spillClosing t q s) t q) (spillClosing t q s)

theorem exec_spillClose {t : TileId} {q : Nat} {s : State} (on : On s) (isOpen : (t.val, q) ∈ s.req.spillOpen) :
    exec (.spillClose t q) s = .next (checkEnd t 3 (pump t 3 1024 (spillClosed t q s))) := by
  have listed : (!s.req.spillOpen.contains (t.val, q)) = false := by simpa using isOpen
  show Host.Outcome.next (powered _ s) = _
  rw [powered_on on]
  dsimp only
  rw [if_neg (by rw [listed]; decide)]
  rfl

theorem completes_spillClose {t : TileId} {q : Nat} {s : State} (on : On s) (isOpen : (t.val, q) ∈ s.req.spillOpen)
    (idle : (engine s t 3).run = none) :
    Completes (.spillClose t q) s fun u => (t.val, q) ∉ u.req.spillOpen ∧ (queueRun (tile u t) q).opening = false ∧
      (queueRun (tile u t) q).items = (queueRun (tile s t) q).items ∧
      (queueRun (tile u t) q).spilled = (queueRun (tile s t) q).spilled ∧ get u (tilDmaStat t 3) TilDmaStat.suspended = 0 ∧
      (∀ s1 t' e, s1 = setQueue t q (queueRun (tile u t) q) s → feeder s1 t q = some (t', e) →
        edgeCredit (tile u t') e = quDepth (queueDesc (tile s t) q) -
          b2n (!(queueRun (tile s t) q).spilled.isEmpty || (queueRun (tile s t) q).items.any (·.drained)) -
          (queueRun (tile s t) q).items.length) ∧
      RegsBut (· = tilDmaStat t 3) s u ∧ u = { s with regs := u.regs, tiles := u.tiles, req := u.req } := by
  have credited := feederCredited_credited (closedCredit (quDepth (queueDesc (tile s t) q)) (queueRun (tile s t) q))
    (feeder (spillClosing t q s) t q) (spillClosing t q s)
  have queue : queueRun (tile (spillClosed t q s) t) q = queueClosed (queueRun (tile s t) q) := by
    rw [queueRun, spillClosed, credited.queues]
    exact queueRun_setQueue_same t q (queueClosed (queueRun (tile s t) q)) s
  have idle' : (engine (spillClosed t q s) t 3).run = none := by
    have closing : (tile (spillClosing t q s) t).engines = (tile s t).engines := by
      rw [spillClosing, tile_upd, setQueue, tile_updTile_same]
      rfl
    rw [engine, spillClosed, credited.engines, closing]
    exact idle
  have regs : ∀ o, rd (spillClosed t q s) o = rd (spillClosing t q s) o := fun o => by
    rw [spillClosed, credited.same]
    rfl
  refine ⟨spillClosed t q s, by rw [exec_spillClose on isOpen, pump_idle idle', checkEnd_idle idle'], ?_⟩
  dsimp only
  rw [queue]
  refine ⟨?_, rfl, rfl, rfl, ?_, fun s1 t' e hs fed => ?_, fun o ho => ?_, ?_⟩
  · rw [spillClosed, credited.same]
    exact fun listed => by simpa using (List.mem_filter.mp listed).2
  · rw [get, regs]
    exact get_upd_same _ _ _ _ (by decide)
  · have fed' : feeder (spillClosing t q s) t q = some (t', e) := by
      rw [hs] at fed
      exact fed
    rw [spillClosed, fed', edgeCredit_feederCredited, closedCredit]
  · exact (regs o).trans (rd_upd_ne ho _ _ _)
  · rw [spillClosed, credited.same]
    rfl

/-! ### The oldest spilled operand returns (R150) -/

theorem spillRead_am {t : Nat} {o : SpillRef} {s : State} (am : o.hbm = false) (errs : (tile s t).errs = []) :
    spillRead t o s = (true, memNat (tile s t) memAm (spillStart s t + 16 * o.place) 16, s) := by
  rw [spillRead, am, if_neg (by decide)]
  dsimp only
  rw [readRange_of_no_errs errs]

/-- A routine's instructions are counted; their number is a free value. -/
theorem microRetired_counted (t : Nat) (s : State) :
    RegsBut (· = tilCnt t TilCnt.tilSpinstrCnt) s (microRetired t s) ∧
      microRetired t s = { s with regs := (microRetired t s).regs, free := (microRetired t s).free } := by
  have same : (freeNat 64 s).2 = { s with free := (freeNat 64 s).2.free } := rfl
  refine ⟨fun o ho => ?_, ?_⟩
  · rw [microRetired, tileCount1_regs _ _ _ _ o ho]
    rfl
  · rw [microRetired, tileCount1_same, same]

theorem completes_spillDrain {t : TileId} {q : Nat} {o : SpillRef} {rest : List SpillRef} {s : State} (on : On s)
    (works : tileWorks s t = true) (closed : (queueRun (tile s t) q).opening = false)
    (free : ∀ i ∈ (queueRun (tile s t) q).items, i.drained = false) (held : (queueRun (tile s t) q).spilled = o :: rest)
    (am : o.hbm = false) (errs : (tile s t).errs = []) :
    Completes (.spillDrain t q) s fun u => (queueRun (tile u t) q).spilled = rest ∧
      (∃ e, (queueRun (tile u t) q).items = (queueRun (tile s t) q).items ++
        [{ op := memNat (tile s t) memAm (spillStart s t + 16 * o.place) 16, entry := e, at_ := (tile s t).tclk, drained := true }]) ∧
      (∀ q', q' ≠ q → queueRun (tile u t) q' = queueRun (tile s t) q') ∧ (∀ t', t' ≠ t.val → tile u t' = tile s t') ∧
      RegsBut (fun a => a = queueCnt t q 0 ∨ a = queueCnt t q 1 ∨ a = tilCnt t TilCnt.tilSpinstrCnt) s u ∧
      u = { s with regs := u.regs, tiles := u.tiles, free := u.free } := by
  have first : (queueRun (tile s t) q).items.any (·.drained) = false := by
    rw [List.any_eq_false]
    exact fun i hi => by rw [free i hi]; decide
  refine completes_powered on _ rfl ?_
  dsimp only
  rw [if_neg (by simp [works, closed, first]), held]
  dsimp only
  rw [spillRead_am am errs, if_pos rfl]
  dsimp only
  have entered := enqueue_enqueued t q (memNat (tile s t) memAm (spillStart s t + 16 * o.place) 16) true
    (setQueue t q { queueRun (tile s t) q with spilled := rest } s)
  generalize enqueue t q (memNat (tile s t) memAm (spillStart s t + 16 * o.place) 16) true _ = v at entered ⊢
  obtain ⟨counted, same⟩ := microRetired_counted t v
  have tiles : ∀ x, tile (microRetired t v) x = tile v x := fun x => by
    rw [same]
    rfl
  have clock : (tile (setQueue t q { queueRun (tile s t) q with spilled := rest } s) t).tclk = (tile s t).tclk := by
    rw [setQueue, tile_updTile_same]
  refine ⟨?_, ?_, fun p hp => ?_, fun x hx => ?_, fun a ha => ?_, ?_⟩
  · rw [tiles, entered.queue, queueJoined, queueRun_setQueue_same]
  · rw [tiles, entered.queue, queueJoined, queueRun_setQueue_same, clock]
    exact ⟨_, rfl⟩
  · rw [tiles, entered.queues p hp, queueRun_setQueue_ne hp]
  · rw [tiles, entered.others x hx, setQueue, tile_updTile_ne hx]
  · simp only [not_or] at ha
    obtain ⟨received, highest, retired⟩ := ha
    rw [counted a retired, entered.regs a (not_or.mpr ⟨received, highest⟩), setQueue, rd_updTile]
  · rw [same, entered.same, setQueue, updTile_same]

/-- Settles O25: the operands written to free entries are those of the queue, and a drain reads back what its entry holds. -/
theorem spillsAreLossless : Obligations.SpillsAreLossless := by
  unfold Obligations.SpillsAreLossless
  refine ⟨?_, ?_, ?_⟩
  · exact fun _ _ _ _ _ => completes_deadlockRecheck_spill
  · exact fun _ _ _ => completes_spillClose
  · exact fun _ _ _ _ _ => completes_spillDrain

end Sys2Proof.Machine
end

section
/-! The statement on packets at the device's endpoints, which fails in its clause on an operation of a tile whose CTL_TO has
passed: a tile that is IDLE and not ready records HORIZON and stays in IDLE (R114, R122, R145, R249). -/

namespace Sys2Proof.Machine

open Sys2Proof

/-! ### An operation of a tile that has waited CTL_TO (R249) -/

/-- The operation is no longer awaited. -/
def waitEnded (a : Await) (s : State) : State := { s with net := { s.net with awaits := s.net.awaits.erase a } }

/-- CTL_TIMEOUT ends the wait for the first operation of the source and TXID that is due. -/
theorem exec_ctlTimeout_due {src txid : Nat} {a : Await} {s : State} (on : On s)
    (due : s.net.awaits.find? (fun a => a.src == src && (a.txid == txid && decide (a.due ≤ s.devtime))) = some a) :
    exec (.ctlTimeout src txid) s = .next (awaitLost a s) := by
  show Host.Outcome.next (powered _ s) = _
  rw [powered_on on, due]

/-- A powered tile records HORIZON for its lost operation, with queue 0xFF. -/
theorem awaitLost_tile {a : Await} {s : State} (isTile : epIsTile a.src = true) (tileOn : tileOff s a.src = false) :
    ∃ tag, awaitLost a s = tagFault a.src dfHorizon 0 0xFF tag (waitEnded a s) := by
  have still : ¬ tileOff (waitEnded a s) a.src = true := by
    rw [show tileOff (waitEnded a s) a.src = tileOff s a.src from rfl, tileOn]
    decide
  exact ⟨_, (if_pos isTile).trans (if_neg still)⟩

/-- An operand that tile 0 has sent to tile 1 under TXID 3, whose answer is due. -/
def dueOperand : Await :=
  { src := 0, txid := 3, opc := ocOperand,
    pkt := { rdst := 1, src := 0, dst := 1, data := false, opc := ocOperand, len := 1, txid := 3, srcFdn := 0, dstFdn := 0,
             payload := [], ext := 0 } }

/-- Tile 0, which is not ready, awaits the answer to that operand. -/
def unreadyAwait : State := { unready with net := { awaits := [dueOperand] } }

/-- Refutes O34: the fault is recorded, and tile 0, which is not ready, stays in IDLE. -/
theorem not_packetsAtTheDevice : ¬ Obligations.PacketsAtTheDevice := by
  unfold Obligations.PacketsAtTheDevice
  rintro ⟨-, -, -, -, -, -, -, timeout, -⟩
  have due : unreadyAwait.net.awaits.find?
      (fun a => a.src == 0 && (a.txid == 3 && decide (a.due ≤ unreadyAwait.devtime))) = some dueOperand := by decide
  obtain ⟨records, -, -⟩ := timeout 0 3 dueOperand unreadyAwait rfl due
  obtain ⟨u, hu, halts, -⟩ := records (by decide) unready_on unready_noFault
  obtain ⟨tag, lost⟩ := awaitLost_tile (a := dueOperand) (s := unreadyAwait) (by decide) unready_on
  have idle : NotReady 0 (waitEnded dueOperand unreadyAwait) := ⟨unready_notReady.idle, unready_notReady.microcode⟩
  rw [exec_ctlTimeout_due rfl due, lost] at hu
  injection hu with same
  rw [← same] at halts
  exact absurd ((tagFault_notReady idle _ _ _ _).symm.trans halts) (by decide)

end Sys2Proof.Machine
end

section
/-! A field of a degraded device that has no STANDBY site: the next remap of one of its tiles takes a device reset, and HBM is
lost (R441, R443, R444, R453). -/

namespace Sys2Proof.Machine

open Sys2Proof

/-! ### A field without a STANDBY site in a degraded device -/

/-- No remap runs or waits, and the device, which has lost a field, has no STANDBY site in the live field of a tile. -/
structure LastSite (t : Nat) (s : State) : Prop where
  free : s.boot.remap = none
  idle : s.boot.remapQueue = []
  spent : sitesWith s.boot.map (tileField s t) stStandby = []
  live : fieldLive s (tileField s t) = true
  degraded : degraded s = true

/-- Whether a tile has a site to go to depends on bring-up and repair alone. -/
theorem LastSite.congr {t : Nat} {s u : State} (h : LastSite t s) (boot : u.boot = s.boot) : LastSite t u := by
  have map : u.boot.map = s.boot.map := by rw [boot]
  have field : tileField u t = tileField s t := by rw [tileField, siteOf, map, ← siteOf, ← tileField]
  have alive : ∀ f, fieldLive u f = fieldLive s f := fun f => by rw [fieldLive, map, ← fieldLive]
  refine ⟨boot ▸ h.free, boot ▸ h.idle, ?_, ?_, ?_⟩
  · rw [field, map]
    exact h.spent
  · rw [field, alive]
    exact h.live
  · rw [Machine.degraded, liveFields, funext alive, ← liveFields, ← Machine.degraded]
    exact h.degraded

/-- A device reset leaves nothing in HBM (R441). -/
theorem deviceReset_hbm (c : ResetCause) (s : State) : (deviceReset c s).hbm = [] := by
  unfold deviceReset deviceResetBy
  split <;> rfl

/-- The loss of a second field takes a device reset (R453). -/
theorem fieldLoss_hbm_of_degraded {f cause : Nat} {s : State} (live : fieldLive s f = true) (second : degraded s = true) :
    (fieldLoss f cause s).hbm = [] := by
  have reported : (logCoded sevFatal kFault bPwr 450 0 cause f (exemptFall (lifeCount 78 2 1 s))).boot = s.boot :=
    (logCoded_boot _ _ _ _ _ _ _ _).trans rfl
  have second' : degraded (logCoded sevFatal kFault bPwr 450 0 cause f (exemptFall (lifeCount 78 2 1 s))) = true := by
    unfold degraded liveFields fieldLive
    rw [reported]
    exact second
  unfold fieldLoss
  rw [live, if_neg (by decide)]
  dsimp only
  rw [if_pos second', deviceReset_hbm]

/-- A tile of a field without a STANDBY site finds no target (R444). -/
theorem chooseTargets_spent {t cause : Nat} {s : State} (h : sitesWith s.boot.map (tileField s t) stStandby = []) :
    chooseTargets s [(t, cause)] [] = none := by
  have nowhere : chooseTarget s (siteOf s t) [] = none := by
    rw [chooseTarget, show siteField (siteOf s t) = tileField s t from rfl, h]
    rfl
  rw [chooseTargets, nowhere]

/-- The requests for a remap that wait are these. -/
def remapWaits (l : List (Nat × Nat)) (s : State) : State := { s with boot := { s.boot with remapQueue := l } }

/-- A single request that waits is begun when no remap runs (R443). -/
theorem startRemap_single {t cause : Nat} {s : State} (free : s.boot.remap = none)
    (queue : s.boot.remapQueue = [(t, cause)]) :
    startRemap s = selectTargets (tileField s t) (get s supRemapStat SupRemapStat.lastId + 1) [(t, cause)]
      (remapWaits [] s) := by
  have mine : ([(t, cause)].filter fun e => tileField s e.1 == tileField s t).take 4 = [(t, cause)] := by simp
  have rest : ([(t, cause)].filter fun e => !([(t, cause)].contains e)) = [] := by simp
  unfold startRemap
  rw [free, queue]
  dsimp only
  rw [mine, rest]
  rfl

/-- A remap that is not known, when none runs or waits, is begun at once (R443). -/
theorem remapRequest_idle {t cause : Nat} {s : State} (free : s.boot.remap = none) (idle : s.boot.remapQueue = []) :
    remapRequest [t] cause s = startRemap (remapWaits [(t, cause)] s) := by
  have unknown : remapKnown s t = false := by
    rw [remapKnown, idle, free]
    rfl
  have new : (([t].filter fun t => !remapKnown s t).map fun t => (t, cause)) = [(t, cause)] := by simp [unknown]
  unfold remapRequest
  rw [new, free, idle]
  rfl

/-- The remap of a tile without a site to go to is the loss of its field, and here a device reset (R444, R453). -/
theorem remapRequest_hbm_of_lastSite {t cause : Nat} {s : State} (h : LastSite t s) :
    (remapRequest [t] cause s).hbm = [] := by
  obtain ⟨free, idle, spent, live, second⟩ := h
  have nowhere : chooseTargets (remapWaits [] (remapWaits [(t, cause)] s)) [(t, cause)] [] = none :=
    chooseTargets_spent spent
  rw [remapRequest_idle free idle, startRemap_single (s := remapWaits [(t, cause)] s) free rfl, selectTargets, nowhere]
  exact fieldLoss_hbm_of_degraded live second

/-- An uncorrectable word of WM asks for a remap of its tile (R334). -/
theorem integrityFault_hbm_of_lastSite {t : Nat} {s : State} (h : LastSite t s) : (integrityFault t ckWmUe s).hbm = [] := by
  have recorded : ∀ v : State, (recordFault t tfIntegrity ckWmUe v).boot = v.boot := fun v => by
    unfold recordFault stopTile
    dsimp only
    split <;> split <;> rfl
  have voided : ∀ (c : Prop) [Decidable c] (f : IntegState → IntegState), (if c then itg f s else s).boot = s.boot :=
    fun c _ f => by split <;> rfl
  unfold integrityFault integrityFaultAs checkRemap
  dsimp only
  rw [if_pos (by decide)]
  generalize hr : recordFault t tfIntegrity ckWmUe _ = r
  have boot : r.boot = s.boot := by rw [← hr, recorded, voided]
  have counted : countCheck ckWmUe r = r := rfl
  rw [counted]
  generalize hw : overrideCause _ = w
  have follows : Aftermath t r w := by
    subst hw
    exact ((((logEvent_reports _ _).aftermath t).trans (haltGraph_aftermath t _)).trans
      (batchFail_aftermath t _ _ _ _)).trans (req_aftermath t _ _)
  refine remapRequest_hbm_of_lastSite (h.congr ?_)
  rw [logInteg, logEvent_boot, ← boot, follows.same]
  rfl

/-- A read that meets an uncorrectable word and no correctable one is not delivered and records its check (R330). -/
theorem readRange_of_bad {t k u n : Nat} {s : State} (only : ∀ e ∈ (tile s t).errs, e.2 ≠ 1)
    (bad : rangeBad (tile s t) k u n = true) :
    readRange t k u n s = (false, integrityFault t (memCheck k) (intCount IntCnt.sramUe 1 s)) := by
  have correct : correctRange t k u n s = s := by
    have hits : ∀ p : Nat × Nat → Bool, (tile s t).errs.filter (fun e => p e && e.2 == 1) = [] := fun p => by
      rw [List.filter_eq_nil_iff]
      intro e he
      simp [only e he]
    unfold correctRange correctWords
    dsimp only
    simp only [← Bool.and_assoc, hits]
    rfl
  rw [readRange, correct]
  exact if_pos bad

end Sys2Proof.Machine
end

section
/-! The statement on DMA engines, which fails in its clause on a credit that is reclaimed: the packet that follows it may meet
an uncorrectable word of WM, and the remap that the check asks for may end in a device reset (R174, R334, R444, R453). -/

namespace Sys2Proof.Machine

open Sys2Proof

/-! ### Engines and what they send (R173, R174) -/

theorem engine_setEngine_same (t e : Nat) (x : DmaEngine) (s : State) : engine (setEngine t e x s) t e = x := by
  rw [engine, setEngine, tile_updTile_same]
  exact tget_tset_same _ _ _ _

theorem engine_setRun_run (t e : Nat) (r : DmaRun) (s : State) : (engine (setRun t e r s) t e).run = some r := by
  rw [setRun, engine_setEngine_same]

theorem setRun_hbm (t e : Nat) (r : DmaRun) (s : State) : (setRun t e r s).hbm = s.hbm := rfl

theorem errs_setEngine (t e : Nat) (x : DmaEngine) (s : State) : (tile (setEngine t e x s) t).errs = (tile s t).errs := by
  rw [setEngine, tile_updTile_same]

/-- An engine other than engine 3 that has a packet to send and a credit for it sends it. -/
theorem pump_sends {t e n : Nat} {r : DmaRun} {s : State} (run : (engine s t e).run = some r)
    (more : r.next < dmLength r.job.desc) (room : r.credits.length < 1024) (other : suspended s t e = false) :
    pump t e (n + 1) s = pump t e n (sendNext t e r s) := by
  rw [pump, run]
  exact if_pos ⟨more, room, by rw [other]; decide⟩

/-- An engine whose packets have all been sent, with a credit still in use, sends nothing and does not end its descriptor. -/
theorem checkEnd_pump_waits {t e n : Nat} {r : DmaRun} {s : State} (run : (engine s t e).run = some r)
    (all : dmLength r.job.desc ≤ r.next) (waits : r.credits ≠ []) : checkEnd t e (pump t e n s) = s := by
  have stops : pump t e n s = s := by
    cases n with
    | zero => rfl
    | succ n =>
      rw [pump, run]
      exact if_neg fun h => absurd h.1 (Nat.not_lt.mpr all)
  rw [stops, checkEnd, run]
  exact if_pos (.inr (by simpa using waits))

/-- A packet whose data cannot be read is not sent, and its segment fails (R157). -/
theorem sendNext_of_bad {t e : Nat} {r : DmaRun} {s v : State} (loc : dmSrc r.job.desc = dkLocal)
    (read : readRange t (dmLmem r.job.desc) (localUnit s t r.job r.next) (packetUnits r.job.desc r.next) s = (false, v)) :
    sendNext t e r s = setRun t e (segFail (r.next / segUnits r.job.desc) rrMemUe
      { r with next := r.next + packetUnits r.job.desc r.next }) v := by
  unfold sendNext
  dsimp only
  rw [if_pos loc, read]
  exact if_pos (.inl rfl)

/-- A segment that fails leaves what the transfer moves, its next unit, and its credits. -/
theorem segFail_job (i why : Nat) (r : DmaRun) : (segFail i why r).job = r.job := by
  unfold segFail
  split <;> rfl

theorem segFail_next (i why : Nat) (r : DmaRun) : (segFail i why r).next = r.next := by
  unfold segFail
  split <;> rfl

theorem segFail_credits (i why : Nat) (r : DmaRun) : (segFail i why r).credits = r.credits := by
  unfold segFail
  split <;> rfl

/-! ### A credit whose answer is overdue (R174) -/

/-- The credit is counted as reclaimed, its index is set aside, and the engine reports. -/
def creditReclaimed (t e : Nat) (c : DmaCredit) (s : State) : State :=
  let v := satAdd (tilDmaStat t e) TilDmaStat.reclaimed 1 (addR (ledCnt LedCnt.reclTimeout) 1 s)
  logCoded sevError kFault bTil 182 1 rrTimeout t
    (setEngine t e { engine v t e with stale := (engine v t e).stale ++ [c.idx] } v)

theorem exec_dmaTimeout_due {t : TileId} {e : EngineId} {i : Nat} {c : DmaCredit} {s : State} (on : On s)
    (used : findCredit s t e i = some c) (due : c.due ≤ s.devtime) :
    exec (.dmaTimeout t e i) s = .next (creditDone t e c (segFail c.seg rrTimeout) (creditReclaimed t e c s)) := by
  show Host.Outcome.next (powered _ s) = _
  rw [powered_on on, used]
  exact congrArg _ (if_neg (Nat.not_lt.mpr due))

/-- The transfer without a credit that has ended for a reason. -/
def creditFailed (c : DmaCredit) (why : Nat) (r : DmaRun) : DmaRun :=
  segFail c.seg why { r with credits := r.credits.filter fun k => k.idx != c.idx }

theorem creditDone_failed {t e why : Nat} {c : DmaCredit} {r : DmaRun} {s : State} (run : (engine s t e).run = some r) :
    creditDone t e c (segFail c.seg why) s =
      checkEnd t e (pump t e 1024 (setRun t e (creditFailed c why r) (subR (ledCnt LedCnt.dmaOutstanding) 1 s))) := by
  rw [creditDone, run]
  rfl

/-- Reclaiming a credit leaves the transfer, the errors of the tile's memories, and bring-up and repair. -/
theorem creditReclaimed_keeps (t e : Nat) (c : DmaCredit) (s : State) :
    (engine (creditReclaimed t e c s) t e).run = (engine s t e).run ∧
      (tile (creditReclaimed t e c s) t).errs = (tile s t).errs ∧ (creditReclaimed t e c s).boot = s.boot := by
  have logged : ∀ v : State, tile (logCoded sevError kFault bTil 182 1 rrTimeout t v) t = tile v t := fun v => by
    rw [tile, logCoded_tiles, ← tile]
  unfold creditReclaimed
  dsimp only
  refine ⟨?_, ?_, ?_⟩
  · rw [engine, logged, ← engine, engine_setEngine_same]
    rfl
  · rw [logged, errs_setEngine]
    rfl
  · rw [logCoded_boot]
    rfl

/-- Reclaiming a credit changes no register but the engine's status, RECL_TIMEOUT and those of reports. -/
theorem creditReclaimed_regs (t e : Nat) (c : DmaCredit) (s : State) :
    RegsBut (fun o => o = tilDmaStat t e ∨ o = ledCnt LedCnt.reclTimeout ∨ ReportReg o) s (creditReclaimed t e c s) := by
  intro o ho
  simp only [not_or] at ho
  obtain ⟨stat, count, report⟩ := ho
  unfold creditReclaimed
  dsimp only
  rw [(logCoded_reports _ _ _ _ _ _ _ _).1 o report, setEngine, rd_updTile, satAdd, rd_upd_ne stat, addR, rd_put_ne count]

/-! ### A packet that meets a bad word -/

/-- 12 units of WM to HBM in segments of 4 units. -/
def wmTransfer : DmaJob := { desc := 2 ^ 4 + 12 * 2 ^ 32, task := 0 }

/-- Two of its three packets have been sent; the credit of the first one is due at tick 50. -/
def firstCredit : DmaCredit := { idx := 0, seg := 0, pos := 0, units := 4, due := 50 }
def secondCredit : DmaCredit := { idx := 1, seg := 1, pos := 4, units := 4, due := 200 }
def wmRun : DmaRun := { job := wmTransfer, next := 8, credits := [firstCredit, secondCredit] }

/-- Field 11 is lost, and the STANDBY sites of field 0 have FAILED. -/
def spentMap : MapRecord := { live := 2 ^ 11 - 1, sites := (List.range 8).map fun i => (64 + i, 4) }

/-- At tick 100 engine 0 of tile 0 carries that transfer out, a word that its third packet reads is uncorrectable, and HBM holds
a byte that is not zero. -/
def spentDevice : State :=
  { State.reset with
    devtime := 100, power := { siteOn := [0] }, boot := { map := spentMap }, hbm := [(0, 1)]
    tiles := [(0, { engines := [(0, { run := some wmRun })], errs := [(64, 2)] })] }

theorem spentDevice_lastSite : LastSite 0 spentDevice := ⟨rfl, rfl, by decide, by decide, by decide⟩

theorem spentDevice_credit : findCredit spentDevice 0 0 0 = some firstCredit := by decide

/-- The task of the transfer begins at unit 0 of WM, as its entry is 0. -/
theorem spentDevice_task : taskEntry (creditReclaimed 0 0 firstCredit spentDevice) 0 0 = 0 := by
  have reset : ∀ o, o = tilTask 0 0 ∨ o = tilTask 0 0 + 8 →
      rd (creditReclaimed 0 0 firstCredit spentDevice) o = rd spentDevice o := fun o ho => by
    refine creditReclaimed_regs 0 0 firstCredit spentDevice o ?_
    rintro (stat | count | report)
    · rcases ho with rfl | rfl <;> exact absurd stat (by decide)
    · rcases ho with rfl | rfl <;> exact absurd count (by decide)
    · exact not_reportReg_of_page (by rcases ho with rfl | rfl <;> decide) report
  rw [taskEntry, rd128, reset _ (.inl rfl), reset _ (.inr rfl)]
  decide

/-- The third packet reads the uncorrectable word. -/
theorem wmRun_bad {s : State} (base : taskEntry s 0 0 = 0) (errs : (tile s 0).errs = [(64, 2)]) :
    rangeBad (tile s 0) (dmLmem wmTransfer.desc) (localUnit s 0 wmTransfer 8) (packetUnits wmTransfer.desc 8) = true := by
  have first : localUnit s 0 wmTransfer 8 = 8 := by
    rw [localUnit, show jobTask wmTransfer = 0 from rfl, base]
    decide
  rw [first, rangeBad, errs]
  decide

/-- The first credit is reclaimed, and the third packet's read takes the device reset: nothing is left in HBM. -/
theorem spentDevice_timeout_hbm : (creditDone 0 0 firstCredit (segFail firstCredit.seg rrTimeout)
    (creditReclaimed 0 0 firstCredit spentDevice)).hbm = [] := by
  obtain ⟨run, errs, boot⟩ := creditReclaimed_keeps 0 0 firstCredit spentDevice
  rw [creditDone_failed (run.trans rfl : _ = some wmRun)]
  generalize hw : setRun 0 0 (creditFailed firstCredit rrTimeout wmRun) _ = w
  have run' : (engine w 0 0).run = some (creditFailed firstCredit rrTimeout wmRun) := by rw [← hw, engine_setRun_run]
  have errs' : (tile w 0).errs = [(64, 2)] := by
    rw [← hw, setRun, errs_setEngine]
    exact errs
  have task : taskEntry w 0 0 = 0 := by
    rw [← hw]
    exact spentDevice_task
  have last : LastSite 0 w := spentDevice_lastSite.congr (by rw [← hw]; exact boot)
  obtain ⟨job, next, credits⟩ : (creditFailed firstCredit rrTimeout wmRun).job = wmTransfer ∧
      (creditFailed firstCredit rrTimeout wmRun).next = 8 ∧
      (creditFailed firstCredit rrTimeout wmRun).credits = [secondCredit] := by decide
  clear hw
  generalize creditFailed firstCredit rrTimeout wmRun = r at run' job next credits
  have read := readRange_of_bad (by rw [errs']; decide) (wmRun_bad task errs')
  have all : dmLength wmTransfer.desc ≤ 8 + packetUnits wmTransfer.desc 8 := by decide
  have check : memCheck (dmLmem wmTransfer.desc) = ckWmUe := by decide
  rw [← job, ← next] at read all
  rw [← job] at check
  rw [pump_sends (n := 1023) run' (by rw [job, next]; decide) (by rw [credits]; decide) rfl,
    sendNext_of_bad (by rw [job]; decide) read, checkEnd_pump_waits (engine_setRun_run _ _ _ _)
      (by rw [segFail_job, segFail_next]; exact all) (by rw [segFail_credits]; simp [credits]), check, setRun_hbm]
  exact integrityFault_hbm_of_lastSite (last.congr rfl)

/-- Refutes O31: after a credit of tile 0 is reclaimed, its engine's next packet meets an uncorrectable word of WM; no STANDBY
site is left, and the device reset loses HBM. -/
theorem not_dmaEngines : ¬ Obligations.DmaEngines := by
  unfold Obligations.DmaEngines
  rintro ⟨-, -, reclaims, -⟩
  obtain ⟨-, overdue⟩ := reclaims 0 0 0 wmRun firstCredit spentDevice rfl rfl spentDevice_credit (by decide)
  obtain ⟨u, hu, -, -, -, hbm⟩ := overdue (by decide)
  rw [exec_dmaTimeout_due rfl spentDevice_credit (by decide)] at hu
  injection hu with same
  rw [← same] at hbm
  exact absurd (spentDevice_timeout_hbm.symm.trans hbm) (by decide)

end Sys2Proof.Machine
end

section
/-! The statement on the commands of the season slots, which fails in its clause on STAGE: it speaks of the slots of every
number, and past the eight that exist "slot" 504 reads OWN_STAT, in which the write's settling closes a claim window that is
over (R195, R325, R326). -/

namespace Sys2Proof.Machine

open Sys2Proof

/-- STAGE writes no register but its slot's SUP_SEASON_STAT. -/
theorem stage_regs (i src : Nat) (s : State) : RegsBut (· = supSeasonStat i) s (stage i src s) := by
  have withdrawn : RegsBut (· = supSeasonStat i) s (withdraw i s) := .ite (fun _ _ => rfl) (.refl _ _)
  have field : ∀ f x t, RegsBut (· = supSeasonStat i) t (upd (supSeasonStat i) f x t) :=
    regsBut_upd (p := (· = supSeasonStat i)) rfl
  have image := (withdrawn.trans (field SupSeasonStat.detail 0 _)).trans (field SupSeasonStat.seasonId 0 _)
  have staging := (image.trans (field SupSeasonStat.result 0 _)).trans (field SupSeasonStat.state ssStaging _)
  exact .ite (fun o ho => staging o ho) (field _ _ s)

/-- A STAGE of the owner, with no command running and no season change, settles the ownership, writes SUP_SEASON_CMD and
stages the slot. -/
theorem exec_stage_atOnce {m : Master} {i : SlotId} {src : Nat} {s : State} (on : On s) (own : owner (settle s) = some m)
    (idle : stageRuns (settle s) = false) (undeferred : s.req.deferred = none) (settled : s.req.change = none)
    (fits : src < 2 ^ 34) : exec (.stage m i src) s = .next (stage i src
      (put supSeasonCmd (BitVec.ofNat 64 (seasonCmdMask (seasonCmdWord 1 i src))) (settle s))) := by
  show Host.Outcome.next (powered _ s) = _
  obtain ⟨op, slot, source⟩ := bits_seasonWord i.isLt (op := 1) (by decide) fits
  have word : seasonCmdWord 1 i src = i + 1 * 8 + src * 4096 :=
    congrArg (fun v => i.val + 1 * 8 + v * 4096) (Nat.mod_eq_of_lt fits)
  rw [powered_on on, asOwner_owner own, word]
  simp [seasonCmdWrite, idle, undeferred, settled, runSeasonCmd, op, slot, source]

/-- Past the eight season slots, the offset of SUP_SEASON_STAT runs into that of OWN_STAT. -/
theorem supSeasonStat_eq_ownStat : supSeasonStat 504 = ownStat := rfl

/-- After reset, HA owns the device under a lease that runs, and the claim window is still open whose span is over. -/
def windowOver : State :=
  { upd ownStat OwnStat.window 1 (upd ownStat OwnStat.owner 0 State.reset) with own := { expiry := 1 } }

/-- Refutes O18: HA stages slot 0; the claim window is closed before the write is judged, and "slot" 504, which reads
OWN_STAT, does not stay as it was. -/
theorem not_seasonCommands : ¬ Obligations.SeasonCommands := by
  unfold Obligations.SeasonCommands
  rintro ⟨stages, -⟩
  have own : owner (settle windowOver) = some .ha := by decide
  have idle : stageRuns (settle windowOver) = false := by decide
  obtain ⟨u, hu, -, -, others, -⟩ := stages .ha 0 0 windowOver rfl own idle rfl rfl (by decide) (.inl (by decide))
  have same := others 504 (by decide)
  rw [exec_stage_atOnce rfl own idle rfl rfl (by decide)] at hu
  injection hu with staged
  have kept : rd u ownStat = rd (settle windowOver) ownStat := by
    rw [← staged, stage_regs _ _ _ ownStat (by decide), rd_put_ne (by decide)]
  rw [slotState, slotState, supSeasonStat_eq_ownStat, get, get, kept] at same
  exact absurd same (by decide)

end Sys2Proof.Machine
end

section
/-! The statement on the completion entry, which fails for a request whose completion queue is none of the 64 of its head:
the QUE_CQ_STAT of HA's "queue" 65,216 is the QUE_SQ_CFG of queue 0 of HB, which is disabled when HB's link is down and no
request of HB is left (R317, R319, R321). -/

namespace Sys2Proof.Machine

open Sys2Proof

/-! ### The queues of a head whose link is down (R321) -/

/-- ENABLE of a queue that is disabled stays so when any queue is disabled. -/
theorem enable_upd_disabled {o : Nat} {s : State} (h : get s o QueSqCfg.enable = 0) (off : Nat) :
    get (upd off QueSqCfg.enable 0 s) o QueSqCfg.enable = 0 := by
  by_cases same : o = off
  · rw [same, get_upd_same _ _ _ _ (by decide), Nat.zero_mod]
  · rw [get_upd_ne same, h]

/-- Both queues of a number of a head are disabled. -/
def queuesDisabled (h : Nat) (s : State) (q : Nat) : State :=
  upd (queSqCfg h q) QueSqCfg.enable 0 (upd (queCqCfg h q) QueCqCfg.enable 0 s)

/-- The submission queues of a list are disabled by disabling the queues of that list. -/
theorem enable_foldl_queuesDisabled {h q : Nat} : ∀ {l : List Nat} (s : State),
    q ∈ l ∨ get s (queSqCfg h q) QueSqCfg.enable = 0 →
      get (l.foldl (queuesDisabled h) s) (queSqCfg h q) QueSqCfg.enable = 0
  | [], _, done => done.resolve_left List.not_mem_nil
  | p :: l, s, todo => by
    refine enable_foldl_queuesDisabled (queuesDisabled h s p) ?_
    by_cases same : q = p
    · refine .inr ?_
      rw [same, queuesDisabled, get_upd_same _ _ _ _ (by decide), Nat.zero_mod]
    · exact todo.imp (fun mem => (List.mem_cons.mp mem).resolve_left same) fun off =>
        enable_upd_disabled (enable_upd_disabled off _) _

theorem get_withHost (x : HostState) (s : State) (o : Nat) (f : Fld) : get { s with host := x } o f = get s o f := rfl

/-- A head whose link is down and of which no accepted request is left has its submission queues disabled. -/
theorem closeHead_disables {h q : Nat} {s : State} (down : s.host.closing.contains h = true)
    (done : (s.req.reqs.any fun r => r.accepted && r.head == h) = false) (hq : q < 64) :
    get (closeHead h s) (queSqCfg h q) QueSqCfg.enable = 0 := by
  rw [closeHead, down, done, if_pos (by decide), get_withHost]
  exact enable_foldl_queuesDisabled s (.inl (List.mem_range.mpr hq))

/-! ### Storing in HBM (R267) -/

/-- The second state differs from the first at most in what a store in HBM touches. -/
def HbmFrame (s u : State) : Prop := u = { s with hbm := u.hbm, hbmState := u.hbmState, free := u.free }

theorem HbmFrame.refl (s : State) : HbmFrame s s := rfl

theorem HbmFrame.trans {s t u : State} (h : HbmFrame s t) (k : HbmFrame t u) : HbmFrame s u := by
  unfold HbmFrame at *
  rw [k, h]

theorem HbmFrame.ite {c : Prop} [Decidable c] {s t u : State} (h : HbmFrame s t) (k : HbmFrame s u) :
    HbmFrame s (if c then t else u) := by
  split
  · exact h
  · exact k

theorem rewriteBurst_frame (s : State) (e : Nat × BurstErr) : HbmFrame s (rewriteBurst s e) :=
  .ite (.ite rfl rfl) rfl

theorem storeBlock_frame (a : Nat) (bs : List Byte) (s : State) : HbmFrame s (storeBlock a bs s) := by
  refine .ite (.refl s) (.trans ?_ (rfl : HbmFrame _ (hbmWrite a bs _)))
  exact foldl_related HbmFrame.refl HbmFrame.trans _ (fun e _ t => rewriteBurst_frame t e) s

theorem storeBlocks_frame : ∀ (n a : Nat) (bs : List Byte) (s : State), HbmFrame s (storeBlocks n a bs s)
  | 0, _, _, s => .refl s
  | n + 1, _, _, _ => (storeBlock_frame _ _ _).trans (storeBlocks_frame n _ _ _)

/-! ### Producing a completion (R319) -/

/-- A completion that is due, taken from those due and counted as produced. -/
def dueCounted (r : Request) (s : State) : State :=
  countProduced r { s with req := { s.req with due := s.req.due.filter (· != r.id) } }

theorem dueCounted_req (r : Request) (s : State) :
    (dueCounted r s).req = { s.req with due := s.req.due.filter (· != r.id) } := by
  rw [dueCounted, countProduced]
  split <;> rfl

theorem dueCounted_host (r : Request) (s : State) : (dueCounted r s).host = s.host := by
  rw [dueCounted, countProduced]
  split <;> rfl

/-- Counting a completion writes the ledger of its head, which no head page holds. -/
theorem rd_dueCounted {r : Request} (hr : r.head < 2) {o : Nat} (ho : 0x800000 ≤ o) (s : State) :
    rd (dueCounted r s) o = rd s o := by
  have cls : ledClass r ≤ LedReq.abandoned := by
    unfold ledClass
    split
    · decide
    · split <;> decide
  have off : ∀ i, i ≤ 8 → o ≠ ledReq r.head i := by
    unfold ledReq
    omega
  rw [dueCounted, countProduced]
  split
  · rw [subR, rd_put_ne (off _ (by decide)), addR, rd_put_ne (off _ (Nat.le_trans cls (by decide)))]
    rfl
  · rw [addR, rd_put_ne (off _ (Nat.le_trans cls (by decide)))]
    rfl

/-- A due completion whose ring has room, with none held before it, is written to its ring. -/
theorem produce_written {r : Request} {s : State} (hr : r.head < 2) (room : cqFull s r.head r.cq = false)
    (free : cqHeld s r.head r.cq = []) :
    produce r s = refreshReady (closeHead 1 (closeHead 0 (fencesDue (ringWrite r (dueCounted r s))))) := by
  have room' : cqFull (dueCounted r s) r.head r.cq = false := by
    rw [← room]
    have cfg : rd (dueCounted r s) (queCqCfg r.head r.cq) = rd s (queCqCfg r.head r.cq) :=
      rd_dueCounted hr (by unfold queCqCfg; omega) s
    have stat : rd (dueCounted r s) (queCqStat r.head r.cq) = rd s (queCqStat r.head r.cq) :=
      rd_dueCounted hr (by unfold queCqStat; omega) s
    simp only [cqFull, cqTail, cqSize, cqHeadOf, get, cfg, stat, dueCounted_req]
  have free' : cqHeld (dueCounted r s) r.head r.cq = [] := by rw [← free, cqHeld, dueCounted_req, cqHeld]
  rw [produce, ← dueCounted, room', free', List.isEmpty_nil, if_neg (by decide)]

@[simp] theorem hbmStore_req (a : Nat) (bs : List Byte) (s : State) : (hbmStore a bs s).req = s.req := by
  rw [hbmStore, storeBlocks_frame _ _ _ s]

@[simp] theorem hbmStore_host (a : Nat) (bs : List Byte) (s : State) : (hbmStore a bs s).host = s.host := by
  rw [hbmStore, storeBlocks_frame _ _ _ s]

theorem ringWrite_reqs (r : Request) (s : State) :
    (ringWrite r s).req.reqs = s.req.reqs.filter fun x => x.id != r.id := by
  rw [ringWrite]
  split <;> simp [setUnsignalled]

theorem ringWrite_closing (r : Request) (s : State) : (ringWrite r s).host.closing = s.host.closing := by
  rw [ringWrite]
  split <;> simp [setUnsignalled]

theorem fencesDue_of_no_reqs {s : State} (h : s.req.reqs = []) : fencesDue s = s := by simp [fencesDue, h]

theorem closeHead_of_open {h : Nat} {s : State} (up : s.host.closing.contains h = false) : closeHead h s = s := by
  rw [closeHead, up, Bool.false_and, if_neg (by decide)]

/-- The last completion of the device disables the queues of HB, whose link is down. -/
theorem produce_last_disables {r : Request} {s : State} (hr : r.head < 2) (room : cqFull s r.head r.cq = false)
    (free : cqHeld s r.head r.cq = []) (last : s.req.reqs = [r]) (down : s.host.closing = [1]) {q : Nat} (hq : q < 64) :
    get (produce r s) (queSqCfg 1 q) QueSqCfg.enable = 0 := by
  have gone : (ringWrite r (dueCounted r s)).req.reqs = [] := by rw [ringWrite_reqs, dueCounted_req, last]; simp
  have closing : (ringWrite r (dueCounted r s)).host.closing = [1] := by rw [ringWrite_closing, dueCounted_host, down]
  have open0 : closeHead 0 (ringWrite r (dueCounted r s)) = ringWrite r (dueCounted r s) :=
    closeHead_of_open (by rw [closing]; rfl)
  have disabled := closeHead_disables (h := 1) (s := ringWrite r (dueCounted r s)) (by rw [closing]; rfl)
    (by rw [gone]; rfl) hq
  rwa [produce_written hr room free, fencesDue_of_no_reqs gone, open0, refreshReady, get_mapReqs]

/-- COMPLETION_WRITE produces the one completion that is due. -/
theorem exec_completionWrite_onlyDue {id : Nat} {x : Request} {s : State} (on : On s) (idle : s.req.batch = none)
    (found : findReq s id = some x) (due : s.req.due = [id]) (unowed : owedOut s x = false) :
    exec (.completionWrite id) s = .next (produce x s) := by
  show Host.Outcome.next (powered _ s) = _
  have noBatch : finishBatch s = s := by rw [finishBatch, idle]
  rw [powered_on on]
  dsimp only
  rw [noBatch, found]
  dsimp only
  rw [unowed, if_neg (by decide), if_pos]
  rw [due, List.find?_singleton, found]
  simp

/-! ### The completion of a queue that no head has -/

/-- Past the 64 completion queues of HA, the offset of QUE_CQ_STAT runs into that of QUE_SQ_CFG of HB. -/
theorem queCqStat_eq_queSqCfg : queCqStat 0 65216 = queSqCfg 1 0 := rfl

/-- A request of HA that has succeeded, for "queue" 65,216. -/
def strayRequest : Request :=
  { id := 0, head := 0, sq := 0, desc := 1, sqHead := 0, cq := 65216, time := 0, status := some csSuccess }

/-- After reset, that request is the device's last and due, its ring of two entries is empty, and HB's link is down. -/
def strayCompletion : State :=
  { upd (queCqCfg 0 65216) QueCqCfg.sizeLog2 1 State.reset with
    req := { reqs := [strayRequest], due := [0] }, host := { closing := [1] } }

/-- Refutes O17: the tail that the completion advances to 1 is cleared when the queues of HB are disabled. -/
theorem not_completionEntryIsWritten : ¬ Obligations.CompletionEntryIsWritten := by
  unfold Obligations.CompletionEntryIsWritten
  intro written
  have room : cqFull strayCompletion strayRequest.head strayRequest.cq = false := by decide
  have found : findReq strayCompletion 0 = some strayRequest := rfl
  obtain ⟨u, hu, -, -, -, tail, -⟩ := written 0 _ strayRequest strayCompletion rfl rfl found (by decide) (by decide) room rfl
    rfl (by decide) rfl rfl
  rw [exec_completionWrite_onlyDue rfl rfl found rfl rfl] at hu
  injection hu with produced
  have disabled : get u (queSqCfg 1 0) QueSqCfg.enable = 0 := by
    rw [← produced]
    exact produce_last_disables (r := strayRequest) (by decide) room rfl rfl rfl (by decide)
  have advanced : get u (queSqCfg 1 0) QueCqStat.tail = 1 := tail.trans (by decide)
  have bit : 1 % 2 = 0 := by
    simp only [get, getF, bits, QueSqCfg.enable, QueCqStat.tail, Nat.shiftRight_zero] at disabled advanced
    omega
  exact absurd bit (by decide)

end Sys2Proof.Machine
end

section
/-! The statement on lattice channels, which fails in its clause on words that fail parity: a tile that is IDLE and not ready
records INTEGRITY and stays in IDLE (R114, R122, R223, R227, R333). -/

namespace Sys2Proof.Machine

open Sys2Proof

/-! ### A message with words that fail parity (R223, R227) -/

/-- A landing message with words that fail parity leaves the wire, and its bad words are counted. -/
theorem exec_landingReceive_bad {t : TileId} {ch n : Nat} {w : List LaneWord} {r ws : List (List LaneWord)}
    {flips : List (Nat × Nat)} {s : State} (on : On s) (tileOn : tileOff s t = false)
    (valid : chValid (chanEntry s t ch) = true) (receive : chReceive (chanEntry s t ch) = true)
    (mode : chMode (chanEntry s t ch) = 1) (wire : (chan s t ch).wire = w :: r)
    (words : n = messageWords (chanEntry s t ch) w) (whole : n ≤ r.length + 1)
    (arrived : ws = flipWords flips ((w :: r).take n)) (bad : ws.any wordBad = true) :
    exec (.landingReceive t ch flips) s = .next (latticeParity t (ws.filter wordBad).length
      (setChan t ch { chan s t ch with wire := (w :: r).drop n } s)) := by
  show Host.Outcome.next (powered _ s) = _
  have taken : takeWire t ch s =
      some ((w :: r).take n, setChan t ch { chan s t ch with wire := (w :: r).drop n } s) := by
    simp only [takeWire, wire, ← words, if_pos whole]
  have ready : ¬ (tileOff s t || !(chValid (chanEntry s t ch) && (chReceive (chanEntry s t ch) &&
      chMode (chanEntry s t ch) == 1))) = true := by
    simp [tileOn, valid, receive, mode]
  rw [powered_on on, receiveNext, if_neg ready, taken]
  dsimp only
  rw [← arrived, receiveWords, if_pos bad]

/-! ### LAT_PARITY on a tile that is not ready (R114, R122, R333) -/

theorem stopTile_integ_devtime (t : Nat) (s : State) : (stopTile t s).integ = s.integ ∧ (stopTile t s).devtime = s.devtime := by
  unfold stopTile
  dsimp only
  split <;> exact ⟨rfl, rfl⟩

/-- Recording a fault leaves the integrity state and the time. -/
theorem recordFault_integ_devtime (t code info : Nat) (s : State) :
    (recordFault t code info s).integ = s.integ ∧ (recordFault t code info s).devtime = s.devtime := by
  have stopped := stopTile_integ_devtime t s
  unfold recordFault
  dsimp only
  generalize stopTile t s = v at stopped ⊢
  split <;> exact stopped

theorem recordFault_notReady {t : Nat} {s : State} (h : NotReady t s) (code info : Nat) :
    NotReady t (recordFault t code info s) := by
  have field : ∀ {v : State}, NotReady t v → ∀ f x, NotReady t (upd (tilFault t) f x v) := fun k =>
    k.upd (tilFault_ne_tilStat t).symm (by simp only [tilMcVer, tilFault]; omega) (pwrState_ne_tilFault t)
  have stopped := stopTile_notReady h
  unfold recordFault
  dsimp only
  split
  · exact field stopped _ _
  · exact field (field (field stopped _ _) _ _) _ _

theorem countCheck_latParity_aftermath (t : Nat) (s : State) : Aftermath t s (countCheck ckLatParity s) := by
  have counted : countCheck ckLatParity s = addR (intCnt IntCnt.parity) 1 s := rfl
  rw [counted]
  refine put_aftermath ?_ (by decide) _ s
  simp only [InPage, intCnt, IntCnt.parity]
  omega

/-- LAT_PARITY outside TEST is recorded, logged, and fails the batch, before it is noted against the tile. -/
theorem integrityFault_latParity_eq {t : Nat} {s : State} (noTest : tileSt s t ≠ tsTest) :
    ∃ w, Aftermath t (recordFault t tfIntegrity ckLatParity s) w ∧
      integrityFault t ckLatParity s = noteStaying t ckLatParity w := by
  have outside : ¬ (tileSt s t = tsTest ∧ ckLatParity ≠ ckKatFail) := fun h => noTest h.1
  unfold integrityFault integrityFaultAs
  dsimp only
  rw [if_neg outside, if_neg (by decide), if_neg (by decide)]
  refine ⟨_, ?_, rfl⟩
  exact ((((countCheck_latParity_aftermath t _).trans ((logEvent_reports _ _).aftermath t)).trans
    (haltGraph_aftermath t _)).trans (batchFail_aftermath t _ _ _ _)).trans (req_aftermath t _ _)

/-- A tile that is not ready records LAT_PARITY, short of the third fault in an hour, and stays in IDLE. -/
theorem latticeParity_notReady {t : Nat} {s : State} (h : NotReady t s)
    (few : ((tget (fun _ => []) s.integ.faults t).filter fun x =>
      decide (s.devtime < x + 3600 * secTicks)).length < 2) (n : Nat) :
    tileSt (latticeParity t n s) t = tsIdle := by
  have counted : NotReady t (satAdd (latStat t) LatStat.parity n s) :=
    h.upd (by simp only [tilStat, latStat]; omega) (by simp only [tilMcVer, latStat]; omega)
      (pwrState_ne_page (by simp only [latStat]; omega)) _ _
  obtain ⟨w, follows, noted⟩ := integrityFault_latParity_eq (t := t) (by rw [counted.idle]; decide)
  obtain ⟨integ, devtime⟩ := recordFault_integ_devtime t tfIntegrity ckLatParity (satAdd (latStat t) LatStat.parity n s)
  have same : w.integ = s.integ ∧ w.devtime = s.devtime := by
    rw [follows.same]
    exact ⟨integ, devtime⟩
  obtain ⟨f, stays⟩ := noteStaying_eq (t := t) (check := ckLatParity) (s := w) (by rwa [same.1, same.2])
  rw [latticeParity, noted, stays]
  exact ((recordFault_notReady counted _ _).aftermath follows).idle

/-! ### A skip that fails parity at such a tile -/

/-- A word of one lane that holds the header of a skip. -/
def skipWord : List LaneWord := [laneWord true (toBytes 8 (landingHeader 0 0 okSkip))]

/-- Channel 0 of tile 0, which is not ready, is a valid receive channel of landing messages; a skip travels on it. -/
def unreadyLanding : State :=
  put (latCh 0 0) 7 { unready with tiles := [(0, { chans := [(0, { wire := [skipWord] })] })] }

theorem unreadyLanding_notReady : NotReady 0 unreadyLanding := ⟨by decide, by decide⟩

/-- Refutes O32: a parity bit of the skip is inverted on its way; the fault is recorded, and tile 0, which is not ready, stays
in IDLE. -/
theorem not_latticeChannels : ¬ Obligations.LatticeChannels := by
  unfold Obligations.LatticeChannels
  rintro ⟨receives, -⟩
  have valid : chValid (chanEntry unreadyLanding 0 0) = true := by decide
  have receive : chReceive (chanEntry unreadyLanding 0 0) = true := by decide
  have mode : chMode (chanEntry unreadyLanding 0 0) = 1 := by decide
  have words : 1 = messageWords (chanEntry unreadyLanding 0 0) skipWord := by decide
  have bad : (flipWords [(0, 64)] [skipWord]).any wordBad = true := by decide
  obtain ⟨-, -, fails⟩ := receives 0 0 0 1 skipWord [] _ [(0, 64)] unreadyLanding rfl (by decide) valid receive rfl words
    (by decide) rfl
  obtain ⟨u, hu, ⟨halts, -⟩, -⟩ := fails mode bad (by decide) (by decide)
  have idle : ∀ c, NotReady 0 (setChan 0 0 c unreadyLanding) := fun _ => unreadyLanding_notReady.updTile _ _
  rw [exec_landingReceive_bad (t := 0) (s := unreadyLanding) rfl (by decide) valid receive mode rfl words (by decide) rfl bad] at hu
  injection hu with same
  rw [← same] at halts
  exact absurd ((latticeParity_notReady (idle _) (by decide) _).symm.trans halts) (by decide)

end Sys2Proof.Machine
end

section
/-! Routers: what filling the input ports, noting a turn and throttling leave of the machine, and what becomes of the packet
whose turn it is (R232, R242, R248, R249). -/

namespace Sys2Proof.Machine

open Sys2Proof

/-! ### Registers and buffers -/

/-- A counter field that is raised stops at its highest value. -/
theorem get_satAdd_same {off : Nat} {f : Fld} (h : f.lo + f.w ≤ 64) (n : Nat) (s : State) :
    get (satAdd off f n s) off f = min (2 ^ f.w - 1) (get s off f + n) := by
  rw [satAdd, get_upd_same _ _ _ _ h]
  exact Nat.mod_eq_of_lt (Nat.lt_of_le_of_lt (Nat.min_le_left _ _) (Nat.sub_lt (Nat.two_pow_pos _) Nat.one_pos))

/-- Below the heads' pages, LED_LOG_STAT is the only register of reports. -/
theorem not_reportReg_of_low {off : Nat} (h : off < 0x800000) (ne : off ≠ ledLogStat) : ¬ ReportReg off := by
  rintro (e | ⟨j, hj, e | e | e⟩)
  · exact ne e
  all_goals
    simp only [queEvent, msixPba] at e
    omega

@[simp] theorem bufOf_setBuf_same (k : Nat) (l : List Packet) (s : State) : bufOf (setBuf k l s) k = l :=
  tget_tset_same _ _ _ _

theorem bufOf_setBuf_ne {j k : Nat} (h : j ≠ k) (l : List Packet) (s : State) : bufOf (setBuf k l s) j = bufOf s j :=
  tget_tset_of_ne _ h _ _

/-- A key of an interface or an attach endpoint of a router. -/
def IsInterface (g k : Nat) : Prop := k / 17 = g ∧ localPort (k % 17) = true

theorem portKey_div {p : Nat} (h : p < 17) (g : Nat) : portKey g p / 17 = g := by
  rw [portKey, Nat.mul_add_div (by decide), Nat.div_eq_of_lt h, Nat.add_zero]

theorem portKey_mod {p : Nat} (h : p < 17) (g : Nat) : portKey g p % 17 = p := by
  rw [portKey, Nat.mul_add_mod, Nat.mod_eq_of_lt h]

theorem lt_of_not_localPort {p : Nat} (h : localPort p = false) : p < 17 := by
  simp only [localPort, Bool.or_eq_false_iff, decide_eq_false_iff_not] at h
  omega

theorem not_isInterface_of_port {p : Nat} (h : localPort p = false) (g g' : Nat) : ¬ IsInterface g (portKey g' p) := by
  rintro ⟨-, isLocal⟩
  rw [portKey_mod (lt_of_not_localPort h), h] at isLocal
  exact absurd isLocal (by decide)

/-- What both branches of a choice entail of their value, the choice entails. -/
theorem of_ite_eq {α : Type} {c : Prop} [Decidable c] {a b x : α} {P : Prop} (ha : a = x → P) (hb : b = x → P)
    (h : (if c then a else b) = x) : P := by
  by_cases hc : c
  · exact ha (by rwa [if_pos hc] at h)
  · exact hb (by rwa [if_neg hc] at h)

/-- Links between routers end at ports that are no interfaces: of the nine ports with a far end, each names its own. -/
theorem portPeer_port {g out g' i' : Nat} : portPeer g out = some (g', i') → localPort i' = false := by
  have far : ∀ {r p : Nat}, localPort p = false → some (r, p) = some (g', i') → localPort i' = false := fun port e => by
    injection e with e
    injection e with _ e
    rwa [← e]
  have edge : (none : Option (Nat × Nat)) = some (g', i') → localPort i' = false := nofun
  have side : ∀ {c : Prop} [Decidable c] {r p : Nat}, localPort p = false →
      (if c then some (r, p) else none) = some (g', i') → localPort i' = false := fun port => of_ite_eq (far port) edge
  unfold portPeer
  dsimp only
  refine of_ite_eq (side rfl) <| of_ite_eq (side rfl) <| of_ite_eq (side rfl) <| of_ite_eq (side rfl) <|
    of_ite_eq (side rfl) <| of_ite_eq (side rfl) <| of_ite_eq (side rfl) <| of_ite_eq (side rfl) <| of_ite_eq ?_ edge
  intro h
  obtain ⟨_, -, e⟩ := Option.map_eq_some_iff.mp h
  exact far rfl (congrArg some e)

/-! ### What a router does besides moving a packet -/

/-- A router's interfaces have filled its input ports, turns are noted and clusters throttled or released: nothing but the
concourse has changed, no packet has arrived, and no other input port has taken or lost one. -/
structure RouterWork (g : Nat) (s u : State) : Prop where
  same : u = { s with net := u.net }
  arrived : u.net.arrived = s.net.arrived
  buf : ∀ k, ¬ IsInterface g k → bufOf u k = bufOf s k

theorem RouterWork.refl (g : Nat) (s : State) : RouterWork g s s := ⟨rfl, rfl, fun _ _ => rfl⟩

theorem RouterWork.trans {g : Nat} {s v u : State} (h : RouterWork g s v) (k : RouterWork g v u) : RouterWork g s u :=
  ⟨by rw [k.same, h.same], k.arrived.trans h.arrived, fun j hj => (k.buf j hj).trans (h.buf j hj)⟩

theorem RouterWork.rd {g : Nat} {s u : State} (h : RouterWork g s u) (off : Nat) : rd u off = rd s off := by
  rw [h.same]
  rfl

/-- Another router's input ports are as they were. -/
theorem RouterWork.elsewhere {g k : Nat} {s u : State} (h : RouterWork g s u) (hk : k / 17 ≠ g) : bufOf u k = bufOf s k :=
  h.buf k fun own => hk own.1

theorem nicStart_work {p : Nat} (hp : localPort p = true) (lt : p < 17) (g : Nat) (data : Bool) (s : State) :
    RouterWork g s (nicStart g p data s) := by
  have own : IsInterface g (portKey g p) := ⟨portKey_div lt g, by rwa [portKey_mod lt]⟩
  unfold nicStart
  dsimp only
  split
  · exact .refl g s
  · split
    · exact ⟨rfl, rfl, fun k hk => bufOf_setBuf_ne (fun e => hk (by rw [e]; exact own)) _ _⟩
    · exact .refl g s

theorem nicFill_work {p : Nat} (hp : localPort p = true) (lt : p < 17) (g : Nat) (s : State) :
    RouterWork g s (nicFill g p s) := by
  have start : ∀ data s, RouterWork g s (nicStart g p data s) := nicStart_work hp lt g
  exact (((((start _ s).trans (start _ _)).trans (start _ _)).trans (start _ _)).trans (start _ _)).trans (start _ _)

theorem fillRouter_work (g : Nat) (s : State) : RouterWork g s (fillRouter g s) := by
  have ports : ∀ p ∈ [0, 1, 2, 3, 13, 14, 15, 16], localPort p = true ∧ p < 17 := by decide
  exact foldl_related (.refl g) .trans _ (fun p hp s => nicFill_work (ports p hp).1 (ports p hp).2 g s) s

theorem noteTurn_work (g h out i : Nat) (data : Bool) (s : State) : RouterWork g s (noteTurn h out i data s) := by
  cases data <;> exact ⟨rfl, rfl, fun _ _ => rfl⟩

theorem noteThrottle_work (g h : Nat) (s : State) : RouterWork g s (noteThrottle h s) := by
  unfold noteThrottle
  dsimp only
  split
  · exact ⟨rfl, rfl, fun _ _ => rfl⟩
  · split
    · exact ⟨rfl, rfl, fun _ _ => rfl⟩
    · exact .refl g s

/-! ### The packet whose turn it is -/

/-- The packet that an output has chosen has left its input, and the turn is noted. -/
def served (g out i : Nat) (p : Packet) (s : State) : State :=
  noteTurn g out i p.data (dequeue g i p (fillRouter g s))

/-- The router's input ports fill again, and its cluster is throttled or released. -/
def refilled (g : Nat) (s : State) : State := noteThrottle g (fillRouter g s)

/-- What becomes of the chosen packet, which has arrived as `q`: `s` is the state before it left its input. -/
def forwarded (g out : Nat) (p q : Packet) (s v : State) : State :=
  if !packetOk q then discardBad g (parityFails q) v
  else if (routeOf s g p).isNone then countRsvd g v
  else if localPort out then handOver (settled q) v
  else match portPeer g out with
    | none => s
    | some (g', i') =>
      if hasRoom s g' i' p.data then
        noteThrottle g' (setBuf (portKey g' i') (bufOf v (portKey g' i') ++ [settled q]) v)
      else s

/-- ROUTER_FORWARD of a powered cluster takes the packet whose turn it is. -/
theorem exec_routerForward_turn {g : ClusterId} {out : RouterPort} {i : Nat} {p : Packet} {s : State} (on : On s)
    (lit : fabricOff s (clusterField g) = false) (turn : arbitrate (fillRouter g s) g out = some (i, p))
    (upset : List (Nat × Nat)) : exec (.routerForward g out upset) s = .next (refilled g
      (forwarded g out p { p with upset := p.upset ++ upset } (fillRouter g s) (served g out i p s))) := by
  show Host.Outcome.next (powered _ s) = _
  rw [powered_on on]
  dsimp only
  rw [lit, if_neg (by decide), turn]
  rfl

theorem forwarded_bad {q : Packet} (bad : packetOk q = false) (g out : Nat) (p : Packet) (s v : State) :
    forwarded g out p q s v = discardBad g (parityFails q) v := by
  rw [forwarded, bad]
  exact if_pos rfl

theorem forwarded_local {g out : Nat} {p q : Packet} {s : State} (ok : packetOk q = true)
    (route : (routeOf s g p).isSome = true) (isLocal : localPort out = true) (v : State) :
    forwarded g out p q s v = handOver (settled q) v := by
  simp [forwarded, ok, isLocal, Option.isSome_iff_ne_none.mp route]

theorem forwarded_room {g out g' i' : Nat} {p q : Packet} {s : State} (ok : packetOk q = true)
    (route : (routeOf s g p).isSome = true) (isPort : localPort out = false) (peer : portPeer g out = some (g', i'))
    (room : hasRoom s g' i' p.data = true) (v : State) : forwarded g out p q s v =
      noteThrottle g' (setBuf (portKey g' i') (bufOf v (portKey g' i') ++ [settled q]) v) := by
  simp [forwarded, ok, isPort, peer, room, Option.isSome_iff_ne_none.mp route]

theorem dequeue_same (g i : Nat) (p : Packet) (s : State) :
    dequeue g i p s = { s with net := (dequeue g i p s).net } ∧ (dequeue g i p s).net.arrived = s.net.arrived := ⟨rfl, rfl⟩

/-- Taking the packet from its input changes nothing but the concourse. -/
theorem served_same (g out i : Nat) (p : Packet) (s : State) :
    served g out i p s = { s with net := (served g out i p s).net } ∧ (served g out i p s).net.arrived = s.net.arrived := by
  have filled := fillRouter_work g s
  have noted := noteTurn_work g g out i p.data (dequeue g i p (fillRouter g s))
  obtain ⟨same, arrived⟩ := dequeue_same g i p (fillRouter g s)
  refine ⟨?_, noted.arrived.trans (arrived.trans filled.arrived)⟩
  rw [served, noted.same, same, filled.same]

/-- The packet has left its input port, and no other port has lost or taken one but the router's interfaces. -/
theorem served_buf {g out i : Nat} {p : Packet} {s : State} (port : localPort i = false) :
    bufOf (served g out i p s) (portKey g i) = (bufOf s (portKey g i)).erase p ∧
      ∀ k, ¬ IsInterface g k → k ≠ portKey g i → bufOf (served g out i p s) k = bufOf s k := by
  have filled := fillRouter_work g s
  have noted := noteTurn_work g g out i p.data (dequeue g i p (fillRouter g s))
  have here := not_isInterface_of_port port g g
  refine ⟨?_, fun k hk ne => ?_⟩
  · rw [served, noted.buf _ here, dequeue, bufOf_setBuf_same, filled.buf _ here]
  · rw [served, noted.buf _ hk, dequeue, bufOf_setBuf_ne ne, filled.buf _ hk]

theorem served_elsewhere {g out i : Nat} {p : Packet} {s : State} (port : localPort i = false) {k : Nat}
    (hk : k / 17 ≠ g) : bufOf (served g out i p s) k = bufOf s k :=
  (served_buf port).2 k (fun own => hk own.1) fun e => hk (by rw [e, portKey_div (lt_of_not_localPort port)])

theorem refilled_work (g : Nat) (s : State) : RouterWork g s (refilled g s) :=
  (fillRouter_work g s).trans (noteThrottle_work g g _)

end Sys2Proof.Machine
end

section
/-! The statement on forwarding, quiesce and seam wires (R232, R242, R246, R249, R254, R255). -/

namespace Sys2Proof.Machine

open Sys2Proof

/-! ### Forwarding (R232, R242, R249) -/

/-- A packet that passes its checks moves to the neighbour's input port that has room. -/
theorem routerForward_moves {g : ClusterId} {out : RouterPort} {i g' i' : Nat} {p q : Packet} {upset : List (Nat × Nat)}
    {s : State} (on : On s) (lit : fabricOff s (clusterField g) = false)
    (turn : arbitrate (fillRouter g s) g out = some (i, p)) (arrived : q = { p with upset := p.upset ++ upset })
    (ok : packetOk q = true) (route : (routeOf (fillRouter g s) g p).isSome = true) (isPort : localPort out = false)
    (peer : portPeer g out = some (g', i')) (room : hasRoom (fillRouter g s) g' i' p.data = true)
    (port : localPort i = false) (apart : portKey g' i' ≠ portKey g i) :
    Completes (.routerForward g out upset) s fun u =>
      bufOf u (portKey g' i') = bufOf s (portKey g' i') ++ [settled q] ∧
      bufOf u (portKey g i) = (bufOf s (portKey g i)).erase p ∧
      (∀ k : Nat, k / 17 ≠ g.val → k ≠ portKey g' i' → bufOf u k = bufOf s k) ∧ u = { s with net := u.net } := by
  refine ⟨_, exec_routerForward_turn on lit turn upset, ?_⟩
  rw [← arrived, forwarded_room ok route isPort peer room]
  obtain ⟨left, kept⟩ := served_buf (g := g) (out := out) (p := p) (s := s) port
  have elsewhere := fun k => served_elsewhere (g := g) (out := out) (p := p) (s := s) port (k := k)
  have same := (served_same g out i p s).1
  generalize served g out i p s = v at left kept elsewhere same ⊢
  have there := not_isInterface_of_port (portPeer_port peer) g g'
  have here := not_isInterface_of_port port g g
  have work := (noteThrottle_work g g' (setBuf (portKey g' i') (bufOf v (portKey g' i') ++ [settled q]) v)).trans
    (refilled_work g _)
  refine ⟨?_, ?_, fun k hk ne => ?_, ?_⟩
  · rw [work.buf _ there, bufOf_setBuf_same, kept _ there apart]
  · rw [work.buf _ here, bufOf_setBuf_ne apart.symm, left]
  · rw [work.elsewhere hk, bufOf_setBuf_ne ne, elsewhere k hk]
  · rw [work.same, setBuf, same]

/-- The counter in CON_ROUTER_STAT of packets that fail their parity, or else their CRC. -/
def checkCounter (parity : Bool) : Fld := if parity then ConRouterStat.parity else ConRouterStat.crc

/-- A packet discarded for its check is counted at the router and logged. -/
theorem discardBad_counts {g : Nat} (hg : g < 240) (parity : Bool) (s : State) :
    get (discardBad g parity s) (conRouterStat g) (checkCounter parity) =
        min (2 ^ (checkCounter parity).w - 1) (get s (conRouterStat g) (checkCounter parity) + 1) ∧
      ReportsAnd (· = conRouterStat g) s (discardBad g parity s) := by
  have notReport : ¬ ReportReg (conRouterStat g) :=
    not_reportReg_of_low (by simp only [conRouterStat]; omega) (by simp only [conRouterStat, ledLogStat]; omega)
  have width : ∀ b, (checkCounter b).lo + (checkCounter b).w ≤ 64 := by decide
  rw [discardBad, ← checkCounter]
  obtain ⟨regs, same⟩ := logOpen_reports sevInfo kRefused bCon 249 (b2n parity) g
    (satAdd (conRouterStat g) (checkCounter parity) 1 s)
  refine ⟨?_, (regsBut_satAdd (.inl rfl) _ _ s).trans (regs.mono fun _ => .inr), by rw [same]; rfl⟩
  rw [get, regs _ notReport, ← get, get_satAdd_same (width parity)]

/-- A packet that fails its check leaves its input, is counted at the router and goes nowhere. -/
theorem routerForward_discards {g : ClusterId} {out : RouterPort} {i : Nat} {p q : Packet} {upset : List (Nat × Nat)}
    {s : State} (on : On s) (lit : fabricOff s (clusterField g) = false)
    (turn : arbitrate (fillRouter g s) g out = some (i, p)) (arrived : q = { p with upset := p.upset ++ upset })
    (bad : packetOk q = false) (port : localPort i = false) :
    Completes (.routerForward g out upset) s fun u =>
      bufOf u (portKey g i) = (bufOf s (portKey g i)).erase p ∧ (∀ k : Nat, k / 17 ≠ g.val → bufOf u k = bufOf s k) ∧
      (parityFails q = true → get u (conRouterStat g) ConRouterStat.parity =
        min (2 ^ ConRouterStat.parity.w - 1) (get s (conRouterStat g) ConRouterStat.parity + 1)) ∧
      (parityFails q = false → get u (conRouterStat g) ConRouterStat.crc =
        min (2 ^ ConRouterStat.crc.w - 1) (get s (conRouterStat g) ConRouterStat.crc + 1)) ∧
      RegsBut (fun o => o = conRouterStat g ∨ ReportReg o) s u ∧ u.tiles = s.tiles ∧ u.hbm = s.hbm := by
  refine ⟨_, exec_routerForward_turn on lit turn upset, ?_⟩
  rw [← arrived, forwarded_bad bad]
  have left := (served_buf (g := g) (out := out) (p := p) (s := s) port).1
  have elsewhere := fun k => served_elsewhere (g := g) (out := out) (p := p) (s := s) port (k := k)
  have taken := (served_same g out i p s).1
  generalize served g out i p s = v at left elsewhere taken ⊢
  have sameRegs : ∀ o, rd v o = rd s o := fun o => by rw [taken]; rfl
  have sameGet : ∀ o f, get v o f = get s o f := fun o f => by rw [get, sameRegs, ← get]
  obtain ⟨counted, regs, same⟩ := discardBad_counts g.isLt (parityFails q) v
  have net : ∀ k, bufOf (discardBad g (parityFails q) v) k = bufOf v k := fun k => by rw [same]; rfl
  have work := refilled_work g (discardBad g (parityFails q) v)
  have got : ∀ o f, get (refilled g (discardBad g (parityFails q) v)) o f = get (discardBad g (parityFails q) v) o f :=
    fun o f => by rw [get, work.rd, ← get]
  have here := not_isInterface_of_port port g g
  refine ⟨?_, fun k hk => ?_, fun fails => ?_, fun passes => ?_, fun o ho => ?_, ?_, ?_⟩
  · rw [work.buf _ here, net, left]
  · rw [work.elsewhere hk, net, elsewhere k hk]
  · rw [got, ← sameGet]
    simpa only [fails, checkCounter, if_true] using counted
  · rw [got, ← sameGet]
    simpa only [passes, checkCounter, Bool.false_eq_true, if_false] using counted
  · rw [work.rd, regs o ho, sameRegs]
  · rw [work.same, same, taken]
  · rw [work.same, same, taken]

/-- A packet that passes its checks arrives at the endpoint that the router serves. -/
theorem routerForward_arrives {g : ClusterId} {out : RouterPort} {i : Nat} {p q : Packet} {upset : List (Nat × Nat)}
    {s : State} (on : On s) (lit : fabricOff s (clusterField g) = false)
    (turn : arbitrate (fillRouter g s) g out = some (i, p)) (arrived : q = { p with upset := p.upset ++ upset })
    (ok : packetOk q = true) (isLocal : localPort out = true) (route : (routeOf (fillRouter g s) g p).isSome = true)
    (noLink : epIsLink (settled q).rdst = false) :
    Completes (.routerForward g out upset) s fun u => u.net.arrived = s.net.arrived ++ [settled q] ∧
      u = { s with net := u.net } := by
  refine ⟨_, exec_routerForward_turn on lit turn upset, ?_⟩
  rw [← arrived, forwarded_local ok route isLocal, handOver, noLink, if_neg (by decide)]
  obtain ⟨same, before⟩ := served_same g out i p s
  generalize served g out i p s = v at same before ⊢
  have work := refilled_work g { v with net := { v.net with arrived := v.net.arrived ++ [settled q] } }
  refine ⟨?_, ?_⟩
  · rw [work.arrived, before]
  · rw [work.same, same]

/-! ### Quiesce (R246, R254, R298, R424, R432) -/

/-- What takes effect at a quiesce leaves the registers below CON_SEAM_STAT, HBM and the requests. -/
structure QuiesceKeeps (s u : State) : Prop where
  regs : ∀ off, off < conSeamStat → rd u off = rd s off
  hbm : u.hbm = s.hbm
  req : u.req = s.req

theorem QuiesceKeeps.refl (s : State) : QuiesceKeeps s s := ⟨fun _ _ => rfl, rfl, rfl⟩

theorem QuiesceKeeps.trans {s v u : State} (h : QuiesceKeeps s v) (k : QuiesceKeeps v u) : QuiesceKeeps s u :=
  ⟨fun o ho => (k.regs o ho).trans (h.regs o ho), k.hbm.trans h.hbm, k.req.trans h.req⟩

theorem put_quiesceKeeps {off : Nat} (h : conSeamStat ≤ off) (v : Reg) (s : State) : QuiesceKeeps s (put off v s) :=
  ⟨fun _ ho => rd_put_ne (Nat.ne_of_lt (Nat.lt_of_lt_of_le ho h)) v s, rfl, rfl⟩

theorem repairSeam_keeps (s : State) : QuiesceKeeps s (repairSeam s) := by
  refine foldl_related .refl .trans _ (fun e _ s => ?_) s
  dsimp only
  split
  · exact .refl s
  · have pending : QuiesceKeeps s (upd conSeamStat ConSeamStat.pending
        (get s conSeamStat ConSeamStat.pending - e.2.marked.length) s) := put_quiesceKeeps (Nat.le_refl _) _ s
    have spared : ∀ x v, QuiesceKeeps v (setBundle e.1 x v) := fun _ _ => ⟨fun _ _ => rfl, rfl, rfl⟩
    exact (pending.trans (spared _ _)).trans (put_quiesceKeeps (Nat.le_refl _) _ _)

theorem rejoinPorts_keeps (s : State) : QuiesceKeeps s (rejoinPorts s) := by
  refine foldl_related .refl .trans _ (fun n _ s => ?_) s
  split
  · exact ⟨fun _ _ => rfl, rfl, rfl⟩
  · exact .refl s

theorem setTunnels_keeps (s : State) : QuiesceKeeps s (setTunnels s) := by
  have page : ∀ off, 0x1000000 ≤ off → conSeamStat ≤ off := fun off h => Nat.le_trans (by decide) h
  unfold setTunnels
  dsimp only
  refine QuiesceKeeps.trans (foldl_related .refl .trans _ (fun e _ s => ?_) s)
    (foldl_related .refl .trans _ (fun t _ s => put_quiesceKeeps (page _ (by simp only [latStat]; omega)) _ s) _)
  have anew : ∀ c v, QuiesceKeeps v (setChan (chTile e) (chNum e) c v) := fun _ _ => ⟨fun _ _ => rfl, rfl, rfl⟩
  exact ((anew _ s).trans (put_quiesceKeeps (page _ (by simp only [latCh]; omega)) _ _)).trans
    (put_quiesceKeeps (page _ (by simp only [latCh]; omega)) _ _)

theorem quiesceTables_keeps (s : State) : QuiesceKeeps s (quiesceTables s) :=
  ((repairSeam_keeps s).trans (rejoinPorts_keeps _)).trans (setTunnels_keeps _)

theorem countErases_keeps (d a n : Nat) (s : State) : QuiesceKeeps s (countErases d a n s) := by
  unfold countErases
  split
  · exact .refl s
  · exact ⟨fun _ _ => rfl, rfl, rfl⟩

theorem nvmPages_keeps (a n : Nat) (s : State) : QuiesceKeeps s (nvmPages a n s) := by
  unfold nvmPages
  dsimp only
  have counted : ∀ m v, QuiesceKeeps v ((nvmDevices v).foldl (fun s d => countErases d a m s) v) := fun m v =>
    foldl_related .refl .trans _ (fun d _ s => countErases_keeps d a m s) v
  refine QuiesceKeeps.trans ?_ (counted _ _)
  exact ⟨fun _ _ => rfl, rfl, rfl⟩

theorem boot_keeps (b : BootState) (s : State) : QuiesceKeeps s { s with boot := b } := ⟨fun _ _ => rfl, rfl, rfl⟩

theorem writeMap_keeps (s : State) : QuiesceKeeps s (writeMap s) := by
  unfold writeMap storeMap
  dsimp only
  split
  · exact ((boot_keeps _ s).trans (boot_keeps _ _)).trans (nvmPages_keeps _ _ _)
  · exact boot_keeps _ s

/-- The CCLK point takes CCLK_LP over; HBM and the requests stay. -/
theorem cclkSwitch_takes (s : State) : get (cclkSwitch s) clkStat ClkStat.cclkLp = get s clkCtrl ClkCtrl.cclkLp ∧
    (cclkSwitch s).hbm = s.hbm ∧ (cclkSwitch s).req = s.req := by
  unfold cclkSwitch
  refine ⟨?_, ?_, ?_⟩
  · rw [get_upd_same _ _ _ _ (by decide)]
    exact Nat.mod_mod _ _
  all_goals
    dsimp only
    split <;> rfl

/-- The device quiesces: CCLK_LP is taken over; HBM and the requests stay. -/
theorem quiesced_takes (s : State) : get (quiesced s) clkStat ClkStat.cclkLp = get s clkCtrl ClkCtrl.cclkLp ∧
    (quiesced s).hbm = s.hbm ∧ (quiesced s).req = s.req := by
  have tables := quiesceTables_keeps s
  obtain ⟨takes, hbm, req⟩ := cclkSwitch_takes (quiesceTables s)
  have written : QuiesceKeeps (cclkSwitch (quiesceTables s)) (quiesced s) := by
    unfold quiesced
    dsimp only
    split
    · exact writeMap_keeps _
    · exact .refl _
  refine ⟨?_, written.hbm.trans (hbm.trans tables.hbm), written.req.trans (req.trans tables.req)⟩
  rw [get, written.regs _ (by decide), ← get, takes, get, tables.regs _ (by decide), ← get]

theorem exec_quiesce_quiet {s : State} (on : On s) (quiet : trafficQuiet s = true) (noRemap : s.boot.remap = none) :
    exec .quiesce s = .next { quiesced s with boot := { (quiesced s).boot with quiesce := false } } := by
  show Host.Outcome.next (powered _ s) = _
  rw [powered_on on, quiet, noRemap]
  rfl

theorem exec_quiesce_busy {s : State} (on : On s) (busy : trafficQuiet s = false) : exec .quiesce s = .next s := by
  show Host.Outcome.next (powered _ s) = _
  rw [powered_on on, busy]
  rfl

/-! ### Seam wires (R254, R255) -/

theorem exec_seamWireMark_few {b : SeamBundle} {wire errors i : Nat} {s : State} (on : On s) (bundled : bundleNum b = some i)
    (few : errors < 16) : exec (.seamWireMark b wire errors) s = .next s := by
  show Host.Outcome.next (powered _ s) = _
  rw [powered_on on, bundled]
  exact congrArg _ (if_pos (.inl few))

/-- A wire of a bundle is marked and counted as pending. -/
def wireMarked (i wire : Nat) (s : State) : State :=
  satAdd conSeamStat ConSeamStat.pending 1
    (setBundle i { bundle s i with marked := (bundle s i).marked ++ [wire] } s)

theorem exec_seamWireMark_marks {b : SeamBundle} {wire errors i : Nat} {s : State} (on : On s)
    (bundled : bundleNum b = some i) (hw : wire < 32) (many : 16 ≤ errors) (fresh : wire ∉ (bundle s i).marked)
    (spare : (bundle s i).spares + (bundle s i).marked.length < 2) :
    exec (.seamWireMark b wire errors) s = .next (logOpen sevNotice kRepair bCon 254 wire i (wireMarked i wire s)) := by
  have marks : ¬ (errors < 16 ∨ 32 ≤ wire ∨ (bundle s i).marked.contains wire = true) := by
    rintro (few | wide | marked)
    · omega
    · omega
    · exact fresh (List.contains_iff_mem.mp marked)
  show Host.Outcome.next (powered _ s) = _
  rw [powered_on on, bundled]
  dsimp only
  rw [if_neg marks, if_pos spare]
  rfl

/-- The mark stands in its bundle alone and is counted; registers but CON_SEAM_STAT stay. -/
theorem wireMarked_marks (i wire : Nat) (s : State) :
    bundle (wireMarked i wire s) i = { bundle s i with marked := (bundle s i).marked ++ [wire] } ∧
      get (wireMarked i wire s) conSeamStat ConSeamStat.pending =
        min (2 ^ ConSeamStat.pending.w - 1) (get s conSeamStat ConSeamStat.pending + 1) ∧
      (∀ j, j ≠ i → bundle (wireMarked i wire s) j = bundle s j) ∧
      RegsBut (· = conSeamStat) s (wireMarked i wire s) := by
  refine ⟨tget_tset_same _ _ _ _, get_satAdd_same (by decide) 1 _, fun j hj => tget_tset_of_ne _ hj _ _, ?_⟩
  exact RegsBut.trans (fun _ _ => rfl) (regsBut_satAdd (p := (· = conSeamStat)) rfl _ _ (setBundle i _ s))

theorem seamWireMark_marks {b : SeamBundle} {wire errors i : Nat} {s : State} (on : On s) (bundled : bundleNum b = some i)
    (hw : wire < 32) (many : 16 ≤ errors) (fresh : wire ∉ (bundle s i).marked)
    (spare : (bundle s i).spares + (bundle s i).marked.length < 2) :
    Completes (.seamWireMark b wire errors) s fun u =>
      bundle u i = { bundle s i with marked := (bundle s i).marked ++ [wire] } ∧
        get u conSeamStat ConSeamStat.pending =
          min (2 ^ ConSeamStat.pending.w - 1) (get s conSeamStat ConSeamStat.pending + 1) ∧
        (∀ j, j ≠ i → bundle u j = bundle s j) ∧ RegsBut (fun o => o = conSeamStat ∨ ReportReg o) s u ∧
        u.tiles = s.tiles ∧ u.hbm = s.hbm ∧ u.links = s.links := by
  refine ⟨_, exec_seamWireMark_marks on bundled hw many fresh spare, ?_⟩
  have notReport : ¬ ReportReg conSeamStat := not_reportReg_of_low (by decide) (by decide)
  obtain ⟨marked, counted, others, regs⟩ := wireMarked_marks i wire s
  have kept : (wireMarked i wire s).tiles = s.tiles ∧ (wireMarked i wire s).hbm = s.hbm ∧
      (wireMarked i wire s).links = s.links := ⟨rfl, rfl, rfl⟩
  generalize wireMarked i wire s = v at marked counted others regs kept ⊢
  obtain ⟨reported, -⟩ := logOpen_reports sevNotice kRepair bCon 254 wire i v
  have net : ∀ j, bundle (logOpen sevNotice kRepair bCon 254 wire i v) j = bundle v j := fun j => by
    rw [bundle, logOpen_net, ← bundle]
  refine ⟨?_, ?_, fun j hj => ?_, ?_, ?_⟩
  · rw [net, marked]
  · rw [get, reported _ notReport, ← get, counted]
  · rw [net, others j hj]
  · exact (regs.mono fun _ => .inl).trans (reported.mono fun _ => .inr)
  · rw [logOpen_tiles, logOpen_hbm, logOpen_links]
    exact kept

/-- The statement's port keys `k` are read as cluster numbers, where division is that of their values. -/
theorem router_ne {g k : ClusterId} (h : k / 17 ≠ g) : k.val / 17 ≠ g.val := fun e => h (Fin.ext e)

/-- Settles O35, clause by clause: what a router does besides moving the packet touches neither the packet's ports nor any
register, the tables of a quiesce stand above the clock's registers, and a mark is a write of one bundle and one counter. -/
theorem concourseForwarding : Obligations.ConcourseForwarding := by
  unfold Obligations.ConcourseForwarding
  refine ⟨?_, ?_, fun s on quiet noRemap => ?_, fun s on busy => ?_, fun b wire errors i s on bundled hw => ?_⟩
  · intro g out upset i g' i' p q s s' on lit filled turn arrived ok route isPort peer room port apart
    rw [filled] at turn route room
    obtain ⟨u, hu, joined, left, others, same⟩ :=
      routerForward_moves on lit turn arrived ok route isPort peer room port apart
    exact ⟨u, hu, joined, left, fun k hk => others k (router_ne hk), same⟩
  · intro g out upset i p q s s' on lit filled turn arrived
    rw [filled] at turn ⊢
    refine ⟨fun bad port => ?_, routerForward_arrives on lit turn arrived⟩
    obtain ⟨u, hu, left, others, counted⟩ := routerForward_discards on lit turn arrived bad port
    exact ⟨u, hu, left, fun k hk => others k (router_ne hk), counted⟩
  · obtain ⟨takes, hbm, req⟩ := quiesced_takes s
    exact ⟨_, exec_quiesce_quiet on quiet noRemap, rfl, takes, hbm, req⟩
  · exact ⟨s, exec_quiesce_busy on busy, rfl⟩
  · exact ⟨fun few => ⟨s, exec_seamWireMark_few on bundled few, rfl⟩, seamWireMark_marks on bundled hw⟩

end Sys2Proof.Machine
end

section
/-! What HBM's bookkeeping leaves alone (R265, R271, R273, R279): the contents, the bursts in error, the tiles, the
requests, and all registers but the ones it is about. -/

namespace Sys2Proof.Machine

open Sys2Proof

/-- HBM's contents and bursts in error, tiles and requests are as they were; of the registers, at most those of which `p`
holds have changed. -/
structure Bookkept (p : Nat → Prop) (s u : State) : Prop where
  regs : RegsBut p s u
  hbm : u.hbm = s.hbm
  errs : u.hbmState.errs = s.hbmState.errs
  tiles : u.tiles = s.tiles
  req : u.req = s.req

namespace Bookkept

variable {p : Nat → Prop} {s v u : State}

theorem refl (p : Nat → Prop) (s : State) : Bookkept p s s := ⟨.refl p s, rfl, rfl, rfl, rfl⟩

theorem trans (h : Bookkept p s v) (k : Bookkept p v u) : Bookkept p s u :=
  ⟨h.regs.trans k.regs, k.hbm.trans h.hbm, k.errs.trans h.errs, k.tiles.trans h.tiles, k.req.trans h.req⟩

theorem mono {r : Nat → Prop} (h : Bookkept p s u) (hp : ∀ o, p o → r o) : Bookkept r s u :=
  { h with regs := h.regs.mono hp }

theorem ite {c : Prop} [Decidable c] (h : Bookkept p s v) (k : Bookkept p s u) : Bookkept p s (if c then v else u) := by
  split
  · exact h
  · exact k

theorem get_eq (h : Bookkept p s u) {off : Nat} (ho : ¬ p off) (f : Fld) : get u off f = get s off f := by
  rw [get, h.regs off ho, ← get]

theorem upd {off : Nat} (h : p off) (f : Fld) (x : Nat) (s : State) : Bookkept p s (upd off f x s) :=
  ⟨regsBut_upd h f x s, rfl, rfl, rfl, rfl⟩

theorem upd_self (off : Nat) (f : Fld) (x : Nat) (s : State) : Bookkept (· = off) s (Machine.upd off f x s) :=
  upd (p := (· = off)) rfl f x s

theorem satAdd_self (off : Nat) (f : Fld) (n : Nat) (s : State) : Bookkept (· = off) s (satAdd off f n s) :=
  upd_self off f _ s

end Bookkept

theorem Reports.bookkept {p : Nat → Prop} {s u : State} (h : Reports s u) (hp : ∀ o, ReportReg o → p o) :
    Bookkept p s u := by
  obtain ⟨regs, same⟩ := h
  exact ⟨regs.mono hp, by rw [same], by rw [same], by rw [same], by rw [same]⟩

/-! ### NVM and the lifetime counts (R463, R525) -/

/-- The second state differs from the first at most in what NVM holds and in the lifetime counts. -/
def NvmFrame (s u : State) : Prop := u = { s with nvm := u.nvm, life := u.life }

theorem NvmFrame.trans {s v u : State} (h : NvmFrame s v) (k : NvmFrame v u) : NvmFrame s u := by
  unfold NvmFrame at *
  rw [k, h]

theorem NvmFrame.bookkept {s u : State} (h : NvmFrame s u) (p : Nat → Prop) : Bookkept p s u := by
  rw [h]
  exact ⟨fun _ _ => rfl, rfl, rfl, rfl, rfl⟩

theorem countErases_nvmFrame (d a n : Nat) (s : State) : NvmFrame s (countErases d a n s) := by
  unfold countErases
  split <;> exact rfl

theorem nvmPages_nvmFrame (a n : Nat) (s : State) : NvmFrame s (nvmPages a n s) := by
  unfold nvmPages
  dsimp only
  have erased : ∀ m v, NvmFrame v ((nvmDevices v).foldl (fun v d => countErases d a m v) v) := fun m v =>
    foldl_related (R := NvmFrame) (fun _ => rfl) .trans _ (fun d _ v => countErases_nvmFrame d a m v) v
  refine NvmFrame.trans ?_ (erased _ _)
  exact rfl

theorem lifeCount_nvmFrame (off n k : Nat) (s : State) : NvmFrame s (lifeCount off n k s) := rfl

theorem lifeMax_nvmFrame (off n v : Nat) (s : State) : NvmFrame s (lifeMax off n v s) := rfl

theorem writeRetire_bookkept (changes : List (Nat × Nat)) (p : Nat → Prop) (s : State) :
    Bookkept p s (writeRetire changes s) := by
  unfold writeRetire
  dsimp only
  refine .trans ?_ ((nvmPages_nvmFrame arRetire 4 _).bookkept p)
  exact ⟨fun _ _ => rfl, rfl, rfl, rfl, rfl⟩

/-- What the retirement record says of a slice once one slice's byte has been written (R273). -/
theorem recordByte_writeRetire (n b m : Nat) (s : State) :
    recordByte (writeRetire [(n, b)] s) m = if m = n then b else recordByte s m := by
  have slices : (writeRetire [(n, b)] s).hbmState.record.slices = tset (fun _ => 0) n b s.hbmState.record.slices := by
    unfold writeRetire
    dsimp only
    rw [nvmPages_nvmFrame arRetire 4 _]
    rfl
  rw [recordByte, slices]
  split
  · next h => rw [h, tget_tset_same]
  · next h => exact tget_tset_of_ne _ h _ _

/-! ### States of slices (R271, R272) -/

/-- The registers that a slice's change of state may change besides the slice's own: the counts of HBM_MAP_STAT, and the
registers of reports. -/
def CountReg (o : Nat) : Prop := o = hbmMapStat ∨ ReportReg o

theorem not_countReg_slice {n : Nat} (hn : n < 768) : ¬ CountReg (hbmSlice n) := by
  rintro (e | e)
  · simp only [hbmSlice, hbmMapStat] at e
    omega
  · exact not_reportReg_of_low (by simp only [hbmSlice]; omega) (by simp only [hbmSlice, ledLogStat]; omega) e

theorem not_countReg_stack {k : Nat} (hk : k < 24) : ¬ CountReg (hbmStackStat k) := by
  rintro (e | e)
  · simp only [hbmStackStat, hbmMapStat] at e
    omega
  · exact not_reportReg_of_low (by simp only [hbmStackStat]; omega) (by simp only [hbmStackStat, ledLogStat]; omega) e

theorem hbmSlice_ne {n m : Nat} (h : m ≠ n) : hbmSlice m ≠ hbmSlice n := by
  simp only [hbmSlice]
  omega

theorem hbmSlice_ne_stack {k : Nat} (hk : k < 24) (n : Nat) : hbmStackStat k ≠ hbmSlice n := by
  simp only [hbmSlice, hbmStackStat]
  omega

theorem countSlices_bookkept (s : State) : Bookkept CountReg s (countSlices s) :=
  (Bookkept.upd (p := CountReg) (.inl rfl) _ _ s).trans (.upd (.inl rfl) _ _ _)

theorem logCoded_bookkept (a b c d e f g : Nat) (s : State) : Bookkept CountReg s (logCoded a b c d e f g s) :=
  (logCoded_reports a b c d e f g s).bookkept fun _ => .inr

/-- The registers that a slice's change of state may change. -/
def SliceReg (n o : Nat) : Prop := o = hbmSlice n ∨ CountReg o

/-- A slice's register takes a state and a cause. -/
def sliceWritten (n st cause : Nat) (s : State) : State :=
  upd (hbmSlice n) HbmSlice.state st (upd (hbmSlice n) HbmSlice.cause cause s)

theorem sliceWritten_bookkept (n st cause : Nat) (s : State) : Bookkept (· = hbmSlice n) s (sliceWritten n st cause s) :=
  (Bookkept.upd_self _ _ _ s).trans (.upd_self _ _ _ _)

theorem sliceState_sliceWritten {st : Nat} (h : st < 4) (n cause : Nat) (s : State) :
    sliceState (sliceWritten n st cause s) n = st :=
  (get_upd_same _ _ _ _ (by decide)).trans (Nat.mod_eq_of_lt h)

theorem cause_sliceWritten {cause : Nat} (h : cause < 8) (n st : Nat) (s : State) :
    get (sliceWritten n st cause s) (hbmSlice n) HbmSlice.cause = cause := by
  rw [sliceWritten, get_upd_other _ _ _ _ _ (by decide) (by decide), get_upd_same _ _ _ _ (by decide)]
  exact Nat.mod_eq_of_lt h

/-- A slice has taken a state and a cause; the other slices, HBM's contents and the requests are as they were. -/
structure SliceTakes (n st cause : Nat) (s u : State) : Prop where
  state : sliceState u n = st
  cause : get u (hbmSlice n) HbmSlice.cause = cause
  others : ∀ m, m < 768 → m ≠ n → sliceState u m = sliceState s m
  hbm : u.hbm = s.hbm
  req : u.req = s.req

/-- A change of a slice writes the record and the slice's register, and then counts and logs. -/
theorem setSlice_bookkept (n st cause : Nat) (s : State) :
    Bookkept (SliceReg n) s (setSlice n st cause s) :=
  (writeRetire_bookkept _ _ s).trans (((sliceWritten_bookkept n st cause _).mono fun _ => .inl).trans
    (((countSlices_bookkept _).trans (logCoded_bookkept _ _ _ _ _ _ _ _)).mono fun _ => .inr))

/-- A change of a slice, made after bookkeeping that touches no slice, is what becomes of the slices. -/
theorem setSlice_takes {n st cause : Nat} (hn : n < 768) (hst : st < 4) (hc : cause < 8) {p : Nat → Prop} {s v : State}
    (h : Bookkept p s v) (hp : ∀ m, m < 768 → ¬ p (hbmSlice m)) : SliceTakes n st cause s (setSlice n st cause v) := by
  have kept := setSlice_bookkept n st cause v
  have after : Bookkept CountReg (sliceWritten n st cause (writeRetire [(n, recordedState st + 4 * cause)] v))
      (setSlice n st cause v) := (countSlices_bookkept _).trans (logCoded_bookkept _ _ _ _ _ _ _ _)
  have same := after.get_eq (not_countReg_slice hn)
  refine ⟨(same _).trans (sliceState_sliceWritten hst _ _ _), (same _).trans (cause_sliceWritten hc _ _ _),
    fun m hm ne => ?_, kept.hbm.trans h.hbm, kept.req.trans h.req⟩
  have apart : ¬ SliceReg n (hbmSlice m) := by
    rintro (e | e)
    · exact hbmSlice_ne ne e
    · exact not_countReg_slice hm e
  exact (kept.get_eq apart _).trans (h.get_eq (hp m hm) _)

end Sys2Proof.Machine
end

section
/-! The statement on the HBM subsystem (R263-R280). -/

namespace Sys2Proof.Machine

open Sys2Proof

/-! ### Stack temperatures (R268) -/

/-- A byte holds a temperature of -128 to 127 °C in two's complement. -/
theorem signed_unsigned_byte {c : Int} (low : -128 ≤ c) (high : c ≤ 127) : signed 8 (unsigned 8 c % 2 ^ 8) = c := by
  simp only [signed, unsigned, Nat.testBit_eq_decide_div_mod_eq, decide_eq_true_eq]
  split <;> omega

theorem refreshFor_lt (c : Int) : refreshFor c < 4 := by
  unfold refreshFor
  split
  · decide
  · split <;> decide

/-- The registers that a stack's temperature may change: its HBM_STACK_STAT, and the registers of reports. -/
def StackReg (k o : Nat) : Prop := o = hbmStackStat k ∨ ReportReg o

theorem noteOndie_bookkept (k n : Nat) (s : State) : Bookkept (· = hbmStackStat k) s (noteOndie k n s) := by
  unfold noteOndie
  refine .trans ?_ (.satAdd_self _ _ _ _)
  exact ⟨fun _ _ => rfl, rfl, rfl, rfl, rfl⟩

theorem notePar_bookkept (k n : Nat) (s : State) : Bookkept (· = hbmStackStat k) s (notePar k n s) := by
  unfold notePar
  refine .trans ?_ (.satAdd_self _ _ _ _)
  exact ⟨fun _ _ => rfl, rfl, rfl, rfl, rfl⟩

/-- The counts of PARITY and ONDIE leave the lower fields of HBM_STACK_STAT. -/
theorem get_errorsNoted {f : Fld} (hf : f.lo + f.w ≤ 48) (k n m : Nat) (s : State) :
    get (notePar k n (noteOndie k m s)) (hbmStackStat k) f = get s (hbmStackStat k) f := by
  have par : ∀ v, get (notePar k n v) (hbmStackStat k) f = get v (hbmStackStat k) f := fun v =>
    get_upd_other _ _ _ _ _ (by omega) (.inr hf)
  have ondie : get (noteOndie k m s) (hbmStackStat k) f = get s (hbmStackStat k) f :=
    get_upd_other _ _ _ _ _ (by omega) (.inr (Nat.le_trans hf (by decide)))
  rw [par, ondie]

/-- What a reading of a stack's temperature may do to its refresh rate: TEMP stays, and a higher rate that is asked for
applies. -/
structure RefreshTakes (k : Nat) (c : Int) (s u : State) : Prop where
  kept : Bookkept (StackReg k) s u
  temp : get u (hbmStackStat k) HbmStackStat.temp = get s (hbmStackStat k) HbmStackStat.temp
  raised : get s (hbmStackStat k) HbmStackStat.refresh < refreshFor c →
    get u (hbmStackStat k) HbmStackStat.refresh = refreshFor c

theorem setRefresh_bookkept (k rate : Nat) (s : State) : Bookkept (StackReg k) s (setRefresh k rate s) := by
  have stat : ∀ f x v, Bookkept (StackReg k) v (upd (hbmStackStat k) f x v) := fun f x v => .upd (.inl rfl) f x v
  have fields := (stat HbmStackStat.refresh rate s).trans (stat HbmStackStat.hot (b2n (rate == 2)) _)
  exact .ite (fields.trans ((logOpen_reports _ _ _ _ _ _ _).bookkept fun _ => .inr)) fields

theorem rd_setRefresh {k : Nat} (hk : k < 24) (rate : Nat) (s : State) :
    rd (setRefresh k rate s) (hbmStackStat k) =
      setF (setF (rd s (hbmStackStat k)) HbmStackStat.refresh rate) HbmStackStat.hot (b2n (rate == 2)) := by
  have fields : ∀ v, rd (upd (hbmStackStat k) HbmStackStat.hot (b2n (rate == 2)) (upd (hbmStackStat k)
      HbmStackStat.refresh rate v)) (hbmStackStat k) =
      setF (setF (rd v (hbmStackStat k)) HbmStackStat.refresh rate) HbmStackStat.hot (b2n (rate == 2)) := fun v => by
    rw [upd, rd_put_same, upd, rd_put_same]
  unfold setRefresh
  dsimp only
  split
  · rw [rd_logOpen fun e => not_countReg_stack hk (.inr e), fields]
  · rw [fields]

theorem get_setRefresh_temp {k : Nat} (hk : k < 24) (rate : Nat) (s : State) :
    get (setRefresh k rate s) (hbmStackStat k) HbmStackStat.temp = get s (hbmStackStat k) HbmStackStat.temp := by
  rw [get, rd_setRefresh hk, getF_setF_other _ _ _ _ (by decide) (by decide),
    getF_setF_other _ _ _ _ (by decide) (by decide), ← get]

theorem get_setRefresh_refresh {k : Nat} (hk : k < 24) {rate : Nat} (hr : rate < 4) (s : State) :
    get (setRefresh k rate s) (hbmStackStat k) HbmStackStat.refresh = rate := by
  rw [get, rd_setRefresh hk, getF_setF_other _ _ _ _ (by decide) (by decide), getF_setF_same _ _ _ (by decide)]
  exact Nat.mod_eq_of_lt hr

theorem stepRefresh_takes {k : Nat} (hk : k < 24) (c : Int) (s : State) : RefreshTakes k c s (stepRefresh k c s) := by
  have cool : ∀ x, Bookkept (StackReg k) s (setStackCool k x s) := fun _ => ⟨fun _ _ => rfl, rfl, rfl, rfl, rfl⟩
  have set : ∀ rate, Bookkept (StackReg k) s (setRefresh k rate (setStackCool k none s)) := fun rate =>
    (cool none).trans (setRefresh_bookkept k rate _)
  unfold stepRefresh
  dsimp only
  by_cases up : get s (hbmStackStat k) HbmStackStat.refresh < refreshFor c
  · rw [if_pos up]
    exact ⟨set _, get_setRefresh_temp hk _ _, fun _ => get_setRefresh_refresh hk (refreshFor_lt c) _⟩
  · rw [if_neg up]
    split
    · exact ⟨cool none, rfl, fun h => absurd h up⟩
    · split
      · exact ⟨cool _, rfl, fun h => absurd h up⟩
      · split
        · exact ⟨set _, get_setRefresh_temp hk _ _, fun h => absurd h up⟩
        · exact ⟨.refl _ _, rfl, fun h => absurd h up⟩

theorem winterCause_bookkept (bit : Nat) (s : State) : Bookkept (· = pwrState) s (winterCause bit s) := by
  unfold winterCause
  dsimp only
  split
  · exact .refl _ s
  · exact .trans (.upd_self _ PwrState.winterCause _ s) ⟨fun _ _ => rfl, rfl, rfl, rfl, rfl⟩

theorem winterClear_bookkept (bit : Nat) (s : State) : Bookkept (· = pwrState) s (winterClear bit s) := by
  have lowered : ∀ x, Bookkept (· = pwrState) s (upd pwrState PwrState.winterCause x s) := fun x =>
    .upd_self _ _ x s
  unfold winterClear
  dsimp only
  split
  · exact .ite ((lowered _).trans ⟨fun _ _ => rfl, rfl, rfl, rfl, rfl⟩) (lowered _)
  · exact .refl _ s

theorem completes_stackTempRead {k : StackId} {c : Int} {s : State} (on : On s) (low : -128 ≤ c) (high : c ≤ 127)
    (ondie repeats : Nat) :
    Completes (.stackTempRead k c ondie repeats) s fun u => signed 8 (get u (hbmStackStat k) HbmStackStat.temp) = c ∧
      (get s (hbmStackStat k) HbmStackStat.refresh < refreshFor c →
        get u (hbmStackStat k) HbmStackStat.refresh = refreshFor c) ∧ u.hbm = s.hbm ∧ u.tiles = s.tiles ∧
      u.req = s.req := by
  refine ⟨_, rfl, ?_⟩
  rw [powered_on on]
  dsimp only
  have noted : Bookkept (StackReg k) s (notePar k repeats (noteOndie k ondie s)) :=
    ((noteOndie_bookkept k ondie s).trans (notePar_bookkept k repeats _)).mono fun _ => .inl
  have rate := get_errorsNoted (f := HbmStackStat.refresh) (by decide) k repeats ondie s
  generalize notePar k repeats (noteOndie k ondie s) = v at noted rate ⊢
  have stored := Bookkept.upd (p := StackReg k) (.inl rfl) HbmStackStat.temp (unsigned 8 c) v
  have temp := get_upd_same (hbmStackStat k) HbmStackStat.temp (unsigned 8 c) v (by decide)
  have rate' := get_upd_other (hbmStackStat k) HbmStackStat.temp HbmStackStat.refresh (unsigned 8 c) v (by decide)
    (by decide)
  generalize upd (hbmStackStat k) HbmStackStat.temp (unsigned 8 c) v = w at stored temp rate' ⊢
  obtain ⟨kept, temp', raised⟩ := stepRefresh_takes k.isLt c w
  generalize stepRefresh k c w = x at kept temp' raised ⊢
  have judged : ∀ (hot : Bool) (y : State), Bookkept (· = pwrState) y
      (if hot = true then winterCause 1 y else if stacksCool y = true then winterClear 1 y else y) := fun hot y =>
    .ite (winterCause_bookkept 1 y) (.ite (winterClear_bookkept 1 y) (.refl _ y))
  have final := ((lifeMax_nvmFrame (1056 + 24 * k + 22) 1 c.toNat x).bookkept (· = pwrState)).trans
    (judged (decide (105 < c) && decide (105 < signed 8 (get s (hbmStackStat k) HbmStackStat.temp))) _)
  have apart : hbmStackStat k ≠ pwrState := by
    simp only [hbmStackStat, pwrState]
    omega
  refine ⟨?_, fun asks => ?_, ?_, ?_, ?_⟩
  · rw [final.get_eq apart, temp', temp]
    exact signed_unsigned_byte low high
  · rw [final.get_eq apart, raised (by rwa [rate', rate])]
  · rw [final.hbm, kept.hbm, stored.hbm, noted.hbm]
  · rw [final.tiles, kept.tiles, stored.tiles, noted.tiles]
  · rw [final.req, kept.req, stored.req, noted.req]

/-! ### The patrol (R265, R270) -/

theorem foldl_upsetBurst_same (upset : List CellError) (s : State) :
    ∃ h, upset.foldl upsetBurst s = { s with hbmState := h } :=
  foldl_related (R := fun s u => ∃ h, u = { s with hbmState := h }) (fun s => ⟨s.hbmState, rfl⟩)
    (fun ⟨_, hv⟩ ⟨k, hu⟩ => ⟨k, by rw [hu, hv]⟩) upset (fun _ _ _ => ⟨_, rfl⟩) s

/-- Addresses of one block have one home (R261). -/
theorem home_of_same_block {a b : Nat} (h : a / 256 = b / 256) (s : State) : home s a = home s b := by
  simp only [home, homeWith, h]

theorem mem_errsIn {s : State} {a n : Nat} {e : Nat × BurstErr} (h : e ∈ errsIn s a n) :
    a < e.1 * 32 + 32 ∧ e.1 * 32 < a + n := by
  simpa [errsIn] using (List.mem_filter.mp h).2

theorem hbmRead_eq_cellsRead (s : State) : ∀ n a : Nat, hbmRead s a n = cellsRead s.hbm a n
  | 0, _ => rfl
  | n + 1, a => by
    rw [hbmRead, hbmRead_eq_cellsRead s n (a + 1)]
    rfl

theorem hbmRead_hbmWrite_same {bs : List Byte} {n : Nat} (h : bs.length = n) (a : Nat) (s : State) :
    hbmRead (hbmWrite a bs s) a n = bs := by
  have inside := cellsRead_storeBytes_inside (a := a) (bs := bs) s.hbm n 0 (by omega)
  rw [hbmRead_eq_cellsRead, hbmWrite_hbm]
  simpa [← h] using inside

theorem length_deliveredBurst (cs : List Nat) (o : RsOutcome) : (deliveredBurst cs o).length = 32 := by
  cases o <;> simp [deliveredBurst, symbolsBurst]

/-- A burst that the decoder has corrected: what it delivers is written back, and the burst is no longer in error. -/
def burstCorrected (b : Nat) (bs : List Byte) (s : State) : State := setBurst b {} (hbmWrite (32 * b) bs s)

theorem readBurst_corrected {s : State} {b i v : Nat} {e : BurstErr} (serves : homeFailed s (b * 32) = false)
    (soft : e.hard = false) (outcome : outcomeOf s b e = .corrected i v) :
    readBurst s (b, e) = noteCorrected (b * 32)
      (burstCorrected b (deliveredBurst (receivedBurst (hbmRead s (32 * b) 32) e) (.corrected i v)) s) := by
  have decoded : rsDecode (receivedBurst (hbmRead s (32 * b) 32) e) = .corrected i v := outcome
  simp only [readBurst, serves, decoded, rewriteBurst, soft, Bool.false_eq_true, if_false, burstCorrected]

/-- Beyond the count of the stack, a correction touches the slice's register and what a mark of the slice touches. -/
theorem noteCorrected_bookkept {a n : Nat} {s : State} (homed : (home s a).1 = n) :
    Bookkept (SliceReg n) (satAdd (hbmStackStat (n / 32)) HbmStackStat.ce 1 s) (noteCorrected a s) := by
  subst homed
  generalize hc : satAdd (hbmStackStat ((home s a).1 / 32)) HbmStackStat.ce 1 s = counted
  have lives : ∀ i k, Bookkept (SliceReg (home s a).1) counted (lifeCount i 4 1 (lifeCount k 2 1 counted)) := fun i k =>
    ((lifeCount_nvmFrame k 2 1 counted).trans (lifeCount_nvmFrame i 4 1 _)).bookkept _
  have blocks : ∀ l v, Bookkept (SliceReg (home s a).1) v { v with hbmState := { v.hbmState with ceBlocks := l } } :=
    fun _ _ => ⟨fun _ _ => rfl, rfl, rfl, rfl, rfl⟩
  have seen : ∀ x v, Bookkept (SliceReg (home s a).1) v (upd (hbmSlice (home s a).1) HbmSlice.ce24h x v) :=
    fun x v => .upd (.inl rfl) HbmSlice.ce24h x v
  have noted := fun i k l x => ((lives i k).trans (blocks l _)).trans (seen x _)
  unfold noteCorrected
  dsimp only
  rw [hc]
  exact .ite ((noted _ _ _ _).trans (setSlice_bookkept _ _ _ _)) (noted _ _ _ _)

theorem noteCorrected_ce {a n : Nat} (hn : n < 768) {s : State} (homed : (home s a).1 = n) :
    get (noteCorrected a s) (hbmStackStat (n / 32)) HbmStackStat.ce =
      min (2 ^ HbmStackStat.ce.w - 1) (get s (hbmStackStat (n / 32)) HbmStackStat.ce + 1) := by
  have hk : n / 32 < 24 := by omega
  have apart : ¬ SliceReg n (hbmStackStat (n / 32)) := by
    rintro (e | e)
    · exact hbmSlice_ne_stack hk n e
    · exact not_countReg_stack hk e
  rw [(noteCorrected_bookkept homed).get_eq apart, get_satAdd_same (by decide)]

section Patrol

variable {n : SliceId} {block b i v : Nat} {e : BurstErr} {upset : List CellError} {s s' : State}
  (on : On s) (phase : devState s ≠ .spring) (hours : get s hbmCtrl HbmCtrl.scrubHours ≠ 0)
  (inside : 256 * block < installed s) (homed : (home s (256 * block)).1 = n.val) (serves : sliceState s n ≠ slFailed)
  (hs' : s' = upset.foldl upsetBurst s) (single : errsIn s' (256 * block) 256 = [(b, e)])

include on phase hours inside homed serves hs' single

/-- The patrol of a block with one burst in error reads that burst. -/
theorem exec_hbmScrub_single : exec (.hbmScrub n block upset) s = .next (readBurst s' (b, e)) := by
  have patrols : devState s' ≠ .spring ∧ get s' hbmCtrl HbmCtrl.scrubHours ≠ 0 ∧ 256 * block < installed s' ∧
      (home s' (256 * block)).1 = n.val ∧ sliceState s' n ≠ slFailed := by
    obtain ⟨h, same⟩ := foldl_upsetBurst_same upset s
    rw [hs', same]
    exact ⟨phase, hours, inside, homed, serves⟩
  show Host.Outcome.next (powered _ s) = _
  rw [powered_on on]
  dsimp only
  rw [← hs', if_pos patrols, hbmTouch, single]
  rfl

theorem completes_hbmScrub (reads : homeFailed s (b * 32) = false) (soft : e.hard = false)
    (outcome : outcomeOf s b e = .corrected i v) :
    Completes (.hbmScrub n block upset) s fun u => burstErr u b = {} ∧
      hbmRead u (32 * b) 32 = deliveredBurst (receivedBurst (hbmRead s (32 * b) 32) e) (.corrected i v) ∧
      HbmBut (32 * b) 32 s u ∧
      get u (hbmStackStat (n / 32)) HbmStackStat.ce =
        min (2 ^ HbmStackStat.ce.w - 1) (get s (hbmStackStat (n / 32)) HbmStackStat.ce + 1) ∧
      u.tiles = s.tiles ∧ u.req = s.req := by
  refine ⟨_, exec_hbmScrub_single on phase hours inside homed serves hs' single, ?_⟩
  have inBlock : b * 32 / 256 = 256 * block / 256 := by
    obtain ⟨above, below⟩ := mem_errsIn (single ▸ List.mem_singleton_self (b, e))
    omega
  obtain ⟨h, same⟩ := foldl_upsetBurst_same upset s
  rw [← hs'] at same
  have read : hbmRead s' (32 * b) 32 = hbmRead s (32 * b) 32 := hbmRead_congr (by rw [same]) _ _
  rw [readBurst_corrected (s := s') (by rw [same]; exact reads) soft (by rw [outcomeOf, read, ← outcomeOf]; exact outcome),
    read]
  have length := length_deliveredBurst (receivedBurst (hbmRead s (32 * b) 32) e) (.corrected i v)
  generalize deliveredBurst (receivedBurst (hbmRead s (32 * b) 32) e) (.corrected i v) = bs at length ⊢
  subst same
  have home' : (home (burstCorrected b bs { s with hbmState := h }) (b * 32)).1 = n.val :=
    (congrArg Prod.fst (home_of_same_block inBlock s)).trans homed
  have noted := noteCorrected_bookkept home'
  refine ⟨?_, ?_, fun a outside => ?_, noteCorrected_ce n.isLt home', noted.tiles, noted.req⟩
  · rw [burstErr, noted.errs]
    exact tget_tset_same _ _ _ _
  · rw [hbmRead_congr noted.hbm]
    exact hbmRead_hbmWrite_same length (32 * b) s
  · rw [hbmByte, noted.hbm]
    exact hbmByte_hbmWrite_outside (32 * b) a bs s (by rwa [length])

end Patrol

/-! ### Channel failure (R271) -/

theorem completes_hbmChannelFail {n : SliceId} {k : Nat} {s : State} (on : On s) (many : 16 ≤ k)
    (serves : sliceState s n = slInService ∨ sliceState s n = slMarked) :
    Completes (.hbmChannelFail n k) s fun u => SliceTakes n slFailed rcChannel s u := by
  have noted := notePar_bookkept (n / 32) (4 * k) s
  have apart : ∀ m, m < 768 → hbmSlice m ≠ hbmStackStat (n / 32) := fun m _ =>
    (hbmSlice_ne_stack (k := n / 32) (by omega) m).symm
  have serves' : sliceState (notePar (n / 32) (4 * k) s) n = sliceState s n := noted.get_eq (apart n n.isLt) _
  refine ⟨_, rfl, ?_⟩
  rw [powered_on on]
  dsimp only
  rw [if_pos ⟨many, by rwa [serves']⟩]
  exact setSlice_takes n.isLt (by decide) (by decide) noted apart

/-! ### Commands of the owner (R272, R277) -/

section OwnerCommands

variable {m : Master} {n : Nat} {s : State}

theorem settle_hbm (s : State) : (settle s).hbm = s.hbm := by rw [settle_ownFrame s]

theorem powered_asOwner (on : On s) (own : owner (settle s) = some m) (off width : Nat) (f : State → State) :
    powered (asOwner m off width f) s = f (settle s) := by
  rw [powered_on on, asOwner_owner own]

theorem exec_mark (on : On s) (own : owner (settle s) = some m) (n : Nat) :
    exec (.mark m n) s = .next (retireCmdWrite m n 1 (settle s)) :=
  congrArg Host.Outcome.next (powered_asOwner on own _ _ _)

theorem exec_unmark (on : On s) (own : owner (settle s) = some m) (n : Nat) :
    exec (.unmark m n) s = .next (retireCmdWrite m n 2 (settle s)) :=
  congrArg Host.Outcome.next (powered_asOwner on own _ _ _)

theorem exec_restore (on : On s) (own : owner (settle s) = some m) (n : Nat) :
    exec (.restore m n) s = .next (retireCmdWrite m n 3 (settle s)) :=
  congrArg Host.Outcome.next (powered_asOwner on own _ _ _)

theorem setRetireCmd_bookkept (n op : Nat) (s : State) : Bookkept (· = hbmRetireCmd) s (setRetireCmd n op s) :=
  (Bookkept.upd_self _ _ _ s).trans (.upd_self _ _ _ _)

theorem hbmSlice_ne_retireCmd (n : Nat) : hbmSlice n ≠ hbmRetireCmd := by
  simp only [hbmSlice, hbmRetireCmd]
  omega

theorem refusedWrite_reports (m : Master) (off width : Nat) (s : State) : Reports s (refusedWrite m off width s) :=
  logAccess_reports _ _ _ _ _ _

theorem retireCmdWrite_mark (hn : n < 768) (fits : sliceState s n = slInService) :
    SliceTakes n slMarked rcOwner s (retireCmdWrite m n 1 s) := by
  rw [show retireCmdWrite m n 1 s = setSlice n slMarked rcOwner (setRetireCmd n 1 s) from if_pos ⟨hn, fits⟩]
  exact setSlice_takes hn (by decide) (by decide) (setRetireCmd_bookkept n 1 s) fun k _ => hbmSlice_ne_retireCmd k

theorem retireCmdWrite_mark_refused (misfit : sliceState s n ≠ slInService) :
    Reports s (retireCmdWrite m n 1 s) := by
  rw [show retireCmdWrite m n 1 s = refusedWrite m hbmRetireCmd 32 s from if_neg fun h => misfit h.2]
  exact refusedWrite_reports _ _ _ _

theorem retireCmdWrite_unmark (hn : n < 768) (fits : unmarkFits s n = true) :
    SliceTakes n slInService 0 s (retireCmdWrite m n 2 s) := by
  rw [show retireCmdWrite m n 2 s = setSlice n slInService 0 (setRetireCmd n 2 s) from if_pos ⟨hn, fits⟩]
  exact setSlice_takes hn (by decide) (by decide) (setRetireCmd_bookkept n 2 s) fun k _ => hbmSlice_ne_retireCmd k

theorem retireCmdWrite_unmark_refused (misfit : unmarkFits s n = false) : Reports s (retireCmdWrite m n 2 s) := by
  have misfit' : ¬ (n < 768 ∧ unmarkFits s n = true) := fun h => by simp [misfit] at h
  rw [show retireCmdWrite m n 2 s = refusedWrite m hbmRetireCmd 32 s from if_neg misfit']
  exact refusedWrite_reports _ _ _ _

/-- A restore that fits is noted in the slice's byte of the record, and the slice stays RETIRED. -/
theorem retireCmdWrite_restore (hn : n < 768) (retired : sliceState s n = slRetired) (new : recordByte s n % 4 ≠ 3) :
    recordByte (retireCmdWrite m n 3 s) n % 4 = 3 ∧ sliceState (retireCmdWrite m n 3 s) n = slRetired ∧
      (∀ n', n' ≠ n → recordByte (retireCmdWrite m n 3 s) n' = recordByte s n') ∧
      (retireCmdWrite m n 3 s).hbm = s.hbm ∧ (retireCmdWrite m n 3 s).req = s.req := by
  rw [show retireCmdWrite m n 3 s = writeRetire [(n, 3 + 4 * get s (hbmSlice n) HbmSlice.cause)] (setRetireCmd n 3 s) from
    if_pos ⟨hn, retired, new⟩]
  generalize hb : 3 + 4 * get s (hbmSlice n) HbmSlice.cause = byte
  have kept := (setRetireCmd_bookkept n 3 s).trans (writeRetire_bookkept [(n, byte)] _ _)
  refine ⟨?_, (kept.get_eq (hbmSlice_ne_retireCmd n) _).trans retired, fun n' ne => ?_, kept.hbm, kept.req⟩
  · rw [recordByte_writeRetire, if_pos rfl]
    omega
  · rw [recordByte_writeRetire, if_neg ne]
    rfl

end OwnerCommands

/-! ### The memory test (R272, R274, R275) -/

/-- What the end of the test makes of a slice stands in its register; counts of the lifetime record and the log follow. -/
theorem applyTested_bookkept (s : State) (e : Nat × (Nat × Nat)) :
    Bookkept CountReg (sliceWritten e.1 e.2.1 e.2.2 s) (applyTested s e) := by
  have life : ∀ i v, Bookkept CountReg (sliceWritten e.1 e.2.1 e.2.2 s)
      (lifeSet i 1 v (sliceWritten e.1 e.2.1 e.2.2 s)) := fun _ _ => ⟨fun _ _ => rfl, rfl, rfl, rfl, rfl⟩
  exact .trans (.ite (life _ _) (.refl _ _)) (logCoded_bookkept _ _ _ _ _ _ _ _)

/-- The registers of a list of slices, and the counts. -/
def TestedReg (l : List (Nat × (Nat × Nat))) (o : Nat) : Prop := (∃ e ∈ l, o = hbmSlice e.1) ∨ CountReg o

theorem foldl_applyTested_bookkept (l : List (Nat × (Nat × Nat))) (s : State) :
    Bookkept (TestedReg l) s (l.foldl applyTested s) :=
  foldl_related (.refl _) .trans l (fun e he v => ((sliceWritten_bookkept _ _ _ v).mono fun _ ho => .inl ⟨e, he, ho⟩).trans
    ((applyTested_bookkept v e).mono fun _ => .inr)) s

/-- A slice that the outcomes retire, and do nothing else with, is RETIRED once one of them has been applied. -/
theorem sliceState_foldl_applyTested {n : Nat} (hn : n < 768) : ∀ (l : List (Nat × (Nat × Nat))) (s : State),
    (∀ e ∈ l, e.1 = n → e.2.1 = slRetired) → (sliceState s n = slRetired ∨ ∃ e ∈ l, e.1 = n) →
    sliceState (l.foldl applyTested s) n = slRetired
  | [], s, _, h => h.resolve_right (by simp)
  | e :: l, s, only, h => by
    have after : sliceState (applyTested s e) n = sliceState (sliceWritten e.1 e.2.1 e.2.2 s) n :=
      (applyTested_bookkept s e).get_eq (not_countReg_slice hn) _
    refine sliceState_foldl_applyTested hn l _ (fun x hx => only x (List.mem_cons_of_mem _ hx)) ?_
    rw [after]
    by_cases he : e.1 = n
    · left
      rw [only e List.mem_cons_self he, ← he]
      exact sliceState_sliceWritten (by decide) _ _ _
    · refine h.imp (fun retired => ?_) fun ⟨x, hx, hxn⟩ => ⟨x, ?_, hxn⟩
      · exact ((sliceWritten_bookkept _ _ _ s).get_eq (hbmSlice_ne (Ne.symm he)) _).trans retired
      · exact (List.mem_cons.mp hx).resolve_left fun same => he (same ▸ hxn)

theorem testedSlice_leaving {s : State} {n : Nat} (h : sliceState s n = slMarked ∨ sliceState s n = slFailed) (mode : Nat)
    (failed : List Nat) : (testedSlice s mode failed n).1 = slRetired := by
  simp only [testedSlice, if_pos h]

/-- What the test makes of each slice. -/
def testedSlices (mode : Nat) (failed : List Nat) (s : State) : List (Nat × (Nat × Nat)) :=
  (List.range 768).map fun n => (n, testedSlice s mode failed n)

/-- The slices that the test changes. -/
def testChanged (mode : Nat) (failed : List Nat) (s : State) : List (Nat × (Nat × Nat)) :=
  (testedSlices mode failed s).filter fun e =>
    e.2.1 != sliceState s e.1 || e.2.2 != get s (hbmSlice e.1) HbmSlice.cause

theorem mem_testChanged {mode : Nat} {failed : List Nat} {s : State} {e : Nat × (Nat × Nat)}
    (h : e ∈ testChanged mode failed s) : e.2 = testedSlice s mode failed e.1 := by
  obtain ⟨n, -, rfl⟩ := List.mem_map.mp (List.mem_filter.mp h).1
  rfl

/-- A slice that is MARKED or FAILED is among those that change. -/
theorem exists_testChanged {mode n : Nat} {failed : List Nat} {s : State} (hn : n < 768)
    (h : sliceState s n = slMarked ∨ sliceState s n = slFailed) : ∃ e ∈ testChanged mode failed s, e.1 = n := by
  refine ⟨(n, testedSlice s mode failed n), List.mem_filter.mpr ⟨List.mem_map.mpr ⟨n, List.mem_range.mpr hn, rfl⟩, ?_⟩, rfl⟩
  have leaves : slRetired ≠ sliceState s n := by
    rcases h with e | e <;> rw [e] <;> decide
  simp [testedSlice_leaving h, leaves]

/-- The slices whose byte of the retirement record is written: the ones that change, and the ones whose restore the test
has answered. -/
def testWritten (mode : Nat) (failed : List Nat) (s : State) : List (Nat × (Nat × Nat)) :=
  (testedSlices mode failed s).filter fun e =>
    (testChanged mode failed s).contains e || (mode != 2 && recordByte s e.1 % 4 == 3)

/-- The retirement record takes what the test makes of the slices. -/
def testRecorded (mode : Nat) (failed : List Nat) (s : State) : State :=
  if (testWritten mode failed s).isEmpty then s
  else writeRetire ((testWritten mode failed s).map fun e => (e.1, recordedState e.2.1 + 4 * e.2.2)) s

/-- After the record, the slices take what the test makes of them, and are counted. -/
def testApplied (mode : Nat) (failed : List Nat) (s : State) : State :=
  countSlices ((testChanged mode failed s).foldl applyTested (testRecorded mode failed s))

theorem testApplied_bookkept (mode : Nat) (failed : List Nat) (s : State) :
    Bookkept (TestedReg (testChanged mode failed s)) s (testApplied mode failed s) :=
  (Bookkept.ite (.refl _ s) (writeRetire_bookkept _ _ s)).trans
    ((foldl_applyTested_bookkept _ _).trans ((countSlices_bookkept _).mono fun _ => .inr))

theorem sliceState_testApplied {n : Nat} {s : State} (hn : n < 768)
    (h : sliceState s n = slMarked ∨ sliceState s n = slFailed) (mode : Nat) (failed : List Nat) :
    sliceState (testApplied mode failed s) n = slRetired := by
  have applied := sliceState_foldl_applyTested hn (testChanged mode failed s) (testRecorded mode failed s)
    (fun e he same => by rw [mem_testChanged he, same]; exact testedSlice_leaving h mode failed)
    (.inr (exists_testChanged hn h))
  exact ((countSlices_bookkept _).get_eq (not_countReg_slice hn) _).trans applied

/-- HBM_MAP_STAT and HBM_TEST_STAT take what the test found. -/
def testStated (mode k newly rows ms : Nat) (s : State) : State :=
  let s := upd hbmMapStat HbmMapStat.retired k s
  let s := upd hbmMapStat HbmMapStat.hostTop (reservedBase s / 4096) s
  let s := upd hbmTestStat HbmTestStat.mode mode (upd hbmTestStat HbmTestStat.retiredNow newly s)
  upd hbmTestStat HbmTestStat.pprRows rows (upd hbmTestStat HbmTestStat.duration ms s)

theorem testStated_bookkept (mode k newly rows ms : Nat) (s : State) :
    Bookkept (fun o => o = hbmMapStat ∨ o = hbmTestStat) s (testStated mode k newly rows ms s) := by
  have map : ∀ f x v, Bookkept (fun o => o = hbmMapStat ∨ o = hbmTestStat) v (upd hbmMapStat f x v) :=
    fun f x v => .upd (.inl rfl) f x v
  have test : ∀ f x v, Bookkept (fun o => o = hbmMapStat ∨ o = hbmTestStat) v (upd hbmTestStat f x v) :=
    fun f x v => .upd (.inr rfl) f x v
  exact (map _ _ s).trans ((map _ _ _).trans ((test _ _ _).trans ((test _ _ _).trans ((test _ _ _).trans (test _ _ _)))))

/-- Every engine has cleared its blocks, and step 11 of SPRING is done. -/
def testCleared (s : State) : State :=
  { s with hbm := [], hbmState := { s.hbmState with errs := [], ceBlocks := [] }
           boot := { s.boot with steps := s.boot.steps ++ [11] } }

/-- Clearing leaves no byte and no error in HBM; slices, tiles and requests are as they were. -/
theorem testCleared_clears (s : State) : (∀ a, hbmByte (testCleared s) a = 0) ∧ (testCleared s).hbmState.errs = [] ∧
    11 ∈ (testCleared s).boot.steps ∧ (∀ n, sliceState (testCleared s) n = sliceState s n) ∧
    (testCleared s).tiles = s.tiles ∧ (testCleared s).req = s.req :=
  ⟨fun _ => rfl, rfl, List.mem_append_right _ List.mem_cons_self, fun _ => rfl, rfl, rfl⟩

theorem exec_hbmMemoryTestDone {s : State} (on : On s) (spring : devState s = .spring) (due : 10 ∈ s.boot.steps)
    (first : 11 ∉ s.boot.steps) (failed : List SliceId) (rows ms : Nat) :
    ∃ k newly, exec (.hbmMemoryTestDone failed rows ms) s =
      .next (testCleared (testStated (testMode s) k newly rows ms (testApplied (testMode s) (failed.map (·.val)) s))) := by
  have runs : ¬ (devState s != .spring || (!s.boot.steps.contains 10 || s.boot.steps.contains 11)) = true := by
    simp [spring, due, first]
  refine ⟨((testedSlices (testMode s) (failed.map (·.val)) s).filter fun e => e.2.1 == slRetired).length,
    ((testChanged (testMode s) (failed.map (·.val)) s).filter fun e => e.2.1 == slRetired && e.2.2 == rcTest).length, ?_⟩
  show Host.Outcome.next (powered _ s) = _
  rw [powered_on on]
  dsimp only
  rw [if_neg runs, testApplied, testRecorded, testWritten, testChanged, testedSlices]
  rfl

theorem completes_hbmMemoryTestDone {s : State} (on : On s) (spring : devState s = .spring) (due : 10 ∈ s.boot.steps)
    (first : 11 ∉ s.boot.steps) (failed : List SliceId) (rows ms : Nat) :
    Completes (.hbmMemoryTestDone failed rows ms) s fun u => (∀ a, hbmByte u a = 0) ∧ u.hbmState.errs = [] ∧
      11 ∈ u.boot.steps ∧ (∀ n, n < 768 → (sliceState s n = slMarked ∨ sliceState s n = slFailed) →
        sliceState u n = slRetired) ∧ u.tiles = s.tiles ∧ u.req = s.req := by
  obtain ⟨k, newly, done⟩ := exec_hbmMemoryTestDone on spring due first failed rows ms
  refine ⟨_, done, ?_⟩
  have applied := testApplied_bookkept (testMode s) (failed.map (·.val)) s
  have stated := testStated_bookkept (testMode s) k newly rows ms (testApplied (testMode s) (failed.map (·.val)) s)
  obtain ⟨zero, noErrs, step, slices, tiles, req⟩ :=
    testCleared_clears (testStated (testMode s) k newly rows ms (testApplied (testMode s) (failed.map (·.val)) s))
  have apart : ∀ n, n < 768 → ¬ (hbmSlice n = hbmMapStat ∨ hbmSlice n = hbmTestStat) := by
    simp only [hbmSlice, hbmMapStat, hbmTestStat]
    omega
  refine ⟨zero, noErrs, step, fun n hn leaves => ?_, tiles.trans (stated.tiles.trans applied.tiles),
    req.trans (stated.req.trans applied.req)⟩
  exact (slices n).trans ((stated.get_eq (apart n hn) _).trans (sliceState_testApplied hn leaves _ _))

/-- Settles O39, clause by clause: the bookkeeping around a correction, a slice's change, a command and the test touches
neither HBM's contents nor the slices' own registers, so what each clause states is read off the one write it is about. -/
theorem hbmSubsystem : Obligations.HbmSubsystem := by
  unfold Obligations.HbmSubsystem
  refine ⟨?_, ?_, fun n k s on many serves => ?_, fun m n s on own hn => ⟨fun fits => ?_, fun misfit => ?_, fun fits => ?_,
    fun misfit => ?_, fun retired new => ?_⟩, ?_⟩
  · exact fun k c ondie repeats s on low high => completes_stackTempRead on low high ondie repeats
  · exact fun n block b i v e upset s s' on phase hours inside homed serves hs' single reads soft outcome =>
      completes_hbmScrub on phase hours inside homed serves hs' single reads soft outcome
  · obtain ⟨u, hu, takes⟩ := completes_hbmChannelFail on many serves
    exact ⟨u, hu, takes.state, takes.cause, takes.others, takes.hbm, takes.req⟩
  · have takes := retireCmdWrite_mark (m := m) hn fits
    exact ⟨_, exec_mark on own n, takes.state, takes.cause, takes.others, takes.hbm.trans (settle_hbm s),
      takes.req.trans (settle_req s)⟩
  · exact ⟨_, exec_mark on own n, retireCmdWrite_mark_refused misfit⟩
  · have takes := retireCmdWrite_unmark (m := m) hn fits
    exact ⟨_, exec_unmark on own n, takes.state, takes.others, takes.hbm.trans (settle_hbm s),
      takes.req.trans (settle_req s)⟩
  · exact ⟨_, exec_unmark on own n, retireCmdWrite_unmark_refused misfit⟩
  · obtain ⟨noted, stays, others, hbm, req⟩ := retireCmdWrite_restore (m := m) hn retired new
    exact ⟨_, exec_restore on own n, noted, stays, others, hbm.trans (settle_hbm s), req.trans (settle_req s)⟩
  · exact fun failed rows ms s on spring due first => completes_hbmMemoryTestDone on spring due first failed rows ms

end Sys2Proof.Machine
end

section
/-! Link ports: what a change of one port leaves, what a port that goes down refuses and keeps, and how it enters INIT,
TRAIN, UP and FENCED (R286, R287, R294-R297). -/

namespace Sys2Proof.Machine

open Sys2Proof

theorem RegsBut.get_eq {p : Nat → Prop} {s u : State} (h : RegsBut p s u) {off : Nat} (ho : ¬ p off) (f : Fld) :
    get u off f = get s off f := by
  rw [get, h off ho, ← get]

/-! ### Changes of one port -/

/-- At most one port has changed: its LNK_STAT, and what it holds besides. -/
structure PortOnly (n : Nat) (s u : State) : Prop where
  regs : RegsBut (· = lnkStat n) s u
  others : ∀ m, m ≠ n → link u m = link s m
  same : u = { s with regs := u.regs, links := u.links }

namespace PortOnly

variable {n : Nat} {s v u : State}

theorem refl (n : Nat) (s : State) : PortOnly n s s := ⟨.refl _ s, fun _ _ => rfl, rfl⟩

theorem trans (h : PortOnly n s v) (k : PortOnly n v u) : PortOnly n s u :=
  ⟨h.regs.trans k.regs, fun m hm => (k.others m hm).trans (h.others m hm), by rw [k.same, h.same]⟩

theorem ite {c : Prop} [Decidable c] (h : PortOnly n s v) (k : PortOnly n s u) :
    PortOnly n s (if c then v else u) := by
  split
  · exact h
  · exact k

theorem upd (n : Nat) (f : Fld) (x : Nat) (s : State) : PortOnly n s (Machine.upd (lnkStat n) f x s) :=
  ⟨regsBut_upd (p := (· = lnkStat n)) rfl f x s, fun _ _ => rfl, rfl⟩

theorem updLink (n : Nat) (f : LinkRun → LinkRun) (s : State) : PortOnly n s (Machine.updLink n f s) :=
  ⟨fun o _ => rd_updLink n f s o, fun _ hm => link_updLink_ne hm f s, rfl⟩

theorem setLinkSt (n v : Nat) (s : State) : PortOnly n s (Machine.setLinkSt n v s) :=
  (updLink n _ s).trans (upd n _ _ _)

theorem enterInit (n : Nat) (s : State) : PortOnly n s (Machine.enterInit n s) :=
  ((updLink n _ s).trans (upd n _ _ _)).trans (setLinkSt n _ _)

theorem enterTrain (n : Nat) (s : State) : PortOnly n s (Machine.enterTrain n s) :=
  (updLink n _ s).trans (setLinkSt n _ _)

theorem linkUpEnter (n : Nat) (s : State) : PortOnly n s (Machine.linkUpEnter n s) :=
  (updLink n _ s).trans (setLinkSt n _ _)

theorem tryUp (n : Nat) (s : State) : PortOnly n s (Machine.tryUp n s) := .ite (linkUpEnter n s) (.refl n s)

theorem tiles (h : PortOnly n s u) : u.tiles = s.tiles := by rw [h.same]

theorem hbm (h : PortOnly n s u) : u.hbm = s.hbm := by rw [h.same]

theorem req (h : PortOnly n s u) : u.req = s.req := by rw [h.same]

end PortOnly

/-- Whether a port must stay DISABLED is read from its LNK_CTRL and from LNK_FDN. -/
theorem RegsBut.mustDisable {p : Nat → Prop} {s u : State} (h : RegsBut p s u) {n : Nat} (ctrl : ¬ p (lnkCtrl n))
    (fdn : ¬ p lnkFdn) : mustDisable u n = mustDisable s n := by
  simp only [Machine.mustDisable, h.get_eq ctrl, h.get_eq fdn]

theorem PortOnly.mustDisable {n : Nat} {s u : State} (h : PortOnly n s u) : mustDisable u n = mustDisable s n :=
  h.regs.mustDisable (by simp only [lnkCtrl, lnkStat]; omega) (by simp only [lnkFdn, lnkStat]; omega)

/-! ### Entering a state (R286) -/

theorem linkSt_setLinkSt {v : Nat} (h : v < 8) (n : Nat) (s : State) : linkSt (setLinkSt n v s) n = v :=
  (get_upd_same _ _ _ _ (by decide)).trans (Nat.mod_eq_of_lt h)

/-- The fields of LNK_STAT besides STATE stay as the port enters a state. -/
theorem get_setLinkSt {g : Fld} (fits : g.lo + g.w ≤ 64) (apart : 3 ≤ g.lo) (n v : Nat) (s : State) :
    get (setLinkSt n v s) (lnkStat n) g = get s (lnkStat n) g :=
  get_upd_other _ _ _ _ _ fits (.inl apart)

theorem link_setLinkSt (n v : Nat) (s : State) : link (setLinkSt n v s) n = { link s n with since := s.devtime } :=
  link_updLink_same n (fun x => { x with since := s.devtime }) s

theorem linkSt_enterInit (n : Nat) (s : State) : linkSt (enterInit n s) n = lsInit := linkSt_setLinkSt (by decide) n _

theorem epoch_enterInit (n : Nat) (s : State) :
    get (enterInit n s) (lnkStat n) LnkStat.epoch = (get s (lnkStat n) LnkStat.epoch + 1) % 256 := by
  rw [enterInit, get_setLinkSt (by decide) (by decide), get_upd_same _ _ _ _ (by decide)]
  exact Nat.mod_mod _ _

/-- The fields of LNK_STAT besides STATE and EPOCH stay as the port enters INIT. -/
theorem get_enterInit {g : Fld} (fits : g.lo + g.w ≤ 64) (state : 3 ≤ g.lo) (epoch : g.lo + g.w ≤ 40 ∨ 48 ≤ g.lo) (n : Nat)
    (s : State) : get (enterInit n s) (lnkStat n) g = get s (lnkStat n) g := by
  rw [enterInit, get_setLinkSt fits state, get_upd_other _ LnkStat.epoch g _ _ fits epoch.symm, get_updLink]

theorem link_enterInit (n : Nat) (s : State) :
    link (enterInit n s) n = { clearedLink (link s n) with since := s.devtime } := by
  rw [enterInit, link_setLinkSt]
  exact congrArg (fun x : LinkRun => { x with since := s.devtime }) (link_updLink_same n clearedLink s)

/-! ### Refusals (R296, R299) -/

theorem nicStart_links (g p : Nat) (data : Bool) (s : State) : (nicStart g p data s).links = s.links := by
  unfold nicStart
  dsimp only
  split
  · rfl
  · split <;> rfl

theorem inject_links (p : Packet) (s : State) : (inject p s).links = s.links := by
  simp only [inject, injectAtPort, nicFill, nicStart_links]

theorem send_links (p : Packet) (s : State) : (send p s).links = s.links := by
  unfold send
  split
  · dsimp only
    split
    · exact inject_links _ _
    · exact logOpen_links _ _ _ _ _ _ _
  · split
    · exact inject_links _ _
    · split
      · exact logOpen_links _ _ _ _ _ _ _
      · rfl

/-- Packets have been refused and what happened is logged: tiles, HBM, requests and the ports are as they were, and of the
registers at most the port's LNK_DROP and those of sending have changed. -/
structure Refused (n : Nat) (s u : State) : Prop where
  regs : RegsBut (fun o => o = lnkDrop n ∨ SendReg o) s u
  links : u.links = s.links
  keeps : PacketKeeps s u

namespace Refused

variable {n : Nat} {s v u : State}

theorem refl (n : Nat) (s : State) : Refused n s s := ⟨.refl _ s, rfl, .refl s⟩

theorem trans (h : Refused n s v) (k : Refused n v u) : Refused n s u :=
  ⟨h.regs.trans k.regs, k.links.trans h.links, h.keeps.trans k.keeps⟩

theorem link_eq (h : Refused n s u) (m : Nat) : link u m = link s m := by rw [link, h.links, ← link]

end Refused

theorem Reports.refused {s u : State} (h : Reports s u) (n : Nat) : Refused n s u :=
  ⟨h.1.mono fun _ ho => .inr (.inr (.inr ho)), by rw [h.2], h.packetKeeps⟩

theorem send_refused (n : Nat) (p : Packet) (s : State) : Refused n s (send p s) :=
  ⟨(send_regs p s).mono fun _ => .inr, send_links p s, send_keeps p s⟩

theorem linkRefuse_refused (n : Nat) (p : Packet) (s : State) : Refused n s (linkRefuse n p s) := by
  have counted : Refused n s (satAdd (lnkDrop n) LnkDrop.downRefuse 1 s) :=
    ⟨regsBut_satAdd (.inl rfl) _ _ s, rfl, rfl, rfl, rfl, rfl⟩
  unfold linkRefuse
  dsimp only
  split
  · exact counted.trans ((logCoded_reports _ _ _ _ _ _ _ _).refused n)
  · exact counted.trans (send_refused n _ _)

/-! ### Going down (R287, R294-R296) -/

/-- A port that ran counts as having gone down, and the credits of its epoch are reclaimed. -/
def countedDown (n : Nat) (s : State) : State :=
  if linkRuns s n then satAdd (lnkStat n) LnkStat.downs 1 (lifeCount (1632 + 8 * n + 4) 2 1 (reclaimCredits n s)) else s

/-- The port stands in DOWN with its cause, its buffers empty. -/
def emptiedPort (n cause : Nat) (s : State) : State :=
  leaveBitmap n (setLinkSt n lsDown (updLink n clearedLink
    (upd (lnkStat n) LnkStat.downCause cause (upd (lnkStat n) LnkStat.peerFence 0 s))))

/-- A port is in DOWN, has refused the packets that it held, and the fault is logged. -/
def broughtDown (n cause : Nat) (s : State) : State :=
  logCoded sevDegrade kFault bLnk 296 cause cause n
    ((linkHolds (link s n)).foldl (fun s p => linkRefuse n p s) (emptiedPort n cause (countedDown n s)))

theorem linkDownTo_eq (n cause : Nat) (relink : Bool) (s : State) : linkDownTo n cause relink s =
    if mustDisable (broughtDown n cause s) n then setLinkSt n lsDisabled (broughtDown n cause s)
    else if relink && (link s n).aligned then enterInit n (broughtDown n cause s) else broughtDown n cause s := rfl

/-- Registers that a port's going down may change: its own, the two ledger counters of link credits, and those of
refusals. -/
def DownReg (n off : Nat) : Prop :=
  (off = lnkStat n ∨ off = ledCnt LedCnt.lkReclaimed ∨ off = ledCnt LedCnt.lkOutstanding) ∨ off = lnkDrop n ∨ SendReg off

/-- Below the pages of heads and tiles, sending changes LED_LOG_STAT and CON_ROUTER_STAT only. -/
theorem not_sendReg_of_low {off : Nat} (low : off < 0x800000) (log : off ≠ ledLogStat)
    (router : off < 0x10000 ∨ off % 32 ≠ 24) : ¬ SendReg off := by
  rintro (⟨v, rfl⟩ | ⟨g, rfl⟩ | report)
  · simp only [latStat] at low
    omega
  · simp only [conRouterStat] at router
    omega
  · exact not_reportReg_of_low low log report

theorem not_refuseReg_lnkStat {n : Nat} (hn : n < 96) : ¬ (lnkStat n = lnkDrop n ∨ SendReg (lnkStat n)) := by
  refine not_or.mpr ⟨by simp only [lnkStat, lnkDrop]; omega, not_sendReg_of_low ?_ ?_ ?_⟩
  all_goals
    simp only [lnkStat, ledLogStat]
    omega

theorem not_refuseReg_reclaimed (n : Nat) :
    ¬ (ledCnt LedCnt.lkReclaimed = lnkDrop n ∨ SendReg (ledCnt LedCnt.lkReclaimed)) := by
  refine not_or.mpr ⟨?_, not_sendReg_of_low (by decide) (by decide) (by decide)⟩
  simp only [ledCnt, LedCnt.lkReclaimed, lnkDrop]
  omega

theorem not_downReg_lnkCtrl {n : Nat} (hn : n < 96) : ¬ DownReg n (lnkCtrl n) := by
  refine not_or.mpr ⟨?_, not_or.mpr ⟨?_, not_sendReg_of_low ?_ ?_ ?_⟩⟩
  all_goals
    simp only [lnkCtrl, lnkStat, lnkDrop, ledCnt, LedCnt.lkReclaimed, LedCnt.lkOutstanding, ledLogStat]
    omega

theorem not_downReg_lnkFdn (n : Nat) : ¬ DownReg n lnkFdn := by
  refine not_or.mpr ⟨?_, not_or.mpr ⟨?_, not_sendReg_of_low (by decide) (by decide) (by decide)⟩⟩
  all_goals
    simp only [lnkFdn, lnkStat, lnkDrop, ledCnt, LedCnt.lkReclaimed, LedCnt.lkOutstanding]
    omega

/-- What a port holds is gone, and it is not in the bitmap. -/
structure PortEmpty (x : LinkRun) : Prop where
  replay : x.replay = []
  ctl : x.ctl = []
  data : x.data = []
  usable : x.usable = false

theorem clearedLink_empty (x : LinkRun) : PortEmpty (clearedLink x) := ⟨rfl, rfl, rfl, rfl⟩

theorem PortEmpty.since {x : LinkRun} (h : PortEmpty x) (t : Nat) : PortEmpty { x with since := t } :=
  ⟨h.replay, h.ctl, h.data, h.usable⟩

/-- A port has gone down and stands in a state: its cause is noted, it is empty, its credits are reclaimed if it ran, and
tiles, HBM and requests are as they were. -/
structure TakenDown (n st cause : Nat) (s u : State) : Prop where
  state : linkSt u n = st
  cause : get u (lnkStat n) LnkStat.downCause = cause % 16
  empty : PortEmpty (link u n)
  regs : RegsBut (DownReg n) s u
  reclaimed : linkRuns s n = true → rd u (ledCnt LedCnt.lkReclaimed) =
    rd s (ledCnt LedCnt.lkReclaimed) + BitVec.ofNat 64 ((link s n).ctlOut + (link s n).dataOut)
  tiles : u.tiles = s.tiles
  hbm : u.hbm = s.hbm
  req : u.req = s.req

theorem countedDown_same (n : Nat) (s : State) :
    countedDown n s = { s with regs := (countedDown n s).regs, life := (countedDown n s).life } := by
  unfold countedDown
  split <;> rfl

theorem countedDown_regs (n : Nat) (s : State) : RegsBut (DownReg n) s (countedDown n s) := by
  have counter : ∀ {off}, off = ledCnt LedCnt.lkReclaimed ∨ off = ledCnt LedCnt.lkOutstanding → ∀ v t,
      RegsBut (DownReg n) t (put off v t) := fun h v t => regsBut_put (.inl (.inr h)) v t
  have reclaims : RegsBut (DownReg n) s (reclaimCredits n s) :=
    (counter (.inr rfl) _ s).trans (counter (.inl rfl) _ _)
  have lives : RegsBut (DownReg n) (reclaimCredits n s) (lifeCount (1632 + 8 * n + 4) 2 1 (reclaimCredits n s)) :=
    fun _ _ => rfl
  exact .ite ((reclaims.trans lives).trans (regsBut_satAdd (.inl (.inl rfl)) _ _ _)) (.refl _ s)

theorem countedDown_reclaims {n : Nat} {s : State} (runs : linkRuns s n = true) :
    rd (countedDown n s) (ledCnt LedCnt.lkReclaimed) =
      rd s (ledCnt LedCnt.lkReclaimed) + BitVec.ofNat 64 ((link s n).ctlOut + (link s n).dataOut) := by
  have apart : ledCnt LedCnt.lkReclaimed ≠ lnkStat n := by
    simp only [ledCnt, LedCnt.lkReclaimed, lnkStat]
    omega
  have count : rd (countedDown n s) (ledCnt LedCnt.lkReclaimed) =
      rd (reclaimCredits n s) (ledCnt LedCnt.lkReclaimed) := by
    rw [countedDown, if_pos runs]
    exact rd_upd_ne apart _ _ _
  rw [count, reclaimCredits, addR, rd_put_same, subR, rd_put_ne (by decide)]

theorem linkSt_leaveBitmap (n : Nat) (s : State) (m : Nat) : linkSt (leaveBitmap n s) m = linkSt s m := by
  unfold leaveBitmap
  split <;> rfl

theorem PortOnly.leaveBitmap (n : Nat) (s : State) : PortOnly n s (leaveBitmap n s) := .ite (.refl n s) (.updLink n _ s)

theorem get_leaveBitmap (n : Nat) (s : State) (off : Nat) (f : Fld) : get (leaveBitmap n s) off f = get s off f := by
  unfold leaveBitmap
  split <;> rfl

theorem leaveBitmap_empty {n : Nat} {s : State} (h : PortEmpty (link s n)) : PortEmpty (link (leaveBitmap n s) n) := by
  unfold leaveBitmap
  split
  · exact h
  · rw [link_updLink_same]
    exact ⟨h.replay, h.ctl, h.data, rfl⟩

theorem emptiedPort_only (n cause : Nat) (s : State) : PortOnly n s (emptiedPort n cause s) :=
  ((((PortOnly.upd n _ _ s).trans (.upd n _ _ _)).trans (.updLink n _ _)).trans (.setLinkSt n _ _)).trans
    (.leaveBitmap n _)

theorem linkSt_emptiedPort (n cause : Nat) (s : State) : linkSt (emptiedPort n cause s) n = lsDown :=
  (linkSt_leaveBitmap _ _ _).trans (linkSt_setLinkSt (by decide) n _)

theorem cause_emptiedPort (n cause : Nat) (s : State) :
    get (emptiedPort n cause s) (lnkStat n) LnkStat.downCause = cause % 16 := by
  rw [emptiedPort, get_leaveBitmap, get_setLinkSt (by decide) (by decide), get_updLink,
    get_upd_same _ _ _ _ (by decide)]
  rfl

theorem emptiedPort_empty (n cause : Nat) (s : State) : PortEmpty (link (emptiedPort n cause s) n) := by
  refine leaveBitmap_empty ?_
  rw [link_setLinkSt, link_updLink_same]
  exact (clearedLink_empty _).since _

/-- The last step of going down changes the port alone. -/
theorem TakenDown.enters {n st st' cause : Nat} {s v u : State} (h : TakenDown n st cause s v) (port : PortOnly n v u)
    (state : linkSt u n = st')
    (kept : get u (lnkStat n) LnkStat.downCause = get v (lnkStat n) LnkStat.downCause)
    (empty : PortEmpty (link u n)) : TakenDown n st' cause s u where
  state := state
  cause := kept.trans h.cause
  empty := empty
  regs := h.regs.trans (port.regs.mono fun _ e => .inl (.inl e))
  reclaimed runs := by
    refine (port.regs _ ?_).trans (h.reclaimed runs)
    simp only [ledCnt, LedCnt.lkReclaimed, lnkStat]
    omega
  tiles := port.tiles.trans h.tiles
  hbm := port.hbm.trans h.hbm
  req := port.req.trans h.req

theorem broughtDown_takes {n : Nat} (hn : n < 96) (cause : Nat) (s : State) :
    TakenDown n lsDown cause s (broughtDown n cause s) := by
  have counted := countedDown_same n s
  have countedRegs := countedDown_regs n s
  have only := emptiedPort_only n cause (countedDown n s)
  have refused : Refused n (emptiedPort n cause (countedDown n s)) (broughtDown n cause s) :=
    (foldl_related (.refl n) .trans _ (fun p _ s => linkRefuse_refused n p s) _).trans
      ((logCoded_reports _ _ _ _ _ _ _ _).refused n)
  have stat : ∀ f, get (broughtDown n cause s) (lnkStat n) f = get (emptiedPort n cause (countedDown n s)) (lnkStat n) f :=
    refused.regs.get_eq (not_refuseReg_lnkStat hn)
  refine ⟨(stat _).trans (linkSt_emptiedPort n cause _), (stat _).trans (cause_emptiedPort n cause _), ?_, ?_,
    fun runs => ?_, ?_, ?_, ?_⟩
  · rw [refused.link_eq]
    exact emptiedPort_empty n cause _
  · exact (countedRegs.trans (only.regs.mono fun _ e => .inl (.inl e))).trans (refused.regs.mono fun _ => .inr)
  · rw [refused.regs _ (not_refuseReg_reclaimed n), only.regs _ ?_, countedDown_reclaims runs]
    simp only [ledCnt, LedCnt.lkReclaimed, lnkStat]
    omega
  · rw [refused.keeps.tiles, only.tiles, counted]
  · rw [refused.keeps.hbm, only.hbm, counted]
  · rw [refused.keeps.req, only.req, counted]

/-- Where a port stands once it has gone down: DISABLED where it must be, else in INIT where a relink is due and the
alignment holds, else in DOWN. -/
def stateAfterDown (n : Nat) (relink : Bool) (s : State) : Nat :=
  if mustDisable s n then lsDisabled else if relink && (link s n).aligned then lsInit else lsDown

theorem linkDownTo_takes {n : Nat} (hn : n < 96) (cause : Nat) (relink : Bool) (s : State) :
    TakenDown n (stateAfterDown n relink s) cause s (linkDownTo n cause relink s) := by
  have down := broughtDown_takes hn cause s
  rw [linkDownTo_eq, stateAfterDown, down.regs.mustDisable (not_downReg_lnkCtrl hn) (not_downReg_lnkFdn n)]
  split
  · refine down.enters (.setLinkSt n _ _) (linkSt_setLinkSt (by decide) n _) (get_setLinkSt (by decide) (by decide) n _ _) ?_
    rw [link_setLinkSt]
    exact down.empty.since _
  · split
    · refine down.enters (.enterInit n _) (linkSt_enterInit n _)
        (get_enterInit (by decide) (by decide) (.inl (by decide)) n _) ?_
      rw [link_enterInit]
      exact (clearedLink_empty _).since _
    · exact down

/-- A port that need not stay DISABLED goes down with a cause, and into INIT again where R287 allows it. -/
theorem linkDown_takes {n : Nat} (hn : n < 96) (cause : Nat) {s : State} (may : mustDisable s n = false) :
    TakenDown n (if fastRelink cause && (link s n).aligned then lsInit else lsDown) cause s (linkDown n cause s) := by
  have down := linkDownTo_takes hn cause (fastRelink cause) s
  rw [stateAfterDown, may] at down
  exact down

/-! ### Coming up (R287, R297) -/

/-- The state of a port that is up. -/
def upState (x : LinkRun) : Nat := if x.fence then lsFenced else lsUp

theorem linkSt_tryUp (n : Nat) (s : State) : linkSt (tryUp n s) n =
    if (link s n).sentSeen && (link s n).gotSeen then upState (link s n) else linkSt s n := by
  have small : upState (link s n) < 8 := by
    unfold upState
    split <;> decide
  unfold tryUp
  split
  · exact linkSt_setLinkSt small n _
  · rfl

/-- The fields of LNK_STAT besides STATE stay as the port comes up. -/
theorem get_tryUp {g : Fld} (fits : g.lo + g.w ≤ 64) (apart : 3 ≤ g.lo) (n : Nat) (s : State) :
    get (tryUp n s) (lnkStat n) g = get s (lnkStat n) g := by
  unfold tryUp
  split
  · exact get_setLinkSt fits apart n _ _
  · rfl

/-- A port keeps its handshake and the frames that it has put on the line. -/
structure HandshakeKept (x y : LinkRun) : Prop where
  out : y.out = x.out
  initAt : y.initAt = x.initAt
  seen : y.seen = x.seen
  peerEpoch : y.peerEpoch = x.peerEpoch
  ctlGrant : y.ctlGrant = x.ctlGrant
  dataGrant : y.dataGrant = x.dataGrant

theorem tryUp_kept (n : Nat) (s : State) : HandshakeKept (link s n) (link (tryUp n s) n) := by
  unfold tryUp
  split
  · rw [linkUpEnter, link_setLinkSt, link_updLink_same]
    exact ⟨rfl, rfl, rfl, rfl, rfl, rfl⟩
  · exact ⟨rfl, rfl, rfl, rfl, rfl, rfl⟩

end Sys2Proof.Machine
end

section
/-! The statement on training, alignment and the handshake of a link (R285-R288, R297, R305). -/

namespace Sys2Proof.Machine

open Sys2Proof

/-! ### Training and alignment (R285, R286, R305) -/

/-- Setting one bit for each lane that is inverted stays below the bit after the last lane's. -/
theorem polarity_bound : ∀ (lanes : List (Nat × Bool)) (k m : Nat),
    (lanes.zipIdx k).foldl (fun m e => if e.1.2 then m + 2 ^ e.2 else m) m + 2 ^ k ≤ m + 2 ^ (k + lanes.length)
  | [], k, m => by simp
  | l :: lanes, k, m => by
    have double : 2 ^ (k + 1) = 2 ^ k + 2 ^ k := by rw [Nat.pow_succ, Nat.mul_two]
    have pos := Nat.two_pow_pos k
    have rest := polarity_bound lanes (k + 1) (if l.2 then m + 2 ^ k else m)
    rw [List.zipIdx_cons, List.foldl_cons, List.length_cons, ← Nat.add_assoc, Nat.add_right_comm]
    split at rest
    all_goals
      next inverted =>
        simp only [inverted, if_true, if_false, Bool.false_eq_true]
        omega

theorem alignFound_polarity {words : List Nat} {rev : Bool} {pol : Nat} (h : alignFound words = some (rev, pol)) :
    pol < 16 := by
  unfold alignFound at h
  dsimp only at h
  split at h
  · exact absurd h (by simp)
  · next four =>
    have bound := polarity_bound (words.filterMap laneFound) 0 0
    have length : (words.filterMap laneFound).length = 4 := Decidable.not_not.mp fun ne => four (.inl ne)
    rw [length] at bound
    have pol_eq : pol = (words.filterMap laneFound).zipIdx.foldl (fun m e => if e.1.2 then m + 2 ^ e.2 else m) 0 := by
      split at h
      · simp only [Option.some.injEq, Prod.mk.injEq] at h
        exact h.2.symm
      · split at h
        · simp only [Option.some.injEq, Prod.mk.injEq] at h
          exact h.2.symm
        · exact absurd h (by simp)
    rw [pol_eq]
    omega

/-- The lane order and polarity found are noted, and the receiver holds lane alignment. -/
def alignNoted (n : Nat) (rev : Bool) (pol : Nat) (s : State) : State :=
  updLink n (fun x => { x with aligned := true })
    (upd (lnkStat n) LnkStat.polarity pol (upd (lnkStat n) LnkStat.laneRev (b2n rev) s))

theorem alignNoted_only (n : Nat) (rev : Bool) (pol : Nat) (s : State) : PortOnly n s (alignNoted n rev pol s) :=
  ((PortOnly.upd n _ _ s).trans (.upd n _ _ _)).trans (.updLink n _ _)

theorem b2n_lt (b : Bool) : b2n b < 2 := by cases b <;> decide

theorem laneRev_alignNoted (n : Nat) (rev : Bool) (pol : Nat) (s : State) :
    get (alignNoted n rev pol s) (lnkStat n) LnkStat.laneRev = b2n rev := by
  rw [alignNoted, get_updLink, get_upd_other _ _ _ _ _ (by decide) (by decide), get_upd_same _ _ _ _ (by decide)]
  exact Nat.mod_eq_of_lt (b2n_lt rev)

theorem polarity_alignNoted {pol : Nat} (h : pol < 16) (n : Nat) (rev : Bool) (s : State) :
    get (alignNoted n rev pol s) (lnkStat n) LnkStat.polarity = pol := by
  rw [alignNoted, get_updLink, get_upd_same _ _ _ _ (by decide)]
  exact Nat.mod_eq_of_lt h

theorem epoch_alignNoted (n : Nat) (rev : Bool) (pol : Nat) (s : State) :
    get (alignNoted n rev pol s) (lnkStat n) LnkStat.epoch = get s (lnkStat n) LnkStat.epoch := by
  rw [alignNoted, get_updLink, get_upd_other _ _ _ _ _ (by decide) (by decide),
    get_upd_other _ _ _ _ _ (by decide) (by decide)]

theorem completes_linkTrainDone {n : LinkId} {s : State} (on : On s) (train : linkSt s n = lsTrain) :
    Completes (.linkTrainDone n) s fun u => linkSt u n = lsAlign ∧ PortOnly n s u := by
  refine completes_powered on _ rfl ?_
  rw [if_pos train]
  exact ⟨linkSt_setLinkSt (by decide) n s, .setLinkSt n _ s⟩

theorem completes_linkAlignDone_none {n : LinkId} {words : List Nat} {s : State} (on : On s)
    (unmatched : alignFound words = none) : Completes (.linkAlignDone n words) s fun u => u = s := by
  refine completes_powered on _ rfl ?_
  rw [unmatched]

theorem completes_linkAlignDone {n : LinkId} {words : List Nat} {rev : Bool} {pol : Nat} {s : State} (on : On s)
    (align : linkSt s n = lsAlign) (found : alignFound words = some (rev, pol)) :
    Completes (.linkAlignDone n words) s fun u => u = enterInit n (alignNoted n rev pol s) := by
  refine completes_powered on _ rfl ?_
  dsimp only
  rw [found]
  dsimp only
  rw [if_pos align]
  rfl

/-! ### Timeouts and the retry (R285, R286, R305) -/

theorem completes_linkTrainTimeout {n : LinkId} {s : State} (on : On s) (train : linkSt s n = lsTrain)
    (late : (link s n).since + 500 * msTicks ≤ s.devtime) :
    Completes (.linkTrainTimeout n) s fun u => u = linkDown n ldTrainFail s := by
  refine completes_powered on _ rfl ?_
  rw [if_pos ⟨train, decide_eq_true late⟩]

theorem completes_linkAlignFail {n : LinkId} {s : State} (on : On s) (align : linkSt s n = lsAlign)
    (late : (link s n).since + msTicks ≤ s.devtime) :
    Completes (.linkAlignFail n) s fun u => u = linkDown n ldAlignFail s := by
  refine completes_powered on _ rfl ?_
  rw [if_pos ⟨align, decide_eq_true late⟩]

theorem completes_linkInitTimeout {n : LinkId} {s : State} (on : On s) (init : linkSt s n = lsInit)
    (late : (link s n).since + 100 * usTicks ≤ s.devtime) :
    Completes (.linkInitTimeout n) s fun u => u = linkDown n ldInitTimeout s := by
  refine completes_powered on _ rfl ?_
  rw [if_pos ⟨init, decide_eq_true late⟩]

theorem completes_linkRetry {n : LinkId} {s : State} (on : On s) (may : mustDisable s n = false)
    (down : linkSt s n = lsDown)
    (late : (link s n).since + max 1 (get s (lnkCtrl n) LnkCtrl.retryMs) * msTicks ≤ s.devtime)
    (supplied : linkPowered s = true) : Completes (.linkRetry n) s fun u => u = enterTrain n s := by
  refine completes_powered on _ rfl ?_
  rw [if_pos ⟨down, decide_eq_true late⟩, tryTrain, may, supplied]
  rfl

/-! ### INIT frames (R287, R288) -/

/-- Two ports differ at most in their lines. -/
def LineOnly (x y : LinkRun) : Prop :=
  y = { x with txFrames := y.txFrames, txSent := y.txSent, txPairs := y.txPairs, line := y.line }

theorem LineOnly.trans {x y z : LinkRun} (h : LineOnly x y) (k : LineOnly y z) : LineOnly x z := by
  unfold LineOnly at *
  rw [k, h]

theorem sendPairs_line : ∀ (k : Nat) (x : LinkRun), LineOnly x (sendPairs k x)
  | 0, _ => rfl
  | k + 1, x => by
    unfold sendPairs
    split
    · rfl
    · refine LineOnly.trans ?_ (sendPairs_line k _)
      split <;> rfl

/-- Frames put on the line are what the port's last command sent; besides, only the line changes. -/
theorem emitFrames_line (fs : List Frame) (x : LinkRun) : LineOnly { x with out := fs } (emitFrames fs x) :=
  LineOnly.trans (y := { x with out := fs, txFrames := x.txFrames ++ fs, line := [] }) rfl (sendPairs_line _ _)

/-- Bit 23 of an INIT frame's body is SEEN. -/
theorem seen_initBody {n : Nat} (hn : n < 96) (s : State) :
    bit1 (fromBytes ((initBody s n).take 12)) 23 = (link s n).seen := by
  have fdn : ownFdn s < 2 ^ 16 := Nat.mod_lt _ (by decide)
  have head : (initBody s n).take 12 =
      toBytes 12 (ownFdn s + n * 2 ^ 16 + b2n (link s n).seen * 2 ^ 23 + 1 * 2 ^ 24 + 1024 * 2 ^ 32 + 32768 * 2 ^ 52) :=
    List.take_left' (length_toBytes 12 _)
  rw [head, fromBytes_toBytes, bit1, Nat.testBit_eq_decide_div_mod_eq]
  generalize ownFdn s = d at fdn ⊢
  cases (link s n).seen with
  | false =>
    simp only [b2n, Bool.false_eq_true, if_false, decide_eq_false_iff_not]
    omega
  | true =>
    simp only [b2n, if_true, decide_eq_true_eq]
    omega

/-- An INIT frame has gone out: the tick is noted, and whether SEEN went with it. -/
def initSent (n : Nat) (s : State) : State :=
  updLink n (fun x => { x with initAt := some s.devtime, sentSeen := x.sentSeen || x.seen })
    (linkEmit n [frameNow s n 0 .init (initBody s n)] s)

theorem initSent_only (n : Nat) (s : State) : PortOnly n s (initSent n s) := (PortOnly.updLink n _ s).trans (.updLink n _ _)

theorem linkSt_initSent (n : Nat) (s : State) : linkSt (initSent n s) n = linkSt s n := rfl

/-- What a port that has sent an INIT frame holds, its line aside. -/
theorem link_initSent (n : Nat) (s : State) : LineOnly { link s n with
      out := [frameNow s n 0 .init (initBody s n)], initAt := some s.devtime
      sentSeen := (link s n).sentSeen || (link s n).seen } (link (initSent n s) n) := by
  have line := emitFrames_line [frameNow s n 0 .init (initBody s n)] (link s n)
  unfold LineOnly at *
  rw [initSent, link_updLink_same, linkEmit, link_updLink_same, line]

theorem completes_initFrameSend {n : LinkId} {s : State} (on : On s) (init : linkSt s n = lsInit)
    (due : ∀ t, (link s n).initAt = some t → t + usTicks ≤ s.devtime) :
    Completes (.initFrameSend n) s fun u => u = tryUp n (initSent n s) := by
  have isDue : (match (link s n).initAt with
      | none => true
      | some t => decide (t + usTicks ≤ s.devtime)) = true := by
    split
    · rfl
    · next t at_ => exact decide_eq_true (due t at_)
  refine completes_powered on _ rfl ?_
  dsimp only
  refine if_pos ?_
  rw [init]
  exact isDue

/-- The partner's device and link, as its INIT frame names them, are reported. -/
def partnerNoted (n b : Nat) (s : State) : State :=
  upd (lnkStat n) LnkStat.nbrLink (bits b 16 7) (upd (lnkStat n) LnkStat.nbrFdn (bits b 0 16) s)

theorem partnerNoted_only (n b : Nat) (s : State) : PortOnly n s (partnerNoted n b s) :=
  (PortOnly.upd n _ _ s).trans (.upd n _ _ _)

theorem linkSt_partnerNoted (n b : Nat) (s : State) : linkSt (partnerNoted n b s) n = linkSt s n := by
  rw [linkSt, partnerNoted, get_upd_other _ _ _ _ _ (by decide) (by decide),
    get_upd_other _ _ _ _ _ (by decide) (by decide), ← linkSt]

theorem nbrFdn_partnerNoted (n b : Nat) (s : State) :
    get (partnerNoted n b s) (lnkStat n) LnkStat.nbrFdn = bits b 0 16 := by
  rw [partnerNoted, get_upd_other _ _ _ _ _ (by decide) (by decide), get_upd_same _ _ _ _ (by decide)]
  exact Nat.mod_eq_of_lt (Nat.mod_lt _ (by decide))

theorem ownFdn_partnerNoted (n b : Nat) (s : State) : ownFdn (partnerNoted n b s) = ownFdn s := by
  rw [ownFdn, (partnerNoted_only n b s).regs _ (by simp only [lnkFdn, lnkStat]; omega), ← ownFdn]

/-- The partner's INIT is taken: its epoch, its grants, and whether it has seen ours. -/
def initTaken (n : Nat) (f : Frame) (b : Nat) (s : State) : State :=
  updLink n (fun x => { x with
    seen := true, gotSeen := x.gotSeen || bit1 b 23, peerEpoch := f.epoch
    ctlGrant := bits b 32 20, dataGrant := bits b 52 20 }) (partnerNoted n b s)

/-- A port in INIT that receives an INIT frame notes the partner; what follows is told by the partner's FDN and version. -/
theorem completes_initFrameReceive {n : LinkId} {f : Frame} {b : Nat} {s : State} (on : On s) (type : f.ftype = .init)
    (init : linkSt s n = lsInit) (body : b = fromBytes (f.body.take 12)) :
    Completes (.initFrameReceive n f) s fun u => u =
      if bits b 0 16 = ownFdn s then linkDown n ldFdnClash (partnerNoted n b s)
      else if bits b 24 8 ≠ 1 then linkDown n ldInitTimeout (partnerNoted n b s)
      else tryUp n (initTaken n f b s) := by
  have runsNot : linkRuns (partnerNoted n b s) n = false := by
    rw [linkRuns, linkSt_partnerNoted, init]
    rfl
  refine completes_powered on _ rfl ?_
  dsimp only
  rw [if_neg (by simp [type, init]), ← body, ← partnerNoted, runsNot, if_neg Bool.false_ne_true, ownFdn_partnerNoted]
  rfl

/-- Settles O41, clause by clause: each command makes one change of its port or takes it down; what comes of both is said
once for all commands. -/
theorem linksComeUp : Obligations.LinksComeUp := by
  unfold Obligations.LinksComeUp
  refine ⟨fun n s on train => ?_, fun n words s on align => completes_linkAlignDone_none on,
    fun n words rev pol s on align found => ?_, fun n s on may => ⟨fun train late => ?_, fun align late => ?_,
      fun init late => ?_, fun down late supplied => ?_⟩, fun n s on init due => ?_,
    fun n f b s on type init body => ⟨fun other version => ?_, fun clash may => ?_⟩⟩
  · obtain ⟨u, hu, state, only⟩ := completes_linkTrainDone on train
    exact ⟨u, hu, state, only.regs, only.others, only.same⟩
  · obtain ⟨_, hu, rfl⟩ := completes_linkAlignDone on align found
    have only := (alignNoted_only n rev pol s).trans (.enterInit n _)
    refine ⟨_, hu, linkSt_enterInit n _, ?_, ?_, ?_, ?_, only.regs, only.others, only.same⟩
    · rw [epoch_enterInit, epoch_alignNoted]
    · rw [get_enterInit (by decide) (by decide) (by decide), laneRev_alignNoted]
    · rw [get_enterInit (by decide) (by decide) (by decide), polarity_alignNoted (alignFound_polarity found)]
    · rw [link_enterInit, alignNoted, link_updLink_same]
      rfl
  · obtain ⟨_, hu, rfl⟩ := completes_linkTrainTimeout on train late
    have down := linkDown_takes n.isLt ldTrainFail may
    exact ⟨_, hu, down.state, down.cause, down.tiles, down.hbm, down.req⟩
  · obtain ⟨_, hu, rfl⟩ := completes_linkAlignFail on align late
    have down := linkDown_takes n.isLt ldAlignFail may
    exact ⟨_, hu, down.state, down.cause, down.tiles, down.hbm, down.req⟩
  · obtain ⟨_, hu, rfl⟩ := completes_linkInitTimeout on init late
    have down := linkDown_takes n.isLt ldInitTimeout may
    exact ⟨_, hu, down.state, down.cause, down.tiles, down.hbm, down.req⟩
  · obtain ⟨_, hu, rfl⟩ := completes_linkRetry on may down late supplied
    have only := PortOnly.enterTrain n s
    exact ⟨_, hu, linkSt_setLinkSt (by decide) n _, only.regs, only.others, only.same⟩
  · obtain ⟨_, hu, rfl⟩ := completes_initFrameSend on init due
    have only := (initSent_only n s).trans (.tryUp n _)
    have kept := tryUp_kept n (initSent n s)
    have sent := link_initSent n s
    have state := linkSt_tryUp n (initSent n s)
    rw [sent, linkSt_initSent, init] at state
    rw [sent] at kept
    exact ⟨_, hu, ⟨_, kept.out, rfl, rfl, seen_initBody n.isLt s⟩, kept.initAt, state, only.others, only.same⟩
  · obtain ⟨_, hu, taken⟩ := completes_initFrameReceive on type init body
    rw [if_neg other, if_neg (not_not_intro version)] at taken
    subst taken
    have only := ((partnerNoted_only n b s).trans (.updLink n _ _)).trans (.tryUp n (initTaken n f b s))
    have kept := tryUp_kept n (initTaken n f b s)
    have state := linkSt_tryUp n (initTaken n f b s)
    have stays : linkSt (initTaken n f b s) n = lsInit := (linkSt_partnerNoted n b s).trans init
    rw [initTaken, link_updLink_same, ← initTaken] at kept
    rw [stays, initTaken, link_updLink_same, ← initTaken] at state
    refine ⟨_, hu, ?_, kept.seen, kept.ctlGrant, kept.dataGrant, kept.peerEpoch, state, only.regs, only.others, only.same⟩
    rw [get_tryUp (by decide) (by decide)]
    exact nbrFdn_partnerNoted n b s
  · obtain ⟨_, hu, taken⟩ := completes_initFrameReceive on type init body
    rw [if_pos clash] at taken
    subst taken
    have noted := partnerNoted_only n b s
    have down := linkDown_takes n.isLt ldFdnClash (noted.mustDisable.trans may)
    exact ⟨_, hu, down.state, down.cause, down.tiles.trans noted.tiles, down.hbm.trans noted.hbm, down.req.trans noted.req⟩

end Sys2Proof.Machine
end

section
/-! Settling the ownership of a device that has an owner afterwards (R325, R326): no lease has ended, so at most a claim
window has closed. -/

namespace Sys2Proof.Machine

open Sys2Proof

/-- OWN_STAT names the same owner. -/
def OwnerKept (s u : State) : Prop := get u ownStat OwnStat.owner = get s ownStat OwnStat.owner

theorem OwnerKept.trans {s v u : State} (h : OwnerKept s v) (k : OwnerKept v u) : OwnerKept s u := Eq.trans k h

theorem OwnerKept.owner_eq {s u : State} (h : OwnerKept s u) : owner u = owner s := by
  unfold OwnerKept at h
  simp only [owner, h]

theorem RegsBut.ownerKept {p : Nat → Prop} {s u : State} (h : RegsBut p s u) (ho : ¬ p ownStat) : OwnerKept s u :=
  h.get_eq ho _

theorem Reports.ownerKept {s u : State} (h : Reports s u) : OwnerKept s u :=
  h.1.ownerKept (not_reportReg_of_low (by decide) (by decide))

theorem own_ownerKept (o : OwnState) (s : State) : OwnerKept s { s with own := o } := rfl

theorem upload_ownerKept (v : Option Upload) (s : State) : OwnerKept s { s with nvm := { s.nvm with upload := v } } := rfl

theorem upd_ownerKept {off : Nat} (h : off ≠ ownStat) (f : Fld) (x : Nat) (s : State) : OwnerKept s (upd off f x s) :=
  get_upd_ne h.symm _ _ _ _

theorem upd_ownStat_ownerKept {f : Fld} (h : 2 ≤ f.lo) (x : Nat) (s : State) : OwnerKept s (upd ownStat f x s) :=
  get_upd_other ownStat f OwnStat.owner x s (by decide) (.inr h)

theorem openWindow_ownerKept (s : State) : OwnerKept s (openWindow s) := by
  unfold openWindow
  dsimp only
  split
  · rfl
  · exact (((own_ownerKept _ s).trans (upd_ownStat_ownerKept (by decide) _ _)).trans
      (upd_ownStat_ownerKept (by decide) _ _)).trans (raiseBoth_reports _ _).ownerKept

theorem closeWindow_ownerKept (s : State) : OwnerKept s (closeWindow s) := by
  unfold closeWindow
  split
  · exact ((upd_ownStat_ownerKept (by decide) _ s).trans (upd_ownStat_ownerKept (by decide) _ _)).trans
      (raiseBoth_reports _ _).ownerKept
  · rfl

/-- The slots of firmware images stand above OWN_STAT. -/
theorem nvmSlotStat_ne_ownStat (i : Nat) : nvmSlotStat i ≠ ownStat := by
  simp only [nvmSlotStat, ownStat]
  omega

theorem endUpload_ownerKept (r : Nat) (s : State) : OwnerKept s (endUpload r s) := by
  unfold endUpload
  split
  · rfl
  · exact ((((upload_ownerKept none s).trans (upd_ownerKept (nvmSlotStat_ne_ownStat _) _ _ _)).trans
      (upd_ownerKept (nvmSlotStat_ne_ownStat _) _ _ _)).trans (upd_ownerKept (by decide) _ _ _)).trans
      (logCoded_reports _ _ _ _ _ _ _ _).ownerKept

theorem announceOwner_ownerKept (s : State) : OwnerKept s (announceOwner s) :=
  ((((raiseBoth_reports _ s).ownerKept.trans (svcEvent_reports _ _).ownerKept).trans
    (logOpen_reports _ _ _ _ _ _ _).ownerKept).trans (upd_ownerKept (by decide) _ _ _)).trans (endUpload_ownerKept _ _)

/-- Once ownership has ended there is no owner. -/
theorem owner_endOwner (s : State) : owner (endOwner s) = none := by
  have kept : OwnerKept (upd ownStat OwnStat.owner 3 s) (endOwner s) :=
    ((openWindow_ownerKept _).trans (upd_ownStat_ownerKept (by decide) _ _)).trans (announceOwner_ownerKept _)
  rw [kept.owner_eq, owner, get_upd_same _ _ _ _ (by decide)]
  rfl

theorem windowDue_ownerKept (s : State) : OwnerKept s (windowDue s) := by
  unfold windowDue
  split
  · exact closeWindow_ownerKept s
  · rfl

/-- Where settling leaves an owner, no lease has ended. -/
theorem leaseOver_of_owner {s : State} {m : Master} (own : owner (settle s) = some m) : leaseOver s = false := by
  rw [settle, (windowDue_ownerKept _).owner_eq, lapse] at own
  cases ended : leaseOver s with
  | false => rfl
  | true =>
    rw [ended, if_pos rfl, owner_endOwner] at own
    exact absurd own (by simp)

/-- Where settling leaves an owner, it changes OWN_STAT and the registers of reports at most. -/
theorem settle_regs_of_owner {s : State} {m : Master} (own : owner (settle s) = some m) :
    RegsBut (fun o => o = ownStat ∨ ReportReg o) s (settle s) := by
  rw [settle, lapse, leaseOver_of_owner own, if_neg Bool.false_ne_true, windowDue, closeWindow]
  refine .ite (.ite ?_ (.refl _ s)) (.refl _ s)
  exact ((regsBut_upd (.inl rfl) _ _ s).trans (regsBut_upd (.inl rfl) _ _ _)).trans
    ((raiseBoth_reports _ _).1.mono fun _ => .inr)

theorem settle_tiles (s : State) : (settle s).tiles = s.tiles := by rw [settle_ownFrame s]

end Sys2Proof.Machine
end

section
/-! The statement on links that go down and on the link registers that are written (R286, R287, R293-R296, R302, R305,
R307, R542). -/

namespace Sys2Proof.Machine

open Sys2Proof

/-! ### Causes of DOWN (R293, R294) -/

section Causes

variable {n : LinkId} {s : State}

theorem completes_linkSilence (on : On s) (runs : linkRuns s n = true)
    (silent : (link s n).lastValid + 16 * usTicks ≤ s.devtime) :
    Completes (.linkSilence n) s fun u => u = linkDown n ldSilence s := by
  refine completes_powered on _ rfl ?_
  exact if_pos (by rw [runs, decide_eq_true silent]; rfl)

theorem completes_linkUcwLimit (on : On s) (runs : linkRuns s n = true)
    (limited : get s (lnkCtrl n) LnkCtrl.ucwLimit ≠ 0) (exceeded : get s (lnkCtrl n) LnkCtrl.ucwLimit <
      ((link s n).ucwAt.filter fun t => decide (s.devtime < t + msTicks)).length) :
    Completes (.linkUcwLimit n) s fun u => u = linkDown n ldUcw s := by
  refine completes_powered on _ rfl ?_
  dsimp only
  exact if_pos (by rw [runs, decide_eq_true limited, decide_eq_true exceeded]; rfl)

theorem completes_linkCreditStall {d : Bool} {t : Nat} (on : On s) (runs : linkRuns s n = true)
    (stalled : (if d then (link s n).dataStall else (link s n).ctlStall) = some t)
    (late : t + 100 * usTicks ≤ s.devtime) :
    Completes (.linkCreditStall n d) s fun u => u = linkDown n ldCreditStall s := by
  refine completes_powered on _ rfl ?_
  rw [stalled]
  exact if_pos (by rw [runs, decide_eq_true late]; rfl)

theorem completes_linkReplay_fourth (on : On s) (runs : linkRuns s n = true) (nak : (link s n).nakSeen = true)
    (frames : (link s n).replay ≠ []) (four : (link s n).replays = 4) :
    Completes (.linkReplay n) s fun u => u = linkDown n ldReplay s := by
  refine completes_powered on _ rfl ?_
  dsimp only
  rw [runs, nak]
  exact (if_pos rfl).trans ((if_neg (by simpa using frames)).trans (if_pos four))

end Causes

/-! ### LNK_CTRL (R286, R305) -/

/-- What LNK_CTRL holds after a write: its 21 bits, a RETRY_MS of 0 as 1. -/
def ctrlWord (v : Nat) : Reg :=
  setF (BitVec.ofNat 64 (v % 2 ^ 21)) LnkCtrl.retryMs (max 1 (getF (BitVec.ofNat 64 (v % 2 ^ 21)) LnkCtrl.retryMs))

theorem enable_ctrlWord (v : Nat) : getF (ctrlWord v) LnkCtrl.enable = v % 2 := by
  rw [ctrlWord, getF_setF_other _ _ _ _ (by decide) (by decide)]
  simp only [getF, bits, LnkCtrl.enable, BitVec.toNat_ofNat, Nat.shiftRight_zero]
  omega

/-- RATE, MEDIUM and TESTPAT are stored as written. -/
theorem mode_ctrlWord (v : Nat) : bits (ctrlWord v).toNat 1 4 = bits v 1 4 := by
  refine (getF_setF_other _ _ ⟨1, 4⟩ _ (by decide) (by decide)).trans ?_
  simp only [getF, bits, BitVec.toNat_ofNat, Nat.shiftRight_eq_div_pow]
  omega

/-- A write with ENABLE set is not one that clears it. -/
theorem not_disable {v : Nat} (keep : v % 2 = 1) (old : Reg) :
    ¬ (getF old LnkCtrl.enable = 1 ∧ getF (ctrlWord v) LnkCtrl.enable = 0) := by
  rw [enable_ctrlWord, keep]
  simp

/-- LNK_CTRL takes a write. -/
def ctrlStored (n v : Nat) (s : State) : State := put (lnkCtrl n) (ctrlWord v) s

theorem linkSt_ctrlStored (n v : Nat) (s : State) : linkSt (ctrlStored n v s) n = linkSt s n :=
  get_put_ne (by simp only [lnkCtrl, lnkStat]; omega) _ _ _

theorem linkSt_of_runs {n : Nat} {s : State} (runs : linkRuns s n = true) : linkSt s n = lsUp ∨ linkSt s n = lsFenced := by
  simpa [linkRuns] using runs

theorem linkRuns_ctrlStored (n v : Nat) (s : State) : linkRuns (ctrlStored n v s) n = linkRuns s n := by
  simp only [linkRuns, linkSt_ctrlStored]

section CtrlWrite

variable {n v : Nat} {s : State} (runs : linkRuns s n = true)

include runs

/-- A port that runs is neither in DOWN nor DISABLED. -/
theorem not_down_of_runs : linkSt (ctrlStored n v s) n ≠ lsDown ∧ linkSt (ctrlStored n v s) n ≠ lsDisabled := by
  rw [linkSt_ctrlStored]
  rcases linkSt_of_runs runs with h | h <;> rw [h] <;> decide

/-- Clearing ENABLE takes a running port down. -/
theorem lnkCtrlWrite_disable (enabled : getF (rd s (lnkCtrl n)) LnkCtrl.enable = 1) (clear : v % 2 = 0) :
    lnkCtrlWrite n v s = linkDownTo n ldDisabled false (ctrlStored n v s) :=
  (if_pos ⟨enabled, (enable_ctrlWord v).trans clear⟩).trans (if_neg (not_or.mpr (not_down_of_runs runs)))

/-- A write that leaves ENABLE, RATE, MEDIUM and TESTPAT of a running port only stores the value. -/
theorem lnkCtrlWrite_store (keep : v % 2 = 1) (same : bits (rd s (lnkCtrl n)).toNat 1 4 = bits v 1 4) :
    lnkCtrlWrite n v s = ctrlStored n v s := by
  refine (if_neg (not_disable keep _)).trans ((if_neg (not_down_of_runs runs).2).trans (if_neg ?_))
  rw [← ctrlWord, mode_ctrlWord, same]
  simp

/-- A new RATE, MEDIUM or TESTPAT takes a running port down, with a cause that the spec leaves open. -/
theorem lnkCtrlWrite_move (keep : v % 2 = 1) (moved : bits (rd s (lnkCtrl n)).toNat 1 4 ≠ bits v 1 4) :
    lnkCtrlWrite n v s =
      linkDownTo n (freeNat 4 (ctrlStored n v s)).1 false (freeNat 4 (ctrlStored n v s)).2 := by
  refine (if_neg (not_disable keep _)).trans ((if_neg (not_down_of_runs runs).2).trans ((if_pos ?_).trans
    (if_neg (not_down_of_runs runs).1)))
  rw [← ctrlWord, mode_ctrlWord]
  simpa using moved

end CtrlWrite

/-! ### LNK_NARROW (R302) -/

/-- What an entry of LNK_NARROW holds after a write. -/
def narrowWord (v : Nat) : Reg := BitVec.ofNat 64 (v % 2 ^ 5 + bits v 8 40 * 2 ^ 8)

theorem slot_narrowWord {v : Nat} (h : v < 2 ^ 64) :
    getF (narrowWord v) LnkNarrow.slot = getF (BitVec.ofNat 64 v) LnkNarrow.slot := by
  simp only [narrowWord, getF, bits, LnkNarrow.slot, BitVec.toNat_ofNat, Nat.shiftRight_eq_div_pow]
  omega

/-- A whole write of an entry replaces what it held. -/
theorem mergeHalf_full {v : Nat} (h : v < 2 ^ 64) (old : Reg) : mergeHalf .full old v = v := Nat.mod_eq_of_lt h

/-! ### CNT_CLEAR (R307, R542) -/

/-- The counters of a link are zero. -/
def CountersZero (n : Nat) (s : State) : Prop := rd s (lnkErr n) = 0 ∧ rd s (lnkDrop n) = 0 ∧ rd s (lnkNarrowStat n) = 0

/-- The counters of one link become zero. -/
def linkCleared (s : State) (k : Nat) : State := put (lnkErr k) 0 (put (lnkDrop k) 0 (put (lnkNarrowStat k) 0 s))

theorem lnkCntClear_eq (f : Nat) (s : State) : lnkCntClear f s = (fieldLinks f).foldl linkCleared s := rfl

theorem linkCleared_zero (s : State) (k : Nat) : CountersZero k (linkCleared s k) := by
  simp only [CountersZero, linkCleared, rd_put]
  simp

/-- Clearing leaves counters that are zero at zero. -/
theorem CountersZero.linkCleared {n : Nat} {s : State} (h : CountersZero n s) (k : Nat) :
    CountersZero n (linkCleared s k) := by
  obtain ⟨err, drop, narrow⟩ := h
  simp [CountersZero, Machine.linkCleared, rd_put, err, drop, narrow]

theorem foldl_linkCleared_zero {n : Nat} : ∀ (l : List Nat) (s : State), n ∈ l ∨ CountersZero n s →
    CountersZero n (l.foldl linkCleared s)
  | [], s, h => h.resolve_left List.not_mem_nil
  | k :: l, s, h => by
    refine foldl_linkCleared_zero l _ ?_
    rcases h with member | zero
    · rcases List.mem_cons.mp member with rfl | member
      · exact .inr (linkCleared_zero s n)
      · exact .inl member
    · exact .inr (zero.linkCleared k)

/-- The counters of a field's links. -/
def FieldCounter (f off : Nat) : Prop := ∃ n ∈ fieldLinks f, off = lnkErr n ∨ off = lnkDrop n ∨ off = lnkNarrowStat n

theorem lnkCntClear_regs (f : Nat) (s : State) : RegsBut (FieldCounter f) s (lnkCntClear f s) := by
  refine foldl_related (.refl _) .trans _ (fun k hk s => ?_) s
  have cleared : ∀ {off}, off = lnkErr k ∨ off = lnkDrop k ∨ off = lnkNarrowStat k → ∀ t,
      RegsBut (FieldCounter f) t (put off 0 t) := fun h t => regsBut_put ⟨k, hk, h⟩ 0 t
  exact ((cleared (.inr (.inr rfl)) s).trans (cleared (.inr (.inl rfl)) _)).trans (cleared (.inl rfl) _)

theorem lnkCntClear_same (f : Nat) (s : State) : lnkCntClear f s = { s with regs := (lnkCntClear f s).regs } :=
  foldl_related (R := fun s u => u = { s with regs := u.regs }) (fun _ => rfl) (fun h k => by rw [k, h]) _
    (fun _ _ _ => rfl) s

/-! ### Writes by the owner -/

section OwnerWrites

variable {m : Master} {s : State} (on : On s) (own : owner (settle s) = some m)

include own

theorem linkRuns_settle {n : LinkId} (runs : linkRuns s n = true) : linkRuns (settle s) n = true := by
  have port := n.isLt
  have apart : ¬ (lnkStat n = ownStat ∨ ReportReg (lnkStat n)) := by
    refine not_or.mpr ⟨?_, not_reportReg_of_low ?_ ?_⟩
    all_goals
      simp only [lnkStat, ownStat, ledLogStat]
      omega
  rw [linkRuns, linkSt, (settle_regs_of_owner own).get_eq apart, ← linkSt]
  exact runs

include on

theorem exec_lnkCtrlWrite (n : LinkId) (v : Nat) :
    exec (.lnkCtrlWrite m n v) s = .next (lnkCtrlWrite n v (settle s)) :=
  congrArg Host.Outcome.next (powered_asOwner on own _ _ _)

theorem exec_lnkNarrowWrite (i : Fin 16) {v : Nat} (hv : v < 2 ^ 64) :
    exec (.lnkNarrowWrite m i .full v) s = .next (lnkNarrowWrite m i (lnkNarrow i) 64 v (settle s)) := by
  refine (congrArg Host.Outcome.next (powered_asOwner on own _ _ _)).trans ?_
  rw [mergeHalf_full hv]
  rfl

theorem exec_lnkCntClear {f : FieldId} (reached : regOff s (lnkCntCtrl f) = false) :
    exec (.lnkCntClear m f) s = .next (lnkCntClear f (settle s)) := by
  refine congrArg Host.Outcome.next ((powered_on on _).trans ?_)
  rw [reached, if_neg Bool.false_ne_true, asOwner_owner own]

end OwnerWrites

/-- Settles O43, clause by clause: each cause takes the port down in the one way that is said of all causes, and each
register is written by the owner after the ownership is settled, which leaves the ports as they are. -/
theorem linksGoDown : Obligations.LinksGoDown := by
  unfold Obligations.LinksGoDown
  refine ⟨fun n s on runs may => ⟨fun silent => ?_, fun limited exceeded => ?_, fun d t stalled late => ?_,
    fun nak frames four => ?_⟩, fun m n v s on own runs enabled clear => ?_,
    fun m n v s on own runs enabled keep => ⟨fun same => ?_, fun moved => ?_⟩,
    fun m i v s on own hv => ⟨fun old new => ?_, fun active => ?_⟩, fun m f s on own reached => ?_⟩
  · obtain ⟨_, hu, rfl⟩ := completes_linkSilence on runs silent
    have down := linkDown_takes n.isLt ldSilence may
    exact ⟨_, hu, down.state, down.cause, down.empty.replay, down.empty.ctl, down.empty.data, down.empty.usable,
      down.reclaimed runs, down.tiles, down.hbm, down.req⟩
  · obtain ⟨_, hu, rfl⟩ := completes_linkUcwLimit on runs limited exceeded
    have down := linkDown_takes n.isLt ldUcw may
    exact ⟨_, hu, down.state, down.cause, down.empty.replay, down.empty.usable, down.tiles, down.hbm, down.req⟩
  · obtain ⟨_, hu, rfl⟩ := completes_linkCreditStall on runs stalled late
    have down := linkDown_takes n.isLt ldCreditStall may
    exact ⟨_, hu, down.state, down.cause, down.empty.replay, down.tiles, down.hbm, down.req⟩
  · obtain ⟨_, hu, rfl⟩ := completes_linkReplay_fourth on runs nak frames four
    have down := linkDown_takes n.isLt ldReplay may
    exact ⟨_, hu, down.state, down.cause, down.empty.replay, down.tiles, down.hbm, down.req⟩
  · have down := linkDownTo_takes n.isLt ldDisabled false (ctrlStored n v (settle s))
    have must : mustDisable (ctrlStored n v (settle s)) n = true := by
      rw [mustDisable, ctrlStored, get_put_same, enable_ctrlWord, clear]
      rfl
    rw [stateAfterDown, must, if_pos rfl] at down
    refine ⟨_, exec_lnkCtrlWrite on own n v, ?_⟩
    rw [lnkCtrlWrite_disable (linkRuns_settle own runs) enabled clear]
    exact ⟨down.state, (down.regs _ (not_downReg_lnkCtrl n.isLt)).trans (rd_put_same _ _ _), down.cause,
      down.tiles.trans (settle_tiles s), down.hbm.trans (settle_hbm s), down.req.trans (settle_req s)⟩
  · exact ⟨_, exec_lnkCtrlWrite on own n v, lnkCtrlWrite_store (linkRuns_settle own runs) keep same⟩
  · have down := linkDownTo_takes n.isLt (freeNat 4 (ctrlStored n v (settle s))).1 false
      (freeNat 4 (ctrlStored n v (settle s))).2
    have must := down.regs.mustDisable (not_downReg_lnkCtrl n.isLt) (not_downReg_lnkFdn n)
    refine ⟨_, exec_lnkCtrlWrite on own n v, ?_⟩
    rw [lnkCtrlWrite_move (linkRuns_settle own runs) keep moved]
    refine ⟨?_, down.tiles.trans (settle_tiles s), down.hbm.trans (settle_hbm s), down.req.trans (settle_req s)⟩
    rw [must]
    exact down.state
  · refine ⟨_, exec_lnkNarrowWrite on own i hv, ?_⟩
    rw [← slot_narrowWord hv] at new
    rw [lnkNarrowWrite, ← narrowWord, if_neg (not_or.mpr ⟨old, new⟩)]
    exact ⟨rd_put_same _ _ _, regsBut_put (p := (· = lnkNarrow i)) rfl _ _, rfl⟩
  · refine ⟨_, exec_lnkNarrowWrite on own i hv, ?_⟩
    rw [lnkNarrowWrite, if_pos (.inl active)]
    exact refusedWrite_reports _ _ _ _
  · exact ⟨_, exec_lnkCntClear on own reached, fun n hn => foldl_linkCleared_zero _ _ (.inl hn),
      lnkCntClear_regs f _, lnkCntClear_same f _⟩

end Sys2Proof.Machine
end

section
/-! What announcing a new owner, a lease, a claim window and a master that becomes the owner leave of the registers of
ownership (R320, R325-R327). -/

namespace Sys2Proof.Machine

open Sys2Proof

/-! ### Events of a head (R320) -/

theorem signalVector_same (h v : Nat) (s : State) :
    signalVector h v s = { s with regs := (signalVector h v s).regs, host := (signalVector h v s).host } := by
  unfold signalVector
  split <;> rfl

/-- An event of a head changes registers and the message counts of the heads. -/
theorem raiseEvent_same (h b : Nat) (s : State) :
    raiseEvent h b s = { s with regs := (raiseEvent h b s).regs, host := (raiseEvent h b s).host } := by
  unfold raiseEvent
  dsimp only
  split
  · rfl
  · split
    · exact signalVector_same _ _ _
    · rfl

theorem raiseBoth_same (b : Nat) (s : State) :
    raiseBoth b s = { s with regs := (raiseBoth b s).regs, host := (raiseBoth b s).host } := by
  unfold raiseBoth
  rw [raiseEvent_same 1 b, raiseEvent_same 0 b]

/-- The status bit of an event reads 1 once it has been raised. -/
theorem raiseEvent_bit {b : Nat} (hb : b < 64) (h : Nat) (s : State) :
    bit1 (rd (raiseEvent h b s) (queEvent h)).toNat b = true := by
  have written : bit1 (BitVec.ofNat 64 ((rd s (queEvent h)).toNat ||| 1 <<< b)).toNat b = true := by
    rw [bit1, BitVec.toNat_ofNat, Nat.testBit_mod_two_pow]
    simp [hb, Nat.one_shiftLeft]
  have apart : queEvent h ≠ msixPba h (64 / 64) := by
    simp only [queEvent, msixPba]
    omega
  unfold raiseEvent
  dsimp only
  split
  · assumption
  · split
    · rwa [signalVector_regs h 64 _ _ apart, rd_put_same]
    · rwa [rd_put_same]

/-! ### What an announcement touches (R327, R480, R481) -/

/-- The registers that announcing a new owner may change: those of an upload that PERMIT ends, and those of reports. -/
def AnnounceReg (off : Nat) : Prop :=
  off = nvmUpdCtrl ∨ off = nvmUpdStat ∨ (∃ i, off = nvmSlotStat i) ∨ ReportReg off

theorem not_announceReg_of_low {off : Nat} (h : off < 0x8000) : ¬ AnnounceReg off := by
  rintro (e | e | ⟨i, e⟩ | report)
  · exact Nat.ne_of_lt h e
  · exact Nat.ne_of_lt (Nat.lt_of_lt_of_le h (by decide)) e
  · simp only [nvmSlotStat] at e
    omega
  · exact not_reportReg_of_low (Nat.lt_of_lt_of_le h (by decide))
      (Nat.ne_of_lt (Nat.lt_of_lt_of_le h (by decide))) report

/-- The second state is what announcements and reports make of the first: the registers of ownership, the lease and the
claim window are as they were. -/
structure Announced (s u : State) : Prop where
  regs : RegsBut AnnounceReg s u
  own : u.own = s.own

namespace Announced

theorem refl (s : State) : Announced s s := ⟨.refl _ _, rfl⟩

theorem trans {s v u : State} (h : Announced s v) (k : Announced v u) : Announced s u :=
  ⟨h.regs.trans k.regs, k.own.trans h.own⟩

theorem upd {off : Nat} (h : AnnounceReg off) (f : Fld) (x : Nat) (s : State) : Announced s (Machine.upd off f x s) :=
  ⟨regsBut_upd h f x s, rfl⟩

theorem upload (v : Option Upload) (s : State) : Announced s { s with nvm := { s.nvm with upload := v } } :=
  ⟨fun _ _ => rfl, rfl⟩

/-- The registers below those of the NVM block keep their fields. -/
theorem get_eq {s u : State} (h : Announced s u) {off : Nat} (low : off < 0x8000) (f : Fld) :
    get u off f = get s off f := h.regs.get_eq (not_announceReg_of_low low) f

theorem owner_eq {s u : State} (h : Announced s u) : owner u = owner s := by
  simp only [owner, h.get_eq (off := ownStat) (by decide)]

theorem windowOpen_eq {s u : State} (h : Announced s u) : windowOpen u = windowOpen s := by
  simp only [windowOpen, h.get_eq (off := ownStat) (by decide)]

end Announced

theorem Reports.announced {s u : State} (h : Reports s u) : Announced s u :=
  ⟨h.1.mono fun _ ho => .inr (.inr (.inr ho)), by rw [h.2]⟩

theorem endUpload_announced (r : Nat) (s : State) : Announced s (endUpload r s) := by
  have slot : ∀ i, AnnounceReg (nvmSlotStat i) := fun i => .inr (.inr (.inl ⟨i, rfl⟩))
  unfold endUpload
  split
  · exact .refl s
  · exact ((((Announced.upload none s).trans (.upd (slot _) _ _ _)).trans (.upd (slot _) _ _ _)).trans
      (.upd (.inr (.inl rfl)) _ _ _)).trans (logCoded_reports _ _ _ _ _ _ _ _).announced

theorem announceOwner_announced (s : State) : Announced s (announceOwner s) :=
  ((((raiseBoth_reports _ s).announced.trans (svcEvent_reports _ _).announced).trans
    (logOpen_reports _ _ _ _ _ _ _).announced).trans (.upd (.inl rfl) _ _ _)).trans (endUpload_announced _ _)

/-! ### Fields of OWN_STAT -/

/-- A report of a change raises CHANGES and keeps the fields below it. -/
theorem get_reportOwner {f : Fld} (h : f.lo + f.w ≤ 32) (s : State) :
    get (reportOwner s) ownStat f = get s ownStat f :=
  ((announceOwner_announced _).get_eq (by decide) f).trans
    (get_upd_other _ _ _ _ _ (Nat.le_trans h (by decide)) (.inr h))

theorem windowOpen_reportOwner (s : State) : windowOpen (reportOwner s) = windowOpen s := by
  rw [windowOpen, get_reportOwner (by decide), ← windowOpen]

theorem reportOwner_own (s : State) : (reportOwner s).own = s.own := (announceOwner_announced _).own

theorem reportOwner_ownerKept (s : State) : OwnerKept s (reportOwner s) := get_reportOwner (by decide) s

/-- A closed window is not open, and names no holder. -/
theorem closeWindow_closes {s : State} (opened : windowOpen s = true) :
    windowOpen (closeWindow s) = false ∧ get (closeWindow s) ownStat OwnStat.holder = 3 := by
  have kept : ∀ f, get (closeWindow s) ownStat f =
      get (upd ownStat OwnStat.holder 3 (upd ownStat OwnStat.window 0 s)) ownStat f := by
    rw [closeWindow, if_pos opened]
    exact (raiseBoth_reports _ _).announced.get_eq (by decide)
  constructor
  · rw [windowOpen, kept, get_upd_other _ _ _ _ _ (by decide) (by decide), get_upd_same _ _ _ _ (by decide)]
    rfl
  · rw [kept, get_upd_same _ _ _ _ (by decide)]
    rfl

theorem windowOpen_closeWindow (s : State) : windowOpen (closeWindow s) = false := by
  cases opened : windowOpen s with
  | true => exact (closeWindow_closes opened).1
  | false => rwa [closeWindow, opened, if_neg Bool.false_ne_true]

theorem closeWindow_regs (s : State) : RegsBut (fun o => o = ownStat ∨ ReportReg o) s (closeWindow s) := by
  unfold closeWindow
  exact .ite (((regsBut_upd (.inl rfl) _ _ s).trans (regsBut_upd (.inl rfl) _ _ _)).trans
    ((raiseBoth_reports _ _).1.mono fun _ => .inr)) (.refl _ s)

theorem closeWindow_same (s : State) :
    closeWindow s = { s with regs := (closeWindow s).regs, host := (closeWindow s).host } := by
  unfold closeWindow
  split
  · rw [raiseBoth_same]
    rfl
  · rfl

theorem closeWindow_own (s : State) : (closeWindow s).own = s.own := by rw [closeWindow_same]

/-- A window whose span is not 0 opens, and ends when its span has passed. -/
theorem openWindow_opens {s : State} (span : get s ownCfg OwnCfg.claimWinMs ≠ 0) :
    windowOpen (openWindow s) = true ∧
      (openWindow s).own.windowEnd = s.devtime + get s ownCfg OwnCfg.claimWinMs * msTicks := by
  rw [openWindow, if_neg span]
  have reported := fun v => (raiseBoth_reports evOwner v).announced
  constructor
  · rw [(reported _).windowOpen_eq, windowOpen, get_upd_other _ _ _ _ _ (by decide) (by decide),
      get_upd_same _ _ _ _ (by decide)]
    rfl
  · rw [(reported _).own]
    rfl

theorem regsBut_own (p : Nat → Prop) (o : OwnState) (s : State) : RegsBut p s { s with own := o } := fun _ _ => rfl

theorem openWindow_regs (s : State) : RegsBut (fun o => o = ownStat ∨ ReportReg o) s (openWindow s) := by
  have stat : ∀ f x v, RegsBut (fun o => o = ownStat ∨ ReportReg o) v (upd ownStat f x v) :=
    fun f x v => regsBut_upd (.inl rfl) f x v
  unfold openWindow
  dsimp only
  split
  · exact .refl _ s
  · exact (regsBut_own _ _ s).trans ((stat _ _ _).trans ((stat _ _ _).trans
      ((raiseBoth_reports _ _).1.mono fun _ => .inr)))

/-- Once ownership has ended, a claim window whose span is not 0 stands open. -/
theorem endOwner_opens {s : State} (span : get s ownCfg OwnCfg.claimWinMs ≠ 0) :
    windowOpen (endOwner s) = true ∧
      (endOwner s).own.windowEnd = s.devtime + get s ownCfg OwnCfg.claimWinMs * msTicks := by
  have cfg : get (upd ownStat OwnStat.owner 3 s) ownCfg OwnCfg.claimWinMs = get s ownCfg OwnCfg.claimWinMs :=
    get_upd_ne (by decide) _ _ _ _
  obtain ⟨opened, ends⟩ := openWindow_opens (s := upd ownStat OwnStat.owner 3 s) (by rwa [cfg])
  rw [endOwner, windowOpen_reportOwner, reportOwner_own, ends, cfg]
  exact ⟨opened, rfl⟩

/-! ### Settling (R326) -/

/-- Settling changes no register of ownership but OWN_STAT. -/
theorem settle_regs (s : State) : RegsBut (fun o => o = ownStat ∨ AnnounceReg o) s (settle s) := by
  have report : ∀ o, (o = ownStat ∨ ReportReg o) → o = ownStat ∨ AnnounceReg o :=
    fun o ho => ho.imp_right fun h => .inr (.inr (.inr h))
  have stat : ∀ f x v, RegsBut (fun o => o = ownStat ∨ AnnounceReg o) v (upd ownStat f x v) :=
    fun f x v => regsBut_upd (.inl rfl) f x v
  have ended : RegsBut (fun o => o = ownStat ∨ AnnounceReg o) s (endOwner s) :=
    ((stat _ _ s).trans ((openWindow_regs _).mono report)).trans
      ((stat _ _ _).trans ((announceOwner_announced _).regs.mono fun _ => .inr))
  exact (RegsBut.ite ended (.refl _ s)).trans (RegsBut.ite ((closeWindow_regs _).mono report) (.refl _ _))

theorem get_settle_ownCfg (s : State) (f : Fld) : get (settle s) ownCfg f = get s ownCfg f :=
  (settle_regs s).get_eq (not_or.mpr ⟨by decide, not_announceReg_of_low (by decide)⟩) f

theorem settle_devtime (s : State) : (settle s).devtime = s.devtime := by rw [settle_ownFrame s]

/-- A full lease that starts after settling ends when one that starts before it would. -/
theorem leaseEnd_settle (s : State) : (settle s).devtime + leaseTicks (settle s) = s.devtime + leaseTicks s := by
  rw [settle_devtime, leaseTicks, get_settle_ownCfg, ← leaseTicks]

/-! ### A master that becomes the owner (R325) -/

/-- Each master but device firmware has a code in OWN_STAT. -/
theorem owner_of_code {m : Master} (hm : m ≠ .fw) {s : State} (code : get s ownStat OwnStat.owner = mcode m) :
    owner s = some m := by
  rw [owner, code]
  cases m with
  | fw => exact absurd rfl hm
  | ha | hb | svc => rfl

theorem owner_upd_owner {m : Master} (hm : m ≠ .fw) (s : State) :
    owner (upd ownStat OwnStat.owner (mcode m) s) = some m := by
  refine owner_of_code hm ?_
  rw [get_upd_same _ _ _ _ (by decide)]
  cases m <;> rfl

theorem leaseTicks_upd_ownStat (f : Fld) (x : Nat) (s : State) : leaseTicks (upd ownStat f x s) = leaseTicks s := by
  simp only [leaseTicks, get_upd_ne (show ownCfg ≠ ownStat by decide)]

theorem windowOpen_own (o : OwnState) (s : State) : windowOpen { s with own := o } = windowOpen s := rfl

theorem startLease_expiry (s : State) : (startLease s).own.expiry = s.devtime + leaseTicks s := rfl

theorem get_own (o : OwnState) (s : State) (off : Nat) (f : Fld) : get { s with own := o } off f = get s off f := rfl

theorem get_startLease (s : State) (off : Nat) (f : Fld) : get (startLease s) off f = get s off f := get_own _ _ _ _

theorem leaseStarted_ownFrame (m : Master) (s : State) :
    OwnFrame s (startLease (upd ownStat OwnStat.owner (mcode m) s)) :=
  (upd_ownFrame _ _ _ s).trans (own_ownFrame _ _)

/-- A master has become the owner with a full lease, and no claim window stands open. -/
structure Owned (m : Master) (s u : State) : Prop where
  owner : Machine.owner u = some m
  window : windowOpen u = false
  expiry : u.own.expiry = s.devtime + leaseTicks s
  frame : OwnFrame s u

/-- The window closes and the change is reported once a master is named the owner and its lease has started. -/
theorem reportedOwner_owned {m : Master} {s v : State} (named : owner v = some m)
    (lease : v.own.expiry = s.devtime + leaseTicks s) (frame : OwnFrame s v) {o : OwnState}
    (same : o.expiry = v.own.expiry) : Owned m s { reportOwner (closeWindow v) with own := o } where
  owner := (((closeWindow_ownerKept v).trans (reportOwner_ownerKept _)).trans (own_ownerKept _ _)).owner_eq.trans named
  window := by rw [windowOpen_own, windowOpen_reportOwner, windowOpen_closeWindow]
  expiry := same.trans lease
  frame := ((frame.trans (closeWindow_ownFrame v)).trans (reportOwner_ownFrame _)).trans (own_ownFrame _ _)

theorem makeOwner_owned {m : Master} (hm : m ≠ .fw) (s : State) : Owned m s (makeOwner m s) := by
  refine reportedOwner_owned (v := startLease (upd ownStat OwnStat.owner (mcode m) s)) ?_ ?_ (leaseStarted_ownFrame m s) ?_
  · exact (own_ownerKept _ _).owner_eq.trans (owner_upd_owner hm s)
  · rw [startLease_expiry, leaseTicks_upd_ownStat, upd_devtime]
  · rw [reportOwner_own, closeWindow_own]

theorem Owned.noteClaim {m : Master} {s u : State} (h : Owned m s u) : Owned m s (Machine.noteClaim u) where
  owner := (own_ownerKept _ _).owner_eq.trans h.owner
  window := (windowOpen_own _ _).trans h.window
  expiry := h.expiry
  frame := h.frame.trans (own_ownFrame _ _)

/-- Work is not touched by what changes ownership. -/
theorem OwnFrame.work {s u : State} (h : OwnFrame s u) :
    u.hbm = s.hbm ∧ u.tiles = s.tiles ∧ u.links = s.links ∧ u.req = s.req := by
  rw [h]
  exact ⟨rfl, rfl, rfl, rfl⟩

/-! ### The result of an act (R327) -/

theorem ownCmdOf_ne_ownStat (m : Master) : ownStat ≠ ownCmdOf m := by cases m <;> decide

theorem get_ownResult_result (m : Master) {r : Nat} (hr : r < 16) (s : State) :
    get (ownResult m r s) (ownCmdOf m) OwnCmdSvc.result = r :=
  (get_upd_same _ _ _ _ (by decide)).trans (Nat.mod_eq_of_lt hr)

theorem get_ownResult_ownStat (m : Master) (r : Nat) (s : State) (f : Fld) :
    get (ownResult m r s) ownStat f = get s ownStat f := get_upd_ne (ownCmdOf_ne_ownStat m) _ _ _ _

theorem owner_ownResult (m : Master) (r : Nat) (s : State) : owner (ownResult m r s) = owner s := by
  simp only [owner, get_ownResult_ownStat]

theorem windowOpen_ownResult (m : Master) (r : Nat) (s : State) : windowOpen (ownResult m r s) = windowOpen s := by
  simp only [windowOpen, get_ownResult_ownStat]

theorem ownResult_own (m : Master) (r : Nat) (s : State) : (ownResult m r s).own = s.own := rfl

/-- The result of an act that changes the lease. -/
theorem ownResult_same (m : Master) (r : Nat) (o : OwnState) (s : State) : ownResult m r { s with own := o } =
    { s with regs := (ownResult m r { s with own := o }).regs, own := (ownResult m r { s with own := o }).own } := rfl

theorem ownResult_ownFrame (m : Master) (r : Nat) (s : State) : OwnFrame s (ownResult m r s) := upd_ownFrame _ _ _ s

/-- A master that becomes the owner after settling has a full lease from the present tick, with the result of the act. -/
theorem Owned.ownResult {m : Master} {s u : State} (h : Owned m (settle s) u) (a : Master) {r : Nat} (hr : r < 16) :
    Machine.owner (Machine.ownResult a r u) = some m ∧ windowOpen (Machine.ownResult a r u) = false ∧
      get (Machine.ownResult a r u) (ownCmdOf a) OwnCmdSvc.result = r ∧
      (Machine.ownResult a r u).own.expiry = s.devtime + leaseTicks s ∧ OwnFrame s (Machine.ownResult a r u) :=
  ⟨(owner_ownResult _ _ _).trans h.owner, (windowOpen_ownResult _ _ _).trans h.window, get_ownResult_result a hr u,
    h.expiry.trans (leaseEnd_settle s), ((settle_ownFrame s).trans h.frame).trans (ownResult_ownFrame a r u)⟩

end Sys2Proof.Machine
end

section
/-! The statements on ownership: its acts, the failures of a CLAIM, and its timers (R320, R325-R327, R566). -/

namespace Sys2Proof.Machine

open Sys2Proof

/-! ### Commands of a powered device -/

section Commands

variable {s : State} (on : On s)

include on

theorem exec_claim (m : Master) : exec (.claim m) s = .next (claim m s) :=
  congrArg Host.Outcome.next (powered_on on _)

theorem exec_renew (m : Master) : exec (.renew m) s = .next (renew m s) :=
  congrArg Host.Outcome.next (powered_on on _)

theorem exec_release (m : Master) : exec (.release m) s = .next (release m s) :=
  congrArg Host.Outcome.next (powered_on on _)

theorem exec_transfer (m t : Master) : exec (.transfer m t) s = .next (transfer m t s) :=
  congrArg Host.Outcome.next (powered_on on _)

theorem exec_leaseLapse : exec .leaseLapse s = .next (lapse s) := congrArg Host.Outcome.next (powered_on on _)

theorem exec_claimWindowExpire : exec .claimWindowExpire s = .next (windowDue s) :=
  congrArg Host.Outcome.next (powered_on on _)

end Commands

/-! ### CLAIM (R326) -/

theorem eligible_ne_fw {m : Master} {s : State} (el : eligible s m = true) : m ≠ .fw := by
  rintro rfl
  exact Bool.false_ne_true el

section Claim

variable {m : Master} {s : State}

theorem claim_ok (h : claimResult m (settle s) = ownOk) :
    claim m s = ownResult m ownOk (noteClaim (makeOwner m (settle s))) := by simp only [claim, h, if_true]

/-- A CLAIM that fails and outbids nobody leaves only its result. -/
theorem claim_refused {r : Nat} (h : claimResult m (settle s) = r) (ok : r ≠ ownOk)
    (unbid : r ≠ ownOwned ∨ outbid m (settle s) = none) : claim m s = ownResult m r (settle s) := by
  simp only [claim, h, if_neg ok]
  rcases unbid with other | none
  · rw [beq_false_of_ne other]
  · rw [none]
    split
    · contradiction
    · rfl

theorem claim_outbids {o : Master} (h : claimResult m (settle s) = ownOwned) (bid : outbid m (settle s) = some o) :
    claim m s = takeOver m o (settle s) := by
  simp only [claim, h, bid]
  rfl

theorem completes_claim_refused (on : On s) {r : Nat} (h : claimResult m (settle s) = r) (ok : r ≠ ownOk)
    (unbid : r ≠ ownOwned ∨ outbid m (settle s) = none) (hr : r < 16) :
    Completes (.claim m) s fun u => owner u = owner (settle s) ∧ get u (ownCmdOf m) OwnCmdSvc.result = r := by
  refine ⟨_, exec_claim on m, ?_⟩
  rw [claim_refused h ok unbid]
  exact ⟨owner_ownResult _ _ _, get_ownResult_result m hr _⟩

theorem claimResult_notEligible {s : State} (el : eligible s m = false) : claimResult m s = ownNotEligible := by
  simp [claimResult, el]

variable {s : State} (el : eligible s m = true)

include el

theorem claimResult_notPresent (pr : present s m = false) : claimResult m s = ownNotPresent := by
  simp [claimResult, el, pr]

variable (pr : present s m = true)

include pr

theorem claimResult_owned (own : (owner s).isSome = true) : claimResult m s = ownOwned := by
  simp [claimResult, el, pr, own]

theorem claimResult_window (free : owner s = none) (opened : windowOpen s = true)
    (other : get s ownStat OwnStat.holder ≠ mcode m) : claimResult m s = ownWindow := by
  simp [claimResult, el, pr, free, opened, other]

theorem claimResult_ok (free : owner s = none)
    (holds : windowOpen s = true → get s ownStat OwnStat.holder = mcode m) : claimResult m s = ownOk := by
  have open_holds : (windowOpen s && get s ownStat OwnStat.holder != mcode m) = false := by
    cases opened : windowOpen s with
    | false => rfl
    | true => simp [holds opened]
  simp [claimResult, el, pr, free, open_holds]

end Claim

/-! ### The take-ended within one tick (R326) -/

/-- The owner that a claimant outbids is another master. -/
theorem owner_of_outbid {m o : Master} {s : State} (bid : outbid m s = some o) : owner s = some o ∧ m ≠ o := by
  rw [outbid] at bid
  split at bid
  · obtain ⟨own, higher⟩ := Option.filter_eq_some_iff.mp bid
    refine ⟨own, ?_⟩
    rintro rfl
    exact Nat.lt_irrefl _ (of_decide_eq_true higher)
  · contradiction

theorem mem_masters {m : Master} (hm : m ≠ .fw) : m ∈ [Master.ha, .hb, .svc] := by
  cases m with
  | fw => exact absurd rfl hm
  | ha | hb | svc => decide

/-- Each master but device firmware has an OWN_CMD of its own. -/
theorem ownCmdOf_ne {m o : Master} (hm : m ≠ .fw) (ho : o ≠ .fw) (ne : m ≠ o) : ownCmdOf o ≠ ownCmdOf m := by
  have apart : ∀ m ∈ [Master.ha, .hb, .svc], ∀ o ∈ [Master.ha, .hb, .svc], m ≠ o → ownCmdOf o ≠ ownCmdOf m := by decide
  exact apart m (mem_masters hm) o (mem_masters ho) ne

theorem takeOver_takes {m o : Master} (hm : m ≠ .fw) (ho : o ≠ .fw) (ne : m ≠ o) (s : State) :
    owner (takeOver m o s) = some m ∧ get (takeOver m o s) (ownCmdOf m) OwnCmdSvc.result = 1 ∧
      get (takeOver m o s) (ownCmdOf o) OwnCmdSvc.result = 5 ∧
      get (takeOver m o s) ownStat OwnStat.changes = get s ownStat OwnStat.changes := by
  have told := announceOwner_announced (startLease (upd ownStat OwnStat.owner (mcode m) s))
  have led : owner (startLease (upd ownStat OwnStat.owner (mcode m) s)) = some m :=
    (own_ownerKept _ _).owner_eq.trans (owner_upd_owner hm s)
  have counted : get (startLease (upd ownStat OwnStat.owner (mcode m) s)) ownStat OwnStat.changes =
      get s ownStat OwnStat.changes :=
    (get_startLease _ _ _).trans (get_upd_other ownStat _ _ _ _ (by decide) (by decide))
  rw [takeOver]
  refine ⟨?_, get_ownResult_result m (by decide) _, ?_, ?_⟩
  · rw [owner_ownResult, owner_ownResult, told.owner_eq, led]
  · exact (get_upd_ne (ownCmdOf_ne hm ho ne) _ _ _ _).trans (get_ownResult_result o (by decide) _)
  · rw [get_ownResult_ownStat, get_ownResult_ownStat, told.get_eq (by decide), counted]

/-! ### Acts of the owner (R325) -/

section Owner

variable {m : Master} {s : State} (own : owner (settle s) = some m)

include own

theorem renew_owner : renew m s = ownResult m ownOk (startLease (settle s)) := by simp [renew, isOwner, own]

theorem release_owner : release m s = ownResult m ownOk (endOwner (settle s)) := by simp [release, isOwner, own]

theorem transfer_owner {t : Master} (ne : t ≠ m) (el : eligible (settle s) t = true)
    (pr : present (settle s) t = true) : transfer m t s = ownResult m ownOk (makeOwner t (settle s)) := by
  simp [transfer, transferResult, isOwner, own, ne, el, pr]

end Owner

theorem lapse_over {s : State} (own : (owner s).isSome = true) (ended : s.own.expiry ≤ s.devtime) :
    lapse s = endOwner s := by simp [lapse, leaseOver, own, ended]

/-- Settles O8: after settling, each act is the one change of ownership that its conditions allow, and none of them
touches work. -/
theorem ownershipActs : Obligations.OwnershipActs := by
  unfold Obligations.OwnershipActs
  refine ⟨fun m s on el pr free holds => ?_, fun m s on own => ?_, fun m s on own => ?_, fun m t s on own ne el pr => ?_,
    fun s on own ended => ?_⟩
  · obtain ⟨led, closed, result, expiry, frame⟩ :=
      (makeOwner_owned (eligible_ne_fw el) (settle s)).noteClaim.ownResult m (r := ownOk) (by decide)
    refine ⟨_, exec_claim on m, ?_⟩
    rw [claim_ok (claimResult_ok el pr free holds)]
    exact ⟨led, closed, result, expiry, frame.work⟩
  · refine ⟨_, exec_renew on m, ?_⟩
    rw [renew_owner own]
    refine ⟨?_, get_ownResult_result m (by decide) _, ?_, ?_, ownResult_same m ownOk _ _⟩
    · rw [owner_ownResult]
      exact (own_ownerKept _ _).owner_eq.trans own
    · rw [ownResult_own, startLease_expiry, leaseEnd_settle]
    · exact (regsBut_own _ _ _).trans (regsBut_upd (p := (· = ownCmdOf m)) rfl _ _ _)
  · have frame := ((settle_ownFrame s).trans (endOwner_ownFrame _)).trans (ownResult_ownFrame m ownOk _)
    refine ⟨_, exec_release on m, ?_⟩
    rw [release_owner own]
    refine ⟨?_, get_ownResult_result m (by decide) _, fun span => ?_, frame.work⟩
    · rw [owner_ownResult, owner_endOwner]
    · rw [windowOpen_ownResult]
      exact (endOwner_opens (by rwa [get_settle_ownCfg])).1
  · obtain ⟨led, -, result, expiry, frame⟩ :=
      (makeOwner_owned (eligible_ne_fw el) (settle s)).ownResult m (r := ownOk) (by decide)
    refine ⟨_, exec_transfer on m t, ?_⟩
    rw [transfer_owner own ne el pr]
    exact ⟨led, result, expiry, frame.work⟩
  · obtain ⟨hbm, tiles, -, -⟩ := (endOwner_ownFrame s).work
    refine ⟨_, exec_leaseLapse on, ?_⟩
    rw [lapse_over own ended]
    exact ⟨owner_endOwner s, endOwner_opens, hbm, tiles⟩

/-! ### Timers (R320, R325) -/

section LeaseLow

variable {h : Head} {s : State} (on : On s) (own : owner s = some (headMaster h)) (untold : s.own.lowDone = false)
  (runs : s.devtime < s.own.expiry) (low : 4 * (s.own.expiry - s.devtime) ≤ leaseTicks s)

include on own untold runs low

/-- A head that owns the device is told once that a quarter of its lease is left. -/
theorem exec_leaseLow :
    exec .leaseLow s = .next (raiseEvent (hnum h) evLeaseLow { s with own := { s.own with lowDone := true } }) := by
  have told : owner { s with own := { s.own with lowDone := true } } = some (headMaster h) :=
    (own_ownerKept _ s).owner_eq.trans own
  refine congrArg Host.Outcome.next ((powered_on on _).trans ?_)
  rw [if_pos (by simp [own, untold, runs, low])]
  dsimp only
  rw [told]
  cases h <;> rfl

theorem completes_leaseLow :
    Completes .leaseLow s fun u => bit1 (rd u (queEvent (hnum h))).toNat 1 = true ∧ u.own.lowDone = true ∧
      owner u = owner s ∧ RegsBut (fun o => o = queEvent (hnum h) ∨ o = msixPba (hnum h) 1) s u ∧
      u = { s with regs := u.regs, own := u.own, host := u.host } := by
  refine ⟨_, exec_leaseLow on own untold runs low, ?_⟩
  have hh : hnum h < 2 := by cases h <;> decide
  have same := raiseEvent_same (hnum h) evLeaseLow { s with own := { s.own with lowDone := true } }
  refine ⟨raiseEvent_bit (by decide) _ _, by rw [same], ?_, ?_, ?_⟩
  · exact ((own_ownerKept _ s).trans (raiseEvent_reports hh _ _).ownerKept).owner_eq
  · exact (regsBut_own _ _ s).trans (raiseEvent_regs _ _ _)
  · rw [same]

end LeaseLow

theorem windowDue_over {s : State} (opened : windowOpen s = true) (ended : s.own.windowEnd ≤ s.devtime) :
    windowDue s = closeWindow s := by simp [windowDue, opened, ended]

/-- Settles O9: the failures of a CLAIM in the order of their results, the take-ended, and the timers. -/
theorem ownershipFailuresAndTimers : Obligations.OwnershipFailuresAndTimers := by
  unfold Obligations.OwnershipFailuresAndTimers
  refine ⟨fun m s on hm => ⟨fun el => ?_, fun el pr => ?_, fun el pr own unbid => ?_, fun o el pr bid => ?_,
    fun el pr free opened other => ?_⟩, fun h s on own untold runs low => ?_, fun s on opened ended => ?_,
    fun m op target s on hop reserved => ?_⟩
  · exact completes_claim_refused on (claimResult_notEligible el) (by decide) (.inl (by decide)) (by decide)
  · exact completes_claim_refused on (claimResult_notPresent el pr) (by decide) (.inl (by decide)) (by decide)
  · exact completes_claim_refused on (claimResult_owned el pr own) (by decide) (.inr unbid) (by decide)
  · obtain ⟨own, ne⟩ := owner_of_outbid bid
    have ho : o ≠ .fw := fun e => owner_ne_fw _ (e ▸ own)
    refine ⟨_, exec_claim on m, ?_⟩
    rw [claim_outbids (claimResult_owned el pr (by rw [own]; rfl)) bid]
    exact takeOver_takes hm ho ne _
  · exact completes_claim_refused on (claimResult_window el pr free opened other) (by decide) (.inl (by decide)) (by decide)
  · exact completes_leaseLow on own untold runs low
  · obtain ⟨closed, unheld⟩ := closeWindow_closes opened
    refine ⟨_, exec_claimWindowExpire on, ?_⟩
    rw [windowDue_over opened ended]
    exact ⟨closed, unheld, (closeWindow_ownerKept s).owner_eq, closeWindow_regs s, closeWindow_same s⟩
  · have op8 : op % 8 = op := Nat.mod_eq_of_lt hop
    refine ⟨_, congrArg Host.Outcome.next ((powered_on on _).trans (if_pos (by rwa [op8]))), ?_⟩
    exact refusedWrite_reports _ _ _ _

end Sys2Proof.Machine
end

section
/-! The statements on the host ports: MSI-X signals, head ranges and decoders, reads and writes of HBM by a host, and the
answers of the mailbox and of DOE (R266, R267, R309, R311-R314, R320, R423, R523). -/

namespace Sys2Proof.Machine

open Sys2Proof

/-! ### MSI-X signals (R320) -/

theorem signalVector_unmasked {h v : Nat} {s : State} (unmasked : get s (msixData h v) MsixData.mask = 0) :
    signalVector h v s = { s with host := { s.host with
      msix := tset (fun _ => 0) (65 * h + v) (tget (fun _ => 0) s.host.msix (65 * h + v) + 1) s.host.msix } } := by
  rw [signalVector, unmasked, if_neg (by decide)]

/-- The heads' state once a completion queue has signalled its vector and the tick of the signal is noted. -/
def hostSignalled (h q v now : Nat) (x : HostState) : HostState :=
  { x with
    unsignalled := tset (fun _ => false) (cqKey h q) false x.unsignalled
    msix := tset (fun _ => 0) (65 * h + v) (tget (fun _ => 0) x.msix (65 * h + v) + 1) x.msix
    signalled := tset (fun _ => none) (cqKey h q) (some now) x.signalled }

section Signal

variable {h : Head} {q : QueueId} {s : State} (on : On s)
  (waits : tget (fun _ => false) s.host.unsignalled (cqKey (hnum h) q) = true) (up : linkUp s (hnum h) = true)
  (irq : get s (queCqCfg (hnum h) q) QueCqCfg.irqEn = 1)
  (unmasked : get s (msixData (hnum h) (get s (queCqCfg (hnum h) q) QueCqCfg.vec)) MsixData.mask = 0)
  (passed : ∀ t, tget (fun _ => none) s.host.signalled (cqKey (hnum h) q) = some t →
    t + get s (queCqCfg (hnum h) q) QueCqCfg.aggUs * usTicks ≤ s.devtime)

include on waits up irq unmasked passed

theorem exec_msixSignal : exec (.msixSignal h q) s = .next
    { s with host := hostSignalled (hnum h) q (get s (queCqCfg (hnum h) q) QueCqCfg.vec) s.devtime s.host } := by
  refine congrArg Host.Outcome.next ((powered_on on _).trans ?_)
  dsimp only
  rw [if_pos]
  · rw [signalVector_unmasked (by exact unmasked)]
    rfl
  · rw [waits, up, irq]
    cases last : tget (fun _ => none) s.host.signalled (cqKey (hnum h) q) with
    | none => rfl
    | some t => simp [passed t last]

end Signal

/-! ### Head ranges (R311) -/

/-- The two fields of a head range that is written. -/
theorem bits_headRange {base size : Nat} (hb : base < 1024) (hs : size < 1024) :
    bits (base + size * 2 ^ 10) 0 10 = base ∧ bits (base + size * 2 ^ 10) 10 10 = size := by
  simp only [bits, Nat.shiftRight_eq_div_pow]
  omega

theorem headRangeWrite_admitted (m : Master) {h base size : Nat} {s : State} (hb : base < 1024) (hs : size ≤ 512)
    (below : (base + size) * 2 ^ 30 ≤ reservedBase s)
    (holds : outsideSpan s h (base * 2 ^ 30) (size * 2 ^ 30) = false)
    (buffers : bufferOutside s h (base * 2 ^ 30) (size * 2 ^ 30) = false) :
    headRangeWrite m h (base + size * 2 ^ 10) s =
      put (ownHeadRange h) (BitVec.ofNat 64 (base + size * 2 ^ 10)) s := by
  obtain ⟨eb, es⟩ := bits_headRange (size := size) hb (by omega)
  have fits : (base + size * 2 ^ 10) % 2 ^ 20 = base + size * 2 ^ 10 := Nat.mod_eq_of_lt (by omega)
  have sizeFits : ¬ 512 < size := Nat.not_lt.mpr hs
  have ends : ¬ reservedBase s < base * 2 ^ 30 + size * 2 ^ 30 := by rwa [← Nat.add_mul, Nat.not_lt]
  rw [headRangeWrite, eb, es, fits]
  exact if_neg (by simp only [sizeFits, ends, holds, buffers, Bool.false_eq_true, or_self, not_false_iff])

theorem getF_headRange {base size : Nat} (hb : base < 1024) (hs : size < 1024) :
    getF (BitVec.ofNat 64 (base + size * 2 ^ 10)) OwnHeadRange.base = base ∧
      getF (BitVec.ofNat 64 (base + size * 2 ^ 10)) OwnHeadRange.size = size := by
  have read := bits_headRange hb hs
  have fits : (BitVec.ofNat 64 (base + size * 2 ^ 10)).toNat = base + size * 2 ^ 10 :=
    Nat.mod_eq_of_lt (by omega)
  rw [getF, getF, fits]
  exact read

/-! ### Decoders (R312) -/

/-- A decoder maps a span; its DEC_COMMIT bit is set beside it. -/
def spanMapped (h d : Nat) (span : Nat × Nat) (s : State) : State :=
  { s with host := { s.host with decoders := tset (fun _ => (0, 0)) (4 * h + d) span s.host.decoders } }

section Decoders

variable {h : Head} {d : Fin 4} {size skip : Nat} {s : State} (on : On s)

include on

theorem exec_hdmCommit_odd (odd : size % 0x10000000 ≠ 0) :
    exec (.hdmCommit h d size skip) s = .next { s with answer := .notCommitted } := by
  have no : (size % 0x10000000 == 0) = false := beq_false_of_ne odd
  refine congrArg Host.Outcome.next ((powered_on on _).trans ?_)
  dsimp only
  rw [no]
  simp only [Bool.false_and, Bool.and_false, Bool.false_eq_true, if_false]
  rfl

theorem exec_hdmCommit (up : linkUp s (hnum h) = true) (free : decoder s (hnum h) d = none) (pos : 0 < size)
    (whole : size % 0x10000000 = 0) (inside : exposed s (hnum h) (decodersEnd s (hnum h) d + skip) size = true) :
    exec (.hdmCommit h d size skip) s = .next (answer .done (upd (queHeadStat (hnum h)) QueHeadStat.decCommit
      (get s (queHeadStat (hnum h)) QueHeadStat.decCommit ||| 2 ^ d.val)
      (spanMapped (hnum h) d (decodersEnd s (hnum h) d + skip, size) s))) := by
  refine congrArg Host.Outcome.next ((powered_on on _).trans ?_)
  dsimp only
  rw [if_pos (by simp [up, free, pos, whole, inside])]
  rfl

end Decoders

/-- A decoder whose DEC_COMMIT bit is set maps its span. -/
theorem decoder_committed {h : Nat} (d : Fin 4) (span : Nat × Nat) (old : Nat) (s : State) :
    decoder (answer .done (upd (queHeadStat h) QueHeadStat.decCommit (old ||| 2 ^ d.val) (spanMapped h d span s))) h d =
      some span := by
  have set : bit1 ((old ||| 2 ^ d.val) % 2 ^ 4) d = true := by
    rw [bit1, Nat.testBit_mod_two_pow]
    simp [d.isLt]
  rw [decoder, get_answer, get_upd_same _ _ _ _ (by decide)]
  exact (if_pos set).trans (congrArg some (tget_tset_same _ _ _ _))

/-- Settles O11: a signal, a head range and a commit each meet every condition of their guard. -/
theorem signalsRangesAndDecoders : Obligations.SignalsRangesAndDecoders := by
  unfold Obligations.SignalsRangesAndDecoders
  refine ⟨fun h q s on waits up irq unmasked passed => ?_, fun m h base size s on own hb hs below holds buffers => ?_,
    fun h d size skip s on up free pos whole inside => ?_, fun h d size skip s on odd => ?_⟩
  · exact ⟨_, exec_msixSignal on waits up irq unmasked passed, tget_tset_same _ _ _ _, tget_tset_same _ _ _ _,
      tget_tset_same _ _ _ _, rfl⟩
  · obtain ⟨getBase, getSize⟩ := getF_headRange (size := size) hb (by omega)
    refine ⟨_, congrArg Host.Outcome.next (powered_asOwner on own _ _ _), ?_⟩
    rw [headRangeWrite_admitted m hb hs below holds buffers]
    exact ⟨(get_put_same _ _ _ _).trans getBase, (get_put_same _ _ _ _).trans getSize,
      regsBut_put (p := (· = ownHeadRange (hnum h))) rfl _ _, rfl⟩
  · exact ⟨_, exec_hdmCommit on up free pos whole inside, decoder_committed d _ _ s, rfl,
      fun o ho => rd_upd_ne ho _ _ _, rfl⟩
  · exact ⟨_, exec_hdmCommit_odd on odd, rfl⟩

/-! ### Reads and writes of HBM (R313, R314) -/

/-- A line lies in one block, whose 64-byte unit it is: where no burst of it is in error, its store writes it alone. -/
theorem hbmStore_line {dpa : Nat} {bs : List Byte} {s : State} (len : bs.length = 64)
    (serves : homeFailed s (dpa / 64 * 64) = false) (clean : errsIn s (dpa / 64 * 64) 64 = []) :
    hbmStore (dpa / 64 * 64) bs s = hbmWrite (dpa / 64 * 64) bs s := by
  have blocks : (dpa / 64 * 64 + 64 + 255) / 256 - dpa / 64 * 64 / 256 = 1 := by omega
  have unit : dpa / 64 * 64 / 64 * 64 = dpa / 64 * 64 := by omega
  have ends : (dpa / 64 * 64 + 64 + 63) / 64 * 64 - dpa / 64 * 64 = 64 := by omega
  have whole : bs.take (256 - dpa / 64 * 64 % 256) = bs := List.take_of_length_le (by omega)
  rw [hbmStore, len, blocks, storeBlocks, storeBlocks, whole, storeBlock, if_neg (by simp [serves]), storeAnyway, len,
    unit, ends, clean, List.foldl_nil]

theorem padTo_length (bs : List Byte) : padTo bs.length bs = bs := by simp [padTo]

section CxlMem

variable {h : Head} {dpa : Nat} {s : State} (on : On s) (map : mapped s (hnum h) (dpa / 64 * 64) = true)

include on map

theorem exec_cxlMemRead_open (opened : memClosed s = false) (serves : rangeFailed s (dpa / 64 * 64) 64 = false)
    (clean : errsIn s (dpa / 64 * 64) 64 = []) :
    exec (.cxlMemRead h dpa) s = .next { s with answer := .data (hbmRead s (dpa / 64 * 64) 64) } := by
  refine congrArg Host.Outcome.next ((powered_on on _).trans ?_)
  dsimp only
  rw [map, opened, hbmTouch_clean serves clean]
  rfl

theorem exec_cxlMemRead_closed (closed : memClosed s = true) :
    exec (.cxlMemRead h dpa) s = .next { s with answer := .poison } := by
  refine congrArg Host.Outcome.next ((powered_on on _).trans ?_)
  dsimp only
  rw [map, closed]
  rfl

theorem exec_cxlMemWrite_open {bs : List Byte} (opened : memClosed s = false)
    (serves : homeFailed s (dpa / 64 * 64) = false) (clean : errsIn s (dpa / 64 * 64) 64 = []) (len : bs.length = 64) :
    exec (.cxlMemWrite h dpa bs false) s = .next (answer .done (hbmWrite (dpa / 64 * 64) bs s)) := by
  have whole : padTo 64 bs = bs := len ▸ padTo_length bs
  refine congrArg Host.Outcome.next ((powered_on on _).trans ?_)
  dsimp only
  rw [map, opened, serves, whole, hbmStore_line len serves clean]
  rfl

theorem exec_cxlMemWrite_closed (bs : List Byte) (poison : Bool) (closed : memClosed s = true) :
    exec (.cxlMemWrite h dpa bs poison) s =
      .next (answer .done (logOpen sevError kRefused bQue 314 0 (hnum h) s)) := by
  refine congrArg Host.Outcome.next ((powered_on on _).trans ?_)
  dsimp only
  rw [map, if_neg (by decide), if_pos (.inl closed)]

end CxlMem

/-- Settles O12: a line is read and written whole while memory is open; while it is closed a read is poisoned and a write
makes a log entry. -/
theorem cxlMemoryAccess : Obligations.CxlMemoryAccess := by
  unfold Obligations.CxlMemoryAccess
  refine ⟨fun h dpa s on map opened serves clean => ⟨_, exec_cxlMemRead_open on map opened serves clean, rfl⟩,
    fun h dpa bs s on map opened serves clean len => ?_,
    fun h dpa bs poison s on map closed => ⟨⟨_, exec_cxlMemRead_closed on map closed, rfl⟩, ?_⟩⟩
  · refine ⟨_, exec_cxlMemWrite_open on map opened serves clean len, rfl,
      fun i hi => hbmByte_hbmWrite_inside _ i bs s hi, fun b outside => ?_, rfl⟩
    exact hbmByte_hbmWrite_outside _ b bs s (by rwa [len])
  · exact ⟨_, exec_cxlMemWrite_closed on map bs poison closed, (logOpen_reports _ _ _ _ _ _ s).answer .done⟩

/-! ### Mailbox and DOE (R309, R423, R523) -/

/-- A command of the mailbox or of DOE reaches a head of a powered device whose link is up. -/
theorem atHead_up {h : Head} {s : State} (on : On s) (up : linkUp s (hnum h) = true) (f : State → State) :
    atHead h f s = f s := (powered_on on _).trans (if_pos up)

theorem cxlLogNum_lt (l : CxlLog) : cxlLogNum l < 4 := by cases l <;> decide

/-- Each event log of each head has a key of its own. -/
theorem cxlLogKey_ne {h h' : Nat} {l l' : CxlLog} (ne : (h', cxlLogNum l') ≠ (h, cxlLogNum l)) :
    4 * h' + cxlLogNum l' ≠ 4 * h + cxlLogNum l := by
  have lt := cxlLogNum_lt l
  have lt' := cxlLogNum_lt l'
  intro e
  exact ne (Prod.ext (by dsimp only; omega) (by dsimp only; omega))

/-- The entries of a log from which some are removed: those that are left, and the overflow ends with an emptied log. -/
theorem entries_cleared (c : CxlEvents) (rest : List LogEntry) :
    (if rest.isEmpty then {} else { c with entries := rest } : CxlEvents).entries = rest := by
  cases rest <;> rfl

section Mailbox

variable {h : Head} {s : State} (on : On s) (up : linkUp s (hnum h) = true)

include on up

theorem completes_clearEventRecords (log : CxlLog) (seqs : List Nat) : Completes (.clearEventRecords h log seqs) s fun u =>
    (cxlLog u (hnum h) log).entries = (cxlLog s (hnum h) log).entries.filter (fun e => !seqs.contains e.seq) ∧
    (∀ h' log', (hnum h', cxlLogNum log') ≠ (hnum h, cxlLogNum log) → cxlLog u (hnum h') log' = cxlLog s (hnum h') log') ∧
    u = { s with answer := .done, log := { s.log with cxl := u.log.cxl } } := by
  refine ⟨_, congrArg Host.Outcome.next (atHead_up on up _), ?_, fun h' log' ne => ?_, rfl⟩
  · rw [cxlLog]
    exact (congrArg CxlEvents.entries (tget_tset_same _ _ _ _)).trans (entries_cleared _ _)
  · exact tget_tset_of_ne _ (cxlLogKey_ne ne) _ _

theorem completes_doeDiscovery {i : Nat} (hi : i < 3) :
    Completes (.doeDiscovery h i) s fun u => u = { s with answer := .doe i ((i + 1) % 3) } := by
  refine ⟨_, congrArg Host.Outcome.next (atHead_up on up _), ?_⟩
  rw [if_pos hi]
  rfl

theorem completes_getLog {uuid : Nat} (effects : uuid = Config.effectsLogUuid) :
    Completes (.getLog h uuid) s fun u => u = { s with answer := .mailbox (Config.mailboxData 2 (hnum h)) } := by
  refine ⟨_, congrArg Host.Outcome.next (atHead_up on up _), ?_⟩
  rw [if_pos effects]
  rfl

end Mailbox

/-- Settles O14: every command that reaches its head gives its answer, and only CLEAR_EVENT_RECORDS changes more. -/
theorem mailboxAndDoeAnswers : Obligations.MailboxAndDoeAnswers := by
  unfold Obligations.MailboxAndDoeAnswers
  intro h s on up
  have reaches := atHead_up on up
  have answers : ∀ a, atHead h (answer a) s = { s with answer := a } := fun a => reaches _
  refine ⟨⟨_, congrArg Host.Outcome.next (answers _), rfl⟩, ⟨_, congrArg Host.Outcome.next (answers _), rfl⟩,
    ⟨_, congrArg Host.Outcome.next (answers _), rfl⟩, fun uuid effects => completes_getLog on up effects,
    fun log => ⟨_, congrArg Host.Outcome.next (reaches _), rfl, rfl⟩,
    fun log seqs => completes_clearEventRecords on up log seqs,
    ⟨_, congrArg Host.Outcome.next (reaches _), rfl, rfl⟩, fun v => ⟨_, congrArg Host.Outcome.next (answers _), rfl⟩,
    fun op => ⟨_, congrArg Host.Outcome.next (answers _), rfl⟩, fun i hi => completes_doeDiscovery on up hi,
    fun e => ⟨_, congrArg Host.Outcome.next (answers _), rfl⟩⟩

end Sys2Proof.Machine
end

section
/-! The statements on steps and events: a tick of the idle device (R421, R422, R251), and a repeated event (R520). -/

namespace Sys2Proof.Machine

open Sys2Proof

/-! ### A tick -/

/-- What the throttled time of routers changes: the counts of throttled time and what is not yet counted of it. -/
def Throttles (s u : State) : Prop :=
  RegsBut (fun o => ∃ g, o = conRouterStat g) s u ∧
    u = { s with regs := u.regs, net := { s.net with throttleFor := u.net.throttleFor } }

theorem Throttles.refl (s : State) : Throttles s s := ⟨.refl _ _, rfl⟩

theorem Throttles.trans {s v u : State} (h : Throttles s v) (k : Throttles v u) : Throttles s u := by
  obtain ⟨hr, he⟩ := h
  obtain ⟨kr, ke⟩ := k
  exact ⟨hr.trans kr, by rw [ke, he]⟩

theorem throttleStep_throttles (s : State) (g : Nat) : Throttles s (throttleStep s g) :=
  ⟨(RegsBut.refl _ s).trans (regsBut_satAdd ⟨g, rfl⟩ _ _ _), rfl⟩

theorem slewStep_same (c : ClockState) :
    slewStep c = { c with slew := (slewStep c).slew, offset := (slewStep c).offset } := by
  unfold slewStep
  generalize c.slew = l
  induction l generalizing c with
  | nil => rfl
  | cons e r ih => exact ih _

/-- The clocks after a tick: every 64th lets the fields that slew come one tick nearer (R422). -/
def tickClock (s : State) : ClockState := if (s.devtime + 1) % 64 = 0 then slewStep s.clock else s.clock

theorem tickClock_same (s : State) :
    tickClock s = { s.clock with slew := (tickClock s).slew, offset := (tickClock s).offset } := by
  unfold tickClock
  split
  · exact slewStep_same _
  · rfl

theorem tickClock_still {s : State} (still : s.clock.slew = []) : tickClock s = s.clock := by
  unfold tickClock slewStep
  rw [still]
  exact ite_self _

/-- The ticks of the counts, before the time of the throttled routers. -/
def ticked (s : State) : State := { s with devtime := s.devtime + 1, clock := tickClock s }

theorem tick_on {s : State} (on : On s) : tick s = s.net.throttled.foldl throttleStep (ticked s) := powered_on on _

theorem tick_throttles {s : State} (on : On s) : Throttles (ticked s) (tick s) := by
  rw [tick_on on]
  exact foldl_related Throttles.refl Throttles.trans _ (fun g _ s => throttleStep_throttles s g) _

theorem step_idle {s : State} (idle : s.pending = []) : step s = .next (tick s) := by
  rw [step, idle]

/-- Settles O1: the front command runs on the rest of the queue, and an idle step is a tick. -/
theorem stepRunsFrontCommand : Obligations.StepRunsFrontCommand := by
  refine ⟨fun c r s front => by rw [step, front], fun s idle on => ?_, fun s idle on calm still => ?_,
    fun s idle off => ?_⟩
  · obtain ⟨regs, same⟩ := tick_throttles on
    refine ⟨_, step_idle idle, by rw [same]; rfl, regs, by rw [same]; rfl, by rw [same]; rfl, ?_⟩
    rw [same]
    exact tickClock_same s
  · rw [step_idle idle, tick_on on, calm, ticked, tickClock_still still]
    rfl
  · rw [step_idle idle, tick, powered, if_pos (Option.isSome_iff_ne_none.mpr off)]

/-! ### Events that repeat (R520) -/

theorem foldsInto_iff {now : Nat} {e : LogEv} {x : LogEntry} :
    foldsInto now e x = true ↔ e.sev ≤ sevNotice ∧ now ≤ x.time + secTicks ∧ x.About e := by
  simp only [foldsInto, Bool.and_eq_true, beq_iff_eq, decide_eq_true_eq]
  exact ⟨fun ⟨hv, ht, ho, hb, hk, hs, hc⟩ => ⟨hv, ht, hb, hk, hs, hc, ho⟩,
    fun ⟨hv, ht, ⟨hb, hk, hs, hc, ho⟩⟩ => ⟨hv, ht, ho, hb, hk, hs, hc⟩⟩

/-- The first entry that takes an event in is the one whose REPEAT rises. -/
theorem foldIn_first {now : Nat} {e : LogEv} {l r : List LogEntry} {x : LogEntry}
    (before : ∀ y ∈ l, foldsInto now e y = false) (h : foldsInto now e x = true) :
    foldIn now e (l ++ x :: r) = some (l ++ { x with rep := min 65535 (x.rep + 1) } :: r) := by
  induction l with
  | nil => simp [foldIn, h]
  | cons y l ih =>
    obtain ⟨hy, hl⟩ := List.forall_mem_cons.mp before
    simp [foldIn, hy, ih hl]

/-- An event above NOTICE folds into no entry. -/
theorem foldIn_severe {now : Nat} {e : LogEv} (severe : 3 ≤ e.sev) : ∀ l : List LogEntry, foldIn now e l = none
  | [] => rfl
  | y :: l => by
    have hy : foldsInto now e y = false := by
      rw [← Bool.not_eq_true, foldsInto_iff]
      exact fun ⟨low, _⟩ => absurd low (by simp only [sevNotice]; omega)
    simp [foldIn, hy, foldIn_severe severe l]

/-- Settles O7: the first entry within the last second takes a low event in, and a severe one makes its own. -/
theorem repeatedEventsFold : Obligations.RepeatedEventsFold := by
  refine ⟨fun e l r x s _ low held before hb hk hs hc ho recent => ?_, fun e s severe room => ?_⟩
  · have first := foldIn_first (l := l) (r := r) (now := s.devtime) (e := e) (fun y hy => ?_)
      (foldsInto_iff.mpr ⟨low, recent, hb, hk, hs, hc, ho⟩)
    · rw [logEvent, held, first]
    · rw [← Bool.not_eq_true, foldsInto_iff]
      rintro ⟨-, late, about⟩
      have other := before y hy
      rw [about.block, about.kind, about.source, about.code, about.object] at other
      omega
  · have new := logEvent_held_of_new (foldIn_severe severe s.log.held)
    rw [logPlace_of_room room] at new
    exact ⟨newEntry e s, new, rfl, rfl⟩

end Sys2Proof.Machine
end

section
/-! The invariant of the machine: every command keeps it, and so does a tick. -/

namespace Sys2Proof.Machine
open Sys2Proof

/-- Every command keeps a sound state sound: it answers a next state, with the same queue and the invariant. -/
theorem good_exec {q : List Instr} {s : State} (hG : Good q s) (c : Instr) : ∃ w, exec c s = .next w ∧ Good q w := by
  unfold exec
  cases c with
  | accessError _ _ _ _ => exact good_execAccessError hG
  | registerWrite _ => exact good_execRegisterWrite hG
  | sqDoorbell _ _ _ _ => exact good_execSqDoorbell hG
  | cqDoorbell _ _ _ _ => exact good_execCqDoorbell hG
  | descriptorFetch => exact good_execDescriptorFetch hG
  | switchPoint => exact good_execSwitchPoint hG
  | batchStart => exact good_execBatchStart hG
  | deadlineExpire _ => exact good_execDeadlineExpire hG
  | completionWrite _ => exact good_execCompletionWrite hG
  | msixSignal _ _ => exact good_execMsixSignal hG
  | slotCfgWrite _ _ _ => exact good_execSlotCfgWrite hG
  | stage _ _ _ => exact good_execStage hG
  | stageDone _ => exact good_execStageDone hG
  | remove _ _ _ => exact good_execRemove hG
  | activate _ _ _ => exact good_execActivate hG
  | seasonDrainDone => exact good_execSeasonDrainDone hG
  | seasonLoadDone => exact good_execSeasonLoadDone hG
  | seasonConfirmed => exact good_execSeasonConfirmed hG
  | layerStart => exact good_execLayerStart hG
  | layerEnd => exact good_execLayerEnd hG
  | testWindowClose _ => exact good_execTestWindowClose hG
  | unitFire _ _ _ => exact good_execUnitFire hG
  | operandArrive _ _ _ => exact good_execOperandArrive hG
  | tagHorizonExpire _ _ => exact good_execTagHorizonExpire hG
  | passIssue _ => exact good_execPassIssue hG
  | weightFrontStart _ => exact good_execWeightFrontStart hG
  | weightFetch _ => exact good_execWeightFetch hG
  | weightFetchDone _ => exact good_execWeightFetchDone hG
  | passComplete _ _ => exact good_execPassComplete hG
  | kernelStart _ => exact good_execKernelStart hG
  | frameStart _ => exact good_execFrameStart hG
  | tilRunEn _ _ _ => exact good_execTilRunEn hG
  | tilHaltReq _ _ _ => exact good_execTilHaltReq hG
  | tilTestWin _ _ _ => exact good_execTilTestWin hG
  | tilCntFreeze _ _ _ => exact good_execTilCntFreeze hG
  | tilCntClear _ _ => exact good_execTilCntClear hG
  | tileDrainDone _ => exact good_execTileDrainDone hG
  | tilFaultClear _ _ => exact good_execTilFaultClear hG
  | tilDfFaultClear _ _ => exact good_execTilDfFaultClear hG
  | tileReset _ => exact good_execTileReset hG
  | spVectorArith _ _ _ => exact good_execSpVectorArith hG
  | spConvert _ _ _ => exact good_execSpConvert hG
  | spLa96Convert _ _ _ => exact good_execSpLa96Convert hG
  | spMxPack _ _ _ => exact good_execSpMxPack hG
  | spMxUnpack _ _ _ => exact good_execSpMxUnpack hG
  | spFunction _ _ _ => exact good_execSpFunction hG
  | spLaneReduce _ _ _ => exact good_execSpLaneReduce hG
  | spIntLogic _ _ _ => exact good_execSpIntLogic hG
  | spVectorLoadStore _ _ _ _ => exact good_execSpVectorLoadStore hG
  | spLa96LoadStore _ _ _ => exact good_execSpLa96LoadStore hG
  | spScalarLoadStore _ _ _ _ => exact good_execSpScalarLoadStore hG
  | spAnchorRead _ _ => exact good_execSpAnchorRead hG
  | spBranch _ _ _ => exact good_execSpBranch hG
  | spHwLoop _ _ => exact good_execSpHwLoop hG
  | spMcReturn _ => exact good_execSpMcReturn hG
  | spEmit _ _ => exact good_execSpEmit hG
  | spWaitFlag _ _ _ => exact good_execSpWaitFlag hG
  | spFence _ => exact good_execSpFence hG
  | spEndKernel _ => exact good_execSpEndKernel hG
  | spIllegal _ _ => exact good_execSpIllegal hG
  | mcAbsent _ _ => exact good_execMcAbsent hG
  | katRun _ _ => exact good_execKatRun hG
  | digest64 _ _ => exact good_execDigest64 hG
  | wdigest _ _ => exact good_execWdigest hG
  | anchorCombine _ => exact good_execAnchorCombine hG
  | stateLoad _ _ => exact good_execStateLoad hG
  | stateStore _ _ => exact good_execStateStore hG
  | spillDrain _ _ => exact good_execSpillDrain hG
  | dmaSubmit _ => exact good_execDmaSubmit hG
  | latSend _ => exact good_execLatSend hG
  | barArrive _ => exact good_execBarArrive hG
  | flagWrite _ => exact good_execFlagWrite hG
  | quietReport _ => exact good_execQuietReport hG
  | detectorReply _ _ => exact good_execDetectorReply hG
  | deadlockRecheck _ => exact good_execDeadlockRecheck hG
  | spillClose _ _ => exact good_execSpillClose hG
  | dmaDescStart _ _ _ => exact good_execDmaDescStart hG
  | dmaTimeout _ _ _ => exact good_execDmaTimeout hG
  | notifyResend _ _ => exact good_execNotifyResend hG
  | landingReceive _ _ _ => exact good_execLandingReceive hG
  | la96Receive _ _ _ => exact good_execLa96Receive hG
  | channelCredit _ _ => exact good_execChannelCredit hG
  | tunnelFlush _ _ _ => exact good_execTunnelFlush hG
  | routerForward _ _ _ => exact good_execRouterForward hG
  | ctlTimeout _ _ => exact good_execCtlTimeout hG
  | pktOperand _ => exact good_execPktOperand hG
  | pktAck _ => exact good_execPktAck hG
  | pktRefuse _ => exact good_execPktRefuse hG
  | pktReadReqWindow _ => exact good_execPktReadReqWindow hG
  | pktReadReqHbm _ => exact good_execPktReadReqHbm hG
  | pktNotify _ => exact good_execPktNotify hG
  | pktFlagWrite _ => exact good_execPktFlagWrite hG
  | pktBarArrive _ => exact good_execPktBarArrive hG
  | pktTunnelCredit _ => exact good_execPktTunnelCredit hG
  | pktMgmt _ => exact good_execPktMgmt hG
  | pktWrite _ => exact good_execPktWrite hG
  | pktHbmWrite _ => exact good_execPktHbmWrite hG
  | pktReadData _ => exact good_execPktReadData hG
  | pktPrivWrite _ => exact good_execPktPrivWrite hG
  | pktLatTunnel _ => exact good_execPktLatTunnel hG
  | pktReservedOpcode _ => exact good_execPktReservedOpcode hG
  | quiesce => exact good_execQuiesce hG
  | seamWireMark _ _ _ => exact good_execSeamWireMark hG
  | stackTempRead _ _ _ _ => exact good_execStackTempRead hG
  | hbmScrub _ _ _ => exact good_execHbmScrub hG
  | hbmChannelFail _ _ => exact good_execHbmChannelFail hG
  | mark _ _ => exact good_execMark hG
  | unmark _ _ => exact good_execUnmark hG
  | restore _ _ => exact good_execRestore hG
  | hbmMemoryTestDone _ _ _ => exact good_execHbmMemoryTestDone hG
  | linkTrainDone _ => exact good_execLinkTrainDone hG
  | linkTrainTimeout _ => exact good_execLinkTrainTimeout hG
  | linkAlignDone _ _ => exact good_execLinkAlignDone hG
  | linkAlignFail _ => exact good_execLinkAlignFail hG
  | initFrameSend _ => exact good_execInitFrameSend hG
  | initFrameReceive _ _ => exact good_execInitFrameReceive hG
  | linkInitTimeout _ => exact good_execLinkInitTimeout hG
  | linkRetry _ => exact good_execLinkRetry hG
  | linkFrameSend _ => exact good_execLinkFrameSend hG
  | seqFrameReceive _ _ _ => exact good_execSeqFrameReceive hG
  | nullFrameReceive _ _ _ => exact good_execNullFrameReceive hG
  | frameCrcFail _ _ => exact good_execFrameCrcFail hG
  | nakResend _ => exact good_execNakResend hG
  | linkReplay _ => exact good_execLinkReplay hG
  | linkReplayTimeout _ => exact good_execLinkReplayTimeout hG
  | linkSilence _ => exact good_execLinkSilence hG
  | linkUcwLimit _ => exact good_execLinkUcwLimit hG
  | linkCreditStall _ _ => exact good_execLinkCreditStall hG
  | lnkCtrlWrite _ _ _ => exact good_execLnkCtrlWrite hG
  | lnkNarrowWrite _ _ _ _ => exact good_execLnkNarrowWrite hG
  | lnkCntClear _ _ => exact good_execLnkCntClear hG
  | cxlMemRead _ _ => exact good_execCxlMemRead hG
  | cxlMemWrite _ _ _ _ => exact good_execCxlMemWrite hG
  | hdmCommit _ _ _ _ => exact good_execHdmCommit hG
  | sqCfgWrite _ _ _ _ _ => exact good_execSqCfgWrite hG
  | cqCfgWrite _ _ _ _ _ => exact good_execCqCfgWrite hG
  | ownHeadRangeWrite _ _ _ => exact good_execOwnHeadRangeWrite hG
  | headLinkDown _ => exact good_execHeadLinkDown hG
  | headLinkUp _ _ _ => exact good_execHeadLinkUp hG
  | perstAssert _ _ => exact good_execPerstAssert hG
  | perstDeassert _ => exact good_execPerstDeassert hG
  | identifyMemoryDevice _ => exact good_execIdentifyMemoryDevice hG
  | getSupportedLogs _ => exact good_execGetSupportedLogs hG
  | getLog _ _ => exact good_execGetLog hG
  | getEventRecords _ _ => exact good_execGetEventRecords hG
  | clearEventRecords _ _ _ => exact good_execClearEventRecords hG
  | getTimestamp _ => exact good_execGetTimestamp hG
  | getHealthInfo _ => exact good_execGetHealthInfo hG
  | setTimestamp _ _ => exact good_execSetTimestamp hG
  | mailboxUnsupported _ _ => exact good_execMailboxUnsupported hG
  | doeDiscovery _ _ => exact good_execDoeDiscovery hG
  | cdatTableAccess _ _ => exact good_execCdatTableAccess hG
  | claim _ => exact good_execClaim hG
  | renew _ => exact good_execRenew hG
  | release _ => exact good_execRelease hG
  | transfer _ _ => exact good_execTransfer hG
  | ownCmdReserved _ _ _ => exact good_execOwnCmdReserved hG
  | leaseLow => exact good_execLeaseLow hG
  | leaseLapse => exact good_execLeaseLapse hG
  | claimWindowExpire => exact good_execClaimWindowExpire hG
  | tileSramScrub _ _ _ _ => exact good_execTileSramScrub hG
  | digestArrive _ => exact good_execDigestArrive hG
  | digestTimeout _ => exact good_execDigestTimeout hG
  | wdigestRoundStart => exact good_execWdigestRoundStart hG
  | wdigLate _ => exact good_execWdigLate hG
  | vinHighEnter _ _ => exact good_execVinHighEnter hG
  | vinHighRelease _ _ => exact good_execVinHighRelease hG
  | overvoltEnter _ _ => exact good_execOvervoltEnter hG
  | overvoltRelease _ _ => exact good_execOvervoltRelease hG
  | capEnter _ _ => exact good_execCapEnter hG
  | capRelease _ _ => exact good_execCapRelease hG
  | haltEnter _ _ => exact good_execHaltEnter hG
  | haltRelease _ _ => exact good_execHaltRelease hG
  | brownout _ _ => exact good_execBrownout hG
  | brownoutRelease _ _ => exact good_execBrownoutRelease hG
  | inputEnBreak => exact good_execInputEnBreak hG
  | vinQualify _ _ _ => exact good_execVinQualify hG
  | supplyInRegulation _ => exact good_execSupplyInRegulation hG
  | shutdown _ => exact good_execShutdown hG
  | pwrCmdReserved _ _ => exact good_execPwrCmdReserved hG
  | ibcFail _ _ => exact good_execIbcFail hG
  | senseFault _ _ _ => exact good_execSenseFault hG
  | fieldLoss _ _ => exact good_execFieldLoss hG
  | phaseFail _ _ => exact good_execPhaseFail hG
  | shortTrip _ _ => exact good_execShortTrip hG
  | admissionGrant _ => exact good_execAdmissionGrant hG
  | admissionForced _ => exact good_execAdmissionForced hG
  | softStartDone _ => exact good_execSoftStartDone hG
  | clusterRampDownDone _ => exact good_execClusterRampDownDone hG
  | auxConverterFault _ => exact good_execAuxConverterFault hG
  | auxRailFault _ => exact good_execAuxRailFault hG
  | hostRailFault _ => exact good_execHostRailFault hG
  | controlSample _ => exact good_execControlSample hG
  | autumnExit => exact good_execAutumnExit hG
  | thermalUpdate => exact good_execThermalUpdate hG
  | tempSample _ _ => exact good_execTempSample hG
  | coolingReturn _ => exact good_execCoolingReturn hG
  | dieTrip _ _ _ => exact good_execDieTrip hG
  | coolantSample _ _ => exact good_execCoolantSample hG
  | winterRequest _ _ => exact good_execWinterRequest hG
  | winterEnter => exact good_execWinterEnter hG
  | winterExit _ => exact good_execWinterExit hG
  | pllLock _ => exact good_execPllLock hG
  | pllLockLoss _ => exact good_execPllLockLoss hG
  | pllRelockTimeout _ => exact good_execPllRelockTimeout hG
  | crefLoss => exact good_execCrefLoss hG
  | skewRead _ _ => exact good_execSkewRead hG
  | marginReport _ _ => exact good_execMarginReport hG
  | stepUpBegin => exact good_execStepUpBegin hG
  | dividerSwitch _ => exact good_execDividerSwitch hG
  | vsetStep _ => exact good_execVsetStep hG
  | syncStrobe _ => exact good_execSyncStrobe hG
  | epochWrite _ _ _ => exact good_execEpochWrite hG
  | fabricReset _ _ => exact good_execFabricReset hG
  | deviceReset _ => exact good_execDeviceReset hG
  | powerOnReset => exact good_execPowerOnReset hG
  | fcWatchdogExpire _ => exact good_execFcWatchdogExpire hG
  | supWatchdogExpire => exact good_execSupWatchdogExpire hG
  | resetCmdFabric _ => exact good_execResetCmdFabric hG
  | resetCmdDevice _ => exact good_execResetCmdDevice hG
  | resetCmdReserved _ => exact good_execResetCmdReserved hG
  | rebuild _ => exact good_execRebuild hG
  | retryField _ _ => exact good_execRetryField hG
  | cancel _ => exact good_execCancel hG
  | bootRomStart _ => exact good_execBootRomStart hG
  | supervisorFirmwareStart _ => exact good_execSupervisorFirmwareStart hG
  | fieldControllerBoot _ => exact good_execFieldControllerBoot hG
  | fieldQuoteReceive _ _ => exact good_execFieldQuoteReceive hG
  | springStep _ => exact good_execSpringStep hG
  | springDone => exact good_execSpringDone hG
  | standbyPromote _ _ => exact good_execStandbyPromote hG
  | remapTargetsReady _ => exact good_execRemapTargetsReady hG
  | remapBeginWritten => exact good_execRemapBeginWritten hG
  | remapCopyDone _ => exact good_execRemapCopyDone hG
  | remapCommitWritten => exact good_execRemapCommitWritten hG
  | remapEndWritten => exact good_execRemapEndWritten hG
  | nvmDeviceFail _ => exact good_execNvmDeviceFail hG
  | install _ _ => exact good_execInstall hG
  | enroll _ _ => exact good_execEnroll hG
  | selectCurrent _ => exact good_execSelectCurrent hG
  | selectPrevious _ => exact good_execSelectPrevious hG
  | cfgCmdReserved _ _ => exact good_execCfgCmdReserved hG
  | halfCommand _ _ _ => exact good_execHalfCommand hG
  | permitWrite _ _ => exact good_execPermitWrite hG
  | updActivate _ => exact good_execUpdActivate hG
  | arm _ => exact good_execArm hG
  | disarm _ => exact good_execDisarm hG
  | reject _ => exact good_execReject hG
  | erase _ => exact good_execErase hG
  | abort _ => exact good_execAbort hG
  | updCmdReserved _ => exact good_execUpdCmdReserved hG
  | trialTimerExpire => exact good_execTrialTimerExpire hG
  | trialSpringLimit => exact good_execTrialSpringLimit hG
  | trialDeadline => exact good_execTrialDeadline hG
  | trialHealthBroken => exact good_execTrialHealthBroken hG
  | trialConfirm => exact good_execTrialConfirm hG
  | hello _ _ => exact good_execHello hG
  | authKey _ _ => exact good_execAuthKey hG
  | auth _ _ _ => exact good_execAuth hG
  | svcHalfOpenLapse => exact good_execSvcHalfOpenLapse hG
  | close _ => exact good_execClose hG
  | nop _ => exact good_execNop hG
  | svcSessionTimeout => exact good_execSvcSessionTimeout hG
  | regRead _ => exact good_execRegRead hG
  | regWrite _ => exact good_execRegWrite hG
  | cfgPart _ => exact good_execCfgPart hG
  | enrollPart _ => exact good_execEnrollPart hG
  | cfgSelect _ => exact good_execCfgSelect hG
  | fwBegin _ => exact good_execFwBegin hG
  | fwData _ => exact good_execFwData hG
  | fwEnd _ => exact good_execFwEnd hG
  | fwAbort _ => exact good_execFwAbort hG
  | logRead _ => exact good_execLogRead hG
  | eventAck _ => exact good_execEventAck hG
  | svcEventResend _ => exact good_execSvcEventResend hG
  | getVersion _ _ => exact good_execGetVersion hG
  | getCapabilities _ _ => exact good_execGetCapabilities hG
  | negotiateAlgorithms _ _ => exact good_execNegotiateAlgorithms hG
  | getDigests _ _ => exact good_execGetDigests hG
  | getCertificate _ _ _ _ => exact good_execGetCertificate hG
  | challenge _ _ _ => exact good_execChallenge hG
  | getMeasurements _ _ _ _ _ => exact good_execGetMeasurements hG
  | spdmUnsupported _ _ => exact good_execSpdmUnsupported hG
  | logPageWrite => exact good_execLogPageWrite hG
  | lifetimeWrite => exact good_execLifetimeWrite hG
  | lifetimePersist _ _ => exact good_execLifetimePersist hG
  | stressTick => exact good_execStressTick hG
  | entdaa _ => exact good_execEntdaa hG
  | setdasa _ _ => exact good_execSetdasa hG
  | rstdaa => exact good_execRstdaa hG
  | getpid => exact good_execGetpid hG
  | getbcr => exact good_execGetbcr hG
  | getdcr => exact good_execGetdcr hG
  | getstatus => exact good_execGetstatus hG
  | getmwl => exact good_execGetmwl hG
  | getmrl => exact good_execGetmrl hG
  | i3cCccUnsupported _ => exact good_execI3cCccUnsupported hG
  | i3cPrivateWrite _ => exact good_execI3cPrivateWrite hG
  | i3cPrivateRead _ => exact good_execI3cPrivateRead hG
  | i3cIbi => exact good_execI3cIbi hG
  | inputEnMate _ => exact good_execInputEnMate hG
  | svcBlockLock _ => exact good_execSvcBlockLock hG
  | arpNeighbourDiscovery _ _ _ => exact good_execArpNeighbourDiscovery hG
  | icmpEcho _ _ _ => exact good_execIcmpEcho hG

/-- Settles O3: an idle step is a tick, and every other step one command. -/
theorem everyStepKeepsInvariant : Obligations.EveryStepKeepsInvariant := by
  intro s u inv h
  cases hp : s.pending with
  | nil =>
    simp only [step, hp] at h
    cases h
    exact (good_tick ⟨hp, inv⟩).inv
  | cons c r =>
    simp only [step, hp] at h
    obtain ⟨w, hw, good⟩ := good_exec (q := r) (s := { s with pending := r })
      ⟨rfl, inv.regs, inv.hbm, inv.otp, inv.events, inv.held⟩ c
    rw [hw] at h
    cases h
    exact good.inv

end Sys2Proof.Machine
end

section
/-! Statements on integrity and power that fail: a tile that is not ready does not stop (R122), and a field or cluster
that goes in the midst of another reset (R362, R442, R400). Each counterexample is a state that the model runs. -/

namespace Sys2Proof.Machine

open Sys2Proof

/-! ### Reading off what a command leaves -/

/-- What `f` reads in the state that a command answers. -/
def readAfter {α : Type} (f : State → α) (c : Instr) (s : State) : Option α :=
  match exec c s with
  | .next u => some (f u)
  | _ => none

/-- A state of which a completed command's claim holds is the one that is read after it. -/
theorem Completes.readAfter {α : Type} {c : Instr} {s : State} {P : State → Prop} (h : Completes c s P) (f : State → α) :
    ∃ u, P u ∧ readAfter f c s = some (f u) := by
  obtain ⟨u, hu, hP⟩ := h
  exact ⟨u, hP, by rw [Machine.readAfter, hu]⟩

/-- A command is not said to leave a value where the model, run, leaves another. -/
theorem Completes.reads {α : Type} {c : Instr} {s : State} {P : State → Prop} {f : State → α} {a b : α}
    (h : Completes c s P) (claim : ∀ u, P u → f u = a) (run : Machine.readAfter f c s = some b) : a = b := by
  obtain ⟨u, hP, read⟩ := h.readAfter f
  rw [run, Option.some.injEq] at read
  rw [read, claim u hP]

/-! ### Digests (R332, R333, R345) -/

/-- A compared step of tile 0, which is not ready: both digests of its pair are there and differ. -/
def unreadyStep : State :=
  { unready with
    req := { batch := some { slot := 0, model := 0, reqs := [] } }
    integ := { selected := [0], digests := [(0, some 1), (1, some 2)] } }

/-- Refutes O37: the digests differ, and tile 0, which is not ready, stays in IDLE (R122). -/
theorem not_digestsAreCompared : ¬ Obligations.DigestsAreCompared := by
  unfold Obligations.DigestsAreCompared
  rintro ⟨-, arrive, -⟩
  obtain ⟨-, -, differ⟩ := arrive 0 unreadyStep rfl rfl (by decide)
  have faulted := differ 1 2 (by decide +kernel) (by decide) (by decide +kernel) (by decide +kernel)
  have idle : readAfter (fun u => tileSt u 0) (.digestArrive 0) unreadyStep = some tsIdle := by decide +kernel
  exact absurd (faulted.reads (fun u ⟨_, _, ⟨halts, _, _⟩, _⟩ => halts) idle) (by decide)

/-- An image whose MEMPLAN has one record: the first unit of tile 0's WM (R186, R192). -/
def planImage (base : Nat) : List Host.Cell :=
  [(base + 30, 1), (base + 40, 64), (base + 64, 4), (base + 68, 1), (base + 72, 96), (base + 104, 1)]

/-- A digest round of that image, in slot 0. Tile 0, which is not ready and awaits a remap, holds a byte of WM that is not
the image's. -/
def unreadyRound : State :=
  upd (tilCtrl 0) TilCtrl.cntFreeze 1 <| upd (supSeasonStat 0) SupSeasonStat.state ssActive <|
    upd intStat IntStat.mode 1 <| upd intCtrl IntCtrl.wdigS 1
      { unready with
        hbm := planImage (slotBase unready 0)
        tiles := [(0, { wm := [(0, 1)] })]
        integ := { roundAt := some 0 }
        boot := { microcode := 1, remapQueue := [(0, 0)] } }

/-- Refutes O38: the range hashes to another value than its reference, and tile 0, which is not ready, stays in IDLE
(R122). -/
theorem not_weightDigests : ¬ Obligations.WeightDigests := by
  unfold Obligations.WeightDigests
  rintro ⟨-, ranges, -⟩
  obtain ⟨-, differ⟩ := ranges 0 0 0 0 1 0 unreadyRound rfl (by decide +kernel) (by decide +kernel) (by decide +kernel) rfl
    (by decide +kernel) (by decide +kernel) rfl
  have faulted := differ (by decide +kernel) (by decide +kernel) (by decide +kernel)
  have idle : readAfter (fun u => tileSt u 0) (.wdigest 0 0) unreadyRound = some tsIdle := by decide +kernel
  exact absurd (faulted.reads (fun u ⟨⟨halts, _, _⟩, _⟩ => halts) idle) (by decide)

/-! ### The last converter of a field (R362, R442) -/

/-- A map in which field 0 has gone. -/
def elevenFields : MapRecord := { State.reset.boot.map with live := 0xFFE }

/-- Twelve live fields in the map in force, eleven in the stored one, a fabric reset restarted twice within the second, and
one converter left on field 0, whose sites hold no tile and whose slices have FAILED. -/
def thirdRestart : State :=
  upd (pwrFieldStat 0) PwrFieldStat.ibcB 2 <| upd (pwrFieldStat 0) PwrFieldStat.ibcC 2
    { State.reset with
      regs := ((List.range 768).filter fun n => sliceField n == 0).map fun n => (hbmSlice n, BitVec.ofNat 64 slFailed)
      boot := { State.reset.boot with
        map := { State.reset.boot.map with logical := (List.range 64).map fun t => (t, 0xFFFF) }
        fabricReset := true, fabricTimes := [0, 0], nvmMap := elevenFields, nvmPrev := elevenFields } }

/-- Refutes O45: the third restart becomes a device reset, which loads the stored map; that field 0 is dropped from a live
set without it leaves a set that holds it. -/
theorem not_fieldAndAuxiliarySupplies : ¬ Obligations.FieldAndAuxiliarySupplies := by
  unfold Obligations.FieldAndAuxiliarySupplies
  rintro ⟨converters, -⟩
  obtain ⟨-, -, last⟩ := converters 0 0 thirdRestart rfl (by decide +kernel)
  have lost := last (by decide +kernel) (by decide +kernel) (by decide +kernel)
  have live : readAfter (fun u => fieldLive u 0) (.ibcFail 0 0) thirdRestart = some true := by decide +kernel
  exact absurd (lost.reads (fun _ => id) live) (by decide)

/-! ### The exit from WINTER (R400, R444) -/

/-- An exit from WINTER in a device of one live field, all of whose clusters are dark. -/
def darkExit : State :=
  (List.range 20).foldl (fun s g => upd (pwrClStat g) PwrClStat.state 4 s) <| upd pwrState PwrState.state 4
    { State.reset with
      devtime := 100 * msTicks
      power := { siteOn := [0] }
      control := { State.reset.control with winterClear := some 0, exiting := true }
      boot := { State.reset.boot with map := { State.reset.boot.map with live := 1 } } }

theorem inv_darkExit : Inv darkExit :=
  ⟨by decide +kernel, by decide +kernel, by decide +kernel, by decide +kernel, by decide +kernel⟩

/-- Refutes O49: a site fails its known-answer run, no STANDBY site takes its tile, so the last field is lost, and the
device reset that follows forgets every issue limit. -/
theorem not_winterAndItsExit : ¬ Obligations.WinterAndItsExit := by
  unfold Obligations.WinterAndItsExit
  rintro ⟨-, -, exits⟩
  obtain ⟨-, ended⟩ := exits 0 [0] darkExit rfl rfl (by decide +kernel) (by decide +kernel) (by decide +kernel)
  have limits := ended inv_darkExit rfl (by decide +kernel)
  have logical : 0 ∈ logicalClusters darkExit := by decide +kernel
  have forgotten : readAfter (fun u => tget (fun _ => 64) u.control.m 0) (.winterExit [0]) darkExit = some 64 := by
    decide +kernel
  exact absurd (limits.reads (fun u ⟨_, one, _⟩ => one 0 logical) forgotten) (by decide)

end Sys2Proof.Machine
end

section
/-! Statements on resets and remaps that fail: the load of an image reads HBM through its decoder (R264, R265), which
writes back what it delivers; an error pattern that is itself a codeword is delivered as other data. -/

namespace Sys2Proof.Machine

open Sys2Proof

/-- The error pattern of the codeword whose one data bit is bit 7 of byte 3. -/
def silentPattern : BurstErr := { syms := [(31, 1), (32, 15), (33, 54), (34, 120), (35, 64)] }

/-- Slot 0 holds the active season, an image of one byte whose first burst carries that pattern; no field is live. -/
def silentImage : State :=
  upd (supSeasonStat 0) SupSeasonStat.state ssActive
    { State.reset with
      hbm := [(slotBase State.reset 0 + 16, 1)]
      hbmState := { State.reset.hbmState with errs := [(slotBase State.reset 0 / 32, silentPattern)] }
      boot := { State.reset.boot with map := { State.reset.boot.map with live := 0 } } }

/-! ### The end of a fabric reset (R442) -/

/-- In SUMMER, with no NVM device in service, a fabric reset runs that may complete. -/
def silentReset : State :=
  upd pwrState PwrState.state 2 <| upd nvmUpdStat NvmUpdStat.nvmAOk 0 <| upd nvmUpdStat NvmUpdStat.nvmBOk 0
    { silentImage with boot := { silentImage.boot with fabricReset := true } }

/-- Refutes O52: the fabric reset loads the season's image again, and its first burst comes back as other data. -/
theorem not_resetsAndRepairCommands : ¬ Obligations.ResetsAndRepairCommands := by
  unfold Obligations.ResetsAndRepairCommands
  rintro ⟨-, -, -, -, fabric, -⟩
  obtain ⟨-, completes, -⟩ := fabric .owner [] silentReset rfl
  have ended := completes rfl (by decide +kernel) (fun _ h => by cases h) (.inl rfl)
  have changed : readAfter (fun u => u.hbm.length) (.fabricReset .owner []) silentReset = some 2 := by decide +kernel
  exact absurd (ended.reads (fun u ⟨_, _, same, _⟩ => congrArg List.length same) changed) (by decide +kernel)

/-! ### The commit of a remap (R445) -/

/-- Tile 0 moves from site 0 to site 64. -/
def silentMove : RemapEntry := { tile := 0, old := 0, new := 64, cause := 2 }

/-- A remap of that entry whose COMMIT record is in NVM. -/
def silentCommit : State :=
  { silentImage with boot := { silentImage.boot with
      remap := some { field := 0, id := 1, step := .committing, entries := [silentMove] } } }

theorem inv_silentCommit : Inv silentCommit :=
  ⟨by decide +kernel, by decide +kernel, by decide +kernel, by decide +kernel, by decide +kernel⟩

/-- Refutes O54: the tile is loaded from the season's image, whose first burst comes back as other data. -/
theorem not_remapsAndPromotions : ¬ Obligations.RemapsAndPromotions := by
  unfold Obligations.RemapsAndPromotions
  rintro ⟨remap, -⟩
  obtain ⟨-, -, -, commit, -⟩ := remap _ silentCommit rfl rfl
  have moved := commit silentMove inv_silentCommit rfl (by decide +kernel) rfl (by decide) (by decide) (by decide)
  have changed : readAfter (fun u => u.hbm.length) .remapCommitWritten silentCommit = some 2 := by decide +kernel
  exact absurd (moved.reads (fun u ⟨_, _, _, _, _, _, _, _, _, same⟩ => congrArg List.length same) changed)
    (by decide +kernel)

end Sys2Proof.Machine
end

section
/-! What the supervisor writes to NVM: pages, log pages, lifetime and device records (R461–R465, R521, R525–R529). -/

namespace Sys2Proof.Machine

open Sys2Proof

/-! ### Pages and lifetime counts -/

/-- Pages are written and lifetime counts kept: of the registers only `p` may change, of NVM only the counts of its pages. -/
def Paged (p : Nat → Prop) (s u : State) : Prop :=
  RegsBut p s u ∧ u = { s with regs := u.regs, life := u.life, nvm := { s.nvm with pages := u.nvm.pages } }

namespace Paged

variable {p : Nat → Prop} {s v u : State}

theorem refl (p : Nat → Prop) (s : State) : Paged p s s := ⟨.refl p s, rfl⟩

theorem trans (h : Paged p s v) (k : Paged p v u) : Paged p s u := by
  obtain ⟨hr, he⟩ := h
  obtain ⟨kr, ke⟩ := k
  exact ⟨hr.trans kr, by rw [ke, he]⟩

theorem life (x : LifeState) (s : State) : Paged p s { s with life := x } := ⟨fun _ _ => rfl, rfl⟩

theorem upd {off : Nat} (h : p off) (f : Fld) (x : Nat) (s : State) : Paged p s (upd off f x s) :=
  ⟨regsBut_upd h f x s, rfl⟩

theorem upd_self (off : Nat) (f : Fld) (x : Nat) (s : State) : Paged (· = off) s (Machine.upd off f x s) :=
  upd (p := (· = off)) rfl f x s

theorem get_eq (h : Paged p s u) {off : Nat} (ho : ¬ p off) (f : Fld) : get u off f = get s off f := h.1.get_eq ho f

end Paged

theorem lifeSet_paged (p : Nat → Prop) (off n v : Nat) (s : State) : Paged p s (lifeSet off n v s) := .life _ s

theorem lifeCount_paged (p : Nat → Prop) (off n k : Nat) (s : State) : Paged p s (lifeCount off n k s) := .life _ s

theorem setLifeWord_paged (p : Nat → Prop) (i : Nat) (v : Reg) (s : State) : Paged p s (setLifeWord i v s) := .life _ s

theorem countErases_paged (p : Nat → Prop) (d a n : Nat) (s : State) : Paged p s (countErases d a n s) := by
  unfold countErases
  split
  · exact .refl p s
  · exact .life _ s

theorem nvmPages_paged (p : Nat → Prop) (a n : Nat) (s : State) : Paged p s (nvmPages a n s) := by
  unfold nvmPages
  dsimp only
  have erased : ∀ m v, Paged p v ((nvmDevices v).foldl (fun v d => countErases d a m v) v) := fun m v =>
    foldl_related (Paged.refl p) .trans _ (fun d _ v => countErases_paged p d a m v) v
  refine Paged.trans ?_ (erased _ _)
  exact ⟨fun _ _ => rfl, rfl⟩

/-! ### Lifetime records -/

/-- A lifetime record changes no register but LIF_STAT, and besides it only the lifetime counts and the pages of NVM. -/
theorem lifetimeWrite_paged (s : State) : Paged (· = lifStat) s (lifetimeWrite s) := by
  unfold lifetimeWrite
  split
  · exact .refl _ s
  · dsimp only
    refine .trans (.trans ?_ (.upd_self _ _ _ _)) (.upd_self _ _ _ _)
    refine .trans (.trans (.trans ?_ (nvmPages_paged _ arLife 11 _)) (lifeSet_paged _ _ _ _ _)) (.life _ _)
    refine .trans (.trans (.trans ?_ (setLifeWord_paged _ 2 _ _)) (setLifeWord_paged _ 1 _ _)) (lifeSet_paged _ 28 _ _ _)
    exact (((lifeSet_paged _ 8 _ _ s).trans (lifeSet_paged _ 4 _ _ _)).trans (lifeSet_paged _ 0 _ _ _)).trans
      (lifeSet_paged _ 20 _ _ _)

theorem lifetimeWrite_out {s : State} (out : nvmOk s = false) : lifetimeWrite s = s := by
  rw [lifetimeWrite, out]
  rfl

section
variable {s : State} (ok : nvmOk s = true)
include ok

theorem lifetimeWrite_seq : (lifetimeWrite s).life.seq = s.life.seq + 1 := by
  rw [lifetimeWrite, ok]
  rfl

theorem lifetimeWrite_record : (lifetimeWrite s).life.record = (lifetimeWrite s).life.live := by
  rw [lifetimeWrite, ok]
  rfl

theorem get_lifetimeWrite_seq : get (lifetimeWrite s) lifStat LifStat.seq = (s.life.seq + 1) % 2 ^ LifStat.seq.w := by
  rw [lifetimeWrite, ok]
  exact get_upd_same _ _ _ _ (by decide)

end

/-! ### Log pages -/

/-- The log page of the oldest held entries. -/
def nextPage (s : State) : LogPage :=
  { seq := s.log.pageSeq, time := s.devtime, boots := get s queBootId QueBootId.boots, entries := s.log.held.take 7 }

/-- The log once that page is written. -/
def pagedLog (s : State) : LogState :=
  { s.log with
    pages := (if s.log.pages.length < logAreaPages then s.log.pages else s.log.pages.drop 256) ++ [nextPage s]
    pageSeq := s.log.pageSeq + 1, held := s.log.held.drop 7 }

theorem logPageWrite_eq {s : State} (held : s.log.held ≠ []) (ok : nvmOk s = true) :
    logPageWrite s = upd ledLogStat LedLogStat.unwritten (s.log.held.drop 7).length
      (nvmPages arLog 1 { s with log := pagedLog s }) := by
  rw [logPageWrite, ok, if_neg (by simpa using held)]
  rfl

theorem logPageWrite_out {s : State} (out : nvmOk s = false) : logPageWrite s = s := by
  rw [logPageWrite, out, if_pos (by simp)]

/-- A log page takes the held entries it holds, and changes nothing of the registers but LED_LOG_STAT. -/
theorem logPageWrite_paged {s : State} (held : s.log.held ≠ []) (ok : nvmOk s = true) :
    Paged (· = ledLogStat) { s with log := pagedLog s } (logPageWrite s) := by
  rw [logPageWrite_eq held ok]
  exact (nvmPages_paged _ arLog 1 _).trans (.upd_self _ _ _ _)

theorem Paged.log_eq {p : Nat → Prop} {s u : State} (h : Paged p s u) : u.log = s.log := by rw [h.2]

/-! ### A second of stress (R526) -/

theorem poweredClusters_lt {s : State} {g : Nat} (h : g ∈ poweredClusters s) : g < 240 := by
  simp only [poweredClusters, List.mem_filterMap] at h
  obtain ⟨e, -, he⟩ := h
  split at he
  · next on =>
    obtain ⟨low, high, -, -⟩ := on
    cases he
    omega
  · cases he

/-- Lifetime counts are kept, and the word of the powered time is as it was. -/
def TimeKept (s u : State) : Prop := u = { s with life := u.life } ∧ lifeWord u 6 = lifeWord s 6

theorem TimeKept.refl (s : State) : TimeKept s s := ⟨rfl, rfl⟩

theorem TimeKept.trans {s v u : State} (h : TimeKept s v) (k : TimeKept v u) : TimeKept s u := by
  obtain ⟨he, hw⟩ := h
  obtain ⟨ke, kw⟩ := k
  exact ⟨by rw [ke, he], kw.trans hw⟩

theorem TimeKept.ite {c : Prop} [Decidable c] {s v u : State} (h : TimeKept s v) (k : TimeKept s u) :
    TimeKept s (if c then v else u) := by
  split
  · exact h
  · exact k

theorem lifeSet_timeKept {off : Nat} (h : 56 ≤ off) (n v : Nat) (s : State) : TimeKept s (lifeSet off n v s) :=
  ⟨rfl, tget_tset_of_ne _ (by omega) _ _⟩

theorem stressCluster_timeKept (s : State) (g : Nat) : TimeKept s (stressCluster s g) := by
  unfold stressCluster
  dsimp only
  refine .trans ?_ (lifeSet_timeKept (by omega) _ _ _)
  exact ⟨rfl, rfl⟩

theorem stackDay_timeKept (s : State) (k : Nat) : TimeKept s (stackDay s k) :=
  .trans (foldl_related .refl .trans _ (fun i _ s => lifeSet_timeKept (by omega) _ _ s) s)
    (lifeSet_timeKept (by omega) _ _ _)

theorem lifeGet_timeKept {s u : State} (h : TimeKept s u) : lifeGet u 48 8 = lifeGet s 48 8 := by
  obtain ⟨-, word⟩ := h
  unfold lifeGet
  rw [show lifeWord u (48 / 8) = lifeWord s (48 / 8) from word]

/-- A count reads as it was set, cut to its bytes. -/
theorem lifeGet_lifeSet {off n : Nat} (h : off % 8 + n ≤ 8) (v : Nat) (s : State) :
    lifeGet (lifeSet off n v s) off n = v % 2 ^ (n * 8) := by
  rw [lifeGet, lifeWord, lifeSet, setLifeWord, tget_tset_same]
  exact getF_setF_same _ _ _ (by simp only [lifeFld]; omega)

/-- A count that is raised stops at its highest value. -/
theorem lifeGet_lifeCount {off n : Nat} (h : off % 8 + n ≤ 8) (k : Nat) (s : State) :
    lifeGet (lifeCount off n k s) off n = min (2 ^ (8 * n) - 1) (lifeGet s off n + k) := by
  rw [lifeCount, lifeGet_lifeSet h, Nat.mul_comm]
  exact Nat.mod_eq_of_lt (Nat.lt_of_le_of_lt (Nat.min_le_left _ _) (Nat.sub_lt (Nat.two_pow_pos _) Nat.one_pos))

/-- The registers of LIF_PAGE of some words refreshed. -/
def pagesShown (l : List Nat) (s : State) : State :=
  { s with regs := l.foldl (fun r i => tset regReset (lifPage i) (lifeWord s i) r) s.regs }

theorem lifeRefresh_eq (s : State) : lifeRefresh s = pagesShown (List.range 352) s := by
  unfold lifeRefresh pagesShown
  generalize List.range 352 = l
  rfl

theorem pagesShown_same (l : List Nat) (s : State) : pagesShown l s = { s with regs := (pagesShown l s).regs } := rfl

theorem pagesShown_regs (l : List Nat) (s : State) : RegsBut (fun o => ∃ i ∈ l, o = lifPage i) s (pagesShown l s) := by
  have kept : ∀ (l : List Nat) (r : Table Reg) (o : Nat), (∀ i ∈ l, o ≠ lifPage i) →
      tget regReset (l.foldl (fun r i => tset regReset (lifPage i) (lifeWord s i) r) r) o = tget regReset r o := by
    intro l
    induction l with
    | nil => exact fun _ _ _ => rfl
    | cons i l ih =>
      intro r o ho
      rw [List.foldl_cons, ih _ _ fun j hj => ho j (List.mem_cons_of_mem _ hj)]
      exact tget_tset_of_ne _ (ho i List.mem_cons_self) _ _
  exact fun o ho => kept l s.regs o fun i hi e => ho ⟨i, hi, e⟩

theorem lifeRefresh_same (s : State) : lifeRefresh s = { s with regs := (lifeRefresh s).regs } := by
  rw [lifeRefresh_eq]
  generalize List.range 352 = l
  exact pagesShown_same l s

/-- LIF_PAGE is all that a refresh changes. -/
theorem lifeRefresh_regs (s : State) : RegsBut (fun o => ∃ i, i < 352 ∧ o = lifPage i) s (lifeRefresh s) := by
  rw [lifeRefresh_eq]
  exact (pagesShown_regs _ s).mono fun o ⟨i, hi, e⟩ => ⟨i, List.mem_range.mp hi, e⟩

theorem lifeGet_lifeRefresh (off n : Nat) (s : State) : lifeGet (lifeRefresh s) off n = lifeGet s off n := by
  obtain ⟨r, shown⟩ : ∃ r, lifeRefresh s = { s with regs := r } := ⟨_, lifeRefresh_same s⟩
  rw [shown]
  rfl

theorem lifeGet_upd (off n o : Nat) (f : Fld) (x : Nat) (s : State) : lifeGet (upd o f x s) off n = lifeGet s off n := rfl

/-! ### The statement -/

theorem exec_logPageWrite {s : State} (on : On s) : exec .logPageWrite s = .next (logPageWrite s) :=
  congrArg Host.Outcome.next (powered_on on _)

theorem exec_lifetimeWrite {s : State} (on : On s) : exec .lifetimeWrite s = .next (lifetimeWrite s) :=
  congrArg Host.Outcome.next (powered_on on _)

theorem exec_lifetimePersist {m : Master} {s : State} (on : On s) (own : owner (settle s) = some m) (v : Nat) :
    exec (.lifetimePersist m v) s = .next (lifStatWrite v (settle s)) :=
  congrArg Host.Outcome.next (powered_asOwner on own _ _ _)

/-- A second more of powered time, after the stress of the powered clusters. -/
def timeCounted (s : State) : State := lifeCount 48 8 1 ((poweredClusters s).foldl stressCluster s)

/-- The seconds of work counted, where the device works. -/
def workCounted (s : State) : State := if running s then lifeCount 56 8 1 s else s

/-- The energy of a second counted. -/
def energyCounted (s : State) : State :=
  let e := s.life.energy + get s pwrWinStat PwrWinStat.avg1s
  lifeCount 64 8 (e / 3600) { s with life := { s.life with energy := e % 3600 } }

/-- The daily counts shifted, where a day has passed. -/
def dayCounted (s : State) : State := if lifeGet s 48 8 % 86400 = 0 then (List.range 24).foldl stackDay s else s

/-- All counts of a second. -/
def secondCounted (s : State) : State := dayCounted (energyCounted (workCounted (timeCounted s)))

theorem exec_stressTick {s : State} (on : On s) :
    exec .stressTick s = .next (lifeRefresh (upd lifStat LifStat.nextS
      (get (secondCounted s) lifStat LifStat.nextS - 1) (secondCounted s))) :=
  congrArg Host.Outcome.next (powered_on on _)

theorem workCounted_timeKept (s : State) : TimeKept s (workCounted s) :=
  .ite (lifeSet_timeKept (by omega) _ _ _) (.refl _)

theorem energyCounted_timeKept (s : State) : TimeKept s (energyCounted s) :=
  TimeKept.trans ⟨rfl, rfl⟩ (lifeSet_timeKept (off := 64) (by omega) _ _ _)

theorem dayCounted_timeKept (s : State) : TimeKept s (dayCounted s) :=
  .ite (foldl_related .refl .trans _ (fun k _ s => stackDay_timeKept s k) _) (.refl _)

theorem stressed_timeKept (s : State) : TimeKept s ((poweredClusters s).foldl stressCluster s) :=
  foldl_related .refl .trans _ (fun g _ s => stressCluster_timeKept s g) s

theorem timeCounted_same (s : State) : timeCounted s = { s with life := (timeCounted s).life } := by
  obtain ⟨same, -⟩ := stressed_timeKept s
  rw [timeCounted, same]
  rfl

theorem lifeGet_timeCounted (s : State) : lifeGet (timeCounted s) 48 8 = min (2 ^ 64 - 1) (lifeGet s 48 8 + 1) := by
  rw [timeCounted, lifeGet_lifeCount (by omega), lifeGet_timeKept (stressed_timeKept s)]

theorem secondCounted_timeKept (s : State) : TimeKept (timeCounted s) (secondCounted s) :=
  ((workCounted_timeKept _).trans (energyCounted_timeKept _)).trans (dayCounted_timeKept _)

theorem secondCounted_same (s : State) : secondCounted s = { s with life := (secondCounted s).life } := by
  obtain ⟨same, -⟩ := secondCounted_timeKept s
  rw [same, timeCounted_same]

/-- Settles O40: each act writes its record where a device serves, and the second of stress counts the time first. -/
theorem recordsInNvm : Obligations.RecordsInNvm := by
  unfold Obligations.RecordsInNvm
  refine ⟨fun s on held ok => ?_, fun s on ok => ?_, fun s on out => ⟨?_, ?_⟩, fun m v s on own => ⟨fun hv ok => ?_, fun hv => ?_⟩,
    fun s on => ?_⟩
  · obtain ⟨regs, same⟩ := logPageWrite_paged held ok
    have log : (logPageWrite s).log = pagedLog s := by rw [same]
    refine ⟨_, exec_logPageWrite on, by rw [log]; rfl, ⟨nextPage s, by simp [log, pagedLog], rfl, rfl, rfl⟩, ?_, regs, by rw [same]⟩
    rw [logPageWrite_eq held ok]
    exact get_upd_same _ _ _ _ (by decide)
  · obtain ⟨regs, same⟩ := lifetimeWrite_paged s
    exact ⟨_, exec_lifetimeWrite on, lifetimeWrite_seq ok, lifetimeWrite_record ok, get_lifetimeWrite_seq ok, regs, by rw [same]⟩
  · exact ⟨_, exec_logPageWrite on, logPageWrite_out out⟩
  · exact ⟨_, exec_lifetimeWrite on, lifetimeWrite_out out⟩
  · obtain ⟨-, same⟩ := lifetimeWrite_paged (settle s)
    have life : (settle s).life = s.life := by rw [settle_ownFrame s]
    refine ⟨_, exec_lifetimePersist on own v, ?_⟩
    rw [lifStatWrite, if_pos hv]
    exact ⟨by rw [lifetimeWrite_seq ok, life], lifetimeWrite_record ok, by rw [same]⟩
  · refine ⟨_, exec_lifetimePersist on own v, ?_⟩
    rw [lifStatWrite, if_neg (by simp [hv])]
  · refine ⟨_, exec_stressTick on, ?_, ?_, ?_⟩
    · rw [lifeGet_lifeRefresh, lifeGet_upd, lifeGet_timeKept (secondCounted_timeKept s), lifeGet_timeCounted]
    all_goals
      obtain ⟨x, hx⟩ : ∃ x, secondCounted s = { s with life := x } := ⟨_, secondCounted_same s⟩
      rw [hx]
    · exact (regsBut_upd (p := fun o => o = lifStat ∨ ∃ i, i < 352 ∧ o = lifPage i) (.inl rfl) _ _ { s with life := x }).trans
        ((lifeRefresh_regs _).mono fun _ => .inr)
    · obtain ⟨r, shown⟩ : ∃ r, lifeRefresh (upd lifStat LifStat.nextS (get { s with life := x } lifStat LifStat.nextS - 1)
          { s with life := x }) = { s with regs := r, life := x } := ⟨_, lifeRefresh_same _⟩
      rw [shown]

end Sys2Proof.Machine
end

section
/-! Device resets: what is written before one, and what it leaves (R440, R441, R453, R457). -/

namespace Sys2Proof.Machine

open Sys2Proof

/-! ### What the supervisor records -/

/-- Log entries, reports, lifetime counts, log pages and the device record: of the registers only `p` may change, and of
NVM only what those records hold. -/
def Recorded (p : Nat → Prop) (s u : State) : Prop :=
  RegsBut p s u ∧
    u = { s with
      regs := u.regs, log := u.log, svc := u.svc, i3c := u.i3c, host := u.host, life := u.life
      nvm := { s.nvm with
        pages := u.nvm.pages, devSeq := u.nvm.devSeq, devTime := u.nvm.devTime, lastKind := u.nvm.lastKind
        lastCause := u.nvm.lastCause, devRec := u.nvm.devRec, devPrev := u.nvm.devPrev } }

/-- The registers of reports and of the lifetime record. -/
def RecordReg (o : Nat) : Prop := ReportReg o ∨ o = lifStat

namespace Recorded

variable {p : Nat → Prop} {s v u : State}

theorem refl (p : Nat → Prop) (s : State) : Recorded p s s := ⟨.refl p s, rfl⟩

theorem trans (h : Recorded p s v) (k : Recorded p v u) : Recorded p s u := by
  obtain ⟨hr, he⟩ := h
  obtain ⟨kr, ke⟩ := k
  exact ⟨hr.trans kr, by rw [ke, he]⟩

theorem mono {r : Nat → Prop} (h : Recorded p s u) (hp : ∀ o, p o → r o) : Recorded r s u := ⟨h.1.mono hp, h.2⟩

theorem get_eq (h : Recorded p s u) {off : Nat} (ho : ¬ p off) (f : Fld) : get u off f = get s off f := h.1.get_eq ho f

theorem boot (h : Recorded p s u) : u.boot = s.boot := by rw [h.2]

theorem workSame (h : Recorded p s u) : WorkSame s u := by
  rw [h.2]
  exact ⟨rfl, rfl, rfl, rfl, rfl, rfl, rfl⟩

theorem upd {off : Nat} (h : p off) (f : Fld) (x : Nat) (s : State) : Recorded p s (upd off f x s) :=
  ⟨regsBut_upd h f x s, rfl⟩

end Recorded

theorem Reports.recorded {s u : State} (h : Reports s u) : Recorded RecordReg s u := by
  obtain ⟨regs, same⟩ := h
  exact ⟨regs.mono fun _ => .inl, by rw [same]⟩

theorem Paged.recorded {p r : Nat → Prop} {s u : State} (h : Paged p s u) (hp : ∀ o, p o → r o) : Recorded r s u := by
  obtain ⟨regs, same⟩ := h
  exact ⟨regs.mono hp, by rw [same]⟩

theorem logPageWrite_recorded (s : State) : Recorded RecordReg s (logPageWrite s) := by
  by_cases held : s.log.held = []
  · rw [logPageWrite, held]
    exact .refl _ s
  · cases ok : nvmOk s with
    | false => rw [logPageWrite_out ok]; exact .refl _ s
    | true =>
      refine Recorded.trans (v := { s with log := pagedLog s }) ⟨fun _ _ => rfl, rfl⟩ ?_
      exact (logPageWrite_paged held ok).recorded fun _ e => .inl (.inl e)

theorem logFlushN_recorded : ∀ (n : Nat) (s : State), Recorded RecordReg s (logFlushN n s)
  | 0, s => .refl _ s
  | n + 1, s => by
    rw [logFlushN]
    split
    · exact .refl _ s
    · exact (logPageWrite_recorded s).trans (logFlushN_recorded n _)

theorem logFlush_recorded (s : State) : Recorded RecordReg s (logFlush s) := logFlushN_recorded _ s

theorem lifetimeWrite_recorded (s : State) : Recorded RecordReg s (lifetimeWrite s) :=
  (lifetimeWrite_paged s).recorded fun _ => .inr

theorem lifeCount_recorded (p : Nat → Prop) (off n k : Nat) (s : State) : Recorded p s (lifeCount off n k s) :=
  (lifeCount_paged p off n k s).recorded fun _ => id

theorem nvmPages_recorded (p : Nat → Prop) (a n : Nat) (s : State) : Recorded p s (nvmPages a n s) :=
  (nvmPages_paged p a n s).recorded fun _ => id

theorem writeDevice_recorded (p : Nat → Prop) (s : State) : Recorded p s (writeDevice s) := by
  unfold writeDevice
  split
  · exact Recorded.trans ⟨fun _ _ => rfl, rfl⟩ (nvmPages_recorded p arDev 1 _)
  · exact .refl p s

theorem noteReset_regs (k : Nat) (c : ResetCause) (s : State) : Recorded (· = supResetStat) s (noteReset k c s) :=
  (Recorded.upd (p := (· = supResetStat)) rfl _ _ s).trans (.upd (p := (· = supResetStat)) rfl _ _ _)

/-! ### The reset registers (R457) -/

theorem causeCode_lt (c : ResetCause) : causeCode c < 16 := by cases c <;> decide

theorem get_noteReset_kind {k : Nat} (hk : k < 8) (c : ResetCause) (s : State) :
    get (noteReset k c s) supResetStat SupResetStat.lastKind = k :=
  (get_upd_same _ _ _ _ (by decide)).trans (Nat.mod_eq_of_lt hk)

theorem get_noteReset_cause (k : Nat) (c : ResetCause) (s : State) :
    get (noteReset k c s) supResetStat SupResetStat.lastCause = causeCode c :=
  ((get_upd_other _ _ _ _ _ (by decide) (by decide)).trans (get_upd_same _ _ _ _ (by decide))).trans
    (Nat.mod_eq_of_lt (causeCode_lt c))

/-! ### A device reset (R440, R441) -/

/-- What a device reset writes before it resets, where the supervisor takes it itself (R521, R528). -/
def resetWritten (own : Bool) (c : ResetCause) (s : State) : State :=
  let s := if own then logCoded sevFatal kReset bSup 440 3 (causeCode c) 0 s else s
  if own then writeDevice (noteReset 3 c (lifetimeWrite (lifeCount 36 4 1 (logFlush s)))) else s

theorem resetWritten_recorded (own : Bool) (c : ResetCause) (s : State) :
    Recorded (fun o => RecordReg o ∨ o = supResetStat) s (resetWritten own c s) := by
  cases own with
  | false => exact .refl _ s
  | true =>
    have logged := ((logCoded_reports sevFatal kReset bSup 440 3 (causeCode c) 0 s).recorded.trans (logFlush_recorded _)).trans
      ((lifeCount_recorded RecordReg 36 4 1 _).trans (lifetimeWrite_recorded _))
    exact ((logged.mono fun _ => .inl).trans ((noteReset_regs 3 c _).mono fun _ => .inr)).trans (writeDevice_recorded _ _)

/-- What a device reset makes of the state `t` it has written and of the base `b` that NVM gives. -/
def resetTail (own : Bool) (c : ResetCause) (t b : State) : State :=
  let s' := b
  let s' := { s' with power := { s'.power with
    up := t.power.up.filter fun r => [Supply.aux, .supervisor, .oscillator, .linkAndHost, .hbm].contains r
    auxFaulted := t.power.auxFaulted, mated := t.power.mated, latch := t.power.latch } }
  let s' := { s' with control := { s'.control with cycleArmed := t.control.cycleArmed } }
  let s' := { s' with boot := { s'.boot with
    unlogged := if own then none else some (3, causeCode c), resetKind := 3 } }
  noteReset 3 c (if own then s' else lifeCount 36 4 1 s')

theorem deviceResetBy_eq_tail (own : Bool) (c : ResetCause) (s : State) : deviceResetBy own c s =
    resetTail own c (resetWritten own c s) (keepTrip (resetWritten own c s) (nvmOnly (resetWritten own c s))) :=
  rfl

/-- The state that a reset starts from: what NVM gives, and the trip that the input supervisor holds. -/
structure FromNvm (t b : State) : Prop where
  on : On b
  hbm : b.hbm = []
  tiles : b.tiles = []
  nvm : b.nvm = nvmKept t.nvm
  map : b.boot.map = storedMap t
  nvmMap : b.boot.nvmMap = t.boot.nvmMap
  pwrState : get b pwrState PwrState.state = getF (regReset pwrState) PwrState.state

/-- PWR_STATE of the state that NVM gives is in its reset value. -/
theorem get_nvmOnly_pwrState (s : State) (f : Fld) : get (nvmOnly s) pwrState f = getF (regReset pwrState) f := by
  unfold nvmOnly nvmRegs
  dsimp only
  rw [get_upd_ne (by decide), get_upd_ne (by decide), get_upd_ne (by decide), get_upd_ne (by decide),
    get_upd_ne (by decide), get_upd_ne (by decide), get_put_ne (by decide), get_put_ne (by decide)]
  rfl

theorem nvmOnly_fromNvm (t : State) : FromNvm t (nvmOnly t) where
  on := rfl
  hbm := rfl
  tiles := rfl
  nvm := rfl
  map := rfl
  nvmMap := rfl
  pwrState := get_nvmOnly_pwrState t _

theorem FromNvm.upd {t b : State} (h : FromNvm t b) {f : Fld} (apart : PwrState.state.lo + PwrState.state.w ≤ f.lo) (x : Nat) :
    FromNvm t (Machine.upd Machine.pwrState f x b) where
  on := h.on
  hbm := h.hbm
  tiles := h.tiles
  nvm := h.nvm
  map := h.map
  nvmMap := h.nvmMap
  pwrState := (get_upd_other _ _ _ _ _ (by decide) (.inr apart)).trans h.pwrState

theorem keepTrip_fromNvm (t : State) : FromNvm t (keepTrip t (nvmOnly t)) :=
  (((nvmOnly_fromNvm t).upd (by decide) _).upd (by decide) _).upd (by decide) _

theorem FromNvm.life {t b : State} (h : FromNvm t b) (x : LifeState) : FromNvm t { b with life := x } where
  on := h.on
  hbm := h.hbm
  tiles := h.tiles
  nvm := h.nvm
  map := h.map
  nvmMap := h.nvmMap
  pwrState := h.pwrState

/-- The tail of a reset marks a state that NVM gives. -/
theorem resetTail_eq {t b : State} (given : FromNvm t b) (own : Bool) (c : ResetCause) :
    ∃ u, FromNvm t u ∧ u.boot.unlogged = (if own then none else some (3, causeCode c)) ∧
      resetTail own c t b = noteReset 3 c u := by
  refine ⟨_, ?_, ?_, rfl⟩
  · cases own
    all_goals exact ⟨given.on, given.hbm, given.tiles, given.nvm, given.map, given.nvmMap, given.pwrState⟩
  · cases own
    all_goals rfl

/-- A device reset: the marks on a state that NVM gives from what the reset has written. -/
theorem deviceResetBy_eq (own : Bool) (c : ResetCause) (s : State) :
    ∃ b, FromNvm (resetWritten own c s) b ∧ b.boot.unlogged = (if own then none else some (3, causeCode c)) ∧
      deviceResetBy own c s = noteReset 3 c b := by
  rw [deviceResetBy_eq_tail]
  exact resetTail_eq (keepTrip_fromNvm _) own c

section
variable (own : Bool) (c : ResetCause) (s : State)

theorem get_deviceResetBy_kind : get (deviceResetBy own c s) supResetStat SupResetStat.lastKind = 3 := by
  obtain ⟨b, -, -, reset⟩ := deviceResetBy_eq own c s
  rw [reset, get_noteReset_kind (by decide)]

theorem get_deviceResetBy_cause : get (deviceResetBy own c s) supResetStat SupResetStat.lastCause = causeCode c := by
  obtain ⟨b, -, -, reset⟩ := deviceResetBy_eq own c s
  rw [reset, get_noteReset_cause]

theorem deviceResetBy_unlogged : (deviceResetBy own c s).boot.unlogged = if own then none else some (3, causeCode c) := by
  obtain ⟨b, -, unlogged, reset⟩ := deviceResetBy_eq own c s
  rw [reset]
  exact unlogged

theorem deviceResetBy_nvm : (deviceResetBy own c s).nvm = nvmKept (resetWritten own c s).nvm := by
  obtain ⟨b, given, -, reset⟩ := deviceResetBy_eq own c s
  rw [reset]
  exact given.nvm

theorem deviceResetBy_nvmMap : (deviceResetBy own c s).boot.nvmMap = s.boot.nvmMap := by
  obtain ⟨b, given, -, reset⟩ := deviceResetBy_eq own c s
  rw [reset, ← (resetWritten_recorded own c s).boot]
  exact given.nvmMap

theorem deviceResetBy_hbm : (deviceResetBy own c s).hbm = [] := by
  obtain ⟨b, given, -, reset⟩ := deviceResetBy_eq own c s
  rw [reset]
  exact given.hbm

theorem deviceResetBy_devState : devState (deviceResetBy own c s) = .spring := by
  obtain ⟨b, given, -, reset⟩ := deviceResetBy_eq own c s
  have off : (deviceResetBy own c s).power.off = none := by
    rw [reset]
    exact given.on
  have state : get (deviceResetBy own c s) pwrState PwrState.state = getF (regReset pwrState) PwrState.state := by
    rw [reset, noteReset, get_upd_ne (by decide), get_upd_ne (by decide), given.pwrState]
  rw [devState, off, state]
  decide

end

/-! ### The loss of a second field (R453) -/

/-- The map in force once a second field is lost. -/
def secondLoss (f cause : Nat) (s : State) : MapRecord :=
  { mapSetField f (1 + cause * 4) s.boot.map with live := s.boot.map.live - 2 ^ f }

@[simp] theorem mapField_mapSetField (f v : Nat) (m : MapRecord) : mapField (mapSetField f v m) f = v := tget_tset_same _ _ _ _

/-- A set bit that is taken away is clear. -/
theorem bit1_sub_self {n f : Nat} (h : bit1 n f = true) : bit1 (n - 2 ^ f) f = false := by
  have odd : n / 2 ^ f % 2 = 1 := by simpa [bit1, Nat.testBit_eq_decide_div_mod_eq] using h
  have less : (n - 2 ^ f) / 2 ^ f = n / 2 ^ f - 1 := by simpa using Nat.sub_mul_div n (2 ^ f) 1
  rw [bit1, Nat.testBit_eq_decide_div_mod_eq, less]
  exact decide_eq_false (by omega)

theorem storeMap_nvmMap {s : State} (ok : nvmOk s = true) (m : MapRecord) : (storeMap m s).boot.nvmMap = m := by
  rw [storeMap, if_pos ok, (nvmPages_recorded (fun _ => False) arMap 10 _).boot]

theorem writeMap_nvmMap {s : State} (ok : nvmOk s = true) :
    (writeMap s).boot.nvmMap = { s.boot.map with seq := s.boot.nvmMap.seq + 1, time := s.devtime } :=
  storeMap_nvmMap (s := { s with boot := { s.boot with map := { s.boot.map with seq := s.boot.nvmMap.seq + 1, time := s.devtime }, mapDirty := false } }) ok _

/-- The report that a field is lost, before its consequences (R450). -/
def fieldReported (f cause : Nat) (s : State) : State :=
  logCoded sevFatal kFault bPwr 450 0 cause f (exemptFall (lifeCount 78 2 1 s))

theorem fieldReported_boot (f cause : Nat) (s : State) : (fieldReported f cause s).boot = s.boot :=
  (logCoded_boot _ _ _ _ _ _ _ _).trans rfl

theorem fieldReported_nvmOk (f cause : Nat) (s : State) : nvmOk (fieldReported f cause s) = nvmOk s := by
  have logged : RegsBut (fun o => ReportReg o ∨ o = pwrSlopeStat) s (fieldReported f cause s) :=
    ((regsBut_satAdd (p := fun o => o = pwrSlopeStat) rfl _ _ _).mono fun _ => .inr).trans
      ((logCoded_reports _ _ _ _ _ _ _ _).1.mono fun _ => .inl)
  have apart : ¬ (ReportReg nvmUpdStat ∨ nvmUpdStat = pwrSlopeStat) :=
    not_or.mpr ⟨not_reportReg_of_low (by decide) (by decide), by decide⟩
  unfold nvmOk
  rw [logged.get_eq apart, logged.get_eq apart]

/-- The loss of a second field takes a device reset on the map without it. -/
theorem fieldLoss_eq_of_degraded {f cause : Nat} {s : State} (live : fieldLive s f = true) (second : degraded s = true) :
    fieldLoss f cause s = deviceReset .twoFields (writeMap { fieldReported f cause s with
      boot := { (fieldReported f cause s).boot with map := secondLoss f cause s } }) := by
  have second' : degraded (fieldReported f cause s) = true := by
    unfold degraded liveFields fieldLive
    rw [fieldReported_boot]
    exact second
  have lost : secondLoss f cause s = secondLoss f cause (fieldReported f cause s) := by
    rw [secondLoss, secondLoss, fieldReported_boot]
  rw [fieldLoss, live, if_neg (by decide), lost]
  exact if_pos second'

theorem exec_fieldLoss {s : State} (on : On s) {cause : Nat} (low : 1 ≤ cause) (high : cause ≤ 7) (f : FieldId) :
    exec (.fieldLoss f cause) s = .next (fieldLoss f cause s) := by
  refine congrArg Host.Outcome.next ((powered_on on _).trans ?_)
  rw [if_pos ⟨low, high⟩]

/-! ### SPRING stops (R438) -/

theorem springStop_supBootStat (code : Nat) (s : State) {f : Fld} :
    get (springStop code s) supBootStat f =
      get (upd supBootStat SupBootStat.stage 8 (upd supBootStat SupBootStat.stopCode code s)) supBootStat f :=
  (logCoded_reports _ _ _ _ _ _ _ _).1.get_eq (not_reportReg_of_low (by decide) (by decide)) f

theorem get_springStop_stage (code : Nat) (s : State) : get (springStop code s) supBootStat SupBootStat.stage = 8 := by
  rw [springStop_supBootStat, get_upd_same _ _ _ _ (by decide)]
  rfl

theorem get_springStop_code {code : Nat} (small : code < 256) (s : State) :
    get (springStop code s) supBootStat SupBootStat.stopCode = code := by
  rw [springStop_supBootStat, get_upd_other _ _ _ _ _ (by decide) (by decide), get_upd_same _ _ _ _ (by decide)]
  exact Nat.mod_eq_of_lt small

/-- The step that reads the map stops SPRING where two fields are lost (R453). -/
theorem springStep_mapRead_stop {s : State} (may : mayStep s 6 [5] = true)
    (few : (triedFields (loadMap (journalRecover s).1)).length ≤ 10) :
    springStep .mapRead s = springStop 5 (loadMap (journalRecover s).1) := by
  have two : 2 ≤ 12 - (triedFields (loadMap (journalRecover s).1)).length := by omega
  exact (if_pos may).trans (if_pos two)

theorem exec_springStep {s : State} (on : On s) (x : SpringEvent) : exec (.springStep x) s = .next (springStep x s) :=
  congrArg Host.Outcome.next (powered_on on _)

/-- Settles O55: the loss is recorded in the map record, and the device reset that follows keeps that record and NVM. -/
theorem secondFieldLoss : Obligations.SecondFieldLoss := by
  refine ⟨fun f cause s on low high second live => ?_, fun s on may few => ?_⟩
  · refine ⟨_, exec_fieldLoss on low high f, ?_⟩
    rw [fieldLoss_eq_of_degraded live second]
    refine ⟨get_deviceResetBy_kind _ _ _, get_deviceResetBy_cause _ _ _, deviceResetBy_devState _ _ _,
      deviceResetBy_hbm _ _ _, fun ok => ?_⟩
    have kept := (fieldReported_nvmOk f cause s).trans ok
    rw [deviceReset, deviceResetBy_nvmMap,
      writeMap_nvmMap (s := { fieldReported f cause s with
        boot := { (fieldReported f cause s).boot with map := secondLoss f cause s } }) kept]
    exact ⟨bit1_sub_self live, mapField_mapSetField _ _ _⟩
  · refine ⟨_, exec_springStep on .mapRead, ?_⟩
    rw [springStep_mapRead_stop may few]
    exact ⟨get_springStop_stage _ _, get_springStop_code (by decide) _⟩

end Sys2Proof.Machine
end

section
/-! Sessions on the service port: how one opens and closes, and what its messages leave (R472–R475). -/

namespace Sys2Proof.Machine

open Sys2Proof

/-! ### A session that is due to close (R475) -/

theorem sessionDue_of_none {s : State} (closed : s.svc.key = none) : sessionDue s = s := by
  simp [sessionDue, sessionLapsed, closed]

theorem sessionDue_of_alive {s : State} (alive : s.devtime < s.svc.lastMsg + 30 * secTicks) : sessionDue s = s := by
  have late : decide (s.svc.lastMsg + 30 * secTicks ≤ s.devtime) = false := decide_eq_false (by omega)
  simp [sessionDue, sessionLapsed, late]

theorem sessionDue_of_silent {s : State} {key : List Byte} (opened : s.svc.key = some key)
    (silent : s.svc.lastMsg + 30 * secTicks ≤ s.devtime) : sessionDue s = closeSession s := by
  simp [sessionDue, sessionLapsed, opened, silent]

theorem get_reholder_of_ne {off : Nat} (ne : off ≠ ownStat) (f : Fld) (s : State) :
    get (reholder s) off f = get s off f :=
  (get_upd_ne ne _ _ _ _).trans (get_upd_ne ne _ _ _ _)

theorem regsBut_reholder {p : Nat → Prop} (h : p ownStat) (s : State) : RegsBut p s (reholder s) :=
  (regsBut_upd h _ _ s).trans (regsBut_upd h _ _ _)

theorem reholder_eq (s : State) : reholder s = { s with regs := (reholder s).regs } := rfl

/-- A closed session has no key and is not shown, and no upload runs on it; all else is as the end of the upload leaves
it. -/
theorem closeSession_spec (s : State) : (closeSession s).svc.key = none ∧
    get (closeSession s) nvmSvcStat NvmSvcStat.session = 0 ∧ (closeSession s).nvm.upload = none ∧
    WorkSame s (closeSession s) := by
  have frame := endUpload_ownFrame 0x24 s
  have own : (endUpload 0x24 s).own = s.own := by
    unfold endUpload
    split
    · rfl
    · rw [(logCoded_reports _ _ _ _ _ _ _ _).2]
      rfl
  have upload : (endUpload 0x24 s).nvm.upload = none := by
    unfold endUpload
    split
    · assumption
    · rw [(logCoded_reports _ _ _ _ _ _ _ _).2]
      rfl
  unfold closeSession
  dsimp only
  generalize endUpload 0x24 s = u at frame own upload ⊢
  refine ⟨rfl, ?_, upload, ?_, ?_, ?_, ?_, ?_, own, ?_⟩
  · rw [get_reholder_of_ne (by decide), get_upd_same _ _ _ _ (by decide)]
    rfl
  all_goals
    rw [frame]
    rfl

/-! ### HELLO (R474) -/

theorem exec_hello {s : State} (on : On s) (x : SvcHdr) (nc : List Byte) : exec (.hello x nc) s = .next (hello x nc s) :=
  congrArg Host.Outcome.next (powered_on on _)

/-- HELLO is answered when it is not ignored and fewer than four were answered within the second. -/
theorem hello_of_due {s : State} (same : sessionDue s = s) (heard : s.svc.deafUntil ≤ s.devtime)
    (few : (recentHello s).length < 4) (x : SvcHdr) (nc : List Byte) :
    hello x nc s = (
      let s := sv (fun v => { v with helloAt := recentHello s ++ [s.devtime] }) s
      if s.svc.key.isSome then plainReply 0x01 ssBusy x.session x.seq [] s
      else if nc.length ≠ 32 then plainReply 0x01 ssBadMsg x.session x.seq [] s
      else
        let id := freeNat 32 s
        let nd := freeNat 256 id.2
        let session := 1 + id.1 % (2 ^ 32 - 1)
        let nonce := toBytes 32 nd.1
        let s := sv (fun v => { v with half := some { session := session, nc := nc, nd := nonce, since := s.devtime } }) nd.2
        plainReply 0x01 ssOk x.session x.seq (toBytes 4 session ++ nonce) s) := by
  unfold hello
  rw [same]
  exact if_neg (by omega)

theorem hello_opens {s : State} (on : On s) (closed : s.svc.key = none) (heard : s.svc.deafUntil ≤ s.devtime)
    (few : (recentHello s).length < 4) (x : SvcHdr) {nc : List Byte} (len : nc.length = 32) :
    Completes (.hello x nc) s fun u => (∃ h, u.svc.half = some h ∧ h.session ≠ 0 ∧ h.nc = nc ∧ h.nd.length = 32 ∧
      h.key = none ∧ u.answer = .svcReply 0x01 0 x.session x.seq (toBytes 4 h.session ++ h.nd) []) ∧
      u = { s with svc := u.svc, free := u.free, answer := u.answer } := by
  have free : ¬ s.svc.key.isSome = true := by simp [closed]
  have eq := (hello_of_due (sessionDue_of_none closed) heard few x nc).trans ((if_neg free).trans (if_neg (not_not.mpr len)))
  refine ⟨_, (exec_hello on x nc).trans (congrArg _ eq), ⟨_, rfl, ?_, rfl, length_toBytes _ _, rfl, rfl⟩, rfl⟩
  exact Nat.ne_of_gt (Nat.add_pos_left Nat.one_pos _)

theorem hello_busy {s : State} (on : On s) {key : List Byte} (opened : s.svc.key = some key)
    (alive : s.devtime < s.svc.lastMsg + 30 * secTicks) (heard : s.svc.deafUntil ≤ s.devtime)
    (few : (recentHello s).length < 4) (x : SvcHdr) (nc : List Byte) :
    Completes (.hello x nc) s fun u => u.answer = .svcReply 0x01 3 x.session x.seq [] [] ∧ u.svc.key = some key ∧
      u = { s with svc := u.svc, answer := u.answer } := by
  have busy : s.svc.key.isSome = true := by simp [opened]
  have eq := (hello_of_due (sessionDue_of_alive alive) heard few x nc).trans (if_pos busy)
  exact ⟨_, (exec_hello on x nc).trans (congrArg _ eq), rfl, opened, rfl⟩

theorem hello_discarded {s : State} (on : On s) (closed : s.svc.key = none) (many : 4 ≤ (recentHello s).length)
    (x : SvcHdr) (nc : List Byte) : Completes (.hello x nc) s fun u => u = { s with answer := .discarded } := by
  refine ⟨_, exec_hello on x nc, ?_⟩
  unfold hello
  rw [sessionDue_of_none closed]
  exact if_pos (.inr many)

/-! ### A half-open session (R474) -/

section
variable {s : State} {h : HalfOpen}

theorem halfOpen_of_young (half : s.svc.half = some h) (young : s.devtime < h.since + 5 * secTicks) :
    halfOpen s = some h := by
  simp [halfOpen, half, Option.filter, young]

theorem halfOpen_of_old (half : s.svc.half = some h) (old : h.since + 5 * secTicks ≤ s.devtime) : halfOpen s = none := by
  have late : ¬ s.devtime < h.since + 5 * secTicks := by omega
  simp [halfOpen, half, Option.filter, late]

end

theorem denyOpen_authFail (type : Nat) (x : SvcHdr) (s : State) :
    get (denyOpen type x s) nvmSvcStat NvmSvcStat.authFail = min 65535 (get s nvmSvcStat NvmSvcStat.authFail + 1) :=
  get_satAdd_same (by decide) 1 (sv (fun v => { v with half := none }) s)

theorem denyOpen_regs (type : Nat) (x : SvcHdr) (s : State) : RegsBut (· = nvmSvcStat) s (denyOpen type x s) :=
  regsBut_satAdd (p := (· = nvmSvcStat)) rfl _ _ (sv (fun v => { v with half := none }) s)

section
variable {s : State} {h : HalfOpen} {x : SvcHdr}

/-- A key of the record in force is noted in the half-open session that names it. -/
theorem exec_authKey_known (on : On s) (half : halfOpen s = some h) (named : x.session = h.session) {key : List Byte}
    {n : Nat} (known : svcKeyFor s key = some n) : exec (.authKey x key) s = .next (plainReply 0x02 ssOk x.session x.seq []
      (sv (fun v => { v with half := some { h with key := some (n, key) } }) s)) := by
  refine congrArg Host.Outcome.next ((powered_on on _).trans ?_)
  rw [half]
  refine (if_neg (not_not.mpr named)).trans ?_
  simp only [known]

theorem exec_authKey_unknown (on : On s) (half : halfOpen s = some h) (named : x.session = h.session) {key : List Byte}
    (unknown : svcKeyFor s key = none) : exec (.authKey x key) s = .next (denyOpen 0x02 x s) := by
  refine congrArg Host.Outcome.next ((powered_on on _).trans ?_)
  rw [half]
  refine (if_neg (not_not.mpr named)).trans ?_
  simp only [unknown]

/-- AUTH that verifies under the key that was named opens the session. -/
theorem exec_auth_verified (on : On s) (half : halfOpen s = some h) (named : x.session = h.session) {n : Nat} {k : List Byte}
    (key : h.key = some (n, k)) {cipher sig secret : List Byte} (verified : authSecret h k cipher sig = some secret) :
    exec (.auth x cipher sig) s = .next (openSession x h n secret s) := by
  refine congrArg Host.Outcome.next ((powered_on on _).trans ?_)
  rw [half]
  refine (if_neg (not_not.mpr named)).trans ?_
  simp only [key, verified]

theorem exec_auth_failed (on : On s) (half : halfOpen s = some h) (named : x.session = h.session) {n : Nat} {k : List Byte}
    (key : h.key = some (n, k)) {cipher sig : List Byte} (failed : authSecret h k cipher sig = none) :
    exec (.auth x cipher sig) s = .next (authFailed x s) := by
  refine congrArg Host.Outcome.next ((powered_on on _).trans ?_)
  rw [half]
  refine (if_neg (not_not.mpr named)).trans ?_
  simp only [key, failed]

end

theorem authFailed_spec (x : SvcHdr) (s : State) : (authFailed x s).svc.key = s.svc.key ∧ (authFailed x s).svc.half = none ∧
    (authFailed x s).answer = .svcReply 0x03 4 x.session x.seq [] [] ∧ RegsBut (· = nvmSvcStat) s (authFailed x s) := by
  unfold authFailed
  dsimp only
  refine ⟨?_, rfl, rfl, denyOpen_regs 0x03 x (sv _ s)⟩
  unfold denyOpen plainReply answer sv
  dsimp only [satAdd_svc]
  split <;> rfl

/-- The key of the session that AUTH opens (R474). -/
def sessionKey (h : HalfOpen) (secret : List Byte) : List Byte := sha512 (h.nc ++ h.nd ++ secret)

/-- The session that AUTH opens. -/
def sessionBegun (h : HalfOpen) (secret : List Byte) (s : State) : State :=
  sv (fun v => { v with
    key := some (sessionKey h secret), session := h.session, half := none, lastMsg := s.devtime, low := 1
    replies := [], events := [], eventSeq := 1 }) s

/-- What AUTH shows of the session it opens. -/
def sessionShown (h : HalfOpen) (n : Nat) (secret : List Byte) (s : State) : State :=
  upd nvmSvcStat NvmSvcStat.session 1 (upd nvmSvcStat NvmSvcStat.key n (sessionBegun h secret s))

theorem openSession_eq (x : SvcHdr) (h : HalfOpen) (n : Nat) (secret : List Byte) (s : State) :
    openSession x h n secret s = macReply (sessionKey h secret) 0x03 ssOk h.session x.seq []
      (reholder (satAdd nvmSvcStat NvmSvcStat.sessions 1 (sessionShown h n secret s))) := rfl

theorem get_macReply (key : List Byte) (type status session seq : Nat) (payload : List Byte) (s : State) (off : Nat) (f : Fld) :
    get (macReply key type status session seq payload s) off f = get s off f := rfl

theorem RegsBut.macReply {p : Nat → Prop} {s u : State} (h : RegsBut p s u) (key : List Byte)
    (type status session seq : Nat) (payload : List Byte) :
    RegsBut p s (Machine.macReply key type status session seq payload u) := h

theorem regsBut_sessionBegun (p : Nat → Prop) (h : HalfOpen) (secret : List Byte) (s : State) :
    RegsBut p s (sessionBegun h secret s) := fun _ _ => rfl

/-- The register that shows the session is changed by its count only. -/
theorem get_openSession {f : Fld} (low : f.lo + f.w ≤ 48) (x : SvcHdr) (h : HalfOpen) (n : Nat) (secret : List Byte)
    (s : State) : get (openSession x h n secret s) nvmSvcStat f = get (sessionShown h n secret s) nvmSvcStat f := by
  rw [openSession_eq, get_macReply, get_reholder_of_ne (by decide), satAdd]
  exact get_upd_other _ _ _ _ _ (by omega) (.inr low)

theorem openSession_spec (x : SvcHdr) (h : HalfOpen) {n : Nat} (hn : n < 4) (secret : List Byte) (s : State) :
    (openSession x h n secret s).svc.key = some (sha512 (h.nc ++ h.nd ++ secret)) ∧
      (openSession x h n secret s).svc.session = h.session ∧ (openSession x h n secret s).svc.half = none ∧
      get (openSession x h n secret s) nvmSvcStat NvmSvcStat.session = 1 ∧
      get (openSession x h n secret s) nvmSvcStat NvmSvcStat.key = n ∧
      present (openSession x h n secret s) .svc = true ∧
      (openSession x h n secret s).answer = .svcReply 0x03 0 h.session x.seq [] (svcMac (sha512 (h.nc ++ h.nd ++ secret))
        (svcHeader 0x03 h.session x.seq 0 0 true) []) ∧
      RegsBut (fun o => o = nvmSvcStat ∨ o = ownStat) s (openSession x h n secret s) := by
  refine ⟨rfl, rfl, rfl, ?_, ?_, rfl, rfl, ?_⟩
  · rw [get_openSession (by decide), sessionShown, get_upd_same _ _ _ _ (by decide)]
    rfl
  · rw [get_openSession (by decide), sessionShown, get_upd_other _ _ _ _ _ (by decide) (by decide),
      get_upd_same _ _ _ _ (by decide)]
    exact Nat.mod_eq_of_lt hn
  · have shown : ∀ f v w, RegsBut (fun o => o = nvmSvcStat ∨ o = ownStat) w (upd nvmSvcStat f v w) :=
      fun f v w => regsBut_upd (.inl rfl) f v w
    have opened : RegsBut (fun o => o = nvmSvcStat ∨ o = ownStat) s
        (reholder (satAdd nvmSvcStat NvmSvcStat.sessions 1 (sessionShown h n secret s))) :=
      ((((regsBut_sessionBegun _ h secret s).trans (shown _ _ _)).trans (shown _ _ _)).trans (shown _ _ _)).trans
        (regsBut_reholder (.inr rfl) _)
    rw [openSession_eq]
    exact opened.macReply _ _ _ _ _ _

/-! ### Messages of a session (R473, R475) -/

/-- The state once a valid message has kept the session alive. -/
def sessionHeard (s : State) : State := sv (fun v => { v with lastMsg := s.devtime }) s

section
variable {type : Nat} {key : List Byte} {x : SvcMsg} {s : State}

/-- A valid message that is new in its window is answered by its request. -/
theorem sessionMsg_of_valid (valid : SvcValid type key x s) (close : Bool) (f : List Byte → State → SvcResult) :
    sessionMsg type close x f s =
      let r := f x.payload (sessionHeard s)
      if close then macReply key type r.1 x.session x.seq r.2.1 (if r.1 = ssOk then closeSession r.2.2 else
        cacheReply x.seq type r.1 r.2.1 r.2.2)
      else if r.2.2.svc.key = some key then
        macReply key type r.1 x.session x.seq r.2.1 (cacheReply x.seq type r.1 r.2.1 r.2.2)
      else answer .none r.2.2 := by
  have taken : ¬ (x.session ≠ s.svc.session ∨ svcMaxPayload < x.payload.length ∨
      x.mac ≠ svcMac key (svcHeader type x.session x.seq x.payload.length 0 false) x.payload) := by
    rintro (other | long | mac)
    · exact other valid.session
    · exact absurd valid.length (by omega)
    · exact mac valid.mac
  have window : ¬ (x.seq < s.svc.low ∨ s.svc.low + 64 < x.seq) := by
    have low := valid.low
    have high := valid.high
    omega
  have fresh : tget (fun _ => none) (sessionHeard s).svc.replies x.seq = none := valid.fresh
  unfold sessionMsg
  rw [sessionDue_of_alive valid.alive]
  dsimp only
  rw [valid.opened]
  dsimp only
  rw [if_neg taken, ← sessionHeard, fresh]
  exact if_neg window

/-- A request that leaves the session open is answered and its reply kept. -/
theorem sessionMsg_answers (valid : SvcValid type key x s) {f : List Byte → State → SvcResult} {status : Nat}
    {payload : List Byte} {v : State} (request : f x.payload (sessionHeard s) = (status, payload, v))
    (opened : v.svc.key = some key) : sessionMsg type false x f s =
      macReply key type status x.session x.seq payload (cacheReply x.seq type status payload v) := by
  rw [sessionMsg_of_valid valid, request]
  exact (if_neg Bool.false_ne_true).trans (if_pos opened)

/-- A message whose MAC is wrong is discarded and counted. -/
theorem sessionMsg_badMac (opened : s.svc.key = some key) (alive : s.devtime < s.svc.lastMsg + 30 * secTicks)
    (wrong : x.mac ≠ svcMac key (svcHeader type x.session x.seq x.payload.length 0 false) x.payload) (close : Bool)
    (f : List Byte → State → SvcResult) : sessionMsg type close x f s = badMac s := by
  unfold sessionMsg
  rw [sessionDue_of_alive alive]
  dsimp only
  rw [opened]
  exact if_pos (.inr (.inr wrong))

theorem emptyRequest_nil {p : List Byte} (empty : p = []) (s : State) : emptyRequest p s = (ssOk, [], s) := by
  rw [empty]
  rfl

theorem eventAckRequest_of_length {p : List Byte} (len : p.length = 4) (s : State) : eventAckRequest p s =
    (ssOk, [], sv (fun v => { v with events := v.events.filter fun e => e.seq != fieldAt p 0 4 }) s) :=
  if_neg (not_not.mpr len)

theorem completes_nop (on : On s) (valid : SvcValid 0x05 key x s) (empty : x.payload = []) :
    Completes (.nop x) s fun u => SvcReplied 0x05 0 key x [] u ∧ u.svc.lastMsg = s.devtime ∧ u.svc.key = some key ∧
      u = { s with svc := u.svc, answer := u.answer } := by
  have eq := sessionMsg_answers valid (emptyRequest_nil empty _) valid.opened
  exact ⟨_, congrArg Host.Outcome.next ((powered_on on _).trans eq), rfl, rfl, valid.opened, rfl⟩

theorem completes_nop_badMac (on : On s) (opened : s.svc.key = some key) (alive : s.devtime < s.svc.lastMsg + 30 * secTicks)
    (wrong : x.mac ≠ svcMac key (svcHeader 0x05 x.session x.seq x.payload.length 0 false) x.payload) :
    Completes (.nop x) s fun u => u.answer = .discarded ∧ u.svc = s.svc ∧
      get u nvmSvcStat NvmSvcStat.badMac = min 65535 (get s nvmSvcStat NvmSvcStat.badMac + 1) ∧
      RegsBut (· = nvmSvcStat) s u :=
  ⟨_, congrArg Host.Outcome.next ((powered_on on _).trans (sessionMsg_badMac opened alive wrong _ _)), rfl, rfl,
    get_satAdd_same (by decide) 1 s, regsBut_satAdd (p := (· = nvmSvcStat)) rfl _ _ s⟩

theorem completes_close (on : On s) (valid : SvcValid 0x04 key x s) (empty : x.payload = []) :
    Completes (.close x) s fun u => SvcReplied 0x04 0 key x [] u ∧ u.svc.key = none ∧
      get u nvmSvcStat NvmSvcStat.session = 0 ∧ u.nvm.upload = none ∧ WorkSame { s with own := u.own } u := by
  have eq : sessionMsg 0x04 true x emptyRequest s =
      macReply key 0x04 ssOk x.session x.seq [] (closeSession (sessionHeard s)) := by
    rw [sessionMsg_of_valid valid, emptyRequest_nil empty]
    rfl
  obtain ⟨closed, shown, upload, hbm, tiles, req, links, net, own, spdm⟩ := closeSession_spec (sessionHeard s)
  exact ⟨_, congrArg Host.Outcome.next ((powered_on on _).trans eq), rfl, closed, shown, upload, hbm, tiles, req, links,
    net, rfl, spdm⟩

theorem completes_eventAck (on : On s) (valid : SvcValid 0x61 key x s) (len : x.payload.length = 4) :
    Completes (.eventAck x) s fun u => SvcReplied 0x61 0 key x [] u ∧
      u.svc.events = (s.svc.events.filter fun e => e.seq != fieldAt x.payload 0 4) ∧
      u = { s with svc := u.svc, answer := u.answer } := by
  have eq := sessionMsg_answers valid (eventAckRequest_of_length len _) valid.opened
  exact ⟨_, congrArg Host.Outcome.next ((powered_on on _).trans eq), rfl, rfl, rfl⟩

theorem completes_svcSessionTimeout (on : On s) (opened : s.svc.key = some key)
    (silent : s.svc.lastMsg + 30 * secTicks ≤ s.devtime) : Completes .svcSessionTimeout s fun u => u.svc.key = none ∧
      get u nvmSvcStat NvmSvcStat.session = 0 ∧ u.hbm = s.hbm ∧ u.tiles = s.tiles := by
  obtain ⟨closed, shown, -, hbm, tiles, -⟩ := closeSession_spec s
  exact ⟨_, congrArg Host.Outcome.next ((powered_on on _).trans (sessionDue_of_silent opened silent)), closed, shown, hbm,
    tiles⟩

end

/-- An EVENT sent again keeps its place among those unacknowledged. -/
theorem completes_svcEventResend {q : Nat} {e : SvcEvent} {s : State} (on : On s)
    (held : (s.svc.events.find? fun x => x.seq == q) = some e) (due : e.sent + secTicks ≤ s.devtime) :
    Completes (.svcEventResend q) s fun u => u.answer = .svcEvent e.seq e.kind e.time ∧
      u.svc.events.map (·.seq) = s.svc.events.map (·.seq) ∧ u = { s with svc := u.svc, answer := u.answer } := by
  have eq : exec (.svcEventResend q) s = .next (answer (.svcEvent e.seq e.kind e.time) (sv (fun v => { v with
      events := v.events.map fun y => if y.seq = q then { y with sent := s.devtime } else y }) s)) := by
    refine congrArg Host.Outcome.next ((powered_on on _).trans ?_)
    rw [held]
    exact if_pos due
  have seqs : ((fun y : SvcEvent => y.seq) ∘ fun y => if y.seq = q then { y with sent := s.devtime } else y) = (·.seq) := by
    funext y
    dsimp only [Function.comp]
    split <;> rfl
  refine ⟨_, eq, rfl, ?_, rfl⟩
  exact (List.map_map).trans (by rw [seqs])

theorem completes_svcBlockLock {s : State} (on : On s) (b : Bool) : Completes (.svcBlockLock b) s fun u =>
    get u nvmSvcStat NvmSvcStat.linkUp = b2n b ∧ RegsBut (· = nvmSvcStat) s u := by
  refine ⟨_, congrArg Host.Outcome.next (powered_on on _), ?_, regsBut_upd (p := (· = nvmSvcStat)) rfl _ _ s⟩
  rw [get_upd_same _ _ _ _ (by decide)]
  cases b <;> rfl

/-- Settles O58, command by command, from what the session opens, keeps and closes. -/
theorem serviceSessions : Obligations.ServiceSessions := by
  refine ⟨fun x nc s on => ⟨?_, ?_, ?_⟩, fun x h s on half young named => ?_, fun h s on half old => ?_,
    fun key x s on => ⟨?_, ?_, ?_, ?_, ?_⟩, fun q e s on held due => completes_svcEventResend on held due,
    fun b v6 a mac data s on => ⟨completes_svcBlockLock on b, ?_, ?_⟩⟩
  · exact fun closed heard few len => hello_opens on closed heard few x len
  · exact fun key opened alive heard few => hello_busy on opened alive heard few x nc
  · exact fun closed many => hello_discarded on closed many x nc
  · have live := halfOpen_of_young half young
    refine ⟨fun k n found => ?_, fun k unknown => ?_, fun n k cipher sig secret hn key verified => ?_,
      fun n k cipher sig key failed => ?_⟩
    · exact ⟨_, exec_authKey_known on live named found, rfl, rfl, rfl⟩
    · exact ⟨_, exec_authKey_unknown on live named unknown, rfl, rfl, denyOpen_authFail _ _ _, denyOpen_regs _ _ _⟩
    · exact ⟨_, exec_auth_verified on live named key verified, openSession_spec x h hn secret s⟩
    · exact ⟨_, exec_auth_failed on live named key failed, authFailed_spec x s⟩
  · refine ⟨_, congrArg Host.Outcome.next (powered_on on _), ?_⟩
    dsimp only
    rw [halfOpen_of_old half old]
    rfl
  · exact completes_nop on
  · exact completes_nop_badMac on
  · exact completes_close on
  · exact completes_eventAck on
  · exact completes_svcSessionTimeout on
  · exact ⟨_, congrArg Host.Outcome.next (powered_on on _), rfl⟩
  · exact ⟨_, congrArg Host.Outcome.next (powered_on on _), rfl⟩

end Sys2Proof.Machine
end

section
/-! The SPDM responder on its transports (R500–R512) and the I3C target of the tray (R555–R557). -/

namespace Sys2Proof.Machine

open Sys2Proof

/-! ### Bytes -/

theorem length_sha512 (bs : List Byte) : (sha512 bs).length = 64 := by
  simp [sha512, toBytesBE]

theorem length_padTo (n : Nat) (bs : List Byte) : (padTo n bs).length = n := by
  simp [padTo]

/-- The bytes of a number stand where the bytes before them end. -/
theorem fieldAt_toBytes (a r : List Byte) (n v : Nat) : fieldAt (a ++ toBytes n v ++ r) a.length n = v % 256 ^ n := by
  have taken : (toBytes n v ++ r).take n = toBytes n v := by
    simp
  rw [fieldAt, List.append_assoc, List.drop_left, taken, fromBytes_toBytes]

/-! ### Requests and responses (R505, R506, R508, R512) -/

section
variable {tr : Transport} {x : SpdmReq} {s : State}

/-- A request that reaches the responder in version 1.2 is meant. -/
theorem spdmRequest_meant (reaches : SpdmReaches tr s) (version : x.version = 0x12) (f : State → State) :
    spdmRequest tr x f s = f s := by
  have meant : (if x.version ≠ 0x12 then spdmError seVersionMismatch 0 s else f s) = f s := if_neg (not_not.mpr version)
  cases tr with
  | svc => exact meant
  | doe h => exact (if_pos (reaches h rfl)).trans meant

/-- A request of another version is answered with VersionMismatch. -/
theorem spdmRequest_other (reaches : SpdmReaches tr s) (version : x.version ≠ 0x12) (f : State → State) :
    spdmRequest tr x f s = spdmError seVersionMismatch 0 s := by
  have other : (if x.version ≠ 0x12 then spdmError seVersionMismatch 0 s else f s) = spdmError seVersionMismatch 0 s :=
    if_pos version
  cases tr with
  | svc => exact other
  | doe h => exact (if_pos (reaches h rfl)).trans other

theorem next_spdmRequest (on : On s) (reaches : SpdmReaches tr s) (version : x.version = 0x12) (f : State → State) :
    (Host.Outcome.next (powered (spdmRequest tr x f) s) : Host.Outcome State Fault Refusal) = .next (f s) :=
  congrArg Host.Outcome.next ((powered_on on _).trans (spdmRequest_meant reaches version f))

theorem spdmError_errors (code data : Nat) (s : State) : get (spdmError code data s) supIdStat SupIdStat.errors =
    min 65535 (get s supIdStat SupIdStat.errors + 1) := get_satAdd_same (by decide) 1 s

theorem spdmError_regs (code data : Nat) (s : State) : RegsBut (· = supIdStat) s (spdmError code data s) :=
  regsBut_satAdd (p := (· = supIdStat)) rfl _ _ s

theorem spdmMax_ge (tr : Transport) : 1184 ≤ spdmMax tr := by
  cases tr
  all_goals norm_num [spdmMax]

/-- A response that fits its transport is sent. -/
theorem respond_fits {body : List Byte} (fits : 2 + body.length ≤ spdmMax tr) (code : Nat)
    (f : List Byte → SpdmConn → SpdmConn) (s : State) :
    respond tr code body f s = answer (.spdm code body) (updConn tr (f (spdmBytes code body)) s) :=
  if_neg (by omega)

theorem respond_short {body : List Byte} (short : body.length ≤ 1182) (code : Nat) (f : List Byte → SpdmConn → SpdmConn)
    (s : State) : respond tr code body f s = answer (.spdm code body) (updConn tr (f (spdmBytes code body)) s) :=
  respond_fits (by have := spdmMax_ge tr; omega) code f s

theorem spdmConn_updConn_same (tr : Transport) (f : SpdmConn → SpdmConn) (s : State) :
    spdmConn tr (updConn tr f s) = f (spdmConn tr s) := tget_tset_same _ _ _ _

theorem spdmConn_updConn_ne {t : Transport} (ne : transportNum t ≠ transportNum tr) (f : SpdmConn → SpdmConn) (s : State) :
    spdmConn t (updConn tr f s) = spdmConn t s := tget_tset_of_ne _ ne _ _

theorem spdmConn_answered_same (tr : Transport) (f : SpdmConn → SpdmConn) (a : Answer) (s : State) :
    spdmConn tr (answer a (updConn tr f s)) = f (spdmConn tr s) := spdmConn_updConn_same _ _ _

theorem spdmConn_answered_ne {t : Transport} (ne : transportNum t ≠ transportNum tr) (f : SpdmConn → SpdmConn) (a : Answer)
    (s : State) : spdmConn t (answer a (updConn tr f s)) = spdmConn t s := spdmConn_updConn_ne ne f s

end

/-! ### NEGOTIATE_ALGORITHMS (R506) -/

/-- The response that selects algorithms. -/
def algorithmsBody (spec asym hash : Nat) : List Byte :=
  [0, 0] ++ toBytes 2 36 ++ toBytes 1 spec ++ [0] ++ toBytes 4 (spec * 8) ++ toBytes 4 (asym * 2 ^ 6)
    ++ toBytes 4 (hash * 2 ^ 2) ++ List.replicate 16 0

theorem length_algorithmsBody (spec asym hash : Nat) : (algorithmsBody spec asym hash).length = 34 := by
  simp [algorithmsBody]

theorem algorithmsBody_spec {spec : Nat} (hs : spec < 2) (asym hash : Nat) :
    fieldAt (algorithmsBody spec asym hash) 4 1 = spec := by
  have at4 := fieldAt_toBytes ([0, 0] ++ toBytes 2 36)
    ([0] ++ toBytes 4 (spec * 8) ++ toBytes 4 (asym * 2 ^ 6) ++ toBytes 4 (hash * 2 ^ 2) ++ List.replicate 16 0) 1 spec
  simp only [List.length_append, length_toBytes, List.length_cons, List.length_nil] at at4
  simp only [algorithmsBody, List.append_assoc] at at4 ⊢
  rw [at4]
  omega

theorem algorithmsBody_measSpec {spec : Nat} (hs : spec < 2) (asym hash : Nat) :
    fieldAt (algorithmsBody spec asym hash) 6 4 = spec * 8 := by
  have at6 := fieldAt_toBytes ([0, 0] ++ toBytes 2 36 ++ toBytes 1 spec ++ [0])
    (toBytes 4 (asym * 2 ^ 6) ++ toBytes 4 (hash * 2 ^ 2) ++ List.replicate 16 0) 4 (spec * 8)
  simp only [List.length_append, length_toBytes, List.length_cons, List.length_nil] at at6
  simp only [algorithmsBody, List.append_assoc] at at6 ⊢
  rw [at6]
  omega

/-! ### Signed transcripts (R502, R512) -/

theorem length_signTranscript (msg : List Byte) (s : State) : (signTranscript msg s).1.length = 512 := length_padTo _ _

theorem signTranscript_spdm (msg : List Byte) (s : State) : (signTranscript msg s).2.spdm = s.spdm :=
  (logOpen_spdm _ _ _ _ _ _ _).trans rfl

theorem signTranscript_counted (msg : List Byte) (s : State) :
    get (signTranscript msg s).2 supIdStat SupIdStat.signed = min 65535 (get s supIdStat SupIdStat.signed + 1) := by
  have logged := (logOpen_reports sevInfo kState bSup 512 0 0 (satAdd supIdStat SupIdStat.signed 1 { s with free := s.free + 1 })).1
  exact (logged.get_eq (not_reportReg_of_low (by decide) (by decide)) _).trans
    (get_satAdd_same (by decide) 1 { s with free := s.free + 1 })

theorem signTranscript_regs (msg : List Byte) (s : State) :
    RegsBut (fun o => o = supIdStat ∨ ReportReg o) s (signTranscript msg s).2 :=
  (regsBut_satAdd (p := fun o => o = supIdStat ∨ ReportReg o) (.inl rfl) SupIdStat.signed 1 { s with free := s.free + 1 }).trans
    ((logOpen_reports _ _ _ _ _ _ _).1.mono fun _ => .inr)

theorem signTranscript_hbm (msg : List Byte) (s : State) : (signTranscript msg s).2.hbm = s.hbm :=
  (congrArg State.hbm (logOpen_reports _ _ _ _ _ _ _).2).trans rfl

theorem signTranscript_tiles (msg : List Byte) (s : State) : (signTranscript msg s).2.tiles = s.tiles :=
  (congrArg State.tiles (logOpen_reports _ _ _ _ _ _ _).2).trans rfl

/-! ### CHALLENGE (R506, R510) -/

theorem length_summaryHash (s : State) (ty : Nat) : (summaryHash s ty).length ≤ 64 := by
  unfold summaryHash
  dsimp only
  split
  · exact Nat.zero_le _
  · exact Nat.le_of_eq (length_sha512 _)

/-- The body of a response to CHALLENGE before its signature, with its nonce. -/
def challengeBody (x : SpdmReq) (s : State) : List Byte :=
  [0, 1] ++ sha512 certChain ++ (spdmNonce s).1 ++ summaryHash s x.param2 ++ [0, 0]

/-- What a response to CHALLENGE signs, signed. -/
def challengeSigned (tr : Transport) (x : SpdmReq) (s : State) : List Byte × State :=
  signTranscript ((spdmConn tr s).vca ++ (spdmConn tr s).certs ++ x.bytes ++ spdmBytes 0x03 (challengeBody x s)) (spdmNonce s).2

theorem length_challengeBody (x : SpdmReq) (s : State) : (challengeBody x s).length ≤ 164 := by
  have hash := length_summaryHash s x.param2
  have nonce : (spdmNonce s).1.length = 32 := length_toBytes _ _
  have chain := length_sha512 certChain
  simp only [challengeBody, List.length_append, List.length_cons, List.length_nil]
  omega

section
variable {tr : Transport} {x : SpdmReq} {s : State}

theorem challenge_unusable (key : deviceKeyOk = false) : challenge tr x s = spdmError seUnspecified 0 s := by
  unfold challenge
  rw [key]
  exact if_pos rfl

/-- A CHALLENGE of slot 0 for a summary of a known type is signed. -/
theorem challenge_signed (key : deviceKeyOk = true) (slot : x.param1 = 0)
    (summary : x.param2 = 0 ∨ x.param2 = 1 ∨ x.param2 = 0xFF) :
    challenge tr x s = respond tr 0x03 (challengeBody x s ++ (challengeSigned tr x s).1)
      (fun _ c => { c with certs := [] }) (challengeSigned tr x s).2 := by
  have asked : ¬ (x.param1 ≠ 0 ∨ ¬ (x.param2 = 0 ∨ x.param2 = 1 ∨ x.param2 = 0xFF)) := by
    rintro (other | unknown)
    · exact other slot
    · exact unknown summary
  unfold challenge
  rw [key]
  exact (if_neg (by decide)).trans (if_neg asked)

theorem challengeSigned_spec (tr : Transport) (x : SpdmReq) (s : State) :
    (challengeSigned tr x s).1.length = 512 ∧ (challengeSigned tr x s).2.hbm = s.hbm ∧
      (challengeSigned tr x s).2.tiles = s.tiles ∧
      get (challengeSigned tr x s).2 supIdStat SupIdStat.signed = min 65535 (get s supIdStat SupIdStat.signed + 1) ∧
      RegsBut (fun o => o = supIdStat ∨ ReportReg o) s (challengeSigned tr x s).2 :=
  ⟨length_signTranscript _ _, (signTranscript_hbm _ _).trans rfl, (signTranscript_tiles _ _).trans rfl,
    signTranscript_counted _ _, signTranscript_regs _ (spdmNonce s).2⟩

end

/-! ### GET_MEASUREMENTS (R506, R508, R511) -/

/-- A transcript of measurements holds its snapshot from its first request on. -/
def measSnapped (tr : Transport) (s : State) : State :=
  updConn tr (fun c => { c with snap := some (c.snap.getD (snapshot s)) }) s

theorem measSnapped_snap (tr : Transport) (s : State) :
    (spdmConn tr (measSnapped tr s)).snap = some ((spdmConn tr s).snap.getD (snapshot s)) :=
  congrArg SpdmConn.snap (spdmConn_updConn_same _ _ _)

/-- The body of a response without blocks: their number, and a nonce. -/
def measCount (count : Nat) (nonce : List Byte) : List Byte :=
  toBytes 1 count ++ [0] ++ toBytes 1 0 ++ toBytes 3 0 ++ [] ++ nonce ++ [0, 0]

theorem length_measCount (count : Nat) (nonce : List Byte) : (measCount count nonce).length = nonce.length + 8 := by
  simp only [measCount, List.length_append, length_toBytes, List.length_cons, List.length_nil]
  omega

theorem measCount_count (count : Nat) (nonce : List Byte) : fieldAt (measCount count nonce) 0 1 = count % 256 := by
  have first := fieldAt_toBytes [] ([0] ++ toBytes 1 0 ++ toBytes 3 0 ++ [] ++ nonce ++ [0, 0]) 1 count
  simpa only [measCount, List.append_assoc, List.nil_append, List.length_nil, Nat.pow_one] using first

/-- The number of blocks of a transcript's snapshot. -/
def snapCount (tr : Transport) (s : State) : Nat := ((spdmConn tr s).snap.getD []).length

theorem length_spdmNonce (s : State) : (spdmNonce s).1.length = 32 := length_toBytes _ _

/-- Asked for the number of blocks only, unsigned. -/
theorem measurements_count (tr : Transport) (x : SpdmReq) (s : State) : measurements tr x 0 false s =
    respond tr 0x60 (measCount (snapCount tr (measSnapped tr s)) (spdmNonce (measSnapped tr s)).1)
      (fun r c => { c with meas := c.meas ++ x.bytes ++ r }) (spdmNonce (measSnapped tr s)).2 := rfl

/-- What a response with the number of blocks signs, signed. -/
def countSigned (tr : Transport) (x : SpdmReq) (s : State) : List Byte × State :=
  signTranscript ((spdmConn tr s).vca ++ (spdmConn tr s).meas ++ x.bytes ++
    spdmBytes 0x60 (measCount (snapCount tr s) (spdmNonce s).1)) (spdmNonce s).2

section
variable {tr : Transport} {x : SpdmReq} {s : State}

theorem measurements_countSigned (key : deviceKeyOk = true) : measurements tr x 0 true s =
    respond tr 0x60 (measCount (snapCount tr (measSnapped tr s)) (spdmNonce (measSnapped tr s)).1 ++
      (countSigned tr x (measSnapped tr s)).1) (fun _ c => { c with meas := [], snap := none })
      (countSigned tr x (measSnapped tr s)).2 := by
  have fits : ¬ spdmMax tr <
      2 + (measCount (snapCount tr (measSnapped tr s)) (spdmNonce (measSnapped tr s)).1).length + 512 := by
    have max := spdmMax_ge tr
    rw [length_measCount, length_spdmNonce]
    omega
  unfold measurements
  dsimp only
  rw [measRecord, if_pos rfl]
  dsimp only
  rw [key, if_neg (by decide), if_pos rfl]
  exact if_neg fits

/-- A block that the snapshot does not hold is an invalid request. -/
theorem measurements_absent {i : Nat} (absent : measRecord ((spdmConn tr s).snap.getD (snapshot s)) i = none) (sign : Bool) :
    measurements tr x i sign s = spdmError seInvalidRequest 0 (measSnapped tr s) := by
  have snap : (spdmConn tr (measSnapped tr s)).snap.getD [] = (spdmConn tr s).snap.getD (snapshot s) := by
    rw [measSnapped_snap]
    rfl
  unfold measurements
  dsimp only
  rw [← measSnapped, snap, absent]

end

/-! ### What each request answers (R506) -/

section
variable {tr : Transport} {x : SpdmReq} {s : State}

theorem completes_getVersion (on : On s) (reaches : SpdmReaches tr s) (version : x.version = 0x12) :
    Completes (.getVersion tr x) s fun u => u.answer = .spdm 0x04 [0, 0, 0, 1, 0x00, 0x12] ∧
      (spdmConn tr u).certs = [] ∧ (spdmConn tr u).meas = [] ∧ (spdmConn tr u).snap = none ∧
      (∀ t, transportNum t ≠ transportNum tr → spdmConn t u = spdmConn t s) ∧
      u = { s with spdm := u.spdm, answer := u.answer } := by
  refine ⟨_, (next_spdmRequest on reaches version _).trans (congrArg _ (respond_short (by decide) _ _ _)), rfl, ?_, ?_, ?_,
    fun t ne => spdmConn_answered_ne ne _ _ s, rfl⟩
  · exact congrArg SpdmConn.certs (spdmConn_answered_same tr _ _ s)
  · exact congrArg SpdmConn.meas (spdmConn_answered_same tr _ _ s)
  · exact congrArg SpdmConn.snap (spdmConn_answered_same tr _ _ s)

theorem completes_getCapabilities (on : On s) (reaches : SpdmReaches tr s) (version : x.version = 0x12) :
    Completes (.getCapabilities tr x) s fun u => u.answer = .spdm 0x61 ([0, 0, 0, 17, 0, 0] ++ toBytes 4 0x16 ++
      toBytes 4 (spdmMax tr) ++ toBytes 4 (spdmMax tr)) ∧ u = { s with spdm := u.spdm, answer := u.answer } := by
  have short : ([0, 0, 0, 17, 0, 0] ++ toBytes 4 0x16 ++ toBytes 4 (spdmMax tr) ++ toBytes 4 (spdmMax tr)).length ≤ 1182 := by
    simp only [List.length_append, length_toBytes, List.length_cons, List.length_nil]
    omega
  exact ⟨_, (next_spdmRequest on reaches version _).trans (congrArg _ (respond_short short _ _ _)), rfl, rfl⟩

/-- NEGOTIATE_ALGORITHMS is invalid where it offers none of the algorithms, and else answers with those it offers. -/
theorem completes_negotiateAlgorithms (on : On s) (reaches : SpdmReaches tr s) (version : x.version = 0x12) :
    Completes (.negotiateAlgorithms tr x) s fun u =>
      if fieldAt x.bytes 6 1 % 2 = 0 ∧ bit1 (fieldAt x.bytes 8 4) 6 = false ∧ bit1 (fieldAt x.bytes 12 4) 2 = false then
        u.answer = .spdm 0x7F [0x01, 0] ∧ u = { s with regs := u.regs, answer := u.answer }
      else ∃ body, u.answer = .spdm 0x63 body ∧ body.length = 34 ∧ fieldAt body 4 1 = fieldAt x.bytes 6 1 % 2 ∧
        fieldAt body 6 4 = fieldAt x.bytes 6 1 % 2 * 8 ∧ u = { s with spdm := u.spdm, answer := u.answer } := by
  refine ⟨_, next_spdmRequest on reaches version _, ?_⟩
  dsimp only
  have hs : fieldAt x.bytes 6 1 % 2 < 2 := Nat.mod_lt _ (by decide)
  generalize fieldAt x.bytes 6 1 % 2 = spec at hs ⊢
  generalize bit1 (fieldAt x.bytes 8 4) 6 = asym
  generalize bit1 (fieldAt x.bytes 12 4) 2 = hash
  have none_iff : spec + b2n asym + b2n hash = 0 ↔ spec = 0 ∧ asym = false ∧ hash = false := by
    cases asym <;> cases hash <;> simp [b2n]
  by_cases offered : spec = 0 ∧ asym = false ∧ hash = false
  · rw [if_pos offered, if_pos (none_iff.mpr offered)]
    exact ⟨rfl, rfl⟩
  · have short : (algorithmsBody spec (b2n asym) (b2n hash)).length ≤ 1182 := by
      rw [length_algorithmsBody]
      decide
    rw [if_neg offered, if_neg (mt none_iff.mp offered), ← algorithmsBody, respond_short short]
    exact ⟨_, rfl, length_algorithmsBody _ _ _, algorithmsBody_spec hs _ _, algorithmsBody_measSpec hs _ _, rfl⟩

theorem completes_getDigests (on : On s) (reaches : SpdmReaches tr s) (version : x.version = 0x12) :
    Completes (.getDigests tr x) s fun u => u.answer = .spdm 0x01 ([0, 1] ++ sha512 certChain) ∧
      u = { s with spdm := u.spdm, answer := u.answer } := by
  have short : ([0, 1] ++ sha512 certChain).length ≤ 1182 := by
    rw [List.length_append, length_sha512]
    decide
  exact ⟨_, (next_spdmRequest on reaches version _).trans (congrArg _ (respond_short short _ _ _)), rfl, rfl⟩

theorem completes_getDigests_other (on : On s) (reaches : SpdmReaches tr s) (version : x.version ≠ 0x12) :
    Completes (.getDigests tr x) s fun u => u.answer = .spdm 0x7F [0x41, 0] ∧
      get u supIdStat SupIdStat.errors = min 65535 (get s supIdStat SupIdStat.errors + 1) ∧
      RegsBut (· = supIdStat) s u ∧ u = { s with regs := u.regs, answer := u.answer } :=
  ⟨_, congrArg Host.Outcome.next ((powered_on on _).trans (spdmRequest_other reaches version _)), rfl,
    spdmError_errors _ _ _, spdmError_regs _ _ _, rfl⟩

theorem completes_spdmUnsupported (on : On s) (reaches : SpdmReaches tr s) (version : x.version = 0x12) :
    Completes (.spdmUnsupported tr x) s fun u =>
      u.answer = .spdm 0x7F [0x07, BitVec.ofNat 8 (fieldAt x.bytes 1 1)] ∧
      get u supIdStat SupIdStat.errors = min 65535 (get s supIdStat SupIdStat.errors + 1) ∧ RegsBut (· = supIdStat) s u :=
  ⟨_, next_spdmRequest on reaches version _, rfl, spdmError_errors _ _ _, spdmError_regs _ _ _⟩

/-- The portion of the chain that GET_CERTIFICATE carries fits its transport. -/
theorem completes_getCertificate (on : On s) (reaches : SpdmReaches tr s) (version : x.version = 0x12)
    (key : deviceKeyOk = true) (slot : x.param1 % 16 = 0) (off len : Nat) :
    Completes (.getCertificate tr x off len) s fun u => ∀ part,
      part = (certChain.drop off).take (min len (spdmMax tr - 8)) → u.answer = .spdm 0x02 ([0, 0] ++
        toBytes 2 part.length ++ toBytes 2 (certChain.length - off - part.length) ++ part) ∧
      u = { s with spdm := u.spdm, answer := u.answer } := by
  refine ⟨_, next_spdmRequest on reaches version _, fun part cut => ?_⟩
  have short : part.length ≤ spdmMax tr - 8 := by
    rw [cut]
    exact (List.length_take_le _ _).trans (Nat.min_le_right _ _)
  have fits : 2 + ([0, 0] ++ toBytes 2 part.length ++ toBytes 2 (certChain.length - off - part.length) ++ part).length ≤
      spdmMax tr := by
    have max := spdmMax_ge tr
    simp only [List.length_append, length_toBytes, List.length_cons, List.length_nil]
    omega
  rw [← cut, key, if_neg (by decide), if_neg (not_not.mpr slot), respond_fits fits]
  exact ⟨rfl, rfl⟩

theorem completes_challenge (on : On s) (reaches : SpdmReaches tr s) (version : x.version = 0x12)
    (key : deviceKeyOk = true) (slot : x.param1 = 0) (summary : x.param2 = 0 ∨ x.param2 = 1 ∨ x.param2 = 0xFF)
    (n : List Byte) : Completes (.challenge tr x n) s fun u => (∃ body, u.answer = .spdm 0x03 body) ∧
      (spdmConn tr u).certs = [] ∧ get u supIdStat SupIdStat.signed = min 65535 (get s supIdStat SupIdStat.signed + 1) ∧
      u.hbm = s.hbm ∧ u.tiles = s.tiles ∧ RegsBut (fun o => o = supIdStat ∨ ReportReg o) s u := by
  obtain ⟨size, hbm, tiles, counted, regs⟩ := challengeSigned_spec tr x s
  have eq := challenge_signed (tr := tr) (s := s) key slot summary
  generalize challengeSigned tr x s = sig at size hbm tiles counted regs eq
  have short : (challengeBody x s ++ sig.1).length ≤ 1182 := by
    have body := length_challengeBody x s
    rw [List.length_append, size]
    omega
  rw [respond_short short] at eq
  exact ⟨_, (next_spdmRequest on reaches version _).trans (congrArg _ eq), ⟨_, rfl⟩,
    congrArg SpdmConn.certs (spdmConn_answered_same tr _ _ _), counted, hbm, tiles, regs⟩

theorem completes_challenge_unusable (on : On s) (reaches : SpdmReaches tr s) (version : x.version = 0x12)
    (key : deviceKeyOk = false) (n : List Byte) (off len : Nat) :
    Completes (.challenge tr x n) s (fun u => u.answer = .spdm 0x7F [0x05, 0]) ∧
      Completes (.getCertificate tr x off len) s fun u => u.answer = .spdm 0x7F [0x05, 0] := by
  refine ⟨⟨_, (next_spdmRequest on reaches version _).trans (congrArg _ (challenge_unusable key)), rfl⟩,
    ⟨_, next_spdmRequest on reaches version _, ?_⟩⟩
  dsimp only
  rw [key]
  rfl

theorem completes_getMeasurements_count (on : On s) (reaches : SpdmReaches tr s) (version : x.version = 0x12)
    (n : List Byte) : Completes (.getMeasurements tr x 0 false n) s fun u => (∃ body, u.answer = .spdm 0x60 body ∧
      fieldAt body 0 1 = ((spdmConn tr u).snap.getD []).length % 256) ∧ RegsBut (fun _ => False) s u ∧
      u = { s with spdm := u.spdm, free := u.free, answer := u.answer } := by
  have short : (measCount (snapCount tr (measSnapped tr s)) (spdmNonce (measSnapped tr s)).1).length ≤ 1182 := by
    rw [length_measCount, length_spdmNonce]
    decide
  have eq := (measurements_count tr x s).trans (respond_short short _ _ _)
  refine ⟨_, (next_spdmRequest on reaches version _).trans (congrArg _ eq), ⟨_, rfl, ?_⟩, fun _ _ => rfl, rfl⟩
  refine (measCount_count _ _).trans (congrArg (fun snap => (Option.getD snap []).length % 256) ?_)
  rw [spdmConn_answered_same]
  rfl

theorem completes_getMeasurements_signed (on : On s) (reaches : SpdmReaches tr s) (version : x.version = 0x12)
    (key : deviceKeyOk = true) (n : List Byte) : Completes (.getMeasurements tr x 0 true n) s fun u =>
      (∃ body, u.answer = .spdm 0x60 body) ∧ (spdmConn tr u).meas = [] ∧ (spdmConn tr u).snap = none ∧
      get u supIdStat SupIdStat.signed = min 65535 (get s supIdStat SupIdStat.signed + 1) := by
  have size : (countSigned tr x (measSnapped tr s)).1.length = 512 := length_signTranscript _ _
  have counted : get (countSigned tr x (measSnapped tr s)).2 supIdStat SupIdStat.signed =
      min 65535 (get s supIdStat SupIdStat.signed + 1) := signTranscript_counted _ _
  have eq := measurements_countSigned (tr := tr) (x := x) (s := s) key
  generalize countSigned tr x (measSnapped tr s) = sig at size counted eq
  have short : (measCount (snapCount tr (measSnapped tr s)) (spdmNonce (measSnapped tr s)).1 ++ sig.1).length ≤ 1182 := by
    rw [List.length_append, length_measCount, length_spdmNonce, size]
    decide
  rw [respond_short short] at eq
  exact ⟨_, (next_spdmRequest on reaches version _).trans (congrArg _ eq), ⟨_, rfl⟩,
    congrArg SpdmConn.meas (spdmConn_answered_same tr _ _ _), congrArg SpdmConn.snap (spdmConn_answered_same tr _ _ _), counted⟩

theorem completes_getMeasurements_absent (on : On s) (reaches : SpdmReaches tr s) (version : x.version = 0x12) {i : Nat}
    (absent : measRecord ((spdmConn tr s).snap.getD (snapshot s)) i = none) (sign : Bool) (n : List Byte) :
    Completes (.getMeasurements tr x i sign n) s fun u => u.answer = .spdm 0x7F [0x01, 0] :=
  ⟨_, (next_spdmRequest on reaches version _).trans (congrArg _ (measurements_absent absent sign)), rfl⟩

end

/-! ### The I3C target (R555–R557) -/

theorem read32_hbm (s : State) (off : Nat) : (read32 s off).2.hbm = s.hbm := by
  unfold read32
  split_ifs
  · rfl
  · rfl
  · rfl
  · rfl
  · split
    · rfl
    · split <;> rfl

theorem busRead_hbm (m : Master) (off width : Nat) (s : State) : (busRead m off width s).2.hbm = s.hbm := by
  unfold busRead
  split_ifs
  · have logged := (logAccess_reports accError m off width false s).2
    exact (congrArg State.hbm logged).trans rfl
  · exact read32_hbm s off
  · exact (read32_hbm _ _).trans (read32_hbm s off)

section
variable {s : State} (on : On s)
include on

theorem completes_entdaa (free : s.i3c.dyn = none) (a : Nat) : Completes (.entdaa a) s fun u =>
    u = { s with answer := .done, i3c := { s.i3c with dyn := some a } } := by
  refine ⟨_, congrArg Host.Outcome.next (powered_on on _), ?_⟩
  dsimp only
  rw [free]
  rfl

theorem completes_entdaa_assigned (assigned : s.i3c.dyn ≠ none) (a : Nat) : Completes (.entdaa a) s fun u =>
    u = { s with answer := .nack } :=
  ⟨_, congrArg Host.Outcome.next (powered_on on _), if_pos (Option.isSome_iff_ne_none.mpr assigned)⟩

theorem completes_setdasa (free : s.i3c.dyn = none) (a : Nat) : Completes (.setdasa 0x5A a) s fun u =>
    u = { s with answer := .done, i3c := { s.i3c with dyn := some a } } :=
  ⟨_, congrArg Host.Outcome.next (powered_on on _), if_pos ⟨rfl, free⟩⟩

theorem completes_i3cPrivateRead {off : Nat} (set : s.i3c.readOff = some off) (w : Bool) :
    Completes (.i3cPrivateRead w) s fun u =>
      u.answer = .i3c (toBytes (if w then 8 else 4) (busRead .svc off (if w then 64 else 32)
        { s with i3c := { s.i3c with readOff := none } }).1) ∧ u.hbm = s.hbm := by
  refine ⟨_, congrArg Host.Outcome.next (powered_on on _), ?_⟩
  dsimp only
  rw [set]
  exact ⟨rfl, busRead_hbm _ _ _ _⟩

theorem completes_i3cPrivateRead_summary (unset : s.i3c.readOff = none) (w : Bool) : Completes (.i3cPrivateRead w) s fun u =>
    u = { s with answer := .i3c (toBytes 8 (i3cSummary s)), i3c := { s.i3c with alert := false } } := by
  have eq : exec (.i3cPrivateRead w) s =
      .next (answer (.i3c (toBytes 8 (i3cSummary s))) (i3 (fun x => { x with alert := false }) s)) := by
    refine congrArg Host.Outcome.next ((powered_on on _).trans ?_)
    rw [unset]
  exact ⟨_, eq, rfl⟩

/-- An interrupt that waits is sent where the last one is 10 ms past. -/
theorem completes_i3cIbi {b : Nat} (waits : s.i3c.ibi = some b)
    (past : ∀ t, s.i3c.lastIbi = some t → t + 10 * msTicks ≤ s.devtime) : Completes .i3cIbi s fun u =>
      u = { s with answer := .ibi b, i3c := { s.i3c with ibi := none, lastIbi := some s.devtime } } := by
  refine ⟨_, congrArg Host.Outcome.next (powered_on on _), ?_⟩
  dsimp only
  rw [waits]
  cases last : s.i3c.lastIbi with
  | none => rfl
  | some t => exact if_neg (by simpa using past t last)

end

/-- Settles O60, request by request and code by code. -/
theorem attestationAndTray : Obligations.AttestationAndTray := by
  refine ⟨fun tr x n i off len sg s on reaches => ⟨completes_getDigests_other on reaches, fun version => ?_⟩,
    fun a bs w s on => ?_⟩
  · refine ⟨completes_getVersion on reaches version, completes_getCapabilities on reaches version,
      completes_negotiateAlgorithms on reaches version, completes_getDigests on reaches version,
      completes_spdmUnsupported on reaches version,
      fun key slot => completes_getCertificate on reaches version key slot off len,
      fun key slot summary => completes_challenge on reaches version key slot summary n,
      fun key => completes_challenge_unusable on reaches version key n off len,
      fun zero => ?_, fun zero key => ?_,
      fun absent => completes_getMeasurements_absent on reaches version absent sg n⟩
    · subst zero
      exact completes_getMeasurements_count on reaches version n
    · subst zero
      exact completes_getMeasurements_signed on reaches version key n
  · have next : ∀ f : State → State, (Host.Outcome.next (powered f s) : Host.Outcome State Fault Refusal) = .next (f s) :=
      fun f => congrArg Host.Outcome.next (powered_on on f)
    exact ⟨fun free => ⟨completes_entdaa on free a, completes_setdasa on free a⟩,
      fun assigned => completes_entdaa_assigned on assigned a, ⟨_, next _, rfl⟩, ⟨_, next _, rfl⟩,
      ⟨_, next _, ⟨_, rfl⟩, rfl⟩, ⟨_, next _, ⟨_, rfl⟩, rfl⟩, ⟨_, next _, ⟨_, rfl⟩, rfl⟩, ⟨_, next _, ⟨_, rfl⟩, rfl⟩,
      ⟨_, next _, ⟨_, rfl⟩, rfl⟩, ⟨_, next _, rfl⟩, fun four => ⟨_, next _, if_pos four⟩,
      fun other => ⟨_, next _, if_neg other⟩, fun unset => completes_i3cPrivateRead_summary on unset w,
      fun off set => completes_i3cPrivateRead on set w, fun b waits past => completes_i3cIbi on waits past⟩

end Sys2Proof.Machine
end

section
/-! The owner's commands on the configuration store (R466–R471, R496). -/

namespace Sys2Proof.Machine

open Sys2Proof

/-! ### What a range's reading rests on (R261, R263) -/

theorem homeWith_fst_lt (retired : List Nat) (a : Nat) : (homeWith retired a).1 < 768 := by
  unfold homeWith
  dsimp only
  split
  · generalize hl : List.filter _ _ = live
    have bound : ∀ x ∈ live, x < 768 := fun x hx => by
      rw [← hl] at hx
      exact List.mem_range.mp (List.mem_of_mem_filter hx)
    generalize _ % (768 - retired.length) = j
    cases found : live[j]? with
    | none => exact (by decide : (0 : Nat) < 768)
    | some x => exact bound x (List.mem_of_getElem? found)
  · exact Nat.mod_lt _ (by decide)

/-- The registers that say which slices serve. -/
def SliceRegs (s u : State) : Prop := rd u hbmMapStat = rd s hbmMapStat ∧ ∀ n, n < 768 → rd u (hbmSlice n) = rd s (hbmSlice n)

theorem RegsBut.sliceRegs {p : Nat → Prop} {s u : State} (h : RegsBut p s u) (stat : ¬ p hbmMapStat)
    (slices : ∀ n, n < 768 → ¬ p (hbmSlice n)) : SliceRegs s u := ⟨h _ stat, fun n hn => h _ (slices n hn)⟩

section
variable {s u : State} (same : SliceRegs s u)
include same

theorem SliceRegs.sliceState {n : Nat} (hn : n < 768) : Machine.sliceState u n = Machine.sliceState s n := by
  unfold Machine.sliceState Machine.get
  rw [same.2 n hn]

theorem SliceRegs.get (f : Fld) : Machine.get u hbmMapStat f = Machine.get s hbmMapStat f := by
  unfold Machine.get
  rw [same.1]

theorem SliceRegs.home (a : Nat) : Machine.home u a = Machine.home s a := by
  have retired : retiredList u = retiredList s := by
    unfold retiredList
    refine List.filter_congr fun n hn => ?_
    rw [same.sliceState (List.mem_range.mp hn)]
  unfold Machine.home retiredCount
  rw [retired, same.get]

theorem SliceRegs.rangeFailed (a n : Nat) : Machine.rangeFailed u a n = Machine.rangeFailed s a n := by
  have failed : ∀ b, homeFailed u b = homeFailed s b := fun b => by
    unfold homeFailed
    rw [same.home, same.get, same.sliceState (n := (Machine.home s b).1) (homeWith_fst_lt _ _)]
  unfold Machine.rangeFailed
  simp only [failed, same.get]

end

/-! ### Ranges within ranges -/

theorem inOwnRange_mono {s : State} {m : Master} {a n k : Nat} (le : n ≤ k) (h : inOwnRange s m a k = true) :
    inOwnRange s m a n = true := by
  unfold inOwnRange at h ⊢
  split at h
  · next head named =>
    simp only [exposed, spanHolds, Bool.and_eq_true, decide_eq_true_eq] at h ⊢
    omega
  · exact absurd h (by decide)

theorem errsIn_mono {s : State} {a n k : Nat} (le : n ≤ k) (h : errsIn s a k = []) : errsIn s a n = [] := by
  rw [errsIn, List.filter_eq_nil_iff] at h ⊢
  intro e he
  have out := h e he
  simp only [Bool.and_eq_true, decide_eq_true_eq, not_and, not_lt] at out ⊢
  omega

theorem rangeFailed_mono {s : State} {a n k : Nat} (le : n ≤ k) (h : rangeFailed s a k = false) :
    rangeFailed s a n = false := by
  simp only [rangeFailed, Bool.and_eq_false_iff, List.any_eq_false, List.mem_range] at h ⊢
  exact h.imp_right fun none i hi => none i (by omega)

/-! ### What an owner's command finds (R326) -/

/-- The registers that settling changes where an owner remains, and that an owner's command on the store writes. -/
def StoreReg (o : Nat) : Prop := o = ownStat ∨ o = nvmCfgCmd ∨ o = nvmCfgStat ∨ ReportReg o

theorem not_storeReg_slice {n : Nat} (hn : n < 768) : ¬ StoreReg (hbmSlice n) := by
  rintro (e | e | e | e)
  · simp only [hbmSlice, ownStat] at e
    omega
  · simp only [hbmSlice, nvmCfgCmd] at e
    omega
  · simp only [hbmSlice, nvmCfgStat] at e
    omega
  · exact not_countReg_slice hn (.inr e)

theorem not_storeReg_map : ¬ StoreReg hbmMapStat := by
  rintro (e | e | e | e)
  · exact absurd e (by decide)
  · exact absurd e (by decide)
  · exact absurd e (by decide)
  · exact not_reportReg_of_low (by decide) (by decide) e

/-- The state on which a command of the store acts: settled, with the command shown. -/
def storeAsked (v : Reg) (s : State) : State := put nvmCfgCmd v (settle s)

theorem storeAsked_nvm (v : Reg) (s : State) : (storeAsked v s).nvm = (settle s).nvm := put_nvm _ _ _

theorem storeAsked_workSame (v : Reg) (s : State) : WorkSame (settle s) (storeAsked v s) :=
  ⟨rfl, rfl, rfl, rfl, rfl, rfl, rfl⟩

section
variable {m : Master} {s : State} {a n : Nat} (own : owner (settle s) = some m) (clean : errsIn s a n = [])
  (serves : rangeFailed s a n = false) (v : Reg)
include own clean serves

/-- The store reads a range that serves and has no burst in error. -/
theorem storeRead_asked : storeRead a n (storeAsked v s) = (hbmRead s a n, storeAsked v s) := by
  have regs : RegsBut StoreReg s (storeAsked v s) :=
    ((settle_regs_of_owner own).mono fun o ho => ho.imp_right fun h => .inr (.inr h)).trans
      (regsBut_put (p := StoreReg) (.inr (.inl rfl)) _ _)
  have serves' : rangeFailed (storeAsked v s) a n = false := by
    rw [(regs.sliceRegs not_storeReg_map fun _ => not_storeReg_slice).rangeFailed, serves]
  have errs : (storeAsked v s).hbmState = s.hbmState := by
    rw [storeAsked, put_hbmState, settle_ownFrame s]
  have clean' : errsIn (storeAsked v s) a n = [] := by
    unfold errsIn
    rw [errs]
    exact clean
  have hbm : (storeAsked v s).hbm = s.hbm := (settle_hbm s : (settle s).hbm = s.hbm)
  unfold storeRead
  rw [hbmTouch_clean serves' clean']
  exact congrArg (·, storeAsked v s) (hbmRead_congr hbm a n)

end

/-! ### INSTALL (R468, R470) -/

theorem WorkSame.trans {s v u : State} (h : WorkSame s v) (k : WorkSame v u) : WorkSame s u := by
  obtain ⟨h1, h2, h3, h4, h5, h6, h7⟩ := h
  obtain ⟨k1, k2, k3, k4, k5, k6, k7⟩ := k
  exact ⟨k1.trans h1, k2.trans h2, k3.trans h3, k4.trans h4, k5.trans h5, k6.trans h6, k7.trans h7⟩

theorem Reports.workSame {s u : State} (h : Reports s u) : WorkSame s u := by
  rw [h.2]
  exact ⟨rfl, rfl, rfl, rfl, rfl, rfl, rfl⟩

theorem Reports.nvm {s u : State} (h : Reports s u) : u.nvm = s.nvm := by rw [h.2]

theorem upd_workSame (off : Nat) (f : Fld) (x : Nat) (s : State) : WorkSame s (upd off f x s) :=
  ⟨rfl, rfl, rfl, rfl, rfl, rfl, rfl⟩

theorem nv_workSame (f : NvmState → NvmState) (s : State) : WorkSame s (nv f s) := ⟨rfl, rfl, rfl, rfl, rfl, rfl, rfl⟩

theorem installResult_congr {s u : State} (h : u.nvm = s.nvm) (bs : List Byte) : installResult u bs = installResult s bs := by
  unfold installResult otpKey
  rw [h]

theorem enrollResult_congr {s u : State} (h : u.nvm = s.nvm) (bs : List Byte) : enrollResult u bs = enrollResult s bs := by
  unfold enrollResult
  rw [h]

theorem cfgForm_lt (bs : List Byte) : cfgForm bs < 16 := by
  unfold cfgForm
  split_ifs
  all_goals decide

theorem installResult_lt (s : State) (bs : List Byte) : installResult s bs < 16 := by
  unfold installResult
  dsimp only
  split
  · exact cfgForm_lt bs
  · repeat' split
    all_goals decide

theorem enrollResult_lt (s : State) (bs : List Byte) : enrollResult s bs < 16 := by
  unfold enrollResult
  dsimp only
  repeat' split
  all_goals decide

/-- A result of the store, shown and logged. -/
def storeResult (rule r code object : Nat) (s : State) : State :=
  logCoded sevNotice kConfig bNvm rule r code object (upd nvmCfgStat NvmCfgStat.result r s)

theorem get_storeResult (rule r code object : Nat) (s : State) (f : Fld) :
    get (storeResult rule r code object s) nvmCfgStat f = get (upd nvmCfgStat NvmCfgStat.result r s) nvmCfgStat f :=
  (logCoded_reports _ _ _ _ _ _ _ _).1.get_eq (not_reportReg_of_low (by decide) (by decide)) f

theorem get_storeResult_result {r : Nat} (small : r < 16) (rule code object : Nat) (s : State) :
    get (storeResult rule r code object s) nvmCfgStat NvmCfgStat.result = r := by
  rw [get_storeResult, get_upd_same _ _ _ _ (by decide)]
  exact Nat.mod_eq_of_lt (by simp only [NvmCfgStat.result]; omega)

theorem storeResult_nvm (rule r code object : Nat) (s : State) : (storeResult rule r code object s).nvm = s.nvm :=
  (logCoded_reports _ _ _ _ _ _ _ _).nvm

theorem storeResult_workSame (rule r code object : Nat) (s : State) : WorkSame s (storeResult rule r code object s) :=
  (upd_workSame _ _ _ s).trans (logCoded_reports _ _ _ _ _ _ _ _).workSame

/-- The records that a passing INSTALL puts in force, and OPERATOR (R468). -/
def recordTaken (bs : List Byte) (s : State) : State :=
  upd nvmCfgStat NvmCfgStat.operator 1 (nvmPages arCfg 6 (nv (fun n =>
    { n with cfg := .record bs, prev := some n.cfg, select := 0, operator := true }) s))

theorem installCfg_refused {bs : List Byte} {s : State} (fails : installResult s bs ≠ 0) :
    (installCfg bs s).2 = storeResult 470 (installResult s bs) (installResult s bs) (cf bs 8 4) s :=
  congrArg Prod.snd (if_pos fails)

theorem installCfg_passed {bs : List Byte} {s : State} (passes : installResult s bs = 0) :
    (installCfg bs s).2 = noteSelect (writeDevice (recordTaken bs
      (storeResult 470 (installResult s bs) (installResult s bs) (cf bs 8 4) s))) :=
  congrArg Prod.snd (if_neg (not_not.mpr passes))

theorem recordTaken_spec (bs : List Byte) (s : State) : (recordTaken bs s).nvm.cfg = .record bs ∧
    (recordTaken bs s).nvm.prev = some s.nvm.cfg ∧ (recordTaken bs s).nvm.select = 0 ∧
    (recordTaken bs s).nvm.otp = s.nvm.otp ∧ WorkSame s (recordTaken bs s) := by
  unfold recordTaken
  rw [upd_nvm]
  generalize hv : nv _ s = v
  have pages := nvmPages_recorded (fun _ => False) arCfg 6 v
  have same : WorkSame s v := hv ▸ nv_workSame _ s
  rw [pages.2]
  subst hv
  exact ⟨rfl, rfl, rfl, rfl, same.trans ⟨rfl, rfl, rfl, rfl, rfl, rfl, rfl⟩⟩

/-- Writing the device record and showing the pending choice leave the store. -/
theorem noteSelect_writeDevice_spec (s : State) : (noteSelect (writeDevice s)).nvm.cfg = s.nvm.cfg ∧
    (noteSelect (writeDevice s)).nvm.prev = s.nvm.prev ∧ (noteSelect (writeDevice s)).nvm.select = s.nvm.select ∧
    (noteSelect (writeDevice s)).nvm.otp = s.nvm.otp ∧ WorkSame s (noteSelect (writeDevice s)) := by
  have written := writeDevice_recorded (fun _ => False) s
  unfold noteSelect
  generalize writeDevice s = v at written ⊢
  rw [upd_nvm, written.2]
  exact ⟨rfl, rfl, rfl, rfl, rfl, rfl, rfl, rfl, rfl, rfl, rfl⟩

theorem get_noteSelect_writeDevice {f : Fld} (apart : f.lo + f.w ≤ 1 ∨ 2 ≤ f.lo) (fits : f.lo + f.w ≤ 64) (s : State) :
    get (noteSelect (writeDevice s)) nvmCfgStat f = get s nvmCfgStat f := by
  rw [noteSelect, get_upd_other _ _ _ _ _ fits (by simpa [NvmCfgStat.selectPending, or_comm] using apart)]
  exact (writeDevice_recorded (fun _ => False) s).get_eq not_false f

theorem get_recordTaken_result (bs : List Byte) (s : State) :
    get (recordTaken bs s) nvmCfgStat NvmCfgStat.result = get s nvmCfgStat NvmCfgStat.result := by
  rw [recordTaken, get_upd_other _ _ _ _ _ (by decide) (by decide),
    (nvmPages_recorded (fun _ => False) _ _ _).get_eq not_false]
  rfl

theorem get_recordTaken_operator (bs : List Byte) (s : State) :
    get (recordTaken bs s) nvmCfgStat NvmCfgStat.operator = 1 := by
  rw [recordTaken, get_upd_same _ _ _ _ (by decide)]
  rfl

/-- What INSTALL of a record leaves. -/
theorem installCfg_spec (bs : List Byte) (s : State) :
    get (installCfg bs s).2 nvmCfgStat NvmCfgStat.result = installResult s bs ∧
      (installResult s bs = 0 → (installCfg bs s).2.nvm.cfg = .record bs ∧
        (installCfg bs s).2.nvm.prev = some s.nvm.cfg ∧ (installCfg bs s).2.nvm.select = 0 ∧
        get (installCfg bs s).2 nvmCfgStat NvmCfgStat.operator = 1 ∧ (installCfg bs s).2.nvm.otp = s.nvm.otp) ∧
      (installResult s bs ≠ 0 → (installCfg bs s).2.nvm = s.nvm) ∧ WorkSame s (installCfg bs s).2 := by
  have small := installResult_lt s bs
  have work := storeResult_workSame 470 (installResult s bs) (installResult s bs) (cf bs 8 4) s
  by_cases passes : installResult s bs = 0
  · rw [installCfg_passed passes]
    obtain ⟨cfg, prev, select, otp, written⟩ := noteSelect_writeDevice_spec (recordTaken bs
      (storeResult 470 (installResult s bs) (installResult s bs) (cf bs 8 4) s))
    obtain ⟨cfg', prev', select', otp', taken⟩ := recordTaken_spec bs
      (storeResult 470 (installResult s bs) (installResult s bs) (cf bs 8 4) s)
    rw [storeResult_nvm] at prev' otp'
    refine ⟨?_, fun _ => ⟨cfg.trans cfg', prev.trans prev', select.trans select', ?_, otp.trans otp'⟩,
      fun fails => absurd passes fails, (work.trans taken).trans written⟩
    · rw [get_noteSelect_writeDevice (by decide) (by decide), get_recordTaken_result, get_storeResult_result small]
    · rw [get_noteSelect_writeDevice (by decide) (by decide), get_recordTaken_operator]
  · rw [installCfg_refused passes]
    exact ⟨get_storeResult_result small _ _ _ _, fun h => absurd h passes, fun _ => storeResult_nvm _ _ _ _ _, work⟩

/-! ### ENROLL (R467) -/

theorem enrollCount_lt {s : State} {bs : List Byte} (passes : enrollResult s bs = 0) : s.nvm.otp.length < 4 := by
  by_contra full
  rw [enrollResult, if_pos (by omega)] at passes
  exact absurd passes (by decide)

/-- The digest of an authority's key, burned behind those before it. -/
def keyBurned (key : List Byte) (s : State) : State :=
  upd nvmCfgStat NvmCfgStat.enrolled (s.nvm.otp ++ [key]).length (nv (fun n => { n with otp := n.otp ++ [key] }) s)

theorem enrollBlob_refused {bs : List Byte} {s : State} (fails : enrollResult s bs ≠ 0) :
    (enrollBlob bs s).2 = storeResult 467 (enrollResult s bs) (enrollResult s bs)
      (upd nvmCfgStat NvmCfgStat.result (enrollResult s bs) s).nvm.otp.length s :=
  congrArg Prod.snd (if_pos fails)

theorem enrollBlob_passed {bs : List Byte} {s : State} (passes : enrollResult s bs = 0) :
    (enrollBlob bs s).2 = keyBurned ((Config.certKey ((bs.drop 8).take (cf bs 0 4))).getD [])
      (storeResult 467 (enrollResult s bs) (enrollResult s bs)
        (upd nvmCfgStat NvmCfgStat.result (enrollResult s bs) s).nvm.otp.length s) :=
  congrArg Prod.snd (if_neg (not_not.mpr passes))

/-- What ENROLL of a blob leaves. -/
theorem enrollBlob_spec (bs : List Byte) (s : State) :
    get (enrollBlob bs s).2 nvmCfgStat NvmCfgStat.result = enrollResult s bs ∧
      (enrollResult s bs = 0 → (∃ key, (enrollBlob bs s).2.nvm.otp = s.nvm.otp ++ [key]) ∧
        get (enrollBlob bs s).2 nvmCfgStat NvmCfgStat.enrolled = s.nvm.otp.length + 1) ∧
      (enrollResult s bs ≠ 0 → (enrollBlob bs s).2.nvm = s.nvm) ∧ WorkSame s (enrollBlob bs s).2 := by
  have small := enrollResult_lt s bs
  by_cases passes : enrollResult s bs = 0
  · have room := enrollCount_lt passes
    rw [enrollBlob_passed passes]
    generalize (upd nvmCfgStat NvmCfgStat.result (enrollResult s bs) s).nvm.otp.length = object
    generalize (Config.certKey ((bs.drop 8).take (cf bs 0 4))).getD [] = key
    have work := storeResult_workSame 467 (enrollResult s bs) (enrollResult s bs) object s
    have nvm := storeResult_nvm 467 (enrollResult s bs) (enrollResult s bs) object s
    have result := get_storeResult_result small 467 (enrollResult s bs) object s
    generalize storeResult 467 (enrollResult s bs) (enrollResult s bs) object s = v at work nvm result
    refine ⟨?_, fun _ => ⟨⟨key, ?_⟩, ?_⟩, fun fails => absurd passes fails, work.trans ⟨rfl, rfl, rfl, rfl, rfl, rfl, rfl⟩⟩
    · rw [keyBurned, get_upd_other _ _ _ _ _ (by decide) (by decide)]
      exact result
    · rw [← nvm]
      rfl
    · rw [keyBurned, get_upd_same _ _ _ _ (by decide), nvm, List.length_append, List.length_singleton]
      exact Nat.mod_eq_of_lt (by simp only [NvmCfgStat.enrolled]; omega)
  · rw [enrollBlob_refused passes]
    exact ⟨get_storeResult_result small _ _ _ _, fun h => absurd h passes, fun _ => storeResult_nvm _ _ _ _ _,
      storeResult_workSame _ _ _ _ _⟩

/-! ### The commands (R496) -/

theorem selectCfg_spec (v : Nat) (s : State) : (selectCfg v s).nvm.select = v ∧
    get (selectCfg v s) nvmCfgStat NvmCfgStat.selectPending = b2n (v != get s nvmCfgStat NvmCfgStat.inForce) ∧
    WorkSame s (selectCfg v s) ∧ RegsBut (fun o => o = nvmCfgStat ∨ ReportReg o) s (selectCfg v s) := by
  have logged := logOpen_reports sevNotice kConfig bNvm 471 v v (nv (fun n => { n with select := v }) s)
  have work : WorkSame s (logOpen sevNotice kConfig bNvm 471 v v (nv (fun n => { n with select := v }) s)) :=
    (nv_workSame _ s).trans logged.workSame
  have regs : RegsBut (fun o => o = nvmCfgStat ∨ ReportReg o) s
      (logOpen sevNotice kConfig bNvm 471 v v (nv (fun n => { n with select := v }) s)) :=
    fun off ho => logged.1 off fun h => ho (.inr h)
  have select : (logOpen sevNotice kConfig bNvm 471 v v (nv (fun n => { n with select := v }) s)).nvm.select = v := by
    rw [logged.nvm]
    rfl
  have shown : ∀ f, get (logOpen sevNotice kConfig bNvm 471 v v (nv (fun n => { n with select := v }) s)) nvmCfgStat f =
      get s nvmCfgStat f := fun f => logged.1.get_eq (not_reportReg_of_low (by decide) (by decide)) f
  unfold selectCfg
  generalize logOpen sevNotice kConfig bNvm 471 v v (nv (fun n => { n with select := v }) s) = u at work regs select shown ⊢
  obtain ⟨-, -, select', -, written⟩ := noteSelect_writeDevice_spec u
  have inForce : get (writeDevice u) nvmCfgStat NvmCfgStat.inForce = get s nvmCfgStat NvmCfgStat.inForce :=
    ((writeDevice_recorded (fun _ => False) u).get_eq not_false _).trans (shown _)
  refine ⟨select'.trans select, ?_, work.trans written, ?_⟩
  · rw [noteSelect, get_upd_same _ _ _ _ (by decide), inForce, writeDevice_select, select]
    cases v != get s nvmCfgStat NvmCfgStat.inForce <;> rfl
  · exact (regs.trans ((writeDevice_recorded _ u).1)).trans (regsBut_upd (.inl rfl) _ _ _)

/-- The fields of the word of a command. -/
theorem bits_cfgCmdWord {op src : Nat} (ho : op < 8) (hs : src < 2 ^ 34) :
    bits (cfgCmdWord op src) 0 3 = op ∧ bits (cfgCmdWord op src) 12 34 = src := by
  simp only [bits, cfgCmdWord, Nat.shiftRight_eq_div_pow]
  omega

/-- What NVM_CFG_CMD shows of a command. -/
def cfgCmdShown (op src : Nat) : Reg := BitVec.ofNat 64 (op + src * 2 ^ 12)

section
variable {m : Master} {s : State} {src : Nat} (hs : src < 2 ^ 34)
include hs

theorem cfgCmdWrite_install (lies : inOwnRange s m (src * 4096) 1536 = true) :
    cfgCmdWrite m (cfgCmdWord 1 src) s =
      let r := storeRead (src * 4096) 1536 (put nvmCfgCmd (cfgCmdShown 1 src) s)
      (installCfg r.1 r.2).2 := by
  obtain ⟨op, at12⟩ := bits_cfgCmdWord (op := 1) (by decide) hs
  unfold cfgCmdWrite
  rw [op, at12]
  exact if_pos lies

theorem cfgCmdWrite_install_outside (outside : inOwnRange s m (src * 4096) 1536 = false) :
    cfgCmdWrite m (cfgCmdWord 1 src) s = refusedWrite m nvmCfgCmd 64 s := by
  obtain ⟨op, at12⟩ := bits_cfgCmdWord (op := 1) (by decide) hs
  unfold cfgCmdWrite
  rw [op, at12]
  exact if_neg (by simp [outside])

theorem cfgCmdWrite_enroll (head : inOwnRange s m (src * 4096) 8 = true)
    (lies : inOwnRange s m (src * 4096) (blobSize s (src * 4096)) = true) :
    cfgCmdWrite m (cfgCmdWord 2 src) s =
      let r := storeRead (src * 4096) (blobSize s (src * 4096)) (put nvmCfgCmd (cfgCmdShown 2 src) s)
      (enrollBlob r.1 r.2).2 := by
  obtain ⟨op, at12⟩ := bits_cfgCmdWord (op := 2) (by decide) hs
  unfold cfgCmdWrite
  rw [op, at12]
  exact if_pos (by rw [head, lies]; rfl)

theorem cfgCmdWrite_enroll_outside (outside : inOwnRange s m (src * 4096) 8 = false) :
    cfgCmdWrite m (cfgCmdWord 2 src) s = refusedWrite m nvmCfgCmd 64 s := by
  obtain ⟨op, at12⟩ := bits_cfgCmdWord (op := 2) (by decide) hs
  unfold cfgCmdWrite
  rw [op, at12]
  exact if_neg (by simp [outside])

end

theorem cfgCmdWrite_reserved {op : Nat} (h : 5 ≤ op) (h8 : op < 8) (m : Master) (s : State) :
    cfgCmdWrite m op s = refusedWrite m nvmCfgCmd 64 s := by
  have same : bits op 0 3 = op := by
    simp only [bits, Nat.shiftRight_eq_div_pow]
    omega
  unfold cfgCmdWrite
  rw [same]
  obtain rfl | rfl | rfl : op = 5 ∨ op = 6 ∨ op = 7 := by omega
  all_goals rfl

theorem blobSize_settle (s : State) (a : Nat) : blobSize (settle s) a = blobSize s a := by
  unfold blobSize hbmNat
  rw [hbmRead_congr (settle_hbm s), hbmRead_congr (settle_hbm s)]

/-- The choice of a record by the owner, as SELECT_CURRENT and SELECT_PREVIOUS make it. -/
theorem selectCfg_asked {m : Master} {s : State} (own : owner (settle s) = some m) (v : Nat) (shown : Reg) : (selectCfg v (storeAsked shown s)).nvm.select = v ∧
    get (selectCfg v (storeAsked shown s)) nvmCfgStat NvmCfgStat.selectPending =
      b2n (v != get s nvmCfgStat NvmCfgStat.inForce) ∧ WorkSame (settle s) (selectCfg v (storeAsked shown s)) ∧
    RegsBut (fun o => o = nvmCfgCmd ∨ o = nvmCfgStat ∨ ReportReg o) (settle s) (selectCfg v (storeAsked shown s)) := by
  obtain ⟨select, pending, work, regs⟩ := selectCfg_spec v (storeAsked shown s)
  have inForce : get (storeAsked shown s) nvmCfgStat NvmCfgStat.inForce = get s nvmCfgStat NvmCfgStat.inForce :=
    (get_put_ne (by decide) _ _ _).trans ((settle_regs_of_owner own).get_eq
      (not_or.mpr ⟨by decide, not_reportReg_of_low (by decide) (by decide)⟩) _)
  rw [inForce] at pending
  exact ⟨select, pending, work,
    (regsBut_put (p := fun o => o = nvmCfgCmd ∨ o = nvmCfgStat ∨ ReportReg o) (.inl rfl) _ _).trans (regs.mono fun _ => .inr)⟩

section
variable {m : Master} {s : State} (on : On s) (own : owner (settle s) = some m)
include on own

theorem exec_install (src : Nat) :
    exec (.install m src) s = .next (cfgCmdWrite m (cfgCmdWord 1 src) (settle s)) :=
  congrArg Host.Outcome.next (powered_asOwner on own _ _ _)

theorem exec_enroll (src : Nat) : exec (.enroll m src) s = .next (cfgCmdWrite m (cfgCmdWord 2 src) (settle s)) :=
  congrArg Host.Outcome.next (powered_asOwner on own _ _ _)

theorem completes_install {src : Nat} (hs : src < 2 ^ 34) (lies : inOwnRange (settle s) m (src * 4096) 1536 = true)
    (clean : errsIn s (src * 4096) 1536 = []) (serves : rangeFailed s (src * 4096) 1536 = false) :
    Completes (.install m src) s fun u =>
      get u nvmCfgStat NvmCfgStat.result = installResult (settle s) (hbmRead s (src * 4096) 1536) ∧
      (installResult (settle s) (hbmRead s (src * 4096) 1536) = 0 →
        u.nvm.cfg = .record (hbmRead s (src * 4096) 1536) ∧ u.nvm.prev = some s.nvm.cfg ∧ u.nvm.select = 0 ∧
        get u nvmCfgStat NvmCfgStat.operator = 1 ∧ u.nvm.otp = s.nvm.otp) ∧
      (installResult (settle s) (hbmRead s (src * 4096) 1536) ≠ 0 → u.nvm = (settle s).nvm) ∧ WorkSame (settle s) u := by
  have eq : cfgCmdWrite m (cfgCmdWord 1 src) (settle s) =
      (installCfg (hbmRead s (src * 4096) 1536) (storeAsked (cfgCmdShown 1 src) s)).2 := by
    rw [cfgCmdWrite_install hs lies, ← storeAsked, storeRead_asked own clean serves]
  have cfg : (settle s).nvm.cfg = s.nvm.cfg := by rw [settle_ownFrame s]
  have otp : (settle s).nvm.otp = s.nvm.otp := by rw [settle_ownFrame s]
  obtain ⟨result, passed, refused, work⟩ := installCfg_spec (hbmRead s (src * 4096) 1536) (storeAsked (cfgCmdShown 1 src) s)
  rw [installResult_congr (storeAsked_nvm (cfgCmdShown 1 src) s)] at result passed refused
  rw [storeAsked_nvm] at refused
  rw [storeAsked_nvm, cfg, otp] at passed
  exact ⟨_, (exec_install on own src).trans (congrArg _ eq), result, passed, refused, (storeAsked_workSame _ s).trans work⟩

theorem completes_enroll {src : Nat} (hs : src < 2 ^ 34) (lies : inOwnRange (settle s) m (src * 4096) 8192 = true)
    (clean : errsIn s (src * 4096) 8192 = []) (serves : rangeFailed s (src * 4096) 8192 = false) :
    Completes (.enroll m src) s fun u =>
      get u nvmCfgStat NvmCfgStat.result = enrollResult (settle s) (hbmRead s (src * 4096) (blobSize s (src * 4096))) ∧
      (enrollResult (settle s) (hbmRead s (src * 4096) (blobSize s (src * 4096))) = 0 →
        (∃ key, u.nvm.otp = s.nvm.otp ++ [key]) ∧ get u nvmCfgStat NvmCfgStat.enrolled = s.nvm.otp.length + 1) ∧
      (enrollResult (settle s) (hbmRead s (src * 4096) (blobSize s (src * 4096))) ≠ 0 → u.nvm = (settle s).nvm) ∧
      WorkSame (settle s) u := by
  have short : blobSize s (src * 4096) ≤ 8192 := Nat.min_le_left _ _
  have blob : blobSize (settle s) (src * 4096) = blobSize s (src * 4096) := blobSize_settle s _
  have eq : cfgCmdWrite m (cfgCmdWord 2 src) (settle s) =
      (enrollBlob (hbmRead s (src * 4096) (blobSize s (src * 4096))) (storeAsked (cfgCmdShown 2 src) s)).2 := by
    rw [cfgCmdWrite_enroll hs (inOwnRange_mono (by decide) lies) (inOwnRange_mono (by omega) lies), ← storeAsked, blob,
      storeRead_asked own (errsIn_mono short clean) (rangeFailed_mono short serves)]
  have otp : (settle s).nvm.otp = s.nvm.otp := by rw [settle_ownFrame s]
  obtain ⟨result, passed, refused, work⟩ :=
    enrollBlob_spec (hbmRead s (src * 4096) (blobSize s (src * 4096))) (storeAsked (cfgCmdShown 2 src) s)
  rw [enrollResult_congr (storeAsked_nvm (cfgCmdShown 2 src) s)] at result passed refused
  rw [storeAsked_nvm] at refused
  rw [storeAsked_nvm, otp] at passed
  exact ⟨_, (exec_enroll on own src).trans (congrArg _ eq), result, passed, refused, (storeAsked_workSame _ s).trans work⟩

/-- A SRC outside the owner's head range discards the command. -/
theorem completes_store_outside {src : Nat} (hs : src < 2 ^ 34) (outside : inOwnRange (settle s) m (src * 4096) 8 = false) :
    Completes (.install m src) s (fun u => Reports (settle s) u) ∧
      Completes (.enroll m src) s fun u => Reports (settle s) u := by
  have outside' : inOwnRange (settle s) m (src * 4096) 1536 = false := by
    by_contra lies
    rw [inOwnRange_mono (by decide) (Bool.eq_true_of_not_eq_false lies)] at outside
    exact absurd outside (by decide)
  exact ⟨⟨_, (exec_install on own src).trans (congrArg _ (cfgCmdWrite_install_outside hs outside')),
      refusedWrite_reports _ _ _ _⟩,
    ⟨_, (exec_enroll on own src).trans (congrArg _ (cfgCmdWrite_enroll_outside hs outside)),
      refusedWrite_reports _ _ _ _⟩⟩

theorem exec_selectCurrent : exec (.selectCurrent m) s = .next (selectCfg 0 (storeAsked (cfgCmdShown 3 0) s)) :=
  congrArg Host.Outcome.next (powered_asOwner on own _ _ _)

theorem exec_selectPrevious : exec (.selectPrevious m) s = .next (selectCfg 1 (storeAsked (cfgCmdShown 4 0) s)) :=
  congrArg Host.Outcome.next (powered_asOwner on own _ _ _)

theorem completes_cfgCmdReserved {op : Nat} (reserved : 5 ≤ op % 8) :
    Completes (.cfgCmdReserved m op) s fun u => Reports (settle s) u := by
  refine ⟨_, congrArg Host.Outcome.next ((powered_on on _).trans (if_pos reserved)), ?_⟩
  rw [asOwner_owner own, cfgCmdWrite_reserved reserved (Nat.mod_lt _ (by decide))]
  exact refusedWrite_reports _ _ _ _

end

/-- Settles O56, command by command, each on the state that settling leaves its owner. -/
theorem configurationStore : Obligations.ConfigurationStore := by
  refine ⟨fun h src s on own hs => ⟨?_, ?_, ?_⟩, fun m s on own => ⟨?_, ?_, ?_⟩⟩
  · exact completes_install on own hs
  · exact completes_enroll on own hs
  · exact completes_store_outside on own hs
  · refine ⟨_, exec_selectCurrent on own, ?_⟩
    obtain ⟨select, pending, kept⟩ := selectCfg_asked own 0 (cfgCmdShown 3 0)
    exact ⟨select, by rw [pending, bne_comm], kept⟩
  · refine ⟨_, exec_selectPrevious on own, ?_⟩
    obtain ⟨select, pending, kept⟩ := selectCfg_asked own 1 (cfgCmdShown 4 0)
    exact ⟨select, by rw [pending, bne_comm], kept⟩
  · exact fun op reserved => completes_cfgCmdReserved on own reserved

end Sys2Proof.Machine
end

section
/-! Firmware slots: the owner's acts on them, and how a trial ends (R480–R487, R492, R493). -/

namespace Sys2Proof.Machine

open Sys2Proof

/-! ### What an act on the slots reads -/

/-- The second state has the first one's firmware slots, and their registers. -/
structure SlotsSame (s u : State) : Prop where
  stat : rd u nvmUpdStat = rd s nvmUpdStat
  ctrl : rd u nvmUpdCtrl = rd s nvmUpdCtrl
  slot : ∀ i, i < 2 → rd u (nvmSlotStat i) = rd s (nvmSlotStat i)
  a : u.nvm.slotA = s.nvm.slotA
  b : u.nvm.slotB = s.nvm.slotB

theorem otherSlot_lt (i : Nat) : otherSlot i < 2 := by
  unfold otherSlot
  split <;> decide

theorem otherSlot_ne (i : Nat) : otherSlot i ≠ i := by
  unfold otherSlot
  split
  · next h => rw [h]; decide
  · next h => exact fun e => h e.symm

theorem fwActive_lt (s : State) : fwActive s < 2 := Nat.mod_lt _ (by decide)

theorem fwInactive_lt (s : State) : fwInactive s < 2 := otherSlot_lt _

namespace SlotsSame

variable {s v u : State}

theorem trans (h : SlotsSame s v) (k : SlotsSame v u) : SlotsSame s u :=
  ⟨k.stat.trans h.stat, k.ctrl.trans h.ctrl, fun i hi => (k.slot i hi).trans (h.slot i hi), k.a.trans h.a, k.b.trans h.b⟩

theorem getStat (h : SlotsSame s u) (f : Fld) : get u nvmUpdStat f = get s nvmUpdStat f := by
  unfold get
  rw [h.stat]

theorem active (h : SlotsSame s u) : fwActive u = fwActive s := h.getStat _

theorem inactive (h : SlotsSame s u) : fwInactive u = fwInactive s := congrArg otherSlot h.active

theorem nvmOk (h : SlotsSame s u) : Machine.nvmOk u = Machine.nvmOk s := by
  unfold Machine.nvmOk
  rw [h.getStat, h.getStat]

theorem onTrial (h : SlotsSame s u) : Machine.onTrial u = Machine.onTrial s := by
  unfold Machine.onTrial
  rw [h.getStat]

theorem state (h : SlotsSame s u) {i : Nat} (hi : i < 2) : fwSlotSt u i = fwSlotSt s i := by
  unfold fwSlotSt get
  rw [h.slot i hi]

theorem trialMin (h : SlotsSame s u) : Machine.trialMin u = Machine.trialMin s := by
  unfold Machine.trialMin get
  rw [h.ctrl]

theorem fwSlot (h : SlotsSame s u) (i : Nat) : Machine.fwSlot u i = Machine.fwSlot s i := by
  unfold Machine.fwSlot
  rw [h.a, h.b]

theorem mdigest (h : SlotsSame s u) (i : Nat) : Machine.mdigest u i = Machine.mdigest s i := by
  unfold Machine.mdigest slotBytes slotByteAt
  rw [h.fwSlot]

end SlotsSame

theorem nvmSlotStat_ne_updCmd (i : Nat) : nvmSlotStat i ≠ nvmUpdCmd := by
  simp only [nvmSlotStat, nvmUpdCmd]
  omega

theorem nvmSlotStat_ne_updStat (i : Nat) : nvmSlotStat i ≠ nvmUpdStat := by
  simp only [nvmSlotStat, nvmUpdStat]
  omega

theorem nvmSlotStat_ne_updCtrl (i : Nat) : nvmSlotStat i ≠ nvmUpdCtrl := by
  simp only [nvmSlotStat, nvmUpdCtrl]
  omega

theorem nvmSlotStat_ne {i j : Nat} (h : i ≠ j) : nvmSlotStat i ≠ nvmSlotStat j := by
  simp only [nvmSlotStat]
  omega

theorem not_reportReg_slotStat {i : Nat} (hi : i < 2) : ¬ ReportReg (nvmSlotStat i) :=
  not_reportReg_of_low (by simp only [nvmSlotStat]; omega) (by simp only [nvmSlotStat, ledLogStat]; omega)

theorem upd_updCmd_slotsSame (f : Fld) (x : Nat) (s : State) : SlotsSame s (upd nvmUpdCmd f x s) where
  stat := rd_upd_ne (by decide) _ _ _
  ctrl := rd_upd_ne (by decide) _ _ _
  slot := fun i _ => rd_upd_ne (nvmSlotStat_ne_updCmd i) _ _ _
  a := rfl
  b := rfl

theorem settle_slotsSame {m : Master} {s : State} (own : owner (settle s) = some m) : SlotsSame s (settle s) where
  stat := settle_regs_of_owner own _ (not_or.mpr ⟨by decide, not_reportReg_of_low (by decide) (by decide)⟩)
  ctrl := settle_regs_of_owner own _ (not_or.mpr ⟨by decide, not_reportReg_of_low (by decide) (by decide)⟩)
  slot := fun i hi => settle_regs_of_owner own _ (not_or.mpr ⟨nvmSlotStat_ne_ownStat i, not_reportReg_slotStat hi⟩)
  a := by rw [settle_ownFrame s]
  b := by rw [settle_ownFrame s]

/-! ### Boot records (R483, R494) -/

/-- The registers that a boot record, its log entry and its lifetime record may change. -/
def BootReg (o : Nat) : Prop := o = nvmUpdStat ∨ RecordReg o

theorem not_bootReg_slotStat {i : Nat} (hi : i < 2) : ¬ BootReg (nvmSlotStat i) := by
  rintro (e | e | e)
  · exact nvmSlotStat_ne_updStat i e
  · exact not_reportReg_slotStat hi e
  · simp only [nvmSlotStat, lifStat] at e
    omega

theorem not_bootReg_updCmd : ¬ BootReg nvmUpdCmd := by
  rintro (e | e | e)
  · exact absurd e (by decide)
  · exact not_reportReg_of_low (by decide) (by decide) e
  · exact absurd e (by decide)

section
variable {p : Nat → Prop} {s u : State} (h : Recorded p s u)
include h

theorem Recorded.bootRec : u.nvm.bootRec = s.nvm.bootRec := by rw [h.2]

theorem Recorded.timerLatch : u.nvm.timerLatch = s.nvm.timerLatch := by rw [h.2]

theorem Recorded.slotA : u.nvm.slotA = s.nvm.slotA := by rw [h.2]

theorem Recorded.slotB : u.nvm.slotB = s.nvm.slotB := by rw [h.2]

end

/-- A boot record stands, with the registers beside it and the device's work as they were. -/
structure BootKept (s u : State) : Prop where
  regs : RegsBut BootReg s u
  record : u.nvm.bootRec = s.nvm.bootRec
  work : WorkSame s u

theorem BootKept.trans {s v u : State} (h : BootKept s v) (k : BootKept v u) : BootKept s u :=
  ⟨h.regs.trans k.regs, k.record.trans h.record, h.work.trans k.work⟩

theorem BootKept.ite {c : Prop} [Decidable c] {s v u : State} (h : BootKept s v) (k : BootKept s u) :
    BootKept s (if c then v else u) := by
  split
  · exact h
  · exact k

theorem Recorded.bootKept {p : Nat → Prop} {s u : State} (h : Recorded p s u) (hp : ∀ o, p o → BootReg o) : BootKept s u :=
  ⟨h.1.mono hp, h.bootRec, h.workSame⟩

theorem upd_updStat_bootKept (f : Fld) (x : Nat) (s : State) : BootKept s (upd nvmUpdStat f x s) :=
  (Recorded.upd (p := (· = nvmUpdStat)) rfl f x s).bootKept fun _ => .inl

theorem lifeFirmware_recorded (slot kind reason : Nat) (s : State) : Recorded RecordReg s (lifeFirmware slot kind reason s) := by
  have words : ∀ (l : List Nat) (w : Nat → Reg) (v : State),
      Recorded RecordReg v (l.foldl (fun v j => setLifeWord (322 + j) (w j) v) v) := fun l w v =>
    foldl_related (R := Recorded RecordReg) (.refl _) .trans _
      (fun j _ v => (setLifeWord_paged RecordReg (322 + j) (w j) v).recorded fun _ => id) v
  have word : ∀ i x v, Recorded RecordReg v (setLifeWord i x v) := fun i x v =>
    (setLifeWord_paged RecordReg i x v).recorded fun _ => id
  unfold lifeFirmware
  dsimp only
  exact (((words _ _ s).trans (word _ _ _)).trans (word _ _ _)).trans (lifetimeWrite_recorded _)

/-- The boot record that is written. -/
def bootRecord (kind active target tboots trialMin reason : Nat) (md : List Byte) (s : State) : BootRec :=
  { kind := kind, active := active, seq := (s.nvm.bootRec.map (·.seq)).getD 0 + 1, time := s.devtime, target := target
    tboots := tboots, trialMin := trialMin, reason := reason, mdigest := md }

/-- The state once a boot record stands in NVM and ACTIVE and LAST_KIND show it. -/
def bootShown (kind active : Nat) (r : BootRec) (s : State) : State :=
  upd nvmUpdStat NvmUpdStat.active active (upd nvmUpdStat NvmUpdStat.lastKind kind
    (nvmPages arBoot 1 (nv (fun x => { x with bootRec := some r, bootPrev := x.bootRec }) s)))

/-- What follows a boot record: the reason, the log entry, and the lifetime record. -/
def bootReported (kind target reason : Nat) (s : State) : State :=
  let s := if kind = 5 ∨ kind = 6 then
      upd nvmUpdStat NvmUpdStat.lastReason reason (nv (fun x => { x with lastReason := reason }) s) else s
  let s := logCoded (if kind = 5 ∨ kind = 6 then sevDegrade else sevNotice) kConfig bNvm 483 kind
    (if kind = 5 ∨ kind = 6 then reason else kind) target s
  if 4 ≤ kind then lifeFirmware target kind reason s else s

theorem writeBoot_eq {s : State} (ok : nvmOk s = true) (kind active target tboots trialMin reason : Nat) (md : List Byte) :
    writeBoot kind active target tboots trialMin reason md false s =
      bootReported kind target reason
        (bootShown kind active (bootRecord kind active target tboots trialMin reason md s) s) := by
  unfold writeBoot
  rw [ok]
  rfl

theorem bootShown_record (kind active : Nat) (r : BootRec) (s : State) :
    (bootShown kind active r s).nvm.bootRec = some r := by
  unfold bootShown
  rw [upd_nvm, upd_nvm, (nvmPages_recorded (fun _ => False) arBoot 1 _).2]
  rfl

theorem bootShown_regs (kind active : Nat) (r : BootRec) (s : State) : RegsBut BootReg s (bootShown kind active r s) := by
  have pages := (nvmPages_recorded BootReg arBoot 1 (nv (fun x => { x with bootRec := some r, bootPrev := x.bootRec }) s)).1
  have begun : RegsBut BootReg s (nv (fun x => { x with bootRec := some r, bootPrev := x.bootRec }) s) := fun _ _ => rfl
  exact ((begun.trans pages).trans (regsBut_upd (.inl rfl) _ _ _)).trans (regsBut_upd (.inl rfl) _ _ _)

theorem bootShown_work (kind active : Nat) (r : BootRec) (s : State) : WorkSame s (bootShown kind active r s) :=
  (((nv_workSame _ s).trans (nvmPages_recorded (fun _ => False) arBoot 1 _).workSame).trans (upd_workSame _ _ _ _)).trans
    (upd_workSame _ _ _ _)

theorem bootReported_kept (kind target reason : Nat) (s : State) : BootKept s (bootReported kind target reason s) := by
  have held : ∀ v, BootKept v (nv (fun x => { x with lastReason := reason }) v) := fun v =>
    ⟨fun _ _ => rfl, rfl, nv_workSame _ v⟩
  have noted : ∀ v, BootKept v
      (upd nvmUpdStat NvmUpdStat.lastReason reason (nv (fun x => { x with lastReason := reason }) v)) := fun v =>
    (held v).trans (upd_updStat_bootKept _ _ _)
  have same : ∀ v, BootKept v v := fun v => (Recorded.refl BootReg v).bootKept fun _ => id
  have logged : ∀ a b c d e f g v, BootKept v (logCoded a b c d e f g v) := fun a b c d e f g v =>
    (logCoded_reports a b c d e f g v).recorded.bootKept fun _ => .inr
  unfold bootReported
  dsimp only
  refine ((BootKept.ite (noted s) (same s)).trans (logged _ _ _ _ _ _ _ _)).trans (.ite ?_ (same _))
  exact (lifeFirmware_recorded _ _ _ _).bootKept fun _ => .inr

theorem not_recordReg_updStat : ¬ RecordReg nvmUpdStat :=
  not_or.mpr ⟨not_reportReg_of_low (by decide) (by decide), by decide⟩

/-- The slot that a boot record names ACTIVE stays so. -/
theorem fwActive_bootReported (kind target reason : Nat) (s : State) :
    fwActive (bootReported kind target reason s) = fwActive s := by
  have logged : ∀ a b c d e f g v, fwActive (logCoded a b c d e f g v) = fwActive v := fun a b c d e f g v =>
    (logCoded_reports a b c d e f g v).recorded.get_eq not_recordReg_updStat _
  have noted : fwActive (upd nvmUpdStat NvmUpdStat.lastReason reason (nv (fun x => { x with lastReason := reason }) s)) =
      fwActive s := get_upd_other _ _ _ _ _ (by decide) (by decide)
  have lived : ∀ v, fwActive (lifeFirmware target kind reason v) = fwActive v := fun v =>
    (lifeFirmware_recorded target kind reason v).get_eq not_recordReg_updStat _
  unfold bootReported
  dsimp only
  rw [apply_ite fwActive, lived, ite_self, logged, apply_ite fwActive, noted, ite_self]

theorem fwActive_bootShown (kind active : Nat) (r : BootRec) (s : State) :
    fwActive (bootShown kind active r s) = active % 2 := get_upd_same _ _ _ _ (by decide)

/-- A boot record of an act on a slot: the slot's state, the record, and all else as it was. -/
structure BootAct (i st : Nat) (r : BootRec) (s u : State) : Prop where
  state : fwSlotSt u i = st
  record : u.nvm.bootRec = some r
  active : fwActive u = r.active % 2
  command : ∀ f, get u nvmUpdCmd f = get s nvmUpdCmd f
  work : WorkSame s u

theorem fwSlotSt_setFwSlot {st : Nat} (h : st < 8) (i r : Nat) (s : State) : fwSlotSt (setFwSlot i st r s) i = st :=
  (get_upd_same _ _ _ _ (by decide)).trans (Nat.mod_eq_of_lt h)

theorem setFwSlot_regs (i st r : Nat) (s : State) : RegsBut (· = nvmSlotStat i) s (setFwSlot i st r s) :=
  (regsBut_upd (p := (· = nvmSlotStat i)) rfl _ _ s).trans (regsBut_upd (p := (· = nvmSlotStat i)) rfl _ _ _)

theorem nvmOk_setFwSlot (i st r : Nat) (s : State) : nvmOk (setFwSlot i st r s) = nvmOk s := by
  unfold nvmOk
  rw [(setFwSlot_regs i st r s).get_eq (nvmSlotStat_ne_updStat i).symm,
    (setFwSlot_regs i st r s).get_eq (nvmSlotStat_ne_updStat i).symm]

theorem writeBoot_setFwSlot {s : State} (ok : nvmOk s = true) {i st : Nat} (hi : i < 2) (hst : st < 8)
    (res kind active target tboots trialMin reason : Nat) (md : List Byte) :
    BootAct i st (bootRecord kind active target tboots trialMin reason md s) s
      (writeBoot kind active target tboots trialMin reason md false (setFwSlot i st res s)) := by
  rw [writeBoot_eq ((nvmOk_setFwSlot _ _ _ _).trans ok)]
  have kept := bootReported_kept kind target reason (bootShown kind active
    (bootRecord kind active target tboots trialMin reason md (setFwSlot i st res s)) (setFwSlot i st res s))
  have regs := (bootShown_regs kind active (bootRecord kind active target tboots trialMin reason md (setFwSlot i st res s))
    (setFwSlot i st res s)).trans kept.regs
  refine ⟨?_, kept.record.trans (bootShown_record _ _ _ _),
    (fwActive_bootReported _ _ _ _).trans (fwActive_bootShown _ _ _ _), fun f => ?_, ?_⟩
  · rw [fwSlotSt, regs.get_eq (not_bootReg_slotStat hi)]
    exact fwSlotSt_setFwSlot hst i res s
  · rw [regs.get_eq not_bootReg_updCmd]
    exact (setFwSlot_regs i st res s).get_eq (nvmSlotStat_ne_updCmd i).symm f
  · have set : WorkSame s (setFwSlot i st res s) := (upd_workSame _ _ _ s).trans (upd_workSame _ _ _ _)
    exact (set.trans (bootShown_work _ _ _ _)).trans kept.work

/-! ### Acts of the owner (R482, R493) -/

/-- The state with an OP of NVM_UPD_CMD and its RESULT shown. -/
def updShown (op result : Nat) (s : State) : State :=
  upd nvmUpdCmd NvmUpdCmd.result result (upd nvmUpdCmd NvmUpdCmd.op op s)

theorem updShown_slotsSame (op result : Nat) (s : State) : SlotsSame s (updShown op result s) :=
  (upd_updCmd_slotsSame _ _ s).trans (upd_updCmd_slotsSame _ _ _)

theorem updShown_workSame (op result : Nat) (s : State) : WorkSame s (updShown op result s) :=
  ⟨rfl, rfl, rfl, rfl, rfl, rfl, rfl⟩

theorem get_updShown_result {result : Nat} (h : result < 16) (op : Nat) (s : State) :
    get (updShown op result s) nvmUpdCmd NvmUpdCmd.result = result :=
  (get_upd_same _ _ _ _ (by decide)).trans (Nat.mod_eq_of_lt h)

theorem get_updShown_op {op : Nat} (h : op < 8) (result : Nat) (s : State) :
    get (updShown op result s) nvmUpdCmd NvmUpdCmd.op = op :=
  ((get_upd_other _ _ _ _ _ (by decide) (by decide)).trans (get_upd_same _ _ _ _ (by decide))).trans (Nat.mod_eq_of_lt h)

/-- Whether the slots allow an act depends on the slots' registers and on whether an upload runs. -/
theorem updAdmits_shown (op x : Nat) (s : State) (g : Fld) : updAdmits (upd nvmUpdCmd g x s) op = updAdmits s op := by
  have same := upd_updCmd_slotsSame g x s
  unfold updAdmits
  rw [same.inactive, same.state (fwInactive_lt s), same.nvmOk, same.onTrial]
  rfl

theorem bits_op {op : Nat} (h : op < 8) : bits op 0 3 = op := by
  simp only [bits, Nat.shiftRight_eq_div_pow]
  omega

section
variable {m : Master} {s : State} {op : Nat} (some : 1 ≤ op) (least : op ≤ 6)
include some least

theorem updCmdWrite_admitted (admits : updAdmits s op = true) : updCmdWrite m op s = updAct op (updShown op urOk s) := by
  unfold updCmdWrite
  rw [bits_op (by omega)]
  dsimp only
  rw [if_neg (by omega), if_neg (by omega), updAdmits_shown op op, if_pos admits]
  rfl

theorem updCmdWrite_state (admits : updAdmits s op = false) : updCmdWrite m op s = updShown op urState s := by
  unfold updCmdWrite
  rw [bits_op (by omega)]
  dsimp only
  rw [if_neg (by omega), if_neg (by omega), updAdmits_shown op op, admits]
  rfl

end

theorem updCmdWrite_reserved (m : Master) (s : State) : updCmdWrite m 7 s = refusedWrite m nvmUpdCmd 32 s := rfl

/-- The record of an ARM. -/
def armRecord (s : State) : BootRec :=
  bootRecord 1 (fwActive s) (fwInactive s) 0 (trialMin s) 0 (mdigest s (fwInactive s)) s

theorem arm_act {s : State} (ok : nvmOk s = true) : BootAct (fwInactive s) fsArmed (armRecord s) s (arm s) :=
  writeBoot_setFwSlot ok (fwInactive_lt s) (by decide) _ _ _ _ _ _ _ _

theorem disarm_act {s : State} (ok : nvmOk s = true) :
    BootAct (fwInactive s) fsStaged (bootRecord 2 (fwActive s) (fwInactive s) 0 0 0 [] s) s (updAct 3 s) :=
  writeBoot_setFwSlot ok (fwInactive_lt s) (by decide) _ _ _ _ _ _ _ _

/-! ### Device resets of the firmware (R485–R487) -/

theorem deviceResetBy_bootRec (own : Bool) (c : ResetCause) (s : State) :
    (deviceResetBy own c s).nvm.bootRec = s.nvm.bootRec := by
  rw [deviceResetBy_nvm]
  exact (resetWritten_recorded own c s).bootRec

theorem deviceResetBy_timerLatch (own : Bool) (c : ResetCause) (s : State) :
    (deviceResetBy own c s).nvm.timerLatch = s.nvm.timerLatch := by
  rw [deviceResetBy_nvm]
  exact (resetWritten_recorded own c s).timerLatch

/-- A fallback takes a device reset of cause FIRMWARE, with a FALLBACK record of its reason where a device serves. -/
theorem fallback_spec (reason : Nat) (s : State) : get (fallback reason s) supResetStat SupResetStat.lastKind = 3 ∧
    get (fallback reason s) supResetStat SupResetStat.lastCause = 11 ∧
    (nvmOk s = true → ∃ r, (fallback reason s).nvm.bootRec = some r ∧ r.kind = 5 ∧ r.active = fwActive s ∧
      r.reason = reason) := by
  refine ⟨get_deviceResetBy_kind _ _ _, get_deviceResetBy_cause _ _ _, fun ok => ?_⟩
  have act := writeBoot_setFwSlot ok (otherSlot_lt (fwActive s)) (st := fsInvalid) (by decide) reason 5 (fwActive s)
    (otherSlot (fwActive s)) 0 0 reason []
  exact ⟨_, (deviceResetBy_bootRec _ _ _).trans act.record, rfl, rfl, rfl⟩

/-! ### Erased slots (R461, R482) -/

theorem slotErased_frame (i n : Nat) (s : State) : RegsBut (fun _ => False) s (slotErased i n s) ∧
    (slotErased i n s).nvm.slotA = s.nvm.slotA ∧ (slotErased i n s).nvm.slotB = s.nvm.slotB ∧ WorkSame s (slotErased i n s) := by
  unfold slotErased
  dsimp only
  have counted := (countErases_paged (fun _ => False) i arSlot n (nv (fun x => { x with
    slotErases := tset (fun _ => 0) i (tget (fun _ => 0) s.nvm.slotErases i + n) x.slotErases }) s)).recorded fun _ => id
  exact ⟨counted.1, counted.slotA, counted.slotB, (nv_workSame _ s).trans counted.workSame⟩

theorem fwSlot_setSlot_same {i : Nat} (hi : i < 2) (x : Slot) (s : State) : fwSlot (setSlot i x s) i = x := by
  obtain rfl | rfl : i = 0 ∨ i = 1 := by omega
  all_goals rfl

theorem fwSlot_setSlot_ne {i j : Nat} (hi : i < 2) (hj : j < 2) (ne : j ≠ i) (x : Slot) (s : State) :
    fwSlot (setSlot i x s) j = fwSlot s j := by
  obtain ⟨rfl, rfl⟩ | ⟨rfl, rfl⟩ : (i = 0 ∧ j = 1) ∨ (i = 1 ∧ j = 0) := by omega
  all_goals rfl

theorem eraseSlot_spec {i : Nat} (hi : i < 2) (s : State) : fwSlotSt (eraseSlot i s) i = fsEmpty ∧
    fwSlot (eraseSlot i s) i = { shipped := false, cells := [] } ∧
    (∀ j, j < 2 → j ≠ i → fwSlot (eraseSlot i s) j = fwSlot s j) ∧
    (∀ f, get (eraseSlot i s) nvmUpdCmd f = get s nvmUpdCmd f) ∧ WorkSame s (eraseSlot i s) := by
  have cleared : WorkSame s (setSlot i { shipped := false, cells := [] } s) := nv_workSame _ s
  have cell := fwSlot_setSlot_same hi { shipped := false, cells := [] } s
  have others := fun j hj ne => fwSlot_setSlot_ne (j := j) hi hj ne { shipped := false, cells := [] } s
  have regs0 : RegsBut (fun _ => False) s (setSlot i { shipped := false, cells := [] } s) := fun _ _ => rfl
  unfold eraseSlot
  generalize setSlot i { shipped := false, cells := [] } s = v at cleared cell others regs0 ⊢
  obtain ⟨regs, a, b, work⟩ := slotErased_frame i slotSectors v
  generalize slotErased i slotSectors v = w at regs a b work ⊢
  have kept : ∀ j, fwSlot (setRelease i false (setFwSlot i fsEmpty 0 w)) j = fwSlot v j := fun j => by
    unfold fwSlot
    rw [← a, ← b]
    rfl
  refine ⟨?_, (kept i).trans cell, fun j hj ne => (kept j).trans (others j hj ne), fun f => ?_,
    (cleared.trans work).trans ⟨rfl, rfl, rfl, rfl, rfl, rfl, rfl⟩⟩
  · rw [fwSlotSt, setRelease, get_upd_other _ _ _ _ _ (by decide) (by decide)]
    exact fwSlotSt_setFwSlot (by decide) i 0 w
  · rw [setRelease, get_upd_ne (nvmSlotStat_ne_updCmd i).symm, (setFwSlot_regs i fsEmpty 0 w).get_eq (nvmSlotStat_ne_updCmd i).symm,
      regs.get_eq not_false, regs0.get_eq not_false]

/-! ### The end of an upload (R481) -/

theorem endUpload_spec (result : Nat) (s : State) : (endUpload result s).nvm.upload = none ∧ WorkSame s (endUpload result s) := by
  unfold endUpload
  split
  · next none => exact ⟨none, rfl, rfl, rfl, rfl, rfl, rfl, rfl⟩
  · have logged := logCoded_reports sevNotice kConfig bNvm 481 result result
    rw [(logged _ _).nvm]
    exact ⟨rfl, WorkSame.trans ⟨rfl, rfl, rfl, rfl, rfl, rfl, rfl⟩ (logged _ _).workSame⟩

theorem endUpload_updCtrl (result : Nat) (s : State) (f : Fld) :
    get (endUpload result s) nvmUpdCtrl f = get s nvmUpdCtrl f := by
  unfold endUpload
  split
  · rfl
  · rw [(logCoded_reports _ _ _ _ _ _ _ _).1.get_eq (not_reportReg_of_low (by decide) (by decide)),
      get_upd_ne (by decide), (setFwSlot_regs _ _ _ _).get_eq (nvmSlotStat_ne_updCtrl _).symm]
    rfl

/-- An upload that ends leaves its slot INVALID with the result. -/
theorem endUpload_slot {s : State} {x : Upload} (runs : s.nvm.upload = some x) (low : x.slot < 2) {result : Nat}
    (small : result < 256) : fwSlotSt (endUpload result s) x.slot = fsInvalid ∧
      get (endUpload result s) (nvmSlotStat x.slot) NvmSlotStat.result = result ∧
      get (endUpload result s) nvmUpdStat NvmUpdStat.uploading = 0 := by
  have slot : ∀ f, get (endUpload result s) (nvmSlotStat x.slot) f =
      get (setFwSlot x.slot fsInvalid result { s with nvm := { s.nvm with upload := none } }) (nvmSlotStat x.slot) f :=
    fun f => by
      unfold endUpload
      rw [runs]
      exact ((logCoded_reports _ _ _ _ _ _ _ _).1.get_eq (not_reportReg_slotStat low) f).trans
        (get_upd_ne (nvmSlotStat_ne_updStat _) _ _ _ _)
  refine ⟨?_, ?_, ?_⟩
  · rw [fwSlotSt, slot]
    exact fwSlotSt_setFwSlot (by decide) _ _ _
  · rw [slot, setFwSlot, get_upd_other _ _ _ _ _ (by decide) (by decide), get_upd_same _ _ _ _ (by decide)]
    exact Nat.mod_eq_of_lt small
  · unfold endUpload
    rw [runs]
    exact ((logCoded_reports _ _ _ _ _ _ _ _).1.get_eq (not_reportReg_of_low (by decide) (by decide)) _).trans
      (get_upd_same _ _ _ _ (by decide))

/-! ### NVM_UPD_CTRL (R480, R492) -/

/-- The state with TRIAL_MIN within 1 to 120. -/
def trialMinSet (v : Nat) (s : State) : State := upd nvmUpdCtrl NvmUpdCtrl.trialMin (max 1 (min 120 (bits v 1 7))) s

theorem get_trialMinSet (v x : Nat) (s : State) :
    get (upd nvmUpdCtrl NvmUpdCtrl.permit x (trialMinSet v s)) nvmUpdCtrl NvmUpdCtrl.trialMin =
      max 1 (min 120 (v / 2 % 128)) := by
  have field : bits v 1 7 = v / 2 % 128 := by simp only [bits, Nat.shiftRight_eq_div_pow]; omega
  rw [get_upd_other _ _ _ _ _ (by decide) (by decide), trialMinSet, get_upd_same _ _ _ _ (by decide), field]
  exact Nat.mod_eq_of_lt (by simp only [NvmUpdCtrl.trialMin]; omega)

theorem updCtrlWrite_set {v : Nat} (h : v % 2 = 1) (s : State) :
    updCtrlWrite v s = upd nvmUpdCtrl NvmUpdCtrl.permit 1 (trialMinSet v s) :=
  if_pos (by simp [bit1, h])

theorem updCtrlWrite_clear {v : Nat} (h : v % 2 = 0) (s : State) :
    updCtrlWrite v s = endUpload 0x20 (upd nvmUpdCtrl NvmUpdCtrl.permit 0 (trialMinSet v s)) :=
  if_neg (by simp [bit1, h])

theorem updCtrlWrite_spec (v : Nat) (s : State) : get (updCtrlWrite v s) nvmUpdCtrl NvmUpdCtrl.permit = v % 2 ∧
    get (updCtrlWrite v s) nvmUpdCtrl NvmUpdCtrl.trialMin = max 1 (min 120 (v / 2 % 128)) ∧
    (v % 2 = 0 → (updCtrlWrite v s).nvm.upload = none) ∧
    (v % 2 = 1 → RegsBut (· = nvmUpdCtrl) s (updCtrlWrite v s) ∧
      updCtrlWrite v s = { s with regs := (updCtrlWrite v s).regs }) ∧ WorkSame s (updCtrlWrite v s) := by
  obtain set | clear : v % 2 = 1 ∨ v % 2 = 0 := by omega
  · rw [updCtrlWrite_set set, set]
    refine ⟨get_upd_same _ _ _ _ (by decide), get_trialMinSet v 1 s, by simp, fun _ => ⟨?_, rfl⟩,
      rfl, rfl, rfl, rfl, rfl, rfl, rfl⟩
    exact (regsBut_upd (p := (· = nvmUpdCtrl)) rfl _ _ s).trans (regsBut_upd (p := (· = nvmUpdCtrl)) rfl _ _ _)
  · rw [updCtrlWrite_clear clear, clear, endUpload_updCtrl, endUpload_updCtrl]
    obtain ⟨upload, work⟩ := endUpload_spec 0x20 (upd nvmUpdCtrl NvmUpdCtrl.permit 0 (trialMinSet v s))
    exact ⟨get_upd_same _ _ _ _ (by decide), get_trialMinSet v 0 s, fun _ => upload, by simp,
      WorkSame.trans ⟨rfl, rfl, rfl, rfl, rfl, rfl, rfl⟩ work⟩

/-! ### The owner's commands -/

section
variable {m : Master} {s : State} (on : On s) (own : owner (settle s) = some m)
include on own

/-- An act that the slots allow is done on the settled state, with OP and RESULT shown. -/
theorem next_updCmdWrite {op : Nat} (some : 1 ≤ op) (least : op ≤ 6) (admits : updAdmits (settle s) op = true) :
    (Host.Outcome.next (powered (asOwner m nvmUpdCmd 32 (updCmdWrite m op)) s) : Host.Outcome State Fault Refusal) =
      .next (updAct op (updShown op urOk (settle s))) :=
  congrArg Host.Outcome.next ((powered_asOwner on own _ _ _).trans (updCmdWrite_admitted some least admits))

omit on in
theorem updShown_settle_slotsSame (op result : Nat) : SlotsSame s (updShown op result (settle s)) :=
  (settle_slotsSame own).trans (updShown_slotsSame _ _ _)

omit on in
/-- An ARM on the settled state, with OP and RESULT shown. -/
theorem armed_act (op : Nat) (ok : nvmOk s = true) : BootAct (fwInactive s) fsArmed
    (armRecord (updShown op urOk (settle s))) (updShown op urOk (settle s)) (arm (updShown op urOk (settle s))) := by
  have same := updShown_settle_slotsSame own op urOk
  have act := arm_act (same.nvmOk.trans ok)
  rwa [same.inactive] at act

omit on in
theorem armRecord_shown (op : Nat) :
    (armRecord (updShown op urOk (settle s))).kind = 1 ∧ (armRecord (updShown op urOk (settle s))).target = fwInactive s ∧
      (armRecord (updShown op urOk (settle s))).active = fwActive s ∧
      (armRecord (updShown op urOk (settle s))).trialMin = trialMin s ∧
      (armRecord (updShown op urOk (settle s))).mdigest = mdigest s (fwInactive s) := by
  have same := updShown_settle_slotsSame own op urOk
  refine ⟨rfl, same.inactive, same.active, same.trialMin, (same.mdigest _).trans ?_⟩
  rw [same.inactive]

omit on in
theorem updAdmits_staged (state : fwSlotSt (settle s) (fwInactive s) = fsStaged) (ok : nvmOk s = true) :
    updAdmits (settle s) 1 = true ∧ updAdmits (settle s) 2 = true := by
  have same := settle_slotsSame own
  unfold updAdmits
  rw [same.inactive, state, same.nvmOk, ok]
  exact ⟨rfl, rfl⟩

theorem completes_updActivate (state : fwSlotSt (settle s) (fwInactive s) = fsStaged) (ok : nvmOk s = true) :
    Completes (.updActivate m) s fun u => get u supResetStat SupResetStat.lastKind = 3 ∧
      get u supResetStat SupResetStat.lastCause = 11 ∧ (∃ r, u.nvm.bootRec = some r ∧ r.kind = 1 ∧
      r.target = fwInactive s ∧ r.trialMin = trialMin s ∧ r.mdigest = mdigest s (fwInactive s)) ∧ devState u = .spring := by
  obtain ⟨kind, target, -, span, digest⟩ := armRecord_shown own 1
  exact ⟨_, next_updCmdWrite on own (by decide) (by decide) (updAdmits_staged own state ok).1, get_deviceResetBy_kind _ _ _,
    get_deviceResetBy_cause _ _ _, ⟨_, (deviceResetBy_bootRec _ _ _).trans (armed_act own 1 ok).record, kind, target, span,
    digest⟩, deviceResetBy_devState _ _ _⟩

theorem completes_arm (state : fwSlotSt (settle s) (fwInactive s) = fsStaged) (ok : nvmOk s = true) :
    Completes (.arm m) s fun u => fwSlotSt u (fwInactive s) = fsArmed ∧ (∃ r, u.nvm.bootRec = some r ∧ r.kind = 1 ∧
      r.target = fwInactive s ∧ r.active = fwActive s ∧ r.mdigest = mdigest s (fwInactive s)) ∧
      get u nvmUpdCmd NvmUpdCmd.result = 1 ∧ WorkSame (settle s) u := by
  obtain ⟨kind, target, active, -, digest⟩ := armRecord_shown own 2
  have act := armed_act own 2 ok
  exact ⟨_, next_updCmdWrite on own (by decide) (by decide) (updAdmits_staged own state ok).2, act.state,
    ⟨_, act.record, kind, target, active, digest⟩, (act.command _).trans (get_updShown_result (by decide) _ _),
    (updShown_workSame _ _ _).trans act.work⟩

theorem completes_disarm (state : fwSlotSt (settle s) (fwInactive s) = fsArmed) (ok : nvmOk s = true) :
    Completes (.disarm m) s fun u => fwSlotSt u (fwInactive s) = fsStaged ∧
      (∃ r, u.nvm.bootRec = some r ∧ r.kind = 2 ∧ r.target = fwInactive s) ∧
      get u nvmUpdCmd NvmUpdCmd.result = 1 ∧ WorkSame (settle s) u := by
  have admits : updAdmits (settle s) 3 = true := by
    have same := settle_slotsSame own
    unfold updAdmits
    rw [same.inactive, state, same.nvmOk, ok]
    rfl
  have same := updShown_settle_slotsSame own 3 urOk
  have act := disarm_act (same.nvmOk.trans ok)
  have slot := act.state
  rw [same.inactive] at slot
  exact ⟨_, next_updCmdWrite on own (by decide) (by decide) admits, slot, ⟨_, act.record, rfl, same.inactive⟩,
    (act.command _).trans (get_updShown_result (by decide) _ _), (updShown_workSame _ _ _).trans act.work⟩

theorem completes_reject (trial : onTrial s = true) : Completes (.reject m) s fun u =>
    get u supResetStat SupResetStat.lastKind = 3 ∧ get u supResetStat SupResetStat.lastCause = 11 ∧
      (nvmOk s = true → ∃ r, u.nvm.bootRec = some r ∧ r.kind = 5 ∧ r.active = fwActive s ∧ r.reason = 0x4A) := by
  have same := updShown_settle_slotsSame own 4 urOk
  obtain ⟨kind, cause, record⟩ := fallback_spec brOwnerReject (updShown 4 urOk (settle s))
  rw [same.nvmOk, same.active] at record
  exact ⟨_, next_updCmdWrite on own (by decide) (by decide) ((settle_slotsSame own).onTrial.trans trial), kind, cause, record⟩

theorem completes_erase (state : fwSlotSt (settle s) (fwInactive s) = fsEmpty ∨
      fwSlotSt (settle s) (fwInactive s) = fsStaged ∨ fwSlotSt (settle s) (fwInactive s) = fsInvalid) :
    Completes (.erase m) s fun u => fwSlotSt u (fwInactive s) = fsEmpty ∧
      fwSlot u (fwInactive s) = { shipped := false, cells := [] } ∧ fwSlot u (fwActive s) = fwSlot s (fwActive s) ∧
      get u nvmUpdCmd NvmUpdCmd.result = 1 ∧ WorkSame (settle s) u := by
  have admits : updAdmits (settle s) 5 = true := by
    unfold updAdmits
    rw [(settle_slotsSame own).inactive]
    simpa using state
  have same := updShown_settle_slotsSame own 5 urOk
  obtain ⟨empty, cells, others, command, work⟩ := eraseSlot_spec (fwInactive_lt s) (updShown 5 urOk (settle s))
  have act : updAct 5 (updShown 5 urOk (settle s)) = eraseSlot (fwInactive s) (updShown 5 urOk (settle s)) :=
    congrArg (fun i => eraseSlot i (updShown 5 urOk (settle s))) same.inactive
  refine ⟨_, (next_updCmdWrite on own (by decide) (by decide) admits).trans (congrArg _ act), empty, cells, ?_,
    (command _).trans (get_updShown_result (by decide) _ _), (updShown_workSame _ _ _).trans work⟩
  exact (others _ (fwActive_lt s) (otherSlot_ne _).symm).trans (same.fwSlot _)

theorem completes_abort {x : Upload} (runs : (settle s).nvm.upload = some x) (low : x.slot < 2) :
    Completes (.abort m) s fun u => u.nvm.upload = none ∧ fwSlotSt u x.slot = fsInvalid ∧
      get u (nvmSlotStat x.slot) NvmSlotStat.result = 0x24 ∧ get u nvmUpdStat NvmUpdStat.uploading = 0 ∧
      WorkSame (settle s) u := by
  have admits : updAdmits (settle s) 6 = true := by
    unfold updAdmits
    rw [runs]
    rfl
  obtain ⟨ended, work⟩ := endUpload_spec 0x24 (updShown 6 urOk (settle s))
  obtain ⟨invalid, result, uploading⟩ := endUpload_slot (s := updShown 6 urOk (settle s)) runs low (result := 0x24) (by decide)
  exact ⟨_, next_updCmdWrite on own (by decide) (by decide) admits, ended, invalid, result, uploading,
    (updShown_workSame _ _ _).trans work⟩

/-- An ARM that the slots do not allow is refused with STATE. -/
theorem completes_arm_state (state : fwSlotSt (settle s) (fwInactive s) ≠ fsStaged) :
    Completes (.arm m) s fun u => RegsBut (· = nvmUpdCmd) (settle s) u ∧ get u nvmUpdCmd NvmUpdCmd.op = 2 ∧
      get u nvmUpdCmd NvmUpdCmd.result = 2 ∧ u = { settle s with regs := u.regs } := by
  have admits : updAdmits (settle s) 2 = false := by
    unfold updAdmits
    rw [(settle_slotsSame own).inactive]
    simp [state]
  refine ⟨_, congrArg Host.Outcome.next ((powered_asOwner on own _ _ _).trans
    (updCmdWrite_state (by decide) (by decide) admits)), ?_, get_updShown_op (by decide) _ _,
    get_updShown_result (by decide) _ _, rfl⟩
  exact (regsBut_upd (p := (· = nvmUpdCmd)) rfl _ _ _).trans (regsBut_upd (p := (· = nvmUpdCmd)) rfl _ _ _)

end

/-! ### Trials (R485–R487) -/

section
variable {s : State} (on : On s)
include on

/-- The hardware timer's reset is not the supervisor's own: the next SPRING makes its entry. -/
theorem completes_trialTimerExpire {t : Nat} (set : s.nvm.timer = some t) (due : t ≤ s.devtime) :
    Completes .trialTimerExpire s fun u => get u supResetStat SupResetStat.lastKind = 3 ∧
      get u supResetStat SupResetStat.lastCause = 11 ∧ u.nvm.timerLatch = true ∧ u.boot.unlogged = some (3, 11) := by
  have eq : exec .trialTimerExpire s = .next (deviceResetBy false .firmware (nv (fun n => { n with timerLatch := true }) s)) := by
    refine congrArg Host.Outcome.next ((powered_on on _).trans ?_)
    rw [set]
    exact if_pos due
  exact ⟨_, eq, get_deviceResetBy_kind _ _ _, get_deviceResetBy_cause _ _ _, deviceResetBy_timerLatch _ _ _,
    deviceResetBy_unlogged _ _ _⟩

variable (trial : onTrial s = true)
include trial

theorem exec_trialSpringLimit (never : s.nvm.firstRun = none) (late : s.boot.released + 20 * 60 * secTicks ≤ s.devtime) :
    exec .trialSpringLimit s = .next (fallback brSpringLimit s) :=
  congrArg Host.Outcome.next ((powered_on on _).trans (if_pos (by simp [trial, never, late])))

theorem exec_trialDeadline {t : Nat} (first : s.nvm.firstRun = some t)
    (late : t + trialSpan s * 60 * secTicks ≤ s.devtime) : exec .trialDeadline s = .next (fallback brDeadline s) := by
  refine congrArg Host.Outcome.next ((powered_on on _).trans ?_)
  rw [first]
  exact if_pos (by simp [trial, late])

theorem exec_trialHealthBroken : exec .trialHealthBroken s = .next (fallback brHealth s) :=
  congrArg Host.Outcome.next ((powered_on on _).trans (if_pos trial))

/-- The old slot becomes STAGED on confirmation, unless its device is out of service. -/
def oldStaged (s : State) : State := if fwSlotSt s (fwActive s) = fsUnavailable then s else setFwSlot (fwActive s) fsStaged 0 s

omit on trial in
theorem oldStaged_spec (s : State) : nvmOk (oldStaged s) = nvmOk s ∧ WorkSame s (oldStaged s) := by
  unfold oldStaged
  split
  · exact ⟨rfl, rfl, rfl, rfl, rfl, rfl, rfl, rfl⟩
  · exact ⟨nvmOk_setFwSlot _ _ _ _, rfl, rfl, rfl, rfl, rfl, rfl, rfl⟩

/-- The trial has ended, and its timer is stopped. -/
def trialEnded (s : State) : State :=
  nv (fun n => { n with timer := none }) (upd nvmUpdStat NvmUpdStat.trial 0 (upd nvmUpdStat NvmUpdStat.tboots 0 s))

omit on trial in
theorem trialEnded_spec (s : State) : onTrial (trialEnded s) = false ∧ fwActive (trialEnded s) = fwActive s ∧
    (∀ i, fwSlotSt (trialEnded s) i = fwSlotSt s i) ∧ (trialEnded s).nvm.bootRec = s.nvm.bootRec ∧
    WorkSame s (trialEnded s) := by
  refine ⟨?_, ?_, fun i => ?_, rfl, rfl, rfl, rfl, rfl, rfl, rfl, rfl⟩
  · have cleared : get (trialEnded s) nvmUpdStat NvmUpdStat.trial = 0 := get_upd_same _ _ _ _ (by decide)
    rw [onTrial, cleared]
    rfl
  · exact (get_upd_other _ _ _ _ _ (by decide) (by decide)).trans (get_upd_other _ _ _ _ _ (by decide) (by decide))
  · exact (get_upd_ne (nvmSlotStat_ne_updStat i) _ _ _ _).trans (get_upd_ne (nvmSlotStat_ne_updStat i) _ _ _ _)

theorem completes_trialConfirm (ok : nvmOk s = true) (well : healthy s = true) (long : heldLong s = true) :
    Completes .trialConfirm s fun u => onTrial u = false ∧ fwActive u = otherSlot (fwActive s) ∧
      fwSlotSt u (otherSlot (fwActive s)) = fsActive ∧ u.nvm.timer = none ∧
      (∃ r, u.nvm.bootRec = some r ∧ r.kind = 4 ∧ r.active = otherSlot (fwActive s)) ∧ WorkSame s u := by
  have holds : (onTrial s && (healthy s && (heldLong s && nvmOk s))) = true := by rw [trial, well, long, ok]; rfl
  obtain ⟨kept, staged⟩ := oldStaged_spec s
  have act := writeBoot_setFwSlot (kept.trans ok) (otherSlot_lt (fwActive s)) (st := fsActive) (by decide) 0 4
    (otherSlot (fwActive s)) (otherSlot (fwActive s)) 0 0 0 []
  obtain ⟨ended, active, slots, record, work⟩ := trialEnded_spec (writeBoot 4 (otherSlot (fwActive s))
    (otherSlot (fwActive s)) 0 0 0 [] false (setFwSlot (otherSlot (fwActive s)) fsActive 0 (oldStaged s)))
  refine ⟨_, congrArg Host.Outcome.next ((powered_on on _).trans (if_pos holds)), ended, ?_, (slots _).trans act.state, rfl,
    ⟨_, record.trans act.record, rfl, rfl⟩, (staged.trans act.work).trans work⟩
  exact (active.trans act.active).trans (Nat.mod_eq_of_lt (otherSlot_lt _))

end

/-- Settles O57, act by act; the resets keep the boot record that NVM holds. -/
theorem firmwareSlotsAndTrials : Obligations.FirmwareSlotsAndTrials := by
  refine ⟨fun m s on own => ⟨fun state ok => ⟨?_, ?_⟩, ?_, ?_, ?_, ?_, ?_, ?_, fun v => ?_⟩, fun s on => ⟨?_, fun trial ok =>
    ⟨fun never late => ?_, fun t first late => ?_, ?_, ?_⟩⟩⟩
  · exact completes_updActivate on own state ok
  · exact completes_arm on own state ok
  · exact completes_disarm on own
  · exact completes_reject on own
  · exact completes_erase on own
  · exact fun x runs low => completes_abort on own runs low
  · exact completes_arm_state on own
  · exact ⟨_, congrArg Host.Outcome.next (powered_asOwner on own _ _ _), refusedWrite_reports _ _ _ _⟩
  · exact ⟨_, congrArg Host.Outcome.next (powered_asOwner on own _ _ _), updCtrlWrite_spec v (settle s)⟩
  · exact fun t set due => completes_trialTimerExpire on set due
  · obtain ⟨kind, -, record⟩ := fallback_spec brSpringLimit s
    obtain ⟨r, held, five, -, reason⟩ := record ok
    exact ⟨_, exec_trialSpringLimit on trial never late, kind, r, held, five, reason⟩
  · obtain ⟨kind, -, record⟩ := fallback_spec brDeadline s
    obtain ⟨r, held, five, -, reason⟩ := record ok
    exact ⟨_, exec_trialDeadline on trial first late, kind, r, held, five, reason⟩
  · obtain ⟨kind, cause, record⟩ := fallback_spec brHealth s
    obtain ⟨r, held, five, -, reason⟩ := record ok
    exact ⟨_, exec_trialHealthBroken on trial, kind, cause, r, held, five, reason⟩
  · exact completes_trialConfirm on trial ok

end Sys2Proof.Machine
end

section
/-! Crossings, margins and the TCLK divider (R410–R420). -/

namespace Sys2Proof.Machine

open Sys2Proof

/-! ### What the clock block changes -/

/-- The second state differs from the first at most in the clock block's own state and in registers of which `p` holds. -/
def Clocked (p : Nat → Prop) (s u : State) : Prop := RegsBut p s u ∧ u = { s with regs := u.regs, clock := u.clock }

/-- As `Clocked`, with log entries and reports. -/
def ClockReports (p : Nat → Prop) (s u : State) : Prop := ReportsAnd p { s with clock := u.clock } u

namespace Clocked

variable {p : Nat → Prop} {s v u : State}

theorem refl (p : Nat → Prop) (s : State) : Clocked p s s := ⟨.refl p s, rfl⟩

theorem trans (h : Clocked p s v) (k : Clocked p v u) : Clocked p s u := by
  obtain ⟨hr, he⟩ := h
  obtain ⟨kr, ke⟩ := k
  exact ⟨hr.trans kr, by rw [ke, he]⟩

theorem mono {r : Nat → Prop} (h : Clocked p s u) (hp : ∀ o, p o → r o) : Clocked r s u := ⟨h.1.mono hp, h.2⟩

theorem get_eq (h : Clocked p s u) {off : Nat} (ho : ¬ p off) (f : Fld) : get u off f = get s off f := h.1.get_eq ho f

theorem upd_self (off : Nat) (f : Fld) (x : Nat) (s : State) : Clocked (· = off) s (upd off f x s) :=
  ⟨regsBut_upd (p := (· = off)) rfl f x s, rfl⟩

theorem satAdd_self (off : Nat) (f : Fld) (x : Nat) (s : State) : Clocked (· = off) s (satAdd off f x s) :=
  upd_self off f _ s

theorem clk (p : Nat → Prop) (f : ClockState → ClockState) (s : State) : Clocked p s (clk f s) := ⟨fun _ _ => rfl, rfl⟩

theorem ite {c : Prop} [Decidable c] (h : Clocked p s v) (k : Clocked p s u) : Clocked p s (if c then v else u) := by
  split
  · exact h
  · exact k

end Clocked

namespace ClockReports

variable {p : Nat → Prop} {s v u : State}

theorem trans (h : ClockReports p s v) (k : ClockReports p v u) : ClockReports p s u := by
  obtain ⟨hr, he⟩ := h
  obtain ⟨kr, ke⟩ := k
  refine ⟨fun off ho => (kr off ho).trans (hr off ho), ?_⟩
  rw [ke, he]

theorem mono {r : Nat → Prop} (h : ClockReports p s u) (hp : ∀ o, p o → r o) : ClockReports r s u :=
  ⟨h.1.mono fun o => Or.imp_left (hp o), h.2⟩

theorem get_eq (h : ClockReports p s u) {off : Nat} (ho : ¬ p off) (hr : ¬ ReportReg off) (f : Fld) :
    get u off f = get s off f := h.1.get_eq (not_or.mpr ⟨ho, hr⟩) f

end ClockReports

theorem Clocked.clockReports {p : Nat → Prop} {s u : State} (h : Clocked p s u) : ClockReports p s u := by
  obtain ⟨regs, same⟩ := h
  refine ⟨fun off ho => regs off fun hp => ho (.inl hp), ?_⟩
  rw [same]

theorem Reports.clockReports {s u : State} (h : Reports s u) (p : Nat → Prop) : ClockReports p s u := by
  obtain ⟨regs, same⟩ := h
  refine ⟨fun off ho => regs off fun hp => ho (.inr hp), ?_⟩
  rw [same]

theorem not_reportReg_clkStat : ¬ ReportReg clkStat := not_reportReg_of_low (by decide) (by decide)

/-! ### Choosing T_s, and beginning a change (R417–R420) -/

theorem chooseTs_clocked (s : State) : Clocked (· = clkStat) s (chooseTs s) := by
  unfold chooseTs
  split
  · exact .refl _ s
  · dsimp only
    exact .ite ((Clocked.clk _ _ s).trans (.upd_self _ _ _ _)) (.refl _ s)

/-- Choosing T_s shows it, and leaves the other fields of CLK_STAT. -/
theorem get_chooseTs {f : Fld} (low : f.lo + f.w ≤ 32) (s : State) : get (chooseTs s) clkStat f = get s clkStat f := by
  unfold chooseTs
  split
  · rfl
  · dsimp only
    split
    · exact get_upd_other _ _ _ _ _ (by omega) (.inr low)
    · rfl

/-- Choosing T_s leaves where a pending change goes. -/
theorem step_chooseTs {s : State} {st : ClockStep} (pends : s.clock.step = some st) :
    ∃ st', (chooseTs s).clock.step = some st' ∧ st'.toDiv = st.toDiv ∧ st'.down = st.down := by
  unfold chooseTs
  rw [pends]
  dsimp only
  split
  · exact ⟨_, rfl, rfl, rfl⟩
  · exact ⟨_, pends, rfl, rfl⟩

theorem beginDividerStep_clocked (target : Nat) (s : State) : Clocked (· = clkStat) s (beginDividerStep target s) := by
  unfold beginDividerStep
  dsimp only
  exact (((Clocked.upd_self _ _ _ s).trans (.upd_self _ _ _ _)).trans (.clk _ _ _)).trans (chooseTs_clocked _)

theorem get_beginDividerStep {f : Fld} (low : f.lo + f.w ≤ 32) (target : Nat) (s : State) :
    get (beginDividerStep target s) clkStat f =
      get (upd clkStat ClkStat.nextDiv target (upd clkStat ClkStat.pending 1 s)) clkStat f := get_chooseTs low _

/-- A change that begins does not change the divider in force. -/
theorem curDiv_beginDividerStep (target : Nat) (s : State) : curDiv (beginDividerStep target s) = curDiv s := by
  rw [curDiv, get_beginDividerStep (by decide), get_upd_other _ _ _ _ _ (by decide) (by decide),
    get_upd_other _ _ _ _ _ (by decide) (by decide), curDiv]

theorem pending_beginDividerStep (target : Nat) (s : State) :
    get (beginDividerStep target s) clkStat ClkStat.pending = 1 := by
  rw [get_beginDividerStep (by decide), get_upd_other _ _ _ _ _ (by decide) (by decide), get_upd_same _ _ _ _ (by decide)]
  rfl

theorem stepdowns_beginDividerStep (target : Nat) (s : State) :
    get (beginDividerStep target s) clkStat ClkStat.stepdowns = get s clkStat ClkStat.stepdowns := by
  rw [get_beginDividerStep (by decide), get_upd_other _ _ _ _ _ (by decide) (by decide),
    get_upd_other _ _ _ _ _ (by decide) (by decide)]

theorem step_beginDividerStep (target : Nat) (s : State) :
    ∃ st, (beginDividerStep target s).clock.step = some st ∧ st.toDiv = target ∧ st.down = decide (curDiv s < target) := by
  unfold beginDividerStep
  dsimp only
  refine step_chooseTs (st := ⟨target, decide (curDiv s < target), none, ?cap, ?held⟩) ?pends
  case pends => rfl

/-! ### A step down (R415) -/

/-- The state that a step down starts from. -/
def stepDownNoted (s : State) : State :=
  satAdd clkStat ClkStat.stepdowns 1 (clk (fun c => { c with floorDiv := nextLarger (curDiv s), lastDown := s.devtime }) s)

theorem stepDownRequest_begins {s : State} (idle : s.clock.step = none) (room : curDiv s < 16) :
    stepDownRequest s = beginDividerStep (nextLarger (curDiv s)) (stepDownNoted s) := by
  unfold stepDownRequest
  dsimp only
  rw [if_neg (Nat.ne_of_lt room), idle]
  exact if_neg Bool.false_ne_true

theorem curDiv_lt_nextLarger {d : Nat} (room : d < 16) : d < nextLarger d := by
  unfold nextLarger
  split_ifs
  all_goals omega

/-- A step down that begins: where it goes, and what it counts. -/
structure StepsDown (s u : State) : Prop where
  step : ∃ st, u.clock.step = some st ∧ st.toDiv = nextLarger (curDiv s) ∧ st.down = true
  counted : get u clkStat ClkStat.stepdowns = min 65535 (get s clkStat ClkStat.stepdowns + 1)
  div : curDiv u = curDiv s
  clocked : Clocked (· = clkStat) s u

theorem stepDownRequest_stepsDown {s : State} (idle : s.clock.step = none) (room : curDiv s < 16) :
    StepsDown s (stepDownRequest s) := by
  have div : curDiv (stepDownNoted s) = curDiv s := get_upd_other _ _ _ _ _ (by decide) (by decide)
  have counted : get (stepDownNoted s) clkStat ClkStat.stepdowns = min 65535 (get s clkStat ClkStat.stepdowns + 1) :=
    get_satAdd_same (by decide) 1 (clk (fun c => { c with floorDiv := nextLarger (curDiv s), lastDown := s.devtime }) s)
  rw [stepDownRequest_begins idle room]
  refine ⟨?_, (stepdowns_beginDividerStep _ _).trans counted, (curDiv_beginDividerStep _ _).trans div,
    ((Clocked.clk _ _ s).trans (.satAdd_self _ _ _ _)).trans (beginDividerStep_clocked _ _)⟩
  obtain ⟨st, pends, toDiv, down⟩ := step_beginDividerStep (nextLarger (curDiv s)) (stepDownNoted s)
  refine ⟨st, pends, toDiv, down.trans ?_⟩
  rw [div]
  exact decide_eq_true (curDiv_lt_nextLarger room)

/-! ### Readings of a crossing (R410–R412) -/

theorem clkSkewStat_ne_clkStat (i : Nat) : clkSkewStat i ≠ clkStat := by
  simp only [clkSkewStat, clkStat]
  omega

theorem not_reportReg_skew (i : Fin 17) : ¬ ReportReg (clkSkewStat i) :=
  not_reportReg_of_low (by simp only [clkSkewStat]; omega) (by simp only [clkSkewStat, ledLogStat]; omega)

/-- What CLK_SKEW_STAT shows of a reading. -/
def skewShown (i : Nat) (ps : Int) (s : State) : State :=
  let s := upd (clkSkewStat i) ClkSkewStat.skew (unsigned 8 (max (-128) (min 127 ps))) s
  let s := upd (clkSkewStat i) ClkSkewStat.worst (max (get s (clkSkewStat i) ClkSkewStat.worst) (min 255 ps.natAbs)) s
  upd (clkSkewStat i) ClkSkewStat.above (b2n (decide (crossingBudget i < ps.natAbs))) s

theorem skewShown_clocked (i : Nat) (ps : Int) (s : State) : Clocked (· = clkSkewStat i) s (skewShown i ps s) :=
  ((Clocked.upd_self _ _ _ s).trans (.upd_self _ _ _ _)).trans (.upd_self _ _ _ _)

theorem skewShown_above (i : Nat) (ps : Int) (s : State) :
    get (skewShown i ps s) (clkSkewStat i) ClkSkewStat.above = b2n (decide (crossingBudget i < ps.natAbs)) := by
  rw [skewShown, get_upd_same _ _ _ _ (by decide)]
  cases decide (crossingBudget i < ps.natAbs) <;> rfl

theorem skewShown_skew {i : Nat} {ps : Int} (small : ps.natAbs ≤ 127) (s : State) :
    get (skewShown i ps s) (clkSkewStat i) ClkSkewStat.skew = unsigned 8 ps := by
  have same : max (-128) (min 127 ps) = ps := by omega
  rw [skewShown, get_upd_other _ _ _ _ _ (by decide) (by decide), get_upd_other _ _ _ _ _ (by decide) (by decide),
    get_upd_same _ _ _ _ (by decide), same]
  exact Nat.mod_eq_of_lt (by simp only [unsigned, ClkSkewStat.skew]; omega)

theorem skewShown_worst {i : Nat} {ps : Int} (small : ps.natAbs ≤ 127) (s : State) :
    get (skewShown i ps s) (clkSkewStat i) ClkSkewStat.worst =
      max (get s (clkSkewStat i) ClkSkewStat.worst) ps.natAbs := by
  have low : get s (clkSkewStat i) ClkSkewStat.worst < 2 ^ 8 := Nat.mod_lt _ (by decide)
  rw [skewShown, get_upd_other _ _ _ _ _ (by decide) (by decide), get_upd_same _ _ _ _ (by decide),
    get_upd_other _ _ _ _ _ (by decide) (by decide), Nat.min_eq_right (by omega)]
  exact Nat.mod_eq_of_lt (Nat.max_lt.mpr ⟨low, by simp only [ClkSkewStat.worst]; omega⟩)

/-- The count of readings over budget of a crossing. -/
def overSet (i n : Nat) (s : State) : State := clk (fun c => { c with overFor := tset (fun _ => 0) i n c.overFor }) s

theorem noteSkew_within {i : Nat} {ps : Int} (within : ps.natAbs ≤ crossingBudget i) (s : State) :
    noteSkew s i ps = overSet i 0 (skewShown i ps s) := by
  have below : decide (crossingBudget i < ps.natAbs) = false := decide_eq_false (by omega)
  unfold noteSkew skewShown
  dsimp only
  rw [below]
  rfl

/-- The tenth reading over budget in a row asks for a step down. -/
theorem noteSkew_tenth {i : Nat} {ps : Int} {s : State} (high : crossingBudget i < ps.natAbs)
    (nine : tget (fun _ => 0) s.clock.overFor i = 9) : noteSkew s i ps =
      stepDownRequest (logOpen sevDegrade kFault bClk 412 0 i (overSet i 0 (skewShown i ps s))) := by
  have above : decide (crossingBudget i < ps.natAbs) = true := decide_eq_true high
  have nine' : tget (fun _ => 0) (skewShown i ps s).clock.overFor i = 9 := nine
  unfold skewShown at nine'
  unfold noteSkew skewShown
  dsimp only at nine' ⊢
  rw [above] at nine' ⊢
  rw [if_pos rfl, nine']
  rfl

/-- One step toward the side that leads. -/
def stepToward (lead : Int) : Int := if 0 < lead then 1 else if lead < 0 then -1 else 0

/-- A field's interpolator moves, by at most 64 positions around. -/
def interpMoved (f : Nat) (step : Int) (s : State) : State :=
  clk (fun c => { c with interp := tset (fun _ => 0) f ((tget (fun _ => 0) s.clock.interp f + step) % 64) c.interp }) s

/-- A field controller's reading of one live crossing of its own: it is noted, and the interpolator moves. -/
theorem exec_skewRead {s : State} (on : On s) {f : FieldId} {i : Fin 17} (live : crossingLive s i.val = true)
    (mine : (crossing i.val).1 = f.val ∨ (crossing i.val).2 = f.val) (ps : Int) :
    exec (.skewRead f [(i, ps)]) s =
      .next (interpMoved f.val (stepToward (leadOf f.val i.val ps)) (noteSkew s i.val ps)) := by
  have taken : ([(i, ps)].filter fun r : Fin 17 × Int =>
      crossingLive s r.1.val && ((crossing r.1.val).1 == f.val || (crossing r.1.val).2 == f.val)) = [(i, ps)] := by
    simpa [live] using mine
  have double : stepToward (leadOf f.val i.val ps + leadOf f.val i.val ps) = stepToward (leadOf f.val i.val ps) := by
    unfold stepToward
    split_ifs
    all_goals omega
  refine congrArg Host.Outcome.next ((powered_on on _).trans ?_)
  dsimp only
  rw [taken, ← double]
  rfl

theorem crossingBudget_le (i : Nat) : crossingBudget i ≤ 60 := by
  unfold crossingBudget
  split <;> decide

section
variable {s : State} (on : On s) {f : FieldId} {i : Fin 17} (live : crossingLive s i.val = true)
  (mine : (crossing i.val).1 = f.val ∨ (crossing i.val).2 = f.val) {ps : Int}
include on live mine

theorem completes_skewRead_within (within : ps.natAbs ≤ crossingBudget i.val) :
    Completes (.skewRead f [(i, ps)]) s fun u =>
      get u (clkSkewStat i) ClkSkewStat.skew = unsigned 8 ps ∧ get u (clkSkewStat i) ClkSkewStat.above = 0 ∧
      get u (clkSkewStat i) ClkSkewStat.worst = max (get s (clkSkewStat i) ClkSkewStat.worst) ps.natAbs ∧
      tget (fun _ => 0) u.clock.interp f.val = (tget (fun _ => 0) s.clock.interp f.val +
        (if 0 < leadOf f.val i.val ps then 1 else if leadOf f.val i.val ps < 0 then -1 else 0)) % 64 ∧
      RegsBut (· = clkSkewStat i) s u ∧ u = { s with regs := u.regs, clock := u.clock } := by
  have small : ps.natAbs ≤ 127 := within.trans ((crossingBudget_le _).trans (by decide))
  have above := skewShown_above i.val ps s
  rw [decide_eq_false (by omega : ¬ crossingBudget i.val < ps.natAbs)] at above
  have eq := exec_skewRead on live mine ps
  rw [noteSkew_within within] at eq
  have shown := skewShown_clocked i.val ps s
  have moved : ∀ x v, Clocked (· = clkSkewStat i.val) v (interpMoved f.val x (overSet i.val 0 v)) := fun x v =>
    (Clocked.clk _ _ v).trans (.clk _ _ _)
  obtain ⟨regs, same⟩ := shown.trans (moved _ _)
  exact ⟨_, eq, skewShown_skew small s, above, skewShown_worst small s, tget_tset_same _ _ _ _, regs, same⟩

theorem completes_skewRead_tenth (high : crossingBudget i.val < ps.natAbs)
    (nine : tget (fun _ => 0) s.clock.overFor i.val = 9) (idle : s.clock.step = none) (room : curDiv s < 16) :
    Completes (.skewRead f [(i, ps)]) s fun u => get u (clkSkewStat i) ClkSkewStat.above = 1 ∧
      (∃ st, u.clock.step = some st ∧ st.toDiv = nextLarger (curDiv s) ∧ st.down = true) ∧
      get u clkStat ClkStat.stepdowns = min 65535 (get s clkStat ClkStat.stepdowns + 1) ∧ curDiv u = curDiv s ∧
      ReportsAnd (fun o => o = clkSkewStat i ∨ o = clkStat) { s with clock := u.clock } u := by
  have shown : Clocked (· = clkSkewStat i) s (overSet i.val 0 (skewShown i.val ps s)) :=
    (skewShown_clocked i.val ps s).trans (.clk _ _ _)
  have above : get (overSet i.val 0 (skewShown i.val ps s)) (clkSkewStat i) ClkSkewStat.above = 1 := by
    have h := skewShown_above i.val ps s
    rw [decide_eq_true high] at h
    exact h
  have idle' : (overSet i.val 0 (skewShown i.val ps s)).clock.step = none := idle
  have eq := exec_skewRead on live mine ps
  rw [noteSkew_tenth high nine] at eq
  generalize overSet i.val 0 (skewShown i.val ps s) = v at shown above idle' eq
  have logged := logOpen_reports sevDegrade kFault bClk 412 0 i.val v
  generalize logOpen sevDegrade kFault bClk 412 0 i.val v = w at logged eq
  have same : ∀ g, get w clkStat g = get s clkStat g := fun g =>
    (logged.1.get_eq not_reportReg_clkStat g).trans (shown.get_eq (clkSkewStat_ne_clkStat _).symm g)
  have idle'' : w.clock.step = none := by
    rw [logged.2]
    exact idle'
  have sameDiv : curDiv w = curDiv s := same _
  have down := stepDownRequest_stepsDown idle'' (by rwa [sameDiv])
  generalize stepDownRequest w = x at down eq
  obtain ⟨step, counted, div, clocked⟩ := down
  rw [sameDiv] at step div
  rw [same] at counted
  refine ⟨_, eq, ?_, step, counted, div, ?_⟩
  · exact ((clocked.get_eq (clkSkewStat_ne_clkStat _) _).trans (logged.1.get_eq (not_reportReg_skew i) _)).trans above
  · exact ((((shown.mono fun _ => .inl).clockReports.trans (logged.clockReports _)).trans
      (clocked.mono fun _ => .inr).clockReports).trans (Clocked.clk _ _ x).clockReports)

end

/-! ### Margins (R413–R416) -/

theorem clkClMargin_ne_clkStat (g : Nat) : clkClMargin g ≠ clkStat := by
  simp only [clkClMargin, clkStat]
  omega

theorem not_reportReg_margin (g : ClusterId) : ¬ ReportReg (clkClMargin g) :=
  not_reportReg_of_low (by simp only [clkClMargin]; omega) (by simp only [clkClMargin, ledLogStat]; omega)

/-- The tick since which a margin has been relaxed, with a report in. -/
def marginSince (g ps : Nat) (s : State) : Option Nat :=
  if get s clkMarginCfg ClkMarginCfg.relaxPs ≤ ps then
    some ((tget (fun _ => none) s.clock.relaxSince g).getD s.devtime) else none

/-- A margin is noted with the class it meets and the tick since which it is relaxed. -/
def marginNoted (g cls : Nat) (since : Option Nat) (shown : Nat) (s : State) : State :=
  clk (fun c => { c with
    lastMet := tset (fun _ => 0) g cls c.lastMet, relaxSince := tset (fun _ => none) g since c.relaxSince })
    (upd (clkClMargin g) ClkClMargin.margin shown s)

theorem marginNoted_clocked (g cls : Nat) (since : Option Nat) (shown : Nat) (s : State) :
    Clocked (· = clkClMargin g) s (marginNoted g cls since shown s) := (Clocked.upd_self _ _ _ s).trans (.clk _ _ _)

theorem get_marginNoted_margin (g cls : Nat) (since : Option Nat) {shown : Nat} (small : shown < 256) (s : State) :
    get (marginNoted g cls since shown s) (clkClMargin g) ClkClMargin.margin = shown :=
  (get_upd_same _ _ _ _ (by decide)).trans (Nat.mod_eq_of_lt small)

theorem get_marginNoted_adj (g cls : Nat) (since : Option Nat) (shown : Nat) (s : State) :
    get (marginNoted g cls since shown s) (clkClMargin g) ClkClMargin.adj = get s (clkClMargin g) ClkClMargin.adj :=
  get_upd_other _ _ _ _ _ (by decide) (by decide)

theorem raiseAdj_clocked (g n : Nat) (s : State) : Clocked (· = clkClMargin g) s (raiseAdj g n s) :=
  (Clocked.clk _ _ s).trans (.upd_self _ _ _ _)

/-- A raise of ADJ that is counted in WARNS. -/
theorem get_raiseAdj_counted (g n : Nat) (s : State) :
    get (raiseAdj g n (satAdd (clkClMargin g) ClkClMargin.warns 1 s)) (clkClMargin g) ClkClMargin.adj =
      min 8 (get s (clkClMargin g) ClkClMargin.adj + n) := by
  have counted : get (satAdd (clkClMargin g) ClkClMargin.warns 1 s) (clkClMargin g) ClkClMargin.adj =
      get s (clkClMargin g) ClkClMargin.adj := get_upd_other _ _ _ _ _ (by decide) (by decide)
  unfold raiseAdj
  dsimp only
  rw [get_upd_same _ _ _ _ (by decide)]
  refine (Nat.mod_eq_of_lt ?_).trans (congrArg (fun x => min 8 (x + n)) counted)
  exact Nat.lt_of_le_of_lt (Nat.min_le_left _ _) (by decide)

section
variable {s : State} (on : On s) {g : ClusterId} {ps : Nat}
include on

theorem exec_marginReport_none (off : reports s g = false) :
    exec (.marginReport g ps) s = .next (marginNoted g.val 0 none 255 s) := by
  refine congrArg Host.Outcome.next ((powered_on on _).trans ?_)
  dsimp only
  rw [off]
  rfl

variable (on' : reports s g = true)
include on'

/-- A margin that meets no threshold and is not relaxed is noted only. -/
theorem exec_marginReport_between (crit : get s clkMarginCfg ClkMarginCfg.critPs < ps)
    (warn : get s clkMarginCfg ClkMarginCfg.warnPs < ps) (relax : ps < get s clkMarginCfg ClkMarginCfg.relaxPs) :
    exec (.marginReport g ps) s = .next (marginNoted g.val 0 none (min 254 ps) s) := by
  refine congrArg Host.Outcome.next ((powered_on on _).trans ?_)
  dsimp only
  rw [on', if_neg (by decide), if_neg (Nat.not_le.mpr crit), if_neg (Nat.not_le.mpr warn), if_neg (Nat.not_le.mpr relax),
    if_neg (by simp), if_neg (by simp)]
  rfl

/-- WARN_PS met twice raises ADJ by one, where the last raise is 100 µs past and ADJ and VSET have room. -/
theorem exec_marginReport_warn (crit : get s clkMarginCfg ClkMarginCfg.critPs < ps)
    (warn : ps ≤ get s clkMarginCfg ClkMarginCfg.warnPs) (last : 1 ≤ tget (fun _ => 0) s.clock.lastMet g.val)
    (past : passed s.devtime (tget (fun _ => none) s.clock.lastRaise g.val) (100 * usTicks) = true)
    (room : get s (clkClMargin g) ClkClMargin.adj < 8) (volts : get s (pwrClStat g) PwrClStat.vset ≠ 60) :
    exec (.marginReport g ps) s = .next (raiseAdj g.val 1 (satAdd (clkClMargin g) ClkClMargin.warns 1
      (marginNoted g.val 1 (marginSince g.val ps s) (min 254 ps) s))) := by
  have full : ¬ (get (marginNoted g.val 1 (marginSince g.val ps s) (min 254 ps) s) (clkClMargin g) ClkClMargin.adj = 8 ∨
      get (satAdd (clkClMargin g) ClkClMargin.warns 1 (marginNoted g.val 1 (marginSince g.val ps s) (min 254 ps) s))
        (pwrClStat g) PwrClStat.vset = 60) := by
    have apart : pwrClStat g ≠ clkClMargin g := by
      simp only [pwrClStat, clkClMargin]
      omega
    rw [get_marginNoted_adj, (Clocked.satAdd_self _ _ _ _).get_eq apart, (marginNoted_clocked _ _ _ _ _).get_eq apart]
    omega
  refine congrArg Host.Outcome.next ((powered_on on _).trans ?_)
  dsimp only
  rw [on', if_neg (by decide), if_neg (Nat.not_le.mpr crit), if_pos warn, if_neg (by simp), if_pos ⟨Nat.le_refl 1, last⟩]
  exact (if_pos past).trans (if_neg full)

/-- CRIT_PS met twice raises ADJ by two, and asks for a step down. -/
theorem exec_marginReport_crit (crit : ps ≤ get s clkMarginCfg ClkMarginCfg.critPs)
    (last : tget (fun _ => 0) s.clock.lastMet g.val = 2) :
    exec (.marginReport g ps) s = .next (marginDown g.val (logOpen sevDegrade kFault bClk 415 0 g.val
      (raiseAdj g.val 2 (satAdd (clkClMargin g) ClkClMargin.warns 1
        (marginNoted g.val 2 (marginSince g.val ps s) (min 254 ps) s))))) := by
  refine congrArg Host.Outcome.next ((powered_on on _).trans ?_)
  dsimp only
  rw [on', if_neg (by decide), if_pos crit]
  exact if_pos ⟨rfl, last⟩

end

/-- Noting the step down that a margin caused changes the cluster's own register, but not its ADJ. -/
theorem noteCaused_spec (g : Nat) (s : State) : Clocked (· = clkClMargin g) s (noteCaused g s) ∧
    get (noteCaused g s) (clkClMargin g) ClkClMargin.adj = get s (clkClMargin g) ClkClMargin.adj ∧
    (noteCaused g s).clock.step = s.clock.step := by
  unfold noteCaused
  dsimp only
  split
  · refine ⟨(((Clocked.clk _ _ s).trans (.upd_self _ _ _ _)).trans (.clk _ _ _)).trans (.upd_self _ _ _ _), ?_, rfl⟩
    rw [get_upd_other _ _ _ _ _ (by decide) (by decide)]
    exact get_upd_other _ _ _ _ _ (by decide) (by decide)
  · exact ⟨(Clocked.clk _ _ s).trans (.upd_self _ _ _ _), get_upd_other _ _ _ _ _ (by decide) (by decide), rfl⟩

theorem marginDown_begins {g : Nat} {s : State} (idle : s.clock.step = none) (room : curDiv s < 16) :
    marginDown g s = noteCaused g (stepDownRequest s) := by
  have fresh : (!downPending s && decide (curDiv s < 16)) = true := by simp [downPending, idle, room]
  unfold marginDown
  exact if_pos fresh

section
variable {s : State} (on : On s) {g : ClusterId} {ps : Nat} (rep : reports s g = true)
include on rep

theorem completes_marginReport_crit (crit : ps ≤ get s clkMarginCfg ClkMarginCfg.critPs)
    (last : tget (fun _ => 0) s.clock.lastMet g.val = 2) (idle : s.clock.step = none) (room : curDiv s < 16) :
    Completes (.marginReport g ps) s fun u =>
      get u (clkClMargin g) ClkClMargin.adj = min 8 (get s (clkClMargin g) ClkClMargin.adj + 2) ∧
      (∃ st, u.clock.step = some st ∧ st.toDiv = nextLarger (curDiv s) ∧ st.down = true) ∧
      ReportsAnd (fun o => o = clkClMargin g ∨ o = clkStat) { s with clock := u.clock } u := by
  have eq := exec_marginReport_crit on rep crit last
  have raised : Clocked (· = clkClMargin g.val) s (raiseAdj g.val 2 (satAdd (clkClMargin g) ClkClMargin.warns 1
      (marginNoted g.val 2 (marginSince g.val ps s) (min 254 ps) s))) :=
    ((marginNoted_clocked _ _ _ _ s).trans (.satAdd_self _ _ _ _)).trans (raiseAdj_clocked _ _ _)
  have adj := get_raiseAdj_counted g.val 2 (marginNoted g.val 2 (marginSince g.val ps s) (min 254 ps) s)
  rw [get_marginNoted_adj] at adj
  have idle' : (raiseAdj g.val 2 (satAdd (clkClMargin g) ClkClMargin.warns 1
      (marginNoted g.val 2 (marginSince g.val ps s) (min 254 ps) s))).clock.step = none := idle
  generalize raiseAdj g.val 2 (satAdd (clkClMargin g) ClkClMargin.warns 1
      (marginNoted g.val 2 (marginSince g.val ps s) (min 254 ps) s)) = v at eq raised adj idle'
  have logged := logOpen_reports sevDegrade kFault bClk 415 0 g.val v
  generalize logOpen sevDegrade kFault bClk 415 0 g.val v = w at eq logged
  have sameDiv : curDiv w = curDiv s :=
    (logged.1.get_eq not_reportReg_clkStat _).trans (raised.get_eq (clkClMargin_ne_clkStat _).symm _)
  have idle'' : w.clock.step = none := by
    rw [logged.2]
    exact idle'
  have room' : curDiv w < 16 := by rwa [sameDiv]
  rw [marginDown_begins idle'' room'] at eq
  obtain ⟨step, -, -, clocked⟩ := stepDownRequest_stepsDown idle'' room'
  rw [sameDiv] at step
  obtain ⟨noted, kept, step'⟩ := noteCaused_spec g.val (stepDownRequest w)
  refine ⟨_, eq, ?_, ?_, ?_⟩
  · rw [kept, clocked.get_eq (clkClMargin_ne_clkStat _), logged.1.get_eq (not_reportReg_margin g)]
    exact adj
  · rw [step']
    exact step
  · exact ((((raised.mono fun _ => .inl).clockReports.trans (logged.clockReports _)).trans
      (clocked.mono fun _ => .inr).clockReports).trans (noted.mono fun _ => .inl).clockReports)

end

/-! ### Steps up (R416) -/

theorem completes_stepUpBegin {s : State} (on : On s) (idle : s.clock.step = none)
    (allowed : max (get s clkCtrl ClkCtrl.targetDiv) s.clock.floorDiv < curDiv s) :
    Completes .stepUpBegin s fun u => get u clkStat ClkStat.pending = 1 ∧ curDiv u = curDiv s ∧
      (∃ st, u.clock.step = some st ∧ st.toDiv = max (get s clkCtrl ClkCtrl.targetDiv) s.clock.floorDiv ∧
        st.down = false) ∧ RegsBut (· = clkStat) s u ∧ u = { s with regs := u.regs, clock := u.clock } := by
  have eq : exec .stepUpBegin s =
      .next (beginDividerStep (max (get s clkCtrl ClkCtrl.targetDiv) s.clock.floorDiv) s) := by
    refine congrArg Host.Outcome.next ((powered_on on _).trans ?_)
    exact (if_neg (by simp [idle])).trans (if_pos allowed)
  obtain ⟨st, pends, toDiv, down⟩ := step_beginDividerStep (max (get s clkCtrl ClkCtrl.targetDiv) s.clock.floorDiv) s
  obtain ⟨regs, same⟩ := beginDividerStep_clocked (max (get s clkCtrl ClkCtrl.targetDiv) s.clock.floorDiv) s
  exact ⟨_, eq, pending_beginDividerStep _ _, curDiv_beginDividerStep _ _,
    ⟨st, pends, toDiv, down.trans (decide_eq_false (Nat.lt_asymm allowed))⟩, regs, same⟩

/-! ### The switch of the divider (R417–R420) -/

theorem chargeSample_eq {p : Int} {s s' : State} (h : chargeSample p s = some s') :
    s' = { s with control := s'.control } := by
  unfold chargeSample at h
  dsimp only at h
  split at h
  · split at h
    · cases h
      rfl
    · exact absurd h (by simp)
  · split at h
    · cases h
      rfl
    · exact absurd h (by simp)

/-- The change of power of a switch, in mW: the rounding of the limits, and the clock power that comes or goes. -/
def switchPower (st : ClockStep) (n : Nat) (s : State) : Int :=
  (rescale s st.toDiv (curDiv s) ((onClusters s).filter fun g => !s.power.ramping.contains g) 0 s.control.lRamp).2 /
    (curDiv s : Int) + (if st.down then -((min 40000 n : Nat) : Int) else ((min 40000 n : Nat) : Int))

/-- M_W as a switch rescales it. -/
def switchedM (st : ClockStep) (s : State) : Nat := max 1 (min 64 (get s pwrState PwrState.mW * st.toDiv / curDiv s))

/-- The divider, M_W and the limits as a switch leaves them. -/
def dividerSet (st : ClockStep) (m : Nat) (lr : Table Nat) (s : State) : State :=
  let s := upd clkStat ClkStat.div st.toDiv (upd clkStat ClkStat.pending 0 s)
  let s := upd pwrState PwrState.mW m s
  let s := { s with control := { s.control with lRamp := lr } }
  clk (fun c => { c with step := none }) s

theorem dividerSet_regs (st : ClockStep) (m : Nat) (lr : Table Nat) (s : State) :
    RegsBut (fun o => o = clkStat ∨ o = pwrState) s (dividerSet st m lr s) := by
  have set : RegsBut (fun o => o = clkStat ∨ o = pwrState) s (upd pwrState PwrState.mW m
      (upd clkStat ClkStat.div st.toDiv (upd clkStat ClkStat.pending 0 s))) :=
    ((regsBut_upd (.inl rfl) _ _ s).trans (regsBut_upd (.inl rfl) _ _ _)).trans (regsBut_upd (.inr rfl) _ _ _)
  exact fun off ho => set off ho

theorem get_dividerSet_div {st : ClockStep} (small : st.toDiv < 32) (m : Nat) (lr : Table Nat) (s : State) :
    curDiv (dividerSet st m lr s) = st.toDiv := by
  have div : curDiv (dividerSet st m lr s) = curDiv (upd pwrState PwrState.mW m
      (upd clkStat ClkStat.div st.toDiv (upd clkStat ClkStat.pending 0 s))) := rfl
  rw [div, curDiv, get_upd_ne (by decide), get_upd_same _ _ _ _ (by decide)]
  exact Nat.mod_eq_of_lt small

theorem get_dividerSet_pending (st : ClockStep) (m : Nat) (lr : Table Nat) (s : State) :
    get (dividerSet st m lr s) clkStat ClkStat.pending = 0 := by
  have pending : get (dividerSet st m lr s) clkStat ClkStat.pending = get (upd pwrState PwrState.mW m
      (upd clkStat ClkStat.div st.toDiv (upd clkStat ClkStat.pending 0 s))) clkStat ClkStat.pending := rfl
  rw [pending, get_upd_ne (by decide), get_upd_other _ _ _ _ _ (by decide) (by decide), get_upd_same _ _ _ _ (by decide)]
  rfl

theorem get_dividerSet_mW (st : ClockStep) {m : Nat} (small : m < 128) (lr : Table Nat) (s : State) :
    get (dividerSet st m lr s) pwrState PwrState.mW = m :=
  (get_upd_same _ _ _ _ (by decide) : get (upd pwrState PwrState.mW m _) pwrState PwrState.mW = m % 2 ^ 7).trans
    (Nat.mod_eq_of_lt small)

theorem followTarget_of_le {s : State} (le : get s clkCtrl ClkCtrl.targetDiv ≤ curDiv s) : followTarget s = s := by
  have follows : (s.clock.step.isNone && decide (curDiv s < get s clkCtrl ClkCtrl.targetDiv)) = false := by
    simp [le]
  unfold followTarget
  dsimp only
  rw [follows]
  rfl

section
variable {s : State} (on : On s) {st : ClockStep} {t : Nat} (pends : s.clock.step = some st) (chosen : st.ts = some t)
  (due : t ≤ s.devtime) (n : Nat)
include on pends chosen due

/-- While a field is out of sync T_s moves. -/
theorem exec_dividerSwitch_unsynced (sync : fieldsInSync s = false) :
    exec (.dividerSwitch n) s = .next (moveTs (nextTs s.devtime) st s) := by
  refine congrArg Host.Outcome.next ((powered_on on _).trans ?_)
  rw [pends]
  dsimp only
  rw [chosen]
  dsimp only
  rw [if_neg (Nat.not_lt.mpr due), sync]
  rfl

variable (sync : fieldsInSync s = true)
include sync

/-- The change of power does not fit into the sample: T_s moves by one period. -/
theorem exec_dividerSwitch_moved (full : chargeSample (switchPower st n s) s = none) :
    exec (.dividerSwitch n) s = .next (moveTs (t + 5760) st s) := by
  unfold switchPower at full
  push_cast at full
  refine congrArg Host.Outcome.next ((powered_on on _).trans ?_)
  rw [pends]
  dsimp only
  rw [chosen]
  dsimp only
  rw [if_neg (Nat.not_lt.mpr due), sync, if_neg (by decide), full]

theorem exec_dividerSwitch_switched {s' : State} (fits : chargeSample (switchPower st n s) s = some s') :
    exec (.dividerSwitch n) s = .next (followTarget (logOpen (if st.down then sevDegrade else sevNotice) kState bClk 417
      st.toDiv 0 (dividerSet st (switchedM st s) (rescale s st.toDiv (curDiv s)
        ((onClusters s).filter fun g => !s.power.ramping.contains g) 0 s.control.lRamp).1 s'))) := by
  unfold switchPower at fits
  push_cast at fits
  refine congrArg Host.Outcome.next ((powered_on on _).trans ?_)
  rw [pends]
  dsimp only
  rw [chosen]
  dsimp only
  rw [if_neg (Nat.not_lt.mpr due), sync, if_neg (by decide), fits]
  rfl

theorem completes_dividerSwitch {s' : State} (fits : chargeSample (switchPower st n s) s = some s') (small : st.toDiv < 32)
    (target : get s clkCtrl ClkCtrl.targetDiv ≤ st.toDiv) :
    Completes (.dividerSwitch n) s fun u => curDiv u = st.toDiv ∧ get u clkStat ClkStat.pending = 0 ∧
      u.clock.step = none ∧
      get u pwrState PwrState.mW = max 1 (min 64 (get s pwrState PwrState.mW * st.toDiv / curDiv s)) ∧ WorkSame s u ∧
      RegsBut (fun o => o = clkStat ∨ o = pwrState ∨ ReportReg o) s u := by
  have eq := exec_dividerSwitch_switched on pends chosen due n sync fits
  generalize (rescale s st.toDiv (curDiv s)
    ((onClusters s).filter fun g => !s.power.ramping.contains g) 0 s.control.lRamp).1 = lr at eq
  have charged := chargeSample_eq fits
  have small' : switchedM st s < 128 := by unfold switchedM; omega
  have div := get_dividerSet_div small (switchedM st s) lr s'
  have pending := get_dividerSet_pending st (switchedM st s) lr s'
  have mW := get_dividerSet_mW st small' lr s'
  have regs : RegsBut (fun o => o = clkStat ∨ o = pwrState) s (dividerSet st (switchedM st s) lr s') :=
    RegsBut.trans (fun _ _ => by rw [charged]; rfl) (dividerSet_regs st (switchedM st s) lr s')
  have work : WorkSame s (dividerSet st (switchedM st s) lr s') := by
    rw [charged]
    exact ⟨rfl, rfl, rfl, rfl, rfl, rfl, rfl⟩
  have none : (dividerSet st (switchedM st s) lr s').clock.step = none := rfl
  generalize dividerSet st (switchedM st s) lr s' = v at eq div pending mW regs work none
  have logged := logOpen_reports (if st.down then sevDegrade else sevNotice) kState bClk 417 st.toDiv 0 v
  generalize logOpen (if st.down then sevDegrade else sevNotice) kState bClk 417 st.toDiv 0 v = w at eq logged
  have clk : ∀ f, get w clkStat f = get v clkStat f := fun f => logged.1.get_eq not_reportReg_clkStat f
  have stays : get w clkCtrl ClkCtrl.targetDiv ≤ curDiv w := by
    rw [curDiv, clk, ← curDiv, div, logged.1.get_eq (not_reportReg_of_low (by decide) (by decide)),
      regs.get_eq (not_or.mpr ⟨by decide, by decide⟩)]
    exact target
  rw [followTarget_of_le stays] at eq
  refine ⟨_, eq, (clk _).trans div, (clk _).trans pending, ?_, ?_, work.trans logged.workSame,
    (regs.mono fun _ => Or.imp_right .inl).trans (logged.1.mono fun _ h => .inr (.inr h))⟩
  · rw [logged.2]
    exact none
  · rw [logged.1.get_eq (not_reportReg_of_low (by decide) (by decide))]
    exact mW

end

/-- T_s moves, and nothing else. -/
theorem moveTs_spec (t : Nat) (st : ClockStep) (s : State) : curDiv (moveTs t st s) = curDiv s ∧
    (moveTs t st s).clock.step = some { st with ts := some t } ∧ RegsBut (· = clkStat) s (moveTs t st s) ∧
    moveTs t st s = { s with regs := (moveTs t st s).regs, clock := (moveTs t st s).clock } := by
  obtain ⟨regs, same⟩ := (Clocked.clk (· = clkStat) (fun c => { c with step := some { st with ts := some t } }) s).trans
    (.upd_self clkStat ClkStat.tsLow (t % 2 ^ 32) _)
  exact ⟨get_upd_other _ _ _ _ _ (by decide) (by decide), rfl, regs, same⟩

theorem nextTs_spec (now : Nat) : nextTs now % 5760 = 0 ∧ now + 2048 ≤ nextTs now := by
  unfold nextTs
  omega

/-! ### The voltage codes (R414) -/

/-- VSET moves to a code. -/
def vsetMoved (g x : Nat) (s : State) : State :=
  chooseTs (upd (pwrClStat g) PwrClStat.vset x
    (clk (fun c => { c with lastVset := tset (fun _ => none) g (some s.devtime) c.lastVset }) s))

theorem vsetMoved_spec (g : Nat) {x : Nat} (small : x < 64) (s : State) :
    get (vsetMoved g x s) (pwrClStat g) PwrClStat.vset = x ∧
      RegsBut (fun o => o = pwrClStat g ∨ o = clkStat) s (vsetMoved g x s) ∧
      vsetMoved g x s = { s with regs := (vsetMoved g x s).regs, clock := (vsetMoved g x s).clock } := by
  have apart : pwrClStat g ≠ clkStat := by
    simp only [pwrClStat, clkStat]
    omega
  have set : Clocked (· = pwrClStat g) s (upd (pwrClStat g) PwrClStat.vset x
      (clk (fun c => { c with lastVset := tset (fun _ => none) g (some s.devtime) c.lastVset }) s)) :=
    (Clocked.clk _ _ s).trans (.upd_self _ _ _ _)
  obtain ⟨regs, same⟩ := (set.mono (r := fun o => o = pwrClStat g ∨ o = clkStat) fun _ => .inl).trans
    ((chooseTs_clocked _).mono fun _ => .inr)
  refine ⟨?_, regs, same⟩
  rw [vsetMoved, (chooseTs_clocked _).get_eq apart, get_upd_same _ _ _ _ (by decide)]
  exact Nat.mod_eq_of_lt small

theorem vsetTarget_le (s : State) (g : Nat) : vsetTarget s g ≤ 60 := Nat.min_le_left _ _

section
variable {s : State} (on : On s) {g : ClusterId}
include on

theorem exec_vsetStep_up (below : get s (pwrClStat g) PwrClStat.vset < vsetTarget s g)
    (past : passed s.devtime (tget (fun _ => none) s.clock.lastVset g.val) (10 * usTicks) = true) :
    exec (.vsetStep g) s = .next (vsetMoved g (get s (pwrClStat g) PwrClStat.vset + 1) s) :=
  congrArg Host.Outcome.next ((powered_on on _).trans ((if_pos below).trans (if_pos past)))

variable (above : vsetTarget s g < get s (pwrClStat g) PwrClStat.vset)
  (past : passed s.devtime (tget (fun _ => none) s.clock.lastVset g.val) (100 * usTicks) = true)
include above past

omit past in
theorem exec_vsetStep_held (held : (s.clock.step.map (·.held)).getD false = true) : exec (.vsetStep g) s = .next s :=
  congrArg Host.Outcome.next ((powered_on on _).trans ((if_neg (Nat.lt_asymm above)).trans ((if_pos above).trans
    (if_neg (by simp [held])))))

theorem exec_vsetStep_down (free : (s.clock.step.map (·.held)).getD false = false) :
    exec (.vsetStep g) s = .next (vsetMoved g (get s (pwrClStat g) PwrClStat.vset - 1) s) :=
  congrArg Host.Outcome.next ((powered_on on _).trans ((if_neg (Nat.lt_asymm above)).trans ((if_pos above).trans
    (if_pos (by rw [past, free]; rfl)))))

end

/-- Settles O51, command by command, by what each leaves of the clock block. -/
theorem skewMarginAndDivider : Obligations.SkewMarginAndDivider := by
  refine ⟨fun f i ps s on live mine => ⟨?_, ?_⟩, fun g ps s on => ⟨fun off => ?_, fun rep crit warn relax => ?_,
    fun rep crit warn last past room volts => ?_, ?_⟩, fun s on idle allowed => completes_stepUpBegin on idle allowed,
    fun st t s on pends chosen due => ⟨?_, ?_, fun n sync => ?_⟩, fun g s on => ⟨fun below past => ?_, ?_, ?_⟩⟩
  · exact completes_skewRead_within on live mine
  · exact completes_skewRead_tenth on live mine
  · obtain ⟨regs, same⟩ := marginNoted_clocked g.val 0 none 255 s
    exact ⟨_, exec_marginReport_none on off, get_marginNoted_margin _ _ _ (by decide) s, get_marginNoted_adj _ _ _ _ s, regs,
      same⟩
  · obtain ⟨regs, same⟩ := marginNoted_clocked g.val 0 none (min 254 ps) s
    exact ⟨_, exec_marginReport_between on rep crit warn relax, get_marginNoted_margin _ _ _ (by omega) s,
      get_marginNoted_adj _ _ _ _ s, regs, same⟩
  · have adj := get_raiseAdj_counted g.val 1 (marginNoted g.val 1 (marginSince g.val ps s) (min 254 ps) s)
    have le : get s (clkClMargin g) ClkClMargin.adj + 1 ≤ 8 := room
    rw [get_marginNoted_adj, Nat.min_eq_right le] at adj
    obtain ⟨regs, same⟩ := ((marginNoted_clocked g.val 1 (marginSince g.val ps s) (min 254 ps) s).trans
      (.satAdd_self _ ClkClMargin.warns 1 _)).trans (raiseAdj_clocked _ 1 _)
    exact ⟨_, exec_marginReport_warn on rep crit warn last past room volts, adj, regs, same⟩
  · exact fun rep crit last idle room => completes_marginReport_crit on rep crit last idle room
  · intro n p s' sync small target power fits
    subst power
    exact completes_dividerSwitch on pends chosen due n sync fits small target
  · intro n p sync power full
    subst power
    exact ⟨_, exec_dividerSwitch_moved on pends chosen due n sync full, moveTs_spec _ _ _⟩
  · obtain ⟨div, step, kept⟩ := moveTs_spec (nextTs s.devtime) st s
    exact ⟨_, exec_dividerSwitch_unsynced on pends chosen due n sync, div, ⟨_, step, nextTs_spec _⟩, kept⟩
  · have top := vsetTarget_le s g
    exact ⟨_, exec_vsetStep_up on below past, vsetMoved_spec _ (by omega) s⟩
  · exact fun above _ held => ⟨_, exec_vsetStep_held on above held, rfl⟩
  · intro above past free
    have small : get s (pwrClStat g) PwrClStat.vset < 2 ^ 6 := Nat.mod_lt _ (by decide)
    obtain ⟨moved, kept⟩ := vsetMoved_spec g (x := get s (pwrClStat g) PwrClStat.vset - 1) (by omega) s
    exact ⟨_, exec_vsetStep_down on above past free, by omega, kept⟩

end Sys2Proof.Machine
end

section
/-! Known-answer runs, test windows and the tile scrubber (R330, R335–R337, R349). -/

namespace Sys2Proof.Machine

open Sys2Proof

/-! ### Counters and the verification of a tile (R336, R338) -/

/-- A table's value at a key is its default, or an entry's. -/
theorem tget_mem {α : Type} (d : Nat → α) (i : Nat) : ∀ t : Table α, tget d t i = d i ∨ (i, tget d t i) ∈ t
  | [] => .inl rfl
  | (k, v) :: r => by
    rw [tget]
    split
    · exact .inl rfl
    · split
      · next h => exact .inr (by rw [h]; exact List.mem_cons_self)
      · exact (tget_mem d i r).imp_right (List.mem_cons_of_mem _)

theorem rd_intCount {i n : Nat} (some : n ≠ 0) (s : State) :
    rd (intCount i n s) (intCnt i) = rd s (intCnt i) + BitVec.ofNat 64 n := by
  rw [intCount, if_neg some]
  exact rd_put_same _ _ _

theorem intCount_regs (i n : Nat) (s : State) : RegsBut (· = intCnt i) s (intCount i n s) :=
  .ite (.refl _ s) (regsBut_put (p := (· = intCnt i)) rfl _ _)

theorem intCount_same (i n : Nat) (s : State) : intCount i n s = { s with regs := (intCount i n s).regs } := by
  unfold intCount
  split <;> rfl

theorem tilIntStat_ne_intStat (t : Nat) : tilIntStat t ≠ intStat := by
  simp only [tilIntStat, intStat]
  omega

/-- A mode that counts tiles as overdue does so from a positive count on. -/
theorem modeOverdue_pos {m n : Nat} (h : modeOverdue m = some n) : 0 < n := by
  unfold modeOverdue modeDue at h
  split_ifs at h
  all_goals simp at h
  all_goals omega

theorem markUnverified_eq {t : Nat} {s : State} (zero : get s (tilIntStat t) TilIntStat.sinceKat = 0) :
    markUnverified t s = if get s (tilIntStat t) TilIntStat.unverified = 0 then s else
      upd intStat IntStat.unverified (get s intStat IntStat.unverified - 1) (upd (tilIntStat t) TilIntStat.unverified 0 s) := by
  unfold markUnverified
  rw [zero]
  cases overdue : modeOverdue (intMode s) with
  | none => rfl
  | some n =>
    dsimp only
    rw [decide_eq_false (Nat.not_le.mpr (modeOverdue_pos overdue))]
    rfl

/-- A change of the registers of tile `t`'s verification only. -/
def Verifies (t : Nat) (s u : State) : Prop :=
  RegsBut (fun o => o = tilIntStat t ∨ o = intStat) s u ∧ u = { s with regs := u.regs }

theorem sinceKat_cleared (t : Nat) (s : State) :
    get (upd (tilIntStat t) TilIntStat.sinceKat 0 s) (tilIntStat t) TilIntStat.sinceKat = 0 :=
  get_upd_same _ _ _ _ (by decide)

/-- The tile is verified: SINCE_KAT and UNVERIFIED are 0. -/
theorem resetSince_spec (t : Nat) (s : State) : get (resetSince t s) (tilIntStat t) TilIntStat.sinceKat = 0 ∧
    get (resetSince t s) (tilIntStat t) TilIntStat.unverified = 0 ∧ Verifies t s (resetSince t s) := by
  have cleared := sinceKat_cleared t s
  have begun : RegsBut (fun o => o = tilIntStat t ∨ o = intStat) s (upd (tilIntStat t) TilIntStat.sinceKat 0 s) :=
    regsBut_upd (.inl rfl) _ _ s
  have same : upd (tilIntStat t) TilIntStat.sinceKat 0 s =
      { s with regs := (upd (tilIntStat t) TilIntStat.sinceKat 0 s).regs } := rfl
  unfold resetSince
  generalize upd (tilIntStat t) TilIntStat.sinceKat 0 s = v at cleared begun same ⊢
  rw [markUnverified_eq cleared]
  split
  · next unmarked => exact ⟨cleared, unmarked, begun, same⟩
  · have apart := tilIntStat_ne_intStat t
    refine ⟨?_, ?_, (begun.trans (regsBut_upd (.inl rfl) _ _ v)).trans (regsBut_upd (.inr rfl) _ _ _), ?_⟩
    · rw [get_upd_ne apart, get_upd_other _ _ _ _ _ (by decide) (by decide), cleared]
    · rw [get_upd_ne apart, get_upd_same _ _ _ _ (by decide)]
      rfl
    · rw [same]
      rfl

/-! ### Known-answer runs (R335–R337) -/

/-- A run of the routine that is counted. -/
def katCounted (t : Nat) (s : State) : State := intCount IntCnt.katRuns 1 (microRetired t s)

theorem katCounted_spec (t : Nat) (s : State) :
    rd (katCounted t s) (intCnt IntCnt.katRuns) = rd s (intCnt IntCnt.katRuns) + 1 ∧
      RegsBut (fun o => o = intCnt IntCnt.katRuns ∨ o = tilCnt t TilCnt.tilSpinstrCnt) s (katCounted t s) ∧
      katCounted t s = { s with regs := (katCounted t s).regs, free := (katCounted t s).free } := by
  obtain ⟨regs, same⟩ := microRetired_counted t s
  have apart : intCnt IntCnt.katRuns ≠ tilCnt t TilCnt.tilSpinstrCnt := by
    simp only [intCnt, tilCnt, IntCnt.katRuns]
    omega
  unfold katCounted
  generalize microRetired t s = v at regs same ⊢
  refine ⟨?_, (regs.mono fun _ => .inr).trans ((intCount_regs _ _ v).mono fun _ => .inl), ?_⟩
  · rw [rd_intCount (by decide), regs _ apart]
    rfl
  · rw [intCount_same, same]

section
variable {s : State} (on : On s) {t : TileId} (state : tileSt s t = tsTest) (first : ∀ r ∈ s.integ.runs, r.1 ≠ t.val)
include on state first

/-- A run with equal signatures, on a tile in TEST that has not run yet. -/
theorem exec_katRun_pass : exec (.katRun t false) s = .next (if s.integ.window.contains t.val then
    itg (fun g => { g with runs := g.runs ++ [(t.val, false)] }) (katCounted t s) else resetSince t (katCounted t s)) := by
  have taken : ¬ (tileSt s t ≠ tsTest ∨ s.integ.runs.any (fun r => r.1 == t.val) = true) := by
    rintro (other | run)
    · exact other state
    · obtain ⟨r, hr, same⟩ := List.any_eq_true.mp run
      exact first r hr (by simpa using same)
  have window : (katCounted t s).integ.window = s.integ.window := by rw [(katCounted_spec t s).2.2]
  refine congrArg Host.Outcome.next ((powered_on on _).trans ((if_neg taken).trans ?_))
  dsimp only
  rw [← katCounted, window, if_neg Bool.false_ne_true]
  split <;> rfl

theorem completes_katRun_window (inWindow : t.val ∈ s.integ.window) : Completes (.katRun t false) s fun u =>
    u.integ.runs = s.integ.runs ++ [(t.val, false)] ∧ rd u (intCnt IntCnt.katRuns) = rd s (intCnt IntCnt.katRuns) + 1 ∧
      RegsBut (fun o => o = intCnt IntCnt.katRuns ∨ o = tilCnt t TilCnt.tilSpinstrCnt) s u ∧
      u = { s with regs := u.regs, free := u.free, integ := u.integ } := by
  have eq := exec_katRun_pass on state first
  rw [if_pos (List.contains_iff_mem.mpr inWindow)] at eq
  obtain ⟨counted, regs, same⟩ := katCounted_spec t s
  generalize katCounted t s = v at eq counted regs same
  refine ⟨_, eq, ?_, counted, regs, ?_⟩
  · rw [same]
    rfl
  · rw [same]
    rfl

theorem completes_katRun_verified (outside : t.val ∉ s.integ.window) : Completes (.katRun t false) s fun u =>
    get u (tilIntStat t) TilIntStat.sinceKat = 0 ∧ get u (tilIntStat t) TilIntStat.unverified = 0 ∧
      rd u (intCnt IntCnt.katRuns) = rd s (intCnt IntCnt.katRuns) + 1 ∧
      RegsBut (fun o => o = intCnt IntCnt.katRuns ∨ o = tilCnt t TilCnt.tilSpinstrCnt ∨ o = tilIntStat t ∨ o = intStat) s u ∧
      u = { s with regs := u.regs, free := u.free } := by
  have eq := exec_katRun_pass on state first
  rw [if_neg (mt List.contains_iff_mem.mp outside)] at eq
  obtain ⟨counted, regs, same⟩ := katCounted_spec t s
  generalize katCounted t s = v at eq counted regs same
  obtain ⟨since, unverified, reset, kept⟩ := resetSince_spec t v
  have apart : ¬ (intCnt IntCnt.katRuns = tilIntStat t ∨ intCnt IntCnt.katRuns = intStat) := by
    simp only [intCnt, tilIntStat, IntCnt.katRuns, intStat]
    omega
  refine ⟨_, eq, since, unverified, (reset _ apart).trans counted,
    (regs.mono fun _ => Or.imp_right .inl).trans (reset.mono fun _ h => .inr (.inr h)), ?_⟩
  rw [kept, same]

end

/-! ### The close of a test window (R337) -/

/-- What each step of a fold establishes for its own element, and keeps for the others, holds of all of them. -/
theorem foldl_establishes {P : Nat → State → Prop} {f : State → Nat → State} (sets : ∀ t s, P t (f s t))
    (keeps : ∀ t t' s, P t s → P t (f s t')) :
    ∀ (l : List Nat) (s : State) (t : Nat), t ∈ l ∨ P t s → P t (l.foldl f s)
  | [], _, _, h => h.resolve_left List.not_mem_nil
  | x :: l, s, t, h => by
    refine foldl_establishes sets keeps l (f s x) t ?_
    rcases h with mem | holds
    · rcases List.mem_cons.mp mem with rfl | mem
      · exact .inr (sets t s)
      · exact .inl mem
    · exact .inr (keeps t x s holds)

theorem get_writeTestWin_ctrl (t t' : Nat) (s : State) (f : Fld) :
    get (writeTestWin t' false s) (tilCtrl t) f = get (upd (tilCtrl t') TilCtrl.testWin 0 s) (tilCtrl t) f := by
  have apart : tilCtrl t ≠ tilStat t' := by
    simp only [tilStat, tilCtrl]
    omega
  unfold writeTestWin
  dsimp only
  rw [if_neg Bool.false_ne_true, endTest]
  split
  · exact get_upd_ne apart _ _ _ _
  · rfl

theorem writeTestWin_same (t : Nat) (v : Bool) (s : State) :
    writeTestWin t v s = { s with regs := (writeTestWin t v s).regs } := by
  unfold writeTestWin startTest endTest
  dsimp only
  split_ifs <;> rfl

theorem tilCtrl_ne {t t' : Nat} (h : t ≠ t') : tilCtrl t ≠ tilCtrl t' := by
  simp only [tilCtrl]
  omega

theorem tilIntStat_ne {t t' : Nat} (h : t ≠ t') : tilIntStat t ≠ tilIntStat t' := by
  simp only [tilIntStat]
  omega

/-- TEST_WIN is 0 on each tile of a list once it is cleared there. -/
theorem testWin_cleared (ts : List Nat) (s : State) {t : Nat} (h : t ∈ ts) :
    get (ts.foldl (fun s t => writeTestWin t false s) s) (tilCtrl t) TilCtrl.testWin = 0 := by
  have sets : ∀ t s, get (writeTestWin t false s) (tilCtrl t) TilCtrl.testWin = 0 := fun t s => by
    rw [get_writeTestWin_ctrl, get_upd_same _ _ _ _ (by decide)]
    rfl
  refine foldl_establishes (P := fun t s => get s (tilCtrl t) TilCtrl.testWin = 0) sets (fun t t' s clear => ?_) ts s t (.inl h)
  by_cases e : t = t'
  · rw [e]
    exact sets t' s
  · rw [get_writeTestWin_ctrl, get_upd_ne (tilCtrl_ne e)]
    exact clear

/-- SINCE_KAT is 0 on each tile of a list once it is reset there. -/
theorem sinceKat_reset (ts : List Nat) (s : State) {t : Nat} (h : t ∈ ts) :
    get (ts.foldl (fun s t => resetSince t s) s) (tilIntStat t) TilIntStat.sinceKat = 0 := by
  refine foldl_establishes (P := fun t s => get s (tilIntStat t) TilIntStat.sinceKat = 0)
    (fun t s => (resetSince_spec t s).1) (fun t t' s zero => ?_) ts s t (.inl h)
  by_cases e : t = t'
  · rw [e]
    exact (resetSince_spec t' s).1
  · obtain ⟨-, -, regs, -⟩ := resetSince_spec t' s
    exact (regs.get_eq (not_or.mpr ⟨tilIntStat_ne e, tilIntStat_ne_intStat t⟩) _).trans zero

/-- Registers only. -/
def RegsOnly (s u : State) : Prop := u = { s with regs := u.regs }

theorem RegsOnly.trans {s v u : State} (h : RegsOnly s v) (k : RegsOnly v u) : RegsOnly s u := by
  unfold RegsOnly at *
  rw [k, h]

theorem testWin_cleared_same (ts : List Nat) (s : State) : RegsOnly s (ts.foldl (fun s t => writeTestWin t false s) s) :=
  foldl_related (R := RegsOnly) (fun _ => rfl) .trans ts (fun t _ s => writeTestWin_same t false s) s

theorem sinceKat_reset_spec (ts : List Nat) (s : State) : RegsOnly s (ts.foldl (fun s t => resetSince t s) s) ∧
    ∀ t, get (ts.foldl (fun s t => resetSince t s) s) (tilCtrl t) TilCtrl.testWin = get s (tilCtrl t) TilCtrl.testWin := by
  refine ⟨foldl_related (R := RegsOnly) (fun _ => rfl) .trans ts (fun t _ s => (resetSince_spec t s).2.2.2) s, fun t => ?_⟩
  refine foldl_related (R := fun s u => get u (tilCtrl t) TilCtrl.testWin = get s (tilCtrl t) TilCtrl.testWin)
    (fun _ => rfl) (fun h k => k.trans h) ts (fun t' _ s => ?_) s
  obtain ⟨-, -, regs, -⟩ := resetSince_spec t' s
  refine regs.get_eq ?_ _
  simp only [tilCtrl, tilIntStat, intStat]
  omega

/-- Tiles of the open window that passed and were not voided. -/
def windowPassed (s : State) : List Nat :=
  (s.integ.runs.filter fun r => !r.2 && !s.integ.voided.contains r.1).map (·.1)

/-- The state once the window's tiles have left TEST and those that passed are verified. -/
def windowVerified (s : State) : State :=
  (windowPassed s).foldl (fun s t => resetSince t s) (s.integ.window.foldl (fun s t => writeTestWin t false s) s)

theorem windowVerified_same (s : State) : RegsOnly s (windowVerified s) :=
  (testWin_cleared_same _ s).trans (sinceKat_reset_spec _ _).1

/-- The state with the window closed, and the next layer released. -/
def windowClosed (s : State) : State :=
  { itg (fun g => { g with window := [], runs := [], voided := [], afterWindow := [] }) s with
    req := { s.req with testOpen := false } }

theorem closeTestWindow_plain {s : State} (free : s.integ.attribution = none) (nothing : s.integ.afterWindow = []) :
    closeTestWindow s = windowClosed (windowVerified s) := by
  have kept : (windowVerified s).integ.attribution = none := by rw [windowVerified_same s]; exact free
  unfold closeTestWindow
  dsimp only
  rw [nothing, ← windowPassed, ← windowVerified, endAttribution, kept]
  rfl

theorem completes_testWindowClose {s : State} (on : On s) (opened : s.req.testOpen = true) (done : windowDone s = true)
    (free : s.integ.attribution = none) (nothing : s.integ.afterWindow = []) (ns : Nat) :
    Completes (.testWindowClose ns) s fun u => u.req.testOpen = false ∧ u.integ.window = [] ∧ u.integ.runs = [] ∧
      (∀ t ∈ s.integ.window, get u (tilCtrl t) TilCtrl.testWin = 0) ∧
      (∀ t, (t, false) ∈ s.integ.runs → t ∉ s.integ.voided → get u (tilIntStat t) TilIntStat.sinceKat = 0) ∧
      u = { s with regs := u.regs, integ := u.integ, req := { s.req with testOpen := false } } := by
  have eq : exec (.testWindowClose ns) s = .next (windowClosed (windowVerified s)) := by
    refine congrArg Host.Outcome.next ((powered_on on _).trans ?_)
    rw [← closeTestWindow_plain free nothing]
    exact if_pos (by simp [opened, done])
  have tests : ∀ t ∈ s.integ.window, get (windowVerified s) (tilCtrl t) TilCtrl.testWin = 0 := fun t ht =>
    ((sinceKat_reset_spec _ _).2 t).trans (testWin_cleared _ _ ht)
  have since : ∀ t, (t, false) ∈ s.integ.runs → t ∉ s.integ.voided →
      get (windowVerified s) (tilIntStat t) TilIntStat.sinceKat = 0 := fun t ran kept => by
    refine sinceKat_reset _ _ (List.mem_map.mpr ⟨(t, false), List.mem_filter.mpr ⟨ran, ?_⟩, rfl⟩)
    simpa using kept
  have same := windowVerified_same s
  generalize windowVerified s = v at eq tests since same
  refine ⟨_, eq, rfl, rfl, rfl, tests, since, ?_⟩
  rw [same]
  rfl

/-! ### The tile scrubber (R330) -/

/-- The words upset since the last command. -/
def upsetTile (t : Nat) (upset : List WordError) (s : State) : State :=
  upset.foldl (fun s e => updTile t (upsetWord (tileMemCode e.mem) e.word e.double) s) s

/-- Tiles only, and of them only `t`, with its memories as they were. -/
def UpsetOnly (t : Nat) (s u : State) : Prop := TileMems t s u ∧ OtherTiles t s u ∧ u = { s with tiles := u.tiles }

theorem upsetTile_only (t : Nat) (upset : List WordError) (s : State) : UpsetOnly t s (upsetTile t upset s) := by
  refine foldl_related (R := UpsetOnly t) (fun s => ⟨⟨rfl, rfl, rfl, rfl⟩, fun _ _ => rfl, rfl⟩)
    (fun ⟨⟨h1, h2, h3, h4⟩, ho, he⟩ ⟨⟨k1, k2, k3, k4⟩, ko, ke⟩ =>
      ⟨⟨k1.trans h1, k2.trans h2, k3.trans h3, k4.trans h4⟩, fun u hu => (ko u hu).trans (ho u hu), by rw [ke, he]⟩)
    upset (fun e _ s => ⟨?_, fun u hu => tile_updTile_ne hu _ _, rfl⟩) s
  rw [TileMems, tile_updTile_same]
  unfold upsetWord
  split <;> exact ⟨rfl, rfl, rfl, rfl⟩

/-- A word that is corrected is no longer in error, and is counted with the others of its place. -/
theorem correctWords_word {t k w : Nat} {s : State} (soft : tget (fun _ => 0) (tile s t).errs (errKey k w) = 1) :
    tget (fun _ => 0) (tile (correctWords t k w 1 s) t).errs (errKey k w) ≠ 1 ∧ TileMems t s (correctWords t k w 1 s) ∧
      OtherTiles t s (correctWords t k w 1 s) ∧
      (∃ c, 0 < c ∧
        rd (correctWords t k w 1 s) (intCnt IntCnt.sramCe) = rd s (intCnt IntCnt.sramCe) + BitVec.ofNat 64 c) ∧
      RegsBut (fun o => o = intCnt IntCnt.sramCe ∨ ReportReg o) s (correctWords t k w 1 s) ∧
      (correctWords t k w 1 s).hbm = s.hbm := by
  have hits : ∀ e : Nat × Nat, (decide (errKey k w ≤ e.1) && (decide (e.1 < errKey k (w + 1)) && e.2 == 1)) = true ↔
      e = (errKey k w, 1) := fun e => by
    have next : errKey k (w + 1) = errKey k w + 1 := (Nat.add_assoc _ _ _).symm
    rw [next]
    constructor
    · intro h
      simp only [Bool.and_eq_true, decide_eq_true_eq, beq_iff_eq] at h
      exact Prod.ext (by omega) h.2.2
    · rintro rfl
      simp
  have listed : (errKey k w, 1) ∈ (tile s t).errs := by
    have h := tget_mem (fun _ => 0) (errKey k w) (tile s t).errs
    rw [soft] at h
    exact h.resolve_left (by decide)
  have some : ((tile s t).errs.filter fun e => decide (errKey k w ≤ e.1) &&
      (decide (e.1 < errKey k (w + 1)) && e.2 == 1)).length ≠ 0 := by
    intro none
    have gone := List.filter_eq_nil_iff.mp (List.eq_nil_of_length_eq_zero none) _ listed
    exact gone ((hits _).mpr rfl)
  have cleared : tget (fun _ => 0) ((tile s t).errs.filter fun e => !(decide (errKey k w ≤ e.1) &&
      (decide (e.1 < errKey k (w + 1)) && e.2 == 1))) (errKey k w) ≠ 1 := by
    intro still
    have h := tget_mem (fun _ => 0) (errKey k w) ((tile s t).errs.filter fun e => !(decide (errKey k w ≤ e.1) &&
      (decide (e.1 < errKey k (w + 1)) && e.2 == 1)))
    rw [still] at h
    have mem := (List.mem_filter.mp (h.resolve_left (by decide))).2
    rw [(hits _).mpr rfl] at mem
    exact absurd mem (by decide)
  unfold correctWords
  dsimp only
  rw [if_neg some]
  generalize ((tile s t).errs.filter fun e => decide (errKey k w ≤ e.1) &&
      (decide (e.1 < errKey k (w + 1)) && e.2 == 1)).length = c at some
  generalize ((tile s t).errs.filter fun e => !(decide (errKey k w ≤ e.1) &&
      (decide (e.1 < errKey k (w + 1)) && e.2 == 1))) = errs at cleared
  have counted := rd_intCount some (i := IntCnt.sramCe) (setTile t { tile s t with errs := errs } s)
  have regs := intCount_regs IntCnt.sramCe c (setTile t { tile s t with errs := errs } s)
  have same := intCount_same IntCnt.sramCe c (setTile t { tile s t with errs := errs } s)
  have hbm : (intCount IntCnt.sramCe c (setTile t { tile s t with errs := errs } s)).hbm = s.hbm := by rw [same]; rfl
  have tiles : ∀ u, tile (intCount IntCnt.sramCe c (setTile t { tile s t with errs := errs } s)) u =
      tile (setTile t { tile s t with errs := errs } s) u := fun u => by rw [same]; rfl
  generalize intCount IntCnt.sramCe c (setTile t { tile s t with errs := errs } s) = v at counted regs hbm tiles
  have logged := logEvent_reports ⟨sevInfo, kCorrected, bInt, t, memCheck k, t, siteOf s t⟩ v
  rw [← logInteg] at logged
  generalize logInteg sevInfo kCorrected (memCheck k) t (siteOf s t) v = w' at logged
  have tiles' : ∀ u, tile w' u = tile (setTile t { tile s t with errs := errs } s) u := fun u => by
    rw [← tiles u, logged.2]
    rfl
  have apart : ¬ ReportReg (intCnt IntCnt.sramCe) := not_reportReg_of_low (by decide) (by decide)
  refine ⟨?_, ?_, fun u hu => ?_, ⟨c, Nat.pos_of_ne_zero some, (logged.1 _ apart).trans counted⟩, ?_, ?_⟩
  · rw [tiles', tile_setTile_same]
    exact cleared
  · rw [TileMems, tiles', tile_setTile_same]
    exact ⟨rfl, rfl, rfl, rfl⟩
  · rw [tiles', tile_setTile_ne hu]
  · have begun : RegsBut (· = intCnt IntCnt.sramCe) s v := fun off ho => regs off ho
    exact (begun.mono fun _ => .inl).trans (logged.1.mono fun _ => .inr)
  · rw [logged.2]
    exact hbm

/-- The count of an uncorrectable word, on the upset tile. -/
theorem sramUe_counted (t : Nat) (upset : List WordError) (s : State) :
    rd (intCount IntCnt.sramUe 1 (upsetTile t upset s)) (intCnt IntCnt.sramUe) = rd s (intCnt IntCnt.sramUe) + 1 ∧
      RegsBut (· = intCnt IntCnt.sramUe) s (intCount IntCnt.sramUe 1 (upsetTile t upset s)) ∧
      intCount IntCnt.sramUe 1 (upsetTile t upset s) =
        { upsetTile t upset s with regs := (intCount IntCnt.sramUe 1 (upsetTile t upset s)).regs } := by
  obtain ⟨-, -, same⟩ := upsetTile_only t upset s
  have begun : ∀ off, rd (upsetTile t upset s) off = rd s off := fun off => by rw [same]; rfl
  refine ⟨?_, fun off ho => (intCount_regs _ _ _ off ho).trans (begun off), intCount_same _ _ _⟩
  rw [rd_intCount (by decide), begun]
  rfl

section
variable {s : State} (on : On s) {t : TileId} {mem : TileMem} {w : Nat} {upset : List WordError}
  (tileOn : tileOff s t = false) (store : tileMemCode mem < 5) (place : w < 2 ^ 20)
include on tileOn store place

/-- A word of a tile that is on, as the scrubber reads it. -/
theorem exec_tileSramScrub_soft (soft : tget (fun _ => 0) (tile (upsetTile t upset s) t).errs (errKey (tileMemCode mem) w) = 1) :
    exec (.tileSramScrub t mem w upset) s = .next (correctWords t (tileMemCode mem) w 1 (upsetTile t upset s)) := by
  have still : tileOff (upsetTile t upset s) t = false := by rw [(upsetTile_only t upset s).2.2]; exact tileOn
  refine congrArg Host.Outcome.next ((powered_on on _).trans ?_)
  dsimp only
  rw [tileOn, if_neg Bool.false_ne_true, ← upsetTile, still, soft, if_neg (by simp only [Bool.false_eq_true, false_or]; omega)]
  exact if_pos rfl

/-- An uncorrectable word is counted, and then goes by its memory. -/
theorem exec_tileSramScrub_hard
    (hard : 1 < tget (fun _ => 0) (tile (upsetTile t upset s) t).errs (errKey (tileMemCode mem) w)) :
    exec (.tileSramScrub t mem w upset) s = .next (
      if tileMemCode mem = 0 ∧ tileSt (intCount IntCnt.sramUe 1 (upsetTile t upset s)) t = tsTest then
        itg (fun g => { g with afterWindow := g.afterWindow ++ [(t.val, ckWmUe)] }) (intCount IntCnt.sramUe 1 (upsetTile t upset s))
      else if tileMemCode mem = 0 ∨ tileMemCode mem = 3 then
        integrityFault t (memCheck (tileMemCode mem)) (intCount IntCnt.sramUe 1 (upsetTile t upset s))
      else logInteg sevNotice kFault (memCheck (tileMemCode mem)) t (siteOf (intCount IntCnt.sramUe 1 (upsetTile t upset s)) t)
        (intCount IntCnt.sramUe 1 (upsetTile t upset s))) := by
  have still : tileOff (upsetTile t upset s) t = false := by rw [(upsetTile_only t upset s).2.2]; exact tileOn
  refine congrArg Host.Outcome.next ((powered_on on _).trans ?_)
  dsimp only
  rw [tileOn, if_neg Bool.false_ne_true, ← upsetTile, still, if_neg (by simp only [Bool.false_eq_true, false_or]; omega),
    if_neg (by omega)]

theorem completes_tileSramScrub_soft
    (soft : tget (fun _ => 0) (tile (upsetTile t upset s) t).errs (errKey (tileMemCode mem) w) = 1) :
    Completes (.tileSramScrub t mem w upset) s fun u =>
      tget (fun _ => 0) (tile u t).errs (errKey (tileMemCode mem) w) ≠ 1 ∧ TileMems t s u ∧ OtherTiles t s u ∧
      (∃ c, 0 < c ∧ rd u (intCnt IntCnt.sramCe) = rd s (intCnt IntCnt.sramCe) + BitVec.ofNat 64 c) ∧
      RegsBut (fun o => o = intCnt IntCnt.sramCe ∨ ReportReg o) s u ∧ u.hbm = s.hbm := by
  have eq := exec_tileSramScrub_soft on tileOn store place soft
  obtain ⟨⟨h1, h2, h3, h4⟩, others, same⟩ := upsetTile_only t upset s
  obtain ⟨cleared, ⟨k1, k2, k3, k4⟩, others', ⟨c, some, counted⟩, regs, hbm⟩ := correctWords_word soft
  have begun : ∀ off, rd (upsetTile t upset s) off = rd s off := fun off => by rw [same]; rfl
  refine ⟨_, eq, cleared, ⟨k1.trans h1, k2.trans h2, k3.trans h3, k4.trans h4⟩,
    fun u hu => (others' u hu).trans (others u hu), ⟨c, some, counted.trans (by rw [begun])⟩,
    fun off ho => (regs off ho).trans (begun off), hbm.trans ?_⟩
  rw [same]

theorem completes_tileSramScrub_logged
    (hard : 1 < tget (fun _ => 0) (tile (upsetTile t upset s) t).errs (errKey (tileMemCode mem) w))
    (wm : mem ≠ .wm) (istore : mem ≠ .istore) : Completes (.tileSramScrub t mem w upset) s fun u =>
      rd u (intCnt IntCnt.sramUe) = rd s (intCnt IntCnt.sramUe) + 1 ∧ u.tiles = (upsetTile t upset s).tiles ∧
      RegsBut (fun o => o = intCnt IntCnt.sramUe ∨ ReportReg o) s u ∧ u.hbm = s.hbm := by
  have neither : tileMemCode mem ≠ 0 ∧ tileMemCode mem ≠ 3 := by
    cases mem with
    | wm => exact absurd rfl wm
    | istore => exact absurd rfl istore
    | _ => decide
  have eq := exec_tileSramScrub_hard on tileOn store place hard
  rw [if_neg fun h => neither.1 h.1, if_neg (not_or.mpr neither)] at eq
  obtain ⟨-, -, only⟩ := upsetTile_only t upset s
  have hbm : (upsetTile t upset s).hbm = s.hbm := by rw [only]
  obtain ⟨counted, regs, same⟩ := sramUe_counted t upset s
  generalize intCount IntCnt.sramUe 1 (upsetTile t upset s) = v at eq counted regs same
  have logged := logEvent_reports ⟨sevNotice, kFault, bInt, t, memCheck (tileMemCode mem), t, siteOf v t⟩ v
  rw [← logInteg] at logged
  refine ⟨_, eq, (logged.1 _ (not_reportReg_of_low (by decide) (by decide))).trans counted, ?_,
    (regs.mono fun _ => .inl).trans (logged.1.mono fun _ => .inr), ?_⟩
  · rw [logged.2, same]
  · rw [logged.2, same]
    exact hbm

/-- An uncorrectable word of WM on a tile in TEST waits for the window to close. -/
theorem completes_tileSramScrub_waits
    (hard : 1 < tget (fun _ => 0) (tile (upsetTile t upset s) t).errs (errKey (tileMemCode mem) w))
    (wm : mem = .wm) (test : tileSt s t = tsTest) : Completes (.tileSramScrub t mem w upset) s fun u =>
      u.integ.afterWindow = s.integ.afterWindow ++ [(t.val, ckWmUe)] ∧ RegsBut (· = intCnt IntCnt.sramUe) s u ∧
      u = { upsetTile t upset s with regs := u.regs, integ := u.integ } := by
  obtain ⟨-, -, only⟩ := upsetTile_only t upset s
  obtain ⟨-, regs, same⟩ := sramUe_counted t upset s
  have eq := exec_tileSramScrub_hard on tileOn store place hard
  have integ : (intCount IntCnt.sramUe 1 (upsetTile t upset s)).integ = s.integ := by rw [same, only]
  have state : tileSt (intCount IntCnt.sramUe 1 (upsetTile t upset s)) t = tsTest := by
    have off : tileOff (intCount IntCnt.sramUe 1 (upsetTile t upset s)) t = tileOff s t :=
      tileOff_congr (regs _ (by decide : pwrState ≠ intCnt IntCnt.sramUe)) (by rw [same, only]) (by rw [same, only]) t
    have stat : get (intCount IntCnt.sramUe 1 (upsetTile t upset s)) (tilStat t) TilStat.state = get s (tilStat t) TilStat.state :=
      regs.get_eq (by simp only [tilStat, intCnt, IntCnt.sramUe]; omega) _
    rw [tileSt, off, stat, ← tileSt, test]
  rw [if_pos ⟨by rw [wm]; rfl, state⟩] at eq
  generalize intCount IntCnt.sramUe 1 (upsetTile t upset s) = v at eq regs same integ
  refine ⟨_, eq, ?_, fun off ho => regs off ho, ?_⟩
  · exact congrArg (fun g : IntegState => g.afterWindow ++ [(t.val, ckWmUe)]) integ
  · rw [same]
    rfl

end

/-- Settles O36, by what a counted run, the close of a window and a scrubbed word leave. -/
theorem testWindowsAndKnownAnswers : Obligations.TestWindowsAndKnownAnswers := by
  refine ⟨fun t s on state first => ⟨?_, ?_⟩, fun ns s on opened done free nothing => ?_, fun ns s on closed => ?_,
    fun t mem w upset s s' on tileOn store place upsets => ?_⟩
  · exact completes_katRun_window on state first
  · exact completes_katRun_verified on state first
  · exact completes_testWindowClose on opened done free nothing ns
  · exact ⟨_, congrArg Host.Outcome.next ((powered_on on _).trans (if_neg (by simp [closed]))), rfl⟩
  · subst upsets
    exact ⟨completes_tileSramScrub_soft on tileOn store place, completes_tileSramScrub_logged on tileOn store place,
      completes_tileSramScrub_waits on tileOn store place⟩

end Sys2Proof.Machine
end

section
/-! What work leaves of the supervisor's state when tiles lose their power or a batch fails (R210, R371, R395). -/

namespace Sys2Proof.Machine

open Sys2Proof

/-! ### Registers that the end of work leaves alone -/

/-- Registers of the supervisor, the clusters, the fields and the links: neither a head's or a tile's, nor of the log and
the counters of the ledger. -/
def PlainReg (o : Nat) : Prop := o < 0x800000 ∧ (o < 0x9000 ∨ 0xA000 ≤ o)

theorem not_reportReg_of_plain {o : Nat} (h : PlainReg o) : ¬ ReportReg o := by
  obtain ⟨low, led⟩ := h
  refine not_reportReg_of_low low ?_
  simp only [ledLogStat]
  omega

/-- Work ends: tiles, requests and what is reported of them change, and no plain register. -/
structure WorkLost (s u : State) : Prop where
  regs : ∀ o, PlainReg o → rd u o = rd s o
  same : u = { s with regs := u.regs, tiles := u.tiles, req := u.req, log := u.log, svc := u.svc, i3c := u.i3c, host := u.host }

namespace WorkLost

variable {s v u : State}

theorem refl (s : State) : WorkLost s s := ⟨fun _ _ => rfl, rfl⟩

theorem trans (h : WorkLost s v) (k : WorkLost v u) : WorkLost s u :=
  ⟨fun o ho => (k.regs o ho).trans (h.regs o ho), by rw [k.same, h.same]⟩

theorem put {off : Nat} (h : ¬ PlainReg off) (v : Reg) (s : State) : WorkLost s (put off v s) :=
  ⟨fun o ho => rd_put_ne (fun e => h (by rwa [← e])) v s, rfl⟩

theorem setTile (t : Nat) (x : TileState) (s : State) : WorkLost s (setTile t x s) := ⟨fun _ _ => rfl, rfl⟩

theorem req (r : ReqState) (s : State) : WorkLost s { s with req := r } := ⟨fun _ _ => rfl, rfl⟩

theorem foldl {α : Type} {f : State → α → State} (l : List α) (h : ∀ x ∈ l, ∀ s, WorkLost s (f s x)) (s : State) :
    WorkLost s (l.foldl f s) :=
  foldl_related (R := WorkLost) .refl .trans l h s

theorem ite {c : Prop} [Decidable c] (h : WorkLost s v) (k : WorkLost s u) : WorkLost s (if c then v else u) := by
  split
  · exact h
  · exact k

end WorkLost

theorem Reports.workLost {s u : State} (h : Reports s u) : WorkLost s u := by
  obtain ⟨regs, same⟩ := h
  exact ⟨fun o ho => regs o (not_reportReg_of_plain ho), by rw [same]⟩

theorem not_plain_ledCnt {i : Nat} (h : i < 32) : ¬ PlainReg (ledCnt i) := by
  simp only [PlainReg, ledCnt]
  omega

theorem not_plain_of_high {o : Nat} (h : 0x800000 ≤ o) : ¬ PlainReg o := fun p => absurd p.1 (by omega)

/-! ### A batch fails (R210) -/

theorem finishReq_workLost (id st : Nat) (s : State) : WorkLost s (finishReq id st s) := by
  cases hf : findReq s id with
  | none => simpa [finishReq, hf] using .refl s
  | some r =>
    cases hs : r.status with
    | some c => simpa [finishReq, hf, hs] using .refl s
    | none => exact (WorkLost.req (madeDue id st s).req s).trans (finishReq_of_open hf hs st).workLost

theorem chunkFail_workLost (id cause detail : Nat) (s : State) : WorkLost s (chunkFail id cause detail s) := by
  unfold chunkFail
  split
  · exact .refl s
  · split
    · exact .refl s
    · exact ((WorkLost.req _ s).trans (finishReq_workLost id _ _)).trans (.req _ _)

theorem batchFail_workLost (status object detail : Nat) (s : State) : WorkLost s (batchFail status object detail s) := by
  unfold batchFail
  split
  · exact .refl s
  · have counted : ∀ (i j : Nat) (x y : Reg) (v : State), i < 32 → j < 32 → WorkLost v (put (ledCnt i) x (put (ledCnt j) y v)) :=
      fun _ _ x y v hi hj => (WorkLost.put (not_plain_ledCnt hj) y v).trans (.put (not_plain_ledCnt hi) x _)
    exact ((counted _ _ _ _ s (by decide) (by decide)).trans (.req _ _)).trans
      (.foldl _ (fun id _ v => chunkFail_workLost id status detail v) _)

theorem haltReq_workLost (t : Nat) (s : State) : WorkLost s (haltReq t s) := by
  have ctrl : ∀ x v, WorkLost v (put (tilCtrl t) x v) := fun x v =>
    .put (not_plain_of_high (by simp only [tilCtrl]; omega)) x v
  have stat : ∀ x v, WorkLost v (put (tilStat t) x v) := fun x v =>
    .put (not_plain_of_high (by simp only [tilStat]; omega)) x v
  exact .ite ((ctrl _ s).trans (stat _ _)) (ctrl _ s)

theorem haltGraph_workLost (t : Nat) (s : State) : WorkLost s (haltGraph t s) :=
  .foldl _ (fun u _ v => haltReq_workLost u v) s

theorem batchFailCluster_workLost (ts : List Nat) (s : State) : WorkLost s (batchFailCluster ts s) := by
  cases ts with
  | nil => exact .refl s
  | cons t ts => exact .ite ((haltGraph_workLost t s).trans (batchFail_workLost _ _ _ _)) (.refl s)

/-! ### Tiles lose their power (R158, R163, R371) -/

theorem Abandons.workLost {t : Nat} {s u : State} (h : Abandons t s u) : WorkLost s u := by
  refine ⟨fun o ho => h.regs o ?_, by rw [h.same]⟩
  rintro (⟨e, he, rfl⟩ | rfl | rfl | r)
  · exact not_plain_of_high (by simp only [tilDmaStat]; omega) ho
  · exact not_plain_ledCnt (by decide) ho
  · exact not_plain_ledCnt (by decide) ho
  · exact not_reportReg_of_plain ho r

theorem tileLost_workLost (t : Nat) (s : State) : WorkLost s (tileLost t s) :=
  ((abandonEngines_abandons t s).workLost.trans (.put (not_plain_of_high (by simp only [latStat]; omega)) _ _)).trans
    (.setTile t _ _)

theorem put128_workLost {off : Nat} (h : 0x800000 ≤ off) (v : Nat) (s : State) : WorkLost s (put128 off v s) :=
  (WorkLost.put (not_plain_of_high h) _ s).trans (.put (not_plain_of_high (by omega)) _ _)

theorem closeWindows_workLost (ts : List Nat) (s : State) : WorkLost s (closeWindows ts s) := by
  refine .foldl _ (fun t _ s => .foldl _ (fun w _ s => ?_) s) s
  have counted : WorkLost s (if bit1 (windowEntry s t w) 0 then
      addR (ledCnt LedCnt.winClosed) 1 (subR (ledCnt LedCnt.winOpen) 1 s) else s) :=
    .ite ((WorkLost.put (not_plain_ledCnt (by decide)) _ s).trans (.put (not_plain_ledCnt (by decide)) _ _)) (.refl s)
  exact counted.trans (.ite (.refl _) (put128_workLost (by simp only [tilWin]; omega) _ _))

theorem clearTasks_workLost (ts : List Nat) (s : State) : WorkLost s (clearTasks ts s) :=
  .foldl _ (fun t _ s => .foldl _ (fun k _ s => .ite (.refl s) (put128_workLost (by simp only [tilTask]; omega) _ s)) s) s

theorem tilesLost_workLost (ts : List Nat) (s : State) : WorkLost s (tilesLost ts s) :=
  ((WorkLost.foldl ts (fun t _ v => tileLost_workLost t v) s).trans (closeWindows_workLost ts _)).trans
    (clearTasks_workLost ts _)

theorem abandonExecuting_workLost (s : State) : WorkLost s (abandonExecuting s) := by
  have counted : ∀ (i j : Nat) (x y : Reg) (v : State), i < 32 → j < 32 → WorkLost v (put (ledCnt i) x (put (ledCnt j) y v)) :=
    fun _ _ x y v hi hj => (WorkLost.put (not_plain_ledCnt hj) y v).trans (.put (not_plain_ledCnt hi) x _)
  unfold abandonExecuting
  exact (((counted _ _ _ _ s (by decide) (by decide)).trans (.req _ _)).trans
    (.foldl _ (fun id _ v => (WorkLost.req _ v).trans (finishReq_workLost id _ _)) _)).trans (.req _ _)

end Sys2Proof.Machine
end

section
/-! Temperatures, the switch-off for heat, the die trip and the coolant (R392–R397, R399, R553). -/

namespace Sys2Proof.Machine

open Sys2Proof

/-! ### The thermal limits of an update (R394) -/

/-- What the thermal update makes of one cluster. -/
def thermSet (s : State) (g : Nat) : State :=
  upd (pwrClTherm g) PwrClTherm.lTherm (thermNext s g)
    (upd (pwrClTherm g) PwrClTherm.throttle (b2n (decide (thermNext s g < 64))) s)

theorem exec_thermalUpdate {s : State} (on : On s) : exec .thermalUpdate s = .next ((List.range 240).foldl thermSet s) :=
  congrArg Host.Outcome.next (powered_on on _)

theorem pwrClTherm_ne {g g' : Nat} (h : g ≠ g') : pwrClTherm g ≠ pwrClTherm g' := by
  simp only [pwrClTherm]
  omega

theorem thermNext_lt (s : State) (g : Nat) : thermNext s g < 128 := by
  have small : get s (pwrClTherm g) PwrClTherm.lTherm < 2 ^ 7 := Nat.mod_lt _ (by decide)
  have halved : ∀ x < 128, (if get s (pwrFldTherm (clusterField g)) PwrFldTherm.hot = 1 then max 1 (x / 2) else x) < 128 := by
    intro x hx
    split
    · exact max_lt (by decide) (by omega)
    · exact hx
  unfold thermNext
  refine halved _ ?_
  cases tempOf s g with
  | none => exact small
  | some t =>
    dsimp only
    split
    · exact max_lt (by decide) (by omega)
    · split
      · exact min_lt_of_left_lt (by decide)
      · exact small

/-- The next limit of a cluster rests on its register, its field's and the temperatures. -/
theorem thermNext_congr {s u : State} {g : Nat} (own : rd u (pwrClTherm g) = rd s (pwrClTherm g))
    (field : rd u (pwrFldTherm (clusterField g)) = rd s (pwrFldTherm (clusterField g))) (control : u.control = s.control) :
    thermNext u g = thermNext s g := by
  have last : tempOf u g = tempOf s g := by rw [tempOf, control, ← tempOf]
  have twice : ∀ p, metTwice u g p = metTwice s g p := fun p => by
    unfold metTwice
    rw [last, control]
  have limit : get u (pwrClTherm g) PwrClTherm.lTherm = get s (pwrClTherm g) PwrClTherm.lTherm := by rw [get, own, ← get]
  have hot : get u (pwrFldTherm (clusterField g)) PwrFldTherm.hot = get s (pwrFldTherm (clusterField g)) PwrFldTherm.hot := by
    rw [get, field, ← get]
  simp only [thermNext, last, twice, limit, hot]

theorem thermSet_regs (s : State) (g : Nat) : RegsBut (· = pwrClTherm g) s (thermSet s g) :=
  (regsBut_upd (p := (· = pwrClTherm g)) rfl _ _ _).trans (regsBut_upd (p := (· = pwrClTherm g)) rfl _ _ _)

theorem thermSet_spec (s : State) (g : Nat) : get (thermSet s g) (pwrClTherm g) PwrClTherm.lTherm = thermNext s g ∧
    get (thermSet s g) (pwrClTherm g) PwrClTherm.throttle = b2n (decide (thermNext s g < 64)) := by
  have small := thermNext_lt s g
  refine ⟨?_, ?_⟩
  · rw [thermSet, get_upd_same _ _ _ _ (by decide)]
    exact Nat.mod_eq_of_lt small
  · rw [thermSet, get_upd_other _ _ _ _ _ (by decide) (by decide), get_upd_same _ _ _ _ (by decide)]
    cases decide (thermNext s g < 64) <;> rfl

/-- Each cluster of a list of different ones receives the limit that the state before gives it. -/
theorem thermSet_foldl : ∀ (l : List Nat) (s : State), l.Nodup → (∀ g ∈ l, g < 240) →
    l.foldl thermSet s = { s with regs := (l.foldl thermSet s).regs } ∧
    RegsBut (fun o => ∃ g ∈ l, o = pwrClTherm g) s (l.foldl thermSet s) ∧
    ∀ g ∈ l, get (l.foldl thermSet s) (pwrClTherm g) PwrClTherm.lTherm = thermNext s g ∧
      get (l.foldl thermSet s) (pwrClTherm g) PwrClTherm.throttle = b2n (decide (thermNext s g < 64))
  | [], s, _, _ => ⟨rfl, .refl _ s, by simp⟩
  | g :: l, s, distinct, low => by
    obtain ⟨apart, distinct'⟩ := List.nodup_cons.mp distinct
    obtain ⟨same, regs, set⟩ := thermSet_foldl l (thermSet s g) distinct' fun x hx => low x (List.mem_cons_of_mem _ hx)
    have first := thermSet_regs s g
    have control : (thermSet s g).control = s.control := rfl
    refine ⟨same, (first.mono ?_).trans (regs.mono ?_), fun x hx => ?_⟩
    · exact fun o ho => ⟨g, List.mem_cons_self, ho⟩
    · exact fun o ⟨x, hx, ho⟩ => ⟨x, List.mem_cons_of_mem _ hx, ho⟩
    · rcases List.mem_cons.mp hx with rfl | hx
      · have kept : ¬ ∃ y ∈ l, pwrClTherm x = pwrClTherm y := fun ⟨y, hy, e⟩ =>
          pwrClTherm_ne (fun h => apart (by rwa [h])) e
        obtain ⟨limit, throttle⟩ := thermSet_spec s x
        exact ⟨(regs.get_eq kept _).trans limit, (regs.get_eq kept _).trans throttle⟩
      · have ne : x ≠ g := fun h => apart (by rwa [← h])
        have high := low x (List.mem_cons_of_mem _ hx)
        have next : thermNext (thermSet s g) x = thermNext s x :=
          thermNext_congr (first _ (pwrClTherm_ne ne)) (first _ (by simp only [pwrFldTherm, pwrClTherm]; have := low g List.mem_cons_self; omega)) control
        rw [← next]
        exact set x hx

/-- The limit of R394, in the cases of its two thresholds. -/
theorem thermNext_spec {s : State} {g : Nat} {l t t' : Int} (limit : (get s (pwrClTherm g) PwrClTherm.lTherm : Nat) = l)
    (last : tempOf s g = some t) (before : tget (fun _ => none) s.control.prevTemp g = some t') :
    (950 < t → 950 < t' → get s (pwrFldTherm (clusterField g)) PwrFldTherm.hot = 0 →
      (thermNext s g : Nat) = max 1 (l - 2 * ((t - 950 + 9) / 10))) ∧
    (t < 930 → get s (pwrFldTherm (clusterField g)) PwrFldTherm.hot = 0 → (thermNext s g : Nat) = min 64 (l + 1)) ∧
    (930 ≤ t → t ≤ 950 → get s (pwrFldTherm (clusterField g)) PwrFldTherm.hot = 1 → (thermNext s g : Nat) = max 1 (l / 2)) := by
  have met : metTwice s g (fun x => decide (950 < x)) = (decide (950 < t') && decide (950 < t)) := by
    rw [metTwice, before, last]
  subst limit
  simp only [thermNext, last, met, Bool.and_eq_true, decide_eq_true_eq]
  refine ⟨fun h h' cool => ?_, fun h cool => ?_, fun h h' hot => ?_⟩
  · rw [if_neg (by rw [cool]; decide), if_pos ⟨h', h⟩]
    omega
  · rw [if_neg (by rw [cool]; decide), if_neg (fun k => absurd k.2 (by omega)), if_pos h]
    omega
  · rw [if_pos hot, if_neg (fun k => absurd k.2 (by omega)), if_neg (by omega)]
    omega

theorem completes_thermalUpdate {s : State} (on : On s) : Completes .thermalUpdate s fun u => u = { s with regs := u.regs } ∧
    RegsBut (fun o => ∃ g, g < 240 ∧ o = pwrClTherm g) s u ∧
    ∀ g, g < 240 → get u (pwrClTherm g) PwrClTherm.lTherm = thermNext s g ∧
      get u (pwrClTherm g) PwrClTherm.throttle = b2n (decide (thermNext s g < 64)) := by
  obtain ⟨same, regs, set⟩ := thermSet_foldl (List.range 240) s List.nodup_range fun _ => List.mem_range.mp
  exact ⟨_, exec_thermalUpdate on, same, regs.mono fun o ⟨g, hg, ho⟩ => ⟨g, List.mem_range.mp hg, ho⟩,
    fun g hg => set g (List.mem_range.mpr hg)⟩

/-! ### A cluster's sample (R392, R393, R527) -/

/-- A sensor's sample is taken, and the one before it kept. -/
def tempTaken (i : Nat) (t : Int) (s : State) : State :=
  ctl (fun c => { c with prevTemp := tset (fun _ => none) i (tget (fun _ => none) c.lastTemp i) c.prevTemp
                         lastTemp := tset (fun _ => none) i (some t) c.lastTemp }) s

theorem tempTaken_spec (i : Nat) (t : Int) (s : State) : tempOf (tempTaken i t s) i = some t ∧
    tget (fun _ => none) (tempTaken i t s).control.prevTemp i = tempOf s i ∧
    (tempTaken i t s).control.heat = s.control.heat ∧ tempTaken i t s = { s with control := (tempTaken i t s).control } :=
  ⟨tget_tset_same _ _ _ _, tget_tset_same _ _ _ _, rfl, rfl⟩

/-- Since when a cluster has read 85 °C or below. -/
def coolNoted (g : Nat) (t : Int) (s : State) : State :=
  if t ≤ 850 then
    (match tget (fun _ => none) s.control.coolSince g with
     | some _ => s
     | none => ctl (fun c => { c with coolSince := tset (fun _ => none) g (some s.devtime) c.coolSince }) s)
  else ctl (fun c => { c with coolSince := tset (fun _ => none) g none c.coolSince }) s

theorem coolNoted_same (g : Nat) (t : Int) (s : State) :
    coolNoted g t s = { s with control := { s.control with coolSince := (coolNoted g t s).control.coolSince } } := by
  unfold coolNoted
  split
  · split <;> rfl
  · rfl

/-- The sample of a cluster as it is taken, before its thresholds are compared. -/
def clusterSampled (g : ClusterId) (t : Int) (s : State) : State :=
  noteCycle (coolNoted g t (upd (pwrClTherm g) PwrClTherm.temp (unsigned 8 (t / 10)) (tempTaken g t s)))

/-- The controller's record of cycles and the lifetime counts change, and no temperature. -/
theorem noteCycle_same (s : State) : (noteCycle s) = { s with
    life := (noteCycle s).life, control := { s.control with cycleArmed := (noteCycle s).control.cycleArmed } } := by
  unfold noteCycle
  split
  · rfl
  · dsimp only
    split
    · rfl
    · split <;> rfl

theorem clusterSampled_spec (g : ClusterId) (t : Int) (s : State) : tempOf (clusterSampled g t s) g = some t ∧
    tget (fun _ => none) (clusterSampled g t s).control.prevTemp g = tempOf s g ∧
    (clusterSampled g t s).control.heat = s.control.heat ∧
    get (clusterSampled g t s) (pwrClTherm g) PwrClTherm.temp = unsigned 8 (t / 10) ∧
    RegsBut (· = pwrClTherm g) s (clusterSampled g t s) ∧
    clusterSampled g t s = { s with
      regs := (clusterSampled g t s).regs, control := (clusterSampled g t s).control, life := (clusterSampled g t s).life } := by
  obtain ⟨last, before, heat, same⟩ := tempTaken_spec g t s
  have cycle := noteCycle_same (coolNoted g t (upd (pwrClTherm g) PwrClTherm.temp (unsigned 8 (t / 10)) (tempTaken g t s)))
  rw [← clusterSampled, coolNoted_same] at cycle
  have regs : (clusterSampled g t s).regs = (upd (pwrClTherm g) PwrClTherm.temp (unsigned 8 (t / 10)) s).regs := by
    rw [cycle]
    rfl
  have reads : ∀ o, rd (clusterSampled g t s) o = rd (upd (pwrClTherm g) PwrClTherm.temp (unsigned 8 (t / 10)) s) o := fun o =>
    congrArg (fun r => tget regReset r o) regs
  refine ⟨?_, ?_, ?_, ?_, fun o ho => (reads o).trans (rd_upd_ne ho _ _ s), ?_⟩
  · rw [tempOf, cycle]
    exact last
  · rw [cycle]
    exact before
  · rw [cycle]
    exact heat
  · rw [get, reads, ← get, get_upd_same _ _ _ _ (by decide)]
    exact Nat.mod_eq_of_lt (by simp only [unsigned, PwrClTherm.temp]; omega)
  · rw [cycle]
    rfl

theorem metTwice_eq {s : State} {i : Nat} {t : Int} (last : tempOf s i = some t) (p : Int → Bool) :
    metTwice s i p = ((tget (fun _ => none) s.control.prevTemp i).elim false p && p t) := by
  rw [metTwice, last]
  cases tget (fun _ => none) s.control.prevTemp i <;> rfl

theorem exec_tempSample_cluster {g : ClusterId} {t : Int} {s : State} (on : On s) :
    exec (.tempSample (.cluster g) t) s = .next (
      if metTwice (clusterSampled g t s) g (fun x => decide (1150 ≤ x)) && (decide
          (get (clusterSampled g t s) (pwrClStat g) PwrClStat.state = 1 ∨
            get (clusterSampled g t s) (pwrClStat g) PwrClStat.state = 2 ∨
            get (clusterSampled g t s) (pwrClStat g) PwrClStat.state = 3) &&
          !((clusterSampled g t s).power.ramping.contains g.val)) then thermalOff g (clusterSampled g t s)
      else clusterSampled g t s) := by
  exact congrArg Host.Outcome.next (powered_on on _)

section

variable {g : ClusterId} {t : Int} {s : State} (on : On s)

include on

theorem completes_tempSample_cluster (below : t < 1150) : Completes (.tempSample (.cluster g) t) s fun u =>
    tempOf u g = some t ∧ get u (pwrClTherm g) PwrClTherm.temp = unsigned 8 (t / 10) ∧ RegsBut (· = pwrClTherm g) s u ∧
    u = { s with regs := u.regs, control := u.control, life := u.life } := by
  obtain ⟨last, -, -, shown, regs, same⟩ := clusterSampled_spec g t s
  have eq := exec_tempSample_cluster (g := g) (t := t) on
  have cool : metTwice (clusterSampled g t s) g (fun x => decide (1150 ≤ x)) = false := by
    rw [metTwice_eq last, decide_eq_false (by omega), Bool.and_false]
  rw [cool, Bool.false_and, if_neg Bool.false_ne_true] at eq
  exact ⟨_, eq, last, shown, regs, same⟩

end

/-! ### The switch-off for heat (R395, R443, R445) -/

theorem clusterTiles_congr {s u : State} (boot : u.boot.map = s.boot.map) (g : Nat) : clusterTiles u g = clusterTiles s g := by
  have site : siteOf u = siteOf s := by
    funext t
    rw [siteOf, siteOf, boot]
  have live : fieldLive u = fieldLive s := by
    funext f
    rw [fieldLive, fieldLive, boot]
  have count : tileCount u = tileCount s := by rw [tileCount, tileCount, liveFields, liveFields, live]
  have at' : tileAt u = tileAt s := by
    funext n
    rw [tileAt, tileAt, count, site]
  rw [clusterTiles, clusterTiles, at']

theorem remapKnown_congr {s u : State} (queue : u.boot.remapQueue = s.boot.remapQueue) (remap : u.boot.remap = s.boot.remap)
    (t : Nat) : remapKnown u t = remapKnown s t := by
  unfold remapKnown
  rw [queue, remap]

/-- No remap is requested of tiles whose remap runs or waits. -/
theorem remapRequest_known {ts : List Nat} {s : State} (known : ∀ t ∈ ts, remapKnown s t = true) (cause : Nat) :
    remapRequest ts cause s = s := by
  have none : ((ts.filter fun t => !remapKnown s t).map fun t => (t, cause)) = [] := by
    rw [List.map_eq_nil_iff, List.filter_eq_nil_iff]
    exact fun t ht => by simp [known t ht]
  unfold remapRequest
  rw [none]
  rfl

/-- A cluster is marked COOLING, the switch-off counted and logged. -/
def heatMarked (g : Nat) (s : State) : State :=
  let times := heatTimes s g ++ [s.devtime]
  let was := (clusterSites g).map fun n => (n, mapByte s.boot.map n)
  let s := ctl (fun c => { c with heat := tset (fun _ => []) g times c.heat, heatWas := was
                                  coolSince := tset (fun _ => none) g none c.coolSince }) s
  let s := upd (pwrClTherm g) PwrClTherm.offs (min 3 times.length) (upd (pwrClTherm g) PwrClTherm.cooling 1 s)
  logCoded sevDegrade kState bPwr 395 0 4 g (exemptFall s)

theorem plain_pwrClTherm (g : ClusterId) : PlainReg (pwrClTherm g) := by
  simp only [PlainReg, pwrClTherm]
  omega

theorem heatMarked_spec (g : ClusterId) (s : State) : get (heatMarked g s) (pwrClTherm g) PwrClTherm.cooling = 1 ∧
    get (heatMarked g s) (pwrClTherm g) PwrClTherm.offs = min 3 ((heatTimes s g).length + 1) ∧
    (heatMarked g s).boot = s.boot ∧ (heatMarked g s).hbm = s.hbm ∧ (heatMarked g s).links = s.links := by
  unfold heatMarked
  dsimp only
  generalize hv : upd (pwrClTherm g) PwrClTherm.offs _ _ = v
  have apart : pwrClTherm g ≠ pwrSlopeStat := by
    simp only [pwrClTherm, pwrSlopeStat]
    omega
  have kept : ∀ f, get (logCoded sevDegrade kState bPwr 395 0 4 g (exemptFall v)) (pwrClTherm g) f =
      get v (pwrClTherm g) f := fun f => by
    rw [get, rd_logCoded (not_reportReg_of_plain (plain_pwrClTherm g)), ← get]
    exact get_upd_ne apart _ _ _ _
  obtain ⟨-, same⟩ := logCoded_reports sevDegrade kState bPwr 395 0 4 g (exemptFall v)
  refine ⟨?_, ?_, ?_, ?_, ?_⟩
  · rw [kept, ← hv, get_upd_other _ _ _ _ _ (by decide) (by decide), get_upd_same _ _ _ _ (by decide)]
    rfl
  · rw [kept, ← hv, get_upd_same _ _ _ _ (by decide), List.length_append]
    exact Nat.mod_eq_of_lt (lt_of_le_of_lt (min_le_left _ _) (by decide))
  · rw [same, ← hv]
    rfl
  · rw [same, ← hv]
    rfl
  · rw [same, ← hv]
    rfl

/-- The sites of a cluster take the status that its switch-off gives them, and go off; a batch on its tiles fails. -/
def heatCut (g : Nat) (third : Bool) (s : State) : State :=
  let ts := clusterTiles s g
  let s := sitesLost (clusterSites g) (heatSites g third s)
  if ts.isEmpty then s else batchFailCluster ts s

/-- What the switch-off leaves before its remaps are requested. -/
def heatRamping (g : Nat) (s : State) : State :=
  { s with power := { s.power with ramping := s.power.ramping ++ [g]
                                   waiting := s.power.waiting.filter fun r => r.cluster != g } }

theorem thermalOff_eq (g : Nat) (s : State) : thermalOff g s = remapRequest (clusterTiles (heatMarked g s) g) 4
    (heatRamping g (heatCut g (decide (3 ≤ (heatTimes s g ++ [s.devtime]).length)) (heatMarked g s))) := rfl

/-- Work that ends leaves what its sites' switches, links and memories hold. -/
theorem heatCut_spec (g : ClusterId) (third : Bool) (s : State) :
    rd (heatCut g third s) (pwrClTherm g) = rd s (pwrClTherm g) ∧
    (heatCut g third s).boot.remapQueue = s.boot.remapQueue ∧ (heatCut g third s).boot.remap = s.boot.remap ∧
    (∀ n ∈ clusterSites g, n ∉ (heatCut g third s).power.siteOn) ∧
    (heatCut g third s).hbm = s.hbm ∧ (heatCut g third s).links = s.links := by
  have lost := tilesLost_workLost ((clusterSites g).filterMap (tileAt (heatSites g third s))) (heatSites g third s)
  have failed : WorkLost (sitesLost (clusterSites g) (heatSites g third s)) (heatCut g third s) :=
    .ite (.refl _) (batchFailCluster_workLost _ _)
  have off : ∀ n ∈ clusterSites g, n ∉ (sitesLost (clusterSites g) (heatSites g third s)).power.siteOn := fun n hn => by
    simp [sitesLost, hn]
  have same : sitesLost (clusterSites g) (heatSites g third s) = { tilesLost _ (heatSites g third s) with
      power := (sitesLost (clusterSites g) (heatSites g third s)).power } := rfl
  have kept : rd (sitesLost (clusterSites g) (heatSites g third s)) (pwrClTherm g) = rd s (pwrClTherm g) :=
    lost.regs _ (plain_pwrClTherm g)
  generalize sitesLost (clusterSites g) (heatSites g third s) = v at failed off same kept
  refine ⟨(failed.regs _ (plain_pwrClTherm g)).trans kept, ?_, ?_, ?_, ?_, ?_⟩
  · rw [failed.same, same, lost.same]
    rfl
  · rw [failed.same, same, lost.same]
    rfl
  · rw [failed.same]
    exact off
  · rw [failed.same, same, lost.same]
    rfl
  · rw [failed.same, same, lost.same]
    rfl

theorem thermalOff_spec {g : ClusterId} {s : State} (known : ∀ x ∈ clusterTiles s g, remapKnown s x = true) :
    get (thermalOff g s) (pwrClTherm g) PwrClTherm.cooling = 1 ∧
    get (thermalOff g s) (pwrClTherm g) PwrClTherm.offs = min 3 ((heatTimes s g).length + 1) ∧
    g.val ∈ (thermalOff g s).power.ramping ∧ (∀ n ∈ clusterSites g, n ∉ (thermalOff g s).power.siteOn) ∧
    (thermalOff g s).hbm = s.hbm ∧ (thermalOff g s).links = s.links := by
  obtain ⟨cooling, offs, boot, hbm, links⟩ := heatMarked_spec g s
  have tiles : clusterTiles (heatMarked g s) g = clusterTiles s g := clusterTiles_congr (by rw [boot]) g
  rw [thermalOff_eq, tiles]
  generalize heatMarked g s = v at cooling offs boot hbm links
  obtain ⟨reg, queue, remap, off, hbm', links'⟩ :=
    heatCut_spec g (decide (3 ≤ (heatTimes s g ++ [s.devtime]).length)) v
  generalize heatCut g (decide (3 ≤ (heatTimes s g ++ [s.devtime]).length)) v = w at reg queue remap off hbm' links'
  have known' : ∀ x ∈ clusterTiles s g, remapKnown (heatRamping g w) x = true := fun x hx =>
    (remapKnown_congr (u := heatRamping g w) (queue.trans (by rw [boot])) (remap.trans (by rw [boot])) x).trans (known x hx)
  rw [remapRequest_known known']
  exact ⟨(congrArg (getF · _) reg).trans cooling, (congrArg (getF · _) reg).trans offs,
    List.mem_append_right _ List.mem_cons_self, off, hbm'.trans hbm, links'.trans links⟩

theorem completes_tempSample_off {g : ClusterId} {t t0 : Int} {s : State} (on : On s) (before : tempOf s g = some t0)
    (high : 1150 ≤ t0) (high' : 1150 ≤ t) (least : 1 ≤ get s (pwrClStat g) PwrClStat.state)
    (most : get s (pwrClStat g) PwrClStat.state ≤ 3) (steady : g.val ∉ s.power.ramping)
    (known : ∀ x ∈ clusterTiles s g, remapKnown s x = true) : Completes (.tempSample (.cluster g) t) s fun u =>
      get u (pwrClTherm g) PwrClTherm.cooling = 1 ∧
      get u (pwrClTherm g) PwrClTherm.offs = min 3 ((heatTimes s g).length + 1) ∧ g.val ∈ u.power.ramping ∧
      (∀ n ∈ clusterSites g, n ∉ u.power.siteOn) ∧ u.hbm = s.hbm ∧ u.links = s.links := by
  obtain ⟨last, prev, heat, -, regs, same⟩ := clusterSampled_spec g t s
  have eq := exec_tempSample_cluster (g := g) (t := t) on
  have hot : metTwice (clusterSampled g t s) g (fun x => decide (1150 ≤ x)) = true := by
    rw [metTwice_eq last, prev, before]
    simp [high, high']
  have stat : get (clusterSampled g t s) (pwrClStat g) PwrClStat.state = get s (pwrClStat g) PwrClStat.state :=
    regs.get_eq (by simp only [pwrClStat, pwrClTherm]; omega) _
  have power : (clusterSampled g t s).power = s.power := by rw [same]
  have boot : (clusterSampled g t s).boot = s.boot := by rw [same]
  have runs : get s (pwrClStat g) PwrClStat.state = 1 ∨ get s (pwrClStat g) PwrClStat.state = 2 ∨
      get s (pwrClStat g) PwrClStat.state = 3 := by omega
  rw [hot, stat, decide_eq_true runs, power, if_pos (by simpa using steady)] at eq
  have times : heatTimes (clusterSampled g t s) g = heatTimes s g := by
    rw [heatTimes, heat, same]
    rfl
  have known' : ∀ x ∈ clusterTiles (clusterSampled g t s) g, remapKnown (clusterSampled g t s) x = true := fun x hx => by
    rw [remapKnown_congr (s := s) (by rw [boot]) (by rw [boot])]
    exact known x (by rwa [clusterTiles_congr (s := s) (by rw [boot])] at hx)
  have hbm : (clusterSampled g t s).hbm = s.hbm := by rw [same]
  have links : (clusterSampled g t s).links = s.links := by rw [same]
  have off := thermalOff_spec known'
  rw [times, hbm, links] at off
  exact ⟨_, eq, off⟩

/-! ### A fabric sensor's sample (R393) -/

/-- The sample of a fabric sensor as it is taken. -/
def fabricSampled (f : FieldId) (t : Int) (s : State) : State :=
  upd (pwrFldTherm f) PwrFldTherm.temp (unsigned 8 (t / 10)) (tempTaken (240 + f) t s)

theorem exec_tempSample_fabric {f : FieldId} {t : Int} {s : State} (on : On s) :
    exec (.tempSample (.fabric f) t) s = .next (
      if metTwice (fabricSampled f t s) (240 + f) (fun x => decide (1100 ≤ x)) then
        upd (pwrFldTherm f) PwrFldTherm.hot 1 (fabricSampled f t s)
      else if t < 1100 then upd (pwrFldTherm f) PwrFldTherm.hot 0 (fabricSampled f t s) else fabricSampled f t s) :=
  congrArg Host.Outcome.next (powered_on on _)

/-- HOT is written after a sample. -/
theorem hotSet_spec (f : FieldId) (t : Int) (x : Nat) (s : State) :
    get (upd (pwrFldTherm f) PwrFldTherm.hot x (fabricSampled f t s)) (pwrFldTherm f) PwrFldTherm.hot = x % 2 ∧
    get (upd (pwrFldTherm f) PwrFldTherm.hot x (fabricSampled f t s)) (pwrFldTherm f) PwrFldTherm.temp = unsigned 8 (t / 10) ∧
    RegsBut (· = pwrFldTherm f) s (upd (pwrFldTherm f) PwrFldTherm.hot x (fabricSampled f t s)) := by
  refine ⟨get_upd_same _ _ _ _ (by decide), ?_, ?_⟩
  · rw [get_upd_other _ _ _ _ _ (by decide) (by decide), fabricSampled, get_upd_same _ _ _ _ (by decide)]
    exact Nat.mod_eq_of_lt (by simp only [unsigned, PwrFldTherm.temp]; omega)
  · exact (regsBut_upd (p := (· = pwrFldTherm f)) rfl _ _ (tempTaken (240 + f) t s)).trans
      (regsBut_upd (p := (· = pwrFldTherm f)) rfl _ _ _)

theorem completes_tempSample_fabric {f : FieldId} {t : Int} {s : State} (on : On s) (below : t < 1100) :
    Completes (.tempSample (.fabric f) t) s fun u => get u (pwrFldTherm f) PwrFldTherm.hot = 0 ∧
      get u (pwrFldTherm f) PwrFldTherm.temp = unsigned 8 (t / 10) ∧ RegsBut (· = pwrFldTherm f) s u ∧
      u = { s with regs := u.regs, control := u.control } := by
  have last : tempOf (fabricSampled f t s) (240 + f) = some t := (tempTaken_spec (240 + f) t s).1
  have eq := exec_tempSample_fabric (f := f) (t := t) on
  have cool : metTwice (fabricSampled f t s) (240 + f) (fun x => decide (1100 ≤ x)) = false := by
    rw [metTwice_eq last, decide_eq_false (by omega), Bool.and_false]
  rw [cool, if_neg Bool.false_ne_true, if_pos below] at eq
  obtain ⟨hot, temp, regs⟩ := hotSet_spec f t 0 s
  exact ⟨_, eq, hot, temp, regs, rfl⟩

theorem completes_tempSample_hot {f : FieldId} {t t0 : Int} {s : State} (on : On s)
    (before : tempOf s (240 + f.val) = some t0) (high : 1100 ≤ t0) (high' : 1100 ≤ t) :
    Completes (.tempSample (.fabric f) t) s fun u => get u (pwrFldTherm f) PwrFldTherm.hot = 1 ∧
      RegsBut (· = pwrFldTherm f) s u ∧ u = { s with regs := u.regs, control := u.control } := by
  obtain ⟨last, prev, -⟩ := tempTaken_spec (240 + f) t s
  have eq := exec_tempSample_fabric (f := f) (t := t) on
  have met : metTwice (fabricSampled f t s) (240 + f) (fun x => decide (1100 ≤ x)) = true := by
    refine (metTwice_eq (s := tempTaken (240 + f) t s) last _).trans ?_
    rw [prev, before]
    simp [high, high']
  rw [met, if_pos rfl] at eq
  obtain ⟨hot, -, regs⟩ := hotSet_spec f t 1 s
  exact ⟨_, eq, hot, regs, rfl⟩

/-! ### The return of a cooled cluster's sites (R395, R449) -/

/-- A cooled site takes the standby role. -/
def mapCooled (m : MapRecord) (n : Nat) : MapRecord := if mapStatus m n = stCooling then mapSetStatus n stStandby m else m

theorem mapStatus_mapSetStatus {st : Nat} (small : st < 8) (n : Nat) (m : MapRecord) :
    mapStatus (mapSetStatus n st m) n = st := by
  have byte : mapByte (mapSetStatus n st m) n = BitVec.ofNat 8 ((mapByte m n).toNat / 8 * 8 + st) := tget_tset_same _ _ _ _
  have low : (mapByte m n).toNat < 256 := (mapByte m n).isLt
  rw [mapStatus, byte, BitVec.toNat_ofNat, bits, Nat.shiftRight_zero]
  omega

theorem mapStatus_mapSetStatus_ne {n n' : Nat} (h : n' ≠ n) (st : Nat) (m : MapRecord) :
    mapStatus (mapSetStatus n st m) n' = mapStatus m n' := by
  have byte : mapByte (mapSetStatus n st m) n' = mapByte m n' := tget_tset_of_ne _ h _ _
  rw [mapStatus, byte, mapStatus]

theorem mapStatus_mapCooled (m : MapRecord) (n : Nat) :
    mapStatus (mapCooled m n) n = if mapStatus m n = stCooling then stStandby else mapStatus m n := by
  unfold mapCooled
  split
  · exact mapStatus_mapSetStatus (by decide) n m
  · rfl

theorem mapStatus_mapCooled_ne {n n' : Nat} (h : n' ≠ n) (m : MapRecord) : mapStatus (mapCooled m n) n' = mapStatus m n' := by
  unfold mapCooled
  split
  · exact mapStatus_mapSetStatus_ne h _ m
  · rfl

/-- Every site of a list that is COOLING becomes STANDBY, and no other changes. -/
theorem mapCooled_foldl : ∀ (l : List Nat) (m : MapRecord) (n : Nat), mapStatus (l.foldl mapCooled m) n =
    if n ∈ l ∧ mapStatus m n = stCooling then stStandby else mapStatus m n
  | [], m, n => by simp
  | x :: l, m, n => by
    rw [List.foldl_cons, mapCooled_foldl l (mapCooled m x) n]
    by_cases h : n = x
    · subst h
      rw [mapStatus_mapCooled]
      by_cases cool : mapStatus m n = stCooling
      · simp [cool, stStandby, stCooling]
      · simp [cool]
    · simp [mapStatus_mapCooled_ne h, h]

theorem completes_coolingReturn {g : ClusterId} {t : Nat} {s : State} (on : On s)
    (since : tget (fun _ => none) s.control.coolSince g.val = some t) (cooling : get s (pwrClTherm g) PwrClTherm.cooling = 1)
    (long : t + secTicks ≤ s.devtime) (steady : g.val ∉ s.power.ramping) : Completes (.coolingReturn g) s fun u =>
      get u (pwrClTherm g) PwrClTherm.cooling = 0 ∧
      (∀ n ∈ clusterSites g, siteStatus u n = if siteStatus s n = stCooling then stStandby else siteStatus s n) ∧
      (∀ n, n ∉ clusterSites g → siteStatus u n = siteStatus s n) ∧ RegsBut (· = pwrClTherm g) s u ∧
      u = { s with regs := u.regs, boot := u.boot } := by
  have eq : exec (.coolingReturn g) s = .next (upd (pwrClTherm g) PwrClTherm.cooling 0
      { s with boot := { s.boot with map := (clusterSites g).foldl mapCooled s.boot.map, mapDirty := true } }) := by
    refine congrArg Host.Outcome.next ((powered_on on _).trans ?_)
    simp only [since]
    exact if_pos ⟨cooling, long, by simpa using steady⟩
  refine ⟨_, eq, get_upd_same _ _ _ _ (by decide), fun n hn => ?_, fun n hn => ?_,
    regsBut_upd (p := (· = pwrClTherm g)) rfl _ _ _, rfl⟩
  · exact (mapCooled_foldl _ _ n).trans (by rw [siteStatus]; simp [hn])
  · exact (mapCooled_foldl _ _ n).trans (by rw [siteStatus]; simp [hn])

/-! ### The die trip (R396, R401, R553) -/

theorem nvmRegs_pending (s s' : State) : (nvmRegs s s').pending = s'.pending := by
  unfold nvmRegs
  simp only [upd_pending, put_pending]

theorem nvmOnly_pending (s : State) : (nvmOnly s).pending = s.pending := nvmRegs_pending s _

/-- What NVM gives holds no memory, work, link or session; OTP and the stored map stand. -/
theorem nvmOnly_volatile (s : State) : (nvmOnly s).hbm = [] ∧ (nvmOnly s).tiles = [] ∧ (nvmOnly s).links = [] ∧
    (nvmOnly s).net = {} ∧ (nvmOnly s).req = {} ∧ (nvmOnly s).own = {} ∧ (nvmOnly s).svc = {} ∧
    (nvmOnly s).nvm.otp = s.nvm.otp ∧ (nvmOnly s).boot.map = storedMap s :=
  ⟨rfl, rfl, rfl, rfl, rfl, rfl, rfl, rfl, rfl⟩

theorem powerOff_eq (why : OffCause) (s : State) : powerOff why s = { nvmOnly s with
    power := { off := some why, up := [], mated := s.power.mated, latch := some why
               auxFaulted := s.power.auxFaulted } } := rfl

/-- A trip latched over a state without supplies. -/
theorem latchTrip_stopped_of {sensor : TempSensor} {t : Int} {s v : State} (hbm : v.hbm = []) (tiles : v.tiles = [])
    (links : v.links = []) (net : v.net = {}) (req : v.req = {}) (own : v.own = {}) (svc : v.svc = {})
    (otp : v.nvm.otp = s.nvm.otp) (map : v.boot.map = storedMap s) (pending : v.pending = s.pending) {p : PowerState}
    (up : p.up = []) : Stopped .dieTrip s (latchTrip sensor t { v with power := p }) :=
  ⟨rfl, up, hbm, tiles, links, net, req, own, svc, otp, map, pending⟩

theorem latchTrip_stopped (sensor : TempSensor) (t : Int) (s : State) :
    Stopped .dieTrip s (latchTrip sensor t (powerOff .dieTrip s)) := by
  obtain ⟨hbm, tiles, links, net, req, own, svc, otp, map⟩ := nvmOnly_volatile s
  rw [powerOff_eq]
  exact latchTrip_stopped_of (v := nvmOnly s) hbm tiles links net req own svc otp map (nvmOnly_pending s) rfl

theorem completes_dieTrip {sensor : TempSensor} {t0 t : Int} {s : State} (on : On s) (high : 1250 ≤ t0) (high' : 1250 ≤ t) :
    Completes (.dieTrip sensor t0 t) s fun u => Stopped .dieTrip s u ∧ u.power.thermtrip = true ∧
      u.power.tripLatch = some (sensorIndex sensor, (t / 10).toNat) := by
  have eq : exec (.dieTrip sensor t0 t) s = .next (latchTrip sensor t (powerOff .dieTrip s)) := by
    refine congrArg Host.Outcome.next ((if_neg (by omega)).trans ?_)
    simp only [show s.power.off = none from on]
  exact ⟨_, eq, latchTrip_stopped sensor t s, rfl, rfl⟩

/-! ### The coolant (R397, R399) -/

/-- The readings of a sample and what follows from them are shown. -/
def coolShown (tin tout : Int) (flow : Nat) (valid : Bool) (derate : Nat) (s : State) : State :=
  upd pwrCoolStat PwrCoolStat.derateW derate (upd pwrCoolStat PwrCoolStat.flow flow
    (upd pwrCoolStat PwrCoolStat.flowValid (b2n valid) (upd pwrCoolStat PwrCoolStat.tIn (unsigned 16 tin)
      (upd pwrCoolStat PwrCoolStat.tOut (unsigned 16 tout) s))))

theorem coolShown_spec (tin tout : Int) (flow : Nat) (valid : Bool) {derate : Nat} (small : derate ≤ 12000) (s : State) :
    get (coolShown tin tout flow valid derate s) pwrCoolStat PwrCoolStat.tIn = unsigned 16 tin ∧
    get (coolShown tin tout flow valid derate s) pwrCoolStat PwrCoolStat.tOut = unsigned 16 tout ∧
    get (coolShown tin tout flow valid derate s) pwrCoolStat PwrCoolStat.flowValid = b2n valid ∧
    get (coolShown tin tout flow valid derate s) pwrCoolStat PwrCoolStat.derateW = derate ∧
    RegsBut (· = pwrCoolStat) s (coolShown tin tout flow valid derate s) := by
  have one : ∀ (f : Fld) (x : Nat) (v : State), RegsBut (· = pwrCoolStat) v (upd pwrCoolStat f x v) := fun f x v =>
    regsBut_upd (p := (· = pwrCoolStat)) rfl f x v
  refine ⟨?_, ?_, ?_, ?_, ((((one _ _ s).trans (one _ _ _)).trans (one _ _ _)).trans (one _ _ _)).trans (one _ _ _)⟩
  · rw [coolShown, get_upd_other _ _ _ _ _ (by decide) (by decide), get_upd_other _ _ _ _ _ (by decide) (by decide),
      get_upd_other _ _ _ _ _ (by decide) (by decide), get_upd_same _ _ _ _ (by decide)]
    exact Nat.mod_eq_of_lt (by simp only [unsigned, PwrCoolStat.tIn]; omega)
  · rw [coolShown, get_upd_other _ _ _ _ _ (by decide) (by decide), get_upd_other _ _ _ _ _ (by decide) (by decide),
      get_upd_other _ _ _ _ _ (by decide) (by decide), get_upd_other _ _ _ _ _ (by decide) (by decide),
      get_upd_same _ _ _ _ (by decide)]
    exact Nat.mod_eq_of_lt (by simp only [unsigned, PwrCoolStat.tOut]; omega)
  · rw [coolShown, get_upd_other _ _ _ _ _ (by decide) (by decide), get_upd_other _ _ _ _ _ (by decide) (by decide),
      get_upd_same _ _ _ _ (by decide)]
    cases valid <;> rfl
  · rw [coolShown, get_upd_same _ _ _ _ (by decide)]
    exact Nat.mod_eq_of_lt (by simp only [PwrCoolStat.derateW]; omega)

theorem coolShown_workSame (tin tout : Int) (flow : Nat) (valid : Bool) (derate : Nat) (s : State) :
    WorkSame s (coolShown tin tout flow valid derate s) :=
  ((((upd_workSame _ _ _ s).trans (upd_workSame _ _ _ _)).trans (upd_workSame _ _ _ _)).trans (upd_workSame _ _ _ _)).trans
    (upd_workSame _ _ _ _)

/-- The cause of WINTER that the inlet makes or ends. -/
def inletJudged (hot cool : Bool) (s : State) : State :=
  if hot then winterCause 2 s else if cool then winterClear 2 s else s

theorem bit1_or_self (n i : Nat) : bit1 (n ||| 2 ^ i) i = true := by
  rw [bit1, Nat.testBit_or, Nat.testBit_two_pow_self, Bool.or_true]

theorem winterCause_spec {bit : Nat} (small : bit < 5) (s : State) :
    bit1 (get (winterCause bit s) pwrState PwrState.winterCause) bit = true ∧ RegsBut (· = pwrState) s (winterCause bit s) ∧
    winterCause bit s = { s with regs := (winterCause bit s).regs, control := (winterCause bit s).control } := by
  have low : get s pwrState PwrState.winterCause < 2 ^ 5 := Nat.mod_lt _ (by decide)
  unfold winterCause
  dsimp only
  split
  · next h => exact ⟨h, .refl _ s, rfl⟩
  · refine ⟨?_, regsBut_upd (p := (· = pwrState)) rfl PwrState.winterCause _ s, rfl⟩
    have set : get (upd pwrState PwrState.winterCause (get s pwrState PwrState.winterCause ||| 2 ^ bit) s) pwrState
        PwrState.winterCause = get s pwrState PwrState.winterCause ||| 2 ^ bit := by
      rw [get_upd_same _ _ _ _ (by decide)]
      exact Nat.mod_eq_of_lt (Nat.or_lt_two_pow low (Nat.pow_lt_pow_right (by decide) small))
    exact (congrArg (bit1 · bit) set).trans (bit1_or_self _ bit)

theorem winterClear_spec (bit : Nat) (s : State) :
    bit1 (get (winterClear bit s) pwrState PwrState.winterCause) bit = false ∧ RegsBut (· = pwrState) s (winterClear bit s) ∧
    winterClear bit s = { s with regs := (winterClear bit s).regs, control := (winterClear bit s).control } := by
  have low : get s pwrState PwrState.winterCause < 2 ^ 5 := Nat.mod_lt _ (by decide)
  unfold winterClear
  dsimp only
  split
  · next h =>
    have set : get (upd pwrState PwrState.winterCause (get s pwrState PwrState.winterCause - 2 ^ bit) s) pwrState
        PwrState.winterCause = get s pwrState PwrState.winterCause - 2 ^ bit := by
      rw [get_upd_same _ _ _ _ (by decide)]
      exact Nat.mod_eq_of_lt (lt_of_le_of_lt (Nat.sub_le _ _) low)
    have clear : bit1 (get (upd pwrState PwrState.winterCause (get s pwrState PwrState.winterCause - 2 ^ bit) s) pwrState
        PwrState.winterCause) bit = false := (congrArg (bit1 · bit) set).trans (bit1_sub_self h)
    have regs := regsBut_upd (p := (· = pwrState)) rfl PwrState.winterCause (get s pwrState PwrState.winterCause - 2 ^ bit) s
    split
    · exact ⟨clear, regs, rfl⟩
    · exact ⟨clear, regs, rfl⟩
  · next h => exact ⟨by simpa using h, .refl _ s, rfl⟩

theorem inletJudged_spec (hot cool : Bool) (s : State) :
    (hot = true → bit1 (get (inletJudged hot cool s) pwrState PwrState.winterCause) 2 = true) ∧
    (hot = false → cool = true → bit1 (get (inletJudged hot cool s) pwrState PwrState.winterCause) 2 = false) ∧
    RegsBut (· = pwrState) s (inletJudged hot cool s) ∧
    inletJudged hot cool s = { s with regs := (inletJudged hot cool s).regs, control := (inletJudged hot cool s).control } := by
  obtain ⟨set, regs, same⟩ := winterCause_spec (bit := 2) (by decide) s
  obtain ⟨clear, regs', same'⟩ := winterClear_spec 2 s
  match hot, cool with
  | true, _ => exact ⟨fun _ => set, fun h => Bool.noConfusion h, regs, same⟩
  | false, true => exact ⟨fun h => Bool.noConfusion h, fun _ _ => clear, regs', same'⟩
  | false, false => exact ⟨fun h => Bool.noConfusion h, fun _ h => Bool.noConfusion h, .refl _ s, rfl⟩

/-- The entries of a sample whose deratings or cold inlet begin. -/
def coolLogged (inlet low cold : Bool) (s : State) : State :=
  let s := if inlet then logOpen sevDegrade kState bPwr 397 0 0 s else s
  let s := if low then logOpen sevDegrade kState bPwr 397 1 0 s else s
  if cold then logOpen sevNotice kState bPwr 397 2 0 s else s

theorem coolLogged_reports (inlet low cold : Bool) (s : State) : Reports s (coolLogged inlet low cold s) := by
  have one : ∀ (c : Bool) (sev o : Nat) (v : State), Reports v (if c then logOpen sev kState bPwr 397 o 0 v else v) := by
    intro c sev o v
    split
    · exact logOpen_reports _ _ _ _ _ _ v
    · exact .refl v
  exact ((one inlet _ _ s).trans (one low _ _ _)).trans (one cold _ _ _)

theorem lifeMax_keeps (off n k : Nat) (s : State) : RegsBut (fun _ => False) s (lifeMax off n k s) ∧ WorkSame s (lifeMax off n k s) :=
  ⟨fun _ _ => rfl, rfl, rfl, rfl, rfl, rfl, rfl, rfl⟩

/-- A sample: the controller's marks, what is shown, the entries, and the judgement of WINTER. -/
def coolTaken (tin tout : Int) (flow derate : Nat) (valid : Bool) (c : ControlState) (s : State) : State :=
  lifeMax 81 1 (tin / 10).toNat (coolShown tin tout flow valid derate { s with control := c })

theorem coolTaken_spec (tin tout : Int) (flow : Nat) {derate : Nat} (small : derate ≤ 12000) (valid : Bool)
    (c : ControlState) (s : State) : get (coolTaken tin tout flow derate valid c s) pwrCoolStat PwrCoolStat.tIn = unsigned 16 tin ∧
    get (coolTaken tin tout flow derate valid c s) pwrCoolStat PwrCoolStat.tOut = unsigned 16 tout ∧
    get (coolTaken tin tout flow derate valid c s) pwrCoolStat PwrCoolStat.flowValid = b2n valid ∧
    get (coolTaken tin tout flow derate valid c s) pwrCoolStat PwrCoolStat.derateW = derate ∧
    RegsBut (· = pwrCoolStat) s (coolTaken tin tout flow derate valid c s) ∧
    WorkSame s (coolTaken tin tout flow derate valid c s) := by
  obtain ⟨shownIn, shownOut, shownValid, shownDerate, regs⟩ := coolShown_spec tin tout flow valid small { s with control := c }
  have noted : WorkSame s { s with control := c } := ⟨rfl, rfl, rfl, rfl, rfl, rfl, rfl⟩
  have work := noted.trans (coolShown_workSame tin tout flow valid derate { s with control := c })
  have kept : RegsBut (· = pwrCoolStat) s { s with control := c } := fun _ _ => rfl
  have regs' := kept.trans regs
  obtain ⟨regs'', work''⟩ := lifeMax_keeps 81 1 (tin / 10).toNat (coolShown tin tout flow valid derate { s with control := c })
  have same : ∀ f, get (coolTaken tin tout flow derate valid c s) pwrCoolStat f =
      get (coolShown tin tout flow valid derate { s with control := c }) pwrCoolStat f := regs''.get_eq id
  exact ⟨(same _).trans shownIn, (same _).trans shownOut, (same _).trans shownValid, (same _).trans shownDerate,
    regs'.trans (regs''.mono fun _ => False.elim), work.trans work''⟩

theorem not_reportReg_pwrCoolStat : ¬ ReportReg pwrCoolStat := not_reportReg_of_low (by decide) (by decide)

/-- The entries and the judgement leave what a sample shows, and the work. -/
theorem coolJudged_spec {inlet low cold hot cool : Bool} {v u : State}
    (hu : u = inletJudged hot cool (coolLogged inlet low cold v)) :
    (∀ f, get u pwrCoolStat f = get v pwrCoolStat f) ∧
    (hot = true → bit1 (get u pwrState PwrState.winterCause) 2 = true) ∧
    (hot = false → cool = true → bit1 (get u pwrState PwrState.winterCause) 2 = false) ∧ WorkSame v u ∧
    RegsBut (fun o => o = pwrState ∨ ReportReg o) v u := by
  have logged := coolLogged_reports inlet low cold v
  generalize coolLogged inlet low cold v = w at logged hu
  obtain ⟨set, clear, regs, same⟩ := inletJudged_spec hot cool w
  rw [← hu] at set clear regs same
  have judged : WorkSame w u := by
    rw [same]
    exact ⟨rfl, rfl, rfl, rfl, rfl, rfl, rfl⟩
  exact ⟨fun f => (regs.get_eq (by decide) f).trans (logged.1.get_eq not_reportReg_pwrCoolStat f), set, clear,
    logged.workSame.trans judged, (logged.1.mono fun _ => .inr).trans (regs.mono fun _ => .inl)⟩

/-- Whether the inlet derates LS after a sample. -/
def inletDerates (tin : Int) (s : State) : Bool :=
  if s.control.inletDerate then !heldFor s.devtime (heldSince s.devtime s.control.under45 (decide (tin ≤ 450))) (10 * secTicks)
  else heldFor s.devtime (heldSince s.devtime s.control.over45 (decide (450 < tin))) (10 * secTicks)

/-- Whether the flow derates LS after a sample. -/
def flowDerates (valid : Bool) (flow : Nat) (s : State) : Bool :=
  if s.control.flowDerate then
    !heldFor s.devtime (heldSince s.devtime s.control.okFlow (valid && decide (100 ≤ flow))) (10 * secTicks)
  else heldFor s.devtime (heldSince s.devtime s.control.lowFlow (valid && decide (flow < 90))) (10 * secTicks)

theorem exec_coolantSample (tin tout : Int) {s : State} (on : On s) : ∃ flow inlet low cold c,
    exec (.coolantSample tin tout) s = .next (inletJudged
      (heldFor s.devtime (heldSince s.devtime s.control.over50 (decide (500 < tin))) (10 * secTicks))
      (heldFor s.devtime (heldSince s.devtime s.control.under45 (decide (tin ≤ 450))) (60 * secTicks))
      (coolLogged inlet low cold (coolTaken tin tout flow
        (max 2000 (min 12000 (get s pwrLimit PwrLimit.sustW)) - derated (max 2000 (min 12000 (get s pwrLimit PwrLimit.sustW)))
          (inletDerates tin s) tin (flowDerates (decide (4000 ≤ get s pwrWinStat PwrWinStat.avg1s)) flow s) flow)
        (decide (4000 ≤ get s pwrWinStat PwrWinStat.avg1s)) c s))) :=
  ⟨_, _, _, _, _, congrArg Host.Outcome.next (powered_on on _)⟩

/-- What is shown of the derating while the inlet derates and the flow does not. -/
theorem derate_inlet (sust : Nat) (tin : Int) (f : Nat) :
    sust - derated sust true tin false f = min sust (50 * (tin - 450).toNat) := by
  simp only [derated, if_true, Bool.false_eq_true, if_false]
  omega

theorem inletDerates_of_hot {tin : Int} {s : State} (derating : s.control.inletDerate = true) (hot : 450 < tin) :
    inletDerates tin s = true := by
  rw [inletDerates, if_pos derating, decide_eq_false (by omega)]
  rfl

theorem flowDerates_of_small {flow : Nat} {s : State} (free : s.control.flowDerate = false) : flowDerates false flow s = false := by
  rw [flowDerates, if_neg (by rw [free]; decide)]
  rfl

theorem completes_coolantSample {tin tout : Int} {s : State} (on : On s) : Completes (.coolantSample tin tout) s fun u =>
    get u pwrCoolStat PwrCoolStat.tIn = unsigned 16 tin ∧ get u pwrCoolStat PwrCoolStat.tOut = unsigned 16 tout ∧
    get u pwrCoolStat PwrCoolStat.flowValid = b2n (decide (4000 ≤ get s pwrWinStat PwrWinStat.avg1s)) ∧
    (s.control.inletDerate = true → s.control.flowDerate = false → 450 < tin → get s pwrWinStat PwrWinStat.avg1s < 4000 →
      get u pwrCoolStat PwrCoolStat.derateW =
        min (max 2000 (min 12000 (get s pwrLimit PwrLimit.sustW))) (50 * (tin - 450).toNat)) ∧
    (∀ t0, s.control.over50 = some t0 → t0 + 10 * secTicks ≤ s.devtime → 500 < tin →
      bit1 (get u pwrState PwrState.winterCause) 2 = true) ∧
    (∀ t0, s.control.under45 = some t0 → t0 + 60 * secTicks ≤ s.devtime → tin ≤ 450 →
      bit1 (get u pwrState PwrState.winterCause) 2 = false) ∧ WorkSame s u ∧
    RegsBut (fun o => o = pwrCoolStat ∨ o = pwrState ∨ ReportReg o) s u := by
  obtain ⟨flow, inlet, low, cold, c, eq⟩ := exec_coolantSample tin tout on
  have limit : max 2000 (min 12000 (get s pwrLimit PwrLimit.sustW)) ≤ 12000 := max_le (by decide) (min_le_left _ _)
  generalize max 2000 (min 12000 (get s pwrLimit PwrLimit.sustW)) = sust at eq limit ⊢
  have shown := coolTaken_spec tin tout flow (derate := sust - derated sust (inletDerates tin s) tin
    (flowDerates (decide (4000 ≤ get s pwrWinStat PwrWinStat.avg1s)) flow s) flow) ((Nat.sub_le _ _).trans limit)
    (decide (4000 ≤ get s pwrWinStat PwrWinStat.avg1s)) c s
  generalize coolTaken tin tout flow _ _ c s = v at eq shown
  obtain ⟨shownIn, shownOut, shownValid, shownDerate, regs, work⟩ := shown
  obtain ⟨same, set, clear, work', regs'⟩ := coolJudged_spec (v := v) rfl
  refine ⟨_, eq, (same _).trans shownIn, (same _).trans shownOut, (same _).trans shownValid,
    fun derating free hot small => ?_, fun t0 since long hot => set ?_, fun t0 since long cool => clear ?_ ?_,
    work.trans work', (regs.mono fun _ => .inl).trans (regs'.mono fun _ => .inr)⟩
  · rw [inletDerates_of_hot derating hot, decide_eq_false (by omega), flowDerates_of_small free, derate_inlet] at shownDerate
    exact (same _).trans shownDerate
  · rw [since, decide_eq_true hot]
    exact decide_eq_true long
  · rw [decide_eq_false (by omega)]
    rfl
  · rw [since, decide_eq_true cool]
    exact decide_eq_true long

/-- Settles O48, clause by clause: the limits of an update, the samples of clusters and fabrics, the return of a cooled
cluster, the die trip and the coolant. -/
theorem heatAndCoolant : Obligations.HeatAndCoolant := by
  refine ⟨fun s on => ?_, fun g t s on => ⟨completes_tempSample_cluster on, fun t0 before high high' least most steady _ known =>
    completes_tempSample_off on before high high' least most steady known⟩, fun f t s on => ⟨completes_tempSample_fabric on,
    fun t0 before high high' => completes_tempSample_hot on before high high'⟩, fun g t s on since cooling long steady =>
    completes_coolingReturn on since cooling long steady, fun sensor t0 t s on => completes_dieTrip on,
    fun tin tout s on => completes_coolantSample on⟩
  obtain ⟨u, eq, same, regs, set⟩ := completes_thermalUpdate on
  refine ⟨u, eq, same, regs, fun g hg => ?_⟩
  obtain ⟨limit, throttle⟩ := set g hg
  rw [limit]
  exact ⟨throttle, fun l t t' now last before => thermNext_spec now last before⟩

end Sys2Proof.Machine
end

section
/-! PLLs, the sync strobe and the epoch (R409, R421–R423, R429), and what a fabric reset leaves (R440, R442). -/

namespace Sys2Proof.Machine

open Sys2Proof

/-! ### Values that a canonical change of a table keeps -/

/-- A listed value whose key a change does not meet keeps its place. -/
theorem tget_tmap_kept {α : Type} [DecidableEq α] (d : Nat → α) (p : Nat → Bool) (f : Nat → α → α) {i : Nat}
    (apart : p i = false) : ∀ t : Table α, tget d t i ≠ d i → tget d (tmap d p f t) i = tget d t i
  | [], h => absurd rfl h
  | (k, v) :: r, h => by
    rw [tget] at h ⊢
    split at h
    · exact absurd rfl h
    · next le =>
      split at h
      · next eq =>
        subst eq
        rw [tmap, apart, if_neg Bool.false_ne_true, tget, if_neg le, if_pos rfl, if_neg le, if_pos rfl]
      · next ne =>
        have rest := tget_tmap_kept d p f apart r h
        rw [if_neg le, if_neg ne, tmap]
        split
        · split
          · exact rest
          · rw [tget, if_neg le, if_neg ne, rest]
        · rw [tget, if_neg le, if_neg ne, rest]

/-! ### What a fabric reset leaves (R440, R442) -/

/-- Registers of the fields' pages. -/
def FieldReg (o : Nat) : Prop := 0x20000 ≤ o ∧ o < 0x30000

/-- Compute ends and links are fenced: HBM, the clocks and the time stand, and the fields' registers that do not hold
their reset value. -/
structure Halted (s u : State) : Prop where
  regs : ∀ o, FieldReg o → rd s o ≠ regReset o → rd u o = rd s o
  hbm : u.hbm = s.hbm
  clock : u.clock = s.clock
  devtime : u.devtime = s.devtime

namespace Halted

variable {s v u : State}

theorem refl (s : State) : Halted s s := ⟨fun _ _ _ => rfl, rfl, rfl, rfl⟩

theorem trans (h : Halted s v) (k : Halted v u) : Halted s u :=
  ⟨fun o ho set => (k.regs o ho (by rwa [h.regs o ho set])).trans (h.regs o ho set), k.hbm.trans h.hbm,
    k.clock.trans h.clock, k.devtime.trans h.devtime⟩

theorem put {off : Nat} (h : ¬ FieldReg off) (x : Reg) (s : State) : Halted s (put off x s) :=
  ⟨fun o ho _ => rd_put_ne (fun e => h (by rwa [← e])) x s, rfl, rfl, rfl⟩

theorem upd {off : Nat} (h : ¬ FieldReg off) (f : Fld) (x : Nat) (s : State) : Halted s (upd off f x s) := put h _ s

theorem foldl {α : Type} {f : State → α → State} (l : List α) (h : ∀ x ∈ l, ∀ s, Halted s (f s x)) (s : State) :
    Halted s (l.foldl f s) :=
  foldl_related (R := Halted) .refl .trans l h s

theorem ite {c : Prop} [Decidable c] (h : Halted s v) (k : Halted s u) : Halted s (if c then v else u) := by
  split
  · exact h
  · exact k

end Halted

theorem FieldReg.plain {o : Nat} (h : FieldReg o) : PlainReg o := by
  simp only [FieldReg, PlainReg] at *
  omega

theorem WorkLost.halted {s u : State} (h : WorkLost s u) : Halted s u :=
  ⟨fun o ho _ => h.regs o ho.plain, by rw [h.same], by rw [h.same], by rw [h.same]⟩

theorem Reports.halted {s u : State} (h : Reports s u) : Halted s u := h.workLost.halted

theorem updLink_halted (n : Nat) (f : LinkRun → LinkRun) (s : State) : Halted s (updLink n f s) := ⟨fun _ _ _ => rfl, rfl, rfl, rfl⟩

theorem not_fieldReg_link (n : Nat) : ¬ FieldReg (lnkStat n) ∧ ¬ FieldReg (lnkDrop n) := by
  simp only [FieldReg, lnkStat, lnkDrop]
  omega

theorem leaveBitmap_halted (n : Nat) (s : State) : Halted s (leaveBitmap n s) := .ite (.refl s) (updLink_halted _ _ s)

theorem linkFence_halted (n : Nat) (s : State) : Halted s (linkFence n s) := by
  obtain ⟨stat, drop⟩ := not_fieldReg_link n
  have fenced : ∀ v, Halted v (setLinkSt n lsFenced v) := fun v => (updLink_halted n _ v).trans (.upd stat _ _ _)
  unfold linkFence
  dsimp only
  have begun := updLink_halted n (fun x => { x with fence := true, ctl := [], data := [], ctlStall := none, dataStall := none }) s
  exact .ite (((begun.trans (fenced _)).trans (.upd drop _ _ _)).trans (leaveBitmap_halted n _)) begun

theorem clustersOff_halted (s : State) : Halted s (clustersOff s) := by
  refine ⟨fun o ho set => ?_, rfl, rfl, rfl⟩
  exact tget_tmap_kept regReset _ _ (by simp only [FieldReg] at ho; simp; omega) s.regs set

theorem computeReset_halted (c : ResetCause) (s : State) : Halted s (computeReset c s) := by
  have low : ∀ {o : Nat}, o < 0x20000 → ¬ FieldReg o := fun h k => absurd k.1 (by omega)
  have work := (abandonExecuting_workLost s).halted
  have lost := fun v => (tilesLost_workLost (List.range (tileCount (abandonExecuting s))) v).halted
  have exempt : ∀ v, Halted v (exemptFall v) := fun v => .upd (low (by decide)) _ _ v
  have unmapped : ∀ v : State, Halted v { v with boot := { v.boot with remap := none } } := fun v =>
    ⟨fun _ _ _ => rfl, rfl, rfl, rfl⟩
  have off := (((work.trans (lost _)).trans (exempt _)).trans (clustersOff_halted _)).trans (unmapped _)
  have noted : ∀ v, Halted v (noteReset 1 c (satAdd supResetStat SupResetStat.computeResets 1 v)) := fun v =>
    ((Halted.upd (low (by decide)) _ _ v).trans (.upd (low (by decide)) _ _ _)).trans (.upd (low (by decide)) _ _ _)
  exact ((off.trans (.upd (low (by decide)) SupRemapStat.state 0 _)).trans (noted _)).trans
    (logCoded_reports _ _ _ _ _ _ _ _).halted

/-- A fabric reset up to its marks: links fenced, compute reset, and no change of frequency pending. -/
def fabricHalted (c : ResetCause) (s : State) : State :=
  upd clkStat ClkStat.pending 0 (computeReset c ((List.range 96).foldl (fun s n => linkFence n s)
    (satAdd supResetStat SupResetStat.fabricResets 1 (lifeCount 40 4 1 s))))

theorem fabricHalted_halted (c : ResetCause) (s : State) : Halted s (fabricHalted c s) := by
  have counted : ∀ v, Halted v (satAdd supResetStat SupResetStat.fabricResets 1 v) := fun v =>
    .upd (fun k => absurd k.1 (by decide)) _ _ v
  have lived : ∀ o n k, Halted s (lifeCount o n k s) := fun o n k => ⟨fun _ _ _ => rfl, rfl, rfl, rfl⟩
  exact ((((lived _ _ _).trans (counted _)).trans (.foldl _ (fun n _ v => linkFence_halted n v) _)).trans
    (computeReset_halted c _)).trans (.upd (fun k => absurd k.1 (by decide)) _ _ _)

/-- The marks of a fabric reset that begins. -/
def fabricMarked (c : ResetCause) (s : State) : State :=
  noteReset 2 c { s with
    clock := { s.clock with step := s.clock.step.map fun (st : ClockStep) => { st with ts := none } }
    boot := { s.boot with fabricReset := true, fabricTimes := [] } }

theorem startFabricReset_eq (c : ResetCause) {s : State} (none : s.boot.fabricReset = false) : startFabricReset c s =
    logCoded sevNotice kReset bSup 440 2 (causeCode c) 0 (fabricMarked c (fabricHalted c s)) := by
  unfold startFabricReset
  rw [none]
  rfl

/-- What a fabric reset that begins marks and leaves: the change of frequency loses its T_s, and no other clock changes. -/
structure FabricBegun (c : ResetCause) (s u : State) : Prop where
  runs : u.boot.fabricReset = true
  kind : get u supResetStat SupResetStat.lastKind = 2
  cause : get u supResetStat SupResetStat.lastCause = causeCode c
  regs : ∀ o, FieldReg o → rd s o ≠ regReset o → rd u o = rd s o
  hbm : u.hbm = s.hbm
  clock : u.clock = { s.clock with step := u.clock.step }
  devtime : u.devtime = s.devtime

theorem fabricMarked_begun (c : ResetCause) {s v : State} (h : Halted s v) : FabricBegun c s (fabricMarked c v) where
  runs := rfl
  kind := get_noteReset_kind (by decide) c _
  cause := get_noteReset_cause 2 c _
  regs := fun o ho set => by
    have ne : o ≠ supResetStat := fun e => absurd ho.1 (by rw [e]; decide)
    exact (rd_upd_ne ne _ _ _).trans ((rd_upd_ne ne _ _ _).trans (h.regs o ho set))
  hbm := h.hbm
  clock := congrArg (fun k : ClockState => { k with step := (fabricMarked c v).clock.step }) h.clock
  devtime := h.devtime

theorem FabricBegun.logged {c : ResetCause} {s v u : State} (h : FabricBegun c s v) (k : Reports v u) : FabricBegun c s u := by
  have reset : ¬ ReportReg supResetStat := not_reportReg_of_low (by decide) (by decide)
  obtain ⟨regs, same⟩ := k
  refine ⟨?_, (regs.get_eq reset _).trans h.kind, (regs.get_eq reset _).trans h.cause, fun o ho set =>
    (regs o (not_reportReg_of_plain ho.plain)).trans (h.regs o ho set), ?_, ?_, ?_⟩
  · rw [same]
    exact h.runs
  · rw [same]
    exact h.hbm
  · rw [same]
    exact h.clock
  · rw [same]
    exact h.devtime

/-- A fabric reset begins where none runs. -/
theorem startFabricReset_begun (c : ResetCause) {s : State} (none : s.boot.fabricReset = false) :
    FabricBegun c s (startFabricReset c s) := by
  rw [startFabricReset_eq c none]
  exact (fabricMarked_begun c (fabricHalted_halted c s)).logged (logCoded_reports _ _ _ _ _ _ _ _)

/-! ### PLL lock and its loss (R409) -/

theorem completes_pllLock {f : FieldId} {s : State} (on : On s) (up : Supply.field f ∈ s.power.up)
    (out : f.val ∉ s.clock.locked) : Completes (.pllLock (.field f)) s fun u =>
      f.val ∈ u.clock.locked ∧ (∀ x ∈ s.clock.locked, x ∈ u.clock.locked) ∧ u = { s with clock := u.clock } := by
  have eq : exec (.pllLock (.field f)) s = .next (clk (fun c =>
      { c with locked := c.locked ++ [f.val], lostAt := tset (fun _ => none) f.val none c.lostAt }) s) :=
    congrArg Host.Outcome.next ((powered_on on _).trans (if_pos (by simp [up, out])))
  exact ⟨_, eq, List.mem_append_right _ List.mem_cons_self, fun x hx => List.mem_append_left _ hx, rfl⟩

/-- A field PLL is noted out of lock. -/
def lockLost (f : FieldId) (s : State) : State :=
  clk (fun c => { c with locked := c.locked.filter (· != f.val)
                         lostAt := tset (fun _ => none) f.val (some s.devtime) c.lostAt }) s

theorem completes_pllLockLoss {f : FieldId} {s : State} (on : On s) (locked : f.val ∈ s.clock.locked)
    (none : s.boot.fabricReset = false) : Completes (.pllLockLoss (.field f)) s fun u =>
      f.val ∉ u.clock.locked ∧ u.boot.fabricReset = true ∧ get u supResetStat SupResetStat.lastKind = 2 ∧
      get u supResetStat SupResetStat.lastCause = 3 ∧ u.hbm = s.hbm := by
  have eq : exec (.pllLockLoss (.field f)) s =
      .next (startFabricReset .pllLock (logOpen sevError kFault bClk 409 0 f (lockLost f s))) :=
    congrArg Host.Outcome.next ((powered_on on _).trans (if_pos (by simp [locked])))
  obtain ⟨-, same⟩ := logOpen_reports sevError kFault bClk 409 0 f (lockLost f s)
  generalize logOpen sevError kFault bClk 409 0 f (lockLost f s) = v at eq same
  have begun := startFabricReset_begun .pllLock (s := v) (by rw [same]; exact none)
  refine ⟨_, eq, ?_, begun.runs, begun.kind, begun.cause, begun.hbm.trans (by rw [same]; rfl)⟩
  rw [begun.clock, same]
  simp [lockLost, clk]

theorem completes_pllRelockTimeout {f : FieldId} {t : Nat} {s : State} (on : On s)
    (lost : tget (fun _ => none) s.clock.lostAt f.val = some t) (late : t + 10 * msTicks ≤ s.devtime) :
    Completes (.pllRelockTimeout f) s fun u => get u supResetStat SupResetStat.lastKind = 3 ∧
      get u supResetStat SupResetStat.lastCause = 3 ∧ devState u = .spring ∧ u.hbm = [] := by
  have eq : exec (.pllRelockTimeout f) s = .next (deviceResetBy true .pllLock s) := by
    refine congrArg Host.Outcome.next ((powered_on on _).trans ?_)
    simp only [lost]
    exact if_pos late
  exact ⟨_, eq, get_deviceResetBy_kind _ _ _, get_deviceResetBy_cause _ _ _, deviceResetBy_devState _ _ _, deviceResetBy_hbm _ _ _⟩

theorem completes_seamLoss {s : State} (on : On s) : Completes (.pllLockLoss .seam) s fun u =>
    get u supResetStat SupResetStat.lastKind = 3 ∧ get u supResetStat SupResetStat.lastCause = 8 ∧
    devState u = .spring ∧ u.hbm = [] := by
  have eq : exec (.pllLockLoss .seam) s = .next (deviceResetBy false .seamPll s) := congrArg Host.Outcome.next (powered_on on _)
  exact ⟨_, eq, get_deviceResetBy_kind _ _ _, get_deviceResetBy_cause _ _ _, deviceResetBy_devState _ _ _, deviceResetBy_hbm _ _ _⟩

/-- The mark that CREF is lost leaves the marks of the reset. -/
theorem crefMarked_spec {kind cause : Nat} {s : State} (hk : get s supResetStat SupResetStat.lastKind = kind)
    (hc : get s supResetStat SupResetStat.lastCause = cause) (hbm : s.hbm = []) :
    get (clk (fun c => { c with crefLost := true }) s) supResetStat SupResetStat.lastKind = kind ∧
    get (clk (fun c => { c with crefLost := true }) s) supResetStat SupResetStat.lastCause = cause ∧
    (clk (fun c => { c with crefLost := true }) s).clock.crefLost = true ∧
    (clk (fun c => { c with crefLost := true }) s).hbm = [] := ⟨hk, hc, rfl, hbm⟩

theorem completes_crefLoss {s : State} (on : On s) : Completes .crefLoss s fun u =>
    get u supResetStat SupResetStat.lastKind = 3 ∧ get u supResetStat SupResetStat.lastCause = 8 ∧
    u.clock.crefLost = true ∧ u.hbm = [] := by
  have eq : exec .crefLoss s = .next (clk (fun c => { c with crefLost := true }) (deviceResetBy false .seamPll s)) :=
    congrArg Host.Outcome.next (powered_on on _)
  exact ⟨_, eq, crefMarked_spec (get_deviceResetBy_kind _ _ s) (get_deviceResetBy_cause _ _ s) (deviceResetBy_hbm _ _ s)⟩

/-! ### The sync strobe (R421, R422) -/

theorem faults_reset : ∀ f : FieldId, getF (regReset (timSyncStat f)) TimSyncStat.faults = 0 := by decide

/-- What a field's count and its drift differ from DEVTIME by. -/
def fieldError (s : State) (f : Nat) (drift : Int) : Int := (fieldTime s f : Int) + drift - s.devtime

/-- What the clocks hold of a field stands. -/
structure SyncSame (f : Nat) (s u : State) : Prop where
  offset : tget (fun _ => 0) u.clock.offset f = tget (fun _ => 0) s.clock.offset f
  slew : tget (fun _ => 0) u.clock.slew f = tget (fun _ => 0) s.clock.slew f
  synced : u.clock.synced.contains f = s.clock.synced.contains f

theorem SyncSame.refl (f : Nat) (s : State) : SyncSame f s s := ⟨rfl, rfl, rfl⟩

theorem SyncSame.trans {f : Nat} {s v u : State} (h : SyncSame f s v) (k : SyncSame f v u) : SyncSame f s u :=
  ⟨k.offset.trans h.offset, k.slew.trans h.slew, k.synced.trans h.synced⟩

theorem fieldError_congr {f : Nat} {s u : State} (offset : tget (fun _ => 0) u.clock.offset f = tget (fun _ => 0) s.clock.offset f)
    (time : u.devtime = s.devtime) (drift : Int) : fieldError u f drift = fieldError s f drift := by
  rw [fieldError, fieldTime, offset, time, fieldError, fieldTime]

theorem ClockReports.devtime {p : Nat → Prop} {s u : State} (h : ClockReports p s u) : u.devtime = s.devtime := by rw [h.2]

theorem ClockReports.boot {p : Nat → Prop} {s u : State} (h : ClockReports p s u) : u.boot = s.boot := by rw [h.2]

theorem Reports.clock {s u : State} (h : Reports s u) : u.clock = s.clock := by rw [h.2]

theorem timSyncStat_ne {f f' : Nat} (h : f ≠ f') : timSyncStat f ≠ timSyncStat f' := by
  simp only [timSyncStat]
  omega

theorem fieldReg_timSyncStat {f : Nat} (h : f < 12) : FieldReg (timSyncStat f) := by
  simp only [FieldReg, timSyncStat]
  omega

theorem not_reportReg_timSyncStat {f : Nat} (h : f < 12) : ¬ ReportReg (timSyncStat f) :=
  not_reportReg_of_plain (fieldReg_timSyncStat h).plain

/-- A field's error is shown and its count moved to the difference. -/
def errorShown (f : Nat) (e : Int) (s : State) : State :=
  upd (timSyncStat f) TimSyncStat.error (unsigned 8 (max (-128) (min 127 e)))
    (clk (fun c => { c with offset := tset (fun _ => 0) f e c.offset }) s)

/-- A field is to be slewed by a difference. -/
def slewSet (f : Nat) (e : Int) (s : State) : State := clk (fun c => { c with slew := tset (fun _ => 0) f e c.slew }) s

theorem syncField_eq {f : Nat} {s : State} (synced : s.clock.synced.contains f = true) (drift : Int) :
    syncField s f drift = if (fieldError s f drift).natAbs ≤ 1 then slewSet f 0 (errorShown f (fieldError s f drift) s)
      else if (fieldError s f drift).natAbs ≤ 64 then logOpen sevInfo kCorrected bTim 422 0 f
        (satAdd (timSyncStat f) TimSyncStat.slews 1 (slewSet f (fieldError s f drift) (errorShown f (fieldError s f drift) s)))
      else startFabricReset .syncFault (logOpen sevError kFault bTim 422 1 f
        (satAdd (timSyncStat f) TimSyncStat.faults 1 (errorShown f (fieldError s f drift) s))) := by
  unfold syncField
  rw [synced]
  rfl

/-- A field within 64 ticks: what its first sync or its strobe leaves of the clocks of others. -/
theorem syncField_within {f : Nat} {drift : Int} {s : State} (small : (fieldError s f drift).natAbs ≤ 64) :
    ClockReports (· = timSyncStat f) s (syncField s f drift) ∧ ∀ y, y ≠ f → SyncSame y s (syncField s f drift) := by
  cases synced : s.clock.synced.contains f with
  | false =>
    have eq : syncField s f drift = upd (timSyncStat f) TimSyncStat.error 0
        (clk (fun c => { c with synced := c.synced ++ [f], offset := tset (fun _ => 0) f 0 c.offset
                                slew := tset (fun _ => 0) f 0 c.slew }) s) := by
      unfold syncField
      rw [synced]
      rfl
    rw [eq]
    refine ⟨((Clocked.clk _ _ s).trans (.upd_self _ _ _ _)).clockReports, fun y hy => ⟨tget_tset_of_ne _ hy _ _, tget_tset_of_ne _ hy _ _, ?_⟩⟩
    simp [clk, hy]
  | true =>
    rw [syncField_eq synced, if_pos small]
    generalize fieldError s f drift = e
    have shown : Clocked (· = timSyncStat f) s (errorShown f e s) := (Clocked.clk _ _ s).trans (.upd_self _ _ _ _)
    have others : ∀ y x, y ≠ f → SyncSame y s (slewSet f x (errorShown f e s)) := fun y x hy =>
      ⟨tget_tset_of_ne _ hy _ _, tget_tset_of_ne _ hy _ _, rfl⟩
    split
    · exact ⟨(shown.trans (.clk _ _ _)).clockReports, fun y hy => others y 0 hy⟩
    · have counted := (shown.trans (Clocked.clk _ (fun c => { c with slew := tset (fun _ => 0) f e c.slew }) _)).trans
        (.satAdd_self _ TimSyncStat.slews 1 _)
      have logged := logOpen_reports sevInfo kCorrected bTim 422 0 f
        (satAdd (timSyncStat f) TimSyncStat.slews 1 (slewSet f e (errorShown f e s)))
      refine ⟨counted.clockReports.trans (logged.clockReports _), fun y hy => ?_⟩
      obtain ⟨offset, slew, syn⟩ := others y e hy
      have clock := logged.clock
      exact ⟨(congrArg (fun c : ClockState => tget (fun _ => 0) c.offset y) clock).trans offset,
        (congrArg (fun c : ClockState => tget (fun _ => 0) c.slew y) clock).trans slew,
        (congrArg (fun c : ClockState => c.synced.contains y) clock).trans syn⟩

/-- What a strobe shows of a synced field within 64 ticks. -/
structure Strobed (f : Nat) (e : Int) (s u : State) : Prop where
  error : get u (timSyncStat f) TimSyncStat.error = unsigned 8 e
  slews : get u (timSyncStat f) TimSyncStat.slews =
    min 65535 (get s (timSyncStat f) TimSyncStat.slews + if 1 < e.natAbs then 1 else 0)
  slew : tget (fun _ => 0) u.clock.slew f = if 1 < e.natAbs then e else 0

theorem get_errorShown_error {f : Nat} {e : Int} (small : e.natAbs ≤ 64) (s : State) :
    get (errorShown f e s) (timSyncStat f) TimSyncStat.error = unsigned 8 e := by
  have same : max (-128) (min 127 e) = e := by omega
  rw [errorShown, get_upd_same _ _ _ _ (by decide), same]
  exact Nat.mod_eq_of_lt (by simp only [unsigned, TimSyncStat.error]; omega)

theorem get_errorShown_other {g : Fld} (h : 8 ≤ g.lo) (f : Nat) (e : Int) (s : State) (hg : g.lo + g.w ≤ 64) :
    get (errorShown f e s) (timSyncStat f) g = get s (timSyncStat f) g :=
  (get_upd_other _ TimSyncStat.error g _ _ hg (.inl h)).trans (get_clk _ _ _ _)

theorem syncField_strobed {f : Nat} (hf : f < 12) {drift : Int} {s : State} (synced : s.clock.synced.contains f = true)
    (small : (fieldError s f drift).natAbs ≤ 64) : Strobed f (fieldError s f drift) s (syncField s f drift) := by
  rw [syncField_eq synced, if_pos small]
  generalize fieldError s f drift = e at small
  have low : get s (timSyncStat f) TimSyncStat.slews < 2 ^ 16 := Nat.mod_lt _ (by decide)
  have error := get_errorShown_error small s (f := f)
  have slews := get_errorShown_other (g := TimSyncStat.slews) (by decide) f e s (by decide)
  by_cases near : e.natAbs ≤ 1
  · rw [if_pos near]
    have far : ¬ 1 < e.natAbs := by omega
    refine ⟨(get_clk _ _ _ _).trans error, ((get_clk _ _ _ _).trans slews).trans ?_, (tget_tset_same _ _ _ _).trans (if_neg far).symm⟩
    rw [if_neg far]
    omega
  · rw [if_neg near]
    have far : 1 < e.natAbs := by omega
    have logged := logOpen_reports sevInfo kCorrected bTim 422 0 f
      (satAdd (timSyncStat f) TimSyncStat.slews 1 (slewSet f e (errorShown f e s)))
    have kept : ∀ g, get (logOpen sevInfo kCorrected bTim 422 0 f (satAdd (timSyncStat f) TimSyncStat.slews 1
        (slewSet f e (errorShown f e s)))) (timSyncStat f) g =
        get (satAdd (timSyncStat f) TimSyncStat.slews 1 (slewSet f e (errorShown f e s))) (timSyncStat f) g :=
      logged.1.get_eq (not_reportReg_timSyncStat hf)
    refine ⟨?_, ?_, ?_⟩
    · rw [kept, satAdd, get_upd_other _ _ _ _ _ (by decide) (by decide)]
      exact (get_clk _ _ _ _).trans error
    · rw [kept, get_satAdd_same (by decide), if_pos far]
      exact congrArg (fun n => min 65535 (n + 1)) ((get_clk _ _ _ _).trans slews)
    · rw [logged.clock, if_pos far]
      exact tget_tset_same _ _ _ _

/-- Fields within 64 ticks are synced one after the other: each is shown by its own error. -/
theorem sync_foldl (d : Nat → Int) : ∀ (l : List Nat) (s : State), l.Nodup → (∀ x ∈ l, x < 12) →
    (∀ x ∈ l, (fieldError s x (d x)).natAbs ≤ 64) →
    ClockReports (fun o => ∃ x ∈ l, o = timSyncStat x) s (l.foldl (fun s f => syncField s f (d f)) s) ∧
    (∀ y, y ∉ l → SyncSame y s (l.foldl (fun s f => syncField s f (d f)) s)) ∧
    ∀ x ∈ l, s.clock.synced.contains x = true → Strobed x (fieldError s x (d x)) s (l.foldl (fun s f => syncField s f (d f)) s)
  | [], s, _, _, _ => ⟨((Clocked.refl _ s).clockReports), fun y _ => .refl y s, by simp⟩
  | f :: l, s, distinct, low, small => by
    obtain ⟨apart, distinct'⟩ := List.nodup_cons.mp distinct
    obtain ⟨first, others⟩ := syncField_within (small f List.mem_cons_self)
    have shown := fun h => syncField_strobed (low f List.mem_cons_self) h (small f List.mem_cons_self)
    have ne : ∀ x ∈ l, x ≠ f := fun x hx e => apart (by rwa [← e])
    rw [List.foldl_cons]
    generalize syncField s f (d f) = v at first others shown
    have errors : ∀ x ∈ l, fieldError v x (d x) = fieldError s x (d x) := fun x hx =>
      fieldError_congr (others x (ne x hx)).offset first.devtime _
    obtain ⟨rest, others', shown'⟩ := sync_foldl d l v distinct' (fun x hx => low x (List.mem_cons_of_mem _ hx)) fun x hx => by
      rw [errors x hx]
      exact small x (List.mem_cons_of_mem _ hx)
    generalize l.foldl (fun s f => syncField s f (d f)) v = u at rest others' shown'
    refine ⟨(first.mono ?_).trans (rest.mono ?_), fun y hy => ?_, fun x hx syn => ?_⟩
    · exact fun o ho => ⟨f, List.mem_cons_self, ho⟩
    · exact fun o ⟨x, hx, ho⟩ => ⟨x, List.mem_cons_of_mem _ hx, ho⟩
    · obtain ⟨hf, hl⟩ := not_or.mp fun h => hy (List.mem_cons.mpr h)
      exact (others y hf).trans (others' y hl)
    · rcases List.mem_cons.mp hx with rfl | hx
      · obtain ⟨error, slews, slew⟩ := shown syn
        have kept : ¬ ∃ y ∈ l, timSyncStat x = timSyncStat y := fun ⟨y, hy, e⟩ => timSyncStat_ne (ne y hy).symm e
        have same := fun g => rest.get_eq kept (not_reportReg_timSyncStat (low x List.mem_cons_self)) g
        exact ⟨(same _).trans error, (same _).trans slews, (others' x apart).slew.trans slew⟩
      · obtain ⟨error, slews, slew⟩ := shown' x hx ((others x (ne x hx)).synced.trans syn)
        have kept : get v (timSyncStat x) TimSyncStat.slews = get s (timSyncStat x) TimSyncStat.slews :=
          first.get_eq (timSyncStat_ne (ne x hx)) (not_reportReg_timSyncStat (low x (List.mem_cons_of_mem _ hx))) _
        rw [errors x hx] at error slews slew
        rw [kept] at slews
        exact ⟨error, slews, slew⟩

theorem liveFields_spec (s : State) : (liveFields s).Nodup ∧ ∀ f ∈ liveFields s, f < 12 :=
  ⟨List.nodup_range.filter _, fun _ h => List.mem_range.mp (List.mem_filter.mp h).1⟩

theorem exec_syncStrobe {e : List Int} {s : State} (on : On s) (whole : s.devtime % msTicks = 0) :
    exec (.syncStrobe e) s = .next (
      if ((liveFields s).foldl (fun s f => syncField s f (e.getD f 0)) s).devtime % secTicks = 0 then
        ledgerSnapshot ((liveFields s).foldl (fun s f => syncField s f (e.getD f 0)) s)
      else (liveFields s).foldl (fun s f => syncField s f (e.getD f 0)) s) :=
  congrArg Host.Outcome.next ((powered_on on _).trans (if_neg (not_not.mpr whole)))

theorem completes_syncStrobe {e : List Int} {err : Nat → Int} {s : State} (on : On s) (whole : s.devtime % msTicks = 0)
    (within : s.devtime % secTicks ≠ 0) (errs : ∀ f, err f = (fieldTime s f : Int) + e.getD f 0 - s.devtime)
    (near : ∀ f ∈ liveFields s, s.clock.synced.contains f = true ∧ (err f).natAbs ≤ 64) :
    Completes (.syncStrobe e) s fun u => u.boot = s.boot ∧ WorkSame s u ∧
      (∀ f ∈ liveFields s, get u (timSyncStat f) TimSyncStat.error = unsigned 8 (err f) ∧
        get u (timSyncStat f) TimSyncStat.slews =
          min 65535 (get s (timSyncStat f) TimSyncStat.slews + if 1 < (err f).natAbs then 1 else 0) ∧
        tget (fun _ => 0) u.clock.slew f = if 1 < (err f).natAbs then err f else 0) ∧
      RegsBut (fun o => ReportReg o ∨ ∃ f ∈ liveFields s, o = timSyncStat f) s u := by
  have eq := exec_syncStrobe (e := e) on whole
  obtain ⟨distinct, low⟩ := liveFields_spec s
  have error : ∀ f, fieldError s f (e.getD f 0) = err f := fun f => (errs f).symm
  obtain ⟨reports, -, shown⟩ := sync_foldl (fun f => e.getD f 0) (liveFields s) s distinct low fun f hf => by
    rw [error]
    exact (near f hf).2
  generalize (liveFields s).foldl (fun s f => syncField s f (e.getD f 0)) s = u at eq reports shown
  rw [reports.devtime, if_neg within] at eq
  refine ⟨u, eq, reports.boot, ?_, fun f hf => ?_, reports.1.mono fun _ => Or.symm⟩
  · rw [reports.2]
    exact ⟨rfl, rfl, rfl, rfl, rfl, rfl, rfl⟩
  · obtain ⟨he, hs, hw⟩ := shown f hf (near f hf).1
    rw [error] at he hs hw
    exact ⟨he, hs, hw⟩

/-! ### A field out of time (R422, R442) -/

theorem not_plain_led {o : Nat} (h : 0x9000 ≤ o) (h' : o < 0xA000) : ¬ PlainReg o := fun p => by
  obtain ⟨-, p⟩ := p
  omega

/-- The ledger's snapshot changes its own registers and the log. -/
theorem ledgerSnapshot_workLost (s : State) : WorkLost s (ledgerSnapshot s) := by
  have copied : ∀ v, WorkLost v (snapCopy v) := fun v => by
    refine .foldl _ (fun p hp w => .put ?_ _ w) v
    simp only [List.mem_append, List.mem_flatMap, List.mem_map, List.mem_range, List.mem_cons, List.not_mem_nil, or_false] at hp
    rcases hp with ⟨h, hh, i, hi, rfl⟩ | ⟨i, hi, rfl⟩
    · exact not_plain_led (by simp only [ledSnapReq]; omega) (by simp only [ledSnapReq]; omega)
    · exact not_plain_led (by simp only [ledSnapCnt]; omega) (by simp only [ledSnapCnt]; omega)
  have breach : ∀ v x, WorkLost v (noteBreach v x) := fun v x => by
    have stat : ∀ f n w, WorkLost w (upd ledStat f n w) := fun f n w => .put (not_plain_led (by decide) (by decide)) _ w
    exact .ite (.refl v) (((stat _ _ v).trans (stat _ _ _)).trans (logOpen_reports _ _ _ _ _ _ _).workLost)
  unfold ledgerSnapshot
  exact (((WorkLost.put (not_plain_ledCnt (by decide)) _ s).trans (copied _)).trans
    (.put (not_plain_led (by decide) (by decide)) _ _)).trans (.foldl _ (fun x _ v => breach v x) _)

/-- A synced field more than 64 ticks out begins a fabric reset, with its fault counted. -/
theorem syncField_fault {f : FieldId} {drift : Int} {s : State} (synced : s.clock.synced.contains f.val = true)
    (far : 64 < (fieldError s f drift).natAbs) (none : s.boot.fabricReset = false) :
    (syncField s f drift).boot.fabricReset = true ∧
    get (syncField s f drift) supResetStat SupResetStat.lastKind = 2 ∧
    get (syncField s f drift) supResetStat SupResetStat.lastCause = 4 ∧
    get (syncField s f drift) (timSyncStat f) TimSyncStat.faults = min 255 (get s (timSyncStat f) TimSyncStat.faults + 1) ∧
    (∀ y, y ≠ f.val → tget (fun _ => 0) (syncField s f drift).clock.offset y = tget (fun _ => 0) s.clock.offset y) ∧
    (syncField s f drift).devtime = s.devtime := by
  rw [syncField_eq synced, if_neg (by omega), if_neg (by omega)]
  generalize fieldError s f drift = e
  have logged := logOpen_reports sevError kFault bTim 422 1 f
    (satAdd (timSyncStat f) TimSyncStat.faults 1 (errorShown f e s))
  have counted : get (satAdd (timSyncStat f) TimSyncStat.faults 1 (errorShown f e s)) (timSyncStat f) TimSyncStat.faults =
      min 255 (get s (timSyncStat f) TimSyncStat.faults + 1) := by
    rw [get_satAdd_same (by decide), get_errorShown_other (by decide) _ _ _ (by decide)]
    rfl
  have noted := (logged.1.get_eq (not_reportReg_timSyncStat f.isLt) TimSyncStat.faults).trans counted
  have boot : (logOpen sevError kFault bTim 422 1 f (satAdd (timSyncStat f) TimSyncStat.faults 1 (errorShown f e s))).boot =
      s.boot := by
    rw [logged.2]
    rfl
  have time : (logOpen sevError kFault bTim 422 1 f (satAdd (timSyncStat f) TimSyncStat.faults 1 (errorShown f e s))).devtime =
      s.devtime := by
    rw [logged.2]
    rfl
  have offset : ∀ y, y ≠ f.val → tget (fun _ => 0) (logOpen sevError kFault bTim 422 1 f
      (satAdd (timSyncStat f) TimSyncStat.faults 1 (errorShown f e s))).clock.offset y = tget (fun _ => 0) s.clock.offset y :=
    fun y hy => by
      rw [logged.clock]
      exact tget_tset_of_ne _ hy _ _
  generalize logOpen sevError kFault bTim 422 1 f _ = v at noted boot time offset
  have begun := startFabricReset_begun .syncFault (s := v) (by rw [boot]; exact none)
  have set : rd v (timSyncStat f) ≠ regReset (timSyncStat f) := fun same => by
    have zero : getF (regReset (timSyncStat f)) TimSyncStat.faults = 0 := faults_reset f
    rw [← same, ← get, noted] at zero
    omega
  refine ⟨begun.runs, begun.kind, begun.cause, ?_, fun y hy => ?_, begun.devtime.trans time⟩
  · rw [get, begun.regs _ (fieldReg_timSyncStat f.isLt) set, ← get, noted]
  · rw [begun.clock]
    exact offset y hy

theorem completes_syncStrobe_fault {f : FieldId} {e : List Int} {s : State} (on : On s) (whole : s.devtime % msTicks = 0)
    (synced : s.clock.synced.contains f.val = true) (live : fieldLive s f = true)
    (far : 64 < ((fieldTime s f.val : Int) + e.getD f.val 0 - s.devtime).natAbs)
    (near : ∀ f', f' ≠ f.val → ((fieldTime s f' : Int) + e.getD f' 0 - s.devtime).natAbs ≤ 64)
    (none : s.boot.fabricReset = false) : Completes (.syncStrobe e) s fun u => u.boot.fabricReset = true ∧
      get u supResetStat SupResetStat.lastKind = 2 ∧ get u supResetStat SupResetStat.lastCause = 4 ∧
      get u (timSyncStat f) TimSyncStat.faults = min 255 (get s (timSyncStat f) TimSyncStat.faults + 1) := by
  have eq := exec_syncStrobe (e := e) on whole
  obtain ⟨distinct, low⟩ := liveFields_spec s
  have member : f.val ∈ liveFields s := List.mem_filter.mpr ⟨List.mem_range.mpr f.isLt, live⟩
  obtain ⟨before, after, split⟩ := List.append_of_mem member
  rw [split] at distinct low
  have later : after.Nodup ∧ f.val ∉ after := by
    have tail := (List.nodup_append.mp distinct).2.1
    exact ⟨(List.nodup_cons.mp tail).2, (List.nodup_cons.mp tail).1⟩
  have earlier : before.Nodup ∧ f.val ∉ before := by
    obtain ⟨nodup, -, apart⟩ := List.nodup_append.mp distinct
    exact ⟨nodup, fun h => apart _ h _ List.mem_cons_self rfl⟩
  obtain ⟨reports, kept, -⟩ := sync_foldl (fun f => e.getD f 0) before s earlier.1
    (fun x hx => low x (List.mem_append_left _ hx)) fun x hx => near x fun h => earlier.2 (by rwa [← h])
  have kept' : ∀ y, tget (fun _ => 0) (before.foldl (fun s f => syncField s f (e.getD f 0)) s).clock.offset y =
      tget (fun _ => 0) s.clock.offset y ∨ y ∈ before := fun y => by
    by_cases hy : y ∈ before
    · exact .inr hy
    · exact .inl (kept y hy).offset
  rw [split, List.foldl_append, List.foldl_cons] at eq
  generalize before.foldl (fun s f => syncField s f (e.getD f 0)) s = v at eq reports kept kept'
  have notOwn : ¬ ∃ x ∈ before, timSyncStat f = timSyncStat x := fun ⟨x, hx, h⟩ =>
    timSyncStat_ne (fun k => earlier.2 (by rwa [k])) h
  have faults := reports.get_eq notOwn (not_reportReg_timSyncStat f.isLt) TimSyncStat.faults
  have error : fieldError v f (e.getD f 0) = fieldError s f (e.getD f 0) :=
    fieldError_congr (kept f earlier.2).offset reports.devtime _
  obtain ⟨runs, kind, cause, counted, offset, time⟩ := syncField_fault (s := v) (drift := e.getD f 0)
    ((kept f earlier.2).synced.trans synced) (by rw [error]; exact far) (by rw [reports.boot]; exact none)
  rw [faults] at counted
  generalize syncField v f (e.getD f 0) = w at eq runs kind cause counted offset time
  have disjoint : ∀ x ∈ after, x ∉ before := fun x hx hb => by
    obtain ⟨-, -, apart⟩ := List.nodup_append.mp distinct
    exact apart x hb x (List.mem_cons_of_mem _ hx) rfl
  obtain ⟨reports', -, -⟩ := sync_foldl (fun f => e.getD f 0) after w later.1
    (fun x hx => low x (List.mem_append_right _ (List.mem_cons_of_mem _ hx))) fun x hx => by
      have ne : x ≠ f.val := fun h => later.2 (by rwa [← h])
      rw [fieldError_congr (s := s) ((offset x ne).trans ((kept' x).resolve_right (disjoint x hx))) (time.trans reports.devtime)]
      exact near x ne
  generalize after.foldl (fun s f => syncField s f (e.getD f 0)) w = x at eq reports'
  have notOwn' : ¬ ∃ y ∈ after, timSyncStat f = timSyncStat y := fun ⟨y, hy, h⟩ =>
    timSyncStat_ne (fun k => later.2 (by rwa [k])) h
  have notReset : ¬ ∃ y ∈ after, supResetStat = timSyncStat y := fun ⟨y, _, h⟩ => by
    simp only [supResetStat, timSyncStat] at h
    omega
  have plain : PlainReg supResetStat := ⟨by decide, .inl (by decide)⟩
  have lost : WorkLost x (if x.devtime % secTicks = 0 then ledgerSnapshot x else x) :=
    .ite (ledgerSnapshot_workLost x) (.refl x)
  have own := (fieldReg_timSyncStat f.isLt).plain
  refine ⟨_, eq, ?_, ?_, ?_, ?_⟩
  · rw [lost.same]
    exact (congrArg BootState.fabricReset reports'.boot).trans runs
  · rw [get, lost.regs _ plain, ← get, reports'.get_eq notReset (not_reportReg_of_plain plain), kind]
  · rw [get, lost.regs _ plain, ← get, reports'.get_eq notReset (not_reportReg_of_plain plain), cause]
  · rw [get, lost.regs _ own, ← get, reports'.get_eq notOwn' (not_reportReg_of_plain own), counted]

/-! ### The epoch (R423, R429) -/

theorem completes_epochWrite {m : Master} {half : Half} {v : Nat} {s : State} (on : On s) (own : owner (settle s) = some m) :
    Completes (.epochWrite m half v) s fun u =>
      rd u timEpoch = BitVec.ofNat 64 (mergeHalf half (rd (settle s) timEpoch) v) ∧ get u timStat TimStat.epochSet = 1 ∧
      ReportsAnd (fun o => o = timEpoch ∨ o = timStat) (settle s) u := by
  have eq : exec (.epochWrite m half v) s = .next (epochWrite half v (settle s)) :=
    congrArg Host.Outcome.next (powered_asOwner on own _ _ _)
  refine ⟨_, eq, ?_⟩
  unfold epochWrite
  dsimp only
  generalize settle s = t
  have set := get_upd_same timStat TimStat.epochSet 1 (put timEpoch (BitVec.ofNat 64 (mergeHalf half (rd t timEpoch) v)) t) (by decide)
  have epoch : rd (upd timStat TimStat.epochSet 1 (put timEpoch (BitVec.ofNat 64 (mergeHalf half (rd t timEpoch) v)) t)) timEpoch =
      BitVec.ofNat 64 (mergeHalf half (rd t timEpoch) v) := (rd_upd_ne (by decide) _ _ _).trans (rd_put_same _ _ _)
  have regs : RegsBut (fun o => o = timEpoch ∨ o = timStat) t
      (upd timStat TimStat.epochSet 1 (put timEpoch (BitVec.ofNat 64 (mergeHalf half (rd t timEpoch) v)) t)) :=
    (regsBut_put (.inl rfl) _ t).trans (regsBut_upd (.inr rfl) _ _ _)
  have same : upd timStat TimStat.epochSet 1 (put timEpoch (BitVec.ofNat 64 (mergeHalf half (rd t timEpoch) v)) t) =
      { t with regs := (upd timStat TimStat.epochSet 1 (put timEpoch (BitVec.ofNat 64 (mergeHalf half (rd t timEpoch) v)) t)).regs } := rfl
  generalize upd timStat TimStat.epochSet 1 _ = w at set epoch regs same ⊢
  have logged := (logEvent_reports ⟨sevNotice, kConfig, bTim, epSup, Config.logCode 423 0, 0, (rd t timEpoch).toNat⟩ w).trans
    (logEvent_reports ⟨sevNotice, kConfig, bTim, epSup, Config.logCode 423 0, 1,
      (BitVec.ofNat 64 (mergeHalf half (rd t timEpoch) v)).toNat⟩ _)
  have low : ∀ {o : Nat}, o < 0x9000 → ¬ ReportReg o := fun h => not_reportReg_of_plain ⟨by omega, .inl h⟩
  refine ⟨(logged.1 _ (low (by decide))).trans epoch, (logged.1.get_eq (low (by decide)) _).trans set,
    (regs.mono fun _ => .inl).trans (logged.1.mono fun _ => .inr), ?_⟩
  rw [logged.2, same]

/-- Settles O50, clause by clause: lock and its loss, the seam PLL and CREF, the strobe, and the epoch. -/
theorem pllsAndDeviceTime : Obligations.PllsAndDeviceTime := by
  refine ⟨fun f s on => ⟨fun up out => completes_pllLock on up out, fun locked none => completes_pllLockLoss on locked none,
    fun t lost late => completes_pllRelockTimeout on lost late, fun e whole synced live far near none =>
    completes_syncStrobe_fault on whole synced live far near none⟩, fun s on => ⟨?_, completes_seamLoss on,
    completes_crefLoss on⟩, fun e err s on whole within errs near => completes_syncStrobe on whole within errs near,
    fun m half v s on own => completes_epochWrite on own⟩
  exact ⟨s, congrArg Host.Outcome.next (powered_on on _), rfl⟩

end Sys2Proof.Machine
end

section
/-! What the operations of bring-up leave alone (R433–R439, R450–R454, R471, R484). -/

namespace Sys2Proof.Machine

open Sys2Proof

/-! ### The frame of bring-up -/

/-- Bring-up keeps HBM, the tiles, PWR_STATE and the supplies' cause, and of the boot state all but the map, its records,
the journal and the quotes. -/
structure SpringKept (s u : State) : Prop where
  hbm : u.hbm = s.hbm
  tiles : u.tiles = s.tiles
  pwr : rd u pwrState = rd s pwrState
  off : u.power.off = s.power.off
  boot : u.boot = { s.boot with
    map := u.boot.map, mapDirty := u.boot.mapDirty, nvmMap := u.boot.nvmMap, nvmPrev := u.boot.nvmPrev
    journal := u.boot.journal, quotes := u.boot.quotes, mapLost := u.boot.mapLost }

namespace SpringKept

variable {s v u : State}

theorem refl (s : State) : SpringKept s s := ⟨rfl, rfl, rfl, rfl, rfl⟩

theorem trans (h : SpringKept s v) (k : SpringKept v u) : SpringKept s u :=
  ⟨k.hbm.trans h.hbm, k.tiles.trans h.tiles, k.pwr.trans h.pwr, k.off.trans h.off, by rw [k.boot, h.boot]⟩

theorem put {o : Nat} (h : pwrState ≠ o) (x : Reg) (s : State) : SpringKept s (put o x s) :=
  ⟨rfl, rfl, rd_put_ne h x s, rfl, rfl⟩

theorem upd {o : Nat} (h : pwrState ≠ o) (f : Fld) (x : Nat) (s : State) : SpringKept s (upd o f x s) := put h _ s

theorem foldl {α : Type} {f : State → α → State} (l : List α) (h : ∀ x ∈ l, ∀ s, SpringKept s (f s x)) (s : State) :
    SpringKept s (l.foldl f s) :=
  foldl_related (R := SpringKept) .refl .trans l h s

theorem ite {c : Prop} [Decidable c] (h : SpringKept s v) (k : SpringKept s u) : SpringKept s (if c then v else u) := by
  split
  · exact h
  · exact k

theorem nv (f : NvmState → NvmState) (s : State) : SpringKept s (nv f s) := ⟨rfl, rfl, rfl, rfl, rfl⟩

theorem life (x : LifeState) (s : State) : SpringKept s { s with life := x } := ⟨rfl, rfl, rfl, rfl, rfl⟩

theorem hbmState (x : HbmState) (s : State) : SpringKept s { s with hbmState := x } := ⟨rfl, rfl, rfl, rfl, rfl⟩

theorem updLink (n : Nat) (f : LinkRun → LinkRun) (s : State) : SpringKept s (updLink n f s) := ⟨rfl, rfl, rfl, rfl, rfl⟩

theorem map (m : MapRecord) (s : State) : SpringKept s (bt (fun b => { b with map := m }) s) := ⟨rfl, rfl, rfl, rfl, rfl⟩

theorem devState (h : SpringKept s u) : devState u = devState s := by
  rw [Machine.devState, Machine.devState, get, get, h.pwr, h.off]

end SpringKept

theorem Reports.springKept {s u : State} (h : Reports s u) : SpringKept s u := by
  obtain ⟨regs, same⟩ := h
  exact ⟨by rw [same], by rw [same], regs _ not_reportReg_pwrState, by rw [same], by rw [same]⟩

theorem Recorded.springKept {p : Nat → Prop} {s u : State} (h : Recorded p s u) (hp : ¬ p pwrState) : SpringKept s u := by
  obtain ⟨regs, same⟩ := h
  exact ⟨by rw [same], by rw [same], regs _ hp, by rw [same], by rw [same]⟩

theorem not_recordReg_pwrState : ¬ RecordReg pwrState := not_or.mpr ⟨not_reportReg_pwrState, by decide⟩

theorem nvmPages_springKept (a n : Nat) (s : State) : SpringKept s (nvmPages a n s) :=
  (nvmPages_recorded (fun _ => False) a n s).springKept id

theorem lifeCount_springKept (o n k : Nat) (s : State) : SpringKept s (lifeCount o n k s) := .life _ s

theorem writeDevice_springKept (s : State) : SpringKept s (writeDevice s) :=
  (writeDevice_recorded (fun _ => False) s).springKept id

theorem lifetimeWrite_springKept (s : State) : SpringKept s (lifetimeWrite s) :=
  (lifetimeWrite_recorded s).springKept not_recordReg_pwrState

theorem logCoded_springKept (a b c d e f g : Nat) (s : State) : SpringKept s (logCoded a b c d e f g s) :=
  (logCoded_reports a b c d e f g s).springKept

theorem logOpen_springKept (a b c d e f : Nat) (s : State) : SpringKept s (logOpen a b c d e f s) :=
  (logOpen_reports a b c d e f s).springKept

theorem springStop_springKept (code : Nat) (s : State) : SpringKept s (springStop code s) := by
  have shown := (SpringKept.upd (by decide : pwrState ≠ supBootStat) SupBootStat.stopCode code s).trans
    (.upd (by decide : pwrState ≠ supBootStat) SupBootStat.stage 8 _)
  have raised : ∀ b v, SpringKept v (i3cRaise b v) := fun _ _ => ⟨rfl, rfl, rfl, rfl, rfl⟩
  exact (shown.trans (logCoded_springKept _ _ _ _ _ _ _ _)).trans (raised _ _)

/-! ### The map, its record and the journal (R432, R446, R447) -/

theorem storeMap_springKept (m : MapRecord) (s : State) : SpringKept s (storeMap m s) := by
  have stored : SpringKept s { s with boot := { s.boot with nvmMap := m, nvmPrev := s.boot.nvmMap } } := ⟨rfl, rfl, rfl, rfl, rfl⟩
  exact .ite (stored.trans (nvmPages_springKept _ _ _)) (.refl s)

theorem writeMap_springKept (s : State) : SpringKept s (writeMap s) := by
  have noted : ∀ m, SpringKept s { s with boot := { s.boot with map := m, mapDirty := false } } := fun _ =>
    ⟨rfl, rfl, rfl, rfl, rfl⟩
  exact (noted _).trans (storeMap_springKept _ _)

theorem journalAdd_springKept (kind id : Nat) (es : List RemapEntry) (s : State) : SpringKept s (journalAdd kind id es s) := by
  have added : ∀ l, SpringKept s { s with boot := { s.boot with journal := l } } := fun _ => ⟨rfl, rfl, rfl, rfl, rfl⟩
  exact .ite ((added _).trans (nvmPages_springKept _ _ _)) (.refl s)

theorem satAdd_springKept {o : Nat} (h : pwrState ≠ o) (f : Fld) (n : Nat) (s : State) : SpringKept s (satAdd o f n s) :=
  .upd h f _ s

theorem journalRecover_springKept (s : State) : SpringKept s (journalRecover s).1 := by
  unfold journalRecover
  split
  · split
    · have mapped : ∀ m, SpringKept s (storeMap m (bt (fun b => { b with map := m }) s)) := fun m =>
        (SpringKept.map m s).trans (storeMap_springKept _ _)
      exact (((mapped _).trans (journalAdd_springKept _ _ _ _)).trans (lifeCount_springKept _ _ _ _)).trans
        (satAdd_springKept (by decide) _ _ _)
    · split
      · exact (journalAdd_springKept _ _ _ s).trans (logOpen_springKept _ _ _ _ _ _ _)
      · exact .refl s
  · exact .refl s

/-! ### Slices (R271–R273) -/

theorem pwrState_ne_hbmSlice (n : Nat) : pwrState ≠ hbmSlice n := by
  simp only [pwrState, hbmSlice]
  omega

theorem writeRetire_springKept (l : List (Nat × Nat)) (s : State) : SpringKept s (writeRetire l s) :=
  (SpringKept.hbmState _ s).trans (nvmPages_springKept _ _ _)

theorem countSlices_springKept (s : State) : SpringKept s (countSlices s) :=
  (SpringKept.upd (by decide) _ _ s).trans (.upd (by decide) _ _ _)

theorem setSlice_springKept (n st cause : Nat) (s : State) : SpringKept s (setSlice n st cause s) :=
  ((((writeRetire_springKept _ s).trans (.upd (pwrState_ne_hbmSlice n) _ _ _)).trans
    (.upd (pwrState_ne_hbmSlice n) _ _ _)).trans (countSlices_springKept _)).trans (logCoded_springKept _ _ _ _ _ _ _ _)

theorem hbmFieldLost_springKept (f : Nat) (s : State) : SpringKept s (hbmFieldLost f s) :=
  .foldl _ (fun _ _ v => setSlice_springKept _ _ _ v) s

/-! ### A field lost in SPRING (R362, R450, R453, R454) -/

theorem dropQuote_springKept (f : Nat) (s : State) : SpringKept s (dropQuote f s) := by
  have shown : ∀ c : Prop, [Decidable c] → ∀ x, SpringKept s (if c then upd supIdStat SupIdStat.quote x s else s) :=
    fun _ _ x => .ite (.upd (by decide) _ x s) (.refl s)
  have dropped : ∀ v : State, SpringKept v { v with boot := { v.boot with quotes := tset (fun _ => []) f [] v.boot.quotes } } :=
    fun _ => ⟨rfl, rfl, rfl, rfl, rfl⟩
  exact (shown _ _).trans (dropped _)

theorem pwrState_ne_pwrClStat (g : Nat) : pwrState ≠ pwrClStat g := by
  simp only [pwrState, pwrClStat]
  omega

theorem fieldPowerLost_springKept (f cause : Nat) (s : State) : SpringKept s (fieldPowerLost f cause s) := by
  have field : pwrState ≠ pwrFieldStat f := by
    simp only [pwrState, pwrFieldStat]
    omega
  have converters := SpringKept.foldl [PwrFieldStat.ibcA, PwrFieldStat.ibcB, PwrFieldStat.ibcC]
    (f := fun s c => if get s (pwrFieldStat f) c = 1 then upd (pwrFieldStat f) c 0 s else s)
    (fun c _ v => .ite (.upd field c 0 v) (.refl v)) s
  have clusters : ∀ v, SpringKept v ((fieldClusters f).foldl (fun s g =>
      if get s (pwrClStat g) PwrClStat.state = 4 then s
      else upd (pwrClStat g) PwrClStat.state 0 (upd (pwrClStat g) PwrClStat.cause 5 s)) v) := fun v =>
    .foldl _ (fun g _ w => .ite (.refl w) ((SpringKept.upd (pwrState_ne_pwrClStat g) _ _ w).trans
      (.upd (pwrState_ne_pwrClStat g) _ _ _))) v
  have switched : ∀ (v : State) a b c l k, SpringKept v { v with
      power := { v.power with waiting := a, ramping := b, siteOn := c }, clock := { v.clock with locked := l, lostAt := k } } :=
    fun _ _ _ _ _ _ => ⟨rfl, rfl, rfl, rfl, rfl⟩
  exact ((((converters.trans (.upd field _ _ _)).trans (.upd field _ _ _)).trans (dropQuote_springKept f _)).trans
    (clusters _)).trans (switched _ _ _ _ _ _)

/-- A field is lost in SPRING, before the device may stop for a second. -/
def springFieldDropped (f cause : Nat) (s : State) : State :=
  let s := logCoded sevFatal kFault bPwr 450 0 cause f (lifeCount 78 2 1 s)
  let m := if fieldLive s f then mapLose f cause s.boot.map else mapSetField f (1 + cause * 4) s.boot.map
  writeMap (bt (fun b => { b with map := m }) (hbmFieldLost f (fieldPowerLost f cause s)))

theorem springFieldLost_eq (f cause : Nat) (s : State) : springFieldLost f cause s =
    if 2 ≤ ((List.range 12).filter fun x => !fieldTried (springFieldDropped f cause s) x).length then
      springStop 5 (springFieldDropped f cause s) else springFieldDropped f cause s := rfl

theorem springFieldDropped_springKept (f cause : Nat) (s : State) : SpringKept s (springFieldDropped f cause s) := by
  have noted := (lifeCount_springKept 78 2 1 s).trans (logCoded_springKept sevFatal kFault bPwr 450 0 cause f _)
  exact (((noted.trans (fieldPowerLost_springKept f cause _)).trans (hbmFieldLost_springKept f _)).trans (.map _ _)).trans
    (writeMap_springKept _)

theorem springFieldLost_springKept (f cause : Nat) (s : State) : SpringKept s (springFieldLost f cause s) := by
  rw [springFieldLost_eq]
  exact .ite ((springFieldDropped_springKept f cause s).trans (springStop_springKept 5 _)) (springFieldDropped_springKept f cause s)

/-! ### The tests of t9 (R366, R369, R439, R443–R445) -/

theorem setIlimEff_springKept (g : Nat) (s : State) : SpringKept s (setIlimEff g s) := .upd (pwrState_ne_pwrClStat g) _ _ s

theorem phaseTested_springKept (e : Nat × Nat) (s : State) : SpringKept s (phaseTested s e) := by
  have stat : ∀ f x v, SpringKept v (upd (pwrClStat (e.1 % 240)) f x v) := fun f x v => .upd (pwrState_ne_pwrClStat _) f x v
  have failed := ((stat PwrClStat.phaseOk (get s (pwrClStat (e.1 % 240)) PwrClStat.phaseOk - 2 ^ (e.2 % 8)) s).trans
    (setIlimEff_springKept (e.1 % 240) _)).trans (logOpen_springKept sevDegrade kFault bPwr 368 (e.2 % 8) (e.1 % 240) _)
  exact .ite (.ite ((failed.trans (stat _ _ _)).trans (stat _ _ _)) failed) (.refl s)

theorem trimCluster_springKept (trims : List (Nat × List Nat)) (g : Nat) (s : State) : SpringKept s (trimCluster trims s g) := by
  have margin : ∀ f x v, SpringKept v (upd (clkClMargin g) f x v) := fun f x v =>
    .upd (by simp only [pwrState, clkClMargin]; omega) f x v
  exact ((margin _ _ s).trans (margin _ _ _)).trans (.upd (pwrState_ne_pwrClStat g) _ _ _)

theorem springRemap_springKept (f : Nat) : ∀ (n : Nat) (ts : List Nat) (s : State), SpringKept s (springRemap f n ts s)
  | 0, _, s => .refl s
  | n + 1, ts, s => by
    unfold springRemap
    split
    · exact .refl s
    · split
      · exact springFieldLost_springKept f 5 s
      · have counted : ∀ a b, SpringKept s (upd supRemapStat SupRemapStat.lastId a (upd supRemapStat SupRemapStat.count b s)) :=
          fun a b => (SpringKept.upd (by decide) _ b s).trans (.upd (by decide) _ a _)
        exact (((((((((counted _ _).trans (journalAdd_springKept _ _ _ _)).trans (journalAdd_springKept _ _ _ _)).trans
          (.map _ _)).trans (writeMap_springKept _)).trans (journalAdd_springKept _ _ _ _)).trans
          (lifeCount_springKept _ _ _ _)).trans (satAdd_springKept (by decide) _ _ _)).trans
          (logOpen_springKept _ _ _ _ _ _ _)).trans (springRemap_springKept f n _ _)

theorem fieldTested_springKept (bad : Nat → Bool) (rebuild : Bool) (f : Nat) (s : State) :
    SpringKept s (fieldTested bad rebuild s f) := by
  unfold fieldTested
  extract_lets old m badLog retry noted failAll
  have logged : SpringKept s noted := .foldl badLog (fun n _ v => logCoded_springKept _ _ _ _ _ _ n v) s
  clear_value noted
  split
  · exact (logged.trans (.map _ _)).trans (springFieldLost_springKept f 7 _)
  · split
    · have built : ∀ m v, SpringKept v (writeMap (bt (fun b => { b with map := m }) v)) := fun m v =>
        (SpringKept.map m v).trans (writeMap_springKept _)
      split
      · have retired : ∀ (l : List Nat) v, SpringKept v (l.foldl (fun s n => upd (hbmSlice n) HbmSlice.state slRetired s) v) :=
          fun l v => .foldl l (fun n _ w => .upd (pwrState_ne_hbmSlice n) _ _ w) v
        exact ((((logged.trans (built _ _)).trans (writeRetire_springKept _ _)).trans (retired _ _)).trans
          (countSlices_springKept _)).trans (logOpen_springKept _ _ _ _ _ _ _)
      · exact logged.trans (built _ _)
    · have mapped : ∀ (c : Prop) [Decidable c] (m : MapRecord) v, SpringKept v
          (if c then bt (fun b => { b with map := m }) v else writeMap (bt (fun b => { b with map := m }) v)) :=
        fun _ _ m v => .ite (.map m v) ((SpringKept.map m v).trans (writeMap_springKept _))
      exact (logged.trans (mapped _ _ _)).trans (springRemap_springKept f 17 _ _)

end Sys2Proof.Machine
end

section
/-! The boot ROM, the supervisor's firmware, and the field controllers at their start (R435, R439, R471, R484, R500, R504). -/

namespace Sys2Proof.Machine

open Sys2Proof

/-! ### A step finishes (R437, R456) -/

theorem finishStep_boot (n : Nat) (s : State) : (finishStep n s).boot = { s.boot with steps := s.boot.steps ++ [n] } := by
  unfold finishStep
  dsimp only
  split <;> rfl

theorem finishStep_regs (n : Nat) (s : State) : RegsBut (· = supBootStat) s (finishStep n s) :=
  .ite (fun _ _ => rfl) (regsBut_upd (s := bt (fun b => { b with steps := b.steps ++ [n] }) s) (p := (· = supBootStat)) rfl _ _)

theorem finishStep_same (n : Nat) (s : State) :
    finishStep n s = { s with regs := (finishStep n s).regs, boot := (finishStep n s).boot } := by
  unfold finishStep
  dsimp only
  split <;> rfl

theorem mem_finishStep (n : Nat) (s : State) : n ∈ (finishStep n s).boot.steps := by
  rw [finishStep_boot]
  exact List.mem_append_right _ List.mem_cons_self

/-- A step that finishes leaves a stopped bring-up stopped. -/
theorem finishStep_stopped {n : Nat} {s : State} (stopped : get s supBootStat SupBootStat.stage = 8) (f : Fld) :
    get (finishStep n s) supBootStat f = get s supBootStat f := by
  have eq : finishStep n s = bt (fun b => { b with steps := b.steps ++ [n] }) s := if_pos stopped
  rw [eq]
  rfl

theorem finishStep_stage {n : Nat} {s : State} (runs : get s supBootStat SupBootStat.stage ≠ 8) :
    get (finishStep n s) supBootStat SupBootStat.stage = stageOf (s.boot.steps ++ [n]) % 16 := by
  have eq : finishStep n s = upd supBootStat SupBootStat.stage (stageOf (s.boot.steps ++ [n]))
      (bt (fun b => { b with steps := b.steps ++ [n] }) s) := if_neg runs
  rw [eq, get_upd_same _ _ _ _ (by decide)]
  rfl

theorem springing_of_mayStep {s : State} {n : Nat} {need : List Nat} (may : mayStep s n need = true) :
    devState s = .spring ∧ get s supBootStat SupBootStat.stage ≠ 8 := by
  have runs : springing s = true := (Bool.and_eq_true _ _ ▸ may).1
  simpa [springing] using runs

/-! ### The boot ROM's checks (R471, R500) -/

/-- The values in force are loaded into the registers of their blocks. -/
theorem loadLinks_springKept (bs : List Byte) (s : State) : SpringKept s (loadLinks bs s) := by
  have ctrl : ∀ n f x v, SpringKept v (upd (lnkCtrl n) f x v) := fun n f x v =>
    .upd (by simp only [pwrState, lnkCtrl]; omega) f x v
  exact (SpringKept.put (by decide) _ s).trans
    (.foldl _ (fun n _ v => ((ctrl n _ _ v).trans (ctrl n _ _ _)).trans (ctrl n _ _ _)) _)

/-- Two registers take values. -/
theorem SpringKept.upd2 {o o' : Nat} (h : pwrState ≠ o) (h' : pwrState ≠ o') (f f' : Fld) (x x' : Nat) (s : State) :
    SpringKept s (Machine.upd o f x (Machine.upd o' f' x' s)) :=
  (SpringKept.upd h' f' x' s).trans (.upd h f x _)

theorem loadCfg_springKept (bs : List Byte) (s : State) : SpringKept s (loadCfg bs s) := by
  unfold loadCfg
  extract_lets linked p prio leased ranged hbm tests last
  have h1 : SpringKept s linked := loadLinks_springKept bs s
  have h2 : SpringKept linked prio := (SpringKept.upd2 (by decide) (by decide) _ _ _ _ _).trans (.upd2 (by decide) (by decide) _ _ _ _ _)
  have h3 : SpringKept prio leased := .upd2 (by decide) (by decide) _ _ _ _ _
  have h4 : SpringKept leased ranged := (SpringKept.put (by decide) _ _).trans (.put (by decide) _ _)
  have h5 : SpringKept ranged hbm := .upd2 (by decide) (by decide) _ _ _ _ _
  have h6 : SpringKept hbm tests := .upd2 (by decide) (by decide) _ _ _ _ _
  have h7 : SpringKept tests last := .upd2 (by decide) (by decide) _ _ _ _ _
  clear_value linked prio leased ranged hbm tests last
  exact ((((((h1.trans h2).trans h3).trans h4).trans h5).trans h6).trans h7).trans (.upd2 (by decide) (by decide) _ _ _ _ _)

theorem loadRestricted_springKept (s : State) : SpringKept s (loadRestricted s) := by
  have own : ∀ f x v, SpringKept v (upd ownCfg f x v) := fun f x v => .upd (by decide) f x v
  exact ((((((((SpringKept.put (by decide) _ s).trans (own _ _ _)).trans (own _ _ _)).trans (own _ _ _)).trans (own _ _ _)).trans
    (own _ _ _)).trans (.put (by decide) _ _)).trans (.put (by decide) _ _)).trans (.upd (by decide) _ _ _)

theorem noteSelect_springKept (s : State) : SpringKept s (noteSelect s) := .upd (by decide) _ _ s

theorem configSelect_springKept (flips : List NvmFlip) (s : State) : SpringKept s (configSelect flips s) := by
  have used : ∀ (r : Option CfgRec) (which x : Nat) (bs : List Byte) v, SpringKept v (loadCfg bs (upd nvmCfgStat NvmCfgStat.inForce which
      (upd nvmCfgStat NvmCfgStat.seq x (nv (fun n => { n with inForce := r }) v)))) := fun r which x bs v =>
    ((SpringKept.nv _ v).trans (.upd2 (by decide) (by decide) _ _ _ _ _)).trans (loadCfg_springKept bs _)
  have restricted : ∀ v, SpringKept v (loadRestricted (upd nvmCfgStat NvmCfgStat.restricted 1
      (logOpen sevDegrade kConfig bNvm 471 9 0 (nv (fun n => { n with inForce := none }) v)))) := fun v =>
    (((SpringKept.nv _ v).trans (logOpen_springKept _ _ _ _ _ _ _)).trans (.upd (by decide) _ _ _)).trans (loadRestricted_springKept _)
  unfold configSelect
  extract_lets passes a b use noted defaults selected
  have shown : SpringKept s noted := .upd2 (by decide) (by decide) _ _ _ _ _
  have chosen : SpringKept noted selected := by
    unfold selected
    split
    · exact used _ _ _ _ _
    · split
      · exact (used _ _ _ _ _).trans (logOpen_springKept _ _ _ _ _ _ _)
      · exact restricted _
  clear_value noted defaults selected
  exact (shown.trans chosen).trans (noteSelect_springKept _)

theorem openWindow_springKept (s : State) : SpringKept s (openWindow s) := by
  have own : ∀ f x v, SpringKept v (upd ownStat f x v) := fun f x v => .upd (by decide) f x v
  have opened : ∀ x, SpringKept s { s with own := x } := fun _ => ⟨rfl, rfl, rfl, rfl, rfl⟩
  exact .ite (.refl s) ((((opened _).trans (own _ _ _)).trans (own _ _ _)).trans (raiseBoth_reports _ _).springKept)

theorem setLinkSt_springKept (n v : Nat) (s : State) : SpringKept s (setLinkSt n v s) :=
  (SpringKept.updLink n _ s).trans (.upd (by simp only [pwrState, lnkStat]; omega) _ _ _)

theorem startLinks_springKept (s : State) : SpringKept s (startLinks s) := by
  have train : ∀ n v, SpringKept v (enterTrain n v) := fun n v => (SpringKept.updLink n _ v).trans (setLinkSt_springKept n _ _)
  exact .foldl _ (fun n _ v => .ite (setLinkSt_springKept n _ v) (.ite (train n v) (setLinkSt_springKept n _ v))) s

theorem readStore_springKept (flips : List NvmFlip) (s : State) : SpringKept s (readStore flips s) := by
  have device : ∀ v, SpringKept v (readDevice flips v) := fun v => by
    unfold readDevice
    dsimp only
    split <;> exact .nv _ v
  exact .ite (.refl s) ((SpringKept.nv _ s).trans (device _))

/-! ### The key engine's check (R500) -/

/-- One key's check. -/
def keyChecked (s : State) (k : Nat) : State :=
  if keyOk k then put supIdStat (rd s supIdStat ||| BitVec.ofNat 64 (2 ^ k)) s
  else logOpen sevDegrade kFault bSup 500 0 k s

theorem keyChecked_springKept (s : State) (k : Nat) : SpringKept s (keyChecked s k) :=
  .ite (.put (by decide) _ s) (logOpen_springKept _ _ _ _ _ _ s)

theorem not_reportReg_supIdStat : ¬ ReportReg supIdStat := not_reportReg_of_low (by decide) (by decide)

theorem keyChecked_bit (s : State) (k i : Nat) : bit1 (rd (keyChecked s k) supIdStat).toNat i =
    (bit1 (rd s supIdStat).toNat i || (keyOk k && decide (k < 64) && decide (k = i))) := by
  unfold keyChecked
  split
  · next ok =>
    rw [rd_put_same, BitVec.toNat_or, BitVec.toNat_ofNat, bit1, Nat.testBit_or, Nat.testBit_mod_two_pow, Nat.testBit_two_pow, ok]
    by_cases e : k = i
    · simp [e, bit1]
    · simp [e, bit1]
  · next bad =>
    rw [(logOpen_reports _ _ _ _ _ _ s).1 _ not_reportReg_supIdStat, Bool.eq_false_iff.mpr bad]
    simp

/-- Every key that verifies has its bit. -/
theorem checkKeys_bits (s : State) : ∀ k, k < 13 → keyOk k = true → bit1 (rd (checkKeys s) supIdStat).toNat k = true := by
  intro k hk ok
  have all := foldl_establishes (P := fun t v => t < 64 → keyOk t = true → bit1 (rd v supIdStat).toNat t = true)
    (f := keyChecked) (fun t v low good => by rw [keyChecked_bit]; simp [low, good])
    (fun t t' v h low good => by rw [keyChecked_bit, h low good, Bool.true_or]) (List.range 13) s k (.inl (List.mem_range.mpr hk))
  exact all (by omega) ok

theorem checkKeys_springKept (s : State) : SpringKept s (checkKeys s) := .foldl _ (fun k _ v => keyChecked_springKept v k) s

/-! ### The choice of the firmware slot (R438, R484) -/

/-- What the choice of a slot keeps: the frame of bring-up, and the register of the keys. -/
def ChoiceKept (s u : State) : Prop := SpringKept s u ∧ rd u supIdStat = rd s supIdStat

namespace ChoiceKept

variable {s v u : State}

theorem refl (s : State) : ChoiceKept s s := ⟨.refl s, rfl⟩

theorem trans (h : ChoiceKept s v) (k : ChoiceKept v u) : ChoiceKept s u := ⟨h.1.trans k.1, k.2.trans h.2⟩

theorem upd {o : Nat} (h : pwrState ≠ o) (h' : supIdStat ≠ o) (f : Fld) (x : Nat) (s : State) : ChoiceKept s (upd o f x s) :=
  ⟨.upd h f x s, rd_upd_ne h' f x s⟩

theorem nv (f : NvmState → NvmState) (s : State) : ChoiceKept s (nv f s) := ⟨.nv f s, rfl⟩

theorem slot (i : Nat) (f : Fld) (x : Nat) (s : State) : ChoiceKept s (Machine.upd (nvmSlotStat i) f x s) :=
  .upd (by simp only [pwrState, nvmSlotStat]; omega) (by simp only [supIdStat, nvmSlotStat]; omega) f x s

theorem stat (f : Fld) (x : Nat) (s : State) : ChoiceKept s (Machine.upd nvmUpdStat f x s) := .upd (by decide) (by decide) f x s

theorem ite {c : Prop} [Decidable c] (h : ChoiceKept s v) (k : ChoiceKept s u) : ChoiceKept s (if c then v else u) := by
  split
  · exact h
  · exact k

end ChoiceKept

theorem Reports.choiceKept {s u : State} (h : Reports s u) : ChoiceKept s u := ⟨h.springKept, h.1 _ not_reportReg_supIdStat⟩

theorem Recorded.choiceKept {s u : State} (h : Recorded RecordReg s u) : ChoiceKept s u :=
  ⟨h.springKept not_recordReg_pwrState, h.1 _ (not_or.mpr ⟨not_reportReg_supIdStat, by decide⟩)⟩

theorem setFwSlot_choiceKept (i st r : Nat) (s : State) : ChoiceKept s (setFwSlot i st r s) := (ChoiceKept.slot i _ _ s).trans (.slot i _ _ _)

theorem lifeFirmware_choiceKept (slot kind reason : Nat) (s : State) : ChoiceKept s (lifeFirmware slot kind reason s) := by
  have word : ∀ i x v, ChoiceKept v (setLifeWord i x v) := fun i x v => ⟨.life _ v, rfl⟩
  have moved := foldl_related (R := ChoiceKept) .refl .trans (List.range 14)
    (f := fun v j => setLifeWord (322 + j) (lifeWord s (320 + j)) v) (fun j _ v => word _ _ v) s
  exact ((moved.trans (word _ _ _)).trans (word _ _ _)).trans (lifetimeWrite_recorded _).choiceKept

theorem writeBoot_choiceKept (kind active target tboots minutes reason : Nat) (md : List Byte) (rom : Bool) (s : State) :
    ChoiceKept s (writeBoot kind active target tboots minutes reason md rom s) := by
  have paged : ∀ v, ChoiceKept v (nvmPages arBoot 1 v) := fun v => (nvmPages_recorded RecordReg _ _ v).choiceKept
  have reasoned : ∀ v, ChoiceKept v (if kind = 5 ∨ kind = 6 then
      upd nvmUpdStat NvmUpdStat.lastReason reason (nv (fun x => { x with lastReason := reason }) v) else v) := fun v =>
    .ite ((ChoiceKept.nv _ v).trans (.stat _ _ _)) (.refl v)
  have lived : ∀ v, ChoiceKept v (if 4 ≤ kind then lifeFirmware target kind reason v else v) := fun v =>
    .ite (lifeFirmware_choiceKept _ _ _ v) (.refl v)
  exact .ite (.refl s) (((((((ChoiceKept.nv _ s).trans (paged _)).trans (.stat _ _ _)).trans (.stat _ _ _)).trans (reasoned _)).trans
    (logCoded_reports _ _ _ _ _ _ _ _).choiceKept).trans (lived _))

/-- A slot's firmware runs, or SPRING has stopped with code FIRMWARE. -/
def SlotChosen (u : State) : Prop := u.nvm.slot.isSome = true ∨
  get u supBootStat SupBootStat.stage = 8 ∧ get u supBootStat SupBootStat.stopCode = 4

theorem startSlot_chosen (i : Nat) (trial : Bool) (tboots minutes : Nat) (s : State) :
    ChoiceKept s (startSlot i trial tboots minutes s) ∧ SlotChosen (startSlot i trial tboots minutes s) := by
  unfold startSlot
  extract_lets started released noted
  have kept : ChoiceKept s noted :=
    ((((ChoiceKept.nv _ s).trans (.slot i _ _ _)).trans (.slot i _ _ _)).trans (.stat _ _ _)).trans (.stat _ _ _)
  have slot : noted.nvm.slot.isSome = true := rfl
  clear_value noted
  split
  · exact ⟨kept.trans (.nv _ _), .inl slot⟩
  · exact ⟨kept.trans (.stat _ _ _), .inl slot⟩

theorem springStop_choiceKept (code : Nat) (s : State) : ChoiceKept s (springStop code s) := by
  refine ⟨springStop_springKept code s, ?_⟩
  exact ((logCoded_reports _ _ _ _ _ _ _ _).1 _ not_reportReg_supIdStat).trans
    ((rd_upd_ne (by decide) _ _ _).trans (rd_upd_ne (by decide) _ _ _))

theorem springStop_chosen (s : State) : ChoiceKept s (springStop 4 s) ∧ SlotChosen (springStop 4 s) :=
  ⟨springStop_choiceKept 4 s, .inr ⟨get_springStop_stage 4 s, get_springStop_code (by decide) s⟩⟩

/-- What a choice after some writes keeps and leaves. -/
theorem ChoiceKept.chosen {s v u : State} (h : ChoiceKept s v) (k : ChoiceKept v u ∧ SlotChosen u) : ChoiceKept s u ∧ SlotChosen u :=
  ⟨h.trans k.1, k.2⟩

theorem runSlot_chosen (i : Nat) (trial : Bool) (tboots minutes : Nat) (s : State) :
    ChoiceKept s (runSlot i trial tboots minutes s) ∧ SlotChosen (runSlot i trial tboots minutes s) := by
  unfold runSlot
  split
  · exact startSlot_chosen i trial tboots minutes s
  · dsimp only
    split
    · exact ((setFwSlot_choiceKept _ _ _ s).trans (writeBoot_choiceKept _ _ _ _ _ _ _ _ _)).chosen (startSlot_chosen _ _ _ _ _)
    · exact springStop_chosen s

theorem endTrial_chosen (kind : Nat) (r : BootRec) (reason : Nat) (s : State) :
    ChoiceKept s (endTrial kind r reason s) ∧ SlotChosen (endTrial kind r reason s) :=
  ((setFwSlot_choiceKept _ _ _ s).trans (writeBoot_choiceKept _ _ _ _ _ _ _ _ _)).chosen (runSlot_chosen _ _ _ _ _)

theorem trialBoot_chosen (r : BootRec) (tboots : Nat) (s : State) :
    ChoiceKept s (trialBoot r tboots s) ∧ SlotChosen (trialBoot r tboots s) :=
  (writeBoot_choiceKept _ _ _ _ _ _ _ _ s).chosen (runSlot_chosen _ _ _ _ _)

theorem chooseSlot_chosen (s : State) : ChoiceKept s (chooseSlot s) ∧ SlotChosen (chooseSlot s) := by
  unfold chooseSlot
  split
  · split
    · exact startSlot_chosen _ _ _ _ s
    · split
      · exact startSlot_chosen _ _ _ _ s
      · exact springStop_chosen s
  · next r _ =>
    extract_lets noted reasoned shown fails fails'
    have kept : ChoiceKept s shown := by
      have newest : ChoiceKept s noted := (ChoiceKept.stat _ _ s).trans (.stat _ _ _)
      have reason : ChoiceKept noted reasoned := .stat _ _ _
      exact (newest.trans reason).trans (.ite (.slot _ _ _ _) (.refl _))
    clear_value shown
    refine kept.chosen ?_
    split
    · split
      · exact trialBoot_chosen _ _ _
      · exact endTrial_chosen _ _ _ _
    · split
      · split
        · exact endTrial_chosen _ _ _ _
        · split
          · exact endTrial_chosen _ _ _ _
          · exact trialBoot_chosen _ _ _
      · exact runSlot_chosen _ _ _ _ _

theorem completes_bootRomStart {flips : List NvmFlip} {s : State} (on : On s) (may : mayStep s 2 [] = true) :
    Completes (.bootRomStart flips) s fun u => 2 ∈ u.boot.steps ∧
      (u.nvm.slot.isSome = true ∨ get u supBootStat SupBootStat.stage = 8 ∧ get u supBootStat SupBootStat.stopCode = 4) ∧
      (∀ k, k < 13 → keyOk k = true → bit1 (rd u supIdStat).toNat k = true) ∧ u.hbm = s.hbm ∧ u.tiles = s.tiles := by
  have eq : exec (.bootRomStart flips) s = .next (finishStep 2 (chooseSlot (checkKeys (startLinks (openWindow
      (configSelect flips (readStore flips s))))))) := congrArg Host.Outcome.next ((powered_on on _).trans (if_pos may))
  have read := (((readStore_springKept flips s).trans (configSelect_springKept flips _)).trans (openWindow_springKept _)).trans
    (startLinks_springKept _)
  generalize startLinks (openWindow (configSelect flips (readStore flips s))) = v at eq read
  have keys := checkKeys_bits v
  have kept := read.trans (checkKeys_springKept v)
  generalize checkKeys v = w at eq keys kept
  obtain ⟨⟨chose, id⟩, chosen⟩ := chooseSlot_chosen w
  generalize chooseSlot w = x at eq chose id chosen
  have same := finishStep_same 2 x
  refine ⟨_, eq, mem_finishStep 2 x, ?_, fun k hk ok => ?_, ?_, ?_⟩
  · rcases chosen with runs | ⟨stage, code⟩
    · left
      rw [same]
      exact runs
    · exact .inr ⟨(finishStep_stopped stage _).trans stage, (finishStep_stopped stage _).trans code⟩
  · rw [finishStep_regs 2 x _ (by decide), id]
    exact keys k hk ok
  · rw [same]
    exact (kept.trans chose).hbm
  · rw [same]
    exact (kept.trans chose).tiles

end Sys2Proof.Machine
end

section
/-! The supervisor's firmware and the field controllers at their start (R435, R489, R499, R504, R528). -/

namespace Sys2Proof.Machine

open Sys2Proof

/-! ### What the supervisor's firmware reads (R273, R432, R446, R462) -/

theorem readRecords_springKept (flips : List NvmFlip) (s : State) : SpringKept s (readRecords flips s) := by
  have journal : SpringKept s (readJournal flips s) := ⟨rfl, rfl, rfl, rfl, rfl⟩
  have mapped : ∀ v, SpringKept v (readMap flips v) := fun v => by
    unfold readMap
    dsimp only
    split <;> exact ⟨rfl, rfl, rfl, rfl, rfl⟩
  have retired : ∀ v, SpringKept v (readRetire flips v) := fun v => .hbmState _ v
  have lifetime : ∀ v, SpringKept v (readLifetime flips v) := fun v =>
    .ite (.refl v) ((SpringKept.life _ v).trans (.upd (by decide) _ _ _))
  have logged : ∀ v, SpringKept v (readLog flips v) := fun _ => ⟨rfl, rfl, rfl, rfl, rfl⟩
  exact .ite (.refl s) ((((journal.trans (mapped _)).trans (retired _)).trans (lifetime _)).trans (logged _))

theorem loadSlices_springKept (s : State) : SpringKept s (loadSlices s) := by
  have shown : ∀ n f x v, SpringKept v (upd (hbmSlice n) f x v) := fun n f x v => .upd (pwrState_ne_hbmSlice n) f x v
  have stat : ∀ f x v, SpringKept v (upd hbmMapStat f x v) := fun f x v => .upd (by decide) f x v
  have slices := SpringKept.foldl (List.range 768) (f := fun s n =>
    let b := recordByte s n
    let cause := bits b 2 3
    let st := if b % 4 = 0 then slInService else if 2 ≤ b % 4 then slRetired
      else if cause = rcChannel ∨ cause = rcFieldLost then slFailed else slMarked
    upd (hbmSlice n) HbmSlice.state st (upd (hbmSlice n) HbmSlice.cause cause s))
    (fun n _ v => (shown n _ _ v).trans (shown n _ _ _)) s
  exact ((slices.trans (countSlices_springKept _)).trans (stat _ _ _)).trans (stat _ _ _)

/-- The entries for what happened before this boot leave no reset to be logged. -/
theorem logBoot_unlogged (s : State) : (logBoot s).boot.unlogged = none ∧ (logBoot s).hbm = s.hbm := by
  unfold logBoot
  extract_lets noted
  have cleared : noted.boot.unlogged = none ∧ noted.hbm = s.hbm := by
    unfold noted
    split
    · next kind cause _ =>
      have logged := logCoded_springKept sevFatal kReset bSup 440 kind cause 0 (bt (fun b => { b with unlogged := none }) s)
      refine ⟨?_, logged.hbm⟩
      rw [logged.boot]
      rfl
    · next none => exact ⟨none, rfl⟩
  split
  · have logged := logOpen_springKept sevFatal kFault bPwr 396 1 (get noted pwrState PwrState.tripSensor) noted
    refine ⟨?_, logged.hbm.trans cleared.2⟩
    rw [logged.boot]
    exact cleared.1
  · exact cleared

theorem lostFieldsOff_springKept (s : State) : SpringKept s (lostFieldsOff s) :=
  .foldl _ (fun _ _ v => .ite (.refl v) (fieldPowerLost_springKept _ _ v)) s

/-! ### The supervisor's firmware starts (R435, R489, R528) -/

/-- The records are read; on the first trial boot an open remap is completed or ended (R489). -/
def supervisorRead (flips : List NvmFlip) (i : Nat) (s : State) : State :=
  let s := readRecords flips s
  if onTrial s && get s nvmUpdStat NvmUpdStat.tboots == 1 then logOpen sevNotice kConfig bNvm 489 0 i (journalRecover s).1 else s

/-- The block components whose bytes have their digest. -/
def blocksOk (s : State) (i : Nat) : List Nat := [4, 5, 6, 7].filter (typeOk s i)

/-- The block components that verify are loaded, the tile microcode with them. -/
def blocksLoaded (i : Nat) (s : State) : State :=
  bt (fun b => { b with loaded := blocksOk s i, microcode := if typeOk s i 3 then microcodeOf s i else 0
                        store := if typeOk s i 3 then microcodeBytes s i else [] }) s

/-- The counts and records of a boot are written, and the step finishes (R465, R528). -/
def supervisorRecorded (s : State) : State :=
  finishStep 3 (lifetimeWrite (writeDevice (if s.boot.resetKind = 4 then lifeCount 32 4 1 s else s)))

/-- The supervisor's firmware runs, or SPRING stops for a block component that fails. -/
def supervisorStarted (i : Nat) (s : State) : State :=
  if (blocksOk s i).length = 4 then supervisorRecorded (blocksLoaded i s) else springStop 4 (supervisorRecorded (blocksLoaded i s))

theorem exec_supervisorFirmwareStart {i : Nat} {s : State} (on : On s) (slot : s.nvm.slot = some i) (may : mayStep s 3 [2] = true)
    (flips : List NvmFlip) : exec (.supervisorFirmwareStart flips) s = .next
      (supervisorStarted i (lostFieldsOff (loadSlices (logBoot (supervisorRead flips i s))))) := by
  refine congrArg Host.Outcome.next ((powered_on on _).trans ?_)
  simp only [slot]
  exact if_pos may

theorem supervisorRead_hbm (flips : List NvmFlip) (i : Nat) (s : State) : (supervisorRead flips i s).hbm = s.hbm := by
  have read := readRecords_springKept flips s
  exact (read.trans (.ite ((journalRecover_springKept _).trans (logOpen_springKept _ _ _ _ _ _ _)) (.refl _))).hbm

theorem blocksOk_all {s : State} {i : Nat} (all : (blocksOk s i).length = 4) : blocksOk s i = [4, 5, 6, 7] :=
  List.filter_sublist.eq_of_length all

/-- What the records of a boot leave of the boot's state. -/
theorem supervisorRecorded_kept (s : State) : (supervisorRecorded s).boot.unlogged = s.boot.unlogged ∧
    (supervisorRecorded s).boot.loaded = s.boot.loaded ∧ (supervisorRecorded s).hbm = s.hbm ∧ 3 ∈ (supervisorRecorded s).boot.steps := by
  have counted : SpringKept s (if s.boot.resetKind = 4 then lifeCount 32 4 1 s else s) := .ite (lifeCount_springKept _ _ _ s) (.refl s)
  have kept := (counted.trans (writeDevice_springKept _)).trans (lifetimeWrite_springKept _)
  unfold supervisorRecorded
  generalize lifetimeWrite (writeDevice (if s.boot.resetKind = 4 then lifeCount 32 4 1 s else s)) = v at kept
  refine ⟨?_, ?_, ?_, mem_finishStep 3 v⟩
  · rw [finishStep_boot, kept.boot]
  · rw [finishStep_boot, kept.boot]
  · rw [finishStep_same]
    exact kept.hbm

theorem supervisorStarted_spec (i : Nat) (s : State) : 3 ∈ (supervisorStarted i s).boot.steps ∧
    (supervisorStarted i s).boot.unlogged = s.boot.unlogged ∧
    ((supervisorStarted i s).boot.loaded = [4, 5, 6, 7] ∨ get (supervisorStarted i s) supBootStat SupBootStat.stage = 8 ∧
      get (supervisorStarted i s) supBootStat SupBootStat.stopCode = 4) ∧ (supervisorStarted i s).hbm = s.hbm := by
  obtain ⟨un, loaded, kept, step⟩ := supervisorRecorded_kept (blocksLoaded i s)
  unfold supervisorStarted
  generalize supervisorRecorded (blocksLoaded i s) = x at un loaded kept step
  split
  · next all => exact ⟨step, un, .inl (loaded.trans (blocksOk_all all)), kept⟩
  · have stopped := springStop_springKept 4 x
    refine ⟨?_, ?_, .inr ⟨get_springStop_stage 4 x, get_springStop_code (by decide) x⟩, stopped.hbm.trans kept⟩
    · rw [stopped.boot]
      exact step
    · rw [stopped.boot]
      exact un

theorem completes_supervisorFirmwareStart {i : Nat} {s : State} (on : On s) (slot : s.nvm.slot = some i)
    (may : mayStep s 3 [2] = true) (flips : List NvmFlip) :
    Completes (.supervisorFirmwareStart flips) s fun u => 3 ∈ u.boot.steps ∧ u.boot.unlogged = none ∧
      (u.boot.loaded = [4, 5, 6, 7] ∨ get u supBootStat SupBootStat.stage = 8 ∧
        get u supBootStat SupBootStat.stopCode = 4) ∧ u.hbm = s.hbm := by
  refine ⟨_, exec_supervisorFirmwareStart on slot may flips, ?_⟩
  obtain ⟨unlogged, logged⟩ := logBoot_unlogged (supervisorRead flips i s)
  have off := (loadSlices_springKept (logBoot (supervisorRead flips i s))).trans (lostFieldsOff_springKept _)
  have hbm := off.hbm.trans (logged.trans (supervisorRead_hbm flips i s))
  have none : (lostFieldsOff (loadSlices (logBoot (supervisorRead flips i s)))).boot.unlogged = none := by
    rw [off.boot]
    exact unlogged
  obtain ⟨step, unlogged', loaded, kept⟩ := supervisorStarted_spec i (lostFieldsOff (loadSlices (logBoot (supervisorRead flips i s))))
  exact ⟨step, unlogged'.trans none, loaded, kept.trans hbm⟩

/-! ### A field controller starts (R435, R499, R504) -/

theorem writeMap_map (s : State) : (writeMap s).boot.map = { s.boot.map with seq := s.boot.nvmMap.seq + 1, time := s.devtime } := by
  unfold writeMap storeMap
  dsimp only
  split
  · rw [(nvmPages_recorded (fun _ => False) arMap 10 _).boot]
  · rfl

theorem springStop_boot (code : Nat) (s : State) : (springStop code s).boot = s.boot :=
  logCoded_boot sevFatal kState bSup 438 0 code 0 (upd supBootStat SupBootStat.stage 8 (upd supBootStat SupBootStat.stopCode code s))

theorem springFieldLost_map (f cause : Nat) (s : State) :
    (springFieldLost f cause s).boot.map = (springFieldDropped f cause s).boot.map := by
  rw [springFieldLost_eq]
  split
  · rw [springStop_boot]
  · rfl

/-- A field lost in SPRING is not live, and its byte in the map holds the cause. -/
theorem springFieldLost_field (f cause : Nat) (s : State) : fieldLive (springFieldLost f cause s) f = false ∧
    mapField (springFieldLost f cause s).boot.map f = 1 + cause * 4 := by
  rw [fieldLive, springFieldLost_map]
  unfold springFieldDropped
  extract_lets noted m
  have kept : noted.boot.map = s.boot.map := by
    unfold noted
    rw [logCoded_boot]
    rfl
  have lost : bit1 m.live f = false ∧ mapField m f = 1 + cause * 4 := by
    unfold m
    split
    · next live =>
      have away : bit1 (mapLose f cause noted.boot.map).live f = bit1 (noted.boot.map.live - 2 ^ f) f := by
        have sites : ∀ (l : List Nat) (m : MapRecord), (l.foldl (fun m n =>
            { m with sites := tset siteDefault n (BitVec.ofNat 8 ((mapByte m n).toNat % 32 + 5 * 32)) m.sites }) m).live = m.live :=
          fun l m => List.foldlRecOn l _ (motive := fun x : MapRecord => x.live = m.live) rfl fun _ h _ _ => h
        exact congrArg (fun x => bit1 (x - 2 ^ f) f) (sites (fieldSites f) noted.boot.map)
      exact ⟨away.trans (bit1_sub_self live), mapField_mapSetField _ _ _⟩
    · next dead => exact ⟨by simpa [fieldLive, mapSetField] using dead, mapField_mapSetField _ _ _⟩
  clear_value m
  rw [writeMap_map]
  exact lost

theorem freshNonce_same (f : Nat) (s : State) :
    freshNonce f s = { s with boot := (freshNonce f s).boot, free := (freshNonce f s).free } := rfl

theorem length_freshNonce (f : Nat) (s : State) : (tget (fun _ => []) (freshNonce f s).boot.nonces f).length = 32 := by
  have nonce : tget (fun _ => []) (freshNonce f s).boot.nonces f = toBytes 32 (freeNat 256 s).1 := tget_tset_same _ _ _ _
  rw [nonce, length_toBytes]

/-- A field controller whose manifest and component verify. -/
def fcStarted (f : FieldId) (s : State) : State :=
  bt (fun b => { b with fcRunning := b.fcRunning.filter (· != f.val) ++ [f.val]
                        keyLocked := b.keyLocked.filter (· != f.val) ++ [f.val] }) (freshNonce f s)

/-- A field controller that stays in its boot ROM. -/
def fcFailed (f : FieldId) (s : State) : State :=
  bt (fun b => { b with fcFailed := b.fcFailed ++ [f.val]
                        fcRunning := b.fcRunning.filter (· != f.val) }) (freshNonce f s)

theorem exec_fieldControllerBoot {f : FieldId} {i : Nat} {s : State} (on : On s) (slot : s.nvm.slot = some i)
    (tried : fieldTried s f = true) (runs : springing s = true) (up : stepDone s 4 = true) (idle : f.val ∉ s.boot.fcRunning)
    (sound : f.val ∉ s.boot.fcFailed) : exec (.fieldControllerBoot f) s = .next
      (if manifestFails s i == 0 && typeOk s i 2 then fcStarted f s else springFieldLost f 7 (fcFailed f s)) := by
  have starts : (springing s && (stepDone s 4 && !(s.boot.fcRunning.contains f.val || s.boot.fcFailed.contains f.val))) = true := by
    simp [runs, up, idle, sound]
  refine congrArg Host.Outcome.next ((powered_on on _).trans ?_)
  simp only [slot, starts, tried, Bool.true_or, Bool.and_self, if_true]
  exact if_congr Iff.rfl rfl rfl

theorem completes_fieldControllerBoot {f : FieldId} {i : Nat} {s : State} (on : On s) (slot : s.nvm.slot = some i)
    (tried : fieldTried s f = true) (runs : springing s = true) (up : stepDone s 4 = true) (idle : f.val ∉ s.boot.fcRunning)
    (sound : f.val ∉ s.boot.fcFailed) :
    (manifestFails s i = 0 → typeOk s i 2 = true → Completes (.fieldControllerBoot f) s fun u =>
      f.val ∈ u.boot.fcRunning ∧ f.val ∈ u.boot.keyLocked ∧ (tget (fun _ => []) u.boot.nonces f.val).length = 32 ∧
      u = { s with boot := u.boot, free := u.free }) ∧
    (typeOk s i 2 = false → Completes (.fieldControllerBoot f) s fun u => f.val ∈ u.boot.fcFailed ∧
      f.val ∉ u.boot.fcRunning ∧ fieldLive u f = false ∧ mapField u.boot.map f = 29) := by
  have eq := exec_fieldControllerBoot on slot tried runs up idle sound
  refine ⟨fun manifest own => ⟨fcStarted f s, ?_, ?_⟩, fun bad => ⟨springFieldLost f 7 (fcFailed f s), ?_, ?_⟩⟩
  · rw [eq, if_pos (by simp [manifest, own])]
  · exact ⟨List.mem_append_right _ List.mem_cons_self, List.mem_append_right _ List.mem_cons_self, length_freshNonce f s, rfl⟩
  · rw [eq, if_neg (by simp [bad])]
  · have kept := springFieldLost_springKept f 7 (fcFailed f s)
    obtain ⟨dead, byte⟩ := springFieldLost_field f 7 (fcFailed f s)
    refine ⟨?_, ?_, dead, byte⟩
    · rw [kept.boot]
      exact List.mem_append_right _ List.mem_cons_self
    · rw [kept.boot]
      exact fun h => by simpa using (List.mem_filter.mp h).2

/-! ### A field's quote (R504) -/

theorem quote_lt (s : State) : get s supIdStat SupIdStat.quote < 2 ^ 12 := Nat.mod_lt _ (by decide)

theorem dropQuote_spec (f : Nat) (s : State) : bit1 (get (dropQuote f s) supIdStat SupIdStat.quote) f = false ∧
    RegsBut (· = supIdStat) s (dropQuote f s) ∧ dropQuote f s = { s with regs := (dropQuote f s).regs, boot := (dropQuote f s).boot } := by
  unfold dropQuote
  dsimp only
  split
  · next held =>
    have less : get s supIdStat SupIdStat.quote - 2 ^ f < 2 ^ 12 := (Nat.sub_le _ _).trans_lt (quote_lt s)
    have away : get (upd supIdStat SupIdStat.quote (get s supIdStat SupIdStat.quote - 2 ^ f) s) supIdStat SupIdStat.quote =
        get s supIdStat SupIdStat.quote - 2 ^ f := by
      rw [get_upd_same _ _ _ _ (by decide)]
      exact Nat.mod_eq_of_lt less
    exact ⟨(congrArg (bit1 · f) away).trans (bit1_sub_self held),
      regsBut_upd (p := (· = supIdStat)) rfl SupIdStat.quote (get s supIdStat SupIdStat.quote - 2 ^ f) s, rfl⟩
  · next free => exact ⟨Bool.eq_false_iff.mpr free, fun _ _ => rfl, rfl⟩

theorem completes_fieldQuoteReceive {f : FieldId} {q : List Byte} {s : State} (on : On s) (runs : f.val ∈ s.boot.fcRunning) :
    (quoteOk s f q = true → Completes (.fieldQuoteReceive f q) s fun u => tget (fun _ => []) u.boot.quotes f.val = q ∧
      bit1 (get u supIdStat SupIdStat.quote) f = true ∧ RegsBut (· = supIdStat) s u ∧
      u = { s with regs := u.regs, boot := u.boot }) ∧
    (quoteOk s f q = false → Completes (.fieldQuoteReceive f q) s fun u => tget (fun _ => []) u.boot.quotes f.val = [] ∧
      bit1 (get u supIdStat SupIdStat.quote) f = false ∧
      ReportsAnd (· = supIdStat) { s with boot := u.boot } u) := by
  have runs' : ¬ (!s.boot.fcRunning.contains f.val) = true := by simpa using runs
  have eq : exec (.fieldQuoteReceive f q) s = .next (if quoteOk s f q then
      upd supIdStat SupIdStat.quote (get s supIdStat SupIdStat.quote ||| 2 ^ f.val)
        (bt (fun b => { b with quotes := tset (fun _ => []) f.val q b.quotes }) s)
      else logOpen sevNotice kRefused bSup 504 0 f (dropQuote f s)) :=
    congrArg Host.Outcome.next ((powered_on on _).trans (if_neg runs'))
  refine ⟨fun ok => ⟨_, eq.trans (congrArg _ (if_pos ok)), tget_tset_same _ _ _ _, ?_, regsBut_upd (p := (· = supIdStat)) rfl
    SupIdStat.quote (get s supIdStat SupIdStat.quote ||| 2 ^ f.val) _, rfl⟩,
    fun bad => ⟨_, eq.trans (congrArg _ (if_neg (Bool.eq_false_iff.mp bad))), ?_⟩⟩
  · rw [get_upd_same _ _ _ _ (by decide)]
    have fits : get s supIdStat SupIdStat.quote ||| 2 ^ f.val < 2 ^ 12 :=
      Nat.or_lt_two_pow (quote_lt s) (Nat.pow_lt_pow_right (by decide) f.isLt)
    exact (congrArg (bit1 · f.val) (Nat.mod_eq_of_lt fits)).trans (bit1_or_self _ _)
  · obtain ⟨clear, regs, same⟩ := dropQuote_spec f s
    have quotes : tget (fun _ => []) (dropQuote f s).boot.quotes f.val = [] := tget_tset_same _ _ _ _
    obtain ⟨logRegs, logSame⟩ := logOpen_reports sevNotice kRefused bSup 504 0 f (dropQuote f s)
    generalize logOpen sevNotice kRefused bSup 504 0 f (dropQuote f s) = u at logRegs logSame
    generalize dropQuote f s = v at clear regs same quotes logRegs logSame
    have boot : u.boot = v.boot := by rw [logSame]
    refine ⟨by rw [boot]; exact quotes, ?_, fun o ho => ?_, ?_⟩
    · rw [RegsBut.get_eq logRegs (not_reportReg_supIdStat)]
      exact clear
    · exact (logRegs o fun h => ho (.inr h)).trans (regs o fun h => ho (.inl h))
    · rw [logSame, same]

end Sys2Proof.Machine
end

section
/-! The steps of SPRING (R256, R271, R411, R437, R438, R471). -/

namespace Sys2Proof.Machine

open Sys2Proof

/-! ### Reports beside further registers -/

namespace ReportsAnd

variable {p : Nat → Prop} {s v u : State}

theorem refl (p : Nat → Prop) (s : State) : ReportsAnd p s s := ⟨fun _ _ => rfl, rfl⟩

theorem trans (h : ReportsAnd p s v) (k : ReportsAnd p v u) : ReportsAnd p s u := by
  obtain ⟨regs, same⟩ := h
  obtain ⟨regs', same'⟩ := k
  exact ⟨regs.trans regs', by rw [same', same]⟩

theorem upd {o : Nat} (h : p o) (f : Fld) (x : Nat) (s : State) : ReportsAnd p s (upd o f x s) :=
  ⟨regsBut_upd (p := fun o => p o ∨ ReportReg o) (.inl h) f x s, rfl⟩

theorem workSame (h : ReportsAnd p s u) : WorkSame s u := by
  unfold WorkSame
  rw [h.2]
  exact ⟨rfl, rfl, rfl, rfl, rfl, rfl, rfl⟩

theorem get_eq (h : ReportsAnd p s u) {o : Nat} (ne : ¬ p o) (low : ¬ ReportReg o) (f : Fld) : get u o f = get s o f :=
  RegsBut.get_eq h.1 (not_or.mpr ⟨ne, low⟩) f

end ReportsAnd

theorem Reports.reportsAnd {s u : State} (h : Reports s u) (p : Nat → Prop) : ReportsAnd p s u := ⟨h.1.mono fun _ => .inr, h.2⟩

theorem springStop_reports (code : Nat) (s : State) : ReportsAnd (· = supBootStat) s (springStop code s) := by
  have shown := (ReportsAnd.upd (p := (· = supBootStat)) rfl SupBootStat.stopCode code s).trans
    (.upd (p := (· = supBootStat)) rfl SupBootStat.stage 8 _)
  have raised : ∀ v, ReportsAnd (· = supBootStat) v (i3cRaise 0x80 v) := fun _ => ⟨fun _ _ => rfl, rfl⟩
  exact (shown.trans ((logCoded_reports sevFatal kState bSup 438 0 code 0 _).reportsAnd _)).trans (raised _)

/-! ### Supplies and alignment (R255, R411, R437) -/

theorem springStep_fabricUp {s : State} (may : mayStep s 4 [3] = true) (up : ∀ f : FieldId, fieldTried s f = true →
    .field f ∈ s.power.up ∧ f.val ∈ s.clock.locked) : springStep (.fabricUp []) s =
    finishStep 4 (upd clkStat ClkStat.div (get s clkCtrl ClkCtrl.targetDiv) s) := by
  have none : ((triedFields s).filter fun f => !(s.power.up.contains (.field (Fin.ofNat 12 f)) && s.clock.locked.contains f)) = [] := by
    refine List.filter_eq_nil_iff.mpr fun f mem => ?_
    obtain ⟨low, tried⟩ := List.mem_filter.mp mem
    have lt : f < 12 := List.mem_range.mp low
    obtain ⟨supply, locked⟩ := up ⟨f, lt⟩ tried
    have same : (Fin.ofNat 12 f : FieldId) = ⟨f, lt⟩ := Fin.ext (Nat.mod_eq_of_lt lt)
    rw [same]
    simp [supply, locked]
  unfold springStep
  simp only [none, may, List.all_nil, Bool.and_self, if_true, List.foldl_nil]

theorem completes_fabricUp {s : State} (on : On s) (may : mayStep s 4 [3] = true) (up : ∀ f : FieldId, fieldTried s f = true →
    .field f ∈ s.power.up ∧ f.val ∈ s.clock.locked) : Completes (.springStep (.fabricUp [])) s fun u =>
      4 ∈ u.boot.steps ∧ get u clkStat ClkStat.div = get s clkCtrl ClkCtrl.targetDiv ∧
      RegsBut (fun o => o = clkStat ∨ o = supBootStat) s u ∧ u = { s with regs := u.regs, boot := u.boot } := by
  refine ⟨_, exec_springStep on _, ?_⟩
  rw [springStep_fabricUp may up]
  have regs := finishStep_regs 4 (upd clkStat ClkStat.div (get s clkCtrl ClkCtrl.targetDiv) s)
  refine ⟨mem_finishStep 4 _, ?_, ?_, finishStep_same 4 _⟩
  · rw [RegsBut.get_eq regs (by decide), get_upd_same _ _ _ _ (by decide)]
    exact Nat.mod_eq_of_lt (Nat.mod_lt _ (by decide))
  · exact (regsBut_upd (p := fun o => o = clkStat ∨ o = supBootStat) (.inl rfl) _ _ s).trans (regs.mono fun _ => .inr)

/-- The interpolators take the codes that the alignment found. -/
def interpSet (interp : List Int) : Table Int :=
  (List.range 12).foldl (fun t f => tset (fun _ => 0) f ((interp[f]?).getD 0 % 64) t) []

theorem tget_interpSet (interp : List Int) {f : Nat} (low : f < 12) : tget (fun _ => 0) (interpSet interp) f = (interp[f]?).getD 0 % 64 :=
  tget_foldl_tset_mem (fun _ => 0) (fun f => (interp[f]?).getD 0 % 64) (List.mem_range.mpr low) []

theorem finishStep_clock (n : Nat) (s : State) : (finishStep n s).clock = s.clock := by rw [finishStep_same]

theorem springStep_aligned {s : State} (may : mayStep s 5 [4] = true) (fc : ∀ f ∈ triedFields s, f ∈ s.boot.fcRunning)
    (attempts : List (List Int)) (interp : List Int) : springStep (.aligned attempts [] interp) s =
    if (attempts.take 3).any (alignedOk s) then finishStep 5 { s with clock := { s.clock with
        synced := triedFields s, offset := [], slew := [], interp := interpSet interp } }
    else if 3 ≤ attempts.length then springStop 2 (logOpen sevFatal kFault bClk 411 0 0 s) else s := by
  have all : ((triedFields s).all fun f => s.boot.fcRunning.contains f) = true := by simpa using fc
  have go : (mayStep s 5 [4] && (triedFields s).all fun f => s.boot.fcRunning.contains f) = true := by rw [may, all]; rfl
  exact if_pos go

theorem completes_aligned {s : State} (on : On s) (may : mayStep s 5 [4] = true) (fc : ∀ f ∈ triedFields s, f ∈ s.boot.fcRunning)
    (a b c interp : List Int) :
    (alignedOk s a = true → Completes (.springStep (.aligned [a] [] interp)) s fun u => 5 ∈ u.boot.steps ∧
      u.clock.synced = triedFields s ∧
      (∀ f, f < 12 → tget (fun _ => 0) u.clock.interp f = (interp[f]?).getD 0 % 64) ∧ RegsBut (· = supBootStat) s u) ∧
    (alignedOk s a = false → alignedOk s b = false → alignedOk s c = false →
      Completes (.springStep (.aligned [a, b, c] [] interp)) s fun u => get u supBootStat SupBootStat.stage = 8 ∧
        get u supBootStat SupBootStat.stopCode = 2 ∧ WorkSame s u ∧ u.boot = s.boot) := by
  refine ⟨fun ok => ⟨_, exec_springStep on _, ?_⟩, fun na nb nc => ⟨_, exec_springStep on _, ?_⟩⟩
  · have one : ([a].take 3).any (alignedOk s) = true := by simp [ok]
    rw [springStep_aligned may fc, if_pos one]
    refine ⟨mem_finishStep 5 _, ?_, fun f low => ?_, finishStep_regs 5 _⟩
    · rw [finishStep_clock]
    · rw [finishStep_clock]
      dsimp only
      rw [tget_interpSet interp low]
  · have failed : ¬ ([a, b, c].take 3).any (alignedOk s) = true := by simp [na, nb, nc]
    rw [springStep_aligned may fc, if_neg failed, if_pos (show 3 ≤ [a, b, c].length from le_rfl)]
    have logged := logOpen_reports sevFatal kFault bClk 411 0 0 s
    refine ⟨get_springStop_stage _ _, get_springStop_code (by decide) _, logged.workSame.trans (springStop_reports 2 _).workSame, ?_⟩
    rw [springStop_boot, logged.2]

/-! ### The hosts and HBM (R437, R471) -/

/-- The registers that the check of the head ranges may change. -/
def RangeReg (o : Nat) : Prop := ∃ h, h < 2 ∧ (o = ownHeadRange h ∨ o = queHeadStat h)

theorem not_rangeReg_of_low {o : Nat} (h : o < 0x1010 ∨ 0x1018 ≤ o ∧ o < 0x800000) : ¬ RangeReg o := by
  rintro ⟨i, hi, e | e⟩
  · simp only [ownHeadRange] at e
    omega
  · simp only [queHeadStat] at e
    omega

theorem reduceRanges_reports (rb : Nat) (s : State) : ReportsAnd RangeReg s (reduceRanges rb s) := by
  refine foldl_related (R := ReportsAnd RangeReg) (.refl _) .trans [0, 1] (fun h mem v => ?_) s
  have low : h < 2 := by
    simp at mem
    omega
  have noted : ∀ (a b c d e g : Nat) (w : State), ReportsAnd RangeReg w (logOpen a b c d e g w) := fun a b c d e g w =>
    (logOpen_reports a b c d e g w).reportsAnd _
  extract_lets base size reduced
  have range : ReportsAnd RangeReg v reduced := by
    unfold reduced
    split
    · exact (ReportsAnd.upd ⟨h, low, .inl rfl⟩ _ _ v).trans (noted _ _ _ _ _ _ _)
    · exact .refl _ v
  clear_value reduced
  refine range.trans (foldl_related (R := ReportsAnd RangeReg) (.refl _) .trans _ (fun d _ w => ?_) reduced)
  split
  · split
    · exact .refl _ w
    · exact (ReportsAnd.upd ⟨h, low, .inr rfl⟩ _ _ w).trans (noted _ _ _ _ _ _ _)
  · exact .refl _ w

theorem completes_cxlReady {s : State} (on : On s) (may : mayStep s 7 [3] = true) (fw : 6 ∈ s.boot.loaded) :
    Completes (.springStep .cxlReady) s fun u => 7 ∈ u.boot.steps ∧
      u.nvm.boots = s.nvm.boots + 1 ∧ get u queBootId QueBootId.boots = (s.nvm.boots + 1) % 2 ^ 32 := by
  have go : (mayStep s 7 [3] && s.boot.loaded.contains 6) = true := by simp [may, fw]
  have eq : springStep .cxlReady s = finishStep 7 (reduceRanges (rbKnown (writeDevice (upd queBootId QueBootId.boots (s.nvm.boots + 1)
      (nv (fun n => { n with boots := n.boots + 1 }) s)))) (writeDevice (upd queBootId QueBootId.boots (s.nvm.boots + 1)
      (nv (fun n => { n with boots := n.boots + 1 }) s)))) := if_pos go
  refine ⟨_, exec_springStep on _, ?_⟩
  rw [eq]
  have count : get (upd queBootId QueBootId.boots (s.nvm.boots + 1) (nv (fun n => { n with boots := n.boots + 1 }) s)) queBootId
      QueBootId.boots = (s.nvm.boots + 1) % 2 ^ 32 := get_upd_same _ _ _ _ (by decide)
  have boots : (upd queBootId QueBootId.boots (s.nvm.boots + 1) (nv (fun n => { n with boots := n.boots + 1 }) s)).nvm.boots =
      s.nvm.boots + 1 := rfl
  generalize upd queBootId QueBootId.boots (s.nvm.boots + 1) (nv (fun n => { n with boots := n.boots + 1 }) s) = v at count boots
  obtain ⟨regs, same⟩ := writeDevice_recorded (fun _ => False) v
  generalize writeDevice v = w at regs same
  have ranges := reduceRanges_reports (rbKnown w) w
  generalize reduceRanges (rbKnown w) w = x at ranges
  refine ⟨mem_finishStep 7 x, ?_, ?_⟩
  · rw [finishStep_same, ranges.2, same]
    exact boots
  · rw [RegsBut.get_eq (finishStep_regs 7 x) (by decide), ranges.get_eq (not_rangeReg_of_low (by decide))
      (not_reportReg_of_low (by decide) (by decide)), RegsBut.get_eq regs id]
    exact count

theorem completes_hbmReady {s : State} (on : On s) (may : mayStep s 8 [3] = true) (fw : 4 ∈ s.boot.loaded) :
    Completes (.springStep .hbmReady) s fun u => 8 ∈ u.boot.steps ∧
      RegsBut (· = supBootStat) s u ∧ u = { s with regs := u.regs, boot := u.boot } := by
  have go : (mayStep s 8 [3] && s.boot.loaded.contains 4) = true := by simp [may, fw]
  refine ⟨_, exec_springStep on _, ?_⟩
  rw [show springStep .hbmReady s = finishStep 8 s from if_pos go]
  exact ⟨mem_finishStep 8 s, finishStep_regs 8 s, finishStep_same 8 s⟩

/-! ### HBM is trained (R256, R271, R272) -/

theorem not_sliceReg {n m : Nat} (hm : m < 768) (ne : m ≠ n) : ¬ SliceReg n (hbmSlice m) :=
  not_or.mpr ⟨hbmSlice_ne ne, not_countReg_slice hm⟩

/-- A slice is RETIRED with cause TRAINING. -/
def Untrained (n : Nat) (s : State) : Prop := n < 768 →
  sliceState s n = slRetired ∧ get s (hbmSlice n) HbmSlice.cause = rcTraining

theorem Untrained.kept {n : Nat} {p : Nat → Prop} {s u : State} (h : Untrained n s) (k : Bookkept p s u)
    (hp : n < 768 → ¬ p (hbmSlice n)) : Untrained n u := fun low =>
  ⟨(k.get_eq (hp low) _).trans (h low).1, (k.get_eq (hp low) _).trans (h low).2⟩

/-- A slice's retirement is counted, unless it was RETIRED already. -/
theorem sliceUntrained_counted (n : Nat) (s : State) :
    Bookkept CountReg (sliceWritten n slRetired rcTraining s) (sliceUntrained s n) := by
  unfold sliceUntrained
  extract_lets was written k
  have counted : ∀ o w x v, Bookkept CountReg v (lifeSet o w x v) := fun _ _ _ _ => ⟨fun _ _ => rfl, rfl, rfl, rfl, rfl⟩
  exact .ite (.refl _ _) ((counted _ _ _ _).trans (logCoded_bookkept _ _ _ _ _ _ _ _))

theorem untrained_sliceUntrained (n : Nat) (s : State) : Untrained n (sliceUntrained s n) :=
  Untrained.kept (fun _ => ⟨sliceState_sliceWritten (by decide) n _ s, cause_sliceWritten (by decide) n _ s⟩)
    (sliceUntrained_counted n s) not_countReg_slice

theorem untrained_sliceUntrained_of_untrained {n : Nat} {s : State} (h : Untrained n s) (m : Nat) : Untrained n (sliceUntrained s m) := by
  by_cases e : n = m
  · subst e
    exact untrained_sliceUntrained n s
  · have kept := ((sliceWritten_bookkept m slRetired rcTraining s).mono (r := SliceReg m) fun _ => .inl).trans
      ((sliceUntrained_counted m s).mono fun _ => .inr)
    exact h.kept kept fun low => not_sliceReg low e

theorem foldl_sliceUntrained (l : List Nat) (s : State) {n : Nat} (h : n ∈ l ∨ Untrained n s) : Untrained n (l.foldl sliceUntrained s) :=
  foldl_establishes (P := Untrained) (fun t v => untrained_sliceUntrained t v) (fun _ t' _ h => untrained_sliceUntrained_of_untrained h t') l s n h

/-- The slices of a stack. -/
def StackUntrained (k : Nat) (s : State) : Prop := ∀ i, i < 32 → Untrained (32 * k + i) s

theorem stackUntrained_stackUntrained (s : State) (k : Nat) : StackUntrained k (stackUntrained s k) := fun _ hi =>
  foldl_sliceUntrained _ _ (.inl (List.mem_map.mpr ⟨_, List.mem_range.mpr hi, rfl⟩))

theorem untrained_stackUntrained {n : Nat} {s : State} (h : Untrained n s) (k : Nat) : Untrained n (stackUntrained s k) :=
  foldl_sliceUntrained _ _ (.inr (h.kept (writeRetire_bookkept _ (fun _ => False) s) fun _ => id))

theorem untrained_channelLost {n : Nat} {s : State} (h : Untrained n s) (m : Nat) : Untrained n (channelLost s m) := by
  unfold channelLost
  split
  · next works =>
    by_cases e : n = m
    · subst e
      intro low
      rw [(h low).1] at works
      exact absurd works (by decide)
    · exact h.kept (setSlice_bookkept m _ _ s) fun low => not_sliceReg low e
  · exact h

theorem writeRetire_workSame (l : List (Nat × Nat)) (s : State) : WorkSame s (writeRetire l s) := by
  have noted : ∀ x : HbmState, WorkSame s { s with hbmState := x } := fun _ => ⟨rfl, rfl, rfl, rfl, rfl, rfl, rfl⟩
  exact (noted _).trans (nvmPages_recorded (fun _ => False) arRetire 4 _).workSame

theorem countSlices_workSame (s : State) : WorkSame s (countSlices s) := (upd_workSame _ _ _ s).trans (upd_workSame _ _ _ _)

theorem setSlice_workSame (n st cause : Nat) (s : State) : WorkSame s (setSlice n st cause s) :=
  (((writeRetire_workSame _ s).trans ((upd_workSame _ _ _ _).trans (upd_workSame _ _ _ _))).trans (countSlices_workSame _)).trans
    (logCoded_reports _ _ _ _ _ _ _ _).workSame

theorem WorkSame.refl (s : State) : WorkSame s s := ⟨rfl, rfl, rfl, rfl, rfl, rfl, rfl⟩

theorem sliceUntrained_workSame (s : State) (n : Nat) : WorkSame s (sliceUntrained s n) := by
  unfold sliceUntrained
  extract_lets was written k
  have shown : WorkSame s written := (upd_workSame _ _ _ s).trans (upd_workSame _ _ _ _)
  have counted : ∀ o w x v, WorkSame v (lifeSet o w x v) := fun _ _ _ _ => ⟨rfl, rfl, rfl, rfl, rfl, rfl, rfl⟩
  split
  · exact shown
  · exact (shown.trans (counted _ _ _ _)).trans (logCoded_reports _ _ _ _ _ _ _ _).workSame

theorem stackUntrained_workSame (s : State) (k : Nat) : WorkSame s (stackUntrained s k) :=
  (writeRetire_workSame _ s).trans (foldl_related (R := WorkSame) .refl .trans _ (fun n _ v => sliceUntrained_workSame v n) _)

theorem channelLost_workSame (s : State) (n : Nat) : WorkSame s (channelLost s n) := by
  unfold channelLost
  split
  · exact setSlice_workSame _ _ _ s
  · exact .refl s

/-- The repairs that training found are noted, the stacks that fail it and the channels that it loses leave service, and the
slices are counted. -/
def hbmTrained (failed lost : List Nat) (repaired : List (Nat × Nat)) (s : State) : State :=
  let s := { s with hbmState := { s.hbmState with repaired := repaired } }
  let s := lost.eraseDups.foldl channelLost (failed.eraseDups.foldl stackUntrained s)
  upd hbmMapStat HbmMapStat.retired (slicesWith s slRetired) (countSlices s)

theorem hbmTrained_workSame (failed lost : List Nat) (repaired : List (Nat × Nat)) (s : State) :
    WorkSame s (hbmTrained failed lost repaired s) := by
  have noted : WorkSame s { s with hbmState := { s.hbmState with repaired := repaired } } := ⟨rfl, rfl, rfl, rfl, rfl, rfl, rfl⟩
  have trained := foldl_related (R := WorkSame) .refl .trans failed.eraseDups (fun k _ v => stackUntrained_workSame v k)
  have channels := foldl_related (R := WorkSame) .refl .trans lost.eraseDups (fun n _ v => channelLost_workSame v n)
  exact (((noted.trans (trained _)).trans (channels _)).trans (countSlices_workSame _)).trans (upd_workSame _ _ _ _)

theorem untrained_hbmTrained {k : Nat} {failed : List Nat} (mem : k ∈ failed) (lost : List Nat) (repaired : List (Nat × Nat))
    (s : State) : StackUntrained k (hbmTrained failed lost repaired s) := by
  intro i hi
  have stack : StackUntrained k (failed.eraseDups.foldl stackUntrained { s with hbmState := { s.hbmState with repaired := repaired } }) :=
    foldl_establishes (P := StackUntrained) (fun t v => stackUntrained_stackUntrained v t)
      (fun _ t' _ h i hi => untrained_stackUntrained (h i hi) t') _ _ k (.inl (List.mem_eraseDups.mpr mem))
  have lostToo := List.foldlRecOn lost.eraseDups channelLost (motive := Untrained (32 * k + i)) (stack i hi)
    fun _ h m _ => untrained_channelLost h m
  exact lostToo.kept ((countSlices_bookkept _).trans (.upd (.inl rfl) _ _ _)) not_countReg_slice

theorem completes_hbmTrained {s : State} (on : On s) (may : mayStep s 10 [8] = true) (failed : List StackId) (lost : List SliceId)
    (repaired : List (SliceId × Nat)) : Completes (.springStep (.hbmTrained failed lost repaired)) s fun u => 10 ∈ u.boot.steps ∧
      WorkSame s u ∧ ∀ k ∈ failed, ∀ i, i < 32 → sliceState u (32 * k.val + i) = slRetired ∧
        get u (hbmSlice (32 * k.val + i)) HbmSlice.cause = rcTraining := by
  have eq : springStep (.hbmTrained failed lost repaired) s = finishStep 10 (hbmTrained (failed.map (·.val)) (lost.map (·.val))
      (repaired.map fun e => (e.1.val, e.2)) s) := if_pos may
  refine ⟨_, exec_springStep on _, ?_⟩
  rw [eq]
  have work := hbmTrained_workSame (failed.map (·.val)) (lost.map (·.val)) (repaired.map fun e => (e.1.val, e.2)) s
  have trained : ∀ k ∈ failed, StackUntrained k.val (hbmTrained (failed.map (·.val)) (lost.map (·.val))
      (repaired.map fun e => (e.1.val, e.2)) s) := fun k mem => untrained_hbmTrained (List.mem_map_of_mem mem) _ _ s
  generalize hbmTrained (failed.map (·.val)) (lost.map (·.val)) (repaired.map fun e => (e.1.val, e.2)) s = v at work trained
  have done : WorkSame v (finishStep 10 v) := by
    rw [finishStep_same]
    exact ⟨rfl, rfl, rfl, rfl, rfl, rfl, rfl⟩
  refine ⟨mem_finishStep 10 v, work.trans done, fun k mem i hi => ?_⟩
  have low : 32 * k.val + i < 768 := by
    have := k.isLt
    omega
  obtain ⟨state, cause⟩ := trained k mem i hi low
  have ne : ¬ hbmSlice (32 * k.val + i) = supBootStat := by simp only [hbmSlice, supBootStat]; omega
  exact ⟨(RegsBut.get_eq (finishStep_regs 10 v) ne _).trans state, (RegsBut.get_eq (finishStep_regs 10 v) ne _).trans cause⟩

end Sys2Proof.Machine
end

section
/-! The tests of t9, the reasons to stop SPRING, and the entry into SUMMER (R398, R436–R439). -/

namespace Sys2Proof.Machine

open Sys2Proof

/-! ### The tests of t9 (R439) -/

theorem resetTileRegs_boot (ts : List Nat) (s : State) : (resetTileRegs ts s).boot = s.boot := rfl

theorem sitesReady_boot (s : State) : (sitesReady s).boot = s.boot := by
  have folded : ∀ (l : List Nat) (f : State → Nat → State), (∀ n v, (f v n).boot = v.boot) → ∀ v, (l.foldl f v).boot = v.boot :=
    fun l f h v => foldl_related (R := fun a b => b.boot = a.boot) (fun _ => rfl) (fun p q => q.trans p) l (fun n _ w => h n w) v
  have rest : ∀ n v, (restCluster v n).boot = v.boot := fun n v => by
    unfold restCluster
    split <;> rfl
  have verified : ∀ t v, (sinceKatZero t (broadcast t v)).boot = v.boot := fun t v => by
    unfold sinceKatZero
    dsimp only
    split <;> rfl
  have unfenced : ∀ n v, (if fieldLive v (linkField n) then linkUnfence n v else v).boot = v.boot := fun n v => by
    unfold linkUnfence
    dsimp only
    split
    · split <;> rfl
    · rfl
  have rejoined : ∀ n v, (if linkOpen v n then updLink n (fun x => { x with usable := true }) v else v).boot = v.boot := fun n v => by
    split <;> rfl
  unfold sitesReady
  extract_lets on power off rested ts reset ready open'
  have h1 : rested.boot = s.boot := folded (List.range 240) restCluster rest off
  have h2 : reset.boot = rested.boot := resetTileRegs_boot ts rested
  have h3 : ready.boot = reset.boot := folded ts (fun s t => sinceKatZero t (broadcast t s)) verified reset
  have h4 : open'.boot = ready.boot := folded _ _ unfenced _
  have h5 : (rejoinPorts open').boot = open'.boot := folded _ _ rejoined _
  rw [h5, h4, h3, h2, h1]

/-- The tests of t9 with what follows from their results, before the concourse is made ready. -/
def sitesTested (trims : List (Nat × List Nat)) (phases : List (Nat × Nat)) (failed : List Nat) (s : State) : State :=
  let s := phases.foldl phaseTested s
  let s := (clustersToTest s).foldl (trimCluster trims) s
  let fs := triedFields s
  let tests := fs.flatMap fun f => (fieldSites f).filter fun n =>
    testable s.boot.map n && get s (pwrClStat (siteCluster n)) PwrClStat.state == 3
  let s := addR (intCnt IntCnt.katRuns) tests.length s
  let s := addR (intCnt IntCnt.katFails) (tests.filter failed.contains).length s
  fs.foldl (fieldTested (siteFails s trims failed) (s.boot.mapLost || (match s.boot.repair with
    | some (1, _) => true
    | _ => false))) s

theorem springTested_eq (trims : List (Nat × List Nat)) (phases : List (Nat × Nat)) (failed : List Nat) (s : State) :
    springTested trims phases failed s =
      if springing (bt (fun b => { b with repair := none, mapLost := false }) (sitesTested trims phases failed s)) then
        finishStep 9 (sitesReady (bt (fun b => { b with repair := none, mapLost := false }) (sitesTested trims phases failed s)))
      else bt (fun b => { b with repair := none, mapLost := false }) (sitesTested trims phases failed s) := rfl

theorem sitesTested_springKept (trims : List (Nat × List Nat)) (phases : List (Nat × Nat)) (failed : List Nat) (s : State) :
    SpringKept s (sitesTested trims phases failed s) := by
  unfold sitesTested
  extract_lets phased trimmed fs tests runs fails
  have h1 : SpringKept s phased := .foldl _ (fun e _ v => phaseTested_springKept e v) s
  have h2 : SpringKept phased trimmed := .foldl _ (fun g _ v => trimCluster_springKept trims g v) _
  have h3 : SpringKept trimmed runs := .put (by decide) _ _
  have h4 : SpringKept runs fails := .put (by decide) _ _
  clear_value phased trimmed runs fails
  exact (((h1.trans h2).trans h3).trans h4).trans (.foldl _ (fun f _ v => fieldTested_springKept _ _ f v) _)

theorem completes_tested {s : State} (on : On s) (may : mayStep s 9 [6] = true) (rest : ∀ g ∈ clustersToTest s,
    get s (pwrClStat g) PwrClStat.state = 3 ∨ get s (pwrClStat g) PwrClStat.state = 4) (tr : List (Nat × List Nat))
    (ph : List (Nat × Nat)) (fl : List Nat) : Completes (.springStep (.tested tr ph fl)) s fun u => u.boot.repair = none ∧
      (9 ∈ u.boot.steps ∨ get u supBootStat SupBootStat.stage = 8) := by
  have all : ((clustersToTest s).all fun g => get s (pwrClStat g) PwrClStat.state == 3 || get s (pwrClStat g) PwrClStat.state == 4) =
      true := by simpa using rest
  have go : (mayStep s 9 [6] && (clustersToTest s).all fun g =>
      get s (pwrClStat g) PwrClStat.state == 3 || get s (pwrClStat g) PwrClStat.state == 4) = true := by rw [may, all]; rfl
  have eq : springStep (.tested tr ph fl) s = springTested tr ph fl s := if_pos go
  refine ⟨_, exec_springStep on _, ?_⟩
  rw [eq, springTested_eq]
  have spring := (sitesTested_springKept tr ph fl s).devState.trans (springing_of_mayStep may).1
  generalize sitesTested tr ph fl s = v at spring
  split
  · refine ⟨?_, .inl (mem_finishStep 9 _)⟩
    rw [finishStep_boot, sitesReady_boot]
    rfl
  · next stopped =>
    refine ⟨rfl, .inr ?_⟩
    have still : devState (bt (fun b => { b with repair := none, mapLost := false }) v) = .spring := spring
    simpa [springing, still] using stopped

/-! ### Reasons to stop (R438) -/

theorem completes_firmwareStop {s : State} (on : On s) (runs : springing s = true) (early : stepDone s 3 = false) :
    Completes (.springStep .firmwareStop) s fun u => get u supBootStat SupBootStat.stage = 8 ∧
      get u supBootStat SupBootStat.stopCode = 4 ∧ ReportsAnd (· = supBootStat) s u := by
  have go : (springing s && !stepDone s 3) = true := by rw [runs, early]; rfl
  refine ⟨_, exec_springStep on _, ?_⟩
  rw [show springStep .firmwareStop s = springStop 4 s from if_pos go]
  exact ⟨get_springStop_stage 4 s, get_springStop_code (by decide) s, springStop_reports 4 s⟩

/-- What a head's loss of its link keeps: HBM, the tiles, and the states of the fabric's links. -/
structure LinksKept (s u : State) : Prop where
  hbm : u.hbm = s.hbm
  tiles : u.tiles = s.tiles
  links : ∀ n, n < 96 → rd u (lnkStat n) = rd s (lnkStat n)

namespace LinksKept

variable {s v u : State}

theorem refl (s : State) : LinksKept s s := ⟨rfl, rfl, fun _ _ => rfl⟩

theorem trans (h : LinksKept s v) (k : LinksKept v u) : LinksKept s u :=
  ⟨k.hbm.trans h.hbm, k.tiles.trans h.tiles, fun n hn => (k.links n hn).trans (h.links n hn)⟩

theorem put {o : Nat} (h : o < 0x30000 ∨ 0x800000 ≤ o) (x : Reg) (s : State) : LinksKept s (put o x s) :=
  ⟨rfl, rfl, fun n hn => rd_put_ne (by simp only [lnkStat]; omega) x s⟩

theorem upd {o : Nat} (h : o < 0x30000 ∨ 0x800000 ≤ o) (f : Fld) (x : Nat) (s : State) : LinksKept s (upd o f x s) := put h _ s

theorem foldl {α : Type} {f : State → α → State} (l : List α) (h : ∀ x s, LinksKept s (f s x)) (s : State) :
    LinksKept s (l.foldl f s) :=
  foldl_related (R := LinksKept) .refl .trans l (fun x _ v => h x v) s

end LinksKept

theorem Reports.linksKept {s u : State} (h : Reports s u) : LinksKept s u := by
  refine ⟨by rw [h.2], by rw [h.2], fun n hn => h.1 _ (not_reportReg_of_low ?_ ?_)⟩
  · simp only [lnkStat]
    omega
  · simp only [lnkStat, ledLogStat]
    omega

theorem closeHead_linksKept (h : Nat) (s : State) : LinksKept s (closeHead h s) := by
  have disabled : LinksKept s ((List.range 64).foldl (fun s q =>
      upd (queSqCfg h q) QueSqCfg.enable 0 (upd (queCqCfg h q) QueCqCfg.enable 0 s)) s) :=
    .foldl _ (fun q v => (LinksKept.upd (.inr (by simp only [queCqCfg]; omega)) _ _ v).trans
      (.upd (.inr (by simp only [queSqCfg]; omega)) _ _ _)) s
  have closed : ∀ v : State, LinksKept v { v with host := { v.host with closing := v.host.closing.filter (· != h) } } := fun _ =>
    ⟨rfl, rfl, fun _ _ => rfl⟩
  unfold closeHead
  split
  · exact disabled.trans (closed _)
  · exact .refl s

theorem headDown_linksKept (h : Nat) (s : State) : LinksKept s (headDown h s) := by
  have high : ∀ {o : Nat}, 0x800000 ≤ o → ∀ x v, LinksKept v (put o x v) := fun ho x v => .put (.inr ho) x v
  have spdm : ∀ v, LinksKept v (spdmClose h v) := fun _ => ⟨rfl, rfl, fun _ _ => rfl⟩
  have closing : ∀ v : State, LinksKept v { v with host := { v.host with closing := h :: v.host.closing.filter (· != h) } } := fun _ =>
    ⟨rfl, rfl, fun _ _ => rfl⟩
  unfold headDown
  split
  · exact .refl s
  · extract_lets down vectors pending host noted
    have h1 : LinksKept s down := (high (by simp only [queHeadStat]; omega) _ s).trans (spdm _)
    have h2 : LinksKept down vectors := .foldl _ (fun v w => (high (by simp only [msixData]; omega) _ w).trans
      (high (by simp only [msixAddr]; omega) _ _)) _
    have h3 : LinksKept vectors pending := (high (by simp only [msixPba]; omega) _ _).trans (high (by simp only [msixPba]; omega) _ _)
    have h4 : LinksKept pending noted := closing _
    have held : ∀ v, LinksKept v (reholder v) := fun v =>
      ⟨rfl, rfl, fun n hn => regsBut_reholder (p := (· = ownStat)) rfl v _ (by simp only [lnkStat, ownStat]; omega)⟩
    clear_value noted pending vectors down
    exact (((((h1.trans h2).trans h3).trans h4).trans (held _)).trans (closeHead_linksKept h _)).trans
      (logOpen_reports _ _ _ _ _ _ _).linksKept

/-- Every link goes DOWN, its run cleared. -/
def linksDropped (s : State) : State := (List.range 96).foldl (fun s n => setLinkSt n lsDown (updLink n clearedLink s)) s

theorem linkSt_linksDropped (s : State) {n : Nat} (hn : n < 96) : linkSt (linksDropped s) n = lsDown := by
  refine foldl_establishes (P := fun n v => linkSt v n = lsDown) (f := fun s n => setLinkSt n lsDown (updLink n clearedLink s))
    (fun t v => linkSt_setLinkSt (by decide) t _) (fun t t' v down => ?_) (List.range 96) s n (.inl (List.mem_range.mpr hn))
  by_cases e : t = t'
  · subst e
    exact linkSt_setLinkSt (by decide) t _
  · refine (get_upd_ne ?_ _ _ _ _).trans down
    simp only [lnkStat]
    omega

theorem linksDropped_hbm (s : State) : (linksDropped s).hbm = s.hbm ∧ (linksDropped s).tiles = s.tiles := by
  unfold linksDropped
  exact List.foldlRecOn (List.range 96) _ (motive := fun v : State => v.hbm = s.hbm ∧ v.tiles = s.tiles) ⟨rfl, rfl⟩ fun _ h _ _ => h

/-- The domains held: the links are down, nothing else of the device's work has changed, and the auxiliary rails are marked. -/
theorem domainsHeld_spec (s : State) : LinksKept (linksDropped s) (domainsHeld s) ∧ (domainsHeld s).power.auxStopped = true := by
  have heads : LinksKept (linksDropped s) ([0, 1].foldl (fun s h =>
      upd pwrAuxStat (if h = 0 then PwrAuxStat.haDown else PwrAuxStat.hbDown) 1 (headDown h s)) (linksDropped s)) :=
    .foldl _ (fun h v => (headDown_linksKept h v).trans (.upd (.inl (by decide)) _ _ _)) _
  have stopped : ∀ (v : State) x, LinksKept v { v with power := x } := fun _ _ => ⟨rfl, rfl, fun _ _ => rfl⟩
  exact ⟨heads.trans (stopped _ _), rfl⟩

theorem completes_crefAbsent {s : State} (on : On s) (runs : springing s = true) (lost : s.clock.crefLost = true) :
    Completes (.springStep .crefAbsent) s fun u => get u supBootStat SupBootStat.stage = 8 ∧
      get u supBootStat SupBootStat.stopCode = 1 ∧ u.power.auxStopped = true ∧ (∀ n, n < 96 → linkSt u n = lsDown) ∧
      u.hbm = s.hbm ∧ u.tiles = s.tiles := by
  have go : (springing s && s.clock.crefLost) = true := by rw [runs, lost]; rfl
  refine ⟨_, exec_springStep on _, ?_⟩
  rw [show springStep .crefAbsent s = springStop 1 (domainsHeld s) from if_pos go]
  obtain ⟨kept, aux⟩ := domainsHeld_spec s
  generalize domainsHeld s = v at kept aux
  obtain ⟨hbm, tiles⟩ := linksDropped_hbm s
  obtain ⟨regs, same⟩ := springStop_reports 1 v
  refine ⟨get_springStop_stage 1 v, get_springStop_code (by decide) v, ?_, fun n hn => ?_, ?_, ?_⟩
  · rw [same]
    exact aux
  · have low : ¬ (lnkStat n = supBootStat ∨ ReportReg (lnkStat n)) := by
      refine not_or.mpr ⟨?_, not_reportReg_of_low ?_ ?_⟩
      · simp only [lnkStat, supBootStat]
        omega
      · simp only [lnkStat]
        omega
      · simp only [lnkStat, ledLogStat]
        omega
    have down := linkSt_linksDropped s hn
    rw [linkSt, get] at down ⊢
    rw [regs _ low, kept.links n hn]
    exact down
  · rw [same]
    exact kept.hbm.trans hbm
  · rw [same]
    exact kept.tiles.trans tiles

/-! ### The entry into SUMMER (R398, R437) -/

/-- The last step has finished and the time of the bring-up is shown. -/
def springShown (s : State) : State :=
  upd supBootStat SupBootStat.elapsedMs ((s.devtime - s.boot.released) / msTicks) s

theorem springShown_regs (s : State) : RegsBut (· = supBootStat) s (springShown s) := regsBut_upd (p := (· = supBootStat)) rfl _ _ s

theorem exec_springDone {s : State} (on : On s) (may : mayStep s 12 [9, 11] = true) : exec .springDone s = .next
    (setDevState (if get (springShown (finishStep 12 (reduceRanges (reservedBase s) s))) pwrState PwrState.autumnCause = 0 then 2
      else 3) (springShown (finishStep 12 (reduceRanges (reservedBase s) s)))) :=
  congrArg Host.Outcome.next ((powered_on on _).trans (if_pos may))

theorem springShown_boot (s : State) : (springShown s).boot = s.boot := rfl

theorem springShown_kept (s : State) : (springShown s).power.off = s.power.off ∧ (springShown s).hbm = s.hbm ∧
    (springShown s).tiles = s.tiles := ⟨rfl, rfl, rfl⟩

theorem finishStep_kept (n : Nat) (s : State) : (finishStep n s).power.off = s.power.off ∧ (finishStep n s).hbm = s.hbm ∧
    (finishStep n s).tiles = s.tiles := by
  rw [finishStep_same]
  exact ⟨rfl, rfl, rfl⟩

theorem ReportsAnd.kept {p : Nat → Prop} {s u : State} (h : ReportsAnd p s u) : u.power.off = s.power.off ∧ u.hbm = s.hbm ∧
    u.tiles = s.tiles := by
  rw [h.2]
  exact ⟨rfl, rfl, rfl⟩

/-- The device enters SUMMER, or AUTUMN. -/
theorem setDevState_entered {c : Prop} [Decidable c] {s : State} (on : On s) :
    (setDevState (if c then 2 else 3) s).boot = s.boot ∧
    devState (setDevState (if c then 2 else 3) s) = (if c then .summer else .autumn) ∧
    get (setDevState (if c then 2 else 3) s) supBootStat SupBootStat.stage = get s supBootStat SupBootStat.stage ∧
    (setDevState (if c then 2 else 3) s).hbm = s.hbm ∧ (setDevState (if c then 2 else 3) s).tiles = s.tiles := by
  have small : (if c then 2 else 3) < 2 ^ 3 := by split <;> decide
  obtain ⟨regs, same, state, -⟩ := setDevState_stateSet small s
  refine ⟨by rw [same], ?_, RegsBut.get_eq regs (not_or.mpr ⟨by decide, not_reportReg_of_low (by decide) (by decide)⟩) _,
    by rw [same], by rw [same]⟩
  rw [devState_eq (by rw [On, same]; exact on), state]
  split_ifs <;> rfl

theorem completes_springDone {s : State} (on : On s) (may : mayStep s 12 [9, 11] = true) :
    Completes .springDone s fun u => 12 ∈ u.boot.steps ∧
      devState u = (if get s pwrState PwrState.autumnCause = 0 then .summer else .autumn) ∧
      get u supBootStat SupBootStat.stage = 7 ∧ u.hbm = s.hbm ∧ u.tiles = s.tiles := by
  have eq := exec_springDone on may
  have ranges := reduceRanges_reports (reservedBase s) s
  generalize reduceRanges (reservedBase s) s = v at eq ranges
  have runs : get v supBootStat SupBootStat.stage ≠ 8 := by
    rw [ranges.get_eq (not_rangeReg_of_low (by decide)) (not_reportReg_of_low (by decide) (by decide))]
    exact (springing_of_mayStep may).2
  have stage : get (springShown (finishStep 12 v)) supBootStat SupBootStat.stage = 7 := by
    have last : stageOf (v.boot.steps ++ [12]) = 7 := if_pos (by simp)
    rw [springShown, get_upd_other _ _ _ _ _ (by decide) (by decide), finishStep_stage runs, last]
  have power : ∀ f, get (springShown (finishStep 12 v)) pwrState f = get s pwrState f := fun f => by
    rw [RegsBut.get_eq (springShown_regs _) (by decide), RegsBut.get_eq (finishStep_regs 12 v) (by decide),
      ranges.get_eq (not_rangeReg_of_low (by decide)) not_reportReg_pwrState]
  have step : 12 ∈ (springShown (finishStep 12 v)).boot.steps := by
    rw [springShown_boot]
    exact mem_finishStep 12 v
  have off : (springShown (finishStep 12 v)).power.off = none ∧ (springShown (finishStep 12 v)).hbm = s.hbm ∧
      (springShown (finishStep 12 v)).tiles = s.tiles := by
    obtain ⟨o1, h1, t1⟩ := springShown_kept (finishStep 12 v)
    obtain ⟨o2, h2, t2⟩ := finishStep_kept 12 v
    obtain ⟨o3, h3, t3⟩ := ranges.kept
    exact ⟨o1.trans (o2.trans (o3.trans on)), h1.trans (h2.trans h3), t1.trans (t2.trans t3)⟩
  rw [power] at eq
  obtain ⟨on', hbm, tiles⟩ := off
  obtain ⟨boot, dev, stage', hbm', tiles'⟩ := setDevState_entered (c := get s pwrState PwrState.autumnCause = 0) on'
  exact ⟨_, eq, boot ▸ step, dev, stage'.trans stage, hbm'.trans hbm, tiles'.trans tiles⟩

/-- Settles O53: what the operations of bring-up keep is one frame, `SpringKept`; each event then finishes its step or stops
SPRING with its code. -/
theorem bringUpSteps : Obligations.BringUpSteps := by
  refine ⟨fun flips s on may => completes_bootRomStart on may, fun i flips s on slot may => completes_supervisorFirmwareStart on slot may flips,
    fun f i s on slot tried runs up idle sound => completes_fieldControllerBoot on slot tried runs up idle sound,
    fun f q s on runs => completes_fieldQuoteReceive on runs, fun s on => ⟨fun may up => completes_fabricUp on may up,
    fun a b c interp may fc => completes_aligned on may fc a b c interp, fun may fw => completes_cxlReady on may fw,
    fun may fw => completes_hbmReady on may fw, fun tr ph fl may rest => completes_tested on may rest tr ph fl,
    fun failed lost repaired may => completes_hbmTrained on may failed lost repaired,
    fun runs early => completes_firmwareStop on runs early, fun runs lost => completes_crefAbsent on runs lost,
    fun may => completes_springDone on may⟩⟩

end Sys2Proof.Machine
end

section
/-! The queue of waiting commands under the shared operations, ownership, the ledgers, HBM, requests and the host ports. -/

namespace Sys2Proof.Machine

open Sys2Proof

/-- A state written out field by field waits for the commands it was given, whatever its other fields are. -/
theorem mk_pending (p : List Instr) (fr : Nat) (a : Answer) (d : Nat) (r : Table Reg) (h : List Host.Cell)
    (hs : HbmState) (l : LogState) (ti : Table TileState) (rq : ReqState) (nt : NetState) (lk : Table LinkRun)
    (ig : IntegState) (ow : OwnState) (pw : PowerState)
    (ct : ControlState) (ck : ClockState) (bo : BootState) (li : LifeState) (sv : SvcState) (nm : NvmState) (sp : Table SpdmConn)
    (ic : I3cState) (ho : HostState) :
    (State.mk p fr a d r h hs l ti rq nt lk ig ow pw ct ck bo li sv nm sp ic ho).pending = p := rfl

theorem ite_pending {c : Prop} [Decidable c] {a b s : State} (ha : a.pending = s.pending) (hb : b.pending = s.pending) :
    (if c then a else b).pending = s.pending := by
  split
  · exact ha
  · exact hb

/-- What is done once for each element of a list leaves the queue alone when each turn does. -/
theorem foldl_pending {α : Type} {f : State → α → State} (hf : ∀ s x, (f s x).pending = s.pending) (l : List α) (s : State) :
    (l.foldl f s).pending = s.pending := by
  induction l generalizing s with
  | nil => rfl
  | cons x r ih => exact (ih _).trans (hf s x)

/-- `u` waits for the same commands as `s`. A definition of its own, so that a chain of many updates is a chain of links
between opaque states and never one comparison of two states written out. -/
def QueueKept (s u : State) : Prop := u.pending = s.pending

theorem QueueKept.of {s u : State} (h : u.pending = s.pending) : QueueKept s u := h

theorem QueueKept.trans {s v u : State} (h : QueueKept s v) (k : QueueKept v u) : QueueKept s u := Eq.trans k h

theorem QueueKept.after {s v u : State} (h : QueueKept v u) (k : QueueKept s v) : QueueKept s u := k.trans h

theorem foldl_kept {α : Type} {f : State → α → State} (hf : ∀ s x, QueueKept s (f s x)) (l : List α) (s : State) :
    QueueKept s (l.foldl f s) := foldl_pending hf l s

theorem ite_kept {c : Prop} [Decidable c] {a b s : State} (ha : QueueKept s a) (hb : QueueKept s b) :
    QueueKept s (if c then a else b) := ite_pending ha hb

theorem foldl_snd_pending {α β : Type} {f : β × State → α → β × State} (hf : ∀ p x, (f p x).2.pending = p.2.pending) (l : List α)
    (p : β × State) : (l.foldl f p).2.pending = p.2.pending := by
  induction l generalizing p with
  | nil => rfl
  | cons x r ih => exact (ih _).trans (hf p x)

theorem foldl_fst_pending {α β : Type} {f : State × β → α → State × β} (hf : ∀ p x, (f p x).1.pending = p.1.pending) (l : List α)
    (p : State × β) : (l.foldl f p).1.pending = p.1.pending := by
  induction l generalizing p with
  | nil => rfl
  | cons x r ih => exact (ih _).trans (hf p x)

/-! ### The operations that the commands share -/

theorem powered_pending {f : State → State} (hf : ∀ s, (f s).pending = s.pending) (s : State) :
    (powered f s).pending = s.pending := by
  simp only [powered, ↓apply_ite State.pending, ite_self, hf]

theorem freeNat_pending (w : Nat) (s : State) : (freeNat w s).2.pending = s.pending := by simp only [freeNat]

theorem signalVector_pending (h v : Nat) (s : State) : (signalVector h v s).pending = s.pending := by
  simp only [signalVector, ↓put_pending, ↓apply_ite State.pending, ite_self]

theorem raiseBoth_pending (bit : Nat) (s : State) : (raiseBoth bit s).pending = s.pending := by
  simp only [raiseBoth, ↓raiseEvent_pending]

theorem i3cRaise_pending (byte : Nat) (s : State) : (i3cRaise byte s).pending = s.pending := by simp only [i3cRaise]

theorem cxlAppend_pending (key : Nat) (x : LogEntry) (s : State) : (cxlAppend key x s).pending = s.pending := by
  simp only [cxlAppend]

theorem logReport_pending (x : LogEntry) (s : State) : (logReport x s).pending = s.pending := by
  simp only [logReport, ↓cxlAppend_pending, ↓svcEvent_pending, ↓raiseBoth_pending, ↓apply_ite State.pending, ite_self]

theorem logAccess_pending (code : Nat) (m : Master) (off width : Nat) (write : Bool) (s : State) :
    (logAccess code m off width write s).pending = s.pending := by
  simp only [logAccess, ↓logEvent_pending]

theorem setDevState_pending (v : Nat) (s : State) : (setDevState v s).pending = s.pending := by
  simp only [setDevState, ↓upd_pending, ↓svcEvent_pending, ↓raiseBoth_pending, ↓logOpen_pending, ↓apply_ite State.pending,
    ite_self]

/-! ### Masters and ownership -/

theorem reholder_pending (s : State) : (reholder s).pending = s.pending := by simp only [reholder, ↓upd_pending]

theorem setFwSlot_pending (i st result : Nat) (s : State) : (setFwSlot i st result s).pending = s.pending := by
  simp only [setFwSlot, ↓upd_pending]

theorem endUpload_pending (result : Nat) (s : State) : (endUpload result s).pending = s.pending := by
  unfold endUpload
  split <;> simp only [↓setFwSlot_pending, ↓logCoded_pending, ↓upd_pending]

theorem clearPermit_pending (s : State) : (clearPermit s).pending = s.pending := by
  simp only [clearPermit, ↓endUpload_pending, ↓upd_pending]

theorem announceOwner_pending (s : State) : (announceOwner s).pending = s.pending := by
  simp only [announceOwner, ↓svcEvent_pending, ↓raiseBoth_pending, ↓clearPermit_pending, ↓logOpen_pending]

theorem reportOwner_pending (s : State) : (reportOwner s).pending = s.pending := by
  simp only [reportOwner, ↓announceOwner_pending, ↓satAdd_pending]

theorem openWindow_pending (s : State) : (openWindow s).pending = s.pending := by
  simp only [openWindow, ↓upd_pending, ↓raiseBoth_pending, ↓apply_ite State.pending, ite_self]

theorem closeWindow_pending (s : State) : (closeWindow s).pending = s.pending := by
  simp only [closeWindow, ↓raiseBoth_pending, ↓upd_pending, ↓apply_ite State.pending, ite_self]

theorem startLease_pending (s : State) : (startLease s).pending = s.pending := mk_pending ..

theorem makeOwner_pending (m : Master) (s : State) : (makeOwner m s).pending = s.pending := by
  simp only [makeOwner, ↓reportOwner_pending, ↓closeWindow_pending, ↓startLease_pending, ↓upd_pending]

theorem endOwner_pending (s : State) : (endOwner s).pending = s.pending := by
  simp only [endOwner, ↓reportOwner_pending, ↓openWindow_pending, ↓upd_pending]

theorem lapse_pending (s : State) : (lapse s).pending = s.pending := by
  simp only [lapse, ↓endOwner_pending, ↓apply_ite State.pending, ite_self]

theorem windowDue_pending (s : State) : (windowDue s).pending = s.pending := by
  simp only [windowDue, ↓closeWindow_pending, ↓apply_ite State.pending, ite_self]

theorem settle_pending (s : State) : (settle s).pending = s.pending := by simp only [settle, ↓windowDue_pending, ↓lapse_pending]

theorem ownResult_pending (m : Master) (r : Nat) (s : State) : (ownResult m r s).pending = s.pending := by
  simp only [ownResult, ↓upd_pending]

theorem noteClaim_pending (s : State) : (noteClaim s).pending = s.pending := by simp only [noteClaim]

theorem takeOver_pending (m o : Master) (s : State) : (takeOver m o s).pending = s.pending := by
  simp only [takeOver, ↓ownResult_pending, ↓announceOwner_pending, ↓startLease_pending, ↓upd_pending]

theorem claim_pending (m : Master) (s : State) : (claim m s).pending = s.pending := by
  simp only [claim]
  (repeat' split) <;> simp only [↓settle_pending, ↓ownResult_pending, ↓noteClaim_pending, ↓makeOwner_pending, ↓takeOver_pending]

theorem renew_pending (m : Master) (s : State) : (renew m s).pending = s.pending := by
  simp only [renew, ↓settle_pending, ↓ownResult_pending, ↓startLease_pending, ↓apply_ite State.pending, ite_self]

theorem release_pending (m : Master) (s : State) : (release m s).pending = s.pending := by
  simp only [release, ↓settle_pending, ↓ownResult_pending, ↓endOwner_pending, ↓apply_ite State.pending, ite_self]

theorem transfer_pending (m t : Master) (s : State) : (transfer m t s).pending = s.pending := by
  simp only [transfer, ↓settle_pending, ↓ownResult_pending, ↓makeOwner_pending, ↓apply_ite State.pending, ite_self]

theorem ownCmdWrite_pending (m : Master) (v : Nat) (s : State) : (ownCmdWrite m v s).pending = s.pending := by
  simp only [ownCmdWrite]
  (repeat' split) <;> simp only [↓logAccess_pending, ↓claim_pending, ↓renew_pending, ↓release_pending, ↓transfer_pending]

theorem denied_pending (m : Master) (off width : Nat) (s : State) : (denied m off width s).pending = s.pending := by
  simp only [denied, ↓logAccess_pending]

theorem refusedWrite_pending (m : Master) (off width : Nat) (s : State) : (refusedWrite m off width s).pending = s.pending := by
  simp only [refusedWrite, ↓logAccess_pending]

theorem asOwner_pending (m : Master) (off width : Nat) {f : State → State} (hf : ∀ v, (f v).pending = v.pending) (s : State) :
    (asOwner m off width f s).pending = s.pending := by
  simp only [asOwner, ↓settle_pending, ↓denied_pending, ↓apply_ite State.pending, ite_self, hf]

theorem asHead_pending (m : Master) (h : Head) (off width : Nat) {f : State → State} (hf : ∀ v, (f v).pending = v.pending) (s :
    State) :
    (asHead m h off width f s).pending = s.pending := by
  simp only [asHead, ↓denied_pending, ↓apply_ite State.pending, ite_self, hf]

/-! ### Ledgers, log pages and lifetime records -/

theorem setLifeWord_pending (i : Nat) (v : Reg) (s : State) : (setLifeWord i v s).pending = s.pending := by
  simp only [setLifeWord]

theorem lifeSet_pending (off n v : Nat) (s : State) : (lifeSet off n v s).pending = s.pending := by
  simp only [lifeSet, ↓setLifeWord_pending]

theorem lifeCount_pending (off n k : Nat) (s : State) : (lifeCount off n k s).pending = s.pending := by
  simp only [lifeCount, ↓lifeSet_pending]

theorem lifeMax_pending (off n v : Nat) (s : State) : (lifeMax off n v s).pending = s.pending := by
  simp only [lifeMax, ↓lifeSet_pending]

theorem countErases_pending (d a n : Nat) (s : State) : (countErases d a n s).pending = s.pending := by
  simp only [countErases, ↓lifeCount_pending, ↓lifeSet_pending, ↓apply_ite State.pending, ite_self]

theorem nvmPages_pending (a n : Nat) (s : State) : (nvmPages a n s).pending = s.pending := by
  simp only [nvmPages, ↓countErases_pending, ↓foldl_pending, implies_true]

theorem logPageWrite_pending (s : State) : (logPageWrite s).pending = s.pending := by
  simp only [logPageWrite, ↓upd_pending, ↓nvmPages_pending, ↓apply_ite State.pending, ite_self]

theorem logFlushN_pending : ∀ (n : Nat) (s : State), (logFlushN n s).pending = s.pending
  | 0, _ => rfl
  | n + 1, s => by
    unfold logFlushN
    split
    · rfl
    · exact (logFlushN_pending n _).trans (logPageWrite_pending s)

theorem logFlush_pending (s : State) : (logFlush s).pending = s.pending := by simp only [logFlush, ↓logFlushN_pending]

theorem lifetimeWrite_pending (s : State) : (lifetimeWrite s).pending = s.pending := by
  simp only [lifetimeWrite, ↓lifeSet_pending, ↓setLifeWord_pending, ↓nvmPages_pending, ↓upd_pending, ↓apply_ite State.pending,
    ite_self]

theorem stressCluster_pending (g : Nat) (s : State) : (stressCluster s g).pending = s.pending := by
  simp only [stressCluster, ↓lifeCount_pending]

theorem stackDay_pending (k : Nat) (s : State) : (stackDay s k).pending = s.pending := by
  simp only [stackDay, ↓lifeSet_pending, ↓foldl_pending, implies_true]

theorem lifeRefresh_pending (s : State) : (lifeRefresh s).pending = s.pending := by simp only [lifeRefresh]

theorem noteBreach_pending (x : Nat × Bool) (s : State) : (noteBreach s x).pending = s.pending := by
  simp only [noteBreach, ↓upd_pending, ↓logOpen_pending, ↓satAdd_pending, ↓apply_ite State.pending, ite_self]

theorem snapCopy_pending (s : State) : (snapCopy s).pending = s.pending := foldl_pending (fun v _ => put_pending _ _ v) _ s

theorem ledgerSnapshot_pending (s : State) : (ledgerSnapshot s).pending = s.pending :=
  show QueueKept s (ledgerSnapshot s) from .after (foldl_kept (fun v e => noteBreach_pending e v) _ _)
    ((put_pending ..).trans ((snapCopy_pending _).trans (addR_pending ..)))

theorem lifStatWrite_pending (v : Nat) (s : State) : (lifStatWrite v s).pending = s.pending := by
  simp only [lifStatWrite, ↓lifetimeWrite_pending, ↓apply_ite State.pending, ite_self]

/-! ### HBM as every reader and writer meets it -/

theorem writeRetire_pending (changes : List (Nat × Nat)) (s : State) : (writeRetire changes s).pending = s.pending := by
  simp only [writeRetire, ↓nvmPages_pending]

theorem countSlices_pending (s : State) : (countSlices s).pending = s.pending := by simp only [countSlices, ↓upd_pending]

theorem setSlice_pending (n st cause : Nat) (s : State) : (setSlice n st cause s).pending = s.pending := by
  simp only [setSlice, ↓writeRetire_pending, ↓countSlices_pending, ↓upd_pending, ↓logCoded_pending]

theorem setBurst_pending (b : Nat) (e : BurstErr) (s : State) : (setBurst b e s).pending = s.pending := by simp only [setBurst]

theorem upsetBurst_pending (c : CellError) (s : State) : (upsetBurst s c).pending = s.pending := by
  simp only [upsetBurst, ↓setBurst_pending]

theorem noteCorrected_pending (a : Nat) (s : State) : (noteCorrected a s).pending = s.pending := by
  simp only [noteCorrected, ↓satAdd_pending, ↓lifeCount_pending, ↓upd_pending, ↓setSlice_pending, ↓apply_ite State.pending,
    ite_self]

theorem noteUncorrectable_pending (b : Nat) (s : State) : (noteUncorrectable b s).pending = s.pending := by
  simp only [noteUncorrectable, ↓satAdd_pending, ↓logOpen_pending, ↓lifeCount_pending, ↓setSlice_pending, ↓apply_ite
    State.pending, ite_self]

theorem rewriteBurst_pending (e : Nat × BurstErr) (s : State) : (rewriteBurst s e).pending = s.pending := by
  simp only [rewriteBurst, ↓freeNat_pending, ↓setBurst_pending, ↓apply_ite State.pending, ite_self]

theorem readBurst_pending (e : Nat × BurstErr) (s : State) : (readBurst s e).pending = s.pending := by
  simp only [readBurst]
  (repeat' split) <;> simp only [↓rewriteBurst_pending, ↓hbmWrite_pending, ↓noteCorrected_pending, ↓noteUncorrectable_pending]

theorem hbmTouch_pending (a n : Nat) (s : State) : (hbmTouch a n s).2.pending = s.pending := by
  simp only [hbmTouch, ↓readBurst_pending, ↓foldl_pending, implies_true]

theorem storeAnyway_pending (a : Nat) (bs : List Byte) (s : State) : (storeAnyway a bs s).pending = s.pending := by
  simp only [storeAnyway, ↓hbmWrite_pending, ↓rewriteBurst_pending, ↓foldl_pending, implies_true]

theorem storeBlock_pending (a : Nat) (bs : List Byte) (s : State) : (storeBlock a bs s).pending = s.pending := by
  simp only [storeBlock, ↓storeAnyway_pending, ↓apply_ite State.pending, ite_self]

theorem storeBlocks_pending : ∀ (n a : Nat) (bs : List Byte) (s : State), (storeBlocks n a bs s).pending = s.pending
  | 0, _, _, _ => rfl
  | n + 1, a, bs, s => by
    unfold storeBlocks
    exact (storeBlocks_pending n _ _ _).trans (storeBlock_pending _ _ s)

theorem hbmStore_pending (a : Nat) (bs : List Byte) (s : State) : (hbmStore a bs s).pending = s.pending := by
  simp only [hbmStore, ↓storeBlocks_pending]

theorem clearErrs_pending (a n : Nat) (s : State) : (clearErrs a n s).pending = s.pending := by
  simp only [clearErrs, ↓rewriteBurst_pending, ↓foldl_pending, implies_true]

theorem copyRange_pending (src dst n : Nat) (s : State) : (copyRange src dst n s).pending = s.pending := by
  simp only [copyRange, ↓clearErrs_pending]

theorem hbmCopy_pending (src dst n : Nat) (s : State) : (hbmCopy src dst n s).pending = s.pending := by
  simp only [hbmCopy, ↓copyRange_pending, ↓foldl_pending, implies_true, ↓apply_ite State.pending, ite_self]

theorem spoilBurst_pending (b : Nat) (s : State) : (spoilBurst s b).pending = s.pending := by
  simp only [spoilBurst, ↓freeNat_pending, ↓hbmWrite_pending]

theorem withRange_pending (a n : Nat) {f : State → State} (hf : ∀ x, (f x).pending = x.pending) (s : State) :
    (withRange a n f s).pending = s.pending := by
  simp only [withRange, ↓hbmTouch_pending, ↓spoilBurst_pending, ↓foldl_pending, implies_true, ↓apply_ite State.pending, ite_self,
    hf]

theorem hbmFieldLost_pending (f : Nat) (s : State) : (hbmFieldLost f s).pending = s.pending := by
  simp only [hbmFieldLost, ↓setSlice_pending, ↓foldl_pending, implies_true]

/-! ### The season image as the device reads it from its slot -/

theorem setSlotState_pending (i v : Nat) (s : State) : (setSlotState i v s).pending = s.pending := by
  simp only [setSlotState, ↓upd_pending]

theorem setSlotResult_pending (i r : Nat) (s : State) : (setSlotResult i r s).pending = s.pending := by
  simp only [setSlotResult, ↓upd_pending]

/-! ### Requests as the supervisor holds them -/

theorem updReq_pending (id : Nat) (f : Request → Request) (s : State) : (updReq id f s).pending = s.pending := by
  simp only [updReq, ↓mapReqs_pending]

theorem refreshReady_pending (s : State) : (refreshReady s).pending = s.pending := by simp only [refreshReady, ↓mapReqs_pending]

theorem finishReq_pending (id st : Nat) (s : State) : (finishReq id st s).pending = s.pending := by
  unfold finishReq
  split <;> simp only [↓updReq_pending, ↓logEvent_pending, ↓apply_ite State.pending, ite_self]

theorem chunkFail_pending (id cause detail : Nat) (s : State) : (chunkFail id cause detail s).pending = s.pending := by
  unfold chunkFail
  split <;> simp only [↓updReq_pending, ↓refreshReady_pending, ↓finishReq_pending, ↓apply_ite State.pending, ite_self]

theorem chunkDone_pending (id : Nat) (s : State) : (chunkDone id s).pending = s.pending := by
  unfold chunkDone
  split <;> simp only [↓updReq_pending, ↓refreshReady_pending, ↓finishReq_pending, ↓apply_ite State.pending, ite_self]

theorem batchDrop_pending (ids : List Nat) (s : State) : (batchDrop ids s).pending = s.pending := by
  unfold batchDrop
  split <;> rfl

theorem batchFail_pending (status _object detail : Nat) (s : State) :
    (batchFail status _object detail s).pending = s.pending := by
  unfold batchFail
  split <;> simp only [↓put_pending, ↓addR_pending, ↓chunkFail_pending, ↓foldl_pending, implies_true]

theorem abandonExecuting_pending (s : State) : (abandonExecuting s).pending = s.pending := by
  simp only [abandonExecuting, ↓put_pending, ↓addR_pending, ↓finishReq_pending, ↓updReq_pending, ↓refreshReady_pending,
    ↓foldl_pending, implies_true]

theorem markRemapped_pending (s : State) : (markRemapped s).pending = s.pending := by simp only [markRemapped, ↓mapReqs_pending]

theorem seasonLost_pending (s : State) : (seasonLost s).pending = s.pending := by
  simp only [seasonLost, ↓chunkFail_pending, ↓foldl_pending, implies_true]

theorem setCqHeld_pending (h q : Nat) (l : List Nat) (s : State) : (setCqHeld h q l s).pending = s.pending := by
  simp only [setCqHeld, ↓upd_pending]

theorem setUnsignalled_pending (h q : Nat) (v : Bool) (s : State) : (setUnsignalled h q v s).pending = s.pending := by
  simp only [setUnsignalled]

theorem ringWrite_pending (r : Request) (s : State) : (ringWrite r s).pending = s.pending := by
  simp only [ringWrite, ↓hbmStore_pending, ↓upd_pending, ↓addR_pending, ↓setUnsignalled_pending, ↓apply_ite State.pending,
    ite_self]

theorem countProduced_pending (r : Request) (s : State) : (countProduced r s).pending = s.pending := by
  simp only [countProduced, ↓addR_pending, ↓subR_pending, ↓apply_ite State.pending, ite_self]

theorem fencesDue_pending (s : State) : (fencesDue s).pending = s.pending := by
  simp only [fencesDue, ↓finishReq_pending, ↓foldl_pending, implies_true]

theorem closeHead_pending (h : Nat) (s : State) : (closeHead h s).pending = s.pending :=
  ite_pending ((mk_pending ..).trans (foldl_pending (fun _ _ => (upd_pending ..).trans (upd_pending ..)) (List.range 64) s)) rfl

theorem produce_pending (r : Request) (s : State) : (produce r s).pending = s.pending := by
  simp only [produce, ↓countProduced_pending, ↓setCqHeld_pending, ↓raiseEvent_pending, ↓addR_pending, ↓ringWrite_pending,
    ↓refreshReady_pending, ↓closeHead_pending, ↓fencesDue_pending, ↓apply_ite State.pending, ite_self]

theorem drainHeld_pending (h q : Nat) : ∀ (n : Nat) (s : State), (drainHeld h q n s).pending = s.pending
  | 0, _ => rfl
  | n + 1, s => by
    unfold drainHeld
    split
    · rfl
    · split
      · rfl
      · split
        · exact (drainHeld_pending h q n _).trans (setCqHeld_pending ..)
        · exact (drainHeld_pending h q n _).trans ((subR_pending ..).trans ((setCqHeld_pending ..).trans (ringWrite_pending ..)))

/-! ### The host ports -/

theorem sqCfgApply_pending (h q : Nat) (new : Reg) (s : State) : (sqCfgApply h q new s).pending = s.pending := by
  simp only [sqCfgApply, ↓put_pending, ↓upd_pending, ↓apply_ite State.pending, ite_self]

theorem cqCfgApply_pending (h q : Nat) (new : Reg) (s : State) : (cqCfgApply h q new s).pending = s.pending := by
  simp only [cqCfgApply, ↓put_pending, ↓upd_pending, ↓apply_ite State.pending, ite_self]

theorem sqCfgWrite_pending (m : Master) (h q off width v : Nat) (s : State) :
    (sqCfgWrite m h q off width v s).pending = s.pending := by
  simp only [sqCfgWrite, ↓refusedWrite_pending, ↓sqCfgApply_pending, ↓apply_ite State.pending, ite_self]

theorem cqCfgWrite_pending (m : Master) (h q off width v : Nat) (s : State) :
    (cqCfgWrite m h q off width v s).pending = s.pending := by
  simp only [cqCfgWrite, ↓refusedWrite_pending, ↓cqCfgApply_pending, ↓apply_ite State.pending, ite_self]

theorem dbErr_pending (h off : Nat) (f : Fld) (s : State) : (dbErr h off f s).pending = s.pending := by
  simp only [dbErr, ↓raiseEvent_pending, ↓upd_pending]

theorem sqDoorbell_pending (h q tail : Nat) (s : State) : (sqDoorbell h q tail s).pending = s.pending := by
  simp only [sqDoorbell, ↓dbErr_pending, ↓upd_pending, ↓apply_ite State.pending, ite_self]

theorem cqDoorbell_pending (h q head : Nat) (s : State) : (cqDoorbell h q head s).pending = s.pending := by
  simp only [cqDoorbell, ↓dbErr_pending, ↓refreshReady_pending, ↓closeHead_pending, ↓fencesDue_pending, ↓drainHeld_pending,
    ↓apply_ite State.pending, ite_self]

theorem headRangeWrite_pending (m : Master) (h v : Nat) (s : State) : (headRangeWrite m h v s).pending = s.pending := by
  simp only [headRangeWrite, ↓refusedWrite_pending, ↓put_pending, ↓apply_ite State.pending, ite_self]

theorem headDown_pending (h : Nat) (s : State) : (headDown h s).pending = s.pending := by
  unfold headDown
  split
  · rfl
  · exact (logOpen_pending ..).trans ((closeHead_pending ..).trans ((reholder_pending _).trans ((mk_pending ..).trans
      ((put_pending ..).trans ((put_pending ..).trans ((foldl_pending (fun _ _ => (put_pending ..).trans (put_pending ..))
        (List.range 65) _).trans ((spdmClose_pending ..).trans (put_pending ..))))))))

theorem atHead_pending (h : Head) {f : State → State} (hf : ∀ s, (f s).pending = s.pending) (s : State) :
    (atHead h f s).pending = s.pending :=
  powered_pending (fun v => by split; exacts [hf v, rfl]) s

end Sys2Proof.Machine

end

section
/-! The queue of waiting commands under tile, concourse, link and season operations, and under resets and remaps. -/

namespace Sys2Proof.Machine

open Sys2Proof

/-! ### What the tile's commands share -/

theorem setTileSt_pending (t v : Nat) (s : State) : (setTileSt t v s).pending = s.pending := by
  simp only [setTileSt, ↓upd_pending]

theorem tileCount1_pending (t off n : Nat) (s : State) : (tileCount1 t off n s).pending = s.pending := by
  simp only [tileCount1, ↓addR_pending, ↓apply_ite State.pending, ite_self]

theorem put128_pending (off v : Nat) (s : State) : (put128 off v s).pending = s.pending := (put_pending ..).trans (put_pending ..)

theorem closeWindows_pending (ts : List Nat) (s : State) : (closeWindows ts s).pending = s.pending :=
  show QueueKept s (closeWindows ts s) from foldl_kept (fun v _ => foldl_kept (fun _ _ => ite_kept
    (ite_kept ((addR_pending ..).trans (subR_pending ..)) rfl)
    (.after (put128_pending ..) (ite_kept ((addR_pending ..).trans (subR_pending ..)) rfl))) _ v) ts s

theorem clearTasks_pending (ts : List Nat) (s : State) : (clearTasks ts s).pending = s.pending :=
  show QueueKept s (clearTasks ts s) from foldl_kept (fun v _ => foldl_kept (fun _ _ => ite_kept rfl (put128_pending ..)) _ v) ts
    s

theorem setEngine_pending (t e : Nat) (x : DmaEngine) (s : State) : (setEngine t e x s).pending = s.pending := by
  simp only [setEngine, ↓updTile_pending]

theorem reclaimReset_pending (n : Nat) (s : State) : (reclaimReset n s).pending = s.pending := by
  simp only [reclaimReset, ↓addR_pending, ↓subR_pending, ↓apply_ite State.pending, ite_self]

theorem abandonEngines_pending (t : Nat) (s : State) : (abandonEngines t s).pending = s.pending := by
  simp only [abandonEngines, ↓satAdd_pending, ↓logOpen_pending, ↓setEngine_pending, ↓reclaimReset_pending, ↓foldl_pending,
    implies_true, ↓apply_ite State.pending, ite_self]

theorem tileReset_pending (t : Nat) (s : State) : (tileReset t s).pending = s.pending := by
  simp only [tileReset, ↓abandonEngines_pending, ↓setTile_pending, ↓resetRegs_pending]

theorem tileLost_pending (t : Nat) (s : State) : (tileLost t s).pending = s.pending := by
  simp only [tileLost, ↓abandonEngines_pending, ↓setTile_pending, ↓satAdd_pending]

theorem tilesLost_pending (ts : List Nat) (s : State) : (tilesLost ts s).pending = s.pending := by
  simp only [tilesLost, ↓clearTasks_pending, ↓closeWindows_pending, ↓tileLost_pending, ↓foldl_pending, implies_true]

theorem stopTile_pending (t : Nat) (s : State) : (stopTile t s).pending = s.pending := by
  simp only [stopTile, ↓updTile_pending, ↓upd_pending, ↓setTileSt_pending, ↓apply_ite State.pending, ite_self]

theorem recordFault_pending (t code info : Nat) (s : State) : (recordFault t code info s).pending = s.pending := by
  simp only [recordFault, ↓stopTile_pending, ↓upd_pending, ↓apply_ite State.pending, ite_self]

theorem recordTagFault_pending (t code unit queue tag : Nat) (s : State) :
    (recordTagFault t code unit queue tag s).pending = s.pending := by
  simp only [recordTagFault, ↓stopTile_pending, ↓upd_pending, ↓apply_ite State.pending, ite_self]

theorem haltReq_pending (t : Nat) (s : State) : (haltReq t s).pending = s.pending := by
  simp only [haltReq, ↓upd_pending, ↓setTileSt_pending, ↓apply_ite State.pending, ite_self]

theorem haltGraph_pending (t : Nat) (s : State) : (haltGraph t s).pending = s.pending := by
  simp only [haltGraph, ↓haltReq_pending, ↓foldl_pending, implies_true]

theorem tileFault_pending (t code info : Nat) (s : State) : (tileFault t code info s).pending = s.pending := by
  simp only [tileFault, ↓recordFault_pending, ↓logCoded_pending, ↓batchFail_pending, ↓haltGraph_pending]

theorem tagFault_pending (t code unit queue tag : Nat) (s : State) : (tagFault t code unit queue tag s).pending = s.pending := by
  simp only [tagFault, ↓recordTagFault_pending, ↓logCoded_pending, ↓batchFail_pending, ↓haltGraph_pending]

theorem batchFailCluster_pending (ts : List Nat) (s : State) : (batchFailCluster ts s).pending = s.pending := by
  unfold batchFailCluster
  split <;> simp only [↓batchFail_pending, ↓haltGraph_pending, ↓apply_ite State.pending, ite_self]

/-! ### The concourse and the lattice as paths -/

theorem setBuf_pending (k : Nat) (l : List Packet) (s : State) : (setBuf k l s).pending = s.pending := by simp only [setBuf]

theorem countRsvd_pending (g : Nat) (s : State) : (countRsvd g s).pending = s.pending := by
  simp only [countRsvd, ↓logOpen_pending, ↓satAdd_pending]

theorem nicStart_pending (g p : Nat) (data : Bool) (s : State) : (nicStart g p data s).pending = s.pending := by
  simp only [nicStart]
  (repeat' split) <;> simp only [↓setBuf_pending]

theorem nicFill_pending (g p : Nat) (s : State) : (nicFill g p s).pending = s.pending := by simp only [nicFill, ↓nicStart_pending]

theorem injectAtPort_pending (k dest : Nat × Nat) (p : Packet) (s : State) : (injectAtPort k dest p s).pending = s.pending := by
  simp only [injectAtPort, ↓nicFill_pending]

theorem inject_pending (p : Packet) (s : State) : (inject p s).pending = s.pending := by simp only [inject, ↓injectAtPort_pending]

theorem send_pending (p : Packet) (s : State) : (send p s).pending = s.pending := by
  simp only [send]
  (repeat' split) <;> simp only [↓inject_pending, ↓countRsvd_pending, ↓logOpen_pending]

theorem nextTxid_pending (e : Nat) (s : State) : (nextTxid e s).2.pending = s.pending := by simp only [nextTxid]

theorem sendAwaited_pending (src dst opc : Nat) (payload : List Byte) (s : State) :
    (sendAwaited src dst opc payload s).pending = s.pending := by
  simp only [sendAwaited, ↓nextTxid_pending, ↓send_pending]

theorem take_pending (p : Packet) (s : State) : (take p s).pending = s.pending := by simp only [take]

theorem setChan_pending (t ch : Nat) (c : ChanRun) (s : State) : (setChan t ch c s).pending = s.pending := by
  simp only [setChan, ↓updTile_pending]

theorem returnCredits_pending (t ch n : Nat) (s : State) : (returnCredits t ch n s).pending = s.pending := by
  simp only [returnCredits, ↓nextTxid_pending, ↓send_pending, ↓setChan_pending, ↓apply_ite State.pending, ite_self]

theorem noteTurn_pending (g out i : Nat) (data : Bool) (s : State) : (noteTurn g out i data s).pending = s.pending := by
  simp only [noteTurn, ↓apply_ite State.pending, ite_self]

theorem noteThrottle_pending (g : Nat) (s : State) : (noteThrottle g s).pending = s.pending := by
  simp only [noteThrottle, ↓apply_ite State.pending, ite_self]

theorem discardBad_pending (g : Nat) (parity : Bool) (s : State) : (discardBad g parity s).pending = s.pending := by
  simp only [discardBad, ↓logOpen_pending, ↓satAdd_pending]

theorem ignorePacket_pending (p : Packet) (s : State) : (ignorePacket p s).pending = s.pending := by
  simp only [ignorePacket, ↓logOpen_pending]

theorem reservedPacket_pending (p : Packet) (s : State) : (reservedPacket p s).pending = s.pending := by
  simp only [reservedPacket, ↓countRsvd_pending]

theorem received_pending (p : Packet) {f : State → State} (hf : ∀ v, (f v).pending = v.pending) (s : State) :
    (received p f s).pending = s.pending := by
  simp only [received, ↓take_pending, ↓discardBad_pending, ↓apply_ite State.pending, ite_self, hf]

/-! ### A link port as the rest of the device meets it -/

theorem setLinkSt_pending (n v : Nat) (s : State) : (setLinkSt n v s).pending = s.pending := by
  simp only [setLinkSt, ↓upd_pending, ↓updLink_pending]

theorem leaveBitmap_pending (n : Nat) (s : State) : (leaveBitmap n s).pending = s.pending := by
  simp only [leaveBitmap, ↓updLink_pending, ↓apply_ite State.pending, ite_self]

theorem rejoinPorts_pending (s : State) : (rejoinPorts s).pending = s.pending := by
  simp only [rejoinPorts, ↓updLink_pending, ↓foldl_pending, implies_true, ↓apply_ite State.pending, ite_self]

theorem linkRefuse_pending (n : Nat) (p : Packet) (s : State) : (linkRefuse n p s).pending = s.pending := by
  simp only [linkRefuse, ↓satAdd_pending, ↓logCoded_pending, ↓send_pending, ↓apply_ite State.pending, ite_self]

theorem noteStall_pending (n : Nat) (s : State) : (noteStall n s).pending = s.pending := by
  simp only [noteStall, ↓setLink_pending]

theorem linkQueue_pending (n : Nat) (p : Packet) (s : State) : (linkQueue n p s).pending = s.pending := by
  simp only [linkQueue, ↓satAdd_pending, ↓linkRefuse_pending, ↓logOpen_pending, ↓noteStall_pending, ↓updLink_pending, ↓apply_ite
    State.pending, ite_self]

theorem reclaimCredits_pending (n : Nat) (s : State) : (reclaimCredits n s).pending = s.pending := by
  simp only [reclaimCredits, ↓addR_pending, ↓subR_pending]

theorem enterInit_pending (n : Nat) (s : State) : (enterInit n s).pending = s.pending := by
  simp only [enterInit, ↓setLinkSt_pending, ↓upd_pending, ↓updLink_pending]

theorem linkDownTo_pending (n cause : Nat) (relink : Bool) (s : State) : (linkDownTo n cause relink s).pending = s.pending := by
  simp only [linkDownTo, ↓satAdd_pending, ↓lifeCount_pending, ↓reclaimCredits_pending, ↓upd_pending, ↓setLinkSt_pending,
    ↓updLink_pending, ↓leaveBitmap_pending, ↓linkRefuse_pending, ↓logCoded_pending, ↓enterInit_pending, ↓foldl_pending,
    implies_true, ↓apply_ite State.pending, ite_self]

theorem linkDown_pending (n cause : Nat) (s : State) : (linkDown n cause s).pending = s.pending := by
  simp only [linkDown, ↓linkDownTo_pending]

theorem enterTrain_pending (n : Nat) (s : State) : (enterTrain n s).pending = s.pending := by
  simp only [enterTrain, ↓setLinkSt_pending, ↓updLink_pending]

theorem linkFence_pending (n : Nat) (s : State) : (linkFence n s).pending = s.pending := by
  simp only [linkFence, ↓updLink_pending, ↓leaveBitmap_pending, ↓satAdd_pending, ↓setLinkSt_pending, ↓apply_ite State.pending,
    ite_self]

theorem linkUnfence_pending (n : Nat) (s : State) : (linkUnfence n s).pending = s.pending := by
  simp only [linkUnfence, ↓updLink_pending, ↓setLinkSt_pending, ↓apply_ite State.pending, ite_self]

theorem injectAt_pending (e : Nat) (p : Packet) (s : State) : (injectAt e p s).pending = s.pending := by
  simp only [injectAt, ↓injectAtPort_pending]

theorem linkArrived_pending (n : Nat) (p : Packet) (s : State) : (linkArrived n p s).pending = s.pending := by
  simp only [linkArrived]
  (repeat' split) <;> simp only [↓injectAt_pending, ↓countRsvd_pending, ↓logOpen_pending, ↓send_pending]

/-! ### Loading a season into the tiles and the lattice, tunnels, seam repair, and what a quiesce lets change -/

theorem loadTables_pending (base t : Nat) (valid : Bool) (s : State) : (loadTables base t valid s).pending = s.pending := by
  simp only [loadTables, ↓put128_pending, ↓foldl_pending, implies_true]

theorem loadTile_pending (base t : Nat) (s : State) : (loadTile base t s).pending = s.pending := by
  simp only [loadTile, ↓loadTables_pending, ↓setTile_pending]

theorem broadcast_pending (t : Nat) (s : State) : (broadcast t s).pending = s.pending := by
  simp only [broadcast, ↓put_pending, ↓updTile_pending]

theorem loadChannels_pending (l : List Nat) (s : State) : (loadChannels l s).pending = s.pending := by
  simp only [loadChannels, ↓put128_pending, ↓setChan_pending, ↓foldl_pending, implies_true, ↓apply_ite State.pending, ite_self]

theorem loadRoutes_pending (base : Nat) (s : State) : (loadRoutes base s).pending = s.pending :=
  (mk_pending ..).trans ((foldl_pending (fun _ _ => put_pending ..) (List.range 64) _).trans (loadChannels_pending _ s))

theorem setTunnels_pending (s : State) : (setTunnels s).pending = s.pending :=
  (foldl_pending (fun _ _ => upd_pending ..) _ _).trans
    (foldl_pending (fun _ _ => (put128_pending ..).trans (setChan_pending ..)) (channelsInUse s) s)

theorem setBundle_pending (b : Nat) (x : Bundle) (s : State) : (setBundle b x s).pending = s.pending := by simp only [setBundle]

theorem repairSeam_pending (s : State) : (repairSeam s).pending = s.pending := by
  simp only [repairSeam, ↓satAdd_pending, ↓setBundle_pending, ↓upd_pending, ↓foldl_pending, implies_true, ↓apply_ite
    State.pending, ite_self]

theorem quiesceTables_pending (s : State) : (quiesceTables s).pending = s.pending := by
  simp only [quiesceTables, ↓setTunnels_pending, ↓rejoinPorts_pending, ↓repairSeam_pending]

theorem setCover_pending (base : Nat) (s : State) :
    (setCover base s).pending = s.pending := foldl_pending (fun _ _ => put_pending ..) _ s

theorem openTile_pending (base t : Nat) (s : State) : (openTile base t s).pending = s.pending := by
  simp only [openTile, ↓addR_pending, ↓updTile_pending, ↓loadTables_pending]

theorem clearFlags_pending (s : State) : (clearFlags s).pending = s.pending := by simp only [clearFlags]

theorem activateSlot_pending (i : Nat) (s : State) : (activateSlot i s).pending = s.pending := by
  simp only [activateSlot, ↓openTile_pending, ↓clearFlags_pending, ↓setCover_pending, ↓setSlotState_pending, ↓upd_pending,
    ↓foldl_pending, implies_true]

theorem loadTiles_pending (base : Nat) (s : State) : (loadTiles base s).pending = s.pending := by
  simp only [loadTiles, ↓loadTile_pending, ↓foldl_pending, implies_true]

theorem loadImage_pending (base : Nat) (s : State) : (loadImage base s).pending = s.pending :=
  withRange_pending _ _ (fun v => (setTunnels_pending _).trans ((loadRoutes_pending base _).trans (loadTiles_pending base v))) s

theorem broadcastAll_pending (s : State) : (broadcastAll s).pending = s.pending := by
  simp only [broadcastAll, ↓broadcast_pending, ↓foldl_pending, implies_true]

theorem reloadSeason_pending (s : State) : (reloadSeason s).pending = s.pending := by
  simp only [reloadSeason]
  (repeat' split) <;> simp only [↓broadcastAll_pending, ↓activateSlot_pending, ↓loadImage_pending]

theorem resetChannels_pending (ts : List Nat) (s : State) : (resetChannels ts s).pending = s.pending := by
  simp only [resetChannels, ↓setChan_pending, ↓foldl_pending, implies_true]

theorem reloadTile_pending (t : Nat) (s : State) : (reloadTile t s).pending = s.pending := by
  unfold reloadTile
  split
  · exact broadcast_pending t s
  · exact (broadcast_pending t _).trans (withRange_pending _ _ (fun v => withRange_pending _ _ (fun v => withRange_pending _ _
      (fun v => (loadTables_pending ..).trans (setTile_pending ..)) v) v) s)

/-! ### What resets and recoveries do below the level of the reset kinds -/

theorem sinceKatZero_pending (t : Nat) (s : State) : (sinceKatZero t s).pending = s.pending := by
  simp only [sinceKatZero, ↓upd_pending, ↓apply_ite State.pending, ite_self]

theorem fabricCleared_pending (s : State) : (fabricCleared s).pending = s.pending := by simp only [fabricCleared]

theorem storeMap_pending (m : MapRecord) (s : State) : (storeMap m s).pending = s.pending := by
  simp only [storeMap, ↓nvmPages_pending, ↓apply_ite State.pending, ite_self]

theorem loadMap_pending (s : State) : (loadMap s).pending = s.pending := by
  simp only [loadMap, ↓apply_ite State.pending, ite_self]

theorem writeMap_pending (s : State) : (writeMap s).pending = s.pending := by simp only [writeMap, ↓storeMap_pending]

theorem cclkSwitch_pending (s : State) : (cclkSwitch s).pending = s.pending := by
  simp only [cclkSwitch, ↓upd_pending, ↓apply_ite State.pending, ite_self]

theorem quiesced_pending (s : State) : (quiesced s).pending = s.pending := by
  simp only [quiesced, ↓cclkSwitch_pending, ↓quiesceTables_pending, ↓writeMap_pending, ↓apply_ite State.pending, ite_self]

theorem refuseGeometry_pending (i : Nat) (s : State) : (refuseGeometry i s).pending = s.pending := by
  simp only [refuseGeometry, ↓seasonLost_pending, ↓setSlotState_pending, ↓setSlotResult_pending]

theorem slotsRecheck_pending (s : State) : (slotsRecheck s).pending = s.pending := by
  simp only [slotsRecheck, ↓refuseGeometry_pending, ↓foldl_pending, implies_true, ↓apply_ite State.pending, ite_self]

theorem abandonRound_pending (s : State) : (abandonRound s).pending = s.pending := by simp only [abandonRound]

theorem exemptFall_pending (s : State) : (exemptFall s).pending = s.pending := by simp only [exemptFall, ↓satAdd_pending]

theorem keepTrip_pending (s v : State) : (keepTrip s v).pending = v.pending :=
  (upd_pending ..).trans ((upd_pending ..).trans (upd_pending ..))

theorem writeDevice_pending (s : State) : (writeDevice s).pending = s.pending := by
  simp only [writeDevice, ↓nvmPages_pending, ↓apply_ite State.pending, ite_self]

/-! ### What resets, field loss, dark clusters and remap requests do -/

theorem resetTileRegs_pending (ts : List Nat) (s : State) : (resetTileRegs ts s).pending = s.pending := by
  simp only [resetTileRegs, ↓resetRegs_pending]

theorem winterCause_pending (bit : Nat) (s : State) : (winterCause bit s).pending = s.pending := by
  unfold winterCause
  dsimp only
  split <;> rfl

theorem winterClear_pending (bit : Nat) (s : State) : (winterClear bit s).pending = s.pending := by
  simp only [winterClear, ↓upd_pending, ↓apply_ite State.pending, ite_self]

theorem setIlimEff_pending (g : Nat) (s : State) : (setIlimEff g s).pending = s.pending := by simp only [setIlimEff, ↓upd_pending]

theorem requestAdmission_pending (g : Nat) (s : State) : (requestAdmission g s).pending = s.pending := by
  simp only [requestAdmission, ↓upd_pending, ↓apply_ite State.pending, ite_self]

theorem sitesLost_pending (ns : List Nat) (s : State) : (sitesLost ns s).pending = s.pending := by
  simp only [sitesLost, ↓tilesLost_pending]

theorem powerSites_pending (ns : List Nat) (s : State) : (powerSites ns s).pending = s.pending := by
  simp only [powerSites, ↓resetTileRegs_pending]

theorem restCluster_pending (g : Nat) (s : State) : (restCluster s g).pending = s.pending := by
  simp only [restCluster, ↓upd_pending, ↓apply_ite State.pending, ite_self]

theorem openSites_pending (ns : List Nat) (s : State) : (openSites ns s).pending = s.pending := by
  simp only [openSites, ↓restCluster_pending, ↓foldl_pending, implies_true]

theorem clusterOn_pending (g : Nat) (s : State) : (clusterOn g s).pending = s.pending := by
  simp only [clusterOn, ↓upd_pending, ↓restCluster_pending, ↓powerSites_pending]

theorem noteReset_pending (kind : Nat) (c : ResetCause) (s : State) : (noteReset kind c s).pending = s.pending := by
  simp only [noteReset, ↓upd_pending]

theorem clustersOff_pending (s : State) : (clustersOff s).pending = s.pending := by simp only [clustersOff]

theorem computeReset_pending (c : ResetCause) (s : State) : (computeReset c s).pending = s.pending := by
  simp only [computeReset, ↓abandonExecuting_pending, ↓tilesLost_pending, ↓clustersOff_pending, ↓exemptFall_pending,
    ↓upd_pending, ↓logCoded_pending, ↓noteReset_pending, ↓satAdd_pending]

theorem deviceResetBy_pending (own : Bool) (c : ResetCause) (s : State) : (deviceResetBy own c s).pending = s.pending := by
  unfold deviceResetBy
  extract_lets logged recorded kept p supplied ct cycled b marked
  have h1 : logged.pending = s.pending := by
    unfold logged
    split
    · exact logCoded_pending ..
    · rfl
  have h2 : recorded.pending = logged.pending := by
    unfold recorded
    split
    · exact (writeDevice_pending _).trans ((noteReset_pending ..).trans ((lifetimeWrite_pending _).trans
        ((lifeCount_pending ..).trans (logFlush_pending _))))
    · rfl
  have h3 : kept.pending = recorded.pending := (keepTrip_pending ..).trans (nvmOnly_pending _)
  have h4 : marked.pending = kept.pending := (mk_pending ..).trans ((mk_pending ..).trans (mk_pending ..))
  clear_value marked kept recorded logged
  refine (noteReset_pending ..).trans (.trans ?_ (h4.trans (h3.trans (h2.trans h1))))
  split
  · rfl
  · exact lifeCount_pending ..

theorem deviceReset_pending (c : ResetCause) (s : State) : (deviceReset c s).pending = s.pending := by
  simp only [deviceReset, ↓deviceResetBy_pending]

theorem powerOnReset_pending (s : State) : (powerOnReset s).pending = s.pending := by
  unfold powerOnReset
  extract_lets kept p b n fresh served tripped counted
  have h1 : served.pending = s.pending := (upd_pending ..).trans ((upd_pending ..).trans ((mk_pending ..).trans (nvmOnly_pending
    s)))
  have h2 : tripped.pending = served.pending := by
    unfold tripped
    split
    · exact (upd_pending ..).trans ((upd_pending ..).trans (upd_pending ..))
    · rfl
  have h3 : counted.pending = tripped.pending := ite_pending (lifeCount_pending ..) (ite_pending (lifeCount_pending ..) rfl)
  clear_value counted tripped served
  exact (noteReset_pending ..).trans (h3.trans (h2.trans h1))

theorem powerOff_pending (why : OffCause) (s : State) :
    (powerOff why s).pending = s.pending := (mk_pending ..).trans (nvmOnly_pending s)

theorem startFabricReset_pending (c : ResetCause) (s : State) : (startFabricReset c s).pending = s.pending := by
  unfold startFabricReset
  extract_lets counted times b fenced held ck stepped b' noted
  have h1 : QueueKept s counted := (satAdd_pending ..).trans (lifeCount_pending ..)
  have h2 : QueueKept counted fenced := foldl_kept (fun v n => linkFence_pending n v) (List.range 96) counted
  have h3 : QueueKept fenced held := (upd_pending ..).trans (computeReset_pending ..)
  have h4 : QueueKept held stepped := mk_pending ..
  have h5 : QueueKept stepped noted := (noteReset_pending ..).trans (mk_pending ..)
  clear_value noted stepped held fenced counted
  exact ite_pending (ite_pending (deviceReset_pending c s) (mk_pending ..))
    (QueueKept.after (logCoded_pending ..) ((((h1.trans h2).trans h3).trans h4).trans h5))

theorem springStop_pending (code : Nat) (s : State) : (springStop code s).pending = s.pending := by
  simp only [springStop, ↓upd_pending, ↓i3cRaise_pending, ↓logCoded_pending]

theorem journalAdd_pending (kind id : Nat) (es : List RemapEntry) (s : State) :
    (journalAdd kind id es s).pending = s.pending := by
  simp only [journalAdd, ↓nvmPages_pending, ↓apply_ite State.pending, ite_self]

theorem dropQuote_pending (f : Nat) (s : State) : (dropQuote f s).pending = s.pending := by
  simp only [dropQuote, ↓upd_pending, ↓apply_ite State.pending, ite_self]

theorem fieldPowerLost_pending (f cause : Nat) (s : State) : (fieldPowerLost f cause s).pending = s.pending := by
  simp only [fieldPowerLost, ↓upd_pending, ↓dropQuote_pending, ↓foldl_pending, implies_true, ↓apply_ite State.pending, ite_self]

theorem remapFieldLost_pending (f : Nat) (s : State) : (remapFieldLost f s).pending = s.pending := by
  simp only [remapFieldLost]
  (repeat' split) <;> simp only [↓upd_pending, ↓journalAdd_pending]

theorem fieldLoss_pending (f cause : Nat) (s : State) : (fieldLoss f cause s).pending = s.pending := by
  simp only [fieldLoss, ↓logCoded_pending, ↓exemptFall_pending, ↓lifeCount_pending, ↓deviceReset_pending, ↓writeMap_pending,
    ↓remapFieldLost_pending, ↓tilesLost_pending, ↓abandonExecuting_pending, ↓hbmFieldLost_pending, ↓fieldPowerLost_pending,
    ↓linkFence_pending, ↓startFabricReset_pending, ↓slotsRecheck_pending, ↓foldl_pending, implies_true, ↓apply_ite State.pending,
    ite_self]

theorem selectTargets_pending (f id : Nat) (ts : List (Nat × Nat)) (s : State) :
    (selectTargets f id ts s).pending = s.pending := by
  unfold selectTargets
  split <;> simp only [↓fieldLoss_pending, ↓openSites_pending, ↓upd_pending, ↓powerSites_pending, ↓requestAdmission_pending,
    ↓foldl_pending, implies_true, ↓apply_ite State.pending, ite_self]

theorem startRemap_pending (s : State) : (startRemap s).pending = s.pending := by
  unfold startRemap
  split <;> simp only [↓selectTargets_pending]

theorem remapRequest_pending (ts : List Nat) (cause : Nat) (s : State) : (remapRequest ts cause s).pending = s.pending := by
  unfold remapRequest
  split <;> simp only [↓startRemap_pending, ↓selectTargets_pending, ↓apply_ite State.pending, ite_self]

theorem remapClusterDark_pending (g : Nat) (s : State) : (remapClusterDark g s).pending = s.pending := by
  unfold remapClusterDark
  split <;> simp only [↓selectTargets_pending, ↓apply_ite State.pending, ite_self]

theorem clusterDark_pending (g cause : Nat) (s : State) : (clusterDark g cause s).pending = s.pending := by
  simp only [clusterDark, ↓upd_pending, ↓logCoded_pending, ↓exemptFall_pending, ↓batchFailCluster_pending, ↓sitesLost_pending,
    ↓remapRequest_pending, ↓remapClusterDark_pending, ↓apply_ite State.pending, ite_self]

end Sys2Proof.Machine

end

section
/-! The queue of waiting commands under clocks, HBM, links, the queues of a tile, integrity checks and the boot records. -/

namespace Sys2Proof.Machine

open Sys2Proof

/-! ### What the clock and power controllers share about changes of TCLK -/

theorem chooseTs_pending (s : State) : (chooseTs s).pending = s.pending := by
  unfold chooseTs
  split <;> simp only [↓upd_pending, ↓clk_pending, ↓apply_ite State.pending, ite_self]

theorem beginDividerStep_pending (target : Nat) (s : State) : (beginDividerStep target s).pending = s.pending := by
  simp only [beginDividerStep, ↓upd_pending, ↓chooseTs_pending, ↓clk_pending]

theorem followTarget_pending (s : State) : (followTarget s).pending = s.pending := by
  simp only [followTarget, ↓beginDividerStep_pending, ↓apply_ite State.pending, ite_self]

theorem stepDownRequest_pending (s : State) : (stepDownRequest s).pending = s.pending := by
  simp only [stepDownRequest, ↓logOpen_pending, ↓clk_pending, ↓beginDividerStep_pending, ↓satAdd_pending, ↓apply_ite
    State.pending, ite_self]

/-! ### Clocks and device time -/

theorem noteSkew_pending (i : Nat) (ps : Int) (s : State) : (noteSkew s i ps).pending = s.pending := by
  simp only [noteSkew, ↓upd_pending, ↓clk_pending, ↓stepDownRequest_pending, ↓logOpen_pending, ↓apply_ite State.pending, ite_self]

theorem noteCaused_pending (g : Nat) (s : State) : (noteCaused g s).pending = s.pending := by
  simp only [noteCaused, ↓clk_pending, ↓upd_pending, ↓apply_ite State.pending, ite_self]

theorem marginDown_pending (g : Nat) (s : State) : (marginDown g s).pending = s.pending := by
  simp only [marginDown, ↓stepDownRequest_pending, ↓noteCaused_pending, ↓apply_ite State.pending, ite_self]

theorem raiseAdj_pending (g n : Nat) (s : State) : (raiseAdj g n s).pending = s.pending := by
  simp only [raiseAdj, ↓clk_pending, ↓upd_pending]

theorem moveTs_pending (t : Nat) (st : ClockStep) (s : State) : (moveTs t st s).pending = s.pending := by
  simp only [moveTs, ↓upd_pending, ↓clk_pending]

theorem chargeSample_pending {s s' : State} {p : Int} (h : chargeSample p s = some s') : s'.pending = s.pending := by
  unfold chargeSample at h
  dsimp only at h
  split at h
  · split at h
    · cases h
      rfl
    · cases h
  · split at h
    · cases h
      rfl
    · cases h

theorem syncField_pending (f : Nat) (drift : Int) (s : State) : (syncField s f drift).pending = s.pending := by
  simp only [syncField, ↓upd_pending, ↓clk_pending, ↓logOpen_pending, ↓satAdd_pending, ↓startFabricReset_pending, ↓apply_ite
    State.pending, ite_self]

theorem epochWrite_pending (half : Half) (v : Nat) (s : State) : (epochWrite half v s).pending = s.pending := by
  simp only [epochWrite, ↓upd_pending, ↓put_pending, ↓logEvent_pending]

/-! ### The commands of the HBM subsystem -/

theorem setStackCool_pending (k : Nat) (v : Option Nat) (s : State) : (setStackCool k v s).pending = s.pending := by
  simp only [setStackCool]

theorem setRefresh_pending (k rate : Nat) (s : State) : (setRefresh k rate s).pending = s.pending := by
  simp only [setRefresh, ↓upd_pending, ↓logOpen_pending, ↓apply_ite State.pending, ite_self]

theorem stepRefresh_pending (k : Nat) (c : Int) (s : State) : (stepRefresh k c s).pending = s.pending := by
  unfold stepRefresh
  split <;> simp only [↓setRefresh_pending, ↓setStackCool_pending, ↓apply_ite State.pending, ite_self]

theorem notePar_pending (k n : Nat) (s : State) : (notePar k n s).pending = s.pending := by simp only [notePar, ↓satAdd_pending]

theorem noteOndie_pending (k n : Nat) (s : State) : (noteOndie k n s).pending = s.pending := by
  simp only [noteOndie, ↓satAdd_pending]

theorem setRetireCmd_pending (n op : Nat) (s : State) : (setRetireCmd n op s).pending = s.pending := by
  simp only [setRetireCmd, ↓upd_pending]

theorem retireCmdWrite_pending (m : Master) (n op : Nat) (s : State) : (retireCmdWrite m n op s).pending = s.pending := by
  unfold retireCmdWrite
  split <;> simp only [↓refusedWrite_pending, ↓setRetireCmd_pending, ↓setSlice_pending, ↓writeRetire_pending, ↓apply_ite
    State.pending, ite_self]

theorem applyTested_pending (e : Nat × Nat × Nat) (s : State) : (applyTested s e).pending = s.pending := by
  simp only [applyTested, ↓upd_pending, ↓lifeSet_pending, ↓logCoded_pending, ↓apply_ite State.pending, ite_self]

/-! ### Commands of the chip-to-chip links -/

theorem tryTrain_pending (n : Nat) (s : State) : (tryTrain n s).pending = s.pending := by
  simp only [tryTrain, ↓setLinkSt_pending, ↓enterTrain_pending, ↓apply_ite State.pending, ite_self]

theorem linkEmit_pending (n : Nat) (fs : List Frame) (s : State) : (linkEmit n fs s).pending = s.pending := by
  simp only [linkEmit, ↓updLink_pending]

theorem linkUpEnter_pending (n : Nat) (s : State) : (linkUpEnter n s).pending = s.pending := by
  simp only [linkUpEnter, ↓updLink_pending, ↓setLinkSt_pending]

theorem tryUp_pending (n : Nat) (s : State) : (tryUp n s).pending = s.pending := by
  simp only [tryUp, ↓linkUpEnter_pending, ↓apply_ite State.pending, ite_self]

theorem linkPacket_pending (n : Nat) (p : Packet) (s : State) : (linkPacket n p s).2.pending = s.pending := by
  unfold linkPacket
  split <;> simp only [↓satAdd_pending]

theorem beginPacket_pending (n : Nat) (data : Bool) (s : State) : (beginPacket n data s).pending = s.pending := by
  simp only [beginPacket]
  (repeat' split) <;> simp only [↓linkPacket_pending, ↓addR_pending, ↓updLink_pending]

theorem fillBody_pending (n : Nat) : ∀ (fuel room : Nat) (s : State), (fillBody n fuel room s).2.pending = s.pending
  | 0, _, _ => rfl
  | fuel + 1, room, s => by
    unfold fillBody
    split
    · split
      · rfl
      · exact (fillBody_pending n fuel _ _).trans rfl
    · split
      · rfl
      · split
        · exact (fillBody_pending n fuel _ _).trans (beginPacket_pending ..)
        · rfl

theorem nakSent_pending (n : Nat) (s : State) : (nakSent n s).pending = s.pending := by
  simp only [nakSent, ↓satAdd_pending, ↓updLink_pending, ↓apply_ite State.pending, ite_self]

theorem linkFrameSend_pending (n : Nat) (s : State) : (linkFrameSend n s).pending = s.pending := by
  simp only [linkFrameSend, ↓fillBody_pending, ↓linkEmit_pending, ↓updLink_pending, ↓noteStall_pending, ↓nakSent_pending,
    ↓apply_ite State.pending, ite_self]

theorem wantNak_pending (n : Nat) (s : State) : (wantNak n s).pending = s.pending := by
  simp only [wantNak]
  (repeat' split) <;> simp only [↓updLink_pending]

theorem ackFrames_pending (n ack : Nat) (s : State) : (ackFrames n ack s).pending = s.pending := by
  unfold ackFrames
  split <;> simp only [↓updLink_pending]

theorem creditFrames_pending (n ccred dcred : Nat) (s : State) : (creditFrames n ccred dcred s).pending = s.pending := by
  simp only [creditFrames, ↓addR_pending, ↓subR_pending, ↓noteStall_pending, ↓updLink_pending]

theorem useHeader_pending (n : Nat) (f : Frame) (s : State) : (useHeader n f s).pending = s.pending := by
  simp only [useHeader, ↓creditFrames_pending, ↓ackFrames_pending, ↓updLink_pending, ↓leaveBitmap_pending, ↓upd_pending]

theorem returnCredit_pending (n : Nat) (data : Bool) (k : Nat) (s : State) : (returnCredit n data k s).pending = s.pending := by
  simp only [returnCredit, ↓updLink_pending]

theorem linkPacketIn_pending (n : Nat) (bs : List Byte) (s : State) : (linkPacketIn n bs s).pending = s.pending := by
  simp only [linkPacketIn, ↓returnCredit_pending, ↓satAdd_pending, ↓linkArrived_pending, ↓apply_ite State.pending, ite_self]

theorem takeBody_pending (n : Nat) : ∀ (fuel : Nat) (bs : List Byte) (s : State), (takeBody n fuel bs s).pending = s.pending
  | 0, _, _ => rfl
  | fuel + 1, bs, s => by
    unfold takeBody
    dsimp only
    split
    · split
      · rfl
      · exact (takeBody_pending n fuel _ _).trans rfl
    · split
      · rfl
      · exact (takeBody_pending n fuel _ _).trans (linkPacketIn_pending ..)

theorem fecCount_pending (n : Nat) (errs : List Nat) (s : State) : (fecCount n errs s).pending = s.pending := by
  simp only [fecCount, ↓updLink_pending, ↓satAdd_pending, ↓lifeCount_pending, ↓apply_ite State.pending, ite_self]

theorem crcFail_pending (n : Nat) (s : State) : (crcFail n s).pending = s.pending := by
  simp only [crcFail, ↓satAdd_pending, ↓wantNak_pending, ↓apply_ite State.pending, ite_self]

theorem frameArrives_pending (n : Nat) (errs : List Nat) {f : State → State} (hf : ∀ v, (f v).pending = v.pending) (s : State) :
    (frameArrives n errs f s).pending = s.pending := by
  simp only [frameArrives, ↓fecCount_pending, ↓crcFail_pending, ↓apply_ite State.pending, ite_self, hf]

theorem lifeReplay_pending (n : Nat) (s : State) : (lifeReplay n s).pending = s.pending := by
  simp only [lifeReplay, ↓lifeCount_pending, ↓apply_ite State.pending, ite_self]

theorem replayNow_pending (n : Nat) (s : State) : (replayNow n s).pending = s.pending := by
  simp only [replayNow, ↓linkDown_pending, ↓lifeReplay_pending, ↓satAdd_pending, ↓linkEmit_pending, ↓nakSent_pending,
    ↓updLink_pending, ↓apply_ite State.pending, ite_self]

theorem lnkCtrlWrite_pending (n v : Nat) (s : State) : (lnkCtrlWrite n v s).pending = s.pending := by
  simp only [lnkCtrlWrite, ↓put_pending, ↓setLinkSt_pending, ↓linkDownTo_pending, ↓tryTrain_pending, ↓freeNat_pending, ↓apply_ite
    State.pending, ite_self]

theorem lnkNarrowWrite_pending (m : Master) (i off width v : Nat) (s : State) :
    (lnkNarrowWrite m i off width v s).pending = s.pending := by
  simp only [lnkNarrowWrite, ↓refusedWrite_pending, ↓put_pending, ↓apply_ite State.pending, ite_self]

theorem lnkCntClear_pending (f : Nat) (s : State) : (lnkCntClear f s).pending = s.pending :=
  foldl_pending (fun _ _ => (put_pending ..).trans ((put_pending ..).trans (put_pending ..))) _ s

/-! ### Operands, queues and emission -/

theorem setQueue_pending (t q : Nat) (r : QueueRun) (s : State) : (setQueue t q r s).pending = s.pending := by
  simp only [setQueue, ↓updTile_pending]

theorem setUnit_pending (t u : Nat) (r : UnitRun) (s : State) : (setUnit t u r s).pending = s.pending := by
  simp only [setUnit, ↓updTile_pending]

theorem addCredit_pending (t e n : Nat) (s : State) : (addCredit t e n s).pending = s.pending := by
  simp only [addCredit, ↓updTile_pending]

theorem subCredit_pending (t e n : Nat) (s : State) : (subCredit t e n s).pending = s.pending := by
  simp only [subCredit, ↓updTile_pending]

theorem setCredit_pending (t e n : Nat) (s : State) : (setCredit t e n s).pending = s.pending := by
  simp only [setCredit, ↓updTile_pending]

theorem noteIn_pending (t q : Nat) (s : State) : (noteIn t q s).pending = s.pending := by
  simp only [noteIn, ↓addR_pending, ↓upd_pending, ↓apply_ite State.pending, ite_self]

theorem enqueue_pending (t q op : Nat) (drained : Bool) (s : State) : (enqueue t q op drained s).pending = s.pending := by
  simp only [enqueue]
  (repeat' split) <;> simp only [↓setQueue_pending, ↓updTile_pending, ↓setUnit_pending, ↓noteIn_pending]

theorem deliver_pending (t q op : Nat) (s : State) : (deliver t q op s).pending = s.pending := by
  simp only [deliver, ↓tagFault_pending, ↓enqueue_pending, ↓apply_ite State.pending, ite_self]

theorem deliverNotes_pending (t q : Nat) (s : State) : (deliverNotes t q s).pending = s.pending := by
  simp only [deliverNotes]
  (repeat' split) <;> simp only [↓deliver_pending, ↓updTile_pending]

theorem placeNote_pending (t q op : Nat) (s : State) : (placeNote t q op s).2.pending = s.pending := by
  simp only [placeNote, ↓deliver_pending, ↓updTile_pending, ↓apply_ite State.pending, ite_self, ↓apply_ite Prod.snd]

theorem flyWords_pending (t q op : Nat) (ws : List (List LaneWord)) (n : Nat) (s : State) :
    (flyWords t q op ws n s).pending = s.pending := by
  simp only [flyWords, ↓updTile_pending]

theorem inFlight_pending (t q op n : Nat) (s : State) : (inFlight t q op n s).pending = s.pending := by
  simp only [inFlight, ↓flyWords_pending]

theorem sendOperands_pending (t dst z : Nat) : ∀ (l : List Nat) (s : State), (sendOperands t dst z l s).pending = s.pending
  | [], _ => rfl
  | [_], s => sendAwaited_pending ..
  | _ :: _ :: l, s => by
    unfold sendOperands
    exact (sendOperands_pending t dst z l _).trans (sendAwaited_pending ..)

theorem dropAside_pending (e n : Nat) (s : State) : (dropAside e n s).pending = s.pending :=
  foldl_pending (fun v u => satAdd_pending (latStat u) LatStat.offDrop n v) _ s

theorem gatherAt_pending (t ch k : Nat) (bs : List Byte) (s : State) : (gatherAt t ch k bs s).pending = s.pending := by
  simp only [gatherAt, ↓setChan_pending]

theorem sendLattice_pending (t ch lead : Nat) (ops : List Nat) (s : State) : (sendLattice t ch lead ops s).pending = s.pending :=
  (ite_pending (gatherAt_pending ..) (ite_pending (satAdd_pending ..) (foldl_pending (fun _ _ => flyWords_pending ..) _ _))).trans
    (dropAside_pending ..)

theorem emit_pending (t e lead : Nat) (ops : List Nat) (s : State) : (emit t e lead ops s).pending = s.pending := by
  unfold emit
  dsimp only
  split
  · exact foldl_pending (fun v o => inFlight_pending ..) ops s
  · split
    · exact sendLattice_pending ..
    · exact sendOperands_pending ..

theorem freeSlots_pending (t : Nat) (back : List (Nat × Nat)) (s : State) : (freeSlots t back s).pending = s.pending := by
  simp only [freeSlots, ↓returnCredits_pending, ↓foldl_pending, implies_true]

/-! ### What integrity checks do to a tile and its batch, and the bookkeeping of steps, selection and item digests that execution needs -/

theorem intCount_pending (i n : Nat) (s : State) : (intCount i n s).pending = s.pending := by
  simp only [intCount, ↓addR_pending, ↓apply_ite State.pending, ite_self]

theorem countCheck_pending (c : Nat) (s : State) : (countCheck c s).pending = s.pending := by
  simp only [countCheck, ↓intCount_pending, ↓apply_ite State.pending, ite_self]

theorem overrideCause_pending (s : State) : (overrideCause s).pending = s.pending := by
  simp only [overrideCause, ↓mapReqs_pending]

theorem logInteg_pending (sev kind check t detail : Nat) (s : State) :
    (logInteg sev kind check t detail s).pending = s.pending := by
  simp only [logInteg, ↓logEvent_pending]

theorem checkRemap_pending (t check : Nat) (s : State) : (checkRemap t check s).pending = s.pending := by
  simp only [checkRemap, ↓remapRequest_pending, ↓logInteg_pending, ↓intCount_pending]

theorem noteStaying_pending (t check : Nat) (s : State) : (noteStaying t check s).pending = s.pending := by
  simp only [noteStaying, ↓itg_pending, ↓checkRemap_pending, ↓apply_ite State.pending, ite_self]

theorem integrityFaultAs_pending (t check detail : Nat) (s : State) :
    (integrityFaultAs t check detail s).pending = s.pending := by
  simp only [integrityFaultAs, ↓itg_pending, ↓countCheck_pending, ↓recordFault_pending, ↓logInteg_pending,
    ↓overrideCause_pending, ↓batchFail_pending, ↓haltGraph_pending, ↓checkRemap_pending, ↓noteStaying_pending, ↓apply_ite
    State.pending, ite_self]

theorem integrityFault_pending (t check : Nat) (s : State) : (integrityFault t check s).pending = s.pending := by
  simp only [integrityFault, ↓integrityFaultAs_pending]

theorem latticeParity_pending (t n : Nat) (s : State) : (latticeParity t n s).pending = s.pending := by
  simp only [latticeParity, ↓integrityFault_pending, ↓satAdd_pending]

theorem correctWords_pending (t k w n : Nat) (s : State) : (correctWords t k w n s).pending = s.pending := by
  simp only [correctWords, ↓logInteg_pending, ↓intCount_pending, ↓setTile_pending, ↓apply_ite State.pending, ite_self]

theorem correctRange_pending (t k u n : Nat) (s : State) : (correctRange t k u n s).pending = s.pending := by
  simp only [correctRange, ↓correctWords_pending]

theorem readRange_pending (t k u n : Nat) (s : State) : (readRange t k u n s).2.pending = s.pending := by
  simp only [readRange, ↓correctRange_pending, ↓integrityFault_pending, ↓intCount_pending, ↓apply_ite State.pending, ite_self,
    ↓apply_ite Prod.snd]

theorem katAll_pending (failed : List Nat) (s : State) : (katAll failed s).pending = s.pending := by
  simp only [katAll, ↓addR_pending, ↓sinceKatZero_pending, ↓integrityFault_pending, ↓foldl_pending, implies_true]

theorem markUnverified_pending (t : Nat) (s : State) : (markUnverified t s).pending = s.pending := by
  simp only [markUnverified, ↓upd_pending, ↓apply_ite State.pending, ite_self]

theorem resetSince_pending (t : Nat) (s : State) : (resetSince t s).pending = s.pending := by
  simp only [resetSince, ↓markUnverified_pending, ↓upd_pending]

theorem takePhase_pending (t n : Nat) (s : State) : (takePhase t n s).pending = s.pending := by
  simp only [takePhase, ↓freeNat_pending, ↓upd_pending]

theorem selectStep_pending (t : Nat) (s : State) : (selectStep t s).2.pending = s.pending := by
  simp only [selectStep, ↓itg_pending, ↓upd_pending, ↓takePhase_pending, ↓apply_ite State.pending, ite_self]

theorem beginStep_pending (t : Nat) (s : State) : (beginStep t s).pending = s.pending := by
  simp only [beginStep, ↓updTile_pending, ↓intCount_pending, ↓mapReqs_pending, ↓markUnverified_pending, ↓satAdd_pending,
    ↓apply_ite State.pending, ite_self]

theorem addItems_pending (t d : Nat) (items : List (List Byte)) (s : State) : (addItems t d items s).pending = s.pending := by
  simp only [addItems, ↓updTile_pending, ↓apply_ite State.pending, ite_self]

theorem emitOps_pending (t u e lead : Nat) (ops : List Nat) (s : State) : (emitOps t u e lead ops s).pending = s.pending := by
  simp only [emitOps, ↓emit_pending, ↓addItems_pending]

theorem emitPlain_pending (t u first skips lead : Nat) (s : State) : (emitPlain t u first skips lead s).pending = s.pending := by
  simp only [emitPlain, ↓emitOps_pending, ↓foldl_pending, implies_true]

/-! ### Resets, standby remaps, promotions and repair commands -/

theorem journalRecover_pending (s : State) : (journalRecover s).1.pending = s.pending := by
  unfold journalRecover
  split <;> simp only [↓storeMap_pending, ↓bt_pending, ↓satAdd_pending, ↓lifeCount_pending, ↓journalAdd_pending,
    ↓logOpen_pending, ↓apply_ite State.pending, ite_self, ↓apply_ite Prod.fst]

theorem remapRetry_pending (r : Remap) (bad : List Nat) (s : State) : (remapRetry r bad s).pending = s.pending := by
  simp only [remapRetry, ↓bt_pending, ↓logCoded_pending, ↓selectTargets_pending, ↓foldl_pending, implies_true]

theorem finishFabricReset_pending (failed : List Nat) (s : State) : (finishFabricReset failed s).pending = s.pending := by
  simp only [finishFabricReset, ↓resetRegs_pending, ↓journalRecover_pending, ↓fabricCleared_pending, ↓bt_pending,
    ↓loadMap_pending, ↓chooseTs_pending, ↓upd_pending, ↓satAdd_pending, ↓clusterOn_pending, ↓reloadSeason_pending,
    ↓katAll_pending, ↓linkUnfence_pending, ↓rejoinPorts_pending, ↓startRemap_pending, ↓foldl_pending, implies_true, ↓apply_ite
    State.pending, ite_self]

theorem resetCmdWrite_pending (m : Master) (op : Nat) (s : State) : (resetCmdWrite m op s).pending = s.pending := by
  unfold resetCmdWrite
  split <;> simp only [↓upd_pending, ↓startFabricReset_pending, ↓deviceReset_pending, ↓refusedWrite_pending]

theorem setRepair_pending (op field pending : Nat) (s : State) : (setRepair op field pending s).pending = s.pending := by
  simp only [setRepair, ↓put_pending]

theorem repairCmdWrite_pending (m : Master) (op f : Nat) (s : State) : (repairCmdWrite m op f s).pending = s.pending := by
  unfold repairCmdWrite
  split <;> simp only [↓setRepair_pending, ↓bt_pending, ↓refusedWrite_pending, ↓logOpen_pending, ↓writeMap_pending, ↓apply_ite
    State.pending, ite_self]

/-! ### Firmware images and their verification, boot records, and the configuration record -/

theorem setSlot_pending (i : Nat) (x : Slot) (s : State) : (setSlot i x s).pending = s.pending := by
  simp only [setSlot, ↓nv_pending]

theorem setRelease_pending (i : Nat) (held : Bool) (s : State) : (setRelease i held s).pending = s.pending := by
  simp only [setRelease, ↓upd_pending]

theorem lifeFirmware_pending (slot kind reason : Nat) (s : State) : (lifeFirmware slot kind reason s).pending = s.pending := by
  simp only [lifeFirmware, ↓setLifeWord_pending, ↓lifetimeWrite_pending, ↓foldl_pending, implies_true]

theorem writeBoot_pending (kind active target tboots trialMin reason : Nat) (md : List Byte) (rom : Bool) (s : State) :
    (writeBoot kind active target tboots trialMin reason md rom s).pending = s.pending := by
  simp only [writeBoot, ↓nvmPages_pending, ↓nv_pending, ↓upd_pending, ↓logCoded_pending, ↓lifeFirmware_pending, ↓apply_ite
    State.pending, ite_self]

theorem fallback_pending (reason : Nat) (s : State) : (fallback reason s).pending = s.pending := by
  simp only [fallback, ↓setFwSlot_pending, ↓deviceReset_pending, ↓writeBoot_pending]

theorem noteSelect_pending (s : State) : (noteSelect s).pending = s.pending := by simp only [noteSelect, ↓upd_pending]

theorem selectCfg_pending (v : Nat) (s : State) : (selectCfg v s).pending = s.pending := by
  simp only [selectCfg, ↓noteSelect_pending, ↓writeDevice_pending, ↓logOpen_pending, ↓nv_pending]

theorem installCfg_pending (bs : List Byte) (s : State) : (installCfg bs s).2.pending = s.pending := by
  simp only [installCfg, ↓upd_pending, ↓logCoded_pending, ↓nvmPages_pending, ↓nv_pending, ↓noteSelect_pending,
    ↓writeDevice_pending, ↓apply_ite State.pending, ite_self, ↓apply_ite Prod.snd]

theorem enrollBlob_pending (bs : List Byte) (s : State) : (enrollBlob bs s).2.pending = s.pending := by
  simp only [enrollBlob, ↓upd_pending, ↓logCoded_pending, ↓nv_pending, ↓apply_ite State.pending, ite_self, ↓apply_ite Prod.snd]

theorem loadLinks_pending (bs : List Byte) (s : State) : (loadLinks bs s).pending = s.pending := by
  unfold loadLinks
  refine (foldl_pending ?_ _ _).trans (put_pending ..)
  intro v n
  simp only [upd_pending]

theorem upd2_kept (o o' : Nat) (f f' : Fld) (x x' : Nat) (s : State) : QueueKept s (upd o f x (upd o' f' x' s)) :=
  (upd_pending ..).trans (upd_pending ..)

theorem loadCfg_pending (bs : List Byte) (s : State) : (loadCfg bs s).pending = s.pending := by
  unfold loadCfg
  extract_lets linked p prio leased ranged hbm tests last
  have h1 : QueueKept s linked := loadLinks_pending bs s
  have h2 : QueueKept linked prio := (upd2_kept ..).trans (upd2_kept ..)
  have h3 : QueueKept prio leased := upd2_kept ..
  have h4 : QueueKept leased ranged := (put_pending ..).trans (put_pending ..)
  have h5 : QueueKept ranged hbm := upd2_kept ..
  have h6 : QueueKept hbm tests := upd2_kept ..
  have h7 : QueueKept tests last := upd2_kept ..
  clear_value linked prio leased ranged hbm tests last
  exact ((((((h1.trans h2).trans h3).trans h4).trans h5).trans h6).trans h7).trans (upd2_kept ..)

theorem loadRestricted_pending (s : State) : (loadRestricted s).pending = s.pending := by
  simp only [loadRestricted, ↓put_pending, ↓upd_pending]

theorem configSelect_pending (flips : List NvmFlip) (s : State) : (configSelect flips s).pending = s.pending := by
  simp only [configSelect, ↓nv_pending, ↓loadCfg_pending, ↓upd_pending, ↓logOpen_pending, ↓loadRestricted_pending,
    ↓noteSelect_pending, ↓apply_ite State.pending, ite_self]

end Sys2Proof.Machine

end

section
/-! The queue of waiting commands under passes, lattice channels, the tag matcher, kernels, DMA and packets. -/

namespace Sys2Proof.Machine

open Sys2Proof

/-! ### Pass descriptors, the weight front and the arrays' progress in one TCLK -/

theorem takePartials_pending (t p : Nat) (s : State) : (takePartials t p s).2.pending = s.pending := by
  simp only [takePartials, ↓returnCredits_pending, ↓setChan_pending, ↓apply_ite State.pending, ite_self, ↓apply_ite Prod.snd]

theorem takeSend_pending (t p : Nat) (s : State) : (takeSend t p s).pending = s.pending := by
  simp only [takeSend, ↓setChan_pending, ↓apply_ite State.pending, ite_self]

theorem enterVector_pending (t i : Nat) (r : PassRun) (s : State) : (enterVector t i r s).pending = s.pending := by
  simp only [enterVector, ↓takeSend_pending, ↓tileCount1_pending, ↓setTile_pending]

theorem noteLatched_pending (t : Nat) (s : State) : (noteLatched t s).pending = s.pending := by
  simp only [noteLatched, ↓upd_pending, ↓setTile_pending, ↓apply_ite State.pending, ite_self]

theorem emptyBeat_pending (t : Nat) (s : State) : (emptyBeat t s).pending = s.pending := by
  simp only [emptyBeat, ↓tileCount1_pending, ↓apply_ite State.pending, ite_self]

theorem arraysEnter_pending (t : Nat) (s : State) : (arraysEnter t s).pending = s.pending := by
  simp only [arraysEnter]
  (repeat' split) <;> simp only [↓tileCount1_pending, ↓emptyBeat_pending, ↓addR_pending, ↓enterVector_pending]

/-! ### The arithmetic status of a tile -/

theorem noteNar_pending (t n : Nat) (s : State) : (noteNar t n s).pending = s.pending := by
  simp only [noteNar, ↓satAdd_pending, ↓upd_pending, ↓apply_ite State.pending, ite_self]

theorem noteSat_pending (t n : Nat) (s : State) : (noteSat t n s).pending = s.pending := by
  simp only [noteSat, ↓satAdd_pending, ↓upd_pending, ↓apply_ite State.pending, ite_self]

theorem noteDecFault_pending (t : Nat) (s : State) : (noteDecFault t s).pending = s.pending := by
  simp only [noteDecFault, ↓upd_pending]

theorem noteConversions_pending (t : Nat) (xs : List Num) (out : List (Nat × Bool)) (s : State) :
    (noteConversions t xs out s).pending = s.pending := by
  simp only [noteConversions, ↓noteSat_pending, ↓noteNar_pending]

/-! ### Lattice channels -/

theorem putOnWire_pending (t ch : Nat) (hdr : Option Nat) (bs : List Byte) (s : State) :
    (putOnWire t ch hdr bs s).pending = s.pending :=
  (ite_pending (gatherAt_pending ..) (ite_pending (satAdd_pending ..) (setChan_pending ..))).trans (dropAside_pending ..)

theorem sendPaid_pending (t ch hdr : Nat) (payload : List Byte) (s : State) :
    (sendPaid t ch hdr payload s).pending = s.pending := by
  simp only [sendPaid, ↓putOnWire_pending, ↓satAdd_pending, ↓apply_ite State.pending, ite_self]

theorem sendLanding_pending (t ch hdr : Nat) (payload : List Byte) (s : State) :
    (sendLanding t ch hdr payload s).pending = s.pending := by
  simp only [sendLanding, ↓sendPaid_pending, ↓setChan_pending]

theorem sendUnits_pending (t ch : Nat) : ∀ (n : Nat) (bs : List Byte) (s : State), (sendUnits t ch n bs s).pending = s.pending
  | 0, _, _ => rfl
  | n + 1, bs, s => by
    unfold sendUnits
    exact (sendUnits_pending t ch n _ _).trans (putOnWire_pending ..)

theorem landMessage_pending (t ch hdr : Nat) (payload : List Byte) (s : State) :
    (landMessage t ch hdr payload s).pending = s.pending := by
  simp only [landMessage, ↓deliver_pending, ↓updTile_pending, ↓setChan_pending, ↓apply_ite State.pending, ite_self]

theorem landUnit_pending (t ch : Nat) (bs : List Byte) (s : State) : (landUnit t ch bs s).pending = s.pending := by
  simp only [landUnit, ↓updTile_pending, ↓setChan_pending]

theorem takeWire_pending {t ch : Nat} {s s' : State} {m : List (List LaneWord)} (h : takeWire t ch s = some (m, s')) :
    s'.pending = s.pending := by
  unfold takeWire at h
  dsimp only at h
  split at h
  · cases h
  · split at h
    · cases h
      exact setChan_pending ..
    · cases h

theorem receiveWords_pending (t ch : Nat) (ws : List (List LaneWord)) (s : State) :
    (receiveWords t ch ws s).pending = s.pending := by
  simp only [receiveWords, ↓latticeParity_pending, ↓landMessage_pending, ↓landUnit_pending, ↓apply_ite State.pending, ite_self]

theorem receiveNext_pending (mode t ch : Nat) (flips : List (Nat × Nat)) (s : State) :
    (receiveNext mode t ch flips s).pending = s.pending := by
  unfold receiveNext
  dsimp only
  split
  · rfl
  · split
    · rfl
    · next taken => exact (receiveWords_pending ..).trans (takeWire_pending taken)

theorem setLeg_pending (t ch k : Nat) (g : TunnelLeg) (s : State) : (setLeg t ch k g s).pending = s.pending := by
  simp only [setLeg, ↓setChan_pending]

theorem tunnelDeliver_pending (t ch k : Nat) : ∀ (n : Nat) (s : State), (tunnelDeliver t ch k n s).pending = s.pending
  | 0, _ => rfl
  | n + 1, s => by
    unfold tunnelDeliver
    dsimp only
    split
    · rfl
    · refine (tunnelDeliver_pending t ch k n _).trans ?_
      split
      · exact (deliver_pending ..).trans (setLeg_pending ..)
      · exact (receiveWords_pending ..).trans (setLeg_pending ..)

theorem tunnelOut_pending (t ch k : Nat) (l : Nat × Nat) (bs : List Byte) (s : State) :
    (tunnelOut t ch k l bs s).pending = s.pending := by
  simp only [tunnelOut, ↓gatherAt_pending, ↓satAdd_pending, ↓tunnelDeliver_pending, ↓setLeg_pending, ↓flyWords_pending,
    ↓setChan_pending, ↓foldl_pending, implies_true, ↓apply_ite State.pending, ite_self]

theorem tunnelArrive_pending (t ch k : Nat) (p : Packet) (s : State) : (tunnelArrive t ch k p s).pending = s.pending := by
  simp only [tunnelArrive, ↓setLeg_pending, ↓tunnelOut_pending, ↓latticeParity_pending, ↓apply_ite State.pending, ite_self]

/-! ### Passes -/

theorem readRanges_pending (t e : Nat) : ∀ (l : List (Nat × Nat × Nat)) (s : State), (readRanges t e l s).2.pending = s.pending
  | [], _ => rfl
  | r :: rs, s => by
    unfold readRanges
    dsimp only
    split
    · exact (readRanges_pending t e rs _).trans (readRange_pending ..)
    · exact readRange_pending ..

theorem wholeUnits_pending (p : Nat) (bs : List Byte) (s : State) : (wholeUnits p bs s).2.pending = s.pending := by
  simp only [wholeUnits, ↓freeNat_pending, ↓apply_ite State.pending, ite_self, ↓apply_ite Prod.snd]

theorem storeOutput_pending (t e p i a : Nat) (bs : List Byte) (s : State) :
    (storeOutput t e p i a bs s).pending = s.pending := by
  simp only [storeOutput, ↓updTile_pending, ↓apply_ite State.pending, ite_self]

theorem arrayOut_pending (t : Nat) (r : PassRun) (e p i : Nat) (acc : List Byte) (b : List (Nat × List Byte) × State) (a : Nat) :
    (arrayOut t r e p i acc b a).2.pending = b.2.pending := by
  unfold arrayOut
  dsimp only
  split
  · exact (wholeUnits_pending ..).trans (noteConversions_pending ..)
  · exact (addItems_pending ..).trans ((storeOutput_pending ..).trans ((wholeUnits_pending ..).trans (noteConversions_pending
    ..)))

theorem sendMessages_pending (t : Nat) (r : PassRun) (p : Nat) (s : State) : (sendMessages t r p s).pending = s.pending := by
  simp only [sendMessages, ↓sendPaid_pending, ↓addItems_pending, ↓foldl_pending, implies_true]

theorem sendLa96_pending (t : Nat) (r : PassRun) (p : Nat) (bs : List Byte) (s : State) :
    (sendLa96 t r p bs s).pending = s.pending := by
  simp only [sendLa96, ↓addItems_pending, ↓sendUnits_pending]

theorem leaveVector_pending (t i : Nat) (r : PassRun) (s : State) : (leaveVector t i r s).pending = s.pending := by
  unfold leaveVector
  extract_lets p e read q out landing r' sent messaged
  have h : read.2.pending = s.pending := readRanges_pending ..
  have h1 : out.2.pending = read.2.pending :=
    (foldl_snd_pending (fun b a => arrayOut_pending t r e p r.left q.1 b a) (enabled p) ([], q.2)).trans (takePartials_pending ..)
  have h2 : sent.pending = out.2.pending := ite_pending (sendLa96_pending ..) rfl
  have h3 : messaged.pending = sent.pending := ite_pending (sendMessages_pending ..) rfl
  clear_value messaged sent out
  exact ite_pending h ((updTile_pending ..).trans (h3.trans (h2.trans (h1.trans h))))

theorem arraysLeave_pending (t : Nat) (s : State) : (arraysLeave t s).pending = s.pending :=
  foldl_pending (fun v i => by
    split
    · split
      · exact leaveVector_pending ..
      · rfl
    · rfl) _ s

theorem arraysTick_pending (t : Nat) (s : State) : (arraysTick t s).pending = s.pending := by
  simp only [arraysTick, ↓noteLatched_pending, ↓arraysEnter_pending, ↓arraysLeave_pending]

/-! ### The tag matcher -/

theorem returnEdge_pending (t t' e n : Nat) (s : State) : (returnEdge t t' e n s).pending = s.pending := by
  simp only [returnEdge, ↓returnCredits_pending, ↓addCredit_pending, ↓apply_ite State.pending, ite_self]

theorem consumePort_pending (t : Nat) (tags : List Nat) (q : Nat) (s : State) :
    (consumePort t tags s q).2.pending = s.pending := by
  simp only [consumePort]
  (repeat' split) <;> simp only [↓setQueue_pending, ↓returnEdge_pending, ↓deliverNotes_pending, ↓foldl_pending, implies_true]

theorem consumeAll_pending (t : Nat) (tags : List Nat) : ∀ (l : List Nat) (s : State),
    (consumeAll t tags l s).2.pending = s.pending
  | [], _ => rfl
  | q :: r, s => by
    unfold consumeAll
    exact (consumeAll_pending t tags r _).trans (consumePort_pending ..)

theorem noteFire_pending (t u first : Nat) (s : State) : (noteFire t u first s).pending = s.pending := by
  simp only [noteFire, ↓setUnit_pending, ↓subCredit_pending, ↓updTile_pending, ↓foldl_pending, implies_true]

theorem sourceOps_pending (first n real rate : Nat) (s : State) : (sourceOps first n real rate s).2.pending = s.pending := by
  simp only [sourceOps, ↓freeNat_pending, ↓foldl_snd_pending, implies_true, ↓apply_ite State.pending, ite_self, ↓apply_ite
    Prod.snd]

theorem fireSource_pending (t u k : Nat) (s : State) : (fireSource t u k s).pending = s.pending := by
  simp only [fireSource, ↓sourceOps_pending, ↓emitOps_pending, ↓foldl_pending, implies_true]

theorem fireSink_pending (t u : Nat) (s : State) : (fireSink t u s).pending = s.pending := by
  simp only [fireSink, ↓updTile_pending, ↓apply_ite State.pending, ite_self]

theorem fireFork_pending (t u : Nat) (ops : List Nat) (s : State) : (fireFork t u ops s).pending = s.pending := by
  simp only [fireFork, ↓emitOps_pending, ↓foldl_pending, implies_true]

theorem emitSkips_pending (t u tag e : Nat) (s : State) : (emitSkips t u tag s e).pending = s.pending := by
  simp only [emitSkips, ↓emitOps_pending]

theorem fireSelect_pending (t u tag : Nat) (ports : List (List Nat)) (s : State) :
    (fireSelect t u tag ports s).pending = s.pending := by
  simp only [fireSelect, ↓emitSkips_pending, ↓tagFault_pending, ↓emitOps_pending, ↓foldl_pending, implies_true, ↓apply_ite
    State.pending, ite_self]

theorem fireMerge_pending (t u tag : Nat) (ports : List (List Nat)) (s : State) :
    (fireMerge t u tag ports s).pending = s.pending := by
  simp only [fireMerge, ↓emitSkips_pending, ↓tagFault_pending, ↓emitOps_pending, ↓foldl_pending, implies_true, ↓apply_ite
    State.pending, ite_self]

theorem placeJob_pending (t : Nat) (kernel : Bool) (j : SeqJob) (s : State) : (placeJob t kernel j s).pending = s.pending := by
  simp only [placeJob, ↓updTile_pending]

theorem fireUnit_pending (t u first : Nat) (s : State) : (fireUnit t u first s).pending = s.pending := by
  simp only [fireUnit, ↓beginStep_pending, ↓consumeAll_pending, ↓noteFire_pending, ↓fireSource_pending, ↓freeSlots_pending,
    ↓emitPlain_pending, ↓placeJob_pending, ↓fireSink_pending, ↓fireFork_pending, ↓fireSelect_pending, ↓fireMerge_pending,
    ↓apply_ite State.pending, ite_self]

theorem readGroup_pending (t : Nat) (bad tags qs : List Nat) (s : State) : (readGroup t bad tags qs s).2.pending = s.pending := by
  simp only [readGroup, ↓readRange_pending, ↓integrityFault_pending, ↓foldl_snd_pending, implies_true, ↓apply_ite State.pending,
    ite_self, ↓apply_ite Prod.snd]

theorem fireChecked_pending (t : Nat) (bad : List Nat) (u first : Nat) (s : State) :
    (fireChecked t bad u first s).pending = s.pending := by
  simp only [fireChecked, ↓readGroup_pending, ↓fireUnit_pending, ↓tileCount1_pending, ↓apply_ite State.pending, ite_self]

theorem unitCount_pending (t u k : Nat) (s : State) : (unitCount t u k s).pending = s.pending := by
  simp only [unitCount, ↓tileCount1_pending]

theorem classify_pending (t u : Nat) (s : State) : (classify t u s).pending = s.pending := by
  simp only [classify]
  (repeat' split) <;> simp only [↓unitCount_pending]

theorem tryUnit_pending (t u : Nat) (bad : List Nat) (a : Nat × State) : (tryUnit t bad a u).2.pending = a.2.pending := by
  unfold tryUnit
  dsimp only
  split
  · rfl
  · split
    · exact classify_pending ..
    · split
      · exact fireChecked_pending ..
      · exact classify_pending ..

theorem unitTimer_pending (t : Nat) (issue : Bool) (u : Nat) (s : State) : (unitTimer t issue s u).pending = s.pending := by
  simp only [unitTimer, ↓setUnit_pending, ↓apply_ite State.pending, ite_self]

theorem matchTick_pending (t : Nat) (bad : List Nat) (s : State) : (matchTick t bad s).pending = s.pending := by
  unfold matchTick
  extract_lets held quiet fired issue
  have h1 : quiet.pending = s.pending := updTile_pending ..
  have h2 : fired.pending = quiet.pending := foldl_snd_pending (fun a u => tryUnit_pending t u bad a) _ (0, quiet)
  clear_value fired quiet
  exact ite_pending ((foldl_pending (fun v u => unitTimer_pending t issue u v) _ fired).trans (h2.trans h1)) (h2.trans h1)

theorem microRetired_pending (t : Nat) (s : State) : (microRetired t s).pending = s.pending := by
  simp only [microRetired, ↓freeNat_pending, ↓tileCount1_pending]

/-! ### The stream processor -/

theorem setKernel_pending (t : Nat) (k : KernelRun) (s : State) : (setKernel t k s).pending = s.pending := by
  simp only [setKernel, ↓updTile_pending]

theorem retire_pending (t : Nat) (k : KernelRun) (s : State) : (retire t k s).pending = s.pending := by
  simp only [retire, ↓tileCount1_pending, ↓setKernel_pending]

theorem spFault_pending (t code : Nat) (k : KernelRun) (s : State) : (spFault t code k s).pending = s.pending := by
  simp only [spFault, ↓tileFault_pending]

theorem spIssue_pending (t : Nat) (m : Nat → Bool) {f : KernelRun → State → State} (hf : ∀ k v, (f k v).pending = v.pending)
    (s : State) : (spIssue t m f s).pending = s.pending := by unfold spIssue; split <;> simp only [↓spFault_pending,
      ↓readRange_pending, ↓apply_ite State.pending, ite_self, hf]

theorem spIssue_kept {t : Nat} {m : Nat → Bool} {f : KernelRun → State → State} {s : State} (hf : ∀ k v, QueueKept v (f k v)) :
    QueueKept s (spIssue t m f s) := spIssue_pending t m hf s

theorem spCompute_pending (t : Nat) (m : Nat → Bool) (f : TileState → TileState) (s : State) :
    (spCompute t m f s).pending = s.pending :=
  spIssue_pending t m (fun _ _ => (retire_pending ..).trans (updTile_pending ..)) s

theorem routineDone_pending (t idx : Nat) (k : KernelRun) (s : State) : (routineDone t idx k s).pending = s.pending := by
  simp only [routineDone, ↓microRetired_pending, ↓setKernel_pending]

/-! ### The instructions of the stream processor, one meaning for each class of R103, and its kernels -/

theorem spAccess_pending (t : Nat) (m : Nat → Bool) (mem off n : Nat) (store : Bool) {f : Nat → KernelRun → State → State}
    (hf : ∀ a k v, (f a k v).pending = v.pending) (s : State) : (spAccess t m mem off n store f s).pending = s.pending :=
  show QueueKept s (spAccess t m mem off n store f s) from spIssue_kept (fun k v => ite_kept (spFault_pending ..)
    (ite_kept (hf _ k v) (ite_kept (.after (hf _ k _) (readRange_pending ..)) (readRange_pending ..))))

theorem spStore_pending (t mem a : Nat) (bs : List Byte) (s : State) : (spStore t mem a bs s).pending = s.pending := by
  simp only [spStore, ↓updTile_pending]

theorem emitNext_pending (t port kind aux payload : Nat) (k : KernelRun) {next : KernelRun → State → State} (hnext : ∀ x0 x1,
    (next x0 x1).pending = x1.pending) (s : State) :
    (emitNext t port kind aux payload k next s).pending = s.pending := by
  simp only [emitNext, ↓tagFault_pending, ↓emitOps_pending, ↓apply_ite State.pending, ite_self, hnext]

/-! ### DMA descriptors, the segments of a transfer, the packets an engine sends, and the end of a descriptor -/

theorem setRun_pending (t e : Nat) (r : DmaRun) (s : State) : (setRun t e r s).pending = s.pending := by
  simp only [setRun, ↓setEngine_pending]

theorem sendNext_pending (t e : Nat) (r : DmaRun) (s : State) : (sendNext t e r s).pending = s.pending := by
  simp only [sendNext]
  (repeat' split) <;> simp only [↓readRange_pending, ↓setRun_pending, ↓addR_pending, ↓send_pending]

theorem pump_pending (t e : Nat) : ∀ (n : Nat) (s : State), (pump t e n s).pending = s.pending
  | 0, _ => rfl
  | n + 1, s => by
    unfold pump
    split
    · rfl
    · split
      · exact (pump_pending t e n _).trans (sendNext_pending ..)
      · rfl

theorem failChunks_pending (ids : List Nat) (cause detail : Nat) (s : State) :
    (failChunks ids cause detail s).pending = s.pending := by
  simp only [failChunks, ↓batchDrop_pending, ↓chunkFail_pending, ↓foldl_pending, implies_true]

theorem noteLocal_pending (t q op : Nat) (s : State) : (noteLocal t q op s).pending = s.pending := by
  simp only [noteLocal, ↓placeNote_pending, ↓updTile_pending, ↓apply_ite State.pending, ite_self]

theorem sendNote_pending (t e : Nat) (j : DmaJob) (idx op : Nat) (s : State) : (sendNote t e j idx op s).pending = s.pending := by
  simp only [sendNote, ↓send_pending]

theorem notifyEnd_pending (t e : Nat) (j : DmaJob) (result : Nat) (written : Bool) (s : State) :
    (notifyEnd t e j result written s).pending = s.pending := by
  simp only [notifyEnd, ↓noteLocal_pending, ↓sendNote_pending, ↓setEngine_pending, ↓apply_ite State.pending, ite_self]

theorem endDesc_pending (t e : Nat) (j : DmaJob) (done fail result reason seg : Nat) (s : State) :
    (endDesc t e j done fail result reason seg s).pending = s.pending := by
  simp only [endDesc]
  (repeat' split) <;> simp only [↓updTile_pending, ↓upd_pending, ↓setEngine_pending, ↓notifyEnd_pending, ↓logCoded_pending,
    ↓failChunks_pending]

theorem checkEnd_pending (t e : Nat) (s : State) : (checkEnd t e s).pending = s.pending := by
  unfold checkEnd
  split <;> simp only [↓endDesc_pending, ↓apply_ite State.pending, ite_self]

theorem creditDone_pending (t e : Nat) (c : DmaCredit) (f : DmaRun → DmaRun) (s : State) :
    (creditDone t e c f s).pending = s.pending := by
  unfold creditDone
  split <;> simp only [↓subR_pending, ↓setRun_pending, ↓checkEnd_pending, ↓pump_pending]

theorem lateAnswer_pending (t e idx : Nat) (s : State) : (lateAnswer t e idx s).pending = s.pending := by
  simp only [lateAnswer, ↓satAdd_pending, ↓setEngine_pending]

theorem copyLocal_pending (t e : Nat) (r : DmaRun) (s : State) : (copyLocal t e r s).pending = s.pending := by
  unfold copyLocal
  extract_lets d src copied
  have h : copied.2.pending = s.pending := foldl_snd_pending (fun a i => by
    dsimp only
    split
    · exact readRange_pending ..
    · exact readRange_pending ..) _ (r, s)
  clear_value copied
  exact (checkEnd_pending ..).trans ((setRun_pending ..).trans h)

/-! ### The commands of the DMA engines -/

theorem submitPriv_pending (t e desc : Nat) (s : State) : (submitPriv t e desc s).pending = s.pending := by
  simp only [submitPriv, ↓setEngine_pending, ↓apply_ite State.pending, ite_self]

theorem submitSince_pending (t e : Nat) (priv : Option Nat) (s : State) : (submitSince t e priv s).pending = s.pending := by
  unfold submitSince
  split <;> simp only [↓submitPriv_pending]

theorem giveUpNote_pending (t e : Nat) (r : DmaRetry) (s : State) : (giveUpNote t e r s).pending = s.pending := by
  simp only [giveUpNote, ↓setEngine_pending, ↓updTile_pending, ↓logCoded_pending, ↓apply_ite State.pending, ite_self]

/-! ### What endpoints do with packets -/

theorem refuseWindow_pending (t : Nat) (p : Packet) (r : Nat) (s : State) : (refuseWindow t p r s).pending = s.pending := by
  simp only [refuseWindow, ↓send_pending, ↓logCoded_pending, ↓satAdd_pending]

theorem engineAck_pending (t txid : Nat) (p : Packet) (s : State) : (engineAck t txid p s).pending = s.pending := by
  simp only [engineAck]
  (repeat' split) <;> simp only [↓setEngine_pending, ↓creditDone_pending, ↓addR_pending, ↓lateAnswer_pending]

theorem engineRefuse_pending (t txid reason : Nat) (p : Packet) (s : State) :
    (engineRefuse t txid reason p s).pending = s.pending := by
  simp only [engineRefuse]
  (repeat' split) <;> simp only [↓setEngine_pending, ↓logCoded_pending, ↓creditDone_pending, ↓addR_pending, ↓lateAnswer_pending]

theorem engineOr_pending (p : Packet) {f : State → State} (hf : ∀ v, (f v).pending = v.pending) (s : State) :
    (engineOr p f s).pending = s.pending := by
  simp only [engineOr, ↓ignorePacket_pending, ↓apply_ite State.pending, ite_self, hf]

theorem awaitLost_pending (a : Await) (s : State) : (awaitLost a s).pending = s.pending := by
  simp only [awaitLost, ↓tagFault_pending, ↓send_pending, ↓startFabricReset_pending, ↓logOpen_pending, ↓apply_ite State.pending,
    ite_self]

theorem barrierError_pending (b : Nat) (s : State) : (barrierError b s).pending = s.pending := by
  simp only [barrierError, ↓logOpen_pending, ↓upd_pending, ↓batchFail_pending, ↓haltReq_pending, ↓foldl_pending, implies_true]

theorem barrierRelease_pending (b : Nat) (s : State) : (barrierRelease b s).pending = s.pending := by
  simp only [barrierRelease, ↓upd_pending, ↓sendAwaited_pending, ↓foldl_pending, implies_true]

theorem barArrive_pending (b sense : Nat) (s : State) : (barArrive b sense s).pending = s.pending := by
  simp only [barArrive, ↓barrierError_pending, ↓upd_pending, ↓barrierRelease_pending, ↓apply_ite State.pending, ite_self]

theorem setFlag_pending (f i v : Nat) (s : State) : (setFlag f i v s).pending = s.pending := by simp only [setFlag, ↓upd_pending]

/-! ### The commands of the concourse -/

theorem dequeue_pending (g i : Nat) (p : Packet) (s : State) : (dequeue g i p s).pending = s.pending := by
  simp only [dequeue, ↓setBuf_pending]

theorem handOver_pending (p : Packet) (s : State) : (handOver p s).pending = s.pending := by
  simp only [handOver, ↓linkQueue_pending, ↓apply_ite State.pending, ite_self]

theorem fillRouter_pending (g : Nat) (s : State) : (fillRouter g s).pending = s.pending := by
  simp only [fillRouter, ↓nicFill_pending, ↓foldl_pending, implies_true]

theorem failedServes_pending (a : Nat) (s : State) : (failedServes s a).2.pending = s.pending := by
  simp only [failedServes, ↓freeNat_pending, ↓apply_ite State.pending, ite_self, ↓apply_ite Prod.snd]

theorem forwardWrite_pending (t e : Nat) (r : DmaRun) (c : DmaCredit) (bs : List Byte) (s : State) :
    (forwardWrite t e r c bs s).pending = s.pending := by
  simp only [forwardWrite, ↓creditDone_pending, ↓addR_pending, ↓send_pending, ↓setRun_pending, ↓apply_ite State.pending, ite_self]

theorem seamFail_pending (b : SeamBundle) (i : Nat) (s : State) : (seamFail b i s).pending = s.pending := by
  unfold seamFail
  split <;> simp only [↓setBundle_pending, ↓logOpen_pending, ↓satAdd_pending, ↓winterCause_pending, ↓upd_pending, ↓apply_ite
    State.pending, ite_self]

end Sys2Proof.Machine

end

section
/-! The queue of waiting commands under power, bring-up, scheduling, the register space and the service port. -/

namespace Sys2Proof.Machine

open Sys2Proof

/-! ### Power delivery -/

theorem noteVin_pending (vin : Nat) (s : State) : (noteVin vin s).pending = s.pending := by simp only [noteVin, ↓upd_pending]

theorem pwrCmdWrite_pending (m : Master) (op : Nat) (s : State) : (pwrCmdWrite m op s).pending = s.pending := by
  unfold pwrCmdWrite
  split <;> simp only [↓upd_pending, ↓powerOff_pending, ↓computeReset_pending, ↓lifetimeWrite_pending, ↓logFlush_pending,
    ↓refusedWrite_pending]

theorem undoHeat_pending (g : Nat) (s : State) : (undoHeat g s).pending = s.pending := by
  simp only [undoHeat, ↓upd_pending, ↓apply_ite State.pending, ite_self]

theorem admitCluster_pending (g : Nat) (slow : Bool) (s : State) : (admitCluster g slow s).pending = s.pending := by
  simp only [admitCluster, ↓upd_pending, ↓satAdd_pending]

theorem domainsHeld_pending (s : State) : (domainsHeld s).pending = s.pending := by
  simp only [domainsHeld, ↓setLinkSt_pending, ↓updLink_pending, ↓upd_pending, ↓headDown_pending, ↓foldl_pending, implies_true]

/-! ### Bring-up from the supervisor's release to SUMMER -/

theorem finishStep_pending (n : Nat) (s : State) : (finishStep n s).pending = s.pending := by
  simp only [finishStep, ↓bt_pending, ↓upd_pending, ↓apply_ite State.pending, ite_self]

theorem checkKeys_pending (s : State) : (checkKeys s).pending = s.pending := by
  simp only [checkKeys, ↓put_pending, ↓logOpen_pending, ↓foldl_pending, implies_true, ↓apply_ite State.pending, ite_self]

theorem startSlot_pending (i : Nat) (trial : Bool) (tboots minutes : Nat) (s : State) :
    (startSlot i trial tboots minutes s).pending = s.pending := by
  simp only [startSlot, ↓nv_pending, ↓setRelease_pending, ↓upd_pending, ↓apply_ite State.pending, ite_self]

theorem runSlot_pending (i : Nat) (trial : Bool) (tboots minutes : Nat) (s : State) :
    (runSlot i trial tboots minutes s).pending = s.pending := by
  simp only [runSlot, ↓startSlot_pending, ↓writeBoot_pending, ↓setFwSlot_pending, ↓springStop_pending, ↓apply_ite State.pending,
    ite_self]

theorem endTrial_pending (kind : Nat) (r : BootRec) (reason : Nat) (s : State) :
    (endTrial kind r reason s).pending = s.pending := by
  simp only [endTrial, ↓runSlot_pending, ↓writeBoot_pending, ↓setFwSlot_pending]

theorem trialBoot_pending (r : BootRec) (tboots : Nat) (s : State) : (trialBoot r tboots s).pending = s.pending := by
  simp only [trialBoot, ↓runSlot_pending, ↓writeBoot_pending]

theorem chooseSlot_pending (s : State) : (chooseSlot s).pending = s.pending := by
  unfold chooseSlot
  split <;> simp only [↓startSlot_pending, ↓springStop_pending, ↓upd_pending, ↓trialBoot_pending, ↓endTrial_pending,
    ↓runSlot_pending, ↓apply_ite State.pending, ite_self]

theorem startLinks_pending (s : State) : (startLinks s).pending = s.pending := by
  simp only [startLinks, ↓tryTrain_pending, ↓foldl_pending, implies_true]

theorem readBoot_pending (flips : List NvmFlip) (s : State) : (readBoot flips s).pending = s.pending := by
  simp only [readBoot, ↓nv_pending]

theorem readDevice_pending (flips : List NvmFlip) (s : State) : (readDevice flips s).pending = s.pending := by
  simp only [readDevice]
  (repeat' split) <;> simp only [↓nv_pending]

theorem readStore_pending (flips : List NvmFlip) (s : State) : (readStore flips s).pending = s.pending := by
  simp only [readStore, ↓readDevice_pending, ↓readBoot_pending, ↓apply_ite State.pending, ite_self]

theorem loadSlices_pending (s : State) : (loadSlices s).pending = s.pending :=
  (upd_pending ..).trans ((upd_pending ..).trans ((countSlices_pending _).trans
    (foldl_pending (fun _ _ => (upd_pending ..).trans (upd_pending ..)) (List.range 768) s)))

theorem logBoot_pending (s : State) : (logBoot s).pending = s.pending := by
  unfold logBoot
  split <;> simp only [↓logCoded_pending, ↓bt_pending, ↓logOpen_pending, ↓apply_ite State.pending, ite_self]

theorem lostFieldsOff_pending (s : State) : (lostFieldsOff s).pending = s.pending := by
  simp only [lostFieldsOff, ↓fieldPowerLost_pending, ↓foldl_pending, implies_true, ↓apply_ite State.pending, ite_self]

theorem takeMap_pending (m : MapRecord) (s : State) : (takeMap m s).pending = s.pending := by simp only [takeMap, ↓bt_pending]

theorem readMap_pending (flips : List NvmFlip) (s : State) : (readMap flips s).pending = s.pending := by
  simp only [readMap]
  (repeat' split) <;> simp only [↓takeMap_pending, ↓bt_pending]

theorem readRetire_pending (flips : List NvmFlip) (s : State) : (readRetire flips s).pending = s.pending := by
  simp only [readRetire]

theorem readJournal_pending (flips : List NvmFlip) (s : State) : (readJournal flips s).pending = s.pending := by
  simp only [readJournal, ↓bt_pending]

theorem readLifetime_pending (flips : List NvmFlip) (s : State) : (readLifetime flips s).pending = s.pending := by
  simp only [readLifetime, ↓upd_pending, ↓apply_ite State.pending, ite_self]

theorem readLog_pending (flips : List NvmFlip) (s : State) : (readLog flips s).pending = s.pending := by simp only [readLog]

theorem readRecords_pending (flips : List NvmFlip) (s : State) : (readRecords flips s).pending = s.pending := by
  simp only [readRecords, ↓readLog_pending, ↓readLifetime_pending, ↓readRetire_pending, ↓readMap_pending, ↓readJournal_pending,
    ↓apply_ite State.pending, ite_self]

theorem springFieldLost_pending (f cause : Nat) (s : State) : (springFieldLost f cause s).pending = s.pending := by
  simp only [springFieldLost, ↓logCoded_pending, ↓lifeCount_pending, ↓hbmFieldLost_pending, ↓fieldPowerLost_pending,
    ↓writeMap_pending, ↓bt_pending, ↓springStop_pending, ↓apply_ite State.pending, ite_self]

theorem freshNonce_pending (f : Nat) (s : State) : (freshNonce f s).pending = s.pending := by
  simp only [freshNonce, ↓freeNat_pending, ↓bt_pending]

theorem seamTested_pending (e : SeamBundle × Nat) (s : State) : (seamTested s e).pending = s.pending := by
  simp only [seamTested]
  (repeat' split) <;> simp only [↓satAdd_pending, ↓setBundle_pending, ↓logOpen_pending, ↓springStop_pending, ↓upd_pending]

theorem phaseTested_pending (e : Nat × Nat) (s : State) : (phaseTested s e).pending = s.pending := by
  simp only [phaseTested, ↓setIlimEff_pending, ↓upd_pending, ↓logOpen_pending, ↓apply_ite State.pending, ite_self]

theorem trimCluster_pending (trims : List (Nat × List Nat)) (g : Nat) (s : State) :
    (trimCluster trims s g).pending = s.pending := by
  simp only [trimCluster, ↓upd_pending]

theorem springRemap_pending (f : Nat) : ∀ (n : Nat) (ts : List Nat) (s : State), (springRemap f n ts s).pending = s.pending
  | 0, _, _ => rfl
  | n + 1, ts, s => by
    unfold springRemap
    split
    · rfl
    · split
      · exact springFieldLost_pending ..
      · exact (springRemap_pending f n _ _).trans ((logOpen_pending ..).trans ((satAdd_pending ..).trans ((lifeCount_pending
        ..).trans
          ((journalAdd_pending ..).trans ((writeMap_pending _).trans ((bt_pending ..).trans ((journalAdd_pending ..).trans
            ((journalAdd_pending ..).trans ((upd_pending ..).trans (upd_pending ..))))))))))

theorem fieldTested_pending (bad : Nat → Bool) (rebuild : Bool) (f : Nat) (s : State) :
    (fieldTested bad rebuild s f).pending = s.pending := by
  unfold fieldTested
  extract_lets old m badLog retry noted failAll built m' mapped
  have h : noted.pending = s.pending := foldl_pending (fun v n => logCoded_pending ..) badLog s
  refine .trans ?_ h
  split
  · exact (springFieldLost_pending ..).trans (bt_pending ..)
  · split
    · have h' : mapped.pending = noted.pending := (writeMap_pending _).trans (bt_pending ..)
      clear_value mapped
      exact ite_pending ((logOpen_pending ..).trans ((countSlices_pending _).trans
        ((foldl_pending (fun _ _ => upd_pending ..) _ _).trans ((writeRetire_pending ..).trans h')))) h'
    · exact (springRemap_pending ..).trans (ite_pending (bt_pending ..) ((writeMap_pending _).trans (bt_pending ..)))

theorem sitesReady_pending (s : State) : (sitesReady s).pending = s.pending := by
  simp only [sitesReady, ↓restCluster_pending, ↓resetTileRegs_pending, ↓sinceKatZero_pending, ↓broadcast_pending,
    ↓linkUnfence_pending, ↓rejoinPorts_pending, ↓foldl_pending, implies_true, ↓apply_ite State.pending, ite_self]

theorem springTested_pending (trims : List (Nat × List Nat)) (phases : List (Nat × Nat)) (failed : List Nat) (s : State) :
    (springTested trims phases failed s).pending = s.pending := by
  simp only [springTested, ↓phaseTested_pending, ↓trimCluster_pending, ↓addR_pending, ↓fieldTested_pending, ↓bt_pending,
    ↓finishStep_pending, ↓sitesReady_pending, ↓foldl_pending, implies_true, ↓apply_ite State.pending, ite_self]

theorem reduceRanges_pending (rb : Nat) (s : State) : (reduceRanges rb s).pending = s.pending :=
  (reduceRanges_reports rb s).2 ▸ rfl

theorem sliceUntrained_pending (n : Nat) (s : State) : (sliceUntrained s n).pending = s.pending := by
  simp only [sliceUntrained, ↓upd_pending, ↓logCoded_pending, ↓lifeSet_pending, ↓apply_ite State.pending, ite_self]

theorem stackUntrained_pending (k : Nat) (s : State) : (stackUntrained s k).pending = s.pending := by
  simp only [stackUntrained, ↓sliceUntrained_pending, ↓writeRetire_pending, ↓foldl_pending, implies_true]

theorem channelLost_pending (n : Nat) (s : State) : (channelLost s n).pending = s.pending := by
  simp only [channelLost, ↓setSlice_pending, ↓apply_ite State.pending, ite_self]

theorem springStep_pending (x : SpringEvent) (s : State) : (springStep x s).pending = s.pending := by
  simp only [springStep]
  (repeat' split) <;> simp only [↓upd_pending, ↓finishStep_pending, ↓springFieldLost_pending, ↓seamTested_pending,
    ↓springStop_pending, ↓logOpen_pending, ↓journalRecover_pending, ↓loadMap_pending, ↓requestAdmission_pending, ↓nv_pending,
    ↓writeDevice_pending, ↓reduceRanges_pending, ↓springTested_pending, ↓stackUntrained_pending, ↓channelLost_pending,
    ↓countSlices_pending, ↓domainsHeld_pending, ↓foldl_pending, implies_true]

/-! ### Power capping and thermal control -/

theorem noteReadings_pending (x : PowerSample) (s : State) : (noteReadings x s).pending = s.pending := by
  simp only [noteReadings, ↓upd_pending, ↓foldl_pending, implies_true, ↓apply_ite State.pending, ite_self]

theorem noteActivity_pending (x : PowerSample) (g : Nat) (s : State) : (noteActivity x s g).pending = s.pending := by
  simp only [noteActivity]
  (repeat' split) <;> simp only [↓ctl_pending]

theorem updateLField_pending (f : Nat) (s : State) : (updateLField s f).pending = s.pending := by
  simp only [updateLField, ↓exemptFall_pending, ↓ctl_pending, ↓apply_ite State.pending, ite_self]

theorem updateLIlim_pending (g : Nat) (s : State) : (updateLIlim s g).pending = s.pending := by
  simp only [updateLIlim, ↓exemptFall_pending, ↓ctl_pending, ↓apply_ite State.pending, ite_self]

theorem notePower_pending (p : Nat) (s : State) : (notePower p s).pending = s.pending := by
  simp only [notePower, ↓ctl_pending, ↓apply_ite State.pending, ite_self]

theorem noteWindows_pending (target : Int) (s : State) : (noteWindows target s).pending = s.pending := by
  simp only [noteWindows, ↓upd_pending]

theorem setTherm_pending (g l : Nat) (s : State) : (setTherm g l s).pending = s.pending := by simp only [setTherm, ↓ctl_pending]

theorem fallTherm_pending (p : Nat × State) (g : Nat) : (fallTherm p g).2.pending = p.2.pending := by
  unfold fallTherm
  dsimp only
  split
  · exact setTherm_pending ..
  · rfl

theorem fallRounds_pending (on : List Nat) : ∀ (n : Nat) (p : Nat × State), (fallRounds on n p).2.pending = p.2.pending
  | 0, _ => rfl
  | n + 1, p => by
    unfold fallRounds
    dsimp only
    split
    · rfl
    · exact (fallRounds_pending on n _).trans (foldl_snd_pending (fun p g => fallTherm_pending p g) on p)

theorem applyTherm_pending (on : List Nat) (fall : Nat) (s : State) : (applyTherm on fall s).2.pending = s.pending :=
  (fallRounds_pending on 64 _).trans (foldl_pending (fun _ _ => ite_pending (setTherm_pending ..) rfl) on s)

theorem fallMw_pending (on : List Nat) (pOther : Nat) (target : Int) (cap : Nat) : ∀ (n fall : Nat) (s : State),
    (fallMw on pOther target cap n fall s).2.pending = s.pending
  | 0, _, _ => rfl
  | n + 1, fall, s => by
    unfold fallMw
    dsimp only
    split
    · exact (fallMw_pending on pOther target cap n _ _).trans (upd_pending ..)
    · rfl

theorem noteNear_pending (p : Nat) (target : Int) (s : State) : (noteNear p target s).pending = s.pending := by
  simp only [noteNear, ↓ctl_pending]

theorem noteCauses_pending (s : State) : (noteCauses s).pending = s.pending := by
  simp only [noteCauses, ↓upd_pending, ↓ctl_pending, ↓setDevState_pending, ↓apply_ite State.pending, ite_self]

theorem noteWinter_pending (s : State) : (noteWinter s).pending = s.pending := by
  simp only [noteWinter, ↓ctl_pending, ↓apply_ite State.pending, ite_self]

theorem heatSites_pending (g : Nat) (third : Bool) (s : State) : (heatSites g third s).pending = s.pending := by
  simp only [heatSites]

theorem thermalOff_pending (g : Nat) (s : State) : (thermalOff g s).pending = s.pending := by
  simp only [thermalOff, ↓ctl_pending, ↓upd_pending, ↓logCoded_pending, ↓exemptFall_pending, ↓heatSites_pending,
    ↓sitesLost_pending, ↓batchFailCluster_pending, ↓remapRequest_pending, ↓apply_ite State.pending, ite_self]

theorem noteCycle_pending (s : State) : (noteCycle s).pending = s.pending := by
  unfold noteCycle
  split <;> simp only [↓lifeMax_pending, ↓ctl_pending, ↓lifeCount_pending, ↓apply_ite State.pending, ite_self]

theorem latchTrip_pending (sensor : TempSensor) (tenths : Int) (s : State) : (latchTrip sensor tenths s).pending = s.pending := by
  simp only [latchTrip]

theorem setWinterReq_pending (v : Bool) (s : State) : (setWinterReq v s).pending = s.pending := by
  simp only [setWinterReq, ↓upd_pending, ↓winterCause_pending, ↓winterClear_pending, ↓apply_ite State.pending, ite_self]

/-! ### The supervisor's view of work -/

theorem writeStream_pending (base m k : Nat) (r : Request) (s : State) : (writeStream base m k r s).pending = s.pending := by
  simp only [writeStream, ↓hbmStore_pending, ↓foldl_pending, implies_true, ↓apply_ite State.pending, ite_self]

theorem loadPart_pending (r : Request) (m k t : Nat) (s : State) : (loadPart r m k t s).2.pending = s.pending := by
  simp only [loadPart, ↓hbmTouch_pending, ↓updTile_pending, ↓apply_ite State.pending, ite_self, ↓apply_ite Prod.snd]

theorem loadInput_pending (r : Request) (m k : Nat) (s : State) : (loadInput r m k s).2.pending = s.pending := by
  simp only [loadInput, ↓loadPart_pending, ↓foldl_snd_pending, implies_true]

theorem loadInputs_pending (b : Batch) (s : State) : (loadInputs b s).pending = s.pending := by
  unfold loadInputs
  refine foldl_pending (fun v e => ?_) _ s
  split
  · rfl
  · split
    · rfl
    · dsimp only
      split
      · exact (mk_pending ..).trans (loadInput_pending ..)
      · exact (batchDrop_pending ..).trans ((chunkFail_pending ..).trans (loadInput_pending ..))

theorem prefetchInputs_pending (m : Nat) (ids : List Nat) (s : State) : (prefetchInputs m ids s).pending = s.pending := by
  unfold prefetchInputs
  refine foldl_pending (fun v e => ?_) _ s
  split
  · rfl
  · split
    · rfl
    · dsimp only
      split
      · exact (mk_pending ..).trans (loadInput_pending ..)
      · exact loadInput_pending ..

theorem writePart_pending (r : Request) (m k t : Nat) (s : State) : (writePart r m k t s).pending = s.pending := by
  simp only [writePart, ↓readRange_pending, ↓batchDrop_pending, ↓chunkFail_pending, ↓hbmStore_pending, ↓apply_ite State.pending,
    ite_self]

theorem writeOutputs_pending (b : Batch) (s : State) : (writeOutputs b s).pending = s.pending := by
  unfold writeOutputs
  refine foldl_pending (fun v e => foldl_pending (fun w t => ?_) _ v) _ s
  split
  · exact ite_pending (writePart_pending ..) rfl
  · rfl

theorem finishChunk_pending (b : Batch) (e : Request × Nat) (s : State) : (finishChunk b s e).pending = s.pending := by
  simp only [finishChunk, ↓chunkFail_pending, ↓chunkDone_pending, ↓writeStream_pending, ↓apply_ite State.pending, ite_self]

theorem finishBatch_pending (s : State) : (finishBatch s).pending = s.pending := by
  unfold finishBatch
  split <;> simp only [↓finishChunk_pending, ↓foldl_pending, implies_true, ↓apply_ite State.pending, ite_self]

/-! ### Tile control -/

theorem asFirmware_pending (m : Master) (off width : Nat) {f : State → State} (hf : ∀ v, (f v).pending = v.pending) (s : State) :
    (asFirmware m off width f s).pending = s.pending := by
  simp only [asFirmware, ↓denied_pending, ↓apply_ite State.pending, ite_self, hf]

theorem startRun_pending (t : Nat) (s : State) : (startRun t s).pending = s.pending := by
  simp only [startRun, ↓setTileSt_pending, ↓apply_ite State.pending, ite_self]

theorem startTest_pending (t : Nat) (s : State) : (startTest t s).pending = s.pending := by
  simp only [startTest, ↓setTileSt_pending, ↓apply_ite State.pending, ite_self]

theorem endTest_pending (t : Nat) (s : State) : (endTest t s).pending = s.pending := by
  simp only [endTest, ↓setTileSt_pending, ↓apply_ite State.pending, ite_self]

theorem writeRunEn_pending (t : Nat) (v : Bool) (s : State) : (writeRunEn t v s).pending = s.pending := by
  simp only [writeRunEn, ↓upd_pending, ↓startRun_pending, ↓apply_ite State.pending, ite_self]

theorem writeHaltReq_pending (t : Nat) (v : Bool) (s : State) : (writeHaltReq t v s).pending = s.pending := by
  simp only [writeHaltReq, ↓haltReq_pending, ↓upd_pending, ↓apply_ite State.pending, ite_self]

theorem writeTestWin_pending (t : Nat) (v : Bool) (s : State) : (writeTestWin t v s).pending = s.pending := by
  simp only [writeTestWin, ↓upd_pending, ↓startTest_pending, ↓endTest_pending, ↓apply_ite State.pending, ite_self]

theorem writeFreeze_pending (t : Nat) (v : Bool) (s : State) : (writeFreeze t v s).pending = s.pending := by
  simp only [writeFreeze, ↓upd_pending]

theorem clearCounters_pending (t : Nat) (s : State) : (clearCounters t s).pending = s.pending :=
  (put_pending ..).trans ((foldl_pending (fun _ _ => upd_pending ..) (List.range 4) _).trans (mk_pending ..))

theorem tilCtrlWrite_pending (t v : Nat) (s : State) : (tilCtrlWrite t v s).pending = s.pending := by
  simp only [tilCtrlWrite, ↓writeHaltReq_pending, ↓writeFreeze_pending, ↓writeTestWin_pending, ↓writeRunEn_pending,
    ↓clearCounters_pending, ↓apply_ite State.pending, ite_self]

/-! ### Test windows and known-answer runs, digests and their comparison, weight digests, and the tile scrubber -/

theorem openTestWindow_pending (ts : List Nat) (s : State) : (openTestWindow ts s).pending = s.pending := by
  simp only [openTestWindow, ↓itg_pending, ↓writeTestWin_pending, ↓foldl_pending, implies_true, ↓apply_ite State.pending,
    ite_self]

theorem setSuspects_pending (l : List (Nat × Nat × Nat)) (s : State) : (setSuspects l s).pending = s.pending :=
  (upd_pending ..).trans ((itg_pending ..).trans ((foldl_pending (fun _ _ => upd_pending ..) _ _).trans
    (foldl_pending (fun _ _ => upd_pending ..) _ s)))

theorem endAttribution_pending (s : State) : (endAttribution s).pending = s.pending := by
  unfold endAttribution
  split <;> simp only [↓itg_pending, ↓logInteg_pending, ↓checkRemap_pending, ↓setSuspects_pending, ↓apply_ite State.pending,
    ite_self]

theorem closeTestWindow_pending (s : State) : (closeTestWindow s).pending = s.pending := by
  simp only [closeTestWindow, ↓writeTestWin_pending, ↓endAttribution_pending, ↓resetSince_pending, ↓itg_pending,
    ↓integrityFault_pending, ↓foldl_pending, implies_true]

theorem digestsEqual_pending (t p : Nat) (s : State) : (digestsEqual t p s).pending = s.pending := by
  simp only [digestsEqual, ↓setSuspects_pending, ↓apply_ite State.pending, ite_self]

theorem digestsDiffer_pending (t p : Nat) (s : State) : (digestsDiffer t p s).pending = s.pending := by
  simp only [digestsDiffer, ↓integrityFaultAs_pending, ↓itg_pending, ↓endAttribution_pending, ↓openTestWindow_pending, ↓apply_ite
    State.pending, ite_self]

theorem noteCompared_pending (base t : Nat) (s : State) : (noteCompared base t s).pending = s.pending := by
  simp only [noteCompared, ↓itg_pending, ↓satAdd_pending, ↓apply_ite State.pending, ite_self]

theorem countLate_pending (t : Nat) (s : State) : (countLate t s).pending = s.pending := by
  simp only [countLate, ↓logInteg_pending, ↓intCount_pending, ↓itg_pending]

/-! ### The load checks that a staged season image must pass -/

theorem stageChecks_pending (slot src : Nat) (s : State) : (stageChecks slot src s).2.pending = s.pending := by
  simp only [stageChecks, ↓hbmTouch_pending, ↓hbmCopy_pending, ↓apply_ite State.pending, ite_self, ↓apply_ite Prod.snd]

/-! ### The supervisor's scheduling -/

theorem addRequest_pending (r : Request) (s : State) : (addRequest r s).pending = s.pending := by simp only [addRequest]

theorem rejectRequest_pending (r : Request) (st : Nat) (s : State) : (rejectRequest r st s).pending = s.pending := by
  simp only [rejectRequest, ↓finishReq_pending, ↓addRequest_pending]

theorem acceptRequest_pending (r : Request) (s : State) : (acceptRequest r s).pending = s.pending := by
  simp only [acceptRequest, ↓addR_pending, ↓refreshReady_pending, ↓fencesDue_pending, ↓addRequest_pending]

theorem fetchOne_pending (h q : Nat) (s : State) : (fetchOne h q s).pending = s.pending := by
  simp only [fetchOne]
  (repeat' split) <;> simp only [↓hbmTouch_pending, ↓upd_pending, ↓rejectRequest_pending, ↓acceptRequest_pending]

theorem fetchUpTo_pending (h q : Nat) : ∀ (n : Nat) (s : State), (fetchUpTo h q n s).pending = s.pending
  | 0, _ => rfl
  | n + 1, _ => ite_pending ((fetchUpTo_pending h q n _).trans (fetchOne_pending ..)) rfl

theorem fetchTurn_pending (s : State) : (fetchTurn s).pending = s.pending := by
  simp only [fetchTurn]
  (repeat' split) <;> simp only [↓fetchUpTo_pending]

theorem slotCfgWrite_pending (m : Master) (off width v : Nat) (s : State) :
    (slotCfgWrite m off width v s).pending = s.pending := by
  simp only [slotCfgWrite, ↓refusedWrite_pending, ↓put_pending, ↓apply_ite State.pending, ite_self]

theorem withdraw_pending (i : Nat) (s : State) : (withdraw i s).pending = s.pending := by
  simp only [withdraw, ↓apply_ite State.pending, ite_self]

theorem setSlotImage_pending (i id detail : Nat) (s : State) : (setSlotImage i id detail s).pending = s.pending := by
  simp only [setSlotImage, ↓upd_pending]

theorem slotBusyResult_pending (i : Nat) (s : State) : (slotBusyResult i s).pending = s.pending := by
  simp only [slotBusyResult, ↓setSlotResult_pending]

theorem stage_pending (i src : Nat) (s : State) : (stage i src s).pending = s.pending := by
  simp only [stage, ↓setSlotState_pending, ↓setSlotResult_pending, ↓setSlotImage_pending, ↓withdraw_pending,
    ↓refreshReady_pending, ↓slotBusyResult_pending, ↓apply_ite State.pending, ite_self]

theorem remove_pending (i : Nat) (s : State) : (remove i s).pending = s.pending := by
  simp only [remove, ↓setSlotResult_pending, ↓setSlotState_pending, ↓setSlotImage_pending, ↓withdraw_pending,
    ↓slotBusyResult_pending, ↓apply_ite State.pending, ite_self]

theorem activate_pending (i : Nat) (s : State) : (activate i s).pending = s.pending := by
  simp only [activate, ↓setSlotResult_pending, ↓slotBusyResult_pending, ↓apply_ite State.pending, ite_self]

theorem runSeasonCmd_pending (c : SeasonCmd) (s : State) : (runSeasonCmd c s).pending = s.pending := by
  unfold runSeasonCmd
  split <;> simp only [↓stage_pending, ↓remove_pending, ↓activate_pending]

theorem seasonCmdWrite_pending (m : Master) (v : Nat) (s : State) : (seasonCmdWrite m v s).pending = s.pending := by
  simp only [seasonCmdWrite, ↓refusedWrite_pending, ↓put_pending, ↓runSeasonCmd_pending, ↓apply_ite State.pending, ite_self]

theorem beginChange_pending (i : Nat) (s : State) : (beginChange i s).pending = s.pending := by
  simp only [beginChange, ↓abandonRound_pending, ↓refuseGeometry_pending, ↓apply_ite State.pending, ite_self]

theorem chooseNext_pending (s : State) : (chooseNext s).pending = s.pending := by
  simp only [chooseNext]
  (repeat' split) <;> simp only [↓beginChange_pending, ↓withdraw_pending]

theorem overdueWindow_pending (s : State) : (overdueWindow s).pending = s.pending := by
  simp only [overdueWindow, ↓openTestWindow_pending, ↓apply_ite State.pending, ite_self]

theorem clearGraphs_pending (s : State) : (clearGraphs s).pending = s.pending := foldl_pending (fun _ _ => updTile_pending ..) _ s

theorem invalidateTasks_pending (ts : List Nat) (s : State) : (invalidateTasks ts s).pending = s.pending :=
  show QueueKept s (invalidateTasks ts s) from foldl_kept (fun v _ => foldl_kept (fun _ _ => ite_kept (put128_pending ..) rfl) _
    v) ts s

theorem runDeferred_pending (s : State) : (runDeferred s).pending = s.pending := by
  unfold runDeferred
  split <;> simp only [↓runSeasonCmd_pending]

theorem applyMode_pending (s : State) : (applyMode s).pending = s.pending := by
  simp only [applyMode, ↓upd_pending, ↓itg_pending, ↓setSuspects_pending, ↓markUnverified_pending, ↓foldl_pending, implies_true,
    ↓apply_ite State.pending, ite_self]

theorem expireModel_pending (m : Nat) (s : State) : (expireModel m s).pending = s.pending := by
  simp only [expireModel, ↓chunkFail_pending, ↓foldl_pending, implies_true]

theorem startBatch_pending (i m : Nat) (s : State) : (startBatch i m s).pending = s.pending := by
  simp only [startBatch, ↓mapReqs_pending, ↓itg_pending, ↓loadInputs_pending, ↓apply_ite State.pending, ite_self]

theorem loadFail_pending (id cause : Nat) (s : State) : (loadFail id cause s).pending = s.pending := by
  simp only [loadFail, ↓batchDrop_pending, ↓chunkFail_pending]

theorem noteLoaded_pending (id t k : Nat) (s : State) : (noteLoaded id t k s).pending = s.pending := by simp only [noteLoaded]

theorem loadGraph_pending (graphs : Nat → LayerGraph) (t n real : Nat) (s : State) :
    (loadGraph graphs t n real s).pending = s.pending := by
  simp only [loadGraph, ↓updTile_pending]

theorem selectSteps_pending (n : Nat) (s : State) : (selectSteps n s).pending = s.pending :=
  (foldl_pending (fun _ _ => updTile_pending ..) _ _).trans ((foldl_pending (fun _ _ => ite_pending
    ((itg_pending ..).trans (selectStep_pending ..)) (selectStep_pending ..)) _ _).trans (itg_pending ..))

theorem prefetch_pending (b : Batch) (s : State) : (prefetch b s).pending = s.pending := by
  unfold prefetch
  split <;> simp only [↓prefetchInputs_pending, ↓apply_ite State.pending, ite_self]

theorem startLayer_pending (b : Batch) (s : State) : (startLayer b s).pending = s.pending := by
  simp only [startLayer, ↓prefetch_pending, ↓loadGraph_pending, ↓addR_pending, ↓selectSteps_pending, ↓foldl_pending, implies_true]

theorem checkResidue_pending (s : State) : (checkResidue s).pending = s.pending :=
  foldl_pending (fun _ _ => by
    dsimp only
    split
    · exact tagFault_pending ..
    · rfl) _ s

theorem endModel_pending (b : Batch) (s : State) : (endModel b s).pending = s.pending := by
  simp only [endModel, ↓writeOutputs_pending]

theorem endEmpty_pending (s : State) : (endEmpty s).pending = s.pending := by
  unfold endEmpty
  split <;> simp only [↓apply_ite State.pending, ite_self]

theorem endLayer_pending (b : Batch) (s : State) : (endLayer b s).pending = s.pending := by
  simp only [endLayer]
  (repeat' split) <;> simp only [↓put_pending, ↓addR_pending, ↓itg_pending, ↓openTestWindow_pending, ↓endEmpty_pending,
    ↓endModel_pending, ↓finishBatch_pending]

/-! ### The owner's acts on the configuration store and on firmware slots, firmware trials, and the failure of an NVM device -/

theorem storeRead_pending (a n : Nat) (s : State) : (storeRead a n s).2.pending = s.pending := by
  simp only [storeRead, ↓hbmTouch_pending, ↓freeNat_pending, ↓apply_ite State.pending, ite_self, ↓apply_ite Prod.snd]

theorem cfgCmdWrite_pending (m : Master) (v : Nat) (s : State) : (cfgCmdWrite m v s).pending = s.pending := by
  simp only [cfgCmdWrite]
  (repeat' split) <;> simp only [↓put_pending, ↓refusedWrite_pending, ↓storeRead_pending, ↓installCfg_pending,
    ↓enrollBlob_pending, ↓selectCfg_pending]

theorem updCtrlWrite_pending (v : Nat) (s : State) : (updCtrlWrite v s).pending = s.pending := by
  simp only [updCtrlWrite, ↓upd_pending, ↓clearPermit_pending, ↓apply_ite State.pending, ite_self]

theorem arm_pending (s : State) : (arm s).pending = s.pending := by simp only [arm, ↓writeBoot_pending, ↓setFwSlot_pending]

theorem slotErased_pending (i n : Nat) (s : State) : (slotErased i n s).pending = s.pending := by
  simp only [slotErased, ↓nv_pending, ↓countErases_pending]

theorem eraseSlot_pending (i : Nat) (s : State) : (eraseSlot i s).pending = s.pending := by
  simp only [eraseSlot, ↓slotErased_pending, ↓setSlot_pending, ↓setRelease_pending, ↓setFwSlot_pending]

theorem updAct_pending (op : Nat) (s : State) : (updAct op s).pending = s.pending := by
  unfold updAct
  split <;> simp only [↓deviceReset_pending, ↓arm_pending, ↓writeBoot_pending, ↓setFwSlot_pending, ↓fallback_pending,
    ↓eraseSlot_pending, ↓endUpload_pending]

theorem updCmdWrite_pending (m : Master) (v : Nat) (s : State) : (updCmdWrite m v s).pending = s.pending := by
  simp only [updCmdWrite, ↓refusedWrite_pending, ↓upd_pending, ↓updAct_pending, ↓apply_ite State.pending, ite_self]

/-! ### Accesses to the register space -/

theorem read32_pending (off : Nat) (s : State) : (read32 s off).2.pending = s.pending := by
  simp only [read32]
  (repeat' split) <;> simp only [↓freeNat_pending]

theorem busRead_pending (m : Master) (off width : Nat) (s : State) : (busRead m off width s).2.pending = s.pending := by
  simp only [busRead, ↓logAccess_pending, ↓read32_pending, ↓apply_ite State.pending, ite_self, ↓apply_ite Prod.snd]

theorem dfCtrlWrite_pending (v : Reg) (s : State) : (dfCtrlWrite v s).pending = s.pending := by
  simp only [dfCtrlWrite, ↓put_pending]

theorem pwrLimitWrite_pending (v : Reg) (s : State) : (pwrLimitWrite v s).pending = s.pending := by
  simp only [pwrLimitWrite, ↓setWinterReq_pending, ↓upd_pending]

theorem clkCtrlWrite_pending (m : Master) (v : Reg) (s : State) : (clkCtrlWrite m v s).pending = s.pending := by
  simp only [clkCtrlWrite, ↓followTarget_pending, ↓put_pending, ↓refusedWrite_pending, ↓apply_ite State.pending, ite_self]

theorem marginWrite_pending (m : Master) (v : Reg) (s : State) : (marginWrite m v s).pending = s.pending := by
  simp only [marginWrite, ↓put_pending, ↓refusedWrite_pending, ↓apply_ite State.pending, ite_self]

theorem intCtrlWrite_pending (m : Master) (v : Reg) (s : State) : (intCtrlWrite m v s).pending = s.pending := by
  simp only [intCtrlWrite, ↓refusedWrite_pending, ↓put_pending, ↓upd_pending, ↓apply_ite State.pending, ite_self]

theorem conCtrlWrite_pending (v : Reg) (s : State) : (conCtrlWrite v s).pending = s.pending := by
  simp only [conCtrlWrite, ↓put_pending]

theorem hbmCtrlWrite_pending (m : Master) (v : Reg) (s : State) : (hbmCtrlWrite m v s).pending = s.pending := by
  simp only [hbmCtrlWrite, ↓refusedWrite_pending, ↓put_pending, ↓apply_ite State.pending, ite_self]

theorem ownCfgWrite_pending (v : Reg) (s : State) : (ownCfgWrite v s).pending = s.pending := by
  simp only [ownCfgWrite, ↓upd_pending]

theorem clCfgWrite_pending (g : Nat) (v : Reg) (s : State) : (clCfgWrite g v s).pending = s.pending := by
  simp only [clCfgWrite, ↓setIlimEff_pending, ↓put_pending]

theorem msixDataWrite_pending (h k : Nat) (v : Reg) (s : State) : (msixDataWrite h k v s).pending = s.pending := by
  simp only [msixDataWrite, ↓put_pending, ↓signalVector_pending, ↓apply_ite State.pending, ite_self]

theorem plainWrite_pending (d : RegDesc) (off : Nat) (new set : Reg) (s : State) :
    (plainWrite d off new set s).pending = s.pending := by
  simp only [plainWrite, ↓put_pending]

theorem deviceWrite_pending (m : Master) (d : RegDesc) (x : Store) (s : State) : (deviceWrite m d x s).pending = s.pending := by
  simp only [deviceWrite, ↓dfCtrlWrite_pending, ↓seasonCmdWrite_pending, ↓slotCfgWrite_pending, ↓resetCmdWrite_pending,
    ↓repairCmdWrite_pending, ↓ownCfgWrite_pending, ↓headRangeWrite_pending, ↓ownCmdWrite_pending, ↓pwrCmdWrite_pending,
    ↓pwrLimitWrite_pending, ↓clkCtrlWrite_pending, ↓marginWrite_pending, ↓epochWrite_pending, ↓intCtrlWrite_pending,
    ↓conCtrlWrite_pending, ↓hbmCtrlWrite_pending, ↓retireCmdWrite_pending, ↓updCtrlWrite_pending, ↓updCmdWrite_pending,
    ↓cfgCmdWrite_pending, ↓put_pending, ↓lifStatWrite_pending, ↓lnkNarrowWrite_pending, ↓plainWrite_pending, ↓apply_ite
    State.pending, ite_self]

theorem arrayWrite_pending (d : RegDesc) (x : Store) (s : State) : (arrayWrite d x s).pending = s.pending := by
  simp only [arrayWrite, ↓clCfgWrite_pending, ↓lnkCntClear_pending, ↓lnkCtrlWrite_pending, ↓plainWrite_pending, ↓apply_ite
    State.pending, ite_self]

theorem headWrite_pending (m : Master) (d : RegDesc) (x : Store) (s : State) : (headWrite m d x s).pending = s.pending := by
  simp only [headWrite, ↓sqCfgWrite_pending, ↓cqCfgWrite_pending, ↓ownCmdWrite_pending, ↓sqDoorbell_pending, ↓cqDoorbell_pending,
    ↓msixDataWrite_pending, ↓plainWrite_pending, ↓apply_ite State.pending, ite_self]

theorem tileWrite_pending (d : RegDesc) (x : Store) (s : State) : (tileWrite d x s).pending = s.pending := by
  simp only [tileWrite, ↓tilCtrlWrite_pending, ↓put_pending, ↓plainWrite_pending, ↓apply_ite State.pending, ite_self]

theorem storeReg_pending (m : Master) (d : RegDesc) (x : Store) (s : State) : (storeReg m d x s).pending = s.pending := by
  simp only [storeReg, ↓deviceWrite_pending, ↓arrayWrite_pending, ↓headWrite_pending, ↓tileWrite_pending, ↓apply_ite
    State.pending, ite_self]

theorem regWrite_pending (m : Master) (d : RegDesc) (x : Store) (mask : Reg) (s : State) :
    (regWrite m d x mask s).pending = s.pending :=
  ite_pending (logAccess_pending ..) (ite_pending rfl (ite_pending (asOwner_pending _ _ _ (fun _ => storeReg_pending ..) s)
    (ite_pending (storeReg_pending ..) (denied_pending ..))))

theorem write32_pending (m : Master) (off v : Nat) (s : State) : (write32 m off v s).pending = s.pending := by
  simp only [write32]
  (repeat' split) <;> simp only [↓denied_pending, ↓regWrite_pending]

theorem busWrite_pending (m : Master) (off width v : Nat) (s : State) : (busWrite m off width v s).pending = s.pending := by
  simp only [busWrite]
  (repeat' split) <;> simp only [↓logAccess_pending, ↓write32_pending, ↓regWrite_pending]

/-! ### Deadlock detection and spill -/

theorem setSearch_pending (f : Nat) (v : Option Search) (s : State) : (setSearch f v s).pending = s.pending := by
  simp only [setSearch]

theorem claimCycle_pending (f : Nat) (se : Search) (c : List (Nat × Nat × Nat × Nat)) (s : State) :
    (claimCycle f se c s).pending = s.pending := by
  simp only [claimCycle, ↓setSearch_pending, ↓sendAwaited_pending, ↓foldl_pending, implies_true, ↓apply_ite State.pending,
    ite_self]

theorem runSearch_pending (f : Nat) (s : State) : (runSearch f s).pending = s.pending := by
  simp only [runSearch]
  (repeat' split) <;> simp only [↓setSearch_pending, ↓sendAwaited_pending, ↓claimCycle_pending]

theorem deadlockFault_pending (f t u q : Nat) (unresolved : Bool) (s : State) :
    (deadlockFault f t u q unresolved s).pending = s.pending := by
  simp only [deadlockFault, ↓satAdd_pending, ↓tagFault_pending, ↓apply_ite State.pending, ite_self]

theorem spillWrite_pending (t : Nat) (r : SpillRef) (op : Nat) (s : State) : (spillWrite t r op s).pending = s.pending := by
  simp only [spillWrite, ↓hbmStore_pending, ↓updTile_pending, ↓apply_ite State.pending, ite_self]

theorem readOperand_pending (a : Nat) (s : State) : (readOperand a s).2.pending = s.pending := by
  simp only [readOperand, ↓hbmTouch_pending, ↓freeNat_pending, ↓apply_ite State.pending, ite_self, ↓apply_ite Prod.snd]

theorem spillRead_pending (t : Nat) (r : SpillRef) (s : State) : (spillRead t r s).2.2.pending = s.pending := by
  simp only [spillRead, ↓readOperand_pending, ↓readRange_pending, ↓apply_ite State.pending, ite_self, ↓apply_ite Prod.snd]

theorem openSpill_pending (f t q n : Nat) (hbm : Bool) (s : State) : (openSpill f t q n hbm s).pending = s.pending := by
  simp only [openSpill, ↓setQueue_pending, ↓spillWrite_pending, ↓satAdd_pending, ↓upd_pending, ↓logEvent_pending, ↓foldl_pending,
    implies_true, ↓apply_ite State.pending, ite_self]

/-! ### The SPDM 1 -/

theorem updConn_pending (tr : Transport) (f : SpdmConn → SpdmConn) (s : State) : (updConn tr f s).pending = s.pending := by
  simp only [updConn]

theorem spdmError_pending (code data : Nat) (s : State) : (spdmError code data s).pending = s.pending := by
  simp only [spdmError, ↓answer_pending, ↓satAdd_pending]

theorem respond_pending (tr : Transport) (code : Nat) (body : List Byte) (f : List Byte → SpdmConn → SpdmConn) (s : State) :
    (respond tr code body f s).pending = s.pending := by
  simp only [respond, ↓spdmError_pending, ↓answer_pending, ↓updConn_pending, ↓apply_ite State.pending, ite_self]

theorem spdmRequest_pending (tr : Transport) (x : SpdmReq) {f : State → State} (hf : ∀ v, (f v).pending = v.pending) (s : State) :
    (spdmRequest tr x f s).pending = s.pending := by
  have answered : (if x.version ≠ 0x12 then spdmError seVersionMismatch 0 s else f s).pending = s.pending :=
    ite_pending (spdmError_pending ..) (hf s)
  cases tr with
  | doe h => exact ite_pending answered rfl
  | svc => exact answered

theorem signTranscript_pending (msg : List Byte) (s : State) : (signTranscript msg s).2.pending = s.pending := by
  simp only [signTranscript, ↓logOpen_pending, ↓satAdd_pending]

theorem spdmNonce_pending (s : State) : (spdmNonce s).2.pending = s.pending := by simp only [spdmNonce, ↓freeNat_pending]

theorem challenge_pending (tr : Transport) (x : SpdmReq) (s : State) : (challenge tr x s).pending = s.pending := by
  simp only [challenge, ↓spdmError_pending, ↓spdmNonce_pending, ↓signTranscript_pending, ↓respond_pending, ↓apply_ite
    State.pending, ite_self]

theorem measurements_pending (tr : Transport) (x : SpdmReq) (index : Nat) (sign : Bool) (s : State) :
    (measurements tr x index sign s).pending = s.pending := by
  unfold measurements
  extract_lets shot snap
  have h : shot.pending = s.pending := updConn_pending ..
  clear_value shot
  refine .trans ?_ h
  split
  · exact spdmError_pending ..
  · exact ite_pending (spdmError_pending ..) (ite_pending (ite_pending (spdmError_pending ..)
      ((respond_pending ..).trans ((signTranscript_pending ..).trans (spdmNonce_pending _))))
      ((respond_pending ..).trans (spdmNonce_pending _)))

/-! ### The service port -/

theorem macReply_pending (key : List Byte) (type status session seq : Nat) (payload : List Byte) (s : State) :
    (macReply key type status session seq payload s).pending = s.pending := by
  simp only [macReply, ↓answer_pending]

theorem plainReply_pending (type status session seq : Nat) (payload : List Byte) (s : State) :
    (plainReply type status session seq payload s).pending = s.pending := by
  simp only [plainReply, ↓answer_pending]

theorem closeSession_pending (s : State) : (closeSession s).pending = s.pending := by
  simp only [closeSession, ↓endUpload_pending, ↓sv_pending, ↓reholder_pending, ↓upd_pending]

theorem sessionDue_pending (s : State) : (sessionDue s).pending = s.pending := by
  simp only [sessionDue, ↓closeSession_pending, ↓apply_ite State.pending, ite_self]

theorem hello_pending (x : SvcHdr) (nc : List Byte) (s : State) : (hello x nc s).pending = s.pending := by
  simp only [hello, ↓sessionDue_pending, ↓answer_pending, ↓sv_pending, ↓plainReply_pending, ↓freeNat_pending, ↓apply_ite
    State.pending, ite_self]

theorem denyOpen_pending (type : Nat) (x : SvcHdr) (s : State) : (denyOpen type x s).pending = s.pending := by
  simp only [denyOpen, ↓plainReply_pending, ↓satAdd_pending, ↓sv_pending]

theorem authFailed_pending (x : SvcHdr) (s : State) : (authFailed x s).pending = s.pending := by
  simp only [authFailed, ↓denyOpen_pending, ↓sv_pending]

theorem openSession_pending (x : SvcHdr) (h : HalfOpen) (n : Nat) (secret : List Byte) (s : State) :
    (openSession x h n secret s).pending = s.pending := by
  simp only [openSession, ↓sv_pending, ↓upd_pending, ↓macReply_pending, ↓reholder_pending, ↓satAdd_pending]

theorem cacheReply_pending (seq type status : Nat) (payload : List Byte) (s : State) :
    (cacheReply seq type status payload s).pending = s.pending := by
  simp only [cacheReply, ↓sv_pending]

theorem badMac_pending (s : State) : (badMac s).pending = s.pending := by simp only [badMac, ↓answer_pending, ↓satAdd_pending]

theorem sessionMsg_pending (type : Nat) (close : Bool) (x : SvcMsg) {f : List Byte → State → SvcResult}
    (hf : ∀ p v, (f p v).2.2.pending = v.pending) (s : State) : (sessionMsg type close x f s).pending = s.pending := by
  unfold sessionMsg
  extract_lets due heard r answered
  have h : due.pending = s.pending := sessionDue_pending s
  refine .trans ?_ h
  split
  · exact badMac_pending _
  · split
    · exact badMac_pending _
    · have h' : heard.pending = due.pending := sv_pending ..
      have h'' : answered.pending = heard.pending := hf _ _
      split
      · exact (macReply_pending ..).trans h'
      · split
        · exact (answer_pending ..).trans h'
        · exact .trans (ite_pending ((macReply_pending ..).trans (ite_pending (closeSession_pending _) (cacheReply_pending ..)))
            (ite_pending ((macReply_pending ..).trans (cacheReply_pending ..)) (answer_pending ..))) (h''.trans h')

theorem emptyRequest_pending (p : List Byte) (s : State) : (emptyRequest p s).2.2.pending = s.pending := by
  simp only [emptyRequest, ite_self, ↓apply_ite Prod.snd]

theorem readMany_pending (width : Nat) : ∀ (off n : Nat) (s : State), (readMany off width n s).2.pending = s.pending
  | _, 0, _ => rfl
  | _, n + 1, _ => (readMany_pending width _ n _).trans (busRead_pending ..)

theorem regReadRequest_pending (p : List Byte) (s : State) : (regReadRequest p s).2.2.pending = s.pending := by
  simp only [regReadRequest, ↓readMany_pending, ↓apply_ite State.pending, ite_self, ↓apply_ite Prod.snd]

theorem regWriteRequest_pending (p : List Byte) (s : State) : (regWriteRequest p s).2.2.pending = s.pending := by
  simp only [regWriteRequest, ↓busWrite_pending, ↓apply_ite State.pending, ite_self, ↓apply_ite Prod.snd]

theorem ownerRequest_pending {f : List Byte → State → SvcResult} (p : List Byte) (hf : ∀ r v, (f r v).2.2.pending = v.pending) (s
    : State) :
    (ownerRequest f p s).2.2.pending = s.pending := by
  simp only [ownerRequest, ↓settle_pending, ↓apply_ite State.pending, ite_self, ↓apply_ite Prod.snd, hf]

theorem cfgPartRequest_pending (p : List Byte) (s : State) : (cfgPartRequest p s).2.2.pending = s.pending := by
  simp only [cfgPartRequest, ↓sv_pending, ↓installCfg_pending, ↓apply_ite State.pending, ite_self, ↓apply_ite Prod.snd]

theorem enrollPartRequest_pending (p : List Byte) (s : State) : (enrollPartRequest p s).2.2.pending = s.pending := by
  simp only [enrollPartRequest, ↓enrollBlob_pending, ↓sv_pending, ↓apply_ite State.pending, ite_self, ↓apply_ite Prod.snd]

theorem cfgSelectRequest_pending (p : List Byte) (s : State) : (cfgSelectRequest p s).2.2.pending = s.pending := by
  simp only [cfgSelectRequest, ↓selectCfg_pending, ↓apply_ite State.pending, ite_self, ↓apply_ite Prod.snd]

theorem eraseOn_pending (s : State) : (eraseOn s).pending = s.pending := by
  unfold eraseOn
  split <;> simp only [↓freeNat_pending, ↓nv_pending]

theorem fwBeginRequest_pending (p : List Byte) (s : State) : (fwBeginRequest p s).2.2.pending = s.pending := by
  unfold fwBeginRequest
  dsimp only
  iterate 4
    split
    · rfl
  exact (eraseOn_pending _).trans ((upd_pending ..).trans ((upd_pending ..).trans ((setFwSlot_pending ..).trans
    ((nv_pending ..).trans (eraseSlot_pending ..)))))

theorem fwDataRequest_pending (p : List Byte) (s : State) : (fwDataRequest p s).2.2.pending = s.pending := by
  unfold fwDataRequest
  dsimp only
  split
  · rfl
  · split
    · exact eraseOn_pending s
    · iterate 3
        split
        · exact eraseOn_pending s
      split
      · exact (setSlot_pending ..).trans ((freeNat_pending ..).trans (eraseOn_pending s))
      · exact (upd_pending ..).trans ((nv_pending ..).trans ((setSlot_pending ..).trans (eraseOn_pending s)))

theorem fwEndRequest_pending (p : List Byte) (s : State) : (fwEndRequest p s).2.2.pending = s.pending := by
  unfold fwEndRequest
  split <;> simp only [↓setRelease_pending, ↓setFwSlot_pending, ↓nv_pending, ↓logCoded_pending, ↓upd_pending, ↓endUpload_pending,
    ↓apply_ite State.pending, ite_self, ↓apply_ite Prod.snd]

theorem fwAbortRequest_pending (p : List Byte) (s : State) : (fwAbortRequest p s).2.2.pending = s.pending := by
  simp only [fwAbortRequest, ↓endUpload_pending, ↓apply_ite State.pending, ite_self, ↓apply_ite Prod.snd]

theorem logReadRequest_pending (p : List Byte) (s : State) : (logReadRequest p s).2.2.pending = s.pending := by
  simp only [logReadRequest, ite_self, ↓apply_ite Prod.snd]

theorem eventAckRequest_pending (p : List Byte) (s : State) : (eventAckRequest p s).2.2.pending = s.pending := by
  simp only [eventAckRequest, ↓sv_pending, ↓apply_ite State.pending, ite_self, ↓apply_ite Prod.snd]

/-! ### What passes with time alone -/

theorem throttleStep_pending (g : Nat) (s : State) : (throttleStep s g).pending = s.pending := by
  simp only [throttleStep, ↓satAdd_pending]

theorem tick_pending (s : State) : (tick s).pending = s.pending := by
  simp only [tick, ↓powered_pending, ↓throttleStep_pending, ↓foldl_pending, implies_true]

end Sys2Proof.Machine

end

section
/-! Each command of clocks, HBM, links, remaps, lattice, passes, tag matcher and engines answers a next state and keeps the queue. -/

namespace Sys2Proof.Machine

open Sys2Proof

/-! ### Masters and ownership -/

theorem execClaim_pending (m : Master) (s : State) : ∃ u, execClaim m s = .next u ∧ u.pending = s.pending :=
  ⟨_, rfl, by simp only [↓powered_pending, ↓claim_pending, implies_true]⟩

theorem execRenew_pending (m : Master) (s : State) : ∃ u, execRenew m s = .next u ∧ u.pending = s.pending :=
  ⟨_, rfl, by simp only [↓powered_pending, ↓renew_pending, implies_true]⟩

theorem execRelease_pending (m : Master) (s : State) : ∃ u, execRelease m s = .next u ∧ u.pending = s.pending :=
  ⟨_, rfl, by simp only [↓powered_pending, ↓release_pending, implies_true]⟩

theorem execTransfer_pending (m target : Master) (s : State) : ∃ u, execTransfer m target s = .next u ∧ u.pending = s.pending :=
  ⟨_, rfl, by simp only [↓powered_pending, ↓transfer_pending, implies_true]⟩

theorem execOwnCmdReserved_pending (m : Master) (op target : Nat) (s : State) :
    ∃ u, execOwnCmdReserved m op target s = .next u ∧ u.pending = s.pending :=
  ⟨_, rfl, by simp only [↓powered_pending, ↓refusedWrite_pending, implies_true, ↓apply_ite State.pending, ite_self]⟩

theorem execLeaseLow_pending (s : State) : ∃ u, execLeaseLow s = .next u ∧ u.pending = s.pending :=
  ⟨_, rfl, powered_pending (fun _ => by dsimp only; (repeat' split) <;> simp only [↓raiseEvent_pending]) s⟩

theorem execLeaseLapse_pending (s : State) : ∃ u, execLeaseLapse s = .next u ∧ u.pending = s.pending :=
  ⟨_, rfl, by simp only [↓powered_pending, ↓lapse_pending, implies_true]⟩

theorem execClaimWindowExpire_pending (s : State) : ∃ u, execClaimWindowExpire s = .next u ∧ u.pending = s.pending :=
  ⟨_, rfl, by simp only [↓powered_pending, ↓windowDue_pending, implies_true]⟩

/-! ### Ledgers, log pages and lifetime records -/

theorem execLogPageWrite_pending (s : State) : ∃ u, execLogPageWrite s = .next u ∧ u.pending = s.pending :=
  ⟨_, rfl, by simp only [↓powered_pending, ↓logPageWrite_pending, implies_true]⟩

theorem execLifetimeWrite_pending (s : State) : ∃ u, execLifetimeWrite s = .next u ∧ u.pending = s.pending :=
  ⟨_, rfl, by simp only [↓powered_pending, ↓lifetimeWrite_pending, implies_true]⟩

theorem execLifetimePersist_pending (m : Master) (v : Nat) (s : State) :
    ∃ u, execLifetimePersist m v s = .next u ∧ u.pending = s.pending :=
  ⟨_, rfl, by simp only [↓powered_pending, ↓asOwner_pending, ↓lifStatWrite_pending, implies_true]⟩

theorem execStressTick_pending (s : State) : ∃ u, execStressTick s = .next u ∧ u.pending = s.pending :=
  ⟨_, rfl, by simp only [↓powered_pending, ↓stressCluster_pending, ↓lifeCount_pending, ↓stackDay_pending, ↓upd_pending,
    ↓lifeRefresh_pending, ↓foldl_pending, implies_true, ↓apply_ite State.pending, ite_self]⟩

/-! ### The host ports -/

theorem execSqCfgWrite_pending (m : Master) (h : Head) (q : QueueId) (half : Half) (v : Nat) (s : State) :
    ∃ u, execSqCfgWrite m h q half v s = .next u ∧ u.pending = s.pending :=
  ⟨_, rfl, by simp only [↓powered_pending, ↓asHead_pending, ↓sqCfgWrite_pending, implies_true]⟩

theorem execCqCfgWrite_pending (m : Master) (h : Head) (q : QueueId) (half : Half) (v : Nat) (s : State) :
    ∃ u, execCqCfgWrite m h q half v s = .next u ∧ u.pending = s.pending :=
  ⟨_, rfl, by simp only [↓powered_pending, ↓asHead_pending, ↓cqCfgWrite_pending, implies_true]⟩

theorem execSqDoorbell_pending (m : Master) (h : Head) (q : QueueId) (tail : Nat) (s : State) :
    ∃ u, execSqDoorbell m h q tail s = .next u ∧ u.pending = s.pending :=
  ⟨_, rfl, by simp only [↓powered_pending, ↓asHead_pending, ↓sqDoorbell_pending, implies_true]⟩

theorem execCqDoorbell_pending (m : Master) (h : Head) (q : QueueId) (head : Nat) (s : State) :
    ∃ u, execCqDoorbell m h q head s = .next u ∧ u.pending = s.pending :=
  ⟨_, rfl, by simp only [↓powered_pending, ↓asHead_pending, ↓cqDoorbell_pending, implies_true]⟩

theorem execMsixSignal_pending (h : Head) (q : QueueId) (s : State) :
    ∃ u, execMsixSignal h q s = .next u ∧ u.pending = s.pending :=
  ⟨_, rfl, by simp only [↓powered_pending, ↓signalVector_pending, ↓setUnsignalled_pending, implies_true, ↓apply_ite
    State.pending, ite_self]⟩

theorem execOwnHeadRangeWrite_pending (m : Master) (h : Head) (v : Nat) (s : State) :
    ∃ u, execOwnHeadRangeWrite m h v s = .next u ∧ u.pending = s.pending :=
  ⟨_, rfl, by simp only [↓powered_pending, ↓asOwner_pending, ↓headRangeWrite_pending, implies_true]⟩

theorem execHdmCommit_pending (h : Head) (d : Fin 4) (size skip : Nat) (s : State) :
    ∃ u, execHdmCommit h d size skip s = .next u ∧ u.pending = s.pending :=
  ⟨_, rfl, by simp only [↓powered_pending, ↓answer_pending, ↓upd_pending, implies_true, ↓apply_ite State.pending, ite_self]⟩

theorem execCxlMemRead_pending (h : Head) (dpa : Nat) (s : State) :
    ∃ u, execCxlMemRead h dpa s = .next u ∧ u.pending = s.pending :=
  ⟨_, rfl, by simp only [↓powered_pending, ↓answer_pending, ↓hbmTouch_pending, implies_true, ↓apply_ite State.pending, ite_self]⟩

theorem execCxlMemWrite_pending (h : Head) (dpa : Nat) (data : List Byte) (poison : Bool) (s : State) :
    ∃ u, execCxlMemWrite h dpa data poison s = .next u ∧ u.pending = s.pending :=
  ⟨_, rfl, by simp only [↓powered_pending, ↓answer_pending, ↓logOpen_pending, ↓hbmStore_pending, ↓setBurst_pending, implies_true,
    ↓apply_ite State.pending, ite_self]⟩

theorem execHeadLinkDown_pending (h : Head) (s : State) : ∃ u, execHeadLinkDown h s = .next u ∧ u.pending = s.pending :=
  ⟨_, rfl, by simp only [↓powered_pending, ↓headDown_pending, implies_true]⟩

theorem execHeadLinkUp_pending (h : Head) (x4 slow : Bool) (s : State) :
    ∃ u, execHeadLinkUp h x4 slow s = .next u ∧ u.pending = s.pending :=
  ⟨_, rfl, by simp only [↓powered_pending, ↓upd_pending, ↓logOpen_pending, ↓reholder_pending, implies_true, ↓apply_ite
    State.pending, ite_self]⟩

theorem execPerstAssert_pending (h : Head) (us : Nat) (s : State) :
    ∃ u, execPerstAssert h us s = .next u ∧ u.pending = s.pending :=
  ⟨_, rfl, by simp only [↓powered_pending, ↓headDown_pending, implies_true, ↓apply_ite State.pending, ite_self]⟩

theorem execPerstDeassert_pending (h : Head) (s : State) : ∃ u, execPerstDeassert h s = .next u ∧ u.pending = s.pending :=
  ⟨_, rfl, by simp only [↓powered_pending, implies_true]⟩

theorem execIdentifyMemoryDevice_pending (h : Head) (s : State) :
    ∃ u, execIdentifyMemoryDevice h s = .next u ∧ u.pending = s.pending :=
  ⟨_, rfl, powered_pending (fun _ => by simp only [↓answer_pending, ↓apply_ite State.pending, ite_self]) s⟩

theorem execGetSupportedLogs_pending (h : Head) (s : State) : ∃ u, execGetSupportedLogs h s = .next u ∧ u.pending = s.pending :=
  ⟨_, rfl, powered_pending (fun _ => by simp only [↓answer_pending, ↓apply_ite State.pending, ite_self]) s⟩

theorem execGetLog_pending (h : Head) (uuid : Nat) (s : State) : ∃ u, execGetLog h uuid s = .next u ∧ u.pending = s.pending :=
  ⟨_, rfl, powered_pending (fun _ => by simp only [↓answer_pending, ↓apply_ite State.pending, ite_self]) s⟩

theorem execGetEventRecords_pending (h : Head) (log : CxlLog) (s : State) :
    ∃ u, execGetEventRecords h log s = .next u ∧ u.pending = s.pending :=
  ⟨_, rfl, powered_pending (fun _ => by simp only [↓answer_pending, ↓apply_ite State.pending, ite_self]) s⟩

theorem execClearEventRecords_pending (h : Head) (log : CxlLog) (seqs : List Nat) (s : State) :
    ∃ u, execClearEventRecords h log seqs s = .next u ∧ u.pending = s.pending :=
  ⟨_, rfl, powered_pending (fun _ => by simp only [↓answer_pending, ↓apply_ite State.pending, ite_self]) s⟩

theorem execGetTimestamp_pending (h : Head) (s : State) : ∃ u, execGetTimestamp h s = .next u ∧ u.pending = s.pending :=
  ⟨_, rfl, powered_pending (fun _ => by simp only [↓answer_pending, ↓apply_ite State.pending, ite_self]) s⟩

theorem execGetHealthInfo_pending (h : Head) (s : State) : ∃ u, execGetHealthInfo h s = .next u ∧ u.pending = s.pending :=
  ⟨_, rfl, powered_pending (fun _ => by simp only [↓answer_pending, ↓apply_ite State.pending, ite_self]) s⟩

theorem execSetTimestamp_pending (h : Head) (_v : Nat) (s : State) :
    ∃ u, execSetTimestamp h _v s = .next u ∧ u.pending = s.pending :=
  ⟨_, rfl, powered_pending (fun _ => by simp only [↓answer_pending, ↓apply_ite State.pending, ite_self]) s⟩

theorem execMailboxUnsupported_pending (h : Head) (_opcode : Nat) (s : State) :
    ∃ u, execMailboxUnsupported h _opcode s = .next u ∧ u.pending = s.pending :=
  ⟨_, rfl, powered_pending (fun _ => by simp only [↓answer_pending, ↓apply_ite State.pending, ite_self]) s⟩

theorem execDoeDiscovery_pending (h : Head) (index : Nat) (s : State) :
    ∃ u, execDoeDiscovery h index s = .next u ∧ u.pending = s.pending :=
  ⟨_, rfl, powered_pending (fun _ => by simp only [↓answer_pending, ↓apply_ite State.pending, ite_self]) s⟩

theorem execCdatTableAccess_pending (h : Head) (entry : Nat) (s : State) :
    ∃ u, execCdatTableAccess h entry s = .next u ∧ u.pending = s.pending :=
  ⟨_, rfl, powered_pending (fun _ => by simp only [↓answer_pending, ↓apply_ite State.pending, ite_self]) s⟩

/-! ### Clocks and device time -/

theorem execPllLock_pending (p : Pll) (s : State) : ∃ u, execPllLock p s = .next u ∧ u.pending = s.pending :=
  ⟨_, rfl, powered_pending (fun _ => by split <;> simp only [↓clk_pending, ↓apply_ite State.pending, ite_self]) s⟩

theorem execPllLockLoss_pending (p : Pll) (s : State) : ∃ u, execPllLockLoss p s = .next u ∧ u.pending = s.pending :=
  ⟨_, rfl, powered_pending (fun _ => by split <;> simp only [↓deviceReset_pending, ↓clk_pending, ↓startFabricReset_pending,
    ↓logOpen_pending, ↓apply_ite State.pending, ite_self]) s⟩

theorem execPllRelockTimeout_pending (f : FieldId) (s : State) :
    ∃ u, execPllRelockTimeout f s = .next u ∧ u.pending = s.pending :=
  ⟨_, rfl, powered_pending (fun _ => by split <;> simp only [↓deviceReset_pending, ↓apply_ite State.pending, ite_self]) s⟩

theorem execCrefLoss_pending (s : State) : ∃ u, execCrefLoss s = .next u ∧ u.pending = s.pending := by
  exact ⟨_, rfl, powered_pending (fun v => (mk_pending ..).trans (deviceReset_pending .seamPll v)) s⟩

theorem execSkewRead_pending (f : FieldId) (readings : List (Fin 17 × Int)) (s : State) :
    ∃ u, execSkewRead f readings s = .next u ∧ u.pending = s.pending :=
  ⟨_, rfl, powered_pending (fun _ => by dsimp only; (repeat' split) <;> simp only [↓noteSkew_pending, ↓clk_pending,
    ↓foldl_pending, implies_true]) s⟩

theorem execMarginReport_pending (g : ClusterId) (ps : Nat) (s : State) :
    ∃ u, execMarginReport g ps s = .next u ∧ u.pending = s.pending :=
  ⟨_, rfl, powered_pending (fun _ => by dsimp only; (repeat' split) <;> simp only [↓upd_pending, ↓clk_pending, ↓raiseAdj_pending,
    ↓satAdd_pending, ↓marginDown_pending, ↓logOpen_pending]) s⟩

theorem execStepUpBegin_pending (s : State) : ∃ u, execStepUpBegin s = .next u ∧ u.pending = s.pending :=
  ⟨_, rfl, by simp only [↓powered_pending, ↓beginDividerStep_pending, ↓clk_pending, implies_true, ↓apply_ite State.pending,
    ite_self]⟩

theorem execDividerSwitch_pending (clockMw : Nat) (s : State) :
    ∃ u, execDividerSwitch clockMw s = .next u ∧ u.pending = s.pending := by
  refine ⟨_, rfl, powered_pending (fun v => ?_) s⟩
  dsimp only
  split
  · rfl
  · split
    · rfl
    · split
      · rfl
      · split
        · exact moveTs_pending ..
        · split
          · exact moveTs_pending ..
          · next charged =>
            exact (followTarget_pending _).trans ((logOpen_pending ..).trans ((clk_pending ..).trans ((mk_pending ..).trans
              ((upd_pending ..).trans ((upd_pending ..).trans ((upd_pending ..).trans (chargeSample_pending charged)))))))

theorem execVsetStep_pending (g : ClusterId) (s : State) : ∃ u, execVsetStep g s = .next u ∧ u.pending = s.pending :=
  ⟨_, rfl, by simp only [↓powered_pending, ↓chooseTs_pending, ↓upd_pending, ↓clk_pending, implies_true, ↓apply_ite State.pending,
    ite_self]⟩

theorem execSyncStrobe_pending (drifts : List Int) (s : State) : ∃ u, execSyncStrobe drifts s = .next u ∧ u.pending = s.pending :=
  ⟨_, rfl, by simp only [↓powered_pending, ↓syncField_pending, ↓ledgerSnapshot_pending, ↓foldl_pending, implies_true, ↓apply_ite
    State.pending, ite_self]⟩

theorem execEpochWrite_pending (m : Master) (half : Half) (v : Nat) (s : State) :
    ∃ u, execEpochWrite m half v s = .next u ∧ u.pending = s.pending :=
  ⟨_, rfl, by simp only [↓powered_pending, ↓asOwner_pending, ↓epochWrite_pending, implies_true]⟩

/-! ### The commands of the HBM subsystem -/

theorem execStackTempRead_pending (k : StackId) (c : Int) (ondie repeats : Nat) (s : State) :
    ∃ u, execStackTempRead k c ondie repeats s = .next u ∧ u.pending = s.pending :=
  ⟨_, rfl, by simp only [↓powered_pending, ↓notePar_pending, ↓noteOndie_pending, ↓stepRefresh_pending, ↓upd_pending,
    ↓lifeMax_pending, ↓winterCause_pending, ↓winterClear_pending, implies_true, ↓apply_ite State.pending, ite_self]⟩

theorem execHbmScrub_pending (n : SliceId) (block : Nat) (upset : List CellError) (s : State) :
    ∃ u, execHbmScrub n block upset s = .next u ∧ u.pending = s.pending :=
  ⟨_, rfl, by simp only [↓powered_pending, ↓upsetBurst_pending, ↓hbmTouch_pending, ↓foldl_pending, implies_true, ↓apply_ite
    State.pending, ite_self]⟩

theorem execHbmChannelFail_pending (n : SliceId) (exhausted : Nat) (s : State) :
    ∃ u, execHbmChannelFail n exhausted s = .next u ∧ u.pending = s.pending :=
  ⟨_, rfl, by simp only [↓powered_pending, ↓notePar_pending, ↓setSlice_pending, implies_true, ↓apply_ite State.pending, ite_self]⟩

theorem execMark_pending (m : Master) (n : Nat) (s : State) : ∃ u, execMark m n s = .next u ∧ u.pending = s.pending :=
  ⟨_, rfl, by simp only [↓powered_pending, ↓asOwner_pending, ↓retireCmdWrite_pending, implies_true]⟩

theorem execUnmark_pending (m : Master) (n : Nat) (s : State) : ∃ u, execUnmark m n s = .next u ∧ u.pending = s.pending :=
  ⟨_, rfl, by simp only [↓powered_pending, ↓asOwner_pending, ↓retireCmdWrite_pending, implies_true]⟩

theorem execRestore_pending (m : Master) (n : Nat) (s : State) : ∃ u, execRestore m n s = .next u ∧ u.pending = s.pending :=
  ⟨_, rfl, by simp only [↓powered_pending, ↓asOwner_pending, ↓retireCmdWrite_pending, implies_true]⟩

theorem execHbmMemoryTestDone_pending (failed : List SliceId) (pprRows ms : Nat) (s : State) :
    ∃ u, execHbmMemoryTestDone failed pprRows ms s = .next u ∧ u.pending = s.pending :=
  ⟨_, rfl, by simp only [↓powered_pending, ↓writeRetire_pending, ↓countSlices_pending, ↓applyTested_pending, ↓upd_pending,
    ↓foldl_pending, implies_true, ↓apply_ite State.pending, ite_self]⟩

/-! ### Commands of the chip-to-chip links -/

theorem execLinkTrainDone_pending (n : LinkId) (s : State) : ∃ u, execLinkTrainDone n s = .next u ∧ u.pending = s.pending :=
  ⟨_, rfl, by simp only [↓powered_pending, ↓setLinkSt_pending, implies_true, ↓apply_ite State.pending, ite_self]⟩

theorem execLinkTrainTimeout_pending (n : LinkId) (s : State) : ∃ u, execLinkTrainTimeout n s = .next u ∧ u.pending = s.pending :=
  ⟨_, rfl, by simp only [↓powered_pending, ↓linkDown_pending, implies_true, ↓apply_ite State.pending, ite_self]⟩

theorem execLinkAlignDone_pending (n : LinkId) (words : List Nat) (s : State) :
    ∃ u, execLinkAlignDone n words s = .next u ∧ u.pending = s.pending :=
  ⟨_, rfl, powered_pending (fun _ => by split <;> simp only [↓upd_pending, ↓enterInit_pending, ↓updLink_pending, ↓apply_ite
    State.pending, ite_self]) s⟩

theorem execLinkAlignFail_pending (n : LinkId) (s : State) : ∃ u, execLinkAlignFail n s = .next u ∧ u.pending = s.pending :=
  ⟨_, rfl, by simp only [↓powered_pending, ↓linkDown_pending, implies_true, ↓apply_ite State.pending, ite_self]⟩

theorem execInitFrameSend_pending (n : LinkId) (s : State) : ∃ u, execInitFrameSend n s = .next u ∧ u.pending = s.pending :=
  ⟨_, rfl, by simp only [↓powered_pending, ↓linkEmit_pending, ↓tryUp_pending, ↓updLink_pending, implies_true, ↓apply_ite
    State.pending, ite_self]⟩

theorem execInitFrameReceive_pending (n : LinkId) (f : Frame) (s : State) :
    ∃ u, execInitFrameReceive n f s = .next u ∧ u.pending = s.pending :=
  ⟨_, rfl, by simp only [↓powered_pending, ↓upd_pending, ↓linkDown_pending, ↓tryUp_pending, ↓updLink_pending, implies_true,
    ↓apply_ite State.pending, ite_self]⟩

theorem execLinkInitTimeout_pending (n : LinkId) (s : State) : ∃ u, execLinkInitTimeout n s = .next u ∧ u.pending = s.pending :=
  ⟨_, rfl, by simp only [↓powered_pending, ↓linkDown_pending, implies_true, ↓apply_ite State.pending, ite_self]⟩

theorem execLinkRetry_pending (n : LinkId) (s : State) : ∃ u, execLinkRetry n s = .next u ∧ u.pending = s.pending :=
  ⟨_, rfl, by simp only [↓powered_pending, ↓tryTrain_pending, implies_true, ↓apply_ite State.pending, ite_self]⟩

theorem execLinkFrameSend_pending (n : LinkId) (s : State) : ∃ u, execLinkFrameSend n s = .next u ∧ u.pending = s.pending :=
  ⟨_, rfl, by simp only [↓powered_pending, ↓linkFrameSend_pending, implies_true, ↓apply_ite State.pending, ite_self]⟩

theorem execSeqFrameReceive_pending (n : LinkId) (f : Frame) (errs : List Nat) (s : State) :
    ∃ u, execSeqFrameReceive n f errs s = .next u ∧ u.pending = s.pending :=
  ⟨_, rfl, by simp only [↓powered_pending, ↓frameArrives_pending, ↓useHeader_pending, ↓takeBody_pending, ↓updLink_pending,
    ↓wantNak_pending, implies_true, ↓apply_ite State.pending, ite_self]⟩

theorem execNullFrameReceive_pending (n : LinkId) (f : Frame) (errs : List Nat) (s : State) :
    ∃ u, execNullFrameReceive n f errs s = .next u ∧ u.pending = s.pending :=
  ⟨_, rfl, by simp only [↓powered_pending, ↓frameArrives_pending, ↓useHeader_pending, implies_true, ↓apply_ite State.pending,
    ite_self]⟩

theorem execFrameCrcFail_pending (n : LinkId) (errs : List Nat) (s : State) :
    ∃ u, execFrameCrcFail n errs s = .next u ∧ u.pending = s.pending :=
  ⟨_, rfl, by simp only [↓powered_pending, ↓crcFail_pending, ↓fecCount_pending, implies_true, ↓apply_ite State.pending, ite_self]⟩

theorem execNakResend_pending (n : LinkId) (s : State) : ∃ u, execNakResend n s = .next u ∧ u.pending = s.pending :=
  ⟨_, rfl, powered_pending (fun _ => by split <;> simp only [↓updLink_pending, ↓apply_ite State.pending, ite_self]) s⟩

theorem execLinkReplay_pending (n : LinkId) (s : State) : ∃ u, execLinkReplay n s = .next u ∧ u.pending = s.pending :=
  ⟨_, rfl, by simp only [↓powered_pending, ↓updLink_pending, ↓replayNow_pending, implies_true, ↓apply_ite State.pending,
    ite_self]⟩

theorem execLinkReplayTimeout_pending (n : LinkId) (s : State) :
    ∃ u, execLinkReplayTimeout n s = .next u ∧ u.pending = s.pending :=
  ⟨_, rfl, powered_pending (fun _ => by split <;> simp only [↓replayNow_pending, ↓apply_ite State.pending, ite_self]) s⟩

theorem execLinkSilence_pending (n : LinkId) (s : State) : ∃ u, execLinkSilence n s = .next u ∧ u.pending = s.pending :=
  ⟨_, rfl, by simp only [↓powered_pending, ↓linkDown_pending, implies_true, ↓apply_ite State.pending, ite_self]⟩

theorem execLinkUcwLimit_pending (n : LinkId) (s : State) : ∃ u, execLinkUcwLimit n s = .next u ∧ u.pending = s.pending :=
  ⟨_, rfl, by simp only [↓powered_pending, ↓linkDown_pending, implies_true, ↓apply_ite State.pending, ite_self]⟩

theorem execLinkCreditStall_pending (n : LinkId) (data : Bool) (s : State) :
    ∃ u, execLinkCreditStall n data s = .next u ∧ u.pending = s.pending :=
  ⟨_, rfl, powered_pending (fun _ => by split <;> simp only [↓linkDown_pending, ↓apply_ite State.pending, ite_self]) s⟩

theorem execLnkCtrlWrite_pending (m : Master) (n : LinkId) (v : Nat) (s : State) :
    ∃ u, execLnkCtrlWrite m n v s = .next u ∧ u.pending = s.pending :=
  ⟨_, rfl, by simp only [↓powered_pending, ↓asOwner_pending, ↓lnkCtrlWrite_pending, implies_true]⟩

theorem execLnkNarrowWrite_pending (m : Master) (i : Fin 16) (half : Half) (v : Nat) (s : State) :
    ∃ u, execLnkNarrowWrite m i half v s = .next u ∧ u.pending = s.pending :=
  ⟨_, rfl, by simp only [↓powered_pending, ↓asOwner_pending, ↓lnkNarrowWrite_pending, implies_true]⟩

theorem execLnkCntClear_pending (m : Master) (f : FieldId) (s : State) :
    ∃ u, execLnkCntClear m f s = .next u ∧ u.pending = s.pending :=
  ⟨_, rfl, by simp only [↓powered_pending, ↓asOwner_pending, ↓lnkCntClear_pending, implies_true, ↓apply_ite State.pending,
    ite_self]⟩

/-! ### Resets, standby remaps, promotions and repair commands -/

theorem execRemapTargetsReady_pending (fails : List Nat) (s : State) :
    ∃ u, execRemapTargetsReady fails s = .next u ∧ u.pending = s.pending :=
  ⟨_, rfl, powered_pending (fun _ => by split <;> simp only [↓addR_pending, ↓remapRetry_pending, ↓bt_pending, ↓apply_ite
    State.pending, ite_self]) s⟩

theorem execRemapBeginWritten_pending (s : State) : ∃ u, execRemapBeginWritten s = .next u ∧ u.pending = s.pending :=
  ⟨_, rfl, powered_pending (fun _ => by split <;> simp only [↓journalAdd_pending, ↓upd_pending, ↓bt_pending, ↓logOpen_pending,
    ↓abandonRound_pending, ↓markRemapped_pending, ↓apply_ite State.pending, ite_self]) s⟩

theorem execRemapCopyDone_pending (bad : List Nat) (s : State) : ∃ u, execRemapCopyDone bad s = .next u ∧ u.pending = s.pending :=
  ⟨_, rfl, powered_pending (fun _ => by split <;> simp only [↓remapRetry_pending, ↓bt_pending, ↓apply_ite State.pending,
    ite_self]) s⟩

theorem execRemapCommitWritten_pending (s : State) : ∃ u, execRemapCommitWritten s = .next u ∧ u.pending = s.pending :=
  ⟨_, rfl, powered_pending (fun _ => by split <;> simp only [↓journalAdd_pending, ↓bt_pending, ↓openSites_pending,
    ↓resetTileRegs_pending, ↓reloadTile_pending, ↓sinceKatZero_pending, ↓quiesceTables_pending, ↓resetChannels_pending,
    ↓logOpen_pending, ↓upd_pending, ↓foldl_pending, implies_true, ↓apply_ite State.pending, ite_self]) s⟩

theorem execRemapEndWritten_pending (s : State) : ∃ u, execRemapEndWritten s = .next u ∧ u.pending = s.pending :=
  ⟨_, rfl, powered_pending (fun _ => by split <;> simp only [↓bt_pending, ↓journalAdd_pending, ↓writeMap_pending,
    ↓satAdd_pending, ↓upd_pending, ↓startRemap_pending, ↓logOpen_pending, ↓lifeCount_pending, ↓apply_ite State.pending,
    ite_self]) s⟩

theorem execStandbyPromote_pending (f : FieldId) (katPass : Bool) (s : State) :
    ∃ u, execStandbyPromote f katPass s = .next u ∧ u.pending = s.pending :=
  ⟨_, rfl, powered_pending (fun _ => by dsimp only; (repeat' split) <;> simp only [↓addR_pending, ↓writeMap_pending, ↓bt_pending,
    ↓logCoded_pending]) s⟩

theorem execFabricReset_pending (cause : ResetCause) (failed : List Nat) (s : State) :
    ∃ u, execFabricReset cause failed s = .next u ∧ u.pending = s.pending :=
  ⟨_, rfl, by simp only [↓powered_pending, ↓startFabricReset_pending, ↓finishFabricReset_pending, implies_true, ↓apply_ite
    State.pending, ite_self]⟩

theorem execDeviceReset_pending (cause : ResetCause) (s : State) :
    ∃ u, execDeviceReset cause s = .next u ∧ u.pending = s.pending :=
  ⟨_, rfl, by simp only [↓powered_pending, ↓deviceReset_pending, implies_true]⟩

theorem execFcWatchdogExpire_pending (f : FieldId) (s : State) :
    ∃ u, execFcWatchdogExpire f s = .next u ∧ u.pending = s.pending :=
  ⟨_, rfl, by simp only [↓powered_pending, ↓startFabricReset_pending, ↓logOpen_pending, implies_true, ↓apply_ite State.pending,
    ite_self]⟩

theorem execSupWatchdogExpire_pending (s : State) : ∃ u, execSupWatchdogExpire s = .next u ∧ u.pending = s.pending :=
  ⟨_, rfl, by simp only [↓powered_pending, ↓deviceReset_pending, implies_true]⟩

theorem execResetCmdFabric_pending (m : Master) (s : State) : ∃ u, execResetCmdFabric m s = .next u ∧ u.pending = s.pending :=
  ⟨_, rfl, by simp only [↓powered_pending, ↓asOwner_pending, ↓resetCmdWrite_pending, implies_true]⟩

theorem execResetCmdDevice_pending (m : Master) (s : State) : ∃ u, execResetCmdDevice m s = .next u ∧ u.pending = s.pending :=
  ⟨_, rfl, by simp only [↓powered_pending, ↓asOwner_pending, ↓resetCmdWrite_pending, implies_true]⟩

theorem execResetCmdReserved_pending (m : Master) (s : State) : ∃ u, execResetCmdReserved m s = .next u ∧ u.pending = s.pending :=
  ⟨_, rfl, by simp only [↓powered_pending, ↓asOwner_pending, ↓resetCmdWrite_pending, implies_true]⟩

theorem execRebuild_pending (m : Master) (s : State) : ∃ u, execRebuild m s = .next u ∧ u.pending = s.pending :=
  ⟨_, rfl, by simp only [↓powered_pending, ↓asOwner_pending, ↓repairCmdWrite_pending, implies_true]⟩

theorem execRetryField_pending (m : Master) (f : Nat) (s : State) : ∃ u, execRetryField m f s = .next u ∧ u.pending = s.pending :=
  ⟨_, rfl, by simp only [↓powered_pending, ↓asOwner_pending, ↓repairCmdWrite_pending, implies_true]⟩

theorem execCancel_pending (m : Master) (s : State) : ∃ u, execCancel m s = .next u ∧ u.pending = s.pending :=
  ⟨_, rfl, by simp only [↓powered_pending, ↓asOwner_pending, ↓repairCmdWrite_pending, implies_true]⟩

/-! ### Lattice channels -/

theorem execLandingReceive_pending (t : TileId) (ch : Nat) (flips : List (Nat × Nat)) (s : State) :
    ∃ u, execLandingReceive t ch flips s = .next u ∧ u.pending = s.pending :=
  ⟨_, rfl, by simp only [↓powered_pending, ↓receiveNext_pending, implies_true]⟩

theorem execLa96Receive_pending (t : TileId) (ch : Nat) (flips : List (Nat × Nat)) (s : State) :
    ∃ u, execLa96Receive t ch flips s = .next u ∧ u.pending = s.pending :=
  ⟨_, rfl, by simp only [↓powered_pending, ↓receiveNext_pending, implies_true]⟩

theorem execChannelCredit_pending (t : TileId) (ch : Nat) (s : State) :
    ∃ u, execChannelCredit t ch s = .next u ∧ u.pending = s.pending :=
  ⟨_, rfl, by simp only [↓powered_pending, ↓setChan_pending, implies_true, ↓apply_ite State.pending, ite_self]⟩

theorem execTunnelFlush_pending (t : TileId) (ch k : Nat) (s : State) :
    ∃ u, execTunnelFlush t ch k s = .next u ∧ u.pending = s.pending :=
  ⟨_, rfl, powered_pending (fun _ => by dsimp only; (repeat' split) <;> simp only [↓injectAtPort_pending, ↓setLeg_pending]) s⟩

theorem execPktLatTunnel_pending (p : Packet) (s : State) : ∃ u, execPktLatTunnel p s = .next u ∧ u.pending = s.pending := by
  refine ⟨_, rfl, powered_pending (fun v => received_pending p (fun w => ?_) v) s⟩
  split
  · exact ignorePacket_pending ..
  · split
    · exact ignorePacket_pending ..
    · exact tunnelArrive_pending ..

theorem execPktTunnelCredit_pending (p : Packet) (s : State) :
    ∃ u, execPktTunnelCredit p s = .next u ∧ u.pending = s.pending := by
  refine ⟨_, rfl, powered_pending (fun v => received_pending p (fun w => ?_) v) s⟩
  dsimp only
  split
  · exact ignorePacket_pending ..
  · split
    · split
      · exact addCredit_pending ..
      · rfl
    · exact setChan_pending ..

/-! ### Passes -/

theorem execPassIssue_pending (t : TileId) (s : State) : ∃ u, execPassIssue t s = .next u ∧ u.pending = s.pending :=
  ⟨_, rfl, powered_pending (fun _ => by dsimp only; (repeat' split) <;> simp only [↓readRange_pending, ↓tileFault_pending,
    ↓updTile_pending]) s⟩

theorem execWeightFetch_pending (t : TileId) (s : State) : ∃ u, execWeightFetch t s = .next u ∧ u.pending = s.pending :=
  ⟨_, rfl, powered_pending (fun _ => by dsimp only; (repeat' split) <;> simp only [↓setTile_pending]) s⟩

theorem execWeightFetchDone_pending (t : TileId) (s : State) : ∃ u, execWeightFetchDone t s = .next u ∧ u.pending = s.pending :=
  ⟨_, rfl, powered_pending (fun _ => by dsimp only; (repeat' split) <;> simp only [↓readRanges_pending, ↓tileFault_pending,
    ↓noteDecFault_pending, ↓updTile_pending]) s⟩

theorem execWeightFrontStart_pending (t : TileId) (s : State) : ∃ u, execWeightFrontStart t s = .next u ∧ u.pending = s.pending :=
  ⟨_, rfl, powered_pending (fun _ => by dsimp only; (repeat' split) <;> simp only [↓upd_pending, ↓setTile_pending]) s⟩

theorem execPassComplete_pending (t : TileId) (ops : List AccOp) (s : State) :
    ∃ u, execPassComplete t ops s = .next u ∧ u.pending = s.pending :=
  ⟨_, rfl, powered_pending (fun _ => by dsimp only; (repeat' split) <;> simp only [↓integrityFault_pending, ↓updTile_pending,
    ↓tileCount1_pending, ↓freeSlots_pending, ↓emitPlain_pending]) s⟩

/-! ### The tag matcher -/

theorem execUnitFire_pending (t : TileId) (bad : List Nat) (pathBad : Bool) (s : State) :
    ∃ u, execUnitFire t bad pathBad s = .next u ∧ u.pending = s.pending :=
  ⟨_, rfl, by simp only [↓powered_pending, ↓updTile_pending, ↓matchTick_pending, ↓integrityFault_pending, ↓arraysTick_pending,
    implies_true, ↓apply_ite State.pending, ite_self]⟩

theorem execOperandArrive_pending (t : TileId) (q : Nat) (flips : List (Nat × Nat)) (s : State) :
    ∃ u, execOperandArrive t q flips s = .next u ∧ u.pending = s.pending :=
  ⟨_, rfl, powered_pending (fun _ => by dsimp only; (repeat' split) <;> simp only [↓setTile_pending, ↓deliver_pending,
    ↓latticeParity_pending]) s⟩

theorem execTagHorizonExpire_pending (t : TileId) (u : Nat) (s : State) :
    ∃ w, execTagHorizonExpire t u s = .next w ∧ w.pending = s.pending :=
  ⟨_, rfl, powered_pending (fun _ => by split <;> simp only [↓tagFault_pending, ↓apply_ite State.pending, ite_self]) s⟩

/-! ### The instructions of the stream processor, one meaning for each class of R103, and its kernels -/

theorem execKernelStart_pending (t : TileId) (s : State) : ∃ u, execKernelStart t s = .next u ∧ u.pending = s.pending :=
  ⟨_, rfl, powered_pending (fun _ => by dsimp only; (repeat' split) <;> simp only [↓setTile_pending]) s⟩

theorem execSpVectorArith_pending (t : TileId) (op : VecOp) (o : SpFields) (s : State) :
    ∃ u, execSpVectorArith t op o s = .next u ∧ u.pending = s.pending :=
  ⟨_, rfl, by simp only [↓powered_pending, ↓spCompute_pending, implies_true]⟩

theorem execSpConvert_pending (t : TileId) (op : CvtOp) (o : SpFields) (s : State) :
    ∃ u, execSpConvert t op o s = .next u ∧ u.pending = s.pending :=
  ⟨_, rfl, by simp only [↓powered_pending, ↓spCompute_pending, implies_true]⟩

theorem execSpLa96Convert_pending (t : TileId) (fmt : OutFmt) (o : SpFields) (s : State) :
    ∃ u, execSpLa96Convert t fmt o s = .next u ∧ u.pending = s.pending :=
  ⟨_, rfl, by simp only [↓powered_pending, ↓spIssue_pending, ↓spFault_pending, ↓noteConversions_pending, ↓retire_pending,
    ↓updTile_pending, implies_true, ↓apply_ite State.pending, ite_self]⟩

theorem execSpMxPack_pending (t : TileId) (fmt : MxElem) (o : SpFields) (s : State) :
    ∃ u, execSpMxPack t fmt o s = .next u ∧ u.pending = s.pending :=
  ⟨_, rfl, by simp only [↓powered_pending, ↓spIssue_pending, ↓noteSat_pending, ↓retire_pending, ↓updTile_pending, implies_true]⟩

theorem execSpMxUnpack_pending (t : TileId) (fmt : MxElem) (o : SpFields) (s : State) :
    ∃ u, execSpMxUnpack t fmt o s = .next u ∧ u.pending = s.pending :=
  ⟨_, rfl, by simp only [↓powered_pending, ↓spCompute_pending, implies_true]⟩

theorem execSpFunction_pending (t : TileId) (fn : SpFn) (o : SpFields) (s : State) :
    ∃ u, execSpFunction t fn o s = .next u ∧ u.pending = s.pending :=
  ⟨_, rfl, by simp only [↓powered_pending, ↓spCompute_pending, implies_true]⟩

theorem execSpLaneReduce_pending (t : TileId) (op : RedOp) (o : SpFields) (s : State) :
    ∃ u, execSpLaneReduce t op o s = .next u ∧ u.pending = s.pending :=
  ⟨_, rfl, by simp only [↓powered_pending, ↓spCompute_pending, implies_true]⟩

theorem execSpIntLogic_pending (t : TileId) (op : IntOp) (o : SpFields) (s : State) :
    ∃ u, execSpIntLogic t op o s = .next u ∧ u.pending = s.pending :=
  ⟨_, rfl, by simp only [↓powered_pending, ↓spCompute_pending, implies_true]⟩

theorem execSpVectorLoadStore_pending (t : TileId) (store : Bool) (mem : SpMem) (o : SpFields) (s : State) :
    ∃ u, execSpVectorLoadStore t store mem o s = .next u ∧ u.pending = s.pending :=
  ⟨_, rfl, powered_pending (fun _ => by simp only [↓spAccess_pending, ↓retire_pending, ↓spStore_pending, ↓updTile_pending,
    ↓foldl_pending, implies_true, ↓apply_ite State.pending, ite_self]) s⟩

theorem execSpLa96LoadStore_pending (t : TileId) (store : Bool) (o : SpFields) (s : State) :
    ∃ u, execSpLa96LoadStore t store o s = .next u ∧ u.pending = s.pending :=
  ⟨_, rfl, powered_pending (fun _ => by dsimp only; (repeat' split) <;> simp only [↓spIssue_pending, ↓spFault_pending,
    ↓spAccess_pending, ↓retire_pending, ↓spStore_pending, ↓updTile_pending, implies_true]) s⟩

theorem execSpScalarLoadStore_pending (t : TileId) (store : Bool) (mem : SpMem) (o : SpFields) (s : State) :
    ∃ u, execSpScalarLoadStore t store mem o s = .next u ∧ u.pending = s.pending :=
  ⟨_, rfl, by simp only [↓powered_pending, ↓spAccess_pending, ↓retire_pending, ↓spStore_pending, ↓updTile_pending, implies_true,
    ↓apply_ite State.pending, ite_self]⟩

theorem execSpAnchorRead_pending (t : TileId) (o : SpFields) (s : State) :
    ∃ u, execSpAnchorRead t o s = .next u ∧ u.pending = s.pending :=
  ⟨_, rfl, by simp only [↓powered_pending, ↓spAccess_pending, ↓retire_pending, ↓updTile_pending, implies_true]⟩

theorem execSpBranch_pending (t : TileId) (cond : BranchCond) (o : SpFields) (s : State) :
    ∃ u, execSpBranch t cond o s = .next u ∧ u.pending = s.pending :=
  ⟨_, rfl, by simp only [↓powered_pending, ↓spIssue_pending, ↓retire_pending, ↓spFault_pending, ↓tileCount1_pending,
    ↓setKernel_pending, implies_true, ↓apply_ite State.pending, ite_self]⟩

theorem execSpHwLoop_pending (t : TileId) (o : SpFields) (s : State) :
    ∃ u, execSpHwLoop t o s = .next u ∧ u.pending = s.pending :=
  ⟨_, rfl, by simp only [↓powered_pending, ↓spIssue_pending, ↓tileCount1_pending, ↓setKernel_pending, implies_true]⟩

theorem execSpMcReturn_pending (t : TileId) (s : State) : ∃ u, execSpMcReturn t s = .next u ∧ u.pending = s.pending :=
  ⟨_, rfl, powered_pending (fun _ => by split <;> simp only [↓retire_pending, ↓apply_ite State.pending, ite_self]) s⟩

theorem execSpEmit_pending (t : TileId) (o : SpFields) (s : State) : ∃ u, execSpEmit t o s = .next u ∧ u.pending = s.pending :=
  ⟨_, rfl, powered_pending (fun _ => by simp only [↓spIssue_pending, ↓spFault_pending, ↓emitNext_pending, ↓retire_pending,
    implies_true, ↓apply_ite State.pending, ite_self]) s⟩

theorem execSpWaitFlag_pending (t : TileId) (value : Bool) (o : SpFields) (s : State) :
    ∃ u, execSpWaitFlag t value o s = .next u ∧ u.pending = s.pending :=
  ⟨_, rfl, by simp only [↓powered_pending, ↓spIssue_pending, ↓retire_pending, implies_true, ↓apply_ite State.pending, ite_self]⟩

theorem execSpFence_pending (t : TileId) (s : State) : ∃ u, execSpFence t s = .next u ∧ u.pending = s.pending :=
  ⟨_, rfl, by simp only [↓powered_pending, ↓spIssue_pending, ↓retire_pending, implies_true]⟩

theorem execSpEndKernel_pending (t : TileId) (s : State) : ∃ u, execSpEndKernel t s = .next u ∧ u.pending = s.pending :=
  ⟨_, rfl, by simp only [↓powered_pending, ↓spIssue_pending, ↓tagFault_pending, ↓tileCount1_pending, ↓retire_pending,
    ↓updTile_pending, ↓freeSlots_pending, implies_true, ↓apply_ite State.pending, ite_self]⟩

theorem execSpIllegal_pending (t : TileId) (opcode : Nat) (s : State) :
    ∃ u, execSpIllegal t opcode s = .next u ∧ u.pending = s.pending :=
  ⟨_, rfl, by simp only [↓powered_pending, ↓spIssue_pending, ↓spFault_pending, implies_true]⟩

theorem execMcAbsent_pending (t : TileId) (index : Nat) (s : State) :
    ∃ u, execMcAbsent t index s = .next u ∧ u.pending = s.pending :=
  ⟨_, rfl, by simp only [↓powered_pending, ↓spIssue_pending, ↓spFault_pending, implies_true, ↓apply_ite State.pending, ite_self]⟩

theorem execLatSend_pending (t : TileId) (s : State) : ∃ u, execLatSend t s = .next u ∧ u.pending = s.pending :=
  ⟨_, rfl, powered_pending (fun _ => by dsimp only; simp only [↓spIssue_pending, ↓spFault_pending, ↓addItems_pending,
    ↓routineDone_pending, ↓sendLanding_pending, ↓readRange_pending, implies_true, ↓apply_ite State.pending, ite_self]) s⟩

theorem execBarArrive_pending (t : TileId) (s : State) : ∃ u, execBarArrive t s = .next u ∧ u.pending = s.pending :=
  ⟨_, rfl, by simp only [↓powered_pending, ↓spIssue_pending, ↓routineDone_pending, ↓sendAwaited_pending, implies_true]⟩

theorem execFlagWrite_pending (t : TileId) (s : State) : ∃ u, execFlagWrite t s = .next u ∧ u.pending = s.pending :=
  ⟨_, rfl, by simp only [↓powered_pending, ↓spIssue_pending, ↓spFault_pending, ↓routineDone_pending, ↓sendAwaited_pending,
    implies_true, ↓apply_ite State.pending, ite_self]⟩

theorem execAnchorCombine_pending (t : TileId) (s : State) : ∃ u, execAnchorCombine t s = .next u ∧ u.pending = s.pending := by
  exact ⟨_, rfl, powered_pending (fun v => show QueueKept v _ from spIssue_kept (fun k w => ite_kept (spFault_pending ..)
    (ite_kept (.after (routineDone_pending ..) (updTile_pending ..))
      (.after (emitNext_pending _ _ _ _ _ _ (fun _ _ => routineDone_pending ..) _) (updTile_pending ..))))) s⟩

/-! ### The commands of the DMA engines -/

theorem execDmaSubmit_pending (t : TileId) (s : State) : ∃ u, execDmaSubmit t s = .next u ∧ u.pending = s.pending :=
  ⟨_, rfl, by simp only [↓powered_pending, ↓spIssue_pending, ↓spFault_pending, ↓readRange_pending, ↓routineDone_pending,
    ↓setEngine_pending, implies_true, ↓apply_ite State.pending, ite_self]⟩

theorem execDmaDescStart_pending (t : TileId) (e : EngineId) (priv : Option Nat) (s : State) :
    ∃ u, execDmaDescStart t e priv s = .next u ∧ u.pending = s.pending :=
  ⟨_, rfl, powered_pending (fun _ => by dsimp only; (repeat' split) <;> simp only [↓submitSince_pending, ↓setEngine_pending,
    ↓endDesc_pending, ↓copyLocal_pending, ↓checkEnd_pending, ↓pump_pending, ↓setRun_pending]) s⟩

theorem execDmaTimeout_pending (t : TileId) (e : EngineId) (credit : Nat) (s : State) :
    ∃ u, execDmaTimeout t e credit s = .next u ∧ u.pending = s.pending :=
  ⟨_, rfl, powered_pending (fun _ => by split <;> simp only [↓satAdd_pending, ↓addR_pending, ↓setEngine_pending,
    ↓logCoded_pending, ↓creditDone_pending, ↓apply_ite State.pending, ite_self]) s⟩

theorem execNotifyResend_pending (t : TileId) (e : EngineId) (s : State) :
    ∃ u, execNotifyResend t e s = .next u ∧ u.pending = s.pending :=
  ⟨_, rfl, powered_pending (fun _ => by dsimp only; (repeat' split) <;> simp only [↓giveUpNote_pending, ↓sendNote_pending,
    ↓setEngine_pending]) s⟩

end Sys2Proof.Machine

end

section
/-! Each command of the concourse, power, tests, scheduling, stores and ports likewise, and O4. -/

namespace Sys2Proof.Machine

open Sys2Proof

/-! ### The commands of the concourse -/

theorem execRouterForward_pending (g : ClusterId) (out : RouterPort) (upset : List (Nat × Nat)) (s : State) :
    ∃ u, execRouterForward g out upset s = .next u ∧ u.pending = s.pending :=
  ⟨_, rfl, powered_pending (fun _ => by dsimp only; (repeat' split) <;> simp only [↓fillRouter_pending, ↓noteTurn_pending,
    ↓dequeue_pending, ↓discardBad_pending, ↓countRsvd_pending, ↓handOver_pending, ↓noteThrottle_pending, ↓setBuf_pending]) s⟩

theorem execCtlTimeout_pending (src txid : Nat) (s : State) : ∃ u, execCtlTimeout src txid s = .next u ∧ u.pending = s.pending :=
  ⟨_, rfl, powered_pending (fun _ => by split <;> simp only [↓awaitLost_pending]) s⟩

theorem execPktOperand_pending (p : Packet) (s : State) : ∃ u, execPktOperand p s = .next u ∧ u.pending = s.pending :=
  ⟨_, rfl, by simp only [↓powered_pending, ↓received_pending, ↓ignorePacket_pending, ↓deliver_pending, ↓send_pending,
    implies_true, ↓apply_ite State.pending, ite_self]⟩

theorem execPktAck_pending (p : Packet) (s : State) : ∃ u, execPktAck p s = .next u ∧ u.pending = s.pending := by
  refine ⟨_, rfl, powered_pending (fun v => received_pending p (fun w => ite_pending rfl (foldl_pending (fun x i => ?_) _ w)) v)
    s⟩
  dsimp only
  split
  · exact mk_pending ..
  · exact engineOr_pending p (fun _ => engineAck_pending ..) x

theorem execPktRefuse_pending (p : Packet) (s : State) : ∃ u, execPktRefuse p s = .next u ∧ u.pending = s.pending := by
  refine ⟨_, rfl, powered_pending (fun v => received_pending p (fun w => ?_) v) s⟩
  dsimp only
  split
  · rfl
  · split
    · exact awaitLost_pending ..
    · exact engineOr_pending p (fun _ => engineRefuse_pending ..) w

theorem execPktReadReqWindow_pending (p : Packet) (s : State) : ∃ u, execPktReadReqWindow p s = .next u ∧ u.pending = s.pending :=
  ⟨_, rfl, by simp only [↓powered_pending, ↓received_pending, ↓ignorePacket_pending, ↓refuseWindow_pending, ↓readRange_pending,
    ↓send_pending, implies_true, ↓apply_ite State.pending, ite_self]⟩

theorem execPktReadReqHbm_pending (p : Packet) (s : State) : ∃ u, execPktReadReqHbm p s = .next u ∧ u.pending = s.pending :=
  ⟨_, rfl, powered_pending (fun _ => by simp only [↓received_pending, ↓ignorePacket_pending, ↓failedServes_pending,
    ↓readBurst_pending, ↓send_pending, ↓failChunks_pending, ↓foldl_pending, implies_true, ↓apply_ite State.pending, ite_self]) s⟩

theorem execPktNotify_pending (p : Packet) (s : State) : ∃ u, execPktNotify p s = .next u ∧ u.pending = s.pending :=
  ⟨_, rfl, by simp only [↓powered_pending, ↓received_pending, ↓ignorePacket_pending, ↓refuseWindow_pending, ↓placeNote_pending,
    ↓send_pending, implies_true, ↓apply_ite State.pending, ite_self]⟩

theorem execPktFlagWrite_pending (p : Packet) (s : State) : ∃ u, execPktFlagWrite p s = .next u ∧ u.pending = s.pending :=
  ⟨_, rfl, by simp only [↓powered_pending, ↓received_pending, ↓ignorePacket_pending, ↓reservedPacket_pending, ↓send_pending,
    ↓setFlag_pending, implies_true, ↓apply_ite State.pending, ite_self]⟩

theorem execPktBarArrive_pending (p : Packet) (s : State) : ∃ u, execPktBarArrive p s = .next u ∧ u.pending = s.pending :=
  ⟨_, rfl, by simp only [↓powered_pending, ↓received_pending, ↓ignorePacket_pending, ↓send_pending, ↓barArrive_pending,
    implies_true, ↓apply_ite State.pending, ite_self]⟩

theorem execPktMgmt_pending (p : Packet) (s : State) : ∃ u, execPktMgmt p s = .next u ∧ u.pending = s.pending := by
  refine ⟨_, rfl, powered_pending (fun v => received_pending p (fun w => ?_) v) s⟩
  split
  · rfl
  · split
    · exact reservedPacket_pending ..
    · split
      · exact ignorePacket_pending ..
      · split
        · exact mk_pending ..
        · rfl

theorem execPktWrite_pending (p : Packet) (s : State) : ∃ u, execPktWrite p s = .next u ∧ u.pending = s.pending :=
  ⟨_, rfl, by simp only [↓powered_pending, ↓received_pending, ↓ignorePacket_pending, ↓refuseWindow_pending, ↓send_pending,
    ↓updTile_pending, implies_true, ↓apply_ite State.pending, ite_self]⟩

theorem execPktHbmWrite_pending (p : Packet) (s : State) : ∃ u, execPktHbmWrite p s = .next u ∧ u.pending = s.pending :=
  ⟨_, rfl, by simp only [↓powered_pending, ↓received_pending, ↓ignorePacket_pending, ↓failedServes_pending, ↓send_pending,
    ↓storeAnyway_pending, implies_true, ↓apply_ite State.pending, ite_self]⟩

theorem execPktReadData_pending (p : Packet) (s : State) : ∃ u, execPktReadData p s = .next u ∧ u.pending = s.pending := by
  refine ⟨_, rfl, powered_pending (fun v => received_pending p (fun w => ite_pending rfl (engineOr_pending p (fun x => ?_) w)) v)
    s⟩
  dsimp only
  split
  · split
    · exact forwardWrite_pending ..
    · exact (creditDone_pending ..).trans ((addR_pending ..).trans (updTile_pending ..))
  · exact lateAnswer_pending ..

theorem execPktPrivWrite_pending (p : Packet) (s : State) : ∃ u, execPktPrivWrite p s = .next u ∧ u.pending = s.pending := by
  refine ⟨_, rfl, powered_pending (fun v => received_pending p (fun w => ?_) v) s⟩
  dsimp only
  split
  · rfl
  · split
    · exact reservedPacket_pending ..
    · split
      · exact ignorePacket_pending ..
      · split
        · exact (send_pending ..).trans (updTile_pending ..)
        · exact send_pending ..

theorem execPktReservedOpcode_pending (p : Packet) (s : State) :
    ∃ u, execPktReservedOpcode p s = .next u ∧ u.pending = s.pending :=
  ⟨_, rfl, by simp only [↓powered_pending, ↓reservedPacket_pending, ↓take_pending, implies_true, ↓apply_ite State.pending,
    ite_self]⟩

theorem execQuiesce_pending (s : State) : ∃ u, execQuiesce s = .next u ∧ u.pending = s.pending :=
  ⟨_, rfl, by simp only [↓powered_pending, ↓quiesced_pending, implies_true, ↓apply_ite State.pending, ite_self]⟩

theorem execSeamWireMark_pending (b : SeamBundle) (wire errors : Nat) (s : State) :
    ∃ u, execSeamWireMark b wire errors s = .next u ∧ u.pending = s.pending :=
  ⟨_, rfl, powered_pending (fun _ => by split <;> simp only [↓logOpen_pending, ↓satAdd_pending, ↓setBundle_pending,
    ↓seamFail_pending, ↓apply_ite State.pending, ite_self]) s⟩

/-! ### Power delivery -/

theorem execVinHighEnter_pending (vin us : Nat) (s : State) : ∃ u, execVinHighEnter vin us s = .next u ∧ u.pending = s.pending :=
  ⟨_, rfl, by simp only [↓powered_pending, ↓noteVin_pending, ↓logOpen_pending, ↓upd_pending, implies_true, ↓apply_ite
    State.pending, ite_self]⟩

theorem execVinHighRelease_pending (vin us : Nat) (s : State) :
    ∃ u, execVinHighRelease vin us s = .next u ∧ u.pending = s.pending :=
  ⟨_, rfl, by simp only [↓powered_pending, ↓noteVin_pending, ↓upd_pending, implies_true, ↓apply_ite State.pending, ite_self]⟩

theorem execOvervoltEnter_pending (vin us : Nat) (s : State) :
    ∃ u, execOvervoltEnter vin us s = .next u ∧ u.pending = s.pending :=
  ⟨_, rfl, by simp only [↓powered_pending, ↓powerOff_pending, ↓noteVin_pending, implies_true, ↓apply_ite State.pending, ite_self]⟩

theorem execOvervoltRelease_pending (vin us : Nat) (s : State) :
    ∃ u, execOvervoltRelease vin us s = .next u ∧ u.pending = s.pending :=
  ⟨_, rfl, by simp only [↓apply_ite State.pending, ite_self]⟩

theorem execCapEnter_pending (vin us : Nat) (s : State) : ∃ u, execCapEnter vin us s = .next u ∧ u.pending = s.pending :=
  ⟨_, rfl, by simp only [↓powered_pending, ↓noteVin_pending, ↓logOpen_pending, ↓exemptFall_pending, ↓upd_pending, implies_true,
    ↓apply_ite State.pending, ite_self]⟩

theorem execCapRelease_pending (vin us : Nat) (s : State) : ∃ u, execCapRelease vin us s = .next u ∧ u.pending = s.pending :=
  ⟨_, rfl, by simp only [↓powered_pending, ↓noteVin_pending, ↓upd_pending, implies_true, ↓apply_ite State.pending, ite_self]⟩

theorem execHaltEnter_pending (vin us : Nat) (s : State) : ∃ u, execHaltEnter vin us s = .next u ∧ u.pending = s.pending :=
  ⟨_, rfl, by simp only [↓powered_pending, ↓noteVin_pending, ↓upd_pending, ↓winterCause_pending, ↓lifetimeWrite_pending,
    ↓logOpen_pending, implies_true, ↓apply_ite State.pending, ite_self]⟩

theorem execHaltRelease_pending (vin us : Nat) (s : State) : ∃ u, execHaltRelease vin us s = .next u ∧ u.pending = s.pending :=
  ⟨_, rfl, by simp only [↓powered_pending, ↓noteVin_pending, ↓winterClear_pending, ↓upd_pending, implies_true, ↓apply_ite
    State.pending, ite_self]⟩

theorem execBrownout_pending (vin us : Nat) (s : State) : ∃ u, execBrownout vin us s = .next u ∧ u.pending = s.pending := by
  refine ⟨_, rfl, ?_⟩
  split
  · exact powered_pending (fun v => noteVin_pending vin v) s
  · split
    · exact ite_pending (powerOff_pending ..) (noteVin_pending ..)
    all_goals exact mk_pending ..

theorem execBrownoutRelease_pending (vin us : Nat) (s : State) :
    ∃ u, execBrownoutRelease vin us s = .next u ∧ u.pending = s.pending :=
  ⟨_, rfl, by simp only [↓apply_ite State.pending, ite_self]⟩

theorem execInputEnBreak_pending (s : State) : ∃ u, execInputEnBreak s = .next u ∧ u.pending = s.pending := by
  refine ⟨_, rfl, ?_⟩
  split
  · exact (mk_pending ..).trans (powerOff_pending ..)
  · exact mk_pending ..

theorem execInputEnMate_pending (vin : Nat) (s : State) : ∃ u, execInputEnMate vin s = .next u ∧ u.pending = s.pending :=
  ⟨_, rfl, by simp only [↓noteVin_pending, ↓apply_ite State.pending, ite_self]⟩

theorem execVinQualify_pending (vin us cap : Nat) (s : State) :
    ∃ u, execVinQualify vin us cap s = .next u ∧ u.pending = s.pending :=
  ⟨_, rfl, by simp only [↓apply_ite State.pending, ite_self]⟩

theorem execSupplyInRegulation_pending (rail : Supply) (s : State) :
    ∃ u, execSupplyInRegulation rail s = .next u ∧ u.pending = s.pending :=
  ⟨_, rfl, by simp only [↓apply_ite State.pending, ite_self]⟩

theorem execPowerOnReset_pending (s : State) : ∃ u, execPowerOnReset s = .next u ∧ u.pending = s.pending := by
  refine ⟨_, rfl, ?_⟩
  split
  · exact powerOnReset_pending s
  · exact ite_pending (powerOnReset_pending s) rfl

theorem execShutdown_pending (m : Master) (s : State) : ∃ u, execShutdown m s = .next u ∧ u.pending = s.pending :=
  ⟨_, rfl, by simp only [↓powered_pending, ↓asOwner_pending, ↓pwrCmdWrite_pending, implies_true]⟩

theorem execPwrCmdReserved_pending (m : Master) (op : Nat) (s : State) :
    ∃ u, execPwrCmdReserved m op s = .next u ∧ u.pending = s.pending :=
  ⟨_, rfl, by simp only [↓powered_pending, ↓asOwner_pending, ↓pwrCmdWrite_pending, implies_true, ↓apply_ite State.pending,
    ite_self]⟩

theorem execIbcFail_pending (f : FieldId) (c : Fin 3) (s : State) : ∃ u, execIbcFail f c s = .next u ∧ u.pending = s.pending :=
  ⟨_, rfl, by simp only [↓powered_pending, ↓upd_pending, ↓logOpen_pending, ↓fieldLoss_pending, implies_true, ↓apply_ite
    State.pending, ite_self]⟩

theorem execSenseFault_pending (f : FieldId) (mv us : Nat) (s : State) :
    ∃ u, execSenseFault f mv us s = .next u ∧ u.pending = s.pending :=
  ⟨_, rfl, by simp only [↓powered_pending, ↓logOpen_pending, ↓upd_pending, implies_true, ↓apply_ite State.pending, ite_self]⟩

theorem execFieldLoss_pending (f : FieldId) (cause : Nat) (s : State) :
    ∃ u, execFieldLoss f cause s = .next u ∧ u.pending = s.pending :=
  ⟨_, rfl, by simp only [↓powered_pending, ↓fieldLoss_pending, implies_true, ↓apply_ite State.pending, ite_self]⟩

theorem execPhaseFail_pending (g : ClusterId) (phase : Fin 8) (s : State) :
    ∃ u, execPhaseFail g phase s = .next u ∧ u.pending = s.pending :=
  ⟨_, rfl, by simp only [↓powered_pending, ↓upd_pending, ↓setIlimEff_pending, ↓logOpen_pending, ↓clusterDark_pending,
    implies_true, ↓apply_ite State.pending, ite_self]⟩

theorem execShortTrip_pending (g : ClusterId) (input : Bool) (s : State) :
    ∃ u, execShortTrip g input s = .next u ∧ u.pending = s.pending :=
  ⟨_, rfl, by simp only [↓powered_pending, ↓clusterDark_pending, ↓undoHeat_pending, ↓upd_pending, implies_true, ↓apply_ite
    State.pending, ite_self]⟩

theorem execAdmissionGrant_pending (g : ClusterId) (s : State) : ∃ u, execAdmissionGrant g s = .next u ∧ u.pending = s.pending :=
  ⟨_, rfl, by simp only [↓powered_pending, ↓admitCluster_pending, implies_true, ↓apply_ite State.pending, ite_self]⟩

theorem execAdmissionForced_pending (g : ClusterId) (s : State) :
    ∃ u, execAdmissionForced g s = .next u ∧ u.pending = s.pending :=
  ⟨_, rfl, by simp only [↓powered_pending, ↓logOpen_pending, ↓satAdd_pending, ↓admitCluster_pending, implies_true, ↓apply_ite
    State.pending, ite_self]⟩

theorem execSoftStartDone_pending (g : ClusterId) (s : State) : ∃ u, execSoftStartDone g s = .next u ∧ u.pending = s.pending :=
  ⟨_, rfl, by simp only [↓powered_pending, ↓clusterOn_pending, implies_true, ↓apply_ite State.pending, ite_self]⟩

theorem execClusterRampDownDone_pending (g : ClusterId) (s : State) :
    ∃ u, execClusterRampDownDone g s = .next u ∧ u.pending = s.pending :=
  ⟨_, rfl, by simp only [↓powered_pending, ↓upd_pending, implies_true, ↓apply_ite State.pending, ite_self]⟩

theorem execAuxConverterFault_pending (b : Bool) (s : State) : ∃ u, execAuxConverterFault b s = .next u ∧ u.pending = s.pending :=
  ⟨_, rfl, by simp only [↓powered_pending, ↓upd_pending, ↓powerOff_pending, ↓logOpen_pending, implies_true, ↓apply_ite
    State.pending, ite_self]⟩

theorem execAuxRailFault_pending (rail : AuxRail) (s : State) : ∃ u, execAuxRailFault rail s = .next u ∧ u.pending = s.pending :=
  ⟨_, rfl, by simp only [↓powered_pending, ↓springStop_pending, ↓domainsHeld_pending, ↓powerOnReset_pending, implies_true,
    ↓apply_ite State.pending, ite_self]⟩

theorem execHostRailFault_pending (h : Head) (s : State) : ∃ u, execHostRailFault h s = .next u ∧ u.pending = s.pending :=
  ⟨_, rfl, by simp only [↓powered_pending, ↓upd_pending, ↓headDown_pending, ↓logOpen_pending, implies_true, ↓apply_ite
    State.pending, ite_self]⟩

/-! ### Bring-up from the supervisor's release to SUMMER -/

theorem execBootRomStart_pending (flips : List NvmFlip) (s : State) :
    ∃ u, execBootRomStart flips s = .next u ∧ u.pending = s.pending :=
  ⟨_, rfl, by simp only [↓powered_pending, ↓finishStep_pending, ↓chooseSlot_pending, ↓checkKeys_pending, ↓startLinks_pending,
    ↓openWindow_pending, ↓configSelect_pending, ↓readStore_pending, implies_true, ↓apply_ite State.pending, ite_self]⟩

theorem execSupervisorFirmwareStart_pending (flips : List NvmFlip) (s : State) :
    ∃ u, execSupervisorFirmwareStart flips s = .next u ∧ u.pending = s.pending :=
  ⟨_, rfl, powered_pending (fun _ => by split <;> simp only [↓readRecords_pending, ↓logOpen_pending, ↓journalRecover_pending,
    ↓lostFieldsOff_pending, ↓loadSlices_pending, ↓logBoot_pending, ↓bt_pending, ↓lifeCount_pending, ↓finishStep_pending,
    ↓lifetimeWrite_pending, ↓writeDevice_pending, ↓springStop_pending, ↓apply_ite State.pending, ite_self]) s⟩

theorem execFieldControllerBoot_pending (f : FieldId) (s : State) :
    ∃ u, execFieldControllerBoot f s = .next u ∧ u.pending = s.pending :=
  ⟨_, rfl, powered_pending (fun _ => by split <;> simp only [↓freshNonce_pending, ↓bt_pending, ↓springFieldLost_pending,
    ↓fieldLoss_pending, ↓apply_ite State.pending, ite_self]) s⟩

theorem execFieldQuoteReceive_pending (f : FieldId) (quote : List Byte) (s : State) :
    ∃ u, execFieldQuoteReceive f quote s = .next u ∧ u.pending = s.pending :=
  ⟨_, rfl, by simp only [↓powered_pending, ↓bt_pending, ↓upd_pending, ↓logOpen_pending, ↓dropQuote_pending, implies_true,
    ↓apply_ite State.pending, ite_self]⟩

theorem execSpringStep_pending (x : SpringEvent) (s : State) : ∃ u, execSpringStep x s = .next u ∧ u.pending = s.pending :=
  ⟨_, rfl, by simp only [↓powered_pending, ↓springStep_pending, implies_true]⟩

theorem execSpringDone_pending (s : State) : ∃ u, execSpringDone s = .next u ∧ u.pending = s.pending := by
  exact ⟨_, rfl, powered_pending (fun v => show QueueKept v _ from ite_kept (.after (setDevState_pending ..) (.after (upd_pending
    ..)
    (.after (finishStep_pending ..) (reduceRanges_pending ..)))) rfl) s⟩

/-! ### Power capping and thermal control -/

theorem execControlSample_pending (x : PowerSample) (s : State) :
    ∃ u, execControlSample x s = .next u ∧ u.pending = s.pending := by
  refine ⟨_, rfl, powered_pending (fun v => ?_) s⟩
  extract_lets p noted on active limited target pOther cap th above mw fallen raised turn held fl0 fl gr starved granted slowed
    ms set
  have h1 : QueueKept v noted := .after (notePower_pending ..) (noteReadings_pending ..)
  have h2 : QueueKept noted active := foldl_kept (fun w g => noteActivity_pending x g w) on noted
  have h3 : QueueKept active limited := .after (foldl_kept (fun w g => updateLIlim_pending g w) on _)
    (foldl_kept (fun w f => updateLField_pending f w) _ active)
  have h4 : QueueKept limited fallen := by
    have therm : th.2.pending = limited.pending := applyTherm_pending on 50000 limited
    unfold fallen mw
    split
    · exact (fallMw_pending ..).trans therm
    · exact therm
  have h5 : QueueKept fallen raised := ite_kept (upd_pending ..) rfl
  have h6 : QueueKept raised granted := ctl_pending ..
  have h7 : QueueKept granted slowed := ite_kept (satAdd_pending ..) rfl
  have h8 : QueueKept slowed set := ctl_pending ..
  clear_value set
  exact ((((((((h1.trans h2).trans h3).trans h4).trans h5).trans h6).trans h7).trans h8).trans (.after (chooseTs_pending _)
    (.after (noteWinter_pending _) (.after (noteCauses_pending _) (.after (noteNear_pending ..) (noteWindows_pending ..))))))

theorem execAutumnExit_pending (s : State) : ∃ u, execAutumnExit s = .next u ∧ u.pending = s.pending :=
  ⟨_, rfl, powered_pending (fun _ => by split <;> simp only [↓setDevState_pending, ↓apply_ite State.pending, ite_self]) s⟩

theorem execFrameStart_pending (g : ClusterId) (s : State) : ∃ u, execFrameStart g s = .next u ∧ u.pending = s.pending := by
  exact ⟨_, rfl, powered_pending (fun v => show QueueKept v _ from ite_kept rfl (.after
    (ite_kept (.after (ite_kept (satAdd_pending ..) rfl) (ctl_pending ..)) rfl)
    (foldl_kept (fun w t => .after (updTile_pending ..) (.after (upd_pending ..) (upd_pending ..))) _ v))) s⟩

theorem execThermalUpdate_pending (s : State) : ∃ u, execThermalUpdate s = .next u ∧ u.pending = s.pending := by
  exact ⟨_, rfl, powered_pending (fun v => show QueueKept v _ from
    foldl_kept (fun w g => .after (upd_pending ..) (upd_pending ..)) (List.range 240) v) s⟩

theorem execTempSample_pending (sensor : TempSensor) (tenths : Int) (s : State) :
    ∃ u, execTempSample sensor tenths s = .next u ∧ u.pending = s.pending :=
  ⟨_, rfl, powered_pending (fun _ => by dsimp only; (repeat' split) <;> simp only [↓ctl_pending, ↓upd_pending,
    ↓noteCycle_pending, ↓thermalOff_pending]) s⟩

theorem execCoolingReturn_pending (g : ClusterId) (s : State) : ∃ u, execCoolingReturn g s = .next u ∧ u.pending = s.pending :=
  ⟨_, rfl, powered_pending (fun _ => by split <;> simp only [↓upd_pending, ↓apply_ite State.pending, ite_self]) s⟩

theorem execDieTrip_pending (sensor : TempSensor) (before tenths : Int) (s : State) :
    ∃ u, execDieTrip sensor before tenths s = .next u ∧ u.pending = s.pending := by
  refine ⟨_, rfl, ?_⟩
  split
  · rfl
  · split
    · exact (latchTrip_pending ..).trans (powerOff_pending ..)
    · exact latchTrip_pending ..
    · rfl

theorem execCoolantSample_pending (tin tout : Int) (s : State) :
    ∃ u, execCoolantSample tin tout s = .next u ∧ u.pending = s.pending :=
  ⟨_, rfl, by simp only [↓powered_pending, ↓ctl_pending, ↓upd_pending, ↓lifeMax_pending, ↓logOpen_pending, ↓winterCause_pending,
    ↓winterClear_pending, implies_true, ↓apply_ite State.pending, ite_self]⟩

theorem execWinterRequest_pending (m : Master) (v : Bool) (s : State) :
    ∃ u, execWinterRequest m v s = .next u ∧ u.pending = s.pending :=
  ⟨_, rfl, by simp only [↓powered_pending, ↓asOwner_pending, ↓setWinterReq_pending, implies_true]⟩

theorem execWinterEnter_pending (s : State) : ∃ u, execWinterEnter s = .next u ∧ u.pending = s.pending :=
  ⟨_, rfl, powered_pending (fun _ => by split <;> simp only [↓ctl_pending, ↓quiesced_pending, ↓setDevState_pending,
    ↓computeReset_pending, ↓apply_ite State.pending, ite_self]) s⟩

theorem execWinterExit_pending (failed : List Nat) (s : State) :
    ∃ u, execWinterExit failed s = .next u ∧ u.pending = s.pending := by
  refine ⟨_, rfl, powered_pending (fun v => ?_) s⟩
  dsimp only
  split
  · rfl
  · exact show QueueKept v _ from ite_kept (ite_kept
      (.after (foldl_kept (fun w g => requestAdmission_pending g w) _ _) (ctl_pending ..))
      (ite_kept (.after (reloadSeason_pending _) (.after (katAll_pending ..) (.after (setDevState_pending ..)
        (.after (foldl_kept (fun w g => ctl_pending ..) _ _) (ctl_pending ..))))) rfl)) rfl

/-! ### Tile control -/

theorem execTilRunEn_pending (m : Master) (t : TileId) (v : Bool) (s : State) :
    ∃ u, execTilRunEn m t v s = .next u ∧ u.pending = s.pending :=
  ⟨_, rfl, by simp only [↓powered_pending, ↓asFirmware_pending, ↓writeRunEn_pending, implies_true]⟩

theorem execTilHaltReq_pending (m : Master) (t : TileId) (v : Bool) (s : State) :
    ∃ u, execTilHaltReq m t v s = .next u ∧ u.pending = s.pending :=
  ⟨_, rfl, by simp only [↓powered_pending, ↓asFirmware_pending, ↓writeHaltReq_pending, implies_true]⟩

theorem execTilTestWin_pending (m : Master) (t : TileId) (v : Bool) (s : State) :
    ∃ u, execTilTestWin m t v s = .next u ∧ u.pending = s.pending :=
  ⟨_, rfl, by simp only [↓powered_pending, ↓asFirmware_pending, ↓writeTestWin_pending, implies_true]⟩

theorem execTilCntFreeze_pending (m : Master) (t : TileId) (v : Bool) (s : State) :
    ∃ u, execTilCntFreeze m t v s = .next u ∧ u.pending = s.pending :=
  ⟨_, rfl, by simp only [↓powered_pending, ↓asFirmware_pending, ↓writeFreeze_pending, implies_true]⟩

theorem execTilCntClear_pending (m : Master) (t : TileId) (s : State) :
    ∃ u, execTilCntClear m t s = .next u ∧ u.pending = s.pending :=
  ⟨_, rfl, by simp only [↓powered_pending, ↓asFirmware_pending, ↓clearCounters_pending, implies_true]⟩

theorem execTileDrainDone_pending (t : TileId) (s : State) : ∃ u, execTileDrainDone t s = .next u ∧ u.pending = s.pending :=
  ⟨_, rfl, by simp only [↓powered_pending, ↓setTileSt_pending, implies_true, ↓apply_ite State.pending, ite_self]⟩

theorem execTilFaultClear_pending (m : Master) (t : TileId) (s : State) :
    ∃ u, execTilFaultClear m t s = .next u ∧ u.pending = s.pending := by
  exact ⟨_, rfl, powered_pending (fun v => asFirmware_pending m _ 32 (fun w => put_pending (tilFault t) 0 w) v) s⟩

theorem execTilDfFaultClear_pending (m : Master) (t : TileId) (s : State) :
    ∃ u, execTilDfFaultClear m t s = .next u ∧ u.pending = s.pending := by
  exact ⟨_, rfl, powered_pending (fun v => asFirmware_pending m _ 64 (fun w => put_pending (tilDfFault t) 0 w) v) s⟩

theorem execTileReset_pending (t : TileId) (s : State) : ∃ u, execTileReset t s = .next u ∧ u.pending = s.pending :=
  ⟨_, rfl, by simp only [↓powered_pending, ↓tileReset_pending, ↓writeTestWin_pending, implies_true, ↓apply_ite State.pending,
    ite_self]⟩

/-! ### Test windows and known-answer runs, digests and their comparison, weight digests, and the tile scrubber -/

theorem execKatRun_pending (t : TileId) (differs : Bool) (s : State) :
    ∃ u, execKatRun t differs s = .next u ∧ u.pending = s.pending :=
  ⟨_, rfl, by simp only [↓powered_pending, ↓intCount_pending, ↓microRetired_pending, ↓itg_pending, ↓integrityFault_pending,
    ↓resetSince_pending, implies_true, ↓apply_ite State.pending, ite_self]⟩

theorem execTestWindowClose_pending (elapsedNs : Nat) (s : State) :
    ∃ u, execTestWindowClose elapsedNs s = .next u ∧ u.pending = s.pending :=
  ⟨_, rfl, by simp only [↓powered_pending, ↓closeTestWindow_pending, implies_true, ↓apply_ite State.pending, ite_self]⟩

theorem execDigest64_pending (t : TileId) (shadow : Bool) (s : State) :
    ∃ u, execDigest64 t shadow s = .next u ∧ u.pending = s.pending :=
  ⟨_, rfl, by simp only [↓powered_pending, ↓microRetired_pending, ↓itg_pending, implies_true, ↓apply_ite State.pending, ite_self]⟩

theorem execDigestArrive_pending (t : TileId) (s : State) : ∃ u, execDigestArrive t s = .next u ∧ u.pending = s.pending :=
  ⟨_, rfl, powered_pending (fun _ => by dsimp only; (repeat' split) <;> simp only [↓itg_pending, ↓intCount_pending,
    ↓finishBatch_pending, ↓digestsEqual_pending, ↓digestsDiffer_pending]) s⟩

theorem execDigestTimeout_pending (t : TileId) (s : State) : ∃ u, execDigestTimeout t s = .next u ∧ u.pending = s.pending :=
  ⟨_, rfl, powered_pending (fun _ => by split <;> simp only [↓logInteg_pending, ↓intCount_pending, ↓itg_pending,
    ↓batchFail_pending, ↓apply_ite State.pending, ite_self]) s⟩

theorem execWdigest_pending (t : TileId) (range : Nat) (s : State) :
    ∃ u, execWdigest t range s = .next u ∧ u.pending = s.pending :=
  ⟨_, rfl, powered_pending (fun _ => by dsimp only; (repeat' split) <;> simp only [↓readRange_pending, ↓microRetired_pending,
    ↓itg_pending, ↓noteCompared_pending, ↓integrityFaultAs_pending]) s⟩

theorem execWdigestRoundStart_pending (s : State) : ∃ u, execWdigestRoundStart s = .next u ∧ u.pending = s.pending :=
  ⟨_, rfl, powered_pending (fun _ => by split <;> simp only [↓countLate_pending, ↓itg_pending, ↓foldl_pending, implies_true,
    ↓apply_ite State.pending, ite_self]) s⟩

theorem execWdigLate_pending (t : TileId) (s : State) : ∃ u, execWdigLate t s = .next u ∧ u.pending = s.pending :=
  ⟨_, rfl, powered_pending (fun _ => by split <;> simp only [↓countLate_pending, ↓apply_ite State.pending, ite_self]) s⟩

theorem execTileSramScrub_pending (t : TileId) (mem : TileMem) (word : Nat) (upset : List WordError) (s : State) :
    ∃ u, execTileSramScrub t mem word upset s = .next u ∧ u.pending = s.pending := by
  refine ⟨_, rfl, powered_pending (fun v => ?_) s⟩
  extract_lets k struck e counted
  have h : QueueKept v struck := ite_kept rfl (foldl_kept (fun w e => updTile_pending ..) upset v)
  clear_value struck
  exact show QueueKept v _ from h.trans (ite_kept rfl (ite_kept (correctWords_pending ..) (.after (ite_kept (itg_pending ..)
    (ite_kept (integrityFault_pending ..) (logInteg_pending ..))) (intCount_pending ..))))

/-! ### The supervisor's scheduling -/

theorem execDescriptorFetch_pending (s : State) : ∃ u, execDescriptorFetch s = .next u ∧ u.pending = s.pending :=
  ⟨_, rfl, by simp only [↓powered_pending, ↓fetchTurn_pending, implies_true, ↓apply_ite State.pending, ite_self]⟩

theorem execDeadlineExpire_pending (r : Nat) (s : State) : ∃ u, execDeadlineExpire r s = .next u ∧ u.pending = s.pending :=
  ⟨_, rfl, powered_pending (fun _ => by split <;> simp only [↓chunkFail_pending, ↓apply_ite State.pending, ite_self]) s⟩

theorem execCompletionWrite_pending (r : Nat) (s : State) : ∃ u, execCompletionWrite r s = .next u ∧ u.pending = s.pending :=
  ⟨_, rfl, powered_pending (fun _ => by dsimp only; (repeat' split) <;> simp only [↓finishBatch_pending, ↓produce_pending]) s⟩

theorem powered_kept {f : State → State} (hf : ∀ v, QueueKept v (f v)) (s : State) :
    QueueKept s (powered f s) := powered_pending hf s

theorem asOwner_kept {f : State → State} (hf : ∀ v, QueueKept v (f v)) (m : Master) (off width : Nat) (s : State) :
    QueueKept s (asOwner m off width f s) := asOwner_pending m off width hf s

theorem execSlotCfgWrite_pending (m : Master) (half : Half) (v : Nat) (s : State) :
    ∃ u, execSlotCfgWrite m half v s = .next u ∧ u.pending = s.pending := by
  exact ⟨_, rfl, powered_kept (fun w => asOwner_kept (fun x => .of (slotCfgWrite_pending ..)) m _ _ w) s⟩

theorem execStage_pending (m : Master) (slot : SlotId) (src : Nat) (s : State) :
    ∃ u, execStage m slot src s = .next u ∧ u.pending = s.pending :=
  ⟨_, rfl, by simp only [↓powered_pending, ↓asOwner_pending, ↓seasonCmdWrite_pending, implies_true]⟩

theorem execRemove_pending (m : Master) (slot : SlotId) (src : Nat) (s : State) :
    ∃ u, execRemove m slot src s = .next u ∧ u.pending = s.pending :=
  ⟨_, rfl, by simp only [↓powered_pending, ↓asOwner_pending, ↓seasonCmdWrite_pending, implies_true]⟩

theorem execActivate_pending (m : Master) (slot : SlotId) (src : Nat) (s : State) :
    ∃ u, execActivate m slot src s = .next u ∧ u.pending = s.pending :=
  ⟨_, rfl, by simp only [↓powered_pending, ↓asOwner_pending, ↓seasonCmdWrite_pending, implies_true]⟩

theorem execStageDone_pending (slot : SlotId) (s : State) : ∃ u, execStageDone slot s = .next u ∧ u.pending = s.pending :=
  ⟨_, rfl, by simp only [↓powered_pending, ↓stageChecks_pending, ↓setSlotImage_pending, ↓setSlotResult_pending,
    ↓refreshReady_pending, ↓setSlotState_pending, ↓seasonLost_pending, implies_true, ↓apply_ite State.pending, ite_self]⟩

theorem execSwitchPoint_pending (s : State) : ∃ u, execSwitchPoint s = .next u ∧ u.pending = s.pending :=
  ⟨_, rfl, powered_pending (fun _ => by dsimp only; (repeat' split) <;> simp only [↓finishBatch_pending, ↓chooseNext_pending,
    ↓overdueWindow_pending]) s⟩

theorem tilesDrained_kept (ts : List Nat) (s : State) :
    QueueKept s (quiesced (clearGraphs (invalidateTasks ts (closeWindows ts s)))) :=
  .after (.of (quiesced_pending _)) (.after (.of (clearGraphs_pending _)) (.after (.of (invalidateTasks_pending ..))
    (.of (closeWindows_pending ..))))

theorem loadingBegun_kept (i : Nat) (l : List Nat) (x : ReqState) (s : State) :
    QueueKept s (openTestWindow l { refreshReady (setSlotState i ssActivating s) with req := x }) :=
  .after (.of (openTestWindow_pending ..)) (.after (.of (mk_pending ..)) (.after (.of (refreshReady_pending _)) (.of
    (setSlotState_pending ..))))

theorem execSeasonDrainDone_pending (s : State) : ∃ u, execSeasonDrainDone s = .next u ∧ u.pending = s.pending := by
  refine ⟨_, rfl, powered_kept (fun v => ?_) s⟩
  split
  · next i _ =>
    refine ite_kept (.of rfl) (ite_kept (.after (.of (runDeferred_pending _)) (.after (.of (refuseGeometry_pending ..)) (.of
      (mk_pending ..)))) ?_)
    dsimp only
    split
    · exact (tilesDrained_kept (List.range 768) v).trans (.trans (.of (setSlotState_pending ..)) (loadingBegun_kept ..))
    · exact (tilesDrained_kept (List.range 768) v).trans (loadingBegun_kept ..)
  · exact .of rfl

theorem execSeasonLoadDone_pending (s : State) : ∃ u, execSeasonLoadDone s = .next u ∧ u.pending = s.pending :=
  ⟨_, rfl, powered_pending (fun _ => by split <;> simp only [↓loadImage_pending, ↓apply_ite State.pending, ite_self]) s⟩

theorem execSeasonConfirmed_pending (s : State) : ∃ u, execSeasonConfirmed s = .next u ∧ u.pending = s.pending :=
  ⟨_, rfl, powered_pending (fun _ => by split <;> simp only [↓runDeferred_pending, ↓refreshReady_pending, ↓activateSlot_pending,
    ↓apply_ite State.pending, ite_self]) s⟩

theorem execBatchStart_pending (s : State) : ∃ u, execBatchStart s = .next u ∧ u.pending = s.pending :=
  ⟨_, rfl, powered_pending (fun _ => by split <;> simp only [↓startBatch_pending, ↓applyMode_pending, ↓expireModel_pending,
    ↓apply_ite State.pending, ite_self]) s⟩

theorem execStateLoad_pending (t : TileId) (chunk : Nat) (s : State) :
    ∃ u, execStateLoad t chunk s = .next u ∧ u.pending = s.pending :=
  ⟨_, rfl, powered_pending (fun _ => by dsimp only; (repeat' split) <;> simp only [↓microRetired_pending, ↓updTile_pending,
    ↓noteLoaded_pending, ↓hbmTouch_pending, ↓loadFail_pending]) s⟩

theorem execStateStore_pending (t : TileId) (chunk : Nat) (s : State) :
    ∃ u, execStateStore t chunk s = .next u ∧ u.pending = s.pending :=
  ⟨_, rfl, powered_pending (fun _ => by dsimp only; (repeat' split) <;> simp only [↓readRange_pending, ↓microRetired_pending,
    ↓finishBatch_pending]) s⟩

theorem execLayerStart_pending (s : State) : ∃ u, execLayerStart s = .next u ∧ u.pending = s.pending :=
  ⟨_, rfl, powered_pending (fun _ => by dsimp only; (repeat' split) <;> simp only [↓loadInputs_pending, ↓startLayer_pending]) s⟩

theorem execLayerEnd_pending (s : State) : ∃ u, execLayerEnd s = .next u ∧ u.pending = s.pending :=
  ⟨_, rfl, powered_pending (fun _ => by split <;> simp only [↓checkResidue_pending, ↓endLayer_pending, ↓apply_ite State.pending,
    ite_self]) s⟩

/-! ### The owner's acts on the configuration store and on firmware slots, firmware trials, and the failure of an NVM device -/

theorem execInstall_pending (m : Master) (src : Nat) (s : State) : ∃ u, execInstall m src s = .next u ∧ u.pending = s.pending :=
  ⟨_, rfl, by simp only [↓powered_pending, ↓asOwner_pending, ↓cfgCmdWrite_pending, implies_true]⟩

theorem execEnroll_pending (m : Master) (src : Nat) (s : State) : ∃ u, execEnroll m src s = .next u ∧ u.pending = s.pending :=
  ⟨_, rfl, by simp only [↓powered_pending, ↓asOwner_pending, ↓cfgCmdWrite_pending, implies_true]⟩

theorem execSelectCurrent_pending (m : Master) (s : State) : ∃ u, execSelectCurrent m s = .next u ∧ u.pending = s.pending :=
  ⟨_, rfl, by simp only [↓powered_pending, ↓asOwner_pending, ↓cfgCmdWrite_pending, implies_true]⟩

theorem execSelectPrevious_pending (m : Master) (s : State) : ∃ u, execSelectPrevious m s = .next u ∧ u.pending = s.pending :=
  ⟨_, rfl, by simp only [↓powered_pending, ↓asOwner_pending, ↓cfgCmdWrite_pending, implies_true]⟩

theorem execCfgCmdReserved_pending (m : Master) (op : Nat) (s : State) :
    ∃ u, execCfgCmdReserved m op s = .next u ∧ u.pending = s.pending :=
  ⟨_, rfl, by simp only [↓powered_pending, ↓asOwner_pending, ↓cfgCmdWrite_pending, implies_true, ↓apply_ite State.pending,
    ite_self]⟩

theorem execHalfCommand_pending (m : Master) (off _v : Nat) (s : State) :
    ∃ u, execHalfCommand m off _v s = .next u ∧ u.pending = s.pending :=
  ⟨_, rfl, by simp only [↓powered_pending, ↓logAccess_pending, implies_true, ↓apply_ite State.pending, ite_self]⟩

theorem execPermitWrite_pending (m : Master) (v : Nat) (s : State) :
    ∃ u, execPermitWrite m v s = .next u ∧ u.pending = s.pending :=
  ⟨_, rfl, by simp only [↓powered_pending, ↓asOwner_pending, ↓updCtrlWrite_pending, implies_true]⟩

theorem execUpdActivate_pending (m : Master) (s : State) : ∃ u, execUpdActivate m s = .next u ∧ u.pending = s.pending :=
  ⟨_, rfl, by simp only [↓powered_pending, ↓asOwner_pending, ↓updCmdWrite_pending, implies_true]⟩

theorem execArm_pending (m : Master) (s : State) : ∃ u, execArm m s = .next u ∧ u.pending = s.pending :=
  ⟨_, rfl, by simp only [↓powered_pending, ↓asOwner_pending, ↓updCmdWrite_pending, implies_true]⟩

theorem execDisarm_pending (m : Master) (s : State) : ∃ u, execDisarm m s = .next u ∧ u.pending = s.pending :=
  ⟨_, rfl, by simp only [↓powered_pending, ↓asOwner_pending, ↓updCmdWrite_pending, implies_true]⟩

theorem execReject_pending (m : Master) (s : State) : ∃ u, execReject m s = .next u ∧ u.pending = s.pending :=
  ⟨_, rfl, by simp only [↓powered_pending, ↓asOwner_pending, ↓updCmdWrite_pending, implies_true]⟩

theorem execErase_pending (m : Master) (s : State) : ∃ u, execErase m s = .next u ∧ u.pending = s.pending :=
  ⟨_, rfl, by simp only [↓powered_pending, ↓asOwner_pending, ↓updCmdWrite_pending, implies_true]⟩

theorem execAbort_pending (m : Master) (s : State) : ∃ u, execAbort m s = .next u ∧ u.pending = s.pending :=
  ⟨_, rfl, by simp only [↓powered_pending, ↓asOwner_pending, ↓updCmdWrite_pending, implies_true]⟩

theorem execUpdCmdReserved_pending (m : Master) (s : State) : ∃ u, execUpdCmdReserved m s = .next u ∧ u.pending = s.pending :=
  ⟨_, rfl, by simp only [↓powered_pending, ↓asOwner_pending, ↓updCmdWrite_pending, implies_true]⟩

theorem execTrialTimerExpire_pending (s : State) : ∃ u, execTrialTimerExpire s = .next u ∧ u.pending = s.pending :=
  ⟨_, rfl, powered_pending (fun _ => by split <;> simp only [↓deviceResetBy_pending, ↓nv_pending, ↓apply_ite State.pending,
    ite_self]) s⟩

theorem execTrialSpringLimit_pending (s : State) : ∃ u, execTrialSpringLimit s = .next u ∧ u.pending = s.pending :=
  ⟨_, rfl, by simp only [↓powered_pending, ↓fallback_pending, implies_true, ↓apply_ite State.pending, ite_self]⟩

theorem execTrialDeadline_pending (s : State) : ∃ u, execTrialDeadline s = .next u ∧ u.pending = s.pending :=
  ⟨_, rfl, powered_pending (fun _ => by split <;> simp only [↓fallback_pending, ↓apply_ite State.pending, ite_self]) s⟩

theorem execTrialHealthBroken_pending (s : State) : ∃ u, execTrialHealthBroken s = .next u ∧ u.pending = s.pending :=
  ⟨_, rfl, by simp only [↓powered_pending, ↓fallback_pending, implies_true, ↓apply_ite State.pending, ite_self]⟩

theorem execTrialConfirm_pending (s : State) : ∃ u, execTrialConfirm s = .next u ∧ u.pending = s.pending :=
  ⟨_, rfl, by simp only [↓powered_pending, ↓setFwSlot_pending, ↓writeBoot_pending, ↓upd_pending, ↓nv_pending, implies_true,
    ↓apply_ite State.pending, ite_self]⟩

theorem execNvmDeviceFail_pending (b : Bool) (s : State) : ∃ u, execNvmDeviceFail b s = .next u ∧ u.pending = s.pending :=
  ⟨_, rfl, by simp only [↓powered_pending, ↓endUpload_pending, ↓nv_pending, ↓upd_pending, ↓logOpen_pending, implies_true,
    ↓apply_ite State.pending, ite_self]⟩

/-! ### Accesses to the register space -/

theorem execAccessError_pending (m : Master) (off width : Nat) (write : Bool) (s : State) :
    ∃ u, execAccessError m off width write s = .next u ∧ u.pending = s.pending :=
  ⟨_, rfl, by simp only [↓powered_pending, ↓answer_pending, ↓logAccess_pending, implies_true, ↓apply_ite State.pending, ite_self]⟩

theorem execRegisterWrite_pending (ws : List RegWrite) (s : State) :
    ∃ u, execRegisterWrite ws s = .next u ∧ u.pending = s.pending :=
  ⟨_, rfl, by simp only [↓powered_pending, ↓answer_pending, ↓busWrite_pending, ↓foldl_pending, implies_true]⟩

/-! ### Deadlock detection and spill -/

theorem execQuietReport_pending (t : TileId) (s : State) : ∃ u, execQuietReport t s = .next u ∧ u.pending = s.pending :=
  ⟨_, rfl, by simp only [↓powered_pending, ↓runSearch_pending, ↓setSearch_pending, implies_true, ↓apply_ite State.pending,
    ite_self]⟩

theorem execDetectorReply_pending (f peer : FieldId) (s : State) :
    ∃ u, execDetectorReply f peer s = .next u ∧ u.pending = s.pending :=
  ⟨_, rfl, powered_pending (fun _ => by split <;> simp only [↓runSearch_pending, ↓setSearch_pending, ↓apply_ite State.pending,
    ite_self]) s⟩

theorem execDeadlockRecheck_pending (f : FieldId) (s : State) : ∃ u, execDeadlockRecheck f s = .next u ∧ u.pending = s.pending :=
  ⟨_, rfl, powered_pending (fun _ => by dsimp only; (repeat' split) <;> simp only [↓satAdd_pending, ↓setSearch_pending,
    ↓deadlockFault_pending, ↓openSpill_pending]) s⟩

theorem execSpillClose_pending (t : TileId) (q : Nat) (s : State) : ∃ u, execSpillClose t q s = .next u ∧ u.pending = s.pending :=
  ⟨_, rfl, powered_pending (fun _ => by dsimp only; (repeat' split) <;> simp only [↓upd_pending, ↓setQueue_pending,
    ↓setCredit_pending, ↓checkEnd_pending, ↓pump_pending]) s⟩

theorem execSpillDrain_pending (t : TileId) (q : Nat) (s : State) : ∃ u, execSpillDrain t q s = .next u ∧ u.pending = s.pending :=
  ⟨_, rfl, powered_pending (fun _ => by dsimp only; (repeat' split) <;> simp only [↓spillRead_pending, ↓microRetired_pending,
    ↓enqueue_pending, ↓setQueue_pending]) s⟩

/-! ### The I3C target -/

theorem execEntdaa_pending (addr : Nat) (s : State) : ∃ u, execEntdaa addr s = .next u ∧ u.pending = s.pending :=
  ⟨_, rfl, by simp only [↓powered_pending, ↓answer_pending, ↓i3_pending, implies_true, ↓apply_ite State.pending, ite_self]⟩

theorem execSetdasa_pending (target addr : Nat) (s : State) : ∃ u, execSetdasa target addr s = .next u ∧ u.pending = s.pending :=
  ⟨_, rfl, by simp only [↓powered_pending, ↓answer_pending, ↓i3_pending, implies_true, ↓apply_ite State.pending, ite_self]⟩

theorem execRstdaa_pending (s : State) : ∃ u, execRstdaa s = .next u ∧ u.pending = s.pending :=
  ⟨_, rfl, powered_pending (fun _ => by simp only [↓answer_pending, ↓i3_pending]) s⟩

theorem execGetpid_pending (s : State) : ∃ u, execGetpid s = .next u ∧ u.pending = s.pending :=
  ⟨_, rfl, powered_pending (fun _ => by simp only [↓answer_pending]) s⟩

theorem execGetbcr_pending (s : State) : ∃ u, execGetbcr s = .next u ∧ u.pending = s.pending :=
  ⟨_, rfl, powered_pending (fun _ => by simp only [↓answer_pending]) s⟩

theorem execGetdcr_pending (s : State) : ∃ u, execGetdcr s = .next u ∧ u.pending = s.pending :=
  ⟨_, rfl, powered_pending (fun _ => by simp only [↓answer_pending]) s⟩

theorem execGetstatus_pending (s : State) : ∃ u, execGetstatus s = .next u ∧ u.pending = s.pending :=
  ⟨_, rfl, powered_pending (fun _ => by simp only [↓answer_pending]) s⟩

theorem execGetmwl_pending (s : State) : ∃ u, execGetmwl s = .next u ∧ u.pending = s.pending :=
  ⟨_, rfl, powered_pending (fun _ => by simp only [↓answer_pending]) s⟩

theorem execGetmrl_pending (s : State) : ∃ u, execGetmrl s = .next u ∧ u.pending = s.pending :=
  ⟨_, rfl, powered_pending (fun _ => by simp only [↓answer_pending]) s⟩

theorem execI3cCccUnsupported_pending (_code : Nat) (s : State) :
    ∃ u, execI3cCccUnsupported _code s = .next u ∧ u.pending = s.pending :=
  ⟨_, rfl, powered_pending (fun _ => by simp only [↓answer_pending]) s⟩

theorem execI3cPrivateWrite_pending (bytes : List Byte) (s : State) :
    ∃ u, execI3cPrivateWrite bytes s = .next u ∧ u.pending = s.pending :=
  ⟨_, rfl, by simp only [↓powered_pending, ↓answer_pending, ↓i3_pending, implies_true, ↓apply_ite State.pending, ite_self]⟩

theorem execI3cPrivateRead_pending (wide : Bool) (s : State) : ∃ u, execI3cPrivateRead wide s = .next u ∧ u.pending = s.pending :=
  ⟨_, rfl, powered_pending (fun _ => by split <;> simp only [↓busRead_pending, ↓i3_pending, ↓answer_pending]) s⟩

theorem execI3cIbi_pending (s : State) : ∃ u, execI3cIbi s = .next u ∧ u.pending = s.pending := by
  refine ⟨_, rfl, powered_pending (fun v => ?_) s⟩
  dsimp only
  split
  · exact ite_pending rfl ((answer_pending ..).trans (i3_pending ..))
  · rfl

/-! ### The SPDM 1 -/

theorem execGetVersion_pending (tr : Transport) (x : SpdmReq) (s : State) :
    ∃ u, execGetVersion tr x s = .next u ∧ u.pending = s.pending :=
  ⟨_, rfl, by simp only [↓powered_pending, ↓spdmRequest_pending, ↓respond_pending, implies_true]⟩

theorem execGetCapabilities_pending (tr : Transport) (x : SpdmReq) (s : State) :
    ∃ u, execGetCapabilities tr x s = .next u ∧ u.pending = s.pending :=
  ⟨_, rfl, by simp only [↓powered_pending, ↓spdmRequest_pending, ↓respond_pending, implies_true]⟩

theorem execNegotiateAlgorithms_pending (tr : Transport) (x : SpdmReq) (s : State) :
    ∃ u, execNegotiateAlgorithms tr x s = .next u ∧ u.pending = s.pending :=
  ⟨_, rfl, by simp only [↓powered_pending, ↓spdmRequest_pending, ↓spdmError_pending, ↓respond_pending, implies_true, ↓apply_ite
    State.pending, ite_self]⟩

theorem execGetDigests_pending (tr : Transport) (x : SpdmReq) (s : State) :
    ∃ u, execGetDigests tr x s = .next u ∧ u.pending = s.pending :=
  ⟨_, rfl, by simp only [↓powered_pending, ↓spdmRequest_pending, ↓respond_pending, implies_true]⟩

theorem execGetCertificate_pending (tr : Transport) (x : SpdmReq) (off len : Nat) (s : State) :
    ∃ u, execGetCertificate tr x off len s = .next u ∧ u.pending = s.pending :=
  ⟨_, rfl, by simp only [↓powered_pending, ↓spdmRequest_pending, ↓spdmError_pending, ↓respond_pending, implies_true, ↓apply_ite
    State.pending, ite_self]⟩

theorem execChallenge_pending (tr : Transport) (x : SpdmReq) (_nonce : List Byte) (s : State) :
    ∃ u, execChallenge tr x _nonce s = .next u ∧ u.pending = s.pending :=
  ⟨_, rfl, by simp only [↓powered_pending, ↓spdmRequest_pending, ↓challenge_pending, implies_true]⟩

theorem execGetMeasurements_pending (tr : Transport) (x : SpdmReq) (index : Nat) (sign : Bool) (_nonce : List Byte) (s : State) :
    ∃ u, execGetMeasurements tr x index sign _nonce s = .next u ∧ u.pending = s.pending :=
  ⟨_, rfl, by simp only [↓powered_pending, ↓spdmRequest_pending, ↓measurements_pending, implies_true]⟩

theorem execSpdmUnsupported_pending (tr : Transport) (x : SpdmReq) (s : State) :
    ∃ u, execSpdmUnsupported tr x s = .next u ∧ u.pending = s.pending :=
  ⟨_, rfl, by simp only [↓powered_pending, ↓spdmRequest_pending, ↓spdmError_pending, implies_true]⟩

/-! ### The service port -/

theorem execHello_pending (x : SvcHdr) (nc : List Byte) (s : State) : ∃ u, execHello x nc s = .next u ∧ u.pending = s.pending :=
  ⟨_, rfl, by simp only [↓powered_pending, ↓hello_pending, implies_true]⟩

theorem execAuthKey_pending (x : SvcHdr) (key : List Byte) (s : State) :
    ∃ u, execAuthKey x key s = .next u ∧ u.pending = s.pending := by
  refine ⟨_, rfl, powered_pending (fun v => ?_) s⟩
  split
  · exact plainReply_pending ..
  · split
    · exact plainReply_pending ..
    · split
      · exact (plainReply_pending ..).trans (sv_pending ..)
      · exact denyOpen_pending ..

theorem execAuth_pending (x : SvcHdr) (cipher sig : List Byte) (s : State) :
    ∃ u, execAuth x cipher sig s = .next u ∧ u.pending = s.pending := by
  refine ⟨_, rfl, powered_pending (fun v => ?_) s⟩
  split
  · exact plainReply_pending ..
  · split
    · exact plainReply_pending ..
    · split
      · exact authFailed_pending ..
      · split
        · exact openSession_pending ..
        · exact authFailed_pending ..

theorem execSvcHalfOpenLapse_pending (s : State) : ∃ u, execSvcHalfOpenLapse s = .next u ∧ u.pending = s.pending :=
  ⟨_, rfl, powered_pending (fun _ => by simp only [↓sv_pending]) s⟩

theorem execSvcSessionTimeout_pending (s : State) : ∃ u, execSvcSessionTimeout s = .next u ∧ u.pending = s.pending :=
  ⟨_, rfl, by simp only [↓powered_pending, ↓sessionDue_pending, implies_true]⟩

theorem execClose_pending (x : SvcMsg) (s : State) : ∃ u, execClose x s = .next u ∧ u.pending = s.pending :=
  ⟨_, rfl, by simp only [↓powered_pending, ↓sessionMsg_pending, ↓emptyRequest_pending, implies_true]⟩

theorem execNop_pending (x : SvcMsg) (s : State) : ∃ u, execNop x s = .next u ∧ u.pending = s.pending :=
  ⟨_, rfl, by simp only [↓powered_pending, ↓sessionMsg_pending, ↓emptyRequest_pending, implies_true]⟩

theorem execRegRead_pending (x : SvcMsg) (s : State) : ∃ u, execRegRead x s = .next u ∧ u.pending = s.pending :=
  ⟨_, rfl, by simp only [↓powered_pending, ↓sessionMsg_pending, ↓regReadRequest_pending, implies_true]⟩

theorem execRegWrite_pending (x : SvcMsg) (s : State) : ∃ u, execRegWrite x s = .next u ∧ u.pending = s.pending :=
  ⟨_, rfl, by simp only [↓powered_pending, ↓sessionMsg_pending, ↓regWriteRequest_pending, implies_true]⟩

theorem execCfgPart_pending (x : SvcMsg) (s : State) : ∃ u, execCfgPart x s = .next u ∧ u.pending = s.pending :=
  ⟨_, rfl, powered_pending (fun _ => by simp only [↓sessionMsg_pending, ↓ownerRequest_pending, ↓cfgPartRequest_pending,
    implies_true]) s⟩

theorem execEnrollPart_pending (x : SvcMsg) (s : State) : ∃ u, execEnrollPart x s = .next u ∧ u.pending = s.pending :=
  ⟨_, rfl, powered_pending (fun _ => by simp only [↓sessionMsg_pending, ↓ownerRequest_pending, ↓enrollPartRequest_pending,
    implies_true]) s⟩

theorem execCfgSelect_pending (x : SvcMsg) (s : State) : ∃ u, execCfgSelect x s = .next u ∧ u.pending = s.pending :=
  ⟨_, rfl, powered_pending (fun _ => by simp only [↓sessionMsg_pending, ↓ownerRequest_pending, ↓cfgSelectRequest_pending,
    implies_true]) s⟩

theorem execFwBegin_pending (x : SvcMsg) (s : State) : ∃ u, execFwBegin x s = .next u ∧ u.pending = s.pending :=
  ⟨_, rfl, powered_pending (fun _ => by simp only [↓sessionMsg_pending, ↓ownerRequest_pending, ↓fwBeginRequest_pending,
    implies_true]) s⟩

theorem execFwData_pending (x : SvcMsg) (s : State) : ∃ u, execFwData x s = .next u ∧ u.pending = s.pending :=
  ⟨_, rfl, powered_pending (fun _ => by simp only [↓sessionMsg_pending, ↓ownerRequest_pending, ↓fwDataRequest_pending,
    implies_true]) s⟩

theorem execFwEnd_pending (x : SvcMsg) (s : State) : ∃ u, execFwEnd x s = .next u ∧ u.pending = s.pending :=
  ⟨_, rfl, powered_pending (fun _ => by simp only [↓sessionMsg_pending, ↓ownerRequest_pending, ↓fwEndRequest_pending,
    implies_true]) s⟩

theorem execFwAbort_pending (x : SvcMsg) (s : State) : ∃ u, execFwAbort x s = .next u ∧ u.pending = s.pending :=
  ⟨_, rfl, powered_pending (fun _ => by simp only [↓sessionMsg_pending, ↓ownerRequest_pending, ↓fwAbortRequest_pending,
    implies_true]) s⟩

theorem execLogRead_pending (x : SvcMsg) (s : State) : ∃ u, execLogRead x s = .next u ∧ u.pending = s.pending :=
  ⟨_, rfl, by simp only [↓powered_pending, ↓sessionMsg_pending, ↓logReadRequest_pending, implies_true]⟩

theorem execEventAck_pending (x : SvcMsg) (s : State) : ∃ u, execEventAck x s = .next u ∧ u.pending = s.pending :=
  ⟨_, rfl, by simp only [↓powered_pending, ↓sessionMsg_pending, ↓eventAckRequest_pending, implies_true]⟩

theorem execSvcEventResend_pending (seq : Nat) (s : State) : ∃ u, execSvcEventResend seq s = .next u ∧ u.pending = s.pending := by
  refine ⟨_, rfl, powered_pending (fun v => ?_) s⟩
  split
  · rfl
  · exact ite_pending ((answer_pending ..).trans (sv_pending ..)) rfl

theorem execSvcBlockLock_pending (lock : Bool) (s : State) : ∃ u, execSvcBlockLock lock s = .next u ∧ u.pending = s.pending :=
  ⟨_, rfl, powered_pending (fun _ => by simp only [↓upd_pending]) s⟩

theorem execArpNeighbourDiscovery_pending (v6 : Bool) (addr _mac : Nat) (s : State) :
    ∃ u, execArpNeighbourDiscovery v6 addr _mac s = .next u ∧ u.pending = s.pending :=
  ⟨_, rfl, powered_pending (fun _ => by simp only [↓answer_pending]) s⟩

theorem execIcmpEcho_pending (v6 : Bool) (addr : Nat) (data : List Byte) (s : State) :
    ∃ u, execIcmpEcho v6 addr data s = .next u ∧ u.pending = s.pending :=
  ⟨_, rfl, powered_pending (fun _ => by simp only [↓answer_pending]) s⟩

/-- Each command of the table answers a next state whose queue is the one the command met. -/
theorem exec_pending (c : Instr) (s : State) : ∃ u, exec c s = .next u ∧ u.pending = s.pending := by
  unfold exec
  cases c with
  | accessError _ _ _ _ => exact execAccessError_pending ..
  | registerWrite _ => exact execRegisterWrite_pending ..
  | sqDoorbell _ _ _ _ => exact execSqDoorbell_pending ..
  | cqDoorbell _ _ _ _ => exact execCqDoorbell_pending ..
  | descriptorFetch => exact execDescriptorFetch_pending ..
  | switchPoint => exact execSwitchPoint_pending ..
  | batchStart => exact execBatchStart_pending ..
  | deadlineExpire _ => exact execDeadlineExpire_pending ..
  | completionWrite _ => exact execCompletionWrite_pending ..
  | msixSignal _ _ => exact execMsixSignal_pending ..
  | slotCfgWrite _ _ _ => exact execSlotCfgWrite_pending ..
  | stage _ _ _ => exact execStage_pending ..
  | stageDone _ => exact execStageDone_pending ..
  | remove _ _ _ => exact execRemove_pending ..
  | activate _ _ _ => exact execActivate_pending ..
  | seasonDrainDone => exact execSeasonDrainDone_pending ..
  | seasonLoadDone => exact execSeasonLoadDone_pending ..
  | seasonConfirmed => exact execSeasonConfirmed_pending ..
  | layerStart => exact execLayerStart_pending ..
  | layerEnd => exact execLayerEnd_pending ..
  | testWindowClose _ => exact execTestWindowClose_pending ..
  | unitFire _ _ _ => exact execUnitFire_pending ..
  | operandArrive _ _ _ => exact execOperandArrive_pending ..
  | tagHorizonExpire _ _ => exact execTagHorizonExpire_pending ..
  | passIssue _ => exact execPassIssue_pending ..
  | weightFrontStart _ => exact execWeightFrontStart_pending ..
  | weightFetch _ => exact execWeightFetch_pending ..
  | weightFetchDone _ => exact execWeightFetchDone_pending ..
  | passComplete _ _ => exact execPassComplete_pending ..
  | kernelStart _ => exact execKernelStart_pending ..
  | frameStart _ => exact execFrameStart_pending ..
  | tilRunEn _ _ _ => exact execTilRunEn_pending ..
  | tilHaltReq _ _ _ => exact execTilHaltReq_pending ..
  | tilTestWin _ _ _ => exact execTilTestWin_pending ..
  | tilCntFreeze _ _ _ => exact execTilCntFreeze_pending ..
  | tilCntClear _ _ => exact execTilCntClear_pending ..
  | tileDrainDone _ => exact execTileDrainDone_pending ..
  | tilFaultClear _ _ => exact execTilFaultClear_pending ..
  | tilDfFaultClear _ _ => exact execTilDfFaultClear_pending ..
  | tileReset _ => exact execTileReset_pending ..
  | spVectorArith _ _ _ => exact execSpVectorArith_pending ..
  | spConvert _ _ _ => exact execSpConvert_pending ..
  | spLa96Convert _ _ _ => exact execSpLa96Convert_pending ..
  | spMxPack _ _ _ => exact execSpMxPack_pending ..
  | spMxUnpack _ _ _ => exact execSpMxUnpack_pending ..
  | spFunction _ _ _ => exact execSpFunction_pending ..
  | spLaneReduce _ _ _ => exact execSpLaneReduce_pending ..
  | spIntLogic _ _ _ => exact execSpIntLogic_pending ..
  | spVectorLoadStore _ _ _ _ => exact execSpVectorLoadStore_pending ..
  | spLa96LoadStore _ _ _ => exact execSpLa96LoadStore_pending ..
  | spScalarLoadStore _ _ _ _ => exact execSpScalarLoadStore_pending ..
  | spAnchorRead _ _ => exact execSpAnchorRead_pending ..
  | spBranch _ _ _ => exact execSpBranch_pending ..
  | spHwLoop _ _ => exact execSpHwLoop_pending ..
  | spMcReturn _ => exact execSpMcReturn_pending ..
  | spEmit _ _ => exact execSpEmit_pending ..
  | spWaitFlag _ _ _ => exact execSpWaitFlag_pending ..
  | spFence _ => exact execSpFence_pending ..
  | spEndKernel _ => exact execSpEndKernel_pending ..
  | spIllegal _ _ => exact execSpIllegal_pending ..
  | mcAbsent _ _ => exact execMcAbsent_pending ..
  | katRun _ _ => exact execKatRun_pending ..
  | digest64 _ _ => exact execDigest64_pending ..
  | wdigest _ _ => exact execWdigest_pending ..
  | anchorCombine _ => exact execAnchorCombine_pending ..
  | stateLoad _ _ => exact execStateLoad_pending ..
  | stateStore _ _ => exact execStateStore_pending ..
  | spillDrain _ _ => exact execSpillDrain_pending ..
  | dmaSubmit _ => exact execDmaSubmit_pending ..
  | latSend _ => exact execLatSend_pending ..
  | barArrive _ => exact execBarArrive_pending ..
  | flagWrite _ => exact execFlagWrite_pending ..
  | quietReport _ => exact execQuietReport_pending ..
  | detectorReply _ _ => exact execDetectorReply_pending ..
  | deadlockRecheck _ => exact execDeadlockRecheck_pending ..
  | spillClose _ _ => exact execSpillClose_pending ..
  | dmaDescStart _ _ _ => exact execDmaDescStart_pending ..
  | dmaTimeout _ _ _ => exact execDmaTimeout_pending ..
  | notifyResend _ _ => exact execNotifyResend_pending ..
  | landingReceive _ _ _ => exact execLandingReceive_pending ..
  | la96Receive _ _ _ => exact execLa96Receive_pending ..
  | channelCredit _ _ => exact execChannelCredit_pending ..
  | tunnelFlush _ _ _ => exact execTunnelFlush_pending ..
  | routerForward _ _ _ => exact execRouterForward_pending ..
  | ctlTimeout _ _ => exact execCtlTimeout_pending ..
  | pktOperand _ => exact execPktOperand_pending ..
  | pktAck _ => exact execPktAck_pending ..
  | pktRefuse _ => exact execPktRefuse_pending ..
  | pktReadReqWindow _ => exact execPktReadReqWindow_pending ..
  | pktReadReqHbm _ => exact execPktReadReqHbm_pending ..
  | pktNotify _ => exact execPktNotify_pending ..
  | pktFlagWrite _ => exact execPktFlagWrite_pending ..
  | pktBarArrive _ => exact execPktBarArrive_pending ..
  | pktTunnelCredit _ => exact execPktTunnelCredit_pending ..
  | pktMgmt _ => exact execPktMgmt_pending ..
  | pktWrite _ => exact execPktWrite_pending ..
  | pktHbmWrite _ => exact execPktHbmWrite_pending ..
  | pktReadData _ => exact execPktReadData_pending ..
  | pktPrivWrite _ => exact execPktPrivWrite_pending ..
  | pktLatTunnel _ => exact execPktLatTunnel_pending ..
  | pktReservedOpcode _ => exact execPktReservedOpcode_pending ..
  | quiesce => exact execQuiesce_pending ..
  | seamWireMark _ _ _ => exact execSeamWireMark_pending ..
  | stackTempRead _ _ _ _ => exact execStackTempRead_pending ..
  | hbmScrub _ _ _ => exact execHbmScrub_pending ..
  | hbmChannelFail _ _ => exact execHbmChannelFail_pending ..
  | mark _ _ => exact execMark_pending ..
  | unmark _ _ => exact execUnmark_pending ..
  | restore _ _ => exact execRestore_pending ..
  | hbmMemoryTestDone _ _ _ => exact execHbmMemoryTestDone_pending ..
  | linkTrainDone _ => exact execLinkTrainDone_pending ..
  | linkTrainTimeout _ => exact execLinkTrainTimeout_pending ..
  | linkAlignDone _ _ => exact execLinkAlignDone_pending ..
  | linkAlignFail _ => exact execLinkAlignFail_pending ..
  | initFrameSend _ => exact execInitFrameSend_pending ..
  | initFrameReceive _ _ => exact execInitFrameReceive_pending ..
  | linkInitTimeout _ => exact execLinkInitTimeout_pending ..
  | linkRetry _ => exact execLinkRetry_pending ..
  | linkFrameSend _ => exact execLinkFrameSend_pending ..
  | seqFrameReceive _ _ _ => exact execSeqFrameReceive_pending ..
  | nullFrameReceive _ _ _ => exact execNullFrameReceive_pending ..
  | frameCrcFail _ _ => exact execFrameCrcFail_pending ..
  | nakResend _ => exact execNakResend_pending ..
  | linkReplay _ => exact execLinkReplay_pending ..
  | linkReplayTimeout _ => exact execLinkReplayTimeout_pending ..
  | linkSilence _ => exact execLinkSilence_pending ..
  | linkUcwLimit _ => exact execLinkUcwLimit_pending ..
  | linkCreditStall _ _ => exact execLinkCreditStall_pending ..
  | lnkCtrlWrite _ _ _ => exact execLnkCtrlWrite_pending ..
  | lnkNarrowWrite _ _ _ _ => exact execLnkNarrowWrite_pending ..
  | lnkCntClear _ _ => exact execLnkCntClear_pending ..
  | cxlMemRead _ _ => exact execCxlMemRead_pending ..
  | cxlMemWrite _ _ _ _ => exact execCxlMemWrite_pending ..
  | hdmCommit _ _ _ _ => exact execHdmCommit_pending ..
  | sqCfgWrite _ _ _ _ _ => exact execSqCfgWrite_pending ..
  | cqCfgWrite _ _ _ _ _ => exact execCqCfgWrite_pending ..
  | ownHeadRangeWrite _ _ _ => exact execOwnHeadRangeWrite_pending ..
  | headLinkDown _ => exact execHeadLinkDown_pending ..
  | headLinkUp _ _ _ => exact execHeadLinkUp_pending ..
  | perstAssert _ _ => exact execPerstAssert_pending ..
  | perstDeassert _ => exact execPerstDeassert_pending ..
  | identifyMemoryDevice _ => exact execIdentifyMemoryDevice_pending ..
  | getSupportedLogs _ => exact execGetSupportedLogs_pending ..
  | getLog _ _ => exact execGetLog_pending ..
  | getEventRecords _ _ => exact execGetEventRecords_pending ..
  | clearEventRecords _ _ _ => exact execClearEventRecords_pending ..
  | getTimestamp _ => exact execGetTimestamp_pending ..
  | getHealthInfo _ => exact execGetHealthInfo_pending ..
  | setTimestamp _ _ => exact execSetTimestamp_pending ..
  | mailboxUnsupported _ _ => exact execMailboxUnsupported_pending ..
  | doeDiscovery _ _ => exact execDoeDiscovery_pending ..
  | cdatTableAccess _ _ => exact execCdatTableAccess_pending ..
  | claim _ => exact execClaim_pending ..
  | renew _ => exact execRenew_pending ..
  | release _ => exact execRelease_pending ..
  | transfer _ _ => exact execTransfer_pending ..
  | ownCmdReserved _ _ _ => exact execOwnCmdReserved_pending ..
  | leaseLow => exact execLeaseLow_pending ..
  | leaseLapse => exact execLeaseLapse_pending ..
  | claimWindowExpire => exact execClaimWindowExpire_pending ..
  | tileSramScrub _ _ _ _ => exact execTileSramScrub_pending ..
  | digestArrive _ => exact execDigestArrive_pending ..
  | digestTimeout _ => exact execDigestTimeout_pending ..
  | wdigestRoundStart => exact execWdigestRoundStart_pending ..
  | wdigLate _ => exact execWdigLate_pending ..
  | vinHighEnter _ _ => exact execVinHighEnter_pending ..
  | vinHighRelease _ _ => exact execVinHighRelease_pending ..
  | overvoltEnter _ _ => exact execOvervoltEnter_pending ..
  | overvoltRelease _ _ => exact execOvervoltRelease_pending ..
  | capEnter _ _ => exact execCapEnter_pending ..
  | capRelease _ _ => exact execCapRelease_pending ..
  | haltEnter _ _ => exact execHaltEnter_pending ..
  | haltRelease _ _ => exact execHaltRelease_pending ..
  | brownout _ _ => exact execBrownout_pending ..
  | brownoutRelease _ _ => exact execBrownoutRelease_pending ..
  | inputEnBreak => exact execInputEnBreak_pending ..
  | vinQualify _ _ _ => exact execVinQualify_pending ..
  | supplyInRegulation _ => exact execSupplyInRegulation_pending ..
  | shutdown _ => exact execShutdown_pending ..
  | pwrCmdReserved _ _ => exact execPwrCmdReserved_pending ..
  | ibcFail _ _ => exact execIbcFail_pending ..
  | senseFault _ _ _ => exact execSenseFault_pending ..
  | fieldLoss _ _ => exact execFieldLoss_pending ..
  | phaseFail _ _ => exact execPhaseFail_pending ..
  | shortTrip _ _ => exact execShortTrip_pending ..
  | admissionGrant _ => exact execAdmissionGrant_pending ..
  | admissionForced _ => exact execAdmissionForced_pending ..
  | softStartDone _ => exact execSoftStartDone_pending ..
  | clusterRampDownDone _ => exact execClusterRampDownDone_pending ..
  | auxConverterFault _ => exact execAuxConverterFault_pending ..
  | auxRailFault _ => exact execAuxRailFault_pending ..
  | hostRailFault _ => exact execHostRailFault_pending ..
  | controlSample _ => exact execControlSample_pending ..
  | autumnExit => exact execAutumnExit_pending ..
  | thermalUpdate => exact execThermalUpdate_pending ..
  | tempSample _ _ => exact execTempSample_pending ..
  | coolingReturn _ => exact execCoolingReturn_pending ..
  | dieTrip _ _ _ => exact execDieTrip_pending ..
  | coolantSample _ _ => exact execCoolantSample_pending ..
  | winterRequest _ _ => exact execWinterRequest_pending ..
  | winterEnter => exact execWinterEnter_pending ..
  | winterExit _ => exact execWinterExit_pending ..
  | pllLock _ => exact execPllLock_pending ..
  | pllLockLoss _ => exact execPllLockLoss_pending ..
  | pllRelockTimeout _ => exact execPllRelockTimeout_pending ..
  | crefLoss => exact execCrefLoss_pending ..
  | skewRead _ _ => exact execSkewRead_pending ..
  | marginReport _ _ => exact execMarginReport_pending ..
  | stepUpBegin => exact execStepUpBegin_pending ..
  | dividerSwitch _ => exact execDividerSwitch_pending ..
  | vsetStep _ => exact execVsetStep_pending ..
  | syncStrobe _ => exact execSyncStrobe_pending ..
  | epochWrite _ _ _ => exact execEpochWrite_pending ..
  | fabricReset _ _ => exact execFabricReset_pending ..
  | deviceReset _ => exact execDeviceReset_pending ..
  | powerOnReset => exact execPowerOnReset_pending ..
  | fcWatchdogExpire _ => exact execFcWatchdogExpire_pending ..
  | supWatchdogExpire => exact execSupWatchdogExpire_pending ..
  | resetCmdFabric _ => exact execResetCmdFabric_pending ..
  | resetCmdDevice _ => exact execResetCmdDevice_pending ..
  | resetCmdReserved _ => exact execResetCmdReserved_pending ..
  | rebuild _ => exact execRebuild_pending ..
  | retryField _ _ => exact execRetryField_pending ..
  | cancel _ => exact execCancel_pending ..
  | bootRomStart _ => exact execBootRomStart_pending ..
  | supervisorFirmwareStart _ => exact execSupervisorFirmwareStart_pending ..
  | fieldControllerBoot _ => exact execFieldControllerBoot_pending ..
  | fieldQuoteReceive _ _ => exact execFieldQuoteReceive_pending ..
  | springStep _ => exact execSpringStep_pending ..
  | springDone => exact execSpringDone_pending ..
  | standbyPromote _ _ => exact execStandbyPromote_pending ..
  | remapTargetsReady _ => exact execRemapTargetsReady_pending ..
  | remapBeginWritten => exact execRemapBeginWritten_pending ..
  | remapCopyDone _ => exact execRemapCopyDone_pending ..
  | remapCommitWritten => exact execRemapCommitWritten_pending ..
  | remapEndWritten => exact execRemapEndWritten_pending ..
  | nvmDeviceFail _ => exact execNvmDeviceFail_pending ..
  | install _ _ => exact execInstall_pending ..
  | enroll _ _ => exact execEnroll_pending ..
  | selectCurrent _ => exact execSelectCurrent_pending ..
  | selectPrevious _ => exact execSelectPrevious_pending ..
  | cfgCmdReserved _ _ => exact execCfgCmdReserved_pending ..
  | halfCommand _ _ _ => exact execHalfCommand_pending ..
  | permitWrite _ _ => exact execPermitWrite_pending ..
  | updActivate _ => exact execUpdActivate_pending ..
  | arm _ => exact execArm_pending ..
  | disarm _ => exact execDisarm_pending ..
  | reject _ => exact execReject_pending ..
  | erase _ => exact execErase_pending ..
  | abort _ => exact execAbort_pending ..
  | updCmdReserved _ => exact execUpdCmdReserved_pending ..
  | trialTimerExpire => exact execTrialTimerExpire_pending ..
  | trialSpringLimit => exact execTrialSpringLimit_pending ..
  | trialDeadline => exact execTrialDeadline_pending ..
  | trialHealthBroken => exact execTrialHealthBroken_pending ..
  | trialConfirm => exact execTrialConfirm_pending ..
  | hello _ _ => exact execHello_pending ..
  | authKey _ _ => exact execAuthKey_pending ..
  | auth _ _ _ => exact execAuth_pending ..
  | svcHalfOpenLapse => exact execSvcHalfOpenLapse_pending ..
  | close _ => exact execClose_pending ..
  | nop _ => exact execNop_pending ..
  | svcSessionTimeout => exact execSvcSessionTimeout_pending ..
  | regRead _ => exact execRegRead_pending ..
  | regWrite _ => exact execRegWrite_pending ..
  | cfgPart _ => exact execCfgPart_pending ..
  | enrollPart _ => exact execEnrollPart_pending ..
  | cfgSelect _ => exact execCfgSelect_pending ..
  | fwBegin _ => exact execFwBegin_pending ..
  | fwData _ => exact execFwData_pending ..
  | fwEnd _ => exact execFwEnd_pending ..
  | fwAbort _ => exact execFwAbort_pending ..
  | logRead _ => exact execLogRead_pending ..
  | eventAck _ => exact execEventAck_pending ..
  | svcEventResend _ => exact execSvcEventResend_pending ..
  | getVersion _ _ => exact execGetVersion_pending ..
  | getCapabilities _ _ => exact execGetCapabilities_pending ..
  | negotiateAlgorithms _ _ => exact execNegotiateAlgorithms_pending ..
  | getDigests _ _ => exact execGetDigests_pending ..
  | getCertificate _ _ _ _ => exact execGetCertificate_pending ..
  | challenge _ _ _ => exact execChallenge_pending ..
  | getMeasurements _ _ _ _ _ => exact execGetMeasurements_pending ..
  | spdmUnsupported _ _ => exact execSpdmUnsupported_pending ..
  | logPageWrite => exact execLogPageWrite_pending ..
  | lifetimeWrite => exact execLifetimeWrite_pending ..
  | lifetimePersist _ _ => exact execLifetimePersist_pending ..
  | stressTick => exact execStressTick_pending ..
  | entdaa _ => exact execEntdaa_pending ..
  | setdasa _ _ => exact execSetdasa_pending ..
  | rstdaa => exact execRstdaa_pending ..
  | getpid => exact execGetpid_pending ..
  | getbcr => exact execGetbcr_pending ..
  | getdcr => exact execGetdcr_pending ..
  | getstatus => exact execGetstatus_pending ..
  | getmwl => exact execGetmwl_pending ..
  | getmrl => exact execGetmrl_pending ..
  | i3cCccUnsupported _ => exact execI3cCccUnsupported_pending ..
  | i3cPrivateWrite _ => exact execI3cPrivateWrite_pending ..
  | i3cPrivateRead _ => exact execI3cPrivateRead_pending ..
  | i3cIbi => exact execI3cIbi_pending ..
  | inputEnMate _ => exact execInputEnMate_pending ..
  | svcBlockLock _ => exact execSvcBlockLock_pending ..
  | arpNeighbourDiscovery _ _ _ => exact execArpNeighbourDiscovery_pending ..
  | icmpEcho _ _ _ => exact execIcmpEcho_pending ..

/-- Settles O4: each command is an operation that answers a next state and leaves the queue alone. -/
theorem everyCommandCompletes : Obligations.EveryCommandCompletes := by
  unfold Obligations.EveryCommandCompletes
  exact exec_pending

end Sys2Proof.Machine

end
